-- ==== Sys2Proof/Word.lean ====
section
/-!
DEFINITION. The plainest helpers: bytes and words, fixed-size tables read and written by number.
-/
namespace Sys2Proof

/-- A register word (R366). -/
abbrev Word := BitVec 32

/-- A byte. -/
abbrev Byte := BitVec 8

/-- Entry `i` of a fixed-size table; the default value beyond its end. -/
def vat {α : Type} [Inhabited α] {n : Nat} (v : Vector α n) (i : Nat) : α := v.toList.getD i default

/-- The table with entry `i` replaced; unchanged when `i` is beyond its end. -/
def vset {α : Type} {n : Nat} (v : Vector α n) (i : Nat) (x : α) : Vector α n := v.setIfInBounds i x

/-- The table with entry `i` changed by `f`. -/
def vmod {α : Type} [Inhabited α] {n : Nat} (v : Vector α n) (i : Nat) (f : α → α) : Vector α n :=
  vset v i (f (vat v i))

/-- Bit `i` of a number. -/
def bitOf (x i : Nat) : Bool := x.testBit i

/-- Bits `lo + w - 1` to `lo` of a number (R4). -/
def bitsOf (x lo w : Nat) : Nat := x / 2 ^ lo % 2 ^ w

/-- 1 for true, 0 for false. -/
def b2n (b : Bool) : Nat := if b then 1 else 0

/-- A signed number of `w` bits in two's complement, as the field of a register holds it. -/
def toField (w : Nat) (x : Int) : Nat := (x % (2 ^ w : Nat)).toNat

/-- The signed value of a field of `w` bits in two's complement. -/
def ofField (w x : Nat) : Int := if x < 2 ^ (w - 1) then (x : Int) else (x : Int) - (2 ^ w : Nat)

/-- Little-endian number of the bytes (R4). -/
def leNat : List Byte → Nat
  | [] => 0
  | b :: t => b.toNat + 256 * leNat t

/-- The `n` little-endian bytes of a number (R4). -/
def leBytes : Nat → Nat → List Byte
  | 0, _ => []
  | n + 1, x => BitVec.ofNat 8 x :: leBytes n (x / 256)

/-- Bytes grouped into little-endian words, the last padded with zeros. -/
def leWords : List Byte → List Word
  | [] => []
  | [a] => [BitVec.ofNat 32 (leNat [a])]
  | [a, b] => [BitVec.ofNat 32 (leNat [a, b])]
  | [a, b, c] => [BitVec.ofNat 32 (leNat [a, b, c])]
  | a :: b :: c :: d :: t => BitVec.ofNat 32 (leNat [a, b, c, d]) :: leWords t

end Sys2Proof
end

