-- ==== Sys2Proof/Syntax.lean ====
section
/-!
DEFINITION. The commands of the block (spec/opcode_table.json): one constructor per row, each one whole step
(spec/95_what_each_step_holds.md). Operands are what comes from outside: the port or link concerned, the contents of a
message, a measured quantity, or the outcome the board or a partner gives.
-/
namespace Sys2Proof

/-- A stall, or one of the two upstream ports as 15 and 16 (R225). -/
abbrev Channel := Fin 17

/-- A stall of this chip. -/
abbrev Stall := Fin 15


/-- The partner's answer to a Request, a Soft_Reset or a VCONN_Swap of the ZH15 (R212, R218). -/
inductive PdAnswer where
  | accept | reject | wait | psRdy
  deriving DecidableEq, Repr

/-- What the converters give one channel in a frame: two conversions of its voltage and current, in LSB (R244, R245). -/
structure ChanSample where
  v1 : Nat
  v2 : Nat
  i1 : Int
  i2 : Int
  deriving DecidableEq, Repr, Inhabited

/-- One 20 µs telemetry frame (R244): the seventeen channels, the input, the die sensors in °C, and whether each
converter's references lie within ±1 % (R245). -/
structure TlmFrame where
  chans : List ChanSample
  vin : Nat
  iin : Nat
  temps : List Int
  refA : Bool
  refB : Bool
  deriving DecidableEq, Repr

/-- The three conditions of PWRWARN_N (R249). -/
inductive WarnCause where
  | vin | iin | acFail
  deriving DecidableEq, Repr

/-- An SS packet: its header's fields (R176), its 12 header bytes with their CRC-16, and its payload. -/
structure SsPacket where
  /-- A data packet (DPH and DPP); otherwise a header packet. -/
  data : Bool
  iso : Bool
  route : Nat
  addr : Nat
  ep : Nat
  dirIn : Bool
  stream : Nat
  setup : Bool
  pseq : Nat
  /-- End of burst or last packet. -/
  eob : Bool
  /-- The Deferred bit of its link control word (R105). -/
  deferred : Bool
  /-- A Function Wake device notification (R125). -/
  wake : Bool
  /-- Its DPP CRC-32 is invalid (R107). -/
  badCrc : Bool
  head : List Byte
  body : List Byte
  deriving DecidableEq, Repr, Inhabited

/-- The link a bale arrives on and the fields every bale header carries (R175): ACK, CRD and CCR. -/
structure BaleHdr where
  link : Fin 4
  ack : Fin 512
  crd : Fin 8
  ccr : Bool
  /-- What the ECC of the cell of a CTRL bale shows when it is read (R107): 1 a corrected, 2 a double-bit error. -/
  ecc : Fin 3
  deriving DecidableEq, Repr

/-- A CTRL bale's fields (R176): source, destination, broadcast flag and control sequence. -/
structure CtrlHdr where
  hdr : BaleHdr
  src : Fin 8
  dest : Fin 8
  bcast : Bool
  seq : Fin 65536
  deriving DecidableEq, Repr

/-- A Ghelys link as flooding names it (R183): both ends, and whether it runs on one lane. -/
structure LinkAd where
  memberA : Nat
  linkA : Nat
  memberB : Nat
  linkB : Nat
  single : Bool
  deriving DecidableEq, Repr, Inhabited

/-- An admitted member as formation knows it (R181 to R184). -/
structure MemberAd where
  num : Nat
  uid : Nat
  eligible : Bool
  deriving DecidableEq, Repr, Inhabited

/-- One destination's entry of a routing table (R185): next-hop mask, hop count, control link. -/
structure RouteE where
  next : Nat
  hops : Nat
  ctrl : Nat
  deriving DecidableEq, Repr, Inhabited

/-- A pushed routing table (R185): the table, and its alternates for each link of the BARN section and each member. -/
structure RouteTable where
  ver : Nat
  /-- The yard L instant of the switch, in ticks. -/
  at_ : Nat
  main : List RouteE
  byLink : List (List RouteE)
  byMember : List (List RouteE)
  deriving DecidableEq, Repr, Inhabited

/-- What the holding chip knows of a flow record (R187, FLOW_OPEN). `target` names the port the destination serves it by:
a stall number, 0x20 and the slot for the host side, 0x40 and the pen index for a pen itself (log entry 40). -/
structure FlowOpen where
  idx : Nat
  ps : Nat
  slot : Nat
  dirIn : Bool
  addr : Nat
  route : Nat
  ep : Nat
  stream : Nat
  setup : Bool
  target : Nat
  iso : Bool
  deriving DecidableEq, Repr, Inhabited

/-- What an answering member asks of a stall's port at the chip that holds it: the bus-state orders of R135, and the
requests of R162 that act there. `busReset` names the whole paddock (0) or one pen (k + 1). The last three are the steps of a
hand-off for a stall of the named member (R167); before them, what the home member tells of a paddock's upstream link and
host, a pen's engine of the pen's address and carry, the state of a pen's bus, a wake of the host, a button press, and what
UPP_HANDOFF shows (log entry 141). -/
inductive PortAct where
  | reset | suspend | resume | busResumeStart | busResumeEnd | l1Exit
  | test (mode : Nat)
  | busReset (hub : Nat)
  | power (ss on : Bool)
  | disable
  | linkState (st : Nat)
  | u1 (v : Nat) | u2 (v : Nat)
  | wakeMask (m : Nat)
  | hotReset | warmReset
  | forceLpm (on : Bool)
  | indicator (on : Bool)
  | clearChange (ss : Bool) (bit : Nat)
  | ttClear (dev ep : Nat) (bulk dirIn : Bool)
  | ttReset | ttStop
  | lpm (besl : Nat) (rwe : Bool)
  | queryExt | queryErr
  | upTold (link lanes : Nat) (conf : Bool) (depth : Nat) (fs : Bool) (bus : Nat) | penAddr (k a : Nat)
  | penOn (k : Nat) | penReset (k : Nat) | penCarry (k : Nat) (up : Bool) | penCarryLost (k : Nat)
  | ssWake | kvmButton | kvmIgnored
  | handShow (member step ms src dest : Nat) (shown : Bool)
  | detach (member : Nat) | rebind (member slot : Nat) | attach (member src ms : Nat) (hs ss : Bool)
  deriving DecidableEq, Repr, Inhabited

/-- How a full- or low-speed transaction of a TT ended (R148, R149). -/
inductive TtAnswer where
  | ack | nak | stall | err
  | data (bytes : List Byte)
  deriving DecidableEq, Repr, Inhabited

/-- What MIRROR_SNAPSHOT is at the chip concerned (R159, R161): the periodic snapshot of a slot's positions sent, an answering
member's request for the snapshot of a position, or a snapshot received: slot, hub, port, sequence, and the two status and
change words and timeouts. -/
inductive SnapEvent where
  | timer (slot : Fin 4)
  | asked (c : CtrlHdr) (slot : Fin 4) (hub port : Fin 16)
  | got (c : CtrlHdr) (slot : Fin 4) (hub port : Fin 16) (seq hs hsChg ss ssChg u1 u2 : Nat)
  deriving DecidableEq, Repr

/-- A descriptor a host asks for (R156, R157, R289). -/
inductive DescReq where
  | device | config | bos | hub
  | string (i : Nat)
  deriving DecidableEq, Repr

/-- A standard request to a logical hub or to the tack room (R100, R156, R289, R293), or a vendor request with a bRequest that
R291 does not list. -/
inductive StdReq where
  | address (a : Fin 128)
  | configuration (v : Fin 256)
  | interface (alt : Fin 256)
  | u1Enable (on : Bool) | u2Enable (on : Bool) | ldmEnable (on : Bool)
  | remoteWake (on : Bool)
  | descriptor (d : DescReq)
  | vendor (bRequest : Fin 256)
  deriving DecidableEq, Repr

/-- How an ITP leaves at a stall port (R117): its residence on the chip in ticks, and whether it waited behind a packet. -/
structure ItpOut where
  stall : Nat
  ticks : Nat
  delayed : Bool
  deriving DecidableEq, Repr, Inhabited

/-- What wakes a domain ahead of time: timeline entry i (R92), or the learned pattern of a stall (R98). -/
inductive WakeOf where
  | entry (i : Fin 256)
  | pattern (n : Stall)
  deriving DecidableEq, Repr

/-- The commands of the block: one constructor per row of spec/opcode_table.json. -/
inductive Instr where
  /-- POR_ASSERT (R348). A POR supply falls below its assertion level; the chip is held in reset with gates off, CC Open and UP0 at its Rd clamp. -/
  | porAssert
  /-- POR_RELEASE (R348). All POR supplies have stood at their release levels for 1 ms; the chip resets every part and enters BOOT. -/
  | porRelease (bootsrc : Fin 4) (lifeEn : Bool) (i2c : Fin 8) (maker : Bool)
  /-- RAILS_IN_WINDOW (R349). VDD_CORE, VDDA_SER, VDDA_SERH and VDD_HS lie in their windows; BOOT step 1 ends and the SUP sources are armed. -/
  | railsInWindow
  /-- RAIL_WINDOW_TIMEOUT (R349). A rail is still outside its window 50 ms after POR release and raises its SUP source. -/
  | railWindowTimeout (core ser io : Bool)
  /-- CRYSTAL_READY (R351). The crystal is ready and the core PLL locked; BOOT step 2 ends and the self-check begins. -/
  | crystalReady (ok : Bool)
  /-- CRYSTAL_NOT_READY (R352). The crystal is not ready by the end of step 2; it is restarted, and after two retries XTAL_LOST is raised. -/
  | crystalNotReady
  /-- XTAL_RESTART_TIMER (R352). In SAFE after XTAL_LOST, Dwezel restarts the crystal every 1 s and, once it is ready, clears XTAL_LOST and returns to BOOT step 2. -/
  | xtalRestartTimer (ready : Bool)
  /-- MAKER_WINDOW_END (R351). The 2 s maker window ends without a maker-keyed message and BOOT continues to the plan fetch. -/
  | makerWindowEnd
  /-- MAKER_KEYED_MESSAGE (R347). A maker-keyed secure message arrives in the maker window and the chip enters MAKER. -/
  | makerKeyedMessage
  /-- FLASH_BUSY_POLL_END (R63). The flash reports no operation in progress, or 400 ms pass; SFDP is read and the addressing mode chosen, or both slots are treated as invalid. -/
  | flashBusyPollEnd (ok four : Bool)
  /-- SLOT_VERIFY_DONE (R64). The header, signature, body hash and section checks of a slot complete, giving a validation code. -/
  | slotVerifyDone
  /-- PLAN_ACTIVATION_DONE (R65). The second read and hash of an activated plan complete and every section takes effect, or activation stops on a hash mismatch. -/
  | planActivationDone (same : Bool)
  /-- BOOT_DOMAINS_READY (R351). Every domain the plan uses is ON and every serdes PLL locked, ending BOOT step 7. -/
  | bootDomainsReady (vinOk : Bool) (time : Nat)
  /-- UPSTREAM_DATA_CONNECT (R354). A bound upstream port presents its data sides once its attach is complete and FORMED or the deadline has come. -/
  | upstreamDataConnect (u : Fin 2)
  /-- RESET_N_ASSERT (R361). RESET_N reads low for eight keeper samples; the chip acts as a CHIP reaction and stays reset. -/
  | resetNAssert (handed dumped : Bool)
  /-- RESET_N_RELEASE (R361). RESET_N reads high for 10 µs; the straps are sampled and BOOT runs. -/
  | resetNRelease (bootsrc : Fin 4) (lifeEn : Bool) (i2c : Fin 8) (maker : Bool)
  /-- CHIP_RESET_REQUEST (R362). A master holding the expert page writes 0xC1A5 to TOP_X_RESET.KEY to request a chip reset. -/
  | chipResetRequest (m : Fin 16) (v : Fin 65536)
  /-- CHIP_RESET_BEGIN (R362). Dwezel begins the requested chip reset, after any running commit or dump write, acting as RESET_N with straps kept. -/
  | chipResetBegin
  /-- STARTER_ARMED (R356). VLIFE above 4.0 V and VIN_SNS below 4.5 V for 1 ms arm the LIFELINE starter, which begins ramping the UP0 sink gate. -/
  | starterArmed (lifeEn : Bool)
  /-- STARTER_SINK_PATH_CLOSED (R356). The starter's ramp completes with the UP0 sink FETs closed and the board rail at UP0 VBUS. -/
  | starterSinkPathClosed
  /-- STARTER_HOLD_OFF_END (R358). 30 s after the POR that followed a LIFELINE reaction, the starter may close the sink path again. -/
  | starterHoldOffEnd
  /-- LIFELINE_VIN_RESTORED (R219). VIN has stayed above VIN_MIN for 10 ms and the supply handover begins. -/
  | lifelineVinRestored
  /-- LIFELINE_HANDOVER_DONE (R219). The chip runs from its main supplies with the UP0 sink FETs open, enters SERVICE and starts error recovery on UP0. -/
  | lifelineHandoverDone
  /-- LIFELINE_EXIT_ABANDON (R219). VIN falls below VIN_MIN during exit steps 1–2 and UP0 stays sink. -/
  | lifelineExitAbandon
  /-- SAFE_EXIT (R359). With no CHIP sticky bit left and GRAVE not latched, Dwezel re-activates the running plan or returns to BOOT step 2. -/
  | safeExit
  /-- PLAN_BEGIN (R71). A party starts an upload, becoming owner, and the staging blocks are erased. -/
  | planBegin (c : Fin 12) (seq : Fin 16) (words : List (BitVec 32))
  /-- STAGING_ERASE_DONE (R71). The staging erase of PLAN_BEGIN completes and LATER_DONE with OK is posted. -/
  | stagingEraseDone
  /-- PLAN_CHUNK (R72). A chunk of plan data is written into staging at the next expected offset or refused. -/
  | planChunk (c : Fin 12) (seq : Fin 16) (words : List (BitVec 32))
  /-- PLAN_COMMIT (R74). The owner requests that staging be verified and copied into the target slot. -/
  | planCommit (c : Fin 12) (seq : Fin 16) (words : List (BitVec 32))
  /-- COMMIT_STEP_DONE (R74). A verify, erase, copy, read-back or commit-page step of a commit completes and the next step or the final reply follows. -/
  | commitStepDone (ok : Bool)
  /-- PLAN_ACTIVATE (R398). A party asks to activate the committed slot or staging, which is checked under R28 and answered OK or DENIED. -/
  | planActivate (c : Fin 12) (seq : Fin 16) (words : List (BitVec 32)) (reports : List (Nat × List (BitVec 8)))
  /-- ACTIVATE_REPLY_WAIT_END (R76). The PLAN_ACTIVATE reply is acknowledged or 20 ms pass, and Dwezel enters PLAN mode and activates. -/
  | activateReplyWaitEnd
  /-- MEMBER_ACTIVATE_ORDER (R77). A member receives the lead's barn-wide order to activate its committed plan. -/
  | memberActivateOrder (c : CtrlHdr) (revoke : Fin 16) (raise : Bool)
  /-- OTP_WRITE_DONE (R69). A revoke fuse or anti-rollback floor word finishes programming after an activation. -/
  | otpWriteDone
  /-- UPLOAD_IDLE_TIMEOUT (R73). 10 s pass without a chunk or commit from the owner and the upload is discarded. -/
  | uploadIdleTimeout
  /-- SOF_RECEIVED (R80). A SOF arrives at an upstream port and is taken as the reference of its interval. -/
  | sofReceived (u : Fin 2) (frame : Fin 2048) (rate : Int)
  /-- ITP_RECEIVED (R80). An ITP arrives at an upstream port in U0; it is the yard reference if no SOF came in that interval and is forwarded to local stalls. -/
  | itpReceived (u : Fin 2) (bic : Fin 16384) (delta : Nat) (res : List ItpOut) (rate : Int)
  /-- YARD_COAST (R84). No reference arrives for 3 intervals and the yard enters COAST. -/
  | yardCoast (y : Fin 4)
  /-- FORCE_COAST (R84). A write of YRD_CTRL.FORCE_COAST sends the yard to COAST at once and makes it ignore references. -/
  | forceCoast (m : Fin 16) (mask : Fin 16)
  /-- SNAP (R79). A write of YRD_CTRL.SNAP copies all five yards in one cycle for the next reads. -/
  | snap (m : Fin 16)
  /-- YRD_NOW_LO_READ (R79). A read of YRD_NOW_LO returns the low word and latches the high word into YRD_NOW_HI. -/
  | yrdNowLoRead (m : Fin 16) (y : Fin 5)
  /-- BARN_TIME_BROADCAST (R86). At tick 0 of every interval of its yard L, the lead sends barn time and home members send yard descriptors. -/
  | barnTimeBroadcast
  /-- BARN_TIME_RECEIVED (R86). A member takes the first barn-time bale of an interval, corrects for link delay, slews or steps yard L and forwards the bale. -/
  | barnTimeReceived (h : BaleHdr) (value hops : Nat) (rate : Int)
  /-- YARD_DESCRIPTOR_RECEIVED (R86). A member updates its copy of a host yard from a home member's descriptor and applies any reported step. -/
  | yardDescriptorReceived (c : CtrlHdr) (y : Fin 4) (value rate : Nat) (st : Fin 4) (coarse : Bool)
  /-- YARD_DESCRIPTOR_TIMEOUT (R87). No yard descriptor arrives for 4 intervals and the copy is marked STALE. -/
  | yardDescriptorTimeout (y : Fin 4)
  /-- LINK_DELAY_PROBE (R86). Every 8,000 intervals a member measures a link's delay by a PROBE round trip. -/
  | linkDelayProbe (k : Fin 4)
  /-- DOMAIN_WAKE (R91). A due DOMAIN_WAKE entry raises the timeline vote to ON on its target for ARG intervals. -/
  | domainWake (i : Fin 256)
  /-- TLM_SAMPLE (R91). A due TLM_SAMPLE entry writes the port's selected telemetry values as one TLQ record. -/
  | tlmSample (i : Fin 256)
  /-- PD_KEEPALIVE (R91). A due PD_KEEPALIVE entry asks the port's PD controller for the keep-alive its sink contract requires. -/
  | pdKeepalive (i : Fin 256)
  /-- DOORBELL (R91). A due DOORBELL entry rings the channel's outbound doorbell with ARG as its tag. -/
  | doorbell (i : Fin 256)
  /-- GPIO_SET (R91). A due GPIO_SET entry drives an OUT GPIO active, or raises TML_BAD_TARGET. -/
  | gpioSet (i : Fin 256)
  /-- GPIO_CLEAR (R91). A due GPIO_CLEAR entry drives an OUT GPIO inactive, or raises TML_BAD_TARGET. -/
  | gpioClear (i : Fin 256)
  /-- FABRIC_HEARTBEAT (R91). A due FABRIC_HEARTBEAT entry sends one heartbeat bale on a trained link. -/
  | fabricHeartbeat (i : Fin 256)
  /-- BUDGET_REVIEW (R91). A due BUDGET_REVIEW entry makes the budget engine re-evaluate every reduction in force. -/
  | budgetReview (i : Fin 256)
  /-- TT_PREWAKE (R91). A due TT_PREWAKE entry raises the timeline vote to ON on HSB and the stall's DG domain for ARG intervals. -/
  | ttPrewake (i : Fin 256)
  /-- TIMELINE_WAKE_LEAD (R92). A yard reaches an entry's due time less the lead of a needed domain's state and that domain's wake begins. -/
  | timelineWakeLead (w : WakeOf)
  /-- TML_READ (R94). TML_SEL.CMD READ copies the selected entry into the window. -/
  | tmlRead (m : Fin 16) (i : Fin 256)
  /-- TML_WRITE (R94). TML_SEL.CMD WRITE loads the window into the selected entry, or is dropped with REFUSED set. -/
  | tmlWrite (m : Fin 16) (i : Fin 256)
  /-- TML_DELETE (R94). TML_SEL.CMD DELETE invalidates the selected entry, or is dropped with REFUSED set. -/
  | tmlDelete (m : Fin 16) (i : Fin 256)
  /-- TML_ENABLE (R89). Setting TML_CTRL.ENABLE runs held due entries once in index order and counts merged occurrences. -/
  | tmlEnable (m : Fin 16)
  /-- PREDICTOR_CHOICE (R98). After the last ON vote is withdrawn and QUIET_MS has passed, the predictor chooses ON, RET or OFF for the domain. -/
  | predictorChoice (d : Fin 12)
  /-- OBSERVATION_WINDOW_END (R97). A 1,000-interval observation window ends, advancing the domain's history count and the misprediction window. -/
  | observationWindowEnd (d : Fin 12)
  /-- BURST_START (R96). Activity starts at a stall after a gap, updating its pattern tracker. -/
  | burstStart (n : Stall)
  /-- PREDICTION_WINDOW_MISS (R96). A prediction's ±2-interval window closes with no burst; after two misses the pattern returns to LEARNING. -/
  | predictionWindowMiss (n : Stall)
  /-- DOWNSTREAM_PACKET (R101). An SS packet entering at an upstream port is decoded by the ROOT context and sent toward its stall, pen or root, or discarded. -/
  | downstreamPacket (u : Fin 2) (pkt : SsPacket) (ecc : Fin 3)
  /-- UPSTREAM_PACKET (R102). An SS packet from a stall is carried to the home member and sent on its slot's upstream port in order. -/
  | upstreamPacket (n : Stall) (pkt : SsPacket) (ecc : Fin 3)
  /-- EGRESS_QUEUE_HEAD (R105). A packet reaches the head of a stall's egress queue and is sent, deferred, held or discarded by the link state. -/
  | egressQueueHead (n : Channel) (ecc : Fin 3)
  /-- PORT_U0_REACHED (R105). A stall port reaches U0 and sends held or deferred packets. -/
  | portU0Reached (n : Channel) (rate : Fin 5)
  /-- RECOVERY_HOLD_EXPIRE (R105). A port stays out of U0 for RECOV_HOLD and the packets held for it are discarded. -/
  | recoveryHoldExpire (n : Channel)
  /-- LGO_RECEIVED (R106). A device's LGO_U1 or LGO_U2 is accepted, or answered LXU when a packet waits or the timeout forbids it. -/
  | lgoReceived (n : Stall) (u2 : Bool)
  /-- HEADER_CREDIT_RETURN (R111). A header buffer empties and its credit is returned if queue space and bank floors allow, otherwise withheld. -/
  | headerCreditReturn (n : Channel)
  /-- CREDIT_RELEASE (R111). Space or bank floor recovers and a withheld credit is returned to the link partner. -/
  | creditRelease (q : Fin 21)
  /-- ITP_NOTICE (R118). A PROXY context receives an ITP notice and regenerates ITPs for its U0 stalls, or skips them. -/
  | itpNotice (c : CtrlHdr) (slot : Fin 4) (bic : Fin 16384)
  /-- LDM_EXCHANGE (R119). An upstream port runs an LDM exchange at first U0 and every 1,000 intervals, updating the median delay. -/
  | ldmExchange (n : Channel) (result : Option Nat)
  /-- LPM_INACTIVITY_TIMEOUT (R120). A stall port's U1 or U2 inactivity timer expires and the port initiates that state. -/
  | lpmInactivityTimeout (n : Stall) (u2 accepted : Bool)
  /-- USP_LPM_INITIATE (R121). After USP_IDLE_US with the paddock idle and deep, the upstream port initiates U1 or U2. -/
  | uspLpmInitiate (u : Fin 2) (u2 accepted : Bool)
  /-- LFPS_DETECTED (R122). An AON LFPS detector sees LFPS on a lane and raises the link-activity vote to ON. -/
  | lfpsDetected (i : Fin 20)
  /-- DEVICE_U3_EXIT (R125). A device's U3 exit handshake completes on a stall port, setting a link-state change and waking the upstream link if in U3. -/
  | deviceU3Exit (n : Stall)
  /-- HOST_U3_EXIT (R126). The host's U3 exit LFPS arrives at the upstream port and the home member drives none of its own. -/
  | hostU3Exit (u : Fin 2)
  /-- UPSTREAM_U3_ENTRY (R124). A paddock's upstream link enters U3 and every active SS port of the paddock is sent to U3. -/
  | upstreamU3Entry (u : Fin 2)
  /-- SS_LANE_LOST (R127). A downstream or upstream SS lane is lost and its link enters SS.Inactive. -/
  | ssLaneLost (n : Channel) (upper : Bool)
  /-- WIDTH_CHANGE_STEP_DONE (R115). A step of the upstream width change after a DP pin assignment change completes. -/
  | widthChangeStepDone (u : Fin 2)
  /-- CARRY_LOST (R132). A carry pair's link fails or it sees nothing for 1 µs, and repeating on it stops with its positions disconnected. -/
  | carryLost (k : Fin 4) (cut : Bool)
  /-- ORDER_RECEIVED (R135). A bus-state order arrives at a member and waits for its stamp, or acts at once when late or the yard is untrusted. -/
  | orderReceived (c : CtrlHdr) (slot : Fin 4) (n : Fin 16) (stamp : Nat) (act : PortAct)
  /-- ORDER_RESET (R137). At its stamp, a RESET order drives SE0 and runs the chirp handshake on the port. -/
  | orderReset (n : Stall)
  /-- ORDER_SUSPEND_PORT (R139). At its stamp, SUSPEND_PORT stops repeating downstream traffic to the port. -/
  | orderSuspendPort (n : Stall)
  /-- ORDER_RESUME_PORT (R139). At its stamp, RESUME_PORT drives K on the port for 20 ms. -/
  | orderResumePort (n : Stall)
  /-- ORDER_BUS_RESUME_START (R138). At its stamp, every enabled, not selectively suspended port drives K. -/
  | orderBusResumeStart (slot : Fin 4)
  /-- ORDER_BUS_RESUME_END (R138). At its stamp, ports drive the EOP and return to high-speed operation. -/
  | orderBusResumeEnd (slot : Fin 4)
  /-- ORDER_TEST (R136). At its stamp, a TEST order puts the port in the requested test mode. -/
  | orderTest (n : Stall)
  /-- ORDER_L1_EXIT (R142). At its stamp, an L1 exit order drives K for the resume time and returns the port to L0. -/
  | orderL1Exit (n : Stall)
  /-- PORT_RESET_END (R137). RESET_MS ends and the port is enabled at its detected speed. -/
  | portResetEnd (n : Stall) (speed : Fin 4)
  /-- GLOBAL_SUSPEND (R136). 3.0 ms after the last bus activity each engine and relay suspends the bus. -/
  | globalSuspend (e : Fin 4)
  /-- HOST_RESUME_DETECTED (R138). The root engine sees K upstream for 2.5 µs and issues BUS_RESUME_START. -/
  | hostResumeDetected (u : Fin 2)
  /-- HOST_RESUME_END (R138). The host ends its resume with the low-speed EOP and the root engine issues BUS_RESUME_END. -/
  | hostResumeEnd (u : Fin 2)
  /-- PORT_RESUME_END (R139). A port's 20 ms resume K ends with the EOP and its suspend change is reported. -/
  | portResumeEnd (n : Stall)
  /-- REMOTE_WAKE (R140). A device drives K for 2.5 µs on a suspended bus and the root engine drives K upstream. -/
  | remoteWake (src : Option CtrlHdr) (slot : Fin 4) (n : Stall)
  /-- WAKE_HOLD_EXPIRE (R140). The upstream K of a remote wake has lasted WAKE_HOLD_MS without the host's resume and stops. -/
  | wakeHoldExpire (u : Fin 2)
  /-- LPM_ACK (R142). A device ACKs an LPM token and the port records BESL and remote wake enable. -/
  | lpmAck (n : Channel) (besl : Fin 16) (rwe : Bool)
  /-- L1_ENTRY (R142). The bus stays idle after the LPM ACK for the addendum's time and the port enters L1. -/
  | l1Entry (n : Channel)
  /-- DEVICE_L1_EXIT (R142). A device exits L1 with remote wake enabled and it is reported, with K upstream if the root is in L1. -/
  | deviceL1Exit (src : Option CtrlHdr) (slot : Fin 4) (n : Stall)
  /-- HS_CONNECT_CHANGE (R136). A port's chip detects a connect or disconnect and reports it through the mirror. -/
  | hsConnectChange (n : Stall) (present low : Bool)
  /-- BABBLE_DISABLE (R136). A port is disabled for babble or activity past EOF. -/
  | babbleDisable (n : Stall)
  /-- BUS_RESET (R144). A bus reset on an upstream port resets the paddock's engines, positions, TTs, power, tack room, locks, sessions and expert pages. -/
  | busReset (u : Fin 2) (high : Bool)
  /-- FS_UPSTREAM_CONNECT (R130). The root engine connects at full speed and positions needing carry read as nothing attached. -/
  | fsUpstreamConnect (u : Fin 2)
  /-- TT_SOF (R146). A SOF reaches a stall's chip and the TT takes the microframe boundary, sending the full-speed SOF at frame start. -/
  | ttSof (n : Stall) (frame : Fin 2048)
  /-- SOF_FILL (R146). A SOF fails to arrive and the TT takes the boundary from the yard copy or yard L. -/
  | sofFill (n : Stall)
  /-- TT_PERIODIC_HOLD (R146). NOSOF_HOLD microframes pass without SOF and the TT starts no further periodic transactions. -/
  | ttPeriodicHold (n : Stall)
  /-- PERIODIC_START_SPLIT (R148). A periodic start-split is placed in a free buffer or discarded without handshake. -/
  | periodicStartSplit (n : Stall) (dev : Fin 128) (ep : Fin 16) (dirIn : Bool) (data : List (BitVec 8))
  /-- NONPERIODIC_START_SPLIT (R149). A non-periodic start-split is ACKed into a free buffer or NAKed. -/
  | nonperiodicStartSplit (n : Stall) (dev : Fin 128) (ep : Fin 16) (bulk dirIn : Bool) (data : List (BitVec 8))
  /-- COMPLETE_SPLIT (R148). A complete-split is answered from the TT buffer with data, MDATA, NYET or the handshake. -/
  | completeSplit (n : Stall) (periodic : Bool) (dev : Fin 128) (ep : Fin 16) (dirIn : Bool) (sofar : List (BitVec 8))
  /-- TT_TRANSACTION_END (R149). A full- or low-speed transaction of the TT ends and its result is held. -/
  | ttTransactionEnd (n : Stall) (a : TtAnswer)
  /-- PERIODIC_WINDOW_END (R148). The last allowed complete-split microframe of a periodic buffer ends and the buffer is freed. -/
  | periodicWindowEnd (n : Stall) (dev : Fin 128) (ep : Fin 16) (dirIn : Bool)
  /-- TT_EOF (R148). A periodic transaction still on the bus at the frame's EOF point is ended and LATE set. -/
  | ttEof (n : Stall)
  /-- TTA_CLEAR_BUFFER (R150). TTA_CMD CLEAR_BUFFER empties one non-periodic buffer of a TT. -/
  | ttaClearBuffer (m : Fin 16) (n : Stall) (dev : Fin 128) (ep : Fin 16) (dirIn bulk : Bool)
  /-- TTA_RESET_TT (R150). TTA_CMD RESET_TT ends any packet, empties every buffer and idles the TT. -/
  | ttaResetTt (m : Fin 16) (n : Stall)
  /-- TTA_STOP_TT (R150). TTA_CMD STOP_TT lets the TT finish its transaction and start no other. -/
  | ttaStopTt (m : Fin 16) (n : Stall)
  /-- TTA_START (R150). TTA_CMD START runs a stopped TT again from the next microframe. -/
  | ttaStart (m : Fin 16) (n : Stall)
  /-- TTA_OP_DONE (R150). A TT operation that waited for its transaction completes and DONE is set. -/
  | ttaOpDone
  /-- BC12_SWITCH_START (R152). A root becoming configured, or a host departing, starts a DCP change with VBUS switched off. -/
  | bc12SwitchStart (n : Stall)
  /-- BC12_SWITCH_WAIT_END (R152). VBUS is below vSafe0V and 500 ms have passed; the D+/D− presentation changes and VBUS follows again. -/
  | bc12SwitchWaitEnd (n : Stall)
  /-- MIRROR_RECORD (R159). An answering member applies a mirror record in sequence order, or requests a snapshot on a gap. -/
  | mirrorRecord (c : CtrlHdr) (slot : Fin 4) (hub port : Fin 16) (seq hs hsChg ss ssChg u1 u2 : Nat)
  /-- MIRROR_SNAPSHOT (R159). Every 1,000 intervals the holding chip sends a full snapshot of each position. -/
  | mirrorSnapshot (e : SnapEvent)
  /-- STATUS_CHANGE_IN (R160). The host's IN on a hub's status-change endpoint returns the change bitmap or a NAK. -/
  | statusChangeIn (slot : Fin 4) (hub : Fin 16) (ss : Bool)
  /-- GET_HUB_STATUS (R162). GetHubStatus is answered from the mode. -/
  | getHubStatus (slot : Fin 4) (hub : Fin 16)
  /-- GET_PORT_STATUS (R162). GetPortStatus is answered with wPortStatus and wPortChange from the mirror. -/
  | getPortStatus (slot : Fin 4) (hub port : Fin 16) (ss : Bool)
  /-- GET_PORT_STATUS_EXT (R162). GetPortStatus extended waits for the holding chip and returns speed ID and lane count. -/
  | getPortStatusExt (slot : Fin 4) (hub port : Fin 16)
  /-- GET_HUB_DESCRIPTOR (R162). GetHubDescriptor or GET_DESCRIPTOR returns the descriptors of R156 and R157. -/
  | getHubDescriptor (slot : Fin 4) (hub : Fin 16) (ss : Bool) (d : DescReq)
  /-- CLEAR_HUB_FEATURE (R162). ClearHubFeature C_HUB_LOCAL_POWER or C_HUB_OVER_CURRENT is acknowledged with no effect. -/
  | clearHubFeature (slot : Fin 4) (hub : Fin 16) (oc : Bool)
  /-- UNSUPPORTED_HUB_REQUEST (R162). An unlisted or out-of-range hub request is answered with STALL. -/
  | unsupportedHubRequest (slot : Fin 4) (hub : Fin 16)
  /-- SET_PORT_RESET (R162). SetPortFeature PORT_RESET issues a RESET order for the position. -/
  | setPortReset (slot : Fin 4) (hub port : Fin 16)
  /-- SET_PORT_SUSPEND (R162). SetPortFeature PORT_SUSPEND issues a SUSPEND_PORT order. -/
  | setPortSuspend (slot : Fin 4) (hub port : Fin 16)
  /-- CLEAR_PORT_SUSPEND (R162). ClearPortFeature PORT_SUSPEND issues a RESUME_PORT order. -/
  | clearPortSuspend (slot : Fin 4) (hub port : Fin 16)
  /-- SET_PORT_POWER (R163). SetPortFeature PORT_POWER powers the position on either side. -/
  | setPortPower (slot : Fin 4) (hub port : Fin 16) (ss : Bool)
  /-- CLEAR_PORT_POWER (R163). ClearPortFeature PORT_POWER switches the position off once both sides have cleared it. -/
  | clearPortPower (slot : Fin 4) (hub port : Fin 16) (ss : Bool)
  /-- CLEAR_PORT_ENABLE (R162). ClearPortFeature PORT_ENABLE disables the port and stops repeating to it. -/
  | clearPortEnable (slot : Fin 4) (hub port : Fin 16)
  /-- SET_PORT_TEST (R162). SetPortFeature PORT_TEST issues a TEST order when every port is quiet, otherwise STALL. -/
  | setPortTest (slot : Fin 4) (hub port : Fin 16) (mode : Fin 8)
  /-- PORT_INDICATOR (R162). Set or ClearPortFeature PORT_INDICATOR drives the position's PORT_LED GPIO. -/
  | portIndicator (slot : Fin 4) (hub port : Fin 16) (on : Bool)
  /-- CLEAR_PORT_CHANGE (R162). ClearPortFeature of a change bit clears it in the mirror and at the holding chip. -/
  | clearPortChange (slot : Fin 4) (hub port : Fin 16) (ss : Bool) (bit : Fin 8)
  /-- CLEAR_TT_BUFFER (R162). ClearTTBuffer runs CLEAR_BUFFER on the stall's TT and waits for the result. -/
  | clearTtBuffer (slot : Fin 4) (hub port : Fin 16) (dev : Fin 128) (ep : Fin 16) (bulk dirIn : Bool)
  /-- RESET_TT (R162). ResetTT runs RESET_TT on the stall's TT and waits for the result. -/
  | resetTt (slot : Fin 4) (hub port : Fin 16)
  /-- STOP_TT (R162). StopTT runs STOP_TT on the stall's TT and waits for the result. -/
  | stopTt (slot : Fin 4) (hub port : Fin 16)
  /-- SET_AND_TEST_PORT_L1 (R162). SetAndTestPortFeature PORT_L1 issues the LPM transaction and returns the device's answer. -/
  | setAndTestPortL1 (slot : Fin 4) (hub port : Fin 16) (besl : Fin 16) (rwe : Bool)
  /-- CLEAR_PORT_L1 (R162). ClearPortFeature PORT_L1 issues an L1 exit order. -/
  | clearPortL1 (slot : Fin 4) (hub port : Fin 16)
  /-- GET_PORT_ERROR_COUNT (R162). GetPortErrorCount waits for the holding chip's link error count. -/
  | getPortErrorCount (slot : Fin 4) (hub port : Fin 16)
  /-- SET_HUB_DEPTH (R162). SetHubDepth sets DEPTH in the hub's SS context or is answered STALL. -/
  | setHubDepth (slot : Fin 4) (hub : Fin 16) (depth : Fin 65536)
  /-- SET_PORT_U1_TIMEOUT (R120). SetPortFeature PORT_U1_TIMEOUT records the port's U1 timeout. -/
  | setPortU1Timeout (slot : Fin 4) (hub port : Fin 16) (v : Fin 256)
  /-- SET_PORT_U2_TIMEOUT (R120). SetPortFeature PORT_U2_TIMEOUT records the port's U2 timeout. -/
  | setPortU2Timeout (slot : Fin 4) (hub port : Fin 16) (v : Fin 256)
  /-- SET_PORT_LINK_STATE (R162). SetPortFeature PORT_LINK_STATE moves a stall link to U0, U3, SS.Disabled or Rx.Detect. -/
  | setPortLinkState (slot : Fin 4) (hub port : Fin 16) (v : Fin 16)
  /-- SET_PORT_REMOTE_WAKE_MASK (R162). SetPortFeature PORT_REMOTE_WAKE_MASK records the mask at the holding chip. -/
  | setPortRemoteWakeMask (slot : Fin 4) (hub port : Fin 16) (mask : Fin 256)
  /-- SS_PORT_RESET (R162). SetPortFeature PORT_RESET hot-resets the stall link. -/
  | ssPortReset (slot : Fin 4) (hub port : Fin 16)
  /-- BH_PORT_RESET (R162). SetPortFeature BH_PORT_RESET warm-resets the stall link. -/
  | bhPortReset (slot : Fin 4) (hub port : Fin 16)
  /-- FORCE_LINKPM_ACCEPT (R162). Set or ClearPortFeature FORCE_LINKPM_ACCEPT makes the port accept every LGO or stop doing so. -/
  | forceLinkpmAccept (slot : Fin 4) (hub port : Fin 16) (on : Bool)
  /-- HUB_REQUEST_RESULT (R162). The holding chip reports the result of a waiting hub request and its data or status stage completes. -/
  | hubRequestResult (src : Option CtrlHdr) (slot : Fin 4) (hub port : Fin 16) (words : List Nat)
  /-- PORT_ASSIGN (R166). A request to move one stall to a destination slot is checked and the hand-off begun. -/
  | portAssign (c : Fin 12) (seq : Fin 16) (words : List (BitVec 32))
  /-- KVM_SET (R166). A request to move every KVM group stall with a position in the destination paddock begins a hand-off. -/
  | kvmSet (c : Fin 12) (seq : Fin 16) (words : List (BitVec 32))
  /-- KVM_BUTTON_PRESS (R166). A debounced KVM_BUTTON press acts as KVM_SET to the next bound slot, or is ignored. -/
  | kvmButtonPress
  /-- HANDOFF_STEP_DONE (R167). The accept, detach, rebind or attach step of a hand-off completes. -/
  | handoffStepDone (i : Fin 16) (ms : Fin 1024)
  /-- HANDOFF_QUIET_END (R167). QUIET_MS ends and the rebind step begins. -/
  | handoffQuietEnd (i : Fin 16)
  /-- LINK_TRAINED (R170). A Ghelys link completes training with delays measured and sends HELLO. -/
  | linkTrained (k : Fin 4) (lanes : Fin 4) (delay carry : Nat)
  /-- LINK_TRAINING_FAILED (R170). A link training attempt fails and is retried once at once. -/
  | linkTrainingFailed (k : Fin 4)
  /-- LINK_RETRY_TIMER (R170). Every 10 ms in SERVICE a failed link is retried. -/
  | linkRetryTimer (k : Fin 4)
  /-- LINK_RETRAIN (R170). A GLK_CTRL.RETRAIN bit sends LINK DOWN on the link and retrains it. -/
  | linkRetrain (m : Fin 16) (mask : Fin 16)
  /-- LINK_IDLE_ENTRY (R171). IDLE_US passes without a bale other than NOP and the link enters IDLE. -/
  | linkIdleEntry (k : Fin 4)
  /-- LINK_NOP_TIMER (R171). A sender with nothing to send sends a LINK NOP at least every 1 µs. -/
  | linkNopTimer (k : Fin 4)
  /-- GHELYS_LANE_LOST (R172). A link loses one lane and stays in service on the other under SINGLE_LANE_OK, or fails. -/
  | ghelysLaneLost (k : Fin 4) (upper : Bool)
  /-- SINGLE_LANE_RETRAIN (R172). A single-lane link's flow has been idle for 10 ms and Dwezel retrains it to two lanes. -/
  | singleLaneRetrain (k : Fin 4)
  /-- SLEEP_IDLE_TIMEOUT (R173). SLEEP_MS passes with no data bale and the carry quiet, and the lower-numbered member sends SLEEP_REQ. -/
  | sleepIdleTimeout (k : Fin 4)
  /-- SLEEP_REQ (R173). A peer receives SLEEP_REQ and answers SLEEP_ACK or SLEEP_NAK. -/
  | sleepReq (h : BaleHdr)
  /-- SLEEP_ACK (R173). SLEEP_ACK is received and both ends stop their lanes and withdraw their votes. -/
  | sleepAck (h : BaleHdr)
  /-- SLEEP_NAK (R173). SLEEP_NAK is received and the link stays awake. -/
  | sleepNak (h : BaleHdr)
  /-- BELL_RING (R174). A bale is queued for a sleeping link and the member rings the yard bell for 20 µs. -/
  | bellRing (k : Fin 4)
  /-- BELL_RING_REQUEST (R174). A GLK_WAKE.RING bit rings the bell on a sleeping link. -/
  | bellRingRequest (m : Fin 16) (mask : Fin 16)
  /-- BELL_ACCEPTED (R174). The AON bell detector accepts the bell and raises the fabric vote on FAB. -/
  | bellAccepted (k : Fin 4)
  /-- BELL_TIMEOUT (R174). The link is not ACTIVE 2 ms after a bell; the bell rings again or, after five, the link fails. -/
  | bellTimeout (k : Fin 4)
  /-- LINK_RESUME_DONE (R174). The fast retrain after a bell completes and the link is ACTIVE. -/
  | linkResumeDone (k : Fin 4)
  /-- DATA_BALE_RECEIVED (R177). A sequenced DATA_FIRST, DATA_CONT or HDR bale is checked, stored, acknowledged and credited. -/
  | dataBaleReceived (k : Fin 4) (header : BitVec 64) (payload : List (BitVec 8)) (mark : Bool) (ecc : Fin 3)
  /-- NAK_RECEIVED (R178). LINK NAK is received and the sender replays from the named sequence value. -/
  | nakReceived (h : BaleHdr) (seq : Fin 512)
  /-- REPLAY_TIMEOUT (R178). ACK does not advance for REPLAY_US and the sender replays; REPLAY_MAX replays fail the link. -/
  | replayTimeout (k : Fin 4)
  /-- PARAM_RECEIVED (R179). LINK PARAM grants the link's data and control credits. -/
  | paramReceived (k : Fin 4) (data : Fin 65536) (ctrl : Fin 65536)
  /-- HELLO_RECEIVED (R181). A peer's HELLO is checked and the link admitted or isolated. -/
  | helloReceived (h : BaleHdr) (uid hash barnId : Nat) (claimed : Fin 256) (peerLink : Fin 4) (flags lead : Fin 256)
  /-- PROBE_RECEIVED (R170). LINK PROBE is received and answered with PROBE_REPLY. -/
  | probeReceived (h : BaleHdr)
  /-- PROBE_REPLY_RECEIVED (R86). LINK PROBE_REPLY completes a round trip and the link delay is recorded. -/
  | probeReplyReceived (h : BaleHdr) (delay : Nat)
  /-- HEARTBEAT_RECEIVED (R197). LINK HEARTBEAT records the peer's period in GLK_HB. -/
  | heartbeatReceived (h : BaleHdr) (period : Fin 16777216)
  /-- HEARTBEAT_MISS (R197). No heartbeat arrives for 3 periods; GLK_HB_MISS is raised and the link fails. -/
  | heartbeatMiss (k : Fin 4)
  /-- LINK_DOWN_RECEIVED (R193). LINK DOWN from the peer fails the link. -/
  | linkDownReceived (k : Fin 4)
  /-- NO_BALE_TIMEOUT (R193). No bale of any kind is received for 2 µs and the link fails. -/
  | noBaleTimeout (k : Fin 4)
  /-- BLOCK_LOCK_LOSS (R193). A lane loses block lock where R172 does not keep the link, and the link fails. -/
  | blockLockLoss (k : Fin 4)
  /-- LINK_DOWN_NOTICE (R194). A CTRL LINK_DOWN notice reaches a member, which applies the alternate table or awaits the lead's recomputed tables. -/
  | linkDownNotice (c : CtrlHdr) (i : Fin 16)
  /-- RESYNC_RECEIVED (R195). A destination adopts the new EPOCH, discards old-EPOCH bales and answers RESYNC_ACK with delivered counts. -/
  | resyncReceived (c : CtrlHdr) (epoch : Bool)
  /-- RESYNC_ACK_RECEIVED (R195). The ingress member resends every undelivered packet in order under the new EPOCH. -/
  | resyncAckReceived (c : CtrlHdr) (epoch : Bool) (counts : List (Fin 512 × Fin 65536)) (elapsed : Nat)
  /-- LSA_RECEIVED (R183). A CTRL LSA bale teaches a member links of the barn during flooding. -/
  | lsaReceived (c : CtrlHdr) (links : List LinkAd) (members : List MemberAd)
  /-- FLOODING_ROUND_END (R183). A flooding round ends; when no member learned a new link, election and numbering follow. -/
  | floodingRoundEnd
  /-- TABLES_RECEIVED (R185). A member receives a routing table push and its carry table, and acknowledges them. -/
  | tablesReceived (c : CtrlHdr) (t : RouteTable)
  /-- TABLES_ACK_RECEIVED (R183). The lead collects table acknowledgements and proceeds to yard time. -/
  | tablesAckReceived (c : CtrlHdr) (ver : Fin 256)
  /-- FORMED_BROADCAST (R183). Every member is synced, or all members are admitted, and the lead broadcasts FORMED. -/
  | formedBroadcast (ms : Nat)
  /-- FORMED_RECEIVED (R184). A member receives FORMED and sets DRV_EVT.FORMED. -/
  | formedReceived (c : CtrlHdr) (ms : Nat)
  /-- FORMATION_DEADLINE (R184). BARN DEADLINE expires on the lead's yard L and the lead sends FORMED with members missing. -/
  | formationDeadline (ms : Nat)
  /-- TABLE_SWITCH (R185). At the named yard L instant every member switches to the new table version. -/
  | tableSwitch
  /-- FLOW_OPEN_RECEIVED (R187). A member on a record's path stores the flow record and forwards FLOW_OPEN. -/
  | flowOpenReceived (c : CtrlHdr) (o : FlowOpen)
  /-- FLOW_RECORD_FREE (R187). A record becomes free and a packet waiting at ingress for one is sent. -/
  | flowRecordFree (idx : Fin 512)
  /-- DELIVERED_RECEIVED (R188). A DELIVERED count lets the ingress member free the cells of delivered packets. -/
  | deliveredReceived (c : CtrlHdr) (counts : List (Fin 512 × Fin 65536))
  /-- DELIVERED_TIMER (R188). 2 µs after a record's last packet the destination sends DELIVERED. -/
  | deliveredTimer (src : Fin 8) (idx : Fin 512)
  /-- LOAD_RECEIVED (R190). A CTRL LOAD bale gives a member another's per-link bale counts. -/
  | loadReceived (c : CtrlHdr) (loads : List Nat)
  /-- REBALANCE_WINDOW (R190). Every 1 ms window the member counts link load, broadcasts LOAD and moves idle flows where imbalance persists. -/
  | rebalanceWindow
  /-- RESEED_RECEIVED (R192). A CTRL RESEED bale gives a member the new seed, applied from the next window. -/
  | reseedReceived (c : CtrlHdr) (seed : Fin (2 ^ 64))
  /-- PROXY_MESSAGE_RECEIVED (R283). A proxy message from a peer is held per source and placed into the NS6 inbound half as it frees. -/
  | proxyMessageReceived (c : CtrlHdr) (reply : Bool) (seq : Fin 16) (words : List (BitVec 32))
  /-- PROXY_TAKE (R283). The fabric proxy takes an NS6 outbound message, sends it to the member and acknowledges once stored. -/
  | proxyTake (stored : Bool)
  /-- ATTACH_DETECT (R202). Rd appears on a source port's CC and the attach debounce starts or restarts. -/
  | attachDetect (n : Channel) (cc2 ra acc : Bool)
  /-- CC_ATTACH_DEBOUNCE_END (R202). Rd has held for tCCDebounce and the discharge check begins. -/
  | ccAttachDebounceEnd (n : Channel)
  /-- VBUS_DISCHARGED (R203). VBUS_SNS falls below 0.8 V, letting a waiting attach close its FETs. -/
  | vbusDischarged (n : Channel)
  /-- DETACH_DEBOUNCE_END (R204). The attached Rd has read open for 1 ms and the source port detaches. -/
  | detachDebounceEnd (n : Channel)
  /-- SINK_DETACH (R204). VBUS stays below the sink-disconnect threshold for 1 ms and the sink port detaches. -/
  | sinkDetach (n : Channel)
  /-- RD_OPEN_DURING_SLEW (R224). Rd reads open during a voltage transition and the setpoint slew freezes, at the code it has reached; or Rd returns. -/
  | rdOpenDuringSlew (n : Channel) (isOpen : Bool) (code : BitVec 14)
  /-- DRP_TOGGLE (R201). A POWER_IN stall toggles between Rp and Rd with period tDRP. -/
  | drpToggle (n : Channel)
  /-- TRY_SNK_TIMEOUT (R201). No source appears within tTryTimeout and the POWER_IN stall attaches as source. -/
  | trySnkTimeout (n : Channel)
  /-- ERROR_RECOVERY_END (R205). tErrorRecovery ends and the port returns to the unattached state of its role. -/
  | errorRecoveryEnd (n : Channel)
  /-- DISCOVER_IDENTITY_ATTEMPT (R208). A source runs SOP' Discover Identity with the cable, up to 3 attempts. -/
  | discoverIdentityAttempt (n : Channel) (answered amp5 eprOk : Bool) (maxV : Fin 4)
  /-- SOURCE_CAP_TIMER (R208). Every tTypeCSendSourceCap the source sends Source_Capabilities until GoodCRC or nCapsCount. -/
  | sourceCapTimer (n : Channel) (goodCrc : Bool)
  /-- PING (R216). A received Ping is ignored. -/
  | ping (n : Channel) (hdr : BitVec 16)
  /-- GET_SOURCE_CAP (R216). Get_Source_Cap is answered with Source_Capabilities as source, else Not_Supported. -/
  | getSourceCap (n : Channel) (hdr : BitVec 16)
  /-- GET_SINK_CAP (R216). Get_Sink_Cap or Get_Sink_Cap_Extended is answered from a bound SINK set, else Not_Supported. -/
  | getSinkCap (n : Channel) (hdr : BitVec 16) (ext : Bool)
  /-- GET_SOURCE_CAP_EXTENDED (R216). Get_Source_Cap_Extended or Get_Source_Info is answered as source, else Not_Supported. -/
  | getSourceCapExtended (n : Channel) (hdr : BitVec 16) (info : Bool)
  /-- GET_STATUS (R216). Get_Status is answered with Status. -/
  | getStatus (n : Channel) (hdr : BitVec 16)
  /-- GET_PPS_STATUS (R216). Get_PPS_Status is answered with PPS_Status in a PPS contract, else Not_Supported. -/
  | getPpsStatus (n : Channel) (hdr : BitVec 16)
  /-- GET_REVISION (R216). Get_Revision is answered with Revision. -/
  | getRevision (n : Channel) (hdr : BitVec 16)
  /-- SOFT_RESET (R216). Soft_Reset is accepted, message counters reset and the contract kept. -/
  | softReset (n : Channel) (hdr : BitVec 16)
  /-- VCONN_SWAP (R218). VCONN_Swap is accepted, answered Not_Supported or Wait, and VCONN moved. -/
  | vconnSwap (n : Channel) (hdr : BitVec 16)
  /-- PS_RDY_RECEIVED (R218). The partner's PS_RDY in a VCONN swap lets the ZH15 turn its VCONN off. -/
  | psRdyReceived (n : Channel) (hdr : BitVec 16)
  /-- UNSUPPORTED_PD_MESSAGE (R216). A swap, Data_Reset, battery or other listed unsupported message is answered Not_Supported. -/
  | unsupportedPdMessage (n : Channel) (hdr : BitVec 16)
  /-- BIST (R216). BIST Carrier Mode or Test Data is carried out at vSafe5V, otherwise ignored. -/
  | bist (n : Channel) (hdr : BitVec 16) (carrier : Bool)
  /-- SOURCE_CAPABILITIES (R212). A sink receives Source_Capabilities and requests the highest-power acceptable object or vSafe5V. -/
  | sourceCapabilities (n : Channel) (hdr : BitVec 16) (objs : List (BitVec 32)) (epr : Bool)
  /-- PD_REQUEST (R207). A source evaluates a Request or EPR_Request and rejects, waits or accepts it. -/
  | pdRequest (n : Channel) (hdr : BitVec 16) (rdo : BitVec 32)
  /-- EPR_MODE_ENTER (R217). EPR_Mode Enter is admitted with Enter_Succeeded and EPR capabilities, or answered Enter_Failed. -/
  | eprModeEnter (n : Channel) (hdr : BitVec 16)
  /-- EPR_MODE_EXIT (R216). EPR_Mode Exit is accepted and the source returns to an SPR contract. -/
  | eprModeExit (n : Channel) (hdr : BitVec 16)
  /-- EPR_GET_SOURCE_CAP (R216). EPR_Get_Source_Cap is answered in EPR mode, else Not_Supported. -/
  | eprGetSourceCap (n : Channel) (hdr : BitVec 16)
  /-- EPR_GET_SINK_CAP (R216). EPR_Get_Sink_Cap is answered from a SINK set holding EPR PDOs, else Not_Supported. -/
  | eprGetSinkCap (n : Channel) (hdr : BitVec 16)
  /-- EPR_KEEPALIVE (R216). EPR_KeepAlive is acknowledged and tSourceEPRKeepAlive restarts. -/
  | eprKeepalive (n : Channel) (hdr : BitVec 16)
  /-- PD_ALERT (R216). A received Alert is recorded and Get_Status sent. -/
  | pdAlert (n : Channel) (hdr : BitVec 16) (ado : BitVec 32)
  /-- PD_INFO_RECEIVED (R216). Sink_Capabilities, Source_Info, Revision or Status received are recorded for PD_STATUS. -/
  | pdInfoReceived (n : Channel) (hdr : BitVec 16) (data : List (BitVec 32))
  /-- DISCOVER_IDENTITY (R216). Discover Identity on SOP is ACKed with the paddock's VID and PID. -/
  | discoverIdentity (n : Channel) (hdr : BitVec 16)
  /-- DISCOVER_SVIDS (R220). Discover SVIDs on an ALT_DP upstream port returns 0xFF01. -/
  | discoverSvids (n : Channel) (hdr : BitVec 16)
  /-- DISCOVER_MODES (R220). Discover Modes returns one UFP_D mode VDO with the DP_PINS assignments. -/
  | discoverModes (n : Channel) (hdr : BitVec 16)
  /-- ENTER_MODE (R220). Enter Mode for DisplayPort is ACKed. -/
  | enterMode (n : Channel) (hdr : BitVec 16)
  /-- EXIT_MODE (R220). Exit Mode is ACKed and the port returns to USB, changing width if needed. -/
  | exitMode (n : Channel) (hdr : BitVec 16)
  /-- DP_STATUS_UPDATE (R220). DP Status Update is ACKed with the HPD state. -/
  | dpStatusUpdate (n : Channel) (hdr : BitVec 16)
  /-- DP_CONFIGURE (R220). DP Configure is ACKed after the width change's mux step, or NAKed for a bad assignment. -/
  | dpConfigure (n : Channel) (hdr : BitVec 16) (ufpD : Bool) (pins : Fin 4)
  /-- OTHER_STRUCTURED_VDM (R216). A structured VDM on a port without ALT_DP is NAKed. -/
  | otherStructuredVdm (n : Channel) (hdr : BitVec 16)
  /-- UNSTRUCTURED_VDM (R216). An unstructured VDM is answered Not_Supported. -/
  | unstructuredVdm (n : Channel) (hdr : BitVec 16)
  /-- HARD_RESET_RECEIVED (R214). Hard Reset is received; the source ends the contract and discharges, a sink waits for VBUS. -/
  | hardResetReceived (n : Channel)
  /-- SENDER_RESPONSE_TIMEOUT (R213). tSenderResponse expires and Soft_Reset, then Hard Reset, is sent. -/
  | senderResponseTimeout (n : Channel)
  /-- PPS_TIMEOUT (R213). tPPSTimeout expires without a Request and Hard Reset is sent. -/
  | ppsTimeout (n : Channel)
  /-- EPR_KEEPALIVE_TIMEOUT (R213). tSourceEPRKeepAlive expires and Hard Reset is sent. -/
  | eprKeepaliveTimeout (n : Channel)
  /-- PS_HARD_RESET_TIMER (R213). tPSHardReset after Hard Reset ends and VBUS discharge to vSafe0V begins. -/
  | psHardResetTimer (n : Channel)
  /-- SRC_RECOVER_END (R214). tSrcRecover ends and the source ramps to 5 V and starts capabilities again. -/
  | srcRecoverEnd (n : Channel)
  /-- SRC_TRANSITION_END (R210). tSrcTransition ends after Accept and the setpoint slew begins. -/
  | srcTransitionEnd (n : Channel)
  /-- SLEW_DONE (R210). The setpoint reaches the new voltage and the settle step begins. -/
  | slewDone (n : Channel)
  /-- SETTLE_DONE (R210). VBUS has held within ±5 % for 2 ms and PS_RDY is sent. -/
  | settleDone (n : Channel)
  /-- PS_RDY_TIMEOUT (R210). 275 ms pass after Accept without settling; Hard Reset is sent and TCP_SRC_NOT_READY raised. -/
  | psRdyTimeout (n : Channel)
  /-- VSET_TRIM (R211). Every 1 ms the VSET code is corrected toward the target average. -/
  | vsetTrim (n : Channel) (mv : Nat) (limiting : Bool)
  /-- VCONN_OVERCURRENT (R218). VCONN draws above 220 mA for 1 ms; the switch opens and TCP_VCONN_OC is raised. -/
  | vconnOvercurrent (n : Channel)
  /-- CC_OVERVOLTAGE (R224). CC above 6 V opens CC termination and raises TCP_CC_OV. -/
  | ccOvervoltage (n : Channel)
  /-- HPD_LEVEL_CHANGE (R222). An HPD_IN level held for 2 ms is sent as Attention. -/
  | hpdLevelChange (u : Fin 2) (high : Bool)
  /-- IRQ_HPD (R222). A low HPD_IN pulse of 0.25–2 ms is sent as Attention with IRQ_HPD. -/
  | irqHpd (u : Fin 2)
  /-- BILLBOARD_TIMEOUT (R223). tAMETimeout passes without DisplayPort configured and the tack room disconnects to present Billboard. -/
  | billboardTimeout (u : Fin 2)
  /-- BILLBOARD_RECONNECT (R296). After 10 ms the tack room reconnects with interface 1 and the Billboard Capability. -/
  | billboardReconnect (u : Fin 2)
  /-- FAST_TRIP (R231). Current above FAST turns the gate off within 500 ns and the channel trips. -/
  | fastTrip (n : Channel) (onMs : Nat)
  /-- SLOW_TRIP (R232). The slow-trip timer reaches its limit and the channel trips. -/
  | slowTrip (n : Channel) (onMs : Nat)
  /-- SLOW_TIMER_RESET (R232). Current stays below the slow threshold for 100 µs and the slow-trip timer returns to 0. -/
  | slowTimerReset (n : Channel)
  /-- UNDERVOLTAGE_TRIP (R233). VBUS stays below UV_PCT of target for UV_TIME and the channel trips. -/
  | undervoltageTrip (n : Channel) (onMs : Nat)
  /-- RAMP_START (R236). Every ramp condition holds and the channel begins a ramp. -/
  | rampStart (n : Channel)
  /-- RAMP_COMPLETE (R227). VBUS_SNS reaches 95 % of target and the ramp is complete. -/
  | rampComplete (n : Channel) (gateOk : Bool)
  /-- RAMP_FAIL (R227). The ramp is not complete in time and the channel trips with RAMP_FAIL. -/
  | rampFail (n : Channel) (onMs : Nat)
  /-- ATTEMPT_WINDOW_END (R235). A retry attempt passes its 20 ms window without a trip and succeeds. -/
  | attemptWindowEnd (n : Channel)
  /-- RETRY_WAIT_END (R235). A tripped channel's retry wait expires. -/
  | retryWaitEnd (n : Channel)
  /-- PG_STABLE_TIMER (R237). PG has stayed asserted for 10 s and COUNT returns to 0. -/
  | pgStableTimer (n : Channel)
  /-- UNSEATED_RESET_TIMER (R237). A stall unseated or a Type-C port detached for 2 s resets COUNT and releases a latch. -/
  | unseatedResetTimer (n : Channel)
  /-- SEAT_DEBOUNCE_END (R229). SEAT_N has been low for SEAT_DEB and the stall is seated. -/
  | seatDebounceEnd (i : Fin 8)
  /-- SEAT_REMOVAL (R229). SEAT_N high for 20 µs turns the gate off and drives DISCH. -/
  | seatRemoval (i : Fin 8)
  /-- GATE_STUCK (R239). The gate does not reach VBUS + 4 V within GATE_STUCK; it turns off and PPW_GATE_STUCK is raised. -/
  | gateStuck (n : Channel) (onMs : Nat)
  /-- DISCHARGE_DONE (R240). VBUS_SNS falls below 0.8 V and DISCH is released. -/
  | dischargeDone (n : Channel)
  /-- DISCHARGE_TIMEOUT (R240). VBUS is still above 0.8 V 300 ms after gate-off; DISCH is released and PPW_FET_SHORT raised. -/
  | dischargeTimeout (n : Channel)
  /-- VBUS_RISING_GATE_OFF (R240). VBUS above 0.8 V for 10 ms with the gate off raises PPW_FET_SHORT. -/
  | vbusRisingGateOff (n : Channel)
  /-- PG_ASSERT (R242). Ramp complete, voltage in window and no fault timer assert PG, or PG is withheld. -/
  | pgAssert (n : Channel) (timer gateOk : Bool)
  /-- PG_HOLD_END (R242). PG_HOLD_MS after a fault timer stops, withheld PG asserts. -/
  | pgHoldEnd (n : Channel)
  /-- TELEMETRY_FRAME (R244). Every 20 µs frame samples every channel, input and sensor and recomputes the budget sum. -/
  | telemetryFrame (f : TlmFrame)
  /-- FIRST_USE_END (R250). 1 s of samples pass and the port is accounted at its measured mean. -/
  | firstUseEnd (n : Channel)
  /-- TLM_ENERGY_LO_READ (R248). A read of TLM_ENERGY_LO latches bits 63:32 for the reading master. -/
  | tlmEnergyLoRead (m : Fin 16) (n : Channel)
  /-- TLM_ECLR_WRITE (R248). A 1 written to TLM_ECLR schedules a channel's energy clear at the next boundary. -/
  | tlmEclrWrite (m : Fin 16) (mask : Fin 131072)
  /-- PWRWARN_ASSERT (R249). VIN below VIN_WARN, input current above IIN_MAX or AC_FAIL_N low asserts PWRWARN_N and lowers the budget. -/
  | pwrwarnAssert (cause : WarnCause)
  /-- PWRWARN_RELEASE (R249). 10 ms without any warning condition releases PWRWARN_N. -/
  | pwrwarnRelease
  /-- VIN_UNDERVOLTAGE (R249). VIN_SNS below VIN_MIN for 100 µs raises PPW_VIN_UV. -/
  | vinUndervoltage
  /-- BUDGET_REDUCE (R252). The sum exceeds the budget for 1 ms and the engine lowers RLIM of ports in priority order and rings Dwezel. -/
  | budgetReduce
  /-- BUDGET_SHED (R254). With every port at FLOOR still over budget, one port is switched off per 1 ms. -/
  | budgetShed (onMs : Nat)
  /-- BUDGET_PERIODIC_REVIEW (R255). Every 1 s the engine tests reduced ports and lifts those that fit. -/
  | budgetPeriodicReview
  /-- PPW_CLEAR_WRITE (R237). A PPW_CLEAR bit acts as FAULT_CLEAR for a channel. -/
  | ppwClearWrite (m : Fin 16) (mask : Fin 131072)
  /-- PDC_MYVOTE_WRITE (R259). A master writes its own client's vote on a domain, ending its access holds there. -/
  | pdcMyvoteWrite (m : Fin 16) (d : Fin 12) (v : Fin 4)
  /-- ACCESS_HOLD_END (R400). AUTO_HOLD_MS after a master's last access, its access hold on a domain ends. -/
  | accessHoldEnd (m : Fin 16) (d : Fin 12)
  /-- DOMAIN_ENTRY_STEP_DONE (R261). A clock-stop, isolation or rail/switch step of a domain entry completes. -/
  | domainEntryStepDone (d : Fin 12)
  /-- SWITCH_OPEN_TIMEOUT (R262). The power switch does not acknowledge opening in time; the domain is brought back ON and PDC_OFF_FAIL raised. -/
  | switchOpenTimeout (d : Fin 12)
  /-- DOMAIN_EXIT_STEP_DONE (R263). A crystal, rail, switch, restore, PLL or release step of a domain exit is acknowledged. -/
  | domainExitStepDone (d : Fin 12) (late : Bool) (refused : List Nat)
  /-- DOMAIN_EXIT_TIMEOUT (R264). An exit step times out; the domain returns to its former state, or becomes FAILED after the last attempt. -/
  | domainExitTimeout (d : Fin 12)
  /-- DOMAIN_EXIT_RETRY (R264). 1 ms after a failed exit, a new attempt begins. -/
  | domainExitRetry (d : Fin 12)
  /-- CRYSTAL_STOP (R266). With no votes and no near event for IDLE_MS, the crystal and core PLL stop and AON runs on the keeper. -/
  | crystalStop
  /-- CRYSTAL_RESTART (R266). LEAD_MS before the earliest known wake the PDC restarts the crystal. -/
  | crystalRestart
  /-- RESTING_DOMAIN_ACCESS (R268). A basic-level access to a domain not ON reads 0x0FF0_0FF0 or is dropped and sets SLEEP_ACCESS. -/
  | restingDomainAccess (m : Fin 16) (addr : BitVec 32) (data : Option (BitVec 32))
  /-- AUTO_WAKE_ACCESS (R269). An access by an AUTO_WAKE master raises its vote on the resting domain and stalls until ON. -/
  | autoWakeAccess (m : Fin 16) (addr : BitVec 32) (data : Option (BitVec 32))
  /-- AUTO_WAKE_WRITE (R269). A write of PDC_CTRL sets or clears only the writer's own AUTO_WAKE bit. -/
  | autoWakeWrite (m : Fin 16) (on : Bool)
  /-- INBOUND_POST (R274). A party writes an inbound control word with GO, stamping PARTY and ringing the inbound doorbell. -/
  | inboundPost (m : Fin 16) (c : Fin 12) (reply : Bool) (seq : Fin 16) (count : Fin 32)
  /-- MESSAGE_CONSUME (R281). Dwezel reads an inbound message, clears GO, checks and carries it out and posts its reply. -/
  | messageConsume (c : Fin 12) (reports : List (Nat × List (BitVec 8)))
  /-- INBOUND_POLL (R279). Every POLL_MS while MGT is ON, Dwezel scans POLL inbound halves. -/
  | inboundPoll
  /-- OUTBOUND_ACK (R275). The party writes 1 to outbound GO, freeing the half for a held message. -/
  | outboundAck (m : Fin 16) (c : Fin 12)
  /-- OUTBOUND_TIMEOUT (R282). An outbound message unacknowledged for TIMEOUT sets OUT_TIMEOUT and rings with cause 3. -/
  | outboundTimeout (c : Fin 12)
  /-- MBX_LOCK_READ (R286). A read of MBX_LOCK acquires a free lock or reports its holder. -/
  | mbxLockRead (m : Fin 16) (i : Fin 16)
  /-- MBX_LOCK_WRITE (R286). A write to MBX_LOCK releases it for its holder or Dwezel, or is dropped as misuse. -/
  | mbxLockWrite (m : Fin 16) (i : Fin 16) (w : BitVec 32)
  /-- MBX_SEND (R292). A vendor request posts a message on a channel when its status stage completes. -/
  | mbxSend (slot : Fin 4) (wValue wIndex wLength : BitVec 16) (ctrl : BitVec 32) (words : List (BitVec 32))
  /-- MBX_SEND_COMPLETE (R292). Inbound GO falls and a NAKed MBX_SEND status stage completes, writing the message. -/
  | mbxSendComplete (slot : Fin 4)
  /-- MSG_NAK_TIMEOUT (R292). MBX_SEND has been NAKed for MSG_NAK_MS and is answered STALL. -/
  | msgNakTimeout (slot : Fin 4)
  /-- MBX_RECV (R291). A vendor request returns the outbound control word and message words. -/
  | mbxRecv (slot : Fin 4) (wValue wIndex wLength : BitVec 16)
  /-- MBX_ACK (R291). A vendor request acknowledges the outbound message if the standing SEQ matches. -/
  | mbxAck (slot : Fin 4) (wValue wIndex wLength : BitVec 16)
  /-- REG_READ (R291). A vendor request reads successive register words as master 2 + n. -/
  | regRead (slot : Fin 4) (addr : BitVec 32) (len : Fin 65536)
  /-- REG_WRITE (R292). A vendor request writes successive register words at its status stage. -/
  | regWrite (slot : Fin 4) (addr : BitVec 32) (wLength : BitVec 16) (words : List (BitVec 32))
  /-- REG_WRITE_FIXED (R291). A vendor request writes words to one address in consecutive cycles. -/
  | regWriteFixed (slot : Fin 4) (addr : BitVec 32) (wLength : BitVec 16) (words : List (BitVec 32))
  /-- QUEUE_SELECT (R318). A vendor request selects the queue EP2 drains, taking or releasing ownership. -/
  | queueSelect (slot : Fin 4) (wValue wIndex wLength : BitVec 16)
  /-- EP1_REPORT (R293). A doorbell, queue timeout, mode or fault change latches a new EP1 report, signalling remote wake if suspended. -/
  | ep1Report (slot : Fin 4) (ack : Bool)
  /-- EP2_PACKET_ACK (R294). The host ACKs an EP2 packet and its records leave the queue. -/
  | ep2PacketAck (slot : Fin 4)
  /-- EP3_BULK_DATA (R295). Bulk data for a pending BULK PLAN_CHUNK arrives on EP3 and is taken, or discarded with BAD_ARG. -/
  | ep3BulkData (slot : Fin 4) (bytes : List (BitVec 8))
  /-- I2C_WRITE (R297). An I2C write transfer writes register words as master 6. -/
  | i2cWrite (addr : BitVec 24) (bytes : List (BitVec 8))
  /-- I2C_READ (R297). An I2C read transfer returns register words from the addressed word. -/
  | i2cRead (addr : BitVec 24) (n : Fin 65536)
  /-- SMBUS_ALERT_RESPONSE (R300). The I2C target answers the Alert Response Address with its own address while ALERT_N is asserted. -/
  | smbusAlertResponse
  /-- SPI_WRITE (R298). SPI opcode 0x02 writes register words as master 7. -/
  | spiWrite (addr : BitVec 24) (bytes : List (BitVec 8))
  /-- SPI_READ (R298). SPI opcode 0x03 returns register words after the 0xA5 marker. -/
  | spiRead (addr : BitVec 24) (n : Fin 65536)
  /-- SPI_STATUS (R298). SPI opcode 0x05 returns the ALERT, doorbell and timeout status byte. -/
  | spiStatus
  /-- SIDEBAND_STALL_TIMEOUT (R299). A stalled sideband access reaches STRETCH_MS and ends with 0x0FF0_0BAD or a dropped write. -/
  | sidebandStallTimeout (spi : Bool)
  /-- INFO (R304). Returns TOP_ID, UID, ROM version, plan and barn identity. -/
  | info (c : Fin 12) (seq : Fin 16) (words : List (BitVec 32))
  /-- MODE_GET (R304). Returns the mode and the source that caused SAFE. -/
  | modeGet (c : Fin 12) (seq : Fin 16) (words : List (BitVec 32))
  /-- PORT_STATUS (R304). Returns a port's TCP, PPW, SSH and HSH status and holding slot. -/
  | portStatus (c : Fin 12) (seq : Fin 16) (words : List (BitVec 32))
  /-- PORT_POWER (R305). Releases, holds off or cycles a port's power. -/
  | portPower (c : Fin 12) (seq : Fin 16) (words : List (BitVec 32))
  /-- PORT_POWER_CYCLE_RELEASE (R305). A cycled port's VBUS is below 0.8 V and 500 ms have passed, and the hold-off is released. -/
  | portPowerCycleRelease (n : Channel)
  /-- PD_STATUS (R304). Returns a port's contract, cable, last RDO and Status data. -/
  | pdStatus (c : Fin 12) (seq : Fin 16) (words : List (BitVec 32))
  /-- PD_POLICY (R305). Narrows a port's offer by EPR, PPS and a power cap, resending capabilities. -/
  | pdPolicy (c : Fin 12) (seq : Fin 16) (words : List (BitVec 32))
  /-- SOURCE_CAPS_SET (R305). Selects a plan set and PDO mask for a port, resending capabilities. -/
  | sourceCapsSet (c : Fin 12) (seq : Fin 16) (words : List (BitVec 32))
  /-- TLM_READ (R304). Returns a port's voltage, current and power at the chosen averaging. -/
  | tlmRead (c : Fin 12) (seq : Fin 16) (words : List (BitVec 32))
  /-- ENERGY_READ (R304). Returns a port's energy and yard L time, optionally clearing it. -/
  | energyRead (c : Fin 12) (seq : Fin 16) (words : List (BitVec 32))
  /-- BUDGET_SET (R305). Sets the budget within the plan's BUDGET until the next activation. -/
  | budgetSet (c : Fin 12) (seq : Fin 16) (words : List (BitVec 32))
  /-- FABRIC_STATUS (R304). Returns barn, link, reroute and rebalancer status. -/
  | fabricStatus (c : Fin 12) (seq : Fin 16) (words : List (BitVec 32))
  /-- FABRIC_RESEED (R192). Sends a new flow-hash seed to the lead, which broadcasts RESEED. -/
  | fabricReseed (c : Fin 12) (seq : Fin 16) (words : List (BitVec 32))
  /-- QUEUE_CONFIG (R304). Sets a queue's timeout and doorbell channel, optionally resetting it. -/
  | queueConfig (c : Fin 12) (seq : Fin 16) (words : List (BitVec 32))
  /-- PMU_CONFIG (R304). Sets a counter's event, enable and clear. -/
  | pmuConfig (c : Fin 12) (seq : Fin 16) (words : List (BitVec 32))
  /-- FAULT_STATUS (R304). Returns the sticky bits and the GRAVE latch. -/
  | faultStatus (c : Fin 12) (seq : Fin 16) (words : List (BitVec 32))
  /-- FAULT_CLEAR (R336). Clears a fault source's sticky bit and performs its qualifier's releases, or is DENIED for GRAVE. -/
  | faultClear (c : Fin 12) (seq : Fin 16) (words : List (BitVec 32))
  /-- DUMP_READ (R345). Returns 32 bytes of a hayloft dump entry from RAM or flash. -/
  | dumpRead (c : Fin 12) (seq : Fin 16) (words : List (BitVec 32))
  /-- SESSION_OPEN (R307). Derives a Tabver session key from ephemeral and static ECDH and replies with Dwezel's point. -/
  | sessionOpen (c : Fin 12) (seq : Fin 16) (words : List (BitVec 32))
  /-- SESSION_CLOSE (R309). Closes the party's session, wiping keys, emptying its channel and releasing its locks. -/
  | sessionClose (c : Fin 12) (seq : Fin 16) (words : List (BitVec 32))
  /-- SESSION_IDLE_TIMEOUT (R309). IDLE_S passes without a valid message and the session closes. -/
  | sessionIdleTimeout (c : Fin 12)
  /-- REG_PEEK (R305). Dwezel reads 1–9 register words as master 1. -/
  | regPeek (c : Fin 12) (seq : Fin 16) (words : List (BitVec 32))
  /-- REG_POKE (R305). Dwezel writes a masked value to a register as master 1. -/
  | regPoke (c : Fin 12) (seq : Fin 16) (words : List (BitVec 32))
  /-- TIMELINE_ADD (R304). Dwezel allocates and writes a valid timeline entry and returns its index. -/
  | timelineAdd (c : Fin 12) (seq : Fin 16) (words : List (BitVec 32))
  /-- TIMELINE_DEL (R305). Dwezel deletes a timeline entry above PLAN_TOP. -/
  | timelineDel (c : Fin 12) (seq : Fin 16) (words : List (BitVec 32))
  /-- QUEUE_RECORD_WRITE (R313). A producer's offered record is reserved, written and made visible in its queue, or counted lost. -/
  | queueRecordWrite (q : Fin 4) (flying : Bool)
  /-- QUEUE_DATA_READ (R317). A read of OBS_Q_DATA returns the next word of the head record, popping it at its last word. -/
  | queueDataRead (m : Fin 16) (q : Fin 4)
  /-- QUEUE_READ_STALL_TIMEOUT (R317). A master-1 read of an empty queue stalls 10 µs and returns 0. -/
  | queueReadStallTimeout (q : Fin 4)
  /-- QUEUE_TIMEOUT (R320). A queue holds a record for TIMEOUT_MS without a pop; TIMEOUT is set and Dwezel posts a notice. -/
  | queueTimeout (q : Fin 4)
  /-- QUEUE_RESET (R321). OBS_Q_CTRL.RESET empties the queue in one cycle. -/
  | queueReset (m : Fin 16) (q : Fin 4)
  /-- PMU_CLEAR (R325). OBS_PMU_EVT.CLEAR sets a counter to 0. -/
  | pmuClear (m : Fin 16) (i : Fin 8)
  /-- FAULT_RAISED (R327). A fault source's condition arises; its sticky bit, qualifier and FAULT record are set and its reaction starts. -/
  | faultRaised (src : Fin 128) (q aux : Fin 256)
  /-- FLT_CLEAR_WRITE (R336). Dwezel's FLT_CLEAR write clears a sticky bit and performs its releases. -/
  | fltClearWrite (m : Fin 16) (src : Fin 128) (all : Bool) (qual : Fin 256)
  /-- FORCE_FAULT (R337). FLT_X_FORCE GO raises a named source with its full reaction in SERVICE on a barn of one. -/
  | forceFault (m : Fin 16) (src : Fin 128) (qual : Fin 256)
  /-- CHECKER_INVERT (R338). FLT_X_INVERT inverts check bits of the next memory word or bale CRC written. -/
  | checkerInvert (m : Fin 16) (mask : Fin 4096)
  /-- SELF_CHECK (R339). Every 1 ms the collector compares with its shadow and passes a test event, raising FLT_SELF on mismatch. -/
  | selfCheck (ok : Bool)
  /-- WATCHDOG_EXPIRE (R335). The management watchdog expires and the management core alone is reset. -/
  | watchdogExpire (third : Bool)
  /-- MGT_EXCEPTION (R335). The management core takes an exception and is restarted. -/
  | mgtException (pc : BitVec 32) (third : Bool)
  /-- MANAGEMENT_RESTART_DONE (R335). Dwezel resumes service after a restart, replacing held replies and PENDING operations with BUSY. -/
  | managementRestartDone (handed : Bool)
  /-- DUMP_WRITE (R340). Dwezel captures a hayloft dump into RAM and begins its flash copy. -/
  | dumpWrite (soon : Bool) (trace : List (BitVec 8))
  /-- DUMP_FLASH_DONE (R344). The flash dump entry is erased and programmed header-last, becoming valid. -/
  | dumpFlashDone
  /-- EXPERT_KEY_WRITE (R368). A write to TOP_EXPERT_KEY arms, opens, disarms or closes the writer's expert page. -/
  | expertKeyWrite (m : Fin 16) (k : Fin 2) (v : Fin 65536)
  /-- REGISTER_WRITE (R373). A write to a register without a row of its own is checked for map, page, right, domain and access code and applied or dropped. -/
  | registerWrite (m : Fin 16) (addr : BitVec 32) (w : BitVec 32)
  /-- JTAG_TAP_LEAVE_TEST_LOGIC_RESET (R267). The JTAG TAP leaves Test-Logic-Reset and raises client 15 to ON on every domain. -/
  | jtagTapLeaveTestLogicReset
  /-- SEAT_INPUT_CHANGE (R229). A SEAT_N ball changes level, starting or restarting its seat debounce or removal filter and raising the port group vote on PPA. -/
  | seatInputChange (i : Fin 8) (low : Bool)
  /-- SINK_ATTACH (R228). A sink port (UP0 in LIFELINE or a POWER_IN stall) completes its sink attach on a source's Rp and VBUS and closes its FETs in the sink direction. -/
  | sinkAttach (n : Channel) (cc2 : Bool) (rp : Fin 4)
  /-- ACCEPT_RECEIVED (R212). A sink receives Accept, Reject, Wait or PS_RDY answering its Request, or the ZH15 receives the partner's answer to its own VCONN_Swap, and the contract or VCONN moves accordingly. -/
  | acceptReceived (n : Channel) (hdr : BitVec 16) (ans : PdAnswer)
  /-- USP_LGO_RECEIVED (R121). The host's LGO_U1 or LGO_U2 at an upstream port is accepted, or answered LXU while the port holds a packet for the host. -/
  | uspLgoReceived (u : Fin 2) (u2 : Bool)
  /-- STANDARD_DEVICE_REQUEST (R156). A standard request such as SetAddress, SetConfiguration, SetInterface or SetFeature (U1, U2, LDM or remote wake enable) to a logical hub or tack room sets its address, configuration, alternate setting or enables. -/
  | standardDeviceRequest (slot : Fin 4) (hub : Option (Fin 16)) (ss : Bool) (r : StdReq)
  /-- RX_DETECT_PARTNER_FOUND (R97). An SS link in Rx.Detect finds a partner and begins training, counting as an attach for the predictor. -/
  | rxDetectPartnerFound (n : Channel)
  /-- CARRY_RECEIVER_ACTIVITY (R267). The AON carry receiver detector sees activity and raises client 7 to ON on FAB and HSB. -/
  | carryReceiverActivity (k : Fin 4)
  /-- ISOLATED_HELLO_TIMER (R181). Every 100 ms an isolated link sends HELLO again. -/
  | isolatedHelloTimer (k : Fin 4)
  /-- LINK_NOP_RECEIVED (R171). A LINK NOP bale is received, applying its ACK and credit fields and restarting the no-bale timer. -/
  | linkNopReceived (h : BaleHdr)
  /-- VDP_SRC_DETECTED (R151). A CDP stall sees VDP_SRC on D+ from the device and applies VDM_SRC on D−. -/
  | vdpSrcDetected (n : Stall)
  deriving DecidableEq, Repr

end Sys2Proof
end

