-- ==== Sys2Proof/Decode.lean ====
section
/-!
DEFINITION. The table's words. Every row of spec/opcode_table.json is a command without an encoding: none gives a bit.
-/
namespace Sys2Proof

/-- The command that a word of the table spells: none, since no row gives any bits. -/
def decodeTableWord (_nbits _w : Nat) : Option Instr := none

end Sys2Proof
end

