-- ==== Sys2Proof/Config.lean ====
section
/-!
DEFINITION. What the spec leaves to other standards or to the part: the hash and key functions it names, the ROM,
and the free values. Nothing here has a body, so a claim about the machine holds for every choice.
-/
namespace Sys2Proof.Config

/-- SHA-256 of a byte string (R29), defined outside the spec. -/
opaque sha256 : List Byte → Vector Byte 32

/-- ECDSA P-256 verification over a message, with public key (x, y) and signature (r, s) (R30, "Signing and keys"). -/
opaque ecdsaVerify : (x y : Nat) → (msg : List Byte) → (r s : Nat) → Bool

/-- The x coordinate of the P-256 product of a private number with the point of abscissa x and odd or even ordinate (R307). -/
opaque ecdh : (priv : Nat) → (x : Nat) → (odd : Bool) → Vector Byte 32

/-- The public point of a private number on P-256 (R307). -/
opaque ecPoint : (priv : Nat) → Nat × Nat

/-- HMAC-SHA-256 of a message under a key (R307, R308). -/
opaque hmac : (key msg : List Byte) → Vector Byte 32

/-- Dwezel's n-th ephemeral private number (R307). -/
opaque ephemeral : Nat → Nat

/-- The ROM version of the part (R304, FWPATCH). -/
opaque romVersion : BitVec 32

/-- The patch points published for that ROM version (FWPATCH). -/
opaque romHooks : List Nat

/-- The part is of the industrial grade, ordering code ZH15-I1024 (R1). -/
opaque industrial : Bool

/-- Attedon's rights for master 15 in MAKER, by address and whether it writes (R347, R370). -/
opaque makerMay : (addr : Nat) → (write : Bool) → Bool

/-- The median of an even number of results whose two middle ones differ (R119, log entry 46). -/
opaque middle : (lower upper : Nat) → Nat

/-- What DRV_BARN.STEP, of three bits, shows in formation steps 8 and 9 (R183, log entry 61). -/
opaque lateStep : (step : Nat) → BitVec 3

/-- How long step 1 of a training attempt on link k lasts, from the cycle it begins in (R170, log entry 147). -/
opaque detectTime : (k cycle : Nat) → Nat

/-- Payload of a LINK bale whose layout the spec leaves open (R176, log entry 148). -/
opaque linkBody : (op : String) → (fields : List Nat) → List Byte

/-- TYPE of a CTRL message, and the layout of its bytes (R176, log entry 148). -/
opaque ctrlType : (name : String) → BitVec 8
opaque ctrlBody : (name : String) → (fields : List Nat) → List Byte

/-- How a sent PD message fared: bit 0 GoodCRC received, bits 3:1 its retries, by port, cycle and MessageID (R216, R322, log entry 169). -/
opaque pdLine : (port cycle msgId : Nat) → BitVec 4

/-- A byte of the descriptor store, by the chip's descriptors and its offset there: a layout of Dwezel's own (R290, log entry 174). -/
opaque descByte : (descs : List Byte) → (offset : Nat) → Byte

/-- The IN data stage of the packet staged from queue q has begun, in a cycle (R316, log entry 177). -/
opaque ep2Begun : (q cycle : Nat) → Bool

end Sys2Proof.Config
end

