-- ==== Sys2Proof/Machine/PlanFormat.lean ====
section
/-!
DEFINITION. The Yard Plan as data (spec/02_yard_plan_format.md): one structure for the entry of each section.
Field names are those of the tables R36 to R55.
-/
namespace Sys2Proof.Machine

/-- A STALLS entry (R36). -/
structure StallE where
  member : Nat
  stall : Nat
  typ : Nat
  flags : Nat
  owner : Nat
  seat : Nat
  priority : Nat
  orient : Nat
  ssMode : Nat
  deriving DecidableEq, Repr, Inhabited

/-- A LANES entry (R37). -/
structure LaneE where
  member : Nat
  lane : Nat
  flags : Nat
  preset : Nat
  ctle : Nat
  swing : Nat
  deriving DecidableEq, Repr, Inhabited

/-- A port entry of a paddock or pen (R39). -/
structure PortE where
  kind : Nat
  ref : Nat
  deriving DecidableEq, Repr, Inhabited

/-- A pen record (R38). -/
structure PenR where
  engine : Nat
  ports : Nat
  parent : Nat
  port : List PortE
  deriving DecidableEq, Repr, Inhabited

/-- A paddock record (R38). -/
structure PaddockR where
  slot : Nat
  upMember : Nat
  upPort : Nat
  flags : Nat
  rootPorts : Nat
  penCount : Nat
  dpPins : Nat
  port : List PortE
  pens : List PenR
  deriving DecidableEq, Repr, Inhabited

/-- A DESCRIPTORS record (R40); the strings are UTF-16 units. -/
structure DescR where
  slot : Nat
  flags : Nat
  vid : Nat
  pidHub : Nat
  pidTack : Nat
  bcdDevice : Nat
  container : List Byte
  mfr : List Nat
  prod : List Nat
  serial : List Nat
  deriving DecidableEq, Repr, Inhabited

/-- A BARN link entry (R42). -/
structure LinkE where
  memberA : Nat
  linkA : Nat
  memberB : Nat
  linkB : Nat
  carry : Nat
  flags : Nat
  deriving DecidableEq, Repr, Inhabited

/-- The BARN section (R42). -/
structure BarnR where
  members : Nat
  memberSrc : Nat
  leadPin : Nat
  eligible : Nat
  deadline : Nat
  seed : Nat
  uid : List Nat
  links : List LinkE
  deriving DecidableEq, Repr, Inhabited

/-- A POWER entry (R43). -/
structure PowerE where
  member : Nat
  flags : Nat
  up0Pri : Nat
  up1Pri : Nat
  budget : Nat
  vinWarn : Nat
  vinMin : Nat
  iinShunt : Nat
  iinMax : Nat
  deriving DecidableEq, Repr, Inhabited

/-- A PDO set (R44). -/
structure PdoSet where
  id : Nat
  spr : Nat
  epr : Nat
  flags : Nat
  pdos : List Nat
  deriving DecidableEq, Repr, Inhabited

/-- A PDO binding (R44). -/
structure PdoBind where
  member : Nat
  port : Nat
  set : Nat
  deriving DecidableEq, Repr, Inhabited

/-- An EFUSE entry (R46). -/
structure EfuseE where
  member : Nat
  port : Nat
  shunt : Nat
  ilim : Nat
  fast : Nat
  slow : Nat
  ramp : Nat
  retry : Nat
  retries : Nat
  gateStuck : Nat
  seatDeb : Nat
  deriving DecidableEq, Repr, Inhabited

/-- A DOMAINS entry with its section's member mask (R48). -/
structure DomainE where
  mask : Nat
  domain : Nat
  flags : Nat
  offMs : Nat
  retUs : Nat
  quietMs : Nat
  deriving DecidableEq, Repr, Inhabited

/-- A TIMELINE entry (R49). -/
structure TimelineE where
  yard : Nat
  action : Nat
  target : Nat
  start : Nat
  tick : Nat
  rep : Nat
  member : Nat
  arg : Nat
  deriving DecidableEq, Repr, Inhabited

/-- A FAULTS entry (R50). -/
structure FaultE where
  source : Nat
  severity : Nat
  flags : Nat
  deriving DecidableEq, Repr, Inhabited

/-- A MAILBOX entry (R51). -/
structure MailboxE where
  channel : Nat
  party : Nat
  notify : Nat
  timeout : Nat
  deriving DecidableEq, Repr, Inhabited

/-- A KEYS entry (R52). -/
structure KeyE where
  id : Nat
  party : Nat
  perms : Nat
  x : Nat
  y : Nat
  deriving DecidableEq, Repr, Inhabited

/-- A GPIO entry with its section's member mask (R53). -/
structure GpioE where
  mask : Nat
  gpio : Nat
  fn : Nat
  arg : Nat
  flags : Nat
  deriving DecidableEq, Repr, Inhabited

/-- A REGPRELOAD entry with its section's member mask (R54). -/
structure PreloadE where
  mask : Nat
  addr : Nat
  bits : Nat
  value : Nat
  deriving DecidableEq, Repr, Inhabited

/-- The FWPATCH section: each patch is a hook and its code. -/
structure PatchR where
  rom : Nat
  flags : Nat
  patches : List (Nat × List Byte)
  deriving DecidableEq, Repr, Inhabited

/-- A whole Yard Plan, read. -/
structure Plan where
  planId : Nat
  build : Nat
  barnId : Nat
  bodyHash : List Byte
  keySlot : Nat
  stalls : List StallE
  lanes : List LaneE
  paddocks : List PaddockR
  descs : List DescR
  barn : Option BarnR
  power : List PowerE
  sets : List PdoSet
  binds : List PdoBind
  efuse : List EfuseE
  domains : List DomainE
  timeline : List TimelineE
  dumpOnChip : Bool
  faults : List FaultE
  mailbox : List MailboxE
  keys : List KeyE
  gpio : List GpioE
  preload : List PreloadE
  fwpatch : Option PatchR
  /-- Member masks of the DOMAINS, GPIO and REGPRELOAD sections, those without entries among them (0xC005). -/
  masks : List Nat
  deriving DecidableEq, Repr, Inhabited

end Sys2Proof.Machine
end

