-- ==== Sys2Proof/Machine/RegMap.lean ====
section
/-!
DEFINITION. The register map of spec/17_address_map.md (R365, R366, R375) and the register tables of the chapters:
every register's address, domain, page, reset word and fields, with the access code of R8 for each field.
An index that a register does not have names the last word of its block, which is unmapped and reads 0 (R366).
Field definitions carry the names of the spec: `YRD_STATUS.STATE n` is field STATE of `YRD_STATUS[n]`.
-/
namespace Sys2Proof.Machine

/-- A register field: byte address of its register, lowest bit, width in bits (R4). -/
structure Fld where
  addr : Nat
  lo : Nat
  width : Nat
  deriving DecidableEq, Repr

/-- The access codes of R8. -/
inductive Access where
  | rw | ro | wo | w1c | w1s | rwp | ra
  deriving DecidableEq, Repr

/-- The twelve power domains (R256), in the order of their ids. -/
inductive Dom where
  | aon | ppa | mgt | hub | hsb | up0 | up1 | dg0 | dg1 | dg2 | dg3 | fab
  deriving DecidableEq, Repr

/-- The domain of a row of the register map: one for all, by upstream port, by stall, or by lane. -/
inductive RowDom where
  | one (d : Dom) | byUp | byStall | byLane
  deriving DecidableEq, Repr

/-- One field of a register row: lowest bit, width, access code, and the range a write may set
(a value outside it leaves the field unchanged, as the register's own text says). -/
structure FieldRow where
  lo : Nat
  width : Nat
  acc : Access
  min : Nat
  max : Nat
  deriving DecidableEq, Repr

/-- One heading line of the register tables: `count` elements at `base + stride * i`, each of `words` consecutive words. -/
structure RegRow where
  base : Nat
  stride : Nat
  count : Nat
  words : Nat
  dom : RowDom
  expert : Bool
  reset : Nat
  fields : List FieldRow
  deriving DecidableEq, Repr

/-! ## PLN fields -/

/-- `PLN_STATUS` (spec/03_yard_plan_life.md). -/
def PLN_STATUS.addr : Nat := 0x10000
def PLN_STATUS.SOURCE : Fld := ⟨PLN_STATUS.addr, 0, 3⟩
def PLN_STATUS.FALLBACK : Fld := ⟨PLN_STATUS.addr, 3, 1⟩
def PLN_STATUS.UPLOAD : Fld := ⟨PLN_STATUS.addr, 4, 3⟩
def PLN_STATUS.OWNER : Fld := ⟨PLN_STATUS.addr, 8, 4⟩
def PLN_STATUS.LAST_ERR : Fld := ⟨PLN_STATUS.addr, 16, 16⟩
/-- `PLN_ACTIVE_ID` (spec/03_yard_plan_life.md). -/
def PLN_ACTIVE_ID.addr : Nat := 0x10004
def PLN_ACTIVE_ID.PLAN_ID : Fld := ⟨PLN_ACTIVE_ID.addr, 0, 32⟩
/-- `PLN_ACTIVE_BUILD` (spec/03_yard_plan_life.md). -/
def PLN_ACTIVE_BUILD.addr : Nat := 0x10008
def PLN_ACTIVE_BUILD.BUILD : Fld := ⟨PLN_ACTIVE_BUILD.addr, 0, 32⟩
/-- `PLN_FLOOR` (spec/03_yard_plan_life.md). -/
def PLN_FLOOR.addr : Nat := 0x1000C
def PLN_FLOOR.FLOOR : Fld := ⟨PLN_FLOOR.addr, 0, 32⟩
/-- `PLN_KEYS` (spec/03_yard_plan_life.md). -/
def PLN_KEYS.addr : Nat := 0x10010
def PLN_KEYS.PROGRAMMED : Fld := ⟨PLN_KEYS.addr, 0, 4⟩
def PLN_KEYS.REVOKED : Fld := ⟨PLN_KEYS.addr, 4, 4⟩
def PLN_KEYS.ACTIVE_SLOT : Fld := ⟨PLN_KEYS.addr, 8, 2⟩
def PLN_KEYS.FLOOR_WORDS : Fld := ⟨PLN_KEYS.addr, 16, 7⟩
/-- `PLN_SLOT_SEQ[n]` (spec/03_yard_plan_life.md). -/
def PLN_SLOT_SEQ.addr (n : Nat) : Nat := if n < 2 then 0x10020 + 0x4 * n else 0x1FFFC
def PLN_SLOT_SEQ.SEQ (n : Nat) : Fld := ⟨PLN_SLOT_SEQ.addr n, 0, 32⟩
/-- `PLN_HASH[n]` (spec/03_yard_plan_life.md). -/
def PLN_HASH.addr (n : Nat) : Nat := if n < 8 then 0x10040 + 0x4 * n else 0x1FFFC
def PLN_HASH.HASH (n : Nat) : Fld := ⟨PLN_HASH.addr n, 0, 32⟩

/-! ## YRD fields -/

/-- `YRD_CTRL` (spec/04_yard_clock.md). -/
def YRD_CTRL.addr : Nat := 0x20000
def YRD_CTRL.PTM_EN : Fld := ⟨YRD_CTRL.addr, 0, 4⟩
def YRD_CTRL.FORCE_COAST : Fld := ⟨YRD_CTRL.addr, 4, 4⟩
def YRD_CTRL.SNAP : Fld := ⟨YRD_CTRL.addr, 8, 1⟩
/-- `YRD_STATUS[n]` (spec/04_yard_clock.md). -/
def YRD_STATUS.addr (n : Nat) : Nat := if n < 5 then 0x20010 + 0x4 * n else 0x2FFFC
def YRD_STATUS.STATE (n : Nat) : Fld := ⟨YRD_STATUS.addr n, 0, 2⟩
def YRD_STATUS.REF (n : Nat) : Fld := ⟨YRD_STATUS.addr n, 2, 2⟩
def YRD_STATUS.COARSE (n : Nat) : Fld := ⟨YRD_STATUS.addr n, 4, 1⟩
def YRD_STATUS.STALE (n : Nat) : Fld := ⟨YRD_STATUS.addr n, 5, 1⟩
def YRD_STATUS.STEPPED (n : Nat) : Fld := ⟨YRD_STATUS.addr n, 6, 1⟩
def YRD_STATUS.LOST (n : Nat) : Fld := ⟨YRD_STATUS.addr n, 7, 1⟩
def YRD_STATUS.PHASE_ERR (n : Nat) : Fld := ⟨YRD_STATUS.addr n, 16, 16⟩
/-- `YRD_NOW_LO[n]` (spec/04_yard_clock.md). -/
def YRD_NOW_LO.addr (n : Nat) : Nat := if n < 5 then 0x20040 + 0x8 * n else 0x2FFFC
def YRD_NOW_LO.NOW_LO (n : Nat) : Fld := ⟨YRD_NOW_LO.addr n, 0, 32⟩
/-- `YRD_NOW_HI[n]` (spec/04_yard_clock.md). -/
def YRD_NOW_HI.addr (n : Nat) : Nat := if n < 5 then 0x20044 + 0x8 * n else 0x2FFFC
def YRD_NOW_HI.NOW_HI (n : Nat) : Fld := ⟨YRD_NOW_HI.addr n, 0, 32⟩
/-- `YRD_RATE[n]` (spec/04_yard_clock.md). -/
def YRD_RATE.addr (n : Nat) : Nat := if n < 5 then 0x20080 + 0x4 * n else 0x2FFFC
def YRD_RATE.RATE (n : Nat) : Fld := ⟨YRD_RATE.addr n, 0, 24⟩
/-- `YRD_STEP[n]` (spec/04_yard_clock.md). -/
def YRD_STEP.addr (n : Nat) : Nat := if n < 5 then 0x200A0 + 0x4 * n else 0x2FFFC
def YRD_STEP.STEP (n : Nat) : Fld := ⟨YRD_STEP.addr n, 0, 32⟩
/-- `YRD_BARN` (spec/04_yard_clock.md). -/
def YRD_BARN.addr : Nat := 0x200C0
def YRD_BARN.LEAD : Fld := ⟨YRD_BARN.addr, 0, 3⟩
def YRD_BARN.HOPS : Fld := ⟨YRD_BARN.addr, 3, 3⟩
def YRD_BARN.SYNCED : Fld := ⟨YRD_BARN.addr, 6, 1⟩
def YRD_BARN.ERR : Fld := ⟨YRD_BARN.addr, 16, 16⟩

/-! ## TML fields -/

/-- `TML_CTRL` (spec/04_yard_clock.md). -/
def TML_CTRL.addr : Nat := 0x30000
def TML_CTRL.ENABLE : Fld := ⟨TML_CTRL.addr, 0, 1⟩
def TML_CTRL.PRED_EN : Fld := ⟨TML_CTRL.addr, 1, 1⟩
/-- `TML_SEL` (spec/04_yard_clock.md). -/
def TML_SEL.addr : Nat := 0x30004
def TML_SEL.INDEX : Fld := ⟨TML_SEL.addr, 0, 8⟩
def TML_SEL.CMD : Fld := ⟨TML_SEL.addr, 8, 3⟩
def TML_SEL.BUSY : Fld := ⟨TML_SEL.addr, 16, 1⟩
def TML_SEL.REFUSED : Fld := ⟨TML_SEL.addr, 17, 1⟩
/-- `TML_E_TIME_LO` (spec/04_yard_clock.md). -/
def TML_E_TIME_LO.addr : Nat := 0x30008
def TML_E_TIME_LO.TIME_LO : Fld := ⟨TML_E_TIME_LO.addr, 0, 32⟩
/-- `TML_E_TIME_HI` (spec/04_yard_clock.md). -/
def TML_E_TIME_HI.addr : Nat := 0x3000C
def TML_E_TIME_HI.TIME_HI : Fld := ⟨TML_E_TIME_HI.addr, 0, 32⟩
/-- `TML_E_CTRL` (spec/04_yard_clock.md). -/
def TML_E_CTRL.addr : Nat := 0x30010
def TML_E_CTRL.YARD : Fld := ⟨TML_E_CTRL.addr, 0, 3⟩
def TML_E_CTRL.ABS : Fld := ⟨TML_E_CTRL.addr, 3, 1⟩
def TML_E_CTRL.VALID : Fld := ⟨TML_E_CTRL.addr, 4, 1⟩
def TML_E_CTRL.ACTION : Fld := ⟨TML_E_CTRL.addr, 8, 4⟩
def TML_E_CTRL.TARGET : Fld := ⟨TML_E_CTRL.addr, 16, 8⟩
/-- `TML_E_REPEAT` (spec/04_yard_clock.md). -/
def TML_E_REPEAT.addr : Nat := 0x30014
def TML_E_REPEAT.REPEAT : Fld := ⟨TML_E_REPEAT.addr, 0, 24⟩
/-- `TML_E_ARG` (spec/04_yard_clock.md). -/
def TML_E_ARG.addr : Nat := 0x30018
def TML_E_ARG.ARG : Fld := ⟨TML_E_ARG.addr, 0, 16⟩
/-- `TML_STATUS` (spec/04_yard_clock.md). -/
def TML_STATUS.addr : Nat := 0x30020
def TML_STATUS.USED : Fld := ⟨TML_STATUS.addr, 0, 9⟩
def TML_STATUS.PLAN_TOP : Fld := ⟨TML_STATUS.addr, 16, 8⟩
def TML_STATUS.CATCHUP : Fld := ⟨TML_STATUS.addr, 24, 4⟩
def TML_STATUS.IDLE_KA : Fld := ⟨TML_STATUS.addr, 28, 4⟩
/-- `TML_PRED[d]` (spec/04_yard_clock.md). -/
def TML_PRED.addr (n : Nat) : Nat := if n < 12 then 0x30040 + 0x4 * n else 0x3FFFC
def TML_PRED.HISTORY (n : Nat) : Fld := ⟨TML_PRED.addr n, 0, 7⟩
def TML_PRED.CHOICE (n : Nat) : Fld := ⟨TML_PRED.addr n, 8, 2⟩
def TML_PRED.MISS (n : Nat) : Fld := ⟨TML_PRED.addr n, 10, 4⟩
def TML_PRED.CAPPED (n : Nat) : Fld := ⟨TML_PRED.addr n, 14, 1⟩
def TML_PRED.NEXT (n : Nat) : Fld := ⟨TML_PRED.addr n, 16, 16⟩
/-- `TML_PAT[s]` (spec/04_yard_clock.md). -/
def TML_PAT.addr (n : Nat) : Nat := if n < 15 then 0x30080 + 0x4 * n else 0x3FFFC
def TML_PAT.STATE (n : Nat) : Fld := ⟨TML_PAT.addr n, 0, 2⟩
def TML_PAT.AGREE (n : Nat) : Fld := ⟨TML_PAT.addr n, 2, 4⟩
def TML_PAT.PERIOD (n : Nat) : Fld := ⟨TML_PAT.addr n, 8, 22⟩
/-- `TML_LEAD` (spec/04_yard_clock.md). -/
def TML_LEAD.addr : Nat := 0x31000
def TML_LEAD.RET_LEAD : Fld := ⟨TML_LEAD.addr, 0, 8⟩
def TML_LEAD.OFF_LOGIC : Fld := ⟨TML_LEAD.addr, 8, 8⟩
def TML_LEAD.OFF_PHY : Fld := ⟨TML_LEAD.addr, 16, 12⟩

/-! ## SSH fields -/

/-- `SSH_CTRL` (spec/05_superspeed_hub.md). -/
def SSH_CTRL.addr : Nat := 0x40000
def SSH_CTRL.ENABLE : Fld := ⟨SSH_CTRL.addr, 0, 1⟩
def SSH_CTRL.ITP_EN : Fld := ⟨SSH_CTRL.addr, 1, 1⟩
def SSH_CTRL.LDM_EN : Fld := ⟨SSH_CTRL.addr, 2, 1⟩
/-- `SSH_CTX[c]` (spec/05_superspeed_hub.md). -/
def SSH_CTX.addr (n : Nat) : Nat := if n < 8 then 0x40010 + 0x4 * n else 0x4FFFC
def SSH_CTX.KIND (n : Nat) : Fld := ⟨SSH_CTX.addr n, 0, 2⟩
def SSH_CTX.SLOT (n : Nat) : Fld := ⟨SSH_CTX.addr n, 2, 2⟩
def SSH_CTX.PEN (n : Nat) : Fld := ⟨SSH_CTX.addr n, 4, 4⟩
def SSH_CTX.DEPTH (n : Nat) : Fld := ⟨SSH_CTX.addr n, 8, 3⟩
def SSH_CTX.DEPTH_SET (n : Nat) : Fld := ⟨SSH_CTX.addr n, 11, 1⟩
def SSH_CTX.PORTS (n : Nat) : Fld := ⟨SSH_CTX.addr n, 12, 4⟩
def SSH_CTX.ADDR (n : Nat) : Fld := ⟨SSH_CTX.addr n, 16, 7⟩
def SSH_CTX.USP_LINK (n : Nat) : Fld := ⟨SSH_CTX.addr n, 24, 4⟩
/-- `SSH_PORT[p]` (spec/05_superspeed_hub.md). -/
def SSH_PORT.addr (n : Nat) : Nat := if n < 17 then 0x40040 + 0x4 * n else 0x4FFFC
def SSH_PORT.LINK (n : Nat) : Fld := ⟨SSH_PORT.addr n, 0, 4⟩
def SSH_PORT.RATE (n : Nat) : Fld := ⟨SSH_PORT.addr n, 4, 3⟩
def SSH_PORT.CTX (n : Nat) : Fld := ⟨SSH_PORT.addr n, 8, 3⟩
def SSH_PORT.HP_IN (n : Nat) : Fld := ⟨SSH_PORT.addr n, 12, 3⟩
def SSH_PORT.HP_OUT (n : Nat) : Fld := ⟨SSH_PORT.addr n, 16, 3⟩
/-- `SSH_PORT_LPM[p]` (spec/05_superspeed_hub.md). -/
def SSH_PORT_LPM.addr (n : Nat) : Nat := if n < 15 then 0x40090 + 0x4 * n else 0x4FFFC
def SSH_PORT_LPM.U1_TIMEOUT (n : Nat) : Fld := ⟨SSH_PORT_LPM.addr n, 0, 8⟩
def SSH_PORT_LPM.U2_TIMEOUT (n : Nat) : Fld := ⟨SSH_PORT_LPM.addr n, 8, 8⟩
def SSH_PORT_LPM.FW_HELD (n : Nat) : Fld := ⟨SSH_PORT_LPM.addr n, 16, 1⟩
/-- `SSH_PORT_EVT[p]` (spec/05_superspeed_hub.md). -/
def SSH_PORT_EVT.addr (n : Nat) : Nat := if n < 17 then 0x400D0 + 0x4 * n else 0x4FFFC
def SSH_PORT_EVT.LINK_CHG (n : Nat) : Fld := ⟨SSH_PORT_EVT.addr n, 0, 1⟩
def SSH_PORT_EVT.WAKE (n : Nat) : Fld := ⟨SSH_PORT_EVT.addr n, 1, 1⟩
def SSH_PORT_EVT.DEFER (n : Nat) : Fld := ⟨SSH_PORT_EVT.addr n, 2, 1⟩
def SSH_PORT_EVT.DROP (n : Nat) : Fld := ⟨SSH_PORT_EVT.addr n, 3, 1⟩
def SSH_PORT_EVT.CRC_STOMP (n : Nat) : Fld := ⟨SSH_PORT_EVT.addr n, 4, 1⟩
def SSH_PORT_EVT.LDM_FAIL (n : Nat) : Fld := ⟨SSH_PORT_EVT.addr n, 5, 1⟩
def SSH_PORT_EVT.INACTIVE (n : Nat) : Fld := ⟨SSH_PORT_EVT.addr n, 6, 1⟩
/-- `SSH_DROPS` (spec/05_superspeed_hub.md). -/
def SSH_DROPS.addr : Nat := 0x40120
def SSH_DROPS.DROP : Fld := ⟨SSH_DROPS.addr, 0, 16⟩
def SSH_DROPS.DEFER : Fld := ⟨SSH_DROPS.addr, 16, 16⟩
/-- `SSH_USP_LPM[u]` (spec/05_superspeed_hub.md). -/
def SSH_USP_LPM.addr (n : Nat) : Nat := if n < 2 then 0x40130 + 0x4 * n else 0x4FFFC
def SSH_USP_LPM.U1_ENABLE (n : Nat) : Fld := ⟨SSH_USP_LPM.addr n, 0, 1⟩
def SSH_USP_LPM.U2_ENABLE (n : Nat) : Fld := ⟨SSH_USP_LPM.addr n, 1, 1⟩
def SSH_USP_LPM.LDM_ENABLE (n : Nat) : Fld := ⟨SSH_USP_LPM.addr n, 2, 1⟩
/-- `SSH_PTM[u]` (spec/05_superspeed_hub.md). -/
def SSH_PTM.addr (n : Nat) : Nat := if n < 2 then 0x40140 + 0x4 * n else 0x4FFFC
def SSH_PTM.DELAY (n : Nat) : Fld := ⟨SSH_PTM.addr n, 0, 16⟩
def SSH_PTM.VALID (n : Nat) : Fld := ⟨SSH_PTM.addr n, 16, 1⟩
/-- `SSH_ITP[u]` (spec/05_superspeed_hub.md). -/
def SSH_ITP.addr (n : Nat) : Nat := if n < 2 then 0x40150 + 0x4 * n else 0x4FFFC
def SSH_ITP.LAST_BIC (n : Nat) : Fld := ⟨SSH_ITP.addr n, 0, 14⟩
def SSH_ITP.RES_MAX (n : Nat) : Fld := ⟨SSH_ITP.addr n, 16, 8⟩
/-- `SSH_ITP_REGEN` (spec/05_superspeed_hub.md). -/
def SSH_ITP_REGEN.addr : Nat := 0x40158
def SSH_ITP_REGEN.SENT : Fld := ⟨SSH_ITP_REGEN.addr, 0, 16⟩
def SSH_ITP_REGEN.SKIPPED : Fld := ⟨SSH_ITP_REGEN.addr, 16, 16⟩
/-- `SSH_X_TUNE` (spec/05_superspeed_hub.md). -/
def SSH_X_TUNE.addr : Nat := 0x41000
def SSH_X_TUNE.USP_IDLE_US : Fld := ⟨SSH_X_TUNE.addr, 0, 8⟩
def SSH_X_TUNE.RECOV_HOLD : Fld := ⟨SSH_X_TUNE.addr, 8, 8⟩
def SSH_X_TUNE.ITP_REGEN : Fld := ⟨SSH_X_TUNE.addr, 16, 1⟩
/-- `SSH_X_VOTE` (spec/05_superspeed_hub.md). -/
def SSH_X_VOTE.addr : Nat := 0x41004
def SSH_X_VOTE.U1_VOTE : Fld := ⟨SSH_X_VOTE.addr, 0, 2⟩
def SSH_X_VOTE.U2_VOTE : Fld := ⟨SSH_X_VOTE.addr, 2, 2⟩

/-! ## PBF fields -/

/-- `PBF_CTRL` (spec/05_superspeed_hub.md). -/
def PBF_CTRL.addr : Nat := 0x50000
def PBF_CTRL.ENABLE : Fld := ⟨PBF_CTRL.addr, 0, 1⟩
def PBF_CTRL.SCRUB : Fld := ⟨PBF_CTRL.addr, 1, 1⟩
/-- `PBF_STATUS` (spec/05_superspeed_hub.md). -/
def PBF_STATUS.addr : Nat := 0x50004
def PBF_STATUS.FREE : Fld := ⟨PBF_STATUS.addr, 0, 17⟩
def PBF_STATUS.BANK_LOW : Fld := ⟨PBF_STATUS.addr, 24, 8⟩
/-- `PBF_SHARED` (spec/05_superspeed_hub.md). -/
def PBF_SHARED.addr : Nat := 0x50008
def PBF_SHARED.SIZE : Fld := ⟨PBF_SHARED.addr, 0, 17⟩
/-- `PBF_SHARED_FREE` (spec/05_superspeed_hub.md). -/
def PBF_SHARED_FREE.addr : Nat := 0x5000C
def PBF_SHARED_FREE.FREE : Fld := ⟨PBF_SHARED_FREE.addr, 0, 17⟩
/-- `PBF_BANK_FREE[b]` (spec/05_superspeed_hub.md). -/
def PBF_BANK_FREE.addr (n : Nat) : Nat := if n < 8 then 0x50010 + 0x4 * n else 0x5FFFC
def PBF_BANK_FREE.FREE (n : Nat) : Fld := ⟨PBF_BANK_FREE.addr n, 0, 14⟩
/-- `PBF_RESV[q]` (spec/05_superspeed_hub.md). -/
def PBF_RESV.addr (n : Nat) : Nat := if n < 22 then 0x50040 + 0x4 * n else 0x5FFFC
def PBF_RESV.RESERVE (n : Nat) : Fld := ⟨PBF_RESV.addr n, 0, 16⟩
def PBF_RESV.SHARE_MAX (n : Nat) : Fld := ⟨PBF_RESV.addr n, 16, 16⟩
/-- `PBF_USED[q]` (spec/05_superspeed_hub.md). -/
def PBF_USED.addr (n : Nat) : Nat := if n < 22 then 0x500A0 + 0x4 * n else 0x5FFFC
def PBF_USED.USED (n : Nat) : Fld := ⟨PBF_USED.addr n, 0, 16⟩
def PBF_USED.PEAK (n : Nat) : Fld := ⟨PBF_USED.addr n, 16, 16⟩
/-- `PBF_EVT` (spec/05_superspeed_hub.md). -/
def PBF_EVT.addr : Nat := 0x50100
def PBF_EVT.ECC_CORR : Fld := ⟨PBF_EVT.addr, 0, 1⟩
def PBF_EVT.ECC_UNCORR : Fld := ⟨PBF_EVT.addr, 1, 1⟩
def PBF_EVT.HOLD : Fld := ⟨PBF_EVT.addr, 2, 1⟩
def PBF_EVT.BANK_LOW : Fld := ⟨PBF_EVT.addr, 3, 1⟩
def PBF_EVT.RESV_ERR : Fld := ⟨PBF_EVT.addr, 4, 1⟩
/-- `PBF_ECC_COUNT` (spec/05_superspeed_hub.md). -/
def PBF_ECC_COUNT.addr : Nat := 0x50104
def PBF_ECC_COUNT.CORR : Fld := ⟨PBF_ECC_COUNT.addr, 0, 16⟩
def PBF_ECC_COUNT.UNCORR : Fld := ⟨PBF_ECC_COUNT.addr, 16, 16⟩
/-- `PBF_X_TUNE` (spec/05_superspeed_hub.md). -/
def PBF_X_TUNE.addr : Nat := 0x51000
def PBF_X_TUNE.BANK_FLOOR : Fld := ⟨PBF_X_TUNE.addr, 0, 13⟩
def PBF_X_TUNE.CREDIT_MIN : Fld := ⟨PBF_X_TUNE.addr, 16, 5⟩
/-- `PBF_X_ARB` (spec/05_superspeed_hub.md). -/
def PBF_X_ARB.addr : Nat := 0x51004
def PBF_X_ARB.ISO_FIRST : Fld := ⟨PBF_X_ARB.addr, 0, 1⟩
def PBF_X_ARB.EQUAL_WEIGHT : Fld := ⟨PBF_X_ARB.addr, 1, 1⟩

/-! ## HSH fields -/

/-- `HSH_CTRL` (spec/06_usb2_hub_and_translators.md). -/
def HSH_CTRL.addr : Nat := 0x60000
def HSH_CTRL.ENABLE : Fld := ⟨HSH_CTRL.addr, 0, 1⟩
/-- `HSH_ENG[e]` (spec/06_usb2_hub_and_translators.md). -/
def HSH_ENG.addr (n : Nat) : Nat := if n < 4 then 0x60010 + 0x4 * n else 0x6FFFC
def HSH_ENG.ROLE (n : Nat) : Fld := ⟨HSH_ENG.addr n, 0, 2⟩
def HSH_ENG.SLOT (n : Nat) : Fld := ⟨HSH_ENG.addr n, 2, 2⟩
def HSH_ENG.PEN (n : Nat) : Fld := ⟨HSH_ENG.addr n, 4, 4⟩
def HSH_ENG.UPSTREAM (n : Nat) : Fld := ⟨HSH_ENG.addr n, 8, 3⟩
def HSH_ENG.SPEED (n : Nat) : Fld := ⟨HSH_ENG.addr n, 12, 2⟩
def HSH_ENG.STATE (n : Nat) : Fld := ⟨HSH_ENG.addr n, 16, 3⟩
def HSH_ENG.ADDR (n : Nat) : Fld := ⟨HSH_ENG.addr n, 20, 7⟩
/-- `HSH_PORT[s]` (spec/06_usb2_hub_and_translators.md). -/
def HSH_PORT.addr (n : Nat) : Nat := if n < 15 then 0x60040 + 0x4 * n else 0x6FFFC
def HSH_PORT.ENGINE (n : Nat) : Fld := ⟨HSH_PORT.addr n, 0, 2⟩
def HSH_PORT.STATE (n : Nat) : Fld := ⟨HSH_PORT.addr n, 4, 4⟩
def HSH_PORT.SPEED (n : Nat) : Fld := ⟨HSH_PORT.addr n, 8, 2⟩
def HSH_PORT.CONNECT (n : Nat) : Fld := ⟨HSH_PORT.addr n, 10, 1⟩
def HSH_PORT.REMOTE (n : Nat) : Fld := ⟨HSH_PORT.addr n, 11, 1⟩
def HSH_PORT.BC (n : Nat) : Fld := ⟨HSH_PORT.addr n, 12, 2⟩
def HSH_PORT.BESL (n : Nat) : Fld := ⟨HSH_PORT.addr n, 16, 4⟩
def HSH_PORT.RWE (n : Nat) : Fld := ⟨HSH_PORT.addr n, 20, 1⟩
/-- `HSH_PORT_EVT[s]` (spec/06_usb2_hub_and_translators.md). -/
def HSH_PORT_EVT.addr (n : Nat) : Nat := if n < 15 then 0x60080 + 0x4 * n else 0x6FFFC
def HSH_PORT_EVT.CONN_CHG (n : Nat) : Fld := ⟨HSH_PORT_EVT.addr n, 0, 1⟩
def HSH_PORT_EVT.RESET_DONE (n : Nat) : Fld := ⟨HSH_PORT_EVT.addr n, 1, 1⟩
def HSH_PORT_EVT.RESUME_DONE (n : Nat) : Fld := ⟨HSH_PORT_EVT.addr n, 2, 1⟩
def HSH_PORT_EVT.WAKE (n : Nat) : Fld := ⟨HSH_PORT_EVT.addr n, 3, 1⟩
def HSH_PORT_EVT.L1_ENTER (n : Nat) : Fld := ⟨HSH_PORT_EVT.addr n, 4, 1⟩
def HSH_PORT_EVT.L1_EXIT (n : Nat) : Fld := ⟨HSH_PORT_EVT.addr n, 5, 1⟩
def HSH_PORT_EVT.BABBLE (n : Nat) : Fld := ⟨HSH_PORT_EVT.addr n, 6, 1⟩
def HSH_PORT_EVT.CARRY_LOST (n : Nat) : Fld := ⟨HSH_PORT_EVT.addr n, 7, 1⟩
def HSH_PORT_EVT.LATE_ORDER (n : Nat) : Fld := ⟨HSH_PORT_EVT.addr n, 8, 1⟩
def HSH_PORT_EVT.BC_SWITCH (n : Nat) : Fld := ⟨HSH_PORT_EVT.addr n, 9, 1⟩
/-- `HSH_CARRY[k]` (spec/06_usb2_hub_and_translators.md). -/
def HSH_CARRY.addr (n : Nat) : Nat := if n < 4 then 0x600C0 + 0x4 * n else 0x6FFFC
def HSH_CARRY.SLOT (n : Nat) : Fld := ⟨HSH_CARRY.addr n, 0, 2⟩
def HSH_CARRY.BUS (n : Nat) : Fld := ⟨HSH_CARRY.addr n, 2, 2⟩
def HSH_CARRY.PEN (n : Nat) : Fld := ⟨HSH_CARRY.addr n, 4, 4⟩
def HSH_CARRY.STATE (n : Nat) : Fld := ⟨HSH_CARRY.addr n, 8, 2⟩
def HSH_CARRY.CONFLICT (n : Nat) : Fld := ⟨HSH_CARRY.addr n, 10, 1⟩
def HSH_CARRY.TRANSIT (n : Nat) : Fld := ⟨HSH_CARRY.addr n, 11, 1⟩
def HSH_CARRY.DELAY (n : Nat) : Fld := ⟨HSH_CARRY.addr n, 16, 8⟩
/-- `HSH_EVT` (spec/06_usb2_hub_and_translators.md). -/
def HSH_EVT.addr : Nat := 0x60100
def HSH_EVT.UP_RESET0 : Fld := ⟨HSH_EVT.addr, 0, 1⟩
def HSH_EVT.UP_RESET1 : Fld := ⟨HSH_EVT.addr, 1, 1⟩
def HSH_EVT.CARRY_CONFLICT : Fld := ⟨HSH_EVT.addr, 2, 1⟩
def HSH_EVT.CARRY_SLOW : Fld := ⟨HSH_EVT.addr, 3, 1⟩
def HSH_EVT.FS_UPSTREAM : Fld := ⟨HSH_EVT.addr, 4, 1⟩
def HSH_EVT.COLLISION : Fld := ⟨HSH_EVT.addr, 5, 1⟩
/-- `HSH_ORDERS` (spec/06_usb2_hub_and_translators.md). -/
def HSH_ORDERS.addr : Nat := 0x60104
def HSH_ORDERS.SENT : Fld := ⟨HSH_ORDERS.addr, 0, 16⟩
def HSH_ORDERS.LATE : Fld := ⟨HSH_ORDERS.addr, 16, 16⟩
/-- `HSH_X_TUNE` (spec/06_usb2_hub_and_translators.md). -/
def HSH_X_TUNE.addr : Nat := 0x61000
def HSH_X_TUNE.ORDER_LEAD : Fld := ⟨HSH_X_TUNE.addr, 0, 8⟩
def HSH_X_TUNE.RESET_MS : Fld := ⟨HSH_X_TUNE.addr, 8, 8⟩
def HSH_X_TUNE.WAKE_HOLD_MS : Fld := ⟨HSH_X_TUNE.addr, 16, 8⟩

/-! ## TTA fields -/

/-- `TTA_CTRL` (spec/06_usb2_hub_and_translators.md). -/
def TTA_CTRL.addr : Nat := 0x70000
def TTA_CTRL.ENABLE : Fld := ⟨TTA_CTRL.addr, 0, 1⟩
/-- `TTA_TT[s]` (spec/06_usb2_hub_and_translators.md). -/
def TTA_TT.addr (n : Nat) : Nat := if n < 15 then 0x70010 + 0x4 * n else 0x7FFFC
def TTA_TT.STATE (n : Nat) : Fld := ⟨TTA_TT.addr n, 0, 2⟩
def TTA_TT.SLOT (n : Nat) : Fld := ⟨TTA_TT.addr n, 2, 2⟩
def TTA_TT.PER_USED (n : Nat) : Fld := ⟨TTA_TT.addr n, 4, 6⟩
def TTA_TT.NP_USED (n : Nat) : Fld := ⟨TTA_TT.addr n, 10, 3⟩
def TTA_TT.UFRAME (n : Nat) : Fld := ⟨TTA_TT.addr n, 16, 3⟩
/-- `TTA_EVT[s]` (spec/06_usb2_hub_and_translators.md). -/
def TTA_EVT.addr (n : Nat) : Nat := if n < 15 then 0x70050 + 0x4 * n else 0x7FFFC
def TTA_EVT.PER_DROP (n : Nat) : Fld := ⟨TTA_EVT.addr n, 0, 1⟩
def TTA_EVT.NP_NAK (n : Nat) : Fld := ⟨TTA_EVT.addr n, 1, 1⟩
def TTA_EVT.SOF_FILL (n : Nat) : Fld := ⟨TTA_EVT.addr n, 2, 1⟩
def TTA_EVT.PER_HELD (n : Nat) : Fld := ⟨TTA_EVT.addr n, 3, 1⟩
def TTA_EVT.LATE (n : Nat) : Fld := ⟨TTA_EVT.addr n, 4, 1⟩
def TTA_EVT.CLEARED (n : Nat) : Fld := ⟨TTA_EVT.addr n, 5, 1⟩
def TTA_EVT.RESET (n : Nat) : Fld := ⟨TTA_EVT.addr n, 6, 1⟩
/-- `TTA_COUNT[s]` (spec/06_usb2_hub_and_translators.md). -/
def TTA_COUNT.addr (n : Nat) : Nat := if n < 15 then 0x70090 + 0x4 * n else 0x7FFFC
def TTA_COUNT.PER_DROP (n : Nat) : Fld := ⟨TTA_COUNT.addr n, 0, 16⟩
def TTA_COUNT.SOF_FILL (n : Nat) : Fld := ⟨TTA_COUNT.addr n, 16, 16⟩
/-- `TTA_CMD` (spec/06_usb2_hub_and_translators.md). -/
def TTA_CMD.addr : Nat := 0x700D0
def TTA_CMD.STALL : Fld := ⟨TTA_CMD.addr, 0, 4⟩
def TTA_CMD.OP : Fld := ⟨TTA_CMD.addr, 4, 3⟩
def TTA_CMD.DEV : Fld := ⟨TTA_CMD.addr, 8, 7⟩
def TTA_CMD.EP : Fld := ⟨TTA_CMD.addr, 16, 4⟩
def TTA_CMD.DIR : Fld := ⟨TTA_CMD.addr, 20, 1⟩
def TTA_CMD.TYPE : Fld := ⟨TTA_CMD.addr, 21, 2⟩
def TTA_CMD.BUSY : Fld := ⟨TTA_CMD.addr, 24, 1⟩
def TTA_CMD.DONE : Fld := ⟨TTA_CMD.addr, 25, 1⟩
/-- `TTA_X_TUNE` (spec/06_usb2_hub_and_translators.md). -/
def TTA_X_TUNE.addr : Nat := 0x71000
def TTA_X_TUNE.NOSOF_HOLD : Fld := ⟨TTA_X_TUNE.addr, 0, 3⟩

/-! ## UPP fields -/

/-- `UPP_PADDOCK[u]` (spec/07_paddocks.md). -/
def UPP_PADDOCK.addr (n : Nat) : Nat := if n < 2 then 0x80000 + 0x4 * n else 0x8FFFC
def UPP_PADDOCK.SLOT (n : Nat) : Fld := ⟨UPP_PADDOCK.addr n, 0, 2⟩
def UPP_PADDOCK.BOUND (n : Nat) : Fld := ⟨UPP_PADDOCK.addr n, 2, 1⟩
def UPP_PADDOCK.STATE (n : Nat) : Fld := ⟨UPP_PADDOCK.addr n, 4, 3⟩
def UPP_PADDOCK.ROOT_PORTS (n : Nat) : Fld := ⟨UPP_PADDOCK.addr n, 8, 4⟩
def UPP_PADDOCK.PENS (n : Nat) : Fld := ⟨UPP_PADDOCK.addr n, 12, 4⟩
def UPP_PADDOCK.TACK_PORT (n : Nat) : Fld := ⟨UPP_PADDOCK.addr n, 16, 4⟩
/-- `UPP_MIR_SEL` (spec/07_paddocks.md). -/
def UPP_MIR_SEL.addr : Nat := 0x80010
def UPP_MIR_SEL.SLOT : Fld := ⟨UPP_MIR_SEL.addr, 0, 2⟩
def UPP_MIR_SEL.HUB : Fld := ⟨UPP_MIR_SEL.addr, 4, 4⟩
def UPP_MIR_SEL.PORT : Fld := ⟨UPP_MIR_SEL.addr, 8, 4⟩
/-- `UPP_MIR_HS` (spec/07_paddocks.md). -/
def UPP_MIR_HS.addr : Nat := 0x80014
def UPP_MIR_HS.STATUS : Fld := ⟨UPP_MIR_HS.addr, 0, 16⟩
def UPP_MIR_HS.CHANGE : Fld := ⟨UPP_MIR_HS.addr, 16, 16⟩
/-- `UPP_MIR_SS` (spec/07_paddocks.md). -/
def UPP_MIR_SS.addr : Nat := 0x80018
def UPP_MIR_SS.STATUS : Fld := ⟨UPP_MIR_SS.addr, 0, 16⟩
def UPP_MIR_SS.CHANGE : Fld := ⟨UPP_MIR_SS.addr, 16, 16⟩
/-- `UPP_MIR_INFO` (spec/07_paddocks.md). -/
def UPP_MIR_INFO.addr : Nat := 0x8001C
def UPP_MIR_INFO.REF : Fld := ⟨UPP_MIR_INFO.addr, 0, 8⟩
def UPP_MIR_INFO.KIND : Fld := ⟨UPP_MIR_INFO.addr, 8, 2⟩
def UPP_MIR_INFO.LOCAL : Fld := ⟨UPP_MIR_INFO.addr, 10, 1⟩
def UPP_MIR_INFO.REACHABLE : Fld := ⟨UPP_MIR_INFO.addr, 11, 1⟩
def UPP_MIR_INFO.HELD : Fld := ⟨UPP_MIR_INFO.addr, 12, 1⟩
def UPP_MIR_INFO.SEQ : Fld := ⟨UPP_MIR_INFO.addr, 16, 16⟩
/-- `UPP_HANDOFF` (spec/07_paddocks.md). -/
def UPP_HANDOFF.addr : Nat := 0x80020
def UPP_HANDOFF.STALL : Fld := ⟨UPP_HANDOFF.addr, 0, 8⟩
def UPP_HANDOFF.FROM : Fld := ⟨UPP_HANDOFF.addr, 8, 2⟩
def UPP_HANDOFF.TO : Fld := ⟨UPP_HANDOFF.addr, 10, 2⟩
def UPP_HANDOFF.STEP : Fld := ⟨UPP_HANDOFF.addr, 12, 3⟩
def UPP_HANDOFF.ELAPSED : Fld := ⟨UPP_HANDOFF.addr, 16, 16⟩
/-- `UPP_EVT` (spec/07_paddocks.md). -/
def UPP_EVT.addr : Nat := 0x80024
def UPP_EVT.MIRROR_RESYNC : Fld := ⟨UPP_EVT.addr, 0, 1⟩
def UPP_EVT.HANDOFF_DONE : Fld := ⟨UPP_EVT.addr, 1, 1⟩
def UPP_EVT.KVM_IGNORED : Fld := ⟨UPP_EVT.addr, 2, 1⟩
def UPP_EVT.UNREACHABLE : Fld := ⟨UPP_EVT.addr, 3, 1⟩
/-- `UPP_X_HANDOFF` (spec/07_paddocks.md). -/
def UPP_X_HANDOFF.addr : Nat := 0x81000
def UPP_X_HANDOFF.QUIET_MS : Fld := ⟨UPP_X_HANDOFF.addr, 0, 8⟩

/-! ## GLK fields -/

/-- `GLK_CTRL` (spec/08_ghelys_fabric.md). -/
def GLK_CTRL.addr : Nat := 0xA0000
def GLK_CTRL.ENABLE : Fld := ⟨GLK_CTRL.addr, 0, 1⟩
def GLK_CTRL.SLEEP_EN : Fld := ⟨GLK_CTRL.addr, 1, 1⟩
def GLK_CTRL.RETRAIN : Fld := ⟨GLK_CTRL.addr, 4, 4⟩
/-- `GLK_LINK[k]` (spec/08_ghelys_fabric.md). -/
def GLK_LINK.addr (n : Nat) : Nat := if n < 4 then 0xA0010 + 0x10 * n else 0xAFFFC
def GLK_LINK.STATE (n : Nat) : Fld := ⟨GLK_LINK.addr n, 0, 3⟩
def GLK_LINK.IDLE (n : Nat) : Fld := ⟨GLK_LINK.addr n, 3, 1⟩
def GLK_LINK.LANES (n : Nat) : Fld := ⟨GLK_LINK.addr n, 4, 2⟩
def GLK_LINK.PEER_MEMBER (n : Nat) : Fld := ⟨GLK_LINK.addr n, 8, 3⟩
def GLK_LINK.PEER_LINK (n : Nat) : Fld := ⟨GLK_LINK.addr n, 12, 2⟩
def GLK_LINK.ISO_CAUSE (n : Nat) : Fld := ⟨GLK_LINK.addr n, 16, 3⟩
def GLK_LINK.ATTEMPTS (n : Nat) : Fld := ⟨GLK_LINK.addr n, 24, 8⟩
/-- `GLK_DELAY[k]` (spec/08_ghelys_fabric.md). -/
def GLK_DELAY.addr (n : Nat) : Nat := if n < 4 then 0xA0014 + 0x10 * n else 0xAFFFC
def GLK_DELAY.DELAY (n : Nat) : Fld := ⟨GLK_DELAY.addr n, 0, 16⟩
/-- `GLK_ERR[k]` (spec/08_ghelys_fabric.md). -/
def GLK_ERR.addr (n : Nat) : Nat := if n < 4 then 0xA0018 + 0x10 * n else 0xAFFFC
def GLK_ERR.CRC (n : Nat) : Fld := ⟨GLK_ERR.addr n, 0, 16⟩
def GLK_ERR.REPLAY (n : Nat) : Fld := ⟨GLK_ERR.addr n, 16, 8⟩
def GLK_ERR.FAILS (n : Nat) : Fld := ⟨GLK_ERR.addr n, 24, 8⟩
/-- `GLK_EVT[k]` (spec/08_ghelys_fabric.md). -/
def GLK_EVT.addr (n : Nat) : Nat := if n < 4 then 0xA001C + 0x10 * n else 0xAFFFC
def GLK_EVT.UP (n : Nat) : Fld := ⟨GLK_EVT.addr n, 0, 1⟩
def GLK_EVT.DOWN (n : Nat) : Fld := ⟨GLK_EVT.addr n, 1, 1⟩
def GLK_EVT.ISOLATED (n : Nat) : Fld := ⟨GLK_EVT.addr n, 2, 1⟩
def GLK_EVT.SINGLE_LANE (n : Nat) : Fld := ⟨GLK_EVT.addr n, 3, 1⟩
def GLK_EVT.HB_MISS (n : Nat) : Fld := ⟨GLK_EVT.addr n, 4, 1⟩
def GLK_EVT.BELL_RX (n : Nat) : Fld := ⟨GLK_EVT.addr n, 5, 1⟩
def GLK_EVT.BELL_FAIL (n : Nat) : Fld := ⟨GLK_EVT.addr n, 6, 1⟩
/-- `GLK_HB[k]` (spec/08_ghelys_fabric.md). -/
def GLK_HB.addr (n : Nat) : Nat := if n < 4 then 0xA0050 + 0x4 * n else 0xAFFFC
def GLK_HB.PERIOD (n : Nat) : Fld := ⟨GLK_HB.addr n, 0, 24⟩
def GLK_HB.MISSED (n : Nat) : Fld := ⟨GLK_HB.addr n, 24, 2⟩
/-- `GLK_WAKE` (spec/08_ghelys_fabric.md). -/
def GLK_WAKE.addr : Nat := 0xA0060
def GLK_WAKE.BELL_SEEN : Fld := ⟨GLK_WAKE.addr, 0, 4⟩
def GLK_WAKE.RING : Fld := ⟨GLK_WAKE.addr, 4, 4⟩
/-- `GLK_X_TUNE` (spec/08_ghelys_fabric.md). -/
def GLK_X_TUNE.addr : Nat := 0xA1000
def GLK_X_TUNE.REPLAY_US : Fld := ⟨GLK_X_TUNE.addr, 0, 4⟩
def GLK_X_TUNE.REPLAY_MAX : Fld := ⟨GLK_X_TUNE.addr, 4, 4⟩
def GLK_X_TUNE.IDLE_US : Fld := ⟨GLK_X_TUNE.addr, 8, 8⟩
def GLK_X_TUNE.SLEEP_MS : Fld := ⟨GLK_X_TUNE.addr, 16, 8⟩

/-! ## DRV fields -/

/-- `DRV_CTRL` (spec/08_ghelys_fabric.md). -/
def DRV_CTRL.addr : Nat := 0xB0000
def DRV_CTRL.ENABLE : Fld := ⟨DRV_CTRL.addr, 0, 1⟩
def DRV_CTRL.REBAL_EN : Fld := ⟨DRV_CTRL.addr, 1, 1⟩
/-- `DRV_BARN` (spec/08_ghelys_fabric.md). -/
def DRV_BARN.addr : Nat := 0xB0004
def DRV_BARN.MEMBER : Fld := ⟨DRV_BARN.addr, 0, 3⟩
def DRV_BARN.NUMBERED : Fld := ⟨DRV_BARN.addr, 3, 1⟩
def DRV_BARN.LEAD : Fld := ⟨DRV_BARN.addr, 4, 3⟩
def DRV_BARN.IS_LEAD : Fld := ⟨DRV_BARN.addr, 7, 1⟩
def DRV_BARN.PRESENT : Fld := ⟨DRV_BARN.addr, 8, 8⟩
def DRV_BARN.FORMED : Fld := ⟨DRV_BARN.addr, 16, 1⟩
def DRV_BARN.STEP : Fld := ⟨DRV_BARN.addr, 17, 3⟩
def DRV_BARN.TABLE_VER : Fld := ⟨DRV_BARN.addr, 24, 8⟩
/-- `DRV_ROUTE[d]` (spec/08_ghelys_fabric.md). -/
def DRV_ROUTE.addr (n : Nat) : Nat := if n < 8 then 0xB0010 + 0x4 * n else 0xBFFFC
def DRV_ROUTE.NEXT (n : Nat) : Fld := ⟨DRV_ROUTE.addr n, 0, 4⟩
def DRV_ROUTE.HOPS (n : Nat) : Fld := ⟨DRV_ROUTE.addr n, 4, 3⟩
def DRV_ROUTE.REACH (n : Nat) : Fld := ⟨DRV_ROUTE.addr n, 7, 1⟩
def DRV_ROUTE.CTRL_LINK (n : Nat) : Fld := ⟨DRV_ROUTE.addr n, 8, 2⟩
/-- `DRV_LOAD[k]` (spec/08_ghelys_fabric.md). -/
def DRV_LOAD.addr (n : Nat) : Nat := if n < 4 then 0xB0040 + 0x4 * n else 0xBFFFC
def DRV_LOAD.BALES (n : Nat) : Fld := ⟨DRV_LOAD.addr n, 0, 24⟩
/-- `DRV_FLOWS` (spec/08_ghelys_fabric.md). -/
def DRV_FLOWS.addr : Nat := 0xB0050
def DRV_FLOWS.USED : Fld := ⟨DRV_FLOWS.addr, 0, 10⟩
def DRV_FLOWS.WAITS : Fld := ⟨DRV_FLOWS.addr, 16, 16⟩
/-- `DRV_REBAL` (spec/08_ghelys_fabric.md). -/
def DRV_REBAL.addr : Nat := 0xB0054
def DRV_REBAL.MOVES : Fld := ⟨DRV_REBAL.addr, 0, 16⟩
def DRV_REBAL.IMBAL : Fld := ⟨DRV_REBAL.addr, 16, 7⟩
/-- `DRV_SEED_LO` (spec/08_ghelys_fabric.md). -/
def DRV_SEED_LO.addr : Nat := 0xB0058
def DRV_SEED_LO.SEED_LO : Fld := ⟨DRV_SEED_LO.addr, 0, 32⟩
/-- `DRV_SEED_HI` (spec/08_ghelys_fabric.md). -/
def DRV_SEED_HI.addr : Nat := 0xB005C
def DRV_SEED_HI.SEED_HI : Fld := ⟨DRV_SEED_HI.addr, 0, 32⟩
/-- `DRV_REROUTE` (spec/08_ghelys_fabric.md). -/
def DRV_REROUTE.addr : Nat := 0xB0060
def DRV_REROUTE.COUNT : Fld := ⟨DRV_REROUTE.addr, 0, 16⟩
def DRV_REROUTE.LAST : Fld := ⟨DRV_REROUTE.addr, 16, 8⟩
def DRV_REROUTE.RESYNCS : Fld := ⟨DRV_REROUTE.addr, 24, 8⟩
/-- `DRV_EVT` (spec/08_ghelys_fabric.md). -/
def DRV_EVT.addr : Nat := 0xB0064
def DRV_EVT.FORMED : Fld := ⟨DRV_EVT.addr, 0, 1⟩
def DRV_EVT.LEAD_CHANGE : Fld := ⟨DRV_EVT.addr, 1, 1⟩
def DRV_EVT.JOIN : Fld := ⟨DRV_EVT.addr, 2, 1⟩
def DRV_EVT.LOST : Fld := ⟨DRV_EVT.addr, 3, 1⟩
def DRV_EVT.REROUTE : Fld := ⟨DRV_EVT.addr, 4, 1⟩
def DRV_EVT.STUCK_IMBALANCE : Fld := ⟨DRV_EVT.addr, 5, 1⟩
def DRV_EVT.RESEED : Fld := ⟨DRV_EVT.addr, 6, 1⟩
def DRV_EVT.TABLE : Fld := ⟨DRV_EVT.addr, 7, 1⟩
/-- `DRV_X_WRR` (spec/08_ghelys_fabric.md). -/
def DRV_X_WRR.addr : Nat := 0xB1000
def DRV_X_WRR.W0 : Fld := ⟨DRV_X_WRR.addr, 0, 4⟩
def DRV_X_WRR.W1 : Fld := ⟨DRV_X_WRR.addr, 4, 4⟩
def DRV_X_WRR.W2 : Fld := ⟨DRV_X_WRR.addr, 8, 4⟩
def DRV_X_WRR.W3 : Fld := ⟨DRV_X_WRR.addr, 12, 4⟩
/-- `DRV_X_REBAL` (spec/08_ghelys_fabric.md). -/
def DRV_X_REBAL.addr : Nat := 0xB1004
def DRV_X_REBAL.THRESH_PCT : Fld := ⟨DRV_X_REBAL.addr, 0, 8⟩
def DRV_X_REBAL.WINDOWS : Fld := ⟨DRV_X_REBAL.addr, 8, 8⟩
def DRV_X_REBAL.IDLE_US : Fld := ⟨DRV_X_REBAL.addr, 16, 8⟩
def DRV_X_REBAL.MAX_MOVES : Fld := ⟨DRV_X_REBAL.addr, 24, 8⟩

/-! ## TCP fields -/

/-- `TCP_CTRL` (spec/09_type_c_pd.md). -/
def TCP_CTRL.addr : Nat := 0xC0000
def TCP_CTRL.ENABLE : Fld := ⟨TCP_CTRL.addr, 0, 1⟩
def TCP_CTRL.PD_EN : Fld := ⟨TCP_CTRL.addr, 1, 1⟩
def TCP_CTRL.TRIM_EN : Fld := ⟨TCP_CTRL.addr, 2, 1⟩
/-- `TCP_PORT[p]` (spec/09_type_c_pd.md). -/
def TCP_PORT.addr (n : Nat) : Nat := if n < 17 then 0xC0040 + 0x4 * n else 0xCFFFC
def TCP_PORT.STATE (n : Nat) : Fld := ⟨TCP_PORT.addr n, 0, 4⟩
def TCP_PORT.ORIENT (n : Nat) : Fld := ⟨TCP_PORT.addr n, 4, 1⟩
def TCP_PORT.RP (n : Nat) : Fld := ⟨TCP_PORT.addr n, 5, 2⟩
def TCP_PORT.VCONN_ON (n : Nat) : Fld := ⟨TCP_PORT.addr n, 7, 1⟩
def TCP_PORT.CONTRACT (n : Nat) : Fld := ⟨TCP_PORT.addr n, 8, 2⟩
def TCP_PORT.PD_REV (n : Nat) : Fld := ⟨TCP_PORT.addr n, 10, 2⟩
def TCP_PORT.HR_COUNT (n : Nat) : Fld := ⟨TCP_PORT.addr n, 12, 2⟩
def TCP_PORT.DATA_ON (n : Nat) : Fld := ⟨TCP_PORT.addr n, 14, 1⟩
/-- `TCP_CONTRACT[p]` (spec/09_type_c_pd.md). -/
def TCP_CONTRACT.addr (n : Nat) : Nat := if n < 17 then 0xC0090 + 0x4 * n else 0xCFFFC
def TCP_CONTRACT.OBJ_POS (n : Nat) : Fld := ⟨TCP_CONTRACT.addr n, 0, 4⟩
def TCP_CONTRACT.KIND (n : Nat) : Fld := ⟨TCP_CONTRACT.addr n, 4, 2⟩
def TCP_CONTRACT.EPR (n : Nat) : Fld := ⟨TCP_CONTRACT.addr n, 6, 1⟩
def TCP_CONTRACT.VOLTAGE (n : Nat) : Fld := ⟨TCP_CONTRACT.addr n, 8, 12⟩
def TCP_CONTRACT.CURRENT (n : Nat) : Fld := ⟨TCP_CONTRACT.addr n, 20, 7⟩
/-- `TCP_VSET[p]` (spec/09_type_c_pd.md). -/
def TCP_VSET.addr (n : Nat) : Nat := if n < 17 then 0xC00E0 + 0x4 * n else 0xCFFFC
def TCP_VSET.TARGET (n : Nat) : Fld := ⟨TCP_VSET.addr n, 0, 14⟩
def TCP_VSET.CODE (n : Nat) : Fld := ⟨TCP_VSET.addr n, 16, 14⟩
def TCP_VSET.SLEWING (n : Nat) : Fld := ⟨TCP_VSET.addr n, 30, 1⟩
def TCP_VSET.FROZEN (n : Nat) : Fld := ⟨TCP_VSET.addr n, 31, 1⟩
/-- `TCP_CABLE[p]` (spec/09_type_c_pd.md). -/
def TCP_CABLE.addr (n : Nat) : Nat := if n < 17 then 0xC0130 + 0x4 * n else 0xCFFFC
def TCP_CABLE.RA (n : Nat) : Fld := ⟨TCP_CABLE.addr n, 0, 1⟩
def TCP_CABLE.DISCOVERED (n : Nat) : Fld := ⟨TCP_CABLE.addr n, 1, 1⟩
def TCP_CABLE.AMP5 (n : Nat) : Fld := ⟨TCP_CABLE.addr n, 2, 1⟩
def TCP_CABLE.MAX_V (n : Nat) : Fld := ⟨TCP_CABLE.addr n, 3, 2⟩
def TCP_CABLE.EPR_OK (n : Nat) : Fld := ⟨TCP_CABLE.addr n, 5, 1⟩
def TCP_CABLE.ATTEMPTS (n : Nat) : Fld := ⟨TCP_CABLE.addr n, 6, 2⟩
/-- `TCP_EVT[p]` (spec/09_type_c_pd.md). -/
def TCP_EVT.addr (n : Nat) : Nat := if n < 17 then 0xC0180 + 0x4 * n else 0xCFFFC
def TCP_EVT.ATTACH (n : Nat) : Fld := ⟨TCP_EVT.addr n, 0, 1⟩
def TCP_EVT.DETACH (n : Nat) : Fld := ⟨TCP_EVT.addr n, 1, 1⟩
def TCP_EVT.CONTRACT (n : Nat) : Fld := ⟨TCP_EVT.addr n, 2, 1⟩
def TCP_EVT.HR_RX (n : Nat) : Fld := ⟨TCP_EVT.addr n, 3, 1⟩
def TCP_EVT.HR_TX (n : Nat) : Fld := ⟨TCP_EVT.addr n, 4, 1⟩
def TCP_EVT.SOFT_RESET (n : Nat) : Fld := ⟨TCP_EVT.addr n, 5, 1⟩
def TCP_EVT.VCONN_SWAP (n : Nat) : Fld := ⟨TCP_EVT.addr n, 6, 1⟩
def TCP_EVT.KA_TIMEOUT (n : Nat) : Fld := ⟨TCP_EVT.addr n, 7, 1⟩
def TCP_EVT.NOT_READY (n : Nat) : Fld := ⟨TCP_EVT.addr n, 8, 1⟩
def TCP_EVT.FAST_DETACH (n : Nat) : Fld := ⟨TCP_EVT.addr n, 9, 1⟩
def TCP_EVT.CC_OV (n : Nat) : Fld := ⟨TCP_EVT.addr n, 10, 1⟩
def TCP_EVT.VCONN_OC (n : Nat) : Fld := ⟨TCP_EVT.addr n, 11, 1⟩
def TCP_EVT.ACC_SEEN (n : Nat) : Fld := ⟨TCP_EVT.addr n, 12, 1⟩
/-- `TCP_DP[u]` (spec/09_type_c_pd.md). -/
def TCP_DP.addr (n : Nat) : Nat := if n < 2 then 0xC01D0 + 0x4 * n else 0xCFFFC
def TCP_DP.STATE (n : Nat) : Fld := ⟨TCP_DP.addr n, 0, 2⟩
def TCP_DP.PINS (n : Nat) : Fld := ⟨TCP_DP.addr n, 2, 2⟩
def TCP_DP.MUX (n : Nat) : Fld := ⟨TCP_DP.addr n, 4, 3⟩
def TCP_DP.HPD (n : Nat) : Fld := ⟨TCP_DP.addr n, 7, 1⟩
def TCP_DP.BILLBOARD (n : Nat) : Fld := ⟨TCP_DP.addr n, 8, 1⟩
/-- `TCP_X_TIMER` (spec/09_type_c_pd.md). -/
def TCP_X_TIMER.addr : Nat := 0xC1000
def TCP_X_TIMER.CC_DEB_MS : Fld := ⟨TCP_X_TIMER.addr, 0, 8⟩
def TCP_X_TIMER.SLEW : Fld := ⟨TCP_X_TIMER.addr, 8, 8⟩
def TCP_X_TIMER.PPS_TO_S : Fld := ⟨TCP_X_TIMER.addr, 16, 4⟩
def TCP_X_TIMER.EPR_KA_10MS : Fld := ⟨TCP_X_TIMER.addr, 24, 8⟩

/-! ## PPW fields -/

/-- `PPW_CTRL` (spec/10_power_path.md). -/
def PPW_CTRL.addr : Nat := 0xD0000
def PPW_CTRL.ENABLE : Fld := ⟨PPW_CTRL.addr, 0, 1⟩
/-- `PPW_PG` (spec/10_power_path.md). -/
def PPW_PG.addr : Nat := 0xD0004
def PPW_PG.PG_OUT : Fld := ⟨PPW_PG.addr, 0, 4⟩
/-- `PPW_SEAT` (spec/10_power_path.md). -/
def PPW_SEAT.addr : Nat := 0xD0008
def PPW_SEAT.RAW : Fld := ⟨PPW_SEAT.addr, 0, 8⟩
def PPW_SEAT.SEATED : Fld := ⟨PPW_SEAT.addr, 8, 8⟩
/-- `PPW_CLEAR` (spec/10_power_path.md). -/
def PPW_CLEAR.addr : Nat := 0xD000C
def PPW_CLEAR.CLEAR : Fld := ⟨PPW_CLEAR.addr, 0, 17⟩
/-- `PPW_RAMP[n]` (spec/10_power_path.md). -/
def PPW_RAMP.addr (n : Nat) : Nat := if n < 17 then 0xD0040 + 0x20 * n else 0xDFFFC
def PPW_RAMP.RAMP (n : Nat) : Fld := ⟨PPW_RAMP.addr n, 0, 7⟩
def PPW_RAMP.GATE_STUCK (n : Nat) : Fld := ⟨PPW_RAMP.addr n, 8, 5⟩
def PPW_RAMP.SEAT_DEB (n : Nat) : Fld := ⟨PPW_RAMP.addr n, 16, 9⟩
/-- `PPW_LIMIT[n]` (spec/10_power_path.md). -/
def PPW_LIMIT.addr (n : Nat) : Nat := if n < 17 then 0xD0044 + 0x20 * n else 0xDFFFC
def PPW_LIMIT.ILIM (n : Nat) : Fld := ⟨PPW_LIMIT.addr n, 0, 13⟩
def PPW_LIMIT.EFFECTIVE (n : Nat) : Fld := ⟨PPW_LIMIT.addr n, 16, 13⟩
/-- `PPW_TRIP[n]` (spec/10_power_path.md). -/
def PPW_TRIP.addr (n : Nat) : Nat := if n < 17 then 0xD0048 + 0x20 * n else 0xDFFFC
def PPW_TRIP.FAST (n : Nat) : Fld := ⟨PPW_TRIP.addr n, 0, 14⟩
def PPW_TRIP.SLOW (n : Nat) : Fld := ⟨PPW_TRIP.addr n, 16, 10⟩
/-- `PPW_RETRY[n]` (spec/10_power_path.md). -/
def PPW_RETRY.addr (n : Nat) : Nat := if n < 17 then 0xD004C + 0x20 * n else 0xDFFFC
def PPW_RETRY.RETRY (n : Nat) : Fld := ⟨PPW_RETRY.addr n, 0, 7⟩
def PPW_RETRY.RETRIES (n : Nat) : Fld := ⟨PPW_RETRY.addr n, 8, 8⟩
def PPW_RETRY.COUNT (n : Nat) : Fld := ⟨PPW_RETRY.addr n, 16, 5⟩
def PPW_RETRY.WAIT (n : Nat) : Fld := ⟨PPW_RETRY.addr n, 21, 11⟩
/-- `PPW_STATUS[n]` (spec/10_power_path.md). -/
def PPW_STATUS.addr (n : Nat) : Nat := if n < 17 then 0xD0050 + 0x20 * n else 0xDFFFC
def PPW_STATUS.STATE (n : Nat) : Fld := ⟨PPW_STATUS.addr n, 0, 4⟩
def PPW_STATUS.PG (n : Nat) : Fld := ⟨PPW_STATUS.addr n, 4, 1⟩
def PPW_STATUS.TIMER (n : Nat) : Fld := ⟨PPW_STATUS.addr n, 5, 1⟩
def PPW_STATUS.SEATED (n : Nat) : Fld := ⟨PPW_STATUS.addr n, 6, 1⟩
def PPW_STATUS.DISCH (n : Nat) : Fld := ⟨PPW_STATUS.addr n, 7, 1⟩
def PPW_STATUS.REDUCED (n : Nat) : Fld := ⟨PPW_STATUS.addr n, 8, 1⟩
def PPW_STATUS.SINK (n : Nat) : Fld := ⟨PPW_STATUS.addr n, 9, 1⟩
def PPW_STATUS.GATE_OK (n : Nat) : Fld := ⟨PPW_STATUS.addr n, 10, 1⟩
/-- `PPW_EVT[n]` (spec/10_power_path.md). -/
def PPW_EVT.addr (n : Nat) : Nat := if n < 17 then 0xD0054 + 0x20 * n else 0xDFFFC
def PPW_EVT.FAST (n : Nat) : Fld := ⟨PPW_EVT.addr n, 0, 1⟩
def PPW_EVT.SLOW (n : Nat) : Fld := ⟨PPW_EVT.addr n, 1, 1⟩
def PPW_EVT.UV (n : Nat) : Fld := ⟨PPW_EVT.addr n, 2, 1⟩
def PPW_EVT.RAMP_FAIL (n : Nat) : Fld := ⟨PPW_EVT.addr n, 3, 1⟩
def PPW_EVT.GATE_STUCK (n : Nat) : Fld := ⟨PPW_EVT.addr n, 4, 1⟩
def PPW_EVT.FET_SHORT (n : Nat) : Fld := ⟨PPW_EVT.addr n, 5, 1⟩
def PPW_EVT.SEAT_OUT (n : Nat) : Fld := ⟨PPW_EVT.addr n, 6, 1⟩
def PPW_EVT.LATCHED (n : Nat) : Fld := ⟨PPW_EVT.addr n, 7, 1⟩
def PPW_EVT.PG_WITHHELD (n : Nat) : Fld := ⟨PPW_EVT.addr n, 8, 1⟩
def PPW_EVT.RETRY_OK (n : Nat) : Fld := ⟨PPW_EVT.addr n, 9, 1⟩
def PPW_EVT.SHED (n : Nat) : Fld := ⟨PPW_EVT.addr n, 10, 1⟩
/-- `PPW_X_GATE` (spec/10_power_path.md). -/
def PPW_X_GATE.addr : Nat := 0xD1000
def PPW_X_GATE.UV_PCT : Fld := ⟨PPW_X_GATE.addr, 0, 7⟩
def PPW_X_GATE.UV_TIME : Fld := ⟨PPW_X_GATE.addr, 8, 7⟩
def PPW_X_GATE.PG_HOLD_MS : Fld := ⟨PPW_X_GATE.addr, 16, 4⟩

/-! ## TLM fields -/

/-- `TLM_CTRL` (spec/10_power_path.md). -/
def TLM_CTRL.addr : Nat := 0xE0000
def TLM_CTRL.ENABLE : Fld := ⟨TLM_CTRL.addr, 0, 1⟩
def TLM_CTRL.FAULT_A : Fld := ⟨TLM_CTRL.addr, 1, 1⟩
def TLM_CTRL.FAULT_B : Fld := ⟨TLM_CTRL.addr, 2, 1⟩
/-- `TLM_ECLR` (spec/10_power_path.md). -/
def TLM_ECLR.addr : Nat := 0xE0004
def TLM_ECLR.CLEAR : Fld := ⟨TLM_ECLR.addr, 0, 17⟩
/-- `TLM_INPUT` (spec/10_power_path.md). -/
def TLM_INPUT.addr : Nat := 0xE0008
def TLM_INPUT.VIN : Fld := ⟨TLM_INPUT.addr, 0, 16⟩
def TLM_INPUT.IIN : Fld := ⟨TLM_INPUT.addr, 16, 16⟩
/-- `TLM_TEMP` (spec/10_power_path.md). -/
def TLM_TEMP.addr : Nat := 0xE000C
def TLM_TEMP.T0 : Fld := ⟨TLM_TEMP.addr, 0, 8⟩
def TLM_TEMP.T1 : Fld := ⟨TLM_TEMP.addr, 8, 8⟩
def TLM_TEMP.T2 : Fld := ⟨TLM_TEMP.addr, 16, 8⟩
def TLM_TEMP.T3 : Fld := ⟨TLM_TEMP.addr, 24, 8⟩
/-- `TLM_INWARN` (spec/10_power_path.md). -/
def TLM_INWARN.addr : Nat := 0xE0010
def TLM_INWARN.PWRWARN : Fld := ⟨TLM_INWARN.addr, 0, 1⟩
def TLM_INWARN.VIN_LOW : Fld := ⟨TLM_INWARN.addr, 1, 1⟩
def TLM_INWARN.IIN_HIGH : Fld := ⟨TLM_INWARN.addr, 2, 1⟩
def TLM_INWARN.AC_FAIL : Fld := ⟨TLM_INWARN.addr, 3, 1⟩
def TLM_INWARN.VIN_UV : Fld := ⟨TLM_INWARN.addr, 4, 1⟩
/-- `TLM_INST[n]` (spec/10_power_path.md). -/
def TLM_INST.addr (n : Nat) : Nat := if n < 17 then 0xE0040 + 0x20 * n else 0xEFFFC
def TLM_INST.V (n : Nat) : Fld := ⟨TLM_INST.addr n, 0, 16⟩
def TLM_INST.I (n : Nat) : Fld := ⟨TLM_INST.addr n, 16, 16⟩
/-- `TLM_AVG1MS[n]` (spec/10_power_path.md). -/
def TLM_AVG1MS.addr (n : Nat) : Nat := if n < 17 then 0xE0044 + 0x20 * n else 0xEFFFC
def TLM_AVG1MS.V (n : Nat) : Fld := ⟨TLM_AVG1MS.addr n, 0, 16⟩
def TLM_AVG1MS.I (n : Nat) : Fld := ⟨TLM_AVG1MS.addr n, 16, 16⟩
/-- `TLM_AVG100MS[n]` (spec/10_power_path.md). -/
def TLM_AVG100MS.addr (n : Nat) : Nat := if n < 17 then 0xE0048 + 0x20 * n else 0xEFFFC
def TLM_AVG100MS.V (n : Nat) : Fld := ⟨TLM_AVG100MS.addr n, 0, 16⟩
def TLM_AVG100MS.I (n : Nat) : Fld := ⟨TLM_AVG100MS.addr n, 16, 16⟩
/-- `TLM_AVG1S[n]` (spec/10_power_path.md). -/
def TLM_AVG1S.addr (n : Nat) : Nat := if n < 17 then 0xE004C + 0x20 * n else 0xEFFFC
def TLM_AVG1S.V (n : Nat) : Fld := ⟨TLM_AVG1S.addr n, 0, 16⟩
def TLM_AVG1S.I (n : Nat) : Fld := ⟨TLM_AVG1S.addr n, 16, 16⟩
/-- `TLM_PWR[n]` (spec/10_power_path.md). -/
def TLM_PWR.addr (n : Nat) : Nat := if n < 17 then 0xE0050 + 0x20 * n else 0xEFFFC
def TLM_PWR.P_1MS (n : Nat) : Fld := ⟨TLM_PWR.addr n, 0, 16⟩
def TLM_PWR.P_1S (n : Nat) : Fld := ⟨TLM_PWR.addr n, 16, 16⟩
/-- `TLM_ENERGY_LO[n]` (spec/10_power_path.md). -/
def TLM_ENERGY_LO.addr (n : Nat) : Nat := if n < 17 then 0xE0054 + 0x20 * n else 0xEFFFC
def TLM_ENERGY_LO.E_LO (n : Nat) : Fld := ⟨TLM_ENERGY_LO.addr n, 0, 32⟩
/-- `TLM_ENERGY_HI[n]` (spec/10_power_path.md). -/
def TLM_ENERGY_HI.addr (n : Nat) : Nat := if n < 17 then 0xE0058 + 0x20 * n else 0xEFFFC
def TLM_ENERGY_HI.E_HI (n : Nat) : Fld := ⟨TLM_ENERGY_HI.addr n, 0, 32⟩
/-- `TLM_PEAK[n]` (spec/10_power_path.md). -/
def TLM_PEAK.addr (n : Nat) : Nat := if n < 17 then 0xE005C + 0x20 * n else 0xEFFFC
def TLM_PEAK.I_PEAK (n : Nat) : Fld := ⟨TLM_PEAK.addr n, 0, 16⟩
def TLM_PEAK.REVERSE (n : Nat) : Fld := ⟨TLM_PEAK.addr n, 16, 1⟩

/-! ## BUD fields -/

/-- `BUD_CTRL` (spec/10_power_path.md). -/
def BUD_CTRL.addr : Nat := 0xF0000
def BUD_CTRL.ENABLE : Fld := ⟨BUD_CTRL.addr, 0, 1⟩
/-- `BUD_STATUS` (spec/10_power_path.md). -/
def BUD_STATUS.addr : Nat := 0xF0004
def BUD_STATUS.SUM : Fld := ⟨BUD_STATUS.addr, 0, 16⟩
def BUD_STATUS.BUDGET : Fld := ⟨BUD_STATUS.addr, 16, 16⟩
/-- `BUD_STATE` (spec/10_power_path.md). -/
def BUD_STATE.addr : Nat := 0xF0008
def BUD_STATE.OVER : Fld := ⟨BUD_STATE.addr, 0, 1⟩
def BUD_STATE.REDUCING : Fld := ⟨BUD_STATE.addr, 1, 1⟩
def BUD_STATE.SHEDDING : Fld := ⟨BUD_STATE.addr, 2, 1⟩
def BUD_STATE.WARN : Fld := ⟨BUD_STATE.addr, 3, 1⟩
/-- `BUD_EVT` (spec/10_power_path.md). -/
def BUD_EVT.addr : Nat := 0xF000C
def BUD_EVT.REDUCE : Fld := ⟨BUD_EVT.addr, 0, 1⟩
def BUD_EVT.SHED : Fld := ⟨BUD_EVT.addr, 1, 1⟩
def BUD_EVT.LIFT : Fld := ⟨BUD_EVT.addr, 2, 1⟩
def BUD_EVT.WARN : Fld := ⟨BUD_EVT.addr, 3, 1⟩
/-- `BUD_PORT[n]` (spec/10_power_path.md). -/
def BUD_PORT.addr (n : Nat) : Nat := if n < 17 then 0xF0040 + 0x4 * n else 0xFFFFC
def BUD_PORT.ACCOUNTED (n : Nat) : Fld := ⟨BUD_PORT.addr n, 0, 16⟩
def BUD_PORT.FIRST_USE (n : Nat) : Fld := ⟨BUD_PORT.addr n, 16, 1⟩
def BUD_PORT.REDUCED (n : Nat) : Fld := ⟨BUD_PORT.addr n, 17, 1⟩
def BUD_PORT.SHED (n : Nat) : Fld := ⟨BUD_PORT.addr n, 18, 1⟩
def BUD_PORT.PRIORITY (n : Nat) : Fld := ⟨BUD_PORT.addr n, 20, 3⟩
/-- `BUD_RLIM[n]` (spec/10_power_path.md). -/
def BUD_RLIM.addr (n : Nat) : Nat := if n < 17 then 0xF0090 + 0x4 * n else 0xFFFFC
def BUD_RLIM.RLIM (n : Nat) : Fld := ⟨BUD_RLIM.addr n, 0, 13⟩
/-- `BUD_X_CTRL` (spec/10_power_path.md). -/
def BUD_X_CTRL.addr : Nat := 0xF1000
def BUD_X_CTRL.TARGET_PCT : Fld := ⟨BUD_X_CTRL.addr, 0, 7⟩
def BUD_X_CTRL.LIFT_PCT : Fld := ⟨BUD_X_CTRL.addr, 8, 7⟩
def BUD_X_CTRL.GRACE : Fld := ⟨BUD_X_CTRL.addr, 16, 7⟩
def BUD_X_CTRL.FLOOR : Fld := ⟨BUD_X_CTRL.addr, 24, 4⟩
/-- `BUD_X_WARN` (spec/10_power_path.md). -/
def BUD_X_WARN.addr : Nat := 0xF1004
def BUD_X_WARN.WARN_PCT : Fld := ⟨BUD_X_WARN.addr, 0, 7⟩

/-! ## PDC fields -/

/-- `PDC_CTRL` (spec/11_power_domains.md). -/
def PDC_CTRL.addr : Nat := 0x100000
def PDC_CTRL.AUTO_WAKE : Fld := ⟨PDC_CTRL.addr, 0, 16⟩
def PDC_CTRL.ENABLE : Fld := ⟨PDC_CTRL.addr, 16, 1⟩
/-- `PDC_STATE` (spec/11_power_domains.md). -/
def PDC_STATE.addr : Nat := 0x100004
def PDC_STATE.STATE : Fld := ⟨PDC_STATE.addr, 0, 24⟩
/-- `PDC_STICKY` (spec/11_power_domains.md). -/
def PDC_STICKY.addr : Nat := 0x100008
def PDC_STICKY.SLEEP_ACCESS : Fld := ⟨PDC_STICKY.addr, 0, 1⟩
def PDC_STICKY.SLOW_WAKE : Fld := ⟨PDC_STICKY.addr, 1, 1⟩
def PDC_STICKY.WAKE_FAIL : Fld := ⟨PDC_STICKY.addr, 2, 1⟩
def PDC_STICKY.OFF_FAIL : Fld := ⟨PDC_STICKY.addr, 3, 1⟩
def PDC_STICKY.RESTORE_ERR : Fld := ⟨PDC_STICKY.addr, 4, 1⟩
def PDC_STICKY.SLEEP_DOM : Fld := ⟨PDC_STICKY.addr, 16, 12⟩
/-- `PDC_XTAL` (spec/11_power_domains.md). -/
def PDC_XTAL.addr : Nat := 0x10000C
def PDC_XTAL.RUNNING : Fld := ⟨PDC_XTAL.addr, 0, 1⟩
def PDC_XTAL.STOP_EN : Fld := ⟨PDC_XTAL.addr, 1, 1⟩
def PDC_XTAL.IDLE_MS : Fld := ⟨PDC_XTAL.addr, 8, 8⟩
def PDC_XTAL.LEAD_MS : Fld := ⟨PDC_XTAL.addr, 16, 4⟩
def PDC_XTAL.STOPS : Fld := ⟨PDC_XTAL.addr, 24, 8⟩
/-- `PDC_DOM[d]` (spec/11_power_domains.md). -/
def PDC_DOM.addr (n : Nat) : Nat := if n < 12 then 0x100040 + 0x4 * n else 0x10FFFC
def PDC_DOM.STATE (n : Nat) : Fld := ⟨PDC_DOM.addr n, 0, 2⟩
def PDC_DOM.PHASE (n : Nat) : Fld := ⟨PDC_DOM.addr n, 2, 3⟩
def PDC_DOM.FLOOR (n : Nat) : Fld := ⟨PDC_DOM.addr n, 5, 2⟩
def PDC_DOM.TARGET (n : Nat) : Fld := ⟨PDC_DOM.addr n, 7, 2⟩
def PDC_DOM.TRIES (n : Nat) : Fld := ⟨PDC_DOM.addr n, 9, 3⟩
def PDC_DOM.CAUSE (n : Nat) : Fld := ⟨PDC_DOM.addr n, 12, 4⟩
def PDC_DOM.WAKES (n : Nat) : Fld := ⟨PDC_DOM.addr n, 16, 16⟩
/-- `PDC_VOTE[d]` (spec/11_power_domains.md). -/
def PDC_VOTE.addr (n : Nat) : Nat := if n < 12 then 0x100080 + 0x4 * n else 0x10FFFC
def PDC_VOTE.VOTES (n : Nat) : Fld := ⟨PDC_VOTE.addr n, 0, 32⟩
/-- `PDC_MYVOTE[d]` (spec/11_power_domains.md). -/
def PDC_MYVOTE.addr (n : Nat) : Nat := if n < 12 then 0x1000C0 + 0x4 * n else 0x10FFFC
def PDC_MYVOTE.VOTE (n : Nat) : Fld := ⟨PDC_MYVOTE.addr n, 0, 2⟩
/-- `PDC_CFG[d]` (spec/11_power_domains.md). -/
def PDC_CFG.addr (n : Nat) : Nat := if n < 12 then 0x100100 + 0x8 * n else 0x10FFFC
def PDC_CFG.ALLOW_RET (n : Nat) : Fld := ⟨PDC_CFG.addr n, 0, 1⟩
def PDC_CFG.ALLOW_OFF (n : Nat) : Fld := ⟨PDC_CFG.addr n, 1, 1⟩
def PDC_CFG.PREDICT (n : Nat) : Fld := ⟨PDC_CFG.addr n, 2, 1⟩
def PDC_CFG.QUIET_MS (n : Nat) : Fld := ⟨PDC_CFG.addr n, 8, 8⟩
def PDC_CFG.OFF_MS (n : Nat) : Fld := ⟨PDC_CFG.addr n, 16, 14⟩
/-- `PDC_RETUS[d]` (spec/11_power_domains.md). -/
def PDC_RETUS.addr (n : Nat) : Nat := if n < 12 then 0x100104 + 0x8 * n else 0x10FFFC
def PDC_RETUS.RET_US (n : Nat) : Fld := ⟨PDC_RETUS.addr n, 0, 16⟩
/-- `PDC_X_TIME` (spec/11_power_domains.md). -/
def PDC_X_TIME.addr : Nat := 0x101000
def PDC_X_TIME.SW_ACK_US : Fld := ⟨PDC_X_TIME.addr, 0, 8⟩
def PDC_X_TIME.PLL_10US : Fld := ⟨PDC_X_TIME.addr, 8, 8⟩
def PDC_X_TIME.XTAL_MS : Fld := ⟨PDC_X_TIME.addr, 16, 4⟩
def PDC_X_TIME.RETRIES : Fld := ⟨PDC_X_TIME.addr, 20, 2⟩
def PDC_X_TIME.AUTO_HOLD_MS : Fld := ⟨PDC_X_TIME.addr, 24, 4⟩

/-! ## MBX fields -/

/-- `MBX_IN_W[c][w]` (spec/12_mailboxes_locks.md). -/
def MBX_IN_W.addr (c w : Nat) : Nat := if c < 12 ∧ w < 16 then 0x110000 + 0x80 * c + 4 * w else 0x11FFFC
def MBX_IN_W.WORD (c w : Nat) : Fld := ⟨MBX_IN_W.addr c w, 0, 32⟩
/-- `MBX_OUT_W[c][w]` (spec/12_mailboxes_locks.md). -/
def MBX_OUT_W.addr (c w : Nat) : Nat := if c < 12 ∧ w < 16 then 0x110040 + 0x80 * c + 4 * w else 0x11FFFC
def MBX_OUT_W.WORD (c w : Nat) : Fld := ⟨MBX_OUT_W.addr c w, 0, 32⟩
/-- `MBX_IN_CTRL[c]` (spec/12_mailboxes_locks.md). -/
def MBX_IN_CTRL.addr (n : Nat) : Nat := if n < 12 then 0x110600 + 0x10 * n else 0x11FFFC
def MBX_IN_CTRL.GO (n : Nat) : Fld := ⟨MBX_IN_CTRL.addr n, 0, 1⟩
def MBX_IN_CTRL.COUNT (n : Nat) : Fld := ⟨MBX_IN_CTRL.addr n, 1, 5⟩
def MBX_IN_CTRL.REPLY (n : Nat) : Fld := ⟨MBX_IN_CTRL.addr n, 6, 1⟩
def MBX_IN_CTRL.SEQ (n : Nat) : Fld := ⟨MBX_IN_CTRL.addr n, 8, 4⟩
def MBX_IN_CTRL.PARTY (n : Nat) : Fld := ⟨MBX_IN_CTRL.addr n, 16, 4⟩
def MBX_IN_CTRL.MEMBER (n : Nat) : Fld := ⟨MBX_IN_CTRL.addr n, 24, 3⟩
/-- `MBX_OUT_CTRL[c]` (spec/12_mailboxes_locks.md). -/
def MBX_OUT_CTRL.addr (n : Nat) : Nat := if n < 12 then 0x110604 + 0x10 * n else 0x11FFFC
def MBX_OUT_CTRL.GO (n : Nat) : Fld := ⟨MBX_OUT_CTRL.addr n, 0, 1⟩
def MBX_OUT_CTRL.COUNT (n : Nat) : Fld := ⟨MBX_OUT_CTRL.addr n, 1, 5⟩
def MBX_OUT_CTRL.REPLY (n : Nat) : Fld := ⟨MBX_OUT_CTRL.addr n, 6, 1⟩
def MBX_OUT_CTRL.SEQ (n : Nat) : Fld := ⟨MBX_OUT_CTRL.addr n, 8, 4⟩
def MBX_OUT_CTRL.PARTY (n : Nat) : Fld := ⟨MBX_OUT_CTRL.addr n, 16, 4⟩
def MBX_OUT_CTRL.MEMBER (n : Nat) : Fld := ⟨MBX_OUT_CTRL.addr n, 24, 3⟩
/-- `MBX_DB[c]` (spec/12_mailboxes_locks.md). -/
def MBX_DB.addr (n : Nat) : Nat := if n < 12 then 0x110608 + 0x10 * n else 0x11FFFC
def MBX_DB.IN_DB (n : Nat) : Fld := ⟨MBX_DB.addr n, 0, 1⟩
def MBX_DB.OUT_DB (n : Nat) : Fld := ⟨MBX_DB.addr n, 1, 1⟩
def MBX_DB.OUT_CAUSE (n : Nat) : Fld := ⟨MBX_DB.addr n, 2, 2⟩
def MBX_DB.OUT_TAG (n : Nat) : Fld := ⟨MBX_DB.addr n, 16, 16⟩
/-- `MBX_STATUS[c]` (spec/12_mailboxes_locks.md). -/
def MBX_STATUS.addr (n : Nat) : Nat := if n < 12 then 0x11060C + 0x10 * n else 0x11FFFC
def MBX_STATUS.OUT_TIMEOUT (n : Nat) : Fld := ⟨MBX_STATUS.addr n, 0, 1⟩
def MBX_STATUS.OVERRUN (n : Nat) : Fld := ⟨MBX_STATUS.addr n, 1, 1⟩
def MBX_STATUS.BAD_COUNT (n : Nat) : Fld := ⟨MBX_STATUS.addr n, 2, 1⟩
def MBX_STATUS.REPEAT (n : Nat) : Fld := ⟨MBX_STATUS.addr n, 3, 1⟩
def MBX_STATUS.HELD (n : Nat) : Fld := ⟨MBX_STATUS.addr n, 4, 3⟩
def MBX_STATUS.NOTICE_LOST (n : Nat) : Fld := ⟨MBX_STATUS.addr n, 8, 8⟩
/-- `MBX_ASSIGN[c]` (spec/12_mailboxes_locks.md). -/
def MBX_ASSIGN.addr (n : Nat) : Nat := if n < 12 then 0x110700 + 0x4 * n else 0x11FFFC
def MBX_ASSIGN.PARTY (n : Nat) : Fld := ⟨MBX_ASSIGN.addr n, 0, 4⟩
def MBX_ASSIGN.NOTIFY (n : Nat) : Fld := ⟨MBX_ASSIGN.addr n, 4, 1⟩
def MBX_ASSIGN.TIMEOUT (n : Nat) : Fld := ⟨MBX_ASSIGN.addr n, 16, 14⟩
/-- `MBX_LOCK[i]` (spec/12_mailboxes_locks.md). -/
def MBX_LOCK.addr (n : Nat) : Nat := if n < 16 then 0x110800 + 0x4 * n else 0x11FFFC
def MBX_LOCK.OWNER (n : Nat) : Fld := ⟨MBX_LOCK.addr n, 0, 4⟩
def MBX_LOCK.AGAIN (n : Nat) : Fld := ⟨MBX_LOCK.addr n, 30, 1⟩
def MBX_LOCK.ACQUIRED (n : Nat) : Fld := ⟨MBX_LOCK.addr n, 31, 1⟩
/-- `MBX_LOCK_OWN_LO` (spec/12_mailboxes_locks.md). -/
def MBX_LOCK_OWN_LO.addr : Nat := 0x110840
def MBX_LOCK_OWN_LO.OWNERS : Fld := ⟨MBX_LOCK_OWN_LO.addr, 0, 32⟩
/-- `MBX_LOCK_OWN_HI` (spec/12_mailboxes_locks.md). -/
def MBX_LOCK_OWN_HI.addr : Nat := 0x110844
def MBX_LOCK_OWN_HI.OWNERS : Fld := ⟨MBX_LOCK_OWN_HI.addr, 0, 32⟩
/-- `MBX_ERR` (spec/12_mailboxes_locks.md). -/
def MBX_ERR.addr : Nat := 0x110850
def MBX_ERR.ACCESS : Fld := ⟨MBX_ERR.addr, 0, 1⟩
def MBX_ERR.LOCK_MISUSE : Fld := ⟨MBX_ERR.addr, 1, 1⟩
def MBX_ERR.FORCED : Fld := ⟨MBX_ERR.addr, 2, 1⟩
def MBX_ERR.MASTER : Fld := ⟨MBX_ERR.addr, 8, 4⟩
def MBX_ERR.CHANNEL : Fld := ⟨MBX_ERR.addr, 12, 4⟩
/-- `MBX_X_CTRL` (spec/12_mailboxes_locks.md). -/
def MBX_X_CTRL.addr : Nat := 0x111000
def MBX_X_CTRL.POLL_MS : Fld := ⟨MBX_X_CTRL.addr, 0, 4⟩

/-! ## TKR fields -/

/-- `TKR_CTRL` (spec/13_tack_room_messages.md). -/
def TKR_CTRL.addr : Nat := 0x120000
def TKR_CTRL.ENABLE : Fld := ⟨TKR_CTRL.addr, 0, 1⟩
def TKR_CTRL.I2C_EN : Fld := ⟨TKR_CTRL.addr, 1, 1⟩
def TKR_CTRL.SPI_EN : Fld := ⟨TKR_CTRL.addr, 2, 1⟩
/-- `TKR_FUNC[u]` (spec/13_tack_room_messages.md). -/
def TKR_FUNC.addr (n : Nat) : Nat := if n < 2 then 0x120010 + 0x4 * n else 0x12FFFC
def TKR_FUNC.STATE (n : Nat) : Fld := ⟨TKR_FUNC.addr n, 0, 3⟩
def TKR_FUNC.BILLBOARD (n : Nat) : Fld := ⟨TKR_FUNC.addr n, 3, 1⟩
def TKR_FUNC.ADDR (n : Nat) : Fld := ⟨TKR_FUNC.addr n, 4, 7⟩
def TKR_FUNC.RWAKE (n : Nat) : Fld := ⟨TKR_FUNC.addr n, 11, 1⟩
def TKR_FUNC.SESSION (n : Nat) : Fld := ⟨TKR_FUNC.addr n, 12, 1⟩
def TKR_FUNC.KEY_ID (n : Nat) : Fld := ⟨TKR_FUNC.addr n, 13, 3⟩
def TKR_FUNC.QUEUE (n : Nat) : Fld := ⟨TKR_FUNC.addr n, 16, 2⟩
def TKR_FUNC.EP1_FULL (n : Nat) : Fld := ⟨TKR_FUNC.addr n, 18, 1⟩
def TKR_FUNC.EP2_FULL (n : Nat) : Fld := ⟨TKR_FUNC.addr n, 19, 1⟩
def TKR_FUNC.EP3_FULL (n : Nat) : Fld := ⟨TKR_FUNC.addr n, 20, 1⟩
/-- `TKR_EVT[u]` (spec/13_tack_room_messages.md). -/
def TKR_EVT.addr (n : Nat) : Nat := if n < 2 then 0x120020 + 0x4 * n else 0x12FFFC
def TKR_EVT.MSG_STALL (n : Nat) : Fld := ⟨TKR_EVT.addr n, 0, 1⟩
def TKR_EVT.RESET_DISCARD (n : Nat) : Fld := ⟨TKR_EVT.addr n, 1, 1⟩
def TKR_EVT.REPLY_DROPPED (n : Nat) : Fld := ⟨TKR_EVT.addr n, 2, 1⟩
def TKR_EVT.BB_NO_PORT (n : Nat) : Fld := ⟨TKR_EVT.addr n, 3, 1⟩
def TKR_EVT.SB_TIMEOUT (n : Nat) : Fld := ⟨TKR_EVT.addr n, 4, 1⟩
/-- `TKR_SB` (spec/13_tack_room_messages.md). -/
def TKR_SB.addr : Nat := 0x120030
def TKR_SB.I2C_ADDR : Fld := ⟨TKR_SB.addr, 0, 7⟩
def TKR_SB.PEC : Fld := ⟨TKR_SB.addr, 7, 1⟩
/-- `TKR_ALERT` (spec/13_tack_room_messages.md). -/
def TKR_ALERT.addr : Nat := 0x120034
def TKR_ALERT.MAILBOX : Fld := ⟨TKR_ALERT.addr, 0, 1⟩
def TKR_ALERT.FAULT : Fld := ⟨TKR_ALERT.addr, 1, 1⟩
def TKR_ALERT.PWRWARN : Fld := ⟨TKR_ALERT.addr, 2, 1⟩
def TKR_ALERT.QUEUE : Fld := ⟨TKR_ALERT.addr, 3, 1⟩
def TKR_ALERT.ASSERTED : Fld := ⟨TKR_ALERT.addr, 16, 1⟩
/-- `TKR_ALERT_EN` (spec/13_tack_room_messages.md). -/
def TKR_ALERT_EN.addr : Nat := 0x120038
def TKR_ALERT_EN.EN : Fld := ⟨TKR_ALERT_EN.addr, 0, 4⟩
/-- `TKR_AUTH` (spec/13_tack_room_messages.md). -/
def TKR_AUTH.addr : Nat := 0x120040
def TKR_AUTH.FAIL0 : Fld := ⟨TKR_AUTH.addr, 0, 8⟩
def TKR_AUTH.FAIL1 : Fld := ⟨TKR_AUTH.addr, 8, 8⟩
def TKR_AUTH.FAIL2 : Fld := ⟨TKR_AUTH.addr, 16, 8⟩
def TKR_AUTH.FAIL3 : Fld := ⟨TKR_AUTH.addr, 24, 8⟩
/-- `TKR_X_CTRL` (spec/13_tack_room_messages.md). -/
def TKR_X_CTRL.addr : Nat := 0x121000
def TKR_X_CTRL.MSG_NAK_MS : Fld := ⟨TKR_X_CTRL.addr, 0, 8⟩
def TKR_X_CTRL.STRETCH_MS : Fld := ⟨TKR_X_CTRL.addr, 8, 5⟩
def TKR_X_CTRL.IDLE_S : Fld := ⟨TKR_X_CTRL.addr, 16, 12⟩

/-! ## OBS fields -/

/-- `OBS_Q_CTRL[q]` (spec/14_queues_counters.md). -/
def OBS_Q_CTRL.addr (n : Nat) : Nat := if n < 4 then 0x140000 + 0x20 * n else 0x14FFFC
def OBS_Q_CTRL.RESET (n : Nat) : Fld := ⟨OBS_Q_CTRL.addr n, 0, 1⟩
def OBS_Q_CTRL.ENABLE (n : Nat) : Fld := ⟨OBS_Q_CTRL.addr n, 1, 1⟩
def OBS_Q_CTRL.TIMEOUT_MS (n : Nat) : Fld := ⟨OBS_Q_CTRL.addr n, 2, 10⟩
def OBS_Q_CTRL.CHANNEL (n : Nat) : Fld := ⟨OBS_Q_CTRL.addr n, 12, 4⟩
def OBS_Q_CTRL.OWNER (n : Nat) : Fld := ⟨OBS_Q_CTRL.addr n, 16, 2⟩
/-- `OBS_Q_DATA[q]` (spec/14_queues_counters.md). -/
def OBS_Q_DATA.addr (n : Nat) : Nat := if n < 4 then 0x140004 + 0x20 * n else 0x14FFFC
def OBS_Q_DATA.WORD (n : Nat) : Fld := ⟨OBS_Q_DATA.addr n, 0, 32⟩
/-- `OBS_Q_STATUS[q]` (spec/14_queues_counters.md). -/
def OBS_Q_STATUS.addr (n : Nat) : Nat := if n < 4 then 0x140008 + 0x20 * n else 0x14FFFC
def OBS_Q_STATUS.WORDS (n : Nat) : Fld := ⟨OBS_Q_STATUS.addr n, 0, 13⟩
def OBS_Q_STATUS.RECORDS (n : Nat) : Fld := ⟨OBS_Q_STATUS.addr n, 13, 11⟩
def OBS_Q_STATUS.TIMEOUT (n : Nat) : Fld := ⟨OBS_Q_STATUS.addr n, 24, 1⟩
def OBS_Q_STATUS.TORN (n : Nat) : Fld := ⟨OBS_Q_STATUS.addr n, 25, 1⟩
def OBS_Q_STATUS.OWNED (n : Nat) : Fld := ⟨OBS_Q_STATUS.addr n, 26, 1⟩
def OBS_Q_STATUS.WRITING (n : Nat) : Fld := ⟨OBS_Q_STATUS.addr n, 27, 1⟩
def OBS_Q_STATUS.READING (n : Nat) : Fld := ⟨OBS_Q_STATUS.addr n, 28, 1⟩
/-- `OBS_Q_PTR[q]` (spec/14_queues_counters.md). -/
def OBS_Q_PTR.addr (n : Nat) : Nat := if n < 4 then 0x14000C + 0x20 * n else 0x14FFFC
def OBS_Q_PTR.WR (n : Nat) : Fld := ⟨OBS_Q_PTR.addr n, 0, 13⟩
def OBS_Q_PTR.RD (n : Nat) : Fld := ⟨OBS_Q_PTR.addr n, 16, 13⟩
/-- `OBS_Q_LOST[q]` (spec/14_queues_counters.md). -/
def OBS_Q_LOST.addr (n : Nat) : Nat := if n < 4 then 0x140080 + 0x4 * n else 0x14FFFC
def OBS_Q_LOST.LOST (n : Nat) : Fld := ⟨OBS_Q_LOST.addr n, 0, 16⟩
/-- `OBS_CYCLE_LO` (spec/14_queues_counters.md). -/
def OBS_CYCLE_LO.addr : Nat := 0x140100
def OBS_CYCLE_LO.CYCLE_LO : Fld := ⟨OBS_CYCLE_LO.addr, 0, 32⟩
/-- `OBS_CYCLE_HI` (spec/14_queues_counters.md). -/
def OBS_CYCLE_HI.addr : Nat := 0x140104
def OBS_CYCLE_HI.CYCLE_HI : Fld := ⟨OBS_CYCLE_HI.addr, 0, 32⟩
/-- `OBS_PMU_CTRL` (spec/14_queues_counters.md). -/
def OBS_PMU_CTRL.addr : Nat := 0x140110
def OBS_PMU_CTRL.RECOVERY : Fld := ⟨OBS_PMU_CTRL.addr, 0, 1⟩
def OBS_PMU_CTRL.FREEZE : Fld := ⟨OBS_PMU_CTRL.addr, 1, 1⟩
def OBS_PMU_CTRL.CHAINED : Fld := ⟨OBS_PMU_CTRL.addr, 2, 1⟩
/-- `OBS_PMU_OVF` (spec/14_queues_counters.md). -/
def OBS_PMU_OVF.addr : Nat := 0x140114
def OBS_PMU_OVF.OVF : Fld := ⟨OBS_PMU_OVF.addr, 0, 8⟩
/-- `OBS_PMU_EVT[i]` (spec/14_queues_counters.md). -/
def OBS_PMU_EVT.addr (n : Nat) : Nat := if n < 8 then 0x140140 + 0x10 * n else 0x14FFFC
def OBS_PMU_EVT.EVENT (n : Nat) : Fld := ⟨OBS_PMU_EVT.addr n, 0, 8⟩
def OBS_PMU_EVT.FILTER (n : Nat) : Fld := ⟨OBS_PMU_EVT.addr n, 8, 8⟩
def OBS_PMU_EVT.ENABLE (n : Nat) : Fld := ⟨OBS_PMU_EVT.addr n, 16, 1⟩
def OBS_PMU_EVT.CLEAR (n : Nat) : Fld := ⟨OBS_PMU_EVT.addr n, 17, 1⟩
/-- `OBS_PMU_LO[i]` (spec/14_queues_counters.md). -/
def OBS_PMU_LO.addr (n : Nat) : Nat := if n < 8 then 0x140144 + 0x10 * n else 0x14FFFC
def OBS_PMU_LO.COUNT_LO (n : Nat) : Fld := ⟨OBS_PMU_LO.addr n, 0, 32⟩
/-- `OBS_PMU_HI[i]` (spec/14_queues_counters.md). -/
def OBS_PMU_HI.addr (n : Nat) : Nat := if n < 8 then 0x140148 + 0x10 * n else 0x14FFFC
def OBS_PMU_HI.COUNT_HI (n : Nat) : Fld := ⟨OBS_PMU_HI.addr n, 0, 16⟩

/-! ## FLT fields -/

/-- `FLT_STATUS` (spec/15_faults_hayloft.md). -/
def FLT_STATUS.addr : Nat := 0x130000
def FLT_STATUS.SAFE : Fld := ⟨FLT_STATUS.addr, 0, 1⟩
def FLT_STATUS.GRAVE : Fld := ⟨FLT_STATUS.addr, 1, 1⟩
def FLT_STATUS.CAUSE_SEV : Fld := ⟨FLT_STATUS.addr, 2, 2⟩
def FLT_STATUS.CAUSE : Fld := ⟨FLT_STATUS.addr, 4, 7⟩
def FLT_STATUS.CAUSE_VALID : Fld := ⟨FLT_STATUS.addr, 11, 1⟩
def FLT_STATUS.FORCE_REFUSED : Fld := ⟨FLT_STATUS.addr, 12, 1⟩
/-- `FLT_PINS` (spec/15_faults_hayloft.md). -/
def FLT_PINS.addr : Nat := 0x130004
def FLT_PINS.FAULT_N : Fld := ⟨FLT_PINS.addr, 0, 1⟩
def FLT_PINS.CUT_N : Fld := ⟨FLT_PINS.addr, 1, 1⟩
/-- `FLT_DUMP` (spec/15_faults_hayloft.md). -/
def FLT_DUMP.addr : Nat := 0x130008
def FLT_DUMP.RAM : Fld := ⟨FLT_DUMP.addr, 0, 2⟩
def FLT_DUMP.FLASH : Fld := ⟨FLT_DUMP.addr, 2, 2⟩
def FLT_DUMP.SKIPPED : Fld := ⟨FLT_DUMP.addr, 4, 1⟩
def FLT_DUMP.ABANDONED : Fld := ⟨FLT_DUMP.addr, 5, 1⟩
def FLT_DUMP.LAST_ENTRY : Fld := ⟨FLT_DUMP.addr, 6, 2⟩
def FLT_DUMP.SEQ : Fld := ⟨FLT_DUMP.addr, 16, 16⟩
/-- `FLT_STICKY[k]` (spec/15_faults_hayloft.md). -/
def FLT_STICKY.addr (n : Nat) : Nat := if n < 4 then 0x130010 + 0x4 * n else 0x13FFFC
def FLT_STICKY.STICKY (n : Nat) : Fld := ⟨FLT_STICKY.addr n, 0, 32⟩
/-- `FLT_CLEAR` (spec/15_faults_hayloft.md). -/
def FLT_CLEAR.addr : Nat := 0x130020
def FLT_CLEAR.SOURCE : Fld := ⟨FLT_CLEAR.addr, 0, 7⟩
def FLT_CLEAR.ALL : Fld := ⟨FLT_CLEAR.addr, 7, 1⟩
def FLT_CLEAR.QUAL : Fld := ⟨FLT_CLEAR.addr, 8, 8⟩
def FLT_CLEAR.GO : Fld := ⟨FLT_CLEAR.addr, 16, 1⟩
/-- `FLT_SEV[k]` (spec/15_faults_hayloft.md). -/
def FLT_SEV.addr (n : Nat) : Nat := if n < 8 then 0x130040 + 0x4 * n else 0x13FFFC
def FLT_SEV.SEV (n : Nat) : Fld := ⟨FLT_SEV.addr n, 0, 32⟩
/-- `FLT_ALERT[k]` (spec/15_faults_hayloft.md). -/
def FLT_ALERT.addr (n : Nat) : Nat := if n < 4 then 0x130060 + 0x4 * n else 0x13FFFC
def FLT_ALERT.ALERT (n : Nat) : Fld := ⟨FLT_ALERT.addr n, 0, 32⟩
/-- `FLT_QUAL[s]` (spec/15_faults_hayloft.md). -/
def FLT_QUAL.addr (n : Nat) : Nat := if n < 128 then 0x130100 + 0x4 * n else 0x13FFFC
def FLT_QUAL.FIRST (n : Nat) : Fld := ⟨FLT_QUAL.addr n, 0, 8⟩
def FLT_QUAL.LAST (n : Nat) : Fld := ⟨FLT_QUAL.addr n, 8, 8⟩
def FLT_QUAL.COUNT (n : Nat) : Fld := ⟨FLT_QUAL.addr n, 16, 16⟩
/-- `FLT_X_FORCE` (spec/15_faults_hayloft.md). -/
def FLT_X_FORCE.addr : Nat := 0x131000
def FLT_X_FORCE.SOURCE : Fld := ⟨FLT_X_FORCE.addr, 0, 7⟩
def FLT_X_FORCE.QUAL : Fld := ⟨FLT_X_FORCE.addr, 8, 8⟩
def FLT_X_FORCE.GO : Fld := ⟨FLT_X_FORCE.addr, 16, 1⟩
/-- `FLT_X_INVERT` (spec/15_faults_hayloft.md). -/
def FLT_X_INVERT.addr : Nat := 0x131004
def FLT_X_INVERT.PBF : Fld := ⟨FLT_X_INVERT.addr, 0, 1⟩
def FLT_X_INVERT.MGT_RAM : Fld := ⟨FLT_X_INVERT.addr, 1, 1⟩
def FLT_X_INVERT.RESTORE : Fld := ⟨FLT_X_INVERT.addr, 2, 1⟩
def FLT_X_INVERT.TIMELINE : Fld := ⟨FLT_X_INVERT.addr, 3, 1⟩
def FLT_X_INVERT.TT : Fld := ⟨FLT_X_INVERT.addr, 4, 1⟩
def FLT_X_INVERT.ROUTE : Fld := ⟨FLT_X_INVERT.addr, 5, 1⟩
def FLT_X_INVERT.GLK_CRC : Fld := ⟨FLT_X_INVERT.addr, 8, 4⟩

/-! ## TOP fields -/

/-- `TOP_ID` (spec/16_start_up_modes.md). -/
def TOP_ID.addr : Nat := 0x00000
def TOP_ID.ID : Fld := ⟨TOP_ID.addr, 0, 32⟩
/-- `TOP_STRAP` (spec/16_start_up_modes.md). -/
def TOP_STRAP.addr : Nat := 0x00004
def TOP_STRAP.BOOTSRC : Fld := ⟨TOP_STRAP.addr, 0, 2⟩
def TOP_STRAP.LIFE_EN : Fld := ⟨TOP_STRAP.addr, 2, 1⟩
def TOP_STRAP.I2CADDR : Fld := ⟨TOP_STRAP.addr, 3, 3⟩
def TOP_STRAP.MAKER_EN : Fld := ⟨TOP_STRAP.addr, 6, 1⟩
def TOP_STRAP.LIFE_SUPPLY : Fld := ⟨TOP_STRAP.addr, 8, 1⟩
/-- `TOP_MODE` (spec/16_start_up_modes.md). -/
def TOP_MODE.addr : Nat := 0x00008
def TOP_MODE.MODE : Fld := ⟨TOP_MODE.addr, 0, 3⟩
def TOP_MODE.HELD : Fld := ⟨TOP_MODE.addr, 3, 1⟩
def TOP_MODE.SAFE_CAUSE : Fld := ⟨TOP_MODE.addr, 4, 8⟩
def TOP_MODE.BOOT_STEP : Fld := ⟨TOP_MODE.addr, 12, 4⟩
/-- `TOP_RESET_CAUSE` (spec/16_start_up_modes.md). -/
def TOP_RESET_CAUSE.addr : Nat := 0x0000C
def TOP_RESET_CAUSE.POR : Fld := ⟨TOP_RESET_CAUSE.addr, 0, 1⟩
def TOP_RESET_CAUSE.RESET_N : Fld := ⟨TOP_RESET_CAUSE.addr, 1, 1⟩
def TOP_RESET_CAUSE.CHIP_RESET : Fld := ⟨TOP_RESET_CAUSE.addr, 2, 1⟩
def TOP_RESET_CAUSE.LIFE_START : Fld := ⟨TOP_RESET_CAUSE.addr, 3, 1⟩
def TOP_RESET_CAUSE.GRAVE_KEPT : Fld := ⟨TOP_RESET_CAUSE.addr, 4, 1⟩
/-- `TOP_BOOT_TIME` (spec/16_start_up_modes.md). -/
def TOP_BOOT_TIME.addr : Nat := 0x00010
def TOP_BOOT_TIME.BOOT : Fld := ⟨TOP_BOOT_TIME.addr, 0, 16⟩
def TOP_BOOT_TIME.CONNECT : Fld := ⟨TOP_BOOT_TIME.addr, 16, 16⟩
/-- `TOP_X_RESET` (spec/16_start_up_modes.md). -/
def TOP_X_RESET.addr : Nat := 0x01004
def TOP_X_RESET.KEY : Fld := ⟨TOP_X_RESET.addr, 0, 16⟩
/-- `TOP_EXPERT_KEY[k]` (spec/17_address_map.md). -/
def TOP_EXPERT_KEY.addr (n : Nat) : Nat := if n < 2 then 0x00014 + 0x4 * n else 0xFFFC
def TOP_EXPERT_KEY.KEY (n : Nat) : Fld := ⟨TOP_EXPERT_KEY.addr n, 0, 16⟩
/-- `TOP_EXPERT` (spec/17_address_map.md). -/
def TOP_EXPERT.addr : Nat := 0x0001C
def TOP_EXPERT.HELD : Fld := ⟨TOP_EXPERT.addr, 0, 16⟩
def TOP_EXPERT.ARMED : Fld := ⟨TOP_EXPERT.addr, 16, 16⟩
/-- `TOP_BUS_ERR` (spec/17_address_map.md). -/
def TOP_BUS_ERR.addr : Nat := 0x00020
def TOP_BUS_ERR.UNMAPPED : Fld := ⟨TOP_BUS_ERR.addr, 0, 1⟩
def TOP_BUS_ERR.EXPERT : Fld := ⟨TOP_BUS_ERR.addr, 1, 1⟩
def TOP_BUS_ERR.DENIED : Fld := ⟨TOP_BUS_ERR.addr, 2, 1⟩
def TOP_BUS_ERR.KEY_SEQ : Fld := ⟨TOP_BUS_ERR.addr, 3, 1⟩
def TOP_BUS_ERR.MASTER : Fld := ⟨TOP_BUS_ERR.addr, 4, 4⟩
def TOP_BUS_ERR.ADDR : Fld := ⟨TOP_BUS_ERR.addr, 8, 24⟩

/-! ## STL fields -/

/-- `STL_STALL[s]` (spec/17_address_map.md). -/
def STL_STALL.addr (n : Nat) : Nat := if n < 15 then 0x90000 + 0x4 * n else 0x9FFFC
def STL_STALL.TYPE (n : Nat) : Fld := ⟨STL_STALL.addr n, 0, 3⟩
def STL_STALL.SS_MODE (n : Nat) : Fld := ⟨STL_STALL.addr n, 4, 2⟩
def STL_STALL.FLAGS (n : Nat) : Fld := ⟨STL_STALL.addr n, 8, 8⟩
def STL_STALL.ORIENT (n : Nat) : Fld := ⟨STL_STALL.addr n, 16, 6⟩
def STL_STALL.ORIENT_LVL (n : Nat) : Fld := ⟨STL_STALL.addr n, 22, 1⟩
/-- `STL_LANE[i]` (spec/17_address_map.md). -/
def STL_LANE.addr (n : Nat) : Nat := if n < 28 then 0x90040 + 0x4 * n else 0x9FFFC
def STL_LANE.RX_INVERT (n : Nat) : Fld := ⟨STL_LANE.addr n, 0, 1⟩
def STL_LANE.TX_INVERT (n : Nat) : Fld := ⟨STL_LANE.addr n, 1, 1⟩
def STL_LANE.DISABLE (n : Nat) : Fld := ⟨STL_LANE.addr n, 2, 1⟩
def STL_LANE.TX_PRESET (n : Nat) : Fld := ⟨STL_LANE.addr n, 4, 4⟩
def STL_LANE.RX_CTLE (n : Nat) : Fld := ⟨STL_LANE.addr n, 8, 4⟩
def STL_LANE.TX_SWING (n : Nat) : Fld := ⟨STL_LANE.addr n, 12, 2⟩
def STL_LANE.STATE (n : Nat) : Fld := ⟨STL_LANE.addr n, 16, 3⟩

/-! ## GPI fields -/

/-- `GPI_CFG[g]` (spec/17_address_map.md). -/
def GPI_CFG.addr (n : Nat) : Nat := if n < 32 then 0x150000 + 0x4 * n else 0x15FFFC
def GPI_CFG.FUNCTION (n : Nat) : Fld := ⟨GPI_CFG.addr n, 0, 3⟩
def GPI_CFG.ARG (n : Nat) : Fld := ⟨GPI_CFG.addr n, 4, 4⟩
def GPI_CFG.ACTIVE_LOW (n : Nat) : Fld := ⟨GPI_CFG.addr n, 8, 1⟩
def GPI_CFG.OPEN_DRAIN (n : Nat) : Fld := ⟨GPI_CFG.addr n, 9, 1⟩
def GPI_CFG.PULL_UP (n : Nat) : Fld := ⟨GPI_CFG.addr n, 10, 1⟩
def GPI_CFG.PULL_DOWN (n : Nat) : Fld := ⟨GPI_CFG.addr n, 11, 1⟩
/-- `GPI_IN` (spec/17_address_map.md). -/
def GPI_IN.addr : Nat := 0x150080
def GPI_IN.LEVEL : Fld := ⟨GPI_IN.addr, 0, 32⟩
/-- `GPI_OUT` (spec/17_address_map.md). -/
def GPI_OUT.addr : Nat := 0x150084
def GPI_OUT.ACTIVE : Fld := ⟨GPI_OUT.addr, 0, 32⟩

/-- Rows of block PLN. -/
def rowsPLN : List RegRow := [
  ⟨0x10000, 0x4, 1, 1, .one .mgt, false, 0x00000000, [⟨0, 3, .ro, 0, 7⟩, ⟨3, 1, .ro, 0, 1⟩, ⟨4, 3, .ro, 0, 7⟩, ⟨8, 4, .ro, 0, 15⟩, ⟨16, 16, .ro, 0, 65535⟩]⟩,
  ⟨0x10004, 0x4, 1, 1, .one .mgt, false, 0x00000000, [⟨0, 32, .ro, 0, 4294967295⟩]⟩,
  ⟨0x10008, 0x4, 1, 1, .one .mgt, false, 0x00000000, [⟨0, 32, .ro, 0, 4294967295⟩]⟩,
  ⟨0x1000C, 0x4, 1, 1, .one .mgt, false, 0x00000000, [⟨0, 32, .ro, 0, 4294967295⟩]⟩,
  ⟨0x10010, 0x4, 1, 1, .one .mgt, false, 0x00000000, [⟨0, 4, .ro, 0, 15⟩, ⟨4, 4, .ro, 0, 15⟩, ⟨8, 2, .ro, 0, 3⟩, ⟨16, 7, .ro, 0, 127⟩]⟩,
  ⟨0x10020, 0x4, 2, 1, .one .mgt, false, 0x00000000, [⟨0, 32, .ro, 0, 4294967295⟩]⟩,
  ⟨0x10040, 0x4, 8, 1, .one .mgt, false, 0x00000000, [⟨0, 32, .ro, 0, 4294967295⟩]⟩]

/-- Rows of block YRD. -/
def rowsYRD : List RegRow := [
  ⟨0x20000, 0x4, 1, 1, .one .aon, false, 0x0000000F, [⟨0, 4, .rw, 0, 15⟩, ⟨4, 4, .rw, 0, 15⟩, ⟨8, 1, .wo, 0, 1⟩]⟩,
  ⟨0x20010, 0x4, 5, 1, .one .aon, false, 0x00000000, [⟨0, 2, .ro, 0, 3⟩, ⟨2, 2, .ro, 0, 3⟩, ⟨4, 1, .ro, 0, 1⟩, ⟨5, 1, .ro, 0, 1⟩, ⟨6, 1, .w1c, 0, 1⟩, ⟨7, 1, .w1c, 0, 1⟩, ⟨16, 16, .ro, 0, 65535⟩]⟩,
  ⟨0x20040, 0x8, 5, 1, .one .aon, false, 0x00000000, [⟨0, 32, .ro, 0, 4294967295⟩]⟩,
  ⟨0x20044, 0x8, 5, 1, .one .aon, false, 0x00000000, [⟨0, 32, .ro, 0, 4294967295⟩]⟩,
  ⟨0x20080, 0x4, 5, 1, .one .aon, false, 0x00000000, [⟨0, 24, .ro, 0, 16777215⟩]⟩,
  ⟨0x200A0, 0x4, 5, 1, .one .aon, false, 0x00000000, [⟨0, 32, .ro, 0, 4294967295⟩]⟩,
  ⟨0x200C0, 0x4, 1, 1, .one .aon, false, 0x00000000, [⟨0, 3, .ro, 0, 7⟩, ⟨3, 3, .ro, 0, 7⟩, ⟨6, 1, .ro, 0, 1⟩, ⟨16, 16, .ro, 0, 65535⟩]⟩]

/-- Rows of block TML. -/
def rowsTML : List RegRow := [
  ⟨0x30000, 0x4, 1, 1, .one .aon, false, 0x00000002, [⟨0, 1, .rw, 0, 1⟩, ⟨1, 1, .rw, 0, 1⟩]⟩,
  ⟨0x30004, 0x4, 1, 1, .one .aon, false, 0x00000000, [⟨0, 8, .rw, 0, 255⟩, ⟨8, 3, .wo, 0, 7⟩, ⟨16, 1, .ro, 0, 1⟩, ⟨17, 1, .w1c, 0, 1⟩]⟩,
  ⟨0x30008, 0x4, 1, 1, .one .aon, false, 0x00000000, [⟨0, 32, .rw, 0, 4294967295⟩]⟩,
  ⟨0x3000C, 0x4, 1, 1, .one .aon, false, 0x00000000, [⟨0, 32, .rw, 0, 4294967295⟩]⟩,
  ⟨0x30010, 0x4, 1, 1, .one .aon, false, 0x00000000, [⟨0, 3, .rw, 0, 7⟩, ⟨3, 1, .rw, 0, 1⟩, ⟨4, 1, .rw, 0, 1⟩, ⟨8, 4, .rw, 0, 15⟩, ⟨16, 8, .rw, 0, 255⟩]⟩,
  ⟨0x30014, 0x4, 1, 1, .one .aon, false, 0x00000000, [⟨0, 24, .rw, 0, 16777215⟩]⟩,
  ⟨0x30018, 0x4, 1, 1, .one .aon, false, 0x00000000, [⟨0, 16, .rw, 0, 65535⟩]⟩,
  ⟨0x30020, 0x4, 1, 1, .one .aon, false, 0x00000000, [⟨0, 9, .ro, 0, 511⟩, ⟨16, 8, .ro, 0, 255⟩, ⟨24, 4, .ro, 0, 15⟩, ⟨28, 4, .ro, 0, 15⟩]⟩,
  ⟨0x30044, 0x4, 11, 1, .one .aon, false, 0xFFFF0000, [⟨0, 7, .ro, 0, 127⟩, ⟨8, 2, .ro, 0, 3⟩, ⟨10, 4, .ro, 0, 15⟩, ⟨14, 1, .ro, 0, 1⟩, ⟨16, 16, .ro, 0, 65535⟩]⟩,
  ⟨0x30080, 0x4, 15, 1, .one .aon, false, 0x00000000, [⟨0, 2, .ro, 0, 3⟩, ⟨2, 4, .ro, 0, 15⟩, ⟨8, 22, .ro, 0, 4194303⟩]⟩,
  ⟨0x31000, 0x4, 1, 1, .one .aon, true, 0x00A03214, [⟨0, 8, .rw, 11, 255⟩, ⟨8, 8, .rw, 41, 255⟩, ⟨16, 12, .rw, 151, 4095⟩]⟩]

/-- Rows of block SSH. -/
def rowsSSH : List RegRow := [
  ⟨0x40000, 0x4, 1, 1, .one .hub, false, 0x00000006, [⟨0, 1, .rw, 0, 1⟩, ⟨1, 1, .rw, 0, 1⟩, ⟨2, 1, .rw, 0, 1⟩]⟩,
  ⟨0x40010, 0x4, 8, 1, .one .hub, false, 0x000000F0, [⟨0, 2, .ro, 0, 3⟩, ⟨2, 2, .ro, 0, 3⟩, ⟨4, 4, .ro, 0, 15⟩, ⟨8, 3, .ro, 0, 7⟩, ⟨11, 1, .ro, 0, 1⟩, ⟨12, 4, .ro, 0, 15⟩, ⟨16, 7, .ro, 0, 127⟩, ⟨24, 4, .ro, 0, 15⟩]⟩,
  ⟨0x40040, 0x4, 17, 1, .one .hub, false, 0x00000004, [⟨0, 4, .ro, 0, 15⟩, ⟨4, 3, .ro, 0, 7⟩, ⟨8, 3, .ro, 0, 7⟩, ⟨12, 3, .ro, 0, 7⟩, ⟨16, 3, .ro, 0, 7⟩]⟩,
  ⟨0x40090, 0x4, 15, 1, .one .hub, false, 0x00000000, [⟨0, 8, .ro, 0, 255⟩, ⟨8, 8, .ro, 0, 255⟩, ⟨16, 1, .ro, 0, 1⟩]⟩,
  ⟨0x400D0, 0x4, 17, 1, .one .hub, false, 0x00000000, [⟨0, 1, .w1c, 0, 1⟩, ⟨1, 1, .w1c, 0, 1⟩, ⟨2, 1, .w1c, 0, 1⟩, ⟨3, 1, .w1c, 0, 1⟩, ⟨4, 1, .w1c, 0, 1⟩, ⟨5, 1, .w1c, 0, 1⟩, ⟨6, 1, .w1c, 0, 1⟩]⟩,
  ⟨0x40120, 0x4, 1, 1, .one .hub, false, 0x00000000, [⟨0, 16, .ro, 0, 65535⟩, ⟨16, 16, .ro, 0, 65535⟩]⟩,
  ⟨0x40130, 0x4, 2, 1, .one .hub, false, 0x00000000, [⟨0, 1, .ro, 0, 1⟩, ⟨1, 1, .ro, 0, 1⟩, ⟨2, 1, .ro, 0, 1⟩]⟩,
  ⟨0x40140, 0x4, 2, 1, .one .hub, false, 0x00000000, [⟨0, 16, .ro, 0, 65535⟩, ⟨16, 1, .ro, 0, 1⟩]⟩,
  ⟨0x40150, 0x4, 2, 1, .one .hub, false, 0x00000000, [⟨0, 14, .ro, 0, 16383⟩, ⟨16, 8, .ro, 0, 255⟩]⟩,
  ⟨0x40158, 0x4, 1, 1, .one .hub, false, 0x00000000, [⟨0, 16, .ro, 0, 65535⟩, ⟨16, 16, .ro, 0, 65535⟩]⟩,
  ⟨0x41000, 0x4, 1, 1, .one .hub, true, 0x0001020A, [⟨0, 8, .rw, 1, 255⟩, ⟨8, 8, .rw, 1, 255⟩, ⟨16, 1, .rw, 0, 1⟩]⟩,
  ⟨0x41004, 0x4, 1, 1, .one .hub, true, 0x00000006, [⟨0, 2, .rw, 0, 2⟩, ⟨2, 2, .rw, 0, 2⟩]⟩]

/-- Rows of block PBF. -/
def rowsPBF : List RegRow := [
  ⟨0x50000, 0x4, 1, 1, .one .hub, false, 0x00000002, [⟨0, 1, .rw, 0, 1⟩, ⟨1, 1, .rw, 0, 1⟩]⟩,
  ⟨0x50004, 0x4, 1, 1, .one .hub, false, 0x00010000, [⟨0, 17, .ro, 0, 131071⟩, ⟨24, 8, .ro, 0, 255⟩]⟩,
  ⟨0x50008, 0x4, 1, 1, .one .hub, false, 0x0000C600, [⟨0, 17, .ro, 0, 131071⟩]⟩,
  ⟨0x5000C, 0x4, 1, 1, .one .hub, false, 0x0000C600, [⟨0, 17, .ro, 0, 131071⟩]⟩,
  ⟨0x50010, 0x4, 8, 1, .one .hub, false, 0x00002000, [⟨0, 14, .ro, 0, 16383⟩]⟩,
  ⟨0x50040, 0x4, 22, 1, .one .hub, false, 0x00000000, [⟨0, 16, .rwp, 0, 65535⟩, ⟨16, 16, .rwp, 0, 65535⟩]⟩,
  ⟨0x500A0, 0x4, 22, 1, .one .hub, false, 0x00000000, [⟨0, 16, .ro, 0, 65535⟩, ⟨16, 16, .ro, 0, 65535⟩]⟩,
  ⟨0x50100, 0x4, 1, 1, .one .hub, false, 0x00000000, [⟨0, 1, .w1c, 0, 1⟩, ⟨1, 1, .w1c, 0, 1⟩, ⟨2, 1, .w1c, 0, 1⟩, ⟨3, 1, .w1c, 0, 1⟩, ⟨4, 1, .w1c, 0, 1⟩]⟩,
  ⟨0x50104, 0x4, 1, 1, .one .hub, false, 0x00000000, [⟨0, 16, .ro, 0, 65535⟩, ⟨16, 16, .ro, 0, 65535⟩]⟩,
  ⟨0x51000, 0x4, 1, 1, .one .hub, true, 0x00100080, [⟨0, 13, .rw, 16, 4096⟩, ⟨16, 5, .rw, 16, 31⟩]⟩,
  ⟨0x51004, 0x4, 1, 1, .one .hub, true, 0x00000001, [⟨0, 1, .rw, 0, 1⟩, ⟨1, 1, .rw, 0, 1⟩]⟩]

/-- Rows of block HSH. -/
def rowsHSH : List RegRow := [
  ⟨0x60000, 0x4, 1, 1, .one .hsb, false, 0x00000000, [⟨0, 1, .rw, 0, 1⟩]⟩,
  ⟨0x60010, 0x4, 4, 1, .one .hsb, false, 0x000000F0, [⟨0, 2, .ro, 0, 3⟩, ⟨2, 2, .ro, 0, 3⟩, ⟨4, 4, .ro, 0, 15⟩, ⟨8, 3, .ro, 0, 7⟩, ⟨12, 2, .ro, 0, 3⟩, ⟨16, 3, .ro, 0, 7⟩, ⟨20, 7, .ro, 0, 127⟩]⟩,
  ⟨0x60040, 0x4, 15, 1, .one .hsb, false, 0x00000000, [⟨0, 2, .ro, 0, 3⟩, ⟨4, 4, .ro, 0, 15⟩, ⟨8, 2, .ro, 0, 3⟩, ⟨10, 1, .ro, 0, 1⟩, ⟨11, 1, .ro, 0, 1⟩, ⟨12, 2, .ro, 0, 3⟩, ⟨16, 4, .ro, 0, 15⟩, ⟨20, 1, .ro, 0, 1⟩]⟩,
  ⟨0x60080, 0x4, 15, 1, .one .hsb, false, 0x00000000, [⟨0, 1, .w1c, 0, 1⟩, ⟨1, 1, .w1c, 0, 1⟩, ⟨2, 1, .w1c, 0, 1⟩, ⟨3, 1, .w1c, 0, 1⟩, ⟨4, 1, .w1c, 0, 1⟩, ⟨5, 1, .w1c, 0, 1⟩, ⟨6, 1, .w1c, 0, 1⟩, ⟨7, 1, .w1c, 0, 1⟩, ⟨8, 1, .w1c, 0, 1⟩, ⟨9, 1, .w1c, 0, 1⟩]⟩,
  ⟨0x600C0, 0x4, 4, 1, .one .hsb, false, 0x000000F0, [⟨0, 2, .ro, 0, 3⟩, ⟨2, 2, .ro, 0, 3⟩, ⟨4, 4, .ro, 0, 15⟩, ⟨8, 2, .ro, 0, 3⟩, ⟨10, 1, .ro, 0, 1⟩, ⟨11, 1, .ro, 0, 1⟩, ⟨16, 8, .ro, 0, 255⟩]⟩,
  ⟨0x60100, 0x4, 1, 1, .one .hsb, false, 0x00000000, [⟨0, 1, .w1c, 0, 1⟩, ⟨1, 1, .w1c, 0, 1⟩, ⟨2, 1, .w1c, 0, 1⟩, ⟨3, 1, .w1c, 0, 1⟩, ⟨4, 1, .w1c, 0, 1⟩, ⟨5, 1, .w1c, 0, 1⟩]⟩,
  ⟨0x60104, 0x4, 1, 1, .one .hsb, false, 0x00000000, [⟨0, 16, .ro, 0, 65535⟩, ⟨16, 16, .ro, 0, 65535⟩]⟩,
  ⟨0x61000, 0x4, 1, 1, .one .hsb, true, 0x000F0C05, [⟨0, 8, .rw, 2, 50⟩, ⟨8, 8, .rw, 10, 20⟩, ⟨16, 8, .rw, 1, 15⟩]⟩]

/-- Rows of block TTA. -/
def rowsTTA : List RegRow := [
  ⟨0x70000, 0x4, 1, 1, .one .hsb, false, 0x00000000, [⟨0, 1, .rw, 0, 1⟩]⟩,
  ⟨0x70010, 0x4, 15, 1, .one .hsb, false, 0x00000000, [⟨0, 2, .ro, 0, 3⟩, ⟨2, 2, .ro, 0, 3⟩, ⟨4, 6, .ro, 0, 63⟩, ⟨10, 3, .ro, 0, 7⟩, ⟨16, 3, .ro, 0, 7⟩]⟩,
  ⟨0x70050, 0x4, 15, 1, .one .hsb, false, 0x00000000, [⟨0, 1, .w1c, 0, 1⟩, ⟨1, 1, .w1c, 0, 1⟩, ⟨2, 1, .w1c, 0, 1⟩, ⟨3, 1, .w1c, 0, 1⟩, ⟨4, 1, .w1c, 0, 1⟩, ⟨5, 1, .w1c, 0, 1⟩, ⟨6, 1, .w1c, 0, 1⟩]⟩,
  ⟨0x70090, 0x4, 15, 1, .one .hsb, false, 0x00000000, [⟨0, 16, .ro, 0, 65535⟩, ⟨16, 16, .ro, 0, 65535⟩]⟩,
  ⟨0x700D0, 0x4, 1, 1, .one .hsb, false, 0x00000000, [⟨0, 4, .rw, 0, 15⟩, ⟨4, 3, .wo, 0, 7⟩, ⟨8, 7, .rw, 0, 127⟩, ⟨16, 4, .rw, 0, 15⟩, ⟨20, 1, .rw, 0, 1⟩, ⟨21, 2, .rw, 0, 3⟩, ⟨24, 1, .ro, 0, 1⟩, ⟨25, 1, .w1c, 0, 1⟩]⟩,
  ⟨0x71000, 0x4, 1, 1, .one .hsb, true, 0x00000003, [⟨0, 3, .rw, 2, 7⟩]⟩]

/-- Rows of block UPP. -/
def rowsUPP : List RegRow := [
  ⟨0x80000, 0x4, 2, 1, .byUp, false, 0x00000000, [⟨0, 2, .ro, 0, 3⟩, ⟨2, 1, .ro, 0, 1⟩, ⟨4, 3, .ro, 0, 7⟩, ⟨8, 4, .ro, 0, 15⟩, ⟨12, 4, .ro, 0, 15⟩, ⟨16, 4, .ro, 0, 15⟩]⟩,
  ⟨0x80010, 0x4, 1, 1, .one .up0, false, 0x00000100, [⟨0, 2, .rw, 0, 3⟩, ⟨4, 4, .rw, 0, 15⟩, ⟨8, 4, .rw, 0, 15⟩]⟩,
  ⟨0x80014, 0x4, 1, 1, .one .up0, false, 0x00000000, [⟨0, 16, .ro, 0, 65535⟩, ⟨16, 16, .ro, 0, 65535⟩]⟩,
  ⟨0x80018, 0x4, 1, 1, .one .up0, false, 0x00000000, [⟨0, 16, .ro, 0, 65535⟩, ⟨16, 16, .ro, 0, 65535⟩]⟩,
  ⟨0x8001C, 0x4, 1, 1, .one .up0, false, 0x00000000, [⟨0, 8, .ro, 0, 255⟩, ⟨8, 2, .ro, 0, 3⟩, ⟨10, 1, .ro, 0, 1⟩, ⟨11, 1, .ro, 0, 1⟩, ⟨12, 1, .ro, 0, 1⟩, ⟨16, 16, .ro, 0, 65535⟩]⟩,
  ⟨0x80020, 0x4, 1, 1, .one .up0, false, 0x00000000, [⟨0, 8, .ro, 0, 255⟩, ⟨8, 2, .ro, 0, 3⟩, ⟨10, 2, .ro, 0, 3⟩, ⟨12, 3, .ro, 0, 7⟩, ⟨16, 16, .ro, 0, 65535⟩]⟩,
  ⟨0x80024, 0x4, 1, 1, .one .up0, false, 0x00000000, [⟨0, 1, .w1c, 0, 1⟩, ⟨1, 1, .w1c, 0, 1⟩, ⟨2, 1, .w1c, 0, 1⟩, ⟨3, 1, .w1c, 0, 1⟩]⟩,
  ⟨0x81000, 0x4, 1, 1, .one .up0, true, 0x00000064, [⟨0, 8, .rw, 20, 200⟩]⟩]

/-- Rows of block GLK. -/
def rowsGLK : List RegRow := [
  ⟨0xA0000, 0x4, 1, 1, .one .fab, false, 0x00000002, [⟨0, 1, .rw, 0, 1⟩, ⟨1, 1, .rw, 0, 1⟩, ⟨4, 4, .wo, 0, 15⟩]⟩,
  ⟨0xA0010, 0x10, 4, 1, .one .fab, false, 0x00000000, [⟨0, 3, .ro, 0, 7⟩, ⟨3, 1, .ro, 0, 1⟩, ⟨4, 2, .ro, 0, 3⟩, ⟨8, 3, .ro, 0, 7⟩, ⟨12, 2, .ro, 0, 3⟩, ⟨16, 3, .ro, 0, 7⟩, ⟨24, 8, .ro, 0, 255⟩]⟩,
  ⟨0xA0014, 0x10, 4, 1, .one .fab, false, 0x00000000, [⟨0, 16, .ro, 0, 65535⟩]⟩,
  ⟨0xA0018, 0x10, 4, 1, .one .fab, false, 0x00000000, [⟨0, 16, .ro, 0, 65535⟩, ⟨16, 8, .ro, 0, 255⟩, ⟨24, 8, .ro, 0, 255⟩]⟩,
  ⟨0xA001C, 0x10, 4, 1, .one .fab, false, 0x00000000, [⟨0, 1, .w1c, 0, 1⟩, ⟨1, 1, .w1c, 0, 1⟩, ⟨2, 1, .w1c, 0, 1⟩, ⟨3, 1, .w1c, 0, 1⟩, ⟨4, 1, .w1c, 0, 1⟩, ⟨5, 1, .w1c, 0, 1⟩, ⟨6, 1, .w1c, 0, 1⟩]⟩,
  ⟨0xA0050, 0x4, 4, 1, .one .fab, false, 0x00000000, [⟨0, 24, .ro, 0, 16777215⟩, ⟨24, 2, .ro, 0, 3⟩]⟩,
  ⟨0xA0060, 0x4, 1, 1, .one .aon, false, 0x00000000, [⟨0, 4, .w1c, 0, 15⟩, ⟨4, 4, .wo, 0, 15⟩]⟩,
  ⟨0xA1000, 0x4, 1, 1, .one .fab, true, 0x000A0431, [⟨0, 4, .rw, 1, 8⟩, ⟨4, 4, .rw, 2, 8⟩, ⟨8, 8, .rw, 2, 255⟩, ⟨16, 8, .rw, 1, 255⟩]⟩]

/-- Rows of block DRV. -/
def rowsDRV : List RegRow := [
  ⟨0xB0000, 0x4, 1, 1, .one .fab, false, 0x00000002, [⟨0, 1, .rw, 0, 1⟩, ⟨1, 1, .rw, 0, 1⟩]⟩,
  ⟨0xB0004, 0x4, 1, 1, .one .fab, false, 0x00000000, [⟨0, 3, .ro, 0, 7⟩, ⟨3, 1, .ro, 0, 1⟩, ⟨4, 3, .ro, 0, 7⟩, ⟨7, 1, .ro, 0, 1⟩, ⟨8, 8, .ro, 0, 255⟩, ⟨16, 1, .ro, 0, 1⟩, ⟨17, 3, .ro, 0, 7⟩, ⟨24, 8, .ro, 0, 255⟩]⟩,
  ⟨0xB0010, 0x4, 8, 1, .one .fab, false, 0x00000000, [⟨0, 4, .ro, 0, 15⟩, ⟨4, 3, .ro, 0, 7⟩, ⟨7, 1, .ro, 0, 1⟩, ⟨8, 2, .ro, 0, 3⟩]⟩,
  ⟨0xB0040, 0x4, 4, 1, .one .fab, false, 0x00000000, [⟨0, 24, .ro, 0, 16777215⟩]⟩,
  ⟨0xB0050, 0x4, 1, 1, .one .fab, false, 0x00000000, [⟨0, 10, .ro, 0, 1023⟩, ⟨16, 16, .ro, 0, 65535⟩]⟩,
  ⟨0xB0054, 0x4, 1, 1, .one .fab, false, 0x00000000, [⟨0, 16, .ro, 0, 65535⟩, ⟨16, 7, .ro, 0, 127⟩]⟩,
  ⟨0xB0058, 0x4, 1, 1, .one .fab, false, 0x00000000, [⟨0, 32, .ro, 0, 4294967295⟩]⟩,
  ⟨0xB005C, 0x4, 1, 1, .one .fab, false, 0x00000000, [⟨0, 32, .ro, 0, 4294967295⟩]⟩,
  ⟨0xB0060, 0x4, 1, 1, .one .fab, false, 0x00000000, [⟨0, 16, .ro, 0, 65535⟩, ⟨16, 8, .ro, 0, 255⟩, ⟨24, 8, .ro, 0, 255⟩]⟩,
  ⟨0xB0064, 0x4, 1, 1, .one .fab, false, 0x00000000, [⟨0, 1, .w1c, 0, 1⟩, ⟨1, 1, .w1c, 0, 1⟩, ⟨2, 1, .w1c, 0, 1⟩, ⟨3, 1, .w1c, 0, 1⟩, ⟨4, 1, .w1c, 0, 1⟩, ⟨5, 1, .w1c, 0, 1⟩, ⟨6, 1, .w1c, 0, 1⟩, ⟨7, 1, .w1c, 0, 1⟩]⟩,
  ⟨0xB1000, 0x4, 1, 1, .one .fab, true, 0x00001111, [⟨0, 4, .rw, 1, 15⟩, ⟨4, 4, .rw, 1, 15⟩, ⟨8, 4, .rw, 1, 15⟩, ⟨12, 4, .rw, 1, 15⟩]⟩,
  ⟨0xB1004, 0x4, 1, 1, .one .fab, true, 0x4002101E, [⟨0, 8, .rw, 5, 90⟩, ⟨8, 8, .rw, 1, 255⟩, ⟨16, 8, .rw, 2, 255⟩, ⟨24, 8, .rw, 1, 255⟩]⟩]

/-- Rows of block TCP. -/
def rowsTCP : List RegRow := [
  ⟨0xC0000, 0x4, 1, 1, .one .ppa, false, 0x00000006, [⟨0, 1, .rw, 0, 1⟩, ⟨1, 1, .rw, 0, 1⟩, ⟨2, 1, .rw, 0, 1⟩]⟩,
  ⟨0xC0040, 0x4, 17, 1, .one .ppa, false, 0x00000000, [⟨0, 4, .ro, 0, 15⟩, ⟨4, 1, .ro, 0, 1⟩, ⟨5, 2, .ro, 0, 3⟩, ⟨7, 1, .ro, 0, 1⟩, ⟨8, 2, .ro, 0, 3⟩, ⟨10, 2, .ro, 0, 3⟩, ⟨12, 2, .ro, 0, 3⟩, ⟨14, 1, .ro, 0, 1⟩]⟩,
  ⟨0xC0090, 0x4, 17, 1, .one .ppa, false, 0x00000000, [⟨0, 4, .ro, 0, 15⟩, ⟨4, 2, .ro, 0, 3⟩, ⟨6, 1, .ro, 0, 1⟩, ⟨8, 12, .ro, 0, 4095⟩, ⟨20, 7, .ro, 0, 127⟩]⟩,
  ⟨0xC00E0, 0x4, 17, 1, .one .ppa, false, 0x03E803E8, [⟨0, 14, .ro, 0, 16383⟩, ⟨16, 14, .ro, 0, 16383⟩, ⟨30, 1, .ro, 0, 1⟩, ⟨31, 1, .ro, 0, 1⟩]⟩,
  ⟨0xC0130, 0x4, 17, 1, .one .ppa, false, 0x00000000, [⟨0, 1, .ro, 0, 1⟩, ⟨1, 1, .ro, 0, 1⟩, ⟨2, 1, .ro, 0, 1⟩, ⟨3, 2, .ro, 0, 3⟩, ⟨5, 1, .ro, 0, 1⟩, ⟨6, 2, .ro, 0, 3⟩]⟩,
  ⟨0xC0180, 0x4, 17, 1, .one .ppa, false, 0x00000000, [⟨0, 1, .w1c, 0, 1⟩, ⟨1, 1, .w1c, 0, 1⟩, ⟨2, 1, .w1c, 0, 1⟩, ⟨3, 1, .w1c, 0, 1⟩, ⟨4, 1, .w1c, 0, 1⟩, ⟨5, 1, .w1c, 0, 1⟩, ⟨6, 1, .w1c, 0, 1⟩, ⟨7, 1, .w1c, 0, 1⟩, ⟨8, 1, .w1c, 0, 1⟩, ⟨9, 1, .w1c, 0, 1⟩, ⟨10, 1, .w1c, 0, 1⟩, ⟨11, 1, .w1c, 0, 1⟩, ⟨12, 1, .w1c, 0, 1⟩]⟩,
  ⟨0xC01D0, 0x4, 2, 1, .one .ppa, false, 0x00000000, [⟨0, 2, .ro, 0, 3⟩, ⟨2, 2, .ro, 0, 3⟩, ⟨4, 3, .ro, 0, 7⟩, ⟨7, 1, .ro, 0, 1⟩, ⟨8, 1, .ro, 0, 1⟩]⟩,
  ⟨0xC1000, 0x4, 1, 1, .one .ppa, true, 0x5A0D1478, [⟨0, 8, .rw, 100, 200⟩, ⟨8, 8, .rw, 1, 250⟩, ⟨16, 4, .rw, 12, 15⟩, ⟨24, 8, .rw, 75, 100⟩]⟩]

/-- Rows of block PPW. -/
def rowsPPW : List RegRow := [
  ⟨0xD0000, 0x4, 1, 1, .one .ppa, false, 0x00000000, [⟨0, 1, .rw, 0, 1⟩]⟩,
  ⟨0xD0004, 0x4, 1, 1, .one .ppa, false, 0x00000000, [⟨0, 4, .ro, 0, 15⟩]⟩,
  ⟨0xD0008, 0x4, 1, 1, .one .ppa, false, 0x00000000, [⟨0, 8, .ro, 0, 255⟩, ⟨8, 8, .ro, 0, 255⟩]⟩,
  ⟨0xD000C, 0x4, 1, 1, .one .ppa, false, 0x00000000, [⟨0, 17, .wo, 0, 131071⟩]⟩,
  ⟨0xD0040, 0x20, 17, 1, .one .ppa, false, 0x00320A0A, [⟨0, 7, .rwp, 0, 127⟩, ⟨8, 5, .rwp, 0, 31⟩, ⟨16, 9, .rwp, 0, 511⟩]⟩,
  ⟨0xD0044, 0x20, 17, 1, .one .ppa, false, 0x03840384, [⟨0, 13, .rwp, 0, 8191⟩, ⟨16, 13, .ro, 0, 8191⟩]⟩,
  ⟨0xD0048, 0x20, 17, 1, .one .ppa, false, 0x00640708, [⟨0, 14, .rwp, 0, 16383⟩, ⟨16, 10, .rwp, 0, 1023⟩]⟩,
  ⟨0xD004C, 0x20, 17, 1, .one .ppa, false, 0x0000FF08, [⟨0, 7, .rwp, 0, 127⟩, ⟨8, 8, .rwp, 0, 255⟩, ⟨16, 5, .ro, 0, 31⟩, ⟨21, 11, .ro, 0, 2047⟩]⟩,
  ⟨0xD0050, 0x20, 17, 1, .one .ppa, false, 0x00000000, [⟨0, 4, .ro, 0, 15⟩, ⟨4, 1, .ro, 0, 1⟩, ⟨5, 1, .ro, 0, 1⟩, ⟨6, 1, .ro, 0, 1⟩, ⟨7, 1, .ro, 0, 1⟩, ⟨8, 1, .ro, 0, 1⟩, ⟨9, 1, .ro, 0, 1⟩, ⟨10, 1, .ro, 0, 1⟩]⟩,
  ⟨0xD0054, 0x20, 17, 1, .one .ppa, false, 0x00000000, [⟨0, 1, .w1c, 0, 1⟩, ⟨1, 1, .w1c, 0, 1⟩, ⟨2, 1, .w1c, 0, 1⟩, ⟨3, 1, .w1c, 0, 1⟩, ⟨4, 1, .w1c, 0, 1⟩, ⟨5, 1, .w1c, 0, 1⟩, ⟨6, 1, .w1c, 0, 1⟩, ⟨7, 1, .w1c, 0, 1⟩, ⟨8, 1, .w1c, 0, 1⟩, ⟨9, 1, .w1c, 0, 1⟩, ⟨10, 1, .w1c, 0, 1⟩]⟩,
  ⟨0xD1000, 0x4, 1, 1, .one .ppa, true, 0x0001145A, [⟨0, 7, .rw, 80, 95⟩, ⟨8, 7, .rw, 5, 100⟩, ⟨16, 4, .rw, 1, 15⟩]⟩]

/-- Rows of block TLM. -/
def rowsTLM : List RegRow := [
  ⟨0xE0000, 0x4, 1, 1, .one .ppa, false, 0x00000000, [⟨0, 1, .rw, 0, 1⟩, ⟨1, 1, .ro, 0, 1⟩, ⟨2, 1, .ro, 0, 1⟩]⟩,
  ⟨0xE0004, 0x4, 1, 1, .one .ppa, false, 0x00000000, [⟨0, 17, .w1s, 0, 131071⟩]⟩,
  ⟨0xE0008, 0x4, 1, 1, .one .ppa, false, 0x00000000, [⟨0, 16, .ro, 0, 65535⟩, ⟨16, 16, .ro, 0, 65535⟩]⟩,
  ⟨0xE000C, 0x4, 1, 1, .one .ppa, false, 0x00000000, [⟨0, 8, .ro, 0, 255⟩, ⟨8, 8, .ro, 0, 255⟩, ⟨16, 8, .ro, 0, 255⟩, ⟨24, 8, .ro, 0, 255⟩]⟩,
  ⟨0xE0010, 0x4, 1, 1, .one .ppa, false, 0x00000000, [⟨0, 1, .ro, 0, 1⟩, ⟨1, 1, .w1c, 0, 1⟩, ⟨2, 1, .w1c, 0, 1⟩, ⟨3, 1, .w1c, 0, 1⟩, ⟨4, 1, .w1c, 0, 1⟩]⟩,
  ⟨0xE0040, 0x20, 17, 1, .one .ppa, false, 0x00000000, [⟨0, 16, .ro, 0, 65535⟩, ⟨16, 16, .ro, 0, 65535⟩]⟩,
  ⟨0xE0044, 0x20, 17, 1, .one .ppa, false, 0x00000000, [⟨0, 16, .ro, 0, 65535⟩, ⟨16, 16, .ro, 0, 65535⟩]⟩,
  ⟨0xE0048, 0x20, 17, 1, .one .ppa, false, 0x00000000, [⟨0, 16, .ro, 0, 65535⟩, ⟨16, 16, .ro, 0, 65535⟩]⟩,
  ⟨0xE004C, 0x20, 17, 1, .one .ppa, false, 0x00000000, [⟨0, 16, .ro, 0, 65535⟩, ⟨16, 16, .ro, 0, 65535⟩]⟩,
  ⟨0xE0050, 0x20, 17, 1, .one .ppa, false, 0x00000000, [⟨0, 16, .ro, 0, 65535⟩, ⟨16, 16, .ro, 0, 65535⟩]⟩,
  ⟨0xE0054, 0x20, 17, 1, .one .ppa, false, 0x00000000, [⟨0, 32, .ro, 0, 4294967295⟩]⟩,
  ⟨0xE0058, 0x20, 17, 1, .one .ppa, false, 0x00000000, [⟨0, 32, .ro, 0, 4294967295⟩]⟩,
  ⟨0xE005C, 0x20, 17, 1, .one .ppa, false, 0x00000000, [⟨0, 16, .ro, 0, 65535⟩, ⟨16, 1, .ro, 0, 1⟩]⟩]

/-- Rows of block BUD. -/
def rowsBUD : List RegRow := [
  ⟨0xF0000, 0x4, 1, 1, .one .ppa, false, 0x00000000, [⟨0, 1, .rw, 0, 1⟩]⟩,
  ⟨0xF0004, 0x4, 1, 1, .one .ppa, false, 0x012C0000, [⟨0, 16, .ro, 0, 65535⟩, ⟨16, 16, .ro, 0, 65535⟩]⟩,
  ⟨0xF0008, 0x4, 1, 1, .one .ppa, false, 0x00000000, [⟨0, 1, .ro, 0, 1⟩, ⟨1, 1, .ro, 0, 1⟩, ⟨2, 1, .ro, 0, 1⟩, ⟨3, 1, .ro, 0, 1⟩]⟩,
  ⟨0xF000C, 0x4, 1, 1, .one .ppa, false, 0x00000000, [⟨0, 1, .w1c, 0, 1⟩, ⟨1, 1, .w1c, 0, 1⟩, ⟨2, 1, .w1c, 0, 1⟩, ⟨3, 1, .w1c, 0, 1⟩]⟩,
  ⟨0xF0040, 0x4, 17, 1, .one .ppa, false, 0x00400000, [⟨0, 16, .ro, 0, 65535⟩, ⟨16, 1, .ro, 0, 1⟩, ⟨17, 1, .ro, 0, 1⟩, ⟨18, 1, .ro, 0, 1⟩, ⟨20, 3, .ro, 0, 7⟩]⟩,
  ⟨0xF0090, 0x4, 17, 1, .one .ppa, false, 0x00000000, [⟨0, 13, .ro, 0, 8191⟩]⟩,
  ⟨0xF1000, 0x4, 1, 1, .one .ppa, true, 0x0A195A5F, [⟨0, 7, .rw, 80, 99⟩, ⟨8, 7, .rw, 50, 99⟩, ⟨16, 7, .rw, 1, 100⟩, ⟨24, 4, .rw, 2, 15⟩]⟩,
  ⟨0xF1004, 0x4, 1, 1, .one .ppa, true, 0x00000032, [⟨0, 7, .rw, 10, 100⟩]⟩]

/-- Rows of block PDC. -/
def rowsPDC : List RegRow := [
  ⟨0x100000, 0x4, 1, 1, .one .aon, false, 0x00000000, [⟨0, 16, .rw, 0, 65535⟩, ⟨16, 1, .rw, 0, 1⟩]⟩,
  ⟨0x100004, 0x4, 1, 1, .one .aon, false, 0x00000000, [⟨0, 24, .ro, 0, 16777215⟩]⟩,
  ⟨0x100008, 0x4, 1, 1, .one .aon, false, 0x00000000, [⟨0, 1, .w1c, 0, 1⟩, ⟨1, 1, .w1c, 0, 1⟩, ⟨2, 1, .w1c, 0, 1⟩, ⟨3, 1, .w1c, 0, 1⟩, ⟨4, 1, .w1c, 0, 1⟩, ⟨16, 12, .w1c, 0, 4095⟩]⟩,
  ⟨0x10000C, 0x4, 1, 1, .one .aon, false, 0x00033200, [⟨0, 1, .ro, 0, 1⟩, ⟨1, 1, .rw, 0, 1⟩, ⟨8, 8, .rw, 1, 255⟩, ⟨16, 4, .rw, 2, 15⟩, ⟨24, 8, .ro, 0, 255⟩]⟩,
  ⟨0x100040, 0x4, 12, 1, .one .aon, false, 0x00000000, [⟨0, 2, .ro, 0, 3⟩, ⟨2, 3, .ro, 0, 7⟩, ⟨5, 2, .ro, 0, 3⟩, ⟨7, 2, .ro, 0, 3⟩, ⟨9, 3, .ro, 0, 7⟩, ⟨12, 4, .ro, 0, 15⟩, ⟨16, 16, .ro, 0, 65535⟩]⟩,
  ⟨0x100080, 0x4, 12, 1, .one .aon, false, 0x00000000, [⟨0, 32, .ro, 0, 4294967295⟩]⟩,
  ⟨0x1000C0, 0x4, 12, 1, .one .aon, false, 0x00000000, [⟨0, 2, .rw, 0, 2⟩]⟩,
  ⟨0x100108, 0x8, 11, 1, .one .aon, false, 0x00280807, [⟨0, 1, .rwp, 0, 1⟩, ⟨1, 1, .rwp, 0, 1⟩, ⟨2, 1, .rwp, 0, 1⟩, ⟨8, 8, .rwp, 0, 255⟩, ⟨16, 14, .rwp, 0, 16383⟩]⟩,
  ⟨0x10010C, 0x8, 11, 1, .one .aon, false, 0x000000C8, [⟨0, 16, .rwp, 0, 65535⟩]⟩,
  ⟨0x101000, 0x4, 1, 1, .one .aon, true, 0x01352832, [⟨0, 8, .rw, 10, 255⟩, ⟨8, 8, .rw, 16, 100⟩, ⟨16, 4, .rw, 2, 15⟩, ⟨20, 2, .rw, 0, 3⟩, ⟨24, 4, .rw, 1, 15⟩]⟩]

/-- Rows of block MBX. -/
def rowsMBX : List RegRow := [
  ⟨0x110000, 0x80, 12, 16, .one .aon, false, 0x00000000, [⟨0, 32, .rw, 0, 4294967295⟩]⟩,
  ⟨0x110040, 0x80, 12, 16, .one .aon, false, 0x00000000, [⟨0, 32, .rw, 0, 4294967295⟩]⟩,
  ⟨0x110600, 0x10, 12, 1, .one .aon, false, 0x00000000, [⟨0, 1, .rw, 0, 1⟩, ⟨1, 5, .rw, 0, 31⟩, ⟨6, 1, .rw, 0, 1⟩, ⟨8, 4, .rw, 0, 15⟩, ⟨16, 4, .ro, 0, 15⟩, ⟨24, 3, .ro, 0, 7⟩]⟩,
  ⟨0x110604, 0x10, 12, 1, .one .aon, false, 0x00010000, [⟨0, 1, .rw, 0, 1⟩, ⟨1, 5, .rw, 0, 31⟩, ⟨6, 1, .rw, 0, 1⟩, ⟨8, 4, .rw, 0, 15⟩, ⟨16, 4, .ro, 0, 15⟩, ⟨24, 3, .rw, 0, 7⟩]⟩,
  ⟨0x110608, 0x10, 12, 1, .one .aon, false, 0x00000000, [⟨0, 1, .w1c, 0, 1⟩, ⟨1, 1, .w1c, 0, 1⟩, ⟨2, 2, .ro, 0, 3⟩, ⟨16, 16, .ro, 0, 65535⟩]⟩,
  ⟨0x11060C, 0x10, 12, 1, .one .aon, false, 0x00000000, [⟨0, 1, .w1c, 0, 1⟩, ⟨1, 1, .w1c, 0, 1⟩, ⟨2, 1, .w1c, 0, 1⟩, ⟨3, 1, .w1c, 0, 1⟩, ⟨4, 3, .ro, 0, 7⟩, ⟨8, 8, .ro, 0, 255⟩]⟩,
  ⟨0x110700, 0x4, 12, 1, .one .aon, false, 0x00640000, [⟨0, 4, .rwp, 0, 15⟩, ⟨4, 1, .rwp, 0, 1⟩, ⟨16, 14, .rwp, 0, 16383⟩]⟩,
  ⟨0x110800, 0x4, 16, 1, .one .aon, false, 0x00000000, [⟨0, 4, .ra, 0, 15⟩, ⟨30, 1, .ro, 0, 1⟩, ⟨31, 1, .ro, 0, 1⟩]⟩,
  ⟨0x110840, 0x4, 1, 1, .one .aon, false, 0x00000000, [⟨0, 32, .ro, 0, 4294967295⟩]⟩,
  ⟨0x110844, 0x4, 1, 1, .one .aon, false, 0x00000000, [⟨0, 32, .ro, 0, 4294967295⟩]⟩,
  ⟨0x110850, 0x4, 1, 1, .one .aon, false, 0x00000000, [⟨0, 1, .w1c, 0, 1⟩, ⟨1, 1, .w1c, 0, 1⟩, ⟨2, 1, .w1c, 0, 1⟩, ⟨8, 4, .ro, 0, 15⟩, ⟨12, 4, .ro, 0, 15⟩]⟩,
  ⟨0x111000, 0x4, 1, 1, .one .aon, true, 0x00000001, [⟨0, 4, .rw, 1, 15⟩]⟩]

/-- Rows of block TKR. -/
def rowsTKR : List RegRow := [
  ⟨0x120000, 0x4, 1, 1, .one .mgt, false, 0x00000006, [⟨0, 1, .rw, 0, 1⟩, ⟨1, 1, .rw, 0, 1⟩, ⟨2, 1, .rw, 0, 1⟩]⟩,
  ⟨0x120010, 0x4, 2, 1, .one .mgt, false, 0x00000000, [⟨0, 3, .ro, 0, 7⟩, ⟨3, 1, .ro, 0, 1⟩, ⟨4, 7, .ro, 0, 127⟩, ⟨11, 1, .ro, 0, 1⟩, ⟨12, 1, .ro, 0, 1⟩, ⟨13, 3, .ro, 0, 7⟩, ⟨16, 2, .ro, 0, 3⟩, ⟨18, 1, .ro, 0, 1⟩, ⟨19, 1, .ro, 0, 1⟩, ⟨20, 1, .ro, 0, 1⟩]⟩,
  ⟨0x120020, 0x4, 2, 1, .one .mgt, false, 0x00000000, [⟨0, 1, .w1c, 0, 1⟩, ⟨1, 1, .w1c, 0, 1⟩, ⟨2, 1, .w1c, 0, 1⟩, ⟨3, 1, .w1c, 0, 1⟩, ⟨4, 1, .w1c, 0, 1⟩]⟩,
  ⟨0x120030, 0x4, 1, 1, .one .aon, false, 0x00000000, [⟨0, 7, .ro, 0, 127⟩, ⟨7, 1, .rw, 0, 1⟩]⟩,
  ⟨0x120034, 0x4, 1, 1, .one .aon, false, 0x00000000, [⟨0, 1, .ro, 0, 1⟩, ⟨1, 1, .ro, 0, 1⟩, ⟨2, 1, .ro, 0, 1⟩, ⟨3, 1, .ro, 0, 1⟩, ⟨16, 1, .ro, 0, 1⟩]⟩,
  ⟨0x120038, 0x4, 1, 1, .one .aon, false, 0x0000000F, [⟨0, 4, .rw, 0, 15⟩]⟩,
  ⟨0x120040, 0x4, 1, 1, .one .mgt, false, 0x00000000, [⟨0, 8, .ro, 0, 255⟩, ⟨8, 8, .ro, 0, 255⟩, ⟨16, 8, .ro, 0, 255⟩, ⟨24, 8, .ro, 0, 255⟩]⟩,
  ⟨0x121000, 0x4, 1, 1, .one .mgt, true, 0x012C0A32, [⟨0, 8, .rw, 1, 255⟩, ⟨8, 5, .rw, 1, 20⟩, ⟨16, 12, .rw, 10, 3600⟩]⟩]

/-- Rows of block OBS. -/
def rowsOBS : List RegRow := [
  ⟨0x140000, 0x20, 4, 1, .one .mgt, false, 0x00000002, [⟨0, 1, .wo, 0, 1⟩, ⟨1, 1, .rw, 0, 1⟩, ⟨2, 10, .rw, 0, 1000⟩, ⟨12, 4, .rw, 0, 11⟩, ⟨16, 2, .ro, 0, 3⟩]⟩,
  ⟨0x140004, 0x20, 4, 1, .one .mgt, false, 0x00000000, [⟨0, 32, .ro, 0, 4294967295⟩]⟩,
  ⟨0x140008, 0x20, 4, 1, .one .mgt, false, 0x00000000, [⟨0, 13, .ro, 0, 8191⟩, ⟨13, 11, .ro, 0, 2047⟩, ⟨24, 1, .w1c, 0, 1⟩, ⟨25, 1, .w1c, 0, 1⟩, ⟨26, 1, .w1c, 0, 1⟩, ⟨27, 1, .ro, 0, 1⟩, ⟨28, 1, .ro, 0, 1⟩]⟩,
  ⟨0x14000C, 0x20, 4, 1, .one .mgt, false, 0x00000000, [⟨0, 13, .ro, 0, 8191⟩, ⟨16, 13, .ro, 0, 8191⟩]⟩,
  ⟨0x140080, 0x4, 4, 1, .one .aon, false, 0x00000000, [⟨0, 16, .ro, 0, 65535⟩]⟩,
  ⟨0x140100, 0x4, 1, 1, .one .mgt, false, 0x00000000, [⟨0, 32, .ro, 0, 4294967295⟩]⟩,
  ⟨0x140104, 0x4, 1, 1, .one .mgt, false, 0x00000000, [⟨0, 32, .ro, 0, 4294967295⟩]⟩,
  ⟨0x140110, 0x4, 1, 1, .one .mgt, false, 0x00000000, [⟨0, 1, .rw, 0, 1⟩, ⟨1, 1, .rw, 0, 1⟩, ⟨2, 1, .ro, 0, 1⟩]⟩,
  ⟨0x140114, 0x4, 1, 1, .one .mgt, false, 0x00000000, [⟨0, 8, .w1c, 0, 255⟩]⟩,
  ⟨0x140140, 0x10, 8, 1, .one .mgt, false, 0x0000FF00, [⟨0, 8, .rw, 0, 255⟩, ⟨8, 8, .rw, 0, 255⟩, ⟨16, 1, .rw, 0, 1⟩, ⟨17, 1, .wo, 0, 1⟩]⟩,
  ⟨0x140144, 0x10, 8, 1, .one .mgt, false, 0x00000000, [⟨0, 32, .rw, 0, 4294967295⟩]⟩,
  ⟨0x140148, 0x10, 8, 1, .one .mgt, false, 0x00000000, [⟨0, 16, .rw, 0, 65535⟩]⟩]

/-- Rows of block FLT. -/
def rowsFLT : List RegRow := [
  ⟨0x130000, 0x4, 1, 1, .one .aon, false, 0x00000000, [⟨0, 1, .ro, 0, 1⟩, ⟨1, 1, .ro, 0, 1⟩, ⟨2, 2, .ro, 0, 3⟩, ⟨4, 7, .ro, 0, 127⟩, ⟨11, 1, .ro, 0, 1⟩, ⟨12, 1, .w1c, 0, 1⟩]⟩,
  ⟨0x130004, 0x4, 1, 1, .one .aon, false, 0x00000000, [⟨0, 1, .ro, 0, 1⟩, ⟨1, 1, .ro, 0, 1⟩]⟩,
  ⟨0x130008, 0x4, 1, 1, .one .aon, false, 0x00000000, [⟨0, 2, .ro, 0, 3⟩, ⟨2, 2, .ro, 0, 3⟩, ⟨4, 1, .w1c, 0, 1⟩, ⟨5, 1, .w1c, 0, 1⟩, ⟨6, 2, .ro, 0, 3⟩, ⟨16, 16, .ro, 0, 65535⟩]⟩,
  ⟨0x130010, 0x4, 4, 1, .one .aon, false, 0x00000000, [⟨0, 32, .ro, 0, 4294967295⟩]⟩,
  ⟨0x130020, 0x4, 1, 1, .one .aon, false, 0x00000000, [⟨0, 7, .wo, 0, 127⟩, ⟨7, 1, .wo, 0, 1⟩, ⟨8, 8, .wo, 0, 255⟩, ⟨16, 1, .wo, 0, 1⟩]⟩,
  ⟨0x130040, 0x4, 8, 1, .one .aon, false, 0x00000000, [⟨0, 32, .rwp, 0, 4294967295⟩]⟩,
  ⟨0x130060, 0x4, 4, 1, .one .aon, false, 0x00000000, [⟨0, 32, .rwp, 0, 4294967295⟩]⟩,
  ⟨0x130100, 0x4, 128, 1, .one .aon, false, 0x0000FFFF, [⟨0, 8, .ro, 0, 255⟩, ⟨8, 8, .ro, 0, 255⟩, ⟨16, 16, .ro, 0, 65535⟩]⟩,
  ⟨0x131000, 0x4, 1, 1, .one .aon, true, 0x0000FF00, [⟨0, 7, .rw, 0, 127⟩, ⟨8, 8, .rw, 0, 255⟩, ⟨16, 1, .wo, 0, 1⟩]⟩,
  ⟨0x131004, 0x4, 1, 1, .one .aon, true, 0x00000000, [⟨0, 1, .w1s, 0, 1⟩, ⟨1, 1, .w1s, 0, 1⟩, ⟨2, 1, .w1s, 0, 1⟩, ⟨3, 1, .w1s, 0, 1⟩, ⟨4, 1, .w1s, 0, 1⟩, ⟨5, 1, .w1s, 0, 1⟩, ⟨8, 4, .w1s, 0, 15⟩]⟩]

/-- Rows of block TOP. -/
def rowsTOP : List RegRow := [
  ⟨0x00000, 0x4, 1, 1, .one .aon, false, 0x5A150002, [⟨0, 32, .ro, 0, 4294967295⟩]⟩,
  ⟨0x00004, 0x4, 1, 1, .one .aon, false, 0x00000000, [⟨0, 2, .ro, 0, 3⟩, ⟨2, 1, .ro, 0, 1⟩, ⟨3, 3, .ro, 0, 7⟩, ⟨6, 1, .ro, 0, 1⟩, ⟨8, 1, .ro, 0, 1⟩]⟩,
  ⟨0x00008, 0x4, 1, 1, .one .aon, false, 0x00000FF0, [⟨0, 3, .ro, 0, 7⟩, ⟨3, 1, .ro, 0, 1⟩, ⟨4, 8, .ro, 0, 255⟩, ⟨12, 4, .ro, 0, 15⟩]⟩,
  ⟨0x0000C, 0x4, 1, 1, .one .aon, false, 0x00000001, [⟨0, 1, .w1c, 0, 1⟩, ⟨1, 1, .w1c, 0, 1⟩, ⟨2, 1, .w1c, 0, 1⟩, ⟨3, 1, .w1c, 0, 1⟩, ⟨4, 1, .w1c, 0, 1⟩]⟩,
  ⟨0x00010, 0x4, 1, 1, .one .aon, false, 0x00000000, [⟨0, 16, .ro, 0, 65535⟩, ⟨16, 16, .ro, 0, 65535⟩]⟩,
  ⟨0x01004, 0x4, 1, 1, .one .aon, true, 0x00000000, [⟨0, 16, .wo, 0, 65535⟩]⟩,
  ⟨0x00014, 0x4, 2, 1, .one .aon, false, 0x00000000, [⟨0, 16, .wo, 0, 65535⟩]⟩,
  ⟨0x0001C, 0x4, 1, 1, .one .aon, false, 0x00000102, [⟨0, 16, .ro, 0, 65535⟩, ⟨16, 16, .ro, 0, 65535⟩]⟩,
  ⟨0x00020, 0x4, 1, 1, .one .aon, false, 0x00000000, [⟨0, 1, .w1c, 0, 1⟩, ⟨1, 1, .w1c, 0, 1⟩, ⟨2, 1, .w1c, 0, 1⟩, ⟨3, 1, .w1c, 0, 1⟩, ⟨4, 4, .ro, 0, 15⟩, ⟨8, 24, .ro, 0, 16777215⟩]⟩]

/-- Rows of block STL. -/
def rowsSTL : List RegRow := [
  ⟨0x90000, 0x4, 15, 1, .byStall, false, 0x003F0000, [⟨0, 3, .rwp, 0, 7⟩, ⟨4, 2, .rwp, 0, 3⟩, ⟨8, 8, .rwp, 0, 255⟩, ⟨16, 6, .rwp, 0, 63⟩, ⟨22, 1, .ro, 0, 1⟩]⟩,
  ⟨0x90040, 0x4, 28, 1, .byLane, false, 0x00002840, [⟨0, 1, .rwp, 0, 1⟩, ⟨1, 1, .rwp, 0, 1⟩, ⟨2, 1, .rwp, 0, 1⟩, ⟨4, 4, .rwp, 0, 10⟩, ⟨8, 4, .rwp, 0, 15⟩, ⟨12, 2, .rwp, 0, 3⟩, ⟨16, 3, .ro, 0, 7⟩]⟩]

/-- Rows of block GPI. -/
def rowsGPI : List RegRow := [
  ⟨0x150000, 0x4, 32, 1, .one .aon, false, 0x00000000, [⟨0, 3, .rwp, 0, 7⟩, ⟨4, 4, .rwp, 0, 15⟩, ⟨8, 1, .rwp, 0, 1⟩, ⟨9, 1, .rwp, 0, 1⟩, ⟨10, 1, .rwp, 0, 1⟩, ⟨11, 1, .rwp, 0, 1⟩]⟩,
  ⟨0x150080, 0x4, 1, 1, .one .aon, false, 0x00000000, [⟨0, 32, .ro, 0, 4294967295⟩]⟩,
  ⟨0x150084, 0x4, 1, 1, .one .aon, false, 0x00000000, [⟨0, 32, .rw, 0, 4294967295⟩]⟩]

/-! ## Lookup -/

/-- The rows of one 64 KiB block, by block number (R365). -/
def rowsOfBlock : Nat → List RegRow
  | 0 => rowsTOP
  | 1 => rowsPLN
  | 2 => rowsYRD
  | 3 => rowsTML
  | 4 => rowsSSH
  | 5 => rowsPBF
  | 6 => rowsHSH
  | 7 => rowsTTA
  | 8 => rowsUPP
  | 9 => rowsSTL
  | 10 => rowsGLK
  | 11 => rowsDRV
  | 12 => rowsTCP
  | 13 => rowsPPW
  | 14 => rowsTLM
  | 15 => rowsBUD
  | 16 => rowsPDC
  | 17 => rowsMBX
  | 18 => rowsTKR
  | 19 => rowsFLT
  | 20 => rowsOBS
  | 21 => rowsGPI
  | _ => []

/-- Does the row name this address: one of its elements' words? -/
def RegRow.covers (r : RegRow) (a : Nat) : Bool :=
  decide (r.base ≤ a) && decide ((a - r.base) / r.stride < r.count)
    && decide ((a - r.base) % r.stride < 4 * r.words) && decide ((a - r.base) % 4 = 0)

/-- The index n of the element of the row that the address names. -/
def RegRow.index (r : RegRow) (a : Nat) : Nat := (a - r.base) / r.stride

/-- The register row an address names (R366: none is an unmapped address). -/
def rowOf (a : Nat) : Option RegRow := (rowsOfBlock (a / 0x10000)).find? fun r => r.covers a

/-- Default severities of R328, two bits a source, for the eight FLT_SEV words (fixed sources read 3). -/
def fltSevReset (k : Nat) : Nat := match k with | 0 => 0x01A0A8FF | 2 => 0x00000010 | 4 => 0x00000005 | 5 => 0x00000555 | _ => 0

/-- Cells reserved for ingress queue q at reset, with its SHARE_MAX in bits 31:16 (R109). -/
def pbfResvReset (q : Nat) : Nat :=
  if q < 14 then 0x10000100
  else if q = 14 then 0x20000200
  else if q < 17 then 0x40000400
  else if q < 21 then 0x40000800
  else 512

/-- Party of mailbox channel c with no MAILBOX section and no keys (R51). -/
def mbxPartyReset (c : Nat) : Nat := if c < 7 then c + 2 else 0

/-- The word a register holds after POR (R11): the Reset column of its table; by index where the column says so. -/
def resetWord (a : Nat) : BitVec 32 :=
  if 0x50040 ≤ a ∧ a < 0x50098 then BitVec.ofNat 32 (pbfResvReset ((a - 0x50040) / 4))
  else if 0x130040 ≤ a ∧ a < 0x130060 then BitVec.ofNat 32 (fltSevReset ((a - 0x130040) / 4))
  else if a = YRD_STATUS.addr 4 then 0x13
  else if a = PDC_VOTE.addr 0 then 0
  else if a = PDC_CFG.addr 1 ∨ a = PDC_CFG.addr 2 then 0x00280805
  else if 0x110700 ≤ a ∧ a < 0x110730 then
    BitVec.ofNat 32 (100 * 0x10000 + mbxPartyReset ((a - 0x110700) / 4))
  else match rowOf a with
    | some r => BitVec.ofNat 32 r.reset
    | none => 0

end Sys2Proof.Machine
end

