-- ==== Sys2Proof/Machine/PlanParse.lean ====
section
/-!
DEFINITION. Reading and checking the sections of a Yard Plan, field by field in offset order (R28 step 4, R31 to R54).
A failure is the 16-bit validation code of the table that names the field.
-/
namespace Sys2Proof.Machine

/-- A check that fails with a validation code. -/
abbrev Chk (α : Type) := Except Nat α

/-- Go on only if the condition holds; else report the code. -/
def need (c : Bool) (code : Nat) : Chk Unit := if c then .ok () else .error code

/-- The byte at an offset; 0 beyond the end. -/
def u8 (b : List Byte) (o : Nat) : Nat := (b.getD o 0).toNat

/-- The little-endian number of `n` bytes at an offset (R4). -/
def uN (b : List Byte) (o n : Nat) : Nat := leNat ((List.range n).map fun i => b.getD (o + i) 0)

/-- The 16-bit value at an offset (R4). -/
def u16 (b : List Byte) (o : Nat) : Nat := uN b o 2

/-- The 32-bit value at an offset (R4). -/
def u32 (b : List Byte) (o : Nat) : Nat := uN b o 4

/-- Are the `n` bytes from an offset all zero? -/
def zeros (b : List Byte) (o n : Nat) : Bool := (List.range n).all fun i => u8 b (o + i) = 0

/-- A stall reference's member and stall (R35); `none` when it is no reference. -/
def stallRef (r : Nat) : Option (Nat × Nat) :=
  if r < 128 ∧ r % 16 < 15 then some (r / 16, r % 16) else none

/-- The channel index of a port code (R35, R225): stalls 0 to 14, UP0 15, UP1 16. -/
def portIx (code : Nat) : Option Nat :=
  if code ≤ 14 then some code else if code = 0x20 then some 15 else if code = 0x21 then some 16 else none

/-- The port code of a channel index (R35, R225). -/
def portCode (n : Nat) : Nat := if n ≤ 14 then n else n - 15 + 0x20

/-- `n` padded up to a multiple of `m`. -/
def padTo (m n : Nat) : Nat := (n + m - 1) / m * m

/-- Read `n` entries, each from its index and the entries before it. -/
def parseList {α : Type} (f : Nat → List α → Chk α) : Nat → Chk (List α)
  | 0 => .ok []
  | n + 1 => do
    let l ← parseList f n
    let x ← f n l
    .ok (l ++ [x])

/-- The usual preamble: a count, two reserved bytes, entries of one size, zero padding (R34); `last` is what is judged
once the last entry has been checked. -/
def counted {α : Type} (b : List Byte) (typ size max : Nat) (f : Nat → List α → Chk α)
    (last : List α → Chk Unit := fun _ => .ok ()) : Chk (List α) := do
  let n := u16 b 8
  need (n ≤ max && b.length == padTo 8 (12 + n * size)) (typ * 256 + 1)
  need (zeros b 10 2) 0x0017
  let l ← parseList (fun i acc => f (12 + i * size) acc) n
  last l
  need (zeros b (12 + n * size) (b.length - (12 + n * size))) 0x0017
  .ok l

/-- A STALLS entry (R36). -/
def parseStall (b : List Byte) (o : Nat) (acc : List StallE) : Chk StallE := do
  let m := u8 b o; let st := u8 b (o+1); let t := u8 b (o+2); let fl := u8 b (o+3)
  need (m ≤ 7) 0x1002
  need (st ≤ 14) 0x1003
  need (acc.all fun e => ¬(e.member = m ∧ e.stall = st)) 0x1004
  need (t ≤ 5) 0x1005
  need (fl < 128 && (!bitOf fl 0 || t == 2) && ((!bitOf fl 1 && !bitOf fl 2) || t == 1 || t == 5)
    && !(bitOf fl 1 && bitOf fl 2) && (!bitOf fl 3 || t == 2 || t == 3)) 0x1009
  need (u8 b (o+4) ≤ 3) 0x1006
  let seat := u8 b (o+5)
  need (if bitOf fl 5 then seat ≤ 7 && acc.all fun e => ¬(e.member = m ∧ e.seat = seat) else seat = 0xFF) 0x1007
  need (u8 b (o+6) ≤ 7) 0x100B
  let orient := u8 b (o+7); let ss := u8 b (o+8)
  need (if (t = 2 ∨ t = 3) ∧ ss ≠ 0 then orient ≤ 31 else orient = 0xFF) 0x100A
  need (ss ≤ 3 && (ss != 3 || st == 14) && (t != 5 || ss == 0)) 0x1008
  need (zeros b (o+9) 3) 0x0017
  .ok ⟨m, st, t, fl, u8 b (o+4), seat, u8 b (o+6), orient, ss⟩

/-- A LANES entry (R37). -/
def parseLane (b : List Byte) (o : Nat) (acc : List LaneE) : Chk LaneE := do
  let m := u8 b o; let l := u8 b (o+1)
  need (m ≤ 7) 0x1102
  need ((l ≤ 0x0F || (0x20 ≤ l && l ≤ 0x23) || (0x30 ≤ l && l ≤ 0x37))
    && acc.all fun e => ¬(e.member = m ∧ e.lane = l)) 0x1103
  need (u8 b (o+2) < 8) 0x1104
  need (u8 b (o+3) ≤ 10) 0x1105
  need (u8 b (o+4) ≤ 15) 0x1105
  need (u8 b (o+5) ≤ 3) 0x1105
  need (zeros b (o+6) 2) 0x0017
  .ok ⟨m, l, u8 b (o+2), u8 b (o+3), u8 b (o+4), u8 b (o+5)⟩

/-- The fifteen port entries of a paddock (`root`) or pen record, in port order (R38, R39). -/
def parsePorts (b : List Byte) (o : Nat) (root : Bool) (limit pens : Nat) : Chk (List PortE) :=
  parseList (fun i acc => do
    let k := u8 b (o + 2*i); let r := u8 b (o + 2*i + 1)
    need (match k with
      | 0 => r = 0
      | 1 => (stallRef r).isSome
      | 2 => root && decide (r < pens) && acc.all fun e => ¬(e.kind = 2 ∧ e.ref = r)
      | 3 => root && decide (r = 0)
      | _ => false) 0x2005
    need (i < limit || k = 0) 0x2005
    .ok ⟨k, r⟩) 15

/-- A pen record (R38). -/
def parsePen (b : List Byte) (o k : Nat) (root : List PortE) : Chk PenR := do
  need (u8 b o ≤ 7) 0x2006
  let n := u8 b (o+1); let par := u8 b (o+2)
  need (1 ≤ n && n ≤ 15) 0x2004
  need (1 ≤ par && par ≤ 15 && (root.getD (par - 1) ⟨0, 0⟩ == ⟨2, k⟩)) 0x2007
  need (zeros b (o+3) 1) 0x0017
  let ps ← parsePorts b (o+4) false n 0
  need (zeros b (o+34) 2) 0x0017
  .ok ⟨u8 b o, n, par, ps⟩

/-- A paddock record with its pens (R38, R39). 0x2008 is judged after the last of the fifteen port entries (DESIGN CHOICE,
log entry 129). -/
def parsePaddock (b : List Byte) (o : Nat) (acc : List PaddockR) : Chk PaddockR := do
  let slot := u8 b o; let fl := u8 b (o+3); let n := u8 b (o+4); let pc := u8 b (o+5); let dp := u8 b (o+7)
  need (slot ≤ 3 && acc.all fun e => ¬(e.slot = slot)) 0x2001
  need (u8 b (o+1) ≤ 7) 0x2002
  need (u8 b (o+2) ≤ 1) 0x2002
  need (fl < 16 && (!bitOf fl 3 || bitOf fl 2)) 0x2003
  need (1 ≤ n && n ≤ 15) 0x2004
  need (pc ≤ 15) 0x2004
  need (zeros b (o+6) 1) 0x0017
  need (dp < 8 && (dp == 0 || bitOf fl 2)) 0x2003
  let ps ← parsePorts b (o+8) true n pc
  need ((ps.filter fun e => e.kind = 3).length = b2n (bitOf fl 0)) 0x2008
  need (zeros b (o+38) 2) 0x0017
  let pens ← parseList (fun k _ => parsePen b (o + 40 + 36*k) k ps) pc
  .ok ⟨slot, u8 b (o+1), u8 b (o+2), fl, n, pc, dp, ps, pens⟩

/-- Offsets of `n` records of varying size, and the offset after the last. -/
def recordOffsets (size : Nat → Nat) : Nat → Nat → List Nat
  | 0, o => [o]
  | n + 1, o => o :: recordOffsets size n (o + size o)

/-- A section of `n` records of varying size after a usual preamble (R34). The lengths the records name (PEN_COUNT, the
string lengths) are held against LENGTH at the count, before the records' own fields (DESIGN CHOICE, log entry 129). -/
def countedVar {α : Type} (b : List Byte) (typ max : Nat) (size : Nat → Nat) (f : Nat → List α → Chk α) :
    Chk (List α) := do
  let n := u16 b 8
  need (n ≤ max) (typ * 256 + 1)
  let offs := recordOffsets size n 12
  let stop := offs.getD n 0
  need (b.length == padTo 8 stop) (typ * 256 + 1)
  need (zeros b 10 2) 0x0017
  let l ← parseList (fun i acc => f (offs.getD i 0) acc) n
  need (zeros b stop (b.length - stop)) 0x0017
  .ok l

/-- Is every surrogate of a UTF-16 string paired? (R40) -/
def utf16Ok : List Nat → Bool
  | [] => true
  | [a] => !(0xD800 ≤ a && a < 0xE000)
  | a :: c :: t =>
    if 0xD800 ≤ a && a < 0xDC00 then 0xDC00 ≤ c && c < 0xE000 && utf16Ok t
    else !(0xDC00 ≤ a && a < 0xE000) && utf16Ok (c :: t)

/-- `n` UTF-16LE units at an offset. -/
def units (b : List Byte) (o n : Nat) : List Nat := (List.range n).map fun i => u16 b (o + 2*i)

/-- Size of the DESCRIPTORS record at an offset (R40). -/
def descSize (b : List Byte) (o : Nat) : Nat := padTo 4 (32 + 2 * (u8 b (o+2) + u8 b (o+3) + u8 b (o+4)))

/-- A DESCRIPTORS record (R40). A padding byte of the record that is not 0 is 0x0017, as any padding is (DESIGN CHOICE, log
entry 129). -/
def parseDesc (b : List Byte) (pads : List PaddockR) (o : Nat) (acc : List DescR) : Chk DescR := do
  let slot := u8 b o; let fl := u8 b (o+1); let m := u8 b (o+2); let p := u8 b (o+3); let s := u8 b (o+4)
  need ((pads.any fun e => e.slot = slot) && acc.all fun e => ¬(e.slot = slot)) 0x2101
  need (fl < 2) 0x2102
  need (1 ≤ m && m ≤ 63) 0x2103
  need (1 ≤ p && p ≤ 63) 0x2103
  need (if bitOf fl 0 then s = 0 else 1 ≤ s ∧ s ≤ 63) 0x2103
  need (zeros b (o+5) 3) 0x0017
  let okId (x : Nat) : Bool := 1 ≤ x && x ≤ 0xFFFE
  need (okId (u16 b (o+8))) 0x2104
  need (okId (u16 b (o+10))) 0x2104
  need (okId (u16 b (o+12))) 0x2104
  need (u8 b (o+31) = 0) 0x2105
  let sm := units b (o+32) m; let sp := units b (o+32+2*m) p; let ss := units b (o+32+2*m+2*p) s
  need (utf16Ok sm && utf16Ok sp && utf16Ok ss) 0x2106
  let used := 32 + 2*(m+p+s)
  need (zeros b (o+used) (descSize b o - used)) 0x0017
  .ok ⟨slot, fl, u16 b (o+8), u16 b (o+10), u16 b (o+12), u16 b (o+14), (b.drop (o+16)).take 16, sm, sp, ss⟩

/-- A BARN link entry (R42). The rule gives 0x3009, which belongs to a pair of fields, no offset: here both ends are judged
after LINK_B and before CARRY (DESIGN CHOICE, log entry 129). -/
def parseLink (b : List Byte) (members o : Nat) (acc : List LinkE) : Chk LinkE := do
  let ma := u8 b o; let la := u8 b (o+1); let mb := u8 b (o+2); let lb := u8 b (o+3)
  let used (m l : Nat) : Bool := acc.any fun e => (e.memberA = m ∧ e.linkA = l) ∨ (e.memberB = m ∧ e.linkB = l)
  need (ma ≤ 7 && ma < mb) 0x3007
  need (la ≤ 3) 0x3007
  need (mb < members) 0x3007
  need (lb ≤ 3) 0x3007
  need (!used ma la && !used mb lb) 0x3009
  need (u8 b (o+4) ≤ 3 || u8 b (o+4) = 0xFF) 0x3008
  need (u8 b (o+5) < 2) 0x3008
  need (zeros b (o+6) 2) 0x0017
  .ok ⟨ma, la, mb, lb, u8 b (o+4), u8 b (o+5)⟩

/-- The BARN section (R42). LENGTH is held against the link count at LINKS; a section of a header alone, in which no field
stands, is 0x3001 at once (DESIGN CHOICE, log entry 129). -/
def parseBarn (b : List Byte) : Chk BarnR := do
  let n := u8 b 8; let src := u8 b 9; let pin := u8 b 10; let el := u8 b 11; let k := u8 b 14
  need (b.length ≥ 16) 0x3001
  need (1 ≤ n && n ≤ 8) 0x3002
  need (src ≤ 1) 0x3003
  need (pin < n || pin = 0xFF) 0x3004
  need (el != 0 && (pin == 0xFF || bitOf el pin)) 0x3004
  need (50 ≤ u16 b 12 && u16 b 12 ≤ 2000) 0x3005
  need (k ≤ 16 && b.length == padTo 8 (88 + 8*k)) 0x3001
  need (zeros b 15 1) 0x0017
  let uids := (List.range 8).map fun i => uN b (24 + 8*i) 8
  need (if src = 0 then (uids.take n).all (· ≠ 0) && decide (uids.take n).Nodup && (uids.drop n).all (· = 0)
    else uids.all (· = 0)) 0x3006
  let links ← parseList (fun i acc => parseLink b n (88 + 8*i) acc) k
  .ok ⟨n, src, pin, el, u16 b 12, uN b 16 8, uids, links⟩

/-- A POWER entry (R43). -/
def parsePower (b : List Byte) (o : Nat) (acc : List PowerE) : Chk PowerE := do
  let m := u8 b o
  need (m ≤ 7 && acc.all fun e => ¬(e.member = m)) 0x4002
  need (u8 b (o+1) < 16) 0x4003
  need (u8 b (o+2) ≤ 7) 0x4004
  need (u8 b (o+3) ≤ 7) 0x4004
  need (5000 ≤ u32 b (o+4) && u32 b (o+4) ≤ 1000000) 0x4005
  let w := u16 b (o+8); let v := u16 b (o+10)
  need (4500 ≤ w && w ≤ 60000 && v ≤ w) 0x4006
  need (4500 ≤ v && v ≤ 60000) 0x4006
  need (100 ≤ u16 b (o+12) && u16 b (o+12) ≤ 50000) 0x4007
  need (1 ≤ u16 b (o+14) && u16 b (o+14) ≤ 6000) 0x4007
  .ok ⟨m, u8 b (o+1), u8 b (o+2), u8 b (o+3), u32 b (o+4), w, v, u16 b (o+12), u16 b (o+14)⟩

/-! ## Power data objects, in the layout of USB PD 3.2 (PRESUMED, log entry 6) -/

/-- Kind of a PDO: 0 fixed, 3 SPR PPS, 4 EPR AVS, 9 any other. -/
def pdoKind (w : Nat) : Nat :=
  if w / 2^30 = 0 then 0 else if w / 2^28 = 12 then 3 else if w / 2^28 = 13 then 4 else 9

/-- Fixed voltage of a PDO, mV. -/
def pdoFixedMv (w : Nat) : Nat := bitsOf w 10 10 * 50

/-- Highest voltage of a PDO, mV. -/
def pdoMaxMv (w : Nat) : Nat :=
  if pdoKind w = 0 then pdoFixedMv w else if pdoKind w = 3 then bitsOf w 17 8 * 100 else bitsOf w 17 9 * 100

/-- Lowest voltage of a PDO, mV. -/
def pdoMinMv (w : Nat) : Nat := if pdoKind w = 0 then pdoFixedMv w else bitsOf w 8 8 * 100

/-- Highest current of a PDO, mA: for EPR AVS its PDP at its lowest voltage, at most 5 A (rule 0xC00B). -/
def pdoMaxMa (w : Nat) : Nat :=
  if pdoKind w = 0 then bitsOf w 0 10 * 10
  else if pdoKind w = 3 then bitsOf w 0 7 * 50
  else min 5000 (bitsOf w 0 8 * 1000000 / max 1 (pdoMinMv w))

/-- Highest power of a PDO, mW. -/
def pdoMaxMw (w : Nat) : Nat :=
  if pdoKind w = 4 then bitsOf w 0 8 * 1000 else pdoMaxMv w * pdoMaxMa w / 1000

/-- The PDO at index i obeys R45, given the ones before it in its group (SPR or EPR). -/
def pdoOk (epr : Bool) (i w : Nat) (before : List Nat) : Bool :=
  if pdoKind w = 0 then
    (if epr then [28000, 36000, 48000].contains (pdoFixedMv w) else [5000, 9000, 15000, 20000].contains (pdoFixedMv w))
      && (before.all fun p => pdoKind p = 0 ∧ pdoFixedMv p < pdoFixedMv w) && (epr || i != 0 || pdoFixedMv w == 5000)
  else if pdoKind w = 3 then !epr && i != 0 && pdoMinMv w ≤ pdoMaxMv w
  else if pdoKind w = 4 then epr && 15000 ≤ pdoMinMv w && pdoMinMv w ≤ pdoMaxMv w && pdoMaxMv w ≤ 48000
  else false

/-- A PDO set (R44, R45). -/
def parseSet (b : List Byte) (o : Nat) (acc : List PdoSet) : Chk PdoSet := do
  let id := u8 b o; let ns := u8 b (o+1); let ne := u8 b (o+2)
  need (id ≤ 15 && acc.all fun e => ¬(e.id = id)) 0x4102
  need (1 ≤ ns && ns ≤ 7) 0x4103
  need (ne ≤ 6) 0x4103
  need (u8 b (o+3) < 2) 0x4104
  let ws := (List.range 13).map fun i => u32 b (o + 4 + 4*i)
  need ((List.range 13).all fun i =>
    let w := ws.getD i 0
    if i < ns then pdoOk false i w (ws.take i)
    else if 7 ≤ i ∧ i < 7 + ne then pdoOk true (i - 7) w ((ws.take i).drop 7)
    else w = 0) 0x4105
  .ok ⟨id, ns, ne, u8 b (o+3), ws⟩

/-- The type STALLS gives a member's stall; 0, DISABLED, when it is not listed (R36). -/
def stallType (stalls : List StallE) (m st : Nat) : Nat :=
  ((stalls.find? fun e => e.member = m ∧ e.stall = st).map (·.typ)).getD 0

/-- A PDO binding (R44, R45). -/
def parseBind (b : List Byte) (stalls : List StallE) (sets : List PdoSet) (o : Nat) (acc : List PdoBind) :
    Chk PdoBind := do
  let m := u8 b o; let p := u8 b (o+1); let sid := u8 b (o+2)
  need (m ≤ 7) 0x4108
  need (portIx p).isSome 0x4108
  need (acc.all fun e => ¬(e.member = m ∧ e.port = p)) 0x4106
  match sets.find? (fun e => e.id = sid) with
  | none => .error 0x4108
  | some st =>
    need (p ≥ 0x20 || (stallType stalls m p == if bitOf st.flags 0 then 3 else 2)) 0x4107
    need (zeros b (o+3) 1) 0x0017
    .ok ⟨m, p, sid⟩

/-- The PDO section (R44). -/
def parsePdo (b : List Byte) (stalls : List StallE) : Chk (List PdoSet × List PdoBind) := do
  let ns := u8 b 8; let nb := u16 b 10
  need (ns ≤ 16) 0x4101
  need (zeros b 9 1) 0x0017
  need (nb ≤ 136 && b.length == padTo 8 (12 + 56*ns + 4*nb)) 0x4101
  let sets ← parseList (fun i acc => parseSet b (12 + 56*i) acc) ns
  let binds ← parseList (fun i acc => parseBind b stalls sets (12 + 56*ns + 4*i) acc) nb
  let stop := 12 + 56*ns + 4*nb
  need (zeros b stop (b.length - stop)) 0x0017
  .ok (sets, binds)

/-- An EFUSE entry (R46). -/
def parseEfuse (b : List Byte) (stalls : List StallE) (o : Nat) (acc : List EfuseE) : Chk EfuseE := do
  let m := u8 b o; let p := u8 b (o+1); let sh := u16 b (o+2); let il := u16 b (o+4); let fa := u16 b (o+6)
  need (m ≤ 7) 0x4202
  need ((p == 0x20 || p == 0x21 || (p ≤ 14 && stallType stalls m p != 0))
    && acc.all fun e => ¬(e.member = m ∧ e.port = p)) 0x4203
  need (500 ≤ sh && sh ≤ 50000) 0x4204
  need (100 ≤ il && il ≤ 6000) 0x4205
  need (5 * il ≤ 4 * fa && fa ≤ 12000 && fa * sh ≤ 100000000) 0x4205
  need (1 ≤ u16 b (o+8) && u16 b (o+8) ≤ 1000) 0x4206
  need (1 ≤ u8 b (o+10) && u8 b (o+10) ≤ 100) 0x4206
  need (1 ≤ u8 b (o+11) && u8 b (o+11) ≤ 120) 0x4206
  need (u8 b (o+12) ≤ 15 || u8 b (o+12) = 0xFF) 0x4206
  need (1 ≤ u8 b (o+13) && u8 b (o+13) ≤ 20) 0x4206
  need (10 ≤ u16 b (o+14) && u16 b (o+14) ≤ 500) 0x4206
  .ok ⟨m, p, sh, il, fa, u16 b (o+8), u8 b (o+10), u8 b (o+11), u8 b (o+12), u8 b (o+13), u16 b (o+14)⟩

/-- A DOMAINS entry (R48). -/
def parseDomain (b : List Byte) (mask o : Nat) (acc : List DomainE) : Chk DomainE := do
  let d := u8 b o; let fl := u8 b (o+1); let off := u16 b (o+2); let ret := u16 b (o+4)
  need (1 ≤ d && d ≤ 11 && acc.all fun e => ¬(e.domain = d)) 0x5002
  need (fl < 8 && (!bitOf fl 1 || (bitOf fl 0 && d > 2))) 0x5003
  need (1 ≤ off && off ≤ 10000) 0x5004
  need (20 ≤ ret && ret ≤ 50000 && ret < off * 1000) 0x5004
  need (1 ≤ u8 b (o+6)) 0x5004
  need (zeros b (o+7) 1) 0x0017
  .ok ⟨mask, d, fl, off, ret, u8 b (o+6)⟩

/-- The TARGET range of each timeline action (R49, R91). -/
def tmlTargetOk (action target : Nat) : Bool :=
  match action with
  | 1 => decide (1 ≤ target ∧ target ≤ 11)
  | 2 | 3 => (portIx target).isSome
  | 4 => decide (target ≤ 11)
  | 5 | 6 => decide (target ≤ 31)
  | 7 => decide (target ≤ 3)
  | 8 => decide (target = 0)
  | 9 => decide (target ≤ 14)
  | _ => false

/-- The ARG range of each timeline action (R49, R91). -/
def tmlArgOk (action arg : Nat) : Bool :=
  match action with
  | 1 | 4 | 9 => true
  | 2 => decide (arg < 16)
  | _ => decide (arg = 0)

/-- A TIMELINE entry (R49). The 193rd entry of a member is judged at its MEMBER field, before its ARG (DESIGN CHOICE, log
entry 129). -/
def parseTimeline (b : List Byte) (o : Nat) (acc : List TimelineE) : Chk TimelineE := do
  let y := u8 b o; let a := u8 b (o+1); let t := u16 b (o+2); let m := u8 b (o+13)
  need (y ≤ 4) 0x5102
  need (1 ≤ a && a ≤ 9) 0x5103
  need (tmlTargetOk a t) 0x5104
  need (u16 b (o+8) ≤ 24999) 0x5105
  need (m ≤ 7) 0x5106
  need ((acc.filter fun e => e.member = m).length < 192) 0x5101
  need (tmlArgOk a (u16 b (o+14))) 0x5107
  .ok ⟨y, a, t, u32 b (o+4), u16 b (o+8), uN b (o+10) 3, m, u16 b (o+14)⟩

/-- The fault source ids of stepping B1 (R328). -/
def faultExists (s : Nat) : Bool :=
  s ≤ 14 || (16 ≤ s && s ≤ 18) || (32 ≤ s && s ≤ 39) || (48 ≤ s && s ≤ 53) || (64 ≤ s && s ≤ 68)
    || (80 ≤ s && s ≤ 88) || (96 ≤ s && s ≤ 98)

/-- The sources fixed at GRAVE (R328). -/
def faultFixed (s : Nat) : Bool := s ≤ 3

/-- A FAULTS entry (R50). -/
def parseFault (b : List Byte) (o : Nat) (acc : List FaultE) : Chk FaultE := do
  let s := u16 b o
  need (faultExists s && acc.all fun e => ¬(e.source = s)) 0x6002
  need (u8 b (o+2) ≤ 3 && (!faultFixed s || u8 b (o+2) == 3)) 0x6003
  need (u8 b (o+3) < 2) 0x6004
  .ok ⟨s, u8 b (o+2), u8 b (o+3)⟩

/-- The FAULTS section, whose preamble carries DUMP_ON_CHIP (R50). -/
def parseFaults (b : List Byte) : Chk (Bool × List FaultE) := do
  let n := u16 b 8
  need (n ≤ 128 && b.length == padTo 8 (12 + 4*n)) 0x6001
  need (u8 b 10 < 2) 0x0017
  need (zeros b 11 1) 0x0017
  let l ← parseList (fun i acc => parseFault b (12 + 4*i) acc) n
  need (zeros b (12 + 4*n) (b.length - (12 + 4*n))) 0x0017
  .ok (bitOf (u8 b 10) 0, l)

/-- A MAILBOX entry (R51). -/
def parseMailbox (b : List Byte) (o : Nat) (acc : List MailboxE) : Chk MailboxE := do
  let c := u8 b o; let p := u8 b (o+1)
  need (c ≤ 11 && acc.all fun e => ¬(e.channel = c)) 0x7002
  need (p = 0 || (2 ≤ p && p ≤ 8)) 0x7003
  need (u8 b (o+2) ≤ 1) 0x7004
  need (zeros b (o+3) 1) 0x0017
  need (1 ≤ u16 b (o+4) && u16 b (o+4) ≤ 10000) 0x7005
  need (zeros b (o+6) 2) 0x0017
  .ok ⟨c, p, u8 b (o+2), u16 b (o+4)⟩

/-- The P-256 field prime (PRESUMED, log entry 5). -/
def p256p : Nat := 0xFFFFFFFF00000001000000000000000000000000FFFFFFFFFFFFFFFFFFFFFFFF

/-- The P-256 curve coefficient b (PRESUMED, log entry 5). -/
def p256b : Nat := 0x5AC635D8AA3A93E7B3EBBD55769886BC651D06B0CC53B0F63BCE3C3E27D2604B

/-- Is the point on P-256? (R52, R307) -/
def onCurve (x y : Nat) : Bool :=
  x < p256p && y < p256p && (y * y % p256p == (x * x % p256p * x + (p256p - 3) * x + p256b) % p256p)

/-- A KEYS entry (R52). -/
def parseKey (b : List Byte) (o : Nat) (acc : List KeyE) : Chk KeyE := do
  let id := u8 b o; let p := u8 b (o+1)
  need (id ≤ 7 && acc.all fun e => ¬(e.id = id)) 0x7102
  need (2 ≤ p && p ≤ 8) 0x7103
  need (u16 b (o+2) < 128) 0x7104
  need (zeros b (o+4) 4) 0x0017
  let x := uN b (o+8) 32; let y := uN b (o+40) 32
  need (onCurve x y) 0x7105
  .ok ⟨id, p, u16 b (o+2), x, y⟩

/-- A GPIO entry (R53). -/
def parseGpio (b : List Byte) (mask o : Nat) (acc : List GpioE) : Chk GpioE := do
  let g := u8 b o; let fn := u8 b (o+1); let a := u8 b (o+2); let fl := u8 b (o+3)
  need (g ≤ 31 && acc.all fun e => ¬(e.gpio = g)) 0x8002
  need (fn ≤ 7) 0x8003
  need (match fn with
    | 3 | 7 => a ≤ 14
    | 4 => a ≤ 1
    | 5 => a ≤ 2
    | _ => a = 0) 0x8004
  need (fl < 16 && !(bitOf fl 2 && bitOf fl 3)) 0x8005
  .ok ⟨mask, g, fn, a, fl⟩

/-- A REGPRELOAD entry (R54). -/
def parsePreload (b : List Byte) (mask o : Nat) (_acc : List PreloadE) : Chk PreloadE := do
  let a := u32 b o
  need (a % 4 = 0 && (rowOf a).isSome) 0x9002
  need (!([0, 1, 12, 13, 14, 15, 17, 19].contains (a / 0x10000))) 0x9003
  need (u32 b (o+4) ≠ 0) 0x9004
  .ok ⟨mask, a, u32 b (o+4), u32 b (o+8)⟩

/-- The patch records from an offset; `seen` are the hooks before them (FWPATCH). -/
def parsePatches (b : List Byte) (skip : Bool) : Nat → Nat → List Nat → Chk (List (Nat × List Byte) × Nat)
  | 0, o, _ => .ok ([], o)
  | n + 1, o, seen => do
    need (o + 8 ≤ b.length) 0x0012
    let h := u32 b o; let l := u32 b (o+4)
    need (skip || (Config.romHooks.contains h && !seen.contains h)) 0xA002
    need (l % 4 = 0 && o + 8 + l ≤ b.length) 0x0012
    let (r, e) ← parsePatches b skip n (o + 8 + l) (h :: seen)
    .ok ((h, (b.drop (o+8)).take l) :: r, e)

/-- The FWPATCH section; `none` when it is skipped. -/
def parseFwpatch (b : List Byte) : Chk (Option PatchR) := do
  need (b.length ≥ 16) 0x0012
  let skip := u32 b 8 ≠ Config.romVersion.toNat
  need (!skip || bitOf (u16 b 14) 0) 0xA001
  need (u16 b 14 < 2) 0x0017
  let (ps, e) ← parsePatches b skip (u16 b 12) 16 []
  need (b.length == padTo 8 e) 0x0012
  need (skip || (ps.map fun p => p.2.length).sum ≤ 32768) 0xA003
  need (zeros b e (b.length - e)) 0x0017
  .ok (if skip then none else some ⟨u32 b 8, u16 b 14, ps⟩)

/-- The empty plan the walk of the sections starts from. -/
def Plan.empty : Plan :=
  { planId := 0, build := 0, barnId := 0, bodyHash := [], keySlot := 0, stalls := [], lanes := [], paddocks := [],
    descs := [], barn := none, power := [], sets := [], binds := [], efuse := [], domains := [], timeline := [],
    dumpOnChip := false, faults := [], mailbox := [], keys := [], gpio := [], preload := [], fwpatch := none, masks := [] }

/-- Members of the barn the plan describes; 1 when BARN is absent (R42). -/
def Plan.members (p : Plan) : Nat := (p.barn.map (·.members)).getD 1

/-- One section taken into the plan read so far; `b` is the section with its header. -/
def parseSection (p : Plan) (typ mask : Nat) (b : List Byte) : Chk Plan :=
  match typ with
  | 0x10 => do let l ← counted b 0x10 12 120 (parseStall b); .ok { p with stalls := l }
  | 0x11 => do let l ← counted b 0x11 8 224 (parseLane b); .ok { p with lanes := l }
  | 0x20 => do
    let l ← countedVar b 0x20 4 (fun o => 40 + 36 * u8 b (o+5)) (parsePaddock b)
    .ok { p with paddocks := l }
  | 0x21 => do let l ← countedVar b 0x21 4 (descSize b) (parseDesc b p.paddocks); .ok { p with descs := l }
  | 0x30 => do let r ← parseBarn b; .ok { p with barn := some r }
  | 0x40 => do
    let es ← counted b 0x40 16 8 (parsePower b) fun es =>
      need ((List.range p.members).all fun m => es.any fun e => e.member = m) 0x4002
    .ok { p with power := es }
  | 0x41 => do let r ← parsePdo b p.stalls; .ok { p with sets := r.1, binds := r.2 }
  | 0x42 => do let l ← counted b 0x42 16 136 (parseEfuse b p.stalls); .ok { p with efuse := l }
  | 0x50 => do let l ← counted b 0x50 8 11 (parseDomain b mask); .ok { p with domains := p.domains ++ l, masks := mask :: p.masks }
  | 0x51 => do let l ← counted b 0x51 16 1536 (parseTimeline b); .ok { p with timeline := l }
  | 0x60 => do let r ← parseFaults b; .ok { p with dumpOnChip := r.1, faults := r.2 }
  | 0x70 => do let l ← counted b 0x70 8 12 (parseMailbox b); .ok { p with mailbox := l }
  | 0x71 => do let l ← counted b 0x71 72 8 (parseKey b); .ok { p with keys := l }
  | 0x80 => do let l ← counted b 0x80 4 32 (parseGpio b mask); .ok { p with gpio := p.gpio ++ l, masks := mask :: p.masks }
  | 0x90 => do
    let l ← counted b 0x90 12 512 (parsePreload b mask)
    .ok { p with preload := p.preload ++ l, masks := mask :: p.masks }
  | 0xA0 => do let r ← parseFwpatch b; .ok { p with fwpatch := r }
  | 0xF0 => do
    need (u8 b 8 ≤ 3) 0xF002
    need (zeros b 9 7) 0x0017
    .ok { p with keySlot := u8 b 8 }
  | _ => .error 0x0010

/-- The section type codes (R33). -/
def sectionTypes : List Nat :=
  [0x10, 0x11, 0x20, 0x21, 0x30, 0x40, 0x41, 0x42, 0x50, 0x51, 0x60, 0x70, 0x71, 0x80, 0x90, 0xA0, 0xF0]

/-- The required sections (R33). -/
def requiredTypes : List Nat := [0x10, 0x20, 0x40, 0xF0]

/-- The sections that may repeat with a member mask (R32). -/
def repeatable (t : Nat) : Bool := t = 0x50 || t = 0x80 || t = 0x90

/-- Walk the sections from an offset (R28 step 4, R31, R32); `masks` are the masks of the run of type `last`.
A required section that is missing is reported at the TYPE of the first section after its place, before that section's
VERSION, and 0x0016 at LENGTH, after its framing and before the 144 bytes of SIGNATURE (DESIGN CHOICE, log entry 129). The fuel is the number of sections that could still stand. -/
def walkSections (d : List Byte) : Nat → Nat → Option Nat → List Nat → Nat → Plan → Chk (Plan × Nat)
  | 0, _, _, _, n, p => .ok (p, n)
  | fuel + 1, o, last, masks, n, p => do
    if o ≥ d.length then
      need (last = some 0xF0) 0x0015
      .ok (p, n)
    else
      need (o + 8 ≤ d.length) 0x0012
      let t := u8 d o; let fl := u16 d (o+2); let len := u32 d (o+4)
      let again := last = some t && repeatable t
      need (sectionTypes.contains t) 0x0010
      need (again && masks.length < 8 || last.all (· < t)) 0x0011
      need (requiredTypes.all fun r => !(last.all (· < r) && r < t)) 0x0015
      need (u8 d (o+1) = 1) 0x0013
      need (fl < 256 && (repeatable t || fl == 0)) 0x0014
      need (!(again && masks.any fun m => m &&& fl ≠ 0 || m = 0 || fl = 0)) 0x0018
      need (len ≥ 8 && len % 8 == 0 && o + len ≤ d.length) 0x0012
      need (t ≠ 0xF0 || o + len = d.length) 0x0016
      need (t ≠ 0xF0 || len = 144) 0x0012
      let p' ← parseSection p t fl ((d.drop o).take len)
      walkSections d fuel (o + len) (some t) (if again then fl :: masks else [fl]) (n + 1) p'

end Sys2Proof.Machine
end

