-- ==== Sys2Proof/Machine/PlanRules.lean ====
section
/-!
DEFINITION. What a plan gives each port (the defaults of R47), the cross-section rules (R55), the order of the checks
(R27 to R30) and the built-in plan (R56).
-/
namespace Sys2Proof.Machine

/-- The STALLS entry of a member's stall, if listed; an entry DISABLED is equal to omission (R36). -/
def Plan.stall? (p : Plan) (m st : Nat) : Option StallE :=
  p.stalls.find? fun e => e.member = m ∧ e.stall = st ∧ e.typ ≠ 0

/-- The type of a member's stall; 0 when not listed (R36). -/
def Plan.stallTyp (p : Plan) (m st : Nat) : Nat := stallType p.stalls m st

/-- The defaults of R47 for a port code, by stall type and BC12 flag. A stall that is DISABLED or not listed has no row there: its
channel takes the values of TYPE_A (DESIGN CHOICE, log entry 133). -/
def efuseDefault (m port typ flags : Nat) : EfuseE :=
  let mk (sh il fa : Nat) : EfuseE := ⟨m, port, sh, il, fa, 100, 10, 8, 0xFF, 10, 50⟩
  let bc := bitOf flags 1 || bitOf flags 2
  if port ≥ 0x20 then mk 5000 3300 6600
  else match typ with
    | 1 => if bc then mk 10000 1500 3000 else mk 10000 900 1800
    | 5 => if bc then mk 10000 1500 3000 else mk 10000 500 1000
    | 2 => mk 10000 3300 6600
    | 3 => mk 5000 5500 11000
    | 4 => mk 10000 1000 2000
    | _ => mk 10000 900 1800

/-- The EFUSE settings in force for a port code of a member (R46, R47). -/
def Plan.efuseOf (p : Plan) (m port : Nat) : EfuseE :=
  match p.efuse.find? fun e => e.member = m ∧ e.port = port with
  | some e => e
  | none =>
    let s := p.stall? m port
    efuseDefault m port ((s.map (·.typ)).getD 0) ((s.map (·.flags)).getD 0)

/-- The PDO set bound to a port, if any (R44). -/
def Plan.setOf (p : Plan) (m port : Nat) : Option PdoSet :=
  match p.binds.find? fun e => e.member = m ∧ e.port = port with
  | some b => p.sets.find? fun s => s.id = b.set
  | none => none

/-- The PDOs a set holds. -/
def PdoSet.used (s : PdoSet) : List Nat := s.pdos.take s.spr ++ (s.pdos.drop 7).take s.epr

/-- The POWER entry of a member. -/
def Plan.powerOf (p : Plan) (m : Nat) : Option PowerE := p.power.find? fun e => e.member = m

/-- The paddock of a host slot, if the plan binds the slot. -/
def Plan.paddock? (p : Plan) (slot : Nat) : Option PaddockR := p.paddocks.find? fun e => e.slot = slot

/-- A position of a paddock: hub (0 root, k + 1 pen k), port (1 to 15), and its stall's member and number. -/
structure Pos where
  hub : Nat
  port : Nat
  member : Nat
  stall : Nat
  deriving DecidableEq, Repr, Inhabited

/-- The stall positions of one hub's port list. -/
def portPositions (hub : Nat) (ps : List PortE) : List Pos :=
  (List.range ps.length).filterMap fun i =>
    let e := ps.getD i default
    if e.kind = 1 then (stallRef e.ref).map fun r => ⟨hub, i + 1, r.1, r.2⟩ else none

/-- Every stall position of a paddock, root first. -/
def PaddockR.positions (r : PaddockR) : List Pos :=
  portPositions 0 r.port ++
    ((List.range r.pens.length).map fun k => portPositions (k + 1) (r.pens.getD k default).port).flatten

/-- The member whose engine serves a position: the pen's, or the home member for a root port. -/
def PaddockR.engineOf (r : PaddockR) (q : Pos) : Nat :=
  if q.hub = 0 then r.upMember else (r.pens.getD (q.hub - 1) default).engine

/-- Are two members joined by a link, of the given carry slot when one is asked? -/
def Plan.linked (p : Plan) (a b : Nat) (carry : Option Nat) : Bool :=
  ((p.barn.map (·.links)).getD []).any fun e =>
    ((e.memberA = a ∧ e.memberB = b) ∨ (e.memberA = b ∧ e.memberB = a)) && (match carry with
      | none => true
      | some c => e.carry == c)

/-- HS engine demand of a member (before R55): roots, pens and relays. -/
def Plan.engineDemand (p : Plan) (m : Nat) : Nat :=
  (p.paddocks.filter fun r => r.upMember = m).length
    + (p.paddocks.map fun r => (r.pens.filter fun q => q.engine = m).length).sum
    + (p.paddocks.filter fun r => r.positions.any fun q => q.member = m ∧ r.engineOf q ≠ m).length

/-- Every member number the plan uses (rule 0xC005). -/
def Plan.memberNumbers (p : Plan) : List Nat :=
  let maskBits (m : Nat) : List Nat := (List.range 8).filter fun i => bitOf m i
  p.stalls.map (·.member) ++ p.lanes.map (·.member) ++ p.paddocks.map (·.upMember)
    ++ (p.paddocks.map fun r => r.pens.map (·.engine)).flatten
    ++ (p.paddocks.map fun r => r.positions.map (·.member)).flatten
    ++ p.power.map (·.member) ++ p.binds.map (·.member) ++ p.efuse.map (·.member) ++ p.timeline.map (·.member)
    ++ ((p.barn.map fun b => maskBits b.eligible).getD [])
    ++ (p.masks.map maskBits).flatten

/-- Does a mask of R31 select a member? -/
def maskHas (mask m : Nat) : Bool := mask = 0 || bitOf mask m

/-- The GPIO entries of a member. -/
def Plan.gpioOf (p : Plan) (m : Nat) : List GpioE := p.gpio.filter fun e => maskHas e.mask m

/-- No PDO current above the port's ILIM, no power above BUDGET (rules 0xC00B, 0xC00D), by binding. -/
def Plan.bindsOk (p : Plan) (f : PdoBind → PdoSet → Bool) : Bool :=
  p.binds.all fun b => match p.sets.find? fun s => s.id = b.set with
    | some s => f b s
    | none => true

/-- The cross-section rules, in table order (R55). -/
def crossRules (p : Plan) : Chk Unit := do
  let each (f : PaddockR → Pos → Bool) : Bool := p.paddocks.all fun r => r.positions.all fun q => f r q
  need (each fun _ q => p.stallTyp q.member q.stall ≠ 0) 0xC001
  need (p.paddocks.all fun r => decide (r.positions.map fun q => (q.member, q.stall)).Nodup) 0xC002
  need ((p.stalls.filter fun e => e.typ ≠ 0).all fun e => match p.paddock? e.owner with
    | some r => r.positions.any fun q => q.member = e.member ∧ q.stall = e.stall
    | none => false) 0xC003
  need (decide (p.paddocks.map fun r => (r.upMember, r.upPort)).Nodup) 0xC004
  need (p.memberNumbers.all (· < p.members)) 0xC005
  need (each fun r q => q.hub ≠ 0 || q.member = r.upMember || p.linked r.upMember q.member (some r.slot)) 0xC006
  need (p.paddocks.all fun r => r.pens.all fun k => k.engine = r.upMember
    || p.linked r.upMember k.engine (some r.slot)
    || (List.range p.members).any fun x =>
      p.linked r.upMember x (some r.slot) && p.linked x k.engine (some r.slot)) 0xC007
  need (each fun r q => q.hub = 0 || q.member = r.engineOf q
    || p.linked (r.engineOf q) q.member (some r.slot)) 0xC008
  need ((List.range p.members).all fun m => p.engineDemand m ≤ 4) 0xC009
  let laneOff (m l : Nat) : Bool := p.lanes.any fun e => e.member = m ∧ e.lane = l ∧ bitOf e.flags 2
  need ((p.stalls.filter fun e => e.typ ≠ 0 ∧ e.ssMode ≠ 0).all fun e =>
    !laneOff e.member e.stall && (e.ssMode != 3 || !laneOff e.member 15)) 0xC00A
  need (p.bindsOk fun b s => s.used.all fun w => pdoMaxMa w ≤ (p.efuseOf b.member b.port).ilim) 0xC00B
  need (p.bindsOk fun b s => s.epr = 0 || (match p.stall? b.member b.port with
      | some e => b.port ≤ 14 && bitOf e.flags 0
      | none => b.port ≥ 0x20 && ((p.powerOf b.member).map fun w => bitOf w.flags (b.port - 0x20 + 2)).getD false))
    0xC00C
  need (p.bindsOk fun b s => s.used.all fun w =>
    pdoMaxMw w ≤ ((p.powerOf b.member).map (·.budget)).getD 0) 0xC00D
  need (p.mailbox.all fun e => e.channel < 8 || e.party = 0 || p.keys.any fun k => k.party = e.party) 0xC00E
  need ((p.stalls.all fun e => e.orient = 0xFF || (p.gpioOf e.member).any fun g =>
      g.gpio = e.orient ∧ g.fn = 3 ∧ g.arg = e.stall)
    && (List.range p.members).all fun m => (p.gpioOf m).all fun g => g.fn ≠ 3 || (match p.stall? m g.arg with
      | some e => decide (e.typ ≠ 0 ∧ e.ssMode ≠ 0)
      | none => false)) 0xC00F
  need ((match p.barn with
      | some b => b.memberSrc ≠ 1 || (List.range p.members).all fun m => (List.range 3).all fun i =>
        (p.gpioOf m).any fun g => g.fn = 5 ∧ g.arg = i
      | none => true)
    && p.paddocks.all fun r => !bitOf r.flags 2 || (p.gpioOf r.upMember).any fun g => g.fn = 4 ∧ g.arg = r.upPort) 0xC010
  need (p.timeline.all fun e => match e.action with
    | 2 | 3 => e.target ≥ 0x20 || p.stallTyp e.member e.target ≠ 0
    | 9 => p.stallTyp e.member e.target ≠ 0
    | _ => true) 0xC011
  need (decide (p.descs.map fun d => d.container.take 15).Nodup) 0xC012

/-- The bytes of the last section, where R28 step 3 looks for SIGNATURE. -/
def sigBytes (d : List Byte) (o n : Nat) : List Byte := (d.drop (d.length - 144 + o)).take n

/-- Check a plan of the given stored bytes (R27 to R30): `floor` is the anti-rollback floor (R66), `keyHash` the hash
of an OTP key slot that is programmed and not revoked (R68). The result is the plan, or the validation code. -/
def checkPlan (floor : Nat) (keyHash : Nat → Option (List Byte)) (d : List Byte) : Chk Plan := do
  need (d.length ≥ 4 && u32 d 0 == 0x4C50595A) 0x0001
  need (d.length ≥ 64) 0x0003
  need (u16 d 4 = 3) 0x0002
  need (u16 d 6 = 64) 0x0002
  let len := u32 d 8
  need (320 ≤ len && len ≤ 262144 && len % 8 == 0 && len == d.length) 0x0003
  need (1 ≤ u32 d 12 && u32 d 12 ≤ 0xFFFFFFFE) 0x0004
  need (1 ≤ u32 d 16 && u32 d 16 ≤ 0xFFFFFFFE) 0x0005
  need (u32 d 16 ≥ floor) 0x000B
  need (4 ≤ u16 d 24 && u16 d 24 ≤ 38) 0x0007
  need (zeros d 26 6) 0x0017
  need ((Config.sha256 ((d.drop 64).take (d.length - 144 - 64))).toList = (d.drop 32).take 32) 0x0008
  let slot := (sigBytes d 8 1).headD 0
  need (slot.toNat ≤ 3) 0xF002
  need (keyHash slot.toNat = some (Config.sha256 (sigBytes d 16 64)).toList) 0x000A
  need (Config.ecdsaVerify (leNat (sigBytes d 16 32)) (leNat (sigBytes d 48 32)) (d.take 64)
    (leNat (sigBytes d 80 32)) (leNat (sigBytes d 112 32))) 0x0009
  let p0 : Plan := { Plan.empty with
    planId := u32 d 12, build := u32 d 16, barnId := u32 d 20, bodyHash := (d.drop 32).take 32 }
  let (p, n) ← walkSections d 64 64 none [] 0 p0
  need (u16 d 24 = n) 0x0007
  need (p.barn.isSome || p.barnId = 0) 0x0006
  let p := { p with keySlot := slot.toNat }
  crossRules p
  .ok p

/-- The 16-bit validation code of stored bytes; 0x0000 when the plan is valid (R28). -/
def planCode (floor : Nat) (keyHash : Nat → Option (List Byte)) (d : List Byte) : Nat :=
  match checkPlan floor keyHash d with
  | .ok _ => 0
  | .error c => c

/-- The text of a string as UTF-16 units. -/
def textUnits (t : String) : List Nat := t.toList.map (·.toNat)

/-- The built-in plan (R56); the container holds the UID. -/
def builtinPlan (uid : BitVec 64) : Plan :=
  { Plan.empty with
    stalls := (List.range 14).map fun n => ⟨0, n, 1, 0x40, 0, 0xFF, 4, 0xFF, 2⟩
    paddocks := [{ slot := 0, upMember := 0, upPort := 0, flags := 3, rootPorts := 15, penCount := 0, dpPins := 0,
                   port := ⟨3, 0⟩ :: (List.range 14).map fun n => ⟨1, n⟩, pens := [] }]
    descs := [{ slot := 0, flags := 1, vid := 0x3E59, pidHub := 0x1501, pidTack := 0x1502, bcdDevice := 0x0002,
                container := leBytes 8 uid.toNat ++ List.replicate 8 0, mfr := textUnits "Attedon",
                prod := textUnits "ZH15 Hub", serial := [] }]
    power := [⟨0, 0, 0, 0, 30000, 4500, 4500, 5000, 1000⟩] }

end Sys2Proof.Machine
end

