-- ==== Sys2Proof/Machine/State.lean ====
section
/-!
DEFINITION. Everything the spec gives the machine, as plain data, and the state after reset.
Registers are one sparse list of (address, word): an address that is not listed holds the reset word of the register
map. What no register shows whole stands in a structure for each subsystem.
-/
namespace Sys2Proof.Machine

/-- The faults a step can stop with: none. No command of the ZH15 stops the machine (its own fault sources are state, R327). -/
inductive Fault where
  /-- Raised by nothing: kept so that the type has a name to print. Safe. -/
  | none
  deriving DecidableEq, Repr

/-- The refusals a step can answer. -/
inductive Refusal where
  /-- A command whose meaning is not modelled yet, by its mnemonic; raised by `exec` only. Safe: the machine stops. -/
  | notModelled (mnemonic : String)
  deriving DecidableEq, Repr

/-- PD messages the ZH15 sends (R206 to R223). -/
inductive PdMsg where
  | accept | reject | wait | psRdy | notSupported | softReset | hardReset | getStatus | vconnSwap | getSourceCap
  | sourceCaps | eprSourceCaps | sourceCapsExt | sourceInfo | sinkCaps | sinkCapsExt | eprSinkCaps
  | request | eprRequest | status | ppsStatus | revision | alert
  | eprEnterAck | eprEnterSucceeded | eprEnterFailed | eprKeepAlive | eprKeepAliveAck
  | discoverIdentity | vdmAck | vdmNak | attention | bistCarrier | bistTestData | goodCrc
  deriving DecidableEq, Repr

/-- What the chip puts on its balls, newest first in the log `State.outs`; the chip never reads the log. -/
inductive Out where
  /-- A PD message of a port on SOP (0), SOP' (1) or SOP'' (2), with its data objects. -/
  | pd (port sop : Nat) (msg : PdMsg) (objs : List Nat)
  /-- A bale on a Ghelys link: its name in the spec and its fields. -/
  | bale (link : Nat) (kind : String) (fields : List Nat)
  /-- An answer on the USB of host slot `slot`: STALL, NAK, ACK or data. -/
  | usbStall (slot : Nat)
  | usbNak (slot : Nat)
  | usbAck (slot : Nat)
  | usbData (slot : Nat) (bytes : List Byte)
  /-- Line states and packets toward a stall or a host: the action's name in the spec and its numbers. -/
  | line (what : String) (args : List Nat)
  /-- An SS packet sent on a stall or upstream port. -/
  | ssPacket (port : Nat) (pkt : SsPacket)
  /-- The words a register or queue read of a master returned. -/
  | read (master : Nat) (words : List Word)
  /-- Bytes the I2C or SPI target returned. -/
  | sideband (bytes : List Byte)
  /-- A doorbell: channel, cause and tag (R280). -/
  | doorbell (channel cause tag : Nat)
  deriving DecidableEq, Repr

/-- A record offered to a queue: its type, the yard it stands in, and its body words (R312). -/
structure Rec where
  typ : Nat
  yard : Nat
  body : List Word
  deriving DecidableEq, Repr, Inhabited

/-- One record queue (R311 to R321). -/
structure ObsQ where
  /-- Write and read pointers, one bit wider than the word address. -/
  wr : Nat := 0
  rd : Nat := 0
  /-- Sequence of the next record. -/
  rseq : Nat := 0
  /-- Visible records, oldest first, each with its length word. -/
  recs : List (List Word) := []
  /-- The record being written, its words already reserved. -/
  writing : Option Rec := none
  /-- Records that wait to be written, in the order they were offered. -/
  waiting : List Rec := []
  /-- Words of the head record that register reads have returned. -/
  readPos : Nat := 0
  /-- Reads of a torn record still to return 0 (R316). -/
  tornLeft : Nat := 0
  /-- A read of master 1 stalls on the empty queue (R317). -/
  stalled : Bool := false
  /-- Head records staged in the EP2 packet, and how many of them have been freed since its data stage began. -/
  staged : Nat := 0
  stagedGone : Nat := 0
  /-- Words of the packet staged last. -/
  packet : List Word := []
  deriving DecidableEq, Repr, Inhabited

/-- One yard clock (R79 to R88): its value, and what it holds besides YRD_STATUS and YRD_RATE. -/
structure Yard where
  /-- Interval count, bits 63:15 of the value. -/
  iv : Nat := 0
  /-- Tick within the interval, 0 to 24,999. -/
  tick : Nat := 0
  /-- Fraction of a tick the measured rate has gained or lost, in 10^-8 ticks. -/
  acc : Int := 0
  /-- Frame number of the last SOF, 2048 for none, and the SOFs that carried it before (R81). -/
  frame : Nat := 2048
  micro : Nat := 0
  /-- The interval of the last SOF, one more than its count; 0 for none (R80). -/
  sofIv : Nat := 0
  /-- Interval count at the last reference (R80, R84); of a copy and of yard L, yard L's count at the last descriptor or bale
  taken (R86, R87). -/
  lastRef : Nat := 0
  /-- Ticks it has advanced in this cycle (R94). -/
  adv : Nat := 1
  /-- The rate relative to barn time that the last descriptor gave, in 0.01 ppm (R86). -/
  rel : Int := 0
  /-- Consecutive references within ±20 ticks (R83). -/
  good : Nat := 0
  /-- The phase error that the yard's slew takes out, in ticks (R83, R86): none after a step or a correction. -/
  err : Int := 0
  /-- The yard has been LOCKED since the last chip-wide reset (R79). -/
  hasLocked : Bool := false
  /-- A plan activation has kept the yard: the next reference is taken under R82 (R85). -/
  fresh : Bool := false
  /-- The low word SNAP took, for the next read (YRD_NOW_LO). -/
  snap : Option Nat := none
  deriving DecidableEq, Repr, Inhabited

/-- A stall's pattern tracker beyond TML_PAT (R96). -/
structure Pat where
  /-- Interval count of the last burst start. -/
  last : Nat := 0
  /-- Interval count of the last activity (R95). -/
  act : Nat := 0
  /-- The agreeing gaps, newest first. -/
  gaps : List Nat := []
  /-- Interval of the next predicted activity. -/
  pred : Nat := 0
  misses : Nat := 0
  deriving DecidableEq, Repr, Inhabited

/-- A domain's predictor channel beyond TML_PRED (R95 to R99). -/
structure Pred where
  /-- Shortest gap between bursts in the history. -/
  minGap : Option Nat := none
  /-- Mispredictions of each of the last 64 windows, the present one first. -/
  missWin : List Nat := []
  /-- Windows for which OFF stays withheld (R99). -/
  capLeft : Nat := 0
  /-- The misprediction of the choice in force has been counted (R99). -/
  missed : Bool := false
  deriving DecidableEq, Repr, Inhabited

/-- Where a domain stands in an entry or exit (R261, R263, R264). -/
inductive DomStep where
  | idle | clockStop | isolate | a3 | move
  | crystal | railUp | closeSwitch | restore | pll | release | retryWait
  deriving DecidableEq, Repr, Inhabited

/-- A request in Dwezel's hands: its channel, SEQ and source member, its words, and the session it came in. -/
structure Ask where
  c : Nat
  seq : Nat
  member : Nat
  words : List Word
  sess : Option Nat
  deriving DecidableEq, Repr, Inhabited

/-- What a transfer of register accesses belongs to, and so how it ends. -/
inductive XferKind where
  /-- Accesses of a master on their own: a read's word is returned. -/
  | plain
  /-- A tack room's vendor request that reads or writes (R291, R292). -/
  | usbRead
  | usbWrite
  /-- A read of n bytes from an address by the I2C or the SPI target (R297, R298). -/
  | sideRead (addr n : Nat)
  /-- REG_PEEK and REG_POKE of Dwezel's (R305). -/
  | peek (a : Ask)
  | poke (a : Ask)
  deriving DecidableEq, Repr, Inhabited

/-- A transfer of register accesses that stalls until a domain is ON (R269, R291, R299). -/
structure StalledAcc where
  master : Nat
  kind : XferKind
  /-- The accesses still to be made: address, and the word to write, `none` for a read. -/
  accs : List (Nat × Option Word)
  /-- The words read so far; `none` where a read of master 1 waits on an empty queue (R317). -/
  got : List (Option Word) := []
  deriving DecidableEq, Repr, Inhabited

/-- One domain's controller state beyond its registers. -/
structure DomS where
  step : DomStep := .idle
  /-- The state an exit leaves, or an entry left: 0 ON, 1 RET, 2 OFF. -/
  from_ : Nat := 0
  /-- Vote of each client: what its holder last wrote or the hardware raised (R258, R400). -/
  votes : Vector Nat 16 := Vector.replicate 16 0
  /-- The switch failed to open since OFF_FAIL was last cleared (R262). -/
  offFailed : Bool := false
  /-- The exit in progress returns to ON after a failed open, not by a wake (R262). -/
  recovering : Bool := false
  /-- The exit in progress answers a RET vote only: RET follows at once (R260). -/
  retOnly : Bool := false
  /-- Entries of this domain's restore list: address and value (R265). -/
  restore : List (Nat × Word) := []
  deriving DecidableEq, Repr, Inhabited

/-- A timeline raise of client 6 (R91, R92, R98): its domain, and the yard and tick at which it ends, or the entry (one more
than its index) whose run ends it; `pat` is one more than the stall whose learned pattern raised it. -/
structure TmlRaise where
  dom : Nat
  yard : Nat
  until_ : Nat
  entry : Nat
  pat : Nat := 0
  deriving DecidableEq, Repr, Inhabited

/-- What a wake source tells of, where the domains it acts in are not ON (R267): an ATTACH_DETECT, SINK_ATTACH, PWRWARN_ASSERT,
HS_CONNECT_CHANGE, REMOTE_WAKE, DEVICE_L1_EXIT, HOST_RESUME_DETECTED or BUS_RESET, with its operands. -/
inductive WakeEvt where
  | attach (n : Nat) (cc2 ra acc : Bool)
  | sink (n : Nat) (cc2 : Bool) (rp : Nat)
  | warn (cause : WarnCause)
  | connect (n : Nat) (present low : Bool)
  | deviceK (slot n : Nat)
  | deviceL1 (slot n : Nat)
  | hostK (u : Nat)
  | reset (u : Nat) (high : Bool)
  deriving DecidableEq, Repr

/-- The power domain controller (R256 to R271). -/
structure Pdc where
  /-- Client 0 stands at ON on every domain but AON from reset (R271, PDC_VOTE). -/
  dom : Vector DomS 12 := Vector.ofFn fun d => { votes := Vector.ofFn fun c => if d.val ≠ 0 ∧ c.val = 0 then 2 else 0 }
  /-- Access holds: master and domain (R400). -/
  accHolds : List (Nat × Nat) := []
  /-- Mailbox holds: channel, client and domain (R400, R279). -/
  mbxHolds : List (Nat × Nat × Nat) := []
  raises : List TmlRaise := []
  /-- Reasons for which Dwezel keeps client 0 at ON on MGT: faults raised and not yet handled (R258). -/
  faultHeld : Bool := false
  stalls : List StalledAcc := []
  /-- Raises of the wake sources that stand until their domain is ON: client and domain (R267). -/
  wakes : List (Nat × Nat) := []
  /-- What wake sources have told of while the domains it acts in were not ON: those domains, and what takes effect when all of
  them are (R263, R267; log entry 164). -/
  late : List (List Nat × WakeEvt) := []
  deriving DecidableEq, Repr, Inhabited

/-- One power-path channel beyond its registers (R225 to R242). -/
structure Chan where
  /-- GATE driven. -/
  gate : Bool := false
  /-- VBUS_SNS below 0.8 V. -/
  vbusLow : Bool := true
  /-- A trip's wait has run, or runs, and no attempt has succeeded since (R235). -/
  retrying : Bool := false
  /-- A Type-C attach has passed step 3 of R202: the port asks for VBUS. -/
  attached : Bool := false
  /-- PORT_POWER of the position that holds the stall, on either side (R163). -/
  portPower : Bool := false
  /-- Default power of R399. -/
  defPower : Bool := false
  /-- PORT_POWER of R305: released off. -/
  holdOff : Bool := false
  /-- An over-current of its position is reported: retries wait for the host's PORT_POWER (R164). -/
  ocHeld : Bool := false
  /-- Held off by a BC 1.2 change (R152). -/
  bcHold : Bool := false
  /-- A cycle of R305 is in progress. -/
  cycling : Bool := false
  rampDone : Bool := false
  /-- In the attempt window of a retry (R235). -/
  attempt : Bool := false
  /-- A retry wait runs (R235), whatever STATE shows (R236). -/
  waiting : Bool := false
  /-- The gate last went off in the sink direction: R240 checks no FET there (R228). -/
  sinkOff : Bool := false
  /-- PG withheld by a fault timer that started with it (R242). -/
  pgWithheld : Bool := false
  /-- SEAT_N of the stall's seat input is low now, debounce under way. -/
  seatLow : Bool := false
  deriving DecidableEq, Repr, Inhabited

/-- The sums of the block a telemetry mean is taken over (R246): samples, voltage, current and power. -/
structure Block where
  n : Nat := 0
  v : Int := 0
  i : Int := 0
  p : Int := 0
  deriving DecidableEq, Repr, Inhabited

/-- One channel's telemetry beyond its registers (R244 to R248, R250). -/
structure TlmCh where
  ms1 : Block := {}
  ms100 : Block := {}
  s1 : Block := {}
  /-- Energy in 2^-24 µJ, 64 + 24 bits (R247). -/
  energy : Nat := 0
  /-- The energy before the last sample, and one more than the cycle of that sample (R248). -/
  before : Nat := 0
  sampled : Nat := 0
  /-- Bits 63:32 latched for each master id (R248). -/
  latch : Vector Nat 16 := Vector.replicate 16 0
  /-- Power of the last 50 samples, µW, newest first (R250). -/
  last50 : List Int := []
  /-- Accounted power, mW (R250). -/
  accounted : Nat := 0
  deriving DecidableEq, Repr, Inhabited

/-- Input monitor and budget engine beyond their registers (R244, R249 to R255). -/
structure Budget where
  vinBlock : Block := {}
  acFailLow : Bool := false
  vinLow : Bool := false
  iinHigh : Bool := false
  /-- BUDGET as set by the plan or by BUDGET_SET, mW (R305). -/
  budget : Nat := 30000
  /-- Sum of accounted powers, mW. -/
  sum : Nat := 0
  /-- The die temperature stands at or above the warning temperature (R328, THERM_WARN). -/
  hot : Bool := false
  /-- Frames in a row with a die sensor at or above the shutdown temperature (R1, THERM_SHUT). -/
  shut : Nat := 0
  /-- VIN has been below VIN_MIN for 100 µs, and PWRWARN_N has not been released since (R249). -/
  vinUv : Bool := false
  deriving DecidableEq, Repr, Inhabited

/-- Steps of a source's voltage transition (R210). -/
inductive Trans where
  | none | srcTransition | slew | settle
  deriving DecidableEq, Repr, Inhabited

/-- A Request: object position, voltage in mV, operating current in mA. -/
structure Req where
  pos : Nat
  mv : Nat
  ma : Nat
  deriving DecidableEq, Repr, Inhabited

/-- One Type-C/PD port beyond its registers (R199 to R224). -/
structure Tcp where
  /-- Objects of the last capabilities sent or received: position i + 1. -/
  objs : List Nat := []
  trans : Trans := .none
  /-- Step 1 of R202 is done, and the attach waits for VBUS below 0.8 V. -/
  debounced : Bool := false
  /-- Try.SNK has found no source: the stall attaches as source once Rd is debounced again (R201). -/
  tried : Bool := false
  /-- The Request a transition carries out. -/
  req : Req := default
  /-- The object of the Request under way, and that of the contract in force (R207, R209). -/
  reqObj : Nat := 0
  obj : Nat := 0
  /-- PPS current limiting holds the setpoint down (R209). -/
  ppsCut : Bool := false
  /-- Capabilities are sent, and no Request has answered them (R200). -/
  ams : Bool := false
  /-- Hard Resets since the last contract or attach (R205, R213). -/
  hrFail : Nat := 0
  /-- The source's last capabilities were EPR ones: the contract is made in EPR mode (R212). -/
  sinkEpr : Bool := false
  /-- A Request answered Wait during a transition, evaluated again after PS_RDY (R224). -/
  queued : Option Req := none
  /-- Contract limit, mA; `none` without an explicit contract (R209). -/
  limit : Option Nat := none
  /-- Highest current the contract's object carried before any reduction, mA (R255). -/
  fullMa : Nat := 0
  /-- Source_Capabilities messages still to try (nCapsCount, R208). -/
  capsLeft : Nat := 0
  softSent : Bool := false
  /-- VCONN was on when a Hard Reset came, and is restored (R214). -/
  vconnBack : Bool := false
  /-- Waiting for tSrcRecover (R214). -/
  recovering : Bool := false
  /-- VCONN_Swap in progress: 0 none, 1 the partner takes VCONN, 2 the ZH15 takes it on the partner's request,
  3 the ZH15 has asked. -/
  swap : Nat := 0
  /-- The partner holds VCONN. -/
  partnerVconn : Bool := false
  /-- Next MessageID of SOP. -/
  msgId : Nat := 0
  /-- SOURCE_CAPS_SET: plan set and PDO mask (R305); `none` the bound set whole. -/
  capsSet : Option (Nat × Nat) := none
  /-- PD_POLICY: EPR allowed, PPS allowed, power cap in mW (R305). -/
  eprOk : Bool := true
  ppsOk : Bool := true
  capMw : Option Nat := none
  /-- Last RDO and last Status data received, for PD_STATUS (R304). -/
  lastRdo : Nat := 0
  info : List (Nat × List Nat) := []
  /-- The sink's Request standing (R212). -/
  sinkReq : Option Req := none
  /-- Rp of the source a sink attach found, in the codes of TCP_PORT.RP (R357). -/
  srcRp : Nat := 0
  /-- BIST carried out now (R216). -/
  bist : Bool := false
  deriving DecidableEq, Repr, Inhabited

/-- DisplayPort and HPD state of an upstream port (R220 to R223). -/
structure DpS where
  /-- Pin assignment of a DP Configure that waits for the mux (0 none). -/
  wanted : Nat := 0
  /-- Step of the width change in progress, 0 none (R115). -/
  step : Nat := 0
  /-- An Enter Mode has come since the attach (R296). -/
  entered : Bool := false
  /-- An ACK of DP Configure is due at the end of step 3. -/
  ackDue : Bool := false
  deriving DecidableEq, Repr, Inhabited

/-- A timeline entry (R89 to R94). -/
structure TmlE where
  valid : Bool := false
  yard : Nat := 0
  abs : Bool := false
  action : Nat := 0
  target : Nat := 0
  rep : Nat := 0
  arg : Nat := 0
  /-- Due time, in ticks of its yard. -/
  due : Nat := 0
  /-- Waits for its host yard's reference instant (R49): `due` counts from that interval. -/
  awaiting : Bool := false
  /-- One of Dwezel's own duties (R89, R305). -/
  own : Bool := false
  /-- Runs once for every occurrence that has passed (R89, R90). -/
  merge : Bool := false
  deriving DecidableEq, Repr, Inhabited

/-- A port's status and change words of both sides, in the USB layouts of wPortStatus and wPortChange (R159, log entry
45). -/
structure PortStat where
  hs : Nat := 0
  hsChg : Nat := 0
  ss : Nat := 0
  ssChg : Nat := 0
  /-- Sequence of the last mirror record sent, or applied (R159). -/
  seq : Nat := 0
  /-- Remote wake mask, and FORCE_LINKPM_ACCEPT, of the SS port (R162). -/
  wakeMask : Nat := 0
  forceLpm : Bool := false
  deriving DecidableEq, Repr, Inhabited

/-- One position of a paddock as its answering member mirrors it (R155, R159). -/
structure MirPos where
  slot : Nat
  hub : Nat
  port : Nat
  kind : Nat
  member : Nat
  stall : Nat
  st : PortStat := {}
  /-- U1 and U2 timeouts mirrored (R120, R159). -/
  u1 : Nat := 0
  u2 : Nat := 0
  reach : Bool := true
  /-- Its USB 2.0 path (R129 to R131): 9 on this chip, a link's carry, 8 none. -/
  via : Nat := 9
  /-- Another member answers for its pen: the home member holds it for the link states alone (R121). -/
  obs : Bool := false
  /-- Change bits of both sides that a mirror record set in cycle `newAt` (R160). -/
  newHs : Nat := 0
  newSs : Nat := 0
  newAt : Nat := 0
  deriving DecidableEq, Repr, Inhabited

/-- A hub request that waits for the chip that holds its position (R162): the position, the answering member, the stall
and what was asked. The answering member and the holding chip each keep one. -/
structure HubWait where
  slot : Nat
  hub : Nat
  port : Nat
  owner : Nat
  n : Nat
  act : PortAct
  deriving DecidableEq, Repr, Inhabited

/-- A stall of the barn and the slot that holds it (R36, R166). -/
structure Holder where
  member : Nat
  stall : Nat
  slot : Nat
  deriving DecidableEq, Repr, Inhabited

/-- A hand-off in progress (R166, R167). -/
structure HandoffS where
  /-- Which one it is, for its LATER_DONE. -/
  id : Nat := 0
  /-- Stalls being moved, each with its source slot. -/
  stalls : List Holder := []
  dest : Nat := 0
  /-- Step of R167. -/
  step : Nat := 1
  /-- Milliseconds it has taken. -/
  ms : Nat := 0
  deriving DecidableEq, Repr, Inhabited

/-- A packet held in the packet buffer: the ingress queue its cells count against and the bank of each cell (R107 to
R109). -/
structure Buf where
  pkt : SsPacket
  /-- Ingress queue of R109. -/
  q : Nat
  banks : List Nat
  /-- It stands in the egress header buffers: deferred, or waiting for Recovery to end (R105). -/
  held : Bool := false
  deriving DecidableEq, Repr, Inhabited

/-- A logical hub's context (R100): the paddock's root, or a pen by its index. -/
structure HubS where
  slot : Nat
  /-- 0xF the root. -/
  pen : Nat
  addr : Nat := 0
  configured : Bool := false
  /-- Its SS side has been configured. -/
  ssConf : Bool := false
  altSet : Bool := false
  depth : Nat := 0
  depthSet : Bool := false
  /-- Wake of the host by the hub is enabled (R125, R140, R293). -/
  wakeEn : Bool := false
  deriving DecidableEq, Repr, Inhabited

/-- What the home member of a slot tells the others of its upstream port (log entry 141). -/
structure UpTold where
  /-- Link state in the encoding of SSH_PORT. -/
  link : Nat := 4
  lanes : Nat := 2
  conf : Bool := false
  /-- The root's depth; 15 none (R162). -/
  depth : Nat := 15
  /-- The host is connected at full speed (R130), and the state of the root engine in the encoding of HSH_ENG. -/
  fs : Bool := false
  bus : Nat := 0
  deriving DecidableEq, Repr, Inhabited

/-- SS hub core and packet buffer beyond their registers (R100 to R127). -/
structure SsS where
  egress : Vector (List Buf) 17 := Vector.replicate 17 []
  /-- Header credits withheld (R111). -/
  withheld : Vector Nat 17 := Vector.replicate 17 0
  /-- Bank that grants the next cell (R108). -/
  ptr : Nat := 0
  hubs : List HubS := []
  /-- The last LDM results, newest first (R119). -/
  ldm : Vector (List Nat) 2 := Vector.replicate 2 []
  /-- The upstream port has begun its own U3 exit (R126). -/
  exiting : Vector Bool 2 := Vector.replicate 2 false
  /-- What the home member of each slot has told: link, lanes for USB, and whether the root is configured (R103, R114, R166). -/
  told : Vector UpTold 4 := Vector.replicate 4 {}
  /-- SS addresses of pens whose engine is on another member, as that member tells: slot, pen, address (R101). -/
  penAddr : List (Nat × Nat × Nat) := []
  /-- Sequence numbers of mirror records of positions that have been handed away: slot, hub, port, number (R159). -/
  seqs : List (Nat × Nat × Nat × Nat) := []
  /-- Link error count of each stall (R162, log entry 163). -/
  linkErr : Vector Nat 15 := Vector.replicate 15 0
  /-- Credit of each egress port in the round robin of cell reads (R112). -/
  wrr : Vector Int 17 := Vector.replicate 17 0
  deriving DecidableEq, Repr, Inhabited

/-- An order that waits for its stamp at a chip (R135): slot, stall (15 for the whole bus), stamp in ticks, action. -/
structure Order where
  slot : Nat
  n : Nat
  stamp : Nat
  act : PortAct
  deriving DecidableEq, Repr, Inhabited

/-- HS engines and ports beyond their registers (R128 to R144, R151, R152). -/
structure HsS where
  orders : List Order := []
  /-- The port is suspended with its whole bus, not selectively (R136, R139). -/
  gsusp : Vector Bool 15 := Vector.replicate 15 false
  /-- The port has signalled remote wake (R140, R141). -/
  waking : Vector Bool 15 := Vector.replicate 15 false
  /-- An LPM token has been ACKed on the port (R142); 15 and 16 the upstream ports. -/
  acked : Vector Bool 17 := Vector.replicate 17 false
  /-- The root engine drives K upstream since that cycle (R140). -/
  upK : Vector (Option Nat) 2 := Vector.replicate 2 none
  /-- The BC 1.2 kind a change leads to (R152). -/
  bcTarget : Vector Nat 15 := Vector.replicate 15 0
  /-- Slots for which a wake waits for the domains of the root engine's upstream K (R140, R267). -/
  upWant : List Nat := []
  /-- Slots whose paddock's host has driven no bus reset: their stalls have default power (R399). -/
  dflt : Vector Bool 4 := Vector.replicate 4 true
  /-- The stall is in steps 2 to 5 of a hand-off (R167). -/
  moving : Vector Bool 15 := Vector.replicate 15 false
  /-- Pens whose engine's own upstream carry is out of service, as their engine's member tells: slot and pen (R131, R132). -/
  penCut : List (Nat × Nat) := []
  deriving DecidableEq, Repr, Inhabited

/-- One buffer of a TT (R145): its transaction and its result. -/
structure TtBuf where
  dev : Nat
  ep : Nat
  bulk : Bool
  dirIn : Bool
  data : List Byte
  /-- Microframe boundaries before its start-split (R148). -/
  bound : Nat
  ans : Option TtAnswer := none
  /-- Its result is discarded when the transaction ends (R150). -/
  cancel : Bool := false
  deriving DecidableEq, Repr, Inhabited

/-- A stall's TT (R145 to R150). -/
structure TtS where
  per : List TtBuf := []
  np : List TtBuf := []
  /-- A transaction is on the bus: periodic or not; it is the first of its list without a result. -/
  cur : Option Bool := none
  /-- Microframe boundaries taken. -/
  bound : Nat := 0
  /-- Consecutive boundaries without a SOF (R146). -/
  noSof : Nat := 0
  /-- Cycle of the last SOF. -/
  sofCycle : Option Nat := none
  /-- The boundary from which a stopped TT runs again (R150). -/
  start : Nat := 0
  /-- The frame's EOF point has passed (R148). -/
  eof : Bool := false
  stopped : Bool := false
  held : Bool := false
  deriving DecidableEq, Repr, Inhabited

/-- A CTRL message that waits for a link or was sent on one (R176): destination 8 stands for a broadcast. -/
structure CtrlMsg where
  src : Nat
  dest : Nat
  seq : Nat
  name : String
  fields : List Nat
  /-- The bank of the cell of queue 21 it holds here, and the link it came on (R109, R179). -/
  cell : Option (Nat × Nat) := none
  deriving DecidableEq, Repr, Inhabited

/-- An SS packet as the drover carries it (R176). -/
structure FPkt where
  slot : Nat
  dest : Nat
  src : Nat
  idx : Nat
  ps : Nat
  epoch : Bool
  /-- It crosses as one HDR bale. -/
  hdr : Bool
  pseq : Nat
  eob : Bool
  /-- Deferred for a header packet, invalid CRC-32 for a data packet (log entry 41). -/
  mark : Bool
  /-- Payload, or the 14 bytes of the header packet. -/
  body : List Byte
  /-- A transit copy: its queue and the banks of its cells here (R188). -/
  transit : Option (Nat × List Nat)
  /-- Its place among the packets of its ingress member, here only (R195). -/
  ord : Nat := 0
  deriving DecidableEq, Repr, Inhabited

/-- A data-class bale: KIND, LAST, WORD and payload bytes (R175, R176), and the transit cell it frees. -/
structure Bale where
  kind : Nat
  last : Bool
  word : Nat
  body : List Byte
  mark : Bool
  cell : Option (Nat × Nat)
  deriving DecidableEq, Repr, Inhabited

/-- A sequenced bale sent and not yet acknowledged (R178). -/
inductive Sent where
  | ctrl (seq : Nat) (m : CtrlMsg)
  | data (seq : Nat) (b : Bale)
  deriving DecidableEq, Repr

/-- A packet being put together from its bales (R180). -/
structure Assembly where
  dest : Nat
  flow : Nat
  ps : Nat
  pseq : Nat
  eob : Bool
  epoch : Bool
  body : List Byte
  banks : List Nat
  /-- One of its bales has been marked: its CRC-32 is invalid (log entry 41). -/
  bad : Bool := false
  deriving DecidableEq, Repr, Inhabited

/-- One Ghelys link beyond its registers (R169 to R181). -/
structure GlkS where
  ctrlQ : List CtrlMsg := []
  dataQ : Vector (List FPkt) 4 := Vector.replicate 4 []
  /-- Deficits and the queue served now (R186). -/
  deficit : Vector Nat 4 := Vector.replicate 4 0
  turn : Nat := 0
  /-- The queue served has had its quantum of this round. -/
  visited : Bool := false
  /-- Bales of the packet being sent. -/
  run : List Bale := []
  win : List Sent := []
  txSeq : Nat := 0
  rxSeq : Nat := 0
  /-- A NAK has been sent and its bale has not come (R178). -/
  nakked : Bool := false
  /-- Replays since ACK last advanced. -/
  replays : Nat := 0
  dCred : Nat := 0
  cCred : Nat := 0
  /-- Cells freed and not yet returned as credits (R179). -/
  owedD : Nat := 0
  owedC : Nat := 0
  asm : Option Assembly := none
  /-- The retry at once has been made (R170). -/
  retried : Bool := false
  /-- The link is FAILED, and its next attempt waits for FAB (R170). -/
  failed : Bool := false
  retryDue : Bool := false
  /-- The link is in SLEEP, which its bell detector in AON keeps while FAB is OFF (R173, R174). -/
  asleep : Bool := false
  bells : Nat := 0
  sleepReq : Bool := false
  /-- Cycle in which step 1 of the training attempt ends (R170). -/
  trainAt : Nat := 0
  /-- A notice has told that the link has failed at its other end: nothing is sent on it (R194). -/
  cut : Bool := false
  peerUid : Nat := 0
  /-- Data-class bales sent in the present window (R190). -/
  load : Nat := 0
  deriving DecidableEq, Repr, Inhabited

/-- An ingress flow record (R187, R188): what FLOW_OPEN told of it, and its packets. -/
structure FlowRec where
  open_ : FlowOpen
  dest : Nat
  /-- Whole packets sent and acknowledged by DELIVERED, modulo 2^16. -/
  sent : Nat := 0
  acked : Nat := 0
  /-- Packets not covered by DELIVERED, oldest first, with the cells they hold. -/
  undel : List (FPkt × Nat × List Nat) := []
  /-- Cycle of the last packet. -/
  lastSent : Nat := 0
  /-- Bales in the present and the last window. -/
  bales : Nat := 0
  lastBales : Nat := 0
  /-- A reseed's PS waits for the flow to be idle (R192). -/
  reseed : Bool := false
  deriving DecidableEq, Repr, Inhabited

/-- A flow record held for another member's packets (R187). -/
structure DstRec where
  src : Nat
  open_ : FlowOpen
  /-- Whole packets delivered, modulo 2^16, and those not yet reported. -/
  count : Nat := 0
  unreported : Nat := 0
  deriving DecidableEq, Repr, Inhabited

/-- Drover and barn beyond their registers (R181 to R198). -/
structure FabS where
  /-- Own member number, and whether one is held (R182). -/
  member : Nat := 0
  numbered : Bool := false
  lsdb : List LinkAd := []
  /-- Formation step of R183 in progress, 0 none. -/
  step : Nat := 0
  /-- It joins a barn already formed (R184). -/
  joining : Bool := false
  /-- A lead has been named (R181, R184). -/
  elected : Bool := false
  /-- Restarts of formation for links that trained during it (R183). -/
  restarts : Nat := 0
  /-- A flooding round has taught a new link or member. -/
  learned : Bool := false
  members : List MemberAd := []
  /-- Members whose tables are acknowledged. -/
  acks : List Nat := []
  table : RouteTable := default
  /-- The topology that the table in force, and the tables pushed, were computed from (R194). -/
  db : List LinkAd := []
  nextDb : List LinkAd := []
  /-- The routes in force, by destination (R185, R194). -/
  route : List RouteE := []
  /-- Tables pushed and not yet switched to. -/
  next : Option RouteTable := none
  /-- Links of the BARN section that have failed since the table came into force. -/
  failed : List Nat := []
  /-- Members that became unreachable, until what their loss brings is done (R161). -/
  lost : List Nat := []
  /-- The member's own deadline has passed (R354). -/
  deadline : Bool := false
  flows : List FlowRec := []
  dsts : List DstRec := []
  /-- Packets that wait for a record: slot, destination, target, and the buffer (R187). -/
  waits : List (Nat × Nat × Nat × Buf) := []
  /-- EPOCH sent to and adopted from each member (R195). -/
  txEpoch : Vector Bool 8 := Vector.replicate 8 false
  rxEpoch : Vector Bool 8 := Vector.replicate 8 false
  /-- Destinations whose data is held for a RESYNC_ACK. -/
  resync : List Nat := []
  /-- Link whose failure the running reroute answers. -/
  rerouteLink : Nat := 0
  resyncs : Nat := 0
  /-- Control sequence for each destination, the ninth for broadcasts. -/
  cseq : Vector Nat 9 := Vector.replicate 9 0
  /-- Control sequences seen: source and destination (nine of them for each source, the last for broadcasts), and value,
  newest first (R176). -/
  seen : List (Nat × Nat) := []
  /-- Consecutive windows above the threshold, for each destination. -/
  above : Vector Nat 8 := Vector.replicate 8 0
  /-- Those of them with no flow movable. -/
  stuck : Vector Nat 8 := Vector.replicate 8 0
  /-- Flows that may not move again, and for how many windows (R190). -/
  frozen : List (FlowOpen × Nat) := []
  /-- Packets this chip has sent into the fabric: the order a resend keeps (R195). -/
  packets : Nat := 0
  /-- A new seed for the next window (R192). -/
  seed : Option Nat := none
  deriving DecidableEq, Repr, Inhabited

/-- One-time programmable memory (R3, R66, R68): the unique id, the hashes of the key slots and which are revoked, and the
words of the anti-rollback array in use. -/
structure Otp where
  uid : Nat := 0
  keys : Vector (Option (List Byte)) 4 := Vector.replicate 4 none
  revoked : Vector Bool 4 := Vector.replicate 4 false
  words : List Nat := []
  deriving DecidableEq, Repr, Inhabited

/-- A plan slot of the flash (R57, R59): what stands from its first byte, and its commit page; an erased or broken one is
empty. -/
structure SlotF where
  bytes : List Byte := []
  page : List Byte := []
  deriving DecidableEq, Repr, Inhabited

/-- A PLAN_ACTIVATE under way (R76): the plan to activate and where it came from (PLN_STATUS.SOURCE), the fuses and the floor
asked for, and the wait for its reply. -/
structure ActReq where
  plan : Plan
  source : Nat
  revoke : Nat
  raiseFloor : Bool
  /-- It waits for the acknowledgement of its reply on this channel; `none` once PLAN is entered, or for a member's order. -/
  wait : Option Nat
  /-- The lead orders every member too (R77). -/
  wide : Bool
  deriving DecidableEq, Repr, Inhabited

/-- An OTP write of a PLAN_ACTIVATE (R69): a revoke fuse, or a floor word. -/
inductive OtpWrite where
  | revoke (k : Nat)
  | floor (build : Nat)
  deriving DecidableEq, Repr, Inhabited

/-- A BULK chunk that waits for its data (R295): channel, SEQ, byte count, word 0 of the request, and its session. -/
structure BulkS where
  c : Nat
  seq : Nat
  count : Nat
  word0 : Nat
  sess : Option Nat
  deriving DecidableEq, Repr, Inhabited

/-- The plan loader (R57 to R78, R398). -/
structure PlnS where
  slot : Vector SlotF 2 := Vector.replicate 2 {}
  /-- The upload: LENGTH, and the bytes taken. -/
  len : Nat := 0
  data : List Byte := []
  /-- A BULK chunk that waits for its data (R295). -/
  bulk : Option BulkS := none
  /-- A PLAN_COMMIT has come since the upload's chunks arrived (R73). -/
  committed : Bool := false
  /-- The loader addresses the flash with 4 bytes (R63). -/
  fourByte : Bool := false
  /-- Step of R74 in progress, 0 none; the target slot; whether steps 2 to 6 are being repeated; SEQ of the commit. -/
  commit : Nat := 0
  target : Nat := 0
  again : Bool := false
  seq : Nat := 0
  /-- Slots still to try at BOOT step 5, in order. -/
  order : List Nat := []
  /-- The plan chosen at BOOT step 5, with its source. -/
  cand : Option (Plan × Nat) := none
  act : Option ActReq := none
  otp : List OtpWrite := []
  deriving DecidableEq, Repr, Inhabited

/-- What start-up holds besides TOP (R348 to R362). -/
structure BootS where
  /-- 0 running, 1 POR asserted, 2 RESET_N low. -/
  held : Nat := 1
  /-- Crystal starts that have failed in this BOOT (R352). -/
  tries : Nat := 0
  /-- LIFELINE starter: 0 idle, 1 armed, 2 sink path closed; and its flag on VLIFE (R356, R358). -/
  starter : Nat := 0
  starterFlag : Bool := false
  /-- A chip reset has been requested (R362). -/
  asked : Bool := false
  /-- Steps 1 and 2 of R219 in progress: VIN has stood above VIN_MIN for 10 ms. -/
  handover : Bool := false
  /-- A plan has been activated since the last chip-wide reset (R359). -/
  planned : Bool := false
  /-- The mode that a reset now held met, for its MODE record (R322, R359). -/
  was : Nat := 0
  /-- One more than the cycle in which the maker window ended; 0 before that (R351). -/
  makerEnd : Nat := 0
  /-- Levels of the GPIO balls when the chip left BOOT: what a MEMBER_STRAP reads as (R182). -/
  gpi : Word := 0
  deriving DecidableEq, Repr, Inhabited


/-- A hayloft dump, as its header fields and contents (R342, R343). -/
structure Dump where
  seq : Nat := 0
  severity : Nat := 0
  bytes : List Byte := []
  deriving DecidableEq, Repr, Inhabited

/-- One flash entry of the hayloft (R344). -/
structure DumpEntry where
  dump : Option Dump := none
  /-- A GRAVE dump not yet read to its end by DUMP_READ. -/
  unread : Bool := false
  deriving DecidableEq, Repr, Inhabited

/-- The fault collector and the hayloft beyond their registers (R327 to R347). -/
structure FltS where
  /-- Cycle in which the reaction in force began (R333). -/
  reactCycle : Nat := 0
  /-- Mode before the reaction in force (R342). -/
  mode : Nat := 0
  /-- Yard L time at the detection of the reaction in force (R342). -/
  time : Nat := 0
  /-- Causes of the dumps that are due, oldest first (R340). -/
  dumpDue : List Nat := []
  /-- Exception address (R342). -/
  pc : Nat := 0
  ram : Option Dump := none
  flash : Vector DumpEntry 2 := Vector.replicate 2 {}
  /-- Entry being written, 0 none. -/
  writing : Nat := 0
  /-- The RAM copy asks for no flash write any more: it has reached flash, or its write was skipped (R344). -/
  inFlash : Bool := false
  /-- The management core is being restarted (R335). -/
  restarting : Bool := false
  /-- The crystal has stopped by itself, or has not come ready at boot (R328, XTAL_LOST). -/
  xtalLost : Bool := false
  /-- The last 32 PD messages (R343). -/
  pdLog : List (List Word) := []
  deriving DecidableEq, Repr, Inhabited

/-- A message in or for an outbound half (R273, R275), or one that waits for the NS6 inbound half (R283). -/
structure Msg where
  reply : Bool
  seq : Nat
  member : Nat
  words : List Word
  deriving DecidableEq, Repr, Inhabited

/-- What Dwezel keeps of the last message consumed on a channel (R276). -/
structure SeqHist where
  /-- Its SEQ. -/
  seq : Option Nat := none
  /-- The final reply to it, once there is one. -/
  reply : Option Msg := none
  /-- That reply has been acknowledged. -/
  acked : Bool := false
  deriving DecidableEq, Repr, Inhabited

/-- One mailbox channel beyond its registers (R276, R279, R281, R282). -/
structure MbxS where
  /-- The last message consumed from each source member; entry 0 on every channel but NS6 (R276, log entry 105). -/
  hist : Vector SeqHist 8 := Vector.replicate 8 {}
  /-- The message that stands in the outbound half is the final reply of its member's entry. -/
  replyOut : Bool := false
  /-- Unposted outbound messages, oldest first (R281). -/
  held : List Msg := []
  /-- SEQ of the next notice. -/
  noticeSeq : Nat := 0
  /-- The timeout of the message posted has rung (R282). -/
  rung : Bool := false
  /-- Dwezel has found the message in its scan (R279). -/
  seen : Bool := false
  /-- NS6: members a message was withdrawn from, which have not been reachable since (R283). -/
  shut : List Nat := []
  deriving DecidableEq, Repr, Inhabited

/-- A tack room function beyond TKR_FUNC (R289 to R296). -/
structure TackS where
  /-- The host has set its configuration. -/
  configured : Bool := false
  /-- Words 0 and 1 of the last report the host has ACKed, and the report that stands in EP1 (R293). -/
  acked : Nat × Nat := (0, 0)
  report : Option (List Word) := none
  /-- Queues whose timeout doorbell has rung since the last report. -/
  rung : Nat := 0
  /-- An MBX_SEND whose status stage is NAKed: channel, control word and words (R292). -/
  send : Option (Nat × List Word) := none
  /-- Billboard waits for its reconnect (R296). -/
  away : Bool := false
  /-- The packet that stands in EP3 and Dwezel has not taken (R290, R295). -/
  ep3 : Option (List Byte) := none
  deriving DecidableEq, Repr, Inhabited


/-- An open Tabver session (R307 to R309): its key, the KEYS entry, the party, the last sequence numbers of both directions and
the failed messages in a row. -/
structure Session where
  key : List Byte
  keyId : Nat
  perms : Nat
  party : Nat
  rx : Nat
  tx : Nat
  fails : Nat
  /-- Which session of the chip's life it is. -/
  id : Nat
  deriving DecidableEq, Repr, Inhabited

/-- Operations answered PENDING (R302). -/
inductive PendKind where
  | handoff (id : Nat)
  | reseed | erase | commit
  deriving DecidableEq, Repr

/-- An operation answered PENDING, whose LATER_DONE goes to the channel, SEQ and member it names; a secure one only while its
session stands (R276, R309). -/
structure PendOp where
  kind : PendKind
  c : Nat
  seq : Nat
  member : Nat
  word0 : Nat
  sess : Option Nat
  deriving DecidableEq, Repr

/-- A request forwarded to another member (R301): where its reply goes, and the member and SEQ it was sent with on NS6. -/
structure Fwd where
  to_ : Nat
  sent : Nat
  c : Nat
  seq : Nat
  member : Nat
  sess : Option Nat
  /-- Word 0 of the request, and whether PENDING has come for it. -/
  word0 : Nat
  pending : Bool := false
  deriving DecidableEq, Repr

/-- Dwezel's message work beyond the mailboxes (R301 to R309). -/
structure MsgS where
  /-- Sessions on SC0 to SC3. -/
  sess : Vector (Option Session) 4 := Vector.replicate 4 none
  /-- Sessions opened so far. -/
  opened : Nat := 0
  pend : List PendOp := []
  fwd : List Fwd := []
  /-- SEQ of the next request on NS6. -/
  nextSeq : Nat := 0
  deriving DecidableEq, Repr

/-- Expert pages (R368, R369): the cycle of each master's arming, and the masters whose page an event closed in cycle
`closedAt`. -/
structure ExpertS where
  armed : Vector Nat 16 := Vector.replicate 16 0
  closedAt : Nat := 0
  closed : List Nat := []
  deriving DecidableEq, Repr

/-- What a command of this core cycle has done, where a rule ranks it against a later command of the same cycle (log entry 9). -/
inductive Mark where
  /-- A master has written 1 to these bits of a W1S register; those of them that it set (R10). -/
  | w1s (addr : Nat) (w fresh : Word)
  /-- The timeline has dispatched an entry: one in each cycle (R89). -/
  | dispatched
  /-- A cell of a bank has been freed: it joins the free list in the next cycle (R108). -/
  | freed (bank : Nat)
  /-- The head of a port's egress queue has come and waits for its reads, with what its cells' ECC shows; or it has been read
  ahead of its command (R112). -/
  | headWaits (n ecc : Nat)
  | headRead (n : Nat)
  /-- A port reset has ended in this cycle: its step 3 runs (R137). -/
  | resetEnded (n : Nat)
  /-- The window has written or deleted timeline entry i (R94). -/
  | edited (i : Nat)
  /-- Yard y has stepped (R90). -/
  | stepped (y : Nat)
  /-- A driven gate has gone off for a seat removal, the channel being as given: a trip of this cycle stands beside it (R238). -/
  | seatOut (n : Nat) (c : Chan)
  /-- A RESYNC has come from a member; its answer waits for the last bales of this cycle (R195). -/
  | resync (src : Nat)
  /-- The hardware has raised client c's vote on domain d (R259). -/
  | raised (c d : Nat)
  /-- Inbound GO of a channel has fallen: the party's writes of this cycle are judged against the GO before it (R285). -/
  | inFreed (c : Nat)
  /-- The party has written the inbound control word of a channel: the word and IN_DB before that (R285). -/
  | ctrlWritten (c : Nat) (old : Word) (db : Bool)
  /-- A message has been posted in an outbound half: the party's acknowledgement in this cycle clears nothing (R285). -/
  | posted (c : Nat)
  /-- A holder's release of a lock has been made ahead of its command (R287). -/
  | released (i m : Nat)
  /-- A record of queue q has become visible (to readers from the next cycle, R313), or one has left it (R319, R320). -/
  | pushed (q : Nat)
  | popped (q : Nat)
  /-- Event counter i has added n (R324). -/
  | counted (i n : Nat)
  /-- OBS_PMU_EVT[i] has been written: the word that selects until the cycle ends (R325). -/
  | pmuEvt (i : Nat) (old : Word)
  /-- A word of event counter i has been written: what the counter would hold without that (R325). -/
  | pmuWrite (i v : Nat)
  /-- An access of a lower master to the block has been served ahead of its command (R372). -/
  | served (m addr : Nat)
  /-- The predictor has made its choice for domain d (R260). -/
  | chosen (d : Nat)
  /-- The third step of domain d's entry has begun in this cycle (R262). -/
  | moved (d : Nat)
  deriving DecidableEq, Repr

/-- The whole machine. -/
structure State where
  /-- Register words that differ from the reset word, addresses rising. -/
  regs : List (Nat × Word) := []
  /-- Core cycles since the model's reset: what "the same cycle" is judged by. -/
  cycle : Nat := 0
  /-- W1C bits the hardware set in this cycle, by register (R10). -/
  hwSet : List (Nat × Word) := []
  /-- What the commands of this cycle have done that a later one of the cycle must know of. -/
  marks : List Mark := []
  /-- The commands waiting, first in, first out. -/
  pending : List Instr := []
  outs : List Out := []
  plan : Plan := Plan.empty
  obs : Vector ObsQ 4 := Vector.replicate 4 {}
  yards : Vector Yard 5 := Vector.replicate 5 {}
  pat : Vector Pat 15 := Vector.replicate 15 {}
  pred : Vector Pred 12 := Vector.replicate 12 {}
  pdc : Pdc := {}
  chan : Vector Chan 17 := Vector.replicate 17 {}
  tlm : Vector TlmCh 17 := Vector.replicate 17 {}
  bud : Budget := {}
  tcp : Vector Tcp 17 := Vector.replicate 17 {}
  ss : SsS := {}
  otp : Otp := {}
  pln : PlnS := {}
  boot : BootS := {}
  hs : HsS := {}
  tt : Vector TtS 15 := Vector.replicate 15 {}
  /-- TT operation that waits for its transaction (R150), 0 none. -/
  ttOp : Nat := 0
  glk : Vector GlkS 4 := Vector.replicate 4 {}
  fab : FabS := {}
  /-- Port status of this chip's stalls, as their holding chip keeps it (R159). -/
  port : Vector PortStat 15 := Vector.replicate 15 {}
  mirror : List MirPos := []
  hubWaits : List HubWait := []
  holders : List Holder := []
  /-- Hand-offs that run, oldest first. -/
  handoff : List HandoffS := []
  flt : FltS := {}
  tml : Vector TmlE 256 := Vector.replicate 256 {}
  /-- Due contents of timeline entries that the window has changed in the cycle of their due time: they run first (R94). -/
  tmlOld : List (Nat × TmlE) := []
  tack : Vector TackS 2 := Vector.replicate 2 {}
  dp : Vector DpS 2 := Vector.replicate 2 {}
  mbx : Vector MbxS 12 := Vector.replicate 12 {}
  /-- Where Dwezel's service pass stands (R281). -/
  pass : Nat := 0
  /-- Messages the fabric proxy holds for the NS6 inbound half, by source member (R283). -/
  proxyHeld : List Msg := []
  msg : MsgS := {}
  expert : ExpertS := {}
  /-- The last sideband access timed out (R298, R299). -/
  sbTimedOut : Bool := false
  /-- The 16 KiB endpoint memory (R290): rising addresses, no entry that holds what an unlisted byte reads as, 0. -/
  epMem : List Host.Cell := []
  deriving DecidableEq, Repr

/-- The machine right after reset. -/
def State.reset : State := {}

end Sys2Proof.Machine
end

