-- ==== Sys2Proof/Machine/Flash.lean ====
section
/-!
DEFINITION. The flash and its slots as the plan loader reads them (R57 to R62 of spec/03_yard_plan_life.md).
-/
namespace Sys2Proof.Machine

/-- One bit of the reflected CRC-32 of IEEE 802.3. -/
def crcBit (c : BitVec 32) : BitVec 32 := if c.getLsbD 0 then (c >>> 1) ^^^ 0xEDB88320#32 else c >>> 1

/-- One byte of it. -/
def crcByte (c : BitVec 32) (b : Byte) : BitVec 32 :=
  (List.range 8).foldl (fun c _ => crcBit c) (c ^^^ b.setWidth 32)

/-- CRC-32 of a byte string (R59, R342). -/
def crc32 (l : List Byte) : Nat := (~~~ (l.foldl crcByte 0xFFFFFFFF#32)).toNat

/-- CMAGIC and CRC of a commit page are correct (R59, R60). -/
def pageOk (p : List Byte) : Bool := p.length = 256 && u32 p 0 = 0x4D43595A && u32 p 0xFC = crc32 (p.take 0xFC)

/-- SEQ of a commit page. -/
def pageSeq (p : List Byte) : Nat := u32 p 4

/-- The commit page of a plan file (R59). -/
def commitPage (seq : Nat) (d : List Byte) : List Byte :=
  let h := leBytes 4 0x4D43595A ++ leBytes 4 seq ++ leBytes 4 (u32 d 8) ++ leBytes 4 (u32 d 12) ++ leBytes 4 (u32 d 16)
    ++ (d.drop 32).take 32 ++ List.replicate 200 0xFF#8
  h ++ leBytes 4 (crc32 h)

/-! ## The flash (R57) -/

/-- First byte of slot k in the flash: A 0x0010_0000, B 0x0018_0000; each 512 KiB (R57). -/
def slotStart (k : Nat) : Nat := 0x100000 + 0x80000 * k

/-- Bytes of a slot before its commit page, the last 256 bytes of the slot (R57, R59). -/
def slotBody : Nat := 0x7FF00

/-- First byte of staging, 256 KiB (R57). -/
def stagingStart : Nat := 0x200000

/-- First byte of the hayloft, 512 KiB in two entries (R57). -/
def hayloftStart : Nat := 0x380000

/-- The bytes of the plan a slot holds, to its PLAN_LEN, within the slot. -/
def SlotF.plan (x : SlotF) : List Byte := (x.bytes.take slotBody).take (u32 x.page 8)

/-- What the flash holds at an address, as far as the chip reads or writes it (R57); every other byte, and one that is erased,
reads 0xFF. -/
def State.flashByte (s : State) (a : Nat) : Byte :=
  let slot (k : Nat) : Byte :=
    let x := vat s.pln.slot k
    let o := a - slotStart k
    if o < slotBody then x.bytes.getD o 0xFF else x.page.getD (o - slotBody) 0xFF
  if a < slotStart 0 then 0xFF
  else if a < slotStart 1 then slot 0
  else if a < slotStart 2 then slot 1
  else if a < stagingStart + 0x40000 then s.pln.data.getD (a - stagingStart) 0xFF
  else if hayloftStart ≤ a ∧ a < hayloftStart + 0x80000 then
    (((vat s.flt.flash ((a - hayloftStart) / 0x40000)).dump.map fun d => d.bytes.getD ((a - hayloftStart) % 0x40000) 0xFF).getD 0xFF)
  else 0xFF

/-- The commit page agrees with the header in the slot (R60). -/
def SlotF.headerOk (x : SlotF) : Bool :=
  let d := x.bytes
  pageOk x.page && u32 d 8 = u32 x.page 8 && u32 d 12 = u32 x.page 12 && u32 d 16 = u32 x.page 16
    && (d.drop 32).take 32 = (x.page.drop 0x14).take 32

/-- The hash over the plan body equals BODY_HASH (R29, R60). -/
def bodyOk (d : List Byte) : Bool := (Config.sha256 ((d.drop 64).take (d.length - 208))).toList = (d.drop 32).take 32

/-- A slot is valid (R60). -/
def SlotF.valid (x : SlotF) : Bool := x.headerOk && bodyOk x.plan

/-- Flash slot k: 0 A, 1 B. -/
def State.slotF (s : State) (k : Nat) : SlotF := vat s.pln.slot k

/-- The slot the next boot would try first, of the valid ones (R62, R398). -/
def State.bestSlot (s : State) : Option Nat :=
  let a := (s.slotF 0).valid
  let b := (s.slotF 1).valid
  if a && b then (if pageSeq (s.slotF 0).page < pageSeq (s.slotF 1).page then some 1 else some 0)
  else if a then some 0 else if b then some 1 else none

/-- The BODY_HASH of the committed slot (R77, R398), if there is one. -/
def State.committedHash (s : State) : Option (List Byte) := s.bestSlot.map fun k => ((s.slotF k).bytes.drop 32).take 32

end Sys2Proof.Machine
end

