-- ==== Sys2Proof/Machine/Ops.lean ====
section
/-!
DEFINITION. The named operations over registers: reading and writing a field, a hardware set of a W1C bit, counting;
the output log and the free values.
-/
namespace Sys2Proof.Machine

/-- What a command's meaning answers. -/
abbrev Res := Host.Outcome State Fault Refusal

/-! One update per field of `State` that no register shows. -/

/-- The state with `plan` replaced. -/
def State.withPlan (s : State) (v : Plan) : State := { s with plan := v }

/-- The state with `obs` replaced. -/
def State.withObs (s : State) (v : Vector ObsQ 4) : State := { s with obs := v }

/-- The state with `yards` replaced. -/
def State.withYards (s : State) (v : Vector Yard 5) : State := { s with yards := v }

/-- The state with `pat` replaced. -/
def State.withPat (s : State) (v : Vector Pat 15) : State := { s with pat := v }

/-- The state with `pred` replaced. -/
def State.withPred (s : State) (v : Vector Pred 12) : State := { s with pred := v }

/-- The state with `pdc` replaced. -/
def State.withPdc (s : State) (v : Pdc) : State := { s with pdc := v }

/-- The state with `chan` replaced. -/
def State.withChan (s : State) (v : Vector Chan 17) : State := { s with chan := v }

/-- The state with `tlm` replaced. -/
def State.withTlm (s : State) (v : Vector TlmCh 17) : State := { s with tlm := v }

/-- The state with `bud` replaced. -/
def State.withBud (s : State) (v : Budget) : State := { s with bud := v }

/-- The state with `tcp` replaced. -/
def State.withTcp (s : State) (v : Vector Tcp 17) : State := { s with tcp := v }

/-- The state with `ss` replaced. -/
def State.withSs (s : State) (v : SsS) : State := { s with ss := v }

/-- The state with `otp` replaced. -/
def State.withOtp (s : State) (v : Otp) : State := { s with otp := v }

/-- The state with `pln` replaced. -/
def State.withPln (s : State) (v : PlnS) : State := { s with pln := v }

/-- The state with `boot` replaced. -/
def State.withBoot (s : State) (v : BootS) : State := { s with boot := v }

/-- The state with `hs` replaced. -/
def State.withHs (s : State) (v : HsS) : State := { s with hs := v }

/-- The state with `tt` replaced. -/
def State.withTt (s : State) (v : Vector TtS 15) : State := { s with tt := v }

/-- The state with `ttOp` replaced. -/
def State.withTtOp (s : State) (v : Nat) : State := { s with ttOp := v }

/-- The state with `glk` replaced. -/
def State.withGlk (s : State) (v : Vector GlkS 4) : State := { s with glk := v }

/-- The state with `fab` replaced. -/
def State.withFab (s : State) (v : FabS) : State := { s with fab := v }

/-- The state with `port` replaced. -/
def State.withPort (s : State) (v : Vector PortStat 15) : State := { s with port := v }

/-- The state with `mirror` replaced. -/
def State.withMirror (s : State) (v : List MirPos) : State := { s with mirror := v }

/-- The state with `hubWaits` replaced. -/
def State.withHubWaits (s : State) (v : List HubWait) : State := { s with hubWaits := v }

/-- The state with `holders` replaced. -/
def State.withHolders (s : State) (v : List Holder) : State := { s with holders := v }

/-- The state with `handoff` replaced. -/
def State.withHandoff (s : State) (v : List HandoffS) : State := { s with handoff := v }

/-- The state with `flt` replaced. -/
def State.withFlt (s : State) (v : FltS) : State := { s with flt := v }

/-- The state with `tml` replaced. -/
def State.withTml (s : State) (v : Vector TmlE 256) : State := { s with tml := v }

/-- The state with `tmlOld` replaced. -/
def State.withTmlOld (s : State) (v : List (Nat × TmlE)) : State := { s with tmlOld := v }

/-- The state with `tack` replaced. -/
def State.withTack (s : State) (v : Vector TackS 2) : State := { s with tack := v }

/-- The state with `dp` replaced. -/
def State.withDp (s : State) (v : Vector DpS 2) : State := { s with dp := v }

/-- The state with `mbx` replaced. -/
def State.withMbx (s : State) (v : Vector MbxS 12) : State := { s with mbx := v }

/-- The state with `pass` replaced. -/
def State.withPass (s : State) (v : Nat) : State := { s with pass := v }

/-- The state with `proxyHeld` replaced. -/
def State.withProxyHeld (s : State) (v : List Msg) : State := { s with proxyHeld := v }

/-- The state with `msg` replaced. -/
def State.withMsg (s : State) (v : MsgS) : State := { s with msg := v }

/-- The state with `expert` replaced. -/
def State.withExpert (s : State) (v : ExpertS) : State := { s with expert := v }

/-- The state with `sbTimedOut` replaced. -/
def State.withSbTimedOut (s : State) (v : Bool) : State := { s with sbTimedOut := v }

/-- The state with `epMem` replaced. -/
def State.withEpMem (s : State) (v : List Host.Cell) : State := { s with epMem := v }

/-- The word listed for an address in a sparse list with rising addresses. -/
def getCell (a : Nat) : List (Nat × Word) → Option Word
  | [] => none
  | (b, v) :: t => if a < b then none else if a = b then some v else getCell a t

/-- Put a word at an address; the word `r` an unlisted address reads as is not listed. -/
def setCell (a : Nat) (w r : Word) : List (Nat × Word) → List (Nat × Word)
  | [] => if w = r then [] else [(a, w)]
  | (b, v) :: t =>
    if a < b then (if w = r then (b, v) :: t else (a, w) :: (b, v) :: t)
    else if a = b then (if w = r then t.dropWhile (fun e => e.1 ≤ a) else (a, w) :: t)
    else (b, v) :: setCell a w r t

/-- Are the addresses strictly rising from `lo`, with no entry equal to the reset word? -/
def regsWf : Nat → List (Nat × Word) → Bool
  | _, [] => true
  | lo, (a, w) :: t => decide (lo ≤ a) && decide (w ≠ resetWord a) && regsWf (a + 1) t

/-! ## The endpoint memory's bytes (R290) -/

/-- Size of the endpoint memory in bytes. -/
def epSize : Nat := 0x4000

/-- A byte of the endpoint memory; nothing the spec says stands there at reset, and a byte that is not listed reads 0
(DESIGN CHOICE, log entry 174). -/
def epByte (a : Nat) : List Host.Cell → Byte
  | [] => 0
  | (b, v) :: t => if a < b then 0 else if a = b then v else epByte a t

/-- Put a byte into the endpoint memory; a byte 0 is not listed. -/
def epPut (a : Nat) (v : Byte) : List Host.Cell → List Host.Cell
  | [] => if v = 0 then [] else [(a, v)]
  | (b, x) :: t =>
    if a < b then (if v = 0 then (b, x) :: t else (a, v) :: (b, x) :: t)
    else if a = b then (if v = 0 then t else (a, v) :: t)
    else (b, x) :: epPut a v t

/-- The canonical form of the endpoint memory: addresses strictly rising from `lo` and inside the 16 KiB, no byte 0 listed. -/
def epWf : Nat → List Host.Cell → Bool
  | _, [] => true
  | lo, (a, v) :: t => decide (lo ≤ a) && decide (a < epSize) && decide (v ≠ 0) && epWf (a + 1) t

/-- The canonical form of the endpoint memory. -/
def Memory.wf (l : List Host.Cell) : Bool := epWf 0 l

/-- The register list and the endpoint memory are in canonical form. -/
def State.wf (s : State) : Bool := regsWf 0 s.regs && Memory.wf s.epMem

/-! ## Words and fields -/

/-- The word a register holds. -/
def State.word (s : State) (a : Nat) : Word := (getCell a s.regs).getD (resetWord a)

/-- Put a word into a register. -/
def State.setWord (s : State) (a : Nat) (w : Word) : State := { s with regs := setCell a w (resetWord a) s.regs }

/-- Keep the listed registers that pass a test; the others read their reset words again. -/
def State.keepRegs (s : State) (f : Nat × Word → Bool) : State := { s with regs := s.regs.filter f }

/-- A hardware change of bits counts as of this cycle (R10). -/
def State.markHw (s : State) (a : Nat) (w : Word) : State := { s with hwSet := (a, w) :: s.hwSet }

/-- What a command has done counts until the cycle ends (log entry 9). -/
def State.mark (s : State) (k : Mark) : State := { s with marks := k :: s.marks }

/-- One such mark is taken back. -/
def State.unmark (s : State) (k : Mark) : State := { s with marks := s.marks.erase k }

/-- Bits `lo + n - 1` to `lo` of a word (R4). -/
def getBits (w : Word) (lo n : Nat) : Nat := w.toNat / 2 ^ lo % 2 ^ n

/-- A word with bits `lo + n - 1` to `lo` replaced by `v`, cut to `n` bits (R4). -/
def putBits (w : Word) (lo n v : Nat) : Word :=
  BitVec.ofNat 32 (w.toNat / 2 ^ (lo + n) * 2 ^ (lo + n) + v % 2 ^ n * 2 ^ lo + w.toNat % 2 ^ lo)

/-- The value of a field. -/
def State.g (s : State) (f : Fld) : Nat := getBits (s.word f.addr) f.lo f.width

/-- Set a field. -/
def State.p (s : State) (f : Fld) (v : Nat) : State := s.setWord f.addr (putBits (s.word f.addr) f.lo f.width v)

/-- Set several fields. -/
def State.fields (s : State) (l : List (Fld × Nat)) : State := l.foldl (fun s e => s.p e.1 e.2) s

/-- A one-bit field as a truth value. -/
def State.on (s : State) (f : Fld) : Bool := s.g f != 0

/-- The hardware sets bits of a W1C field, and the set counts as of this cycle (R10). -/
def State.hwOr (s : State) (f : Fld) (v : Nat) : State :=
  (s.p f (s.g f ||| v)).markHw f.addr (putBits 0 f.lo f.width v)

/-- The hardware sets a one-bit W1C field. -/
def State.hw (s : State) (f : Fld) : State := s.hwOr f 1

/-- Bits of a W1S field that masters have written 1 to in this cycle, and those of them they set (R10). -/
def State.written1s (s : State) (f : Fld) : Nat × Nat :=
  s.marks.foldl (fun r k => match k with
    | .w1s a w n => if a = f.addr then (r.1 ||| getBits w f.lo f.width, r.2 ||| getBits n f.lo f.width) else r
    | _ => r) (0, 0)

/-- A master writes 1 to bits of a W1S field (R8, R10). -/
def State.w1s (s : State) (f : Fld) (v : Nat) : State :=
  (s.p f (s.g f ||| v)).mark
    (.w1s f.addr (putBits 0 f.lo f.width v) (putBits 0 f.lo f.width (v - (v &&& s.g f))))

/-- The hardware clears bits of a W1S field; those a master writes 1 to in this cycle are left set (R10). -/
def State.clearW1s (s : State) (f : Fld) (v : Nat) : State :=
  s.p f ((s.g f - (s.g f &&& v)) ||| (s.g f &&& (s.written1s f).1))

/-- Does a command that waits, and so falls in this same cycle, pass a test (log entry 9)? -/
def State.ahead (s : State) (f : Instr → Bool) : Bool := s.pending.any f

/-- Add to a wrapping counter field. -/
def State.inc (s : State) (f : Fld) (n : Nat := 1) : State := s.p f (s.g f + n)

/-- Add to a saturating counter field. -/
def State.incSat (s : State) (f : Fld) (n : Nat := 1) : State := s.p f (min (s.g f + n) (2 ^ f.width - 1))

/-- Append to the output log. -/
def State.out (s : State) (o : Out) : State := { s with outs := o :: s.outs }

/-- Apply a change for each number of a list, in order. -/
def State.each (s : State) (l : List Nat) (f : Nat → State → State) : State := l.foldl (fun s n => f n s) s

/-- A change made only under a condition. -/
def State.when (s : State) (c : Bool) (f : State → State) : State := if c then f s else s

/-- A change of every timeline entry, and of the contents that still run in an entry's place (R94). -/
def State.tmlMap (s : State) (f : TmlE → TmlE) : State :=
  (s.withTml (s.tml.map f)).withTmlOld (s.tmlOld.map fun x => (x.1, f x.2))

/-- The median of a list (R96, R119); of two different ones in the middle, what the part makes of them (log entry 46). -/
def medianOf (l : List Nat) : Nat :=
  let a := l.mergeSort.getD ((l.length - 1) / 2) 0
  let b := l.mergeSort.getD (l.length / 2) 0
  if a = b then a else Config.middle a b

/-- The operating mode, in the encoding of MODE_GET (R23, R304): 0 BOOT, 1 LIFELINE, 2 PLAN, 3 SERVICE, 4 SAFE, 5 MAKER. -/
def State.mode (s : State) : Nat := s.g TOP_MODE.MODE

/-- SERVICE or LIFELINE. -/
def State.serving (s : State) : Bool := s.mode = 3 || s.mode = 1

/-- This chip's member number in the barn (R182). -/
def State.member (s : State) : Nat := s.fab.member

/-- The 64-bit value of a yard: interval count above a 15-bit tick (R6). -/
def Yard.value (y : Yard) : Nat := y.iv * 32768 + y.tick

/-- The value of a yard in ticks. -/
def Yard.ticks (y : Yard) : Nat := y.iv * 25000 + y.tick

/-- The time of a yard now. -/
def State.now (s : State) (y : Nat) : Nat := (vat s.yards y).value

/-- The number of ticks a 64-bit yard time stands for (R6). -/
def ticksOf (t : Nat) : Nat := t / 32768 * 25000 + t % 32768

/-- The STALLS entry of a stall of this chip in the running plan. -/
def State.stallE (s : State) (n : Nat) : Option StallE := s.plan.stall? s.member n

/-- The stall type the running plan gives channel n (R36); 0 for upstream ports. -/
def State.typ (s : State) (n : Nat) : Nat := if n ≤ 14 then s.plan.stallTyp s.member n else 0

/-- The STALLS FLAGS of a stall in the running plan (R36). -/
def State.stallFlag (s : State) (n bit : Nat) : Bool := ((s.stallE n).map fun e => bitOf e.flags bit).getD false

/-- The plan slot bound to upstream port u of this chip (R38). -/
def State.slotOf (s : State) (u : Nat) : Option Nat :=
  (s.plan.paddocks.find? fun r => r.upMember = s.member ∧ r.upPort = u).map (·.slot)

/-- The EFUSE settings of a channel (R46, R47). -/
def State.efuse (s : State) (n : Nat) : EfuseE := s.plan.efuseOf s.member (portCode n)

/-- The POWER entry of this chip (R43). -/
def State.powerE (s : State) : PowerE :=
  (s.plan.powerOf s.member).getD ⟨0, 0, 0, 0, 30000, 4500, 4500, 5000, 1000⟩

/-- A register word of a number. -/
def w32 (n : Nat) : Word := BitVec.ofNat 32 n

/-- The home member and upstream port of a slot (R14). -/
def State.homeOf (s : State) (slot : Nat) : Option (Nat × Nat) :=
  (s.plan.paddock? slot).map fun r => (r.upMember, r.upPort)

/-! ## The endpoint memory's buffers (R290) -/

/-- Bytes are put into the endpoint memory from an offset up, as far as it reaches. -/
def State.epWrite (s : State) (at_ : Nat) (bytes : List Byte) : State :=
  s.withEpMem (bytes.zipIdx.foldl (fun l e => if at_ + e.2 < epSize then epPut (at_ + e.2) e.1 l else l) s.epMem)

/-- Packets of at most `size` bytes go through the buffer at an offset, which holds one: the last of them stays there (R290). -/
def State.epPackets (s : State) (at_ size : Nat) (bytes : List Byte) : State :=
  s.epWrite at_ (bytes.drop ((bytes.length - 1) / size * size))

/-- Where the buffers of tack room function u begin, and those of logical-hub context i (R290). -/
def epFunc (u : Nat) : Nat := 0x980 + 1104 * u
def epCtx (i : Nat) : Nat := 608 * i

/-- Offset and size of a function's buffers (R290): EP0 to EP3. -/
def epBuf (u : Nat) (k : Nat) : Nat × Nat :=
  match k with
  | 0 => (epFunc u, 64)
  | 1 => (epFunc u + 64, 16)
  | 2 => (epFunc u + 80, 512)
  | _ => (epFunc u + 592, 512)

/-- Offset and size of a hub context's buffers (R290): EP0 or the status-change endpoint of one side. -/
def hubBuf (i : Nat) (ss status : Bool) : Nat × Nat :=
  match ss, status with
  | true, false => (epCtx i, 512)
  | false, false => (epCtx i + 512, 64)
  | true, true => (epCtx i + 576, 16)
  | false, true => (epCtx i + 592, 16)

/-- The descriptor store, from its first byte to the last of the memory (R290), takes new contents. -/
def State.epStore (s : State) (bytes : List Byte) : State :=
  let cells := (((bytes.take (epSize - 0x1220)).zipIdx 0x1220).map fun e => ((e.2, e.1) : Host.Cell)).filter fun x => x.2 ≠ 0
  s.withEpMem ((s.epMem.filter fun x => x.1 < 0x1220) ++ cells)

/-- One bit of a CRC-8 (polynomial 0x07). -/
def crc8bit (c : BitVec 8) : BitVec 8 := if c.msb then (c <<< 1) ^^^ 0x07#8 else c <<< 1

/-- The SMBus packet error code of a transfer's bytes, address bytes included (R297; PRESUMED, log entry 116). -/
def smbusPec (l : List Byte) : Byte :=
  l.foldl (fun c b => let c := c ^^^ b; crc8bit (crc8bit (crc8bit (crc8bit (crc8bit (crc8bit (crc8bit (crc8bit c)))))))) 0

/-- Words of bytes, little-endian; a trailing partial word is dropped (R297). -/
def bytesWords : List Byte → List Word
  | a :: b :: c :: d :: t => BitVec.ofNat 32 (a.toNat + b.toNat * 2^8 + c.toNat * 2^16 + d.toNat * 2^24) :: bytesWords t
  | _ => []

end Sys2Proof.Machine
end

