-- ==== Sys2Proof/Machine/Access.lean ====
section
/-!
DEFINITION. The register accesses that a command makes (R291, R297, R298, R372, R373): what commands of one cycle look for in
one another (R282, R287, R372).
-/
namespace Sys2Proof.Machine

/-- The unsigned sum of fields, each cut to its width, over a word. -/
def withFields (w : Word) (l : List (Fld × Nat)) : Word := l.foldl (fun w e => putBits w e.1.lo e.1.width e.2) w

/-! ## The words of the commands that name a register -/

/-- A TTA_CMD word. -/
def ttaWord (stall op dev ep dir typ : Nat) : Word :=
  withFields 0 [(TTA_CMD.STALL, stall), (TTA_CMD.OP, op), (TTA_CMD.DEV, dev), (TTA_CMD.EP, ep), (TTA_CMD.DIR, dir), (TTA_CMD.TYPE, typ)]

/-- A TML_SEL word: 1 READ, 2 WRITE, 3 DELETE. -/
def tmlWord (i cmd : Nat) : Word := withFields 0 [(TML_SEL.INDEX, i), (TML_SEL.CMD, cmd)]

/-- An inbound control word with GO. -/
def postWord (c : Nat) (reply : Bool) (seq count : Nat) : Word :=
  withFields 1 [(MBX_IN_CTRL.COUNT c, count), (MBX_IN_CTRL.REPLY c, b2n reply), (MBX_IN_CTRL.SEQ c, seq)]

/-- An FLT_CLEAR word with GO. -/
def clearWord (src : Nat) (all : Bool) (qual : Nat) : Word :=
  withFields 0 [(FLT_CLEAR.SOURCE, src), (FLT_CLEAR.ALL, b2n all), (FLT_CLEAR.QUAL, qual), (FLT_CLEAR.GO, 1)]

/-- An FLT_X_FORCE word with GO. -/
def forceWord (src qual : Nat) : Word :=
  withFields 0 [(FLT_X_FORCE.SOURCE, src), (FLT_X_FORCE.QUAL, qual), (FLT_X_FORCE.GO, 1)]

/-- PDC_CTRL with one AUTO_WAKE bit changed. -/
def State.autoWakeWord (s : State) (m : Nat) (on : Bool) : Word := putBits (s.word PDC_CTRL.addr) m 1 (b2n on)

/-- YRD_CTRL with new FORCE_COAST bits, or with SNAP. -/
def State.coastWord (s : State) (mask : Nat) : Word := withFields (s.word YRD_CTRL.addr) [(YRD_CTRL.FORCE_COAST, mask)]
def State.snapWord (s : State) : Word := withFields (s.word YRD_CTRL.addr) [(YRD_CTRL.SNAP, 1)]

/-- GLK_CTRL with RETRAIN bits. -/
def State.retrainWord (s : State) (mask : Nat) : Word := withFields (s.word GLK_CTRL.addr) [(GLK_CTRL.RETRAIN, mask)]

/-- OBS_Q_CTRL[q] with RESET, and OBS_PMU_EVT[i] with CLEAR. -/
def State.queueResetWord (s : State) (q : Nat) : Word := withFields (s.word (OBS_Q_CTRL.addr q)) [(OBS_Q_CTRL.RESET q, 1)]
def State.pmuClearWord (s : State) (i : Nat) : Word := withFields (s.word (OBS_PMU_EVT.addr i)) [(OBS_PMU_EVT.CLEAR i, 1)]

/-- The one access a command is: its master, its address, and the word it writes. -/
def State.accessOf (s : State) : Instr → Option (Nat × Nat × Option Word)
  | .registerWrite m a w => some (m.val, a.toNat, some w)
  | .restingDomainAccess m a d => some (m.val, a.toNat, d)
  | .autoWakeAccess m a d => some (m.val, a.toNat, d)
  | .autoWakeWrite m on => some (m.val, PDC_CTRL.addr, some (s.autoWakeWord m on))
  | .expertKeyWrite m k v => some (m.val, TOP_EXPERT_KEY.addr k, some (w32 v))
  | .chipResetRequest m v => some (m.val, TOP_X_RESET.addr, some (w32 v))
  | .forceCoast m mask => some (m.val, YRD_CTRL.addr, some (s.coastWord mask))
  | .snap m => some (m.val, YRD_CTRL.addr, some s.snapWord)
  | .yrdNowLoRead m y => some (m.val, YRD_NOW_LO.addr y, none)
  | .tmlRead m i => some (m.val, TML_SEL.addr, some (tmlWord i 1))
  | .tmlWrite m i => some (m.val, TML_SEL.addr, some (tmlWord i 2))
  | .tmlDelete m i => some (m.val, TML_SEL.addr, some (tmlWord i 3))
  | .ttaClearBuffer m n dev ep dirIn bulk => some (m.val, TTA_CMD.addr, some (ttaWord n 1 dev ep (b2n dirIn) (2 * b2n bulk)))
  | .ttaResetTt m n => some (m.val, TTA_CMD.addr, some (ttaWord n 2 0 0 0 0))
  | .ttaStopTt m n => some (m.val, TTA_CMD.addr, some (ttaWord n 3 0 0 0 0))
  | .ttaStart m n => some (m.val, TTA_CMD.addr, some (ttaWord n 4 0 0 0 0))
  | .linkRetrain m mask => some (m.val, GLK_CTRL.addr, some (s.retrainWord mask))
  | .bellRingRequest m mask => some (m.val, GLK_WAKE.addr, some (withFields 0 [(GLK_WAKE.RING, mask.val)]))
  | .tlmEnergyLoRead m n => some (m.val, TLM_ENERGY_LO.addr n, none)
  | .tlmEclrWrite m mask => some (m.val, TLM_ECLR.addr, some (w32 mask))
  | .ppwClearWrite m mask => some (m.val, PPW_CLEAR.addr, some (w32 mask))
  | .pdcMyvoteWrite m d v => some (m.val, PDC_MYVOTE.addr d, some (w32 v))
  | .inboundPost m c reply seq count => some (m.val, MBX_IN_CTRL.addr c, some (postWord c reply seq count))
  | .outboundAck m c => some (m.val, MBX_OUT_CTRL.addr c, some 1)
  | .mbxLockRead m i => some (m.val, MBX_LOCK.addr i, none)
  | .mbxLockWrite m i w => some (m.val, MBX_LOCK.addr i, some w)
  | .queueDataRead m q => some (m.val, OBS_Q_DATA.addr q, none)
  | .queueReset m q => some (m.val, OBS_Q_CTRL.addr q, some (s.queueResetWord q))
  | .pmuClear m i => some (m.val, OBS_PMU_EVT.addr i, some (s.pmuClearWord i))
  | .fltClearWrite m src all qual => some (m.val, FLT_CLEAR.addr, some (clearWord src all qual))
  | .forceFault m src qual => some (m.val, FLT_X_FORCE.addr, some (forceWord src qual))
  | .checkerInvert m mask => some (m.val, FLT_X_INVERT.addr, some (w32 mask))
  | _ => none

/-! ## Vendor requests and sideband transfers -/

/-- The configured tack room function that answers a slot's vendor requests here (R289, R291). -/
def State.tackUp (s : State) (slot : Nat) : Option Nat :=
  match s.homeOf slot with
  | none => none
  | some (m, u) => if m = s.member && s.on TKR_CTRL.ENABLE && s.g (TKR_FUNC.STATE u) = 4 then some u else none

/-- Successive words from an address upward, read or written. -/
def readsFrom (a n : Nat) : List (Nat × Option Word) := (List.range n).map fun i => (a + 4 * i, none)
def writesFrom (a : Nat) (l : List Word) : List (Nat × Option Word) := l.zipIdx.map fun e => (a + 4 * e.2, some e.1)

/-- Are address and length of a REG_READ in their range (R291, R366)? -/
def readOk (addr : BitVec 32) (len : Nat) : Bool := addr.toNat % 4 = 0 && decide (4 ≤ len) && decide (len ≤ 64) && len % 4 = 0

/-- Are address and length of a REG_WRITE or REG_WRITE_FIXED of at most `most` words in their range (R291, R366)? -/
def writeOk (addr : BitVec 32) (wLength : BitVec 16) (words : List Word) (most : Nat) : Bool :=
  addr.toNat % 4 = 0 && !words.isEmpty && decide (words.length ≤ most) && wLength.toNat = 4 * words.length

/-- Does a vendor request name a channel of its slot in wIndex (R277, R291)? -/
def State.namesChannel (s : State) (slot : Nat) (wIndex : BitVec 16) : Bool :=
  decide (wIndex.toNat < 12) && s.g (MBX_ASSIGN.PARTY wIndex.toNat) = 2 + slot

/-- The bytes an I2C transfer begins with: the target's address for a write and the register address (R297). -/
def State.i2cHead (s : State) (addr : Nat) : List Byte :=
  BitVec.ofNat 8 (2 * (0x28 + s.g TOP_STRAP.I2CADDR)) :: leBytes 3 addr

/-- The data bytes of an I2C write (R297): with PEC on, the last byte is the PEC, and a bad one leaves nothing. -/
def State.i2cData (s : State) (addr : Nat) (bytes : List Byte) : List Byte :=
  if !s.on TKR_SB.PEC then bytes
  else if bytes.getLast? = some (smbusPec (s.i2cHead addr ++ bytes.dropLast)) then bytes.dropLast else []

/-- The accesses of a sideband write and read; address bits 1:0 are taken as 0 (R366). -/
def sideWrites (a : Nat) (bytes : List Byte) : List (Nat × Option Word) := writesFrom (a / 4 * 4) (bytesWords bytes)
def sideReads (a n : Nat) : List (Nat × Option Word) := readsFrom (a / 4 * 4) ((n + 3) / 4)

/-- Does the chip answer on the I2C (6) or the SPI (7) target? -/
def State.sideOn (s : State) (m : Nat) : Bool := s.boot.held = 0 && s.on (if m = 6 then TKR_CTRL.I2C_EN else TKR_CTRL.SPI_EN)

/-- The accesses of one master, each with it. -/
def withMaster (m : Nat) (on : Bool) (l : List (Nat × Option Word)) : List (Nat × Nat × Option Word) :=
  if on then l.map fun x => (m, x.1, x.2) else []

/-- Every access a command makes, with its master. -/
def State.accesses (s : State) : Instr → List (Nat × Nat × Option Word)
  | .mbxAck slot v w len => withMaster (2 + slot) ((s.tackUp slot).isSome && s.namesChannel slot w && len.toNat = 0
      && s.g (MBX_OUT_CTRL.SEQ w.toNat) = v.toNat) [(MBX_OUT_CTRL.addr w.toNat, some 1)]
  | .regRead slot a len => withMaster (2 + slot) ((s.tackUp slot).isSome && readOk a len) (readsFrom a.toNat (len / 4))
  | .regWrite slot a len ws => withMaster (2 + slot) ((s.tackUp slot).isSome && writeOk a len ws 16) (writesFrom a.toNat ws)
  | .regWriteFixed slot a len ws =>
    withMaster (2 + slot) ((s.tackUp slot).isSome && writeOk a len ws 4) (ws.map fun w => (a.toNat, some w))
  | .i2cWrite a bytes => withMaster 6 (s.sideOn 6) (sideWrites a.toNat (s.i2cData a.toNat bytes))
  | .i2cRead a n => withMaster 6 (s.sideOn 6) (sideReads a.toNat n)
  | .spiWrite a bytes => withMaster 7 (s.sideOn 7) (sideWrites a.toNat bytes)
  | .spiRead a n => withMaster 7 (s.sideOn 7) (sideReads a.toNat n)
  | c => (s.accessOf c).toList

end Sys2Proof.Machine
end

