-- ==== Sys2Proof/Machine/Observe.lean ====
section
/-!
DEFINITION. The observation unit (spec/14_queues_counters.md): record queues and event counters.
A producer offers a record (`offer`); the queue reserves its words at once when nothing is being written, and the
command QUEUE_RECORD_WRITE makes it visible and takes the next that waits (R313).
-/
namespace Sys2Proof.Machine

/-- The two words of a 64-bit value, low first. -/
def words64 (t : Nat) : List Word := [w32 t, w32 (t / 2^32)]

/-- Is domain d ON for its users: steady, or AON? (R257; "a domain counts as ON ... up to its clock-stop request") -/
def State.domOn (s : State) (d : Nat) : Bool :=
  d = 0 || (s.g (PDC_DOM.STATE d) = 0 && (vat s.pdc.dom d).step = .idle)

/-- Ids of the domains (R35, R256). -/
def dPPA : Nat := 1
def dMGT : Nat := 2
def dHUB : Nat := 3
def dHSB : Nat := 4
def dFAB : Nat := 11

/-- The domain that holds an upstream port or a stall (R256). -/
def portDom (n : Nat) : Nat := if n ≤ 14 then 7 + min 3 (n / 4) else 5 + (n - 15)

/-! ## Event counters (R324, R325) -/

/-- Counters are chained now: in BOOT, PLAN and MAKER, and under RECOVERY (R325). -/
def State.chained (s : State) : Bool := s.on OBS_PMU_CTRL.RECOVERY || [0, 2, 5].contains s.mode

/-- The 48-bit value of counter i. -/
def State.pmuVal (s : State) (i : Nat) : Nat := s.g (OBS_PMU_HI.COUNT_HI i) * 2^32 + s.g (OBS_PMU_LO.COUNT_LO i)

/-- Put a 48-bit value into counter i. -/
def State.pmuSet (s : State) (i v : Nat) : State :=
  (s.p (OBS_PMU_LO.COUNT_LO i) v).p (OBS_PMU_HI.COUNT_HI i) (v / 2^32)

/-- What counter i would hold without a write of this cycle, if there has been one (R325). -/
def State.pmuKept (s : State) (i : Nat) : Option Nat :=
  s.marks.findSome? fun k => match k with
    | .pmuWrite j v => if j = i then some v else none
    | _ => none

/-- The value counter i counts on from. -/
def State.pmuBase (s : State) (i : Nat) : Nat := (s.pmuKept i).getD (s.pmuVal i)

/-- Counter i counts n; a value written in this cycle stands (R325). -/
def State.pmuBump (s : State) (i n : Nat) : State :=
  match s.pmuKept i with
  | some v => s.mark (.pmuWrite i ((v + n) % 2^48))
  | none => s.pmuSet i (s.pmuVal i + n)

/-- Counter i adds n, with its carry into the odd neighbour when chained, and its overflow bit (R325). -/
def State.pmuAdd (s : State) (i n : Nat) : State :=
  let s' := s.pmuBump i n
  if s.pmuBase i + n < 2^48 then s'
  else if s.chained && i % 2 = 0 then
    let s'' := s'.pmuBump (i + 1) 1
    if s'.pmuBase (i + 1) + 1 < 2^48 then s'' else s''.hwOr OBS_PMU_OVF.OVF (2 ^ (i + 1))
  else s'.hwOr OBS_PMU_OVF.OVF (2 ^ i)

/-- A word of counter i is about to be written, or the counter cleared (R325). -/
def State.pmuHold (s : State) (i : Nat) : State := s.mark (.pmuWrite i (s.pmuBase i))

/-- EVENT or FILTER of counter i is about to be written: it takes effect from the next cycle (R325). -/
def State.pmuSelect (s : State) (i : Nat) : State :=
  s.when (!s.marks.any fun k => match k with
    | .pmuEvt j _ => decide (j = i)
    | _ => false) fun s => s.mark (.pmuEvt i (s.word (OBS_PMU_EVT.addr i)))

/-- The word that selects what counter i counts in this cycle. -/
def State.pmuSel (s : State) (i : Nat) : Word :=
  (s.marks.findSome? fun k => match k with
    | .pmuEvt j w => if j = i then some w else none
    | _ => none).getD (s.word (OBS_PMU_EVT.addr i))

/-- What counter i may still add in this cycle: up to 8 (R324). -/
def State.pmuRoom (s : State) (i : Nat) : Nat :=
  s.marks.foldl (fun n k => match k with
    | .counted j m => if j = i then n - m else n
    | _ => n) 8

/-- `n` events of a code, with the index FILTER judges, reach every counter that selects them (R324). -/
def State.pmu (s : State) (event index : Nat) (n : Nat := 1) : State :=
  if !s.domOn dMGT || s.on OBS_PMU_CTRL.FREEZE || event = 0 || event > 0x16 then s
  else s.each (List.range 8) fun i s =>
    let e := OBS_PMU_EVT.EVENT i
    let f := OBS_PMU_EVT.FILTER i
    let x := getBits (s.pmuSel i) f.lo f.width
    if s.on (OBS_PMU_EVT.ENABLE i) && !(s.chained && i % 2 = 1) && getBits (s.pmuSel i) e.lo e.width = event
        && (x = 0xFF || x = index) then
      let k := min n (s.pmuRoom i)
      (s.mark (.counted i k)).pmuAdd i k
    else s

/-! ## Queues -/

/-- Capacity of queue q in words (R311). -/
def qCap (q : Nat) : Nat := if q % 2 = 0 then 4096 else 2048

/-- Words held, visible or reserved (R311). -/
def ObsQ.held (o : ObsQ) (q : Nat) : Nat := (o.wr + 2 * qCap q - o.rd) % (2 * qCap q)

/-- Change queue q. -/
def State.obsMod (s : State) (q : Nat) (f : ObsQ → ObsQ) : State := (s.withObs (vmod s.obs q f))

/-- A record of queue q counts as lost (R313 to R316), saturating. -/
def State.lost (s : State) (q : Nat) : State := (s.incSat (OBS_Q_LOST.LOST q)).pmu 0x16 q

/-- Words of a record with its length word. -/
def Rec.words (r : Rec) : Nat := r.body.length + 1

/-- The length word (R312). -/
def Rec.lengthWord (r : Rec) (rseq : Nat) : Word :=
  w32 (r.body.length + r.typ * 2^8 + r.yard * 2^16 + rseq * 2^24)

/-- Whole records that fit an EP2 packet of 512 bytes, from the head (R294). -/
def stageFit : List (List Word) → Nat → Nat
  | [], _ => 0
  | r :: t, room => if r.length ≤ room then 1 + stageFit t (room - r.length) else 0

/-- Stage the head records of an owned queue when nothing is staged (R294, R316). -/
def State.restage (s : State) (q : Nat) : State :=
  s.when (s.g (OBS_Q_CTRL.OWNER q) ≠ 0 && (vat s.obs q).staged = 0) fun s =>
    s.obsMod q fun o =>
      let n := stageFit o.recs 128
      { o with staged := n, packet := (o.recs.take n).flatten }

/-- Free whole records from RD until `n` words fit; each counts as lost, TORN when its reading had begun (R315, R316).
`flying` says that the data stage of the staged EP2 packet has begun. -/
def State.freeFor (q n : Nat) (flying : Bool) : Nat → State → State
  | 0, s => s
  | fuel + 1, s =>
    let o := vat s.obs q
    match o.recs with
    | [] => s
    | r :: t =>
      if n ≤ qCap q - o.held q then s
      else
        let begun := o.readPos > 0 || o.staged > 0
        let s := (s.lost q).when begun fun s => s.hw (OBS_Q_STATUS.TORN q)
        State.freeFor q n flying fuel (s.obsMod q fun o =>
          { o with recs := t, rd := (o.rd + r.length) % (2 * qCap q),
                   tornLeft := if o.readPos > 0 then r.length - o.readPos else o.tornLeft,
                   readPos := 0,
                   staged := if flying then o.staged - 1 else 0,
                   stagedGone := if flying && o.staged > 0 then o.stagedGone + 1 else o.stagedGone })

/-- Step 1 of R313: reserve the words of a record and hold it as the one being written. -/
def State.reserve (s : State) (q : Nat) (r : Rec) (flying : Bool) : State :=
  let s := State.freeFor q r.words flying 4096 s
  s.obsMod q fun o => { o with wr := (o.wr + r.words) % (2 * qCap q), writing := some r }

/-- Does a command of this cycle, behind this one, free words of queue q (R319)? -/
def State.popAhead (s : State) (q : Nat) : Bool :=
  let o := vat s.obs q
  let reads := (s.pending.flatMap s.accesses).filter fun y => y.2.1 = OBS_Q_DATA.addr q && y.2.2.isNone
  let left := (o.recs.headD []).length - o.readPos
  (s.g (OBS_Q_CTRL.OWNER q) = 0 && decide (0 < left ∧ left ≤ reads.length)) || s.ahead fun c => match c with
    | .ep2PacketAck slot => ([0, 1] : List Nat).any fun u =>
        s.slotOf u = some slot.val && s.g (OBS_Q_CTRL.OWNER q) = u + 1 && o.staged > 0
    | _ => false

/-- The next record that waits reserves its words when nothing is being written (R313); one that does not fit waits for a pop of
this cycle (R319). -/
def State.takeWaiting (s : State) (q : Nat) (flying : Bool) : State :=
  let o := vat s.obs q
  match o.writing, o.waiting with
  | none, x :: t =>
    if qCap q - o.held q < x.words && s.popAhead q then s
    else (s.obsMod q fun o => { o with waiting := t }).reserve q x flying
  | _, _ => s

/-- Has the IN data stage of queue q's staged packet begun, as a producer finds it (R316)? No command tells: a free value (log
entry 177). -/
def State.inData (s : State) (q : Nat) : Bool := (vat s.obs q).staged > 0 && Config.ep2Begun q s.cycle

/-- A producer offers a record (R313, R314). Producers are told apart by record type (log entry 12). -/
def State.offer (s : State) (q : Nat) (r : Rec) : State :=
  let o := vat s.obs q
  if !s.domOn dMGT then s.lost q
  else if !s.on (OBS_Q_CTRL.ENABLE q) then s
  else if o.waiting.any (fun x => x.typ = r.typ) then s.lost q
  else (s.obsMod q fun o => { o with waiting := o.waiting ++ [r] }).takeWaiting q (s.inData q)

/-- A record of the catalogue (R322): the yard time of now, then the words. -/
def State.record (s : State) (q typ yard : Nat) (ws : List Nat) : State :=
  s.offer q ⟨typ, yard, words64 (s.now yard) ++ ws.map w32⟩

/-- Steps 2 and 3 of R313: the record becomes visible, and the next that waits is reserved. -/
def State.finishRecord (s : State) (q : Nat) (flying : Bool) : State :=
  let o := vat s.obs q
  match o.writing with
  | none => s
  | some r =>
    let s := s.obsMod q fun o =>
      { o with writing := none, recs := o.recs ++ [r.lengthWord o.rseq :: r.body], rseq := (o.rseq + 1) % 256 }
    let s := (s.pmu 0x15 q).mark (.pushed q)
    -- a read of master 1 that was stalling returns the length word (R317, R319)
    let s := s.when o.stalled fun s =>
      (s.out (.read 1 [r.lengthWord o.rseq])).obsMod q fun o => { o with stalled := false, readPos := 1 }
    (s.takeWaiting q flying).restage q

/-- QUEUE_RECORD_WRITE (R313, R315): the record being written in queue q becomes visible. -/
def execQueueRecordWrite (q : Fin 4) (flying : Bool) (s : State) : Res := .next (s.finishRecord q flying)

/-- The head record leaves: its words become free (R317, R319). -/
def State.popHead (s : State) (q : Nat) : State :=
  (s.mark (.popped q)).obsMod q fun o => match o.recs with
    | [] => o
    | r :: t => { o with recs := t, rd := (o.rd + r.length) % (2 * qCap q), readPos := 0 }

/-- The records a reader sees: those made visible in this cycle are seen from the next (R313, R319). -/
def State.visible (s : State) (q : Nat) : List (List Word) :=
  let l := (vat s.obs q).recs
  l.take (l.length - s.marks.count (.pushed q))

/-- A read of OBS_Q_DATA by a master (R316 to R318): the word it returns (`none` while it stalls) and the state. -/
def State.queueRead (s : State) (q m : Nat) : Option Word × State :=
  let o := vat s.obs q
  if s.g (OBS_Q_CTRL.OWNER q) ≠ 0 then (some 0, s.hw (OBS_Q_STATUS.OWNED q))
  else if o.tornLeft > 0 then (some 0, s.obsMod q fun o => { o with tornLeft := o.tornLeft - 1 })
  else match s.visible q with
    | [] => if m = 1 then (none, s.obsMod q fun o => { o with stalled := true }) else (some 0, s)
    | r :: _ =>
      let w := r.getD o.readPos 0
      if o.readPos + 1 = r.length then (some w, (s.popHead q).takeWaiting q false)
      else (some w, s.obsMod q fun o => { o with readPos := o.readPos + 1 })

/-- QUEUE_READ_STALL_TIMEOUT (R317): a stalled read of master 1 returns 0 after 10 µs. -/
def State.queueStallEnd (s : State) (q : Nat) : State :=
  s.when (vat s.obs q).stalled fun s =>
    (s.obsMod q fun o => { o with stalled := false }).out (.read 1 [0])

/-- QUEUE_READ_STALL_TIMEOUT (R317). -/
def execQueueReadStallTimeout (q : Fin 4) (s : State) : Res := .next (s.queueStallEnd q)

/-- Queue reset (R321). -/
def State.queueReset (s : State) (q : Nat) : State :=
  let o := vat s.obs q
  let s := s.queueStallEnd q
  let s := ((s.p (OBS_Q_STATUS.TORN q) 0).p (OBS_Q_STATUS.OWNED q) 0).p (OBS_Q_STATUS.TIMEOUT q) 0
  -- a record whose length word falls in this cycle counts as in progress
  let s := s.p (OBS_Q_LOST.LOST q) (b2n (o.writing.isSome || s.marks.contains (.pushed q)))
  -- the discarded record's producer is released; records that wait are taken afresh, in order
  (s.obsMod q fun o => { ({} : ObsQ) with waiting := o.waiting }).takeWaiting q false

/-- EP2_PACKET_ACK (R294, R318): the records of the acknowledged packet that are still in the queue leave it. -/
def State.ackPacket (s : State) (q : Nat) : State :=
  let n := (vat s.obs q).staged
  let s := s.each (List.range n) fun _ s => s.popHead q
  ((s.obsMod q fun o => { o with staged := 0, stagedGone := 0 }).takeWaiting q false).restage q

/-- What a new cycle brings the queues: a record that waited for a pop is written, and a stalled read of master 1 finds the record
made visible in the last (R317, R319). -/
def State.obsTick (s : State) : State :=
  s.each [0, 1, 2, 3] fun q s =>
    let s := s.takeWaiting q false
    let o := vat s.obs q
    match o.recs with
    | r :: _ => s.when o.stalled fun s =>
        (s.out (.read 1 [r.headD 0])).obsMod q fun o => { o with stalled := false, readPos := 1 }
    | [] => s

/-- Give up the staged packet of a queue; its records stay (R294, R318). -/
def State.unstage (s : State) (q : Nat) : State := s.obsMod q fun o => { o with staged := 0, stagedGone := 0 }

/-- OBS_Q_STATUS as it reads now: the live fields beside the stored flags (R317 to R321). -/
def State.qStatusWord (s : State) (q : Nat) : Word :=
  let o := vat s.obs q
  s.word (OBS_Q_STATUS.addr q) ||| w32 (o.held q + o.recs.length * 2^13 + b2n o.writing.isSome * 2^27
    + b2n (o.readPos > 0 || o.staged > 0) * 2^28)

/-- OBS_Q_PTR as it reads now (R311). -/
def State.qPtrWord (s : State) (q : Nat) : Word := w32 ((vat s.obs q).wr + (vat s.obs q).rd * 2^16)

end Sys2Proof.Machine
end

