-- ==== Sys2Proof/Machine/Packet.lean ====
section
/-!
DEFINITION. The packet buffer (R107 to R111 of spec/05_superspeed_hub.md): its banks, reserves and shared pool; and the
bale links' queues and senders (R175 to R180, R186 of spec/08_ghelys_fabric.md), which every block that sends a control
bale uses. A step sends at once all that credits and window allow.
-/
namespace Sys2Proof.Machine

/-! ## Cells (R108, R109) -/

/-- Cells of a payload of n bytes. -/
def cellsOf (n : Nat) : Nat := (n + 63) / 64

/-- Shared cells that queue q holds: those beyond its reserve. -/
def State.sharedUsed (s : State) (q : Nat) : Nat := s.g (PBF_USED.USED q) - s.g (PBF_RESV.RESERVE q)

/-- Cells queue q can still take: its unused reserve, and the shared cells within SHARE_MAX and free (R109, R111). -/
def State.roomOf (s : State) (q : Nat) : Nat :=
  min (s.g PBF_STATUS.FREE) ((s.g (PBF_RESV.RESERVE q) - s.g (PBF_USED.USED q))
    + min (s.g (PBF_RESV.SHARE_MAX q) - s.sharedUsed q) (s.g PBF_SHARED_FREE.FREE))

/-- BANK_LOW follows the banks; a bank that falls below its floor is an event (R108). -/
def State.setBankLow (s : State) : State :=
  let m := ((List.range 8).map fun b => b2n (decide (s.g (PBF_BANK_FREE.FREE b) < s.g PBF_X_TUNE.BANK_FLOOR)) * 2 ^ b).sum
  let old := s.g PBF_STATUS.BANK_LOW
  (s.p PBF_STATUS.BANK_LOW m).when (old ||| m ≠ old) fun s => s.hw PBF_EVT.BANK_LOW

/-- The free cells of a bank that may be granted in this cycle: those freed in it join the free list in the next (R108). -/
def State.grantable (s : State) (b : Nat) : Nat :=
  s.g (PBF_BANK_FREE.FREE b) - (s.marks.filter fun k => k == .freed b).length

/-- One cell from the next bank in the rotation that holds a free one (R17, R108). R108 gives the requesters of a cycle a rotating
order without saying where it starts: here they come in the order of their commands, and one that finds no bank left, which
waits one cycle, takes its cell in the same step (DESIGN CHOICE, log entry 138). A bank at its floor is skipped while
another bank stands above it (DESIGN CHOICE, log entry 138). -/
def State.grantCell (s : State) : Nat × State :=
  let bs := (List.range 8).map fun i => (s.ss.ptr + i) % 8
  let b := match bs.find? fun b => s.grantable b > s.g PBF_X_TUNE.BANK_FLOOR with
    | some b => b
    | none => ((bs.find? fun b => s.grantable b > 0) <|> (bs.find? fun b => s.g (PBF_BANK_FREE.FREE b) > 0)).getD s.ss.ptr
  let s := s.withSs { s.ss with ptr := (b + 1) % 8 }
  (b, (s.p (PBF_BANK_FREE.FREE b) (s.g (PBF_BANK_FREE.FREE b) - 1)).pmu 0x06 b)

/-- Cells one after the other. -/
def State.grantCells : Nat → State → List Nat × State
  | 0, s => ([], s)
  | n + 1, s =>
    let (b, s) := s.grantCell
    let (l, s) := State.grantCells n s
    (b :: l, s)

/-- USED of queue q changes, and the totals with it. -/
def State.setUsed (s : State) (q n : Nat) : State :=
  let before := s.sharedUsed q
  let old := s.g (PBF_USED.USED q)
  let s := s.p (PBF_USED.USED q) n
  let s := s.p (PBF_USED.PEAK q) (max n (s.g (PBF_USED.PEAK q)))
  let s := s.p PBF_STATUS.FREE (s.g PBF_STATUS.FREE + old - n)
  (s.p PBF_SHARED_FREE.FREE (s.g PBF_SHARED_FREE.FREE + before - s.sharedUsed q)).setBankLow

/-- Queue q takes n cells (R108, R109). -/
def State.takeCells (s : State) (q n : Nat) : List Nat × State :=
  let (l, s) := State.grantCells n s
  (l, s.setUsed q (s.g (PBF_USED.USED q) + n))

/-- Change link k. -/
def State.lkMod (s : State) (k : Nat) (f : GlkS → GlkS) : State := (s.withGlk (vmod s.glk k f))

/-- Link k. -/
def State.lk (s : State) (k : Nat) : GlkS := vat s.glk k

/-- Cells of queue q return to their banks; on a Ghelys link each is a credit to return (R108, R179). -/
def State.freeCells (s : State) (q : Nat) (banks : List Nat) : State :=
  let s := s.each banks fun b s => (s.p (PBF_BANK_FREE.FREE b) (s.g (PBF_BANK_FREE.FREE b) + 1)).mark (.freed b)
  let s := s.setUsed q (s.g (PBF_USED.USED q) - banks.length)
  s.when (17 ≤ q && q ≤ 20) fun s => s.lkMod (q - 17) fun l => { l with owedD := l.owedD + banks.length }

/-- May a credit of queue q be returned (R111)? -/
def State.creditOk (s : State) (q : Nat) : Bool :=
  s.roomOf q ≥ s.g PBF_X_TUNE.CREDIT_MIN && s.g PBF_STATUS.BANK_LOW = 0

/-! ## Bales (R175 to R177) -/

/-- One bit of a CRC-16 with polynomial 0x1021, unreflected (R177). -/
def crc16bit (crc : BitVec 16) : BitVec 16 := if crc.msb then (crc <<< 1) ^^^ 0x1021#16 else crc <<< 1

/-- One byte of a CRC-16. -/
def crc16byte (crc : BitVec 16) (b : Byte) : BitVec 16 :=
  let c := crc ^^^ ((b.setWidth 16) <<< 8)
  crc16bit (crc16bit (crc16bit (crc16bit (crc16bit (crc16bit (crc16bit (crc16bit c)))))))

/-- The CRC of a bale (R177): its sequence value, header bytes 0 to 5 and its 64 payload bytes. -/
def baleCrc (seq header : Nat) (payload : List Byte) : Nat :=
  ((leBytes 2 seq ++ leBytes 6 header ++ payload).foldl crc16byte 0xFFFF#16).toNat

/-- 64 payload bytes: zeros follow the last byte that LEN counts (R175). -/
def pad64 (l : List Byte) : List Byte := (l ++ List.replicate 64 0).take 64

/-- The payloads of at most 64 bytes a packet is cut into (R176). -/
def chunks64 : Nat → List Byte → List (List Byte)
  | 0, _ => []
  | n + 1, l => if l.length ≤ 64 then [l] else l.take 64 :: chunks64 n (l.drop 64)

/-- The WORD fields every data-class bale of a packet shares (R176): DEST and FLOW. -/
def FPkt.flowWord (p : FPkt) : Nat := p.dest + (p.src * 512 + p.idx) * 8

/-- The bales of a packet (R116, R176): one for each 64 payload bytes, or one HDR. -/
def FPkt.bales (p : FPkt) : List Bale :=
  let cell (i : Nat) : Option (Nat × Nat) := p.transit.bind fun t => (t.2[i]?).map fun b => (t.1, b)
  if p.hdr then
    [⟨3, true, p.flowWord + p.ps * 2^15 + b2n p.epoch * 2^17, p.body ++ [0, 0], p.mark, cell 0⟩]
  else
    let l := chunks64 (p.body.length / 64 + 1) p.body
    l.zipIdx.map fun (c, i) =>
      let last := decide (i + 1 = l.length)
      if i = 0 then
        ⟨1, last, p.flowWord + p.ps * 2^15 + p.pseq * 2^17 + b2n p.eob * 2^22 + b2n p.epoch * 2^23, c, p.mark, cell i⟩
      else ⟨2, last, p.flowWord, c, p.mark, cell i⟩

/-- ACK, CRD and CCR of the next bale on link k, and the state after the credits are returned (R175, R179): data credits are
withheld on the terms of R111, control credits while queue 21 is full. -/
def State.balePrefix (s : State) (k : Nat) : Nat × Nat × Nat × State :=
  let l := s.lk k
  let ok := s.creditOk (17 + k)
  let d := if ok then min 7 l.owedD else 0
  let c := if s.roomOf 21 = 0 then 0 else min 1 l.owedC
  let s := s.when (!ok && l.owedD > 0) fun s => s.hw PBF_EVT.HOLD
  ((l.rxSeq + 511) % 512, d, c, s.lkMod k fun l => { l with owedD := l.owedD - d, owedC := l.owedC - c })

/-- Is link k awake and trained, so that LINK bales cross it? -/
def State.lkAwake (s : State) (k : Nat) : Bool := [3, 4, 6].contains (s.g (GLK_LINK.STATE k))

/-- The header word of a bale (R175): KIND, LAST, the number of payload bytes, ACK, CRD, CCR and WORD, with the CRC over the
sequence value, this header and the payload (R177). `inv` sends the CRC inverted (R338). -/
def baleHeader (kind : Nat) (last : Bool) (len ack crd ccr word seq inv : Nat) (pay : List Byte) : Nat :=
  let h := kind + b2n last * 8 + (len - 1) * 16 + ack * 2^10 + crd * 2^19 + ccr * 2^22 + word * 2^23
  let crc := baleCrc seq h (pad64 pay)
  h + (if inv = 1 then 0xFFFF - crc else crc) * 2^48

/-- OP of a LINK bale (R176). -/
def linkOp (op : String) : Nat :=
  ["NOP", "NAK", "PARAM", "HELLO", "PROBE", "PROBE_REPLY", "HEARTBEAT", "SLEEP_REQ", "SLEEP_ACK", "SLEEP_NAK", "DOWN"].idxOf op

/-- Payload of a LINK bale: NAK by R178 and HELLO by R181; the others that carry fields are free (log entry 148). -/
def linkBody (op : String) (fields : List Nat) : List Byte :=
  if op = "NAK" then leBytes 2 (fields.headD 0)
  else if op = "HELLO" then pad64 ((([8, 32, 4, 1, 1, 1, 1, 1] : List Nat).zip fields).flatMap fun (w, v) => leBytes w v)
  else if fields.isEmpty then [] else (Config.linkBody op fields).take 64

/-- A LINK bale is sent on link k (R176): its header word and its fields. Any but a NOP ends IDLE (R171). -/
def State.linkBale (s : State) (k : Nat) (op : String) (fields : List Nat) : State :=
  if !s.lkAwake k || (s.lk k).cut then s
  else
    let (a, d, c, s) := s.balePrefix k
    let pay := linkBody op fields
    let s := s.when (op ≠ "NOP") fun s => s.p (GLK_LINK.IDLE k) 0
    s.out (.bale k op (baleHeader 5 true pay.length a d c (linkOp op) 0xFFFF 0 pay :: fields))

/-- Take the link's CRC inversion, once (R338): 1 when this sequenced bale goes out with its CRC inverted. -/
def State.takeInvert (s : State) (k : Nat) : Nat × State :=
  if bitOf (s.g FLT_X_INVERT.GLK_CRC) k then (1, s.clearW1s FLT_X_INVERT.GLK_CRC (2 ^ k)) else (0, s)

/-- A data-class bale leaves on link k with a sequence value (R175 to R177): its header word and payload. -/
def State.emitData (s : State) (k seq : Nat) (b : Bale) : State :=
  let (a, d, c, s) := s.balePrefix k
  let (inv, s) := s.takeInvert k
  let s := s.out (.bale k (if b.kind = 3 then "HDR" else if b.kind = 1 then "DATA_FIRST" else "DATA_CONT")
    (baleHeader b.kind b.last b.body.length a d c b.word seq inv b.body :: b2n b.mark :: (pad64 b.body).map (·.toNat)))
  (s.lkMod k fun l => { l with load := l.load + 1 }).pmu 0x08 k

/-- Payload of a CTRL bale (R176): its control sequence, then the message, whose layout the spec leaves open (log entry 148). -/
def ctrlBody (m : CtrlMsg) : List Byte := leBytes 2 m.seq ++ (Config.ctrlBody m.name m.fields).take 62

/-- WORD of a CTRL bale (R176): DEST, SRC, BCAST and TYPE, whose codes the spec leaves open (log entry 148). -/
def ctrlWord (m : CtrlMsg) : Nat :=
  m.dest % 8 + m.src * 8 + b2n (decide (m.dest = 8)) * 2^6 + (Config.ctrlType m.name).toNat * 2^7

/-- A CTRL bale leaves on link k: its header word, source, destination and control sequence, and its message. -/
def State.emitCtrl (s : State) (k seq : Nat) (m : CtrlMsg) : State :=
  let (a, d, c, s) := s.balePrefix k
  let (inv, s) := s.takeInvert k
  let pay := ctrlBody m
  s.out (.bale k m.name (baleHeader 4 true pay.length a d c (ctrlWord m) seq inv pay :: m.src :: m.dest :: m.seq :: m.fields))

/-! ## Routes by hop count (R185) -/

/-- A single-lane link counts as two hops. -/
def adWeight (l : LinkAd) : Nat := if l.single then 2 else 1

/-- No path. -/
def noPath : Nat := 99

/-- Hop counts of every member to member d. -/
def hopDist (db : List LinkAd) (d : Nat) : List Nat :=
  let relax (v : List Nat) (l : LinkAd) : List Nat :=
    let a := v.getD l.memberA noPath
    let b := v.getD l.memberB noPath
    (v.set l.memberA (min a (b + adWeight l))).set l.memberB (min b (a + adWeight l))
  (List.range 8).foldl (fun v _ => db.foldl relax v) ((List.replicate 8 noPath).set d 0)

/-- The links of member m in a topology: own link number, neighbour, weight. -/
def linksOf (db : List LinkAd) (m : Nat) : List (Nat × Nat × Nat) :=
  db.filterMap fun l =>
    if l.memberA = m then some (l.linkA, l.memberB, adWeight l)
    else if l.memberB = m then some (l.linkB, l.memberA, adWeight l)
    else none

/-- Routes of member m: the equal-cost next hops, the hop count and the control link, for each destination. -/
def routesOf (db : List LinkAd) (m : Nat) : List RouteE :=
  (List.range 8).map fun d =>
    let v := hopDist db d
    let n := v.getD m noPath
    if d = m ∨ n ≥ noPath then ⟨0, 0, 0⟩
    else
      let ks := (linksOf db m).filterMap fun e => if v.getD e.2.1 noPath + e.2.2 = n then some e.1 else none
      ⟨(([0, 1, 2, 3].filter ks.contains).map (2 ^ ·)).sum, n, (([0, 1, 2, 3].find? ks.contains)).getD 0⟩

/-! ## Sending (R178 to R180, R186) -/

/-- Weight of a slot (R186). -/
def State.drrWeight (s : State) (q : Nat) : Nat := getBits (s.word DRV_X_WRR.addr) (4 * q) 4

/-- Deficit round robin picks the next packet of link k, or none (R186). -/
def State.drrPick (k : Nat) : Nat → State → Option FPkt × State
  | 0, s => (none, s)
  | fuel + 1, s =>
    let l := s.lk k
    let q := l.turn
    let next (s : State) : State := s.lkMod k fun l => { l with turn := (q + 1) % 4, visited := false }
    match vat l.dataQ q with
    | [] => State.drrPick k fuel (next (s.lkMod k fun l => { l with deficit := vset l.deficit q 0 }))
    | p :: t =>
      let d := vat l.deficit q + (if l.visited then 0 else 16 * s.drrWeight q)
      let n := p.bales.length
      if n ≤ d then
        (some p, s.lkMod k fun l =>
          { l with dataQ := vset l.dataQ q t, deficit := vset l.deficit q (d - n), visited := true })
      else State.drrPick k fuel (next (s.lkMod k fun l => { l with deficit := vset l.deficit q d }))

/-- Send what link k may send now: CTRL bales first, then the run of one packet after the other (R180), while the window of
256 and the credits last. -/
def State.pump (k : Nat) : Nat → State → State
  | 0, s => s
  | fuel + 1, s =>
    let l := s.lk k
    if s.g (GLK_LINK.STATE k) ≠ 4 ∨ l.cut ∨ l.win.length ≥ 256 then s
    else
      let seq := l.txSeq
      match l.ctrlQ with
      | m :: t =>
        if l.cCred = 0 then s
        else
          let s := s.lkMod k fun l => { l with ctrlQ := t, cCred := l.cCred - 1, txSeq := (seq + 1) % 512,
                                               win := l.win ++ [.ctrl seq m] }
          State.pump k fuel ((s.p (GLK_LINK.IDLE k) 0).emitCtrl k seq m)
      | [] =>
        match l.run with
        | b :: t =>
          if l.dCred = 0 then s
          else
            let s := s.lkMod k fun l => { l with run := t, dCred := l.dCred - 1, txSeq := (seq + 1) % 512,
                                                 win := l.win ++ [.data seq b] }
            State.pump k fuel ((s.p (GLK_LINK.IDLE k) 0).emitData k seq b)
        | [] =>
          if l.dCred = 0 || !s.on DRV_CTRL.ENABLE then s
          else match State.drrPick k 9 s with
            | (none, s) => s
            | (some p, s) => State.pump k fuel (s.lkMod k fun l => { l with run := p.bales })

/-- Bales and picks one step can send at most on a link. -/
def pumpFuel : Nat := 1024

/-- A CTRL message is queued on link k and sent when it can be. -/
def State.ctrlOn (s : State) (k : Nat) (m : CtrlMsg) : State :=
  State.pump k pumpFuel (s.lkMod k fun l => { l with ctrlQ := l.ctrlQ ++ [m] })

/-- The routes in force toward member d (R185). -/
def State.routeTo (s : State) (d : Nat) : RouteE := s.fab.route.getD d default

/-- Is member d reachable? -/
def State.reach (s : State) (d : Nat) : Bool := d = s.fab.member || (s.routeTo d).next ≠ 0

/-- The next control sequence for a destination, 8 for broadcasts (R176). -/
def State.nextCseq (s : State) (d : Nat) : Nat × State :=
  let q := vat s.fab.cseq d
  (q, (s.withFab { s.fab with cseq := vset s.fab.cseq d ((q + 1) % 65536) }))

/-- The link a CTRL message takes toward member d: the table's control link (R185). What a hot attach exchanges goes by the
links flooding shows where the table in force does not reach yet (R184, log entry 43). -/
def State.ctrlLink (s : State) (d : Nat) (name : String) : Option Nat :=
  if s.reach d then some (s.routeTo d).ctrl
  else if ["TABLES", "TABLES_ACK", "FORMED"].contains name then
    let e := (routesOf s.fab.lsdb s.fab.member).getD d default
    if e.next = 0 then none else some e.ctrl
  else none

/-- A CTRL message to member d on its control link (R185); nothing leaves for an unreachable member. -/
def State.ctrlTo (s : State) (d : Nat) (name : String) (fields : List Nat) : State :=
  if d = s.fab.member then s
  else match s.ctrlLink d name with
    | none => s
    | some k =>
      let (q, s) := s.nextCseq d
      s.ctrlOn k ⟨s.fab.member, d, q, name, fields, none⟩

/-- Links in service. -/
def State.upLinks (s : State) : List Nat := [0, 1, 2, 3].filter fun k => s.g (GLK_LINK.STATE k) = 4 && !(s.lk k).cut

/-- The links a broadcast CTRL message takes: those in service, and, but for what a sleeping link does not carry or is not woken for
(R86, R173, R190; DEDUCED, log entry 165), those asleep, whose bell it has rung. -/
def State.castLinks (s : State) (name : String) : List Nat :=
  let quiet := ["BARN_TIME", "YARD_DESCRIPTOR", "LOAD"].contains name
  [0, 1, 2, 3].filter fun k => (s.g (GLK_LINK.STATE k) = 4 || (!quiet && (s.lk k).asleep)) && !(s.lk k).cut

/-- A broadcast CTRL message, flooded on every link that takes it (R185). -/
def State.ctrlAll (s : State) (name : String) (fields : List Nat) : State :=
  let (q, s) := s.nextCseq 8
  s.each (s.castLinks name) fun k s => s.ctrlOn k ⟨s.fab.member, 8, q, name, fields, none⟩

/-! ## Receiving what every bale header carries (R175, R178, R179) -/

/-- The sequence value of a bale in the window. -/
def Sent.seq : Sent → Nat
  | .ctrl q _ => q
  | .data q _ => q

/-- A CTRL message passed on frees its cell of queue 21, which is a control credit to return (R109, R179). -/
def State.freeCtrl (s : State) (m : CtrlMsg) : State := match m.cell with
  | some (k, b) => (s.freeCells 21 [b]).lkMod k fun l => { l with owedC := l.owedC + 1 }
  | none => s

/-- An acknowledged transit bale frees its cell (R178, R188). -/
def State.freeSent (s : State) : Sent → State
  | .data _ b => match b.cell with
    | some (q, c) => s.freeCells q [c]
    | none => s
  | .ctrl _ m => s.freeCtrl m

/-- ACK covers the window up to and with its value (R178). -/
def State.takeAck (s : State) (k ack : Nat) : State :=
  let w := (s.lk k).win
  match w.findIdx? fun x => x.seq = ack with
  | none => s
  | some i =>
    let s := s.lkMod k fun l => { l with win := l.win.drop (i + 1), replays := 0 }
    (w.take (i + 1)).foldl State.freeSent s

/-- The fields of a received bale's header are applied, and what they free is sent. Any bale but a NOP ends IDLE: `rxLink`
takes a LINK bale of another OP (R171). -/
def State.rxHdr (s : State) (h : BaleHdr) : State :=
  let k := h.link.val
  let s := s.takeAck k h.ack
  let s := s.lkMod k fun l => { l with dCred := min 256 (l.dCred + h.crd), cCred := min 64 (l.cCred + b2n h.ccr) }
  State.pump k pumpFuel s

/-- A LINK bale other than a NOP has come (R171, R175). -/
def State.rxLink (s : State) (h : BaleHdr) : State := (s.p (GLK_LINK.IDLE h.link) 0).rxHdr h

/-- A sequenced bale has come in order on link k. -/
def State.rxSequenced (s : State) (k : Nat) : State :=
  s.lkMod k fun l => { l with rxSeq := (l.rxSeq + 1) % 512, nakked := false }

end Sys2Proof.Machine
end

