-- ==== Sys2Proof/Machine/Fabric.lean ====
section
/-!
DEFINITION. Routes, flow records and the loss of a link (R185 to R189, R194, R195 of spec/08_ghelys_fabric.md), and the
egress queues packets are delivered to: what the fault reactions and the SS hub core share.
-/
namespace Sys2Proof.Machine

/-- Change the drover's state. -/
def State.fabMod (s : State) (f : FabS → FabS) : State := (s.withFab (f s.fab))

/-! ## Tables (R185) -/

/-- Is a link the one of a BARN entry? -/
def adIsEntry (l : LinkAd) (e : LinkE) : Bool :=
  l.memberA = e.memberA && l.linkA = e.linkA && l.memberB = e.memberB && l.linkB = e.linkB

/-- The table pushed to member m, with the alternates for each link and each member failing (R185). -/
def tableOf (entries : List LinkE) (db : List LinkAd) (m ver at_ : Nat) : RouteTable :=
  { ver := ver, at_ := at_, main := routesOf db m,
    byLink := entries.map fun e => routesOf (db.filter fun l => !adIsEntry l e) m,
    byMember := (List.range 8).map fun x => routesOf (db.filter fun l => l.memberA ≠ x ∧ l.memberB ≠ x) m }

/-- Do the equal-cost paths from m to d cross a link (R194)? -/
def pathUses (db : List LinkAd) (m d : Nat) (l : LinkAd) : Bool :=
  let vd := hopDist db d
  let vm := hopDist db m
  let n := vd.getD m noPath
  n < noPath && (vm.getD l.memberA noPath + adWeight l + vd.getD l.memberB noPath = n
    || vm.getD l.memberB noPath + adWeight l + vd.getD l.memberA noPath = n)

/-- Link entries of the running plan. -/
def State.barnLinks (s : State) : List LinkE := (s.plan.barn.map (·.links)).getD []

/-- The BARN entry of own link k, with its index (R169). -/
def State.entryOf (s : State) (k : Nat) : Option (LinkE × Nat) :=
  s.barnLinks.zipIdx.find? fun e =>
    (e.1.memberA = s.member && e.1.linkA = k) || (e.1.memberB = s.member && e.1.linkB = k)

/-- A MEMBER record (R322): 0 joined, 1 lost, 2 new lead. -/
def State.memberRecord (s : State) (m what : Nat) : State :=
  s.record 3 0x42 4 [m + what * 2^4 + s.g DRV_BARN.TABLE_VER * 2^8]

/-- Routes come into force: DRV_ROUTE, and PRESENT with the members that join or are lost (R161, R185). What a loss brings
beyond the drover is done by `settleLost`. -/
def State.installRoutes (s : State) (l : List RouteE) : State :=
  let s := s.fabMod fun f => { f with route := l }
  let s := s.each (List.range 8) fun d s =>
    let e := l.getD d default
    (((s.p (DRV_ROUTE.NEXT d) e.next).p (DRV_ROUTE.HOPS d) e.hops).p (DRV_ROUTE.REACH d) (b2n (s.reach d))).p
      (DRV_ROUTE.CTRL_LINK d) e.ctrl
  s.each (List.range 8) fun d s =>
    let was := bitOf (s.g DRV_BARN.PRESENT) d
    if s.reach d && !was then
      let s := s.p DRV_BARN.PRESENT (s.g DRV_BARN.PRESENT + 2 ^ d)
      -- a pen whose engine is there reads connected again once its position is powered (R155)
      let s := (s.withMirror (s.mirror.map fun (q : MirPos) =>
        if q.kind = 2 && q.member = d then
          let st := if bitOf q.st.hs 8 || bitOf q.st.ss 9 then
            { q.st with hs := q.st.hs ||| 0x401, hsChg := q.st.hsChg ||| 1, ss := q.st.ss ||| 3, ssChg := q.st.ssChg ||| 1 } else q.st
          { q with reach := true, st := st }
        else q))
      -- Dwezel posts to it again (R283)
      let s := s.withMbx (vmod s.mbx 6 fun (y : MbxS) => { y with shut := y.shut.filter fun x => x ≠ d })
      s.when (s.on DRV_BARN.FORMED && d ≠ s.member) fun s => (s.hw DRV_EVT.JOIN).memberRecord d 0
    else if was && !s.reach d then
      let s := (s.p DRV_BARN.PRESENT (s.g DRV_BARN.PRESENT - 2 ^ d)).fabMod fun f => { f with lost := f.lost ++ [d] }
      (s.hw DRV_EVT.LOST).memberRecord d 1
    else s

/-! ## Egress queues -/

/-- The egress queue of a port changes; HP_OUT follows it. -/
def State.setEgress (s : State) (n : Nat) (l : List Buf) : State :=
  ((s.p (SSH_PORT.HP_OUT n) (min 4 l.length)).withSs { s.ss with egress := vset s.ss.egress n l })

/-- The egress queue of a port. -/
def State.egress (s : State) (n : Nat) : List Buf := vat s.ss.egress n

/-- A packet joins the egress queue of a port. -/
def State.pushEgress (s : State) (n : Nat) (b : Buf) : State := s.setEgress n (s.egress n ++ [b])

/-- A packet is discarded at a port (R101, R105): counted, flagged, its cells freed. -/
def State.dropAt (s : State) (n : Nat) (b : Buf) : State :=
  (((s.freeCells b.q b.banks).incSat SSH_DROPS.DROP).hw (SSH_PORT_EVT.DROP n)).pmu 0x05 n

/-! ## Flow records (R187 to R189) -/

/-- The path selector at a record's opening (R189). -/
def pathSelector (seed slot route ep : Nat) (dirIn : Bool) : Nat :=
  let x := slot % 4 * 2^30 + route % 2^20 * 2^10 + ep % 16 * 2^6 + b2n dirIn * 2^5
  let h := ((x ^^^ seed % 2^32) * 0x9E3779B1 + seed / 2^32) % 2^32
  h / 2^30

/-- The flow-hash seed in force (DRV_SEED). -/
def State.seed (s : State) : Nat := s.g DRV_SEED_LO.SEED_LO + s.g DRV_SEED_HI.SEED_HI * 2^32

/-- The link a path selector takes toward member d (R185), if any. -/
def State.nextHop (s : State) (d ps : Nat) : Option Nat :=
  let n := [0, 1, 2, 3].filter fun k => bitOf (s.routeTo d).next k
  n[(ps + s.member) % n.length]?

/-- A packet joins the data queue of its next link; a transit packet with no route is discarded (R198). -/
def State.queueData (s : State) (p : FPkt) : State :=
  match s.nextHop p.dest p.ps with
  | some k =>
    State.pump k pumpFuel (s.lkMod k fun l => { l with dataQ := vmod l.dataQ p.slot fun q => q ++ [p] })
  | none => match p.transit with
    | some t => s.freeCells t.1 t.2
    | none => s

/-- DRV_FLOWS.USED follows the records. -/
def State.setFlows (s : State) (l : List FlowRec) : State :=
  (s.fabMod fun f => { f with flows := l }).p DRV_FLOWS.USED l.length

/-- Are two records of one flow (R187)? -/
def sameFlow (a b : FlowOpen) : Bool :=
  a.slot = b.slot && a.route = b.route && a.ep = b.ep && a.dirIn = b.dirIn && a.target = b.target

/-- The record a packet needs: its flow, stream ID and Setup. -/
def flowKey (slot target : Nat) (p : SsPacket) : FlowOpen :=
  ⟨0, 0, slot, p.dirIn, p.addr, p.route, p.ep, p.stream, p.setup, target, p.iso⟩

/-- FLOW_OPEN as the fields of its message. -/
def openFields (o : FlowOpen) : List Nat :=
  [o.idx, o.ps, o.slot, b2n o.dirIn, o.addr, o.route, o.ep, o.stream, b2n o.setup, o.target, b2n o.iso]

/-- FLOW_OPEN takes the link of its record's path (R187). -/
def State.sendOpen (s : State) (dest src seq : Nat) (o : FlowOpen) : State :=
  match s.nextHop dest o.ps with
  | some k => s.ctrlOn k ⟨src, dest, seq, "FLOW_OPEN", openFields o, none⟩
  | none => s

/-- A packet of an ingress record is sent and kept until a DELIVERED count covers it (R188); it only waits while its
destination is being resynced or cannot be reached. -/
def State.sendFlow (s : State) (idx : Nat) (b : Buf) : State :=
  match s.fab.flows.find? fun r => r.open_.idx = idx with
  | none => s
  | some r =>
    let p := b.pkt
    let hdr := !p.data || p.body.isEmpty
    let f : FPkt := { slot := r.open_.slot, dest := r.dest, src := s.member, idx := idx, ps := r.open_.ps,
                      epoch := vat s.fab.txEpoch r.dest, hdr := hdr, pseq := p.pseq, eob := p.eob, mark := if hdr then p.deferred else p.badCrc,
                      body := if hdr then p.head else p.body, transit := none, ord := s.fab.packets }
    let s := s.fabMod fun f => { f with packets := f.packets + 1 }
    let r' := { r with sent := (r.sent + 1) % 65536, undel := r.undel ++ [(f, b.q, b.banks)], lastSent := s.cycle,
                       bales := r.bales + f.bales.length }
    let s := s.setFlows (s.fab.flows.map fun x => if x.open_.idx = idx then r' else x)
    if s.fab.resync.contains r.dest then s else s.queueData f

/-- Is a flow idle (R189): no packet of its records undelivered, and none sent for IDLE_US? -/
def State.flowIdle (s : State) (o : FlowOpen) : Bool :=
  s.fab.flows.all fun r => !sameFlow r.open_ o ||
    (r.undel.isEmpty && decide (r.lastSent + s.g DRV_X_REBAL.IDLE_US * 200 ≤ s.cycle))

/-- Flows that a reseed concerns take the new seed's path selector when they are idle (R192). -/
def State.reseedIdle (s : State) : State :=
  if s.fab.flows.any (·.reseed) then
    s.setFlows (s.fab.flows.map fun r =>
      if r.reseed && s.flowIdle r.open_ then
        { r with reseed := false,
                 open_ := { r.open_ with ps := pathSelector s.seed r.open_.slot r.open_.route r.open_.ep r.open_.dirIn } }
      else r)
  else s

/-- A new record is opened for a packet (R187, R189). -/
def State.openFlow (s : State) (dest idx : Nat) (key : FlowOpen) : State :=
  let o := { key with idx := idx, ps := pathSelector s.seed key.slot key.route key.ep key.dirIn }
  let s := s.setFlows (s.fab.flows ++ [{ open_ := o, dest := dest }])
  let (q, s) := s.nextCseq dest
  s.sendOpen dest s.member q o

/-- The record a packet needs, found or opened; `none` when all 512 are in use. -/
def State.findFlow (s : State) (dest : Nat) (key : FlowOpen) : Option (Nat × State) :=
  match s.fab.flows.find? fun r => { r.open_ with idx := 0, ps := 0 } = key ∧ r.dest = dest with
  | some r => some (r.open_.idx, s)
  | none => ((List.range 512).find? fun i => s.fab.flows.all fun r => r.open_.idx ≠ i).map fun i => (i, s.openFlow dest i key)

/-- Must a packet stay behind one that waits for a record: one of its flow (R187), or, toward the host, of its stall (R102)? -/
def keepsBehind (w x : Nat × Nat × Nat × Buf) : Bool :=
  sameFlow (flowKey x.1 x.2.2.1 x.2.2.2.pkt) (flowKey w.1 w.2.2.1 w.2.2.2.pkt)
    || (0x20 ≤ w.2.2.1 && w.2.2.1 < 0x40 && x.2.2.1 = w.2.2.1 && x.2.2.2.q = w.2.2.2.q)

/-- A packet goes into its record, or waits for one behind the packets it may not overtake (R102, R187). -/
def State.fabPut (s : State) (w : Nat × Nat × Nat × Buf) : State :=
  let key := flowKey w.1 w.2.2.1 w.2.2.2.pkt
  let wait (s : State) : State := s.fabMod fun f => { f with waits := f.waits ++ [w] }
  if s.fab.waits.any (keepsBehind w) then wait s
  else match s.findFlow w.2.1 key with
    | some (i, s) => s.sendFlow i w.2.2.2
    | none => wait s

/-- A packet enters the fabric at its ingress member (R187): slot, destination, target and buffer. -/
def State.fabSend (s : State) (slot dest target : Nat) (b : Buf) : State :=
  let n := s.fab.waits.length
  let s := s.reseedIdle.fabPut (slot, dest, target, b)
  s.when (decide (s.fab.waits.length > n)) fun s => s.incSat DRV_FLOWS.WAITS

/-- Waiting packets try again, in order, when a record has become free (R187). -/
def State.retryWaits (s : State) : State :=
  let ws := s.fab.waits
  ws.foldl State.fabPut (s.fabMod fun f => { f with waits := [] })

/-- A DELIVERED count of a record (R188): the packets it covers leave, and their cells. -/
def State.takeDelivered (s : State) (idx count : Nat) : State :=
  match s.fab.flows.find? fun r => r.open_.idx = idx with
  | none => s
  | some r =>
    let n := (count + 65536 - r.acked) % 65536
    if n > r.undel.length then s
    else
      let s := s.setFlows (s.fab.flows.map fun x =>
        if x.open_.idx = idx then { x with acked := count % 65536, undel := x.undel.drop n } else x)
      (r.undel.take n).foldl (fun s u => s.freeCells u.2.1 u.2.2) s

/-- Packets of this chip's records that `f` picks, which wait for a link and have not begun to cross, are discarded at port n: their
records stand as if they had never been sent (R115). While a destination is being resynced its packets are held for it, and are
discarded there. -/
def State.dropUnsent (s : State) (n : Nat) (f : FlowRec → Bool) : State :=
  let picked := s.fab.flows.filter fun r => f r && !s.fab.resync.contains r.dest
  let mine (idx : Nat) (p : FPkt) : Bool := p.src = s.member && p.idx = idx && p.transit.isNone
  picked.foldl (fun s r =>
    let i := r.open_.idx
    let k := ([0, 1, 2, 3].map fun k => ((s.lk k).dataQ.toList.map fun q => (q.filter (mine i)).length).sum).sum
    let cut := r.undel.drop (r.undel.length - k)
    let s := s.each [0, 1, 2, 3] fun k s => s.lkMod k fun l => { l with dataQ := l.dataQ.map fun q => q.filter fun p => !mine i p }
    let s := s.setFlows (s.fab.flows.map fun x =>
      if x.open_.idx = i then { x with undel := x.undel.take (x.undel.length - k), sent := (x.sent + 65536 - k) % 65536 } else x)
    cut.foldl (fun s u => (((s.freeCells u.2.1 u.2.2).incSat SSH_DROPS.DROP).hw (SSH_PORT_EVT.DROP n)).pmu 0x05 n) s) s

/-- The record's next hop has changed or its member is lost: its packets leave the queues they wait in (R194, R195). -/
def State.unqueue (s : State) (d : Nat) : State :=
  s.each [0, 1, 2, 3] fun k s => s.lkMod k fun l =>
    { l with dataQ := l.dataQ.map fun q => q.filter fun p => ¬(p.dest = d ∧ p.transit = none) }

/-- Steps 1 to 3 of a resync toward destination d (R195): data is held, the EPOCH inverted and RESYNC sent. -/
def State.startResync (s : State) (d : Nat) : State :=
  if s.fab.flows.any fun r => r.dest = d then
    let s := s.unqueue d
    let s := s.fabMod fun f => { f with txEpoch := vmod f.txEpoch d (!·), resync := d :: f.resync.filter (· ≠ d),
                                        resyncs := f.resyncs + 1 }
    s.ctrlTo d "RESYNC" [b2n (vat s.fab.txEpoch d)]
  else s

/-- The records toward a member that cannot be reached any more are closed and their cells freed (log entry 42). -/
def State.closeFlows (s : State) (d : Nat) : State :=
  let gone := s.fab.flows.filter fun r => r.dest = d
  let waits := s.fab.waits.filter fun w => w.2.1 = d
  let s := (s.unqueue d).setFlows (s.fab.flows.filter fun r => r.dest ≠ d)
  let s := s.fabMod fun f => { f with waits := f.waits.filter (fun w => w.2.1 ≠ d), resync := f.resync.filter (· ≠ d),
                                      dsts := f.dsts.filter fun e => e.src ≠ d }
  let s := gone.foldl (fun s r => r.undel.foldl (fun s u => s.freeCells u.2.1 u.2.2) s) s
  waits.foldl (fun s w => s.freeCells w.2.2.2.q w.2.2.2.banks) s

/-! ## Loss of a link (R194, R196) -/

/-- The cells that transit bales and incomplete packets hold on a link are freed; what ingress records keep stays (R180,
R194). -/
def State.dropTransit (s : State) (k : Nat) : State :=
  let l := s.lk k
  let s := l.dataQ.toList.foldl (fun s q => q.foldl (fun s p => match p.transit with
    | some t => s.freeCells t.1 t.2
    | none => s) s) s
  let s := l.run.foldl (fun s b => s.freeSent (.data 0 b)) s
  let s := l.win.foldl (fun s x => match x with
    | .data _ _ => s.freeSent x
    | .ctrl _ _ => s) s
  match l.asm with
  | some a => s.freeCells (17 + k) a.banks
  | none => s

/-- CTRL messages of a link that its peer has not acknowledged, oldest first (R196). -/
def GlkS.unacked (l : GlkS) : List CtrlMsg :=
  (l.win.filterMap fun x => match x with
    | .ctrl _ m => some m
    | .data _ _ => none) ++ l.ctrlQ

/-- The link a CTRL message takes toward its member: the control link, or, for FLOW_OPEN, its record's path (R185, R187). -/
def State.ctrlHop (s : State) (m : CtrlMsg) : Option Nat :=
  if m.name = "FLOW_OPEN" then s.nextHop m.dest (m.fields.getD 1 0) else s.ctrlLink m.dest m.name

/-- A CTRL message takes its new route (R196); with none, the cell it holds here is freed. -/
def State.resendCtrl (s : State) (m : CtrlMsg) : State :=
  if m.dest = 8 then
    match s.castLinks m.name with
    | [] => s.freeCtrl m
    | k :: t => (s.ctrlOn k m).each t fun j s => s.ctrlOn j { m with cell := none }
  else match s.ctrlHop m with
    | some k => s.ctrlOn k m
    | none => s.freeCtrl m

/-- The alternate table for the links that have failed (R198): a whole member's when one of them was its last link in the topology
of the table in force, else that of the most recent failure. -/
def State.alternate (s : State) (i : Nat) : List RouteE :=
  let es := s.barnLinks.zipIdx
  let whole := (List.range s.plan.members).find? fun x => x ≠ s.member &&
    (es.any fun e => (e.1.memberA = x || e.1.memberB = x) && s.fab.failed.contains e.2) &&
    es.all fun e => !(e.1.memberA = x || e.1.memberB = x) || !(s.fab.db.any fun l => adIsEntry l e.1)
  match whole with
  | some x => s.fab.table.byMember.getD x []
  | none => s.fab.table.byLink.getD i []

/-- Barn entry i has failed: the alternate table, and the resync of the pairs whose paths crossed it (R194, R195). -/
def State.entryFailed (s : State) (i : Nat) : State :=
  match s.barnLinks[i]? with
  | none => s
  | some e =>
    if s.fab.failed.contains i then s
    else
      let hit := s.fab.db.filter fun l => adIsEntry l e
      let ds := (List.range 8).filter fun d => s.reach d && d ≠ s.member && hit.any fun l => pathUses s.fab.db s.member d l
      let s := s.fabMod fun f => { f with failed := i :: f.failed, lsdb := f.lsdb.filter (fun l => !adIsEntry l e),
                                          db := f.db.filter (fun l => !adIsEntry l e),
                                          resyncs := 0, rerouteLink := e.linkA }
      let s := s.installRoutes (s.alternate i)
      let s := (s.inc DRV_REROUTE.COUNT).hw DRV_EVT.REROUTE
      s.each (ds.filter fun d => s.reach d) fun d s => s.startResync d

/-- Barn entry i, own link k, has failed at its other end (step 2 of R194): this end does as in step 1, and sends nothing more
on the link; its unacknowledged CTRL bales take the new route. -/
def State.cutLink (s : State) (k i : Nat) : State :=
  let ms := (s.lk k).unacked
  let s := ((s.dropTransit k).lkMod k fun l => { peerUid := l.peerUid, cut := true }).entryFailed i
  ms.foldl State.resendCtrl s

/-- Link k of this chip is lost (R194): nothing more is sent on it, its transit data is dropped, the alternate table and the
notice follow, and its unacknowledged CTRL bales take the new route. -/
def State.linkLost (s : State) (k : Nat) : State :=
  let ms := (s.lk k).unacked
  let s := (s.dropTransit k).lkMod k fun l => { failed := l.failed }
  let s := s.when (s.g (HSH_CARRY.STATE k) = 1) fun s => s.p (HSH_CARRY.STATE k) 2
  let s := match s.entryOf k with
    | none => s
    | some (e, i) =>
      s.when (s.fab.lsdb.any fun l => adIsEntry l e) fun s =>
        (((s.entryFailed i).fabMod fun f => { f with rerouteLink := k })).ctrlAll "LINK_DOWN" [i]
  ms.foldl State.resendCtrl s

end Sys2Proof.Machine
end

