-- ==== Sys2Proof/Machine/Votes.lean ====
section
/-!
DEFINITION. Power domains (spec/11_power_domains.md), the part other blocks call: votes and holds, the wake a rising
vote starts, the beginning of an entry, and what a domain loses in OFF.
-/
namespace Sys2Proof.Machine

/-- The id of a domain (R35). -/
def Dom.id : Dom → Nat
  | .aon => 0 | .ppa => 1 | .mgt => 2 | .hub => 3 | .hsb => 4 | .up0 => 5 | .up1 => 6
  | .dg0 => 7 | .dg1 => 8 | .dg2 => 9 | .dg3 => 10 | .fab => 11

/-- The domain of the lane i of STL_LANE (R256). -/
def laneDom (i : Nat) : Nat :=
  if i < 16 then 7 + i / 4 else if i < 18 then 5 else if i < 20 then 6 else 11

/-- The domain of a mapped register address (R365). -/
def addrDom (a : Nat) : Nat :=
  match rowOf a with
  | none => 0
  | some r =>
    let i := r.index a
    match r.dom with
    | .one d => d.id
    | .byUp => 5 + (if r.base = 0x80000 then i else 0)
    | .byStall => portDom i
    | .byLane => laneDom i

/-- The vote client of a master id (R259); `none` for the masters without one. -/
def clientOf (m : Nat) : Option Nat :=
  if m = 1 then some 0
  else if 2 ≤ m ∧ m ≤ 5 then some (m - 1)
  else if m = 6 ∨ m = 7 then some 5
  else if m = 8 then some 14
  else if m = 15 then some 15
  else none

/-- The port group of a channel as a vote client (R258): UP0, UP1, DG0 to DG3 are 8 to 13. -/
def groupClient (n : Nat) : Nat := if n ≤ 14 then 10 + min 3 (n / 4) else 8 + (n - 15)

/-- Does a port keep its group's vote on PPA (R258)? -/
def State.portActive (s : State) (n : Nat) : Bool :=
  (vat s.chan n).gate || s.on (PPW_STATUS.DISCH n) || s.on (TCP_PORT.VCONN_ON n)
    || !([0, 1, 2].contains (s.g (TCP_PORT.STATE n))) || s.g (PPW_STATUS.STATE n) = 4 || (vat s.chan n).waiting

/-- Contribution of an SS link's state to the link-activity vote (R122). -/
def State.ssContrib (s : State) (n : Nat) : Nat :=
  match s.g (SSH_PORT.LINK n) with
  | 0 | 7 | 8 | 9 => 2
  | 1 => s.g SSH_X_VOTE.U1_VOTE
  | 2 => s.g SSH_X_VOTE.U2_VOTE
  | _ => 0

/-- Contribution of an SS link's state to the vote on HUB (R122). -/
def State.hubContrib (s : State) (n : Nat) : Nat :=
  match s.g (SSH_PORT.LINK n) with
  | 0 | 1 | 7 | 8 | 9 => 2
  | 2 => 1
  | _ => 0

/-- Contribution of a stall's HS port (R143). -/
def State.hsContrib (s : State) (n : Nat) : Nat :=
  match s.g (HSH_PORT.STATE n) with
  | 3 | 4 | 6 | 8 => 2
  | 7 => 1
  | _ => 0

/-- The highest of a list of votes. -/
def maxOf (l : List Nat) : Nat := l.foldl max 0

/-- The vote of a bus in a state of HSH_ENG.STATE (R143). -/
def busVote (st : Nat) : Nat :=
  match st with
  | 1 | 2 | 5 => 2
  | 3 => 1
  | _ => 0

/-- Contribution of an HS engine (R143). -/
def State.engContrib (s : State) (e : Nat) : Nat :=
  if s.g (HSH_ENG.ROLE e) = 0 then 0 else busVote (s.g (HSH_ENG.STATE e))

/-- Contribution of a carry pair in use to the vote on FAB (R143): the state of the bus it carries, the root bus's as the home
member has it or has told, at a transit member too. -/
def State.carryVote (s : State) (k : Nat) : Nat :=
  let slot := s.g (HSH_CARRY.SLOT k)
  let at_ (pen : Nat) : Nat := maxOf (((List.range 4).filter fun e =>
    s.g (HSH_ENG.SLOT e) = slot && s.g (HSH_ENG.PEN e) = pen).map s.engContrib)
  if s.g (HSH_CARRY.STATE k) ≠ 1 then 0
  else if s.g (HSH_CARRY.BUS k) = 1 then
    (if (s.homeOf slot).any fun h => h.1 = s.member then at_ 0xF else busVote (vat s.ss.told slot).bus)
  else if s.g (HSH_CARRY.BUS k) = 2 then at_ (s.g (HSH_CARRY.PEN k))
  else 0

/-- Is a cell or a header buffer occupied (R122)? -/
def State.bufferHeld (s : State) : Bool :=
  s.g PBF_STATUS.FREE ≠ 65536 || s.ss.egress.toList.any (!·.isEmpty)
    || (List.range 17).any fun n => s.g (SSH_PORT.HP_IN n) ≠ 0

/-- Does a TT hold a buffer (R143)? -/
def State.ttHeld (s : State) : Bool :=
  (List.range 15).any fun n => s.g (TTA_TT.PER_USED n) ≠ 0 || s.g (TTA_TT.NP_USED n) ≠ 0

/-- The link-activity vote on a domain that the states of links, ports and engines give (R122, R143, R171). -/
def State.linkVote (s : State) (d : Nat) : Nat :=
  if d = dHUB then maxOf ((if s.bufferHeld then 2 else 0) :: (List.range 17).map s.hubContrib)
  else if d = dHSB then
    maxOf ((if s.ttHeld then 1 else 0) :: (List.range 15).map s.hsContrib ++ (List.range 4).map s.engContrib)
  else if d = dFAB then
    maxOf ((if [0, 1, 2, 3].any fun k => [1, 2, 3, 4, 6].contains (s.g (GLK_LINK.STATE k)) then 2 else 0)
      :: [0, 1, 2, 3].map s.carryVote)
  else if 5 ≤ d ∧ d ≤ 10 then
    maxOf (((List.range 17).filter fun n => portDom n = d).map s.ssContrib
      ++ ((List.range 15).filter fun n => portDom n = d).map s.hsContrib
      ++ ((List.range 4).filter fun e => s.g (HSH_ENG.ROLE e) = 1 && s.g (HSH_ENG.UPSTREAM e) + 5 = d).map s.engContrib)
  else 0

/-- The registers whose values a restore list keeps, as masks of the fields kept (R265): every RW and RWP field, and the
host-visible settings that stand in read-only fields. -/
def keepMask (a : Nat) : Nat :=
  match rowOf a with
  | none => 0
  | some r =>
    if [0x40010, 0x40040, 0x50008, 0x5000C, 0xA0010, 0x40090, 0x40130, 0x60010, 0x60040, 0x600C0, 0x80000, 0xB0004, 0xB0010, 0xB0058, 0xB005C].contains r.base
    then 0xFFFFFFFF
    else (r.fields.map fun f => if f.acc = .rw ∨ f.acc = .rwp then (2 ^ f.width - 1) * 2 ^ f.lo else 0).sum

/-- Dwezel's restore list of a domain, kept current (R265). -/
def State.restoreList (s : State) (d : Nat) : List (Nat × Word) :=
  s.regs.filterMap fun e =>
    let k := keepMask e.1
    if addrDom e.1 = d ∧ k ≠ 0 then
      some (e.1, (e.2 &&& w32 k) ||| (resetWord e.1 &&& ~~~ (w32 k)))
    else none

/-- The entries of a domain's list: of one in OFF or FAILED, those that stand in the restore memory (R265). -/
def State.listLen (s : State) (d : Nat) : Nat :=
  if s.g (PDC_DOM.STATE d) ≥ 2 then (vat s.pdc.dom d).restore.length else (s.restoreList d).length

/-- Do a domain's entries fit its list, and the restore memory after the lists of lower domains (R265, log entry 60)? -/
def State.listFits (s : State) (d : Nat) : Bool :=
  decide (s.regs.length + (s.pdc.dom.toList.map (·.restore.length)).sum ≤ 512)
    || (decide (s.listLen d ≤ 512)
      && decide (((List.range (d + 1)).map fun e => if e = 0 then 0 else s.listLen e).sum ≤ 1536))

/-- Does a duty that Dwezel has entered in the timeline fall due within MGT's RET lead (R271, R92)? -/
def State.ownDue (s : State) : Bool := s.tml.toList.any fun e =>
  e.valid && e.own && !e.awaiting && decide (e.due ≤ (vat s.yards e.yard).ticks + s.g TML_LEAD.RET_LEAD * 200)

/-- Has Dwezel work in hand (R271): a message it knows of to consume, one to post, an operation answered PENDING, or a duty of its
own about to fall due? -/
def State.workInHand (s : State) : Bool :=
  !s.msg.pend.isEmpty || ((List.range 12).any fun c =>
    !(vat s.mbx c).held.isEmpty
      || (s.on (MBX_IN_CTRL.GO c) && (s.on (MBX_ASSIGN.NOTIFY c) || (vat s.mbx c).seen))) || s.ownDue

/-- Is a bell under way on a sleeping link (R174)? -/
def State.bellRinging (s : State) : Bool := [0, 1, 2, 3].any fun k => (s.lk k).asleep && (s.lk k).bells ≠ 0

/-- The vote of client c on domain d now: the written value or the highest hold on it (R258, R400). -/
def State.vote (s : State) (c d : Nat) : Nat :=
  if d = 0 then 0
  else
    let w := vat (vat s.pdc.dom d).votes c
    let hold :=
      (s.pdc.accHolds.any fun h => h.2 = d ∧ clientOf h.1 = some c)
      || (s.pdc.mbxHolds.any fun h => h.2.1 = c ∧ h.2.2 = d)
      || (c = 6 && s.pdc.raises.any fun r => r.dom = d && (r.entry ≠ 0 || (vat s.yards r.yard).ticks < r.until_))
      || (c = 0 && d = dMGT && (s.pdc.faultHeld || s.workInHand))
      || (c = 14 && d = dFAB && s.bellRinging)
      || s.pdc.wakes.contains (c, d)
      || (8 ≤ c && c ≤ 13 && d = dPPA && (List.range 17).any fun n => groupClient n = c && s.portActive n)
    let w := if c = 7 then max w (s.linkVote d) else w
    if hold then 2 else if c = 0 && !s.listFits d then max w 1 else w

/-- The floor of a domain: the highest vote on it (R258). -/
def State.floor (s : State) (d : Nat) : Nat := ((List.range 16).map fun c => s.vote c d).foldl max 0

/-- The votes of a domain in the layout of PDC_VOTE. -/
def State.voteWord (s : State) (d : Nat) : Word :=
  w32 (((List.range 16).map fun c => s.vote c d * 4 ^ c).sum)

/-- PDC_DOM.PHASE of a step (R261, R263). -/
def DomStep.phase : DomStep → Nat
  | .idle => 0 | .clockStop => 1 | .isolate => 2 | .a3 => 3 | .move => 4
  | .crystal | .railUp | .closeSwitch | .pll | .release => 5
  | .restore => 6 | .retryWait => 7

/-- Change the controller of domain d. -/
def State.domMod (s : State) (d : Nat) (f : DomS → DomS) : State :=
  s.withPdc { s.pdc with dom := vmod s.pdc.dom d f }

/-- The controller of domain d. -/
def State.dom (s : State) (d : Nat) : DomS := vat s.pdc.dom d

/-- Put domain d at a step. -/
def State.domStep (s : State) (d : Nat) (x : DomStep) : State := s.domMod d fun e => { e with step := x }

/-- The DOMAIN record of R322. -/
def State.domRecord (s : State) (d : Nat) : State :=
  s.record 0 0x02 4 [d + s.g (PDC_DOM.STATE d) * 2^4 + s.g (PDC_DOM.CAUSE d) * 2^8 + s.g (PDC_DOM.TRIES d) * 2^12]

/-- The first step of an exit: X when the crystal is stopped, then by the state left (R263). -/
def State.exitStart (s : State) (d : Nat) : State :=
  s.domStep d (if !s.on PDC_XTAL.RUNNING then .crystal
    else if (s.dom d).from_ = 2 then .closeSwitch else .railUp)

/-- The raises of wake sources on domain d end with the domain ON (R267). -/
def State.wakesDone (s : State) (d : Nat) : State :=
  s.withPdc { s.pdc with wakes := s.pdc.wakes.filter fun x => x.2 ≠ d }

/-- Is an entry of domain d at one of its abort points; the cycle in which its third step begins counts as A3 (R261, R262)? -/
def State.abortable (s : State) (d : Nat) : Bool :=
  match (s.dom d).step with
  | .clockStop | .isolate | .a3 => true
  | .move => s.marks.contains (.moved d)
  | _ => false

/-- A wake of domain d by client c meets the domain's state (R260, R262, R263). -/
def State.wake (s : State) (d c : Nat) : State :=
  if s.abortable d then
    let s := ((s.domStep d .idle).p (PDC_DOM.TARGET d) 0).wakesDone d
    -- a vote in the cycle of the choice: the domain stays ON (R260). Else the entry reverses and the domain is ON again (R322);
    -- not counted in WAKES
    if s.marks.contains (.chosen d) then s else (s.p (PDC_DOM.CAUSE d) c).domRecord d
  else match (s.dom d).step with
  | .idle =>
    let st := s.g (PDC_DOM.STATE d)
    if st = 1 ∨ st = 2 then
      let s := ((s.p (PDC_DOM.TRIES d) 0).p (PDC_DOM.TARGET d) 0).p (PDC_DOM.CAUSE d) c
      (s.domMod d fun e => { e with from_ := st, recovering := false }).exitStart d
    else s
  | _ => s

/-- Judge domain d after a vote of client c may have risen (R260, R262). -/
def State.judge (s : State) (d c : Nat) : State :=
  let fl := s.floor d
  if d = 0 ∨ fl = 0 then s
  else if fl = 2 then (s.wake d c).domMod d fun e => { e with retOnly := false }
  else if s.abortable d then s.p (PDC_DOM.TARGET d) 1     -- an OFF entry continues as a RET entry
  else match (s.dom d).step with
    | .idle => if s.g (PDC_DOM.STATE d) = 2 then (s.wake d c).domMod d fun e => { e with retOnly := true } else s
    | _ => s

/-- A wake source raises client c to ON on domain d (R267); nothing is to be woken where the domain is ON. -/
def State.wakeBy (s : State) (c d : Nat) : State :=
  if d = 0 ∨ s.domOn d then s
  else (s.withPdc { s.pdc with wakes := (c, d) :: s.pdc.wakes.filter fun x => x ≠ (c, d) }).judge d c

/-- The lowest client whose vote stands at v or more on a domain. -/
def State.voter (s : State) (d v : Nat) : Nat := ((List.range 16).find? fun c => s.vote c d ≥ v).getD 0

/-- What stands on a domain that has come to rest is judged again (R260, R262, R264). -/
def State.restJudge (s : State) (d : Nat) : State := s.judge d (s.voter d (s.floor d))

/-- Client c's own value on domain d becomes v (R258, R259). -/
def State.setVote (s : State) (c d v : Nat) : State :=
  let s' := s.domMod d fun e => { e with votes := vset e.votes c v }
  if d = 0 then s else s'.judge d c

/-- The state a domain is judged by (R92): a domain in an entry by the state it enters, in an exit as ON. -/
def State.judged (s : State) (d : Nat) : Nat :=
  match (s.dom d).step with
  | .idle => s.g (PDC_DOM.STATE d)
  | .clockStop | .isolate | .a3 | .move => s.g (PDC_DOM.TARGET d)
  | _ => 0

/-- A misprediction of a domain (R99): the fourth within 64 windows caps it. -/
def State.mispredict (s : State) (d : Nat) : State :=
  let q := vat s.pred d
  let wins := match q.missWin with
    | [] => [1]
    | a :: t => (a + 1) :: t
  let s := ((s.p (TML_PRED.MISS d) (min 15 wins.sum)).pmu 0x12 d)
  let capped := wins.sum ≥ 4
  let s := s.when capped fun s => s.p (TML_PRED.CAPPED d) 1
  s.withPred (vset s.pred d { q with missWin := wins, capLeft := if capped then 64 else q.capLeft, missed := true })

/-- A link-activity vote meets domain d: where it wakes a domain for which the predictor had chosen OFF, that is a
misprediction, one for the wake (R99). -/
def State.missCheck (s : State) (d : Nat) : State :=
  s.when (s.g (TML_PRED.CHOICE d) = 2 && s.judged d = 2 && d ≠ 0 && !s.marks.contains (.chosen d)
    && !(vat s.pred d).missed) fun s => s.mispredict d

/-- A link, port or engine of a domain has changed state (R122, R143, R171): a detector's raise is withdrawn, and the vote is
what the states give. -/
def State.linkJudge (s : State) (d : Nat) : State :=
  let s := s.domMod d fun e => { e with votes := vset e.votes 7 0 }
  (s.when (s.linkVote d > 0) fun s => s.missCheck d).judge d 7

/-- A client's vote rises to at least v. -/
def State.raiseVote (s : State) (c d v : Nat) : State :=
  s.setVote c d (max v (vat (s.dom d).votes c))

/-- An access hold of master m on domain d (R400, R269). -/
def State.holdAccess (s : State) (m d : Nat) : State :=
  match clientOf m with
  | none => s
  | some c =>
    let s := (s.withPdc { s.pdc with
      accHolds := (m, d) :: s.pdc.accHolds.filter fun h => ¬(h.1 = m ∧ h.2 = d) })
    s.judge d c

/-- A mailbox hold of a channel's message (R279, R400). -/
def State.holdMailbox (s : State) (ch c d : Nat) : State :=
  ((s.withPdc { s.pdc with mbxHolds := (ch, c, d) :: s.pdc.mbxHolds })).judge d c

/-- The message's GO fell: its hold ends (R400). -/
def State.releaseMailbox (s : State) (ch : Nat) : State :=
  s.withPdc { s.pdc with mbxHolds := s.pdc.mbxHolds.filter fun h => h.1 ≠ ch }

/-- A timeline raise of client 6 on a domain (R91, R92, R98): until a tick of a yard, or until an entry has run. -/
def State.raiseTimeline (s : State) (d y until_ entry : Nat) (pat : Nat := 0) : State :=
  ((s.withPdc { s.pdc with raises := ⟨d, y, until_, entry, pat⟩ :: s.pdc.raises })).judge d 6

/-- The deepest state the flags and floor let domain d seek, given the predictor's choice (R260, R262). -/
def State.limitChoice (s : State) (d choice : Nat) : Nat :=
  let c := if s.floor d = 1 then min choice 1 else choice
  let c := if !s.on (PDC_CFG.ALLOW_RET d) then 0 else c
  let c := if !s.on (PDC_CFG.ALLOW_OFF d) then min c 1 else c
  if (s.dom d).offFailed && s.on PDC_STICKY.OFF_FAIL then min c 1 else c

/-- Begin an entry of domain d to RET (1) or OFF (2) (R261); nothing while ENABLE is 0 or the domain is not steady ON. -/
def State.beginEntry (s : State) (d target : Nat) : State :=
  if s.on PDC_CTRL.ENABLE && s.domOn d && d ≠ 0 && target ≠ 0 then
    ((s.domStep d .clockStop).p (PDC_DOM.TARGET d) target)
  else s

/-- What the memories of a domain hold beside its registers and is lost with its supply (R257, R264, R265). What its restore list
puts back, and what other members know of it, stays (log entry 164). -/
def State.loseMemory (s : State) (d : Nat) : State :=
  if d = dPPA then
    ((s.withChan (s.chan.map fun c => { vbusLow := c.vbusLow, seatLow := c.seatLow, portPower := c.portPower, defPower := c.defPower,
                                        holdOff := c.holdOff })).withTcp (Vector.replicate 17 {})).withTlm (Vector.replicate 17 {})
  else if d = dMGT then
    let s := s.withPln { s.pln with len := 0, data := [], bulk := none, committed := false, commit := 0, act := none }
    (((s.withObs (Vector.replicate 4 {})).withMsg {}).withTack (Vector.replicate 2 {})).withEpMem []
  else if d = dHUB then
    -- the packet buffer with every packet in it, wherever it waits
    let s := s.withSs { s.ss with egress := Vector.replicate 17 [], withheld := Vector.replicate 17 0, ptr := 0,
                                  ldm := Vector.replicate 2 [], exiting := Vector.replicate 2 false,
                                  linkErr := Vector.replicate 15 0, wrr := Vector.replicate 17 0 }
    let bare (m : CtrlMsg) : CtrlMsg := { m with cell := none }
    let s := s.withGlk (s.glk.map fun l => { l with
      ctrlQ := l.ctrlQ.map bare, dataQ := Vector.replicate 4 [], run := [], asm := none
      win := l.win.map fun x => match x with
        | .ctrl q m => .ctrl q (bare m)
        | .data q b => .data q { b with cell := none } })
    s.withFab { s.fab with waits := [], flows := s.fab.flows.map fun (r : FlowRec) => { r with undel := [] } }
  else if d = dHSB then
    ((s.withTt (Vector.replicate 15 {})).withTtOp 0).withHs { s.hs with
      orders := [], waking := Vector.replicate 15 false, acked := Vector.replicate 17 false, upK := Vector.replicate 2 none }
  else if d = dFAB then
    let s := s.withGlk (s.glk.map fun l => if l.asleep then l else { retried := l.retried, failed := l.failed, retryDue := l.retryDue })
    s.withFab { s.fab with above := Vector.replicate 8 0, stuck := Vector.replicate 8 0,
                           flows := s.fab.flows.map fun (r : FlowRec) => { r with bales := 0, lastBales := 0 } }
  else s

/-- The power switch is open: every register and memory of the domain is lost; its list stays in the restore memory (R257, R265). -/
def State.loseDomain (s : State) (d : Nat) : State :=
  let l := s.restoreList d
  ((s.keepRegs fun e => addrDom e.1 ≠ d).domMod d fun e => { e with restore := l }).loseMemory d

/-- Replay a domain's restore list, one register write per entry; the entries `refused` are not written (R265). -/
def State.replay (s : State) (d : Nat) (refused : List Nat) : State :=
  ((s.dom d).restore.zipIdx.filter fun e => !refused.contains e.2).foldl (fun s e => s.setWord e.1.1 e.1.2) s

end Sys2Proof.Machine
end

