-- ==== Sys2Proof/Machine/PortBase.lean ====
section
/-!
DEFINITION. What the reactions, the hub and the power path share about one port: the gate of its channel, its
contract, its links, and the mirror of its positions.
-/
namespace Sys2Proof.Machine

/-- A stall's tracker returns to IDLE (R96), and what it had predicted holds nothing ON (R98). -/
def State.patIdle (s : State) (n : Nat) : State :=
  ((s.setWord (TML_PAT.addr n) 0).withPat (vset s.pat n {})).withPdc
    { s.pdc with raises := s.pdc.raises.filter fun r => r.pat ≠ n + 1 }

/-- Change channel n. -/
def State.chMod (s : State) (n : Nat) (f : Chan → Chan) : State := (s.withChan (vmod s.chan n f))

/-- Channel n. -/
def State.ch (s : State) (n : Nat) : Chan := vat s.chan n

/-- Change Type-C port n. -/
def State.tcMod (s : State) (n : Nat) (f : Tcp → Tcp) : State := (s.withTcp (vmod s.tcp n f))

/-- Type-C port n. -/
def State.tc (s : State) (n : Nat) : Tcp := vat s.tcp n

/-- Does an atomic message sequence of the source's own run (R200)? -/
def Tcp.busy (t : Tcp) : Bool := t.ams || t.trans ≠ .none || t.swap = 3 || t.softSent

/-- Has the port a CC function (R199)? Upstream ports and Type-C stalls do. -/
def State.hasCC (s : State) (n : Nat) : Bool := n ≥ 15 || s.typ n = 2 || s.typ n = 3

/-- Is the stall seated, or not SEATED at all (R229)? -/
def State.seated (s : State) (n : Nat) : Bool :=
  n ≥ 15 || !s.stallFlag n 5 || s.on (PPW_STATUS.SEATED n)

/-- The slot that holds a stall of this chip (R36, R166). -/
def State.holderOf (s : State) (n : Nat) : Option Nat :=
  (s.holders.find? fun h => h.member = s.member ∧ h.stall = n).map (·.slot)

/-! ## Effective limit (R21, R209, R230) -/

/-- The current limit Rp's level stands for: the highest of 3.0 A, 1.5 A and Default (500 mA) that a limit reaches by at
least 10 % (R200), as the code of TCP_PORT.RP. -/
def rpLevel (limit : Nat) : Nat := if limit ≥ 3300 then 3 else if limit ≥ 1650 then 2 else 1

/-- ILIM and any budget reduction of a channel, mA (R21). -/
def State.boardLimit (s : State) (n : Nat) : Nat :=
  let r := s.g (BUD_RLIM.RLIM n)
  let i := s.g (PPW_LIMIT.ILIM n)
  if r = 0 then i else min i r

/-- The contract limit of a channel (R209); under an implicit contract of an attached source, 110 % of the Rp level, where that is
1.5 A or 3.0 A (R200, R214; DEDUCED, log entry 150). `none` where no contract limits it. -/
def State.contractTerm (s : State) (n : Nat) : Option Nat :=
  match (s.tc n).limit with
  | some c => some c
  | none =>
    if s.g (TCP_PORT.CONTRACT n) = 1 && (s.ch n).attached && !s.on (PPW_STATUS.SINK n) && s.mode ≠ 1 then
      (match rpLevel (s.boardLimit n) with
        | 3 => some 3300
        | 2 => some 1650
        | _ => none)
    else none

/-- The effective limit of a channel: the lowest of the contract limit, ILIM and RLIM, at least 100 mA (R21, R230). -/
def State.effLimit (s : State) (n : Nat) : Nat :=
  max 100 (match s.contractTerm n with
    | some c => min (s.boardLimit n) c
    | none => s.boardLimit n)

/-- The Rp level of a source (R200): Default in LIFELINE (R199); under an explicit contract of PD 3.x 3.0 A (SinkTxOK), or 1.5 A
(SinkTxNG) while a message sequence of its own runs; otherwise the level its effective limit reaches. -/
def State.rpNow (s : State) (n : Nat) : Nat :=
  if s.mode = 1 then 1
  else if s.g (TCP_PORT.CONTRACT n) ≥ 2 && s.g (TCP_PORT.PD_REV n) = 2 then (if (s.tc n).busy then 2 else 3)
  else rpLevel (s.effLimit n)

/-- A source that presents Rp presents its level (R200). -/
def State.setRp (s : State) (n : Nat) : State :=
  s.when (s.g (TCP_PORT.RP n) ≠ 0) fun s => s.p (TCP_PORT.RP n) (s.rpNow n)

/-- Re-set PPW_LIMIT.EFFECTIVE, and the Rp a source presents (R200, R230). -/
def State.setLimit (s : State) (n : Nat) : State := (s.p (PPW_LIMIT.EFFECTIVE n) (s.effLimit n)).setRp n

/-- Change Type-C port n, and with it the Rp that a message sequence of its own asks for (R200). -/
def State.tcSet (s : State) (n : Nat) (f : Tcp → Tcp) : State := (s.tcMod n f).setRp n

/-- The levels of PG_OUT (R243). While UP0 feeds the chip, VIN is below VIN_WARN (R219, R249). -/
def State.pgOut (s : State) : Nat :=
  b2n (s.on (PPW_STATUS.PG 15)) + 2 * b2n (s.on (PPW_STATUS.PG 16))
    + 4 * b2n ((List.range 15).all fun n => !(s.ch n).gate || s.on (PPW_STATUS.PG n))
    + 8 * b2n (!s.bud.vinLow && !s.on TLM_INWARN.PWRWARN && !s.on TOP_STRAP.LIFE_SUPPLY)

/-- The gate of a channel goes off: DISCH is driven in the source direction until VBUS is low, PG drops, and the port's
accounted power is released (R204, R240, R242, R255). -/
def State.gateOff (s : State) (n : Nat) : State :=
  let sink := s.on (PPW_STATUS.SINK n)
  let was := (s.ch n).gate
  let s := s.chMod n fun c => { c with gate := false, rampDone := false, attempt := false, pgWithheld := false,
                                       sinkOff := if was then sink else c.sinkOff }
  let s := ((s.p (PPW_STATUS.PG n) 0).p (PPW_STATUS.TIMER n) 0).p (PPW_STATUS.GATE_OK n) 0
  let s := s.when (was && !sink && !(s.ch n).vbusLow) fun s => s.p (PPW_STATUS.DISCH n) 1
  let s := s.withTlm (vmod s.tlm n fun t => { t with accounted := 0, last50 := [] })
  (s.p (BUD_PORT.ACCOUNTED n) 0).p (BUD_PORT.FIRST_USE n) 0

/-- A switch-off that is no trip: the channel returns to OFF unless a wait, a latch or FET_SHORT holds it. -/
def State.switchOff (s : State) (n : Nat) : State :=
  (s.gateOff n).when ([2, 3, 5].contains (s.g (PPW_STATUS.STATE n))) fun s => s.p (PPW_STATUS.STATE n) 0

/-! ## Type-C primitives -/

/-- TCP_PORT.STATE changes, with its CC record (R322). -/
def State.ccState (s : State) (n st : Nat) : State :=
  let old := s.g (TCP_PORT.STATE n)
  if old = st then s
  else (s.p (TCP_PORT.STATE n) st).record 1 0x21 4 [portCode n + st * 2^8 + old * 2^12]

/-- VCONN of a port goes off. -/
def State.vconnOff (s : State) (n : Nat) : State := s.p (TCP_PORT.VCONN_ON n) 0

/-- Removes the PD_KEEPALIVE timeline entries of a port: every one at a detach (R204), Dwezel's own at the end of a contract
(R212). -/
def State.dropKeepAlive (s : State) (n : Nat) (ownOnly : Bool) : State :=
  s.tmlMap fun e =>
    if e.valid && e.action = 3 && e.target = portCode n && (e.own || !ownOnly) then { e with valid := false } else e

/-- The contract of a port ends: EPR mode is left, the setpoint target returns to 5 V, the limit to the Rp level, and a sink's
keep-alive entry goes (R204, R212, R214, R234). -/
def State.endContract (s : State) (n : Nat) : State :=
  let s := (s.setWord (TCP_CONTRACT.addr n) 0).dropKeepAlive n true
  let s := s.tcMod n fun t => { t with trans := .none, queued := none, limit := none, objs := [], sinkReq := none,
                                       reqObj := 0, obj := 0, ppsCut := false, ams := false, sinkEpr := false }
  let s := (((s.p (TCP_VSET.TARGET n) 1000).p (TCP_VSET.CODE n) 1000).p (TCP_VSET.SLEWING n) 0).p (TCP_VSET.FROZEN n) 0
  (s.when (s.g (TCP_PORT.CONTRACT n) ≥ 2) fun s => s.p (TCP_PORT.CONTRACT n) 1).setLimit n

/-- VBUS, VCONN, contract and DISCH as R204 does them; the attach ends. -/
def State.powerDown (s : State) (n : Nat) : State :=
  let s := s.chMod n fun c => { c with attached := false }
  let s := (((s.switchOff n).vconnOff n).endContract n).dropKeepAlive n false
  let s := ((s.p (TCP_PORT.CONTRACT n) 0).p (TCP_PORT.DATA_ON n) 0).p (PPW_STATUS.SINK n) 0
  let s := (s.p (TCP_PORT.HR_COUNT n) 0).p (TCP_PORT.PD_REV n) 0
  let s := (s.setLimit n).setWord (TCP_CABLE.addr n) 0
  s.tcMod n fun t => { t with debounced := false, tried := false, capsLeft := 0, softSent := false, recovering := false, swap := 0,
                              partnerVconn := false, vconnBack := false, bist := false, msgId := 0, hrFail := 0 }

/-- The display mux of an upstream port goes to its safe state (R115, R204). -/
def State.muxSafe (s : State) (n : Nat) : State :=
  s.when (n ≥ 15) fun s =>
    (s.p (TCP_DP.MUX (n - 15)) 0).p (TCP_DP.PINS (n - 15)) 0

/-! ## The mirror (R159) -/

/-- Set bits of a number. -/
def orBits (x m : Nat) : Nat := x ||| m

/-- Clear bits of a number. -/
def clrBits (x m : Nat) : Nat := x - (x &&& m)

/-- A stall's position in its holder's paddock: the slot, the position, and the answering member (R154). -/
def State.posOf (s : State) (n : Nat) : Option (Nat × Pos × Nat) :=
  (s.holderOf n).bind fun slot => (s.plan.paddock? slot).bind fun r =>
    (r.positions.find? fun p => p.member = s.member ∧ p.stall = n).map fun p => (slot, p, r.engineOf p)

/-- Does the slot hold the stall of a kind-1 position? -/
def State.heldBy (s : State) (q : MirPos) : Bool :=
  q.kind = 1 && s.holders.any fun h => h.member = q.member && h.stall = q.stall && h.slot = q.slot

/-- Change the mirror entry of a position. -/
def State.mirMod (s : State) (slot hub port : Nat) (f : MirPos → MirPos) : State :=
  s.withMirror (s.mirror.map fun q => if q.slot = slot && q.hub = hub && q.port = port then f q else q)

/-- A port's status as the fields of a mirror record (R159). -/
def State.mirFields (s : State) (n slot hub port : Nat) : List Nat :=
  let q := vat s.port n
  [slot, hub, port, q.seq, q.hs, q.hsChg, q.ss, q.ssChg, s.g (SSH_PORT_LPM.U1_TIMEOUT n), s.g (SSH_PORT_LPM.U2_TIMEOUT n)]

/-- A mirrored position takes a record, and notes which change bits it sets in this cycle (R159, R160). -/
def MirPos.take (q : MirPos) (st : PortStat) (u1 u2 cycle : Nat) : MirPos :=
  let old := q.newAt = cycle
  { q with st := st, u1 := u1, u2 := u2, newAt := cycle,
           newHs := (if old then q.newHs else 0) ||| clrBits st.hsChg q.st.hsChg,
           newSs := (if old then q.newSs else 0) ||| clrBits st.ssChg q.st.ssChg }

/-- The present status of a stall of this chip goes to its answering member, under the next sequence number (R19, R159), and
to the home member, which judges the whole paddock by it (R121). -/
def State.mirSend (s : State) (n : Nat) : State :=
  let s := s.withPort (vmod s.port n fun q => { q with seq := (q.seq + 1) % 65536 })
  match s.posOf n with
  | none => s
  | some (slot, p, am) =>
    s.each ((am :: (s.homeOf slot).toList.map (·.1)).eraseDups) fun m s =>
      if m = s.member then
        s.mirMod slot p.hub p.port fun q =>
          q.take (vat s.port n) (s.g (SSH_PORT_LPM.U1_TIMEOUT n)) (s.g (SSH_PORT_LPM.U2_TIMEOUT n)) s.cycle
      else s.ctrlTo m "MIRROR" (s.mirFields n slot p.hub p.port)

/-- The home member's own U3 exit, when the upstream link is in U3 (R125); none in the cycle of the host's (R126). -/
def State.wakeHost (s : State) (u : Nat) : State :=
  let host := s.ahead fun c => match c with
    | .hostU3Exit v => v.val = u
    | _ => false
  s.when (s.g (SSH_PORT.LINK (15 + u)) = 3 && !vat s.ss.exiting u && !host) fun s =>
    ((s.out (.line "U3_EXIT" [15 + u])).withSs { s.ss with exiting := vset s.ss.exiting u true })

/-- An act as the fields of its bale. -/
def actFields : PortAct → List Nat
  | .reset => [0] | .suspend => [1] | .resume => [2] | .busResumeStart => [3] | .busResumeEnd => [4] | .l1Exit => [5]
  | .test m => [6, m] | .busReset h => [7, h] | .power a b => [8, b2n a, b2n b] | .disable => [9]
  | .linkState st => [10, st] | .u1 v => [11, v] | .u2 v => [12, v] | .wakeMask m => [13, m] | .hotReset => [14]
  | .warmReset => [15] | .forceLpm b => [16, b2n b] | .indicator b => [17, b2n b] | .clearChange a b => [18, b2n a, b]
  | .ttClear d e b i => [19, d, e, b2n b, b2n i] | .ttReset => [20] | .ttStop => [21] | .lpm b r => [22, b, b2n r]
  | .queryExt => [23] | .queryErr => [24] | .detach m => [25, m] | .rebind m d => [26, m, d] | .attach m src ms a b => [27, m, src, ms, b2n a, b2n b]
  | .upTold l n c d f b => [28, l, n, b2n c, d, b2n f, b] | .penAddr k a => [29, k, a] | .penOn k => [30, k]
  | .penCarry k u => [31, k, b2n u] | .penCarryLost k => [32, k] | .ssWake => [33] | .kvmButton => [34] | .kvmIgnored => [35]
  | .handShow m st ms src d x => [36, m, st, ms, src, d, b2n x] | .penReset k => [37, k]

/-- Does a change of a port's SS status wake the host: a connection, a disconnection or an over-current that the remote wake mask
enables, by the bits of USB 3.2 (R162; PRESUMED, log entry 146)? -/
def wakes (old new : PortStat) : Bool :=
  (bitOf new.ssChg 0 && !bitOf old.ssChg 0 && bitOf old.wakeMask (if bitOf new.ss 0 then 0 else 1))
    || (bitOf new.ssChg 3 && !bitOf old.ssChg 3 && bitOf old.wakeMask 2)

/-- A wake at a stall of this chip goes to the home member, whose upstream link leaves U3 (R125, R162). -/
def State.ssWake (s : State) (n : Nat) : State :=
  match s.holderOf n with
  | none => s
  | some slot => match s.homeOf slot with
    | none => s
    | some (m, u) => if m = s.member then s.wakeHost u else s.ctrlTo m "ORDER" ([slot, n, 0] ++ actFields .ssWake)

/-- The port status of a stall of this chip changes (R159). -/
def State.mirLocal (s : State) (n : Nat) (f : PortStat → PortStat) : State :=
  let old := vat s.port n
  if f old = old then s
  else ((s.withPort (vset s.port n (f old))).mirSend n).when (wakes old (f old)) fun s => s.ssWake n

/-- A position reads disconnected on both sides, with a connection change where it was connected. -/
def PortStat.disconnect (q : PortStat) : PortStat :=
  { q with
    hsChg := if bitOf q.hs 0 then orBits q.hsChg 1 else q.hsChg
    ssChg := if bitOf q.ss 0 then orBits q.ssChg 1 else q.ssChg
    hs := clrBits q.hs 0x637
    ss := clrBits q.ss 0x1C13 }

/-- Over-current of a position on both sides; PORT_POWER is cleared (R164). -/
def PortStat.overCurrent (q : PortStat) : PortStat :=
  let q := q.disconnect
  { q with hs := orBits (clrBits q.hs 0x100) 0x8, hsChg := orBits q.hsChg 0x8,
           ss := orBits (clrBits q.ss 0x200) 0x8, ssChg := orBits q.ssChg 0x8 }

/-- A trip of a stall's power path is reported (R164): PORT_POWER is cleared, and the retries of its position wait for it. -/
def State.ocReport (s : State) (n : Nat) : State :=
  let held := (s.posOf n).isSome
  (s.mirLocal n PortStat.overCurrent).chMod n fun c => { c with portPower := false, ocHeld := held }

/-- The SS link state of a port as wPortStatus shows it: PLS, and connection and enable with it. -/
def PortStat.link (q : PortStat) (st : Nat) : PortStat :=
  let was := bitOf q.ss 0
  let q := { q with ss := orBits (clrBits q.ss 0x1E0) (st * 2^5) }
  if st = 4 ∨ st = 5 then
    { q with ss := clrBits q.ss 3, ssChg := if was then orBits q.ssChg 1 else q.ssChg }
  else if st = 6 then { q with ss := clrBits q.ss 2 }
  else if st ≤ 3 then
    { q with ss := orBits q.ss 3, ssChg := if was then q.ssChg else orBits q.ssChg 1 }
  else q

/-! ## Hubs and what other members know of them -/

/-- Is the SS side of a paddock planned (R38)? -/
def PaddockR.ss (r : PaddockR) : Bool := bitOf r.flags 1

/-- The hub context of a paddock's root (0xF) or pen. -/
def State.hubOf (s : State) (slot pen : Nat) : Option HubS := s.ss.hubs.find? fun h => h.slot = slot ∧ h.pen = pen

/-- Engines of this chip that take part in a bus of a slot. -/
def State.slotEngines (s : State) (slot : Nat) : List Nat :=
  (List.range 4).filter fun e => s.g (HSH_ENG.ROLE e) ≠ 0 && s.g (HSH_ENG.SLOT e) = slot

/-- The root engine of a slot on this chip (R128). -/
def State.rootEngine (s : State) (slot : Nat) : Option Nat := (s.slotEngines slot).find? fun e => s.g (HSH_ENG.ROLE e) = 1

/-- Change a hub context. -/
def State.hubMod (s : State) (slot pen : Nat) (f : HubS → HubS) : State :=
  s.withSs { s.ss with hubs := s.ss.hubs.map fun h => if h.slot = slot && h.pen = pen then f h else h }

/-- The upstream port of this chip that a slot is bound to. -/
def State.upOf (s : State) (slot : Nat) : Nat := ((s.homeOf slot).map (·.2)).getD 0

/-- A change of the SSH_CTX registers of a hub's ROOT or PEN context (R100). -/
def State.ctxEach (s : State) (slot pen : Nat) (f : Nat → State → State) : State :=
  s.each ((List.range 8).filter fun i => [1, 2].contains (s.g (SSH_CTX.KIND i)) && s.g (SSH_CTX.SLOT i) = slot
    && s.g (SSH_CTX.PEN i) = pen) f

/-- The logical-hub context of this chip that serves a hub (0 root, k + 1 pen k): as SSH_CTX numbers it; a hub without an SS side
comes after those (R100, R290; DESIGN CHOICE, log entry 174). -/
def State.hubIx (s : State) (slot hub : Nat) : Nat :=
  let pen := if hub = 0 then 0xF else hub - 1
  let at_ (i y p : Nat) : Bool := [1, 2].contains (s.g (SSH_CTX.KIND i)) && s.g (SSH_CTX.SLOT i) = y && s.g (SSH_CTX.PEN i) = p
  let ctx := (List.range 8).filter fun i => [1, 2].contains (s.g (SSH_CTX.KIND i))
  let bare := s.ss.hubs.filter fun (h : HubS) => !((List.range 8).any fun i => at_ i h.slot h.pen)
  match (List.range 8).find? fun i => at_ i slot pen with
  | some i => i
  | none => ctx.length + (bare.findIdx? fun (h : HubS) => h.slot = slot && h.pen = pen).getD 0

/-- An answer of a hub on its status-change endpoint or EP0, through that endpoint's buffer (R290). -/
def State.hubOut (s : State) (slot hub : Nat) (ss status : Bool) (bytes : List Byte) : State :=
  let e := hubBuf (s.hubIx slot hub) ss status
  (s.epPackets e.1 e.2 bytes).out (.usbData slot bytes)

/-- Data of a hub's control transfer to its host. -/
def State.hubData (s : State) (slot hub : Nat) (ss : Bool) (bytes : List Byte) : State := s.hubOut slot hub ss false bytes

/-- Lanes a pin assignment leaves to USB (R114). -/
def usbLanes (pins : Nat) : Nat := if pins = 0 then 2 else if pins = 2 then 1 else 0

/-- Is a logical hub configured by its host, on either side? -/
def HubS.conf (h : HubS) : Bool := h.configured || h.ssConf

/-- What the home member knows of its own upstream port. -/
def State.upHere (s : State) (slot u : Nat) : UpTold :=
  let e := s.rootEngine slot
  { link := s.g (SSH_PORT.LINK (15 + u)), lanes := usbLanes (s.g (TCP_DP.PINS u)), conf := (s.hubOf slot 0xF).any (·.conf),
    depth := ((s.hubOf slot 0xF).map fun h => if h.depthSet then h.depth else 15).getD 15,
    fs := e.any fun e => s.g (HSH_ENG.SPEED e) = 1, bus := (e.map fun e => s.g (HSH_ENG.STATE e)).getD 0 }

/-- The home member tells every other member what they need of a slot's upstream port: its link state and lanes for USB,
whether its root is configured, and its USB 2.0 speed and bus state (R103, R114, R118, R130, R143, R166; log entry 141). -/
def State.tellUp (s : State) (slot : Nat) : State :=
  match s.homeOf slot with
  | none => s
  | some (m, u) =>
    if m ≠ s.member then s
    else
      let x := s.upHere slot u
      let act := PortAct.upTold x.link x.lanes x.conf x.depth x.fs x.bus
      s.each ((List.range 8).filter fun d => d ≠ m && s.reach d) fun d s => s.ctrlTo d "ORDER" ([slot, 15, 0] ++ actFields act)

/-- The SS side of a slot's hubs on this chip has lost its host: no address, depth or configuration (R101, R115). -/
def State.ssHubOff (s : State) (slot : Nat) : State :=
  let s := s.withSs { s.ss with
    hubs := s.ss.hubs.map fun h => if h.slot = slot then { h with addr := 0, depth := 0, depthSet := false, ssConf := false } else h
    penAddr := s.ss.penAddr.filter fun x => x.1 ≠ slot }
  s.each ((List.range 8).filter fun i => [1, 2].contains (s.g (SSH_CTX.KIND i)) && s.g (SSH_CTX.SLOT i) = slot) fun i s =>
    ((s.p (SSH_CTX.DEPTH i) 0).p (SSH_CTX.DEPTH_SET i) 0).p (SSH_CTX.ADDR i) 0

/-- What this chip knows of the upstream port of a slot: its own registers at the home member, what it was told elsewhere. -/
def State.upKnown (s : State) (slot : Nat) : UpTold :=
  match s.homeOf slot with
  | none => {}
  | some (m, u) =>
    if m = s.member then s.upHere slot u else vat s.ss.told slot

/-- May the SS side of a stall start: the plan gives the stall and its paddock one, and its paddock's upstream port keeps a lane
for USB (R100, R114, R155)? -/
def State.ssAllowed (s : State) (n : Nat) : Bool :=
  ((s.stallE n).map (·.ssMode)).getD 0 ≠ 0 && (s.holderOf n).all fun y =>
    (s.upKnown y).lanes ≠ 0 && (s.plan.paddock? y).any (·.ss)

/-- A logical hub's SS context after a reset of its bus: no address, configuration, depth or wake; nor has its address been told
(R100, R101). -/
def State.hubReset (s : State) (slot pen : Nat) : State :=
  let s := (s.hubMod slot pen fun h => { slot := h.slot, pen := h.pen }).ctxEach slot pen fun i s =>
    ((s.p (SSH_CTX.DEPTH i) 0).p (SSH_CTX.DEPTH_SET i) 0).p (SSH_CTX.ADDR i) 0
  s.withSs { s.ss with penAddr := s.ss.penAddr.filter fun x => ¬(x.1 = slot ∧ x.2.1 = pen) }

/-! ## Data sides -/

/-- Lane of a port in STL_LANE: the upper one of stall 14 is DL15, of UP0 UL1, of UP1 UL3 (R5). -/
def laneIx (n : Nat) (upper : Bool) : Nat :=
  if n ≤ 14 then (if n = 14 && upper then 15 else n) else 16 + 2 * (n - 15) + b2n upper


/-- SSH_PORT.LINK changes: an event, the link-activity votes, on a stall the mirror, and on an upstream port what the other
members know of it (R122, R159). -/
def State.ssLink (s : State) (n st : Nat) : State :=
  let old := s.g (SSH_PORT.LINK n)
  if old = st then s
  else
    let s := (((s.p (SSH_PORT.LINK n) st).hw (SSH_PORT_EVT.LINK_CHG n)).linkJudge (portDom n)).linkJudge dHUB
    if n ≤ 14 then
      let s := s.when (st = 4 || st = 9) fun s => s.withSs { s.ss with linkErr := vset s.ss.linkErr n 0 }
      -- a device that goes is a detach (R96)
      (s.when ([4, 5].contains st && !([4, 5].contains old)) fun s => s.patIdle n).mirLocal n fun q => q.link st
    else match s.slotOf (n - 15) with
      | none => s
      | some y => (s.when (st = 4) fun s => s.ssHubOff y).tellUp y

/-- HSH_PORT.STATE of a stall changes. -/
def State.hsState (s : State) (n st : Nat) : State :=
  ((s.p (HSH_PORT.STATE n) st).linkJudge (portDom n)).linkJudge dHSB

/-- HSH_ENG.STATE changes, and the votes with it (R143); the home member tells the others of its root engine's. -/
def State.engState (s : State) (e st : Nat) : State :=
  let was := s.g (HSH_ENG.STATE e)
  let s := (s.p (HSH_ENG.STATE e) st).linkJudge dHSB
  let s := (s.each [5, 6] fun d s => s.linkJudge d).linkJudge dFAB
  s.when (was ≠ st && s.g (HSH_ENG.ROLE e) = 1) fun s => s.tellUp (s.g (HSH_ENG.SLOT e))

/-- A device is present on the USB 2.0 side of a stall: its port is Disabled and reports a connection (R136). -/
def State.hsHere (s : State) (n : Nat) : State :=
  let low := s.g (HSH_PORT.SPEED n) = 1
  (s.hsState n 2).mirLocal n fun q => { q with hs := orBits q.hs (if low then 0x201 else 1), hsChg := orBits q.hsChg 1 }

/-- A high-speed device of the hub's own appears or goes at a position: a pen, or the tack room. -/
def PortStat.own (q : PortStat) (here : Bool) : PortStat :=
  if here then { q with hs := orBits q.hs 0x401, hsChg := if bitOf q.hs 0 then q.hsChg else orBits q.hsChg 1 }
  else { q with hs := clrBits q.hs 0x637, hsChg := if bitOf q.hs 0 then orBits q.hsChg 1 else q.hsChg }

/-- Carry pair k is in service again (R132): what it serves from this chip connects anew, a powered pen at its position, and
devices at the ports of the relay behind it. -/
def State.carryBack (s : State) (k : Nat) : State :=
  let s := s.withMirror (s.mirror.map fun (q : MirPos) =>
    if q.kind = 2 && !q.obs && q.via = k && (bitOf q.st.hs 8 || bitOf q.st.ss 9) then { q with st := q.st.own true } else q)
  let es := (List.range 4).filter fun e => s.g (HSH_ENG.ROLE e) = 3 && s.g (HSH_ENG.UPSTREAM e) = 4 + k
  s.each ((List.range 15).filter fun n => (s.holderOf n).isSome && s.on (HSH_PORT.REMOTE n)
    && es.contains (s.g (HSH_PORT.ENGINE n)) && s.on (HSH_PORT.CONNECT n) && s.g (HSH_PORT.STATE n) = 1) fun n s => s.hsHere n

/-- Every pen engine of this chip that is reached over carry tells the home member whether its own carry pair is in service
(R131, R132; log entry 141). -/
def State.tellPens (s : State) : State :=
  s.each ((List.range 4).filter fun e => s.g (HSH_ENG.ROLE e) = 2 && s.g (HSH_ENG.UPSTREAM e) ≥ 4) fun e s =>
    let slot := s.g (HSH_ENG.SLOT e)
    match s.homeOf slot with
    | some (m, _) => s.when (m ≠ s.member && s.reach m) fun s =>
        s.ctrlTo m "ORDER" ([slot, 15, 0] ++ actFields
          (.penCarry (s.g (HSH_ENG.PEN e)) (s.g (HSH_CARRY.STATE (s.g (HSH_ENG.UPSTREAM e) - 4)) = 1)))
    | none => s

/-- Default power returns to the stalls of this chip that a slot holds (R163, R399). -/
def State.defaultPower (s : State) (slot : Nat) : State :=
  (s.withHs { s.hs with dflt := vset s.hs.dflt slot true }).each ((List.range 15).filter fun n => [1, 4, 5].contains (s.typ n) && s.holderOf n = some slot) fun n s =>
    s.chMod n fun c => { c with defPower := true, ocHeld := false }

/-- CDP on one stall: it follows the configuration of the root that holds it, without a VBUS cycle (R151, R152). -/
def State.cdpStall (s : State) (n : Nat) : State :=
  s.when ([1, 5].contains (s.typ n) && s.stallFlag n 1 && !s.stallFlag n 2) fun s =>
    s.p (HSH_PORT.BC n) (b2n ((s.holderOf n).any fun y => (s.upKnown y).conf))

/-- CDP on every stall that a slot holds (R151). -/
def State.cdpJudge (s : State) (slot : Nat) : State :=
  s.each ((List.range 15).filter fun n => s.holderOf n = some slot) fun n s => s.cdpStall n

/-- The data sides of a stall go off: SS.Disabled and HS Disabled (R330). -/
def State.dataOff (s : State) (n : Nat) : State :=
  let s := s.ssLink n 4
  s.when (n ≤ 14 && s.g (HSH_PORT.STATE n) ≥ 2) fun s => s.hsState n 2

/-- The paddock of an upstream port disconnects from its host (R330): its engines are DETACHED, and the stalls it holds have
default power (R130, R143, R163, R399). -/
def State.disconnectHost (s : State) (u : Nat) : State :=
  let s := s.ssLink (15 + u) 4
  let s := ((s.p (TKR_FUNC.STATE u) 0).p (TKR_FUNC.ADDR u) 0).p (TKR_FUNC.RWAKE u) 0
  let s := s.withTack (vset s.tack u {})
  s.when (s.on (UPP_PADDOCK.BOUND u)) fun s =>
    let s := s.p (UPP_PADDOCK.STATE u) 2
    match s.slotOf u with
    | none => s
    | some y =>
      let s := s.withSs { s.ss with hubs := s.ss.hubs.map fun (h : HubS) =>
        if h.slot = y then { h with configured := false, altSet := false, wakeEn := false } else h }
      let s := s.withHs { s.hs with upK := vset s.hs.upK u none }
      let s := s.withPdc { s.pdc with stalls := s.pdc.stalls.filter fun (x : StalledAcc) => x.master ≠ 2 + y }
      (((s.each (s.slotEngines y) fun e s => (s.p (HSH_ENG.SPEED e) 0).engState e 0).defaultPower y).cdpJudge y).tellUp y

end Sys2Proof.Machine
end

