-- ==== Sys2Proof/Machine/Fault.lean ====
section
/-!
DEFINITION. Raising a fault source and the reaction of its severity (R327 to R334), and the change of mode a reaction
makes. Every block calls `raise`.
-/
namespace Sys2Proof.Machine

/-- The mode changes: its MODE record, the domain controller's settings and Dwezel's votes (R266, R271, R359). On MGT the vote
follows its work in hand (`State.workInHand`). -/
def State.setMode (s : State) (m cause : Nat) : State :=
  let old := s.mode
  if old = m then s
  else
    let s := (s.p TOP_MODE.MODE m).record 0 0x04 4 [old + m * 2^4 + cause * 2^8]
    let s := s.when (m ≠ 0) fun s => (s.p TOP_MODE.BOOT_STEP 0).p TOP_MODE.HELD 0
    let serving := m = 3 ∨ m = 1
    let s := (s.p PDC_CTRL.ENABLE (b2n serving)).p PDC_XTAL.STOP_EN (b2n serving)
    s.each ((List.range 12).drop 1) fun d s =>
      if serving then s.setVote 0 d 0 else s.setVote 0 d 2

/-- GLK_LINK.STATE of link k changes, with its LINK record (R322). -/
def State.glkState (s : State) (k st : Nat) : State :=
  if s.g (GLK_LINK.STATE k) = st then s
  else
    let s := (s.p (GLK_LINK.STATE k) st).p (GLK_LINK.IDLE k) 0
    let s := s.withGlk (vmod s.glk k fun l => { l with asleep := decide (st = 5), failed := decide (st = 7) })
    (s.linkJudge dFAB).record 3 0x40 4 [k + st * 2^4 + s.g (GLK_LINK.PEER_MEMBER k) * 2^8 + s.g (GLK_LINK.ISO_CAUSE k) * 2^12]

/-- Is link k trained: HELLO, UP, SLEEP or ISOLATED? -/
def State.glkTrained (s : State) (k : Nat) : Bool := [3, 4, 5, 6].contains (s.g (GLK_LINK.STATE k))

/-- Lanes of link k that LANES does not disable: bit 0 the lower, bit 1 the upper (R37, R169). -/
def State.lanesOn (s : State) (k : Nat) : Nat :=
  b2n (!s.on (STL_LANE.DISABLE (20 + 2 * k))) + 2 * b2n (!s.on (STL_LANE.DISABLE (21 + 2 * k)))

/-- SINGLE_LANE_OK of link k (R42, R172). -/
def State.singleOk (s : State) (k : Nat) : Bool := ((s.entryOf k).map fun e => bitOf e.1.flags 0).getD false

/-- May this chip train link k: in SERVICE, planned, not disabled in LANES, numbered, enabled, FAB ON (R169, R170, R357)? One
lane is enough under SINGLE_LANE_OK (DEDUCED, log entry 147). -/
def State.mayTrain (s : State) (k : Nat) : Bool :=
  s.mode = 3 && (s.entryOf k).isSome && s.on GLK_CTRL.ENABLE && s.domOn dFAB && s.fab.numbered
    && (s.lanesOn k = 3 || (s.lanesOn k ≠ 0 && s.singleOk k))

/-- A training attempt begins, with a step 1 of at most 100 µs (R170, log entry 147). -/
def State.attempt (s : State) (k : Nat) : State :=
  ((s.incSat (GLK_LINK.ATTEMPTS k)).glkState k 1).lkMod k fun l =>
    { l with trainAt := s.cycle + 1 + Config.detectTime k s.cycle % 20000 }

/-- Step 2 of the attempts whose step 1 has ended begins (R170). -/
def State.trainTick (s : State) : State :=
  s.each ([0, 1, 2, 3].filter fun k => s.g (GLK_LINK.STATE k) = 1 && decide ((s.lk k).trainAt ≤ s.cycle)) fun k s => s.glkState k 2

/-- Link k sends LINK DOWN when it is trained, and is disabled (R329, R330). -/
def State.glkOff (s : State) (k : Nat) : State :=
  let s := s.linkBale k "DOWN" []
  let up := s.glkTrained k
  let s := (s.glkState k 0).p (GLK_LINK.LANES k) 0
  -- the pair of a link that fails is lost (R132); a SLOW one is off
  ((s.when up fun s => s.linkLost k).lkMod k fun l => { l with asleep := false }).when (s.g (HSH_CARRY.STATE k) = 3) fun s => s.p (HSH_CARRY.STATE k) 0

/-- The severity of a source (R328): fixed ones are GRAVE whatever FLT_SEV holds. -/
def State.severity (s : State) (src : Nat) : Nat :=
  if faultFixed src then 3 else getBits (s.word (FLT_SEV.addr (src / 16))) (2 * (src % 16)) 2

/-- Is the sticky bit of a source set? -/
def State.sticky (s : State) (src : Nat) : Bool := bitOf (s.word (FLT_STICKY.addr (src / 32))).toNat (src % 32)

/-- Set or clear the sticky bit of a source. -/
def State.setSticky (s : State) (src : Nat) (v : Bool) : State :=
  if v then s.hw ⟨FLT_STICKY.addr (src / 32), src % 32, 1⟩ else s.p ⟨FLT_STICKY.addr (src / 32), src % 32, 1⟩ 0

/-- What a source's qualifier names (R328): a port, a link or a domain; others bring no more than NOTE at PORT (R330). -/
inductive QualKind where
  | port | link | domain | other
  deriving DecidableEq, Repr

/-- The qualifier column of R328. -/
def qualKind (src : Nat) : QualKind :=
  if [3, 33, 34, 35, 36, 38, 64, 65, 66, 67, 68, 80, 81, 82, 83, 84, 85, 88].contains src then .port
  else if [37, 48, 49, 50].contains src then .link
  else if [12, 13, 14].contains src then .domain
  else .other

/-- Is a source one of the power path (R330)? -/
def powerSource (src : Nat) : Bool := src = 3 || (80 ≤ src && src ≤ 88)

/-- The PORT reaction on channel n (R330). A channel already in its retry wait or latched keeps that state. -/
def State.portReaction (s : State) (n : Nat) (power : Bool) : State :=
  let s := (s.switchOff n).dataOff n
  let s := s.when (s.hasCC n) fun s => (s.endContract n).vconnOff n
  if n ≥ 15 then s.disconnectHost (n - 15)
  else if power then
    s.ocReport n
  else s.mirLocal n PortStat.disconnect

/-- The PORT reaction on what the qualifier names (R330, R334). -/
def State.reactPort (s : State) (src q : Nat) : State :=
  if !s.serving then s
  else match qualKind src with
    | .port => match portIx q with
      | some n => s.portReaction n (powerSource src)
      | none => s
    | .link =>
      -- the link is disabled and trained again, if it may be (R169); an attempt already begun goes on
      if q ≤ 3 ∧ ¬[1, 2].contains (s.g (GLK_LINK.STATE q)) then (s.glkOff q).when (s.mayTrain q) fun s => s.attempt q else s
    | .domain =>
      if 5 ≤ q ∧ q ≤ 10 then
        s.each ((List.range 17).filter fun n => portDom n = q) fun n s => s.portReaction n false
      else s
    | .other => s

/-- The outputs of a CHIP or GRAVE reaction (R329): gates, links and CC, before the mode. -/
def State.safeOutputs (s : State) : State :=
  let s := s.each (List.range 17) fun n s =>
    let s := (s.switchOff n).dataOff n
    s.when (s.hasCC n) fun s =>
      ((s.powerDown n).p (TCP_PORT.RP n) 0).ccState n (if n = 15 then 8 else 0)
  let s := s.each [0, 1, 2, 3] fun k s => s.glkOff k
  s.each [0, 1] fun u s => (s.disconnectHost u).muxSafe (15 + u)

/-- The reaction of severity CHIP or GRAVE (R329, R331, R332, R333). -/
def State.reactChip (s : State) (src sev : Nat) : State :=
  let inForce := s.on FLT_STATUS.CAUSE_VALID && s.mode = 4
  let cur := s.g FLT_STATUS.CAUSE_SEV
  let sameCycle := s.flt.reactCycle = s.cycle
  -- of the sources of one cycle the highest severity reacts, and its lowest id is the cause (R333)
  let setCause (s : State) : State :=
    let s := s.when (inForce && sameCycle) fun s => s.p TOP_MODE.SAFE_CAUSE src
    ((s.p FLT_STATUS.CAUSE src).p FLT_STATUS.CAUSE_SEV sev).p FLT_STATUS.CAUSE_VALID 1
  let grave (s : State) : State :=
    s.when (sev = 3) fun s => ((s.p FLT_STATUS.GRAVE 1).p FLT_PINS.FAULT_N 1).p FLT_PINS.CUT_N 1
  if inForce ∧ sev < cur then s
  else if inForce ∧ sev = cur then
    -- the same severity adds its record only, but the lowest id of one cycle is the cause
    if sameCycle ∧ src < s.g FLT_STATUS.CAUSE then
      (setCause s).withFlt { s.flt with dumpDue := s.flt.dumpDue.map fun c => if c = s.g FLT_STATUS.CAUSE then src else c }
    else s
  else
    let s := s.withFlt { s.flt with reactCycle := s.cycle, mode := s.mode, time := s.now 4 }
    let s := s.when (s.mode = 1) fun s => (s.withBoot { s.boot with starterFlag := true })
    let s := grave (setCause s.safeOutputs)
    let s := s.when (s.mode ≠ 4 && s.mode ≠ 5) fun s =>
      ((s.p FLT_STATUS.SAFE 1).p TOP_MODE.SAFE_CAUSE src).setMode 4 src
    -- a GRAVE dump comes before any other (R340)
    s.when ((sev = 3 || s.plan.dumpOnChip) && s.mode ≠ 5) fun s =>
      s.withFlt { s.flt with dumpDue := if sev = 3 then [src] else s.flt.dumpDue ++ [src] }

/-- A fault source arises (R327): sticky bit, qualifier, FAULT record, and the reaction of its severity. -/
def State.raise (s : State) (src : Nat) (q : Nat := 0xFF) : State :=
  let sev := s.severity src
  let s := s.setSticky src true
  let s := s.when (s.g (FLT_QUAL.COUNT src) = 0) fun s => s.p (FLT_QUAL.FIRST src) q
  let s := (s.p (FLT_QUAL.LAST src) q).incSat (FLT_QUAL.COUNT src)
  let s := s.record 0 0x03 4 [src + sev * 2^8 + q * 2^16]
  -- client 0 is raised to ON on MGT for any source above NOTE (R258, R267)
  let s := s.when (sev > 0) fun s =>
    ((s.withPdc { s.pdc with faultHeld := true }).mark (.raised 0 dMGT)).judge dMGT 0
  if sev = 0 then s
  else if sev = 1 then s.reactPort src q
  else s.reactChip src sev

end Sys2Proof.Machine
end

