-- ==== Sys2Proof/Machine/Receive.lean ====
section
/-!
DEFINITION. What a member does with cells it reads (R107 of spec/05_superspeed_hub.md) and with the CTRL bales that reach it
(R176 to R179, R185 of spec/08_ghelys_fabric.md).
-/
namespace Sys2Proof.Machine

/-- What the ECC of a cell read shows (R107): 1 a corrected, 2 a double-bit error. -/
def State.eccRead (s : State) (ecc : Nat) : State :=
  if ecc = 1 then (s.hw PBF_EVT.ECC_CORR).incSat PBF_ECC_COUNT.CORR
  else s.when (ecc = 2) fun s => ((s.hw PBF_EVT.ECC_UNCORR).incSat PBF_ECC_COUNT.UNCORR).raise 32

/-- The cells of a packet are read: a double-bit error makes its CRC-32 invalid (R107). -/
def State.readCells (s : State) (b : Buf) (ecc : Nat) : Buf × State :=
  if b.banks.isEmpty then (b, s)
  else ((if ecc = 2 then { b with pkt := { b.pkt with badCrc := true } } else b), s.eccRead ecc)

/-- A bale is discarded (R177, R178): counted and answered with NAK, unless one is already awaited. -/
def State.discardBale (s : State) (k : Nat) (sequenced : Bool) : State :=
  if sequenced && (s.lk k).nakked then s
  else
    let s := s.incSat (GLK_ERR.CRC k)
    s.when sequenced fun s =>
      (s.linkBale k "NAK" [(s.lk k).rxSeq]).lkMod k fun l => { l with nakked := true }

/-- Does queue 21 hold a free cell for a CTRL bale (R109)? Where it does not, no credit for one is returned (R179). -/
def State.ctrlFits (s : State) : Bool := 0 < s.roomOf 21

/-- A CTRL bale has come intact and in order on a link in service: it takes a cell of queue 21, which is read with what its ECC
shows (R107, R109). -/
def State.ctrlCell (s : State) (h : BaleHdr) : Nat × State :=
  let k := h.link.val
  let (l, s) := (s.rxSequenced k).takeCells 21 1
  (l.headD 0, ((s.eccRead h.ecc).p (GLK_LINK.IDLE k) 0).rxHdr h)

/-- The cell of a CTRL bale that is for this chip is freed again, and its credit returned (R179). -/
def State.rxCtrlBale (s : State) (h : BaleHdr) : State :=
  let k := h.link.val
  let (b, s) := s.ctrlCell h
  (s.freeCells 21 [b]).lkMod k fun l => { l with owedC := l.owedC + 1 }

/-- A CTRL message from link k goes on over other links, and its cell is held until the first copy is acknowledged; with no
link to go to it is freed at once (R179). -/
def State.forwardCtrl (s : State) (k b : Nat) (js : List Nat) (m : CtrlMsg) : State :=
  match js with
  | [] => s.freeCtrl { m with cell := some (k, b) }
  | j :: t => (s.ctrlOn j { m with cell := some (k, b) }).each t fun j s => s.ctrlOn j m

/-- A control message's source and sequence are noted, so that a second copy is dropped (R176). -/
def State.noteSeen (s : State) (key : Nat × Nat) : State :=
  s.withFab { s.fab with seen := (key :: s.fab.seen).take 1024 }

/-- The control sequences seen from one source are counted for each destination, the ninth for broadcasts (R176). -/
def ctrlKey (c : CtrlHdr) : Nat × Nat := (c.src.val * 9 + (if c.bcast then 8 else c.dest.val), c.seq.val)

/-- A CTRL bale has come intact (R176, R185): a broadcast is flooded on and a message
for another member forwarded, a second copy is dropped, one that finds queue 21 full is discarded to be sent again; its effect `f` is taken once, at its destination. -/
def State.rxCtrl (s : State) (c : CtrlHdr) (name : String) (fields : List Nat) (f : State → State) : State :=
  let k := c.hdr.link.val
  if s.g (GLK_LINK.STATE k) ≠ 4 then s
  else if !s.ctrlFits then s.discardBale k true
  else if c.bcast then
    let (b, s) := s.ctrlCell c.hdr
    if s.fab.seen.contains (ctrlKey c) || c.src.val = s.fab.member then s.freeCtrl ⟨0, 0, 0, "", [], some (k, b)⟩
    else
      f ((s.noteSeen (ctrlKey c)).forwardCtrl k b ((s.castLinks name).filter fun j => j ≠ k) ⟨c.src, 8, c.seq, name, fields, none⟩)
  else if c.dest.val ≠ s.fab.member then
    let (b, s) := s.ctrlCell c.hdr
    s.forwardCtrl k b (s.ctrlLink c.dest name).toList ⟨c.src, c.dest, c.seq, name, fields, none⟩
  else
    let s := s.rxCtrlBale c.hdr
    if s.fab.seen.contains (ctrlKey c) then s else f (s.noteSeen (ctrlKey c))

end Sys2Proof.Machine
end

