-- ==== Sys2Proof/Machine/Yard.lean ====
section
/-!
DEFINITION. Yard clocks (R79 to R88 of spec/04_yard_clock.md): references, steps with the rebase of the timeline, coasting,
barn time. The rate a reference yields is a measured operand (log entry 3).
-/
namespace Sys2Proof.Machine

/-- A signed number limited to what a two's complement field of `w` bits holds. -/
def satField (w : Nat) (x : Int) : Nat :=
  let m : Int := (2 ^ (w - 1) : Nat) - 1
  toField w (max (-m) (min m x))

/-- Change yard y. -/
def State.yardMod (s : State) (y : Nat) (f : Yard → Yard) : State := (s.withYards (vmod s.yards y f))

/-- Put yard y at a number of ticks. -/
def State.yardSet (s : State) (y t : Nat) : State :=
  s.yardMod y fun v => { v with iv := t / 25000, tick := t % 25000 }

/-- Ticks of yard y now. -/
def State.yticks (s : State) (y : Nat) : Nat := (vat s.yards y).ticks

/-- Is slot y bound by the plan? -/
def State.slotBound (s : State) (y : Nat) : Bool := (s.plan.paddock? y).isSome

/-- Is this chip the home member of slot y (R14)? -/
def State.isHome (s : State) (y : Nat) : Bool :=
  ((s.plan.paddock? y).map fun r => decide (r.upMember = s.member)).getD false

/-- The stalls of this chip that a slot holds. -/
def State.heldStalls (s : State) (y : Nat) : List Nat :=
  (s.holders.filter fun h => h.member = s.member ∧ h.slot = y).map (·.stall)


/-- The timeline entries of yard y after a step by D from `old` to `new` ticks (R90): a relative entry moves by D, an
absolute entry due in this cycle or in the stepped-over span runs once; the holds of client 6 move as relative entries do. -/
def State.rebase (s : State) (y : Nat) (d : Int) (old new : Nat) : State :=
  let adv := (vat s.yards y).adv
  (s.tmlMap fun e =>
    if !e.valid || e.yard ≠ y || e.awaiting then e
    else if !e.abs then { e with due := ((e.due : Int) + d).toNat }
    else if old < e.due + adv && e.due < new then { e with merge := true }
    else e).withPdc { s.pdc with raises := s.pdc.raises.map fun r =>
      if r.yard = y then { r with until_ := ((r.until_ : Int) + d).toNat } else r }

/-- A yard steps to a value and a state (R82, R88, R90, R96). -/
def State.yardStep (s : State) (y new st : Nat) : State :=
  let old := s.yticks y
  let d : Int := (new : Int) - old
  let s := (((s.yardSet y new).yardMod y fun v => { v with err := 0 }).mark (.stepped y)).p (YRD_STATUS.STATE y) st
  let s := (s.hw (YRD_STATUS.STEPPED y)).p (YRD_STEP.STEP y) (satField 32 d)
  let s := (s.rebase y d old new).each (if y < 4 then s.heldStalls y else []) fun n s => s.patIdle n
  s.record 0 0x01 y [y + st * 2^4, satField 32 d]

/-- A host yard enters LOCKED: COARSE clears, and plan entries that wait for it are due from here (R49, R79, R83). -/
def State.yardLock (s : State) (y : Nat) : State :=
  let s := ((s.p (YRD_STATUS.STATE y) 2).p (YRD_STATUS.COARSE y) 0).yardMod y fun v => { v with hasLocked := true }
  let iv := (vat s.yards y).iv
  s.tmlMap fun e => if e.valid && e.yard = y && e.awaiting then { e with awaiting := false, due := e.due + iv * 25000 } else e

/-- The interval count nearest a yard's present count with the given low 14 bits; the lower of two equally near (R82). -/
def nearestIv (iv num : Nat) : Nat :=
  let c := iv / 16384 * 16384 + num % 16384
  if c > iv then
    (if 16384 ≤ c ∧ iv + 16384 ≤ 2 * c - iv then c - 16384 else c)
  else if 2 * iv - c > c + 16384 then c + 16384 else c

/-- A reference of host yard y is taken (R80 to R83): the host's number, the ticks since tick 0 of its interval, the REF
code, and the measured rate. The first one after UNBOUND or COAST, whose phase no rule measures, leaves PHASE_ERR at 0
(DESIGN CHOICE, log entry 159). -/
def State.takeRef (s : State) (y num off ref : Nat) (rate : Int) : State :=
  if !s.isHome y || bitOf (s.g YRD_CTRL.FORCE_COAST) y then s
  else
    let v := vat s.yards y
    let st := s.g (YRD_STATUS.STATE y)
    let iv := nearestIv v.iv num
    let new := iv * 25000 + off
    let err : Int := (v.ticks : Int) - new
    let s := s.p (YRD_STATUS.REF y) ref
    let fin (s : State) (good : Nat) (left : Int := 0) : State :=
      s.yardMod y fun v => { v with lastRef := iv, good := good, err := left, fresh := false }
    if st = 0 ∨ st = 3 ∨ v.fresh then fin ((s.yardStep y new 1).p (YRD_STATUS.PHASE_ERR y) 0) 1
    else
      let s := s.p (YRD_STATUS.PHASE_ERR y) (satField 16 err)
      if err.natAbs > 250 then fin (s.yardStep y new 1) 1
      else
        let s := s.p (YRD_RATE.RATE y) (satField 24 rate)
        let good := if err.natAbs ≤ 20 then v.good + 1 else 0
        if st = 2 then fin s good err
        else
          let s := fin (s.yardSet y new) good
          s.when (good ≥ 8) fun s => s.yardLock y

/-- Has yard y taken its reference of interval iv (R80)? A kept yard's next reference is a new start (R85). -/
def State.refTaken (s : State) (y iv : Nat) : Bool :=
  let v := vat s.yards y
  [1, 2].contains (s.g (YRD_STATUS.STATE y)) && !v.fresh && decide (v.lastRef = iv)

/-- SOF_RECEIVED (R80, R81): at upstream port u, with its frame number. A SOF is taken whenever it arrives, also after an ITP of
its interval (DEDUCED, log entry 161); a second SOF with the number of the last is not. -/
def State.sofReceived (s : State) (u : Fin 2) (frame : Fin 2048) (rate : Int) : State :=
  match s.slotOf u with
    | none => s
    | some y =>
      let v := vat s.yards y
      let micro := if v.frame = frame.val then min 7 (v.micro + 1) else 0
      let num := frame.val * 8 + micro
      let iv := nearestIv v.iv num
      let again := v.sofIv = iv + 1 && s.refTaken y iv
      let s := s.yardMod y fun v => { v with frame := frame.val, micro := micro, sofIv := iv + 1 }
      s.when (!again) fun s => s.takeRef y num 0 1 rate

/-- SOF_RECEIVED (R80, R81). -/
def execSofReceived (u : Fin 2) (frame : Fin 2048) (rate : Int) (s : State) : Res := .next (s.sofReceived u frame rate)

/-- The ticks of an ITP delta, whose unit is 8 high-speed bit times, 10/3 ticks (PRESUMED, log entry 13). -/
def itpTicks (delta : Nat) : Nat := delta * 10 / 3

/-- An ITP of slot y goes to each local SS stall of the paddock in U0, its delta raised by the residence time for that port,
rounded to the nearest unit (R117). -/
def State.itpForward (s : State) (u y bic delta : Nat) (res : List ItpOut) : State :=
  s.each ((s.heldStalls y).filter fun n => s.g (SSH_PORT.LINK n) = 0) fun n s =>
    let r := (res.find? fun r => r.stall = n).getD ⟨n, 0, false⟩
    (s.p (SSH_ITP.RES_MAX u) (max (s.g (SSH_ITP.RES_MAX u)) (min 255 r.ticks))).out
      (.line "ITP" [n, bic, delta + (r.ticks * 3 + 5) / 10, b2n r.delayed])

/-- ITP_RECEIVED (R80, R117, R118): its bus interval counter, delta, and how it leaves at each stall port. PTM is in use where
the host has enabled Link Delay Measurement (R119). The notice goes to each member with a stall of the slot in U0, by the
mirrored link states. -/
def State.itpReceived (s : State) (u : Fin 2) (bic : Fin 16384) (delta : Nat) (res : List ItpOut) (rate : Int) : State :=
  if s.g (SSH_PORT.LINK (15 + u)) ≠ 0 then s
  else match s.slotOf u with
    | none => s
    | some y =>
      let usePtm := s.on (SSH_USP_LPM.LDM_ENABLE u) && bitOf (s.g YRD_CTRL.PTM_EN) y
      let off := itpTicks delta + (if usePtm then s.g (SSH_PTM.DELAY u) / 5 else 0)
      let iv := nearestIv (vat s.yards y).iv bic
      let s := s.when ((vat s.yards y).sofIv ≠ iv + 1 && !s.refTaken y iv) fun s =>
        s.takeRef y bic off (if usePtm then 3 else 2) rate
      let s := s.p (SSH_ITP.LAST_BIC u) bic
      s.when (s.on SSH_CTRL.ITP_EN) fun s =>
        let s := s.itpForward u y bic delta res
        s.each ((List.range 8).filter fun m => m ≠ s.member && s.mirror.any fun q =>
            q.slot = y && q.kind = 1 && q.member = m && bitsOf q.st.ss 5 4 = 0 && bitOf q.st.ss 0) fun m s =>
          s.ctrlTo m "ITP_NOTICE" [y, bic]

/-- ITP_RECEIVED (R80, R117, R118). -/
def execItpReceived (u : Fin 2) (bic : Fin 16384) (delta : Nat) (res : List ItpOut) (rate : Int) (s : State) : Res :=
  .next (s.itpReceived u bic delta res rate)

/-- A yard begins to advance on the keeper: COARSE, and YRD_COARSE where it has been LOCKED, each time it begins (R79). -/
def State.yardCoarse (s : State) (y : Nat) : State :=
  if s.g (YRD_STATUS.STATE y) ≠ 3 then s
  else
    let s := s.p (YRD_STATUS.COARSE y) 1
    s.when (vat s.yards y).hasLocked fun s => s.raise 16 y

/-- A yard enters COAST (R84): its value does not change; with the crystal stopped it runs on the keeper. An UNBOUND yard, which
R79 does not let advance, stays UNBOUND under FORCE_COAST too (DESIGN CHOICE, log entry 159). -/
def State.yardCoast (s : State) (y : Nat) : State :=
  if s.g (YRD_STATUS.STATE y) = 1 ∨ s.g (YRD_STATUS.STATE y) = 2 then
    let s := (((s.p (YRD_STATUS.STATE y) 3).hw (YRD_STATUS.LOST y)).p (YRD_STATUS.REF y) 0).yardMod y fun v => { v with good := 0, frame := 2048 }
    s.when (!s.on PDC_XTAL.RUNNING) fun s => s.yardCoarse y
  else s

/-- Does a reference of yard y arrive in this same cycle, behind this command (R84)? -/
def State.refAhead (s : State) (y : Nat) : Bool := s.ahead fun c => match c with
  | .sofReceived u _ _ => s.slotOf u = some y
  | .itpReceived u _ _ _ _ => s.slotOf u = some y && s.g (SSH_PORT.LINK (15 + u)) = 0
  | _ => false

/-- YARD_COAST (R84): at the home member, 3 intervals of its own count without a reference; one that arrives in this cycle
is taken instead. -/
def execYardCoast (y : Fin 4) (s : State) : Res :=
  .next (s.when (s.isHome y && !s.refAhead y && (vat s.yards y).lastRef + 3 ≤ (vat s.yards y).iv) fun s => s.yardCoast y)

/-- The yards whose FORCE_COAST bit is set coast at once (R84). -/
def State.forceCoast (s : State) : State :=
  s.each ((List.range 4).filter fun y => bitOf (s.g YRD_CTRL.FORCE_COAST) y) fun y s => s.yardCoast y

/-- The crystal has stopped: every yard in COAST, and yard L, runs on the keeper and is COARSE; one that has been LOCKED
raises YRD_COARSE (R79, R84). -/
def State.yardsKeeper (s : State) : State :=
  (s.p (YRD_STATUS.STATE 4) 3).each [0, 1, 2, 3, 4] fun y s => s.yardCoarse y

/-- The crystal runs again: yard L is LOCKED and its COARSE clears (R79). -/
def State.yardsCrystal (s : State) : State :=
  (((s.withFlt { s.flt with xtalLost := false }).p (YRD_STATUS.STATE 4) 2).p (YRD_STATUS.COARSE 4) 0).yardMod 4 fun v =>
    { v with hasLocked := true }

/-- SNAP: all five yards are copied in one cycle (YRD_CTRL.SNAP). -/
def State.snapYards (s : State) : State :=
  s.each [0, 1, 2, 3, 4] fun y s =>
    let t := s.now y
    (s.yardMod y fun v => { v with snap := some (t % 2^32) }).p (YRD_NOW_HI.NOW_HI y) (t / 2^32)

/-- A read of YRD_NOW_LO: the snapped low word once, otherwise live with the high word latched. -/
def State.yardNowRead (s : State) (y : Nat) : Word × State :=
  match (vat s.yards y).snap with
  | some lo => (w32 lo, s.yardMod y fun v => { v with snap := none })
  | none => (w32 (s.now y), s.p (YRD_NOW_HI.NOW_HI y) (s.now y / 2^32))

/-- A yard advances by k ticks of the clock it runs on, at a rate against that clock (R79, R86). -/
def Yard.advance (v : Yard) (k : Nat) (rate : Int) : Yard :=
  let a := v.acc + k * rate
  let n : Nat := if a ≥ 100000000 then k + 1 else if a ≤ -100000000 then k - 1 else k
  let a := if a ≥ 100000000 then a - 100000000 else if a ≤ -100000000 then a + 100000000 else a
  let t := v.tick + n
  { v with iv := v.iv + t / 25000, tick := t % 25000, acc := a, adv := n }

/-- Does a link carry barn time to this chip (R86, R173)? None does while every one of them sleeps. -/
def State.barnHeard (s : State) : Bool := s.on YRD_BARN.SYNCED && [0, 1, 2, 3].any fun k => s.g (GLK_LINK.STATE k) = 4

/-- The rate a yard advances at, in 0.01 ppm (R79, R83, R84): the measured one; a LOCKED yard's is slewed to take its last
phase error out over one interval (log entry 62), and none moves by more than 1,000 ppm. Yard L follows barn time only over
links that carry it (R173). -/
def State.tickRate (s : State) (y : Nat) : Int :=
  let err : Int := if s.g (YRD_STATUS.STATE y) ≠ 2 then 0
    else if y < 4 || s.barnHeard then (vat s.yards y).err else 0
  max (-100000) (min 100000 (ofField 24 (s.g (YRD_RATE.RATE y)) - 4000 * err))

/-- Is yard y a copy of a yard whose slot is homed on another member (R86)? -/
def State.isCopy (s : State) (y : Nat) : Bool := decide (y < 4) && s.slotBound y && !s.isHome y

/-- Every yard advances by one core cycle: yard L and the yards homed here on this chip's clock, a copy by what yard L has
advanced, at the rate its last descriptor gave (R79, R86). -/
def State.yardsTick (s : State) : State :=
  s.each [4, 0, 1, 2, 3] fun y s =>
    if y < 4 ∧ s.g (YRD_STATUS.STATE y) = 0 then s
    else if s.isCopy y then s.yardMod y fun v => v.advance (vat s.yards 4).adv v.rel
    else s.yardMod y fun v => v.advance 1 (s.tickRate y)

/-! ## Barn time (R86, R87) -/

/-- Is this chip the lead of its barn? -/
def State.isLead (s : State) : Bool := s.g YRD_BARN.LEAD = s.member

/-- The rate of host yard y relative to barn time, in 0.01 ppm (R86): its measured rate less that of yard L. -/
def State.barnRate (s : State) (y : Nat) : Int := ofField 24 (s.g (YRD_RATE.RATE y)) - ofField 24 (s.g (YRD_RATE.RATE 4))

/-- BARN_TIME_BROADCAST (R86): at tick 0 of yard L the lead sends barn time, and a home member its yard descriptors: value,
rate relative to barn time, state and COARSE. -/
def execBarnTimeBroadcast (s : State) : Res :=
  .next (
    if (vat s.yards 4).tick ≠ 0 then s
    else
      let s := s.when s.isLead fun s => s.ctrlAll "BARN_TIME" [s.now 4, 0]
      s.each ((List.range 4).filter fun y => s.isHome y) fun y s =>
        s.ctrlAll "YARD_DESCRIPTOR" [y, s.now y, satField 24 (s.barnRate y), s.g (YRD_STATUS.STATE y),
          s.g (YRD_STATUS.COARSE y)])

/-- BARN_TIME_RECEIVED (R86): a member takes the first copy of an interval from link k: barn time as the link's other end
sent it, the hops it came over, and the measured slew rate. The delay of the link is added, and barn time so corrected goes on
over the other links. -/
def State.barnTimeReceived (s : State) (h : BaleHdr) (value hops : Nat) (rate : Int) : State :=
  let k := h.link.val
  let iv := value / 32768
  if s.g (GLK_LINK.STATE k) ≠ 4 then s
  else if !s.ctrlFits then s.discardBale k true
  else
  let s := s.rxCtrlBale h
  if s.isLead || (s.on YRD_BARN.SYNCED && (vat s.yards 4).lastRef = iv + 1) then s
  else
    let new := ticksOf value + (s.g (GLK_DELAY.DELAY k) + 2) / 5
    let err : Int := (s.yticks 4 : Int) - new
    let s := (s.p YRD_BARN.HOPS (hops + 1)).p YRD_BARN.ERR (satField 16 err)
    let s :=
      if err.natAbs ≤ 1000 then (s.p (YRD_RATE.RATE 4) (satField 24 rate)).yardMod 4 fun v => { v with err := err }
      else s.yardStep 4 new 2
    let s := (s.p YRD_BARN.SYNCED 1).yardMod 4 fun v => { v with lastRef := iv + 1 }
    let (q, s) := s.nextCseq 8
    s.each (s.upLinks.filter fun j => j ≠ k) fun j s =>
      s.ctrlOn j ⟨s.g YRD_BARN.LEAD, 8, q, "BARN_TIME", [new / 25000 * 32768 + new % 25000, hops + 1], none⟩

/-- BARN_TIME_RECEIVED (R86). -/
def execBarnTimeReceived (h : BaleHdr) (value hops : Nat) (rate : Int) (s : State) : Res :=
  .next (s.barnTimeReceived h value hops rate)

/-- Entries of a yard held until now and due run once (R87, R89). -/
def State.runHeld (s : State) (y : Nat) : State :=
  s.tmlMap fun e => if e.valid && !e.awaiting && e.yard = y && decide (e.due ≤ s.yticks y) then { e with merge := true } else e

/-- The home member's yard is UNBOUND: so is the copy, which reads 0:0 (R79). -/
def State.copyUnbound (s : State) (y : Nat) : State :=
  ((s.yardSet y 0).fields [(YRD_STATUS.STATE y, 0), (YRD_RATE.RATE y, 0), (YRD_STATUS.COARSE y, 0), (YRD_STATUS.STALE y, 0)]).yardMod y
    fun v => { v with rel := 0, acc := 0 }

/-- YARD_DESCRIPTOR_RECEIVED (R86, R87): the home member's value at tick 0 of the barn interval, its rate relative to barn
time, its state and COARSE. The copy follows it. It reports a step where the yard has taken its first reference since UNBOUND
or COAST, has returned from LOCKED to ACQUIRE, or stands more than 250 ticks off (log entry 97); the copy applies that step at
once. -/
def State.yardDescriptorReceived (s : State) (c : CtrlHdr) (y : Fin 4) (value rate : Nat) (st : Fin 4) (coarse : Bool) : State :=
  s.rxCtrl c "YARD_DESCRIPTOR" [y.val, value, rate, st.val, b2n coarse] fun s =>
    if !s.isCopy y || (s.homeOf y).map (·.1) ≠ some c.src.val then s
    else if st.val = 0 then s.copyUnbound y
    else
      let rel := ofField 24 rate
      let l := (vat s.yards 4).tick
      let new := ((ticksOf value : Int) + l + rel * l / 100000000).toNat
      let old := s.yticks y
      let was := s.g (YRD_STATUS.STATE y)
      let held := s.on (YRD_STATUS.STALE y)
      let taken := st.val ≠ 3 && (was = 0 || was = 3) || st.val = 1 && was = 2
      let far := decide (new > old + 250 ∨ old > new + 250)
      let s := if was = 0 || taken || far then s.yardStep y new st else (s.yardSet y new).p (YRD_STATUS.STATE y) st
      let s := s.when (st.val = 2) fun s => s.yardLock y
      let s := s.yardMod y fun v => { v with rel := rel, lastRef := (vat s.yards 4).iv }
      let s := s.fields [(YRD_RATE.RATE y, satField 24 (rel + ofField 24 (s.g (YRD_RATE.RATE 4)))), (YRD_STATUS.COARSE y, b2n coarse),
        (YRD_STATUS.STALE y, 0)]
      s.when held fun s => s.runHeld y

/-- YARD_DESCRIPTOR_RECEIVED (R86, R87). -/
def execYardDescriptorReceived (c : CtrlHdr) (y : Fin 4) (value rate : Nat) (st : Fin 4) (coarse : Bool) (s : State) : Res :=
  .next (s.yardDescriptorReceived c y value rate st coarse)

/-- The state after every command of this cycle that still waits and may step a yard (R90). -/
def State.afterSteps (s : State) : State :=
  s.pending.foldl (fun s c => match c with
    | .sofReceived u f r => s.sofReceived u f r
    | .itpReceived u b d x r => s.itpReceived u b d x r
    | .barnTimeReceived h v n r => s.barnTimeReceived h v n r
    | .yardDescriptorReceived c y v r st z => s.yardDescriptorReceived c y v r st z
    | _ => s) s

/-- YARD_DESCRIPTOR_TIMEOUT (R87): 4 intervals without a descriptor of a yard homed elsewhere. -/
def execYardDescriptorTimeout (y : Fin 4) (s : State) : Res :=
  .next (s.when (s.slotBound y && !s.isHome y && s.g (YRD_STATUS.STATE y) ≠ 0) fun s => s.p (YRD_STATUS.STALE y) 1)

end Sys2Proof.Machine
end

