-- ==== Sys2Proof/Machine/TimelineBase.lean ====
section
/-!
DEFINITION. Timeline entries as data (R89 to R94) and the wake predictor (R95 to R99) of spec/04_yard_clock.md. What an
action does when it runs is in Timeline.lean.
-/
namespace Sys2Proof.Machine

/-- What the last entry to be changed by the window in the cycle of its due time held, while it has not run (R94). -/
def State.oldEntry (s : State) (i : Nat) : Option TmlE := (s.tmlOld.find? fun x => x.1 = i).map (·.2)

/-- Timeline entry i. -/
def State.entry (s : State) (i : Nat) : TmlE := vat s.tml i

/-- Put timeline entry i. -/
def State.setEntry (s : State) (i : Nat) (e : TmlE) : State := (s.withTml (vset s.tml i e))

/-- Mailbox channel c has the notification WAKE (R51, R91, R279). -/
def State.notifyWake (s : State) (c : Nat) : Bool := s.on (MBX_ASSIGN.NOTIFY c)

/-- The domains an action needs (the Needs column of R91). -/
def State.needs (s : State) (action target : Nat) : List Nat :=
  match action with
  | 1 => [target]
  | 2 | 3 | 8 => [dPPA]
  | 4 => if s.notifyWake target then [dMGT] else []
  | 7 => [dFAB]
  | 9 => [dHSB, portDom target]
  | _ => []

/-- The lead time of a domain's present state, in ticks (R92, TML_LEAD). -/
def State.lead (s : State) (d : Nat) : Nat :=
  match s.judged d with
  | 0 => 0
  | 1 => s.g TML_LEAD.RET_LEAD * 200
  | _ => (if d ≤ 4 then s.g TML_LEAD.OFF_LOGIC else s.g TML_LEAD.OFF_PHY) * 200

/-- How early DOMAIN_WAKE and TT_PREWAKE run (R92): by the lead of the target, the shorter of two; the wake of the other
domain has begun at its own lead. -/
def State.entryLead (s : State) (e : TmlE) : Nat :=
  let l := (s.needs e.action e.target).map s.lead
  l.foldl min (l.headD 0)

/-- The time an entry's due time is tested against: a step of the same cycle applies first, and an absolute entry is tested
against the stepped yard (R90). -/
def State.tested (s : State) (e : TmlE) : Nat :=
  if e.abs then min (s.yticks e.yard) (vat s.afterSteps.yards e.yard).ticks else s.yticks e.yard

/-- Does a forward step of this cycle, made already or by a command that waits, pass over an absolute entry's due time? It runs
once in the next cycle (R90). -/
def State.steppedOver (s : State) (e : TmlE) : Bool :=
  let y := vat s.yards e.yard
  let a := s.afterSteps
  e.abs && ((e.merge && s.marks.contains (.stepped e.yard))
    || (a.marks.contains (.stepped e.yard) && decide (y.ticks < e.due + y.adv) && decide (e.due < (vat a.yards e.yard).ticks)))

/-- May the timeline dispatch entry i at all: valid, enabled, its yard known (R49, R87, R89)? The entries of an UNBOUND yard,
which stands at 0:0 and reaches no time, never run, one due at 0:0 among them (DESIGN CHOICE, log entry 159). -/
def State.live (s : State) (e : TmlE) : Bool :=
  e.valid && !e.awaiting && s.on TML_CTRL.ENABLE && !s.on (YRD_STATUS.STALE e.yard)
    && s.g (YRD_STATUS.STATE e.yard) ≠ 0

/-- DOMAIN_WAKE and TT_PREWAKE run early by the lead time (R92). -/
def earlyAction (a : Nat) : Bool := a = 1 || a = 9

/-- Has the entry's moment come (R89, R92)? -/
def State.isDue (s : State) (e : TmlE) : Bool :=
  !s.steppedOver e && (e.merge || decide (e.due ≤ s.tested e + (if earlyAction e.action then s.entryLead e else 0)))

/-- Does the entry's moment fall in this very cycle (R94)? -/
def State.dueNow (s : State) (e : TmlE) : Bool :=
  let t := s.tested e + (if earlyAction e.action then s.entryLead e else 0)
  decide (e.due ≤ t) && decide (t < e.due + (vat s.yards e.yard).adv)

/-- Does the entry run in this cycle: due, with every domain it needs ON (R92)? An entry whose needed domain has FAILED is
passed over without its action. -/
def State.runnable (s : State) (e : TmlE) : Bool :=
  s.live e && s.isDue e
    && (earlyAction e.action || (s.needs e.action e.target).all fun d => s.domOn d || s.g (PDC_DOM.STATE d) = 3)

/-- Has one of the domains an entry needs FAILED (R92, R264)? -/
def State.needFailed (s : State) (e : TmlE) : Bool :=
  (s.needs e.action e.target).any fun d => s.g (PDC_DOM.STATE d) = 3

/-- Has an entry run in this cycle? The timeline dispatches one per cycle (R89). -/
def State.dispatched (s : State) : Bool := s.marks.contains .dispatched

/-- What runs in place i next: the due contents that a change has left to run, else the entry (R94). -/
def State.standing (s : State) (i : Nat) : TmlE := (s.oldEntry i).getD (s.entry i)

/-- Entries due in the same tick, and entries held until now, run in ascending index order (R89): is i the first of those,
and the first to run in this cycle? -/
def State.firstOfTick (s : State) (i : Nat) : Bool :=
  let e := s.standing i
  let late (e : TmlE) : Int := (s.yticks e.yard : Int) - e.due
  !s.dispatched && !((List.range i).any fun j =>
    s.runnable (s.standing j) && (late (s.standing j) = late e || ((s.standing j).merge && e.merge)))

/-- An entry after its run (R89, R90): a repeating one advances from its due time, a merged one to the first due time after
its yard's value, with the merged occurrences counted in CATCHUP. -/
def State.advanceEntry (s : State) (i : Nat) : State :=
  let e := s.entry i
  let s := s.withPdc { s.pdc with raises := s.pdc.raises.filter fun r => r.entry ≠ i + 1 }
  if e.rep = 0 then s.setEntry i { e with valid := false, merge := false }
  else
    let p := e.rep * 25000
    if e.merge && e.due ≤ s.yticks e.yard then
      let n := (s.yticks e.yard - e.due) / p
      (s.setEntry i { e with due := e.due + (n + 1) * p, merge := false }).incSat TML_STATUS.CATCHUP n
    else s.setEntry i { e with due := e.due + p, merge := false }

/-- The number of valid entries (TML_STATUS.USED). -/
def State.tmlUsed (s : State) : Nat := (s.tml.toList.filter (·.valid)).length

/-- The highest free index above the plan's entries (R89). -/
def State.freeEntry (s : State) : Option Nat :=
  ((List.range 256).reverse).find? fun i => s.g TML_STATUS.PLAN_TOP ≤ i && !(s.entry i).valid


/-! ## The window (R94) -/

/-- TML_SEL.CMD READ: the selected entry into the window. -/
def State.tmlRead (s : State) : State :=
  let e := s.entry (s.g TML_SEL.INDEX)
  let t := e.due / 25000 * 32768 + e.due % 25000
  let s := (s.p TML_E_TIME_LO.TIME_LO t).p TML_E_TIME_HI.TIME_HI (t / 2^32)
  let s := (((s.p TML_E_CTRL.YARD e.yard).p TML_E_CTRL.ABS (b2n e.abs)).p TML_E_CTRL.VALID (b2n e.valid))
  let s := (s.p TML_E_CTRL.ACTION e.action).p TML_E_CTRL.TARGET e.target
  (s.p TML_E_REPEAT.REPEAT e.rep).p TML_E_ARG.ARG e.arg

/-- Entries of the plan are changed only while a plan is being activated (R94). -/
def State.activating (s : State) : Bool := s.mode = 2 || (s.mode = 0 && s.g TOP_MODE.BOOT_STEP = 6)

/-- Entry i is about to be changed: its early wakes end, and if it is due in this cycle the contents it has now run first
(R94). -/
def State.editEntry (s : State) (i : Nat) : State :=
  let e := s.entry i
  let s := s.withPdc { s.pdc with raises := s.pdc.raises.filter fun r => r.entry ≠ i + 1 }
  let keep := s.live e && s.dueNow e && (s.oldEntry i).isNone && !s.marks.contains (.edited i)
  (s.when keep fun s => s.withTmlOld (s.tmlOld ++ [(i, e)])).mark (.edited i)

/-- TML_SEL.CMD WRITE: the window into the selected entry, or REFUSED (R94). -/
def State.tmlWrite (s : State) : State :=
  let i := s.g TML_SEL.INDEX
  let a := s.g TML_E_CTRL.ACTION
  if (i < s.g TML_STATUS.PLAN_TOP && !s.activating) || a = 0 || a > 9 || s.g TML_E_CTRL.YARD > 4
      || !tmlTargetOk a (s.g TML_E_CTRL.TARGET) then s.hw TML_SEL.REFUSED
  else
    let t := s.g TML_E_TIME_LO.TIME_LO + s.g TML_E_TIME_HI.TIME_HI * 2^32
    (s.editEntry i).setEntry i {
                   valid := s.on TML_E_CTRL.VALID, yard := s.g TML_E_CTRL.YARD, abs := s.on TML_E_CTRL.ABS, action := a,
                   target := s.g TML_E_CTRL.TARGET, rep := s.g TML_E_REPEAT.REPEAT, arg := s.g TML_E_ARG.ARG,
                   due := ticksOf t }

/-- TML_SEL.CMD DELETE (R94). -/
def State.tmlDelete (s : State) : State :=
  let i := s.g TML_SEL.INDEX
  if i < s.g TML_STATUS.PLAN_TOP && !s.activating then s.hw TML_SEL.REFUSED
  else (s.editEntry i).setEntry i { s.entry i with valid := false }

/-- The plan's entries of this member over a table of entries, each due from the reference instant of its yard, which is now
where that is LOCKED or yard L (R49). -/
def State.planEntries (s : State) (v : Vector TmlE 256) : State :=
  let l := s.plan.timeline.filter fun e => e.member = s.member
  let mk (e : TimelineE) : TmlE :=
    let ready := e.yard = 4 || s.g (YRD_STATUS.STATE e.yard) = 2
    { valid := true, yard := e.yard, action := e.action, target := e.target, rep := e.rep, arg := e.arg,
      awaiting := !ready, due := ((if ready then (vat s.yards e.yard).iv else 0) + e.start) * 25000 + e.tick }
  (s.withTml (Vector.ofFn fun i => ((l[i.val]?).map mk).getD (vat v i.val))).p TML_STATUS.PLAN_TOP l.length

/-- A command of TML_SEL: dropped with REFUSED while one is in progress (R94). BUSY stands until the cycle of the command ends
(DESIGN CHOICE, log entry 162). -/
def State.tmlCommand (s : State) (cmd : Nat) : State :=
  if s.on TML_SEL.BUSY then s.hw TML_SEL.REFUSED
  else match cmd with
    | 1 => s.tmlRead.p TML_SEL.BUSY 1
    | 2 => s.tmlWrite.p TML_SEL.BUSY 1
    | 3 => s.tmlDelete.p TML_SEL.BUSY 1
    | _ => s

/-- The plan's entries of this member are loaded, every other entry emptied (R49, R94). -/
def State.loadTimeline (s : State) : State :=
  ((s.withPdc { s.pdc with raises := [] }).withTmlOld []).planEntries (Vector.replicate 256 {})

/-- The end of activation judges which host yards are LOCKED, after REGPRELOAD (R49, R54). -/
def State.refTimeline (s : State) : State := s.planEntries s.tml

/-- The entries of a stall that stand in a host yard move to another host's yard, at the same remaining ticks (R93). One
that still waits for its yard to be LOCKED waits for the receiving yard, and is due from now where that is LOCKED (R49). -/
def State.moveEntries (s : State) (n dest : Nat) : State :=
  let locked := s.g (YRD_STATUS.STATE dest) = 2
  s.tmlMap fun e =>
    if e.valid && e.yard < 4 && (e.action = 2 || e.action = 3 || e.action = 9) && e.target = n then
      if e.awaiting then
        { e with yard := dest, awaiting := !locked, due := e.due + (if locked then (vat s.yards dest).iv * 25000 else 0) }
      else { e with yard := dest, due := ((e.due : Int) - s.yticks e.yard + s.yticks dest).toNat }
    else e

/-! ## Predictor (R95 to R99) -/

/-- The stalls of a domain that carry patterns. -/
def domStalls (d : Nat) : List Nat := (List.range 15).filter fun n => portDom n = d

/-- The yard of a stall's holder; yard L without one. -/
def State.stallYard (s : State) (n : Nat) : Nat := (s.holderOf n).getD 4

/-- Ticks from now to the next known event of a domain (R95); `none` when there is none. -/
def State.nextEvent (s : State) (d : Nat) : Option Nat :=
  let fromEntries := s.tml.toList.filterMap fun e =>
    if e.valid && !e.awaiting && (s.needs e.action e.target).contains d then
      some (e.due - s.lead d - s.yticks e.yard)
    else none
  let fromPat := (domStalls d).filterMap fun n =>
    let y := vat s.yards (s.stallYard n)
    let t : Option Nat :=
      if s.g (TML_PAT.STATE n) = 2 then some (vat s.pat n).pred
      else if s.g (TML_PAT.STATE n) = 1 then (vat s.pred d).minGap.map fun gap => (vat s.pat n).act + gap
      else none
    t.bind fun iv => if iv < y.iv then none else some (iv * 25000 - s.lead d - y.ticks)
  (fromEntries ++ fromPat).foldl (fun a x => some (match a with | none => x | some b => min b x)) none

/-- TIMELINE_WAKE_LEAD (R92, R98): the wake of every domain an entry needs begins its lead time ahead; that of a stall's
domain its lead time ahead of a learned pattern, held until the window of the prediction closes. -/
def execTimelineWakeLead (w : WakeOf) (s : State) : Res :=
  .next (match w with
    | .entry i =>
      let e := s.entry i
      s.when (s.live e) fun s =>
        s.each ((s.needs e.action e.target).filter fun d =>
            s.lead d > 0 && decide (e.due ≤ s.yticks e.yard + s.lead d)) fun d s =>
          s.raiseTimeline d e.yard e.due (i.val + 1)
    | .pattern n =>
      let d := portDom n
      let y := s.stallYard n
      let at_ := (vat s.pat n).pred * 25000
      let known := s.g (TML_PAT.STATE n) = 2 && s.on (PDC_CFG.PREDICT d) && s.on TML_CTRL.PRED_EN
      s.when (known && s.lead d > 0 && decide (at_ ≤ s.yticks y + s.lead d) && decide (s.yticks y < at_ + 75000)) fun s =>
        s.raiseTimeline d y (at_ + 75000) 0 (n.val + 1))

/-- A packet crosses stall n (R95, R98): its last activity; the domain a prediction has woken stays ON until the burst has
ended. -/
def State.packetAt (s : State) (n : Nat) : State :=
  let iv := (vat s.yards (s.stallYard n)).iv
  let s := s.withPat (vmod s.pat n fun t => { t with act := iv })
  s.withPdc { s.pdc with raises := s.pdc.raises.map fun r =>
    if r.pat = n + 1 then { r with until_ := (iv + 2) * 25000 } else r }

/-- NEXT of a number of ticks (TML_PRED). -/
def nextField (t : Option Nat) : Nat := match t with | none => 0xFFFF | some t => min 0xFFFE (t / 25000)

/-- The predictor's choice (R98): 0 ON, 1 RET, 2 OFF. -/
def State.choice (s : State) (d : Nat) : Nat :=
  let deepest := if s.on (PDC_CFG.ALLOW_OFF d) then 2 else if s.on (PDC_CFG.ALLOW_RET d) then 1 else 0
  if !s.on (PDC_CFG.PREDICT d) || !s.on TML_CTRL.PRED_EN then deepest
  else
    let ge (us : Nat) : Bool := match s.nextEvent d with | none => true | some t => decide (us * 200 ≤ t)
    if ge (s.g (PDC_CFG.OFF_MS d) * 1000) && s.on (PDC_CFG.ALLOW_OFF d) && s.g (TML_PRED.HISTORY d) ≥ 64
        && !s.on (TML_PRED.CAPPED d) then 2
    else if ge (s.g (PDC_RETUS.RET_US d)) && s.on (PDC_CFG.ALLOW_RET d) then 1
    else 0

/-- PREDICTOR_CHOICE (R98, R260): no ON vote stands and QUIET_MS has passed. -/
def execPredictorChoice (d : Fin 12) (s : State) : Res :=
  .next (
    if d.val = 0 || s.floor d = 2 || !s.domOn d then s
    else
      let c := s.limitChoice d (s.choice d)
      let s := (s.p (TML_PRED.CHOICE d) c).p (TML_PRED.NEXT d) (nextField (s.nextEvent d))
      ((s.withPred (vmod s.pred d fun q => { q with missed := false })).beginEntry d c).mark (.chosen d))

/-- OBSERVATION_WINDOW_END (R97, R99): a window of 1,000 intervals ends. -/
def execObservationWindowEnd (d : Fin 12) (s : State) : Res :=
  .next (
    if d.val = 0 then s
    else
      let q := vat s.pred d
      let wins := (0 :: q.missWin).take 64
      let cap := q.capLeft - 1
      let s := s.p (TML_PRED.HISTORY d) (min 64 (s.g (TML_PRED.HISTORY d) + 1))
      let s := (s.p (TML_PRED.MISS d) (min 15 wins.sum)).when (q.capLeft > 0) fun s => s.p (TML_PRED.CAPPED d) (b2n (cap > 0))
      (s.withPred (vset s.pred d { q with missWin := wins, capLeft := cap })))

/-- A link-activity vote to ON (client 7, R267), with the misprediction it may show (R99). -/
def State.activity (s : State) (d : Nat) : State :=
  (s.missCheck d).wakeBy 7 d

/-- A wake source of client c fires (R267): where all the domains it acts in are ON it takes effect; otherwise those that
are not are raised, and it takes effect when they are ON (log entry 164). -/
def State.onWake (s : State) (c : Nat) (ds : List Nat) (x : WakeEvt) (f : State → State) : State :=
  if ds.all s.domOn then f s
  else
    let s := s.each (ds.filter fun d => !s.domOn d) fun d s => if c = 7 then s.activity d else s.wakeBy c d
    s.withPdc { s.pdc with late := s.pdc.late ++ [(ds, x)] }

/-- Does the ±2-interval window of stall n's prediction close in this very cycle (R96)? -/
def State.windowCloses (s : State) (n : Nat) : Bool :=
  let y := vat s.yards (s.stallYard n)
  decide (y.iv = (vat s.pat n).pred + 3) && decide (y.tick < y.adv)

/-- BURST_START (R96): activity starts at a stall after a gap of more than one interval. -/
def execBurstStart (n : Stall) (s : State) : Res :=
  .next (
    let s := s.packetAt n
    let iv := (vat s.yards (s.stallYard n)).iv
    let t := vat s.pat n
    let d := portDom n
    let gap := iv - t.last
    let st := s.g (TML_PAT.STATE n)
    if st = 0 then
      ((s.withPat (vset s.pat n { last := iv, act := iv }))).p (TML_PAT.STATE n) 1
    else
      let s := (s.withPred (vmod s.pred d fun q =>
        { q with minGap := some (match q.minGap with | none => gap | some m => min m gap) }))
      if st = 2 then
        let hit := t.pred ≤ iv + 2 ∧ (iv ≤ t.pred + 2 ∨ s.windowCloses n)
        let p := s.g (TML_PAT.PERIOD n)
        s.withPat (vset s.pat n { t with last := iv, pred := iv + p, misses := if hit then 0 else t.misses })
      else
        let agree := t.gaps.all fun g => decide (g ≤ gap + 1 ∧ gap ≤ g + 1)
        let gaps := if agree then gap :: t.gaps else [gap]
        let s := s.p (TML_PAT.AGREE n) gaps.length
        if gaps.length ≥ 8 then
          let p := medianOf gaps
          let s := s.withPat (vset s.pat n { last := iv, act := iv, pred := iv + p })
          (s.p (TML_PAT.STATE n) 2).p (TML_PAT.PERIOD n) p
        else (s.withPat (vset s.pat n { t with last := iv, gaps := gaps })))

/-- Does a burst start at stall n in this same cycle, behind the present command (R96)? -/
def State.burstAhead (s : State) (n : Nat) : Bool := s.ahead fun c => match c with
  | .burstStart m => m.val = n
  | _ => false

/-- PREDICTION_WINDOW_MISS (R96): the ±2-interval window of a prediction has closed with no burst; one that starts in this very
cycle is a hit. After a first miss the next prediction is the missed one plus P (DESIGN CHOICE, log entry 159). -/
def execPredictionWindowMiss (n : Stall) (s : State) : Res :=
  .next (
    let t := vat s.pat n
    if s.g (TML_PAT.STATE n) ≠ 2 || decide ((vat s.yards (s.stallYard n)).iv ≤ t.pred + 2)
        || (s.windowCloses n && s.burstAhead n) then s
    else if t.misses ≥ 1 then
      let s := ((s.p (TML_PAT.STATE n) 1).p (TML_PAT.PERIOD n) 0).p (TML_PAT.AGREE n) 0
      s.withPat (vset s.pat n { last := t.last, act := t.act })
    else (s.withPat (vset s.pat n { t with misses := t.misses + 1, pred := t.pred + s.g (TML_PAT.PERIOD n) })))

/-- A device attaches to port n: the history of the domains that serve it restarts (R97). -/
def State.restartHistory (s : State) (n : Nat) : State :=
  let dom (d : Nat) (s : State) : State :=
    ((s.p (TML_PRED.HISTORY d) 0)) |> fun s => (s.withPred (vmod s.pred d fun q => { q with minGap := none }))
  s.each [portDom n, dHUB, dHSB, dPPA] dom

end Sys2Proof.Machine
end

