-- ==== Sys2Proof/Machine/Power.lean ====
section
/-!
DEFINITION. Power-path channels (R225 to R243 of spec/10_power_path.md): ramps, trips, retries, seats, discharge and
power good. Measured times arrive as operands (log entry 3).
-/
namespace Sys2Proof.Machine

/-- PORT_OVER_CURRENT clears when a ramp completes (R164). -/
def PortStat.clearOc (q : PortStat) : PortStat := { q with hs := clrBits q.hs 0x8, ss := clrBits q.ss 0x8 }

/-- Is channel n a stall that LIFELINE serves: with the LIFE flag, held by the slot of UP0 (R357)? -/
def State.lifeStall (s : State) (n : Nat) : Bool := n ≤ 14 && s.stallFlag n 4 && (s.holderOf n).isSome && s.holderOf n = s.slotOf 0

/-- Is the power of a channel's port requested (R236)? -/
def State.powerAsked (s : State) (n : Nat) : Bool :=
  if s.hasCC n then (s.ch n).attached
  else s.typ n ≠ 0 && ((s.ch n).portPower || (s.ch n).defPower)

/-- The stall whose SEAT field names seat input i (R36, R229). -/
def State.seatStall (s : State) (i : Nat) : Option Nat :=
  (s.plan.stalls.find? fun e => e.member = s.member ∧ e.typ ≠ 0 ∧ bitOf e.flags 5 ∧ e.seat = i).map (·.stall)

/-- Is stall n removed in this same cycle, behind this command (R238)? -/
def State.removalAhead (s : State) (n : Nat) : Bool := s.ahead fun c => match c with
  | .seatRemoval i => s.seatStall i = some n
  | _ => false

/-- Do all conditions of R236 hold, with the guard of R203 in the source direction (R228), the hold-offs of R164 and R305, the latches
(R237, R240) and tSrcRecover (R214)? A ramp does not start in the cycle of its stall's removal (R238). -/
def State.canRamp (s : State) (n : Nat) : Bool :=
  let sink := s.on (PPW_STATUS.SINK n)
  s.on PPW_CTRL.ENABLE && s.serving && !(s.ch n).gate && [0, 1].contains (s.g (PPW_STATUS.STATE n))
    && (s.mode ≠ 1 || s.lifeStall n || (n = 15 && sink)) && s.seated n && s.powerAsked n && ((s.ch n).vbusLow || sink)
    && !(s.ch n).holdOff && !(s.ch n).ocHeld && !(s.ch n).bcHold && !(s.tc n).recovering && !s.removalAhead n

/-- A ramp begins (R227, R228, R235, R236): after a trip's wait it is a retry attempt with its window. -/
def State.startRamp (s : State) (n : Nat) : State :=
  let retry := (s.ch n).retrying
  let s := s.chMod n fun c => { c with gate := true, vbusLow := false, rampDone := false, attempt := retry }
  let s := (s.p (PPW_STATUS.STATE n) (if retry then 5 else 2)).p (PPW_STATUS.DISCH n) 0
  (s.p (BUD_PORT.FIRST_USE n) (b2n (!s.on (PPW_STATUS.SINK n)))).p (BUD_PORT.SHED n) 0

/-! ## Accounted power and the budget in force (R250, R251, R357) -/

/-- Contract voltage, or TARGET voltage without a contract, mV (R250). -/
def State.budgetMv (s : State) (n : Nat) : Nat :=
  if s.g (TCP_PORT.CONTRACT n) ≥ 2 then s.g (TCP_CONTRACT.VOLTAGE n) * 20 else s.g (TCP_VSET.TARGET n) * 5

/-- Accounted power as in first use, mW (R250). -/
def State.firstUseMw (s : State) (n : Nat) : Nat :=
  s.budgetMv n * (if s.g (TCP_PORT.CONTRACT n) ≥ 2 then s.g (TCP_CONTRACT.CURRENT n) * 50 else s.effLimit n) / 1000

/-- Mean power of the last 50 samples, mW. -/
def TlmCh.mean50 (t : TlmCh) : Nat := (t.last50.sum / (max 1 t.last50.length : Nat) / 1000).toNat

/-- Accounted power of a port, mW (R250). -/
def State.accountedMw (s : State) (n : Nat) : Nat :=
  if !(s.ch n).gate || s.on (PPW_STATUS.SINK n) then 0
  else
    let faulted := s.on TLM_CTRL.FAULT_A || s.on TLM_CTRL.FAULT_B
    let base := if s.on (BUD_PORT.FIRST_USE n) || faulted then s.firstUseMw n else (vat s.tlm n).mean50
    let r := s.g (BUD_RLIM.RLIM n)
    if r = 0 then base else min base (s.budgetMv n * r / 1000)

/-- Power of the UP0 sink contract less 2 W (R357): an explicit one, or 5 V at the current of the source's Rp. -/
def State.lifeBudget (s : State) : Nat :=
  (if s.g (TCP_PORT.CONTRACT 15) ≥ 2 then s.g (TCP_CONTRACT.VOLTAGE 15) * 20 * (s.g (TCP_CONTRACT.CURRENT 15) * 50) / 1000
   else 5 * (match (s.tc 15).srcRp with | 3 => 3000 | 2 => 1500 | _ => 500)) - 2000

/-- The budget in force, mW (R251, R357). -/
def State.budgetNow (s : State) : Nat :=
  if s.mode = 1 then s.lifeBudget
  else if s.on TLM_INWARN.PWRWARN then s.bud.budget * s.g BUD_X_WARN.WARN_PCT / 100 else s.bud.budget

/-! ## Ramps and trips -/

/-- Retry wait in units of 20 ms, rounded up: the longer of RETRY and 99 times the on-time capped at 20 ms, at most 30 s
(R235). -/
def retryWait (retry onMs : Nat) : Nat := (min 30000 (max (retry * 250) (99 * min onMs 20)) + 19) / 20

/-- The channel part of a trip (R234, R237): gate, DISCH, PG, the retry wait or the latch. -/
def State.tripChannel (s : State) (n : Nat) (evt : Fld) (onMs : Nat) : State :=
  let s := (s.hw evt).gateOff n
  let count := min 31 (s.g (PPW_RETRY.COUNT n) + 1)
  let s := s.p (PPW_RETRY.COUNT n) count
  let lim := s.g (PPW_RETRY.RETRIES n)
  let s :=
    if lim ≠ 0xFF ∧ count > lim then (s.p (PPW_STATUS.STATE n) 6).hw (PPW_EVT.LATCHED n)
    else ((s.chMod n fun c => { c with retrying := true, waiting := true }).p (PPW_STATUS.STATE n) 4).p (PPW_RETRY.WAIT n)
      (retryWait (s.g (PPW_RETRY.RETRY n)) onMs)
  let s := s.when (s.hasCC n) fun s => (s.endContract n).vconnOff n
  s.pmu 0x10 n

/-- A stall LIFELINE cannot power is handled as shed (R254, R357): its channel trips, and its position reports over-current. -/
def State.lifeShed (s : State) (n : Nat) : State :=
  let s := ((s.hw BUD_EVT.SHED).tripChannel n (PPW_EVT.SHED n) 0).p (BUD_PORT.SHED n) 1
  let s := s.ocReport n
  s.raise 88 (portCode n)

/-- Does a stall's first-use power fit the budget less the other accounted powers (R357)? -/
def State.lifeFits (s : State) (n : Nat) : Bool :=
  decide (s.firstUseMw n + (((List.range 17).filter fun k => k ≠ n).map fun k => s.accountedMw k).sum ≤ s.budgetNow)

/-- Begin a ramp if every condition holds (R236; in LIFELINE also R357); a stall that only lacks its seat shows WAIT_SEAT. A PPA that
rests is raised, and the ramp begins when it is ON (R258, R260). -/
def State.tryRamp (s : State) (n : Nat) : State :=
  if s.canRamp n then
    if !s.domOn dPPA then s.wakeBy (groupClient n) dPPA
    else if s.mode = 1 && !s.on (PPW_STATUS.SINK n) && !s.lifeFits n then s.lifeShed n
    else s.startRamp n
  else if s.g (PPW_STATUS.STATE n) = 0 ∧ s.powerAsked n ∧ !s.seated n then s.p (PPW_STATUS.STATE n) 1
  else s

/-- RAMP_START (R236). -/
def execRampStart (n : Channel) (s : State) : Res := .next (s.tryRamp n)

/-- The channel as it stood before a seat removal of this cycle, behind which a trip still finds it (R238). -/
def State.tripCh (s : State) (n : Nat) : Chan :=
  (s.marks.findSome? fun k => match k with
    | .seatOut m c => if m = n then some c else none
    | _ => none).getD (s.ch n)

/-- A trip of channel n (R234) with the over-current report of its position (R164) and its fault source. A channel whose
gate is not driven cannot trip, but one whose stall was removed in this cycle has tripped as well (R238), once. -/
def State.trip (s : State) (n : Nat) (evt : Fld) (src onMs : Nat) : State :=
  if !(s.tripCh n).gate then s
  else
    let s := s.unmark (.seatOut n (s.tripCh n))
    let s := s.tripChannel n evt onMs
    let s := s.when (n ≤ 14 && s.severity src ≤ 1) fun s =>
      s.ocReport n
    s.raise src (portCode n)

/-- FAST_TRIP (R231), with the on-time of the attempt in ms. -/
def execFastTrip (n : Channel) (onMs : Nat) (s : State) : Res := .next (s.trip n (PPW_EVT.FAST n) 80 onMs)

/-- Does channel n trip as FAST in this same cycle, behind this command (R238)? -/
def State.fastAhead (s : State) (n : Nat) : Bool := s.ahead fun c => match c with
  | .fastTrip m _ => m.val = n
  | _ => false

/-- SLOW_TRIP (R232, R238): a fast trip of the same cycle is recorded in its place. -/
def execSlowTrip (n : Channel) (onMs : Nat) (s : State) : Res :=
  .next (s.when (!s.fastAhead n) fun s => s.trip n (PPW_EVT.SLOW n) 81 onMs)

/-- SLOW_TIMER_RESET (R232): the timer stops and returns to 0; PG withheld waits PG_HOLD_MS from here (R242). -/
def execSlowTimerReset (n : Channel) (s : State) : Res := .next (s.p (PPW_STATUS.TIMER n) 0)

/-- UNDERVOLTAGE_TRIP (R233): after the ramp, in the source direction. -/
def execUndervoltageTrip (n : Channel) (onMs : Nat) (s : State) : Res :=
  .next (s.when ((s.tripCh n).rampDone && !s.on (PPW_STATUS.SINK n)) fun s => s.trip n (PPW_EVT.UV n) 82 onMs)

/-- RAMP_FAIL (R227): the ramp did not complete in time. -/
def execRampFail (n : Channel) (onMs : Nat) (s : State) : Res :=
  .next (s.when (!(s.tripCh n).rampDone && !s.on (PPW_STATUS.SINK n)) fun s => s.trip n (PPW_EVT.RAMP_FAIL n) 83 onMs)

/-- GATE_STUCK (R239). -/
def execGateStuck (n : Channel) (onMs : Nat) (s : State) : Res :=
  .next (s.when ((s.tripCh n).rampDone && !s.on (PPW_STATUS.GATE_OK n)) fun s =>
    s.trip n (PPW_EVT.GATE_STUCK n) 84 onMs)

/-- ATTEMPT_WINDOW_END (R235): the attempt succeeds, or trips with RAMP_FAIL when its ramp is not complete; the sink direction has no
ramp check (R228). An attempt that a removal of this cycle ended trips if its ramp was not complete (R238). -/
def execAttemptWindowEnd (n : Channel) (s : State) : Res :=
  .next (
    if !(s.tripCh n).attempt then s
    else if !(s.tripCh n).rampDone && !s.on (PPW_STATUS.SINK n) then s.trip n (PPW_EVT.RAMP_FAIL n) 83 20
    else
      let s := s.chMod n fun c => { c with attempt := false, retrying := false }
      (s.when (s.ch n).gate fun s => s.p (PPW_STATUS.STATE n) (if (s.ch n).rampDone then 3 else 2)).hw (PPW_EVT.RETRY_OK n))

/-- RETRY_WAIT_END (R235, R236, R238): the wait is over, and a ramp starts if every condition holds; a channel in FET_SHORT stays
off (R240). -/
def execRetryWaitEnd (n : Channel) (s : State) : Res :=
  .next (s.when (s.ch n).waiting fun s =>
    let s := (s.chMod n fun c => { c with waiting := false }).p (PPW_RETRY.WAIT n) 0
    s.when (s.g (PPW_STATUS.STATE n) = 4) fun s => (s.p (PPW_STATUS.STATE n) 0).tryRamp n)

/-- COUNT returns to 0 and a latch is released (R237). -/
def State.releaseLatch (s : State) (n : Nat) : State :=
  let s := s.p (PPW_RETRY.COUNT n) 0
  s.when (s.g (PPW_STATUS.STATE n) = 6) fun s =>
    ((s.chMod n fun c => { c with retrying := false }).p (PPW_STATUS.STATE n) 0).tryRamp n

/-- PG_STABLE_TIMER (R237): PG has stayed asserted for 10 s. -/
def execPgStableTimer (n : Channel) (s : State) : Res :=
  .next (s.when (s.on (PPW_STATUS.PG n)) fun s => s.releaseLatch n)

/-- UNSEATED_RESET_TIMER (R237): unseated, or a Type-C port detached, for 2 s. -/
def execUnseatedResetTimer (n : Channel) (s : State) : Res :=
  .next (s.when (!s.seated n || (s.hasCC n && !(s.ch n).attached)) fun s => s.releaseLatch n)

/-- The release a clear of PPW_FET_SHORT or of the channel brings (R237, R240, R336); a retry wait still runs out (R236). -/
def State.clearFetShort (s : State) (n : Nat) : State :=
  s.when (s.g (PPW_STATUS.STATE n) = 7) fun s =>
    if (s.ch n).waiting then s.p (PPW_STATUS.STATE n) 4 else (s.p (PPW_STATUS.STATE n) 0).tryRamp n

/-- PPW_CLEAR bit n: as FAULT_CLEAR for channel n (R237, R240). -/
def State.ppwClear (s : State) (n : Nat) : State := (s.releaseLatch n).clearFetShort n

/-- One bit of PPW_SEAT. -/
def seatBit (b : Nat) : Fld := ⟨PPW_SEAT.addr, b, 1⟩

/-- SEAT_INPUT_CHANGE (R229, R267): the ball changes level; the port's group is raised on PPA. -/
def execSeatInputChange (i : Fin 8) (low : Bool) (s : State) : Res :=
  .next (
    let s := s.p (seatBit i) (b2n low)
    match s.seatStall i with
    | none => s
    | some n => (s.chMod n fun c => { c with seatLow := low }).wakeBy (groupClient n) dPPA)

/-- SEAT_DEBOUNCE_END (R229): the stall is seated, and its ramp may start (R236). -/
def execSeatDebounceEnd (i : Fin 8) (s : State) : Res :=
  .next (s.when (s.on (seatBit i)) fun s =>
    let s := s.p (seatBit (8 + i)) 1
    match s.seatStall i with
    | none => s
    | some n => (s.p (PPW_STATUS.SEATED n) 1).tryRamp n)

/-- SEAT_REMOVAL (R229): no trip; the retry count and wait run on. -/
def execSeatRemoval (i : Fin 8) (s : State) : Res :=
  .next (s.when (s.on (seatBit (8 + i))) fun s =>
    let s := (s.p (seatBit i) 0).p (seatBit (8 + i)) 0
    match s.seatStall i with
    | none => s
    | some n =>
      let s := s.when (s.ch n).gate fun s => s.mark (.seatOut n (s.ch n))
      let s := (((s.p (PPW_STATUS.SEATED n) 0).hw (PPW_EVT.SEAT_OUT n)).switchOff n).dataOff n
      s.when (s.g (PPW_STATUS.STATE n) = 0 && s.powerAsked n) fun s => s.p (PPW_STATUS.STATE n) 1)

/-- VBUS_SNS below 0.8 V: DISCH is released and a waiting ramp may start (R203, R240). -/
def State.vbusFell (s : State) (n : Nat) : State :=
  s.when (!(s.ch n).gate) fun s =>
    ((s.chMod n fun c => { c with vbusLow := true }).p (PPW_STATUS.DISCH n) 0).tryRamp n

/-- DISCHARGE_DONE (R240). -/
def execDischargeDone (n : Channel) (s : State) : Res :=
  .next (s.when (s.on (PPW_STATUS.DISCH n)) fun s => s.vbusFell n)

/-- PPW_FET_SHORT (R240): DISCH released, gate held off until FAULT_CLEAR. -/
def State.fetShort (s : State) (n : Nat) : State :=
  (((s.p (PPW_STATUS.DISCH n) 0).p (PPW_STATUS.STATE n) 7).hw (PPW_EVT.FET_SHORT n)).raise 85 (portCode n)

/-- DISCHARGE_TIMEOUT (R240): VBUS still above 0.8 V, 300 ms after the gate went off in the source direction. -/
def execDischargeTimeout (n : Channel) (s : State) : Res :=
  .next (s.when (s.on (PPW_STATUS.DISCH n) && !(s.ch n).gate && !(s.ch n).sinkOff) fun s => s.fetShort n)

/-- Does the channel work in the source direction (R225): a POWER_IN stall only while it is attached as source, UP0 not in LIFELINE? -/
def State.sourceDir (s : State) (n : Nat) : Bool :=
  !s.on (PPW_STATUS.SINK n) && (s.typ n ≠ 3 || s.g (TCP_PORT.STATE n) = 6) && (n ≠ 15 || s.mode ≠ 1)

/-- VBUS_RISING_GATE_OFF (R240): gate off and DISCH released, in the source direction. -/
def execVbusRisingGateOff (n : Channel) (s : State) : Res :=
  .next (s.when (!(s.ch n).gate && !s.on (PPW_STATUS.DISCH n) && s.sourceDir n) fun s =>
    (s.chMod n fun c => { c with vbusLow := false }).fetShort n)

/-- PG of a channel asserts. -/
def State.assertPg (s : State) (n : Nat) : State :=
  ((s.chMod n fun c => { c with pgWithheld := false }).p (PPW_STATUS.PG n) 1)

/-- PG_ASSERT (R242): ramp complete and VBUS in its window; `timer` says that a fault timer starts in this cycle, and
`gateOk` that the gate stands above VBUS + 4 V. -/
def execPgAssert (n : Channel) (timer gateOk : Bool) (s : State) : Res :=
  .next (
    let s := s.when gateOk fun s => s.p (PPW_STATUS.GATE_OK n) 1
    if !((s.ch n).gate && (s.ch n).rampDone) then s
    else if timer then
      ((s.chMod n fun c => { c with pgWithheld := true }).p (PPW_STATUS.TIMER n) 1).hw (PPW_EVT.PG_WITHHELD n)
    else if s.on (PPW_STATUS.TIMER n) || (s.ch n).pgWithheld then s
    else s.assertPg n)

/-- PG_HOLD_END (R242): PG_HOLD_MS after the fault timer stopped. -/
def execPgHoldEnd (n : Channel) (s : State) : Res :=
  .next (s.when ((s.ch n).pgWithheld && !s.on (PPW_STATUS.TIMER n) && (s.ch n).rampDone) fun s => s.assertPg n)

end Sys2Proof.Machine
end

