-- ==== Sys2Proof/Machine/PdBase.lean ====
section
/-!
DEFINITION. The PD protocol layer of a port (R206 to R218): sending a message with its record, the capabilities a source
advertises, contract limits, Hard Reset and detach. Message headers follow USB PD 3.2 (PRESUMED, log entry 7).
-/
namespace Sys2Proof.Machine

/-- The yard a port's events stand in: that of its holder's slot, or yard L (R93, R212, R322). -/
def State.portYard (s : State) (n : Nat) : Nat :=
  ((if n ≤ 14 then s.holderOf n else s.slotOf (n - 15))).getD 4

/-- The message type code of a sent message, and whether it is extended. -/
def PdMsg.code : PdMsg → Nat × Bool
  | .accept => (3, false) | .reject => (4, false) | .psRdy => (6, false) | .getSourceCap => (7, false)
  | .vconnSwap => (11, false) | .wait => (12, false) | .softReset => (13, false) | .notSupported => (16, false)
  | .getStatus => (18, false) | .sourceCaps => (1, false) | .request => (2, false) | .sinkCaps => (4, false)
  | .alert => (6, false) | .eprRequest => (9, false) | .sourceInfo => (11, false) | .revision => (12, false)
  | .eprEnterAck | .eprEnterSucceeded | .eprEnterFailed => (10, false)
  | .discoverIdentity | .vdmAck | .vdmNak | .attention => (15, false) | .goodCrc => (1, false)
  | .sourceCapsExt => (1, true) | .status => (2, true) | .ppsStatus => (12, true) | .sinkCapsExt => (15, true)
  | .eprKeepAlive | .eprKeepAliveAck => (16, true) | .eprSourceCaps => (17, true) | .eprSinkCaps => (18, true)
  | .bistCarrier | .bistTestData => (3, false) | .hardReset => (0, false)

/-- Is a message one of PD 3.x only: an extended one, EPR's, or Not_Supported, Get_Status, Alert, Source_Info and Revision? A partner
of PD 2.0 is sent none (R208, R216). -/
def PdMsg.rev3 (m : PdMsg) : Bool :=
  m.code.2 || [PdMsg.notSupported, .getStatus, .alert, .eprRequest, .sourceInfo, .revision, .eprEnterAck, .eprEnterSucceeded,
    .eprEnterFailed].contains m

/-- Bytes of an extended message's data block, held in words (PRESUMED, log entry 7). -/
def PdMsg.size (m : PdMsg) (objs : List Nat) : Nat :=
  match m with
  | .status => 7 | .ppsStatus => 4 | .sourceCapsExt => 25 | .sinkCapsExt => 24 | .eprKeepAlive | .eprKeepAliveAck => 2
  | _ => 4 * objs.length

/-- The word of four bytes of a list, from byte 4·j, the missing ones 0. -/
def wordAt (l : List Nat) (j : Nat) : Nat :=
  l.getD (4 * j) 0 + l.getD (4 * j + 1) 0 * 2^8 + l.getD (4 * j + 2) 0 * 2^16 + l.getD (4 * j + 3) 0 * 2^24

/-- A data block in chunks of 26 bytes (R216): for each chunk its bytes, and the words that hold them. -/
def pdChunks (size : Nat) (words : List Nat) : List (Nat × List Nat) :=
  let l := ((words.flatMap fun w => [w % 256, w / 2^8 % 256, w / 2^16 % 256, w / 2^24 % 256]).take size)
  (List.range (max 1 ((l.length + 25) / 26))).map fun k =>
    let c := (l.drop (26 * k)).take 26
    (c.length, (List.range ((c.length + 3) / 4)).map (wordAt c))

/-- The header of a message the port sends, with its count of data objects. -/
def State.pdHeader (s : State) (n : Nat) (m : PdMsg) (count : Nat) : Nat :=
  let c := m.code
  let src := b2n (!s.on (PPW_STATUS.SINK n))
  let dfp := b2n (n ≤ 14)
  let rev := if s.g (TCP_PORT.PD_REV n) = 1 then 1 else 2
  c.1 + dfp * 2^5 + rev * 2^6 + src * 2^8 + (s.tc n).msgId * 2^9 + min 7 count * 2^12 + b2n c.2 * 2^15

/-- The PD_MSG record of R322, kept in PDQ and in the PD log of R343. A message received is answered with GoodCRC; how the GoodCRC and
the retries of one sent went is the line's (a free value, log entry 169). -/
def State.pdRecord (s : State) (n : Nat) (sent : Bool) (sop : Nat) (hr : Bool) (hdr : Nat) (objs : List Nat) : State :=
  let line := if hr then 0 else if sent then (Config.pdLine n s.cycle (s.tc n).msgId).toNat else 1
  let w := portCode n + b2n sent * 2^8 + sop * 2^9 + b2n hr * 2^11 + line * 2^12 + hdr * 2^16
  let y := s.portYard n
  let r : Rec := ⟨0x20, y, words64 (s.now y) ++ w32 w :: (objs.take 7).map w32⟩
  let s := s.offer 1 r
  let log := (s.flt.pdLog ++ [r.lengthWord 0 :: r.body]).drop (s.flt.pdLog.length - 31)
  let s := s.withFlt { s.flt with pdLog := log }
  s.pmu (if sent then 0x0E else 0x0F) (portCode n)

/-- Does PD run on the port: with PD_EN, in SERVICE and on the sink of UP0 in LIFELINE (R199)? -/
def State.pdOn (s : State) (n : Nat) : Bool := s.on TCP_CTRL.PD_EN && (s.mode = 3 || (s.mode = 1 && n = 15))

/-- One message, or one chunk of an extended one, with its count of data objects. -/
def State.pdSendOne (s : State) (n sop : Nat) (m : PdMsg) (count : Nat) (words : List Nat) : State :=
  let s := (s.pdRecord n true sop false (s.pdHeader n m count) words).out (.pd n sop m words)
  s.tcMod n fun t => { t with msgId := (t.msgId + 1) % 8 }

/-- The port sends a message, where PD runs and the partner's revision has it (R208, R216); an extended one goes in chunks. -/
def State.pdSendSop (s : State) (n sop : Nat) (m : PdMsg) (objs : List Nat) : State :=
  s.when (s.pdOn n && !(m.rev3 && s.g (TCP_PORT.PD_REV n) = 1)) fun s =>
    if m.code.2 then
      (pdChunks (m.size objs) objs).foldl (fun s c => s.pdSendOne n sop m ((c.1 + 5) / 4) c.2) s
    else s.pdSendOne n sop m objs.length objs

/-- The port sends a message on SOP. -/
def State.pdSend (s : State) (n : Nat) (m : PdMsg) (objs : List Nat := []) : State := s.pdSendSop n 0 m objs

/-- A message arrives: GoodCRC, its record or that of each chunk, and the partner's revision (R208, R216). -/
def State.pdGot (s : State) (n : Nat) (hdr : BitVec 16) (objs : List Nat := []) : State :=
  let s := s.out (.pd n 0 .goodCrc [])
  let s := if bitOf hdr.toNat 15 then
      (pdChunks (4 * objs.length) objs).foldl (fun s c => s.pdRecord n false 0 false hdr.toNat c.2) s
    else s.pdRecord n false 0 false hdr.toNat objs
  (s.p (TCP_PORT.PD_REV n) (if bitsOf hdr.toNat 6 2 = 1 then 1 else 2)).tcMod n fun t => { t with capsLeft := 0 }

/-- What a received message does, where PD runs (R199, R216). -/
def State.pdRx (s : State) (n : Nat) (hdr : BitVec 16) (objs : List Nat) (f : State → State) : State :=
  if s.pdOn n then f (s.pdGot n hdr objs) else s

/-- What a received message of PD 3.x does; a partner of PD 2.0 is served none (R208). -/
def State.pdRx3 (s : State) (n : Nat) (hdr : BitVec 16) (objs : List Nat) (f : State → State) : State :=
  s.pdRx n hdr objs fun s => s.when (s.g (TCP_PORT.PD_REV n) ≠ 1) f

/-- Not_Supported at PD 3.x, ignored at PD 2.0 (R216). -/
def State.pdNot (s : State) (n : Nat) : State :=
  s.when (s.g (TCP_PORT.PD_REV n) ≠ 1) fun s => s.pdSend n .notSupported

/-- Is the port attached as source, or as sink? -/
def State.isSource (s : State) (n : Nat) : Bool := s.g (TCP_PORT.STATE n) = 6
def State.isSink (s : State) (n : Nat) : Bool := s.g (TCP_PORT.STATE n) = 7

/-! ## Budget terms (R250, R251) -/

/-- The engine's target, mW (R251). -/
def State.budTarget (s : State) : Nat := s.budgetNow * s.g BUD_X_CTRL.TARGET_PCT / 100

/-- The power the engine grants a port, mW (R251). -/
def State.grant (s : State) (n : Nat) : Nat :=
  s.budTarget - (((List.range 17).filter fun k => k ≠ n).map fun k => (vat s.tlm k).accounted).sum

/-! ## Capabilities (R206) -/

/-- The limit that bounds what a port may offer: ILIM and any reduction (R206; the contract itself does not narrow the
next offer, log entry 8). -/
def State.offerLimit (s : State) (n : Nat) : Nat := s.boardLimit n

/-- The highest current, in steps of 50 mA, that a port can carry at a voltage: its contract limit of 110 % stays within
the port's limit (R209, and the worked example of spec/10_power_path.md), and its power within the grant and the PD_POLICY
cap (R206, R207, R305). -/
def State.currentAt (s : State) (n mv : Nat) : Nat :=
  let c := min (s.offerLimit n * 10 / 11) (s.grant n * 1000 / max 1 mv)
  let c := match (s.tc n).capMw with
    | some w => min c (w * 1000 / max 1 mv)
    | none => c
  c / 50 * 50

/-- The objects a port starts from: the set SOURCE_CAPS_SET chose, the bound set, or 5 V at the type default (R44). -/
def State.baseSet (s : State) (n : Nat) : PdoSet :=
  let pick : Option PdoSet := match (s.tc n).capsSet with
    | some (id, mask) =>
      (s.plan.sets.find? fun p => p.id = id).map fun p =>
        { p with pdos := (List.range 13).map fun i => if i = 0 || bitOf mask i then p.pdos.getD i 0 else 0 }
    | none => s.plan.setOf s.member (portCode n)
  -- the default ILIM of R47 is 3,300 mA or more on every port with a CC function: 3.0 A (R200)
  let five : PdoSet := ⟨0, 1, 0, 0, [5000 / 50 * 2^10 + 300]⟩
  match pick with
  | some p => if bitOf p.flags 0 then five else p
  | none => five

/-- An AVS object (R206): its power is what the grant and the cap leave of it; where the port or its cable carries less current than
the object asks at its lowest voltage, the power is what that current carries there. -/
def State.lowerAvs (s : State) (n cable w : Nat) : Nat :=
  let p := min (w % 2^8) (match (s.tc n).capMw with
    | some c => min (s.grant n) c / 1000
    | none => s.grant n / 1000)
  let c := min cable (s.offerLimit n * 10 / 11) / 50 * 50
  let most := min 5000 (p * 1000000 / max 1 (pdoMinMv w))
  if c < most then min p (c * pdoMinMv w / 1000000) else p

/-- One object with its current lowered, `none` when it is withdrawn; `first` is PDO[0] (R206). A partner of PD 2.0 is offered fixed
objects only (R208). -/
def State.lowerPdo (s : State) (n : Nat) (first : Bool) (w : Nat) : Option Nat :=
  let v := pdoMaxMv w
  let cable := if s.on (TCP_CABLE.AMP5 n) then 5000 else 3000
  let c := min (min (pdoMaxMa w) cable) (s.currentAt n v)
  if first then some (w / 2^10 * 2^10 + max 50 (c / 10))
  else if w = 0 ∨ c < 500 then none
  else match pdoKind w with
    | 0 => some (w / 2^10 * 2^10 + c / 10)
    | 3 => if (s.tc n).ppsOk && s.g (TCP_PORT.PD_REV n) ≠ 1 then some (w / 2^7 * 2^7 + c / 50) else none
    | 4 =>
      let p := s.lowerAvs n cable w
      if s.g (TCP_PORT.PD_REV n) ≠ 1 && decide (500 * v ≤ p * 1000000) then some (w / 2^8 * 2^8 + p) else none
    | _ => none

/-- The SPR objects a source offers (R206, R208). -/
def State.sprCaps (s : State) (n : Nat) : List Nat :=
  let st := s.baseSet n
  (List.range st.spr).filterMap fun i => s.lowerPdo n (i = 0) (st.pdos.getD i 0)

/-- Does the cable carry EPR (R206)? -/
def State.cableEpr (s : State) (n : Nat) : Bool :=
  s.on (TCP_CABLE.AMP5 n) && s.on (TCP_CABLE.EPR_OK n) && s.g (TCP_CABLE.MAX_V n) = 3

/-- The EPR capabilities: seven SPR places, then the EPR objects (R206, R217). -/
def State.eprCaps (s : State) (n : Nat) : List Nat :=
  let st := s.baseSet n
  let spr := s.sprCaps n
  let epr := if s.cableEpr n && (s.tc n).eprOk then
      (List.range st.epr).filterMap fun i => s.lowerPdo n false (st.pdos.getD (7 + i) 0)
    else []
  spr ++ List.replicate (7 - spr.length) 0 ++ epr

/-- Capabilities are sent, and become the objects a Request names (R206, R207). -/
def State.offerCaps (s : State) (n : Nat) (m : PdMsg) (l : List Nat) : State :=
  (s.pdSend n m l).tcSet n fun t => { t with objs := l, ams := true }

/-- The source sends its capabilities, EPR ones in EPR mode (R206). -/
def State.sendCaps (s : State) (n : Nat) : State :=
  if s.on (TCP_CONTRACT.EPR n) then s.offerCaps n .eprSourceCaps (s.eprCaps n) else s.offerCaps n .sourceCaps (s.sprCaps n)

/-- Resend capabilities on an attached source with PD (R206). -/
def State.resendCaps (s : State) (n : Nat) : State :=
  s.when (s.isSource n && s.g (TCP_PORT.PD_REV n) ≠ 0) fun s => s.sendCaps n

/-! ## Contracts -/

/-- The contract limit of an operating current: 10 % more, rounded up to 50 mA; PPS without the rounding (R209). -/
def contractLimit (pps : Bool) (ma : Nat) : Nat :=
  if pps then ma * 11 / 10 else ((ma * 11 + 9) / 10 + 49) / 50 * 50

/-- The port's state when nothing is attached (R199, R201). -/
def State.unattached (s : State) (n : Nat) : Nat :=
  if s.mode = 1 then (if n = 15 then 2 else if n ≤ 14 && s.typ n = 2 && s.stallFlag n 4 then 1 else 0)
  else if s.mode ≠ 3 then (if n = 15 then 8 else 0)
  else if n ≥ 15 then 1
  else if s.typ n = 3 then 1
  else if s.typ n = 2 && (s.ch n).portPower then 1 else 0

/-- The port goes to the unattached state of its role, with the Rp it presents there (R199, R200, R204). -/
def State.toUnattached (s : State) (n : Nat) : State :=
  let st := if s.on TCP_CTRL.ENABLE then s.unattached n else if n = 15 then 8 else 0
  -- the sink path of UP0 that the starter has closed stays so (R356)
  let s := (s.when (!(s.ch n).gate) fun s => s.p (PPW_STATUS.SINK n) 0).ccState n st
  s.p (TCP_PORT.RP n) (if st = 1 then (if s.mode = 1 then 1 else rpLevel (s.effLimit n)) else 0)


/-- The data sides of a port whose partner has gone: an upstream port leaves DisplayPort and Billboard, and its paddock disconnects
from its host (R204, R221, R223); a stall reports the disconnect (R159). -/
def State.partnerGone (s : State) (n : Nat) : State :=
  let s := s.when (n ≥ 15) fun s =>
    let s := ((s.muxSafe n).p (TCP_DP.STATE (n - 15)) 0).p (TCP_DP.BILLBOARD (n - 15)) 0 |>.p (TKR_FUNC.BILLBOARD (n - 15)) 0
    s.withDp (vset s.dp (n - 15) {})
  let s := s.dataOff n
  if n ≥ 15 then (s.disconnectHost (n - 15)).each ((List.range 15).filter fun j => s.holderOf j = s.slotOf (n - 15)) fun j s => s.tryRamp j
  else (s.patIdle n).mirLocal n PortStat.disconnect

/-- A detach (R204): a sink drives DISCH as well. -/
def State.detach (s : State) (n : Nat) : State :=
  let sink := s.on (PPW_STATUS.SINK n)
  let s := (s.powerDown n).when (sink && !(s.ch n).vbusLow) fun s => s.p (PPW_STATUS.DISCH n) 1
  ((s.hw (TCP_EVT.DETACH n)).toUnattached n).partnerGone n

/-- Type-C error recovery (R205): both CC open for 30 ms, VBUS and VCONN off; the partner sees a detach (log entry 168). -/
def State.errorRecovery (s : State) (n : Nat) : State :=
  (((s.powerDown n).p (TCP_PORT.RP n) 0).ccState n 9).partnerGone n

/-- UPn_MUX for USB, or for the configured pin assignment, at the port's orientation (R221). -/
def State.setMux (s : State) (n : Nat) : State :=
  s.when (n ≥ 15) fun s =>
    let u := n - 15
    let o := s.g (TCP_PORT.ORIENT n)
    s.p (TCP_DP.MUX u) (match s.g (TCP_DP.PINS u) with
      | 0 => 1 + o
      | 2 => 5 + o
      | _ => 3 + o)

/-- The port changes to a pin assignment (R115, R220): by the width change when the lanes for USB change, at once
otherwise. -/
def State.dpChange (s : State) (u pins : Nat) (ack : Bool) : State :=
  if usbLanes (s.g (TCP_DP.PINS u)) = usbLanes pins then
    let s := ((s.p (TCP_DP.PINS u) pins).setMux (15 + u)).p (TCP_DP.STATE u) (if pins = 0 then 0 else 3)
    s.when ack fun s => s.pdSend (15 + u) .vdmAck [0x11]
  else (s.withDp (vmod s.dp u fun q => { q with wanted := pins, step := 1, ackDue := ack }))

/-- DisplayPort is left and the port returns to USB (R220). -/
def State.dpExit (s : State) (u : Nat) : State :=
  if s.g (TCP_DP.PINS u) = 0 then s.p (TCP_DP.STATE u) 0 else (s.p (TCP_DP.STATE u) 0).dpChange u 0 false

/-- A Hard Reset, sent or received, on a source (R205, R213, R214): the third with no contract between goes to error recovery (log
entry 170). -/
def State.hardReset (s : State) (n : Nat) (sent : Bool) : State :=
  let third := (s.tc n).hrFail ≥ 2
  let s := (s.pdRecord n sent 0 true 0 []).when sent fun s => s.out (.pd n 0 .hardReset [])
  let s := s.hw (if sent then TCP_EVT.HR_TX n else TCP_EVT.HR_RX n)
  let s := s.incSat (TCP_PORT.HR_COUNT n)
  if third then (s.errorRecovery n).raise 67 (portCode n)
  else
    let v := s.on (TCP_PORT.VCONN_ON n)
    let s := (s.endContract n).vconnOff n
    let s := s.when (n ≥ 15) fun s => s.dpExit (n - 15)
    s.tcMod n fun t => { t with vconnBack := v, recovering := true, softSent := false, capsLeft := 0, swap := 0,
                                msgId := 0, bist := false, hrFail := t.hrFail + 1 }

/-- Alert with Source Input Change, bit 29 of the Alert data object, and new capabilities (R206, R215; PRESUMED, log entry 7). -/
def State.alertInput (s : State) (n : Nat) : State :=
  s.when (s.isSource n && s.g (TCP_PORT.CONTRACT n) ≥ 2) fun s => (s.pdSend n .alert [2^29]).sendCaps n

/-- May the port source VCONN: while source, an upstream port, or a stall with the VCONN flag (R199, R218)? -/
def State.mayVconn (s : State) (n : Nat) : Bool := (n ≥ 15 || s.stallFlag n 3) && !s.on (PPW_STATUS.SINK n)

/-- Does the port need SOP' discovery (R208): Ra seen, an object above 3 A or an EPR one, no answer yet, attempts left? -/
def State.wantsDiscovery (s : State) (n : Nat) : Bool :=
  let st := s.baseSet n
  s.on (TCP_CABLE.RA n) && !s.on (TCP_CABLE.DISCOVERED n)
    && s.g (TCP_CABLE.ATTEMPTS n) < 3 && (st.epr > 0 || st.used.any fun w => pdoMaxMa w > 3000)

/-- R208: is SOP' discovery due on this port? -/
def State.discoveryDue (s : State) (n : Nat) : Bool := s.wantsDiscovery n && s.on (TCP_PORT.VCONN_ON n)

/-- Dwezel asks the partner for VCONN (R218). -/
def State.askVconn (s : State) (n : Nat) : State := (s.pdSend n .vconnSwap).tcSet n fun t => { t with swap := 3 }

/-- One of the nCapsCount Source_Capabilities goes out (R208). -/
def State.tryCaps (s : State) (n : Nat) : State := (s.sendCaps n).tcMod n fun t => { t with capsLeft := t.capsLeft - 1 }

/-- PD begins (R208): discovery first when it is due, then up to nCapsCount capabilities. -/
def State.startPd (s : State) (n : Nat) : State :=
  if !s.pdOn n then s
  else
    let s := s.tcMod n fun t => { t with capsLeft := 50 }
    if s.discoveryDue n then s else s.tryCaps n

end Sys2Proof.Machine
end

