-- ==== Sys2Proof/Machine/Budget.lean ====
section
/-!
DEFINITION. Telemetry, the input monitor and the budget engine (R244 to R255 of spec/10_power_path.md). A frame brings what
the converters read; filters and intervals that must have passed are what the command itself says (log entry 3).
-/
namespace Sys2Proof.Machine

/-- A block with one sample more. -/
def Block.add (b : Block) (v i p : Int) : Block := ⟨b.n + 1, b.v + v, b.i + i, b.p + p⟩

/-- Change the telemetry of channel n. -/
def State.tlmMod (s : State) (n : Nat) (f : TlmCh → TlmCh) : State := (s.withTlm (vmod s.tlm n f))

/-- A channel's energy as a read finds it, µJ: a sample of this cycle is added after the read (R248). -/
def State.energyShown (s : State) (n : Nat) : Nat :=
  let x := vat s.tlm n
  (if x.sampled = s.cycle + 1 then x.before else x.energy) / 2^24

/-- Current of a number of LSB on a shunt, mA (R245): 48.8 µV each. -/
def lsbMa (lsb : Int) (shunt : Nat) : Int := lsb * 48800 / (max 1 shunt : Nat)

/-- Blocks are counted from TLM_CTRL.ENABLE: where it comes on, every block starts afresh (R246). -/
def State.restartBlocks (s : State) : State :=
  (s.withTlm (s.tlm.map fun t => { t with ms1 := {}, ms100 := {}, s1 := {} })).withBud { s.bud with vinBlock := {} }

/-- A completed block of a mean goes into its V and I fields and starts afresh (R246). -/
def State.closeBlock (s : State) (b : Block) (size : Nat) (v i : Fld) : Block × State :=
  if b.n < size then (b, s)
  else ({}, (s.p v (b.v / (size : Int)).toNat).p i (toField 16 (b.i / (size : Int))))

/-- Account one port. -/
def State.account (s : State) (n : Nat) : State :=
  let a := s.accountedMw n
  (s.tlmMod n fun t => { t with accounted := a }).p (BUD_PORT.ACCOUNTED n) (a / 100)

/-- Sum of the accounted powers and what shows it (R250, R251). -/
def State.sumBudget (s : State) : State :=
  let s := s.each (List.range 17) fun n s => s.account n
  let sum := ((List.range 17).map fun n => (vat s.tlm n).accounted).sum
  let s := s.withBud { s.bud with sum := sum }
  let isOver := decide (sum > s.budgetNow)
  let s := ((s.p BUD_STATUS.SUM (min 0xFFFF (sum / 100))).p BUD_STATUS.BUDGET (s.budgetNow / 100)).p BUD_STATE.OVER (b2n isOver)
  s.when (!isOver) fun s => s.p BUD_STATE.SHEDDING 0

/-- One channel's sample (R244, R246, R247, R248). -/
def State.sampleChannel (s : State) (n : Nat) (c : ChanSample) : State :=
  let shunt := (s.efuse n).shunt
  let dir : Int := if s.on (PPW_STATUS.SINK n) then -1 else 1
  let v : Int := ((c.v1 + c.v2) * 15 / 2 : Nat)
  let i : Int := dir * lsbMa (c.i1 + c.i2) (2 * shunt)
  let p : Int := dir * lsbMa ((c.i1 * c.v1 + c.i2 * c.v2) * 15) (2 * shunt)
  let s := (s.p (TLM_INST.V n) v.toNat).p (TLM_INST.I n) (toField 16 i)
  -- a sample above the slow threshold shows the fault timer running (R232; DEDUCED, log entry 172)
  let s := s.when ((s.ch n).gate && decide (lsbMa (max (dir * c.i1) (dir * c.i2)) shunt > (s.g (PPW_LIMIT.EFFECTIVE n) : Nat))) fun s =>
    s.p (PPW_STATUS.TIMER n) 1
  let s := if i < 0 then s.p (TLM_PEAK.REVERSE n) 1
    else s.p (TLM_PEAK.I_PEAK n) (max (s.g (TLM_PEAK.I_PEAK n)) (min 0xFFFF i.toNat))
  let clear := bitOf (s.g TLM_ECLR.CLEAR) n && !bitOf (s.written1s TLM_ECLR.CLEAR).2 n
  let t := vat s.tlm n
  let e := (if clear then 0 else t.energy) + (if i > 0 then p.toNat * 20 * 2^24 / 1000000 else 0)
  let b1 := t.ms1.add v i p
  let b2 := t.ms100.add v i p
  let b3 := t.s1.add v i p
  let s := s.when (b1.n ≥ 50) fun s => s.p (TLM_PWR.P_1MS n) (b1.p / 500000).toNat
  let s := s.when (b3.n ≥ 50000) fun s => s.p (TLM_PWR.P_1S n) (b3.p / 500000000).toNat
  let r1 := s.closeBlock b1 50 (TLM_AVG1MS.V n) (TLM_AVG1MS.I n)
  let r2 := r1.2.closeBlock b2 5000 (TLM_AVG100MS.V n) (TLM_AVG100MS.I n)
  let r3 := r2.2.closeBlock b3 50000 (TLM_AVG1S.V n) (TLM_AVG1S.I n)
  r3.2.tlmMod n fun t => { t with energy := e % 2^88, before := t.energy, sampled := s.cycle + 1, ms1 := r1.1, ms100 := r2.1, s1 := r3.1,
                                  last50 := (p :: t.last50).take 50 }

/-- A reference outside ±1 % marks its converter and raises TLM_REF (R245). -/
def State.refFault (s : State) (ok : Bool) (f : Fld) (conv : Nat) : State :=
  if ok || s.on f then s else (s.p f 1).raise 87 conv

/-- The warning temperature of R1, °C. -/
def warnTemp : Int := if Config.industrial then 125 else 110

/-- The GRAVE shutdown temperature of R1, °C. -/
def shutTemp : Int := if Config.industrial then 140 else 125

/-- THERM_SHUT (R1, R328): a die sensor at or above the shutdown temperature for 100 µs, five frames in a row. The comparator
that judges it is its own: its event may also come by FAULT_RAISED (DESIGN CHOICE, log entry 131). -/
def State.thermShut (s : State) (t : Int) : State :=
  let n := if t ≥ shutTemp then s.bud.shut + 1 else 0
  ((s.withBud { s.bud with shut := n })).when (n = 5) fun s => s.raise 2

/-- The thermal limits of R1 on the highest of the die sensors (R245): THERM_SHUT, and THERM_WARN at or above the warning
temperature, cleared 5 °C below it (R328). -/
def State.thermal (s : State) (temps : List Int) : State :=
  let t := temps.foldl max (-64)
  let s := s.thermShut t
  if t ≥ warnTemp ∧ !s.bud.hot then ((s.withBud { s.bud with hot := true })).raise 4
  else if t ≤ warnTemp - 5 then (s.withBud { s.bud with hot := false })
  else s

/-- One die sensor's field. -/
def tempField (temps : List Int) (k : Nat) : Nat := (max 0 (min 255 (temps.getD k 0 + 64))).toNat

/-- TELEMETRY_FRAME (R244 to R250). -/
def execTelemetryFrame (f : TlmFrame) (s : State) : Res :=
  .next (
    if !s.on TLM_CTRL.ENABLE || !s.domOn dPPA then s
    else
      let s := (s.refFault f.refA TLM_CTRL.FAULT_A 0).refFault f.refB TLM_CTRL.FAULT_B 1
      let s := s.each (List.range 17) fun n s => s.sampleChannel n (f.chans.getD n default)
      let s := s.clearW1s TLM_ECLR.CLEAR 0x1FFFF
      let b := s.bud.vinBlock.add (f.vin * 15 : Nat) (lsbMa f.iin s.powerE.iinShunt) 0
      let s := if b.n < 50 then (s.withBud { s.bud with vinBlock := b })
        else ((s.withBud { s.bud with vinBlock := {} })).p TLM_INPUT.VIN (b.v / 50).toNat |>.p TLM_INPUT.IIN (b.i / 500).toNat
      let s := (s.p TLM_TEMP.T0 (tempField f.temps 0)).p TLM_TEMP.T1 (tempField f.temps 1)
      let s := (s.p TLM_TEMP.T2 (tempField f.temps 2)).p TLM_TEMP.T3 (tempField f.temps 3)
      (s.thermal f.temps).sumBudget)

/-- FIRST_USE_END (R250): 1 s of samples have passed. -/
def execFirstUseEnd (n : Channel) (s : State) : Res :=
  .next (s.when (s.on (BUD_PORT.FIRST_USE n)) fun s => (s.p (BUD_PORT.FIRST_USE n) 0).sumBudget)

/-! ## Input monitor (R249) -/

/-- The power warning of one cause begins (R215, R249, R251). -/
def State.pwrwarn (s : State) (cause : WarnCause) : State :=
  let s := match cause with
    | .vin => ((s.withBud { s.bud with vinLow := true })).hw TLM_INWARN.VIN_LOW
    | .iin => ((s.withBud { s.bud with iinHigh := true })).hw TLM_INWARN.IIN_HIGH
    | .acFail => ((s.withBud { s.bud with acFailLow := true })).hw TLM_INWARN.AC_FAIL
  if s.on TLM_INWARN.PWRWARN then s.when (cause = .acFail) fun s => s.each (List.range 17) fun n s => s.alertInput n
  else
    let s := (((s.p TLM_INWARN.PWRWARN 1).hw BUD_EVT.WARN).p BUD_STATE.WARN 1).sumBudget
    s.each (List.range 17) fun n s => s.alertInput n

/-- PWRWARN_ASSERT (R215, R249, R251, R267): VIN below VIN_WARN, input current above IIN_MAX, or AC_FAIL_N low. -/
def execPwrwarnAssert (cause : WarnCause) (s : State) : Res :=
  .next (
    if s.mode = 1 ∨ (cause = .acFail ∧ !bitOf s.powerE.flags 0) then s
    else s.onWake 0 (if cause = .iin then [] else [dPPA]) (.warn cause) fun s => s.pwrwarn cause)

/-- PWRWARN_RELEASE (R249): 10 ms with none of the conditions. -/
def execPwrwarnRelease (s : State) : Res :=
  .next (s.when (s.on TLM_INWARN.PWRWARN) fun s =>
    let s := s.withBud { s.bud with vinLow := false, iinHigh := false, acFailLow := false, vinUv := false }
    ((s.p TLM_INWARN.PWRWARN 0).p BUD_STATE.WARN 0).sumBudget)

/-- VIN_UNDERVOLTAGE (R249): VIN below VIN_MIN for 100 µs; not evaluated in LIFELINE. -/
def execVinUndervoltage (s : State) : Res :=
  .next (s.when (s.mode ≠ 1) fun s => ((s.withBud { s.bud with vinUv := true }).hw TLM_INWARN.VIN_UV).raise 86)

/-! ## Reductions (R252 to R255) -/

/-- The BUDGET record of R322: 0 reduce, 1 lift, 2 shed. -/
def State.budgetRecord (s : State) (n kind : Nat) : State :=
  s.record 2 0x31 4 [portCode n + kind * 2^8 + s.g (BUD_RLIM.RLIM n) * 2^16, (s.word BUD_STATUS.addr).toNat]

/-- Does port a come before port b in the order of R252? -/
def State.takenBefore (s : State) (a b : Nat) : Bool :=
  let pa := s.g (BUD_PORT.PRIORITY a)
  let pb := s.g (BUD_PORT.PRIORITY b)
  let wa := s.g (TLM_PWR.P_1S a)
  let wb := s.g (TLM_PWR.P_1S b)
  if pa ≠ pb then pa > pb else if wa ≠ wb then wa > wb else a > b

/-- The ports the engine may take, in the order of R252: those switched on in the source direction. -/
def State.reduceOrder (s : State) : List Nat :=
  ((List.range 17).filter fun n => (s.ch n).gate && !s.on (PPW_STATUS.SINK n)).mergeSort fun a b => s.takenBefore a b

/-- The lowest RLIM, mA (R252). -/
def State.floorMa (s : State) : Nat := s.g BUD_X_CTRL.FLOOR * 50

/-- One port is reduced (R252 step 2, R253): RLIM becomes a term of R21 at once. -/
def State.reducePort (s : State) (n : Nat) : State :=
  let others := s.bud.sum - (vat s.tlm n).accounted
  let room := s.budTarget - others
  let want := max s.floorMa (room * 1000 / max 1 (s.budgetMv n) / 50 * 50)
  let old := s.g (BUD_RLIM.RLIM n)
  let r := if old = 0 then want else min old want
  let s := ((s.p (BUD_RLIM.RLIM n) (min 8150 r)).p (BUD_PORT.REDUCED n) 1).p (PPW_STATUS.REDUCED n) 1
  ((s.setLimit n).sumBudget).budgetRecord n 0

/-- R252: ports in order, until the sum lies at or below the target; the reduced ones are answered with. -/
def State.reduceFrom (s : State) : List Nat → List Nat → State × List Nat
  | [], done => (s, done)
  | n :: t, done =>
    let s := s.reducePort n
    if s.bud.sum ≤ s.budTarget then (s, n :: done) else s.reduceFrom t (n :: done)

/-- Has a port been reduced to FLOOR (R252, R254)? -/
def State.atFloor (s : State) (n : Nat) : Bool := s.g (BUD_RLIM.RLIM n) ≠ 0 && decide (s.g (BUD_RLIM.RLIM n) ≤ s.floorMa)

/-- BUDGET_REDUCE (R215, R252): the sum has exceeded the budget in force for 1 ms. Ports at FLOOR are passed over. -/
def State.budgetReduce (s : State) : State :=
  let s := s.sumBudget
  let l := s.reduceOrder.filter fun n => !s.atFloor n
  if !s.on BUD_CTRL.ENABLE || decide (s.bud.sum ≤ s.budgetNow) || l.isEmpty then s
  else
    let r := s.reduceFrom l []
    let s := (r.1.hw BUD_EVT.REDUCE).p BUD_STATE.REDUCING 1
    s.each r.2.reverse fun n s => s.alertInput n

/-- BUDGET_REDUCE (R215, R252). -/
def execBudgetReduce (s : State) : Res := .next s.budgetReduce

/-- BUDGET_SHED (R254): every port stands at FLOOR and the sum still exceeds the budget; the next port is switched off as a
trip. -/
def execBudgetShed (onMs : Nat) (s : State) : Res :=
  .next (
    let s := s.sumBudget
    let l := s.reduceOrder
    if !s.on BUD_CTRL.ENABLE || decide (s.bud.sum ≤ s.budgetNow) || !(l.all fun n => s.atFloor n) then s
    else match l.find? fun n => s.g (BUD_PORT.PRIORITY n) ≠ 0 with
      | none => s
      | some n =>
        let s := (s.p BUD_STATE.SHEDDING 1).hw BUD_EVT.SHED
        let s := (s.trip n (PPW_EVT.SHED n) 88 onMs).p (BUD_PORT.SHED n) 1
        (s.budgetRecord n 2).sumBudget)

/-- A port's power before reduction, mW (R255): its contract maximum, or TARGET voltage and ILIM without one. -/
def State.fullMw (s : State) (n : Nat) : Nat :=
  s.budgetMv n * (if s.g (TCP_PORT.CONTRACT n) ≥ 2 then (s.tc n).fullMa else s.g (PPW_LIMIT.ILIM n)) / 1000

/-- The reduction of a port is lifted (R255). -/
def State.lift (s : State) (n : Nat) : State :=
  let s := ((s.p (BUD_RLIM.RLIM n) 0).p (BUD_PORT.REDUCED n) 0).p (PPW_STATUS.REDUCED n) 0
  ((((s.setLimit n).hw BUD_EVT.LIFT).budgetRecord n 1).sumBudget).resendCaps n

/-- One review (R255): each reduced port in ascending PRIORITY, that port counted at its contract maximum. -/
def State.reviewFrom (s : State) : List Nat → State
  | [] => s
  | n :: t =>
    let sum := s.bud.sum - (vat s.tlm n).accounted + s.fullMw n
    if sum ≤ s.budgetNow * s.g BUD_X_CTRL.LIFT_PCT / 100 then (s.lift n).reviewFrom t else s.reviewFrom t

/-- A review of the reductions in force (R255). -/
def State.review (s : State) : State :=
  let s := s.sumBudget
  if !s.on BUD_CTRL.ENABLE || s.on TLM_INWARN.PWRWARN then s
  else
    let l := ((List.range 17).filter fun n => s.on (BUD_PORT.REDUCED n)).mergeSort fun a b =>
      decide (s.g (BUD_PORT.PRIORITY a) < s.g (BUD_PORT.PRIORITY b)
        ∨ s.g (BUD_PORT.PRIORITY a) = s.g (BUD_PORT.PRIORITY b) ∧ a ≤ b)
    let s := s.reviewFrom l
    s.p BUD_STATE.REDUCING (b2n ((List.range 17).any fun n => s.on (BUD_PORT.REDUCED n)))

/-- BUDGET_PERIODIC_REVIEW (R255). -/
def execBudgetPeriodicReview (s : State) : Res := .next s.review

/-- The values TLM_SAMPLE writes of a port (R91, R322). -/
def State.sampleWords (s : State) (n arg : Nat) : List Nat :=
  (if bitOf arg 0 then [(s.word (TLM_AVG1MS.addr n)).toNat] else [])
    ++ (if bitOf arg 1 then [(s.word (TLM_AVG100MS.addr n)).toNat] else [])
    ++ (if bitOf arg 2 then [(s.word (TLM_AVG1S.addr n)).toNat] else [])
    ++ (if bitOf arg 3 then
        let e := (vat s.tlm n).energy / 2^24
        [e % 2^32, e / 2^32] else [])

end Sys2Proof.Machine
end

