-- ==== Sys2Proof/Machine/Mailbox.lean ====
section
/-!
DEFINITION. Mailboxes, doorbells and locks (spec/12_mailboxes_locks.md): who may touch a channel, both halves, Dwezel's
posting and held messages, and the lock registers.
-/
namespace Sys2Proof.Machine

/-- Dwezel runs: MGT is ON and its core is not being restarted (R335). -/
def State.dwezelRuns (s : State) : Bool := s.boot.held = 0 && s.domOn dMGT && !s.flt.restarting

/-- A bit of a register. -/
def bitFld (a i : Nat) : Fld := ⟨a, i, 1⟩

/-- An event of R369 closes the expert pages of these masters. -/
def State.closePages (s : State) (l : List Nat) : State :=
  let s := s.each (l.filter fun m => 2 ≤ m && m ≤ 7) fun m s => s.p (bitFld TOP_EXPERT.addr m) 0
  let old := if s.expert.closedAt = s.cycle then s.expert.closed else []
  s.withExpert { s.expert with closedAt := s.cycle, closed := l ++ old }

/-- Change mailbox channel c. -/
def State.mbMod (s : State) (c : Nat) (f : MbxS → MbxS) : State := (s.withMbx (vmod s.mbx c f))

/-- Mailbox channel c. -/
def State.mb (s : State) (c : Nat) : MbxS := vat s.mbx c

/-- Is the master the channel's party (R277)? -/
def State.isParty (s : State) (m c : Nat) : Bool := m ≠ 0 && m ≠ 1 && s.g (MBX_ASSIGN.PARTY c) = m

/-- May the master read the channel's words, control and doorbell (R277, R278)? -/
def State.mbxReadable (s : State) (m c : Nat) : Bool :=
  m = 1 || s.isParty m c || (m = 15 && s.mode = 5 && c < 8 && s.g (MBX_ASSIGN.PARTY c) ≠ 0)

/-- A refused access (R277): MBX_ERR and the fault source MBX_ACCESS. Channel 0xF stands for a lock. -/
def State.mbxRefuse (s : State) (m c : Nat) : State :=
  (((s.hw MBX_ERR.ACCESS).p MBX_ERR.MASTER m).p MBX_ERR.CHANNEL c).raise 96 c

/-- A secure half is emptied (R278): its 16 words become 0. -/
def State.wipeWords (s : State) (f : Nat → Nat) : State :=
  s.each (List.range 16) fun w s => s.setWord (f w) 0

/-! ## Inbound half (R274, R276) -/

/-- The next message the proxy holds goes into the NS6 inbound half when it is free, lowest source first (R283). -/
def State.placeProxy (s : State) : State :=
  if s.on (MBX_IN_CTRL.GO 6) then s
  else match (s.proxyHeld.mergeSort fun a b => decide (a.member ≤ b.member)) with
    | [] => s
    | x :: t =>
      let s := s.withProxyHeld t
      let s := s.each (List.range 16) fun w s => s.setWord (MBX_IN_W.addr 6 w) (x.words.getD w 0)
      let s := (((s.p (MBX_IN_CTRL.COUNT 6) x.words.length).p (MBX_IN_CTRL.REPLY 6) (b2n x.reply)).p
        (MBX_IN_CTRL.SEQ 6) x.seq).p (MBX_IN_CTRL.MEMBER 6) x.member
      let s := ((s.p (MBX_IN_CTRL.PARTY 6) 8).p (MBX_IN_CTRL.GO 6) 1).hw (MBX_DB.IN_DB 6)
      s.when (s.notifyWake 6) fun s => s.holdMailbox 6 14 dMGT

/-- Inbound GO falls (R274, R278, R400): the half is free; a write of the party's in this cycle still meets the GO (R285). -/
def State.inFall (s : State) (c : Nat) : State :=
  let s := s.when (s.on (MBX_IN_CTRL.GO c)) fun s => s.mark (.inFreed c)
  let s := ((s.p (MBX_IN_CTRL.GO c) 0).releaseMailbox c).mbMod c fun x => { x with seen := false }
  s.when (c ≥ 8) fun s => s.wipeWords (MBX_IN_W.addr c)

/-- Does a write of the party's meet a message that stands, or stood as this cycle began (R274, R285)? -/
def State.inBusy (s : State) (c : Nat) : Bool := s.on (MBX_IN_CTRL.GO c) || s.marks.contains (.inFreed c)

/-- The inbound half of a secure channel is emptied (R278); a write of its control word in this cycle is dropped, whether it comes
before or after (R285). -/
def State.emptyIn (s : State) (c : Nat) : State :=
  let s := match s.marks.findSome? fun k => match k with | .ctrlWritten y old db => if y = c then some (old, db) else none | _ => none with
    | some (old, db) => s.when (s.on (MBX_IN_CTRL.GO c) || !s.marks.contains (.inFreed c)) fun s =>
        ((s.setWord (MBX_IN_CTRL.addr c) old).p (MBX_DB.IN_DB c) (b2n db)).hw (MBX_STATUS.OVERRUN c)
    | none => s
  let s := s.inFall c
  s.when (!s.marks.contains (.inFreed c)) fun s => s.mark (.inFreed c)

/-- The party writes an inbound word (R274). -/
def State.inWordWrite (s : State) (m c w : Nat) (v : Word) : State :=
  if m = 1 ∨ !s.isParty m c then s.mbxRefuse m c
  else if s.inBusy c then s.hw (MBX_STATUS.OVERRUN c)
  else s.setWord (MBX_IN_W.addr c w) v

/-! ## Outbound half (R275, R279 to R282) -/

/-- The outbound doorbell rings (R280): 1 a message, 2 a DOORBELL action with its tag, 3 the timeout. -/
def State.ring (s : State) (c cause tag : Nat) : State :=
  let now := s.hwSet.any fun e => e.1 = MBX_DB.addr c && bitOf e.2.toNat 1
  let old := s.g (MBX_DB.OUT_CAUSE c)
  let s :=
    if now then
      let s := s.p (MBX_DB.OUT_CAUSE c) (max old cause)
      s.when (cause = 2) fun s => s.p (MBX_DB.OUT_TAG c) tag
    else (s.p (MBX_DB.OUT_CAUSE c) cause).p (MBX_DB.OUT_TAG c) (if cause = 2 then tag else 0)
  (s.hw (MBX_DB.OUT_DB c)).out (.doorbell c cause tag)

/-- The outbound half holds a message (R275, R279, R285): the fabric proxy's is announced on FAB, and the doorbell rings. -/
def State.announce (s : State) (c : Nat) (isLast : Bool) : State :=
  let s := (s.p (MBX_OUT_CTRL.GO c) 1).mark (.posted c)
  let s := s.mbMod c fun y => { y with rung := false, replyOut := isLast }
  let s := s.when (s.g (MBX_ASSIGN.PARTY c) = 8 && s.notifyWake c) fun s => s.holdMailbox (16 + c) 0 dFAB
  s.ring c 1 0

/-- A message goes into the free outbound half (R275). -/
def State.postNow (s : State) (c : Nat) (x : Msg) (isLast : Bool) : State :=
  let s := s.each (List.range 16) fun w s => s.setWord (MBX_OUT_W.addr c w) (x.words.getD w 0)
  let s := ((s.p (MBX_OUT_CTRL.COUNT c) x.words.length).p (MBX_OUT_CTRL.REPLY c) (b2n x.reply)).p
    (MBX_OUT_CTRL.SEQ c) x.seq
  (s.p (MBX_OUT_CTRL.MEMBER c) (if c = 6 then x.member else 0)).announce c isLast

/-- Is a request to a peer held back by R284: a request from that peer waits, and this member has the lower number? -/
def State.crossed (s : State) (c : Nat) (x : Msg) : Bool :=
  c = 6 && !x.reply && s.on (MBX_IN_CTRL.GO 6) && !s.on (MBX_IN_CTRL.REPLY 6)
    && s.g (MBX_IN_CTRL.MEMBER 6) = x.member && decide (s.member < x.member)

/-- May a message be posted now (R275, R283, R284)? Not to a member that a message was withdrawn from and that has not been
reachable since. -/
def State.canPost (s : State) (c : Nat) (x : Msg) : Bool :=
  !s.on (MBX_OUT_CTRL.GO c) && !s.crossed c x && !(c = 6 && (s.mb 6).shut.contains x.member)

/-- HELD follows the list of held messages (R281). -/
def State.setHeld (s : State) (c : Nat) (l : List Msg) : State :=
  (s.mbMod c fun y => { y with held := l }).p (MBX_STATUS.HELD c) (min 7 l.length)

/-- What the channel's history holds of a message's member (R276): entry 0 on every channel but NS6. -/
def State.histOf (s : State) (c member : Nat) : SeqHist := vat (s.mb c).hist member

/-- Change the history entry of a member. -/
def State.histMod (s : State) (c member : Nat) (f : SeqHist → SeqHist) : State :=
  s.mbMod c fun y => { y with hist := vmod y.hist member f }

/-- A message goes into the free outbound half, known as the final reply or not to the last message consumed from its member. -/
def State.postMsg (s : State) (c : Nat) (x : Msg) : State := s.postNow c x (decide ((s.histOf c x.member).reply = some x))

/-- The oldest held message that may be posted is posted. -/
def State.postHeld (s : State) (c : Nat) : State :=
  match (s.mb c).held.find? fun x => s.canPost c x with
  | none => s
  | some x => (s.setHeld c ((s.mb c).held.erase x)).postMsg c x

/-- Is a held message a notice: neither a reply nor a request to another member's Dwezel (R276, R281, R283)? -/
def State.isNotice (s : State) (c : Nat) (x : Msg) : Bool :=
  !x.reply && !(c = 6 && s.msg.fwd.any fun f => f.to_ = x.member && f.sent = x.seq)

/-- Dwezel posts a message or holds it (R281): a notice never takes the place of a reply or a request. -/
def State.post (s : State) (c : Nat) (x : Msg) : State :=
  let l := (s.mb c).held
  if s.canPost c x && l.all fun y => !s.canPost c y then s.postMsg c x
  else State.postHeld (
    if l.length < 4 then s.setHeld c (l ++ [x])
    else match l.find? fun y => s.isNotice c y with
      | some y => (s.setHeld c (l.erase y ++ [x])).incSat (MBX_STATUS.NOTICE_LOST c)
      | none => if s.isNotice c x then s.incSat (MBX_STATUS.NOTICE_LOST c) else s.setHeld c (l ++ [x])) c

/-- A notice of Dwezel's on a channel (R276). -/
def State.notice (s : State) (c : Nat) (words : List Nat) : State :=
  let q := (s.mb c).noticeSeq
  (s.mbMod c fun y => { y with noticeSeq := (q + 1) % 16 }).post c ⟨false, q, 0, words.map w32⟩

/-- Outbound GO falls (R275, R278): the words of a secure half become 0, and a held message follows. -/
def State.outFree (s : State) (c : Nat) : State :=
  let last := (s.mb c).replyOut
  let s := (s.p (MBX_OUT_CTRL.GO c) 0).releaseMailbox (16 + c)
  let s := (s.when last fun s => s.histMod c (s.g (MBX_OUT_CTRL.MEMBER c)) fun h => { h with acked := true }).mbMod c fun y =>
    { y with replyOut := false }
  let s := s.when (c ≥ 8) fun s => s.wipeWords (MBX_OUT_W.addr c)
  s.postHeld c

/-- Inbound GO falls. On NS6 what was held back for the message follows, and the proxy's next message (R283, R284). -/
def State.inFree (s : State) (c : Nat) : State := (s.inFall c).when (c = 6) fun s => (s.postHeld 6).placeProxy

/-- A write of the inbound control word: the party's post (R274, R279), or Dwezel's W1C of GO. -/
def State.inCtrlWrite (s : State) (m c : Nat) (v : Word) : State :=
  if m = 1 then s.when (v.toNat % 2 = 1 && s.on (MBX_IN_CTRL.GO c)) fun s => s.inFree c
  else if !s.isParty m c then s.mbxRefuse m c
  else if s.inBusy c ∨ getBits v 1 5 > 16 then
    (s.when (s.inBusy c) fun s => s.hw (MBX_STATUS.OVERRUN c)).when (getBits v 1 5 > 16) fun s => s.hw (MBX_STATUS.BAD_COUNT c)
  else
    let s := s.mark (.ctrlWritten c (s.word (MBX_IN_CTRL.addr c)) (s.on (MBX_DB.IN_DB c)))
    let s := ((s.p (MBX_IN_CTRL.COUNT c) (getBits v 1 5)).p (MBX_IN_CTRL.REPLY c) (getBits v 6 1)).p
      (MBX_IN_CTRL.SEQ c) (getBits v 8 4)
    if v.toNat % 2 = 0 then s
    else
      let s := ((s.p (MBX_IN_CTRL.PARTY c) m).p (MBX_IN_CTRL.GO c) 1).hw (MBX_DB.IN_DB c)
      s.when (s.notifyWake c) fun s => match clientOf m with
        | some cl => s.holdMailbox c cl dMGT
        | none => s

/-- Does the party acknowledge the outbound message of channel c in this cycle, behind this command (R282)? -/
def State.ackAhead (s : State) (c : Nat) : Bool := s.ahead fun x => match x with
  | .proxyTake stored => stored && c = 6 && s.domOn dFAB && s.reach (s.g (MBX_OUT_CTRL.MEMBER 6))
  | x => (s.accesses x).any fun y => s.isParty y.1 c && y.2.1 = MBX_OUT_CTRL.addr c && y.2.2.any fun w => w.toNat % 2 = 1

/-- A write of an outbound word: Dwezel's only, while GO is 0 (R275, R277). -/
def State.outWordWrite (s : State) (m c w : Nat) (v : Word) : State :=
  if m ≠ 1 then s.mbxRefuse m c
  else if s.on (MBX_OUT_CTRL.GO c) then s
  else s.setWord (MBX_OUT_W.addr c w) v

/-- A write of the outbound control word: Dwezel's post of the words that stand, or the party's acknowledgement (R275). -/
def State.outCtrlWrite (s : State) (m c : Nat) (v : Word) : State :=
  if m = 1 then
    if s.on (MBX_OUT_CTRL.GO c) then s
    else
      let s := ((s.p (MBX_OUT_CTRL.COUNT c) (min 16 (getBits v 1 5))).p (MBX_OUT_CTRL.REPLY c) (getBits v 6 1)).p
        (MBX_OUT_CTRL.SEQ c) (getBits v 8 4)
      let s := s.p (MBX_OUT_CTRL.MEMBER c) (if c = 6 then getBits v 24 3 else 0)
      if v.toNat % 2 = 0 then s
      else s.announce c false
  else if !s.isParty m c then s.mbxRefuse m c
  else if v.toNat % 2 = 1 ∧ s.on (MBX_OUT_CTRL.GO c) ∧ ¬s.marks.contains (.posted c) then s.outFree c
  else s

/-- A write of the doorbell register (R277): the party clears OUT_DB, Dwezel IN_DB; a bit set in this cycle stays (R10). -/
def State.dbWrite (s : State) (m c : Nat) (v : Word) : State :=
  let setNow (i : Nat) : Bool := s.hwSet.any fun e => e.1 = MBX_DB.addr c && bitOf e.2.toNat i
  if m = 1 then (if bitOf v.toNat 0 && !setNow 0 then s.p (MBX_DB.IN_DB c) 0 else s)
  else if !s.isParty m c then s.mbxRefuse m c
  else if bitOf v.toNat 1 && !setNow 1 then s.p (MBX_DB.OUT_DB c) 0
  else s

/-- A message whose TIMEOUT has passed is withdrawn while its member is unreachable (R283). -/
def State.withdraw (s : State) : State :=
  let p := s.g (MBX_OUT_CTRL.MEMBER 6)
  s.when (s.on (MBX_OUT_CTRL.GO 6) && (s.mb 6).rung && !s.reach p) fun s =>
    (s.mbMod 6 fun y => { y with shut := p :: y.shut }).outFree 6

/-- What Dwezel does on NS6 as members come and go (R283, R284): it withdraws what cannot be sent, and posts what no longer waits. -/
def State.proxyTick (s : State) : State := s.withdraw.postHeld 6

/-- OUTBOUND_TIMEOUT (R282, R283): TIMEOUT has passed with GO 1; once per message. The party's acknowledgement in the same cycle
wins, and a message posted in this cycle has only begun its time. A message to an unreachable member is withdrawn. -/
def execOutboundTimeout (c : Fin 12) (s : State) : Res :=
  .next (
    if !s.on (MBX_OUT_CTRL.GO c) || (s.mb c).rung || s.ackAhead c || s.marks.contains (.posted c) then s
    else
      let s := (s.hw (MBX_STATUS.OUT_TIMEOUT c)).mbMod c fun y => { y with rung := true }
      (s.ring c 3 0).when (c.val = 6) fun s => s.withdraw)

/-- Dwezel's scan finds what stands in the POLL halves (R279). -/
def State.scanInbound (s : State) : State :=
  s.each ((List.range 12).filter fun c => s.on (MBX_IN_CTRL.GO c) && !s.notifyWake c) fun c s =>
    s.mbMod c fun y => { y with seen := true }

/-- INBOUND_POLL (R279). -/
def execInboundPoll (s : State) : Res := .next (s.when (s.domOn dMGT) fun s => s.scanInbound)

/-! ## The fabric proxy (R283) -/

/-- PROXY_MESSAGE_RECEIVED (R283): one message is held for each source member. -/
def execProxyMessageReceived (c : CtrlHdr) (reply : Bool) (seq : Fin 16) (words : List (BitVec 32)) (s : State) : Res :=
  .next (s.rxCtrl c "PROXY" (b2n reply :: seq.val :: words.map (·.toNat)) fun s =>
    if (s.proxyHeld.any fun x => x.member = c.src.val) || words.length > 16 then s
    else ((s.withProxyHeld (s.proxyHeld ++ [Msg.mk reply seq c.src words]))).placeProxy)

/-- PROXY_TAKE (R283): with FAB ON, the NS6 outbound message goes to its member in two CTRL bales and is acknowledged once
that member's proxy has stored it. -/
def execProxyTake (stored : Bool) (s : State) : Res :=
  .next (
    let p := s.g (MBX_OUT_CTRL.MEMBER 6)
    if !s.on (MBX_OUT_CTRL.GO 6) || !s.domOn dFAB || !s.reach p then s
    else
      let w (i : Nat) : Nat := (s.word (MBX_OUT_W.addr 6 i)).toNat
      let s := s.ctrlTo p "PROXY" ((s.word (MBX_OUT_CTRL.addr 6)).toNat :: (List.range 8).map w)
      let s := s.ctrlTo p "PROXY" ((List.range 8).map fun i => w (8 + i))
      s.when stored fun s => s.outFree 6)

/-! ## Locks (R286 to R288) -/

/-- Is there such a master now (R347, R370), and does the chip run? -/
def State.masterHere (s : State) (m : Nat) : Bool := s.boot.held = 0 && ((1 ≤ m && m ≤ 8) || (m = 15 && s.mode = 5))

/-- Who releases lock i, held by master o, in this cycle behind this command (R287): its holder, or Dwezel for any. -/
def State.releaseAhead (s : State) (o i : Nat) : Option Nat :=
  s.pending.findSome? fun c => (s.accesses c).findSome? fun y =>
    match y.2.2 with
    | some w => if y.2.1 = MBX_LOCK.addr i && ((y.1 = o && getBits w 0 4 = o) || (y.1 = 1 && getBits w 0 4 = 0)) then some y.1 else none
    | none => none

/-- The lowest of the masters below m that read lock i in this cycle, behind this command (R287). -/
def State.readerAhead (s : State) (m i : Nat) : Option Nat :=
  (List.range m).find? fun k => s.masterHere k && s.ahead fun c =>
    (s.accesses c).any fun y => y.1 = k && y.2.1 = MBX_LOCK.addr i && y.2.2.isNone

/-- A read of MBX_LOCK[i] (R286): the value returned and the state. A release of this cycle applies first, and of the readers
of a free lock in one cycle the lowest acquires it (R287). -/
def State.lockRead (s : State) (m i : Nat) : Word × State :=
  let h := s.g (MBX_LOCK.OWNER i)
  let s := match s.releaseAhead h i with
    | some k => s.when (h ≠ 0) fun s => (s.p (MBX_LOCK.OWNER i) 0).mark (.released i k)
    | none => s
  let o := s.g (MBX_LOCK.OWNER i)
  if o = 0 then (match s.readerAhead m i with
    | some k => (w32 k, s)
    | none => (w32 (2^31 + m), s.p (MBX_LOCK.OWNER i) m))
  else if o = m then (w32 (2^31 + 2^30 + m), s)
  else (w32 o, s)

/-- A write of MBX_LOCK[i] (R286); what it releases may have been released ahead of it. -/
def State.lockWrite (s : State) (m i : Nat) (v : Word) : State :=
  let o := s.g (MBX_LOCK.OWNER i)
  let made := s.marks.contains (.released i m)
  if made ∧ getBits v 0 4 = m then s.unmark (.released i m)
  else if made ∧ m = 1 ∧ getBits v 0 4 = 0 then (s.unmark (.released i 1)).hw MBX_ERR.FORCED
  else if m = 1 ∧ getBits v 0 4 = 0 then (s.p (MBX_LOCK.OWNER i) 0).when (o ≠ 0) fun s => s.hw MBX_ERR.FORCED
  else if o = m ∧ m ≠ 0 ∧ getBits v 0 4 = m then s.p (MBX_LOCK.OWNER i) 0
  else (((s.hw MBX_ERR.LOCK_MISUSE).p MBX_ERR.MASTER m).p MBX_ERR.CHANNEL 0xF)

/-- The locks of a master are released without a write (R288). -/
def State.forceLocks (s : State) (m : Nat) : State :=
  s.each ((List.range 16).filter fun i => s.g (MBX_LOCK.OWNER i) = m ∧ m ≠ 0) fun i s =>
    (s.p (MBX_LOCK.OWNER i) 0).hw MBX_ERR.FORCED

/-- MBX_LOCK_OWN as it reads (R286): four bits a lock, eight locks from `base`. -/
def State.lockOwners (s : State) (base : Nat) : Word :=
  w32 (((List.range 8).map fun j => s.g (MBX_LOCK.OWNER (base + j)) * 16 ^ j).sum)

/-- Every half is emptied and its history forgotten; every lock is released (R285, R288). -/
def State.emptyMailboxes (s : State) : State :=
  let s := s.each (List.range 12) fun c s =>
    let s := (s.wipeWords (MBX_IN_W.addr c)).wipeWords (MBX_OUT_W.addr c)
    let s := ((s.setWord (MBX_IN_CTRL.addr c) 0).setWord (MBX_OUT_CTRL.addr c) 0x10000).setWord (MBX_DB.addr c) 0
    let s := (s.setWord (MBX_STATUS.addr c) 0).releaseMailbox c |>.releaseMailbox (16 + c)
    s.withMbx (vset s.mbx c {})
  let s := ((s.withProxyHeld []).withPass 0)
  s.each ((List.range 16).filter fun i => s.g (MBX_LOCK.OWNER i) ≠ 0) fun i s =>
    (s.p (MBX_LOCK.OWNER i) 0).hw MBX_ERR.FORCED

end Sys2Proof.Machine
end

