-- ==== Sys2Proof/Machine/Reply.lean ====
section
/-!
DEFINITION. Replies of Dwezel's and Tabver sessions (R276, R301, R302, R308, R309 of spec/12_mailboxes_locks.md and
spec/13_tack_room_messages.md).
-/
namespace Sys2Proof.Machine

/-- Word i of a request. -/
def Ask.w (a : Ask) (i : Nat) : Nat := (a.words.getD i 0).toNat

/-- CMD of a request (R301). -/
def Ask.cmd (a : Ask) : Nat := a.w 0 % 65536

/-- FLAGS of a request (R301). -/
def Ask.flags (a : Ask) : Nat := a.w 0 / 65536 % 256

/-- Word 0 of the reply to a request's word 0, with a result code (R301, R302). -/
def replyWord (w code : Nat) : Word := w32 (w % 2^24 + code * 2^24)

/-- The bytes of words, little-endian. -/
def wordBytes (l : List Word) : List Byte := l.flatMap fun w => leBytes 4 w.toNat

/-- The tag of words 0 to 11 under a session key (R308). -/
def tagOf (key : List Byte) (l : List Word) : List Word := leWords ((Config.hmac key (wordBytes (l.take 12))).toList.take 16)

/-- The session on a channel: secure channel SC k holds session k. -/
def State.session (s : State) (c : Nat) : Option Session := if c < 8 then none else vat s.msg.sess (c - 8)

/-- Change the session on a channel. -/
def State.sessSet (s : State) (c : Nat) (x : Option Session) : State :=
  s.withMsg { s.msg with sess := vset s.msg.sess (c - 8) x }

/-- The words of Dwezel's next message in the session on a channel, and the state with its number used (R308). -/
def State.seal (s : State) (c : Nat) (words : List Word) : List Word × State :=
  match s.session c with
  | none => (words, s)
  | some x =>
    let l := (words ++ List.replicate 11 0).take 11 ++ [w32 x.tx]
    (l ++ tagOf x.key l, s.sessSet c (some { x with tx := x.tx + 1 }))

/-- A reply that falls due after its session has closed is discarded (R309). -/
def State.dropReply (s : State) (c : Nat) : State :=
  s.each ([0, 1].filter fun u => (s.slotOf u).any fun k => s.g (MBX_ASSIGN.PARTY c) = 2 + k) fun u s =>
    s.hw (TKR_EVT.REPLY_DROPPED u)

/-- A message of Dwezel's that answers (R276): untagged. The final reply to the last message consumed is remembered. -/
def State.answerPlain (s : State) (c seq member : Nat) (words : List Word) (isFinal : Bool) : State :=
  let x : Msg := ⟨true, seq, member, words⟩
  (s.when (isFinal && (s.histOf c member).seq = some seq) fun s =>
    s.histMod c member fun h => { h with reply := some x, acked := false }).post c x

/-- The session on a channel closes (R278, R288, R309, R369): its key is gone, its channel emptied, the locks and the expert page
of its party end. -/
def State.closeSession (s : State) (c : Nat) : State :=
  match s.session c with
  | none => s
  | some x =>
    let s := s.sessSet c none
    let s := s.when ((s.mb c).held.any (·.reply)) fun s => s.dropReply c
    let s := (s.setHeld c []).mbMod c fun y =>
      { y with hist := y.hist.map fun h => { h with reply := none, acked := false }, replyOut := false }
    let s := (s.emptyIn c).outFree c
    (s.forceLocks x.party).closePages [x.party]

/-- Every session of a party closes (R307, R309). -/
def State.closeParty (s : State) (party : Nat) : State :=
  s.each (([8, 9, 10, 11] : List Nat).filter fun c => (s.session c).any fun x => x.party = party) fun c s => s.closeSession c

/-- A message that answers, in its session when it has one (R276, R308, R309). -/
def State.answer (s : State) (c seq member : Nat) (sess : Option Nat) (words : List Word) (isFinal : Bool) : State :=
  match sess with
  | none => s.answerPlain c seq member words isFinal
  | some id =>
    if (s.session c).map (·.id) = some id then
      let r := s.seal c words
      let s := r.2.answerPlain c seq member r.1 isFinal
      s.when ((s.session c).any fun x => 0xFFFFFFFF < x.tx) fun s => s.closeSession c
    else s.dropReply c

/-- The final reply to a request, with a result code and its words (R302). -/
def State.reply (s : State) (a : Ask) (code : Nat) (words : List Nat := []) : State :=
  s.answer a.c a.seq a.member a.sess (replyWord (a.w 0) code :: words.map w32) true

/-- PENDING, and the operation that will end with LATER_DONE (R302). -/
def State.pendReply (s : State) (a : Ask) (k : PendKind) : State :=
  let s := s.withMsg { s.msg with pend := s.msg.pend ++ [PendOp.mk k a.c a.seq a.member (a.w 0) a.sess] }
  s.answer a.c a.seq a.member a.sess [replyWord (a.w 0) 6] false

/-- LATER_DONE of one operation, with its final result code (R302). -/
def State.laterDone (s : State) (p : PendOp) (code : Nat) (words : List Nat := []) : State :=
  s.answer p.c p.seq p.member p.sess (replyWord p.word0 7 :: w32 code :: words.map w32) true

/-- Every operation of a kind ends, the last one begun with this result, those it took the place of with BUSY. -/
def State.finishPend (s : State) (k : PendKind) (code : Nat) (words : List Nat := []) : State :=
  let l := s.msg.pend.filter fun p => p.kind = k
  let s := s.withMsg { s.msg with pend := s.msg.pend.filter fun p => p.kind ≠ k }
  match l.reverse with
  | [] => s
  | x :: t => (t.reverse.foldl (fun s p => s.laterDone p 1) s).laterDone x code words

end Sys2Proof.Machine
end

