-- ==== Sys2Proof/Machine/Glk.lean ====
section
/-!
DEFINITION. Ghelys links (R169 to R181, R193, R197 of spec/08_ghelys_fabric.md): training, power states, the yard bell,
sequencing, replay and failure, and what a member's loss brings.
-/
namespace Sys2Proof.Machine

/-- The formation step in progress (R183): DRV_BARN.STEP shows it, but for steps 8 and 9, which its three bits cannot hold
(log entry 61). -/
def State.setStep (s : State) (n : Nat) : State :=
  (s.fabMod fun f => { f with step := n }).p DRV_BARN.STEP (if n < 8 then n else (Config.lateStep n).toNat)

/-- Own entry in the list of admitted members. -/
def State.ownAd (s : State) : MemberAd :=
  ⟨s.member, s.otp.uid, bitOf ((s.plan.barn.map (·.eligible)).getD 1) s.member⟩

/-- The fields of LINK HELLO (R181). -/
def State.helloFields (s : State) (k : Nat) : List Nat :=
  let pinned := (s.plan.barn.map (·.leadPin)).getD 0xFF = s.member
  let lead := if s.fab.elected then s.g DRV_BARN.LEAD else 0xFF
  [s.otp.uid, leNat s.plan.bodyHash, s.plan.barnId, if s.fab.numbered then s.member else 0xFF, k,
   b2n s.ownAd.eligible + 2 * b2n pinned + 4 * s.g DRV_BARN.FORMED + 8 * s.g DRV_BARN.IS_LEAD, lead, s.g DRV_BARN.TABLE_VER]

/-- HELLO on a link (R181). -/
def State.sendHello (s : State) (k : Nat) : State := s.linkBale k "HELLO" (s.helloFields k)

/-- A field of HELLO has changed: it is sent again on every trained link (R181). -/
def State.helloAll (s : State) : State := s.each [0, 1, 2, 3] fun k s => s.sendHello k

/-! ## What a member's loss brings (R161, R184, R198, R288) -/

/-- The UID of an admitted member; above every other where none is known. -/
def State.uidOf (s : State) (m : Nat) : Nat := ((s.fab.members.find? fun x => x.num = m).map (·.uid)).getD (2 ^ 64)

/-- The lead by the rules of R184, of the members that can be reached. -/
def State.leadChoice (s : State) : Option Nat :=
  let ms := (s.fab.members.filter fun m => s.reach m.num || m.num = s.member)
  let pin := (s.plan.barn.map (·.leadPin)).getD 0xFF
  if ms.any fun m => m.num = pin then some pin
  else ((ms.filter (·.eligible)).mergeSort fun a b => decide (a.uid ≤ b.uid)).head?.map (·.num)

/-- A member reports its committed slot to the lead (R77, log entry 114): whether there is one, and its BODY_HASH. -/
def State.reportCommitted (s : State) : State :=
  s.when (s.on DRV_BARN.FORMED && !s.on DRV_BARN.IS_LEAD) fun s =>
    s.ctrlTo (s.g DRV_BARN.LEAD) "COMMITTED" (match s.committedHash with
      | some h => 1 :: (leWords h).map (·.toNat)
      | none => [0])

/-- A lead takes office: DRV_BARN and YRD_BARN, the event and the record (R184, R322), and HELLO again (R181). -/
def State.setLead (s : State) (m : Nat) (first : Bool) : State :=
  let s := ((s.p DRV_BARN.LEAD m).p DRV_BARN.IS_LEAD (b2n (decide (m = s.member)))).p YRD_BARN.LEAD m
  let s := (s.fabMod fun f => { f with elected := true }).yardMod 4 fun v => { v with err := 0 }
  -- a lead's own yard L is barn time: no hops and no error (R86)
  let s := s.when (m = s.member) fun s => s.fields [(YRD_BARN.SYNCED, 1), (YRD_BARN.HOPS, 0), (YRD_BARN.ERR, 0)]
  ((if first then s else (s.hw DRV_EVT.LEAD_CHANGE).memberRecord m 2).helloAll).reportCommitted

/-- The lead computes the tables and pushes them, with the switch 200 µs ahead (R183, R185). -/
def State.pushTables (s : State) : State :=
  let ver := ((match s.fab.next with
    | some t => t.ver
    | none => s.g DRV_BARN.TABLE_VER) + 1) % 256
  let at_ := s.yticks 4 + 40000
  let es := s.barnLinks
  let mk (m : Nat) : RouteTable := tableOf es s.fab.lsdb m ver at_
  let s := s.fabMod fun f => { f with next := some (mk s.member), nextDb := f.lsdb, acks := [s.member] }
  let flat (l : List RouteE) : List Nat := l.flatMap fun e => [e.next, e.hops, e.ctrl]
  s.each ((s.fab.members.map (·.num)).filter fun m => m ≠ s.member) fun m s =>
    let t := mk m
    s.ctrlTo m "TABLES" (ver :: at_ :: flat t.main ++ t.byLink.flatMap flat ++ t.byMember.flatMap flat)

/-- The hand-offs that were under way at a lost lead are abandoned, and their requests answered BUSY (R198, R302). -/
def State.abandonHandoffs (s : State) (lead : Nat) : State :=
  let l := s.msg.fwd.filter fun f => f.to_ = lead && [0x11, 0x13].contains (f.word0 % 65536)
  let s := s.withMsg { s.msg with fwd := s.msg.fwd.filter fun f => !l.contains f }
  l.foldl (fun s f => s.answer f.c f.seq f.member f.sess
    (if f.pending then [replyWord f.word0 7, 1] else [replyWord f.word0 1]) true) s

/-- A member has become unreachable (R161, R184, R288): its positions, its flows, the fault source; where it was the lead,
another takes office. -/
def State.memberLost (s : State) (m : Nat) : State :=
  let wasLead := s.g DRV_BARN.LEAD = m
  let s := s.closeFlows m
  let hit := s.mirror.any fun q => q.member = m && !q.obs
  let s := (s.withMirror (s.mirror.map fun (q : MirPos) =>
    if q.member = m then { q with st := q.st.disconnect, reach := false } else q))
  let s := s.when hit fun s => s.hw UPP_EVT.UNREACHABLE
  let s := s.raise 52 m
  if wasLead then
    let s := (s.forceLocks 8).abandonHandoffs m
    match s.leadChoice with
    | some l => (s.setLead l false).when (l = s.member) fun s => s.pushTables
    | none => s
  else s

/-- What the losses recorded by the drover bring. -/
def State.settleLost (s : State) : State :=
  let l := s.fab.lost
  s.fabMod (fun f => { f with lost := [] }) |>.each l fun m s => s.memberLost m

/-! ## Training (R169, R170, R172) -/

/-- Link k fails (R193): its events and counters, what the drover does, and GLK_DOWN. -/
def State.linkFail (s : State) (k : Nat) : State :=
  let s := ((s.glkState k 7).p (GLK_LINK.LANES k) 0)
  let s := ((s.hw (GLK_EVT.DOWN k)).incSat (GLK_ERR.FAILS k)).linkLost k
  let s := (s.raise 48 k).settleLost
  s.when (s.on DRV_BARN.IS_LEAD && s.on DRV_BARN.FORMED) fun s => s.pushTables

/-- Links that are trained or asleep. -/
def State.inService (s : State) (k : Nat) : Bool := [3, 4, 5, 6].contains (s.g (GLK_LINK.STATE k))

/-- LINK_TRAINED (R131, R170, R179, R181): the lanes, the link delay in 0.1 ns and the carry hop delay in 0.1 bit times. -/
def execLinkTrained (k : Fin 4) (lanes : Fin 4) (delay carry : Nat) (s : State) : Res :=
  .next (
    if !s.mayTrain k || !([1, 2].contains (s.g (GLK_LINK.STATE k))) || lanes.val = 0 || lanes.val &&& s.lanesOn k ≠ lanes.val
      || (lanes.val ≠ 3 && !s.singleOk k) then s
    else
      let s := (s.lkMod k fun _ => {}).glkState k 3
      let s := ((s.p (GLK_LINK.LANES k) lanes).p (GLK_LINK.ISO_CAUSE k) 0).hw (GLK_EVT.UP k)
      let s := (s.when (lanes.val ≠ 3) fun s => s.hw (GLK_EVT.SINGLE_LANE k)).p (GLK_DELAY.DELAY k) (min 65535 delay)
      -- a peer is failed only for heartbeats that it has begun to send over this link (R197)
      let s := (s.p (GLK_HB.PERIOD k) 0).p (GLK_HB.MISSED k) 0
      let s := s.p (HSH_CARRY.DELAY k) (min 255 carry)
      let s := s.when (s.g (HSH_CARRY.BUS k) ≠ 0) fun s =>
        if carry ≤ 60 then ((s.p (HSH_CARRY.STATE k) 1).linkJudge dFAB).carryBack k else (s.p (HSH_CARRY.STATE k) 3).hw HSH_EVT.CARRY_SLOW
      let s := (s.p (TML_PRED.HISTORY dFAB) 0) |> fun s =>
        s.withPred (vmod s.pred dFAB fun q => { q with minGap := none })
      let s := s.when (!s.on DRV_BARN.FORMED && s.fab.step < 3) fun s => s.setStep 3
      (s.linkBale k "PARAM" [256, 64]).sendHello k)

/-- The end of step 3 of R183: no planned link is still training or waiting for HELLO. -/
def State.helloDone (s : State) : Bool :=
  [0, 1, 2, 3].all fun k => (s.entryOf k).isNone || !([1, 2, 3].contains (s.g (GLK_LINK.STATE k)))

/-- CTRL LSA on link k (R183): every link and member this chip knows. -/
def State.sendLsa (s : State) (k : Nat) : State :=
  let p := s.g (GLK_LINK.PEER_MEMBER k)
  let (q, s) := s.nextCseq p
  let ls := s.fab.lsdb.flatMap fun l => [l.memberA, l.linkA, l.memberB, l.linkB, b2n l.single]
  let ms := s.fab.members.flatMap fun m => [m.num, m.uid, b2n m.eligible]
  s.ctrlOn k ⟨s.member, p, q, "LSA", s.fab.lsdb.length :: ls ++ ms, none⟩

/-- A flooding round is sent (R183). -/
def State.flood (s : State) : State := s.each (s.castLinks "LSA") fun k s => s.sendLsa k

/-- Does a chip hold its claim rightly (R182): its UID's index, or a strap value below MEMBERS? -/
def State.claimOk (s : State) (claimed uid : Nat) : Bool :=
  match s.plan.barn with
  | none => false
  | some b => claimed < b.members && (b.memberSrc ≠ 0 || b.uid[claimed]? = some uid)

/-- A link and its neighbour are learned (R183); a claim by a chip of higher UID gives way (R182). -/
def State.learn (s : State) (ls : List LinkAd) (ms : List MemberAd) : State :=
  -- a link in single-lane service stays so until it fails or retrains (R172, R185)
  let newL := ls.filter fun l => s.barnLinks.any (adIsEntry l) && !s.fab.lsdb.contains l
    && !(!l.single && s.fab.lsdb.contains { l with single := true })
  let newM := ms.filter fun m => s.claimOk m.num m.uid && !s.fab.members.any fun x => x.num = m.num ∧ x.uid ≤ m.uid
  let keepL := s.fab.lsdb.filter fun l => !newL.any fun x =>
    x.memberA = l.memberA && x.linkA = l.linkA && x.memberB = l.memberB && x.linkB = l.linkB
  let keepM := s.fab.members.filter fun m => !newM.any fun x => x.num = m.num
  s.fabMod fun f => { f with lsdb := keepL ++ newL, members := keepM ++ newM,
                             failed := f.failed.filter fun i => !((s.barnLinks[i]?).any fun e => newL.any fun l => adIsEntry l e),
                             learned := f.learned || !newL.isEmpty || !newM.isEmpty }

/-- A flooding round begins, as step 4 (R183). -/
def State.startFlood (s : State) : State := ((s.fabMod fun f => { f with learned := false }).setStep 4).flood

/-- Formation restarts at step 4 for a link that has trained, twice at most; a later change waits for FORMED (R183). -/
def State.restartFormation (s : State) : State :=
  if s.fab.restarts < 2 then (s.fabMod fun f => { f with restarts := f.restarts + 1, elected := false }).startFlood else s

/-- Links or members newly known (R183, R184): in steps 5 to 9 formation restarts at step 4, as often as R183 allows; in a formed
barn, or one being joined, they are flooded on, and the lead pushes new tables. -/
def State.learnedNew (s : State) : State :=
  if !s.fab.learned then s
  else if s.on DRV_BARN.FORMED || s.fab.joining then
    ((s.fabMod fun f => { f with learned := false }).flood).when (s.on DRV_BARN.IS_LEAD) fun s => s.pushTables
  else s.when (5 ≤ s.fab.step) fun s => s.restartFormation

/-- Step 3 of R183 ends: flooding begins. A chip none of whose links trained goes on alone. -/
def State.maybeFlood (s : State) : State :=
  s.when ([2, 3].contains (s.fab.step) && s.helloDone) fun s => (s.learn [] [s.ownAd]).startFlood

/-- LINK_TRAINING_FAILED (R170): one retry at once, then every 10 ms. -/
def execLinkTrainingFailed (k : Fin 4) (s : State) : Res :=
  .next (s.when (s.mayTrain k && [1, 2].contains (s.g (GLK_LINK.STATE k))) fun s =>
    if (s.lk k).retried then (s.glkState k 7).maybeFlood
    else (s.lkMod k fun l => { l with retried := true }).attempt k)

/-- The attempts that have waited for FAB begin (R170). -/
def State.retryLinks (s : State) : State :=
  s.each ([0, 1, 2, 3].filter fun k => (s.lk k).retryDue) fun k s =>
    (s.lkMod k fun l => { l with retryDue := false }).when (s.mayTrain k && (s.lk k).failed) fun s => s.attempt k

/-- LINK_RETRY_TIMER (R170): a failed link is tried again, in SERVICE; a FAB that rests is raised for it first. -/
def execLinkRetryTimer (k : Fin 4) (s : State) : Res :=
  .next (s.when (s.mode = 3 && (s.entryOf k).isSome && (s.lk k).failed) fun s =>
    let s := s.lkMod k fun l => { l with retried := true, retryDue := true }
    if s.domOn dFAB then s.retryLinks else s.wakeBy 7 dFAB)

/-- GLK_CTRL.RETRAIN (R170, R193): LINK DOWN on the link, which is then trained again. -/
def State.retrain (s : State) (k : Nat) : State :=
  s.when (s.inService k && s.mayTrain k) fun s =>
    let s := ((s.linkBale k "DOWN" []).attempt k).p (GLK_LINK.LANES k) 0
    let at_ := (s.lk k).trainAt
    ((s.linkLost k).lkMod k fun l => { l with trainAt := at_ }).settleLost

/-- LINK_IDLE_ENTRY (R171): IDLE_US on a trained link without a bale other than NOP. -/
def execLinkIdleEntry (k : Fin 4) (s : State) : Res :=
  .next (s.when (s.lkAwake k) fun s => s.p (GLK_LINK.IDLE k) 1)

/-- LINK_NOP_TIMER (R171): nothing to send for 1 µs; the NOP carries ACK and credits. -/
def execLinkNopTimer (k : Fin 4) (s : State) : Res := .next (s.linkBale k "NOP" [])

/-- LINK_NOP_RECEIVED (R171, R178, R179). -/
def execLinkNopReceived (h : BaleHdr) (s : State) : Res :=
  .next (s.when (s.lkAwake h.link) fun s => s.rxHdr h)

/-- Bales in flight are sent again from place i of the window (R178). -/
def State.replayFrom (s : State) (k i : Nat) : State :=
  let s := (s.incSat (GLK_ERR.REPLAY k)).lkMod k fun l => { l with replays := l.replays + 1 }
  ((s.lk k).win.drop i).foldl (fun s x => (match x with
    | .ctrl q m => s.emitCtrl k q m
    | .data q b => (s.emitData k q b).lkMod k fun l => { l with load := l.load - 1 }).pmu 0x09 k) s

/-- Another replay is due: the link fails when REPLAY_MAX have brought no ACK (R178). -/
def State.replayDue (s : State) (k i : Nat) : State :=
  if (s.lk k).replays ≥ s.g GLK_X_TUNE.REPLAY_MAX then s.linkFail k else s.replayFrom k i

/-- GHELYS_LANE_LOST (R172): lane 0 lower, 1 upper. With SINGLE_LANE_OK and the other lane up, the link stays and replays;
otherwise it fails. -/
def execGhelysLaneLost (k : Fin 4) (upper : Bool) (s : State) : Res :=
  .next (
    if !s.inService k then s
    else if s.singleOk k && s.g (GLK_LINK.LANES k) = 3 then
      let s := (s.p (GLK_LINK.LANES k) (if upper then 1 else 2)).hw (GLK_EVT.SINGLE_LANE k)
      let s := s.when (!(s.lk k).win.isEmpty) fun s => s.replayFrom k 0
      -- the link counts as two hops from now on: the barn learns it (R185)
      let old := s.fab.lsdb.filter fun l => (s.entryOf k).any fun e => adIsEntry l e.1
      (s.learn (old.map fun l => { l with single := true }) []).learnedNew
    else if s.g (GLK_LINK.LANES k) = (if upper then 1 else 2) then s
    else s.linkFail k)

/-- SINGLE_LANE_RETRAIN (R172): its flow has been idle for 10 ms. -/
def execSingleLaneRetrain (k : Fin 4) (s : State) : Res :=
  .next (s.when ([1, 2].contains (s.g (GLK_LINK.LANES k)) && (s.lk k).win.isEmpty && (s.lk k).run.isEmpty) fun s =>
    s.retrain k)

/-! ## Sleep and the yard bell (R173, R174) -/

/-- Is anything queued for link k? -/
def State.queuedOn (s : State) (k : Nat) : Bool :=
  !(s.lk k).ctrlQ.isEmpty || !(s.lk k).run.isEmpty || (s.lk k).dataQ.toList.any (!·.isEmpty)

/-- Does a bale wait for a sleeping link: one queued, or one that its peer has not acknowledged (R173, R174)? -/
def State.waitsOn (s : State) (k : Nat) : Bool := s.queuedOn k || !(s.lk k).win.isEmpty

/-- May link k sleep: SLEEP_EN, and the carry off or suspended (R173)? -/
def State.maySleep (s : State) (k : Nat) : Bool :=
  s.on GLK_CTRL.SLEEP_EN && s.g (GLK_LINK.STATE k) = 4 && !s.queuedOn k && (s.lk k).win.isEmpty
    && s.carryVote k = 0

/-- The link sleeps: lanes stopped, votes withdrawn (R173). -/
def State.linkSleep (s : State) (k : Nat) : State :=
  (s.lkMod k fun l => { l with sleepReq := false, bells := 0 }).glkState k 5

/-- Is the peer's bell detected in this same cycle, behind this command (R174)? -/
def State.bellAhead (s : State) (k : Nat) : Bool := s.ahead fun c => match c with
  | .bellAccepted j => j.val = k
  | _ => false

/-- The bell is rung on a sleeping link, and FAB raised at this end too (R174); a bell that would begin in the cycle in which
the peer's is detected is not sent. -/
def State.ringBell (s : State) (k : Nat) : State :=
  s.when ((s.lk k).asleep && !s.bellAhead k) fun s =>
    ((s.lkMod k fun l => { l with bells := l.bells + 1 }).out (.line "BELL" [k])).judge dFAB 14

/-- SLEEP_IDLE_TIMEOUT (R173): the lower-numbered member asks. -/
def execSleepIdleTimeout (k : Fin 4) (s : State) : Res :=
  .next (s.when (s.maySleep k && s.member < s.g (GLK_LINK.PEER_MEMBER k)) fun s =>
    (s.linkBale k "SLEEP_REQ" []).lkMod k fun l => { l with sleepReq := true })

/-- SLEEP_REQ (R173): ACK when no bale is queued for the link, NAK otherwise. -/
def execSleepReq (h : BaleHdr) (s : State) : Res :=
  .next (
    let k := h.link.val
    if !s.lkAwake k then s
    else
      let s := s.rxLink h
      if s.maySleep k then (s.linkBale k "SLEEP_ACK" []).linkSleep k else s.linkBale k "SLEEP_NAK" [])

/-- SLEEP_ACK (R173): a bale that became ready meanwhile rings the bell at once. -/
def execSleepAck (h : BaleHdr) (s : State) : Res :=
  .next (
    let k := h.link.val
    if !s.lkAwake k || !(s.lk k).sleepReq then s
    else
      let s := (s.rxLink h).linkSleep k
      s.when (s.waitsOn k) fun s => s.ringBell k)

/-- SLEEP_NAK (R173). -/
def execSleepNak (h : BaleHdr) (s : State) : Res :=
  .next (s.when (s.lkAwake h.link) fun s => (s.rxLink h).lkMod h.link fun l => { l with sleepReq := false })

/-- BELL_RING (R174): a bale is queued for a sleeping link, and the peer's bell is not already heard. -/
def execBellRing (k : Fin 4) (s : State) : Res :=
  .next (s.when ((s.lk k).asleep && s.waitsOn k && (s.lk k).bells = 0) fun s => s.ringBell k)

/-- BELL_ACCEPTED (R174, R267): the AON detector; client 14 raises FAB. -/
def execBellAccepted (k : Fin 4) (s : State) : Res :=
  .next (
    let s := s.hwOr GLK_WAKE.BELL_SEEN (2 ^ k.val)
    let s := s.when (s.domOn dFAB) fun s => s.hw (GLK_EVT.BELL_RX k)
    -- a bell that meets one about to begin leaves one resume (R174)
    let s := s.lkMod k fun l => { l with bells := max 1 l.bells }
    s.judge dFAB 14)

/-- BELL_TIMEOUT (R174): rung again up to five times, then the link fails. -/
def execBellTimeout (k : Fin 4) (s : State) : Res :=
  .next (s.when ((s.lk k).asleep && (s.lk k).bells > 0) fun s =>
    if (s.lk k).bells < 5 then s.ringBell k else (s.hw (GLK_EVT.BELL_FAIL k)).linkFail k)

/-- LINK_RESUME_DONE (R174): the link is ACTIVE, and what waits is sent; what its peer has not acknowledged, again. -/
def execLinkResumeDone (k : Fin 4) (s : State) : Res :=
  .next (s.when (s.g (GLK_LINK.STATE k) = 5 && (s.lk k).asleep && s.domOn dFAB) fun s =>
    let s := (s.lkMod k fun l => { l with bells := 0 }).glkState k 4
    State.pump k pumpFuel (s.when (!(s.lk k).win.isEmpty) fun s => s.replayFrom k 0))

/-! ## Other LINK bales -/

/-- NAK_RECEIVED (R178): the ACK it carries is applied first; a NAK of a covered value is ignored. -/
def execNakReceived (h : BaleHdr) (seq : Fin 512) (s : State) : Res :=
  .next (
    let k := h.link.val
    if !s.lkAwake k then s
    else
      let s := s.rxLink h
      match (s.lk k).win.findIdx? fun x => x.seq = seq.val with
      | some i => s.replayDue k i
      | none => s)

/-- REPLAY_TIMEOUT (R178): ACK has not advanced for REPLAY_US. -/
def execReplayTimeout (k : Fin 4) (s : State) : Res :=
  .next (s.when (s.lkAwake k && !(s.lk k).win.isEmpty) fun s => s.replayDue k 0)

/-- PARAM_RECEIVED (R179): the credits granted at training. -/
def execParamReceived (k : Fin 4) (data : Fin 65536) (ctrl : Fin 65536) (s : State) : Res :=
  .next (s.when (s.lkAwake k) fun s =>
    State.pump k pumpFuel ((s.p (GLK_LINK.IDLE k) 0).lkMod k fun l => { l with dCred := data, cCred := ctrl }))

/-- PROBE_RECEIVED (R86, R170). -/
def execProbeReceived (h : BaleHdr) (s : State) : Res :=
  .next (s.when (s.lkAwake h.link) fun s => (s.rxLink h).linkBale h.link "PROBE_REPLY" [])

/-- LINK_DELAY_PROBE (R86): every 8,000 intervals. -/
def execLinkDelayProbe (k : Fin 4) (s : State) : Res := .next (s.linkBale k "PROBE" [])

/-- PROBE_REPLY_RECEIVED (R86): the measured one-way delay, in 0.1 ns. -/
def execProbeReplyReceived (h : BaleHdr) (delay : Nat) (s : State) : Res :=
  .next (s.when (s.lkAwake h.link) fun s => (s.rxLink h).p (GLK_DELAY.DELAY h.link) (min 65535 delay))

/-- HEARTBEAT_RECEIVED (R197): the peer's period. -/
def execHeartbeatReceived (h : BaleHdr) (period : Fin 16777216) (s : State) : Res :=
  .next (s.when (s.lkAwake h.link) fun s =>
    ((s.rxLink h).p (GLK_HB.PERIOD h.link) period).p (GLK_HB.MISSED h.link) 0)

/-- HEARTBEAT_MISS (R197): a period has passed without one; the third in a row fails the link. -/
def execHeartbeatMiss (k : Fin 4) (s : State) : Res :=
  .next (
    if !s.lkAwake k || s.g (GLK_HB.PERIOD k) = 0 then s
    else
      let s := s.p (GLK_HB.MISSED k) (min 3 (s.g (GLK_HB.MISSED k) + 1))
      if s.g (GLK_HB.MISSED k) < 3 then s
      else
        -- the link fails first: a reaction of the miss itself then finds it failed (R193, R330)
        (((s.hw (GLK_EVT.HB_MISS k)).linkFail k).raise 49 k).settleLost)

/-- LINK_DOWN_RECEIVED (R193). -/
def execLinkDownReceived (k : Fin 4) (s : State) : Res := .next (s.when (s.inService k) fun s => s.linkFail k)

/-- NO_BALE_TIMEOUT (R193): 2 µs without a bale of any kind. -/
def execNoBaleTimeout (k : Fin 4) (s : State) : Res := .next (s.when (s.lkAwake k) fun s => s.linkFail k)

/-- BLOCK_LOCK_LOSS (R193): where R172 does not keep the link. -/
def execBlockLockLoss (k : Fin 4) (s : State) : Res := .next (s.when (s.lkAwake k) fun s => s.linkFail k)

/-- ISOLATED_HELLO_TIMER (R181). -/
def execIsolatedHelloTimer (k : Fin 4) (s : State) : Res :=
  .next (s.when (s.g (GLK_LINK.STATE k) = 6) fun s => s.sendHello k)

end Sys2Proof.Machine
end

