-- ==== Sys2Proof/Machine/Barn.lean ====
section
/-!
DEFINITION. Formation of the barn, tables and their switch, and notices (R181 to R185, R190 to R198 of
spec/08_ghelys_fabric.md).
-/
namespace Sys2Proof.Machine

/-- Link k is isolated (R181): it carries LINK bales only, and its carry is off. -/
def State.isolate (s : State) (k cause : Nat) : State :=
  let was := s.g (GLK_LINK.STATE k) = 4
  let s := ((s.p (GLK_LINK.ISO_CAUSE k) cause).glkState k 6).hw (GLK_EVT.ISOLATED k)
  let s := s.when was fun s => s.linkLost k
  ((s.p (HSH_CARRY.STATE k) 0).raise 50 k).settleLost

/-- The first check of R181 that a HELLO fails; 0 none. -/
def State.helloCause (s : State) (k uid hash barnId claimed peerLink : Nat) : Nat :=
  let sides (e : LinkE) : Bool :=
    (e.memberA = s.member && e.linkA = k && e.memberB = claimed && e.linkB = peerLink)
      || (e.memberB = s.member && e.linkB = k && e.memberA = claimed && e.linkA = peerLink)
  if barnId ≠ s.plan.barnId then 1
  else if hash ≠ leNat s.plan.bodyHash then 2
  else if !s.claimOk claimed uid then 3
  else if !s.barnLinks.any sides then 4
  else if s.fab.members.any fun m => m.num = claimed ∧ m.uid < uid then 5
  else 0

/-- A chip that claims a number held by a chip of lower UID is isolated (R182). -/
def State.isolateClash (s : State) : State :=
  s.each ([0, 1, 2, 3].filter fun j => s.g (GLK_LINK.STATE j) = 4
    && s.fab.members.any fun m => m.num = s.g (GLK_LINK.PEER_MEMBER j) ∧ m.uid < (s.lk j).peerUid) fun j s => s.isolate j 5

/-- A member that finds a barn formed takes its lead in service, and awaits its tables in step 6 (R184). -/
def State.joinLate (s : State) (lead : Nat) : State :=
  if s.fab.joining && s.g DRV_BARN.LEAD = lead then s
  else ((s.fabMod fun f => { f with joining := true }).setLead lead true).setStep 6

/-- HELLO_RECEIVED (R181 to R184): UID, BODY_HASH, BARN_ID, claimed number (0xFF none), link number, flags and lead of the
peer. -/
def execHelloReceived (h : BaleHdr) (uid hash barnId : Nat) (claimed : Fin 256) (peerLink : Fin 4) (flags lead : Fin 256)
    (s : State) : Res :=
  .next (
    let k := h.link.val
    if !s.lkAwake k then s
    else
      let s := s.rxLink h
      let s := (s.p (GLK_LINK.PEER_MEMBER k) claimed).p (GLK_LINK.PEER_LINK k) peerLink
      let s := s.lkMod k fun l => { l with peerUid := uid }
      let cause := s.helloCause k uid hash barnId claimed peerLink
      if cause ≠ 0 then (if s.g (GLK_LINK.STATE k) = 6 then s.p (GLK_LINK.ISO_CAUSE k) cause else s.isolate k cause).maybeFlood
      else
        let isNew := s.g (GLK_LINK.STATE k) ≠ 4
        let s := (s.p (GLK_LINK.ISO_CAUSE k) 0).glkState k 4
        let single := s.g (GLK_LINK.LANES k) ≠ 3
        let ad := (s.entryOf k).map fun e => LinkAd.mk e.1.memberA e.1.linkA e.1.memberB e.1.linkB single
        let s := (s.learn ad.toList [⟨claimed, uid, bitOf ((s.plan.barn.map (·.eligible)).getD 0) claimed⟩, s.ownAd]).isolateClash
        let inBarn := bitOf flags 2 && lead.val ≠ 0xFF
        let s :=
          if s.on DRV_BARN.FORMED then
            -- two partitions meet: the lead of lower UID keeps its office (R184)
            s.when (inBarn && lead.val ≠ s.g DRV_BARN.LEAD && decide (s.uidOf lead < s.uidOf (s.g DRV_BARN.LEAD))) fun s =>
              s.setLead lead false
          else if inBarn then s.joinLate lead
          else if isNew && 4 ≤ s.fab.step && !s.fab.joining then s.restartFormation
          else s
        (State.pump k pumpFuel s).maybeFlood.learnedNew)

/-- LSA_RECEIVED (R182, R183). -/
def execLsaReceived (c : CtrlHdr) (links : List LinkAd) (members : List MemberAd) (s : State) : Res :=
  .next (s.rxCtrl c "LSA" [] fun s => (s.learn links members).isolateClash.learnedNew)

/-- The lead confirms every claim (step 6 of R183, R182). -/
def State.confirmClaims (s : State) : State :=
  (s.fabMod fun f => { f with members := f.members.filter fun m => s.claimOk m.num m.uid }).isolateClash

/-- FLOODING_ROUND_END (R183, R184): another round while something was learned; otherwise election and numbering. -/
def execFloodingRoundEnd (s : State) : Res :=
  .next (s.when (s.fab.step = 4) fun s =>
    if s.fab.learned then s.startFlood
    else
      -- until the first tables come, control bales take the routes flooding shows (log entry 43)
      let s := (s.fabMod fun f => { f with route := routesOf f.lsdb f.member, db := f.lsdb }).setStep 5
      match s.leadChoice with
      | none => s
      | some m =>
        let s := (s.setLead m true).setStep 6
        s.when (m = s.member) fun s => (s.confirmClaims.setStep 7).pushTables)

/-- Does this member take tables from member m (R184): in a formed barn only from its lead, from a lead of lower UID, or where
its own lead cannot be reached any more? -/
def State.takesTables (s : State) (m : Nat) : Bool :=
  !s.on DRV_BARN.FORMED || (s.g DRV_BARN.LEAD = m && !s.on DRV_BARN.IS_LEAD)
    || decide (s.uidOf m < s.uidOf (s.g DRV_BARN.LEAD)) || !s.reach (s.g DRV_BARN.LEAD)

/-- TABLES_RECEIVED (R183 to R185): held until their instant, and acknowledged; their sender is the lead. -/
def execTablesReceived (c : CtrlHdr) (t : RouteTable) (s : State) : Res :=
  .next (s.rxCtrl c "TABLES" [t.ver, t.at_] fun s =>
    s.when (s.takesTables c.src) fun s =>
      let s := s.fabMod fun f => { f with next := some t, nextDb := f.lsdb }
      let s := s.when (s.g DRV_BARN.LEAD ≠ c.src.val || s.on DRV_BARN.IS_LEAD) fun s => s.setLead c.src (!s.on DRV_BARN.FORMED)
      let s := s.when (!s.on DRV_BARN.FORMED) fun s => s.setStep 8
      s.ctrlTo c.src "TABLES_ACK" [t.ver])

/-- TABLES_ACK_RECEIVED (R183): when every member has acknowledged, yard time follows. A member that joins a formed barn is told
so (R184, log entry 149). -/
def execTablesAckReceived (c : CtrlHdr) (ver : Fin 256) (s : State) : Res :=
  .next (s.rxCtrl c "TABLES_ACK" [ver.val] fun s =>
    let cur := match s.fab.next with
      | some t => t.ver
      | none => s.fab.table.ver
    if !s.on DRV_BARN.IS_LEAD || ver.val ≠ cur then s
    else
      let s := s.fabMod fun f => { f with acks := c.src.val :: f.acks.filter (· ≠ c.src.val) }
      let s := s.when (s.on DRV_BARN.FORMED && !s.reach c.src) fun s => s.ctrlTo c.src "FORMED" []
      s.when (s.fab.step = 7 && s.fab.members.all fun m => s.fab.acks.contains m.num) fun s => s.setStep 8)

/-- TABLE_SWITCH (R185): at the instant the push named; a link lost meanwhile is met by the new version's alternate table.
Records that wait for a member reachable again are resynced. -/
def execTableSwitch (s : State) : Res :=
  .next (match s.fab.next with
    | none => s
    | some t =>
      if s.yticks 4 < t.at_ then s
      else
        let back := (List.range 8).filter fun d => !s.reach d
        let cut := s.fab.failed.filter fun i => match s.barnLinks[i]? with
          | some e => !(s.fab.lsdb.any fun l => adIsEntry l e)
          | none => false
        let gone (l : LinkAd) : Bool := cut.any fun i => (s.barnLinks[i]?).any (adIsEntry l)
        let s := (s.fabMod fun f => { f with table := t, next := none, failed := cut, db := f.nextDb.filter fun l => !gone l }).p
          DRV_BARN.TABLE_VER t.ver
        let s := s.installRoutes (match cut.head? with
          | some i => s.alternate i
          | none => t.main)
        let s := (s.hw DRV_EVT.TABLE).settleLost.helloAll.tellPens
        s.each (back.filter fun d => s.reach d) fun d s => s.startResync d)

/-- FORMED is sent or received (R183, R184); what was learned too late for formation follows as a hot attach. `ms` is the time since
the exit from BOOT. -/
def State.formed (s : State) (ms : Nat) : State :=
  let s := (((s.fabMod fun f => { f with joining := false, restarts := 0 }).p DRV_BARN.FORMED 1).setStep 0).hw DRV_EVT.FORMED
  let s := s.when (!s.fab.deadline) fun s => s.p TOP_BOOT_TIME.CONNECT (min 65535 ms)
  s.helloAll.reportCommitted.learnedNew

/-- FORMED_BROADCAST (R183, R184): every member is synced and admitted; members missing hold it up only until the deadline. -/
def execFormedBroadcast (ms : Nat) (s : State) : Res :=
  .next (s.when (s.on DRV_BARN.IS_LEAD && !s.on DRV_BARN.FORMED && s.fab.step = 8
      && (s.fab.deadline || (List.range s.plan.members).all fun m => s.fab.members.any fun x => x.num = m)) fun s =>
    (s.ctrlAll "FORMED" []).formed ms)

/-- FORMED_RECEIVED (R184). -/
def execFormedReceived (c : CtrlHdr) (ms : Nat) (s : State) : Res :=
  .next (s.rxCtrl c "FORMED" [] fun s => if s.on DRV_BARN.FORMED then s else s.formed ms)

/-- FORMATION_DEADLINE (R184, R354): the chip's own deadline; the lead sends FORMED with members missing. -/
def execFormationDeadline (ms : Nat) (s : State) : Res :=
  .next (
    if s.fab.deadline || s.on DRV_BARN.FORMED || s.plan.barn.isNone then s
    else
      let s := (s.p TOP_BOOT_TIME.CONNECT (min 65535 ms)).fabMod fun f => { f with deadline := true }
      s.when (s.on DRV_BARN.IS_LEAD) fun s => (s.ctrlAll "FORMED" []).formed ms)

/-- LINK_DOWN_NOTICE (R194, R198): entry i of the BARN section has failed at another member. Where this chip is the link's other
end and still uses it, it stops doing so. -/
def execLinkDownNotice (c : CtrlHdr) (i : Fin 16) (s : State) : Res :=
  .next (s.rxCtrl c "LINK_DOWN" [i.val] fun s =>
    let own := (s.castLinks "LINK_DOWN").filter fun k => ((s.entryOf k).map (·.2)) = some i.val
    let s := ((s.each own fun k s => s.cutLink k i).entryFailed i).settleLost
    s.when (s.on DRV_BARN.IS_LEAD) fun s => s.pushTables)

/-! ## Seed and rebalancer (R190 to R192) -/

/-- A new flow-hash seed goes out from the lead (R192). -/
def State.reseed (s : State) (seed : Nat) : State :=
  (s.ctrlAll "RESEED" [seed]).fabMod fun f => { f with seed := some seed }

/-- RESEED_RECEIVED (R192): applied from the next window. -/
def execReseedReceived (c : CtrlHdr) (seed : Fin (2 ^ 64)) (s : State) : Res :=
  .next (s.rxCtrl c "RESEED" [seed.val] fun s => s.fabMod fun f => { f with seed := some seed })

/-- LOAD_RECEIVED (R190): another member's counts; nothing of them is kept. -/
def execLoadReceived (c : CtrlHdr) (loads : List Nat) (s : State) : Res :=
  .next (s.rxCtrl c "LOAD" loads fun s => s)

/-- Bales of a whole flow in the last window. -/
def State.flowBales (s : State) (o : FlowOpen) : Nat :=
  ((s.fab.flows.filter fun r => sameFlow r.open_ o).map (·.lastBales)).sum

/-- Does a packet of a flow come in this same cycle, behind this command (R190)? -/
def State.flowAhead (s : State) (o : FlowOpen) : Bool :=
  let same (pkt : SsPacket) : Bool := sameFlow (flowKey o.slot o.target pkt) o
  s.ahead fun c => match c with
  | .downstreamPacket u pkt _ => s.slotOf u = some o.slot && o.target ≠ 0x20 + o.slot && same pkt
  | .upstreamPacket n pkt _ => s.holderOf n = some o.slot && o.target = 0x20 + o.slot && same pkt
  | _ => false

/-- The candidates of a destination (R190): one record of each idle flow whose first hop is the most loaded link, not moved
within 16 windows, and with no packet in this very cycle, by descending bales of the whole flow in the last window. -/
def State.movable (s : State) (d kmax : Nat) : List FlowRec :=
  let rs := s.fab.flows.filter fun r => r.dest = d && s.flowIdle r.open_ && s.nextHop d r.open_.ps = some kmax
    && !(s.fab.frozen.any fun x => sameFlow x.1 r.open_) && !s.flowAhead r.open_
  let firsts := rs.filter fun r => !rs.any fun x => sameFlow x.open_ r.open_ && x.open_.idx < r.open_.idx
  firsts.mergeSort fun a b => decide (s.flowBales b.open_ ≤ s.flowBales a.open_)

/-- Move flows of destination d from its most to its least loaded link (R190); the count of moves left in the window. -/
def State.moveFlows (d kmax kmin half : Nat) : List FlowRec → Nat → Nat → State → Nat × State
  | [], _, left, s => (left, s)
  | r :: t, moved, left, s =>
    if left = 0 ∨ moved ≥ half then (left, s)
    else match (List.range 4).find? fun ps => s.nextHop d ps = some kmin with
      | none => (left, s)
      | some ps =>
        let n := s.flowBales r.open_
        let s := s.setFlows (s.fab.flows.map fun x =>
          if sameFlow x.open_ r.open_ then { x with open_ := { x.open_ with ps := ps }, reseed := false } else x)
        let s := s.fabMod fun f => { f with frozen := (r.open_, 16) :: f.frozen }
        let s := ((s.inc DRV_REBAL.MOVES).pmu 0x0A kmax).record 3 0x43 4
          [s.member * 512 + r.open_.idx + r.open_.ps * 2^12 + ps * 2^14 + d * 2^16]
        State.moveFlows d kmax kmin half t (moved + n) (left - 1) s

/-- The highest and the lowest loaded of a set of links, lowest number first. -/
def extremes (load : Nat → Nat) (ks : List Nat) : Nat × Nat :=
  (ks.foldl (fun a k => if load k > load a then k else a) (ks.headD 0),
   ks.foldl (fun a k => if load k < load a then k else a) (ks.headD 0))

/-- The load of a link as the rebalancer counts it: a link in single-lane service has half the capacity, so that each of its
bales counts twice (R172, DEDUCED, log entry 147). -/
def State.linkLoad (s : State) (k : Nat) : Nat :=
  s.g (DRV_LOAD.BALES k) * (if [1, 2].contains (s.g (GLK_LINK.LANES k)) then 2 else 1)

/-- The rebalancer's look at one destination (R190, R191). -/
def State.rebalance (s : State) (d left : Nat) : Nat × State :=
  let ks := [0, 1, 2, 3].filter fun k => bitOf (s.routeTo d).next k
  if ks.length < 2 then (left, s.fabMod fun f => { f with above := vset f.above d 0, stuck := vset f.stuck d 0 })
  else
    let load (k : Nat) : Nat := s.linkLoad k
    let (kmax, kmin) := extremes load ks
    let imb := if load kmax = 0 then 0 else (load kmax - load kmin) * 100 / load kmax
    let s := s.p DRV_REBAL.IMBAL (max imb (s.g DRV_REBAL.IMBAL))
    if (load kmax - load kmin) * 100 ≤ s.g DRV_X_REBAL.THRESH_PCT * load kmax then
      (left, s.fabMod fun f => { f with above := vset f.above d 0, stuck := vset f.stuck d 0 })
    else
      let s := s.fabMod fun f => { f with above := vmod f.above d (· + 1) }
      let cs := s.movable d kmax
      let s := s.fabMod fun f => { f with stuck := vset f.stuck d (if cs.isEmpty then vat f.stuck d + 1 else 0) }
      let s := s.when (vat s.fab.stuck d = 1000) fun s =>
        (s.hw DRV_EVT.STUCK_IMBALANCE).record 0 0x07 4 [d + imb * 2^8]
      if vat s.fab.above d ≥ s.g DRV_X_REBAL.WINDOWS && s.on DRV_CTRL.REBAL_EN then
        State.moveFlows d kmax kmin ((load kmax - load kmin + 1) / 2) cs 0 left s
      else (left, s)

/-- REBALANCE_WINDOW (R190 to R192): a 1 ms window of yard L ends. -/
def execRebalanceWindow (s : State) : Res :=
  .next (
    if !s.domOn dFAB then s
    else
      let s := s.each [0, 1, 2, 3] fun k s =>
        (s.p (DRV_LOAD.BALES k) (s.lk k).load).lkMod k fun l => { l with load := 0 }
      let s := s.ctrlAll "LOAD" ([0, 1, 2, 3].map fun k => s.g (DRV_LOAD.BALES k))
      let s := s.setFlows (s.fab.flows.map fun r =>
        { r with lastBales := r.bales, bales := 0 })
      let s := s.fabMod fun f => { f with frozen := (f.frozen.map fun x => (x.1, x.2 - 1)).filter fun x => x.2 > 0 }
      let s := match s.fab.seed with
        | none => s
        | some x =>
          let s := (((s.p DRV_SEED_LO.SEED_LO x).p DRV_SEED_HI.SEED_HI (x / 2^32)).hw DRV_EVT.RESEED)
          ((s.fabMod fun f => { f with seed := none }).setFlows (s.fab.flows.map fun (r : FlowRec) => { r with reseed := true }))
            |>.finishPend .reseed 0
      let s := s.p DRV_REBAL.IMBAL 0
      let r := (List.range 8).foldl (fun a d => if d = s.member then a else State.rebalance a.2 d a.1)
        (s.g DRV_X_REBAL.MAX_MOVES, s)
      r.2.reseedIdle)

end Sys2Proof.Machine
end

