-- ==== Sys2Proof/Machine/Drover.lean ====
section
/-!
DEFINITION. Data bales at a receiver, flow records at a destination, and resync (R15, R175 to R180, R187, R188, R195 of
spec/08_ghelys_fabric.md).
-/
namespace Sys2Proof.Machine

/-- The record of another member's packets. -/
def State.dstRec (s : State) (src idx : Nat) : Option DstRec := s.fab.dsts.find? fun r => r.src = src ∧ r.open_.idx = idx

/-- A data packet header, by the packet type of USB 3.2 (log entry 44). -/
def isDph (head : List Byte) : Bool := (head.getD 0 0).toNat % 32 = 8

/-- A Function Wake notification, by the types of USB 3.2 (log entry 44). -/
def isFunctionWake (head : List Byte) : Bool := (head.getD 0 0).toNat % 32 = 4 && head.getD 4 0 = 0x16

/-- The packet a destination puts together from its bales and its flow record (R176). -/
def packetOf (o : FlowOpen) (hdr : Bool) (a : Assembly) (mark : Bool) : SsPacket :=
  { data := !hdr || isDph a.body, iso := o.iso, route := o.route, addr := o.addr, ep := o.ep, dirIn := o.dirIn,
    stream := o.stream, setup := o.setup, pseq := a.pseq, eob := a.eob, deferred := hdr && mark,
    wake := hdr && isFunctionWake a.body, badCrc := !hdr && mark, head := if hdr then a.body.take 14 else [],
    body := if hdr then [] else a.body }

/-- DELIVERED with the count of one record (R188). -/
def State.sendDelivered (s : State) (src idx : Nat) : State :=
  match s.dstRec src idx with
  | none => s
  | some r =>
    let s := s.fabMod fun f => { f with dsts := f.dsts.map fun x =>
      if x.src = src ∧ x.open_.idx = idx then { x with unreported := 0 } else x }
    s.ctrlTo src "DELIVERED" [idx, r.count]

/-- A whole packet is handed to the port its record names (R15, R101, R102). -/
def State.handOver (s : State) (o : FlowOpen) (b : Buf) : State :=
  if o.target < 15 then
    (if s.holderOf o.target = some o.slot then s.pushEgress o.target b else s.dropAt o.target b)
  else if o.target < 0x40 then match s.homeOf o.slot with
    | some (m, u) => if m = s.member then s.pushEgress (15 + u) b else s.freeCells b.q b.banks
    | none => s.freeCells b.q b.banks
  else (s.freeCells b.q b.banks).out (.line "PEN_PACKET" [o.slot, o.target - 0x40])

/-- A packet is whole on its arrival link: forwarded, or delivered under the EPOCH of its pair (R180, R188, R195). -/
def State.fabPacket (s : State) (k : Nat) (hdr mark : Bool) (a : Assembly) : State :=
  let src := a.flow / 512
  let idx := a.flow % 512
  let r := s.dstRec src idx
  if a.dest ≠ s.member then
    s.queueData { slot := ((r.map (·.open_.slot)).getD 0), dest := a.dest, src := src, idx := idx, ps := a.ps, epoch := a.epoch,
                  hdr := hdr, pseq := a.pseq, eob := a.eob, mark := mark,
                  body := if hdr then a.body.take 14 else a.body, transit := some (17 + k, a.banks) }
  else match r with
    | none => s.freeCells (17 + k) a.banks
    | some r =>
      if a.epoch ≠ vat s.fab.rxEpoch src && !s.marks.contains (.resync src) then s.freeCells (17 + k) a.banks
      else
        let r' := { r with count := (r.count + 1) % 65536, unreported := r.unreported + 1 }
        let s := s.fabMod fun f => { f with dsts := f.dsts.map fun x =>
          if x.src = src ∧ x.open_.idx = idx then r' else x }
        let s := s.handOver r.open_ { pkt := packetOf r.open_ hdr a mark, q := 17 + k, banks := a.banks }
        s.when (r'.unreported ≥ 8) fun s => s.sendDelivered src idx

/-- An intact data-class bale: stored in a cell of its link's queue, and put together with its packet (R176, R180). -/
def State.storeBale (s : State) (k h : Nat) (pay : List Byte) (mark : Bool) : State :=
  let kind := h % 8
  let last := bitOf h 3
  let w := bitsOf h 23 25
  let body := pay.take (bitsOf h 4 6 + 1)
  let (c, s) := s.takeCells (17 + k) 1
  if kind = 3 then
    s.fabPacket k true mark ⟨bitsOf w 0 3, bitsOf w 3 12, bitsOf w 15 2, 0, false, bitOf w 17, body, c, false⟩
  else
    let a : Option Assembly :=
      if kind = 1 then
        some ⟨bitsOf w 0 3, bitsOf w 3 12, bitsOf w 15 2, bitsOf w 17 5, bitOf w 22, bitOf w 23, body, c, mark⟩
      else (s.lk k).asm.map fun a => { a with body := a.body ++ body, banks := a.banks ++ c, bad := a.bad || mark }
    match a with
    | none => s.freeCells (17 + k) c
    | some a =>
      if last then (s.lkMod k fun l => { l with asm := none }).fabPacket k false a.bad a
      else s.lkMod k fun l => { l with asm := some a }

/-- RESYNC_ACK to a member with the delivered count of every record of its packets (R195). -/
def State.answerResync (s : State) (src : Nat) : State :=
  let mine := s.fab.dsts.filter fun r => r.src = src
  let s := s.fabMod fun f => { f with dsts := f.dsts.map fun r => if r.src = src then { r with unreported := 0 } else r }
  s.ctrlTo src "RESYNC_ACK" (b2n (vat s.fab.rxEpoch src) :: mine.flatMap fun r => [r.open_.idx, r.count])

/-- Does the last bale of a packet from member src to this chip come in this same cycle, behind this command (R195)? -/
def State.lastAhead (s : State) (src : Nat) : Bool := s.ahead fun c => match c with
  | .dataBaleReceived _ h _ _ _ =>
    let h := h.toNat
    decide (1 ≤ h % 8 ∧ h % 8 ≤ 3) && bitOf h 3 && bitsOf h 23 3 = s.member && bitsOf h 35 3 = src
  | _ => false

/-- The answers to RESYNC that no bale of this cycle holds up any more are sent. -/
def State.settleResync (s : State) : State :=
  s.each ((List.range 8).filter fun m => s.marks.contains (.resync m) && !s.lastAhead m) fun m s =>
    (s.unmark (.resync m)).answerResync m

/-- The cell of a bale is read here, to be sent on or by a pen (R107): a double-bit error marks a data bale. A stall's or an upstream
port's egress reads the cells itself. -/
def State.baleRead (s : State) (h ecc : Nat) (mark : Bool) : Bool × State :=
  let pen := (s.dstRec (bitsOf h 35 3) (bitsOf h 26 9)).any fun r => decide (0x40 ≤ r.open_.target)
  if bitsOf h 23 3 = s.member && !pen then (mark, s) else (mark || (ecc = 2 && h % 8 ≠ 3), s.eccRead ecc)

/-- DATA_BALE_RECEIVED (R107, R175 to R180): header, payload bytes, the sender's mark (Deferred on a header packet,
an invalid CRC-32 on a data packet, log entry 41), and what the ECC of its cell shows when a transit member or a pen here reads
it. -/
def State.dataBaleReceived (s : State) (k : Fin 4) (header : BitVec 64) (payload : List (BitVec 8)) (mark : Bool)
    (ecc : Fin 3) : State :=
  State.settleResync (
    let h := header.toNat
    let kind := h % 8
    let pay := pad64 payload
    if !s.lkAwake k then s
    else if kind = 5 then
      (if baleCrc 0xFFFF h pay = h / 2^48 then s else s.discardBale k false)
    -- a reserved KIND has no sequence value: it is counted, with no NAK (R177, R178)
    else if kind = 0 || kind ≥ 6 then s.discardBale k false
    else
      let ok := baleCrc (s.lk k).rxSeq h pay = h / 2^48
      if !ok then s.discardBale k true
      else if s.g (GLK_LINK.STATE k) ≠ 4 || kind = 4 then s
      else if s.roomOf (17 + k) = 0 then s.discardBale k true
      else
        let s := (s.rxSequenced k).p (GLK_LINK.IDLE k) 0
        let (mark, s) := s.baleRead h ecc mark
        let s := s.storeBale k h pay mark
        let s := s.when (!s.domOn dHUB) fun s => s.linkJudge dHUB
        s.rxHdr ⟨k, Fin.ofNat 512 (bitsOf h 10 9), Fin.ofNat 8 (bitsOf h 19 3), bitOf h 22, 0⟩)

/-- DATA_BALE_RECEIVED (R107, R175 to R180). -/
def execDataBaleReceived (k : Fin 4) (header : BitVec 64) (payload : List (BitVec 8)) (mark : Bool) (ecc : Fin 3) (s : State) : Res :=
  .next (s.dataBaleReceived k header payload mark ecc)

/-- FLOW_OPEN_RECEIVED (R187): stored at every member of the path, and sent on along it. -/
def execFlowOpenReceived (c : CtrlHdr) (o : FlowOpen) (s : State) : Res :=
  .next (
    if s.g (GLK_LINK.STATE c.hdr.link) ≠ 4 then s
    else if !s.ctrlFits then s.discardBale c.hdr.link true
    else
      let k := c.hdr.link.val
      let (b, s) := s.ctrlCell c.hdr
      let m : CtrlMsg := ⟨c.src, c.dest, c.seq, "FLOW_OPEN", openFields o, some (k, b)⟩
      if s.fab.seen.contains (ctrlKey c) then s.freeCtrl m
      else
        let s := (s.noteSeen (ctrlKey c)).fabMod fun f => { f with
          dsts := (f.dsts.filter fun r => ¬(r.src = c.src.val ∧ r.open_.idx = o.idx)) ++ [{ src := c.src, open_ := o }] }
        if c.dest.val = s.member then s.freeCtrl m
        else s.forwardCtrl k b (s.ctrlHop m).toList m)

/-- FLOW_RECORD_FREE (R187): nothing of the record is undelivered and it has been idle for 20 µs. -/
def execFlowRecordFree (idx : Fin 512) (s : State) : Res :=
  .next (
    if s.fab.flows.any fun r => r.open_.idx = idx.val && r.undel.isEmpty then
      (s.setFlows (s.fab.flows.filter fun r => r.open_.idx ≠ idx.val)).retryWaits
    else s)

/-- DELIVERED_RECEIVED (R188): counts of one or more records. -/
def execDeliveredReceived (c : CtrlHdr) (counts : List (Fin 512 × Fin 65536)) (s : State) : Res :=
  .next (s.rxCtrl c "DELIVERED" (counts.flatMap fun e => [e.1.val, e.2.val]) fun s =>
    counts.foldl (fun s e =>
      if s.fab.flows.any fun r => r.open_.idx = e.1.val && r.dest = c.src.val then s.takeDelivered e.1 e.2 else s) s)

/-- DELIVERED_TIMER (R188): 2 µs after a record's last packet. -/
def execDeliveredTimer (src : Fin 8) (idx : Fin 512) (s : State) : Res :=
  .next (s.when (((s.dstRec src idx).map fun r => decide (r.unreported > 0)).getD false) fun s => s.sendDelivered src idx)

/-- RESYNC_RECEIVED (R195): the new EPOCH is adopted and the delivered count of every record answered; a packet whose last bale
is stored in this cycle still counts. -/
def execResyncReceived (c : CtrlHdr) (epoch : Bool) (s : State) : Res :=
  .next (s.rxCtrl c "RESYNC" [b2n epoch] fun s =>
    let s := s.fabMod fun f => { f with rxEpoch := vset f.rxEpoch c.src epoch }
    if s.lastAhead c.src then s.mark (.resync c.src) else s.answerResync c.src)

/-- RESYNC_ACK_RECEIVED (R194, R195): the answer to the last RESYNC of the pair, known by its EPOCH. Every packet beyond the counts is sent again in order under the new EPOCH. `elapsed`
is the time from detection to the resend, in 0.1 µs. -/
def execResyncAckReceived (c : CtrlHdr) (epoch : Bool) (counts : List (Fin 512 × Fin 65536)) (elapsed : Nat) (s : State) : Res :=
  .next (s.rxCtrl c "RESYNC_ACK" (b2n epoch :: counts.flatMap fun e => [e.1.val, e.2.val]) fun s =>
    let d := c.src.val
    if !s.fab.resync.contains d || epoch != vat s.fab.txEpoch d then s
    else
      let s := counts.foldl (fun s e =>
        if s.fab.flows.any fun r => r.open_.idx = e.1.val && r.dest = d then s.takeDelivered e.1 e.2 else s) s
      let ep := vat s.fab.txEpoch d
      let s := s.fabMod fun f => { f with resync := f.resync.filter (· ≠ d) }
      let s := s.setFlows (s.fab.flows.map fun r =>
        if r.dest = d then { r with undel := r.undel.map fun u => ({ u.1 with epoch := ep }, u.2) } else r)
      let ps := (s.fab.flows.filter fun r => r.dest = d).flatMap fun r => r.undel.map (·.1)
      let s := (ps.mergeSort fun a b => decide (a.ord ≤ b.ord)).foldl State.queueData s
      s.when s.fab.resync.isEmpty fun s =>
        ((s.p DRV_REROUTE.LAST (min 255 elapsed)).p DRV_REROUTE.RESYNCS (min 255 s.fab.resyncs)).record 3 0x41 4
          [s.fab.rerouteLink + min 255 s.fab.resyncs * 2^8 + min 65535 elapsed * 2^16])

end Sys2Proof.Machine
end

