-- ==== Sys2Proof/Machine/TypeC.lean ====
section
/-!
DEFINITION. Type-C attach and detach, VCONN and error recovery (R199 to R205, R214, R218, R219, R224), and the ramp's end.
-/
namespace Sys2Proof.Machine

/-- Step 3 of R202: orientation, VCONN, and the request for VBUS. -/
def State.attachNow (s : State) (n : Nat) : State :=
  let s := s.when (n ≤ 14) fun s => s.p (STL_STALL.ORIENT_LVL n) (s.g (TCP_PORT.ORIENT n))
  let s := s.p (PPW_STATUS.SINK n) 0
  let s := s.when (s.on (TCP_CABLE.RA n) && s.mayVconn n) fun s => s.p (TCP_PORT.VCONN_ON n) 1
  let s := (s.tcMod n fun t => { t with debounced := false, tried := false }).setMux n
  let s := (s.ccState n 6).hw (TCP_EVT.ATTACH n)
  let s := s.restartHistory n
  (s.chMod n fun c => { c with attached := true }).tryRamp n

/-- Rd has come on one CC, the other Open or Ra: the debounce starts, or starts again (R202). An accessory is only noted (R200). -/
def State.attachDetect (s : State) (n : Nat) (cc2 ra acc : Bool) : State :=
  let st := s.g (TCP_PORT.STATE n)
  if !s.on TCP_CTRL.ENABLE || !(s.hasCC n) then s
  -- an accessory in place of the Rd being debounced leaves the port unattached (R200)
  else if acc then (s.hw (TCP_EVT.ACC_SEEN n)).when (st = 3) fun s => s.toUnattached n
  else if st = 1 ∨ st = 3 then
    let s := (s.p (TCP_PORT.ORIENT n) (b2n cc2)).p (TCP_CABLE.RA n) (b2n ra)
    (s.tcMod n fun t => { t with debounced := false }).ccState n 3
  else s

/-- ATTACH_DETECT (R200 to R202, R267). -/
def execAttachDetect (n : Channel) (cc2 ra acc : Bool) (s : State) : Res :=
  .next (s.onWake (groupClient n) [dPPA] (.attach n cc2 ra acc) fun s => s.attachDetect n cc2 ra acc)

/-- CC_ATTACH_DEBOUNCE_END (R201 to R203): step 1 is done; step 2 passes at once when VBUS is below 0.8 V. A POWER_IN stall that has
found a sink runs Try.SNK first: it presents Rd. -/
def execCcAttachDebounceEnd (n : Channel) (s : State) : Res :=
  .next (s.when (s.g (TCP_PORT.STATE n) = 3) fun s =>
    if s.typ n = 3 && !(s.tc n).tried then (s.p (TCP_PORT.RP n) 0).ccState n 5
    else if (s.ch n).vbusLow then s.attachNow n else s.tcMod n fun t => { t with debounced := true })

/-- VBUS_DISCHARGED (R203): a waiting attach, ramp or recovery may go on. -/
def execVbusDischarged (n : Channel) (s : State) : Res :=
  .next (
    let s := s.vbusFell n
    s.when (s.g (TCP_PORT.STATE n) = 3 && (s.tc n).debounced && (s.ch n).vbusLow) fun s => s.attachNow n)

/-- RAMP_COMPLETE (R164, R202, R208, R227): the ramp is done; on a Type-C port the data sides and PD follow. In the sink direction PG
asserts with it (R228, R242), and no data role is in use (R199). -/
def State.rampComplete (s : State) (n : Nat) (gateOk : Bool) : State :=
  if !(s.ch n).gate || (s.ch n).rampDone then s
  else
    let s := (s.chMod n fun c => { c with rampDone := true }).when gateOk fun s => s.p (PPW_STATUS.GATE_OK n) 1
    let s := s.when (!(s.ch n).attempt) fun s => s.p (PPW_STATUS.STATE n) 3
    if s.on (PPW_STATUS.SINK n) then s.assertPg n
    else
    let s := s.when (n ≤ 14) fun s => s.mirLocal n PortStat.clearOc
    let s := s.when (n ≤ 14 && s.g (SSH_PORT.LINK n) = 4 && s.ssAllowed n
      && (!s.hasCC n || (s.ch n).portPower)) fun s => s.ssLink n 5
    let s := s.when (n ≤ 14 && s.g (HSH_PORT.STATE n) = 0) fun s => s.hsState n 1
    s.when (s.hasCC n) fun s =>
      (((s.p (TCP_PORT.DATA_ON n) 1).p (TCP_PORT.CONTRACT n) 1).setLimit n).startPd n

/-- RAMP_COMPLETE (R227). -/
def execRampComplete (n : Channel) (gateOk : Bool) (s : State) : Res := .next (s.rampComplete n gateOk)

/-- DETACH_DEBOUNCE_END (R204, R224): Rd has read open for 1 ms; during a transition it is a fast detach. A port still
debouncing its attach becomes unattached (R202). -/
def execDetachDebounceEnd (n : Channel) (s : State) : Res :=
  .next (
    if s.g (TCP_PORT.STATE n) = 3 then (s.tcMod n fun t => { t with debounced := false, tried := false }).toUnattached n
    else s.when (s.isSource n) fun s =>
      let fast := (s.tc n).trans ≠ .none
      (s.detach n).when fast fun s => s.hw (TCP_EVT.FAST_DETACH n))

/-- SINK_DETACH (R204). -/
def execSinkDetach (n : Channel) (s : State) : Res := .next (s.when (s.isSink n) fun s => s.detach n)

/-- RD_OPEN_DURING_SLEW (R224): the slew freezes while Rd reads open, at the code it has reached between its ends; it resumes when Rd
returns within 1 ms. -/
def execRdOpenDuringSlew (n : Channel) (isOpen : Bool) (code : BitVec 14) (s : State) : Res :=
  .next (s.when (s.isSource n && s.on (TCP_VSET.SLEWING n)) fun s =>
    let a := s.g (TCP_VSET.CODE n)
    let b := s.g (TCP_VSET.TARGET n)
    let s := s.when (isOpen && !s.on (TCP_VSET.FROZEN n)) fun s =>
      s.p (TCP_VSET.CODE n) (max (min a b) (min (max a b) code.toNat))
    s.p (TCP_VSET.FROZEN n) (b2n isOpen))

/-- DRP_TOGGLE (R201): an unattached POWER_IN stall changes between Rp and Rd. -/
def execDrpToggle (n : Channel) (s : State) : Res :=
  .next (
    let st := s.g (TCP_PORT.STATE n)
    if s.typ n ≠ 3 || !s.on TCP_CTRL.ENABLE || s.mode ≠ 3 then s
    else if st = 1 then (s.p (TCP_PORT.RP n) 0).ccState n 2
    else if st = 2 then (s.ccState n 1).p (TCP_PORT.RP n) (rpLevel (s.effLimit n))
    else s)

/-- TRY_SNK_TIMEOUT (R201): no source came within tTryTimeout; the stall presents Rp again, and attaches as source once it finds Rd
debounced (TryWait of USB Type-C 2.x, log entry 167). -/
def execTrySnkTimeout (n : Channel) (s : State) : Res :=
  .next (s.when (s.g (TCP_PORT.STATE n) = 5) fun s =>
    ((s.p (TCP_PORT.RP n) (rpLevel (s.effLimit n))).tcMod n fun t => { t with tried := true }).ccState n 3)

/-- A sink attach completes, with the Rp of the source as TCP_PORT.RP codes it: the FETs close in the sink direction as R236 lets
them, and the ramp begins (R201, R228, R357). Those of UP0 that the starter has closed stay so (R356). -/
def State.sinkAttach (s : State) (n : Nat) (cc2 : Bool) (rp : Nat) : State :=
  let st := s.g (TCP_PORT.STATE n)
  let okRole := if n = 15 then s.mode = 1 else s.typ n = 3 ∧ s.mode = 3
  if okRole ∧ s.on TCP_CTRL.ENABLE ∧ [1, 2, 4, 5].contains st then
    let s := ((s.p (TCP_PORT.ORIENT n) (b2n cc2)).p (TCP_PORT.RP n) 0).p (PPW_STATUS.SINK n) 1
    let s := (((s.ccState n 7).hw (TCP_EVT.ATTACH n)).restartHistory n).setMux n
    let s := (s.tcMod n fun t => { t with srcRp := rp, debounced := false, tried := false }).chMod n fun c =>
      { c with attached := true, vbusLow := false }
    (s.p (TCP_PORT.CONTRACT n) 1).tryRamp n
  else s

/-- SINK_ATTACH (R201, R228, R267, R357). -/
def execSinkAttach (n : Channel) (cc2 : Bool) (rp : Fin 4) (s : State) : Res :=
  .next (s.onWake (groupClient n) [dPPA] (.sink n cc2 rp) fun s => s.sinkAttach n cc2 rp)

/-- ERROR_RECOVERY_END (R205, R219): the port returns to the unattached state of its role. -/
def execErrorRecoveryEnd (n : Channel) (s : State) : Res :=
  .next (s.when (s.g (TCP_PORT.STATE n) = 9) fun s => s.toUnattached n)

/-- HARD_RESET_RECEIVED (R214): the source runs R214; a sink keeps its attach and waits for VBUS. -/
def execHardResetReceived (n : Channel) (s : State) : Res :=
  .next (
    if !s.pdOn n then s
    else if s.isSource n then s.hardReset n false
    else if s.isSink n then
      (((s.pdRecord n false 0 true 0 []).hw (TCP_EVT.HR_RX n)).incSat (TCP_PORT.HR_COUNT n)).endContract n
    else s)

/-- PS_HARD_RESET_TIMER (R213, R214): VBUS is discharged without ending the attach. -/
def execPsHardResetTimer (n : Channel) (s : State) : Res :=
  .next (s.when ((s.tc n).recovering) fun s => s.switchOff n)

/-- SRC_RECOVER_END (R213, R214): VCONN is restored, VBUS ramps to 5 V under R203, and R208 starts again with it. -/
def execSrcRecoverEnd (n : Channel) (s : State) : Res :=
  .next (s.when ((s.tc n).recovering && s.isSource n) fun s =>
    let s := s.when (s.tc n).vconnBack fun s => s.p (TCP_PORT.VCONN_ON n) 1
    (s.tcMod n fun t => { t with recovering := false, vconnBack := false }).tryRamp n)

/-- VCONN_SWAP (R199, R218, R224): the partner asks for a swap; a port that may not source VCONN, a sink among them, answers
Not_Supported (DEDUCED, log entry 173). -/
def execVconnSwap (n : Channel) (hdr : BitVec 16) (s : State) : Res :=
  .next (s.pdRx n hdr [] fun s =>
    if !s.mayVconn n then s.pdNot n
    else if (s.tc n).swap = 3 && s.isSource n then s.pdSend n .wait
    else if s.on (TCP_PORT.VCONN_ON n) then
      (s.pdSend n .accept).tcMod n fun t => { t with swap := 1 }
    else
      let s := ((s.pdSend n .accept).p (TCP_PORT.VCONN_ON n) 1).pdSend n .psRdy
      (s.tcMod n fun t => { t with swap := 0, partnerVconn := false }).hw (TCP_EVT.VCONN_SWAP n))

/-- PS_RDY_RECEIVED (R218): the partner has VCONN, and the ZH15 turns its own off. -/
def execPsRdyReceived (n : Channel) (hdr : BitVec 16) (s : State) : Res :=
  .next (s.pdRx n hdr [] fun s =>
    s.when ((s.tc n).swap = 1) fun s =>
      ((s.vconnOff n).tcMod n fun t => { t with swap := 0, partnerVconn := true }).hw (TCP_EVT.VCONN_SWAP n))

/-- VCONN_OVERCURRENT (R218): the switch opens. -/
def execVconnOvercurrent (n : Channel) (s : State) : Res :=
  .next (s.when (s.on (TCP_PORT.VCONN_ON n)) fun s =>
    ((s.vconnOff n).hw (TCP_EVT.VCONN_OC n)).raise 65 (portCode n))

/-- CC_OVERVOLTAGE (R224): termination opens at once, the attach ends, and the port comes back by error recovery (log entry 168). -/
def execCcOvervoltage (n : Channel) (s : State) : Res :=
  .next (s.when (s.hasCC n) fun s =>
    ((s.errorRecovery n).hw (TCP_EVT.CC_OV n)).raise 64 (portCode n))

/-- VSET_TRIM (R209, R211): every 1 ms the code moves by at most 4 toward the target voltage, never more than 60 from the
target code; none during a slew. Under PPS current limiting the code follows the voltage that holds the operating current,
down to the APDO's minimum, and returns to the target when the draw falls. `mv` is the 1 ms average at VBUS_SNS. -/
def execVsetTrim (n : Channel) (mv : Nat) (limiting : Bool) (s : State) : Res :=
  .next (
    let t := s.g (TCP_VSET.TARGET n)
    let c := s.g (TCP_VSET.CODE n)
    if s.on (TCP_VSET.SLEWING n) || !(s.ch n).rampDone || s.on (PPW_STATUS.SINK n) then s
    else if limiting && s.g (TCP_CONTRACT.KIND n) = 1 then
      (s.p (TCP_VSET.CODE n) (min t (max (pdoMinMv (s.tc n).obj / 5) (mv / 5)))).tcMod n fun t => { t with ppsCut := true }
    else if (s.tc n).ppsCut then (s.p (TCP_VSET.CODE n) t).tcMod n fun t => { t with ppsCut := false }
    else if !s.on TCP_CTRL.TRIM_EN || limiting then s
    else if mv + 20 < 5 * t then s.p (TCP_VSET.CODE n) (min (c + min 4 ((5 * t - mv) / 5)) (t + 60))
    else if 5 * t + 20 < mv then s.p (TCP_VSET.CODE n) (max (c - min 4 ((mv - 5 * t) / 5)) (t - 60))
    else s)

end Sys2Proof.Machine
end

