-- ==== Sys2Proof/Machine/Pd.lean ====
section
/-!
DEFINITION. PD policy (R206 to R218) and DisplayPort Alternate Mode (R220 to R222) of spec/09_type_c_pd.md. A received message
arrives with its header; request data objects follow USB PD 3.2 (PRESUMED, log entries 6 and 7).
-/
namespace Sys2Proof.Machine

/-- The Request a request data object makes of an object. -/
def rdoReq (pdo rdo : Nat) : Req :=
  let pos := bitsOf rdo 28 4
  match pdoKind pdo with
  | 0 => ⟨pos, pdoFixedMv pdo, bitsOf rdo 10 10 * 10⟩
  | 3 => ⟨pos, bitsOf rdo 9 12 * 20, bitsOf rdo 0 7 * 50⟩
  | _ => ⟨pos, bitsOf rdo 9 12 * 25, bitsOf rdo 0 7 * 50⟩

/-- The request data object for a Request of an object. -/
def mkRdo (pdo : Nat) (r : Req) (mismatch epr : Bool) : Nat :=
  r.pos * 2^28 + b2n mismatch * 2^26 + b2n epr * 2^22 + (match pdoKind pdo with
    | 0 => r.ma / 10 * 2^10 + r.ma / 10
    | 3 => r.mv / 20 * 2^9 + r.ma / 50
    | _ => r.mv / 25 * 2^9 + r.ma / 50)

/-- Does a Request lie within its object (R207)? -/
def reqInRange (pdo : Nat) (r : Req) : Bool :=
  match pdoKind pdo with
  | 0 => pdo ≠ 0 && decide (r.ma ≤ pdoMaxMa pdo)
  | 3 => decide (pdoMinMv pdo ≤ r.mv) && decide (r.mv ≤ pdoMaxMv pdo) && decide (r.ma ≤ pdoMaxMa pdo)
  | 4 => decide (pdoMinMv pdo ≤ r.mv) && decide (r.mv ≤ pdoMaxMv pdo) && decide (r.mv % 100 = 0)
      && decide (r.ma ≤ 5000) && decide (r.ma * r.mv ≤ pdoMaxMw pdo * 1000)
  | _ => false

/-- The KIND code of TCP_CONTRACT. -/
def contractKind (pdo : Nat) : Nat := match pdoKind pdo with | 0 => 0 | 3 => 1 | _ => 2

/-- The object of a position of the last capabilities. -/
def State.objAt (s : State) (n pos : Nat) : Nat := (s.tc n).objs.getD (pos - 1) 0

/-- The slew toward a Request's voltage begins (R210). -/
def State.startSlew (s : State) (n : Nat) : State :=
  let s := ((s.p (TCP_VSET.TARGET n) ((s.tc n).req.mv / 5)).p (TCP_VSET.SLEWING n) 1).p (TCP_VSET.FROZEN n) 0
  s.tcMod n fun t => { t with trans := .slew }


/-- The highest current the object of a contract carries in the unreduced set (R255). -/
def State.fullCurrent (s : State) (n o : Nat) : Nat :=
  ((s.baseSet n).used.find? fun w => pdoKind w = pdoKind o ∧ pdoMaxMv w = pdoMaxMv o).elim (pdoMaxMa o) pdoMaxMa

/-- Accept, then the transition (R210): the limit falls at step 1; a small PPS change slews at once. -/
def State.acceptReq (s : State) (n : Nat) (r : Req) : State :=
  let o := s.objAt n r.pos
  let newLim := contractLimit (pdoKind o = 3) r.ma
  let falls := decide (newLim < s.effLimit n)
  let pps := pdoKind o = 3 && s.g (TCP_CONTRACT.KIND n) = 1 && s.g (TCP_CONTRACT.OBJ_POS n) ≠ 0
    && decide ((5 * (s.g (TCP_VSET.TARGET n) : Int) - r.mv).natAbs ≤ 500)
  let s := s.pdSend n .accept
  let s := s.tcSet n fun t => { t with req := r, reqObj := o, trans := .srcTransition, fullMa := s.fullCurrent n o }
  let s := s.when falls fun s => (s.tcMod n fun t => { t with limit := some newLim }).setLimit n
  s.when pps fun s => s.startSlew n

/-- The state after a reduction that the budget engine makes in this same cycle, behind this command (R207). -/
def State.reduceAhead (s : State) : State :=
  if s.ahead (fun c => match c with | .budgetReduce => true | _ => false) then s.budgetReduce else s

/-- R207: the answer to a Request; a reduction made in this cycle counts. -/
def State.evalReq (s : State) (n : Nat) (r : Req) : State :=
  let o := s.objAt n r.pos
  let s := s.tcSet n fun t => { t with ams := false }
  if r.pos = 0 ∨ r.pos > (s.tc n).objs.length then s.pdSend n .reject
  else if r.pos ≥ 8 ∧ !s.on (TCP_CONTRACT.EPR n) then s.pdSend n .reject
  else if !reqInRange o r then s.pdSend n .reject
  else if r.ma > s.reduceAhead.currentAt n r.mv then (s.pdSend n .wait).sendCaps n
  else s.acceptReq n r

/-- PD_REQUEST (R207, R224): a Request or EPR_Request with its request data object. -/
def execPdRequest (n : Channel) (hdr : BitVec 16) (rdo : BitVec 32) (s : State) : Res :=
  .next (s.pdRx n hdr [rdo.toNat] fun s =>
    if !s.isSource n then s.pdNot n
    else
      let r := rdoReq (s.objAt n (bitsOf rdo.toNat 28 4)) rdo.toNat
      let s := s.tcMod n fun t => { t with lastRdo := rdo.toNat }
      if (s.tc n).trans ≠ .none then (s.pdSend n .wait).tcMod n fun t => { t with queued := some r }
      else s.evalReq n r)

/-- SRC_TRANSITION_END (R210). -/
def execSrcTransitionEnd (n : Channel) (s : State) : Res :=
  .next (s.when (s.isSource n && (s.tc n).trans = .srcTransition) fun s => s.startSlew n)

/-- SLEW_DONE (R210): the setpoint stands at the new voltage; a frozen slew does not end (R224). -/
def execSlewDone (n : Channel) (s : State) : Res :=
  .next (s.when ((s.tc n).trans = .slew && !s.on (TCP_VSET.FROZEN n)) fun s =>
    ((s.p (TCP_VSET.CODE n) (s.g (TCP_VSET.TARGET n))).p (TCP_VSET.SLEWING n) 0).tcMod n fun t =>
      { t with trans := .settle })

/-- The contract of the Request stands (R209, R210), by the object it named when it was made; one of higher power starts first use
(R250), and the Hard Resets before it count no more (R205). -/
def State.makeContract (s : State) (n : Nat) (r : Req) : State :=
  let epr := s.on (TCP_CONTRACT.EPR n)
  let kind := contractKind (s.tc n).reqObj
  let more := decide (s.g (TCP_CONTRACT.VOLTAGE n) * s.g (TCP_CONTRACT.CURRENT n) < r.mv / 20 * (r.ma / 50))
  let s := s.when (more && (s.ch n).gate) fun s => s.p (BUD_PORT.FIRST_USE n) 1
  let s := (s.p (TCP_CONTRACT.OBJ_POS n) r.pos).p (TCP_CONTRACT.KIND n) kind
  let s := (s.p (TCP_CONTRACT.VOLTAGE n) (r.mv / 20)).p (TCP_CONTRACT.CURRENT n) (r.ma / 50)
  let s := (s.p (TCP_PORT.CONTRACT n) (if epr then 3 else 2)).hw (TCP_EVT.CONTRACT n)
  s.tcMod n fun t => { t with limit := some (contractLimit (kind = 1) r.ma), obj := t.reqObj, ppsCut := false, hrFail := 0 }

/-- Does the detach debounce of port n end in this same cycle, behind this command (R224)? -/
def State.detachAhead (s : State) (n : Nat) : Bool := s.ahead fun c => match c with
  | .detachDebounceEnd m => m.val = n
  | _ => false

/-- SETTLE_DONE (R200, R210, R224): PS_RDY; the limit rises here; a Request that waited is evaluated. No PS_RDY is sent in the
cycle in which the detach debounce ends. -/
def execSettleDone (n : Channel) (s : State) : Res :=
  .next (s.when (s.isSource n && (s.tc n).trans = .settle && !s.detachAhead n) fun s =>
    let r := (s.tc n).req
    let s := (s.pdSend n .psRdy).makeContract n r
    let q := (s.tc n).queued
    let s := (s.tcMod n fun t => { t with trans := .none, queued := none }).setLimit n
    match q with
    | some r => s.evalReq n r
    | none => s)

/-- PS_RDY_TIMEOUT (R210): 275 ms after Accept. -/
def execPsRdyTimeout (n : Channel) (s : State) : Res :=
  .next (s.when (s.isSource n && (s.tc n).trans ≠ .none) fun s =>
    ((s.hw (TCP_EVT.NOT_READY n)).hardReset n true).raise 66 (portCode n))

/-- DISCOVER_IDENTITY_ATTEMPT (R206, R208, R218): one SOP' attempt and the cable's answer, if any. While the partner holds
VCONN, Dwezel asks for it back instead. -/
def execDiscoverIdentityAttempt (n : Channel) (answered amp5 eprOk : Bool) (maxV : Fin 4) (s : State) : Res :=
  .next (
    if !s.isSource n || !s.pdOn n then s
    else if (s.tc n).partnerVconn && s.mayVconn n && s.wantsDiscovery n then s.askVconn n
    else if !s.discoveryDue n then s
    else
      let s := (s.pdSendSop n 1 .discoverIdentity []).incSat (TCP_CABLE.ATTEMPTS n)
      let s := s.when answered fun s =>
        let s := s.pdRecord n false 1 false 0 []
        (((s.p (TCP_CABLE.DISCOVERED n) 1).p (TCP_CABLE.AMP5 n) (b2n amp5)).p (TCP_CABLE.MAX_V n) maxV).p
          (TCP_CABLE.EPR_OK n) (b2n eprOk)
      s.when (!s.discoveryDue n) fun s => s.tryCaps n)

/-- SOURCE_CAP_TIMER (R208): every 150 ms, until GoodCRC or nCapsCount. -/
def execSourceCapTimer (n : Channel) (goodCrc : Bool) (s : State) : Res :=
  .next (s.when (s.isSource n && s.pdOn n && (s.tc n).capsLeft > 0 && !s.discoveryDue n) fun s =>
    (s.tryCaps n).when goodCrc fun s => s.tcMod n fun t => { t with capsLeft := 0 })

/-- PING (R216). -/
def execPing (n : Channel) (hdr : BitVec 16) (s : State) : Res := .next (s.pdRx n hdr [] fun s => s)

/-- GET_SOURCE_CAP (R216): Source_Capabilities, in EPR mode too. -/
def execGetSourceCap (n : Channel) (hdr : BitVec 16) (s : State) : Res :=
  .next (s.pdRx n hdr [] fun s =>
    if s.isSource n then s.offerCaps n .sourceCaps (s.sprCaps n) else s.pdNot n)

/-- The paddock record whose identity a port shows: the holder's, or the upstream port's (R216). -/
def State.portPaddock (s : State) (n : Nat) : Option PaddockR :=
  (if n ≤ 14 then s.holderOf n else s.slotOf (n - 15)).bind s.plan.paddock?

/-- VID and PID_HUB of the holding paddock, those of R56 when none (R216). -/
def State.pdVidPid (s : State) (n : Nat) : Nat × Nat :=
  (((s.portPaddock n).bind fun r => s.plan.descs.find? fun d => d.slot = r.slot).map fun d => (d.vid, d.pidHub)).getD (0x3E59, 0x1501)

/-- The same as the first four bytes of an extended capabilities block. -/
def State.pdIds (s : State) (n : Nat) : List Nat :=
  let x := s.pdVidPid n
  [x.1 % 256, x.1 / 256, x.2 % 256, x.2 / 256]

/-- The SINK set bound to a port (R44). -/
def State.sinkSet (s : State) (n : Nat) : Option PdoSet :=
  (s.plan.setOf s.member (portCode n)).filter fun p => bitOf p.flags 0

/-- GET_SINK_CAP (R216): `ext` for Get_Sink_Cap_Extended. -/
def execGetSinkCap (n : Channel) (hdr : BitVec 16) (ext : Bool) (s : State) : Res :=
  .next (s.pdRx n hdr [] fun s =>
    match s.sinkSet n with
    | some p => if ext then s.pdSend n .sinkCapsExt ((List.range 6).map fun j => wordAt (s.pdIds n) j)
        else s.pdSend n .sinkCaps (p.pdos.take p.spr)
    | none => s.pdNot n)

/-- The highest power of a list of objects, W. -/
def topW (l : List Nat) : Nat := (l.map pdoMaxMw).foldl max 0 / 1000

/-- GET_SOURCE_CAP_EXTENDED (R216): `info` for Get_Source_Info. Its answer says a managed-capability port (bit 31 clear), with the
port's maximum power in bits 23:16 and its present power in bits 15:8 and 7:0; the extended one ends with the SPR and EPR power
ratings (PRESUMED, log entry 7). -/
def execGetSourceCapExtended (n : Channel) (hdr : BitVec 16) (info : Bool) (s : State) : Res :=
  .next (s.pdRx3 n hdr [] fun s =>
    let all := (s.baseSet n).used
    let now := if s.on (TCP_CONTRACT.EPR n) then topW (s.eprCaps n) else topW (s.sprCaps n)
    if !s.isSource n then s.pdNot n
    else if info then s.pdSend n .sourceInfo [min 255 (topW all) * 2^16 + min 255 now * 2^8 + min 255 now]
    else
      let l := s.pdIds n ++ List.replicate 19 0 ++ [min 255 (topW (all.take (s.baseSet n).spr)), min 255 (topW (all.drop (s.baseSet n).spr))]
      s.pdSend n .sourceCapsExt ((List.range 7).map fun j => wordAt l j))

/-- GET_STATUS (R215, R216): the input of the source in byte 1, and in byte 5 that its power is limited by other ports or by the input
(PRESUMED, log entry 7). -/
def execGetStatus (n : Channel) (hdr : BitVec 16) (s : State) : Res :=
  .next (s.pdRx3 n hdr [] fun s =>
    let warn := s.on TLM_INWARN.PWRWARN || s.on TLM_INWARN.AC_FAIL
    s.pdSend n .status [2 * 2^8, (s.g (BUD_PORT.REDUCED n) * 4 + b2n warn * 8) * 2^8])

/-- GET_PPS_STATUS (R216): the 1 ms averages, in steps of 20 mV and 50 mA, and whether current limiting holds (PRESUMED, log entry 7). -/
def execGetPpsStatus (n : Channel) (hdr : BitVec 16) (s : State) : Res :=
  .next (s.pdRx3 n hdr [] fun s =>
    if s.isSource n && s.g (TCP_PORT.CONTRACT n) ≥ 2 && s.g (TCP_CONTRACT.KIND n) = 1 then
      s.pdSend n .ppsStatus [s.g (TLM_AVG1MS.V n) / 20 + min 255 (s.g (TLM_AVG1MS.I n) / 50) * 2^16 + b2n (s.tc n).ppsCut * 2^27]
    else s.pdNot n)

/-- GET_REVISION (R216): PD revision 3.2. -/
def execGetRevision (n : Channel) (hdr : BitVec 16) (s : State) : Res :=
  .next (s.pdRx3 n hdr [] fun s => s.pdSend n .revision [0x32000000])

/-- SOFT_RESET (R216): counters reset, the contract is kept. -/
def execSoftReset (n : Channel) (hdr : BitVec 16) (s : State) : Res :=
  .next (s.pdRx n hdr [] fun s =>
    ((s.hw (TCP_EVT.SOFT_RESET n)).tcSet n fun t => { t with msgId := 0, softSent := false, swap := 0, ams := false }).pdSend n .accept)

/-- UNSUPPORTED_PD_MESSAGE (R216). -/
def execUnsupportedPdMessage (n : Channel) (hdr : BitVec 16) (s : State) : Res := .next (s.pdRx n hdr [] fun s => s.pdNot n)

/-- BIST (R216): carried out at vSafe5V only. -/
def execBist (n : Channel) (hdr : BitVec 16) (carrier : Bool) (s : State) : Res :=
  .next (s.pdRx n hdr [] fun s =>
    s.when (s.g (TCP_VSET.TARGET n) = 1000 && (s.ch n).rampDone && (s.tc n).trans = .none) fun s =>
      (s.pdSend n (if carrier then .bistCarrier else .bistTestData)).tcMod n fun t => { t with bist := true })

/-- The source object that a sink object accepts, with the Request at its operating current (R212, log entry 14). -/
def sinkAccepts (sinkObjs : List Nat) (src : Nat) : Option (Nat × Nat) :=
  (sinkObjs.filterMap fun k =>
    if src = 0 ∨ pdoKind k ≠ pdoKind src then none
    else if pdoKind k = 0 then
      if pdoFixedMv k = pdoFixedMv src ∧ pdoMaxMa k ≤ pdoMaxMa src then some (pdoFixedMv k, pdoMaxMa k) else none
    else if pdoMinMv src ≤ pdoMaxMv k ∧ pdoMaxMv k ≤ pdoMaxMv src ∧ pdoMaxMa k ≤ pdoMaxMa src then
      some (pdoMaxMv k, pdoMaxMa k)
    else none).foldl (fun a x => match a with
      | some b => if x.1 * x.2 > b.1 * b.2 then some x else a
      | none => some x) none

/-- The best Request of the received objects; vSafe5V with Capability Mismatch when none fits (R212). -/
def bestReq (sinkObjs objs : List Nat) : Req × Bool :=
  let c := (List.range objs.length).filterMap fun i =>
    (sinkAccepts sinkObjs (objs.getD i 0)).map fun x => Req.mk (i + 1) x.1 x.2
  match c.foldl (fun a x => match a with
      | some b => if x.mv * x.ma > b.mv * b.ma then some x else a
      | none => some x) (none : Option Req) with
  | some r => (r, false)
  | none => (⟨1, 5000, min 500 (pdoMaxMa (objs.getD 0 0))⟩, true)

/-- SOURCE_CAPABILITIES (R212): the objects received; `epr` for EPR_Source_Capabilities. -/
def execSourceCapabilities (n : Channel) (hdr : BitVec 16) (objs : List (BitVec 32)) (epr : Bool) (s : State) : Res :=
  let l := objs.map (·.toNat)
  .next (s.pdRx n hdr l fun s =>
    if !s.isSink n then s.pdNot n
    else
      let five := [5000 / 50 * 2^10 + 50]
      let r := bestReq (((s.sinkSet n).map PdoSet.used).getD five) l
      let o := l.getD (r.1.pos - 1) 0
      let rdo := mkRdo o r.1 r.2 epr
      -- an EPR_Request repeats the object it asks for
      let s := s.pdSend n (if epr then .eprRequest else .request) (rdo :: if epr then [o] else [])
      s.tcMod n fun t => { t with objs := l, sinkReq := some r.1, reqObj := o, sinkEpr := epr, lastRdo := rdo })

/-- The PD_KEEPALIVE entry of a sink contract (R212): 8 s under PPS, 300 ms under EPR, in the yard R212 names. -/
def State.addKeepAlive (s : State) (n rep : Nat) : State :=
  let y := if n = 15 then (s.slotOf 0).getD 4 else 4
  match s.freeEntry with
  | none => s
  | some i => s.setEntry i { valid := true, yard := y, action := 3, target := portCode n, rep := rep, own := true,
                             due := s.yticks y + rep * 25000 }

/-- The sink contract of the Request stands (R209, R212), in EPR mode where the source's last capabilities were EPR ones (log entry
171). -/
def State.sinkContract (s : State) (n : Nat) (r : Req) : State :=
  let epr := (s.tc n).sinkEpr
  let s := (s.p (TCP_CONTRACT.EPR n) (b2n epr)).makeContract n r
  let s := (s.tcMod n fun t => { t with limit := some (contractLimit false r.ma), sinkReq := none }).setLimit n
  let s := s.dropKeepAlive n true
  if epr then s.addKeepAlive n 2400 else if s.g (TCP_CONTRACT.KIND n) = 1 then s.addKeepAlive n 64000 else s

/-- ACCEPT_RECEIVED (R212, R213, R218): the partner's answer to a Request, a Soft_Reset or a VCONN_Swap of the ZH15. -/
def execAcceptReceived (n : Channel) (hdr : BitVec 16) (ans : PdAnswer) (s : State) : Res :=
  .next (s.pdRx n hdr [] fun s =>
    let t := s.tc n
    if t.swap = 3 then
      match ans with
      | .accept =>
        let s := ((s.p (TCP_PORT.VCONN_ON n) 1).pdSend n .psRdy).hw (TCP_EVT.VCONN_SWAP n)
        s.tcSet n fun t => { t with swap := 0, partnerVconn := false }
      | _ => s.tcSet n fun t => { t with swap := 0 }
    else if t.softSent then
      match ans with
      | .accept => s.tcSet n fun t => { t with softSent := false, msgId := 0 }
      | _ => s
    else if s.isSink n then
      match ans, t.sinkReq with
      | .psRdy, some r => s.sinkContract n r
      | .reject, _ | .wait, _ => s.tcMod n fun t => { t with sinkReq := none }
      | _, _ => s
    else s)

/-- The EPR_Mode Enter condition that fails, as the cause code of USB PD 3.2; 0 when all hold (R217). -/
def State.eprEnterFail (s : State) (n : Nat) : Nat :=
  let capable := if n ≤ 14 then s.stallFlag n 0 else bitOf s.powerE.flags (2 + (n - 15))
  if !capable || (s.baseSet n).epr = 0 || !(s.tc n).eprOk then 5
  else if !s.cableEpr n then 1
  else if !s.on (TCP_PORT.VCONN_ON n) then 2
  else if s.g (TCP_PORT.CONTRACT n) ≠ 2 then 4
  else 0

/-- EPR_MODE_ENTER (R217), with the EPR mode data object of USB PD 3.2: the action in bits 31:24, the cause in bits 23:16. Where only
the cable's identity fails and the partner holds VCONN, Dwezel asks for it back (R218). -/
def execEprModeEnter (n : Channel) (hdr : BitVec 16) (s : State) : Res :=
  .next (s.pdRx3 n hdr [] fun s =>
    let f := s.eprEnterFail n
    if !s.isSource n then s.pdNot n
    else if f ≠ 0 then
      (s.pdSend n .eprEnterFailed [4 * 2^24 + f * 2^16]).when
        ((f = 1 || f = 2) && (s.tc n).partnerVconn && s.mayVconn n && s.wantsDiscovery n) fun s => s.askVconn n
    else (((s.pdSend n .eprEnterAck [2 * 2^24]).pdSend n .eprEnterSucceeded [3 * 2^24]).p (TCP_CONTRACT.EPR n) 1).sendCaps n)

/-- EPR_MODE_EXIT (R216): back to an SPR contract. -/
def execEprModeExit (n : Channel) (hdr : BitVec 16) (s : State) : Res :=
  .next (s.pdRx3 n hdr [] fun s =>
    s.when (s.isSource n && s.on (TCP_CONTRACT.EPR n)) fun s =>
      let s := s.p (TCP_CONTRACT.EPR n) 0
      (s.when (s.g (TCP_PORT.CONTRACT n) = 3) fun s => s.p (TCP_PORT.CONTRACT n) 2).sendCaps n)

/-- EPR_GET_SOURCE_CAP (R216). -/
def execEprGetSourceCap (n : Channel) (hdr : BitVec 16) (s : State) : Res :=
  .next (s.pdRx3 n hdr [] fun s =>
    if s.isSource n && s.on (TCP_CONTRACT.EPR n) then s.sendCaps n else s.pdNot n)

/-- EPR_GET_SINK_CAP (R216). -/
def execEprGetSinkCap (n : Channel) (hdr : BitVec 16) (s : State) : Res :=
  .next (s.pdRx3 n hdr [] fun s =>
    match s.sinkSet n with
    | some p => if p.epr > 0 then s.pdSend n .eprSinkCaps (p.pdos.take (7 + p.epr)) else s.pdNot n
    | none => s.pdNot n)

/-- EPR_KEEPALIVE (R216): acknowledged; tSourceEPRKeepAlive restarts, which a later timeout command reflects. -/
def execEprKeepalive (n : Channel) (hdr : BitVec 16) (s : State) : Res :=
  .next (s.pdRx3 n hdr [] fun s => s.pdSend n .eprKeepAliveAck [4])

/-- PD_ALERT (R216): recorded, and Get_Status sent. -/
def execPdAlert (n : Channel) (hdr : BitVec 16) (ado : BitVec 32) (s : State) : Res :=
  .next (s.pdRx3 n hdr [ado.toNat] fun s => s.pdSend n .getStatus)

/-- PD_INFO_RECEIVED (R216): kept for PD_STATUS under the message type of its header. -/
def execPdInfoReceived (n : Channel) (hdr : BitVec 16) (data : List (BitVec 32)) (s : State) : Res :=
  let l := data.map (·.toNat)
  .next (s.pdRx n hdr l fun s =>
    let k := bitsOf hdr.toNat 0 5
    s.tcMod n fun t => { t with info := (k, l) :: t.info.filter fun x => x.1 ≠ k })

/-- PPS_TIMEOUT (R213): only a PPS contract of a source. -/
def execPpsTimeout (n : Channel) (s : State) : Res :=
  .next (s.when (s.isSource n && s.g (TCP_PORT.CONTRACT n) ≥ 2 && s.g (TCP_CONTRACT.KIND n) = 1) fun s =>
    ((s.hw (TCP_EVT.KA_TIMEOUT n)).raise 68 (portCode n)).hardReset n true)

/-- EPR_KEEPALIVE_TIMEOUT (R213): only in EPR mode of a source. -/
def execEprKeepaliveTimeout (n : Channel) (s : State) : Res :=
  .next (s.when (s.isSource n && s.on (TCP_CONTRACT.EPR n)) fun s =>
    ((s.hw (TCP_EVT.KA_TIMEOUT n)).raise 68 (portCode n)).hardReset n true)

/-- SENDER_RESPONSE_TIMEOUT (R213): Soft_Reset, then Hard Reset if it stays unanswered. -/
def execSenderResponseTimeout (n : Channel) (s : State) : Res :=
  .next (s.when (s.isSource n && s.pdOn n && s.g (TCP_PORT.PD_REV n) ≠ 0) fun s =>
    if (s.tc n).softSent then s.hardReset n true
    else (((s.tcMod n fun t => { t with msgId := 0 }).pdSend n .softReset).hw (TCP_EVT.SOFT_RESET n)).tcSet n fun t =>
      { t with softSent := true, swap := 0, ams := false })

/-! ## Structured VDMs and DisplayPort (R216, R220 to R222) -/

/-- Does the port's paddock have ALT_DP (R38)? -/
def State.altDp (s : State) (n : Nat) : Bool :=
  n ≥ 15 && ((s.portPaddock n).map fun r => bitOf r.flags 2).getD false

/-- DISCOVER_IDENTITY (R216): VID, PID_HUB, product type and modal operation. -/
def execDiscoverIdentity (n : Channel) (hdr : BitVec 16) (s : State) : Res :=
  .next (s.pdRx n hdr [] fun s =>
    let x := s.pdVidPid n
    s.pdSend n .vdmAck [0x1, x.1, x.2, if n ≥ 15 then 1 else 2, b2n (s.altDp n)])

/-- A VDM that the port answers only with ALT_DP; NAK otherwise (R216). -/
def State.dpAnswer (s : State) (n : Nat) (f : State → State) : State :=
  if s.altDp n then f s else s.pdSend n .vdmNak

/-- DISCOVER_SVIDS (R220). -/
def execDiscoverSvids (n : Channel) (hdr : BitVec 16) (s : State) : Res :=
  .next (s.pdRx n hdr [] fun s => s.dpAnswer n fun s =>
    (s.pdSend n .vdmAck [0x2, 0xFF01]).when (s.g (TCP_DP.STATE (n - 15)) = 0) fun s => s.p (TCP_DP.STATE (n - 15)) 1)

/-- DISCOVER_MODES (R220): one mode, UFP_D capable, DisplayPort signalling, receptacle, with the plan's pin assignments. -/
def execDiscoverModes (n : Channel) (hdr : BitVec 16) (s : State) : Res :=
  .next (s.pdRx n hdr [] fun s => s.dpAnswer n fun s =>
    s.pdSend n .vdmAck [0x3, 0x45 + ((s.portPaddock n).map (·.dpPins)).getD 0 * 2^18])

/-- ENTER_MODE (R220). -/
def execEnterMode (n : Channel) (hdr : BitVec 16) (s : State) : Res :=
  .next (s.pdRx n hdr [] fun s => s.dpAnswer n fun s => 
    let s := (s.pdSend n .vdmAck [0x4]).p (TCP_DP.STATE (n - 15)) 2
    (s.withDp (vmod s.dp (n - 15) fun q => { q with entered := true })))

/-- EXIT_MODE (R220): ACK, and the port returns to USB. -/
def execExitMode (n : Channel) (hdr : BitVec 16) (s : State) : Res :=
  .next (s.pdRx n hdr [] fun s => s.dpAnswer n fun s => (s.pdSend n .vdmAck [0x5]).dpExit (n - 15))

/-- DP_STATUS_UPDATE (R220). -/
def execDpStatusUpdate (n : Channel) (hdr : BitVec 16) (s : State) : Res :=
  .next (s.pdRx n hdr [] fun s => s.dpAnswer n fun s => s.pdSend n .vdmAck [0x10, s.g (TCP_DP.HPD (n - 15))])

/-- DP_CONFIGURE (R220): as UFP_D with pin assignment C (1), D (2) or E (3) of the plan; NAK for any other. The ACK follows
step 3 of R115. -/
def execDpConfigure (n : Channel) (hdr : BitVec 16) (ufpD : Bool) (pins : Fin 4) (s : State) : Res :=
  .next (s.pdRx n hdr [] fun s => s.dpAnswer n fun s =>
    let ok := pins.val ≠ 0 && bitOf (((s.portPaddock n).map (·.dpPins)).getD 0) (pins - 1)
    if ufpD && ok && s.g (TCP_DP.STATE (n - 15)) ≥ 2 then s.dpChange (n - 15) pins true
    else s.pdSend n .vdmNak)

/-- OTHER_STRUCTURED_VDM (R216). -/
def execOtherStructuredVdm (n : Channel) (hdr : BitVec 16) (s : State) : Res :=
  .next (s.pdRx n hdr [] fun s => s.pdSend n .vdmNak)

/-- UNSTRUCTURED_VDM (R216). -/
def execUnstructuredVdm (n : Channel) (hdr : BitVec 16) (s : State) : Res :=
  .next (s.pdRx n hdr [] fun s => s.pdNot n)

/-- HPD_LEVEL_CHANGE (R222): a level held for 2 ms. -/
def execHpdLevelChange (u : Fin 2) (high : Bool) (s : State) : Res :=
  .next (
    let s := s.p (TCP_DP.HPD u) (b2n high)
    s.when (s.g (TCP_DP.STATE u) ≥ 2) fun s => s.pdSend (15 + u) .attention [b2n high])

/-- IRQ_HPD (R222): a low pulse of 0.25 to 2 ms. -/
def execIrqHpd (u : Fin 2) (s : State) : Res :=
  .next (s.when (s.g (TCP_DP.STATE u) ≥ 2) fun s => s.pdSend (15 + u) .attention [s.g (TCP_DP.HPD u) + 2])

end Sys2Proof.Machine
end

