-- ==== Sys2Proof/Machine/SuperSpeed.lean ====
section
/-!
DEFINITION. The SS hub core (R100 to R127 of spec/05_superspeed_hub.md): routing, egress by link state, credits, link power
management, suspend and wake, and the width change of a DisplayPort configuration.
-/
namespace Sys2Proof.Machine

/-- SS forwarding runs (SSH_CTRL, PBF_CTRL). -/
def State.ssOn (s : State) : Bool := s.domOn dHUB && s.on SSH_CTRL.ENABLE && s.on PBF_CTRL.ENABLE

/-- Is the paddock's host at rest on both sides (UPP_PADDOCK.STATE)? A side that is suspended, and none that is active. -/
def State.upJudge (s : State) (u : Nat) : State :=
  let st := s.g (UPP_PADDOCK.STATE u)
  if st < 3 then s
  else
    let lk := s.g (SSH_PORT.LINK (15 + u))
    let es := ((s.slotOf u).bind s.rootEngine).map fun e => s.g (HSH_ENG.STATE e)
    let active := [0, 1, 2, 7, 8, 9].contains lk || [some 2, some 3, some 5].contains es
    let resting := lk = 3 || es = some 4
    let conf := ((s.slotOf u).bind fun y => s.hubOf y 0xF).any (·.conf)
    s.p (UPP_PADDOCK.STATE u) (if resting && !active then 5 else if conf then 4 else 3)

/-- Nibble k of a route string (R101). -/
def nibble (route k : Nat) : Nat := route / 16 ^ k % 16

/-- Is an SS address a pen's: as its context on this chip has it, or as its engine's member has told, 0 until then (R101)? -/
def State.penAt (s : State) (slot k addr : Nat) : Bool :=
  match s.hubOf slot k with
  | some h => h.addr = addr
  | none => ((s.ss.penAddr.find? fun x => x.1 = slot ∧ x.2.1 = k).map (·.2.2)).getD 0 = addr

/-- Where a downstream packet goes (R101). -/
inductive Route where
  | root
  | pen (k engine : Nat)
  | stall (m n : Nat)
  | discard
  deriving DecidableEq, Repr

/-- The decoding of R101 on the home member. -/
def State.decode (s : State) (slot : Nat) (pkt : SsPacket) : Route :=
  match s.hubOf slot 0xF, s.plan.paddock? slot with
  | some root, some r =>
    if !r.ss then .discard
    else if pkt.addr = root.addr then .root
    else if !root.depthSet then .discard
    else
      let entry (l : List PortE) (p : Nat) : PortE := if p = 0 then ⟨0, 0⟩ else l.getD (p - 1) ⟨0, 0⟩
      let e := entry (r.port.take r.rootPorts) (nibble pkt.route root.depth)
      let stall (e : PortE) : Route :=
        match (if e.kind = 1 then stallRef e.ref else none) with
        | some (m, n) => if s.holders.any fun h => h.member = m ∧ h.stall = n ∧ h.slot = slot then .stall m n else .discard
        | none => .discard
      if e.kind = 2 then
        match r.pens[e.ref]? with
        | none => .discard
        | some pen =>
          if s.penAt slot e.ref pkt.addr then .pen e.ref pen.engine
          else stall (entry pen.port (nibble pkt.route (root.depth + 1)))
      else stall e
  | _, _ => .discard

/-- Can a packet enter at a port: its partner holds a header credit, and its cells find room (R111, R18)? -/
def State.canEnter (s : State) (n : Nat) (pkt : SsPacket) : Bool :=
  s.ssOn && s.g (SSH_PORT.LINK n) = 0 && s.g (SSH_PORT.HP_IN n) + vat s.ss.withheld n < 4
    && cellsOf pkt.body.length ≤ s.roomOf n

/-- A packet is received whole at a port (R15): its header buffer and cells, and the stomp of a bad CRC-32 (R107). -/
def State.enter (s : State) (n : Nat) (pkt : SsPacket) : Buf × State :=
  let s := s.p (SSH_PORT.HP_IN n) (s.g (SSH_PORT.HP_IN n) + 1)
  let s := s.when pkt.badCrc fun s => s.hw (SSH_PORT_EVT.CRC_STOMP n)
  let (l, s) := s.takeCells n (cellsOf pkt.body.length)
  ({ pkt := pkt, q := n, banks := l }, s)

/-- A packet is read and goes into the fabric (R107, R187). -/
def State.readSend (s : State) (slot dest target ecc : Nat) (b : Buf) : State :=
  let (b, s) := s.readCells b ecc
  s.fabSend slot dest target b

/-- DOWNSTREAM_PACKET (R101, R107, R187); `ecc` as EGRESS_QUEUE_HEAD has it, for a packet read here for its bales. -/
def State.downstreamPacket (s : State) (u : Fin 2) (pkt : SsPacket) (ecc : Fin 3) : State :=
  match s.slotOf u with
    | none => s
    | some slot =>
      if !s.canEnter (15 + u) pkt then s
      else
        let (b, s) := s.enter (15 + u) pkt
        -- the hub's own engine reads the cells too
        let own (line : Out) : State := let (b, s) := s.readCells b ecc; (s.freeCells b.q b.banks).out line
        match s.decode slot pkt with
        | .root => own (.line "ROOT_PACKET" [u.val])
        | .pen k m => if m = s.member then own (.line "PEN_PACKET" [slot, k]) else s.readSend slot m (0x40 + k) ecc b
        | .stall m n => if m = s.member then s.pushEgress n b else s.readSend slot m n ecc b
        | .discard => s.dropAt (15 + u) b

/-- DOWNSTREAM_PACKET (R101, R107, R187). -/
def execDownstreamPacket (u : Fin 2) (pkt : SsPacket) (ecc : Fin 3) (s : State) : Res :=
  .next (s.downstreamPacket u pkt ecc)

/-- A packet goes up to the host of a slot (R102): through this chip's upstream port, or to the home member. -/
def State.sendUp (s : State) (slot ecc : Nat) (b : Buf) : State :=
  match s.homeOf slot with
  | none => s.freeCells b.q b.banks
  | some (m, u) => if m = s.member then s.pushEgress (15 + u) b else s.readSend slot m (0x20 + slot) ecc b

/-- UPSTREAM_PACKET (R95, R102, R107, R125): a Function Wake is held while the upstream link is not in U0. -/
def execUpstreamPacket (n : Stall) (pkt : SsPacket) (ecc : Fin 3) (s : State) : Res :=
  .next (match s.holderOf n with
    | none => s
    | some slot =>
      if !s.canEnter n pkt then s
      else
        let (b, s) := (s.packetAt n).enter n pkt
        let s := s.when (pkt.wake && (s.upKnown slot).link ≠ 0) fun s => s.p (SSH_PORT_LPM.FW_HELD n) 1
        s.sendUp slot ecc b)

/-! ## Egress by link state (R105 to R107) -/

/-- A packet leaves on a port's link: its cells are freed (R107, R324). -/
def State.sendOut (s : State) (n : Nat) (b : Buf) : State :=
  let s := ((s.freeCells b.q b.banks).out (.ssPacket n b.pkt)).pmu (if b.pkt.data then 0x03 else 0x02) n
  let s := s.when (n ≤ 14) fun s => s.packetAt n
  s.when (n ≥ 15 && b.pkt.wake) fun s => s.each (List.range 15) fun k s =>
    s.when ((s.holderOf k).isSome && s.holderOf k = s.slotOf (n - 15)) fun s => s.p (SSH_PORT_LPM.FW_HELD k) 0

/-- The deferral of R105: the Deferred copy returns to the host, the packet waits as its header alone. -/
def State.defer (s : State) (n : Nat) (b : Buf) : Buf × State :=
  let pkt := { b.pkt with deferred := true, body := [] }
  let s := (((s.freeCells b.q b.banks).incSat SSH_DROPS.DEFER).hw (SSH_PORT_EVT.DEFER n)).pmu 0x04 n
  let s := s.out (.line "U0_EXIT" [n])
  let b' : Buf := { pkt := pkt, q := b.q, banks := [], held := true }
  (b', match s.holderOf n with
    | some slot => s.sendUp slot 0 { b' with held := false }
    | none => s)

/-- The packet at the head of a port's egress queue: the first one not already held. -/
def State.headOf (s : State) (n : Nat) : Option Buf := (s.egress n).find? fun b => !b.held

/-- What becomes of the packet at the head of a port's egress queue (R105). -/
def State.egressHead (s : State) (n : Nat) (ecc : Nat) : State :=
  let l := s.egress n
  let front := l.takeWhile (·.held)
  match l.drop front.length with
  | [] => s
  | b :: t =>
    let (b, s) := s.readCells b ecc
    let rest (s : State) : State := s.setEgress n (front ++ t)
    let hold (s : State) : State :=
      if front.length < 4 then s.setEgress n (front ++ { b with held := true } :: t) else s
    match s.g (SSH_PORT.LINK n) with
    | 0 => (rest s).sendOut n b
    | 1 | 2 =>
      if n ≥ 15 then (hold s).out (.line "U0_EXIT" [n])
      else if b.pkt.iso then (rest s).dropAt n b
      else
        let (b', s) := s.defer n b
        s.setEgress n (front ++ b' :: (s.egress n).drop (front.length + 1))
    | 8 => hold s
    | 3 => if n ≥ 15 && b.pkt.wake then hold s else (rest s).dropAt n b
    | _ => (rest s).dropAt n b

/-! ### The order of cell reads (R112) -/

/-- Does the head of a port's queue wait for cell reads, and in which class: 0 no read, 1 isochronous ahead of the rest, 2 the
rest? Control bales, the first class, are sent before any packet (R180). -/
def State.readClass (s : State) (n : Nat) : Nat :=
  match s.headOf n with
  | none => 0
  | some b =>
    if b.banks.isEmpty || s.g (SSH_PORT.LINK n) ≠ 0 then 0 else if b.pkt.iso && s.on PBF_X_ARB.ISO_FIRST then 1 else 2

/-- The weight of an egress port: its trained payload rate in 10 Mb/s (R113), or 1 with EQUAL_WEIGHT. -/
def State.readWeight (s : State) (n : Nat) : Nat :=
  if s.on PBF_X_ARB.EQUAL_WEIGHT then 1
  else match s.g (SSH_PORT.RATE n) with
    | 2 => 800
    | 3 => 970
    | 4 => 1939
    | _ => 400

/-- The next port of the round robin among those that wait: each gains its weight, the one with the most credit is read and pays
the sum of the weights (DESIGN CHOICE, log entry 140). -/
def State.wrrPick (s : State) (ns : List Nat) : Nat × State :=
  let gain (n : Nat) : Int := vat s.ss.wrr n + s.readWeight n
  let n := ns.foldl (fun a n => if gain n > gain a then n else a) (ns.headD 0)
  let total : Int := (ns.map s.readWeight).sum
  let v := ns.foldl (fun v k => vset v k (gain k)) s.ss.wrr
  (n, s.withSs { s.ss with wrr := vset v n (gain n - total) })

/-- Heads whose EGRESS_QUEUE_HEAD waits in this cycle behind the present one, with their ECC (log entry 9). -/
def State.headsAhead (s : State) : List (Nat × Nat) :=
  s.pending.filterMap fun c => match c with
    | .egressQueueHead n e => some (n.val, e.val)
    | _ => none

/-- Heads of this cycle passed over so far. -/
def State.headsPassed (s : State) : List (Nat × Nat) :=
  s.marks.filterMap fun k => match k with
    | .headWaits n e => some (n, e)
    | _ => none

/-- The head of port n comes. Among all heads of this cycle that need cell reads, the classes of R112 decide which is read now;
the others are read by the commands that follow. -/
def State.readNext (s : State) (n ecc : Nat) : State :=
  let early := s.marks.contains (.headRead n)
  if s.readClass n = 0 && !early then s.egressHead n ecc
  else
    let s0 := s.unmark (.headRead n)
    let passed := s.headsPassed
    let here := if early then [] else [(n, ecc)]
    let ahead := s.headsAhead.filter fun x => !s0.marks.contains (.headRead x.1)
    let pool := (passed ++ here ++ ahead).filter fun x => s.readClass x.1 ≠ 0
    match pool with
    | [] => s0
    | h :: _ =>
      let (x, s) : (Nat × Nat) × State := match pool.find? fun x => s0.readClass x.1 = 1 with
        | some x => (x, s0)
        | none =>
          let (k, s) := s0.wrrPick (pool.map (·.1))
          ((pool.find? fun x => x.1 = k).getD h, s)
      let s := if passed.contains x then s.unmark (.headWaits x.1 x.2) else s
      let s := s.when (!early && x ≠ (n, ecc)) fun s => s.mark (.headWaits n ecc)
      let s := s.when (!passed.contains x && x ≠ (n, ecc)) fun s => s.mark (.headRead x.1)
      s.egressHead x.1 x.2

/-- EGRESS_QUEUE_HEAD (R105, R107, R112): `ecc` 1 a corrected, 2 a double-bit error of a cell read. -/
def execEgressQueueHead (n : Channel) (ecc : Fin 3) (s : State) : Res :=
  .next (s.when s.ssOn fun s => s.readNext n ecc)

/-- Held packets are sent on return to U0 (R105, R125). -/
def State.sendHeld (s : State) (n : Nat) : State :=
  let l := s.egress n
  let s := s.setEgress n (l.filter fun b => !b.held)
  (l.filter (·.held)).foldl (fun s b => s.sendOut n { b with held := false }) s

/-- Is a lane of a port lost (R127)? -/
def State.laneLost (s : State) (n : Nat) (upper : Bool) : Bool := s.g (STL_LANE.STATE (laneIx n upper)) = 4

/-- The rate a port trains at, no higher than what it may (R113, R114, R127): a stall's SS_MODE, an upstream port's lanes for
USB; two lanes only where neither is lost. -/
def State.rateCap (s : State) (n rate : Nat) : Nat :=
  let lost := s.laneLost n false || s.laneLost n true
  let mode := ((s.stallE n).map (·.ssMode)).getD 0
  let two := if n ≤ 14 then n = 14 && mode = 3 else usbLanes (s.g (TCP_DP.PINS (n - 15))) = 2 && !lost
  let gen2 := n ≥ 15 || mode ≥ 2
  let r := if two && (n ≥ 15 || rate ≠ 2) then rate else if rate = 4 then 3 else if rate = 2 then 1 else rate
  if gen2 then max 1 r else 1

/-- PORT_U0_REACHED (R105, R113, R125): the trained rate counts when the link has trained. A lane of an upstream port that was
lost stays so. -/
def execPortU0Reached (n : Channel) (rate : Fin 5) (s : State) : Res :=
  .next (
    let st := s.g (SSH_PORT.LINK n)
    if !s.domOn dHUB || !([1, 2, 3, 7, 8, 9].contains st) then s
    else
      let s := s.when (st = 7) fun s =>
        let s := s.p (SSH_PORT.RATE n) (s.rateCap n rate)
        s.when (n ≤ 14) fun s => (s.p (STL_LANE.STATE (laneIx n false)) 0).p (STL_LANE.STATE (laneIx n true)) 0
      let s := s.ssLink n 0
      let s := s.when (n ≤ 14 && bitOf (vat s.port n).ss 4) fun s => s.mirLocal n fun q =>
        { q with ss := clrBits q.ss 0x10, ssChg := orBits q.ssChg (if st = 9 then 0x10 else 0x30) }
      let s := s.when (n ≥ 15) fun s =>
        let u := n.val - 15
        let s := s.withSs { s.ss with exiting := vset s.ss.exiting u false }
        (s.when (s.g (UPP_PADDOCK.STATE u) = 2) fun s => s.p (UPP_PADDOCK.STATE u) 3).upJudge u
      s.sendHeld n)

/-- RECOVERY_HOLD_EXPIRE (R105): the port has not returned to U0, whatever its link went on to. -/
def execRecoveryHoldExpire (n : Channel) (s : State) : Res :=
  .next (s.when (s.g (SSH_PORT.LINK n) ≥ 4) fun s =>
    let l := s.egress n
    let s := s.setEgress n (l.filter fun b => !b.held)
    (l.filter (·.held)).foldl (fun s b => s.dropAt n b) s)

/-! ## Credits (R111) -/

/-- HEADER_CREDIT_RETURN (R111): a header buffer of the port empties. -/
def execHeaderCreditReturn (n : Channel) (s : State) : Res :=
  .next (
    let h := s.g (SSH_PORT.HP_IN n)
    if h = 0 then s
    else
      let s := s.p (SSH_PORT.HP_IN n) (h - 1)
      if s.creditOk n then s.out (.line "HEADER_CREDIT" [n.val, 1])
      else ((s.hw PBF_EVT.HOLD).withSs { s.ss with withheld := vmod s.ss.withheld n (· + 1) }))

/-- CREDIT_RELEASE (R111): queue q can take packets again; what was withheld is returned. -/
def execCreditRelease (q : Fin 21) (s : State) : Res :=
  .next (
    if !s.creditOk q then s
    else if q.val < 17 then
      let w := vat s.ss.withheld q
      if w = 0 then s
      else ((s.out (.line "HEADER_CREDIT" [q.val, w])).withSs { s.ss with withheld := vset s.ss.withheld q 0 })
    else if (s.lk (q - 17)).owedD = 0 then s
    else s.linkBale (q - 17) "NOP" [])

/-! ## Link power management (R106, R120, R121) -/

/-- Has a port a packet in its egress queue, one that enters in this cycle counted (R106)? -/
def State.egressBusy (s : State) (n : Nat) : Bool :=
  !(s.egress n).isEmpty || !((s.pending.foldl (fun s c => match c with
    | .downstreamPacket u p e => s.downstreamPacket u p e
    | .dataBaleReceived k h p x e => s.dataBaleReceived k h p x e
    | _ => s) s).egress n).isEmpty

/-- Does a port accept a device's LGO (R106, R120, R162)? -/
def State.acceptsLgo (s : State) (n : Nat) (u2 : Bool) : Bool :=
  let t1 := s.g (SSH_PORT_LPM.U1_TIMEOUT n)
  let allowed := if u2 then s.g (SSH_PORT_LPM.U2_TIMEOUT n) ≠ 0 else t1 ≠ 0 && !(0x80 ≤ t1 && t1 ≤ 0xFE)
  !s.egressBusy n && ((vat s.port n).forceLpm || allowed)

/-- The link states an LGO starts from. -/
def State.lpmFrom (s : State) (n : Nat) (u2 : Bool) : Bool :=
  s.g (SSH_PORT.LINK n) = 0 || (u2 && s.g (SSH_PORT.LINK n) = 1)

/-- LGO_RECEIVED (R106, R120). -/
def execLgoReceived (n : Stall) (u2 : Bool) (s : State) : Res :=
  .next (
    if !s.lpmFrom n u2 then s
    else if s.acceptsLgo n u2 then (s.out (.line "LAU" [n.val])).ssLink n (if u2 then 2 else 1)
    else s.out (.line "LXU" [n.val]))

/-- LPM_INACTIVITY_TIMEOUT (R106, R120); `accepted` says that the device takes the LGO. From U1 the port goes to U2 directly. -/
def execLpmInactivityTimeout (n : Stall) (u2 accepted : Bool) (s : State) : Res :=
  .next (
    let t := s.g (if u2 then SSH_PORT_LPM.U2_TIMEOUT n else SSH_PORT_LPM.U1_TIMEOUT n)
    let may := 1 ≤ t && t ≤ (if u2 then 0xFE else 0x7F)
    if !s.lpmFrom n u2 || !may || s.egressBusy n then s
    else if s.g (SSH_PORT.LINK n) = 1 then s.ssLink n 2
    else
      let s := s.out (.line (if u2 then "LGO_U2" else "LGO_U1") [n.val])
      s.when accepted fun s => s.ssLink n (if u2 then 2 else 1))

/-- Is every SS port of a paddock in U1 (or U2) or deeper, or not in U0 at all, by its mirrored link state (R121)? -/
def State.paddockDeep (s : State) (slot : Nat) (u2 : Bool) : Bool :=
  let deep (st : Nat) : Bool := st ≠ 0 && !(u2 && st = 1)
  (s.mirror.all fun q => q.slot ≠ slot || q.kind ≠ 1 || !bitOf q.st.ss 0 || deep (bitsOf q.st.ss 5 4))
    && (s.heldStalls slot).all fun n => deep (s.g (SSH_PORT.LINK n))

/-- USP_LPM_INITIATE (R121), with the host's answer. -/
def execUspLpmInitiate (u : Fin 2) (u2 accepted : Bool) (s : State) : Res :=
  .next (match s.slotOf u with
    | none => s
    | some slot =>
      let en := s.on (if u2 then SSH_USP_LPM.U2_ENABLE u else SSH_USP_LPM.U1_ENABLE u)
      if !en || !s.lpmFrom (15 + u) u2 || !(s.egress (15 + u)).isEmpty || !s.paddockDeep slot u2 then s
      else
        let s := s.out (.line (if u2 then "LGO_U2" else "LGO_U1") [15 + u.val])
        s.when accepted fun s => s.ssLink (15 + u) (if u2 then 2 else 1))

/-- USP_LGO_RECEIVED (R121). -/
def execUspLgoReceived (u : Fin 2) (u2 : Bool) (s : State) : Res :=
  .next (
    if !s.lpmFrom (15 + u) u2 then s
    else if (s.egress (15 + u)).isEmpty then (s.out (.line "LAU" [15 + u.val])).ssLink (15 + u) (if u2 then 2 else 1)
    else s.out (.line "LXU" [15 + u.val]))

/-- LFPS_DETECTED (R122, R267): on lane i of STL_LANE; the lane's domain and HUB are raised. -/
def execLfpsDetected (i : Fin 20) (s : State) : Res :=
  .next (s.each [laneDom i, dHUB] fun d s => s.when (!s.domOn d) fun s => s.activity d)

/-! ## Suspend and wake (R124 to R127) -/

/-- Does the host resume a stall's port in this same cycle, behind the present command (R126)? -/
def State.resumeAhead (s : State) (n : Nat) : Bool := s.ahead fun c => match c with
  | .setPortLinkState y h p v => v.val = 0 && (s.posOf n).any fun (x : Nat × Pos × Nat) =>
      x.1 = y.val && x.2.1.hub = h.val && x.2.1.port = p.val
  | .orderReceived _ _ k _ act => k.val = n && act == .linkState 0
  | _ => false

/-- DEVICE_U3_EXIT (R105, R125): the handshake on the stall port completes; what the port held leaves, and the home member is told
to wake the host. One that meets the host's resume of the port counts as the host's (R126). -/
def execDeviceU3Exit (n : Stall) (s : State) : Res :=
  .next (s.when (s.g (SSH_PORT.LINK n) = 3 && !s.resumeAhead n) fun s =>
    let s := ((s.ssLink n 0).hw (SSH_PORT_EVT.WAKE n)).mirLocal n fun q => { q with ssChg := orBits q.ssChg 0x40 }
    (s.sendHeld n).ssWake n)

/-- HOST_U3_EXIT (R126): the host's LFPS; the home member drives no exit of its own. -/
def execHostU3Exit (u : Fin 2) (s : State) : Res :=
  .next (s.when (s.g (SSH_PORT.LINK (15 + u)) = 3) fun s =>
    ((s.ssLink (15 + u) 8).withSs { s.ss with exiting := vset s.ss.exiting u false }))

/-- SS_LANE_LOST (R127, R328): the upper lane of a port is the second of a x2 link. -/
def execSsLaneLost (n : Channel) (upper : Bool) (s : State) : Res :=
  .next (s.when ([0, 1, 2, 3, 7, 8, 9].contains (s.g (SSH_PORT.LINK n))) fun s =>
    let s := s.withSs { s.ss with linkErr := vmod s.ss.linkErr n fun x => min 65535 (x + 1) }
    ((s.ssLink n 6).p (STL_LANE.STATE (laneIx n upper)) 4).hw (SSH_PORT_EVT.INACTIVE n)
      |>.raise (if n.val ≤ 14 then 34 else 35) (portCode n))

/-- RX_DETECT_PARTNER_FOUND (R97): training begins, and the predictor's history restarts. An upstream link in SS.Inactive comes
here by its host's warm reset (R127). -/
def execRxDetectPartnerFound (n : Channel) (s : State) : Res :=
  .next (s.when (s.g (SSH_PORT.LINK n) = 5 || (n.val ≥ 15 && s.g (SSH_PORT.LINK n) = 6)) fun s => (s.ssLink n 7).restartHistory n)

/-! ## Timestamps (R118, R119) -/

/-- ITP_NOTICE (R118): regeneration by the PROXY context; a copy still short of the host's interval gives the delta 0. A notice
that yields no ITP counts once in SKIPPED, however many stalls it would have served; each ITP sent counts in SENT (DESIGN CHOICE,
log entry 160). -/
def execItpNotice (c : CtrlHdr) (slot : Fin 4) (bic : Fin 16384) (s : State) : Res :=
  .next (s.rxCtrl c "ITP_NOTICE" [slot.val, bic.val] fun s =>
    let ns := (s.heldStalls slot).filter fun n => s.g (SSH_PORT.LINK n) = 0
    if !s.on SSH_X_TUNE.ITP_REGEN || !s.on SSH_CTRL.ITP_EN || ns.isEmpty then s
    else
      let y := vat s.yards slot
      let past := (y.iv + 16384 - bic.val) % 16384
      if s.on (YRD_STATUS.STALE slot) || s.g (YRD_STATUS.STATE slot) ≠ 2 || (1 ≤ past && past < 8192) then
        s.incSat SSH_ITP_REGEN.SKIPPED
      else
        let delta := if past = 0 then (y.tick * 3 + 5) / 10 else 0
        s.each ns fun n s => (s.inc SSH_ITP_REGEN.SENT).out (.line "ITP" [n, bic.val, delta, 0]))

/-- LDM_EXCHANGE (R119): at an upstream port the measured delay in ns, `none` when the exchange fails; a stall port answers its
device's request as responder. -/
def execLdmExchange (n : Channel) (result : Option Nat) (s : State) : Res :=
  .next (
    let u := n.val - 15
    if s.g (SSH_PORT.LINK n) ≠ 0 || !s.on SSH_CTRL.LDM_EN then s
    else if n.val ≤ 14 then s.out (.line "LDM_RESPONSE" [n.val])
    else if !s.on (SSH_USP_LPM.LDM_ENABLE u) then s
    else match result with
      | none => s.hw (SSH_PORT_EVT.LDM_FAIL n)
      | some d =>
        let l := (d :: vat s.ss.ldm u).take 8
        let s := s.withSs { s.ss with ldm := vset s.ss.ldm u l }
        (s.p (SSH_PTM.DELAY u) (min 65535 (medianOf l))).p (SSH_PTM.VALID u) 1)

/-! ## Width change (R115, R220) -/

/-- Packets queued to or from an upstream port are discarded (R115), those that wait for a Ghelys link too; those under way to
other members are discarded there, whose stalls stand in SS.Disabled by then. -/
def State.dropUpstream (s : State) (u : Nat) : State :=
  let s := s.dropUnsent (15 + u) fun r => r.undel.any fun x => x.2.1 = 15 + u
  let l := s.egress (15 + u)
  let s := l.foldl (fun s b => s.dropAt (15 + u) b) (s.setEgress (15 + u) [])
  let ws := s.fab.waits.filter fun w => w.2.2.2.q = 15 + u
  let s := ws.foldl (fun s w => s.dropAt (15 + u) w.2.2.2) (s.fabMod fun f => { f with waits := f.waits.filter fun w => w.2.2.2.q ≠ 15 + u })
  s.each (List.range 15) fun n s =>
    let mine := (s.egress n).filter fun b => b.q = 15 + u
    mine.foldl (fun s b => s.dropAt n b) (s.setEgress n ((s.egress n).filter fun b => b.q ≠ 15 + u))

end Sys2Proof.Machine
end

