-- ==== Sys2Proof/Machine/Tt.lean ====
section
/-!
DEFINITION. Transaction translators (R145 to R150 of spec/06_usb2_hub_and_translators.md).
-/
namespace Sys2Proof.Machine

/-- The TT of a stall. -/
def State.tt' (s : State) (n : Nat) : TtS := vat s.tt n

/-- TTA_TT follows the TT (R145, R146). -/
def State.ttShow (s : State) (n : Nat) : State :=
  let t := s.tt' n
  let st := if t.stopped then 2 else if t.held then 3 else if t.per.isEmpty && t.np.isEmpty && t.cur.isNone then 0 else 1
  let s := (s.p (TTA_TT.PER_USED n) (min 32 t.per.length)).p (TTA_TT.NP_USED n) t.np.length
  (s.p (TTA_TT.STATE n) st).linkJudge dHSB

/-- Change the TT of a stall. -/
def State.ttMod (s : State) (n : Nat) (f : TtS → TtS) : State := ((s.withTt (vmod s.tt n f))).ttShow n

/-- The longest a non-periodic transaction can last, in ticks, by the bus transaction times of USB 2.0 (PRESUMED, log entry
143): `bytes` of data with bit stuffing; an IN transaction may bring a whole packet. -/
def npTicks (low dirIn : Bool) (bytes : Nat) : Nat :=
  let n := if dirIn then (if low then 8 else 64) else bytes
  let bits := 4 + 28 * n / 3
  if low then (64107 + 677 * bits) / 5 else (9107 + 84 * bits) / 5

/-- The TT's frame has ticks left for a non-periodic transaction before its EOF point, 32 full-speed bit times before the end
(R149, log entry 143): the place in the frame is TTA_TT.UFRAME and the slot's yard. -/
def State.npFits (s : State) (n : Nat) (b : TtBuf) : Bool :=
  decide (s.g (TTA_TT.UFRAME n) * 25000 + (vat s.yards (s.stallYard n)).tick
    + npTicks (s.g (HSH_PORT.SPEED n) = 1) b.dirIn b.data.length + 533 ≤ 200000)

/-- The next transaction starts when the bus is free (R148, R149): periodic ones received before the last boundary first, in
order; a non-periodic one only while no periodic one is pending, and only if it fits into the frame. None starts past the frame's
EOF point. A TT that was stopped runs again from the boundary after its START (R150). -/
def TtS.next (t : TtS) (fits : TtBuf → Bool) : TtS :=
  if t.stopped || t.eof || t.cur.isSome || t.bound < t.start then t
  else match t.per.find? fun b => b.ans.isNone with
    | some b => if b.bound < t.bound && !t.held then { t with cur := some true } else t
    | none => match t.np.find? fun b => b.ans.isNone with
      | some b => if fits b then { t with cur := some false } else t
      | none => t

/-- Is the TT running for its stall: TTA_CTRL, the stall's chip holds the stall (R145), and its root is not connected at full speed
(R130)? -/
def State.ttOn (s : State) (n : Nat) : Bool :=
  s.domOn dHSB && s.on TTA_CTRL.ENABLE && s.typ n ≠ 0 && !(s.holderOf n).any fun y => (s.upKnown y).fs

/-- A microframe boundary (R146, R147): its number within the frame, and at the start of a frame the full-speed SOF. -/
def State.ttBoundary (s : State) (n uframe frame : Nat) : State :=
  let s := s.p (TTA_TT.UFRAME n) uframe
  let s := s.when (uframe = 0) fun s => s.out (.line "FS_SOF" [n, frame])
  s.ttMod n fun t => { t with bound := t.bound + 1, eof := false }.next (s.npFits n)

/-- Is a command a SOF at stall n? -/
def sofOf (n : Nat) : Instr → Bool
  | .ttSof m _ => m.val = n
  | _ => false

/-- TT_SOF (R146, R147): a SOF, with its frame number, at the stall's chip; the microframe number comes from the yard. -/
def execTtSof (n : Stall) (frame : Fin 2048) (s : State) : Res :=
  .next (s.when (s.ttOn n) fun s =>
    let s := s.ttMod n fun t => { t with noSof := 0, held := false, sofCycle := some s.cycle }
    s.ttBoundary n ((vat s.yards (s.stallYard n)).iv % 8) frame)

/-- SOF_FILL (R146): no SOF came; a SOF in this cycle, before or after, is used instead. The boundary is the yard copy's, or with the copy
STALE or not LOCKED 25,000 ticks of yard L after the last. -/
def execSofFill (n : Stall) (s : State) : Res :=
  .next (s.when (s.ttOn n && (s.tt' n).sofCycle ≠ some s.cycle && !s.ahead (sofOf n)) fun s =>
    let y := s.stallYard n
    let ok := !s.on (YRD_STATUS.STALE y) && s.g (YRD_STATUS.STATE y) = 2
    let uf := if ok then (vat s.yards y).iv % 8 else (s.g (TTA_TT.UFRAME n) + 1) % 8
    let s := (s.hw (TTA_EVT.SOF_FILL n)).incSat (TTA_COUNT.SOF_FILL n)
    let s := s.ttMod n fun t => { t with noSof := t.noSof + 1 }
    s.ttBoundary n uf ((vat s.yards y).iv / 8 % 2048))

/-- TT_PERIODIC_HOLD (R146): NOSOF_HOLD microframes without a SOF. -/
def execTtPeriodicHold (n : Stall) (s : State) : Res :=
  .next (s.when (s.ttOn n && decide ((s.tt' n).noSof ≥ s.g TTA_X_TUNE.NOSOF_HOLD) && !(s.tt' n).held) fun s =>
    (s.hw (TTA_EVT.PER_HELD n)).ttMod n fun t => { t with held := true })

/-- Does a command free this periodic buffer of stall n (R148)? -/
def freesPer (n : Nat) (b : TtBuf) : Instr → Bool
  | .periodicWindowEnd m dev ep d => m.val = n && b.dev = dev.val && b.ep = ep.val && b.dirIn = d
  | .completeSplit m p dev ep d _ => p && b.ans.isSome && m.val = n && b.dev = dev.val && b.ep = ep.val && b.dirIn = d
  | _ => false

/-- Periodic buffers of a stall that are taken and are not freed in this cycle (R148). -/
def State.perTaken (s : State) (n : Nat) : Nat := ((s.tt' n).per.filter fun b => !s.ahead (freesPer n b)).length

/-- PERIODIC_START_SPLIT (R148): stored, or discarded without handshake. A buffer freed in this cycle is available to it. -/
def execPeriodicStartSplit (n : Stall) (dev : Fin 128) (ep : Fin 16) (dirIn : Bool) (data : List (BitVec 8)) (s : State) : Res :=
  .next (s.when (s.ttOn n) fun s =>
    if s.perTaken n ≥ 32 || data.length > 188 then
      ((s.incSat (TTA_COUNT.PER_DROP n)).hw (TTA_EVT.PER_DROP n)).pmu 0x0D n
    else
      (s.ttMod n fun t => { t with per := t.per ++ [⟨dev, ep, false, dirIn, data, t.bound, none, false⟩] }).pmu 0x0C n)

/-- NONPERIODIC_START_SPLIT (R149): ACK into a free buffer unless one holds the same device, endpoint and direction. -/
def execNonperiodicStartSplit (n : Stall) (dev : Fin 128) (ep : Fin 16) (bulk dirIn : Bool) (data : List (BitVec 8))
    (s : State) : Res :=
  .next (s.when (s.ttOn n) fun s =>
    if (s.tt' n).np.length ≥ 4 || data.length > 64
        || (s.tt' n).np.any fun b => b.dev = dev.val && b.ep = ep.val && b.dirIn = dirIn then
      (s.hw (TTA_EVT.NP_NAK n)).out (.line "SPLIT_NAK" [n.val])
    else
      let f (t : TtS) : TtS := { t with np := t.np ++ [⟨dev, ep, bulk, dirIn, data, t.bound, none, false⟩] }
      (s.ttMod n fun t => (f t).next (s.npFits n)).out (.line "SPLIT_ACK" [n.val]))

/-- The bytes a complete-split returns: its handshake, or its data. -/
def answerLine (n : Nat) : TtAnswer → Out
  | .ack => .line "CSPLIT_ACK" [n]
  | .nak => .line "CSPLIT_NAK" [n]
  | .stall => .line "CSPLIT_STALL" [n]
  | .err => .line "CSPLIT_ERR" [n]
  | .data l => .line "CSPLIT_DATA" (n :: l.map (·.toNat))

/-- COMPLETE_SPLIT (R148, R149): the result, which frees the buffer; MDATA with the bytes received so far of a periodic
transaction still on the bus; otherwise NYET. -/
def execCompleteSplit (n : Stall) (periodic : Bool) (dev : Fin 128) (ep : Fin 16) (dirIn : Bool) (sofar : List (BitVec 8))
    (s : State) : Res :=
  .next (s.when (s.ttOn n) fun s =>
    let same (b : TtBuf) : Bool := b.dev = dev.val && b.ep = ep.val && b.dirIn = dirIn && !b.cancel
    let l := if periodic then (s.tt' n).per else (s.tt' n).np
    match l.find? same with
    | none => s.out (.line "CSPLIT_NYET" [n.val])
    | some b => match b.ans with
      | some a =>
        (s.ttMod n fun t => if periodic then { t with per := t.per.erase b } else { t with np := t.np.erase b }).out
          (answerLine n a)
      | none =>
        if periodic && !sofar.isEmpty then s.out (.line "CSPLIT_MDATA" (n.val :: sofar.map (·.toNat)))
        else s.out (.line "CSPLIT_NYET" [n.val]))

/-- Give the first buffer without a result its result; a cancelled one leaves instead (R150). -/
def endFirst (a : TtAnswer) : List TtBuf → List TtBuf
  | [] => []
  | b :: t => if b.ans.isSome then b :: endFirst a t else if b.cancel then t else { b with ans := some a } :: t

/-- The transaction on the bus ends, and the next may start. -/
def TtS.finish (t : TtS) (a : TtAnswer) (fits : TtBuf → Bool) : TtS :=
  match t.cur with
  | none => t
  | some true => { t with cur := none, per := endFirst a t.per }.next fits
  | some false => { t with cur := none, np := endFirst a t.np }.next fits

/-- TT_TRANSACTION_END (R149): its result is held. -/
def execTtTransactionEnd (n : Stall) (a : TtAnswer) (s : State) : Res :=
  .next (s.when (s.ttOn n) fun s => s.ttMod n fun t => t.finish a (s.npFits n))

/-- PERIODIC_WINDOW_END (R146, R148): the last microframe for a buffer's complete-splits ends, and it is freed. -/
def execPeriodicWindowEnd (n : Stall) (dev : Fin 128) (ep : Fin 16) (dirIn : Bool) (s : State) : Res :=
  .next (s.when (s.ttOn n) fun s =>
    match (s.tt' n).per.find? fun b => b.dev = dev.val && b.ep = ep.val && b.dirIn = dirIn with
    | none => s
    | some b =>
      let onBus := (s.tt' n).cur = some true && (s.tt' n).per.find? (fun b => b.ans.isNone) = some b
      s.ttMod n fun t => { t with per := t.per.erase b, cur := if onBus then none else t.cur }.next (s.npFits n))

/-- TT_EOF (R148): the frame's EOF point; a periodic transaction still on the bus is ended, and none starts before the frame does. -/
def execTtEof (n : Stall) (s : State) : Res :=
  .next (s.when (s.ttOn n) fun s =>
    let s := s.ttMod n fun t => { t with eof := true }
    s.when ((s.tt' n).cur = some true) fun s => (s.hw (TTA_EVT.LATE n)).ttMod n fun t => t.finish .err (s.npFits n))

/-! ## Operations on a TT (R144, R150) -/

/-- Is the TT sending to its device: an OUT transaction is on the bus (log entry 143)? -/
def TtS.sending (t : TtS) : Bool :=
  match t.cur with
  | none => false
  | some p => ((if p then t.per else t.np).find? fun b => b.ans.isNone).any fun b => !b.dirIn

/-- RESET_TT: a packet being sent ends with a forced bit-stuff error and EOP, every buffer is emptied, the TT idle; a stopped TT
runs again (R150, R162). -/
def State.ttReset (s : State) (n : Nat) : State :=
  let s := s.when (s.tt' n).sending fun s => s.out (.line "BIT_STUFF_EOP" [n])
  (s.hw (TTA_EVT.RESET n)).ttMod n fun t =>
    { t with per := [], np := [], cur := none, stopped := false, held := false, noSof := 0, start := 0 }

/-- CLEAR_BUFFER: true when it is done at once; a transaction on the bus completes first and its result is discarded. -/
def State.ttClear (s : State) (n dev ep : Nat) (bulk dirIn : Bool) : Bool × State :=
  let t := s.tt' n
  let same (b : TtBuf) : Bool := b.dev = dev && b.ep = ep && b.bulk = bulk && b.dirIn = dirIn
  match t.np.find? same with
  | none => (true, s.hw (TTA_EVT.CLEARED n))
  | some b =>
    if t.cur = some false && t.np.find? (fun b => b.ans.isNone) = some b then
      (false, s.ttMod n fun t => { t with np := t.np.map fun x => if same x then { x with cancel := true } else x })
    else (true, (s.hw (TTA_EVT.CLEARED n)).ttMod n fun t => { t with np := t.np.erase b })

/-- STOP_TT: true when no transaction is on the bus. -/
def State.ttStop (s : State) (n : Nat) : Bool × State :=
  ((s.tt' n).cur.isNone, s.ttMod n fun t => { t with stopped := true })

/-- START: the TT runs again from the next boundary. -/
def State.ttStart (s : State) (n : Nat) : State := s.ttMod n fun t =>
  if t.stopped then { t with stopped := false, start := t.bound + 1 } else t

/-- A write of TTA_CMD with an operation (R150); dropped while BUSY. `w` is the word written. -/
def State.ttCommand (s : State) (w : Word) : State :=
  if s.on TTA_CMD.BUSY then s
  else
    let n := getBits w 0 4
    let op := getBits w 4 3
    let s := ((((s.p TTA_CMD.STALL n).p TTA_CMD.DEV (getBits w 8 7)).p TTA_CMD.EP (getBits w 16 4)).p TTA_CMD.DIR
      (getBits w 20 1)).p TTA_CMD.TYPE (getBits w 21 2)
    let fin (r : Bool × State) : State :=
      if r.1 then r.2.hw TTA_CMD.DONE else ((r.2.p TTA_CMD.BUSY 1).withTtOp op)
    if n = 15 then s
    else match op with
      | 1 =>
        let typ := getBits w 21 2
        if typ = 0 ∨ typ = 2 then fin (s.ttClear n (getBits w 8 7) (getBits w 16 4) (typ = 2) (getBits w 20 1 = 1)) else s
      | 2 => (s.ttReset n).hw TTA_CMD.DONE
      | 3 => fin (s.ttStop n)
      | 4 => (s.ttStart n).hw TTA_CMD.DONE
      | _ => s

/-- The operation that waits for its transaction completes, once the transaction has ended. -/
def State.ttaOpDone (s : State) : State :=
  let n := s.g TTA_CMD.STALL
  if !s.on TTA_CMD.BUSY then s
  else if (s.tt' n).cur.isSome && (s.ttOp ≠ 1 || (s.tt' n).np.any (·.cancel)) then s
  else
    let s := s.when (s.ttOp = 1) fun s => s.hw (TTA_EVT.CLEARED n)
    (((s.p TTA_CMD.BUSY 0).hw TTA_CMD.DONE).withTtOp 0)

end Sys2Proof.Machine
end

