-- ==== Sys2Proof/Machine/Usb2.lean ====
section
/-!
DEFINITION. USB 2.0 engines, bus-state orders, suspend, resume, wake, L1, carry and BC 1.2 (R128 to R144, R151, R152 of
spec/06_usb2_hub_and_translators.md), and what the chip that holds a port does at its answering member's request (R162,
R163).
-/
namespace Sys2Proof.Machine

/-- Engines repeat and carry out orders (HSH_CTRL). -/
def State.hsOn (s : State) : Bool := s.domOn dHSB && s.on HSH_CTRL.ENABLE

/-- The engine of this chip that serves a stall (HSH_PORT.ENGINE). -/
def State.engineOf (s : State) (n : Nat) : Nat := s.g (HSH_PORT.ENGINE n)

/-- The engine of this chip that serves one bus of a slot: the root bus (hub 0) or a pen's (R128). -/
def State.busEngine (s : State) (slot hub : Nat) : Option Nat :=
  (s.slotEngines slot).find? fun e => s.g (HSH_ENG.PEN e) = (if hub = 0 then 0xF else hub - 1)

/-- Change the hidden state of the HS engines and ports. -/
def State.hsMod (s : State) (f : HsS → HsS) : State := (s.withHs (f s.hs))

/-- Is the bus of a stall's engine or relay suspended, or being resumed (R139, R140)? -/
def State.busSusp (s : State) (n : Nat) : Bool := [4, 5].contains (s.g (HSH_ENG.STATE (s.engineOf n)))

/-- Members that have part in a slot's buses: those of its positions, held stalls and pens' engines (R135, R138, R144). -/
def State.slotMembers (s : State) (slot : Nat) : List Nat :=
  let pens := ((s.plan.paddock? slot).map fun r => r.pens.map (·.engine)).getD []
  let pos := ((s.plan.paddock? slot).map fun r => r.positions.map (·.member)).getD []
  let held := (s.holders.filter fun h => h.slot = slot).map (·.member)
  (List.range 8).filter fun m => m = s.member || pens.contains m || pos.contains m || held.contains m

/-! ## Positions as the host reads them (R155) -/

/-- A position in the mirror. -/
def State.mir (s : State) (slot hub port : Nat) : Option MirPos :=
  s.mirror.find? fun q => q.slot = slot && q.hub = hub && q.port = port

/-- Is the USB 2.0 path of a position withheld (R129 to R131)? -/
def State.withheldHs (s : State) (q : MirPos) : Bool :=
  q.via = 8 || (q.via ≤ 3 && s.g (HSH_CARRY.STATE q.via) ≠ 1) || (q.via ≠ 9 && (s.upKnown q.slot).fs)
    || (q.kind = 2 && s.hs.penCut.contains (q.slot, q.stall))

/-- A pen's position as its virtual link stands (R103): U0 while the upstream link is in U0, U1 or U2, U3 while that is in U3 or
the host has suspended the position. -/
def State.penLink (s : State) (q : MirPos) : PortStat :=
  let l := (s.upKnown q.slot).link
  if !bitOf q.st.ss 0 || bitsOf q.st.ss 5 4 = 3 then q.st
  else if l = 3 then { q.st with ss := orBits (clrBits q.st.ss 0x1E0) 0x60 }
  else if l ≤ 2 then { q.st with ss := clrBits q.st.ss 0x1E0 } else q.st

/-- Status and change words of both sides as the host reads them (R155); in LIFELINE a position without a LIFE stall of this
member reads as kind 0 (R357). -/
def State.shown (s : State) (q : MirPos) : PortStat :=
  let none_ : PortStat := { q.st with hs := q.st.hs &&& 0x108, ss := (q.st.ss &&& 0x208) ||| 0xA0 }
  let noSs (v : PortStat) : PortStat := { v with ss := (v.ss &&& 0x208) ||| 0xA0 }
  let ssMode := ((s.plan.stalls.find? fun e => e.member = q.member && e.stall = q.stall).map (·.ssMode)).getD 0
  let kind := if s.mode = 1 && !(q.kind = 1 && q.member = s.member && s.lifeStall q.stall) then 0 else q.kind
  match kind with
  | 0 => none_
  | 1 =>
    if !s.heldBy q then none_
    else if !q.reach then { none_ with hsChg := q.st.hsChg, ssChg := q.st.ssChg }
    else
      let v := if ssMode = 0 then noSs q.st else q.st
      if s.withheldHs q then { v with hs := v.hs &&& 0x108 } else v
  | 2 =>
    let v := s.penLink q
    if s.withheldHs q || !q.reach then { v with hs := v.hs &&& 0x108 } else v
  | _ => { q.st with ss := (q.st.ss &&& 0x208) ||| 0xA0 }

/-! ## Power of a position (R163) -/

/-- Every bit of a port's status is 0, with SS.Disabled, and no change is reported: its power is off. -/
def PortStat.unpowered (q : PortStat) : PortStat :=
  { q with hs := q.hs &&& 0x108, ss := (q.ss &&& 0x208) ||| 0x80 }

/-- The data sides of a stall go to Powered-off (R163). -/
def State.dataPowerOff (s : State) (n : Nat) : State :=
  let s := s.mirLocal n PortStat.unpowered
  let s := ((s.ssLink n 4).hsState n 0).patIdle n
  ((s.p (HSH_PORT.CONNECT n) 0).p (HSH_PORT.SPEED n) 0).hsMod fun h =>
    { h with orders := h.orders.filter fun o => o.n ≠ n, gsusp := vset h.gsusp n false, waking := vset h.waking n false }

/-- The data sides of a stall start: Disconnected, and Rx.Detect where the plan gives it an SS side (R155, R163). -/
def State.dataPowerOn (s : State) (n : Nat) : State :=
  let s := s.when (s.g (HSH_PORT.STATE n) = 0) fun s => s.hsState n 1
  s.when (s.g (SSH_PORT.LINK n) = 4 && s.ssAllowed n) fun s => s.ssLink n 5

/-- A stall becomes powered (R163). -/
def State.powerOn (s : State) (n : Nat) : State :=
  match s.typ n with
  | 0 => s
  | 2 =>
    if s.g (TCP_PORT.STATE n) = 0 then s.toUnattached n
    else (s.when (s.on (TCP_PORT.DATA_ON n)) fun s => s.dataPowerOn n).tryRamp n
  | 3 => s.when (s.on (TCP_PORT.DATA_ON n)) fun s => s.dataPowerOn n
  | _ => if (s.ch n).gate then s.when (s.ch n).rampDone fun s => s.dataPowerOn n else s.tryRamp n

/-- A stall is powered off (R163, R399). -/
def State.powerOffPort (s : State) (n : Nat) : State :=
  match s.typ n with
  | 0 => s
  | 2 =>
    let s := s.dataPowerOff n
    if s.g (TCP_PORT.CONTRACT n) ≥ 2 then s else ((s.powerDown n).hw (TCP_EVT.DETACH n)).toUnattached n
  | 3 => s.dataPowerOff n
  | _ =>
    let s := s.dataPowerOff n
    if (s.ch n).defPower then s
    else (s.when (s.g (PPW_STATUS.STATE n) = 1) fun s => s.p (PPW_STATUS.STATE n) 0).switchOff n

/-- One side of a stall's position sets or clears PORT_POWER (R163, R164); the position is powered while either holds it. Set on
a side in SS.Disabled or Powered-off it starts that side again (R115, R144). -/
def State.sidePower (s : State) (n : Nat) (ss on : Bool) : State :=
  let was := (s.ch n).portPower
  let s := s.mirLocal n fun q =>
    if ss then { q with ss := if on then orBits q.ss 0x200 else clrBits q.ss 0x200 }
    else { q with hs := if on then orBits q.hs 0x100 else clrBits q.hs 0x100 }
  let now := bitOf (vat s.port n).hs 8 || bitOf (vat s.port n).ss 9
  let s := s.chMod n fun c => { c with portPower := now, ocHeld := c.ocHeld && !on }
  if now && (!was || (on && (if ss then s.g (SSH_PORT.LINK n) = 4 else s.g (HSH_PORT.STATE n) = 0))) then s.powerOn n
  else if was && !now then s.powerOffPort n else s

/-! ## Acts at the chip that holds a port -/

/-- Does an act carry a stamp (R135)? -/
def stamped : PortAct → Bool
  | .reset | .suspend | .resume | .busResumeStart | .busResumeEnd | .l1Exit | .test _ => true
  | _ => false

/-- Does the request of an act wait for the holding chip's report (R162)? -/
def waits : PortAct → Bool
  | .ttClear .. | .ttReset | .ttStop | .lpm .. | .queryExt | .queryErr => true
  | _ => false

/-- Is an act one on a TT, carried out through TTA_CMD (R150)? -/
def ttWord (n : Nat) : PortAct → Option Nat
  | .ttClear d e b i => some (n + 1 * 16 + d * 256 + e * 2^16 + b2n i * 2^20 + (if b then 2 else 0) * 2^21)
  | .ttReset => some (n + 2 * 16)
  | .ttStop => some (n + 3 * 16)
  | _ => none

/-- The report on a waiting request: at the answering member the data or status stage completes, elsewhere it goes there (R162).
Of an extended status the holding chip reports the rate and the lanes; status and changes are the mirror's (R19). -/
def State.finishWait (s : State) (w : HubWait) (words : List Nat) : State :=
  let s := s.withHubWaits (s.hubWaits.erase w)
  if w.owner = s.member then
    if words.isEmpty then s.out (.usbAck w.slot)
    else if w.act == .queryErr then s.hubData w.slot w.hub true (leBytes 2 (words.headD 0))
    else
      let v := if w.act == .queryExt then ((s.mir w.slot w.hub w.port).map s.shown).getD {} else {}
      s.hubData w.slot w.hub true (((if w.act == .queryExt then [v.ss, v.ssChg] else []) ++ words).flatMap fun x => leBytes 4 x)
  else s.ctrlTo w.owner "HUB_RESULT" ([w.slot, w.hub, w.port] ++ words)

/-- The next TT operation that waits is begun while TTA_CMD is free (R150, R162). -/
def State.runTtWaits : Nat → State → State
  | 0, s => s
  | fuel + 1, s =>
    if s.on TTA_CMD.BUSY then s
    else match s.hubWaits.find? fun w => (ttWord w.n w.act).isSome ∧ (s.typ w.n ≠ 0) with
      | none => s
      | some w => match ttWord w.n w.act with
        | none => s
        | some x =>
          let s := s.ttCommand (w32 x)
          if s.on TTA_CMD.BUSY then s else State.runTtWaits fuel (s.finishWait w [])

/-- The sublink speed ID and the lane count of a rate (R113): ID 1 is Gen 1 and ID 2 Gen 2, as the SuperSpeedPlus capability
declares them. -/
def rateLanes (r : Nat) : List Nat :=
  match r with
  | 0 => [0, 0]
  | 1 => [1, 1]
  | 2 => [1, 2]
  | 3 => [2, 1]
  | _ => [2, 2]

/-- The holding chip keeps a waiting request and does what it asks, as far as it can be done at once. -/
def State.beginWait (s : State) (w : HubWait) : State :=
  let s := s.withHubWaits (s.hubWaits ++ [w])
  match w.act with
  | .ttClear .. | .ttReset | .ttStop => State.runTtWaits 32 s
  | .queryExt => s.finishWait w (rateLanes (s.g (SSH_PORT.RATE w.n)))
  | .queryErr => s.finishWait w [vat s.ss.linkErr w.n]
  | .lpm besl rwe => s.out (.line "LPM_TOKEN" [w.n, besl, b2n rwe])
  | _ => s

/-- TTA_OP_DONE (R150, R162): the operation that waited for its transaction completes, and the hub request behind it. -/
def execTtaOpDone (s : State) : Res :=
  .next (
    let n := s.g TTA_CMD.STALL
    let s' := s.ttaOpDone
    if s'.on TTA_CMD.BUSY || !s.on TTA_CMD.BUSY then s
    else match s'.hubWaits.find? fun w => w.n = n ∧ (ttWord w.n w.act).isSome with
      | some w => State.runTtWaits 32 (s'.finishWait w [])
      | none => State.runTtWaits 32 s')

/-- A stall is handed away: step 2 of a hand-off at the chip that holds it (R167). -/
def State.detachStall (s : State) (n : Nat) : State :=
  let mine := (s.egress n)
  let s := mine.foldl (fun s b => s.dropAt n b) (s.setEgress n [])
  let s := (s.dataOff n).ttReset n
  let s := s.mirLocal n PortStat.disconnect
  s.hsMod fun h => { h with orders := h.orders.filter fun o => o.n ≠ n }

/-- UPP_HANDOFF at the chip that holds a stall, as the lead tells it (R167): step 0 is the end, with its event; `shown` false where a
later hand-off of this chip's stalls stands there. -/
def State.handShow (s : State) (m n step ms src dest : Nat) (shown : Bool) : State :=
  let s := s.when shown fun s =>
    ((((s.p UPP_HANDOFF.STALL (m * 16 + n)).p UPP_HANDOFF.FROM src).p UPP_HANDOFF.TO dest).p UPP_HANDOFF.STEP step).p
      UPP_HANDOFF.ELAPSED (min 65535 ms)
  s.when (step = 0) fun s => s.hw UPP_EVT.HANDOFF_DONE

/-- A hand-off of a stall of this chip has completed: the HANDOFF record (R167, R322). -/
def State.handRecord (s : State) (m n src dest ms : Nat) : State :=
  s.when (m = s.member) fun s =>
    s.record 0 0x06 dest [m * 16 + n + src * 2^8 + dest * 2^10 + min 65535 ms * 2^16]

/-- What a reset of its bus does to a stall (R144, R163); `host` for a bus reset that the host has driven. -/
def State.resetStall (s : State) (n : Nat) (host : Bool) : State :=
  let s := (s.ttReset n).chMod n fun c => { c with defPower := c.defPower && !host }
  let s := (s.sidePower n false false).sidePower n true false
  (s.powerOffPort n).hsMod fun h => { h with orders := h.orders.filter fun o => o.n ≠ n }

/-- Is the bus of a slot reset in this same cycle, behind the present command (R168)? -/
def State.resetAhead (s : State) (slot : Nat) : Bool := s.ahead fun c => match c with
  | .busReset u _ => s.slotOf u = some slot
  | .orderReceived _ y _ _ act => y.val = slot && act == .busReset 0
  | _ => false

/-- The context of this chip that serves a position of a slot (R100): its own root's or pen's, or the slot's PROXY. -/
def State.ctxFor (s : State) (slot hub am : Nat) : Nat :=
  ((List.range 8).find? fun i => s.g (SSH_CTX.SLOT i) = slot &&
    (if am ≠ s.member then s.g (SSH_CTX.KIND i) = 3
     else if hub = 0 then s.g (SSH_CTX.KIND i) = 1 else s.g (SSH_CTX.KIND i) = 2 && s.g (SSH_CTX.PEN i) = hub - 1)).getD 0

/-- Hand-off step 2 at every member: the old position reads not connected (R155, R167). -/
def State.handDetach (s : State) (m n : Nat) : State :=
  let src := ((s.holders.find? fun h => h.member = m && h.stall = n).map (·.slot)).getD 0
  let s := s.when (m = s.member) fun s =>
    -- a bus reset of this cycle applies to the stall as still held (R168)
    let s := (s.when (s.resetAhead src) fun s => s.resetStall n true).detachStall n
    match s.posOf n with
    | some (y, p, _) =>
      let rest := s.ss.seqs.filter fun x => ¬(x.1 = y ∧ x.2.1 = p.hub ∧ x.2.2.1 = p.port)
      s.withSs { s.ss with seqs := (y, p.hub, p.port, (vat s.port n).seq) :: rest }
    | none => s
  let s := (s.withMirror (s.mirror.map fun (q : MirPos) =>
    if q.kind = 1 && q.member = m && q.stall = n
        && s.holders.any (fun h => h.member = m && h.stall = n && h.slot = q.slot) then { q with st := q.st.disconnect } else q))
  (s.withHolders (s.holders.filter fun h => ¬(h.member = m ∧ h.stall = n))).when (m = s.member) fun s =>
    (s.hsMod fun h => { h with moving := vset h.moving n true }).cdpStall n

/-- Hand-off step 4: the new holder, its engine, context and mirror numbers, its yard for the stall's entries, and the tracker at
rest (R159, R167). -/
def State.handRebind (s : State) (m n dest : Nat) : State :=
  let s := s.withHolders (s.holders ++ [Holder.mk m n dest])
  s.when (m = s.member) fun s =>
    let s := ((s.moveEntries n dest).patIdle n).p (SSH_PORT_LPM.U1_TIMEOUT n) 0
    let s := s.p (SSH_PORT_LPM.U2_TIMEOUT n) 0
    let seq := match s.posOf n with
      | some (y, p, _) => ((s.ss.seqs.find? fun x => x.1 = y && x.2.1 = p.hub && x.2.2.1 = p.port).map (·.2.2.2)).getD 0
      | none => 0
    let s := s.withPort (vmod s.port n fun q => { q with hs := clrBits q.hs 0x100, ss := clrBits q.ss 0x200, seq := seq })
    let s := s.p (SSH_PORT.CTX n) (((s.posOf n).map fun x => s.ctxFor x.1 x.2.1.hub x.2.2).getD 0)
    let e := (s.posOf n).bind fun x => s.busEngine dest x.2.1.hub
    let s := (s.p (HSH_PORT.ENGINE n) (e.getD 0)).p (HSH_PORT.REMOTE n)
      (b2n ((s.posOf n).any fun (x : Nat × Pos × Nat) => decide (x.2.2 ≠ s.member)))
    (s.chMod n fun c => { c with defPower := [1, 4, 5].contains (s.typ n) && vat s.hs.dflt dest }).cdpStall n

/-- Hand-off step 5: the new position holds the mirrored state under the PORT_POWER `hs` and `ss` its host gives it, with a connection
change if a device is present, and the hand-off from slot `src` to `dest` is complete after `ms` ms (R167, R168, R322). VBUS
stays as it is; a position without power reports nothing. -/
def State.handAttach (s : State) (m n src dest ms : Nat) (hs ss : Bool) : State :=
  s.when (m = s.member) fun s =>
    let on := hs || ss
    let here := s.on (HSH_PORT.CONNECT n) && s.g (HSH_PORT.STATE n) ≠ 0
    let low := s.g (HSH_PORT.SPEED n) = 1
    let trip := bitOf (vat s.port n).hs 3
    let s := s.withPort (vmod s.port n fun q =>
      { q with hs := (if on && here then orBits q.hs (if low then 0x201 else 1) else clrBits q.hs 0x201) ||| (if hs then 0x100 else 0),
               hsChg := b2n (on && here), ss := q.ss ||| (if ss then 0x200 else 0), ssChg := 0 })
    let s := s.chMod n fun c => { c with portPower := on }
    let s := if on then (s.when here fun s => s.hsState n 2).powerOn n else s.dataPowerOff n
    -- a trip met on the way is reported now (R164, R168)
    let s := s.when trip fun s => (s.withPort (vmod s.port n PortStat.overCurrent)).chMod n fun c =>
      { c with portPower := false, ocHeld := true }
    -- the new position's default power, where it has it (R399)
    let s := (s.hsMod fun h => { h with moving := vset h.moving n false }).when (s.ch n).defPower fun s => s.tryRamp n
    (s.mirSend n).handRecord m n src dest ms

/-- The stalls of this chip that a slot holds at positions of one hub: 0 all of them, k + 1 those of pen k. -/
def State.hubStalls (s : State) (slot hub : Nat) : List Nat :=
  (s.heldStalls slot).filter fun n => hub = 0 || (s.posOf n).any fun (x : Nat × Pos × Nat) => x.2.1.hub = hub

/-- The engines of this chip on one bus of a slot: 0 every bus of the paddock, k + 1 the bus of pen k. -/
def State.hubEngines (s : State) (slot hub : Nat) : List Nat :=
  (s.slotEngines slot).filter fun e => hub = 0 || s.g (HSH_ENG.PEN e) = hub - 1

/-- A pen's engine has lost its upstream carry: what that does on one chip (R25, R132, R144). The USB 2.0 sides of the pen's
positions go to Powered-off; VBUS and the SS sides stay as they are. -/
def State.penLost (s : State) (slot pen : Nat) : State :=
  let s := s.each (s.hubEngines slot (pen + 1)) fun e s => (s.engState e 1).p (HSH_ENG.ADDR e) 0
  let s := s.withMirror (s.mirror.map fun (q : MirPos) =>
    if q.slot = slot && q.hub = pen + 1 && !s.heldBy q then { q with st := { q.st with hs := q.st.hs &&& 8 } } else q)
  s.each (s.hubStalls slot (pen + 1)) fun n s =>
    let s := ((s.ttReset n).hw (HSH_PORT_EVT.CARRY_LOST n)).hsState n 0
    let s := ((s.p (HSH_PORT.CONNECT n) 0).p (HSH_PORT.SPEED n) 0).mirLocal n fun q => { q with hs := q.hs &&& 8 }
    s.hsMod fun h => { h with orders := h.orders.filter fun o => o.n ≠ n, gsusp := vset h.gsusp n false, waking := vset h.waking n false }

/-- The USB 2.0 half of a mirrored position is cut off (R132). -/
def PortStat.hsCut (q : PortStat) : PortStat :=
  { q with hs := clrBits q.hs 0x637, hsChg := if bitOf q.hs 0 then orBits q.hsChg 1 else q.hsChg }

/-- The home member learns whether the carry pair at a pen's engine is in service (R131, R132, R144): the root port of the pen
disconnects, or connects anew while it is powered. -/
def State.penServed (s : State) (slot pen : Nat) (up : Bool) : State :=
  let was := !s.hs.penCut.contains (slot, pen)
  if was = up then s
  else
    let l := s.hs.penCut.filter fun x => x ≠ (slot, pen)
    let s := s.hsMod fun h => { h with penCut := if up then l else (slot, pen) :: l }
    s.withMirror (s.mirror.map fun (q : MirPos) =>
      if q.slot = slot && q.hub = 0 && q.kind = 2 && q.stall = pen then
        { q with st := if !up then q.st.hsCut else if bitOf q.st.hs 8 || bitOf q.st.ss 9 then q.st.own true else q.st } else q)

/-- What a reset of a bus does on one chip (R144, R163): its engines, ports and translators; orders for the whole paddock end
with it. -/
def State.resetBus (s : State) (slot hub : Nat) : State :=
  let s := s.each (s.hubEngines slot hub) fun e s => (s.engState e 1).p (HSH_ENG.ADDR e) 0
  let s := s.when (hub = 0) fun s => s.hsMod fun h => { h with orders := h.orders.filter fun o => ¬(o.n = 15 ∧ o.slot = slot) }
  let s := (s.withMirror (s.mirror.map fun (q : MirPos) =>
    let held := q.kind = 1 && s.holders.any fun h => h.member = q.member && h.stall = q.stall && h.slot = q.slot
    if q.slot = slot && (hub = 0 || q.hub = hub) && !held then { q with st := { ss := 0x80, seq := q.st.seq } } else q))
  let s := s.when (hub = 0) fun s => s.hsMod fun h => { h with dflt := vset h.dflt slot false }
  s.each (s.hubStalls slot hub) fun n s => s.resetStall n (hub = 0)

/-- The upstream port of a slot homed on another member has left its link: what is queued here to or from it is discarded (R115). -/
def State.dropOfSlot (s : State) (slot : Nat) : State :=
  let ws := s.fab.waits.filter fun w => w.2.2.1 = 0x20 + slot
  let s := ws.foldl (fun s w => s.dropAt w.2.2.2.q w.2.2.2)
    (s.fabMod fun f => { f with waits := f.waits.filter fun w => w.2.2.1 ≠ 0x20 + slot })
  s.each (s.heldStalls slot) fun n s =>
    let s := s.dropUnsent n fun r => r.open_.target = 0x20 + slot && r.undel.any fun x => x.2.1 = n
    let l := s.egress n
    l.foldl (fun s b => s.dropAt n b) (s.setEgress n [])

/-- The port of a stall acts (R136 to R142, R162, R163). -/
def State.doAct (s : State) (slot n : Nat) (act : PortAct) : State :=
  let st := s.g (HSH_PORT.STATE n)
  match act with
  | .reset =>
    if [2, 4, 5, 6, 7, 8].contains st then
      let s := ((s.hsState n 3).ttReset n).out (.line "SE0" [n])
      let s := s.hsMod fun h => { h with gsusp := vset h.gsusp n false, waking := vset h.waking n false }
      s.mirLocal n fun q => { q with hs := orBits (clrBits q.hs 0x826) 0x10 }
    else s
  | .suspend =>
    if st = 4 then (s.hsState n 5).mirLocal n fun q => { q with hs := orBits q.hs 4 } else s
  | .resume =>
    if st = 5 then (s.hsState n 6).out (.line "K" [n]) else s
  | .busResumeStart =>
    let s := s.each ((s.slotEngines slot).filter fun e => [2, 3, 4].contains (s.g (HSH_ENG.STATE e))) fun e s => s.engState e 5
    s.each (s.heldStalls slot) fun n s =>
      s.when (s.g (HSH_PORT.STATE n) = 4 || (s.g (HSH_PORT.STATE n) = 5 && vat s.hs.gsusp n)) fun s =>
        ((s.hsState n 6).out (.line "K" [n])).hsMod fun h => { h with gsusp := vset h.gsusp n true }
  | .busResumeEnd =>
    let s := s.each ((s.slotEngines slot).filter fun e => s.g (HSH_ENG.STATE e) = 5) fun e s => s.engState e 2
    s.each (s.heldStalls slot) fun n s =>
      let s := s.when (s.g (HSH_PORT.STATE n) = 6 && vat s.hs.gsusp n) fun s =>
        let s := (s.hsState n 4).out (.line "LS_EOP" [n])
        s.when (vat s.hs.waking n) fun s =>
          (s.hw (HSH_PORT_EVT.RESUME_DONE n)).mirLocal n fun q => { q with hs := clrBits q.hs 4, hsChg := orBits q.hsChg 4 }
      s.hsMod fun h => { h with gsusp := vset h.gsusp n false, waking := vset h.waking n false }
  | .l1Exit =>
    if st = 7 then
      let s := ((s.hsState n 4).hw (HSH_PORT_EVT.L1_EXIT n)).out (.line "K" [n])
      s.mirLocal n fun q => { q with hs := clrBits q.hs 0x20 }
    else s
  | .test m =>
    (((s.hsState n 8)).out (.line "TEST" [n, m])).mirLocal n fun q => { q with hs := orBits q.hs 0x800 }
  | .busReset hub => s.resetBus slot hub
  | .power ss on => s.sidePower n ss on
  | .disable =>
    if st ≥ 3 then (s.hsState n 2).mirLocal n fun q => { q with hs := clrBits q.hs 0x36 } else s
  | .linkState v =>
    let l := s.g (SSH_PORT.LINK n)
    match v with
    | 0 => if l = 3 then (s.out (.line "U3_EXIT" [n])).ssLink n 8
           else if l = 1 ∨ l = 2 then (s.out (.line "U0_EXIT" [n])).ssLink n 8 else s
    | 3 => if l ≤ 2 then (s.out (.line "LGO_U3" [n])).ssLink n 3 else s
    | 4 => s.ssLink n 4
    | 5 => if l = 4 then s.ssLink n 5 else s
    | _ => s
  | .u1 v => (s.p (SSH_PORT_LPM.U1_TIMEOUT n) v).mirSend n
  | .u2 v => (s.p (SSH_PORT_LPM.U2_TIMEOUT n) v).mirSend n
  | .wakeMask m => (s.withPort (vmod s.port n fun q => { q with wakeMask := m }))
  | .hotReset =>
    let l := s.g (SSH_PORT.LINK n)
    if l ≤ 3 ∨ l = 8 then
      ((s.ssLink n 9).out (.line "HOT_RESET" [n])).mirLocal n fun q => { q with ss := orBits q.ss 0x10 }
    else s
  | .warmReset =>
    if s.g (SSH_PORT.LINK n) = 4 then s
    else
      let s := s.withSs { s.ss with linkErr := vset s.ss.linkErr n 0 }
      let s := ((s.p (SSH_PORT.LINK n) 5).hw (SSH_PORT_EVT.LINK_CHG n)).out (.line "WARM_RESET" [n])
      let s := (s.linkJudge (portDom n)).linkJudge dHUB
      s.mirLocal n fun q => { q with ss := orBits (clrBits q.ss 0x1E2) (0x10 + 5 * 2^5) }
  | .forceLpm b => (s.withPort (vmod s.port n fun q => { q with forceLpm := b }))
  | .indicator b =>
    if (s.plan.gpioOf s.member).any fun g => g.fn = 7 ∧ g.arg = n then
      (s.mirLocal n fun q => { q with hs := if b then orBits q.hs 0x1000 else clrBits q.hs 0x1000 }).out
        (.line "PORT_LED" [n, b2n b])
    else s
  | .clearChange ss bit =>
    s.mirLocal n fun q => if ss then { q with ssChg := clrBits q.ssChg (2 ^ bit) } else { q with hsChg := clrBits q.hsChg (2 ^ bit) }
  | .upTold l k c d f b =>
    let old := vat s.ss.told slot
    let s := s.withSs { s.ss with told := vmod s.ss.told slot fun _ => ⟨l, k, c, d, f, b⟩ }
    let s := s.when (l = 4) fun s => s.ssHubOff slot
    let s := s.when (l = 4 && old.link ≠ 4) fun s => s.dropOfSlot slot
    let s := s.when (l = 0) fun s => s.each (s.heldStalls slot) fun n s => s.p (SSH_PORT_LPM.FW_HELD n) 0
    -- a relay of the root bus follows what it does not see itself; carry carries no full speed
    let s := s.each ((s.slotEngines slot).filter fun e => s.g (HSH_ENG.ROLE e) = 3 && s.g (HSH_ENG.PEN e) = 0xF) fun e s =>
      let x := s.g (HSH_ENG.STATE e)
      s.engState e (if f then 0 else if [0, 1, 3].contains b || (b = 2 && [0, 1, 3].contains x) then b else x)
    let s := s.when (b = 0 && old.bus ≠ 0) fun s =>
      ((s.each (s.slotEngines slot) fun e s => s.engState e 0).defaultPower slot).each (s.heldStalls slot) fun n s => s.tryRamp n
    (s.cdpJudge slot).linkJudge dFAB
  | .penOn k => s.each ((s.hubEngines slot (k + 1)).filter fun e => [1, 4].contains (s.g (HSH_ENG.STATE e))) fun e s => s.engState e 2
  | .penReset k => s.hubReset slot k
  | .penCarry k up => s.penServed slot k up
  | .penCarryLost k => (s.penLost slot k).when ((s.homeOf slot).any fun h => h.1 = s.member) fun s => s.penServed slot k false
  | .penAddr k a => s.withSs { s.ss with penAddr := (slot, k, a) :: s.ss.penAddr.filter fun x => ¬(x.1 = slot ∧ x.2.1 = k) }
  | .detach m => s.handDetach m n
  | .rebind m d => s.handRebind m n d
  | .attach m src ms hs ss => s.handAttach m n src slot ms hs ss
  | .handShow m st ms src dest x => s.handShow m n st ms src dest x
  | .ssWake => match s.homeOf slot with
    | some (m, u) => s.when (m = s.member) fun s => s.wakeHost u
    | none => s
  | .kvmIgnored => s.hw UPP_EVT.KVM_IGNORED
  | .ttClear .. | .ttReset | .ttStop | .lpm .. | .queryExt | .queryErr | .kvmButton => s

/-! ## Orders (R135) -/

/-- An order or request arrives at the chip it is for: a stamped one waits for its stamp, or acts at once when it is late or the
copy of the yard cannot be trusted. A RESET is ignored while the port resets (R137); a resume waits while the bus is suspended
(R139). `hub`, `port` and `owner` name what asked. -/
def State.arrive (s : State) (owner slot n stamp : Nat) (act : PortAct) : State :=
  if waits act then
    match s.posOf n with
    | some (_, p, _) => s.beginWait ⟨slot, p.hub, p.port, owner, n, act⟩
    | none => s
  else if !stamped act then s.doAct slot n act
  else if act == .reset && s.g (HSH_PORT.STATE n) = 3 then s
  else
    let wait (s : State) : State := s.hsMod fun h => { h with orders := h.orders ++ [⟨slot, n, stamp, act⟩] }
    let trusted := slot < 4 && !s.on (YRD_STATUS.STALE slot) && s.g (YRD_STATUS.STATE slot) = 2
    if trusted && s.yticks slot ≤ stamp then wait s
    else
      let ns := if n ≤ 14 then [n] else s.heldStalls slot
      let s := (s.each ns fun n s => s.hw (HSH_PORT_EVT.LATE_ORDER n)).incSat HSH_ORDERS.LATE
      if act == .resume && s.busSusp n then wait s else s.doAct slot n act

/-- An engine of this chip issues an order or request to member m (R135). -/
def State.issue (s : State) (slot m n : Nat) (act : PortAct) : State :=
  let stamp := s.yticks slot + s.g HSH_X_TUNE.ORDER_LEAD * 200
  let s := s.when (stamped act) fun s => (s.inc HSH_ORDERS.SENT).pmu 0x0B 0
  if m = s.member then s.arrive m slot n stamp act
  else s.ctrlTo m "ORDER" ([slot, n, stamp] ++ actFields act)

/-- An order for a whole bus goes to every member that has part in it. -/
def State.issueAll (s : State) (slot : Nat) (act : PortAct) : State :=
  s.each (s.slotMembers slot) fun m s => s.issue slot m 15 act

/-- The order of a port (15 a whole bus of `slot`) to act on next: the earliest stamp, the first to arrive among equals. -/
def firstOrder (l : List Order) (p : Order → Bool) : Option Order :=
  (l.filter p).foldl (fun a o => some (match a with | none => o | some b => if o.stamp < b.stamp then o else b)) none

/-- At its stamp, the order of the kind named acts (R135). -/
def State.runOrder (s : State) (p : Order → Bool) (kind : PortAct → Bool) : State :=
  match firstOrder s.hs.orders p with
  | none => s
  | some o =>
    if s.hsOn && kind o.act && o.stamp ≤ s.yticks o.slot then
      (s.hsMod fun h => { h with orders := h.orders.erase o }).doAct o.slot o.n o.act
    else s

/-- ORDER_RESET (R137). -/
def execOrderReset (n : Stall) (s : State) : Res := .next (s.runOrder (fun o => o.n = n) (· == .reset))

/-- ORDER_SUSPEND_PORT (R139). -/
def execOrderSuspendPort (n : Stall) (s : State) : Res := .next (s.runOrder (fun o => o.n = n) (· == .suspend))

/-- ORDER_RESUME_PORT (R139): held while the bus of the port's engine is itself suspended. -/
def execOrderResumePort (n : Stall) (s : State) : Res :=
  .next (s.when (!s.busSusp n) fun s => s.runOrder (fun o => o.n = n) (· == .resume))

/-- ORDER_BUS_RESUME_START (R138). -/
def execOrderBusResumeStart (slot : Fin 4) (s : State) : Res :=
  .next (s.runOrder (fun o => o.n = 15 && o.slot = slot) (· == .busResumeStart))

/-- ORDER_BUS_RESUME_END (R138). -/
def execOrderBusResumeEnd (slot : Fin 4) (s : State) : Res :=
  .next (s.runOrder (fun o => o.n = 15 && o.slot = slot) (· == .busResumeEnd))

/-- Is an act a TEST? -/
def isTest : PortAct → Bool
  | .test _ => true
  | _ => false

/-- ORDER_TEST (R136). -/
def execOrderTest (n : Stall) (s : State) : Res := .next (s.runOrder (fun o => o.n = n) isTest)

/-- ORDER_L1_EXIT (R142). -/
def execOrderL1Exit (n : Stall) (s : State) : Res := .next (s.runOrder (fun o => o.n = n) (· == .l1Exit))

/-! ## Ports -/

/-- The mirror records of a position's reset completion, before they leave this chip for good (R137). -/
def resetRecord (slot hub port : Nat) (m : CtrlMsg) : Bool :=
  m.name = "MIRROR" && m.fields.take 3 = [slot, hub, port] && bitOf (m.fields.getD 5 0) 4

/-- Step 3 of a port reset runs (R137): in the cycle of its end, and until the link to the answering member has acknowledged the
mirror record (log entry 144). -/
def State.mirroring (s : State) (n : Nat) : Bool :=
  s.marks.contains (.resetEnded n) || (s.posOf n).any fun (x : Nat × Pos × Nat) =>
    s.glk.toList.any fun l => l.unacked.any (resetRecord x.1 x.2.1.hub x.2.1.port)

/-- A reset completion that the hub controller does not hold yet is withdrawn (R137). -/
def State.unreset (s : State) (n : Nat) : State :=
  s.when (s.mirroring n) fun s =>
    let s := (s.p (HSH_PORT_EVT.RESET_DONE n) 0).withPort (vmod s.port n fun q => { q with hsChg := clrBits q.hsChg 0x10 })
    match s.posOf n with
    | none => s
    | some (slot, p, _) =>
      let fix (m : CtrlMsg) : CtrlMsg :=
        if resetRecord slot p.hub p.port m then { m with fields := m.fields.set 5 (clrBits (m.fields.getD 5 0) 0x10) } else m
      let s := s.each [0, 1, 2, 3] fun k s => s.lkMod k fun l => { l with
        ctrlQ := l.ctrlQ.map fix
        win := l.win.map fun x => match x with
          | .ctrl q m => .ctrl q (fix m)
          | .data q b => .data q b }
      s.mirMod slot p.hub p.port fun q => { q with st := { q.st with hsChg := clrBits q.st.hsChg 0x10 } }

/-- PORT_RESET_END (R137): `speed` as HSH_PORT.SPEED holds it. -/
def execPortResetEnd (n : Stall) (speed : Fin 4) (s : State) : Res :=
  .next (s.when (s.g (HSH_PORT.STATE n) = 3 && speed.val ≠ 0) fun s =>
    let s := ((s.hsState n 4).p (HSH_PORT.SPEED n) speed).hw (HSH_PORT_EVT.RESET_DONE n)
    let bits := if speed.val = 1 then 0x200 else if speed.val = 3 then 0x400 else 0
    (s.mark (.resetEnded n)).mirLocal n fun q => { q with hs := orBits (clrBits q.hs 0x610) (2 + bits), hsChg := orBits q.hsChg 0x10 })

/-- PORT_RESUME_END (R139): the low-speed EOP, and the change of suspend state. -/
def execPortResumeEnd (n : Stall) (s : State) : Res :=
  .next (s.when (s.g (HSH_PORT.STATE n) = 6 && !vat s.hs.gsusp n) fun s =>
    let s := ((s.hsState n 4).hw (HSH_PORT_EVT.RESUME_DONE n)).out (.line "LS_EOP" [n.val])
    s.mirLocal n fun q => { q with hs := clrBits q.hs 4, hsChg := orBits q.hsChg 4 })

/-- GLOBAL_SUSPEND (R136, R143): 3.0 ms without activity on the bus of an engine or relay; its ports suspend with the bus, and so do
those of a bus that its host has left. -/
def execGlobalSuspend (e : Fin 4) (s : State) : Res :=
  .next (s.when (s.g (HSH_ENG.ROLE e) ≠ 0 && [0, 2].contains (s.g (HSH_ENG.STATE e))) fun s =>
    let ns := (List.range 15).filter fun n => (s.holderOf n).isSome && s.engineOf n = e && s.g (HSH_PORT.STATE n) = 4
    let s := (s.each ns fun n s => s.hsState n 5).hsMod fun h =>
      { h with gsusp := ns.foldl (fun v n => vset v n true) h.gsusp }
    let s := s.when (s.g (HSH_ENG.STATE e) = 2) fun s => s.engState e 4
    s.when (s.g (HSH_ENG.ROLE e) = 1) fun s => s.upJudge (s.g (HSH_ENG.UPSTREAM e)))

/-- K on upstream port u for 2.5 µs (R138, R141, R142); a root engine that drives K upstream stops. -/
def State.hostK (s : State) (u : Nat) : State :=
  match s.slotOf u with
  | none => s
  | some slot => match s.rootEngine slot with
    | none => s
    | some e =>
      let st := s.g (HSH_ENG.STATE e)
      let s := s.when (vat s.hs.upK u).isSome fun s => s.out (.line "UP_K_STOP" [u])
      let s := s.hsMod fun h => { h with upK := vset h.upK u none }
      if st = 4 then (s.engState e 5).issueAll slot .busResumeStart |>.upJudge u
      else if st = 3 then
        let qs := s.mirror.filter fun q => q.slot = slot ∧ q.kind = 1 ∧ bitOf q.st.hs 5
        qs.foldl (fun s q => s.issue slot q.member q.stall .l1Exit) (s.engState e 5)
      else s

/-- HOST_RESUME_DETECTED (R138, R141, R142, R267). -/
def execHostResumeDetected (u : Fin 2) (s : State) : Res :=
  .next (s.when (s.slotOf u).isSome fun s => s.onWake 7 [5 + u.val, dHSB] (.hostK u) fun s => s.hostK u)

/-- HOST_RESUME_END (R138). -/
def execHostResumeEnd (u : Fin 2) (s : State) : Res :=
  .next (match s.slotOf u with
    | none => s
    | some slot => match s.rootEngine slot with
      | none => s
      | some e => s.when (s.g (HSH_ENG.STATE e) = 5) fun s => s.issueAll slot .busResumeEnd)

/-- Is a command the host's resume on upstream port u? -/
def resumeOn (u : Nat) : Instr → Bool
  | .hostResumeDetected v => v.val = u
  | _ => false

/-- A wake reaches the root engine: it drives K upstream, unless the host resumes already or in this cycle (R140, R141). An engine or
upstream PHY that rests is raised, and the K follows when both are ON (R267). -/
def State.wakeUp (s : State) (slot : Nat) : State :=
  let s := s.hsMod fun h => { h with upWant := h.upWant.filter (· ≠ slot) }
  match s.homeOf slot with
  | none => s
  | some (_, u) =>
  if !(s.domOn dHSB && s.domOn (5 + u)) then
    (s.each [dHSB, 5 + u] fun d s => s.when (!s.domOn d) fun s => s.activity d).hsMod fun h => { h with upWant := slot :: h.upWant }
  else match s.rootEngine slot with
  | none => s
  | some e =>
    let st := s.g (HSH_ENG.STATE e)
    if st = 5 ∨ ((st = 3 ∨ st = 4) ∧ s.ahead (resumeOn u)) then s.hw HSH_EVT.COLLISION
    else if (st = 3 ∨ st = 4) ∧ (vat s.hs.upK u).isNone then
      (s.hsMod fun h => { h with upK := vset h.upK u (some s.cycle) }).out (.line "UP_K" [u])
    else s

/-- A port of this chip reports a wake to the home member (R140, R142). -/
def State.reportWake (s : State) (slot n : Nat) : State :=
  match s.homeOf slot with
  | none => s
  | some (m, _) => if m = s.member then s.wakeUp slot else s.ctrlTo m "WAKE" [slot, n]

/-- A device's K for 2.5 µs at a stall of this chip (R140, R141). On a suspended bus it goes to the root engine, and the port
resumes with the bus; on an active one the port resumes. -/
def State.deviceK (s : State) (slot n : Nat) : State :=
  if s.holderOf n ≠ some slot || s.g (HSH_PORT.STATE n) ≠ 5 then s
  else
    let s := s.hw (HSH_PORT_EVT.WAKE n)
    if s.busSusp n then
      let s := s.hsMod fun h => { h with waking := vset h.waking n true, gsusp := vset h.gsusp n true }
      -- a bus that resumes already takes the port with it (R141)
      let s := s.when (s.g (HSH_ENG.STATE (s.engineOf n)) = 5) fun s => (s.hsState n 6).out (.line "K" [n])
      s.reportWake slot n
    else s.doAct slot n .resume

/-- REMOTE_WAKE (R140, R141, R267): at a stall of this chip, or another member's report of one. -/
def execRemoteWake (src : Option CtrlHdr) (slot : Fin 4) (n : Stall) (s : State) : Res :=
  .next (match src with
    | some c => s.rxCtrl c "WAKE" [slot.val, n.val] fun s => s.wakeUp slot
    | none => s.onWake 7 [portDom n, dHSB] (.deviceK slot n) fun s => s.deviceK slot n)

/-- WAKE_HOLD_EXPIRE (R140): WAKE_HOLD_MS without the host's resume. -/
def execWakeHoldExpire (u : Fin 2) (s : State) : Res :=
  .next (s.when (vat s.hs.upK u).isSome fun s =>
    (s.hsMod fun h => { h with upK := vset h.upK u none }).out (.line "UP_K_STOP" [u.val]))

/-- LPM_ACK (R142): by the device on a stall, or by the hub on its upstream port. -/
def execLpmAck (n : Channel) (besl : Fin 16) (rwe : Bool) (s : State) : Res :=
  .next (
    let mark (s : State) : State := s.hsMod fun h => { h with acked := vset h.acked n true }
    if n.val ≤ 14 then
      s.when (s.g (HSH_PORT.STATE n) = 4) fun s => mark ((s.p (HSH_PORT.BESL n) besl).p (HSH_PORT.RWE n) (b2n rwe))
    else mark s)

/-- L1_ENTRY (R142): the bus has stayed idle after the ACK for the addendum's time. -/
def execL1Entry (n : Channel) (s : State) : Res :=
  .next (s.when (vat s.hs.acked n) fun s =>
    let s := s.hsMod fun h => { h with acked := vset h.acked n false }
    if n.val ≤ 14 then
      s.when (s.g (HSH_PORT.STATE n) = 4) fun s =>
        ((s.hsState n 7).hw (HSH_PORT_EVT.L1_ENTER n)).mirLocal n fun q => { q with hs := orBits q.hs 0x20 }
    else match (s.slotOf (n - 15)).bind s.rootEngine with
      | some e => s.when (s.g (HSH_ENG.STATE e) = 2) fun s => s.engState e 3
      | none => s)

/-- A device's exit of L1 reaches the root engine: it drives K upstream only where the root is itself in L1 (R142). -/
def State.l1Wake (s : State) (slot : Nat) : State :=
  s.when ((s.rootEngine slot).any fun e => s.g (HSH_ENG.STATE e) = 3) fun s => s.wakeUp slot

/-- Is a command the host's exit of L1 at stall n? -/
def l1ExitOf (n : Nat) : Instr → Bool
  | .orderL1Exit m => m.val = n
  | _ => false

/-- A device at a stall of this chip leaves L1 (R142); a host exit due on the port counts instead. -/
def State.deviceL1 (s : State) (slot n : Nat) : State :=
  if s.holderOf n ≠ some slot || s.g (HSH_PORT.STATE n) ≠ 7 || !s.on (HSH_PORT.RWE n) then s
  else
    let host := s.ahead (l1ExitOf n) || s.hs.orders.any fun o => o.n = n && o.act == .l1Exit
    let s := (s.hsMod fun h => { h with orders := h.orders.filter fun o => !(o.n = n && o.act == .l1Exit) }).doAct slot n .l1Exit
    if host then s
    else match s.homeOf slot with
      | none => s
      | some (m, _) =>
        if m = s.member then s.l1Wake slot else s.ctrlTo m "L1_WAKE" [slot, n]

/-- DEVICE_L1_EXIT (R142, R267): at a stall of this chip, or another member's report. -/
def execDeviceL1Exit (src : Option CtrlHdr) (slot : Fin 4) (n : Stall) (s : State) : Res :=
  .next (match src with
    | some c => s.rxCtrl c "L1_WAKE" [slot.val, n.val] fun s => s.l1Wake slot
    | none => s.onWake 7 [portDom n, dHSB] (.deviceL1 slot n) fun s => s.deviceL1 slot n)

/-- Is the HS PHY of a stall detached: DCP, or a change from it that has not reached step 3 (R151, R152)? -/
def State.phyAway (s : State) (n : Nat) : Bool :=
  s.g (HSH_PORT.BC n) = 2 || (s.g (HSH_PORT.BC n) = 3 && vat s.hs.bcTarget n = 0)

/-- The device of a stall is gone on the USB 2.0 side (R136): a reset that is not yet reported ends with it (R137). -/
def State.hsGone (s : State) (n : Nat) : State :=
  let s := ((s.unreset n).p (HSH_PORT.SPEED n) 0).hsState n 1
  let s := (s.patIdle n).hsMod fun h => { h with gsusp := vset h.gsusp n false, waking := vset h.waking n false }
  s.mirLocal n fun q => { q with hs := clrBits q.hs 0xE37, hsChg := orBits q.hsChg 1 }

/-- A device connects at a stall, at low speed or not, or disconnects (R97, R136, R137). -/
def State.hsConnect (s : State) (n : Nat) (present low : Bool) : State :=
  let st := s.g (HSH_PORT.STATE n)
  if st = 0 || present = s.on (HSH_PORT.CONNECT n) || (present && s.phyAway n) then s
  else
    let s := (s.p (HSH_PORT.CONNECT n) (b2n present)).hw (HSH_PORT_EVT.CONN_CHG n)
    if present then
      ((s.p (HSH_PORT.SPEED n) (if low then 1 else 2)).restartHistory n).hsHere n
    else s.hsGone n

/-- HS_CONNECT_CHANGE (R97, R136, R137, R267). -/
def execHsConnectChange (n : Stall) (present low : Bool) (s : State) : Res :=
  .next (s.onWake 7 [portDom n, dHSB] (.connect n present low) fun s => s.hsConnect n present low)

/-- BABBLE_DISABLE (R136): C_PORT_ENABLE is reported. -/
def execBabbleDisable (n : Stall) (s : State) : Res :=
  .next (s.when ([4, 5, 6, 7].contains (s.g (HSH_PORT.STATE n))) fun s =>
    let s := (s.hsState n 2).hw (HSH_PORT_EVT.BABBLE n)
    (s.mirLocal n fun q => { q with hs := clrBits q.hs 0x26, hsChg := orBits q.hsChg 2 }).raise 36 (portCode n))

/-! ## Upstream and carry -/

/-- FS_UPSTREAM_CONNECT (R130): positions whose path involves carry are withheld (shown as such by `MirPos.shown`). -/
def execFsUpstreamConnect (u : Fin 2) (s : State) : Res :=
  .next (match s.slotOf u with
    | none => s
    | some slot => match s.rootEngine slot with
      | none => s
      | some e =>
        let s := (s.p (HSH_ENG.SPEED e) 1).engState e 2
        let s := s.tellUp slot
        s.when (s.mirror.any fun q => q.slot = slot && q.via ≠ 9) fun s => s.hw HSH_EVT.FS_UPSTREAM)

/-- CARRY_LOST (R22, R25, R132, R144): carry pair k stops; `cut` tells whether a packet is in flight on it. The positions it serves
disconnect on the USB 2.0 side, and a pen's engine behind it is reset with the USB 2.0 sides of the pen. -/
def execCarryLost (k : Fin 4) (cut : Bool) (s : State) : Res :=
  .next (
    let st := s.g (HSH_CARRY.STATE k)
    if st = 3 || s.g (HSH_CARRY.BUS k) = 0 then s
    else
      -- a link that fails has put the pair out of service before this (R194)
      let s := s.when (st = 1) fun s => ((s.p (HSH_CARRY.STATE k) 2).linkJudge dFAB).raise 37 k
      let s := s.when cut fun s => s.out (.line "INVALID_EOP" [k.val])
      -- positions this chip answers for and reaches through the pair
      let s := s.withMirror (s.mirror.map fun (q : MirPos) => if q.via = k.val then { q with st := q.st.hsCut } else q)
      -- engines of this chip behind the pair
      let es := (List.range 4).filter fun e => s.g (HSH_ENG.ROLE e) ≠ 0 && s.g (HSH_ENG.UPSTREAM e) = 4 + k.val
      s.each es fun e s =>
        if s.g (HSH_ENG.ROLE e) = 2 then
          let slot := s.g (HSH_ENG.SLOT e)
          let pen := s.g (HSH_ENG.PEN e)
          let ms := (s.slotMembers slot ++ ((s.homeOf slot).toList.map (·.1))).eraseDups
          s.each ms fun m s => s.issue slot m 15 (.penCarryLost pen)
        else
          s.each ((List.range 15).filter fun n => (s.holderOf n).isSome && s.engineOf n = e && s.on (HSH_PORT.REMOTE n)) fun n s =>
            let s := ((s.hw (HSH_PORT_EVT.CARRY_LOST n)).unreset n).mirLocal n PortStat.hsCut
            s.when (s.g (HSH_PORT.STATE n) ≥ 2) fun s => s.hsState n 1)

/-- CARRY_RECEIVER_ACTIVITY (R143, R267): the AON carry detector of link k raises client 7 on FAB and HSB. -/
def execCarryReceiverActivity (_k : Fin 4) (s : State) : Res :=
  .next (s.each [dFAB, dHSB] fun d s => s.when (!s.domOn d) fun s => s.activity d)

/-! ## SS suspend of a paddock -/

/-- UPSTREAM_U3_ENTRY (R124): every active SS port of the paddock is sent to U3. -/
def execUpstreamU3Entry (u : Fin 2) (s : State) : Res :=
  .next (match s.slotOf u with
    | none => s
    | some slot =>
      if !([0, 1, 2].contains (s.g (SSH_PORT.LINK (15 + u)))) then s
      else
        let qs := s.mirror.filter fun q => q.slot = slot && q.kind = 1 && q.hub = 0 && s.heldBy q
        let pens := ((s.plan.paddock? slot).map fun r => r.positions.filter fun p => p.hub ≠ 0).getD []
        let s := qs.foldl (fun s q => s.issue slot q.member q.stall (.linkState 3)) s
        let s := (pens.filter fun p => s.holders.contains ⟨p.member, p.stall, slot⟩).foldl
          (fun s p => s.issue slot p.member p.stall (.linkState 3)) s
        (s.ssLink (15 + u) 3).upJudge u)

/-! ## Width change (R115) -/

/-- WIDTH_CHANGE_STEP_DONE (R115): the step in progress on upstream port u completes. -/
def execWidthChangeStepDone (u : Fin 2) (s : State) : Res :=
  .next (
    let d := vat s.dp u
    let put (s : State) (f : DpS → DpS) : State := (s.withDp (vmod s.dp u f))
    match d.step with
    | 1 =>
      let s := (s.ssLink (15 + u) 4).dropUpstream u
      put (s.p (TCP_DP.MUX u) 0) fun d => { d with step := 2 }
    | 2 =>
      let s := match s.slotOf u with
        | some slot => (s.holders.filter fun h => h.slot = slot).foldl
            (fun s h => s.issue slot h.member h.stall (.linkState 4)) s
        | none => s
      put s fun d => { d with step := 3 }
    | 3 =>
      let s := ((s.p (TCP_DP.PINS u) d.wanted).setMux (15 + u)).p (TCP_DP.STATE u) (if d.wanted = 0 then 0 else 3)
      let s := s.when d.ackDue fun s => s.pdSend (15 + u) .vdmAck [0x11]
      let ss := ((s.slotOf u).bind s.plan.paddock?).any fun r => r.ss
      let s := if usbLanes d.wanted ≠ 0 && ss then
          ((s.p (STL_LANE.STATE (laneIx (15 + u) false)) 0).p (STL_LANE.STATE (laneIx (15 + u) true)) 0).ssLink (15 + u) 5
        else ((s.slotOf u).map fun y => s.tellUp y).getD s
      put s fun d => { d with step := 0, ackDue := false }
    | _ => s)

/-! ## BC 1.2 (R151, R152) -/

/-- The kind a BC12 stall presents is judged anew (R151, R152): a change to or from DCP begins, unless one runs or a hand-off moves
the stall (R167); CDP follows at once. -/
def State.bcJudge (s : State) (n : Nat) : State :=
  let conf := (s.holderOf n).any fun y => (s.upKnown y).conf
  if s.typ n ≠ 1 && s.typ n ≠ 5 then s
  else if s.stallFlag n 2 then
    let want := if conf then 0 else 2
    if vat s.hs.moving n || s.g (HSH_PORT.BC n) = 3 || s.g (HSH_PORT.BC n) = want then s
    else
      let s := (s.p (HSH_PORT.BC n) 3).hsMod fun h => { h with bcTarget := vset h.bcTarget n want }
      (s.chMod n fun c => { c with bcHold := true }).switchOff n
  else s.cdpStall n

/-- BC12_SWITCH_START (R151, R152). -/
def execBc12SwitchStart (n : Stall) (s : State) : Res := .next (s.bcJudge n)

/-- BC12_SWITCH_WAIT_END (R152): VBUS is below vSafe0V and 500 ms have passed. A stall that becomes DCP detaches its HS PHY; a
condition that has come meanwhile applies now. -/
def execBc12SwitchWaitEnd (n : Stall) (s : State) : Res :=
  .next (s.when (s.g (HSH_PORT.BC n) = 3 && (s.ch n).vbusLow) fun s =>
    let s := (s.p (HSH_PORT.BC n) (vat s.hs.bcTarget n)).hw (HSH_PORT_EVT.BC_SWITCH n)
    let s := s.when (s.phyAway n && s.on (HSH_PORT.CONNECT n)) fun s =>
      ((s.p (HSH_PORT.CONNECT n) 0).hw (HSH_PORT_EVT.CONN_CHG n)).hsGone n
    (((s.chMod n fun c => { c with bcHold := false }).bcJudge n)).tryRamp n)

/-- VDP_SRC_DETECTED (R151): a CDP stall applies VDM_SRC on D−. -/
def execVdpSrcDetected (n : Stall) (s : State) : Res :=
  .next (s.when (s.g (HSH_PORT.BC n) = 1) fun s => s.out (.line "VDM_SRC" [n.val]))

end Sys2Proof.Machine
end

