-- ==== Sys2Proof/Machine/Descriptors.lean ====
section
/-!
DEFINITION. The descriptors of logical hubs and of the tack room (R40, R41, R156, R157, R289, R296). Fields of the USB
layouts that the spec does not state are those of the USB specifications (log entry 48).
-/
namespace Sys2Proof.Machine

/-- The DESCRIPTORS record of a slot, or the built-in values (R40). -/
def State.descOf (s : State) (slot : Nat) : DescR :=
  (s.plan.descs.find? fun d => d.slot = slot).getD ((builtinPlan (BitVec.ofNat 64 s.otp.uid)).descs.headD default)

/-- A number as 16 upper-case hexadecimal digits, in UTF-16 units. -/
def hex16 (x : Nat) : List Nat :=
  (List.range 16).map fun i => let d := x / 16 ^ (15 - i) % 16; if d < 10 then 0x30 + d else 0x37 + d

/-- The serial string (R41). -/
def State.serialOf (s : State) (slot : Nat) : List Nat :=
  let d := s.descOf slot
  if bitOf d.flags 0 then hex16 s.otp.uid else d.serial

/-- Bytes from numbers. -/
def bs (l : List Nat) : List Byte := l.map fun x => BitVec.ofNat 8 x

/-- A string descriptor of UTF-16 units; index 0 lists the language ids. -/
def stringDesc (u : List Nat) : List Byte := bs [2 + 2 * u.length, 3] ++ u.flatMap fun x => leBytes 2 x

/-- The container id with its hub index (R41). -/
def State.containerCap (s : State) (slot hub : Nat) : List Byte :=
  bs [20, 0x10, 4, 0] ++ (s.descOf slot).container.take 15 ++ bs [hub]

/-- A BOS descriptor of its capabilities. -/
def bosOf (caps : List (List Byte)) : List Byte :=
  let l := caps.flatten
  bs [5, 0x0F] ++ leBytes 2 (5 + l.length) ++ bs [caps.length] ++ l

/-- The USB 2.0 Extension: LPM, and BESL for a hub. -/
def extCap (besl : Bool) : List Byte := bs [7, 0x10, 2] ++ leBytes 4 (2 + 4 * b2n besl)

/-- The SuperSpeed USB Device Capability with the latencies of R123. -/
def ssCap : List Byte := bs [10, 0x10, 3, 0, 0x0E, 0, 1, 4] ++ leBytes 2 64

/-- The SuperSpeedPlus capability: 5 and 10 Gb/s, one and two lanes (R113). -/
def sspCap : List Byte :=
  let attr (id rate prot dir : Nat) : List Byte := leBytes 4 (id + 3 * 2^4 + dir * 2^7 + prot * 2^14 + rate * 2^16)
  bs [28, 0x10, 0x0A, 0] ++ leBytes 4 (3 + 1 * 2^5) ++ leBytes 2 (0 + 2 * 2^8 + 2 * 2^12) ++ leBytes 2 0
    ++ attr 1 5 0 0 ++ attr 1 5 0 1 ++ attr 2 10 1 0 ++ attr 2 10 1 1

/-- The port entries of a hub, ROOT_PORTS or PEN_PORTS of them: 0 the root, k + 1 pen k. -/
def PaddockR.portsOf (r : PaddockR) (hub : Nat) : List PortE :=
  if hub = 0 then r.port.take r.rootPorts else let q := r.pens.getD (hub - 1) default; q.port.take q.ports

/-- The stalls of a hub's positions: member and number. -/
def PaddockR.stallsOf (r : PaddockR) (hub : Nat) : List (Nat × Nat) :=
  (r.portsOf hub).filterMap fun e => if e.kind = 1 then stallRef e.ref else none

/-- bPwrOn2PwrGood (R157): from the slowest RAMP, in units of 0.1 V/ms. -/
def pwrGood (ramps : List Nat) : Nat :=
  let slow := ramps.foldl (fun a r => if a = 0 then r else min a r) 0
  if slow = 0 then 10 else max 10 ((52500 + 4000 * slow - 1) / (2000 * slow))

/-- Hop count of the plan's links between two members. -/
def Plan.hops (p : Plan) (a b : Nat) : Nat :=
  let db := ((p.barn.map (·.links)).getD []).map fun e => LinkAd.mk e.memberA e.linkA e.memberB e.linkB false
  (hopDist db b).getD a 0

/-- Has a position of a hub a PORT_LED GPIO on its stall's member (R157)? -/
def Plan.hasLed (p : Plan) (l : List (Nat × Nat)) : Bool :=
  l.any fun x => (p.gpioOf x.1).any fun g => g.fn = 7 ∧ g.arg = x.2

/-- wHubCharacteristics (R157). -/
def State.hubChar (s : State) (r : PaddockR) (hub : Nat) (ss : Bool) : Nat :=
  let es := r.portsOf hub
  let compound := es.any fun e => e.kind = 2 || e.kind = 3 ||
    (e.kind = 1 && (stallRef e.ref).any fun x => s.plan.stallTyp x.1 x.2 = 4)
  1 + 4 * b2n compound + 8 + (if !ss && s.plan.hasLed (r.stallsOf hub) then 0x80 else 0)

/-- DeviceRemovable (R157). -/
def State.removable (s : State) (r : PaddockR) (hub : Nat) : Nat :=
  (((r.portsOf hub).zipIdx).map fun e =>
    let bit := match e.1.kind with
      | 0 => false
      | 1 => !(((stallRef e.1.ref).bind fun x => s.plan.stall? x.1 x.2).map fun y => bitOf y.flags 6).getD false
      | _ => true
    b2n bit * 2 ^ (e.2 + 1)).sum

/-- The hub descriptor of one side (R157). -/
def State.hubDesc (s : State) (r : PaddockR) (hub : Nat) (ss : Bool) : List Byte :=
  let n := (r.portsOf hub).length
  let sts := r.stallsOf hub
  let pg := pwrGood (sts.map fun x => (s.plan.efuseOf x.1 x.2).ramp)
  let char := s.hubChar r hub ss
  let rem := s.removable r hub
  if ss then
    let far := (sts.filter fun x => ((s.plan.stall? x.1 x.2).map (·.ssMode)).getD 0 ≠ 0).map fun x => s.plan.hops r.upMember x.1
    bs [12, 0x2A, n] ++ leBytes 2 char ++ bs [pg, 0, 2] ++ leBytes 2 (160 + 172 * maxOf far) ++ leBytes 2 rem
  else
    let k := n / 8 + 1
    bs [7 + 2 * k, 0x29, n] ++ leBytes 2 char ++ bs [pg, 0] ++ leBytes k rem ++ List.replicate k 0xFF

/-- A logical hub's descriptor as one side answers it; `none` for an index it does not have (R156). -/
def State.hubAnswer (s : State) (slot hub : Nat) (ss fs : Bool) (d : DescReq) : Option (List Byte) :=
  (s.plan.paddock? slot).bind fun r =>
    let x := s.descOf slot
    let life := s.mode = 1
    let attr := if life then 0xA0 else 0xE0
    match d with
    | .device =>
      some (bs [18, 1] ++ leBytes 2 (if ss then 0x0320 else 0x0210)
        ++ bs [9, 0, if ss then 3 else if fs then 0 else 2, if ss then 9 else 64]
        ++ leBytes 2 x.vid ++ leBytes 2 x.pidHub ++ leBytes 2 x.bcdDevice ++ bs [1, 2, if hub = 0 then 3 else 0, 1])
    | .config =>
      let ep := bs [7, 5, 0x81, if ss then 0x13 else 3, 2, 0, if !ss && fs then 255 else 12]
      let body :=
        if ss then bs [9, 4, 0, 0, 1, 9, 0, 0, 0] ++ ep ++ bs [6, 0x30, 0, 0, 2, 0]
        else bs [9, 4, 0, 0, 1, 9, 0, 1, 0] ++ ep ++ bs [9, 4, 0, 1, 1, 9, 0, 2, 0] ++ ep
      some (bs [9, 2] ++ leBytes 2 (9 + body.length)
        ++ bs [1, 1, 0, attr, if !life then 0 else if ss then 0x70 else 0xFA] ++ body)
    | .bos =>
      some (if ss then bosOf ([ssCap] ++ (if hub = 0 then [sspCap] else []) ++ [s.containerCap slot hub])
        else bosOf [extCap true, s.containerCap slot hub])
    | .hub => some (s.hubDesc r hub ss)
    | .string 0 => some (stringDesc [0x0409])
    | .string 1 => some (stringDesc x.mfr)
    | .string 2 => some (stringDesc x.prod)
    | .string 3 => if hub = 0 then some (stringDesc (s.serialOf slot)) else none
    | .string _ => none

/-- The Billboard Capability (R296). -/
def billboardCap (entered : Bool) : List Byte :=
  bs [48, 0x10, 0x0D, 0, 1, 0] ++ leBytes 2 0 ++ leBytes 32 (if entered then 2 else 1) ++ leBytes 2 0x0121 ++ bs [0, 0]
    ++ leBytes 2 0xFF01 ++ bs [0, 0]

/-- The tack room's descriptors (R289, R296): `bb` while Billboard is presented. -/
def State.tackAnswer (s : State) (slot : Nat) (bb entered : Bool) (d : DescReq) : Option (List Byte) :=
  let x := s.descOf slot
  match d with
  | .device =>
    some (bs [18, 1] ++ leBytes 2 0x0210 ++ bs [0, 0, 0, 64] ++ leBytes 2 x.vid ++ leBytes 2 x.pidTack
      ++ leBytes 2 x.bcdDevice ++ bs [1, 2, 3, 1])
  | .config =>
    let body := bs [9, 4, 0, 0, 3, 0xFF, 0x5A, 1, 0] ++ bs [7, 5, 0x81, 3, 16, 0, 4] ++ bs [7, 5, 0x82, 2, 0, 2, 0]
      ++ bs [7, 5, 0x03, 2, 0, 2, 0] ++ (if bb then bs [9, 4, 1, 0, 0, 0x11, 0, 0, 0] else [])
    some (bs [9, 2] ++ leBytes 2 (9 + body.length) ++ bs [if bb then 2 else 1, 1, 0, 0xA0, 1] ++ body)
  | .bos => some (bosOf ([extCap false, s.containerCap slot 0] ++ if bb then [billboardCap entered] else []))
  | .hub => none
  | .string 0 => some (stringDesc [0x0409])
  | .string 1 => some (stringDesc x.mfr)
  | .string 2 => some (stringDesc (x.prod ++ textUnits " Tack Room"))
  | .string 3 => some (stringDesc (s.serialOf slot))
  | .string _ => none

end Sys2Proof.Machine
end

