-- ==== Sys2Proof/Machine/Paddock.lean ====
section
/-!
DEFINITION. Paddocks toward their hosts: the port-status mirror, hub requests, and the hand-off of stalls (R153 to R168 of
spec/07_paddocks.md).
-/
namespace Sys2Proof.Machine

/-- Does this chip answer for a logical hub (R154)? -/
def State.answers (s : State) (slot hub : Nat) : Bool :=
  (s.plan.paddock? slot).any fun r =>
    if hub = 0 then r.upMember = s.member && s.on (UPP_PADDOCK.BOUND r.upPort)
    else hub ≤ r.pens.length && (r.pens.getD (hub - 1) default).engine = s.member

/-! ## Mirror transport (R159 to R161) -/

/-- A remote port's status shows that its device has resumed it: the home member drives U3 exit upstream, if the stall's member has
not told it so already (R125). -/
def State.mirWoke (s : State) (q : MirPos) (ss ssChg : Nat) : State :=
  let woke := bitOf ssChg 6 && !bitOf q.st.ssChg 6 && bitsOf ss 5 4 = 0
  match s.homeOf q.slot with
  | some (m, u) => s.when (woke && m = s.member) fun s => s.wakeHost u
  | none => s

/-- MIRROR_RECORD (R159, R160): applied in sequence; a gap asks for a snapshot. -/
def execMirrorRecord (c : CtrlHdr) (slot : Fin 4) (hub port : Fin 16) (seq hs hsChg ss ssChg u1 u2 : Nat) (s : State) : Res :=
  .next (s.rxCtrl c "MIRROR" [slot.val, hub.val, port.val, seq, hs, hsChg, ss, ssChg, u1, u2] fun s =>
    match s.mir slot hub port with
    | none => s
    | some q =>
      if q.reach && seq = (q.st.seq + 1) % 65536 then
        let s := s.mirMod slot hub port fun q =>
          q.take { q.st with hs := hs, hsChg := hsChg, ss := ss, ssChg := ssChg, seq := seq } u1 u2 s.cycle
        s.mirWoke q ss ssChg
      else ((s.hw UPP_EVT.MIRROR_RESYNC).raise 39).ctrlTo c.src "MIRROR_ASK" [slot.val, hub.val, port.val])

/-- The snapshot of a stall's position goes to its answering member. -/
def State.snapshot (s : State) (n : Nat) : State :=
  match s.posOf n with
  | none => s
  | some (slot, p, am) =>
    s.each (((am :: (s.homeOf slot).toList.map (·.1)).eraseDups).filter fun m => m ≠ s.member) fun m s =>
      s.ctrlTo m "SNAPSHOT" (s.mirFields n slot p.hub p.port)

/-- MIRROR_SNAPSHOT (R159, R161): every 1,000 intervals, on request, and as received; the first after a member becomes reachable
again brings connection changes. -/
def execMirrorSnapshot (e : SnapEvent) (s : State) : Res :=
  .next (match e with
    | .timer slot => s.when ((vat s.yards slot).iv % 1000 = 0) fun s => s.each (s.heldStalls slot) fun n s => s.snapshot n
    | .asked c slot hub port => s.rxCtrl c "MIRROR_ASK" [slot.val, hub.val, port.val] fun s =>
        match (s.heldStalls slot).find? fun n =>
            (s.posOf n).any fun (x : Nat × Pos × Nat) => x.2.1.hub = hub.val && x.2.1.port = port.val with
        | some n => match s.posOf n with
          | some (y, p, _) => s.ctrlTo c.src "SNAPSHOT" (s.mirFields n y p.hub p.port)
          | none => s
        | none => s
    | .got c slot hub port seq hs hsChg ss ssChg u1 u2 =>
      s.rxCtrl c "SNAPSHOT" [slot.val, hub.val, port.val, seq, hs, hsChg, ss, ssChg, u1, u2] fun s =>
        let old := s.mir slot hub port
        let s := s.mirMod slot hub port fun q =>
          let back := !q.reach
          let st := { q.st with hs := hs, ss := ss, seq := seq,
                                hsChg := if back && bitOf hs 0 then orBits hsChg 1 else hsChg,
                                ssChg := if back && bitOf ss 0 then orBits ssChg 1 else ssChg }
          { q.take st u1 u2 s.cycle with reach := true }
        (old.map fun q => s.mirWoke q ss ssChg).getD s)

/-! ## Hub requests (R160, R162) -/

/-- STATUS_CHANGE_IN (R160): the bitmap, or NAK while it is 0; a bit set by a record in this cycle waits for the next IN. -/
def execStatusChangeIn (slot : Fin 4) (hub : Fin 16) (ss : Bool) (s : State) : Res :=
  .next (s.when (s.answers slot hub) fun s =>
    let ports := s.mirror.filter fun q => q.slot = slot.val && q.hub = hub.val &&
      (let v := s.shown q
       let fresh := if q.newAt = s.cycle then (if ss then q.newSs else q.newHs) else 0
       clrBits (if ss then v.ssChg else v.hsChg) fresh ≠ 0)
    let map := (ports.map fun q => 2 ^ q.port).sum
    if map = 0 then s.out (.usbNak slot) else s.hubOut slot hub ss true (leBytes 2 map))

/-- GET_HUB_STATUS (R162). -/
def execGetHubStatus (slot : Fin 4) (hub : Fin 16) (s : State) : Res :=
  .next (s.when (s.answers slot hub) fun s => s.hubData slot hub false (leBytes 4 (b2n (s.mode = 1))))

/-- A request to a position of a hub this chip answers for; STALL for one it does not have (R162). -/
def State.portReq (s : State) (slot hub port : Nat) (f : MirPos → State → State) : State :=
  s.when (s.answers slot hub) fun s =>
    match s.mir slot hub port with
    | none => s.out (.usbStall slot)
    | some q => f q s

/-- GET_PORT_STATUS (R155, R162). -/
def execGetPortStatus (slot : Fin 4) (hub port : Fin 16) (ss : Bool) (s : State) : Res :=
  .next (s.portReq slot hub port fun q s =>
    let v := s.shown q
    s.hubData slot hub ss (if ss then leBytes 2 v.ss ++ leBytes 2 v.ssChg else leBytes 2 v.hs ++ leBytes 2 v.hsChg))

/-- A request that only the holding chip can complete (R162): it waits for the report. -/
def State.askHolder (s : State) (q : MirPos) (act : PortAct) : State :=
  if !s.heldBy q || !q.reach then s.out (.usbStall q.slot)
  else
    let keep : PortAct := if (ttWord q.stall act).isSome then .hotReset else act
    let s := s.when (q.member ≠ s.member) fun s =>
      s.withHubWaits (s.hubWaits ++ [⟨q.slot, q.hub, q.port, s.member, q.stall, keep⟩])
    s.issue q.slot q.member q.stall act

/-- GET_PORT_STATUS_EXT (R19, R155, R162): status and changes from the mirror, with the speed id and lanes of the link as the holding
chip reports them; a pen's port has the upstream link's (R103), and a position that reads as nothing connected has none. -/
def execGetPortStatusExt (slot : Fin 4) (hub port : Fin 16) (s : State) : Res :=
  .next (s.portReq slot hub port fun q s =>
    if q.kind = 1 && s.heldBy q && q.reach then s.askHolder q .queryExt
    else
      let v := s.shown q
      let w := if q.kind = 2 && bitOf v.ss 0 then rateLanes (s.g (SSH_PORT.RATE (15 + s.upOf slot))) else [0, 0]
      s.hubData slot hub true (([v.ss, v.ssChg] ++ w).flatMap fun x => leBytes 4 x))

/-- GET_PORT_ERROR_COUNT (R162). -/
def execGetPortErrorCount (slot : Fin 4) (hub port : Fin 16) (s : State) : Res :=
  .next (s.portReq slot hub port fun q s =>
    if q.kind = 1 && s.heldBy q && q.reach then s.askHolder q .queryErr else s.hubData slot hub true (leBytes 2 0))

/-- HUB_REQUEST_RESULT (R162): the report of the holding chip; `none` when it arises at this chip. -/
def execHubRequestResult (src : Option CtrlHdr) (slot : Fin 4) (hub port : Fin 16) (words : List Nat) (s : State) : Res :=
  .next (
    let fin (s : State) : State :=
      match s.hubWaits.find? fun w => w.slot = slot.val && w.hub = hub.val && w.port = port.val with
      | none => s
      | some w => s.finishWait w words
    match src with
    | some c => s.rxCtrl c "HUB_RESULT" ([slot.val, hub.val, port.val] ++ words) fin
    | none => fin s)

/-- GET_HUB_DESCRIPTOR (R156, R157). -/
def execGetHubDescriptor (slot : Fin 4) (hub : Fin 16) (ss : Bool) (d : DescReq) (s : State) : Res :=
  .next (s.when (s.answers slot hub) fun s =>
    let fs := hub.val = 0 && (s.rootEngine slot).any fun e => s.g (HSH_ENG.SPEED e) = 1
    match s.hubAnswer slot hub ss fs d with
    | some l => s.hubData slot hub ss l
    | none => s.out (.usbStall slot))

/-- CLEAR_HUB_FEATURE (R162): C_HUB_LOCAL_POWER and C_HUB_OVER_CURRENT. -/
def execClearHubFeature (slot : Fin 4) (hub : Fin 16) (_oc : Bool) (s : State) : Res :=
  .next (s.when (s.answers slot hub) fun s => s.out (.usbAck slot))

/-- UNSUPPORTED_HUB_REQUEST (R162). -/
def execUnsupportedHubRequest (slot : Fin 4) (hub : Fin 16) (s : State) : Res :=
  .next (s.when (s.answers slot hub) fun s => s.out (.usbStall slot))

/-- An order or act for a position's stall, and the acknowledgement of the request (R135, R162). -/
def State.actOn (s : State) (q : MirPos) (act : PortAct) : State :=
  (s.when (s.heldBy q && q.reach) fun s => s.issue q.slot q.member q.stall act).out (.usbAck q.slot)

/-- The mirror entry itself changes: positions without a stall are kept here. -/
def State.mirOwn (s : State) (q : MirPos) (f : PortStat → PortStat) : State :=
  s.mirMod q.slot q.hub q.port fun x => { x with st := f x.st }

/-- Stall positions of the pen below a kind-2 position that its slot holds. -/
def State.penPositions (s : State) (q : MirPos) : List Pos :=
  ((s.plan.paddock? q.slot).map fun r => (r.positions.filter fun p => p.hub = q.stall + 1 &&
    s.holders.contains ⟨p.member, p.stall, q.slot⟩)).getD []

/-- An act on every stall of a pen. -/
def State.penAct (s : State) (q : MirPos) (act : PortAct) : State :=
  (s.penPositions q).foldl (fun s p => s.issue q.slot p.member p.stall act) s

/-- An act on the bus of the pen below a kind-2 position, at every member that has part in it. -/
def State.penBus (s : State) (q : MirPos) (act : PortAct) : State :=
  s.each (s.slotMembers q.slot) fun m s => s.issue q.slot m 15 act

/-- The reset of a pen (R144): its engine and relays, its positions and their TTs, on every member. -/
def State.resetPen (s : State) (q : MirPos) : State := s.penBus q (.busReset (q.stall + 1))

/-! ## The tack room at its position (R165) -/

/-- TKR_FUNC.STATE of a slot's tack room, with what falls away when it is left. -/
def State.tackState (s : State) (slot st : Nat) : State :=
  let u := s.upOf slot
  let s := s.p (TKR_FUNC.STATE u) st
  s.when (st ≤ 2) fun s =>
    let s := (s.p (TKR_FUNC.ADDR u) 0).p (TKR_FUNC.RWAKE u) 0
    s.withTack (vmod s.tack u fun x => { x with configured := false, send := none })

/-- The device states a tack room returns to on resume. -/
def State.tackAwake (s : State) (slot : Nat) : Nat :=
  let u := s.upOf slot
  if s.g (TKR_FUNC.ADDR u) = 0 then 2 else if vat s.tack u |>.configured then 4 else 3

/-- The SS side of a pen's position: connected in U0, or nothing (R103, R155). Bits 12:10 of wPortStatus stay 0, the one speed that
USB 3.2 states there; the rate is in the extended status. -/
def PortStat.ownSs (q : PortStat) (here : Bool) : PortStat :=
  if here then { q with ss := orBits (clrBits q.ss 0x1DE0) 3, ssChg := if bitOf q.ss 0 then q.ssChg else orBits q.ssChg 1 }
  else { q with ss := orBits (clrBits q.ss 0x1FE3) 0x80, ssChg := if bitOf q.ss 0 then orBits q.ssChg 1 else q.ssChg }

/-- The tack room connects at its powered position, where it is enabled and not away for Billboard, and leaves it otherwise
(R165, R296, TKR_CTRL.ENABLE). -/
def State.tackPlace (s : State) (q : MirPos) : State :=
  let u := s.upOf q.slot
  let on := ((s.mir q.slot q.hub q.port).map fun x => bitOf x.st.hs 8 || bitOf x.st.ss 9).getD false
  let now := on && s.on TKR_CTRL.ENABLE && !(vat s.tack u).away
  let s := s.mirOwn q fun x => x.own now
  if !now then s.tackState q.slot 0
  else s.when (s.g (TKR_FUNC.STATE u) = 0) fun s => s.tackState q.slot 1

/-- The tack room's position in a slot's root. -/
def State.tackPos (s : State) (slot : Nat) : Option MirPos := s.mirror.find? fun q => q.slot = slot && q.kind = 3

/-! ## Requests that act -/

/-- SET_PORT_RESET (R137, R144, R162, R165): a pen's position is enabled when its reset ends, here at once. -/
def execSetPortReset (slot : Fin 4) (hub port : Fin 16) (s : State) : Res :=
  .next (s.portReq slot hub port fun q s =>
    match q.kind with
    | 1 => s.actOn q .reset
    | 2 =>
      let s := s.when (bitOf (s.shown q).hs 0) fun s =>
        (((s.resetPen q).penBus q (.penOn q.stall)).mirOwn q fun x => { x with hs := orBits (clrBits x.hs 4) 2, hsChg := orBits x.hsChg 0x10 })
      s.out (.usbAck slot)
    | 3 =>
      let s := s.when (bitOf q.st.hs 0) fun s =>
        (s.tackState slot 2).mirOwn q fun x => { x with hs := orBits (clrBits x.hs 4) 2, hsChg := orBits x.hsChg 0x10 }
      s.out (.usbAck slot)
    | _ => s.out (.usbAck slot))

/-- SET_PORT_SUSPEND (R139, R162, R165). -/
def execSetPortSuspend (slot : Fin 4) (hub port : Fin 16) (s : State) : Res :=
  .next (s.portReq slot hub port fun q s =>
    let mark (s : State) : State := s.mirOwn q fun x => { x with hs := orBits x.hs 4 }
    match q.kind with
    | 1 => s.actOn q .suspend
    | 2 => (s.when (bitOf (s.shown q).hs 1) fun s => mark (s.penAct q .suspend)).out (.usbAck slot)
    | 3 => (s.when (bitOf q.st.hs 1) fun s => mark (s.tackState slot 5)).out (.usbAck slot)
    | _ => s.out (.usbAck slot))

/-- CLEAR_PORT_SUSPEND (R139, R162). -/
def execClearPortSuspend (slot : Fin 4) (hub port : Fin 16) (s : State) : Res :=
  .next (s.portReq slot hub port fun q s =>
    let mark (s : State) : State := s.mirOwn q fun x => { x with hs := clrBits x.hs 4, hsChg := orBits x.hsChg 4 }
    match q.kind with
    | 1 => s.actOn q .resume
    | 2 => (s.when (bitOf q.st.hs 2) fun s => mark ((s.penBus q (.penOn q.stall)).penAct q .resume)).out (.usbAck slot)
    | 3 => (s.when (bitOf q.st.hs 2) fun s => mark (s.tackState slot (s.tackAwake slot))).out (.usbAck slot)
    | _ => s.out (.usbAck slot))

/-- A position of the hub's own, or one without a stall, takes a PORT_POWER change of one side (R155, R163, R165). -/
def State.ownPower (s : State) (q : MirPos) (ss on : Bool) : State :=
  let s := s.mirOwn q fun x =>
    if ss then { x with ss := if on then orBits x.ss 0x200 else clrBits x.ss 0x200 }
    else { x with hs := if on then orBits x.hs 0x100 else clrBits x.hs 0x100 }
  let was := bitOf q.st.hs 8 || bitOf q.st.ss 9
  let now := ((s.mir q.slot q.hub q.port).map fun x => bitOf x.st.hs 8 || bitOf x.st.ss 9).getD false
  if was = now then s
  else match q.kind with
    | 2 =>
      let s := s.mirOwn q fun x => (x.own now).ownSs now
      if now then s else s.resetPen q
    | 3 => s.tackPlace q
    | _ => s

/-- The power request of one side (R163). -/
def State.powerReq (s : State) (q : MirPos) (ss on : Bool) : State :=
  if s.heldBy q && q.reach then s.actOn q (.power ss on) else (s.ownPower q ss on).out (.usbAck q.slot)

/-- SET_PORT_POWER (R155, R163, R164, R165). -/
def execSetPortPower (slot : Fin 4) (hub port : Fin 16) (ss : Bool) (s : State) : Res :=
  .next (s.portReq slot hub port fun q s => s.powerReq q ss true)

/-- CLEAR_PORT_POWER (R163, R165). -/
def execClearPortPower (slot : Fin 4) (hub port : Fin 16) (ss : Bool) (s : State) : Res :=
  .next (s.portReq slot hub port fun q s => s.powerReq q ss false)

/-- CLEAR_PORT_ENABLE (R162, R165). -/
def execClearPortEnable (slot : Fin 4) (hub port : Fin 16) (s : State) : Res :=
  .next (s.portReq slot hub port fun q s =>
    if q.kind = 1 then s.actOn q .disable
    else
      let s := s.when (q.kind = 3 && bitOf q.st.hs 1) fun s => s.tackState slot 1
      (s.mirOwn q fun x => { x with hs := clrBits x.hs 6 }).out (.usbAck slot))

/-- SET_PORT_TEST (R136, R162): only while every port of the hub is suspended, disabled or powered off. -/
def execSetPortTest (slot : Fin 4) (hub port : Fin 16) (mode : Fin 8) (s : State) : Res :=
  .next (s.portReq slot hub port fun q s =>
    let quiet := s.mirror.all fun x => x.slot ≠ slot.val || x.hub ≠ hub.val ||
      (let h := (s.shown x).hs
       bitOf h 2 || !bitOf h 1 || !bitOf h 8)
    if q.kind ≠ 1 || !quiet || mode.val = 0 || 5 < mode.val then s.out (.usbStall slot) else s.actOn q (.test mode))

/-- PORT_INDICATOR (R162). -/
def execPortIndicator (slot : Fin 4) (hub port : Fin 16) (on : Bool) (s : State) : Res :=
  .next (s.portReq slot hub port fun q s => if q.kind = 1 then s.actOn q (.indicator on) else s.out (.usbAck slot))

/-- The change bits a host may clear on each side (R162). -/
def changeBits (ss : Bool) : List Nat := if ss then [0, 3, 4, 5, 6, 7] else [0, 1, 2, 3, 4]

/-- Has a record of this cycle set a change bit of the position, or is one behind this command still to set it (R160)? -/
def State.changeNow (s : State) (q : MirPos) (ss : Bool) (bit : Nat) : Bool :=
  let coming := !bitOf (if ss then q.st.ssChg else q.st.hsChg) bit && s.ahead fun c => match c with
    | .mirrorRecord _ y h p _ _ x _ z _ _ => y = q.slot && h = q.hub && p = q.port && bitOf (if ss then z else x) bit
    | _ => false
  coming || (q.newAt = s.cycle && bitOf (if ss then q.newSs else q.newHs) bit)

/-- CLEAR_PORT_CHANGE (R160, R162): in the mirror and at the holding chip; a bit that a record sets in this cycle stays set. -/
def execClearPortChange (slot : Fin 4) (hub port : Fin 16) (ss : Bool) (bit : Fin 8) (s : State) : Res :=
  .next (s.portReq slot hub port fun q s =>
    if !(changeBits ss).contains bit.val then s.out (.usbStall slot)
    else if s.changeNow q ss bit then s.out (.usbAck slot)
    else
      let s := s.mirOwn q fun x =>
        if ss then { x with ssChg := clrBits x.ssChg (2 ^ bit.val) } else { x with hsChg := clrBits x.hsChg (2 ^ bit.val) }
      s.actOn q (.clearChange ss bit))

/-- CLEAR_TT_BUFFER (R150, R162). -/
def execClearTtBuffer (slot : Fin 4) (hub port : Fin 16) (dev : Fin 128) (ep : Fin 16) (bulk dirIn : Bool) (s : State) : Res :=
  .next (s.portReq slot hub port fun q s =>
    if q.kind = 1 then s.askHolder q (.ttClear dev ep bulk dirIn) else s.out (.usbStall slot))

/-- RESET_TT (R150, R162). -/
def execResetTt (slot : Fin 4) (hub port : Fin 16) (s : State) : Res :=
  .next (s.portReq slot hub port fun q s => if q.kind = 1 then s.askHolder q .ttReset else s.out (.usbStall slot))

/-- STOP_TT (R150, R162). -/
def execStopTt (slot : Fin 4) (hub port : Fin 16) (s : State) : Res :=
  .next (s.portReq slot hub port fun q s => if q.kind = 1 then s.askHolder q .ttStop else s.out (.usbStall slot))

/-- SET_AND_TEST_PORT_L1 (R142, R162). -/
def execSetAndTestPortL1 (slot : Fin 4) (hub port : Fin 16) (besl : Fin 16) (rwe : Bool) (s : State) : Res :=
  .next (s.portReq slot hub port fun q s => if q.kind = 1 then s.askHolder q (.lpm besl rwe) else s.out (.usbStall slot))

/-- CLEAR_PORT_L1 (R142, R162). -/
def execClearPortL1 (slot : Fin 4) (hub port : Fin 16) (s : State) : Res :=
  .next (s.portReq slot hub port fun q s => if q.kind = 1 then s.actOn q .l1Exit else s.out (.usbAck slot))

/-- SET_HUB_DEPTH (R101, R162): 0 to 4 at the root; at a pen the root's depth plus one. -/
def execSetHubDepth (slot : Fin 4) (hub : Fin 16) (depth : Fin 65536) (s : State) : Res :=
  .next (s.when (s.answers slot hub) fun s =>
    let root := (s.upKnown slot).depth
    let ok := decide (depth.val ≤ 4) && (hub.val = 0 || decide (depth.val = root + 1))
    let pen := if hub.val = 0 then 0xF else hub.val - 1
    if !ok then s.out (.usbStall slot)
    else
      let s := s.hubMod slot pen fun h => { h with depth := depth, depthSet := true }
      let s := s.ctxEach slot pen fun i s => (s.p (SSH_CTX.DEPTH i) depth).p (SSH_CTX.DEPTH_SET i) 1
      (s.when (hub.val = 0) fun s => s.tellUp slot).out (.usbAck slot))

/-- SET_PORT_U1_TIMEOUT (R103, R120): a pen's is recorded and has no effect. -/
def execSetPortU1Timeout (slot : Fin 4) (hub port : Fin 16) (v : Fin 256) (s : State) : Res :=
  .next (s.portReq slot hub port fun q s =>
    (s.mirMod slot hub port fun x => { x with u1 := v }).actOn q (.u1 v))

/-- SET_PORT_U2_TIMEOUT (R103, R120). -/
def execSetPortU2Timeout (slot : Fin 4) (hub port : Fin 16) (v : Fin 256) (s : State) : Res :=
  .next (s.portReq slot hub port fun q s =>
    (s.mirMod slot hub port fun x => { x with u2 := v }).actOn q (.u2 v))

/-- SET_PORT_LINK_STATE (R103, R124 to R126, R162). -/
def execSetPortLinkState (slot : Fin 4) (hub port : Fin 16) (v : Fin 16) (s : State) : Res :=
  .next (s.portReq slot hub port fun q s =>
    if !([0, 3, 4, 5].contains v.val) then s.out (.usbStall slot)
    else if q.kind = 2 then
      let s := s.when (v.val = 0 || v.val = 3) fun s =>
        (s.penAct q (.linkState v)).mirOwn q fun x => { x with ss := orBits (clrBits x.ss 0x1E0) (v.val * 2^5) }
      let s := s.when (v.val = 4) fun s => (s.penBus q (.penReset q.stall)).mirOwn q fun x => x.ownSs false
      let s := s.when (v.val = 5 && bitsOf q.st.ss 5 4 = 4 && bitOf q.st.ss 9) fun s =>
        s.mirOwn q fun x => x.ownSs true
      s.out (.usbAck slot)
    else s.actOn q (.linkState v))

/-- SET_PORT_REMOTE_WAKE_MASK (R162). -/
def execSetPortRemoteWakeMask (slot : Fin 4) (hub port : Fin 16) (mask : Fin 256) (s : State) : Res :=
  .next (s.portReq slot hub port fun q s => s.actOn q (.wakeMask mask))

/-- SS_PORT_RESET (R144, R162): a hot reset; of a pen's position, the pen's. -/
def execSsPortReset (slot : Fin 4) (hub port : Fin 16) (s : State) : Res :=
  .next (s.portReq slot hub port fun q s =>
    if q.kind = 2 then
      (((s.resetPen q).penBus q (.penReset q.stall)).mirOwn q
        fun x => { x with ssChg := orBits x.ssChg 0x10 }).out (.usbAck slot)
    else s.actOn q .hotReset)

/-- BH_PORT_RESET (R162): a warm reset. -/
def execBhPortReset (slot : Fin 4) (hub port : Fin 16) (s : State) : Res :=
  .next (s.portReq slot hub port fun q s =>
    if q.kind = 2 then
      (((s.resetPen q).penBus q (.penReset q.stall)).mirOwn q
        fun x => { x with ssChg := orBits x.ssChg 0x30 }).out (.usbAck slot)
    else s.actOn q .warmReset)

/-- FORCE_LINKPM_ACCEPT (R162). -/
def execForceLinkpmAccept (slot : Fin 4) (hub port : Fin 16) (on : Bool) (s : State) : Res :=
  .next (s.portReq slot hub port fun q s => s.actOn q (.forceLpm on))

/-! ## Hand-off (R166 to R168) -/

/-- The KVM group: every stall with positions in two or more paddocks (R166). -/
def State.kvmGroup (s : State) : List (Nat × Nat) :=
  let all := s.plan.paddocks.map fun r => (r.positions.map fun p => (p.member, p.stall))
  let l := all.flatten.eraseDups
  l.filter fun x => (all.filter fun a => a.contains x).length ≥ 2

/-- Has a slot's paddock a position for a stall? -/
def State.hasPos (s : State) (slot : Nat) (x : Nat × Nat) : Bool :=
  (s.plan.paddock? slot).any fun r => r.positions.any fun p => p.member = x.1 && p.stall = x.2

/-- The slot that holds a stall of the barn. -/
def State.slotHolding (s : State) (x : Nat × Nat) : Option Nat :=
  (s.holders.find? fun h => h.member = x.1 && h.stall = x.2).map (·.slot)

/-- The running hand-offs of the lead. -/
def State.handMod (s : State) (i : Nat) (f : HandoffS → HandoffS) : State :=
  s.withHandoff (s.handoff.zipIdx.map fun x => if x.2 = i then f x.1 else x.1)

/-- Is a stall in a running hand-off (R166)? -/
def State.handing (s : State) (x : Nat × Nat) : Bool :=
  s.handoff.any fun h => h.stalls.any fun y => y.member = x.1 && y.stall = x.2

/-- The chips that hold the stalls of hand-off i learn its step (R167): UPP_HANDOFF shows the last hand-off of a chip's stalls. -/
def State.handTell (s : State) (i step : Nat) : State :=
  let h := s.handoff.getD i {}
  let later := (s.handoff.drop (i + 1)).flatMap (·.stalls)
  h.stalls.foldl (fun s x =>
    let act : PortAct := .handShow x.member step h.ms x.slot h.dest (!later.any fun y => y.member = x.member)
    if x.member = s.member then s.doAct x.slot x.stall act
    else s.ctrlTo x.member "ORDER" ([x.slot, x.stall, 0] ++ actFields act)) s

/-- A hand-off of checked stalls begins at the lead (R167). -/
def State.beginHandoff (s : State) (l : List Holder) (dest : Nat) : State :=
  let id := (s.handoff.map (·.id + 1)).foldl max 0
  let s := s.withHandoff (s.handoff ++ [{ id := id, stalls := l, dest := dest }])
  s.handTell (s.handoff.length - 1) 1

/-- KVM_SET's stalls for a destination (R166): a stall that a hand-off is moving is held by no slot, and so not by this one. -/
def State.kvmStalls (s : State) (dest : Nat) : List Holder :=
  let moving := (s.handoff.flatMap (·.stalls)).filter fun h => (s.slotHolding (h.member, h.stall)).isNone
  (s.holders.filter fun h => s.kvmGroup.contains (h.member, h.stall) && s.hasPos dest (h.member, h.stall) && h.slot ≠ dest)
    ++ moving.filter fun h => s.kvmGroup.contains (h.member, h.stall) && s.hasPos dest (h.member, h.stall)

/-- Is a slot's root configured, as the home member holds it or has told? -/
def State.slotConfigured (s : State) (slot : Nat) : Bool := (s.upKnown slot).conf

/-- The slot a button press goes to (R166): the next bound slot above the one that holds the most group stalls. -/
def State.kvmNext (s : State) : Option Nat :=
  let held (y : Nat) : Nat := (s.kvmGroup.filter fun x => s.slotHolding x = some y).length
  let most := [0, 1, 2, 3].foldl (fun a y => if held y > held a then y else a) 0
  ([1, 2, 3].map fun d => (most + d) % 4).find? fun y => (s.plan.paddock? y).isSome && s.slotConfigured y

/-- A press acts as KVM_SET at the lead; false when it is ignored (R166). -/
def State.kvmPress (s : State) : Bool × State :=
  match s.kvmNext with
  | none => (false, s)
  | some dest =>
    let l := s.kvmStalls dest
    if s.mode ≠ 3 || l.any fun h => s.handing (h.member, h.stall) then (false, s) else (true, s.beginHandoff l dest)

/-- KVM_BUTTON_PRESS (R166): a debounced press on a KVM_BUTTON GPIO; it goes to the lead. -/
def execKvmButtonPress (s : State) : Res :=
  .next (
    let lead := s.g DRV_BARN.LEAD
    if !(s.plan.gpioOf s.member).any (·.fn = 6) then s
    else if s.on DRV_BARN.IS_LEAD then (if s.kvmPress.1 then s.kvmPress.2 else s.hw UPP_EVT.KVM_IGNORED)
    else if s.mode = 3 && s.on DRV_BARN.FORMED && s.reach lead then s.ctrlTo lead "ORDER" ([0, 15, 0] ++ actFields .kvmButton)
    else s.hw UPP_EVT.KVM_IGNORED)

/-- Hand-off i goes to a step, and the chips that hold its stalls show it. -/
def State.handStep (s : State) (i st : Nat) : State := (s.handMod i fun h => { h with step := st }).handTell i st

/-- An act of the hand-off for one stall goes to every member of the barn that can be reached. -/
def State.handAll (s : State) (h : Holder) (act : PortAct) : State :=
  s.each ((List.range 8).filter fun m => m = s.member || s.reach m) fun m s =>
    if m = s.member then s.doAct h.slot h.stall act
    else s.ctrlTo m "ORDER" ([h.slot, h.stall, 0] ++ actFields act)

/-- Step 5 at the answering member of the new position: the host's PORT_POWER there, then the mirrored state (R163, R167). -/
def State.attachHere (s : State) (h : Holder) (dest ms : Nat) : State :=
  match s.mirror.find? fun q => !q.obs && q.slot = dest && q.kind = 1 && q.member = h.member && q.stall = h.stall with
  | none => s.when (h.member = s.member) fun s => s.handAttach h.member h.stall h.slot dest ms false false
  | some q => s.issue dest h.member h.stall (.attach h.member h.slot ms (bitOf q.st.hs 8) (bitOf q.st.ss 9))

/-- Does this chip answer for a slot's position of a stall? -/
def State.answering (s : State) (slot m n : Nat) : Bool :=
  s.mirror.any fun q => !q.obs && q.slot = slot && q.kind = 1 && q.member = m && q.stall = n

/-- ORDER_RECEIVED (R135, R162, R166, R167): the lead's `attach` goes to the answering member, which passes it on with the
position's power; a press of another member's button is answered when it is ignored. -/
def execOrderReceived (c : CtrlHdr) (slot : Fin 4) (n : Fin 16) (stamp : Nat) (act : PortAct) (s : State) : Res :=
  .next (s.rxCtrl c "ORDER" ([slot.val, n.val, stamp] ++ actFields act) fun s =>
    match act with
    | .attach m src ms _ _ =>
      if m = s.member && !(s.answering slot m n) then s.arrive c.src slot n stamp act else s.attachHere ⟨m, n, src⟩ slot ms
    | .kvmButton =>
      if s.on DRV_BARN.IS_LEAD && s.kvmPress.1 then s.kvmPress.2 else s.ctrlTo c.src "ORDER" ([0, 15, 0] ++ actFields .kvmIgnored)
    | _ => s.arrive c.src slot n stamp act)

/-- One step of R167 of hand-off i completes, after `ms` ms; true when it was the last. -/
def State.handDone (s : State) (i ms : Nat) : Bool × State :=
  let s := s.handMod i fun h => { h with ms := h.ms + ms }
  let h := s.handoff.getD i {}
  let fin (s : State) : State := (s.handTell i 0).withHandoff (s.handoff.eraseIdx i)
  match h.step with
  | 1 =>
    if h.stalls.all fun x => x.slot = h.dest then
      (true, fin (h.stalls.foldl (fun s x => s.handRecord x.member x.stall x.slot h.dest h.ms) s))
    else (false, (h.stalls.foldl (fun s x => s.handAll x (.detach x.member)) s).handStep i 2)
  | 2 => (false, s.handStep i 3)
  | 4 => (false, (h.stalls.foldl (fun s x => s.handAll x (.rebind x.member h.dest)) s).handStep i 5)
  | _ =>
    let s := h.stalls.foldl (fun s x =>
      match (s.plan.paddock? h.dest).bind fun r => (r.positions.find? fun p => p.member = x.member ∧ p.stall = x.stall).map r.engineOf with
      | none => s
      | some am => if am = s.member then s.attachHere x h.dest h.ms
                   else s.ctrlTo am "ORDER" ([h.dest, x.stall, 0] ++ actFields (.attach x.member x.slot h.ms false false))) s
    (true, fin s)

/-- HANDOFF_QUIET_END (R167): QUIET_MS have passed in the i-th hand-off that runs. -/
def execHandoffQuietEnd (i : Fin 16) (s : State) : Res :=
  .next (s.when ((s.handoff[i.val]?).any fun h => h.step = 3) fun s =>
    (s.handMod i fun h => { h with ms := h.ms + s.g UPP_X_HANDOFF.QUIET_MS }).handStep i 4)

end Sys2Proof.Machine
end

