-- ==== Sys2Proof/Machine/FaultOps.lean ====
section
/-!
DEFINITION. The fault collector's own commands: a condition that arises, clearing, forcing, checker inversion and the
self-check (R327, R328, R333, R336 to R339 of spec/15_faults_hayloft.md).
-/
namespace Sys2Proof.Machine

/-- The positions of the stalls a domain holds read as reachable or not (R155, R264). -/
def State.domReach (s : State) (d : Nat) (ok : Bool) : State :=
  s.withMirror (s.mirror.map fun (q : MirPos) =>
    if q.kind = 1 && q.member = s.member && portDom q.stall = d then { q with reach := ok } else q)

/-- FAILED is released; a standing ON vote starts a fresh wake (R264). -/
def State.releaseFailed (s : State) (d : Nat) : State :=
  if s.g (PDC_DOM.STATE d) ≠ 3 then s
  else
    (((s.p (PDC_DOM.STATE d) 2).domReach d true).domRecord d).restJudge d

/-- The releases tied to a clear that names a qualifier (R237, R240, R264, R336). -/
def State.faultRelease (s : State) (src q : Nat) : State :=
  if (80 ≤ src ∧ src ≤ 84) ∨ src = 88 then (match portIx q with
    | some n => s.releaseLatch n
    | none => s)
  else if src = 85 then (match portIx q with
    | some n => s.ppwClear n
    | none => s)
  else if src = 12 ∧ q ≤ 11 then s.releaseFailed q
  else s

/-- The source a waiting command of the power path or of the collector raises as things stand (R231 to R240, R327). -/
def State.arises (s : State) : Instr → Option Nat
  | .faultRaised x _ _ => some x
  | .fastTrip n _ => if (s.tripCh n).gate then some 80 else none
  | .slowTrip n _ => if (s.tripCh n).gate then some 81 else none
  | .undervoltageTrip n _ => if (s.tripCh n).gate && (s.tripCh n).rampDone && !s.on (PPW_STATUS.SINK n) then some 82 else none
  | .attemptWindowEnd n =>
    if (s.tripCh n).gate && (s.tripCh n).attempt && !(s.tripCh n).rampDone && !s.on (PPW_STATUS.SINK n) then some 83 else none
  | .gateStuck n _ => if (s.tripCh n).gate && (s.tripCh n).rampDone && !s.on (PPW_STATUS.GATE_OK n) then some 84 else none
  | .dischargeTimeout n => if s.on (PPW_STATUS.DISCH n) && !(s.ch n).gate && !(s.ch n).sinkOff then some 85 else none
  | .vbusRisingGateOff n => if !(s.ch n).gate && !s.on (PPW_STATUS.DISCH n) && s.sourceDir n then some 85 else none
  | _ => none

/-- Does a source arise in this cycle, before this command or behind it (R333)? -/
def State.arisesNow (s : State) (src : Nat) : Bool :=
  (s.hwSet.any fun e => e.1 = FLT_STICKY.addr (src / 32) && bitOf e.2.toNat (src % 32)) || s.ahead fun c => s.arises c = some src

/-- One source is cleared (R333, R336): its bit and qualifier record, and the releases; one that arises in this cycle stays
set, and brings no release. -/
def State.clearSource (s : State) (src q : Nat) : State :=
  let now := s.sticky src && s.arisesNow src
  if now then s
  else ((s.setSticky src false).setWord (FLT_QUAL.addr src) (resetWord (FLT_QUAL.addr src))).faultRelease src q

/-- Every source is cleared. -/
def State.clearAll (s : State) (q : Nat) : State :=
  s.each ((List.range 128).filter faultExists) fun i s => s.clearSource i q

/-- A write of FLT_CLEAR (R336): Dwezel's only, with GO. -/
def State.fltClearWrite (s : State) (m : Nat) (w : Word) : State :=
  if m ≠ 1 ∨ getBits w 16 1 = 0 then s
  else if getBits w 7 1 = 1 then s.clearAll (getBits w 8 8)
  else s.when (faultExists (getBits w 0 7)) fun s => s.clearSource (getBits w 0 7) (getBits w 8 8)

/-- A write of FLT_X_FORCE (R337): with GO, in SERVICE, in a barn of one. -/
def State.forceWrite (s : State) (w : Word) : State :=
  let src := getBits w 0 7
  let s := (s.p FLT_X_FORCE.SOURCE src).p FLT_X_FORCE.QUAL (getBits w 8 8)
  if getBits w 16 1 = 0 then s
  else if s.mode ≠ 3 ∨ s.plan.members ≠ 1 ∨ !faultExists src then s.hw FLT_STATUS.FORCE_REFUSED
  else s.raise src (getBits w 8 8)

/-- A write of FLT_X_INVERT (R338): bits are set by writing 1. -/
def State.invertWrite (s : State) (w : Word) : State :=
  s.w1s (⟨FLT_X_INVERT.addr, 0, 12⟩ : Fld) (getBits (w &&& 0xF3F#32) 0 12)

/-- The FLT_X_INVERT bit of a memory's own source (R338). -/
def invertBit : Nat → Option Fld
  | 32 => some FLT_X_INVERT.PBF
  | 11 => some FLT_X_INVERT.MGT_RAM
  | 14 => some FLT_X_INVERT.RESTORE
  | 18 => some FLT_X_INVERT.TIMELINE
  | 38 => some FLT_X_INVERT.TT
  | 53 => some FLT_X_INVERT.ROUTE
  | _ => none

/-- What a source's condition does besides the collector (R328): `aux` names the timeline entry of TML_MEM_ECC. -/
def State.mechanism (s : State) (src q aux : Nat) : State :=
  match src with
  | 4 => s.withBud { s.bud with hot := true }
  | 7 =>
    let s := s.withFlt { s.flt with xtalLost := true }
    s.when (s.on PDC_XTAL.RUNNING) fun s => (s.p PDC_XTAL.RUNNING 0).yardsKeeper
  | 18 => (s.setEntry aux { s.entry aux with valid := false }).p TML_STATUS.USED s.tmlUsed
  | 33 => match portIx q with
    | some n => match s.egress n with
      | b :: t => (s.setEgress n t).dropAt n b
      | [] => s
    | none => s
  | 38 => if q ≤ 14 then s.ttReset q else s
  | 53 => s.when (s.on DRV_BARN.IS_LEAD && s.on DRV_BARN.FORMED) fun s => s.pushTables
  | _ => s

/-- Is a source masked: a supply's, once a reaction in LIFELINE has begun (R358)? -/
def State.masked (s : State) (src : Nat) : Bool := s.mode = 4 && s.flt.mode = 1 && [1, 5, 6].contains src

/-- A GRAVE source latches while RESET_N is low, and drives FAULT_N and CUT_N (R332, R360). -/
def State.latchGrave (s : State) (src q : Nat) : State :=
  let s := (s.setSticky src true).when (s.g (FLT_QUAL.COUNT src) = 0) fun s => s.p (FLT_QUAL.FIRST src) q
  let s := (s.p (FLT_QUAL.LAST src) q).incSat (FLT_QUAL.COUNT src)
  let s := s.when (!s.on FLT_STATUS.GRAVE) fun s =>
    ((s.p FLT_STATUS.CAUSE src).p FLT_STATUS.CAUSE_SEV 3).p FLT_STATUS.CAUSE_VALID 1
  ((s.p FLT_STATUS.GRAVE 1).p FLT_PINS.FAULT_N 1).p FLT_PINS.CUT_N 1

/-- FAULT_RAISED (R327, R328): a source's condition arises. The supply sources are armed at the end of BOOT step 1 (R349). -/
def execFaultRaised (src : Fin 128) (q aux : Fin 256) (s : State) : Res :=
  .next (
    let unarmed := [1, 5, 6].contains src.val && s.mode = 0 && s.g TOP_MODE.BOOT_STEP ≤ 1
    if !faultExists src || s.masked src || unarmed || s.boot.held = 1 then s
    else if s.boot.held = 2 then s.when (s.severity src = 3) fun s => s.latchGrave src q
    else
      let s := match invertBit src with
        | some f => s.clearW1s f 1
        | none => s
      (s.mechanism src q aux).raise src q)

/-- Conditions the model holds that stand with their bits clear: each sets again in the cycle after a clear (R336; log entry
151). -/
def State.standTick (s : State) : State :=
  let l : List (Bool × Nat) := [(s.bud.hot, 4), (s.flt.xtalLost, 7), (s.bud.vinUv && s.mode ≠ 1, 86)]
  l.foldl (fun s e => s.when (e.1 && !s.sticky e.2) fun s => s.raise e.2) s

/-- SELF_CHECK (R339): every 1 ms; a mismatch, or a test event that does not arrive. -/
def execSelfCheck (ok : Bool) (s : State) : Res := .next (s.when (!ok && s.boot.held = 0) fun s => s.raise 0)

end Sys2Proof.Machine
end

