-- ==== Sys2Proof/Machine/Bus.lean ====
section
/-!
DEFINITION. A master's access to a register (spec/17_address_map.md, R365 to R374, with R8, R10, R268 and R269): the order of
the checks, what a read shows, what a write does, and the accesses that stall.
-/
namespace Sys2Proof.Machine

/-- The anti-rollback floor (R66). -/
def Otp.floor (o : Otp) : Nat := o.words.foldl max 0

/-! ## Rights (R367 to R371) -/

/-- An error of a master's access (TOP_BUS_ERR). -/
def State.busErr (s : State) (f : Fld) (m a : Nat) : State := ((s.hw f).p TOP_BUS_ERR.MASTER m).p TOP_BUS_ERR.ADDR a

/-- Does the master hold the expert page (R367, R370)? The reset word of TOP_EXPERT holds the bits of masters 1 and 8. -/
def State.holdsPage (s : State) (m : Nat) : Bool := bitOf (s.g TOP_EXPERT.HELD) m

/-- A write to TOP_EXPERT_KEY[k] by master m (R368, R369). -/
def State.keyWrite (s : State) (m k v : Nat) : State :=
  let arm := bitFld TOP_EXPERT.addr (16 + m)
  if m < 2 ∨ 7 < m then s
  else if v = 0 then (s.p arm 0).closePages [m]
  else if s.holdsPage m ∧ (v = 0x4B1D ∨ v = 0xB0A7) then s
  else if v = 0x4B1D then
    ((s.p arm 1).withExpert { s.expert with armed := vset s.expert.armed m s.cycle })
  else if v = 0xB0A7 ∧ s.on arm ∧ s.cycle ≤ vat s.expert.armed m + 200 then
    let s := s.p arm 0
    if s.expert.closedAt = s.cycle ∧ s.expert.closed.contains m then s
    else s.p (bitFld TOP_EXPERT.addr m) 1
  else if v = 0xB0A7 ∨ s.on arm then (s.p arm 0).busErr TOP_BUS_ERR.KEY_SEQ m (TOP_EXPERT_KEY.addr k)
  else s

/-- Has the master's party an open session whose key holds REG (R52, R371)? -/
def State.regSession (s : State) (m : Nat) : Bool :=
  s.msg.sess.toList.any fun x => (x.map fun y => y.party = m && bitOf y.perms 4).getD false

/-- Does a plan from a file run (R371, PLN_STATUS.SOURCE)? -/
def State.filePlan (s : State) : Bool := [2, 3, 4].contains (s.g PLN_STATUS.SOURCE)

/-- Writes that R371 lets through without a session. -/
def exemptWrite (a : Nat) : Bool :=
  (0x110000 ≤ a && a < 0x110600) || (0x110600 ≤ a && a < 0x1106C0 && a % 16 ≠ 12)
    || (rowOf a).any fun r =>
      [MBX_LOCK.addr 0, PDC_MYVOTE.addr 0, UPP_MIR_SEL.addr, TOP_EXPERT_KEY.addr 0, TOP_BUS_ERR.addr].contains r.base

/-- May the master write to this address (R370, R371)? -/
def State.mayWrite (s : State) (m a : Nat) : Bool :=
  let b := a / 0x10000
  if m = 1 then true
  else if m = 8 then b ≠ 0 && b ≠ 19
  else if m = 15 then Config.makerMay a true
  else if [1, 12, 13, 15, 19].contains b then false
  else if b = 0 && !((rowOf a).any fun r => [TOP_EXPERT_KEY.addr 0, TOP_BUS_ERR.addr, TOP_X_RESET.addr].contains r.base) then false
  else !s.filePlan || s.regSession m || exemptWrite a

/-! ## What a read shows -/

/-- State of a lane (STL_LANE.STATE) from a link state in the encoding of SSH_PORT. -/
def laneState (link : Nat) : Nat :=
  if link = 0 then 2 else if [1, 2, 3].contains link then 3 else if [7, 8, 9].contains link then 1 else 0

/-- STL_LANE.STATE of lane i (R5, R37): lost as the links report it, otherwise as its link stands. -/
def State.laneShown (s : State) (i : Nat) : Nat :=
  if s.g (STL_LANE.STATE i) = 4 then 4
  else if s.on (STL_LANE.DISABLE i) || (i = 15 && s.g (STL_STALL.SS_MODE 14) ≠ 3) then 0
  else if i < 20 then laneState (s.g (SSH_PORT.LINK (if i < 16 then min i 14 else 15 + (i - 16) / 2)))
  else
    let k := (i - 20) / 2
    match s.g (GLK_LINK.STATE k) with
    | 1 | 2 => 1
    | 3 | 4 | 6 => if bitOf (s.g (GLK_LINK.LANES k)) (i % 2) then 2 else 4
    | 5 => 3
    | _ => 0

/-- Link state of a root context or of a pen's virtual link (R103, SSH_CTX.USP_LINK); on a pen's engine member it is as the home
member has told. -/
def State.uspLink (s : State) (c : Nat) : Nat :=
  let y := s.g (SSH_CTX.SLOT c)
  let up := (s.homeOf y).map fun _ => (s.upKnown y).link
  match s.g (SSH_CTX.KIND c), up with
  | 1, some l => l
  | 2, some l => if l = 3 then 3 else if l ≤ 2 then 0 else l
  | _, _ => 0

/-- The position UPP_MIR_SEL selects, when this chip answers for its hub. -/
def State.mirSel (s : State) : Option MirPos :=
  (s.mir (s.g UPP_MIR_SEL.SLOT) (s.g UPP_MIR_SEL.HUB) (s.g UPP_MIR_SEL.PORT)).filter fun q => !q.obs

/-- The causes of ALERT_N that stand (R300). -/
def State.alertCauses (s : State) : Nat :=
  let side (c : Nat) : Bool := [6, 7].contains (s.g (MBX_ASSIGN.PARTY c)) && c < 12
  let mail := (List.range 12).any fun c => side c && s.on (MBX_DB.OUT_DB c) && s.notifyWake c
  let fault := (List.range 4).any fun k => ((s.word (FLT_STICKY.addr k)) &&& (s.word (FLT_ALERT.addr k))) ≠ 0
  let queue := (List.range 4).any fun q => s.on (OBS_Q_STATUS.TIMEOUT q) && side (s.g (OBS_Q_CTRL.CHANNEL q))
  b2n mail + b2n fault * 2 + b2n (s.on TLM_INWARN.PWRWARN) * 4 + b2n queue * 8

/-- ALERT_N is asserted (R300). -/
def State.alertOn (s : State) : Bool := s.alertCauses &&& s.g TKR_ALERT_EN.EN ≠ 0

/-- PDC_STATE of one domain. -/
def State.domShown (s : State) (d : Nat) : Nat :=
  if d = 0 then 0 else if (s.dom d).step ≠ .idle then 3 else min 2 (s.g (PDC_DOM.STATE d))

/-- GPI_IN (R53, R91, R202): the levels the chip drives on outputs, orientations and port LEDs, inverted by ACTIVE_LOW; an open-drain
ball that is not driven low, and every input, has the level the board gives it. -/
def State.gpiIn (s : State) : Nat :=
  ((List.range 32).map fun g =>
    let active : Option Bool := match s.g (GPI_CFG.FUNCTION g) with
      | 1 => some (bitOf (s.word GPI_OUT.addr).toNat g)
      | 3 => some (s.on (STL_STALL.ORIENT_LVL (s.g (GPI_CFG.ARG g))))
      | 7 => some (bitOf (vat s.port (s.g (GPI_CFG.ARG g))).hs 12)
      | _ => none
    let ball := bitOf (s.word GPI_IN.addr).toNat g
    let level := match active with
      | some a => if (a != s.on (GPI_CFG.ACTIVE_LOW g)) then (if s.on (GPI_CFG.OPEN_DRAIN g) then ball else true) else false
      | none => ball
    b2n level * 2 ^ g).sum

/-- A register as it reads without a side effect: the stored word, with what follows from other state put in its fields. After POR
PDC_DOM.FLOOR reads the votes that stand, CHAINED the chaining of BOOT and PPW_PG the levels of R243, where the Reset column has 0
(DESIGN CHOICE, log entry 155). -/
def State.liveWord (s : State) (m : Nat) (r : RegRow) (a : Nat) : Word :=
  let i := r.index a
  let w := s.word a
  let b := r.base
  let fault (f : Fld) (c : Fld) (w : Word) : Word := if s.on c then withFields w [(f, 0x8000)] else w
  if b = PLN_FLOOR.addr then w32 s.otp.floor
  else if b = PLN_KEYS.addr then
    let bits (p : Nat → Bool) : Nat := ((List.range 4).map fun k => b2n (p k) * 2 ^ k).sum
    withFields w [(PLN_KEYS.PROGRAMMED, bits fun k => (vat s.otp.keys k).isSome), (PLN_KEYS.REVOKED, bits fun k => vat s.otp.revoked k),
      (PLN_KEYS.ACTIVE_SLOT, if s.filePlan then s.plan.keySlot else 0), (PLN_KEYS.FLOOR_WORDS, s.otp.words.length)]
  else if b = TML_STATUS.addr then withFields w [(TML_STATUS.USED, s.tmlUsed)]
  else if b = TML_PRED.addr 1 then withFields w [(TML_PRED.NEXT (i + 1), nextField (s.nextEvent (i + 1)))]
  else if b = SSH_CTX.addr 0 then withFields w [(SSH_CTX.USP_LINK i, s.uspLink i)]
  else if b = UPP_MIR_HS.addr then
    (s.mirSel.map fun q => w32 ((s.shown q).hs + (s.shown q).hsChg * 2^16)).getD 0
  else if b = UPP_MIR_SS.addr then
    (s.mirSel.map fun q => w32 ((s.shown q).ss + (s.shown q).ssChg * 2^16)).getD 0
  else if b = UPP_MIR_INFO.addr then
    (s.mirSel.map fun q => withFields 0 [(UPP_MIR_INFO.REF, if q.kind = 1 then q.member * 16 + q.stall else 0), (UPP_MIR_INFO.KIND, q.kind),
      (UPP_MIR_INFO.LOCAL, 1), (UPP_MIR_INFO.REACHABLE, b2n q.reach), (UPP_MIR_INFO.HELD, b2n (s.heldBy q)),
      (UPP_MIR_INFO.SEQ, q.st.seq)]).getD 0
  else if b = TTA_TT.addr 0 then withFields w [(TTA_TT.SLOT i, (s.holderOf i).getD 0)]
  else if b = STL_LANE.addr 0 then withFields w [(STL_LANE.STATE i, s.laneShown i)]
  else if b = DRV_SEED_LO.addr || b = DRV_SEED_HI.addr then (if s.holdsPage m then w else 0)
  else if b = TLM_INST.addr 0 then
    fault (TLM_INST.I 0) TLM_CTRL.FAULT_A (fault (TLM_INST.V 0) TLM_CTRL.FAULT_B w)
  else if b = TLM_INPUT.addr then fault TLM_INPUT.IIN TLM_CTRL.FAULT_A (fault TLM_INPUT.VIN TLM_CTRL.FAULT_B w)
  else if [TLM_AVG1MS.addr 0, TLM_AVG100MS.addr 0, TLM_AVG1S.addr 0].contains b then
    fault (TLM_INST.I 0) TLM_CTRL.FAULT_A (fault (TLM_INST.V 0) TLM_CTRL.FAULT_B w)
  else if b = TLM_PEAK.addr 0 then fault (TLM_PEAK.I_PEAK 0) TLM_CTRL.FAULT_A w
  else if b = PPW_PG.addr then withFields w [(PPW_PG.PG_OUT, s.pgOut)]
  else if b = GPI_IN.addr then w32 s.gpiIn
  else if b = PDC_STATE.addr then w32 (((List.range 12).map fun d => s.domShown d * 4 ^ d).sum)
  else if b = PDC_DOM.addr 0 then
    withFields w [(PDC_DOM.PHASE i, (s.dom i).step.phase), (PDC_DOM.FLOOR i, s.floor i)]
  else if b = PDC_VOTE.addr 0 then s.voteWord i
  else if b = PDC_MYVOTE.addr 0 then w32 (((clientOf m).map fun c => s.vote c i).getD 0)
  else if b = MBX_LOCK_OWN_LO.addr then s.lockOwners 0
  else if b = MBX_LOCK_OWN_HI.addr then s.lockOwners 8
  else if b = TKR_FUNC.addr 0 then
    let ses := s.msg.sess.toList.filterMap fun x => x.bind fun y =>
      if some (y.party) = (s.slotOf i).map (· + 2) then some y.keyId else none
    let owned := (List.range 4).any fun q => s.g (OBS_Q_CTRL.OWNER q) = i + 1 && (vat s.obs q).staged > 0
    let rest := s.g (TKR_FUNC.STATE i) ≥ 2 && ((s.slotOf i).bind s.rootEngine).any fun e => s.g (HSH_ENG.STATE e) = 4
    withFields w [(TKR_FUNC.STATE i, if rest then 5 else s.g (TKR_FUNC.STATE i)), (TKR_FUNC.SESSION i, b2n !ses.isEmpty), (TKR_FUNC.KEY_ID i, ses.headD 0),
      (TKR_FUNC.EP1_FULL i, b2n (vat s.tack i).report.isSome), (TKR_FUNC.EP3_FULL i, b2n (vat s.tack i).ep3.isSome),
      (TKR_FUNC.EP2_FULL i, b2n owned)]
  else if b = TKR_SB.addr then withFields w [(TKR_SB.I2C_ADDR, 0x28 + s.g TOP_STRAP.I2CADDR)]
  else if b = TKR_ALERT.addr then withFields (w32 s.alertCauses) [(TKR_ALERT.ASSERTED, b2n s.alertOn)]
  else if b = OBS_Q_STATUS.addr 0 then s.qStatusWord i
  else if b = OBS_Q_PTR.addr 0 then s.qPtrWord i
  else if b = OBS_PMU_CTRL.addr then withFields w [(OBS_PMU_CTRL.CHAINED, b2n s.chained)]
  else w

/-- A read that has passed its checks: the word, `none` while it stalls (R317), and the state. -/
def State.readReg (s : State) (m a : Nat) : Option Word × State :=
  match rowOf a with
  | none => (some 0, s)
  | some r =>
    let i := r.index a
    let b := r.base
    let one (x : Word × State) : Option Word × State := (some x.1, x.2)
    if b = YRD_NOW_LO.addr 0 then one (if (a - b) % r.stride = 0 then s.yardNowRead i else (s.liveWord m r a, s))
    else if b = OBS_Q_DATA.addr 0 then s.queueRead i m
    else if b = TLM_ENERGY_LO.addr 0 then
      let e := s.energyShown i
      (some (w32 e), s.tlmMod i fun t => { t with latch := vset t.latch m (e / 2^32) })
    else if b = TLM_ENERGY_HI.addr 0 then (some (w32 (vat (vat s.tlm i).latch m)), s)
    else if b = MBX_LOCK.addr 0 then
      if m = 15 && s.mode ≠ 5 then (some 0, s) else one (s.lockRead m i)
    else if 0x110000 ≤ a ∧ a < 0x1106C0 ∧ (a < 0x110600 ∨ a % 16 ≠ 12) then
      let c := if a < 0x110600 then (a - 0x110000) / 0x80 else (a - 0x110600) / 16
      if s.mbxReadable m c then (some (s.liveWord m r a), s) else (some 0, s.mbxRefuse m c)
    else (some (s.liveWord m r a), s)

/-! ## What a write does -/

/-- One field of a written register (R8, R10): `now` are the W1C bits the hardware sets in this cycle. -/
def putField (act : Bool) (now w old : Word) (f : FieldRow) : Word :=
  let v := getBits w f.lo f.width
  match f.acc with
  | .rw => if f.min ≤ v ∧ v ≤ f.max then putBits old f.lo f.width v else old
  | .rwp => if act ∧ f.min ≤ v ∧ v ≤ f.max then putBits old f.lo f.width v else old
  | .w1c => putBits old f.lo f.width (getBits (old &&& ~~~(w &&& ~~~now)) f.lo f.width)
  | .w1s => putBits old f.lo f.width (getBits (old ||| w) f.lo f.width)
  | _ => old

/-- W1C bits of a register that the hardware has set in this cycle. -/
def State.setNow (s : State) (a : Nat) : Word := ((s.hwSet.filter fun e => e.1 = a).map (·.2)).foldl (· ||| ·) 0

/-- The word a write leaves in a register, by the access codes of its fields. -/
def State.written (s : State) (r : RegRow) (a : Nat) (w : Word) : Word :=
  r.fields.foldl (putField s.activating (s.setNow a) w) (s.word a)

/-- The write itself. -/
def State.putReg (s : State) (r : RegRow) (a : Nat) (w : Word) : State := s.setWord a (s.written r a w)

/-- Fields of a register go to 0 by a write of any value. -/
def State.clr (s : State) (l : List Fld) : State := l.foldl (fun s f => s.p f 0) s

/-- TML_CTRL.ENABLE goes to 1: entries already due run once for all their passed occurrences (R89). -/
def State.tmlOn (s : State) : State :=
  s.tmlMap fun e => if e.valid && !e.awaiting && decide (e.due ≤ s.yticks e.yard) then { e with merge := true } else e

/-- GLK_CTRL.ENABLE goes to 1: planned links train (R170). -/
def State.trainLinks (s : State) : State :=
  s.each ([0, 1, 2, 3].filter fun k => s.mayTrain k && s.g (GLK_LINK.STATE k) = 0) fun k s => s.attempt k

/-- A write of PDC_CTRL: the writer's own AUTO_WAKE bit while it holds its page, and ENABLE where it may (R269, R371). -/
def State.pdcCtrlWrite (s : State) (m : Nat) (w : Word) (full : Bool) : State :=
  let s := s.when (s.holdsPage m) fun s => s.p (bitFld PDC_CTRL.addr m) (getBits w m 1)
  s.when full fun s => s.p PDC_CTRL.ENABLE (getBits w 16 1)

/-- A write of PDC_MYVOTE[d] (R259): the master's client, ending its access holds there (R400). -/
def State.myVoteWrite (s : State) (m d : Nat) (w : Word) : State :=
  let v := getBits w 0 2
  match clientOf m with
  | none => s
  | some c =>
    if d = 0 ∨ v = 3 then s
    else
      let s := (s.withPdc { s.pdc with accHolds := s.pdc.accHolds.filter fun h => ¬(h.1 = m ∧ h.2 = d),
                                            faultHeld := s.pdc.faultHeld
                                              && (!(m = 1 && d = dMGT) || s.marks.contains (.raised 0 dMGT)) })
      s.setVote c d (if c = 15 && s.marks.contains (.raised c d) then max v (vat (s.dom d).votes c) else v)

/-- GPIO outputs of function OUT that no action has driven in this cycle (GPI_OUT). -/
def State.gpioFree (s : State) (g : Nat) : Bool :=
  s.g (GPI_CFG.FUNCTION g) = 1 && !bitOf (s.setNow GPI_OUT.addr).toNat g

/-- A write of GPI_OUT. -/
def State.gpiOutWrite (s : State) (w : Word) : State :=
  s.each ((List.range 32).filter fun g => s.gpioFree g) fun g s => s.p (bitFld GPI_OUT.addr g) (getBits w g 1)

/-- A write of BUD_X_CTRL: LIFT_PCT never above TARGET_PCT (R255). -/
def State.budXWrite (s : State) (r : RegRow) (w : Word) : State :=
  let t := s.g BUD_X_CTRL.TARGET_PCT
  let l := s.g BUD_X_CTRL.LIFT_PCT
  let s := s.putReg r BUD_X_CTRL.addr w
  if s.g BUD_X_CTRL.LIFT_PCT > s.g BUD_X_CTRL.TARGET_PCT then (s.p BUD_X_CTRL.TARGET_PCT t).p BUD_X_CTRL.LIFT_PCT l else s

/-- Bits of a field that are 1, as numbers. -/
def bitsSet (w : Word) (lo n : Nat) : List Nat := (List.range n).filter fun i => bitOf w.toNat (lo + i)

/-- A write to a mailbox channel's words, control or doorbell (R274, R275, R277). -/
def State.mbxWrite (s : State) (m a : Nat) (w : Word) : State :=
  if a < 0x110600 then
    let c := (a - 0x110000) / 0x80
    let j := (a - 0x110000) % 0x80 / 4
    if j < 16 then s.inWordWrite m c j w else s.outWordWrite m c (j - 16) w
  else
    let c := (a - 0x110600) / 16
    if a % 16 = 0 then s.inCtrlWrite m c w
    else if a % 16 = 4 then s.outCtrlWrite m c w
    else s.dbWrite m c w

/-- The bits of FLT_SEV[k] a write may change: those of sources that exist and are not fixed (R328). -/
def sevOpen (k : Nat) : Word :=
  w32 (((List.range 16).map fun i => if faultExists (16 * k + i) && !faultFixed (16 * k + i) then 3 * 4 ^ i else 0).sum)

/-- A write that has passed its checks, to a register of the power, message, fault, observation or chip blocks. -/
def State.writeChipReg (s : State) (m a : Nat) (w : Word) (r : RegRow) : State :=
  let i := r.index a
  let b := r.base
  let s' := s.putReg r a w
  if b = PPW_CLEAR.addr then s.each (bitsSet w 0 17) fun n s => s.ppwClear n
  else if b = TLM_CTRL.addr then s'.when (!s.on TLM_CTRL.ENABLE && s'.on TLM_CTRL.ENABLE) fun s => s.restartBlocks
  else if b = TLM_ECLR.addr then s.w1s TLM_ECLR.CLEAR (getBits w 0 17)
  else if b = TLM_PEAK.addr 0 then s.clr [TLM_PEAK.I_PEAK i, TLM_PEAK.REVERSE i]
  else if b = BUD_X_CTRL.addr then s.budXWrite r w
  else if b = PDC_CTRL.addr then s.pdcCtrlWrite m w true
  else if b = PDC_MYVOTE.addr 0 then s.myVoteWrite m i w
  else if a = PDC_CFG.addr dPPA then s'.p (PDC_CFG.ALLOW_OFF dPPA) 0
  else if a = PDC_CFG.addr dMGT then s'.p (PDC_CFG.ALLOW_OFF dMGT) 0
  else if b = MBX_STATUS.addr 0 then s'.p (MBX_STATUS.NOTICE_LOST i) 0
  else if b = MBX_ASSIGN.addr 0 then s'.when (m ≠ 1) fun s' => s'.p (MBX_ASSIGN.PARTY i) (s.g (MBX_ASSIGN.PARTY i))
  else if b = MBX_LOCK.addr 0 then s.lockWrite m i w
  else if b = TKR_CTRL.addr then s'.each [0, 1, 2, 3] fun k s => ((s.tackPos k).map fun q => s.tackPlace q).getD s
  else if b = TKR_AUTH.addr then s.setWord a 0
  else if b = FLT_SEV.addr 0 then
    s.setWord a ((s.written r a w &&& sevOpen i) ||| (s.word a &&& ~~~sevOpen i))
  else if b = FLT_CLEAR.addr then s.fltClearWrite m w
  else if b = FLT_X_FORCE.addr then s.forceWrite w
  else if b = FLT_X_INVERT.addr then s.invertWrite w
  else if b = OBS_Q_CTRL.addr 0 then s'.when (bitOf w.toNat 0) fun s => s.queueReset i
  else if b = OBS_PMU_EVT.addr 0 then
    let s' := (s.pmuSelect i).putReg r a w
    s'.when (bitOf w.toNat 17) fun s => (s.pmuHold i).pmuSet i 0
  else if b = OBS_PMU_LO.addr 0 || b = OBS_PMU_HI.addr 0 then (s.pmuHold i).putReg r a w
  else if b = GPI_OUT.addr then s.gpiOutWrite w
  else if b = TOP_EXPERT_KEY.addr 0 then s.keyWrite m i (getBits w 0 16)
  else if b = TOP_X_RESET.addr then
    s.when (getBits w 0 16 = 0xC1A5 && s.mode ≠ 5) fun s => (s.withBoot { s.boot with asked := true })
  else s'

/-- A write that has passed its checks. -/
def State.writeReg (s : State) (m a : Nat) (w : Word) : State :=
  match rowOf a with
  | none => s
  | some r =>
    let i := r.index a
    let b := r.base
    let s' := s.putReg r a w
    if 0x110000 ≤ a ∧ a < 0x1106C0 ∧ (a < 0x110600 ∨ a % 16 ≠ 12) then s.mbxWrite m a w
    else if b = YRD_CTRL.addr then s'.forceCoast.when (bitOf w.toNat 8) fun s => s.snapYards
    else if b = TML_CTRL.addr then s'.when (!s.on TML_CTRL.ENABLE && s'.on TML_CTRL.ENABLE) fun s => s.tmlOn
    else if b = TML_SEL.addr then s'.tmlCommand (getBits w 8 3)
    else if b = TML_E_TIME_LO.addr then (if getBits w 0 15 ≥ 25000 then s else s')   -- R7
    else if b = TML_STATUS.addr then s.clr [TML_STATUS.CATCHUP, TML_STATUS.IDLE_KA]
    else if b = SSH_DROPS.addr then s.clr [SSH_DROPS.DROP, SSH_DROPS.DEFER]
    else if b = SSH_ITP.addr 0 then s.clr [SSH_ITP.RES_MAX i]
    else if b = SSH_ITP_REGEN.addr then s.clr [SSH_ITP_REGEN.SKIPPED]
    else if b = PBF_X_TUNE.addr then s'.setBankLow
    else if b = PPW_LIMIT.addr 0 then s'.setLimit i      -- R21
    else if b = SSH_X_VOTE.addr then s'.each [3, 5, 6, 7, 8, 9, 10] fun d s => s.linkJudge d
    else if b = PBF_USED.addr 0 then s.p (PBF_USED.PEAK i) (s.g (PBF_USED.USED i))
    else if b = PBF_ECC_COUNT.addr then s.clr [PBF_ECC_COUNT.CORR, PBF_ECC_COUNT.UNCORR]
    else if b = HSH_ORDERS.addr then s.clr [HSH_ORDERS.LATE]
    else if b = TTA_COUNT.addr 0 then s.clr [TTA_COUNT.PER_DROP i, TTA_COUNT.SOF_FILL i]
    else if b = TTA_CMD.addr then      -- dropped whole while BUSY (R150)
      s.when (!s.on TTA_CMD.BUSY) fun s => (s.p TTA_CMD.DONE (getBits (s.written r a w) 25 1)).ttCommand w
    else if b = GLK_CTRL.addr then
      let s' := s'.when (!s.on GLK_CTRL.ENABLE && s'.on GLK_CTRL.ENABLE) fun s => s.trainLinks
      s'.each (bitsSet w 4 4) fun k s => s.retrain k
    else if b = GLK_ERR.addr 0 then s.clr [GLK_ERR.CRC i, GLK_ERR.REPLAY i, GLK_ERR.FAILS i]
    else if b = GLK_WAKE.addr then s'.each (bitsSet w 4 4) fun k s => s.ringBell k
    else if b = DRV_FLOWS.addr then s.clr [DRV_FLOWS.WAITS]
    else s.writeChipReg m a w r

/-! ## The access (R373) -/

/-- What the checks of R373 decide: the access passes, ends with this word for a read, or stalls. -/
inductive Gate where
  | pass
  | fail (w : Word) (s : State)
  | stall (s : State)

/-- Check 4 of R373: the domain is ON, or R268 and R269. -/
def State.domGate (s : State) (m a : Nat) : Gate :=
  let d := addrDom a
  if s.domOn d then .pass
  else if bitOf (s.g PDC_CTRL.AUTO_WAKE) m && s.holdsPage m then
    if s.g (PDC_DOM.STATE d) = 3 && (s.dom d).step = .idle then .fail 0x0FF00BAD s else .stall (s.holdAccess m d)
  else .fail 0x0FF00FF0 ((s.hw PDC_STICKY.SLEEP_ACCESS).hwOr PDC_STICKY.SLEEP_DOM (2 ^ d))

/-- The checks of R373 in their order. -/
def State.gate (s : State) (m a : Nat) (write : Bool) : Gate :=
  if !s.masterHere m then .fail 0 s
  else match rowOf a with
    | none => .fail 0 (s.busErr TOP_BUS_ERR.UNMAPPED m a)
    | some r =>
      if r.expert && !s.holdsPage m && m ≠ 15 then .fail 0 (s.busErr TOP_BUS_ERR.EXPERT m a)
      else if !write && m = 15 && !Config.makerMay a false then .fail 0 s
      else if write && !s.mayWrite m a then
        .fail 0 (if a = PDC_CTRL.addr && m ≠ 15 && m ≠ 8 then s else s.busErr TOP_BUS_ERR.DENIED m a)
      else s.domGate m a

/-- How an access comes out: done, with a read's word (`none` where master 1 waits on an empty queue, R317), or stalled. -/
inductive AccOut where
  | done (w : Option Word) (s : State)
  | stall (s : State)

/-- An access that has passed its checks. -/
def State.perform (s : State) (m a : Nat) (data : Option Word) : AccOut :=
  match data with
  | none => let r := s.readReg m a; .done r.1 r.2
  | some v => .done (some 0) (s.writeReg m a v)

/-- One access, a write when it brings a word (R268, R269, R373). -/
def State.oneAccess (s : State) (m a : Nat) (data : Option Word) : AccOut :=
  match s.gate m a data.isSome with
  -- a reversed entry leaves the domain ON, and the access completes (R262)
  | .stall s => if s.domOn (addrDom a) then s.perform m a data else .stall s
  | .fail w s =>
    let own := a = PDC_CTRL.addr && 2 ≤ m && m ≤ 7
    .done (some w) (match data with
      | some v => if own && s.masterHere m then s.pdcCtrlWrite m v false else s
      | none => s)
  | .pass => s.perform m a data

/-- Accesses in their order until one stalls: those still to be made, the words read, and the state. -/
def State.runAccs (m : Nat) : List (Nat × Option Word) → List (Option Word) → State → List (Nat × Option Word) × List (Option Word) × State
  | [], got, s => ([], got, s)
  | (a, d) :: t, got, s =>
    match s.oneAccess m a d with
    | .stall s => ((a, d) :: t, got, s)
    | .done w s => State.runAccs m t (if d.isNone then got ++ [w] else got) s

/-- A transfer waits for a domain, or behind another of its master (R269). -/
def State.pushStall (s : State) (x : StalledAcc) : State := (s.withPdc { s.pdc with stalls := s.pdc.stalls ++ [x] })

/-- Does a transfer of a master stall? -/
def State.stalls (s : State) (m : Nat) : Bool := s.pdc.stalls.any fun x => x.master = m

/-- The words of a read; where master 1 would wait on an empty queue it has 0. -/
def gotWords (l : List (Option Word)) : List Word := l.map fun w => w.getD 0

/-- The bytes of a sideband read (R297 to R299): on SPI after a marker, and on I2C, where TKR_SB.PEC asks for it, with the PEC of
the whole transfer behind them. -/
def State.sideBytes (s : State) (m addr n : Nat) (words : List Word) (marker : Byte) : List Byte :=
  let data := (wordBytes words).take n
  if m = 7 then marker :: data
  else if !s.on TKR_SB.PEC then data
  else data ++ [smbusPec (s.i2cHead addr ++ [BitVec.ofNat 8 (2 * (0x28 + s.g TOP_STRAP.I2CADDR) + 1)] ++ data)]

/-- Dwezel reads no queue on: what its reads of empty queues set waiting is given up (log entry 176). -/
def State.noWait (s : State) : State := s.each [0, 1, 2, 3] fun q s => s.obsMod q fun o => { o with stalled := false }

/-- The packets of a control transfer's data stage go through a function's EP0 buffer to the host (R290, R291). -/
def State.tackData (s : State) (slot : Nat) (bytes : List Byte) : State :=
  let e := epBuf (s.upOf slot) 0
  (s.epPackets e.1 e.2 bytes).out (.usbData slot bytes)

/-- A transfer has made its last access. -/
def State.finishXfer (s : State) (x : StalledAcc) (got : List (Option Word)) : State :=
  match x.kind with
  | .plain =>
    let l := got.filterMap id
    s.when (!l.isEmpty) fun s => s.out (.read x.master l)
  | .usbRead => s.tackData (x.master - 2) (wordBytes (gotWords got))
  | .usbWrite => s.out (.usbAck (x.master - 2))
  | .sideRead addr n => s.out (.sideband (s.sideBytes x.master addr n (gotWords got) 0xA5))
  | .peek a => s.noWait.reply a 0 ((gotWords got).map (·.toNat))
  | .poke a =>
    let adr := a.w 1
    let w := ((gotWords got).headD 0 &&& ~~~(w32 (a.w 2))) ||| (w32 (a.w 3) &&& w32 (a.w 2))
    let r := State.runAccs 1 [(adr, some w), (adr, none)] [] s.noWait
    r.2.2.noWait.reply a 0 [((gotWords r.2.1).headD 0).toNat]

/-- Where an access of a write that must take effect whole stalls: the state with its domain's wake begun (R269, R292). -/
def State.firstStall (s : State) (m : Nat) (accs : List (Nat × Option Word)) : Option State :=
  accs.findSome? fun x => match s.gate m x.1 x.2.isSome with
    | .stall t => if t.domOn (addrDom x.1) then none else some t
    | _ => none

/-- A transfer goes on: what a vendor request writes, it writes in one cycle (R292). -/
def State.runXfer (s : State) (x : StalledAcc) : State :=
  match (if x.kind = .usbWrite then s.firstStall x.master x.accs else none) with
  | some t => t.pushStall x
  | none =>
    let r := State.runAccs x.master x.accs x.got s
    if r.1.isEmpty then r.2.2.finishXfer x r.2.1 else r.2.2.pushStall { x with accs := r.1, got := r.2.1 }

/-- A transfer begins; one of its master that stalls comes first. -/
def State.startXfer (s : State) (x : StalledAcc) : State := if s.stalls x.master then s.pushStall x else s.runXfer x

/-- An access of a master that has reached the chip; a read's word goes to the output log. -/
def State.accessNow (s : State) (m a : Nat) (data : Option Word) : State := s.startXfer ⟨m, .plain, [(a, data)], []⟩

/-- An access of a master: a tack room answers an unaligned one with STALL, a sideband target takes address bits 1:0 as 0
(R366) and has MGT woken (R258, R400). -/
def State.accessOne (s : State) (m a : Nat) (data : Option Word) : State :=
  if 2 ≤ m ∧ m ≤ 5 ∧ a % 4 ≠ 0 then s.out (.usbStall (m - 2))
  else if m = 6 ∨ m = 7 then (s.when (s.masterHere m) fun s => s.holdAccess m dMGT).accessNow m (a / 4 * 4) data
  else s.accessNow m a data

/-- The accesses of lower masters to a block in this cycle, behind this command, are served first, in ascending id (R372). Each
leaves a mark for its own command; those marked by now are not served again. -/
def State.lowerFirst (s : State) (m a : Nat) : State :=
  s.each (List.range m) fun k s =>
    (s.pending.foldl (fun (x : List Mark × State) c => match x.2.accessOf c with
      | some (y, b, d) =>
        if y = k && b / 0x10000 = a / 0x10000 then
          (if x.1.contains (.served y b) then (x.1.erase (.served y b), x.2) else (x.1, (x.2.accessOne y b d).mark (.served y b)))
        else x
      | none => x) (s.marks, s)).2

/-- An access of a master, in its turn (R372). -/
def State.access (s : State) (m a : Nat) (data : Option Word) : State :=
  if s.marks.contains (.served m a) then s.unmark (.served m a)
  else (s.lowerFirst m a).accessOne m a data

/-- One stalled transfer once more (R269): kept behind another of its master, or while its hold brings the domain ON; otherwise
carried on, ended where the domain has FAILED, or first of its master now and so raising its own hold. -/
def State.retryStall (s : State) (x : StalledAcc) : State :=
  let d := addrDom (x.accs.headD (0, none)).1
  let failed := s.g (PDC_DOM.STATE d) = 3 && (s.dom d).step = .idle
  if s.stalls x.master || (!s.domOn d && !failed && s.pdc.accHolds.contains (x.master, d)) then s.pushStall x
  else s.runXfer x

/-- The transfers that stall are tried in the order they came. -/
def State.runStalls (s : State) : State :=
  s.pdc.stalls.foldl (fun s x => s.retryStall x) (s.withPdc { s.pdc with stalls := [] })

/-! ## The commands -/

/-- REGISTER_WRITE (R373): a write to a register without a row of its own. -/
def execRegisterWrite (m : Fin 16) (addr : BitVec 32) (w : BitVec 32) (s : State) : Res :=
  .next (s.access m addr.toNat (some w))

/-- RESTING_DOMAIN_ACCESS (R268). -/
def execRestingDomainAccess (m : Fin 16) (addr : BitVec 32) (data : Option (BitVec 32)) (s : State) : Res :=
  .next (s.access m addr.toNat data)

/-- AUTO_WAKE_ACCESS (R269). -/
def execAutoWakeAccess (m : Fin 16) (addr : BitVec 32) (data : Option (BitVec 32)) (s : State) : Res :=
  .next (s.access m addr.toNat data)

/-- AUTO_WAKE_WRITE (R269): a write of PDC_CTRL with the writer's own bit, ENABLE as it stands. -/
def execAutoWakeWrite (m : Fin 16) (on : Bool) (s : State) : Res :=
  .next (s.access m PDC_CTRL.addr (some (s.autoWakeWord m on)))

/-- EXPERT_KEY_WRITE (R368). -/
def execExpertKeyWrite (m : Fin 16) (k : Fin 2) (v : Fin 65536) (s : State) : Res :=
  .next (s.access m (TOP_EXPERT_KEY.addr k) (some (w32 v)))

/-- CHIP_RESET_REQUEST (R362): a write of TOP_X_RESET. -/
def execChipResetRequest (m : Fin 16) (v : Fin 65536) (s : State) : Res := .next (s.access m TOP_X_RESET.addr (some (w32 v)))

/-- FORCE_COAST (R84): YRD_CTRL with these FORCE_COAST bits. -/
def execForceCoast (m : Fin 16) (mask : Fin 16) (s : State) : Res :=
  .next (s.access m YRD_CTRL.addr (some (s.coastWord mask)))

/-- SNAP (R79). -/
def execSnap (m : Fin 16) (s : State) : Res :=
  .next (s.access m YRD_CTRL.addr (some s.snapWord))

/-- YRD_NOW_LO_READ (R79). -/
def execYrdNowLoRead (m : Fin 16) (y : Fin 5) (s : State) : Res := .next (s.access m (YRD_NOW_LO.addr y) none)

/-- A command of the timeline window (R94): 1 READ, 2 WRITE, 3 DELETE. -/
def State.tmlSel (s : State) (m i cmd : Nat) : State :=
  s.access m TML_SEL.addr (some (tmlWord i cmd))

/-- TML_READ (R94). -/
def execTmlRead (m : Fin 16) (i : Fin 256) (s : State) : Res := .next (s.tmlSel m i 1)

/-- TML_WRITE (R94). -/
def execTmlWrite (m : Fin 16) (i : Fin 256) (s : State) : Res := .next (s.tmlSel m i 2)

/-- TML_DELETE (R94). -/
def execTmlDelete (m : Fin 16) (i : Fin 256) (s : State) : Res := .next (s.tmlSel m i 3)

/-- TTA_CLEAR_BUFFER (R150). -/
def execTtaClearBuffer (m : Fin 16) (n : Stall) (dev : Fin 128) (ep : Fin 16) (dirIn bulk : Bool) (s : State) : Res :=
  .next (s.access m TTA_CMD.addr (some (ttaWord n 1 dev ep (b2n dirIn) (2 * b2n bulk))))

/-- TTA_RESET_TT (R150). -/
def execTtaResetTt (m : Fin 16) (n : Stall) (s : State) : Res := .next (s.access m TTA_CMD.addr (some (ttaWord n 2 0 0 0 0)))

/-- TTA_STOP_TT (R150). -/
def execTtaStopTt (m : Fin 16) (n : Stall) (s : State) : Res := .next (s.access m TTA_CMD.addr (some (ttaWord n 3 0 0 0 0)))

/-- TTA_START (R150). -/
def execTtaStart (m : Fin 16) (n : Stall) (s : State) : Res := .next (s.access m TTA_CMD.addr (some (ttaWord n 4 0 0 0 0)))

/-- LINK_RETRAIN (R170). -/
def execLinkRetrain (m : Fin 16) (mask : Fin 16) (s : State) : Res :=
  .next (s.access m GLK_CTRL.addr (some (s.retrainWord mask)))

/-- BELL_RING_REQUEST (R174). -/
def execBellRingRequest (m : Fin 16) (mask : Fin 16) (s : State) : Res :=
  .next (s.access m GLK_WAKE.addr (some (withFields 0 [(GLK_WAKE.RING, mask.val)])))

/-- TLM_ENERGY_LO_READ (R248). -/
def execTlmEnergyLoRead (m : Fin 16) (n : Channel) (s : State) : Res := .next (s.access m (TLM_ENERGY_LO.addr n) none)

/-- TLM_ECLR_WRITE (R248). -/
def execTlmEclrWrite (m : Fin 16) (mask : Fin 131072) (s : State) : Res := .next (s.access m TLM_ECLR.addr (some (w32 mask)))

/-- PPW_CLEAR_WRITE (R237). -/
def execPpwClearWrite (m : Fin 16) (mask : Fin 131072) (s : State) : Res := .next (s.access m PPW_CLEAR.addr (some (w32 mask)))

/-- PDC_MYVOTE_WRITE (R259). -/
def execPdcMyvoteWrite (m : Fin 16) (d : Fin 12) (v : Fin 4) (s : State) : Res :=
  .next (s.access m (PDC_MYVOTE.addr d) (some (w32 v)))

/-- INBOUND_POST (R274): the inbound control word with GO. -/
def execInboundPost (m : Fin 16) (c : Fin 12) (reply : Bool) (seq : Fin 16) (count : Fin 32) (s : State) : Res :=
  .next (s.access m (MBX_IN_CTRL.addr c) (some (postWord c reply seq count)))

/-- OUTBOUND_ACK (R275): 1 written to outbound GO. -/
def execOutboundAck (m : Fin 16) (c : Fin 12) (s : State) : Res := .next (s.access m (MBX_OUT_CTRL.addr c) (some 1))

/-- MBX_LOCK_READ (R286). -/
def execMbxLockRead (m : Fin 16) (i : Fin 16) (s : State) : Res := .next (s.access m (MBX_LOCK.addr i) none)

/-- MBX_LOCK_WRITE (R286). -/
def execMbxLockWrite (m : Fin 16) (i : Fin 16) (w : BitVec 32) (s : State) : Res := .next (s.access m (MBX_LOCK.addr i) (some w))

/-- QUEUE_DATA_READ (R317). -/
def execQueueDataRead (m : Fin 16) (q : Fin 4) (s : State) : Res := .next (s.access m (OBS_Q_DATA.addr q) none)

/-- QUEUE_RESET (R321). -/
def execQueueReset (m : Fin 16) (q : Fin 4) (s : State) : Res :=
  .next (s.access m (OBS_Q_CTRL.addr q) (some (s.queueResetWord q)))

/-- PMU_CLEAR (R325). -/
def execPmuClear (m : Fin 16) (i : Fin 8) (s : State) : Res :=
  .next (s.access m (OBS_PMU_EVT.addr i) (some (s.pmuClearWord i)))

/-- FLT_CLEAR_WRITE (R336). -/
def execFltClearWrite (m : Fin 16) (src : Fin 128) (all : Bool) (qual : Fin 256) (s : State) : Res :=
  .next (s.access m FLT_CLEAR.addr (some (clearWord src all qual)))

/-- FORCE_FAULT (R337): FLT_X_FORCE with GO. -/
def execForceFault (m : Fin 16) (src : Fin 128) (qual : Fin 256) (s : State) : Res :=
  .next (s.access m FLT_X_FORCE.addr (some (forceWord src qual)))

/-- CHECKER_INVERT (R338). -/
def execCheckerInvert (m : Fin 16) (mask : Fin 4096) (s : State) : Res := .next (s.access m FLT_X_INVERT.addr (some (w32 mask)))

end Sys2Proof.Machine
end

