-- ==== Sys2Proof/Machine/Tack.lean ====
section
/-!
DEFINITION. The tack room's vendor requests and endpoints, Billboard, and the sideband targets (R289 to R300 of
spec/13_tack_room_messages.md), the queue timeout (R320), and the standard requests of logical hubs and of the tack room
(R100, R156, R289).
-/
namespace Sys2Proof.Machine

/-- Change a tack room function. -/
def State.tackMod (s : State) (u : Nat) (f : TackS → TackS) : State := (s.withTack (vmod s.tack u f))

/-! ## Vendor requests (R291, R292) -/

/-- A setup packet ends the control transfer that is still open: what stalls or is NAKed of it is dropped. -/
def State.newRequest (s : State) (slot u : Nat) : State :=
  (s.tackMod u fun x => { x with send := none }).withPdc
    { s.pdc with stalls := s.pdc.stalls.filter fun y => y.master ≠ 2 + slot }

/-- A vendor request to the configured tack room of a slot homed here: STALL, with nothing changed, where a field of it is not as
R291 has it. -/
def State.tackReq (s : State) (slot : Nat) (ok : Bool) (f : Nat → State → State) : State :=
  match s.tackUp slot with
  | none => s
  | some u =>
    let s := s.newRequest slot u
    if ok then f u s else s.out (.usbStall slot)

/-- A transfer of a vendor request begins, in its turn at the block (R372); it is NAKed while it stalls (R291). -/
def State.tackXfer (s : State) (slot : Nat) (kind : XferKind) (accs : List (Nat × Option Word)) : State :=
  let s := (s.lowerFirst (2 + slot) (accs.headD (0, none)).1).startXfer ⟨2 + slot, kind, accs, []⟩
  s.when (s.stalls (2 + slot)) fun s => s.out (.usbNak slot)

/-- The bytes of a data stage toward the chip pass EP0's buffer (R290). -/
def State.tackTake (s : State) (u : Nat) (words : List Word) : State := s.epPackets (epBuf u 0).1 (epBuf u 0).2 (wordBytes words)

/-- An MBX_SEND whose status stage completes: the words, then the control word (R291, R292). -/
def State.sendNow (s : State) (slot c : Nat) (l : List Word) : State :=
  -- it is never judged against a GO that has fallen (R292)
  let s := s.unmark (.inFreed c)
  s.tackXfer slot .usbWrite (writesFrom (MBX_IN_W.addr c 0) (l.drop 1) ++ [(MBX_IN_CTRL.addr c, some (l.headD 0))])

/-- MBX_SEND (R291, R292): its status stage is NAKed while inbound GO is 1. -/
def State.mbxSendReq (s : State) (slot : Fin 4) (wValue wIndex wLength : BitVec 16) (ctrl : BitVec 32) (words : List (BitVec 32)) :
    State :=
  let c := wIndex.toNat
  let ok := wValue.toNat = 0 && words.length ≤ 16 && getBits ctrl 1 5 = words.length && wLength.toNat = 4 + 4 * words.length
    && s.namesChannel slot wIndex
  s.tackReq slot ok fun u s =>
    let s := s.tackTake u (ctrl :: words)
    if s.on (MBX_IN_CTRL.GO c) then (s.tackMod u fun x => { x with send := some (c, ctrl :: words) }).out (.usbNak slot)
    else s.sendNow slot c (ctrl :: words)

/-- MBX_SEND (R291, R292). -/
def execMbxSend (slot : Fin 4) (wValue wIndex wLength : BitVec 16) (ctrl : BitVec 32) (words : List (BitVec 32)) (s : State) : Res :=
  .next (s.mbxSendReq slot wValue wIndex wLength ctrl words)

/-- MBX_SEND_COMPLETE (R292): inbound GO has fallen. -/
def State.mbxSendComplete (s : State) (slot : Fin 4) : State :=
  let u := s.upOf slot
  match (vat s.tack u).send with
  | none => s
  | some x =>
    if s.on (MBX_IN_CTRL.GO x.1) then s
    else (s.tackMod u fun y => { y with send := none }).sendNow slot x.1 x.2

/-- MBX_SEND_COMPLETE (R292). -/
def execMbxSendComplete (slot : Fin 4) (s : State) : Res := .next (s.mbxSendComplete slot)

/-- MSG_NAK_TIMEOUT (R292): the status stage has been NAKed for MSG_NAK_MS. -/
def execMsgNakTimeout (slot : Fin 4) (s : State) : Res :=
  .next (
    let u := s.upOf slot
    s.when (vat s.tack u).send.isSome fun s =>
      ((s.tackMod u fun y => { y with send := none }).hw (TKR_EVT.MSG_STALL u)).out (.usbStall slot))

/-- MBX_RECV (R291): the outbound control word and words 0 to 15. -/
def execMbxRecv (slot : Fin 4) (wValue wIndex wLength : BitVec 16) (s : State) : Res :=
  let c := wIndex.toNat
  .next (s.tackReq slot (wValue.toNat = 0 && wLength.toNat = 68 && s.namesChannel slot wIndex) fun _ s =>
    s.tackXfer slot .usbRead ((MBX_OUT_CTRL.addr c, none) :: readsFrom (MBX_OUT_W.addr c 0) 16))

/-- MBX_ACK (R291): 1 to outbound GO, if the standing SEQ equals wValue. -/
def State.mbxAck (s : State) (slot : Fin 4) (wValue wIndex wLength : BitVec 16) : State :=
  let c := wIndex.toNat
  s.tackReq slot (wLength.toNat = 0 && s.namesChannel slot wIndex) fun _ s =>
    if s.on (MBX_OUT_CTRL.GO c) && s.g (MBX_OUT_CTRL.SEQ c) = wValue.toNat then
      s.tackXfer slot .usbWrite [(MBX_OUT_CTRL.addr c, some 1)]
    else s.out (.usbAck slot)

/-- MBX_ACK (R291). -/
def execMbxAck (slot : Fin 4) (wValue wIndex wLength : BitVec 16) (s : State) : Res := .next (s.mbxAck slot wValue wIndex wLength)

/-- REG_READ (R291, R366): 1 to 16 successive words as master 2 + n. -/
def execRegRead (slot : Fin 4) (addr : BitVec 32) (len : Fin 65536) (s : State) : Res :=
  .next (s.tackReq slot (readOk addr len) fun _ s => s.tackXfer slot .usbRead (readsFrom addr.toNat (len / 4)))

/-- REG_WRITE (R291, R292, R366): 1 to 16 words to successive addresses. -/
def State.regWrite (s : State) (slot : Fin 4) (addr : BitVec 32) (wLength : BitVec 16) (words : List (BitVec 32)) : State :=
  s.tackReq slot (writeOk addr wLength words 16) fun u s =>
    (s.tackTake u words).tackXfer slot .usbWrite (writesFrom addr.toNat words)

/-- REG_WRITE (R291, R292, R366). -/
def execRegWrite (slot : Fin 4) (addr : BitVec 32) (wLength : BitVec 16) (words : List (BitVec 32)) (s : State) : Res :=
  .next (s.regWrite slot addr wLength words)

/-- REG_WRITE_FIXED (R291, R292, R366): 1 to 4 words to one address. -/
def State.regWriteFixed (s : State) (slot : Fin 4) (addr : BitVec 32) (wLength : BitVec 16) (words : List (BitVec 32)) : State :=
  s.tackReq slot (writeOk addr wLength words 4) fun u s =>
    (s.tackTake u words).tackXfer slot .usbWrite (words.map fun w => (addr.toNat, some w))

/-- REG_WRITE_FIXED (R291, R292, R366). -/
def execRegWriteFixed (slot : Fin 4) (addr : BitVec 32) (wLength : BitVec 16) (words : List (BitVec 32)) (s : State) : Res :=
  .next (s.regWriteFixed slot addr wLength words)

/-- The queues a function owns are released, but for the one named; their staged packets stay in the queues (R294, R318). -/
def State.releaseQueues (s : State) (u : Nat) (keep : Option Nat) : State :=
  s.each ((List.range 4).filter fun q => s.g (OBS_Q_CTRL.OWNER q) = u + 1 && keep ≠ some q) fun q s =>
    (s.p (OBS_Q_CTRL.OWNER q) 0).unstage q

/-- The packet staged from a queue stands in its owner's EP2 buffer (R290, R294). -/
def State.ep2Fill (s : State) (q : Nat) : State :=
  let o := s.g (OBS_Q_CTRL.OWNER q)
  s.when (o ≠ 0 && (vat s.obs q).staged > 0) fun s => s.epWrite (epBuf (o - 1) 2).1 (wordBytes (vat s.obs q).packet)

/-- QUEUE_SELECT (R291, R294, R318): STALL for a queue that another function owns. -/
def execQueueSelect (slot : Fin 4) (wValue wIndex wLength : BitVec 16) (s : State) : Res :=
  let q := wIndex.toNat
  .next (s.tackReq slot (wValue.toNat = 0 && q < 4 && wLength.toNat = 0) fun u s =>
    let o := s.g (OBS_Q_CTRL.OWNER q)
    if o ≠ 0 ∧ o ≠ u + 1 then s.out (.usbStall slot)
    else
      let s := s.releaseQueues u (some q)
      ((((s.p (OBS_Q_CTRL.OWNER q) (u + 1)).p (TKR_FUNC.QUEUE u) q).restage q).ep2Fill q).out (.usbAck slot))

/-! ## Endpoints (R293, R294) -/

/-- Words 0 and 1 of a report now (R293). -/
def State.reportWords (s : State) (slot u : Nat) : Nat × Nat :=
  let bells := (List.range 12).filter fun c => s.g (MBX_ASSIGN.PARTY c) = 2 + slot && s.on (MBX_DB.OUT_DB c) && s.notifyWake c
  let fault := (List.range 128).any fun x => faultExists x && s.sticky x && 0 < s.severity x
  ((bells.map fun c => 2 ^ c).sum + (vat s.tack u).rung * 2^12, s.mode + b2n fault * 8)

/-- A latched report wakes a suspended host that has enabled it (R140, R293). -/
def State.tackWake (s : State) (slot u : Nat) : State :=
  if !s.on (TKR_FUNC.RWAKE u) then s
  else
    let s := match s.tackPos slot with
      | some q => s.when (bitOf q.st.hs 2) fun s =>
          (s.mirOwn q fun x => { x with hs := clrBits x.hs 4, hsChg := orBits x.hsChg 4 }).tackState slot (s.tackAwake slot)
      | none => s
    s.wakeUp slot

/-- EP1_REPORT (R290, R293): a report is latched, or the host ACKs the one that stands; its IN token is NAKed while none does. -/
def execEp1Report (slot : Fin 4) (ack : Bool) (s : State) : Res :=
  .next (
    let u := s.upOf slot
    let x := vat s.tack u
    if !x.configured then s
    else if ack then match x.report with
      | none => s.out (.usbNak slot)
      | some l =>
        let w (i : Nat) : Nat := (l.getD i 0).toNat
        (s.tackMod u fun y => { y with report := none, acked := (w 0, w 1) }).out (.usbData slot (wordBytes l))
    else
      let r := s.reportWords slot u
      if x.report.isSome ∨ r = x.acked then s
      else
        let l := [w32 r.1, w32 r.2] ++ words64 (s.now slot)
        ((s.tackMod u fun y => { y with report := some l, rung := 0 }).epWrite (epBuf u 1).1 (wordBytes l)).tackWake slot u)

/-- EP2_PACKET_ACK (R290, R294, R316, R318): the host ACKs the packet of whole records, and those still in the queue leave it; with
an empty buffer the IN token is NAKed. -/
def execEp2PacketAck (slot : Fin 4) (s : State) : Res :=
  .next (
    let u := s.upOf slot
    let q := s.g (TKR_FUNC.QUEUE u)
    let o := vat s.obs q
    if !(vat s.tack u).configured then s
    else if s.g (OBS_Q_CTRL.OWNER q) ≠ u + 1 ∨ o.staged + o.stagedGone = 0 then s.out (.usbNak slot)
    else ((s.out (.usbData slot (wordBytes o.packet))).ackPacket q).ep2Fill q)

/-- QUEUE_TIMEOUT (R320): TIMEOUT_MS without a pop; a pop of the same cycle wins. -/
def execQueueTimeout (q : Fin 4) (s : State) : Res :=
  .next (
    if s.g (OBS_Q_CTRL.TIMEOUT_MS q) = 0 ∨ (vat s.obs q).recs.isEmpty ∨ !s.domOn dMGT
        ∨ s.popAhead q ∨ s.marks.contains (.popped q) then s
    else
      let c := s.g (OBS_Q_CTRL.CHANNEL q)
      let s := s.hw (OBS_Q_STATUS.TIMEOUT q)
      let s := s.each ([0, 1].filter fun u => (s.slotOf u).any fun k => s.g (MBX_ASSIGN.PARTY c) = 2 + k) fun u s =>
        s.tackMod u fun x => { x with rung := x.rung ||| 2 ^ q.val }
      s.notice c [0x50, q, (vat s.obs q).recs.length, s.g (OBS_Q_LOST.LOST q)])

/-! ## Billboard (R223, R296) -/

/-- BILLBOARD_TIMEOUT (R223, R296): tAMETimeout after the explicit contract without DisplayPort configured. -/
def execBillboardTimeout (u : Fin 2) (s : State) : Res :=
  .next (match (s.slotOf u).bind s.plan.paddock? with
    | none => s
    | some r =>
      if !bitOf r.flags 3 ∨ s.g (TCP_PORT.CONTRACT (15 + u)) < 2 ∨ s.g (TCP_DP.STATE u) = 3 ∨ s.on (TCP_DP.BILLBOARD u)
          ∨ (vat s.tack u).away then s
      else match s.tackPos r.slot with
        | none => s.hw (TKR_EVT.BB_NO_PORT u)
        | some q => (s.tackMod u fun x => { x with away := true }).tackPlace q)

/-- BILLBOARD_RECONNECT (R296): after 10 ms, unless the upstream port has detached in the meantime. -/
def execBillboardReconnect (u : Fin 2) (s : State) : Res :=
  .next (match (s.slotOf u).bind s.tackPos with
    | none => s
    | some q => s.when ((vat s.tack u).away && (s.ch (15 + u)).attached) fun s =>
        (((s.tackMod u fun x => { x with away := false }).p (TKR_FUNC.BILLBOARD u) 1).p (TCP_DP.BILLBOARD u) 1).tackPlace q)

/-! ## Standard requests (R100, R156, R289) -/

/-- A standard request to the tack room. -/
def State.tackStd (s : State) (slot u : Nat) (r : StdReq) : State :=
  let st := s.g (TKR_FUNC.STATE u)
  let ok (s : State) : State := s.out (.usbAck slot)
  let no : State := s.out (.usbStall slot)
  if st < 2 ∨ st = 5 then s
  else match r with
    | .address a =>
      if st = 4 then no else ok ((s.p (TKR_FUNC.STATE u) (if a.val = 0 then 2 else 3)).p (TKR_FUNC.ADDR u) a)
    | .configuration v =>
      let want := if s.on (TKR_FUNC.BILLBOARD u) ∨ v.val = 0 ∨ v.val = 1 then v.val else 2
      if st < 3 ∨ 1 < want then no
      else ok ((s.p (TKR_FUNC.STATE u) (3 + want)).tackMod u fun x => { x with configured := decide (want = 1) })
    | .interface alt => if st = 4 ∧ alt.val = 0 then ok s else no
    | .remoteWake on => if st < 3 then no else ok (s.p (TKR_FUNC.RWAKE u) (b2n on))
    | .descriptor d => match s.tackAnswer slot (s.on (TKR_FUNC.BILLBOARD u)) (vat s.dp u).entered d with
      | some l => s.tackData slot l
      | none => no
    | .u1Enable _ | .u2Enable _ | .ldmEnable _ | .vendor _ => no

/-- A standard request to one side of a logical hub. -/
def State.hubStd (s : State) (slot hub : Nat) (ss : Bool) (r : StdReq) : State :=
  let pen := if hub = 0 then 0xF else hub - 1
  let u := s.upOf slot
  let ok (s : State) : State := s.out (.usbAck slot)
  let no : State := s.out (.usbStall slot)
  let lpm (f : Fld) (on : Bool) : State := if !ss then no else ok (s.when (hub = 0) fun s => s.p f (b2n on))
  match r with
  | .address a =>
    if ss then
      let s := (s.hubMod slot pen fun h => { h with addr := a }).ctxEach slot pen fun i s => s.p (SSH_CTX.ADDR i) a
      -- the home member decodes a pen's address too (R101)
      ok (match s.homeOf slot with
        | some (m, _) => s.when (hub ≠ 0 && m ≠ s.member) fun s =>
            s.ctrlTo m "ORDER" ([slot, 15, 0] ++ actFields (.penAddr pen a))
        | none => s)
    else ok (s.each ((s.slotEngines slot).filter fun e => s.g (HSH_ENG.ROLE e) ≤ 2 && s.g (HSH_ENG.PEN e) = pen) fun e s =>
      s.p (HSH_ENG.ADDR e) a)
  | .configuration v =>
    if 1 < v.val then no
    else
      let on := decide (v.val = 1)
      let s := s.hubMod slot pen fun h => if ss then { h with ssConf := on } else { h with configured := on }
      ok (s.when (hub = 0) fun s => ((s.upJudge u).cdpJudge slot).tellUp slot)
  | .interface alt =>
    if alt.val = 0 ∨ (alt.val = 1 ∧ !ss) then ok (s.hubMod slot pen fun h => { h with altSet := decide (alt.val = 1) }) else no
  | .u1Enable on => lpm (SSH_USP_LPM.U1_ENABLE u) on
  | .u2Enable on => lpm (SSH_USP_LPM.U2_ENABLE u) on
  | .ldmEnable on => lpm (SSH_USP_LPM.LDM_ENABLE u) on
  | .vendor _ => no
  | .remoteWake on => ok (s.hubMod slot pen fun h => { h with wakeEn := on })
  | .descriptor d =>
    let fs := hub = 0 && (s.rootEngine slot).any fun e => s.g (HSH_ENG.SPEED e) = 1
    match s.hubAnswer slot hub ss fs d with
    | some l => s.hubData slot hub ss l
    | none => no

/-- STANDARD_DEVICE_REQUEST (R156, R289): to the tack room (`none`), or to one side of a logical hub. -/
def execStandardDeviceRequest (slot : Fin 4) (hub : Option (Fin 16)) (ss : Bool) (r : StdReq) (s : State) : Res :=
  .next (match hub with
    | some h => s.when (s.answers slot h) fun s => s.hubStd slot h ss r
    | none => match s.homeOf slot with
      | some (m, u) => s.when (m = s.member) fun s => (s.newRequest slot u).tackStd slot u r
      | none => s)

/-! ## Sidebands (R297 to R300) -/

/-- A transfer to the I2C (6) or SPI (7) target: client 5 is raised to ON on MGT (R400), and it is the last access. -/
def State.sideAccess (s : State) (m : Nat) (f : State → State) : State :=
  s.when (s.sideOn m) fun s => f ((s.holdAccess m dMGT).when (m = 7) fun s => s.withSbTimedOut false)

/-- The accesses of a sideband transfer are begun in its turn (R372); while they stall, the SPI target sends wait bytes (R299). -/
def State.sideXfer (s : State) (m : Nat) (kind : XferKind) (accs : List (Nat × Option Word)) : State :=
  let s := (s.lowerFirst m (accs.headD (0, none)).1).startXfer ⟨m, kind, accs, []⟩
  s.when (s.stalls m && m = 7 && kind ≠ .plain) fun s => s.out (.sideband [0])

/-- A write transfer. -/
def State.sideWrite (s : State) (m a : Nat) (bytes : List Byte) : State :=
  let l := sideWrites a bytes
  s.when (!l.isEmpty) fun s => s.sideXfer m .plain l

/-- A read transfer of n bytes. -/
def State.sideRead (s : State) (m a n : Nat) : State := s.sideXfer m (.sideRead a n) (sideReads a n)

/-- I2C_WRITE (R297): with TKR_SB.PEC set, the last byte is the PEC, and a bad one drops the write whole. -/
def execI2cWrite (addr : BitVec 24) (bytes : List (BitVec 8)) (s : State) : Res :=
  .next (s.sideAccess 6 fun s => s.sideWrite 6 addr.toNat (s.i2cData addr.toNat bytes))

/-- I2C_READ (R297). -/
def execI2cRead (addr : BitVec 24) (n : Fin 65536) (s : State) : Res :=
  .next (s.sideAccess 6 fun s => s.sideRead 6 addr.toNat n)

/-- SPI_WRITE (R298). -/
def execSpiWrite (addr : BitVec 24) (bytes : List (BitVec 8)) (s : State) : Res :=
  .next (s.sideAccess 7 fun s => s.sideWrite 7 addr.toNat bytes)

/-- SPI_READ (R298). -/
def execSpiRead (addr : BitVec 24) (n : Fin 65536) (s : State) : Res :=
  .next (s.sideAccess 7 fun s => s.sideRead 7 addr.toNat n)

/-- SPI_STATUS (R298). -/
def execSpiStatus (s : State) : Res :=
  .next (s.when (s.boot.held = 0 && s.on TKR_CTRL.SPI_EN) fun s =>
    let bell := (List.range 12).any fun c => [6, 7].contains (s.g (MBX_ASSIGN.PARTY c)) && s.on (MBX_DB.OUT_DB c)
    s.out (.sideband [BitVec.ofNat 8 (b2n s.alertOn + b2n bell * 2 + b2n s.sbTimedOut * 4)]))

/-- SMBUS_ALERT_RESPONSE (R300): the target's own 7-bit address. -/
def execSmbusAlertResponse (s : State) : Res :=
  .next (s.when (s.boot.held = 0 && s.on TKR_CTRL.I2C_EN && s.alertOn) fun s =>
    s.out (.sideband [BitVec.ofNat 8 (0x28 + s.g TOP_STRAP.I2CADDR)]))

/-- A stalled transfer of a sideband target ends (R299): every word of a read that is still to come is 0x0FF0_0BAD, sent on SPI
after the 0xEE marker; a write is dropped. -/
def State.endStall (s : State) (x : StalledAcc) : State :=
  let words := gotWords x.got ++ (x.accs.filter fun a => a.2.isNone).map fun _ => (0x0FF00BAD : Word)
  match x.kind with
  | .sideRead addr n => s.out (.sideband (s.sideBytes x.master addr n words 0xEE))
  | _ => s.when (!words.isEmpty) fun s => s.out (.read x.master words)

/-- SIDEBAND_STALL_TIMEOUT (R299): the stalled transfer of the I2C or the SPI target ends. -/
def execSidebandStallTimeout (spi : Bool) (s : State) : Res :=
  .next (
    let m := if spi then 7 else 6
    let mine := s.pdc.stalls.filter fun x => x.master = m
    if mine.isEmpty then s
    else
      let s := (s.withPdc { s.pdc with stalls := s.pdc.stalls.filter fun x => x.master ≠ m }).when spi fun s => s.withSbTimedOut true
      (mine.foldl (fun s x => s.endStall x) s).hw (TKR_EVT.SB_TIMEOUT 0))

end Sys2Proof.Machine
end

