-- ==== Sys2Proof/Machine/Activate.lean ====
section
/-!
DEFINITION. Activation of a plan (R31, R36 to R56, R65, R100, R110, R128, R129, R182, R399): what each section puts into force
on this chip, and the entry to SERVICE.
-/
namespace Sys2Proof.Machine

/-! ## The member number (R182) -/

/-- The number the MEMBER_STRAP entries of a list spell, as read when the chip leaves BOOT. -/
def State.strapRead (s : State) (l : List GpioE) : Nat :=
  let levels := if s.mode = 0 then s.word GPI_IN.addr else s.boot.gpi
  ((l.filter fun e => e.fn = 5).map fun e => b2n (bitOf levels.toNat e.gpio != bitOf e.flags 0) * 2 ^ e.arg).sum

/-- The number the straps give (R42). The GPIO sections of a member hold for it alone, and the chip does not know its number
yet: it is the lowest member whose own MEMBER_STRAP entries spell that member, 8 where none do (DESIGN CHOICE, log entry 132). -/
def State.strapNumber (s : State) (p : Plan) : Nat :=
  ((List.range 8).find? fun m => s.strapRead (p.gpioOf m) = m).getD 8

/-- The number this chip claims under a plan. -/
def State.claimed (s : State) (p : Plan) : Option Nat :=
  match p.barn with
  | none => some 0
  | some b =>
    if b.memberSrc = 0 then (b.uid.take b.members).findIdx? fun u => u = s.otp.uid
    else if s.strapNumber p < b.members then some (s.strapNumber p) else none

/-- The claim takes effect: a chip without a number has 8 here, which names no member, and DRV_NO_NUMBER arises. -/
def State.takeNumber (s : State) : State :=
  let c := s.claimed s.plan
  let m := c.getD 8
  let s := s.withFab { ({} : FabS) with member := m, numbered := c.isSome }
  let s := s.setWord DRV_BARN.addr 0
  let s := s.fields [(DRV_BARN.MEMBER, m % 8), (DRV_BARN.NUMBERED, b2n c.isSome)]
  let s := s.each (List.range 8) fun d s => s.setWord (DRV_ROUTE.addr d) 0
  s.when c.isNone fun s => s.raise 51

/-! ## Registers of the plan -/

/-- PLN registers of the plan in force (R31): no identity under the built-in plan. -/
def State.planRegs (s : State) (src : Nat) : State :=
  let p := s.plan
  let h := if src = 1 then [] else leWords p.bodyHash
  let s := s.fields [(PLN_STATUS.SOURCE, src), (PLN_ACTIVE_ID.PLAN_ID, p.planId), (PLN_ACTIVE_BUILD.BUILD, p.build)]
  s.each (List.range 8) fun n s => s.setWord (PLN_HASH.addr n) (h.getD n 0)

/-- An STL_STALL word from its entry; a stall that is not listed is DISABLED (R36). -/
def stallWord : Option StallE → Word
  | none => withFields 0 [(STL_STALL.ORIENT 0, 0x3F)]
  | some e => withFields 0 [(STL_STALL.TYPE 0, e.typ), (STL_STALL.SS_MODE 0, e.ssMode), (STL_STALL.FLAGS 0, e.flags),
      (STL_STALL.ORIENT 0, if e.orient = 0xFF then 0x3F else e.orient)]

/-- Index in STL_LANE of a lane code (R37). -/
def laneIndex (code : Nat) : Nat := if code < 0x10 then code else if code < 0x24 then code - 0x20 + 16 else code - 0x30 + 20

/-- Stalls and lanes (R36, R37). -/
def State.setStalls (s : State) : State :=
  let s := s.each (List.range 15) fun n s => s.setWord (STL_STALL.addr n) (stallWord (s.stallE n))
  s.each (List.range 28) fun i s =>
    let w := match s.plan.lanes.find? fun e => e.member = s.member ∧ laneIndex e.lane = i with
      | none => resetWord (STL_LANE.addr i)
      | some e => withFields 0 [(STL_LANE.RX_INVERT i, e.flags), (STL_LANE.TX_INVERT i, e.flags / 2), (STL_LANE.DISABLE i, e.flags / 4),
          (STL_LANE.TX_PRESET i, e.preset), (STL_LANE.RX_CTLE i, e.ctle), (STL_LANE.TX_SWING i, e.swing)]
    s.setWord (STL_LANE.addr i) w

/-- The TARGET code of a channel without a contract: 5.1 V on a stall without CC, 5 V otherwise (R209, R226). -/
def State.baseTarget (s : State) (n : Nat) : Nat := if n ≤ 14 && [1, 4, 5].contains (s.typ n) then 1020 else 1000

/-- The settings of a channel from its EFUSE entry or the defaults (R46, R47). -/
def State.setEfuse (s : State) (n : Nat) : State :=
  let e := s.efuse n
  s.fields [(PPW_RAMP.RAMP n, e.ramp), (PPW_RAMP.GATE_STUCK n, e.gateStuck), (PPW_RAMP.SEAT_DEB n, e.seatDeb),
    (PPW_LIMIT.ILIM n, e.ilim), (PPW_TRIP.FAST n, e.fast), (PPW_TRIP.SLOW n, e.slow), (PPW_RETRY.RETRY n, e.retry),
    (PPW_RETRY.RETRIES n, e.retries)]

/-- One power-path channel as the plan sets it (R46, R47); its retry count starts afresh. The UP0 sink path stays closed
(R356). A stall that is not listed has PRIORITY 0 (DESIGN CHOICE, log entry 133). -/
def State.setChannel (s : State) (n : Nat) : State :=
  let s := (s.setEfuse n).p (PPW_RETRY.COUNT n) 0
  let pri := if n ≤ 14 then ((s.stallE n).map (·.priority)).getD 0 else if n = 15 then s.powerE.up0Pri else s.powerE.up1Pri
  let s := s.fields [(BUD_PORT.PRIORITY n, pri), (BUD_PORT.REDUCED n, 0), (BUD_PORT.SHED n, 0), (BUD_RLIM.RLIM n, 0),
    (PPW_STATUS.REDUCED n, 0), (TCP_VSET.TARGET n, s.baseTarget n), (TCP_VSET.CODE n, s.baseTarget n)]
  let seat := ((s.stallE n).map fun x => n ≤ 14 && bitOf x.flags 5 && s.on (seatBit (8 + x.seat))).getD false
  let low := ((s.stallE n).map fun x => n ≤ 14 && bitOf x.flags 5 && s.on (seatBit x.seat)).getD false
  -- a stall without SEATED is always treated as seated (R229)
  let s := s.p (PPW_STATUS.SEATED n) (b2n (seat || (n ≤ 14 && !s.stallFlag n 5)))
  let s := if s.on (PPW_STATUS.SINK n) then s
    else
      let st := s.g (PPW_STATUS.STATE n)
      ((s.chMod n fun c => { vbusLow := c.vbusLow, seatLow := low, defPower := n ≤ 14 && [1, 4, 5].contains (s.typ n),
                             retrying := c.retrying && c.waiting, waiting := c.waiting, sinkOff := c.sinkOff }).tcMod n
        fun t => { ({} : Tcp) with msgId := t.msgId }).p (PPW_STATUS.STATE n) (if st = 4 ∨ st = 7 then st else 0)
  s.setLimit n

/-- Power, budget and channels (R43, R46, R47, R399). -/
def State.setPower (s : State) : State :=
  let s := s.withBud { s.bud with budget := s.powerE.budget }
  (s.each (List.range 17) fun n s => s.setChannel n).fields [(BUD_STATE.REDUCING, 0), (BUD_STATE.SHEDDING, 0),
    (BUD_STATUS.BUDGET, s.powerE.budget / 100)]

/-- Domains (R48, R264): defaults where no entry names one; a FAILED domain is released. -/
def State.setDomains (s : State) : State :=
  s.each ((List.range 12).drop 1) fun d s =>
    let e : DomainE := ((s.plan.domains.filter fun e => e.domain = d ∧ maskHas e.mask s.member).getLast?).getD
      ⟨0, d, if d = dPPA ∨ d = dMGT then 5 else 7, 40, 200, 8⟩
    let s := s.fields [(PDC_CFG.ALLOW_RET d, e.flags), (PDC_CFG.ALLOW_OFF d, e.flags / 2), (PDC_CFG.PREDICT d, e.flags / 4),
      (PDC_CFG.QUIET_MS d, e.quietMs), (PDC_CFG.OFF_MS d, e.offMs), (PDC_RETUS.RET_US d, e.retUs)]
    s.releaseFailed d

/-- Severities and ALERT marks (R50). -/
def State.setFaults (s : State) : State :=
  let s := s.each (List.range 8) fun k s => s.setWord (FLT_SEV.addr k) (resetWord (FLT_SEV.addr k))
  let s := s.each (List.range 4) fun k s => s.setWord (FLT_ALERT.addr k) 0
  s.plan.faults.foldl (fun s e =>
    (s.p ⟨FLT_SEV.addr (e.source / 16), 2 * (e.source % 16), 2⟩ e.severity).p (bitFld (FLT_ALERT.addr (e.source / 32)) (e.source % 32))
      (e.flags % 2)) s

/-- The party of a channel without a MAILBOX entry (R51). -/
def State.defaultParty (s : State) (c : Nat) : Nat :=
  if c < 4 then c + 2 else if c = 4 then 6 else if c = 5 then 7 else if c = 6 then 8 else if c = 7 then 0
  else if s.plan.keys.any fun k => k.party = c - 6 then c - 6 else 0

/-- Every Tabver session closes, and what waited for one (R309); expert pages close (R369). -/
def State.closeAll (s : State) : State :=
  (((s.withMsg { s.msg with sess := Vector.replicate 4 none, pend := [], fwd := [] }).withPln { s.pln with bulk := none })).closePages [2, 3, 4, 5, 6, 7]

/-- Channels (R51, R285, R288): every half emptied, every lock released. -/
def State.setMailboxes (s : State) : State :=
  s.emptyMailboxes.closeAll.each (List.range 12) fun c s =>
    match s.plan.mailbox.find? fun e => e.channel = c with
    | some e => s.fields [(MBX_ASSIGN.PARTY c, e.party), (MBX_ASSIGN.NOTIFY c, e.notify), (MBX_ASSIGN.TIMEOUT c, e.timeout)]
    | none => s.fields [(MBX_ASSIGN.PARTY c, s.defaultParty c), (MBX_ASSIGN.NOTIFY c, 0), (MBX_ASSIGN.TIMEOUT c, 100)]

/-- GPIO functions (R53); every output starts inactive. -/
def State.setGpios (s : State) : State :=
  let s := s.setWord GPI_OUT.addr 0
  s.each (List.range 32) fun g s =>
    match (s.plan.gpioOf s.member).find? fun e => e.gpio = g with
    | none => s.setWord (GPI_CFG.addr g) 0
    | some e => s.setWord (GPI_CFG.addr g) (withFields 0 [(GPI_CFG.FUNCTION g, e.fn), (GPI_CFG.ARG g, e.arg),
        (GPI_CFG.ACTIVE_LOW g, e.flags), (GPI_CFG.OPEN_DRAIN g, e.flags / 2), (GPI_CFG.PULL_UP g, e.flags / 4),
        (GPI_CFG.PULL_DOWN g, e.flags / 8)])

/-- The flow-hash seed (R42): 0 stands for the low 64 bits of BODY_HASH, which are its bytes 0 to 7, byte 0 lowest (DESIGN
CHOICE, log entry 134). -/
def State.setSeed (s : State) : State :=
  let x := (s.plan.barn.map (·.seed)).getD 0
  let x := if x = 0 then leNat s.plan.bodyHash % 2^64 else x
  s.fields [(DRV_SEED_LO.SEED_LO, x), (DRV_SEED_HI.SEED_HI, x / 2^32)]

/-! ## Hubs, contexts, engines and carries -/

/-- Paddocks in ascending slot. -/
def Plan.bySlot (p : Plan) : List PaddockR := p.paddocks.mergeSort fun a b => decide (a.slot ≤ b.slot)

/-- The logical hubs this chip answers for (R154): roots, then pens, in ascending slot and pen index; 0xF stands for a root. -/
def State.ownHubs (s : State) : List (PaddockR × Nat) :=
  let rs := s.plan.bySlot
  ((rs.filter fun r => r.upMember = s.member).map fun r => (r, 0xF))
    ++ rs.flatMap fun r => ((List.range r.pens.length).filter fun k => (r.pens.getD k default).engine = s.member).map fun k => (r, k)

/-- Ports of a hub of a paddock: 0xF the root. -/
def PaddockR.hubPorts (r : PaddockR) (pen : Nat) : List PortE := r.portsOf (if pen = 0xF then 0 else pen + 1)

/-- SS contexts (R100): roots and pens, then a PROXY for each slot homed elsewhere that has an SS stall here. -/
def State.setContexts (s : State) : State :=
  let own := s.ownHubs.filter fun h => h.1.ss
  let far := s.plan.bySlot.filter fun r => r.ss && r.upMember ≠ s.member && r.positions.any fun q =>
    q.member = s.member && ((s.stallE q.stall).map (·.ssMode)).getD 0 ≠ 0
  let ctx : List (Nat × Nat × Nat × Nat) :=
    (own.map fun (h : PaddockR × Nat) => (if h.2 = 0xF then 1 else 2, h.1.slot, h.2, (h.1.hubPorts h.2).length)) ++ far.map fun (r : PaddockR) => (3, r.slot, 0xF, 0)
  let s := s.each (List.range 8) fun i s =>
    let x := ctx.getD i (0, 0, 0xF, 0)
    s.setWord (SSH_CTX.addr i) (withFields 0 [(SSH_CTX.KIND i, x.1), (SSH_CTX.SLOT i, x.2.1), (SSH_CTX.PEN i, x.2.2.1),
      (SSH_CTX.PORTS i, x.2.2.2)])
  let at_ (kind slot pen : Nat) : Nat := (ctx.findIdx? fun x => x.1 = kind && x.2.1 = slot && x.2.2.1 = pen).getD 0
  let s := s.withSs { ({} : SsS) with hubs := s.ownHubs.map fun (h : PaddockR × Nat) => { slot := h.1.slot, pen := h.2 } }
  s.each (List.range 17) fun n s =>
    let c := if n ≥ 15 then ((s.slotOf (n - 15)).map fun y => at_ 1 y 0xF).getD 0
      else match s.posOf n with
        | none => 0
        | some (slot, q, am) => if am ≠ s.member then at_ 3 slot 0xF else if q.hub = 0 then at_ 1 slot 0xF else at_ 2 slot (q.hub - 1)
    let s := s.fields [(SSH_PORT.CTX n, c), (SSH_PORT.HP_IN n, 0), (SSH_PORT.HP_OUT n, 0)]
    if n ≤ 14 then s.setWord (SSH_PORT_LPM.addr n) 0 else s.setWord (SSH_USP_LPM.addr (n - 15)) 0

/-- A carry given to one bus (R129): the index of its BARN entry, the slot and the hub (0 root, k + 1 pen k). -/
abbrev CarryUse := Nat × Nat × Nat

/-- The first BARN link between two members whose carry belongs to the slot and is free for the bus. -/
def Plan.freeCarry (p : Plan) (used : List CarryUse) (a b slot hub : Nat) : Option Nat :=
  let ls := (p.barn.map (·.links)).getD []
  ((List.range ls.length).filter fun i =>
    let e := ls.getD i default
    e.carry = slot && ((e.memberA = a && e.memberB = b) || (e.memberA = b && e.memberB = a)))
    |>.filter (fun i => (used.find? fun u => u.1 = i).all fun u => u.2.2 = hub)
    |>.head?

/-- Carries from member `a` to `b` for a bus: one link, or two over the lowest member between when `two` allows. -/
def Plan.carryPath (p : Plan) (used : List CarryUse) (a b slot hub : Nat) (two : Bool) : List Nat :=
  match p.freeCarry used a b slot hub with
  | some i => [i]
  | none =>
    if !two then []
    else ((List.range 8).findSome? fun x => match p.freeCarry used a x slot hub, p.freeCarry used x b slot hub with
      | some i, some j => some [i, j]
      | _, _ => none).getD []

/-- What a bus of a paddock needs to reach: the engine's member, and the others with whether two hops will do (R134). -/
def PaddockR.needsOf (r : PaddockR) (hub : Nat) : Nat × List (Nat × Bool) :=
  let e := if hub = 0 then r.upMember else (r.pens.getD (hub - 1) default).engine
  let flats := ((r.positions.filter fun q => q.hub = hub && q.member ≠ e).map (·.member)).dedup
  let pens := if hub = 0 then ((r.pens.map (·.engine)).filter fun m => m ≠ e).dedup else []
  (e, flats.map (fun m => (m, false)) ++ pens.map fun m => (m, true))

/-- The carries of the whole barn, bus by bus in the order of precedence of R129: the same on every member. A pen's engine has one
carry pair at most (R128), toward the first member of its positions that one can be had for (DESIGN CHOICE, log entry 142). -/
def Plan.carries (p : Plan) : List CarryUse :=
  p.bySlot.foldl (fun used r =>
    (List.range (r.pens.length + 1)).foldl (fun used hub =>
      let n := r.needsOf hub
      n.2.foldl (fun used m => if hub ≠ 0 && used.any (fun u => u.2 = (r.slot, hub)) then used else used ++ ((p.carryPath used n.1 m.1 r.slot hub m.2).filter fun i => used.all fun u => u.1 ≠ i).map
        fun i => (i, r.slot, hub)) used) used) []

/-- The carries a bus has got toward a member, from its engine. -/
def Plan.pathFor (p : Plan) (slot hub a b : Nat) (two : Bool) : List Nat :=
  let mine := p.carries.filter fun u => u.2.1 = slot ∧ u.2.2 = hub
  -- links of another bus are taken: only this bus's own stand for it
  let other := p.carries.filter fun u => ¬(u.2.1 = slot ∧ u.2.2 = hub)
  (p.carryPath other a b slot hub two).filter fun i => mine.any fun u => u.1 = i

/-- The relays of member m (R128, R129): the bus each repeats and its carry; first one for each slot, then others while engines
are free; in ascending slot. -/
def Plan.relays (p : Plan) (m : Nat) : List (Nat × Nat × Nat) :=
  let fixed := (p.paddocks.filter fun r => r.upMember = m).length
    + (p.paddocks.map fun r => (r.pens.filter fun q => q.engine = m).length).sum
  let want := p.bySlot.flatMap fun r => (List.range (r.pens.length + 1)).filterMap fun hub =>
    let n := r.needsOf hub
    if n.1 ≠ m && r.positions.any fun q => q.hub = hub && q.member = m then
      (p.pathFor r.slot hub n.1 m false).getLast?.map fun i => (r.slot, hub, i)
    else none
  let first := want.filter fun x => (want.find? fun y => y.1 = x.1) = some x
  let more := want.filter fun x => !first.contains x
  let got := (first ++ more).take (4 - fixed)
  got.mergeSort fun a b => decide (a.1 < b.1 ∨ a.1 = b.1 ∧ a.2.1 ≤ b.2.1)

/-- A link of this chip named by a BARN entry. -/
def State.linkOfEntry (s : State) (i : Nat) : Option Nat := [0, 1, 2, 3].find? fun k => (s.entryOf k).any fun e => e.2 = i

/-- How the USB 2.0 path of a stall position or pen leaves its answering member: 9 on the chip itself, a link, 8 none. -/
def State.viaOf (s : State) (r : PaddockR) (hub target : Nat) (pen : Bool) : Nat :=
  let e := (r.needsOf hub).1
  if target = e then 9
  else
    let path := s.plan.pathFor r.slot hub e target pen
    let served := pen || (s.plan.relays target).any fun x => x.1 = r.slot ∧ x.2.1 = hub
    if !served then 8 else ((path.head?).bind s.linkOfEntry).getD 8

/-- HS engines (R128): roots, pens, relays, from engine 0 upward. -/
def State.setEngines (s : State) : State :=
  let up (r : PaddockR) (k : Nat) : Nat :=
    if r.upMember = s.member then 2
    else (((s.plan.pathFor r.slot 0 r.upMember s.member true).getLast?).bind s.linkOfEntry |>.map (4 + ·)).getD (4 + 0 * k)
  let own := s.ownHubs.map fun h => if h.2 = 0xF then (1, h.1.slot, 0xF, h.1.upPort) else (2, h.1.slot, h.2, up h.1 h.2)
  let rel := (s.plan.relays s.member).map fun x => (3, x.1, if x.2.1 = 0 then 0xF else x.2.1 - 1, 4 + (s.linkOfEntry x.2.2).getD 0)
  let all : List (Nat × Nat × Nat × Nat) := own ++ rel
  let s := s.each (List.range 4) fun e s =>
    match all[e]? with
    | none => s.setWord (HSH_ENG.addr e) (resetWord (HSH_ENG.addr e))
    | some x => s.setWord (HSH_ENG.addr e) (withFields 0 [(HSH_ENG.ROLE e, x.1), (HSH_ENG.SLOT e, x.2.1), (HSH_ENG.PEN e, x.2.2.1),
        (HSH_ENG.UPSTREAM e, x.2.2.2)])
  let s := ((s.withHs {}).withTtOp 0)
  s.each (List.range 15) fun n s =>
    let e := (s.posOf n).bind fun x => s.busEngine x.1 x.2.1.hub
    let far := (s.posOf n).any fun (x : Nat × Pos × Nat) => decide (x.2.2 ≠ s.member)
    let bc := if [1, 5].contains (s.typ n) && s.stallFlag n 2 then 2 else 0
    (s.setWord (HSH_PORT.addr n) (withFields 0 [(HSH_PORT.ENGINE n, e.getD 0), (HSH_PORT.REMOTE n, b2n far), (HSH_PORT.BC n, bc)])).ttReset n

/-- Stall positions whose USB 2.0 path is refused (R129), as their members, slots and the two ends of the link wanted. -/
def Plan.refused (p : Plan) : List (Nat × Nat × Nat) :=
  p.bySlot.flatMap fun r => r.positions.filterMap fun q =>
    let e := r.engineOf q
    if q.member = e || (p.relays q.member).any (fun x => x.1 = r.slot ∧ x.2.1 = q.hub) then none else some (q.member, r.slot, e)

/-- Carries of this chip's links (R129). -/
def State.setCarries (s : State) : State :=
  let cs := s.plan.carries
  let mine (u : CarryUse) : List Nat := (s.linkOfEntry u.1).toList
  let s := s.each [0, 1, 2, 3] fun k s =>
    match s.entryOf k with
    | none => s.setWord (HSH_CARRY.addr k) (resetWord (HSH_CARRY.addr k))
    | some (e, i) =>
      let use := cs.find? fun u => u.1 = i
      let engineHere (u : CarryUse) : Bool := (s.ownHubs.any fun h => h.1.slot = u.2.1 && (h.2 = 0xF || u.2.2 = 0))
      let transit := use.any fun u => !engineHere u && (cs.filter fun v => v.2 = u.2 && !(mine v).isEmpty).length ≥ 2
      let other := if e.memberA = s.member then e.memberB else e.memberA
      let conflict := s.plan.refused.any fun x => e.carry = x.2.1
        && ((x.1 = s.member && x.2.2 = other) || (x.1 = other && x.2.2 = s.member))
      s.setWord (HSH_CARRY.addr k) (withFields 0 [(HSH_CARRY.SLOT k, if e.carry = 0xFF then 0 else e.carry),
        (HSH_CARRY.BUS k, match use with | none => 0 | some u => if u.2.2 = 0 then 1 else 2),
        (HSH_CARRY.PEN k, match use with | none => 0xF | some u => if u.2.2 = 0 then 0xF else u.2.2 - 1),
        (HSH_CARRY.CONFLICT k, b2n conflict), (HSH_CARRY.TRANSIT k, b2n transit)])
  s.when (s.plan.refused.any fun x => x.1 = s.member) fun s => s.hw HSH_EVT.CARRY_CONFLICT

/-! ## Paddocks -/

/-- The mirror of every position this chip answers for (R154, R155). -/
def State.setMirror (s : State) : State :=
  let pos (h : PaddockR × Nat) (e : PortE × Nat) : MirPos :=
    let hub := if h.2 = 0xF then 0 else h.2 + 1
    let x : Nat × Nat := match e.1.kind with
      | 1 => (stallRef e.1.ref).getD (8, 0)
      | 2 => ((h.1.pens.getD e.1.ref default).engine, e.1.ref)
      | _ => (s.member, 0)
    let via := if e.1.kind = 1 || e.1.kind = 2 then s.viaOf h.1 hub x.1 (e.1.kind = 2) else 9
    { slot := h.1.slot, hub := hub, port := e.2 + 1, kind := e.1.kind, member := x.1, stall := x.2,
      st := { ss := 0x80 }, reach := decide (x.1 = s.member), via := via }
  let own := s.ownHubs.flatMap fun h => ((h.1.hubPorts h.2).zipIdx).map (pos h)
  -- pens of this chip's paddocks that another member answers for: their stalls' link states are mirrored here too (R121)
  let far := (s.plan.bySlot.filter fun r => r.upMember = s.member).flatMap fun r => (List.range r.pens.length).flatMap fun k =>
    if (r.pens.getD k default).engine = s.member then []
    else ((r.hubPorts k).zipIdx).map fun e => { pos (r, k) e with via := 9, obs := true }
  let l := own ++ far
  ((((s.withMirror l).withPort (Vector.replicate 15 { ss := 0x80 })).withHubWaits []).withHandoff [])

/-- UPP_PADDOCK of both upstream ports, and their tack rooms (R38, R153, R165). -/
def State.setPaddocks (s : State) : State :=
  let s := ((s.withTack (Vector.replicate 2 {})).withDp (Vector.replicate 2 {}))
  s.each [0, 1] fun u s =>
    let s := s.setWord (TKR_FUNC.addr u) 0
    match (s.slotOf u).bind s.plan.paddock? with
    | none => s.setWord (UPP_PADDOCK.addr u) 0
    | some r =>
      let tack := (((r.port.take r.rootPorts).findIdx? fun e => e.kind = 3).map (· + 1)).getD 0
      s.setWord (UPP_PADDOCK.addr u) (withFields 0 [(UPP_PADDOCK.SLOT u, r.slot), (UPP_PADDOCK.BOUND u, 1), (UPP_PADDOCK.STATE u, 1),
        (UPP_PADDOCK.ROOT_PORTS u, r.rootPorts), (UPP_PADDOCK.PENS u, r.penCount), (UPP_PADDOCK.TACK_PORT u, tack)])

/-- Queues no host's tack room owns any more: their staged packets stay in the queues (R318). -/
def State.freeQueues (s : State) : State :=
  s.each (List.range 4) fun q s => (s.p (OBS_Q_CTRL.OWNER q) 0).unstage q

/-- Is a slot bound to the same upstream port by two plans (R85)? -/
def samePort (a b : Plan) (y : Nat) : Bool :=
  (b.paddock? y).any fun r => (a.paddock? y).any fun q => q.upMember = r.upMember && q.upPort = r.upPort

/-- A yard whose slot keeps its upstream port over an activation runs on until its next reference; every other host yard is
UNBOUND (R79, R85). -/
def State.setYards (s : State) (old : Plan) : State :=
  s.each (List.range 4) fun y s =>
    if samePort old s.plan y then s.yardMod y fun v => { v with fresh := true }
    else ((s.withYards (vset s.yards y {}))).setWord (YRD_STATUS.addr y) (resetWord (YRD_STATUS.addr y))

/-- The predictor starts without history, and every pattern tracker is idle (R93, R97). -/
def State.setPredictor (s : State) : State :=
  let s := s.each (List.range 12) fun d s => s.setWord (TML_PRED.addr d) (resetWord (TML_PRED.addr d))
  ((s.each (List.range 15) (fun n s => s.patIdle n)).withPred (Vector.replicate 12 {}))

/-- Does the port of an ingress queue carry SS traffic under the plan (R110)? -/
def State.carriesSs (s : State) (q : Nat) : Bool :=
  if q < 15 then s.typ q ≠ 0 && ((s.stallE q).map (·.ssMode)).getD 0 ≠ 0
  else if q < 17 then ((s.slotOf (q - 15)).bind s.plan.paddock?).any fun r => r.ss
  else if q < 21 then (s.entryOf (q - 17)).isSome
  else true

/-- The reserves that remain under the plan, in cells. -/
def State.reserves (s : State) : Nat :=
  (((List.range 22).filter fun q => s.carriesSs q).map fun q => s.g (PBF_RESV.RESERVE q)).sum

/-- The shared pool (R110). Every cell is free: nothing is in flight during activation. -/
def State.setPool (s : State) : State :=
  let bad := s.reserves > 61440
  let s := s.when bad fun s =>
    (s.each (List.range 22) fun q s => s.setWord (PBF_RESV.addr q) (resetWord (PBF_RESV.addr q))).hw PBF_EVT.RESV_ERR
  let size := 65536 - s.reserves
  let s := s.fields [(PBF_SHARED.SIZE, size), (PBF_SHARED_FREE.FREE, size), (PBF_STATUS.FREE, 65536), (PBF_STATUS.BANK_LOW, 0)]
  let s := s.each (List.range 8) fun b s => s.p (PBF_BANK_FREE.FREE b) 8192
  s.each (List.range 22) fun q s => s.p (PBF_USED.USED q) 0

/-- Blocks that Dwezel enables at activation. -/
def State.enableBlocks (s : State) : State :=
  (s.when (!s.on TLM_CTRL.ENABLE) fun s => s.restartBlocks).fields [(SSH_CTRL.ENABLE, 1), (PBF_CTRL.ENABLE, 1), (HSH_CTRL.ENABLE, 1), (TTA_CTRL.ENABLE, 1), (GLK_CTRL.ENABLE, 1),
    (DRV_CTRL.ENABLE, 1), (TCP_CTRL.ENABLE, 1), (PPW_CTRL.ENABLE, 1), (TLM_CTRL.ENABLE, 1), (BUD_CTRL.ENABLE, 1),
    (TKR_CTRL.ENABLE, 1), (TML_CTRL.ENABLE, 1)]

/-- REGPRELOAD (R54): Dwezel's writes, in file order. The register is what it reads as; finding it has none of a read's own
effects. -/
def State.preload (s : State) : State :=
  (s.plan.preload.filter fun e => maskHas e.mask s.member).foldl
    (fun s e =>
      let old : Word := match rowOf e.addr with
        | some r => s.liveWord 1 r e.addr
        | none => 0
      s.writeReg 1 e.addr ((old &&& ~~~(w32 e.bits)) ||| (w32 e.value &&& w32 e.bits))) s

/-- Dwezel writes the descriptors of every logical hub and tack room function of the chip into the descriptor store (R290); their
layout in it is free (log entry 174). -/
def State.storeDescs (s : State) : State :=
  let reqs : List DescReq := [.device, .config, .bos, .hub, .string 0, .string 1, .string 2, .string 3]
  let hubs := s.ownHubs.flatMap fun h => (if h.1.ss then [false, true] else [false]).flatMap fun ss => reqs.filterMap fun d =>
    s.hubAnswer h.1.slot (if h.2 = 0xF then 0 else h.2 + 1) ss false d
  let funcs := [0, 1].flatMap fun u => match (s.slotOf u).bind s.tackPos with
    | some q => reqs.filterMap fun d => s.tackAnswer q.slot false false d
    | none => []
  let l := (hubs ++ funcs).flatten
  s.epStore ((List.range (epSize - 0x1220)).map fun i => Config.descByte l i)

/-- Activation of plan p from a source of PLN_STATUS.SOURCE (R65): every section takes effect, REGPRELOAD last but for R110. -/
def State.applyPlan (s : State) (p : Plan) (src : Nat) : State :=
  let old := s.plan
  let s := (((s.withPlan p).withBoot { s.boot with planned := true })).takeNumber.planRegs src
  let s := ((s.withHolders ((p.stalls.filter fun (e : StallE) => e.typ ≠ 0).map fun (e : StallE) => Holder.mk e.member e.stall e.owner)).withTt (Vector.replicate 15 {}))
  let s := s.setStalls.setPower.setDomains.setFaults.setMailboxes.setGpios.setSeed
  let s := s.setPaddocks.setContexts.setEngines.setCarries.setMirror.freeQueues
  let s := (s.withGlk (Vector.replicate 4 {})).each [0, 1, 2, 3] fun k s => s.p (GLK_LINK.ATTEMPTS k) 0
  (s.setYards old).setPredictor.loadTimeline.enableBlocks.preload.refTimeline.setPool.storeDescs

/-! ## PLAN and SERVICE -/

/-- PLAN is entered (R23, R76): every stall's VBUS off, every upstream port disconnected, links down to form the barn anew. -/
def State.enterPlan (s : State) (cause : Nat) : State := s.safeOutputs.setMode 2 cause

/-- A barn of one has formed, and leads itself (R354); otherwise the links of the plan train (R183). -/
def State.beginBarn (s : State) : State :=
  if !s.fab.numbered then s
  else if s.plan.members ≤ 1 then
    let s := ((s.fabMod fun f => { f with members := [s.ownAd] }).setLead s.member true).p DRV_BARN.FORMED 1
    s.p DRV_BARN.PRESENT (2 ^ s.member)
  else
    let s := s.p DRV_BARN.PRESENT (2 ^ s.member)
    if s.domOn dFAB then (s.setStep 2).trainLinks.maybeFlood else s.setStep 1

/-- The Type-C ports of SERVICE take their roles (R199); those attached keep theirs, under the limits of SERVICE (R21, R230). -/
def State.takeRoles (s : State) : State :=
  s.each (16 :: (List.range 15).filter fun n => s.hasCC n) fun n s => if (s.ch n).attached then s.setLimit n else s.toUnattached n

/-- SERVICE is entered (R353, R354, R199): UP0 recovers first when a partner already supplies VBUS; every port takes its role,
and powers that are asked for ramp. -/
def State.enterService (s : State) (cause : Nat) : State :=
  let s := s.setMode 3 cause
  let s := (if (s.ch 15).vbusLow then s.toUnattached 15 else s.errorRecovery 15).takeRoles
  (s.each (List.range 15) fun n s => s.tryRamp n).beginBarn

end Sys2Proof.Machine
end

