-- ==== Sys2Proof/Machine/Slots.lean ====
section
/-!
DEFINITION. OTP, uploads and commits as the plan loader handles them (R66 to R78 of spec/03_yard_plan_life.md).
-/
namespace Sys2Proof.Machine

/-- OTP after one write (R67 to R69): a fuse blown, or the next free word programmed where the value exceeds the floor. -/
def Otp.put (o : Otp) : OtpWrite → Otp
  | .revoke k => { o with revoked := vset o.revoked k true }
  | .floor b => if o.floor < b ∧ o.words.length < 64 then { o with words := o.words ++ [b] } else o

/-- OTP as it will be once the writes still to be made are made (R69). -/
def State.otpDue (s : State) : Otp := s.pln.otp.foldl Otp.put s.otp

/-- Hash of an OTP key slot that is programmed and not revoked (R68). -/
def Otp.keyHash (o : Otp) (k : Nat) : Option (List Byte) := if vat o.revoked k then none else vat o.keys k

/-- A plan file checked under R28 against this chip's OTP. -/
def State.check (s : State) (d : List Byte) : Chk Plan := checkPlan s.otp.floor s.otp.keyHash d

/-- The built-in plan of this part (R56). -/
def State.builtin (s : State) : Plan := builtinPlan (BitVec.ofNat 64 s.otp.uid)

/-- The target slot of a commit (R74). -/
def State.targetSlot (s : State) : Nat :=
  let src := s.g PLN_STATUS.SOURCE
  if src = 2 then 1 else if src = 3 then 0
  else if !(s.slotF 0).valid then 0
  else if !(s.slotF 1).valid then 1
  else if pageSeq (s.slotF 1).page < pageSeq (s.slotF 0).page then 1 else 0

/-- SEQ of the next commit (R74): one more than the highest valid SEQ, also where that leaves the range of R59; the field holds
its low 32 bits (DESIGN CHOICE, log entry 135). -/
def State.nextSeq (s : State) : Nat :=
  ((List.range 2).filter fun k => (s.slotF k).valid).foldl (fun m k => max m (pageSeq (s.slotF k).page)) 0 + 1

/-- Change the plan loader. -/
def State.plnMod (s : State) (f : PlnS → PlnS) : State := (s.withPln (f s.pln))

/-- The upload is discarded (R73). -/
def State.discardUpload (s : State) : State :=
  let s := match s.pln.bulk with
    | some b => s.answer b.c b.seq 0 b.sess [replyWord b.word0 3] true
    | none => s
  (s.plnMod fun p => { p with len := 0, data := [], bulk := none, committed := false }).fields [(PLN_STATUS.UPLOAD, 0), (PLN_STATUS.OWNER, 0)]

/-- The PLAN_ID of a plan file, 0 for one too short to hold it. -/
def fileId (d : List Byte) : Nat := if d.length < 16 then 0 else u32 d 12

/-- The PLAN record (R322): validation code and source, then PLAN_ID. DESIGN CHOICE (assumption 63): a rejection's are those of
the plan rejected. -/
def State.planRecord (s : State) (code src id : Nat) : State := s.record 0 0x05 4 [code + src * 2^16, id]

/-- A plan is rejected with a code (R60, R61, R65, R322, R398). -/
def State.reject (s : State) (code src id : Nat) : State :=
  ((s.p PLN_STATUS.LAST_ERR code).planRecord code src id).raise 98

/-- A plan is activated (R65, R322). -/
def State.activatePlan (s : State) (p : Plan) (src : Nat) : State := (s.applyPlan p src).planRecord 0 src p.planId

/-- The slot a running commit writes, as an interrupted flash leaves it (R78): `handed` says that the transfer of the command
in progress had ended, and the flash completes it. -/
def State.cutCommit (s : State) (handed : Bool) : SlotF :=
  let x := s.slotF s.pln.target
  match s.pln.commit with
  | 0 | 1 => x
  | 2 => if handed then {} else x
  | 6 => if handed then { x with page := commitPage s.pln.seq s.pln.data } else { x with page := [] }
  | _ => {}

/-- A hayloft entry being written, when the flash is interrupted (R344): valid only where the header page had been handed
over. -/
def State.cutDump (s : State) (handed : Bool) : Vector DumpEntry 2 :=
  if s.flt.writing = 0 then s.flt.flash
  else vset s.flt.flash (s.flt.writing - 1)
    (if handed then { dump := s.flt.ram, unread := (s.flt.ram.map (·.severity)) = some 3 } else {})

end Sys2Proof.Machine
end

