-- ==== Sys2Proof/Machine/Boot.lean ====
section
/-!
DEFINITION. Start-up, the three chip-wide resets and the mode transitions that are no reaction (R23, R61 to R65, R219, R348 to
R363 of spec/16_start_up_modes.md).
-/
namespace Sys2Proof.Machine

/-- Change what start-up holds. -/
def State.bootMod (s : State) (f : BootS → BootS) : State := (s.withBoot (f s.boot))

/-- The step of R351 in progress, while the chip runs in BOOT. -/
def State.bootAt (s : State) (n : Nat) : Bool := s.boot.held = 0 && s.mode = 0 && s.g TOP_MODE.BOOT_STEP = n

/-! ## Resets (R348, R361 to R363) -/

/-- Does a register keep its word over a reset (R363)? Ball levels do over every one; `grave` keeps what R332 and R336 say. -/
def keptAddr (por grave : Bool) (a : Nat) : Bool :=
  a = GPI_IN.addr || a = PPW_SEAT.addr
    || (!por && (a = OBS_CYCLE_LO.addr || a = OBS_CYCLE_HI.addr || a = TOP_STRAP.addr || a = FLT_DUMP.addr))
    || (grave && (a = FLT_STATUS.addr || a = FLT_PINS.addr || (FLT_STICKY.addr 0 ≤ a && a ≤ FLT_STICKY.addr 3)
      || (FLT_QUAL.addr 0 ≤ a && a ≤ FLT_QUAL.addr 127)))

/-- Yard L from 0:0 on the keeper, and COARSE (R79, R363). -/
def State.yardStart (s : State) : State := s.fields [(YRD_STATUS.STATE 4, 3), (YRD_STATUS.COARSE 4, 1)]

/-- UP0 feeds the chip, and a RESET_N or chip reset leaves its sink path closed (R361). -/
def State.keepsSink (s : State) : Bool :=
  s.on TOP_STRAP.LIFE_SUPPLY && (s.mode = 0 || s.mode = 1) && s.on (PPW_STATUS.SINK 15)

/-- The state whose fields start afresh, but for what stands on the chip's balls, in its OTP and flash and in the dump,
and for the registers a reset keeps (R363). -/
def State.cleared (s : State) (por grave : Bool) : State :=
  let f := s.flt
  { State.reset with
    regs := s.regs.filter fun e => keptAddr por grave e.1
    cycle := s.cycle, pending := s.pending, outs := s.outs
    otp := s.otp, pln := { slot := s.pln.slot }
    tlm := if por then Vector.replicate 17 {} else s.tlm.map fun x => { energy := x.energy }
    chan := s.chan.map fun c => { vbusLow := c.vbusLow, seatLow := c.seatLow }
    bud := { vinLow := s.bud.vinLow, acFailLow := s.bud.acFailLow, iinHigh := s.bud.iinHigh, vinUv := s.bud.vinUv }
    flt := { flash := f.flash, ram := if por then none else f.ram, inFlash := !por && f.inFlash,
             mode := if grave then f.mode else 0, time := if grave then f.time else 0, dumpDue := if grave then f.dumpDue else [] }
    boot := { held := 0, starter := s.boot.starter, starterFlag := s.boot.starterFlag, was := s.boot.was } }

/-- The machine after a chip-wide reset (R363), its outputs safe already. UP0 presents its clamp, and TCP_PORT[15].STATE reads
DEAD_BATTERY, where the Reset column has 0 (DESIGN CHOICE, log entry 156). -/
def State.wiped (s : State) (por : Bool) : State :=
  let grave := !por && s.on FLT_STATUS.GRAVE
  -- what the assertion of this POR has released still shows at its end (R288)
  let locked := ((List.range 16).any fun i => s.g (MBX_LOCK.OWNER i) ≠ 0) || (s.boot.held = 1 && s.on MBX_ERR.FORCED)
  let t := (((s.cleared por grave).p PPW_SEAT.SEATED 0).yardStart).p (TCP_PORT.STATE 15) 8
  let t := t.when (!por) fun t => t.each [0, 1, 2, 3] fun q t => t.p (OBS_Q_LOST.LOST q) (b2n (vat s.obs q).writing.isSome)
  let t := t.when (!por) fun t => t.p FLT_STATUS.GRAVE (b2n grave)
  t.when locked fun t => t.hw MBX_ERR.FORCED

/-- DISCH of every channel in the source direction whose VBUS still stands (R240, R363). -/
def State.dischAll (s : State) : State :=
  s.each ((List.range 17).filter fun n => !(s.ch n).vbusLow && !s.on (PPW_STATUS.SINK n)) fun n s => s.p (PPW_STATUS.DISCH n) 1

/-- RESET_N or a chip reset acts as a CHIP reaction does, and resets what R363 names; the UP0 sink path may stay closed. -/
def State.chipWide (s : State) : State :=
  let keep := s.keepsSink
  let chan := s.ch 15
  let word := s.word (PPW_STATUS.addr 15)
  let was := s.mode
  let s := (s.safeOutputs.wiped false).bootMod fun b => { b with was := was }
  let s := s.when keep fun s => ((((s.withChan (vset s.chan 15 chan))).setWord (PPW_STATUS.addr 15) word).setEfuse 15).setLimit 15
  s.dischAll

/-- The end of a RESET_N or chip reset: the cause, the MODE record, and BOOT; with GRAVE latched, SAFE again (R332). -/
def State.afterReset (s : State) (cause : Fld) : State :=
  let s := ((s.setWord TOP_RESET_CAUSE.addr 0).hw cause).p TOP_MODE.BOOT_STEP 1
  let s := s.when (s.boot.was ≠ 0) fun s => s.record 0 0x04 4 [s.boot.was + 0xFF * 2^8]
  s.when (s.on FLT_STATUS.GRAVE) fun s =>
    let c := s.g FLT_STATUS.CAUSE
    (((s.hw TOP_RESET_CAUSE.GRAVE_KEPT).p FLT_STATUS.SAFE 1).p TOP_MODE.SAFE_CAUSE c).setMode 4 c

/-- The straps as sampled (R350). -/
def State.strap (s : State) (src : Nat) (life : Bool) (i2c : Nat) (maker : Bool) : State :=
  s.fields [(TOP_STRAP.BOOTSRC, src), (TOP_STRAP.LIFE_EN, b2n life), (TOP_STRAP.I2CADDR, i2c), (TOP_STRAP.MAKER_EN, b2n maker)]

/-- POR_ASSERT (R348, R356, R358, R363, R78): every gate and DISCH off, every CC Open but the UP0 clamp; a flash command in
progress leaves its block or page invalid. -/
def execPorAssert (s : State) : Res :=
  .next (
    if s.boot.held = 1 then s
    else
      let slots := if s.pln.commit ≤ 1 then s.pln.slot else vset s.pln.slot s.pln.target {}
      let s := ((s.withPln { s.pln with slot := slots }).withFlt { s.flt with flash := s.cutDump false })
      (s.safeOutputs.wiped true).bootMod fun b => { b with held := 1, starter := 0, was := 0 })

/-- POR_RELEASE (R348, R350, R356): straps sampled; a starter that has closed the sink path hands the channel over. -/
def execPorRelease (bootsrc : Fin 4) (lifeEn : Bool) (i2c : Fin 8) (maker : Bool) (s : State) : Res :=
  .next (
    if s.boot.held ≠ 1 then s
    else
      let life := s.boot.starter = 2
      let s := ((s.wiped true).bootMod fun b => { b with starter := 0, was := 0 }).strap bootsrc lifeEn i2c maker
      let s := ((s.setWord TOP_RESET_CAUSE.addr 0).hw TOP_RESET_CAUSE.POR).p TOP_MODE.BOOT_STEP 1
      let s := s.when life fun s =>
        let s := ((s.p TOP_STRAP.LIFE_SUPPLY 1).hw TOP_RESET_CAUSE.LIFE_START).setEfuse 15 |>.setLimit 15
        let s := s.chMod 15 fun c => { c with gate := true, rampDone := true, vbusLow := false }
        ((s.p (PPW_STATUS.SINK 15) 1).p (PPW_STATUS.STATE 15) 3).assertPg 15
      s.dischAll)

/-- RESET_N_ASSERT (R361, R363, R78, R344): `handed` and `dumped` say that the transfer of the commit's command in progress, and
of a dump's header page, had ended. -/
def execResetNAssert (handed dumped : Bool) (s : State) : Res :=
  .next (
    if s.boot.held ≠ 0 then s
    else
      let slots := vset s.pln.slot s.pln.target (s.cutCommit handed)
      let s := ((s.withPln { s.pln with slot := slots }).withFlt { s.flt with flash := s.cutDump dumped })
      s.chipWide.bootMod fun b => { b with held := 2 })

/-- RESET_N_RELEASE (R350, R361, R332): high for 10 µs; straps sampled, and BOOT runs. -/
def execResetNRelease (bootsrc : Fin 4) (lifeEn : Bool) (i2c : Fin 8) (maker : Bool) (s : State) : Res :=
  .next (s.when (s.boot.held = 2) fun s =>
    ((s.bootMod fun b => { b with held := 0 }).strap bootsrc lifeEn i2c maker).yardStart.afterReset TOP_RESET_CAUSE.RESET_N)

/-- CHIP_RESET_BEGIN (R362): Dwezel begins the reset that was asked for, when no commit and no dump write runs. -/
def execChipResetBegin (s : State) : Res :=
  .next (s.when (s.boot.asked && s.boot.held = 0 && s.pln.commit = 0 && s.flt.writing = 0) fun s =>
    s.chipWide.afterReset TOP_RESET_CAUSE.CHIP_RESET)

/-! ## Steps of BOOT (R349, R351, R352) -/

/-- RAILS_IN_WINDOW (R349): step 1 ends. -/
def execRailsInWindow (s : State) : Res := .next (s.when (s.bootAt 1) fun s => s.p TOP_MODE.BOOT_STEP 2)

/-- RAIL_WINDOW_TIMEOUT (R349): the rails still outside their windows raise their sources. -/
def execRailWindowTimeout (core ser io : Bool) (s : State) : Res :=
  .next (s.when (s.bootAt 1) fun s =>
    ((s.when core fun s => s.raise 1).when ser fun s => s.raise 5).when io fun s => s.raise 6)

/-- BOOT goes on with a plan chosen at step 5, with its source. -/
def State.choosePlan (s : State) (p : Plan) (src : Nat) : State :=
  (s.plnMod fun x => { x with cand := some (p, src) }).p TOP_MODE.BOOT_STEP 6

/-- Step 5 begins (R61): by BOOTSRC the slots, an upload, the built-in plan, or nothing. -/
def State.enterFetch (s : State) : State :=
  let s := (s.p TOP_MODE.BOOT_STEP 5).plnMod fun x => { x with order := [], cand := none }
  match s.g TOP_STRAP.BOOTSRC with
  | 2 => s.choosePlan s.builtin 1
  | 3 => s.p PLN_STATUS.SOURCE 7
  | _ => s

/-- CRYSTAL_READY (R351, R339): step 2 ends; `ok` is the outcome of the self-check of step 3. -/
def execCrystalReady (ok : Bool) (s : State) : Res :=
  .next (s.when (s.bootAt 2) fun s =>
    let s := (s.p PDC_XTAL.RUNNING 1).yardsCrystal.p TOP_MODE.BOOT_STEP 3
    if !ok then s.raise 0
    else if s.on TOP_STRAP.MAKER_EN then s.p TOP_MODE.BOOT_STEP 4
    else s.enterFetch)

/-- CRYSTAL_NOT_READY (R352): started again twice; the third failure raises XTAL_LOST. -/
def execCrystalNotReady (s : State) : Res :=
  .next (s.when (s.bootAt 2) fun s =>
    if s.boot.tries < 2 then s.bootMod fun b => { b with tries := b.tries + 1 }
    else ((s.bootMod fun b => { b with tries := 0 }).withFlt { s.flt with xtalLost := true }).raise 7)

/-- XTAL_RESTART_TIMER (R352): every 1 s in SAFE; once the crystal is ready, Dwezel clears XTAL_LOST itself. -/
def execXtalRestartTimer (ready : Bool) (s : State) : Res :=
  .next (s.when (s.mode = 4 && s.boot.held = 0 && s.sticky 7 && ready) fun s =>
    ((s.p PDC_XTAL.RUNNING 1).yardsCrystal).clearSource 7 0xFF)

/-- MAKER_WINDOW_END (R351). -/
def execMakerWindowEnd (s : State) : Res :=
  .next (s.when (s.bootAt 4) fun s => (s.bootMod fun b => { b with makerEnd := s.cycle + 1 }).enterFetch)

/-- MAKER_KEYED_MESSAGE (R347, R351): one that arrives in the cycle in which the window ends is accepted. A dump being written is
given up, since MAKER writes none (R23). -/
def execMakerKeyedMessage (s : State) : Res :=
  .next (s.when (s.bootAt 4 || (s.boot.held = 0 && s.mode = 0 && s.boot.makerEnd = s.cycle + 1)) fun s =>
    let s := s.when (s.flt.writing ≠ 0) fun s =>
      ((s.withFlt { s.flt with flash := s.cutDump false, writing := 0 }).p FLT_DUMP.FLASH 0).hw FLT_DUMP.ABANDONED
    s.setMode 5 0xFF)

/-- Step 5 goes on to the next slot, or to the built-in plan (R61). -/
def State.nextSlot (s : State) : State :=
  if s.pln.order.isEmpty then s.choosePlan s.builtin 1 else s.p TOP_MODE.BOOT_STEP 5

/-- FLASH_BUSY_POLL_END (R60 to R63): `ok` when the flash is idle and answers SFDP, and `four` when its SFDP offers 4-byte
addressing, which is then chosen; otherwise both slots are invalid. -/
def execFlashBusyPollEnd (ok four : Bool) (s : State) : Res :=
  .next (s.when (s.bootAt 5 && s.g TOP_STRAP.BOOTSRC = 0 && s.pln.order.isEmpty) fun s =>
    if !ok then s.choosePlan s.builtin 1
    else
      let seq (k : Nat) : Nat := pageSeq (s.slotF k).page
      let good := [0, 1].filter fun k => pageOk (s.slotF k).page
      let l := if good = [0, 1] && seq 0 < seq 1 then [1, 0] else good
      (s.each good fun k s => s.p (PLN_SLOT_SEQ.SEQ k) (seq k)).plnMod (fun x => { x with order := l, fourByte := four }) |>.nextSlot)

/-- SLOT_VERIFY_DONE (R60, R61, R64): the slot tried is chosen, or the loader passes on; only a wrong body hash and a failure of
R28 carry a code. FALLBACK is set when the slot tried first is not loaded; of two pages with equal SEQ that is slot A's (DESIGN
CHOICE, log entry 137). -/
def execSlotVerifyDone (s : State) : Res :=
  .next (s.when (s.bootAt 5) fun s =>
    match s.pln.order with
    | [] => s
    | k :: t =>
      let x := s.slotF k
      let s := s.plnMod fun p => { p with order := t }
      let pass (s : State) : State := (s.p PLN_STATUS.FALLBACK 1).nextSlot
      if !x.headerOk then pass s
      else if !bodyOk x.plan then pass (s.reject 8 (2 + k) (fileId x.plan))
      else match s.check x.plan with
        | .ok p => s.choosePlan p (2 + k)
        | .error c => pass (s.reject c (2 + k) (fileId x.plan)))

/-- OTP writes a PLAN_ACTIVATE asks for (R67 to R69). -/
def State.otpWrites (s : State) (a : ActReq) : List OtpWrite :=
  ((List.range 4).filter fun k => bitOf a.revoke k && !vat s.otpDue.revoked k).map OtpWrite.revoke
    ++ (if a.raiseFloor && decide (s.otpDue.floor < a.plan.build) then [OtpWrite.floor a.plan.build] else [])

/-- The activation of PLAN mode ends (R65, R69, R73, R76): the plan asked for, or the running one again. One that fails discards
its upload too, also where no plan ran before (DESIGN CHOICE, log entry 136). -/
def State.endPlan (s : State) (same : Bool) : State :=
  match s.pln.act with
  | some a =>
    let s := s.plnMod fun x => { x with act := none }
    if same then
      let s := (s.plnMod fun x => { x with otp := x.otp ++ s.otpWrites a }).activatePlan a.plan a.source
      s.discardUpload.enterService 0xFF
    else
      let s := (s.reject 8 a.source a.plan.planId).discardUpload
      if s.boot.planned then (s.applyPlan s.plan (s.g PLN_STATUS.SOURCE)).enterService 0xFF
      else (s.setMode 0 0xFF).enterFetch
  | none =>
    let s := if same then s.activatePlan s.plan (s.g PLN_STATUS.SOURCE)
      else s.reject 8 (s.g PLN_STATUS.SOURCE) s.plan.planId
    s.discardUpload.enterService 0xFF

/-- PLAN_ACTIVATION_DONE (R65, R351, R359): `same` says that the second hash equals BODY_HASH. -/
def execPlanActivationDone (same : Bool) (s : State) : Res :=
  .next (
    if s.boot.held = 0 && s.mode = 2 then s.endPlan same
    else if s.bootAt 6 then
      match s.pln.cand with
      | none => s
      | some (p, src) =>
        let s := s.plnMod fun x => { x with cand := none }
        if !same && src ≠ 1 then ((s.p PLN_STATUS.FALLBACK 1).reject 8 src p.planId).nextSlot
        else (s.activatePlan p src).p TOP_MODE.BOOT_STEP 7
    else s)

/-- LIFELINE is entered (R357, R199): UP0 is sink, no link trains; a barn of one has formed. -/
def State.enterLifeline (s : State) : State :=
  let s := (s.setMode 1 0xFF).toUnattached 15
  let s := s.takeRoles.when (s.plan.members ≤ 1) fun s => s.beginBarn
  s.each (List.range 15) fun n s => s.tryRamp n

/-- BOOT_DOMAINS_READY (R351, R359, R360, R182): steps 7 and 8. `vinOk` says that VIN_SNS stands at or above VIN_MIN, `time` the
length of BOOT in 0.1 ms. -/
def execBootDomainsReady (vinOk : Bool) (time : Nat) (s : State) : Res :=
  .next (s.when (s.bootAt 7) fun s =>
    -- VIN that reaches VIN_MIN in this cycle counts (R360)
    let vinOk := vinOk || s.ahead fun c => match c with
      | .lifelineVinRestored => true
      | _ => false
    let s := s.p TOP_BOOT_TIME.BOOT (min 65535 time)
    let mine := if s.fab.numbered then some s.member else none
    let s := s.when (s.claimed s.plan ≠ mine) fun s => (s.p TOP_MODE.BOOT_STEP 6).applyPlan s.plan (s.g PLN_STATUS.SOURCE)
    let s := s.bootMod fun b => { b with gpi := s.word GPI_IN.addr }
    let s := s.p TOP_MODE.BOOT_STEP 8
    if !s.on TOP_STRAP.LIFE_SUPPLY then s.enterService 0xFF
    else if vinOk then s
    else if s.on TOP_STRAP.LIFE_EN && bitOf s.powerE.flags 1 then s.enterLifeline
    else s.p TOP_MODE.HELD 1)

/-- A barn has formed, or this chip's deadline has passed; a chip without a number never connects (R354). -/
def State.barnReady (s : State) : Bool := s.fab.numbered && (s.on DRV_BARN.FORMED || s.fab.deadline)

/-- UPSTREAM_DATA_CONNECT (R354): the attach is complete and the barn has formed or timed out; the port presents its pull-up and
its SS terminations. -/
def execUpstreamDataConnect (u : Fin 2) (s : State) : Res :=
  .next (
    let n := 15 + u.val
    let up := s.on (TCP_PORT.DATA_ON n) || (s.mode = 1 && u.val = 0 && s.isSink n)
    if !s.serving || !up || !s.barnReady || !s.on (UPP_PADDOCK.BOUND u) || !([1, 2].contains (s.g (UPP_PADDOCK.STATE u))) then s
    else
      let s := (s.p (UPP_PADDOCK.STATE u) 2).out (.line "DATA_CONNECT" [u])
      let ss := ((s.slotOf u).bind s.plan.paddock?).any fun r => r.ss
      s.when (ss && s.g (SSH_PORT.LINK n) = 4 && usbLanes (s.g (TCP_DP.PINS u)) ≠ 0) fun s =>
        ((s.p (STL_LANE.STATE (laneIx n false)) 0).p (STL_LANE.STATE (laneIx n true)) 0).ssLink n 5)

/-! ## LIFELINE and its starter (R219, R356, R358) -/

/-- STARTER_ARMED (R356): `lifeEn` is the level of the LIFE_EN strap. -/
def execStarterArmed (lifeEn : Bool) (s : State) : Res :=
  .next (s.when (lifeEn && s.boot.held = 1 && s.boot.starter = 0 && !s.boot.starterFlag) fun s =>
    s.bootMod fun b => { b with starter := 1 })

/-- STARTER_SINK_PATH_CLOSED (R356). -/
def execStarterSinkPathClosed (s : State) : Res :=
  .next (s.when (s.boot.held = 1 && s.boot.starter = 1) fun s => s.bootMod fun b => { b with starter := 2 })

/-- STARTER_HOLD_OFF_END (R358): 30 s after the POR that followed a reaction in LIFELINE. -/
def execStarterHoldOffEnd (s : State) : Res := .next (s.bootMod fun b => { b with starterFlag := false })

/-- Does the chip wait in BOOT, or serve in LIFELINE, on the UP0 sink path (R219, R359)? -/
def State.onSinkPath (s : State) : Bool :=
  s.boot.held = 0 && s.on TOP_STRAP.LIFE_SUPPLY && (s.mode = 1 || s.bootAt 8)

/-- LIFELINE_VIN_RESTORED (R219 step 1). -/
def execLifelineVinRestored (s : State) : Res :=
  .next (s.when s.onSinkPath fun s => s.bootMod fun b => { b with handover := true })

/-- LIFELINE_HANDOVER_DONE (R219 steps 2 and 3, R359): the UP0 sink FETs open, the chip enters SERVICE, and UP0 recovers. -/
def execLifelineHandoverDone (s : State) : Res :=
  .next (s.when (s.onSinkPath && s.boot.handover) fun s =>
    let s := s.bootMod fun b => { b with handover := false }
    let s := ((s.powerDown 15).p TOP_STRAP.LIFE_SUPPLY 0).chMod 15 fun c => { c with vbusLow := false }
    let s := s.when (s.g (UPP_PADDOCK.STATE 0) ≥ 2) fun s => s.disconnectHost 0
    s.enterService 0xFF)

/-- LIFELINE_EXIT_ABANDON (R219): VIN falls during steps 1 and 2. -/
def execLifelineExitAbandon (s : State) : Res := .next (s.bootMod fun b => { b with handover := false })

/-! ## Leaving SAFE (R331, R359) -/

/-- Does a sticky bit of severity CHIP or above stand? -/
def State.chipSticky (s : State) : Bool := (List.range 128).any fun i => s.sticky i && s.severity i ≥ 2

/-- SAFE_EXIT (R331, R359, R360): the plan that ran is activated again, or BOOT goes on from step 2. No activation starts while
a commit runs (R73). -/
def execSafeExit (s : State) : Res :=
  .next (
    if s.boot.held ≠ 0 || s.mode ≠ 4 || s.on FLT_STATUS.GRAVE || s.chipSticky || s.pln.commit ≠ 0 then s
    else
      let s := (s.setWord FLT_STATUS.addr (s.word FLT_STATUS.addr &&& 0x1000#32)).p TOP_MODE.SAFE_CAUSE 0xFF
      let s := (s.when s.pln.act.isSome fun s => s.discardUpload).plnMod fun x => { x with act := none }
      if s.boot.planned then s.enterPlan 0xFF
      else (s.setMode 0 0xFF).p TOP_MODE.BOOT_STEP 2)

end Sys2Proof.Machine
end

