-- ==== Sys2Proof/Machine/Domain.lean ====
section
/-!
DEFINITION. The power domain controller's own steps (R257 to R269, R400 of spec/11_power_domains.md): entries, exits, failures,
the crystal, and holds that end.
-/
namespace Sys2Proof.Machine

/-- ACCESS_HOLD_END (R269, R400). -/
def execAccessHoldEnd (m : Fin 16) (d : Fin 12) (s : State) : Res :=
  .next (s.withPdc { s.pdc with accHolds := s.pdc.accHolds.filter fun h => ¬(h.1 = m.val ∧ h.2 = d.val) })

/-- The entry of domain d completes (R257, R261): RET keeps everything, OFF loses it. -/
def State.entryDone (s : State) (d : Nat) : State :=
  let off := s.g (PDC_DOM.TARGET d) = 2
  let s := (s.domStep d .idle).p (PDC_DOM.STATE d) (if off then 2 else 1)
  ((s.when off fun s => s.loseDomain d).domRecord d).restJudge d

/-- DOMAIN_ENTRY_STEP_DONE (R261): the clocks have stopped, the outputs are held, or the rail or switch has moved. -/
def execDomainEntryStepDone (d : Fin 12) (s : State) : Res :=
  .next (match (s.dom d).step with
    | .clockStop => s.domStep d .isolate
    | .isolate => s.domMod d fun e => { e with step := .a3 }
    | .a3 | .move => s.entryDone d
    | _ => s)

/-- SWITCH_OPEN_TIMEOUT (R262): the domain is brought back to ON by the steps of an exit from OFF, its contents lost. -/
def execSwitchOpenTimeout (d : Fin 12) (s : State) : Res :=
  .next (s.when ((s.dom d).step = .move && s.g (PDC_DOM.TARGET d) = 2) fun s =>
    -- the flags of the time before OFF_FAIL was last cleared no longer count
    let s := s.when (!s.on PDC_STICKY.OFF_FAIL) fun s =>
      s.each (List.range 12) fun k s => s.domMod k fun e => { e with offFailed := false }
    let s := ((s.hw PDC_STICKY.OFF_FAIL).loseDomain d).fields [(PDC_DOM.STATE d, 2), (PDC_DOM.TARGET d, 0), (PDC_DOM.TRIES d, 0)]
    let s := s.domMod d fun e => { e with step := .closeSwitch, from_ := 2, recovering := true, offFailed := true, retOnly := false }
    s.raise 13 d)

/-- The domain is ON (R260, R263, R269): the wake sources' raises on it end, stalled accesses complete, what waited for it goes
on, and a wake for a RET vote alone is followed by RET. -/
def State.exitDone (s : State) (d : Nat) : State :=
  let q := s.dom d
  let s := s.wakesDone d
  let s := ((s.domMod d fun e => { e with step := .idle, recovering := false, retOnly := false }).p (PDC_DOM.STATE d) 0).p (PDC_DOM.TARGET d) 0
  let s := s.when (!q.recovering) fun s => (s.inc (PDC_DOM.WAKES d)).pmu 0x11 d
  let s := (s.domRecord d).runStalls.when (d = dMGT) fun s => s.scanInbound
  -- step 1 of R183 ends when FAB is ON
  let s := s.when (d = dFAB && s.fab.step = 1) fun s => (s.setStep 2).trainLinks.maybeFlood
  let s := s.when (d = dFAB) fun s => s.retryLinks
  let s := s.when (d = dPPA) fun s => s.each (List.range 17) fun n s => s.tryRamp n
  let s := s.when (d = dHSB || d = 5 || d = 6) fun s => s.each s.hs.upWant fun y s => s.wakeUp y
  s.when (q.retOnly && s.floor d = 1) fun s => s.beginEntry d 1

/-- The crystal is ready (R263 step X): every domain that waits for it goes on. -/
def State.crystalUp (s : State) : State :=
  ((s.p PDC_XTAL.RUNNING 1).yardsCrystal).each ((List.range 12).filter fun k => (s.dom k).step = .crystal) fun k s => s.exitStart k

/-- DOMAIN_EXIT_STEP_DONE (R263, R265): `late` when the acknowledgement came after its step's bound; `refused` the entries of the
restore list whose writes were. -/
def execDomainExitStepDone (d : Fin 12) (late : Bool) (refused : List Nat) (s : State) : Res :=
  .next (
    let slow (s : State) : State := s.when late fun s => s.hw PDC_STICKY.SLOW_WAKE
    match (s.dom d).step with
    | .crystal => slow s.crystalUp
    | .railUp => (slow s).domStep d .release
    | .closeSwitch => (slow s).domStep d .restore
    | .restore =>
      let bad := refused.any fun i => decide (i < (s.dom d).restore.length)
      let s := ((slow s).replay d refused).when bad fun s => (s.hw PDC_STICKY.RESTORE_ERR).raise 14 d
      s.domStep d (if d.val ≥ 5 then .pll else .release)
    | .pll => (slow s).domStep d .release
    | .release => (slow s).exitDone d
    | _ => s)

/-- An attempt of domain d has failed (R264): the next follows, or the domain is FAILED. -/
def State.exitFail (s : State) (d : Nat) : State :=
  let n := s.g (PDC_DOM.TRIES d) + 1
  let s := (s.p (PDC_DOM.TRIES d) n).when ((s.dom d).from_ = 2) fun s => s.keepRegs fun e => addrDom e.1 ≠ d
  if n ≤ s.g PDC_X_TIME.RETRIES then s.domStep d .retryWait
  else
    let s := s.when ((s.dom d).from_ ≠ 2) fun s => s.loseDomain d
    let s := ((s.domStep d .idle).p (PDC_DOM.STATE d) 3).hw PDC_STICKY.WAKE_FAIL
    (((s.domReach d false).domRecord d).raise 12 d).runStalls

/-- Is a step one of an exit that the PDC waits on? -/
def DomStep.exiting : DomStep → Bool
  | .crystal | .railUp | .closeSwitch | .restore | .pll | .release => true
  | _ => false

/-- DOMAIN_EXIT_TIMEOUT (R264): a crystal that fails step X fails the attempt of every domain that waits on it. -/
def execDomainExitTimeout (d : Fin 12) (s : State) : Res :=
  .next (
    let st := (s.dom d).step
    if st = .crystal then s.each ((List.range 12).filter fun k => (s.dom k).step = .crystal) fun k s => s.exitFail k
    else s.when st.exiting fun s => s.exitFail d)

/-- DOMAIN_EXIT_RETRY (R264). -/
def execDomainExitRetry (d : Fin 12) (s : State) : Res :=
  .next (s.when ((s.dom d).step = .retryWait) fun s => s.exitStart d)

/-- Does the earliest known event of any domain lie at least LEAD_MS ahead (R266)? -/
def State.farEvents (s : State) : Bool :=
  (List.range 12).all fun d => (s.nextEvent d).all fun t => decide (s.g PDC_XTAL.LEAD_MS * 200000 ≤ t)

/-- CRYSTAL_STOP (R266, R84): no vote above none, and no event near, for IDLE_MS; every yard coasts on the keeper. -/
def execCrystalStop (s : State) : Res :=
  .next (s.when (s.on PDC_XTAL.STOP_EN && s.on PDC_XTAL.RUNNING && ((List.range 12).all fun d => s.floor d = 0) && s.farEvents) fun s =>
    (((s.each [0, 1, 2, 3] fun y s => s.yardCoast y).p PDC_XTAL.RUNNING 0).inc PDC_XTAL.STOPS).yardsKeeper)

/-- CRYSTAL_RESTART (R266): LEAD_MS before the earliest known wake. -/
def execCrystalRestart (s : State) : Res :=
  .next (s.when (s.serving && !s.on PDC_XTAL.RUNNING && !s.farEvents) fun s => s.crystalUp)

/-- JTAG_TAP_LEAVE_TEST_LOGIC_RESET (R267): client 15 rises to ON on every domain. -/
def execJtagTapLeaveTestLogicReset (s : State) : Res :=
  .next (s.when (s.boot.held = 0) fun s => s.each ((List.range 12).drop 1) fun d s => (s.mark (.raised 15 d)).raiseVote 15 d 2)

end Sys2Proof.Machine
end

