-- ==== Sys2Proof/Machine/Timeline.lean ====
section
/-!
DEFINITION. The timeline's actions (R89 to R92 of spec/04_yard_clock.md).
-/
namespace Sys2Proof.Machine


/-- The timeline dispatches entry i of an action (R89, R92): the entry advances, and its action runs unless a domain it needs
has FAILED. Due contents that the window has changed run first, and what it has put in their place not in the same cycle
(R94). -/
def State.dispatch (s : State) (i action : Nat) (f : TmlE → State → State) : State :=
  let run (e : TmlE) (s : State) : State :=
    let failed := s.needFailed e
    let s := (s.mark .dispatched).pmu 0x14 i
    if failed then s else f e s
  let e := s.standing i
  if e.action = action && s.runnable e && s.firstOfTick i then
    if (s.oldEntry i).isSome then run e (s.withTmlOld (s.tmlOld.filter fun x => x.1 ≠ i))
    else if s.marks.contains (.edited i) then s
    else run e (s.advanceEntry i)
  else s

/-- The hold of DOMAIN_WAKE and TT_PREWAKE in ticks: ARG intervals, 0 means 1. -/
def TmlE.hold (e : TmlE) : Nat := max 1 e.arg * 25000

/-- DOMAIN_WAKE (R91). -/
def execDomainWake (i : Fin 256) (s : State) : Res :=
  .next (s.dispatch i 1 fun e s => s.raiseTimeline e.target e.yard (s.yticks e.yard + e.hold) 0)

/-- TLM_SAMPLE (R91, R322). -/
def execTlmSample (i : Fin 256) (s : State) : Res :=
  .next (s.dispatch i 2 fun e s => match portIx e.target with
    | some n => s.record 2 0x30 e.yard ((e.target + e.arg % 16 * 2^8) :: s.sampleWords n e.arg)
    | none => s)

/-- The keep-alive a port's sink contract requires (R91, R212). -/
def State.keepAlive (s : State) (n : Nat) : State :=
  let held := s.isSink n && s.g (TCP_PORT.CONTRACT n) ≥ 2
  if held && s.on (TCP_CONTRACT.EPR n) then s.pdSend n .eprKeepAlive
  else if held && s.g (TCP_CONTRACT.KIND n) = 1 then s.pdSend n .request [(s.tc n).lastRdo]
  else s.incSat TML_STATUS.IDLE_KA

/-- PD_KEEPALIVE (R91). -/
def execPdKeepalive (i : Fin 256) (s : State) : Res :=
  .next (s.dispatch i 3 fun e s => match portIx e.target with
    | some n => s.keepAlive n
    | none => s)

/-- DOORBELL (R91, R280). -/
def execDoorbell (i : Fin 256) (s : State) : Res := .next (s.dispatch i 4 fun e s => s.ring e.target 2 e.arg)

/-- A timeline action drives a GPIO of function OUT (R91, GPI_OUT): it stands against a write of the same cycle. -/
def State.driveGpio (s : State) (g : Nat) (on : Bool) : State :=
  if s.g (GPI_CFG.FUNCTION g) ≠ 1 then s.raise 17 g
  else
    (s.p (bitFld GPI_OUT.addr g) (b2n on)).markHw GPI_OUT.addr (w32 (2 ^ g))

/-- GPIO_SET (R91). -/
def execGpioSet (i : Fin 256) (s : State) : Res := .next (s.dispatch i 5 fun e s => s.driveGpio e.target true)

/-- GPIO_CLEAR (R91). -/
def execGpioClear (i : Fin 256) (s : State) : Res := .next (s.dispatch i 6 fun e s => s.driveGpio e.target false)

/-- FABRIC_HEARTBEAT (R91, R197): on a trained link. -/
def execFabricHeartbeat (i : Fin 256) (s : State) : Res :=
  .next (s.dispatch i 7 fun e s => s.when (s.glkTrained e.target) fun s => s.linkBale e.target "HEARTBEAT" [s.member, e.rep])

/-- BUDGET_REVIEW (R91, R255). -/
def execBudgetReview (i : Fin 256) (s : State) : Res := .next (s.dispatch i 8 fun _ s => s.review)

/-- TT_PREWAKE (R91). -/
def execTtPrewake (i : Fin 256) (s : State) : Res :=
  .next (s.dispatch i 9 fun e s =>
    let t := s.yticks e.yard + e.hold
    (s.raiseTimeline dHSB e.yard t 0).raiseTimeline (portDom e.target) e.yard t 0)

/-- TML_ENABLE (R89): a master sets TML_CTRL.ENABLE. -/
def execTmlEnable (m : Fin 16) (s : State) : Res :=
  .next (s.access m TML_CTRL.addr (some (withFields (s.word TML_CTRL.addr) [(TML_CTRL.ENABLE, 1)])))

end Sys2Proof.Machine
end

