-- ==== Sys2Proof/Machine/Message.lean ====
section
/-!
DEFINITION. What Dwezel does for each command of R304 but the PLAN group (R166, R192, R301 to R307, R336 of
spec/13_tack_room_messages.md). Each takes the request once its command, mode and permission have passed (R303).
-/
namespace Sys2Proof.Machine

/-! ## Result codes and arguments (R302, R303) -/

/-- BUSY of R302. -/
def rBUSY : Nat := 1
/-- DENIED of R302. -/
def rDENIED : Nat := 2
/-- BAD_ARG of R302. -/
def rBADARG : Nat := 3

/-- The port of this chip a port word names (R303). -/
def portArg (w : Nat) : Option Nat := if w = w % 8 + w / 256 % 256 * 256 then portIx (w / 256 % 256) else none

/-- A command for one port: BAD_ARG for a port word that names none (R303). -/
def State.onPort (s : State) (a : Ask) (f : Nat → State → State) : State :=
  match portArg (a.w 1) with
  | some n => f n s
  | none => s.reply a rBADARG

/-- A register as it reads, without a side effect. -/
def State.shownWord (s : State) (a : Nat) : Nat :=
  ((rowOf a).map fun r => (s.liveWord 1 r a).toNat).getD 0

/-! ## Status (R304) -/

/-- INFO. -/
def State.doInfo (s : State) (a : Ask) : State :=
  s.reply a 0 [s.shownWord TOP_ID.addr, s.otp.uid % 2^32, s.otp.uid / 2^32, Config.romVersion.toNat, s.plan.planId, s.plan.build,
    s.g DRV_BARN.MEMBER + s.g DRV_BARN.LEAD * 2^3 + s.g DRV_BARN.FORMED * 2^6]

/-- MODE_GET. -/
def State.doModeGet (s : State) (a : Ask) : State := s.reply a 0 [s.mode + s.g TOP_MODE.SAFE_CAUSE * 2^8]

/-- PORT_STATUS. -/
def State.doPortStatus (s : State) (a : Ask) : State :=
  s.onPort a fun n s =>
    let held := if n ≤ 14 then (s.holderOf n).map (· + 4) else none
    s.reply a 0 [s.shownWord (TCP_PORT.addr n), s.shownWord (PPW_STATUS.addr n), s.shownWord (SSH_PORT.addr n),
      if n ≤ 14 then s.shownWord (HSH_PORT.addr n) else 0, held.getD 0]

/-- PD_STATUS: the contract, the cable, the last RDO, and the last Status data block received. -/
def State.doPdStatus (s : State) (a : Ask) : State :=
  s.onPort a fun n s =>
    let st := (((s.tc n).info.find? fun x => x.1 = 2).map (·.2)).getD []
    s.reply a 0 ([s.shownWord (TCP_CONTRACT.addr n), s.shownWord (TCP_CABLE.addr n), (s.tc n).lastRdo]
      ++ (st ++ List.replicate 4 0).take 4)

/-- A signed number as a 32-bit word. -/
def signedWord (x : Int) : Nat := toField 32 x

/-- TLM_READ: the mean power registers where the averaging has one, voltage by current otherwise. -/
def State.doTlmRead (s : State) (a : Ask) : State :=
  s.onPort a fun n s =>
    let sel := a.w 2
    if sel > 3 then s.reply a rBADARG
    else
      let w := s.shownWord (match sel with
        | 0 => TLM_INST.addr n | 1 => TLM_AVG1MS.addr n | 2 => TLM_AVG100MS.addr n | _ => TLM_AVG1S.addr n)
      let v := w % 2^16
      let i := ofField 16 (w / 2^16)
      let p := match sel with
        | 1 => s.g (TLM_PWR.P_1MS n)
        | 3 => s.g (TLM_PWR.P_1S n)
        | _ => signedWord ((v : Int) * i / 10000)
      s.reply a 0 [v, signedWord i, p]

/-- ENERGY_READ: the running value; with CLEAR the accumulator clears at the next sample (R248). -/
def State.doEnergyRead (s : State) (a : Ask) : State :=
  s.onPort a fun n s =>
    if 1 < a.w 2 then s.reply a rBADARG
    else
      let e := s.energyShown n
      let t := s.now 4
      (s.when (a.w 2 = 1) fun s => s.w1s TLM_ECLR.CLEAR (2 ^ n)).reply a 0 [e % 2^32, e / 2^32 % 2^32, t % 2^32, t / 2^32]

/-- FABRIC_STATUS. -/
def State.doFabricStatus (s : State) (a : Ask) : State :=
  s.reply a 0 [s.shownWord DRV_BARN.addr,
    ([0, 1, 2, 3].map fun k => s.shownWord (GLK_LINK.addr k) % 256 * 256 ^ k).sum,
    s.shownWord DRV_REROUTE.addr, s.shownWord DRV_REBAL.addr]

/-- The sticky bits of sources 0 to 127. -/
def State.stickyWords (s : State) : List Nat := [0, 1, 2, 3].map fun k => (s.word (FLT_STICKY.addr k)).toNat

/-- FAULT_STATUS. -/
def State.doFaultStatus (s : State) (a : Ask) : State := s.reply a 0 (s.stickyWords ++ [s.g FLT_STATUS.GRAVE])

/-! ## Ports and power (R166, R305) -/

/-- PENDING for the hand-off begun last. -/
def State.pendHandoff (s : State) (a : Ask) : State := s.pendReply a (.handoff ((s.handoff.getLast?.map (·.id)).getD 0))

/-- PORT_ASSIGN (R166): the lead runs it. -/
def State.doPortAssign (s : State) (a : Ask) : State :=
  let dest := a.w 1 / 256
  match stallRef (a.w 1 % 256) with
  | none => s.reply a rBADARG
  | some x =>
    if 3 < dest ∨ !s.hasPos dest x then s.reply a rBADARG
    else if s.handing x then s.reply a rBUSY
    else (s.beginHandoff [⟨x.1, x.2, (s.slotHolding x).getD dest⟩] dest).pendHandoff a

/-- KVM_SET (R166). -/
def State.doKvmSet (s : State) (a : Ask) : State :=
  let dest := a.w 1
  if 3 < dest ∨ (s.plan.paddock? dest).isNone then s.reply a rBADARG
  else if (s.kvmStalls dest).any fun h => s.handing (h.member, h.stall) then s.reply a rBUSY
  else (s.beginHandoff (s.kvmStalls dest) dest).pendHandoff a

/-- PORT_POWER (R305): 0 releases, 1 holds off, 2 cycles. -/
def State.doPortPower (s : State) (a : Ask) : State :=
  s.onPort a fun n s =>
    let k := a.w 2
    if 2 < k then s.reply a rBADARG
    else
      let s := s.chMod n fun c => { c with holdOff := decide (k ≠ 0), cycling := decide (k = 2) }
      let s := if k = 0 then s.tryRamp n else s.switchOff n
      s.reply a 0 [s.shownWord (PPW_STATUS.addr n)]

/-- PD_POLICY (R206, R305). -/
def State.doPdPolicy (s : State) (a : Ask) : State :=
  s.onPort a fun n s =>
    let w := a.w 2
    if !s.hasCC n ∨ w / 4 % 2^14 ≠ 0 then s.reply a rBADARG
    else
      let cap := w / 2^16
      let s := s.tcMod n fun t =>
        { t with eprOk := !bitOf w 0, ppsOk := !bitOf w 1, capMw := if cap = 0 then none else some (cap * 500) }
      (s.resendCaps n).reply a 0

/-- May a set serve a port under the plan's checks (R55: 0xC00B to 0xC00D; R305)? -/
def State.setFits (s : State) (n : Nat) (x : PdoSet) : Bool :=
  let epr := if n ≤ 14 then s.stallFlag n 0 else bitOf s.powerE.flags (n - 15 + 2)
  !bitOf x.flags 0 && (x.epr = 0 || epr)
    && x.used.all fun w => decide (pdoMaxMa w ≤ (s.efuse n).ilim) && decide (pdoMaxMw w ≤ s.powerE.budget)

/-- SOURCE_CAPS_SET (R206, R305). -/
def State.doSourceCapsSet (s : State) (a : Ask) : State :=
  s.onPort a fun n s =>
    match s.plan.sets.find? fun x => x.id = a.w 2 with
    | none => s.reply a rBADARG
    | some x =>
      if !s.hasCC n ∨ 2^13 ≤ a.w 3 then s.reply a rBADARG
      else if !s.setFits n x then s.reply a rDENIED
      else ((s.tcMod n fun t => { t with capsSet := some (x.id, a.w 3) }).resendCaps n).reply a 0

/-- BUDGET_SET (R305): 5,000 mW up to the plan's BUDGET. -/
def State.doBudgetSet (s : State) (a : Ask) : State :=
  if a.w 1 < 5000 ∨ s.powerE.budget < a.w 1 then s.reply a rBADARG
  else
    let s := s.withBud { s.bud with budget := a.w 1 }
    (s.p BUD_STATUS.BUDGET (s.budgetNow / 100)).reply a 0 [s.budgetNow]

/-! ## Fabric, queues and counters -/

/-- FABRIC_RESEED (R192): seed 0 as R42 has it. -/
def State.doFabricReseed (s : State) (a : Ask) : State :=
  let x := a.w 1 + a.w 2 * 2^32
  let x := if x = 0 then leNat s.plan.bodyHash % 2^64 else x
  if s.msg.pend.any fun p => p.kind = .reseed then s.reply a rBUSY
  else (s.reseed x).pendReply a .reseed

/-- QUEUE_CONFIG (R320, R321). -/
def State.doQueueConfig (s : State) (a : Ask) : State :=
  let q := a.w 1
  if 3 < q ∨ 1000 < a.w 2 ∨ 11 < a.w 3 ∨ 1 < a.w 4 then s.reply a rBADARG
  else
    let s := (s.p (OBS_Q_CTRL.TIMEOUT_MS q) (a.w 2)).p (OBS_Q_CTRL.CHANNEL q) (a.w 3)
    (s.when (a.w 4 = 1) fun s => s.queueReset q).reply a 0

/-- PMU_CONFIG (R324, R325). -/
def State.doPmuConfig (s : State) (a : Ask) : State :=
  let i := a.w 1
  if 7 < i ∨ 0x16 < a.w 2 ∨ 3 < a.w 3 then s.reply a rBADARG
  else
    let s := ((s.pmuSelect i).p (OBS_PMU_EVT.EVENT i) (a.w 2)).p (OBS_PMU_EVT.ENABLE i) (a.w 3 % 2)
    (s.when (bitOf (a.w 3) 1) fun s => (s.pmuHold i).pmuSet i 0).reply a 0

/-! ## Faults (R305, R336, R345) -/

/-- FAULT_CLEAR (R305, R336): DENIED for a source at GRAVE, and for all while such a source is set. -/
def State.doFaultClear (s : State) (a : Ask) : State :=
  let src := a.w 1
  if 255 < a.w 2 then s.reply a rBADARG
  else if src = 0xFFFF then
    if (List.range 128).any fun i => s.sticky i && s.severity i = 3 then s.reply a rDENIED
    else
      let s := s.clearAll (a.w 2)
      s.reply a 0 s.stickyWords
  else if 127 < src ∨ !faultExists src then s.reply a rBADARG
  else if s.severity src = 3 then s.reply a rDENIED
  else
    let s := s.clearSource src (a.w 2)
    s.reply a 0 s.stickyWords

/-- A dump entry (R345): 0 the hayloft's RAM, 1 and 2 the flash. -/
def State.dumpEntry (s : State) (i : Nat) : List Byte :=
  ((if i = 0 then s.flt.ram else (vat s.flt.flash (i - 1)).dump).map (·.bytes)).getD []

/-- DUMP_READ (R344, R345): with BULK the bytes travel on EP2 of the party's tack room. -/
def State.doDumpRead (s : State) (a : Ask) : State :=
  let i := a.w 1
  let l := s.dumpEntry i
  let off := a.w 2
  let party := s.g (MBX_ASSIGN.PARTY a.c)
  let bulk := bitOf a.flags 4
  if 2 < i ∨ (l ≠ [] ∧ l.length ≤ off) ∨ (bulk ∧ (party < 2 ∨ 5 < party)) then s.reply a rBADARG
  else
    let part := ((l.drop off).take 32 ++ List.replicate 32 0).take 32
    let done := i ≠ 0 && decide (l.length ≤ off + 32)
    let s := s.when done fun s =>
      s.withFlt { s.flt with flash := vmod s.flt.flash (i - 1) fun e => { e with unread := false } }
    if bulk then ((s.epWrite (epBuf (s.upOf (party - 2)) 2).1 part).out (.usbData (party - 2) part)).reply a 0 [l.length, off]
    else s.reply a 0 ([l.length, off] ++ (leWords part).map (·.toNat))

/-! ## Sessions (R307, R309) -/

/-- A power of a number modulo the P-256 prime. -/
def powMod (b : Nat) : Nat → Nat → Nat
  | 0, _ => 1
  | fuel + 1, e => if e = 0 then 1 else
      let h := powMod b fuel (e / 2)
      if e % 2 = 1 then h * h % p256p * b % p256p else h * h % p256p

/-- Is x the abscissa of a point of P-256 (R307)? -/
def onAbscissa (x : Nat) : Bool :=
  let v := (x * x % p256p * x + (p256p - 3) * x + p256b) % p256p
  x < p256p && (v = 0 || powMod v 256 ((p256p - 1) / 2) = 1)

/-- A point in SEC1 compressed form: its prefix and 32 bytes, most significant first (R307). -/
def sec1 (x : Nat) (odd : Bool) : List Byte := BitVec.ofNat 8 (if odd then 3 else 2) :: (leBytes 32 x).reverse

/-- SESSION_OPEN (R307): on the party's own secure channel, with a key of KEYS. -/
def State.doSessionOpen (s : State) (a : Ask) : State :=
  let party := s.g (MBX_ASSIGN.PARTY a.c)
  let odd := a.w 2 = 3
  let x := ((List.range 8).map fun i => a.w (3 + i) * 2 ^ (32 * i)).sum
  if a.c < 8 then s.reply a rDENIED
  else if 7 < a.w 1 ∨ (a.w 2 ≠ 2 ∧ a.w 2 ≠ 3) ∨ !onAbscissa x then s.reply a rBADARG
  else match s.plan.keys.find? fun k => k.id = a.w 1 ∧ k.party = party with
    | none => s.reply a rDENIED
    | some k =>
      let dd := Config.ephemeral s.msg.opened
      let qd := Config.ecPoint dd
      let z1 := (Config.ecdh dd x odd).toList
      let z2 := (Config.ecdh dd k.x (k.y % 2 = 1)).toList
      let key := (Config.hmac z2 (z1 ++ [0x54, 0x41, 0x42, 0x56] ++ leBytes 1 k.id ++ sec1 x odd ++ sec1 qd.1 (qd.2 % 2 = 1)
        ++ leBytes 8 s.otp.uid)).toList
      let id := s.msg.opened
      let s := s.withMsg { s.msg with opened := id + 1 }
      let s := s.sessSet a.c (some { key := key, keyId := k.id, perms := k.perms, party := party, rx := 0, tx := 1, fails := 0, id := id })
      ({ a with sess := some id } : Ask) |> fun a =>
        s.reply a 0 ([k.id, if qd.2 % 2 = 1 then 3 else 2] ++ (List.range 8).map fun i => qd.1 / 2 ^ (32 * i) % 2^32)

/-- SESSION_CLOSE (R309): OK, then the session closes. -/
def State.doSessionClose (s : State) (a : Ask) : State := (s.reply a 0).closeSession a.c

/-! ## Registers and the timeline (R305) -/

/-- Words, control and doorbell registers of the secure channels (R278). -/
def secureAddr (a : Nat) : Bool :=
  (0x110400 ≤ a && a < 0x110600) || (0x110680 ≤ a && a < 0x1106C0 && a % 16 ≠ 12)

/-- A block that R54 excludes. -/
def excludedBlock (a : Nat) : Bool := [0, 1, 12, 13, 14, 15, 17, 19].contains (a / 0x10000)

/-- REG_PEEK (R305): as master 1; the reply follows once no read stalls (R269). A read of an empty queue gives 0 (log entry 176). -/
def State.doRegPeek (s : State) (a : Ask) : State :=
  let n := a.w 2
  let l := readsFrom (a.w 1) n
  if n < 1 ∨ 9 < n ∨ a.w 1 % 4 ≠ 0 then s.reply a rBADARG
  else if l.any fun x => secureAddr x.1 then s.reply a rDENIED
  else s.startXfer ⟨1, .peek a, l, []⟩

/-- REG_POKE (R305): the masked value, as master 1; the reply brings the register read again, once no access stalls (R269). A value
that the register does not take, such as a TML_E_TIME_LO with a tick of 25,000 or more, is dropped as a register write is, and the
answer is OK with the register's old word (DESIGN CHOICE, log entry 130). -/
def State.doRegPoke (s : State) (a : Ask) : State :=
  let x := a.w 1
  if x % 4 ≠ 0 then s.reply a rBADARG
  else if secureAddr x ∨ excludedBlock x then s.reply a rDENIED
  else s.startXfer ⟨1, .poke a, [(x, none)], []⟩

/-- TIMELINE_ADD (R7, R94, R302, R304). -/
def State.doTimelineAdd (s : State) (a : Ask) : State :=
  let w := w32 (a.w 1)
  let f (x : Fld) : Nat := getBits w x.lo x.width
  let act := f TML_E_CTRL.ACTION
  if act = 0 ∨ 9 < act ∨ 4 < f TML_E_CTRL.YARD ∨ !tmlTargetOk act (f TML_E_CTRL.TARGET)
      ∨ 25000 ≤ a.w 2 % 2^15 ∨ 2^24 ≤ a.w 4 ∨ 2^16 ≤ a.w 5 then s.reply a rBADARG
  else match s.freeEntry with
    | none => s.reply a rBUSY
    | some i =>
      (s.setEntry i { valid := true, yard := f TML_E_CTRL.YARD, abs := f TML_E_CTRL.ABS = 1, action := act,
                      target := f TML_E_CTRL.TARGET, rep := a.w 4,
                      arg := a.w 5, due := ticksOf (a.w 2 + a.w 3 * 2^32) }).reply a 0 [i]

/-- TIMELINE_DEL (R305): DENIED below PLAN_TOP and for Dwezel's own duties. -/
def State.doTimelineDel (s : State) (a : Ask) : State :=
  let i := a.w 1
  if 255 < i then s.reply a rBADARG
  else if i < s.g TML_STATUS.PLAN_TOP ∨ ((s.entry i).valid ∧ (s.entry i).own) then s.reply a rDENIED
  else ((s.editEntry i).setEntry i { s.entry i with valid := false }).reply a 0

end Sys2Proof.Machine
end

