-- ==== Sys2Proof/Machine/PlanCmd.lean ====
section
/-!
DEFINITION. Upload, commit and activation of plans in service (R66 to R78, R295 and R398 of spec/03_yard_plan_life.md).
-/
namespace Sys2Proof.Machine

/-- What the other members report of themselves (R77): number, and BODY_HASH of the committed slot. -/
abbrev Reports := List (Nat × List Byte)

/-- UPLOAD of PLN_STATUS: 0 idle, 1 erasing, 2 receiving, 3 committing, 4 activating. -/
def State.upload (s : State) : Nat := s.g PLN_STATUS.UPLOAD

/-- The party a request comes from. -/
def State.partyOf (s : State) (a : Ask) : Nat := s.g (MBX_ASSIGN.PARTY a.c)

/-- Is an activation in progress (R70)? -/
def State.actBusy (s : State) : Bool := s.pln.act.isSome || s.upload = 4

/-- PLAN_BEGIN (R71, R73). While a commit runs it is BUSY, the owner's own commit among them (DESIGN CHOICE, log entry 157). -/
def State.doPlanBegin (s : State) (a : Ask) : State :=
  let n := a.w 1
  if n < 320 ∨ 262144 < n ∨ n % 8 ≠ 0 then s.reply a rBADARG
  else if (s.upload ≠ 0 ∧ s.g PLN_STATUS.OWNER ≠ s.partyOf a) ∨ s.pln.commit ≠ 0 ∨ s.actBusy then s.reply a rBUSY
  else
    let s := (s.discardUpload.plnMod fun p => { p with len := n }).fields [(PLN_STATUS.UPLOAD, 1), (PLN_STATUS.OWNER, s.partyOf a)]
    s.pendReply a .erase

/-- Why a chunk or commit of an upload is refused (R72, R303): no owner, another owner, or the staging erase; then what does not
fit the upload, before any other step of it that runs. -/
def State.uploadRefusal (s : State) (a : Ask) (fits : Bool) : Option Nat :=
  if s.upload = 0 then some rBADARG
  else if s.g PLN_STATUS.OWNER ≠ s.partyOf a ∨ s.upload = 1 then some rBUSY
  else if !fits then some rBADARG
  else if s.upload ≠ 2 ∨ s.pln.bulk.isSome then some rBUSY
  else none

/-- Does a chunk fit the upload (R72)? -/
def State.chunkOk (s : State) (off n : Nat) : Bool :=
  off = s.pln.data.length && off + n ≤ s.pln.len && (n % 4 = 0 || off + n = s.pln.len)

/-- Data is taken at the expected offset. -/
def State.takeChunk (s : State) (l : List Byte) : State := s.plnMod fun p => { p with data := p.data ++ l }

/-- PLAN_CHUNK (R72, R295): with BULK the data follows on EP3. -/
def State.doPlanChunk (s : State) (a : Ask) : State :=
  let off := a.w 1
  let n := a.w 2
  let bulk := bitOf a.flags 4
  let party := s.partyOf a
  let room := if bulk then 512 else min (4 * (a.words.length - 3)) (if a.sess.isSome then 32 else 52)
  if room < n ∨ (bulk ∧ (party < 2 ∨ 5 < party)) then s.reply a rBADARG
  else match s.uploadRefusal a (s.chunkOk off n) with
    | some c => s.reply a c
    | none =>
      if bulk then s.plnMod fun p => { p with bulk := some ⟨a.c, a.seq, n, a.w 0, a.sess⟩ }
      else (s.takeChunk ((wordBytes (a.words.drop 3)).take n)).reply a 0

/-- PLAN_COMMIT (R71, R72, R74). -/
def State.doPlanCommit (s : State) (a : Ask) : State :=
  match s.uploadRefusal a (s.pln.data.length = s.pln.len) with
  | some c => s.reply a c
  | none =>
    if s.actBusy ∨ s.pln.commit ≠ 0 then s.reply a rBUSY
    else
      let s := (s.p PLN_STATUS.UPLOAD 3).plnMod fun p =>
        { p with commit := 1, again := false, committed := true, target := s.targetSlot, seq := s.nextSeq }
      s.pendReply a .commit

/-- Does an activation with these fuses and this floor leave R67 and R68 satisfied? Writes still to be made count as made. -/
def State.otpAllows (s : State) (p : Plan) (raise : Bool) (revoke : Nat) : Bool :=
  let o := s.otpDue
  !(raise && 64 ≤ o.words.length) && !bitOf revoke p.keySlot
    && (revoke = 0 || (List.range 4).any fun k => (vat o.keys k).isSome && !vat o.revoked k && !bitOf revoke k)

/-- Does every member report a committed slot with the BODY_HASH of this chip's (R77)? `reports` holds what each other member
has reported. -/
def State.barnAgrees (s : State) (reports : Reports) : Bool :=
  match s.committedHash with
  | none => false
  | some h => (List.range s.plan.members).all fun m => m = s.member || reports.any fun r => r.1 = m && r.2 == h

/-- The plan file of a source (R398): 0 the committed slot, 1 staging; with its PLN_STATUS.SOURCE. -/
def State.sourceFile (s : State) (staging : Bool) : Option (List Byte × Nat) :=
  if staging then (if s.upload = 2 ∧ s.pln.data.length = s.pln.len then some (s.pln.data, 4) else none)
  else s.bestSlot.map fun k => ((s.slotF k).plan, 2 + k)

/-- PLAN_ACTIVATE (R67, R68, R71, R77, R398): `reports` holds each other member's number and the BODY_HASH of its committed
slot. -/
def State.doPlanActivate (s : State) (a : Ask) (reports : Reports) : State :=
  let w := a.w 1
  let revoke := w / 16 % 16
  let wide := bitOf w 2 && decide (1 < s.plan.members)
  if 256 ≤ w ∨ bitOf w 3 then s.reply a rBADARG
  else if s.pln.commit ≠ 0 ∨ s.actBusy then s.reply a rBUSY
  else match s.sourceFile (bitOf w 0) with
    | none => s.reply a rDENIED
    | some (d, src) => match s.check d with
      | .error c => (s.reject c src (fileId d)).reply a rDENIED
      | .ok p =>
        if !s.otpAllows p (bitOf w 1) revoke ∨ (wide ∧ !(s.on DRV_BARN.IS_LEAD && s.barnAgrees reports)) then s.reply a rDENIED
        else
          let s := s.plnMod fun x =>
            { x with act := some { plan := p, source := src, revoke := revoke, raiseFloor := bitOf w 1, wait := some a.c, wide := wide } }
          (s.p PLN_STATUS.UPLOAD 4).reply a 0

/-! ## Events -/

/-- STAGING_ERASE_DONE (R71): LATER_DONE with OK; a PLAN_BEGIN whose upload was abandoned or discarded ends with BUSY. -/
def execStagingEraseDone (s : State) : Res :=
  .next (
    if s.upload = 1 then (s.p PLN_STATUS.UPLOAD 2).finishPend .erase 0
    else s.finishPend .erase rBUSY)

/-- A commit ends with a result and its validation code (R71, R74). -/
def State.endCommit (s : State) (code valid : Nat) : State :=
  let s := s.plnMod fun p => { p with commit := 0, again := false }
  ((s.when (s.upload = 3) fun s => s.p PLN_STATUS.UPLOAD 2).finishPend .commit code [valid]).reportCommitted

/-- Step 5 or 6 of a commit has failed: steps 2 to 6 run once more, then the commit ends with BUSY and the slot is invalid. -/
def State.commitFailed (s : State) : State :=
  let s := s.plnMod fun p => { p with slot := vset p.slot p.target { vat p.slot p.target with page := [] } }
  if s.pln.again then s.endCommit rBUSY 0 else s.plnMod fun p => { p with commit := 2, again := true }

/-- COMMIT_STEP_DONE (R74): `ok` is the outcome of the read back of step 5 or 6. MAKER writes no slot (R23). -/
def execCommitStepDone (ok : Bool) (s : State) : Res :=
  .next (s.when (s.mode ≠ 5) fun s =>
    let d := s.pln.data
    let put (f : SlotF → SlotF) (next : Nat) (s : State) : State :=
      s.plnMod fun p => { p with slot := vmod p.slot p.target f, commit := next }
    match s.pln.commit with
    | 1 => match s.check d with
      | .ok _ => s.plnMod fun p => { p with commit := 2 }
      | .error c => (s.reject c 4 (fileId d)).discardUpload.endCommit rBADARG c
    | 2 => (put (fun x => { x with page := [] }) 3 s).p (PLN_SLOT_SEQ.SEQ s.pln.target) 0
    | 3 => put (fun _ => {}) 4 s
    | 4 => put (fun _ => { bytes := d }) 5 s
    | 5 => if ok then s.plnMod fun p => { p with commit := 6 } else s.commitFailed
    | 6 =>
      if ok then
        let s := put (fun x => { x with page := commitPage s.pln.seq d }) 6 s
        (s.p (PLN_SLOT_SEQ.SEQ s.pln.target) s.pln.seq).endCommit 0 0
      else s.commitFailed
    | _ => s)

/-- ACTIVATE_REPLY_WAIT_END (R76, R77): the reply is acknowledged, or 20 ms have passed; PLAN is entered. In a mode that the
chip has gone to meanwhile, from which PLAN is not entered, the activation is dropped and its upload discarded (DESIGN CHOICE,
log entry 136). -/
def execActivateReplyWaitEnd (s : State) : Res :=
  .next (match s.pln.act with
    | none => s
    | some r =>
      if r.wait.isNone then s
      else if s.mode ≠ 3 ∧ ¬(s.mode = 0 ∧ s.g TOP_STRAP.BOOTSRC = 1) then
        s.discardUpload.plnMod fun p => { p with act := none }
      else
        let s := s.when r.wide fun s => s.ctrlAll "ACTIVATE" [r.revoke, b2n r.raiseFloor]
        (s.plnMod fun p => { p with act := some { r with wait := none } }).enterPlan 0xFF)

/-- MEMBER_ACTIVATE_ORDER (R77): the lead's order reaches this member, which activates its committed plan. The request's
REVOKE_MASK and RAISE_FLOOR hold for the OTP of every member (DESIGN CHOICE, log entry 158). -/
def execMemberActivateOrder (c : CtrlHdr) (revoke : Fin 16) (raise : Bool) (s : State) : Res :=
  .next (s.rxCtrl c "ACTIVATE" [revoke.val, b2n raise] fun s =>
    if s.mode ≠ 3 ∨ s.pln.commit ≠ 0 ∨ s.actBusy then s
    else match s.sourceFile false with
      | none => s
      | some (d, src) => match s.check d with
        | .error e => s.reject e src (fileId d)
        | .ok p =>
          if !s.otpAllows p raise revoke then s
          else (s.plnMod fun x =>
            { x with act := some { plan := p, source := src, revoke := revoke, raiseFloor := raise, wait := none, wide := false } }).enterPlan 0xFF)

/-- OTP_WRITE_DONE (R67 to R69): the next revoke fuse or floor word has been programmed. MAKER writes none (R347). -/
def execOtpWriteDone (s : State) : Res :=
  .next (s.when (s.mode ≠ 5) fun s => match s.pln.otp with
    | [] => s
    | x :: t =>
      let s := s.plnMod fun p => { p with otp := t }
      match x with
      | .revoke k => (s.withOtp (s.otp.put (.revoke k)))
      | .floor b => (s.withOtp (s.otp.put (.floor b))))

/-- UPLOAD_IDLE_TIMEOUT (R73): 10 s without a chunk or a commit from the owner. -/
def execUploadIdleTimeout (s : State) : Res := .next (s.when (s.upload = 2) fun s => s.discardUpload)

/-- Is a BULK chunk of a slot's pending (R295)? -/
def State.bulkFrom (s : State) (slot : Nat) : Bool := s.pln.bulk.any fun b => s.g (MBX_ASSIGN.PARTY b.c) = 2 + slot

/-- Dwezel takes the packet that stands in EP3 while a BULK chunk of the slot's is pending, and answers the chunk (R290, R295). -/
def State.takeEp3 (s : State) (slot : Nat) : State :=
  let u := s.upOf slot
  match (vat s.tack u).ep3, s.pln.bulk with
  | some bytes, some b =>
    s.when (s.slotOf u = some slot && s.bulkFrom slot) fun s =>
      let s := (s.tackMod u fun x => { x with ep3 := none }).plnMod fun p => { p with bulk := none }
      let ok := bytes.length = b.count
      (s.when ok fun s => s.takeChunk bytes).answer b.c b.seq 0 b.sess [replyWord b.word0 (if ok then 0 else rBADARG)] true
  | _, _ => s

/-- EP3_BULK_DATA (R290, R295): a packet goes into the buffer while a BULK chunk from this slot is pending and the buffer is empty,
and is NAKed otherwise; Dwezel takes it once it runs. -/
def execEp3BulkData (slot : Fin 4) (bytes : List (BitVec 8)) (s : State) : Res :=
  .next (
    let u := s.upOf slot
    if !(vat s.tack u).configured ∨ s.slotOf u ≠ some slot.val then s
    else if !s.bulkFrom slot ∨ (vat s.tack u).ep3.isSome then s.out (.usbNak slot)
    else
      let s := ((s.tackMod u fun x => { x with ep3 := some bytes }).epWrite (epBuf u 3).1 (bytes.take 512)).out (.usbAck slot)
      s.when s.dwezelRuns fun s => s.takeEp3 slot)

end Sys2Proof.Machine
end

