-- ==== Sys2Proof/Machine/Consume.lean ====
section
/-!
DEFINITION. How Dwezel consumes a message: order of service, repeats, sessions, the checks of a request and its forwarding
(R276, R281, R283, R301, R303 to R309), and the command rows.
-/
namespace Sys2Proof.Machine

/-! ## The checks of R303 -/

/-- Words a request's arguments need, word 0 included; `none` for an unknown CMD (R304). -/
def argWords (cmd : Nat) : Option Nat :=
  match cmd with
  | 0x01 | 0x02 | 0x40 | 0x60 | 0x71 | 0x82 => some 1
  | 0x10 | 0x11 | 0x13 | 0x20 | 0x32 | 0x80 | 0x83 | 0xA1 => some 2
  | 0x12 | 0x21 | 0x30 | 0x31 | 0x41 | 0x61 | 0x62 | 0x81 | 0x90 => some 3
  | 0x22 | 0x51 | 0x91 => some 4
  | 0x50 => some 5
  | 0xA0 => some 6
  | 0x70 => some 11
  | _ => none

/-- The PERMS bit a request needs (R52, R304). -/
def Ask.group (a : Ask) : Option Nat :=
  match a.cmd with
  | 0x80 | 0x81 | 0x82 | 0x83 => some 0
  | 0x11 | 0x13 => some 1
  | 0x12 | 0x21 | 0x22 | 0x32 => some 2
  | 0x31 => if bitOf (a.w 2) 0 then some 2 else none
  | 0x50 | 0x51 | 0x61 | 0x62 => some 3
  | 0x90 | 0x91 => some 4
  | 0xA0 | 0xA1 => some 5
  | 0x41 => some 6
  | _ => none

/-- BOOT under BOOTSRC 01 (R70, R306). -/
def State.bootUpload (s : State) : Bool := s.mode = 0 && s.g TOP_STRAP.BOOTSRC = 1

/-- Does the mode admit the request (R306)? -/
def State.admits (s : State) (a : Ask) : Bool :=
  let c := a.cmd
  match s.mode with
  | 0 => c = 1 || c = 2 || (s.bootUpload && [0x70, 0x71, 0x80, 0x81, 0x82, 0x83].contains c)
  | 1 => a.group.isNone || [0x61, 0x62, 0x12].contains c
  | 2 => [1, 2, 0x60].contains c
  | 3 => true
  | 4 => a.group.isNone || [0x61, 0x62].contains c
  | _ => c = 1 || c = 2

/-- Why channel and session do not permit the request (R70, R304); a peer's Dwezel on NS6 has checked it already (R301). -/
def State.notPermitted (s : State) (a : Ask) : Option Nat :=
  match a.group with
  | none => none
  | some b =>
    let party := s.partyOf a
    if a.c = 6 ∧ party = 8 then none
    else match a.sess with
      | some _ => if (s.session a.c).any fun x => bitOf x.perms b then none else some rDENIED
      | none =>
        let relaxed := s.g PLN_STATUS.SOURCE = 1 || s.bootUpload
        if a.c < 8 ∧ relaxed ∧ [2, 6, 7].contains party then none else some 5

/-- The member a request is for (R166, R192, R301, R303): by REMOTE, by its port word, or the lead. -/
def State.target (s : State) (a : Ask) : Nat :=
  let port := [0x10, 0x12, 0x20, 0x21, 0x22, 0x30, 0x31].contains a.cmd
  if bitOf a.flags 0 then a.flags / 2 % 8
  else if port then a.w 1 % 8
  else if [0x11, 0x13, 0x41].contains a.cmd && decide (1 < s.plan.members) then s.g DRV_BARN.LEAD
  else s.member

/-! ## Carrying out -/

/-- A request goes to another member through the fabric proxy, and waits for that member's reply (R283, R301). With 4 messages
held for NS6 the answer is BUSY (R281; DESIGN CHOICE, log entry 175). -/
def State.forward (s : State) (a : Ask) (m : Nat) : State :=
  let q := s.msg.nextSeq
  let words := a.words.take (if a.sess.isSome then 11 else 16)
  if 4 ≤ (s.mb 6).held.length then s.reply a rBUSY
  else
    let s := (s.withMsg { s.msg with
      fwd := s.msg.fwd ++ [Fwd.mk m q a.c a.seq a.member a.sess (a.w 0) false], nextSeq := (q + 1) % 16 })
    s.post 6 ⟨false, q, m, words⟩

/-- The meaning of each command code (R304). -/
def State.doCommand (s : State) (a : Ask) (rep : Reports) : State :=
  match a.cmd with
  | 0x01 => s.doInfo a
  | 0x02 => s.doModeGet a
  | 0x10 => s.doPortStatus a
  | 0x11 => s.doPortAssign a
  | 0x12 => s.doPortPower a
  | 0x13 => s.doKvmSet a
  | 0x20 => s.doPdStatus a
  | 0x21 => s.doPdPolicy a
  | 0x22 => s.doSourceCapsSet a
  | 0x30 => s.doTlmRead a
  | 0x31 => s.doEnergyRead a
  | 0x32 => s.doBudgetSet a
  | 0x40 => s.doFabricStatus a
  | 0x41 => s.doFabricReseed a
  | 0x50 => s.doQueueConfig a
  | 0x51 => s.doPmuConfig a
  | 0x60 => s.doFaultStatus a
  | 0x61 => s.doFaultClear a
  | 0x62 => s.doDumpRead a
  | 0x70 => s.doSessionOpen a
  | 0x71 => s.doSessionClose a
  | 0x80 => s.doPlanBegin a
  | 0x81 => s.doPlanChunk a
  | 0x82 => s.doPlanCommit a
  | 0x83 => s.doPlanActivate a rep
  | 0x90 => s.doRegPeek a
  | 0x91 => s.doRegPoke a
  | 0xA0 => s.doTimelineAdd a
  | 0xA1 => s.doTimelineDel a
  | _ => s.reply a rBADARG

/-- A request through the checks of R303, in their order; one for another member is forwarded. -/
def State.carryOut (s : State) (a : Ask) (rep : Reports) : State :=
  if (argWords a.cmd).all fun n => decide (a.words.length < n) then s.reply a rBADARG
  else if !s.admits a then s.reply a (if s.mode = 2 then rBUSY else 4)
  else match s.notPermitted a with
    | some c => s.reply a c
    | none =>
      let m := s.target a
      if m ≠ s.member ∧ a.c ≠ 6 then (if s.plan.members ≤ m then s.reply a rBADARG else if s.reach m then s.forward a m else s.reply a rBUSY)
      else if 2^24 ≤ a.w 0 ∨ 32 ≤ a.flags ∨ (bitOf a.flags 4 ∧ a.cmd ≠ 0x81 ∧ a.cmd ≠ 0x62) then s.reply a rBADARG
      else s.doCommand a rep

/-- A message enters the history of its channel as the last one consumed (R276). -/
def State.noted (s : State) (a : Ask) : State :=
  (s.histMod a.c a.member fun _ => { seq := some a.seq }).mbMod a.c fun y => { y with replyOut := false }

/-- A message that is no repeat is carried out, where it is a request; of a repeat, the acknowledged final reply is posted again
(R276). -/
def State.serve (s : State) (a : Ask) (isReply : Bool) (rep : Reports) : State :=
  let y := s.histOf a.c a.member
  if y.seq = some a.seq then
    let s := s.hw (MBX_STATUS.REPEAT a.c)
    match y.reply with
    | some r => s.when y.acked fun s => s.answer a.c a.seq a.member a.sess (if a.sess.isSome then r.words.take 11 else r.words) true
    | none => s
  else
    let s := s.noted a
    if isReply then s else s.carryOut a rep

/-- A message without a valid tag on a secure channel (R308, R309): consumed, not carried out, and answered NO_SESSION. -/
def State.unauthentic (s : State) (a : Ask) : State :=
  let fresh := decide ((s.histOf a.c a.member).seq ≠ some a.seq)
  (s.when fresh fun s => s.noted a).answerPlain a.c a.seq a.member [replyWord (a.w 0) 5] fresh

/-- Where TKR_AUTH counts the failed messages of SC k (R308). -/
def failFld (k : Nat) : Fld := ⟨TKR_AUTH.FAIL0.addr, 8 * k, 8⟩

/-- A message on a secure channel (R278, R307 to R309). -/
def State.serveSecure (s : State) (a : Ask) (isReply : Bool) (rep : Reports) : State :=
  let a := { a with words := (a.words ++ List.replicate 16 0).take 16 }
  if a.cmd = 0x70 && !isReply then
    if (s.histOf a.c a.member).seq = some a.seq then s.serve { a with sess := (s.session a.c).map (·.id) } false rep
    else (s.closeParty (s.g (MBX_ASSIGN.PARTY a.c))).serve a false rep
  else match s.session a.c with
    | none => s.unauthentic a
    | some x =>
      let n := a.w 11
      if tagOf x.key a.words = a.words.drop 12 ∧ x.rx < n then
        let s := s.sessSet a.c (some { x with rx := n, fails := 0 })
        let s := s.serve { a with words := a.words.take 11, sess := some x.id } isReply rep
        s.when (n = 0xFFFFFFFF ∧ (s.session a.c).map (·.id) = some x.id) fun s => s.closeSession a.c
      else
        let s := ((s.incSat (failFld (a.c - 8))).raise 97 a.c).sessSet a.c (some { x with fails := x.fails + 1 })
        let s := s.unauthentic a
        s.when (3 ≤ x.fails + 1) fun s => s.closeSession a.c

/-- A reply of a peer's Dwezel goes to the channel its request came from, with the requester's SEQ (R283, R301). -/
def State.relayReply (s : State) (a : Ask) : State :=
  match s.msg.fwd.find? fun f => f.to_ = a.member ∧ f.sent = a.seq with
  | none => s
  | some f =>
    let pending := a.w 0 / 2^24 = 6
    let kept := s.msg.fwd.map fun x => if x = f then { x with pending := true } else x
    let s := s.withMsg { s.msg with fwd := if pending then kept else s.msg.fwd.erase f }
    s.answer f.c f.seq f.member f.sess a.words (!pending)

/-- A consumed message (R276, R301 to R309). A peer's answers on NS6 have no part in the history: PENDING and LATER_DONE carry one
SEQ (DEDUCED, log entry 105). -/
def State.consume (s : State) (a : Ask) (isReply : Bool) (rep : Reports) : State :=
  let s := s.pmu 0x13 a.c
  if isReply && a.c = 6 then s.relayReply a
  else if 8 ≤ a.c then s.serveSecure a isReply rep
  else s.serve a isReply rep

/-! ## MESSAGE_CONSUME -/

/-- A channel's place in a service pass (R281): SC0 to SC3, then NS0 to NS7. -/
def passIx (c : Nat) : Nat := if 8 ≤ c then c - 8 else c + 4

/-- Must a peer's request wait for this member's own to that peer, which the member of the higher number posts first (R284)? -/
def State.ownFirst (s : State) (c : Nat) : Bool :=
  let p := s.g (MBX_IN_CTRL.MEMBER 6)
  c = 6 && !s.on (MBX_IN_CTRL.REPLY 6) && decide (p < s.member) && s.reach p && (s.mb 6).held.any fun x => !x.reply && x.member = p

/-- May Dwezel consume from channel c now (R279, R281)? -/
def State.servable (s : State) (c : Nat) : Bool :=
  s.on (MBX_IN_CTRL.GO c) && (s.notifyWake c || (s.mb c).seen) && (s.mb c).held.length < 4 && !s.ownFirst c

/-- The channel Dwezel serves next (R281). -/
def State.nextServed (s : State) : Option Nat :=
  let l := ([8, 9, 10, 11, 0, 1, 2, 3, 4, 5, 6, 7] : List Nat).filter fun c => s.servable c
  match l.find? fun c => s.pass ≤ passIx c with
  | some c => some c
  | none => l.head?

/-- MESSAGE_CONSUME (R274, R281): the inbound message of channel c is read, its half freed, and the message carried out. `reports` holds
what the members report to a PLAN_ACTIVATE with BARN_WIDE (R77). -/
def execMessageConsume (c : Fin 12) (reports : List (Nat × List (BitVec 8))) (s : State) : Res :=
  .next (
    if !s.dwezelRuns ∨ s.nextServed ≠ some c.val then s
    else
      let n := s.g (MBX_IN_CTRL.COUNT c)
      let a : Ask := { c := c, seq := s.g (MBX_IN_CTRL.SEQ c), member := s.g (MBX_IN_CTRL.MEMBER c),
                       words := (List.range n).map fun i => s.word (MBX_IN_W.addr c i), sess := none }
      let isReply := s.on (MBX_IN_CTRL.REPLY c)
      let s := (((s.inFall c).withPass ((passIx c + 1) % 12))).consume a isReply reports
      -- a request of this member's that the peer's held back is posted after it (R284)
      s.when (c.val = 6) fun s => (s.postHeld 6).placeProxy)

/-- A request of one command as Dwezel takes it from channel c (R303, R304). -/
def State.command (s : State) (cmd c seq : Nat) (words : List Word) (rep : Reports := []) : State :=
  let a : Ask := { c := c, seq := seq, member := s.g (MBX_IN_CTRL.MEMBER c), words := words, sess := none }
  if !s.dwezelRuns ∨ s.g (MBX_ASSIGN.PARTY c) = 0 ∨ 4 ≤ (s.mb c).held.length ∨ a.cmd ≠ cmd ∨ 16 < words.length then s
  else s.consume a false rep

/-! ## The command rows (R304) -/

/-- INFO (R304). -/
def execInfo (c : Fin 12) (seq : Fin 16) (words : List (BitVec 32)) (s : State) : Res := .next (s.command 0x01 c seq words)

/-- MODE_GET (R304). -/
def execModeGet (c : Fin 12) (seq : Fin 16) (words : List (BitVec 32)) (s : State) : Res := .next (s.command 0x02 c seq words)

/-- PORT_STATUS (R304). -/
def execPortStatus (c : Fin 12) (seq : Fin 16) (words : List (BitVec 32)) (s : State) : Res := .next (s.command 0x10 c seq words)

/-- PORT_ASSIGN (R166). -/
def execPortAssign (c : Fin 12) (seq : Fin 16) (words : List (BitVec 32)) (s : State) : Res := .next (s.command 0x11 c seq words)

/-- PORT_POWER (R305). -/
def execPortPower (c : Fin 12) (seq : Fin 16) (words : List (BitVec 32)) (s : State) : Res := .next (s.command 0x12 c seq words)

/-- KVM_SET (R166). -/
def execKvmSet (c : Fin 12) (seq : Fin 16) (words : List (BitVec 32)) (s : State) : Res := .next (s.command 0x13 c seq words)

/-- PD_STATUS (R304). -/
def execPdStatus (c : Fin 12) (seq : Fin 16) (words : List (BitVec 32)) (s : State) : Res := .next (s.command 0x20 c seq words)

/-- PD_POLICY (R305). -/
def execPdPolicy (c : Fin 12) (seq : Fin 16) (words : List (BitVec 32)) (s : State) : Res := .next (s.command 0x21 c seq words)

/-- SOURCE_CAPS_SET (R305). -/
def execSourceCapsSet (c : Fin 12) (seq : Fin 16) (words : List (BitVec 32)) (s : State) : Res := .next (s.command 0x22 c seq words)

/-- TLM_READ (R304). -/
def execTlmRead (c : Fin 12) (seq : Fin 16) (words : List (BitVec 32)) (s : State) : Res := .next (s.command 0x30 c seq words)

/-- ENERGY_READ (R304). -/
def execEnergyRead (c : Fin 12) (seq : Fin 16) (words : List (BitVec 32)) (s : State) : Res := .next (s.command 0x31 c seq words)

/-- BUDGET_SET (R305). -/
def execBudgetSet (c : Fin 12) (seq : Fin 16) (words : List (BitVec 32)) (s : State) : Res := .next (s.command 0x32 c seq words)

/-- FABRIC_STATUS (R304). -/
def execFabricStatus (c : Fin 12) (seq : Fin 16) (words : List (BitVec 32)) (s : State) : Res := .next (s.command 0x40 c seq words)

/-- FABRIC_RESEED (R192). -/
def execFabricReseed (c : Fin 12) (seq : Fin 16) (words : List (BitVec 32)) (s : State) : Res := .next (s.command 0x41 c seq words)

/-- QUEUE_CONFIG (R304). -/
def execQueueConfig (c : Fin 12) (seq : Fin 16) (words : List (BitVec 32)) (s : State) : Res := .next (s.command 0x50 c seq words)

/-- PMU_CONFIG (R304). -/
def execPmuConfig (c : Fin 12) (seq : Fin 16) (words : List (BitVec 32)) (s : State) : Res := .next (s.command 0x51 c seq words)

/-- FAULT_STATUS (R304). -/
def execFaultStatus (c : Fin 12) (seq : Fin 16) (words : List (BitVec 32)) (s : State) : Res := .next (s.command 0x60 c seq words)

/-- FAULT_CLEAR (R305, R336). -/
def execFaultClear (c : Fin 12) (seq : Fin 16) (words : List (BitVec 32)) (s : State) : Res := .next (s.command 0x61 c seq words)

/-- DUMP_READ (R345). -/
def execDumpRead (c : Fin 12) (seq : Fin 16) (words : List (BitVec 32)) (s : State) : Res := .next (s.command 0x62 c seq words)

/-- SESSION_OPEN (R307). -/
def execSessionOpen (c : Fin 12) (seq : Fin 16) (words : List (BitVec 32)) (s : State) : Res := .next (s.command 0x70 c seq words)

/-- SESSION_CLOSE (R309). -/
def execSessionClose (c : Fin 12) (seq : Fin 16) (words : List (BitVec 32)) (s : State) : Res := .next (s.command 0x71 c seq words)

/-- PLAN_BEGIN (R71). -/
def execPlanBegin (c : Fin 12) (seq : Fin 16) (words : List (BitVec 32)) (s : State) : Res := .next (s.command 0x80 c seq words)

/-- PLAN_CHUNK (R72). -/
def execPlanChunk (c : Fin 12) (seq : Fin 16) (words : List (BitVec 32)) (s : State) : Res := .next (s.command 0x81 c seq words)

/-- PLAN_COMMIT (R74). -/
def execPlanCommit (c : Fin 12) (seq : Fin 16) (words : List (BitVec 32)) (s : State) : Res := .next (s.command 0x82 c seq words)

/-- PLAN_ACTIVATE (R398). -/
def execPlanActivate (c : Fin 12) (seq : Fin 16) (words : List (BitVec 32)) (reports : List (Nat × List (BitVec 8))) (s : State) : Res :=
  .next (s.command 0x83 c seq words reports)

/-- REG_PEEK (R305). -/
def execRegPeek (c : Fin 12) (seq : Fin 16) (words : List (BitVec 32)) (s : State) : Res := .next (s.command 0x90 c seq words)

/-- REG_POKE (R305). -/
def execRegPoke (c : Fin 12) (seq : Fin 16) (words : List (BitVec 32)) (s : State) : Res := .next (s.command 0x91 c seq words)

/-- TIMELINE_ADD (R304). -/
def execTimelineAdd (c : Fin 12) (seq : Fin 16) (words : List (BitVec 32)) (s : State) : Res := .next (s.command 0xA0 c seq words)

/-- TIMELINE_DEL (R305). -/
def execTimelineDel (c : Fin 12) (seq : Fin 16) (words : List (BitVec 32)) (s : State) : Res := .next (s.command 0xA1 c seq words)

/-! ## Events of commands under way -/

/-- PORT_POWER_CYCLE_RELEASE (R305): VBUS is below 0.8 V and 500 ms have passed. -/
def execPortPowerCycleRelease (n : Channel) (s : State) : Res :=
  .next (s.when ((s.ch n).cycling && (s.ch n).vbusLow) fun s =>
    (s.chMod n fun c => { c with holdOff := false, cycling := false }).tryRamp n)

/-- HANDOFF_STEP_DONE (R166, R167): a step of the i-th hand-off that runs completes after `ms` ms; the last brings LATER_DONE. A lead
that a reaction has halted abandons it and answers BUSY (R198). -/
def execHandoffStepDone (i : Fin 16) (ms : Fin 1024) (s : State) : Res :=
  .next (match s.handoff[i.val]? with
    | none => s
    | some h =>
      if s.mode = 4 then (s.withHandoff (s.handoff.eraseIdx i)).finishPend (.handoff h.id) 1
      else s.when (h.step ≠ 3) fun s =>
      let r := s.handDone i ms
      if r.1 then r.2.finishPend (.handoff h.id) 0 else r.2)

/-- SESSION_IDLE_TIMEOUT (R309): IDLE_S without a valid message. -/
def execSessionIdleTimeout (c : Fin 12) (s : State) : Res := .next (s.closeSession c)

end Sys2Proof.Machine
end

