-- ==== Sys2Proof/Machine/Manage.lean ====
section
/-!
DEFINITION. Management restarts and hayloft dumps (R335, R340 to R344 of spec/15_faults_hayloft.md).
-/
namespace Sys2Proof.Machine

/-- Change the fault collector's hidden state. -/
def State.fltMod (s : State) (f : FltS → FltS) : State := (s.withFlt (f s.flt))

/-! ## The dump (R341 to R343) -/

/-- A section of a dump: its header, and the body padded to 8 bytes (R343). -/
def dumpSection (typ flags : Nat) (body : List Byte) : List Byte :=
  let l := 8 + body.length
  leBytes 1 typ ++ leBytes 1 flags ++ leBytes 2 0 ++ leBytes 4 (padTo 8 l) ++ body ++ List.replicate (padTo 8 l - l) 0

/-- Every register address of the map, by block. -/
def allAddrs : List Nat :=
  (List.range 22).flatMap fun b => (rowsOfBlock b).flatMap fun r =>
    (List.range r.count).flatMap fun i => (List.range r.words).map fun j => r.base + i * r.stride + 4 * j

/-- Registers a dump never holds: secure words and the flow-hash seed (R341). -/
def dumpHides (a : Nat) : Bool :=
  (0x110400 ≤ a && a < 0x110600) || a = DRV_SEED_LO.addr || a = DRV_SEED_HI.addr

/-- A word of a register as a dump shows it. -/
def State.dumpWord (s : State) (a : Nat) : List Byte := leBytes 4 (s.shownWord a)

/-- The REGS section of a domain: one run for each register when it is ON or in RET (R341, R343). -/
def State.dumpRegs (s : State) (d : Nat) : List Byte :=
  let st := s.g (PDC_DOM.STATE d)
  let taken := d = 0 || st ≤ 1
  let l := if taken then allAddrs.filter fun a => addrDom a = d && !dumpHides a else []
  dumpSection 1 (b2n !taken) (leBytes 1 d ++ leBytes 1 st ++ leBytes 2 l.length
    ++ l.flatMap fun a => leBytes 4 a ++ leBytes 2 1 ++ leBytes 2 0 ++ s.dumpWord a)

/-- The QUEUE section of a queue: its words from RD up to WR, a record being written with its length word still 0. -/
def State.dumpQueue (s : State) (q : Nat) : List Byte :=
  let o := vat s.obs q
  let open_ := (o.writing.map fun r => (0 : Word) :: r.body).getD []
  dumpSection 2 0 (leBytes 1 q ++ leBytes 1 0 ++ leBytes 2 (s.g (OBS_Q_LOST.LOST q)) ++ leBytes 2 o.wr ++ leBytes 2 o.rd
    ++ wordBytes (o.recs.flatten ++ open_))

/-- The PD_LOG section: 44 bytes a message, oldest first. -/
def State.dumpPd (s : State) : List Byte :=
  dumpSection 3 0 (s.flt.pdLog.flatMap fun l => wordBytes ((l ++ List.replicate 11 0).take 11))

/-- The FABRIC section. -/
def State.dumpFabric (s : State) : List Byte :=
  dumpSection 4 0 (s.dumpWord DRV_BARN.addr ++ ((List.range 8).flatMap fun d => s.dumpWord (DRV_ROUTE.addr d))
    ++ ([0, 1, 2, 3].flatMap fun k => s.dumpWord (GLK_LINK.addr k)) ++ ([0, 1, 2, 3].flatMap fun k => s.dumpWord (HSH_CARRY.addr k)))

/-- The DOMAINS section. -/
def State.dumpDomains (s : State) : List Byte :=
  dumpSection 5 0 (s.dumpWord PDC_STATE.addr ++ ((List.range 12).flatMap fun d => s.dumpWord (PDC_DOM.addr d))
    ++ ((List.range 12).flatMap fun d => s.dumpWord (PDC_VOTE.addr d)))

/-- Is a dump's cause a management restart (R342)? -/
def isRestart (cause : Nat) : Bool := cause = 0xF0 || cause = 0xF1

/-- SEQ of the next dump: one more than the highest in flash (R342). -/
def State.dumpSeq (s : State) : Nat :=
  s.flt.flash.toList.foldl (fun m e => max m ((e.dump.map (·.seq)).getD 0)) 0 + 1

/-- The bytes of a dump, its CRC included (R342). -/
def State.dumpBytes (s : State) (seq cause sev : Nat) (trace : List Byte) : List Byte :=
  let body := ((List.range 12).flatMap fun d => s.dumpRegs d) ++ ((List.range 4).flatMap fun q => s.dumpQueue q) ++ s.dumpPd
    ++ s.dumpFabric ++ s.dumpDomains ++ (if isRestart cause then dumpSection 6 0 trace else [])
  let n := 12 + 4 + 1 + 1 + 1 + b2n (isRestart cause)
  let mode := if isRestart cause then s.mode else s.flt.mode
  let time := if isRestart cause then s.now 4 else s.flt.time
  let d := [0x48#8, 0x41#8, 0x59#8, 0x4C#8] ++ leBytes 2 1 ++ leBytes 2 n ++ leBytes 4 (64 + body.length + 4) ++ leBytes 4 seq
    ++ leBytes 8 s.otp.uid ++ leBytes 8 time ++ leBytes 1 cause ++ leBytes 1 sev ++ leBytes 1 mode
    ++ leBytes 1 (if s.fab.numbered then s.member else 0xFF) ++ leBytes 4 s.plan.planId ++ leBytes 4 s.plan.build
    ++ leBytes 4 (if cause = 0xF1 then s.flt.pc else 0)
    ++ ([0, 1, 2, 3].flatMap fun k => leBytes 4 (s.word (FLT_STICKY.addr k)).toNat) ++ body
  d ++ leBytes 4 (crc32 d)

/-! ## Writing it (R340, R344) -/

/-- Severity of a dump's cause: a management restart's is that of its source. -/
def State.causeSeverity (s : State) (cause : Nat) : Nat :=
  if cause = 0xF0 then s.severity 8 else if cause = 0xF1 then s.severity 9 else s.severity cause

/-- The flash entry a dump goes to (R344): an invalid one, else the one of lower SEQ, never one with an unread GRAVE dump. -/
def State.dumpTarget (s : State) : Option Nat :=
  let e (i : Nat) : DumpEntry := vat s.flt.flash (i - 1)
  let seq (i : Nat) : Nat := ((e i).dump.map (·.seq)).getD 0
  let l := ([1, 2] : List Nat).filter fun i => !(e i).unread
  match l.find? fun i => (e i).dump.isNone with
  | some i => some i
  | none => l.foldl (fun a i => some (match a with | none => i | some b => if seq i < seq b then i else b)) none

/-- The RAM copy goes to flash: its entry is erased first, or the write is skipped. -/
def State.fileDump (s : State) (sev : Nat) (soon : Bool) : State :=
  match if soon && sev ≠ 3 then none else s.dumpTarget with
  | none => (s.fltMod fun f => { f with inFlash := true }).hw FLT_DUMP.SKIPPED
  | some i => (s.fltMod fun f => { f with writing := i, flash := vset f.flash (i - 1) {}, inFlash := false }).p FLT_DUMP.FLASH 1

/-- DUMP_WRITE (R340, R341, R344): Dwezel captures the dump that is due into RAM and begins its flash copy; after a RESET_N, the copy
of a RAM dump that has not reached flash. MAKER writes none (R23). `soon` says that the last flash dump was written within 60 s; `trace` is Dwezel's trace. -/
def execDumpWrite (soon : Bool) (trace : List (BitVec 8)) (s : State) : Res :=
  .next (
    if s.boot.held ≠ 0 ∨ !s.domOn dMGT ∨ s.mode = 5 then s
    else match s.flt.dumpDue with
      | [] =>
        match s.flt.ram with
        | some d => s.when ((s.mode = 3 || s.mode = 4) && !s.flt.inFlash && s.flt.writing = 0) fun s => s.fileDump d.severity soon
        | none => s
      | cause :: rest =>
        let sev := s.causeSeverity cause
        let grave := sev = 3
        let kept := (s.flt.ram.map (·.severity)) = some 3
        if kept then s.fltMod fun f => { f with dumpDue := rest }
        else if s.flt.writing ≠ 0 ∧ !grave then s
        else
          let s := s.when (s.flt.writing ≠ 0) fun s => (s.fltMod fun f => { f with writing := 0 }).hw FLT_DUMP.ABANDONED
          let seq := s.dumpSeq
          let d : Dump := { seq := seq, severity := sev, bytes := s.dumpBytes seq cause sev trace }
          let s := (s.fltMod fun f => { f with ram := some d, dumpDue := rest, inFlash := false }).fields
            [(FLT_DUMP.RAM, 2), (FLT_DUMP.FLASH, 0)]
          s.fileDump sev soon)

/-- DUMP_FLASH_DONE (R344): the header page, programmed last, makes the entry valid. MAKER writes none (R23). -/
def execDumpFlashDone (s : State) : Res :=
  .next (match s.flt.ram with
    | none => s
    | some d => s.when (s.flt.writing ≠ 0 && s.mode ≠ 5) fun s =>
      let i := s.flt.writing
      let s := s.fltMod fun f =>
        { f with writing := 0, inFlash := true, flash := vset f.flash (i - 1) { dump := some d, unread := decide (d.severity = 3) } }
      s.fields [(FLT_DUMP.RAM, 3), (FLT_DUMP.FLASH, 0), (FLT_DUMP.LAST_ENTRY, i), (FLT_DUMP.SEQ, d.seq)])

/-! ## Management restarts (R335) -/

/-- The management core alone is reset: its source, its dump, and the third within 60 s (R335). -/
def State.restart (s : State) (src cause : Nat) (third : Bool) : State :=
  s.when (s.boot.held = 0 && s.domOn dMGT) fun s =>
    let s := s.fltMod fun f =>
      { f with restarting := true, dumpDue := if s.mode = 5 then f.dumpDue else f.dumpDue ++ [cause] }
    (s.raise src).when third fun s => s.raise 10

/-- WATCHDOG_EXPIRE (R335): `third` says that it is the third restart within 60 s. -/
def execWatchdogExpire (third : Bool) (s : State) : Res := .next (s.restart 8 0xF0 third)

/-- MGT_EXCEPTION (R335, R342): at address pc. -/
def execMgtException (pc : BitVec 32) (third : Bool) (s : State) : Res :=
  .next (s.when (s.boot.held = 0 && s.domOn dMGT) fun s => (s.fltMod fun f => { f with pc := pc.toNat }).restart 9 0xF1 third)

/-- A held reply replaced by BUSY with the same SEQ, in a session under the same number and a new tag (R308, R335). -/
def State.busyReply (s : State) (c : Nat) (x : Msg) : Msg :=
  let w := replyWord (x.words.headD 0).toNat rBUSY
  match s.session c with
  | some y =>
    let l := w :: List.replicate 10 0 ++ [x.words.getD 11 0]
    if x.words.length = 16 then { x with words := l ++ tagOf y.key l } else { x with words := [w] }
  | none => { x with words := [w] }

/-- The held replies of a channel become BUSY with the same SEQ (R335), and are known as such (R276). -/
def State.busyHeld (s : State) (c : Nat) : State :=
  let f (x : Msg) : Msg := if x.reply then s.busyReply c x else x
  let l := (s.mb c).held
  s.mbMod c fun y => { y with held := l.map f
                              hist := y.hist.map fun h => { h with reply := h.reply.map fun r => if l.contains r then f r else r } }

/-- Dwezel's own transfers that stalled are given up, and their requests answered BUSY (R302, R335). -/
def State.dropOwn (s : State) : State :=
  let own := s.pdc.stalls.filter fun x => x.master = 1
  let s := s.withPdc { s.pdc with stalls := s.pdc.stalls.filter fun x => x.master ≠ 1 }
  own.foldl (fun s x => match x.kind with
    | .peek a => s.reply a rBUSY
    | .poke a => s.reply a rBUSY
    | _ => s) s

/-- MANAGEMENT_RESTART_DONE (R78, R335): Dwezel resumes service; `handed` says that the flash had the commit's command in progress
whole. -/
def execManagementRestartDone (handed : Bool) (s : State) : Res :=
  .next (s.when s.flt.restarting fun s =>
    let s := s.fltMod fun f => { f with restarting := false }
    let s := (s.each (List.range 12) fun c s => s.busyHeld c).dropOwn
    let l := s.msg.pend
    let s := s.withMsg { s.msg with pend := [] }
    let s := l.foldl (fun s p => s.laterDone p rBUSY) s
    let k := s.pln.target
    let run := decide (s.pln.commit ≥ 2)
    let s := s.plnMod fun p => { p with slot := vset p.slot k (s.cutCommit handed), commit := 0, again := false }
    let page := (s.slotF k).page
    (s.when run fun s => s.p (PLN_SLOT_SEQ.SEQ k) (if pageOk page then pageSeq page else 0)).discardUpload)

end Sys2Proof.Machine
end

