-- ==== Sys2Proof/Machine/HostReset.lean ====
section
/-!
DEFINITION. A USB bus reset on an upstream port (R144, R163, R165, R288, R309, R310, R318, R369, R399).
-/
namespace Sys2Proof.Machine

/-- The tack room at a bus reset of its paddock (R165, R310, R318): what is open ends, and a new device appears when the position is
powered again. -/
def State.resetTack (s : State) (slot u : Nat) : State :=
  let x := vat s.tack u
  let staged := (List.range 4).any fun q => s.g (OBS_Q_CTRL.OWNER q) = u + 1 && (vat s.obs q).staged > 0
  let waits := s.pdc.stalls.any fun y => y.master = 2 + slot
  let s := s.when (x.send.isSome || x.report.isSome || x.ep3.isSome || staged || waits) fun s => s.hw (TKR_EVT.RESET_DISCARD u)
  let s := s.withPdc { s.pdc with stalls := s.pdc.stalls.filter fun y => y.master ≠ 2 + slot }
  let s := (s.releaseQueues u none).p (TKR_FUNC.QUEUE u) 0
  (s.tackState slot 0).tackMod u fun x => { away := x.away }

/-- The sessions and the upload of a host (R73, R309, R310): an upload not yet committed is discarded. -/
def State.resetParty (s : State) (slot u : Nat) : State :=
  let party := 2 + slot
  let open_ := ([8, 9, 10, 11] : List Nat).filter fun c => (s.session c).any fun x => x.party = party
  let drop := s.g PLN_STATUS.OWNER = party && (s.upload = 1 || (s.upload = 2 && !s.pln.committed))
  let s := s.closeParty party
  let s := s.when (drop || !open_.isEmpty) fun s => s.hw (TKR_EVT.RESET_DISCARD u)
  let s := s.when drop fun s => s.discardUpload
  (s.forceLocks party).closePages [party]

/-- The transfers to the tack room whose status stage completes in the cycle of the reset, behind it: they stand (R310). The reset
leaves nothing for their own commands to do. -/
def State.tackFirst (s : State) (slot : Nat) : State :=
  s.pending.foldl (fun (s : State) c => match c with
    | .mbxSend y v ch len ctrl words => s.when (y.val = slot) fun s => s.mbxSendReq y v ch len ctrl words
    | .mbxSendComplete y => s.when (y.val = slot) fun s => s.mbxSendComplete y
    | .mbxAck y v ch len => s.when (y.val = slot) fun s => s.mbxAck y v ch len
    | .regWrite y a len words => s.when (y.val = slot) fun s => s.regWrite y a len words
    | .regWriteFixed y a len words => s.when (y.val = slot) fun s => s.regWriteFixed y a len words
    | _ => s) s

/-- A bus reset on upstream port u; `high` is the outcome of the chirp that follows it (R130, R144, R163, R310). -/
def State.busReset (s : State) (u : Nat) (high : Bool) : State :=
  match s.slotOf u with
  | none => s
  | some slot =>
    if s.g (UPP_PADDOCK.STATE u) < 2 then s
    else
      let s := s.tackFirst slot
      let s := s.hw (if u = 0 then HSH_EVT.UP_RESET0 else HSH_EVT.UP_RESET1)
      let s := s.each (s.slotMembers slot) fun m s => s.issue slot m 15 (.busReset 0)
      let s := match s.rootEngine slot with
        | some e => (s.p (HSH_ENG.SPEED e) 0).when high fun s => (s.p (HSH_ENG.SPEED e) 2).engState e 2
        | none => s
      let s := s.hsMod fun h => { h with upK := vset h.upK u none }
      let s := (s.withSs { s.ss with hubs := s.ss.hubs.map fun (h : HubS) =>
        if h.slot = slot then { h with configured := false, ssConf := false, altSet := false, wakeEn := false } else h }).tellUp slot
      let s := s.cdpJudge slot
      let s := ((s.p (UPP_PADDOCK.STATE u) 3).upJudge u).resetTack slot u
      s.resetParty slot u

/-- BUS_RESET (R130, R144, R163, R267, R310). -/
def execBusReset (u : Fin 2) (high : Bool) (s : State) : Res :=
  .next (s.when (s.slotOf u).isSome fun s => s.onWake 7 [5 + u.val, dHSB] (.reset u high) fun s => s.busReset u high)

end Sys2Proof.Machine
end

