-- ==== Sys2Proof/Machine/Clock.lean ====
section
/-!
DEFINITION. One cycle of the 200 MHz core clock, which a step takes when no command waits (log entry 47): the counters
of R323 and R324 that count cycles, the yards of R79, the start of an entry's third step (R261), what the queues do as the cycle begins (R319), the fault conditions that still stand (R336), and that of a link's second training step (R170).
-/
namespace Sys2Proof.Machine

/-- OBS_CYCLE counts core cycles while MGT is ON and the crystal runs (R323). -/
def State.cycleTick (s : State) : State :=
  s.when (s.domOn dMGT && s.on PDC_XTAL.RUNNING) fun s =>
    let v := s.g OBS_CYCLE_HI.CYCLE_HI * 2^32 + s.g OBS_CYCLE_LO.CYCLE_LO + 1
    let s := (s.p OBS_CYCLE_LO.CYCLE_LO v).p OBS_CYCLE_HI.CYCLE_HI (v / 2^32)
    let s := s.pmu 0x01 0xFF
    s.each ((List.range 21).filter fun q => if q < 17 then vat s.ss.withheld q > 0
      else !s.creditOk q && (s.lk (q - 17)).owedD > 0) fun q s => s.pmu 0x07 q

/-- The domains that stood at A3 begin to move their rail or their switch (R261); a wake of this cycle still counts as at A3
(R262). -/
def State.a3Tick (s : State) : State :=
  s.each ((List.range 12).filter fun d => (vat s.pdc.dom d).step = .a3) fun d s => (s.domStep d .move).mark (.moved d)

/-- What a wake source has told of takes effect. -/
def State.runLate (s : State) (x : WakeEvt) : State :=
  match x with
  | .attach n cc2 ra acc => s.attachDetect n cc2 ra acc
  | .sink n cc2 rp => s.sinkAttach n cc2 rp
  | .warn cause => s.pwrwarn cause
  | .connect n present low => s.hsConnect n present low
  | .deviceK slot n => s.deviceK slot n
  | .deviceL1 slot n => s.deviceL1 slot n
  | .hostK u => s.hostK u
  | .reset u high => s.busReset u high

/-- What wake sources have told of domains that are ON by now takes effect, in its order (R267, log entry 164). -/
def State.lateTick (s : State) : State :=
  let ready (x : List Nat × WakeEvt) : Bool := x.1.all s.domOn
  let go := s.pdc.late.filter ready
  go.foldl (fun s x => s.runLate x.2) (s.withPdc { s.pdc with late := s.pdc.late.filter fun x => !ready x })

/-- What Dwezel turns to while it runs: the fabric proxy's channel, and a packet that stands in EP3 (R283, R284, R295). -/
def State.dwezelTick (s : State) : State :=
  s.when s.dwezelRuns fun s => s.proxyTick.each [0, 1, 2, 3] fun slot s => s.takeEp3 slot

/-- The next cycle: what the last cycle marked is forgotten (R10, log entry 9). -/
def State.nextCycle (s : State) : State := { s with cycle := s.cycle + 1, hwSet := [], marks := [] }

/-- One cycle; held in reset, only the count moves. -/
def State.tick (s : State) : State :=
  s.nextCycle.when (s.boot.held = 0) fun s =>
    (s.p TML_SEL.BUSY 0).obsTick.standTick.a3Tick.trainTick.yardsTick.cycleTick.lateTick.dwezelTick

end Sys2Proof.Machine
end

