-- ==== Sys2Proof/Machine/Dispatch.lean ====
section
/-!
DEFINITION. The meaning of every command: one arm per constructor of `Instr`, each a direct call.
-/
namespace Sys2Proof.Machine

/-- What a command does to everything but the queue. -/
def exec (i : Instr) (s : State) : Host.Outcome State Fault Refusal :=
  match i with
  | .porAssert => Sys2Proof.Machine.execPorAssert s
  | .porRelease bootsrc lifeEn i2c maker => Sys2Proof.Machine.execPorRelease bootsrc lifeEn i2c maker s
  | .railsInWindow => Sys2Proof.Machine.execRailsInWindow s
  | .railWindowTimeout core ser io => Sys2Proof.Machine.execRailWindowTimeout core ser io s
  | .crystalReady ok => Sys2Proof.Machine.execCrystalReady ok s
  | .crystalNotReady => Sys2Proof.Machine.execCrystalNotReady s
  | .xtalRestartTimer ready => Sys2Proof.Machine.execXtalRestartTimer ready s
  | .makerWindowEnd => Sys2Proof.Machine.execMakerWindowEnd s
  | .makerKeyedMessage => Sys2Proof.Machine.execMakerKeyedMessage s
  | .flashBusyPollEnd ok four => Sys2Proof.Machine.execFlashBusyPollEnd ok four s
  | .slotVerifyDone => Sys2Proof.Machine.execSlotVerifyDone s
  | .planActivationDone same => Sys2Proof.Machine.execPlanActivationDone same s
  | .bootDomainsReady vinOk time => Sys2Proof.Machine.execBootDomainsReady vinOk time s
  | .upstreamDataConnect u => Sys2Proof.Machine.execUpstreamDataConnect u s
  | .resetNAssert handed dumped => Sys2Proof.Machine.execResetNAssert handed dumped s
  | .resetNRelease bootsrc lifeEn i2c maker => Sys2Proof.Machine.execResetNRelease bootsrc lifeEn i2c maker s
  | .chipResetRequest m v => Sys2Proof.Machine.execChipResetRequest m v s
  | .chipResetBegin => Sys2Proof.Machine.execChipResetBegin s
  | .starterArmed lifeEn => Sys2Proof.Machine.execStarterArmed lifeEn s
  | .starterSinkPathClosed => Sys2Proof.Machine.execStarterSinkPathClosed s
  | .starterHoldOffEnd => Sys2Proof.Machine.execStarterHoldOffEnd s
  | .lifelineVinRestored => Sys2Proof.Machine.execLifelineVinRestored s
  | .lifelineHandoverDone => Sys2Proof.Machine.execLifelineHandoverDone s
  | .lifelineExitAbandon => Sys2Proof.Machine.execLifelineExitAbandon s
  | .safeExit => Sys2Proof.Machine.execSafeExit s
  | .planBegin c seq words => Sys2Proof.Machine.execPlanBegin c seq words s
  | .stagingEraseDone => Sys2Proof.Machine.execStagingEraseDone s
  | .planChunk c seq words => Sys2Proof.Machine.execPlanChunk c seq words s
  | .planCommit c seq words => Sys2Proof.Machine.execPlanCommit c seq words s
  | .commitStepDone ok => Sys2Proof.Machine.execCommitStepDone ok s
  | .planActivate c seq words reports => Sys2Proof.Machine.execPlanActivate c seq words reports s
  | .activateReplyWaitEnd => Sys2Proof.Machine.execActivateReplyWaitEnd s
  | .memberActivateOrder c revoke raise => Sys2Proof.Machine.execMemberActivateOrder c revoke raise s
  | .otpWriteDone => Sys2Proof.Machine.execOtpWriteDone s
  | .uploadIdleTimeout => Sys2Proof.Machine.execUploadIdleTimeout s
  | .sofReceived u frame rate => Sys2Proof.Machine.execSofReceived u frame rate s
  | .itpReceived u bic delta res rate => Sys2Proof.Machine.execItpReceived u bic delta res rate s
  | .yardCoast y => Sys2Proof.Machine.execYardCoast y s
  | .forceCoast m mask => Sys2Proof.Machine.execForceCoast m mask s
  | .snap m => Sys2Proof.Machine.execSnap m s
  | .yrdNowLoRead m y => Sys2Proof.Machine.execYrdNowLoRead m y s
  | .barnTimeBroadcast => Sys2Proof.Machine.execBarnTimeBroadcast s
  | .barnTimeReceived h iv hops rate => Sys2Proof.Machine.execBarnTimeReceived h iv hops rate s
  | .yardDescriptorReceived c y value rate st coarse => Sys2Proof.Machine.execYardDescriptorReceived c y value rate st coarse s
  | .yardDescriptorTimeout y => Sys2Proof.Machine.execYardDescriptorTimeout y s
  | .linkDelayProbe k => Sys2Proof.Machine.execLinkDelayProbe k s
  | .domainWake ix => Sys2Proof.Machine.execDomainWake ix s
  | .tlmSample ix => Sys2Proof.Machine.execTlmSample ix s
  | .pdKeepalive ix => Sys2Proof.Machine.execPdKeepalive ix s
  | .doorbell ix => Sys2Proof.Machine.execDoorbell ix s
  | .gpioSet ix => Sys2Proof.Machine.execGpioSet ix s
  | .gpioClear ix => Sys2Proof.Machine.execGpioClear ix s
  | .fabricHeartbeat ix => Sys2Proof.Machine.execFabricHeartbeat ix s
  | .budgetReview ix => Sys2Proof.Machine.execBudgetReview ix s
  | .ttPrewake ix => Sys2Proof.Machine.execTtPrewake ix s
  | .timelineWakeLead ix => Sys2Proof.Machine.execTimelineWakeLead ix s
  | .tmlRead m ix => Sys2Proof.Machine.execTmlRead m ix s
  | .tmlWrite m ix => Sys2Proof.Machine.execTmlWrite m ix s
  | .tmlDelete m ix => Sys2Proof.Machine.execTmlDelete m ix s
  | .tmlEnable m => Sys2Proof.Machine.execTmlEnable m s
  | .predictorChoice d => Sys2Proof.Machine.execPredictorChoice d s
  | .observationWindowEnd d => Sys2Proof.Machine.execObservationWindowEnd d s
  | .burstStart n => Sys2Proof.Machine.execBurstStart n s
  | .predictionWindowMiss n => Sys2Proof.Machine.execPredictionWindowMiss n s
  | .downstreamPacket u pkt ecc => Sys2Proof.Machine.execDownstreamPacket u pkt ecc s
  | .upstreamPacket n pkt ecc => Sys2Proof.Machine.execUpstreamPacket n pkt ecc s
  | .egressQueueHead n ecc => Sys2Proof.Machine.execEgressQueueHead n ecc s
  | .portU0Reached n rate => Sys2Proof.Machine.execPortU0Reached n rate s
  | .recoveryHoldExpire n => Sys2Proof.Machine.execRecoveryHoldExpire n s
  | .lgoReceived n u2 => Sys2Proof.Machine.execLgoReceived n u2 s
  | .headerCreditReturn n => Sys2Proof.Machine.execHeaderCreditReturn n s
  | .creditRelease q => Sys2Proof.Machine.execCreditRelease q s
  | .itpNotice c slot bic => Sys2Proof.Machine.execItpNotice c slot bic s
  | .ldmExchange u result => Sys2Proof.Machine.execLdmExchange u result s
  | .lpmInactivityTimeout n u2 accepted => Sys2Proof.Machine.execLpmInactivityTimeout n u2 accepted s
  | .uspLpmInitiate u u2 accepted => Sys2Proof.Machine.execUspLpmInitiate u u2 accepted s
  | .lfpsDetected ix => Sys2Proof.Machine.execLfpsDetected ix s
  | .deviceU3Exit n => Sys2Proof.Machine.execDeviceU3Exit n s
  | .hostU3Exit u => Sys2Proof.Machine.execHostU3Exit u s
  | .upstreamU3Entry u => Sys2Proof.Machine.execUpstreamU3Entry u s
  | .ssLaneLost n upper => Sys2Proof.Machine.execSsLaneLost n upper s
  | .widthChangeStepDone u => Sys2Proof.Machine.execWidthChangeStepDone u s
  | .carryLost k cut => Sys2Proof.Machine.execCarryLost k cut s
  | .orderReceived c slot n stamp act => Sys2Proof.Machine.execOrderReceived c slot n stamp act s
  | .orderReset n => Sys2Proof.Machine.execOrderReset n s
  | .orderSuspendPort n => Sys2Proof.Machine.execOrderSuspendPort n s
  | .orderResumePort n => Sys2Proof.Machine.execOrderResumePort n s
  | .orderBusResumeStart slot => Sys2Proof.Machine.execOrderBusResumeStart slot s
  | .orderBusResumeEnd slot => Sys2Proof.Machine.execOrderBusResumeEnd slot s
  | .orderTest n => Sys2Proof.Machine.execOrderTest n s
  | .orderL1Exit n => Sys2Proof.Machine.execOrderL1Exit n s
  | .portResetEnd n speed => Sys2Proof.Machine.execPortResetEnd n speed s
  | .globalSuspend e => Sys2Proof.Machine.execGlobalSuspend e s
  | .hostResumeDetected u => Sys2Proof.Machine.execHostResumeDetected u s
  | .hostResumeEnd u => Sys2Proof.Machine.execHostResumeEnd u s
  | .portResumeEnd n => Sys2Proof.Machine.execPortResumeEnd n s
  | .remoteWake src slot n => Sys2Proof.Machine.execRemoteWake src slot n s
  | .wakeHoldExpire u => Sys2Proof.Machine.execWakeHoldExpire u s
  | .lpmAck n besl rwe => Sys2Proof.Machine.execLpmAck n besl rwe s
  | .l1Entry n => Sys2Proof.Machine.execL1Entry n s
  | .deviceL1Exit src slot n => Sys2Proof.Machine.execDeviceL1Exit src slot n s
  | .hsConnectChange n present low => Sys2Proof.Machine.execHsConnectChange n present low s
  | .babbleDisable n => Sys2Proof.Machine.execBabbleDisable n s
  | .busReset u high => Sys2Proof.Machine.execBusReset u high s
  | .fsUpstreamConnect u => Sys2Proof.Machine.execFsUpstreamConnect u s
  | .ttSof n frame => Sys2Proof.Machine.execTtSof n frame s
  | .sofFill n => Sys2Proof.Machine.execSofFill n s
  | .ttPeriodicHold n => Sys2Proof.Machine.execTtPeriodicHold n s
  | .periodicStartSplit n dev ep dirIn data => Sys2Proof.Machine.execPeriodicStartSplit n dev ep dirIn data s
  | .nonperiodicStartSplit n dev ep bulk dirIn data => Sys2Proof.Machine.execNonperiodicStartSplit n dev ep bulk dirIn data s
  | .completeSplit n periodic dev ep dirIn sofar => Sys2Proof.Machine.execCompleteSplit n periodic dev ep dirIn sofar s
  | .ttTransactionEnd n a => Sys2Proof.Machine.execTtTransactionEnd n a s
  | .periodicWindowEnd n dev ep dirIn => Sys2Proof.Machine.execPeriodicWindowEnd n dev ep dirIn s
  | .ttEof n => Sys2Proof.Machine.execTtEof n s
  | .ttaClearBuffer m n dev ep dirIn bulk => Sys2Proof.Machine.execTtaClearBuffer m n dev ep dirIn bulk s
  | .ttaResetTt m n => Sys2Proof.Machine.execTtaResetTt m n s
  | .ttaStopTt m n => Sys2Proof.Machine.execTtaStopTt m n s
  | .ttaStart m n => Sys2Proof.Machine.execTtaStart m n s
  | .ttaOpDone => Sys2Proof.Machine.execTtaOpDone s
  | .bc12SwitchStart n => Sys2Proof.Machine.execBc12SwitchStart n s
  | .bc12SwitchWaitEnd n => Sys2Proof.Machine.execBc12SwitchWaitEnd n s
  | .mirrorRecord c slot hub port seq hs hsChg ss ssChg u1 u2 => Sys2Proof.Machine.execMirrorRecord c slot hub port seq hs hsChg ss ssChg u1 u2 s
  | .mirrorSnapshot e => Sys2Proof.Machine.execMirrorSnapshot e s
  | .statusChangeIn slot hub ss => Sys2Proof.Machine.execStatusChangeIn slot hub ss s
  | .getHubStatus slot hub => Sys2Proof.Machine.execGetHubStatus slot hub s
  | .getPortStatus slot hub port ss => Sys2Proof.Machine.execGetPortStatus slot hub port ss s
  | .getPortStatusExt slot hub port => Sys2Proof.Machine.execGetPortStatusExt slot hub port s
  | .getHubDescriptor slot hub ss d => Sys2Proof.Machine.execGetHubDescriptor slot hub ss d s
  | .clearHubFeature slot hub oc => Sys2Proof.Machine.execClearHubFeature slot hub oc s
  | .unsupportedHubRequest slot hub => Sys2Proof.Machine.execUnsupportedHubRequest slot hub s
  | .setPortReset slot hub port => Sys2Proof.Machine.execSetPortReset slot hub port s
  | .setPortSuspend slot hub port => Sys2Proof.Machine.execSetPortSuspend slot hub port s
  | .clearPortSuspend slot hub port => Sys2Proof.Machine.execClearPortSuspend slot hub port s
  | .setPortPower slot hub port ss => Sys2Proof.Machine.execSetPortPower slot hub port ss s
  | .clearPortPower slot hub port ss => Sys2Proof.Machine.execClearPortPower slot hub port ss s
  | .clearPortEnable slot hub port => Sys2Proof.Machine.execClearPortEnable slot hub port s
  | .setPortTest slot hub port mode => Sys2Proof.Machine.execSetPortTest slot hub port mode s
  | .portIndicator slot hub port on => Sys2Proof.Machine.execPortIndicator slot hub port on s
  | .clearPortChange slot hub port ss bit => Sys2Proof.Machine.execClearPortChange slot hub port ss bit s
  | .clearTtBuffer slot hub port dev ep bulk dirIn => Sys2Proof.Machine.execClearTtBuffer slot hub port dev ep bulk dirIn s
  | .resetTt slot hub port => Sys2Proof.Machine.execResetTt slot hub port s
  | .stopTt slot hub port => Sys2Proof.Machine.execStopTt slot hub port s
  | .setAndTestPortL1 slot hub port besl rwe => Sys2Proof.Machine.execSetAndTestPortL1 slot hub port besl rwe s
  | .clearPortL1 slot hub port => Sys2Proof.Machine.execClearPortL1 slot hub port s
  | .getPortErrorCount slot hub port => Sys2Proof.Machine.execGetPortErrorCount slot hub port s
  | .setHubDepth slot hub depth => Sys2Proof.Machine.execSetHubDepth slot hub depth s
  | .setPortU1Timeout slot hub port v => Sys2Proof.Machine.execSetPortU1Timeout slot hub port v s
  | .setPortU2Timeout slot hub port v => Sys2Proof.Machine.execSetPortU2Timeout slot hub port v s
  | .setPortLinkState slot hub port v => Sys2Proof.Machine.execSetPortLinkState slot hub port v s
  | .setPortRemoteWakeMask slot hub port mask => Sys2Proof.Machine.execSetPortRemoteWakeMask slot hub port mask s
  | .ssPortReset slot hub port => Sys2Proof.Machine.execSsPortReset slot hub port s
  | .bhPortReset slot hub port => Sys2Proof.Machine.execBhPortReset slot hub port s
  | .forceLinkpmAccept slot hub port on => Sys2Proof.Machine.execForceLinkpmAccept slot hub port on s
  | .hubRequestResult src slot hub port words => Sys2Proof.Machine.execHubRequestResult src slot hub port words s
  | .portAssign c seq words => Sys2Proof.Machine.execPortAssign c seq words s
  | .kvmSet c seq words => Sys2Proof.Machine.execKvmSet c seq words s
  | .kvmButtonPress => Sys2Proof.Machine.execKvmButtonPress s
  | .handoffStepDone ix ms => Sys2Proof.Machine.execHandoffStepDone ix ms s
  | .handoffQuietEnd ix => Sys2Proof.Machine.execHandoffQuietEnd ix s
  | .linkTrained k lanes delay carry => Sys2Proof.Machine.execLinkTrained k lanes delay carry s
  | .linkTrainingFailed k => Sys2Proof.Machine.execLinkTrainingFailed k s
  | .linkRetryTimer k => Sys2Proof.Machine.execLinkRetryTimer k s
  | .linkRetrain m mask => Sys2Proof.Machine.execLinkRetrain m mask s
  | .linkIdleEntry k => Sys2Proof.Machine.execLinkIdleEntry k s
  | .linkNopTimer k => Sys2Proof.Machine.execLinkNopTimer k s
  | .ghelysLaneLost k upper => Sys2Proof.Machine.execGhelysLaneLost k upper s
  | .singleLaneRetrain k => Sys2Proof.Machine.execSingleLaneRetrain k s
  | .sleepIdleTimeout k => Sys2Proof.Machine.execSleepIdleTimeout k s
  | .sleepReq h => Sys2Proof.Machine.execSleepReq h s
  | .sleepAck h => Sys2Proof.Machine.execSleepAck h s
  | .sleepNak h => Sys2Proof.Machine.execSleepNak h s
  | .bellRing k => Sys2Proof.Machine.execBellRing k s
  | .bellRingRequest m mask => Sys2Proof.Machine.execBellRingRequest m mask s
  | .bellAccepted k => Sys2Proof.Machine.execBellAccepted k s
  | .bellTimeout k => Sys2Proof.Machine.execBellTimeout k s
  | .linkResumeDone k => Sys2Proof.Machine.execLinkResumeDone k s
  | .dataBaleReceived k header payload mark ecc => Sys2Proof.Machine.execDataBaleReceived k header payload mark ecc s
  | .nakReceived h seq => Sys2Proof.Machine.execNakReceived h seq s
  | .replayTimeout k => Sys2Proof.Machine.execReplayTimeout k s
  | .paramReceived k data ctrl => Sys2Proof.Machine.execParamReceived k data ctrl s
  | .helloReceived h uid hash barnId claimed peerLink flags lead => Sys2Proof.Machine.execHelloReceived h uid hash barnId claimed peerLink flags lead s
  | .probeReceived h => Sys2Proof.Machine.execProbeReceived h s
  | .probeReplyReceived h delay => Sys2Proof.Machine.execProbeReplyReceived h delay s
  | .heartbeatReceived h period => Sys2Proof.Machine.execHeartbeatReceived h period s
  | .heartbeatMiss k => Sys2Proof.Machine.execHeartbeatMiss k s
  | .linkDownReceived k => Sys2Proof.Machine.execLinkDownReceived k s
  | .noBaleTimeout k => Sys2Proof.Machine.execNoBaleTimeout k s
  | .blockLockLoss k => Sys2Proof.Machine.execBlockLockLoss k s
  | .linkDownNotice c ix => Sys2Proof.Machine.execLinkDownNotice c ix s
  | .resyncReceived c epoch => Sys2Proof.Machine.execResyncReceived c epoch s
  | .resyncAckReceived c epoch counts elapsed => Sys2Proof.Machine.execResyncAckReceived c epoch counts elapsed s
  | .lsaReceived c links members => Sys2Proof.Machine.execLsaReceived c links members s
  | .floodingRoundEnd => Sys2Proof.Machine.execFloodingRoundEnd s
  | .tablesReceived c t => Sys2Proof.Machine.execTablesReceived c t s
  | .tablesAckReceived c ver => Sys2Proof.Machine.execTablesAckReceived c ver s
  | .formedBroadcast ms => Sys2Proof.Machine.execFormedBroadcast ms s
  | .formedReceived c ms => Sys2Proof.Machine.execFormedReceived c ms s
  | .formationDeadline ms => Sys2Proof.Machine.execFormationDeadline ms s
  | .tableSwitch => Sys2Proof.Machine.execTableSwitch s
  | .flowOpenReceived c o => Sys2Proof.Machine.execFlowOpenReceived c o s
  | .flowRecordFree idx => Sys2Proof.Machine.execFlowRecordFree idx s
  | .deliveredReceived c counts => Sys2Proof.Machine.execDeliveredReceived c counts s
  | .deliveredTimer src idx => Sys2Proof.Machine.execDeliveredTimer src idx s
  | .loadReceived c loads => Sys2Proof.Machine.execLoadReceived c loads s
  | .rebalanceWindow => Sys2Proof.Machine.execRebalanceWindow s
  | .reseedReceived c seed => Sys2Proof.Machine.execReseedReceived c seed s
  | .proxyMessageReceived c reply seq words => Sys2Proof.Machine.execProxyMessageReceived c reply seq words s
  | .proxyTake stored => Sys2Proof.Machine.execProxyTake stored s
  | .attachDetect n cc2 ra acc => Sys2Proof.Machine.execAttachDetect n cc2 ra acc s
  | .ccAttachDebounceEnd n => Sys2Proof.Machine.execCcAttachDebounceEnd n s
  | .vbusDischarged n => Sys2Proof.Machine.execVbusDischarged n s
  | .detachDebounceEnd n => Sys2Proof.Machine.execDetachDebounceEnd n s
  | .sinkDetach n => Sys2Proof.Machine.execSinkDetach n s
  | .rdOpenDuringSlew n isOpen code => Sys2Proof.Machine.execRdOpenDuringSlew n isOpen code s
  | .drpToggle n => Sys2Proof.Machine.execDrpToggle n s
  | .trySnkTimeout n => Sys2Proof.Machine.execTrySnkTimeout n s
  | .errorRecoveryEnd n => Sys2Proof.Machine.execErrorRecoveryEnd n s
  | .discoverIdentityAttempt n answered amp5 eprOk maxV => Sys2Proof.Machine.execDiscoverIdentityAttempt n answered amp5 eprOk maxV s
  | .sourceCapTimer n goodCrc => Sys2Proof.Machine.execSourceCapTimer n goodCrc s
  | .ping n hdr => Sys2Proof.Machine.execPing n hdr s
  | .getSourceCap n hdr => Sys2Proof.Machine.execGetSourceCap n hdr s
  | .getSinkCap n hdr ext => Sys2Proof.Machine.execGetSinkCap n hdr ext s
  | .getSourceCapExtended n hdr info => Sys2Proof.Machine.execGetSourceCapExtended n hdr info s
  | .getStatus n hdr => Sys2Proof.Machine.execGetStatus n hdr s
  | .getPpsStatus n hdr => Sys2Proof.Machine.execGetPpsStatus n hdr s
  | .getRevision n hdr => Sys2Proof.Machine.execGetRevision n hdr s
  | .softReset n hdr => Sys2Proof.Machine.execSoftReset n hdr s
  | .vconnSwap n hdr => Sys2Proof.Machine.execVconnSwap n hdr s
  | .psRdyReceived n hdr => Sys2Proof.Machine.execPsRdyReceived n hdr s
  | .unsupportedPdMessage n hdr => Sys2Proof.Machine.execUnsupportedPdMessage n hdr s
  | .bist n hdr carrier => Sys2Proof.Machine.execBist n hdr carrier s
  | .sourceCapabilities n hdr objs epr => Sys2Proof.Machine.execSourceCapabilities n hdr objs epr s
  | .pdRequest n hdr rdo => Sys2Proof.Machine.execPdRequest n hdr rdo s
  | .eprModeEnter n hdr => Sys2Proof.Machine.execEprModeEnter n hdr s
  | .eprModeExit n hdr => Sys2Proof.Machine.execEprModeExit n hdr s
  | .eprGetSourceCap n hdr => Sys2Proof.Machine.execEprGetSourceCap n hdr s
  | .eprGetSinkCap n hdr => Sys2Proof.Machine.execEprGetSinkCap n hdr s
  | .eprKeepalive n hdr => Sys2Proof.Machine.execEprKeepalive n hdr s
  | .pdAlert n hdr ado => Sys2Proof.Machine.execPdAlert n hdr ado s
  | .pdInfoReceived n hdr data => Sys2Proof.Machine.execPdInfoReceived n hdr data s
  | .discoverIdentity n hdr => Sys2Proof.Machine.execDiscoverIdentity n hdr s
  | .discoverSvids n hdr => Sys2Proof.Machine.execDiscoverSvids n hdr s
  | .discoverModes n hdr => Sys2Proof.Machine.execDiscoverModes n hdr s
  | .enterMode n hdr => Sys2Proof.Machine.execEnterMode n hdr s
  | .exitMode n hdr => Sys2Proof.Machine.execExitMode n hdr s
  | .dpStatusUpdate n hdr => Sys2Proof.Machine.execDpStatusUpdate n hdr s
  | .dpConfigure n hdr ufpD pins => Sys2Proof.Machine.execDpConfigure n hdr ufpD pins s
  | .otherStructuredVdm n hdr => Sys2Proof.Machine.execOtherStructuredVdm n hdr s
  | .unstructuredVdm n hdr => Sys2Proof.Machine.execUnstructuredVdm n hdr s
  | .hardResetReceived n => Sys2Proof.Machine.execHardResetReceived n s
  | .senderResponseTimeout n => Sys2Proof.Machine.execSenderResponseTimeout n s
  | .ppsTimeout n => Sys2Proof.Machine.execPpsTimeout n s
  | .eprKeepaliveTimeout n => Sys2Proof.Machine.execEprKeepaliveTimeout n s
  | .psHardResetTimer n => Sys2Proof.Machine.execPsHardResetTimer n s
  | .srcRecoverEnd n => Sys2Proof.Machine.execSrcRecoverEnd n s
  | .srcTransitionEnd n => Sys2Proof.Machine.execSrcTransitionEnd n s
  | .slewDone n => Sys2Proof.Machine.execSlewDone n s
  | .settleDone n => Sys2Proof.Machine.execSettleDone n s
  | .psRdyTimeout n => Sys2Proof.Machine.execPsRdyTimeout n s
  | .vsetTrim n mv limiting => Sys2Proof.Machine.execVsetTrim n mv limiting s
  | .vconnOvercurrent n => Sys2Proof.Machine.execVconnOvercurrent n s
  | .ccOvervoltage n => Sys2Proof.Machine.execCcOvervoltage n s
  | .hpdLevelChange u high => Sys2Proof.Machine.execHpdLevelChange u high s
  | .irqHpd u => Sys2Proof.Machine.execIrqHpd u s
  | .billboardTimeout u => Sys2Proof.Machine.execBillboardTimeout u s
  | .billboardReconnect u => Sys2Proof.Machine.execBillboardReconnect u s
  | .fastTrip n onMs => Sys2Proof.Machine.execFastTrip n onMs s
  | .slowTrip n onMs => Sys2Proof.Machine.execSlowTrip n onMs s
  | .slowTimerReset n => Sys2Proof.Machine.execSlowTimerReset n s
  | .undervoltageTrip n onMs => Sys2Proof.Machine.execUndervoltageTrip n onMs s
  | .rampStart n => Sys2Proof.Machine.execRampStart n s
  | .rampComplete n gateOk => Sys2Proof.Machine.execRampComplete n gateOk s
  | .rampFail n onMs => Sys2Proof.Machine.execRampFail n onMs s
  | .attemptWindowEnd n => Sys2Proof.Machine.execAttemptWindowEnd n s
  | .retryWaitEnd n => Sys2Proof.Machine.execRetryWaitEnd n s
  | .pgStableTimer n => Sys2Proof.Machine.execPgStableTimer n s
  | .unseatedResetTimer n => Sys2Proof.Machine.execUnseatedResetTimer n s
  | .seatDebounceEnd ix => Sys2Proof.Machine.execSeatDebounceEnd ix s
  | .seatRemoval ix => Sys2Proof.Machine.execSeatRemoval ix s
  | .gateStuck n onMs => Sys2Proof.Machine.execGateStuck n onMs s
  | .dischargeDone n => Sys2Proof.Machine.execDischargeDone n s
  | .dischargeTimeout n => Sys2Proof.Machine.execDischargeTimeout n s
  | .vbusRisingGateOff n => Sys2Proof.Machine.execVbusRisingGateOff n s
  | .pgAssert n timer gateOk => Sys2Proof.Machine.execPgAssert n timer gateOk s
  | .pgHoldEnd n => Sys2Proof.Machine.execPgHoldEnd n s
  | .telemetryFrame f => Sys2Proof.Machine.execTelemetryFrame f s
  | .firstUseEnd n => Sys2Proof.Machine.execFirstUseEnd n s
  | .tlmEnergyLoRead m n => Sys2Proof.Machine.execTlmEnergyLoRead m n s
  | .tlmEclrWrite m mask => Sys2Proof.Machine.execTlmEclrWrite m mask s
  | .pwrwarnAssert cause => Sys2Proof.Machine.execPwrwarnAssert cause s
  | .pwrwarnRelease => Sys2Proof.Machine.execPwrwarnRelease s
  | .vinUndervoltage => Sys2Proof.Machine.execVinUndervoltage s
  | .budgetReduce => Sys2Proof.Machine.execBudgetReduce s
  | .budgetShed onMs => Sys2Proof.Machine.execBudgetShed onMs s
  | .budgetPeriodicReview => Sys2Proof.Machine.execBudgetPeriodicReview s
  | .ppwClearWrite m mask => Sys2Proof.Machine.execPpwClearWrite m mask s
  | .pdcMyvoteWrite m d v => Sys2Proof.Machine.execPdcMyvoteWrite m d v s
  | .accessHoldEnd m d => Sys2Proof.Machine.execAccessHoldEnd m d s
  | .domainEntryStepDone d => Sys2Proof.Machine.execDomainEntryStepDone d s
  | .switchOpenTimeout d => Sys2Proof.Machine.execSwitchOpenTimeout d s
  | .domainExitStepDone d late refused => Sys2Proof.Machine.execDomainExitStepDone d late refused s
  | .domainExitTimeout d => Sys2Proof.Machine.execDomainExitTimeout d s
  | .domainExitRetry d => Sys2Proof.Machine.execDomainExitRetry d s
  | .crystalStop => Sys2Proof.Machine.execCrystalStop s
  | .crystalRestart => Sys2Proof.Machine.execCrystalRestart s
  | .restingDomainAccess m addr data => Sys2Proof.Machine.execRestingDomainAccess m addr data s
  | .autoWakeAccess m addr data => Sys2Proof.Machine.execAutoWakeAccess m addr data s
  | .autoWakeWrite m on => Sys2Proof.Machine.execAutoWakeWrite m on s
  | .inboundPost m c reply seq count => Sys2Proof.Machine.execInboundPost m c reply seq count s
  | .messageConsume c reports => Sys2Proof.Machine.execMessageConsume c reports s
  | .inboundPoll => Sys2Proof.Machine.execInboundPoll s
  | .outboundAck m c => Sys2Proof.Machine.execOutboundAck m c s
  | .outboundTimeout c => Sys2Proof.Machine.execOutboundTimeout c s
  | .mbxLockRead m ix => Sys2Proof.Machine.execMbxLockRead m ix s
  | .mbxLockWrite m ix w => Sys2Proof.Machine.execMbxLockWrite m ix w s
  | .mbxSend slot wValue wIndex wLength ctrl words => Sys2Proof.Machine.execMbxSend slot wValue wIndex wLength ctrl words s
  | .mbxSendComplete slot => Sys2Proof.Machine.execMbxSendComplete slot s
  | .msgNakTimeout slot => Sys2Proof.Machine.execMsgNakTimeout slot s
  | .mbxRecv slot wValue wIndex wLength => Sys2Proof.Machine.execMbxRecv slot wValue wIndex wLength s
  | .mbxAck slot wValue wIndex wLength => Sys2Proof.Machine.execMbxAck slot wValue wIndex wLength s
  | .regRead slot addr len => Sys2Proof.Machine.execRegRead slot addr len s
  | .regWrite slot addr wLength words => Sys2Proof.Machine.execRegWrite slot addr wLength words s
  | .regWriteFixed slot addr wLength words => Sys2Proof.Machine.execRegWriteFixed slot addr wLength words s
  | .queueSelect slot wValue wIndex wLength => Sys2Proof.Machine.execQueueSelect slot wValue wIndex wLength s
  | .ep1Report slot ack => Sys2Proof.Machine.execEp1Report slot ack s
  | .ep2PacketAck slot => Sys2Proof.Machine.execEp2PacketAck slot s
  | .ep3BulkData slot bytes => Sys2Proof.Machine.execEp3BulkData slot bytes s
  | .i2cWrite addr bytes => Sys2Proof.Machine.execI2cWrite addr bytes s
  | .i2cRead addr n => Sys2Proof.Machine.execI2cRead addr n s
  | .smbusAlertResponse => Sys2Proof.Machine.execSmbusAlertResponse s
  | .spiWrite addr bytes => Sys2Proof.Machine.execSpiWrite addr bytes s
  | .spiRead addr n => Sys2Proof.Machine.execSpiRead addr n s
  | .spiStatus => Sys2Proof.Machine.execSpiStatus s
  | .sidebandStallTimeout spi => Sys2Proof.Machine.execSidebandStallTimeout spi s
  | .info c seq words => Sys2Proof.Machine.execInfo c seq words s
  | .modeGet c seq words => Sys2Proof.Machine.execModeGet c seq words s
  | .portStatus c seq words => Sys2Proof.Machine.execPortStatus c seq words s
  | .portPower c seq words => Sys2Proof.Machine.execPortPower c seq words s
  | .portPowerCycleRelease n => Sys2Proof.Machine.execPortPowerCycleRelease n s
  | .pdStatus c seq words => Sys2Proof.Machine.execPdStatus c seq words s
  | .pdPolicy c seq words => Sys2Proof.Machine.execPdPolicy c seq words s
  | .sourceCapsSet c seq words => Sys2Proof.Machine.execSourceCapsSet c seq words s
  | .tlmRead c seq words => Sys2Proof.Machine.execTlmRead c seq words s
  | .energyRead c seq words => Sys2Proof.Machine.execEnergyRead c seq words s
  | .budgetSet c seq words => Sys2Proof.Machine.execBudgetSet c seq words s
  | .fabricStatus c seq words => Sys2Proof.Machine.execFabricStatus c seq words s
  | .fabricReseed c seq words => Sys2Proof.Machine.execFabricReseed c seq words s
  | .queueConfig c seq words => Sys2Proof.Machine.execQueueConfig c seq words s
  | .pmuConfig c seq words => Sys2Proof.Machine.execPmuConfig c seq words s
  | .faultStatus c seq words => Sys2Proof.Machine.execFaultStatus c seq words s
  | .faultClear c seq words => Sys2Proof.Machine.execFaultClear c seq words s
  | .dumpRead c seq words => Sys2Proof.Machine.execDumpRead c seq words s
  | .sessionOpen c seq words => Sys2Proof.Machine.execSessionOpen c seq words s
  | .sessionClose c seq words => Sys2Proof.Machine.execSessionClose c seq words s
  | .sessionIdleTimeout c => Sys2Proof.Machine.execSessionIdleTimeout c s
  | .regPeek c seq words => Sys2Proof.Machine.execRegPeek c seq words s
  | .regPoke c seq words => Sys2Proof.Machine.execRegPoke c seq words s
  | .timelineAdd c seq words => Sys2Proof.Machine.execTimelineAdd c seq words s
  | .timelineDel c seq words => Sys2Proof.Machine.execTimelineDel c seq words s
  | .queueRecordWrite q flying => Sys2Proof.Machine.execQueueRecordWrite q flying s
  | .queueDataRead m q => Sys2Proof.Machine.execQueueDataRead m q s
  | .queueReadStallTimeout q => Sys2Proof.Machine.execQueueReadStallTimeout q s
  | .queueTimeout q => Sys2Proof.Machine.execQueueTimeout q s
  | .queueReset m q => Sys2Proof.Machine.execQueueReset m q s
  | .pmuClear m ix => Sys2Proof.Machine.execPmuClear m ix s
  | .faultRaised src q aux => Sys2Proof.Machine.execFaultRaised src q aux s
  | .fltClearWrite m src all qual => Sys2Proof.Machine.execFltClearWrite m src all qual s
  | .forceFault m src qual => Sys2Proof.Machine.execForceFault m src qual s
  | .checkerInvert m mask => Sys2Proof.Machine.execCheckerInvert m mask s
  | .selfCheck ok => Sys2Proof.Machine.execSelfCheck ok s
  | .watchdogExpire third => Sys2Proof.Machine.execWatchdogExpire third s
  | .mgtException pc third => Sys2Proof.Machine.execMgtException pc third s
  | .managementRestartDone handed => Sys2Proof.Machine.execManagementRestartDone handed s
  | .dumpWrite soon trace => Sys2Proof.Machine.execDumpWrite soon trace s
  | .dumpFlashDone => Sys2Proof.Machine.execDumpFlashDone s
  | .expertKeyWrite m k v => Sys2Proof.Machine.execExpertKeyWrite m k v s
  | .registerWrite m addr w => Sys2Proof.Machine.execRegisterWrite m addr w s
  | .jtagTapLeaveTestLogicReset => Sys2Proof.Machine.execJtagTapLeaveTestLogicReset s
  | .seatInputChange ix low => Sys2Proof.Machine.execSeatInputChange ix low s
  | .sinkAttach n cc2 rp => Sys2Proof.Machine.execSinkAttach n cc2 rp s
  | .acceptReceived n hdr ans => Sys2Proof.Machine.execAcceptReceived n hdr ans s
  | .uspLgoReceived u u2 => Sys2Proof.Machine.execUspLgoReceived u u2 s
  | .standardDeviceRequest slot hub ss r => Sys2Proof.Machine.execStandardDeviceRequest slot hub ss r s
  | .rxDetectPartnerFound n => Sys2Proof.Machine.execRxDetectPartnerFound n s
  | .carryReceiverActivity k => Sys2Proof.Machine.execCarryReceiverActivity k s
  | .isolatedHelloTimer k => Sys2Proof.Machine.execIsolatedHelloTimer k s
  | .linkNopReceived h => Sys2Proof.Machine.execLinkNopReceived h s
  | .vdpSrcDetected n => Sys2Proof.Machine.execVdpSrcDetected n s

end Sys2Proof.Machine
end

