-- ==== Sys2Proof/Machine/Step.lean ====
section
/-!
DEFINITION. One step of the block: the command at the front of the queue, or, with nothing waiting, one core cycle
(log entry 47). The two entry points the host asks with stand here too: the table gives no row any bits, so no word
spells a command.
-/
namespace Sys2Proof.Machine

/-- One step: the front command with the queue's rest, or a core cycle. -/
def step (s : State) : Host.Outcome State Fault Refusal :=
  match s.pending with
  | [] => .next s.tick
  | c :: rest => exec c { s with pending := rest }

/-- The command a word spells, put at the front of the queue: the table spells none (spec/opcode_table.json). -/
def State.withFetchWord (s : State) (nbits w : Nat) : State :=
  match decodeTableWord nbits w with
  | some c => { s with pending := c :: s.pending }
  | none => s

end Sys2Proof.Machine
end

