-- ==== Sys2Proof/Safety.lean ====
section
/-!
DEFINITION. The terms the statements use: a command's effect, the parts of the state and the registers a command may
change, and the invariant of the register list.
-/
namespace Sys2Proof.Machine

/-- A command answers a next state, and that state is as `P` says. -/
def Does (i : Instr) (s : State) (P : State → Prop) : Prop := ∃ t, exec i s = .next t ∧ P t

/-- The state in which the checks of a HELLO are made (R181): its header and the peer it names have been taken. -/
def State.helloSeen (s : State) (h : BaleHdr) (claimed peerLink uid : Nat) : State :=
  (((s.rxLink h).p (GLK_LINK.PEER_MEMBER h.link) claimed).p (GLK_LINK.PEER_LINK h.link) peerLink).lkMod h.link fun l =>
    { l with peerUid := uid }

/-- The parts of the state besides the registers, the outputs, the queue and the cycle count: one for each field of
`State`. -/
inductive Part where
  | plan | obs | yards | pat | pred | pdc | chan | tlm | bud | tcp | ss | otp | pln | boot | hs | tt | ttOp | glk | fab | port | mirror | hubWaits | holders | handoff | flt | tml | tack | dp | mbx | pass | proxyHeld | msg | expert | sbTimedOut | tmlOld | epMem
  deriving DecidableEq, Repr

/-- A part is the same in two states. -/
def Part.same (s t : State) : Part → Prop
  | .plan => t.plan = s.plan
  | .obs => t.obs = s.obs
  | .yards => t.yards = s.yards
  | .pat => t.pat = s.pat
  | .pred => t.pred = s.pred
  | .pdc => t.pdc = s.pdc
  | .chan => t.chan = s.chan
  | .tlm => t.tlm = s.tlm
  | .bud => t.bud = s.bud
  | .tcp => t.tcp = s.tcp
  | .ss => t.ss = s.ss
  | .otp => t.otp = s.otp
  | .pln => t.pln = s.pln
  | .boot => t.boot = s.boot
  | .hs => t.hs = s.hs
  | .tt => t.tt = s.tt
  | .ttOp => t.ttOp = s.ttOp
  | .glk => t.glk = s.glk
  | .fab => t.fab = s.fab
  | .port => t.port = s.port
  | .mirror => t.mirror = s.mirror
  | .hubWaits => t.hubWaits = s.hubWaits
  | .holders => t.holders = s.holders
  | .handoff => t.handoff = s.handoff
  | .flt => t.flt = s.flt
  | .tml => t.tml = s.tml
  | .tack => t.tack = s.tack
  | .dp => t.dp = s.dp
  | .mbx => t.mbx = s.mbx
  | .pass => t.pass = s.pass
  | .proxyHeld => t.proxyHeld = s.proxyHeld
  | .msg => t.msg = s.msg
  | .expert => t.expert = s.expert
  | .sbTimedOut => t.sbTimedOut = s.sbTimedOut
  | .tmlOld => t.tmlOld = s.tmlOld
  | .epMem => t.epMem = s.epMem

/-- The registers of the register map, an array of them under one name; `any` stands for the whole map. -/
inductive Reg where
  | PLN_STATUS | PLN_ACTIVE_ID | PLN_ACTIVE_BUILD | PLN_FLOOR | PLN_KEYS | PLN_SLOT_SEQ | PLN_HASH | YRD_CTRL
  | YRD_STATUS | YRD_NOW_LO | YRD_NOW_HI | YRD_RATE | YRD_STEP | YRD_BARN | TML_CTRL | TML_SEL | TML_E_TIME_LO
  | TML_E_TIME_HI | TML_E_CTRL | TML_E_REPEAT | TML_E_ARG | TML_STATUS | TML_PRED | TML_PAT | TML_LEAD | SSH_CTRL
  | SSH_CTX | SSH_PORT | SSH_PORT_LPM | SSH_PORT_EVT | SSH_DROPS | SSH_USP_LPM | SSH_PTM | SSH_ITP | SSH_ITP_REGEN
  | SSH_X_TUNE | SSH_X_VOTE | PBF_CTRL | PBF_STATUS | PBF_SHARED | PBF_SHARED_FREE | PBF_BANK_FREE | PBF_RESV
  | PBF_USED | PBF_EVT | PBF_ECC_COUNT | PBF_X_TUNE | PBF_X_ARB | HSH_CTRL | HSH_ENG | HSH_PORT | HSH_PORT_EVT
  | HSH_CARRY | HSH_EVT | HSH_ORDERS | HSH_X_TUNE | TTA_CTRL | TTA_TT | TTA_EVT | TTA_COUNT | TTA_CMD | TTA_X_TUNE
  | UPP_PADDOCK | UPP_MIR_SEL | UPP_MIR_HS | UPP_MIR_SS | UPP_MIR_INFO | UPP_HANDOFF | UPP_EVT | UPP_X_HANDOFF
  | GLK_CTRL | GLK_LINK | GLK_DELAY | GLK_ERR | GLK_EVT | GLK_HB | GLK_WAKE | GLK_X_TUNE | DRV_CTRL | DRV_BARN
  | DRV_ROUTE | DRV_LOAD | DRV_FLOWS | DRV_REBAL | DRV_SEED_LO | DRV_SEED_HI | DRV_REROUTE | DRV_EVT | DRV_X_WRR
  | DRV_X_REBAL | TCP_CTRL | TCP_PORT | TCP_CONTRACT | TCP_VSET | TCP_CABLE | TCP_EVT | TCP_DP | TCP_X_TIMER
  | PPW_CTRL | PPW_PG | PPW_SEAT | PPW_CLEAR | PPW_RAMP | PPW_LIMIT | PPW_TRIP | PPW_RETRY | PPW_STATUS | PPW_EVT
  | PPW_X_GATE | TLM_CTRL | TLM_ECLR | TLM_INPUT | TLM_TEMP | TLM_INWARN | TLM_INST | TLM_AVG1MS | TLM_AVG100MS
  | TLM_AVG1S | TLM_PWR | TLM_ENERGY_LO | TLM_ENERGY_HI | TLM_PEAK | BUD_CTRL | BUD_STATUS | BUD_STATE | BUD_EVT
  | BUD_PORT | BUD_RLIM | BUD_X_CTRL | BUD_X_WARN | PDC_CTRL | PDC_STATE | PDC_STICKY | PDC_XTAL | PDC_DOM | PDC_VOTE
  | PDC_MYVOTE | PDC_CFG | PDC_RETUS | PDC_X_TIME | MBX_IN_W | MBX_OUT_W | MBX_IN_CTRL | MBX_OUT_CTRL | MBX_DB
  | MBX_STATUS | MBX_ASSIGN | MBX_LOCK | MBX_LOCK_OWN_LO | MBX_LOCK_OWN_HI | MBX_ERR | MBX_X_CTRL | TKR_CTRL
  | TKR_FUNC | TKR_EVT | TKR_SB | TKR_ALERT | TKR_ALERT_EN | TKR_AUTH | TKR_X_CTRL | OBS_Q_CTRL | OBS_Q_DATA
  | OBS_Q_STATUS | OBS_Q_PTR | OBS_Q_LOST | OBS_CYCLE_LO | OBS_CYCLE_HI | OBS_PMU_CTRL | OBS_PMU_OVF | OBS_PMU_EVT
  | OBS_PMU_LO | OBS_PMU_HI | FLT_STATUS | FLT_PINS | FLT_DUMP | FLT_STICKY | FLT_CLEAR | FLT_SEV | FLT_ALERT
  | FLT_QUAL | FLT_X_FORCE | FLT_X_INVERT | TOP_ID | TOP_STRAP | TOP_MODE | TOP_RESET_CAUSE | TOP_BOOT_TIME
  | TOP_X_RESET | TOP_EXPERT_KEY | TOP_EXPERT | TOP_BUS_ERR | STL_STALL | STL_LANE | GPI_CFG | GPI_IN | GPI_OUT | any
  deriving DecidableEq, Repr

/-- Is the address one of a register, or of one of an array of registers? -/
def Reg.has : Reg → Nat → Prop
  | .PLN_STATUS, a => a = PLN_STATUS.addr
  | .PLN_ACTIVE_ID, a => a = PLN_ACTIVE_ID.addr
  | .PLN_ACTIVE_BUILD, a => a = PLN_ACTIVE_BUILD.addr
  | .PLN_FLOOR, a => a = PLN_FLOOR.addr
  | .PLN_KEYS, a => a = PLN_KEYS.addr
  | .PLN_SLOT_SEQ, a => ∃ n, a = PLN_SLOT_SEQ.addr n
  | .PLN_HASH, a => ∃ n, a = PLN_HASH.addr n
  | .YRD_CTRL, a => a = YRD_CTRL.addr
  | .YRD_STATUS, a => ∃ n, a = YRD_STATUS.addr n
  | .YRD_NOW_LO, a => ∃ n, a = YRD_NOW_LO.addr n
  | .YRD_NOW_HI, a => ∃ n, a = YRD_NOW_HI.addr n
  | .YRD_RATE, a => ∃ n, a = YRD_RATE.addr n
  | .YRD_STEP, a => ∃ n, a = YRD_STEP.addr n
  | .YRD_BARN, a => a = YRD_BARN.addr
  | .TML_CTRL, a => a = TML_CTRL.addr
  | .TML_SEL, a => a = TML_SEL.addr
  | .TML_E_TIME_LO, a => a = TML_E_TIME_LO.addr
  | .TML_E_TIME_HI, a => a = TML_E_TIME_HI.addr
  | .TML_E_CTRL, a => a = TML_E_CTRL.addr
  | .TML_E_REPEAT, a => a = TML_E_REPEAT.addr
  | .TML_E_ARG, a => a = TML_E_ARG.addr
  | .TML_STATUS, a => a = TML_STATUS.addr
  | .TML_PRED, a => ∃ n, a = TML_PRED.addr n
  | .TML_PAT, a => ∃ n, a = TML_PAT.addr n
  | .TML_LEAD, a => a = TML_LEAD.addr
  | .SSH_CTRL, a => a = SSH_CTRL.addr
  | .SSH_CTX, a => ∃ n, a = SSH_CTX.addr n
  | .SSH_PORT, a => ∃ n, a = SSH_PORT.addr n
  | .SSH_PORT_LPM, a => ∃ n, a = SSH_PORT_LPM.addr n
  | .SSH_PORT_EVT, a => ∃ n, a = SSH_PORT_EVT.addr n
  | .SSH_DROPS, a => a = SSH_DROPS.addr
  | .SSH_USP_LPM, a => ∃ n, a = SSH_USP_LPM.addr n
  | .SSH_PTM, a => ∃ n, a = SSH_PTM.addr n
  | .SSH_ITP, a => ∃ n, a = SSH_ITP.addr n
  | .SSH_ITP_REGEN, a => a = SSH_ITP_REGEN.addr
  | .SSH_X_TUNE, a => a = SSH_X_TUNE.addr
  | .SSH_X_VOTE, a => a = SSH_X_VOTE.addr
  | .PBF_CTRL, a => a = PBF_CTRL.addr
  | .PBF_STATUS, a => a = PBF_STATUS.addr
  | .PBF_SHARED, a => a = PBF_SHARED.addr
  | .PBF_SHARED_FREE, a => a = PBF_SHARED_FREE.addr
  | .PBF_BANK_FREE, a => ∃ n, a = PBF_BANK_FREE.addr n
  | .PBF_RESV, a => ∃ n, a = PBF_RESV.addr n
  | .PBF_USED, a => ∃ n, a = PBF_USED.addr n
  | .PBF_EVT, a => a = PBF_EVT.addr
  | .PBF_ECC_COUNT, a => a = PBF_ECC_COUNT.addr
  | .PBF_X_TUNE, a => a = PBF_X_TUNE.addr
  | .PBF_X_ARB, a => a = PBF_X_ARB.addr
  | .HSH_CTRL, a => a = HSH_CTRL.addr
  | .HSH_ENG, a => ∃ n, a = HSH_ENG.addr n
  | .HSH_PORT, a => ∃ n, a = HSH_PORT.addr n
  | .HSH_PORT_EVT, a => ∃ n, a = HSH_PORT_EVT.addr n
  | .HSH_CARRY, a => ∃ n, a = HSH_CARRY.addr n
  | .HSH_EVT, a => a = HSH_EVT.addr
  | .HSH_ORDERS, a => a = HSH_ORDERS.addr
  | .HSH_X_TUNE, a => a = HSH_X_TUNE.addr
  | .TTA_CTRL, a => a = TTA_CTRL.addr
  | .TTA_TT, a => ∃ n, a = TTA_TT.addr n
  | .TTA_EVT, a => ∃ n, a = TTA_EVT.addr n
  | .TTA_COUNT, a => ∃ n, a = TTA_COUNT.addr n
  | .TTA_CMD, a => a = TTA_CMD.addr
  | .TTA_X_TUNE, a => a = TTA_X_TUNE.addr
  | .UPP_PADDOCK, a => ∃ n, a = UPP_PADDOCK.addr n
  | .UPP_MIR_SEL, a => a = UPP_MIR_SEL.addr
  | .UPP_MIR_HS, a => a = UPP_MIR_HS.addr
  | .UPP_MIR_SS, a => a = UPP_MIR_SS.addr
  | .UPP_MIR_INFO, a => a = UPP_MIR_INFO.addr
  | .UPP_HANDOFF, a => a = UPP_HANDOFF.addr
  | .UPP_EVT, a => a = UPP_EVT.addr
  | .UPP_X_HANDOFF, a => a = UPP_X_HANDOFF.addr
  | .GLK_CTRL, a => a = GLK_CTRL.addr
  | .GLK_LINK, a => ∃ n, a = GLK_LINK.addr n
  | .GLK_DELAY, a => ∃ n, a = GLK_DELAY.addr n
  | .GLK_ERR, a => ∃ n, a = GLK_ERR.addr n
  | .GLK_EVT, a => ∃ n, a = GLK_EVT.addr n
  | .GLK_HB, a => ∃ n, a = GLK_HB.addr n
  | .GLK_WAKE, a => a = GLK_WAKE.addr
  | .GLK_X_TUNE, a => a = GLK_X_TUNE.addr
  | .DRV_CTRL, a => a = DRV_CTRL.addr
  | .DRV_BARN, a => a = DRV_BARN.addr
  | .DRV_ROUTE, a => ∃ n, a = DRV_ROUTE.addr n
  | .DRV_LOAD, a => ∃ n, a = DRV_LOAD.addr n
  | .DRV_FLOWS, a => a = DRV_FLOWS.addr
  | .DRV_REBAL, a => a = DRV_REBAL.addr
  | .DRV_SEED_LO, a => a = DRV_SEED_LO.addr
  | .DRV_SEED_HI, a => a = DRV_SEED_HI.addr
  | .DRV_REROUTE, a => a = DRV_REROUTE.addr
  | .DRV_EVT, a => a = DRV_EVT.addr
  | .DRV_X_WRR, a => a = DRV_X_WRR.addr
  | .DRV_X_REBAL, a => a = DRV_X_REBAL.addr
  | .TCP_CTRL, a => a = TCP_CTRL.addr
  | .TCP_PORT, a => ∃ n, a = TCP_PORT.addr n
  | .TCP_CONTRACT, a => ∃ n, a = TCP_CONTRACT.addr n
  | .TCP_VSET, a => ∃ n, a = TCP_VSET.addr n
  | .TCP_CABLE, a => ∃ n, a = TCP_CABLE.addr n
  | .TCP_EVT, a => ∃ n, a = TCP_EVT.addr n
  | .TCP_DP, a => ∃ n, a = TCP_DP.addr n
  | .TCP_X_TIMER, a => a = TCP_X_TIMER.addr
  | .PPW_CTRL, a => a = PPW_CTRL.addr
  | .PPW_PG, a => a = PPW_PG.addr
  | .PPW_SEAT, a => a = PPW_SEAT.addr
  | .PPW_CLEAR, a => a = PPW_CLEAR.addr
  | .PPW_RAMP, a => ∃ n, a = PPW_RAMP.addr n
  | .PPW_LIMIT, a => ∃ n, a = PPW_LIMIT.addr n
  | .PPW_TRIP, a => ∃ n, a = PPW_TRIP.addr n
  | .PPW_RETRY, a => ∃ n, a = PPW_RETRY.addr n
  | .PPW_STATUS, a => ∃ n, a = PPW_STATUS.addr n
  | .PPW_EVT, a => ∃ n, a = PPW_EVT.addr n
  | .PPW_X_GATE, a => a = PPW_X_GATE.addr
  | .TLM_CTRL, a => a = TLM_CTRL.addr
  | .TLM_ECLR, a => a = TLM_ECLR.addr
  | .TLM_INPUT, a => a = TLM_INPUT.addr
  | .TLM_TEMP, a => a = TLM_TEMP.addr
  | .TLM_INWARN, a => a = TLM_INWARN.addr
  | .TLM_INST, a => ∃ n, a = TLM_INST.addr n
  | .TLM_AVG1MS, a => ∃ n, a = TLM_AVG1MS.addr n
  | .TLM_AVG100MS, a => ∃ n, a = TLM_AVG100MS.addr n
  | .TLM_AVG1S, a => ∃ n, a = TLM_AVG1S.addr n
  | .TLM_PWR, a => ∃ n, a = TLM_PWR.addr n
  | .TLM_ENERGY_LO, a => ∃ n, a = TLM_ENERGY_LO.addr n
  | .TLM_ENERGY_HI, a => ∃ n, a = TLM_ENERGY_HI.addr n
  | .TLM_PEAK, a => ∃ n, a = TLM_PEAK.addr n
  | .BUD_CTRL, a => a = BUD_CTRL.addr
  | .BUD_STATUS, a => a = BUD_STATUS.addr
  | .BUD_STATE, a => a = BUD_STATE.addr
  | .BUD_EVT, a => a = BUD_EVT.addr
  | .BUD_PORT, a => ∃ n, a = BUD_PORT.addr n
  | .BUD_RLIM, a => ∃ n, a = BUD_RLIM.addr n
  | .BUD_X_CTRL, a => a = BUD_X_CTRL.addr
  | .BUD_X_WARN, a => a = BUD_X_WARN.addr
  | .PDC_CTRL, a => a = PDC_CTRL.addr
  | .PDC_STATE, a => a = PDC_STATE.addr
  | .PDC_STICKY, a => a = PDC_STICKY.addr
  | .PDC_XTAL, a => a = PDC_XTAL.addr
  | .PDC_DOM, a => ∃ n, a = PDC_DOM.addr n
  | .PDC_VOTE, a => ∃ n, a = PDC_VOTE.addr n
  | .PDC_MYVOTE, a => ∃ n, a = PDC_MYVOTE.addr n
  | .PDC_CFG, a => ∃ n, a = PDC_CFG.addr n
  | .PDC_RETUS, a => ∃ n, a = PDC_RETUS.addr n
  | .PDC_X_TIME, a => a = PDC_X_TIME.addr
  | .MBX_IN_W, a => ∃ c w, a = MBX_IN_W.addr c w
  | .MBX_OUT_W, a => ∃ c w, a = MBX_OUT_W.addr c w
  | .MBX_IN_CTRL, a => ∃ n, a = MBX_IN_CTRL.addr n
  | .MBX_OUT_CTRL, a => ∃ n, a = MBX_OUT_CTRL.addr n
  | .MBX_DB, a => ∃ n, a = MBX_DB.addr n
  | .MBX_STATUS, a => ∃ n, a = MBX_STATUS.addr n
  | .MBX_ASSIGN, a => ∃ n, a = MBX_ASSIGN.addr n
  | .MBX_LOCK, a => ∃ n, a = MBX_LOCK.addr n
  | .MBX_LOCK_OWN_LO, a => a = MBX_LOCK_OWN_LO.addr
  | .MBX_LOCK_OWN_HI, a => a = MBX_LOCK_OWN_HI.addr
  | .MBX_ERR, a => a = MBX_ERR.addr
  | .MBX_X_CTRL, a => a = MBX_X_CTRL.addr
  | .TKR_CTRL, a => a = TKR_CTRL.addr
  | .TKR_FUNC, a => ∃ n, a = TKR_FUNC.addr n
  | .TKR_EVT, a => ∃ n, a = TKR_EVT.addr n
  | .TKR_SB, a => a = TKR_SB.addr
  | .TKR_ALERT, a => a = TKR_ALERT.addr
  | .TKR_ALERT_EN, a => a = TKR_ALERT_EN.addr
  | .TKR_AUTH, a => a = TKR_AUTH.addr
  | .TKR_X_CTRL, a => a = TKR_X_CTRL.addr
  | .OBS_Q_CTRL, a => ∃ n, a = OBS_Q_CTRL.addr n
  | .OBS_Q_DATA, a => ∃ n, a = OBS_Q_DATA.addr n
  | .OBS_Q_STATUS, a => ∃ n, a = OBS_Q_STATUS.addr n
  | .OBS_Q_PTR, a => ∃ n, a = OBS_Q_PTR.addr n
  | .OBS_Q_LOST, a => ∃ n, a = OBS_Q_LOST.addr n
  | .OBS_CYCLE_LO, a => a = OBS_CYCLE_LO.addr
  | .OBS_CYCLE_HI, a => a = OBS_CYCLE_HI.addr
  | .OBS_PMU_CTRL, a => a = OBS_PMU_CTRL.addr
  | .OBS_PMU_OVF, a => a = OBS_PMU_OVF.addr
  | .OBS_PMU_EVT, a => ∃ n, a = OBS_PMU_EVT.addr n
  | .OBS_PMU_LO, a => ∃ n, a = OBS_PMU_LO.addr n
  | .OBS_PMU_HI, a => ∃ n, a = OBS_PMU_HI.addr n
  | .FLT_STATUS, a => a = FLT_STATUS.addr
  | .FLT_PINS, a => a = FLT_PINS.addr
  | .FLT_DUMP, a => a = FLT_DUMP.addr
  | .FLT_STICKY, a => ∃ n, a = FLT_STICKY.addr n
  | .FLT_CLEAR, a => a = FLT_CLEAR.addr
  | .FLT_SEV, a => ∃ n, a = FLT_SEV.addr n
  | .FLT_ALERT, a => ∃ n, a = FLT_ALERT.addr n
  | .FLT_QUAL, a => ∃ n, a = FLT_QUAL.addr n
  | .FLT_X_FORCE, a => a = FLT_X_FORCE.addr
  | .FLT_X_INVERT, a => a = FLT_X_INVERT.addr
  | .TOP_ID, a => a = TOP_ID.addr
  | .TOP_STRAP, a => a = TOP_STRAP.addr
  | .TOP_MODE, a => a = TOP_MODE.addr
  | .TOP_RESET_CAUSE, a => a = TOP_RESET_CAUSE.addr
  | .TOP_BOOT_TIME, a => a = TOP_BOOT_TIME.addr
  | .TOP_X_RESET, a => a = TOP_X_RESET.addr
  | .TOP_EXPERT_KEY, a => ∃ n, a = TOP_EXPERT_KEY.addr n
  | .TOP_EXPERT, a => a = TOP_EXPERT.addr
  | .TOP_BUS_ERR, a => a = TOP_BUS_ERR.addr
  | .STL_STALL, a => ∃ n, a = STL_STALL.addr n
  | .STL_LANE, a => ∃ n, a = STL_LANE.addr n
  | .GPI_CFG, a => ∃ n, a = GPI_CFG.addr n
  | .GPI_IN, a => a = GPI_IN.addr
  | .GPI_OUT, a => a = GPI_OUT.addr
  | .any, _ => True

/-- A CTRL message is taken at this chip (R176, R185): it comes in on a link in service and finds a cell; a broadcast of another member, or a message
for this one, not seen before. -/
abbrev Taken (c : CtrlHdr) (s : State) : Prop :=
  s.g (GLK_LINK.STATE c.hdr.link) = 4 ∧ s.ctrlFits = true
    ∧ s.fab.seen.contains (ctrlKey c) = false ∧ (if c.bcast then c.src.val ≠ s.fab.member else c.dest.val = s.fab.member)

/-- The state an access of master m meets: a sideband target's has MGT held first (R258, R400). -/
def State.met (s : State) (m : Nat) : State :=
  if m = 6 ∨ m = 7 then s.when (s.masterHere m) fun s => s.holdAccess m dMGT else s

/-- It is master m's turn at the block of an address (R372): no access of a lower master to the block waits in this cycle, and
none of its own has been served ahead of its command. -/
def State.turn (s : State) (m a : Nat) : Bool :=
  (s.pending.all fun c => match s.accessOf c with
    | some (x, b, _) => !(decide (x < m) && decide (b / 0x10000 = a / 0x10000))
    | none => true) && s.marks.all fun k => match k with
    | .served x b => !(decide (x = m) && decide (b = a))
    | _ => true

/-- An aligned access of master m passes its checks at once (R366, R372, R373): it is its turn, none of its earlier accesses
waits, and no check ends it. -/
def State.passes (s : State) (m a : Nat) (write : Bool) : Bool :=
  s.turn m a && !((s.met m).pdc.stalls.any fun x => x.master = m) && (m < 2 || 7 < m || decide (a % 4 = 0)) && match (s.met m).gate m a write with
    | .pass => true
    | _ => false

/-- A request in words as Dwezel takes it from a channel without a session (R301). -/
def State.ask (s : State) (c seq : Nat) (words : List Word) : Ask :=
  { c := c, seq := seq, member := s.g (MBX_IN_CTRL.MEMBER c), words := words, sess := none }

/-- Every check of R303 passes for a request with this command code on channel c, it is for this member, and it is no repeat. -/
def State.accepts (s : State) (cmd : Nat) (a : Ask) : Bool :=
  s.dwezelRuns && decide (s.g (MBX_ASSIGN.PARTY a.c) ≠ 0) && decide ((s.mb a.c).held.length < 4) && decide (a.words.length ≤ 16)
    && decide (a.cmd = cmd) && decide ((s.histOf a.c a.member).seq ≠ some a.seq)
    && ((argWords a.cmd).all fun n => decide (n ≤ a.words.length)) && s.admits a && (s.notPermitted a).isNone
    && (decide (s.target a = s.member) || decide (a.c = 6)) && decide (a.w 0 < 2^24) && decide (a.flags < 32)
    && (!bitOf a.flags 4 || decide (a.cmd = 0x81) || decide (a.cmd = 0x62))

/-- The final reply to a request is OK, with these words after its first (R276, R302). -/
def State.answeredOk (t : State) (a : Ask) (words : List Word) : Prop :=
  (t.histOf a.c a.member).reply = some ⟨true, a.seq, a.member, replyWord (a.w 0) 0 :: words⟩

/-- A full message on a secure channel, without a session yet (R278, R307). -/
def State.full (s : State) (c seq : Nat) (words : List Word) : Ask := s.ask c seq ((words ++ List.replicate 16 0).take 16)

/-- What may change between two states: of the parts only those of `ps`, of the registers only those named in `rs`.
The waiting commands and the cycle count stay, what was put on the balls stays put, and the register list stays in its
canonical form. -/
def Frame (ps : List Part) (rs : List Reg) (s t : State) : Prop :=
  (∀ p, p ∉ ps → p.same s t) ∧ (∀ a, (∀ r ∈ rs, ¬r.has a) → t.word a = s.word a)
    ∧ t.pending = s.pending ∧ t.cycle = s.cycle ∧ s.outs <:+ t.outs ∧ (s.wf = true → t.wf = true)

/-- Only the registers of the list change, and nothing else in the machine. -/
def OnlyRegs (as : List Nat) (s t : State) : Prop :=
  (∀ a, a ∉ as → t.word a = s.word a) ∧ t = { s with regs := t.regs }

/-- The tick of every yard is in the range 0 to 24,999 (R6). -/
abbrev State.TicksOk (s : State) : Prop := ∀ y, y < 5 → (vat s.yards y).tick < 25000

/-- The commands that may change the running plan: an activation that ends, at boot or later, and the chip-wide resets. -/
def changesPlan : Instr → Bool
  | .porAssert | .porRelease .. | .resetNAssert .. | .chipResetBegin | .planActivationDone _ | .bootDomainsReady .. => true
  | _ => false

/-! ## Named sets of a frame -/

/-- The parts a command may change that writes a record (R313 to R322). -/
def recordParts : List Part :=
  [.obs]

/-- The registers a command may change that writes a record (R313 to R322). -/
def recordRegs : List Reg :=
  [.OBS_Q_STATUS, .OBS_Q_LOST, .OBS_PMU_OVF, .OBS_PMU_LO, .OBS_PMU_HI]

/-- The parts a command may change that judges the votes of a domain (R260 to R264). -/
def wakeParts : List Part :=
  [.obs, .pdc]

/-- The registers a command may change that judges the votes of a domain (R260 to R264). -/
def wakeRegs : List Reg :=
  [.PDC_DOM, .OBS_Q_STATUS, .OBS_Q_LOST, .OBS_PMU_OVF, .OBS_PMU_LO, .OBS_PMU_HI]

/-- The parts a command may change that sends on the links (R176). -/
def pumpParts : List Part :=
  [.glk]

/-- The registers a command may change that sends on the links (R176). -/
def pumpRegs : List Reg :=
  [.PBF_EVT, .GLK_LINK, .OBS_PMU_OVF, .OBS_PMU_LO, .OBS_PMU_HI, .FLT_X_INVERT]

/-- The parts a command may change that answers a request (R274, R302). -/
def replyParts : List Part :=
  [.obs, .pdc, .mbx, .msg, .expert]

/-- The registers a command may change that answers a request (R274, R302). -/
def replyRegs : List Reg :=
  [.PDC_DOM, .MBX_IN_W, .MBX_OUT_W, .MBX_IN_CTRL, .MBX_OUT_CTRL, .MBX_DB, .MBX_STATUS, .MBX_LOCK, .MBX_ERR, .TKR_EVT,
   .OBS_Q_STATUS, .OBS_Q_LOST, .OBS_PMU_OVF, .OBS_PMU_LO, .OBS_PMU_HI, .TOP_EXPERT]

/-- The parts a command may change that raises a fault source, with every reaction it may have (R327 to R335). -/
def raiseParts : List Part :=
  [.obs, .pat, .pred, .pdc, .chan, .tlm, .tcp, .ss, .boot, .hs, .glk, .fab, .port, .mirror, .flt, .tml, .tack, .mbx,
   .tmlOld]

/-- The registers a command may change that raises a fault source, with every reaction it may have (R327 to R335). -/
def raiseRegs : List Reg :=
  [.TML_PRED, .TML_PAT, .SSH_CTX, .SSH_PORT, .SSH_PORT_EVT, .PBF_STATUS, .PBF_SHARED_FREE, .PBF_BANK_FREE, .PBF_USED,
   .PBF_EVT, .HSH_ENG, .HSH_PORT, .HSH_CARRY, .UPP_PADDOCK, .GLK_LINK, .DRV_BARN, .DRV_ROUTE, .DRV_REROUTE, .DRV_EVT,
   .TCP_PORT, .TCP_CONTRACT, .TCP_VSET, .TCP_CABLE, .TCP_DP, .PPW_LIMIT, .PPW_STATUS, .BUD_PORT, .PDC_CTRL, .PDC_XTAL,
   .PDC_DOM, .TKR_FUNC, .OBS_Q_STATUS, .OBS_Q_LOST, .OBS_PMU_OVF, .OBS_PMU_LO, .OBS_PMU_HI, .FLT_STATUS, .FLT_PINS,
   .FLT_STICKY, .FLT_QUAL, .FLT_X_INVERT, .TOP_MODE]

/-- The parts a command may change that begins a ramp, which may trip (R226 to R240). -/
def rampParts : List Part :=
  [.obs, .pat, .pred, .pdc, .chan, .tlm, .tcp, .ss, .boot, .hs, .glk, .fab, .port, .mirror, .flt, .tml, .tack, .mbx,
   .tmlOld]

/-- The registers a command may change that begins a ramp, which may trip (R226 to R240). -/
def rampRegs : List Reg :=
  [.TML_PRED, .TML_PAT, .SSH_CTX, .SSH_PORT, .SSH_PORT_EVT, .PBF_STATUS, .PBF_SHARED_FREE, .PBF_BANK_FREE, .PBF_USED,
   .PBF_EVT, .HSH_ENG, .HSH_PORT, .HSH_CARRY, .UPP_PADDOCK, .GLK_LINK, .DRV_BARN, .DRV_ROUTE, .DRV_REROUTE, .DRV_EVT,
   .TCP_PORT, .TCP_CONTRACT, .TCP_VSET, .TCP_CABLE, .TCP_DP, .PPW_LIMIT, .PPW_RETRY, .PPW_STATUS, .PPW_EVT, .BUD_EVT,
   .BUD_PORT, .PDC_CTRL, .PDC_XTAL, .PDC_DOM, .TKR_FUNC, .OBS_Q_STATUS, .OBS_Q_LOST, .OBS_PMU_OVF, .OBS_PMU_LO,
   .OBS_PMU_HI, .FLT_STATUS, .FLT_PINS, .FLT_STICKY, .FLT_QUAL, .FLT_X_INVERT, .TOP_MODE]

/-- The parts a command may change that lets a stall act on a hub request or an order (R135, R162). -/
def actParts : List Part :=
  [.obs, .pat, .pred, .pdc, .chan, .tlm, .tcp, .ss, .boot, .hs, .tt, .ttOp, .glk, .fab, .port, .mirror, .hubWaits,
   .holders, .flt, .tml, .tack, .mbx, .tmlOld, .epMem]

/-- The registers a command may change that lets a stall act on a hub request or an order (R135, R162). -/
def actRegs : List Reg :=
  [.TML_PRED, .TML_PAT, .SSH_CTX, .SSH_PORT, .SSH_PORT_LPM, .SSH_PORT_EVT, .SSH_DROPS, .PBF_STATUS, .PBF_SHARED_FREE,
   .PBF_BANK_FREE, .PBF_USED, .PBF_EVT, .HSH_ENG, .HSH_PORT, .HSH_PORT_EVT, .HSH_CARRY, .HSH_ORDERS, .TTA_TT,
   .TTA_EVT, .TTA_CMD, .UPP_PADDOCK, .UPP_HANDOFF, .UPP_EVT, .GLK_LINK, .DRV_BARN, .DRV_ROUTE, .DRV_FLOWS,
   .DRV_REROUTE, .DRV_EVT, .TCP_PORT, .TCP_CONTRACT, .TCP_VSET, .TCP_CABLE, .TCP_EVT, .TCP_DP, .PPW_LIMIT, .PPW_RETRY,
   .PPW_STATUS, .PPW_EVT, .BUD_EVT, .BUD_PORT, .PDC_CTRL, .PDC_XTAL, .PDC_DOM, .TKR_FUNC, .OBS_Q_STATUS, .OBS_Q_LOST,
   .OBS_PMU_OVF, .OBS_PMU_LO, .OBS_PMU_HI, .FLT_STATUS, .FLT_PINS, .FLT_STICKY, .FLT_QUAL, .FLT_X_INVERT, .TOP_MODE]

end Sys2Proof.Machine
end

