-- ==== Sys2Proof/Certificates/Slice0/Obligations.lean ====
section
/-!
DEFINITION. The statements for the provers. A completion statement is a list of clauses, one or more for each command it names;
`Does c s P` says that exec of c in s answers a next state of which P holds. A frame statement lists for each command the parts
and the registers that may change.
-/
open Sys2Proof Sys2Proof.Machine

/-- With a command c at the front of the queue, a step is exec of c on the state with the queue's rest; and where it answers a
next state, the queue of that state is the rest. That commands wait in a queue is the model's own form (log entry 1). -/
def Obligations.StepRunsFront : Prop :=
  ∀ (c : Instr) (rest : List Instr) (s : State), s.pending = c :: rest →
    step s = exec c { s with pending := rest } ∧ ∀ t, step s = .next t → t.pending = rest

/-- On an empty queue a step is one cycle of the core clock: the cycle count rises by one and the queue stays empty. That the
clock moves only then is the model's choice (log entry 47). -/
def Obligations.IdleStepIsACycle : Prop :=
  ∀ (s : State), s.pending = [] →
    ∃ t, step s = .next t ∧ t.pending = [] ∧ t.cycle = s.cycle + 1

/-- For every command of the table, with any operands and in any state, exec answers a next state: no command faults and none is
refused. -/
def Obligations.EveryCommandCompletes : Prop :=
  ∀ (i : Instr) (s : State), ∃ t, exec i s = .next t

/-- In the state after reset the register list has its canonical form (addresses strictly rising, no entry equal to what an
unlisted register reads), and so has the tack room's endpoint memory (addresses strictly rising and below 16 KiB, no byte of 0
listed); every yard's tick is below 25,000, no command waits, and POR holds the chip. -/
def Obligations.ResetMeetsInvariants : Prop :=
  State.reset.wf = true ∧ State.reset.TicksOk ∧ State.reset.pending = [] ∧ State.reset.boot.held = 1

/-- For every state whose register list and whose endpoint memory have their canonical forms (addresses strictly rising, no entry
equal to what an unlisted register or byte reads; the memory's addresses below its 16 KiB), and for every step that answers a
next state, those of that state have them too. So equal register maps and equal memories are equal data. That an unlisted byte
of the endpoint memory reads 0 is the model's choice (log entry 174). -/
def Obligations.StepKeepsRegisterList : Prop :=
  ∀ (s t : State), s.wf = true → step s = .next t → t.wf = true

/-- For every state in which the tick of each of the five yards is in the range 0 to 24,999, and for every step that answers a
next state, so are those of the next state. Putting a yard at a number of ticks carries into the interval count at 25,000:
its interval count times 25,000 plus its tick is that number. -/
def Obligations.StepKeepsYardTicks : Prop :=
  (∀ (s t : State), s.TicksOk → step s = .next t → t.TicksOk) ∧
    ∀ (s : State) (y k : Nat), y < 5 → (s.yardSet y k).yticks y = k ∧ (vat (s.yardSet y k).yards y).tick < 25000

/-- A command that is none of POR_ASSERT, POR_RELEASE, RESET_N_ASSERT, CHIP_RESET_BEGIN, PLAN_ACTIVATION_DONE and
BOOT_DOMAINS_READY leaves the running plan as it is, whatever the state. -/
def Obligations.PlanChangesOnlyAtActivationAndReset : Prop :=
  ∀ (i : Instr) (s t : State), changesPlan i = false → exec i s = .next t → t.plan = s.plan

/-- A command other than OTP_WRITE_DONE leaves all of OTP as it is: the unique id, the plan keys, their revocation fuses and the
floor words; and OTP_WRITE_DONE leaves the unique id and the keys. -/
def Obligations.OtpChangesOnlyByItsWrites : Prop :=
  ∀ (i : Instr) (s t : State), exec i s = .next t →
    t.otp.uid = s.otp.uid ∧ t.otp.keys = s.otp.keys ∧ (i ≠ .otpWriteDone → t.otp = s.otp)

/-- An access by a master that does not hold the expert page, in its turn (R372), which the earlier checks of R373 pass, to a
register of a domain that is not ON: a read returns 0x0FF0_0FF0, a write is dropped, SLEEP_ACCESS and the domain's bit of
SLEEP_DOM are set, and nothing else in the machine changes, the domain's state included. Stated of RESTING_DOMAIN_ACCESS for
every master but the sideband targets (6, 7), for which MGT is held first, and the maker (15). -/
def Obligations.SleepAccess : Prop :=
  ∀ (m : Fin 16) (addr : BitVec 32) (data : Option (BitVec 32)) (s : State) (r : RegRow),
    s.masterHere m = true → m.val ≠ 6 → m.val ≠ 7 → m.val ≠ 15 → addr.toNat % 4 = 0 → s.holdsPage m = false →
    (s.pdc.stalls.any fun x => x.master = m.val) = false → rowOf addr.toNat = some r → r.expert = false →
    s.turn m addr.toNat = true → (data.isSome = true → s.mayWrite m addr.toNat = true) →
    s.domOn (addrDom addr.toNat) = false →
    Does (.restingDomainAccess m addr data) s fun t =>
      (data = none → t.outs = .read m [0x0FF00FF0#32] :: s.outs) ∧ (data.isSome = true → t.outs = s.outs) ∧
      t.on PDC_STICKY.SLEEP_ACCESS = true ∧ bitOf (t.g PDC_STICKY.SLEEP_DOM) (addrDom addr.toNat) = true ∧
      (∀ a, a ≠ PDC_STICKY.addr → t.word a = s.word a) ∧ (∀ p : Part, p.same s t)

/-- Under BOOTSRC 00, when the flash has answered and both slots are valid with equal SEQ, the loader's order is slot A, then
slot B. The SEQ of the next commit is above that of every valid slot, so the part itself never makes them equal. -/
def Obligations.EqualSlotsTrySlotA : Prop :=
  (∀ (s : State), s.bootAt 5 = true → s.g TOP_STRAP.BOOTSRC = 0 → s.pln.order = [] → (s.slotF 0).valid = true →
      (s.slotF 1).valid = true → pageSeq (s.slotF 0).page = pageSeq (s.slotF 1).page →
      ∀ four, Does (.flashBusyPollEnd true four) s fun t => t.pln.order = [0, 1] ∧ t.bootAt 5 = true) ∧
    ∀ (s : State) (k : Nat), k < 2 → (s.slotF k).valid = true → pageSeq (s.slotF k).page < s.nextSeq

/-- A write of TML_E_TIME_LO, the register that carries the tick of a yard time, with a tick field of 25,000 or more that
reaches the register changes nothing in it; TIMELINE_ADD with such a time, once its mode and permission pass, is answered
BAD_ARG and changes no entry. The worked sums of the rule hold of the model's yard values. -/
def Obligations.LateTicksAreRefused : Prop :=
  (∀ (m : Fin 16) (w : BitVec 32) (s : State), s.passes m TML_E_TIME_LO.addr true = true → 25000 ≤ w.toNat % 32768 →
      Does (.registerWrite m (BitVec.ofNat 32 TML_E_TIME_LO.addr) w) s fun t =>
        t = s.met m ∧ t.word TML_E_TIME_LO.addr = s.word TML_E_TIME_LO.addr) ∧
    (∀ (c : Fin 12) (seq : Fin 16) (words : List (BitVec 32)) (s : State), c.val < 8 →
      s.accepts 0xA0 (s.ask c seq words) = true → 25000 ≤ (s.ask c seq words).w 2 % 32768 →
      Does (.timelineAdd c seq words) s fun t =>
        t = (s.noted (s.ask c seq words)).reply (s.ask c seq words) rBADARG ∧ t.tml = s.tml) ∧
    ({ iv := 1200, tick := 12500 } : Yard).value = 39334100 ∧
    ∀ (s : State) (y : Nat), y < 5 → s.now y = 1200 * 32768 + 22000 → (vat s.yards y).tick < 25000 →
      (s.yardSet y (s.yticks y + 5000)).now y = 0x025887D0

/-- The three chip-wide resets and their releases take effect. For each clause, for every state and all operands that meet its
hypotheses on the state and the operands alone, exec answers a next state in which the values the clause names stand as the
rules of the cited sections give them. Commands, with the rules their hypotheses and effects follow: POR_ASSERT (R348, R356,
R358, R363, R78), POR_RELEASE (R348, R350, R356), RESET_N_ASSERT (R361, R363, R78, R344), RESET_N_RELEASE (R350, R361, R332),
CHIP_RESET_BEGIN (R362), XTAL_RESTART_TIMER (R352), SAFE_EXIT (R331, R359, R360, R73). Where those rules leave a point open,
the clauses rest on the model's choices: log entries 1, 3, 4, 10, 11, 83, 98, 99, 127 and 156. -/
def Obligations.ResetsComplete : Prop :=
  (∀ (s : State), s.boot.held ≠ 1 → Does .porAssert s fun t => t.boot.held = 1 ∧ t.boot.starter = 0 ∧
    t.plan = Plan.empty ∧ t.otp = s.otp ∧ t.mode = 0) ∧
  (∀ (bootsrc : Fin 4) (lifeEn : Bool) (i2c : Fin 8) (maker : Bool) (s : State), s.boot.held = 1 →
    Does (.porRelease bootsrc lifeEn i2c maker) s fun t => t.boot.held = 0 ∧ t.g TOP_MODE.BOOT_STEP = 1 ∧
    t.g TOP_STRAP.BOOTSRC = bootsrc ∧ t.on TOP_STRAP.LIFE_EN = lifeEn ∧ t.g TOP_STRAP.I2CADDR = i2c ∧
    t.on TOP_STRAP.MAKER_EN = maker ∧ t.on TOP_RESET_CAUSE.POR = true) ∧
  (∀ (handed : Bool) (dumped : Bool) (s : State), s.boot.held = 0 → Does (.resetNAssert handed dumped) s fun t =>
    t.boot.held = 2 ∧ t.boot.was = s.mode ∧ t.plan = Plan.empty ∧ t.otp = s.otp) ∧
  (∀ (bootsrc : Fin 4) (lifeEn : Bool) (i2c : Fin 8) (maker : Bool) (s : State), s.boot.held = 2 →
    s.on FLT_STATUS.GRAVE = false → Does (.resetNRelease bootsrc lifeEn i2c maker) s fun t => t.boot.held = 0 ∧
    t.g TOP_MODE.BOOT_STEP = 1 ∧ t.g TOP_STRAP.BOOTSRC = bootsrc ∧ t.on TOP_RESET_CAUSE.RESET_N = true ∧
    t.on TOP_RESET_CAUSE.POR = false) ∧
  (∀ (s : State), s.boot.asked = true → s.boot.held = 0 → s.pln.commit = 0 → s.flt.writing = 0 →
    Does .chipResetBegin s fun t => t.on TOP_RESET_CAUSE.CHIP_RESET = true ∧ t.plan = Plan.empty ∧ t.boot.asked = false ∧
    t.otp = s.otp) ∧
  (∀ (ready : Bool) (s : State), s.mode = 4 → s.boot.held = 0 → s.sticky 7 = true → ready = true → s.arisesNow 7 = false →
    Does (.xtalRestartTimer ready) s fun t => t.sticky 7 = false) ∧
  (∀ (s : State), s.boot.held = 0 → s.mode = 4 → s.on FLT_STATUS.GRAVE = false → s.chipSticky = false →
    s.pln.commit = 0 → s.boot.planned = false → Does .safeExit s fun t => t.mode = 0 ∧ t.g TOP_MODE.BOOT_STEP = 2) ∧
  (∀ (s : State), s.boot.held = 0 → s.mode = 4 → s.on FLT_STATUS.GRAVE = false → s.chipSticky = false →
    s.pln.commit = 0 → s.boot.planned = true → Does .safeExit s fun t => t.mode = 2 ∧ t.pln.act = none)

/-- The steps of BOOT go on as their events say. For each clause, for every state and all operands that meet its hypotheses on
the state and the operands alone, exec answers a next state in which the values the clause names stand as the rules of the
cited sections give them. Commands, with the rules their hypotheses and effects follow: RAILS_IN_WINDOW (R349),
RAIL_WINDOW_TIMEOUT (R349), CRYSTAL_READY (R351, R339), CRYSTAL_NOT_READY (R352), MAKER_WINDOW_END (R351), MAKER_KEYED_MESSAGE
(R347, R351, R23), FLASH_BUSY_POLL_END (R60, R63), SLOT_VERIFY_DONE (R60, R61, R64, R28), PLAN_ACTIVATION_DONE (R65, R351,
R359), BOOT_DOMAINS_READY (R351, R359, R360, R182), UPSTREAM_DATA_CONNECT (R354). Where those rules leave a point open, the
clauses rest on the model's choices: log entries 3, 11, 33, 63, 77, 87, 91, 92, 100, 136 and 137. -/
def Obligations.BootStepsComplete : Prop :=
  (∀ (s : State), s.bootAt 1 = true → Does .railsInWindow s fun t => t.g TOP_MODE.BOOT_STEP = 2) ∧
  (∀ (core : Bool) (ser : Bool) (io : Bool) (s : State), s.bootAt 1 = true →
    Does (.railWindowTimeout core ser io) s fun t => (core = true → t.sticky 1 = true) ∧ (ser = true →
    t.sticky 5 = true) ∧ (io = true → t.sticky 6 = true)) ∧
  (∀ (ok : Bool) (s : State), s.bootAt 2 = true → ok = true → Does (.crystalReady ok) s fun t =>
    t.on PDC_XTAL.RUNNING = true ∧
    t.g TOP_MODE.BOOT_STEP = (if s.on TOP_STRAP.MAKER_EN then 4 else if s.g TOP_STRAP.BOOTSRC = 2 then 6 else 5)) ∧
  (∀ (ok : Bool) (s : State), s.bootAt 2 = true → ok = false → Does (.crystalReady ok) s fun t => t.sticky 0 = true) ∧
  (∀ (s : State), s.bootAt 2 = true → s.boot.tries < 2 → Does .crystalNotReady s fun t =>
    t.boot.tries = s.boot.tries + 1) ∧
  (∀ (s : State), s.bootAt 2 = true → 2 ≤ s.boot.tries → Does .crystalNotReady s fun t => t.sticky 7 = true) ∧
  (∀ (s : State), s.bootAt 4 = true → Does .makerWindowEnd s fun t => t.boot.makerEnd = s.cycle + 1 ∧
    t.g TOP_MODE.BOOT_STEP = (if s.g TOP_STRAP.BOOTSRC = 2 then 6 else 5)) ∧
  (∀ (s : State), s.bootAt 4 = true → Does .makerKeyedMessage s fun t => t.mode = 5) ∧
  (∀ (ok : Bool) (four : Bool) (s : State), s.bootAt 5 = true → s.g TOP_STRAP.BOOTSRC = 0 → s.pln.order = [] → ok = false →
    Does (.flashBusyPollEnd ok four) s fun t => t.pln.cand = some (s.builtin, 1) ∧ t.g TOP_MODE.BOOT_STEP = 6) ∧
  (∀ (ok : Bool) (four : Bool) (s : State), s.bootAt 5 = true → s.g TOP_STRAP.BOOTSRC = 0 → s.pln.order = [] → ok = true →
    Does (.flashBusyPollEnd ok four) s fun t => t.g TOP_MODE.BOOT_STEP = (if t.pln.order = [] then 6 else 5) ∧
    (t.pln.order ≠ [] → t.pln.fourByte = four)) ∧
  (∀ k l (s : State), s.bootAt 5 = true → s.pln.order = k :: l → Does .slotVerifyDone s fun t =>
    ((s.slotF k).headerOk = false → t.on PLN_STATUS.FALLBACK = true ∧ t.pln.order = l) ∧
    ∀ p, (s.slotF k).headerOk = true → bodyOk (s.slotF k).plan = true →
    (s.plnMod fun x => { x with order := l }).check (s.slotF k).plan = .ok p → t.pln.cand = some (p, 2 + k) ∧
    t.g TOP_MODE.BOOT_STEP = 6) ∧
  (∀ (same : Bool) p src (s : State), s.bootAt 6 = true → s.pln.cand = some (p, src) → same = true →
    Does (.planActivationDone same) s fun t => t.plan = p ∧ t.g TOP_MODE.BOOT_STEP = 7) ∧
  (∀ (vinOk : Bool) (time : Nat) (s : State), s.bootAt 7 = true → s.on TOP_STRAP.LIFE_SUPPLY = true → vinOk = true →
    Does (.bootDomainsReady vinOk time) s fun t => t.g TOP_BOOT_TIME.BOOT = min 65535 time ∧ t.g TOP_MODE.BOOT_STEP = 8) ∧
  (∀ (vinOk : Bool) (time : Nat) (s : State), s.bootAt 7 = true → s.on TOP_STRAP.LIFE_SUPPLY = false →
    Does (.bootDomainsReady vinOk time) s fun t => t.g TOP_BOOT_TIME.BOOT = min 65535 time ∧ t.mode = 3 ∧
    ∃ u, t = State.enterService u 0xFF ∧ u.g TOP_MODE.BOOT_STEP = 8) ∧
  (∀ (u : Fin 2) (s : State), s.serving = true → s.on (TCP_PORT.DATA_ON (15 + u)) = true → s.barnReady = true →
    s.on (UPP_PADDOCK.BOUND u) = true → s.g (UPP_PADDOCK.STATE u) = 1 → Does (.upstreamDataConnect u) s fun t =>
    t.g (UPP_PADDOCK.STATE u) = 2 ∧ .line "DATA_CONNECT" [u.val] ∈ t.outs)

/-- The starter of LIFELINE and the hand-over to the main supply. For each clause, for every state and all operands that meet
its hypotheses on the state and the operands alone, exec answers a next state in which the values the clause names stand as the
rules of the cited sections give them. Commands, with the rules their hypotheses and effects follow: STARTER_ARMED (R356),
STARTER_SINK_PATH_CLOSED (R356), STARTER_HOLD_OFF_END (R358), LIFELINE_VIN_RESTORED (R219), LIFELINE_HANDOVER_DONE (R219,
R359), LIFELINE_EXIT_ABANDON (R219). Where those rules leave a point open, the clauses rest on the model's choices: log entries
3, 92, 94, 150, 168 and 172. -/
def Obligations.LifelineComplete : Prop :=
  (∀ (lifeEn : Bool) (s : State), lifeEn = true → s.boot.held = 1 → s.boot.starter = 0 → s.boot.starterFlag = false →
    Does (.starterArmed lifeEn) s fun t => t.boot.starter = 1) ∧
  (∀ (s : State), s.boot.held = 1 → s.boot.starter = 1 → Does .starterSinkPathClosed s fun t => t.boot.starter = 2) ∧
  (∀ (s : State), Does .starterHoldOffEnd s fun t => t.boot.starterFlag = false) ∧
  (∀ (s : State), s.onSinkPath = true → Does .lifelineVinRestored s fun t => t.boot.handover = true) ∧
  (∀ (s : State), s.onSinkPath = true → s.boot.handover = true → Does .lifelineHandoverDone s fun t =>
    t.on TOP_STRAP.LIFE_SUPPLY = false ∧ t.boot.handover = false) ∧
  (∀ (s : State), Does .lifelineExitAbandon s fun t => t.boot.handover = false)

/-- References, coasting and barn time take effect. For each clause, for every state and all operands that meet its hypotheses
on the state and the operands alone, exec answers a next state in which the values the clause names stand as the rules of the
cited sections give them. Commands, with the rules their hypotheses and effects follow: SOF_RECEIVED (R80, R81), ITP_RECEIVED
(R80, R117, R118), YARD_COAST (R84), BARN_TIME_BROADCAST (R86), BARN_TIME_RECEIVED (R86), YARD_DESCRIPTOR_TIMEOUT (R87),
YARD_DESCRIPTOR_RECEIVED (R86, R87). Where those rules leave a point open, the clauses rest on the model's choices: log entries
2, 13, 18, 36, 37, 39, 62, 97, 159 and 161. -/
def Obligations.YardCommandsComplete : Prop :=
  (∀ (u : Fin 2) (frame : Fin 2048) (rate : Int) y (s : State), s.slotOf u = some y → y < 4 → s.isHome y = true →
    bitOf (s.g YRD_CTRL.FORCE_COAST) y = false →
    ((vat s.yards y).sofIv = nearestIv (vat s.yards y).iv (frame * 8 + (if (vat s.yards y).frame = frame then min 7 ((vat s.yards y).micro + 1) else 0)) + 1 →
      s.refTaken y (nearestIv (vat s.yards y).iv (frame * 8 + (if (vat s.yards y).frame = frame then min 7 ((vat s.yards y).micro + 1) else 0))) = false) →
    Does (.sofReceived u frame rate) s fun t =>
    (vat t.yards y).frame = frame ∧ t.g (YRD_STATUS.REF y) = 1 ∧
    (vat t.yards y).lastRef = nearestIv (vat s.yards y).iv (frame * 8 + (if (vat s.yards y).frame = frame then min 7 ((vat s.yards y).micro + 1) else 0))) ∧
  (∀ (u : Fin 2) (bic : Fin 16384) (delta : Nat) (res : List ItpOut) (rate : Int) y (s : State), s.g (SSH_PORT.LINK (15 + u)) = 0 →
    s.slotOf u = some y → y < 4 → Does (.itpReceived u bic delta res rate) s fun t => t.g (SSH_ITP.LAST_BIC u) = bic ∧
    (s.isHome y = true → bitOf (s.g YRD_CTRL.FORCE_COAST) y = false →
      (vat s.yards y).sofIv ≠ nearestIv (vat s.yards y).iv bic + 1 → s.refTaken y (nearestIv (vat s.yards y).iv bic) = false →
      (vat t.yards y).lastRef = nearestIv (vat s.yards y).iv bic ∧
      t.g (YRD_STATUS.REF y) = (if s.on (SSH_USP_LPM.LDM_ENABLE u) && bitOf (s.g YRD_CTRL.PTM_EN) y then 3 else 2)) ∧
    (s.on SSH_CTRL.ITP_EN = true → ∀ n ∈ (s.heldStalls y).filter (fun n => s.g (SSH_PORT.LINK n) = 0), ∀ r ∈ res,
      (res.find? fun r => r.stall = n) = some r → min 255 r.ticks ≤ t.g (SSH_ITP.RES_MAX u) ∧
      .line "ITP" [n, bic, delta + (r.ticks * 3 + 5) / 10, b2n r.delayed] ∈ t.outs)) ∧
  (∀ (y : Fin 4) (s : State), s.isHome y = true → s.refAhead y = false →
    (vat s.yards y).lastRef + 3 ≤ (vat s.yards y).iv → s.g (YRD_STATUS.STATE y) = 2 →
    Does (.yardCoast y) s fun t => t.g (YRD_STATUS.STATE y) = 3 ∧ t.on (YRD_STATUS.LOST y) = true ∧
    t.g (YRD_STATUS.REF y) = 0) ∧
  (∀ (s : State), (vat s.yards 4).tick = 0 → s.isLead = true → Does .barnTimeBroadcast s fun t =>
    t = (s.ctrlAll "BARN_TIME" [s.now 4, 0]).each ((List.range 4).filter fun y => s.isHome y) (fun y u => u.ctrlAll "YARD_DESCRIPTOR" [y, u.now y, satField 24 (u.barnRate y), u.g (YRD_STATUS.STATE y), u.g (YRD_STATUS.COARSE y)])) ∧
  (∀ (h : BaleHdr) (value : Nat) (hops : Nat) (rate : Int) (s : State), s.g (GLK_LINK.STATE h.link) = 4 →
    s.ctrlFits = true → (s.rxCtrlBale h).isLead = false → s.on YRD_BARN.SYNCED = false → Does (.barnTimeReceived h value hops rate) s fun t =>
    t.on YRD_BARN.SYNCED = true ∧ t.g YRD_BARN.HOPS = (hops + 1) % 2 ^ YRD_BARN.HOPS.width ∧
    (vat t.yards 4).lastRef = value / 32768 + 1) ∧
  (∀ (y : Fin 4) (s : State), s.slotBound y = true → s.isHome y = false → s.g (YRD_STATUS.STATE y) ≠ 0 →
    Does (.yardDescriptorTimeout y) s fun t => t.on (YRD_STATUS.STALE y) = true) ∧
  (∀ (c : CtrlHdr) (y : Fin 4) (value : Nat) (rate : Nat) (st : Fin 4) (coarse : Bool) u (s : State), Taken c s → s.rxCtrl c "YARD_DESCRIPTOR" [y.val, value, rate, st.val, b2n coarse] id = u → u.isCopy y = true → (u.homeOf y).map (·.1) = some c.src.val → Does (.yardDescriptorReceived c y value rate st coarse) s fun t => t.on (YRD_STATUS.STALE y) = false ∧ (st.val ≠ 0 → t.g (YRD_RATE.RATE y) = satField 24 (ofField 24 rate + ofField 24 (u.g (YRD_RATE.RATE 4))) ∧ t.on (YRD_STATUS.COARSE y) = coarse) ∧ (st.val = 0 → t.g (YRD_STATUS.STATE y) = 0 ∧ t.yticks y = 0))

/-- A timeline entry whose moment has come runs its action, and advances. For each clause, for every state and all operands
that meet its hypotheses on the state and the operands alone, exec answers a next state in which the values the clause names
stand as the rules of the cited sections give them. Commands, with the rules their hypotheses and effects follow:
TIMELINE_WAKE_LEAD (R92, R98), DOMAIN_WAKE (R91), TLM_SAMPLE (R91, R322), PD_KEEPALIVE (R91), DOORBELL (R91, R280), GPIO_SET
(R91), GPIO_CLEAR (R91), FABRIC_HEARTBEAT (R91, R197), BUDGET_REVIEW (R91, R255), TT_PREWAKE (R91), TML_ENABLE (R89),
PREDICTOR_CHOICE (R98, R260), OBSERVATION_WINDOW_END (R97, R99), BURST_START (R96), PREDICTION_WINDOW_MISS (R96). Where those
rules leave a point open, the clauses rest on the model's choices: log entries 9, 30, 38, 47, 54, 125, 126, 159 and 164. -/
def Obligations.TimelineCommandsComplete : Prop :=
  (∀ (w : WakeOf) i d (s : State), w = .entry i → s.live (s.entry i) = true →
    d ∈ s.needs (s.entry i).action (s.entry i).target → 0 < s.lead d →
    (s.entry i).due ≤ s.yticks (s.entry i).yard + s.lead d → Does (.timelineWakeLead w) s fun t =>
    (⟨d, (s.entry i).yard, (s.entry i).due, i + 1, 0⟩ : TmlRaise) ∈ t.pdc.raises) ∧
  (∀ (w : WakeOf) n (s : State), w = .pattern n → s.g (TML_PAT.STATE n) = 2 → s.on (PDC_CFG.PREDICT (portDom n)) = true →
    s.on TML_CTRL.PRED_EN = true → 0 < s.lead (portDom n) →
    (vat s.pat n).pred * 25000 ≤ s.yticks (s.stallYard n) + s.lead (portDom n) →
    s.yticks (s.stallYard n) < (vat s.pat n).pred * 25000 + 75000 → Does (.timelineWakeLead w) s fun t =>
    (⟨portDom n, s.stallYard n, (vat s.pat n).pred * 25000 + 75000, 0, n + 1⟩ : TmlRaise) ∈ t.pdc.raises) ∧
  (∀ (i : Fin 256) (s : State), (s.entry i).action = 1 → s.oldEntry i = none → s.marks.contains (.edited i) = false → s.runnable (s.entry i) = true →
    s.firstOfTick i = true →
    s.needFailed (s.entry i) = false → Does (.domainWake i) s fun t =>
    (⟨(s.entry i).target, (s.entry i).yard, s.yticks (s.entry i).yard + (s.entry i).hold, 0, 0⟩ : TmlRaise) ∈ t.pdc.raises) ∧
  (∀ (i : Fin 256) n (s : State), (s.entry i).action = 2 → s.oldEntry i = none → s.marks.contains (.edited i) = false → s.runnable (s.entry i) = true →
    s.firstOfTick i = true →
    s.needFailed (s.entry i) = false → portIx (s.entry i).target = some n → Does (.tlmSample i) s fun t =>
    t = (((s.advanceEntry i).mark .dispatched).pmu 0x14 i).record 2 0x30 (s.entry i).yard (((s.entry i).target + (s.entry i).arg % 16 * 2 ^ 8) :: (((s.advanceEntry i).mark .dispatched).pmu 0x14 i).sampleWords n (s.entry i).arg)) ∧
  (∀ (i : Fin 256) n (s : State), (s.entry i).action = 3 → s.oldEntry i = none → s.marks.contains (.edited i) = false → s.runnable (s.entry i) = true →
    s.firstOfTick i = true →
    s.needFailed (s.entry i) = false → portIx (s.entry i).target = some n → Does (.pdKeepalive i) s fun t =>
    t = (((s.advanceEntry i).mark .dispatched).pmu 0x14 i).keepAlive n) ∧
  (∀ (i : Fin 256) (s : State), (s.entry i).action = 4 → s.oldEntry i = none → s.marks.contains (.edited i) = false → s.runnable (s.entry i) = true →
    s.firstOfTick i = true →
    s.needFailed (s.entry i) = false → (s.entry i).target < 12 → Does (.doorbell i) s fun t =>
    t.on (MBX_DB.OUT_DB (s.entry i).target) = true ∧ .doorbell (s.entry i).target 2 (s.entry i).arg ∈ t.outs) ∧
  (∀ (i : Fin 256) (s : State), (s.entry i).action = 5 → s.oldEntry i = none → s.marks.contains (.edited i) = false → s.runnable (s.entry i) = true →
    s.firstOfTick i = true →
    s.needFailed (s.entry i) = false → (s.entry i).target < 32 → s.g (GPI_CFG.FUNCTION (s.entry i).target) = 1 →
    Does (.gpioSet i) s fun t => t.on (bitFld GPI_OUT.addr (s.entry i).target) = true) ∧
  (∀ (i : Fin 256) (s : State), (s.entry i).action = 6 → s.oldEntry i = none → s.marks.contains (.edited i) = false → s.runnable (s.entry i) = true →
    s.firstOfTick i = true →
    s.needFailed (s.entry i) = false → (s.entry i).target < 32 → s.g (GPI_CFG.FUNCTION (s.entry i).target) = 1 →
    Does (.gpioClear i) s fun t => t.on (bitFld GPI_OUT.addr (s.entry i).target) = false) ∧
  (∀ (i : Fin 256) (s : State), (s.entry i).action = 7 → s.oldEntry i = none → s.marks.contains (.edited i) = false → s.runnable (s.entry i) = true →
    s.firstOfTick i = true →
    s.needFailed (s.entry i) = false → (((s.advanceEntry i).mark .dispatched).pmu 0x14 i).glkTrained (s.entry i).target = true →
    Does (.fabricHeartbeat i) s fun t =>
    t = (((s.advanceEntry i).mark .dispatched).pmu 0x14 i).linkBale (s.entry i).target "HEARTBEAT" [s.member, (s.entry i).rep]) ∧
  (∀ (i : Fin 256) (s : State), (s.entry i).action = 8 → s.oldEntry i = none → s.marks.contains (.edited i) = false → s.runnable (s.entry i) = true →
    s.firstOfTick i = true →
    s.needFailed (s.entry i) = false → Does (.budgetReview i) s fun t => t = (((s.advanceEntry i).mark .dispatched).pmu 0x14 i).review) ∧
  (∀ (i : Fin 256) (s : State), (s.entry i).action = 9 → s.oldEntry i = none → s.marks.contains (.edited i) = false → s.runnable (s.entry i) = true →
    s.firstOfTick i = true →
    s.needFailed (s.entry i) = false → Does (.ttPrewake i) s fun t =>
    (⟨dHSB, (s.entry i).yard, s.yticks (s.entry i).yard + (s.entry i).hold, 0, 0⟩ : TmlRaise) ∈ t.pdc.raises ∧
    (⟨portDom (s.entry i).target, (s.entry i).yard, s.yticks (s.entry i).yard + (s.entry i).hold, 0, 0⟩ : TmlRaise) ∈ t.pdc.raises) ∧
  (∀ (m : Fin 16) (s : State), s.passes m TML_CTRL.addr true = true → Does (.tmlEnable m) s fun t =>
    t.on TML_CTRL.ENABLE = true) ∧
  (∀ (d : Fin 12) (s : State), d.val ≠ 0 → s.floor d ≠ 2 → s.domOn d = true → Does (.predictorChoice d) s fun t =>
    t.g (TML_PRED.CHOICE d) = s.limitChoice d (s.choice d) ∧ t.g (TML_PRED.NEXT d) = nextField (s.nextEvent d)) ∧
  (∀ (d : Fin 12) (s : State), d.val ≠ 0 → Does (.observationWindowEnd d) s fun t =>
    t.g (TML_PRED.HISTORY d) = min 64 (s.g (TML_PRED.HISTORY d) + 1) ∧
    (vat t.pred d).missWin = (0 :: (vat s.pred d).missWin).take 64) ∧
  (∀ (n : Stall) (s : State), s.g (TML_PAT.STATE n) = 0 → Does (.burstStart n) s fun t => t.g (TML_PAT.STATE n) = 1 ∧
    (vat t.pat n).last = (vat s.yards (s.stallYard n)).iv) ∧
  (∀ (n : Stall) (s : State), s.g (TML_PAT.STATE n) = 2 → Does (.burstStart n) s fun t =>
    (vat t.pat n).last = (vat s.yards (s.stallYard n)).iv ∧
    (vat t.pat n).pred = (vat s.yards (s.stallYard n)).iv + s.g (TML_PAT.PERIOD n)) ∧
  (∀ (n : Stall) (s : State), s.g (TML_PAT.STATE n) = 2 → (vat s.pat n).pred + 2 < (vat s.yards (s.stallYard n)).iv →
    (s.windowCloses n && s.burstAhead n) = false → (vat s.pat n).misses = 0 → Does (.predictionWindowMiss n) s fun t => (vat t.pat n).misses = 1 ∧
    (vat t.pat n).pred = (vat s.pat n).pred + s.g (TML_PAT.PERIOD n)) ∧
  (∀ (n : Stall) (s : State), s.g (TML_PAT.STATE n) = 2 → (vat s.pat n).pred + 2 < (vat s.yards (s.stallYard n)).iv →
    (s.windowCloses n && s.burstAhead n) = false → 1 ≤ (vat s.pat n).misses → Does (.predictionWindowMiss n) s fun t => t.g (TML_PAT.STATE n) = 1 ∧
    t.g (TML_PAT.PERIOD n) = 0)

/-- A power domain goes through the steps of its entries and exits. For each clause, for every state and all operands that meet
its hypotheses on the state and the operands alone, exec answers a next state in which the values the clause names stand as the
rules of the cited sections give them. Commands, with the rules their hypotheses and effects follow: ACCESS_HOLD_END (R269,
R400), DOMAIN_ENTRY_STEP_DONE (R261), SWITCH_OPEN_TIMEOUT (R262), DOMAIN_EXIT_STEP_DONE (R263, R265), DOMAIN_EXIT_TIMEOUT
(R264), DOMAIN_EXIT_RETRY (R264), CRYSTAL_STOP (R266, R84), CRYSTAL_RESTART (R266), JTAG_TAP_LEAVE_TEST_LOGIC_RESET (R267).
Where those rules leave a point open, the clauses rest on the model's choices: log entries 3, 9, 16, 17, 19, 32, 60, 88, 96 and
164. -/
def Obligations.DomainCommandsComplete : Prop :=
  (∀ (m : Fin 16) (d : Fin 12) (s : State), Does (.accessHoldEnd m d) s fun t =>
    t.pdc.accHolds = s.pdc.accHolds.filter fun h => ¬(h.1 = m.val ∧ h.2 = d.val)) ∧
  (∀ (d : Fin 12) (s : State), (s.dom d).step = .clockStop → Does (.domainEntryStepDone d) s fun t =>
    (t.dom d).step = .isolate) ∧
  (∀ (d : Fin 12) (s : State), (s.dom d).step = .isolate → Does (.domainEntryStepDone d) s fun t =>
    (t.dom d).step = .a3) ∧
  (∀ (d : Fin 12) (s : State), (s.dom d).step = .move → s.g (PDC_DOM.TARGET d) = 2 →
    Does (.switchOpenTimeout d) s fun t => t.sticky 13 = true) ∧
  (∀ (d : Fin 12) (late : Bool) (refused : List Nat) (s : State), (s.dom d).step = .railUp →
    Does (.domainExitStepDone d late refused) s fun t => (t.dom d).step = .release ∧ (late = true →
    t.on PDC_STICKY.SLOW_WAKE = true)) ∧
  (∀ (d : Fin 12) (late : Bool) (refused : List Nat) (s : State), (s.dom d).step = .closeSwitch →
    Does (.domainExitStepDone d late refused) s fun t => (t.dom d).step = .restore ∧ (late = true →
    t.on PDC_STICKY.SLOW_WAKE = true)) ∧
  (∀ (d : Fin 12) (s : State), (s.dom d).step = .railUp → (s.dom d).from_ ≠ 2 →
    s.g (PDC_DOM.TRIES d) + 1 ≤ s.g PDC_X_TIME.RETRIES → Does (.domainExitTimeout d) s fun t =>
    (t.dom d).step = .retryWait ∧ t.g (PDC_DOM.TRIES d) = (s.g (PDC_DOM.TRIES d) + 1) % 2 ^ (PDC_DOM.TRIES d).width) ∧
  (∀ (d : Fin 12) (s : State), (s.dom d).step = .retryWait → Does (.domainExitRetry d) s fun t =>
    (t.dom d).step = (if !s.on PDC_XTAL.RUNNING then .crystal else if (s.dom d).from_ = 2 then .closeSwitch else .railUp)) ∧
  (∀ (s : State), s.on PDC_XTAL.STOP_EN = true → s.on PDC_XTAL.RUNNING = true →
    (List.range 12).all (fun d => s.floor d = 0) = true → s.farEvents = true → Does .crystalStop s fun t =>
    t.on PDC_XTAL.RUNNING = false ∧ t.g (YRD_STATUS.STATE 4) = 3) ∧
  (∀ (s : State), s.serving = true → s.on PDC_XTAL.RUNNING = false → s.farEvents = false →
    Does .crystalRestart s fun t => t.on PDC_XTAL.RUNNING = true ∧ t.g (YRD_STATUS.STATE 4) = 2) ∧
  (∀ (s : State), s.boot.held = 0 → Does .jtagTapLeaveTestLogicReset s fun t => ∀ d, d < 12 → 1 ≤ d →
    2 ≤ vat (t.dom d).votes 15)

/-- Records become visible, and fault sources arise. For each clause, for every state and all operands that meet its hypotheses
on the state and the operands alone, exec answers a next state in which the values the clause names stand as the rules of the
cited sections give them. Commands, with the rules their hypotheses and effects follow: QUEUE_RECORD_WRITE (R313, R315),
QUEUE_READ_STALL_TIMEOUT (R317), FAULT_RAISED (R327, R328, R349), SELF_CHECK (R339). Where those rules leave a point open, the
clauses rest on the model's choices: log entries 3, 12, 21, 25, 72, 123, 127, 131 and 151. -/
def Obligations.QueuesAndFaultsComplete : Prop :=
  (∀ (q : Fin 4) (flying : Bool) r (s : State), (vat s.obs q).writing = some r → (vat s.obs q).waiting = [] →
    Does (.queueRecordWrite q flying) s fun t => (vat t.obs q).writing = none ∧
    (vat t.obs q).recs = (vat s.obs q).recs ++ [r.lengthWord (vat s.obs q).rseq :: r.body]) ∧
  (∀ (q : Fin 4) (s : State), (vat s.obs q).stalled = true → Does (.queueReadStallTimeout q) s fun t =>
    (vat t.obs q).stalled = false ∧ t.outs = (.read 1 [0] :: s.outs)) ∧
  (∀ (src : Fin 128) (q : Fin 256) (aux : Fin 256) (s : State), faultExists src = true → s.masked src = false →
    s.mode ≠ 0 → s.boot.held = 0 → Does (.faultRaised src q aux) s fun t => t.sticky src = true) ∧
  (∀ (ok : Bool) (s : State), ok = false → s.boot.held = 0 → Does (.selfCheck ok) s fun t => t.sticky 0 = true)

/-- Ramps, seats, discharge and power good of a channel. For each clause, for every state and all operands that meet its
hypotheses on the state and the operands alone, exec answers a next state in which the values the clause names stand as the
rules of the cited sections give them. Commands, with the rules their hypotheses and effects follow: RAMP_START (R236),
SLOW_TIMER_RESET (R232, R242), ATTEMPT_WINDOW_END (R235, R228, R238), RETRY_WAIT_END (R235, R236, R238, R240), PG_STABLE_TIMER
(R237), UNSEATED_RESET_TIMER (R237), SEAT_INPUT_CHANGE (R229, R267), SEAT_DEBOUNCE_END (R229, R236), SEAT_REMOVAL (R229),
DISCHARGE_DONE (R240), DISCHARGE_TIMEOUT (R240), VBUS_RISING_GATE_OFF (R240), PG_ASSERT (R242), PG_HOLD_END (R242). Where those
rules leave a point open, the clauses rest on the model's choices: log entries 3, 9, 26, 35, 155, 164 and 172. -/
def Obligations.PowerChannelsComplete : Prop :=
  (∀ (n : Channel) (s : State), s.domOn dPPA = true → s.canRamp n = true → s.mode ≠ 1 → Does (.rampStart n) s fun t => (t.ch n).gate = true ∧
    t.g (PPW_STATUS.STATE n) = (if (s.ch n).retrying then 5 else 2)) ∧
  (∀ (n : Channel) (s : State), s.canRamp n = true → s.domOn dPPA = false → Does (.rampStart n) s fun t =>
    t = s.wakeBy (groupClient n) dPPA) ∧
  (∀ (n : Channel) (s : State), Does (.slowTimerReset n) s fun t => t.on (PPW_STATUS.TIMER n) = false) ∧
  (∀ (n : Channel) (s : State), s.tripCh n = s.ch n → (s.ch n).attempt = true → (s.ch n).rampDone = true →
    (s.ch n).gate = true → Does (.attemptWindowEnd n) s fun t => (t.ch n).attempt = false ∧
    t.g (PPW_STATUS.STATE n) = 3 ∧ t.on (PPW_EVT.RETRY_OK n) = true) ∧
  (∀ (n : Channel) (s : State), (s.tripCh n).attempt = true → (s.tripCh n).rampDone = false → (s.tripCh n).gate = true →
    s.on (PPW_STATUS.SINK n) = false → Does (.attemptWindowEnd n) s fun t => t.on (PPW_EVT.RAMP_FAIL n) = true ∧
    t.sticky 83 = true) ∧
  (∀ (n : Channel) (s : State), (s.ch n).waiting = true → s.g (PPW_STATUS.STATE n) = 4 → Does (.retryWaitEnd n) s fun t =>
    t = (((s.chMod n fun c => { c with waiting := false }).p (PPW_RETRY.WAIT n) 0).p (PPW_STATUS.STATE n) 0).tryRamp n) ∧
  (∀ (n : Channel) (s : State), (s.ch n).waiting = true → s.g (PPW_STATUS.STATE n) ≠ 4 → Does (.retryWaitEnd n) s fun t =>
    t = (s.chMod n fun c => { c with waiting := false }).p (PPW_RETRY.WAIT n) 0) ∧
  (∀ (n : Channel) (s : State), s.on (PPW_STATUS.PG n) = true → s.g (PPW_STATUS.STATE n) ≠ 6 →
    Does (.pgStableTimer n) s fun t => t.g (PPW_RETRY.COUNT n) = 0) ∧
  (∀ (n : Channel) (s : State), s.seated n = false → s.g (PPW_STATUS.STATE n) ≠ 6 →
    Does (.unseatedResetTimer n) s fun t => t.g (PPW_RETRY.COUNT n) = 0) ∧
  (∀ (n : Channel) (s : State), s.hasCC n = true → (s.ch n).attached = false → s.g (PPW_STATUS.STATE n) = 6 →
    Does (.unseatedResetTimer n) s fun t =>
    t = (((s.p (PPW_RETRY.COUNT n) 0).chMod n fun c => { c with retrying := false }).p (PPW_STATUS.STATE n) 0).tryRamp n) ∧
  (∀ (i : Fin 8) (low : Bool) (s : State), Does (.seatInputChange i low) s fun t => t.on (seatBit i) = low ∧
    ∀ n, s.seatStall i = some n → n < 17 → (t.ch n).seatLow = low) ∧
  (∀ (i : Fin 8) (s : State), s.on (seatBit i) = true → Does (.seatDebounceEnd i) s fun t =>
    t.on (seatBit (8 + i)) = true) ∧
  (∀ (i : Fin 8) (s : State), s.on (seatBit (8 + i)) = true → Does (.seatRemoval i) s fun t =>
    t.on (seatBit (8 + i)) = false ∧ ∀ n, s.seatStall i = some n → n < 17 → t.on (PPW_EVT.SEAT_OUT n) = true) ∧
  (∀ (n : Channel) (s : State), s.on (PPW_STATUS.DISCH n) = true → (s.ch n).gate = false →
    Does (.dischargeDone n) s fun t =>
    t = ((s.chMod n fun c => { c with vbusLow := true }).p (PPW_STATUS.DISCH n) 0).tryRamp n) ∧
  (∀ (n : Channel) (s : State), (s.ch n).sinkOff = false → s.on (PPW_STATUS.DISCH n) = true → (s.ch n).gate = false →
    Does (.dischargeTimeout n) s fun t => t.on (PPW_EVT.FET_SHORT n) = true ∧ t.sticky 85 = true) ∧
  (∀ (n : Channel) (s : State), (s.ch n).gate = false → s.on (PPW_STATUS.DISCH n) = false →
    s.sourceDir n = true → Does (.vbusRisingGateOff n) s fun t => t.on (PPW_EVT.FET_SHORT n) = true ∧
    t.sticky 85 = true) ∧
  (∀ (n : Channel) (timer : Bool) (gateOk : Bool) (s : State), (s.ch n).gate = true → (s.ch n).rampDone = true →
    timer = false → s.on (PPW_STATUS.TIMER n) = false → (s.ch n).pgWithheld = false →
    Does (.pgAssert n timer gateOk) s fun t => t.on (PPW_STATUS.PG n) = true ∧ (gateOk = true →
    t.on (PPW_STATUS.GATE_OK n) = true)) ∧
  (∀ (n : Channel) (timer : Bool) (gateOk : Bool) (s : State), (s.ch n).gate = true → (s.ch n).rampDone = true →
    timer = true → Does (.pgAssert n timer gateOk) s fun t => t.on (PPW_STATUS.TIMER n) = true ∧
    (t.ch n).pgWithheld = true ∧ t.on (PPW_EVT.PG_WITHHELD n) = true) ∧
  (∀ (n : Channel) (s : State), (s.ch n).pgWithheld = true → s.on (PPW_STATUS.TIMER n) = false →
    (s.ch n).rampDone = true → Does (.pgHoldEnd n) s fun t => t.on (PPW_STATUS.PG n) = true ∧ (t.ch n).pgWithheld = false)

/-- A trip marks its event, counts, and raises its source. For each clause, for every state and all operands that meet its
hypotheses on the state and the operands alone, exec answers a next state in which the values the clause names stand as the
rules of the cited sections give them. Commands, with the rules their hypotheses and effects follow: FAST_TRIP (R231),
SLOW_TRIP (R232, R238), UNDERVOLTAGE_TRIP (R233), RAMP_FAIL (R227), GATE_STUCK (R239). Where those rules leave a point open,
the clauses rest on the model's choices: log entries 3, 9, 26, 35 and 123. -/
def Obligations.TripsComplete : Prop :=
  (∀ (n : Channel) (onMs : Nat) (s : State), (s.tripCh n).gate = true → Does (.fastTrip n onMs) s fun t =>
    t.on (PPW_EVT.FAST n) = true ∧ t.g (PPW_RETRY.COUNT n) = min 31 (s.g (PPW_RETRY.COUNT n) + 1) ∧ t.sticky 80 = true) ∧
  (∀ (n : Channel) (onMs : Nat) (s : State), (s.tripCh n).gate = true → s.fastAhead n = false → Does (.slowTrip n onMs) s fun t =>
    t.on (PPW_EVT.SLOW n) = true ∧ t.g (PPW_RETRY.COUNT n) = min 31 (s.g (PPW_RETRY.COUNT n) + 1) ∧ t.sticky 81 = true) ∧
  (∀ (n : Channel) (onMs : Nat) (s : State), (s.tripCh n).gate = true → (s.tripCh n).rampDone = true →
    s.on (PPW_STATUS.SINK n) = false → Does (.undervoltageTrip n onMs) s fun t => t.on (PPW_EVT.UV n) = true ∧
    t.g (PPW_RETRY.COUNT n) = min 31 (s.g (PPW_RETRY.COUNT n) + 1) ∧ t.sticky 82 = true) ∧
  (∀ (n : Channel) (onMs : Nat) (s : State), (s.tripCh n).gate = true → (s.tripCh n).rampDone = false →
    s.on (PPW_STATUS.SINK n) = false → Does (.rampFail n onMs) s fun t => t.on (PPW_EVT.RAMP_FAIL n) = true ∧
    t.g (PPW_RETRY.COUNT n) = min 31 (s.g (PPW_RETRY.COUNT n) + 1) ∧ t.sticky 83 = true) ∧
  (∀ (n : Channel) (onMs : Nat) (s : State), (s.tripCh n).gate = true → (s.tripCh n).rampDone = true →
    s.on (PPW_STATUS.GATE_OK n) = false → Does (.gateStuck n onMs) s fun t => t.on (PPW_EVT.GATE_STUCK n) = true ∧
    t.g (PPW_RETRY.COUNT n) = min 31 (s.g (PPW_RETRY.COUNT n) + 1) ∧ t.sticky 84 = true)

/-- Attach, detach, VCONN and recovery of a Type-C port. For each clause, for every state and all operands that meet its
hypotheses on the state and the operands alone, exec answers a next state in which the values the clause names stand as the
rules of the cited sections give them. Commands, with the rules their hypotheses and effects follow: ATTACH_DETECT (R200, R202,
R267), CC_ATTACH_DEBOUNCE_END (R201, R203), VBUS_DISCHARGED (R203), RAMP_COMPLETE (R227), DETACH_DEBOUNCE_END (R204, R224,
R202), SINK_DETACH (R204), RD_OPEN_DURING_SLEW (R224), DRP_TOGGLE (R201), TRY_SNK_TIMEOUT (R201), SINK_ATTACH (R201, R228,
R267, R357), ERROR_RECOVERY_END (R205, R219), HARD_RESET_RECEIVED (R214), PS_HARD_RESET_TIMER (R213, R214), SRC_RECOVER_END
(R213, R214, R203, R208), VCONN_SWAP (R218, R224), PS_RDY_RECEIVED (R218), VCONN_OVERCURRENT (R218), CC_OVERVOLTAGE (R224),
VSET_TRIM (R209, R211). Where those rules leave a point open, the clauses rest on the model's choices: log entries 2, 3, 8, 26,
95, 150, 164, 167, 168, 170 and 173. -/
def Obligations.TypeCCommandsComplete : Prop :=
  (∀ (n : Channel) (cc2 : Bool) (ra : Bool) (acc : Bool) (s : State), s.on TCP_CTRL.ENABLE = true → s.hasCC n = true →
    acc = false → (s.g (TCP_PORT.STATE n) = 1 ∨ s.g (TCP_PORT.STATE n) = 3) → s.domOn dPPA = true → Does (.attachDetect n cc2 ra acc) s fun t =>
    t.g (TCP_PORT.STATE n) = 3 ∧ t.on (TCP_PORT.ORIENT n) = cc2 ∧ t.on (TCP_CABLE.RA n) = ra) ∧
  (∀ (n : Channel) (cc2 : Bool) (ra : Bool) (acc : Bool) (s : State), s.domOn dPPA = true → s.on TCP_CTRL.ENABLE = true → s.hasCC n = true →
    acc = true → Does (.attachDetect n cc2 ra acc) s fun t => t.on (TCP_EVT.ACC_SEEN n) = true) ∧
  (∀ (n : Channel) (cc2 : Bool) (ra : Bool) (acc : Bool) (s : State), s.domOn dPPA = false →
    Does (.attachDetect n cc2 ra acc) s fun t => ([dPPA], .attach n cc2 ra acc) ∈ t.pdc.late) ∧
  (∀ (n : Channel) (s : State), (s.typ n ≠ 3 ∨ (s.tc n).tried = true) → s.g (TCP_PORT.STATE n) = 3 → (s.ch n).vbusLow = false →
    Does (.ccAttachDebounceEnd n) s fun t => (t.tc n).debounced = true) ∧
  (∀ (n : Channel) (s : State), (s.typ n ≠ 3 ∨ (s.tc n).tried = true) → s.g (TCP_PORT.STATE n) = 3 → (s.ch n).vbusLow = true →
    Does (.ccAttachDebounceEnd n) s fun t => t.on (TCP_EVT.ATTACH n) = true) ∧
  (∀ (n : Channel) (s : State), s.typ n = 3 → (s.tc n).tried = false → s.g (TCP_PORT.STATE n) = 3 →
    Does (.ccAttachDebounceEnd n) s fun t => t.g (TCP_PORT.STATE n) = 5 ∧ t.g (TCP_PORT.RP n) = 0) ∧
  (∀ (n : Channel) (s : State), (s.vbusFell n).g (TCP_PORT.STATE n) = 3 → ((s.vbusFell n).tc n).debounced = true →
    ((s.vbusFell n).ch n).vbusLow = true → Does (.vbusDischarged n) s fun t => t.on (TCP_EVT.ATTACH n) = true) ∧
  (∀ (n : Channel) (gateOk : Bool) (s : State), (s.ch n).gate = true → (s.ch n).rampDone = false →
    Does (.rampComplete n gateOk) s fun t => (t.ch n).rampDone = true) ∧
  (∀ (n : Channel) (gateOk : Bool) (s : State), (s.ch n).gate = true → (s.ch n).rampDone = false →
    s.on (PPW_STATUS.SINK n) = true → Does (.rampComplete n gateOk) s fun t => t.on (PPW_STATUS.PG n) = true) ∧
  (∀ (n : Channel) (s : State), s.isSource n = true → Does (.detachDebounceEnd n) s fun t =>
    t.on (TCP_EVT.DETACH n) = true ∧ ((s.tc n).trans ≠ .none → t.on (TCP_EVT.FAST_DETACH n) = true)) ∧
  (∀ (n : Channel) (s : State), s.isSink n = true → Does (.sinkDetach n) s fun t => t.on (TCP_EVT.DETACH n) = true) ∧
  (∀ (n : Channel) (isOpen : Bool) (code : BitVec 14) (s : State), s.isSource n = true → s.on (TCP_VSET.SLEWING n) = true →
    Does (.rdOpenDuringSlew n isOpen code) s fun t => t.on (TCP_VSET.FROZEN n) = isOpen) ∧
  (∀ (n : Channel) (isOpen : Bool) (code : BitVec 14) (s : State), s.isSource n = true → s.on (TCP_VSET.SLEWING n) = true →
    isOpen = true → s.on (TCP_VSET.FROZEN n) = false →
    min (s.g (TCP_VSET.CODE n)) (s.g (TCP_VSET.TARGET n)) ≤ code.toNat →
    code.toNat ≤ max (s.g (TCP_VSET.CODE n)) (s.g (TCP_VSET.TARGET n)) →
    Does (.rdOpenDuringSlew n isOpen code) s fun t => t.g (TCP_VSET.CODE n) = code.toNat) ∧
  (∀ (n : Channel) (s : State), s.typ n = 3 → s.on TCP_CTRL.ENABLE = true → s.mode = 3 → s.g (TCP_PORT.STATE n) = 1 →
    Does (.drpToggle n) s fun t => t.g (TCP_PORT.STATE n) = 2 ∧ t.g (TCP_PORT.RP n) = 0) ∧
  (∀ (n : Channel) (s : State), s.typ n = 3 → s.on TCP_CTRL.ENABLE = true → s.mode = 3 → s.g (TCP_PORT.STATE n) = 2 →
    Does (.drpToggle n) s fun t => t.g (TCP_PORT.STATE n) = 1) ∧
  (∀ (n : Channel) (s : State), s.g (TCP_PORT.STATE n) = 5 → Does (.trySnkTimeout n) s fun t => t.g (TCP_PORT.STATE n) = 3 ∧
    (t.tc n).tried = true) ∧
  (∀ (n : Channel) (cc2 : Bool) (rp : Fin 4) (s : State), n.val ≠ 15 → s.typ n = 3 → s.mode = 3 →
    s.on TCP_CTRL.ENABLE = true → s.g (TCP_PORT.STATE n) ∈ [1, 2, 4, 5] → s.domOn dPPA = true →
    Does (.sinkAttach n cc2 rp) s fun t => t.g (TCP_PORT.STATE n) = 7 ∧ t.on (PPW_STATUS.SINK n) = true ∧
    t.on (TCP_EVT.ATTACH n) = true ∧ (t.ch n).attached = true ∧ (t.tc n).srcRp = rp) ∧
  (∀ (n : Channel) (cc2 : Bool) (rp : Fin 4) (s : State), s.domOn dPPA = false → Does (.sinkAttach n cc2 rp) s fun t =>
    ([dPPA], .sink n cc2 rp) ∈ t.pdc.late) ∧
  (∀ (n : Channel) (s : State), s.g (TCP_PORT.STATE n) = 9 → Does (.errorRecoveryEnd n) s fun t =>
    t.g (TCP_PORT.STATE n) = (if s.on TCP_CTRL.ENABLE then s.unattached n else if n.val = 15 then 8 else 0)) ∧
  (∀ (n : Channel) (s : State), s.pdOn n = true → (s.isSource n = true ∨ s.isSink n = true) → Does (.hardResetReceived n) s fun t =>
    t.on (TCP_EVT.HR_RX n) = true) ∧
  (∀ (n : Channel) (s : State), (s.tc n).recovering = true → Does (.psHardResetTimer n) s fun t =>
    (t.ch n).gate = false) ∧
  (∀ (n : Channel) (s : State), (s.tc n).recovering = true → s.isSource n = true → (s.tc n).vconnBack = false →
    Does (.srcRecoverEnd n) s fun t =>
    t = (s.tcMod n fun x => { x with recovering := false, vconnBack := false }).tryRamp n) ∧
  (∀ (n : Channel) (hdr : BitVec 16) (s : State), s.pdOn n = true → s.mayVconn n = true → (s.tc n).swap ≠ 3 →
    s.on (TCP_PORT.VCONN_ON n) = true → Does (.vconnSwap n hdr) s fun t => (t.tc n).swap = 1) ∧
  (∀ (n : Channel) (hdr : BitVec 16) (s : State), s.pdOn n = true → s.mayVconn n = true → (s.tc n).swap ≠ 3 →
    s.on (TCP_PORT.VCONN_ON n) = false → Does (.vconnSwap n hdr) s fun t => t.on (TCP_PORT.VCONN_ON n) = true ∧
    t.on (TCP_EVT.VCONN_SWAP n) = true) ∧
  (∀ (n : Channel) (hdr : BitVec 16) (s : State), s.pdOn n = true → (s.tc n).swap = 1 → Does (.psRdyReceived n hdr) s fun t =>
    t.on (TCP_PORT.VCONN_ON n) = false ∧ (t.tc n).swap = 0 ∧ t.on (TCP_EVT.VCONN_SWAP n) = true) ∧
  (∀ (n : Channel) (s : State), s.on (TCP_PORT.VCONN_ON n) = true → Does (.vconnOvercurrent n) s fun t =>
    t.on (TCP_EVT.VCONN_OC n) = true ∧ t.sticky 65 = true) ∧
  (∀ (n : Channel) (s : State), s.hasCC n = true → Does (.ccOvervoltage n) s fun t => t.on (TCP_EVT.CC_OV n) = true ∧
    t.sticky 64 = true) ∧
  (∀ (n : Channel) (mv : Nat) (limiting : Bool) (s : State), (s.tc n).ppsCut = false → s.on (TCP_VSET.SLEWING n) = false →
    (s.ch n).rampDone = true → s.on (PPW_STATUS.SINK n) = false → limiting = false → s.on TCP_CTRL.TRIM_EN = true →
    mv + 20 < 5 * s.g (TCP_VSET.TARGET n) → Does (.vsetTrim n mv limiting) s fun t =>
    t.g (TCP_VSET.CODE n) = min (s.g (TCP_VSET.CODE n) + min 4 ((5 * s.g (TCP_VSET.TARGET n) - mv) / 5)) (s.g (TCP_VSET.TARGET n) + 60) % 2 ^ (TCP_VSET.CODE n).width)

/-- A source's PD messages, transitions and timers. For each clause, for every state and all operands that meet its hypotheses
on the state and the operands alone, exec answers a next state in which the values the clause names stand as the rules of the
cited sections give them. Commands, with the rules their hypotheses and effects follow: PD_REQUEST (R207, R224),
SRC_TRANSITION_END (R210), SLEW_DONE (R210, R224), SETTLE_DONE (R200, R210, R224), PS_RDY_TIMEOUT (R210),
DISCOVER_IDENTITY_ATTEMPT (R206, R208, R218), SOURCE_CAP_TIMER (R208), GET_SOURCE_CAP (R216), GET_SOURCE_CAP_EXTENDED (R216),
GET_PPS_STATUS (R216), EPR_MODE_ENTER (R217, R218), EPR_MODE_EXIT (R216), EPR_GET_SOURCE_CAP (R216), PPS_TIMEOUT (R213),
EPR_KEEPALIVE_TIMEOUT (R213), SENDER_RESPONSE_TIMEOUT (R213). Where those rules leave a point open, the clauses rest on the
model's choices: log entries 2, 3, 6, 7, 8, 49, 50, 150, 169 and 170. -/
def Obligations.PdSourceComplete : Prop :=
  (∀ (n : Channel) (hdr : BitVec 16) (rdo : BitVec 32) (s : State), s.pdOn n = true → s.isSource n = true → (s.tc n).trans = .none →
    Does (.pdRequest n hdr rdo) s fun t =>
    t = ((s.pdGot n hdr [rdo.toNat]).tcMod n fun x => { x with lastRdo := rdo.toNat }).evalReq n (rdoReq (s.objAt n (bitsOf rdo.toNat 28 4)) rdo.toNat)) ∧
  (∀ (n : Channel) (hdr : BitVec 16) (rdo : BitVec 32) (s : State), s.isSource n = true → (s.tc n).trans ≠ .none →
    s.pdOn n = true → Does (.pdRequest n hdr rdo) s fun t =>
    (t.tc n).queued = some (rdoReq (s.objAt n (bitsOf rdo.toNat 28 4)) rdo.toNat) ∧ .pd n 0 .wait [] ∈ t.outs) ∧
  (∀ (n : Channel) (s : State), s.isSource n = true → (s.tc n).trans = .srcTransition →
    Does (.srcTransitionEnd n) s fun t => (t.tc n).trans = .slew ∧ t.on (TCP_VSET.SLEWING n) = true ∧
    t.g (TCP_VSET.TARGET n) = (s.tc n).req.mv / 5 % 2 ^ (TCP_VSET.TARGET n).width) ∧
  (∀ (n : Channel) (s : State), (s.tc n).trans = .slew → s.on (TCP_VSET.FROZEN n) = false →
    Does (.slewDone n) s fun t => (t.tc n).trans = .settle ∧ t.on (TCP_VSET.SLEWING n) = false ∧
    t.g (TCP_VSET.CODE n) = s.g (TCP_VSET.TARGET n) % 2 ^ (TCP_VSET.CODE n).width) ∧
  (∀ (n : Channel) (s : State), s.isSource n = true → (s.tc n).trans = .settle → s.detachAhead n = false →
    (s.tc n).queued = none → Does (.settleDone n) s fun t => (t.tc n).trans = .none ∧ t.on (TCP_EVT.CONTRACT n) = true ∧
    t.g (TCP_CONTRACT.VOLTAGE n) = (s.tc n).req.mv / 20 % 2 ^ (TCP_CONTRACT.VOLTAGE n).width ∧
    t.g (TCP_CONTRACT.CURRENT n) = (s.tc n).req.ma / 50 % 2 ^ (TCP_CONTRACT.CURRENT n).width ∧
    t.g (TCP_PORT.CONTRACT n) = (if s.on (TCP_CONTRACT.EPR n) then 3 else 2)) ∧
  (∀ (n : Channel) (s : State), s.isSource n = true → (s.tc n).trans ≠ .none → Does (.psRdyTimeout n) s fun t =>
    t.on (TCP_EVT.NOT_READY n) = true ∧ t.sticky 66 = true) ∧
  (∀ (n : Channel) (answered : Bool) (amp5 : Bool) (eprOk : Bool) (maxV : Fin 4) (s : State), s.isSource n = true →
    s.pdOn n = true → (s.tc n).partnerVconn = false → s.discoveryDue n = true →
    Does (.discoverIdentityAttempt n answered amp5 eprOk maxV) s fun t => .pd n 1 .discoverIdentity [] ∈ t.outs ∧
    (answered = true → t.on (TCP_CABLE.DISCOVERED n) = true ∧ t.on (TCP_CABLE.AMP5 n) = amp5 ∧
    t.on (TCP_CABLE.EPR_OK n) = eprOk ∧ t.g (TCP_CABLE.MAX_V n) = maxV)) ∧
  (∀ (n : Channel) (goodCrc : Bool) (s : State), s.pdOn n = true → s.isSource n = true → 0 < (s.tc n).capsLeft →
    s.discoveryDue n = false → Does (.sourceCapTimer n goodCrc) s fun t =>
    (t.tc n).capsLeft = (if goodCrc then 0 else (s.tc n).capsLeft - 1)) ∧
  (∀ (n : Channel) (hdr : BitVec 16) (s : State), s.pdOn n = true → s.isSource n = true → Does (.getSourceCap n hdr) s fun t =>
    t = (s.pdGot n hdr).offerCaps n .sourceCaps ((s.pdGot n hdr).sprCaps n)) ∧
  (∀ (n : Channel) (hdr : BitVec 16) (info : Bool) (s : State), bitsOf hdr.toNat 6 2 ≠ 1 → s.isSource n = true → s.pdOn n = true →
    Does (.getSourceCapExtended n hdr info) s fun t =>
    ∃ l, .pd n 0 (if info then .sourceInfo else .sourceCapsExt) l ∈ t.outs) ∧
  (∀ (n : Channel) (hdr : BitVec 16) (s : State), bitsOf hdr.toNat 6 2 ≠ 1 → s.isSource n = true → 2 ≤ s.g (TCP_PORT.CONTRACT n) →
    s.g (TCP_CONTRACT.KIND n) = 1 → s.pdOn n = true → Does (.getPpsStatus n hdr) s fun t =>
    .pd n 0 .ppsStatus [s.g (TLM_AVG1MS.V n) / 20 + min 255 (s.g (TLM_AVG1MS.I n) / 50) * 2 ^ 16 + b2n (s.tc n).ppsCut * 2 ^ 27] ∈ t.outs) ∧
  (∀ (n : Channel) (hdr : BitVec 16) (s : State), s.pdOn n = true → bitsOf hdr.toNat 6 2 ≠ 1 → s.isSource n = true → (s.pdGot n hdr).eprEnterFail n = 0 →
    Does (.eprModeEnter n hdr) s fun t => t.on (TCP_CONTRACT.EPR n) = true) ∧
  (∀ (n : Channel) (hdr : BitVec 16) (s : State), s.pdOn n = true → bitsOf hdr.toNat 6 2 ≠ 1 → s.isSource n = true → s.on (TCP_CONTRACT.EPR n) = true →
    Does (.eprModeExit n hdr) s fun t => t.on (TCP_CONTRACT.EPR n) = false ∧ (s.g (TCP_PORT.CONTRACT n) = 3 →
    t.g (TCP_PORT.CONTRACT n) = 2)) ∧
  (∀ (n : Channel) (hdr : BitVec 16) (s : State), s.pdOn n = true → bitsOf hdr.toNat 6 2 ≠ 1 → s.isSource n = true → s.on (TCP_CONTRACT.EPR n) = true →
    Does (.eprGetSourceCap n hdr) s fun t => t = (s.pdGot n hdr).sendCaps n) ∧
  (∀ (n : Channel) (s : State), s.isSource n = true → 2 ≤ s.g (TCP_PORT.CONTRACT n) → s.g (TCP_CONTRACT.KIND n) = 1 →
    Does (.ppsTimeout n) s fun t => t.on (TCP_EVT.KA_TIMEOUT n) = true ∧ t.sticky 68 = true) ∧
  (∀ (n : Channel) (s : State), s.isSource n = true → s.on (TCP_CONTRACT.EPR n) = true →
    Does (.eprKeepaliveTimeout n) s fun t => t.on (TCP_EVT.KA_TIMEOUT n) = true ∧ t.sticky 68 = true) ∧
  (∀ (n : Channel) (s : State), s.pdOn n = true → s.isSource n = true → s.g (TCP_PORT.PD_REV n) ≠ 0 → (s.tc n).softSent = false →
    Does (.senderResponseTimeout n) s fun t => (t.tc n).softSent = true ∧ t.on (TCP_EVT.SOFT_RESET n) = true) ∧
  (∀ (n : Channel) (s : State), s.pdOn n = true → s.isSource n = true → s.g (TCP_PORT.PD_REV n) ≠ 0 → (s.tc n).softSent = true →
    Does (.senderResponseTimeout n) s fun t => t = s.hardReset n true)

/-- Messages a port answers in either role, and those of a sink. For each clause, for every state and all operands that meet
its hypotheses on the state and the operands alone, exec answers a next state in which the values the clause names stand as the
rules of the cited sections give them. Commands, with the rules their hypotheses and effects follow: PING (R216), GET_SINK_CAP
(R216), GET_STATUS (R215, R216), GET_REVISION (R216), SOFT_RESET (R216), UNSUPPORTED_PD_MESSAGE (R216), BIST (R216),
SOURCE_CAPABILITIES (R212), ACCEPT_RECEIVED (R212, R213, R218), EPR_GET_SINK_CAP (R216), EPR_KEEPALIVE (R216), PD_ALERT (R216),
PD_INFO_RECEIVED (R216). Where those rules leave a point open, the clauses rest on the model's choices: log entries 2, 3, 6, 7,
14, 30, 169 and 171. -/
def Obligations.PdAnswersComplete : Prop :=
  (∀ (n : Channel) (hdr : BitVec 16) (s : State), s.pdOn n = true → Does (.ping n hdr) s fun t =>
    t.g (TCP_PORT.PD_REV n) = (if bitsOf hdr.toNat 6 2 = 1 then 1 else 2)) ∧
  (∀ (n : Channel) (hdr : BitVec 16) (ext : Bool) p (s : State), s.sinkSet n = some p → s.pdOn n = true → ext = false →
    Does (.getSinkCap n hdr ext) s fun t => .pd n 0 .sinkCaps (p.pdos.take p.spr) ∈ t.outs) ∧
  (∀ (n : Channel) (hdr : BitVec 16) (ext : Bool) p (s : State), s.sinkSet n = some p → s.pdOn n = true → ext = true →
    bitsOf hdr.toNat 6 2 ≠ 1 → Does (.getSinkCap n hdr ext) s fun t => ∃ l, .pd n 0 .sinkCapsExt l ∈ t.outs) ∧
  (∀ (n : Channel) (hdr : BitVec 16) (s : State), bitsOf hdr.toNat 6 2 ≠ 1 → s.pdOn n = true → Does (.getStatus n hdr) s fun t =>
    .pd n 0 .status [2 * 2 ^ 8, (s.g (BUD_PORT.REDUCED n) * 4 + b2n (s.on TLM_INWARN.PWRWARN || s.on TLM_INWARN.AC_FAIL) * 8) * 2 ^ 8] ∈ t.outs) ∧
  (∀ (n : Channel) (hdr : BitVec 16) (s : State), bitsOf hdr.toNat 6 2 ≠ 1 → s.pdOn n = true → Does (.getRevision n hdr) s fun t =>
    .pd n 0 .revision [0x32000000] ∈ t.outs) ∧
  (∀ (n : Channel) (hdr : BitVec 16) (s : State), s.pdOn n = true → Does (.softReset n hdr) s fun t =>
    t.on (TCP_EVT.SOFT_RESET n) = true ∧ .pd n 0 .accept [] ∈ t.outs) ∧
  (∀ (n : Channel) (hdr : BitVec 16) (s : State), s.pdOn n = true → bitsOf hdr.toNat 6 2 ≠ 1 →
    Does (.unsupportedPdMessage n hdr) s fun t => .pd n 0 .notSupported [] ∈ t.outs) ∧
  (∀ (n : Channel) (hdr : BitVec 16) (carrier : Bool) (s : State), s.pdOn n = true → s.g (TCP_VSET.TARGET n) = 1000 →
    (s.ch n).rampDone = true → (s.tc n).trans = .none → Does (.bist n hdr carrier) s fun t => (t.tc n).bist = true) ∧
  (∀ (n : Channel) (hdr : BitVec 16) (objs : List (BitVec 32)) (epr : Bool) (s : State), s.pdOn n = true → s.isSink n = true →
    Does (.sourceCapabilities n hdr objs epr) s fun t => (t.tc n).objs = objs.map (·.toNat) ∧
    (t.tc n).sinkReq = some (bestReq (((s.sinkSet n).map PdoSet.used).getD [5000 / 50 * 2 ^ 10 + 50]) (objs.map (·.toNat))).1) ∧
  (∀ (n : Channel) (hdr : BitVec 16) (ans : PdAnswer) r (s : State), s.pdOn n = true → s.isSink n = true → (s.tc n).swap ≠ 3 →
    (s.tc n).softSent = false → ans = .psRdy → (s.tc n).sinkReq = some r → Does (.acceptReceived n hdr ans) s fun t =>
    t.on (TCP_EVT.CONTRACT n) = true ∧ (t.tc n).sinkReq = none) ∧
  (∀ (n : Channel) (hdr : BitVec 16) (ans : PdAnswer) (s : State), s.pdOn n = true → (s.tc n).swap ≠ 3 → (s.tc n).softSent = true →
    ans = .accept → Does (.acceptReceived n hdr ans) s fun t => (t.tc n).softSent = false ∧ (t.tc n).msgId = 0) ∧
  (∀ (n : Channel) (hdr : BitVec 16) p (s : State), bitsOf hdr.toNat 6 2 ≠ 1 → s.sinkSet n = some p → 0 < p.epr → s.pdOn n = true →
    Does (.eprGetSinkCap n hdr) s fun t => t = (s.pdGot n hdr).pdSend n .eprSinkCaps (p.pdos.take (7 + p.epr))) ∧
  (∀ (n : Channel) (hdr : BitVec 16) (s : State), bitsOf hdr.toNat 6 2 ≠ 1 → s.pdOn n = true → Does (.eprKeepalive n hdr) s fun t =>
    .pd n 0 .eprKeepAliveAck [4] ∈ t.outs) ∧
  (∀ (n : Channel) (hdr : BitVec 16) (ado : BitVec 32) (s : State), bitsOf hdr.toNat 6 2 ≠ 1 → s.pdOn n = true →
    Does (.pdAlert n hdr ado) s fun t => .pd n 0 .getStatus [] ∈ t.outs) ∧
  (∀ (n : Channel) (hdr : BitVec 16) (data : List (BitVec 32)) (s : State), s.pdOn n = true → Does (.pdInfoReceived n hdr data) s fun t =>
    (bitsOf hdr.toNat 0 5, data.map (·.toNat)) ∈ (t.tc n).info)

/-- Structured VDMs and the DisplayPort alternate mode. For each clause, for every state and all operands that meet its
hypotheses on the state and the operands alone, exec answers a next state in which the values the clause names stand as the
rules of the cited sections give them. Commands, with the rules their hypotheses and effects follow: DISCOVER_IDENTITY (R216),
DISCOVER_SVIDS (R220), DISCOVER_MODES (R220), ENTER_MODE (R220), EXIT_MODE (R220), DP_STATUS_UPDATE (R220), DP_CONFIGURE (R220,
R115), OTHER_STRUCTURED_VDM (R216), UNSTRUCTURED_VDM (R216), HPD_LEVEL_CHANGE (R222), IRQ_HPD (R222). Where those rules leave a
point open, the clauses rest on the model's choices: log entries 2, 3, 7 and 169. -/
def Obligations.DisplayPortComplete : Prop :=
  (∀ (n : Channel) (hdr : BitVec 16) (s : State), s.pdOn n = true → Does (.discoverIdentity n hdr) s fun t =>
    ∃ l, .pd n 0 .vdmAck (1 :: l) ∈ t.outs) ∧
  (∀ (n : Channel) (hdr : BitVec 16) (s : State), s.altDp n = true → s.pdOn n = true →
    Does (.discoverSvids n hdr) s fun t => .pd n 0 .vdmAck [2, 0xFF01] ∈ t.outs) ∧
  (∀ (n : Channel) (hdr : BitVec 16) (s : State), s.altDp n = true → s.pdOn n = true →
    Does (.discoverModes n hdr) s fun t =>
    .pd n 0 .vdmAck [3, 0x45 + ((s.portPaddock n).map (·.dpPins)).getD 0 * 2 ^ 18] ∈ t.outs) ∧
  (∀ (n : Channel) (hdr : BitVec 16) (s : State), s.pdOn n = true → s.altDp n = true → Does (.enterMode n hdr) s fun t =>
    t.g (TCP_DP.STATE (n - 15)) = 2 ∧ (vat t.dp (n - 15)).entered = true) ∧
  (∀ (n : Channel) (hdr : BitVec 16) (s : State), s.altDp n = true → s.pdOn n = true →
    Does (.exitMode n hdr) s fun t => t.g (TCP_DP.STATE (n - 15)) = 0 ∧ .pd n 0 .vdmAck [5] ∈ t.outs) ∧
  (∀ (n : Channel) (hdr : BitVec 16) (s : State), s.altDp n = true → s.pdOn n = true →
    Does (.dpStatusUpdate n hdr) s fun t => .pd n 0 .vdmAck [0x10, s.g (TCP_DP.HPD (n - 15))] ∈ t.outs) ∧
  (∀ (n : Channel) (hdr : BitVec 16) (ufpD : Bool) (pins : Fin 4) (s : State), s.pdOn n = true → s.altDp n = true → ufpD = true →
    pins.val ≠ 0 → bitOf (((s.portPaddock n).map (·.dpPins)).getD 0) (pins - 1) = true → 2 ≤ s.g (TCP_DP.STATE (n - 15)) →
    usbLanes (s.g (TCP_DP.PINS (n - 15))) ≠ usbLanes pins → Does (.dpConfigure n hdr ufpD pins) s fun t =>
    (vat t.dp (n - 15)).wanted = pins ∧ (vat t.dp (n - 15)).step = 1 ∧ (vat t.dp (n - 15)).ackDue = true) ∧
  (∀ (n : Channel) (hdr : BitVec 16) (s : State), s.pdOn n = true →
    Does (.otherStructuredVdm n hdr) s fun t => .pd n 0 .vdmNak [] ∈ t.outs) ∧
  (∀ (n : Channel) (hdr : BitVec 16) (s : State), s.pdOn n = true → bitsOf hdr.toNat 6 2 ≠ 1 →
    Does (.unstructuredVdm n hdr) s fun t => .pd n 0 .notSupported [] ∈ t.outs) ∧
  (∀ (u : Fin 2) (high : Bool) (s : State), Does (.hpdLevelChange u high) s fun t => t.on (TCP_DP.HPD u) = high) ∧
  (∀ (u : Fin 2) (s : State), 2 ≤ s.g (TCP_DP.STATE u) → s.pdOn (15 + u) = true → Does (.irqHpd u) s fun t =>
    .pd (15 + u) 0 .attention [s.g (TCP_DP.HPD u) + 2] ∈ t.outs)

/-- Telemetry, the input monitor and the budget engine. For each clause, for every state and all operands that meet its
hypotheses on the state and the operands alone, exec answers a next state in which the values the clause names stand as the
rules of the cited sections give them. Commands, with the rules their hypotheses and effects follow: TELEMETRY_FRAME (R244,
R250), FIRST_USE_END (R250), PWRWARN_ASSERT (R215, R249, R251, R267), PWRWARN_RELEASE (R249), VIN_UNDERVOLTAGE (R249),
BUDGET_REDUCE (R215, R252), BUDGET_SHED (R254), BUDGET_PERIODIC_REVIEW (R255). Where those rules leave a point open, the
clauses rest on the model's choices: log entries 3, 8, 27, 34, 131, 164 and 172. -/
def Obligations.BudgetCommandsComplete : Prop :=
  (∀ (f : TlmFrame) (s : State), s.on TLM_CTRL.ENABLE = true → s.domOn dPPA = true → Does (.telemetryFrame f) s fun t =>
    (∀ n, n < 17 →
    t.g (TLM_INST.V n) = ((f.chans.getD n default).v1 + (f.chans.getD n default).v2) * 15 / 2 % 2 ^ (TLM_INST.V n).width) ∧
    t.g TLM_TEMP.T0 = tempField f.temps 0) ∧
  (∀ (n : Channel) (s : State), s.on (BUD_PORT.FIRST_USE n) = true → Does (.firstUseEnd n) s fun t =>
    t.on (BUD_PORT.FIRST_USE n) = false) ∧
  (∀ (cause : WarnCause) (s : State), (cause = .iin ∨ s.domOn dPPA = true) → s.mode ≠ 1 → (cause = .acFail → bitOf s.powerE.flags 0 = true) →
    Does (.pwrwarnAssert cause) s fun t => t.on TLM_INWARN.PWRWARN = true ∧ (cause = .vin →
    t.on TLM_INWARN.VIN_LOW = true) ∧ (cause = .iin → t.on TLM_INWARN.IIN_HIGH = true) ∧ (cause = .acFail →
    t.on TLM_INWARN.AC_FAIL = true)) ∧
  (∀ (cause : WarnCause) (s : State), s.mode ≠ 1 → (cause = .acFail → bitOf s.powerE.flags 0 = true) → cause ≠ .iin →
    s.domOn dPPA = false → Does (.pwrwarnAssert cause) s fun t => ([dPPA], .warn cause) ∈ t.pdc.late) ∧
  (∀ (s : State), s.on TLM_INWARN.PWRWARN = true → Does .pwrwarnRelease s fun t => t.on TLM_INWARN.PWRWARN = false ∧
    t.on BUD_STATE.WARN = false) ∧
  (∀ (s : State), s.mode ≠ 1 → Does .vinUndervoltage s fun t => t.on TLM_INWARN.VIN_UV = true ∧ t.sticky 86 = true) ∧
  (∀ (s : State), s.on BUD_CTRL.ENABLE = true → s.sumBudget.budgetNow < s.sumBudget.bud.sum →
    (s.sumBudget.reduceOrder.any fun k => !s.sumBudget.atFloor k) = true → Does .budgetReduce s fun t =>
    t.on BUD_EVT.REDUCE = true ∧ t.on BUD_STATE.REDUCING = true) ∧
  (∀ (onMs : Nat) n (s : State), s.on BUD_CTRL.ENABLE = true → s.sumBudget.budgetNow < s.sumBudget.bud.sum →
    (s.sumBudget.reduceOrder.all fun k => s.sumBudget.atFloor k) = true →
    (s.sumBudget.reduceOrder.find? fun k => s.sumBudget.g (BUD_PORT.PRIORITY k) ≠ 0) = some n →
    Does (.budgetShed onMs) s fun t => t.on BUD_EVT.SHED = true) ∧
  (∀ (s : State), s.on BUD_CTRL.ENABLE = true → s.on TLM_INWARN.PWRWARN = false → Does .budgetPeriodicReview s fun t =>
    t.on BUD_STATE.REDUCING = (List.range 17).any fun n => t.on (BUD_PORT.REDUCED n))

/-- A mailbox's timeout, the scan of polled halves, and the fabric proxy. For each clause, for every state and all operands
that meet its hypotheses on the state and the operands alone, exec answers a next state in which the values the clause names
stand as the rules of the cited sections give them. Commands, with the rules their hypotheses and effects follow:
OUTBOUND_TIMEOUT (R282, R283), INBOUND_POLL (R279), PROXY_MESSAGE_RECEIVED (R283), PROXY_TAKE (R283). Where those rules leave a
point open, the clauses rest on the model's choices: log entries 3, 9, 52, 105 and 175. -/
def Obligations.MailboxComplete : Prop :=
  (∀ (c : Fin 12) (s : State), s.marks.contains (.posted c) = false → s.on (MBX_OUT_CTRL.GO c) = true → (s.mb c).rung = false → s.ackAhead c = false →
    (c.val = 6 →
    s.reach (s.g (MBX_OUT_CTRL.MEMBER 6)) = true) → Does (.outboundTimeout c) s fun t =>
    t.on (MBX_STATUS.OUT_TIMEOUT c) = true ∧ (t.mb c).rung = true ∧ .doorbell c 3 0 ∈ t.outs) ∧
  (∀ (c : Fin 12) (s : State), s.marks.contains (.posted c) = false → s.on (MBX_OUT_CTRL.GO c) = true → (s.mb c).rung = false → s.ackAhead c = false → c.val = 6 →
    s.reach (s.g (MBX_OUT_CTRL.MEMBER 6)) = false → Does (.outboundTimeout c) s fun t =>
    t = ((((s.hw (MBX_STATUS.OUT_TIMEOUT c)).mbMod c fun y => { y with rung := true }).ring c 3 0).mbMod 6 fun y => { y with shut := s.g (MBX_OUT_CTRL.MEMBER 6) :: y.shut }).outFree 6) ∧
  (∀ (s : State), s.domOn dMGT = true → Does .inboundPoll s fun t => ∀ c, c < 12 → s.on (MBX_IN_CTRL.GO c) = true →
    s.notifyWake c = false → (t.mb c).seen = true) ∧
  (∀ (c : CtrlHdr) (reply : Bool) (seq : Fin 16) (words : List (BitVec 32)) (s : State), Taken c s →
    (s.proxyHeld.any fun x => x.member = c.src.val) = false → words.length ≤ 16 →
    Does (.proxyMessageReceived c reply seq words) s fun t =>
    t = ((s.rxCtrl c "PROXY" (b2n reply :: seq.val :: words.map (·.toNat)) id).withProxyHeld (s.proxyHeld ++ [Msg.mk reply seq c.src words])).placeProxy) ∧
  (∀ (stored : Bool) (s : State), s.on (MBX_OUT_CTRL.GO 6) = true → s.domOn dFAB = true →
    s.reach (s.g (MBX_OUT_CTRL.MEMBER 6)) = true → stored = true → (s.mb 6).held = [] →
    Does (.proxyTake stored) s fun t => t.on (MBX_OUT_CTRL.GO 6) = false ∧ (t.mb 6).replyOut = false)

/-- A Ghelys link trains, sleeps, and wakes by the yard bell. For each clause, for every state and all operands that meet its
hypotheses on the state and the operands alone, exec answers a next state in which the values the clause names stand as the
rules of the cited sections give them. Commands, with the rules their hypotheses and effects follow: LINK_TRAINED (R131, R170,
R179, R181), LINK_TRAINING_FAILED (R170), LINK_RETRY_TIMER (R170), LINK_IDLE_ENTRY (R171), LINK_NOP_TIMER (R171),
LINK_NOP_RECEIVED (R171, R178, R179), GHELYS_LANE_LOST (R172), SINGLE_LANE_RETRAIN (R172), SLEEP_IDLE_TIMEOUT (R173), SLEEP_REQ
(R173), SLEEP_ACK (R173), SLEEP_NAK (R173), BELL_RING (R174), BELL_ACCEPTED (R174, R267), BELL_TIMEOUT (R174), LINK_RESUME_DONE
(R174). Where those rules leave a point open, the clauses rest on the model's choices: log entries 2, 3, 55, 56, 58, 147, 148
and 165. -/
def Obligations.LinkTrainingComplete : Prop :=
  (∀ (k : Fin 4) (lanes : Fin 4) (delay : Nat) (carry : Nat) (s : State), s.mayTrain k = true →
    (s.g (GLK_LINK.STATE k) = 1 ∨ s.g (GLK_LINK.STATE k) = 2) → (lanes.val = 3 ∨ (lanes.val ≠ 0 ∧
    ((s.entryOf k).map fun e => bitOf e.1.flags 0) = some true)) → Does (.linkTrained k lanes delay carry) s fun t =>
    t.g (GLK_LINK.STATE k) = 3 ∧ t.g (GLK_LINK.LANES k) = lanes ∧ t.on (GLK_EVT.UP k) = true ∧ (lanes.val ≠ 3 →
    t.on (GLK_EVT.SINGLE_LANE k) = true) ∧ t.g (GLK_DELAY.DELAY k) = min 65535 delay ∧ t.g (TML_PRED.HISTORY dFAB) = 0) ∧
  (∀ (k : Fin 4) (s : State), s.mayTrain k = true → (s.g (GLK_LINK.STATE k) = 1 ∨ s.g (GLK_LINK.STATE k) = 2) →
    (s.lk k).retried = false → Does (.linkTrainingFailed k) s fun t => t.g (GLK_LINK.STATE k) = 1 ∧
    (t.lk k).retried = true) ∧
  (∀ (k : Fin 4) (s : State), s.mode = 3 → (s.entryOf k).isSome = true → (s.lk k).failed = true → s.mayTrain k = true →
    Does (.linkRetryTimer k) s fun t => t.g (GLK_LINK.STATE k) = 1 ∧ (t.lk k).retried = true) ∧
  (∀ (k : Fin 4) (s : State), s.mode = 3 → (s.entryOf k).isSome = true → (s.lk k).failed = true → s.domOn dFAB = false →
    Does (.linkRetryTimer k) s fun t =>
    t = (s.lkMod k fun l => { l with retried := true, retryDue := true }).wakeBy 7 dFAB) ∧
  (∀ (k : Fin 4) (s : State), s.g (GLK_LINK.STATE k) = 4 → (s.lk k).run = [] → (s.lk k).ctrlQ = [] →
    Does (.linkIdleEntry k) s fun t => t.on (GLK_LINK.IDLE k) = true) ∧
  (∀ (k : Fin 4) (s : State), s.lkAwake k = true → (s.lk k).cut = false → Does (.linkNopTimer k) s fun t => ∃ l, .bale k "NOP" l ∈ t.outs) ∧
  (∀ (h : BaleHdr) (s : State), s.lkAwake h.link = true → Does (.linkNopReceived h) s fun t => t = s.rxHdr h) ∧
  (∀ (k : Fin 4) (upper : Bool) (s : State), s.inService k = true →
    ((s.entryOf k).map fun e => bitOf e.1.flags 0) ≠ some true → (s.g (GLK_LINK.LANES k) ≠ (if upper then 1 else 2)) →
    Does (.ghelysLaneLost k upper) s fun t => t.on (GLK_EVT.DOWN k) = true) ∧
  (∀ (k : Fin 4) (upper : Bool) (s : State), s.inService k = true →
    ((s.entryOf k).map fun e => bitOf e.1.flags 0) = some true → s.g (GLK_LINK.LANES k) = 3 →
    Does (.ghelysLaneLost k upper) s fun t => t.on (GLK_EVT.SINGLE_LANE k) = true) ∧
  (∀ (k : Fin 4) (s : State), (s.g (GLK_LINK.LANES k) = 1 ∨ s.g (GLK_LINK.LANES k) = 2) → (s.lk k).win = [] →
    (s.lk k).run = [] → s.inService k = true → s.mayTrain k = true → Does (.singleLaneRetrain k) s fun t =>
    t = s.retrain k ∧
    (t.mode = 3 → t.g (GLK_LINK.STATE k) = 1 ∧ t.g (GLK_LINK.LANES k) = 0)) ∧
  (∀ (k : Fin 4) (s : State), s.maySleep k = true → (s.lk k).cut = false → s.member < s.g (GLK_LINK.PEER_MEMBER k) →
    Does (.sleepIdleTimeout k) s fun t => (t.lk k).sleepReq = true ∧ ∃ l, .bale k "SLEEP_REQ" l ∈ t.outs) ∧
  (∀ (h : BaleHdr) (s : State), s.lkAwake h.link = true → (s.rxLink h).maySleep h.link = true →
    Does (.sleepReq h) s fun t => t.g (GLK_LINK.STATE h.link) = 5 ∧ (t.lk h.link).bells = 0) ∧
  (∀ (h : BaleHdr) (s : State), s.lkAwake h.link = true → (s.rxLink h).maySleep h.link = false →
    Does (.sleepReq h) s fun t => t = (s.rxLink h).linkBale h.link "SLEEP_NAK" []) ∧
  (∀ (h : BaleHdr) (s : State), s.lkAwake h.link = true → (s.lk h.link).sleepReq = true → Does (.sleepAck h) s fun t =>
    t.g (GLK_LINK.STATE h.link) = 5 ∧ (t.lk h.link).sleepReq = false) ∧
  (∀ (h : BaleHdr) (s : State), s.lkAwake h.link = true → Does (.sleepNak h) s fun t => (t.lk h.link).sleepReq = false) ∧
  (∀ (k : Fin 4) (s : State), (s.lk k).asleep = true → s.bellAhead k = false → s.queuedOn k = true → (s.lk k).bells = 0 →
    Does (.bellRing k) s fun t => (t.lk k).bells = 1 ∧ .line "BELL" [k.val] ∈ t.outs) ∧
  (∀ (k : Fin 4) (s : State), Does (.bellAccepted k) s fun t => bitOf (t.g GLK_WAKE.BELL_SEEN) k = true ∧
    (s.domOn dFAB = true → t.on (GLK_EVT.BELL_RX k) = true) ∧ (t.lk k).bells = max 1 (s.lk k).bells) ∧
  (∀ (k : Fin 4) (s : State), (s.lk k).asleep = true → s.bellAhead k = false → 0 < (s.lk k).bells →
    (s.lk k).bells < 5 →
    Does (.bellTimeout k) s fun t => (t.lk k).bells = (s.lk k).bells + 1 ∧ .line "BELL" [k.val] ∈ t.outs) ∧
  (∀ (k : Fin 4) (s : State), (s.lk k).asleep = true → 5 ≤ (s.lk k).bells → Does (.bellTimeout k) s fun t =>
    t.on (GLK_EVT.BELL_FAIL k) = true ∧ t.on (GLK_EVT.DOWN k) = true) ∧
  (∀ (k : Fin 4) (s : State), s.g (GLK_LINK.STATE k) = 5 → (s.lk k).asleep = true → s.domOn dFAB = true →
    Does (.linkResumeDone k) s fun t => (let u := (s.lkMod k fun l => { l with bells := 0 }).glkState k 4; t = State.pump k pumpFuel (u.when (!(u.lk k).win.isEmpty) fun v => v.replayFrom k 0)))

/-- What the LINK bales and timers of a link in service do. For each clause, for every state and all operands that meet its
hypotheses on the state and the operands alone, exec answers a next state in which the values the clause names stand as the
rules of the cited sections give them. Commands, with the rules their hypotheses and effects follow: NAK_RECEIVED (R178),
REPLAY_TIMEOUT (R178), PARAM_RECEIVED (R179), PROBE_RECEIVED (R86, R170), LINK_DELAY_PROBE (R86), PROBE_REPLY_RECEIVED (R86),
HEARTBEAT_RECEIVED (R197), HEARTBEAT_MISS (R197), LINK_DOWN_RECEIVED (R193), NO_BALE_TIMEOUT (R193), BLOCK_LOCK_LOSS (R193,
R172), ISOLATED_HELLO_TIMER (R181). Where those rules leave a point open, the clauses rest on the model's choices: log entries
2, 41, 43, 56, 58, 59, 148 and 165. -/
def Obligations.LinkServiceComplete : Prop :=
  (∀ (h : BaleHdr) (seq : Fin 512) i (s : State), s.lkAwake h.link = true →
    ((s.rxLink h).lk h.link).win.findIdx? (fun x => x.seq = seq.val) = some i → Does (.nakReceived h seq) s fun t =>
    t = (s.rxLink h).replayDue h.link i) ∧
  (∀ (k : Fin 4) (s : State), s.lkAwake k = true → (s.lk k).win ≠ [] → (s.lk k).replays < s.g GLK_X_TUNE.REPLAY_MAX →
    Does (.replayTimeout k) s fun t =>
    t.g (GLK_ERR.REPLAY k) = min (s.g (GLK_ERR.REPLAY k) + 1) (2 ^ (GLK_ERR.REPLAY k).width - 1)) ∧
  (∀ (k : Fin 4) (s : State), s.lkAwake k = true → (s.lk k).win ≠ [] → s.g GLK_X_TUNE.REPLAY_MAX ≤ (s.lk k).replays →
    Does (.replayTimeout k) s fun t => t.on (GLK_EVT.DOWN k) = true) ∧
  (∀ (k : Fin 4) (data : Fin 65536) (ctrl : Fin 65536) (s : State), s.lkAwake k = true →
    Does (.paramReceived k data ctrl) s fun t =>
    t = State.pump k pumpFuel ((s.p (GLK_LINK.IDLE k) 0).lkMod k fun l => { l with dCred := data, cCred := ctrl })) ∧
  (∀ (h : BaleHdr) (s : State), s.lkAwake h.link = true → Does (.probeReceived h) s fun t =>
    t = (s.rxLink h).linkBale h.link "PROBE_REPLY" []) ∧
  (∀ (k : Fin 4) (s : State), s.lkAwake k = true → (s.lk k).cut = false → Does (.linkDelayProbe k) s fun t => ∃ l, .bale k "PROBE" l ∈ t.outs) ∧
  (∀ (h : BaleHdr) (delay : Nat) (s : State), s.lkAwake h.link = true → Does (.probeReplyReceived h delay) s fun t =>
    t.g (GLK_DELAY.DELAY h.link) = min 65535 delay) ∧
  (∀ (h : BaleHdr) (period : Fin 16777216) (s : State), s.lkAwake h.link = true →
    Does (.heartbeatReceived h period) s fun t => t.g (GLK_HB.PERIOD h.link) = period ∧ t.g (GLK_HB.MISSED h.link) = 0) ∧
  (∀ (k : Fin 4) (s : State), s.lkAwake k = true → s.g (GLK_HB.PERIOD k) ≠ 0 → s.g (GLK_HB.MISSED k) < 2 →
    Does (.heartbeatMiss k) s fun t => t.g (GLK_HB.MISSED k) = s.g (GLK_HB.MISSED k) + 1) ∧
  (∀ (k : Fin 4) (s : State), s.lkAwake k = true → s.g (GLK_HB.PERIOD k) ≠ 0 → 2 ≤ s.g (GLK_HB.MISSED k) →
    Does (.heartbeatMiss k) s fun t => t.g (GLK_HB.MISSED k) = 3 ∧ t.on (GLK_EVT.HB_MISS k) = true) ∧
  (∀ (k : Fin 4) (s : State), s.inService k = true → Does (.linkDownReceived k) s fun t => t.on (GLK_EVT.DOWN k) = true) ∧
  (∀ (k : Fin 4) (s : State), s.lkAwake k = true → Does (.noBaleTimeout k) s fun t => t.on (GLK_EVT.DOWN k) = true) ∧
  (∀ (k : Fin 4) (s : State), s.lkAwake k = true → Does (.blockLockLoss k) s fun t => t.on (GLK_EVT.DOWN k) = true) ∧
  (∀ (k : Fin 4) (s : State), s.g (GLK_LINK.STATE k) = 6 → (s.lk k).cut = false → Does (.isolatedHelloTimer k) s fun t =>
    ∃ l, .bale k "HELLO" l ∈ t.outs)

/-- Formation of the barn, tables, and notices. For each clause, for every state and all operands that meet its hypotheses on
the state and the operands alone, exec answers a next state in which the values the clause names stand as the rules of the
cited sections give them. Commands, with the rules their hypotheses and effects follow: HELLO_RECEIVED (R181, R184),
LSA_RECEIVED (R182, R183), FLOODING_ROUND_END (R183, R184), TABLES_RECEIVED (R183, R185), TABLES_ACK_RECEIVED (R183, R184),
TABLE_SWITCH (R185), FORMED_BROADCAST (R183, R184), FORMED_RECEIVED (R184), FORMATION_DEADLINE (R184, R354), LINK_DOWN_NOTICE
(R194, R198), RESEED_RECEIVED (R192), LOAD_RECEIVED (R190), REBALANCE_WINDOW (R190, R192). Where those rules leave a point
open, the clauses rest on the model's choices: log entries 2, 43, 61, 77, 147, 148, 149 and 165. -/
def Obligations.BarnComplete : Prop :=
  (∀ (h : BaleHdr) (uid : Nat) (hash : Nat) (barnId : Nat) (claimed : Fin 256) (peerLink : Fin 4) (flags : Fin 256) (lead : Fin 256) (s : State), s.lkAwake h.link = true →
    (s.helloSeen h claimed peerLink uid).g (GLK_LINK.STATE h.link) ≠ 6 →
    (s.helloSeen h claimed peerLink uid).helloCause h.link uid hash barnId claimed peerLink ≠ 0 →
    Does (.helloReceived h uid hash barnId claimed peerLink flags lead) s fun t => t.on (GLK_EVT.ISOLATED h.link) = true) ∧
  (∀ (h : BaleHdr) (uid : Nat) (hash : Nat) (barnId : Nat) (claimed : Fin 256) (peerLink : Fin 4) (flags : Fin 256) (lead : Fin 256) (s : State), claimed.val < 8 → claimed.val ≠ s.member → s.severity 50 < 2 → s.severity 52 < 2 → s.lkAwake h.link = true →
    (s.helloSeen h claimed peerLink uid).helloCause h.link uid hash barnId claimed peerLink = 0 →
    Does (.helloReceived h uid hash barnId claimed peerLink flags lead) s fun t => t.g (GLK_LINK.STATE h.link) = 4) ∧
  (∀ (c : CtrlHdr) (links : List LinkAd) (members : List MemberAd) (s : State), Taken c s →
    Does (.lsaReceived c links members) s fun t => t = ((s.rxCtrl c "LSA" [] id).learn links members).isolateClash.learnedNew) ∧
  (∀ (s : State), s.fab.step = 4 → s.fab.learned = true → Does .floodingRoundEnd s fun t => t = s.startFlood) ∧
  (∀ m (s : State), (m = s.member → m < 8 ∧ m ∉ s.fab.lost) → s.fab.step = 4 → s.fab.learned = false →
    ((s.fabMod fun f => { f with route := routesOf f.lsdb f.member, db := f.lsdb }).leadChoice = some m) →
    Does .floodingRoundEnd s fun t => t.g DRV_BARN.STEP = (if m = s.member then 7 else 6) ∧
    t.g DRV_BARN.LEAD = m % 2 ^ DRV_BARN.LEAD.width ∧ (m = s.member → t.fab.acks = [s.member])) ∧
  (∀ (s : State), s.fab.step = 4 → s.fab.learned = false →
    ((s.fabMod fun f => { f with route := routesOf f.lsdb f.member, db := f.lsdb }).leadChoice = none) →
    Does .floodingRoundEnd s fun t => t.g DRV_BARN.STEP = 5) ∧
  (∀ (c : CtrlHdr) (rt : RouteTable) u (s : State), Taken c s → s.rxCtrl c "TABLES" [rt.ver, rt.at_] id = u → u.takesTables c.src = true → Does (.tablesReceived c rt) s fun t => t.g DRV_BARN.LEAD = c.src ∧ t.fab.next = some rt ∧ (u.on DRV_BARN.FORMED = false → t.fab.step = 8)) ∧
  (∀ (c : CtrlHdr) (rt : RouteTable) u (s : State), Taken c s → s.rxCtrl c "TABLES" [rt.ver, rt.at_] id = u → u.takesTables c.src = false → Does (.tablesReceived c rt) s fun t => t = s.rxCtrl c "TABLES" [rt.ver, rt.at_] id) ∧
  (∀ (c : CtrlHdr) (ver : Fin 256) u (s : State), Taken c s → s.rxCtrl c "TABLES_ACK" [ver.val] id = u → u.on DRV_BARN.IS_LEAD = true → (ver.val = (match u.fab.next with | some x => x.ver | none => u.fab.table.ver)) → Does (.tablesAckReceived c ver) s fun t => c.src.val ∈ t.fab.acks) ∧
  (∀ rt (s : State), s.fab.next = some rt → rt.at_ ≤ s.yticks 4 → s.fab.failed = [] → Does .tableSwitch s fun t =>
    (let u := (((((s.fabMod fun f => { f with table := rt, next := none, db := f.nextDb }).p DRV_BARN.TABLE_VER rt.ver).installRoutes rt.main).fabMod fun f => { f with failed := [] }).hw DRV_EVT.TABLE).settleLost.helloAll.tellPens; t = u.each (((List.range 8).filter fun d => !s.reach d).filter fun d => u.reach d) fun d v => v.startResync d)) ∧
  (∀ (ms : Nat) (s : State), s.on DRV_BARN.IS_LEAD = true → s.on DRV_BARN.FORMED = false → s.fab.step = 8 →
    ((List.range s.plan.members).all fun m => s.fab.members.any fun x => x.num = m) = true →
    Does (.formedBroadcast ms) s fun t => t.on DRV_BARN.FORMED = true ∧ t.g DRV_BARN.STEP = 0 ∧
    t.on DRV_EVT.FORMED = true ∧ (s.fab.deadline = false → t.g TOP_BOOT_TIME.CONNECT = min 65535 ms)) ∧
  (∀ (c : CtrlHdr) (ms : Nat) u (s : State), Taken c s → s.rxCtrl c "FORMED" [] id = u → u.on DRV_BARN.FORMED = false → Does (.formedReceived c ms) s fun t => t.on DRV_BARN.FORMED = true ∧ t.g DRV_BARN.STEP = 0 ∧ t.on DRV_EVT.FORMED = true) ∧
  (∀ (ms : Nat) (s : State), s.fab.deadline = false → s.on DRV_BARN.FORMED = false → s.plan.barn.isSome = true →
    Does (.formationDeadline ms) s fun t => t.g TOP_BOOT_TIME.CONNECT = min 65535 ms ∧ (s.on DRV_BARN.IS_LEAD = true →
    t.on DRV_BARN.FORMED = true)) ∧
  (∀ (c : CtrlHdr) (i : Fin 16) (s : State), Taken c s → Does (.linkDownNotice c i) s fun t =>
    (let v := s.rxCtrl c "LINK_DOWN" [i.val] id; let u := ((v.each ((v.castLinks "LINK_DOWN").filter fun k => ((v.entryOf k).map (·.2)) = some i.val) fun k w => w.cutLink k i).entryFailed i).settleLost; t = if u.on DRV_BARN.IS_LEAD then u.pushTables else u)) ∧
  (∀ (c : CtrlHdr) (seed : Fin (2 ^ 64)) (s : State), Taken c s → Does (.reseedReceived c seed) s fun t =>
    t.fab.seed = some seed.val) ∧
  (∀ (c : CtrlHdr) (loads : List Nat) (s : State), Taken c s → Does (.loadReceived c loads) s fun t =>
    t = s.rxCtrl c "LOAD" loads id) ∧
  (∀ (s : State), s.domOn dFAB = true → Does .rebalanceWindow s fun t => ∀ k, k < 4 →
    t.g (DRV_LOAD.BALES k) = (s.lk k).load % 2 ^ (DRV_LOAD.BALES k).width)

/-- Data bales, flow records, DELIVERED counts and resync. For each clause, for every state and all operands that meet its
hypotheses on the state and the operands alone, exec answers a next state in which the values the clause names stand as the
rules of the cited sections give them. Commands, with the rules their hypotheses and effects follow: DATA_BALE_RECEIVED (R107,
R175, R180), FLOW_OPEN_RECEIVED (R187), FLOW_RECORD_FREE (R187), DELIVERED_RECEIVED (R188), DELIVERED_TIMER (R188),
RESYNC_RECEIVED (R195), RESYNC_ACK_RECEIVED (R194, R195). Where those rules leave a point open, the clauses rest on the model's
choices: log entries 2, 40, 42, 58, 59, 148 and 165. -/
def Obligations.DroverComplete : Prop :=
  (∀ (k : Fin 4) (header : BitVec 64) (payload : List (BitVec 8)) (mark : Bool) (ecc : Fin 3) (s : State), s.lkAwake k = true →
    s.g (GLK_LINK.STATE k) = 4 → header.toNat % 8 ∈ [1, 2, 3] →
    baleCrc (s.lk k).rxSeq header.toNat (pad64 payload) = header.toNat / 2 ^ 48 → s.roomOf (17 + k) ≠ 0 →
    Does (.dataBaleReceived k header payload mark ecc) s fun t =>
    (let r := ((s.rxSequenced k).p (GLK_LINK.IDLE k) 0).baleRead header.toNat ecc mark; let u := r.2.storeBale k header.toNat (pad64 payload) r.1; t = ((u.when (!u.domOn dHUB) fun u => u.linkJudge dHUB).rxHdr ⟨k, Fin.ofNat 512 (bitsOf header.toNat 10 9), Fin.ofNat 8 (bitsOf header.toNat 19 3), bitOf header.toNat 22, 0⟩).settleResync)) ∧
  (∀ (k : Fin 4) (header : BitVec 64) (payload : List (BitVec 8)) (mark : Bool) (ecc : Fin 3) (s : State), s.lkAwake k = true →
    s.g (GLK_LINK.STATE k) = 4 → header.toNat % 8 ∈ [1, 2, 3, 4] →
    baleCrc (s.lk k).rxSeq header.toNat (pad64 payload) ≠ header.toNat / 2 ^ 48 → (s.lk k).nakked = false →
    Does (.dataBaleReceived k header payload mark ecc) s fun t =>
    t.g (GLK_ERR.CRC k) = min (s.g (GLK_ERR.CRC k) + 1) (2 ^ (GLK_ERR.CRC k).width - 1) ∧ (t.lk k).nakked = true) ∧
  (∀ (k : Fin 4) (header : BitVec 64) (payload : List (BitVec 8)) (mark : Bool) (ecc : Fin 3) (s : State), s.lkAwake k = true →
    header.toNat % 8 ∈ [0, 6, 7] → Does (.dataBaleReceived k header payload mark ecc) s fun t =>
    t.g (GLK_ERR.CRC k) = min (s.g (GLK_ERR.CRC k) + 1) (2 ^ (GLK_ERR.CRC k).width - 1) ∧ (t.lk k).nakked = (s.lk k).nakked) ∧
  (∀ (c : CtrlHdr) (o : FlowOpen) (s : State), s.ctrlFits = true → s.g (GLK_LINK.STATE c.hdr.link) = 4 →
    s.fab.seen.contains (ctrlKey c) = false → c.dest.val = s.member → Does (.flowOpenReceived c o) s fun t =>
    ({ src := c.src, open_ := o } : DstRec) ∈ t.fab.dsts) ∧
  (∀ (idx : Fin 512) (s : State), (s.fab.flows.any fun r => r.open_.idx = idx.val && r.undel.isEmpty) = true →
    Does (.flowRecordFree idx) s fun t => t = (s.setFlows (s.fab.flows.filter fun r => r.open_.idx ≠ idx.val)).retryWaits) ∧
  (∀ (c : CtrlHdr) (counts : List (Fin 512 × Fin 65536)) (s : State), Taken c s →
    Does (.deliveredReceived c counts) s fun t =>
    t = counts.foldl (fun v e => if v.fab.flows.any fun r => r.open_.idx = e.1.val && r.dest = c.src.val then v.takeDelivered e.1 e.2 else v) (s.rxCtrl c "DELIVERED" (counts.flatMap fun e => [e.1.val, e.2.val]) id)) ∧
  (∀ (src : Fin 8) (idx : Fin 512) r (s : State), s.dstRec src idx = some r → 0 < r.unreported →
    Does (.deliveredTimer src idx) s fun t => t = s.sendDelivered src idx) ∧
  (∀ (c : CtrlHdr) (epoch : Bool) (s : State), Taken c s → Does (.resyncReceived c epoch) s fun t =>
    vat t.fab.rxEpoch c.src = epoch) ∧
  (∀ (c : CtrlHdr) (epoch : Bool) (counts : List (Fin 512 × Fin 65536)) (elapsed : Nat) u (s : State), Taken c s → s.rxCtrl c "RESYNC_ACK" (b2n epoch :: counts.flatMap fun e => [e.1.val, e.2.val]) id = u → u.fab.resync = [c.src.val] → epoch = vat u.fab.txEpoch c.src → Does (.resyncAckReceived c epoch counts elapsed) s fun t => t.g DRV_REROUTE.LAST = min 255 elapsed ∧ t.fab.resync = []) ∧
  (∀ (c : CtrlHdr) (epoch : Bool) (counts : List (Fin 512 × Fin 65536)) (elapsed : Nat) u (s : State), Taken c s → s.rxCtrl c "RESYNC_ACK" (b2n epoch :: counts.flatMap fun e => [e.1.val, e.2.val]) id = u → c.src.val ∈ u.fab.resync → epoch ≠ vat u.fab.txEpoch c.src → Does (.resyncAckReceived c epoch counts elapsed) s fun t => c.src.val ∈ t.fab.resync)

/-- Packets enter, leave, wait or are discarded at a port. For each clause, for every state and all operands that meet its
hypotheses on the state and the operands alone, exec answers a next state in which the values the clause names stand as the
rules of the cited sections give them. Commands, with the rules their hypotheses and effects follow: DOWNSTREAM_PACKET (R101,
R107, R187), UPSTREAM_PACKET (R95, R102, R107, R125), EGRESS_QUEUE_HEAD (R105, R107, R112), PORT_U0_REACHED (R105, R113, R125),
RECOVERY_HOLD_EXPIRE (R105), HEADER_CREDIT_RETURN (R111), CREDIT_RELEASE (R111). Where those rules leave a point open, the
clauses rest on the model's choices: log entries 2, 9, 40, 41, 44, 57, 58, 138, 139 and 140. -/
def Obligations.SuperSpeedPacketsComplete : Prop :=
  (∀ (u : Fin 2) (pkt : SsPacket) (ecc : Fin 3) slot (s : State), s.slotOf u = some slot → s.canEnter (15 + u) pkt = true →
    Does (.downstreamPacket u pkt ecc) s fun t =>
    (let b := (s.enter (15 + u) pkt).1; let v := (s.enter (15 + u) pkt).2; t = match v.decode slot pkt with | .root => (v.freeCells b.q b.banks).out (.line "ROOT_PACKET" [u.val]) | .pen k m => if m = v.member then (v.freeCells b.q b.banks).out (.line "PEN_PACKET" [slot, k]) else v.readSend slot m (0x40 + k) ecc b | .stall m n => if m = v.member then v.pushEgress n b else v.readSend slot m n ecc b | .discard => v.dropAt (15 + u) b)) ∧
  (∀ (n : Stall) (pkt : SsPacket) (ecc : Fin 3) slot (s : State), s.holderOf n = some slot → s.canEnter n pkt = true →
    Does (.upstreamPacket n pkt ecc) s fun t =>
    (let v := ((s.packetAt n).enter n pkt).2; t = (if pkt.wake && (v.upKnown slot).link ≠ 0 then v.p (SSH_PORT_LPM.FW_HELD n) 1 else v).sendUp slot ecc ((s.packetAt n).enter n pkt).1)) ∧
  (∀ (n : Channel) (ecc : Fin 3) b rest (s : State), s.ssOn = true → s.egress n = b :: rest → b.held = false →
    ecc.val ≠ 2 → s.g (SSH_PORT.LINK n) = 0 → s.headsPassed = [] → s.headsAhead = [] →
    s.marks.contains (.headRead n) = false → Does (.egressQueueHead n ecc) s fun t => .ssPacket n b.pkt ∈ t.outs) ∧
  (∀ (n : Channel) (ecc : Fin 3) m e (s : State), s.ssOn = true → s.readClass n = 2 → s.readClass m = 1 →
    s.headsPassed = [] → s.headsAhead = [(m, e)] → s.marks.contains (.headRead n) = false →
    s.marks.contains (.headRead m) = false → m ≠ n → Does (.egressQueueHead n ecc) s fun t =>
    t = ((s.mark (.headWaits n ecc)).mark (.headRead m)).egressHead m e) ∧
  (∀ (n : Channel) (ecc : Fin 3) b rest (s : State), s.ssOn = true → s.egress n = b :: rest → b.held = false →
    s.g (SSH_PORT.LINK n) ∈ [4, 5, 6, 7, 9] → s.marks.contains (.headRead n) = false →
    Does (.egressQueueHead n ecc) s fun t => t.on (SSH_PORT_EVT.DROP n) = true) ∧
  (∀ (n : Channel) (rate : Fin 5) (s : State), s.domOn dHUB = true → s.g (SSH_PORT.LINK n) ∈ [1, 2, 3, 7, 8, 9] →
    Does (.portU0Reached n rate) s fun t => t.g (SSH_PORT.LINK n) = 0 ∧ (s.g (SSH_PORT.LINK n) = 7 →
    t.g (SSH_PORT.RATE n) = s.rateCap n rate)) ∧
  (∀ (n : Channel) (s : State), 4 ≤ s.g (SSH_PORT.LINK n) → Does (.recoveryHoldExpire n) s fun t =>
    t.egress n = (s.egress n).filter fun b => !b.held) ∧
  (∀ (n : Channel) (s : State), s.g (SSH_PORT.HP_IN n) ≠ 0 → s.creditOk n = true →
    Does (.headerCreditReturn n) s fun t => t.g (SSH_PORT.HP_IN n) = s.g (SSH_PORT.HP_IN n) - 1 ∧
    .line "HEADER_CREDIT" [n.val, 1] ∈ t.outs) ∧
  (∀ (n : Channel) (s : State), s.g (SSH_PORT.HP_IN n) ≠ 0 → s.creditOk n = false →
    Does (.headerCreditReturn n) s fun t => t.g (SSH_PORT.HP_IN n) = s.g (SSH_PORT.HP_IN n) - 1 ∧
    vat t.ss.withheld n = vat s.ss.withheld n + 1 ∧ t.on PBF_EVT.HOLD = true) ∧
  (∀ (q : Fin 21) (s : State), s.creditOk q = true → q.val < 17 → vat s.ss.withheld q ≠ 0 →
    Does (.creditRelease q) s fun t => vat t.ss.withheld q = 0 ∧
    .line "HEADER_CREDIT" [q.val, vat s.ss.withheld q] ∈ t.outs) ∧
  (∀ (q : Fin 21) (s : State), s.creditOk q = true → 17 ≤ q.val → (s.lk (q - 17)).owedD ≠ 0 →
    Does (.creditRelease q) s fun t => t = s.linkBale (q - 17) "NOP" [])

/-- Link power states, suspend and wake, timestamps and delay measurement. For each clause, for every state and all operands
that meet its hypotheses on the state and the operands alone, exec answers a next state in which the values the clause names
stand as the rules of the cited sections give them. Commands, with the rules their hypotheses and effects follow: LGO_RECEIVED
(R106, R120), LPM_INACTIVITY_TIMEOUT (R106, R120), USP_LPM_INITIATE (R121), USP_LGO_RECEIVED (R121), LFPS_DETECTED (R122,
R267), DEVICE_U3_EXIT (R105, R125, R126), HOST_U3_EXIT (R126), SS_LANE_LOST (R127, R328), RX_DETECT_PARTNER_FOUND (R97, R127),
ITP_NOTICE (R118), LDM_EXCHANGE (R119). Where those rules leave a point open, the clauses rest on the model's choices: log
entries 2, 3, 9, 13, 66, 124, 141, 160, 163, 164 and 178. -/
def Obligations.SuperSpeedLinksComplete : Prop :=
  (∀ (n : Stall) (u2 : Bool) (s : State), s.lpmFrom n u2 = true → s.acceptsLgo n u2 = true →
    Does (.lgoReceived n u2) s fun t => t.g (SSH_PORT.LINK n) = (if u2 then 2 else 1) ∧ .line "LAU" [n.val] ∈ t.outs) ∧
  (∀ (n : Stall) (u2 : Bool) (s : State), s.lpmFrom n u2 = true → s.acceptsLgo n u2 = false →
    Does (.lgoReceived n u2) s fun t => .line "LXU" [n.val] ∈ t.outs ∧ t.g (SSH_PORT.LINK n) = s.g (SSH_PORT.LINK n)) ∧
  (∀ (n : Stall) (u2 : Bool) (accepted : Bool) (s : State), s.lpmFrom n u2 = true →
    (1 ≤ s.g (if u2 then SSH_PORT_LPM.U2_TIMEOUT n else SSH_PORT_LPM.U1_TIMEOUT n)) →
    (s.g (if u2 then SSH_PORT_LPM.U2_TIMEOUT n else SSH_PORT_LPM.U1_TIMEOUT n) ≤ (if u2 then 0xFE else 0x7F)) →
    s.egressBusy n = false → s.g (SSH_PORT.LINK n) ≠ 1 → Does (.lpmInactivityTimeout n u2 accepted) s fun t =>
    .line (if u2 then "LGO_U2" else "LGO_U1") [n.val] ∈ t.outs ∧ (accepted = true →
    t.g (SSH_PORT.LINK n) = (if u2 then 2 else 1))) ∧
  (∀ (n : Stall) (accepted : Bool) (s : State), s.lpmFrom n true = true → 1 ≤ s.g (SSH_PORT_LPM.U2_TIMEOUT n) →
    s.g (SSH_PORT_LPM.U2_TIMEOUT n) ≤ 0xFE → s.egressBusy n = false → s.g (SSH_PORT.LINK n) = 1 →
    Does (.lpmInactivityTimeout n true accepted) s fun t => t.g (SSH_PORT.LINK n) = 2) ∧
  (∀ (u : Fin 2) (u2 : Bool) (accepted : Bool) slot (s : State), s.slotOf u = some slot →
    (s.on (if u2 then SSH_USP_LPM.U2_ENABLE u else SSH_USP_LPM.U1_ENABLE u) = true) → s.lpmFrom (15 + u) u2 = true →
    s.egress (15 + u) = [] → s.paddockDeep slot u2 = true → Does (.uspLpmInitiate u u2 accepted) s fun t =>
    .line (if u2 then "LGO_U2" else "LGO_U1") [15 + u.val] ∈ t.outs ∧ (accepted = true →
    t.g (SSH_PORT.LINK (15 + u)) = (if u2 then 2 else 1))) ∧
  (∀ (u : Fin 2) (u2 : Bool) (s : State), s.lpmFrom (15 + u) u2 = true → s.egress (15 + u) = [] →
    Does (.uspLgoReceived u u2) s fun t => t.g (SSH_PORT.LINK (15 + u)) = (if u2 then 2 else 1) ∧
    .line "LAU" [15 + u.val] ∈ t.outs) ∧
  (∀ (u : Fin 2) (u2 : Bool) (s : State), s.lpmFrom (15 + u) u2 = true → s.egress (15 + u) ≠ [] →
    Does (.uspLgoReceived u u2) s fun t => t.g (SSH_PORT.LINK (15 + u)) = s.g (SSH_PORT.LINK (15 + u)) ∧
    .line "LXU" [15 + u.val] ∈ t.outs) ∧
  (∀ (i : Fin 20) (s : State), s.domOn (laneDom i) = false → s.domOn dHUB = true → Does (.lfpsDetected i) s fun t =>
    t = s.activity (laneDom i)) ∧
  (∀ (i : Fin 20) (s : State), s.domOn (laneDom i) = true → s.domOn dHUB = false → Does (.lfpsDetected i) s fun t =>
    t = s.activity dHUB) ∧
  (∀ (i : Fin 20) (s : State), s.domOn (laneDom i) = false → (s.activity (laneDom i)).domOn dHUB = false →
    Does (.lfpsDetected i) s fun t => t = (s.activity (laneDom i)).activity dHUB) ∧
  (∀ (n : Stall) (s : State), s.g (SSH_PORT.LINK n) = 3 → s.resumeAhead n = false → Does (.deviceU3Exit n) s fun t => t.g (SSH_PORT.LINK n) = 0 ∧
    t.on (SSH_PORT_EVT.WAKE n) = true) ∧
  (∀ (u : Fin 2) (s : State), s.g (SSH_PORT.LINK (15 + u)) = 3 → Does (.hostU3Exit u) s fun t =>
    t.g (SSH_PORT.LINK (15 + u)) = 8 ∧ vat t.ss.exiting u = false) ∧
  (∀ (n : Channel) (upper : Bool) (s : State), s.g (SSH_PORT.LINK n) ∈ [0, 1, 2, 3, 7, 8, 9] →
    Does (.ssLaneLost n upper) s fun t => t.g (STL_LANE.STATE (laneIx n upper)) = 4) ∧
  (∀ (n : Channel) (s : State), s.g (SSH_PORT.LINK n) = 5 → Does (.rxDetectPartnerFound n) s fun t =>
    t.g (SSH_PORT.LINK n) = 7) ∧
  (∀ (c : CtrlHdr) (slot : Fin 4) (bic : Fin 16384) u (s : State), Taken c s → s.rxCtrl c "ITP_NOTICE" [slot.val, bic.val] id = u → u.on SSH_X_TUNE.ITP_REGEN = true → u.on SSH_CTRL.ITP_EN = true → ((u.heldStalls slot).filter fun n => u.g (SSH_PORT.LINK n) = 0) ≠ [] → u.g (YRD_STATUS.STATE slot) ≠ 2 → Does (.itpNotice c slot bic) s fun t => t.g SSH_ITP_REGEN.SKIPPED = min (u.g SSH_ITP_REGEN.SKIPPED + 1) (2 ^ SSH_ITP_REGEN.SKIPPED.width - 1)) ∧
  (∀ (c : CtrlHdr) (slot : Fin 4) (bic : Fin 16384) u (s : State), Taken c s → s.rxCtrl c "ITP_NOTICE" [slot.val, bic.val] id = u → u.on SSH_X_TUNE.ITP_REGEN = true → u.on SSH_CTRL.ITP_EN = true → u.on (YRD_STATUS.STALE slot) = false → u.g (YRD_STATUS.STATE slot) = 2 → (vat u.yards slot).iv % 16384 = bic.val → Does (.itpNotice c slot bic) s fun t => ∀ n ∈ (u.heldStalls slot).filter (fun n => u.g (SSH_PORT.LINK n) = 0), .line "ITP" [n, bic.val, ((vat u.yards slot).tick * 3 + 5) / 10, 0] ∈ t.outs) ∧
  (∀ (n : Channel) (result : Option Nat) d (s : State), 15 ≤ n.val → s.g (SSH_PORT.LINK n) = 0 → s.on SSH_CTRL.LDM_EN = true →
    s.on (SSH_USP_LPM.LDM_ENABLE (n - 15)) = true → result = some d → Does (.ldmExchange n result) s fun t =>
    t.g (SSH_PTM.DELAY (n - 15)) = min 65535 (medianOf ((d :: vat s.ss.ldm (n.val - 15)).take 8)) ∧
    t.on (SSH_PTM.VALID (n - 15)) = true) ∧
  (∀ (n : Channel) (result : Option Nat) (s : State), 15 ≤ n.val → s.g (SSH_PORT.LINK n) = 0 → s.on SSH_CTRL.LDM_EN = true →
    s.on (SSH_USP_LPM.LDM_ENABLE (n - 15)) = true → result = none → Does (.ldmExchange n result) s fun t =>
    t.on (SSH_PORT_EVT.LDM_FAIL n) = true) ∧
  (∀ (n : Channel) (result : Option Nat) (s : State), n.val ≤ 14 → s.g (SSH_PORT.LINK n) = 0 → s.on SSH_CTRL.LDM_EN = true →
    Does (.ldmExchange n result) s fun t => t = s.out (.line "LDM_RESPONSE" [n.val]))

/-- A transaction translator's boundaries, splits and transactions. For each clause, for every state and all operands that meet
its hypotheses on the state and the operands alone, exec answers a next state in which the values the clause names stand as the
rules of the cited sections give them. Commands, with the rules their hypotheses and effects follow: TT_SOF (R146, R147),
SOF_FILL (R146), TT_PERIODIC_HOLD (R146), PERIODIC_START_SPLIT (R148), NONPERIODIC_START_SPLIT (R149), COMPLETE_SPLIT (R148,
R149), TT_TRANSACTION_END (R149), PERIODIC_WINDOW_END (R146, R148), TT_EOF (R148). Where those rules leave a point open, the
clauses rest on the model's choices: log entries 2, 3, 9 and 143. -/
def Obligations.TranslatorComplete : Prop :=
  (∀ (n : Stall) (frame : Fin 2048) (s : State), s.ttOn n = true → Does (.ttSof n frame) s fun t =>
    (t.tt' n).noSof = 0 ∧ (t.tt' n).sofCycle = some s.cycle ∧ (t.tt' n).bound = (s.tt' n).bound + 1 ∧
    t.g (TTA_TT.UFRAME n) = (vat s.yards (s.stallYard n)).iv % 8) ∧
  (∀ (n : Stall) (s : State), s.ahead (sofOf n) = false → s.ttOn n = true → (s.tt' n).sofCycle ≠ some s.cycle → Does (.sofFill n) s fun t =>
    t.on (TTA_EVT.SOF_FILL n) = true ∧ (t.tt' n).noSof = (s.tt' n).noSof + 1 ∧ (t.tt' n).bound = (s.tt' n).bound + 1) ∧
  (∀ (n : Stall) (s : State), s.ttOn n = true → s.g TTA_X_TUNE.NOSOF_HOLD ≤ (s.tt' n).noSof → (s.tt' n).held = false →
    Does (.ttPeriodicHold n) s fun t => t.on (TTA_EVT.PER_HELD n) = true ∧ (t.tt' n).held = true) ∧
  (∀ (n : Stall) (dev : Fin 128) (ep : Fin 16) (dirIn : Bool) (data : List (BitVec 8)) (s : State), s.ttOn n = true →
    (s.tt' n).per.length < 32 → data.length ≤ 188 → Does (.periodicStartSplit n dev ep dirIn data) s fun t =>
    (t.tt' n).per = (s.tt' n).per ++ [⟨dev, ep, false, dirIn, data, (s.tt' n).bound, none, false⟩]) ∧
  (∀ (n : Stall) (dev : Fin 128) (ep : Fin 16) (dirIn : Bool) (data : List (BitVec 8)) (s : State), s.ttOn n = true →
    188 < data.length → Does (.periodicStartSplit n dev ep dirIn data) s fun t => t.on (TTA_EVT.PER_DROP n) = true ∧
    (t.tt' n).per = (s.tt' n).per) ∧
  (∀ (n : Stall) (dev : Fin 128) (ep : Fin 16) (bulk : Bool) (dirIn : Bool) (data : List (BitVec 8)) (s : State), s.ttOn n = true →
    (s.tt' n).np.length < 4 → data.length ≤ 64 →
    ((s.tt' n).np.any fun b => b.dev = dev.val && b.ep = ep.val && b.dirIn = dirIn) = false →
    Does (.nonperiodicStartSplit n dev ep bulk dirIn data) s fun t =>
    (t.tt' n).np = (s.tt' n).np ++ [⟨dev, ep, bulk, dirIn, data, (s.tt' n).bound, none, false⟩] ∧
    .line "SPLIT_ACK" [n.val] ∈ t.outs) ∧
  (∀ (n : Stall) (dev : Fin 128) (ep : Fin 16) (bulk : Bool) (dirIn : Bool) (data : List (BitVec 8)) (s : State), s.ttOn n = true →
    (4 ≤ (s.tt' n).np.length ∨ ((s.tt' n).np.any fun b => b.dev = dev.val && b.ep = ep.val && b.dirIn = dirIn) = true) →
    Does (.nonperiodicStartSplit n dev ep bulk dirIn data) s fun t => (t.tt' n).np = (s.tt' n).np ∧
    t.on (TTA_EVT.NP_NAK n) = true ∧ .line "SPLIT_NAK" [n.val] ∈ t.outs) ∧
  (∀ (n : Stall) (periodic : Bool) (dev : Fin 128) (ep : Fin 16) (dirIn : Bool) (sofar : List (BitVec 8)) (s : State), s.ttOn n = true →
    ((if periodic then (s.tt' n).per else (s.tt' n).np).find? (fun b => b.dev = dev.val && b.ep = ep.val && b.dirIn = dirIn && !b.cancel) = none) →
    Does (.completeSplit n periodic dev ep dirIn sofar) s fun t => t = s.out (.line "CSPLIT_NYET" [n.val])) ∧
  (∀ (n : Stall) (periodic : Bool) (dev : Fin 128) (ep : Fin 16) (dirIn : Bool) (sofar : List (BitVec 8)) b a (s : State), s.ttOn n = true →
    ((if periodic then (s.tt' n).per else (s.tt' n).np).find? (fun b => b.dev = dev.val && b.ep = ep.val && b.dirIn = dirIn && !b.cancel) = some b) →
    b.ans = some a → Does (.completeSplit n periodic dev ep dirIn sofar) s fun t => answerLine n a ∈ t.outs ∧
    (if periodic then (t.tt' n).per = (s.tt' n).per.erase b else (t.tt' n).np = (s.tt' n).np.erase b)) ∧
  (∀ (n : Stall) (a : TtAnswer) (s : State), s.ttOn n = true → Does (.ttTransactionEnd n a) s fun t =>
    t.tt' n = (s.tt' n).finish a (s.npFits n)) ∧
  (∀ (n : Stall) (dev : Fin 128) (ep : Fin 16) (dirIn : Bool) b (s : State), s.ttOn n = true →
    (s.tt' n).per.find? (fun b => b.dev = dev.val && b.ep = ep.val && b.dirIn = dirIn) = some b →
    Does (.periodicWindowEnd n dev ep dirIn) s fun t => (t.tt' n).per = (s.tt' n).per.erase b) ∧
  (∀ (n : Stall) (s : State), s.ttOn n = true → (s.tt' n).cur = some true → Does (.ttEof n) s fun t =>
    t.on (TTA_EVT.LATE n) = true ∧ t.tt' n = { s.tt' n with eof := true }.finish .err (s.npFits n)) ∧
  (∀ (n : Stall) (s : State), s.ttOn n = true → (s.tt' n).cur ≠ some true → Does (.ttEof n) s fun t => (t.tt' n).eof = true)

/-- A stamped order acts at its stamp, and a waiting translator operation ends. For each clause, for every state and all
operands that meet its hypotheses on the state and the operands alone, exec answers a next state in which the values the clause
names stand as the rules of the cited sections give them. Commands, with the rules their hypotheses and effects follow:
ORDER_RESET (R137), ORDER_SUSPEND_PORT (R139), ORDER_RESUME_PORT (R139), ORDER_BUS_RESUME_START (R138), ORDER_BUS_RESUME_END
(R138), ORDER_TEST (R136), ORDER_L1_EXIT (R142), TTA_OP_DONE (R150, R162). Where those rules leave a point open, the clauses
rest on the model's choices: log entries 2, 9, 67, 68, 119 and 141. -/
def Obligations.OrdersComplete : Prop :=
  (∀ (n : Stall) o (s : State), s.hsOn = true → firstOrder s.hs.orders (fun o => o.n = n) = some o → o.act = .reset →
    o.stamp ≤ s.yticks o.slot → s.g (HSH_PORT.STATE n) ∈ [2, 4, 5, 6, 7, 8] → Does (.orderReset n) s fun t =>
    t.g (HSH_PORT.STATE n) = 3 ∧ .line "SE0" [n.val] ∈ t.outs) ∧
  (∀ (n : Stall) o (s : State), s.hsOn = true → firstOrder s.hs.orders (fun o => o.n = n) = some o → o.act = .suspend →
    o.stamp ≤ s.yticks o.slot → s.g (HSH_PORT.STATE n) = 4 → Does (.orderSuspendPort n) s fun t =>
    t.g (HSH_PORT.STATE n) = 5) ∧
  (∀ (n : Stall) o (s : State), s.hsOn = true → s.g (HSH_ENG.STATE (s.engineOf n)) ∉ [4, 5] →
    firstOrder s.hs.orders (fun o => o.n = n) = some o → o.act = .resume → o.stamp ≤ s.yticks o.slot →
    s.g (HSH_PORT.STATE n) = 5 → Does (.orderResumePort n) s fun t => t.g (HSH_PORT.STATE n) = 6 ∧
    .line "K" [n.val] ∈ t.outs) ∧
  (∀ (slot : Fin 4) o (s : State), s.hsOn = true →
    firstOrder s.hs.orders (fun o => o.n = 15 && o.slot = slot) = some o → o.act = .busResumeStart →
    o.stamp ≤ s.yticks o.slot → Does (.orderBusResumeStart slot) s fun t =>
    t = (s.hsMod fun h => { h with orders := h.orders.erase o }).doAct o.slot o.n .busResumeStart) ∧
  (∀ (slot : Fin 4) o (s : State), s.hsOn = true →
    firstOrder s.hs.orders (fun o => o.n = 15 && o.slot = slot) = some o → o.act = .busResumeEnd →
    o.stamp ≤ s.yticks o.slot → Does (.orderBusResumeEnd slot) s fun t =>
    t = (s.hsMod fun h => { h with orders := h.orders.erase o }).doAct o.slot o.n .busResumeEnd) ∧
  (∀ (n : Stall) o m (s : State), s.hsOn = true → firstOrder s.hs.orders (fun o => o.n = n) = some o → o.act = .test m →
    o.stamp ≤ s.yticks o.slot → Does (.orderTest n) s fun t => t.g (HSH_PORT.STATE n) = 8 ∧
    .line "TEST" [n.val, m] ∈ t.outs) ∧
  (∀ (n : Stall) o (s : State), s.hsOn = true → firstOrder s.hs.orders (fun o => o.n = n) = some o → o.act = .l1Exit →
    o.stamp ≤ s.yticks o.slot → s.g (HSH_PORT.STATE n) = 7 → Does (.orderL1Exit n) s fun t => t.g (HSH_PORT.STATE n) = 4 ∧
    t.on (HSH_PORT_EVT.L1_EXIT n) = true) ∧
  (∀ (s : State), s.on TTA_CMD.BUSY = true → s.ttaOpDone.on TTA_CMD.BUSY = false → Does .ttaOpDone s fun t =>
    t = (match s.ttaOpDone.hubWaits.find? fun w => w.n = s.g TTA_CMD.STALL ∧ (ttWord w.n w.act).isSome with | some w => State.runTtWaits 32 (s.ttaOpDone.finishWait w []) | none => State.runTtWaits 32 s.ttaOpDone))

/-- USB 2.0 ports reset, suspend, resume, wake, sleep and connect. For each clause, for every state and all operands that meet
its hypotheses on the state and the operands alone, exec answers a next state in which the values the clause names stand as the
rules of the cited sections give them. Commands, with the rules their hypotheses and effects follow: PORT_RESET_END (R137),
PORT_RESUME_END (R139), GLOBAL_SUSPEND (R136, R143), HOST_RESUME_DETECTED (R138, R141, R142, R267), HOST_RESUME_END (R138),
REMOTE_WAKE (R140, R141, R267), WAKE_HOLD_EXPIRE (R140), LPM_ACK (R142), L1_ENTRY (R142), DEVICE_L1_EXIT (R142, R267),
HS_CONNECT_CHANGE (R97, R136, R137, R267), BABBLE_DISABLE (R136). Where those rules leave a point open, the clauses rest on the
model's choices: log entries 2, 3, 53, 67, 69, 119, 141, 144 and 164. -/
def Obligations.Usb2PortsComplete : Prop :=
  (∀ (n : Stall) (speed : Fin 4) (s : State), s.g (HSH_PORT.STATE n) = 3 → speed.val ≠ 0 →
    Does (.portResetEnd n speed) s fun t => t.g (HSH_PORT.STATE n) = 4 ∧ t.g (HSH_PORT.SPEED n) = speed ∧
    t.on (HSH_PORT_EVT.RESET_DONE n) = true) ∧
  (∀ (n : Stall) (s : State), s.g (HSH_PORT.STATE n) = 6 → vat s.hs.gsusp n = false → Does (.portResumeEnd n) s fun t =>
    t.g (HSH_PORT.STATE n) = 4 ∧ t.on (HSH_PORT_EVT.RESUME_DONE n) = true) ∧
  (∀ (e : Fin 4) (s : State), s.g (HSH_ENG.ROLE e) ≠ 0 → s.g (HSH_ENG.STATE e) = 2 → Does (.globalSuspend e) s fun t =>
    t.g (HSH_ENG.STATE e) = 4) ∧
  (∀ (u : Fin 2) slot e (s : State), s.domOn (5 + u.val) = true → s.domOn dHSB = true → s.slotOf u = some slot → s.rootEngine slot = some e →
    s.hs.waking.toList.any id = false → vat s.hs.upK u = none → s.g (HSH_ENG.STATE e) = 4 →
    Does (.hostResumeDetected u) s fun t =>
    t = (((s.hsMod fun h => { h with upK := vset h.upK u none }).engState e 5).issueAll slot .busResumeStart).upJudge u) ∧
  (∀ (u : Fin 2) slot e (s : State), s.domOn (5 + u.val) = true → s.domOn dHSB = true → s.slotOf u = some slot → s.rootEngine slot = some e →
    s.hs.waking.toList.any id = false → vat s.hs.upK u = none → s.g (HSH_ENG.STATE e) = 3 →
    Does (.hostResumeDetected u) s fun t => t = ((s.mirror.filter fun q => q.slot = slot ∧ q.kind = 1 ∧
    bitOf q.st.hs 5).foldl (fun v q => v.issue slot q.member q.stall .l1Exit) ((s.hsMod fun h => { h with upK := vset h.upK u none }).engState e 5))) ∧
  (∀ (u : Fin 2) slot e c (s : State), s.domOn (5 + u.val) = true → s.domOn dHSB = true → s.slotOf u = some slot → s.rootEngine slot = some e → vat s.hs.upK u = some c →
    c ≠ s.cycle → Does (.hostResumeDetected u) s fun t => .line "UP_K_STOP" [u.val] ∈ t.outs) ∧
  (∀ (u : Fin 2) (s : State), (s.slotOf u).isSome = true → (s.domOn (5 + u.val) = false ∨ s.domOn dHSB = false) →
    Does (.hostResumeDetected u) s fun t => ([5 + u.val, dHSB], .hostK u) ∈ t.pdc.late) ∧
  (∀ (u : Fin 2) slot e (s : State), s.slotOf u = some slot → s.rootEngine slot = some e → s.g (HSH_ENG.STATE e) = 5 →
    Does (.hostResumeEnd u) s fun t => t = s.issueAll slot .busResumeEnd) ∧
  (∀ (src : Option CtrlHdr) (slot : Fin 4) (n : Stall) (s : State), s.domOn (portDom n) = true → s.domOn dHSB = true → src = none → s.holderOf n = some slot.val →
    s.g (HSH_PORT.STATE n) = 5 → s.busSusp n = false → Does (.remoteWake src slot n) s fun t =>
    t.g (HSH_PORT.STATE n) = 6 ∧ t.on (HSH_PORT_EVT.WAKE n) = true) ∧
  (∀ (src : Option CtrlHdr) (slot : Fin 4) (n : Stall) (s : State), s.domOn (portDom n) = true → s.domOn dHSB = true → src = none → s.holderOf n = some slot.val →
    s.g (HSH_PORT.STATE n) = 5 → s.busSusp n = true → Does (.remoteWake src slot n) s fun t =>
    vat t.hs.waking n = true ∧ t.on (HSH_PORT_EVT.WAKE n) = true) ∧
  (∀ (src : Option CtrlHdr) (slot : Fin 4) (n : Stall) (s : State), src = none →
    (s.domOn (portDom n) = false ∨ s.domOn dHSB = false) → Does (.remoteWake src slot n) s fun t =>
    ([portDom n, dHSB], .deviceK slot n) ∈ t.pdc.late) ∧
  (∀ (src : Option CtrlHdr) (slot : Fin 4) (n : Stall) c (s : State), src = some c → Taken c s →
    Does (.remoteWake src slot n) s fun t => t = (s.rxCtrl c "WAKE" [slot.val, n.val] id).wakeUp slot) ∧
  (∀ (u : Fin 2) (s : State), (vat s.hs.upK u).isSome = true → Does (.wakeHoldExpire u) s fun t =>
    vat t.hs.upK u = none ∧ .line "UP_K_STOP" [u.val] ∈ t.outs) ∧
  (∀ (n : Channel) (besl : Fin 16) (rwe : Bool) (s : State), (n.val ≤ 14 → s.g (HSH_PORT.STATE n) = 4) →
    Does (.lpmAck n besl rwe) s fun t => vat t.hs.acked n = true ∧ (n.val ≤ 14 → t.g (HSH_PORT.BESL n) = besl ∧
    t.on (HSH_PORT.RWE n) = rwe)) ∧
  (∀ (n : Channel) (s : State), vat s.hs.acked n = true → n.val ≤ 14 → s.g (HSH_PORT.STATE n) = 4 →
    Does (.l1Entry n) s fun t => t.g (HSH_PORT.STATE n) = 7 ∧ t.on (HSH_PORT_EVT.L1_ENTER n) = true ∧
    vat t.hs.acked n = false) ∧
  (∀ (n : Channel) e (s : State), vat s.hs.acked n = true → 15 ≤ n.val →
    (s.slotOf (n - 15)).bind s.rootEngine = some e → s.g (HSH_ENG.STATE e) = 2 → Does (.l1Entry n) s fun t =>
    t.g (HSH_ENG.STATE e) = 3 ∧ vat t.hs.acked n = false) ∧
  (∀ (src : Option CtrlHdr) (slot : Fin 4) (n : Stall) (s : State), s.domOn (portDom n) = true → s.domOn dHSB = true → src = none → s.holderOf n = some slot.val →
    s.g (HSH_PORT.STATE n) = 7 → s.on (HSH_PORT.RWE n) = true → Does (.deviceL1Exit src slot n) s fun t =>
    t.g (HSH_PORT.STATE n) = 4 ∧ t.on (HSH_PORT_EVT.L1_EXIT n) = true) ∧
  (∀ (src : Option CtrlHdr) (slot : Fin 4) (n : Stall) (s : State), src = none →
    (s.domOn (portDom n) = false ∨ s.domOn dHSB = false) → Does (.deviceL1Exit src slot n) s fun t =>
    ([portDom n, dHSB], .deviceL1 slot n) ∈ t.pdc.late) ∧
  (∀ (src : Option CtrlHdr) (slot : Fin 4) (n : Stall) c (s : State), src = some c → Taken c s →
    Does (.deviceL1Exit src slot n) s fun t => t = (s.rxCtrl c "L1_WAKE" [slot.val, n.val] id).l1Wake slot) ∧
  (∀ (n : Stall) (present : Bool) (low : Bool) (s : State), s.domOn (portDom n) = true → s.domOn dHSB = true → s.g (HSH_PORT.STATE n) ≠ 0 → present = true → s.phyAway n = false →
    s.on (HSH_PORT.CONNECT n) = false → Does (.hsConnectChange n present low) s fun t =>
    t.on (HSH_PORT.CONNECT n) = true ∧ t.g (HSH_PORT.STATE n) = 2 ∧ t.g (HSH_PORT.SPEED n) = (if low then 1 else 2) ∧
    t.on (HSH_PORT_EVT.CONN_CHG n) = true) ∧
  (∀ (n : Stall) (present : Bool) (low : Bool) (s : State), s.domOn (portDom n) = true → s.domOn dHSB = true → s.g (HSH_PORT.STATE n) ≠ 0 → present = false →
    s.on (HSH_PORT.CONNECT n) = true → Does (.hsConnectChange n present low) s fun t =>
    t.on (HSH_PORT.CONNECT n) = false ∧ t.g (HSH_PORT.STATE n) = 1 ∧ t.g (HSH_PORT.SPEED n) = 0 ∧
    t.on (HSH_PORT_EVT.CONN_CHG n) = true) ∧
  (∀ (n : Stall) (present : Bool) (low : Bool) (s : State), (s.domOn (portDom n) = false ∨ s.domOn dHSB = false) →
    Does (.hsConnectChange n present low) s fun t => ([portDom n, dHSB], .connect n present low) ∈ t.pdc.late) ∧
  (∀ (n : Stall) (s : State), s.g (HSH_PORT.STATE n) ∈ [4, 5, 6, 7] → Does (.babbleDisable n) s fun t =>
    t.on (HSH_PORT_EVT.BABBLE n) = true)

/-- Full-speed upstream, carry, suspend of the SS side, width change and BC 1.2. For each clause, for every state and all
operands that meet its hypotheses on the state and the operands alone, exec answers a next state in which the values the clause
names stand as the rules of the cited sections give them. Commands, with the rules their hypotheses and effects follow:
FS_UPSTREAM_CONNECT (R130), CARRY_LOST (R22, R25, R132, R144), CARRY_RECEIVER_ACTIVITY (R143, R267), UPSTREAM_U3_ENTRY (R124),
WIDTH_CHANGE_STEP_DONE (R115), BC12_SWITCH_START (R151, R152), BC12_SWITCH_WAIT_END (R152), VDP_SRC_DETECTED (R151). Where
those rules leave a point open, the clauses rest on the model's choices: log entries 2, 3, 65, 70, 115, 141, 142 and 145. -/
def Obligations.Usb2EnginesComplete : Prop :=
  (∀ (u : Fin 2) slot e (s : State), s.slotOf u = some slot → s.rootEngine slot = some e →
    Does (.fsUpstreamConnect u) s fun t => t.g (HSH_ENG.SPEED e) = 1 ∧ t.g (HSH_ENG.STATE e) = 2) ∧
  (∀ (k : Fin 4) (cut : Bool) (s : State), s.g (HSH_CARRY.STATE k) ∉ [1, 3] → s.g (HSH_CARRY.BUS k) ≠ 0 →
    ((List.range 4).all fun e => s.g (HSH_ENG.ROLE e) = 0 || s.g (HSH_ENG.UPSTREAM e) ≠ 4 + k.val) = true →
    Does (.carryLost k cut) s fun t => t.g (HSH_CARRY.STATE k) = s.g (HSH_CARRY.STATE k) ∧
    t.mirror = s.mirror.map fun (q : MirPos) => if q.via = k.val then { q with st := q.st.hsCut } else q) ∧
  (∀ (k : Fin 4) (cut : Bool) (s : State), s.g (HSH_CARRY.STATE k) = 1 → s.g (HSH_CARRY.BUS k) ≠ 0 →
    ((List.range 4).all fun e => (((s.p (HSH_CARRY.STATE k) 2).linkJudge dFAB).raise 37 k).g (HSH_ENG.ROLE e) = 0 || (((s.p (HSH_CARRY.STATE k) 2).linkJudge dFAB).raise 37 k).g (HSH_ENG.UPSTREAM e) ≠ 4 + k.val) = true →
    Does (.carryLost k cut) s fun t =>
    (let v := ((s.p (HSH_CARRY.STATE k) 2).linkJudge dFAB).raise 37 k; let w := if cut then v.out (.line "INVALID_EOP" [k.val]) else v; t = w.withMirror (w.mirror.map fun (q : MirPos) => if q.via = k.val then { q with st := q.st.hsCut } else q))) ∧
  (∀ (k : Fin 4) (s : State), s.domOn dFAB = false → Does (.carryReceiverActivity k) s fun t =>
    t = (if (s.activity dFAB).domOn dHSB then s.activity dFAB else (s.activity dFAB).activity dHSB)) ∧
  (∀ (u : Fin 2) slot (s : State), s.slotOf u = some slot → s.g (SSH_PORT.LINK (15 + u)) ≤ 2 →
    Does (.upstreamU3Entry u) s fun t => t.g (SSH_PORT.LINK (15 + u)) = 3) ∧
  (∀ (u : Fin 2) (s : State), (vat s.dp u).step = 1 → Does (.widthChangeStepDone u) s fun t => t.g (TCP_DP.MUX u) = 0 ∧
    (vat t.dp u).step = 2) ∧
  (∀ (u : Fin 2) (s : State), (vat s.dp u).step = 2 → Does (.widthChangeStepDone u) s fun t => (vat t.dp u).step = 3) ∧
  (∀ (u : Fin 2) (s : State), (vat s.dp u).step = 3 → Does (.widthChangeStepDone u) s fun t =>
    t.g (TCP_DP.PINS u) = (vat s.dp u).wanted % 2 ^ (TCP_DP.PINS u).width ∧
    t.g (TCP_DP.STATE u) = (if (vat s.dp u).wanted = 0 then 0 else 3) ∧ (vat t.dp u).step = 0) ∧
  (∀ (n : Stall) (s : State), vat s.hs.moving n = false → (s.typ n = 1 ∨ s.typ n = 5) → s.stallFlag n 2 = true → s.g (HSH_PORT.BC n) ≠ 3 →
    (s.g (HSH_PORT.BC n) ≠ (if (s.holderOf n).any fun y => (s.upKnown y).conf then 0 else 2)) →
    Does (.bc12SwitchStart n) s fun t => t.g (HSH_PORT.BC n) = 3 ∧
    vat t.hs.bcTarget n = (if (s.holderOf n).any fun y => (s.upKnown y).conf then 0 else 2)) ∧
  (∀ (n : Stall) (s : State), (s.typ n = 1 ∨ s.typ n = 5) → s.stallFlag n 2 = false → s.stallFlag n 1 = true →
    Does (.bc12SwitchStart n) s fun t => t.g (HSH_PORT.BC n) = b2n ((s.holderOf n).any fun y => (s.upKnown y).conf)) ∧
  (∀ (n : Stall) (s : State), s.g (HSH_PORT.BC n) = 3 → (s.ch n).vbusLow = true → s.stallFlag n 2 = true →
    (s.typ n = 1 ∨ s.typ n = 5) → vat s.hs.bcTarget n = (if (s.holderOf n).any fun y => (s.upKnown y).conf then 0 else 2) →
    Does (.bc12SwitchWaitEnd n) s fun t => t.g (HSH_PORT.BC n) = vat s.hs.bcTarget n % 4 ∧
    t.on (HSH_PORT_EVT.BC_SWITCH n) = true ∧ (t.ch n).bcHold = false) ∧
  (∀ (n : Stall) (s : State), s.g (HSH_PORT.BC n) = 1 → Does (.vdpSrcDetected n) s fun t =>
    .line "VDM_SRC" [n.val] ∈ t.outs)

/-- Status requests and reports of a logical hub are answered. For each clause, for every state and all operands that meet its
hypotheses on the state and the operands alone, exec answers a next state in which the values the clause names stand as the
rules of the cited sections give them. Commands, with the rules their hypotheses and effects follow: MIRROR_RECORD (R159,
R160), MIRROR_SNAPSHOT (R159, R161), STATUS_CHANGE_IN (R160), GET_HUB_STATUS (R162), GET_PORT_STATUS (R155, R162),
GET_PORT_STATUS_EXT (R19, R155, R162, R103), GET_PORT_ERROR_COUNT (R162), HUB_REQUEST_RESULT (R162), GET_HUB_DESCRIPTOR (R156,
R157), CLEAR_HUB_FEATURE (R162), UNSUPPORTED_HUB_REQUEST (R162). Where those rules leave a point open, the clauses rest on the
model's choices: log entries 2, 9, 15, 45, 48, 71, 73, 141, 144 and 163. -/
def Obligations.HubRequestsComplete : Prop :=
  (∀ (c : CtrlHdr) (slot : Fin 4) (hub : Fin 16) (port : Fin 16) (seq : Nat) (hs : Nat) (hsChg : Nat) (ss : Nat) (ssChg : Nat) (u1 : Nat) (u2 : Nat) q u (s : State), Taken c s → s.rxCtrl c "MIRROR" [slot.val, hub.val, port.val, seq, hs, hsChg, ss, ssChg, u1, u2] id = u → u.mir slot hub port = some q → q.reach = true → seq = (q.st.seq + 1) % 65536 → Does (.mirrorRecord c slot hub port seq hs hsChg ss ssChg u1 u2) s fun t => t = (u.mirMod slot hub port fun x => x.take { x.st with hs := hs, hsChg := hsChg, ss := ss, ssChg := ssChg, seq := seq } u1 u2 u.cycle).mirWoke q ss ssChg) ∧
  (∀ (c : CtrlHdr) (slot : Fin 4) (hub : Fin 16) (port : Fin 16) (seq : Nat) (hs : Nat) (hsChg : Nat) (ss : Nat) (ssChg : Nat) (u1 : Nat) (u2 : Nat) q u (s : State), Taken c s → s.rxCtrl c "MIRROR" [slot.val, hub.val, port.val, seq, hs, hsChg, ss, ssChg, u1, u2] id = u → u.mir slot hub port = some q → seq ≠ (q.st.seq + 1) % 65536 → Does (.mirrorRecord c slot hub port seq hs hsChg ss ssChg u1 u2) s fun t => t.on UPP_EVT.MIRROR_RESYNC = true) ∧
  (∀ (e : SnapEvent) slot (s : State), e = .timer slot → (vat s.yards slot).iv % 1000 = 0 →
    Does (.mirrorSnapshot e) s fun t => t = s.each (s.heldStalls slot) fun n v => v.snapshot n) ∧
  (∀ (e : SnapEvent) c slot hub port n u (s : State), e = .asked c slot hub port → Taken c s → s.rxCtrl c "MIRROR_ASK" [slot.val, hub.val, port.val] id = u → (u.heldStalls slot).find? (fun n => (u.posOf n).any fun (x : Nat × Pos × Nat) => x.2.1.hub = hub.val && x.2.1.port = port.val) = some n → Does (.mirrorSnapshot e) s fun t => t = match u.posOf n with | some (y, p, _) => u.ctrlTo c.src "SNAPSHOT" (u.mirFields n y p.hub p.port) | none => u) ∧
  (∀ (e : SnapEvent) c slot hub port seq hs hsChg ss ssChg u1 u2 q u (s : State), e = .got c slot hub port seq hs hsChg ss ssChg u1 u2 → Taken c s → s.rxCtrl c "SNAPSHOT" [slot.val, hub.val, port.val, seq, hs, hsChg, ss, ssChg, u1, u2] id = u → u.mir slot hub port = some q → Does (.mirrorSnapshot e) s fun t => (t.mir slot hub port).map (fun x => (x.reach, x.st.hs, x.st.ss, x.st.seq, x.u1, x.u2)) = some (true, hs, ss, seq, u1, u2)) ∧
  (∀ (slot : Fin 4) (hub : Fin 16) (ss : Bool) (s : State), s.answers slot hub = true →
    Does (.statusChangeIn slot hub ss) s fun t =>
    (let m := ((s.mirror.filter fun q => q.slot = slot.val && q.hub = hub.val && (let v := s.shown q; clrBits (if ss then v.ssChg else v.hsChg) (if q.newAt = s.cycle then (if ss then q.newSs else q.newHs) else 0) ≠ 0)).map fun q => 2 ^ q.port).sum; (if m = 0 then Out.usbNak slot else .usbData slot (leBytes 2 m)) ∈ t.outs)) ∧
  (∀ (slot : Fin 4) (hub : Fin 16) (s : State), s.answers slot hub = true → Does (.getHubStatus slot hub) s fun t =>
    .usbData slot (leBytes 4 (b2n (s.mode = 1))) ∈ t.outs) ∧
  (∀ (slot : Fin 4) (hub : Fin 16) (port : Fin 16) (ss : Bool) q (s : State), s.answers slot hub = true →
    s.mir slot hub port = some q → Does (.getPortStatus slot hub port ss) s fun t =>
    .usbData slot (if ss then leBytes 2 (s.shown q).ss ++ leBytes 2 (s.shown q).ssChg else leBytes 2 (s.shown q).hs ++ leBytes 2 (s.shown q).hsChg) ∈ t.outs) ∧
  (∀ (slot : Fin 4) (hub : Fin 16) (port : Fin 16) (ss : Bool) (s : State), s.answers slot hub = true →
    s.mir slot hub port = none → Does (.getPortStatus slot hub port ss) s fun t => .usbStall slot ∈ t.outs) ∧
  (∀ (slot : Fin 4) (hub : Fin 16) (port : Fin 16) q (s : State), s.answers slot hub = true →
    s.mir slot hub port = some q → q.kind = 1 → s.heldBy q = true → q.reach = true → Does (.getPortStatusExt slot hub port) s fun t =>
    t = s.askHolder q .queryExt) ∧
  (∀ (slot : Fin 4) (hub : Fin 16) (port : Fin 16) q (s : State), s.answers slot hub = true →
    s.mir slot hub port = some q → (q.kind = 1 && s.heldBy q && q.reach) = false → Does (.getPortStatusExt slot hub port) s fun t =>
    .usbData slot (([(s.shown q).ss, (s.shown q).ssChg] ++ (if q.kind = 2 && bitOf (s.shown q).ss 0 then
      rateLanes (s.g (SSH_PORT.RATE (15 + s.upOf slot))) else [0, 0])).flatMap fun x => leBytes 4 x) ∈ t.outs) ∧
  (∀ (slot : Fin 4) (hub : Fin 16) (port : Fin 16) q (s : State), s.answers slot hub = true →
    s.mir slot hub port = some q → q.kind = 1 → s.heldBy q = true → q.reach = true → Does (.getPortErrorCount slot hub port) s fun t =>
    t = s.askHolder q .queryErr) ∧
  (∀ (slot : Fin 4) (hub : Fin 16) (port : Fin 16) q (s : State), s.answers slot hub = true →
    s.mir slot hub port = some q → (q.kind = 1 && s.heldBy q && q.reach) = false → Does (.getPortErrorCount slot hub port) s fun t =>
    .usbData slot (leBytes 2 0) ∈ t.outs) ∧
  (∀ (src : Option CtrlHdr) (slot : Fin 4) (hub : Fin 16) (port : Fin 16) (words : List Nat) w (s : State), src = none →
    s.hubWaits.find? (fun w => w.slot = slot.val && w.hub = hub.val && w.port = port.val) = some w →
    Does (.hubRequestResult src slot hub port words) s fun t => t = s.finishWait w words) ∧
  (∀ (src : Option CtrlHdr) (slot : Fin 4) (hub : Fin 16) (port : Fin 16) (words : List Nat) c w u (s : State), src = some c → Taken c s → s.rxCtrl c "HUB_RESULT" ([slot.val, hub.val, port.val] ++ words) id = u → u.hubWaits.find? (fun w => w.slot = slot.val && w.hub = hub.val && w.port = port.val) = some w → Does (.hubRequestResult src slot hub port words) s fun t => t = u.finishWait w words) ∧
  (∀ (slot : Fin 4) (hub : Fin 16) (ss : Bool) (d : DescReq) l (s : State), s.answers slot hub = true →
    s.hubAnswer slot hub ss (hub.val = 0 && (s.rootEngine slot).any fun e => s.g (HSH_ENG.SPEED e) = 1) d = some l →
    Does (.getHubDescriptor slot hub ss d) s fun t => .usbData slot l ∈ t.outs) ∧
  (∀ (slot : Fin 4) (hub : Fin 16) (ss : Bool) (d : DescReq) (s : State), s.answers slot hub = true →
    s.hubAnswer slot hub ss (hub.val = 0 && (s.rootEngine slot).any fun e => s.g (HSH_ENG.SPEED e) = 1) d = none →
    Does (.getHubDescriptor slot hub ss d) s fun t => .usbStall slot ∈ t.outs) ∧
  (∀ (slot : Fin 4) (hub : Fin 16) (oc : Bool) (s : State), s.answers slot hub = true →
    Does (.clearHubFeature slot hub oc) s fun t => .usbAck slot ∈ t.outs) ∧
  (∀ (slot : Fin 4) (hub : Fin 16) (s : State), s.answers slot hub = true →
    Does (.unsupportedHubRequest slot hub) s fun t => .usbStall slot ∈ t.outs)

/-- Requests that act on a USB 2.0 position of a logical hub. For each clause, for every state and all operands that meet its
hypotheses on the state and the operands alone, exec answers a next state in which the values the clause names stand as the
rules of the cited sections give them. Commands, with the rules their hypotheses and effects follow: SET_PORT_RESET (R137,
R144, R162, R165), SET_PORT_SUSPEND (R139, R162, R165), CLEAR_PORT_SUSPEND (R139, R162), SET_PORT_POWER (R155, R163, R164,
R165), CLEAR_PORT_POWER (R163, R165), CLEAR_PORT_ENABLE (R162, R165), SET_PORT_TEST (R136, R162), PORT_INDICATOR (R162),
CLEAR_PORT_CHANGE (R160, R162), CLEAR_TT_BUFFER (R150, R162), RESET_TT (R150, R162), STOP_TT (R150, R162), SET_AND_TEST_PORT_L1
(R142, R162), CLEAR_PORT_L1 (R142, R162). Where those rules leave a point open, the clauses rest on the model's choices: log
entries 2, 9, 31, 45, 68, 69, 71, 85 and 141. -/
def Obligations.PortRequestsComplete : Prop :=
  (∀ (slot : Fin 4) (hub : Fin 16) (port : Fin 16) q (s : State), s.answers slot hub = true →
    s.mir slot hub port = some q → q.kind = 1 → Does (.setPortReset slot hub port) s fun t => t = s.actOn q .reset) ∧
  (∀ (slot : Fin 4) (hub : Fin 16) (port : Fin 16) q (s : State), s.answers slot hub = true → s.mir slot hub port = some q → s.g (HSH_PORT.STATE q.stall) ≠ 3 →
    s.heldBy q = true → q.reach = true → q.member = s.member → q.stall < 15 →
    s.on (YRD_STATUS.STALE slot) = false → s.g (YRD_STATUS.STATE slot) = 2 → Does (.setPortReset slot hub port) s fun t =>
    (⟨slot, q.stall, s.yticks slot + s.g HSH_X_TUNE.ORDER_LEAD * 200, .reset⟩ : Order) ∈ t.hs.orders ∧ .usbAck slot ∈ t.outs) ∧
  (∀ (slot : Fin 4) (hub : Fin 16) (port : Fin 16) q (s : State), s.answers slot hub = true →
    s.mir slot hub port = some q → q.kind = 3 → bitOf q.st.hs 0 = true → Does (.setPortReset slot hub port) s fun t =>
    t.g (TKR_FUNC.STATE (s.upOf slot)) = 2 ∧ .usbAck slot ∈ t.outs) ∧
  (∀ (slot : Fin 4) (hub : Fin 16) (port : Fin 16) q (s : State), s.answers slot hub = true →
    s.mir slot hub port = some q → q.kind = 2 → bitOf (s.shown q).hs 0 = true →
    Does (.setPortReset slot hub port) s fun t =>
    t = (((s.resetPen q).penBus q (.penOn q.stall)).mirOwn q fun x => { x with hs := orBits (clrBits x.hs 4) 2, hsChg := orBits x.hsChg 0x10 }).out (.usbAck slot)) ∧
  (∀ (slot : Fin 4) (hub : Fin 16) (port : Fin 16) q (s : State), s.answers slot hub = true →
    s.mir slot hub port = some q → q.kind = 1 → Does (.setPortSuspend slot hub port) s fun t => t = s.actOn q .suspend) ∧
  (∀ (slot : Fin 4) (hub : Fin 16) (port : Fin 16) q (s : State), s.answers slot hub = true → s.mir slot hub port = some q → 
    s.heldBy q = true → q.reach = true → q.member = s.member → q.stall < 15 →
    s.on (YRD_STATUS.STALE slot) = false → s.g (YRD_STATUS.STATE slot) = 2 → Does (.setPortSuspend slot hub port) s fun t =>
    (⟨slot, q.stall, s.yticks slot + s.g HSH_X_TUNE.ORDER_LEAD * 200, .suspend⟩ : Order) ∈ t.hs.orders ∧ .usbAck slot ∈ t.outs) ∧
  (∀ (slot : Fin 4) (hub : Fin 16) (port : Fin 16) q (s : State), s.answers slot hub = true →
    s.mir slot hub port = some q → q.kind = 3 → bitOf q.st.hs 1 = true → Does (.setPortSuspend slot hub port) s fun t =>
    t.g (TKR_FUNC.STATE (s.upOf slot)) = 5 ∧ .usbAck slot ∈ t.outs) ∧
  (∀ (slot : Fin 4) (hub : Fin 16) (port : Fin 16) q (s : State), s.answers slot hub = true →
    s.mir slot hub port = some q → q.kind = 1 → Does (.clearPortSuspend slot hub port) s fun t => t = s.actOn q .resume) ∧
  (∀ (slot : Fin 4) (hub : Fin 16) (port : Fin 16) q (s : State), s.answers slot hub = true → s.mir slot hub port = some q → 
    s.heldBy q = true → q.reach = true → q.member = s.member → q.stall < 15 →
    s.on (YRD_STATUS.STALE slot) = false → s.g (YRD_STATUS.STATE slot) = 2 → Does (.clearPortSuspend slot hub port) s fun t =>
    (⟨slot, q.stall, s.yticks slot + s.g HSH_X_TUNE.ORDER_LEAD * 200, .resume⟩ : Order) ∈ t.hs.orders ∧ .usbAck slot ∈ t.outs) ∧
  (∀ (slot : Fin 4) (hub : Fin 16) (port : Fin 16) q (s : State), s.answers slot hub = true →
    s.mir slot hub port = some q → q.kind = 3 → bitOf q.st.hs 2 = true → Does (.clearPortSuspend slot hub port) s fun t =>
    t.g (TKR_FUNC.STATE (s.upOf slot)) = s.tackAwake slot ∧ .usbAck slot ∈ t.outs) ∧
  (∀ (slot : Fin 4) (hub : Fin 16) (port : Fin 16) (ss : Bool) q (s : State), s.answers slot hub = true →
    s.mir slot hub port = some q → Does (.setPortPower slot hub port ss) s fun t => t = s.powerReq q ss true) ∧
  (∀ (slot : Fin 4) (hub : Fin 16) (port : Fin 16) (ss : Bool) q (s : State), s.answers slot hub = true → s.mir slot hub port = some q → 
    s.heldBy q = true → q.reach = true → q.member = s.member → q.stall < 15 → Does (.setPortPower slot hub port ss) s fun t =>
    (t.ch q.stall).portPower = true ∧ .usbAck slot ∈ t.outs) ∧
  (∀ (slot : Fin 4) (hub : Fin 16) (port : Fin 16) (ss : Bool) q (s : State), s.answers slot hub = true →
    s.mir slot hub port = some q → Does (.clearPortPower slot hub port ss) s fun t => t = s.powerReq q ss false) ∧
  (∀ (slot : Fin 4) (hub : Fin 16) (port : Fin 16) (ss : Bool) q (s : State), s.answers slot hub = true → s.mir slot hub port = some q → 
    s.heldBy q = true → q.reach = true → q.member = s.member → q.stall < 15 → Does (.clearPortPower slot hub port ss) s fun t =>
    bitOf (if ss then (vat t.port q.stall).ss else (vat t.port q.stall).hs) (if ss then 9 else 8) = false ∧ .usbAck slot ∈ t.outs) ∧
  (∀ (slot : Fin 4) (hub : Fin 16) (port : Fin 16) q (s : State), s.answers slot hub = true →
    s.mir slot hub port = some q → q.kind = 1 → Does (.clearPortEnable slot hub port) s fun t => t = s.actOn q .disable) ∧
  (∀ (slot : Fin 4) (hub : Fin 16) (port : Fin 16) q (s : State), s.answers slot hub = true → s.mir slot hub port = some q → 3 ≤ s.g (HSH_PORT.STATE q.stall) →
    s.heldBy q = true → q.reach = true → q.member = s.member → q.stall < 15 → Does (.clearPortEnable slot hub port) s fun t =>
    t.g (HSH_PORT.STATE q.stall) = 2 ∧ .usbAck slot ∈ t.outs) ∧
  (∀ (slot : Fin 4) (hub : Fin 16) (port : Fin 16) q (s : State), s.answers slot hub = true →
    s.mir slot hub port = some q → q.kind = 3 → bitOf q.st.hs 1 = true → Does (.clearPortEnable slot hub port) s fun t =>
    t.g (TKR_FUNC.STATE (s.upOf slot)) = 1 ∧ .usbAck slot ∈ t.outs) ∧
  (∀ (slot : Fin 4) (hub : Fin 16) (port : Fin 16) (mode : Fin 8) q (s : State), s.answers slot hub = true →
    s.mir slot hub port = some q → q.kind = 1 → 1 ≤ mode.val → mode.val ≤ 5 →
    (s.mirror.all fun x => x.slot ≠ slot.val || x.hub ≠ hub.val || bitOf (s.shown x).hs 2 || !bitOf (s.shown x).hs 1 || !bitOf (s.shown x).hs 8) = true →
    Does (.setPortTest slot hub port mode) s fun t => t = s.actOn q (.test mode)) ∧
  (∀ (slot : Fin 4) (hub : Fin 16) (port : Fin 16) (mode : Fin 8) q (s : State), s.answers slot hub = true → s.mir slot hub port = some q → 1 ≤ mode.val → mode.val ≤ 5 →
    (s.mirror.all fun x => x.slot ≠ slot.val || x.hub ≠ hub.val || bitOf (s.shown x).hs 2 || !bitOf (s.shown x).hs 1 || !bitOf (s.shown x).hs 8) = true →
    s.heldBy q = true → q.reach = true → q.member = s.member → q.stall < 15 →
    s.on (YRD_STATUS.STALE slot) = false → s.g (YRD_STATUS.STATE slot) = 2 → Does (.setPortTest slot hub port mode) s fun t =>
    (⟨slot, q.stall, s.yticks slot + s.g HSH_X_TUNE.ORDER_LEAD * 200, .test mode⟩ : Order) ∈ t.hs.orders ∧ .usbAck slot ∈ t.outs) ∧
  (∀ (slot : Fin 4) (hub : Fin 16) (port : Fin 16) (mode : Fin 8) q (s : State), s.answers slot hub = true →
    s.mir slot hub port = some q → (mode.val = 0 ∨ 5 < mode.val) → Does (.setPortTest slot hub port mode) s fun t =>
    .usbStall slot ∈ t.outs) ∧
  (∀ (slot : Fin 4) (hub : Fin 16) (port : Fin 16) (on : Bool) q (s : State), s.answers slot hub = true →
    s.mir slot hub port = some q → Does (.portIndicator slot hub port on) s fun t =>
    (if q.kind = 1 then t = s.actOn q (.indicator on) else .usbAck slot ∈ t.outs)) ∧
  (∀ (slot : Fin 4) (hub : Fin 16) (port : Fin 16) (on : Bool) q (s : State), s.answers slot hub = true → s.mir slot hub port = some q → ((s.plan.gpioOf s.member).any fun g => g.fn = 7 ∧ g.arg = q.stall) = true →
    s.heldBy q = true → q.reach = true → q.member = s.member → q.stall < 15 → Does (.portIndicator slot hub port on) s fun t =>
    .line "PORT_LED" [q.stall, b2n on] ∈ t.outs) ∧
  (∀ (slot : Fin 4) (hub : Fin 16) (port : Fin 16) (ss : Bool) (bit : Fin 8) q (s : State), s.answers slot hub = true →
    s.mir slot hub port = some q → (changeBits ss).contains bit.val = true →
    s.changeNow q ss bit = false →
    Does (.clearPortChange slot hub port ss bit) s fun t =>
    t = (s.mirOwn q fun x => if ss then { x with ssChg := clrBits x.ssChg (2 ^ bit.val) } else { x with hsChg := clrBits x.hsChg (2 ^ bit.val) }).actOn q (.clearChange ss bit)) ∧
  (∀ (slot : Fin 4) (hub : Fin 16) (port : Fin 16) (ss : Bool) (bit : Fin 8) q (s : State), s.answers slot hub = true → s.mir slot hub port = some q →
    (changeBits ss).contains bit.val = true → s.changeNow q ss bit = true → Does (.clearPortChange slot hub port ss bit) s fun t =>
    t = s.out (.usbAck slot)) ∧
  (∀ (slot : Fin 4) (hub : Fin 16) (port : Fin 16) (dev : Fin 128) (ep : Fin 16) (bulk : Bool) (dirIn : Bool) q (s : State), s.answers slot hub = true →
    s.mir slot hub port = some q → q.kind = 1 → Does (.clearTtBuffer slot hub port dev ep bulk dirIn) s fun t =>
    t = s.askHolder q (.ttClear dev ep bulk dirIn)) ∧
  (∀ (slot : Fin 4) (hub : Fin 16) (port : Fin 16) q (s : State), s.answers slot hub = true →
    s.mir slot hub port = some q → q.kind = 1 → Does (.resetTt slot hub port) s fun t => t = s.askHolder q .ttReset) ∧
  (∀ (slot : Fin 4) (hub : Fin 16) (port : Fin 16) q (s : State), s.answers slot hub = true →
    s.mir slot hub port = some q → q.kind = 1 → Does (.stopTt slot hub port) s fun t => t = s.askHolder q .ttStop) ∧
  (∀ (slot : Fin 4) (hub : Fin 16) (port : Fin 16) (besl : Fin 16) (rwe : Bool) q (s : State), s.answers slot hub = true →
    s.mir slot hub port = some q → q.kind = 1 → Does (.setAndTestPortL1 slot hub port besl rwe) s fun t =>
    t = s.askHolder q (.lpm besl rwe)) ∧
  (∀ (slot : Fin 4) (hub : Fin 16) (port : Fin 16) q (s : State), s.answers slot hub = true →
    s.mir slot hub port = some q → Does (.clearPortL1 slot hub port) s fun t =>
    (if q.kind = 1 then t = s.actOn q .l1Exit else .usbAck slot ∈ t.outs)) ∧
  (∀ (slot : Fin 4) (hub : Fin 16) (port : Fin 16) q (s : State), s.answers slot hub = true → s.mir slot hub port = some q → 
    s.heldBy q = true → q.reach = true → q.member = s.member → q.stall < 15 →
    s.on (YRD_STATUS.STALE slot) = false → s.g (YRD_STATUS.STATE slot) = 2 → Does (.clearPortL1 slot hub port) s fun t =>
    (⟨slot, q.stall, s.yticks slot + s.g HSH_X_TUNE.ORDER_LEAD * 200, .l1Exit⟩ : Order) ∈ t.hs.orders ∧ .usbAck slot ∈ t.outs)

/-- Requests on the SuperSpeed side of a position, and the hand-off of stalls. For each clause, for every state and all
operands that meet its hypotheses on the state and the operands alone, exec answers a next state in which the values the clause
names stand as the rules of the cited sections give them. Commands, with the rules their hypotheses and effects follow:
SET_HUB_DEPTH (R101, R162), SET_PORT_U1_TIMEOUT (R103, R120), SET_PORT_U2_TIMEOUT (R103, R120), SET_PORT_LINK_STATE (R103,
R124, R126, R162), SET_PORT_REMOTE_WAKE_MASK (R162), SS_PORT_RESET (R144, R162), BH_PORT_RESET (R162), FORCE_LINKPM_ACCEPT
(R162), KVM_BUTTON_PRESS (R166), ORDER_RECEIVED (R135, R162, R166, R167), HANDOFF_QUIET_END (R167). Where those rules leave a
point open, the clauses rest on the model's choices: log entries 2, 45, 68, 69, 71, 141, 146 and 178. -/
def Obligations.SsPortRequestsComplete : Prop :=
  (∀ (slot : Fin 4) (hub : Fin 16) (depth : Fin 65536) (s : State), s.answers slot hub = true → hub.val = 0 →
    depth.val ≤ 4 → Does (.setHubDepth slot hub depth) s fun t => (∀ h, t.hubOf slot 0xF = some h → h.depth = depth.val ∧
    h.depthSet = true) ∧ .usbAck slot ∈ t.outs) ∧
  (∀ (slot : Fin 4) (hub : Fin 16) (depth : Fin 65536) (s : State), s.answers slot hub = true → 4 < depth.val →
    Does (.setHubDepth slot hub depth) s fun t => .usbStall slot ∈ t.outs) ∧
  (∀ (slot : Fin 4) (hub : Fin 16) (port : Fin 16) (v : Fin 256) q (s : State), s.answers slot hub = true →
    s.mir slot hub port = some q → Does (.setPortU1Timeout slot hub port v) s fun t =>
    t = (s.mirMod slot hub port fun x => { x with u1 := v }).actOn q (.u1 v)) ∧
  (∀ (slot : Fin 4) (hub : Fin 16) (port : Fin 16) (v : Fin 256) q (s : State), s.answers slot hub = true → s.mir slot hub port = some q → 
    s.heldBy q = true → q.reach = true → q.member = s.member → q.stall < 15 → Does (.setPortU1Timeout slot hub port v) s fun t =>
    t.g (SSH_PORT_LPM.U1_TIMEOUT q.stall) = v ∧ .usbAck slot ∈ t.outs) ∧
  (∀ (slot : Fin 4) (hub : Fin 16) (port : Fin 16) (v : Fin 256) q (s : State), s.answers slot hub = true →
    s.mir slot hub port = some q → Does (.setPortU2Timeout slot hub port v) s fun t =>
    t = (s.mirMod slot hub port fun x => { x with u2 := v }).actOn q (.u2 v)) ∧
  (∀ (slot : Fin 4) (hub : Fin 16) (port : Fin 16) (v : Fin 256) q (s : State), s.answers slot hub = true → s.mir slot hub port = some q → 
    s.heldBy q = true → q.reach = true → q.member = s.member → q.stall < 15 → Does (.setPortU2Timeout slot hub port v) s fun t =>
    t.g (SSH_PORT_LPM.U2_TIMEOUT q.stall) = v ∧ .usbAck slot ∈ t.outs) ∧
  (∀ (slot : Fin 4) (hub : Fin 16) (port : Fin 16) (v : Fin 16) q (s : State), s.answers slot hub = true →
    s.mir slot hub port = some q → v.val ∈ [0, 3, 4, 5] → q.kind ≠ 2 → Does (.setPortLinkState slot hub port v) s fun t =>
    t = s.actOn q (.linkState v)) ∧
  (∀ (slot : Fin 4) (hub : Fin 16) (port : Fin 16) (v : Fin 16) q (s : State), s.answers slot hub = true → s.mir slot hub port = some q → v.val = 3 → s.g (SSH_PORT.LINK q.stall) ≤ 2 →
    s.heldBy q = true → q.reach = true → q.member = s.member → q.stall < 15 → Does (.setPortLinkState slot hub port v) s fun t =>
    t.g (SSH_PORT.LINK q.stall) = 3 ∧ .line "LGO_U3" [q.stall] ∈ t.outs) ∧
  (∀ (slot : Fin 4) (hub : Fin 16) (port : Fin 16) (v : Fin 16) q (s : State), s.answers slot hub = true → s.mir slot hub port = some q → v.val = 4 →
    s.heldBy q = true → q.reach = true → q.member = s.member → q.stall < 15 → Does (.setPortLinkState slot hub port v) s fun t =>
    t.g (SSH_PORT.LINK q.stall) = 4) ∧
  (∀ (slot : Fin 4) (hub : Fin 16) (port : Fin 16) (v : Fin 16) q (s : State), s.answers slot hub = true → s.mir slot hub port = some q → v.val = 0 → s.g (SSH_PORT.LINK q.stall) = 3 →
    s.heldBy q = true → q.reach = true → q.member = s.member → q.stall < 15 → Does (.setPortLinkState slot hub port v) s fun t =>
    t.g (SSH_PORT.LINK q.stall) = 8 ∧ .line "U3_EXIT" [q.stall] ∈ t.outs) ∧
  (∀ (slot : Fin 4) (hub : Fin 16) (port : Fin 16) (v : Fin 16) q (s : State), s.answers slot hub = true →
    s.mir slot hub port = some q → v.val ∉ [0, 3, 4, 5] → Does (.setPortLinkState slot hub port v) s fun t =>
    .usbStall slot ∈ t.outs) ∧
  (∀ (slot : Fin 4) (hub : Fin 16) (port : Fin 16) (mask : Fin 256) q (s : State), s.answers slot hub = true →
    s.mir slot hub port = some q → Does (.setPortRemoteWakeMask slot hub port mask) s fun t =>
    t = s.actOn q (.wakeMask mask)) ∧
  (∀ (slot : Fin 4) (hub : Fin 16) (port : Fin 16) (mask : Fin 256) q (s : State), s.answers slot hub = true → s.mir slot hub port = some q → 
    s.heldBy q = true → q.reach = true → q.member = s.member → q.stall < 15 → Does (.setPortRemoteWakeMask slot hub port mask) s fun t =>
    (vat t.port q.stall).wakeMask = mask.val ∧ .usbAck slot ∈ t.outs) ∧
  (∀ (slot : Fin 4) (hub : Fin 16) (port : Fin 16) q (s : State), s.answers slot hub = true →
    s.mir slot hub port = some q → q.kind ≠ 2 → Does (.ssPortReset slot hub port) s fun t => t = s.actOn q .hotReset) ∧
  (∀ (slot : Fin 4) (hub : Fin 16) (port : Fin 16) q (s : State), s.answers slot hub = true → s.mir slot hub port = some q → s.g (SSH_PORT.LINK q.stall) ≤ 3 →
    s.heldBy q = true → q.reach = true → q.member = s.member → q.stall < 15 → Does (.ssPortReset slot hub port) s fun t =>
    t.g (SSH_PORT.LINK q.stall) = 9 ∧ .line "HOT_RESET" [q.stall] ∈ t.outs) ∧
  (∀ (slot : Fin 4) (hub : Fin 16) (port : Fin 16) q (s : State), s.answers slot hub = true → s.mir slot hub port = some q → q.kind = 2 →
    Does (.ssPortReset slot hub port) s fun t =>
    t = (((s.resetPen q).penBus q (.penReset q.stall)).mirOwn q fun x => { x with ssChg := orBits x.ssChg 0x10 }).out (.usbAck slot)) ∧
  (∀ (slot : Fin 4) (hub : Fin 16) (port : Fin 16) q (s : State), s.answers slot hub = true →
    s.mir slot hub port = some q → q.kind ≠ 2 → Does (.bhPortReset slot hub port) s fun t => t = s.actOn q .warmReset) ∧
  (∀ (slot : Fin 4) (hub : Fin 16) (port : Fin 16) q (s : State), s.answers slot hub = true → s.mir slot hub port = some q → s.g (SSH_PORT.LINK q.stall) ≠ 4 →
    s.heldBy q = true → q.reach = true → q.member = s.member → q.stall < 15 → Does (.bhPortReset slot hub port) s fun t =>
    t.g (SSH_PORT.LINK q.stall) = 5 ∧ .line "WARM_RESET" [q.stall] ∈ t.outs) ∧
  (∀ (slot : Fin 4) (hub : Fin 16) (port : Fin 16) q (s : State), s.answers slot hub = true → s.mir slot hub port = some q → q.kind = 2 →
    Does (.bhPortReset slot hub port) s fun t =>
    t = (((s.resetPen q).penBus q (.penReset q.stall)).mirOwn q fun x => { x with ssChg := orBits x.ssChg 0x30 }).out (.usbAck slot)) ∧
  (∀ (slot : Fin 4) (hub : Fin 16) (port : Fin 16) (on : Bool) q (s : State), s.answers slot hub = true →
    s.mir slot hub port = some q → Does (.forceLinkpmAccept slot hub port on) s fun t => t = s.actOn q (.forceLpm on)) ∧
  (∀ (slot : Fin 4) (hub : Fin 16) (port : Fin 16) (on : Bool) q (s : State), s.answers slot hub = true → s.mir slot hub port = some q → 
    s.heldBy q = true → q.reach = true → q.member = s.member → q.stall < 15 → Does (.forceLinkpmAccept slot hub port on) s fun t =>
    (vat t.port q.stall).forceLpm = on ∧ .usbAck slot ∈ t.outs) ∧
  (∀ (s : State), ((s.plan.gpioOf s.member).any fun g => g.fn = 6) = true → s.on DRV_BARN.IS_LEAD = true →
    s.kvmNext = none → Does .kvmButtonPress s fun t => t.on UPP_EVT.KVM_IGNORED = true) ∧
  (∀ (s : State), ((s.plan.gpioOf s.member).any fun g => g.fn = 6) = true → s.on DRV_BARN.IS_LEAD = false →
    (s.mode ≠ 3 ∨ s.on DRV_BARN.FORMED = false) → Does .kvmButtonPress s fun t => t.on UPP_EVT.KVM_IGNORED = true) ∧
  (∀ d (s : State), ((s.plan.gpioOf s.member).any fun g => g.fn = 6) = true → s.kvmNext = some d → s.mode = 3 →
    ((s.kvmStalls d).any fun h => s.handing (h.member, h.stall)) = false → s.on DRV_BARN.IS_LEAD = true →
    Does .kvmButtonPress s fun t => ∃ h ∈ t.handoff, h.dest = d ∧ h.step = 1 ∧ h.stalls = s.kvmStalls d) ∧
  (∀ (s : State), ((s.plan.gpioOf s.member).any fun g => g.fn = 6) = true → s.on DRV_BARN.IS_LEAD = false → s.mode = 3 →
    s.on DRV_BARN.FORMED = true → s.reach (s.g DRV_BARN.LEAD) = true → Does .kvmButtonPress s fun t =>
    t = s.ctrlTo (s.g DRV_BARN.LEAD) "ORDER" ([0, 15, 0] ++ actFields .kvmButton)) ∧
  (∀ (c : CtrlHdr) (slot : Fin 4) (n : Fin 16) (stamp : Nat) (act : PortAct) (s : State), Taken c s →
    (actFields act).headD 0 ≠ (actFields (.attach 0 0 0 false false)).headD 0 → act ≠ .kvmButton →
    Does (.orderReceived c slot n stamp act) s fun t =>
    t = (s.rxCtrl c "ORDER" ([slot.val, n.val, stamp] ++ actFields act) id).arrive c.src slot n stamp act) ∧
  (∀ (c : CtrlHdr) (slot : Fin 4) (n : Fin 16) (stamp : Nat) (act : PortAct) m x ms a b (s : State), Taken c s →
    act = .attach m x ms a b → Does (.orderReceived c slot n stamp act) s fun t =>
    (let v := s.rxCtrl c "ORDER" ([slot.val, n.val, stamp] ++ actFields act) id; t = if m = v.member ∧ v.answering slot m n = false then v.arrive c.src slot n stamp act else v.attachHere ⟨m, n, x⟩ slot ms)) ∧
  (∀ (c : CtrlHdr) (slot : Fin 4) (n : Fin 16) (stamp : Nat) (act : PortAct) (s : State), Taken c s → act = .kvmButton →
    Does (.orderReceived c slot n stamp act) s fun t =>
    (let v := s.rxCtrl c "ORDER" ([slot.val, n.val, stamp] ++ actFields act) id; t = if v.on DRV_BARN.IS_LEAD && v.kvmPress.1 then v.kvmPress.2 else v.ctrlTo c.src "ORDER" ([0, 15, 0] ++ actFields .kvmIgnored))) ∧
  (∀ (i : Fin 16) h (s : State), s.handoff[i.val]? = some h → h.step = 3 → Does (.handoffQuietEnd i) s fun t =>
    t.handoff[i.val]? = some { h with step := 4, ms := h.ms + s.g UPP_X_HANDOFF.QUIET_MS })

/-- A master's access to a register passes, is refused or stalls. For each clause, for every state and all operands that meet
its hypotheses on the state and the operands alone, exec answers a next state in which the values the clause names stand as the
rules of the cited sections give them. Commands, with the rules their hypotheses and effects follow: REGISTER_WRITE (R373),
RESTING_DOMAIN_ACCESS (R268), AUTO_WAKE_ACCESS (R269), AUTO_WAKE_WRITE (R269), EXPERT_KEY_WRITE (R368), CHIP_RESET_REQUEST
(R362), FORCE_COAST (R84), SNAP (R79), YRD_NOW_LO_READ (R79), TML_READ (R94), TML_WRITE (R94), TML_DELETE (R94),
TTA_CLEAR_BUFFER (R150), TTA_RESET_TT (R150), TTA_STOP_TT (R150), TTA_START (R150), LINK_RETRAIN (R170), BELL_RING_REQUEST
(R174). Where those rules leave a point open, the clauses rest on the model's choices: log entries 2, 9, 19, 20, 51, 78, 81,
122, 128, 153, 162 and 176. -/
def Obligations.RegisterAccessComplete : Prop :=
  (∀ (m : Fin 16) (addr : BitVec 32) (w : BitVec 32) (s : State), s.passes m addr.toNat true = true →
    Does (.registerWrite m addr w) s fun t => t = (s.met m).writeReg m addr.toNat w) ∧
  (∀ (m : Fin 16) (addr : BitVec 32) (w : BitVec 32) (s : State), (s.pdc.stalls.any fun x => x.master = m.val) = false →
    s.masterHere m = true → (m.val < 2 ∨ 7 < m.val) → s.turn m addr.toNat = true →
    rowOf addr.toNat = none → Does (.registerWrite m addr w) s fun t =>
    t.on TOP_BUS_ERR.UNMAPPED = true ∧ t.g TOP_BUS_ERR.ADDR = addr.toNat % 2 ^ TOP_BUS_ERR.ADDR.width) ∧
  (∀ (m : Fin 16) (addr : BitVec 32) (data : Option (BitVec 32)) (s : State), (s.pdc.stalls.any fun x => x.master = m.val) = false →
    s.masterHere m = true → m.val ≠ 15 → ((rowOf addr.toNat).any fun r => !r.expert || s.holdsPage m) = true →
    s.turn m addr.toNat = true → (data.isSome = true → s.mayWrite m addr.toNat = true) →
    s.domOn (addrDom addr.toNat) = false →
    addrDom addr.toNat < 12 → (bitOf (s.g PDC_CTRL.AUTO_WAKE) m && s.holdsPage m) = false → addr.toNat ≠ PDC_CTRL.addr →
    Does (.restingDomainAccess m addr data) s fun t => t.on PDC_STICKY.SLEEP_ACCESS = true ∧
    bitOf (t.g PDC_STICKY.SLEEP_DOM) (addrDom addr.toNat) = true ∧ (data = none → .read m [0x0FF00FF0#32] ∈ t.outs)) ∧
  (∀ (m : Fin 16) (addr : BitVec 32) (data : Option (BitVec 32)) (s : State), (s.pdc.stalls.any fun x => x.master = m.val) = false →
    s.masterHere m = true → m.val ≠ 15 → (rowOf addr.toNat).isSome = true → s.holdsPage m = true → s.turn m addr.toNat = true → (data.isSome = true → s.mayWrite m addr.toNat = true) →
    s.domOn (addrDom addr.toNat) = false → bitOf (s.g PDC_CTRL.AUTO_WAKE) m = true →
    s.g (PDC_DOM.STATE (addrDom addr.toNat)) ≠ 3 → Does (.autoWakeAccess m addr data) s fun t =>
    t = (s.holdAccess m (addrDom addr.toNat)).pushStall ⟨m, .plain, [(addr.toNat, data)], []⟩) ∧
  (∀ (m : Fin 16) (on : Bool) (s : State), s.passes m PDC_CTRL.addr true = true → s.holdsPage m = true →
    Does (.autoWakeWrite m on) s fun t => t.on (bitFld PDC_CTRL.addr m) = on) ∧
  (∀ (m : Fin 16) (on : Bool) (s : State), (s.pdc.stalls.any fun x => x.master = m.val) = false →
    s.masterHere m = true → s.holdsPage m = true → s.turn m PDC_CTRL.addr = true →
    s.mayWrite m PDC_CTRL.addr = false → 2 ≤ m.val → m.val ≤ 7 →
    Does (.autoWakeWrite m on) s fun t => t.on (bitFld PDC_CTRL.addr m) = on) ∧
  (∀ (m : Fin 16) (k : Fin 2) (v : Fin 65536) (s : State), s.passes m (TOP_EXPERT_KEY.addr k) true = true → 2 ≤ m.val →
    m.val ≤ 7 → s.holdsPage m = false → v.val = 0x4B1D → Does (.expertKeyWrite m k v) s fun t =>
    t.on (bitFld TOP_EXPERT.addr (16 + m.val)) = true ∧ vat t.expert.armed m = s.cycle) ∧
  (∀ (m : Fin 16) (k : Fin 2) (v : Fin 65536) (s : State), s.passes m (TOP_EXPERT_KEY.addr k) true = true → 2 ≤ m.val →
    m.val ≤ 7 → s.holdsPage m = false → v.val = 0xB0A7 → s.on (bitFld TOP_EXPERT.addr (16 + m.val)) = true →
    s.cycle ≤ vat s.expert.armed m + 200 → (s.expert.closedAt = s.cycle → s.expert.closed.contains m.val = false) →
    Does (.expertKeyWrite m k v) s fun t => t.on (bitFld TOP_EXPERT.addr m) = true) ∧
  (∀ (m : Fin 16) (k : Fin 2) (v : Fin 65536) (s : State), s.passes m (TOP_EXPERT_KEY.addr k) true = true → 2 ≤ m.val →
    m.val ≤ 7 → v.val = 0 → Does (.expertKeyWrite m k v) s fun t => t.on (bitFld TOP_EXPERT.addr m) = false ∧
    t.on (bitFld TOP_EXPERT.addr (16 + m.val)) = false) ∧
  (∀ (m : Fin 16) (v : Fin 65536) (s : State), s.passes m TOP_X_RESET.addr true = true → v.val = 0xC1A5 → s.mode ≠ 5 →
    Does (.chipResetRequest m v) s fun t => t.boot.asked = true) ∧
  (∀ (m : Fin 16) (mask : Fin 16) (s : State), s.passes m YRD_CTRL.addr true = true →
    Does (.forceCoast m mask) s fun t => t.g YRD_CTRL.FORCE_COAST = mask) ∧
  (∀ (m : Fin 16) (s : State), s.passes m YRD_CTRL.addr true = true → Does (.snap m) s fun t => ∀ y, y < 5 →
    (vat t.yards y).snap = some (t.now y % 2 ^ 32)) ∧
  (∀ (m : Fin 16) (y : Fin 5) (s : State), s.passes m (YRD_NOW_LO.addr y) false = true → (vat s.yards y).snap = none →
    Does (.yrdNowLoRead m y) s fun t => .read m [w32 (s.now y)] ∈ t.outs ∧
    t.g (YRD_NOW_HI.NOW_HI y) = s.now y / 2 ^ 32 % 2 ^ (YRD_NOW_HI.NOW_HI y).width) ∧
  (∀ (m : Fin 16) (y : Fin 5) lo (s : State), s.passes m (YRD_NOW_LO.addr y) false = true →
    (vat s.yards y).snap = some lo → Does (.yrdNowLoRead m y) s fun t => .read m [w32 lo] ∈ t.outs ∧
    (vat t.yards y).snap = none) ∧
  (∀ (m : Fin 16) (i : Fin 256) (s : State), s.on TML_SEL.BUSY = false → s.passes m TML_SEL.addr true = true → Does (.tmlRead m i) s fun t =>
    t.g TML_SEL.INDEX = i ∧ t.g TML_E_CTRL.ACTION = (s.entry i).action % 2 ^ TML_E_CTRL.ACTION.width ∧
    t.g TML_E_ARG.ARG = (s.entry i).arg % 2 ^ TML_E_ARG.ARG.width) ∧
  (∀ (m : Fin 16) (i : Fin 256) (s : State), s.on TML_SEL.BUSY = false → s.passes m TML_SEL.addr true = true → s.g TML_STATUS.PLAN_TOP ≤ i.val →
    1 ≤ s.g TML_E_CTRL.ACTION → s.g TML_E_CTRL.ACTION ≤ 9 → s.g TML_E_CTRL.YARD ≤ 4 →
    tmlTargetOk (s.g TML_E_CTRL.ACTION) (s.g TML_E_CTRL.TARGET) = true → Does (.tmlWrite m i) s fun t =>
    t.entry i = { valid := s.on TML_E_CTRL.VALID, yard := s.g TML_E_CTRL.YARD, abs := s.on TML_E_CTRL.ABS, action := s.g TML_E_CTRL.ACTION, target := s.g TML_E_CTRL.TARGET, rep := s.g TML_E_REPEAT.REPEAT, arg := s.g TML_E_ARG.ARG, due := ticksOf (s.g TML_E_TIME_LO.TIME_LO + s.g TML_E_TIME_HI.TIME_HI * 2 ^ 32) }) ∧
  (∀ (m : Fin 16) (i : Fin 256) (s : State), s.passes m TML_SEL.addr true = true → s.g TML_E_CTRL.ACTION = 0 →
    Does (.tmlWrite m i) s fun t => t.on TML_SEL.REFUSED = true) ∧
  (∀ (m : Fin 16) (i : Fin 256) (s : State), s.passes m TML_SEL.addr true = true → s.on TML_SEL.BUSY = true →
    Does (.tmlWrite m i) s fun t => t.on TML_SEL.REFUSED = true) ∧
  (∀ (m : Fin 16) (i : Fin 256) (s : State), s.on TML_SEL.BUSY = false → s.passes m TML_SEL.addr true = true → s.g TML_STATUS.PLAN_TOP ≤ i.val →
    Does (.tmlDelete m i) s fun t => (t.entry i).valid = false) ∧
  (∀ (m : Fin 16) (n : Stall) (dev : Fin 128) (ep : Fin 16) (dirIn : Bool) (bulk : Bool) (s : State), s.passes m TTA_CMD.addr true = true →
    s.on TTA_CMD.BUSY = false →
    (s.tt' n).np.find? (fun b => b.dev = dev.val && b.ep = ep.val && b.bulk = bulk && b.dirIn = dirIn) = none →
    Does (.ttaClearBuffer m n dev ep dirIn bulk) s fun t => t.on (TTA_EVT.CLEARED n) = true ∧ t.on TTA_CMD.DONE = true) ∧
  (∀ (m : Fin 16) (n : Stall) (s : State), s.passes m TTA_CMD.addr true = true → s.on TTA_CMD.BUSY = false →
    Does (.ttaResetTt m n) s fun t => t.on (TTA_EVT.RESET n) = true ∧ (t.tt' n).per = [] ∧ (t.tt' n).np = [] ∧
    t.on TTA_CMD.DONE = true) ∧
  (∀ (m : Fin 16) (n : Stall) (s : State), s.passes m TTA_CMD.addr true = true → s.on TTA_CMD.BUSY = false →
    Does (.ttaStopTt m n) s fun t => (t.tt' n).stopped = true ∧ ((s.tt' n).cur = none → t.on TTA_CMD.DONE = true)) ∧
  (∀ (m : Fin 16) (n : Stall) (s : State), s.passes m TTA_CMD.addr true = true → s.on TTA_CMD.BUSY = false →
    Does (.ttaStart m n) s fun t => (t.tt' n).stopped = false ∧ t.on TTA_CMD.DONE = true) ∧
  (∀ (m : Fin 16) (mask : Fin 16) (s : State), s.passes m GLK_CTRL.addr true = true →
    Does (.linkRetrain m mask) s fun t =>
    t = (s.met m).writeReg m GLK_CTRL.addr (withFields (s.word GLK_CTRL.addr) [(GLK_CTRL.RETRAIN, mask)])) ∧
  (∀ (m : Fin 16) (mask : Fin 16) k (s : State), s.passes m GLK_WAKE.addr true = true → k < 4 → mask.val = 2 ^ k → (s.lk k).asleep = true →
    s.bellAhead k = false → Does (.bellRingRequest m mask) s fun t => (t.lk k).bells = (s.lk k).bells + 1 ∧
    .line "BELL" [k] ∈ t.outs)

/-- Registers whose access has an effect of its own. For each clause, for every state and all operands that meet its hypotheses
on the state and the operands alone, exec answers a next state in which the values the clause names stand as the rules of the
cited sections give them. Commands, with the rules their hypotheses and effects follow: TLM_ENERGY_LO_READ (R248),
TLM_ECLR_WRITE (R248), PPW_CLEAR_WRITE (R237), PDC_MYVOTE_WRITE (R259), INBOUND_POST (R274), OUTBOUND_ACK (R275), MBX_LOCK_READ
(R286), MBX_LOCK_WRITE (R286), QUEUE_DATA_READ (R317), QUEUE_RESET (R321), PMU_CLEAR (R325), FLT_CLEAR_WRITE (R336),
FORCE_FAULT (R337), CHECKER_INVERT (R338). Where those rules leave a point open, the clauses rest on the model's choices: log
entries 2, 9, 25, 34, 72, 79, 81, 88, 90 and 153. -/
def Obligations.RegisterCommandsComplete : Prop :=
  (∀ (m : Fin 16) (n : Channel) (s : State), s.passes m (TLM_ENERGY_LO.addr n) false = true →
    Does (.tlmEnergyLoRead m n) s fun t => .read m [w32 ((vat s.tlm n).energy / 2 ^ 24)] ∈ t.outs ∧
    vat (vat t.tlm n).latch m = (vat s.tlm n).energy / 2 ^ 24 / 2 ^ 32) ∧
  (∀ (m : Fin 16) (mask : Fin 131072) (s : State), s.passes m TLM_ECLR.addr true = true →
    Does (.tlmEclrWrite m mask) s fun t => t.g TLM_ECLR.CLEAR = s.g TLM_ECLR.CLEAR ||| mask.val) ∧
  (∀ (m : Fin 16) (mask : Fin 131072) (s : State), s.passes m PPW_CLEAR.addr true = true →
    Does (.ppwClearWrite m mask) s fun t => t = (s.met m).each (bitsSet (w32 mask) 0 17) fun n v => v.ppwClear n) ∧
  (∀ (m : Fin 16) (d : Fin 12) (v : Fin 4) c (s : State), s.marks.contains (.raised c d) = false → s.passes m (PDC_MYVOTE.addr d) true = true →
    clientOf m = some c → d.val ≠ 0 → v.val ≠ 3 → Does (.pdcMyvoteWrite m d v) s fun t =>
    t = (((s.met m).withPdc { (s.met m).pdc with accHolds := (s.met m).pdc.accHolds.filter (fun h => ¬(h.1 = m.val ∧ h.2 = d.val)), faultHeld := (s.met m).pdc.faultHeld && !(m.val = 1 && d.val = dMGT) })).setVote c d v) ∧
  (∀ (m : Fin 16) (c : Fin 12) (reply : Bool) (seq : Fin 16) (count : Fin 32) (s : State), s.passes m (MBX_IN_CTRL.addr c) true = true →
    m.val ≠ 1 → s.isParty m c = true → s.inBusy c = false → count.val ≤ 16 →
    Does (.inboundPost m c reply seq count) s fun t => t.on (MBX_IN_CTRL.GO c) = true ∧
    t.g (MBX_IN_CTRL.COUNT c) = count ∧ t.on (MBX_IN_CTRL.REPLY c) = reply ∧ t.g (MBX_IN_CTRL.SEQ c) = seq ∧
    t.on (MBX_DB.IN_DB c) = true) ∧
  (∀ (m : Fin 16) (c : Fin 12) (s : State), s.passes m (MBX_OUT_CTRL.addr c) true = true → m.val ≠ 1 →
    s.isParty m c = true → s.on (MBX_OUT_CTRL.GO c) = true → s.marks.contains (.posted c) = false →
    (s.mb c).held = [] → Does (.outboundAck m c) s fun t =>
    t.on (MBX_OUT_CTRL.GO c) = false) ∧
  (∀ (m : Fin 16) (i : Fin 16) (s : State), s.passes m (MBX_LOCK.addr i) false = true → s.g (MBX_LOCK.OWNER i) = 0 → s.readerAhead m i = none → Does (.mbxLockRead m i) s fun t => t.g (MBX_LOCK.OWNER i) = m ∧ .read m [w32 (2 ^ 31 + m.val)] ∈ t.outs) ∧
  (∀ (m : Fin 16) (i : Fin 16) o (s : State), s.passes m (MBX_LOCK.addr i) false = true → s.g (MBX_LOCK.OWNER i) = o → o ≠ 0 → o ≠ m.val → s.releaseAhead o i = none →
    Does (.mbxLockRead m i) s fun t => t.g (MBX_LOCK.OWNER i) = o ∧ .read m [w32 o] ∈ t.outs) ∧
  (∀ (m : Fin 16) (i : Fin 16) (w : BitVec 32) (s : State), s.passes m (MBX_LOCK.addr i) true = true →
    s.g (MBX_LOCK.OWNER i) = m.val → w.toNat = m.val →
    s.marks.contains (.released i m) = false → Does (.mbxLockWrite m i w) s fun t => t.g (MBX_LOCK.OWNER i) = 0) ∧
  (∀ (m : Fin 16) (i : Fin 16) (w : BitVec 32) (s : State), s.passes m (MBX_LOCK.addr i) true = true → m.val ≠ 1 →
    (s.g (MBX_LOCK.OWNER i) ≠ m.val ∨ w.toNat % 16 ≠ m.val) →
    s.marks.contains (.released i m) = false → Does (.mbxLockWrite m i w) s fun t =>
    t.g (MBX_LOCK.OWNER i) = s.g (MBX_LOCK.OWNER i) ∧ t.on MBX_ERR.LOCK_MISUSE = true) ∧
  (∀ (m : Fin 16) (q : Fin 4) (s : State), s.passes m (OBS_Q_DATA.addr q) false = true →
    Does (.queueDataRead m q) s fun t =>
    t = (match ((s.met m).queueRead q m).1 with | some w => ((s.met m).queueRead q m).2.out (.read m [w]) | none => ((s.met m).queueRead q m).2)) ∧
  (∀ (m : Fin 16) (q : Fin 4) (s : State), s.passes m (OBS_Q_CTRL.addr q) true = true → (vat s.obs q).waiting = [] →
    Does (.queueReset m q) s fun t => (vat t.obs q).recs = [] ∧ t.on (OBS_Q_STATUS.OWNED q) = false ∧
    t.on (OBS_Q_STATUS.TIMEOUT q) = false) ∧
  (∀ (m : Fin 16) (i : Fin 8) (s : State), s.passes m (OBS_PMU_EVT.addr i) true = true → Does (.pmuClear m i) s fun t =>
    t.g (OBS_PMU_LO.COUNT_LO i) = 0 ∧ t.g (OBS_PMU_HI.COUNT_HI i) = 0) ∧
  (∀ (m : Fin 16) (src : Fin 128) (all : Bool) (qual : Fin 256) (s : State), s.passes m FLT_CLEAR.addr true = true →
    m.val = 1 → all = false → faultExists src = true → Does (.fltClearWrite m src all qual) s fun t =>
    t = s.clearSource src qual) ∧
  (∀ (m : Fin 16) (src : Fin 128) (all : Bool) (qual : Fin 256) (s : State), s.passes m FLT_CLEAR.addr true = true →
    m.val = 1 → all = true → Does (.fltClearWrite m src all qual) s fun t => t = s.clearAll qual) ∧
  (∀ (m : Fin 16) (src : Fin 128) (qual : Fin 256) (s : State), s.passes m FLT_X_FORCE.addr true = true → s.mode = 3 →
    s.plan.members = 1 → faultExists src = true → Does (.forceFault m src qual) s fun t => t.sticky src = true) ∧
  (∀ (m : Fin 16) (src : Fin 128) (qual : Fin 256) (s : State), s.passes m FLT_X_FORCE.addr true = true → s.mode ≠ 3 →
    Does (.forceFault m src qual) s fun t => t.on FLT_STATUS.FORCE_REFUSED = true) ∧
  (∀ (m : Fin 16) (mask : Fin 4096) (s : State), s.passes m FLT_X_INVERT.addr true = true →
    Does (.checkerInvert m mask) s fun t =>
    t.word FLT_X_INVERT.addr = s.word FLT_X_INVERT.addr ||| (w32 mask &&& 0xF3F#32))

/-- The vendor requests and endpoints of a tack room. For each clause, for every state and all operands that meet its
hypotheses on the state and the operands alone, exec answers a next state in which the values the clause names stand as the
rules of the cited sections give them. Commands, with the rules their hypotheses and effects follow: MBX_SEND (R291, R292),
MBX_SEND_COMPLETE (R292), MSG_NAK_TIMEOUT (R292), MBX_RECV (R291), MBX_ACK (R291), REG_READ (R291, R366), REG_WRITE (R291,
R292, R366), REG_WRITE_FIXED (R291, R292, R366), QUEUE_SELECT (R291, R294, R318), EP1_REPORT (R290, R293), EP2_PACKET_ACK
(R290, R294, R316, R318), QUEUE_TIMEOUT (R320). Where those rules leave a point open, the clauses rest on the model's choices:
log entries 2, 3, 24, 111, 113, 115, 120, 174, 176 and 177. -/
def Obligations.VendorRequestsComplete : Prop :=
  (∀ (slot : Fin 4) (wValue wIndex wLength : BitVec 16) (ctrl : BitVec 32) (words : List (BitVec 32)) u (s : State),
    s.tackUp slot = some u → wValue.toNat = 0 → s.namesChannel slot wIndex = true → words.length ≤ 16 →
    getBits ctrl 1 5 = words.length → wLength.toNat = 4 + 4 * words.length → s.on (MBX_IN_CTRL.GO wIndex.toNat) = true →
    Does (.mbxSend slot wValue wIndex wLength ctrl words) s fun t => (vat t.tack u).send = some (wIndex.toNat, ctrl :: words) ∧
    .usbNak slot ∈ t.outs) ∧
  (∀ (slot : Fin 4) (wValue wIndex wLength : BitVec 16) (ctrl : BitVec 32) (words : List (BitVec 32)) u (s : State),
    s.tackUp slot = some u → wValue.toNat = 0 → s.namesChannel slot wIndex = true → words.length ≤ 16 →
    getBits ctrl 1 5 = words.length → wLength.toNat = 4 + 4 * words.length → s.on (MBX_IN_CTRL.GO wIndex.toNat) = false →
    Does (.mbxSend slot wValue wIndex wLength ctrl words) s fun t =>
    t = ((s.newRequest slot u).tackTake u (ctrl :: words)).sendNow slot wIndex.toNat (ctrl :: words)) ∧
  (∀ (slot : Fin 4) (wValue wIndex wLength : BitVec 16) (ctrl : BitVec 32) (words : List (BitVec 32)) u (s : State),
    s.tackUp slot = some u → (wValue.toNat ≠ 0 ∨ s.namesChannel slot wIndex = false ∨ 16 < words.length ∨
    getBits ctrl 1 5 ≠ words.length ∨ wLength.toNat ≠ 4 + 4 * words.length) →
    Does (.mbxSend slot wValue wIndex wLength ctrl words) s fun t => t = (s.newRequest slot u).out (.usbStall slot)) ∧
  (∀ (slot : Fin 4) x (s : State), (vat s.tack (s.upOf slot)).send = some x → s.on (MBX_IN_CTRL.GO x.1) = false →
    Does (.mbxSendComplete slot) s fun t =>
    t = (s.tackMod (s.upOf slot) fun y => { y with send := none }).sendNow slot x.1 x.2) ∧
  (∀ (slot : Fin 4) (s : State), (vat s.tack (s.upOf slot)).send.isSome = true → Does (.msgNakTimeout slot) s fun t =>
    (vat t.tack (s.upOf slot)).send = none ∧ t.on (TKR_EVT.MSG_STALL (s.upOf slot)) = true ∧ .usbStall slot ∈ t.outs) ∧
  (∀ (slot : Fin 4) (wValue wIndex wLength : BitVec 16) u (s : State), s.tackUp slot = some u → wValue.toNat = 0 →
    wLength.toNat = 68 → s.namesChannel slot wIndex = true → Does (.mbxRecv slot wValue wIndex wLength) s fun t =>
    t = (s.newRequest slot u).tackXfer slot .usbRead ((MBX_OUT_CTRL.addr wIndex.toNat, none) :: readsFrom (MBX_OUT_W.addr wIndex.toNat 0) 16)) ∧
  (∀ (slot : Fin 4) (wValue wIndex wLength : BitVec 16) u (s : State), s.tackUp slot = some u →
    (wValue.toNat ≠ 0 ∨ wLength.toNat ≠ 68 ∨ s.namesChannel slot wIndex = false) →
    Does (.mbxRecv slot wValue wIndex wLength) s fun t => t = (s.newRequest slot u).out (.usbStall slot)) ∧
  (∀ (slot : Fin 4) (wValue wIndex wLength : BitVec 16) u (s : State), s.tackUp slot = some u → wLength.toNat = 0 →
    s.namesChannel slot wIndex = true → Does (.mbxAck slot wValue wIndex wLength) s fun t =>
    t = if s.on (MBX_OUT_CTRL.GO wIndex.toNat) ∧ s.g (MBX_OUT_CTRL.SEQ wIndex.toNat) = wValue.toNat
      then (s.newRequest slot u).tackXfer slot .usbWrite [(MBX_OUT_CTRL.addr wIndex.toNat, some 1)]
      else (s.newRequest slot u).out (.usbAck slot)) ∧
  (∀ (slot : Fin 4) (wValue wIndex wLength : BitVec 16) u (s : State), s.tackUp slot = some u →
    (wLength.toNat ≠ 0 ∨ s.namesChannel slot wIndex = false) → Does (.mbxAck slot wValue wIndex wLength) s fun t =>
    t = (s.newRequest slot u).out (.usbStall slot)) ∧
  (∀ (slot : Fin 4) (addr : BitVec 32) (len : Fin 65536) u (s : State), s.tackUp slot = some u → addr.toNat % 4 = 0 →
    4 ≤ len.val → len.val ≤ 64 → len.val % 4 = 0 → Does (.regRead slot addr len) s fun t =>
    t = (s.newRequest slot u).tackXfer slot .usbRead (readsFrom addr.toNat (len.val / 4))) ∧
  (∀ (slot : Fin 4) (addr : BitVec 32) (len : Fin 65536) u (s : State), s.tackUp slot = some u →
    (addr.toNat % 4 ≠ 0 ∨ len.val < 4 ∨ 64 < len.val ∨ len.val % 4 ≠ 0) → Does (.regRead slot addr len) s fun t =>
    t = (s.newRequest slot u).out (.usbStall slot)) ∧
  (∀ (slot : Fin 4) (addr : BitVec 32) (wLength : BitVec 16) (words : List (BitVec 32)) u (s : State), s.tackUp slot = some u →
    addr.toNat % 4 = 0 → words ≠ [] → words.length ≤ 16 → wLength.toNat = 4 * words.length →
    Does (.regWrite slot addr wLength words) s fun t =>
    t = ((s.newRequest slot u).tackTake u words).tackXfer slot .usbWrite (writesFrom addr.toNat words)) ∧
  (∀ (slot : Fin 4) (addr : BitVec 32) (wLength : BitVec 16) (words : List (BitVec 32)) u (s : State), s.tackUp slot = some u →
    (addr.toNat % 4 ≠ 0 ∨ words = [] ∨ 16 < words.length ∨ wLength.toNat ≠ 4 * words.length) →
    Does (.regWrite slot addr wLength words) s fun t => t = (s.newRequest slot u).out (.usbStall slot)) ∧
  (∀ (slot : Fin 4) (addr : BitVec 32) (wLength : BitVec 16) (words : List (BitVec 32)) u (s : State), s.tackUp slot = some u →
    addr.toNat % 4 = 0 → words ≠ [] → words.length ≤ 4 → wLength.toNat = 4 * words.length →
    Does (.regWriteFixed slot addr wLength words) s fun t =>
    t = ((s.newRequest slot u).tackTake u words).tackXfer slot .usbWrite (words.map fun w => (addr.toNat, some w))) ∧
  (∀ (slot : Fin 4) (addr : BitVec 32) (wLength : BitVec 16) (words : List (BitVec 32)) u (s : State), s.tackUp slot = some u →
    (addr.toNat % 4 ≠ 0 ∨ words = [] ∨ 4 < words.length ∨ wLength.toNat ≠ 4 * words.length) →
    Does (.regWriteFixed slot addr wLength words) s fun t => t = (s.newRequest slot u).out (.usbStall slot)) ∧
  (∀ (slot : Fin 4) (wValue wIndex wLength : BitVec 16) u (s : State), s.tackUp slot = some u → u < 2 → wValue.toNat = 0 →
    wIndex.toNat < 4 → wLength.toNat = 0 →
    (s.g (OBS_Q_CTRL.OWNER wIndex.toNat) = 0 ∨ s.g (OBS_Q_CTRL.OWNER wIndex.toNat) = u + 1) →
    Does (.queueSelect slot wValue wIndex wLength) s fun t => t.g (OBS_Q_CTRL.OWNER wIndex.toNat) = u + 1 ∧
    t.g (TKR_FUNC.QUEUE u) = wIndex.toNat ∧ .usbAck slot ∈ t.outs) ∧
  (∀ (slot : Fin 4) (wValue wIndex wLength : BitVec 16) u (s : State), s.tackUp slot = some u →
    (wValue.toNat ≠ 0 ∨ 4 ≤ wIndex.toNat ∨ wLength.toNat ≠ 0 ∨ (s.g (OBS_Q_CTRL.OWNER wIndex.toNat) ≠ 0 ∧
    s.g (OBS_Q_CTRL.OWNER wIndex.toNat) ≠ u + 1)) → Does (.queueSelect slot wValue wIndex wLength) s fun t =>
    t = (s.newRequest slot u).out (.usbStall slot)) ∧
  (∀ (slot : Fin 4) (ack : Bool) (s : State), (vat s.tack (s.upOf slot)).configured = true → ack = false →
    (vat s.tack (s.upOf slot)).report = none → s.reportWords slot (s.upOf slot) ≠ (vat s.tack (s.upOf slot)).acked →
    s.on (TKR_FUNC.RWAKE (s.upOf slot)) = false → Does (.ep1Report slot ack) s fun t =>
    (vat t.tack (s.upOf slot)).report = some ([w32 (s.reportWords slot (s.upOf slot)).1, w32 (s.reportWords slot (s.upOf slot)).2] ++ words64 (s.now slot))) ∧
  (∀ (slot : Fin 4) (ack : Bool) l (s : State), (vat s.tack (s.upOf slot)).configured = true → ack = true →
    (vat s.tack (s.upOf slot)).report = some l → Does (.ep1Report slot ack) s fun t =>
    (vat t.tack (s.upOf slot)).report = none ∧ .usbData slot (wordBytes l) ∈ t.outs) ∧
  (∀ (slot : Fin 4) (s : State), (vat s.tack (s.upOf slot)).configured = true →
    s.g (OBS_Q_CTRL.OWNER (s.g (TKR_FUNC.QUEUE (s.upOf slot)))) = s.upOf slot + 1 →
    (vat s.obs (s.g (TKR_FUNC.QUEUE (s.upOf slot)))).staged + (vat s.obs (s.g (TKR_FUNC.QUEUE (s.upOf slot)))).stagedGone ≠ 0 →
    Does (.ep2PacketAck slot) s fun t =>
    t = ((s.out (.usbData slot (wordBytes (vat s.obs (s.g (TKR_FUNC.QUEUE (s.upOf slot)))).packet))).ackPacket (s.g (TKR_FUNC.QUEUE (s.upOf slot)))).ep2Fill (s.g (TKR_FUNC.QUEUE (s.upOf slot)))) ∧
  (∀ (slot : Fin 4) (s : State), (vat s.tack (s.upOf slot)).configured = true →
    (s.g (OBS_Q_CTRL.OWNER (s.g (TKR_FUNC.QUEUE (s.upOf slot)))) ≠ s.upOf slot + 1 ∨
    (vat s.obs (s.g (TKR_FUNC.QUEUE (s.upOf slot)))).staged + (vat s.obs (s.g (TKR_FUNC.QUEUE (s.upOf slot)))).stagedGone = 0) →
    Does (.ep2PacketAck slot) s fun t => t = s.out (.usbNak slot)) ∧
  (∀ (slot : Fin 4) (ack : Bool) (s : State), (vat s.tack (s.upOf slot)).configured = true → ack = true →
    (vat s.tack (s.upOf slot)).report = none → Does (.ep1Report slot ack) s fun t => t = s.out (.usbNak slot)) ∧
  (∀ (q : Fin 4) (s : State), s.g (OBS_Q_CTRL.TIMEOUT_MS q) ≠ 0 → (vat s.obs q).recs ≠ [] → s.domOn dMGT = true → s.popAhead q = false →
    s.marks.contains (.popped q) = false → Does (.queueTimeout q) s fun t => t.on (OBS_Q_STATUS.TIMEOUT q) = true)

/-- Billboard, standard requests, and the sideband targets. For each clause, for every state and all operands that meet its
hypotheses on the state and the operands alone, exec answers a next state in which the values the clause names stand as the
rules of the cited sections give them. Commands, with the rules their hypotheses and effects follow: BILLBOARD_TIMEOUT (R223,
R296), BILLBOARD_RECONNECT (R296), STANDARD_DEVICE_REQUEST (R156, R289), I2C_WRITE (R297), I2C_READ (R297), SPI_WRITE (R298),
SPI_READ (R298), SPI_STATUS (R298), SMBUS_ALERT_RESPONSE (R300), SIDEBAND_STALL_TIMEOUT (R299). Where those rules leave a point
open, the clauses rest on the model's choices: log entries 2, 3, 20, 48, 116, 117, 119 and 174. -/
def Obligations.DevicesAndSidebandsComplete : Prop :=
  (∀ (u : Fin 2) r (s : State), (s.slotOf u).bind s.plan.paddock? = some r → bitOf r.flags 3 = true →
    2 ≤ s.g (TCP_PORT.CONTRACT (15 + u)) → s.g (TCP_DP.STATE u) ≠ 3 → s.on (TCP_DP.BILLBOARD u) = false →
    (vat s.tack u).away = false → s.tackPos r.slot = none → Does (.billboardTimeout u) s fun t =>
    t.on (TKR_EVT.BB_NO_PORT u) = true) ∧
  (∀ (u : Fin 2) r q (s : State), (s.slotOf u).bind s.plan.paddock? = some r → bitOf r.flags 3 = true →
    2 ≤ s.g (TCP_PORT.CONTRACT (15 + u)) → s.g (TCP_DP.STATE u) ≠ 3 → s.on (TCP_DP.BILLBOARD u) = false →
    (vat s.tack u).away = false → s.tackPos r.slot = some q → Does (.billboardTimeout u) s fun t =>
    t = (s.tackMod u fun x => { x with away := true }).tackPlace q) ∧
  (∀ (u : Fin 2) q (s : State), (s.slotOf u).bind s.tackPos = some q → (vat s.tack u).away = true →
    (s.ch (15 + u)).attached = true → Does (.billboardReconnect u) s fun t => t.on (TCP_DP.BILLBOARD u) = true) ∧
  (∀ (slot : Fin 4) (hub : Option (Fin 16)) (ss : Bool) (r : StdReq) h (s : State), hub = some h →
    s.answers slot h = true → Does (.standardDeviceRequest slot hub ss r) s fun t => t = s.hubStd slot h ss r) ∧
  (∀ (slot : Fin 4) (hub : Option (Fin 16)) (ss : Bool) (r : StdReq) u (s : State), hub = none →
    s.homeOf slot = some (s.member, u) → Does (.standardDeviceRequest slot hub ss r) s fun t =>
    t = (s.newRequest slot u).tackStd slot u r) ∧
  (∀ (slot : Fin 4) (hub : Option (Fin 16)) (ss : Bool) (r : StdReq) u a (s : State), hub = none →
    s.homeOf slot = some (s.member, u) → r = .address a → (s.g (TKR_FUNC.STATE u) = 2 ∨ s.g (TKR_FUNC.STATE u) = 3) →
    Does (.standardDeviceRequest slot hub ss r) s fun t => t.g (TKR_FUNC.ADDR u) = a ∧
    t.g (TKR_FUNC.STATE u) = (if a.val = 0 then 2 else 3) ∧ .usbAck slot ∈ t.outs) ∧
  (∀ (addr : BitVec 24) (bytes : List (BitVec 8)) (s : State), s.boot.held = 0 → s.on TKR_CTRL.I2C_EN = true →
    s.on TKR_SB.PEC = false → Does (.i2cWrite addr bytes) s fun t =>
    t = (s.holdAccess 6 dMGT).sideWrite 6 addr.toNat bytes) ∧
  (∀ (addr : BitVec 24) (bytes : List (BitVec 8)) pec (s : State), s.boot.held = 0 → s.on TKR_CTRL.I2C_EN = true →
    s.on TKR_SB.PEC = true → bytes.getLast? = some pec → Does (.i2cWrite addr bytes) s fun t =>
    t = if pec = smbusPec (s.i2cHead addr.toNat ++ bytes.dropLast)
      then (s.holdAccess 6 dMGT).sideWrite 6 addr.toNat bytes.dropLast else s.holdAccess 6 dMGT) ∧
  (∀ (addr : BitVec 24) (n : Fin 65536) (s : State), s.boot.held = 0 → s.on TKR_CTRL.I2C_EN = true →
    Does (.i2cRead addr n) s fun t => t = (s.holdAccess 6 dMGT).sideRead 6 addr.toNat n) ∧
  (∀ (addr : BitVec 24) (bytes : List (BitVec 8)) (s : State), s.boot.held = 0 → s.on TKR_CTRL.SPI_EN = true →
    Does (.spiWrite addr bytes) s fun t => t = ((s.holdAccess 7 dMGT).withSbTimedOut false).sideWrite 7 addr.toNat bytes) ∧
  (∀ (addr : BitVec 24) (n : Fin 65536) (s : State), s.boot.held = 0 → s.on TKR_CTRL.SPI_EN = true →
    Does (.spiRead addr n) s fun t => t = ((s.holdAccess 7 dMGT).withSbTimedOut false).sideRead 7 addr.toNat n) ∧
  (∀ (s : State), s.boot.held = 0 → s.on TKR_CTRL.SPI_EN = true → Does .spiStatus s fun t =>
    .sideband [BitVec.ofNat 8 (b2n s.alertOn + b2n ((List.range 12).any fun c => [6, 7].contains (s.g (MBX_ASSIGN.PARTY c)) && s.on (MBX_DB.OUT_DB c)) * 2 + b2n s.sbTimedOut * 4)] ∈ t.outs) ∧
  (∀ (s : State), s.boot.held = 0 → s.on TKR_CTRL.I2C_EN = true → s.alertOn = true → Does .smbusAlertResponse s fun t =>
    .sideband [BitVec.ofNat 8 (0x28 + s.g TOP_STRAP.I2CADDR)] ∈ t.outs) ∧
  (∀ (spi : Bool) (s : State), ((s.pdc.stalls.filter fun x => x.master = if spi then 7 else 6) ≠ []) →
    Does (.sidebandStallTimeout spi) s fun t => t.on (TKR_EVT.SB_TIMEOUT 0) = true ∧
    t.sbTimedOut = (spi || s.sbTimedOut) ∧ t.pdc.stalls = s.pdc.stalls.filter fun x => x.master ≠ if spi then 7 else 6)

/-- Upload, commit and activation of a plan go through their steps. For each clause, for every state and all operands that meet
its hypotheses on the state and the operands alone, exec answers a next state in which the values the clause names stand as the
rules of the cited sections give them. Commands, with the rules their hypotheses and effects follow: STAGING_ERASE_DONE (R71),
COMMIT_STEP_DONE (R74, R23), ACTIVATE_REPLY_WAIT_END (R76, R77), MEMBER_ACTIVATE_ORDER (R77), OTP_WRITE_DONE (R67, R69, R347),
UPLOAD_IDLE_TIMEOUT (R73), EP3_BULK_DATA (R290, R295). Where those rules leave a point open, the clauses rest on the model's
choices: log entries 3, 86, 93, 112, 113, 114, 135 and 136. -/
def Obligations.PlanCommandsComplete : Prop :=
  (∀ (s : State), s.upload = 1 → Does .stagingEraseDone s fun t => t.upload = 2) ∧
  (∀ (ok : Bool) (s : State), s.mode ≠ 5 → s.pln.commit = 1 → Does (.commitStepDone ok) s fun t => (∀ p, s.check s.pln.data = .ok p →
    t.pln.commit = 2) ∧ ∀ c, s.check s.pln.data = .error c → t.pln.commit = 0 ∧ t.pln.data = []) ∧
  (∀ (ok : Bool) (s : State), s.mode ≠ 5 → s.pln.commit = 2 → Does (.commitStepDone ok) s fun t => t.pln.commit = 3 ∧
    (vat t.pln.slot s.pln.target).page = []) ∧
  (∀ (ok : Bool) (s : State), s.mode ≠ 5 → s.pln.commit = 3 → Does (.commitStepDone ok) s fun t => t.pln.commit = 4 ∧
    vat t.pln.slot s.pln.target = {}) ∧
  (∀ (ok : Bool) (s : State), s.pln.target < 2 → s.mode ≠ 5 → s.pln.commit = 4 → Does (.commitStepDone ok) s fun t => t.pln.commit = 5 ∧
    (vat t.pln.slot s.pln.target).bytes = s.pln.data) ∧
  (∀ (ok : Bool) (s : State), s.mode ≠ 5 → s.pln.commit = 5 → ok = true → Does (.commitStepDone ok) s fun t => t.pln.commit = 6) ∧
  (∀ (ok : Bool) (s : State), s.pln.target < 2 → s.mode ≠ 5 → s.pln.commit = 6 → ok = true → Does (.commitStepDone ok) s fun t => t.pln.commit = 0 ∧ t.pln.committed = s.pln.committed ∧
    (vat t.pln.slot s.pln.target).page = commitPage s.pln.seq s.pln.data) ∧
  (∀ (ok : Bool) (s : State), s.mode ≠ 5 → (s.pln.commit = 5 ∨ s.pln.commit = 6) → ok = false → s.pln.again = false →
    Does (.commitStepDone ok) s fun t => t.pln.commit = 2 ∧ t.pln.again = true ∧ (vat t.pln.slot s.pln.target).page = []) ∧
  (∀ r (s : State), s.pln.act = some r → r.wait.isSome = true → s.mode = 3 → Does .activateReplyWaitEnd s fun t =>
    t = ((if r.wide then s.ctrlAll "ACTIVATE" [r.revoke, b2n r.raiseFloor] else s).plnMod fun p => { p with act := some { r with wait := none } }).enterPlan 0xFF) ∧
  (∀ r (s : State), s.pln.act = some r → r.wait.isSome = true → s.mode = 4 → Does .activateReplyWaitEnd s fun t =>
    t.pln.act = none) ∧
  (∀ (c : CtrlHdr) (revoke : Fin 16) (raise : Bool) u (s : State), Taken c s →
    s.rxCtrl c "ACTIVATE" [revoke.val, b2n raise] id = u → u.mode = 3 → u.pln.commit = 0 → u.actBusy = false →
    Does (.memberActivateOrder c revoke raise) s fun t => ∀ d src, u.sourceFile false = some (d, src) →
    (∀ e, u.check d = .error e → t = u.reject e src (fileId d)) ∧ ∀ p, u.check d = .ok p →
    u.otpAllows p raise revoke = true →
    t = (u.plnMod fun x => { x with act := some { plan := p, source := src, revoke := revoke, raiseFloor := raise, wait := none, wide := false } }).enterPlan 0xFF) ∧
  (∀ k l (s : State), k < 4 → s.mode ≠ 5 → s.pln.otp = .revoke k :: l → Does .otpWriteDone s fun t => vat t.otp.revoked k = true ∧
    t.pln.otp = l) ∧
  (∀ b l (s : State), s.mode ≠ 5 → s.pln.otp = .floor b :: l → s.otp.floor < b → s.otp.words.length < 64 →
    Does .otpWriteDone s fun t => t.otp.words = s.otp.words ++ [b] ∧
    t.pln.otp = l) ∧
  (∀ (s : State), s.upload = 2 → Does .uploadIdleTimeout s fun t => t.upload = 0 ∧ t.pln.data = []) ∧
  (∀ (slot : Fin 4) (bytes : List (BitVec 8)) b (s : State), s.dwezelRuns = true → s.slotOf (s.upOf slot) = some slot.val → (vat s.tack (s.upOf slot)).ep3 = none → (vat s.tack (s.upOf slot)).configured = true →
    s.pln.bulk = some b → s.g (MBX_ASSIGN.PARTY b.c) = 2 + slot.val → bytes.length = b.count →
    Does (.ep3BulkData slot bytes) s fun t => t.pln.data = s.pln.data ++ bytes ∧ t.pln.bulk = none ∧
    .usbAck slot ∈ t.outs) ∧
  (∀ (slot : Fin 4) (bytes : List (BitVec 8)) (s : State), (vat s.tack (s.upOf slot)).configured = true →
    s.slotOf (s.upOf slot) = some slot.val → (s.bulkFrom slot = false ∨ (vat s.tack (s.upOf slot)).ep3.isSome = true) →
    Does (.ep3BulkData slot bytes) s fun t => t = s.out (.usbNak slot))

/-- Dumps, restarts, and the events of commands under way. For each clause, for every state and all operands that meet its
hypotheses on the state and the operands alone, exec answers a next state in which the values the clause names stand as the
rules of the cited sections give them. Commands, with the rules their hypotheses and effects follow: DUMP_WRITE (R340, R341,
R344, R23), DUMP_FLASH_DONE (R344, R23), WATCHDOG_EXPIRE (R335), MGT_EXCEPTION (R335, R342), MANAGEMENT_RESTART_DONE (R78,
R335), BUS_RESET (R130, R144, R163, R267, R310), MESSAGE_CONSUME (R274, R281, R77), PORT_POWER_CYCLE_RELEASE (R305),
HANDOFF_STEP_DONE (R166, R167, R198), SESSION_IDLE_TIMEOUT (R309). Where those rules leave a point open, the clauses rest on
the model's choices: log entries 2, 3, 68, 76, 98, 101, 102, 105, 106, 118, 119, 121 and 152. -/
def Obligations.ManagementComplete : Prop :=
  (∀ (soon : Bool) (trace : List (BitVec 8)) cause rest (s : State), s.boot.held = 0 → s.mode ≠ 5 → s.domOn dMGT = true →
    s.flt.dumpDue = cause :: rest → s.flt.ram = none → s.flt.writing = 0 → Does (.dumpWrite soon trace) s fun t =>
    t.flt.dumpDue = rest ∧
    t.flt.ram = some { seq := s.dumpSeq, severity := s.causeSeverity cause, bytes := s.dumpBytes s.dumpSeq cause (s.causeSeverity cause) trace }) ∧
  (∀ d (s : State), s.mode ≠ 5 → s.flt.ram = some d → s.flt.writing ≠ 0 → Does .dumpFlashDone s fun t => t.flt.writing = 0 ∧
    t.flt.inFlash = true ∧ t.g FLT_DUMP.RAM = 3 ∧ t.g FLT_DUMP.SEQ = d.seq % 2 ^ FLT_DUMP.SEQ.width) ∧
  (∀ (third : Bool) (s : State), s.boot.held = 0 → s.domOn dMGT = true → Does (.watchdogExpire third) s fun t =>
    t.sticky 8 = true ∧ (third = true → t.sticky 10 = true)) ∧
  (∀ (pc : BitVec 32) (third : Bool) (s : State), s.boot.held = 0 → s.domOn dMGT = true →
    Does (.mgtException pc third) s fun t => t.sticky 9 = true ∧ (third = true → t.sticky 10 = true)) ∧
  (∀ (handed : Bool) (s : State), s.flt.restarting = true → Does (.managementRestartDone handed) s fun t =>
    t.flt.restarting = false ∧ t.upload = 0) ∧
  (∀ (u : Fin 2) (high : Bool) slot (s : State), s.domOn (5 + u.val) = true → s.domOn dHSB = true → s.slotOf u = some slot → 2 ≤ s.g (UPP_PADDOCK.STATE u) →
    Does (.busReset u high) s fun t => 3 ≤ t.g (UPP_PADDOCK.STATE u) ∧ ∀ h ∈ t.ss.hubs, h.slot = slot →
    h.configured = false) ∧
  (∀ (u : Fin 2) (high : Bool) (s : State), (s.slotOf u).isSome = true →
    (s.domOn (5 + u.val) = false ∨ s.domOn dHSB = false) → Does (.busReset u high) s fun t =>
    ([5 + u.val, dHSB], .reset u high) ∈ t.pdc.late) ∧
  (∀ (c : Fin 12) (reports : List (Nat × List (BitVec 8))) (s : State), s.dwezelRuns = true → s.nextServed = some c.val →
    Does (.messageConsume c reports) s fun t =>
    (let v := ((s.inFall c).withPass ((passIx c + 1) % 12)).consume { c := c, seq := s.g (MBX_IN_CTRL.SEQ c), member := s.g (MBX_IN_CTRL.MEMBER c), words := (List.range (s.g (MBX_IN_CTRL.COUNT c))).map fun i => s.word (MBX_IN_W.addr c i), sess := none } (s.on (MBX_IN_CTRL.REPLY c)) reports; t = if c.val = 6 then (v.postHeld 6).placeProxy else v)) ∧
  (∀ (n : Channel) (s : State), (s.ch n).cycling = true → (s.ch n).vbusLow = true →
    Does (.portPowerCycleRelease n) s fun t =>
    t = (s.chMod n fun c => { c with holdOff := false, cycling := false }).tryRamp n) ∧
  (∀ (i : Fin 16) (ms : Fin 1024) h (s : State), s.handoff[i.val]? = some h → s.mode ≠ 4 → h.step = 2 →
    Does (.handoffStepDone i ms) s fun t => t.handoff[i.val]? = some { h with step := 3, ms := h.ms + ms }) ∧
  (∀ (i : Fin 16) (ms : Fin 1024) h (s : State), s.handoff[i.val]? = some h → s.mode ≠ 4 → h.step ∈ [1, 4, 5] →
    Does (.handoffStepDone i ms) s fun t =>
    t = if (s.handDone i ms).1 then (s.handDone i ms).2.finishPend (.handoff h.id) 0 else (s.handDone i ms).2) ∧
  (∀ (i : Fin 16) (ms : Fin 1024) h (s : State), s.handoff[i.val]? = some h → s.mode = 4 →
    Does (.handoffStepDone i ms) s fun t => t = (s.withHandoff (s.handoff.eraseIdx i)).finishPend (.handoff h.id) 1) ∧
  (∀ (c : Fin 12) x (s : State), s.session c = some x → Does (.sessionIdleTimeout c) s fun t => t.session c = none)

/-- A request whose command, mode and permission pass is carried out: status and power. For each clause, for every state and
all operands that meet its hypotheses on the state and the operands alone, exec answers a next state in which the values the
clause names stand as the rules of the cited sections give them. Commands, with the rules their hypotheses and effects follow:
INFO (R304), MODE_GET (R304), PORT_STATUS (R304), PORT_ASSIGN (R166), PORT_POWER (R305), KVM_SET (R166), PD_STATUS (R304),
PD_POLICY (R305), SOURCE_CAPS_SET (R305), TLM_READ (R304), ENERGY_READ (R304), BUDGET_SET (R305), FABRIC_STATUS (R304),
FABRIC_RESEED (R192). Where those rules leave a point open, the clauses rest on the model's choices: log entries 2, 101, 107,
108, 109, 110, 152 and 175. -/
def Obligations.StatusCommandsComplete : Prop :=
  (∀ (c : Fin 12) (seq : Fin 16) (words : List (BitVec 32)) (s : State), c.val < 8 →
    s.accepts 0x01 (s.ask c seq words) = true → Does (.info c seq words) s fun t =>
    t = (s.noted (s.ask c seq words)).doInfo (s.ask c seq words)) ∧
  (∀ (c : Fin 12) (seq : Fin 16) (words : List (BitVec 32)) (s : State), c.val < 8 →
    s.accepts 0x02 (s.ask c seq words) = true → Does (.modeGet c seq words) s fun t =>
    t = (s.noted (s.ask c seq words)).doModeGet (s.ask c seq words)) ∧
  (∀ (c : Fin 12) (seq : Fin 16) (words : List (BitVec 32)) (s : State), c.val < 8 →
    s.accepts 0x10 (s.ask c seq words) = true → Does (.portStatus c seq words) s fun t =>
    t = (s.noted (s.ask c seq words)).doPortStatus (s.ask c seq words)) ∧
  (∀ (c : Fin 12) (seq : Fin 16) (words : List (BitVec 32)) (s : State), c.val < 8 →
    s.accepts 0x11 (s.ask c seq words) = true → Does (.portAssign c seq words) s fun t =>
    t = (s.noted (s.ask c seq words)).doPortAssign (s.ask c seq words)) ∧
  (∀ (c : Fin 12) (seq : Fin 16) (words : List (BitVec 32)) (s : State), c.val < 8 →
    s.accepts 0x12 (s.ask c seq words) = true → Does (.portPower c seq words) s fun t =>
    t = (s.noted (s.ask c seq words)).doPortPower (s.ask c seq words)) ∧
  (∀ (c : Fin 12) (seq : Fin 16) (words : List (BitVec 32)) (s : State), c.val < 8 →
    s.accepts 0x13 (s.ask c seq words) = true → Does (.kvmSet c seq words) s fun t =>
    t = (s.noted (s.ask c seq words)).doKvmSet (s.ask c seq words)) ∧
  (∀ (c : Fin 12) (seq : Fin 16) (words : List (BitVec 32)) (s : State), c.val < 8 →
    s.accepts 0x20 (s.ask c seq words) = true → Does (.pdStatus c seq words) s fun t =>
    t = (s.noted (s.ask c seq words)).doPdStatus (s.ask c seq words)) ∧
  (∀ (c : Fin 12) (seq : Fin 16) (words : List (BitVec 32)) (s : State), c.val < 8 →
    s.accepts 0x21 (s.ask c seq words) = true → Does (.pdPolicy c seq words) s fun t =>
    t = (s.noted (s.ask c seq words)).doPdPolicy (s.ask c seq words)) ∧
  (∀ (c : Fin 12) (seq : Fin 16) (words : List (BitVec 32)) (s : State), c.val < 8 →
    s.accepts 0x22 (s.ask c seq words) = true → Does (.sourceCapsSet c seq words) s fun t =>
    t = (s.noted (s.ask c seq words)).doSourceCapsSet (s.ask c seq words)) ∧
  (∀ (c : Fin 12) (seq : Fin 16) (words : List (BitVec 32)) (s : State), c.val < 8 →
    s.accepts 0x30 (s.ask c seq words) = true → Does (.tlmRead c seq words) s fun t =>
    t = (s.noted (s.ask c seq words)).doTlmRead (s.ask c seq words)) ∧
  (∀ (c : Fin 12) (seq : Fin 16) (words : List (BitVec 32)) (s : State), c.val < 8 →
    s.accepts 0x31 (s.ask c seq words) = true → Does (.energyRead c seq words) s fun t =>
    t = (s.noted (s.ask c seq words)).doEnergyRead (s.ask c seq words)) ∧
  (∀ (c : Fin 12) (seq : Fin 16) (words : List (BitVec 32)) (s : State), c.val < 8 →
    s.accepts 0x32 (s.ask c seq words) = true → Does (.budgetSet c seq words) s fun t =>
    t = (s.noted (s.ask c seq words)).doBudgetSet (s.ask c seq words)) ∧
  (∀ (c : Fin 12) (seq : Fin 16) (words : List (BitVec 32)) (s : State), c.val < 8 →
    s.accepts 0x40 (s.ask c seq words) = true → Does (.fabricStatus c seq words) s fun t =>
    t = (s.noted (s.ask c seq words)).doFabricStatus (s.ask c seq words)) ∧
  (∀ (c : Fin 12) (seq : Fin 16) (words : List (BitVec 32)) (s : State), c.val < 8 →
    s.accepts 0x41 (s.ask c seq words) = true → Does (.fabricReseed c seq words) s fun t =>
    t = (s.noted (s.ask c seq words)).doFabricReseed (s.ask c seq words))

/-- A request whose command, mode and permission pass is carried out: the other groups. For each clause, for every state and
all operands that meet its hypotheses on the state and the operands alone, exec answers a next state in which the values the
clause names stand as the rules of the cited sections give them. Commands, with the rules their hypotheses and effects follow:
QUEUE_CONFIG (R304), PMU_CONFIG (R304), FAULT_STATUS (R304), FAULT_CLEAR (R305, R336), DUMP_READ (R345), SESSION_OPEN (R307),
SESSION_CLOSE (R309), PLAN_BEGIN (R71), PLAN_CHUNK (R72), PLAN_COMMIT (R74), PLAN_ACTIVATE (R398), REG_PEEK (R305), REG_POKE
(R305), TIMELINE_ADD (R304), TIMELINE_DEL (R305). Where those rules leave a point open, the clauses rest on the model's
choices: log entries 2, 22, 23, 24, 101, 102, 103, 104, 109, 111, 112, 157 and 176. -/
def Obligations.ControlCommandsComplete : Prop :=
  (∀ (c : Fin 12) (seq : Fin 16) (words : List (BitVec 32)) (s : State), c.val < 8 →
    s.accepts 0x50 (s.ask c seq words) = true → Does (.queueConfig c seq words) s fun t =>
    t = (s.noted (s.ask c seq words)).doQueueConfig (s.ask c seq words)) ∧
  (∀ (c : Fin 12) (seq : Fin 16) (words : List (BitVec 32)) (s : State), c.val < 8 →
    s.accepts 0x51 (s.ask c seq words) = true → Does (.pmuConfig c seq words) s fun t =>
    t = (s.noted (s.ask c seq words)).doPmuConfig (s.ask c seq words)) ∧
  (∀ (c : Fin 12) (seq : Fin 16) (words : List (BitVec 32)) (s : State), c.val < 8 →
    s.accepts 0x60 (s.ask c seq words) = true → Does (.faultStatus c seq words) s fun t =>
    t = (s.noted (s.ask c seq words)).doFaultStatus (s.ask c seq words)) ∧
  (∀ (c : Fin 12) (seq : Fin 16) (words : List (BitVec 32)) (s : State), c.val < 8 →
    s.accepts 0x61 (s.ask c seq words) = true → Does (.faultClear c seq words) s fun t =>
    t = (s.noted (s.ask c seq words)).doFaultClear (s.ask c seq words)) ∧
  (∀ (c : Fin 12) (seq : Fin 16) (words : List (BitVec 32)) (s : State), c.val < 8 →
    s.accepts 0x62 (s.ask c seq words) = true → Does (.dumpRead c seq words) s fun t =>
    t = (s.noted (s.ask c seq words)).doDumpRead (s.ask c seq words)) ∧
  (∀ (c : Fin 12) (seq : Fin 16) (words : List (BitVec 32)) (s : State), c.val < 8 →
    s.accepts 0x70 (s.ask c seq words) = true → Does (.sessionOpen c seq words) s fun t =>
    t = (s.noted (s.ask c seq words)).doSessionOpen (s.ask c seq words)) ∧
  (∀ (c : Fin 12) (seq : Fin 16) (words : List (BitVec 32)) (s : State), c.val < 8 →
    s.accepts 0x71 (s.ask c seq words) = true → Does (.sessionClose c seq words) s fun t =>
    t = (s.noted (s.ask c seq words)).doSessionClose (s.ask c seq words)) ∧
  (∀ (c : Fin 12) (seq : Fin 16) (words : List (BitVec 32)) (s : State), c.val < 8 →
    s.accepts 0x80 (s.ask c seq words) = true → Does (.planBegin c seq words) s fun t =>
    t = (s.noted (s.ask c seq words)).doPlanBegin (s.ask c seq words)) ∧
  (∀ (c : Fin 12) (seq : Fin 16) (words : List (BitVec 32)) (s : State), c.val < 8 →
    s.accepts 0x81 (s.ask c seq words) = true → Does (.planChunk c seq words) s fun t =>
    t = (s.noted (s.ask c seq words)).doPlanChunk (s.ask c seq words)) ∧
  (∀ (c : Fin 12) (seq : Fin 16) (words : List (BitVec 32)) (s : State), c.val < 8 →
    s.accepts 0x82 (s.ask c seq words) = true → Does (.planCommit c seq words) s fun t =>
    t = (s.noted (s.ask c seq words)).doPlanCommit (s.ask c seq words)) ∧
  (∀ (c : Fin 12) (seq : Fin 16) (words : List (BitVec 32)) (reports : List (Nat × List (BitVec 8))) (s : State), c.val < 8 →
    s.accepts 0x83 (s.ask c seq words) = true → Does (.planActivate c seq words reports) s fun t =>
    t = (s.noted (s.ask c seq words)).doPlanActivate (s.ask c seq words) reports) ∧
  (∀ (c : Fin 12) (seq : Fin 16) (words : List (BitVec 32)) (s : State), c.val < 8 →
    s.accepts 0x90 (s.ask c seq words) = true → Does (.regPeek c seq words) s fun t =>
    t = (s.noted (s.ask c seq words)).doRegPeek (s.ask c seq words)) ∧
  (∀ (c : Fin 12) (seq : Fin 16) (words : List (BitVec 32)) (s : State), c.val < 8 →
    s.accepts 0x91 (s.ask c seq words) = true → Does (.regPoke c seq words) s fun t =>
    t = (s.noted (s.ask c seq words)).doRegPoke (s.ask c seq words)) ∧
  (∀ (c : Fin 12) (seq : Fin 16) (words : List (BitVec 32)) (s : State), c.val < 8 →
    s.accepts 0xA0 (s.ask c seq words) = true → Does (.timelineAdd c seq words) s fun t =>
    t = (s.noted (s.ask c seq words)).doTimelineAdd (s.ask c seq words)) ∧
  (∀ (c : Fin 12) (seq : Fin 16) (words : List (BitVec 32)) (s : State), c.val < 8 →
    s.accepts 0xA1 (s.ask c seq words) = true → Does (.timelineDel c seq words) s fun t =>
    t = (s.noted (s.ask c seq words)).doTimelineDel (s.ask c seq words))

/-- The requests to queues, counters, faults, dumps, sessions, plans, registers and the timeline that none of their own rules
turns away take effect: the values they set stand, and the answer is OK (PENDING for an erase and a commit). Hypotheses on the
state and the operands alone; of the channel, mode and permission, `accepts` states R303. Commands, with the rules their
hypotheses and effects follow: QUEUE_CONFIG (R304), PMU_CONFIG (R304), FAULT_STATUS (R304), FAULT_CLEAR (R305, R336), DUMP_READ
(R345), SESSION_OPEN (R307), SESSION_CLOSE (R309), PLAN_BEGIN (R71), PLAN_CHUNK (R72), PLAN_COMMIT (R74), PLAN_ACTIVATE (R398),
REG_PEEK (R305), REG_POKE (R305), TIMELINE_ADD (R304), TIMELINE_DEL (R305). Where those rules leave a point open, the clauses
rest on the model's choices: log entries 2, 22, 23, 24, 101, 103, 104, 109, 111, 112 and 157. -/
def Obligations.ControlCommandsTakeEffect : Prop :=
  (∀ (c : Fin 12) (seq : Fin 16) (words : List (BitVec 32)) a (s : State), a = s.ask c seq words → c.val < 8 →
    s.accepts 0x50 a = true → a.w 1 ≤ 3 → a.w 2 ≤ 1000 → a.w 3 ≤ 11 → a.w 4 ≤ 1 →
    Does (.queueConfig c seq words) s fun t => t.g (OBS_Q_CTRL.TIMEOUT_MS (a.w 1)) = a.w 2 ∧
    t.g (OBS_Q_CTRL.CHANNEL (a.w 1)) = a.w 3 ∧ (a.w 4 = 1 → (vat s.obs (a.w 1)).waiting = [] → (vat t.obs (a.w 1)).recs = []) ∧
    t.answeredOk a []) ∧
  (∀ (c : Fin 12) (seq : Fin 16) (words : List (BitVec 32)) a (s : State), a = s.ask c seq words → c.val < 8 →
    s.accepts 0x51 a = true → a.w 1 ≤ 7 → a.w 2 ≤ 0x16 → a.w 3 ≤ 3 →
    Does (.pmuConfig c seq words) s fun t => t.g (OBS_PMU_EVT.EVENT (a.w 1)) = a.w 2 ∧
    t.on (OBS_PMU_EVT.ENABLE (a.w 1)) = bitOf (a.w 3) 0 ∧ t.answeredOk a []) ∧
  (∀ (c : Fin 12) (seq : Fin 16) (words : List (BitVec 32)) a (s : State), a = s.ask c seq words → c.val < 8 →
    s.accepts 0x60 a = true →
    Does (.faultStatus c seq words) s fun t => t.answeredOk a ((s.stickyWords ++ [s.g FLT_STATUS.GRAVE]).map w32)) ∧
  (∀ (c : Fin 12) (seq : Fin 16) (words : List (BitVec 32)) a (s : State), a = s.ask c seq words → c.val < 8 →
    s.accepts 0x61 a = true → a.w 2 ≤ 255 → a.w 1 ≤ 127 → faultExists (a.w 1) = true → s.severity (a.w 1) ≠ 3 → s.arisesNow (a.w 1) = false →
    (s.mode = 1 → a.w 1 ≠ 88 ∧ s.severity 88 < 2) →
    Does (.faultClear c seq words) s fun t => t.sticky (a.w 1) = false ∧
    t.answeredOk a (((s.noted a).clearSource (a.w 1) (a.w 2)).stickyWords.map w32)) ∧
  (∀ (c : Fin 12) (seq : Fin 16) (words : List (BitVec 32)) a (s : State), a = s.ask c seq words → c.val < 8 →
    s.accepts 0x61 a = true → a.w 2 ≤ 255 → a.w 1 = 0xFFFF → ((List.range 128).any fun i => s.sticky i && s.severity i = 3) = false →
    Does (.faultClear c seq words) s fun t => (∀ i, i < 128 → faultExists i = true → s.arisesNow i = false →
      (s.mode = 1 → i ≠ 88 ∧ s.severity 88 < 2) → t.sticky i = false) ∧
    t.answeredOk a (((s.noted a).clearAll (a.w 2)).stickyWords.map w32)) ∧
  (∀ (c : Fin 12) (seq : Fin 16) (words : List (BitVec 32)) a (s : State), a = s.ask c seq words → c.val < 8 →
    s.accepts 0x62 a = true → a.w 1 ≤ 2 → (s.dumpEntry (a.w 1) = [] ∨ a.w 2 < (s.dumpEntry (a.w 1)).length) → bitOf a.flags 4 = false →
    Does (.dumpRead c seq words) s fun t => t.answeredOk a (([(s.dumpEntry (a.w 1)).length, a.w 2] ++ (leWords ((((s.dumpEntry (a.w 1)).drop (a.w 2)).take 32 ++ List.replicate 32 0).take 32)).map (·.toNat)).map w32)) ∧
  (∀ (c : Fin 12) (seq : Fin 16) (words : List (BitVec 32)) k a (s : State), a = s.full c seq words → 8 ≤ c.val → words.length ≤ 16 →
    s.accepts 0x70 a = true → (s.closeParty (s.g (MBX_ASSIGN.PARTY c))).accepts 0x70 a = true →
    a.w 1 ≤ 7 → (a.w 2 = 2 ∨ a.w 2 = 3) →
    onAbscissa (((List.range 8).map fun i => a.w (3 + i) * 2 ^ (32 * i)).sum) = true →
    s.plan.keys.find? (fun k => k.id = a.w 1 ∧ k.party = s.g (MBX_ASSIGN.PARTY c)) = some k →
    Does (.sessionOpen c seq words) s fun t =>
    (t.session c).map (fun x => (x.keyId, x.perms, x.party)) = some (k.id, k.perms, s.g (MBX_ASSIGN.PARTY c))) ∧
  (∀ (c : Fin 12) (seq : Fin 16) (words : List (BitVec 32)) x a (s : State), a = s.ask c seq words → 8 ≤ c.val → words.length = 16 →
    s.dwezelRuns = true → s.g (MBX_ASSIGN.PARTY c) ≠ 0 → (s.mb c).held.length < 4 → a.cmd = 0x71 → s.session c = some x →
    tagOf x.key words = words.drop 12 → x.rx < a.w 11 →
    (s.sessSet c (some { x with rx := a.w 11, fails := 0 })).accepts 0x71 { a with words := words.take 11, sess := some x.id } = true →
    Does (.sessionClose c seq words) s fun t => t.session c = none) ∧
  (∀ (c : Fin 12) (seq : Fin 16) (words : List (BitVec 32)) a (s : State), a = s.ask c seq words → c.val < 8 →
    s.accepts 0x80 a = true → 320 ≤ a.w 1 → a.w 1 ≤ 262144 → a.w 1 % 8 = 0 → (s.upload = 0 ∨ s.g PLN_STATUS.OWNER = s.partyOf a) → s.pln.commit = 0 → s.actBusy = false →
    Does (.planBegin c seq words) s fun t => t.upload = 1 ∧ t.g PLN_STATUS.OWNER = s.partyOf a ∧
    t.pln.len = a.w 1 ∧ t.pln.data = [] ∧ (t.msg.pend.any fun p => p.kind = .erase) = true) ∧
  (∀ (c : Fin 12) (seq : Fin 16) (words : List (BitVec 32)) a (s : State), a = s.ask c seq words → c.val < 8 →
    s.accepts 0x81 a = true → bitOf a.flags 4 = false → a.w 2 ≤ min (4 * (words.length - 3)) 52 → s.uploadRefusal a true = none → s.chunkOk (a.w 1) (a.w 2) = true →
    Does (.planChunk c seq words) s fun t => t.pln.data = s.pln.data ++ (wordBytes (words.drop 3)).take (a.w 2) ∧
    t.answeredOk a []) ∧
  (∀ (c : Fin 12) (seq : Fin 16) (words : List (BitVec 32)) a (s : State), a = s.ask c seq words → c.val < 8 →
    s.accepts 0x81 a = true → bitOf a.flags 4 = true → a.w 2 ≤ 512 → 2 ≤ s.partyOf a → s.partyOf a ≤ 5 → s.uploadRefusal a true = none → s.chunkOk (a.w 1) (a.w 2) = true →
    Does (.planChunk c seq words) s fun t => t.pln.bulk = some ⟨c, seq, a.w 2, a.w 0, none⟩) ∧
  (∀ (c : Fin 12) (seq : Fin 16) (words : List (BitVec 32)) a (s : State), a = s.ask c seq words → c.val < 8 →
    s.accepts 0x82 a = true → s.uploadRefusal a true = none → s.pln.data.length = s.pln.len → s.actBusy = false → s.pln.commit = 0 →
    Does (.planCommit c seq words) s fun t => t.upload = 3 ∧ t.pln.commit = 1 ∧
    t.pln.target = s.targetSlot ∧ t.pln.seq = s.nextSeq ∧ (t.msg.pend.any fun p => p.kind = .commit) = true) ∧
  (∀ (c : Fin 12) (seq : Fin 16) (words : List (BitVec 32)) (reports : List (Nat × List (BitVec 8))) d src a (s : State), a = s.ask c seq words →
    c.val < 8 → s.accepts 0x83 a = true → a.w 1 < 256 → bitOf (a.w 1) 3 = false → s.pln.commit = 0 → s.actBusy = false →
    s.sourceFile (bitOf (a.w 1) 0) = some (d, src) →
    (bitOf (a.w 1) 2 = true → 1 < s.plan.members → s.on DRV_BARN.IS_LEAD = true ∧ s.barnAgrees reports = true) →
    Does (.planActivate c seq words reports) s fun t =>
    (∀ p, s.check d = .ok p → s.otpAllows p (bitOf (a.w 1) 1) (a.w 1 / 16 % 16) = true → t.upload = 4 ∧ t.answeredOk a [] ∧
    t.pln.act = some { plan := p, source := src, revoke := a.w 1 / 16 % 16, raiseFloor := bitOf (a.w 1) 1, wait := some c, wide := bitOf (a.w 1) 2 && decide (1 < s.plan.members) }) ∧
    ∀ e, s.check d = .error e → t = ((s.noted a).reject e src (fileId d)).reply a rDENIED) ∧
  (∀ (c : Fin 12) (seq : Fin 16) (words : List (BitVec 32)) a (s : State), a = s.ask c seq words → c.val < 8 →
    s.accepts 0x90 a = true → 1 ≤ a.w 2 → a.w 2 ≤ 9 → a.w 1 % 4 = 0 → ((List.range (a.w 2)).any fun i => secureAddr (a.w 1 + 4 * i)) = false →
    Does (.regPeek c seq words) s fun t => t = (s.noted a).startXfer ⟨1, .peek a, readsFrom (a.w 1) (a.w 2), []⟩) ∧
  (∀ (c : Fin 12) (seq : Fin 16) (words : List (BitVec 32)) a got v (s : State), a = s.ask c seq words → c.val < 8 →
    s.accepts 0x90 a = true → 1 ≤ a.w 2 → a.w 2 ≤ 9 → a.w 1 % 4 = 0 → ((List.range (a.w 2)).any fun i => secureAddr (a.w 1 + 4 * i)) = false →
    s.stalls 1 = false → State.runAccs 1 (readsFrom (a.w 1) (a.w 2)) [] (s.noted a) = ([], got, v) →
    Does (.regPeek c seq words) s fun t => t = v.noWait.reply a 0 ((gotWords got).map (·.toNat))) ∧
  (∀ (c : Fin 12) (seq : Fin 16) (words : List (BitVec 32)) a (s : State), a = s.ask c seq words → c.val < 8 →
    s.accepts 0x91 a = true → a.w 1 % 4 = 0 → secureAddr (a.w 1) = false → excludedBlock (a.w 1) = false →
    Does (.regPoke c seq words) s fun t => t = (s.noted a).startXfer ⟨1, .poke a, [(a.w 1, none)], []⟩) ∧
  (∀ (c : Fin 12) (seq : Fin 16) (words : List (BitVec 32)) a got v got2 v2 (s : State), a = s.ask c seq words → c.val < 8 →
    s.accepts 0x91 a = true → a.w 1 % 4 = 0 → secureAddr (a.w 1) = false → excludedBlock (a.w 1) = false →
    s.stalls 1 = false → State.runAccs 1 [(a.w 1, none)] [] (s.noted a) = ([], got, v) →
    State.runAccs 1 [(a.w 1, some (((gotWords got).headD 0 &&& ~~~(w32 (a.w 2))) ||| (w32 (a.w 3) &&& w32 (a.w 2)))), (a.w 1, none)] [] v.noWait = ([], got2, v2) →
    Does (.regPoke c seq words) s fun t => t = v2.noWait.reply a 0 [((gotWords got2).headD 0).toNat]) ∧
  (∀ (c : Fin 12) (seq : Fin 16) (words : List (BitVec 32)) i a (s : State), a = s.ask c seq words → c.val < 8 →
    s.accepts 0xA0 a = true → getBits (w32 (a.w 1)) TML_E_CTRL.ACTION.lo TML_E_CTRL.ACTION.width ∈ [1, 2, 3, 4, 5, 6, 7, 8, 9] → getBits (w32 (a.w 1)) TML_E_CTRL.YARD.lo TML_E_CTRL.YARD.width ≤ 4 → tmlTargetOk (getBits (w32 (a.w 1)) TML_E_CTRL.ACTION.lo TML_E_CTRL.ACTION.width) (getBits (w32 (a.w 1)) TML_E_CTRL.TARGET.lo TML_E_CTRL.TARGET.width) = true → a.w 2 % 32768 < 25000 → a.w 4 < 2 ^ 24 → a.w 5 < 2 ^ 16 → s.freeEntry = some i →
    Does (.timelineAdd c seq words) s fun t => (t.entry i).valid = true ∧
    (t.entry i).due = ticksOf (a.w 2 + a.w 3 * 2 ^ 32) ∧ (t.entry i).rep = a.w 4 ∧ (t.entry i).arg = a.w 5 ∧
    (t.entry i).action = getBits (w32 (a.w 1)) TML_E_CTRL.ACTION.lo TML_E_CTRL.ACTION.width ∧
    (t.entry i).target = getBits (w32 (a.w 1)) TML_E_CTRL.TARGET.lo TML_E_CTRL.TARGET.width ∧ t.answeredOk a [w32 i]) ∧
  (∀ (c : Fin 12) (seq : Fin 16) (words : List (BitVec 32)) a (s : State), a = s.ask c seq words → c.val < 8 →
    s.accepts 0xA1 a = true → a.w 1 ≤ 255 → s.g TML_STATUS.PLAN_TOP ≤ a.w 1 → ((s.entry (a.w 1)).valid = true → (s.entry (a.w 1)).own = false) →
    Does (.timelineDel c seq words) s fun t => (t.entry (a.w 1)).valid = false ∧ t.answeredOk a [])

/-- What a command of start-up, resets, bus resets and the management of dumps leaves unchanged when exec answers a next state:
every part of the state outside its list, every register outside its list, the waiting commands and the cycle count; what
was put on the balls stays, and the register list keeps its canonical form. For these, which read or write a register that
an operand, a plan or an earlier stalled access names, any register may change and the frame speaks of the parts only:
POR_ASSERT, POR_RELEASE, PLAN_ACTIVATION_DONE, BOOT_DOMAINS_READY, RESET_N_ASSERT, CHIP_RESET_BEGIN, BUS_RESET. -/
def Obligations.FrameStartUp : Prop :=
  (∀ (s t : State), exec .porAssert s = .next t →
    Frame ((actParts.append replyParts).append [.plan, .yards, .bud, .pln, .handoff, .dp, .pass, .proxyHeld, .sbTimedOut]) [.any] s t) ∧
  (∀ (bootsrc : Fin 4) (lifeEn : Bool) (i2c : Fin 8) (maker : Bool) (s t : State), exec (.porRelease bootsrc lifeEn i2c maker) s = .next t →
    Frame ((actParts.append replyParts).append [.plan, .yards, .bud, .pln, .handoff, .dp, .pass, .proxyHeld, .sbTimedOut]) [.any] s t) ∧
  (∀ (s t : State), exec .railsInWindow s = .next t → Frame [] [.TOP_MODE] s t) ∧
  (∀ (core : Bool) (ser : Bool) (io : Bool) (s t : State), exec (.railWindowTimeout core ser io) s = .next t →
    Frame raiseParts raiseRegs s t) ∧
  (∀ (ok : Bool) (s t : State), exec (.crystalReady ok) s = .next t →
    Frame (raiseParts.append [.yards, .pln]) (raiseRegs.append [.PLN_STATUS, .YRD_STATUS]) s t) ∧
  (∀ (s t : State), exec .crystalNotReady s = .next t → Frame raiseParts raiseRegs s t) ∧
  (∀ (ready : Bool) (s t : State), exec (.xtalRestartTimer ready) s = .next t →
    Frame (raiseParts.append [.yards]) (rampRegs.append [.YRD_STATUS]) s t) ∧
  (∀ (s t : State), exec .makerWindowEnd s = .next t → Frame [.pln, .boot] [.PLN_STATUS, .TOP_MODE] s t) ∧
  (∀ (s t : State), exec .makerKeyedMessage s = .next t →
    Frame (wakeParts.append [.flt]) (wakeRegs.append [.PDC_CTRL, .PDC_XTAL, .FLT_DUMP, .TOP_MODE]) s t) ∧
  (∀ (ok four : Bool) (s t : State), exec (.flashBusyPollEnd ok four) s = .next t → Frame [.pln] [.PLN_SLOT_SEQ, .TOP_MODE] s t) ∧
  (∀ (s t : State), exec .slotVerifyDone s = .next t →
    Frame (raiseParts.append [.pln]) (raiseRegs.append [.PLN_STATUS]) s t) ∧
  (∀ (same : Bool) (s t : State), exec (.planActivationDone same) s = .next t →
    Frame ((actParts.append replyParts).append [.plan, .yards, .bud, .pln, .handoff, .dp, .pass, .proxyHeld]) [.any] s t) ∧
  (∀ (vinOk : Bool) (time : Nat) (s t : State), exec (.bootDomainsReady vinOk time) s = .next t →
    Frame ((actParts.append replyParts).append [.plan, .yards, .bud, .pln, .handoff, .dp, .pass, .proxyHeld]) [.any] s t) ∧
  (∀ (u : Fin 2) (s t : State), exec (.upstreamDataConnect u) s = .next t →
    Frame (wakeParts.append [.pat, .pred, .ss, .glk, .fab, .port, .mirror]) ((wakeRegs.append pumpRegs).append [.TML_PRED, .TML_PAT, .SSH_CTX, .SSH_PORT, .SSH_PORT_EVT, .UPP_PADDOCK, .STL_LANE]) s t) ∧
  (∀ (handed : Bool) (dumped : Bool) (s t : State), exec (.resetNAssert handed dumped) s = .next t →
    Frame ((actParts.append replyParts).append [.plan, .yards, .bud, .pln, .handoff, .dp, .pass, .proxyHeld, .sbTimedOut]) [.any] s t) ∧
  (∀ (bootsrc : Fin 4) (lifeEn : Bool) (i2c : Fin 8) (maker : Bool) (s t : State), exec (.resetNRelease bootsrc lifeEn i2c maker) s = .next t →
    Frame [.obs, .pdc, .boot] (wakeRegs.append [.YRD_STATUS, .PDC_CTRL, .PDC_XTAL, .FLT_STATUS, .TOP_STRAP, .TOP_MODE, .TOP_RESET_CAUSE]) s t) ∧
  (∀ (s t : State), exec .chipResetBegin s = .next t →
    Frame ((actParts.append replyParts).append [.plan, .yards, .bud, .pln, .handoff, .dp, .pass, .proxyHeld, .sbTimedOut]) [.any] s t) ∧
  (∀ (lifeEn : Bool) (s t : State), exec (.starterArmed lifeEn) s = .next t → Frame [.boot] [] s t) ∧
  (∀ (s t : State), exec .starterSinkPathClosed s = .next t → Frame [.boot] [] s t) ∧
  (∀ (s t : State), exec .starterHoldOffEnd s = .next t → Frame [.boot] [] s t) ∧
  (∀ (s t : State), exec .lifelineVinRestored s = .next t → Frame [.boot] [] s t) ∧
  (∀ (s t : State), exec .lifelineHandoverDone s = .next t →
    Frame (raiseParts.append [.yards, .dp]) (rampRegs.append [.YRD_BARN, .TOP_STRAP]) s t) ∧
  (∀ (s t : State), exec .lifelineExitAbandon s = .next t → Frame [.boot] [] s t) ∧
  (∀ (s t : State), exec .safeExit s = .next t →
    Frame (replyParts.append [.pat, .pred, .chan, .tlm, .tcp, .ss, .pln, .hs, .glk, .fab, .port, .mirror, .tml, .tack, .tmlOld]) ((replyRegs.append pumpRegs).append [.PLN_STATUS, .TML_PRED, .TML_PAT, .SSH_CTX, .SSH_PORT, .SSH_PORT_EVT, .PBF_STATUS, .PBF_SHARED_FREE, .PBF_BANK_FREE, .PBF_USED, .HSH_ENG, .HSH_PORT, .HSH_CARRY, .UPP_PADDOCK, .DRV_BARN, .DRV_ROUTE, .DRV_REROUTE, .DRV_EVT, .TCP_PORT, .TCP_CONTRACT, .TCP_VSET, .TCP_CABLE, .TCP_DP, .PPW_LIMIT, .PPW_STATUS, .BUD_PORT, .PDC_CTRL, .PDC_XTAL, .TKR_FUNC, .FLT_STATUS, .TOP_MODE]) s t) ∧
  (∀ (u : Fin 2) (high : Bool) (s t : State), exec (.busReset u high) s = .next t →
    Frame ((actParts.append replyParts).append [.yards, .bud, .pln, .proxyHeld]) [.any] s t) ∧
  (∀ (third : Bool) (s t : State), exec (.watchdogExpire third) s = .next t → Frame raiseParts raiseRegs s t) ∧
  (∀ (pc : BitVec 32) (third : Bool) (s t : State), exec (.mgtException pc third) s = .next t →
    Frame raiseParts raiseRegs s t) ∧
  (∀ (handed : Bool) (s t : State), exec (.managementRestartDone handed) s = .next t →
    Frame (replyParts.append [.pln, .flt]) (replyRegs.append [.PLN_STATUS, .PLN_SLOT_SEQ]) s t) ∧
  (∀ (soon : Bool) (trace : List (BitVec 8)) (s t : State), exec (.dumpWrite soon trace) s = .next t →
    Frame [.flt] [.FLT_DUMP] s t) ∧
  (∀ (s t : State), exec .dumpFlashDone s = .next t → Frame [.flt] [.FLT_DUMP] s t)

/-- What a command of the yard clock and the timeline leaves unchanged when exec answers a next state: every part of the state
outside its list, every register outside its list, the waiting commands and the cycle count; what was put on the balls
stays, and the register list keeps its canonical form. For these, which read or write a register that an operand, a plan or
an earlier stalled access names, any register may change and the frame speaks of the parts only: TML_ENABLE. -/
def Obligations.FrameYardTimeline : Prop :=
  (∀ (u : Fin 2) (frame : Fin 2048) (rate : Int) (s t : State), exec (.sofReceived u frame rate) s = .next t →
    Frame (wakeParts.append [.yards, .pat, .tml, .tmlOld]) (recordRegs.append [.YRD_STATUS, .YRD_RATE, .YRD_STEP, .TML_PAT]) s t) ∧
  (∀ (u : Fin 2) (bic : Fin 16384) (delta : Nat) (res : List ItpOut) (rate : Int) (s t : State), exec (.itpReceived u bic delta res rate) s = .next t →
    Frame (wakeParts.append [.yards, .pat, .glk, .fab, .tml, .tmlOld]) (pumpRegs.append [.YRD_STATUS, .YRD_RATE, .YRD_STEP, .TML_PAT, .SSH_ITP, .OBS_Q_STATUS, .OBS_Q_LOST]) s t) ∧
  (∀ (y : Fin 4) (s t : State), exec (.yardCoast y) s = .next t →
    Frame (raiseParts.append [.yards]) (raiseRegs.append [.YRD_STATUS]) s t) ∧
  (∀ (s t : State), exec .barnTimeBroadcast s = .next t → Frame [.glk, .fab] pumpRegs s t) ∧
  (∀ (h : BaleHdr) (iv : Nat) (hops : Nat) (rate : Int) (s t : State), exec (.barnTimeReceived h iv hops rate) s = .next t →
    Frame (raiseParts.append [.yards]) (raiseRegs.append [.YRD_STATUS, .YRD_RATE, .YRD_STEP, .YRD_BARN, .PBF_ECC_COUNT, .GLK_ERR]) s t) ∧
  (∀ (c : CtrlHdr) (y : Fin 4) (value : Nat) (rate : Nat) (st : Fin 4) (coarse : Bool) (s t : State), exec (.yardDescriptorReceived c y value rate st coarse) s = .next t →
    Frame (raiseParts.append [.yards]) (raiseRegs.append [.YRD_STATUS, .YRD_RATE, .YRD_STEP, .PBF_ECC_COUNT, .GLK_ERR]) s t) ∧
  (∀ (y : Fin 4) (s t : State), exec (.yardDescriptorTimeout y) s = .next t → Frame [] [.YRD_STATUS] s t) ∧
  (∀ (i : Fin 256) (s t : State), exec (.domainWake i) s = .next t →
    Frame (wakeParts.append [.tml, .tmlOld]) (wakeRegs.append [.TML_STATUS]) s t) ∧
  (∀ (i : Fin 256) (s t : State), exec (.tlmSample i) s = .next t →
    Frame (wakeParts.append [.tml, .tmlOld]) (recordRegs.append [.TML_STATUS]) s t) ∧
  (∀ (i : Fin 256) (s t : State), exec (.pdKeepalive i) s = .next t →
    Frame (wakeParts.append [.tcp, .flt, .tml, .tmlOld]) (recordRegs.append [.TML_STATUS]) s t) ∧
  (∀ (i : Fin 256) (s t : State), exec (.doorbell i) s = .next t →
    Frame [.pdc, .tml, .tmlOld] [.TML_STATUS, .MBX_DB, .OBS_PMU_OVF, .OBS_PMU_LO, .OBS_PMU_HI] s t) ∧
  (∀ (i : Fin 256) (s t : State), exec (.gpioSet i) s = .next t →
    Frame (raiseParts.append [.tml]) (raiseRegs.append [.TML_STATUS, .GPI_OUT]) s t) ∧
  (∀ (i : Fin 256) (s t : State), exec (.gpioClear i) s = .next t →
    Frame (raiseParts.append [.tml]) (raiseRegs.append [.TML_STATUS, .GPI_OUT]) s t) ∧
  (∀ (i : Fin 256) (s t : State), exec (.fabricHeartbeat i) s = .next t →
    Frame [.pdc, .glk, .tml, .tmlOld] [.TML_STATUS, .PBF_EVT, .GLK_LINK, .OBS_PMU_OVF, .OBS_PMU_LO, .OBS_PMU_HI] s t) ∧
  (∀ (i : Fin 256) (s t : State), exec (.budgetReview i) s = .next t →
    Frame (wakeParts.append [.tlm, .bud, .tcp, .flt, .tml, .tmlOld]) (recordRegs.append [.TML_STATUS, .TCP_PORT, .PPW_LIMIT, .PPW_STATUS, .BUD_STATUS, .BUD_STATE, .BUD_EVT, .BUD_PORT, .BUD_RLIM]) s t) ∧
  (∀ (i : Fin 256) (s t : State), exec (.ttPrewake i) s = .next t →
    Frame (wakeParts.append [.tml, .tmlOld]) (wakeRegs.append [.TML_STATUS]) s t) ∧
  (∀ (w : WakeOf) (s t : State), exec (.timelineWakeLead w) s = .next t → Frame [.obs, .pdc] wakeRegs s t) ∧
  (∀ (m : Fin 16) (s t : State), exec (.tmlEnable m) s = .next t →
    Frame ((raiseParts.append replyParts).append [.yards, .bud, .tt, .ttOp, .proxyHeld, .epMem]) [.any] s t) ∧
  (∀ (d : Fin 12) (s t : State), exec (.predictorChoice d) s = .next t →
    Frame [.pred, .pdc] [.TML_PRED, .PDC_DOM] s t) ∧
  (∀ (d : Fin 12) (s t : State), exec (.observationWindowEnd d) s = .next t → Frame [.pred] [.TML_PRED] s t) ∧
  (∀ (n : Stall) (s t : State), exec (.burstStart n) s = .next t →
    Frame [.pat, .pred, .pdc] [.TML_PAT] s t) ∧
  (∀ (n : Stall) (s t : State), exec (.predictionWindowMiss n) s = .next t → Frame [.pat] [.TML_PAT] s t)

/-- What a command of power domains, fault sources and queues leaves unchanged when exec answers a next state: every part of the
state outside its list, every register outside its list, the waiting commands and the cycle count; what was put on the balls
stays, and the register list keeps its canonical form. For these, which read or write a register that an operand, a plan or
an earlier stalled access names, any register may change and the frame speaks of the parts only: DOMAIN_ENTRY_STEP_DONE,
SWITCH_OPEN_TIMEOUT, DOMAIN_EXIT_STEP_DONE, DOMAIN_EXIT_TIMEOUT. -/
def Obligations.FrameDomainsFaultsQueues : Prop :=
  (∀ (m : Fin 16) (d : Fin 12) (s t : State), exec (.accessHoldEnd m d) s = .next t → Frame [.pdc] [] s t) ∧
  (∀ (d : Fin 12) (s t : State), exec (.domainEntryStepDone d) s = .next t →
    Frame (wakeParts.append [.chan, .tlm, .tcp, .ss, .pln, .hs, .tt, .ttOp, .glk, .fab, .tack, .msg, .epMem]) [.any] s t) ∧
  (∀ (d : Fin 12) (s t : State), exec (.switchOpenTimeout d) s = .next t →
    Frame (raiseParts.append [.pln, .tt, .ttOp, .msg, .epMem]) [.any] s t) ∧
  (∀ (d : Fin 12) (late : Bool) (refused : List Nat) (s t : State), exec (.domainExitStepDone d late refused) s = .next t →
    Frame ((raiseParts.append replyParts).append [.yards, .bud, .tt, .ttOp, .proxyHeld, .epMem]) [.any] s t) ∧
  (∀ (d : Fin 12) (s t : State), exec (.domainExitTimeout d) s = .next t →
    Frame ((raiseParts.append replyParts).append [.yards, .bud, .pln, .tt, .ttOp, .proxyHeld, .epMem]) [.any] s t) ∧
  (∀ (d : Fin 12) (s t : State), exec (.domainExitRetry d) s = .next t → Frame [.pdc] [] s t) ∧
  (∀ (s t : State), exec .crystalStop s = .next t →
    Frame (raiseParts.append [.yards]) (raiseRegs.append [.YRD_STATUS]) s t) ∧
  (∀ (s t : State), exec .crystalRestart s = .next t →
    Frame [.yards, .pdc, .flt] [.YRD_STATUS, .PDC_XTAL] s t) ∧
  (∀ (q : Fin 4) (flying : Bool) (s t : State), exec (.queueRecordWrite q flying) s = .next t →
    Frame [.obs] recordRegs s t) ∧
  (∀ (q : Fin 4) (s t : State), exec (.queueReadStallTimeout q) s = .next t → Frame [.obs] [] s t) ∧
  (∀ (src : Fin 128) (q : Fin 256) (aux : Fin 256) (s t : State), exec (.faultRaised src q aux) s = .next t →
    Frame (raiseParts.append [.bud, .ss, .tt, .tml]) (raiseRegs.append [.YRD_STATUS, .TML_STATUS, .SSH_DROPS, .TTA_TT, .TTA_EVT]) s t) ∧
  (∀ (ok : Bool) (s t : State), exec (.selfCheck ok) s = .next t → Frame raiseParts raiseRegs s t) ∧
  (∀ (s t : State), exec .jtagTapLeaveTestLogicReset s = .next t → Frame [.obs, .pdc] wakeRegs s t)

/-- What a command of the power path, telemetry and the budget leaves unchanged when exec answers a next state: every part of
the state outside its list, every register outside its list, the waiting commands and the cycle count; what was put on the
balls stays, and the register list keeps its canonical form. -/
def Obligations.FramePowerPath : Prop :=
  (∀ (n : Channel) (onMs : Nat) (s t : State), exec (.fastTrip n onMs) s = .next t →
    Frame raiseParts (raiseRegs.append [.PPW_RETRY, .PPW_EVT]) s t) ∧
  (∀ (n : Channel) (onMs : Nat) (s t : State), exec (.slowTrip n onMs) s = .next t →
    Frame raiseParts (raiseRegs.append [.PPW_RETRY, .PPW_EVT]) s t) ∧
  (∀ (n : Channel) (s t : State), exec (.slowTimerReset n) s = .next t → Frame [] [.PPW_STATUS] s t) ∧
  (∀ (n : Channel) (onMs : Nat) (s t : State), exec (.undervoltageTrip n onMs) s = .next t →
    Frame raiseParts (raiseRegs.append [.PPW_RETRY, .PPW_EVT]) s t) ∧
  (∀ (n : Channel) (s t : State), exec (.rampStart n) s = .next t → Frame raiseParts rampRegs s t) ∧
  (∀ (n : Channel) (onMs : Nat) (s t : State), exec (.rampFail n onMs) s = .next t →
    Frame raiseParts (raiseRegs.append [.PPW_RETRY, .PPW_EVT]) s t) ∧
  (∀ (n : Channel) (s t : State), exec (.attemptWindowEnd n) s = .next t →
    Frame raiseParts (raiseRegs.append [.PPW_RETRY, .PPW_EVT]) s t) ∧
  (∀ (n : Channel) (s t : State), exec (.retryWaitEnd n) s = .next t → Frame raiseParts rampRegs s t) ∧
  (∀ (n : Channel) (s t : State), exec (.pgStableTimer n) s = .next t → Frame raiseParts rampRegs s t) ∧
  (∀ (n : Channel) (s t : State), exec (.unseatedResetTimer n) s = .next t → Frame raiseParts rampRegs s t) ∧
  (∀ (i : Fin 8) (s t : State), exec (.seatDebounceEnd i) s = .next t →
    Frame raiseParts (rampRegs.append [.PPW_SEAT]) s t) ∧
  (∀ (i : Fin 8) (s t : State), exec (.seatRemoval i) s = .next t →
    Frame (wakeParts.append [.pat, .pred, .chan, .tlm, .ss, .glk, .fab, .port, .mirror]) ((wakeRegs.append pumpRegs).append [.TML_PRED, .TML_PAT, .SSH_CTX, .SSH_PORT, .SSH_PORT_EVT, .HSH_PORT, .PPW_SEAT, .PPW_STATUS, .PPW_EVT, .BUD_PORT]) s t) ∧
  (∀ (n : Channel) (onMs : Nat) (s t : State), exec (.gateStuck n onMs) s = .next t →
    Frame raiseParts (raiseRegs.append [.PPW_RETRY, .PPW_EVT]) s t) ∧
  (∀ (n : Channel) (s t : State), exec (.dischargeDone n) s = .next t → Frame raiseParts rampRegs s t) ∧
  (∀ (n : Channel) (s t : State), exec (.dischargeTimeout n) s = .next t →
    Frame raiseParts (raiseRegs.append [.PPW_EVT]) s t) ∧
  (∀ (n : Channel) (s t : State), exec (.vbusRisingGateOff n) s = .next t →
    Frame raiseParts (raiseRegs.append [.PPW_EVT]) s t) ∧
  (∀ (n : Channel) (timer : Bool) (gateOk : Bool) (s t : State), exec (.pgAssert n timer gateOk) s = .next t →
    Frame [.chan] [.PPW_STATUS, .PPW_EVT] s t) ∧
  (∀ (n : Channel) (s t : State), exec (.pgHoldEnd n) s = .next t →
    Frame [.chan] [.PPW_STATUS] s t) ∧
  (∀ (f : TlmFrame) (s t : State), exec (.telemetryFrame f) s = .next t →
    Frame (raiseParts.append [.bud]) (raiseRegs.append [.TLM_CTRL, .TLM_ECLR, .TLM_INPUT, .TLM_TEMP, .TLM_INST, .TLM_AVG1MS, .TLM_AVG100MS, .TLM_AVG1S, .TLM_PWR, .TLM_PEAK, .BUD_STATUS, .BUD_STATE]) s t) ∧
  (∀ (n : Channel) (s t : State), exec (.firstUseEnd n) s = .next t →
    Frame [.tlm, .bud] [.BUD_STATUS, .BUD_STATE, .BUD_PORT] s t) ∧
  (∀ (cause : WarnCause) (s t : State), exec (.pwrwarnAssert cause) s = .next t →
    Frame (wakeParts.append [.pred, .tlm, .bud, .tcp, .flt]) (wakeRegs.append [.TML_PRED, .TCP_PORT, .TLM_INWARN, .BUD_STATUS, .BUD_STATE, .BUD_EVT, .BUD_PORT]) s t) ∧
  (∀ (s t : State), exec .pwrwarnRelease s = .next t →
    Frame [.tlm, .bud] [.TLM_INWARN, .BUD_STATUS, .BUD_STATE, .BUD_PORT] s t) ∧
  (∀ (s t : State), exec .vinUndervoltage s = .next t →
    Frame (raiseParts.append [.bud]) (raiseRegs.append [.TLM_INWARN]) s t) ∧
  (∀ (s t : State), exec .budgetReduce s = .next t →
    Frame [.obs, .tlm, .bud, .tcp, .flt] (recordRegs.append [.TCP_PORT, .PPW_LIMIT, .PPW_STATUS, .BUD_STATUS, .BUD_STATE, .BUD_EVT, .BUD_PORT, .BUD_RLIM]) s t) ∧
  (∀ (onMs : Nat) (s t : State), exec (.budgetShed onMs) s = .next t →
    Frame (raiseParts.append [.bud]) (rampRegs.append [.BUD_STATUS, .BUD_STATE]) s t) ∧
  (∀ (s t : State), exec .budgetPeriodicReview s = .next t →
    Frame [.obs, .tlm, .bud, .tcp, .flt] (recordRegs.append [.TCP_PORT, .PPW_LIMIT, .PPW_STATUS, .BUD_STATUS, .BUD_STATE, .BUD_EVT, .BUD_PORT, .BUD_RLIM]) s t) ∧
  (∀ (i : Fin 8) (low : Bool) (s t : State), exec (.seatInputChange i low) s = .next t →
    Frame [.obs, .pdc, .chan] (wakeRegs.append [.PPW_SEAT]) s t)

/-- What a command of Type-C ports and power contracts leaves unchanged when exec answers a next state: every part of the state
outside its list, every register outside its list, the waiting commands and the cycle count; what was put on the balls
stays, and the register list keeps its canonical form. -/
def Obligations.FrameTypeCPd : Prop :=
  (∀ (n : Channel) (cc2 : Bool) (ra : Bool) (acc : Bool) (s t : State), exec (.attachDetect n cc2 ra acc) s = .next t →
    Frame (wakeParts.append [.pred, .tcp]) (wakeRegs.append [.TML_PRED, .TCP_PORT, .TCP_CABLE, .TCP_EVT, .PPW_STATUS]) s t) ∧
  (∀ (n : Channel) (s t : State), exec (.ccAttachDebounceEnd n) s = .next t →
    Frame (raiseParts.append [.pred]) (rampRegs.append [.TML_PRED, .TCP_EVT, .STL_STALL]) s t) ∧
  (∀ (n : Channel) (s t : State), exec (.vbusDischarged n) s = .next t →
    Frame (raiseParts.append [.pred]) (rampRegs.append [.TML_PRED, .TCP_EVT, .STL_STALL]) s t) ∧
  (∀ (n : Channel) (s t : State), exec (.detachDebounceEnd n) s = .next t →
    Frame (raiseParts.append [.pat, .tml, .dp]) (rampRegs.append [.TML_PAT, .TCP_CABLE, .TCP_EVT]) s t) ∧
  (∀ (n : Channel) (s t : State), exec (.sinkDetach n) s = .next t →
    Frame (raiseParts.append [.pat, .tml, .dp]) (rampRegs.append [.TML_PAT, .TCP_CABLE, .TCP_EVT]) s t) ∧
  (∀ (n : Channel) (isOpen : Bool) (code : BitVec 14) (s t : State), exec (.rdOpenDuringSlew n isOpen code) s = .next t →
    Frame [] [.TCP_VSET] s t) ∧
  (∀ (n : Channel) (s t : State), exec (.drpToggle n) s = .next t → Frame [.obs] (recordRegs.append [.TCP_PORT]) s t) ∧
  (∀ (n : Channel) (s t : State), exec (.trySnkTimeout n) s = .next t →
    Frame [.obs, .tcp] (recordRegs.append [.TCP_PORT]) s t) ∧
  (∀ (n : Channel) (s t : State), exec (.errorRecoveryEnd n) s = .next t →
    Frame [.obs] (recordRegs.append [.TCP_PORT, .PPW_STATUS]) s t) ∧
  (∀ (n : Channel) (answered : Bool) (amp5 : Bool) (eprOk : Bool) (maxV : Fin 4) (s t : State), exec (.discoverIdentityAttempt n answered amp5 eprOk maxV) s = .next t →
    Frame [.obs, .tcp, .flt] (recordRegs.append [.TCP_PORT, .TCP_CABLE]) s t) ∧
  (∀ (n : Channel) (goodCrc : Bool) (s t : State), exec (.sourceCapTimer n goodCrc) s = .next t →
    Frame [.obs, .tcp, .flt] (recordRegs.append [.TCP_PORT]) s t) ∧
  (∀ (n : Channel) (hdr : BitVec 16) (s t : State), exec (.ping n hdr) s = .next t →
    Frame [.obs, .tcp, .flt] (recordRegs.append [.TCP_PORT]) s t) ∧
  (∀ (n : Channel) (hdr : BitVec 16) (s t : State), exec (.getSourceCap n hdr) s = .next t →
    Frame [.obs, .tcp, .flt] (recordRegs.append [.TCP_PORT]) s t) ∧
  (∀ (n : Channel) (hdr : BitVec 16) (ext : Bool) (s t : State), exec (.getSinkCap n hdr ext) s = .next t →
    Frame [.obs, .tcp, .flt] (recordRegs.append [.TCP_PORT]) s t) ∧
  (∀ (n : Channel) (hdr : BitVec 16) (info : Bool) (s t : State), exec (.getSourceCapExtended n hdr info) s = .next t →
    Frame [.obs, .tcp, .flt] (recordRegs.append [.TCP_PORT]) s t) ∧
  (∀ (n : Channel) (hdr : BitVec 16) (s t : State), exec (.getStatus n hdr) s = .next t →
    Frame [.obs, .tcp, .flt] (recordRegs.append [.TCP_PORT]) s t) ∧
  (∀ (n : Channel) (hdr : BitVec 16) (s t : State), exec (.getPpsStatus n hdr) s = .next t →
    Frame [.obs, .tcp, .flt] (recordRegs.append [.TCP_PORT]) s t) ∧
  (∀ (n : Channel) (hdr : BitVec 16) (s t : State), exec (.getRevision n hdr) s = .next t →
    Frame [.obs, .tcp, .flt] (recordRegs.append [.TCP_PORT]) s t) ∧
  (∀ (n : Channel) (hdr : BitVec 16) (s t : State), exec (.softReset n hdr) s = .next t →
    Frame [.obs, .tcp, .flt] (recordRegs.append [.TCP_PORT, .TCP_EVT]) s t) ∧
  (∀ (n : Channel) (hdr : BitVec 16) (s t : State), exec (.vconnSwap n hdr) s = .next t →
    Frame [.obs, .tcp, .flt] (recordRegs.append [.TCP_PORT, .TCP_EVT]) s t) ∧
  (∀ (n : Channel) (hdr : BitVec 16) (s t : State), exec (.psRdyReceived n hdr) s = .next t →
    Frame [.obs, .tcp, .flt] (recordRegs.append [.TCP_PORT, .TCP_EVT]) s t) ∧
  (∀ (n : Channel) (hdr : BitVec 16) (s t : State), exec (.unsupportedPdMessage n hdr) s = .next t →
    Frame [.obs, .tcp, .flt] (recordRegs.append [.TCP_PORT]) s t) ∧
  (∀ (n : Channel) (hdr : BitVec 16) (carrier : Bool) (s t : State), exec (.bist n hdr carrier) s = .next t →
    Frame [.obs, .tcp, .flt] (recordRegs.append [.TCP_PORT]) s t) ∧
  (∀ (n : Channel) (hdr : BitVec 16) (objs : List (BitVec 32)) (epr : Bool) (s t : State), exec (.sourceCapabilities n hdr objs epr) s = .next t →
    Frame [.obs, .tcp, .flt] (recordRegs.append [.TCP_PORT]) s t) ∧
  (∀ (n : Channel) (hdr : BitVec 16) (rdo : BitVec 32) (s t : State), exec (.pdRequest n hdr rdo) s = .next t →
    Frame [.obs, .tlm, .bud, .tcp, .flt] (recordRegs.append [.TCP_PORT, .TCP_VSET, .PPW_LIMIT, .PPW_STATUS, .BUD_STATUS, .BUD_STATE, .BUD_EVT, .BUD_PORT, .BUD_RLIM]) s t) ∧
  (∀ (n : Channel) (hdr : BitVec 16) (s t : State), exec (.eprModeEnter n hdr) s = .next t →
    Frame [.obs, .tcp, .flt] (recordRegs.append [.TCP_PORT, .TCP_CONTRACT]) s t) ∧
  (∀ (n : Channel) (hdr : BitVec 16) (s t : State), exec (.eprModeExit n hdr) s = .next t →
    Frame [.obs, .tcp, .flt] (recordRegs.append [.TCP_PORT, .TCP_CONTRACT]) s t) ∧
  (∀ (n : Channel) (hdr : BitVec 16) (s t : State), exec (.eprGetSourceCap n hdr) s = .next t →
    Frame [.obs, .tcp, .flt] (recordRegs.append [.TCP_PORT]) s t) ∧
  (∀ (n : Channel) (hdr : BitVec 16) (s t : State), exec (.eprGetSinkCap n hdr) s = .next t →
    Frame [.obs, .tcp, .flt] (recordRegs.append [.TCP_PORT]) s t) ∧
  (∀ (n : Channel) (hdr : BitVec 16) (s t : State), exec (.eprKeepalive n hdr) s = .next t →
    Frame [.obs, .tcp, .flt] (recordRegs.append [.TCP_PORT]) s t) ∧
  (∀ (n : Channel) (hdr : BitVec 16) (ado : BitVec 32) (s t : State), exec (.pdAlert n hdr ado) s = .next t →
    Frame [.obs, .tcp, .flt] (recordRegs.append [.TCP_PORT]) s t) ∧
  (∀ (n : Channel) (hdr : BitVec 16) (data : List (BitVec 32)) (s t : State), exec (.pdInfoReceived n hdr data) s = .next t →
    Frame [.obs, .tcp, .flt] (recordRegs.append [.TCP_PORT]) s t) ∧
  (∀ (n : Channel) (hdr : BitVec 16) (s t : State), exec (.discoverIdentity n hdr) s = .next t →
    Frame [.obs, .tcp, .flt] (recordRegs.append [.TCP_PORT]) s t) ∧
  (∀ (n : Channel) (hdr : BitVec 16) (s t : State), exec (.discoverSvids n hdr) s = .next t →
    Frame [.obs, .tcp, .flt] (recordRegs.append [.TCP_PORT, .TCP_DP]) s t) ∧
  (∀ (n : Channel) (hdr : BitVec 16) (s t : State), exec (.discoverModes n hdr) s = .next t →
    Frame [.obs, .tcp, .flt] (recordRegs.append [.TCP_PORT]) s t) ∧
  (∀ (n : Channel) (hdr : BitVec 16) (s t : State), exec (.enterMode n hdr) s = .next t →
    Frame [.obs, .tcp, .flt, .dp] (recordRegs.append [.TCP_PORT, .TCP_DP]) s t) ∧
  (∀ (n : Channel) (hdr : BitVec 16) (s t : State), exec (.exitMode n hdr) s = .next t →
    Frame [.obs, .tcp, .flt, .dp] (recordRegs.append [.TCP_PORT, .TCP_DP]) s t) ∧
  (∀ (n : Channel) (hdr : BitVec 16) (s t : State), exec (.dpStatusUpdate n hdr) s = .next t →
    Frame [.obs, .tcp, .flt] (recordRegs.append [.TCP_PORT]) s t) ∧
  (∀ (n : Channel) (hdr : BitVec 16) (ufpD : Bool) (pins : Fin 4) (s t : State), exec (.dpConfigure n hdr ufpD pins) s = .next t →
    Frame [.obs, .tcp, .flt, .dp] (recordRegs.append [.TCP_PORT, .TCP_DP]) s t) ∧
  (∀ (n : Channel) (hdr : BitVec 16) (s t : State), exec (.otherStructuredVdm n hdr) s = .next t →
    Frame [.obs, .tcp, .flt] (recordRegs.append [.TCP_PORT]) s t) ∧
  (∀ (n : Channel) (hdr : BitVec 16) (s t : State), exec (.unstructuredVdm n hdr) s = .next t →
    Frame [.obs, .tcp, .flt] (recordRegs.append [.TCP_PORT]) s t) ∧
  (∀ (n : Channel) (s t : State), exec (.hardResetReceived n) s = .next t →
    Frame (raiseParts.append [.dp]) (rampRegs.append [.TCP_EVT]) s t) ∧
  (∀ (n : Channel) (s t : State), exec (.senderResponseTimeout n) s = .next t →
    Frame (raiseParts.append [.dp]) (rampRegs.append [.TCP_EVT]) s t) ∧
  (∀ (n : Channel) (s t : State), exec (.ppsTimeout n) s = .next t →
    Frame (raiseParts.append [.dp]) (rampRegs.append [.TCP_EVT]) s t) ∧
  (∀ (n : Channel) (s t : State), exec (.eprKeepaliveTimeout n) s = .next t →
    Frame (raiseParts.append [.dp]) (rampRegs.append [.TCP_EVT]) s t) ∧
  (∀ (n : Channel) (s t : State), exec (.psHardResetTimer n) s = .next t →
    Frame [.chan, .tlm] [.PPW_STATUS, .BUD_PORT] s t) ∧
  (∀ (n : Channel) (s t : State), exec (.srcRecoverEnd n) s = .next t → Frame raiseParts rampRegs s t) ∧
  (∀ (n : Channel) (s t : State), exec (.srcTransitionEnd n) s = .next t → Frame [.tcp] [.TCP_VSET] s t) ∧
  (∀ (n : Channel) (s t : State), exec (.slewDone n) s = .next t → Frame [.tcp] [.TCP_VSET] s t) ∧
  (∀ (n : Channel) (s t : State), exec (.settleDone n) s = .next t →
    Frame [.obs, .tlm, .bud, .tcp, .flt] (recordRegs.append [.TCP_PORT, .TCP_CONTRACT, .TCP_VSET, .TCP_EVT, .PPW_LIMIT, .PPW_STATUS, .BUD_STATUS, .BUD_STATE, .BUD_EVT, .BUD_PORT, .BUD_RLIM]) s t) ∧
  (∀ (n : Channel) (s t : State), exec (.psRdyTimeout n) s = .next t →
    Frame (raiseParts.append [.dp]) (rampRegs.append [.TCP_EVT]) s t) ∧
  (∀ (n : Channel) (mv : Nat) (limiting : Bool) (s t : State), exec (.vsetTrim n mv limiting) s = .next t →
    Frame [.tcp] [.TCP_VSET] s t) ∧
  (∀ (n : Channel) (s t : State), exec (.vconnOvercurrent n) s = .next t →
    Frame raiseParts (raiseRegs.append [.TCP_EVT]) s t) ∧
  (∀ (n : Channel) (s t : State), exec (.ccOvervoltage n) s = .next t →
    Frame (raiseParts.append [.dp]) (rampRegs.append [.TCP_EVT]) s t) ∧
  (∀ (u : Fin 2) (high : Bool) (s t : State), exec (.hpdLevelChange u high) s = .next t →
    Frame [.obs, .tcp, .flt] (recordRegs.append [.TCP_DP]) s t) ∧
  (∀ (u : Fin 2) (s t : State), exec (.irqHpd u) s = .next t → Frame [.obs, .tcp, .flt] recordRegs s t) ∧
  (∀ (n : Channel) (gateOk : Bool) (s t : State), exec (.rampComplete n gateOk) s = .next t →
    Frame (wakeParts.append [.pat, .pred, .chan, .tcp, .ss, .glk, .fab, .port, .mirror, .flt]) ((wakeRegs.append pumpRegs).append [.TML_PRED, .TML_PAT, .SSH_CTX, .SSH_PORT, .SSH_PORT_EVT, .HSH_PORT, .TCP_PORT, .PPW_LIMIT, .PPW_STATUS]) s t) ∧
  (∀ (n : Channel) (cc2 : Bool) (rp : Fin 4) (s t : State), exec (.sinkAttach n cc2 rp) s = .next t →
    Frame raiseParts (rampRegs.append [.TCP_EVT]) s t) ∧
  (∀ (n : Channel) (hdr : BitVec 16) (ans : PdAnswer) (s t : State), exec (.acceptReceived n hdr ans) s = .next t →
    Frame [.obs, .tcp, .flt, .tml, .tmlOld] (recordRegs.append [.TCP_PORT, .TCP_CONTRACT, .TCP_EVT, .PPW_LIMIT, .BUD_PORT]) s t)

/-- What a command of Ghelys links, the barn and the drovers leaves unchanged when exec answers a next state: every part of the
state outside its list, every register outside its list, the waiting commands and the cycle count; what was put on the balls
stays, and the register list keeps its canonical form. -/
def Obligations.FrameFabric : Prop :=
  (∀ (k : Fin 4) (s t : State), exec (.linkDelayProbe k) s = .next t →
    Frame [.glk] [.PBF_EVT, .GLK_LINK] s t) ∧
  (∀ (k : Fin 4) (lanes : Fin 4) (delay : Nat) (carry : Nat) (s t : State), exec (.linkTrained k lanes delay carry) s = .next t →
    Frame (wakeParts.append [.pred, .ss, .glk, .fab, .port, .mirror]) ((wakeRegs.append pumpRegs).append [.TML_PRED, .HSH_PORT, .HSH_CARRY, .HSH_EVT, .GLK_DELAY, .GLK_EVT, .GLK_HB, .DRV_BARN]) s t) ∧
  (∀ (k : Fin 4) (s t : State), exec (.linkTrainingFailed k) s = .next t →
    Frame (wakeParts.append [.pred, .glk, .fab]) ((wakeRegs.append pumpRegs).append [.TML_PRED, .DRV_BARN]) s t) ∧
  (∀ (k : Fin 4) (s t : State), exec (.linkRetryTimer k) s = .next t →
    Frame (wakeParts.append [.pred, .glk]) (wakeRegs.append [.TML_PRED, .GLK_LINK]) s t) ∧
  (∀ (k : Fin 4) (s t : State), exec (.linkIdleEntry k) s = .next t → Frame [] [.GLK_LINK] s t) ∧
  (∀ (k : Fin 4) (s t : State), exec (.linkNopTimer k) s = .next t →
    Frame [.glk] [.PBF_EVT, .GLK_LINK] s t) ∧
  (∀ (k : Fin 4) (upper : Bool) (s t : State), exec (.ghelysLaneLost k upper) s = .next t →
    Frame ((raiseParts.append replyParts).append [.yards]) ((raiseRegs.append replyRegs).append [.YRD_BARN, .UPP_EVT, .GLK_ERR, .GLK_EVT, .DRV_FLOWS]) s t) ∧
  (∀ (k : Fin 4) (s t : State), exec (.singleLaneRetrain k) s = .next t →
    Frame ((raiseParts.append replyParts).append [.yards]) ((raiseRegs.append replyRegs).append [.YRD_BARN, .UPP_EVT, .DRV_FLOWS]) s t) ∧
  (∀ (k : Fin 4) (s t : State), exec (.sleepIdleTimeout k) s = .next t →
    Frame [.glk] [.PBF_EVT, .GLK_LINK] s t) ∧
  (∀ (h : BaleHdr) (s t : State), exec (.sleepReq h) s = .next t →
    Frame (wakeParts.append [.pred, .glk]) ((wakeRegs.append pumpRegs).append [.TML_PRED, .PBF_STATUS, .PBF_SHARED_FREE, .PBF_BANK_FREE, .PBF_USED]) s t) ∧
  (∀ (h : BaleHdr) (s t : State), exec (.sleepAck h) s = .next t →
    Frame (wakeParts.append [.pred, .glk]) ((wakeRegs.append pumpRegs).append [.TML_PRED, .PBF_STATUS, .PBF_SHARED_FREE, .PBF_BANK_FREE, .PBF_USED]) s t) ∧
  (∀ (h : BaleHdr) (s t : State), exec (.sleepNak h) s = .next t →
    Frame [.glk] (pumpRegs.append [.PBF_STATUS, .PBF_SHARED_FREE, .PBF_BANK_FREE, .PBF_USED]) s t) ∧
  (∀ (k : Fin 4) (s t : State), exec (.bellRing k) s = .next t →
    Frame (wakeParts.append [.glk]) wakeRegs s t) ∧
  (∀ (k : Fin 4) (s t : State), exec (.bellAccepted k) s = .next t →
    Frame [.obs, .pdc, .glk] (wakeRegs.append [.GLK_EVT, .GLK_WAKE]) s t) ∧
  (∀ (k : Fin 4) (s t : State), exec (.bellTimeout k) s = .next t →
    Frame ((raiseParts.append replyParts).append [.yards]) ((raiseRegs.append replyRegs).append [.YRD_BARN, .UPP_EVT, .GLK_ERR, .GLK_EVT, .DRV_FLOWS]) s t) ∧
  (∀ (k : Fin 4) (s t : State), exec (.linkResumeDone k) s = .next t →
    Frame (wakeParts.append [.pred, .glk]) ((wakeRegs.append pumpRegs).append [.TML_PRED, .GLK_ERR]) s t) ∧
  (∀ (k : Fin 4) (header : BitVec 64) (payload : List (BitVec 8)) (mark : Bool) (ecc : Fin 3) (s t : State), exec (.dataBaleReceived k header payload mark ecc) s = .next t →
    Frame raiseParts (raiseRegs.append [.SSH_DROPS, .PBF_ECC_COUNT, .GLK_ERR]) s t) ∧
  (∀ (h : BaleHdr) (seq : Fin 512) (s t : State), exec (.nakReceived h seq) s = .next t →
    Frame ((raiseParts.append replyParts).append [.yards]) ((raiseRegs.append replyRegs).append [.YRD_BARN, .UPP_EVT, .GLK_ERR, .GLK_EVT, .DRV_FLOWS]) s t) ∧
  (∀ (k : Fin 4) (s t : State), exec (.replayTimeout k) s = .next t →
    Frame ((raiseParts.append replyParts).append [.yards]) ((raiseRegs.append replyRegs).append [.YRD_BARN, .UPP_EVT, .GLK_ERR, .GLK_EVT, .DRV_FLOWS]) s t) ∧
  (∀ (k : Fin 4) (data : Fin 65536) (ctrl : Fin 65536) (s t : State), exec (.paramReceived k data ctrl) s = .next t →
    Frame [.glk] pumpRegs s t) ∧
  (∀ (h : BaleHdr) (uid : Nat) (hash : Nat) (barnId : Nat) (claimed : Fin 256) (peerLink : Fin 4) (flags : Fin 256) (lead : Fin 256) (s t : State), exec (.helloReceived h uid hash barnId claimed peerLink flags lead) s = .next t →
    Frame ((raiseParts.append replyParts).append [.yards]) ((raiseRegs.append replyRegs).append [.YRD_BARN, .UPP_EVT, .GLK_EVT, .DRV_FLOWS]) s t) ∧
  (∀ (h : BaleHdr) (s t : State), exec (.probeReceived h) s = .next t →
    Frame [.glk] (pumpRegs.append [.PBF_STATUS, .PBF_SHARED_FREE, .PBF_BANK_FREE, .PBF_USED]) s t) ∧
  (∀ (h : BaleHdr) (delay : Nat) (s t : State), exec (.probeReplyReceived h delay) s = .next t →
    Frame [.glk] (pumpRegs.append [.PBF_STATUS, .PBF_SHARED_FREE, .PBF_BANK_FREE, .PBF_USED, .GLK_DELAY]) s t) ∧
  (∀ (h : BaleHdr) (period : Fin 16777216) (s t : State), exec (.heartbeatReceived h period) s = .next t →
    Frame [.glk] (pumpRegs.append [.PBF_STATUS, .PBF_SHARED_FREE, .PBF_BANK_FREE, .PBF_USED, .GLK_HB]) s t) ∧
  (∀ (k : Fin 4) (s t : State), exec (.heartbeatMiss k) s = .next t →
    Frame ((raiseParts.append replyParts).append [.yards]) ((raiseRegs.append replyRegs).append [.YRD_BARN, .UPP_EVT, .GLK_ERR, .GLK_EVT, .GLK_HB, .DRV_FLOWS]) s t) ∧
  (∀ (k : Fin 4) (s t : State), exec (.linkDownReceived k) s = .next t →
    Frame ((raiseParts.append replyParts).append [.yards]) ((raiseRegs.append replyRegs).append [.YRD_BARN, .UPP_EVT, .GLK_ERR, .GLK_EVT, .DRV_FLOWS]) s t) ∧
  (∀ (k : Fin 4) (s t : State), exec (.noBaleTimeout k) s = .next t →
    Frame ((raiseParts.append replyParts).append [.yards]) ((raiseRegs.append replyRegs).append [.YRD_BARN, .UPP_EVT, .GLK_ERR, .GLK_EVT, .DRV_FLOWS]) s t) ∧
  (∀ (k : Fin 4) (s t : State), exec (.blockLockLoss k) s = .next t →
    Frame ((raiseParts.append replyParts).append [.yards]) ((raiseRegs.append replyRegs).append [.YRD_BARN, .UPP_EVT, .GLK_ERR, .GLK_EVT, .DRV_FLOWS]) s t) ∧
  (∀ (c : CtrlHdr) (i : Fin 16) (s t : State), exec (.linkDownNotice c i) s = .next t →
    Frame ((raiseParts.append replyParts).append [.yards]) ((raiseRegs.append replyRegs).append [.YRD_BARN, .PBF_ECC_COUNT, .UPP_EVT, .GLK_ERR, .DRV_FLOWS]) s t) ∧
  (∀ (c : CtrlHdr) (epoch : Bool) (s t : State), exec (.resyncReceived c epoch) s = .next t →
    Frame raiseParts (raiseRegs.append [.PBF_ECC_COUNT, .GLK_ERR]) s t) ∧
  (∀ (c : CtrlHdr) (epoch : Bool) (counts : List (Fin 512 × Fin 65536)) (elapsed : Nat) (s t : State), exec (.resyncAckReceived c epoch counts elapsed) s = .next t →
    Frame raiseParts (raiseRegs.append [.PBF_ECC_COUNT, .GLK_ERR, .DRV_FLOWS]) s t) ∧
  (∀ (c : CtrlHdr) (links : List LinkAd) (members : List MemberAd) (s t : State), exec (.lsaReceived c links members) s = .next t →
    Frame ((raiseParts.append replyParts).append [.yards]) ((raiseRegs.append replyRegs).append [.YRD_BARN, .PBF_ECC_COUNT, .UPP_EVT, .GLK_ERR, .GLK_EVT, .DRV_FLOWS]) s t) ∧
  (∀ (s t : State), exec .floodingRoundEnd s = .next t →
    Frame ((raiseParts.append replyParts).append [.yards]) ((raiseRegs.append replyRegs).append [.YRD_BARN, .UPP_EVT, .GLK_EVT, .DRV_FLOWS]) s t) ∧
  (∀ (c : CtrlHdr) (tab : RouteTable) (s t : State), exec (.tablesReceived c tab) s = .next t →
    Frame (raiseParts.append [.yards]) (raiseRegs.append [.YRD_BARN, .PBF_ECC_COUNT, .GLK_ERR]) s t) ∧
  (∀ (c : CtrlHdr) (ver : Fin 256) (s t : State), exec (.tablesAckReceived c ver) s = .next t →
    Frame raiseParts (raiseRegs.append [.PBF_ECC_COUNT, .GLK_ERR]) s t) ∧
  (∀ (ms : Nat) (s t : State), exec (.formedBroadcast ms) s = .next t →
    Frame [.glk, .fab] (pumpRegs.append [.DRV_BARN, .DRV_EVT, .TOP_BOOT_TIME]) s t) ∧
  (∀ (c : CtrlHdr) (ms : Nat) (s t : State), exec (.formedReceived c ms) s = .next t →
    Frame raiseParts (raiseRegs.append [.PBF_ECC_COUNT, .GLK_ERR, .TOP_BOOT_TIME]) s t) ∧
  (∀ (ms : Nat) (s t : State), exec (.formationDeadline ms) s = .next t →
    Frame [.glk, .fab] (pumpRegs.append [.DRV_BARN, .DRV_EVT, .TOP_BOOT_TIME]) s t) ∧
  (∀ (s t : State), exec .tableSwitch s = .next t →
    Frame ((raiseParts.append replyParts).append [.yards]) ((raiseRegs.append replyRegs).append [.YRD_BARN, .UPP_EVT, .DRV_FLOWS]) s t) ∧
  (∀ (c : CtrlHdr) (o : FlowOpen) (s t : State), exec (.flowOpenReceived c o) s = .next t →
    Frame raiseParts (raiseRegs.append [.PBF_ECC_COUNT, .GLK_ERR]) s t) ∧
  (∀ (idx : Fin 512) (s t : State), exec (.flowRecordFree idx) s = .next t →
    Frame [.glk, .fab] (pumpRegs.append [.PBF_STATUS, .PBF_SHARED_FREE, .PBF_BANK_FREE, .PBF_USED, .DRV_FLOWS]) s t) ∧
  (∀ (c : CtrlHdr) (counts : List (Fin 512 × Fin 65536)) (s t : State), exec (.deliveredReceived c counts) s = .next t →
    Frame raiseParts (raiseRegs.append [.PBF_ECC_COUNT, .GLK_ERR, .DRV_FLOWS]) s t) ∧
  (∀ (src : Fin 8) (idx : Fin 512) (s t : State), exec (.deliveredTimer src idx) s = .next t →
    Frame [.glk, .fab] pumpRegs s t) ∧
  (∀ (c : CtrlHdr) (loads : List Nat) (s t : State), exec (.loadReceived c loads) s = .next t →
    Frame raiseParts (raiseRegs.append [.PBF_ECC_COUNT, .GLK_ERR]) s t) ∧
  (∀ (s t : State), exec .rebalanceWindow s = .next t →
    Frame (replyParts.append [.glk, .fab]) ((replyRegs.append pumpRegs).append [.DRV_LOAD, .DRV_FLOWS, .DRV_REBAL, .DRV_SEED_LO, .DRV_SEED_HI, .DRV_EVT]) s t) ∧
  (∀ (c : CtrlHdr) (seed : Fin (2 ^ 64)) (s t : State), exec (.reseedReceived c seed) s = .next t →
    Frame raiseParts (raiseRegs.append [.PBF_ECC_COUNT, .GLK_ERR]) s t) ∧
  (∀ (k : Fin 4) (s t : State), exec (.isolatedHelloTimer k) s = .next t →
    Frame [.glk] [.PBF_EVT, .GLK_LINK] s t) ∧
  (∀ (h : BaleHdr) (s t : State), exec (.linkNopReceived h) s = .next t →
    Frame [.glk] (pumpRegs.append [.PBF_STATUS, .PBF_SHARED_FREE, .PBF_BANK_FREE, .PBF_USED]) s t)

/-- What a command of SuperSpeed forwarding leaves unchanged when exec answers a next state: every part of the state outside its
list, every register outside its list, the waiting commands and the cycle count; what was put on the balls stays, and the
register list keeps its canonical form. -/
def Obligations.FrameSuperSpeed : Prop :=
  (∀ (u : Fin 2) (pkt : SsPacket) (ecc : Fin 3) (s t : State), exec (.downstreamPacket u pkt ecc) s = .next t →
    Frame raiseParts (raiseRegs.append [.SSH_DROPS, .PBF_ECC_COUNT, .DRV_FLOWS]) s t) ∧
  (∀ (n : Stall) (pkt : SsPacket) (ecc : Fin 3) (s t : State), exec (.upstreamPacket n pkt ecc) s = .next t →
    Frame (raiseParts.append [.pat]) (raiseRegs.append [.SSH_PORT_LPM, .PBF_ECC_COUNT, .DRV_FLOWS]) s t) ∧
  (∀ (n : Channel) (ecc : Fin 3) (s t : State), exec (.egressQueueHead n ecc) s = .next t →
    Frame (raiseParts.append [.pat]) (raiseRegs.append [.SSH_PORT_LPM, .SSH_DROPS, .PBF_ECC_COUNT, .DRV_FLOWS]) s t) ∧
  (∀ (n : Channel) (rate : Fin 5) (s t : State), exec (.portU0Reached n rate) s = .next t →
    Frame (wakeParts.append [.pat, .pred, .ss, .glk, .fab, .port, .mirror]) ((wakeRegs.append pumpRegs).append [.TML_PRED, .TML_PAT, .SSH_CTX, .SSH_PORT, .SSH_PORT_LPM, .SSH_PORT_EVT, .PBF_STATUS, .PBF_SHARED_FREE, .PBF_BANK_FREE, .PBF_USED, .UPP_PADDOCK, .STL_LANE]) s t) ∧
  (∀ (n : Channel) (s t : State), exec (.recoveryHoldExpire n) s = .next t →
    Frame [.ss, .glk] [.SSH_PORT, .SSH_PORT_EVT, .SSH_DROPS, .PBF_STATUS, .PBF_SHARED_FREE, .PBF_BANK_FREE, .PBF_USED, .PBF_EVT, .OBS_PMU_OVF, .OBS_PMU_LO, .OBS_PMU_HI] s t) ∧
  (∀ (n : Stall) (u2 : Bool) (s t : State), exec (.lgoReceived n u2) s = .next t →
    Frame (wakeParts.append [.pat, .pred, .ss, .glk, .fab, .port, .mirror]) ((wakeRegs.append pumpRegs).append [.TML_PRED, .TML_PAT, .SSH_CTX, .SSH_PORT, .SSH_PORT_EVT]) s t) ∧
  (∀ (n : Channel) (s t : State), exec (.headerCreditReturn n) s = .next t → Frame [.ss] [.SSH_PORT, .PBF_EVT] s t) ∧
  (∀ (q : Fin 21) (s t : State), exec (.creditRelease q) s = .next t →
    Frame [.ss, .glk] [.PBF_EVT, .GLK_LINK] s t) ∧
  (∀ (c : CtrlHdr) (slot : Fin 4) (bic : Fin 16384) (s t : State), exec (.itpNotice c slot bic) s = .next t →
    Frame raiseParts (raiseRegs.append [.SSH_ITP_REGEN, .PBF_ECC_COUNT, .GLK_ERR]) s t) ∧
  (∀ (n : Channel) (result : Option Nat) (s t : State), exec (.ldmExchange n result) s = .next t →
    Frame [.ss] [.SSH_PORT_EVT, .SSH_PTM] s t) ∧
  (∀ (n : Stall) (u2 : Bool) (accepted : Bool) (s t : State), exec (.lpmInactivityTimeout n u2 accepted) s = .next t →
    Frame (wakeParts.append [.pat, .pred, .ss, .glk, .fab, .port, .mirror]) ((wakeRegs.append pumpRegs).append [.TML_PRED, .TML_PAT, .SSH_CTX, .SSH_PORT, .SSH_PORT_EVT]) s t) ∧
  (∀ (u : Fin 2) (u2 : Bool) (accepted : Bool) (s t : State), exec (.uspLpmInitiate u u2 accepted) s = .next t →
    Frame (wakeParts.append [.pat, .pred, .ss, .glk, .fab, .port, .mirror]) ((wakeRegs.append pumpRegs).append [.TML_PRED, .TML_PAT, .SSH_CTX, .SSH_PORT, .SSH_PORT_EVT]) s t) ∧
  (∀ (i : Fin 20) (s t : State), exec (.lfpsDetected i) s = .next t →
    Frame [.obs, .pred, .pdc] (wakeRegs.append [.TML_PRED]) s t) ∧
  (∀ (n : Stall) (s t : State), exec (.deviceU3Exit n) s = .next t →
    Frame (wakeParts.append [.pat, .pred, .ss, .glk, .fab, .port, .mirror]) ((wakeRegs.append pumpRegs).append [.TML_PRED, .TML_PAT, .SSH_CTX, .SSH_PORT, .SSH_PORT_LPM, .SSH_PORT_EVT, .PBF_STATUS, .PBF_SHARED_FREE, .PBF_BANK_FREE, .PBF_USED]) s t) ∧
  (∀ (u : Fin 2) (s t : State), exec (.hostU3Exit u) s = .next t →
    Frame (wakeParts.append [.pat, .pred, .ss, .glk, .fab, .port, .mirror]) ((wakeRegs.append pumpRegs).append [.TML_PRED, .TML_PAT, .SSH_CTX, .SSH_PORT, .SSH_PORT_EVT]) s t) ∧
  (∀ (n : Channel) (upper : Bool) (s t : State), exec (.ssLaneLost n upper) s = .next t →
    Frame raiseParts (raiseRegs.append [.STL_LANE]) s t) ∧
  (∀ (u : Fin 2) (u2 : Bool) (s t : State), exec (.uspLgoReceived u u2) s = .next t →
    Frame (wakeParts.append [.pat, .pred, .ss, .glk, .fab, .port, .mirror]) ((wakeRegs.append pumpRegs).append [.TML_PRED, .TML_PAT, .SSH_CTX, .SSH_PORT, .SSH_PORT_EVT]) s t) ∧
  (∀ (n : Channel) (s t : State), exec (.rxDetectPartnerFound n) s = .next t →
    Frame (wakeParts.append [.pat, .pred, .ss, .glk, .fab, .port, .mirror]) ((wakeRegs.append pumpRegs).append [.TML_PRED, .TML_PAT, .SSH_CTX, .SSH_PORT, .SSH_PORT_EVT]) s t)

/-- What a command of USB 2.0 engines, ports and translators leaves unchanged when exec answers a next state: every part of the
state outside its list, every register outside its list, the waiting commands and the cycle count; what was put on the balls
stays, and the register list keeps its canonical form. -/
def Obligations.FrameUsb2 : Prop :=
  (∀ (u : Fin 2) (s t : State), exec (.upstreamU3Entry u) s = .next t → Frame actParts actRegs s t) ∧
  (∀ (u : Fin 2) (s t : State), exec (.widthChangeStepDone u) s = .next t →
    Frame (actParts.append [.dp]) (actRegs.append [.STL_LANE]) s t) ∧
  (∀ (k : Fin 4) (cut : Bool) (s t : State), exec (.carryLost k cut) s = .next t → Frame actParts actRegs s t) ∧
  (∀ (n : Stall) (s t : State), exec (.orderReset n) s = .next t →
    Frame (raiseParts.append [.tt, .holders]) (rampRegs.append [.SSH_PORT_LPM, .SSH_DROPS, .HSH_PORT_EVT, .TTA_TT, .TTA_EVT, .UPP_HANDOFF, .UPP_EVT, .DRV_FLOWS, .TCP_EVT]) s t) ∧
  (∀ (n : Stall) (s t : State), exec (.orderSuspendPort n) s = .next t →
    Frame (raiseParts.append [.tt, .holders]) (rampRegs.append [.SSH_PORT_LPM, .SSH_DROPS, .HSH_PORT_EVT, .TTA_TT, .TTA_EVT, .UPP_HANDOFF, .UPP_EVT, .DRV_FLOWS, .TCP_EVT]) s t) ∧
  (∀ (n : Stall) (s t : State), exec (.orderResumePort n) s = .next t →
    Frame (raiseParts.append [.tt, .holders]) (rampRegs.append [.SSH_PORT_LPM, .SSH_DROPS, .HSH_PORT_EVT, .TTA_TT, .TTA_EVT, .UPP_HANDOFF, .UPP_EVT, .DRV_FLOWS, .TCP_EVT]) s t) ∧
  (∀ (slot : Fin 4) (s t : State), exec (.orderBusResumeStart slot) s = .next t →
    Frame (raiseParts.append [.tt, .holders]) (rampRegs.append [.SSH_PORT_LPM, .SSH_DROPS, .HSH_PORT_EVT, .TTA_TT, .TTA_EVT, .UPP_HANDOFF, .UPP_EVT, .DRV_FLOWS, .TCP_EVT]) s t) ∧
  (∀ (slot : Fin 4) (s t : State), exec (.orderBusResumeEnd slot) s = .next t →
    Frame (raiseParts.append [.tt, .holders]) (rampRegs.append [.SSH_PORT_LPM, .SSH_DROPS, .HSH_PORT_EVT, .TTA_TT, .TTA_EVT, .UPP_HANDOFF, .UPP_EVT, .DRV_FLOWS, .TCP_EVT]) s t) ∧
  (∀ (n : Stall) (s t : State), exec (.orderTest n) s = .next t →
    Frame (raiseParts.append [.tt, .holders]) (rampRegs.append [.SSH_PORT_LPM, .SSH_DROPS, .HSH_PORT_EVT, .TTA_TT, .TTA_EVT, .UPP_HANDOFF, .UPP_EVT, .DRV_FLOWS, .TCP_EVT]) s t) ∧
  (∀ (n : Stall) (s t : State), exec (.orderL1Exit n) s = .next t →
    Frame (raiseParts.append [.tt, .holders]) (rampRegs.append [.SSH_PORT_LPM, .SSH_DROPS, .HSH_PORT_EVT, .TTA_TT, .TTA_EVT, .UPP_HANDOFF, .UPP_EVT, .DRV_FLOWS, .TCP_EVT]) s t) ∧
  (∀ (n : Stall) (speed : Fin 4) (s t : State), exec (.portResetEnd n speed) s = .next t →
    Frame (wakeParts.append [.pred, .ss, .glk, .fab, .port, .mirror]) ((wakeRegs.append pumpRegs).append [.TML_PRED, .HSH_PORT, .HSH_PORT_EVT]) s t) ∧
  (∀ (e : Fin 4) (s t : State), exec (.globalSuspend e) s = .next t →
    Frame (wakeParts.append [.pred, .hs, .glk, .fab]) ((wakeRegs.append pumpRegs).append [.TML_PRED, .HSH_ENG, .HSH_PORT, .UPP_PADDOCK]) s t) ∧
  (∀ (u : Fin 2) (s t : State), exec (.hostResumeDetected u) s = .next t →
    Frame actParts actRegs s t) ∧
  (∀ (u : Fin 2) (s t : State), exec (.hostResumeEnd u) s = .next t → Frame actParts actRegs s t) ∧
  (∀ (n : Stall) (s t : State), exec (.portResumeEnd n) s = .next t →
    Frame (wakeParts.append [.pred, .ss, .glk, .fab, .port, .mirror]) ((wakeRegs.append pumpRegs).append [.TML_PRED, .HSH_PORT, .HSH_PORT_EVT]) s t) ∧
  (∀ (src : Option CtrlHdr) (slot : Fin 4) (n : Stall) (s t : State), exec (.remoteWake src slot n) s = .next t →
    Frame (raiseParts.append [.tt, .holders]) (rampRegs.append [.SSH_PORT_LPM, .SSH_DROPS, .PBF_ECC_COUNT, .HSH_PORT_EVT, .HSH_EVT, .TTA_TT, .TTA_EVT, .UPP_HANDOFF, .UPP_EVT, .GLK_ERR, .DRV_FLOWS, .TCP_EVT]) s t) ∧
  (∀ (u : Fin 2) (s t : State), exec (.wakeHoldExpire u) s = .next t → Frame [.hs] [] s t) ∧
  (∀ (n : Channel) (besl : Fin 16) (rwe : Bool) (s t : State), exec (.lpmAck n besl rwe) s = .next t →
    Frame [.hs] [.HSH_PORT] s t) ∧
  (∀ (n : Channel) (s t : State), exec (.l1Entry n) s = .next t →
    Frame (wakeParts.append [.pred, .ss, .hs, .glk, .fab, .port, .mirror]) ((wakeRegs.append pumpRegs).append [.TML_PRED, .HSH_ENG, .HSH_PORT, .HSH_PORT_EVT]) s t) ∧
  (∀ (src : Option CtrlHdr) (slot : Fin 4) (n : Stall) (s t : State), exec (.deviceL1Exit src slot n) s = .next t →
    Frame (raiseParts.append [.tt, .holders]) (rampRegs.append [.SSH_PORT_LPM, .SSH_DROPS, .PBF_ECC_COUNT, .HSH_PORT_EVT, .HSH_EVT, .TTA_TT, .TTA_EVT, .UPP_HANDOFF, .UPP_EVT, .GLK_ERR, .DRV_FLOWS, .TCP_EVT]) s t) ∧
  (∀ (n : Stall) (present : Bool) (low : Bool) (s t : State), exec (.hsConnectChange n present low) s = .next t →
    Frame (wakeParts.append [.pat, .pred, .ss, .hs, .glk, .fab, .port, .mirror]) ((wakeRegs.append pumpRegs).append [.TML_PRED, .TML_PAT, .HSH_PORT, .HSH_PORT_EVT]) s t) ∧
  (∀ (n : Stall) (s t : State), exec (.babbleDisable n) s = .next t →
    Frame raiseParts (raiseRegs.append [.HSH_PORT_EVT]) s t) ∧
  (∀ (u : Fin 2) (s t : State), exec (.fsUpstreamConnect u) s = .next t →
    Frame (wakeParts.append [.pred, .glk, .fab]) ((wakeRegs.append pumpRegs).append [.TML_PRED, .HSH_ENG, .HSH_EVT]) s t) ∧
  (∀ (n : Stall) (frame : Fin 2048) (s t : State), exec (.ttSof n frame) s = .next t →
    Frame (wakeParts.append [.pred, .tt]) (wakeRegs.append [.TML_PRED, .TTA_TT]) s t) ∧
  (∀ (n : Stall) (s t : State), exec (.sofFill n) s = .next t →
    Frame (wakeParts.append [.pred, .tt]) (wakeRegs.append [.TML_PRED, .TTA_TT, .TTA_EVT, .TTA_COUNT]) s t) ∧
  (∀ (n : Stall) (s t : State), exec (.ttPeriodicHold n) s = .next t →
    Frame (wakeParts.append [.pred, .tt]) (wakeRegs.append [.TML_PRED, .TTA_TT, .TTA_EVT]) s t) ∧
  (∀ (n : Stall) (dev : Fin 128) (ep : Fin 16) (dirIn : Bool) (data : List (BitVec 8)) (s t : State), exec (.periodicStartSplit n dev ep dirIn data) s = .next t →
    Frame (wakeParts.append [.pred, .tt]) (wakeRegs.append [.TML_PRED, .TTA_TT, .TTA_EVT, .TTA_COUNT]) s t) ∧
  (∀ (n : Stall) (dev : Fin 128) (ep : Fin 16) (bulk : Bool) (dirIn : Bool) (data : List (BitVec 8)) (s t : State), exec (.nonperiodicStartSplit n dev ep bulk dirIn data) s = .next t →
    Frame (wakeParts.append [.pred, .tt]) (wakeRegs.append [.TML_PRED, .TTA_TT, .TTA_EVT]) s t) ∧
  (∀ (n : Stall) (periodic : Bool) (dev : Fin 128) (ep : Fin 16) (dirIn : Bool) (sofar : List (BitVec 8)) (s t : State), exec (.completeSplit n periodic dev ep dirIn sofar) s = .next t →
    Frame (wakeParts.append [.pred, .tt]) (wakeRegs.append [.TML_PRED, .TTA_TT]) s t) ∧
  (∀ (n : Stall) (a : TtAnswer) (s t : State), exec (.ttTransactionEnd n a) s = .next t →
    Frame (wakeParts.append [.pred, .tt]) (wakeRegs.append [.TML_PRED, .TTA_TT]) s t) ∧
  (∀ (n : Stall) (dev : Fin 128) (ep : Fin 16) (dirIn : Bool) (s t : State), exec (.periodicWindowEnd n dev ep dirIn) s = .next t →
    Frame (wakeParts.append [.pred, .tt]) (wakeRegs.append [.TML_PRED, .TTA_TT]) s t) ∧
  (∀ (n : Stall) (s t : State), exec (.ttEof n) s = .next t →
    Frame (wakeParts.append [.pred, .tt]) (wakeRegs.append [.TML_PRED, .TTA_TT, .TTA_EVT]) s t) ∧
  (∀ (s t : State), exec .ttaOpDone s = .next t →
    Frame (wakeParts.append [.pred, .tt, .ttOp, .glk, .fab, .hubWaits, .epMem]) ((wakeRegs.append pumpRegs).append [.TML_PRED, .TTA_TT, .TTA_EVT, .TTA_CMD]) s t) ∧
  (∀ (n : Stall) (s t : State), exec (.bc12SwitchStart n) s = .next t →
    Frame [.chan, .tlm, .hs] [.HSH_PORT, .PPW_STATUS, .BUD_PORT] s t) ∧
  (∀ (n : Stall) (s t : State), exec (.bc12SwitchWaitEnd n) s = .next t →
    Frame (raiseParts.append [.pat]) (rampRegs.append [.TML_PAT, .HSH_PORT_EVT]) s t) ∧
  (∀ (k : Fin 4) (s t : State), exec (.carryReceiverActivity k) s = .next t →
    Frame [.obs, .pred, .pdc] (wakeRegs.append [.TML_PRED]) s t) ∧
  (∀ (n : Stall) (s t : State), exec (.vdpSrcDetected n) s = .next t → Frame [] [] s t)

/-- What a command of paddocks, hub requests and hand-offs leaves unchanged when exec answers a next state: every part of the
state outside its list, every register outside its list, the waiting commands and the cycle count; what was put on the balls
stays, and the register list keeps its canonical form. -/
def Obligations.FramePaddocks : Prop :=
  (∀ (c : CtrlHdr) (slot : Fin 4) (n : Fin 16) (stamp : Nat) (act : PortAct) (s t : State), exec (.orderReceived c slot n stamp act) s = .next t →
    Frame (actParts.append [.handoff]) (actRegs.append [.PBF_ECC_COUNT, .GLK_ERR]) s t) ∧
  (∀ (c : CtrlHdr) (slot : Fin 4) (hub : Fin 16) (port : Fin 16) (seq : Nat) (hs : Nat) (hsChg : Nat) (ss : Nat) (ssChg : Nat) (u1 : Nat) (u2 : Nat) (s t : State), exec (.mirrorRecord c slot hub port seq hs hsChg ss ssChg u1 u2) s = .next t →
    Frame raiseParts (raiseRegs.append [.PBF_ECC_COUNT, .UPP_EVT, .GLK_ERR]) s t) ∧
  (∀ (e : SnapEvent) (s t : State), exec (.mirrorSnapshot e) s = .next t →
    Frame raiseParts (raiseRegs.append [.PBF_ECC_COUNT, .GLK_ERR]) s t) ∧
  (∀ (slot : Fin 4) (hub : Fin 16) (ss : Bool) (s t : State), exec (.statusChangeIn slot hub ss) s = .next t →
    Frame [.epMem] [] s t) ∧
  (∀ (slot : Fin 4) (hub : Fin 16) (s t : State), exec (.getHubStatus slot hub) s = .next t →
    Frame [.epMem] [] s t) ∧
  (∀ (slot : Fin 4) (hub : Fin 16) (port : Fin 16) (ss : Bool) (s t : State), exec (.getPortStatus slot hub port ss) s = .next t →
    Frame [.epMem] [] s t) ∧
  (∀ (slot : Fin 4) (hub : Fin 16) (port : Fin 16) (s t : State), exec (.getPortStatusExt slot hub port) s = .next t →
    Frame actParts actRegs s t) ∧
  (∀ (slot : Fin 4) (hub : Fin 16) (ss : Bool) (d : DescReq) (s t : State), exec (.getHubDescriptor slot hub ss d) s = .next t →
    Frame [.epMem] [] s t) ∧
  (∀ (slot : Fin 4) (hub : Fin 16) (oc : Bool) (s t : State), exec (.clearHubFeature slot hub oc) s = .next t →
    Frame [] [] s t) ∧
  (∀ (slot : Fin 4) (hub : Fin 16) (s t : State), exec (.unsupportedHubRequest slot hub) s = .next t → Frame [] [] s t) ∧
  (∀ (slot : Fin 4) (hub : Fin 16) (port : Fin 16) (s t : State), exec (.setPortReset slot hub port) s = .next t →
    Frame actParts actRegs s t) ∧
  (∀ (slot : Fin 4) (hub : Fin 16) (port : Fin 16) (s t : State), exec (.setPortSuspend slot hub port) s = .next t →
    Frame actParts actRegs s t) ∧
  (∀ (slot : Fin 4) (hub : Fin 16) (port : Fin 16) (s t : State), exec (.clearPortSuspend slot hub port) s = .next t →
    Frame actParts actRegs s t) ∧
  (∀ (slot : Fin 4) (hub : Fin 16) (port : Fin 16) (ss : Bool) (s t : State), exec (.setPortPower slot hub port ss) s = .next t →
    Frame actParts actRegs s t) ∧
  (∀ (slot : Fin 4) (hub : Fin 16) (port : Fin 16) (ss : Bool) (s t : State), exec (.clearPortPower slot hub port ss) s = .next t →
    Frame actParts actRegs s t) ∧
  (∀ (slot : Fin 4) (hub : Fin 16) (port : Fin 16) (s t : State), exec (.clearPortEnable slot hub port) s = .next t →
    Frame actParts actRegs s t) ∧
  (∀ (slot : Fin 4) (hub : Fin 16) (port : Fin 16) (mode : Fin 8) (s t : State), exec (.setPortTest slot hub port mode) s = .next t →
    Frame actParts actRegs s t) ∧
  (∀ (slot : Fin 4) (hub : Fin 16) (port : Fin 16) (on : Bool) (s t : State), exec (.portIndicator slot hub port on) s = .next t →
    Frame actParts actRegs s t) ∧
  (∀ (slot : Fin 4) (hub : Fin 16) (port : Fin 16) (ss : Bool) (bit : Fin 8) (s t : State), exec (.clearPortChange slot hub port ss bit) s = .next t →
    Frame actParts actRegs s t) ∧
  (∀ (slot : Fin 4) (hub : Fin 16) (port : Fin 16) (dev : Fin 128) (ep : Fin 16) (bulk : Bool) (dirIn : Bool) (s t : State), exec (.clearTtBuffer slot hub port dev ep bulk dirIn) s = .next t →
    Frame actParts actRegs s t) ∧
  (∀ (slot : Fin 4) (hub : Fin 16) (port : Fin 16) (s t : State), exec (.resetTt slot hub port) s = .next t →
    Frame actParts actRegs s t) ∧
  (∀ (slot : Fin 4) (hub : Fin 16) (port : Fin 16) (s t : State), exec (.stopTt slot hub port) s = .next t →
    Frame actParts actRegs s t) ∧
  (∀ (slot : Fin 4) (hub : Fin 16) (port : Fin 16) (besl : Fin 16) (rwe : Bool) (s t : State), exec (.setAndTestPortL1 slot hub port besl rwe) s = .next t →
    Frame actParts actRegs s t) ∧
  (∀ (slot : Fin 4) (hub : Fin 16) (port : Fin 16) (s t : State), exec (.clearPortL1 slot hub port) s = .next t →
    Frame actParts actRegs s t) ∧
  (∀ (slot : Fin 4) (hub : Fin 16) (port : Fin 16) (s t : State), exec (.getPortErrorCount slot hub port) s = .next t →
    Frame actParts actRegs s t) ∧
  (∀ (slot : Fin 4) (hub : Fin 16) (depth : Fin 65536) (s t : State), exec (.setHubDepth slot hub depth) s = .next t →
    Frame [.ss, .glk, .fab] (pumpRegs.append [.SSH_CTX]) s t) ∧
  (∀ (slot : Fin 4) (hub : Fin 16) (port : Fin 16) (v : Fin 256) (s t : State), exec (.setPortU1Timeout slot hub port v) s = .next t →
    Frame actParts actRegs s t) ∧
  (∀ (slot : Fin 4) (hub : Fin 16) (port : Fin 16) (v : Fin 256) (s t : State), exec (.setPortU2Timeout slot hub port v) s = .next t →
    Frame actParts actRegs s t) ∧
  (∀ (slot : Fin 4) (hub : Fin 16) (port : Fin 16) (v : Fin 16) (s t : State), exec (.setPortLinkState slot hub port v) s = .next t →
    Frame actParts actRegs s t) ∧
  (∀ (slot : Fin 4) (hub : Fin 16) (port : Fin 16) (mask : Fin 256) (s t : State), exec (.setPortRemoteWakeMask slot hub port mask) s = .next t →
    Frame actParts actRegs s t) ∧
  (∀ (slot : Fin 4) (hub : Fin 16) (port : Fin 16) (s t : State), exec (.ssPortReset slot hub port) s = .next t →
    Frame actParts (actRegs.append [.SSH_CTX]) s t) ∧
  (∀ (slot : Fin 4) (hub : Fin 16) (port : Fin 16) (s t : State), exec (.bhPortReset slot hub port) s = .next t →
    Frame actParts (actRegs.append [.SSH_CTX]) s t) ∧
  (∀ (slot : Fin 4) (hub : Fin 16) (port : Fin 16) (on : Bool) (s t : State), exec (.forceLinkpmAccept slot hub port on) s = .next t →
    Frame actParts actRegs s t) ∧
  (∀ (src : Option CtrlHdr) (slot : Fin 4) (hub : Fin 16) (port : Fin 16) (words : List Nat) (s t : State), exec (.hubRequestResult src slot hub port words) s = .next t →
    Frame (raiseParts.append [.hubWaits, .epMem]) (raiseRegs.append [.PBF_ECC_COUNT, .GLK_ERR]) s t) ∧
  (∀ (s t : State), exec .kvmButtonPress s = .next t →
    Frame (raiseParts.append [.tt, .holders, .handoff]) (rampRegs.append [.SSH_PORT_LPM, .SSH_DROPS, .HSH_PORT_EVT, .TTA_TT, .TTA_EVT, .UPP_HANDOFF, .UPP_EVT, .DRV_FLOWS, .TCP_EVT]) s t) ∧
  (∀ (i : Fin 16) (s t : State), exec (.handoffQuietEnd i) s = .next t →
    Frame (raiseParts.append [.tt, .holders, .handoff]) (rampRegs.append [.SSH_PORT_LPM, .SSH_DROPS, .HSH_PORT_EVT, .TTA_TT, .TTA_EVT, .UPP_HANDOFF, .UPP_EVT, .DRV_FLOWS, .TCP_EVT]) s t)

/-- What a command of register accesses and mailboxes leaves unchanged when exec answers a next state: every part of the state
outside its list, every register outside its list, the waiting commands and the cycle count; what was put on the balls
stays, and the register list keeps its canonical form. For these, which read or write a register that an operand, a plan or
an earlier stalled access names, any register may change and the frame speaks of the parts only: CHIP_RESET_REQUEST,
FORCE_COAST, SNAP, YRD_NOW_LO_READ, TML_READ, TML_WRITE, TML_DELETE, TTA_CLEAR_BUFFER, TTA_RESET_TT, TTA_STOP_TT, TTA_START,
LINK_RETRAIN, BELL_RING_REQUEST, TLM_ENERGY_LO_READ, TLM_ECLR_WRITE, PPW_CLEAR_WRITE, PDC_MYVOTE_WRITE,
RESTING_DOMAIN_ACCESS, AUTO_WAKE_ACCESS, AUTO_WAKE_WRITE, INBOUND_POST, OUTBOUND_ACK, MBX_LOCK_READ, MBX_LOCK_WRITE,
QUEUE_DATA_READ, QUEUE_RESET, PMU_CLEAR, FLT_CLEAR_WRITE, FORCE_FAULT, CHECKER_INVERT, EXPERT_KEY_WRITE, REGISTER_WRITE. -/
def Obligations.FrameAccess : Prop :=
  (∀ (m : Fin 16) (v : Fin 65536) (s t : State), exec (.chipResetRequest m v) s = .next t →
    Frame ((raiseParts.append replyParts).append [.yards, .bud, .tt, .ttOp, .proxyHeld, .epMem]) [.any] s t) ∧
  (∀ (m : Fin 16) (mask : Fin 16) (s t : State), exec (.forceCoast m mask) s = .next t →
    Frame ((raiseParts.append replyParts).append [.yards, .bud, .tt, .ttOp, .proxyHeld, .epMem]) [.any] s t) ∧
  (∀ (m : Fin 16) (s t : State), exec (.snap m) s = .next t →
    Frame ((raiseParts.append replyParts).append [.yards, .bud, .tt, .ttOp, .proxyHeld, .epMem]) [.any] s t) ∧
  (∀ (m : Fin 16) (y : Fin 5) (s t : State), exec (.yrdNowLoRead m y) s = .next t →
    Frame ((raiseParts.append replyParts).append [.yards, .bud, .tt, .ttOp, .proxyHeld, .epMem]) [.any] s t) ∧
  (∀ (m : Fin 16) (i : Fin 256) (s t : State), exec (.tmlRead m i) s = .next t →
    Frame ((raiseParts.append replyParts).append [.yards, .bud, .tt, .ttOp, .proxyHeld, .epMem]) [.any] s t) ∧
  (∀ (m : Fin 16) (i : Fin 256) (s t : State), exec (.tmlWrite m i) s = .next t →
    Frame ((raiseParts.append replyParts).append [.yards, .bud, .tt, .ttOp, .proxyHeld, .epMem]) [.any] s t) ∧
  (∀ (m : Fin 16) (i : Fin 256) (s t : State), exec (.tmlDelete m i) s = .next t →
    Frame ((raiseParts.append replyParts).append [.yards, .bud, .tt, .ttOp, .proxyHeld, .epMem]) [.any] s t) ∧
  (∀ (m : Fin 16) (n : Stall) (dev : Fin 128) (ep : Fin 16) (dirIn : Bool) (bulk : Bool) (s t : State), exec (.ttaClearBuffer m n dev ep dirIn bulk) s = .next t →
    Frame ((raiseParts.append replyParts).append [.yards, .bud, .tt, .ttOp, .proxyHeld, .epMem]) [.any] s t) ∧
  (∀ (m : Fin 16) (n : Stall) (s t : State), exec (.ttaResetTt m n) s = .next t →
    Frame ((raiseParts.append replyParts).append [.yards, .bud, .tt, .ttOp, .proxyHeld, .epMem]) [.any] s t) ∧
  (∀ (m : Fin 16) (n : Stall) (s t : State), exec (.ttaStopTt m n) s = .next t →
    Frame ((raiseParts.append replyParts).append [.yards, .bud, .tt, .ttOp, .proxyHeld, .epMem]) [.any] s t) ∧
  (∀ (m : Fin 16) (n : Stall) (s t : State), exec (.ttaStart m n) s = .next t →
    Frame ((raiseParts.append replyParts).append [.yards, .bud, .tt, .ttOp, .proxyHeld, .epMem]) [.any] s t) ∧
  (∀ (m : Fin 16) (mask : Fin 16) (s t : State), exec (.linkRetrain m mask) s = .next t →
    Frame ((raiseParts.append replyParts).append [.yards, .bud, .tt, .ttOp, .proxyHeld, .epMem]) [.any] s t) ∧
  (∀ (m : Fin 16) (mask : Fin 16) (s t : State), exec (.bellRingRequest m mask) s = .next t →
    Frame ((raiseParts.append replyParts).append [.yards, .bud, .tt, .ttOp, .proxyHeld, .epMem]) [.any] s t) ∧
  (∀ (c : CtrlHdr) (reply : Bool) (seq : Fin 16) (words : List (BitVec 32)) (s t : State), exec (.proxyMessageReceived c reply seq words) s = .next t →
    Frame (raiseParts.append [.proxyHeld]) (raiseRegs.append [.PBF_ECC_COUNT, .GLK_ERR, .MBX_IN_W, .MBX_IN_CTRL, .MBX_DB]) s t) ∧
  (∀ (stored : Bool) (s t : State), exec (.proxyTake stored) s = .next t →
    Frame [.obs, .pdc, .glk, .fab, .mbx] ((wakeRegs.append pumpRegs).append [.MBX_OUT_W, .MBX_OUT_CTRL, .MBX_DB, .MBX_STATUS]) s t) ∧
  (∀ (m : Fin 16) (n : Channel) (s t : State), exec (.tlmEnergyLoRead m n) s = .next t →
    Frame ((raiseParts.append replyParts).append [.yards, .bud, .tt, .ttOp, .proxyHeld, .epMem]) [.any] s t) ∧
  (∀ (m : Fin 16) (mask : Fin 131072) (s t : State), exec (.tlmEclrWrite m mask) s = .next t →
    Frame ((raiseParts.append replyParts).append [.yards, .bud, .tt, .ttOp, .proxyHeld, .epMem]) [.any] s t) ∧
  (∀ (m : Fin 16) (mask : Fin 131072) (s t : State), exec (.ppwClearWrite m mask) s = .next t →
    Frame ((raiseParts.append replyParts).append [.yards, .bud, .tt, .ttOp, .proxyHeld, .epMem]) [.any] s t) ∧
  (∀ (m : Fin 16) (d : Fin 12) (v : Fin 4) (s t : State), exec (.pdcMyvoteWrite m d v) s = .next t →
    Frame ((raiseParts.append replyParts).append [.yards, .bud, .tt, .ttOp, .proxyHeld, .epMem]) [.any] s t) ∧
  (∀ (m : Fin 16) (addr : BitVec 32) (data : Option (BitVec 32)) (s t : State), exec (.restingDomainAccess m addr data) s = .next t →
    Frame ((raiseParts.append replyParts).append [.yards, .bud, .tt, .ttOp, .proxyHeld, .epMem]) [.any] s t) ∧
  (∀ (m : Fin 16) (addr : BitVec 32) (data : Option (BitVec 32)) (s t : State), exec (.autoWakeAccess m addr data) s = .next t →
    Frame ((raiseParts.append replyParts).append [.yards, .bud, .tt, .ttOp, .proxyHeld, .epMem]) [.any] s t) ∧
  (∀ (m : Fin 16) (on : Bool) (s t : State), exec (.autoWakeWrite m on) s = .next t →
    Frame ((raiseParts.append replyParts).append [.yards, .bud, .tt, .ttOp, .proxyHeld, .epMem]) [.any] s t) ∧
  (∀ (m : Fin 16) (c : Fin 12) (reply : Bool) (seq : Fin 16) (count : Fin 32) (s t : State), exec (.inboundPost m c reply seq count) s = .next t →
    Frame ((raiseParts.append replyParts).append [.yards, .bud, .tt, .ttOp, .proxyHeld, .epMem]) [.any] s t) ∧
  (∀ (s t : State), exec .inboundPoll s = .next t → Frame [.mbx] [] s t) ∧
  (∀ (m : Fin 16) (c : Fin 12) (s t : State), exec (.outboundAck m c) s = .next t →
    Frame ((raiseParts.append replyParts).append [.yards, .bud, .tt, .ttOp, .proxyHeld, .epMem]) [.any] s t) ∧
  (∀ (c : Fin 12) (s t : State), exec (.outboundTimeout c) s = .next t →
    Frame [.obs, .pdc, .mbx] (wakeRegs.append [.MBX_OUT_W, .MBX_OUT_CTRL, .MBX_DB, .MBX_STATUS]) s t) ∧
  (∀ (m : Fin 16) (i : Fin 16) (s t : State), exec (.mbxLockRead m i) s = .next t →
    Frame ((raiseParts.append replyParts).append [.yards, .bud, .tt, .ttOp, .proxyHeld, .epMem]) [.any] s t) ∧
  (∀ (m : Fin 16) (i : Fin 16) (w : BitVec 32) (s t : State), exec (.mbxLockWrite m i w) s = .next t →
    Frame ((raiseParts.append replyParts).append [.yards, .bud, .tt, .ttOp, .proxyHeld, .epMem]) [.any] s t) ∧
  (∀ (m : Fin 16) (q : Fin 4) (s t : State), exec (.queueDataRead m q) s = .next t →
    Frame ((raiseParts.append replyParts).append [.yards, .bud, .tt, .ttOp, .proxyHeld, .epMem]) [.any] s t) ∧
  (∀ (m : Fin 16) (q : Fin 4) (s t : State), exec (.queueReset m q) s = .next t →
    Frame ((raiseParts.append replyParts).append [.yards, .bud, .tt, .ttOp, .proxyHeld, .epMem]) [.any] s t) ∧
  (∀ (m : Fin 16) (i : Fin 8) (s t : State), exec (.pmuClear m i) s = .next t →
    Frame ((raiseParts.append replyParts).append [.yards, .bud, .tt, .ttOp, .proxyHeld, .epMem]) [.any] s t) ∧
  (∀ (m : Fin 16) (src : Fin 128) (all : Bool) (qual : Fin 256) (s t : State), exec (.fltClearWrite m src all qual) s = .next t →
    Frame ((raiseParts.append replyParts).append [.yards, .bud, .tt, .ttOp, .proxyHeld, .epMem]) [.any] s t) ∧
  (∀ (m : Fin 16) (src : Fin 128) (qual : Fin 256) (s t : State), exec (.forceFault m src qual) s = .next t →
    Frame ((raiseParts.append replyParts).append [.yards, .bud, .tt, .ttOp, .proxyHeld, .epMem]) [.any] s t) ∧
  (∀ (m : Fin 16) (mask : Fin 4096) (s t : State), exec (.checkerInvert m mask) s = .next t →
    Frame ((raiseParts.append replyParts).append [.yards, .bud, .tt, .ttOp, .proxyHeld, .epMem]) [.any] s t) ∧
  (∀ (m : Fin 16) (k : Fin 2) (v : Fin 65536) (s t : State), exec (.expertKeyWrite m k v) s = .next t →
    Frame ((raiseParts.append replyParts).append [.yards, .bud, .tt, .ttOp, .proxyHeld, .epMem]) [.any] s t) ∧
  (∀ (m : Fin 16) (addr : BitVec 32) (w : BitVec 32) (s t : State), exec (.registerWrite m addr w) s = .next t →
    Frame ((raiseParts.append replyParts).append [.yards, .bud, .tt, .ttOp, .proxyHeld, .epMem]) [.any] s t)

/-- What a command of the tack rooms and the sideband targets leaves unchanged when exec answers a next state: every part of the
state outside its list, every register outside its list, the waiting commands and the cycle count; what was put on the balls
stays, and the register list keeps its canonical form. For these, which read or write a register that an operand, a plan or
an earlier stalled access names, any register may change and the frame speaks of the parts only: MBX_SEND,
MBX_SEND_COMPLETE, MBX_RECV, MBX_ACK, REG_READ, REG_WRITE, REG_WRITE_FIXED, I2C_WRITE, I2C_READ, SPI_WRITE, SPI_READ. -/
def Obligations.FrameTackRoom : Prop :=
  (∀ (u : Fin 2) (s t : State), exec (.billboardTimeout u) s = .next t →
    Frame [.mirror, .tack] [.TKR_FUNC, .TKR_EVT] s t) ∧
  (∀ (u : Fin 2) (s t : State), exec (.billboardReconnect u) s = .next t →
    Frame [.mirror, .tack] [.TCP_DP, .TKR_FUNC] s t) ∧
  (∀ (slot : Fin 4) (wValue wIndex wLength : BitVec 16) (ctrl : BitVec 32) (words : List (BitVec 32)) (s t : State),
    exec (.mbxSend slot wValue wIndex wLength ctrl words) s = .next t →
    Frame ((raiseParts.append replyParts).append [.yards, .bud, .tt, .ttOp, .proxyHeld, .epMem]) [.any] s t) ∧
  (∀ (slot : Fin 4) (s t : State), exec (.mbxSendComplete slot) s = .next t →
    Frame ((raiseParts.append replyParts).append [.yards, .bud, .tt, .ttOp, .proxyHeld, .epMem]) [.any] s t) ∧
  (∀ (slot : Fin 4) (s t : State), exec (.msgNakTimeout slot) s = .next t → Frame [.tack] [.TKR_EVT] s t) ∧
  (∀ (slot : Fin 4) (wValue wIndex wLength : BitVec 16) (s t : State), exec (.mbxRecv slot wValue wIndex wLength) s = .next t →
    Frame ((raiseParts.append replyParts).append [.yards, .bud, .tt, .ttOp, .proxyHeld, .epMem]) [.any] s t) ∧
  (∀ (slot : Fin 4) (wValue wIndex wLength : BitVec 16) (s t : State), exec (.mbxAck slot wValue wIndex wLength) s = .next t →
    Frame ((raiseParts.append replyParts).append [.yards, .bud, .tt, .ttOp, .proxyHeld, .epMem]) [.any] s t) ∧
  (∀ (slot : Fin 4) (addr : BitVec 32) (len : Fin 65536) (s t : State), exec (.regRead slot addr len) s = .next t →
    Frame ((raiseParts.append replyParts).append [.yards, .bud, .tt, .ttOp, .proxyHeld, .epMem]) [.any] s t) ∧
  (∀ (slot : Fin 4) (addr : BitVec 32) (wLength : BitVec 16) (words : List (BitVec 32)) (s t : State), exec (.regWrite slot addr wLength words) s = .next t →
    Frame ((raiseParts.append replyParts).append [.yards, .bud, .tt, .ttOp, .proxyHeld, .epMem]) [.any] s t) ∧
  (∀ (slot : Fin 4) (addr : BitVec 32) (wLength : BitVec 16) (words : List (BitVec 32)) (s t : State), exec (.regWriteFixed slot addr wLength words) s = .next t →
    Frame ((raiseParts.append replyParts).append [.yards, .bud, .tt, .ttOp, .proxyHeld, .epMem]) [.any] s t) ∧
  (∀ (slot : Fin 4) (wValue wIndex wLength : BitVec 16) (s t : State), exec (.queueSelect slot wValue wIndex wLength) s = .next t →
    Frame (wakeParts.append [.tack, .epMem]) [.TKR_FUNC, .OBS_Q_CTRL] s t) ∧
  (∀ (slot : Fin 4) (ack : Bool) (s t : State), exec (.ep1Report slot ack) s = .next t →
    Frame (wakeParts.append [.pred, .hs, .mirror, .tack, .epMem]) (wakeRegs.append [.TML_PRED, .HSH_EVT, .TKR_FUNC]) s t) ∧
  (∀ (slot : Fin 4) (s t : State), exec (.ep2PacketAck slot) s = .next t →
    Frame [.obs, .epMem] recordRegs s t) ∧
  (∀ (addr : BitVec 24) (bytes : List (BitVec 8)) (s t : State), exec (.i2cWrite addr bytes) s = .next t →
    Frame ((raiseParts.append replyParts).append [.yards, .bud, .tt, .ttOp, .proxyHeld, .sbTimedOut, .epMem]) [.any] s t) ∧
  (∀ (addr : BitVec 24) (n : Fin 65536) (s t : State), exec (.i2cRead addr n) s = .next t →
    Frame ((raiseParts.append replyParts).append [.yards, .bud, .tt, .ttOp, .proxyHeld, .sbTimedOut, .epMem]) [.any] s t) ∧
  (∀ (s t : State), exec .smbusAlertResponse s = .next t → Frame [] [] s t) ∧
  (∀ (addr : BitVec 24) (bytes : List (BitVec 8)) (s t : State), exec (.spiWrite addr bytes) s = .next t →
    Frame ((raiseParts.append replyParts).append [.yards, .bud, .tt, .ttOp, .proxyHeld, .sbTimedOut, .epMem]) [.any] s t) ∧
  (∀ (addr : BitVec 24) (n : Fin 65536) (s t : State), exec (.spiRead addr n) s = .next t →
    Frame ((raiseParts.append replyParts).append [.yards, .bud, .tt, .ttOp, .proxyHeld, .sbTimedOut, .epMem]) [.any] s t) ∧
  (∀ (s t : State), exec .spiStatus s = .next t → Frame [] [] s t) ∧
  (∀ (spi : Bool) (s t : State), exec (.sidebandStallTimeout spi) s = .next t →
    Frame [.pdc, .sbTimedOut] [.TKR_EVT] s t) ∧
  (∀ (q : Fin 4) (s t : State), exec (.queueTimeout q) s = .next t →
    Frame [.obs, .pdc, .tack, .mbx] (wakeRegs.append [.MBX_OUT_W, .MBX_OUT_CTRL, .MBX_DB, .MBX_STATUS]) s t) ∧
  (∀ (slot : Fin 4) (hub : Option (Fin 16)) (ss : Bool) (r : StdReq) (s t : State), exec (.standardDeviceRequest slot hub ss r) s = .next t →
    Frame [.pdc, .ss, .glk, .fab, .tack, .epMem] (pumpRegs.append [.SSH_CTX, .SSH_USP_LPM, .HSH_ENG, .HSH_PORT, .UPP_PADDOCK, .TKR_FUNC]) s t)

/-- What a command of the messages and the plan loader's commands leaves unchanged when exec answers a next state: every part of
the state outside its list, every register outside its list, the waiting commands and the cycle count; what was put on the
balls stays, and the register list keeps its canonical form. For these, which read or write a register that an operand, a
plan or an earlier stalled access names, any register may change and the frame speaks of the parts only: PLAN_BEGIN,
PLAN_CHUNK, PLAN_COMMIT, PLAN_ACTIVATE, PORT_ASSIGN, KVM_SET, MESSAGE_CONSUME, INFO, MODE_GET, PORT_STATUS, PORT_POWER,
PD_STATUS, PD_POLICY, SOURCE_CAPS_SET, TLM_READ, ENERGY_READ, BUDGET_SET, FABRIC_STATUS, FABRIC_RESEED, QUEUE_CONFIG,
PMU_CONFIG, FAULT_STATUS, FAULT_CLEAR, DUMP_READ, SESSION_OPEN, SESSION_CLOSE, REG_PEEK, REG_POKE, TIMELINE_ADD,
TIMELINE_DEL. -/
def Obligations.FrameMessages : Prop :=
  (∀ (c : Fin 12) (seq : Fin 16) (words : List (BitVec 32)) (s t : State), exec (.planBegin c seq words) s = .next t →
    Frame ((raiseParts.append replyParts).append [.yards, .bud, .pln, .tt, .ttOp, .holders, .handoff, .proxyHeld, .epMem]) [.any] s t) ∧
  (∀ (s t : State), exec .stagingEraseDone s = .next t → Frame replyParts (replyRegs.append [.PLN_STATUS]) s t) ∧
  (∀ (c : Fin 12) (seq : Fin 16) (words : List (BitVec 32)) (s t : State), exec (.planChunk c seq words) s = .next t →
    Frame ((raiseParts.append replyParts).append [.yards, .bud, .pln, .tt, .ttOp, .holders, .handoff, .proxyHeld, .epMem]) [.any] s t) ∧
  (∀ (c : Fin 12) (seq : Fin 16) (words : List (BitVec 32)) (s t : State), exec (.planCommit c seq words) s = .next t →
    Frame ((raiseParts.append replyParts).append [.yards, .bud, .pln, .tt, .ttOp, .holders, .handoff, .proxyHeld, .epMem]) [.any] s t) ∧
  (∀ (ok : Bool) (s t : State), exec (.commitStepDone ok) s = .next t →
    Frame ((raiseParts.append replyParts).append [.pln]) ((raiseRegs.append replyRegs).append [.PLN_STATUS, .PLN_SLOT_SEQ]) s t) ∧
  (∀ (c : Fin 12) (seq : Fin 16) (words : List (BitVec 32)) (reports : List (Nat × List (BitVec 8))) (s t : State), exec (.planActivate c seq words reports) s = .next t →
    Frame ((raiseParts.append replyParts).append [.yards, .bud, .pln, .tt, .ttOp, .holders, .handoff, .proxyHeld, .epMem]) [.any] s t) ∧
  (∀ (s t : State), exec .activateReplyWaitEnd s = .next t →
    Frame (replyParts.append [.pat, .pred, .chan, .tlm, .tcp, .ss, .pln, .hs, .glk, .fab, .port, .mirror, .tml, .tack, .tmlOld]) ((replyRegs.append pumpRegs).append [.PLN_STATUS, .TML_PRED, .TML_PAT, .SSH_CTX, .SSH_PORT, .SSH_PORT_EVT, .PBF_STATUS, .PBF_SHARED_FREE, .PBF_BANK_FREE, .PBF_USED, .HSH_ENG, .HSH_PORT, .HSH_CARRY, .UPP_PADDOCK, .DRV_BARN, .DRV_ROUTE, .DRV_REROUTE, .DRV_EVT, .TCP_PORT, .TCP_CONTRACT, .TCP_VSET, .TCP_CABLE, .TCP_DP, .PPW_LIMIT, .PPW_STATUS, .BUD_PORT, .PDC_CTRL, .PDC_XTAL, .TKR_FUNC, .TOP_MODE]) s t) ∧
  (∀ (c : CtrlHdr) (revoke : Fin 16) (raise : Bool) (s t : State), exec (.memberActivateOrder c revoke raise) s = .next t →
    Frame (raiseParts.append [.pln]) (raiseRegs.append [.PLN_STATUS, .PBF_ECC_COUNT, .GLK_ERR]) s t) ∧
  (∀ (s t : State), exec .otpWriteDone s = .next t → Frame [.otp, .pln] [] s t) ∧
  (∀ (s t : State), exec .uploadIdleTimeout s = .next t →
    Frame (replyParts.append [.pln]) (replyRegs.append [.PLN_STATUS]) s t) ∧
  (∀ (c : Fin 12) (seq : Fin 16) (words : List (BitVec 32)) (s t : State), exec (.portAssign c seq words) s = .next t →
    Frame ((raiseParts.append replyParts).append [.yards, .bud, .pln, .tt, .ttOp, .holders, .handoff, .proxyHeld, .epMem]) [.any] s t) ∧
  (∀ (c : Fin 12) (seq : Fin 16) (words : List (BitVec 32)) (s t : State), exec (.kvmSet c seq words) s = .next t →
    Frame ((raiseParts.append replyParts).append [.yards, .bud, .pln, .tt, .ttOp, .holders, .handoff, .proxyHeld, .epMem]) [.any] s t) ∧
  (∀ (i : Fin 16) (ms : Fin 1024) (s t : State), exec (.handoffStepDone i ms) s = .next t →
    Frame ((actParts.append replyParts).append [.handoff]) (actRegs.append replyRegs) s t) ∧
  (∀ (c : Fin 12) (reports : List (Nat × List (BitVec 8))) (s t : State), exec (.messageConsume c reports) s = .next t →
    Frame ((raiseParts.append replyParts).append [.yards, .bud, .pln, .tt, .ttOp, .holders, .handoff, .pass, .proxyHeld, .epMem]) [.any] s t) ∧
  (∀ (slot : Fin 4) (bytes : List (BitVec 8)) (s t : State), exec (.ep3BulkData slot bytes) s = .next t →
    Frame (replyParts.append [.pln, .tack, .epMem]) replyRegs s t) ∧
  (∀ (c : Fin 12) (seq : Fin 16) (words : List (BitVec 32)) (s t : State), exec (.info c seq words) s = .next t →
    Frame ((raiseParts.append replyParts).append [.yards, .bud, .pln, .tt, .ttOp, .holders, .handoff, .proxyHeld, .epMem]) [.any] s t) ∧
  (∀ (c : Fin 12) (seq : Fin 16) (words : List (BitVec 32)) (s t : State), exec (.modeGet c seq words) s = .next t →
    Frame ((raiseParts.append replyParts).append [.yards, .bud, .pln, .tt, .ttOp, .holders, .handoff, .proxyHeld, .epMem]) [.any] s t) ∧
  (∀ (c : Fin 12) (seq : Fin 16) (words : List (BitVec 32)) (s t : State), exec (.portStatus c seq words) s = .next t →
    Frame ((raiseParts.append replyParts).append [.yards, .bud, .pln, .tt, .ttOp, .holders, .handoff, .proxyHeld, .epMem]) [.any] s t) ∧
  (∀ (c : Fin 12) (seq : Fin 16) (words : List (BitVec 32)) (s t : State), exec (.portPower c seq words) s = .next t →
    Frame ((raiseParts.append replyParts).append [.yards, .bud, .pln, .tt, .ttOp, .holders, .handoff, .proxyHeld, .epMem]) [.any] s t) ∧
  (∀ (n : Channel) (s t : State), exec (.portPowerCycleRelease n) s = .next t → Frame raiseParts rampRegs s t) ∧
  (∀ (c : Fin 12) (seq : Fin 16) (words : List (BitVec 32)) (s t : State), exec (.pdStatus c seq words) s = .next t →
    Frame ((raiseParts.append replyParts).append [.yards, .bud, .pln, .tt, .ttOp, .holders, .handoff, .proxyHeld, .epMem]) [.any] s t) ∧
  (∀ (c : Fin 12) (seq : Fin 16) (words : List (BitVec 32)) (s t : State), exec (.pdPolicy c seq words) s = .next t →
    Frame ((raiseParts.append replyParts).append [.yards, .bud, .pln, .tt, .ttOp, .holders, .handoff, .proxyHeld, .epMem]) [.any] s t) ∧
  (∀ (c : Fin 12) (seq : Fin 16) (words : List (BitVec 32)) (s t : State), exec (.sourceCapsSet c seq words) s = .next t →
    Frame ((raiseParts.append replyParts).append [.yards, .bud, .pln, .tt, .ttOp, .holders, .handoff, .proxyHeld, .epMem]) [.any] s t) ∧
  (∀ (c : Fin 12) (seq : Fin 16) (words : List (BitVec 32)) (s t : State), exec (.tlmRead c seq words) s = .next t →
    Frame ((raiseParts.append replyParts).append [.yards, .bud, .pln, .tt, .ttOp, .holders, .handoff, .proxyHeld, .epMem]) [.any] s t) ∧
  (∀ (c : Fin 12) (seq : Fin 16) (words : List (BitVec 32)) (s t : State), exec (.energyRead c seq words) s = .next t →
    Frame ((raiseParts.append replyParts).append [.yards, .bud, .pln, .tt, .ttOp, .holders, .handoff, .proxyHeld, .epMem]) [.any] s t) ∧
  (∀ (c : Fin 12) (seq : Fin 16) (words : List (BitVec 32)) (s t : State), exec (.budgetSet c seq words) s = .next t →
    Frame ((raiseParts.append replyParts).append [.yards, .bud, .pln, .tt, .ttOp, .holders, .handoff, .proxyHeld, .epMem]) [.any] s t) ∧
  (∀ (c : Fin 12) (seq : Fin 16) (words : List (BitVec 32)) (s t : State), exec (.fabricStatus c seq words) s = .next t →
    Frame ((raiseParts.append replyParts).append [.yards, .bud, .pln, .tt, .ttOp, .holders, .handoff, .proxyHeld, .epMem]) [.any] s t) ∧
  (∀ (c : Fin 12) (seq : Fin 16) (words : List (BitVec 32)) (s t : State), exec (.fabricReseed c seq words) s = .next t →
    Frame ((raiseParts.append replyParts).append [.yards, .bud, .pln, .tt, .ttOp, .holders, .handoff, .proxyHeld, .epMem]) [.any] s t) ∧
  (∀ (c : Fin 12) (seq : Fin 16) (words : List (BitVec 32)) (s t : State), exec (.queueConfig c seq words) s = .next t →
    Frame ((raiseParts.append replyParts).append [.yards, .bud, .pln, .tt, .ttOp, .holders, .handoff, .proxyHeld, .epMem]) [.any] s t) ∧
  (∀ (c : Fin 12) (seq : Fin 16) (words : List (BitVec 32)) (s t : State), exec (.pmuConfig c seq words) s = .next t →
    Frame ((raiseParts.append replyParts).append [.yards, .bud, .pln, .tt, .ttOp, .holders, .handoff, .proxyHeld, .epMem]) [.any] s t) ∧
  (∀ (c : Fin 12) (seq : Fin 16) (words : List (BitVec 32)) (s t : State), exec (.faultStatus c seq words) s = .next t →
    Frame ((raiseParts.append replyParts).append [.yards, .bud, .pln, .tt, .ttOp, .holders, .handoff, .proxyHeld, .epMem]) [.any] s t) ∧
  (∀ (c : Fin 12) (seq : Fin 16) (words : List (BitVec 32)) (s t : State), exec (.faultClear c seq words) s = .next t →
    Frame ((raiseParts.append replyParts).append [.yards, .bud, .pln, .tt, .ttOp, .holders, .handoff, .proxyHeld, .epMem]) [.any] s t) ∧
  (∀ (c : Fin 12) (seq : Fin 16) (words : List (BitVec 32)) (s t : State), exec (.dumpRead c seq words) s = .next t →
    Frame ((raiseParts.append replyParts).append [.yards, .bud, .pln, .tt, .ttOp, .holders, .handoff, .proxyHeld, .epMem]) [.any] s t) ∧
  (∀ (c : Fin 12) (seq : Fin 16) (words : List (BitVec 32)) (s t : State), exec (.sessionOpen c seq words) s = .next t →
    Frame ((raiseParts.append replyParts).append [.yards, .bud, .pln, .tt, .ttOp, .holders, .handoff, .proxyHeld, .epMem]) [.any] s t) ∧
  (∀ (c : Fin 12) (seq : Fin 16) (words : List (BitVec 32)) (s t : State), exec (.sessionClose c seq words) s = .next t →
    Frame ((raiseParts.append replyParts).append [.yards, .bud, .pln, .tt, .ttOp, .holders, .handoff, .proxyHeld, .epMem]) [.any] s t) ∧
  (∀ (c : Fin 12) (s t : State), exec (.sessionIdleTimeout c) s = .next t → Frame replyParts replyRegs s t) ∧
  (∀ (c : Fin 12) (seq : Fin 16) (words : List (BitVec 32)) (s t : State), exec (.regPeek c seq words) s = .next t →
    Frame ((raiseParts.append replyParts).append [.yards, .bud, .pln, .tt, .ttOp, .holders, .handoff, .proxyHeld, .epMem]) [.any] s t) ∧
  (∀ (c : Fin 12) (seq : Fin 16) (words : List (BitVec 32)) (s t : State), exec (.regPoke c seq words) s = .next t →
    Frame ((raiseParts.append replyParts).append [.yards, .bud, .pln, .tt, .ttOp, .holders, .handoff, .proxyHeld, .epMem]) [.any] s t) ∧
  (∀ (c : Fin 12) (seq : Fin 16) (words : List (BitVec 32)) (s t : State), exec (.timelineAdd c seq words) s = .next t →
    Frame ((raiseParts.append replyParts).append [.yards, .bud, .pln, .tt, .ttOp, .holders, .handoff, .proxyHeld, .epMem]) [.any] s t) ∧
  (∀ (c : Fin 12) (seq : Fin 16) (words : List (BitVec 32)) (s t : State), exec (.timelineDel c seq words) s = .next t →
    Frame ((raiseParts.append replyParts).append [.yards, .bud, .pln, .tt, .ttOp, .holders, .handoff, .proxyHeld, .epMem]) [.any] s t)
end

