-- ==== Sys2Proof/Laws/Ops.lean ====
section
/-!
SUPPORT. What the register operations do: a word or field written reads back, every other word and field stays, and the
register list keeps its canonical form.
-/
namespace Sys2Proof.Machine

/-! ## The sparse list -/

theorem getCell_eq_none_of_lt {a : Nat} : ∀ {l : List (Nat × Word)}, (∀ e ∈ l.head?, a < e.1) → getCell a l = none
  | [], _ => rfl
  | (b, v) :: t, h => by simp [getCell, h (b, v) (by simp)]

theorem getCell_dropWhile {a c : Nat} (h : a < c) :
    ∀ l : List (Nat × Word), getCell c (l.dropWhile fun e => e.1 ≤ a) = getCell c l
  | [] => rfl
  | (b, v) :: t => by
    by_cases hb : b ≤ a
    · have hc : ¬ c < b := by omega
      have hc' : c ≠ b := by omega
      simp [List.dropWhile, hb, getCell, hc, hc', getCell_dropWhile h t]
    · simp [List.dropWhile, hb]

theorem head_dropWhile {a : Nat} : ∀ l : List (Nat × Word), ∀ e ∈ (l.dropWhile fun e => e.1 ≤ a).head?, a < e.1
  | [], e, h => by simp at h
  | (b, v) :: t, e, h => by
    by_cases hb : b ≤ a
    · simp [List.dropWhile, hb] at h; exact head_dropWhile t e (by simpa using h)
    · simp [List.dropWhile, hb] at h; subst h; simpa using hb

/-- The cell just written holds the word, or reads as unlisted when it is the default. -/
theorem getCell_setCell_same (a : Nat) (w r : Word) :
    ∀ l : List (Nat × Word), (getCell a (setCell a w r l)).getD r = w
  | [] => by by_cases h : w = r <;> simp [setCell, getCell, h]
  | (b, v) :: t => by
    by_cases h1 : a < b
    · by_cases h : w = r <;> simp [setCell, getCell, h1, h]
    · by_cases h2 : a = b
      · subst h2
        by_cases h : w = r
        · simp [setCell, h, getCell_eq_none_of_lt (head_dropWhile t)]
        · simp [setCell, getCell, h]
      · simp [setCell, getCell, h1, h2, getCell_setCell_same a w r t]

/-- Every other cell stays. -/
theorem getCell_setCell_ne {a c : Nat} (w r : Word) (h : c ≠ a) :
    ∀ l : List (Nat × Word), getCell c (setCell a w r l) = getCell c l
  | [] => by
    by_cases hw : w = r
    · simp [setCell, hw]
    · simp [setCell, getCell, hw, h]
  | (b, v) :: t => by
    by_cases h1 : a < b
    · by_cases hw : w = r
      · simp [setCell, h1, hw]
      · by_cases hc : c < a
        · have : c < b := by omega
          simp [setCell, getCell, h1, hw, hc, this]
        · simp [setCell, getCell, h1, hw, hc, h]
    · by_cases h2 : a = b
      · subst h2
        by_cases hw : w = r
        · simp only [setCell, lt_irrefl, if_false, if_true, hw, getCell, h]
          by_cases hc : c < a
          · rw [getCell_eq_none_of_lt]
            · simp [hc]
            · intro e he; have := head_dropWhile t e he; omega
          · simp [hc, getCell_dropWhile (show a < c by omega)]
        · simp [setCell, getCell, hw, h]
      · simp [setCell, getCell, h1, h2, getCell_setCell_ne w r h t]

theorem regsWf_mono : ∀ {l : List (Nat × Word)} {lo lo' : Nat}, lo' ≤ lo → regsWf lo l = true → regsWf lo' l = true
  | [], _, _, _, _ => rfl
  | (a, w) :: t, lo, lo', h, hl => by
    simp only [regsWf, Bool.and_eq_true, decide_eq_true_eq] at hl ⊢
    exact ⟨⟨by omega, hl.1.2⟩, hl.2⟩

/-- Writing a cell keeps the canonical form. -/
theorem regsWf_setCell (a : Nat) (w : Word) :
    ∀ {l : List (Nat × Word)} {lo : Nat}, lo ≤ a → regsWf lo l = true → regsWf lo (setCell a w (resetWord a) l) = true
  | [], lo, h, _ => by
    by_cases hw : w = resetWord a <;> simp [setCell, regsWf, hw, h]
  | (b, v) :: t, lo, h, hl => by
    simp only [regsWf, Bool.and_eq_true, decide_eq_true_eq] at hl
    obtain ⟨⟨h1, h2⟩, h3⟩ := hl
    by_cases hab : a < b
    · by_cases hw : w = resetWord a
      · simp [setCell, hab, hw, regsWf, h1, h2, h3]
      · simp [setCell, hab, hw, regsWf, h, h2, h3]
    · by_cases he : a = b
      · subst he
        by_cases hw : w = resetWord a
        · have : t.dropWhile (fun e => e.1 ≤ a) = t := by
            cases t with
            | nil => rfl
            | cons e u =>
              simp only [regsWf, Bool.and_eq_true, decide_eq_true_eq] at h3
              have : ¬ e.1 ≤ a := by omega
              simp [List.dropWhile, this]
          simp only [setCell, lt_irrefl, if_false, if_true, hw, this]
          exact regsWf_mono (by omega) h3
        · simp [setCell, hw, regsWf, h, h3]
      · simp only [setCell, hab, he, if_false, regsWf, Bool.and_eq_true, decide_eq_true_eq]
        exact ⟨⟨h1, h2⟩, regsWf_setCell a w (by omega) h3⟩

/-- Leaving cells out keeps the canonical form. -/
theorem regsWf_filter (p : Nat × Word → Bool) :
    ∀ {l : List (Nat × Word)} {lo : Nat}, regsWf lo l = true → regsWf lo (l.filter p) = true
  | [], _, _ => rfl
  | e :: t, lo, h => by
    simp only [regsWf, Bool.and_eq_true, decide_eq_true_eq] at h
    by_cases hp : p e
    · simp only [List.filter, hp, regsWf, Bool.and_eq_true, decide_eq_true_eq]
      exact ⟨h.1, regsWf_filter p h.2⟩
    · simp only [List.filter, hp]
      exact regsWf_filter p (regsWf_mono (by omega) h.2)

/-! ## Words -/

@[simp] theorem word_setWord_same (s : State) (a : Nat) (w : Word) : (s.setWord a w).word a = w := by
  simp [State.word, State.setWord, getCell_setCell_same]

theorem word_setWord_ne (s : State) {a c : Nat} (w : Word) (h : c ≠ a) : (s.setWord a w).word c = s.word c := by
  simp [State.word, State.setWord, getCell_setCell_ne w _ h]

/-- What the canonical form of a state is made of. -/
theorem wf_iff {s : State} : s.wf = true ↔ regsWf 0 s.regs = true ∧ Memory.wf s.epMem = true := by
  simp [State.wf]

/-- Writing a register keeps the register list canonical. -/
theorem setWord_wf {s : State} (a : Nat) (w : Word) (h : s.wf = true) : (s.setWord a w).wf = true :=
  wf_iff.2 ⟨regsWf_setCell a w (Nat.zero_le _) (wf_iff.1 h).1, (wf_iff.1 h).2⟩

/-- Leaving registers out keeps the register list canonical. -/
theorem keepRegs_wf {s : State} (p : Nat × Word → Bool) (h : s.wf = true) : (s.keepRegs p).wf = true :=
  wf_iff.2 ⟨regsWf_filter p (wf_iff.1 h).1, (wf_iff.1 h).2⟩

/-! ## The endpoint memory (R290) -/

theorem epWf_mono : ∀ {l : List Host.Cell} {lo lo' : Nat}, lo' ≤ lo → epWf lo l = true → epWf lo' l = true
  | [], _, _, _, _ => rfl
  | (a, v) :: t, lo, lo', h, hl => by
    simp only [epWf, Bool.and_eq_true, decide_eq_true_eq] at hl ⊢
    exact ⟨⟨⟨by omega, hl.1.1.2⟩, hl.1.2⟩, hl.2⟩

/-- Below its first address a memory reads 0. -/
theorem epByte_below {a : Nat} : ∀ {l : List Host.Cell}, epWf (a + 1) l = true → epByte a l = 0
  | [], _ => rfl
  | (b, v) :: t, h => by
    simp only [epWf, Bool.and_eq_true, decide_eq_true_eq] at h
    have : a < b := by omega
    simp [epByte, this]

/-- A byte put into the memory keeps its canonical form. -/
theorem epPut_wf (a : Nat) (v : Byte) (ha : a < epSize) :
    ∀ {l : List Host.Cell} {lo : Nat}, lo ≤ a → epWf lo l = true → epWf lo (epPut a v l) = true
  | [], lo, h, _ => by by_cases hv : v = 0#8 <;> simp [epPut, epWf, hv, h, ha]
  | (b, x) :: t, lo, h, hl => by
    simp only [epWf, Bool.and_eq_true, decide_eq_true_eq] at hl
    obtain ⟨⟨⟨h1, h2⟩, h3⟩, h4⟩ := hl
    have h3 : ¬x = 0#8 := h3
    by_cases hab : a < b
    · by_cases hv : v = 0#8
      · simp [epPut, hab, hv, epWf, h1, h2, h3, h4]
      · simp [epPut, hab, hv, epWf, h, ha, h2, h3, h4]
    · by_cases he : a = b
      · subst he
        by_cases hv : v = 0#8
        · simpa [epPut, hv] using epWf_mono (by omega) h4
        · simp [epPut, hv, epWf, h, ha, h4]
      · simp only [epPut, hab, he, if_false, epWf, Bool.and_eq_true, decide_eq_true_eq]
        exact ⟨⟨⟨h1, h2⟩, h3⟩, epPut_wf a v ha (by omega) h4⟩

/-- The byte just put reads back. -/
theorem epByte_epPut_same (a : Nat) (v : Byte) :
    ∀ {l : List Host.Cell} {lo : Nat}, epWf lo l = true → epByte a (epPut a v l) = v
  | [], _, _ => by by_cases hv : v = 0#8 <;> simp [epPut, epByte, hv]
  | (b, x) :: t, lo, hl => by
    simp only [epWf, Bool.and_eq_true, decide_eq_true_eq] at hl
    by_cases hab : a < b
    · by_cases hv : v = 0#8 <;> simp [epPut, epByte, hab, hv]
    · by_cases he : a = b
      · subst he
        by_cases hv : v = 0#8
        · simp [epPut, hv, epByte_below hl.2]
        · simp [epPut, epByte, hv]
      · simp [epPut, epByte, hab, he, epByte_epPut_same a v hl.2]

/-- Every other byte stays. -/
theorem epByte_epPut_ne {a c : Nat} (v : Byte) (h : c ≠ a) :
    ∀ {l : List Host.Cell} {lo : Nat}, epWf lo l = true → epByte c (epPut a v l) = epByte c l
  | [], _, _ => by by_cases hv : v = 0#8 <;> simp [epPut, epByte, hv, h]
  | (b, x) :: t, lo, hl => by
    simp only [epWf, Bool.and_eq_true, decide_eq_true_eq] at hl
    by_cases hab : a < b
    · by_cases hv : v = 0#8
      · simp [epPut, hab, hv]
      · by_cases hc : c < a
        · have : c < b := by omega
          simp [epPut, epByte, hab, hv, hc, this]
        · simp [epPut, epByte, hab, hv, hc, h]
    · by_cases he : a = b
      · subst he
        by_cases hv : v = 0#8
        · by_cases hc : c < a
          · simp [epPut, hv, epByte, hc, epByte_below (epWf_mono (show c + 1 ≤ a + 1 by omega) hl.2)]
          · simp [epPut, hv, epByte, hc, h]
        · by_cases hc : c < a <;> simp [epPut, epByte, hv, hc, h]
      · simp only [epPut, hab, he, if_false, epByte, epByte_epPut_ne v h hl.2]

/-- Leaving bytes out keeps the canonical form. -/
theorem epWf_filter (p : Host.Cell → Bool) :
    ∀ {l : List Host.Cell} {lo : Nat}, epWf lo l = true → epWf lo (l.filter p) = true
  | [], _, _ => rfl
  | e :: t, lo, h => by
    simp only [epWf, Bool.and_eq_true, decide_eq_true_eq] at h
    by_cases hp : p e
    · simp only [List.filter, hp, epWf, Bool.and_eq_true, decide_eq_true_eq]
      exact ⟨h.1, epWf_filter p h.2⟩
    · simp only [List.filter, hp]
      exact epWf_filter p (epWf_mono (by omega) h.2)

/-- A memory below an address, and one from there up. -/
theorem epWf_append {m : List Host.Cell} {k : Nat} (hm : epWf k m = true) :
    ∀ {l : List Host.Cell} {lo : Nat}, lo ≤ k → (∀ e ∈ l, e.1 < k) → epWf lo l = true → epWf lo (l ++ m) = true
  | [], _, h, _, _ => epWf_mono h hm
  | e :: t, lo, h, hl, hw => by
    simp only [List.cons_append, epWf, Bool.and_eq_true] at hw ⊢
    exact ⟨hw.1, epWf_append hm (hl e List.mem_cons_self) (fun x hx => hl x (List.mem_cons_of_mem _ hx)) hw.2⟩

/-- Bytes listed from an address up, those that are 0 left out. -/
theorem epWf_listed : ∀ (l : List Byte) (k : Nat), k + l.length ≤ epSize →
    epWf k (((l.zipIdx k).map fun e => ((e.2, e.1) : Host.Cell)).filter fun x => x.2 ≠ 0) = true
  | [], _, _ => rfl
  | v :: t, k, h => by
    simp only [List.length_cons] at h
    have ih := epWf_listed t (k + 1) (by omega)
    by_cases hv : v = 0#8
    · simpa [List.zipIdx, hv] using epWf_mono (Nat.le_succ k) (by simpa using ih)
    · rw [List.zipIdx_cons, List.map_cons, List.filter_cons_of_pos (by simpa using hv)]
      simp only [epWf, Bool.and_eq_true, decide_eq_true_eq]
      exact ⟨⟨⟨le_refl k, by omega⟩, hv⟩, ih⟩

/-- Bytes written keep the memory canonical. -/
theorem epWrite_wf {s : State} (at_ : Nat) (bytes : List Byte) (h : Memory.wf s.epMem = true) :
    Memory.wf (s.epWrite at_ bytes).epMem = true := by
  unfold State.epWrite
  have key : ∀ (l : List (Byte × Nat)) (m : List Host.Cell), Memory.wf m = true →
      Memory.wf (l.foldl (fun l e => if at_ + e.2 < epSize then epPut (at_ + e.2) e.1 l else l) m) = true := by
    intro l
    induction l with
    | nil => exact fun _ h => h
    | cons e t ih =>
      intro m hm
      refine ih _ ?_
      dsimp only
      split
      · exact epPut_wf _ _ ‹_› (Nat.zero_le _) hm
      · exact hm
  exact key _ _ h

/-- New contents of the descriptor store keep the memory canonical. -/
theorem epStore_wf {s : State} (bytes : List Byte) (h : Memory.wf s.epMem = true) :
    Memory.wf (s.epStore bytes).epMem = true := by
  unfold State.epStore Memory.wf
  refine epWf_append (k := 0x1220) (epWf_listed _ _ ?_) (Nat.zero_le _) (fun e he => ?_) (epWf_filter _ h)
  · simp only [List.length_take, epSize]; omega
  · simpa using (List.mem_filter.1 he).2

/-! ## Bits -/

theorem mul_add_lt {a b A B : Nat} (ha : a < A) (hb : b < B) : a * B + b < A * B :=
  calc a * B + b < a * B + B := by omega
    _ = (a + 1) * B := by ring
    _ ≤ A * B := Nat.mul_le_mul_right B ha

/-- The bits of a word below a field, and with the field, are small. -/
theorem putBits_low_lt (w : Word) (lo n v : Nat) : v % 2 ^ n * 2 ^ lo + w.toNat % 2 ^ lo < 2 ^ (lo + n) := by
  rw [pow_add, mul_comm (2 ^ lo)]
  exact mul_add_lt (Nat.mod_lt _ (by positivity)) (Nat.mod_lt _ (by positivity))

/-- The number of a word with a field replaced. -/
theorem putBits_toNat (w : Word) {lo n : Nat} (v : Nat) (h : lo + n ≤ 32) :
    (putBits w lo n v).toNat = w.toNat / 2 ^ (lo + n) * 2 ^ (lo + n) + v % 2 ^ n * 2 ^ lo + w.toNat % 2 ^ lo := by
  have hp : 2 ^ (32 - (lo + n)) * 2 ^ (lo + n) = 2 ^ 32 := by rw [← pow_add]; congr 1; omega
  have hq : w.toNat / 2 ^ (lo + n) < 2 ^ (32 - (lo + n)) := by
    rw [Nat.div_lt_iff_lt_mul (by positivity), hp]; exact w.isLt
  have := mul_add_lt hq (putBits_low_lt w lo n v)
  rw [hp, ← add_assoc] at this
  rw [putBits, BitVec.toNat_ofNat, Nat.mod_eq_of_lt this]

/-- A field written reads back, cut to its width. -/
theorem getBits_putBits_same (w : Word) {lo n : Nat} (v : Nat) (h : lo + n ≤ 32) :
    getBits (putBits w lo n v) lo n = v % 2 ^ n := by
  rw [getBits, putBits_toNat w v h]
  have e : w.toNat / 2 ^ (lo + n) * 2 ^ (lo + n) + v % 2 ^ n * 2 ^ lo + w.toNat % 2 ^ lo
      = w.toNat % 2 ^ lo + 2 ^ lo * (v % 2 ^ n + 2 ^ n * (w.toNat / 2 ^ (lo + n))) := by rw [pow_add]; ring
  rw [e, Nat.add_mul_div_left _ _ (by positivity), Nat.div_eq_of_lt (Nat.mod_lt _ (by positivity)), zero_add,
    Nat.add_mul_mod_self_left, Nat.mod_mod]

/-- A field beside the one written stays. -/
theorem getBits_putBits_disj (w : Word) {lo n lo' n' : Nat} (v : Nat) (h : lo + n ≤ 32)
    (hd : lo' + n' ≤ lo ∨ lo + n ≤ lo') : getBits (putBits w lo n v) lo' n' = getBits w lo' n' := by
  rw [getBits, getBits, putBits_toNat w v h]
  rcases hd with hd | hd
  · obtain ⟨k, rfl⟩ := Nat.exists_eq_add_of_le hd
    have e : w.toNat / 2 ^ (lo' + n' + k + n) * 2 ^ (lo' + n' + k + n) + v % 2 ^ n * 2 ^ (lo' + n' + k)
          + w.toNat % 2 ^ (lo' + n' + k)
        = w.toNat % 2 ^ (lo' + n' + k) + 2 ^ lo' * (2 ^ n' * (2 ^ k * (v % 2 ^ n
          + 2 ^ n * (w.toNat / 2 ^ (lo' + n' + k + n))))) := by
      simp only [pow_add]; ring
    have f : w.toNat = w.toNat % 2 ^ (lo' + n' + k) + 2 ^ lo' * (2 ^ n' * (2 ^ k * (w.toNat / 2 ^ (lo' + n' + k)))) := by
      conv_lhs => rw [← Nat.mod_add_div w.toNat (2 ^ (lo' + n' + k))]
      simp only [pow_add]; ring
    rw [e, Nat.add_mul_div_left _ _ (by positivity), Nat.add_mul_mod_self_left]
    conv_rhs => rw [f, Nat.add_mul_div_left _ _ (by positivity), Nat.add_mul_mod_self_left]
  · obtain ⟨k, rfl⟩ := Nat.exists_eq_add_of_le hd
    have e : w.toNat / 2 ^ (lo + n) * 2 ^ (lo + n) + v % 2 ^ n * 2 ^ lo + w.toNat % 2 ^ lo
        = (v % 2 ^ n * 2 ^ lo + w.toNat % 2 ^ lo) + 2 ^ (lo + n) * (w.toNat / 2 ^ (lo + n)) := by ring
    rw [e, show 2 ^ (lo + n + k) = 2 ^ (lo + n) * 2 ^ k from pow_add _ _ _, ← Nat.div_div_eq_div_mul,
      Nat.add_mul_div_left _ _ (by positivity), Nat.div_eq_of_lt (putBits_low_lt w lo n v), zero_add,
      ← Nat.div_div_eq_div_mul]

/-! ## Fields -/

/-- A field of a register fits its word. -/
def Fld.ok (f : Fld) : Prop := f.lo + f.width ≤ 32

theorem g_p_same (s : State) {f : Fld} (v : Nat) (h : f.ok) : (s.p f v).g f = v % 2 ^ f.width := by
  simp [State.p, State.g, getBits_putBits_same _ _ h]

theorem word_p_ne (s : State) {f : Fld} {a : Nat} (v : Nat) (h : a ≠ f.addr) : (s.p f v).word a = s.word a :=
  word_setWord_ne s _ h

theorem g_p_ne (s : State) {f f' : Fld} (v : Nat) (h : f'.addr ≠ f.addr) : (s.p f v).g f' = s.g f' := by
  simp [State.g, word_p_ne s v h]

theorem g_p_disj (s : State) {f f' : Fld} (v : Nat) (h : f.ok)
    (hd : f'.lo + f'.width ≤ f.lo ∨ f.lo + f.width ≤ f'.lo) : (s.p f v).g f' = s.g f' := by
  by_cases ha : f'.addr = f.addr
  · simp [State.g, State.p, ha, getBits_putBits_disj _ _ h hd]
  · exact g_p_ne s v ha

/-- A field is below the bound of its width. -/
theorem g_lt (s : State) (f : Fld) : s.g f < 2 ^ f.width := Nat.mod_lt _ (by positivity)

theorem p_wf {s : State} (f : Fld) (v : Nat) (h : s.wf = true) : (s.p f v).wf = true := setWord_wf _ _ h

theorem hwOr_wf {s : State} (f : Fld) (v : Nat) (h : s.wf = true) : (s.hwOr f v).wf = true := p_wf _ _ h

theorem hw_wf {s : State} (f : Fld) (h : s.wf = true) : (s.hw f).wf = true := hwOr_wf _ _ h

theorem when_wf {s : State} {c : Bool} {f : State → State} (h : s.wf = true)
    (hf : ∀ t : State, t.wf = true → (f t).wf = true) : (s.when c f).wf = true := by
  cases c
  · exact h
  · exact hf s h

/-- What each change of a list keeps, the whole run of changes keeps. -/
theorem each_keeps {P : State → Prop} {f : Nat → State → State} (hf : ∀ n t, P t → P (f n t)) :
    ∀ (l : List Nat) (s : State), P s → P (s.each l f)
  | [], _, h => h
  | n :: t, s, h => each_keeps hf t (f n s) (hf n s h)

/-- What every member of a fold keeps, the fold keeps. -/
theorem foldl_keeps {α β : Type} {P : β → Prop} {f : β → α → β} (hf : ∀ b a, P b → P (f b a)) :
    ∀ (l : List α) (b : β), P b → P (l.foldl f b)
  | [], _, h => h
  | a :: t, b, h => foldl_keeps hf t (f b a) (hf b a h)

end Sys2Proof.Machine
end

