-- ==== Sys2Proof/Laws/RegHas.lean ====
section
/-!
SUPPORT. Membership of a register's address in a set of registers given as a mask.
-/
namespace Sys2Proof.Machine

/-- The address is one of a register of the mask. -/
def HasReg (b a : Nat) : Prop := ∃ r : Reg, b.testBit r.ctorIdx = true ∧ r.has a

theorem HasReg.as {b a : Nat} (h : HasReg b a) : HasReg b a := h

theorem HasReg.mono {b b' a : Nat} (hb : b' ||| b = b) : HasReg b' a → HasReg b a
  | ⟨r, h, k⟩ => ⟨r, by rw [← hb, Nat.testBit_or, h, Bool.true_or], k⟩

theorem HasReg.all {a : Nat} : HasReg 200867255532373784442745261542645325315275374222849104412671 a := ⟨.any, rfl, trivial⟩

theorem PLN_STATUS.reg {b : Nat} (h : b.testBit 0 = true) : HasReg b (PLN_STATUS.addr) := ⟨.PLN_STATUS, h, rfl⟩
theorem PLN_ACTIVE_ID.reg {b : Nat} (h : b.testBit 1 = true) : HasReg b (PLN_ACTIVE_ID.addr) := ⟨.PLN_ACTIVE_ID, h, rfl⟩
theorem PLN_ACTIVE_BUILD.reg {b : Nat} (h : b.testBit 2 = true) : HasReg b (PLN_ACTIVE_BUILD.addr) := ⟨.PLN_ACTIVE_BUILD, h, rfl⟩
theorem PLN_FLOOR.reg {b : Nat} (h : b.testBit 3 = true) : HasReg b (PLN_FLOOR.addr) := ⟨.PLN_FLOOR, h, rfl⟩
theorem PLN_KEYS.reg {b : Nat} (h : b.testBit 4 = true) : HasReg b (PLN_KEYS.addr) := ⟨.PLN_KEYS, h, rfl⟩
theorem PLN_SLOT_SEQ.reg {b : Nat} {n : Nat} (h : b.testBit 5 = true) : HasReg b (PLN_SLOT_SEQ.addr n) := ⟨.PLN_SLOT_SEQ, h, n, rfl⟩
theorem PLN_HASH.reg {b : Nat} {n : Nat} (h : b.testBit 6 = true) : HasReg b (PLN_HASH.addr n) := ⟨.PLN_HASH, h, n, rfl⟩
theorem YRD_CTRL.reg {b : Nat} (h : b.testBit 7 = true) : HasReg b (YRD_CTRL.addr) := ⟨.YRD_CTRL, h, rfl⟩
theorem YRD_STATUS.reg {b : Nat} {n : Nat} (h : b.testBit 8 = true) : HasReg b (YRD_STATUS.addr n) := ⟨.YRD_STATUS, h, n, rfl⟩
theorem YRD_NOW_LO.reg {b : Nat} {n : Nat} (h : b.testBit 9 = true) : HasReg b (YRD_NOW_LO.addr n) := ⟨.YRD_NOW_LO, h, n, rfl⟩
theorem YRD_NOW_HI.reg {b : Nat} {n : Nat} (h : b.testBit 10 = true) : HasReg b (YRD_NOW_HI.addr n) := ⟨.YRD_NOW_HI, h, n, rfl⟩
theorem YRD_RATE.reg {b : Nat} {n : Nat} (h : b.testBit 11 = true) : HasReg b (YRD_RATE.addr n) := ⟨.YRD_RATE, h, n, rfl⟩
theorem YRD_STEP.reg {b : Nat} {n : Nat} (h : b.testBit 12 = true) : HasReg b (YRD_STEP.addr n) := ⟨.YRD_STEP, h, n, rfl⟩
theorem YRD_BARN.reg {b : Nat} (h : b.testBit 13 = true) : HasReg b (YRD_BARN.addr) := ⟨.YRD_BARN, h, rfl⟩
theorem TML_CTRL.reg {b : Nat} (h : b.testBit 14 = true) : HasReg b (TML_CTRL.addr) := ⟨.TML_CTRL, h, rfl⟩
theorem TML_SEL.reg {b : Nat} (h : b.testBit 15 = true) : HasReg b (TML_SEL.addr) := ⟨.TML_SEL, h, rfl⟩
theorem TML_E_TIME_LO.reg {b : Nat} (h : b.testBit 16 = true) : HasReg b (TML_E_TIME_LO.addr) := ⟨.TML_E_TIME_LO, h, rfl⟩
theorem TML_E_TIME_HI.reg {b : Nat} (h : b.testBit 17 = true) : HasReg b (TML_E_TIME_HI.addr) := ⟨.TML_E_TIME_HI, h, rfl⟩
theorem TML_E_CTRL.reg {b : Nat} (h : b.testBit 18 = true) : HasReg b (TML_E_CTRL.addr) := ⟨.TML_E_CTRL, h, rfl⟩
theorem TML_E_REPEAT.reg {b : Nat} (h : b.testBit 19 = true) : HasReg b (TML_E_REPEAT.addr) := ⟨.TML_E_REPEAT, h, rfl⟩
theorem TML_E_ARG.reg {b : Nat} (h : b.testBit 20 = true) : HasReg b (TML_E_ARG.addr) := ⟨.TML_E_ARG, h, rfl⟩
theorem TML_STATUS.reg {b : Nat} (h : b.testBit 21 = true) : HasReg b (TML_STATUS.addr) := ⟨.TML_STATUS, h, rfl⟩
theorem TML_PRED.reg {b : Nat} {n : Nat} (h : b.testBit 22 = true) : HasReg b (TML_PRED.addr n) := ⟨.TML_PRED, h, n, rfl⟩
theorem TML_PAT.reg {b : Nat} {n : Nat} (h : b.testBit 23 = true) : HasReg b (TML_PAT.addr n) := ⟨.TML_PAT, h, n, rfl⟩
theorem TML_LEAD.reg {b : Nat} (h : b.testBit 24 = true) : HasReg b (TML_LEAD.addr) := ⟨.TML_LEAD, h, rfl⟩
theorem SSH_CTRL.reg {b : Nat} (h : b.testBit 25 = true) : HasReg b (SSH_CTRL.addr) := ⟨.SSH_CTRL, h, rfl⟩
theorem SSH_CTX.reg {b : Nat} {n : Nat} (h : b.testBit 26 = true) : HasReg b (SSH_CTX.addr n) := ⟨.SSH_CTX, h, n, rfl⟩
theorem SSH_PORT.reg {b : Nat} {n : Nat} (h : b.testBit 27 = true) : HasReg b (SSH_PORT.addr n) := ⟨.SSH_PORT, h, n, rfl⟩
theorem SSH_PORT_LPM.reg {b : Nat} {n : Nat} (h : b.testBit 28 = true) : HasReg b (SSH_PORT_LPM.addr n) := ⟨.SSH_PORT_LPM, h, n, rfl⟩
theorem SSH_PORT_EVT.reg {b : Nat} {n : Nat} (h : b.testBit 29 = true) : HasReg b (SSH_PORT_EVT.addr n) := ⟨.SSH_PORT_EVT, h, n, rfl⟩
theorem SSH_DROPS.reg {b : Nat} (h : b.testBit 30 = true) : HasReg b (SSH_DROPS.addr) := ⟨.SSH_DROPS, h, rfl⟩
theorem SSH_USP_LPM.reg {b : Nat} {n : Nat} (h : b.testBit 31 = true) : HasReg b (SSH_USP_LPM.addr n) := ⟨.SSH_USP_LPM, h, n, rfl⟩
theorem SSH_PTM.reg {b : Nat} {n : Nat} (h : b.testBit 32 = true) : HasReg b (SSH_PTM.addr n) := ⟨.SSH_PTM, h, n, rfl⟩
theorem SSH_ITP.reg {b : Nat} {n : Nat} (h : b.testBit 33 = true) : HasReg b (SSH_ITP.addr n) := ⟨.SSH_ITP, h, n, rfl⟩
theorem SSH_ITP_REGEN.reg {b : Nat} (h : b.testBit 34 = true) : HasReg b (SSH_ITP_REGEN.addr) := ⟨.SSH_ITP_REGEN, h, rfl⟩
theorem SSH_X_TUNE.reg {b : Nat} (h : b.testBit 35 = true) : HasReg b (SSH_X_TUNE.addr) := ⟨.SSH_X_TUNE, h, rfl⟩
theorem SSH_X_VOTE.reg {b : Nat} (h : b.testBit 36 = true) : HasReg b (SSH_X_VOTE.addr) := ⟨.SSH_X_VOTE, h, rfl⟩
theorem PBF_CTRL.reg {b : Nat} (h : b.testBit 37 = true) : HasReg b (PBF_CTRL.addr) := ⟨.PBF_CTRL, h, rfl⟩
theorem PBF_STATUS.reg {b : Nat} (h : b.testBit 38 = true) : HasReg b (PBF_STATUS.addr) := ⟨.PBF_STATUS, h, rfl⟩
theorem PBF_SHARED.reg {b : Nat} (h : b.testBit 39 = true) : HasReg b (PBF_SHARED.addr) := ⟨.PBF_SHARED, h, rfl⟩
theorem PBF_SHARED_FREE.reg {b : Nat} (h : b.testBit 40 = true) : HasReg b (PBF_SHARED_FREE.addr) := ⟨.PBF_SHARED_FREE, h, rfl⟩
theorem PBF_BANK_FREE.reg {b : Nat} {n : Nat} (h : b.testBit 41 = true) : HasReg b (PBF_BANK_FREE.addr n) := ⟨.PBF_BANK_FREE, h, n, rfl⟩
theorem PBF_RESV.reg {b : Nat} {n : Nat} (h : b.testBit 42 = true) : HasReg b (PBF_RESV.addr n) := ⟨.PBF_RESV, h, n, rfl⟩
theorem PBF_USED.reg {b : Nat} {n : Nat} (h : b.testBit 43 = true) : HasReg b (PBF_USED.addr n) := ⟨.PBF_USED, h, n, rfl⟩
theorem PBF_EVT.reg {b : Nat} (h : b.testBit 44 = true) : HasReg b (PBF_EVT.addr) := ⟨.PBF_EVT, h, rfl⟩
theorem PBF_ECC_COUNT.reg {b : Nat} (h : b.testBit 45 = true) : HasReg b (PBF_ECC_COUNT.addr) := ⟨.PBF_ECC_COUNT, h, rfl⟩
theorem PBF_X_TUNE.reg {b : Nat} (h : b.testBit 46 = true) : HasReg b (PBF_X_TUNE.addr) := ⟨.PBF_X_TUNE, h, rfl⟩
theorem PBF_X_ARB.reg {b : Nat} (h : b.testBit 47 = true) : HasReg b (PBF_X_ARB.addr) := ⟨.PBF_X_ARB, h, rfl⟩
theorem HSH_CTRL.reg {b : Nat} (h : b.testBit 48 = true) : HasReg b (HSH_CTRL.addr) := ⟨.HSH_CTRL, h, rfl⟩
theorem HSH_ENG.reg {b : Nat} {n : Nat} (h : b.testBit 49 = true) : HasReg b (HSH_ENG.addr n) := ⟨.HSH_ENG, h, n, rfl⟩
theorem HSH_PORT.reg {b : Nat} {n : Nat} (h : b.testBit 50 = true) : HasReg b (HSH_PORT.addr n) := ⟨.HSH_PORT, h, n, rfl⟩
theorem HSH_PORT_EVT.reg {b : Nat} {n : Nat} (h : b.testBit 51 = true) : HasReg b (HSH_PORT_EVT.addr n) := ⟨.HSH_PORT_EVT, h, n, rfl⟩
theorem HSH_CARRY.reg {b : Nat} {n : Nat} (h : b.testBit 52 = true) : HasReg b (HSH_CARRY.addr n) := ⟨.HSH_CARRY, h, n, rfl⟩
theorem HSH_EVT.reg {b : Nat} (h : b.testBit 53 = true) : HasReg b (HSH_EVT.addr) := ⟨.HSH_EVT, h, rfl⟩
theorem HSH_ORDERS.reg {b : Nat} (h : b.testBit 54 = true) : HasReg b (HSH_ORDERS.addr) := ⟨.HSH_ORDERS, h, rfl⟩
theorem HSH_X_TUNE.reg {b : Nat} (h : b.testBit 55 = true) : HasReg b (HSH_X_TUNE.addr) := ⟨.HSH_X_TUNE, h, rfl⟩
theorem TTA_CTRL.reg {b : Nat} (h : b.testBit 56 = true) : HasReg b (TTA_CTRL.addr) := ⟨.TTA_CTRL, h, rfl⟩
theorem TTA_TT.reg {b : Nat} {n : Nat} (h : b.testBit 57 = true) : HasReg b (TTA_TT.addr n) := ⟨.TTA_TT, h, n, rfl⟩
theorem TTA_EVT.reg {b : Nat} {n : Nat} (h : b.testBit 58 = true) : HasReg b (TTA_EVT.addr n) := ⟨.TTA_EVT, h, n, rfl⟩
theorem TTA_COUNT.reg {b : Nat} {n : Nat} (h : b.testBit 59 = true) : HasReg b (TTA_COUNT.addr n) := ⟨.TTA_COUNT, h, n, rfl⟩
theorem TTA_CMD.reg {b : Nat} (h : b.testBit 60 = true) : HasReg b (TTA_CMD.addr) := ⟨.TTA_CMD, h, rfl⟩
theorem TTA_X_TUNE.reg {b : Nat} (h : b.testBit 61 = true) : HasReg b (TTA_X_TUNE.addr) := ⟨.TTA_X_TUNE, h, rfl⟩
theorem UPP_PADDOCK.reg {b : Nat} {n : Nat} (h : b.testBit 62 = true) : HasReg b (UPP_PADDOCK.addr n) := ⟨.UPP_PADDOCK, h, n, rfl⟩
theorem UPP_MIR_SEL.reg {b : Nat} (h : b.testBit 63 = true) : HasReg b (UPP_MIR_SEL.addr) := ⟨.UPP_MIR_SEL, h, rfl⟩
theorem UPP_MIR_HS.reg {b : Nat} (h : b.testBit 64 = true) : HasReg b (UPP_MIR_HS.addr) := ⟨.UPP_MIR_HS, h, rfl⟩
theorem UPP_MIR_SS.reg {b : Nat} (h : b.testBit 65 = true) : HasReg b (UPP_MIR_SS.addr) := ⟨.UPP_MIR_SS, h, rfl⟩
theorem UPP_MIR_INFO.reg {b : Nat} (h : b.testBit 66 = true) : HasReg b (UPP_MIR_INFO.addr) := ⟨.UPP_MIR_INFO, h, rfl⟩
theorem UPP_HANDOFF.reg {b : Nat} (h : b.testBit 67 = true) : HasReg b (UPP_HANDOFF.addr) := ⟨.UPP_HANDOFF, h, rfl⟩
theorem UPP_EVT.reg {b : Nat} (h : b.testBit 68 = true) : HasReg b (UPP_EVT.addr) := ⟨.UPP_EVT, h, rfl⟩
theorem UPP_X_HANDOFF.reg {b : Nat} (h : b.testBit 69 = true) : HasReg b (UPP_X_HANDOFF.addr) := ⟨.UPP_X_HANDOFF, h, rfl⟩
theorem GLK_CTRL.reg {b : Nat} (h : b.testBit 70 = true) : HasReg b (GLK_CTRL.addr) := ⟨.GLK_CTRL, h, rfl⟩
theorem GLK_LINK.reg {b : Nat} {n : Nat} (h : b.testBit 71 = true) : HasReg b (GLK_LINK.addr n) := ⟨.GLK_LINK, h, n, rfl⟩
theorem GLK_DELAY.reg {b : Nat} {n : Nat} (h : b.testBit 72 = true) : HasReg b (GLK_DELAY.addr n) := ⟨.GLK_DELAY, h, n, rfl⟩
theorem GLK_ERR.reg {b : Nat} {n : Nat} (h : b.testBit 73 = true) : HasReg b (GLK_ERR.addr n) := ⟨.GLK_ERR, h, n, rfl⟩
theorem GLK_EVT.reg {b : Nat} {n : Nat} (h : b.testBit 74 = true) : HasReg b (GLK_EVT.addr n) := ⟨.GLK_EVT, h, n, rfl⟩
theorem GLK_HB.reg {b : Nat} {n : Nat} (h : b.testBit 75 = true) : HasReg b (GLK_HB.addr n) := ⟨.GLK_HB, h, n, rfl⟩
theorem GLK_WAKE.reg {b : Nat} (h : b.testBit 76 = true) : HasReg b (GLK_WAKE.addr) := ⟨.GLK_WAKE, h, rfl⟩
theorem GLK_X_TUNE.reg {b : Nat} (h : b.testBit 77 = true) : HasReg b (GLK_X_TUNE.addr) := ⟨.GLK_X_TUNE, h, rfl⟩
theorem DRV_CTRL.reg {b : Nat} (h : b.testBit 78 = true) : HasReg b (DRV_CTRL.addr) := ⟨.DRV_CTRL, h, rfl⟩
theorem DRV_BARN.reg {b : Nat} (h : b.testBit 79 = true) : HasReg b (DRV_BARN.addr) := ⟨.DRV_BARN, h, rfl⟩
theorem DRV_ROUTE.reg {b : Nat} {n : Nat} (h : b.testBit 80 = true) : HasReg b (DRV_ROUTE.addr n) := ⟨.DRV_ROUTE, h, n, rfl⟩
theorem DRV_LOAD.reg {b : Nat} {n : Nat} (h : b.testBit 81 = true) : HasReg b (DRV_LOAD.addr n) := ⟨.DRV_LOAD, h, n, rfl⟩
theorem DRV_FLOWS.reg {b : Nat} (h : b.testBit 82 = true) : HasReg b (DRV_FLOWS.addr) := ⟨.DRV_FLOWS, h, rfl⟩
theorem DRV_REBAL.reg {b : Nat} (h : b.testBit 83 = true) : HasReg b (DRV_REBAL.addr) := ⟨.DRV_REBAL, h, rfl⟩
theorem DRV_SEED_LO.reg {b : Nat} (h : b.testBit 84 = true) : HasReg b (DRV_SEED_LO.addr) := ⟨.DRV_SEED_LO, h, rfl⟩
theorem DRV_SEED_HI.reg {b : Nat} (h : b.testBit 85 = true) : HasReg b (DRV_SEED_HI.addr) := ⟨.DRV_SEED_HI, h, rfl⟩
theorem DRV_REROUTE.reg {b : Nat} (h : b.testBit 86 = true) : HasReg b (DRV_REROUTE.addr) := ⟨.DRV_REROUTE, h, rfl⟩
theorem DRV_EVT.reg {b : Nat} (h : b.testBit 87 = true) : HasReg b (DRV_EVT.addr) := ⟨.DRV_EVT, h, rfl⟩
theorem DRV_X_WRR.reg {b : Nat} (h : b.testBit 88 = true) : HasReg b (DRV_X_WRR.addr) := ⟨.DRV_X_WRR, h, rfl⟩
theorem DRV_X_REBAL.reg {b : Nat} (h : b.testBit 89 = true) : HasReg b (DRV_X_REBAL.addr) := ⟨.DRV_X_REBAL, h, rfl⟩
theorem TCP_CTRL.reg {b : Nat} (h : b.testBit 90 = true) : HasReg b (TCP_CTRL.addr) := ⟨.TCP_CTRL, h, rfl⟩
theorem TCP_PORT.reg {b : Nat} {n : Nat} (h : b.testBit 91 = true) : HasReg b (TCP_PORT.addr n) := ⟨.TCP_PORT, h, n, rfl⟩
theorem TCP_CONTRACT.reg {b : Nat} {n : Nat} (h : b.testBit 92 = true) : HasReg b (TCP_CONTRACT.addr n) := ⟨.TCP_CONTRACT, h, n, rfl⟩
theorem TCP_VSET.reg {b : Nat} {n : Nat} (h : b.testBit 93 = true) : HasReg b (TCP_VSET.addr n) := ⟨.TCP_VSET, h, n, rfl⟩
theorem TCP_CABLE.reg {b : Nat} {n : Nat} (h : b.testBit 94 = true) : HasReg b (TCP_CABLE.addr n) := ⟨.TCP_CABLE, h, n, rfl⟩
theorem TCP_EVT.reg {b : Nat} {n : Nat} (h : b.testBit 95 = true) : HasReg b (TCP_EVT.addr n) := ⟨.TCP_EVT, h, n, rfl⟩
theorem TCP_DP.reg {b : Nat} {n : Nat} (h : b.testBit 96 = true) : HasReg b (TCP_DP.addr n) := ⟨.TCP_DP, h, n, rfl⟩
theorem TCP_X_TIMER.reg {b : Nat} (h : b.testBit 97 = true) : HasReg b (TCP_X_TIMER.addr) := ⟨.TCP_X_TIMER, h, rfl⟩
theorem PPW_CTRL.reg {b : Nat} (h : b.testBit 98 = true) : HasReg b (PPW_CTRL.addr) := ⟨.PPW_CTRL, h, rfl⟩
theorem PPW_PG.reg {b : Nat} (h : b.testBit 99 = true) : HasReg b (PPW_PG.addr) := ⟨.PPW_PG, h, rfl⟩
theorem PPW_SEAT.reg {b : Nat} (h : b.testBit 100 = true) : HasReg b (PPW_SEAT.addr) := ⟨.PPW_SEAT, h, rfl⟩
theorem PPW_CLEAR.reg {b : Nat} (h : b.testBit 101 = true) : HasReg b (PPW_CLEAR.addr) := ⟨.PPW_CLEAR, h, rfl⟩
theorem PPW_RAMP.reg {b : Nat} {n : Nat} (h : b.testBit 102 = true) : HasReg b (PPW_RAMP.addr n) := ⟨.PPW_RAMP, h, n, rfl⟩
theorem PPW_LIMIT.reg {b : Nat} {n : Nat} (h : b.testBit 103 = true) : HasReg b (PPW_LIMIT.addr n) := ⟨.PPW_LIMIT, h, n, rfl⟩
theorem PPW_TRIP.reg {b : Nat} {n : Nat} (h : b.testBit 104 = true) : HasReg b (PPW_TRIP.addr n) := ⟨.PPW_TRIP, h, n, rfl⟩
theorem PPW_RETRY.reg {b : Nat} {n : Nat} (h : b.testBit 105 = true) : HasReg b (PPW_RETRY.addr n) := ⟨.PPW_RETRY, h, n, rfl⟩
theorem PPW_STATUS.reg {b : Nat} {n : Nat} (h : b.testBit 106 = true) : HasReg b (PPW_STATUS.addr n) := ⟨.PPW_STATUS, h, n, rfl⟩
theorem PPW_EVT.reg {b : Nat} {n : Nat} (h : b.testBit 107 = true) : HasReg b (PPW_EVT.addr n) := ⟨.PPW_EVT, h, n, rfl⟩
theorem PPW_X_GATE.reg {b : Nat} (h : b.testBit 108 = true) : HasReg b (PPW_X_GATE.addr) := ⟨.PPW_X_GATE, h, rfl⟩
theorem TLM_CTRL.reg {b : Nat} (h : b.testBit 109 = true) : HasReg b (TLM_CTRL.addr) := ⟨.TLM_CTRL, h, rfl⟩
theorem TLM_ECLR.reg {b : Nat} (h : b.testBit 110 = true) : HasReg b (TLM_ECLR.addr) := ⟨.TLM_ECLR, h, rfl⟩
theorem TLM_INPUT.reg {b : Nat} (h : b.testBit 111 = true) : HasReg b (TLM_INPUT.addr) := ⟨.TLM_INPUT, h, rfl⟩
theorem TLM_TEMP.reg {b : Nat} (h : b.testBit 112 = true) : HasReg b (TLM_TEMP.addr) := ⟨.TLM_TEMP, h, rfl⟩
theorem TLM_INWARN.reg {b : Nat} (h : b.testBit 113 = true) : HasReg b (TLM_INWARN.addr) := ⟨.TLM_INWARN, h, rfl⟩
theorem TLM_INST.reg {b : Nat} {n : Nat} (h : b.testBit 114 = true) : HasReg b (TLM_INST.addr n) := ⟨.TLM_INST, h, n, rfl⟩
theorem TLM_AVG1MS.reg {b : Nat} {n : Nat} (h : b.testBit 115 = true) : HasReg b (TLM_AVG1MS.addr n) := ⟨.TLM_AVG1MS, h, n, rfl⟩
theorem TLM_AVG100MS.reg {b : Nat} {n : Nat} (h : b.testBit 116 = true) : HasReg b (TLM_AVG100MS.addr n) := ⟨.TLM_AVG100MS, h, n, rfl⟩
theorem TLM_AVG1S.reg {b : Nat} {n : Nat} (h : b.testBit 117 = true) : HasReg b (TLM_AVG1S.addr n) := ⟨.TLM_AVG1S, h, n, rfl⟩
theorem TLM_PWR.reg {b : Nat} {n : Nat} (h : b.testBit 118 = true) : HasReg b (TLM_PWR.addr n) := ⟨.TLM_PWR, h, n, rfl⟩
theorem TLM_ENERGY_LO.reg {b : Nat} {n : Nat} (h : b.testBit 119 = true) : HasReg b (TLM_ENERGY_LO.addr n) := ⟨.TLM_ENERGY_LO, h, n, rfl⟩
theorem TLM_ENERGY_HI.reg {b : Nat} {n : Nat} (h : b.testBit 120 = true) : HasReg b (TLM_ENERGY_HI.addr n) := ⟨.TLM_ENERGY_HI, h, n, rfl⟩
theorem TLM_PEAK.reg {b : Nat} {n : Nat} (h : b.testBit 121 = true) : HasReg b (TLM_PEAK.addr n) := ⟨.TLM_PEAK, h, n, rfl⟩
theorem BUD_CTRL.reg {b : Nat} (h : b.testBit 122 = true) : HasReg b (BUD_CTRL.addr) := ⟨.BUD_CTRL, h, rfl⟩
theorem BUD_STATUS.reg {b : Nat} (h : b.testBit 123 = true) : HasReg b (BUD_STATUS.addr) := ⟨.BUD_STATUS, h, rfl⟩
theorem BUD_STATE.reg {b : Nat} (h : b.testBit 124 = true) : HasReg b (BUD_STATE.addr) := ⟨.BUD_STATE, h, rfl⟩
theorem BUD_EVT.reg {b : Nat} (h : b.testBit 125 = true) : HasReg b (BUD_EVT.addr) := ⟨.BUD_EVT, h, rfl⟩
theorem BUD_PORT.reg {b : Nat} {n : Nat} (h : b.testBit 126 = true) : HasReg b (BUD_PORT.addr n) := ⟨.BUD_PORT, h, n, rfl⟩
theorem BUD_RLIM.reg {b : Nat} {n : Nat} (h : b.testBit 127 = true) : HasReg b (BUD_RLIM.addr n) := ⟨.BUD_RLIM, h, n, rfl⟩
theorem BUD_X_CTRL.reg {b : Nat} (h : b.testBit 128 = true) : HasReg b (BUD_X_CTRL.addr) := ⟨.BUD_X_CTRL, h, rfl⟩
theorem BUD_X_WARN.reg {b : Nat} (h : b.testBit 129 = true) : HasReg b (BUD_X_WARN.addr) := ⟨.BUD_X_WARN, h, rfl⟩
theorem PDC_CTRL.reg {b : Nat} (h : b.testBit 130 = true) : HasReg b (PDC_CTRL.addr) := ⟨.PDC_CTRL, h, rfl⟩
theorem PDC_STATE.reg {b : Nat} (h : b.testBit 131 = true) : HasReg b (PDC_STATE.addr) := ⟨.PDC_STATE, h, rfl⟩
theorem PDC_STICKY.reg {b : Nat} (h : b.testBit 132 = true) : HasReg b (PDC_STICKY.addr) := ⟨.PDC_STICKY, h, rfl⟩
theorem PDC_XTAL.reg {b : Nat} (h : b.testBit 133 = true) : HasReg b (PDC_XTAL.addr) := ⟨.PDC_XTAL, h, rfl⟩
theorem PDC_DOM.reg {b : Nat} {n : Nat} (h : b.testBit 134 = true) : HasReg b (PDC_DOM.addr n) := ⟨.PDC_DOM, h, n, rfl⟩
theorem PDC_VOTE.reg {b : Nat} {n : Nat} (h : b.testBit 135 = true) : HasReg b (PDC_VOTE.addr n) := ⟨.PDC_VOTE, h, n, rfl⟩
theorem PDC_MYVOTE.reg {b : Nat} {n : Nat} (h : b.testBit 136 = true) : HasReg b (PDC_MYVOTE.addr n) := ⟨.PDC_MYVOTE, h, n, rfl⟩
theorem PDC_CFG.reg {b : Nat} {n : Nat} (h : b.testBit 137 = true) : HasReg b (PDC_CFG.addr n) := ⟨.PDC_CFG, h, n, rfl⟩
theorem PDC_RETUS.reg {b : Nat} {n : Nat} (h : b.testBit 138 = true) : HasReg b (PDC_RETUS.addr n) := ⟨.PDC_RETUS, h, n, rfl⟩
theorem PDC_X_TIME.reg {b : Nat} (h : b.testBit 139 = true) : HasReg b (PDC_X_TIME.addr) := ⟨.PDC_X_TIME, h, rfl⟩
theorem MBX_IN_W.reg {b : Nat} {c w : Nat} (h : b.testBit 140 = true) : HasReg b (MBX_IN_W.addr c w) := ⟨.MBX_IN_W, h, c, w, rfl⟩
theorem MBX_OUT_W.reg {b : Nat} {c w : Nat} (h : b.testBit 141 = true) : HasReg b (MBX_OUT_W.addr c w) := ⟨.MBX_OUT_W, h, c, w, rfl⟩
theorem MBX_IN_CTRL.reg {b : Nat} {n : Nat} (h : b.testBit 142 = true) : HasReg b (MBX_IN_CTRL.addr n) := ⟨.MBX_IN_CTRL, h, n, rfl⟩
theorem MBX_OUT_CTRL.reg {b : Nat} {n : Nat} (h : b.testBit 143 = true) : HasReg b (MBX_OUT_CTRL.addr n) := ⟨.MBX_OUT_CTRL, h, n, rfl⟩
theorem MBX_DB.reg {b : Nat} {n : Nat} (h : b.testBit 144 = true) : HasReg b (MBX_DB.addr n) := ⟨.MBX_DB, h, n, rfl⟩
theorem MBX_STATUS.reg {b : Nat} {n : Nat} (h : b.testBit 145 = true) : HasReg b (MBX_STATUS.addr n) := ⟨.MBX_STATUS, h, n, rfl⟩
theorem MBX_ASSIGN.reg {b : Nat} {n : Nat} (h : b.testBit 146 = true) : HasReg b (MBX_ASSIGN.addr n) := ⟨.MBX_ASSIGN, h, n, rfl⟩
theorem MBX_LOCK.reg {b : Nat} {n : Nat} (h : b.testBit 147 = true) : HasReg b (MBX_LOCK.addr n) := ⟨.MBX_LOCK, h, n, rfl⟩
theorem MBX_LOCK_OWN_LO.reg {b : Nat} (h : b.testBit 148 = true) : HasReg b (MBX_LOCK_OWN_LO.addr) := ⟨.MBX_LOCK_OWN_LO, h, rfl⟩
theorem MBX_LOCK_OWN_HI.reg {b : Nat} (h : b.testBit 149 = true) : HasReg b (MBX_LOCK_OWN_HI.addr) := ⟨.MBX_LOCK_OWN_HI, h, rfl⟩
theorem MBX_ERR.reg {b : Nat} (h : b.testBit 150 = true) : HasReg b (MBX_ERR.addr) := ⟨.MBX_ERR, h, rfl⟩
theorem MBX_X_CTRL.reg {b : Nat} (h : b.testBit 151 = true) : HasReg b (MBX_X_CTRL.addr) := ⟨.MBX_X_CTRL, h, rfl⟩
theorem TKR_CTRL.reg {b : Nat} (h : b.testBit 152 = true) : HasReg b (TKR_CTRL.addr) := ⟨.TKR_CTRL, h, rfl⟩
theorem TKR_FUNC.reg {b : Nat} {n : Nat} (h : b.testBit 153 = true) : HasReg b (TKR_FUNC.addr n) := ⟨.TKR_FUNC, h, n, rfl⟩
theorem TKR_EVT.reg {b : Nat} {n : Nat} (h : b.testBit 154 = true) : HasReg b (TKR_EVT.addr n) := ⟨.TKR_EVT, h, n, rfl⟩
theorem TKR_SB.reg {b : Nat} (h : b.testBit 155 = true) : HasReg b (TKR_SB.addr) := ⟨.TKR_SB, h, rfl⟩
theorem TKR_ALERT.reg {b : Nat} (h : b.testBit 156 = true) : HasReg b (TKR_ALERT.addr) := ⟨.TKR_ALERT, h, rfl⟩
theorem TKR_ALERT_EN.reg {b : Nat} (h : b.testBit 157 = true) : HasReg b (TKR_ALERT_EN.addr) := ⟨.TKR_ALERT_EN, h, rfl⟩
theorem TKR_AUTH.reg {b : Nat} (h : b.testBit 158 = true) : HasReg b (TKR_AUTH.addr) := ⟨.TKR_AUTH, h, rfl⟩
theorem TKR_X_CTRL.reg {b : Nat} (h : b.testBit 159 = true) : HasReg b (TKR_X_CTRL.addr) := ⟨.TKR_X_CTRL, h, rfl⟩
theorem OBS_Q_CTRL.reg {b : Nat} {n : Nat} (h : b.testBit 160 = true) : HasReg b (OBS_Q_CTRL.addr n) := ⟨.OBS_Q_CTRL, h, n, rfl⟩
theorem OBS_Q_DATA.reg {b : Nat} {n : Nat} (h : b.testBit 161 = true) : HasReg b (OBS_Q_DATA.addr n) := ⟨.OBS_Q_DATA, h, n, rfl⟩
theorem OBS_Q_STATUS.reg {b : Nat} {n : Nat} (h : b.testBit 162 = true) : HasReg b (OBS_Q_STATUS.addr n) := ⟨.OBS_Q_STATUS, h, n, rfl⟩
theorem OBS_Q_PTR.reg {b : Nat} {n : Nat} (h : b.testBit 163 = true) : HasReg b (OBS_Q_PTR.addr n) := ⟨.OBS_Q_PTR, h, n, rfl⟩
theorem OBS_Q_LOST.reg {b : Nat} {n : Nat} (h : b.testBit 164 = true) : HasReg b (OBS_Q_LOST.addr n) := ⟨.OBS_Q_LOST, h, n, rfl⟩
theorem OBS_CYCLE_LO.reg {b : Nat} (h : b.testBit 165 = true) : HasReg b (OBS_CYCLE_LO.addr) := ⟨.OBS_CYCLE_LO, h, rfl⟩
theorem OBS_CYCLE_HI.reg {b : Nat} (h : b.testBit 166 = true) : HasReg b (OBS_CYCLE_HI.addr) := ⟨.OBS_CYCLE_HI, h, rfl⟩
theorem OBS_PMU_CTRL.reg {b : Nat} (h : b.testBit 167 = true) : HasReg b (OBS_PMU_CTRL.addr) := ⟨.OBS_PMU_CTRL, h, rfl⟩
theorem OBS_PMU_OVF.reg {b : Nat} (h : b.testBit 168 = true) : HasReg b (OBS_PMU_OVF.addr) := ⟨.OBS_PMU_OVF, h, rfl⟩
theorem OBS_PMU_EVT.reg {b : Nat} {n : Nat} (h : b.testBit 169 = true) : HasReg b (OBS_PMU_EVT.addr n) := ⟨.OBS_PMU_EVT, h, n, rfl⟩
theorem OBS_PMU_LO.reg {b : Nat} {n : Nat} (h : b.testBit 170 = true) : HasReg b (OBS_PMU_LO.addr n) := ⟨.OBS_PMU_LO, h, n, rfl⟩
theorem OBS_PMU_HI.reg {b : Nat} {n : Nat} (h : b.testBit 171 = true) : HasReg b (OBS_PMU_HI.addr n) := ⟨.OBS_PMU_HI, h, n, rfl⟩
theorem FLT_STATUS.reg {b : Nat} (h : b.testBit 172 = true) : HasReg b (FLT_STATUS.addr) := ⟨.FLT_STATUS, h, rfl⟩
theorem FLT_PINS.reg {b : Nat} (h : b.testBit 173 = true) : HasReg b (FLT_PINS.addr) := ⟨.FLT_PINS, h, rfl⟩
theorem FLT_DUMP.reg {b : Nat} (h : b.testBit 174 = true) : HasReg b (FLT_DUMP.addr) := ⟨.FLT_DUMP, h, rfl⟩
theorem FLT_STICKY.reg {b : Nat} {n : Nat} (h : b.testBit 175 = true) : HasReg b (FLT_STICKY.addr n) := ⟨.FLT_STICKY, h, n, rfl⟩
theorem FLT_CLEAR.reg {b : Nat} (h : b.testBit 176 = true) : HasReg b (FLT_CLEAR.addr) := ⟨.FLT_CLEAR, h, rfl⟩
theorem FLT_SEV.reg {b : Nat} {n : Nat} (h : b.testBit 177 = true) : HasReg b (FLT_SEV.addr n) := ⟨.FLT_SEV, h, n, rfl⟩
theorem FLT_ALERT.reg {b : Nat} {n : Nat} (h : b.testBit 178 = true) : HasReg b (FLT_ALERT.addr n) := ⟨.FLT_ALERT, h, n, rfl⟩
theorem FLT_QUAL.reg {b : Nat} {n : Nat} (h : b.testBit 179 = true) : HasReg b (FLT_QUAL.addr n) := ⟨.FLT_QUAL, h, n, rfl⟩
theorem FLT_X_FORCE.reg {b : Nat} (h : b.testBit 180 = true) : HasReg b (FLT_X_FORCE.addr) := ⟨.FLT_X_FORCE, h, rfl⟩
theorem FLT_X_INVERT.reg {b : Nat} (h : b.testBit 181 = true) : HasReg b (FLT_X_INVERT.addr) := ⟨.FLT_X_INVERT, h, rfl⟩
theorem TOP_ID.reg {b : Nat} (h : b.testBit 182 = true) : HasReg b (TOP_ID.addr) := ⟨.TOP_ID, h, rfl⟩
theorem TOP_STRAP.reg {b : Nat} (h : b.testBit 183 = true) : HasReg b (TOP_STRAP.addr) := ⟨.TOP_STRAP, h, rfl⟩
theorem TOP_MODE.reg {b : Nat} (h : b.testBit 184 = true) : HasReg b (TOP_MODE.addr) := ⟨.TOP_MODE, h, rfl⟩
theorem TOP_RESET_CAUSE.reg {b : Nat} (h : b.testBit 185 = true) : HasReg b (TOP_RESET_CAUSE.addr) := ⟨.TOP_RESET_CAUSE, h, rfl⟩
theorem TOP_BOOT_TIME.reg {b : Nat} (h : b.testBit 186 = true) : HasReg b (TOP_BOOT_TIME.addr) := ⟨.TOP_BOOT_TIME, h, rfl⟩
theorem TOP_X_RESET.reg {b : Nat} (h : b.testBit 187 = true) : HasReg b (TOP_X_RESET.addr) := ⟨.TOP_X_RESET, h, rfl⟩
theorem TOP_EXPERT_KEY.reg {b : Nat} {n : Nat} (h : b.testBit 188 = true) : HasReg b (TOP_EXPERT_KEY.addr n) := ⟨.TOP_EXPERT_KEY, h, n, rfl⟩
theorem TOP_EXPERT.reg {b : Nat} (h : b.testBit 189 = true) : HasReg b (TOP_EXPERT.addr) := ⟨.TOP_EXPERT, h, rfl⟩
theorem TOP_BUS_ERR.reg {b : Nat} (h : b.testBit 190 = true) : HasReg b (TOP_BUS_ERR.addr) := ⟨.TOP_BUS_ERR, h, rfl⟩
theorem STL_STALL.reg {b : Nat} {n : Nat} (h : b.testBit 191 = true) : HasReg b (STL_STALL.addr n) := ⟨.STL_STALL, h, n, rfl⟩
theorem STL_LANE.reg {b : Nat} {n : Nat} (h : b.testBit 192 = true) : HasReg b (STL_LANE.addr n) := ⟨.STL_LANE, h, n, rfl⟩
theorem GPI_CFG.reg {b : Nat} {n : Nat} (h : b.testBit 193 = true) : HasReg b (GPI_CFG.addr n) := ⟨.GPI_CFG, h, n, rfl⟩
theorem GPI_IN.reg {b : Nat} (h : b.testBit 194 = true) : HasReg b (GPI_IN.addr) := ⟨.GPI_IN, h, rfl⟩
theorem GPI_OUT.reg {b : Nat} (h : b.testBit 195 = true) : HasReg b (GPI_OUT.addr) := ⟨.GPI_OUT, h, rfl⟩

end Sys2Proof.Machine
end

