-- ==== Sys2Proof/Laws/RegMap.lean ====
section
/-!
SUPPORT. Addresses of the register fields: the register a field stands in.
-/
namespace Sys2Proof.Machine

@[simp] theorem PLN_STATUS.SOURCE_addr : (PLN_STATUS.SOURCE).addr = PLN_STATUS.addr := rfl
@[simp] theorem PLN_STATUS.FALLBACK_addr : (PLN_STATUS.FALLBACK).addr = PLN_STATUS.addr := rfl
@[simp] theorem PLN_STATUS.UPLOAD_addr : (PLN_STATUS.UPLOAD).addr = PLN_STATUS.addr := rfl
@[simp] theorem PLN_STATUS.OWNER_addr : (PLN_STATUS.OWNER).addr = PLN_STATUS.addr := rfl
@[simp] theorem PLN_STATUS.LAST_ERR_addr : (PLN_STATUS.LAST_ERR).addr = PLN_STATUS.addr := rfl
@[simp] theorem PLN_ACTIVE_ID.PLAN_ID_addr : (PLN_ACTIVE_ID.PLAN_ID).addr = PLN_ACTIVE_ID.addr := rfl
@[simp] theorem PLN_ACTIVE_BUILD.BUILD_addr : (PLN_ACTIVE_BUILD.BUILD).addr = PLN_ACTIVE_BUILD.addr := rfl
@[simp] theorem PLN_FLOOR.FLOOR_addr : (PLN_FLOOR.FLOOR).addr = PLN_FLOOR.addr := rfl
@[simp] theorem PLN_KEYS.PROGRAMMED_addr : (PLN_KEYS.PROGRAMMED).addr = PLN_KEYS.addr := rfl
@[simp] theorem PLN_KEYS.REVOKED_addr : (PLN_KEYS.REVOKED).addr = PLN_KEYS.addr := rfl
@[simp] theorem PLN_KEYS.ACTIVE_SLOT_addr : (PLN_KEYS.ACTIVE_SLOT).addr = PLN_KEYS.addr := rfl
@[simp] theorem PLN_KEYS.FLOOR_WORDS_addr : (PLN_KEYS.FLOOR_WORDS).addr = PLN_KEYS.addr := rfl
@[simp] theorem PLN_SLOT_SEQ.SEQ_addr (n : Nat) : (PLN_SLOT_SEQ.SEQ n).addr = PLN_SLOT_SEQ.addr n := rfl
@[simp] theorem PLN_HASH.HASH_addr (n : Nat) : (PLN_HASH.HASH n).addr = PLN_HASH.addr n := rfl
@[simp] theorem YRD_CTRL.PTM_EN_addr : (YRD_CTRL.PTM_EN).addr = YRD_CTRL.addr := rfl
@[simp] theorem YRD_CTRL.FORCE_COAST_addr : (YRD_CTRL.FORCE_COAST).addr = YRD_CTRL.addr := rfl
@[simp] theorem YRD_CTRL.SNAP_addr : (YRD_CTRL.SNAP).addr = YRD_CTRL.addr := rfl
@[simp] theorem YRD_STATUS.STATE_addr (n : Nat) : (YRD_STATUS.STATE n).addr = YRD_STATUS.addr n := rfl
@[simp] theorem YRD_STATUS.REF_addr (n : Nat) : (YRD_STATUS.REF n).addr = YRD_STATUS.addr n := rfl
@[simp] theorem YRD_STATUS.COARSE_addr (n : Nat) : (YRD_STATUS.COARSE n).addr = YRD_STATUS.addr n := rfl
@[simp] theorem YRD_STATUS.STALE_addr (n : Nat) : (YRD_STATUS.STALE n).addr = YRD_STATUS.addr n := rfl
@[simp] theorem YRD_STATUS.STEPPED_addr (n : Nat) : (YRD_STATUS.STEPPED n).addr = YRD_STATUS.addr n := rfl
@[simp] theorem YRD_STATUS.LOST_addr (n : Nat) : (YRD_STATUS.LOST n).addr = YRD_STATUS.addr n := rfl
@[simp] theorem YRD_STATUS.PHASE_ERR_addr (n : Nat) : (YRD_STATUS.PHASE_ERR n).addr = YRD_STATUS.addr n := rfl
@[simp] theorem YRD_NOW_LO.NOW_LO_addr (n : Nat) : (YRD_NOW_LO.NOW_LO n).addr = YRD_NOW_LO.addr n := rfl
@[simp] theorem YRD_NOW_HI.NOW_HI_addr (n : Nat) : (YRD_NOW_HI.NOW_HI n).addr = YRD_NOW_HI.addr n := rfl
@[simp] theorem YRD_RATE.RATE_addr (n : Nat) : (YRD_RATE.RATE n).addr = YRD_RATE.addr n := rfl
@[simp] theorem YRD_STEP.STEP_addr (n : Nat) : (YRD_STEP.STEP n).addr = YRD_STEP.addr n := rfl
@[simp] theorem YRD_BARN.LEAD_addr : (YRD_BARN.LEAD).addr = YRD_BARN.addr := rfl
@[simp] theorem YRD_BARN.HOPS_addr : (YRD_BARN.HOPS).addr = YRD_BARN.addr := rfl
@[simp] theorem YRD_BARN.SYNCED_addr : (YRD_BARN.SYNCED).addr = YRD_BARN.addr := rfl
@[simp] theorem YRD_BARN.ERR_addr : (YRD_BARN.ERR).addr = YRD_BARN.addr := rfl
@[simp] theorem TML_CTRL.ENABLE_addr : (TML_CTRL.ENABLE).addr = TML_CTRL.addr := rfl
@[simp] theorem TML_CTRL.PRED_EN_addr : (TML_CTRL.PRED_EN).addr = TML_CTRL.addr := rfl
@[simp] theorem TML_SEL.INDEX_addr : (TML_SEL.INDEX).addr = TML_SEL.addr := rfl
@[simp] theorem TML_SEL.CMD_addr : (TML_SEL.CMD).addr = TML_SEL.addr := rfl
@[simp] theorem TML_SEL.BUSY_addr : (TML_SEL.BUSY).addr = TML_SEL.addr := rfl
@[simp] theorem TML_SEL.REFUSED_addr : (TML_SEL.REFUSED).addr = TML_SEL.addr := rfl
@[simp] theorem TML_E_TIME_LO.TIME_LO_addr : (TML_E_TIME_LO.TIME_LO).addr = TML_E_TIME_LO.addr := rfl
@[simp] theorem TML_E_TIME_HI.TIME_HI_addr : (TML_E_TIME_HI.TIME_HI).addr = TML_E_TIME_HI.addr := rfl
@[simp] theorem TML_E_CTRL.YARD_addr : (TML_E_CTRL.YARD).addr = TML_E_CTRL.addr := rfl
@[simp] theorem TML_E_CTRL.ABS_addr : (TML_E_CTRL.ABS).addr = TML_E_CTRL.addr := rfl
@[simp] theorem TML_E_CTRL.VALID_addr : (TML_E_CTRL.VALID).addr = TML_E_CTRL.addr := rfl
@[simp] theorem TML_E_CTRL.ACTION_addr : (TML_E_CTRL.ACTION).addr = TML_E_CTRL.addr := rfl
@[simp] theorem TML_E_CTRL.TARGET_addr : (TML_E_CTRL.TARGET).addr = TML_E_CTRL.addr := rfl
@[simp] theorem TML_E_REPEAT.REPEAT_addr : (TML_E_REPEAT.REPEAT).addr = TML_E_REPEAT.addr := rfl
@[simp] theorem TML_E_ARG.ARG_addr : (TML_E_ARG.ARG).addr = TML_E_ARG.addr := rfl
@[simp] theorem TML_STATUS.USED_addr : (TML_STATUS.USED).addr = TML_STATUS.addr := rfl
@[simp] theorem TML_STATUS.PLAN_TOP_addr : (TML_STATUS.PLAN_TOP).addr = TML_STATUS.addr := rfl
@[simp] theorem TML_STATUS.CATCHUP_addr : (TML_STATUS.CATCHUP).addr = TML_STATUS.addr := rfl
@[simp] theorem TML_STATUS.IDLE_KA_addr : (TML_STATUS.IDLE_KA).addr = TML_STATUS.addr := rfl
@[simp] theorem TML_PRED.HISTORY_addr (n : Nat) : (TML_PRED.HISTORY n).addr = TML_PRED.addr n := rfl
@[simp] theorem TML_PRED.CHOICE_addr (n : Nat) : (TML_PRED.CHOICE n).addr = TML_PRED.addr n := rfl
@[simp] theorem TML_PRED.MISS_addr (n : Nat) : (TML_PRED.MISS n).addr = TML_PRED.addr n := rfl
@[simp] theorem TML_PRED.CAPPED_addr (n : Nat) : (TML_PRED.CAPPED n).addr = TML_PRED.addr n := rfl
@[simp] theorem TML_PRED.NEXT_addr (n : Nat) : (TML_PRED.NEXT n).addr = TML_PRED.addr n := rfl
@[simp] theorem TML_PAT.STATE_addr (n : Nat) : (TML_PAT.STATE n).addr = TML_PAT.addr n := rfl
@[simp] theorem TML_PAT.AGREE_addr (n : Nat) : (TML_PAT.AGREE n).addr = TML_PAT.addr n := rfl
@[simp] theorem TML_PAT.PERIOD_addr (n : Nat) : (TML_PAT.PERIOD n).addr = TML_PAT.addr n := rfl
@[simp] theorem TML_LEAD.RET_LEAD_addr : (TML_LEAD.RET_LEAD).addr = TML_LEAD.addr := rfl
@[simp] theorem TML_LEAD.OFF_LOGIC_addr : (TML_LEAD.OFF_LOGIC).addr = TML_LEAD.addr := rfl
@[simp] theorem TML_LEAD.OFF_PHY_addr : (TML_LEAD.OFF_PHY).addr = TML_LEAD.addr := rfl
@[simp] theorem SSH_CTRL.ENABLE_addr : (SSH_CTRL.ENABLE).addr = SSH_CTRL.addr := rfl
@[simp] theorem SSH_CTRL.ITP_EN_addr : (SSH_CTRL.ITP_EN).addr = SSH_CTRL.addr := rfl
@[simp] theorem SSH_CTRL.LDM_EN_addr : (SSH_CTRL.LDM_EN).addr = SSH_CTRL.addr := rfl
@[simp] theorem SSH_CTX.KIND_addr (n : Nat) : (SSH_CTX.KIND n).addr = SSH_CTX.addr n := rfl
@[simp] theorem SSH_CTX.SLOT_addr (n : Nat) : (SSH_CTX.SLOT n).addr = SSH_CTX.addr n := rfl
@[simp] theorem SSH_CTX.PEN_addr (n : Nat) : (SSH_CTX.PEN n).addr = SSH_CTX.addr n := rfl
@[simp] theorem SSH_CTX.DEPTH_addr (n : Nat) : (SSH_CTX.DEPTH n).addr = SSH_CTX.addr n := rfl
@[simp] theorem SSH_CTX.DEPTH_SET_addr (n : Nat) : (SSH_CTX.DEPTH_SET n).addr = SSH_CTX.addr n := rfl
@[simp] theorem SSH_CTX.PORTS_addr (n : Nat) : (SSH_CTX.PORTS n).addr = SSH_CTX.addr n := rfl
@[simp] theorem SSH_CTX.ADDR_addr (n : Nat) : (SSH_CTX.ADDR n).addr = SSH_CTX.addr n := rfl
@[simp] theorem SSH_CTX.USP_LINK_addr (n : Nat) : (SSH_CTX.USP_LINK n).addr = SSH_CTX.addr n := rfl
@[simp] theorem SSH_PORT.LINK_addr (n : Nat) : (SSH_PORT.LINK n).addr = SSH_PORT.addr n := rfl
@[simp] theorem SSH_PORT.RATE_addr (n : Nat) : (SSH_PORT.RATE n).addr = SSH_PORT.addr n := rfl
@[simp] theorem SSH_PORT.CTX_addr (n : Nat) : (SSH_PORT.CTX n).addr = SSH_PORT.addr n := rfl
@[simp] theorem SSH_PORT.HP_IN_addr (n : Nat) : (SSH_PORT.HP_IN n).addr = SSH_PORT.addr n := rfl
@[simp] theorem SSH_PORT.HP_OUT_addr (n : Nat) : (SSH_PORT.HP_OUT n).addr = SSH_PORT.addr n := rfl
@[simp] theorem SSH_PORT_LPM.U1_TIMEOUT_addr (n : Nat) : (SSH_PORT_LPM.U1_TIMEOUT n).addr = SSH_PORT_LPM.addr n := rfl
@[simp] theorem SSH_PORT_LPM.U2_TIMEOUT_addr (n : Nat) : (SSH_PORT_LPM.U2_TIMEOUT n).addr = SSH_PORT_LPM.addr n := rfl
@[simp] theorem SSH_PORT_LPM.FW_HELD_addr (n : Nat) : (SSH_PORT_LPM.FW_HELD n).addr = SSH_PORT_LPM.addr n := rfl
@[simp] theorem SSH_PORT_EVT.LINK_CHG_addr (n : Nat) : (SSH_PORT_EVT.LINK_CHG n).addr = SSH_PORT_EVT.addr n := rfl
@[simp] theorem SSH_PORT_EVT.WAKE_addr (n : Nat) : (SSH_PORT_EVT.WAKE n).addr = SSH_PORT_EVT.addr n := rfl
@[simp] theorem SSH_PORT_EVT.DEFER_addr (n : Nat) : (SSH_PORT_EVT.DEFER n).addr = SSH_PORT_EVT.addr n := rfl
@[simp] theorem SSH_PORT_EVT.DROP_addr (n : Nat) : (SSH_PORT_EVT.DROP n).addr = SSH_PORT_EVT.addr n := rfl
@[simp] theorem SSH_PORT_EVT.CRC_STOMP_addr (n : Nat) : (SSH_PORT_EVT.CRC_STOMP n).addr = SSH_PORT_EVT.addr n := rfl
@[simp] theorem SSH_PORT_EVT.LDM_FAIL_addr (n : Nat) : (SSH_PORT_EVT.LDM_FAIL n).addr = SSH_PORT_EVT.addr n := rfl
@[simp] theorem SSH_PORT_EVT.INACTIVE_addr (n : Nat) : (SSH_PORT_EVT.INACTIVE n).addr = SSH_PORT_EVT.addr n := rfl
@[simp] theorem SSH_DROPS.DROP_addr : (SSH_DROPS.DROP).addr = SSH_DROPS.addr := rfl
@[simp] theorem SSH_DROPS.DEFER_addr : (SSH_DROPS.DEFER).addr = SSH_DROPS.addr := rfl
@[simp] theorem SSH_USP_LPM.U1_ENABLE_addr (n : Nat) : (SSH_USP_LPM.U1_ENABLE n).addr = SSH_USP_LPM.addr n := rfl
@[simp] theorem SSH_USP_LPM.U2_ENABLE_addr (n : Nat) : (SSH_USP_LPM.U2_ENABLE n).addr = SSH_USP_LPM.addr n := rfl
@[simp] theorem SSH_USP_LPM.LDM_ENABLE_addr (n : Nat) : (SSH_USP_LPM.LDM_ENABLE n).addr = SSH_USP_LPM.addr n := rfl
@[simp] theorem SSH_PTM.DELAY_addr (n : Nat) : (SSH_PTM.DELAY n).addr = SSH_PTM.addr n := rfl
@[simp] theorem SSH_PTM.VALID_addr (n : Nat) : (SSH_PTM.VALID n).addr = SSH_PTM.addr n := rfl
@[simp] theorem SSH_ITP.LAST_BIC_addr (n : Nat) : (SSH_ITP.LAST_BIC n).addr = SSH_ITP.addr n := rfl
@[simp] theorem SSH_ITP.RES_MAX_addr (n : Nat) : (SSH_ITP.RES_MAX n).addr = SSH_ITP.addr n := rfl
@[simp] theorem SSH_ITP_REGEN.SENT_addr : (SSH_ITP_REGEN.SENT).addr = SSH_ITP_REGEN.addr := rfl
@[simp] theorem SSH_ITP_REGEN.SKIPPED_addr : (SSH_ITP_REGEN.SKIPPED).addr = SSH_ITP_REGEN.addr := rfl
@[simp] theorem SSH_X_TUNE.USP_IDLE_US_addr : (SSH_X_TUNE.USP_IDLE_US).addr = SSH_X_TUNE.addr := rfl
@[simp] theorem SSH_X_TUNE.RECOV_HOLD_addr : (SSH_X_TUNE.RECOV_HOLD).addr = SSH_X_TUNE.addr := rfl
@[simp] theorem SSH_X_TUNE.ITP_REGEN_addr : (SSH_X_TUNE.ITP_REGEN).addr = SSH_X_TUNE.addr := rfl
@[simp] theorem SSH_X_VOTE.U1_VOTE_addr : (SSH_X_VOTE.U1_VOTE).addr = SSH_X_VOTE.addr := rfl
@[simp] theorem SSH_X_VOTE.U2_VOTE_addr : (SSH_X_VOTE.U2_VOTE).addr = SSH_X_VOTE.addr := rfl
@[simp] theorem PBF_CTRL.ENABLE_addr : (PBF_CTRL.ENABLE).addr = PBF_CTRL.addr := rfl
@[simp] theorem PBF_CTRL.SCRUB_addr : (PBF_CTRL.SCRUB).addr = PBF_CTRL.addr := rfl
@[simp] theorem PBF_STATUS.FREE_addr : (PBF_STATUS.FREE).addr = PBF_STATUS.addr := rfl
@[simp] theorem PBF_STATUS.BANK_LOW_addr : (PBF_STATUS.BANK_LOW).addr = PBF_STATUS.addr := rfl
@[simp] theorem PBF_SHARED.SIZE_addr : (PBF_SHARED.SIZE).addr = PBF_SHARED.addr := rfl
@[simp] theorem PBF_SHARED_FREE.FREE_addr : (PBF_SHARED_FREE.FREE).addr = PBF_SHARED_FREE.addr := rfl
@[simp] theorem PBF_BANK_FREE.FREE_addr (n : Nat) : (PBF_BANK_FREE.FREE n).addr = PBF_BANK_FREE.addr n := rfl
@[simp] theorem PBF_RESV.RESERVE_addr (n : Nat) : (PBF_RESV.RESERVE n).addr = PBF_RESV.addr n := rfl
@[simp] theorem PBF_RESV.SHARE_MAX_addr (n : Nat) : (PBF_RESV.SHARE_MAX n).addr = PBF_RESV.addr n := rfl
@[simp] theorem PBF_USED.USED_addr (n : Nat) : (PBF_USED.USED n).addr = PBF_USED.addr n := rfl
@[simp] theorem PBF_USED.PEAK_addr (n : Nat) : (PBF_USED.PEAK n).addr = PBF_USED.addr n := rfl
@[simp] theorem PBF_EVT.ECC_CORR_addr : (PBF_EVT.ECC_CORR).addr = PBF_EVT.addr := rfl
@[simp] theorem PBF_EVT.ECC_UNCORR_addr : (PBF_EVT.ECC_UNCORR).addr = PBF_EVT.addr := rfl
@[simp] theorem PBF_EVT.HOLD_addr : (PBF_EVT.HOLD).addr = PBF_EVT.addr := rfl
@[simp] theorem PBF_EVT.BANK_LOW_addr : (PBF_EVT.BANK_LOW).addr = PBF_EVT.addr := rfl
@[simp] theorem PBF_EVT.RESV_ERR_addr : (PBF_EVT.RESV_ERR).addr = PBF_EVT.addr := rfl
@[simp] theorem PBF_ECC_COUNT.CORR_addr : (PBF_ECC_COUNT.CORR).addr = PBF_ECC_COUNT.addr := rfl
@[simp] theorem PBF_ECC_COUNT.UNCORR_addr : (PBF_ECC_COUNT.UNCORR).addr = PBF_ECC_COUNT.addr := rfl
@[simp] theorem PBF_X_TUNE.BANK_FLOOR_addr : (PBF_X_TUNE.BANK_FLOOR).addr = PBF_X_TUNE.addr := rfl
@[simp] theorem PBF_X_TUNE.CREDIT_MIN_addr : (PBF_X_TUNE.CREDIT_MIN).addr = PBF_X_TUNE.addr := rfl
@[simp] theorem PBF_X_ARB.ISO_FIRST_addr : (PBF_X_ARB.ISO_FIRST).addr = PBF_X_ARB.addr := rfl
@[simp] theorem PBF_X_ARB.EQUAL_WEIGHT_addr : (PBF_X_ARB.EQUAL_WEIGHT).addr = PBF_X_ARB.addr := rfl
@[simp] theorem HSH_CTRL.ENABLE_addr : (HSH_CTRL.ENABLE).addr = HSH_CTRL.addr := rfl
@[simp] theorem HSH_ENG.ROLE_addr (n : Nat) : (HSH_ENG.ROLE n).addr = HSH_ENG.addr n := rfl
@[simp] theorem HSH_ENG.SLOT_addr (n : Nat) : (HSH_ENG.SLOT n).addr = HSH_ENG.addr n := rfl
@[simp] theorem HSH_ENG.PEN_addr (n : Nat) : (HSH_ENG.PEN n).addr = HSH_ENG.addr n := rfl
@[simp] theorem HSH_ENG.UPSTREAM_addr (n : Nat) : (HSH_ENG.UPSTREAM n).addr = HSH_ENG.addr n := rfl
@[simp] theorem HSH_ENG.SPEED_addr (n : Nat) : (HSH_ENG.SPEED n).addr = HSH_ENG.addr n := rfl
@[simp] theorem HSH_ENG.STATE_addr (n : Nat) : (HSH_ENG.STATE n).addr = HSH_ENG.addr n := rfl
@[simp] theorem HSH_ENG.ADDR_addr (n : Nat) : (HSH_ENG.ADDR n).addr = HSH_ENG.addr n := rfl
@[simp] theorem HSH_PORT.ENGINE_addr (n : Nat) : (HSH_PORT.ENGINE n).addr = HSH_PORT.addr n := rfl
@[simp] theorem HSH_PORT.STATE_addr (n : Nat) : (HSH_PORT.STATE n).addr = HSH_PORT.addr n := rfl
@[simp] theorem HSH_PORT.SPEED_addr (n : Nat) : (HSH_PORT.SPEED n).addr = HSH_PORT.addr n := rfl
@[simp] theorem HSH_PORT.CONNECT_addr (n : Nat) : (HSH_PORT.CONNECT n).addr = HSH_PORT.addr n := rfl
@[simp] theorem HSH_PORT.REMOTE_addr (n : Nat) : (HSH_PORT.REMOTE n).addr = HSH_PORT.addr n := rfl
@[simp] theorem HSH_PORT.BC_addr (n : Nat) : (HSH_PORT.BC n).addr = HSH_PORT.addr n := rfl
@[simp] theorem HSH_PORT.BESL_addr (n : Nat) : (HSH_PORT.BESL n).addr = HSH_PORT.addr n := rfl
@[simp] theorem HSH_PORT.RWE_addr (n : Nat) : (HSH_PORT.RWE n).addr = HSH_PORT.addr n := rfl
@[simp] theorem HSH_PORT_EVT.CONN_CHG_addr (n : Nat) : (HSH_PORT_EVT.CONN_CHG n).addr = HSH_PORT_EVT.addr n := rfl
@[simp] theorem HSH_PORT_EVT.RESET_DONE_addr (n : Nat) : (HSH_PORT_EVT.RESET_DONE n).addr = HSH_PORT_EVT.addr n := rfl
@[simp] theorem HSH_PORT_EVT.RESUME_DONE_addr (n : Nat) : (HSH_PORT_EVT.RESUME_DONE n).addr = HSH_PORT_EVT.addr n := rfl
@[simp] theorem HSH_PORT_EVT.WAKE_addr (n : Nat) : (HSH_PORT_EVT.WAKE n).addr = HSH_PORT_EVT.addr n := rfl
@[simp] theorem HSH_PORT_EVT.L1_ENTER_addr (n : Nat) : (HSH_PORT_EVT.L1_ENTER n).addr = HSH_PORT_EVT.addr n := rfl
@[simp] theorem HSH_PORT_EVT.L1_EXIT_addr (n : Nat) : (HSH_PORT_EVT.L1_EXIT n).addr = HSH_PORT_EVT.addr n := rfl
@[simp] theorem HSH_PORT_EVT.BABBLE_addr (n : Nat) : (HSH_PORT_EVT.BABBLE n).addr = HSH_PORT_EVT.addr n := rfl
@[simp] theorem HSH_PORT_EVT.CARRY_LOST_addr (n : Nat) : (HSH_PORT_EVT.CARRY_LOST n).addr = HSH_PORT_EVT.addr n := rfl
@[simp] theorem HSH_PORT_EVT.LATE_ORDER_addr (n : Nat) : (HSH_PORT_EVT.LATE_ORDER n).addr = HSH_PORT_EVT.addr n := rfl
@[simp] theorem HSH_PORT_EVT.BC_SWITCH_addr (n : Nat) : (HSH_PORT_EVT.BC_SWITCH n).addr = HSH_PORT_EVT.addr n := rfl
@[simp] theorem HSH_CARRY.SLOT_addr (n : Nat) : (HSH_CARRY.SLOT n).addr = HSH_CARRY.addr n := rfl
@[simp] theorem HSH_CARRY.BUS_addr (n : Nat) : (HSH_CARRY.BUS n).addr = HSH_CARRY.addr n := rfl
@[simp] theorem HSH_CARRY.PEN_addr (n : Nat) : (HSH_CARRY.PEN n).addr = HSH_CARRY.addr n := rfl
@[simp] theorem HSH_CARRY.STATE_addr (n : Nat) : (HSH_CARRY.STATE n).addr = HSH_CARRY.addr n := rfl
@[simp] theorem HSH_CARRY.CONFLICT_addr (n : Nat) : (HSH_CARRY.CONFLICT n).addr = HSH_CARRY.addr n := rfl
@[simp] theorem HSH_CARRY.TRANSIT_addr (n : Nat) : (HSH_CARRY.TRANSIT n).addr = HSH_CARRY.addr n := rfl
@[simp] theorem HSH_CARRY.DELAY_addr (n : Nat) : (HSH_CARRY.DELAY n).addr = HSH_CARRY.addr n := rfl
@[simp] theorem HSH_EVT.UP_RESET0_addr : (HSH_EVT.UP_RESET0).addr = HSH_EVT.addr := rfl
@[simp] theorem HSH_EVT.UP_RESET1_addr : (HSH_EVT.UP_RESET1).addr = HSH_EVT.addr := rfl
@[simp] theorem HSH_EVT.CARRY_CONFLICT_addr : (HSH_EVT.CARRY_CONFLICT).addr = HSH_EVT.addr := rfl
@[simp] theorem HSH_EVT.CARRY_SLOW_addr : (HSH_EVT.CARRY_SLOW).addr = HSH_EVT.addr := rfl
@[simp] theorem HSH_EVT.FS_UPSTREAM_addr : (HSH_EVT.FS_UPSTREAM).addr = HSH_EVT.addr := rfl
@[simp] theorem HSH_EVT.COLLISION_addr : (HSH_EVT.COLLISION).addr = HSH_EVT.addr := rfl
@[simp] theorem HSH_ORDERS.SENT_addr : (HSH_ORDERS.SENT).addr = HSH_ORDERS.addr := rfl
@[simp] theorem HSH_ORDERS.LATE_addr : (HSH_ORDERS.LATE).addr = HSH_ORDERS.addr := rfl
@[simp] theorem HSH_X_TUNE.ORDER_LEAD_addr : (HSH_X_TUNE.ORDER_LEAD).addr = HSH_X_TUNE.addr := rfl
@[simp] theorem HSH_X_TUNE.RESET_MS_addr : (HSH_X_TUNE.RESET_MS).addr = HSH_X_TUNE.addr := rfl
@[simp] theorem HSH_X_TUNE.WAKE_HOLD_MS_addr : (HSH_X_TUNE.WAKE_HOLD_MS).addr = HSH_X_TUNE.addr := rfl
@[simp] theorem TTA_CTRL.ENABLE_addr : (TTA_CTRL.ENABLE).addr = TTA_CTRL.addr := rfl
@[simp] theorem TTA_TT.STATE_addr (n : Nat) : (TTA_TT.STATE n).addr = TTA_TT.addr n := rfl
@[simp] theorem TTA_TT.SLOT_addr (n : Nat) : (TTA_TT.SLOT n).addr = TTA_TT.addr n := rfl
@[simp] theorem TTA_TT.PER_USED_addr (n : Nat) : (TTA_TT.PER_USED n).addr = TTA_TT.addr n := rfl
@[simp] theorem TTA_TT.NP_USED_addr (n : Nat) : (TTA_TT.NP_USED n).addr = TTA_TT.addr n := rfl
@[simp] theorem TTA_TT.UFRAME_addr (n : Nat) : (TTA_TT.UFRAME n).addr = TTA_TT.addr n := rfl
@[simp] theorem TTA_EVT.PER_DROP_addr (n : Nat) : (TTA_EVT.PER_DROP n).addr = TTA_EVT.addr n := rfl
@[simp] theorem TTA_EVT.NP_NAK_addr (n : Nat) : (TTA_EVT.NP_NAK n).addr = TTA_EVT.addr n := rfl
@[simp] theorem TTA_EVT.SOF_FILL_addr (n : Nat) : (TTA_EVT.SOF_FILL n).addr = TTA_EVT.addr n := rfl
@[simp] theorem TTA_EVT.PER_HELD_addr (n : Nat) : (TTA_EVT.PER_HELD n).addr = TTA_EVT.addr n := rfl
@[simp] theorem TTA_EVT.LATE_addr (n : Nat) : (TTA_EVT.LATE n).addr = TTA_EVT.addr n := rfl
@[simp] theorem TTA_EVT.CLEARED_addr (n : Nat) : (TTA_EVT.CLEARED n).addr = TTA_EVT.addr n := rfl
@[simp] theorem TTA_EVT.RESET_addr (n : Nat) : (TTA_EVT.RESET n).addr = TTA_EVT.addr n := rfl
@[simp] theorem TTA_COUNT.PER_DROP_addr (n : Nat) : (TTA_COUNT.PER_DROP n).addr = TTA_COUNT.addr n := rfl
@[simp] theorem TTA_COUNT.SOF_FILL_addr (n : Nat) : (TTA_COUNT.SOF_FILL n).addr = TTA_COUNT.addr n := rfl
@[simp] theorem TTA_CMD.STALL_addr : (TTA_CMD.STALL).addr = TTA_CMD.addr := rfl
@[simp] theorem TTA_CMD.OP_addr : (TTA_CMD.OP).addr = TTA_CMD.addr := rfl
@[simp] theorem TTA_CMD.DEV_addr : (TTA_CMD.DEV).addr = TTA_CMD.addr := rfl
@[simp] theorem TTA_CMD.EP_addr : (TTA_CMD.EP).addr = TTA_CMD.addr := rfl
@[simp] theorem TTA_CMD.DIR_addr : (TTA_CMD.DIR).addr = TTA_CMD.addr := rfl
@[simp] theorem TTA_CMD.TYPE_addr : (TTA_CMD.TYPE).addr = TTA_CMD.addr := rfl
@[simp] theorem TTA_CMD.BUSY_addr : (TTA_CMD.BUSY).addr = TTA_CMD.addr := rfl
@[simp] theorem TTA_CMD.DONE_addr : (TTA_CMD.DONE).addr = TTA_CMD.addr := rfl
@[simp] theorem TTA_X_TUNE.NOSOF_HOLD_addr : (TTA_X_TUNE.NOSOF_HOLD).addr = TTA_X_TUNE.addr := rfl
@[simp] theorem UPP_PADDOCK.SLOT_addr (n : Nat) : (UPP_PADDOCK.SLOT n).addr = UPP_PADDOCK.addr n := rfl
@[simp] theorem UPP_PADDOCK.BOUND_addr (n : Nat) : (UPP_PADDOCK.BOUND n).addr = UPP_PADDOCK.addr n := rfl
@[simp] theorem UPP_PADDOCK.STATE_addr (n : Nat) : (UPP_PADDOCK.STATE n).addr = UPP_PADDOCK.addr n := rfl
@[simp] theorem UPP_PADDOCK.ROOT_PORTS_addr (n : Nat) : (UPP_PADDOCK.ROOT_PORTS n).addr = UPP_PADDOCK.addr n := rfl
@[simp] theorem UPP_PADDOCK.PENS_addr (n : Nat) : (UPP_PADDOCK.PENS n).addr = UPP_PADDOCK.addr n := rfl
@[simp] theorem UPP_PADDOCK.TACK_PORT_addr (n : Nat) : (UPP_PADDOCK.TACK_PORT n).addr = UPP_PADDOCK.addr n := rfl
@[simp] theorem UPP_MIR_SEL.SLOT_addr : (UPP_MIR_SEL.SLOT).addr = UPP_MIR_SEL.addr := rfl
@[simp] theorem UPP_MIR_SEL.HUB_addr : (UPP_MIR_SEL.HUB).addr = UPP_MIR_SEL.addr := rfl
@[simp] theorem UPP_MIR_SEL.PORT_addr : (UPP_MIR_SEL.PORT).addr = UPP_MIR_SEL.addr := rfl
@[simp] theorem UPP_MIR_HS.STATUS_addr : (UPP_MIR_HS.STATUS).addr = UPP_MIR_HS.addr := rfl
@[simp] theorem UPP_MIR_HS.CHANGE_addr : (UPP_MIR_HS.CHANGE).addr = UPP_MIR_HS.addr := rfl
@[simp] theorem UPP_MIR_SS.STATUS_addr : (UPP_MIR_SS.STATUS).addr = UPP_MIR_SS.addr := rfl
@[simp] theorem UPP_MIR_SS.CHANGE_addr : (UPP_MIR_SS.CHANGE).addr = UPP_MIR_SS.addr := rfl
@[simp] theorem UPP_MIR_INFO.REF_addr : (UPP_MIR_INFO.REF).addr = UPP_MIR_INFO.addr := rfl
@[simp] theorem UPP_MIR_INFO.KIND_addr : (UPP_MIR_INFO.KIND).addr = UPP_MIR_INFO.addr := rfl
@[simp] theorem UPP_MIR_INFO.LOCAL_addr : (UPP_MIR_INFO.LOCAL).addr = UPP_MIR_INFO.addr := rfl
@[simp] theorem UPP_MIR_INFO.REACHABLE_addr : (UPP_MIR_INFO.REACHABLE).addr = UPP_MIR_INFO.addr := rfl
@[simp] theorem UPP_MIR_INFO.HELD_addr : (UPP_MIR_INFO.HELD).addr = UPP_MIR_INFO.addr := rfl
@[simp] theorem UPP_MIR_INFO.SEQ_addr : (UPP_MIR_INFO.SEQ).addr = UPP_MIR_INFO.addr := rfl
@[simp] theorem UPP_HANDOFF.STALL_addr : (UPP_HANDOFF.STALL).addr = UPP_HANDOFF.addr := rfl
@[simp] theorem UPP_HANDOFF.FROM_addr : (UPP_HANDOFF.FROM).addr = UPP_HANDOFF.addr := rfl
@[simp] theorem UPP_HANDOFF.TO_addr : (UPP_HANDOFF.TO).addr = UPP_HANDOFF.addr := rfl
@[simp] theorem UPP_HANDOFF.STEP_addr : (UPP_HANDOFF.STEP).addr = UPP_HANDOFF.addr := rfl
@[simp] theorem UPP_HANDOFF.ELAPSED_addr : (UPP_HANDOFF.ELAPSED).addr = UPP_HANDOFF.addr := rfl
@[simp] theorem UPP_EVT.MIRROR_RESYNC_addr : (UPP_EVT.MIRROR_RESYNC).addr = UPP_EVT.addr := rfl
@[simp] theorem UPP_EVT.HANDOFF_DONE_addr : (UPP_EVT.HANDOFF_DONE).addr = UPP_EVT.addr := rfl
@[simp] theorem UPP_EVT.KVM_IGNORED_addr : (UPP_EVT.KVM_IGNORED).addr = UPP_EVT.addr := rfl
@[simp] theorem UPP_EVT.UNREACHABLE_addr : (UPP_EVT.UNREACHABLE).addr = UPP_EVT.addr := rfl
@[simp] theorem UPP_X_HANDOFF.QUIET_MS_addr : (UPP_X_HANDOFF.QUIET_MS).addr = UPP_X_HANDOFF.addr := rfl
@[simp] theorem GLK_CTRL.ENABLE_addr : (GLK_CTRL.ENABLE).addr = GLK_CTRL.addr := rfl
@[simp] theorem GLK_CTRL.SLEEP_EN_addr : (GLK_CTRL.SLEEP_EN).addr = GLK_CTRL.addr := rfl
@[simp] theorem GLK_CTRL.RETRAIN_addr : (GLK_CTRL.RETRAIN).addr = GLK_CTRL.addr := rfl
@[simp] theorem GLK_LINK.STATE_addr (n : Nat) : (GLK_LINK.STATE n).addr = GLK_LINK.addr n := rfl
@[simp] theorem GLK_LINK.IDLE_addr (n : Nat) : (GLK_LINK.IDLE n).addr = GLK_LINK.addr n := rfl
@[simp] theorem GLK_LINK.LANES_addr (n : Nat) : (GLK_LINK.LANES n).addr = GLK_LINK.addr n := rfl
@[simp] theorem GLK_LINK.PEER_MEMBER_addr (n : Nat) : (GLK_LINK.PEER_MEMBER n).addr = GLK_LINK.addr n := rfl
@[simp] theorem GLK_LINK.PEER_LINK_addr (n : Nat) : (GLK_LINK.PEER_LINK n).addr = GLK_LINK.addr n := rfl
@[simp] theorem GLK_LINK.ISO_CAUSE_addr (n : Nat) : (GLK_LINK.ISO_CAUSE n).addr = GLK_LINK.addr n := rfl
@[simp] theorem GLK_LINK.ATTEMPTS_addr (n : Nat) : (GLK_LINK.ATTEMPTS n).addr = GLK_LINK.addr n := rfl
@[simp] theorem GLK_DELAY.DELAY_addr (n : Nat) : (GLK_DELAY.DELAY n).addr = GLK_DELAY.addr n := rfl
@[simp] theorem GLK_ERR.CRC_addr (n : Nat) : (GLK_ERR.CRC n).addr = GLK_ERR.addr n := rfl
@[simp] theorem GLK_ERR.REPLAY_addr (n : Nat) : (GLK_ERR.REPLAY n).addr = GLK_ERR.addr n := rfl
@[simp] theorem GLK_ERR.FAILS_addr (n : Nat) : (GLK_ERR.FAILS n).addr = GLK_ERR.addr n := rfl
@[simp] theorem GLK_EVT.UP_addr (n : Nat) : (GLK_EVT.UP n).addr = GLK_EVT.addr n := rfl
@[simp] theorem GLK_EVT.DOWN_addr (n : Nat) : (GLK_EVT.DOWN n).addr = GLK_EVT.addr n := rfl
@[simp] theorem GLK_EVT.ISOLATED_addr (n : Nat) : (GLK_EVT.ISOLATED n).addr = GLK_EVT.addr n := rfl
@[simp] theorem GLK_EVT.SINGLE_LANE_addr (n : Nat) : (GLK_EVT.SINGLE_LANE n).addr = GLK_EVT.addr n := rfl
@[simp] theorem GLK_EVT.HB_MISS_addr (n : Nat) : (GLK_EVT.HB_MISS n).addr = GLK_EVT.addr n := rfl
@[simp] theorem GLK_EVT.BELL_RX_addr (n : Nat) : (GLK_EVT.BELL_RX n).addr = GLK_EVT.addr n := rfl
@[simp] theorem GLK_EVT.BELL_FAIL_addr (n : Nat) : (GLK_EVT.BELL_FAIL n).addr = GLK_EVT.addr n := rfl
@[simp] theorem GLK_HB.PERIOD_addr (n : Nat) : (GLK_HB.PERIOD n).addr = GLK_HB.addr n := rfl
@[simp] theorem GLK_HB.MISSED_addr (n : Nat) : (GLK_HB.MISSED n).addr = GLK_HB.addr n := rfl
@[simp] theorem GLK_WAKE.BELL_SEEN_addr : (GLK_WAKE.BELL_SEEN).addr = GLK_WAKE.addr := rfl
@[simp] theorem GLK_WAKE.RING_addr : (GLK_WAKE.RING).addr = GLK_WAKE.addr := rfl
@[simp] theorem GLK_X_TUNE.REPLAY_US_addr : (GLK_X_TUNE.REPLAY_US).addr = GLK_X_TUNE.addr := rfl
@[simp] theorem GLK_X_TUNE.REPLAY_MAX_addr : (GLK_X_TUNE.REPLAY_MAX).addr = GLK_X_TUNE.addr := rfl
@[simp] theorem GLK_X_TUNE.IDLE_US_addr : (GLK_X_TUNE.IDLE_US).addr = GLK_X_TUNE.addr := rfl
@[simp] theorem GLK_X_TUNE.SLEEP_MS_addr : (GLK_X_TUNE.SLEEP_MS).addr = GLK_X_TUNE.addr := rfl
@[simp] theorem DRV_CTRL.ENABLE_addr : (DRV_CTRL.ENABLE).addr = DRV_CTRL.addr := rfl
@[simp] theorem DRV_CTRL.REBAL_EN_addr : (DRV_CTRL.REBAL_EN).addr = DRV_CTRL.addr := rfl
@[simp] theorem DRV_BARN.MEMBER_addr : (DRV_BARN.MEMBER).addr = DRV_BARN.addr := rfl
@[simp] theorem DRV_BARN.NUMBERED_addr : (DRV_BARN.NUMBERED).addr = DRV_BARN.addr := rfl
@[simp] theorem DRV_BARN.LEAD_addr : (DRV_BARN.LEAD).addr = DRV_BARN.addr := rfl
@[simp] theorem DRV_BARN.IS_LEAD_addr : (DRV_BARN.IS_LEAD).addr = DRV_BARN.addr := rfl
@[simp] theorem DRV_BARN.PRESENT_addr : (DRV_BARN.PRESENT).addr = DRV_BARN.addr := rfl
@[simp] theorem DRV_BARN.FORMED_addr : (DRV_BARN.FORMED).addr = DRV_BARN.addr := rfl
@[simp] theorem DRV_BARN.STEP_addr : (DRV_BARN.STEP).addr = DRV_BARN.addr := rfl
@[simp] theorem DRV_BARN.TABLE_VER_addr : (DRV_BARN.TABLE_VER).addr = DRV_BARN.addr := rfl
@[simp] theorem DRV_ROUTE.NEXT_addr (n : Nat) : (DRV_ROUTE.NEXT n).addr = DRV_ROUTE.addr n := rfl
@[simp] theorem DRV_ROUTE.HOPS_addr (n : Nat) : (DRV_ROUTE.HOPS n).addr = DRV_ROUTE.addr n := rfl
@[simp] theorem DRV_ROUTE.REACH_addr (n : Nat) : (DRV_ROUTE.REACH n).addr = DRV_ROUTE.addr n := rfl
@[simp] theorem DRV_ROUTE.CTRL_LINK_addr (n : Nat) : (DRV_ROUTE.CTRL_LINK n).addr = DRV_ROUTE.addr n := rfl
@[simp] theorem DRV_LOAD.BALES_addr (n : Nat) : (DRV_LOAD.BALES n).addr = DRV_LOAD.addr n := rfl
@[simp] theorem DRV_FLOWS.USED_addr : (DRV_FLOWS.USED).addr = DRV_FLOWS.addr := rfl
@[simp] theorem DRV_FLOWS.WAITS_addr : (DRV_FLOWS.WAITS).addr = DRV_FLOWS.addr := rfl
@[simp] theorem DRV_REBAL.MOVES_addr : (DRV_REBAL.MOVES).addr = DRV_REBAL.addr := rfl
@[simp] theorem DRV_REBAL.IMBAL_addr : (DRV_REBAL.IMBAL).addr = DRV_REBAL.addr := rfl
@[simp] theorem DRV_SEED_LO.SEED_LO_addr : (DRV_SEED_LO.SEED_LO).addr = DRV_SEED_LO.addr := rfl
@[simp] theorem DRV_SEED_HI.SEED_HI_addr : (DRV_SEED_HI.SEED_HI).addr = DRV_SEED_HI.addr := rfl
@[simp] theorem DRV_REROUTE.COUNT_addr : (DRV_REROUTE.COUNT).addr = DRV_REROUTE.addr := rfl
@[simp] theorem DRV_REROUTE.LAST_addr : (DRV_REROUTE.LAST).addr = DRV_REROUTE.addr := rfl
@[simp] theorem DRV_REROUTE.RESYNCS_addr : (DRV_REROUTE.RESYNCS).addr = DRV_REROUTE.addr := rfl
@[simp] theorem DRV_EVT.FORMED_addr : (DRV_EVT.FORMED).addr = DRV_EVT.addr := rfl
@[simp] theorem DRV_EVT.LEAD_CHANGE_addr : (DRV_EVT.LEAD_CHANGE).addr = DRV_EVT.addr := rfl
@[simp] theorem DRV_EVT.JOIN_addr : (DRV_EVT.JOIN).addr = DRV_EVT.addr := rfl
@[simp] theorem DRV_EVT.LOST_addr : (DRV_EVT.LOST).addr = DRV_EVT.addr := rfl
@[simp] theorem DRV_EVT.REROUTE_addr : (DRV_EVT.REROUTE).addr = DRV_EVT.addr := rfl
@[simp] theorem DRV_EVT.STUCK_IMBALANCE_addr : (DRV_EVT.STUCK_IMBALANCE).addr = DRV_EVT.addr := rfl
@[simp] theorem DRV_EVT.RESEED_addr : (DRV_EVT.RESEED).addr = DRV_EVT.addr := rfl
@[simp] theorem DRV_EVT.TABLE_addr : (DRV_EVT.TABLE).addr = DRV_EVT.addr := rfl
@[simp] theorem DRV_X_WRR.W0_addr : (DRV_X_WRR.W0).addr = DRV_X_WRR.addr := rfl
@[simp] theorem DRV_X_WRR.W1_addr : (DRV_X_WRR.W1).addr = DRV_X_WRR.addr := rfl
@[simp] theorem DRV_X_WRR.W2_addr : (DRV_X_WRR.W2).addr = DRV_X_WRR.addr := rfl
@[simp] theorem DRV_X_WRR.W3_addr : (DRV_X_WRR.W3).addr = DRV_X_WRR.addr := rfl
@[simp] theorem DRV_X_REBAL.THRESH_PCT_addr : (DRV_X_REBAL.THRESH_PCT).addr = DRV_X_REBAL.addr := rfl
@[simp] theorem DRV_X_REBAL.WINDOWS_addr : (DRV_X_REBAL.WINDOWS).addr = DRV_X_REBAL.addr := rfl
@[simp] theorem DRV_X_REBAL.IDLE_US_addr : (DRV_X_REBAL.IDLE_US).addr = DRV_X_REBAL.addr := rfl
@[simp] theorem DRV_X_REBAL.MAX_MOVES_addr : (DRV_X_REBAL.MAX_MOVES).addr = DRV_X_REBAL.addr := rfl
@[simp] theorem TCP_CTRL.ENABLE_addr : (TCP_CTRL.ENABLE).addr = TCP_CTRL.addr := rfl
@[simp] theorem TCP_CTRL.PD_EN_addr : (TCP_CTRL.PD_EN).addr = TCP_CTRL.addr := rfl
@[simp] theorem TCP_CTRL.TRIM_EN_addr : (TCP_CTRL.TRIM_EN).addr = TCP_CTRL.addr := rfl
@[simp] theorem TCP_PORT.STATE_addr (n : Nat) : (TCP_PORT.STATE n).addr = TCP_PORT.addr n := rfl
@[simp] theorem TCP_PORT.ORIENT_addr (n : Nat) : (TCP_PORT.ORIENT n).addr = TCP_PORT.addr n := rfl
@[simp] theorem TCP_PORT.RP_addr (n : Nat) : (TCP_PORT.RP n).addr = TCP_PORT.addr n := rfl
@[simp] theorem TCP_PORT.VCONN_ON_addr (n : Nat) : (TCP_PORT.VCONN_ON n).addr = TCP_PORT.addr n := rfl
@[simp] theorem TCP_PORT.CONTRACT_addr (n : Nat) : (TCP_PORT.CONTRACT n).addr = TCP_PORT.addr n := rfl
@[simp] theorem TCP_PORT.PD_REV_addr (n : Nat) : (TCP_PORT.PD_REV n).addr = TCP_PORT.addr n := rfl
@[simp] theorem TCP_PORT.HR_COUNT_addr (n : Nat) : (TCP_PORT.HR_COUNT n).addr = TCP_PORT.addr n := rfl
@[simp] theorem TCP_PORT.DATA_ON_addr (n : Nat) : (TCP_PORT.DATA_ON n).addr = TCP_PORT.addr n := rfl
@[simp] theorem TCP_CONTRACT.OBJ_POS_addr (n : Nat) : (TCP_CONTRACT.OBJ_POS n).addr = TCP_CONTRACT.addr n := rfl
@[simp] theorem TCP_CONTRACT.KIND_addr (n : Nat) : (TCP_CONTRACT.KIND n).addr = TCP_CONTRACT.addr n := rfl
@[simp] theorem TCP_CONTRACT.EPR_addr (n : Nat) : (TCP_CONTRACT.EPR n).addr = TCP_CONTRACT.addr n := rfl
@[simp] theorem TCP_CONTRACT.VOLTAGE_addr (n : Nat) : (TCP_CONTRACT.VOLTAGE n).addr = TCP_CONTRACT.addr n := rfl
@[simp] theorem TCP_CONTRACT.CURRENT_addr (n : Nat) : (TCP_CONTRACT.CURRENT n).addr = TCP_CONTRACT.addr n := rfl
@[simp] theorem TCP_VSET.TARGET_addr (n : Nat) : (TCP_VSET.TARGET n).addr = TCP_VSET.addr n := rfl
@[simp] theorem TCP_VSET.CODE_addr (n : Nat) : (TCP_VSET.CODE n).addr = TCP_VSET.addr n := rfl
@[simp] theorem TCP_VSET.SLEWING_addr (n : Nat) : (TCP_VSET.SLEWING n).addr = TCP_VSET.addr n := rfl
@[simp] theorem TCP_VSET.FROZEN_addr (n : Nat) : (TCP_VSET.FROZEN n).addr = TCP_VSET.addr n := rfl
@[simp] theorem TCP_CABLE.RA_addr (n : Nat) : (TCP_CABLE.RA n).addr = TCP_CABLE.addr n := rfl
@[simp] theorem TCP_CABLE.DISCOVERED_addr (n : Nat) : (TCP_CABLE.DISCOVERED n).addr = TCP_CABLE.addr n := rfl
@[simp] theorem TCP_CABLE.AMP5_addr (n : Nat) : (TCP_CABLE.AMP5 n).addr = TCP_CABLE.addr n := rfl
@[simp] theorem TCP_CABLE.MAX_V_addr (n : Nat) : (TCP_CABLE.MAX_V n).addr = TCP_CABLE.addr n := rfl
@[simp] theorem TCP_CABLE.EPR_OK_addr (n : Nat) : (TCP_CABLE.EPR_OK n).addr = TCP_CABLE.addr n := rfl
@[simp] theorem TCP_CABLE.ATTEMPTS_addr (n : Nat) : (TCP_CABLE.ATTEMPTS n).addr = TCP_CABLE.addr n := rfl
@[simp] theorem TCP_EVT.ATTACH_addr (n : Nat) : (TCP_EVT.ATTACH n).addr = TCP_EVT.addr n := rfl
@[simp] theorem TCP_EVT.DETACH_addr (n : Nat) : (TCP_EVT.DETACH n).addr = TCP_EVT.addr n := rfl
@[simp] theorem TCP_EVT.CONTRACT_addr (n : Nat) : (TCP_EVT.CONTRACT n).addr = TCP_EVT.addr n := rfl
@[simp] theorem TCP_EVT.HR_RX_addr (n : Nat) : (TCP_EVT.HR_RX n).addr = TCP_EVT.addr n := rfl
@[simp] theorem TCP_EVT.HR_TX_addr (n : Nat) : (TCP_EVT.HR_TX n).addr = TCP_EVT.addr n := rfl
@[simp] theorem TCP_EVT.SOFT_RESET_addr (n : Nat) : (TCP_EVT.SOFT_RESET n).addr = TCP_EVT.addr n := rfl
@[simp] theorem TCP_EVT.VCONN_SWAP_addr (n : Nat) : (TCP_EVT.VCONN_SWAP n).addr = TCP_EVT.addr n := rfl
@[simp] theorem TCP_EVT.KA_TIMEOUT_addr (n : Nat) : (TCP_EVT.KA_TIMEOUT n).addr = TCP_EVT.addr n := rfl
@[simp] theorem TCP_EVT.NOT_READY_addr (n : Nat) : (TCP_EVT.NOT_READY n).addr = TCP_EVT.addr n := rfl
@[simp] theorem TCP_EVT.FAST_DETACH_addr (n : Nat) : (TCP_EVT.FAST_DETACH n).addr = TCP_EVT.addr n := rfl
@[simp] theorem TCP_EVT.CC_OV_addr (n : Nat) : (TCP_EVT.CC_OV n).addr = TCP_EVT.addr n := rfl
@[simp] theorem TCP_EVT.VCONN_OC_addr (n : Nat) : (TCP_EVT.VCONN_OC n).addr = TCP_EVT.addr n := rfl
@[simp] theorem TCP_EVT.ACC_SEEN_addr (n : Nat) : (TCP_EVT.ACC_SEEN n).addr = TCP_EVT.addr n := rfl
@[simp] theorem TCP_DP.STATE_addr (n : Nat) : (TCP_DP.STATE n).addr = TCP_DP.addr n := rfl
@[simp] theorem TCP_DP.PINS_addr (n : Nat) : (TCP_DP.PINS n).addr = TCP_DP.addr n := rfl
@[simp] theorem TCP_DP.MUX_addr (n : Nat) : (TCP_DP.MUX n).addr = TCP_DP.addr n := rfl
@[simp] theorem TCP_DP.HPD_addr (n : Nat) : (TCP_DP.HPD n).addr = TCP_DP.addr n := rfl
@[simp] theorem TCP_DP.BILLBOARD_addr (n : Nat) : (TCP_DP.BILLBOARD n).addr = TCP_DP.addr n := rfl
@[simp] theorem TCP_X_TIMER.CC_DEB_MS_addr : (TCP_X_TIMER.CC_DEB_MS).addr = TCP_X_TIMER.addr := rfl
@[simp] theorem TCP_X_TIMER.SLEW_addr : (TCP_X_TIMER.SLEW).addr = TCP_X_TIMER.addr := rfl
@[simp] theorem TCP_X_TIMER.PPS_TO_S_addr : (TCP_X_TIMER.PPS_TO_S).addr = TCP_X_TIMER.addr := rfl
@[simp] theorem TCP_X_TIMER.EPR_KA_10MS_addr : (TCP_X_TIMER.EPR_KA_10MS).addr = TCP_X_TIMER.addr := rfl
@[simp] theorem PPW_CTRL.ENABLE_addr : (PPW_CTRL.ENABLE).addr = PPW_CTRL.addr := rfl
@[simp] theorem PPW_PG.PG_OUT_addr : (PPW_PG.PG_OUT).addr = PPW_PG.addr := rfl
@[simp] theorem PPW_SEAT.RAW_addr : (PPW_SEAT.RAW).addr = PPW_SEAT.addr := rfl
@[simp] theorem PPW_SEAT.SEATED_addr : (PPW_SEAT.SEATED).addr = PPW_SEAT.addr := rfl
@[simp] theorem PPW_CLEAR.CLEAR_addr : (PPW_CLEAR.CLEAR).addr = PPW_CLEAR.addr := rfl
@[simp] theorem PPW_RAMP.RAMP_addr (n : Nat) : (PPW_RAMP.RAMP n).addr = PPW_RAMP.addr n := rfl
@[simp] theorem PPW_RAMP.GATE_STUCK_addr (n : Nat) : (PPW_RAMP.GATE_STUCK n).addr = PPW_RAMP.addr n := rfl
@[simp] theorem PPW_RAMP.SEAT_DEB_addr (n : Nat) : (PPW_RAMP.SEAT_DEB n).addr = PPW_RAMP.addr n := rfl
@[simp] theorem PPW_LIMIT.ILIM_addr (n : Nat) : (PPW_LIMIT.ILIM n).addr = PPW_LIMIT.addr n := rfl
@[simp] theorem PPW_LIMIT.EFFECTIVE_addr (n : Nat) : (PPW_LIMIT.EFFECTIVE n).addr = PPW_LIMIT.addr n := rfl
@[simp] theorem PPW_TRIP.FAST_addr (n : Nat) : (PPW_TRIP.FAST n).addr = PPW_TRIP.addr n := rfl
@[simp] theorem PPW_TRIP.SLOW_addr (n : Nat) : (PPW_TRIP.SLOW n).addr = PPW_TRIP.addr n := rfl
@[simp] theorem PPW_RETRY.RETRY_addr (n : Nat) : (PPW_RETRY.RETRY n).addr = PPW_RETRY.addr n := rfl
@[simp] theorem PPW_RETRY.RETRIES_addr (n : Nat) : (PPW_RETRY.RETRIES n).addr = PPW_RETRY.addr n := rfl
@[simp] theorem PPW_RETRY.COUNT_addr (n : Nat) : (PPW_RETRY.COUNT n).addr = PPW_RETRY.addr n := rfl
@[simp] theorem PPW_RETRY.WAIT_addr (n : Nat) : (PPW_RETRY.WAIT n).addr = PPW_RETRY.addr n := rfl
@[simp] theorem PPW_STATUS.STATE_addr (n : Nat) : (PPW_STATUS.STATE n).addr = PPW_STATUS.addr n := rfl
@[simp] theorem PPW_STATUS.PG_addr (n : Nat) : (PPW_STATUS.PG n).addr = PPW_STATUS.addr n := rfl
@[simp] theorem PPW_STATUS.TIMER_addr (n : Nat) : (PPW_STATUS.TIMER n).addr = PPW_STATUS.addr n := rfl
@[simp] theorem PPW_STATUS.SEATED_addr (n : Nat) : (PPW_STATUS.SEATED n).addr = PPW_STATUS.addr n := rfl
@[simp] theorem PPW_STATUS.DISCH_addr (n : Nat) : (PPW_STATUS.DISCH n).addr = PPW_STATUS.addr n := rfl
@[simp] theorem PPW_STATUS.REDUCED_addr (n : Nat) : (PPW_STATUS.REDUCED n).addr = PPW_STATUS.addr n := rfl
@[simp] theorem PPW_STATUS.SINK_addr (n : Nat) : (PPW_STATUS.SINK n).addr = PPW_STATUS.addr n := rfl
@[simp] theorem PPW_STATUS.GATE_OK_addr (n : Nat) : (PPW_STATUS.GATE_OK n).addr = PPW_STATUS.addr n := rfl
@[simp] theorem PPW_EVT.FAST_addr (n : Nat) : (PPW_EVT.FAST n).addr = PPW_EVT.addr n := rfl
@[simp] theorem PPW_EVT.SLOW_addr (n : Nat) : (PPW_EVT.SLOW n).addr = PPW_EVT.addr n := rfl
@[simp] theorem PPW_EVT.UV_addr (n : Nat) : (PPW_EVT.UV n).addr = PPW_EVT.addr n := rfl
@[simp] theorem PPW_EVT.RAMP_FAIL_addr (n : Nat) : (PPW_EVT.RAMP_FAIL n).addr = PPW_EVT.addr n := rfl
@[simp] theorem PPW_EVT.GATE_STUCK_addr (n : Nat) : (PPW_EVT.GATE_STUCK n).addr = PPW_EVT.addr n := rfl
@[simp] theorem PPW_EVT.FET_SHORT_addr (n : Nat) : (PPW_EVT.FET_SHORT n).addr = PPW_EVT.addr n := rfl
@[simp] theorem PPW_EVT.SEAT_OUT_addr (n : Nat) : (PPW_EVT.SEAT_OUT n).addr = PPW_EVT.addr n := rfl
@[simp] theorem PPW_EVT.LATCHED_addr (n : Nat) : (PPW_EVT.LATCHED n).addr = PPW_EVT.addr n := rfl
@[simp] theorem PPW_EVT.PG_WITHHELD_addr (n : Nat) : (PPW_EVT.PG_WITHHELD n).addr = PPW_EVT.addr n := rfl
@[simp] theorem PPW_EVT.RETRY_OK_addr (n : Nat) : (PPW_EVT.RETRY_OK n).addr = PPW_EVT.addr n := rfl
@[simp] theorem PPW_EVT.SHED_addr (n : Nat) : (PPW_EVT.SHED n).addr = PPW_EVT.addr n := rfl
@[simp] theorem PPW_X_GATE.UV_PCT_addr : (PPW_X_GATE.UV_PCT).addr = PPW_X_GATE.addr := rfl
@[simp] theorem PPW_X_GATE.UV_TIME_addr : (PPW_X_GATE.UV_TIME).addr = PPW_X_GATE.addr := rfl
@[simp] theorem PPW_X_GATE.PG_HOLD_MS_addr : (PPW_X_GATE.PG_HOLD_MS).addr = PPW_X_GATE.addr := rfl
@[simp] theorem TLM_CTRL.ENABLE_addr : (TLM_CTRL.ENABLE).addr = TLM_CTRL.addr := rfl
@[simp] theorem TLM_CTRL.FAULT_A_addr : (TLM_CTRL.FAULT_A).addr = TLM_CTRL.addr := rfl
@[simp] theorem TLM_CTRL.FAULT_B_addr : (TLM_CTRL.FAULT_B).addr = TLM_CTRL.addr := rfl
@[simp] theorem TLM_ECLR.CLEAR_addr : (TLM_ECLR.CLEAR).addr = TLM_ECLR.addr := rfl
@[simp] theorem TLM_INPUT.VIN_addr : (TLM_INPUT.VIN).addr = TLM_INPUT.addr := rfl
@[simp] theorem TLM_INPUT.IIN_addr : (TLM_INPUT.IIN).addr = TLM_INPUT.addr := rfl
@[simp] theorem TLM_TEMP.T0_addr : (TLM_TEMP.T0).addr = TLM_TEMP.addr := rfl
@[simp] theorem TLM_TEMP.T1_addr : (TLM_TEMP.T1).addr = TLM_TEMP.addr := rfl
@[simp] theorem TLM_TEMP.T2_addr : (TLM_TEMP.T2).addr = TLM_TEMP.addr := rfl
@[simp] theorem TLM_TEMP.T3_addr : (TLM_TEMP.T3).addr = TLM_TEMP.addr := rfl
@[simp] theorem TLM_INWARN.PWRWARN_addr : (TLM_INWARN.PWRWARN).addr = TLM_INWARN.addr := rfl
@[simp] theorem TLM_INWARN.VIN_LOW_addr : (TLM_INWARN.VIN_LOW).addr = TLM_INWARN.addr := rfl
@[simp] theorem TLM_INWARN.IIN_HIGH_addr : (TLM_INWARN.IIN_HIGH).addr = TLM_INWARN.addr := rfl
@[simp] theorem TLM_INWARN.AC_FAIL_addr : (TLM_INWARN.AC_FAIL).addr = TLM_INWARN.addr := rfl
@[simp] theorem TLM_INWARN.VIN_UV_addr : (TLM_INWARN.VIN_UV).addr = TLM_INWARN.addr := rfl
@[simp] theorem TLM_INST.V_addr (n : Nat) : (TLM_INST.V n).addr = TLM_INST.addr n := rfl
@[simp] theorem TLM_INST.I_addr (n : Nat) : (TLM_INST.I n).addr = TLM_INST.addr n := rfl
@[simp] theorem TLM_AVG1MS.V_addr (n : Nat) : (TLM_AVG1MS.V n).addr = TLM_AVG1MS.addr n := rfl
@[simp] theorem TLM_AVG1MS.I_addr (n : Nat) : (TLM_AVG1MS.I n).addr = TLM_AVG1MS.addr n := rfl
@[simp] theorem TLM_AVG100MS.V_addr (n : Nat) : (TLM_AVG100MS.V n).addr = TLM_AVG100MS.addr n := rfl
@[simp] theorem TLM_AVG100MS.I_addr (n : Nat) : (TLM_AVG100MS.I n).addr = TLM_AVG100MS.addr n := rfl
@[simp] theorem TLM_AVG1S.V_addr (n : Nat) : (TLM_AVG1S.V n).addr = TLM_AVG1S.addr n := rfl
@[simp] theorem TLM_AVG1S.I_addr (n : Nat) : (TLM_AVG1S.I n).addr = TLM_AVG1S.addr n := rfl
@[simp] theorem TLM_PWR.P_1MS_addr (n : Nat) : (TLM_PWR.P_1MS n).addr = TLM_PWR.addr n := rfl
@[simp] theorem TLM_PWR.P_1S_addr (n : Nat) : (TLM_PWR.P_1S n).addr = TLM_PWR.addr n := rfl
@[simp] theorem TLM_ENERGY_LO.E_LO_addr (n : Nat) : (TLM_ENERGY_LO.E_LO n).addr = TLM_ENERGY_LO.addr n := rfl
@[simp] theorem TLM_ENERGY_HI.E_HI_addr (n : Nat) : (TLM_ENERGY_HI.E_HI n).addr = TLM_ENERGY_HI.addr n := rfl
@[simp] theorem TLM_PEAK.I_PEAK_addr (n : Nat) : (TLM_PEAK.I_PEAK n).addr = TLM_PEAK.addr n := rfl
@[simp] theorem TLM_PEAK.REVERSE_addr (n : Nat) : (TLM_PEAK.REVERSE n).addr = TLM_PEAK.addr n := rfl
@[simp] theorem BUD_CTRL.ENABLE_addr : (BUD_CTRL.ENABLE).addr = BUD_CTRL.addr := rfl
@[simp] theorem BUD_STATUS.SUM_addr : (BUD_STATUS.SUM).addr = BUD_STATUS.addr := rfl
@[simp] theorem BUD_STATUS.BUDGET_addr : (BUD_STATUS.BUDGET).addr = BUD_STATUS.addr := rfl
@[simp] theorem BUD_STATE.OVER_addr : (BUD_STATE.OVER).addr = BUD_STATE.addr := rfl
@[simp] theorem BUD_STATE.REDUCING_addr : (BUD_STATE.REDUCING).addr = BUD_STATE.addr := rfl
@[simp] theorem BUD_STATE.SHEDDING_addr : (BUD_STATE.SHEDDING).addr = BUD_STATE.addr := rfl
@[simp] theorem BUD_STATE.WARN_addr : (BUD_STATE.WARN).addr = BUD_STATE.addr := rfl
@[simp] theorem BUD_EVT.REDUCE_addr : (BUD_EVT.REDUCE).addr = BUD_EVT.addr := rfl
@[simp] theorem BUD_EVT.SHED_addr : (BUD_EVT.SHED).addr = BUD_EVT.addr := rfl
@[simp] theorem BUD_EVT.LIFT_addr : (BUD_EVT.LIFT).addr = BUD_EVT.addr := rfl
@[simp] theorem BUD_EVT.WARN_addr : (BUD_EVT.WARN).addr = BUD_EVT.addr := rfl
@[simp] theorem BUD_PORT.ACCOUNTED_addr (n : Nat) : (BUD_PORT.ACCOUNTED n).addr = BUD_PORT.addr n := rfl
@[simp] theorem BUD_PORT.FIRST_USE_addr (n : Nat) : (BUD_PORT.FIRST_USE n).addr = BUD_PORT.addr n := rfl
@[simp] theorem BUD_PORT.REDUCED_addr (n : Nat) : (BUD_PORT.REDUCED n).addr = BUD_PORT.addr n := rfl
@[simp] theorem BUD_PORT.SHED_addr (n : Nat) : (BUD_PORT.SHED n).addr = BUD_PORT.addr n := rfl
@[simp] theorem BUD_PORT.PRIORITY_addr (n : Nat) : (BUD_PORT.PRIORITY n).addr = BUD_PORT.addr n := rfl
@[simp] theorem BUD_RLIM.RLIM_addr (n : Nat) : (BUD_RLIM.RLIM n).addr = BUD_RLIM.addr n := rfl
@[simp] theorem BUD_X_CTRL.TARGET_PCT_addr : (BUD_X_CTRL.TARGET_PCT).addr = BUD_X_CTRL.addr := rfl
@[simp] theorem BUD_X_CTRL.LIFT_PCT_addr : (BUD_X_CTRL.LIFT_PCT).addr = BUD_X_CTRL.addr := rfl
@[simp] theorem BUD_X_CTRL.GRACE_addr : (BUD_X_CTRL.GRACE).addr = BUD_X_CTRL.addr := rfl
@[simp] theorem BUD_X_CTRL.FLOOR_addr : (BUD_X_CTRL.FLOOR).addr = BUD_X_CTRL.addr := rfl
@[simp] theorem BUD_X_WARN.WARN_PCT_addr : (BUD_X_WARN.WARN_PCT).addr = BUD_X_WARN.addr := rfl
@[simp] theorem PDC_CTRL.AUTO_WAKE_addr : (PDC_CTRL.AUTO_WAKE).addr = PDC_CTRL.addr := rfl
@[simp] theorem PDC_CTRL.ENABLE_addr : (PDC_CTRL.ENABLE).addr = PDC_CTRL.addr := rfl
@[simp] theorem PDC_STATE.STATE_addr : (PDC_STATE.STATE).addr = PDC_STATE.addr := rfl
@[simp] theorem PDC_STICKY.SLEEP_ACCESS_addr : (PDC_STICKY.SLEEP_ACCESS).addr = PDC_STICKY.addr := rfl
@[simp] theorem PDC_STICKY.SLOW_WAKE_addr : (PDC_STICKY.SLOW_WAKE).addr = PDC_STICKY.addr := rfl
@[simp] theorem PDC_STICKY.WAKE_FAIL_addr : (PDC_STICKY.WAKE_FAIL).addr = PDC_STICKY.addr := rfl
@[simp] theorem PDC_STICKY.OFF_FAIL_addr : (PDC_STICKY.OFF_FAIL).addr = PDC_STICKY.addr := rfl
@[simp] theorem PDC_STICKY.RESTORE_ERR_addr : (PDC_STICKY.RESTORE_ERR).addr = PDC_STICKY.addr := rfl
@[simp] theorem PDC_STICKY.SLEEP_DOM_addr : (PDC_STICKY.SLEEP_DOM).addr = PDC_STICKY.addr := rfl
@[simp] theorem PDC_XTAL.RUNNING_addr : (PDC_XTAL.RUNNING).addr = PDC_XTAL.addr := rfl
@[simp] theorem PDC_XTAL.STOP_EN_addr : (PDC_XTAL.STOP_EN).addr = PDC_XTAL.addr := rfl
@[simp] theorem PDC_XTAL.IDLE_MS_addr : (PDC_XTAL.IDLE_MS).addr = PDC_XTAL.addr := rfl
@[simp] theorem PDC_XTAL.LEAD_MS_addr : (PDC_XTAL.LEAD_MS).addr = PDC_XTAL.addr := rfl
@[simp] theorem PDC_XTAL.STOPS_addr : (PDC_XTAL.STOPS).addr = PDC_XTAL.addr := rfl
@[simp] theorem PDC_DOM.STATE_addr (n : Nat) : (PDC_DOM.STATE n).addr = PDC_DOM.addr n := rfl
@[simp] theorem PDC_DOM.PHASE_addr (n : Nat) : (PDC_DOM.PHASE n).addr = PDC_DOM.addr n := rfl
@[simp] theorem PDC_DOM.FLOOR_addr (n : Nat) : (PDC_DOM.FLOOR n).addr = PDC_DOM.addr n := rfl
@[simp] theorem PDC_DOM.TARGET_addr (n : Nat) : (PDC_DOM.TARGET n).addr = PDC_DOM.addr n := rfl
@[simp] theorem PDC_DOM.TRIES_addr (n : Nat) : (PDC_DOM.TRIES n).addr = PDC_DOM.addr n := rfl
@[simp] theorem PDC_DOM.CAUSE_addr (n : Nat) : (PDC_DOM.CAUSE n).addr = PDC_DOM.addr n := rfl
@[simp] theorem PDC_DOM.WAKES_addr (n : Nat) : (PDC_DOM.WAKES n).addr = PDC_DOM.addr n := rfl
@[simp] theorem PDC_VOTE.VOTES_addr (n : Nat) : (PDC_VOTE.VOTES n).addr = PDC_VOTE.addr n := rfl
@[simp] theorem PDC_MYVOTE.VOTE_addr (n : Nat) : (PDC_MYVOTE.VOTE n).addr = PDC_MYVOTE.addr n := rfl
@[simp] theorem PDC_CFG.ALLOW_RET_addr (n : Nat) : (PDC_CFG.ALLOW_RET n).addr = PDC_CFG.addr n := rfl
@[simp] theorem PDC_CFG.ALLOW_OFF_addr (n : Nat) : (PDC_CFG.ALLOW_OFF n).addr = PDC_CFG.addr n := rfl
@[simp] theorem PDC_CFG.PREDICT_addr (n : Nat) : (PDC_CFG.PREDICT n).addr = PDC_CFG.addr n := rfl
@[simp] theorem PDC_CFG.QUIET_MS_addr (n : Nat) : (PDC_CFG.QUIET_MS n).addr = PDC_CFG.addr n := rfl
@[simp] theorem PDC_CFG.OFF_MS_addr (n : Nat) : (PDC_CFG.OFF_MS n).addr = PDC_CFG.addr n := rfl
@[simp] theorem PDC_RETUS.RET_US_addr (n : Nat) : (PDC_RETUS.RET_US n).addr = PDC_RETUS.addr n := rfl
@[simp] theorem PDC_X_TIME.SW_ACK_US_addr : (PDC_X_TIME.SW_ACK_US).addr = PDC_X_TIME.addr := rfl
@[simp] theorem PDC_X_TIME.PLL_10US_addr : (PDC_X_TIME.PLL_10US).addr = PDC_X_TIME.addr := rfl
@[simp] theorem PDC_X_TIME.XTAL_MS_addr : (PDC_X_TIME.XTAL_MS).addr = PDC_X_TIME.addr := rfl
@[simp] theorem PDC_X_TIME.RETRIES_addr : (PDC_X_TIME.RETRIES).addr = PDC_X_TIME.addr := rfl
@[simp] theorem PDC_X_TIME.AUTO_HOLD_MS_addr : (PDC_X_TIME.AUTO_HOLD_MS).addr = PDC_X_TIME.addr := rfl
@[simp] theorem MBX_IN_W.WORD_addr (c w : Nat) : (MBX_IN_W.WORD c w).addr = MBX_IN_W.addr c w := rfl
@[simp] theorem MBX_OUT_W.WORD_addr (c w : Nat) : (MBX_OUT_W.WORD c w).addr = MBX_OUT_W.addr c w := rfl
@[simp] theorem MBX_IN_CTRL.GO_addr (n : Nat) : (MBX_IN_CTRL.GO n).addr = MBX_IN_CTRL.addr n := rfl
@[simp] theorem MBX_IN_CTRL.COUNT_addr (n : Nat) : (MBX_IN_CTRL.COUNT n).addr = MBX_IN_CTRL.addr n := rfl
@[simp] theorem MBX_IN_CTRL.REPLY_addr (n : Nat) : (MBX_IN_CTRL.REPLY n).addr = MBX_IN_CTRL.addr n := rfl
@[simp] theorem MBX_IN_CTRL.SEQ_addr (n : Nat) : (MBX_IN_CTRL.SEQ n).addr = MBX_IN_CTRL.addr n := rfl
@[simp] theorem MBX_IN_CTRL.PARTY_addr (n : Nat) : (MBX_IN_CTRL.PARTY n).addr = MBX_IN_CTRL.addr n := rfl
@[simp] theorem MBX_IN_CTRL.MEMBER_addr (n : Nat) : (MBX_IN_CTRL.MEMBER n).addr = MBX_IN_CTRL.addr n := rfl
@[simp] theorem MBX_OUT_CTRL.GO_addr (n : Nat) : (MBX_OUT_CTRL.GO n).addr = MBX_OUT_CTRL.addr n := rfl
@[simp] theorem MBX_OUT_CTRL.COUNT_addr (n : Nat) : (MBX_OUT_CTRL.COUNT n).addr = MBX_OUT_CTRL.addr n := rfl
@[simp] theorem MBX_OUT_CTRL.REPLY_addr (n : Nat) : (MBX_OUT_CTRL.REPLY n).addr = MBX_OUT_CTRL.addr n := rfl
@[simp] theorem MBX_OUT_CTRL.SEQ_addr (n : Nat) : (MBX_OUT_CTRL.SEQ n).addr = MBX_OUT_CTRL.addr n := rfl
@[simp] theorem MBX_OUT_CTRL.PARTY_addr (n : Nat) : (MBX_OUT_CTRL.PARTY n).addr = MBX_OUT_CTRL.addr n := rfl
@[simp] theorem MBX_OUT_CTRL.MEMBER_addr (n : Nat) : (MBX_OUT_CTRL.MEMBER n).addr = MBX_OUT_CTRL.addr n := rfl
@[simp] theorem MBX_DB.IN_DB_addr (n : Nat) : (MBX_DB.IN_DB n).addr = MBX_DB.addr n := rfl
@[simp] theorem MBX_DB.OUT_DB_addr (n : Nat) : (MBX_DB.OUT_DB n).addr = MBX_DB.addr n := rfl
@[simp] theorem MBX_DB.OUT_CAUSE_addr (n : Nat) : (MBX_DB.OUT_CAUSE n).addr = MBX_DB.addr n := rfl
@[simp] theorem MBX_DB.OUT_TAG_addr (n : Nat) : (MBX_DB.OUT_TAG n).addr = MBX_DB.addr n := rfl
@[simp] theorem MBX_STATUS.OUT_TIMEOUT_addr (n : Nat) : (MBX_STATUS.OUT_TIMEOUT n).addr = MBX_STATUS.addr n := rfl
@[simp] theorem MBX_STATUS.OVERRUN_addr (n : Nat) : (MBX_STATUS.OVERRUN n).addr = MBX_STATUS.addr n := rfl
@[simp] theorem MBX_STATUS.BAD_COUNT_addr (n : Nat) : (MBX_STATUS.BAD_COUNT n).addr = MBX_STATUS.addr n := rfl
@[simp] theorem MBX_STATUS.REPEAT_addr (n : Nat) : (MBX_STATUS.REPEAT n).addr = MBX_STATUS.addr n := rfl
@[simp] theorem MBX_STATUS.HELD_addr (n : Nat) : (MBX_STATUS.HELD n).addr = MBX_STATUS.addr n := rfl
@[simp] theorem MBX_STATUS.NOTICE_LOST_addr (n : Nat) : (MBX_STATUS.NOTICE_LOST n).addr = MBX_STATUS.addr n := rfl
@[simp] theorem MBX_ASSIGN.PARTY_addr (n : Nat) : (MBX_ASSIGN.PARTY n).addr = MBX_ASSIGN.addr n := rfl
@[simp] theorem MBX_ASSIGN.NOTIFY_addr (n : Nat) : (MBX_ASSIGN.NOTIFY n).addr = MBX_ASSIGN.addr n := rfl
@[simp] theorem MBX_ASSIGN.TIMEOUT_addr (n : Nat) : (MBX_ASSIGN.TIMEOUT n).addr = MBX_ASSIGN.addr n := rfl
@[simp] theorem MBX_LOCK.OWNER_addr (n : Nat) : (MBX_LOCK.OWNER n).addr = MBX_LOCK.addr n := rfl
@[simp] theorem MBX_LOCK.AGAIN_addr (n : Nat) : (MBX_LOCK.AGAIN n).addr = MBX_LOCK.addr n := rfl
@[simp] theorem MBX_LOCK.ACQUIRED_addr (n : Nat) : (MBX_LOCK.ACQUIRED n).addr = MBX_LOCK.addr n := rfl
@[simp] theorem MBX_LOCK_OWN_LO.OWNERS_addr : (MBX_LOCK_OWN_LO.OWNERS).addr = MBX_LOCK_OWN_LO.addr := rfl
@[simp] theorem MBX_LOCK_OWN_HI.OWNERS_addr : (MBX_LOCK_OWN_HI.OWNERS).addr = MBX_LOCK_OWN_HI.addr := rfl
@[simp] theorem MBX_ERR.ACCESS_addr : (MBX_ERR.ACCESS).addr = MBX_ERR.addr := rfl
@[simp] theorem MBX_ERR.LOCK_MISUSE_addr : (MBX_ERR.LOCK_MISUSE).addr = MBX_ERR.addr := rfl
@[simp] theorem MBX_ERR.FORCED_addr : (MBX_ERR.FORCED).addr = MBX_ERR.addr := rfl
@[simp] theorem MBX_ERR.MASTER_addr : (MBX_ERR.MASTER).addr = MBX_ERR.addr := rfl
@[simp] theorem MBX_ERR.CHANNEL_addr : (MBX_ERR.CHANNEL).addr = MBX_ERR.addr := rfl
@[simp] theorem MBX_X_CTRL.POLL_MS_addr : (MBX_X_CTRL.POLL_MS).addr = MBX_X_CTRL.addr := rfl
@[simp] theorem TKR_CTRL.ENABLE_addr : (TKR_CTRL.ENABLE).addr = TKR_CTRL.addr := rfl
@[simp] theorem TKR_CTRL.I2C_EN_addr : (TKR_CTRL.I2C_EN).addr = TKR_CTRL.addr := rfl
@[simp] theorem TKR_CTRL.SPI_EN_addr : (TKR_CTRL.SPI_EN).addr = TKR_CTRL.addr := rfl
@[simp] theorem TKR_FUNC.STATE_addr (n : Nat) : (TKR_FUNC.STATE n).addr = TKR_FUNC.addr n := rfl
@[simp] theorem TKR_FUNC.BILLBOARD_addr (n : Nat) : (TKR_FUNC.BILLBOARD n).addr = TKR_FUNC.addr n := rfl
@[simp] theorem TKR_FUNC.ADDR_addr (n : Nat) : (TKR_FUNC.ADDR n).addr = TKR_FUNC.addr n := rfl
@[simp] theorem TKR_FUNC.RWAKE_addr (n : Nat) : (TKR_FUNC.RWAKE n).addr = TKR_FUNC.addr n := rfl
@[simp] theorem TKR_FUNC.SESSION_addr (n : Nat) : (TKR_FUNC.SESSION n).addr = TKR_FUNC.addr n := rfl
@[simp] theorem TKR_FUNC.KEY_ID_addr (n : Nat) : (TKR_FUNC.KEY_ID n).addr = TKR_FUNC.addr n := rfl
@[simp] theorem TKR_FUNC.QUEUE_addr (n : Nat) : (TKR_FUNC.QUEUE n).addr = TKR_FUNC.addr n := rfl
@[simp] theorem TKR_FUNC.EP1_FULL_addr (n : Nat) : (TKR_FUNC.EP1_FULL n).addr = TKR_FUNC.addr n := rfl
@[simp] theorem TKR_FUNC.EP2_FULL_addr (n : Nat) : (TKR_FUNC.EP2_FULL n).addr = TKR_FUNC.addr n := rfl
@[simp] theorem TKR_FUNC.EP3_FULL_addr (n : Nat) : (TKR_FUNC.EP3_FULL n).addr = TKR_FUNC.addr n := rfl
@[simp] theorem TKR_EVT.MSG_STALL_addr (n : Nat) : (TKR_EVT.MSG_STALL n).addr = TKR_EVT.addr n := rfl
@[simp] theorem TKR_EVT.RESET_DISCARD_addr (n : Nat) : (TKR_EVT.RESET_DISCARD n).addr = TKR_EVT.addr n := rfl
@[simp] theorem TKR_EVT.REPLY_DROPPED_addr (n : Nat) : (TKR_EVT.REPLY_DROPPED n).addr = TKR_EVT.addr n := rfl
@[simp] theorem TKR_EVT.BB_NO_PORT_addr (n : Nat) : (TKR_EVT.BB_NO_PORT n).addr = TKR_EVT.addr n := rfl
@[simp] theorem TKR_EVT.SB_TIMEOUT_addr (n : Nat) : (TKR_EVT.SB_TIMEOUT n).addr = TKR_EVT.addr n := rfl
@[simp] theorem TKR_SB.I2C_ADDR_addr : (TKR_SB.I2C_ADDR).addr = TKR_SB.addr := rfl
@[simp] theorem TKR_SB.PEC_addr : (TKR_SB.PEC).addr = TKR_SB.addr := rfl
@[simp] theorem TKR_ALERT.MAILBOX_addr : (TKR_ALERT.MAILBOX).addr = TKR_ALERT.addr := rfl
@[simp] theorem TKR_ALERT.FAULT_addr : (TKR_ALERT.FAULT).addr = TKR_ALERT.addr := rfl
@[simp] theorem TKR_ALERT.PWRWARN_addr : (TKR_ALERT.PWRWARN).addr = TKR_ALERT.addr := rfl
@[simp] theorem TKR_ALERT.QUEUE_addr : (TKR_ALERT.QUEUE).addr = TKR_ALERT.addr := rfl
@[simp] theorem TKR_ALERT.ASSERTED_addr : (TKR_ALERT.ASSERTED).addr = TKR_ALERT.addr := rfl
@[simp] theorem TKR_ALERT_EN.EN_addr : (TKR_ALERT_EN.EN).addr = TKR_ALERT_EN.addr := rfl
@[simp] theorem TKR_AUTH.FAIL0_addr : (TKR_AUTH.FAIL0).addr = TKR_AUTH.addr := rfl
@[simp] theorem TKR_AUTH.FAIL1_addr : (TKR_AUTH.FAIL1).addr = TKR_AUTH.addr := rfl
@[simp] theorem TKR_AUTH.FAIL2_addr : (TKR_AUTH.FAIL2).addr = TKR_AUTH.addr := rfl
@[simp] theorem TKR_AUTH.FAIL3_addr : (TKR_AUTH.FAIL3).addr = TKR_AUTH.addr := rfl
@[simp] theorem TKR_X_CTRL.MSG_NAK_MS_addr : (TKR_X_CTRL.MSG_NAK_MS).addr = TKR_X_CTRL.addr := rfl
@[simp] theorem TKR_X_CTRL.STRETCH_MS_addr : (TKR_X_CTRL.STRETCH_MS).addr = TKR_X_CTRL.addr := rfl
@[simp] theorem TKR_X_CTRL.IDLE_S_addr : (TKR_X_CTRL.IDLE_S).addr = TKR_X_CTRL.addr := rfl
@[simp] theorem OBS_Q_CTRL.RESET_addr (n : Nat) : (OBS_Q_CTRL.RESET n).addr = OBS_Q_CTRL.addr n := rfl
@[simp] theorem OBS_Q_CTRL.ENABLE_addr (n : Nat) : (OBS_Q_CTRL.ENABLE n).addr = OBS_Q_CTRL.addr n := rfl
@[simp] theorem OBS_Q_CTRL.TIMEOUT_MS_addr (n : Nat) : (OBS_Q_CTRL.TIMEOUT_MS n).addr = OBS_Q_CTRL.addr n := rfl
@[simp] theorem OBS_Q_CTRL.CHANNEL_addr (n : Nat) : (OBS_Q_CTRL.CHANNEL n).addr = OBS_Q_CTRL.addr n := rfl
@[simp] theorem OBS_Q_CTRL.OWNER_addr (n : Nat) : (OBS_Q_CTRL.OWNER n).addr = OBS_Q_CTRL.addr n := rfl
@[simp] theorem OBS_Q_DATA.WORD_addr (n : Nat) : (OBS_Q_DATA.WORD n).addr = OBS_Q_DATA.addr n := rfl
@[simp] theorem OBS_Q_STATUS.WORDS_addr (n : Nat) : (OBS_Q_STATUS.WORDS n).addr = OBS_Q_STATUS.addr n := rfl
@[simp] theorem OBS_Q_STATUS.RECORDS_addr (n : Nat) : (OBS_Q_STATUS.RECORDS n).addr = OBS_Q_STATUS.addr n := rfl
@[simp] theorem OBS_Q_STATUS.TIMEOUT_addr (n : Nat) : (OBS_Q_STATUS.TIMEOUT n).addr = OBS_Q_STATUS.addr n := rfl
@[simp] theorem OBS_Q_STATUS.TORN_addr (n : Nat) : (OBS_Q_STATUS.TORN n).addr = OBS_Q_STATUS.addr n := rfl
@[simp] theorem OBS_Q_STATUS.OWNED_addr (n : Nat) : (OBS_Q_STATUS.OWNED n).addr = OBS_Q_STATUS.addr n := rfl
@[simp] theorem OBS_Q_STATUS.WRITING_addr (n : Nat) : (OBS_Q_STATUS.WRITING n).addr = OBS_Q_STATUS.addr n := rfl
@[simp] theorem OBS_Q_STATUS.READING_addr (n : Nat) : (OBS_Q_STATUS.READING n).addr = OBS_Q_STATUS.addr n := rfl
@[simp] theorem OBS_Q_PTR.WR_addr (n : Nat) : (OBS_Q_PTR.WR n).addr = OBS_Q_PTR.addr n := rfl
@[simp] theorem OBS_Q_PTR.RD_addr (n : Nat) : (OBS_Q_PTR.RD n).addr = OBS_Q_PTR.addr n := rfl
@[simp] theorem OBS_Q_LOST.LOST_addr (n : Nat) : (OBS_Q_LOST.LOST n).addr = OBS_Q_LOST.addr n := rfl
@[simp] theorem OBS_CYCLE_LO.CYCLE_LO_addr : (OBS_CYCLE_LO.CYCLE_LO).addr = OBS_CYCLE_LO.addr := rfl
@[simp] theorem OBS_CYCLE_HI.CYCLE_HI_addr : (OBS_CYCLE_HI.CYCLE_HI).addr = OBS_CYCLE_HI.addr := rfl
@[simp] theorem OBS_PMU_CTRL.RECOVERY_addr : (OBS_PMU_CTRL.RECOVERY).addr = OBS_PMU_CTRL.addr := rfl
@[simp] theorem OBS_PMU_CTRL.FREEZE_addr : (OBS_PMU_CTRL.FREEZE).addr = OBS_PMU_CTRL.addr := rfl
@[simp] theorem OBS_PMU_CTRL.CHAINED_addr : (OBS_PMU_CTRL.CHAINED).addr = OBS_PMU_CTRL.addr := rfl
@[simp] theorem OBS_PMU_OVF.OVF_addr : (OBS_PMU_OVF.OVF).addr = OBS_PMU_OVF.addr := rfl
@[simp] theorem OBS_PMU_EVT.EVENT_addr (n : Nat) : (OBS_PMU_EVT.EVENT n).addr = OBS_PMU_EVT.addr n := rfl
@[simp] theorem OBS_PMU_EVT.FILTER_addr (n : Nat) : (OBS_PMU_EVT.FILTER n).addr = OBS_PMU_EVT.addr n := rfl
@[simp] theorem OBS_PMU_EVT.ENABLE_addr (n : Nat) : (OBS_PMU_EVT.ENABLE n).addr = OBS_PMU_EVT.addr n := rfl
@[simp] theorem OBS_PMU_EVT.CLEAR_addr (n : Nat) : (OBS_PMU_EVT.CLEAR n).addr = OBS_PMU_EVT.addr n := rfl
@[simp] theorem OBS_PMU_LO.COUNT_LO_addr (n : Nat) : (OBS_PMU_LO.COUNT_LO n).addr = OBS_PMU_LO.addr n := rfl
@[simp] theorem OBS_PMU_HI.COUNT_HI_addr (n : Nat) : (OBS_PMU_HI.COUNT_HI n).addr = OBS_PMU_HI.addr n := rfl
@[simp] theorem FLT_STATUS.SAFE_addr : (FLT_STATUS.SAFE).addr = FLT_STATUS.addr := rfl
@[simp] theorem FLT_STATUS.GRAVE_addr : (FLT_STATUS.GRAVE).addr = FLT_STATUS.addr := rfl
@[simp] theorem FLT_STATUS.CAUSE_SEV_addr : (FLT_STATUS.CAUSE_SEV).addr = FLT_STATUS.addr := rfl
@[simp] theorem FLT_STATUS.CAUSE_addr : (FLT_STATUS.CAUSE).addr = FLT_STATUS.addr := rfl
@[simp] theorem FLT_STATUS.CAUSE_VALID_addr : (FLT_STATUS.CAUSE_VALID).addr = FLT_STATUS.addr := rfl
@[simp] theorem FLT_STATUS.FORCE_REFUSED_addr : (FLT_STATUS.FORCE_REFUSED).addr = FLT_STATUS.addr := rfl
@[simp] theorem FLT_PINS.FAULT_N_addr : (FLT_PINS.FAULT_N).addr = FLT_PINS.addr := rfl
@[simp] theorem FLT_PINS.CUT_N_addr : (FLT_PINS.CUT_N).addr = FLT_PINS.addr := rfl
@[simp] theorem FLT_DUMP.RAM_addr : (FLT_DUMP.RAM).addr = FLT_DUMP.addr := rfl
@[simp] theorem FLT_DUMP.FLASH_addr : (FLT_DUMP.FLASH).addr = FLT_DUMP.addr := rfl
@[simp] theorem FLT_DUMP.SKIPPED_addr : (FLT_DUMP.SKIPPED).addr = FLT_DUMP.addr := rfl
@[simp] theorem FLT_DUMP.ABANDONED_addr : (FLT_DUMP.ABANDONED).addr = FLT_DUMP.addr := rfl
@[simp] theorem FLT_DUMP.LAST_ENTRY_addr : (FLT_DUMP.LAST_ENTRY).addr = FLT_DUMP.addr := rfl
@[simp] theorem FLT_DUMP.SEQ_addr : (FLT_DUMP.SEQ).addr = FLT_DUMP.addr := rfl
@[simp] theorem FLT_STICKY.STICKY_addr (n : Nat) : (FLT_STICKY.STICKY n).addr = FLT_STICKY.addr n := rfl
@[simp] theorem FLT_CLEAR.SOURCE_addr : (FLT_CLEAR.SOURCE).addr = FLT_CLEAR.addr := rfl
@[simp] theorem FLT_CLEAR.ALL_addr : (FLT_CLEAR.ALL).addr = FLT_CLEAR.addr := rfl
@[simp] theorem FLT_CLEAR.QUAL_addr : (FLT_CLEAR.QUAL).addr = FLT_CLEAR.addr := rfl
@[simp] theorem FLT_CLEAR.GO_addr : (FLT_CLEAR.GO).addr = FLT_CLEAR.addr := rfl
@[simp] theorem FLT_SEV.SEV_addr (n : Nat) : (FLT_SEV.SEV n).addr = FLT_SEV.addr n := rfl
@[simp] theorem FLT_ALERT.ALERT_addr (n : Nat) : (FLT_ALERT.ALERT n).addr = FLT_ALERT.addr n := rfl
@[simp] theorem FLT_QUAL.FIRST_addr (n : Nat) : (FLT_QUAL.FIRST n).addr = FLT_QUAL.addr n := rfl
@[simp] theorem FLT_QUAL.LAST_addr (n : Nat) : (FLT_QUAL.LAST n).addr = FLT_QUAL.addr n := rfl
@[simp] theorem FLT_QUAL.COUNT_addr (n : Nat) : (FLT_QUAL.COUNT n).addr = FLT_QUAL.addr n := rfl
@[simp] theorem FLT_X_FORCE.SOURCE_addr : (FLT_X_FORCE.SOURCE).addr = FLT_X_FORCE.addr := rfl
@[simp] theorem FLT_X_FORCE.QUAL_addr : (FLT_X_FORCE.QUAL).addr = FLT_X_FORCE.addr := rfl
@[simp] theorem FLT_X_FORCE.GO_addr : (FLT_X_FORCE.GO).addr = FLT_X_FORCE.addr := rfl
@[simp] theorem FLT_X_INVERT.PBF_addr : (FLT_X_INVERT.PBF).addr = FLT_X_INVERT.addr := rfl
@[simp] theorem FLT_X_INVERT.MGT_RAM_addr : (FLT_X_INVERT.MGT_RAM).addr = FLT_X_INVERT.addr := rfl
@[simp] theorem FLT_X_INVERT.RESTORE_addr : (FLT_X_INVERT.RESTORE).addr = FLT_X_INVERT.addr := rfl
@[simp] theorem FLT_X_INVERT.TIMELINE_addr : (FLT_X_INVERT.TIMELINE).addr = FLT_X_INVERT.addr := rfl
@[simp] theorem FLT_X_INVERT.TT_addr : (FLT_X_INVERT.TT).addr = FLT_X_INVERT.addr := rfl
@[simp] theorem FLT_X_INVERT.ROUTE_addr : (FLT_X_INVERT.ROUTE).addr = FLT_X_INVERT.addr := rfl
@[simp] theorem FLT_X_INVERT.GLK_CRC_addr : (FLT_X_INVERT.GLK_CRC).addr = FLT_X_INVERT.addr := rfl
@[simp] theorem TOP_ID.ID_addr : (TOP_ID.ID).addr = TOP_ID.addr := rfl
@[simp] theorem TOP_STRAP.BOOTSRC_addr : (TOP_STRAP.BOOTSRC).addr = TOP_STRAP.addr := rfl
@[simp] theorem TOP_STRAP.LIFE_EN_addr : (TOP_STRAP.LIFE_EN).addr = TOP_STRAP.addr := rfl
@[simp] theorem TOP_STRAP.I2CADDR_addr : (TOP_STRAP.I2CADDR).addr = TOP_STRAP.addr := rfl
@[simp] theorem TOP_STRAP.MAKER_EN_addr : (TOP_STRAP.MAKER_EN).addr = TOP_STRAP.addr := rfl
@[simp] theorem TOP_STRAP.LIFE_SUPPLY_addr : (TOP_STRAP.LIFE_SUPPLY).addr = TOP_STRAP.addr := rfl
@[simp] theorem TOP_MODE.MODE_addr : (TOP_MODE.MODE).addr = TOP_MODE.addr := rfl
@[simp] theorem TOP_MODE.HELD_addr : (TOP_MODE.HELD).addr = TOP_MODE.addr := rfl
@[simp] theorem TOP_MODE.SAFE_CAUSE_addr : (TOP_MODE.SAFE_CAUSE).addr = TOP_MODE.addr := rfl
@[simp] theorem TOP_MODE.BOOT_STEP_addr : (TOP_MODE.BOOT_STEP).addr = TOP_MODE.addr := rfl
@[simp] theorem TOP_RESET_CAUSE.POR_addr : (TOP_RESET_CAUSE.POR).addr = TOP_RESET_CAUSE.addr := rfl
@[simp] theorem TOP_RESET_CAUSE.RESET_N_addr : (TOP_RESET_CAUSE.RESET_N).addr = TOP_RESET_CAUSE.addr := rfl
@[simp] theorem TOP_RESET_CAUSE.CHIP_RESET_addr : (TOP_RESET_CAUSE.CHIP_RESET).addr = TOP_RESET_CAUSE.addr := rfl
@[simp] theorem TOP_RESET_CAUSE.LIFE_START_addr : (TOP_RESET_CAUSE.LIFE_START).addr = TOP_RESET_CAUSE.addr := rfl
@[simp] theorem TOP_RESET_CAUSE.GRAVE_KEPT_addr : (TOP_RESET_CAUSE.GRAVE_KEPT).addr = TOP_RESET_CAUSE.addr := rfl
@[simp] theorem TOP_BOOT_TIME.BOOT_addr : (TOP_BOOT_TIME.BOOT).addr = TOP_BOOT_TIME.addr := rfl
@[simp] theorem TOP_BOOT_TIME.CONNECT_addr : (TOP_BOOT_TIME.CONNECT).addr = TOP_BOOT_TIME.addr := rfl
@[simp] theorem TOP_X_RESET.KEY_addr : (TOP_X_RESET.KEY).addr = TOP_X_RESET.addr := rfl
@[simp] theorem TOP_EXPERT_KEY.KEY_addr (n : Nat) : (TOP_EXPERT_KEY.KEY n).addr = TOP_EXPERT_KEY.addr n := rfl
@[simp] theorem TOP_EXPERT.HELD_addr : (TOP_EXPERT.HELD).addr = TOP_EXPERT.addr := rfl
@[simp] theorem TOP_EXPERT.ARMED_addr : (TOP_EXPERT.ARMED).addr = TOP_EXPERT.addr := rfl
@[simp] theorem TOP_BUS_ERR.UNMAPPED_addr : (TOP_BUS_ERR.UNMAPPED).addr = TOP_BUS_ERR.addr := rfl
@[simp] theorem TOP_BUS_ERR.EXPERT_addr : (TOP_BUS_ERR.EXPERT).addr = TOP_BUS_ERR.addr := rfl
@[simp] theorem TOP_BUS_ERR.DENIED_addr : (TOP_BUS_ERR.DENIED).addr = TOP_BUS_ERR.addr := rfl
@[simp] theorem TOP_BUS_ERR.KEY_SEQ_addr : (TOP_BUS_ERR.KEY_SEQ).addr = TOP_BUS_ERR.addr := rfl
@[simp] theorem TOP_BUS_ERR.MASTER_addr : (TOP_BUS_ERR.MASTER).addr = TOP_BUS_ERR.addr := rfl
@[simp] theorem TOP_BUS_ERR.ADDR_addr : (TOP_BUS_ERR.ADDR).addr = TOP_BUS_ERR.addr := rfl
@[simp] theorem STL_STALL.TYPE_addr (n : Nat) : (STL_STALL.TYPE n).addr = STL_STALL.addr n := rfl
@[simp] theorem STL_STALL.SS_MODE_addr (n : Nat) : (STL_STALL.SS_MODE n).addr = STL_STALL.addr n := rfl
@[simp] theorem STL_STALL.FLAGS_addr (n : Nat) : (STL_STALL.FLAGS n).addr = STL_STALL.addr n := rfl
@[simp] theorem STL_STALL.ORIENT_addr (n : Nat) : (STL_STALL.ORIENT n).addr = STL_STALL.addr n := rfl
@[simp] theorem STL_STALL.ORIENT_LVL_addr (n : Nat) : (STL_STALL.ORIENT_LVL n).addr = STL_STALL.addr n := rfl
@[simp] theorem STL_LANE.RX_INVERT_addr (n : Nat) : (STL_LANE.RX_INVERT n).addr = STL_LANE.addr n := rfl
@[simp] theorem STL_LANE.TX_INVERT_addr (n : Nat) : (STL_LANE.TX_INVERT n).addr = STL_LANE.addr n := rfl
@[simp] theorem STL_LANE.DISABLE_addr (n : Nat) : (STL_LANE.DISABLE n).addr = STL_LANE.addr n := rfl
@[simp] theorem STL_LANE.TX_PRESET_addr (n : Nat) : (STL_LANE.TX_PRESET n).addr = STL_LANE.addr n := rfl
@[simp] theorem STL_LANE.RX_CTLE_addr (n : Nat) : (STL_LANE.RX_CTLE n).addr = STL_LANE.addr n := rfl
@[simp] theorem STL_LANE.TX_SWING_addr (n : Nat) : (STL_LANE.TX_SWING n).addr = STL_LANE.addr n := rfl
@[simp] theorem STL_LANE.STATE_addr (n : Nat) : (STL_LANE.STATE n).addr = STL_LANE.addr n := rfl
@[simp] theorem GPI_CFG.FUNCTION_addr (n : Nat) : (GPI_CFG.FUNCTION n).addr = GPI_CFG.addr n := rfl
@[simp] theorem GPI_CFG.ARG_addr (n : Nat) : (GPI_CFG.ARG n).addr = GPI_CFG.addr n := rfl
@[simp] theorem GPI_CFG.ACTIVE_LOW_addr (n : Nat) : (GPI_CFG.ACTIVE_LOW n).addr = GPI_CFG.addr n := rfl
@[simp] theorem GPI_CFG.OPEN_DRAIN_addr (n : Nat) : (GPI_CFG.OPEN_DRAIN n).addr = GPI_CFG.addr n := rfl
@[simp] theorem GPI_CFG.PULL_UP_addr (n : Nat) : (GPI_CFG.PULL_UP n).addr = GPI_CFG.addr n := rfl
@[simp] theorem GPI_CFG.PULL_DOWN_addr (n : Nat) : (GPI_CFG.PULL_DOWN n).addr = GPI_CFG.addr n := rfl
@[simp] theorem GPI_IN.LEVEL_addr : (GPI_IN.LEVEL).addr = GPI_IN.addr := rfl
@[simp] theorem GPI_OUT.ACTIVE_addr : (GPI_OUT.ACTIVE).addr = GPI_OUT.addr := rfl

end Sys2Proof.Machine
end

