-- ==== Sys2Proof/Laws/Frame.lean ====
section
/-!
SUPPORT. What each shared operation may change, once for each: `Fr m b r t` says that between the states `r` and `t` of the
parts of the state only those of the mask `m`, of the registers only those of the mask `b` have changed.
-/
namespace Sys2Proof.Machine

/-- The frame of a run of operations, by masks. -/
structure Fr (m b : Nat) (s t : State) : Prop where
  part : ∀ i : Part, m.testBit i.ctorIdx = false → i.same s t
  word : ∀ a, ¬HasReg b a → t.word a = s.word a
  pending : t.pending = s.pending
  cycle : t.cycle = s.cycle
  outs : s.outs <:+ t.outs
  wf : s.wf = true → t.wf = true

theorem same_refl (s : State) (i : Part) : i.same s s := by cases i <;> rfl

theorem same_trans {r s t : State} {i : Part} (h : i.same r s) (h' : i.same s t) : i.same r t := by
  cases i <;> exact h'.trans h

theorem Fr.refl (m b : Nat) (s : State) : Fr m b s s :=
  ⟨fun i _ => same_refl s i, fun _ _ => rfl, rfl, rfl, List.suffix_refl _, id⟩

theorem orDec {a b c : Nat} (h : (a ||| b == c) = true) : a ||| b = c := by simpa using h

theorem bitDec {a i : Nat} (h : (a.testBit i == true) = true) : a.testBit i = true := by simpa using h

theorem orTrans {a M m : Nat} (h : (a ||| M == M) = true) (hm : M ||| m = m) : a ||| m = m := by
  rw [← hm, ← Nat.or_assoc, orDec h]

theorem bitOr {M m i : Nat} (h : (M.testBit i == true) = true) (hm : M ||| m = m) : m.testBit i = true := by
  rw [← hm, Nat.testBit_or, bitDec h, Bool.true_or]

/-- One operation more, whose own frame is no wider. -/
theorem Fr.step {m b m' b' : Nat} {r s t : State} (h' : Fr m' b' s t) (hm : m' ||| m = m) (hb : b' ||| b = b)
    (h : Fr m b r s) : Fr m b r t where
  part i hi := same_trans (h.part i hi) (h'.part i (by rw [← hm, Nat.testBit_or] at hi; simp_all))
  word a ha := (h'.word a fun k => ha (k.mono hb)).trans (h.word a ha)
  pending := h'.pending.trans h.pending
  cycle := h'.cycle.trans h.cycle
  outs := h.outs.trans h'.outs
  wf := h'.wf ∘ h.wf

theorem Fr.setWord {m b : Nat} {r s : State} {a : Nat} {w : Word} (hb : HasReg b a)
    (h : Fr m b r s) : Fr m b r (s.setWord a w) :=
  ⟨fun i hi => same_trans (h.part i hi) (same_refl s i),
    fun c hc => (word_setWord_ne s w (by rintro rfl; exact hc hb)).trans (h.word c hc),
    h.pending, h.cycle, h.outs, fun hw => setWord_wf a w (h.wf hw)⟩

theorem Fr.p {m b : Nat} {r s : State} {f : Fld} {v : Nat} (hb : HasReg b f.addr)
    (h : Fr m b r s) : Fr m b r (s.p f v) := Fr.setWord hb h

theorem Fr.inc {m b : Nat} {r s : State} {f : Fld} {n : Nat} (hb : HasReg b f.addr)
    (h : Fr m b r s) : Fr m b r (s.inc f n) := Fr.p hb h

theorem Fr.incSat {m b : Nat} {r s : State} {f : Fld} {n : Nat} (hb : HasReg b f.addr)
    (h : Fr m b r s) : Fr m b r (s.incSat f n) := Fr.p hb h

theorem Fr.out {m b : Nat} {r s : State} {o : Out} (h : Fr m b r s) : Fr m b r (s.out o) :=
  ⟨fun i hi => same_trans (h.part i hi) (same_refl s i), h.word, h.pending, h.cycle,
    h.outs.trans (List.suffix_cons o s.outs), h.wf⟩

theorem Fr.when {m b : Nat} {r s : State} {c : Bool} {f : State → State} (hf : ∀ t, Fr m b r t → Fr m b r (f t))
    (h : Fr m b r s) : Fr m b r (s.when c f) := by
  cases c
  · exact h
  · exact hf s h

theorem Fr.each {m b : Nat} {r s : State} {l : List Nat} {f : Nat → State → State}
    (hf : ∀ n t, Fr m b r t → Fr m b r (f n t)) (h : Fr m b r s) : Fr m b r (s.each l f) := each_keeps hf l s h

/-- The second half of a pair an operation answered. -/
theorem Fr.pair {m b : Nat} {r s : State} {α : Type} {p : α × State} {q : α} (e : p = (q, s)) (h : Fr m b r p.2) :
    Fr m b r s := by subst e; exact h

theorem Fr.markHw {m b : Nat} {r s : State} {a : Nat} {w : Word} (h : Fr m b r s) : Fr m b r (s.markHw a w) :=
  ⟨fun i hi => same_trans (h.part i hi) (same_refl s i), h.word, h.pending, h.cycle, h.outs, h.wf⟩

theorem Fr.mark {m b : Nat} {r s : State} {k : Mark} (h : Fr m b r s) : Fr m b r (s.mark k) :=
  ⟨fun i hi => same_trans (h.part i hi) (same_refl s i), h.word, h.pending, h.cycle, h.outs, h.wf⟩

theorem Fr.unmark {m b : Nat} {r s : State} {k : Mark} (h : Fr m b r s) : Fr m b r (s.unmark k) :=
  ⟨fun i hi => same_trans (h.part i hi) (same_refl s i), h.word, h.pending, h.cycle, h.outs, h.wf⟩

theorem Fr.hwOr {m b : Nat} {r s : State} {f : Fld} {v : Nat} (hb : HasReg b f.addr)
    (h : Fr m b r s) : Fr m b r (s.hwOr f v) := Fr.markHw (Fr.p hb h)

theorem Fr.hw {m b : Nat} {r s : State} {f : Fld} (hb : HasReg b f.addr)
    (h : Fr m b r s) : Fr m b r (s.hw f) := Fr.hwOr hb h

theorem Fr.w1s {m b : Nat} {r s : State} {f : Fld} {v : Nat} (hb : HasReg b f.addr)
    (h : Fr m b r s) : Fr m b r (s.w1s f v) := Fr.mark (Fr.p hb h)

theorem Fr.clearW1s {m b : Nat} {r s : State} {f : Fld} {v : Nat} (hb : HasReg b f.addr)
    (h : Fr m b r s) : Fr m b r (s.clearW1s f v) := Fr.p hb h

/-- Every register of the map may have changed: leaving registers out. -/
theorem Fr.keepRegs {m : Nat} {r s : State} {f : Nat × Word → Bool} (h : Fr m 200867255532373784442745261542645325315275374222849104412671 r s) :
    Fr m 200867255532373784442745261542645325315275374222849104412671 r (s.keepRegs f) :=
  ⟨fun i hi => same_trans (h.part i hi) (same_refl s i), fun _ ha => (ha .all).elim, h.pending, h.cycle, h.outs,
    fun hw => keepRegs_wf f (h.wf hw)⟩

/-- Every register of the map may have changed: a word at any address. -/
theorem Fr.setAny {m : Nat} {r s : State} {a : Nat} {w : Word} (h : Fr m 200867255532373784442745261542645325315275374222849104412671 r s) : Fr m 200867255532373784442745261542645325315275374222849104412671 r (s.setWord a w) :=
  ⟨fun i hi => same_trans (h.part i hi) (same_refl s i), fun _ ha => (ha .all).elim, h.pending, h.cycle, h.outs,
    fun hw => setWord_wf a w (h.wf hw)⟩

theorem Fr.pAny {m : Nat} {r s : State} {f : Fld} {v : Nat} (h : Fr m 200867255532373784442745261542645325315275374222849104412671 r s) : Fr m 200867255532373784442745261542645325315275374222849104412671 r (s.p f v) := Fr.setAny h

theorem Fr.incAny {m : Nat} {r s : State} {f : Fld} {n : Nat} (h : Fr m 200867255532373784442745261542645325315275374222849104412671 r s) : Fr m 200867255532373784442745261542645325315275374222849104412671 r (s.inc f n) := Fr.pAny h

theorem Fr.incSatAny {m : Nat} {r s : State} {f : Fld} {n : Nat} (h : Fr m 200867255532373784442745261542645325315275374222849104412671 r s) : Fr m 200867255532373784442745261542645325315275374222849104412671 r (s.incSat f n) := Fr.pAny h

theorem Fr.hwOrAny {m : Nat} {r s : State} {f : Fld} {v : Nat} (h : Fr m 200867255532373784442745261542645325315275374222849104412671 r s) : Fr m 200867255532373784442745261542645325315275374222849104412671 r (s.hwOr f v) := Fr.markHw (Fr.pAny h)

theorem Fr.hwAny {m : Nat} {r s : State} {f : Fld} (h : Fr m 200867255532373784442745261542645325315275374222849104412671 r s) : Fr m 200867255532373784442745261542645325315275374222849104412671 r (s.hw f) := Fr.markHw (Fr.pAny h)

theorem Fr.w1sAny {m : Nat} {r s : State} {f : Fld} {v : Nat} (h : Fr m 200867255532373784442745261542645325315275374222849104412671 r s) :
    Fr m 200867255532373784442745261542645325315275374222849104412671 r (s.w1s f v) := Fr.mark (Fr.pAny h)

theorem Fr.clearW1sAny {m : Nat} {r s : State} {f : Fld} {v : Nat} (h : Fr m 200867255532373784442745261542645325315275374222849104412671 r s) :
    Fr m 200867255532373784442745261542645325315275374222849104412671 r (s.clearW1s f v) := Fr.pAny h

theorem Fr.foldl {m b : Nat} {r s : State} {α : Type} {l : List α} {f : State → α → State}
    (hf : ∀ t a, Fr m b r t → Fr m b r (f t a)) (h : Fr m b r s) : Fr m b r (l.foldl f s) := foldl_keeps hf l s h

theorem Fr.ite {m b : Nat} {r s t : State} {c : Prop} [Decidable c] (h : Fr m b r s) (h' : Fr m b r t) :
    Fr m b r (if c then s else t) := by split <;> assumption

theorem Fr.getD {m b : Nat} {r s : State} {α : Type} {o : Option α} {f : α → State} (hf : ∀ q, Fr m b r (f q))
    (h : Fr m b r s) : Fr m b r ((o.map f).getD s) := by cases o; exacts [h, hf _]

theorem clrNil {b : Nat} : ∀ f ∈ ([] : List Fld), HasReg b f.addr := fun _ h => nomatch h

theorem clrCons {b : Nat} {f : Fld} {l : List Fld} (hf : HasReg b f.addr)
    (h : ∀ g ∈ l, HasReg b g.addr) : ∀ g ∈ f :: l, HasReg b g.addr := fun g hg =>
  (List.mem_cons.1 hg).elim (fun e => e ▸ hf) (h g)

theorem fldNil {b : Nat} : ∀ e ∈ ([] : List (Fld × Nat)), HasReg b e.1.addr := fun _ h => nomatch h

theorem fldCons {b v : Nat} {f : Fld} {l : List (Fld × Nat)} (hf : HasReg b f.addr)
    (h : ∀ e ∈ l, HasReg b e.1.addr) : ∀ e ∈ (f, v) :: l, HasReg b e.1.addr := fun e he =>
  (List.mem_cons.1 he).elim (fun q => q ▸ hf) (h e)

theorem bitFld_addr (a i : Nat) : (bitFld a i).addr = a := rfl

theorem seatBit_addr (i : Nat) : (seatBit i).addr = PPW_SEAT.addr := rfl

theorem invertBit_addr {i : Nat} {f : Fld} (h : invertBit i = some f) : f.addr = FLT_X_INVERT.addr := by
  unfold invertBit at h
  split at h <;> cases h <;> rfl

theorem failFld_addr (k : Nat) : (failFld k).addr = TKR_AUTH.FAIL0.addr := rfl

theorem Fr.foldlSnd {m b : Nat} {r : State} {α β : Type} {l : List α} {f : β × State → α → β × State} {p : β × State}
    (hf : ∀ x a, Fr m b r x.2 → Fr m b r (f x a).2) (h : Fr m b r p.2) : Fr m b r (l.foldl f p).2 :=
  foldl_keeps (P := fun x : β × State => Fr m b r x.2) hf l p h

/-! ## Changes of one part -/

theorem Fr.withPlan {m b : Nat} {r s : State} {x} (hm : m.testBit 0 = true) (h : Fr m b r s) : Fr m b r (s.withPlan x) :=
  ⟨fun i hi => same_trans (h.part i hi) (by cases i <;> first | rfl | exact absurd (hm.symm.trans hi) Bool.noConfusion), h.word, h.pending, h.cycle, h.outs,
    h.wf⟩

theorem Fr.withObs {m b : Nat} {r s : State} {x} (hm : m.testBit 1 = true) (h : Fr m b r s) : Fr m b r (s.withObs x) :=
  ⟨fun i hi => same_trans (h.part i hi) (by cases i <;> first | rfl | exact absurd (hm.symm.trans hi) Bool.noConfusion), h.word, h.pending, h.cycle, h.outs,
    h.wf⟩

theorem Fr.withYards {m b : Nat} {r s : State} {x} (hm : m.testBit 2 = true) (h : Fr m b r s) : Fr m b r (s.withYards x) :=
  ⟨fun i hi => same_trans (h.part i hi) (by cases i <;> first | rfl | exact absurd (hm.symm.trans hi) Bool.noConfusion), h.word, h.pending, h.cycle, h.outs,
    h.wf⟩

theorem Fr.withPat {m b : Nat} {r s : State} {x} (hm : m.testBit 3 = true) (h : Fr m b r s) : Fr m b r (s.withPat x) :=
  ⟨fun i hi => same_trans (h.part i hi) (by cases i <;> first | rfl | exact absurd (hm.symm.trans hi) Bool.noConfusion), h.word, h.pending, h.cycle, h.outs,
    h.wf⟩

theorem Fr.withPred {m b : Nat} {r s : State} {x} (hm : m.testBit 4 = true) (h : Fr m b r s) : Fr m b r (s.withPred x) :=
  ⟨fun i hi => same_trans (h.part i hi) (by cases i <;> first | rfl | exact absurd (hm.symm.trans hi) Bool.noConfusion), h.word, h.pending, h.cycle, h.outs,
    h.wf⟩

theorem Fr.withPdc {m b : Nat} {r s : State} {x} (hm : m.testBit 5 = true) (h : Fr m b r s) : Fr m b r (s.withPdc x) :=
  ⟨fun i hi => same_trans (h.part i hi) (by cases i <;> first | rfl | exact absurd (hm.symm.trans hi) Bool.noConfusion), h.word, h.pending, h.cycle, h.outs,
    h.wf⟩

theorem Fr.withChan {m b : Nat} {r s : State} {x} (hm : m.testBit 6 = true) (h : Fr m b r s) : Fr m b r (s.withChan x) :=
  ⟨fun i hi => same_trans (h.part i hi) (by cases i <;> first | rfl | exact absurd (hm.symm.trans hi) Bool.noConfusion), h.word, h.pending, h.cycle, h.outs,
    h.wf⟩

theorem Fr.withTlm {m b : Nat} {r s : State} {x} (hm : m.testBit 7 = true) (h : Fr m b r s) : Fr m b r (s.withTlm x) :=
  ⟨fun i hi => same_trans (h.part i hi) (by cases i <;> first | rfl | exact absurd (hm.symm.trans hi) Bool.noConfusion), h.word, h.pending, h.cycle, h.outs,
    h.wf⟩

theorem Fr.withBud {m b : Nat} {r s : State} {x} (hm : m.testBit 8 = true) (h : Fr m b r s) : Fr m b r (s.withBud x) :=
  ⟨fun i hi => same_trans (h.part i hi) (by cases i <;> first | rfl | exact absurd (hm.symm.trans hi) Bool.noConfusion), h.word, h.pending, h.cycle, h.outs,
    h.wf⟩

theorem Fr.withTcp {m b : Nat} {r s : State} {x} (hm : m.testBit 9 = true) (h : Fr m b r s) : Fr m b r (s.withTcp x) :=
  ⟨fun i hi => same_trans (h.part i hi) (by cases i <;> first | rfl | exact absurd (hm.symm.trans hi) Bool.noConfusion), h.word, h.pending, h.cycle, h.outs,
    h.wf⟩

theorem Fr.withSs {m b : Nat} {r s : State} {x} (hm : m.testBit 10 = true) (h : Fr m b r s) : Fr m b r (s.withSs x) :=
  ⟨fun i hi => same_trans (h.part i hi) (by cases i <;> first | rfl | exact absurd (hm.symm.trans hi) Bool.noConfusion), h.word, h.pending, h.cycle, h.outs,
    h.wf⟩

theorem Fr.withOtp {m b : Nat} {r s : State} {x} (hm : m.testBit 11 = true) (h : Fr m b r s) : Fr m b r (s.withOtp x) :=
  ⟨fun i hi => same_trans (h.part i hi) (by cases i <;> first | rfl | exact absurd (hm.symm.trans hi) Bool.noConfusion), h.word, h.pending, h.cycle, h.outs,
    h.wf⟩

theorem Fr.withPln {m b : Nat} {r s : State} {x} (hm : m.testBit 12 = true) (h : Fr m b r s) : Fr m b r (s.withPln x) :=
  ⟨fun i hi => same_trans (h.part i hi) (by cases i <;> first | rfl | exact absurd (hm.symm.trans hi) Bool.noConfusion), h.word, h.pending, h.cycle, h.outs,
    h.wf⟩

theorem Fr.withBoot {m b : Nat} {r s : State} {x} (hm : m.testBit 13 = true) (h : Fr m b r s) : Fr m b r (s.withBoot x) :=
  ⟨fun i hi => same_trans (h.part i hi) (by cases i <;> first | rfl | exact absurd (hm.symm.trans hi) Bool.noConfusion), h.word, h.pending, h.cycle, h.outs,
    h.wf⟩

theorem Fr.withHs {m b : Nat} {r s : State} {x} (hm : m.testBit 14 = true) (h : Fr m b r s) : Fr m b r (s.withHs x) :=
  ⟨fun i hi => same_trans (h.part i hi) (by cases i <;> first | rfl | exact absurd (hm.symm.trans hi) Bool.noConfusion), h.word, h.pending, h.cycle, h.outs,
    h.wf⟩

theorem Fr.withTt {m b : Nat} {r s : State} {x} (hm : m.testBit 15 = true) (h : Fr m b r s) : Fr m b r (s.withTt x) :=
  ⟨fun i hi => same_trans (h.part i hi) (by cases i <;> first | rfl | exact absurd (hm.symm.trans hi) Bool.noConfusion), h.word, h.pending, h.cycle, h.outs,
    h.wf⟩

theorem Fr.withTtOp {m b : Nat} {r s : State} {x} (hm : m.testBit 16 = true) (h : Fr m b r s) : Fr m b r (s.withTtOp x) :=
  ⟨fun i hi => same_trans (h.part i hi) (by cases i <;> first | rfl | exact absurd (hm.symm.trans hi) Bool.noConfusion), h.word, h.pending, h.cycle, h.outs,
    h.wf⟩

theorem Fr.withGlk {m b : Nat} {r s : State} {x} (hm : m.testBit 17 = true) (h : Fr m b r s) : Fr m b r (s.withGlk x) :=
  ⟨fun i hi => same_trans (h.part i hi) (by cases i <;> first | rfl | exact absurd (hm.symm.trans hi) Bool.noConfusion), h.word, h.pending, h.cycle, h.outs,
    h.wf⟩

theorem Fr.withFab {m b : Nat} {r s : State} {x} (hm : m.testBit 18 = true) (h : Fr m b r s) : Fr m b r (s.withFab x) :=
  ⟨fun i hi => same_trans (h.part i hi) (by cases i <;> first | rfl | exact absurd (hm.symm.trans hi) Bool.noConfusion), h.word, h.pending, h.cycle, h.outs,
    h.wf⟩

theorem Fr.withPort {m b : Nat} {r s : State} {x} (hm : m.testBit 19 = true) (h : Fr m b r s) : Fr m b r (s.withPort x) :=
  ⟨fun i hi => same_trans (h.part i hi) (by cases i <;> first | rfl | exact absurd (hm.symm.trans hi) Bool.noConfusion), h.word, h.pending, h.cycle, h.outs,
    h.wf⟩

theorem Fr.withMirror {m b : Nat} {r s : State} {x} (hm : m.testBit 20 = true) (h : Fr m b r s) : Fr m b r (s.withMirror x) :=
  ⟨fun i hi => same_trans (h.part i hi) (by cases i <;> first | rfl | exact absurd (hm.symm.trans hi) Bool.noConfusion), h.word, h.pending, h.cycle, h.outs,
    h.wf⟩

theorem Fr.withHubWaits {m b : Nat} {r s : State} {x} (hm : m.testBit 21 = true) (h : Fr m b r s) : Fr m b r (s.withHubWaits x) :=
  ⟨fun i hi => same_trans (h.part i hi) (by cases i <;> first | rfl | exact absurd (hm.symm.trans hi) Bool.noConfusion), h.word, h.pending, h.cycle, h.outs,
    h.wf⟩

theorem Fr.withHolders {m b : Nat} {r s : State} {x} (hm : m.testBit 22 = true) (h : Fr m b r s) : Fr m b r (s.withHolders x) :=
  ⟨fun i hi => same_trans (h.part i hi) (by cases i <;> first | rfl | exact absurd (hm.symm.trans hi) Bool.noConfusion), h.word, h.pending, h.cycle, h.outs,
    h.wf⟩

theorem Fr.withHandoff {m b : Nat} {r s : State} {x} (hm : m.testBit 23 = true) (h : Fr m b r s) : Fr m b r (s.withHandoff x) :=
  ⟨fun i hi => same_trans (h.part i hi) (by cases i <;> first | rfl | exact absurd (hm.symm.trans hi) Bool.noConfusion), h.word, h.pending, h.cycle, h.outs,
    h.wf⟩

theorem Fr.withFlt {m b : Nat} {r s : State} {x} (hm : m.testBit 24 = true) (h : Fr m b r s) : Fr m b r (s.withFlt x) :=
  ⟨fun i hi => same_trans (h.part i hi) (by cases i <;> first | rfl | exact absurd (hm.symm.trans hi) Bool.noConfusion), h.word, h.pending, h.cycle, h.outs,
    h.wf⟩

theorem Fr.withTml {m b : Nat} {r s : State} {x} (hm : m.testBit 25 = true) (h : Fr m b r s) : Fr m b r (s.withTml x) :=
  ⟨fun i hi => same_trans (h.part i hi) (by cases i <;> first | rfl | exact absurd (hm.symm.trans hi) Bool.noConfusion), h.word, h.pending, h.cycle, h.outs,
    h.wf⟩

theorem Fr.withTack {m b : Nat} {r s : State} {x} (hm : m.testBit 26 = true) (h : Fr m b r s) : Fr m b r (s.withTack x) :=
  ⟨fun i hi => same_trans (h.part i hi) (by cases i <;> first | rfl | exact absurd (hm.symm.trans hi) Bool.noConfusion), h.word, h.pending, h.cycle, h.outs,
    h.wf⟩

theorem Fr.withDp {m b : Nat} {r s : State} {x} (hm : m.testBit 27 = true) (h : Fr m b r s) : Fr m b r (s.withDp x) :=
  ⟨fun i hi => same_trans (h.part i hi) (by cases i <;> first | rfl | exact absurd (hm.symm.trans hi) Bool.noConfusion), h.word, h.pending, h.cycle, h.outs,
    h.wf⟩

theorem Fr.withMbx {m b : Nat} {r s : State} {x} (hm : m.testBit 28 = true) (h : Fr m b r s) : Fr m b r (s.withMbx x) :=
  ⟨fun i hi => same_trans (h.part i hi) (by cases i <;> first | rfl | exact absurd (hm.symm.trans hi) Bool.noConfusion), h.word, h.pending, h.cycle, h.outs,
    h.wf⟩

theorem Fr.withPass {m b : Nat} {r s : State} {x} (hm : m.testBit 29 = true) (h : Fr m b r s) : Fr m b r (s.withPass x) :=
  ⟨fun i hi => same_trans (h.part i hi) (by cases i <;> first | rfl | exact absurd (hm.symm.trans hi) Bool.noConfusion), h.word, h.pending, h.cycle, h.outs,
    h.wf⟩

theorem Fr.withProxyHeld {m b : Nat} {r s : State} {x} (hm : m.testBit 30 = true) (h : Fr m b r s) : Fr m b r (s.withProxyHeld x) :=
  ⟨fun i hi => same_trans (h.part i hi) (by cases i <;> first | rfl | exact absurd (hm.symm.trans hi) Bool.noConfusion), h.word, h.pending, h.cycle, h.outs,
    h.wf⟩

theorem Fr.withMsg {m b : Nat} {r s : State} {x} (hm : m.testBit 31 = true) (h : Fr m b r s) : Fr m b r (s.withMsg x) :=
  ⟨fun i hi => same_trans (h.part i hi) (by cases i <;> first | rfl | exact absurd (hm.symm.trans hi) Bool.noConfusion), h.word, h.pending, h.cycle, h.outs,
    h.wf⟩

theorem Fr.withExpert {m b : Nat} {r s : State} {x} (hm : m.testBit 32 = true) (h : Fr m b r s) : Fr m b r (s.withExpert x) :=
  ⟨fun i hi => same_trans (h.part i hi) (by cases i <;> first | rfl | exact absurd (hm.symm.trans hi) Bool.noConfusion), h.word, h.pending, h.cycle, h.outs,
    h.wf⟩

theorem Fr.withSbTimedOut {m b : Nat} {r s : State} {x} (hm : m.testBit 33 = true) (h : Fr m b r s) : Fr m b r (s.withSbTimedOut x) :=
  ⟨fun i hi => same_trans (h.part i hi) (by cases i <;> first | rfl | exact absurd (hm.symm.trans hi) Bool.noConfusion), h.word, h.pending, h.cycle, h.outs,
    h.wf⟩

theorem Fr.withTmlOld {m b : Nat} {r s : State} {x} (hm : m.testBit 34 = true) (h : Fr m b r s) : Fr m b r (s.withTmlOld x) :=
  ⟨fun i hi => same_trans (h.part i hi) (by cases i <;> first | rfl | exact absurd (hm.symm.trans hi) Bool.noConfusion), h.word, h.pending, h.cycle, h.outs,
    h.wf⟩

theorem Fr.withEpMem {m b : Nat} {r s : State} {x} (hm : m.testBit 35 = true) (hx : Memory.wf s.epMem = true → Memory.wf x = true)
    (h : Fr m b r s) : Fr m b r (s.withEpMem x) :=
  ⟨fun i hi => same_trans (h.part i hi) (by cases i <;> first | rfl | exact absurd (hm.symm.trans hi) Bool.noConfusion), h.word, h.pending, h.cycle, h.outs,
    fun hw => wf_iff.2 ⟨(wf_iff.1 (h.wf hw)).1, hx (wf_iff.1 (h.wf hw)).2⟩⟩

end Sys2Proof.Machine
end

