-- ==== Sys2Proof/Laws/FrOps.lean ====
section
/-!
SUPPORT. What setting several fields (Sys2Proof/Machine/Ops.lean) may change.
-/
namespace Sys2Proof.Machine

theorem State.fields_fr  {m b : Nat} {r : State} {l : List (Fld × Nat)} {s : State}
    (hf : ∀ e ∈ l, HasReg b (e.1.addr)) (h : Fr m b r s) : Fr m b r (s.fields l) := by
  unfold State.fields
  induction l generalizing s with
  | nil => exact h
  | cons f l ih => exact ih (fun g hg => hf g (List.mem_cons_of_mem _ hg)) (Fr.p (hf f List.mem_cons_self) h)

theorem State.fieldsAny_fr  {m : Nat} {r : State} {l : List (Fld × Nat)} {s : State} (h : Fr m 200867255532373784442745261542645325315275374222849104412671 r s) :
    Fr m 200867255532373784442745261542645325315275374222849104412671 r (s.fields l) := Fr.foldl (fun _ _ h => Fr.pAny h) h

theorem State.tmlMap_fr (s : State) (f : TmlE → TmlE) : Fr 17213423616 0 s (State.tmlMap s f) := by
  unfold State.tmlMap
  repeat' first
    | with_reducible assumption
    | ((with_reducible apply bitDec); rfl)
    | with_reducible intro _
    | with_reducible exact Fr.refl _ _ _
    | with_reducible apply Fr.ite
    | with_reducible apply Fr.withTmlOld
    | with_reducible apply Fr.withTml

theorem State.epWrite_fr (s : State) (at_ : Nat) (bytes : List Byte) : Fr 34359738368 0 s (State.epWrite s at_ bytes) :=
  Fr.withEpMem rfl (epWrite_wf at_ bytes) (Fr.refl _ _ _)

theorem State.epPackets_fr (s : State) (at_ size : Nat) (bytes : List Byte) : Fr 34359738368 0 s (State.epPackets s at_ size bytes) := by
  unfold State.epPackets
  repeat' first
    | with_reducible assumption
    | ((with_reducible apply orDec); rfl)
    | with_reducible intro _
    | with_reducible exact Fr.refl _ _ _
    | with_reducible apply Fr.ite
    | with_reducible apply Fr.step (State.epWrite_fr ..)

theorem State.epStore_fr (s : State) (bytes : List Byte) : Fr 34359738368 0 s (State.epStore s bytes) :=
  Fr.withEpMem rfl (epStore_wf bytes) (Fr.refl _ _ _)

end Sys2Proof.Machine
end

