-- ==== Sys2Proof/Laws/FrObserve.lean ====
section
/-!
SUPPORT. What the operations of Sys2Proof/Machine/Observe.lean may change.
-/
namespace Sys2Proof.Machine

theorem State.pmuSet_fr (s : State) (i v : Nat) : Fr 0 4489733029880533764721719806104421436383024772022272 s (State.pmuSet s i v) := by
  unfold State.pmuSet
  repeat' first
    | with_reducible assumption
    | ((with_reducible apply bitDec); rfl)
    | with_reducible intro _
    | with_reducible exact Fr.refl _ _ _
    | with_reducible apply Fr.ite
    | with_reducible apply Fr.p
    | with_reducible apply OBS_PMU_LO.reg
    | with_reducible apply OBS_PMU_HI.reg
    | ((with_reducible apply HasReg.as); simp only [OBS_PMU_HI.COUNT_HI_addr, OBS_PMU_LO.COUNT_LO_addr])

theorem State.pmuBump_fr (s : State) (i n : Nat) : Fr 0 4489733029880533764721719806104421436383024772022272 s (State.pmuBump s i n) := by
  unfold State.pmuBump
  repeat' first
    | with_reducible assumption
    | ((with_reducible apply orDec); rfl)
    | with_reducible intro _
    | with_reducible exact Fr.refl _ _ _
    | with_reducible apply Fr.ite
    | with_reducible apply Fr.step (State.pmuSet_fr ..)
    | with_reducible apply Fr.mark
    | split

theorem State.pmuAdd_fr (s : State) (i n : Nat) : Fr 0 4863877449037244911781863123279789889414943503024128 s (State.pmuAdd s i n) := by
  unfold State.pmuAdd
  dsimp only
  repeat' first
    | with_reducible assumption
    | ((with_reducible apply orDec); rfl)
    | ((with_reducible apply bitDec); rfl)
    | with_reducible intro _
    | with_reducible exact Fr.refl _ _ _
    | with_reducible apply Fr.ite
    | with_reducible apply Fr.step (State.pmuBump_fr ..)
    | with_reducible apply Fr.hwOr
    | with_reducible apply OBS_PMU_OVF.reg
    | ((with_reducible apply HasReg.as); simp only [OBS_PMU_OVF.OVF_addr])

theorem State.pmuHold_fr (s : State) (i : Nat) : Fr 0 0 s (State.pmuHold s i) := by
  unfold State.pmuHold
  repeat' first
    | with_reducible assumption
    | with_reducible intro _
    | with_reducible exact Fr.refl _ _ _
    | with_reducible apply Fr.ite
    | with_reducible apply Fr.mark

theorem State.pmuSelect_fr (s : State) (i : Nat) : Fr 0 0 s (State.pmuSelect s i) := by
  unfold State.pmuSelect
  repeat' first
    | with_reducible assumption
    | with_reducible intro _
    | with_reducible exact Fr.refl _ _ _
    | with_reducible apply Fr.ite
    | with_reducible apply Fr.when
    | with_reducible apply Fr.mark

theorem State.pmu_fr (s : State) (event index : Nat) (n : Nat) : Fr 0 4863877449037244911781863123279789889414943503024128 s (State.pmu s event index n) := by
  unfold State.pmu
  repeat' first
    | with_reducible assumption
    | ((with_reducible apply orDec); rfl)
    | with_reducible intro _
    | with_reducible exact Fr.refl _ _ _
    | with_reducible apply Fr.ite
    | with_reducible apply Fr.step (State.pmuAdd_fr ..)
    | with_reducible apply Fr.each
    | with_reducible apply Fr.mark

theorem State.obsMod_fr (s : State) (q : Nat) (f : ObsQ → ObsQ) : Fr 2 0 s (State.obsMod s q f) := by
  unfold State.obsMod
  repeat' first
    | with_reducible assumption
    | ((with_reducible apply bitDec); rfl)
    | with_reducible intro _
    | with_reducible exact Fr.refl _ _ _
    | with_reducible apply Fr.ite
    | with_reducible apply Fr.withObs

theorem State.lost_fr (s : State) (q : Nat) : Fr 0 4887261475234539358473122080603250417729438423711744 s (State.lost s q) := by
  unfold State.lost
  repeat' first
    | with_reducible assumption
    | ((with_reducible apply orDec); rfl)
    | ((with_reducible apply bitDec); rfl)
    | with_reducible intro _
    | with_reducible exact Fr.refl _ _ _
    | with_reducible apply Fr.ite
    | with_reducible apply Fr.step (State.pmu_fr ..)
    | with_reducible apply Fr.incSat
    | with_reducible apply OBS_Q_LOST.reg
    | ((with_reducible apply HasReg.as); simp only [OBS_Q_LOST.LOST_addr])

theorem State.restage_fr (s : State) (q : Nat) : Fr 2 0 s (State.restage s q) := by
  unfold State.restage
  repeat' first
    | with_reducible assumption
    | ((with_reducible apply orDec); rfl)
    | with_reducible intro _
    | with_reducible exact Fr.refl _ _ _
    | with_reducible apply Fr.ite
    | with_reducible apply Fr.step (State.obsMod_fr ..)
    | with_reducible apply Fr.when

theorem State.freeFor_fr  (q n : Nat) (flying : Bool) : ∀ (fuel : Nat) (s : State), Fr 2 4893107481783862970145936819934115549808062153883648 s (State.freeFor q n flying fuel s)
  | 0, s => Fr.refl _ _ _
  | fuel + 1, s => by
    unfold State.freeFor
    repeat' first
      | with_reducible apply Fr.step (State.freeFor_fr q n flying fuel _)
      | with_reducible assumption
      | ((with_reducible apply orDec); rfl)
      | ((with_reducible apply bitDec); rfl)
      | with_reducible intro _
      | with_reducible exact Fr.refl _ _ _
      | with_reducible apply Fr.ite
      | with_reducible apply Fr.step (State.lost_fr ..)
      | with_reducible apply Fr.step (State.obsMod_fr ..)
      | with_reducible apply Fr.when
      | with_reducible apply Fr.hw
      | with_reducible apply OBS_Q_STATUS.reg
      | ((with_reducible apply HasReg.as); simp only [OBS_Q_STATUS.TORN_addr])
      | split
      | dsimp only

theorem State.reserve_fr (s : State) (q : Nat) (r : Rec) (flying : Bool) : Fr 2 4893107481783862970145936819934115549808062153883648 s (State.reserve s q r flying) := by
  unfold State.reserve
  dsimp only
  repeat' first
    | with_reducible assumption
    | ((with_reducible apply orDec); rfl)
    | with_reducible intro _
    | with_reducible exact Fr.refl _ _ _
    | with_reducible apply Fr.ite
    | with_reducible apply Fr.step (State.freeFor_fr ..)
    | with_reducible apply Fr.step (State.obsMod_fr ..)

theorem State.takeWaiting_fr (s : State) (q : Nat) (flying : Bool) : Fr 2 4893107481783862970145936819934115549808062153883648 s (State.takeWaiting s q flying) := by
  unfold State.takeWaiting
  dsimp only
  repeat' first
    | with_reducible assumption
    | ((with_reducible apply orDec); rfl)
    | with_reducible intro _
    | with_reducible exact Fr.refl _ _ _
    | with_reducible apply Fr.ite
    | with_reducible apply Fr.step (State.reserve_fr ..)
    | with_reducible apply Fr.step (State.obsMod_fr ..)
    | split

theorem State.offer_fr (s : State) (q : Nat) (r : Rec) : Fr 2 4893107481783862970145936819934115549808062153883648 s (State.offer s q r) := by
  unfold State.offer
  dsimp only
  repeat' first
    | with_reducible assumption
    | ((with_reducible apply orDec); rfl)
    | with_reducible intro _
    | with_reducible exact Fr.refl _ _ _
    | with_reducible apply Fr.ite
    | with_reducible apply Fr.step (State.lost_fr ..)
    | with_reducible apply Fr.step (State.takeWaiting_fr ..)
    | with_reducible apply Fr.step (State.obsMod_fr ..)

theorem State.record_fr (s : State) (q typ yard : Nat) (ws : List Nat) : Fr 2 4893107481783862970145936819934115549808062153883648 s (State.record s q typ yard ws) := by
  unfold State.record
  repeat' first
    | with_reducible assumption
    | ((with_reducible apply orDec); rfl)
    | with_reducible intro _
    | with_reducible exact Fr.refl _ _ _
    | with_reducible apply Fr.ite
    | with_reducible apply Fr.step (State.offer_fr ..)

theorem State.finishRecord_fr (s : State) (q : Nat) (flying : Bool) : Fr 2 4893107481783862970145936819934115549808062153883648 s (State.finishRecord s q flying) := by
  unfold State.finishRecord
  dsimp only
  repeat' first
    | with_reducible assumption
    | ((with_reducible apply orDec); rfl)
    | with_reducible intro _
    | with_reducible exact Fr.refl _ _ _
    | with_reducible apply Fr.ite
    | with_reducible apply Fr.step (State.obsMod_fr ..)
    | with_reducible apply Fr.step (State.pmu_fr ..)
    | with_reducible apply Fr.step (State.restage_fr ..)
    | with_reducible apply Fr.step (State.takeWaiting_fr ..)
    | with_reducible apply Fr.when
    | with_reducible apply Fr.out
    | with_reducible apply Fr.mark
    | split

theorem State.popHead_fr (s : State) (q : Nat) : Fr 2 0 s (State.popHead s q) := by
  unfold State.popHead
  repeat' first
    | with_reducible assumption
    | ((with_reducible apply orDec); rfl)
    | with_reducible intro _
    | with_reducible exact Fr.refl _ _ _
    | with_reducible apply Fr.ite
    | with_reducible apply Fr.step (State.obsMod_fr ..)
    | with_reducible apply Fr.mark

theorem State.queueRead_fr (s : State) (q m : Nat) : Fr 2 4893107481783862970145936819934115549808062153883648 s (State.queueRead s q m).2 := by
  unfold State.queueRead
  dsimp only
  repeat' first
    | with_reducible assumption
    | ((with_reducible apply orDec); rfl)
    | ((with_reducible apply bitDec); rfl)
    | with_reducible intro _
    | with_reducible exact Fr.refl _ _ _
    | with_reducible apply Fr.ite
    | with_reducible apply Fr.step (State.obsMod_fr ..)
    | with_reducible apply Fr.step (State.takeWaiting_fr ..)
    | with_reducible apply Fr.step (State.popHead_fr ..)
    | with_reducible apply Fr.hw
    | with_reducible apply Fr.getD
    | with_reducible apply OBS_Q_STATUS.reg
    | ((with_reducible apply HasReg.as); simp only [OBS_Q_STATUS.OWNED_addr])
    | split

theorem State.queueStallEnd_fr (s : State) (q : Nat) : Fr 2 0 s (State.queueStallEnd s q) := by
  unfold State.queueStallEnd
  repeat' first
    | with_reducible assumption
    | ((with_reducible apply orDec); rfl)
    | with_reducible intro _
    | with_reducible exact Fr.refl _ _ _
    | with_reducible apply Fr.ite
    | with_reducible apply Fr.step (State.obsMod_fr ..)
    | with_reducible apply Fr.when
    | with_reducible apply Fr.out

theorem State.queueReset_fr (s : State) (q : Nat) : Fr 2 4893107481783862970145936819934115549808062153883648 s (State.queueReset s q) := by
  unfold State.queueReset
  dsimp only
  repeat' first
    | with_reducible assumption
    | ((with_reducible apply orDec); rfl)
    | ((with_reducible apply bitDec); rfl)
    | with_reducible intro _
    | with_reducible exact Fr.refl _ _ _
    | with_reducible apply Fr.ite
    | with_reducible apply Fr.step (State.queueStallEnd_fr ..)
    | with_reducible apply Fr.step (State.takeWaiting_fr ..)
    | with_reducible apply Fr.step (State.obsMod_fr ..)
    | with_reducible apply Fr.p
    | with_reducible apply OBS_Q_STATUS.reg
    | with_reducible apply OBS_Q_LOST.reg
    | ((with_reducible apply HasReg.as); simp only [OBS_Q_LOST.LOST_addr, OBS_Q_STATUS.OWNED_addr, OBS_Q_STATUS.TIMEOUT_addr, OBS_Q_STATUS.TORN_addr])

theorem State.ackPacket_fr (s : State) (q : Nat) : Fr 2 4893107481783862970145936819934115549808062153883648 s (State.ackPacket s q) := by
  unfold State.ackPacket
  dsimp only
  repeat' first
    | with_reducible assumption
    | ((with_reducible apply orDec); rfl)
    | with_reducible intro _
    | with_reducible exact Fr.refl _ _ _
    | with_reducible apply Fr.ite
    | with_reducible apply Fr.step (State.popHead_fr ..)
    | with_reducible apply Fr.step (State.restage_fr ..)
    | with_reducible apply Fr.step (State.takeWaiting_fr ..)
    | with_reducible apply Fr.step (State.obsMod_fr ..)
    | with_reducible apply Fr.each

theorem State.obsTick_fr (s : State) : Fr 2 4893107481783862970145936819934115549808062153883648 s (State.obsTick s) := by
  unfold State.obsTick
  repeat' first
    | with_reducible assumption
    | ((with_reducible apply orDec); rfl)
    | with_reducible intro _
    | with_reducible exact Fr.refl _ _ _
    | with_reducible apply Fr.ite
    | with_reducible apply Fr.step (State.takeWaiting_fr ..)
    | with_reducible apply Fr.step (State.obsMod_fr ..)
    | with_reducible apply Fr.when
    | with_reducible apply Fr.each
    | with_reducible apply Fr.out
    | split
    | dsimp only

theorem State.unstage_fr (s : State) (q : Nat) : Fr 2 0 s (State.unstage s q) := by
  unfold State.unstage
  repeat' first
    | with_reducible assumption
    | ((with_reducible apply orDec); rfl)
    | with_reducible intro _
    | with_reducible exact Fr.refl _ _ _
    | with_reducible apply Fr.ite
    | with_reducible apply Fr.step (State.obsMod_fr ..)

end Sys2Proof.Machine
end

