-- ==== Sys2Proof/Laws/FrPacket.lean ====
section
/-!
SUPPORT. What the operations of Sys2Proof/Machine/Packet.lean may change.
-/
namespace Sys2Proof.Machine

theorem State.setBankLow_fr (s : State) : Fr 0 17867063951360 s (State.setBankLow s) := by
  unfold State.setBankLow
  dsimp only
  repeat' first
    | with_reducible assumption
    | ((with_reducible apply bitDec); rfl)
    | with_reducible intro _
    | with_reducible exact Fr.refl _ _ _
    | with_reducible apply Fr.ite
    | with_reducible apply Fr.p
    | with_reducible apply Fr.when
    | with_reducible apply Fr.hw
    | with_reducible apply PBF_STATUS.reg
    | with_reducible apply PBF_EVT.reg
    | ((with_reducible apply HasReg.as); simp only [PBF_EVT.BANK_LOW_addr, PBF_STATUS.BANK_LOW_addr])

theorem State.grantCell_fr (s : State) : Fr 1024 4863877449037244911781863123279789889417142526279680 s (State.grantCell s).2 := by
  unfold State.grantCell
  dsimp only
  repeat' first
    | with_reducible assumption
    | ((with_reducible apply orDec); rfl)
    | ((with_reducible apply bitDec); rfl)
    | with_reducible intro _
    | with_reducible exact Fr.refl _ _ _
    | with_reducible apply Fr.ite
    | with_reducible apply Fr.step (State.pmu_fr ..)
    | with_reducible apply Fr.p
    | with_reducible apply Fr.withSs
    | with_reducible apply Fr.getD
    | with_reducible apply PBF_BANK_FREE.reg
    | ((with_reducible apply HasReg.as); simp only [PBF_BANK_FREE.FREE_addr])

theorem State.grantCells_fr  : ∀ (n : Nat) (s : State), Fr 1024 4863877449037244911781863123279789889417142526279680 s (State.grantCells n s).2
  | 0, s => Fr.refl _ _ _
  | n + 1, s => by
    unfold State.grantCells
    repeat' first
      | with_reducible apply Fr.step (State.grantCells_fr n _)
      | with_reducible assumption
      | ((with_reducible apply orDec); rfl)
      | with_reducible intro _
      | with_reducible exact Fr.refl _ _ _
      | with_reducible apply Fr.ite
      | with_reducible apply Fr.step (State.grantCell_fr ..)

theorem State.setUsed_fr (s : State) (q n : Nat) : Fr 0 27762668601344 s (State.setUsed s q n) := by
  unfold State.setUsed
  dsimp only
  repeat' first
    | with_reducible assumption
    | ((with_reducible apply orDec); rfl)
    | ((with_reducible apply bitDec); rfl)
    | with_reducible intro _
    | with_reducible exact Fr.refl _ _ _
    | with_reducible apply Fr.ite
    | with_reducible apply Fr.step (State.setBankLow_fr ..)
    | with_reducible apply Fr.p
    | with_reducible apply PBF_STATUS.reg
    | with_reducible apply PBF_SHARED_FREE.reg
    | with_reducible apply PBF_USED.reg
    | ((with_reducible apply HasReg.as); simp only [PBF_SHARED_FREE.FREE_addr, PBF_STATUS.FREE_addr, PBF_USED.PEAK_addr, PBF_USED.USED_addr])

theorem State.takeCells_fr (s : State) (q n : Nat) : Fr 1024 4863877449037244911781863123279789889444905194881024 s (State.takeCells s q n).2 := by
  unfold State.takeCells
  dsimp only
  repeat' first
    | with_reducible assumption
    | ((with_reducible apply orDec); rfl)
    | with_reducible intro _
    | with_reducible exact Fr.refl _ _ _
    | with_reducible apply Fr.ite
    | with_reducible apply Fr.step (State.grantCells_fr ..)
    | with_reducible apply Fr.step (State.setUsed_fr ..)

theorem State.lkMod_fr (s : State) (k : Nat) (f : GlkS → GlkS) : Fr 131072 0 s (State.lkMod s k f) := by
  unfold State.lkMod
  repeat' first
    | with_reducible assumption
    | ((with_reducible apply bitDec); rfl)
    | with_reducible intro _
    | with_reducible exact Fr.refl _ _ _
    | with_reducible apply Fr.ite
    | with_reducible apply Fr.withGlk

theorem State.freeCells_fr (s : State) (q : Nat) (banks : List Nat) : Fr 131072 29961691856896 s (State.freeCells s q banks) := by
  unfold State.freeCells
  dsimp only
  repeat' first
    | with_reducible assumption
    | ((with_reducible apply orDec); rfl)
    | ((with_reducible apply bitDec); rfl)
    | with_reducible intro _
    | with_reducible exact Fr.refl _ _ _
    | with_reducible apply Fr.ite
    | with_reducible apply Fr.step (State.setUsed_fr ..)
    | with_reducible apply Fr.step (State.lkMod_fr ..)
    | with_reducible apply Fr.p
    | with_reducible apply Fr.when
    | with_reducible apply Fr.each
    | with_reducible apply Fr.mark
    | with_reducible apply PBF_BANK_FREE.reg
    | ((with_reducible apply HasReg.as); simp only [PBF_BANK_FREE.FREE_addr])

theorem State.balePrefix_fr  (s : State) (k : Nat) : Fr 131072 17592186044416 s (State.balePrefix s k).2.2.2 := by
  unfold State.balePrefix
  repeat' first
    | with_reducible assumption
    | ((with_reducible apply orDec); rfl)
    | ((with_reducible apply bitDec); rfl)
    | with_reducible intro _
    | with_reducible exact Fr.refl _ _ _
    | with_reducible apply Fr.ite
    | with_reducible apply Fr.step (State.lkMod_fr ..)
    | with_reducible apply Fr.when
    | with_reducible apply Fr.hw
    | with_reducible apply PBF_EVT.reg
    | ((with_reducible apply HasReg.as); simp only [PBF_EVT.HOLD_addr])

theorem State.linkBale_fr (s : State) (k : Nat) (op : String) (fields : List Nat) : Fr 131072 2361183259027008651264 s (State.linkBale s k op fields) := by
  unfold State.linkBale
  repeat' first
    | with_reducible assumption
    | ((with_reducible apply orDec); rfl)
    | ((with_reducible apply bitDec); rfl)
    | with_reducible intro _
    | with_reducible exact Fr.refl _ _ _
    | with_reducible apply Fr.ite
    | with_reducible apply Fr.step (State.balePrefix_fr ..)
    | with_reducible apply Fr.p
    | with_reducible apply Fr.when
    | with_reducible apply Fr.out
    | with_reducible apply GLK_LINK.reg
    | ((with_reducible apply HasReg.as); simp only [GLK_LINK.IDLE_addr])

theorem State.takeInvert_fr (s : State) (k : Nat) : Fr 0 3064991081731777716716694054300618367237478244367204352 s (State.takeInvert s k).2 := by
  unfold State.takeInvert
  repeat' first
    | with_reducible assumption
    | ((with_reducible apply bitDec); rfl)
    | with_reducible intro _
    | with_reducible exact Fr.refl _ _ _
    | with_reducible apply Fr.ite
    | with_reducible apply Fr.clearW1s
    | with_reducible apply FLT_X_INVERT.reg
    | ((with_reducible apply HasReg.as); simp only [FLT_X_INVERT.GLK_CRC_addr])
    | split

theorem State.emitData_fr (s : State) (k seq : Nat) (b : Bale) : Fr 131072 3069854959180814961628475917423898157126910780056272896 s (State.emitData s k seq b) := by
  unfold State.emitData
  dsimp only
  repeat' first
    | with_reducible assumption
    | ((with_reducible apply orDec); rfl)
    | with_reducible intro _
    | with_reducible exact Fr.refl _ _ _
    | with_reducible apply Fr.ite
    | with_reducible apply Fr.step (State.balePrefix_fr ..)
    | with_reducible apply Fr.step (State.takeInvert_fr ..)
    | with_reducible apply Fr.step (State.pmu_fr ..)
    | with_reducible apply Fr.step (State.lkMod_fr ..)
    | with_reducible apply Fr.out

theorem State.emitCtrl_fr (s : State) (k seq : Nat) (m : CtrlMsg) : Fr 131072 3064991081731777716716694054300618367237495836553248768 s (State.emitCtrl s k seq m) := by
  unfold State.emitCtrl
  dsimp only
  repeat' first
    | with_reducible assumption
    | ((with_reducible apply orDec); rfl)
    | with_reducible intro _
    | with_reducible exact Fr.refl _ _ _
    | with_reducible apply Fr.ite
    | with_reducible apply Fr.step (State.balePrefix_fr ..)
    | with_reducible apply Fr.step (State.takeInvert_fr ..)
    | with_reducible apply Fr.out

theorem State.drrPick_fr  (k : Nat) : ∀ (fuel : Nat) (s : State), Fr 131072 0 s (State.drrPick k fuel s).2
  | 0, s => Fr.refl _ _ _
  | fuel + 1, s => by
    unfold State.drrPick
    repeat' first
      | with_reducible apply Fr.step (State.drrPick_fr k fuel _)
      | with_reducible assumption
      | ((with_reducible apply orDec); rfl)
      | with_reducible intro _
      | with_reducible exact Fr.refl _ _ _
      | with_reducible apply Fr.ite
      | with_reducible apply Fr.step (State.lkMod_fr ..)
      | split
      | dsimp only

theorem State.pump_fr  (k : Nat) : ∀ (fuel : Nat) (s : State), Fr 131072 3069854959180814961628475917423900518310152214878879744 s (State.pump k fuel s)
  | 0, s => Fr.refl _ _ _
  | fuel + 1, s => by
    unfold State.pump
    repeat' first
      | with_reducible apply Fr.step (State.pump_fr k fuel _)
      | with_reducible assumption
      | ((with_reducible apply orDec); rfl)
      | ((with_reducible apply bitDec); rfl)
      | with_reducible intro _
      | with_reducible exact Fr.refl _ _ _
      | with_reducible apply Fr.ite
      | with_reducible apply Fr.step (State.lkMod_fr ..)
      | with_reducible apply Fr.step (State.emitCtrl_fr ..)
      | with_reducible apply Fr.step (State.emitData_fr ..)
      | with_reducible apply Fr.step (State.drrPick_fr ..)
      | with_reducible apply Fr.p
      | with_reducible apply GLK_LINK.reg
      | ((with_reducible apply HasReg.as); simp only [GLK_LINK.IDLE_addr])
      | split
      | dsimp only
      | with_reducible refine Fr.pair (by assumption) ?_

theorem State.ctrlOn_fr (s : State) (k : Nat) (m : CtrlMsg) : Fr 131072 3069854959180814961628475917423900518310152214878879744 s (State.ctrlOn s k m) := by
  unfold State.ctrlOn
  repeat' first
    | with_reducible assumption
    | ((with_reducible apply orDec); rfl)
    | with_reducible intro _
    | with_reducible exact Fr.refl _ _ _
    | with_reducible apply Fr.ite
    | with_reducible apply Fr.step (State.pump_fr ..)
    | with_reducible apply Fr.step (State.lkMod_fr ..)

theorem State.nextCseq_fr (s : State) (d : Nat) : Fr 262144 0 s (State.nextCseq s d).2 := by
  unfold State.nextCseq
  dsimp only
  repeat' first
    | with_reducible assumption
    | ((with_reducible apply bitDec); rfl)
    | with_reducible intro _
    | with_reducible exact Fr.refl _ _ _
    | with_reducible apply Fr.ite
    | with_reducible apply Fr.withFab

theorem State.ctrlTo_fr (s : State) (d : Nat) (name : String) (fields : List Nat) : Fr 393216 3069854959180814961628475917423900518310152214878879744 s (State.ctrlTo s d name fields) := by
  unfold State.ctrlTo
  repeat' first
    | with_reducible assumption
    | ((with_reducible apply orDec); rfl)
    | with_reducible intro _
    | with_reducible exact Fr.refl _ _ _
    | with_reducible apply Fr.ite
    | with_reducible apply Fr.step (State.nextCseq_fr ..)
    | with_reducible apply Fr.step (State.ctrlOn_fr ..)
    | split

theorem State.ctrlAll_fr (s : State) (name : String) (fields : List Nat) : Fr 393216 3069854959180814961628475917423900518310152214878879744 s (State.ctrlAll s name fields) := by
  unfold State.ctrlAll
  dsimp only
  repeat' first
    | with_reducible assumption
    | ((with_reducible apply orDec); rfl)
    | with_reducible intro _
    | with_reducible exact Fr.refl _ _ _
    | with_reducible apply Fr.ite
    | with_reducible apply Fr.step (State.nextCseq_fr ..)
    | with_reducible apply Fr.step (State.ctrlOn_fr ..)
    | with_reducible apply Fr.each

theorem State.freeCtrl_fr (s : State) (m : CtrlMsg) : Fr 131072 29961691856896 s (State.freeCtrl s m) := by
  unfold State.freeCtrl
  repeat' first
    | with_reducible assumption
    | ((with_reducible apply orDec); rfl)
    | with_reducible intro _
    | with_reducible exact Fr.refl _ _ _
    | with_reducible apply Fr.ite
    | with_reducible apply Fr.step (State.lkMod_fr ..)
    | with_reducible apply Fr.step (State.freeCells_fr ..)
    | split

theorem State.freeSent_fr (s : State) (a : Sent) : Fr 131072 29961691856896 s (State.freeSent s a) := by
  unfold State.freeSent
  repeat' first
    | with_reducible assumption
    | ((with_reducible apply orDec); rfl)
    | with_reducible intro _
    | with_reducible exact Fr.refl _ _ _
    | with_reducible apply Fr.ite
    | with_reducible apply Fr.step (State.freeCells_fr ..)
    | with_reducible apply Fr.step (State.freeCtrl_fr ..)
    | split

theorem State.takeAck_fr (s : State) (k ack : Nat) : Fr 131072 29961691856896 s (State.takeAck s k ack) := by
  unfold State.takeAck
  dsimp only
  repeat' first
    | with_reducible assumption
    | ((with_reducible apply orDec); rfl)
    | with_reducible intro _
    | with_reducible exact Fr.refl _ _ _
    | with_reducible apply Fr.ite
    | with_reducible apply Fr.step (State.lkMod_fr ..)
    | with_reducible apply Fr.step (State.freeSent_fr ..)
    | with_reducible apply Fr.foldl
    | with_reducible apply Fr.foldlSnd
    | split

theorem State.rxHdr_fr (s : State) (h : BaleHdr) : Fr 131072 3069854959180814961628475917423900518310164584384692224 s (State.rxHdr s h) := by
  unfold State.rxHdr
  dsimp only
  repeat' first
    | with_reducible assumption
    | ((with_reducible apply orDec); rfl)
    | with_reducible intro _
    | with_reducible exact Fr.refl _ _ _
    | with_reducible apply Fr.ite
    | with_reducible apply Fr.step (State.takeAck_fr ..)
    | with_reducible apply Fr.step (State.lkMod_fr ..)
    | with_reducible apply Fr.step (State.pump_fr ..)

theorem State.rxLink_fr (s : State) (h : BaleHdr) : Fr 131072 3069854959180814961628475917423900518310164584384692224 s (State.rxLink s h) := by
  unfold State.rxLink
  repeat' first
    | with_reducible assumption
    | ((with_reducible apply orDec); rfl)
    | ((with_reducible apply bitDec); rfl)
    | with_reducible intro _
    | with_reducible exact Fr.refl _ _ _
    | with_reducible apply Fr.ite
    | with_reducible apply Fr.step (State.rxHdr_fr ..)
    | with_reducible apply Fr.p
    | with_reducible apply GLK_LINK.reg
    | ((with_reducible apply HasReg.as); simp only [GLK_LINK.IDLE_addr])

theorem State.rxSequenced_fr (s : State) (k : Nat) : Fr 131072 0 s (State.rxSequenced s k) := by
  unfold State.rxSequenced
  repeat' first
    | with_reducible assumption
    | ((with_reducible apply orDec); rfl)
    | with_reducible intro _
    | with_reducible exact Fr.refl _ _ _
    | with_reducible apply Fr.ite
    | with_reducible apply Fr.step (State.lkMod_fr ..)

end Sys2Proof.Machine
end

