-- ==== Sys2Proof/Laws/FrFabric.lean ====
section
/-!
SUPPORT. What the operations of Sys2Proof/Machine/Fabric.lean may change.
-/
namespace Sys2Proof.Machine

theorem State.fabMod_fr (s : State) (f : FabS → FabS) : Fr 262144 0 s (State.fabMod s f) := by
  unfold State.fabMod
  repeat' first
    | with_reducible assumption
    | ((with_reducible apply bitDec); rfl)
    | with_reducible intro _
    | with_reducible exact Fr.refl _ _ _
    | with_reducible apply Fr.ite
    | with_reducible apply Fr.withFab

theorem State.memberRecord_fr (s : State) (m what : Nat) : Fr 2 4893107481783862970145936819934115549808062153883648 s (State.memberRecord s m what) := by
  unfold State.memberRecord
  repeat' first
    | with_reducible assumption
    | ((with_reducible apply orDec); rfl)
    | with_reducible intro _
    | with_reducible exact Fr.refl _ _ _
    | with_reducible apply Fr.ite
    | with_reducible apply Fr.step (State.record_fr ..)

theorem State.installRoutes_fr (s : State) (l : List RouteE) : Fr 269746178 4893107481783862970145936976490009189902540278333440 s (State.installRoutes s l) := by
  unfold State.installRoutes
  dsimp only
  repeat' first
    | with_reducible assumption
    | ((with_reducible apply orDec); rfl)
    | ((with_reducible apply bitDec); rfl)
    | with_reducible intro _
    | with_reducible exact Fr.refl _ _ _
    | with_reducible apply Fr.ite
    | with_reducible apply Fr.step (State.fabMod_fr ..)
    | with_reducible apply Fr.step (State.memberRecord_fr ..)
    | with_reducible apply Fr.p
    | with_reducible apply Fr.when
    | with_reducible apply Fr.each
    | with_reducible apply Fr.hw
    | with_reducible apply Fr.withMirror
    | with_reducible apply Fr.withMbx
    | with_reducible apply Fr.getD
    | with_reducible apply DRV_BARN.reg
    | with_reducible apply DRV_ROUTE.reg
    | with_reducible apply DRV_EVT.reg
    | ((with_reducible apply HasReg.as); simp only [DRV_BARN.PRESENT_addr, DRV_EVT.JOIN_addr, DRV_EVT.LOST_addr, DRV_ROUTE.CTRL_LINK_addr, DRV_ROUTE.HOPS_addr, DRV_ROUTE.NEXT_addr, DRV_ROUTE.REACH_addr])

theorem State.setEgress_fr (s : State) (n : Nat) (l : List Buf) : Fr 1024 134217728 s (State.setEgress s n l) := by
  unfold State.setEgress
  repeat' first
    | with_reducible assumption
    | ((with_reducible apply bitDec); rfl)
    | with_reducible intro _
    | with_reducible exact Fr.refl _ _ _
    | with_reducible apply Fr.ite
    | with_reducible apply Fr.p
    | with_reducible apply Fr.withSs
    | with_reducible apply SSH_PORT.reg
    | ((with_reducible apply HasReg.as); simp only [SSH_PORT.HP_OUT_addr])

theorem State.pushEgress_fr (s : State) (n : Nat) (b : Buf) : Fr 1024 134217728 s (State.pushEgress s n b) := by
  unfold State.pushEgress
  repeat' first
    | with_reducible assumption
    | ((with_reducible apply orDec); rfl)
    | with_reducible intro _
    | with_reducible exact Fr.refl _ _ _
    | with_reducible apply Fr.ite
    | with_reducible apply Fr.step (State.setEgress_fr ..)

theorem State.dropAt_fr (s : State) (n : Nat) (b : Buf) : Fr 131072 4863877449037244911781863123279789889444906805493760 s (State.dropAt s n b) := by
  unfold State.dropAt
  repeat' first
    | with_reducible assumption
    | ((with_reducible apply orDec); rfl)
    | ((with_reducible apply bitDec); rfl)
    | with_reducible intro _
    | with_reducible exact Fr.refl _ _ _
    | with_reducible apply Fr.ite
    | with_reducible apply Fr.step (State.pmu_fr ..)
    | with_reducible apply Fr.step (State.freeCells_fr ..)
    | with_reducible apply Fr.incSat
    | with_reducible apply Fr.hw
    | with_reducible apply SSH_PORT_EVT.reg
    | with_reducible apply SSH_DROPS.reg
    | ((with_reducible apply HasReg.as); simp only [SSH_DROPS.DROP_addr, SSH_PORT_EVT.DROP_addr])

theorem State.queueData_fr (s : State) (p : FPkt) : Fr 131072 3069854959180814961628475917423900518310164584384692224 s (State.queueData s p) := by
  unfold State.queueData
  repeat' first
    | with_reducible assumption
    | ((with_reducible apply orDec); rfl)
    | with_reducible intro _
    | with_reducible exact Fr.refl _ _ _
    | with_reducible apply Fr.ite
    | with_reducible apply Fr.step (State.pump_fr ..)
    | with_reducible apply Fr.step (State.lkMod_fr ..)
    | with_reducible apply Fr.step (State.freeCells_fr ..)
    | split

theorem State.setFlows_fr (s : State) (l : List FlowRec) : Fr 262144 4835703278458516698824704 s (State.setFlows s l) := by
  unfold State.setFlows
  repeat' first
    | with_reducible assumption
    | ((with_reducible apply orDec); rfl)
    | ((with_reducible apply bitDec); rfl)
    | with_reducible intro _
    | with_reducible exact Fr.refl _ _ _
    | with_reducible apply Fr.ite
    | with_reducible apply Fr.step (State.fabMod_fr ..)
    | with_reducible apply Fr.p
    | with_reducible apply DRV_FLOWS.reg
    | ((with_reducible apply HasReg.as); simp only [DRV_FLOWS.USED_addr])

theorem State.sendOpen_fr (s : State) (dest src seq : Nat) (o : FlowOpen) : Fr 131072 3069854959180814961628475917423900518310152214878879744 s (State.sendOpen s dest src seq o) := by
  unfold State.sendOpen
  repeat' first
    | with_reducible assumption
    | ((with_reducible apply orDec); rfl)
    | with_reducible intro _
    | with_reducible exact Fr.refl _ _ _
    | with_reducible apply Fr.ite
    | with_reducible apply Fr.step (State.ctrlOn_fr ..)
    | split

theorem State.sendFlow_fr (s : State) (idx : Nat) (b : Buf) : Fr 393216 3069854959180814961628475917428736221588623101083516928 s (State.sendFlow s idx b) := by
  unfold State.sendFlow
  repeat' first
    | with_reducible assumption
    | ((with_reducible apply orDec); rfl)
    | with_reducible intro _
    | with_reducible exact Fr.refl _ _ _
    | with_reducible apply Fr.ite
    | with_reducible apply Fr.step (State.fabMod_fr ..)
    | with_reducible apply Fr.step (State.setFlows_fr ..)
    | with_reducible apply Fr.step (State.queueData_fr ..)
    | split

theorem State.reseedIdle_fr (s : State) : Fr 262144 4835703278458516698824704 s (State.reseedIdle s) := by
  unfold State.reseedIdle
  repeat' first
    | with_reducible assumption
    | ((with_reducible apply orDec); rfl)
    | with_reducible intro _
    | with_reducible exact Fr.refl _ _ _
    | with_reducible apply Fr.ite
    | with_reducible apply Fr.step (State.setFlows_fr ..)

theorem State.openFlow_fr (s : State) (dest idx : Nat) (key : FlowOpen) : Fr 393216 3069854959180814961628475917428736221588610731577704448 s (State.openFlow s dest idx key) := by
  unfold State.openFlow
  dsimp only
  repeat' first
    | with_reducible assumption
    | ((with_reducible apply orDec); rfl)
    | with_reducible intro _
    | with_reducible exact Fr.refl _ _ _
    | with_reducible apply Fr.ite
    | with_reducible apply Fr.step (State.setFlows_fr ..)
    | with_reducible apply Fr.step (State.nextCseq_fr ..)
    | with_reducible apply Fr.step (State.sendOpen_fr ..)

theorem State.findFlow_fr  {s t : State} {dest q : Nat} {key : FlowOpen} (e : s.findFlow dest key = some (q, t)) :
    Fr 393216 3069854959180814961628475917428736221588610731577704448 s t := by
  unfold State.findFlow at e
  split at e
  · cases e; exact Fr.refl _ _ _
  · obtain ⟨i, -, e⟩ := Option.map_eq_some_iff.1 e
    cases e; exact State.openFlow_fr ..

theorem State.fabPut_fr (s : State) (w : Nat × Nat × Nat × Buf) : Fr 393216 3069854959180814961628475917428736221588623101083516928 s (State.fabPut s w) := by
  unfold State.fabPut
  dsimp only
  repeat' first
    | with_reducible refine Fr.step (State.findFlow_fr (by assumption)) ?_ ?_ ?_
    | with_reducible assumption
    | ((with_reducible apply orDec); rfl)
    | with_reducible intro _
    | with_reducible exact Fr.refl _ _ _
    | with_reducible apply Fr.ite
    | with_reducible apply Fr.step (State.fabMod_fr ..)
    | with_reducible apply Fr.step (State.sendFlow_fr ..)
    | split

theorem State.fabSend_fr (s : State) (slot dest target : Nat) (b : Buf) : Fr 393216 3069854959180814961628475917428736221588623101083516928 s (State.fabSend s slot dest target b) := by
  unfold State.fabSend
  dsimp only
  repeat' first
    | with_reducible assumption
    | ((with_reducible apply orDec); rfl)
    | ((with_reducible apply bitDec); rfl)
    | with_reducible intro _
    | with_reducible exact Fr.refl _ _ _
    | with_reducible apply Fr.ite
    | with_reducible apply Fr.step (State.fabPut_fr ..)
    | with_reducible apply Fr.step (State.reseedIdle_fr ..)
    | with_reducible apply Fr.incSat
    | with_reducible apply Fr.when
    | with_reducible apply DRV_FLOWS.reg
    | ((with_reducible apply HasReg.as); simp only [DRV_FLOWS.WAITS_addr])

theorem State.retryWaits_fr (s : State) : Fr 393216 3069854959180814961628475917428736221588623101083516928 s (State.retryWaits s) := by
  unfold State.retryWaits
  dsimp only
  repeat' first
    | with_reducible assumption
    | ((with_reducible apply orDec); rfl)
    | with_reducible intro _
    | with_reducible exact Fr.refl _ _ _
    | with_reducible apply Fr.ite
    | with_reducible apply Fr.step (State.fabPut_fr ..)
    | with_reducible apply Fr.step (State.fabMod_fr ..)
    | with_reducible apply Fr.foldl

theorem State.takeDelivered_fr (s : State) (idx count : Nat) : Fr 393216 4835703278488478390681600 s (State.takeDelivered s idx count) := by
  unfold State.takeDelivered
  repeat' first
    | with_reducible assumption
    | ((with_reducible apply orDec); rfl)
    | with_reducible intro _
    | with_reducible exact Fr.refl _ _ _
    | with_reducible apply Fr.ite
    | with_reducible apply Fr.step (State.setFlows_fr ..)
    | with_reducible apply Fr.step (State.freeCells_fr ..)
    | with_reducible apply Fr.foldl
    | with_reducible apply Fr.foldlSnd
    | split

theorem State.dropUnsent_fr (s : State) (n : Nat) (f : FlowRec → Bool) : Fr 393216 4863877449037244911781863128115493167903423504318464 s (State.dropUnsent s n f) := by
  unfold State.dropUnsent
  dsimp only
  repeat' first
    | with_reducible assumption
    | ((with_reducible apply orDec); rfl)
    | ((with_reducible apply bitDec); rfl)
    | with_reducible intro _
    | with_reducible exact Fr.refl _ _ _
    | with_reducible apply Fr.ite
    | with_reducible apply Fr.step (State.lkMod_fr ..)
    | with_reducible apply Fr.step (State.setFlows_fr ..)
    | with_reducible apply Fr.step (State.pmu_fr ..)
    | with_reducible apply Fr.step (State.freeCells_fr ..)
    | with_reducible apply Fr.incSat
    | with_reducible apply Fr.each
    | with_reducible apply Fr.hw
    | with_reducible apply Fr.foldl
    | with_reducible apply Fr.foldlSnd
    | with_reducible apply SSH_PORT_EVT.reg
    | with_reducible apply SSH_DROPS.reg
    | ((with_reducible apply HasReg.as); simp only [SSH_DROPS.DROP_addr, SSH_PORT_EVT.DROP_addr])

theorem State.unqueue_fr (s : State) (d : Nat) : Fr 131072 0 s (State.unqueue s d) := by
  unfold State.unqueue
  repeat' first
    | with_reducible assumption
    | ((with_reducible apply orDec); rfl)
    | with_reducible intro _
    | with_reducible exact Fr.refl _ _ _
    | with_reducible apply Fr.ite
    | with_reducible apply Fr.step (State.lkMod_fr ..)
    | with_reducible apply Fr.each

theorem State.startResync_fr (s : State) (d : Nat) : Fr 393216 3069854959180814961628475917423900518310152214878879744 s (State.startResync s d) := by
  unfold State.startResync
  repeat' first
    | with_reducible assumption
    | ((with_reducible apply orDec); rfl)
    | with_reducible intro _
    | with_reducible exact Fr.refl _ _ _
    | with_reducible apply Fr.ite
    | with_reducible apply Fr.step (State.unqueue_fr ..)
    | with_reducible apply Fr.step (State.fabMod_fr ..)
    | with_reducible apply Fr.step (State.ctrlTo_fr ..)

theorem State.closeFlows_fr (s : State) (d : Nat) : Fr 393216 4835703278488478390681600 s (State.closeFlows s d) := by
  unfold State.closeFlows
  dsimp only
  repeat' first
    | with_reducible assumption
    | ((with_reducible apply orDec); rfl)
    | with_reducible intro _
    | with_reducible exact Fr.refl _ _ _
    | with_reducible apply Fr.ite
    | with_reducible apply Fr.step (State.setFlows_fr ..)
    | with_reducible apply Fr.step (State.unqueue_fr ..)
    | with_reducible apply Fr.step (State.fabMod_fr ..)
    | with_reducible apply Fr.step (State.freeCells_fr ..)
    | with_reducible apply Fr.foldl

theorem State.dropTransit_fr (s : State) (k : Nat) : Fr 131072 29961691856896 s (State.dropTransit s k) := by
  unfold State.dropTransit
  dsimp only
  repeat' first
    | with_reducible assumption
    | ((with_reducible apply orDec); rfl)
    | with_reducible intro _
    | with_reducible exact Fr.refl _ _ _
    | with_reducible apply Fr.ite
    | with_reducible apply Fr.step (State.freeCells_fr ..)
    | with_reducible apply Fr.step (State.freeSent_fr ..)
    | with_reducible apply Fr.foldl
    | with_reducible apply Fr.foldlSnd
    | split

theorem State.resendCtrl_fr (s : State) (m : CtrlMsg) : Fr 131072 3069854959180814961628475917423900518310164584384692224 s (State.resendCtrl s m) := by
  unfold State.resendCtrl
  repeat' first
    | with_reducible assumption
    | ((with_reducible apply orDec); rfl)
    | with_reducible intro _
    | with_reducible exact Fr.refl _ _ _
    | with_reducible apply Fr.ite
    | with_reducible apply Fr.step (State.freeCtrl_fr ..)
    | with_reducible apply Fr.step (State.ctrlOn_fr ..)
    | with_reducible apply Fr.each
    | split

theorem State.entryFailed_fr (s : State) (i : Nat) : Fr 269877250 3069884189213561579686839991354481990065976078835384320 s (State.entryFailed s i) := by
  unfold State.entryFailed
  repeat' first
    | with_reducible assumption
    | ((with_reducible apply orDec); rfl)
    | ((with_reducible apply bitDec); rfl)
    | with_reducible intro _
    | with_reducible exact Fr.refl _ _ _
    | with_reducible apply Fr.ite
    | with_reducible apply Fr.step (State.fabMod_fr ..)
    | with_reducible apply Fr.step (State.installRoutes_fr ..)
    | with_reducible apply Fr.step (State.startResync_fr ..)
    | with_reducible apply Fr.inc
    | with_reducible apply Fr.each
    | with_reducible apply Fr.hw
    | with_reducible apply DRV_REROUTE.reg
    | with_reducible apply DRV_EVT.reg
    | ((with_reducible apply HasReg.as); simp only [DRV_EVT.REROUTE_addr, DRV_REROUTE.COUNT_addr])
    | split

theorem State.cutLink_fr (s : State) (k i : Nat) : Fr 269877250 3069884189213561579686839991354481990065988448341196800 s (State.cutLink s k i) := by
  unfold State.cutLink
  dsimp only
  repeat' first
    | with_reducible assumption
    | ((with_reducible apply orDec); rfl)
    | with_reducible intro _
    | with_reducible exact Fr.refl _ _ _
    | with_reducible apply Fr.ite
    | with_reducible apply Fr.step (State.entryFailed_fr ..)
    | with_reducible apply Fr.step (State.lkMod_fr ..)
    | with_reducible apply Fr.step (State.dropTransit_fr ..)
    | with_reducible apply Fr.step (State.resendCtrl_fr ..)
    | with_reducible apply Fr.foldl

theorem State.linkLost_fr (s : State) (k : Nat) : Fr 269877250 3069884189213561579686839991354481990070492047968567296 s (State.linkLost s k) := by
  unfold State.linkLost
  dsimp only
  repeat' first
    | with_reducible assumption
    | ((with_reducible apply orDec); rfl)
    | ((with_reducible apply bitDec); rfl)
    | with_reducible intro _
    | with_reducible exact Fr.refl _ _ _
    | with_reducible apply Fr.ite
    | with_reducible apply Fr.step (State.lkMod_fr ..)
    | with_reducible apply Fr.step (State.dropTransit_fr ..)
    | with_reducible apply Fr.step (State.ctrlAll_fr ..)
    | with_reducible apply Fr.step (State.fabMod_fr ..)
    | with_reducible apply Fr.step (State.entryFailed_fr ..)
    | with_reducible apply Fr.step (State.resendCtrl_fr ..)
    | with_reducible apply Fr.p
    | with_reducible apply Fr.when
    | with_reducible apply Fr.foldl
    | with_reducible apply Fr.foldlSnd
    | with_reducible apply HSH_CARRY.reg
    | ((with_reducible apply HasReg.as); simp only [HSH_CARRY.STATE_addr])
    | split

end Sys2Proof.Machine
end

