-- ==== Sys2Proof/Laws/FrVotes.lean ====
section
/-!
SUPPORT. What the operations of Sys2Proof/Machine/Votes.lean may change.
-/
namespace Sys2Proof.Machine

theorem State.domMod_fr (s : State) (d : Nat) (f : DomS → DomS) : Fr 32 0 s (State.domMod s d f) := by
  unfold State.domMod
  repeat' first
    | with_reducible assumption
    | ((with_reducible apply bitDec); rfl)
    | with_reducible intro _
    | with_reducible exact Fr.refl _ _ _
    | with_reducible apply Fr.ite
    | with_reducible apply Fr.withPdc

theorem State.domStep_fr (s : State) (d : Nat) (x : DomStep) : Fr 32 0 s (State.domStep s d x) := by
  unfold State.domStep
  repeat' first
    | with_reducible assumption
    | ((with_reducible apply orDec); rfl)
    | with_reducible intro _
    | with_reducible exact Fr.refl _ _ _
    | with_reducible apply Fr.ite
    | with_reducible apply Fr.step (State.domMod_fr ..)

theorem State.domRecord_fr (s : State) (d : Nat) : Fr 2 4893107481783862970145936819934115549808062153883648 s (State.domRecord s d) := by
  unfold State.domRecord
  repeat' first
    | with_reducible assumption
    | ((with_reducible apply orDec); rfl)
    | with_reducible intro _
    | with_reducible exact Fr.refl _ _ _
    | with_reducible apply Fr.ite
    | with_reducible apply Fr.step (State.record_fr ..)

theorem State.exitStart_fr (s : State) (d : Nat) : Fr 32 0 s (State.exitStart s d) := by
  unfold State.exitStart
  repeat' first
    | with_reducible assumption
    | ((with_reducible apply orDec); rfl)
    | with_reducible intro _
    | with_reducible exact Fr.refl _ _ _
    | with_reducible apply Fr.ite
    | with_reducible apply Fr.step (State.domStep_fr ..)

theorem State.wakesDone_fr (s : State) (d : Nat) : Fr 32 0 s (State.wakesDone s d) := by
  unfold State.wakesDone
  repeat' first
    | with_reducible assumption
    | ((with_reducible apply bitDec); rfl)
    | with_reducible intro _
    | with_reducible exact Fr.refl _ _ _
    | with_reducible apply Fr.ite
    | with_reducible apply Fr.withPdc

theorem State.wake_fr (s : State) (d c : Nat) : Fr 34 4893107481805641041628876881595771524683695319416832 s (State.wake s d c) := by
  unfold State.wake
  repeat' first
    | with_reducible assumption
    | ((with_reducible apply orDec); rfl)
    | ((with_reducible apply bitDec); rfl)
    | with_reducible intro _
    | with_reducible exact Fr.refl _ _ _
    | with_reducible apply Fr.ite
    | with_reducible apply Fr.step (State.wakesDone_fr ..)
    | with_reducible apply Fr.step (State.domStep_fr ..)
    | with_reducible apply Fr.step (State.domRecord_fr ..)
    | with_reducible apply Fr.step (State.exitStart_fr ..)
    | with_reducible apply Fr.step (State.domMod_fr ..)
    | with_reducible apply Fr.p
    | with_reducible apply PDC_DOM.reg
    | ((with_reducible apply HasReg.as); simp only [PDC_DOM.CAUSE_addr, PDC_DOM.TARGET_addr, PDC_DOM.TRIES_addr])
    | split

theorem State.judge_fr (s : State) (d c : Nat) : Fr 34 4893107481805641041628876881595771524683695319416832 s (State.judge s d c) := by
  unfold State.judge
  dsimp only
  repeat' first
    | with_reducible assumption
    | ((with_reducible apply orDec); rfl)
    | ((with_reducible apply bitDec); rfl)
    | with_reducible intro _
    | with_reducible exact Fr.refl _ _ _
    | with_reducible apply Fr.ite
    | with_reducible apply Fr.step (State.domMod_fr ..)
    | with_reducible apply Fr.step (State.wake_fr ..)
    | with_reducible apply Fr.p
    | with_reducible apply PDC_DOM.reg
    | ((with_reducible apply HasReg.as); simp only [PDC_DOM.TARGET_addr])
    | split

theorem State.wakeBy_fr (s : State) (c d : Nat) : Fr 34 4893107481805641041628876881595771524683695319416832 s (State.wakeBy s c d) := by
  unfold State.wakeBy
  repeat' first
    | with_reducible assumption
    | ((with_reducible apply orDec); rfl)
    | ((with_reducible apply bitDec); rfl)
    | with_reducible intro _
    | with_reducible exact Fr.refl _ _ _
    | with_reducible apply Fr.ite
    | with_reducible apply Fr.step (State.judge_fr ..)
    | with_reducible apply Fr.withPdc

theorem State.restJudge_fr (s : State) (d : Nat) : Fr 34 4893107481805641041628876881595771524683695319416832 s (State.restJudge s d) := by
  unfold State.restJudge
  repeat' first
    | with_reducible assumption
    | ((with_reducible apply orDec); rfl)
    | with_reducible intro _
    | with_reducible exact Fr.refl _ _ _
    | with_reducible apply Fr.ite
    | with_reducible apply Fr.step (State.judge_fr ..)

theorem State.setVote_fr (s : State) (c d v : Nat) : Fr 34 4893107481805641041628876881595771524683695319416832 s (State.setVote s c d v) := by
  unfold State.setVote
  dsimp only
  repeat' first
    | with_reducible assumption
    | ((with_reducible apply orDec); rfl)
    | with_reducible intro _
    | with_reducible exact Fr.refl _ _ _
    | with_reducible apply Fr.ite
    | with_reducible apply Fr.step (State.domMod_fr ..)
    | with_reducible apply Fr.step (State.judge_fr ..)

theorem State.mispredict_fr (s : State) (d : Nat) : Fr 16 4863877449037244911781863123279789889414943507218432 s (State.mispredict s d) := by
  unfold State.mispredict
  dsimp only
  repeat' first
    | with_reducible assumption
    | ((with_reducible apply orDec); rfl)
    | ((with_reducible apply bitDec); rfl)
    | with_reducible intro _
    | with_reducible exact Fr.refl _ _ _
    | with_reducible apply Fr.ite
    | with_reducible apply Fr.step (State.pmu_fr ..)
    | with_reducible apply Fr.p
    | with_reducible apply Fr.when
    | with_reducible apply Fr.withPred
    | with_reducible apply TML_PRED.reg
    | ((with_reducible apply HasReg.as); simp only [TML_PRED.CAPPED_addr, TML_PRED.MISS_addr])

theorem State.missCheck_fr (s : State) (d : Nat) : Fr 16 4863877449037244911781863123279789889414943507218432 s (State.missCheck s d) := by
  unfold State.missCheck
  repeat' first
    | with_reducible assumption
    | ((with_reducible apply orDec); rfl)
    | with_reducible intro _
    | with_reducible exact Fr.refl _ _ _
    | with_reducible apply Fr.ite
    | with_reducible apply Fr.step (State.mispredict_fr ..)
    | with_reducible apply Fr.when

theorem State.linkJudge_fr (s : State) (d : Nat) : Fr 50 4893107481805641041628876881595771524683695323611136 s (State.linkJudge s d) := by
  unfold State.linkJudge
  dsimp only
  repeat' first
    | with_reducible assumption
    | ((with_reducible apply orDec); rfl)
    | with_reducible intro _
    | with_reducible exact Fr.refl _ _ _
    | with_reducible apply Fr.ite
    | with_reducible apply Fr.step (State.domMod_fr ..)
    | with_reducible apply Fr.step (State.judge_fr ..)
    | with_reducible apply Fr.step (State.missCheck_fr ..)
    | with_reducible apply Fr.when

theorem State.raiseVote_fr (s : State) (c d v : Nat) : Fr 34 4893107481805641041628876881595771524683695319416832 s (State.raiseVote s c d v) := by
  unfold State.raiseVote
  repeat' first
    | with_reducible assumption
    | ((with_reducible apply orDec); rfl)
    | with_reducible intro _
    | with_reducible exact Fr.refl _ _ _
    | with_reducible apply Fr.ite
    | with_reducible apply Fr.step (State.setVote_fr ..)

theorem State.holdAccess_fr (s : State) (m d : Nat) : Fr 34 4893107481805641041628876881595771524683695319416832 s (State.holdAccess s m d) := by
  unfold State.holdAccess
  repeat' first
    | with_reducible assumption
    | ((with_reducible apply orDec); rfl)
    | ((with_reducible apply bitDec); rfl)
    | with_reducible intro _
    | with_reducible exact Fr.refl _ _ _
    | with_reducible apply Fr.ite
    | with_reducible apply Fr.step (State.judge_fr ..)
    | with_reducible apply Fr.withPdc
    | split

theorem State.holdMailbox_fr (s : State) (ch c d : Nat) : Fr 34 4893107481805641041628876881595771524683695319416832 s (State.holdMailbox s ch c d) := by
  unfold State.holdMailbox
  repeat' first
    | with_reducible assumption
    | ((with_reducible apply orDec); rfl)
    | ((with_reducible apply bitDec); rfl)
    | with_reducible intro _
    | with_reducible exact Fr.refl _ _ _
    | with_reducible apply Fr.ite
    | with_reducible apply Fr.step (State.judge_fr ..)
    | with_reducible apply Fr.withPdc

theorem State.releaseMailbox_fr (s : State) (ch : Nat) : Fr 32 0 s (State.releaseMailbox s ch) := by
  unfold State.releaseMailbox
  repeat' first
    | with_reducible assumption
    | ((with_reducible apply bitDec); rfl)
    | with_reducible intro _
    | with_reducible exact Fr.refl _ _ _
    | with_reducible apply Fr.ite
    | with_reducible apply Fr.withPdc

theorem State.raiseTimeline_fr (s : State) (d y until_ entry : Nat) (pat : Nat) : Fr 34 4893107481805641041628876881595771524683695319416832 s (State.raiseTimeline s d y until_ entry pat) := by
  unfold State.raiseTimeline
  repeat' first
    | with_reducible assumption
    | ((with_reducible apply orDec); rfl)
    | ((with_reducible apply bitDec); rfl)
    | with_reducible intro _
    | with_reducible exact Fr.refl _ _ _
    | with_reducible apply Fr.ite
    | with_reducible apply Fr.step (State.judge_fr ..)
    | with_reducible apply Fr.withPdc

theorem State.beginEntry_fr (s : State) (d target : Nat) : Fr 32 21778071482940061661655974875633165533184 s (State.beginEntry s d target) := by
  unfold State.beginEntry
  repeat' first
    | with_reducible assumption
    | ((with_reducible apply orDec); rfl)
    | ((with_reducible apply bitDec); rfl)
    | with_reducible intro _
    | with_reducible exact Fr.refl _ _ _
    | with_reducible apply Fr.ite
    | with_reducible apply Fr.step (State.domStep_fr ..)
    | with_reducible apply Fr.p
    | with_reducible apply PDC_DOM.reg
    | ((with_reducible apply HasReg.as); simp only [PDC_DOM.TARGET_addr])

theorem State.loseMemory_fr (s : State) (d : Nat) : Fr 36574844610 0 s (State.loseMemory s d) := by
  unfold State.loseMemory
  repeat' first
    | with_reducible assumption
    | ((with_reducible apply bitDec); rfl)
    | with_reducible intro _
    | with_reducible exact Fr.refl _ _ _
    | with_reducible apply Fr.ite
    | with_reducible apply Fr.withTlm
    | with_reducible apply Fr.withTcp
    | with_reducible apply Fr.withChan
    | with_reducible apply Fr.withPln
    | with_reducible refine Fr.withEpMem (x := []) ?_ (fun _ => rfl) ?_
    | with_reducible apply Fr.withTack
    | with_reducible apply Fr.withMsg
    | with_reducible apply Fr.withObs
    | with_reducible apply Fr.withSs
    | with_reducible apply Fr.withGlk
    | with_reducible apply Fr.withFab
    | with_reducible apply Fr.withHs
    | with_reducible apply Fr.withTtOp
    | with_reducible apply Fr.withTt

theorem State.loseDomain_fr (s : State) (d : Nat) : Fr 36574844642 200867255532373784442745261542645325315275374222849104412671 s (State.loseDomain s d) := by
  unfold State.loseDomain
  dsimp only
  repeat' first
    | with_reducible assumption
    | with_reducible exact HasReg.all
    | ((with_reducible apply orDec); rfl)
    | with_reducible intro _
    | with_reducible exact Fr.refl _ _ _
    | with_reducible apply Fr.ite
    | with_reducible apply Fr.step (State.loseMemory_fr ..)
    | with_reducible apply Fr.step (State.domMod_fr ..)
    | with_reducible apply Fr.keepRegs

theorem State.replay_fr (s : State) (d : Nat) (refused : List Nat) : Fr 0 200867255532373784442745261542645325315275374222849104412671 s (State.replay s d refused) := by
  unfold State.replay
  repeat' first
    | with_reducible apply Fr.setAny
    | with_reducible assumption
    | with_reducible exact HasReg.all
    | with_reducible intro _
    | with_reducible exact Fr.refl _ _ _
    | with_reducible apply Fr.ite
    | with_reducible apply Fr.setWord
    | with_reducible apply Fr.foldl

end Sys2Proof.Machine
end

