-- ==== Sys2Proof/Laws/FrPortBase.lean ====
section
/-!
SUPPORT. What the operations of Sys2Proof/Machine/PortBase.lean may change.
-/
namespace Sys2Proof.Machine

theorem State.patIdle_fr (s : State) (n : Nat) : Fr 40 8388608 s (State.patIdle s n) := by
  unfold State.patIdle
  repeat' first
    | with_reducible assumption
    | ((with_reducible apply bitDec); rfl)
    | with_reducible intro _
    | with_reducible exact Fr.refl _ _ _
    | with_reducible apply Fr.ite
    | with_reducible apply Fr.setWord
    | with_reducible apply Fr.withPdc
    | with_reducible apply Fr.withPat
    | with_reducible apply TML_PAT.reg

theorem State.chMod_fr (s : State) (n : Nat) (f : Chan → Chan) : Fr 64 0 s (State.chMod s n f) := by
  unfold State.chMod
  repeat' first
    | with_reducible assumption
    | ((with_reducible apply bitDec); rfl)
    | with_reducible intro _
    | with_reducible exact Fr.refl _ _ _
    | with_reducible apply Fr.ite
    | with_reducible apply Fr.withChan

theorem State.tcMod_fr (s : State) (n : Nat) (f : Tcp → Tcp) : Fr 512 0 s (State.tcMod s n f) := by
  unfold State.tcMod
  repeat' first
    | with_reducible assumption
    | ((with_reducible apply bitDec); rfl)
    | with_reducible intro _
    | with_reducible exact Fr.refl _ _ _
    | with_reducible apply Fr.ite
    | with_reducible apply Fr.withTcp

theorem State.setRp_fr (s : State) (n : Nat) : Fr 0 2475880078570760549798248448 s (State.setRp s n) := by
  unfold State.setRp
  repeat' first
    | with_reducible assumption
    | ((with_reducible apply bitDec); rfl)
    | with_reducible intro _
    | with_reducible exact Fr.refl _ _ _
    | with_reducible apply Fr.ite
    | with_reducible apply Fr.p
    | with_reducible apply Fr.when
    | with_reducible apply TCP_PORT.reg
    | ((with_reducible apply HasReg.as); simp only [TCP_PORT.RP_addr])

theorem State.setLimit_fr (s : State) (n : Nat) : Fr 0 10143680681904405972523423891456 s (State.setLimit s n) := by
  unfold State.setLimit
  repeat' first
    | with_reducible assumption
    | ((with_reducible apply orDec); rfl)
    | ((with_reducible apply bitDec); rfl)
    | with_reducible intro _
    | with_reducible exact Fr.refl _ _ _
    | with_reducible apply Fr.ite
    | with_reducible apply Fr.step (State.setRp_fr ..)
    | with_reducible apply Fr.p
    | with_reducible apply PPW_LIMIT.reg
    | ((with_reducible apply HasReg.as); simp only [PPW_LIMIT.EFFECTIVE_addr])

theorem State.tcSet_fr (s : State) (n : Nat) (f : Tcp → Tcp) : Fr 512 2475880078570760549798248448 s (State.tcSet s n f) := by
  unfold State.tcSet
  repeat' first
    | with_reducible assumption
    | ((with_reducible apply orDec); rfl)
    | with_reducible intro _
    | with_reducible exact Fr.refl _ _ _
    | with_reducible apply Fr.ite
    | with_reducible apply Fr.step (State.setRp_fr ..)
    | with_reducible apply Fr.step (State.tcMod_fr ..)

theorem State.gateOff_fr (s : State) (n : Nat) : Fr 192 85070672859873030472525347646947196928 s (State.gateOff s n) := by
  unfold State.gateOff
  dsimp only
  repeat' first
    | with_reducible assumption
    | ((with_reducible apply orDec); rfl)
    | ((with_reducible apply bitDec); rfl)
    | with_reducible intro _
    | with_reducible exact Fr.refl _ _ _
    | with_reducible apply Fr.ite
    | with_reducible apply Fr.step (State.chMod_fr ..)
    | with_reducible apply Fr.p
    | with_reducible apply Fr.when
    | with_reducible apply Fr.withTlm
    | with_reducible apply PPW_STATUS.reg
    | with_reducible apply BUD_PORT.reg
    | ((with_reducible apply HasReg.as); simp only [BUD_PORT.ACCOUNTED_addr, BUD_PORT.FIRST_USE_addr, PPW_STATUS.DISCH_addr, PPW_STATUS.GATE_OK_addr, PPW_STATUS.PG_addr, PPW_STATUS.TIMER_addr])

theorem State.switchOff_fr (s : State) (n : Nat) : Fr 192 85070672859873030472525347646947196928 s (State.switchOff s n) := by
  unfold State.switchOff
  repeat' first
    | with_reducible assumption
    | ((with_reducible apply orDec); rfl)
    | ((with_reducible apply bitDec); rfl)
    | with_reducible intro _
    | with_reducible exact Fr.refl _ _ _
    | with_reducible apply Fr.ite
    | with_reducible apply Fr.step (State.gateOff_fr ..)
    | with_reducible apply Fr.p
    | with_reducible apply Fr.when
    | with_reducible apply PPW_STATUS.reg
    | ((with_reducible apply HasReg.as); simp only [PPW_STATUS.STATE_addr])

theorem State.ccState_fr (s : State) (n st : Nat) : Fr 2 4893107481783862970145939295814194120568611952132096 s (State.ccState s n st) := by
  unfold State.ccState
  dsimp only
  repeat' first
    | with_reducible assumption
    | ((with_reducible apply orDec); rfl)
    | ((with_reducible apply bitDec); rfl)
    | with_reducible intro _
    | with_reducible exact Fr.refl _ _ _
    | with_reducible apply Fr.ite
    | with_reducible apply Fr.step (State.record_fr ..)
    | with_reducible apply Fr.p
    | with_reducible apply TCP_PORT.reg
    | ((with_reducible apply HasReg.as); simp only [TCP_PORT.STATE_addr])

theorem State.vconnOff_fr (s : State) (n : Nat) : Fr 0 2475880078570760549798248448 s (State.vconnOff s n) := by
  unfold State.vconnOff
  repeat' first
    | with_reducible assumption
    | ((with_reducible apply bitDec); rfl)
    | with_reducible intro _
    | with_reducible exact Fr.refl _ _ _
    | with_reducible apply Fr.ite
    | with_reducible apply Fr.p
    | with_reducible apply TCP_PORT.reg
    | ((with_reducible apply HasReg.as); simp only [TCP_PORT.VCONN_ON_addr])

theorem State.dropKeepAlive_fr (s : State) (n : Nat) (ownOnly : Bool) : Fr 17213423616 0 s (State.dropKeepAlive s n ownOnly) := by
  unfold State.dropKeepAlive
  repeat' first
    | with_reducible assumption
    | ((with_reducible apply orDec); rfl)
    | with_reducible intro _
    | with_reducible exact Fr.refl _ _ _
    | with_reducible apply Fr.ite
    | with_reducible apply Fr.step (State.tmlMap_fr ..)

theorem State.endContract_fr (s : State) (n : Nat) : Fr 17213424128 10158535962375830535822213382144 s (State.endContract s n) := by
  unfold State.endContract
  dsimp only
  repeat' first
    | with_reducible assumption
    | ((with_reducible apply orDec); rfl)
    | ((with_reducible apply bitDec); rfl)
    | with_reducible intro _
    | with_reducible exact Fr.refl _ _ _
    | with_reducible apply Fr.ite
    | with_reducible apply Fr.step (State.dropKeepAlive_fr ..)
    | with_reducible apply Fr.step (State.tcMod_fr ..)
    | with_reducible apply Fr.step (State.setLimit_fr ..)
    | with_reducible apply Fr.p
    | with_reducible apply Fr.when
    | with_reducible apply Fr.setWord
    | with_reducible apply TCP_PORT.reg
    | with_reducible apply TCP_CONTRACT.reg
    | with_reducible apply TCP_VSET.reg
    | ((with_reducible apply HasReg.as); simp only [TCP_PORT.CONTRACT_addr, TCP_VSET.CODE_addr, TCP_VSET.FROZEN_addr, TCP_VSET.SLEWING_addr, TCP_VSET.TARGET_addr])

theorem State.powerDown_fr (s : State) (n : Nat) : Fr 17213424320 85070683038216033476921967867546566656 s (State.powerDown s n) := by
  unfold State.powerDown
  dsimp only
  repeat' first
    | with_reducible assumption
    | ((with_reducible apply orDec); rfl)
    | ((with_reducible apply bitDec); rfl)
    | with_reducible intro _
    | with_reducible exact Fr.refl _ _ _
    | with_reducible apply Fr.ite
    | with_reducible apply Fr.step (State.chMod_fr ..)
    | with_reducible apply Fr.step (State.dropKeepAlive_fr ..)
    | with_reducible apply Fr.step (State.endContract_fr ..)
    | with_reducible apply Fr.step (State.vconnOff_fr ..)
    | with_reducible apply Fr.step (State.switchOff_fr ..)
    | with_reducible apply Fr.step (State.setLimit_fr ..)
    | with_reducible apply Fr.step (State.tcMod_fr ..)
    | with_reducible apply Fr.p
    | with_reducible apply Fr.setWord
    | with_reducible apply TCP_PORT.reg
    | with_reducible apply TCP_CABLE.reg
    | with_reducible apply PPW_STATUS.reg
    | ((with_reducible apply HasReg.as); simp only [PPW_STATUS.SINK_addr, TCP_PORT.CONTRACT_addr, TCP_PORT.DATA_ON_addr, TCP_PORT.HR_COUNT_addr, TCP_PORT.PD_REV_addr])

theorem State.muxSafe_fr (s : State) (n : Nat) : Fr 0 79228162514264337593543950336 s (State.muxSafe s n) := by
  unfold State.muxSafe
  repeat' first
    | with_reducible assumption
    | ((with_reducible apply bitDec); rfl)
    | with_reducible intro _
    | with_reducible exact Fr.refl _ _ _
    | with_reducible apply Fr.ite
    | with_reducible apply Fr.p
    | with_reducible apply Fr.when
    | with_reducible apply TCP_DP.reg
    | ((with_reducible apply HasReg.as); simp only [TCP_DP.MUX_addr, TCP_DP.PINS_addr])

theorem State.mirMod_fr (s : State) (slot hub port : Nat) (f : MirPos → MirPos) : Fr 1048576 0 s (State.mirMod s slot hub port f) := by
  unfold State.mirMod
  repeat' first
    | with_reducible assumption
    | ((with_reducible apply bitDec); rfl)
    | with_reducible intro _
    | with_reducible exact Fr.refl _ _ _
    | with_reducible apply Fr.ite
    | with_reducible apply Fr.withMirror

theorem State.mirSend_fr (s : State) (n : Nat) : Fr 1966080 3069854959180814961628475917423900518310152214878879744 s (State.mirSend s n) := by
  unfold State.mirSend
  dsimp only
  repeat' first
    | with_reducible assumption
    | ((with_reducible apply orDec); rfl)
    | ((with_reducible apply bitDec); rfl)
    | with_reducible intro _
    | with_reducible exact Fr.refl _ _ _
    | with_reducible apply Fr.ite
    | with_reducible apply Fr.step (State.mirMod_fr ..)
    | with_reducible apply Fr.step (State.ctrlTo_fr ..)
    | with_reducible apply Fr.each
    | with_reducible apply Fr.withPort
    | split

theorem State.wakeHost_fr (s : State) (u : Nat) : Fr 1024 0 s (State.wakeHost s u) := by
  unfold State.wakeHost
  dsimp only
  repeat' first
    | with_reducible assumption
    | ((with_reducible apply bitDec); rfl)
    | with_reducible intro _
    | with_reducible exact Fr.refl _ _ _
    | with_reducible apply Fr.ite
    | with_reducible apply Fr.when
    | with_reducible apply Fr.out
    | with_reducible apply Fr.withSs

theorem State.ssWake_fr (s : State) (n : Nat) : Fr 394240 3069854959180814961628475917423900518310152214878879744 s (State.ssWake s n) := by
  unfold State.ssWake
  repeat' first
    | with_reducible assumption
    | ((with_reducible apply orDec); rfl)
    | with_reducible intro _
    | with_reducible exact Fr.refl _ _ _
    | with_reducible apply Fr.ite
    | with_reducible apply Fr.step (State.wakeHost_fr ..)
    | with_reducible apply Fr.step (State.ctrlTo_fr ..)
    | split

theorem State.mirLocal_fr (s : State) (n : Nat) (f : PortStat → PortStat) : Fr 1967104 3069854959180814961628475917423900518310152214878879744 s (State.mirLocal s n f) := by
  unfold State.mirLocal
  dsimp only
  repeat' first
    | with_reducible assumption
    | ((with_reducible apply orDec); rfl)
    | ((with_reducible apply bitDec); rfl)
    | with_reducible intro _
    | with_reducible exact Fr.refl _ _ _
    | with_reducible apply Fr.ite
    | with_reducible apply Fr.step (State.mirSend_fr ..)
    | with_reducible apply Fr.step (State.ssWake_fr ..)
    | with_reducible apply Fr.when
    | with_reducible apply Fr.withPort

theorem State.ocReport_fr (s : State) (n : Nat) : Fr 1967168 3069854959180814961628475917423900518310152214878879744 s (State.ocReport s n) := by
  unfold State.ocReport
  dsimp only
  repeat' first
    | with_reducible assumption
    | ((with_reducible apply orDec); rfl)
    | with_reducible intro _
    | with_reducible exact Fr.refl _ _ _
    | with_reducible apply Fr.ite
    | with_reducible apply Fr.step (State.chMod_fr ..)
    | with_reducible apply Fr.step (State.mirLocal_fr ..)

theorem State.hubMod_fr (s : State) (slot pen : Nat) (f : HubS → HubS) : Fr 1024 0 s (State.hubMod s slot pen f) := by
  unfold State.hubMod
  repeat' first
    | with_reducible assumption
    | ((with_reducible apply bitDec); rfl)
    | with_reducible intro _
    | with_reducible exact Fr.refl _ _ _
    | with_reducible apply Fr.ite
    | with_reducible apply Fr.withSs

theorem State.ctxEach_fr {m b : Nat} {r : State} {s : State} {slot : Nat} {pen : Nat} {f : Nat → State → State} (_hm : 0 ||| m = m) (_hb : 0 ||| b = b)
    (hf : ∀ n t, Fr m b r t → Fr m b r (f n t)) (h : Fr m b r s) : Fr m b r (State.ctxEach s slot pen f) := by
  unfold State.ctxEach
  repeat' first
    | with_reducible assumption
    | with_reducible apply hf
    | with_reducible intro _
    | with_reducible exact Fr.refl _ _ _
    | with_reducible apply Fr.ite
    | with_reducible apply Fr.each

theorem State.hubOut_fr (s : State) (slot hub : Nat) (ss status : Bool) (bytes : List Byte) : Fr 34359738368 0 s (State.hubOut s slot hub ss status bytes) := by
  unfold State.hubOut
  dsimp only
  repeat' first
    | with_reducible assumption
    | ((with_reducible apply orDec); rfl)
    | with_reducible intro _
    | with_reducible exact Fr.refl _ _ _
    | with_reducible apply Fr.ite
    | with_reducible apply Fr.step (State.epPackets_fr ..)
    | with_reducible apply Fr.out

theorem State.hubData_fr (s : State) (slot hub : Nat) (ss : Bool) (bytes : List Byte) : Fr 34359738368 0 s (State.hubData s slot hub ss bytes) := by
  unfold State.hubData
  repeat' first
    | with_reducible assumption
    | ((with_reducible apply orDec); rfl)
    | with_reducible intro _
    | with_reducible exact Fr.refl _ _ _
    | with_reducible apply Fr.ite
    | with_reducible apply Fr.step (State.hubOut_fr ..)

theorem State.tellUp_fr (s : State) (slot : Nat) : Fr 393216 3069854959180814961628475917423900518310152214878879744 s (State.tellUp s slot) := by
  unfold State.tellUp
  repeat' first
    | with_reducible assumption
    | ((with_reducible apply orDec); rfl)
    | with_reducible intro _
    | with_reducible exact Fr.refl _ _ _
    | with_reducible apply Fr.ite
    | with_reducible apply Fr.step (State.ctrlTo_fr ..)
    | with_reducible apply Fr.each
    | split

theorem State.ssHubOff_fr (s : State) (slot : Nat) : Fr 1024 67108864 s (State.ssHubOff s slot) := by
  unfold State.ssHubOff
  dsimp only
  repeat' first
    | with_reducible assumption
    | ((with_reducible apply bitDec); rfl)
    | with_reducible intro _
    | with_reducible exact Fr.refl _ _ _
    | with_reducible apply Fr.ite
    | with_reducible apply Fr.p
    | with_reducible apply Fr.each
    | with_reducible apply Fr.withSs
    | with_reducible apply SSH_CTX.reg
    | ((with_reducible apply HasReg.as); simp only [SSH_CTX.ADDR_addr, SSH_CTX.DEPTH_SET_addr, SSH_CTX.DEPTH_addr])

theorem State.hubReset_fr (s : State) (slot pen : Nat) : Fr 1024 67108864 s (State.hubReset s slot pen) := by
  unfold State.hubReset
  dsimp only
  repeat' first
    | with_reducible assumption
    | ((with_reducible apply orDec); rfl)
    | ((with_reducible apply bitDec); rfl)
    | with_reducible intro _
    | with_reducible exact Fr.refl _ _ _
    | with_reducible apply Fr.ite
    | with_reducible apply State.ctxEach_fr
    | with_reducible apply Fr.step (State.hubMod_fr ..)
    | with_reducible apply Fr.p
    | with_reducible apply Fr.withSs
    | with_reducible apply SSH_CTX.reg
    | ((with_reducible apply HasReg.as); simp only [SSH_CTX.ADDR_addr, SSH_CTX.DEPTH_SET_addr, SSH_CTX.DEPTH_addr])

theorem State.ssLink_fr (s : State) (n st : Nat) : Fr 1967162 3069884189213583357758322931182216499945420967446052864 s (State.ssLink s n st) := by
  unfold State.ssLink
  dsimp only
  repeat' first
    | with_reducible assumption
    | ((with_reducible apply orDec); rfl)
    | ((with_reducible apply bitDec); rfl)
    | with_reducible intro _
    | with_reducible exact Fr.refl _ _ _
    | with_reducible apply Fr.ite
    | with_reducible apply Fr.step (State.linkJudge_fr ..)
    | with_reducible apply Fr.step (State.mirLocal_fr ..)
    | with_reducible apply Fr.step (State.patIdle_fr ..)
    | with_reducible apply Fr.step (State.tellUp_fr ..)
    | with_reducible apply Fr.step (State.ssHubOff_fr ..)
    | with_reducible apply Fr.p
    | with_reducible apply Fr.when
    | with_reducible apply Fr.hw
    | with_reducible apply Fr.withSs
    | with_reducible apply SSH_PORT.reg
    | with_reducible apply SSH_PORT_EVT.reg
    | ((with_reducible apply HasReg.as); simp only [SSH_PORT.LINK_addr, SSH_PORT_EVT.LINK_CHG_addr])
    | split

theorem State.hsState_fr (s : State) (n st : Nat) : Fr 50 4893107481805641041628876881595771525809595230453760 s (State.hsState s n st) := by
  unfold State.hsState
  repeat' first
    | with_reducible assumption
    | ((with_reducible apply orDec); rfl)
    | ((with_reducible apply bitDec); rfl)
    | with_reducible intro _
    | with_reducible exact Fr.refl _ _ _
    | with_reducible apply Fr.ite
    | with_reducible apply Fr.step (State.linkJudge_fr ..)
    | with_reducible apply Fr.p
    | with_reducible apply HSH_PORT.reg
    | ((with_reducible apply HasReg.as); simp only [HSH_PORT.STATE_addr])

theorem State.engState_fr (s : State) (e st : Nat) : Fr 393266 3069884189213583357758322931182216499945983916652888064 s (State.engState s e st) := by
  unfold State.engState
  dsimp only
  repeat' first
    | with_reducible assumption
    | ((with_reducible apply orDec); rfl)
    | ((with_reducible apply bitDec); rfl)
    | with_reducible intro _
    | with_reducible exact Fr.refl _ _ _
    | with_reducible apply Fr.ite
    | with_reducible apply Fr.step (State.linkJudge_fr ..)
    | with_reducible apply Fr.step (State.tellUp_fr ..)
    | with_reducible apply Fr.p
    | with_reducible apply Fr.when
    | with_reducible apply Fr.each
    | with_reducible apply HSH_ENG.reg
    | ((with_reducible apply HasReg.as); simp only [HSH_ENG.STATE_addr])

theorem State.hsHere_fr (s : State) (n : Nat) : Fr 1967154 3069884189213583357758322931182216499946546866606309376 s (State.hsHere s n) := by
  unfold State.hsHere
  dsimp only
  repeat' first
    | with_reducible assumption
    | ((with_reducible apply orDec); rfl)
    | with_reducible intro _
    | with_reducible exact Fr.refl _ _ _
    | with_reducible apply Fr.ite
    | with_reducible apply Fr.step (State.mirLocal_fr ..)
    | with_reducible apply Fr.step (State.hsState_fr ..)

theorem State.carryBack_fr (s : State) (k : Nat) : Fr 1967154 3069884189213583357758322931182216499946546866606309376 s (State.carryBack s k) := by
  unfold State.carryBack
  dsimp only
  repeat' first
    | with_reducible assumption
    | ((with_reducible apply orDec); rfl)
    | ((with_reducible apply bitDec); rfl)
    | with_reducible intro _
    | with_reducible exact Fr.refl _ _ _
    | with_reducible apply Fr.ite
    | with_reducible apply Fr.step (State.hsHere_fr ..)
    | with_reducible apply Fr.each
    | with_reducible apply Fr.withMirror

theorem State.tellPens_fr (s : State) : Fr 393216 3069854959180814961628475917423900518310152214878879744 s (State.tellPens s) := by
  unfold State.tellPens
  repeat' first
    | with_reducible assumption
    | ((with_reducible apply orDec); rfl)
    | with_reducible intro _
    | with_reducible exact Fr.refl _ _ _
    | with_reducible apply Fr.ite
    | with_reducible apply Fr.step (State.ctrlTo_fr ..)
    | with_reducible apply Fr.when
    | with_reducible apply Fr.each
    | split
    | dsimp only

theorem State.defaultPower_fr (s : State) (slot : Nat) : Fr 16448 0 s (State.defaultPower s slot) := by
  unfold State.defaultPower
  repeat' first
    | with_reducible assumption
    | ((with_reducible apply orDec); rfl)
    | ((with_reducible apply bitDec); rfl)
    | with_reducible intro _
    | with_reducible exact Fr.refl _ _ _
    | with_reducible apply Fr.ite
    | with_reducible apply Fr.step (State.chMod_fr ..)
    | with_reducible apply Fr.each
    | with_reducible apply Fr.withHs

theorem State.cdpStall_fr (s : State) (n : Nat) : Fr 0 1125899906842624 s (State.cdpStall s n) := by
  unfold State.cdpStall
  repeat' first
    | with_reducible assumption
    | ((with_reducible apply bitDec); rfl)
    | with_reducible intro _
    | with_reducible exact Fr.refl _ _ _
    | with_reducible apply Fr.ite
    | with_reducible apply Fr.p
    | with_reducible apply Fr.when
    | with_reducible apply HSH_PORT.reg
    | ((with_reducible apply HasReg.as); simp only [HSH_PORT.BC_addr])

theorem State.cdpJudge_fr (s : State) (slot : Nat) : Fr 0 1125899906842624 s (State.cdpJudge s slot) := by
  unfold State.cdpJudge
  repeat' first
    | with_reducible assumption
    | ((with_reducible apply orDec); rfl)
    | with_reducible intro _
    | with_reducible exact Fr.refl _ _ _
    | with_reducible apply Fr.ite
    | with_reducible apply Fr.step (State.cdpStall_fr ..)
    | with_reducible apply Fr.each

theorem State.dataOff_fr (s : State) (n : Nat) : Fr 1967162 3069884189213583357758322931182216499946546867352895488 s (State.dataOff s n) := by
  unfold State.dataOff
  dsimp only
  repeat' first
    | with_reducible assumption
    | ((with_reducible apply orDec); rfl)
    | with_reducible intro _
    | with_reducible exact Fr.refl _ _ _
    | with_reducible apply Fr.ite
    | with_reducible apply Fr.step (State.ssLink_fr ..)
    | with_reducible apply Fr.step (State.hsState_fr ..)
    | with_reducible apply Fr.when

theorem State.disconnectHost_fr (s : State) (u : Nat) : Fr 69092474 3069884200631564899406001979648504260154756926795677696 s (State.disconnectHost s u) := by
  unfold State.disconnectHost
  dsimp only
  repeat' first
    | with_reducible assumption
    | ((with_reducible apply orDec); rfl)
    | ((with_reducible apply bitDec); rfl)
    | with_reducible intro _
    | with_reducible exact Fr.refl _ _ _
    | with_reducible apply Fr.ite
    | with_reducible apply Fr.step (State.ssLink_fr ..)
    | with_reducible apply Fr.step (State.tellUp_fr ..)
    | with_reducible apply Fr.step (State.cdpJudge_fr ..)
    | with_reducible apply Fr.step (State.defaultPower_fr ..)
    | with_reducible apply Fr.step (State.engState_fr ..)
    | with_reducible apply Fr.p
    | with_reducible apply Fr.when
    | with_reducible apply Fr.each
    | with_reducible apply Fr.withTack
    | with_reducible apply Fr.withSs
    | with_reducible apply Fr.withHs
    | with_reducible apply Fr.withPdc
    | with_reducible apply HSH_ENG.reg
    | with_reducible apply UPP_PADDOCK.reg
    | with_reducible apply TKR_FUNC.reg
    | ((with_reducible apply HasReg.as); simp only [HSH_ENG.SPEED_addr, TKR_FUNC.ADDR_addr, TKR_FUNC.RWAKE_addr, TKR_FUNC.STATE_addr, UPP_PADDOCK.STATE_addr])
    | split

end Sys2Proof.Machine
end

