-- ==== Sys2Proof/Laws/FrFault.lean ====
section
/-!
SUPPORT. What the operations of Sys2Proof/Machine/Fault.lean may change.
-/
namespace Sys2Proof.Machine

theorem State.setMode_fr (s : State) (m cause : Nat) : Fr 34 24524821761336039624940390465071227390910377193912664064 s (State.setMode s m cause) := by
  unfold State.setMode
  dsimp only
  repeat' first
    | with_reducible assumption
    | ((with_reducible apply orDec); rfl)
    | ((with_reducible apply bitDec); rfl)
    | with_reducible intro _
    | with_reducible exact Fr.refl _ _ _
    | with_reducible apply Fr.ite
    | with_reducible apply Fr.step (State.record_fr ..)
    | with_reducible apply Fr.step (State.setVote_fr ..)
    | with_reducible apply Fr.p
    | with_reducible apply Fr.when
    | with_reducible apply Fr.each
    | with_reducible apply PDC_CTRL.reg
    | with_reducible apply PDC_XTAL.reg
    | with_reducible apply TOP_MODE.reg
    | ((with_reducible apply HasReg.as); simp only [PDC_CTRL.ENABLE_addr, PDC_XTAL.STOP_EN_addr, TOP_MODE.BOOT_STEP_addr, TOP_MODE.HELD_addr, TOP_MODE.MODE_addr])

theorem State.glkState_fr (s : State) (k st : Nat) : Fr 131122 4893107481805641041628876881598132707925130146217984 s (State.glkState s k st) := by
  unfold State.glkState
  repeat' first
    | with_reducible assumption
    | ((with_reducible apply orDec); rfl)
    | ((with_reducible apply bitDec); rfl)
    | with_reducible intro _
    | with_reducible exact Fr.refl _ _ _
    | with_reducible apply Fr.ite
    | with_reducible apply Fr.step (State.record_fr ..)
    | with_reducible apply Fr.step (State.linkJudge_fr ..)
    | with_reducible apply Fr.p
    | with_reducible apply Fr.withGlk
    | with_reducible apply GLK_LINK.reg
    | ((with_reducible apply HasReg.as); simp only [GLK_LINK.IDLE_addr, GLK_LINK.STATE_addr])

theorem State.attempt_fr (s : State) (k : Nat) : Fr 131122 4893107481805641041628876881598132707925130146217984 s (State.attempt s k) := by
  unfold State.attempt
  repeat' first
    | with_reducible assumption
    | ((with_reducible apply orDec); rfl)
    | ((with_reducible apply bitDec); rfl)
    | with_reducible intro _
    | with_reducible exact Fr.refl _ _ _
    | with_reducible apply Fr.ite
    | with_reducible apply Fr.step (State.lkMod_fr ..)
    | with_reducible apply Fr.step (State.glkState_fr ..)
    | with_reducible apply Fr.incSat
    | with_reducible apply GLK_LINK.reg
    | ((with_reducible apply HasReg.as); simp only [GLK_LINK.ATTEMPTS_addr])

theorem State.trainTick_fr (s : State) : Fr 131122 4893107481805641041628876881598132707925130146217984 s (State.trainTick s) := by
  unfold State.trainTick
  repeat' first
    | with_reducible assumption
    | ((with_reducible apply orDec); rfl)
    | with_reducible intro _
    | with_reducible exact Fr.refl _ _ _
    | with_reducible apply Fr.ite
    | with_reducible apply Fr.step (State.glkState_fr ..)
    | with_reducible apply Fr.each

theorem State.glkOff_fr (s : State) (k : Nat) : Fr 269877298 3069884189213583357758322931416143646045367681138294784 s (State.glkOff s k) := by
  unfold State.glkOff
  dsimp only
  repeat' first
    | with_reducible assumption
    | ((with_reducible apply orDec); rfl)
    | ((with_reducible apply bitDec); rfl)
    | with_reducible intro _
    | with_reducible exact Fr.refl _ _ _
    | with_reducible apply Fr.ite
    | with_reducible apply Fr.step (State.linkBale_fr ..)
    | with_reducible apply Fr.step (State.glkState_fr ..)
    | with_reducible apply Fr.step (State.lkMod_fr ..)
    | with_reducible apply Fr.step (State.linkLost_fr ..)
    | with_reducible apply Fr.p
    | with_reducible apply Fr.when
    | with_reducible apply HSH_CARRY.reg
    | with_reducible apply GLK_LINK.reg
    | ((with_reducible apply HasReg.as); simp only [GLK_LINK.LANES_addr, HSH_CARRY.STATE_addr])

theorem State.setSticky_fr (s : State) (src : Nat) (v : Bool) : Fr 0 47890485652059026823698344598447161988085597568237568 s (State.setSticky s src v) := by
  unfold State.setSticky
  repeat' first
    | with_reducible assumption
    | ((with_reducible apply bitDec); rfl)
    | with_reducible intro _
    | with_reducible exact Fr.refl _ _ _
    | with_reducible apply Fr.ite
    | with_reducible apply Fr.p
    | with_reducible apply Fr.hw
    | with_reducible apply FLT_STICKY.reg

theorem State.portReaction_fr (s : State) (n : Nat) (power : Bool) : Fr 17282516730 3069884200631564984476684998057497108510640395956256768 s (State.portReaction s n power) := by
  unfold State.portReaction
  dsimp only
  repeat' first
    | with_reducible assumption
    | ((with_reducible apply orDec); rfl)
    | with_reducible intro _
    | with_reducible exact Fr.refl _ _ _
    | with_reducible apply Fr.ite
    | with_reducible apply Fr.step (State.dataOff_fr ..)
    | with_reducible apply Fr.step (State.switchOff_fr ..)
    | with_reducible apply Fr.step (State.vconnOff_fr ..)
    | with_reducible apply Fr.step (State.endContract_fr ..)
    | with_reducible apply Fr.step (State.disconnectHost_fr ..)
    | with_reducible apply Fr.step (State.ocReport_fr ..)
    | with_reducible apply Fr.step (State.mirLocal_fr ..)
    | with_reducible apply Fr.when

theorem State.reactPort_fr (s : State) (src q : Nat) : Fr 17550952186 3069884200631564984476684998291424254610587110395084800 s (State.reactPort s src q) := by
  unfold State.reactPort
  repeat' first
    | with_reducible assumption
    | ((with_reducible apply orDec); rfl)
    | with_reducible intro _
    | with_reducible exact Fr.refl _ _ _
    | with_reducible apply Fr.ite
    | with_reducible apply Fr.step (State.portReaction_fr ..)
    | with_reducible apply Fr.step (State.glkOff_fr ..)
    | with_reducible apply Fr.step (State.attempt_fr ..)
    | with_reducible apply Fr.when
    | with_reducible apply Fr.each
    | split

theorem State.safeOutputs_fr (s : State) : Fr 17550952186 3069884200631564984476685097326627397441009102325022720 s (State.safeOutputs s) := by
  unfold State.safeOutputs
  dsimp only
  repeat' first
    | with_reducible assumption
    | ((with_reducible apply orDec); rfl)
    | ((with_reducible apply bitDec); rfl)
    | with_reducible intro _
    | with_reducible exact Fr.refl _ _ _
    | with_reducible apply Fr.ite
    | with_reducible apply Fr.step (State.dataOff_fr ..)
    | with_reducible apply Fr.step (State.switchOff_fr ..)
    | with_reducible apply Fr.step (State.ccState_fr ..)
    | with_reducible apply Fr.step (State.powerDown_fr ..)
    | with_reducible apply Fr.step (State.glkOff_fr ..)
    | with_reducible apply Fr.step (State.muxSafe_fr ..)
    | with_reducible apply Fr.step (State.disconnectHost_fr ..)
    | with_reducible apply Fr.p
    | with_reducible apply Fr.when
    | with_reducible apply Fr.each
    | with_reducible apply TCP_PORT.reg
    | ((with_reducible apply HasReg.as); simp only [TCP_PORT.RP_addr])

theorem State.reactChip_fr (s : State) (src sev : Nat) : Fr 17567737594 27607771786605321103434333564740676702572234700006359040 s (State.reactChip s src sev) := by
  unfold State.reactChip
  dsimp only
  repeat' first
    | with_reducible assumption
    | ((with_reducible apply orDec); rfl)
    | ((with_reducible apply bitDec); rfl)
    | with_reducible intro _
    | with_reducible exact Fr.refl _ _ _
    | with_reducible apply Fr.ite
    | with_reducible apply Fr.step (State.safeOutputs_fr ..)
    | with_reducible apply Fr.step (State.setMode_fr ..)
    | with_reducible apply Fr.p
    | with_reducible apply Fr.when
    | with_reducible apply Fr.withFlt
    | with_reducible apply Fr.withBoot
    | with_reducible apply FLT_STATUS.reg
    | with_reducible apply FLT_PINS.reg
    | with_reducible apply TOP_MODE.reg
    | ((with_reducible apply HasReg.as); simp only [FLT_PINS.CUT_N_addr, FLT_PINS.FAULT_N_addr, FLT_STATUS.CAUSE_SEV_addr, FLT_STATUS.CAUSE_VALID_addr, FLT_STATUS.CAUSE_addr, FLT_STATUS.GRAVE_addr, FLT_STATUS.SAFE_addr, TOP_MODE.SAFE_CAUSE_addr])

theorem State.raise_fr (s : State) (src : Nat) (q : Nat) : Fr 17567737594 28421910042690324559437205422914278456369689858666397696 s (State.raise s src q) := by
  unfold State.raise
  dsimp only
  repeat' first
    | with_reducible assumption
    | ((with_reducible apply orDec); rfl)
    | ((with_reducible apply bitDec); rfl)
    | with_reducible intro _
    | with_reducible exact Fr.refl _ _ _
    | with_reducible apply Fr.ite
    | with_reducible apply Fr.step (State.setSticky_fr ..)
    | with_reducible apply Fr.step (State.record_fr ..)
    | with_reducible apply Fr.step (State.judge_fr ..)
    | with_reducible apply Fr.step (State.reactPort_fr ..)
    | with_reducible apply Fr.step (State.reactChip_fr ..)
    | with_reducible apply Fr.p
    | with_reducible apply Fr.incSat
    | with_reducible apply Fr.when
    | with_reducible apply Fr.mark
    | with_reducible apply Fr.withPdc
    | with_reducible apply FLT_QUAL.reg
    | ((with_reducible apply HasReg.as); simp only [FLT_QUAL.COUNT_addr, FLT_QUAL.FIRST_addr, FLT_QUAL.LAST_addr])

end Sys2Proof.Machine
end

