-- ==== Sys2Proof/Laws/FrReceive.lean ====
section
/-!
SUPPORT. What the operations of Sys2Proof/Machine/Receive.lean may change.
-/
namespace Sys2Proof.Machine

theorem State.eccRead_fr (s : State) (ecc : Nat) : Fr 17567737594 28421910042690324559437205422914278456369725043038486528 s (State.eccRead s ecc) := by
  unfold State.eccRead
  repeat' first
    | with_reducible assumption
    | ((with_reducible apply orDec); rfl)
    | ((with_reducible apply bitDec); rfl)
    | with_reducible intro _
    | with_reducible exact Fr.refl _ _ _
    | with_reducible apply Fr.ite
    | with_reducible apply Fr.step (State.raise_fr ..)
    | with_reducible apply Fr.incSat
    | with_reducible apply Fr.when
    | with_reducible apply Fr.hw
    | with_reducible apply PBF_EVT.reg
    | with_reducible apply PBF_ECC_COUNT.reg
    | ((with_reducible apply HasReg.as); simp only [PBF_ECC_COUNT.CORR_addr, PBF_ECC_COUNT.UNCORR_addr, PBF_EVT.ECC_CORR_addr, PBF_EVT.ECC_UNCORR_addr])

theorem State.readCells_fr (s : State) (b : Buf) (ecc : Nat) : Fr 17567737594 28421910042690324559437205422914278456369725043038486528 s (State.readCells s b ecc).2 := by
  unfold State.readCells
  repeat' first
    | with_reducible assumption
    | ((with_reducible apply orDec); rfl)
    | with_reducible intro _
    | with_reducible exact Fr.refl _ _ _
    | with_reducible apply Fr.ite
    | with_reducible apply Fr.step (State.eccRead_fr ..)
    | split

theorem State.discardBale_fr (s : State) (k : Nat) (sequenced : Bool) : Fr 131072 11805916224766299078656 s (State.discardBale s k sequenced) := by
  unfold State.discardBale
  repeat' first
    | with_reducible assumption
    | ((with_reducible apply orDec); rfl)
    | ((with_reducible apply bitDec); rfl)
    | with_reducible intro _
    | with_reducible exact Fr.refl _ _ _
    | with_reducible apply Fr.ite
    | with_reducible apply Fr.step (State.lkMod_fr ..)
    | with_reducible apply Fr.step (State.linkBale_fr ..)
    | with_reducible apply Fr.incSat
    | with_reducible apply Fr.when
    | with_reducible apply GLK_ERR.reg
    | ((with_reducible apply HasReg.as); simp only [GLK_ERR.CRC_addr])

theorem State.ctrlCell_fr (s : State) (h : BaleHdr) : Fr 17567737594 28421910042690324559437205422914278456369725043038486528 s (State.ctrlCell s h).2 := by
  unfold State.ctrlCell
  dsimp only
  repeat' first
    | with_reducible assumption
    | ((with_reducible apply orDec); rfl)
    | ((with_reducible apply bitDec); rfl)
    | with_reducible intro _
    | with_reducible exact Fr.refl _ _ _
    | with_reducible apply Fr.ite
    | with_reducible apply Fr.step (State.takeCells_fr ..)
    | with_reducible apply Fr.step (State.rxSequenced_fr ..)
    | with_reducible apply Fr.step (State.rxHdr_fr ..)
    | with_reducible apply Fr.step (State.eccRead_fr ..)
    | with_reducible apply Fr.p
    | with_reducible apply GLK_LINK.reg
    | ((with_reducible apply HasReg.as); simp only [GLK_LINK.IDLE_addr])

theorem State.rxCtrlBale_fr (s : State) (h : BaleHdr) : Fr 17567737594 28421910042690324559437205422914278456369725043038486528 s (State.rxCtrlBale s h) := by
  unfold State.rxCtrlBale
  dsimp only
  repeat' first
    | with_reducible assumption
    | ((with_reducible apply orDec); rfl)
    | with_reducible intro _
    | with_reducible exact Fr.refl _ _ _
    | with_reducible apply Fr.ite
    | with_reducible apply Fr.step (State.ctrlCell_fr ..)
    | with_reducible apply Fr.step (State.lkMod_fr ..)
    | with_reducible apply Fr.step (State.freeCells_fr ..)

theorem State.forwardCtrl_fr (s : State) (k b : Nat) (js : List Nat) (m : CtrlMsg) : Fr 131072 3069854959180814961628475917423900518310164584384692224 s (State.forwardCtrl s k b js m) := by
  unfold State.forwardCtrl
  repeat' first
    | with_reducible assumption
    | ((with_reducible apply orDec); rfl)
    | with_reducible intro _
    | with_reducible exact Fr.refl _ _ _
    | with_reducible apply Fr.ite
    | with_reducible apply Fr.step (State.freeCtrl_fr ..)
    | with_reducible apply Fr.step (State.ctrlOn_fr ..)
    | with_reducible apply Fr.each
    | split

theorem State.noteSeen_fr (s : State) (key : Nat × Nat) : Fr 262144 0 s (State.noteSeen s key) := by
  unfold State.noteSeen
  repeat' first
    | with_reducible assumption
    | ((with_reducible apply bitDec); rfl)
    | with_reducible intro _
    | with_reducible exact Fr.refl _ _ _
    | with_reducible apply Fr.ite
    | with_reducible apply Fr.withFab

theorem State.rxCtrl_fr {m b : Nat} {r : State} {s : State} {c : CtrlHdr} {name : String} {fields : List Nat} {f : State → State} (hm : 17567737594 ||| m = m) (hb : 28421910042690324559437205422914287901102690782328913920 ||| b = b)
    (hf : ∀ t, Fr m b r t → Fr m b r (f t)) (h : Fr m b r s) : Fr m b r (State.rxCtrl s c name fields f) := by
  unfold State.rxCtrl
  dsimp only
  repeat' first
    | with_reducible assumption
    | ((with_reducible apply orTrans (M := 28421910042690324559437205422914287901102690782328913920) (hm := hb)); rfl)
    | ((with_reducible apply orTrans (M := 17567737594) (hm := hm)); rfl)
    | with_reducible apply hf
    | with_reducible intro _
    | with_reducible exact Fr.refl _ _ _
    | with_reducible apply Fr.ite
    | with_reducible apply Fr.step (State.discardBale_fr ..)
    | with_reducible apply Fr.step (State.ctrlCell_fr ..)
    | with_reducible apply Fr.step (State.freeCtrl_fr ..)
    | with_reducible apply Fr.step (State.forwardCtrl_fr ..)
    | with_reducible apply Fr.step (State.noteSeen_fr ..)
    | with_reducible apply Fr.step (State.rxCtrlBale_fr ..)

end Sys2Proof.Machine
end

