-- ==== Sys2Proof/Laws/FrYard.lean ====
section
/-!
SUPPORT. What the operations of Sys2Proof/Machine/Yard.lean may change.
-/
namespace Sys2Proof.Machine

theorem State.yardMod_fr (s : State) (y : Nat) (f : Yard → Yard) : Fr 4 0 s (State.yardMod s y f) := by
  unfold State.yardMod
  repeat' first
    | with_reducible assumption
    | ((with_reducible apply bitDec); rfl)
    | with_reducible intro _
    | with_reducible exact Fr.refl _ _ _
    | with_reducible apply Fr.ite
    | with_reducible apply Fr.withYards

theorem State.yardSet_fr (s : State) (y t : Nat) : Fr 4 0 s (State.yardSet s y t) := by
  unfold State.yardSet
  repeat' first
    | with_reducible assumption
    | ((with_reducible apply orDec); rfl)
    | with_reducible intro _
    | with_reducible exact Fr.refl _ _ _
    | with_reducible apply Fr.ite
    | with_reducible apply Fr.step (State.yardMod_fr ..)

theorem State.rebase_fr (s : State) (y : Nat) (d : Int) (old new : Nat) : Fr 17213423648 0 s (State.rebase s y d old new) := by
  unfold State.rebase
  dsimp only
  repeat' first
    | with_reducible assumption
    | ((with_reducible apply orDec); rfl)
    | ((with_reducible apply bitDec); rfl)
    | with_reducible intro _
    | with_reducible exact Fr.refl _ _ _
    | with_reducible apply Fr.ite
    | with_reducible apply Fr.step (State.tmlMap_fr ..)
    | with_reducible apply Fr.withPdc

theorem State.yardStep_fr (s : State) (y new st : Nat) : Fr 17213423662 4893107481783862970145936819934115549808062162276608 s (State.yardStep s y new st) := by
  unfold State.yardStep
  dsimp only
  repeat' first
    | with_reducible assumption
    | ((with_reducible apply orDec); rfl)
    | ((with_reducible apply bitDec); rfl)
    | with_reducible intro _
    | with_reducible exact Fr.refl _ _ _
    | with_reducible apply Fr.ite
    | with_reducible apply Fr.step (State.yardMod_fr ..)
    | with_reducible apply Fr.step (State.yardSet_fr ..)
    | with_reducible apply Fr.step (State.rebase_fr ..)
    | with_reducible apply Fr.step (State.patIdle_fr ..)
    | with_reducible apply Fr.step (State.record_fr ..)
    | with_reducible apply Fr.p
    | with_reducible apply Fr.each
    | with_reducible apply Fr.hw
    | with_reducible apply Fr.mark
    | with_reducible apply YRD_STATUS.reg
    | with_reducible apply YRD_STEP.reg
    | ((with_reducible apply HasReg.as); simp only [YRD_STATUS.STATE_addr, YRD_STATUS.STEPPED_addr, YRD_STEP.STEP_addr])

theorem State.yardLock_fr (s : State) (y : Nat) : Fr 17213423620 256 s (State.yardLock s y) := by
  unfold State.yardLock
  dsimp only
  repeat' first
    | with_reducible assumption
    | ((with_reducible apply orDec); rfl)
    | ((with_reducible apply bitDec); rfl)
    | with_reducible intro _
    | with_reducible exact Fr.refl _ _ _
    | with_reducible apply Fr.ite
    | with_reducible apply Fr.step (State.yardMod_fr ..)
    | with_reducible apply Fr.step (State.tmlMap_fr ..)
    | with_reducible apply Fr.p
    | with_reducible apply YRD_STATUS.reg
    | ((with_reducible apply HasReg.as); simp only [YRD_STATUS.COARSE_addr, YRD_STATUS.STATE_addr])

theorem State.takeRef_fr (s : State) (y num off ref : Nat) (rate : Int) : Fr 17213423662 4893107481783862970145936819934115549808062162278656 s (State.takeRef s y num off ref rate) := by
  unfold State.takeRef
  repeat' first
    | with_reducible assumption
    | ((with_reducible apply orDec); rfl)
    | ((with_reducible apply bitDec); rfl)
    | with_reducible intro _
    | with_reducible exact Fr.refl _ _ _
    | with_reducible apply Fr.ite
    | with_reducible apply Fr.step (State.yardMod_fr ..)
    | with_reducible apply Fr.step (State.yardStep_fr ..)
    | with_reducible apply Fr.step (State.yardSet_fr ..)
    | with_reducible apply Fr.step (State.yardLock_fr ..)
    | with_reducible apply Fr.p
    | with_reducible apply Fr.when
    | with_reducible apply YRD_STATUS.reg
    | with_reducible apply YRD_RATE.reg
    | ((with_reducible apply HasReg.as); simp only [YRD_RATE.RATE_addr, YRD_STATUS.PHASE_ERR_addr, YRD_STATUS.REF_addr])

theorem State.sofReceived_fr (s : State) (u : Fin 2) (frame : Fin 2048) (rate : Int) : Fr 17213423662 4893107481783862970145936819934115549808062162278656 s (State.sofReceived s u frame rate) := by
  unfold State.sofReceived
  repeat' first
    | with_reducible assumption
    | ((with_reducible apply orDec); rfl)
    | with_reducible intro _
    | with_reducible exact Fr.refl _ _ _
    | with_reducible apply Fr.ite
    | with_reducible apply Fr.step (State.yardMod_fr ..)
    | with_reducible apply Fr.step (State.takeRef_fr ..)
    | with_reducible apply Fr.when
    | split

theorem State.itpForward_fr (s : State) (u y bic delta : Nat) (res : List ItpOut) : Fr 0 8589934592 s (State.itpForward s u y bic delta res) := by
  unfold State.itpForward
  repeat' first
    | with_reducible assumption
    | ((with_reducible apply bitDec); rfl)
    | with_reducible intro _
    | with_reducible exact Fr.refl _ _ _
    | with_reducible apply Fr.ite
    | with_reducible apply Fr.p
    | with_reducible apply Fr.each
    | with_reducible apply Fr.out
    | with_reducible apply Fr.getD
    | with_reducible apply SSH_ITP.reg
    | ((with_reducible apply HasReg.as); simp only [SSH_ITP.RES_MAX_addr])

theorem State.itpReceived_fr (s : State) (u : Fin 2) (bic : Fin 16384) (delta : Nat) (res : List ItpOut) (rate : Int) : Fr 17213816878 3069884189213561579686839991120554843970545342128068864 s (State.itpReceived s u bic delta res rate) := by
  unfold State.itpReceived
  repeat' first
    | with_reducible assumption
    | ((with_reducible apply orDec); rfl)
    | ((with_reducible apply bitDec); rfl)
    | with_reducible intro _
    | with_reducible exact Fr.refl _ _ _
    | with_reducible apply Fr.ite
    | with_reducible apply Fr.step (State.takeRef_fr ..)
    | with_reducible apply Fr.step (State.itpForward_fr ..)
    | with_reducible apply Fr.step (State.ctrlTo_fr ..)
    | with_reducible apply Fr.p
    | with_reducible apply Fr.when
    | with_reducible apply Fr.each
    | with_reducible apply SSH_ITP.reg
    | ((with_reducible apply HasReg.as); simp only [SSH_ITP.LAST_BIC_addr])
    | split

theorem State.yardCoarse_fr (s : State) (y : Nat) : Fr 17567737594 28421910042690324559437205422914278456369689858666397952 s (State.yardCoarse s y) := by
  unfold State.yardCoarse
  repeat' first
    | with_reducible assumption
    | ((with_reducible apply orDec); rfl)
    | ((with_reducible apply bitDec); rfl)
    | with_reducible intro _
    | with_reducible exact Fr.refl _ _ _
    | with_reducible apply Fr.ite
    | with_reducible apply Fr.step (State.raise_fr ..)
    | with_reducible apply Fr.p
    | with_reducible apply Fr.when
    | with_reducible apply YRD_STATUS.reg
    | ((with_reducible apply HasReg.as); simp only [YRD_STATUS.COARSE_addr])

theorem State.yardCoast_fr (s : State) (y : Nat) : Fr 17567737598 28421910042690324559437205422914278456369689858666397952 s (State.yardCoast s y) := by
  unfold State.yardCoast
  repeat' first
    | with_reducible assumption
    | ((with_reducible apply orDec); rfl)
    | ((with_reducible apply bitDec); rfl)
    | with_reducible intro _
    | with_reducible exact Fr.refl _ _ _
    | with_reducible apply Fr.ite
    | with_reducible apply Fr.step (State.yardMod_fr ..)
    | with_reducible apply Fr.step (State.yardCoarse_fr ..)
    | with_reducible apply Fr.p
    | with_reducible apply Fr.when
    | with_reducible apply Fr.hw
    | with_reducible apply YRD_STATUS.reg
    | ((with_reducible apply HasReg.as); simp only [YRD_STATUS.LOST_addr, YRD_STATUS.REF_addr, YRD_STATUS.STATE_addr])

theorem State.forceCoast_fr (s : State) : Fr 17567737598 28421910042690324559437205422914278456369689858666397952 s (State.forceCoast s) := by
  unfold State.forceCoast
  repeat' first
    | with_reducible assumption
    | ((with_reducible apply orDec); rfl)
    | with_reducible intro _
    | with_reducible exact Fr.refl _ _ _
    | with_reducible apply Fr.ite
    | with_reducible apply Fr.step (State.yardCoast_fr ..)
    | with_reducible apply Fr.each

theorem State.yardsKeeper_fr (s : State) : Fr 17567737594 28421910042690324559437205422914278456369689858666397952 s (State.yardsKeeper s) := by
  unfold State.yardsKeeper
  repeat' first
    | with_reducible assumption
    | ((with_reducible apply orDec); rfl)
    | ((with_reducible apply bitDec); rfl)
    | with_reducible intro _
    | with_reducible exact Fr.refl _ _ _
    | with_reducible apply Fr.ite
    | with_reducible apply Fr.step (State.yardCoarse_fr ..)
    | with_reducible apply Fr.p
    | with_reducible apply Fr.each
    | with_reducible apply YRD_STATUS.reg
    | ((with_reducible apply HasReg.as); simp only [YRD_STATUS.STATE_addr])

theorem State.yardsCrystal_fr (s : State) : Fr 16777220 256 s (State.yardsCrystal s) := by
  unfold State.yardsCrystal
  repeat' first
    | with_reducible assumption
    | ((with_reducible apply orDec); rfl)
    | ((with_reducible apply bitDec); rfl)
    | with_reducible intro _
    | with_reducible exact Fr.refl _ _ _
    | with_reducible apply Fr.ite
    | with_reducible apply Fr.step (State.yardMod_fr ..)
    | with_reducible apply Fr.p
    | with_reducible apply Fr.withFlt
    | with_reducible apply YRD_STATUS.reg
    | ((with_reducible apply HasReg.as); simp only [YRD_STATUS.COARSE_addr, YRD_STATUS.STATE_addr])

theorem State.snapYards_fr (s : State) : Fr 4 1024 s (State.snapYards s) := by
  unfold State.snapYards
  repeat' first
    | with_reducible assumption
    | ((with_reducible apply orDec); rfl)
    | ((with_reducible apply bitDec); rfl)
    | with_reducible intro _
    | with_reducible exact Fr.refl _ _ _
    | with_reducible apply Fr.ite
    | with_reducible apply Fr.step (State.yardMod_fr ..)
    | with_reducible apply Fr.p
    | with_reducible apply Fr.each
    | with_reducible apply YRD_NOW_HI.reg
    | ((with_reducible apply HasReg.as); simp only [YRD_NOW_HI.NOW_HI_addr])

theorem State.yardNowRead_fr (s : State) (y : Nat) : Fr 4 1024 s (State.yardNowRead s y).2 := by
  unfold State.yardNowRead
  repeat' first
    | with_reducible assumption
    | ((with_reducible apply orDec); rfl)
    | ((with_reducible apply bitDec); rfl)
    | with_reducible intro _
    | with_reducible exact Fr.refl _ _ _
    | with_reducible apply Fr.ite
    | with_reducible apply Fr.step (State.yardMod_fr ..)
    | with_reducible apply Fr.p
    | with_reducible apply YRD_NOW_HI.reg
    | ((with_reducible apply HasReg.as); simp only [YRD_NOW_HI.NOW_HI_addr])
    | split

theorem State.yardsTick_fr (s : State) : Fr 4 0 s (State.yardsTick s) := by
  unfold State.yardsTick
  repeat' first
    | with_reducible assumption
    | ((with_reducible apply orDec); rfl)
    | with_reducible intro _
    | with_reducible exact Fr.refl _ _ _
    | with_reducible apply Fr.ite
    | with_reducible apply Fr.step (State.yardMod_fr ..)
    | with_reducible apply Fr.each

theorem State.barnTimeReceived_fr (s : State) (h : BaleHdr) (value hops : Nat) (rate : Int) : Fr 17567737598 28421910042690324559437205422914287901102690782328928512 s (State.barnTimeReceived s h value hops rate) := by
  unfold State.barnTimeReceived
  dsimp only
  repeat' first
    | with_reducible assumption
    | ((with_reducible apply orDec); rfl)
    | ((with_reducible apply bitDec); rfl)
    | with_reducible intro _
    | with_reducible exact Fr.refl _ _ _
    | with_reducible apply Fr.ite
    | with_reducible apply Fr.step (State.discardBale_fr ..)
    | with_reducible apply Fr.step (State.rxCtrlBale_fr ..)
    | with_reducible apply Fr.step (State.yardMod_fr ..)
    | with_reducible apply Fr.step (State.yardStep_fr ..)
    | with_reducible apply Fr.step (State.nextCseq_fr ..)
    | with_reducible apply Fr.step (State.ctrlOn_fr ..)
    | with_reducible apply Fr.p
    | with_reducible apply Fr.each
    | with_reducible apply YRD_RATE.reg
    | with_reducible apply YRD_BARN.reg
    | ((with_reducible apply HasReg.as); simp only [YRD_BARN.ERR_addr, YRD_BARN.HOPS_addr, YRD_BARN.SYNCED_addr, YRD_RATE.RATE_addr])

theorem State.runHeld_fr (s : State) (y : Nat) : Fr 17213423616 0 s (State.runHeld s y) := by
  unfold State.runHeld
  repeat' first
    | with_reducible assumption
    | ((with_reducible apply orDec); rfl)
    | with_reducible intro _
    | with_reducible exact Fr.refl _ _ _
    | with_reducible apply Fr.ite
    | with_reducible apply Fr.step (State.tmlMap_fr ..)

theorem State.copyUnbound_fr (s : State) (y : Nat) : Fr 4 2304 s (State.copyUnbound s y) := by
  unfold State.copyUnbound
  repeat' first
    | with_reducible exact fldNil
    | with_reducible apply fldCons
    | with_reducible assumption
    | ((with_reducible apply orDec); rfl)
    | ((with_reducible apply bitDec); rfl)
    | with_reducible intro _
    | with_reducible exact Fr.refl _ _ _
    | with_reducible apply Fr.ite
    | with_reducible apply Fr.step (State.yardMod_fr ..)
    | with_reducible apply Fr.step (State.yardSet_fr ..)
    | with_reducible apply State.fields_fr
    | with_reducible apply YRD_STATUS.reg
    | with_reducible apply YRD_RATE.reg
    | ((with_reducible apply HasReg.as); simp only [YRD_RATE.RATE_addr, YRD_STATUS.COARSE_addr, YRD_STATUS.STALE_addr, YRD_STATUS.STATE_addr])

theorem State.yardDescriptorReceived_fr (s : State) (c : CtrlHdr) (y : Fin 4) (value rate : Nat) (st : Fin 4) (coarse : Bool) : Fr 17567737598 28421910042690324559437205422914287901102690782328920320 s (State.yardDescriptorReceived s c y value rate st coarse) := by
  unfold State.yardDescriptorReceived
  repeat' first
    | with_reducible exact fldNil
    | with_reducible apply fldCons
    | with_reducible assumption
    | ((with_reducible apply orDec); rfl)
    | ((with_reducible apply bitDec); rfl)
    | with_reducible intro _
    | with_reducible exact Fr.refl _ _ _
    | with_reducible apply Fr.ite
    | with_reducible apply State.rxCtrl_fr
    | with_reducible apply Fr.step (State.copyUnbound_fr ..)
    | with_reducible apply Fr.step (State.yardStep_fr ..)
    | with_reducible apply Fr.step (State.yardSet_fr ..)
    | with_reducible apply Fr.step (State.yardLock_fr ..)
    | with_reducible apply Fr.step (State.yardMod_fr ..)
    | with_reducible apply Fr.step (State.runHeld_fr ..)
    | with_reducible apply State.fields_fr
    | with_reducible apply Fr.p
    | with_reducible apply Fr.when
    | with_reducible apply YRD_STATUS.reg
    | with_reducible apply YRD_RATE.reg
    | ((with_reducible apply HasReg.as); simp only [YRD_RATE.RATE_addr, YRD_STATUS.COARSE_addr, YRD_STATUS.STALE_addr, YRD_STATUS.STATE_addr])

theorem State.afterSteps_fr (s : State) : Fr 17567737598 28421910042690324559437205422914287901102690790918863104 s (State.afterSteps s) := by
  unfold State.afterSteps
  repeat' first
    | with_reducible assumption
    | ((with_reducible apply orDec); rfl)
    | with_reducible intro _
    | with_reducible exact Fr.refl _ _ _
    | with_reducible apply Fr.ite
    | with_reducible apply Fr.step (State.sofReceived_fr ..)
    | with_reducible apply Fr.step (State.itpReceived_fr ..)
    | with_reducible apply Fr.step (State.barnTimeReceived_fr ..)
    | with_reducible apply Fr.step (State.yardDescriptorReceived_fr ..)
    | with_reducible apply Fr.foldl
    | with_reducible apply Fr.foldlSnd
    | split

end Sys2Proof.Machine
end

