-- ==== Sys2Proof/Laws/FrTimelineBase.lean ====
section
/-!
SUPPORT. What the operations of Sys2Proof/Machine/TimelineBase.lean may change.
-/
namespace Sys2Proof.Machine

theorem State.setEntry_fr (s : State) (i : Nat) (e : TmlE) : Fr 33554432 0 s (State.setEntry s i e) := by
  unfold State.setEntry
  repeat' first
    | with_reducible assumption
    | ((with_reducible apply bitDec); rfl)
    | with_reducible intro _
    | with_reducible exact Fr.refl _ _ _
    | with_reducible apply Fr.ite
    | with_reducible apply Fr.withTml

theorem State.advanceEntry_fr (s : State) (i : Nat) : Fr 33554464 2097152 s (State.advanceEntry s i) := by
  unfold State.advanceEntry
  dsimp only
  repeat' first
    | with_reducible assumption
    | ((with_reducible apply orDec); rfl)
    | ((with_reducible apply bitDec); rfl)
    | with_reducible intro _
    | with_reducible exact Fr.refl _ _ _
    | with_reducible apply Fr.ite
    | with_reducible apply Fr.step (State.setEntry_fr ..)
    | with_reducible apply Fr.incSat
    | with_reducible apply Fr.withPdc
    | with_reducible apply TML_STATUS.reg
    | ((with_reducible apply HasReg.as); simp only [TML_STATUS.CATCHUP_addr])

theorem State.tmlRead_fr (s : State) : Fr 0 2031616 s (State.tmlRead s) := by
  unfold State.tmlRead
  dsimp only
  repeat' first
    | with_reducible assumption
    | ((with_reducible apply bitDec); rfl)
    | with_reducible intro _
    | with_reducible exact Fr.refl _ _ _
    | with_reducible apply Fr.ite
    | with_reducible apply Fr.p
    | with_reducible apply TML_E_TIME_LO.reg
    | with_reducible apply TML_E_TIME_HI.reg
    | with_reducible apply TML_E_CTRL.reg
    | with_reducible apply TML_E_REPEAT.reg
    | with_reducible apply TML_E_ARG.reg
    | ((with_reducible apply HasReg.as); simp only [TML_E_ARG.ARG_addr, TML_E_CTRL.ABS_addr, TML_E_CTRL.ACTION_addr, TML_E_CTRL.TARGET_addr, TML_E_CTRL.VALID_addr, TML_E_CTRL.YARD_addr, TML_E_REPEAT.REPEAT_addr, TML_E_TIME_HI.TIME_HI_addr, TML_E_TIME_LO.TIME_LO_addr])

theorem State.editEntry_fr (s : State) (i : Nat) : Fr 17179869216 0 s (State.editEntry s i) := by
  unfold State.editEntry
  dsimp only
  repeat' first
    | with_reducible assumption
    | ((with_reducible apply bitDec); rfl)
    | with_reducible intro _
    | with_reducible exact Fr.refl _ _ _
    | with_reducible apply Fr.ite
    | with_reducible apply Fr.when
    | with_reducible apply Fr.mark
    | with_reducible apply Fr.withPdc
    | with_reducible apply Fr.withTmlOld

theorem State.tmlWrite_fr (s : State) : Fr 17213423648 32768 s (State.tmlWrite s) := by
  unfold State.tmlWrite
  dsimp only
  repeat' first
    | with_reducible assumption
    | ((with_reducible apply orDec); rfl)
    | ((with_reducible apply bitDec); rfl)
    | with_reducible intro _
    | with_reducible exact Fr.refl _ _ _
    | with_reducible apply Fr.ite
    | with_reducible apply Fr.step (State.setEntry_fr ..)
    | with_reducible apply Fr.step (State.editEntry_fr ..)
    | with_reducible apply Fr.hw
    | with_reducible apply TML_SEL.reg
    | ((with_reducible apply HasReg.as); simp only [TML_SEL.REFUSED_addr])

theorem State.tmlDelete_fr (s : State) : Fr 17213423648 32768 s (State.tmlDelete s) := by
  unfold State.tmlDelete
  dsimp only
  repeat' first
    | with_reducible assumption
    | ((with_reducible apply orDec); rfl)
    | ((with_reducible apply bitDec); rfl)
    | with_reducible intro _
    | with_reducible exact Fr.refl _ _ _
    | with_reducible apply Fr.ite
    | with_reducible apply Fr.step (State.setEntry_fr ..)
    | with_reducible apply Fr.step (State.editEntry_fr ..)
    | with_reducible apply Fr.hw
    | with_reducible apply TML_SEL.reg
    | ((with_reducible apply HasReg.as); simp only [TML_SEL.REFUSED_addr])

theorem State.planEntries_fr (s : State) (v : Vector TmlE 256) : Fr 33554432 2097152 s (State.planEntries s v) := by
  unfold State.planEntries
  dsimp only
  repeat' first
    | with_reducible assumption
    | ((with_reducible apply bitDec); rfl)
    | with_reducible intro _
    | with_reducible exact Fr.refl _ _ _
    | with_reducible apply Fr.ite
    | with_reducible apply Fr.p
    | with_reducible apply Fr.withTml
    | with_reducible apply Fr.getD
    | with_reducible apply TML_STATUS.reg
    | ((with_reducible apply HasReg.as); simp only [TML_STATUS.PLAN_TOP_addr])

theorem State.tmlCommand_fr (s : State) (cmd : Nat) : Fr 17213423648 2064384 s (State.tmlCommand s cmd) := by
  unfold State.tmlCommand
  repeat' first
    | with_reducible assumption
    | ((with_reducible apply orDec); rfl)
    | ((with_reducible apply bitDec); rfl)
    | with_reducible intro _
    | with_reducible exact Fr.refl _ _ _
    | with_reducible apply Fr.ite
    | with_reducible apply Fr.step (State.tmlRead_fr ..)
    | with_reducible apply Fr.step (State.tmlWrite_fr ..)
    | with_reducible apply Fr.step (State.tmlDelete_fr ..)
    | with_reducible apply Fr.p
    | with_reducible apply Fr.hw
    | with_reducible apply TML_SEL.reg
    | ((with_reducible apply HasReg.as); simp only [TML_SEL.BUSY_addr, TML_SEL.REFUSED_addr])
    | split

theorem State.loadTimeline_fr (s : State) : Fr 17213423648 2097152 s (State.loadTimeline s) := by
  unfold State.loadTimeline
  repeat' first
    | with_reducible assumption
    | ((with_reducible apply orDec); rfl)
    | ((with_reducible apply bitDec); rfl)
    | with_reducible intro _
    | with_reducible exact Fr.refl _ _ _
    | with_reducible apply Fr.ite
    | with_reducible apply Fr.step (State.planEntries_fr ..)
    | with_reducible apply Fr.withTmlOld
    | with_reducible apply Fr.withPdc

theorem State.refTimeline_fr (s : State) : Fr 33554432 2097152 s (State.refTimeline s) := by
  unfold State.refTimeline
  repeat' first
    | with_reducible assumption
    | ((with_reducible apply orDec); rfl)
    | with_reducible intro _
    | with_reducible exact Fr.refl _ _ _
    | with_reducible apply Fr.ite
    | with_reducible apply Fr.step (State.planEntries_fr ..)

theorem State.moveEntries_fr (s : State) (n dest : Nat) : Fr 17213423616 0 s (State.moveEntries s n dest) := by
  unfold State.moveEntries
  dsimp only
  repeat' first
    | with_reducible assumption
    | ((with_reducible apply orDec); rfl)
    | with_reducible intro _
    | with_reducible exact Fr.refl _ _ _
    | with_reducible apply Fr.ite
    | with_reducible apply Fr.step (State.tmlMap_fr ..)

theorem State.packetAt_fr (s : State) (n : Nat) : Fr 40 0 s (State.packetAt s n) := by
  unfold State.packetAt
  dsimp only
  repeat' first
    | with_reducible assumption
    | ((with_reducible apply bitDec); rfl)
    | with_reducible intro _
    | with_reducible exact Fr.refl _ _ _
    | with_reducible apply Fr.ite
    | with_reducible apply Fr.withPat
    | with_reducible apply Fr.withPdc

theorem State.activity_fr (s : State) (d : Nat) : Fr 50 4893107481805641041628876881595771524683695323611136 s (State.activity s d) := by
  unfold State.activity
  repeat' first
    | with_reducible assumption
    | ((with_reducible apply orDec); rfl)
    | with_reducible intro _
    | with_reducible exact Fr.refl _ _ _
    | with_reducible apply Fr.ite
    | with_reducible apply Fr.step (State.wakeBy_fr ..)
    | with_reducible apply Fr.step (State.missCheck_fr ..)

theorem State.onWake_fr {m b : Nat} {r : State} {s : State} {c : Nat} {ds : List Nat} {x : WakeEvt} {f : State → State} (hm : 50 ||| m = m) (hb : 4893107481805641041628876881595771524683695323611136 ||| b = b)
    (hf : ∀ t, Fr m b r t → Fr m b r (f t)) (h : Fr m b r s) : Fr m b r (State.onWake s c ds x f) := by
  unfold State.onWake
  repeat' first
    | with_reducible assumption
    | ((with_reducible apply orTrans (M := 4893107481805641041628876881595771524683695323611136) (hm := hb)); rfl)
    | ((with_reducible apply orTrans (M := 50) (hm := hm)); rfl)
    | with_reducible apply hf
    | ((with_reducible apply bitOr (M := 50) (hm := hm)); rfl)
    | with_reducible intro _
    | with_reducible exact Fr.refl _ _ _
    | with_reducible apply Fr.ite
    | with_reducible apply Fr.step (State.activity_fr ..)
    | with_reducible apply Fr.step (State.wakeBy_fr ..)
    | with_reducible apply Fr.each
    | with_reducible apply Fr.withPdc

theorem State.restartHistory_fr (s : State) (n : Nat) : Fr 16 4194304 s (State.restartHistory s n) := by
  unfold State.restartHistory
  dsimp only
  repeat' first
    | with_reducible assumption
    | ((with_reducible apply bitDec); rfl)
    | with_reducible intro _
    | with_reducible exact Fr.refl _ _ _
    | with_reducible apply Fr.ite
    | with_reducible apply Fr.p
    | with_reducible apply Fr.each
    | with_reducible apply Fr.withPred
    | with_reducible apply TML_PRED.reg
    | ((with_reducible apply HasReg.as); simp only [TML_PRED.HISTORY_addr])

end Sys2Proof.Machine
end

