-- ==== Sys2Proof/Laws/FrPower.lean ====
section
/-!
SUPPORT. What the operations of Sys2Proof/Machine/Power.lean may change.
-/
namespace Sys2Proof.Machine

theorem State.startRamp_fr (s : State) (n : Nat) : Fr 64 85070672859873030472525347646947196928 s (State.startRamp s n) := by
  unfold State.startRamp
  dsimp only
  repeat' first
    | with_reducible assumption
    | ((with_reducible apply orDec); rfl)
    | ((with_reducible apply bitDec); rfl)
    | with_reducible intro _
    | with_reducible exact Fr.refl _ _ _
    | with_reducible apply Fr.ite
    | with_reducible apply Fr.step (State.chMod_fr ..)
    | with_reducible apply Fr.p
    | with_reducible apply PPW_STATUS.reg
    | with_reducible apply BUD_PORT.reg
    | ((with_reducible apply HasReg.as); simp only [BUD_PORT.FIRST_USE_addr, BUD_PORT.SHED_addr, PPW_STATUS.DISCH_addr, PPW_STATUS.STATE_addr])

theorem State.tripChannel_fr {m b : Nat} {r : State} {s : State} {n : Nat} {evt : Fld} {onMs : Nat} (hm : 17213424320 ||| m = m) (hb : 4863877449037329982667705628309154949537885176463360 ||| b = b)
    (hf : HasReg b (evt.addr)) (h : Fr m b r s) : Fr m b r (State.tripChannel s n evt onMs) := by
  unfold State.tripChannel
  dsimp only
  repeat' first
    | with_reducible assumption
    | ((with_reducible apply orTrans (M := 4863877449037329982667705628309154949537885176463360) (hm := hb)); rfl)
    | ((with_reducible apply orTrans (M := 17213424320) (hm := hm)); rfl)
    | with_reducible apply hf
    | ((with_reducible apply bitOr (M := 4863877449037329982667705628309154949537885176463360) (hm := hb)); rfl)
    | with_reducible intro _
    | with_reducible exact Fr.refl _ _ _
    | with_reducible apply Fr.ite
    | with_reducible apply Fr.step (State.gateOff_fr ..)
    | with_reducible apply Fr.step (State.chMod_fr ..)
    | with_reducible apply Fr.step (State.vconnOff_fr ..)
    | with_reducible apply Fr.step (State.endContract_fr ..)
    | with_reducible apply Fr.step (State.pmu_fr ..)
    | with_reducible apply Fr.p
    | with_reducible apply Fr.when
    | with_reducible apply Fr.hw
    | with_reducible apply PPW_RETRY.reg
    | with_reducible apply PPW_STATUS.reg
    | with_reducible apply PPW_EVT.reg
    | ((with_reducible apply HasReg.as); simp only [PPW_EVT.LATCHED_addr, PPW_RETRY.COUNT_addr, PPW_RETRY.WAIT_addr, PPW_STATUS.STATE_addr])

theorem State.lifeShed_fr (s : State) (n : Nat) : Fr 17567737594 28421910042690324601972704112127622905995755260150284288 s (State.lifeShed s n) := by
  unfold State.lifeShed
  dsimp only
  repeat' first
    | with_reducible assumption
    | ((with_reducible apply orDec); rfl)
    | ((with_reducible apply bitDec); rfl)
    | with_reducible intro _
    | with_reducible exact Fr.refl _ _ _
    | with_reducible apply Fr.ite
    | with_reducible apply State.tripChannel_fr
    | with_reducible apply Fr.step (State.ocReport_fr ..)
    | with_reducible apply Fr.step (State.raise_fr ..)
    | with_reducible apply Fr.p
    | with_reducible apply Fr.hw
    | with_reducible apply PPW_EVT.reg
    | with_reducible apply BUD_EVT.reg
    | with_reducible apply BUD_PORT.reg
    | ((with_reducible apply HasReg.as); simp only [BUD_EVT.SHED_addr, BUD_PORT.SHED_addr, PPW_EVT.SHED_addr])

theorem State.tryRamp_fr (s : State) (n : Nat) : Fr 17567737594 28421910042690324601972704112127622905995755260150284288 s (State.tryRamp s n) := by
  unfold State.tryRamp
  repeat' first
    | with_reducible assumption
    | ((with_reducible apply orDec); rfl)
    | ((with_reducible apply bitDec); rfl)
    | with_reducible intro _
    | with_reducible exact Fr.refl _ _ _
    | with_reducible apply Fr.ite
    | with_reducible apply Fr.step (State.wakeBy_fr ..)
    | with_reducible apply Fr.step (State.lifeShed_fr ..)
    | with_reducible apply Fr.step (State.startRamp_fr ..)
    | with_reducible apply Fr.p
    | with_reducible apply PPW_STATUS.reg
    | ((with_reducible apply HasReg.as); simp only [PPW_STATUS.STATE_addr])

theorem State.trip_fr {m b : Nat} {r : State} {s : State} {n : Nat} {evt : Fld} {src : Nat} {onMs : Nat} (hm : 17567737594 ||| m = m) (hb : 28421910042690324559437408247010314973073929331179257856 ||| b = b)
    (hf : HasReg b (evt.addr)) (h : Fr m b r s) : Fr m b r (State.trip s n evt src onMs) := by
  unfold State.trip
  repeat' first
    | with_reducible assumption
    | ((with_reducible apply orTrans (M := 28421910042690324559437408247010314973073929331179257856) (hm := hb)); rfl)
    | ((with_reducible apply orTrans (M := 17567737594) (hm := hm)); rfl)
    | with_reducible apply hf
    | with_reducible intro _
    | with_reducible exact Fr.refl _ _ _
    | with_reducible apply Fr.ite
    | with_reducible apply State.tripChannel_fr
    | with_reducible apply Fr.step (State.ocReport_fr ..)
    | with_reducible apply Fr.step (State.raise_fr ..)
    | with_reducible apply Fr.when
    | with_reducible apply Fr.unmark

theorem State.releaseLatch_fr (s : State) (n : Nat) : Fr 17567737594 28421910042690324601972704112127622905995755260150284288 s (State.releaseLatch s n) := by
  unfold State.releaseLatch
  dsimp only
  repeat' first
    | with_reducible assumption
    | ((with_reducible apply orDec); rfl)
    | ((with_reducible apply bitDec); rfl)
    | with_reducible intro _
    | with_reducible exact Fr.refl _ _ _
    | with_reducible apply Fr.ite
    | with_reducible apply Fr.step (State.tryRamp_fr ..)
    | with_reducible apply Fr.step (State.chMod_fr ..)
    | with_reducible apply Fr.p
    | with_reducible apply Fr.when
    | with_reducible apply PPW_RETRY.reg
    | with_reducible apply PPW_STATUS.reg
    | ((with_reducible apply HasReg.as); simp only [PPW_RETRY.COUNT_addr, PPW_STATUS.STATE_addr])

theorem State.clearFetShort_fr (s : State) (n : Nat) : Fr 17567737594 28421910042690324601972704112127622905995755260150284288 s (State.clearFetShort s n) := by
  unfold State.clearFetShort
  repeat' first
    | with_reducible assumption
    | ((with_reducible apply orDec); rfl)
    | ((with_reducible apply bitDec); rfl)
    | with_reducible intro _
    | with_reducible exact Fr.refl _ _ _
    | with_reducible apply Fr.ite
    | with_reducible apply Fr.step (State.tryRamp_fr ..)
    | with_reducible apply Fr.p
    | with_reducible apply Fr.when
    | with_reducible apply PPW_STATUS.reg
    | ((with_reducible apply HasReg.as); simp only [PPW_STATUS.STATE_addr])

theorem State.ppwClear_fr (s : State) (n : Nat) : Fr 17567737594 28421910042690324601972704112127622905995755260150284288 s (State.ppwClear s n) := by
  unfold State.ppwClear
  repeat' first
    | with_reducible assumption
    | ((with_reducible apply orDec); rfl)
    | with_reducible intro _
    | with_reducible exact Fr.refl _ _ _
    | with_reducible apply Fr.ite
    | with_reducible apply Fr.step (State.clearFetShort_fr ..)
    | with_reducible apply Fr.step (State.releaseLatch_fr ..)

theorem State.vbusFell_fr (s : State) (n : Nat) : Fr 17567737594 28421910042690324601972704112127622905995755260150284288 s (State.vbusFell s n) := by
  unfold State.vbusFell
  repeat' first
    | with_reducible assumption
    | ((with_reducible apply orDec); rfl)
    | ((with_reducible apply bitDec); rfl)
    | with_reducible intro _
    | with_reducible exact Fr.refl _ _ _
    | with_reducible apply Fr.ite
    | with_reducible apply Fr.step (State.tryRamp_fr ..)
    | with_reducible apply Fr.step (State.chMod_fr ..)
    | with_reducible apply Fr.p
    | with_reducible apply Fr.when
    | with_reducible apply PPW_STATUS.reg
    | ((with_reducible apply HasReg.as); simp only [PPW_STATUS.DISCH_addr])

theorem State.fetShort_fr (s : State) (n : Nat) : Fr 17567737594 28421910042690324559437367682191107669733081436676685824 s (State.fetShort s n) := by
  unfold State.fetShort
  repeat' first
    | with_reducible assumption
    | ((with_reducible apply orDec); rfl)
    | ((with_reducible apply bitDec); rfl)
    | with_reducible intro _
    | with_reducible exact Fr.refl _ _ _
    | with_reducible apply Fr.ite
    | with_reducible apply Fr.step (State.raise_fr ..)
    | with_reducible apply Fr.p
    | with_reducible apply Fr.hw
    | with_reducible apply PPW_STATUS.reg
    | with_reducible apply PPW_EVT.reg
    | ((with_reducible apply HasReg.as); simp only [PPW_EVT.FET_SHORT_addr, PPW_STATUS.DISCH_addr, PPW_STATUS.STATE_addr])

theorem State.assertPg_fr (s : State) (n : Nat) : Fr 64 81129638414606681695789005144064 s (State.assertPg s n) := by
  unfold State.assertPg
  repeat' first
    | with_reducible assumption
    | ((with_reducible apply orDec); rfl)
    | ((with_reducible apply bitDec); rfl)
    | with_reducible intro _
    | with_reducible exact Fr.refl _ _ _
    | with_reducible apply Fr.ite
    | with_reducible apply Fr.step (State.chMod_fr ..)
    | with_reducible apply Fr.p
    | with_reducible apply PPW_STATUS.reg
    | ((with_reducible apply HasReg.as); simp only [PPW_STATUS.PG_addr])

end Sys2Proof.Machine
end

