-- ==== Sys2Proof/Laws/FrPdBase.lean ====
section
/-!
SUPPORT. What the operations of Sys2Proof/Machine/PdBase.lean may change.
-/
namespace Sys2Proof.Machine

theorem State.pdRecord_fr (s : State) (n : Nat) (sent : Bool) (sop : Nat) (hr : Bool) (hdr : Nat) (objs : List Nat) : Fr 16777218 4893107481783862970145936819934115549808062153883648 s (State.pdRecord s n sent sop hr hdr objs) := by
  unfold State.pdRecord
  dsimp only
  repeat' first
    | with_reducible assumption
    | ((with_reducible apply orDec); rfl)
    | ((with_reducible apply bitDec); rfl)
    | with_reducible intro _
    | with_reducible exact Fr.refl _ _ _
    | with_reducible apply Fr.ite
    | with_reducible apply Fr.step (State.offer_fr ..)
    | with_reducible apply Fr.step (State.pmu_fr ..)
    | with_reducible apply Fr.withFlt

theorem State.pdSendOne_fr (s : State) (n sop : Nat) (m : PdMsg) (count : Nat) (words : List Nat) : Fr 16777730 4893107481783862970145936819934115549808062153883648 s (State.pdSendOne s n sop m count words) := by
  unfold State.pdSendOne
  dsimp only
  repeat' first
    | with_reducible assumption
    | ((with_reducible apply orDec); rfl)
    | with_reducible intro _
    | with_reducible exact Fr.refl _ _ _
    | with_reducible apply Fr.ite
    | with_reducible apply Fr.step (State.pdRecord_fr ..)
    | with_reducible apply Fr.step (State.tcMod_fr ..)
    | with_reducible apply Fr.out

theorem State.pdSendSop_fr (s : State) (n sop : Nat) (m : PdMsg) (objs : List Nat) : Fr 16777730 4893107481783862970145936819934115549808062153883648 s (State.pdSendSop s n sop m objs) := by
  unfold State.pdSendSop
  repeat' first
    | with_reducible assumption
    | ((with_reducible apply orDec); rfl)
    | with_reducible intro _
    | with_reducible exact Fr.refl _ _ _
    | with_reducible apply Fr.ite
    | with_reducible apply Fr.step (State.pdSendOne_fr ..)
    | with_reducible apply Fr.when
    | with_reducible apply Fr.foldl

theorem State.pdSend_fr (s : State) (n : Nat) (m : PdMsg) (objs : List Nat) : Fr 16777730 4893107481783862970145936819934115549808062153883648 s (State.pdSend s n m objs) := by
  unfold State.pdSend
  repeat' first
    | with_reducible assumption
    | ((with_reducible apply orDec); rfl)
    | with_reducible intro _
    | with_reducible exact Fr.refl _ _ _
    | with_reducible apply Fr.ite
    | with_reducible apply Fr.step (State.pdSendSop_fr ..)

theorem State.pdGot_fr (s : State) (n : Nat) (hdr : BitVec 16) (objs : List Nat) : Fr 16777730 4893107481783862970145939295814194120568611952132096 s (State.pdGot s n hdr objs) := by
  unfold State.pdGot
  dsimp only
  repeat' first
    | with_reducible assumption
    | ((with_reducible apply orDec); rfl)
    | ((with_reducible apply bitDec); rfl)
    | with_reducible intro _
    | with_reducible exact Fr.refl _ _ _
    | with_reducible apply Fr.ite
    | with_reducible apply Fr.step (State.pdRecord_fr ..)
    | with_reducible apply Fr.step (State.tcMod_fr ..)
    | with_reducible apply Fr.p
    | with_reducible apply Fr.out
    | with_reducible apply Fr.foldl
    | with_reducible apply Fr.foldlSnd
    | with_reducible apply TCP_PORT.reg
    | ((with_reducible apply HasReg.as); simp only [TCP_PORT.PD_REV_addr])

theorem State.pdRx_fr {m b : Nat} {r : State} {s : State} {n : Nat} {hdr : BitVec 16} {objs : List Nat} {f : State → State} (hm : 16777730 ||| m = m) (hb : 4893107481783862970145939295814194120568611952132096 ||| b = b)
    (hf : ∀ t, Fr m b r t → Fr m b r (f t)) (h : Fr m b r s) : Fr m b r (State.pdRx s n hdr objs f) := by
  unfold State.pdRx
  repeat' first
    | with_reducible assumption
    | with_reducible apply hf
    | with_reducible intro _
    | with_reducible exact Fr.refl _ _ _
    | with_reducible apply Fr.ite
    | with_reducible apply Fr.step (State.pdGot_fr ..)

theorem State.pdRx3_fr {m b : Nat} {r : State} {s : State} {n : Nat} {hdr : BitVec 16} {objs : List Nat} {f : State → State} (hm : 16777730 ||| m = m) (hb : 4893107481783862970145939295814194120568611952132096 ||| b = b)
    (hf : ∀ t, Fr m b r t → Fr m b r (f t)) (h : Fr m b r s) : Fr m b r (State.pdRx3 s n hdr objs f) := by
  unfold State.pdRx3
  repeat' first
    | with_reducible assumption
    | with_reducible apply hf
    | with_reducible intro _
    | with_reducible exact Fr.refl _ _ _
    | with_reducible apply Fr.ite
    | with_reducible apply State.pdRx_fr
    | with_reducible apply Fr.when

theorem State.pdNot_fr (s : State) (n : Nat) : Fr 16777730 4893107481783862970145936819934115549808062153883648 s (State.pdNot s n) := by
  unfold State.pdNot
  repeat' first
    | with_reducible assumption
    | ((with_reducible apply orDec); rfl)
    | with_reducible intro _
    | with_reducible exact Fr.refl _ _ _
    | with_reducible apply Fr.ite
    | with_reducible apply Fr.step (State.pdSend_fr ..)
    | with_reducible apply Fr.when

theorem State.offerCaps_fr (s : State) (n : Nat) (m : PdMsg) (l : List Nat) : Fr 16777730 4893107481783862970145939295814194120568611952132096 s (State.offerCaps s n m l) := by
  unfold State.offerCaps
  repeat' first
    | with_reducible assumption
    | ((with_reducible apply orDec); rfl)
    | with_reducible intro _
    | with_reducible exact Fr.refl _ _ _
    | with_reducible apply Fr.ite
    | with_reducible apply Fr.step (State.tcSet_fr ..)
    | with_reducible apply Fr.step (State.pdSend_fr ..)

theorem State.sendCaps_fr (s : State) (n : Nat) : Fr 16777730 4893107481783862970145939295814194120568611952132096 s (State.sendCaps s n) := by
  unfold State.sendCaps
  repeat' first
    | with_reducible assumption
    | ((with_reducible apply orDec); rfl)
    | with_reducible intro _
    | with_reducible exact Fr.refl _ _ _
    | with_reducible apply Fr.ite
    | with_reducible apply Fr.step (State.offerCaps_fr ..)

theorem State.resendCaps_fr (s : State) (n : Nat) : Fr 16777730 4893107481783862970145939295814194120568611952132096 s (State.resendCaps s n) := by
  unfold State.resendCaps
  repeat' first
    | with_reducible assumption
    | ((with_reducible apply orDec); rfl)
    | with_reducible intro _
    | with_reducible exact Fr.refl _ _ _
    | with_reducible apply Fr.ite
    | with_reducible apply Fr.step (State.sendCaps_fr ..)
    | with_reducible apply Fr.when

theorem State.toUnattached_fr (s : State) (n : Nat) : Fr 2 4893107481783862970227068934228800802264400957276160 s (State.toUnattached s n) := by
  unfold State.toUnattached
  dsimp only
  repeat' first
    | with_reducible assumption
    | ((with_reducible apply orDec); rfl)
    | ((with_reducible apply bitDec); rfl)
    | with_reducible intro _
    | with_reducible exact Fr.refl _ _ _
    | with_reducible apply Fr.ite
    | with_reducible apply Fr.step (State.ccState_fr ..)
    | with_reducible apply Fr.p
    | with_reducible apply Fr.when
    | with_reducible apply TCP_PORT.reg
    | with_reducible apply PPW_STATUS.reg
    | ((with_reducible apply HasReg.as); simp only [PPW_STATUS.SINK_addr, TCP_PORT.RP_addr])

theorem State.partnerGone_fr (s : State) (n : Nat) : Fr 17701955322 28421910042690324601972704112127622905995755260150284288 s (State.partnerGone s n) := by
  unfold State.partnerGone
  dsimp only
  repeat' first
    | with_reducible assumption
    | ((with_reducible apply orDec); rfl)
    | ((with_reducible apply bitDec); rfl)
    | with_reducible intro _
    | with_reducible exact Fr.refl _ _ _
    | with_reducible apply Fr.ite
    | with_reducible apply Fr.step (State.muxSafe_fr ..)
    | with_reducible apply Fr.step (State.dataOff_fr ..)
    | with_reducible apply Fr.step (State.disconnectHost_fr ..)
    | with_reducible apply Fr.step (State.tryRamp_fr ..)
    | with_reducible apply Fr.step (State.mirLocal_fr ..)
    | with_reducible apply Fr.step (State.patIdle_fr ..)
    | with_reducible apply Fr.p
    | with_reducible apply Fr.when
    | with_reducible apply Fr.each
    | with_reducible apply Fr.withDp
    | with_reducible apply TCP_DP.reg
    | with_reducible apply TKR_FUNC.reg
    | ((with_reducible apply HasReg.as); simp only [TCP_DP.BILLBOARD_addr, TCP_DP.STATE_addr, TKR_FUNC.BILLBOARD_addr])

theorem State.detach_fr (s : State) (n : Nat) : Fr 17701955322 28421910042690324601972704151741704163127924056922259456 s (State.detach s n) := by
  unfold State.detach
  dsimp only
  repeat' first
    | with_reducible assumption
    | ((with_reducible apply orDec); rfl)
    | ((with_reducible apply bitDec); rfl)
    | with_reducible intro _
    | with_reducible exact Fr.refl _ _ _
    | with_reducible apply Fr.ite
    | with_reducible apply Fr.step (State.powerDown_fr ..)
    | with_reducible apply Fr.step (State.partnerGone_fr ..)
    | with_reducible apply Fr.step (State.toUnattached_fr ..)
    | with_reducible apply Fr.p
    | with_reducible apply Fr.when
    | with_reducible apply Fr.hw
    | with_reducible apply TCP_EVT.reg
    | with_reducible apply PPW_STATUS.reg
    | ((with_reducible apply HasReg.as); simp only [PPW_STATUS.DISCH_addr, TCP_EVT.DETACH_addr])

theorem State.errorRecovery_fr (s : State) (n : Nat) : Fr 17701955322 28421910042690324601972704112127622905995755260150284288 s (State.errorRecovery s n) := by
  unfold State.errorRecovery
  repeat' first
    | with_reducible assumption
    | ((with_reducible apply orDec); rfl)
    | ((with_reducible apply bitDec); rfl)
    | with_reducible intro _
    | with_reducible exact Fr.refl _ _ _
    | with_reducible apply Fr.ite
    | with_reducible apply Fr.step (State.partnerGone_fr ..)
    | with_reducible apply Fr.step (State.ccState_fr ..)
    | with_reducible apply Fr.step (State.powerDown_fr ..)
    | with_reducible apply Fr.p
    | with_reducible apply TCP_PORT.reg
    | ((with_reducible apply HasReg.as); simp only [TCP_PORT.RP_addr])

theorem State.setMux_fr (s : State) (n : Nat) : Fr 0 79228162514264337593543950336 s (State.setMux s n) := by
  unfold State.setMux
  repeat' first
    | with_reducible assumption
    | ((with_reducible apply bitDec); rfl)
    | with_reducible intro _
    | with_reducible exact Fr.refl _ _ _
    | with_reducible apply Fr.ite
    | with_reducible apply Fr.p
    | with_reducible apply Fr.when
    | with_reducible apply TCP_DP.reg
    | ((with_reducible apply HasReg.as); simp only [TCP_DP.MUX_addr])

theorem State.dpChange_fr (s : State) (u pins : Nat) (ack : Bool) : Fr 150995458 4893107481783862970146016048096629814145655697833984 s (State.dpChange s u pins ack) := by
  unfold State.dpChange
  repeat' first
    | with_reducible assumption
    | ((with_reducible apply orDec); rfl)
    | ((with_reducible apply bitDec); rfl)
    | with_reducible intro _
    | with_reducible exact Fr.refl _ _ _
    | with_reducible apply Fr.ite
    | with_reducible apply Fr.step (State.setMux_fr ..)
    | with_reducible apply Fr.step (State.pdSend_fr ..)
    | with_reducible apply Fr.p
    | with_reducible apply Fr.when
    | with_reducible apply Fr.withDp
    | with_reducible apply TCP_DP.reg
    | ((with_reducible apply HasReg.as); simp only [TCP_DP.PINS_addr, TCP_DP.STATE_addr])

theorem State.dpExit_fr (s : State) (u : Nat) : Fr 150995458 4893107481783862970146016048096629814145655697833984 s (State.dpExit s u) := by
  unfold State.dpExit
  repeat' first
    | with_reducible assumption
    | ((with_reducible apply orDec); rfl)
    | ((with_reducible apply bitDec); rfl)
    | with_reducible intro _
    | with_reducible exact Fr.refl _ _ _
    | with_reducible apply Fr.ite
    | with_reducible apply Fr.step (State.dpChange_fr ..)
    | with_reducible apply Fr.p
    | with_reducible apply TCP_DP.reg
    | ((with_reducible apply HasReg.as); simp only [TCP_DP.STATE_addr])

theorem State.hardReset_fr (s : State) (n : Nat) (sent : Bool) : Fr 17701955322 28421910042690324601972704151741704163127924056922259456 s (State.hardReset s n sent) := by
  unfold State.hardReset
  dsimp only
  repeat' first
    | with_reducible assumption
    | ((with_reducible apply orDec); rfl)
    | ((with_reducible apply bitDec); rfl)
    | with_reducible intro _
    | with_reducible exact Fr.refl _ _ _
    | with_reducible apply Fr.ite
    | with_reducible apply Fr.step (State.pdRecord_fr ..)
    | with_reducible apply Fr.step (State.raise_fr ..)
    | with_reducible apply Fr.step (State.errorRecovery_fr ..)
    | with_reducible apply Fr.step (State.vconnOff_fr ..)
    | with_reducible apply Fr.step (State.endContract_fr ..)
    | with_reducible apply Fr.step (State.dpExit_fr ..)
    | with_reducible apply Fr.step (State.tcMod_fr ..)
    | with_reducible apply Fr.incSat
    | with_reducible apply Fr.when
    | with_reducible apply Fr.out
    | with_reducible apply Fr.hw
    | with_reducible apply TCP_PORT.reg
    | with_reducible apply TCP_EVT.reg
    | ((with_reducible apply HasReg.as); simp only [TCP_EVT.HR_RX_addr, TCP_EVT.HR_TX_addr, TCP_PORT.HR_COUNT_addr])
    | split

theorem State.alertInput_fr (s : State) (n : Nat) : Fr 16777730 4893107481783862970145939295814194120568611952132096 s (State.alertInput s n) := by
  unfold State.alertInput
  repeat' first
    | with_reducible assumption
    | ((with_reducible apply orDec); rfl)
    | with_reducible intro _
    | with_reducible exact Fr.refl _ _ _
    | with_reducible apply Fr.ite
    | with_reducible apply Fr.step (State.sendCaps_fr ..)
    | with_reducible apply Fr.step (State.pdSend_fr ..)
    | with_reducible apply Fr.when

theorem State.askVconn_fr (s : State) (n : Nat) : Fr 16777730 4893107481783862970145939295814194120568611952132096 s (State.askVconn s n) := by
  unfold State.askVconn
  repeat' first
    | with_reducible assumption
    | ((with_reducible apply orDec); rfl)
    | with_reducible intro _
    | with_reducible exact Fr.refl _ _ _
    | with_reducible apply Fr.ite
    | with_reducible apply Fr.step (State.tcSet_fr ..)
    | with_reducible apply Fr.step (State.pdSend_fr ..)

theorem State.tryCaps_fr (s : State) (n : Nat) : Fr 16777730 4893107481783862970145939295814194120568611952132096 s (State.tryCaps s n) := by
  unfold State.tryCaps
  repeat' first
    | with_reducible assumption
    | ((with_reducible apply orDec); rfl)
    | with_reducible intro _
    | with_reducible exact Fr.refl _ _ _
    | with_reducible apply Fr.ite
    | with_reducible apply Fr.step (State.tcMod_fr ..)
    | with_reducible apply Fr.step (State.sendCaps_fr ..)

theorem State.startPd_fr (s : State) (n : Nat) : Fr 16777730 4893107481783862970145939295814194120568611952132096 s (State.startPd s n) := by
  unfold State.startPd
  repeat' first
    | with_reducible assumption
    | ((with_reducible apply orDec); rfl)
    | with_reducible intro _
    | with_reducible exact Fr.refl _ _ _
    | with_reducible apply Fr.ite
    | with_reducible apply Fr.step (State.tcMod_fr ..)
    | with_reducible apply Fr.step (State.tryCaps_fr ..)

end Sys2Proof.Machine
end

