-- ==== Sys2Proof/Laws/FrTypeC.lean ====
section
/-!
SUPPORT. What the operations of Sys2Proof/Machine/TypeC.lean may change.
-/
namespace Sys2Proof.Machine

theorem State.attachNow_fr (s : State) (n : Nat) : Fr 17567737594 3166972777736030706519867415755574912214305646288939515904 s (State.attachNow s n) := by
  unfold State.attachNow
  dsimp only
  repeat' first
    | with_reducible assumption
    | ((with_reducible apply orDec); rfl)
    | ((with_reducible apply bitDec); rfl)
    | with_reducible intro _
    | with_reducible exact Fr.refl _ _ _
    | with_reducible apply Fr.ite
    | with_reducible apply Fr.step (State.setMux_fr ..)
    | with_reducible apply Fr.step (State.tcMod_fr ..)
    | with_reducible apply Fr.step (State.ccState_fr ..)
    | with_reducible apply Fr.step (State.restartHistory_fr ..)
    | with_reducible apply Fr.step (State.tryRamp_fr ..)
    | with_reducible apply Fr.step (State.chMod_fr ..)
    | with_reducible apply Fr.p
    | with_reducible apply Fr.when
    | with_reducible apply Fr.hw
    | with_reducible apply TCP_PORT.reg
    | with_reducible apply TCP_EVT.reg
    | with_reducible apply PPW_STATUS.reg
    | with_reducible apply STL_STALL.reg
    | ((with_reducible apply HasReg.as); simp only [PPW_STATUS.SINK_addr, STL_STALL.ORIENT_LVL_addr, TCP_EVT.ATTACH_addr, TCP_PORT.VCONN_ON_addr])

theorem State.attachDetect_fr (s : State) (n : Nat) (cc2 ra acc : Bool) : Fr 514 4893107481783862970227128355350686500517596115238912 s (State.attachDetect s n cc2 ra acc) := by
  unfold State.attachDetect
  dsimp only
  repeat' first
    | with_reducible assumption
    | ((with_reducible apply orDec); rfl)
    | ((with_reducible apply bitDec); rfl)
    | with_reducible intro _
    | with_reducible exact Fr.refl _ _ _
    | with_reducible apply Fr.ite
    | with_reducible apply Fr.step (State.toUnattached_fr ..)
    | with_reducible apply Fr.step (State.ccState_fr ..)
    | with_reducible apply Fr.step (State.tcMod_fr ..)
    | with_reducible apply Fr.p
    | with_reducible apply Fr.when
    | with_reducible apply Fr.hw
    | with_reducible apply TCP_PORT.reg
    | with_reducible apply TCP_CABLE.reg
    | with_reducible apply TCP_EVT.reg
    | ((with_reducible apply HasReg.as); simp only [TCP_CABLE.RA_addr, TCP_EVT.ACC_SEEN_addr, TCP_PORT.ORIENT_addr])

theorem State.rampComplete_fr (s : State) (n : Nat) (gateOk : Bool) : Fr 18744954 3069884189213583357758414204501313011034215179781931008 s (State.rampComplete s n gateOk) := by
  unfold State.rampComplete
  repeat' first
    | with_reducible assumption
    | ((with_reducible apply orDec); rfl)
    | ((with_reducible apply bitDec); rfl)
    | with_reducible intro _
    | with_reducible exact Fr.refl _ _ _
    | with_reducible apply Fr.ite
    | with_reducible apply Fr.step (State.chMod_fr ..)
    | with_reducible apply Fr.step (State.assertPg_fr ..)
    | with_reducible apply Fr.step (State.mirLocal_fr ..)
    | with_reducible apply Fr.step (State.ssLink_fr ..)
    | with_reducible apply Fr.step (State.hsState_fr ..)
    | with_reducible apply Fr.step (State.startPd_fr ..)
    | with_reducible apply Fr.step (State.setLimit_fr ..)
    | with_reducible apply Fr.p
    | with_reducible apply Fr.when
    | with_reducible apply TCP_PORT.reg
    | with_reducible apply PPW_STATUS.reg
    | ((with_reducible apply HasReg.as); simp only [PPW_STATUS.GATE_OK_addr, PPW_STATUS.STATE_addr, TCP_PORT.CONTRACT_addr, TCP_PORT.DATA_ON_addr])

theorem State.sinkAttach_fr (s : State) (n : Nat) (cc2 : Bool) (rp : Nat) : Fr 17567737594 28421910042690324601972704151741704163127924056922259456 s (State.sinkAttach s n cc2 rp) := by
  unfold State.sinkAttach
  dsimp only
  repeat' first
    | with_reducible assumption
    | ((with_reducible apply orDec); rfl)
    | ((with_reducible apply bitDec); rfl)
    | with_reducible intro _
    | with_reducible exact Fr.refl _ _ _
    | with_reducible apply Fr.ite
    | with_reducible apply Fr.step (State.setMux_fr ..)
    | with_reducible apply Fr.step (State.restartHistory_fr ..)
    | with_reducible apply Fr.step (State.ccState_fr ..)
    | with_reducible apply Fr.step (State.chMod_fr ..)
    | with_reducible apply Fr.step (State.tcMod_fr ..)
    | with_reducible apply Fr.step (State.tryRamp_fr ..)
    | with_reducible apply Fr.p
    | with_reducible apply Fr.hw
    | with_reducible apply TCP_PORT.reg
    | with_reducible apply TCP_EVT.reg
    | with_reducible apply PPW_STATUS.reg
    | ((with_reducible apply HasReg.as); simp only [PPW_STATUS.SINK_addr, TCP_EVT.ATTACH_addr, TCP_PORT.CONTRACT_addr, TCP_PORT.ORIENT_addr, TCP_PORT.RP_addr])

end Sys2Proof.Machine
end

