-- ==== Sys2Proof/Laws/FrBudget.lean ====
section
/-!
SUPPORT. What the operations of Sys2Proof/Machine/Budget.lean may change.
-/
namespace Sys2Proof.Machine

theorem State.tlmMod_fr (s : State) (n : Nat) (f : TlmCh → TlmCh) : Fr 128 0 s (State.tlmMod s n f) := by
  unfold State.tlmMod
  repeat' first
    | with_reducible assumption
    | ((with_reducible apply bitDec); rfl)
    | with_reducible intro _
    | with_reducible exact Fr.refl _ _ _
    | with_reducible apply Fr.ite
    | with_reducible apply Fr.withTlm

theorem State.restartBlocks_fr (s : State) : Fr 384 0 s (State.restartBlocks s) := by
  unfold State.restartBlocks
  repeat' first
    | with_reducible assumption
    | ((with_reducible apply bitDec); rfl)
    | with_reducible intro _
    | with_reducible exact Fr.refl _ _ _
    | with_reducible apply Fr.ite
    | with_reducible apply Fr.withBud
    | with_reducible apply Fr.withTlm

theorem State.closeBlock_fr {m b : Nat} {r : State} {s : State} {b₀ : Block} {size : Nat} {v : Fld} {i : Fld} (_hm : 0 ||| m = m) (_hb : 0 ||| b = b)
    (hf : HasReg b (v.addr)) (hf1 : HasReg b (i.addr)) (h : Fr m b r s) : Fr m b r (State.closeBlock s b₀ size v i).2 := by
  unfold State.closeBlock
  repeat' first
    | with_reducible assumption
    | with_reducible apply hf
    | with_reducible intro _
    | with_reducible exact Fr.refl _ _ _
    | with_reducible apply Fr.ite
    | with_reducible apply Fr.p
    | split

theorem State.account_fr (s : State) (n : Nat) : Fr 128 85070591730234615865843651857942052864 s (State.account s n) := by
  unfold State.account
  dsimp only
  repeat' first
    | with_reducible assumption
    | ((with_reducible apply orDec); rfl)
    | ((with_reducible apply bitDec); rfl)
    | with_reducible intro _
    | with_reducible exact Fr.refl _ _ _
    | with_reducible apply Fr.ite
    | with_reducible apply Fr.step (State.tlmMod_fr ..)
    | with_reducible apply Fr.p
    | with_reducible apply BUD_PORT.reg
    | ((with_reducible apply HasReg.as); simp only [BUD_PORT.ACCOUNTED_addr])

theorem State.sumBudget_fr (s : State) : Fr 384 116972063629072596815535021304670322688 s (State.sumBudget s) := by
  unfold State.sumBudget
  dsimp only
  repeat' first
    | with_reducible assumption
    | ((with_reducible apply orDec); rfl)
    | ((with_reducible apply bitDec); rfl)
    | with_reducible intro _
    | with_reducible exact Fr.refl _ _ _
    | with_reducible apply Fr.ite
    | with_reducible apply Fr.step (State.account_fr ..)
    | with_reducible apply Fr.p
    | with_reducible apply Fr.when
    | with_reducible apply Fr.each
    | with_reducible apply Fr.withBud
    | with_reducible apply BUD_STATUS.reg
    | with_reducible apply BUD_STATE.reg
    | ((with_reducible apply HasReg.as); simp only [BUD_STATE.OVER_addr, BUD_STATE.SHEDDING_addr, BUD_STATUS.BUDGET_addr, BUD_STATUS.SUM_addr])

theorem State.sampleChannel_fr (s : State) (n : Nat) (c : ChanSample) : Fr 128 3302381931666564978427091454389125120 s (State.sampleChannel s n c) := by
  unfold State.sampleChannel
  dsimp only
  repeat' first
    | with_reducible assumption
    | ((with_reducible apply orDec); rfl)
    | ((with_reducible apply bitDec); rfl)
    | with_reducible intro _
    | with_reducible exact Fr.refl _ _ _
    | with_reducible apply Fr.ite
    | with_reducible apply State.closeBlock_fr
    | with_reducible apply Fr.step (State.tlmMod_fr ..)
    | with_reducible apply Fr.p
    | with_reducible apply Fr.when
    | with_reducible apply PPW_STATUS.reg
    | with_reducible apply TLM_INST.reg
    | with_reducible apply TLM_AVG1MS.reg
    | with_reducible apply TLM_AVG100MS.reg
    | with_reducible apply TLM_AVG1S.reg
    | with_reducible apply TLM_PWR.reg
    | with_reducible apply TLM_PEAK.reg
    | ((with_reducible apply HasReg.as); simp only [PPW_STATUS.TIMER_addr, TLM_AVG100MS.I_addr, TLM_AVG100MS.V_addr, TLM_AVG1MS.I_addr, TLM_AVG1MS.V_addr, TLM_AVG1S.I_addr, TLM_AVG1S.V_addr, TLM_INST.I_addr, TLM_INST.V_addr, TLM_PEAK.I_PEAK_addr, TLM_PEAK.REVERSE_addr, TLM_PWR.P_1MS_addr, TLM_PWR.P_1S_addr])

theorem State.refFault_fr {m b : Nat} {r : State} {s : State} {ok : Bool} {f : Fld} {conv : Nat} (hm : 17567737594 ||| m = m) (hb : 28421910042690324559437205422914278456369689858666397696 ||| b = b)
    (hf : HasReg b (f.addr)) (h : Fr m b r s) : Fr m b r (State.refFault s ok f conv) := by
  unfold State.refFault
  repeat' first
    | with_reducible assumption
    | with_reducible apply hf
    | with_reducible intro _
    | with_reducible exact Fr.refl _ _ _
    | with_reducible apply Fr.ite
    | with_reducible apply Fr.step (State.raise_fr ..)
    | with_reducible apply Fr.p

theorem State.thermShut_fr (s : State) (t : Int) : Fr 17567737850 28421910042690324559437205422914278456369689858666397696 s (State.thermShut s t) := by
  unfold State.thermShut
  dsimp only
  repeat' first
    | with_reducible assumption
    | ((with_reducible apply orDec); rfl)
    | ((with_reducible apply bitDec); rfl)
    | with_reducible intro _
    | with_reducible exact Fr.refl _ _ _
    | with_reducible apply Fr.ite
    | with_reducible apply Fr.step (State.raise_fr ..)
    | with_reducible apply Fr.when
    | with_reducible apply Fr.withBud

theorem State.thermal_fr (s : State) (temps : List Int) : Fr 17567737850 28421910042690324559437205422914278456369689858666397696 s (State.thermal s temps) := by
  unfold State.thermal
  dsimp only
  repeat' first
    | with_reducible assumption
    | ((with_reducible apply orDec); rfl)
    | ((with_reducible apply bitDec); rfl)
    | with_reducible intro _
    | with_reducible exact Fr.refl _ _ _
    | with_reducible apply Fr.ite
    | with_reducible apply Fr.step (State.thermShut_fr ..)
    | with_reducible apply Fr.step (State.raise_fr ..)
    | with_reducible apply Fr.withBud

theorem State.pwrwarn_fr (s : State) (cause : WarnCause) : Fr 16778114 4893107481784022487890027202788597834476838251921408 s (State.pwrwarn s cause) := by
  unfold State.pwrwarn
  dsimp only
  repeat' first
    | with_reducible assumption
    | ((with_reducible apply orDec); rfl)
    | ((with_reducible apply bitDec); rfl)
    | with_reducible intro _
    | with_reducible exact Fr.refl _ _ _
    | with_reducible apply Fr.ite
    | with_reducible apply Fr.step (State.alertInput_fr ..)
    | with_reducible apply Fr.step (State.sumBudget_fr ..)
    | with_reducible apply Fr.p
    | with_reducible apply Fr.when
    | with_reducible apply Fr.each
    | with_reducible apply Fr.hw
    | with_reducible apply Fr.withBud
    | with_reducible apply TLM_INWARN.reg
    | with_reducible apply BUD_STATE.reg
    | with_reducible apply BUD_EVT.reg
    | ((with_reducible apply HasReg.as); simp only [BUD_EVT.WARN_addr, BUD_STATE.WARN_addr, TLM_INWARN.AC_FAIL_addr, TLM_INWARN.IIN_HIGH_addr, TLM_INWARN.PWRWARN_addr, TLM_INWARN.VIN_LOW_addr])
    | split

theorem State.budgetRecord_fr (s : State) (n kind : Nat) : Fr 2 4893107481783862970145936819934115549808062153883648 s (State.budgetRecord s n kind) := by
  unfold State.budgetRecord
  repeat' first
    | with_reducible assumption
    | ((with_reducible apply orDec); rfl)
    | with_reducible intro _
    | with_reducible exact Fr.refl _ _ _
    | with_reducible apply Fr.ite
    | with_reducible apply Fr.step (State.record_fr ..)

theorem State.reducePort_fr (s : State) (n : Nat) : Fr 386 4893107481784150083484299680859173859801395137347584 s (State.reducePort s n) := by
  unfold State.reducePort
  dsimp only
  repeat' first
    | with_reducible assumption
    | ((with_reducible apply orDec); rfl)
    | ((with_reducible apply bitDec); rfl)
    | with_reducible intro _
    | with_reducible exact Fr.refl _ _ _
    | with_reducible apply Fr.ite
    | with_reducible apply Fr.step (State.budgetRecord_fr ..)
    | with_reducible apply Fr.step (State.sumBudget_fr ..)
    | with_reducible apply Fr.step (State.setLimit_fr ..)
    | with_reducible apply Fr.p
    | with_reducible apply PPW_STATUS.reg
    | with_reducible apply BUD_PORT.reg
    | with_reducible apply BUD_RLIM.reg
    | ((with_reducible apply HasReg.as); simp only [BUD_PORT.REDUCED_addr, BUD_RLIM.RLIM_addr, PPW_STATUS.REDUCED_addr])

theorem State.reduceFrom_fr  : ∀ (l done : List Nat) (s : State), Fr 386 4893107481784150083484299680859173859801395137347584 s (State.reduceFrom s l done).1
  | [], done, s => Fr.refl _ _ _
  | n :: t, done, s => by
    unfold State.reduceFrom
    repeat' first
      | with_reducible apply Fr.step (State.reduceFrom_fr t _ _)
      | with_reducible assumption
      | ((with_reducible apply orDec); rfl)
      | with_reducible intro _
      | with_reducible exact Fr.refl _ _ _
      | with_reducible apply Fr.ite
      | with_reducible apply Fr.step (State.reducePort_fr ..)
      | split
      | dsimp only

theorem State.budgetReduce_fr (s : State) : Fr 16778114 4893107481784192618780164798167106781627324108374016 s (State.budgetReduce s) := by
  unfold State.budgetReduce
  dsimp only
  repeat' first
    | with_reducible assumption
    | ((with_reducible apply orDec); rfl)
    | ((with_reducible apply bitDec); rfl)
    | with_reducible intro _
    | with_reducible exact Fr.refl _ _ _
    | with_reducible apply Fr.ite
    | with_reducible apply Fr.step (State.sumBudget_fr ..)
    | with_reducible apply Fr.step (State.reduceFrom_fr ..)
    | with_reducible apply Fr.step (State.alertInput_fr ..)
    | with_reducible apply Fr.p
    | with_reducible apply Fr.each
    | with_reducible apply Fr.hw
    | with_reducible apply BUD_STATE.reg
    | with_reducible apply BUD_EVT.reg
    | ((with_reducible apply HasReg.as); simp only [BUD_EVT.REDUCE_addr, BUD_STATE.REDUCING_addr])

theorem State.lift_fr (s : State) (n : Nat) : Fr 16778114 4893107481784192618780164798167106781627324108374016 s (State.lift s n) := by
  unfold State.lift
  dsimp only
  repeat' first
    | with_reducible assumption
    | ((with_reducible apply orDec); rfl)
    | ((with_reducible apply bitDec); rfl)
    | with_reducible intro _
    | with_reducible exact Fr.refl _ _ _
    | with_reducible apply Fr.ite
    | with_reducible apply Fr.step (State.resendCaps_fr ..)
    | with_reducible apply Fr.step (State.sumBudget_fr ..)
    | with_reducible apply Fr.step (State.budgetRecord_fr ..)
    | with_reducible apply Fr.step (State.setLimit_fr ..)
    | with_reducible apply Fr.p
    | with_reducible apply Fr.hw
    | with_reducible apply PPW_STATUS.reg
    | with_reducible apply BUD_EVT.reg
    | with_reducible apply BUD_PORT.reg
    | with_reducible apply BUD_RLIM.reg
    | ((with_reducible apply HasReg.as); simp only [BUD_EVT.LIFT_addr, BUD_PORT.REDUCED_addr, BUD_RLIM.RLIM_addr, PPW_STATUS.REDUCED_addr])

theorem State.reviewFrom_fr  : ∀ (l : List Nat) (s : State), Fr 16778114 4893107481784192618780164798167106781627324108374016 s (State.reviewFrom s l)
  | [], s => Fr.refl _ _ _
  | n :: t, s => by
    unfold State.reviewFrom
    repeat' first
      | with_reducible apply Fr.step (State.reviewFrom_fr t _)
      | with_reducible assumption
      | ((with_reducible apply orDec); rfl)
      | with_reducible intro _
      | with_reducible exact Fr.refl _ _ _
      | with_reducible apply Fr.ite
      | with_reducible apply Fr.step (State.lift_fr ..)

theorem State.review_fr (s : State) : Fr 16778114 4893107481784192618780164798167106781627324108374016 s (State.review s) := by
  unfold State.review
  dsimp only
  repeat' first
    | with_reducible assumption
    | ((with_reducible apply orDec); rfl)
    | ((with_reducible apply bitDec); rfl)
    | with_reducible intro _
    | with_reducible exact Fr.refl _ _ _
    | with_reducible apply Fr.ite
    | with_reducible apply Fr.step (State.sumBudget_fr ..)
    | with_reducible apply Fr.step (State.reviewFrom_fr ..)
    | with_reducible apply Fr.p
    | with_reducible apply BUD_STATE.reg
    | ((with_reducible apply HasReg.as); simp only [BUD_STATE.REDUCING_addr])

end Sys2Proof.Machine
end

