-- ==== Sys2Proof/Laws/FrPd.lean ====
section
/-!
SUPPORT. What the operations of Sys2Proof/Machine/Pd.lean may change.
-/
namespace Sys2Proof.Machine

theorem State.startSlew_fr (s : State) (n : Nat) : Fr 512 9903520314283042199192993792 s (State.startSlew s n) := by
  unfold State.startSlew
  dsimp only
  repeat' first
    | with_reducible assumption
    | ((with_reducible apply orDec); rfl)
    | ((with_reducible apply bitDec); rfl)
    | with_reducible intro _
    | with_reducible exact Fr.refl _ _ _
    | with_reducible apply Fr.ite
    | with_reducible apply Fr.step (State.tcMod_fr ..)
    | with_reducible apply Fr.p
    | with_reducible apply TCP_VSET.reg
    | ((with_reducible apply HasReg.as); simp only [TCP_VSET.FROZEN_addr, TCP_VSET.SLEWING_addr, TCP_VSET.TARGET_addr])

theorem State.acceptReq_fr (s : State) (n : Nat) (r : Req) : Fr 16777730 4893107481783862970156090404136334238822784770768896 s (State.acceptReq s n r) := by
  unfold State.acceptReq
  dsimp only
  repeat' first
    | with_reducible assumption
    | ((with_reducible apply orDec); rfl)
    | with_reducible intro _
    | with_reducible exact Fr.refl _ _ _
    | with_reducible apply Fr.ite
    | with_reducible apply Fr.step (State.pdSend_fr ..)
    | with_reducible apply Fr.step (State.tcSet_fr ..)
    | with_reducible apply Fr.step (State.setLimit_fr ..)
    | with_reducible apply Fr.step (State.tcMod_fr ..)
    | with_reducible apply Fr.step (State.startSlew_fr ..)
    | with_reducible apply Fr.when

theorem State.reduceAhead_fr (s : State) : Fr 16778114 4893107481784192618780164798167106781627324108374016 s (State.reduceAhead s) := by
  unfold State.reduceAhead
  repeat' first
    | with_reducible assumption
    | ((with_reducible apply orDec); rfl)
    | with_reducible intro _
    | with_reducible exact Fr.refl _ _ _
    | with_reducible apply Fr.ite
    | with_reducible apply Fr.step (State.budgetReduce_fr ..)

theorem State.evalReq_fr (s : State) (n : Nat) (r : Req) : Fr 16778114 4893107481784192618780174701687421064669523301367808 s (State.evalReq s n r) := by
  unfold State.evalReq
  dsimp only
  repeat' first
    | with_reducible assumption
    | ((with_reducible apply orDec); rfl)
    | with_reducible intro _
    | with_reducible exact Fr.refl _ _ _
    | with_reducible apply Fr.ite
    | with_reducible apply Fr.step (State.tcSet_fr ..)
    | with_reducible apply Fr.step (State.pdSend_fr ..)
    | with_reducible apply Fr.step (State.reduceAhead_fr ..)
    | with_reducible apply Fr.step (State.sendCaps_fr ..)
    | with_reducible apply Fr.step (State.acceptReq_fr ..)

theorem State.makeContract_fr (s : State) (n : Nat) (r : Req) : Fr 512 85070591777276337358688102304108773376 s (State.makeContract s n r) := by
  unfold State.makeContract
  dsimp only
  repeat' first
    | with_reducible assumption
    | ((with_reducible apply orDec); rfl)
    | ((with_reducible apply bitDec); rfl)
    | with_reducible intro _
    | with_reducible exact Fr.refl _ _ _
    | with_reducible apply Fr.ite
    | with_reducible apply Fr.step (State.tcMod_fr ..)
    | with_reducible apply Fr.p
    | with_reducible apply Fr.when
    | with_reducible apply Fr.hw
    | with_reducible apply TCP_PORT.reg
    | with_reducible apply TCP_CONTRACT.reg
    | with_reducible apply TCP_EVT.reg
    | with_reducible apply BUD_PORT.reg
    | ((with_reducible apply HasReg.as); simp only [BUD_PORT.FIRST_USE_addr, TCP_CONTRACT.CURRENT_addr, TCP_CONTRACT.KIND_addr, TCP_CONTRACT.OBJ_POS_addr, TCP_CONTRACT.VOLTAGE_addr, TCP_EVT.CONTRACT_addr, TCP_PORT.CONTRACT_addr])

theorem State.addKeepAlive_fr (s : State) (n rep : Nat) : Fr 33554432 0 s (State.addKeepAlive s n rep) := by
  unfold State.addKeepAlive
  dsimp only
  repeat' first
    | with_reducible assumption
    | ((with_reducible apply orDec); rfl)
    | with_reducible intro _
    | with_reducible exact Fr.refl _ _ _
    | with_reducible apply Fr.ite
    | with_reducible apply Fr.step (State.setEntry_fr ..)
    | with_reducible apply Fr.getD
    | split

theorem State.sinkContract_fr (s : State) (n : Nat) (r : Req) : Fr 17213424128 85070601918481139184523314277734416384 s (State.sinkContract s n r) := by
  unfold State.sinkContract
  dsimp only
  repeat' first
    | with_reducible assumption
    | ((with_reducible apply orDec); rfl)
    | ((with_reducible apply bitDec); rfl)
    | with_reducible intro _
    | with_reducible exact Fr.refl _ _ _
    | with_reducible apply Fr.ite
    | with_reducible apply Fr.step (State.makeContract_fr ..)
    | with_reducible apply Fr.step (State.setLimit_fr ..)
    | with_reducible apply Fr.step (State.tcMod_fr ..)
    | with_reducible apply Fr.step (State.dropKeepAlive_fr ..)
    | with_reducible apply Fr.step (State.addKeepAlive_fr ..)
    | with_reducible apply Fr.p
    | with_reducible apply TCP_CONTRACT.reg
    | ((with_reducible apply HasReg.as); simp only [TCP_CONTRACT.EPR_addr])

theorem State.dpAnswer_fr {m b : Nat} {r : State} {s : State} {n : Nat} {f : State → State} (hm : 16777730 ||| m = m) (hb : 4893107481783862970145936819934115549808062153883648 ||| b = b)
    (hf : ∀ t, Fr m b r t → Fr m b r (f t)) (h : Fr m b r s) : Fr m b r (State.dpAnswer s n f) := by
  unfold State.dpAnswer
  repeat' first
    | with_reducible assumption
    | with_reducible apply hf
    | with_reducible intro _
    | with_reducible exact Fr.refl _ _ _
    | with_reducible apply Fr.ite
    | with_reducible apply Fr.step (State.pdSend_fr ..)

end Sys2Proof.Machine
end

