-- ==== Sys2Proof/Laws/FrMailbox.lean ====
section
/-!
SUPPORT. What the operations of Sys2Proof/Machine/Mailbox.lean may change.
-/
namespace Sys2Proof.Machine

theorem State.closePages_fr (s : State) (l : List Nat) : Fr 4294967296 784637716923335095479473677900958302012794430558004314112 s (State.closePages s l) := by
  unfold State.closePages
  dsimp only
  repeat' first
    | with_reducible assumption
    | ((with_reducible apply bitDec); rfl)
    | with_reducible intro _
    | with_reducible exact Fr.refl _ _ _
    | with_reducible apply Fr.ite
    | with_reducible apply Fr.p
    | with_reducible apply Fr.each
    | with_reducible apply Fr.withExpert
    | with_reducible apply TOP_EXPERT.reg
    | ((with_reducible apply HasReg.as); simp only [bitFld_addr])

theorem State.mbMod_fr (s : State) (c : Nat) (f : MbxS → MbxS) : Fr 268435456 0 s (State.mbMod s c f) := by
  unfold State.mbMod
  repeat' first
    | with_reducible assumption
    | ((with_reducible apply bitDec); rfl)
    | with_reducible intro _
    | with_reducible exact Fr.refl _ _ _
    | with_reducible apply Fr.ite
    | with_reducible apply Fr.withMbx

theorem State.mbxRefuse_fr (s : State) (m c : Nat) : Fr 17567737594 28421910044117572252143165303972564425819184995049144320 s (State.mbxRefuse s m c) := by
  unfold State.mbxRefuse
  repeat' first
    | with_reducible assumption
    | ((with_reducible apply orDec); rfl)
    | ((with_reducible apply bitDec); rfl)
    | with_reducible intro _
    | with_reducible exact Fr.refl _ _ _
    | with_reducible apply Fr.ite
    | with_reducible apply Fr.step (State.raise_fr ..)
    | with_reducible apply Fr.p
    | with_reducible apply Fr.hw
    | with_reducible apply MBX_ERR.reg
    | ((with_reducible apply HasReg.as); simp only [MBX_ERR.ACCESS_addr, MBX_ERR.CHANNEL_addr, MBX_ERR.MASTER_addr])

theorem State.wipeWords_fr {m b : Nat} {r : State} {s : State} {f : Nat → Nat} (_hm : 0 ||| m = m) (_hb : 0 ||| b = b)
    (hf : ∀ n, HasReg b (f n)) (h : Fr m b r s) : Fr m b r (State.wipeWords s f) := by
  unfold State.wipeWords
  repeat' first
    | with_reducible assumption
    | with_reducible apply hf
    | with_reducible intro _
    | with_reducible exact Fr.refl _ _ _
    | with_reducible apply Fr.ite
    | with_reducible apply Fr.each
    | with_reducible apply Fr.setWord

theorem State.placeProxy_fr (s : State) : Fr 1073741858 4893107511075369114700319754861401757534669796016128 s (State.placeProxy s) := by
  unfold State.placeProxy
  repeat' first
    | with_reducible assumption
    | ((with_reducible apply orDec); rfl)
    | ((with_reducible apply bitDec); rfl)
    | with_reducible intro _
    | with_reducible exact Fr.refl _ _ _
    | with_reducible apply Fr.ite
    | with_reducible apply Fr.step (State.holdMailbox_fr ..)
    | with_reducible apply Fr.p
    | with_reducible apply Fr.when
    | with_reducible apply Fr.each
    | with_reducible apply Fr.hw
    | with_reducible apply Fr.setWord
    | with_reducible apply Fr.withProxyHeld
    | with_reducible apply Fr.getD
    | with_reducible apply MBX_IN_W.reg
    | with_reducible apply MBX_IN_CTRL.reg
    | with_reducible apply MBX_DB.reg
    | ((with_reducible apply HasReg.as); simp only [MBX_DB.IN_DB_addr, MBX_IN_CTRL.COUNT_addr, MBX_IN_CTRL.GO_addr, MBX_IN_CTRL.MEMBER_addr, MBX_IN_CTRL.PARTY_addr, MBX_IN_CTRL.REPLY_addr, MBX_IN_CTRL.SEQ_addr])
    | split

theorem State.inFall_fr (s : State) (c : Nat) : Fr 268435488 6968982874540819731729911960202612970618880 s (State.inFall s c) := by
  unfold State.inFall
  dsimp only
  repeat' first
    | with_reducible assumption
    | ((with_reducible apply orDec); rfl)
    | ((with_reducible apply bitDec); rfl)
    | with_reducible intro _
    | with_reducible exact Fr.refl _ _ _
    | with_reducible apply Fr.ite
    | with_reducible apply Fr.step (State.mbMod_fr ..)
    | with_reducible apply Fr.step (State.releaseMailbox_fr ..)
    | with_reducible apply State.wipeWords_fr
    | with_reducible apply Fr.p
    | with_reducible apply Fr.when
    | with_reducible apply Fr.mark
    | with_reducible apply MBX_IN_W.reg
    | with_reducible apply MBX_IN_CTRL.reg
    | ((with_reducible apply HasReg.as); simp only [MBX_IN_CTRL.GO_addr])

theorem State.emptyIn_fr (s : State) (c : Nat) : Fr 268435488 73871218470132689156337066778147697488560128 s (State.emptyIn s c) := by
  unfold State.emptyIn
  dsimp only
  repeat' first
    | with_reducible assumption
    | ((with_reducible apply orDec); rfl)
    | ((with_reducible apply bitDec); rfl)
    | with_reducible intro _
    | with_reducible exact Fr.refl _ _ _
    | with_reducible apply Fr.ite
    | with_reducible apply Fr.step (State.inFall_fr ..)
    | with_reducible apply Fr.p
    | with_reducible apply Fr.when
    | with_reducible apply Fr.hw
    | with_reducible apply Fr.setWord
    | with_reducible apply Fr.mark
    | with_reducible apply MBX_IN_CTRL.reg
    | with_reducible apply MBX_DB.reg
    | with_reducible apply MBX_STATUS.reg
    | ((with_reducible apply HasReg.as); simp only [MBX_DB.IN_DB_addr, MBX_STATUS.OVERRUN_addr])
    | split

theorem State.inWordWrite_fr (s : State) (m c w : Nat) (v : Word) : Fr 17567737594 28421910044163567539115134714201981844756522240655228928 s (State.inWordWrite s m c w v) := by
  unfold State.inWordWrite
  repeat' first
    | with_reducible assumption
    | ((with_reducible apply orDec); rfl)
    | ((with_reducible apply bitDec); rfl)
    | with_reducible intro _
    | with_reducible exact Fr.refl _ _ _
    | with_reducible apply Fr.ite
    | with_reducible apply Fr.step (State.mbxRefuse_fr ..)
    | with_reducible apply Fr.hw
    | with_reducible apply Fr.setWord
    | with_reducible apply MBX_IN_W.reg
    | with_reducible apply MBX_STATUS.reg
    | ((with_reducible apply HasReg.as); simp only [MBX_STATUS.OVERRUN_addr])

theorem State.ring_fr (s : State) (c cause tag : Nat) : Fr 0 22300745198530623141535718272648361505980416 s (State.ring s c cause tag) := by
  unfold State.ring
  dsimp only
  repeat' first
    | with_reducible assumption
    | ((with_reducible apply bitDec); rfl)
    | with_reducible intro _
    | with_reducible exact Fr.refl _ _ _
    | with_reducible apply Fr.ite
    | with_reducible apply Fr.p
    | with_reducible apply Fr.when
    | with_reducible apply Fr.out
    | with_reducible apply Fr.hw
    | with_reducible apply MBX_DB.reg
    | ((with_reducible apply HasReg.as); simp only [MBX_DB.OUT_CAUSE_addr, MBX_DB.OUT_DB_addr, MBX_DB.OUT_TAG_addr])

theorem State.announce_fr (s : State) (c : Nat) (isLast : Bool) : Fr 268435490 4893107515256758839424811593899348933656237578387456 s (State.announce s c isLast) := by
  unfold State.announce
  dsimp only
  repeat' first
    | with_reducible assumption
    | ((with_reducible apply orDec); rfl)
    | ((with_reducible apply bitDec); rfl)
    | with_reducible intro _
    | with_reducible exact Fr.refl _ _ _
    | with_reducible apply Fr.ite
    | with_reducible apply Fr.step (State.mbMod_fr ..)
    | with_reducible apply Fr.step (State.holdMailbox_fr ..)
    | with_reducible apply Fr.step (State.ring_fr ..)
    | with_reducible apply Fr.p
    | with_reducible apply Fr.when
    | with_reducible apply Fr.mark
    | with_reducible apply MBX_OUT_CTRL.reg
    | ((with_reducible apply HasReg.as); simp only [MBX_OUT_CTRL.GO_addr])

theorem State.postNow_fr (s : State) (c : Nat) (x : Msg) (isLast : Bool) : Fr 268435490 4893107518044351989241139486591313717737282766635008 s (State.postNow s c x isLast) := by
  unfold State.postNow
  dsimp only
  repeat' first
    | with_reducible assumption
    | ((with_reducible apply orDec); rfl)
    | ((with_reducible apply bitDec); rfl)
    | with_reducible intro _
    | with_reducible exact Fr.refl _ _ _
    | with_reducible apply Fr.ite
    | with_reducible apply Fr.step (State.announce_fr ..)
    | with_reducible apply Fr.p
    | with_reducible apply Fr.each
    | with_reducible apply Fr.setWord
    | with_reducible apply Fr.getD
    | with_reducible apply MBX_OUT_W.reg
    | with_reducible apply MBX_OUT_CTRL.reg
    | ((with_reducible apply HasReg.as); simp only [MBX_OUT_CTRL.COUNT_addr, MBX_OUT_CTRL.MEMBER_addr, MBX_OUT_CTRL.REPLY_addr, MBX_OUT_CTRL.SEQ_addr])

theorem State.setHeld_fr (s : State) (c : Nat) (l : List Msg) : Fr 268435456 44601490397061246283071436545296723011960832 s (State.setHeld s c l) := by
  unfold State.setHeld
  repeat' first
    | with_reducible assumption
    | ((with_reducible apply orDec); rfl)
    | ((with_reducible apply bitDec); rfl)
    | with_reducible intro _
    | with_reducible exact Fr.refl _ _ _
    | with_reducible apply Fr.ite
    | with_reducible apply Fr.step (State.mbMod_fr ..)
    | with_reducible apply Fr.p
    | with_reducible apply MBX_STATUS.reg
    | ((with_reducible apply HasReg.as); simp only [MBX_STATUS.HELD_addr])

theorem State.histMod_fr (s : State) (c member : Nat) (f : SeqHist → SeqHist) : Fr 268435456 0 s (State.histMod s c member f) := by
  unfold State.histMod
  repeat' first
    | with_reducible assumption
    | ((with_reducible apply orDec); rfl)
    | with_reducible intro _
    | with_reducible exact Fr.refl _ _ _
    | with_reducible apply Fr.ite
    | with_reducible apply Fr.step (State.mbMod_fr ..)

theorem State.postMsg_fr (s : State) (c : Nat) (x : Msg) : Fr 268435490 4893107518044351989241139486591313717737282766635008 s (State.postMsg s c x) := by
  unfold State.postMsg
  repeat' first
    | with_reducible assumption
    | ((with_reducible apply orDec); rfl)
    | with_reducible intro _
    | with_reducible exact Fr.refl _ _ _
    | with_reducible apply Fr.ite
    | with_reducible apply Fr.step (State.postNow_fr ..)

theorem State.postHeld_fr (s : State) (c : Nat) : Fr 268435490 4893107562645842386302385769662750263034005778595840 s (State.postHeld s c) := by
  unfold State.postHeld
  repeat' first
    | with_reducible assumption
    | ((with_reducible apply orDec); rfl)
    | with_reducible intro _
    | with_reducible exact Fr.refl _ _ _
    | with_reducible apply Fr.ite
    | with_reducible apply Fr.step (State.postMsg_fr ..)
    | with_reducible apply Fr.step (State.setHeld_fr ..)
    | split

theorem State.post_fr (s : State) (c : Nat) (x : Msg) : Fr 268435490 4893107562645842386302385769662750263034005778595840 s (State.post s c x) := by
  unfold State.post
  dsimp only
  repeat' first
    | with_reducible assumption
    | ((with_reducible apply orDec); rfl)
    | ((with_reducible apply bitDec); rfl)
    | with_reducible intro _
    | with_reducible exact Fr.refl _ _ _
    | with_reducible apply Fr.ite
    | with_reducible apply Fr.step (State.postMsg_fr ..)
    | with_reducible apply Fr.step (State.postHeld_fr ..)
    | with_reducible apply Fr.step (State.setHeld_fr ..)
    | with_reducible apply Fr.incSat
    | with_reducible apply MBX_STATUS.reg
    | ((with_reducible apply HasReg.as); simp only [MBX_STATUS.NOTICE_LOST_addr])
    | split

theorem State.notice_fr (s : State) (c : Nat) (words : List Nat) : Fr 268435490 4893107562645842386302385769662750263034005778595840 s (State.notice s c words) := by
  unfold State.notice
  dsimp only
  repeat' first
    | with_reducible assumption
    | ((with_reducible apply orDec); rfl)
    | with_reducible intro _
    | with_reducible exact Fr.refl _ _ _
    | with_reducible apply Fr.ite
    | with_reducible apply Fr.step (State.post_fr ..)
    | with_reducible apply Fr.step (State.mbMod_fr ..)

theorem State.outFree_fr (s : State) (c : Nat) : Fr 268435490 4893107562645842386302385769662750263034005778595840 s (State.outFree s c) := by
  unfold State.outFree
  dsimp only
  repeat' first
    | with_reducible assumption
    | ((with_reducible apply orDec); rfl)
    | ((with_reducible apply bitDec); rfl)
    | with_reducible intro _
    | with_reducible exact Fr.refl _ _ _
    | with_reducible apply Fr.ite
    | with_reducible apply Fr.step (State.releaseMailbox_fr ..)
    | with_reducible apply Fr.step (State.mbMod_fr ..)
    | with_reducible apply Fr.step (State.histMod_fr ..)
    | with_reducible apply State.wipeWords_fr
    | with_reducible apply Fr.step (State.postHeld_fr ..)
    | with_reducible apply Fr.p
    | with_reducible apply Fr.when
    | with_reducible apply MBX_OUT_W.reg
    | with_reducible apply MBX_OUT_CTRL.reg
    | ((with_reducible apply HasReg.as); simp only [MBX_OUT_CTRL.GO_addr])

theorem State.inFree_fr (s : State) (c : Nat) : Fr 1342177314 4893107569614825260843205501392662223236618749214720 s (State.inFree s c) := by
  unfold State.inFree
  repeat' first
    | with_reducible assumption
    | ((with_reducible apply orDec); rfl)
    | with_reducible intro _
    | with_reducible exact Fr.refl _ _ _
    | with_reducible apply Fr.ite
    | with_reducible apply Fr.step (State.inFall_fr ..)
    | with_reducible apply Fr.step (State.placeProxy_fr ..)
    | with_reducible apply Fr.step (State.postHeld_fr ..)
    | with_reducible apply Fr.when

theorem State.inCtrlWrite_fr (s : State) (m c : Nat) (v : Word) : Fr 18641479418 28421910044205381436362379632592361316517737918478942208 s (State.inCtrlWrite s m c v) := by
  unfold State.inCtrlWrite
  repeat' first
    | with_reducible assumption
    | ((with_reducible apply orDec); rfl)
    | ((with_reducible apply bitDec); rfl)
    | with_reducible intro _
    | with_reducible exact Fr.refl _ _ _
    | with_reducible apply Fr.ite
    | with_reducible apply Fr.step (State.inFree_fr ..)
    | with_reducible apply Fr.step (State.mbxRefuse_fr ..)
    | with_reducible apply Fr.step (State.holdMailbox_fr ..)
    | with_reducible apply Fr.p
    | with_reducible apply Fr.when
    | with_reducible apply Fr.hw
    | with_reducible apply Fr.mark
    | with_reducible apply MBX_IN_CTRL.reg
    | with_reducible apply MBX_DB.reg
    | with_reducible apply MBX_STATUS.reg
    | ((with_reducible apply HasReg.as); simp only [MBX_DB.IN_DB_addr, MBX_IN_CTRL.COUNT_addr, MBX_IN_CTRL.GO_addr, MBX_IN_CTRL.PARTY_addr, MBX_IN_CTRL.REPLY_addr, MBX_IN_CTRL.SEQ_addr, MBX_STATUS.BAD_COUNT_addr, MBX_STATUS.OVERRUN_addr])
    | split

theorem State.outWordWrite_fr (s : State) (m c w : Nat) (v : Word) : Fr 17567737594 28421910044120359845292981631865256390603266040237391872 s (State.outWordWrite s m c w v) := by
  unfold State.outWordWrite
  repeat' first
    | with_reducible assumption
    | ((with_reducible apply orDec); rfl)
    | ((with_reducible apply bitDec); rfl)
    | with_reducible intro _
    | with_reducible exact Fr.refl _ _ _
    | with_reducible apply Fr.ite
    | with_reducible apply Fr.step (State.mbxRefuse_fr ..)
    | with_reducible apply Fr.setWord
    | with_reducible apply MBX_OUT_W.reg

theorem State.outCtrlWrite_fr (s : State) (m c : Nat) (v : Word) : Fr 17567737594 28421910044198412453487838812860631404557535305508323328 s (State.outCtrlWrite s m c v) := by
  unfold State.outCtrlWrite
  repeat' first
    | with_reducible assumption
    | ((with_reducible apply orDec); rfl)
    | ((with_reducible apply bitDec); rfl)
    | with_reducible intro _
    | with_reducible exact Fr.refl _ _ _
    | with_reducible apply Fr.ite
    | with_reducible apply Fr.step (State.announce_fr ..)
    | with_reducible apply Fr.step (State.mbxRefuse_fr ..)
    | with_reducible apply Fr.step (State.outFree_fr ..)
    | with_reducible apply Fr.p
    | with_reducible apply MBX_OUT_CTRL.reg
    | ((with_reducible apply HasReg.as); simp only [MBX_OUT_CTRL.COUNT_addr, MBX_OUT_CTRL.MEMBER_addr, MBX_OUT_CTRL.REPLY_addr, MBX_OUT_CTRL.SEQ_addr])

theorem State.dbWrite_fr (s : State) (m c : Nat) (v : Word) : Fr 17567737594 28421910044139872997341695927114100144091833356555124736 s (State.dbWrite s m c v) := by
  unfold State.dbWrite
  dsimp only
  repeat' first
    | with_reducible assumption
    | ((with_reducible apply orDec); rfl)
    | ((with_reducible apply bitDec); rfl)
    | with_reducible intro _
    | with_reducible exact Fr.refl _ _ _
    | with_reducible apply Fr.ite
    | with_reducible apply Fr.step (State.mbxRefuse_fr ..)
    | with_reducible apply Fr.p
    | with_reducible apply MBX_DB.reg
    | ((with_reducible apply HasReg.as); simp only [MBX_DB.IN_DB_addr, MBX_DB.OUT_DB_addr])

theorem State.withdraw_fr (s : State) : Fr 268435490 4893107562645842386302385769662750263034005778595840 s (State.withdraw s) := by
  unfold State.withdraw
  dsimp only
  repeat' first
    | with_reducible assumption
    | ((with_reducible apply orDec); rfl)
    | with_reducible intro _
    | with_reducible exact Fr.refl _ _ _
    | with_reducible apply Fr.ite
    | with_reducible apply Fr.step (State.outFree_fr ..)
    | with_reducible apply Fr.step (State.mbMod_fr ..)
    | with_reducible apply Fr.when

theorem State.proxyTick_fr (s : State) : Fr 268435490 4893107562645842386302385769662750263034005778595840 s (State.proxyTick s) := by
  unfold State.proxyTick
  repeat' first
    | with_reducible assumption
    | ((with_reducible apply orDec); rfl)
    | with_reducible intro _
    | with_reducible exact Fr.refl _ _ _
    | with_reducible apply Fr.ite
    | with_reducible apply Fr.step (State.postHeld_fr ..)
    | with_reducible apply Fr.step (State.withdraw_fr ..)

theorem State.scanInbound_fr (s : State) : Fr 268435456 0 s (State.scanInbound s) := by
  unfold State.scanInbound
  repeat' first
    | with_reducible assumption
    | ((with_reducible apply orDec); rfl)
    | with_reducible intro _
    | with_reducible exact Fr.refl _ _ _
    | with_reducible apply Fr.ite
    | with_reducible apply Fr.step (State.mbMod_fr ..)
    | with_reducible apply Fr.each

theorem State.lockRead_fr (s : State) (m i : Nat) : Fr 0 178405961588244985132285746181186892047843328 s (State.lockRead s m i).2 := by
  unfold State.lockRead
  dsimp only
  repeat' first
    | with_reducible assumption
    | ((with_reducible apply bitDec); rfl)
    | with_reducible intro _
    | with_reducible exact Fr.refl _ _ _
    | with_reducible apply Fr.ite
    | with_reducible apply Fr.p
    | with_reducible apply Fr.when
    | with_reducible apply Fr.mark
    | with_reducible apply MBX_LOCK.reg
    | ((with_reducible apply HasReg.as); simp only [MBX_LOCK.OWNER_addr])
    | split

theorem State.lockWrite_fr (s : State) (m i : Nat) (v : Word) : Fr 0 1605653654294204866190571715630682028430589952 s (State.lockWrite s m i v) := by
  unfold State.lockWrite
  dsimp only
  repeat' first
    | with_reducible assumption
    | ((with_reducible apply bitDec); rfl)
    | with_reducible intro _
    | with_reducible exact Fr.refl _ _ _
    | with_reducible apply Fr.ite
    | with_reducible apply Fr.p
    | with_reducible apply Fr.when
    | with_reducible apply Fr.hw
    | with_reducible apply Fr.unmark
    | with_reducible apply MBX_LOCK.reg
    | with_reducible apply MBX_ERR.reg
    | ((with_reducible apply HasReg.as); simp only [MBX_ERR.CHANNEL_addr, MBX_ERR.FORCED_addr, MBX_ERR.LOCK_MISUSE_addr, MBX_ERR.MASTER_addr, MBX_LOCK.OWNER_addr])

theorem State.forceLocks_fr (s : State) (m : Nat) : Fr 0 1605653654294204866190571715630682028430589952 s (State.forceLocks s m) := by
  unfold State.forceLocks
  repeat' first
    | with_reducible assumption
    | ((with_reducible apply bitDec); rfl)
    | with_reducible intro _
    | with_reducible exact Fr.refl _ _ _
    | with_reducible apply Fr.ite
    | with_reducible apply Fr.p
    | with_reducible apply Fr.each
    | with_reducible apply Fr.hw
    | with_reducible apply MBX_LOCK.reg
    | with_reducible apply MBX_ERR.reg
    | ((with_reducible apply HasReg.as); simp only [MBX_ERR.FORCED_addr, MBX_LOCK.OWNER_addr])

theorem State.emptyMailboxes_fr (s : State) : Fr 1879048224 1693462838513419194810368606329234951860387840 s (State.emptyMailboxes s) := by
  unfold State.emptyMailboxes
  dsimp only
  repeat' first
    | with_reducible assumption
    | ((with_reducible apply orDec); rfl)
    | ((with_reducible apply bitDec); rfl)
    | with_reducible intro _
    | with_reducible exact Fr.refl _ _ _
    | with_reducible apply Fr.ite
    | with_reducible apply State.wipeWords_fr
    | with_reducible apply Fr.step (State.releaseMailbox_fr ..)
    | with_reducible apply Fr.p
    | with_reducible apply Fr.each
    | with_reducible apply Fr.hw
    | with_reducible apply Fr.setWord
    | with_reducible apply Fr.withMbx
    | with_reducible apply Fr.withPass
    | with_reducible apply Fr.withProxyHeld
    | with_reducible apply MBX_IN_W.reg
    | with_reducible apply MBX_OUT_W.reg
    | with_reducible apply MBX_IN_CTRL.reg
    | with_reducible apply MBX_OUT_CTRL.reg
    | with_reducible apply MBX_DB.reg
    | with_reducible apply MBX_STATUS.reg
    | with_reducible apply MBX_LOCK.reg
    | with_reducible apply MBX_ERR.reg
    | ((with_reducible apply HasReg.as); simp only [MBX_ERR.FORCED_addr, MBX_LOCK.OWNER_addr])

end Sys2Proof.Machine
end

