-- ==== Sys2Proof/Laws/FrReply.lean ====
section
/-!
SUPPORT. What the operations of Sys2Proof/Machine/Reply.lean may change.
-/
namespace Sys2Proof.Machine

theorem State.sessSet_fr (s : State) (c : Nat) (x : Option Session) : Fr 2147483648 0 s (State.sessSet s c x) := by
  unfold State.sessSet
  repeat' first
    | with_reducible assumption
    | ((with_reducible apply bitDec); rfl)
    | with_reducible intro _
    | with_reducible exact Fr.refl _ _ _
    | with_reducible apply Fr.ite
    | with_reducible apply Fr.withMsg

theorem State.seal_fr (s : State) (c : Nat) (words : List Word) : Fr 2147483648 0 s (State.seal s c words).2 := by
  unfold State.seal
  repeat' first
    | with_reducible assumption
    | ((with_reducible apply orDec); rfl)
    | with_reducible intro _
    | with_reducible exact Fr.refl _ _ _
    | with_reducible apply Fr.ite
    | with_reducible apply Fr.step (State.sessSet_fr ..)
    | split

theorem State.dropReply_fr (s : State) (c : Nat) : Fr 0 22835963083295358096932575511191922182123945984 s (State.dropReply s c) := by
  unfold State.dropReply
  repeat' first
    | with_reducible assumption
    | ((with_reducible apply bitDec); rfl)
    | with_reducible intro _
    | with_reducible exact Fr.refl _ _ _
    | with_reducible apply Fr.ite
    | with_reducible apply Fr.each
    | with_reducible apply Fr.hw
    | with_reducible apply TKR_EVT.reg
    | ((with_reducible apply HasReg.as); simp only [TKR_EVT.REPLY_DROPPED_addr])

theorem State.answerPlain_fr (s : State) (c seq member : Nat) (words : List Word) (isFinal : Bool) : Fr 268435490 4893107562645842386302385769662750263034005778595840 s (State.answerPlain s c seq member words isFinal) := by
  unfold State.answerPlain
  dsimp only
  repeat' first
    | with_reducible assumption
    | ((with_reducible apply orDec); rfl)
    | with_reducible intro _
    | with_reducible exact Fr.refl _ _ _
    | with_reducible apply Fr.ite
    | with_reducible apply Fr.step (State.post_fr ..)
    | with_reducible apply Fr.step (State.histMod_fr ..)
    | with_reducible apply Fr.when

theorem State.closeSession_fr (s : State) (c : Nat) : Fr 6710886434 784642610055346327042324084069582841901840271387308064768 s (State.closeSession s c) := by
  unfold State.closeSession
  repeat' first
    | with_reducible assumption
    | ((with_reducible apply orDec); rfl)
    | with_reducible intro _
    | with_reducible exact Fr.refl _ _ _
    | with_reducible apply Fr.ite
    | with_reducible apply Fr.step (State.sessSet_fr ..)
    | with_reducible apply Fr.step (State.dropReply_fr ..)
    | with_reducible apply Fr.step (State.mbMod_fr ..)
    | with_reducible apply Fr.step (State.setHeld_fr ..)
    | with_reducible apply Fr.step (State.outFree_fr ..)
    | with_reducible apply Fr.step (State.emptyIn_fr ..)
    | with_reducible apply Fr.step (State.closePages_fr ..)
    | with_reducible apply Fr.step (State.forceLocks_fr ..)
    | with_reducible apply Fr.when
    | split

theorem State.closeParty_fr (s : State) (party : Nat) : Fr 6710886434 784642610055346327042324084069582841901840271387308064768 s (State.closeParty s party) := by
  unfold State.closeParty
  repeat' first
    | with_reducible assumption
    | ((with_reducible apply orDec); rfl)
    | with_reducible intro _
    | with_reducible exact Fr.refl _ _ _
    | with_reducible apply Fr.ite
    | with_reducible apply Fr.step (State.closeSession_fr ..)
    | with_reducible apply Fr.each

theorem State.answer_fr (s : State) (c seq member : Nat) (sess : Option Nat) (words : List Word) (isFinal : Bool) : Fr 6710886434 784642610055346327042324084069582841901840271387308064768 s (State.answer s c seq member sess words isFinal) := by
  unfold State.answer
  repeat' first
    | with_reducible assumption
    | ((with_reducible apply orDec); rfl)
    | with_reducible intro _
    | with_reducible exact Fr.refl _ _ _
    | with_reducible apply Fr.ite
    | with_reducible apply Fr.step (State.answerPlain_fr ..)
    | with_reducible apply Fr.step (State.seal_fr ..)
    | with_reducible apply Fr.step (State.closeSession_fr ..)
    | with_reducible apply Fr.step (State.dropReply_fr ..)
    | with_reducible apply Fr.when
    | split

theorem State.reply_fr (s : State) (a : Ask) (code : Nat) (words : List Nat) : Fr 6710886434 784642610055346327042324084069582841901840271387308064768 s (State.reply s a code words) := by
  unfold State.reply
  repeat' first
    | with_reducible assumption
    | ((with_reducible apply orDec); rfl)
    | with_reducible intro _
    | with_reducible exact Fr.refl _ _ _
    | with_reducible apply Fr.ite
    | with_reducible apply Fr.step (State.answer_fr ..)

theorem State.pendReply_fr (s : State) (a : Ask) (k : PendKind) : Fr 6710886434 784642610055346327042324084069582841901840271387308064768 s (State.pendReply s a k) := by
  unfold State.pendReply
  dsimp only
  repeat' first
    | with_reducible assumption
    | ((with_reducible apply orDec); rfl)
    | ((with_reducible apply bitDec); rfl)
    | with_reducible intro _
    | with_reducible exact Fr.refl _ _ _
    | with_reducible apply Fr.ite
    | with_reducible apply Fr.step (State.answer_fr ..)
    | with_reducible apply Fr.withMsg

theorem State.laterDone_fr (s : State) (p : PendOp) (code : Nat) (words : List Nat) : Fr 6710886434 784642610055346327042324084069582841901840271387308064768 s (State.laterDone s p code words) := by
  unfold State.laterDone
  repeat' first
    | with_reducible assumption
    | ((with_reducible apply orDec); rfl)
    | with_reducible intro _
    | with_reducible exact Fr.refl _ _ _
    | with_reducible apply Fr.ite
    | with_reducible apply Fr.step (State.answer_fr ..)

theorem State.finishPend_fr (s : State) (k : PendKind) (code : Nat) (words : List Nat) : Fr 6710886434 784642610055346327042324084069582841901840271387308064768 s (State.finishPend s k code words) := by
  unfold State.finishPend
  dsimp only
  repeat' first
    | with_reducible assumption
    | ((with_reducible apply orDec); rfl)
    | ((with_reducible apply bitDec); rfl)
    | with_reducible intro _
    | with_reducible exact Fr.refl _ _ _
    | with_reducible apply Fr.ite
    | with_reducible apply Fr.step (State.laterDone_fr ..)
    | with_reducible apply Fr.withMsg
    | with_reducible apply Fr.foldl
    | with_reducible apply Fr.foldlSnd
    | split

end Sys2Proof.Machine
end

