-- ==== Sys2Proof/Laws/FrGlk.lean ====
section
/-!
SUPPORT. What the operations of Sys2Proof/Machine/Glk.lean may change.
-/
namespace Sys2Proof.Machine

theorem State.setStep_fr (s : State) (n : Nat) : Fr 262144 604462909807314587353088 s (State.setStep s n) := by
  unfold State.setStep
  repeat' first
    | with_reducible assumption
    | ((with_reducible apply orDec); rfl)
    | ((with_reducible apply bitDec); rfl)
    | with_reducible intro _
    | with_reducible exact Fr.refl _ _ _
    | with_reducible apply Fr.ite
    | with_reducible apply Fr.step (State.fabMod_fr ..)
    | with_reducible apply Fr.p
    | with_reducible apply DRV_BARN.reg
    | ((with_reducible apply HasReg.as); simp only [DRV_BARN.STEP_addr])

theorem State.sendHello_fr (s : State) (k : Nat) : Fr 131072 2361183259027008651264 s (State.sendHello s k) := by
  unfold State.sendHello
  repeat' first
    | with_reducible assumption
    | ((with_reducible apply orDec); rfl)
    | with_reducible intro _
    | with_reducible exact Fr.refl _ _ _
    | with_reducible apply Fr.ite
    | with_reducible apply Fr.step (State.linkBale_fr ..)

theorem State.helloAll_fr (s : State) : Fr 131072 2361183259027008651264 s (State.helloAll s) := by
  unfold State.helloAll
  repeat' first
    | with_reducible assumption
    | ((with_reducible apply orDec); rfl)
    | with_reducible intro _
    | with_reducible exact Fr.refl _ _ _
    | with_reducible apply Fr.ite
    | with_reducible apply Fr.step (State.sendHello_fr ..)
    | with_reducible apply Fr.each

theorem State.reportCommitted_fr (s : State) : Fr 393216 3069854959180814961628475917423900518310152214878879744 s (State.reportCommitted s) := by
  unfold State.reportCommitted
  repeat' first
    | with_reducible assumption
    | ((with_reducible apply orDec); rfl)
    | with_reducible intro _
    | with_reducible exact Fr.refl _ _ _
    | with_reducible apply Fr.ite
    | with_reducible apply Fr.step (State.ctrlTo_fr ..)
    | with_reducible apply Fr.when

theorem State.setLead_fr (s : State) (m : Nat) (first : Bool) : Fr 393222 3069884189213561579686839991275901811791025182479491072 s (State.setLead s m first) := by
  unfold State.setLead
  dsimp only
  repeat' first
    | with_reducible exact fldNil
    | with_reducible apply fldCons
    | with_reducible assumption
    | ((with_reducible apply orDec); rfl)
    | ((with_reducible apply bitDec); rfl)
    | with_reducible intro _
    | with_reducible exact Fr.refl _ _ _
    | with_reducible apply Fr.ite
    | with_reducible apply Fr.step (State.yardMod_fr ..)
    | with_reducible apply Fr.step (State.fabMod_fr ..)
    | with_reducible apply Fr.step (State.reportCommitted_fr ..)
    | with_reducible apply Fr.step (State.helloAll_fr ..)
    | with_reducible apply Fr.step (State.memberRecord_fr ..)
    | with_reducible apply State.fields_fr
    | with_reducible apply Fr.p
    | with_reducible apply Fr.when
    | with_reducible apply Fr.hw
    | with_reducible apply YRD_BARN.reg
    | with_reducible apply DRV_BARN.reg
    | with_reducible apply DRV_EVT.reg
    | ((with_reducible apply HasReg.as); simp only [DRV_BARN.IS_LEAD_addr, DRV_BARN.LEAD_addr, DRV_EVT.LEAD_CHANGE_addr, YRD_BARN.ERR_addr, YRD_BARN.HOPS_addr, YRD_BARN.LEAD_addr, YRD_BARN.SYNCED_addr])

theorem State.pushTables_fr (s : State) : Fr 393216 3069854959180814961628475917423900518310152214878879744 s (State.pushTables s) := by
  unfold State.pushTables
  dsimp only
  repeat' first
    | with_reducible assumption
    | ((with_reducible apply orDec); rfl)
    | with_reducible intro _
    | with_reducible exact Fr.refl _ _ _
    | with_reducible apply Fr.ite
    | with_reducible apply Fr.step (State.fabMod_fr ..)
    | with_reducible apply Fr.step (State.ctrlTo_fr ..)
    | with_reducible apply Fr.each

theorem State.abandonHandoffs_fr (s : State) (lead : Nat) : Fr 6710886434 784642610055346327042324084069582841901840271387308064768 s (State.abandonHandoffs s lead) := by
  unfold State.abandonHandoffs
  dsimp only
  repeat' first
    | with_reducible assumption
    | ((with_reducible apply orDec); rfl)
    | ((with_reducible apply bitDec); rfl)
    | with_reducible intro _
    | with_reducible exact Fr.refl _ _ _
    | with_reducible apply Fr.ite
    | with_reducible apply Fr.step (State.answer_fr ..)
    | with_reducible apply Fr.withMsg
    | with_reducible apply Fr.foldl

theorem State.memberLost_fr (s : State) (m : Nat) : Fr 24010188542 813059626990554845960719660615620360585111641246706704384 s (State.memberLost s m) := by
  unfold State.memberLost
  dsimp only
  repeat' first
    | with_reducible assumption
    | ((with_reducible apply orDec); rfl)
    | ((with_reducible apply bitDec); rfl)
    | with_reducible intro _
    | with_reducible exact Fr.refl _ _ _
    | with_reducible apply Fr.ite
    | with_reducible apply Fr.step (State.closeFlows_fr ..)
    | with_reducible apply Fr.step (State.raise_fr ..)
    | with_reducible apply Fr.step (State.abandonHandoffs_fr ..)
    | with_reducible apply Fr.step (State.forceLocks_fr ..)
    | with_reducible apply Fr.step (State.setLead_fr ..)
    | with_reducible apply Fr.step (State.pushTables_fr ..)
    | with_reducible apply Fr.when
    | with_reducible apply Fr.hw
    | with_reducible apply Fr.withMirror
    | with_reducible apply UPP_EVT.reg
    | ((with_reducible apply HasReg.as); simp only [UPP_EVT.UNREACHABLE_addr])
    | split

theorem State.settleLost_fr (s : State) : Fr 24010188542 813059626990554845960719660615620360585111641246706704384 s (State.settleLost s) := by
  unfold State.settleLost
  dsimp only
  repeat' first
    | with_reducible assumption
    | ((with_reducible apply orDec); rfl)
    | with_reducible intro _
    | with_reducible exact Fr.refl _ _ _
    | with_reducible apply Fr.ite
    | with_reducible apply Fr.step (State.fabMod_fr ..)
    | with_reducible apply Fr.step (State.memberLost_fr ..)
    | with_reducible apply Fr.each

theorem State.linkFail_fr (s : State) (k : Nat) : Fr 24010188542 813059626990554845960719660615620388919310538464577986560 s (State.linkFail s k) := by
  unfold State.linkFail
  dsimp only
  repeat' first
    | with_reducible assumption
    | ((with_reducible apply orDec); rfl)
    | ((with_reducible apply bitDec); rfl)
    | with_reducible intro _
    | with_reducible exact Fr.refl _ _ _
    | with_reducible apply Fr.ite
    | with_reducible apply Fr.step (State.glkState_fr ..)
    | with_reducible apply Fr.step (State.linkLost_fr ..)
    | with_reducible apply Fr.step (State.settleLost_fr ..)
    | with_reducible apply Fr.step (State.raise_fr ..)
    | with_reducible apply Fr.step (State.pushTables_fr ..)
    | with_reducible apply Fr.p
    | with_reducible apply Fr.incSat
    | with_reducible apply Fr.when
    | with_reducible apply Fr.hw
    | with_reducible apply GLK_LINK.reg
    | with_reducible apply GLK_ERR.reg
    | with_reducible apply GLK_EVT.reg
    | ((with_reducible apply HasReg.as); simp only [GLK_ERR.FAILS_addr, GLK_EVT.DOWN_addr, GLK_LINK.LANES_addr])

theorem State.sendLsa_fr (s : State) (k : Nat) : Fr 393216 3069854959180814961628475917423900518310152214878879744 s (State.sendLsa s k) := by
  unfold State.sendLsa
  dsimp only
  repeat' first
    | with_reducible assumption
    | ((with_reducible apply orDec); rfl)
    | with_reducible intro _
    | with_reducible exact Fr.refl _ _ _
    | with_reducible apply Fr.ite
    | with_reducible apply Fr.step (State.nextCseq_fr ..)
    | with_reducible apply Fr.step (State.ctrlOn_fr ..)

theorem State.flood_fr (s : State) : Fr 393216 3069854959180814961628475917423900518310152214878879744 s (State.flood s) := by
  unfold State.flood
  repeat' first
    | with_reducible assumption
    | ((with_reducible apply orDec); rfl)
    | with_reducible intro _
    | with_reducible exact Fr.refl _ _ _
    | with_reducible apply Fr.ite
    | with_reducible apply Fr.step (State.sendLsa_fr ..)
    | with_reducible apply Fr.each

theorem State.learn_fr (s : State) (ls : List LinkAd) (ms : List MemberAd) : Fr 262144 0 s (State.learn s ls ms) := by
  unfold State.learn
  dsimp only
  repeat' first
    | with_reducible assumption
    | ((with_reducible apply orDec); rfl)
    | with_reducible intro _
    | with_reducible exact Fr.refl _ _ _
    | with_reducible apply Fr.ite
    | with_reducible apply Fr.step (State.fabMod_fr ..)

theorem State.startFlood_fr (s : State) : Fr 393216 3069854959180814961628475917424504981219959529466232832 s (State.startFlood s) := by
  unfold State.startFlood
  repeat' first
    | with_reducible assumption
    | ((with_reducible apply orDec); rfl)
    | with_reducible intro _
    | with_reducible exact Fr.refl _ _ _
    | with_reducible apply Fr.ite
    | with_reducible apply Fr.step (State.flood_fr ..)
    | with_reducible apply Fr.step (State.setStep_fr ..)
    | with_reducible apply Fr.step (State.fabMod_fr ..)

theorem State.restartFormation_fr (s : State) : Fr 393216 3069854959180814961628475917424504981219959529466232832 s (State.restartFormation s) := by
  unfold State.restartFormation
  repeat' first
    | with_reducible assumption
    | ((with_reducible apply orDec); rfl)
    | with_reducible intro _
    | with_reducible exact Fr.refl _ _ _
    | with_reducible apply Fr.ite
    | with_reducible apply Fr.step (State.startFlood_fr ..)
    | with_reducible apply Fr.step (State.fabMod_fr ..)

theorem State.learnedNew_fr (s : State) : Fr 393216 3069854959180814961628475917424504981219959529466232832 s (State.learnedNew s) := by
  unfold State.learnedNew
  repeat' first
    | with_reducible assumption
    | ((with_reducible apply orDec); rfl)
    | with_reducible intro _
    | with_reducible exact Fr.refl _ _ _
    | with_reducible apply Fr.ite
    | with_reducible apply Fr.step (State.flood_fr ..)
    | with_reducible apply Fr.step (State.fabMod_fr ..)
    | with_reducible apply Fr.step (State.pushTables_fr ..)
    | with_reducible apply Fr.step (State.restartFormation_fr ..)
    | with_reducible apply Fr.when

theorem State.maybeFlood_fr (s : State) : Fr 393216 3069854959180814961628475917424504981219959529466232832 s (State.maybeFlood s) := by
  unfold State.maybeFlood
  repeat' first
    | with_reducible assumption
    | ((with_reducible apply orDec); rfl)
    | with_reducible intro _
    | with_reducible exact Fr.refl _ _ _
    | with_reducible apply Fr.ite
    | with_reducible apply Fr.step (State.startFlood_fr ..)
    | with_reducible apply Fr.step (State.learn_fr ..)
    | with_reducible apply Fr.when

theorem State.retryLinks_fr (s : State) : Fr 131122 4893107481805641041628876881598132707925130146217984 s (State.retryLinks s) := by
  unfold State.retryLinks
  repeat' first
    | with_reducible assumption
    | ((with_reducible apply orDec); rfl)
    | with_reducible intro _
    | with_reducible exact Fr.refl _ _ _
    | with_reducible apply Fr.ite
    | with_reducible apply Fr.step (State.lkMod_fr ..)
    | with_reducible apply Fr.step (State.attempt_fr ..)
    | with_reducible apply Fr.when
    | with_reducible apply Fr.each

theorem State.retrain_fr (s : State) (k : Nat) : Fr 24010188542 813059626990554845960719660615620360585111641246706704384 s (State.retrain s k) := by
  unfold State.retrain
  repeat' first
    | with_reducible assumption
    | ((with_reducible apply orDec); rfl)
    | ((with_reducible apply bitDec); rfl)
    | with_reducible intro _
    | with_reducible exact Fr.refl _ _ _
    | with_reducible apply Fr.ite
    | with_reducible apply Fr.step (State.attempt_fr ..)
    | with_reducible apply Fr.step (State.linkBale_fr ..)
    | with_reducible apply Fr.step (State.settleLost_fr ..)
    | with_reducible apply Fr.step (State.lkMod_fr ..)
    | with_reducible apply Fr.step (State.linkLost_fr ..)
    | with_reducible apply Fr.p
    | with_reducible apply Fr.when
    | with_reducible apply GLK_LINK.reg
    | ((with_reducible apply HasReg.as); simp only [GLK_LINK.LANES_addr])

theorem State.replayFrom_fr (s : State) (k i : Nat) : Fr 131072 3069854959180814961628475917423907601859876519346700288 s (State.replayFrom s k i) := by
  unfold State.replayFrom
  dsimp only
  repeat' first
    | with_reducible assumption
    | ((with_reducible apply orDec); rfl)
    | ((with_reducible apply bitDec); rfl)
    | with_reducible intro _
    | with_reducible exact Fr.refl _ _ _
    | with_reducible apply Fr.ite
    | with_reducible apply Fr.step (State.lkMod_fr ..)
    | with_reducible apply Fr.step (State.pmu_fr ..)
    | with_reducible apply Fr.step (State.emitCtrl_fr ..)
    | with_reducible apply Fr.step (State.emitData_fr ..)
    | with_reducible apply Fr.incSat
    | with_reducible apply Fr.foldl
    | with_reducible apply Fr.foldlSnd
    | with_reducible apply GLK_ERR.reg
    | ((with_reducible apply HasReg.as); simp only [GLK_ERR.REPLAY_addr])
    | split

theorem State.replayDue_fr (s : State) (k i : Nat) : Fr 24010188542 813059626990554845960719660615620388919310538464577986560 s (State.replayDue s k i) := by
  unfold State.replayDue
  repeat' first
    | with_reducible assumption
    | ((with_reducible apply orDec); rfl)
    | with_reducible intro _
    | with_reducible exact Fr.refl _ _ _
    | with_reducible apply Fr.ite
    | with_reducible apply Fr.step (State.linkFail_fr ..)
    | with_reducible apply Fr.step (State.replayFrom_fr ..)

theorem State.linkSleep_fr (s : State) (k : Nat) : Fr 131122 4893107481805641041628876881598132707925130146217984 s (State.linkSleep s k) := by
  unfold State.linkSleep
  repeat' first
    | with_reducible assumption
    | ((with_reducible apply orDec); rfl)
    | with_reducible intro _
    | with_reducible exact Fr.refl _ _ _
    | with_reducible apply Fr.ite
    | with_reducible apply Fr.step (State.glkState_fr ..)
    | with_reducible apply Fr.step (State.lkMod_fr ..)

theorem State.ringBell_fr (s : State) (k : Nat) : Fr 131106 4893107481805641041628876881595771524683695319416832 s (State.ringBell s k) := by
  unfold State.ringBell
  repeat' first
    | with_reducible assumption
    | ((with_reducible apply orDec); rfl)
    | with_reducible intro _
    | with_reducible exact Fr.refl _ _ _
    | with_reducible apply Fr.ite
    | with_reducible apply Fr.step (State.judge_fr ..)
    | with_reducible apply Fr.step (State.lkMod_fr ..)
    | with_reducible apply Fr.when
    | with_reducible apply Fr.out

end Sys2Proof.Machine
end

