-- ==== Sys2Proof/Laws/FrBarn.lean ====
section
/-!
SUPPORT. What the operations of Sys2Proof/Machine/Barn.lean may change.
-/
namespace Sys2Proof.Machine

theorem State.isolate_fr (s : State) (k cause : Nat) : Fr 24010188542 813059626990554845960719660615620379474577572725287559168 s (State.isolate s k cause) := by
  unfold State.isolate
  dsimp only
  repeat' first
    | with_reducible assumption
    | ((with_reducible apply orDec); rfl)
    | ((with_reducible apply bitDec); rfl)
    | with_reducible intro _
    | with_reducible exact Fr.refl _ _ _
    | with_reducible apply Fr.ite
    | with_reducible apply Fr.step (State.glkState_fr ..)
    | with_reducible apply Fr.step (State.linkLost_fr ..)
    | with_reducible apply Fr.step (State.settleLost_fr ..)
    | with_reducible apply Fr.step (State.raise_fr ..)
    | with_reducible apply Fr.p
    | with_reducible apply Fr.when
    | with_reducible apply Fr.hw
    | with_reducible apply HSH_CARRY.reg
    | with_reducible apply GLK_LINK.reg
    | with_reducible apply GLK_EVT.reg
    | ((with_reducible apply HasReg.as); simp only [GLK_EVT.ISOLATED_addr, GLK_LINK.ISO_CAUSE_addr, HSH_CARRY.STATE_addr])

theorem State.isolateClash_fr (s : State) : Fr 24010188542 813059626990554845960719660615620379474577572725287559168 s (State.isolateClash s) := by
  unfold State.isolateClash
  repeat' first
    | with_reducible assumption
    | ((with_reducible apply orDec); rfl)
    | with_reducible intro _
    | with_reducible exact Fr.refl _ _ _
    | with_reducible apply Fr.ite
    | with_reducible apply Fr.step (State.isolate_fr ..)
    | with_reducible apply Fr.each

theorem State.joinLate_fr (s : State) (lead : Nat) : Fr 393222 3069884189213561579686839991275901811791025182479491072 s (State.joinLate s lead) := by
  unfold State.joinLate
  repeat' first
    | with_reducible assumption
    | ((with_reducible apply orDec); rfl)
    | with_reducible intro _
    | with_reducible exact Fr.refl _ _ _
    | with_reducible apply Fr.ite
    | with_reducible apply Fr.step (State.setStep_fr ..)
    | with_reducible apply Fr.step (State.setLead_fr ..)
    | with_reducible apply Fr.step (State.fabMod_fr ..)

theorem State.confirmClaims_fr (s : State) : Fr 24010188542 813059626990554845960719660615620379474577572725287559168 s (State.confirmClaims s) := by
  unfold State.confirmClaims
  repeat' first
    | with_reducible assumption
    | ((with_reducible apply orDec); rfl)
    | with_reducible intro _
    | with_reducible exact Fr.refl _ _ _
    | with_reducible apply Fr.ite
    | with_reducible apply Fr.step (State.isolateClash_fr ..)
    | with_reducible apply Fr.step (State.fabMod_fr ..)

theorem State.formed_fr (s : State) (ms : Nat) : Fr 393216 101149569574597701896562685655199035237729935883579162624 s (State.formed s ms) := by
  unfold State.formed
  dsimp only
  repeat' first
    | with_reducible assumption
    | ((with_reducible apply orDec); rfl)
    | ((with_reducible apply bitDec); rfl)
    | with_reducible intro _
    | with_reducible exact Fr.refl _ _ _
    | with_reducible apply Fr.ite
    | with_reducible apply Fr.step (State.setStep_fr ..)
    | with_reducible apply Fr.step (State.fabMod_fr ..)
    | with_reducible apply Fr.step (State.learnedNew_fr ..)
    | with_reducible apply Fr.step (State.reportCommitted_fr ..)
    | with_reducible apply Fr.step (State.helloAll_fr ..)
    | with_reducible apply Fr.p
    | with_reducible apply Fr.when
    | with_reducible apply Fr.hw
    | with_reducible apply DRV_BARN.reg
    | with_reducible apply DRV_EVT.reg
    | with_reducible apply TOP_BOOT_TIME.reg
    | ((with_reducible apply HasReg.as); simp only [DRV_BARN.FORMED_addr, DRV_EVT.FORMED_addr, TOP_BOOT_TIME.CONNECT_addr])

theorem State.reseed_fr (s : State) (seed : Nat) : Fr 393216 3069854959180814961628475917423900518310152214878879744 s (State.reseed s seed) := by
  unfold State.reseed
  repeat' first
    | with_reducible assumption
    | ((with_reducible apply orDec); rfl)
    | with_reducible intro _
    | with_reducible exact Fr.refl _ _ _
    | with_reducible apply Fr.ite
    | with_reducible apply Fr.step (State.fabMod_fr ..)
    | with_reducible apply Fr.step (State.ctrlAll_fr ..)

theorem State.moveFlows_fr  (d kmax kmin half : Nat) : ∀ (l : List FlowRec) (moved left : Nat) (s : State), Fr 262146 4893107481783862970145936834441225385183612250357760 s (State.moveFlows d kmax kmin half l moved left s).2
  | [], moved, left, s => Fr.refl _ _ _
  | r :: t, moved, left, s => by
    unfold State.moveFlows
    repeat' first
      | with_reducible apply Fr.step (State.moveFlows_fr d kmax kmin half t _ _ _)
      | with_reducible assumption
      | ((with_reducible apply orDec); rfl)
      | ((with_reducible apply bitDec); rfl)
      | with_reducible intro _
      | with_reducible exact Fr.refl _ _ _
      | with_reducible apply Fr.ite
      | with_reducible apply Fr.step (State.setFlows_fr ..)
      | with_reducible apply Fr.step (State.fabMod_fr ..)
      | with_reducible apply Fr.step (State.record_fr ..)
      | with_reducible apply Fr.step (State.pmu_fr ..)
      | with_reducible apply Fr.inc
      | with_reducible apply DRV_REBAL.reg
      | ((with_reducible apply HasReg.as); simp only [DRV_REBAL.MOVES_addr])
      | split

theorem State.rebalance_fr (s : State) (d left : Nat) : Fr 262146 4893107481783862970145936989183730295856146612748288 s (State.rebalance s d left).2 := by
  unfold State.rebalance
  dsimp only
  repeat' first
    | with_reducible assumption
    | ((with_reducible apply orDec); rfl)
    | ((with_reducible apply bitDec); rfl)
    | with_reducible intro _
    | with_reducible exact Fr.refl _ _ _
    | with_reducible apply Fr.ite
    | with_reducible apply Fr.step (State.fabMod_fr ..)
    | with_reducible apply Fr.step (State.record_fr ..)
    | with_reducible apply Fr.step (State.moveFlows_fr ..)
    | with_reducible apply Fr.p
    | with_reducible apply Fr.when
    | with_reducible apply Fr.hw
    | with_reducible apply DRV_REBAL.reg
    | with_reducible apply DRV_EVT.reg
    | ((with_reducible apply HasReg.as); simp only [DRV_EVT.STUCK_IMBALANCE_addr, DRV_REBAL.IMBAL_addr])
    | split

end Sys2Proof.Machine
end

