-- ==== Sys2Proof/Laws/FrDrover.lean ====
section
/-!
SUPPORT. What the operations of Sys2Proof/Machine/Drover.lean may change.
-/
namespace Sys2Proof.Machine

theorem State.sendDelivered_fr (s : State) (src idx : Nat) : Fr 393216 3069854959180814961628475917423900518310152214878879744 s (State.sendDelivered s src idx) := by
  unfold State.sendDelivered
  repeat' first
    | with_reducible assumption
    | ((with_reducible apply orDec); rfl)
    | with_reducible intro _
    | with_reducible exact Fr.refl _ _ _
    | with_reducible apply Fr.ite
    | with_reducible apply Fr.step (State.fabMod_fr ..)
    | with_reducible apply Fr.step (State.ctrlTo_fr ..)
    | split

theorem State.handOver_fr (s : State) (o : FlowOpen) (b : Buf) : Fr 132096 4863877449037244911781863123279789889444906939711488 s (State.handOver s o b) := by
  unfold State.handOver
  repeat' first
    | with_reducible assumption
    | ((with_reducible apply orDec); rfl)
    | with_reducible intro _
    | with_reducible exact Fr.refl _ _ _
    | with_reducible apply Fr.ite
    | with_reducible apply Fr.step (State.pushEgress_fr ..)
    | with_reducible apply Fr.step (State.dropAt_fr ..)
    | with_reducible apply Fr.step (State.freeCells_fr ..)
    | with_reducible apply Fr.out
    | split

theorem State.fabPacket_fr (s : State) (k : Nat) (hdr mark : Bool) (a : Assembly) : Fr 394240 3069854959180814961628475917423900518310164586129522688 s (State.fabPacket s k hdr mark a) := by
  unfold State.fabPacket
  dsimp only
  repeat' first
    | with_reducible assumption
    | ((with_reducible apply orDec); rfl)
    | with_reducible intro _
    | with_reducible exact Fr.refl _ _ _
    | with_reducible apply Fr.ite
    | with_reducible apply Fr.step (State.queueData_fr ..)
    | with_reducible apply Fr.step (State.freeCells_fr ..)
    | with_reducible apply Fr.step (State.fabMod_fr ..)
    | with_reducible apply Fr.step (State.handOver_fr ..)
    | with_reducible apply Fr.step (State.sendDelivered_fr ..)
    | with_reducible apply Fr.when
    | with_reducible apply Fr.getD
    | split

theorem State.storeBale_fr (s : State) (k h : Nat) (pay : List Byte) (mark : Bool) : Fr 394240 3069854959180814961628475917423900518310164586129522688 s (State.storeBale s k h pay mark) := by
  unfold State.storeBale
  dsimp only
  repeat' first
    | with_reducible assumption
    | ((with_reducible apply orDec); rfl)
    | with_reducible intro _
    | with_reducible exact Fr.refl _ _ _
    | with_reducible apply Fr.ite
    | with_reducible apply Fr.step (State.takeCells_fr ..)
    | with_reducible apply Fr.step (State.fabPacket_fr ..)
    | with_reducible apply Fr.step (State.freeCells_fr ..)
    | with_reducible apply Fr.step (State.lkMod_fr ..)
    | split

theorem State.answerResync_fr (s : State) (src : Nat) : Fr 393216 3069854959180814961628475917423900518310152214878879744 s (State.answerResync s src) := by
  unfold State.answerResync
  dsimp only
  repeat' first
    | with_reducible assumption
    | ((with_reducible apply orDec); rfl)
    | with_reducible intro _
    | with_reducible exact Fr.refl _ _ _
    | with_reducible apply Fr.ite
    | with_reducible apply Fr.step (State.fabMod_fr ..)
    | with_reducible apply Fr.step (State.ctrlTo_fr ..)

theorem State.settleResync_fr (s : State) : Fr 393216 3069854959180814961628475917423900518310152214878879744 s (State.settleResync s) := by
  unfold State.settleResync
  repeat' first
    | with_reducible assumption
    | ((with_reducible apply orDec); rfl)
    | with_reducible intro _
    | with_reducible exact Fr.refl _ _ _
    | with_reducible apply Fr.ite
    | with_reducible apply Fr.step (State.answerResync_fr ..)
    | with_reducible apply Fr.each
    | with_reducible apply Fr.unmark

theorem State.baleRead_fr (s : State) (h ecc : Nat) (mark : Bool) : Fr 17567737594 28421910042690324559437205422914278456369725043038486528 s (State.baleRead s h ecc mark).2 := by
  unfold State.baleRead
  dsimp only
  repeat' first
    | with_reducible assumption
    | ((with_reducible apply orDec); rfl)
    | with_reducible intro _
    | with_reducible exact Fr.refl _ _ _
    | with_reducible apply Fr.ite
    | with_reducible apply Fr.step (State.eccRead_fr ..)
    | split

theorem State.dataBaleReceived_fr (s : State) (k : Fin 4) (header : BitVec 64) (payload : List (BitVec 8)) (mark : Bool) (ecc : Fin 3) : Fr 17567737594 28421910042690324559437205422914287901102690783402655744 s (State.dataBaleReceived s k header payload mark ecc) := by
  unfold State.dataBaleReceived
  repeat' first
    | with_reducible assumption
    | ((with_reducible apply orDec); rfl)
    | ((with_reducible apply bitDec); rfl)
    | with_reducible intro _
    | with_reducible exact Fr.refl _ _ _
    | with_reducible apply Fr.ite
    | with_reducible apply Fr.step (State.settleResync_fr ..)
    | with_reducible apply Fr.step (State.discardBale_fr ..)
    | with_reducible apply Fr.step (State.rxSequenced_fr ..)
    | with_reducible apply Fr.step (State.baleRead_fr ..)
    | with_reducible apply Fr.step (State.storeBale_fr ..)
    | with_reducible apply Fr.step (State.linkJudge_fr ..)
    | with_reducible apply Fr.step (State.rxHdr_fr ..)
    | with_reducible apply Fr.p
    | with_reducible apply Fr.when
    | with_reducible apply GLK_LINK.reg
    | ((with_reducible apply HasReg.as); simp only [GLK_LINK.IDLE_addr])

end Sys2Proof.Machine
end

