-- ==== Sys2Proof/Laws/FrSuperSpeed.lean ====
section
/-!
SUPPORT. What the operations of Sys2Proof/Machine/SuperSpeed.lean may change.
-/
namespace Sys2Proof.Machine

theorem State.upJudge_fr (s : State) (u : Nat) : Fr 0 4611686018427387904 s (State.upJudge s u) := by
  unfold State.upJudge
  dsimp only
  repeat' first
    | with_reducible assumption
    | ((with_reducible apply bitDec); rfl)
    | with_reducible intro _
    | with_reducible exact Fr.refl _ _ _
    | with_reducible apply Fr.ite
    | with_reducible apply Fr.p
    | with_reducible apply UPP_PADDOCK.reg
    | ((with_reducible apply HasReg.as); simp only [UPP_PADDOCK.STATE_addr])

theorem State.enter_fr (s : State) (n : Nat) (pkt : SsPacket) : Fr 1024 4863877449037244911781863123279789889444905865969664 s (State.enter s n pkt).2 := by
  unfold State.enter
  dsimp only
  repeat' first
    | with_reducible assumption
    | ((with_reducible apply orDec); rfl)
    | ((with_reducible apply bitDec); rfl)
    | with_reducible intro _
    | with_reducible exact Fr.refl _ _ _
    | with_reducible apply Fr.ite
    | with_reducible apply Fr.step (State.takeCells_fr ..)
    | with_reducible apply Fr.p
    | with_reducible apply Fr.when
    | with_reducible apply Fr.hw
    | with_reducible apply SSH_PORT.reg
    | with_reducible apply SSH_PORT_EVT.reg
    | ((with_reducible apply HasReg.as); simp only [SSH_PORT.HP_IN_addr, SSH_PORT_EVT.CRC_STOMP_addr])

theorem State.readSend_fr (s : State) (slot dest target ecc : Nat) (b : Buf) : Fr 17567737594 28421910042690324559437205422919114159648183559737311232 s (State.readSend s slot dest target ecc b) := by
  unfold State.readSend
  dsimp only
  repeat' first
    | with_reducible assumption
    | ((with_reducible apply orDec); rfl)
    | with_reducible intro _
    | with_reducible exact Fr.refl _ _ _
    | with_reducible apply Fr.ite
    | with_reducible apply Fr.step (State.readCells_fr ..)
    | with_reducible apply Fr.step (State.fabSend_fr ..)

theorem State.downstreamPacket_fr (s : State) (u : Fin 2) (pkt : SsPacket) (ecc : Fin 3) : Fr 17567737594 28421910042690324559437205422919114159648183560811053056 s (State.downstreamPacket s u pkt ecc) := by
  unfold State.downstreamPacket
  repeat' first
    | with_reducible assumption
    | ((with_reducible apply orDec); rfl)
    | with_reducible intro _
    | with_reducible exact Fr.refl _ _ _
    | with_reducible apply Fr.ite
    | with_reducible apply Fr.step (State.enter_fr ..)
    | with_reducible apply Fr.step (State.readCells_fr ..)
    | with_reducible apply Fr.step (State.freeCells_fr ..)
    | with_reducible apply Fr.step (State.readSend_fr ..)
    | with_reducible apply Fr.step (State.pushEgress_fr ..)
    | with_reducible apply Fr.step (State.dropAt_fr ..)
    | with_reducible apply Fr.out
    | split
    | dsimp only
    | with_reducible refine Fr.pair (by assumption) ?_

theorem State.sendUp_fr (s : State) (slot ecc : Nat) (b : Buf) : Fr 17567737594 28421910042690324559437205422919114159648183559737311232 s (State.sendUp s slot ecc b) := by
  unfold State.sendUp
  repeat' first
    | with_reducible assumption
    | ((with_reducible apply orDec); rfl)
    | with_reducible intro _
    | with_reducible exact Fr.refl _ _ _
    | with_reducible apply Fr.ite
    | with_reducible apply Fr.step (State.freeCells_fr ..)
    | with_reducible apply Fr.step (State.pushEgress_fr ..)
    | with_reducible apply Fr.step (State.readSend_fr ..)
    | split

theorem State.sendOut_fr (s : State) (n : Nat) (b : Buf) : Fr 131112 4863877449037244911781863123279789889444905463316480 s (State.sendOut s n b) := by
  unfold State.sendOut
  dsimp only
  repeat' first
    | with_reducible assumption
    | ((with_reducible apply orDec); rfl)
    | ((with_reducible apply bitDec); rfl)
    | with_reducible intro _
    | with_reducible exact Fr.refl _ _ _
    | with_reducible apply Fr.ite
    | with_reducible apply Fr.step (State.pmu_fr ..)
    | with_reducible apply Fr.step (State.freeCells_fr ..)
    | with_reducible apply Fr.step (State.packetAt_fr ..)
    | with_reducible apply Fr.p
    | with_reducible apply Fr.when
    | with_reducible apply Fr.each
    | with_reducible apply Fr.out
    | with_reducible apply SSH_PORT_LPM.reg
    | ((with_reducible apply HasReg.as); simp only [SSH_PORT_LPM.FW_HELD_addr])

theorem State.defer_fr (s : State) (n : Nat) (b : Buf) : Fr 17567737594 28421910042690324559437205422919114159648183560811053056 s (State.defer s n b).2 := by
  unfold State.defer
  dsimp only
  repeat' first
    | with_reducible assumption
    | ((with_reducible apply orDec); rfl)
    | ((with_reducible apply bitDec); rfl)
    | with_reducible intro _
    | with_reducible exact Fr.refl _ _ _
    | with_reducible apply Fr.ite
    | with_reducible apply Fr.step (State.pmu_fr ..)
    | with_reducible apply Fr.step (State.freeCells_fr ..)
    | with_reducible apply Fr.step (State.sendUp_fr ..)
    | with_reducible apply Fr.incSat
    | with_reducible apply Fr.out
    | with_reducible apply Fr.hw
    | with_reducible apply SSH_PORT_EVT.reg
    | with_reducible apply SSH_DROPS.reg
    | ((with_reducible apply HasReg.as); simp only [SSH_DROPS.DEFER_addr, SSH_PORT_EVT.DEFER_addr])
    | split

theorem State.egressHead_fr (s : State) (n : Nat) (ecc : Nat) : Fr 17567737594 28421910042690324559437205422919114159648183561079488512 s (State.egressHead s n ecc) := by
  unfold State.egressHead
  dsimp only
  repeat' first
    | with_reducible assumption
    | ((with_reducible apply orDec); rfl)
    | with_reducible intro _
    | with_reducible exact Fr.refl _ _ _
    | with_reducible apply Fr.ite
    | with_reducible apply Fr.step (State.readCells_fr ..)
    | with_reducible apply Fr.step (State.setEgress_fr ..)
    | with_reducible apply Fr.step (State.sendOut_fr ..)
    | with_reducible apply Fr.step (State.dropAt_fr ..)
    | with_reducible apply Fr.step (State.defer_fr ..)
    | with_reducible apply Fr.out
    | split

theorem State.wrrPick_fr (s : State) (ns : List Nat) : Fr 1024 0 s (State.wrrPick s ns).2 := by
  unfold State.wrrPick
  dsimp only
  repeat' first
    | with_reducible assumption
    | ((with_reducible apply bitDec); rfl)
    | with_reducible intro _
    | with_reducible exact Fr.refl _ _ _
    | with_reducible apply Fr.ite
    | with_reducible apply Fr.withSs

theorem State.readNext_fr (s : State) (n ecc : Nat) : Fr 17567737594 28421910042690324559437205422919114159648183561079488512 s (State.readNext s n ecc) := by
  unfold State.readNext
  dsimp only
  repeat' first
    | with_reducible assumption
    | ((with_reducible apply orDec); rfl)
    | with_reducible intro _
    | with_reducible exact Fr.refl _ _ _
    | with_reducible apply Fr.ite
    | with_reducible apply Fr.step (State.egressHead_fr ..)
    | with_reducible apply Fr.step (State.wrrPick_fr ..)
    | with_reducible apply Fr.when
    | with_reducible apply Fr.mark
    | with_reducible apply Fr.unmark
    | with_reducible apply Fr.getD
    | split

theorem State.sendHeld_fr (s : State) (n : Nat) : Fr 132136 4863877449037244911781863123279789889444905597534208 s (State.sendHeld s n) := by
  unfold State.sendHeld
  dsimp only
  repeat' first
    | with_reducible assumption
    | ((with_reducible apply orDec); rfl)
    | with_reducible intro _
    | with_reducible exact Fr.refl _ _ _
    | with_reducible apply Fr.ite
    | with_reducible apply Fr.step (State.setEgress_fr ..)
    | with_reducible apply Fr.step (State.sendOut_fr ..)
    | with_reducible apply Fr.foldl

theorem State.dropUpstream_fr (s : State) (u : Nat) : Fr 394240 4863877449037244911781863128115493167903423638536192 s (State.dropUpstream s u) := by
  unfold State.dropUpstream
  dsimp only
  repeat' first
    | with_reducible assumption
    | ((with_reducible apply orDec); rfl)
    | with_reducible intro _
    | with_reducible exact Fr.refl _ _ _
    | with_reducible apply Fr.ite
    | with_reducible apply Fr.step (State.dropUnsent_fr ..)
    | with_reducible apply Fr.step (State.dropAt_fr ..)
    | with_reducible apply Fr.step (State.setEgress_fr ..)
    | with_reducible apply Fr.step (State.fabMod_fr ..)
    | with_reducible apply Fr.each
    | with_reducible apply Fr.foldl

end Sys2Proof.Machine
end

