-- ==== Sys2Proof/Laws/FrTt.lean ====
section
/-!
SUPPORT. What the operations of Sys2Proof/Machine/Tt.lean may change.
-/
namespace Sys2Proof.Machine

theorem State.ttShow_fr (s : State) (n : Nat) : Fr 50 4893107481805641041628876881595771668798883399467008 s (State.ttShow s n) := by
  unfold State.ttShow
  dsimp only
  repeat' first
    | with_reducible assumption
    | ((with_reducible apply orDec); rfl)
    | ((with_reducible apply bitDec); rfl)
    | with_reducible intro _
    | with_reducible exact Fr.refl _ _ _
    | with_reducible apply Fr.ite
    | with_reducible apply Fr.step (State.linkJudge_fr ..)
    | with_reducible apply Fr.p
    | with_reducible apply TTA_TT.reg
    | ((with_reducible apply HasReg.as); simp only [TTA_TT.NP_USED_addr, TTA_TT.PER_USED_addr, TTA_TT.STATE_addr])

theorem State.ttMod_fr (s : State) (n : Nat) (f : TtS → TtS) : Fr 32818 4893107481805641041628876881595771668798883399467008 s (State.ttMod s n f) := by
  unfold State.ttMod
  repeat' first
    | with_reducible assumption
    | ((with_reducible apply orDec); rfl)
    | ((with_reducible apply bitDec); rfl)
    | with_reducible intro _
    | with_reducible exact Fr.refl _ _ _
    | with_reducible apply Fr.ite
    | with_reducible apply Fr.step (State.ttShow_fr ..)
    | with_reducible apply Fr.withTt

theorem State.ttBoundary_fr (s : State) (n uframe frame : Nat) : Fr 32818 4893107481805641041628876881595771668798883399467008 s (State.ttBoundary s n uframe frame) := by
  unfold State.ttBoundary
  dsimp only
  repeat' first
    | with_reducible assumption
    | ((with_reducible apply orDec); rfl)
    | ((with_reducible apply bitDec); rfl)
    | with_reducible intro _
    | with_reducible exact Fr.refl _ _ _
    | with_reducible apply Fr.ite
    | with_reducible apply Fr.step (State.ttMod_fr ..)
    | with_reducible apply Fr.p
    | with_reducible apply Fr.when
    | with_reducible apply Fr.out
    | with_reducible apply TTA_TT.reg
    | ((with_reducible apply HasReg.as); simp only [TTA_TT.UFRAME_addr])

theorem State.ttReset_fr (s : State) (n : Nat) : Fr 32818 4893107481805641041628876881595771957029259551178752 s (State.ttReset s n) := by
  unfold State.ttReset
  dsimp only
  repeat' first
    | with_reducible assumption
    | ((with_reducible apply orDec); rfl)
    | ((with_reducible apply bitDec); rfl)
    | with_reducible intro _
    | with_reducible exact Fr.refl _ _ _
    | with_reducible apply Fr.ite
    | with_reducible apply Fr.step (State.ttMod_fr ..)
    | with_reducible apply Fr.when
    | with_reducible apply Fr.out
    | with_reducible apply Fr.hw
    | with_reducible apply TTA_EVT.reg
    | ((with_reducible apply HasReg.as); simp only [TTA_EVT.RESET_addr])

theorem State.ttClear_fr (s : State) (n dev ep : Nat) (bulk dirIn : Bool) : Fr 32818 4893107481805641041628876881595771957029259551178752 s (State.ttClear s n dev ep bulk dirIn).2 := by
  unfold State.ttClear
  dsimp only
  repeat' first
    | with_reducible assumption
    | ((with_reducible apply orDec); rfl)
    | ((with_reducible apply bitDec); rfl)
    | with_reducible intro _
    | with_reducible exact Fr.refl _ _ _
    | with_reducible apply Fr.ite
    | with_reducible apply Fr.step (State.ttMod_fr ..)
    | with_reducible apply Fr.hw
    | with_reducible apply TTA_EVT.reg
    | ((with_reducible apply HasReg.as); simp only [TTA_EVT.CLEARED_addr])
    | split

theorem State.ttStop_fr (s : State) (n : Nat) : Fr 32818 4893107481805641041628876881595771668798883399467008 s (State.ttStop s n).2 := by
  unfold State.ttStop
  repeat' first
    | with_reducible assumption
    | ((with_reducible apply orDec); rfl)
    | with_reducible intro _
    | with_reducible exact Fr.refl _ _ _
    | with_reducible apply Fr.ite
    | with_reducible apply Fr.step (State.ttMod_fr ..)

theorem State.ttStart_fr (s : State) (n : Nat) : Fr 32818 4893107481805641041628876881595771668798883399467008 s (State.ttStart s n) := by
  unfold State.ttStart
  repeat' first
    | with_reducible assumption
    | ((with_reducible apply orDec); rfl)
    | with_reducible intro _
    | with_reducible exact Fr.refl _ _ _
    | with_reducible apply Fr.ite
    | with_reducible apply Fr.step (State.ttMod_fr ..)

theorem State.ttCommand_fr (s : State) (w : Word) : Fr 98354 4893107481805641041628876881595773109950764158025728 s (State.ttCommand s w) := by
  unfold State.ttCommand
  repeat' first
    | with_reducible assumption
    | ((with_reducible apply orDec); rfl)
    | ((with_reducible apply bitDec); rfl)
    | with_reducible intro _
    | with_reducible exact Fr.refl _ _ _
    | with_reducible apply Fr.ite
    | with_reducible apply Fr.step (State.ttClear_fr ..)
    | with_reducible apply Fr.step (State.ttReset_fr ..)
    | with_reducible apply Fr.step (State.ttStop_fr ..)
    | with_reducible apply Fr.step (State.ttStart_fr ..)
    | with_reducible apply Fr.p
    | with_reducible apply Fr.hw
    | with_reducible apply Fr.withTtOp
    | with_reducible apply TTA_CMD.reg
    | ((with_reducible apply HasReg.as); simp only [TTA_CMD.BUSY_addr, TTA_CMD.DEV_addr, TTA_CMD.DIR_addr, TTA_CMD.DONE_addr, TTA_CMD.EP_addr, TTA_CMD.STALL_addr, TTA_CMD.TYPE_addr])
    | split

theorem State.ttaOpDone_fr (s : State) : Fr 65536 1441151880758558720 s (State.ttaOpDone s) := by
  unfold State.ttaOpDone
  dsimp only
  repeat' first
    | with_reducible assumption
    | ((with_reducible apply bitDec); rfl)
    | with_reducible intro _
    | with_reducible exact Fr.refl _ _ _
    | with_reducible apply Fr.ite
    | with_reducible apply Fr.p
    | with_reducible apply Fr.when
    | with_reducible apply Fr.hw
    | with_reducible apply Fr.withTtOp
    | with_reducible apply TTA_EVT.reg
    | with_reducible apply TTA_CMD.reg
    | ((with_reducible apply HasReg.as); simp only [TTA_CMD.BUSY_addr, TTA_CMD.DONE_addr, TTA_EVT.CLEARED_addr])

end Sys2Proof.Machine
end

