-- ==== Sys2Proof/Laws/FrUsb2.lean ====
section
/-!
SUPPORT. What the operations of Sys2Proof/Machine/Usb2.lean may change.
-/
namespace Sys2Proof.Machine

theorem State.hsMod_fr (s : State) (f : HsS → HsS) : Fr 16384 0 s (State.hsMod s f) := by
  unfold State.hsMod
  repeat' first
    | with_reducible assumption
    | ((with_reducible apply bitDec); rfl)
    | with_reducible intro _
    | with_reducible exact Fr.refl _ _ _
    | with_reducible apply Fr.ite
    | with_reducible apply Fr.withHs

theorem State.dataPowerOff_fr (s : State) (n : Nat) : Fr 1983546 3069884189213583357758322931182216499946546867352895488 s (State.dataPowerOff s n) := by
  unfold State.dataPowerOff
  dsimp only
  repeat' first
    | with_reducible assumption
    | ((with_reducible apply orDec); rfl)
    | ((with_reducible apply bitDec); rfl)
    | with_reducible intro _
    | with_reducible exact Fr.refl _ _ _
    | with_reducible apply Fr.ite
    | with_reducible apply Fr.step (State.mirLocal_fr ..)
    | with_reducible apply Fr.step (State.patIdle_fr ..)
    | with_reducible apply Fr.step (State.hsState_fr ..)
    | with_reducible apply Fr.step (State.ssLink_fr ..)
    | with_reducible apply Fr.step (State.hsMod_fr ..)
    | with_reducible apply Fr.p
    | with_reducible apply HSH_PORT.reg
    | ((with_reducible apply HasReg.as); simp only [HSH_PORT.CONNECT_addr, HSH_PORT.SPEED_addr])

theorem State.dataPowerOn_fr (s : State) (n : Nat) : Fr 1967162 3069884189213583357758322931182216499946546867352895488 s (State.dataPowerOn s n) := by
  unfold State.dataPowerOn
  dsimp only
  repeat' first
    | with_reducible assumption
    | ((with_reducible apply orDec); rfl)
    | with_reducible intro _
    | with_reducible exact Fr.refl _ _ _
    | with_reducible apply Fr.ite
    | with_reducible apply Fr.step (State.hsState_fr ..)
    | with_reducible apply Fr.step (State.ssLink_fr ..)
    | with_reducible apply Fr.when

theorem State.powerOn_fr (s : State) (n : Nat) : Fr 17567737594 28421910042690324601972704112127622905995755260150284288 s (State.powerOn s n) := by
  unfold State.powerOn
  repeat' first
    | with_reducible assumption
    | ((with_reducible apply orDec); rfl)
    | with_reducible intro _
    | with_reducible exact Fr.refl _ _ _
    | with_reducible apply Fr.ite
    | with_reducible apply Fr.step (State.toUnattached_fr ..)
    | with_reducible apply Fr.step (State.tryRamp_fr ..)
    | with_reducible apply Fr.step (State.dataPowerOn_fr ..)
    | with_reducible apply Fr.when
    | split

theorem State.powerOffPort_fr (s : State) (n : Nat) : Fr 17215407866 3069884189213583442829006009012331234000683531671437312 s (State.powerOffPort s n) := by
  unfold State.powerOffPort
  repeat' first
    | with_reducible assumption
    | ((with_reducible apply orDec); rfl)
    | ((with_reducible apply bitDec); rfl)
    | with_reducible intro _
    | with_reducible exact Fr.refl _ _ _
    | with_reducible apply Fr.ite
    | with_reducible apply Fr.step (State.dataPowerOff_fr ..)
    | with_reducible apply Fr.step (State.toUnattached_fr ..)
    | with_reducible apply Fr.step (State.powerDown_fr ..)
    | with_reducible apply Fr.step (State.switchOff_fr ..)
    | with_reducible apply Fr.p
    | with_reducible apply Fr.when
    | with_reducible apply Fr.hw
    | with_reducible apply TCP_EVT.reg
    | with_reducible apply PPW_STATUS.reg
    | ((with_reducible apply HasReg.as); simp only [PPW_STATUS.STATE_addr, TCP_EVT.DETACH_addr])
    | split

theorem State.sidePower_fr (s : State) (n : Nat) (ss on : Bool) : Fr 17567737594 28421910042690324601972704151741704163127924056922259456 s (State.sidePower s n ss on) := by
  unfold State.sidePower
  dsimp only
  repeat' first
    | with_reducible assumption
    | ((with_reducible apply orDec); rfl)
    | with_reducible intro _
    | with_reducible exact Fr.refl _ _ _
    | with_reducible apply Fr.ite
    | with_reducible apply Fr.step (State.mirLocal_fr ..)
    | with_reducible apply Fr.step (State.chMod_fr ..)
    | with_reducible apply Fr.step (State.powerOn_fr ..)
    | with_reducible apply Fr.step (State.powerOffPort_fr ..)

theorem State.finishWait_fr (s : State) (w : HubWait) (words : List Nat) : Fr 34362228736 3069854959180814961628475917423900518310152214878879744 s (State.finishWait s w words) := by
  unfold State.finishWait
  dsimp only
  repeat' first
    | with_reducible assumption
    | ((with_reducible apply orDec); rfl)
    | ((with_reducible apply bitDec); rfl)
    | with_reducible intro _
    | with_reducible exact Fr.refl _ _ _
    | with_reducible apply Fr.ite
    | with_reducible apply Fr.step (State.hubData_fr ..)
    | with_reducible apply Fr.step (State.ctrlTo_fr ..)
    | with_reducible apply Fr.out
    | with_reducible apply Fr.withHubWaits

theorem State.runTtWaits_fr  : ∀ (fuel : Nat) (s : State), Fr 34362327090 3069884189213583357758322931182216501530688035533881344 s (State.runTtWaits fuel s)
  | 0, s => Fr.refl _ _ _
  | fuel + 1, s => by
    unfold State.runTtWaits
    repeat' first
      | with_reducible apply Fr.step (State.runTtWaits_fr fuel _)
      | with_reducible assumption
      | ((with_reducible apply orDec); rfl)
      | with_reducible intro _
      | with_reducible exact Fr.refl _ _ _
      | with_reducible apply Fr.ite
      | with_reducible apply Fr.step (State.ttCommand_fr ..)
      | with_reducible apply Fr.step (State.finishWait_fr ..)
      | split

theorem State.beginWait_fr (s : State) (w : HubWait) : Fr 34362327090 3069884189213583357758322931182216501530688035533881344 s (State.beginWait s w) := by
  unfold State.beginWait
  dsimp only
  repeat' first
    | with_reducible assumption
    | ((with_reducible apply orDec); rfl)
    | ((with_reducible apply bitDec); rfl)
    | with_reducible intro _
    | with_reducible exact Fr.refl _ _ _
    | with_reducible apply Fr.ite
    | with_reducible apply Fr.step (State.runTtWaits_fr ..)
    | with_reducible apply Fr.step (State.finishWait_fr ..)
    | with_reducible apply Fr.out
    | with_reducible apply Fr.withHubWaits
    | split

theorem State.detachStall_fr (s : State) (n : Nat) : Fr 2016314 3069884189213583357758322931182216500378904802160017408 s (State.detachStall s n) := by
  unfold State.detachStall
  dsimp only
  repeat' first
    | with_reducible assumption
    | ((with_reducible apply orDec); rfl)
    | with_reducible intro _
    | with_reducible exact Fr.refl _ _ _
    | with_reducible apply Fr.ite
    | with_reducible apply Fr.step (State.dropAt_fr ..)
    | with_reducible apply Fr.step (State.setEgress_fr ..)
    | with_reducible apply Fr.step (State.ttReset_fr ..)
    | with_reducible apply Fr.step (State.dataOff_fr ..)
    | with_reducible apply Fr.step (State.mirLocal_fr ..)
    | with_reducible apply Fr.step (State.hsMod_fr ..)
    | with_reducible apply Fr.foldl

theorem State.handShow_fr (s : State) (m n step ms src dest : Nat) (shown : Bool) : Fr 0 442721857769029238784 s (State.handShow s m n step ms src dest shown) := by
  unfold State.handShow
  dsimp only
  repeat' first
    | with_reducible assumption
    | ((with_reducible apply bitDec); rfl)
    | with_reducible intro _
    | with_reducible exact Fr.refl _ _ _
    | with_reducible apply Fr.ite
    | with_reducible apply Fr.p
    | with_reducible apply Fr.when
    | with_reducible apply Fr.hw
    | with_reducible apply UPP_HANDOFF.reg
    | with_reducible apply UPP_EVT.reg
    | ((with_reducible apply HasReg.as); simp only [UPP_EVT.HANDOFF_DONE_addr, UPP_HANDOFF.ELAPSED_addr, UPP_HANDOFF.FROM_addr, UPP_HANDOFF.STALL_addr, UPP_HANDOFF.STEP_addr, UPP_HANDOFF.TO_addr])

theorem State.handRecord_fr (s : State) (m n src dest ms : Nat) : Fr 2 4893107481783862970145936819934115549808062153883648 s (State.handRecord s m n src dest ms) := by
  unfold State.handRecord
  repeat' first
    | with_reducible assumption
    | ((with_reducible apply orDec); rfl)
    | with_reducible intro _
    | with_reducible exact Fr.refl _ _ _
    | with_reducible apply Fr.ite
    | with_reducible apply Fr.step (State.record_fr ..)
    | with_reducible apply Fr.when

theorem State.resetStall_fr (s : State) (n : Nat) (host : Bool) : Fr 17567770362 28421910042690324601972704151741704163560269621149827072 s (State.resetStall s n host) := by
  unfold State.resetStall
  dsimp only
  repeat' first
    | with_reducible assumption
    | ((with_reducible apply orDec); rfl)
    | with_reducible intro _
    | with_reducible exact Fr.refl _ _ _
    | with_reducible apply Fr.ite
    | with_reducible apply Fr.step (State.chMod_fr ..)
    | with_reducible apply Fr.step (State.ttReset_fr ..)
    | with_reducible apply Fr.step (State.sidePower_fr ..)
    | with_reducible apply Fr.step (State.hsMod_fr ..)
    | with_reducible apply Fr.step (State.powerOffPort_fr ..)

theorem State.handDetach_fr (s : State) (m n : Nat) : Fr 17571964666 28421910042690324601972704151741704163560269622223568896 s (State.handDetach s m n) := by
  unfold State.handDetach
  dsimp only
  repeat' first
    | with_reducible assumption
    | ((with_reducible apply orDec); rfl)
    | ((with_reducible apply bitDec); rfl)
    | with_reducible intro _
    | with_reducible exact Fr.refl _ _ _
    | with_reducible apply Fr.ite
    | with_reducible apply Fr.step (State.detachStall_fr ..)
    | with_reducible apply Fr.step (State.resetStall_fr ..)
    | with_reducible apply Fr.step (State.cdpStall_fr ..)
    | with_reducible apply Fr.step (State.hsMod_fr ..)
    | with_reducible apply Fr.when
    | with_reducible apply Fr.withSs
    | with_reducible apply Fr.withMirror
    | with_reducible apply Fr.withHolders
    | with_reducible apply Fr.getD
    | split

theorem State.handRebind_fr (s : State) (m n dest : Nat) : Fr 17218142312 1125900317884416 s (State.handRebind s m n dest) := by
  unfold State.handRebind
  dsimp only
  repeat' first
    | with_reducible assumption
    | ((with_reducible apply orDec); rfl)
    | ((with_reducible apply bitDec); rfl)
    | with_reducible intro _
    | with_reducible exact Fr.refl _ _ _
    | with_reducible apply Fr.ite
    | with_reducible apply Fr.step (State.patIdle_fr ..)
    | with_reducible apply Fr.step (State.moveEntries_fr ..)
    | with_reducible apply Fr.step (State.cdpStall_fr ..)
    | with_reducible apply Fr.step (State.chMod_fr ..)
    | with_reducible apply Fr.p
    | with_reducible apply Fr.when
    | with_reducible apply Fr.withHolders
    | with_reducible apply Fr.withPort
    | with_reducible apply Fr.getD
    | with_reducible apply SSH_PORT.reg
    | with_reducible apply SSH_PORT_LPM.reg
    | with_reducible apply HSH_PORT.reg
    | ((with_reducible apply HasReg.as); simp only [HSH_PORT.ENGINE_addr, HSH_PORT.REMOTE_addr, SSH_PORT.CTX_addr, SSH_PORT_LPM.U1_TIMEOUT_addr, SSH_PORT_LPM.U2_TIMEOUT_addr])

theorem State.handAttach_fr (s : State) (m n src dest ms : Nat) (hs ss : Bool) : Fr 17567737594 28421910042690324601972704112127622905995755260150284288 s (State.handAttach s m n src dest ms hs ss) := by
  unfold State.handAttach
  repeat' first
    | with_reducible assumption
    | ((with_reducible apply orDec); rfl)
    | ((with_reducible apply bitDec); rfl)
    | with_reducible intro _
    | with_reducible exact Fr.refl _ _ _
    | with_reducible apply Fr.ite
    | with_reducible apply Fr.step (State.chMod_fr ..)
    | with_reducible apply Fr.step (State.powerOn_fr ..)
    | with_reducible apply Fr.step (State.hsState_fr ..)
    | with_reducible apply Fr.step (State.dataPowerOff_fr ..)
    | with_reducible apply Fr.step (State.hsMod_fr ..)
    | with_reducible apply Fr.step (State.tryRamp_fr ..)
    | with_reducible apply Fr.step (State.handRecord_fr ..)
    | with_reducible apply Fr.step (State.mirSend_fr ..)
    | with_reducible apply Fr.when
    | with_reducible apply Fr.withPort

theorem State.penLost_fr (s : State) (slot pen : Nat) : Fr 2016306 3069884189213583357758322931182216500381707180600983552 s (State.penLost s slot pen) := by
  unfold State.penLost
  dsimp only
  repeat' first
    | with_reducible assumption
    | ((with_reducible apply orDec); rfl)
    | ((with_reducible apply bitDec); rfl)
    | with_reducible intro _
    | with_reducible exact Fr.refl _ _ _
    | with_reducible apply Fr.ite
    | with_reducible apply Fr.step (State.engState_fr ..)
    | with_reducible apply Fr.step (State.hsState_fr ..)
    | with_reducible apply Fr.step (State.ttReset_fr ..)
    | with_reducible apply Fr.step (State.mirLocal_fr ..)
    | with_reducible apply Fr.step (State.hsMod_fr ..)
    | with_reducible apply Fr.p
    | with_reducible apply Fr.each
    | with_reducible apply Fr.hw
    | with_reducible apply Fr.withMirror
    | with_reducible apply HSH_ENG.reg
    | with_reducible apply HSH_PORT.reg
    | with_reducible apply HSH_PORT_EVT.reg
    | ((with_reducible apply HasReg.as); simp only [HSH_ENG.ADDR_addr, HSH_PORT.CONNECT_addr, HSH_PORT.SPEED_addr, HSH_PORT_EVT.CARRY_LOST_addr])

theorem State.penServed_fr (s : State) (slot pen : Nat) (up : Bool) : Fr 1064960 0 s (State.penServed s slot pen up) := by
  unfold State.penServed
  dsimp only
  repeat' first
    | with_reducible assumption
    | ((with_reducible apply orDec); rfl)
    | ((with_reducible apply bitDec); rfl)
    | with_reducible intro _
    | with_reducible exact Fr.refl _ _ _
    | with_reducible apply Fr.ite
    | with_reducible apply Fr.step (State.hsMod_fr ..)
    | with_reducible apply Fr.withMirror

theorem State.resetBus_fr (s : State) (slot hub : Nat) : Fr 17567770362 28421910042690324601972704151741704163560269621149827072 s (State.resetBus s slot hub) := by
  unfold State.resetBus
  dsimp only
  repeat' first
    | with_reducible assumption
    | ((with_reducible apply orDec); rfl)
    | ((with_reducible apply bitDec); rfl)
    | with_reducible intro _
    | with_reducible exact Fr.refl _ _ _
    | with_reducible apply Fr.ite
    | with_reducible apply Fr.step (State.engState_fr ..)
    | with_reducible apply Fr.step (State.hsMod_fr ..)
    | with_reducible apply Fr.step (State.resetStall_fr ..)
    | with_reducible apply Fr.p
    | with_reducible apply Fr.when
    | with_reducible apply Fr.each
    | with_reducible apply Fr.withMirror
    | with_reducible apply HSH_ENG.reg
    | ((with_reducible apply HasReg.as); simp only [HSH_ENG.ADDR_addr])

theorem State.dropOfSlot_fr (s : State) (slot : Nat) : Fr 394240 4863877449037244911781863128115493167903423638536192 s (State.dropOfSlot s slot) := by
  unfold State.dropOfSlot
  dsimp only
  repeat' first
    | with_reducible assumption
    | ((with_reducible apply orDec); rfl)
    | with_reducible intro _
    | with_reducible exact Fr.refl _ _ _
    | with_reducible apply Fr.ite
    | with_reducible apply Fr.step (State.dropAt_fr ..)
    | with_reducible apply Fr.step (State.fabMod_fr ..)
    | with_reducible apply Fr.step (State.dropUnsent_fr ..)
    | with_reducible apply Fr.step (State.setEgress_fr ..)
    | with_reducible apply Fr.each
    | with_reducible apply Fr.foldl

theorem State.doAct_fr (s : State) (slot n : Nat) (act : PortAct) : Fr 17571964666 28421910042690324601972704151746540309562837708033753088 s (State.doAct s slot n act) := by
  unfold State.doAct
  dsimp only
  repeat' first
    | with_reducible assumption
    | ((with_reducible apply orDec); rfl)
    | ((with_reducible apply bitDec); rfl)
    | with_reducible intro _
    | with_reducible exact Fr.refl _ _ _
    | with_reducible apply Fr.ite
    | with_reducible apply Fr.step (State.ttReset_fr ..)
    | with_reducible apply Fr.step (State.hsState_fr ..)
    | with_reducible apply Fr.step (State.hsMod_fr ..)
    | with_reducible apply Fr.step (State.mirLocal_fr ..)
    | with_reducible apply Fr.step (State.engState_fr ..)
    | with_reducible apply Fr.step (State.resetBus_fr ..)
    | with_reducible apply Fr.step (State.sidePower_fr ..)
    | with_reducible apply Fr.step (State.ssLink_fr ..)
    | with_reducible apply Fr.step (State.mirSend_fr ..)
    | with_reducible apply Fr.step (State.linkJudge_fr ..)
    | with_reducible apply Fr.step (State.ssHubOff_fr ..)
    | with_reducible apply Fr.step (State.dropOfSlot_fr ..)
    | with_reducible apply Fr.step (State.defaultPower_fr ..)
    | with_reducible apply Fr.step (State.tryRamp_fr ..)
    | with_reducible apply Fr.step (State.cdpJudge_fr ..)
    | with_reducible apply Fr.step (State.hubReset_fr ..)
    | with_reducible apply Fr.step (State.penServed_fr ..)
    | with_reducible apply Fr.step (State.penLost_fr ..)
    | with_reducible apply Fr.step (State.handDetach_fr ..)
    | with_reducible apply Fr.step (State.handRebind_fr ..)
    | with_reducible apply Fr.step (State.handAttach_fr ..)
    | with_reducible apply Fr.step (State.handShow_fr ..)
    | with_reducible apply Fr.step (State.wakeHost_fr ..)
    | with_reducible apply Fr.p
    | with_reducible apply Fr.when
    | with_reducible apply Fr.each
    | with_reducible apply Fr.out
    | with_reducible apply Fr.hw
    | with_reducible apply Fr.withPort
    | with_reducible apply Fr.withSs
    | with_reducible apply SSH_PORT.reg
    | with_reducible apply SSH_PORT_LPM.reg
    | with_reducible apply SSH_PORT_EVT.reg
    | with_reducible apply HSH_PORT_EVT.reg
    | with_reducible apply UPP_EVT.reg
    | ((with_reducible apply HasReg.as); simp only [HSH_PORT_EVT.L1_EXIT_addr, HSH_PORT_EVT.RESUME_DONE_addr, SSH_PORT.LINK_addr, SSH_PORT_EVT.LINK_CHG_addr, SSH_PORT_LPM.FW_HELD_addr, SSH_PORT_LPM.U1_TIMEOUT_addr, SSH_PORT_LPM.U2_TIMEOUT_addr, UPP_EVT.KVM_IGNORED_addr])
    | split

theorem State.arrive_fr (s : State) (owner slot n stamp : Nat) (act : PortAct) : Fr 51933865722 28421910042690324601972704151746540310733773611150082048 s (State.arrive s owner slot n stamp act) := by
  unfold State.arrive
  repeat' first
    | with_reducible assumption
    | ((with_reducible apply orDec); rfl)
    | ((with_reducible apply bitDec); rfl)
    | with_reducible intro _
    | with_reducible exact Fr.refl _ _ _
    | with_reducible apply Fr.ite
    | with_reducible apply Fr.step (State.beginWait_fr ..)
    | with_reducible apply Fr.step (State.doAct_fr ..)
    | with_reducible apply Fr.step (State.hsMod_fr ..)
    | with_reducible apply Fr.incSat
    | with_reducible apply Fr.each
    | with_reducible apply Fr.hw
    | with_reducible apply HSH_PORT_EVT.reg
    | with_reducible apply HSH_ORDERS.reg
    | ((with_reducible apply HasReg.as); simp only [HSH_ORDERS.LATE_addr, HSH_PORT_EVT.LATE_ORDER_addr])
    | split

theorem State.issue_fr (s : State) (slot m n : Nat) (act : PortAct) : Fr 51933865722 28421910042690324601972704151746540310733773611150082048 s (State.issue s slot m n act) := by
  unfold State.issue
  dsimp only
  repeat' first
    | with_reducible assumption
    | ((with_reducible apply orDec); rfl)
    | ((with_reducible apply bitDec); rfl)
    | with_reducible intro _
    | with_reducible exact Fr.refl _ _ _
    | with_reducible apply Fr.ite
    | with_reducible apply Fr.step (State.pmu_fr ..)
    | with_reducible apply Fr.step (State.arrive_fr ..)
    | with_reducible apply Fr.step (State.ctrlTo_fr ..)
    | with_reducible apply Fr.inc
    | with_reducible apply Fr.when
    | with_reducible apply HSH_ORDERS.reg
    | ((with_reducible apply HasReg.as); simp only [HSH_ORDERS.SENT_addr])

theorem State.issueAll_fr (s : State) (slot : Nat) (act : PortAct) : Fr 51933865722 28421910042690324601972704151746540310733773611150082048 s (State.issueAll s slot act) := by
  unfold State.issueAll
  repeat' first
    | with_reducible assumption
    | ((with_reducible apply orDec); rfl)
    | with_reducible intro _
    | with_reducible exact Fr.refl _ _ _
    | with_reducible apply Fr.ite
    | with_reducible apply Fr.step (State.issue_fr ..)
    | with_reducible apply Fr.each

theorem State.runOrder_fr (s : State) (p : Order → Bool) (kind : PortAct → Bool) : Fr 17571964666 28421910042690324601972704151746540309562837708033753088 s (State.runOrder s p kind) := by
  unfold State.runOrder
  repeat' first
    | with_reducible assumption
    | ((with_reducible apply orDec); rfl)
    | with_reducible intro _
    | with_reducible exact Fr.refl _ _ _
    | with_reducible apply Fr.ite
    | with_reducible apply Fr.step (State.doAct_fr ..)
    | with_reducible apply Fr.step (State.hsMod_fr ..)
    | split

theorem State.unreset_fr (s : State) (n : Nat) : Fr 1703936 2251799813685248 s (State.unreset s n) := by
  unfold State.unreset
  repeat' first
    | with_reducible assumption
    | ((with_reducible apply orDec); rfl)
    | ((with_reducible apply bitDec); rfl)
    | with_reducible intro _
    | with_reducible exact Fr.refl _ _ _
    | with_reducible apply Fr.ite
    | with_reducible apply Fr.step (State.lkMod_fr ..)
    | with_reducible apply Fr.step (State.mirMod_fr ..)
    | with_reducible apply Fr.p
    | with_reducible apply Fr.when
    | with_reducible apply Fr.each
    | with_reducible apply Fr.withPort
    | with_reducible apply Fr.getD
    | with_reducible apply HSH_PORT_EVT.reg
    | ((with_reducible apply HasReg.as); simp only [HSH_PORT_EVT.RESET_DONE_addr])
    | split
    | dsimp only

theorem State.hostK_fr (s : State) (u : Nat) : Fr 51933865722 28421910042690324601972704151746540310733773611150082048 s (State.hostK s u) := by
  unfold State.hostK
  repeat' first
    | with_reducible assumption
    | ((with_reducible apply orDec); rfl)
    | with_reducible intro _
    | with_reducible exact Fr.refl _ _ _
    | with_reducible apply Fr.ite
    | with_reducible apply Fr.step (State.hsMod_fr ..)
    | with_reducible apply Fr.step (State.upJudge_fr ..)
    | with_reducible apply Fr.step (State.issueAll_fr ..)
    | with_reducible apply Fr.step (State.engState_fr ..)
    | with_reducible apply Fr.step (State.issue_fr ..)
    | with_reducible apply Fr.when
    | with_reducible apply Fr.out
    | with_reducible apply Fr.foldl
    | with_reducible apply Fr.foldlSnd
    | split

theorem State.wakeUp_fr (s : State) (slot : Nat) : Fr 16434 4893107481805641041628876881595771533690894578352128 s (State.wakeUp s slot) := by
  unfold State.wakeUp
  dsimp only
  repeat' first
    | with_reducible assumption
    | ((with_reducible apply orDec); rfl)
    | ((with_reducible apply bitDec); rfl)
    | with_reducible intro _
    | with_reducible exact Fr.refl _ _ _
    | with_reducible apply Fr.ite
    | with_reducible apply Fr.step (State.hsMod_fr ..)
    | with_reducible apply Fr.step (State.activity_fr ..)
    | with_reducible apply Fr.when
    | with_reducible apply Fr.each
    | with_reducible apply Fr.out
    | with_reducible apply Fr.hw
    | with_reducible apply HSH_EVT.reg
    | ((with_reducible apply HasReg.as); simp only [HSH_EVT.COLLISION_addr])
    | split

theorem State.reportWake_fr (s : State) (slot n : Nat) : Fr 409650 3069884189213583357758322931182216499954428165954207744 s (State.reportWake s slot n) := by
  unfold State.reportWake
  repeat' first
    | with_reducible assumption
    | ((with_reducible apply orDec); rfl)
    | with_reducible intro _
    | with_reducible exact Fr.refl _ _ _
    | with_reducible apply Fr.ite
    | with_reducible apply Fr.step (State.wakeUp_fr ..)
    | with_reducible apply Fr.step (State.ctrlTo_fr ..)
    | split

theorem State.deviceK_fr (s : State) (slot n : Nat) : Fr 17571964666 28421910042690324601972704151746540309571844907288494080 s (State.deviceK s slot n) := by
  unfold State.deviceK
  repeat' first
    | with_reducible assumption
    | ((with_reducible apply orDec); rfl)
    | ((with_reducible apply bitDec); rfl)
    | with_reducible intro _
    | with_reducible exact Fr.refl _ _ _
    | with_reducible apply Fr.ite
    | with_reducible apply Fr.step (State.hsMod_fr ..)
    | with_reducible apply Fr.step (State.hsState_fr ..)
    | with_reducible apply Fr.step (State.reportWake_fr ..)
    | with_reducible apply Fr.step (State.doAct_fr ..)
    | with_reducible apply Fr.when
    | with_reducible apply Fr.out
    | with_reducible apply Fr.hw
    | with_reducible apply HSH_PORT_EVT.reg
    | ((with_reducible apply HasReg.as); simp only [HSH_PORT_EVT.WAKE_addr])

theorem State.l1Wake_fr (s : State) (slot : Nat) : Fr 16434 4893107481805641041628876881595771533690894578352128 s (State.l1Wake s slot) := by
  unfold State.l1Wake
  repeat' first
    | with_reducible assumption
    | ((with_reducible apply orDec); rfl)
    | with_reducible intro _
    | with_reducible exact Fr.refl _ _ _
    | with_reducible apply Fr.ite
    | with_reducible apply Fr.step (State.wakeUp_fr ..)
    | with_reducible apply Fr.when

theorem State.deviceL1_fr (s : State) (slot n : Nat) : Fr 17571964666 28421910042690324601972704151746540309571844907288494080 s (State.deviceL1 s slot n) := by
  unfold State.deviceL1
  repeat' first
    | with_reducible assumption
    | ((with_reducible apply orDec); rfl)
    | with_reducible intro _
    | with_reducible exact Fr.refl _ _ _
    | with_reducible apply Fr.ite
    | with_reducible apply Fr.step (State.doAct_fr ..)
    | with_reducible apply Fr.step (State.hsMod_fr ..)
    | with_reducible apply Fr.step (State.l1Wake_fr ..)
    | with_reducible apply Fr.step (State.ctrlTo_fr ..)
    | split

theorem State.hsGone_fr (s : State) (n : Nat) : Fr 1983546 3069884189213583357758322931182216499948798666428383232 s (State.hsGone s n) := by
  unfold State.hsGone
  dsimp only
  repeat' first
    | with_reducible assumption
    | ((with_reducible apply orDec); rfl)
    | ((with_reducible apply bitDec); rfl)
    | with_reducible intro _
    | with_reducible exact Fr.refl _ _ _
    | with_reducible apply Fr.ite
    | with_reducible apply Fr.step (State.hsState_fr ..)
    | with_reducible apply Fr.step (State.unreset_fr ..)
    | with_reducible apply Fr.step (State.hsMod_fr ..)
    | with_reducible apply Fr.step (State.patIdle_fr ..)
    | with_reducible apply Fr.step (State.mirLocal_fr ..)
    | with_reducible apply Fr.p
    | with_reducible apply HSH_PORT.reg
    | ((with_reducible apply HasReg.as); simp only [HSH_PORT.SPEED_addr])

theorem State.hsConnect_fr (s : State) (n : Nat) (present low : Bool) : Fr 1983546 3069884189213583357758322931182216499948798666428383232 s (State.hsConnect s n present low) := by
  unfold State.hsConnect
  dsimp only
  repeat' first
    | with_reducible assumption
    | ((with_reducible apply orDec); rfl)
    | ((with_reducible apply bitDec); rfl)
    | with_reducible intro _
    | with_reducible exact Fr.refl _ _ _
    | with_reducible apply Fr.ite
    | with_reducible apply Fr.step (State.hsHere_fr ..)
    | with_reducible apply Fr.step (State.restartHistory_fr ..)
    | with_reducible apply Fr.step (State.hsGone_fr ..)
    | with_reducible apply Fr.p
    | with_reducible apply Fr.hw
    | with_reducible apply HSH_PORT.reg
    | with_reducible apply HSH_PORT_EVT.reg
    | ((with_reducible apply HasReg.as); simp only [HSH_PORT.CONNECT_addr, HSH_PORT.SPEED_addr, HSH_PORT_EVT.CONN_CHG_addr])

theorem State.bcJudge_fr (s : State) (n : Nat) : Fr 16576 85070672859873030472526473546854039552 s (State.bcJudge s n) := by
  unfold State.bcJudge
  dsimp only
  repeat' first
    | with_reducible assumption
    | ((with_reducible apply orDec); rfl)
    | ((with_reducible apply bitDec); rfl)
    | with_reducible intro _
    | with_reducible exact Fr.refl _ _ _
    | with_reducible apply Fr.ite
    | with_reducible apply Fr.step (State.hsMod_fr ..)
    | with_reducible apply Fr.step (State.switchOff_fr ..)
    | with_reducible apply Fr.step (State.chMod_fr ..)
    | with_reducible apply Fr.step (State.cdpStall_fr ..)
    | with_reducible apply Fr.p
    | with_reducible apply HSH_PORT.reg
    | ((with_reducible apply HasReg.as); simp only [HSH_PORT.BC_addr])

end Sys2Proof.Machine
end

