-- ==== Sys2Proof/Laws/FrPaddock.lean ====
section
/-!
SUPPORT. What the operations of Sys2Proof/Machine/Paddock.lean may change.
-/
namespace Sys2Proof.Machine

theorem State.mirWoke_fr (s : State) (q : MirPos) (ss ssChg : Nat) : Fr 1024 0 s (State.mirWoke s q ss ssChg) := by
  unfold State.mirWoke
  dsimp only
  repeat' first
    | with_reducible assumption
    | ((with_reducible apply orDec); rfl)
    | with_reducible intro _
    | with_reducible exact Fr.refl _ _ _
    | with_reducible apply Fr.ite
    | with_reducible apply Fr.step (State.wakeHost_fr ..)
    | with_reducible apply Fr.when
    | split

theorem State.snapshot_fr (s : State) (n : Nat) : Fr 393216 3069854959180814961628475917423900518310152214878879744 s (State.snapshot s n) := by
  unfold State.snapshot
  repeat' first
    | with_reducible assumption
    | ((with_reducible apply orDec); rfl)
    | with_reducible intro _
    | with_reducible exact Fr.refl _ _ _
    | with_reducible apply Fr.ite
    | with_reducible apply Fr.step (State.ctrlTo_fr ..)
    | with_reducible apply Fr.each
    | split

theorem State.portReq_fr {m b : Nat} {r : State} {s : State} {slot : Nat} {hub : Nat} {port : Nat} {f : MirPos → State → State} (_hm : 0 ||| m = m) (_hb : 0 ||| b = b)
    (hf : ∀ q t, Fr m b r t → Fr m b r (f q t)) (h : Fr m b r s) : Fr m b r (State.portReq s slot hub port f) := by
  unfold State.portReq
  repeat' first
    | with_reducible assumption
    | with_reducible apply hf
    | with_reducible intro _
    | with_reducible exact Fr.refl _ _ _
    | with_reducible apply Fr.ite
    | with_reducible apply Fr.when
    | with_reducible apply Fr.out
    | split

theorem State.askHolder_fr (s : State) (q : MirPos) (act : PortAct) : Fr 51933865722 28421910042690324601972704151746540310733773611150082048 s (State.askHolder s q act) := by
  unfold State.askHolder
  repeat' first
    | with_reducible assumption
    | ((with_reducible apply orDec); rfl)
    | ((with_reducible apply bitDec); rfl)
    | with_reducible intro _
    | with_reducible exact Fr.refl _ _ _
    | with_reducible apply Fr.ite
    | with_reducible apply Fr.step (State.issue_fr ..)
    | with_reducible apply Fr.when
    | with_reducible apply Fr.out
    | with_reducible apply Fr.withHubWaits

theorem State.actOn_fr (s : State) (q : MirPos) (act : PortAct) : Fr 51933865722 28421910042690324601972704151746540310733773611150082048 s (State.actOn s q act) := by
  unfold State.actOn
  repeat' first
    | with_reducible assumption
    | ((with_reducible apply orDec); rfl)
    | with_reducible intro _
    | with_reducible exact Fr.refl _ _ _
    | with_reducible apply Fr.ite
    | with_reducible apply Fr.step (State.issue_fr ..)
    | with_reducible apply Fr.when
    | with_reducible apply Fr.out

theorem State.mirOwn_fr (s : State) (q : MirPos) (f : PortStat → PortStat) : Fr 1048576 0 s (State.mirOwn s q f) := by
  unfold State.mirOwn
  repeat' first
    | with_reducible assumption
    | ((with_reducible apply orDec); rfl)
    | with_reducible intro _
    | with_reducible exact Fr.refl _ _ _
    | with_reducible apply Fr.ite
    | with_reducible apply Fr.step (State.mirMod_fr ..)

theorem State.penAct_fr (s : State) (q : MirPos) (act : PortAct) : Fr 51933865722 28421910042690324601972704151746540310733773611150082048 s (State.penAct s q act) := by
  unfold State.penAct
  repeat' first
    | with_reducible assumption
    | ((with_reducible apply orDec); rfl)
    | with_reducible intro _
    | with_reducible exact Fr.refl _ _ _
    | with_reducible apply Fr.ite
    | with_reducible apply Fr.step (State.issue_fr ..)
    | with_reducible apply Fr.foldl

theorem State.penBus_fr (s : State) (q : MirPos) (act : PortAct) : Fr 51933865722 28421910042690324601972704151746540310733773611150082048 s (State.penBus s q act) := by
  unfold State.penBus
  repeat' first
    | with_reducible assumption
    | ((with_reducible apply orDec); rfl)
    | with_reducible intro _
    | with_reducible exact Fr.refl _ _ _
    | with_reducible apply Fr.ite
    | with_reducible apply Fr.step (State.issue_fr ..)
    | with_reducible apply Fr.each

theorem State.resetPen_fr (s : State) (q : MirPos) : Fr 51933865722 28421910042690324601972704151746540310733773611150082048 s (State.resetPen s q) := by
  unfold State.resetPen
  repeat' first
    | with_reducible assumption
    | ((with_reducible apply orDec); rfl)
    | with_reducible intro _
    | with_reducible exact Fr.refl _ _ _
    | with_reducible apply Fr.ite
    | with_reducible apply Fr.step (State.penBus_fr ..)

theorem State.tackState_fr (s : State) (slot st : Nat) : Fr 67108864 11417981541647679048466287755595961091061972992 s (State.tackState s slot st) := by
  unfold State.tackState
  dsimp only
  repeat' first
    | with_reducible assumption
    | ((with_reducible apply bitDec); rfl)
    | with_reducible intro _
    | with_reducible exact Fr.refl _ _ _
    | with_reducible apply Fr.ite
    | with_reducible apply Fr.p
    | with_reducible apply Fr.when
    | with_reducible apply Fr.withTack
    | with_reducible apply TKR_FUNC.reg
    | ((with_reducible apply HasReg.as); simp only [TKR_FUNC.ADDR_addr, TKR_FUNC.RWAKE_addr, TKR_FUNC.STATE_addr])

theorem State.tackPlace_fr (s : State) (q : MirPos) : Fr 68157440 11417981541647679048466287755595961091061972992 s (State.tackPlace s q) := by
  unfold State.tackPlace
  dsimp only
  repeat' first
    | with_reducible assumption
    | ((with_reducible apply orDec); rfl)
    | with_reducible intro _
    | with_reducible exact Fr.refl _ _ _
    | with_reducible apply Fr.ite
    | with_reducible apply Fr.step (State.mirOwn_fr ..)
    | with_reducible apply Fr.step (State.tackState_fr ..)
    | with_reducible apply Fr.when

theorem State.ownPower_fr (s : State) (q : MirPos) (ss on : Bool) : Fr 51933865722 28421910042690324601972704151746540310733773611150082048 s (State.ownPower s q ss on) := by
  unfold State.ownPower
  dsimp only
  repeat' first
    | with_reducible assumption
    | ((with_reducible apply orDec); rfl)
    | with_reducible intro _
    | with_reducible exact Fr.refl _ _ _
    | with_reducible apply Fr.ite
    | with_reducible apply Fr.step (State.mirOwn_fr ..)
    | with_reducible apply Fr.step (State.resetPen_fr ..)
    | with_reducible apply Fr.step (State.tackPlace_fr ..)
    | with_reducible apply Fr.getD
    | split

theorem State.powerReq_fr (s : State) (q : MirPos) (ss on : Bool) : Fr 51933865722 28421910042690324601972704151746540310733773611150082048 s (State.powerReq s q ss on) := by
  unfold State.powerReq
  repeat' first
    | with_reducible assumption
    | ((with_reducible apply orDec); rfl)
    | with_reducible intro _
    | with_reducible exact Fr.refl _ _ _
    | with_reducible apply Fr.ite
    | with_reducible apply Fr.step (State.actOn_fr ..)
    | with_reducible apply Fr.step (State.ownPower_fr ..)
    | with_reducible apply Fr.out

theorem State.handMod_fr (s : State) (i : Nat) (f : HandoffS → HandoffS) : Fr 8388608 0 s (State.handMod s i f) := by
  unfold State.handMod
  repeat' first
    | with_reducible assumption
    | ((with_reducible apply bitDec); rfl)
    | with_reducible intro _
    | with_reducible exact Fr.refl _ _ _
    | with_reducible apply Fr.ite
    | with_reducible apply Fr.withHandoff

theorem State.handTell_fr (s : State) (i step : Nat) : Fr 17571964666 28421910042690324601972704151746540309562837708033753088 s (State.handTell s i step) := by
  unfold State.handTell
  dsimp only
  repeat' first
    | with_reducible assumption
    | ((with_reducible apply orDec); rfl)
    | with_reducible intro _
    | with_reducible exact Fr.refl _ _ _
    | with_reducible apply Fr.ite
    | with_reducible apply Fr.step (State.doAct_fr ..)
    | with_reducible apply Fr.step (State.ctrlTo_fr ..)
    | with_reducible apply Fr.foldl

theorem State.beginHandoff_fr (s : State) (l : List Holder) (dest : Nat) : Fr 17580353274 28421910042690324601972704151746540309562837708033753088 s (State.beginHandoff s l dest) := by
  unfold State.beginHandoff
  dsimp only
  repeat' first
    | with_reducible assumption
    | ((with_reducible apply orDec); rfl)
    | ((with_reducible apply bitDec); rfl)
    | with_reducible intro _
    | with_reducible exact Fr.refl _ _ _
    | with_reducible apply Fr.ite
    | with_reducible apply Fr.step (State.handTell_fr ..)
    | with_reducible apply Fr.withHandoff

theorem State.kvmPress_fr (s : State) : Fr 17580353274 28421910042690324601972704151746540309562837708033753088 s (State.kvmPress s).2 := by
  unfold State.kvmPress
  repeat' first
    | with_reducible assumption
    | ((with_reducible apply orDec); rfl)
    | with_reducible intro _
    | with_reducible exact Fr.refl _ _ _
    | with_reducible apply Fr.ite
    | with_reducible apply Fr.step (State.beginHandoff_fr ..)
    | split
    | dsimp only

theorem State.handStep_fr (s : State) (i st : Nat) : Fr 17580353274 28421910042690324601972704151746540309562837708033753088 s (State.handStep s i st) := by
  unfold State.handStep
  repeat' first
    | with_reducible assumption
    | ((with_reducible apply orDec); rfl)
    | with_reducible intro _
    | with_reducible exact Fr.refl _ _ _
    | with_reducible apply Fr.ite
    | with_reducible apply Fr.step (State.handTell_fr ..)
    | with_reducible apply Fr.step (State.handMod_fr ..)

theorem State.handAll_fr (s : State) (h : Holder) (act : PortAct) : Fr 17571964666 28421910042690324601972704151746540309562837708033753088 s (State.handAll s h act) := by
  unfold State.handAll
  repeat' first
    | with_reducible assumption
    | ((with_reducible apply orDec); rfl)
    | with_reducible intro _
    | with_reducible exact Fr.refl _ _ _
    | with_reducible apply Fr.ite
    | with_reducible apply Fr.step (State.doAct_fr ..)
    | with_reducible apply Fr.step (State.ctrlTo_fr ..)
    | with_reducible apply Fr.each

theorem State.attachHere_fr (s : State) (h : Holder) (dest ms : Nat) : Fr 51933865722 28421910042690324601972704151746540310733773611150082048 s (State.attachHere s h dest ms) := by
  unfold State.attachHere
  repeat' first
    | with_reducible assumption
    | ((with_reducible apply orDec); rfl)
    | with_reducible intro _
    | with_reducible exact Fr.refl _ _ _
    | with_reducible apply Fr.ite
    | with_reducible apply Fr.step (State.handAttach_fr ..)
    | with_reducible apply Fr.step (State.issue_fr ..)
    | with_reducible apply Fr.when
    | split

theorem State.handDone_fr (s : State) (i ms : Nat) : Fr 51942254330 28421910042690324601972704151746540310733773611150082048 s (State.handDone s i ms).2 := by
  unfold State.handDone
  dsimp only
  repeat' first
    | with_reducible assumption
    | ((with_reducible apply orDec); rfl)
    | ((with_reducible apply bitDec); rfl)
    | with_reducible intro _
    | with_reducible exact Fr.refl _ _ _
    | with_reducible apply Fr.ite
    | with_reducible apply Fr.step (State.handMod_fr ..)
    | with_reducible apply Fr.step (State.handTell_fr ..)
    | with_reducible apply Fr.step (State.handRecord_fr ..)
    | with_reducible apply Fr.step (State.handStep_fr ..)
    | with_reducible apply Fr.step (State.handAll_fr ..)
    | with_reducible apply Fr.step (State.attachHere_fr ..)
    | with_reducible apply Fr.step (State.ctrlTo_fr ..)
    | with_reducible apply Fr.withHandoff
    | with_reducible apply Fr.foldl
    | with_reducible apply Fr.foldlSnd
    | with_reducible apply Fr.getD
    | split

end Sys2Proof.Machine
end

