-- ==== Sys2Proof/Laws/FrFaultOps.lean ====
section
/-!
SUPPORT. What the operations of Sys2Proof/Machine/FaultOps.lean may change.
-/
namespace Sys2Proof.Machine

theorem State.domReach_fr (s : State) (d : Nat) (ok : Bool) : Fr 1048576 0 s (State.domReach s d ok) := by
  unfold State.domReach
  repeat' first
    | with_reducible assumption
    | ((with_reducible apply bitDec); rfl)
    | with_reducible intro _
    | with_reducible exact Fr.refl _ _ _
    | with_reducible apply Fr.ite
    | with_reducible apply Fr.withMirror

theorem State.releaseFailed_fr (s : State) (d : Nat) : Fr 1048610 4893107481805641041628876881595771524683695319416832 s (State.releaseFailed s d) := by
  unfold State.releaseFailed
  repeat' first
    | with_reducible assumption
    | ((with_reducible apply orDec); rfl)
    | ((with_reducible apply bitDec); rfl)
    | with_reducible intro _
    | with_reducible exact Fr.refl _ _ _
    | with_reducible apply Fr.ite
    | with_reducible apply Fr.step (State.restJudge_fr ..)
    | with_reducible apply Fr.step (State.domRecord_fr ..)
    | with_reducible apply Fr.step (State.domReach_fr ..)
    | with_reducible apply Fr.p
    | with_reducible apply PDC_DOM.reg
    | ((with_reducible apply HasReg.as); simp only [PDC_DOM.STATE_addr])

theorem State.faultRelease_fr (s : State) (src q : Nat) : Fr 17567737594 28421910042690324601972704112127622905995755260150284288 s (State.faultRelease s src q) := by
  unfold State.faultRelease
  repeat' first
    | with_reducible assumption
    | ((with_reducible apply orDec); rfl)
    | with_reducible intro _
    | with_reducible exact Fr.refl _ _ _
    | with_reducible apply Fr.ite
    | with_reducible apply Fr.step (State.releaseLatch_fr ..)
    | with_reducible apply Fr.step (State.ppwClear_fr ..)
    | with_reducible apply Fr.step (State.releaseFailed_fr ..)
    | split

theorem State.clearSource_fr (s : State) (src q : Nat) : Fr 17567737594 28421910042690324601972704112127622905995755260150284288 s (State.clearSource s src q) := by
  unfold State.clearSource
  dsimp only
  repeat' first
    | with_reducible assumption
    | ((with_reducible apply orDec); rfl)
    | ((with_reducible apply bitDec); rfl)
    | with_reducible intro _
    | with_reducible exact Fr.refl _ _ _
    | with_reducible apply Fr.ite
    | with_reducible apply Fr.step (State.faultRelease_fr ..)
    | with_reducible apply Fr.step (State.setSticky_fr ..)
    | with_reducible apply Fr.setWord
    | with_reducible apply FLT_QUAL.reg

theorem State.clearAll_fr (s : State) (q : Nat) : Fr 17567737594 28421910042690324601972704112127622905995755260150284288 s (State.clearAll s q) := by
  unfold State.clearAll
  repeat' first
    | with_reducible assumption
    | ((with_reducible apply orDec); rfl)
    | with_reducible intro _
    | with_reducible exact Fr.refl _ _ _
    | with_reducible apply Fr.ite
    | with_reducible apply Fr.step (State.clearSource_fr ..)
    | with_reducible apply Fr.each

theorem State.fltClearWrite_fr (s : State) (m : Nat) (w : Word) : Fr 17567737594 28421910042690324601972704112127622905995755260150284288 s (State.fltClearWrite s m w) := by
  unfold State.fltClearWrite
  repeat' first
    | with_reducible assumption
    | ((with_reducible apply orDec); rfl)
    | with_reducible intro _
    | with_reducible exact Fr.refl _ _ _
    | with_reducible apply Fr.ite
    | with_reducible apply Fr.step (State.clearAll_fr ..)
    | with_reducible apply Fr.step (State.clearSource_fr ..)
    | with_reducible apply Fr.when

theorem State.forceWrite_fr (s : State) (w : Word) : Fr 17567737594 29954405583556213417795552450064587639988428980849999872 s (State.forceWrite s w) := by
  unfold State.forceWrite
  dsimp only
  repeat' first
    | with_reducible assumption
    | ((with_reducible apply orDec); rfl)
    | ((with_reducible apply bitDec); rfl)
    | with_reducible intro _
    | with_reducible exact Fr.refl _ _ _
    | with_reducible apply Fr.ite
    | with_reducible apply Fr.step (State.raise_fr ..)
    | with_reducible apply Fr.p
    | with_reducible apply Fr.hw
    | with_reducible apply FLT_STATUS.reg
    | with_reducible apply FLT_X_FORCE.reg
    | ((with_reducible apply HasReg.as); simp only [FLT_STATUS.FORCE_REFUSED_addr, FLT_X_FORCE.QUAL_addr, FLT_X_FORCE.SOURCE_addr])

theorem State.invertWrite_fr (s : State) (w : Word) : Fr 0 3064991081731777716716694054300618367237478244367204352 s (State.invertWrite s w) := by
  unfold State.invertWrite
  repeat' first
    | with_reducible assumption
    | ((with_reducible apply bitDec); rfl)
    | with_reducible intro _
    | with_reducible exact Fr.refl _ _ _
    | with_reducible apply Fr.ite
    | with_reducible apply Fr.w1s
    | with_reducible apply FLT_X_INVERT.reg

theorem State.mechanism_fr (s : State) (src q aux : Nat) : Fr 17567770618 28421910042690324559437205422914278456802035423969804544 s (State.mechanism s src q aux) := by
  unfold State.mechanism
  repeat' first
    | with_reducible assumption
    | ((with_reducible apply orDec); rfl)
    | ((with_reducible apply bitDec); rfl)
    | with_reducible intro _
    | with_reducible exact Fr.refl _ _ _
    | with_reducible apply Fr.ite
    | with_reducible apply Fr.step (State.yardsKeeper_fr ..)
    | with_reducible apply Fr.step (State.setEntry_fr ..)
    | with_reducible apply Fr.step (State.dropAt_fr ..)
    | with_reducible apply Fr.step (State.setEgress_fr ..)
    | with_reducible apply Fr.step (State.ttReset_fr ..)
    | with_reducible apply Fr.step (State.pushTables_fr ..)
    | with_reducible apply Fr.p
    | with_reducible apply Fr.when
    | with_reducible apply Fr.withBud
    | with_reducible apply Fr.withFlt
    | with_reducible apply TML_STATUS.reg
    | with_reducible apply PDC_XTAL.reg
    | ((with_reducible apply HasReg.as); simp only [PDC_XTAL.RUNNING_addr, TML_STATUS.USED_addr])
    | split

theorem State.latchGrave_fr (s : State) (src q : Nat) : Fr 0 832097188204525591061758737398019439542987257748127744 s (State.latchGrave s src q) := by
  unfold State.latchGrave
  dsimp only
  repeat' first
    | with_reducible assumption
    | ((with_reducible apply orDec); rfl)
    | ((with_reducible apply bitDec); rfl)
    | with_reducible intro _
    | with_reducible exact Fr.refl _ _ _
    | with_reducible apply Fr.ite
    | with_reducible apply Fr.step (State.setSticky_fr ..)
    | with_reducible apply Fr.p
    | with_reducible apply Fr.incSat
    | with_reducible apply Fr.when
    | with_reducible apply FLT_STATUS.reg
    | with_reducible apply FLT_PINS.reg
    | with_reducible apply FLT_QUAL.reg
    | ((with_reducible apply HasReg.as); simp only [FLT_PINS.CUT_N_addr, FLT_PINS.FAULT_N_addr, FLT_QUAL.COUNT_addr, FLT_QUAL.FIRST_addr, FLT_QUAL.LAST_addr, FLT_STATUS.CAUSE_SEV_addr, FLT_STATUS.CAUSE_VALID_addr, FLT_STATUS.CAUSE_addr, FLT_STATUS.GRAVE_addr])

theorem State.standTick_fr (s : State) : Fr 17567737594 28421910042690324559437205422914278456369689858666397696 s (State.standTick s) := by
  unfold State.standTick
  dsimp only
  repeat' first
    | with_reducible assumption
    | ((with_reducible apply orDec); rfl)
    | with_reducible intro _
    | with_reducible exact Fr.refl _ _ _
    | with_reducible apply Fr.ite
    | with_reducible apply Fr.step (State.raise_fr ..)
    | with_reducible apply Fr.when
    | with_reducible apply Fr.foldl

end Sys2Proof.Machine
end

