-- ==== Sys2Proof/Laws/FrBus.lean ====
section
/-!
SUPPORT. What the operations of Sys2Proof/Machine/Bus.lean may change.
-/
namespace Sys2Proof.Machine

theorem State.busErr_fr {m b : Nat} {r : State} {s : State} {f : Fld} {m₀ : Nat} {a : Nat} (_hm : 0 ||| m = m) (hb : 1569275433846670190958947355801916604025588861116008628224 ||| b = b)
    (hf : HasReg b (f.addr)) (h : Fr m b r s) : Fr m b r (State.busErr s f m₀ a) := by
  unfold State.busErr
  repeat' first
    | with_reducible assumption
    | with_reducible apply hf
    | ((with_reducible apply bitOr (M := 1569275433846670190958947355801916604025588861116008628224) (hm := hb)); rfl)
    | with_reducible intro _
    | with_reducible exact Fr.refl _ _ _
    | with_reducible apply Fr.ite
    | with_reducible apply Fr.p
    | with_reducible apply Fr.hw
    | with_reducible apply TOP_BUS_ERR.reg
    | ((with_reducible apply HasReg.as); simp only [TOP_BUS_ERR.ADDR_addr, TOP_BUS_ERR.MASTER_addr])

theorem State.keyWrite_fr (s : State) (m k v : Nat) : Fr 4294967296 2353913150770005286438421033702874906038383291674012942336 s (State.keyWrite s m k v) := by
  unfold State.keyWrite
  dsimp only
  repeat' first
    | with_reducible assumption
    | ((with_reducible apply orDec); rfl)
    | ((with_reducible apply bitDec); rfl)
    | with_reducible intro _
    | with_reducible exact Fr.refl _ _ _
    | with_reducible apply Fr.ite
    | with_reducible apply Fr.step (State.closePages_fr ..)
    | with_reducible apply State.busErr_fr
    | with_reducible apply Fr.p
    | with_reducible apply Fr.withExpert
    | with_reducible apply TOP_EXPERT.reg
    | with_reducible apply TOP_BUS_ERR.reg
    | ((with_reducible apply HasReg.as); simp only [TOP_BUS_ERR.KEY_SEQ_addr, bitFld_addr])

theorem State.readReg_fr (s : State) (m a : Nat) : Fr 17567737598 28421910044295978213731410289104850172000371887096988672 s (State.readReg s m a).2 := by
  unfold State.readReg
  repeat' first
    | with_reducible assumption
    | ((with_reducible apply orDec); rfl)
    | with_reducible intro _
    | with_reducible exact Fr.refl _ _ _
    | with_reducible apply Fr.ite
    | with_reducible apply Fr.step (State.yardNowRead_fr ..)
    | with_reducible apply Fr.step (State.queueRead_fr ..)
    | with_reducible apply Fr.step (State.tlmMod_fr ..)
    | with_reducible apply Fr.step (State.lockRead_fr ..)
    | with_reducible apply Fr.step (State.mbxRefuse_fr ..)
    | split
    | dsimp only

theorem State.putReg_fr (s : State) (r : RegRow) (a : Nat) (w : Word) : Fr 0 200867255532373784442745261542645325315275374222849104412671 s (State.putReg s r a w) := by
  unfold State.putReg
  repeat' first
    | with_reducible apply Fr.setAny
    | with_reducible assumption
    | with_reducible exact HasReg.all
    | with_reducible intro _
    | with_reducible exact Fr.refl _ _ _

theorem State.clr_fr  {m b : Nat} {r : State} {l : List Fld} {s : State} (hf : ∀ f ∈ l, HasReg b (f.addr))
    (h : Fr m b r s) : Fr m b r (s.clr l) := by
  unfold State.clr
  induction l generalizing s with
  | nil => exact h
  | cons f l ih => exact ih (fun g hg => hf g (List.mem_cons_of_mem _ hg)) (Fr.p (hf f List.mem_cons_self) h)

theorem State.clrAny_fr  {m : Nat} {r : State} {l : List Fld} {s : State} (h : Fr m 200867255532373784442745261542645325315275374222849104412671 r s) :
    Fr m 200867255532373784442745261542645325315275374222849104412671 r (s.clr l) := Fr.foldl (fun _ _ h => Fr.pAny h) h

theorem State.tmlOn_fr (s : State) : Fr 17213423616 0 s (State.tmlOn s) := by
  unfold State.tmlOn
  repeat' first
    | with_reducible assumption
    | ((with_reducible apply orDec); rfl)
    | with_reducible intro _
    | with_reducible exact Fr.refl _ _ _
    | with_reducible apply Fr.ite
    | with_reducible apply Fr.step (State.tmlMap_fr ..)

theorem State.trainLinks_fr (s : State) : Fr 131122 4893107481805641041628876881598132707925130146217984 s (State.trainLinks s) := by
  unfold State.trainLinks
  repeat' first
    | with_reducible assumption
    | ((with_reducible apply orDec); rfl)
    | with_reducible intro _
    | with_reducible exact Fr.refl _ _ _
    | with_reducible apply Fr.ite
    | with_reducible apply Fr.step (State.attempt_fr ..)
    | with_reducible apply Fr.each

theorem State.pdcCtrlWrite_fr (s : State) (m : Nat) (w : Word) (full : Bool) : Fr 0 1361129467683753853853498429727072845824 s (State.pdcCtrlWrite s m w full) := by
  unfold State.pdcCtrlWrite
  dsimp only
  repeat' first
    | with_reducible assumption
    | ((with_reducible apply bitDec); rfl)
    | with_reducible intro _
    | with_reducible exact Fr.refl _ _ _
    | with_reducible apply Fr.ite
    | with_reducible apply Fr.p
    | with_reducible apply Fr.when
    | with_reducible apply PDC_CTRL.reg
    | ((with_reducible apply HasReg.as); simp only [PDC_CTRL.ENABLE_addr, bitFld_addr])

theorem State.myVoteWrite_fr (s : State) (m d : Nat) (w : Word) : Fr 34 4893107481805641041628876881595771524683695319416832 s (State.myVoteWrite s m d w) := by
  unfold State.myVoteWrite
  dsimp only
  repeat' first
    | with_reducible assumption
    | ((with_reducible apply orDec); rfl)
    | ((with_reducible apply bitDec); rfl)
    | with_reducible intro _
    | with_reducible exact Fr.refl _ _ _
    | with_reducible apply Fr.ite
    | with_reducible apply Fr.step (State.setVote_fr ..)
    | with_reducible apply Fr.withPdc
    | split

theorem State.gpiOutWrite_fr (s : State) (w : Word) : Fr 0 50216813883093446110686315385661331328818843555712276103168 s (State.gpiOutWrite s w) := by
  unfold State.gpiOutWrite
  repeat' first
    | with_reducible assumption
    | ((with_reducible apply bitDec); rfl)
    | with_reducible intro _
    | with_reducible exact Fr.refl _ _ _
    | with_reducible apply Fr.ite
    | with_reducible apply Fr.p
    | with_reducible apply Fr.each
    | with_reducible apply GPI_OUT.reg
    | ((with_reducible apply HasReg.as); simp only [bitFld_addr])

theorem State.budXWrite_fr (s : State) (r : RegRow) (w : Word) : Fr 0 200867255532373784442745261542645325315275374222849104412671 s (State.budXWrite s r w) := by
  unfold State.budXWrite
  dsimp only
  repeat' first
    | with_reducible apply Fr.pAny
    | with_reducible assumption
    | with_reducible exact HasReg.all
    | ((with_reducible apply orDec); rfl)
    | with_reducible intro _
    | with_reducible exact Fr.refl _ _ _
    | with_reducible apply Fr.ite
    | with_reducible apply Fr.step (State.putReg_fr ..)

theorem State.mbxWrite_fr (s : State) (m a : Nat) (w : Word) : Fr 18641479418 28421910044205381436362379632592361316517737918478942208 s (State.mbxWrite s m a w) := by
  unfold State.mbxWrite
  repeat' first
    | with_reducible assumption
    | ((with_reducible apply orDec); rfl)
    | with_reducible intro _
    | with_reducible exact Fr.refl _ _ _
    | with_reducible apply Fr.ite
    | with_reducible apply Fr.step (State.inWordWrite_fr ..)
    | with_reducible apply Fr.step (State.outWordWrite_fr ..)
    | with_reducible apply Fr.step (State.inCtrlWrite_fr ..)
    | with_reducible apply Fr.step (State.outCtrlWrite_fr ..)
    | with_reducible apply Fr.step (State.dbWrite_fr ..)

theorem State.writeChipReg_fr (s : State) (m a : Nat) (w : Word) (r : RegRow) : Fr 21862705146 200867255532373784442745261542645325315275374222849104412671 s (State.writeChipReg s m a w r) := by
  unfold State.writeChipReg
  dsimp only
  repeat' first
    | with_reducible apply Fr.pAny
    | with_reducible apply Fr.w1sAny
    | with_reducible apply Fr.setAny
    | with_reducible apply State.clrAny_fr
    | with_reducible exact clrNil
    | with_reducible apply clrCons
    | with_reducible assumption
    | with_reducible exact HasReg.all
    | ((with_reducible apply orDec); rfl)
    | ((with_reducible apply bitDec); rfl)
    | with_reducible intro _
    | with_reducible exact Fr.refl _ _ _
    | with_reducible apply Fr.ite
    | with_reducible apply Fr.step (State.putReg_fr ..)
    | with_reducible apply Fr.step (State.ppwClear_fr ..)
    | with_reducible apply Fr.step (State.restartBlocks_fr ..)
    | with_reducible apply Fr.step (State.budXWrite_fr ..)
    | with_reducible apply Fr.step (State.pdcCtrlWrite_fr ..)
    | with_reducible apply Fr.step (State.myVoteWrite_fr ..)
    | with_reducible apply Fr.step (State.lockWrite_fr ..)
    | with_reducible apply Fr.step (State.tackPlace_fr ..)
    | with_reducible apply Fr.step (State.fltClearWrite_fr ..)
    | with_reducible apply Fr.step (State.forceWrite_fr ..)
    | with_reducible apply Fr.step (State.invertWrite_fr ..)
    | with_reducible apply Fr.step (State.queueReset_fr ..)
    | with_reducible apply Fr.step (State.pmuSelect_fr ..)
    | with_reducible apply Fr.step (State.pmuSet_fr ..)
    | with_reducible apply Fr.step (State.pmuHold_fr ..)
    | with_reducible apply Fr.step (State.gpiOutWrite_fr ..)
    | with_reducible apply Fr.step (State.keyWrite_fr ..)
    | with_reducible apply State.clr_fr
    | with_reducible apply Fr.p
    | with_reducible apply Fr.when
    | with_reducible apply Fr.each
    | with_reducible apply Fr.w1s
    | with_reducible apply Fr.setWord
    | with_reducible apply Fr.withBoot
    | with_reducible apply Fr.getD

theorem State.writeReg_fr (s : State) (m a : Nat) (w : Word) : Fr 25084028926 200867255532373784442745261542645325315275374222849104412671 s (State.writeReg s m a w) := by
  unfold State.writeReg
  repeat' first
    | with_reducible apply Fr.pAny
    | with_reducible apply State.clrAny_fr
    | with_reducible exact clrNil
    | with_reducible apply clrCons
    | with_reducible assumption
    | with_reducible exact HasReg.all
    | ((with_reducible apply orDec); rfl)
    | with_reducible intro _
    | with_reducible exact Fr.refl _ _ _
    | with_reducible apply Fr.ite
    | with_reducible apply Fr.step (State.putReg_fr ..)
    | with_reducible apply Fr.step (State.mbxWrite_fr ..)
    | with_reducible apply Fr.step (State.forceCoast_fr ..)
    | with_reducible apply Fr.step (State.snapYards_fr ..)
    | with_reducible apply Fr.step (State.tmlOn_fr ..)
    | with_reducible apply Fr.step (State.tmlCommand_fr ..)
    | with_reducible apply Fr.step (State.setBankLow_fr ..)
    | with_reducible apply Fr.step (State.setLimit_fr ..)
    | with_reducible apply Fr.step (State.linkJudge_fr ..)
    | with_reducible apply Fr.step (State.ttCommand_fr ..)
    | with_reducible apply Fr.step (State.trainLinks_fr ..)
    | with_reducible apply Fr.step (State.retrain_fr ..)
    | with_reducible apply Fr.step (State.ringBell_fr ..)
    | with_reducible apply Fr.step (State.writeChipReg_fr ..)
    | with_reducible apply State.clr_fr
    | with_reducible apply Fr.p
    | with_reducible apply Fr.when
    | with_reducible apply Fr.each
    | with_reducible apply TML_STATUS.reg
    | with_reducible apply SSH_DROPS.reg
    | with_reducible apply SSH_ITP.reg
    | with_reducible apply SSH_ITP_REGEN.reg
    | with_reducible apply PBF_USED.reg
    | with_reducible apply PBF_ECC_COUNT.reg
    | with_reducible apply HSH_ORDERS.reg
    | with_reducible apply TTA_COUNT.reg
    | with_reducible apply TTA_CMD.reg
    | with_reducible apply GLK_ERR.reg
    | with_reducible apply DRV_FLOWS.reg
    | split

/-- The state an access check answers. -/
def Gate.after (s : State) : Gate → State
  | .pass => s
  | .fail _ t => t
  | .stall t => t


theorem State.domGate_fr  (s : State) (m a : Nat) : Fr 34 1569280326954152002044506855413813615211107263719619428352 s ((s.domGate m a).after s) := by
  unfold State.domGate
  repeat' first
    | with_reducible assumption
    | ((with_reducible apply orDec); rfl)
    | ((with_reducible apply bitDec); rfl)
    | with_reducible intro _
    | with_reducible exact Fr.refl _ _ _
    | with_reducible apply Fr.ite
    | with_reducible apply Fr.step (State.holdAccess_fr ..)
    | with_reducible apply Fr.hw
    | with_reducible apply Fr.hwOr
    | with_reducible apply PDC_STICKY.reg
    | ((with_reducible apply HasReg.as); simp only [PDC_STICKY.SLEEP_ACCESS_addr, PDC_STICKY.SLEEP_DOM_addr])
    | split
    | dsimp only
    | simp only [Gate.after]

theorem State.gate_fr  (s : State) (m a : Nat) (wr : Bool) : Fr 34 1569280326954152002044506855413813615211107263719619428352 s ((s.gate m a wr).after s) := by
  unfold State.gate
  repeat' first
    | exact State.domGate_fr ..
    | with_reducible assumption
    | ((with_reducible apply orDec); rfl)
    | ((with_reducible apply bitDec); rfl)
    | with_reducible intro _
    | with_reducible exact Fr.refl _ _ _
    | with_reducible apply Fr.ite
    | with_reducible apply State.busErr_fr
    | with_reducible apply TOP_BUS_ERR.reg
    | ((with_reducible apply HasReg.as); simp only [TOP_BUS_ERR.DENIED_addr, TOP_BUS_ERR.EXPERT_addr, TOP_BUS_ERR.UNMAPPED_addr])
    | split
    | dsimp only
    | with_reducible refine Fr.pair (by assumption) ?_
    | simp only [Gate.after]

theorem State.gateStall_fr  {s t : State} {m a : Nat} {wr : Bool} (e : s.gate m a wr = .stall t) : Fr 34 1569280326954152002044506855413813615211107263719619428352 s t := by
  simpa [e, Gate.after] using State.gate_fr s m a wr

theorem State.gateFail_fr  {s t : State} {m a : Nat} {w : Word} {wr : Bool} (e : s.gate m a wr = .fail w t) : Fr 34 1569280326954152002044506855413813615211107263719619428352 s t := by
  simpa [e, Gate.after] using State.gate_fr s m a wr

/-- The state an access answers. -/
def AccOut.after : AccOut → State
  | .done _ s => s
  | .stall s => s


theorem State.perform_fr (s : State) (m a : Nat) (data : Option Word) : Fr 25084028926 200867255532373784442745261542645325315275374222849104412671 s (s.perform m a data).after := by
  unfold State.perform
  cases data with
  | none => exact Fr.step (State.readReg_fr s m a) rfl rfl (Fr.refl _ _ _)
  | some v => exact Fr.step (State.writeReg_fr s m a v) rfl rfl (Fr.refl _ _ _)

theorem State.oneAccess_fr (s : State) (m a : Nat) (data : Option Word) : Fr 25084028926 200867255532373784442745261542645325315275374222849104412671 s (s.oneAccess m a data).after := by
  unfold State.oneAccess
  split
  · rename_i t e
    have h : Fr 25084028926 200867255532373784442745261542645325315275374222849104412671 s t := Fr.step (State.gateStall_fr e) rfl rfl (Fr.refl _ _ s)
    split
    · exact Fr.step (State.perform_fr ..) rfl rfl h
    · exact h
  · rename_i w t e
    have h : Fr 25084028926 200867255532373784442745261542645325315275374222849104412671 s t := Fr.step (State.gateFail_fr e) rfl rfl (Fr.refl _ _ s)
    dsimp only [AccOut.after]
    split
    · exact Fr.ite (Fr.step (State.pdcCtrlWrite_fr ..) rfl rfl h) h
    · exact h
  · exact Fr.step (State.perform_fr ..) rfl rfl (Fr.refl _ _ s)

theorem State.oneStall_fr {s t : State} {m a : Nat} {d : Option Word} (e : s.oneAccess m a d = .stall t) : Fr 25084028926 200867255532373784442745261542645325315275374222849104412671 s t := by
  simpa [e, AccOut.after] using State.oneAccess_fr s m a d

theorem State.oneDone_fr {s t : State} {m a : Nat} {d w : Option Word} (e : s.oneAccess m a d = .done w t) : Fr 25084028926 200867255532373784442745261542645325315275374222849104412671 s t := by
  simpa [e, AccOut.after] using State.oneAccess_fr s m a d

theorem State.runAccs_fr (m : Nat) : ∀ (l : List (Nat × Option Word)) (got : List (Option Word)) (s : State), Fr 25084028926 200867255532373784442745261542645325315275374222849104412671 s (State.runAccs m l got s).2.2
  | [], got, s => Fr.refl _ _ _
  | (a, d) :: t, got, s => by
    unfold State.runAccs
    repeat' first
      | with_reducible refine Fr.step (State.oneStall_fr (by assumption)) ?_ ?_ ?_
      | with_reducible refine Fr.step (State.oneDone_fr (by assumption)) ?_ ?_ ?_
      | with_reducible apply Fr.step (State.runAccs_fr m t _ _)
      | with_reducible assumption
      | with_reducible exact HasReg.all
      | ((with_reducible apply orDec); rfl)
      | with_reducible intro _
      | with_reducible exact Fr.refl _ _ _
      | with_reducible apply Fr.ite
      | split

theorem State.pushStall_fr (s : State) (x : StalledAcc) : Fr 32 0 s (State.pushStall s x) := by
  unfold State.pushStall
  repeat' first
    | with_reducible assumption
    | ((with_reducible apply bitDec); rfl)
    | with_reducible intro _
    | with_reducible exact Fr.refl _ _ _
    | with_reducible apply Fr.ite
    | with_reducible apply Fr.withPdc

theorem State.noWait_fr (s : State) : Fr 2 0 s (State.noWait s) := by
  unfold State.noWait
  repeat' first
    | with_reducible assumption
    | ((with_reducible apply orDec); rfl)
    | with_reducible intro _
    | with_reducible exact Fr.refl _ _ _
    | with_reducible apply Fr.ite
    | with_reducible apply Fr.step (State.obsMod_fr ..)
    | with_reducible apply Fr.each

theorem State.tackData_fr (s : State) (slot : Nat) (bytes : List Byte) : Fr 34359738368 0 s (State.tackData s slot bytes) := by
  unfold State.tackData
  dsimp only
  repeat' first
    | with_reducible assumption
    | ((with_reducible apply orDec); rfl)
    | with_reducible intro _
    | with_reducible exact Fr.refl _ _ _
    | with_reducible apply Fr.ite
    | with_reducible apply Fr.step (State.epPackets_fr ..)
    | with_reducible apply Fr.out

theorem State.finishXfer_fr (s : State) (x : StalledAcc) (got : List (Option Word)) : Fr 59443767294 200867255532373784442745261542645325315275374222849104412671 s (State.finishXfer s x got) := by
  unfold State.finishXfer
  repeat' first
    | with_reducible assumption
    | with_reducible exact HasReg.all
    | ((with_reducible apply orDec); rfl)
    | with_reducible intro _
    | with_reducible exact Fr.refl _ _ _
    | with_reducible apply Fr.ite
    | with_reducible apply Fr.step (State.tackData_fr ..)
    | with_reducible apply Fr.step (State.reply_fr ..)
    | with_reducible apply Fr.step (State.noWait_fr ..)
    | with_reducible apply Fr.step (State.runAccs_fr ..)
    | with_reducible apply Fr.when
    | with_reducible apply Fr.out
    | split

theorem State.firstStall_fr {s t : State} {m : Nat} {accs : List (Nat × Option Word)} (e : s.firstStall m accs = some t) :
    Fr 34 1569280326954152002044506855413813615211107263719619428352 s t := by
  unfold State.firstStall at e
  obtain ⟨x, -, e⟩ := List.exists_of_findSome?_eq_some e
  split at e
  · split at e
    · cases e
    · cases e; exact State.gateStall_fr (by assumption)
  · cases e

theorem State.runXfer_fr (s : State) (x : StalledAcc) : Fr 59443767294 200867255532373784442745261542645325315275374222849104412671 s (s.runXfer x) := by
  unfold State.runXfer
  have k := Fr.step (m := 59443767294) (b := 200867255532373784442745261542645325315275374222849104412671) (State.runAccs_fr x.master x.accs x.got s) rfl rfl (Fr.refl _ _ s)
  split
  · rename_i t e
    split at e
    · exact Fr.step (State.pushStall_fr ..) rfl rfl (Fr.step (State.firstStall_fr e) rfl rfl (Fr.refl _ _ s))
    · cases e
  · exact Fr.ite (Fr.step (State.finishXfer_fr ..) rfl rfl k) (Fr.step (State.pushStall_fr ..) rfl rfl k)

theorem State.startXfer_fr (s : State) (x : StalledAcc) : Fr 59443767294 200867255532373784442745261542645325315275374222849104412671 s (State.startXfer s x) := by
  unfold State.startXfer
  repeat' first
    | with_reducible assumption
    | with_reducible exact HasReg.all
    | ((with_reducible apply orDec); rfl)
    | with_reducible intro _
    | with_reducible exact Fr.refl _ _ _
    | with_reducible apply Fr.ite
    | with_reducible apply Fr.step (State.pushStall_fr ..)
    | with_reducible apply Fr.step (State.runXfer_fr ..)

theorem State.accessNow_fr (s : State) (m a : Nat) (data : Option Word) : Fr 59443767294 200867255532373784442745261542645325315275374222849104412671 s (State.accessNow s m a data) := by
  unfold State.accessNow
  repeat' first
    | with_reducible assumption
    | with_reducible exact HasReg.all
    | ((with_reducible apply orDec); rfl)
    | with_reducible intro _
    | with_reducible exact Fr.refl _ _ _
    | with_reducible apply Fr.ite
    | with_reducible apply Fr.step (State.startXfer_fr ..)

theorem State.accessOne_fr (s : State) (m a : Nat) (data : Option Word) : Fr 59443767294 200867255532373784442745261542645325315275374222849104412671 s (State.accessOne s m a data) := by
  unfold State.accessOne
  repeat' first
    | with_reducible assumption
    | with_reducible exact HasReg.all
    | ((with_reducible apply orDec); rfl)
    | with_reducible intro _
    | with_reducible exact Fr.refl _ _ _
    | with_reducible apply Fr.ite
    | with_reducible apply Fr.step (State.accessNow_fr ..)
    | with_reducible apply Fr.step (State.holdAccess_fr ..)
    | with_reducible apply Fr.when
    | with_reducible apply Fr.out

theorem State.lowerFirst_fr (s : State) (m a : Nat) : Fr 59443767294 200867255532373784442745261542645325315275374222849104412671 s (State.lowerFirst s m a) := by
  unfold State.lowerFirst
  repeat' first
    | with_reducible assumption
    | with_reducible exact HasReg.all
    | ((with_reducible apply orDec); rfl)
    | with_reducible intro _
    | with_reducible exact Fr.refl _ _ _
    | with_reducible apply Fr.ite
    | with_reducible apply Fr.step (State.accessOne_fr ..)
    | with_reducible apply Fr.each
    | with_reducible apply Fr.mark
    | with_reducible apply Fr.foldl
    | with_reducible apply Fr.foldlSnd
    | split

theorem State.access_fr (s : State) (m a : Nat) (data : Option Word) : Fr 59443767294 200867255532373784442745261542645325315275374222849104412671 s (State.access s m a data) := by
  unfold State.access
  repeat' first
    | with_reducible assumption
    | with_reducible exact HasReg.all
    | ((with_reducible apply orDec); rfl)
    | with_reducible intro _
    | with_reducible exact Fr.refl _ _ _
    | with_reducible apply Fr.ite
    | with_reducible apply Fr.step (State.accessOne_fr ..)
    | with_reducible apply Fr.step (State.lowerFirst_fr ..)
    | with_reducible apply Fr.unmark

theorem State.retryStall_fr (s : State) (x : StalledAcc) : Fr 59443767294 200867255532373784442745261542645325315275374222849104412671 s (State.retryStall s x) := by
  unfold State.retryStall
  dsimp only
  repeat' first
    | with_reducible assumption
    | with_reducible exact HasReg.all
    | ((with_reducible apply orDec); rfl)
    | with_reducible intro _
    | with_reducible exact Fr.refl _ _ _
    | with_reducible apply Fr.ite
    | with_reducible apply Fr.step (State.pushStall_fr ..)
    | with_reducible apply Fr.step (State.runXfer_fr ..)

theorem State.runStalls_fr (s : State) : Fr 59443767294 200867255532373784442745261542645325315275374222849104412671 s (State.runStalls s) := by
  unfold State.runStalls
  repeat' first
    | with_reducible assumption
    | with_reducible exact HasReg.all
    | ((with_reducible apply orDec); rfl)
    | ((with_reducible apply bitDec); rfl)
    | with_reducible intro _
    | with_reducible exact Fr.refl _ _ _
    | with_reducible apply Fr.ite
    | with_reducible apply Fr.step (State.retryStall_fr ..)
    | with_reducible apply Fr.withPdc
    | with_reducible apply Fr.foldl

theorem State.tmlSel_fr (s : State) (m i cmd : Nat) : Fr 59443767294 200867255532373784442745261542645325315275374222849104412671 s (State.tmlSel s m i cmd) := by
  unfold State.tmlSel
  repeat' first
    | with_reducible assumption
    | with_reducible exact HasReg.all
    | ((with_reducible apply orDec); rfl)
    | with_reducible intro _
    | with_reducible exact Fr.refl _ _ _
    | with_reducible apply Fr.ite
    | with_reducible apply Fr.step (State.access_fr ..)

end Sys2Proof.Machine
end

