-- ==== Sys2Proof/Laws/FrActivate.lean ====
section
/-!
SUPPORT. What the operations of Sys2Proof/Machine/Activate.lean may change.
-/
namespace Sys2Proof.Machine

theorem State.takeNumber_fr (s : State) : Fr 17567737594 28421910042690324559437205422914278456369689858666397696 s (State.takeNumber s) := by
  unfold State.takeNumber
  dsimp only
  repeat' first
    | with_reducible exact fldNil
    | with_reducible apply fldCons
    | with_reducible assumption
    | ((with_reducible apply orDec); rfl)
    | ((with_reducible apply bitDec); rfl)
    | with_reducible intro _
    | with_reducible exact Fr.refl _ _ _
    | with_reducible apply Fr.ite
    | with_reducible apply Fr.step (State.raise_fr ..)
    | with_reducible apply State.fields_fr
    | with_reducible apply Fr.when
    | with_reducible apply Fr.each
    | with_reducible apply Fr.setWord
    | with_reducible apply Fr.withFab
    | with_reducible apply Fr.getD
    | with_reducible apply DRV_BARN.reg
    | with_reducible apply DRV_ROUTE.reg
    | ((with_reducible apply HasReg.as); simp only [DRV_BARN.MEMBER_addr, DRV_BARN.NUMBERED_addr])

theorem State.planRegs_fr (s : State) (src : Nat) : Fr 0 71 s (State.planRegs s src) := by
  unfold State.planRegs
  dsimp only
  repeat' first
    | with_reducible exact fldNil
    | with_reducible apply fldCons
    | with_reducible assumption
    | ((with_reducible apply bitDec); rfl)
    | with_reducible intro _
    | with_reducible exact Fr.refl _ _ _
    | with_reducible apply Fr.ite
    | with_reducible apply State.fields_fr
    | with_reducible apply Fr.each
    | with_reducible apply Fr.setWord
    | with_reducible apply Fr.getD
    | with_reducible apply PLN_STATUS.reg
    | with_reducible apply PLN_ACTIVE_ID.reg
    | with_reducible apply PLN_ACTIVE_BUILD.reg
    | with_reducible apply PLN_HASH.reg
    | ((with_reducible apply HasReg.as); simp only [PLN_ACTIVE_BUILD.BUILD_addr, PLN_ACTIVE_ID.PLAN_ID_addr, PLN_STATUS.SOURCE_addr])

theorem State.setStalls_fr (s : State) : Fr 0 9415652603080021145753684134811499624153533166696051769344 s (State.setStalls s) := by
  unfold State.setStalls
  dsimp only
  repeat' first
    | with_reducible assumption
    | ((with_reducible apply bitDec); rfl)
    | with_reducible intro _
    | with_reducible exact Fr.refl _ _ _
    | with_reducible apply Fr.ite
    | with_reducible apply Fr.each
    | with_reducible apply Fr.setWord
    | with_reducible apply STL_STALL.reg
    | with_reducible apply STL_LANE.reg

theorem State.setEfuse_fr (s : State) (n : Nat) : Fr 0 76059036013693764089802192322560 s (State.setEfuse s n) := by
  unfold State.setEfuse
  dsimp only
  repeat' first
    | with_reducible exact fldNil
    | with_reducible apply fldCons
    | with_reducible assumption
    | ((with_reducible apply bitDec); rfl)
    | with_reducible intro _
    | with_reducible exact Fr.refl _ _ _
    | with_reducible apply Fr.ite
    | with_reducible apply State.fields_fr
    | with_reducible apply PPW_RAMP.reg
    | with_reducible apply PPW_LIMIT.reg
    | with_reducible apply PPW_TRIP.reg
    | with_reducible apply PPW_RETRY.reg
    | ((with_reducible apply HasReg.as); simp only [PPW_LIMIT.ILIM_addr, PPW_RAMP.GATE_STUCK_addr, PPW_RAMP.RAMP_addr, PPW_RAMP.SEAT_DEB_addr, PPW_RETRY.RETRIES_addr, PPW_RETRY.RETRY_addr, PPW_TRIP.FAST_addr, PPW_TRIP.SLOW_addr])

theorem State.setChannel_fr (s : State) (n : Nat) : Fr 576 255211932391757676290830543914014867456 s (State.setChannel s n) := by
  unfold State.setChannel
  dsimp only
  repeat' first
    | with_reducible exact fldNil
    | with_reducible apply fldCons
    | with_reducible assumption
    | ((with_reducible apply orDec); rfl)
    | ((with_reducible apply bitDec); rfl)
    | with_reducible intro _
    | with_reducible exact Fr.refl _ _ _
    | with_reducible apply Fr.ite
    | with_reducible apply Fr.step (State.setEfuse_fr ..)
    | with_reducible apply Fr.step (State.tcMod_fr ..)
    | with_reducible apply Fr.step (State.chMod_fr ..)
    | with_reducible apply Fr.step (State.setLimit_fr ..)
    | with_reducible apply State.fields_fr
    | with_reducible apply Fr.p
    | with_reducible apply Fr.getD
    | with_reducible apply TCP_VSET.reg
    | with_reducible apply PPW_RETRY.reg
    | with_reducible apply PPW_STATUS.reg
    | with_reducible apply BUD_PORT.reg
    | with_reducible apply BUD_RLIM.reg
    | ((with_reducible apply HasReg.as); simp only [BUD_PORT.PRIORITY_addr, BUD_PORT.REDUCED_addr, BUD_PORT.SHED_addr, BUD_RLIM.RLIM_addr, PPW_RETRY.COUNT_addr, PPW_STATUS.REDUCED_addr, PPW_STATUS.SEATED_addr, PPW_STATUS.STATE_addr, TCP_VSET.CODE_addr, TCP_VSET.TARGET_addr])

theorem State.setPower_fr (s : State) : Fr 832 287113404290595657240521913360743137280 s (State.setPower s) := by
  unfold State.setPower
  dsimp only
  repeat' first
    | with_reducible exact fldNil
    | with_reducible apply fldCons
    | with_reducible assumption
    | ((with_reducible apply orDec); rfl)
    | ((with_reducible apply bitDec); rfl)
    | with_reducible intro _
    | with_reducible exact Fr.refl _ _ _
    | with_reducible apply Fr.ite
    | with_reducible apply Fr.step (State.setChannel_fr ..)
    | with_reducible apply State.fields_fr
    | with_reducible apply Fr.each
    | with_reducible apply Fr.withBud
    | with_reducible apply BUD_STATUS.reg
    | with_reducible apply BUD_STATE.reg
    | ((with_reducible apply HasReg.as); simp only [BUD_STATE.REDUCING_addr, BUD_STATE.SHEDDING_addr, BUD_STATUS.BUDGET_addr])

theorem State.setDomains_fr (s : State) : Fr 1048610 4893107482328314757219438361475514921698891292213248 s (State.setDomains s) := by
  unfold State.setDomains
  repeat' first
    | with_reducible exact fldNil
    | with_reducible apply fldCons
    | with_reducible assumption
    | ((with_reducible apply orDec); rfl)
    | ((with_reducible apply bitDec); rfl)
    | with_reducible intro _
    | with_reducible exact Fr.refl _ _ _
    | with_reducible apply Fr.ite
    | with_reducible apply Fr.step (State.releaseFailed_fr ..)
    | with_reducible apply State.fields_fr
    | with_reducible apply Fr.each
    | with_reducible apply Fr.getD
    | with_reducible apply PDC_CFG.reg
    | with_reducible apply PDC_RETUS.reg
    | ((with_reducible apply HasReg.as); simp only [PDC_CFG.ALLOW_OFF_addr, PDC_CFG.ALLOW_RET_addr, PDC_CFG.OFF_MS_addr, PDC_CFG.PREDICT_addr, PDC_CFG.QUIET_MS_addr, PDC_RETUS.RET_US_addr])

theorem State.setFaults_fr (s : State) : Fr 0 574685827824708321884380135181365943857027170818850816 s (State.setFaults s) := by
  unfold State.setFaults
  dsimp only
  repeat' first
    | with_reducible assumption
    | ((with_reducible apply bitDec); rfl)
    | with_reducible intro _
    | with_reducible exact Fr.refl _ _ _
    | with_reducible apply Fr.ite
    | with_reducible apply Fr.p
    | with_reducible apply Fr.each
    | with_reducible apply Fr.setWord
    | with_reducible apply Fr.foldl
    | with_reducible apply Fr.foldlSnd
    | with_reducible apply FLT_SEV.reg
    | with_reducible apply FLT_ALERT.reg
    | ((with_reducible apply HasReg.as); simp only [bitFld_addr])

theorem State.closeAll_fr (s : State) : Fr 6442455040 784637716923335095479473677900958302012794430558004314112 s (State.closeAll s) := by
  unfold State.closeAll
  repeat' first
    | with_reducible assumption
    | ((with_reducible apply orDec); rfl)
    | ((with_reducible apply bitDec); rfl)
    | with_reducible intro _
    | with_reducible exact Fr.refl _ _ _
    | with_reducible apply Fr.ite
    | with_reducible apply Fr.step (State.closePages_fr ..)
    | with_reducible apply Fr.withPln
    | with_reducible apply Fr.withMsg

theorem State.setMailboxes_fr (s : State) : Fr 8321503264 784637716925117761298781219588334813492214258955888623616 s (State.setMailboxes s) := by
  unfold State.setMailboxes
  repeat' first
    | with_reducible exact fldNil
    | with_reducible apply fldCons
    | with_reducible assumption
    | ((with_reducible apply orDec); rfl)
    | ((with_reducible apply bitDec); rfl)
    | with_reducible intro _
    | with_reducible exact Fr.refl _ _ _
    | with_reducible apply Fr.ite
    | with_reducible apply Fr.step (State.closeAll_fr ..)
    | with_reducible apply Fr.step (State.emptyMailboxes_fr ..)
    | with_reducible apply State.fields_fr
    | with_reducible apply Fr.each
    | with_reducible apply MBX_ASSIGN.reg
    | ((with_reducible apply HasReg.as); simp only [MBX_ASSIGN.NOTIFY_addr, MBX_ASSIGN.PARTY_addr, MBX_ASSIGN.TIMEOUT_addr])
    | split

theorem State.setGpios_fr (s : State) : Fr 0 62771017353866807638357894232076664161023554444640345128960 s (State.setGpios s) := by
  unfold State.setGpios
  dsimp only
  repeat' first
    | with_reducible assumption
    | ((with_reducible apply bitDec); rfl)
    | with_reducible intro _
    | with_reducible exact Fr.refl _ _ _
    | with_reducible apply Fr.ite
    | with_reducible apply Fr.each
    | with_reducible apply Fr.setWord
    | with_reducible apply GPI_CFG.reg
    | with_reducible apply GPI_OUT.reg
    | split

theorem State.setSeed_fr (s : State) : Fr 0 58028439341502200385896448 s (State.setSeed s) := by
  unfold State.setSeed
  dsimp only
  repeat' first
    | with_reducible exact fldNil
    | with_reducible apply fldCons
    | with_reducible assumption
    | ((with_reducible apply bitDec); rfl)
    | with_reducible intro _
    | with_reducible exact Fr.refl _ _ _
    | with_reducible apply Fr.ite
    | with_reducible apply State.fields_fr
    | with_reducible apply Fr.getD
    | with_reducible apply DRV_SEED_LO.reg
    | with_reducible apply DRV_SEED_HI.reg
    | ((with_reducible apply HasReg.as); simp only [DRV_SEED_HI.SEED_HI_addr, DRV_SEED_LO.SEED_LO_addr])

theorem State.setContexts_fr (s : State) : Fr 1024 2617245696 s (State.setContexts s) := by
  unfold State.setContexts
  dsimp only
  repeat' first
    | with_reducible exact fldNil
    | with_reducible apply fldCons
    | with_reducible assumption
    | ((with_reducible apply bitDec); rfl)
    | with_reducible intro _
    | with_reducible exact Fr.refl _ _ _
    | with_reducible apply Fr.ite
    | with_reducible apply State.fields_fr
    | with_reducible apply Fr.each
    | with_reducible apply Fr.setWord
    | with_reducible apply Fr.withSs
    | with_reducible apply Fr.getD
    | with_reducible apply SSH_CTX.reg
    | with_reducible apply SSH_PORT.reg
    | with_reducible apply SSH_PORT_LPM.reg
    | with_reducible apply SSH_USP_LPM.reg
    | ((with_reducible apply HasReg.as); simp only [SSH_PORT.CTX_addr, SSH_PORT.HP_IN_addr, SSH_PORT.HP_OUT_addr])

theorem State.setEngines_fr (s : State) : Fr 114738 4893107481805641041628876881595771958718109411442688 s (State.setEngines s) := by
  unfold State.setEngines
  dsimp only
  repeat' first
    | with_reducible assumption
    | ((with_reducible apply orDec); rfl)
    | ((with_reducible apply bitDec); rfl)
    | with_reducible intro _
    | with_reducible exact Fr.refl _ _ _
    | with_reducible apply Fr.ite
    | with_reducible apply Fr.step (State.ttReset_fr ..)
    | with_reducible apply Fr.each
    | with_reducible apply Fr.setWord
    | with_reducible apply Fr.withTtOp
    | with_reducible apply Fr.withHs
    | with_reducible apply Fr.getD
    | with_reducible apply HSH_ENG.reg
    | with_reducible apply HSH_PORT.reg
    | split

theorem State.setCarries_fr (s : State) : Fr 0 13510798882111488 s (State.setCarries s) := by
  unfold State.setCarries
  dsimp only
  repeat' first
    | with_reducible assumption
    | ((with_reducible apply bitDec); rfl)
    | with_reducible intro _
    | with_reducible exact Fr.refl _ _ _
    | with_reducible apply Fr.ite
    | with_reducible apply Fr.when
    | with_reducible apply Fr.each
    | with_reducible apply Fr.hw
    | with_reducible apply Fr.setWord
    | with_reducible apply HSH_CARRY.reg
    | with_reducible apply HSH_EVT.reg
    | ((with_reducible apply HasReg.as); simp only [HSH_EVT.CARRY_CONFLICT_addr])
    | split

theorem State.setMirror_fr (s : State) : Fr 12058624 0 s (State.setMirror s) := by
  unfold State.setMirror
  dsimp only
  repeat' first
    | with_reducible assumption
    | ((with_reducible apply bitDec); rfl)
    | with_reducible intro _
    | with_reducible exact Fr.refl _ _ _
    | with_reducible apply Fr.ite
    | with_reducible apply Fr.withHandoff
    | with_reducible apply Fr.withHubWaits
    | with_reducible apply Fr.withPort
    | with_reducible apply Fr.withMirror

theorem State.setPaddocks_fr (s : State) : Fr 201326592 11417981541647679048466287760207647109489360896 s (State.setPaddocks s) := by
  unfold State.setPaddocks
  dsimp only
  repeat' first
    | with_reducible assumption
    | ((with_reducible apply bitDec); rfl)
    | with_reducible intro _
    | with_reducible exact Fr.refl _ _ _
    | with_reducible apply Fr.ite
    | with_reducible apply Fr.each
    | with_reducible apply Fr.setWord
    | with_reducible apply Fr.withDp
    | with_reducible apply Fr.withTack
    | with_reducible apply Fr.getD
    | with_reducible apply UPP_PADDOCK.reg
    | with_reducible apply TKR_FUNC.reg
    | split

theorem State.freeQueues_fr (s : State) : Fr 2 1461501637330902918203684832716283019655932542976 s (State.freeQueues s) := by
  unfold State.freeQueues
  repeat' first
    | with_reducible assumption
    | ((with_reducible apply orDec); rfl)
    | ((with_reducible apply bitDec); rfl)
    | with_reducible intro _
    | with_reducible exact Fr.refl _ _ _
    | with_reducible apply Fr.ite
    | with_reducible apply Fr.step (State.unstage_fr ..)
    | with_reducible apply Fr.p
    | with_reducible apply Fr.each
    | with_reducible apply OBS_Q_CTRL.reg
    | ((with_reducible apply HasReg.as); simp only [OBS_Q_CTRL.OWNER_addr])

theorem State.setYards_fr (s : State) (old : Plan) : Fr 4 256 s (State.setYards s old) := by
  unfold State.setYards
  repeat' first
    | with_reducible assumption
    | ((with_reducible apply orDec); rfl)
    | ((with_reducible apply bitDec); rfl)
    | with_reducible intro _
    | with_reducible exact Fr.refl _ _ _
    | with_reducible apply Fr.ite
    | with_reducible apply Fr.step (State.yardMod_fr ..)
    | with_reducible apply Fr.each
    | with_reducible apply Fr.setWord
    | with_reducible apply Fr.withYards
    | with_reducible apply YRD_STATUS.reg

theorem State.setPredictor_fr (s : State) : Fr 56 12582912 s (State.setPredictor s) := by
  unfold State.setPredictor
  dsimp only
  repeat' first
    | with_reducible assumption
    | ((with_reducible apply orDec); rfl)
    | ((with_reducible apply bitDec); rfl)
    | with_reducible intro _
    | with_reducible exact Fr.refl _ _ _
    | with_reducible apply Fr.ite
    | with_reducible apply Fr.step (State.patIdle_fr ..)
    | with_reducible apply Fr.each
    | with_reducible apply Fr.setWord
    | with_reducible apply Fr.withPred
    | with_reducible apply TML_PRED.reg

theorem State.setPool_fr (s : State) : Fr 0 34909494181888 s (State.setPool s) := by
  unfold State.setPool
  dsimp only
  repeat' first
    | with_reducible exact fldNil
    | with_reducible apply fldCons
    | with_reducible assumption
    | ((with_reducible apply bitDec); rfl)
    | with_reducible intro _
    | with_reducible exact Fr.refl _ _ _
    | with_reducible apply Fr.ite
    | with_reducible apply State.fields_fr
    | with_reducible apply Fr.p
    | with_reducible apply Fr.when
    | with_reducible apply Fr.each
    | with_reducible apply Fr.hw
    | with_reducible apply Fr.setWord
    | with_reducible apply PBF_STATUS.reg
    | with_reducible apply PBF_SHARED.reg
    | with_reducible apply PBF_SHARED_FREE.reg
    | with_reducible apply PBF_BANK_FREE.reg
    | with_reducible apply PBF_RESV.reg
    | with_reducible apply PBF_USED.reg
    | with_reducible apply PBF_EVT.reg
    | ((with_reducible apply HasReg.as); simp only [PBF_BANK_FREE.FREE_addr, PBF_EVT.RESV_ERR_addr, PBF_SHARED.SIZE_addr, PBF_SHARED_FREE.FREE_addr, PBF_STATUS.BANK_LOW_addr, PBF_STATUS.FREE_addr, PBF_USED.USED_addr])

theorem State.enableBlocks_fr (s : State) : Fr 384 5708990776141400862631017731328369328960585728 s (State.enableBlocks s) := by
  unfold State.enableBlocks
  repeat' first
    | with_reducible exact fldNil
    | with_reducible apply fldCons
    | with_reducible assumption
    | ((with_reducible apply orDec); rfl)
    | ((with_reducible apply bitDec); rfl)
    | with_reducible intro _
    | with_reducible exact Fr.refl _ _ _
    | with_reducible apply Fr.ite
    | with_reducible apply Fr.step (State.restartBlocks_fr ..)
    | with_reducible apply State.fields_fr
    | with_reducible apply Fr.when
    | with_reducible apply TML_CTRL.reg
    | with_reducible apply SSH_CTRL.reg
    | with_reducible apply PBF_CTRL.reg
    | with_reducible apply HSH_CTRL.reg
    | with_reducible apply TTA_CTRL.reg
    | with_reducible apply GLK_CTRL.reg
    | with_reducible apply DRV_CTRL.reg
    | with_reducible apply TCP_CTRL.reg
    | with_reducible apply PPW_CTRL.reg
    | with_reducible apply TLM_CTRL.reg
    | with_reducible apply BUD_CTRL.reg
    | with_reducible apply TKR_CTRL.reg
    | ((with_reducible apply HasReg.as); simp only [BUD_CTRL.ENABLE_addr, DRV_CTRL.ENABLE_addr, GLK_CTRL.ENABLE_addr, HSH_CTRL.ENABLE_addr, PBF_CTRL.ENABLE_addr, PPW_CTRL.ENABLE_addr, SSH_CTRL.ENABLE_addr, TCP_CTRL.ENABLE_addr, TKR_CTRL.ENABLE_addr, TLM_CTRL.ENABLE_addr, TML_CTRL.ENABLE_addr, TTA_CTRL.ENABLE_addr])

theorem State.preload_fr (s : State) : Fr 25084028926 200867255532373784442745261542645325315275374222849104412671 s (State.preload s) := by
  unfold State.preload
  repeat' first
    | with_reducible assumption
    | with_reducible exact HasReg.all
    | ((with_reducible apply orDec); rfl)
    | with_reducible intro _
    | with_reducible exact Fr.refl _ _ _
    | with_reducible apply Fr.ite
    | with_reducible apply Fr.step (State.writeReg_fr ..)
    | with_reducible apply Fr.foldl

theorem State.storeDescs_fr (s : State) : Fr 34359738368 0 s (State.storeDescs s) := by
  unfold State.storeDescs
  dsimp only
  repeat' first
    | with_reducible assumption
    | ((with_reducible apply orDec); rfl)
    | with_reducible intro _
    | with_reducible exact Fr.refl _ _ _
    | with_reducible apply Fr.ite
    | with_reducible apply Fr.step (State.epStore_fr ..)

theorem State.applyPlan_fr (s : State) (p : Plan) (src : Nat) : Fr 60129540095 200867255532373784442745261542645325315275374222849104412671 s (State.applyPlan s p src) := by
  unfold State.applyPlan
  dsimp only
  repeat' first
    | with_reducible apply Fr.pAny
    | with_reducible assumption
    | with_reducible exact HasReg.all
    | ((with_reducible apply orDec); rfl)
    | ((with_reducible apply bitDec); rfl)
    | with_reducible intro _
    | with_reducible exact Fr.refl _ _ _
    | with_reducible apply Fr.ite
    | with_reducible apply Fr.step (State.planRegs_fr ..)
    | with_reducible apply Fr.step (State.takeNumber_fr ..)
    | with_reducible apply Fr.step (State.setSeed_fr ..)
    | with_reducible apply Fr.step (State.setGpios_fr ..)
    | with_reducible apply Fr.step (State.setMailboxes_fr ..)
    | with_reducible apply Fr.step (State.setFaults_fr ..)
    | with_reducible apply Fr.step (State.setDomains_fr ..)
    | with_reducible apply Fr.step (State.setPower_fr ..)
    | with_reducible apply Fr.step (State.setStalls_fr ..)
    | with_reducible apply Fr.step (State.freeQueues_fr ..)
    | with_reducible apply Fr.step (State.setMirror_fr ..)
    | with_reducible apply Fr.step (State.setCarries_fr ..)
    | with_reducible apply Fr.step (State.setEngines_fr ..)
    | with_reducible apply Fr.step (State.setContexts_fr ..)
    | with_reducible apply Fr.step (State.setPaddocks_fr ..)
    | with_reducible apply Fr.step (State.storeDescs_fr ..)
    | with_reducible apply Fr.step (State.setPool_fr ..)
    | with_reducible apply Fr.step (State.refTimeline_fr ..)
    | with_reducible apply Fr.step (State.preload_fr ..)
    | with_reducible apply Fr.step (State.enableBlocks_fr ..)
    | with_reducible apply Fr.step (State.loadTimeline_fr ..)
    | with_reducible apply Fr.step (State.setPredictor_fr ..)
    | with_reducible apply Fr.step (State.setYards_fr ..)
    | with_reducible apply Fr.p
    | with_reducible apply Fr.each
    | with_reducible apply Fr.withBoot
    | with_reducible apply Fr.withPlan
    | with_reducible apply Fr.withTt
    | with_reducible apply Fr.withHolders
    | with_reducible apply Fr.withGlk

theorem State.enterPlan_fr (s : State) (cause : Nat) : Fr 17550952186 27589812854485798968375446685516259016826702600918269952 s (State.enterPlan s cause) := by
  unfold State.enterPlan
  repeat' first
    | with_reducible assumption
    | ((with_reducible apply orDec); rfl)
    | with_reducible intro _
    | with_reducible exact Fr.refl _ _ _
    | with_reducible apply Fr.ite
    | with_reducible apply Fr.step (State.setMode_fr ..)
    | with_reducible apply Fr.step (State.safeOutputs_fr ..)

theorem State.beginBarn_fr (s : State) : Fr 393270 3069884189213583357758322931337563467765900815649218560 s (State.beginBarn s) := by
  unfold State.beginBarn
  repeat' first
    | with_reducible assumption
    | ((with_reducible apply orDec); rfl)
    | ((with_reducible apply bitDec); rfl)
    | with_reducible intro _
    | with_reducible exact Fr.refl _ _ _
    | with_reducible apply Fr.ite
    | with_reducible apply Fr.step (State.setLead_fr ..)
    | with_reducible apply Fr.step (State.fabMod_fr ..)
    | with_reducible apply Fr.step (State.maybeFlood_fr ..)
    | with_reducible apply Fr.step (State.trainLinks_fr ..)
    | with_reducible apply Fr.step (State.setStep_fr ..)
    | with_reducible apply Fr.p
    | with_reducible apply DRV_BARN.reg
    | ((with_reducible apply HasReg.as); simp only [DRV_BARN.FORMED_addr, DRV_BARN.PRESENT_addr])

theorem State.takeRoles_fr (s : State) : Fr 2 4893107481783862970237210139030626637476374582919168 s (State.takeRoles s) := by
  unfold State.takeRoles
  repeat' first
    | with_reducible assumption
    | ((with_reducible apply orDec); rfl)
    | with_reducible intro _
    | with_reducible exact Fr.refl _ _ _
    | with_reducible apply Fr.ite
    | with_reducible apply Fr.step (State.setLimit_fr ..)
    | with_reducible apply Fr.step (State.toUnattached_fr ..)
    | with_reducible apply Fr.each

theorem State.enterService_fr (s : State) (cause : Nat) : Fr 17701955326 28421910042690324601972704112127622905995755260150292480 s (State.enterService s cause) := by
  unfold State.enterService
  dsimp only
  repeat' first
    | with_reducible assumption
    | ((with_reducible apply orDec); rfl)
    | with_reducible intro _
    | with_reducible exact Fr.refl _ _ _
    | with_reducible apply Fr.ite
    | with_reducible apply Fr.step (State.setMode_fr ..)
    | with_reducible apply Fr.step (State.takeRoles_fr ..)
    | with_reducible apply Fr.step (State.toUnattached_fr ..)
    | with_reducible apply Fr.step (State.errorRecovery_fr ..)
    | with_reducible apply Fr.step (State.beginBarn_fr ..)
    | with_reducible apply Fr.step (State.tryRamp_fr ..)
    | with_reducible apply Fr.each

end Sys2Proof.Machine
end

