-- ==== Sys2Proof/Laws/FrSlots.lean ====
section
/-!
SUPPORT. What the operations of Sys2Proof/Machine/Slots.lean may change.
-/
namespace Sys2Proof.Machine

theorem State.plnMod_fr (s : State) (f : PlnS → PlnS) : Fr 4096 0 s (State.plnMod s f) := by
  unfold State.plnMod
  repeat' first
    | with_reducible assumption
    | ((with_reducible apply bitDec); rfl)
    | with_reducible intro _
    | with_reducible exact Fr.refl _ _ _
    | with_reducible apply Fr.ite
    | with_reducible apply Fr.withPln

theorem State.discardUpload_fr (s : State) : Fr 6710890530 784642610055346327042324084069582841901840271387308064769 s (State.discardUpload s) := by
  unfold State.discardUpload
  dsimp only
  repeat' first
    | with_reducible exact fldNil
    | with_reducible apply fldCons
    | with_reducible assumption
    | ((with_reducible apply orDec); rfl)
    | ((with_reducible apply bitDec); rfl)
    | with_reducible intro _
    | with_reducible exact Fr.refl _ _ _
    | with_reducible apply Fr.ite
    | with_reducible apply Fr.step (State.answer_fr ..)
    | with_reducible apply Fr.step (State.plnMod_fr ..)
    | with_reducible apply State.fields_fr
    | with_reducible apply PLN_STATUS.reg
    | ((with_reducible apply HasReg.as); simp only [PLN_STATUS.OWNER_addr, PLN_STATUS.UPLOAD_addr])
    | split

theorem State.planRecord_fr (s : State) (code src id : Nat) : Fr 2 4893107481783862970145936819934115549808062153883648 s (State.planRecord s code src id) := by
  unfold State.planRecord
  repeat' first
    | with_reducible assumption
    | ((with_reducible apply orDec); rfl)
    | with_reducible intro _
    | with_reducible exact Fr.refl _ _ _
    | with_reducible apply Fr.ite
    | with_reducible apply Fr.step (State.record_fr ..)

theorem State.reject_fr (s : State) (code src id : Nat) : Fr 17567737594 28421910042690324559437205422914278456369689858666397697 s (State.reject s code src id) := by
  unfold State.reject
  repeat' first
    | with_reducible assumption
    | ((with_reducible apply orDec); rfl)
    | ((with_reducible apply bitDec); rfl)
    | with_reducible intro _
    | with_reducible exact Fr.refl _ _ _
    | with_reducible apply Fr.ite
    | with_reducible apply Fr.step (State.raise_fr ..)
    | with_reducible apply Fr.step (State.planRecord_fr ..)
    | with_reducible apply Fr.p
    | with_reducible apply PLN_STATUS.reg
    | ((with_reducible apply HasReg.as); simp only [PLN_STATUS.LAST_ERR_addr])

theorem State.activatePlan_fr (s : State) (p : Plan) (src : Nat) : Fr 60129540095 200867255532373784442745261542645325315275374222849104412671 s (State.activatePlan s p src) := by
  unfold State.activatePlan
  repeat' first
    | with_reducible assumption
    | with_reducible exact HasReg.all
    | ((with_reducible apply orDec); rfl)
    | with_reducible intro _
    | with_reducible exact Fr.refl _ _ _
    | with_reducible apply Fr.ite
    | with_reducible apply Fr.step (State.planRecord_fr ..)
    | with_reducible apply Fr.step (State.applyPlan_fr ..)

end Sys2Proof.Machine
end

