-- ==== Sys2Proof/Laws/FrBoot.lean ====
section
/-!
SUPPORT. What the operations of Sys2Proof/Machine/Boot.lean may change.
-/
namespace Sys2Proof.Machine

theorem State.bootMod_fr (s : State) (f : BootS → BootS) : Fr 8192 0 s (State.bootMod s f) := by
  unfold State.bootMod
  repeat' first
    | with_reducible assumption
    | ((with_reducible apply bitDec); rfl)
    | with_reducible intro _
    | with_reducible exact Fr.refl _ _ _
    | with_reducible apply Fr.ite
    | with_reducible apply Fr.withBoot

theorem State.yardStart_fr (s : State) : Fr 0 256 s (State.yardStart s) := by
  unfold State.yardStart
  repeat' first
    | with_reducible exact fldNil
    | with_reducible apply fldCons
    | with_reducible assumption
    | ((with_reducible apply bitDec); rfl)
    | with_reducible intro _
    | with_reducible exact Fr.refl _ _ _
    | with_reducible apply Fr.ite
    | with_reducible apply State.fields_fr
    | with_reducible apply YRD_STATUS.reg
    | ((with_reducible apply HasReg.as); simp only [YRD_STATUS.COARSE_addr, YRD_STATUS.STATE_addr])

theorem State.cleared_fr  (s : State) (por grave : Bool) : Fr 68719474687 200867255532373784442745261542645325315275374222849104412671 s (s.cleared por grave) :=
  ⟨fun i hi => by cases i <;> first | rfl | exact absurd hi (by decide), fun _ ha => (ha .all).elim, rfl, rfl,
    List.suffix_refl _, fun hw => wf_iff.2 ⟨regsWf_filter _ (wf_iff.1 hw).1, rfl⟩⟩

theorem State.wiped_fr (s : State) (por : Bool) : Fr 68719474687 200867255532373784442745261542645325315275374222849104412671 s (State.wiped s por) := by
  unfold State.wiped
  dsimp only
  repeat' first
    | with_reducible apply Fr.hwAny
    | with_reducible apply Fr.pAny
    | with_reducible assumption
    | with_reducible exact HasReg.all
    | ((with_reducible apply orDec); rfl)
    | with_reducible intro _
    | with_reducible exact Fr.refl _ _ _
    | with_reducible apply Fr.ite
    | with_reducible apply Fr.step (State.yardStart_fr ..)
    | with_reducible apply Fr.step (State.cleared_fr ..)
    | with_reducible apply Fr.p
    | with_reducible apply Fr.when
    | with_reducible apply Fr.each

theorem State.dischAll_fr (s : State) : Fr 0 81129638414606681695789005144064 s (State.dischAll s) := by
  unfold State.dischAll
  repeat' first
    | with_reducible assumption
    | ((with_reducible apply bitDec); rfl)
    | with_reducible intro _
    | with_reducible exact Fr.refl _ _ _
    | with_reducible apply Fr.ite
    | with_reducible apply Fr.p
    | with_reducible apply Fr.each
    | with_reducible apply PPW_STATUS.reg
    | ((with_reducible apply HasReg.as); simp only [PPW_STATUS.DISCH_addr])

theorem State.chipWide_fr (s : State) : Fr 68719474687 200867255532373784442745261542645325315275374222849104412671 s (State.chipWide s) := by
  unfold State.chipWide
  dsimp only
  repeat' first
    | with_reducible apply Fr.setAny
    | with_reducible assumption
    | with_reducible exact HasReg.all
    | ((with_reducible apply orDec); rfl)
    | ((with_reducible apply bitDec); rfl)
    | with_reducible intro _
    | with_reducible exact Fr.refl _ _ _
    | with_reducible apply Fr.ite
    | with_reducible apply Fr.step (State.bootMod_fr ..)
    | with_reducible apply Fr.step (State.wiped_fr ..)
    | with_reducible apply Fr.step (State.safeOutputs_fr ..)
    | with_reducible apply Fr.step (State.setLimit_fr ..)
    | with_reducible apply Fr.step (State.setEfuse_fr ..)
    | with_reducible apply Fr.step (State.dischAll_fr ..)
    | with_reducible apply Fr.when
    | with_reducible apply Fr.setWord
    | with_reducible apply Fr.withChan

theorem State.afterReset_fr {m b : Nat} {r : State} {s : State} {cause : Fld} (hm : 34 ||| m = m) (hb : 73570665379750990470760457626955927161958539803483963392 ||| b = b)
    (hf : HasReg b (cause.addr)) (h : Fr m b r s) : Fr m b r (State.afterReset s cause) := by
  unfold State.afterReset
  dsimp only
  repeat' first
    | with_reducible assumption
    | ((with_reducible apply orTrans (M := 73570665379750990470760457626955927161958539803483963392) (hm := hb)); rfl)
    | ((with_reducible apply orTrans (M := 34) (hm := hm)); rfl)
    | with_reducible apply hf
    | ((with_reducible apply bitOr (M := 73570665379750990470760457626955927161958539803483963392) (hm := hb)); rfl)
    | with_reducible intro _
    | with_reducible exact Fr.refl _ _ _
    | with_reducible apply Fr.ite
    | with_reducible apply Fr.step (State.record_fr ..)
    | with_reducible apply Fr.step (State.setMode_fr ..)
    | with_reducible apply Fr.p
    | with_reducible apply Fr.when
    | with_reducible apply Fr.hw
    | with_reducible apply Fr.setWord
    | with_reducible apply FLT_STATUS.reg
    | with_reducible apply TOP_MODE.reg
    | with_reducible apply TOP_RESET_CAUSE.reg
    | ((with_reducible apply HasReg.as); simp only [FLT_STATUS.SAFE_addr, TOP_MODE.BOOT_STEP_addr, TOP_MODE.SAFE_CAUSE_addr, TOP_RESET_CAUSE.GRAVE_KEPT_addr])

theorem State.strap_fr (s : State) (src : Nat) (life : Bool) (i2c : Nat) (maker : Bool) : Fr 0 12259964326927110866866776217202473468949912977468817408 s (State.strap s src life i2c maker) := by
  unfold State.strap
  repeat' first
    | with_reducible exact fldNil
    | with_reducible apply fldCons
    | with_reducible assumption
    | ((with_reducible apply bitDec); rfl)
    | with_reducible intro _
    | with_reducible exact Fr.refl _ _ _
    | with_reducible apply Fr.ite
    | with_reducible apply State.fields_fr
    | with_reducible apply TOP_STRAP.reg
    | ((with_reducible apply HasReg.as); simp only [TOP_STRAP.BOOTSRC_addr, TOP_STRAP.I2CADDR_addr, TOP_STRAP.LIFE_EN_addr, TOP_STRAP.MAKER_EN_addr])

theorem State.choosePlan_fr (s : State) (p : Plan) (src : Nat) : Fr 4096 24519928653854221733733552434404946937899825954937634816 s (State.choosePlan s p src) := by
  unfold State.choosePlan
  repeat' first
    | with_reducible assumption
    | ((with_reducible apply orDec); rfl)
    | ((with_reducible apply bitDec); rfl)
    | with_reducible intro _
    | with_reducible exact Fr.refl _ _ _
    | with_reducible apply Fr.ite
    | with_reducible apply Fr.step (State.plnMod_fr ..)
    | with_reducible apply Fr.p
    | with_reducible apply TOP_MODE.reg
    | ((with_reducible apply HasReg.as); simp only [TOP_MODE.BOOT_STEP_addr])

theorem State.enterFetch_fr (s : State) : Fr 4096 24519928653854221733733552434404946937899825954937634817 s (State.enterFetch s) := by
  unfold State.enterFetch
  dsimp only
  repeat' first
    | with_reducible assumption
    | ((with_reducible apply orDec); rfl)
    | ((with_reducible apply bitDec); rfl)
    | with_reducible intro _
    | with_reducible exact Fr.refl _ _ _
    | with_reducible apply Fr.ite
    | with_reducible apply Fr.step (State.plnMod_fr ..)
    | with_reducible apply Fr.step (State.choosePlan_fr ..)
    | with_reducible apply Fr.p
    | with_reducible apply PLN_STATUS.reg
    | with_reducible apply TOP_MODE.reg
    | ((with_reducible apply HasReg.as); simp only [PLN_STATUS.SOURCE_addr, TOP_MODE.BOOT_STEP_addr])
    | split

theorem State.nextSlot_fr (s : State) : Fr 4096 24519928653854221733733552434404946937899825954937634816 s (State.nextSlot s) := by
  unfold State.nextSlot
  repeat' first
    | with_reducible assumption
    | ((with_reducible apply orDec); rfl)
    | ((with_reducible apply bitDec); rfl)
    | with_reducible intro _
    | with_reducible exact Fr.refl _ _ _
    | with_reducible apply Fr.ite
    | with_reducible apply Fr.step (State.choosePlan_fr ..)
    | with_reducible apply Fr.p
    | with_reducible apply TOP_MODE.reg
    | ((with_reducible apply HasReg.as); simp only [TOP_MODE.BOOT_STEP_addr])

theorem State.endPlan_fr (s : State) (same : Bool) : Fr 60129540095 200867255532373784442745261542645325315275374222849104412671 s (State.endPlan s same) := by
  unfold State.endPlan
  repeat' first
    | with_reducible assumption
    | with_reducible exact HasReg.all
    | ((with_reducible apply orDec); rfl)
    | with_reducible intro _
    | with_reducible exact Fr.refl _ _ _
    | with_reducible apply Fr.ite
    | with_reducible apply Fr.step (State.plnMod_fr ..)
    | with_reducible apply Fr.step (State.activatePlan_fr ..)
    | with_reducible apply Fr.step (State.enterService_fr ..)
    | with_reducible apply Fr.step (State.discardUpload_fr ..)
    | with_reducible apply Fr.step (State.reject_fr ..)
    | with_reducible apply Fr.step (State.applyPlan_fr ..)
    | with_reducible apply Fr.step (State.enterFetch_fr ..)
    | with_reducible apply Fr.step (State.setMode_fr ..)
    | split

theorem State.enterLifeline_fr (s : State) : Fr 17567737598 28421910042690324601972704112127622905995755260150292480 s (State.enterLifeline s) := by
  unfold State.enterLifeline
  dsimp only
  repeat' first
    | with_reducible assumption
    | ((with_reducible apply orDec); rfl)
    | with_reducible intro _
    | with_reducible exact Fr.refl _ _ _
    | with_reducible apply Fr.ite
    | with_reducible apply Fr.step (State.toUnattached_fr ..)
    | with_reducible apply Fr.step (State.setMode_fr ..)
    | with_reducible apply Fr.step (State.takeRoles_fr ..)
    | with_reducible apply Fr.step (State.beginBarn_fr ..)
    | with_reducible apply Fr.step (State.tryRamp_fr ..)
    | with_reducible apply Fr.when
    | with_reducible apply Fr.each

end Sys2Proof.Machine
end

