-- ==== Sys2Proof/Laws/FrDomain.lean ====
section
/-!
SUPPORT. What the operations of Sys2Proof/Machine/Domain.lean may change.
-/
namespace Sys2Proof.Machine

theorem State.entryDone_fr (s : State) (d : Nat) : Fr 36574844642 200867255532373784442745261542645325315275374222849104412671 s (State.entryDone s d) := by
  unfold State.entryDone
  dsimp only
  repeat' first
    | with_reducible apply Fr.pAny
    | with_reducible assumption
    | with_reducible exact HasReg.all
    | ((with_reducible apply orDec); rfl)
    | with_reducible intro _
    | with_reducible exact Fr.refl _ _ _
    | with_reducible apply Fr.ite
    | with_reducible apply Fr.step (State.domStep_fr ..)
    | with_reducible apply Fr.step (State.restJudge_fr ..)
    | with_reducible apply Fr.step (State.domRecord_fr ..)
    | with_reducible apply Fr.step (State.loseDomain_fr ..)
    | with_reducible apply Fr.p
    | with_reducible apply Fr.when

theorem State.exitDone_fr (s : State) (d : Nat) : Fr 59443767294 200867255532373784442745261542645325315275374222849104412671 s (State.exitDone s d) := by
  unfold State.exitDone
  dsimp only
  repeat' first
    | with_reducible apply Fr.pAny
    | with_reducible apply Fr.incAny
    | with_reducible assumption
    | with_reducible exact HasReg.all
    | ((with_reducible apply orDec); rfl)
    | with_reducible intro _
    | with_reducible exact Fr.refl _ _ _
    | with_reducible apply Fr.ite
    | with_reducible apply Fr.step (State.wakesDone_fr ..)
    | with_reducible apply Fr.step (State.domMod_fr ..)
    | with_reducible apply Fr.step (State.pmu_fr ..)
    | with_reducible apply Fr.step (State.runStalls_fr ..)
    | with_reducible apply Fr.step (State.domRecord_fr ..)
    | with_reducible apply Fr.step (State.scanInbound_fr ..)
    | with_reducible apply Fr.step (State.maybeFlood_fr ..)
    | with_reducible apply Fr.step (State.trainLinks_fr ..)
    | with_reducible apply Fr.step (State.setStep_fr ..)
    | with_reducible apply Fr.step (State.retryLinks_fr ..)
    | with_reducible apply Fr.step (State.tryRamp_fr ..)
    | with_reducible apply Fr.step (State.wakeUp_fr ..)
    | with_reducible apply Fr.step (State.beginEntry_fr ..)
    | with_reducible apply Fr.p
    | with_reducible apply Fr.inc
    | with_reducible apply Fr.when
    | with_reducible apply Fr.each

theorem State.crystalUp_fr (s : State) : Fr 16777252 10889035741470030830827987437816582766848 s (State.crystalUp s) := by
  unfold State.crystalUp
  repeat' first
    | with_reducible assumption
    | ((with_reducible apply orDec); rfl)
    | ((with_reducible apply bitDec); rfl)
    | with_reducible intro _
    | with_reducible exact Fr.refl _ _ _
    | with_reducible apply Fr.ite
    | with_reducible apply Fr.step (State.yardsCrystal_fr ..)
    | with_reducible apply Fr.step (State.exitStart_fr ..)
    | with_reducible apply Fr.p
    | with_reducible apply Fr.each
    | with_reducible apply PDC_XTAL.reg
    | ((with_reducible apply HasReg.as); simp only [PDC_XTAL.RUNNING_addr])

theorem State.exitFail_fr (s : State) (d : Nat) : Fr 59443771390 200867255532373784442745261542645325315275374222849104412671 s (State.exitFail s d) := by
  unfold State.exitFail
  dsimp only
  repeat' first
    | with_reducible apply Fr.hwAny
    | with_reducible apply Fr.pAny
    | with_reducible assumption
    | with_reducible exact HasReg.all
    | ((with_reducible apply orDec); rfl)
    | with_reducible intro _
    | with_reducible exact Fr.refl _ _ _
    | with_reducible apply Fr.ite
    | with_reducible apply Fr.step (State.domStep_fr ..)
    | with_reducible apply Fr.step (State.loseDomain_fr ..)
    | with_reducible apply Fr.step (State.runStalls_fr ..)
    | with_reducible apply Fr.step (State.raise_fr ..)
    | with_reducible apply Fr.step (State.domRecord_fr ..)
    | with_reducible apply Fr.step (State.domReach_fr ..)
    | with_reducible apply Fr.p
    | with_reducible apply Fr.when
    | with_reducible apply Fr.hw
    | with_reducible apply Fr.keepRegs

end Sys2Proof.Machine
end

