-- ==== Sys2Proof/Laws/FrTimeline.lean ====
section
/-!
SUPPORT. What the operations of Sys2Proof/Machine/Timeline.lean may change.
-/
namespace Sys2Proof.Machine

theorem State.dispatch_fr {m b : Nat} {r : State} {s : State} {i : Nat} {action : Nat} {f : TmlE → State → State} (hm : 17213423648 ||| m = m) (hb : 4863877449037244911781863123279789889414943505121280 ||| b = b)
    (hf : ∀ e t, Fr m b r t → Fr m b r (f e t)) (h : Fr m b r s) : Fr m b r (State.dispatch s i action f) := by
  unfold State.dispatch
  dsimp only
  repeat' first
    | with_reducible assumption
    | ((with_reducible apply orTrans (M := 4863877449037244911781863123279789889414943505121280) (hm := hb)); rfl)
    | ((with_reducible apply orTrans (M := 17213423648) (hm := hm)); rfl)
    | with_reducible apply hf
    | ((with_reducible apply bitOr (M := 17213423648) (hm := hm)); rfl)
    | with_reducible intro _
    | with_reducible exact Fr.refl _ _ _
    | with_reducible apply Fr.ite
    | with_reducible apply Fr.step (State.pmu_fr ..)
    | with_reducible apply Fr.step (State.advanceEntry_fr ..)
    | with_reducible apply Fr.mark
    | with_reducible apply Fr.withTmlOld

theorem State.keepAlive_fr (s : State) (n : Nat) : Fr 16777730 4893107481783862970145936819934115549808062155980800 s (State.keepAlive s n) := by
  unfold State.keepAlive
  dsimp only
  repeat' first
    | with_reducible assumption
    | ((with_reducible apply orDec); rfl)
    | ((with_reducible apply bitDec); rfl)
    | with_reducible intro _
    | with_reducible exact Fr.refl _ _ _
    | with_reducible apply Fr.ite
    | with_reducible apply Fr.step (State.pdSend_fr ..)
    | with_reducible apply Fr.incSat
    | with_reducible apply TML_STATUS.reg
    | ((with_reducible apply HasReg.as); simp only [TML_STATUS.IDLE_KA_addr])

theorem State.driveGpio_fr (s : State) (g : Nat) (on : Bool) : Fr 17567737594 50245235793136136435245752591084245607275213245570942500864 s (State.driveGpio s g on) := by
  unfold State.driveGpio
  repeat' first
    | with_reducible assumption
    | ((with_reducible apply orDec); rfl)
    | ((with_reducible apply bitDec); rfl)
    | with_reducible intro _
    | with_reducible exact Fr.refl _ _ _
    | with_reducible apply Fr.ite
    | with_reducible apply Fr.step (State.raise_fr ..)
    | with_reducible apply Fr.p
    | with_reducible apply Fr.markHw
    | with_reducible apply GPI_OUT.reg
    | ((with_reducible apply HasReg.as); simp only [bitFld_addr])

end Sys2Proof.Machine
end

