-- ==== Sys2Proof/Laws/FrTack.lean ====
section
/-!
SUPPORT. What the operations of Sys2Proof/Machine/Tack.lean may change.
-/
namespace Sys2Proof.Machine

theorem State.tackMod_fr (s : State) (u : Nat) (f : TackS → TackS) : Fr 67108864 0 s (State.tackMod s u f) := by
  unfold State.tackMod
  repeat' first
    | with_reducible assumption
    | ((with_reducible apply bitDec); rfl)
    | with_reducible intro _
    | with_reducible exact Fr.refl _ _ _
    | with_reducible apply Fr.ite
    | with_reducible apply Fr.withTack

theorem State.newRequest_fr (s : State) (slot u : Nat) : Fr 67108896 0 s (State.newRequest s slot u) := by
  unfold State.newRequest
  repeat' first
    | with_reducible assumption
    | ((with_reducible apply orDec); rfl)
    | ((with_reducible apply bitDec); rfl)
    | with_reducible intro _
    | with_reducible exact Fr.refl _ _ _
    | with_reducible apply Fr.ite
    | with_reducible apply Fr.step (State.tackMod_fr ..)
    | with_reducible apply Fr.withPdc

theorem State.tackReq_fr {m b : Nat} {r : State} {s : State} {slot : Nat} {ok : Bool} {f : Nat → State → State} (hm : 67108896 ||| m = m) (hb : 0 ||| b = b)
    (hf : ∀ n t, Fr m b r t → Fr m b r (f n t)) (h : Fr m b r s) : Fr m b r (State.tackReq s slot ok f) := by
  unfold State.tackReq
  repeat' first
    | with_reducible assumption
    | with_reducible apply hf
    | with_reducible intro _
    | with_reducible exact Fr.refl _ _ _
    | with_reducible apply Fr.ite
    | with_reducible apply Fr.step (State.newRequest_fr ..)
    | with_reducible apply Fr.out
    | split

theorem State.tackXfer_fr (s : State) (slot : Nat) (kind : XferKind) (accs : List (Nat × Option Word)) : Fr 59443767294 200867255532373784442745261542645325315275374222849104412671 s (State.tackXfer s slot kind accs) := by
  unfold State.tackXfer
  dsimp only
  repeat' first
    | with_reducible assumption
    | with_reducible exact HasReg.all
    | ((with_reducible apply orDec); rfl)
    | with_reducible intro _
    | with_reducible exact Fr.refl _ _ _
    | with_reducible apply Fr.ite
    | with_reducible apply Fr.step (State.startXfer_fr ..)
    | with_reducible apply Fr.step (State.lowerFirst_fr ..)
    | with_reducible apply Fr.when
    | with_reducible apply Fr.out

theorem State.tackTake_fr (s : State) (u : Nat) (words : List Word) : Fr 34359738368 0 s (State.tackTake s u words) := by
  unfold State.tackTake
  repeat' first
    | with_reducible assumption
    | ((with_reducible apply orDec); rfl)
    | with_reducible intro _
    | with_reducible exact Fr.refl _ _ _
    | with_reducible apply Fr.ite
    | with_reducible apply Fr.step (State.epPackets_fr ..)

theorem State.sendNow_fr (s : State) (slot c : Nat) (l : List Word) : Fr 59443767294 200867255532373784442745261542645325315275374222849104412671 s (State.sendNow s slot c l) := by
  unfold State.sendNow
  dsimp only
  repeat' first
    | with_reducible assumption
    | with_reducible exact HasReg.all
    | ((with_reducible apply orDec); rfl)
    | with_reducible intro _
    | with_reducible exact Fr.refl _ _ _
    | with_reducible apply Fr.ite
    | with_reducible apply Fr.step (State.tackXfer_fr ..)
    | with_reducible apply Fr.unmark

theorem State.mbxSendReq_fr (s : State) (slot : Fin 4) (wValue wIndex wLength : BitVec 16) (ctrl : BitVec 32) (words : List (BitVec 32)) : Fr 59443767294 200867255532373784442745261542645325315275374222849104412671 s (State.mbxSendReq s slot wValue wIndex wLength ctrl words) := by
  unfold State.mbxSendReq
  dsimp only
  repeat' first
    | with_reducible assumption
    | with_reducible exact HasReg.all
    | ((with_reducible apply orDec); rfl)
    | with_reducible intro _
    | with_reducible exact Fr.refl _ _ _
    | with_reducible apply Fr.ite
    | with_reducible apply State.tackReq_fr
    | with_reducible apply Fr.step (State.tackTake_fr ..)
    | with_reducible apply Fr.step (State.tackMod_fr ..)
    | with_reducible apply Fr.step (State.sendNow_fr ..)
    | with_reducible apply Fr.out

theorem State.mbxSendComplete_fr (s : State) (slot : Fin 4) : Fr 59443767294 200867255532373784442745261542645325315275374222849104412671 s (State.mbxSendComplete s slot) := by
  unfold State.mbxSendComplete
  dsimp only
  repeat' first
    | with_reducible assumption
    | with_reducible exact HasReg.all
    | ((with_reducible apply orDec); rfl)
    | with_reducible intro _
    | with_reducible exact Fr.refl _ _ _
    | with_reducible apply Fr.ite
    | with_reducible apply Fr.step (State.sendNow_fr ..)
    | with_reducible apply Fr.step (State.tackMod_fr ..)
    | split

theorem State.mbxAck_fr (s : State) (slot : Fin 4) (wValue wIndex wLength : BitVec 16) : Fr 59443767294 200867255532373784442745261542645325315275374222849104412671 s (State.mbxAck s slot wValue wIndex wLength) := by
  unfold State.mbxAck
  dsimp only
  repeat' first
    | with_reducible assumption
    | with_reducible exact HasReg.all
    | ((with_reducible apply orDec); rfl)
    | with_reducible intro _
    | with_reducible exact Fr.refl _ _ _
    | with_reducible apply Fr.ite
    | with_reducible apply State.tackReq_fr
    | with_reducible apply Fr.step (State.tackXfer_fr ..)
    | with_reducible apply Fr.out

theorem State.regWrite_fr (s : State) (slot : Fin 4) (addr : BitVec 32) (wLength : BitVec 16) (words : List (BitVec 32)) : Fr 59443767294 200867255532373784442745261542645325315275374222849104412671 s (State.regWrite s slot addr wLength words) := by
  unfold State.regWrite
  repeat' first
    | with_reducible assumption
    | with_reducible exact HasReg.all
    | ((with_reducible apply orDec); rfl)
    | with_reducible intro _
    | with_reducible exact Fr.refl _ _ _
    | with_reducible apply Fr.ite
    | with_reducible apply State.tackReq_fr
    | with_reducible apply Fr.step (State.tackXfer_fr ..)
    | with_reducible apply Fr.step (State.tackTake_fr ..)

theorem State.regWriteFixed_fr (s : State) (slot : Fin 4) (addr : BitVec 32) (wLength : BitVec 16) (words : List (BitVec 32)) : Fr 59443767294 200867255532373784442745261542645325315275374222849104412671 s (State.regWriteFixed s slot addr wLength words) := by
  unfold State.regWriteFixed
  repeat' first
    | with_reducible assumption
    | with_reducible exact HasReg.all
    | ((with_reducible apply orDec); rfl)
    | with_reducible intro _
    | with_reducible exact Fr.refl _ _ _
    | with_reducible apply Fr.ite
    | with_reducible apply State.tackReq_fr
    | with_reducible apply Fr.step (State.tackXfer_fr ..)
    | with_reducible apply Fr.step (State.tackTake_fr ..)

theorem State.releaseQueues_fr (s : State) (u : Nat) (keep : Option Nat) : Fr 2 1461501637330902918203684832716283019655932542976 s (State.releaseQueues s u keep) := by
  unfold State.releaseQueues
  repeat' first
    | with_reducible assumption
    | ((with_reducible apply orDec); rfl)
    | ((with_reducible apply bitDec); rfl)
    | with_reducible intro _
    | with_reducible exact Fr.refl _ _ _
    | with_reducible apply Fr.ite
    | with_reducible apply Fr.step (State.unstage_fr ..)
    | with_reducible apply Fr.p
    | with_reducible apply Fr.each
    | with_reducible apply OBS_Q_CTRL.reg
    | ((with_reducible apply HasReg.as); simp only [OBS_Q_CTRL.OWNER_addr])

theorem State.ep2Fill_fr (s : State) (q : Nat) : Fr 34359738368 0 s (State.ep2Fill s q) := by
  unfold State.ep2Fill
  dsimp only
  repeat' first
    | with_reducible assumption
    | ((with_reducible apply orDec); rfl)
    | with_reducible intro _
    | with_reducible exact Fr.refl _ _ _
    | with_reducible apply Fr.ite
    | with_reducible apply Fr.step (State.epWrite_fr ..)
    | with_reducible apply Fr.when

theorem State.tackWake_fr (s : State) (slot u : Nat) : Fr 68173874 4893118899787182689307925347883527129651985640325120 s (State.tackWake s slot u) := by
  unfold State.tackWake
  repeat' first
    | with_reducible assumption
    | ((with_reducible apply orDec); rfl)
    | with_reducible intro _
    | with_reducible exact Fr.refl _ _ _
    | with_reducible apply Fr.ite
    | with_reducible apply Fr.step (State.tackState_fr ..)
    | with_reducible apply Fr.step (State.mirOwn_fr ..)
    | with_reducible apply Fr.step (State.wakeUp_fr ..)
    | with_reducible apply Fr.when
    | split

theorem State.tackStd_fr (s : State) (slot u : Nat) (r : StdReq) : Fr 34426847232 11417981541647679048466287755595961091061972992 s (State.tackStd s slot u r) := by
  unfold State.tackStd
  dsimp only
  repeat' first
    | with_reducible assumption
    | ((with_reducible apply orDec); rfl)
    | ((with_reducible apply bitDec); rfl)
    | with_reducible intro _
    | with_reducible exact Fr.refl _ _ _
    | with_reducible apply Fr.ite
    | with_reducible apply Fr.step (State.tackMod_fr ..)
    | with_reducible apply Fr.step (State.tackData_fr ..)
    | with_reducible apply Fr.p
    | with_reducible apply Fr.out
    | with_reducible apply TKR_FUNC.reg
    | ((with_reducible apply HasReg.as); simp only [TKR_FUNC.ADDR_addr, TKR_FUNC.RWAKE_addr, TKR_FUNC.STATE_addr])
    | split

theorem State.hubStd_fr (s : State) (slot hub : Nat) (ss : Bool) (r : StdReq) : Fr 34360132608 3069854959180814961628475917423900522923527085381124096 s (State.hubStd s slot hub ss r) := by
  unfold State.hubStd
  dsimp only
  repeat' first
    | with_reducible assumption
    | ((with_reducible apply orDec); rfl)
    | ((with_reducible apply bitDec); rfl)
    | with_reducible intro _
    | with_reducible exact Fr.refl _ _ _
    | with_reducible apply Fr.ite
    | with_reducible apply State.ctxEach_fr
    | with_reducible apply Fr.step (State.hubMod_fr ..)
    | with_reducible apply Fr.step (State.ctrlTo_fr ..)
    | with_reducible apply Fr.step (State.tellUp_fr ..)
    | with_reducible apply Fr.step (State.cdpJudge_fr ..)
    | with_reducible apply Fr.step (State.upJudge_fr ..)
    | with_reducible apply Fr.step (State.hubData_fr ..)
    | with_reducible apply Fr.p
    | with_reducible apply Fr.when
    | with_reducible apply Fr.each
    | with_reducible apply Fr.out
    | with_reducible apply SSH_CTX.reg
    | with_reducible apply SSH_USP_LPM.reg
    | with_reducible apply HSH_ENG.reg
    | ((with_reducible apply HasReg.as); simp only [HSH_ENG.ADDR_addr, SSH_CTX.ADDR_addr, SSH_USP_LPM.LDM_ENABLE_addr, SSH_USP_LPM.U1_ENABLE_addr, SSH_USP_LPM.U2_ENABLE_addr])
    | split

theorem State.sideAccess_fr {m b : Nat} {r : State} {s : State} {m₀ : Nat} {f : State → State} (hm : 8589934626 ||| m = m) (hb : 4893107481805641041628876881595771524683695319416832 ||| b = b)
    (hf : ∀ t, Fr m b r t → Fr m b r (f t)) (h : Fr m b r s) : Fr m b r (State.sideAccess s m₀ f) := by
  unfold State.sideAccess
  repeat' first
    | with_reducible assumption
    | ((with_reducible apply orTrans (M := 8589934626) (hm := hm)); rfl)
    | with_reducible apply hf
    | ((with_reducible apply bitOr (M := 8589934626) (hm := hm)); rfl)
    | with_reducible intro _
    | with_reducible exact Fr.refl _ _ _
    | with_reducible apply Fr.ite
    | with_reducible apply Fr.step (State.holdAccess_fr ..)
    | with_reducible apply Fr.when
    | with_reducible apply Fr.withSbTimedOut

theorem State.sideXfer_fr (s : State) (m : Nat) (kind : XferKind) (accs : List (Nat × Option Word)) : Fr 59443767294 200867255532373784442745261542645325315275374222849104412671 s (State.sideXfer s m kind accs) := by
  unfold State.sideXfer
  dsimp only
  repeat' first
    | with_reducible assumption
    | with_reducible exact HasReg.all
    | ((with_reducible apply orDec); rfl)
    | with_reducible intro _
    | with_reducible exact Fr.refl _ _ _
    | with_reducible apply Fr.ite
    | with_reducible apply Fr.step (State.startXfer_fr ..)
    | with_reducible apply Fr.step (State.lowerFirst_fr ..)
    | with_reducible apply Fr.when
    | with_reducible apply Fr.out

theorem State.sideWrite_fr (s : State) (m a : Nat) (bytes : List Byte) : Fr 59443767294 200867255532373784442745261542645325315275374222849104412671 s (State.sideWrite s m a bytes) := by
  unfold State.sideWrite
  dsimp only
  repeat' first
    | with_reducible assumption
    | with_reducible exact HasReg.all
    | ((with_reducible apply orDec); rfl)
    | with_reducible intro _
    | with_reducible exact Fr.refl _ _ _
    | with_reducible apply Fr.ite
    | with_reducible apply Fr.step (State.sideXfer_fr ..)
    | with_reducible apply Fr.when

theorem State.sideRead_fr (s : State) (m a n : Nat) : Fr 59443767294 200867255532373784442745261542645325315275374222849104412671 s (State.sideRead s m a n) := by
  unfold State.sideRead
  repeat' first
    | with_reducible assumption
    | with_reducible exact HasReg.all
    | ((with_reducible apply orDec); rfl)
    | with_reducible intro _
    | with_reducible exact Fr.refl _ _ _
    | with_reducible apply Fr.ite
    | with_reducible apply Fr.step (State.sideXfer_fr ..)

theorem State.endStall_fr (s : State) (x : StalledAcc) : Fr 0 0 s (State.endStall s x) := by
  unfold State.endStall
  dsimp only
  repeat' first
    | with_reducible assumption
    | with_reducible intro _
    | with_reducible exact Fr.refl _ _ _
    | with_reducible apply Fr.ite
    | with_reducible apply Fr.when
    | with_reducible apply Fr.out
    | split

end Sys2Proof.Machine
end

