-- ==== Sys2Proof/Laws/FrMessage.lean ====
section
/-!
SUPPORT. What the operations of Sys2Proof/Machine/Message.lean may change.
-/
namespace Sys2Proof.Machine

theorem State.onPort_fr {m b : Nat} {r : State} {s : State} {a : Ask} {f : Nat → State → State} (hm : 6710886434 ||| m = m) (hb : 784642610055346327042324084069582841901840271387308064768 ||| b = b)
    (hf : ∀ n t, Fr m b r t → Fr m b r (f n t)) (h : Fr m b r s) : Fr m b r (State.onPort s a f) := by
  unfold State.onPort
  repeat' first
    | with_reducible assumption
    | with_reducible apply hf
    | with_reducible intro _
    | with_reducible exact Fr.refl _ _ _
    | with_reducible apply Fr.ite
    | with_reducible apply Fr.step (State.reply_fr ..)
    | split

theorem State.doInfo_fr (s : State) (a : Ask) : Fr 6710886434 784642610055346327042324084069582841901840271387308064768 s (State.doInfo s a) := by
  unfold State.doInfo
  repeat' first
    | with_reducible assumption
    | ((with_reducible apply orDec); rfl)
    | with_reducible intro _
    | with_reducible exact Fr.refl _ _ _
    | with_reducible apply Fr.ite
    | with_reducible apply Fr.step (State.reply_fr ..)

theorem State.doModeGet_fr (s : State) (a : Ask) : Fr 6710886434 784642610055346327042324084069582841901840271387308064768 s (State.doModeGet s a) := by
  unfold State.doModeGet
  repeat' first
    | with_reducible assumption
    | ((with_reducible apply orDec); rfl)
    | with_reducible intro _
    | with_reducible exact Fr.refl _ _ _
    | with_reducible apply Fr.ite
    | with_reducible apply Fr.step (State.reply_fr ..)

theorem State.doPortStatus_fr (s : State) (a : Ask) : Fr 6710886434 784642610055346327042324084069582841901840271387308064768 s (State.doPortStatus s a) := by
  unfold State.doPortStatus
  repeat' first
    | with_reducible assumption
    | ((with_reducible apply orDec); rfl)
    | with_reducible intro _
    | with_reducible exact Fr.refl _ _ _
    | with_reducible apply Fr.ite
    | with_reducible apply State.onPort_fr
    | with_reducible apply Fr.step (State.reply_fr ..)

theorem State.doPdStatus_fr (s : State) (a : Ask) : Fr 6710886434 784642610055346327042324084069582841901840271387308064768 s (State.doPdStatus s a) := by
  unfold State.doPdStatus
  repeat' first
    | with_reducible assumption
    | ((with_reducible apply orDec); rfl)
    | with_reducible intro _
    | with_reducible exact Fr.refl _ _ _
    | with_reducible apply Fr.ite
    | with_reducible apply State.onPort_fr
    | with_reducible apply Fr.step (State.reply_fr ..)

theorem State.doTlmRead_fr (s : State) (a : Ask) : Fr 6710886434 784642610055346327042324084069582841901840271387308064768 s (State.doTlmRead s a) := by
  unfold State.doTlmRead
  repeat' first
    | with_reducible assumption
    | ((with_reducible apply orDec); rfl)
    | with_reducible intro _
    | with_reducible exact Fr.refl _ _ _
    | with_reducible apply Fr.ite
    | with_reducible apply State.onPort_fr
    | with_reducible apply Fr.step (State.reply_fr ..)

theorem State.doEnergyRead_fr (s : State) (a : Ask) : Fr 6710886434 784642610055346327042325382143797475608747404011390369792 s (State.doEnergyRead s a) := by
  unfold State.doEnergyRead
  repeat' first
    | with_reducible assumption
    | ((with_reducible apply orDec); rfl)
    | ((with_reducible apply bitDec); rfl)
    | with_reducible intro _
    | with_reducible exact Fr.refl _ _ _
    | with_reducible apply Fr.ite
    | with_reducible apply State.onPort_fr
    | with_reducible apply Fr.step (State.reply_fr ..)
    | with_reducible apply Fr.when
    | with_reducible apply Fr.w1s
    | with_reducible apply TLM_ECLR.reg
    | ((with_reducible apply HasReg.as); simp only [TLM_ECLR.CLEAR_addr])

theorem State.doFabricStatus_fr (s : State) (a : Ask) : Fr 6710886434 784642610055346327042324084069582841901840271387308064768 s (State.doFabricStatus s a) := by
  unfold State.doFabricStatus
  repeat' first
    | with_reducible assumption
    | ((with_reducible apply orDec); rfl)
    | with_reducible intro _
    | with_reducible exact Fr.refl _ _ _
    | with_reducible apply Fr.ite
    | with_reducible apply Fr.step (State.reply_fr ..)

theorem State.doFaultStatus_fr (s : State) (a : Ask) : Fr 6710886434 784642610055346327042324084069582841901840271387308064768 s (State.doFaultStatus s a) := by
  unfold State.doFaultStatus
  repeat' first
    | with_reducible assumption
    | ((with_reducible apply orDec); rfl)
    | with_reducible intro _
    | with_reducible exact Fr.refl _ _ _
    | with_reducible apply Fr.ite
    | with_reducible apply Fr.step (State.reply_fr ..)

theorem State.pendHandoff_fr (s : State) (a : Ask) : Fr 6710886434 784642610055346327042324084069582841901840271387308064768 s (State.pendHandoff s a) := by
  unfold State.pendHandoff
  repeat' first
    | with_reducible assumption
    | ((with_reducible apply orDec); rfl)
    | with_reducible intro _
    | with_reducible exact Fr.refl _ _ _
    | with_reducible apply Fr.ite
    | with_reducible apply Fr.step (State.pendReply_fr ..)

theorem State.doPortAssign_fr (s : State) (a : Ask) : Fr 24022804218 813059626990554846003255159344447786439878425400022401024 s (State.doPortAssign s a) := by
  unfold State.doPortAssign
  dsimp only
  repeat' first
    | with_reducible assumption
    | ((with_reducible apply orDec); rfl)
    | with_reducible intro _
    | with_reducible exact Fr.refl _ _ _
    | with_reducible apply Fr.ite
    | with_reducible apply Fr.step (State.reply_fr ..)
    | with_reducible apply Fr.step (State.pendHandoff_fr ..)
    | with_reducible apply Fr.step (State.beginHandoff_fr ..)
    | with_reducible apply Fr.getD
    | split

theorem State.doKvmSet_fr (s : State) (a : Ask) : Fr 24022804218 813059626990554846003255159344447786439878425400022401024 s (State.doKvmSet s a) := by
  unfold State.doKvmSet
  dsimp only
  repeat' first
    | with_reducible assumption
    | ((with_reducible apply orDec); rfl)
    | with_reducible intro _
    | with_reducible exact Fr.refl _ _ _
    | with_reducible apply Fr.ite
    | with_reducible apply Fr.step (State.reply_fr ..)
    | with_reducible apply Fr.step (State.pendHandoff_fr ..)
    | with_reducible apply Fr.step (State.beginHandoff_fr ..)

theorem State.doPortPower_fr (s : State) (a : Ask) : Fr 24010188538 813059626990554846003255159304828869036311342952138932224 s (State.doPortPower s a) := by
  unfold State.doPortPower
  repeat' first
    | with_reducible assumption
    | ((with_reducible apply orDec); rfl)
    | with_reducible intro _
    | with_reducible exact Fr.refl _ _ _
    | with_reducible apply Fr.ite
    | with_reducible apply State.onPort_fr
    | with_reducible apply Fr.step (State.reply_fr ..)
    | with_reducible apply Fr.step (State.chMod_fr ..)
    | with_reducible apply Fr.step (State.tryRamp_fr ..)
    | with_reducible apply Fr.step (State.switchOff_fr ..)

theorem State.doPdPolicy_fr (s : State) (a : Ask) : Fr 6727664162 784642610055346327042324084072058721980411031937106313216 s (State.doPdPolicy s a) := by
  unfold State.doPdPolicy
  repeat' first
    | with_reducible assumption
    | ((with_reducible apply orDec); rfl)
    | with_reducible intro _
    | with_reducible exact Fr.refl _ _ _
    | with_reducible apply Fr.ite
    | with_reducible apply State.onPort_fr
    | with_reducible apply Fr.step (State.reply_fr ..)
    | with_reducible apply Fr.step (State.tcMod_fr ..)
    | with_reducible apply Fr.step (State.resendCaps_fr ..)

theorem State.doSourceCapsSet_fr (s : State) (a : Ask) : Fr 6727664162 784642610055346327042324084072058721980411031937106313216 s (State.doSourceCapsSet s a) := by
  unfold State.doSourceCapsSet
  repeat' first
    | with_reducible assumption
    | ((with_reducible apply orDec); rfl)
    | with_reducible intro _
    | with_reducible exact Fr.refl _ _ _
    | with_reducible apply Fr.ite
    | with_reducible apply State.onPort_fr
    | with_reducible apply Fr.step (State.reply_fr ..)
    | with_reducible apply Fr.step (State.resendCaps_fr ..)
    | with_reducible apply Fr.step (State.tcMod_fr ..)
    | split

theorem State.doBudgetSet_fr (s : State) (a : Ask) : Fr 6710886690 784642610055346327052957908035862168885070727869550821376 s (State.doBudgetSet s a) := by
  unfold State.doBudgetSet
  repeat' first
    | with_reducible assumption
    | ((with_reducible apply orDec); rfl)
    | ((with_reducible apply bitDec); rfl)
    | with_reducible intro _
    | with_reducible exact Fr.refl _ _ _
    | with_reducible apply Fr.ite
    | with_reducible apply Fr.step (State.reply_fr ..)
    | with_reducible apply Fr.p
    | with_reducible apply Fr.withBud
    | with_reducible apply BUD_STATUS.reg
    | ((with_reducible apply HasReg.as); simp only [BUD_STATUS.BUDGET_addr])

theorem State.doFabricReseed_fr (s : State) (a : Ask) : Fr 6711279650 787707601137078104759040778123883462630261008658683920384 s (State.doFabricReseed s a) := by
  unfold State.doFabricReseed
  dsimp only
  repeat' first
    | with_reducible assumption
    | ((with_reducible apply orDec); rfl)
    | with_reducible intro _
    | with_reducible exact Fr.refl _ _ _
    | with_reducible apply Fr.ite
    | with_reducible apply Fr.step (State.reply_fr ..)
    | with_reducible apply Fr.step (State.pendReply_fr ..)
    | with_reducible apply Fr.step (State.reseed_fr ..)

theorem State.doQueueConfig_fr (s : State) (a : Ask) : Fr 6710886434 784642611516847964373227002273267674618123291043240607744 s (State.doQueueConfig s a) := by
  unfold State.doQueueConfig
  dsimp only
  repeat' first
    | with_reducible assumption
    | ((with_reducible apply orDec); rfl)
    | ((with_reducible apply bitDec); rfl)
    | with_reducible intro _
    | with_reducible exact Fr.refl _ _ _
    | with_reducible apply Fr.ite
    | with_reducible apply Fr.step (State.reply_fr ..)
    | with_reducible apply Fr.step (State.queueReset_fr ..)
    | with_reducible apply Fr.p
    | with_reducible apply Fr.when
    | with_reducible apply OBS_Q_CTRL.reg
    | ((with_reducible apply HasReg.as); simp only [OBS_Q_CTRL.CHANNEL_addr, OBS_Q_CTRL.TIMEOUT_MS_addr])

theorem State.doPmuConfig_fr (s : State) (a : Ask) : Fr 6710886434 784643358344184640464618204356217192638746335224770068480 s (State.doPmuConfig s a) := by
  unfold State.doPmuConfig
  dsimp only
  repeat' first
    | with_reducible assumption
    | ((with_reducible apply orDec); rfl)
    | ((with_reducible apply bitDec); rfl)
    | with_reducible intro _
    | with_reducible exact Fr.refl _ _ _
    | with_reducible apply Fr.ite
    | with_reducible apply Fr.step (State.reply_fr ..)
    | with_reducible apply Fr.step (State.pmuSelect_fr ..)
    | with_reducible apply Fr.step (State.pmuSet_fr ..)
    | with_reducible apply Fr.step (State.pmuHold_fr ..)
    | with_reducible apply Fr.p
    | with_reducible apply Fr.when
    | with_reducible apply OBS_PMU_EVT.reg
    | ((with_reducible apply HasReg.as); simp only [OBS_PMU_EVT.ENABLE_addr, OBS_PMU_EVT.EVENT_addr])

theorem State.doFaultClear_fr (s : State) (a : Ask) : Fr 24010188538 813059626990554846003255159304828869036311342952138932224 s (State.doFaultClear s a) := by
  unfold State.doFaultClear
  dsimp only
  repeat' first
    | with_reducible assumption
    | ((with_reducible apply orDec); rfl)
    | with_reducible intro _
    | with_reducible exact Fr.refl _ _ _
    | with_reducible apply Fr.ite
    | with_reducible apply Fr.step (State.reply_fr ..)
    | with_reducible apply Fr.step (State.clearAll_fr ..)
    | with_reducible apply Fr.step (State.clearSource_fr ..)

theorem State.doDumpRead_fr (s : State) (a : Ask) : Fr 41087402018 784642610055346327042324084069582841901840271387308064768 s (State.doDumpRead s a) := by
  unfold State.doDumpRead
  dsimp only
  repeat' first
    | with_reducible assumption
    | ((with_reducible apply orDec); rfl)
    | ((with_reducible apply bitDec); rfl)
    | with_reducible intro _
    | with_reducible exact Fr.refl _ _ _
    | with_reducible apply Fr.ite
    | with_reducible apply Fr.step (State.reply_fr ..)
    | with_reducible apply Fr.step (State.epWrite_fr ..)
    | with_reducible apply Fr.when
    | with_reducible apply Fr.out
    | with_reducible apply Fr.withFlt

theorem State.doSessionOpen_fr (s : State) (a : Ask) : Fr 6710886434 784642610055346327042324084069582841901840271387308064768 s (State.doSessionOpen s a) := by
  unfold State.doSessionOpen
  dsimp only
  repeat' first
    | with_reducible assumption
    | ((with_reducible apply orDec); rfl)
    | ((with_reducible apply bitDec); rfl)
    | with_reducible intro _
    | with_reducible exact Fr.refl _ _ _
    | with_reducible apply Fr.ite
    | with_reducible apply Fr.step (State.reply_fr ..)
    | with_reducible apply Fr.step (State.sessSet_fr ..)
    | with_reducible apply Fr.withMsg
    | split

theorem State.doSessionClose_fr (s : State) (a : Ask) : Fr 6710886434 784642610055346327042324084069582841901840271387308064768 s (State.doSessionClose s a) := by
  unfold State.doSessionClose
  repeat' first
    | with_reducible assumption
    | ((with_reducible apply orDec); rfl)
    | with_reducible intro _
    | with_reducible exact Fr.refl _ _ _
    | with_reducible apply Fr.ite
    | with_reducible apply Fr.step (State.closeSession_fr ..)
    | with_reducible apply Fr.step (State.reply_fr ..)

theorem State.doRegPeek_fr (s : State) (a : Ask) : Fr 59443767294 200867255532373784442745261542645325315275374222849104412671 s (State.doRegPeek s a) := by
  unfold State.doRegPeek
  dsimp only
  repeat' first
    | with_reducible assumption
    | with_reducible exact HasReg.all
    | ((with_reducible apply orDec); rfl)
    | with_reducible intro _
    | with_reducible exact Fr.refl _ _ _
    | with_reducible apply Fr.ite
    | with_reducible apply Fr.step (State.reply_fr ..)
    | with_reducible apply Fr.step (State.startXfer_fr ..)

theorem State.doRegPoke_fr (s : State) (a : Ask) : Fr 59443767294 200867255532373784442745261542645325315275374222849104412671 s (State.doRegPoke s a) := by
  unfold State.doRegPoke
  dsimp only
  repeat' first
    | with_reducible assumption
    | with_reducible exact HasReg.all
    | ((with_reducible apply orDec); rfl)
    | with_reducible intro _
    | with_reducible exact Fr.refl _ _ _
    | with_reducible apply Fr.ite
    | with_reducible apply Fr.step (State.reply_fr ..)
    | with_reducible apply Fr.step (State.startXfer_fr ..)

theorem State.doTimelineAdd_fr (s : State) (a : Ask) : Fr 6744440866 784642610055346327042324084069582841901840271387308064768 s (State.doTimelineAdd s a) := by
  unfold State.doTimelineAdd
  dsimp only
  repeat' first
    | with_reducible assumption
    | ((with_reducible apply orDec); rfl)
    | with_reducible intro _
    | with_reducible exact Fr.refl _ _ _
    | with_reducible apply Fr.ite
    | with_reducible apply Fr.step (State.reply_fr ..)
    | with_reducible apply Fr.step (State.setEntry_fr ..)
    | split

theorem State.doTimelineDel_fr (s : State) (a : Ask) : Fr 23924310050 784642610055346327042324084069582841901840271387308064768 s (State.doTimelineDel s a) := by
  unfold State.doTimelineDel
  dsimp only
  repeat' first
    | with_reducible assumption
    | ((with_reducible apply orDec); rfl)
    | with_reducible intro _
    | with_reducible exact Fr.refl _ _ _
    | with_reducible apply Fr.ite
    | with_reducible apply Fr.step (State.reply_fr ..)
    | with_reducible apply Fr.step (State.setEntry_fr ..)
    | with_reducible apply Fr.step (State.editEntry_fr ..)

end Sys2Proof.Machine
end

