-- ==== Sys2Proof/Laws/FrPlanCmd.lean ====
section
/-!
SUPPORT. What the operations of Sys2Proof/Machine/PlanCmd.lean may change.
-/
namespace Sys2Proof.Machine

theorem State.doPlanBegin_fr (s : State) (a : Ask) : Fr 6710890530 784642610055346327042324084069582841901840271387308064769 s (State.doPlanBegin s a) := by
  unfold State.doPlanBegin
  dsimp only
  repeat' first
    | with_reducible exact fldNil
    | with_reducible apply fldCons
    | with_reducible assumption
    | ((with_reducible apply orDec); rfl)
    | ((with_reducible apply bitDec); rfl)
    | with_reducible intro _
    | with_reducible exact Fr.refl _ _ _
    | with_reducible apply Fr.ite
    | with_reducible apply Fr.step (State.reply_fr ..)
    | with_reducible apply Fr.step (State.plnMod_fr ..)
    | with_reducible apply Fr.step (State.discardUpload_fr ..)
    | with_reducible apply Fr.step (State.pendReply_fr ..)
    | with_reducible apply State.fields_fr
    | with_reducible apply PLN_STATUS.reg
    | ((with_reducible apply HasReg.as); simp only [PLN_STATUS.OWNER_addr, PLN_STATUS.UPLOAD_addr])

theorem State.takeChunk_fr (s : State) (l : List Byte) : Fr 4096 0 s (State.takeChunk s l) := by
  unfold State.takeChunk
  repeat' first
    | with_reducible assumption
    | ((with_reducible apply orDec); rfl)
    | with_reducible intro _
    | with_reducible exact Fr.refl _ _ _
    | with_reducible apply Fr.ite
    | with_reducible apply Fr.step (State.plnMod_fr ..)

theorem State.doPlanChunk_fr (s : State) (a : Ask) : Fr 6710890530 784642610055346327042324084069582841901840271387308064768 s (State.doPlanChunk s a) := by
  unfold State.doPlanChunk
  dsimp only
  repeat' first
    | with_reducible assumption
    | ((with_reducible apply orDec); rfl)
    | with_reducible intro _
    | with_reducible exact Fr.refl _ _ _
    | with_reducible apply Fr.ite
    | with_reducible apply Fr.step (State.reply_fr ..)
    | with_reducible apply Fr.step (State.plnMod_fr ..)
    | with_reducible apply Fr.step (State.takeChunk_fr ..)
    | split

theorem State.doPlanCommit_fr (s : State) (a : Ask) : Fr 6710890530 784642610055346327042324084069582841901840271387308064769 s (State.doPlanCommit s a) := by
  unfold State.doPlanCommit
  repeat' first
    | with_reducible assumption
    | ((with_reducible apply orDec); rfl)
    | ((with_reducible apply bitDec); rfl)
    | with_reducible intro _
    | with_reducible exact Fr.refl _ _ _
    | with_reducible apply Fr.ite
    | with_reducible apply Fr.step (State.reply_fr ..)
    | with_reducible apply Fr.step (State.plnMod_fr ..)
    | with_reducible apply Fr.step (State.pendReply_fr ..)
    | with_reducible apply Fr.p
    | with_reducible apply PLN_STATUS.reg
    | ((with_reducible apply HasReg.as); simp only [PLN_STATUS.UPLOAD_addr])
    | split

theorem State.doPlanActivate_fr (s : State) (a : Ask) (reports : Reports) : Fr 24010192634 813059626990554845960719660615615524586685277550655045633 s (State.doPlanActivate s a reports) := by
  unfold State.doPlanActivate
  dsimp only
  repeat' first
    | with_reducible assumption
    | ((with_reducible apply orDec); rfl)
    | ((with_reducible apply bitDec); rfl)
    | with_reducible intro _
    | with_reducible exact Fr.refl _ _ _
    | with_reducible apply Fr.ite
    | with_reducible apply Fr.step (State.reply_fr ..)
    | with_reducible apply Fr.step (State.reject_fr ..)
    | with_reducible apply Fr.step (State.plnMod_fr ..)
    | with_reducible apply Fr.p
    | with_reducible apply PLN_STATUS.reg
    | ((with_reducible apply HasReg.as); simp only [PLN_STATUS.UPLOAD_addr])
    | split

theorem State.endCommit_fr (s : State) (code valid : Nat) : Fr 6711283746 787707601137078104759040778123883462630261008658683920385 s (State.endCommit s code valid) := by
  unfold State.endCommit
  dsimp only
  repeat' first
    | with_reducible assumption
    | ((with_reducible apply orDec); rfl)
    | ((with_reducible apply bitDec); rfl)
    | with_reducible intro _
    | with_reducible exact Fr.refl _ _ _
    | with_reducible apply Fr.ite
    | with_reducible apply Fr.step (State.plnMod_fr ..)
    | with_reducible apply Fr.step (State.reportCommitted_fr ..)
    | with_reducible apply Fr.step (State.finishPend_fr ..)
    | with_reducible apply Fr.p
    | with_reducible apply Fr.when
    | with_reducible apply PLN_STATUS.reg
    | ((with_reducible apply HasReg.as); simp only [PLN_STATUS.UPLOAD_addr])

theorem State.commitFailed_fr (s : State) : Fr 6711283746 787707601137078104759040778123883462630261008658683920385 s (State.commitFailed s) := by
  unfold State.commitFailed
  dsimp only
  repeat' first
    | with_reducible assumption
    | ((with_reducible apply orDec); rfl)
    | with_reducible intro _
    | with_reducible exact Fr.refl _ _ _
    | with_reducible apply Fr.ite
    | with_reducible apply Fr.step (State.plnMod_fr ..)
    | with_reducible apply Fr.step (State.endCommit_fr ..)

theorem State.takeEp3_fr (s : State) (slot : Nat) : Fr 6777999394 784642610055346327042324084069582841901840271387308064768 s (State.takeEp3 s slot) := by
  unfold State.takeEp3
  dsimp only
  repeat' first
    | with_reducible assumption
    | ((with_reducible apply orDec); rfl)
    | with_reducible intro _
    | with_reducible exact Fr.refl _ _ _
    | with_reducible apply Fr.ite
    | with_reducible apply Fr.step (State.plnMod_fr ..)
    | with_reducible apply Fr.step (State.tackMod_fr ..)
    | with_reducible apply Fr.step (State.answer_fr ..)
    | with_reducible apply Fr.step (State.takeChunk_fr ..)
    | with_reducible apply Fr.when
    | split

end Sys2Proof.Machine
end

