-- ==== Sys2Proof/Laws/FrConsume.lean ====
section
/-!
SUPPORT. What the operations of Sys2Proof/Machine/Consume.lean may change.
-/
namespace Sys2Proof.Machine

theorem State.forward_fr (s : State) (a : Ask) (m : Nat) : Fr 6710886434 784642610055346327042324084069582841901840271387308064768 s (State.forward s a m) := by
  unfold State.forward
  dsimp only
  repeat' first
    | with_reducible assumption
    | ((with_reducible apply orDec); rfl)
    | ((with_reducible apply bitDec); rfl)
    | with_reducible intro _
    | with_reducible exact Fr.refl _ _ _
    | with_reducible apply Fr.ite
    | with_reducible apply Fr.step (State.reply_fr ..)
    | with_reducible apply Fr.step (State.post_fr ..)
    | with_reducible apply Fr.withMsg

theorem State.doCommand_fr (s : State) (a : Ask) (rep : Reports) : Fr 59456354302 200867255532373784442745261542645325315275374222849104412671 s (State.doCommand s a rep) := by
  unfold State.doCommand
  repeat' first
    | with_reducible assumption
    | with_reducible exact HasReg.all
    | ((with_reducible apply orDec); rfl)
    | with_reducible intro _
    | with_reducible exact Fr.refl _ _ _
    | with_reducible apply Fr.ite
    | with_reducible apply Fr.step (State.doInfo_fr ..)
    | with_reducible apply Fr.step (State.doModeGet_fr ..)
    | with_reducible apply Fr.step (State.doPortStatus_fr ..)
    | with_reducible apply Fr.step (State.doPortAssign_fr ..)
    | with_reducible apply Fr.step (State.doPortPower_fr ..)
    | with_reducible apply Fr.step (State.doKvmSet_fr ..)
    | with_reducible apply Fr.step (State.doPdStatus_fr ..)
    | with_reducible apply Fr.step (State.doPdPolicy_fr ..)
    | with_reducible apply Fr.step (State.doSourceCapsSet_fr ..)
    | with_reducible apply Fr.step (State.doTlmRead_fr ..)
    | with_reducible apply Fr.step (State.doEnergyRead_fr ..)
    | with_reducible apply Fr.step (State.doBudgetSet_fr ..)
    | with_reducible apply Fr.step (State.doFabricStatus_fr ..)
    | with_reducible apply Fr.step (State.doFabricReseed_fr ..)
    | with_reducible apply Fr.step (State.doQueueConfig_fr ..)
    | with_reducible apply Fr.step (State.doPmuConfig_fr ..)
    | with_reducible apply Fr.step (State.doFaultStatus_fr ..)
    | with_reducible apply Fr.step (State.doFaultClear_fr ..)
    | with_reducible apply Fr.step (State.doDumpRead_fr ..)
    | with_reducible apply Fr.step (State.doSessionOpen_fr ..)
    | with_reducible apply Fr.step (State.doSessionClose_fr ..)
    | with_reducible apply Fr.step (State.doPlanBegin_fr ..)
    | with_reducible apply Fr.step (State.doPlanChunk_fr ..)
    | with_reducible apply Fr.step (State.doPlanCommit_fr ..)
    | with_reducible apply Fr.step (State.doPlanActivate_fr ..)
    | with_reducible apply Fr.step (State.doRegPeek_fr ..)
    | with_reducible apply Fr.step (State.doRegPoke_fr ..)
    | with_reducible apply Fr.step (State.doTimelineAdd_fr ..)
    | with_reducible apply Fr.step (State.doTimelineDel_fr ..)
    | with_reducible apply Fr.step (State.reply_fr ..)
    | split

theorem State.carryOut_fr (s : State) (a : Ask) (rep : Reports) : Fr 59456354302 200867255532373784442745261542645325315275374222849104412671 s (State.carryOut s a rep) := by
  unfold State.carryOut
  repeat' first
    | with_reducible assumption
    | with_reducible exact HasReg.all
    | ((with_reducible apply orDec); rfl)
    | with_reducible intro _
    | with_reducible exact Fr.refl _ _ _
    | with_reducible apply Fr.ite
    | with_reducible apply Fr.step (State.reply_fr ..)
    | with_reducible apply Fr.step (State.forward_fr ..)
    | with_reducible apply Fr.step (State.doCommand_fr ..)
    | split

theorem State.noted_fr (s : State) (a : Ask) : Fr 268435456 0 s (State.noted s a) := by
  unfold State.noted
  repeat' first
    | with_reducible assumption
    | ((with_reducible apply orDec); rfl)
    | with_reducible intro _
    | with_reducible exact Fr.refl _ _ _
    | with_reducible apply Fr.ite
    | with_reducible apply Fr.step (State.mbMod_fr ..)
    | with_reducible apply Fr.step (State.histMod_fr ..)

theorem State.serve_fr (s : State) (a : Ask) (isReply : Bool) (rep : Reports) : Fr 59456354302 200867255532373784442745261542645325315275374222849104412671 s (State.serve s a isReply rep) := by
  unfold State.serve
  dsimp only
  repeat' first
    | with_reducible apply Fr.hwAny
    | with_reducible assumption
    | with_reducible exact HasReg.all
    | ((with_reducible apply orDec); rfl)
    | with_reducible intro _
    | with_reducible exact Fr.refl _ _ _
    | with_reducible apply Fr.ite
    | with_reducible apply Fr.step (State.answer_fr ..)
    | with_reducible apply Fr.step (State.noted_fr ..)
    | with_reducible apply Fr.step (State.carryOut_fr ..)
    | with_reducible apply Fr.when
    | with_reducible apply Fr.hw
    | with_reducible apply MBX_STATUS.reg
    | split

theorem State.unauthentic_fr (s : State) (a : Ask) : Fr 268435490 4893107562645842386302385769662750263034005778595840 s (State.unauthentic s a) := by
  unfold State.unauthentic
  dsimp only
  repeat' first
    | with_reducible assumption
    | ((with_reducible apply orDec); rfl)
    | with_reducible intro _
    | with_reducible exact Fr.refl _ _ _
    | with_reducible apply Fr.ite
    | with_reducible apply Fr.step (State.answerPlain_fr ..)
    | with_reducible apply Fr.step (State.noted_fr ..)
    | with_reducible apply Fr.when

theorem State.serveSecure_fr (s : State) (a : Ask) (isReply : Bool) (rep : Reports) : Fr 59456354302 200867255532373784442745261542645325315275374222849104412671 s (State.serveSecure s a isReply rep) := by
  unfold State.serveSecure
  dsimp only
  repeat' first
    | with_reducible apply Fr.incSatAny
    | with_reducible assumption
    | with_reducible exact HasReg.all
    | ((with_reducible apply orDec); rfl)
    | with_reducible intro _
    | with_reducible exact Fr.refl _ _ _
    | with_reducible apply Fr.ite
    | with_reducible apply Fr.step (State.serve_fr ..)
    | with_reducible apply Fr.step (State.closeParty_fr ..)
    | with_reducible apply Fr.step (State.unauthentic_fr ..)
    | with_reducible apply Fr.step (State.sessSet_fr ..)
    | with_reducible apply Fr.step (State.closeSession_fr ..)
    | with_reducible apply Fr.step (State.raise_fr ..)
    | with_reducible apply Fr.incSat
    | with_reducible apply Fr.when
    | with_reducible apply TKR_AUTH.reg
    | split

theorem State.relayReply_fr (s : State) (a : Ask) : Fr 6710886434 784642610055346327042324084069582841901840271387308064768 s (State.relayReply s a) := by
  unfold State.relayReply
  repeat' first
    | with_reducible assumption
    | ((with_reducible apply orDec); rfl)
    | ((with_reducible apply bitDec); rfl)
    | with_reducible intro _
    | with_reducible exact Fr.refl _ _ _
    | with_reducible apply Fr.ite
    | with_reducible apply Fr.step (State.answer_fr ..)
    | with_reducible apply Fr.withMsg
    | split

theorem State.consume_fr (s : State) (a : Ask) (isReply : Bool) (rep : Reports) : Fr 59456354302 200867255532373784442745261542645325315275374222849104412671 s (State.consume s a isReply rep) := by
  unfold State.consume
  dsimp only
  repeat' first
    | with_reducible assumption
    | with_reducible exact HasReg.all
    | ((with_reducible apply orDec); rfl)
    | with_reducible intro _
    | with_reducible exact Fr.refl _ _ _
    | with_reducible apply Fr.ite
    | with_reducible apply Fr.step (State.pmu_fr ..)
    | with_reducible apply Fr.step (State.relayReply_fr ..)
    | with_reducible apply Fr.step (State.serveSecure_fr ..)
    | with_reducible apply Fr.step (State.serve_fr ..)

theorem State.command_fr (s : State) (cmd c seq : Nat) (words : List Word) (rep : Reports) : Fr 59456354302 200867255532373784442745261542645325315275374222849104412671 s (State.command s cmd c seq words rep) := by
  unfold State.command
  dsimp only
  repeat' first
    | with_reducible assumption
    | with_reducible exact HasReg.all
    | ((with_reducible apply orDec); rfl)
    | with_reducible intro _
    | with_reducible exact Fr.refl _ _ _
    | with_reducible apply Fr.ite
    | with_reducible apply Fr.step (State.consume_fr ..)

end Sys2Proof.Machine
end

