-- ==== Sys2Proof/Laws/FrManage.lean ====
section
/-!
SUPPORT. What the operations of Sys2Proof/Machine/Manage.lean may change.
-/
namespace Sys2Proof.Machine

theorem State.fltMod_fr (s : State) (f : FltS → FltS) : Fr 16777216 0 s (State.fltMod s f) := by
  unfold State.fltMod
  repeat' first
    | with_reducible assumption
    | ((with_reducible apply bitDec); rfl)
    | with_reducible intro _
    | with_reducible exact Fr.refl _ _ _
    | with_reducible apply Fr.ite
    | with_reducible apply Fr.withFlt

theorem State.fileDump_fr (s : State) (sev : Nat) (soon : Bool) : Fr 16777216 23945242826029513411849172299223580994042798784118784 s (State.fileDump s sev soon) := by
  unfold State.fileDump
  repeat' first
    | with_reducible assumption
    | ((with_reducible apply orDec); rfl)
    | ((with_reducible apply bitDec); rfl)
    | with_reducible intro _
    | with_reducible exact Fr.refl _ _ _
    | with_reducible apply Fr.ite
    | with_reducible apply Fr.step (State.fltMod_fr ..)
    | with_reducible apply Fr.p
    | with_reducible apply Fr.hw
    | with_reducible apply FLT_DUMP.reg
    | ((with_reducible apply HasReg.as); simp only [FLT_DUMP.FLASH_addr, FLT_DUMP.SKIPPED_addr])
    | split

theorem State.restart_fr (s : State) (src cause : Nat) (third : Bool) : Fr 17567737594 28421910042690324559437205422914278456369689858666397696 s (State.restart s src cause third) := by
  unfold State.restart
  repeat' first
    | with_reducible assumption
    | ((with_reducible apply orDec); rfl)
    | with_reducible intro _
    | with_reducible exact Fr.refl _ _ _
    | with_reducible apply Fr.ite
    | with_reducible apply Fr.step (State.fltMod_fr ..)
    | with_reducible apply Fr.step (State.raise_fr ..)
    | with_reducible apply Fr.when

theorem State.busyHeld_fr (s : State) (c : Nat) : Fr 268435456 0 s (State.busyHeld s c) := by
  unfold State.busyHeld
  dsimp only
  repeat' first
    | with_reducible assumption
    | ((with_reducible apply orDec); rfl)
    | with_reducible intro _
    | with_reducible exact Fr.refl _ _ _
    | with_reducible apply Fr.ite
    | with_reducible apply Fr.step (State.mbMod_fr ..)

theorem State.dropOwn_fr (s : State) : Fr 6710886434 784642610055346327042324084069582841901840271387308064768 s (State.dropOwn s) := by
  unfold State.dropOwn
  dsimp only
  repeat' first
    | with_reducible assumption
    | ((with_reducible apply orDec); rfl)
    | ((with_reducible apply bitDec); rfl)
    | with_reducible intro _
    | with_reducible exact Fr.refl _ _ _
    | with_reducible apply Fr.ite
    | with_reducible apply Fr.step (State.reply_fr ..)
    | with_reducible apply Fr.withPdc
    | with_reducible apply Fr.foldl
    | with_reducible apply Fr.foldlSnd
    | split

end Sys2Proof.Machine
end

