-- ==== Sys2Proof/Laws/FrHostReset.lean ====
section
/-!
SUPPORT. What the operations of Sys2Proof/Machine/HostReset.lean may change.
-/
namespace Sys2Proof.Machine

theorem State.resetTack_fr (s : State) (slot u : Nat) : Fr 67108898 1495755581955845955349083695983070902929118461952 s (State.resetTack s slot u) := by
  unfold State.resetTack
  dsimp only
  repeat' first
    | with_reducible assumption
    | ((with_reducible apply orDec); rfl)
    | ((with_reducible apply bitDec); rfl)
    | with_reducible intro _
    | with_reducible exact Fr.refl _ _ _
    | with_reducible apply Fr.ite
    | with_reducible apply Fr.step (State.releaseQueues_fr ..)
    | with_reducible apply Fr.step (State.tackMod_fr ..)
    | with_reducible apply Fr.step (State.tackState_fr ..)
    | with_reducible apply Fr.p
    | with_reducible apply Fr.when
    | with_reducible apply Fr.hw
    | with_reducible apply Fr.withPdc
    | with_reducible apply TKR_FUNC.reg
    | with_reducible apply TKR_EVT.reg
    | ((with_reducible apply HasReg.as); simp only [TKR_EVT.RESET_DISCARD_addr, TKR_FUNC.QUEUE_addr])

theorem State.resetParty_fr (s : State) (slot u : Nat) : Fr 6710890530 784642610055346327042324084069582841901840271387308064769 s (State.resetParty s slot u) := by
  unfold State.resetParty
  dsimp only
  repeat' first
    | with_reducible assumption
    | ((with_reducible apply orDec); rfl)
    | ((with_reducible apply bitDec); rfl)
    | with_reducible intro _
    | with_reducible exact Fr.refl _ _ _
    | with_reducible apply Fr.ite
    | with_reducible apply Fr.step (State.closeParty_fr ..)
    | with_reducible apply Fr.step (State.discardUpload_fr ..)
    | with_reducible apply Fr.step (State.closePages_fr ..)
    | with_reducible apply Fr.step (State.forceLocks_fr ..)
    | with_reducible apply Fr.when
    | with_reducible apply Fr.hw
    | with_reducible apply TKR_EVT.reg
    | ((with_reducible apply HasReg.as); simp only [TKR_EVT.RESET_DISCARD_addr])

theorem State.tackFirst_fr (s : State) (slot : Nat) : Fr 59443767294 200867255532373784442745261542645325315275374222849104412671 s (State.tackFirst s slot) := by
  unfold State.tackFirst
  repeat' first
    | with_reducible assumption
    | with_reducible exact HasReg.all
    | ((with_reducible apply orDec); rfl)
    | with_reducible intro _
    | with_reducible exact Fr.refl _ _ _
    | with_reducible apply Fr.ite
    | with_reducible apply Fr.step (State.mbxSendReq_fr ..)
    | with_reducible apply Fr.step (State.mbxSendComplete_fr ..)
    | with_reducible apply Fr.step (State.mbxAck_fr ..)
    | with_reducible apply Fr.step (State.regWrite_fr ..)
    | with_reducible apply Fr.step (State.regWriteFixed_fr ..)
    | with_reducible apply Fr.when
    | with_reducible apply Fr.foldl
    | with_reducible apply Fr.foldlSnd
    | split

theorem State.busReset_fr (s : State) (u : Nat) (high : Bool) : Fr 59450062846 200867255532373784442745261542645325315275374222849104412671 s (State.busReset s u high) := by
  unfold State.busReset
  repeat' first
    | with_reducible apply Fr.hwAny
    | with_reducible apply Fr.pAny
    | with_reducible assumption
    | with_reducible exact HasReg.all
    | ((with_reducible apply orDec); rfl)
    | ((with_reducible apply bitDec); rfl)
    | with_reducible intro _
    | with_reducible exact Fr.refl _ _ _
    | with_reducible apply Fr.ite
    | with_reducible apply Fr.step (State.tackFirst_fr ..)
    | with_reducible apply Fr.step (State.issue_fr ..)
    | with_reducible apply Fr.step (State.engState_fr ..)
    | with_reducible apply Fr.step (State.hsMod_fr ..)
    | with_reducible apply Fr.step (State.tellUp_fr ..)
    | with_reducible apply Fr.step (State.cdpJudge_fr ..)
    | with_reducible apply Fr.step (State.resetTack_fr ..)
    | with_reducible apply Fr.step (State.upJudge_fr ..)
    | with_reducible apply Fr.step (State.resetParty_fr ..)
    | with_reducible apply Fr.p
    | with_reducible apply Fr.when
    | with_reducible apply Fr.each
    | with_reducible apply Fr.hw
    | with_reducible apply Fr.withSs
    | with_reducible apply HSH_ENG.reg
    | with_reducible apply HSH_EVT.reg
    | with_reducible apply UPP_PADDOCK.reg
    | split

end Sys2Proof.Machine
end

