-- ==== Sys2Proof/Laws/FrClock.lean ====
section
/-!
SUPPORT. What the operations of Sys2Proof/Machine/Clock.lean may change.
-/
namespace Sys2Proof.Machine

theorem State.cycleTick_fr (s : State) : Fr 0 5004181606221011591929416867220553059301913027149824 s (State.cycleTick s) := by
  unfold State.cycleTick
  repeat' first
    | with_reducible assumption
    | ((with_reducible apply orDec); rfl)
    | ((with_reducible apply bitDec); rfl)
    | with_reducible intro _
    | with_reducible exact Fr.refl _ _ _
    | with_reducible apply Fr.ite
    | with_reducible apply Fr.step (State.pmu_fr ..)
    | with_reducible apply Fr.p
    | with_reducible apply Fr.when
    | with_reducible apply Fr.each
    | with_reducible apply OBS_CYCLE_LO.reg
    | with_reducible apply OBS_CYCLE_HI.reg
    | ((with_reducible apply HasReg.as); simp only [OBS_CYCLE_HI.CYCLE_HI_addr, OBS_CYCLE_LO.CYCLE_LO_addr])

theorem State.a3Tick_fr (s : State) : Fr 32 0 s (State.a3Tick s) := by
  unfold State.a3Tick
  repeat' first
    | with_reducible assumption
    | ((with_reducible apply orDec); rfl)
    | with_reducible intro _
    | with_reducible exact Fr.refl _ _ _
    | with_reducible apply Fr.ite
    | with_reducible apply Fr.step (State.domStep_fr ..)
    | with_reducible apply Fr.each
    | with_reducible apply Fr.mark

theorem State.runLate_fr (s : State) (x : WakeEvt) : Fr 59450062846 200867255532373784442745261542645325315275374222849104412671 s (State.runLate s x) := by
  unfold State.runLate
  repeat' first
    | with_reducible assumption
    | with_reducible exact HasReg.all
    | ((with_reducible apply orDec); rfl)
    | with_reducible intro _
    | with_reducible exact Fr.refl _ _ _
    | with_reducible apply Fr.ite
    | with_reducible apply Fr.step (State.attachDetect_fr ..)
    | with_reducible apply Fr.step (State.sinkAttach_fr ..)
    | with_reducible apply Fr.step (State.pwrwarn_fr ..)
    | with_reducible apply Fr.step (State.hsConnect_fr ..)
    | with_reducible apply Fr.step (State.deviceK_fr ..)
    | with_reducible apply Fr.step (State.deviceL1_fr ..)
    | with_reducible apply Fr.step (State.hostK_fr ..)
    | with_reducible apply Fr.step (State.busReset_fr ..)
    | split

theorem State.lateTick_fr (s : State) : Fr 59450062846 200867255532373784442745261542645325315275374222849104412671 s (State.lateTick s) := by
  unfold State.lateTick
  dsimp only
  repeat' first
    | with_reducible assumption
    | with_reducible exact HasReg.all
    | ((with_reducible apply orDec); rfl)
    | ((with_reducible apply bitDec); rfl)
    | with_reducible intro _
    | with_reducible exact Fr.refl _ _ _
    | with_reducible apply Fr.ite
    | with_reducible apply Fr.step (State.runLate_fr ..)
    | with_reducible apply Fr.withPdc
    | with_reducible apply Fr.foldl

theorem State.dwezelTick_fr (s : State) : Fr 6777999394 784642610055346327042324084069582841901840271387308064768 s (State.dwezelTick s) := by
  unfold State.dwezelTick
  repeat' first
    | with_reducible assumption
    | ((with_reducible apply orDec); rfl)
    | with_reducible intro _
    | with_reducible exact Fr.refl _ _ _
    | with_reducible apply Fr.ite
    | with_reducible apply Fr.step (State.proxyTick_fr ..)
    | with_reducible apply Fr.step (State.takeEp3_fr ..)
    | with_reducible apply Fr.when
    | with_reducible apply Fr.each

theorem State.tick_fr  (s : State) : Fr 59450062846 200867255532373784442745261542645325315275374222849104412671 s.nextCycle s.tick := by
  unfold State.tick
  refine Fr.when (fun t h => ?_) (Fr.refl _ _ _)
  refine Fr.step (State.dwezelTick_fr _) rfl rfl (Fr.step (State.lateTick_fr _) rfl rfl ?_)
  refine Fr.step (State.cycleTick_fr _) rfl rfl (Fr.step (State.yardsTick_fr _) rfl rfl ?_)
  refine Fr.step (State.trainTick_fr _) rfl rfl (Fr.step (State.a3Tick_fr _) rfl rfl ?_)
  refine Fr.step (State.standTick_fr _) rfl rfl (Fr.step (State.obsTick_fr _) rfl rfl ?_)
  exact Fr.p (TML_SEL.reg rfl) h

end Sys2Proof.Machine
end

