-- ==== Sys2Proof/Laws/ExBarn.lean ====
section
/-!
SUPPORT. Every command of Sys2Proof/Machine/Barn.lean answers a next state, and what may have changed in it.
-/
namespace Sys2Proof.Machine

theorem execHelloReceived_fr (h : BaleHdr) (uid hash barnId : Nat) (claimed : Fin 256) (peerLink : Fin 4) (flags lead : Fin 256) (s : State) : ∃ t, execHelloReceived h uid hash barnId claimed peerLink flags lead s = .next t ∧ Fr 24010188542 813059626990554845960719660615620379474577572725287559168 s t := by
  refine ⟨_, rfl, ?_⟩
  repeat' first
    | with_reducible assumption
    | ((with_reducible apply orDec); rfl)
    | ((with_reducible apply bitDec); rfl)
    | with_reducible intro _
    | with_reducible exact Fr.refl _ _ _
    | with_reducible apply Fr.ite
    | with_reducible apply Fr.step (State.rxLink_fr ..)
    | with_reducible apply Fr.step (State.lkMod_fr ..)
    | with_reducible apply Fr.step (State.maybeFlood_fr ..)
    | with_reducible apply Fr.step (State.isolate_fr ..)
    | with_reducible apply Fr.step (State.glkState_fr ..)
    | with_reducible apply Fr.step (State.isolateClash_fr ..)
    | with_reducible apply Fr.step (State.learn_fr ..)
    | with_reducible apply Fr.step (State.setLead_fr ..)
    | with_reducible apply Fr.step (State.joinLate_fr ..)
    | with_reducible apply Fr.step (State.restartFormation_fr ..)
    | with_reducible apply Fr.step (State.learnedNew_fr ..)
    | with_reducible apply Fr.step (State.pump_fr ..)
    | with_reducible apply Fr.p
    | with_reducible apply Fr.when
    | with_reducible apply Fr.getD
    | with_reducible apply GLK_LINK.reg
    | ((with_reducible apply HasReg.as); simp only [GLK_LINK.ISO_CAUSE_addr, GLK_LINK.PEER_LINK_addr, GLK_LINK.PEER_MEMBER_addr])

theorem execLsaReceived_fr (c : CtrlHdr) (links : List LinkAd) (members : List MemberAd) (s : State) : ∃ t, execLsaReceived c links members s = .next t ∧ Fr 24010188542 813059626990554845960719660615620388919310573648950075392 s t := by
  refine ⟨_, rfl, ?_⟩
  repeat' first
    | with_reducible assumption
    | ((with_reducible apply orDec); rfl)
    | with_reducible intro _
    | with_reducible exact Fr.refl _ _ _
    | with_reducible apply Fr.ite
    | with_reducible apply State.rxCtrl_fr
    | with_reducible apply Fr.step (State.learnedNew_fr ..)
    | with_reducible apply Fr.step (State.isolateClash_fr ..)
    | with_reducible apply Fr.step (State.learn_fr ..)

theorem execFloodingRoundEnd_fr (s : State) : ∃ t, execFloodingRoundEnd s = .next t ∧ Fr 24010188542 813059626990554845960719660615620379474577572725287559168 s t := by
  refine ⟨_, rfl, ?_⟩
  repeat' first
    | with_reducible assumption
    | ((with_reducible apply orDec); rfl)
    | with_reducible intro _
    | with_reducible exact Fr.refl _ _ _
    | with_reducible apply Fr.ite
    | with_reducible apply Fr.step (State.startFlood_fr ..)
    | with_reducible apply Fr.step (State.setStep_fr ..)
    | with_reducible apply Fr.step (State.fabMod_fr ..)
    | with_reducible apply Fr.step (State.setLead_fr ..)
    | with_reducible apply Fr.step (State.pushTables_fr ..)
    | with_reducible apply Fr.step (State.confirmClaims_fr ..)
    | with_reducible apply Fr.when
    | split
    | dsimp only

theorem execTablesReceived_fr (c : CtrlHdr) (t : RouteTable) (s : State) : ∃ u, execTablesReceived c t s = .next u ∧ Fr 17567737598 28421910042690324559437205422914287901102690782328922112 s u := by
  refine ⟨_, rfl, ?_⟩
  repeat' first
    | with_reducible assumption
    | ((with_reducible apply orDec); rfl)
    | with_reducible intro _
    | with_reducible exact Fr.refl _ _ _
    | with_reducible apply Fr.ite
    | with_reducible apply State.rxCtrl_fr
    | with_reducible apply Fr.step (State.fabMod_fr ..)
    | with_reducible apply Fr.step (State.setLead_fr ..)
    | with_reducible apply Fr.step (State.setStep_fr ..)
    | with_reducible apply Fr.step (State.ctrlTo_fr ..)
    | with_reducible apply Fr.when

theorem execTablesAckReceived_fr (c : CtrlHdr) (ver : Fin 256) (s : State) : ∃ t, execTablesAckReceived c ver s = .next t ∧ Fr 17567737594 28421910042690324559437205422914287901102690782328913920 s t := by
  refine ⟨_, rfl, ?_⟩
  repeat' first
    | with_reducible assumption
    | ((with_reducible apply orDec); rfl)
    | with_reducible intro _
    | with_reducible exact Fr.refl _ _ _
    | with_reducible apply Fr.ite
    | with_reducible apply State.rxCtrl_fr
    | with_reducible apply Fr.step (State.fabMod_fr ..)
    | with_reducible apply Fr.step (State.ctrlTo_fr ..)
    | with_reducible apply Fr.step (State.setStep_fr ..)
    | with_reducible apply Fr.when

theorem execTableSwitch_fr (s : State) : ∃ t, execTableSwitch s = .next t ∧ Fr 24010188542 813059626990554845960719660615620360585111641246706704384 s t := by
  refine ⟨_, rfl, ?_⟩
  repeat' first
    | with_reducible assumption
    | ((with_reducible apply orDec); rfl)
    | ((with_reducible apply bitDec); rfl)
    | with_reducible intro _
    | with_reducible exact Fr.refl _ _ _
    | with_reducible apply Fr.ite
    | with_reducible apply Fr.step (State.fabMod_fr ..)
    | with_reducible apply Fr.step (State.installRoutes_fr ..)
    | with_reducible apply Fr.step (State.tellPens_fr ..)
    | with_reducible apply Fr.step (State.helloAll_fr ..)
    | with_reducible apply Fr.step (State.settleLost_fr ..)
    | with_reducible apply Fr.step (State.startResync_fr ..)
    | with_reducible apply Fr.p
    | with_reducible apply Fr.each
    | with_reducible apply Fr.hw
    | with_reducible apply DRV_BARN.reg
    | with_reducible apply DRV_EVT.reg
    | ((with_reducible apply HasReg.as); simp only [DRV_BARN.TABLE_VER_addr, DRV_EVT.TABLE_addr])
    | split

theorem execFormedBroadcast_fr (ms : Nat) (s : State) : ∃ t, execFormedBroadcast ms s = .next t ∧ Fr 393216 101149569574597701896562685655199035237729935883579162624 s t := by
  refine ⟨_, rfl, ?_⟩
  repeat' first
    | with_reducible assumption
    | ((with_reducible apply orDec); rfl)
    | with_reducible intro _
    | with_reducible exact Fr.refl _ _ _
    | with_reducible apply Fr.ite
    | with_reducible apply Fr.step (State.formed_fr ..)
    | with_reducible apply Fr.step (State.ctrlAll_fr ..)
    | with_reducible apply Fr.when

theorem execFormedReceived_fr (c : CtrlHdr) (ms : Nat) (s : State) : ∃ t, execFormedReceived c ms s = .next t ∧ Fr 17567737594 126501624658107211494371415160534075652701994602079453184 s t := by
  refine ⟨_, rfl, ?_⟩
  repeat' first
    | with_reducible assumption
    | ((with_reducible apply orDec); rfl)
    | with_reducible intro _
    | with_reducible exact Fr.refl _ _ _
    | with_reducible apply Fr.ite
    | with_reducible apply State.rxCtrl_fr
    | with_reducible apply Fr.step (State.formed_fr ..)

theorem execFormationDeadline_fr (ms : Nat) (s : State) : ∃ t, execFormationDeadline ms s = .next t ∧ Fr 393216 101149569574597701896562685655199035237729935883579162624 s t := by
  refine ⟨_, rfl, ?_⟩
  repeat' first
    | with_reducible assumption
    | ((with_reducible apply orDec); rfl)
    | ((with_reducible apply bitDec); rfl)
    | with_reducible intro _
    | with_reducible exact Fr.refl _ _ _
    | with_reducible apply Fr.ite
    | with_reducible apply Fr.step (State.fabMod_fr ..)
    | with_reducible apply Fr.step (State.formed_fr ..)
    | with_reducible apply Fr.step (State.ctrlAll_fr ..)
    | with_reducible apply Fr.p
    | with_reducible apply Fr.when
    | with_reducible apply TOP_BOOT_TIME.reg
    | ((with_reducible apply HasReg.as); simp only [TOP_BOOT_TIME.CONNECT_addr])

theorem execLinkDownNotice_fr (c : CtrlHdr) (i : Fin 16) (s : State) : ∃ t, execLinkDownNotice c i s = .next t ∧ Fr 24010188542 813059626990554845960719660615620370029844642170369220608 s t := by
  refine ⟨_, rfl, ?_⟩
  repeat' first
    | with_reducible assumption
    | ((with_reducible apply orDec); rfl)
    | with_reducible intro _
    | with_reducible exact Fr.refl _ _ _
    | with_reducible apply Fr.ite
    | with_reducible apply State.rxCtrl_fr
    | with_reducible apply Fr.step (State.settleLost_fr ..)
    | with_reducible apply Fr.step (State.entryFailed_fr ..)
    | with_reducible apply Fr.step (State.cutLink_fr ..)
    | with_reducible apply Fr.step (State.pushTables_fr ..)
    | with_reducible apply Fr.when
    | with_reducible apply Fr.each

theorem execReseedReceived_fr (c : CtrlHdr) (seed : Fin (2 ^ 64)) (s : State) : ∃ t, execReseedReceived c seed s = .next t ∧ Fr 17567737594 28421910042690324559437205422914287901102690782328913920 s t := by
  refine ⟨_, rfl, ?_⟩
  repeat' first
    | with_reducible assumption
    | ((with_reducible apply orDec); rfl)
    | with_reducible intro _
    | with_reducible exact Fr.refl _ _ _
    | with_reducible apply Fr.ite
    | with_reducible apply State.rxCtrl_fr
    | with_reducible apply Fr.step (State.fabMod_fr ..)

theorem execLoadReceived_fr (c : CtrlHdr) (loads : List Nat) (s : State) : ∃ t, execLoadReceived c loads s = .next t ∧ Fr 17567737594 28421910042690324559437205422914287901102690782328913920 s t := by
  refine ⟨_, rfl, ?_⟩
  repeat' first
    | with_reducible assumption
    | ((with_reducible apply orDec); rfl)
    | with_reducible intro _
    | with_reducible exact Fr.refl _ _ _
    | with_reducible apply Fr.ite
    | with_reducible apply State.rxCtrl_fr

theorem execRebalanceWindow_fr (s : State) : ∃ t, execRebalanceWindow s = .next t ∧ Fr 6711279650 787707601137078104759040778124113158535987788201878093824 s t := by
  refine ⟨_, rfl, ?_⟩
  repeat' first
    | with_reducible assumption
    | ((with_reducible apply orDec); rfl)
    | ((with_reducible apply bitDec); rfl)
    | with_reducible intro _
    | with_reducible exact Fr.refl _ _ _
    | with_reducible apply Fr.ite
    | with_reducible apply Fr.step (State.lkMod_fr ..)
    | with_reducible apply Fr.step (State.ctrlAll_fr ..)
    | with_reducible apply Fr.step (State.setFlows_fr ..)
    | with_reducible apply Fr.step (State.fabMod_fr ..)
    | with_reducible apply Fr.step (State.finishPend_fr ..)
    | with_reducible apply Fr.step (State.rebalance_fr ..)
    | with_reducible apply Fr.step (State.reseedIdle_fr ..)
    | with_reducible apply Fr.p
    | with_reducible apply Fr.each
    | with_reducible apply Fr.hw
    | with_reducible apply Fr.foldl
    | with_reducible apply Fr.foldlSnd
    | with_reducible apply DRV_LOAD.reg
    | with_reducible apply DRV_REBAL.reg
    | with_reducible apply DRV_SEED_LO.reg
    | with_reducible apply DRV_SEED_HI.reg
    | with_reducible apply DRV_EVT.reg
    | ((with_reducible apply HasReg.as); simp only [DRV_EVT.RESEED_addr, DRV_LOAD.BALES_addr, DRV_REBAL.IMBAL_addr, DRV_SEED_HI.SEED_HI_addr, DRV_SEED_LO.SEED_LO_addr])
    | split

end Sys2Proof.Machine
end

