-- ==== Sys2Proof/Laws/ExBoot.lean ====
section
/-!
SUPPORT. Every command of Sys2Proof/Machine/Boot.lean answers a next state, and what may have changed in it.
-/
namespace Sys2Proof.Machine

theorem execPorAssert_fr (s : State) : ∃ t, execPorAssert s = .next t ∧ Fr 68719474687 200867255532373784442745261542645325315275374222849104412671 s t := by
  refine ⟨_, rfl, ?_⟩
  repeat' first
    | with_reducible assumption
    | with_reducible exact HasReg.all
    | ((with_reducible apply orDec); rfl)
    | ((with_reducible apply bitDec); rfl)
    | with_reducible intro _
    | with_reducible exact Fr.refl _ _ _
    | with_reducible apply Fr.ite
    | with_reducible apply Fr.step (State.bootMod_fr ..)
    | with_reducible apply Fr.step (State.wiped_fr ..)
    | with_reducible apply Fr.step (State.safeOutputs_fr ..)
    | with_reducible apply Fr.withFlt
    | with_reducible apply Fr.withPln

theorem execPorRelease_fr (bootsrc : Fin 4) (lifeEn : Bool) (i2c : Fin 8) (maker : Bool) (s : State) : ∃ t, execPorRelease bootsrc lifeEn i2c maker s = .next t ∧ Fr 68719474687 200867255532373784442745261542645325315275374222849104412671 s t := by
  refine ⟨_, rfl, ?_⟩
  repeat' first
    | with_reducible apply Fr.hwAny
    | with_reducible apply Fr.pAny
    | with_reducible apply Fr.setAny
    | with_reducible assumption
    | with_reducible exact HasReg.all
    | ((with_reducible apply orDec); rfl)
    | with_reducible intro _
    | with_reducible exact Fr.refl _ _ _
    | with_reducible apply Fr.ite
    | with_reducible apply Fr.step (State.strap_fr ..)
    | with_reducible apply Fr.step (State.bootMod_fr ..)
    | with_reducible apply Fr.step (State.wiped_fr ..)
    | with_reducible apply Fr.step (State.setLimit_fr ..)
    | with_reducible apply Fr.step (State.setEfuse_fr ..)
    | with_reducible apply Fr.step (State.chMod_fr ..)
    | with_reducible apply Fr.step (State.assertPg_fr ..)
    | with_reducible apply Fr.step (State.dischAll_fr ..)
    | with_reducible apply Fr.p
    | with_reducible apply Fr.when

theorem execResetNAssert_fr (handed dumped : Bool) (s : State) : ∃ t, execResetNAssert handed dumped s = .next t ∧ Fr 68719474687 200867255532373784442745261542645325315275374222849104412671 s t := by
  refine ⟨_, rfl, ?_⟩
  repeat' first
    | with_reducible assumption
    | with_reducible exact HasReg.all
    | ((with_reducible apply orDec); rfl)
    | ((with_reducible apply bitDec); rfl)
    | with_reducible intro _
    | with_reducible exact Fr.refl _ _ _
    | with_reducible apply Fr.ite
    | with_reducible apply Fr.step (State.bootMod_fr ..)
    | with_reducible apply Fr.step (State.chipWide_fr ..)
    | with_reducible apply Fr.withFlt
    | with_reducible apply Fr.withPln

theorem execResetNRelease_fr (bootsrc : Fin 4) (lifeEn : Bool) (i2c : Fin 8) (maker : Bool) (s : State) : ∃ t, execResetNRelease bootsrc lifeEn i2c maker s = .next t ∧ Fr 8226 85830629706678101337627233844158400630908452780952781056 s t := by
  refine ⟨_, rfl, ?_⟩
  repeat' first
    | with_reducible assumption
    | ((with_reducible apply orDec); rfl)
    | ((with_reducible apply bitDec); rfl)
    | with_reducible intro _
    | with_reducible exact Fr.refl _ _ _
    | with_reducible apply Fr.ite
    | with_reducible apply State.afterReset_fr
    | with_reducible apply Fr.step (State.yardStart_fr ..)
    | with_reducible apply Fr.step (State.strap_fr ..)
    | with_reducible apply Fr.step (State.bootMod_fr ..)
    | with_reducible apply Fr.when
    | with_reducible apply TOP_RESET_CAUSE.reg
    | ((with_reducible apply HasReg.as); simp only [TOP_RESET_CAUSE.RESET_N_addr])

theorem execChipResetBegin_fr (s : State) : ∃ t, execChipResetBegin s = .next t ∧ Fr 68719474687 200867255532373784442745261542645325315275374222849104412671 s t := by
  refine ⟨_, rfl, ?_⟩
  repeat' first
    | with_reducible assumption
    | with_reducible exact HasReg.all
    | ((with_reducible apply orDec); rfl)
    | with_reducible intro _
    | with_reducible exact Fr.refl _ _ _
    | with_reducible apply Fr.ite
    | with_reducible apply State.afterReset_fr
    | with_reducible apply Fr.step (State.chipWide_fr ..)
    | with_reducible apply Fr.when

theorem execRailsInWindow_fr (s : State) : ∃ t, execRailsInWindow s = .next t ∧ Fr 0 24519928653854221733733552434404946937899825954937634816 s t := by
  refine ⟨_, rfl, ?_⟩
  repeat' first
    | with_reducible assumption
    | ((with_reducible apply bitDec); rfl)
    | with_reducible intro _
    | with_reducible exact Fr.refl _ _ _
    | with_reducible apply Fr.ite
    | with_reducible apply Fr.p
    | with_reducible apply Fr.when
    | with_reducible apply TOP_MODE.reg
    | ((with_reducible apply HasReg.as); simp only [TOP_MODE.BOOT_STEP_addr])

theorem execRailWindowTimeout_fr (core ser io : Bool) (s : State) : ∃ t, execRailWindowTimeout core ser io s = .next t ∧ Fr 17567737594 28421910042690324559437205422914278456369689858666397696 s t := by
  refine ⟨_, rfl, ?_⟩
  repeat' first
    | with_reducible assumption
    | ((with_reducible apply orDec); rfl)
    | with_reducible intro _
    | with_reducible exact Fr.refl _ _ _
    | with_reducible apply Fr.ite
    | with_reducible apply Fr.step (State.raise_fr ..)
    | with_reducible apply Fr.when

theorem execCrystalReady_fr (ok : Bool) (s : State) : ∃ t, execCrystalReady ok s = .next t ∧ Fr 17567741694 28421910042690324559437205422914278456369689858666397953 s t := by
  refine ⟨_, rfl, ?_⟩
  repeat' first
    | with_reducible assumption
    | ((with_reducible apply orDec); rfl)
    | ((with_reducible apply bitDec); rfl)
    | with_reducible intro _
    | with_reducible exact Fr.refl _ _ _
    | with_reducible apply Fr.ite
    | with_reducible apply Fr.step (State.yardsCrystal_fr ..)
    | with_reducible apply Fr.step (State.raise_fr ..)
    | with_reducible apply Fr.step (State.enterFetch_fr ..)
    | with_reducible apply Fr.p
    | with_reducible apply Fr.when
    | with_reducible apply PDC_XTAL.reg
    | with_reducible apply TOP_MODE.reg
    | ((with_reducible apply HasReg.as); simp only [PDC_XTAL.RUNNING_addr, TOP_MODE.BOOT_STEP_addr])

theorem execCrystalNotReady_fr (s : State) : ∃ t, execCrystalNotReady s = .next t ∧ Fr 17567737594 28421910042690324559437205422914278456369689858666397696 s t := by
  refine ⟨_, rfl, ?_⟩
  repeat' first
    | with_reducible assumption
    | ((with_reducible apply orDec); rfl)
    | ((with_reducible apply bitDec); rfl)
    | with_reducible intro _
    | with_reducible exact Fr.refl _ _ _
    | with_reducible apply Fr.ite
    | with_reducible apply Fr.step (State.bootMod_fr ..)
    | with_reducible apply Fr.step (State.raise_fr ..)
    | with_reducible apply Fr.when
    | with_reducible apply Fr.withFlt

theorem execXtalRestartTimer_fr (ready : Bool) (s : State) : ∃ t, execXtalRestartTimer ready s = .next t ∧ Fr 17567737598 28421910042690324601972704112127622905995755260150284544 s t := by
  refine ⟨_, rfl, ?_⟩
  repeat' first
    | with_reducible assumption
    | ((with_reducible apply orDec); rfl)
    | ((with_reducible apply bitDec); rfl)
    | with_reducible intro _
    | with_reducible exact Fr.refl _ _ _
    | with_reducible apply Fr.ite
    | with_reducible apply Fr.step (State.clearSource_fr ..)
    | with_reducible apply Fr.step (State.yardsCrystal_fr ..)
    | with_reducible apply Fr.p
    | with_reducible apply Fr.when
    | with_reducible apply PDC_XTAL.reg
    | ((with_reducible apply HasReg.as); simp only [PDC_XTAL.RUNNING_addr])

theorem execMakerWindowEnd_fr (s : State) : ∃ t, execMakerWindowEnd s = .next t ∧ Fr 12288 24519928653854221733733552434404946937899825954937634817 s t := by
  refine ⟨_, rfl, ?_⟩
  repeat' first
    | with_reducible assumption
    | ((with_reducible apply orDec); rfl)
    | with_reducible intro _
    | with_reducible exact Fr.refl _ _ _
    | with_reducible apply Fr.ite
    | with_reducible apply Fr.step (State.enterFetch_fr ..)
    | with_reducible apply Fr.step (State.bootMod_fr ..)
    | with_reducible apply Fr.when

theorem execMakerKeyedMessage_fr (s : State) : ∃ t, execMakerKeyedMessage s = .next t ∧ Fr 16777250 24548767004162069138352239637370450971904419992696782848 s t := by
  refine ⟨_, rfl, ?_⟩
  repeat' first
    | with_reducible assumption
    | ((with_reducible apply orDec); rfl)
    | ((with_reducible apply bitDec); rfl)
    | with_reducible intro _
    | with_reducible exact Fr.refl _ _ _
    | with_reducible apply Fr.ite
    | with_reducible apply Fr.step (State.setMode_fr ..)
    | with_reducible apply Fr.p
    | with_reducible apply Fr.when
    | with_reducible apply Fr.hw
    | with_reducible apply Fr.withFlt
    | with_reducible apply FLT_DUMP.reg
    | ((with_reducible apply HasReg.as); simp only [FLT_DUMP.ABANDONED_addr, FLT_DUMP.FLASH_addr])

theorem execFlashBusyPollEnd_fr (ok four : Bool) (s : State) : ∃ t, execFlashBusyPollEnd ok four s = .next t ∧ Fr 4096 24519928653854221733733552434404946937899825954937634848 s t := by
  refine ⟨_, rfl, ?_⟩
  repeat' first
    | with_reducible assumption
    | ((with_reducible apply orDec); rfl)
    | ((with_reducible apply bitDec); rfl)
    | with_reducible intro _
    | with_reducible exact Fr.refl _ _ _
    | with_reducible apply Fr.ite
    | with_reducible apply Fr.step (State.choosePlan_fr ..)
    | with_reducible apply Fr.step (State.nextSlot_fr ..)
    | with_reducible apply Fr.step (State.plnMod_fr ..)
    | with_reducible apply Fr.p
    | with_reducible apply Fr.when
    | with_reducible apply Fr.each
    | with_reducible apply PLN_SLOT_SEQ.reg
    | ((with_reducible apply HasReg.as); simp only [PLN_SLOT_SEQ.SEQ_addr])

theorem execSlotVerifyDone_fr (s : State) : ∃ t, execSlotVerifyDone s = .next t ∧ Fr 17567741690 28421910042690324559437205422914278456369689858666397697 s t := by
  refine ⟨_, rfl, ?_⟩
  repeat' first
    | with_reducible assumption
    | ((with_reducible apply orDec); rfl)
    | ((with_reducible apply bitDec); rfl)
    | with_reducible intro _
    | with_reducible exact Fr.refl _ _ _
    | with_reducible apply Fr.ite
    | with_reducible apply Fr.step (State.plnMod_fr ..)
    | with_reducible apply Fr.step (State.nextSlot_fr ..)
    | with_reducible apply Fr.step (State.reject_fr ..)
    | with_reducible apply Fr.step (State.choosePlan_fr ..)
    | with_reducible apply Fr.p
    | with_reducible apply Fr.when
    | with_reducible apply PLN_STATUS.reg
    | ((with_reducible apply HasReg.as); simp only [PLN_STATUS.FALLBACK_addr])
    | split

theorem execPlanActivationDone_fr (same : Bool) (s : State) : ∃ t, execPlanActivationDone same s = .next t ∧ Fr 60129540095 200867255532373784442745261542645325315275374222849104412671 s t := by
  refine ⟨_, rfl, ?_⟩
  repeat' first
    | with_reducible apply Fr.pAny
    | with_reducible assumption
    | with_reducible exact HasReg.all
    | ((with_reducible apply orDec); rfl)
    | with_reducible intro _
    | with_reducible exact Fr.refl _ _ _
    | with_reducible apply Fr.ite
    | with_reducible apply Fr.step (State.endPlan_fr ..)
    | with_reducible apply Fr.step (State.plnMod_fr ..)
    | with_reducible apply Fr.step (State.nextSlot_fr ..)
    | with_reducible apply Fr.step (State.reject_fr ..)
    | with_reducible apply Fr.step (State.activatePlan_fr ..)
    | with_reducible apply Fr.p
    | with_reducible apply PLN_STATUS.reg
    | with_reducible apply TOP_MODE.reg
    | split

theorem execBootDomainsReady_fr (vinOk : Bool) (time : Nat) (s : State) : ∃ t, execBootDomainsReady vinOk time s = .next t ∧ Fr 60129540095 200867255532373784442745261542645325315275374222849104412671 s t := by
  refine ⟨_, rfl, ?_⟩
  repeat' first
    | with_reducible apply Fr.pAny
    | with_reducible assumption
    | with_reducible exact HasReg.all
    | ((with_reducible apply orDec); rfl)
    | with_reducible intro _
    | with_reducible exact Fr.refl _ _ _
    | with_reducible apply Fr.ite
    | with_reducible apply Fr.step (State.applyPlan_fr ..)
    | with_reducible apply Fr.step (State.bootMod_fr ..)
    | with_reducible apply Fr.step (State.enterService_fr ..)
    | with_reducible apply Fr.step (State.enterLifeline_fr ..)
    | with_reducible apply Fr.p
    | with_reducible apply Fr.when

theorem execUpstreamDataConnect_fr (u : Fin 2) (s : State) : ∃ t, execUpstreamDataConnect u s = .next t ∧ Fr 1967162 6280171619575894347193547746138848632606912551449907953664 s t := by
  refine ⟨_, rfl, ?_⟩
  repeat' first
    | with_reducible assumption
    | ((with_reducible apply orDec); rfl)
    | ((with_reducible apply bitDec); rfl)
    | with_reducible intro _
    | with_reducible exact Fr.refl _ _ _
    | with_reducible apply Fr.ite
    | with_reducible apply Fr.step (State.ssLink_fr ..)
    | with_reducible apply Fr.p
    | with_reducible apply Fr.when
    | with_reducible apply Fr.out
    | with_reducible apply UPP_PADDOCK.reg
    | with_reducible apply STL_LANE.reg
    | ((with_reducible apply HasReg.as); simp only [STL_LANE.STATE_addr, UPP_PADDOCK.STATE_addr])

theorem execStarterArmed_fr (lifeEn : Bool) (s : State) : ∃ t, execStarterArmed lifeEn s = .next t ∧ Fr 8192 0 s t := by
  refine ⟨_, rfl, ?_⟩
  repeat' first
    | with_reducible assumption
    | ((with_reducible apply orDec); rfl)
    | with_reducible intro _
    | with_reducible exact Fr.refl _ _ _
    | with_reducible apply Fr.ite
    | with_reducible apply Fr.step (State.bootMod_fr ..)
    | with_reducible apply Fr.when

theorem execStarterSinkPathClosed_fr (s : State) : ∃ t, execStarterSinkPathClosed s = .next t ∧ Fr 8192 0 s t := by
  refine ⟨_, rfl, ?_⟩
  repeat' first
    | with_reducible assumption
    | ((with_reducible apply orDec); rfl)
    | with_reducible intro _
    | with_reducible exact Fr.refl _ _ _
    | with_reducible apply Fr.ite
    | with_reducible apply Fr.step (State.bootMod_fr ..)
    | with_reducible apply Fr.when

theorem execStarterHoldOffEnd_fr (s : State) : ∃ t, execStarterHoldOffEnd s = .next t ∧ Fr 8192 0 s t := by
  refine ⟨_, rfl, ?_⟩
  repeat' first
    | with_reducible assumption
    | ((with_reducible apply orDec); rfl)
    | with_reducible intro _
    | with_reducible exact Fr.refl _ _ _
    | with_reducible apply Fr.ite
    | with_reducible apply Fr.step (State.bootMod_fr ..)

theorem execLifelineVinRestored_fr (s : State) : ∃ t, execLifelineVinRestored s = .next t ∧ Fr 8192 0 s t := by
  refine ⟨_, rfl, ?_⟩
  repeat' first
    | with_reducible assumption
    | ((with_reducible apply orDec); rfl)
    | with_reducible intro _
    | with_reducible exact Fr.refl _ _ _
    | with_reducible apply Fr.ite
    | with_reducible apply Fr.step (State.bootMod_fr ..)
    | with_reducible apply Fr.when

theorem execLifelineHandoverDone_fr (s : State) : ∃ t, execLifelineHandoverDone s = .next t ∧ Fr 17701955326 40681874369617435468839480329330096374945668237619109888 s t := by
  refine ⟨_, rfl, ?_⟩
  repeat' first
    | with_reducible assumption
    | ((with_reducible apply orDec); rfl)
    | ((with_reducible apply bitDec); rfl)
    | with_reducible intro _
    | with_reducible exact Fr.refl _ _ _
    | with_reducible apply Fr.ite
    | with_reducible apply Fr.step (State.bootMod_fr ..)
    | with_reducible apply Fr.step (State.chMod_fr ..)
    | with_reducible apply Fr.step (State.powerDown_fr ..)
    | with_reducible apply Fr.step (State.disconnectHost_fr ..)
    | with_reducible apply Fr.step (State.enterService_fr ..)
    | with_reducible apply Fr.p
    | with_reducible apply Fr.when
    | with_reducible apply TOP_STRAP.reg
    | ((with_reducible apply HasReg.as); simp only [TOP_STRAP.LIFE_SUPPLY_addr])

theorem execLifelineExitAbandon_fr (s : State) : ∃ t, execLifelineExitAbandon s = .next t ∧ Fr 8192 0 s t := by
  refine ⟨_, rfl, ?_⟩
  repeat' first
    | with_reducible assumption
    | ((with_reducible apply orDec); rfl)
    | with_reducible intro _
    | with_reducible exact Fr.refl _ _ _
    | with_reducible apply Fr.ite
    | with_reducible apply Fr.step (State.bootMod_fr ..)

theorem execSafeExit_fr (s : State) : ∃ t, execSafeExit s = .next t ∧ Fr 23993407226 812233516113056827748010864171292311042390800992602947585 s t := by
  refine ⟨_, rfl, ?_⟩
  repeat' first
    | with_reducible assumption
    | ((with_reducible apply orDec); rfl)
    | ((with_reducible apply bitDec); rfl)
    | with_reducible intro _
    | with_reducible exact Fr.refl _ _ _
    | with_reducible apply Fr.ite
    | with_reducible apply Fr.step (State.plnMod_fr ..)
    | with_reducible apply Fr.step (State.discardUpload_fr ..)
    | with_reducible apply Fr.step (State.enterPlan_fr ..)
    | with_reducible apply Fr.step (State.setMode_fr ..)
    | with_reducible apply Fr.p
    | with_reducible apply Fr.when
    | with_reducible apply Fr.setWord
    | with_reducible apply FLT_STATUS.reg
    | with_reducible apply TOP_MODE.reg
    | ((with_reducible apply HasReg.as); simp only [TOP_MODE.BOOT_STEP_addr, TOP_MODE.SAFE_CAUSE_addr])

end Sys2Proof.Machine
end

