-- ==== Sys2Proof/Laws/ExBudget.lean ====
section
/-!
SUPPORT. Every command of Sys2Proof/Machine/Budget.lean answers a next state, and what may have changed in it.
-/
namespace Sys2Proof.Machine

theorem execTelemetryFrame_fr (f : TlmFrame) (s : State) : ∃ t, execTelemetryFrame f s = .next t ∧ Fr 17567737850 28421910042690324594650713680390162579609949651395936256 s t := by
  refine ⟨_, rfl, ?_⟩
  repeat' first
    | with_reducible assumption
    | ((with_reducible apply orDec); rfl)
    | ((with_reducible apply bitDec); rfl)
    | with_reducible intro _
    | with_reducible exact Fr.refl _ _ _
    | with_reducible apply Fr.ite
    | with_reducible apply State.refFault_fr
    | with_reducible apply Fr.step (State.sampleChannel_fr ..)
    | with_reducible apply Fr.step (State.sumBudget_fr ..)
    | with_reducible apply Fr.step (State.thermal_fr ..)
    | with_reducible apply Fr.p
    | with_reducible apply Fr.each
    | with_reducible apply Fr.clearW1s
    | with_reducible apply Fr.withBud
    | with_reducible apply Fr.getD
    | with_reducible apply TLM_CTRL.reg
    | with_reducible apply TLM_ECLR.reg
    | with_reducible apply TLM_INPUT.reg
    | with_reducible apply TLM_TEMP.reg
    | ((with_reducible apply HasReg.as); simp only [TLM_CTRL.FAULT_A_addr, TLM_CTRL.FAULT_B_addr, TLM_ECLR.CLEAR_addr, TLM_INPUT.IIN_addr, TLM_INPUT.VIN_addr, TLM_TEMP.T0_addr, TLM_TEMP.T1_addr, TLM_TEMP.T2_addr, TLM_TEMP.T3_addr])

theorem execFirstUseEnd_fr (n : Channel) (s : State) : ∃ t, execFirstUseEnd n s = .next t ∧ Fr 384 116972063629072596815535021304670322688 s t := by
  refine ⟨_, rfl, ?_⟩
  repeat' first
    | with_reducible assumption
    | ((with_reducible apply orDec); rfl)
    | ((with_reducible apply bitDec); rfl)
    | with_reducible intro _
    | with_reducible exact Fr.refl _ _ _
    | with_reducible apply Fr.ite
    | with_reducible apply Fr.step (State.sumBudget_fr ..)
    | with_reducible apply Fr.p
    | with_reducible apply Fr.when
    | with_reducible apply BUD_PORT.reg
    | ((with_reducible apply HasReg.as); simp only [BUD_PORT.FIRST_USE_addr])

theorem execPwrwarnAssert_fr (cause : WarnCause) (s : State) : ∃ t, execPwrwarnAssert cause s = .next t ∧ Fr 16778162 4893107481805800559372967264450253809352471421648896 s t := by
  refine ⟨_, rfl, ?_⟩
  repeat' first
    | with_reducible assumption
    | ((with_reducible apply orDec); rfl)
    | with_reducible intro _
    | with_reducible exact Fr.refl _ _ _
    | with_reducible apply Fr.ite
    | with_reducible apply State.onWake_fr
    | with_reducible apply Fr.step (State.pwrwarn_fr ..)

theorem execPwrwarnRelease_fr (s : State) : ∃ t, execPwrwarnRelease s = .next t ∧ Fr 384 116982448222789666470792082297328762880 s t := by
  refine ⟨_, rfl, ?_⟩
  repeat' first
    | with_reducible assumption
    | ((with_reducible apply orDec); rfl)
    | ((with_reducible apply bitDec); rfl)
    | with_reducible intro _
    | with_reducible exact Fr.refl _ _ _
    | with_reducible apply Fr.ite
    | with_reducible apply Fr.step (State.sumBudget_fr ..)
    | with_reducible apply Fr.p
    | with_reducible apply Fr.when
    | with_reducible apply Fr.withBud
    | with_reducible apply TLM_INWARN.reg
    | with_reducible apply BUD_STATE.reg
    | ((with_reducible apply HasReg.as); simp only [BUD_STATE.WARN_addr, TLM_INWARN.PWRWARN_addr])

theorem execVinUndervoltage_fr (s : State) : ∃ t, execVinUndervoltage s = .next t ∧ Fr 17567737850 28421910042690324559447590016631348111626750851324837888 s t := by
  refine ⟨_, rfl, ?_⟩
  repeat' first
    | with_reducible assumption
    | ((with_reducible apply orDec); rfl)
    | ((with_reducible apply bitDec); rfl)
    | with_reducible intro _
    | with_reducible exact Fr.refl _ _ _
    | with_reducible apply Fr.ite
    | with_reducible apply Fr.step (State.raise_fr ..)
    | with_reducible apply Fr.when
    | with_reducible apply Fr.hw
    | with_reducible apply Fr.withBud
    | with_reducible apply TLM_INWARN.reg
    | ((with_reducible apply HasReg.as); simp only [TLM_INWARN.VIN_UV_addr])

theorem execBudgetReduce_fr (s : State) : ∃ t, execBudgetReduce s = .next t ∧ Fr 16778114 4893107481784192618780164798167106781627324108374016 s t := by
  refine ⟨_, rfl, ?_⟩
  repeat' first
    | with_reducible assumption
    | ((with_reducible apply orDec); rfl)
    | with_reducible intro _
    | with_reducible exact Fr.refl _ _ _
    | with_reducible apply Fr.ite
    | with_reducible apply Fr.step (State.budgetReduce_fr ..)

theorem execBudgetShed_fr (onMs : Nat) (s : State) : ∃ t, execBudgetShed onMs s = .next t ∧ Fr 17567737850 28421910042690324633874176010965603855687124706878554112 s t := by
  refine ⟨_, rfl, ?_⟩
  repeat' first
    | with_reducible assumption
    | ((with_reducible apply orDec); rfl)
    | ((with_reducible apply bitDec); rfl)
    | with_reducible intro _
    | with_reducible exact Fr.refl _ _ _
    | with_reducible apply Fr.ite
    | with_reducible apply Fr.step (State.sumBudget_fr ..)
    | with_reducible apply State.trip_fr
    | with_reducible apply Fr.step (State.budgetRecord_fr ..)
    | with_reducible apply Fr.p
    | with_reducible apply Fr.hw
    | with_reducible apply PPW_EVT.reg
    | with_reducible apply BUD_STATE.reg
    | with_reducible apply BUD_EVT.reg
    | with_reducible apply BUD_PORT.reg
    | ((with_reducible apply HasReg.as); simp only [BUD_EVT.SHED_addr, BUD_PORT.SHED_addr, BUD_STATE.SHEDDING_addr, PPW_EVT.SHED_addr])
    | split

theorem execBudgetPeriodicReview_fr (s : State) : ∃ t, execBudgetPeriodicReview s = .next t ∧ Fr 16778114 4893107481784192618780164798167106781627324108374016 s t := by
  refine ⟨_, rfl, ?_⟩
  repeat' first
    | with_reducible assumption
    | ((with_reducible apply orDec); rfl)
    | with_reducible intro _
    | with_reducible exact Fr.refl _ _ _
    | with_reducible apply Fr.ite
    | with_reducible apply Fr.step (State.review_fr ..)

end Sys2Proof.Machine
end

