-- ==== Sys2Proof/Laws/ExBus.lean ====
section
/-!
SUPPORT. Every command of Sys2Proof/Machine/Bus.lean answers a next state, and what may have changed in it.
-/
namespace Sys2Proof.Machine

theorem execRegisterWrite_fr (m : Fin 16) (addr : BitVec 32) (w : BitVec 32) (s : State) : ∃ t, execRegisterWrite m addr w s = .next t ∧ Fr 59443767294 200867255532373784442745261542645325315275374222849104412671 s t := by
  refine ⟨_, rfl, ?_⟩
  repeat' first
    | with_reducible assumption
    | with_reducible exact HasReg.all
    | ((with_reducible apply orDec); rfl)
    | with_reducible intro _
    | with_reducible exact Fr.refl _ _ _
    | with_reducible apply Fr.ite
    | with_reducible apply Fr.step (State.access_fr ..)

theorem execRestingDomainAccess_fr (m : Fin 16) (addr : BitVec 32) (data : Option (BitVec 32)) (s : State) : ∃ t, execRestingDomainAccess m addr data s = .next t ∧ Fr 59443767294 200867255532373784442745261542645325315275374222849104412671 s t := by
  refine ⟨_, rfl, ?_⟩
  repeat' first
    | with_reducible assumption
    | with_reducible exact HasReg.all
    | ((with_reducible apply orDec); rfl)
    | with_reducible intro _
    | with_reducible exact Fr.refl _ _ _
    | with_reducible apply Fr.ite
    | with_reducible apply Fr.step (State.access_fr ..)

theorem execAutoWakeAccess_fr (m : Fin 16) (addr : BitVec 32) (data : Option (BitVec 32)) (s : State) : ∃ t, execAutoWakeAccess m addr data s = .next t ∧ Fr 59443767294 200867255532373784442745261542645325315275374222849104412671 s t := by
  refine ⟨_, rfl, ?_⟩
  repeat' first
    | with_reducible assumption
    | with_reducible exact HasReg.all
    | ((with_reducible apply orDec); rfl)
    | with_reducible intro _
    | with_reducible exact Fr.refl _ _ _
    | with_reducible apply Fr.ite
    | with_reducible apply Fr.step (State.access_fr ..)

theorem execAutoWakeWrite_fr (m : Fin 16) (on : Bool) (s : State) : ∃ t, execAutoWakeWrite m on s = .next t ∧ Fr 59443767294 200867255532373784442745261542645325315275374222849104412671 s t := by
  refine ⟨_, rfl, ?_⟩
  repeat' first
    | with_reducible assumption
    | with_reducible exact HasReg.all
    | ((with_reducible apply orDec); rfl)
    | with_reducible intro _
    | with_reducible exact Fr.refl _ _ _
    | with_reducible apply Fr.ite
    | with_reducible apply Fr.step (State.access_fr ..)

theorem execExpertKeyWrite_fr (m : Fin 16) (k : Fin 2) (v : Fin 65536) (s : State) : ∃ t, execExpertKeyWrite m k v s = .next t ∧ Fr 59443767294 200867255532373784442745261542645325315275374222849104412671 s t := by
  refine ⟨_, rfl, ?_⟩
  repeat' first
    | with_reducible assumption
    | with_reducible exact HasReg.all
    | ((with_reducible apply orDec); rfl)
    | with_reducible intro _
    | with_reducible exact Fr.refl _ _ _
    | with_reducible apply Fr.ite
    | with_reducible apply Fr.step (State.access_fr ..)

theorem execChipResetRequest_fr (m : Fin 16) (v : Fin 65536) (s : State) : ∃ t, execChipResetRequest m v s = .next t ∧ Fr 59443767294 200867255532373784442745261542645325315275374222849104412671 s t := by
  refine ⟨_, rfl, ?_⟩
  repeat' first
    | with_reducible assumption
    | with_reducible exact HasReg.all
    | ((with_reducible apply orDec); rfl)
    | with_reducible intro _
    | with_reducible exact Fr.refl _ _ _
    | with_reducible apply Fr.ite
    | with_reducible apply Fr.step (State.access_fr ..)

theorem execForceCoast_fr (m : Fin 16) (mask : Fin 16) (s : State) : ∃ t, execForceCoast m mask s = .next t ∧ Fr 59443767294 200867255532373784442745261542645325315275374222849104412671 s t := by
  refine ⟨_, rfl, ?_⟩
  repeat' first
    | with_reducible assumption
    | with_reducible exact HasReg.all
    | ((with_reducible apply orDec); rfl)
    | with_reducible intro _
    | with_reducible exact Fr.refl _ _ _
    | with_reducible apply Fr.ite
    | with_reducible apply Fr.step (State.access_fr ..)

theorem execSnap_fr (m : Fin 16) (s : State) : ∃ t, execSnap m s = .next t ∧ Fr 59443767294 200867255532373784442745261542645325315275374222849104412671 s t := by
  refine ⟨_, rfl, ?_⟩
  repeat' first
    | with_reducible assumption
    | with_reducible exact HasReg.all
    | ((with_reducible apply orDec); rfl)
    | with_reducible intro _
    | with_reducible exact Fr.refl _ _ _
    | with_reducible apply Fr.ite
    | with_reducible apply Fr.step (State.access_fr ..)

theorem execYrdNowLoRead_fr (m : Fin 16) (y : Fin 5) (s : State) : ∃ t, execYrdNowLoRead m y s = .next t ∧ Fr 59443767294 200867255532373784442745261542645325315275374222849104412671 s t := by
  refine ⟨_, rfl, ?_⟩
  repeat' first
    | with_reducible assumption
    | with_reducible exact HasReg.all
    | ((with_reducible apply orDec); rfl)
    | with_reducible intro _
    | with_reducible exact Fr.refl _ _ _
    | with_reducible apply Fr.ite
    | with_reducible apply Fr.step (State.access_fr ..)

theorem execTmlRead_fr (m : Fin 16) (i : Fin 256) (s : State) : ∃ t, execTmlRead m i s = .next t ∧ Fr 59443767294 200867255532373784442745261542645325315275374222849104412671 s t := by
  refine ⟨_, rfl, ?_⟩
  repeat' first
    | with_reducible assumption
    | with_reducible exact HasReg.all
    | ((with_reducible apply orDec); rfl)
    | with_reducible intro _
    | with_reducible exact Fr.refl _ _ _
    | with_reducible apply Fr.ite
    | with_reducible apply Fr.step (State.tmlSel_fr ..)

theorem execTmlWrite_fr (m : Fin 16) (i : Fin 256) (s : State) : ∃ t, execTmlWrite m i s = .next t ∧ Fr 59443767294 200867255532373784442745261542645325315275374222849104412671 s t := by
  refine ⟨_, rfl, ?_⟩
  repeat' first
    | with_reducible assumption
    | with_reducible exact HasReg.all
    | ((with_reducible apply orDec); rfl)
    | with_reducible intro _
    | with_reducible exact Fr.refl _ _ _
    | with_reducible apply Fr.ite
    | with_reducible apply Fr.step (State.tmlSel_fr ..)

theorem execTmlDelete_fr (m : Fin 16) (i : Fin 256) (s : State) : ∃ t, execTmlDelete m i s = .next t ∧ Fr 59443767294 200867255532373784442745261542645325315275374222849104412671 s t := by
  refine ⟨_, rfl, ?_⟩
  repeat' first
    | with_reducible assumption
    | with_reducible exact HasReg.all
    | ((with_reducible apply orDec); rfl)
    | with_reducible intro _
    | with_reducible exact Fr.refl _ _ _
    | with_reducible apply Fr.ite
    | with_reducible apply Fr.step (State.tmlSel_fr ..)

theorem execTtaClearBuffer_fr (m : Fin 16) (n : Stall) (dev : Fin 128) (ep : Fin 16) (dirIn bulk : Bool) (s : State) : ∃ t, execTtaClearBuffer m n dev ep dirIn bulk s = .next t ∧ Fr 59443767294 200867255532373784442745261542645325315275374222849104412671 s t := by
  refine ⟨_, rfl, ?_⟩
  repeat' first
    | with_reducible assumption
    | with_reducible exact HasReg.all
    | ((with_reducible apply orDec); rfl)
    | with_reducible intro _
    | with_reducible exact Fr.refl _ _ _
    | with_reducible apply Fr.ite
    | with_reducible apply Fr.step (State.access_fr ..)

theorem execTtaResetTt_fr (m : Fin 16) (n : Stall) (s : State) : ∃ t, execTtaResetTt m n s = .next t ∧ Fr 59443767294 200867255532373784442745261542645325315275374222849104412671 s t := by
  refine ⟨_, rfl, ?_⟩
  repeat' first
    | with_reducible assumption
    | with_reducible exact HasReg.all
    | ((with_reducible apply orDec); rfl)
    | with_reducible intro _
    | with_reducible exact Fr.refl _ _ _
    | with_reducible apply Fr.ite
    | with_reducible apply Fr.step (State.access_fr ..)

theorem execTtaStopTt_fr (m : Fin 16) (n : Stall) (s : State) : ∃ t, execTtaStopTt m n s = .next t ∧ Fr 59443767294 200867255532373784442745261542645325315275374222849104412671 s t := by
  refine ⟨_, rfl, ?_⟩
  repeat' first
    | with_reducible assumption
    | with_reducible exact HasReg.all
    | ((with_reducible apply orDec); rfl)
    | with_reducible intro _
    | with_reducible exact Fr.refl _ _ _
    | with_reducible apply Fr.ite
    | with_reducible apply Fr.step (State.access_fr ..)

theorem execTtaStart_fr (m : Fin 16) (n : Stall) (s : State) : ∃ t, execTtaStart m n s = .next t ∧ Fr 59443767294 200867255532373784442745261542645325315275374222849104412671 s t := by
  refine ⟨_, rfl, ?_⟩
  repeat' first
    | with_reducible assumption
    | with_reducible exact HasReg.all
    | ((with_reducible apply orDec); rfl)
    | with_reducible intro _
    | with_reducible exact Fr.refl _ _ _
    | with_reducible apply Fr.ite
    | with_reducible apply Fr.step (State.access_fr ..)

theorem execLinkRetrain_fr (m : Fin 16) (mask : Fin 16) (s : State) : ∃ t, execLinkRetrain m mask s = .next t ∧ Fr 59443767294 200867255532373784442745261542645325315275374222849104412671 s t := by
  refine ⟨_, rfl, ?_⟩
  repeat' first
    | with_reducible assumption
    | with_reducible exact HasReg.all
    | ((with_reducible apply orDec); rfl)
    | with_reducible intro _
    | with_reducible exact Fr.refl _ _ _
    | with_reducible apply Fr.ite
    | with_reducible apply Fr.step (State.access_fr ..)

theorem execBellRingRequest_fr (m : Fin 16) (mask : Fin 16) (s : State) : ∃ t, execBellRingRequest m mask s = .next t ∧ Fr 59443767294 200867255532373784442745261542645325315275374222849104412671 s t := by
  refine ⟨_, rfl, ?_⟩
  repeat' first
    | with_reducible assumption
    | with_reducible exact HasReg.all
    | ((with_reducible apply orDec); rfl)
    | with_reducible intro _
    | with_reducible exact Fr.refl _ _ _
    | with_reducible apply Fr.ite
    | with_reducible apply Fr.step (State.access_fr ..)

theorem execTlmEnergyLoRead_fr (m : Fin 16) (n : Channel) (s : State) : ∃ t, execTlmEnergyLoRead m n s = .next t ∧ Fr 59443767294 200867255532373784442745261542645325315275374222849104412671 s t := by
  refine ⟨_, rfl, ?_⟩
  repeat' first
    | with_reducible assumption
    | with_reducible exact HasReg.all
    | ((with_reducible apply orDec); rfl)
    | with_reducible intro _
    | with_reducible exact Fr.refl _ _ _
    | with_reducible apply Fr.ite
    | with_reducible apply Fr.step (State.access_fr ..)

theorem execTlmEclrWrite_fr (m : Fin 16) (mask : Fin 131072) (s : State) : ∃ t, execTlmEclrWrite m mask s = .next t ∧ Fr 59443767294 200867255532373784442745261542645325315275374222849104412671 s t := by
  refine ⟨_, rfl, ?_⟩
  repeat' first
    | with_reducible assumption
    | with_reducible exact HasReg.all
    | ((with_reducible apply orDec); rfl)
    | with_reducible intro _
    | with_reducible exact Fr.refl _ _ _
    | with_reducible apply Fr.ite
    | with_reducible apply Fr.step (State.access_fr ..)

theorem execPpwClearWrite_fr (m : Fin 16) (mask : Fin 131072) (s : State) : ∃ t, execPpwClearWrite m mask s = .next t ∧ Fr 59443767294 200867255532373784442745261542645325315275374222849104412671 s t := by
  refine ⟨_, rfl, ?_⟩
  repeat' first
    | with_reducible assumption
    | with_reducible exact HasReg.all
    | ((with_reducible apply orDec); rfl)
    | with_reducible intro _
    | with_reducible exact Fr.refl _ _ _
    | with_reducible apply Fr.ite
    | with_reducible apply Fr.step (State.access_fr ..)

theorem execPdcMyvoteWrite_fr (m : Fin 16) (d : Fin 12) (v : Fin 4) (s : State) : ∃ t, execPdcMyvoteWrite m d v s = .next t ∧ Fr 59443767294 200867255532373784442745261542645325315275374222849104412671 s t := by
  refine ⟨_, rfl, ?_⟩
  repeat' first
    | with_reducible assumption
    | with_reducible exact HasReg.all
    | ((with_reducible apply orDec); rfl)
    | with_reducible intro _
    | with_reducible exact Fr.refl _ _ _
    | with_reducible apply Fr.ite
    | with_reducible apply Fr.step (State.access_fr ..)

theorem execInboundPost_fr (m : Fin 16) (c : Fin 12) (reply : Bool) (seq : Fin 16) (count : Fin 32) (s : State) : ∃ t, execInboundPost m c reply seq count s = .next t ∧ Fr 59443767294 200867255532373784442745261542645325315275374222849104412671 s t := by
  refine ⟨_, rfl, ?_⟩
  repeat' first
    | with_reducible assumption
    | with_reducible exact HasReg.all
    | ((with_reducible apply orDec); rfl)
    | with_reducible intro _
    | with_reducible exact Fr.refl _ _ _
    | with_reducible apply Fr.ite
    | with_reducible apply Fr.step (State.access_fr ..)

theorem execOutboundAck_fr (m : Fin 16) (c : Fin 12) (s : State) : ∃ t, execOutboundAck m c s = .next t ∧ Fr 59443767294 200867255532373784442745261542645325315275374222849104412671 s t := by
  refine ⟨_, rfl, ?_⟩
  repeat' first
    | with_reducible assumption
    | with_reducible exact HasReg.all
    | ((with_reducible apply orDec); rfl)
    | with_reducible intro _
    | with_reducible exact Fr.refl _ _ _
    | with_reducible apply Fr.ite
    | with_reducible apply Fr.step (State.access_fr ..)

theorem execMbxLockRead_fr (m : Fin 16) (i : Fin 16) (s : State) : ∃ t, execMbxLockRead m i s = .next t ∧ Fr 59443767294 200867255532373784442745261542645325315275374222849104412671 s t := by
  refine ⟨_, rfl, ?_⟩
  repeat' first
    | with_reducible assumption
    | with_reducible exact HasReg.all
    | ((with_reducible apply orDec); rfl)
    | with_reducible intro _
    | with_reducible exact Fr.refl _ _ _
    | with_reducible apply Fr.ite
    | with_reducible apply Fr.step (State.access_fr ..)

theorem execMbxLockWrite_fr (m : Fin 16) (i : Fin 16) (w : BitVec 32) (s : State) : ∃ t, execMbxLockWrite m i w s = .next t ∧ Fr 59443767294 200867255532373784442745261542645325315275374222849104412671 s t := by
  refine ⟨_, rfl, ?_⟩
  repeat' first
    | with_reducible assumption
    | with_reducible exact HasReg.all
    | ((with_reducible apply orDec); rfl)
    | with_reducible intro _
    | with_reducible exact Fr.refl _ _ _
    | with_reducible apply Fr.ite
    | with_reducible apply Fr.step (State.access_fr ..)

theorem execQueueDataRead_fr (m : Fin 16) (q : Fin 4) (s : State) : ∃ t, execQueueDataRead m q s = .next t ∧ Fr 59443767294 200867255532373784442745261542645325315275374222849104412671 s t := by
  refine ⟨_, rfl, ?_⟩
  repeat' first
    | with_reducible assumption
    | with_reducible exact HasReg.all
    | ((with_reducible apply orDec); rfl)
    | with_reducible intro _
    | with_reducible exact Fr.refl _ _ _
    | with_reducible apply Fr.ite
    | with_reducible apply Fr.step (State.access_fr ..)

theorem execQueueReset_fr (m : Fin 16) (q : Fin 4) (s : State) : ∃ t, execQueueReset m q s = .next t ∧ Fr 59443767294 200867255532373784442745261542645325315275374222849104412671 s t := by
  refine ⟨_, rfl, ?_⟩
  repeat' first
    | with_reducible assumption
    | with_reducible exact HasReg.all
    | ((with_reducible apply orDec); rfl)
    | with_reducible intro _
    | with_reducible exact Fr.refl _ _ _
    | with_reducible apply Fr.ite
    | with_reducible apply Fr.step (State.access_fr ..)

theorem execPmuClear_fr (m : Fin 16) (i : Fin 8) (s : State) : ∃ t, execPmuClear m i s = .next t ∧ Fr 59443767294 200867255532373784442745261542645325315275374222849104412671 s t := by
  refine ⟨_, rfl, ?_⟩
  repeat' first
    | with_reducible assumption
    | with_reducible exact HasReg.all
    | ((with_reducible apply orDec); rfl)
    | with_reducible intro _
    | with_reducible exact Fr.refl _ _ _
    | with_reducible apply Fr.ite
    | with_reducible apply Fr.step (State.access_fr ..)

theorem execFltClearWrite_fr (m : Fin 16) (src : Fin 128) (all : Bool) (qual : Fin 256) (s : State) : ∃ t, execFltClearWrite m src all qual s = .next t ∧ Fr 59443767294 200867255532373784442745261542645325315275374222849104412671 s t := by
  refine ⟨_, rfl, ?_⟩
  repeat' first
    | with_reducible assumption
    | with_reducible exact HasReg.all
    | ((with_reducible apply orDec); rfl)
    | with_reducible intro _
    | with_reducible exact Fr.refl _ _ _
    | with_reducible apply Fr.ite
    | with_reducible apply Fr.step (State.access_fr ..)

theorem execForceFault_fr (m : Fin 16) (src : Fin 128) (qual : Fin 256) (s : State) : ∃ t, execForceFault m src qual s = .next t ∧ Fr 59443767294 200867255532373784442745261542645325315275374222849104412671 s t := by
  refine ⟨_, rfl, ?_⟩
  repeat' first
    | with_reducible assumption
    | with_reducible exact HasReg.all
    | ((with_reducible apply orDec); rfl)
    | with_reducible intro _
    | with_reducible exact Fr.refl _ _ _
    | with_reducible apply Fr.ite
    | with_reducible apply Fr.step (State.access_fr ..)

theorem execCheckerInvert_fr (m : Fin 16) (mask : Fin 4096) (s : State) : ∃ t, execCheckerInvert m mask s = .next t ∧ Fr 59443767294 200867255532373784442745261542645325315275374222849104412671 s t := by
  refine ⟨_, rfl, ?_⟩
  repeat' first
    | with_reducible assumption
    | with_reducible exact HasReg.all
    | ((with_reducible apply orDec); rfl)
    | with_reducible intro _
    | with_reducible exact Fr.refl _ _ _
    | with_reducible apply Fr.ite
    | with_reducible apply Fr.step (State.access_fr ..)

end Sys2Proof.Machine
end

