-- ==== Sys2Proof/Laws/ExConsume.lean ====
section
/-!
SUPPORT. Every command of Sys2Proof/Machine/Consume.lean answers a next state, and what may have changed in it.
-/
namespace Sys2Proof.Machine

theorem execMessageConsume_fr (c : Fin 12) (reports : List (Nat × List (BitVec 8))) (s : State) : ∃ t, execMessageConsume c reports s = .next t ∧ Fr 59993225214 200867255532373784442745261542645325315275374222849104412671 s t := by
  refine ⟨_, rfl, ?_⟩
  repeat' first
    | with_reducible assumption
    | with_reducible exact HasReg.all
    | ((with_reducible apply orDec); rfl)
    | ((with_reducible apply bitDec); rfl)
    | with_reducible intro _
    | with_reducible exact Fr.refl _ _ _
    | with_reducible apply Fr.ite
    | with_reducible apply Fr.step (State.consume_fr ..)
    | with_reducible apply Fr.step (State.inFall_fr ..)
    | with_reducible apply Fr.step (State.placeProxy_fr ..)
    | with_reducible apply Fr.step (State.postHeld_fr ..)
    | with_reducible apply Fr.when
    | with_reducible apply Fr.withPass

theorem execInfo_fr (c : Fin 12) (seq : Fin 16) (words : List (BitVec 32)) (s : State) : ∃ t, execInfo c seq words s = .next t ∧ Fr 59456354302 200867255532373784442745261542645325315275374222849104412671 s t := by
  refine ⟨_, rfl, ?_⟩
  repeat' first
    | with_reducible assumption
    | with_reducible exact HasReg.all
    | ((with_reducible apply orDec); rfl)
    | with_reducible intro _
    | with_reducible exact Fr.refl _ _ _
    | with_reducible apply Fr.ite
    | with_reducible apply Fr.step (State.command_fr ..)

theorem execModeGet_fr (c : Fin 12) (seq : Fin 16) (words : List (BitVec 32)) (s : State) : ∃ t, execModeGet c seq words s = .next t ∧ Fr 59456354302 200867255532373784442745261542645325315275374222849104412671 s t := by
  refine ⟨_, rfl, ?_⟩
  repeat' first
    | with_reducible assumption
    | with_reducible exact HasReg.all
    | ((with_reducible apply orDec); rfl)
    | with_reducible intro _
    | with_reducible exact Fr.refl _ _ _
    | with_reducible apply Fr.ite
    | with_reducible apply Fr.step (State.command_fr ..)

theorem execPortStatus_fr (c : Fin 12) (seq : Fin 16) (words : List (BitVec 32)) (s : State) : ∃ t, execPortStatus c seq words s = .next t ∧ Fr 59456354302 200867255532373784442745261542645325315275374222849104412671 s t := by
  refine ⟨_, rfl, ?_⟩
  repeat' first
    | with_reducible assumption
    | with_reducible exact HasReg.all
    | ((with_reducible apply orDec); rfl)
    | with_reducible intro _
    | with_reducible exact Fr.refl _ _ _
    | with_reducible apply Fr.ite
    | with_reducible apply Fr.step (State.command_fr ..)

theorem execPortAssign_fr (c : Fin 12) (seq : Fin 16) (words : List (BitVec 32)) (s : State) : ∃ t, execPortAssign c seq words s = .next t ∧ Fr 59456354302 200867255532373784442745261542645325315275374222849104412671 s t := by
  refine ⟨_, rfl, ?_⟩
  repeat' first
    | with_reducible assumption
    | with_reducible exact HasReg.all
    | ((with_reducible apply orDec); rfl)
    | with_reducible intro _
    | with_reducible exact Fr.refl _ _ _
    | with_reducible apply Fr.ite
    | with_reducible apply Fr.step (State.command_fr ..)

theorem execPortPower_fr (c : Fin 12) (seq : Fin 16) (words : List (BitVec 32)) (s : State) : ∃ t, execPortPower c seq words s = .next t ∧ Fr 59456354302 200867255532373784442745261542645325315275374222849104412671 s t := by
  refine ⟨_, rfl, ?_⟩
  repeat' first
    | with_reducible assumption
    | with_reducible exact HasReg.all
    | ((with_reducible apply orDec); rfl)
    | with_reducible intro _
    | with_reducible exact Fr.refl _ _ _
    | with_reducible apply Fr.ite
    | with_reducible apply Fr.step (State.command_fr ..)

theorem execKvmSet_fr (c : Fin 12) (seq : Fin 16) (words : List (BitVec 32)) (s : State) : ∃ t, execKvmSet c seq words s = .next t ∧ Fr 59456354302 200867255532373784442745261542645325315275374222849104412671 s t := by
  refine ⟨_, rfl, ?_⟩
  repeat' first
    | with_reducible assumption
    | with_reducible exact HasReg.all
    | ((with_reducible apply orDec); rfl)
    | with_reducible intro _
    | with_reducible exact Fr.refl _ _ _
    | with_reducible apply Fr.ite
    | with_reducible apply Fr.step (State.command_fr ..)

theorem execPdStatus_fr (c : Fin 12) (seq : Fin 16) (words : List (BitVec 32)) (s : State) : ∃ t, execPdStatus c seq words s = .next t ∧ Fr 59456354302 200867255532373784442745261542645325315275374222849104412671 s t := by
  refine ⟨_, rfl, ?_⟩
  repeat' first
    | with_reducible assumption
    | with_reducible exact HasReg.all
    | ((with_reducible apply orDec); rfl)
    | with_reducible intro _
    | with_reducible exact Fr.refl _ _ _
    | with_reducible apply Fr.ite
    | with_reducible apply Fr.step (State.command_fr ..)

theorem execPdPolicy_fr (c : Fin 12) (seq : Fin 16) (words : List (BitVec 32)) (s : State) : ∃ t, execPdPolicy c seq words s = .next t ∧ Fr 59456354302 200867255532373784442745261542645325315275374222849104412671 s t := by
  refine ⟨_, rfl, ?_⟩
  repeat' first
    | with_reducible assumption
    | with_reducible exact HasReg.all
    | ((with_reducible apply orDec); rfl)
    | with_reducible intro _
    | with_reducible exact Fr.refl _ _ _
    | with_reducible apply Fr.ite
    | with_reducible apply Fr.step (State.command_fr ..)

theorem execSourceCapsSet_fr (c : Fin 12) (seq : Fin 16) (words : List (BitVec 32)) (s : State) : ∃ t, execSourceCapsSet c seq words s = .next t ∧ Fr 59456354302 200867255532373784442745261542645325315275374222849104412671 s t := by
  refine ⟨_, rfl, ?_⟩
  repeat' first
    | with_reducible assumption
    | with_reducible exact HasReg.all
    | ((with_reducible apply orDec); rfl)
    | with_reducible intro _
    | with_reducible exact Fr.refl _ _ _
    | with_reducible apply Fr.ite
    | with_reducible apply Fr.step (State.command_fr ..)

theorem execTlmRead_fr (c : Fin 12) (seq : Fin 16) (words : List (BitVec 32)) (s : State) : ∃ t, execTlmRead c seq words s = .next t ∧ Fr 59456354302 200867255532373784442745261542645325315275374222849104412671 s t := by
  refine ⟨_, rfl, ?_⟩
  repeat' first
    | with_reducible assumption
    | with_reducible exact HasReg.all
    | ((with_reducible apply orDec); rfl)
    | with_reducible intro _
    | with_reducible exact Fr.refl _ _ _
    | with_reducible apply Fr.ite
    | with_reducible apply Fr.step (State.command_fr ..)

theorem execEnergyRead_fr (c : Fin 12) (seq : Fin 16) (words : List (BitVec 32)) (s : State) : ∃ t, execEnergyRead c seq words s = .next t ∧ Fr 59456354302 200867255532373784442745261542645325315275374222849104412671 s t := by
  refine ⟨_, rfl, ?_⟩
  repeat' first
    | with_reducible assumption
    | with_reducible exact HasReg.all
    | ((with_reducible apply orDec); rfl)
    | with_reducible intro _
    | with_reducible exact Fr.refl _ _ _
    | with_reducible apply Fr.ite
    | with_reducible apply Fr.step (State.command_fr ..)

theorem execBudgetSet_fr (c : Fin 12) (seq : Fin 16) (words : List (BitVec 32)) (s : State) : ∃ t, execBudgetSet c seq words s = .next t ∧ Fr 59456354302 200867255532373784442745261542645325315275374222849104412671 s t := by
  refine ⟨_, rfl, ?_⟩
  repeat' first
    | with_reducible assumption
    | with_reducible exact HasReg.all
    | ((with_reducible apply orDec); rfl)
    | with_reducible intro _
    | with_reducible exact Fr.refl _ _ _
    | with_reducible apply Fr.ite
    | with_reducible apply Fr.step (State.command_fr ..)

theorem execFabricStatus_fr (c : Fin 12) (seq : Fin 16) (words : List (BitVec 32)) (s : State) : ∃ t, execFabricStatus c seq words s = .next t ∧ Fr 59456354302 200867255532373784442745261542645325315275374222849104412671 s t := by
  refine ⟨_, rfl, ?_⟩
  repeat' first
    | with_reducible assumption
    | with_reducible exact HasReg.all
    | ((with_reducible apply orDec); rfl)
    | with_reducible intro _
    | with_reducible exact Fr.refl _ _ _
    | with_reducible apply Fr.ite
    | with_reducible apply Fr.step (State.command_fr ..)

theorem execFabricReseed_fr (c : Fin 12) (seq : Fin 16) (words : List (BitVec 32)) (s : State) : ∃ t, execFabricReseed c seq words s = .next t ∧ Fr 59456354302 200867255532373784442745261542645325315275374222849104412671 s t := by
  refine ⟨_, rfl, ?_⟩
  repeat' first
    | with_reducible assumption
    | with_reducible exact HasReg.all
    | ((with_reducible apply orDec); rfl)
    | with_reducible intro _
    | with_reducible exact Fr.refl _ _ _
    | with_reducible apply Fr.ite
    | with_reducible apply Fr.step (State.command_fr ..)

theorem execQueueConfig_fr (c : Fin 12) (seq : Fin 16) (words : List (BitVec 32)) (s : State) : ∃ t, execQueueConfig c seq words s = .next t ∧ Fr 59456354302 200867255532373784442745261542645325315275374222849104412671 s t := by
  refine ⟨_, rfl, ?_⟩
  repeat' first
    | with_reducible assumption
    | with_reducible exact HasReg.all
    | ((with_reducible apply orDec); rfl)
    | with_reducible intro _
    | with_reducible exact Fr.refl _ _ _
    | with_reducible apply Fr.ite
    | with_reducible apply Fr.step (State.command_fr ..)

theorem execPmuConfig_fr (c : Fin 12) (seq : Fin 16) (words : List (BitVec 32)) (s : State) : ∃ t, execPmuConfig c seq words s = .next t ∧ Fr 59456354302 200867255532373784442745261542645325315275374222849104412671 s t := by
  refine ⟨_, rfl, ?_⟩
  repeat' first
    | with_reducible assumption
    | with_reducible exact HasReg.all
    | ((with_reducible apply orDec); rfl)
    | with_reducible intro _
    | with_reducible exact Fr.refl _ _ _
    | with_reducible apply Fr.ite
    | with_reducible apply Fr.step (State.command_fr ..)

theorem execFaultStatus_fr (c : Fin 12) (seq : Fin 16) (words : List (BitVec 32)) (s : State) : ∃ t, execFaultStatus c seq words s = .next t ∧ Fr 59456354302 200867255532373784442745261542645325315275374222849104412671 s t := by
  refine ⟨_, rfl, ?_⟩
  repeat' first
    | with_reducible assumption
    | with_reducible exact HasReg.all
    | ((with_reducible apply orDec); rfl)
    | with_reducible intro _
    | with_reducible exact Fr.refl _ _ _
    | with_reducible apply Fr.ite
    | with_reducible apply Fr.step (State.command_fr ..)

theorem execFaultClear_fr (c : Fin 12) (seq : Fin 16) (words : List (BitVec 32)) (s : State) : ∃ t, execFaultClear c seq words s = .next t ∧ Fr 59456354302 200867255532373784442745261542645325315275374222849104412671 s t := by
  refine ⟨_, rfl, ?_⟩
  repeat' first
    | with_reducible assumption
    | with_reducible exact HasReg.all
    | ((with_reducible apply orDec); rfl)
    | with_reducible intro _
    | with_reducible exact Fr.refl _ _ _
    | with_reducible apply Fr.ite
    | with_reducible apply Fr.step (State.command_fr ..)

theorem execDumpRead_fr (c : Fin 12) (seq : Fin 16) (words : List (BitVec 32)) (s : State) : ∃ t, execDumpRead c seq words s = .next t ∧ Fr 59456354302 200867255532373784442745261542645325315275374222849104412671 s t := by
  refine ⟨_, rfl, ?_⟩
  repeat' first
    | with_reducible assumption
    | with_reducible exact HasReg.all
    | ((with_reducible apply orDec); rfl)
    | with_reducible intro _
    | with_reducible exact Fr.refl _ _ _
    | with_reducible apply Fr.ite
    | with_reducible apply Fr.step (State.command_fr ..)

theorem execSessionOpen_fr (c : Fin 12) (seq : Fin 16) (words : List (BitVec 32)) (s : State) : ∃ t, execSessionOpen c seq words s = .next t ∧ Fr 59456354302 200867255532373784442745261542645325315275374222849104412671 s t := by
  refine ⟨_, rfl, ?_⟩
  repeat' first
    | with_reducible assumption
    | with_reducible exact HasReg.all
    | ((with_reducible apply orDec); rfl)
    | with_reducible intro _
    | with_reducible exact Fr.refl _ _ _
    | with_reducible apply Fr.ite
    | with_reducible apply Fr.step (State.command_fr ..)

theorem execSessionClose_fr (c : Fin 12) (seq : Fin 16) (words : List (BitVec 32)) (s : State) : ∃ t, execSessionClose c seq words s = .next t ∧ Fr 59456354302 200867255532373784442745261542645325315275374222849104412671 s t := by
  refine ⟨_, rfl, ?_⟩
  repeat' first
    | with_reducible assumption
    | with_reducible exact HasReg.all
    | ((with_reducible apply orDec); rfl)
    | with_reducible intro _
    | with_reducible exact Fr.refl _ _ _
    | with_reducible apply Fr.ite
    | with_reducible apply Fr.step (State.command_fr ..)

theorem execPlanBegin_fr (c : Fin 12) (seq : Fin 16) (words : List (BitVec 32)) (s : State) : ∃ t, execPlanBegin c seq words s = .next t ∧ Fr 59456354302 200867255532373784442745261542645325315275374222849104412671 s t := by
  refine ⟨_, rfl, ?_⟩
  repeat' first
    | with_reducible assumption
    | with_reducible exact HasReg.all
    | ((with_reducible apply orDec); rfl)
    | with_reducible intro _
    | with_reducible exact Fr.refl _ _ _
    | with_reducible apply Fr.ite
    | with_reducible apply Fr.step (State.command_fr ..)

theorem execPlanChunk_fr (c : Fin 12) (seq : Fin 16) (words : List (BitVec 32)) (s : State) : ∃ t, execPlanChunk c seq words s = .next t ∧ Fr 59456354302 200867255532373784442745261542645325315275374222849104412671 s t := by
  refine ⟨_, rfl, ?_⟩
  repeat' first
    | with_reducible assumption
    | with_reducible exact HasReg.all
    | ((with_reducible apply orDec); rfl)
    | with_reducible intro _
    | with_reducible exact Fr.refl _ _ _
    | with_reducible apply Fr.ite
    | with_reducible apply Fr.step (State.command_fr ..)

theorem execPlanCommit_fr (c : Fin 12) (seq : Fin 16) (words : List (BitVec 32)) (s : State) : ∃ t, execPlanCommit c seq words s = .next t ∧ Fr 59456354302 200867255532373784442745261542645325315275374222849104412671 s t := by
  refine ⟨_, rfl, ?_⟩
  repeat' first
    | with_reducible assumption
    | with_reducible exact HasReg.all
    | ((with_reducible apply orDec); rfl)
    | with_reducible intro _
    | with_reducible exact Fr.refl _ _ _
    | with_reducible apply Fr.ite
    | with_reducible apply Fr.step (State.command_fr ..)

theorem execPlanActivate_fr (c : Fin 12) (seq : Fin 16) (words : List (BitVec 32)) (reports : List (Nat × List (BitVec 8))) (s : State) : ∃ t, execPlanActivate c seq words reports s = .next t ∧ Fr 59456354302 200867255532373784442745261542645325315275374222849104412671 s t := by
  refine ⟨_, rfl, ?_⟩
  repeat' first
    | with_reducible assumption
    | with_reducible exact HasReg.all
    | ((with_reducible apply orDec); rfl)
    | with_reducible intro _
    | with_reducible exact Fr.refl _ _ _
    | with_reducible apply Fr.ite
    | with_reducible apply Fr.step (State.command_fr ..)

theorem execRegPeek_fr (c : Fin 12) (seq : Fin 16) (words : List (BitVec 32)) (s : State) : ∃ t, execRegPeek c seq words s = .next t ∧ Fr 59456354302 200867255532373784442745261542645325315275374222849104412671 s t := by
  refine ⟨_, rfl, ?_⟩
  repeat' first
    | with_reducible assumption
    | with_reducible exact HasReg.all
    | ((with_reducible apply orDec); rfl)
    | with_reducible intro _
    | with_reducible exact Fr.refl _ _ _
    | with_reducible apply Fr.ite
    | with_reducible apply Fr.step (State.command_fr ..)

theorem execRegPoke_fr (c : Fin 12) (seq : Fin 16) (words : List (BitVec 32)) (s : State) : ∃ t, execRegPoke c seq words s = .next t ∧ Fr 59456354302 200867255532373784442745261542645325315275374222849104412671 s t := by
  refine ⟨_, rfl, ?_⟩
  repeat' first
    | with_reducible assumption
    | with_reducible exact HasReg.all
    | ((with_reducible apply orDec); rfl)
    | with_reducible intro _
    | with_reducible exact Fr.refl _ _ _
    | with_reducible apply Fr.ite
    | with_reducible apply Fr.step (State.command_fr ..)

theorem execTimelineAdd_fr (c : Fin 12) (seq : Fin 16) (words : List (BitVec 32)) (s : State) : ∃ t, execTimelineAdd c seq words s = .next t ∧ Fr 59456354302 200867255532373784442745261542645325315275374222849104412671 s t := by
  refine ⟨_, rfl, ?_⟩
  repeat' first
    | with_reducible assumption
    | with_reducible exact HasReg.all
    | ((with_reducible apply orDec); rfl)
    | with_reducible intro _
    | with_reducible exact Fr.refl _ _ _
    | with_reducible apply Fr.ite
    | with_reducible apply Fr.step (State.command_fr ..)

theorem execTimelineDel_fr (c : Fin 12) (seq : Fin 16) (words : List (BitVec 32)) (s : State) : ∃ t, execTimelineDel c seq words s = .next t ∧ Fr 59456354302 200867255532373784442745261542645325315275374222849104412671 s t := by
  refine ⟨_, rfl, ?_⟩
  repeat' first
    | with_reducible assumption
    | with_reducible exact HasReg.all
    | ((with_reducible apply orDec); rfl)
    | with_reducible intro _
    | with_reducible exact Fr.refl _ _ _
    | with_reducible apply Fr.ite
    | with_reducible apply Fr.step (State.command_fr ..)

theorem execPortPowerCycleRelease_fr (n : Channel) (s : State) : ∃ t, execPortPowerCycleRelease n s = .next t ∧ Fr 17567737594 28421910042690324601972704112127622905995755260150284288 s t := by
  refine ⟨_, rfl, ?_⟩
  repeat' first
    | with_reducible assumption
    | ((with_reducible apply orDec); rfl)
    | with_reducible intro _
    | with_reducible exact Fr.refl _ _ _
    | with_reducible apply Fr.ite
    | with_reducible apply Fr.step (State.tryRamp_fr ..)
    | with_reducible apply Fr.step (State.chMod_fr ..)
    | with_reducible apply Fr.when

theorem execHandoffStepDone_fr (i : Fin 16) (ms : Fin 1024) (s : State) : ∃ t, execHandoffStepDone i ms s = .next t ∧ Fr 58384705274 813059626990554846003255159344447786441049361303138729984 s t := by
  refine ⟨_, rfl, ?_⟩
  repeat' first
    | with_reducible assumption
    | ((with_reducible apply orDec); rfl)
    | ((with_reducible apply bitDec); rfl)
    | with_reducible intro _
    | with_reducible exact Fr.refl _ _ _
    | with_reducible apply Fr.ite
    | with_reducible apply Fr.step (State.finishPend_fr ..)
    | with_reducible apply Fr.step (State.handDone_fr ..)
    | with_reducible apply Fr.when
    | with_reducible apply Fr.withHandoff
    | split

theorem execSessionIdleTimeout_fr (c : Fin 12) (s : State) : ∃ t, execSessionIdleTimeout c s = .next t ∧ Fr 6710886434 784642610055346327042324084069582841901840271387308064768 s t := by
  refine ⟨_, rfl, ?_⟩
  repeat' first
    | with_reducible assumption
    | ((with_reducible apply orDec); rfl)
    | with_reducible intro _
    | with_reducible exact Fr.refl _ _ _
    | with_reducible apply Fr.ite
    | with_reducible apply Fr.step (State.closeSession_fr ..)

end Sys2Proof.Machine
end

