-- ==== Sys2Proof/Laws/ExDomain.lean ====
section
/-!
SUPPORT. Every command of Sys2Proof/Machine/Domain.lean answers a next state, and what may have changed in it.
-/
namespace Sys2Proof.Machine

theorem execAccessHoldEnd_fr (m : Fin 16) (d : Fin 12) (s : State) : ∃ t, execAccessHoldEnd m d s = .next t ∧ Fr 32 0 s t := by
  refine ⟨_, rfl, ?_⟩
  repeat' first
    | with_reducible assumption
    | ((with_reducible apply bitDec); rfl)
    | with_reducible intro _
    | with_reducible exact Fr.refl _ _ _
    | with_reducible apply Fr.ite
    | with_reducible apply Fr.withPdc

theorem execDomainEntryStepDone_fr (d : Fin 12) (s : State) : ∃ t, execDomainEntryStepDone d s = .next t ∧ Fr 36574844642 200867255532373784442745261542645325315275374222849104412671 s t := by
  refine ⟨_, rfl, ?_⟩
  repeat' first
    | with_reducible assumption
    | with_reducible exact HasReg.all
    | ((with_reducible apply orDec); rfl)
    | with_reducible intro _
    | with_reducible exact Fr.refl _ _ _
    | with_reducible apply Fr.ite
    | with_reducible apply Fr.step (State.domStep_fr ..)
    | with_reducible apply Fr.step (State.domMod_fr ..)
    | with_reducible apply Fr.step (State.entryDone_fr ..)
    | split

theorem execSwitchOpenTimeout_fr (d : Fin 12) (s : State) : ∃ t, execSwitchOpenTimeout d s = .next t ∧ Fr 54075062010 200867255532373784442745261542645325315275374222849104412671 s t := by
  refine ⟨_, rfl, ?_⟩
  repeat' first
    | with_reducible apply Fr.hwAny
    | with_reducible apply State.fieldsAny_fr
    | with_reducible exact fldNil
    | with_reducible apply fldCons
    | with_reducible assumption
    | with_reducible exact HasReg.all
    | ((with_reducible apply orDec); rfl)
    | with_reducible intro _
    | with_reducible exact Fr.refl _ _ _
    | with_reducible apply Fr.ite
    | with_reducible apply Fr.step (State.domMod_fr ..)
    | with_reducible apply Fr.step (State.loseDomain_fr ..)
    | with_reducible apply Fr.step (State.raise_fr ..)
    | with_reducible apply State.fields_fr
    | with_reducible apply Fr.when
    | with_reducible apply Fr.each

theorem execDomainExitStepDone_fr (d : Fin 12) (late : Bool) (refused : List Nat) (s : State) : ∃ t, execDomainExitStepDone d late refused s = .next t ∧ Fr 59443767294 200867255532373784442745261542645325315275374222849104412671 s t := by
  refine ⟨_, rfl, ?_⟩
  repeat' first
    | with_reducible apply Fr.hwAny
    | with_reducible assumption
    | with_reducible exact HasReg.all
    | ((with_reducible apply orDec); rfl)
    | with_reducible intro _
    | with_reducible exact Fr.refl _ _ _
    | with_reducible apply Fr.ite
    | with_reducible apply Fr.step (State.crystalUp_fr ..)
    | with_reducible apply Fr.step (State.domStep_fr ..)
    | with_reducible apply Fr.step (State.replay_fr ..)
    | with_reducible apply Fr.step (State.raise_fr ..)
    | with_reducible apply Fr.step (State.exitDone_fr ..)
    | with_reducible apply Fr.when
    | with_reducible apply Fr.hw
    | with_reducible apply PDC_STICKY.reg
    | split

theorem execDomainExitTimeout_fr (d : Fin 12) (s : State) : ∃ t, execDomainExitTimeout d s = .next t ∧ Fr 59443771390 200867255532373784442745261542645325315275374222849104412671 s t := by
  refine ⟨_, rfl, ?_⟩
  repeat' first
    | with_reducible assumption
    | with_reducible exact HasReg.all
    | ((with_reducible apply orDec); rfl)
    | with_reducible intro _
    | with_reducible exact Fr.refl _ _ _
    | with_reducible apply Fr.ite
    | with_reducible apply Fr.step (State.exitFail_fr ..)
    | with_reducible apply Fr.when
    | with_reducible apply Fr.each

theorem execDomainExitRetry_fr (d : Fin 12) (s : State) : ∃ t, execDomainExitRetry d s = .next t ∧ Fr 32 0 s t := by
  refine ⟨_, rfl, ?_⟩
  repeat' first
    | with_reducible assumption
    | ((with_reducible apply orDec); rfl)
    | with_reducible intro _
    | with_reducible exact Fr.refl _ _ _
    | with_reducible apply Fr.ite
    | with_reducible apply Fr.step (State.exitStart_fr ..)
    | with_reducible apply Fr.when

theorem execCrystalStop_fr (s : State) : ∃ t, execCrystalStop s = .next t ∧ Fr 17567737598 28421910042690324559437205422914278456369689858666397952 s t := by
  refine ⟨_, rfl, ?_⟩
  repeat' first
    | with_reducible assumption
    | ((with_reducible apply orDec); rfl)
    | ((with_reducible apply bitDec); rfl)
    | with_reducible intro _
    | with_reducible exact Fr.refl _ _ _
    | with_reducible apply Fr.ite
    | with_reducible apply Fr.step (State.yardsKeeper_fr ..)
    | with_reducible apply Fr.step (State.yardCoast_fr ..)
    | with_reducible apply Fr.p
    | with_reducible apply Fr.inc
    | with_reducible apply Fr.when
    | with_reducible apply Fr.each
    | with_reducible apply PDC_XTAL.reg
    | ((with_reducible apply HasReg.as); simp only [PDC_XTAL.RUNNING_addr, PDC_XTAL.STOPS_addr])

theorem execCrystalRestart_fr (s : State) : ∃ t, execCrystalRestart s = .next t ∧ Fr 16777252 10889035741470030830827987437816582766848 s t := by
  refine ⟨_, rfl, ?_⟩
  repeat' first
    | with_reducible assumption
    | ((with_reducible apply orDec); rfl)
    | with_reducible intro _
    | with_reducible exact Fr.refl _ _ _
    | with_reducible apply Fr.ite
    | with_reducible apply Fr.step (State.crystalUp_fr ..)
    | with_reducible apply Fr.when

theorem execJtagTapLeaveTestLogicReset_fr (s : State) : ∃ t, execJtagTapLeaveTestLogicReset s = .next t ∧ Fr 34 4893107481805641041628876881595771524683695319416832 s t := by
  refine ⟨_, rfl, ?_⟩
  repeat' first
    | with_reducible assumption
    | ((with_reducible apply orDec); rfl)
    | with_reducible intro _
    | with_reducible exact Fr.refl _ _ _
    | with_reducible apply Fr.ite
    | with_reducible apply Fr.step (State.raiseVote_fr ..)
    | with_reducible apply Fr.when
    | with_reducible apply Fr.each
    | with_reducible apply Fr.mark

end Sys2Proof.Machine
end

