-- ==== Sys2Proof/Laws/ExDrover.lean ====
section
/-!
SUPPORT. Every command of Sys2Proof/Machine/Drover.lean answers a next state, and what may have changed in it.
-/
namespace Sys2Proof.Machine

theorem execDataBaleReceived_fr (k : Fin 4) (header : BitVec 64) (payload : List (BitVec 8)) (mark : Bool) (ecc : Fin 3) (s : State) : ∃ t, execDataBaleReceived k header payload mark ecc s = .next t ∧ Fr 17567737594 28421910042690324559437205422914287901102690783402655744 s t := by
  refine ⟨_, rfl, ?_⟩
  repeat' first
    | with_reducible assumption
    | ((with_reducible apply orDec); rfl)
    | with_reducible intro _
    | with_reducible exact Fr.refl _ _ _
    | with_reducible apply Fr.ite
    | with_reducible apply Fr.step (State.dataBaleReceived_fr ..)

theorem execFlowOpenReceived_fr (c : CtrlHdr) (o : FlowOpen) (s : State) : ∃ t, execFlowOpenReceived c o s = .next t ∧ Fr 17567737594 28421910042690324559437205422914287901102690782328913920 s t := by
  refine ⟨_, rfl, ?_⟩
  repeat' first
    | with_reducible assumption
    | ((with_reducible apply orDec); rfl)
    | with_reducible intro _
    | with_reducible exact Fr.refl _ _ _
    | with_reducible apply Fr.ite
    | with_reducible apply Fr.step (State.discardBale_fr ..)
    | with_reducible apply Fr.step (State.ctrlCell_fr ..)
    | with_reducible apply Fr.step (State.freeCtrl_fr ..)
    | with_reducible apply Fr.step (State.fabMod_fr ..)
    | with_reducible apply Fr.step (State.noteSeen_fr ..)
    | with_reducible apply Fr.step (State.forwardCtrl_fr ..)

theorem execFlowRecordFree_fr (idx : Fin 512) (s : State) : ∃ t, execFlowRecordFree idx s = .next t ∧ Fr 393216 3069854959180814961628475917428736221588623101083516928 s t := by
  refine ⟨_, rfl, ?_⟩
  repeat' first
    | with_reducible assumption
    | ((with_reducible apply orDec); rfl)
    | with_reducible intro _
    | with_reducible exact Fr.refl _ _ _
    | with_reducible apply Fr.ite
    | with_reducible apply Fr.step (State.retryWaits_fr ..)
    | with_reducible apply Fr.step (State.setFlows_fr ..)

theorem execDeliveredReceived_fr (c : CtrlHdr) (counts : List (Fin 512 × Fin 65536)) (s : State) : ∃ t, execDeliveredReceived c counts s = .next t ∧ Fr 17567737594 28421910042690324559437205422919123604381149299027738624 s t := by
  refine ⟨_, rfl, ?_⟩
  repeat' first
    | with_reducible assumption
    | ((with_reducible apply orDec); rfl)
    | with_reducible intro _
    | with_reducible exact Fr.refl _ _ _
    | with_reducible apply Fr.ite
    | with_reducible apply State.rxCtrl_fr
    | with_reducible apply Fr.step (State.takeDelivered_fr ..)
    | with_reducible apply Fr.foldl

theorem execDeliveredTimer_fr (src : Fin 8) (idx : Fin 512) (s : State) : ∃ t, execDeliveredTimer src idx s = .next t ∧ Fr 393216 3069854959180814961628475917423900518310152214878879744 s t := by
  refine ⟨_, rfl, ?_⟩
  repeat' first
    | with_reducible assumption
    | ((with_reducible apply orDec); rfl)
    | with_reducible intro _
    | with_reducible exact Fr.refl _ _ _
    | with_reducible apply Fr.ite
    | with_reducible apply Fr.step (State.sendDelivered_fr ..)
    | with_reducible apply Fr.when

theorem execResyncReceived_fr (c : CtrlHdr) (epoch : Bool) (s : State) : ∃ t, execResyncReceived c epoch s = .next t ∧ Fr 17567737594 28421910042690324559437205422914287901102690782328913920 s t := by
  refine ⟨_, rfl, ?_⟩
  repeat' first
    | with_reducible assumption
    | ((with_reducible apply orDec); rfl)
    | with_reducible intro _
    | with_reducible exact Fr.refl _ _ _
    | with_reducible apply Fr.ite
    | with_reducible apply State.rxCtrl_fr
    | with_reducible apply Fr.step (State.fabMod_fr ..)
    | with_reducible apply Fr.step (State.answerResync_fr ..)
    | with_reducible apply Fr.mark

theorem execResyncAckReceived_fr (c : CtrlHdr) (epoch : Bool) (counts : List (Fin 512 × Fin 65536)) (elapsed : Nat) (s : State) : ∃ t, execResyncAckReceived c epoch counts elapsed s = .next t ∧ Fr 17567737594 28421910042690324559437205422919123604381149299027738624 s t := by
  refine ⟨_, rfl, ?_⟩
  repeat' first
    | with_reducible assumption
    | ((with_reducible apply orDec); rfl)
    | ((with_reducible apply bitDec); rfl)
    | with_reducible intro _
    | with_reducible exact Fr.refl _ _ _
    | with_reducible apply Fr.ite
    | with_reducible apply State.rxCtrl_fr
    | with_reducible apply Fr.step (State.takeDelivered_fr ..)
    | with_reducible apply Fr.step (State.fabMod_fr ..)
    | with_reducible apply Fr.step (State.setFlows_fr ..)
    | with_reducible apply Fr.step (State.queueData_fr ..)
    | with_reducible apply Fr.step (State.record_fr ..)
    | with_reducible apply Fr.p
    | with_reducible apply Fr.when
    | with_reducible apply Fr.foldl
    | with_reducible apply Fr.foldlSnd
    | with_reducible apply DRV_REROUTE.reg
    | ((with_reducible apply HasReg.as); simp only [DRV_REROUTE.LAST_addr, DRV_REROUTE.RESYNCS_addr])

end Sys2Proof.Machine
end

