-- ==== Sys2Proof/Laws/ExFaultOps.lean ====
section
/-!
SUPPORT. Every command of Sys2Proof/Machine/FaultOps.lean answers a next state, and what may have changed in it.
-/
namespace Sys2Proof.Machine

theorem execFaultRaised_fr (src : Fin 128) (q aux : Fin 256) (s : State) : ∃ t, execFaultRaised src q aux s = .next t ∧ Fr 17567770618 28421910042690324559437205422914278456802035423969804544 s t := by
  refine ⟨_, rfl, ?_⟩
  repeat' first
    | rw [invertBit_addr (by assumption)]
    | with_reducible assumption
    | ((with_reducible apply orDec); rfl)
    | ((with_reducible apply bitDec); rfl)
    | with_reducible intro _
    | with_reducible exact Fr.refl _ _ _
    | with_reducible apply Fr.ite
    | with_reducible apply Fr.step (State.latchGrave_fr ..)
    | with_reducible apply Fr.step (State.raise_fr ..)
    | with_reducible apply Fr.step (State.mechanism_fr ..)
    | with_reducible apply Fr.when
    | with_reducible apply Fr.clearW1s
    | with_reducible apply FLT_X_INVERT.reg
    | split

theorem execSelfCheck_fr (ok : Bool) (s : State) : ∃ t, execSelfCheck ok s = .next t ∧ Fr 17567737594 28421910042690324559437205422914278456369689858666397696 s t := by
  refine ⟨_, rfl, ?_⟩
  repeat' first
    | with_reducible assumption
    | ((with_reducible apply orDec); rfl)
    | with_reducible intro _
    | with_reducible exact Fr.refl _ _ _
    | with_reducible apply Fr.ite
    | with_reducible apply Fr.step (State.raise_fr ..)
    | with_reducible apply Fr.when

end Sys2Proof.Machine
end

