-- ==== Sys2Proof/Laws/ExGlk.lean ====
section
/-!
SUPPORT. Every command of Sys2Proof/Machine/Glk.lean answers a next state, and what may have changed in it.
-/
namespace Sys2Proof.Machine

theorem execLinkTrained_fr (k : Fin 4) (lanes : Fin 4) (delay carry : Nat) (s : State) : ∃ t, execLinkTrained k lanes delay carry s = .next t ∧ Fr 1967154 3069884189213583357758322931182882353634142285463552000 s t := by
  refine ⟨_, rfl, ?_⟩
  repeat' first
    | with_reducible assumption
    | ((with_reducible apply orDec); rfl)
    | ((with_reducible apply bitDec); rfl)
    | with_reducible intro _
    | with_reducible exact Fr.refl _ _ _
    | with_reducible apply Fr.ite
    | with_reducible apply Fr.step (State.glkState_fr ..)
    | with_reducible apply Fr.step (State.lkMod_fr ..)
    | with_reducible apply Fr.step (State.carryBack_fr ..)
    | with_reducible apply Fr.step (State.linkJudge_fr ..)
    | with_reducible apply Fr.step (State.setStep_fr ..)
    | with_reducible apply Fr.step (State.sendHello_fr ..)
    | with_reducible apply Fr.step (State.linkBale_fr ..)
    | with_reducible apply Fr.p
    | with_reducible apply Fr.when
    | with_reducible apply Fr.hw
    | with_reducible apply Fr.withPred
    | with_reducible apply TML_PRED.reg
    | with_reducible apply HSH_CARRY.reg
    | with_reducible apply HSH_EVT.reg
    | with_reducible apply GLK_LINK.reg
    | with_reducible apply GLK_DELAY.reg
    | with_reducible apply GLK_EVT.reg
    | with_reducible apply GLK_HB.reg
    | ((with_reducible apply HasReg.as); simp only [GLK_DELAY.DELAY_addr, GLK_EVT.SINGLE_LANE_addr, GLK_EVT.UP_addr, GLK_HB.MISSED_addr, GLK_HB.PERIOD_addr, GLK_LINK.ISO_CAUSE_addr, GLK_LINK.LANES_addr, HSH_CARRY.DELAY_addr, HSH_CARRY.STATE_addr, HSH_EVT.CARRY_SLOW_addr, TML_PRED.HISTORY_addr])

theorem execLinkTrainingFailed_fr (k : Fin 4) (s : State) : ∃ t, execLinkTrainingFailed k s = .next t ∧ Fr 393266 3069884189213583357758322931182820962855228281286819840 s t := by
  refine ⟨_, rfl, ?_⟩
  repeat' first
    | with_reducible assumption
    | ((with_reducible apply orDec); rfl)
    | with_reducible intro _
    | with_reducible exact Fr.refl _ _ _
    | with_reducible apply Fr.ite
    | with_reducible apply Fr.step (State.maybeFlood_fr ..)
    | with_reducible apply Fr.step (State.glkState_fr ..)
    | with_reducible apply Fr.step (State.attempt_fr ..)
    | with_reducible apply Fr.step (State.lkMod_fr ..)
    | with_reducible apply Fr.when

theorem execLinkRetryTimer_fr (k : Fin 4) (s : State) : ∃ t, execLinkRetryTimer k s = .next t ∧ Fr 131122 4893107481805641041628876881598132707925130146217984 s t := by
  refine ⟨_, rfl, ?_⟩
  repeat' first
    | with_reducible assumption
    | ((with_reducible apply orDec); rfl)
    | with_reducible intro _
    | with_reducible exact Fr.refl _ _ _
    | with_reducible apply Fr.ite
    | with_reducible apply Fr.step (State.lkMod_fr ..)
    | with_reducible apply Fr.step (State.retryLinks_fr ..)
    | with_reducible apply Fr.step (State.wakeBy_fr ..)
    | with_reducible apply Fr.when

theorem execLinkIdleEntry_fr (k : Fin 4) (s : State) : ∃ t, execLinkIdleEntry k s = .next t ∧ Fr 0 2361183241434822606848 s t := by
  refine ⟨_, rfl, ?_⟩
  repeat' first
    | with_reducible assumption
    | ((with_reducible apply bitDec); rfl)
    | with_reducible intro _
    | with_reducible exact Fr.refl _ _ _
    | with_reducible apply Fr.ite
    | with_reducible apply Fr.p
    | with_reducible apply Fr.when
    | with_reducible apply GLK_LINK.reg
    | ((with_reducible apply HasReg.as); simp only [GLK_LINK.IDLE_addr])

theorem execLinkNopTimer_fr (k : Fin 4) (s : State) : ∃ t, execLinkNopTimer k s = .next t ∧ Fr 131072 2361183259027008651264 s t := by
  refine ⟨_, rfl, ?_⟩
  repeat' first
    | with_reducible assumption
    | ((with_reducible apply orDec); rfl)
    | with_reducible intro _
    | with_reducible exact Fr.refl _ _ _
    | with_reducible apply Fr.ite
    | with_reducible apply Fr.step (State.linkBale_fr ..)

theorem execLinkNopReceived_fr (h : BaleHdr) (s : State) : ∃ t, execLinkNopReceived h s = .next t ∧ Fr 131072 3069854959180814961628475917423900518310164584384692224 s t := by
  refine ⟨_, rfl, ?_⟩
  repeat' first
    | with_reducible assumption
    | ((with_reducible apply orDec); rfl)
    | with_reducible intro _
    | with_reducible exact Fr.refl _ _ _
    | with_reducible apply Fr.ite
    | with_reducible apply Fr.step (State.rxHdr_fr ..)
    | with_reducible apply Fr.when

theorem execGhelysLaneLost_fr (k : Fin 4) (upper : Bool) (s : State) : ∃ t, execGhelysLaneLost k upper s = .next t ∧ Fr 24010188542 813059626990554845960719660615620388919310538464577986560 s t := by
  refine ⟨_, rfl, ?_⟩
  repeat' first
    | with_reducible assumption
    | ((with_reducible apply orDec); rfl)
    | ((with_reducible apply bitDec); rfl)
    | with_reducible intro _
    | with_reducible exact Fr.refl _ _ _
    | with_reducible apply Fr.ite
    | with_reducible apply Fr.step (State.replayFrom_fr ..)
    | with_reducible apply Fr.step (State.learnedNew_fr ..)
    | with_reducible apply Fr.step (State.learn_fr ..)
    | with_reducible apply Fr.step (State.linkFail_fr ..)
    | with_reducible apply Fr.p
    | with_reducible apply Fr.when
    | with_reducible apply Fr.hw
    | with_reducible apply GLK_LINK.reg
    | with_reducible apply GLK_EVT.reg
    | ((with_reducible apply HasReg.as); simp only [GLK_EVT.SINGLE_LANE_addr, GLK_LINK.LANES_addr])

theorem execSingleLaneRetrain_fr (k : Fin 4) (s : State) : ∃ t, execSingleLaneRetrain k s = .next t ∧ Fr 24010188542 813059626990554845960719660615620360585111641246706704384 s t := by
  refine ⟨_, rfl, ?_⟩
  repeat' first
    | with_reducible assumption
    | ((with_reducible apply orDec); rfl)
    | with_reducible intro _
    | with_reducible exact Fr.refl _ _ _
    | with_reducible apply Fr.ite
    | with_reducible apply Fr.step (State.retrain_fr ..)
    | with_reducible apply Fr.when

theorem execSleepIdleTimeout_fr (k : Fin 4) (s : State) : ∃ t, execSleepIdleTimeout k s = .next t ∧ Fr 131072 2361183259027008651264 s t := by
  refine ⟨_, rfl, ?_⟩
  repeat' first
    | with_reducible assumption
    | ((with_reducible apply orDec); rfl)
    | with_reducible intro _
    | with_reducible exact Fr.refl _ _ _
    | with_reducible apply Fr.ite
    | with_reducible apply Fr.step (State.lkMod_fr ..)
    | with_reducible apply Fr.step (State.linkBale_fr ..)
    | with_reducible apply Fr.when

theorem execSleepReq_fr (h : BaleHdr) (s : State) : ∃ t, execSleepReq h s = .next t ∧ Fr 131122 3069884189213583357758322931182216499945433336205279232 s t := by
  refine ⟨_, rfl, ?_⟩
  repeat' first
    | with_reducible assumption
    | ((with_reducible apply orDec); rfl)
    | with_reducible intro _
    | with_reducible exact Fr.refl _ _ _
    | with_reducible apply Fr.ite
    | with_reducible apply Fr.step (State.rxLink_fr ..)
    | with_reducible apply Fr.step (State.linkSleep_fr ..)
    | with_reducible apply Fr.step (State.linkBale_fr ..)

theorem execSleepAck_fr (h : BaleHdr) (s : State) : ∃ t, execSleepAck h s = .next t ∧ Fr 131122 3069884189213583357758322931182216499945433336205279232 s t := by
  refine ⟨_, rfl, ?_⟩
  repeat' first
    | with_reducible assumption
    | ((with_reducible apply orDec); rfl)
    | with_reducible intro _
    | with_reducible exact Fr.refl _ _ _
    | with_reducible apply Fr.ite
    | with_reducible apply Fr.step (State.linkSleep_fr ..)
    | with_reducible apply Fr.step (State.rxLink_fr ..)
    | with_reducible apply Fr.step (State.ringBell_fr ..)
    | with_reducible apply Fr.when

theorem execSleepNak_fr (h : BaleHdr) (s : State) : ∃ t, execSleepNak h s = .next t ∧ Fr 131072 3069854959180814961628475917423900518310164584384692224 s t := by
  refine ⟨_, rfl, ?_⟩
  repeat' first
    | with_reducible assumption
    | ((with_reducible apply orDec); rfl)
    | with_reducible intro _
    | with_reducible exact Fr.refl _ _ _
    | with_reducible apply Fr.ite
    | with_reducible apply Fr.step (State.lkMod_fr ..)
    | with_reducible apply Fr.step (State.rxLink_fr ..)
    | with_reducible apply Fr.when

theorem execBellRing_fr (k : Fin 4) (s : State) : ∃ t, execBellRing k s = .next t ∧ Fr 131106 4893107481805641041628876881595771524683695319416832 s t := by
  refine ⟨_, rfl, ?_⟩
  repeat' first
    | with_reducible assumption
    | ((with_reducible apply orDec); rfl)
    | with_reducible intro _
    | with_reducible exact Fr.refl _ _ _
    | with_reducible apply Fr.ite
    | with_reducible apply Fr.step (State.ringBell_fr ..)
    | with_reducible apply Fr.when

theorem execBellAccepted_fr (k : Fin 4) (s : State) : ∃ t, execBellAccepted k s = .next t ∧ Fr 131106 4893107481805641041628876881690218854341088223690752 s t := by
  refine ⟨_, rfl, ?_⟩
  repeat' first
    | with_reducible assumption
    | ((with_reducible apply orDec); rfl)
    | ((with_reducible apply bitDec); rfl)
    | with_reducible intro _
    | with_reducible exact Fr.refl _ _ _
    | with_reducible apply Fr.ite
    | with_reducible apply Fr.step (State.lkMod_fr ..)
    | with_reducible apply Fr.step (State.judge_fr ..)
    | with_reducible apply Fr.when
    | with_reducible apply Fr.hw
    | with_reducible apply Fr.hwOr
    | with_reducible apply GLK_EVT.reg
    | with_reducible apply GLK_WAKE.reg
    | ((with_reducible apply HasReg.as); simp only [GLK_EVT.BELL_RX_addr, GLK_WAKE.BELL_SEEN_addr])

theorem execBellTimeout_fr (k : Fin 4) (s : State) : ∃ t, execBellTimeout k s = .next t ∧ Fr 24010188542 813059626990554845960719660615620388919310538464577986560 s t := by
  refine ⟨_, rfl, ?_⟩
  repeat' first
    | with_reducible assumption
    | ((with_reducible apply orDec); rfl)
    | ((with_reducible apply bitDec); rfl)
    | with_reducible intro _
    | with_reducible exact Fr.refl _ _ _
    | with_reducible apply Fr.ite
    | with_reducible apply Fr.step (State.ringBell_fr ..)
    | with_reducible apply Fr.step (State.linkFail_fr ..)
    | with_reducible apply Fr.when
    | with_reducible apply Fr.hw
    | with_reducible apply GLK_EVT.reg
    | ((with_reducible apply HasReg.as); simp only [GLK_EVT.BELL_FAIL_addr])

theorem execLinkResumeDone_fr (k : Fin 4) (s : State) : ∃ t, execLinkResumeDone k s = .next t ∧ Fr 131122 3069884189213583357758322931182225944678386705989894144 s t := by
  refine ⟨_, rfl, ?_⟩
  repeat' first
    | with_reducible assumption
    | ((with_reducible apply orDec); rfl)
    | with_reducible intro _
    | with_reducible exact Fr.refl _ _ _
    | with_reducible apply Fr.ite
    | with_reducible apply Fr.step (State.glkState_fr ..)
    | with_reducible apply Fr.step (State.lkMod_fr ..)
    | with_reducible apply Fr.step (State.pump_fr ..)
    | with_reducible apply Fr.step (State.replayFrom_fr ..)
    | with_reducible apply Fr.when

theorem execNakReceived_fr (h : BaleHdr) (seq : Fin 512) (s : State) : ∃ t, execNakReceived h seq s = .next t ∧ Fr 24010188542 813059626990554845960719660615620388919310538464577986560 s t := by
  refine ⟨_, rfl, ?_⟩
  repeat' first
    | with_reducible assumption
    | ((with_reducible apply orDec); rfl)
    | with_reducible intro _
    | with_reducible exact Fr.refl _ _ _
    | with_reducible apply Fr.ite
    | with_reducible apply Fr.step (State.rxLink_fr ..)
    | with_reducible apply Fr.step (State.replayDue_fr ..)
    | split
    | dsimp only

theorem execReplayTimeout_fr (k : Fin 4) (s : State) : ∃ t, execReplayTimeout k s = .next t ∧ Fr 24010188542 813059626990554845960719660615620388919310538464577986560 s t := by
  refine ⟨_, rfl, ?_⟩
  repeat' first
    | with_reducible assumption
    | ((with_reducible apply orDec); rfl)
    | with_reducible intro _
    | with_reducible exact Fr.refl _ _ _
    | with_reducible apply Fr.ite
    | with_reducible apply Fr.step (State.replayDue_fr ..)
    | with_reducible apply Fr.when

theorem execParamReceived_fr (k : Fin 4) (data : Fin 65536) (ctrl : Fin 65536) (s : State) : ∃ t, execParamReceived k data ctrl s = .next t ∧ Fr 131072 3069854959180814961628475917423900518310152214878879744 s t := by
  refine ⟨_, rfl, ?_⟩
  repeat' first
    | with_reducible assumption
    | ((with_reducible apply orDec); rfl)
    | ((with_reducible apply bitDec); rfl)
    | with_reducible intro _
    | with_reducible exact Fr.refl _ _ _
    | with_reducible apply Fr.ite
    | with_reducible apply Fr.step (State.pump_fr ..)
    | with_reducible apply Fr.step (State.lkMod_fr ..)
    | with_reducible apply Fr.p
    | with_reducible apply Fr.when
    | with_reducible apply GLK_LINK.reg
    | ((with_reducible apply HasReg.as); simp only [GLK_LINK.IDLE_addr])

theorem execProbeReceived_fr (h : BaleHdr) (s : State) : ∃ t, execProbeReceived h s = .next t ∧ Fr 131072 3069854959180814961628475917423900518310164584384692224 s t := by
  refine ⟨_, rfl, ?_⟩
  repeat' first
    | with_reducible assumption
    | ((with_reducible apply orDec); rfl)
    | with_reducible intro _
    | with_reducible exact Fr.refl _ _ _
    | with_reducible apply Fr.ite
    | with_reducible apply Fr.step (State.linkBale_fr ..)
    | with_reducible apply Fr.step (State.rxLink_fr ..)
    | with_reducible apply Fr.when

theorem execLinkDelayProbe_fr (k : Fin 4) (s : State) : ∃ t, execLinkDelayProbe k s = .next t ∧ Fr 131072 2361183259027008651264 s t := by
  refine ⟨_, rfl, ?_⟩
  repeat' first
    | with_reducible assumption
    | ((with_reducible apply orDec); rfl)
    | with_reducible intro _
    | with_reducible exact Fr.refl _ _ _
    | with_reducible apply Fr.ite
    | with_reducible apply Fr.step (State.linkBale_fr ..)

theorem execProbeReplyReceived_fr (h : BaleHdr) (delay : Nat) (s : State) : ∃ t, execProbeReplyReceived h delay s = .next t ∧ Fr 131072 3069854959180814961628475917423905240676647454029905920 s t := by
  refine ⟨_, rfl, ?_⟩
  repeat' first
    | with_reducible assumption
    | ((with_reducible apply orDec); rfl)
    | ((with_reducible apply bitDec); rfl)
    | with_reducible intro _
    | with_reducible exact Fr.refl _ _ _
    | with_reducible apply Fr.ite
    | with_reducible apply Fr.step (State.rxLink_fr ..)
    | with_reducible apply Fr.p
    | with_reducible apply Fr.when
    | with_reducible apply GLK_DELAY.reg
    | ((with_reducible apply HasReg.as); simp only [GLK_DELAY.DELAY_addr])

theorem execHeartbeatReceived_fr (h : BaleHdr) (period : Fin 16777216) (s : State) : ∃ t, execHeartbeatReceived h period s = .next t ∧ Fr 131072 3069854959180814961628475917423938297242027541546401792 s t := by
  refine ⟨_, rfl, ?_⟩
  repeat' first
    | with_reducible assumption
    | ((with_reducible apply orDec); rfl)
    | ((with_reducible apply bitDec); rfl)
    | with_reducible intro _
    | with_reducible exact Fr.refl _ _ _
    | with_reducible apply Fr.ite
    | with_reducible apply Fr.step (State.rxLink_fr ..)
    | with_reducible apply Fr.p
    | with_reducible apply Fr.when
    | with_reducible apply GLK_HB.reg
    | ((with_reducible apply HasReg.as); simp only [GLK_HB.MISSED_addr, GLK_HB.PERIOD_addr])

theorem execHeartbeatMiss_fr (k : Fin 4) (s : State) : ∃ t, execHeartbeatMiss k s = .next t ∧ Fr 24010188542 813059626990554845960719660615620426698242401421739696128 s t := by
  refine ⟨_, rfl, ?_⟩
  repeat' first
    | with_reducible assumption
    | ((with_reducible apply orDec); rfl)
    | ((with_reducible apply bitDec); rfl)
    | with_reducible intro _
    | with_reducible exact Fr.refl _ _ _
    | with_reducible apply Fr.ite
    | with_reducible apply Fr.step (State.settleLost_fr ..)
    | with_reducible apply Fr.step (State.raise_fr ..)
    | with_reducible apply Fr.step (State.linkFail_fr ..)
    | with_reducible apply Fr.p
    | with_reducible apply Fr.hw
    | with_reducible apply GLK_EVT.reg
    | with_reducible apply GLK_HB.reg
    | ((with_reducible apply HasReg.as); simp only [GLK_EVT.HB_MISS_addr, GLK_HB.MISSED_addr])

theorem execLinkDownReceived_fr (k : Fin 4) (s : State) : ∃ t, execLinkDownReceived k s = .next t ∧ Fr 24010188542 813059626990554845960719660615620388919310538464577986560 s t := by
  refine ⟨_, rfl, ?_⟩
  repeat' first
    | with_reducible assumption
    | ((with_reducible apply orDec); rfl)
    | with_reducible intro _
    | with_reducible exact Fr.refl _ _ _
    | with_reducible apply Fr.ite
    | with_reducible apply Fr.step (State.linkFail_fr ..)
    | with_reducible apply Fr.when

theorem execNoBaleTimeout_fr (k : Fin 4) (s : State) : ∃ t, execNoBaleTimeout k s = .next t ∧ Fr 24010188542 813059626990554845960719660615620388919310538464577986560 s t := by
  refine ⟨_, rfl, ?_⟩
  repeat' first
    | with_reducible assumption
    | ((with_reducible apply orDec); rfl)
    | with_reducible intro _
    | with_reducible exact Fr.refl _ _ _
    | with_reducible apply Fr.ite
    | with_reducible apply Fr.step (State.linkFail_fr ..)
    | with_reducible apply Fr.when

theorem execBlockLockLoss_fr (k : Fin 4) (s : State) : ∃ t, execBlockLockLoss k s = .next t ∧ Fr 24010188542 813059626990554845960719660615620388919310538464577986560 s t := by
  refine ⟨_, rfl, ?_⟩
  repeat' first
    | with_reducible assumption
    | ((with_reducible apply orDec); rfl)
    | with_reducible intro _
    | with_reducible exact Fr.refl _ _ _
    | with_reducible apply Fr.ite
    | with_reducible apply Fr.step (State.linkFail_fr ..)
    | with_reducible apply Fr.when

theorem execIsolatedHelloTimer_fr (k : Fin 4) (s : State) : ∃ t, execIsolatedHelloTimer k s = .next t ∧ Fr 131072 2361183259027008651264 s t := by
  refine ⟨_, rfl, ?_⟩
  repeat' first
    | with_reducible assumption
    | ((with_reducible apply orDec); rfl)
    | with_reducible intro _
    | with_reducible exact Fr.refl _ _ _
    | with_reducible apply Fr.ite
    | with_reducible apply Fr.step (State.sendHello_fr ..)
    | with_reducible apply Fr.when

end Sys2Proof.Machine
end

