-- ==== Sys2Proof/Laws/ExHostReset.lean ====
section
/-!
SUPPORT. Every command of Sys2Proof/Machine/HostReset.lean answers a next state, and what may have changed in it.
-/
namespace Sys2Proof.Machine

theorem execBusReset_fr (u : Fin 2) (high : Bool) (s : State) : ∃ t, execBusReset u high s = .next t ∧ Fr 59450062846 200867255532373784442745261542645325315275374222849104412671 s t := by
  refine ⟨_, rfl, ?_⟩
  repeat' first
    | with_reducible assumption
    | with_reducible exact HasReg.all
    | ((with_reducible apply orDec); rfl)
    | with_reducible intro _
    | with_reducible exact Fr.refl _ _ _
    | with_reducible apply Fr.ite
    | with_reducible apply State.onWake_fr
    | with_reducible apply Fr.step (State.busReset_fr ..)
    | with_reducible apply Fr.when

end Sys2Proof.Machine
end

