-- ==== Sys2Proof/Laws/ExMailbox.lean ====
section
/-!
SUPPORT. Every command of Sys2Proof/Machine/Mailbox.lean answers a next state, and what may have changed in it.
-/
namespace Sys2Proof.Machine

theorem execOutboundTimeout_fr (c : Fin 12) (s : State) : ∃ t, execOutboundTimeout c s = .next t ∧ Fr 268435490 4893107562645842386302385769662750263034005778595840 s t := by
  refine ⟨_, rfl, ?_⟩
  repeat' first
    | with_reducible assumption
    | ((with_reducible apply orDec); rfl)
    | ((with_reducible apply bitDec); rfl)
    | with_reducible intro _
    | with_reducible exact Fr.refl _ _ _
    | with_reducible apply Fr.ite
    | with_reducible apply Fr.step (State.mbMod_fr ..)
    | with_reducible apply Fr.step (State.ring_fr ..)
    | with_reducible apply Fr.step (State.withdraw_fr ..)
    | with_reducible apply Fr.when
    | with_reducible apply Fr.hw
    | with_reducible apply MBX_STATUS.reg
    | ((with_reducible apply HasReg.as); simp only [MBX_STATUS.OUT_TIMEOUT_addr])

theorem execInboundPoll_fr (s : State) : ∃ t, execInboundPoll s = .next t ∧ Fr 268435456 0 s t := by
  refine ⟨_, rfl, ?_⟩
  repeat' first
    | with_reducible assumption
    | ((with_reducible apply orDec); rfl)
    | with_reducible intro _
    | with_reducible exact Fr.refl _ _ _
    | with_reducible apply Fr.ite
    | with_reducible apply Fr.step (State.scanInbound_fr ..)
    | with_reducible apply Fr.when

theorem execProxyMessageReceived_fr (c : CtrlHdr) (reply : Bool) (seq : Fin 16) (words : List (BitVec 32)) (s : State) : ∃ t, execProxyMessageReceived c reply seq words s = .next t ∧ Fr 18641479418 28421910042719594287510276865787553531335541756805513216 s t := by
  refine ⟨_, rfl, ?_⟩
  repeat' first
    | with_reducible assumption
    | ((with_reducible apply orDec); rfl)
    | ((with_reducible apply bitDec); rfl)
    | with_reducible intro _
    | with_reducible exact Fr.refl _ _ _
    | with_reducible apply Fr.ite
    | with_reducible apply State.rxCtrl_fr
    | with_reducible apply Fr.step (State.placeProxy_fr ..)
    | with_reducible apply Fr.withProxyHeld

theorem execProxyTake_fr (stored : Bool) (s : State) : ∃ t, execProxyTake stored s = .next t ∧ Fr 268828706 3069884189294423559102996440070283478683771277154451456 s t := by
  refine ⟨_, rfl, ?_⟩
  repeat' first
    | with_reducible assumption
    | ((with_reducible apply orDec); rfl)
    | with_reducible intro _
    | with_reducible exact Fr.refl _ _ _
    | with_reducible apply Fr.ite
    | with_reducible apply Fr.step (State.ctrlTo_fr ..)
    | with_reducible apply Fr.step (State.outFree_fr ..)
    | with_reducible apply Fr.when

end Sys2Proof.Machine
end

