-- ==== Sys2Proof/Laws/ExManage.lean ====
section
/-!
SUPPORT. Every command of Sys2Proof/Machine/Manage.lean answers a next state, and what may have changed in it.
-/
namespace Sys2Proof.Machine

theorem execDumpWrite_fr (soon : Bool) (trace : List (BitVec 8)) (s : State) : ∃ t, execDumpWrite soon trace s = .next t ∧ Fr 16777216 23945242826029513411849172299223580994042798784118784 s t := by
  refine ⟨_, rfl, ?_⟩
  repeat' first
    | with_reducible exact fldNil
    | with_reducible apply fldCons
    | with_reducible assumption
    | ((with_reducible apply orDec); rfl)
    | ((with_reducible apply bitDec); rfl)
    | with_reducible intro _
    | with_reducible exact Fr.refl _ _ _
    | with_reducible apply Fr.ite
    | with_reducible apply Fr.step (State.fileDump_fr ..)
    | with_reducible apply Fr.step (State.fltMod_fr ..)
    | with_reducible apply State.fields_fr
    | with_reducible apply Fr.when
    | with_reducible apply Fr.hw
    | with_reducible apply FLT_DUMP.reg
    | ((with_reducible apply HasReg.as); simp only [FLT_DUMP.ABANDONED_addr, FLT_DUMP.FLASH_addr, FLT_DUMP.RAM_addr])
    | split

theorem execDumpFlashDone_fr (s : State) : ∃ t, execDumpFlashDone s = .next t ∧ Fr 16777216 23945242826029513411849172299223580994042798784118784 s t := by
  refine ⟨_, rfl, ?_⟩
  repeat' first
    | with_reducible exact fldNil
    | with_reducible apply fldCons
    | with_reducible assumption
    | ((with_reducible apply orDec); rfl)
    | ((with_reducible apply bitDec); rfl)
    | with_reducible intro _
    | with_reducible exact Fr.refl _ _ _
    | with_reducible apply Fr.ite
    | with_reducible apply Fr.step (State.fltMod_fr ..)
    | with_reducible apply State.fields_fr
    | with_reducible apply Fr.when
    | with_reducible apply FLT_DUMP.reg
    | ((with_reducible apply HasReg.as); simp only [FLT_DUMP.FLASH_addr, FLT_DUMP.LAST_ENTRY_addr, FLT_DUMP.RAM_addr, FLT_DUMP.SEQ_addr])
    | split

theorem execWatchdogExpire_fr (third : Bool) (s : State) : ∃ t, execWatchdogExpire third s = .next t ∧ Fr 17567737594 28421910042690324559437205422914278456369689858666397696 s t := by
  refine ⟨_, rfl, ?_⟩
  repeat' first
    | with_reducible assumption
    | ((with_reducible apply orDec); rfl)
    | with_reducible intro _
    | with_reducible exact Fr.refl _ _ _
    | with_reducible apply Fr.ite
    | with_reducible apply Fr.step (State.restart_fr ..)

theorem execMgtException_fr (pc : BitVec 32) (third : Bool) (s : State) : ∃ t, execMgtException pc third s = .next t ∧ Fr 17567737594 28421910042690324559437205422914278456369689858666397696 s t := by
  refine ⟨_, rfl, ?_⟩
  repeat' first
    | with_reducible assumption
    | ((with_reducible apply orDec); rfl)
    | with_reducible intro _
    | with_reducible exact Fr.refl _ _ _
    | with_reducible apply Fr.ite
    | with_reducible apply Fr.step (State.restart_fr ..)
    | with_reducible apply Fr.step (State.fltMod_fr ..)
    | with_reducible apply Fr.when

theorem execManagementRestartDone_fr (handed : Bool) (s : State) : ∃ t, execManagementRestartDone handed s = .next t ∧ Fr 6727667746 784642610055346327042324084069582841901840271387308064801 s t := by
  refine ⟨_, rfl, ?_⟩
  repeat' first
    | with_reducible assumption
    | ((with_reducible apply orDec); rfl)
    | ((with_reducible apply bitDec); rfl)
    | with_reducible intro _
    | with_reducible exact Fr.refl _ _ _
    | with_reducible apply Fr.ite
    | with_reducible apply Fr.step (State.fltMod_fr ..)
    | with_reducible apply Fr.step (State.dropOwn_fr ..)
    | with_reducible apply Fr.step (State.busyHeld_fr ..)
    | with_reducible apply Fr.step (State.laterDone_fr ..)
    | with_reducible apply Fr.step (State.plnMod_fr ..)
    | with_reducible apply Fr.step (State.discardUpload_fr ..)
    | with_reducible apply Fr.p
    | with_reducible apply Fr.when
    | with_reducible apply Fr.each
    | with_reducible apply Fr.withMsg
    | with_reducible apply Fr.foldl
    | with_reducible apply Fr.foldlSnd
    | with_reducible apply PLN_SLOT_SEQ.reg
    | ((with_reducible apply HasReg.as); simp only [PLN_SLOT_SEQ.SEQ_addr])

end Sys2Proof.Machine
end

