-- ==== Sys2Proof/Laws/ExObserve.lean ====
section
/-!
SUPPORT. Every command of Sys2Proof/Machine/Observe.lean answers a next state, and what may have changed in it.
-/
namespace Sys2Proof.Machine

theorem execQueueRecordWrite_fr (q : Fin 4) (flying : Bool) (s : State) : ∃ t, execQueueRecordWrite q flying s = .next t ∧ Fr 2 4893107481783862970145936819934115549808062153883648 s t := by
  refine ⟨_, rfl, ?_⟩
  repeat' first
    | with_reducible assumption
    | ((with_reducible apply orDec); rfl)
    | with_reducible intro _
    | with_reducible exact Fr.refl _ _ _
    | with_reducible apply Fr.ite
    | with_reducible apply Fr.step (State.finishRecord_fr ..)

theorem execQueueReadStallTimeout_fr (q : Fin 4) (s : State) : ∃ t, execQueueReadStallTimeout q s = .next t ∧ Fr 2 0 s t := by
  refine ⟨_, rfl, ?_⟩
  repeat' first
    | with_reducible assumption
    | ((with_reducible apply orDec); rfl)
    | with_reducible intro _
    | with_reducible exact Fr.refl _ _ _
    | with_reducible apply Fr.ite
    | with_reducible apply Fr.step (State.queueStallEnd_fr ..)

end Sys2Proof.Machine
end

