-- ==== Sys2Proof/Laws/ExPaddock.lean ====
section
/-!
SUPPORT. Every command of Sys2Proof/Machine/Paddock.lean answers a next state, and what may have changed in it.
-/
namespace Sys2Proof.Machine

theorem execMirrorRecord_fr (c : CtrlHdr) (slot : Fin 4) (hub port : Fin 16) (seq hs hsChg ss ssChg u1 u2 : Nat) (s : State) : ∃ t, execMirrorRecord c slot hub port seq hs hsChg ss ssChg u1 u2 s = .next t ∧ Fr 17567737594 28421910042690324559437205422914288196250595961681739776 s t := by
  refine ⟨_, rfl, ?_⟩
  repeat' first
    | with_reducible assumption
    | ((with_reducible apply orDec); rfl)
    | ((with_reducible apply bitDec); rfl)
    | with_reducible intro _
    | with_reducible exact Fr.refl _ _ _
    | with_reducible apply Fr.ite
    | with_reducible apply State.rxCtrl_fr
    | with_reducible apply Fr.step (State.mirMod_fr ..)
    | with_reducible apply Fr.step (State.mirWoke_fr ..)
    | with_reducible apply Fr.step (State.ctrlTo_fr ..)
    | with_reducible apply Fr.step (State.raise_fr ..)
    | with_reducible apply Fr.hw
    | with_reducible apply UPP_EVT.reg
    | ((with_reducible apply HasReg.as); simp only [UPP_EVT.MIRROR_RESYNC_addr])
    | split

theorem execMirrorSnapshot_fr (e : SnapEvent) (s : State) : ∃ t, execMirrorSnapshot e s = .next t ∧ Fr 17567737594 28421910042690324559437205422914287901102690782328913920 s t := by
  refine ⟨_, rfl, ?_⟩
  repeat' first
    | with_reducible assumption
    | ((with_reducible apply orDec); rfl)
    | with_reducible intro _
    | with_reducible exact Fr.refl _ _ _
    | with_reducible apply Fr.ite
    | with_reducible apply Fr.step (State.snapshot_fr ..)
    | with_reducible apply State.rxCtrl_fr
    | with_reducible apply Fr.step (State.ctrlTo_fr ..)
    | with_reducible apply Fr.step (State.mirMod_fr ..)
    | with_reducible apply Fr.step (State.mirWoke_fr ..)
    | with_reducible apply Fr.when
    | with_reducible apply Fr.each
    | with_reducible apply Fr.getD
    | split

theorem execStatusChangeIn_fr (slot : Fin 4) (hub : Fin 16) (ss : Bool) (s : State) : ∃ t, execStatusChangeIn slot hub ss s = .next t ∧ Fr 34359738368 0 s t := by
  refine ⟨_, rfl, ?_⟩
  repeat' first
    | with_reducible assumption
    | ((with_reducible apply orDec); rfl)
    | with_reducible intro _
    | with_reducible exact Fr.refl _ _ _
    | with_reducible apply Fr.ite
    | with_reducible apply Fr.step (State.hubOut_fr ..)
    | with_reducible apply Fr.when
    | with_reducible apply Fr.out

theorem execGetHubStatus_fr (slot : Fin 4) (hub : Fin 16) (s : State) : ∃ t, execGetHubStatus slot hub s = .next t ∧ Fr 34359738368 0 s t := by
  refine ⟨_, rfl, ?_⟩
  repeat' first
    | with_reducible assumption
    | ((with_reducible apply orDec); rfl)
    | with_reducible intro _
    | with_reducible exact Fr.refl _ _ _
    | with_reducible apply Fr.ite
    | with_reducible apply Fr.step (State.hubData_fr ..)
    | with_reducible apply Fr.when

theorem execGetPortStatus_fr (slot : Fin 4) (hub port : Fin 16) (ss : Bool) (s : State) : ∃ t, execGetPortStatus slot hub port ss s = .next t ∧ Fr 34359738368 0 s t := by
  refine ⟨_, rfl, ?_⟩
  repeat' first
    | with_reducible assumption
    | ((with_reducible apply orDec); rfl)
    | with_reducible intro _
    | with_reducible exact Fr.refl _ _ _
    | with_reducible apply Fr.ite
    | with_reducible apply State.portReq_fr
    | with_reducible apply Fr.step (State.hubData_fr ..)

theorem execGetPortStatusExt_fr (slot : Fin 4) (hub port : Fin 16) (s : State) : ∃ t, execGetPortStatusExt slot hub port s = .next t ∧ Fr 51933865722 28421910042690324601972704151746540310733773611150082048 s t := by
  refine ⟨_, rfl, ?_⟩
  repeat' first
    | with_reducible assumption
    | ((with_reducible apply orDec); rfl)
    | with_reducible intro _
    | with_reducible exact Fr.refl _ _ _
    | with_reducible apply Fr.ite
    | with_reducible apply State.portReq_fr
    | with_reducible apply Fr.step (State.askHolder_fr ..)
    | with_reducible apply Fr.step (State.hubData_fr ..)

theorem execGetPortErrorCount_fr (slot : Fin 4) (hub port : Fin 16) (s : State) : ∃ t, execGetPortErrorCount slot hub port s = .next t ∧ Fr 51933865722 28421910042690324601972704151746540310733773611150082048 s t := by
  refine ⟨_, rfl, ?_⟩
  repeat' first
    | with_reducible assumption
    | ((with_reducible apply orDec); rfl)
    | with_reducible intro _
    | with_reducible exact Fr.refl _ _ _
    | with_reducible apply Fr.ite
    | with_reducible apply State.portReq_fr
    | with_reducible apply Fr.step (State.askHolder_fr ..)
    | with_reducible apply Fr.step (State.hubData_fr ..)

theorem execHubRequestResult_fr (src : Option CtrlHdr) (slot : Fin 4) (hub port : Fin 16) (words : List Nat) (s : State) : ∃ t, execHubRequestResult src slot hub port words s = .next t ∧ Fr 51929573114 28421910042690324559437205422914287901102690782328913920 s t := by
  refine ⟨_, rfl, ?_⟩
  repeat' first
    | with_reducible assumption
    | ((with_reducible apply orDec); rfl)
    | with_reducible intro _
    | with_reducible exact Fr.refl _ _ _
    | with_reducible apply Fr.ite
    | with_reducible apply Fr.step (State.finishWait_fr ..)
    | with_reducible apply State.rxCtrl_fr
    | split
    | dsimp only

theorem execGetHubDescriptor_fr (slot : Fin 4) (hub : Fin 16) (ss : Bool) (d : DescReq) (s : State) : ∃ t, execGetHubDescriptor slot hub ss d s = .next t ∧ Fr 34359738368 0 s t := by
  refine ⟨_, rfl, ?_⟩
  repeat' first
    | with_reducible assumption
    | ((with_reducible apply orDec); rfl)
    | with_reducible intro _
    | with_reducible exact Fr.refl _ _ _
    | with_reducible apply Fr.ite
    | with_reducible apply Fr.step (State.hubData_fr ..)
    | with_reducible apply Fr.when
    | with_reducible apply Fr.out
    | split
    | dsimp only

theorem execClearHubFeature_fr (slot : Fin 4) (hub : Fin 16) (_oc : Bool) (s : State) : ∃ t, execClearHubFeature slot hub _oc s = .next t ∧ Fr 0 0 s t := by
  refine ⟨_, rfl, ?_⟩
  repeat' first
    | with_reducible assumption
    | with_reducible intro _
    | with_reducible exact Fr.refl _ _ _
    | with_reducible apply Fr.ite
    | with_reducible apply Fr.when
    | with_reducible apply Fr.out

theorem execUnsupportedHubRequest_fr (slot : Fin 4) (hub : Fin 16) (s : State) : ∃ t, execUnsupportedHubRequest slot hub s = .next t ∧ Fr 0 0 s t := by
  refine ⟨_, rfl, ?_⟩
  repeat' first
    | with_reducible assumption
    | with_reducible intro _
    | with_reducible exact Fr.refl _ _ _
    | with_reducible apply Fr.ite
    | with_reducible apply Fr.when
    | with_reducible apply Fr.out

theorem execSetPortReset_fr (slot : Fin 4) (hub port : Fin 16) (s : State) : ∃ t, execSetPortReset slot hub port s = .next t ∧ Fr 51933865722 28421910042690324601972704151746540310733773611150082048 s t := by
  refine ⟨_, rfl, ?_⟩
  repeat' first
    | with_reducible assumption
    | ((with_reducible apply orDec); rfl)
    | with_reducible intro _
    | with_reducible exact Fr.refl _ _ _
    | with_reducible apply Fr.ite
    | with_reducible apply State.portReq_fr
    | with_reducible apply Fr.step (State.actOn_fr ..)
    | with_reducible apply Fr.step (State.mirOwn_fr ..)
    | with_reducible apply Fr.step (State.penBus_fr ..)
    | with_reducible apply Fr.step (State.resetPen_fr ..)
    | with_reducible apply Fr.step (State.tackState_fr ..)
    | with_reducible apply Fr.when
    | with_reducible apply Fr.out
    | split

theorem execSetPortSuspend_fr (slot : Fin 4) (hub port : Fin 16) (s : State) : ∃ t, execSetPortSuspend slot hub port s = .next t ∧ Fr 51933865722 28421910042690324601972704151746540310733773611150082048 s t := by
  refine ⟨_, rfl, ?_⟩
  repeat' first
    | with_reducible assumption
    | ((with_reducible apply orDec); rfl)
    | with_reducible intro _
    | with_reducible exact Fr.refl _ _ _
    | with_reducible apply Fr.ite
    | with_reducible apply State.portReq_fr
    | with_reducible apply Fr.step (State.mirOwn_fr ..)
    | with_reducible apply Fr.step (State.actOn_fr ..)
    | with_reducible apply Fr.step (State.penAct_fr ..)
    | with_reducible apply Fr.step (State.tackState_fr ..)
    | with_reducible apply Fr.when
    | with_reducible apply Fr.out
    | split

theorem execClearPortSuspend_fr (slot : Fin 4) (hub port : Fin 16) (s : State) : ∃ t, execClearPortSuspend slot hub port s = .next t ∧ Fr 51933865722 28421910042690324601972704151746540310733773611150082048 s t := by
  refine ⟨_, rfl, ?_⟩
  repeat' first
    | with_reducible assumption
    | ((with_reducible apply orDec); rfl)
    | with_reducible intro _
    | with_reducible exact Fr.refl _ _ _
    | with_reducible apply Fr.ite
    | with_reducible apply State.portReq_fr
    | with_reducible apply Fr.step (State.mirOwn_fr ..)
    | with_reducible apply Fr.step (State.actOn_fr ..)
    | with_reducible apply Fr.step (State.penAct_fr ..)
    | with_reducible apply Fr.step (State.penBus_fr ..)
    | with_reducible apply Fr.step (State.tackState_fr ..)
    | with_reducible apply Fr.when
    | with_reducible apply Fr.out
    | split

theorem execSetPortPower_fr (slot : Fin 4) (hub port : Fin 16) (ss : Bool) (s : State) : ∃ t, execSetPortPower slot hub port ss s = .next t ∧ Fr 51933865722 28421910042690324601972704151746540310733773611150082048 s t := by
  refine ⟨_, rfl, ?_⟩
  repeat' first
    | with_reducible assumption
    | ((with_reducible apply orDec); rfl)
    | with_reducible intro _
    | with_reducible exact Fr.refl _ _ _
    | with_reducible apply Fr.ite
    | with_reducible apply State.portReq_fr
    | with_reducible apply Fr.step (State.powerReq_fr ..)

theorem execClearPortPower_fr (slot : Fin 4) (hub port : Fin 16) (ss : Bool) (s : State) : ∃ t, execClearPortPower slot hub port ss s = .next t ∧ Fr 51933865722 28421910042690324601972704151746540310733773611150082048 s t := by
  refine ⟨_, rfl, ?_⟩
  repeat' first
    | with_reducible assumption
    | ((with_reducible apply orDec); rfl)
    | with_reducible intro _
    | with_reducible exact Fr.refl _ _ _
    | with_reducible apply Fr.ite
    | with_reducible apply State.portReq_fr
    | with_reducible apply Fr.step (State.powerReq_fr ..)

theorem execClearPortEnable_fr (slot : Fin 4) (hub port : Fin 16) (s : State) : ∃ t, execClearPortEnable slot hub port s = .next t ∧ Fr 51933865722 28421910042690324601972704151746540310733773611150082048 s t := by
  refine ⟨_, rfl, ?_⟩
  repeat' first
    | with_reducible assumption
    | ((with_reducible apply orDec); rfl)
    | with_reducible intro _
    | with_reducible exact Fr.refl _ _ _
    | with_reducible apply Fr.ite
    | with_reducible apply State.portReq_fr
    | with_reducible apply Fr.step (State.actOn_fr ..)
    | with_reducible apply Fr.step (State.tackState_fr ..)
    | with_reducible apply Fr.step (State.mirOwn_fr ..)
    | with_reducible apply Fr.when
    | with_reducible apply Fr.out

theorem execSetPortTest_fr (slot : Fin 4) (hub port : Fin 16) (mode : Fin 8) (s : State) : ∃ t, execSetPortTest slot hub port mode s = .next t ∧ Fr 51933865722 28421910042690324601972704151746540310733773611150082048 s t := by
  refine ⟨_, rfl, ?_⟩
  repeat' first
    | with_reducible assumption
    | ((with_reducible apply orDec); rfl)
    | with_reducible intro _
    | with_reducible exact Fr.refl _ _ _
    | with_reducible apply Fr.ite
    | with_reducible apply State.portReq_fr
    | with_reducible apply Fr.step (State.actOn_fr ..)
    | with_reducible apply Fr.out

theorem execPortIndicator_fr (slot : Fin 4) (hub port : Fin 16) (on : Bool) (s : State) : ∃ t, execPortIndicator slot hub port on s = .next t ∧ Fr 51933865722 28421910042690324601972704151746540310733773611150082048 s t := by
  refine ⟨_, rfl, ?_⟩
  repeat' first
    | with_reducible assumption
    | ((with_reducible apply orDec); rfl)
    | with_reducible intro _
    | with_reducible exact Fr.refl _ _ _
    | with_reducible apply Fr.ite
    | with_reducible apply State.portReq_fr
    | with_reducible apply Fr.step (State.actOn_fr ..)
    | with_reducible apply Fr.out

theorem execClearPortChange_fr (slot : Fin 4) (hub port : Fin 16) (ss : Bool) (bit : Fin 8) (s : State) : ∃ t, execClearPortChange slot hub port ss bit s = .next t ∧ Fr 51933865722 28421910042690324601972704151746540310733773611150082048 s t := by
  refine ⟨_, rfl, ?_⟩
  repeat' first
    | with_reducible assumption
    | ((with_reducible apply orDec); rfl)
    | with_reducible intro _
    | with_reducible exact Fr.refl _ _ _
    | with_reducible apply Fr.ite
    | with_reducible apply State.portReq_fr
    | with_reducible apply Fr.step (State.mirOwn_fr ..)
    | with_reducible apply Fr.step (State.actOn_fr ..)
    | with_reducible apply Fr.out

theorem execClearTtBuffer_fr (slot : Fin 4) (hub port : Fin 16) (dev : Fin 128) (ep : Fin 16) (bulk dirIn : Bool) (s : State) : ∃ t, execClearTtBuffer slot hub port dev ep bulk dirIn s = .next t ∧ Fr 51933865722 28421910042690324601972704151746540310733773611150082048 s t := by
  refine ⟨_, rfl, ?_⟩
  repeat' first
    | with_reducible assumption
    | ((with_reducible apply orDec); rfl)
    | with_reducible intro _
    | with_reducible exact Fr.refl _ _ _
    | with_reducible apply Fr.ite
    | with_reducible apply State.portReq_fr
    | with_reducible apply Fr.step (State.askHolder_fr ..)
    | with_reducible apply Fr.out

theorem execResetTt_fr (slot : Fin 4) (hub port : Fin 16) (s : State) : ∃ t, execResetTt slot hub port s = .next t ∧ Fr 51933865722 28421910042690324601972704151746540310733773611150082048 s t := by
  refine ⟨_, rfl, ?_⟩
  repeat' first
    | with_reducible assumption
    | ((with_reducible apply orDec); rfl)
    | with_reducible intro _
    | with_reducible exact Fr.refl _ _ _
    | with_reducible apply Fr.ite
    | with_reducible apply State.portReq_fr
    | with_reducible apply Fr.step (State.askHolder_fr ..)
    | with_reducible apply Fr.out

theorem execStopTt_fr (slot : Fin 4) (hub port : Fin 16) (s : State) : ∃ t, execStopTt slot hub port s = .next t ∧ Fr 51933865722 28421910042690324601972704151746540310733773611150082048 s t := by
  refine ⟨_, rfl, ?_⟩
  repeat' first
    | with_reducible assumption
    | ((with_reducible apply orDec); rfl)
    | with_reducible intro _
    | with_reducible exact Fr.refl _ _ _
    | with_reducible apply Fr.ite
    | with_reducible apply State.portReq_fr
    | with_reducible apply Fr.step (State.askHolder_fr ..)
    | with_reducible apply Fr.out

theorem execSetAndTestPortL1_fr (slot : Fin 4) (hub port : Fin 16) (besl : Fin 16) (rwe : Bool) (s : State) : ∃ t, execSetAndTestPortL1 slot hub port besl rwe s = .next t ∧ Fr 51933865722 28421910042690324601972704151746540310733773611150082048 s t := by
  refine ⟨_, rfl, ?_⟩
  repeat' first
    | with_reducible assumption
    | ((with_reducible apply orDec); rfl)
    | with_reducible intro _
    | with_reducible exact Fr.refl _ _ _
    | with_reducible apply Fr.ite
    | with_reducible apply State.portReq_fr
    | with_reducible apply Fr.step (State.askHolder_fr ..)
    | with_reducible apply Fr.out

theorem execClearPortL1_fr (slot : Fin 4) (hub port : Fin 16) (s : State) : ∃ t, execClearPortL1 slot hub port s = .next t ∧ Fr 51933865722 28421910042690324601972704151746540310733773611150082048 s t := by
  refine ⟨_, rfl, ?_⟩
  repeat' first
    | with_reducible assumption
    | ((with_reducible apply orDec); rfl)
    | with_reducible intro _
    | with_reducible exact Fr.refl _ _ _
    | with_reducible apply Fr.ite
    | with_reducible apply State.portReq_fr
    | with_reducible apply Fr.step (State.actOn_fr ..)
    | with_reducible apply Fr.out

theorem execSetHubDepth_fr (slot : Fin 4) (hub : Fin 16) (depth : Fin 65536) (s : State) : ∃ t, execSetHubDepth slot hub depth s = .next t ∧ Fr 394240 3069854959180814961628475917423900518310152214945988608 s t := by
  refine ⟨_, rfl, ?_⟩
  repeat' first
    | with_reducible assumption
    | ((with_reducible apply orDec); rfl)
    | ((with_reducible apply bitDec); rfl)
    | with_reducible intro _
    | with_reducible exact Fr.refl _ _ _
    | with_reducible apply Fr.ite
    | with_reducible apply Fr.step (State.hubMod_fr ..)
    | with_reducible apply State.ctxEach_fr
    | with_reducible apply Fr.step (State.tellUp_fr ..)
    | with_reducible apply Fr.p
    | with_reducible apply Fr.when
    | with_reducible apply Fr.out
    | with_reducible apply SSH_CTX.reg
    | ((with_reducible apply HasReg.as); simp only [SSH_CTX.DEPTH_SET_addr, SSH_CTX.DEPTH_addr])

theorem execSetPortU1Timeout_fr (slot : Fin 4) (hub port : Fin 16) (v : Fin 256) (s : State) : ∃ t, execSetPortU1Timeout slot hub port v s = .next t ∧ Fr 51933865722 28421910042690324601972704151746540310733773611150082048 s t := by
  refine ⟨_, rfl, ?_⟩
  repeat' first
    | with_reducible assumption
    | ((with_reducible apply orDec); rfl)
    | with_reducible intro _
    | with_reducible exact Fr.refl _ _ _
    | with_reducible apply Fr.ite
    | with_reducible apply State.portReq_fr
    | with_reducible apply Fr.step (State.actOn_fr ..)
    | with_reducible apply Fr.step (State.mirMod_fr ..)

theorem execSetPortU2Timeout_fr (slot : Fin 4) (hub port : Fin 16) (v : Fin 256) (s : State) : ∃ t, execSetPortU2Timeout slot hub port v s = .next t ∧ Fr 51933865722 28421910042690324601972704151746540310733773611150082048 s t := by
  refine ⟨_, rfl, ?_⟩
  repeat' first
    | with_reducible assumption
    | ((with_reducible apply orDec); rfl)
    | with_reducible intro _
    | with_reducible exact Fr.refl _ _ _
    | with_reducible apply Fr.ite
    | with_reducible apply State.portReq_fr
    | with_reducible apply Fr.step (State.actOn_fr ..)
    | with_reducible apply Fr.step (State.mirMod_fr ..)

theorem execSetPortLinkState_fr (slot : Fin 4) (hub port : Fin 16) (v : Fin 16) (s : State) : ∃ t, execSetPortLinkState slot hub port v s = .next t ∧ Fr 51933865722 28421910042690324601972704151746540310733773611150082048 s t := by
  refine ⟨_, rfl, ?_⟩
  repeat' first
    | with_reducible assumption
    | ((with_reducible apply orDec); rfl)
    | with_reducible intro _
    | with_reducible exact Fr.refl _ _ _
    | with_reducible apply Fr.ite
    | with_reducible apply State.portReq_fr
    | with_reducible apply Fr.step (State.mirOwn_fr ..)
    | with_reducible apply Fr.step (State.penAct_fr ..)
    | with_reducible apply Fr.step (State.penBus_fr ..)
    | with_reducible apply Fr.step (State.actOn_fr ..)
    | with_reducible apply Fr.when
    | with_reducible apply Fr.out

theorem execSetPortRemoteWakeMask_fr (slot : Fin 4) (hub port : Fin 16) (mask : Fin 256) (s : State) : ∃ t, execSetPortRemoteWakeMask slot hub port mask s = .next t ∧ Fr 51933865722 28421910042690324601972704151746540310733773611150082048 s t := by
  refine ⟨_, rfl, ?_⟩
  repeat' first
    | with_reducible assumption
    | ((with_reducible apply orDec); rfl)
    | with_reducible intro _
    | with_reducible exact Fr.refl _ _ _
    | with_reducible apply Fr.ite
    | with_reducible apply State.portReq_fr
    | with_reducible apply Fr.step (State.actOn_fr ..)

theorem execSsPortReset_fr (slot : Fin 4) (hub port : Fin 16) (s : State) : ∃ t, execSsPortReset slot hub port s = .next t ∧ Fr 51933865722 28421910042690324601972704151746540310733773611150082048 s t := by
  refine ⟨_, rfl, ?_⟩
  repeat' first
    | with_reducible assumption
    | ((with_reducible apply orDec); rfl)
    | with_reducible intro _
    | with_reducible exact Fr.refl _ _ _
    | with_reducible apply Fr.ite
    | with_reducible apply State.portReq_fr
    | with_reducible apply Fr.step (State.mirOwn_fr ..)
    | with_reducible apply Fr.step (State.penBus_fr ..)
    | with_reducible apply Fr.step (State.resetPen_fr ..)
    | with_reducible apply Fr.step (State.actOn_fr ..)
    | with_reducible apply Fr.out

theorem execBhPortReset_fr (slot : Fin 4) (hub port : Fin 16) (s : State) : ∃ t, execBhPortReset slot hub port s = .next t ∧ Fr 51933865722 28421910042690324601972704151746540310733773611150082048 s t := by
  refine ⟨_, rfl, ?_⟩
  repeat' first
    | with_reducible assumption
    | ((with_reducible apply orDec); rfl)
    | with_reducible intro _
    | with_reducible exact Fr.refl _ _ _
    | with_reducible apply Fr.ite
    | with_reducible apply State.portReq_fr
    | with_reducible apply Fr.step (State.mirOwn_fr ..)
    | with_reducible apply Fr.step (State.penBus_fr ..)
    | with_reducible apply Fr.step (State.resetPen_fr ..)
    | with_reducible apply Fr.step (State.actOn_fr ..)
    | with_reducible apply Fr.out

theorem execForceLinkpmAccept_fr (slot : Fin 4) (hub port : Fin 16) (on : Bool) (s : State) : ∃ t, execForceLinkpmAccept slot hub port on s = .next t ∧ Fr 51933865722 28421910042690324601972704151746540310733773611150082048 s t := by
  refine ⟨_, rfl, ?_⟩
  repeat' first
    | with_reducible assumption
    | ((with_reducible apply orDec); rfl)
    | with_reducible intro _
    | with_reducible exact Fr.refl _ _ _
    | with_reducible apply Fr.ite
    | with_reducible apply State.portReq_fr
    | with_reducible apply Fr.step (State.actOn_fr ..)

theorem execKvmButtonPress_fr (s : State) : ∃ t, execKvmButtonPress s = .next t ∧ Fr 17580353274 28421910042690324601972704151746540309562837708033753088 s t := by
  refine ⟨_, rfl, ?_⟩
  repeat' first
    | with_reducible assumption
    | ((with_reducible apply orDec); rfl)
    | ((with_reducible apply bitDec); rfl)
    | with_reducible intro _
    | with_reducible exact Fr.refl _ _ _
    | with_reducible apply Fr.ite
    | with_reducible apply Fr.step (State.kvmPress_fr ..)
    | with_reducible apply Fr.step (State.ctrlTo_fr ..)
    | with_reducible apply Fr.hw
    | with_reducible apply UPP_EVT.reg
    | ((with_reducible apply HasReg.as); simp only [UPP_EVT.KVM_IGNORED_addr])

theorem execOrderReceived_fr (c : CtrlHdr) (slot : Fin 4) (n : Fin 16) (stamp : Nat) (act : PortAct) (s : State) : ∃ t, execOrderReceived c slot n stamp act s = .next t ∧ Fr 51942254330 28421910042690324601972704151746549755466774534812598272 s t := by
  refine ⟨_, rfl, ?_⟩
  repeat' first
    | with_reducible assumption
    | ((with_reducible apply orDec); rfl)
    | with_reducible intro _
    | with_reducible exact Fr.refl _ _ _
    | with_reducible apply Fr.ite
    | with_reducible apply State.rxCtrl_fr
    | with_reducible apply Fr.step (State.arrive_fr ..)
    | with_reducible apply Fr.step (State.attachHere_fr ..)
    | with_reducible apply Fr.step (State.kvmPress_fr ..)
    | with_reducible apply Fr.step (State.ctrlTo_fr ..)
    | split

theorem execHandoffQuietEnd_fr (i : Fin 16) (s : State) : ∃ t, execHandoffQuietEnd i s = .next t ∧ Fr 17580353274 28421910042690324601972704151746540309562837708033753088 s t := by
  refine ⟨_, rfl, ?_⟩
  repeat' first
    | with_reducible assumption
    | ((with_reducible apply orDec); rfl)
    | with_reducible intro _
    | with_reducible exact Fr.refl _ _ _
    | with_reducible apply Fr.ite
    | with_reducible apply Fr.step (State.handStep_fr ..)
    | with_reducible apply Fr.step (State.handMod_fr ..)
    | with_reducible apply Fr.when

end Sys2Proof.Machine
end

