-- ==== Sys2Proof/Laws/ExPd.lean ====
section
/-!
SUPPORT. Every command of Sys2Proof/Machine/Pd.lean answers a next state, and what may have changed in it.
-/
namespace Sys2Proof.Machine

theorem execPdRequest_fr (n : Channel) (hdr : BitVec 16) (rdo : BitVec 32) (s : State) : ∃ t, execPdRequest n hdr rdo s = .next t ∧ Fr 16778114 4893107481784192618780174701687421064669523301367808 s t := by
  refine ⟨_, rfl, ?_⟩
  repeat' first
    | with_reducible assumption
    | ((with_reducible apply orDec); rfl)
    | with_reducible intro _
    | with_reducible exact Fr.refl _ _ _
    | with_reducible apply Fr.ite
    | with_reducible apply State.pdRx_fr
    | with_reducible apply Fr.step (State.pdNot_fr ..)
    | with_reducible apply Fr.step (State.tcMod_fr ..)
    | with_reducible apply Fr.step (State.pdSend_fr ..)
    | with_reducible apply Fr.step (State.evalReq_fr ..)

theorem execSrcTransitionEnd_fr (n : Channel) (s : State) : ∃ t, execSrcTransitionEnd n s = .next t ∧ Fr 512 9903520314283042199192993792 s t := by
  refine ⟨_, rfl, ?_⟩
  repeat' first
    | with_reducible assumption
    | ((with_reducible apply orDec); rfl)
    | with_reducible intro _
    | with_reducible exact Fr.refl _ _ _
    | with_reducible apply Fr.ite
    | with_reducible apply Fr.step (State.startSlew_fr ..)
    | with_reducible apply Fr.when

theorem execSlewDone_fr (n : Channel) (s : State) : ∃ t, execSlewDone n s = .next t ∧ Fr 512 9903520314283042199192993792 s t := by
  refine ⟨_, rfl, ?_⟩
  repeat' first
    | with_reducible assumption
    | ((with_reducible apply orDec); rfl)
    | ((with_reducible apply bitDec); rfl)
    | with_reducible intro _
    | with_reducible exact Fr.refl _ _ _
    | with_reducible apply Fr.ite
    | with_reducible apply Fr.step (State.tcMod_fr ..)
    | with_reducible apply Fr.p
    | with_reducible apply Fr.when
    | with_reducible apply TCP_VSET.reg
    | ((with_reducible apply HasReg.as); simp only [TCP_VSET.CODE_addr, TCP_VSET.SLEWING_addr])

theorem execSettleDone_fr (n : Channel) (s : State) : ∃ t, execSettleDone n s = .next t ∧ Fr 16778114 4893107481784192618780219267528835338359419669839872 s t := by
  refine ⟨_, rfl, ?_⟩
  repeat' first
    | with_reducible assumption
    | ((with_reducible apply orDec); rfl)
    | with_reducible intro _
    | with_reducible exact Fr.refl _ _ _
    | with_reducible apply Fr.ite
    | with_reducible apply Fr.step (State.makeContract_fr ..)
    | with_reducible apply Fr.step (State.pdSend_fr ..)
    | with_reducible apply Fr.step (State.setLimit_fr ..)
    | with_reducible apply Fr.step (State.tcMod_fr ..)
    | with_reducible apply Fr.step (State.evalReq_fr ..)
    | with_reducible apply Fr.when
    | split
    | dsimp only

theorem execPsRdyTimeout_fr (n : Channel) (s : State) : ∃ t, execPsRdyTimeout n s = .next t ∧ Fr 17701955322 28421910042690324601972704151741704163127924056922259456 s t := by
  refine ⟨_, rfl, ?_⟩
  repeat' first
    | with_reducible assumption
    | ((with_reducible apply orDec); rfl)
    | ((with_reducible apply bitDec); rfl)
    | with_reducible intro _
    | with_reducible exact Fr.refl _ _ _
    | with_reducible apply Fr.ite
    | with_reducible apply Fr.step (State.raise_fr ..)
    | with_reducible apply Fr.step (State.hardReset_fr ..)
    | with_reducible apply Fr.when
    | with_reducible apply Fr.hw
    | with_reducible apply TCP_EVT.reg
    | ((with_reducible apply HasReg.as); simp only [TCP_EVT.NOT_READY_addr])

theorem execDiscoverIdentityAttempt_fr (n : Channel) (answered amp5 eprOk : Bool) (maxV : Fin 4) (s : State) : ∃ t, execDiscoverIdentityAttempt n answered amp5 eprOk maxV s = .next t ∧ Fr 16777730 4893107481783862970145959102854822686653010338119680 s t := by
  refine ⟨_, rfl, ?_⟩
  repeat' first
    | with_reducible assumption
    | ((with_reducible apply orDec); rfl)
    | ((with_reducible apply bitDec); rfl)
    | with_reducible intro _
    | with_reducible exact Fr.refl _ _ _
    | with_reducible apply Fr.ite
    | with_reducible apply Fr.step (State.askVconn_fr ..)
    | with_reducible apply Fr.step (State.pdSendSop_fr ..)
    | with_reducible apply Fr.step (State.pdRecord_fr ..)
    | with_reducible apply Fr.step (State.tryCaps_fr ..)
    | with_reducible apply Fr.p
    | with_reducible apply Fr.incSat
    | with_reducible apply Fr.when
    | with_reducible apply TCP_CABLE.reg
    | ((with_reducible apply HasReg.as); simp only [TCP_CABLE.AMP5_addr, TCP_CABLE.ATTEMPTS_addr, TCP_CABLE.DISCOVERED_addr, TCP_CABLE.EPR_OK_addr, TCP_CABLE.MAX_V_addr])

theorem execSourceCapTimer_fr (n : Channel) (goodCrc : Bool) (s : State) : ∃ t, execSourceCapTimer n goodCrc s = .next t ∧ Fr 16777730 4893107481783862970145939295814194120568611952132096 s t := by
  refine ⟨_, rfl, ?_⟩
  repeat' first
    | with_reducible assumption
    | ((with_reducible apply orDec); rfl)
    | with_reducible intro _
    | with_reducible exact Fr.refl _ _ _
    | with_reducible apply Fr.ite
    | with_reducible apply Fr.step (State.tryCaps_fr ..)
    | with_reducible apply Fr.step (State.tcMod_fr ..)
    | with_reducible apply Fr.when

theorem execPing_fr (n : Channel) (hdr : BitVec 16) (s : State) : ∃ t, execPing n hdr s = .next t ∧ Fr 16777730 4893107481783862970145939295814194120568611952132096 s t := by
  refine ⟨_, rfl, ?_⟩
  repeat' first
    | with_reducible assumption
    | ((with_reducible apply orDec); rfl)
    | with_reducible intro _
    | with_reducible exact Fr.refl _ _ _
    | with_reducible apply Fr.ite
    | with_reducible apply State.pdRx_fr

theorem execGetSourceCap_fr (n : Channel) (hdr : BitVec 16) (s : State) : ∃ t, execGetSourceCap n hdr s = .next t ∧ Fr 16777730 4893107481783862970145939295814194120568611952132096 s t := by
  refine ⟨_, rfl, ?_⟩
  repeat' first
    | with_reducible assumption
    | ((with_reducible apply orDec); rfl)
    | with_reducible intro _
    | with_reducible exact Fr.refl _ _ _
    | with_reducible apply Fr.ite
    | with_reducible apply State.pdRx_fr
    | with_reducible apply Fr.step (State.offerCaps_fr ..)
    | with_reducible apply Fr.step (State.pdNot_fr ..)

theorem execGetSinkCap_fr (n : Channel) (hdr : BitVec 16) (ext : Bool) (s : State) : ∃ t, execGetSinkCap n hdr ext s = .next t ∧ Fr 16777730 4893107481783862970145939295814194120568611952132096 s t := by
  refine ⟨_, rfl, ?_⟩
  repeat' first
    | with_reducible assumption
    | ((with_reducible apply orDec); rfl)
    | with_reducible intro _
    | with_reducible exact Fr.refl _ _ _
    | with_reducible apply Fr.ite
    | with_reducible apply State.pdRx_fr
    | with_reducible apply Fr.step (State.pdSend_fr ..)
    | with_reducible apply Fr.step (State.pdNot_fr ..)
    | split

theorem execGetSourceCapExtended_fr (n : Channel) (hdr : BitVec 16) (info : Bool) (s : State) : ∃ t, execGetSourceCapExtended n hdr info s = .next t ∧ Fr 16777730 4893107481783862970145939295814194120568611952132096 s t := by
  refine ⟨_, rfl, ?_⟩
  repeat' first
    | with_reducible assumption
    | ((with_reducible apply orDec); rfl)
    | with_reducible intro _
    | with_reducible exact Fr.refl _ _ _
    | with_reducible apply Fr.ite
    | with_reducible apply State.pdRx3_fr
    | with_reducible apply Fr.step (State.pdNot_fr ..)
    | with_reducible apply Fr.step (State.pdSend_fr ..)

theorem execGetStatus_fr (n : Channel) (hdr : BitVec 16) (s : State) : ∃ t, execGetStatus n hdr s = .next t ∧ Fr 16777730 4893107481783862970145939295814194120568611952132096 s t := by
  refine ⟨_, rfl, ?_⟩
  repeat' first
    | with_reducible assumption
    | ((with_reducible apply orDec); rfl)
    | with_reducible intro _
    | with_reducible exact Fr.refl _ _ _
    | with_reducible apply Fr.ite
    | with_reducible apply State.pdRx3_fr
    | with_reducible apply Fr.step (State.pdSend_fr ..)

theorem execGetPpsStatus_fr (n : Channel) (hdr : BitVec 16) (s : State) : ∃ t, execGetPpsStatus n hdr s = .next t ∧ Fr 16777730 4893107481783862970145939295814194120568611952132096 s t := by
  refine ⟨_, rfl, ?_⟩
  repeat' first
    | with_reducible assumption
    | ((with_reducible apply orDec); rfl)
    | with_reducible intro _
    | with_reducible exact Fr.refl _ _ _
    | with_reducible apply Fr.ite
    | with_reducible apply State.pdRx3_fr
    | with_reducible apply Fr.step (State.pdSend_fr ..)
    | with_reducible apply Fr.step (State.pdNot_fr ..)

theorem execGetRevision_fr (n : Channel) (hdr : BitVec 16) (s : State) : ∃ t, execGetRevision n hdr s = .next t ∧ Fr 16777730 4893107481783862970145939295814194120568611952132096 s t := by
  refine ⟨_, rfl, ?_⟩
  repeat' first
    | with_reducible assumption
    | ((with_reducible apply orDec); rfl)
    | with_reducible intro _
    | with_reducible exact Fr.refl _ _ _
    | with_reducible apply Fr.ite
    | with_reducible apply State.pdRx3_fr
    | with_reducible apply Fr.step (State.pdSend_fr ..)

theorem execSoftReset_fr (n : Channel) (hdr : BitVec 16) (s : State) : ∃ t, execSoftReset n hdr s = .next t ∧ Fr 16777730 4893107481783862970145978909895451252737408724107264 s t := by
  refine ⟨_, rfl, ?_⟩
  repeat' first
    | with_reducible assumption
    | ((with_reducible apply orDec); rfl)
    | ((with_reducible apply bitDec); rfl)
    | with_reducible intro _
    | with_reducible exact Fr.refl _ _ _
    | with_reducible apply Fr.ite
    | with_reducible apply State.pdRx_fr
    | with_reducible apply Fr.step (State.pdSend_fr ..)
    | with_reducible apply Fr.step (State.tcSet_fr ..)
    | with_reducible apply Fr.hw
    | with_reducible apply TCP_EVT.reg
    | ((with_reducible apply HasReg.as); simp only [TCP_EVT.SOFT_RESET_addr])

theorem execUnsupportedPdMessage_fr (n : Channel) (hdr : BitVec 16) (s : State) : ∃ t, execUnsupportedPdMessage n hdr s = .next t ∧ Fr 16777730 4893107481783862970145939295814194120568611952132096 s t := by
  refine ⟨_, rfl, ?_⟩
  repeat' first
    | with_reducible assumption
    | ((with_reducible apply orDec); rfl)
    | with_reducible intro _
    | with_reducible exact Fr.refl _ _ _
    | with_reducible apply Fr.ite
    | with_reducible apply State.pdRx_fr
    | with_reducible apply Fr.step (State.pdNot_fr ..)

theorem execBist_fr (n : Channel) (hdr : BitVec 16) (carrier : Bool) (s : State) : ∃ t, execBist n hdr carrier s = .next t ∧ Fr 16777730 4893107481783862970145939295814194120568611952132096 s t := by
  refine ⟨_, rfl, ?_⟩
  repeat' first
    | with_reducible assumption
    | ((with_reducible apply orDec); rfl)
    | with_reducible intro _
    | with_reducible exact Fr.refl _ _ _
    | with_reducible apply Fr.ite
    | with_reducible apply State.pdRx_fr
    | with_reducible apply Fr.step (State.tcMod_fr ..)
    | with_reducible apply Fr.step (State.pdSend_fr ..)
    | with_reducible apply Fr.when

theorem execSourceCapabilities_fr (n : Channel) (hdr : BitVec 16) (objs : List (BitVec 32)) (epr : Bool) (s : State) : ∃ t, execSourceCapabilities n hdr objs epr s = .next t ∧ Fr 16777730 4893107481783862970145939295814194120568611952132096 s t := by
  refine ⟨_, rfl, ?_⟩
  repeat' first
    | with_reducible assumption
    | ((with_reducible apply orDec); rfl)
    | with_reducible intro _
    | with_reducible exact Fr.refl _ _ _
    | with_reducible apply Fr.ite
    | with_reducible apply State.pdRx_fr
    | with_reducible apply Fr.step (State.pdNot_fr ..)
    | with_reducible apply Fr.step (State.pdSend_fr ..)
    | with_reducible apply Fr.step (State.tcMod_fr ..)

theorem execAcceptReceived_fr (n : Channel) (hdr : BitVec 16) (ans : PdAnswer) (s : State) : ∃ t, execAcceptReceived n hdr ans s = .next t ∧ Fr 17230201346 4893107481783948040747855301073300073122339888300032 s t := by
  refine ⟨_, rfl, ?_⟩
  repeat' first
    | with_reducible assumption
    | ((with_reducible apply orDec); rfl)
    | ((with_reducible apply bitDec); rfl)
    | with_reducible intro _
    | with_reducible exact Fr.refl _ _ _
    | with_reducible apply Fr.ite
    | with_reducible apply State.pdRx_fr
    | with_reducible apply Fr.step (State.pdSend_fr ..)
    | with_reducible apply Fr.step (State.tcSet_fr ..)
    | with_reducible apply Fr.step (State.sinkContract_fr ..)
    | with_reducible apply Fr.step (State.tcMod_fr ..)
    | with_reducible apply Fr.p
    | with_reducible apply Fr.hw
    | with_reducible apply TCP_PORT.reg
    | with_reducible apply TCP_EVT.reg
    | ((with_reducible apply HasReg.as); simp only [TCP_EVT.VCONN_SWAP_addr, TCP_PORT.VCONN_ON_addr])
    | split

theorem execEprModeEnter_fr (n : Channel) (hdr : BitVec 16) (s : State) : ∃ t, execEprModeEnter n hdr s = .next t ∧ Fr 16777730 4893107481783862970145944247574351262089711548628992 s t := by
  refine ⟨_, rfl, ?_⟩
  repeat' first
    | with_reducible assumption
    | ((with_reducible apply orDec); rfl)
    | ((with_reducible apply bitDec); rfl)
    | with_reducible intro _
    | with_reducible exact Fr.refl _ _ _
    | with_reducible apply Fr.ite
    | with_reducible apply State.pdRx3_fr
    | with_reducible apply Fr.step (State.pdNot_fr ..)
    | with_reducible apply Fr.step (State.pdSend_fr ..)
    | with_reducible apply Fr.step (State.askVconn_fr ..)
    | with_reducible apply Fr.step (State.sendCaps_fr ..)
    | with_reducible apply Fr.p
    | with_reducible apply Fr.when
    | with_reducible apply TCP_CONTRACT.reg
    | ((with_reducible apply HasReg.as); simp only [TCP_CONTRACT.EPR_addr])

theorem execEprModeExit_fr (n : Channel) (hdr : BitVec 16) (s : State) : ∃ t, execEprModeExit n hdr s = .next t ∧ Fr 16777730 4893107481783862970145944247574351262089711548628992 s t := by
  refine ⟨_, rfl, ?_⟩
  repeat' first
    | with_reducible assumption
    | ((with_reducible apply orDec); rfl)
    | ((with_reducible apply bitDec); rfl)
    | with_reducible intro _
    | with_reducible exact Fr.refl _ _ _
    | with_reducible apply Fr.ite
    | with_reducible apply State.pdRx3_fr
    | with_reducible apply Fr.step (State.sendCaps_fr ..)
    | with_reducible apply Fr.p
    | with_reducible apply Fr.when
    | with_reducible apply TCP_PORT.reg
    | with_reducible apply TCP_CONTRACT.reg
    | ((with_reducible apply HasReg.as); simp only [TCP_CONTRACT.EPR_addr, TCP_PORT.CONTRACT_addr])

theorem execEprGetSourceCap_fr (n : Channel) (hdr : BitVec 16) (s : State) : ∃ t, execEprGetSourceCap n hdr s = .next t ∧ Fr 16777730 4893107481783862970145939295814194120568611952132096 s t := by
  refine ⟨_, rfl, ?_⟩
  repeat' first
    | with_reducible assumption
    | ((with_reducible apply orDec); rfl)
    | with_reducible intro _
    | with_reducible exact Fr.refl _ _ _
    | with_reducible apply Fr.ite
    | with_reducible apply State.pdRx3_fr
    | with_reducible apply Fr.step (State.sendCaps_fr ..)
    | with_reducible apply Fr.step (State.pdNot_fr ..)

theorem execEprGetSinkCap_fr (n : Channel) (hdr : BitVec 16) (s : State) : ∃ t, execEprGetSinkCap n hdr s = .next t ∧ Fr 16777730 4893107481783862970145939295814194120568611952132096 s t := by
  refine ⟨_, rfl, ?_⟩
  repeat' first
    | with_reducible assumption
    | ((with_reducible apply orDec); rfl)
    | with_reducible intro _
    | with_reducible exact Fr.refl _ _ _
    | with_reducible apply Fr.ite
    | with_reducible apply State.pdRx3_fr
    | with_reducible apply Fr.step (State.pdSend_fr ..)
    | with_reducible apply Fr.step (State.pdNot_fr ..)
    | split

theorem execEprKeepalive_fr (n : Channel) (hdr : BitVec 16) (s : State) : ∃ t, execEprKeepalive n hdr s = .next t ∧ Fr 16777730 4893107481783862970145939295814194120568611952132096 s t := by
  refine ⟨_, rfl, ?_⟩
  repeat' first
    | with_reducible assumption
    | ((with_reducible apply orDec); rfl)
    | with_reducible intro _
    | with_reducible exact Fr.refl _ _ _
    | with_reducible apply Fr.ite
    | with_reducible apply State.pdRx3_fr
    | with_reducible apply Fr.step (State.pdSend_fr ..)

theorem execPdAlert_fr (n : Channel) (hdr : BitVec 16) (ado : BitVec 32) (s : State) : ∃ t, execPdAlert n hdr ado s = .next t ∧ Fr 16777730 4893107481783862970145939295814194120568611952132096 s t := by
  refine ⟨_, rfl, ?_⟩
  repeat' first
    | with_reducible assumption
    | ((with_reducible apply orDec); rfl)
    | with_reducible intro _
    | with_reducible exact Fr.refl _ _ _
    | with_reducible apply Fr.ite
    | with_reducible apply State.pdRx3_fr
    | with_reducible apply Fr.step (State.pdSend_fr ..)

theorem execPdInfoReceived_fr (n : Channel) (hdr : BitVec 16) (data : List (BitVec 32)) (s : State) : ∃ t, execPdInfoReceived n hdr data s = .next t ∧ Fr 16777730 4893107481783862970145939295814194120568611952132096 s t := by
  refine ⟨_, rfl, ?_⟩
  repeat' first
    | with_reducible assumption
    | ((with_reducible apply orDec); rfl)
    | with_reducible intro _
    | with_reducible exact Fr.refl _ _ _
    | with_reducible apply Fr.ite
    | with_reducible apply State.pdRx_fr
    | with_reducible apply Fr.step (State.tcMod_fr ..)

theorem execPpsTimeout_fr (n : Channel) (s : State) : ∃ t, execPpsTimeout n s = .next t ∧ Fr 17701955322 28421910042690324601972704151741704163127924056922259456 s t := by
  refine ⟨_, rfl, ?_⟩
  repeat' first
    | with_reducible assumption
    | ((with_reducible apply orDec); rfl)
    | ((with_reducible apply bitDec); rfl)
    | with_reducible intro _
    | with_reducible exact Fr.refl _ _ _
    | with_reducible apply Fr.ite
    | with_reducible apply Fr.step (State.hardReset_fr ..)
    | with_reducible apply Fr.step (State.raise_fr ..)
    | with_reducible apply Fr.when
    | with_reducible apply Fr.hw
    | with_reducible apply TCP_EVT.reg
    | ((with_reducible apply HasReg.as); simp only [TCP_EVT.KA_TIMEOUT_addr])

theorem execEprKeepaliveTimeout_fr (n : Channel) (s : State) : ∃ t, execEprKeepaliveTimeout n s = .next t ∧ Fr 17701955322 28421910042690324601972704151741704163127924056922259456 s t := by
  refine ⟨_, rfl, ?_⟩
  repeat' first
    | with_reducible assumption
    | ((with_reducible apply orDec); rfl)
    | ((with_reducible apply bitDec); rfl)
    | with_reducible intro _
    | with_reducible exact Fr.refl _ _ _
    | with_reducible apply Fr.ite
    | with_reducible apply Fr.step (State.hardReset_fr ..)
    | with_reducible apply Fr.step (State.raise_fr ..)
    | with_reducible apply Fr.when
    | with_reducible apply Fr.hw
    | with_reducible apply TCP_EVT.reg
    | ((with_reducible apply HasReg.as); simp only [TCP_EVT.KA_TIMEOUT_addr])

theorem execSenderResponseTimeout_fr (n : Channel) (s : State) : ∃ t, execSenderResponseTimeout n s = .next t ∧ Fr 17701955322 28421910042690324601972704151741704163127924056922259456 s t := by
  refine ⟨_, rfl, ?_⟩
  repeat' first
    | with_reducible assumption
    | ((with_reducible apply orDec); rfl)
    | ((with_reducible apply bitDec); rfl)
    | with_reducible intro _
    | with_reducible exact Fr.refl _ _ _
    | with_reducible apply Fr.ite
    | with_reducible apply Fr.step (State.hardReset_fr ..)
    | with_reducible apply Fr.step (State.tcSet_fr ..)
    | with_reducible apply Fr.step (State.pdSend_fr ..)
    | with_reducible apply Fr.step (State.tcMod_fr ..)
    | with_reducible apply Fr.when
    | with_reducible apply Fr.hw
    | with_reducible apply TCP_EVT.reg
    | ((with_reducible apply HasReg.as); simp only [TCP_EVT.SOFT_RESET_addr])

theorem execDiscoverIdentity_fr (n : Channel) (hdr : BitVec 16) (s : State) : ∃ t, execDiscoverIdentity n hdr s = .next t ∧ Fr 16777730 4893107481783862970145939295814194120568611952132096 s t := by
  refine ⟨_, rfl, ?_⟩
  repeat' first
    | with_reducible assumption
    | ((with_reducible apply orDec); rfl)
    | with_reducible intro _
    | with_reducible exact Fr.refl _ _ _
    | with_reducible apply Fr.ite
    | with_reducible apply State.pdRx_fr
    | with_reducible apply Fr.step (State.pdSend_fr ..)

theorem execDiscoverSvids_fr (n : Channel) (hdr : BitVec 16) (s : State) : ∃ t, execDiscoverSvids n hdr s = .next t ∧ Fr 16777730 4893107481783862970146018523976708384906205496082432 s t := by
  refine ⟨_, rfl, ?_⟩
  repeat' first
    | with_reducible assumption
    | ((with_reducible apply orDec); rfl)
    | ((with_reducible apply bitDec); rfl)
    | with_reducible intro _
    | with_reducible exact Fr.refl _ _ _
    | with_reducible apply Fr.ite
    | with_reducible apply State.pdRx_fr
    | with_reducible apply State.dpAnswer_fr
    | with_reducible apply Fr.step (State.pdSend_fr ..)
    | with_reducible apply Fr.p
    | with_reducible apply Fr.when
    | with_reducible apply TCP_DP.reg
    | ((with_reducible apply HasReg.as); simp only [TCP_DP.STATE_addr])

theorem execDiscoverModes_fr (n : Channel) (hdr : BitVec 16) (s : State) : ∃ t, execDiscoverModes n hdr s = .next t ∧ Fr 16777730 4893107481783862970145939295814194120568611952132096 s t := by
  refine ⟨_, rfl, ?_⟩
  repeat' first
    | with_reducible assumption
    | ((with_reducible apply orDec); rfl)
    | with_reducible intro _
    | with_reducible exact Fr.refl _ _ _
    | with_reducible apply Fr.ite
    | with_reducible apply State.pdRx_fr
    | with_reducible apply State.dpAnswer_fr
    | with_reducible apply Fr.step (State.pdSend_fr ..)

theorem execEnterMode_fr (n : Channel) (hdr : BitVec 16) (s : State) : ∃ t, execEnterMode n hdr s = .next t ∧ Fr 150995458 4893107481783862970146018523976708384906205496082432 s t := by
  refine ⟨_, rfl, ?_⟩
  repeat' first
    | with_reducible assumption
    | ((with_reducible apply orDec); rfl)
    | ((with_reducible apply bitDec); rfl)
    | with_reducible intro _
    | with_reducible exact Fr.refl _ _ _
    | with_reducible apply Fr.ite
    | with_reducible apply State.pdRx_fr
    | with_reducible apply State.dpAnswer_fr
    | with_reducible apply Fr.step (State.pdSend_fr ..)
    | with_reducible apply Fr.p
    | with_reducible apply Fr.withDp
    | with_reducible apply TCP_DP.reg
    | ((with_reducible apply HasReg.as); simp only [TCP_DP.STATE_addr])

theorem execExitMode_fr (n : Channel) (hdr : BitVec 16) (s : State) : ∃ t, execExitMode n hdr s = .next t ∧ Fr 150995458 4893107481783862970146018523976708384906205496082432 s t := by
  refine ⟨_, rfl, ?_⟩
  repeat' first
    | with_reducible assumption
    | ((with_reducible apply orDec); rfl)
    | with_reducible intro _
    | with_reducible exact Fr.refl _ _ _
    | with_reducible apply Fr.ite
    | with_reducible apply State.pdRx_fr
    | with_reducible apply State.dpAnswer_fr
    | with_reducible apply Fr.step (State.dpExit_fr ..)
    | with_reducible apply Fr.step (State.pdSend_fr ..)

theorem execDpStatusUpdate_fr (n : Channel) (hdr : BitVec 16) (s : State) : ∃ t, execDpStatusUpdate n hdr s = .next t ∧ Fr 16777730 4893107481783862970145939295814194120568611952132096 s t := by
  refine ⟨_, rfl, ?_⟩
  repeat' first
    | with_reducible assumption
    | ((with_reducible apply orDec); rfl)
    | with_reducible intro _
    | with_reducible exact Fr.refl _ _ _
    | with_reducible apply Fr.ite
    | with_reducible apply State.pdRx_fr
    | with_reducible apply State.dpAnswer_fr
    | with_reducible apply Fr.step (State.pdSend_fr ..)

theorem execDpConfigure_fr (n : Channel) (hdr : BitVec 16) (ufpD : Bool) (pins : Fin 4) (s : State) : ∃ t, execDpConfigure n hdr ufpD pins s = .next t ∧ Fr 150995458 4893107481783862970146018523976708384906205496082432 s t := by
  refine ⟨_, rfl, ?_⟩
  repeat' first
    | with_reducible assumption
    | ((with_reducible apply orDec); rfl)
    | with_reducible intro _
    | with_reducible exact Fr.refl _ _ _
    | with_reducible apply Fr.ite
    | with_reducible apply State.pdRx_fr
    | with_reducible apply State.dpAnswer_fr
    | with_reducible apply Fr.step (State.dpChange_fr ..)
    | with_reducible apply Fr.step (State.pdSend_fr ..)

theorem execOtherStructuredVdm_fr (n : Channel) (hdr : BitVec 16) (s : State) : ∃ t, execOtherStructuredVdm n hdr s = .next t ∧ Fr 16777730 4893107481783862970145939295814194120568611952132096 s t := by
  refine ⟨_, rfl, ?_⟩
  repeat' first
    | with_reducible assumption
    | ((with_reducible apply orDec); rfl)
    | with_reducible intro _
    | with_reducible exact Fr.refl _ _ _
    | with_reducible apply Fr.ite
    | with_reducible apply State.pdRx_fr
    | with_reducible apply Fr.step (State.pdSend_fr ..)

theorem execUnstructuredVdm_fr (n : Channel) (hdr : BitVec 16) (s : State) : ∃ t, execUnstructuredVdm n hdr s = .next t ∧ Fr 16777730 4893107481783862970145939295814194120568611952132096 s t := by
  refine ⟨_, rfl, ?_⟩
  repeat' first
    | with_reducible assumption
    | ((with_reducible apply orDec); rfl)
    | with_reducible intro _
    | with_reducible exact Fr.refl _ _ _
    | with_reducible apply Fr.ite
    | with_reducible apply State.pdRx_fr
    | with_reducible apply Fr.step (State.pdNot_fr ..)

theorem execHpdLevelChange_fr (u : Fin 2) (high : Bool) (s : State) : ∃ t, execHpdLevelChange u high s = .next t ∧ Fr 16777730 4893107481783862970146016048096629814145655697833984 s t := by
  refine ⟨_, rfl, ?_⟩
  repeat' first
    | with_reducible assumption
    | ((with_reducible apply orDec); rfl)
    | ((with_reducible apply bitDec); rfl)
    | with_reducible intro _
    | with_reducible exact Fr.refl _ _ _
    | with_reducible apply Fr.ite
    | with_reducible apply Fr.step (State.pdSend_fr ..)
    | with_reducible apply Fr.p
    | with_reducible apply Fr.when
    | with_reducible apply TCP_DP.reg
    | ((with_reducible apply HasReg.as); simp only [TCP_DP.HPD_addr])

theorem execIrqHpd_fr (u : Fin 2) (s : State) : ∃ t, execIrqHpd u s = .next t ∧ Fr 16777730 4893107481783862970145936819934115549808062153883648 s t := by
  refine ⟨_, rfl, ?_⟩
  repeat' first
    | with_reducible assumption
    | ((with_reducible apply orDec); rfl)
    | with_reducible intro _
    | with_reducible exact Fr.refl _ _ _
    | with_reducible apply Fr.ite
    | with_reducible apply Fr.step (State.pdSend_fr ..)
    | with_reducible apply Fr.when

end Sys2Proof.Machine
end

