-- ==== Sys2Proof/Laws/ExPlanCmd.lean ====
section
/-!
SUPPORT. Every command of Sys2Proof/Machine/PlanCmd.lean answers a next state, and what may have changed in it.
-/
namespace Sys2Proof.Machine

theorem execStagingEraseDone_fr (s : State) : ∃ t, execStagingEraseDone s = .next t ∧ Fr 6710886434 784642610055346327042324084069582841901840271387308064769 s t := by
  refine ⟨_, rfl, ?_⟩
  repeat' first
    | with_reducible assumption
    | ((with_reducible apply orDec); rfl)
    | ((with_reducible apply bitDec); rfl)
    | with_reducible intro _
    | with_reducible exact Fr.refl _ _ _
    | with_reducible apply Fr.ite
    | with_reducible apply Fr.step (State.finishPend_fr ..)
    | with_reducible apply Fr.p
    | with_reducible apply PLN_STATUS.reg
    | ((with_reducible apply HasReg.as); simp only [PLN_STATUS.UPLOAD_addr])

theorem execCommitStepDone_fr (ok : Bool) (s : State) : ∃ t, execCommitStepDone ok s = .next t ∧ Fr 24010192634 813059626990554845960719660615615524586685277550655045665 s t := by
  refine ⟨_, rfl, ?_⟩
  repeat' first
    | with_reducible assumption
    | ((with_reducible apply orDec); rfl)
    | ((with_reducible apply bitDec); rfl)
    | with_reducible intro _
    | with_reducible exact Fr.refl _ _ _
    | with_reducible apply Fr.ite
    | with_reducible apply Fr.step (State.plnMod_fr ..)
    | with_reducible apply Fr.step (State.endCommit_fr ..)
    | with_reducible apply Fr.step (State.discardUpload_fr ..)
    | with_reducible apply Fr.step (State.reject_fr ..)
    | with_reducible apply Fr.step (State.commitFailed_fr ..)
    | with_reducible apply Fr.p
    | with_reducible apply Fr.when
    | with_reducible apply PLN_SLOT_SEQ.reg
    | ((with_reducible apply HasReg.as); simp only [PLN_SLOT_SEQ.SEQ_addr])
    | split
    | dsimp only

theorem execActivateReplyWaitEnd_fr (s : State) : ∃ t, execActivateReplyWaitEnd s = .next t ∧ Fr 23993407226 812227529802350320369657901878217505147142290292906917889 s t := by
  refine ⟨_, rfl, ?_⟩
  repeat' first
    | with_reducible assumption
    | ((with_reducible apply orDec); rfl)
    | with_reducible intro _
    | with_reducible exact Fr.refl _ _ _
    | with_reducible apply Fr.ite
    | with_reducible apply Fr.step (State.plnMod_fr ..)
    | with_reducible apply Fr.step (State.discardUpload_fr ..)
    | with_reducible apply Fr.step (State.ctrlAll_fr ..)
    | with_reducible apply Fr.step (State.enterPlan_fr ..)
    | with_reducible apply Fr.when
    | split

theorem execMemberActivateOrder_fr (c : CtrlHdr) (revoke : Fin 16) (raise : Bool) (s : State) : ∃ t, execMemberActivateOrder c revoke raise s = .next t ∧ Fr 17567741690 28421910042690324559437205422914287901102690782328913921 s t := by
  refine ⟨_, rfl, ?_⟩
  repeat' first
    | with_reducible assumption
    | ((with_reducible apply orDec); rfl)
    | with_reducible intro _
    | with_reducible exact Fr.refl _ _ _
    | with_reducible apply Fr.ite
    | with_reducible apply State.rxCtrl_fr
    | with_reducible apply Fr.step (State.reject_fr ..)
    | with_reducible apply Fr.step (State.enterPlan_fr ..)
    | with_reducible apply Fr.step (State.plnMod_fr ..)
    | split

theorem execOtpWriteDone_fr (s : State) : ∃ t, execOtpWriteDone s = .next t ∧ Fr 6144 0 s t := by
  refine ⟨_, rfl, ?_⟩
  repeat' first
    | with_reducible assumption
    | ((with_reducible apply orDec); rfl)
    | ((with_reducible apply bitDec); rfl)
    | with_reducible intro _
    | with_reducible exact Fr.refl _ _ _
    | with_reducible apply Fr.ite
    | with_reducible apply Fr.step (State.plnMod_fr ..)
    | with_reducible apply Fr.when
    | with_reducible apply Fr.withOtp
    | split

theorem execUploadIdleTimeout_fr (s : State) : ∃ t, execUploadIdleTimeout s = .next t ∧ Fr 6710890530 784642610055346327042324084069582841901840271387308064769 s t := by
  refine ⟨_, rfl, ?_⟩
  repeat' first
    | with_reducible assumption
    | ((with_reducible apply orDec); rfl)
    | with_reducible intro _
    | with_reducible exact Fr.refl _ _ _
    | with_reducible apply Fr.ite
    | with_reducible apply Fr.step (State.discardUpload_fr ..)
    | with_reducible apply Fr.when

theorem execEp3BulkData_fr (slot : Fin 4) (bytes : List (BitVec 8)) (s : State) : ∃ t, execEp3BulkData slot bytes s = .next t ∧ Fr 41137737762 784642610055346327042324084069582841901840271387308064768 s t := by
  refine ⟨_, rfl, ?_⟩
  repeat' first
    | with_reducible assumption
    | ((with_reducible apply orDec); rfl)
    | with_reducible intro _
    | with_reducible exact Fr.refl _ _ _
    | with_reducible apply Fr.ite
    | with_reducible apply Fr.step (State.epWrite_fr ..)
    | with_reducible apply Fr.step (State.tackMod_fr ..)
    | with_reducible apply Fr.step (State.takeEp3_fr ..)
    | with_reducible apply Fr.when
    | with_reducible apply Fr.out

end Sys2Proof.Machine
end

