-- ==== Sys2Proof/Laws/ExPower.lean ====
section
/-!
SUPPORT. Every command of Sys2Proof/Machine/Power.lean answers a next state, and what may have changed in it.
-/
namespace Sys2Proof.Machine

theorem execRampStart_fr (n : Channel) (s : State) : ∃ t, execRampStart n s = .next t ∧ Fr 17567737594 28421910042690324601972704112127622905995755260150284288 s t := by
  refine ⟨_, rfl, ?_⟩
  repeat' first
    | with_reducible assumption
    | ((with_reducible apply orDec); rfl)
    | with_reducible intro _
    | with_reducible exact Fr.refl _ _ _
    | with_reducible apply Fr.ite
    | with_reducible apply Fr.step (State.tryRamp_fr ..)

theorem execFastTrip_fr (n : Channel) (onMs : Nat) (s : State) : ∃ t, execFastTrip n onMs s = .next t ∧ Fr 17567737594 28421910042690324559437408247010314973073929331179257856 s t := by
  refine ⟨_, rfl, ?_⟩
  repeat' first
    | with_reducible assumption
    | ((with_reducible apply orDec); rfl)
    | ((with_reducible apply bitDec); rfl)
    | with_reducible intro _
    | with_reducible exact Fr.refl _ _ _
    | with_reducible apply Fr.ite
    | with_reducible apply State.trip_fr
    | with_reducible apply PPW_EVT.reg
    | ((with_reducible apply HasReg.as); simp only [PPW_EVT.FAST_addr])

theorem execSlowTrip_fr (n : Channel) (onMs : Nat) (s : State) : ∃ t, execSlowTrip n onMs s = .next t ∧ Fr 17567737594 28421910042690324559437408247010314973073929331179257856 s t := by
  refine ⟨_, rfl, ?_⟩
  repeat' first
    | with_reducible assumption
    | ((with_reducible apply orDec); rfl)
    | ((with_reducible apply bitDec); rfl)
    | with_reducible intro _
    | with_reducible exact Fr.refl _ _ _
    | with_reducible apply Fr.ite
    | with_reducible apply State.trip_fr
    | with_reducible apply Fr.when
    | with_reducible apply PPW_EVT.reg
    | ((with_reducible apply HasReg.as); simp only [PPW_EVT.SLOW_addr])

theorem execSlowTimerReset_fr (n : Channel) (s : State) : ∃ t, execSlowTimerReset n s = .next t ∧ Fr 0 81129638414606681695789005144064 s t := by
  refine ⟨_, rfl, ?_⟩
  repeat' first
    | with_reducible assumption
    | ((with_reducible apply bitDec); rfl)
    | with_reducible intro _
    | with_reducible exact Fr.refl _ _ _
    | with_reducible apply Fr.ite
    | with_reducible apply Fr.p
    | with_reducible apply PPW_STATUS.reg
    | ((with_reducible apply HasReg.as); simp only [PPW_STATUS.TIMER_addr])

theorem execUndervoltageTrip_fr (n : Channel) (onMs : Nat) (s : State) : ∃ t, execUndervoltageTrip n onMs s = .next t ∧ Fr 17567737594 28421910042690324559437408247010314973073929331179257856 s t := by
  refine ⟨_, rfl, ?_⟩
  repeat' first
    | with_reducible assumption
    | ((with_reducible apply orDec); rfl)
    | ((with_reducible apply bitDec); rfl)
    | with_reducible intro _
    | with_reducible exact Fr.refl _ _ _
    | with_reducible apply Fr.ite
    | with_reducible apply State.trip_fr
    | with_reducible apply Fr.when
    | with_reducible apply PPW_EVT.reg
    | ((with_reducible apply HasReg.as); simp only [PPW_EVT.UV_addr])

theorem execRampFail_fr (n : Channel) (onMs : Nat) (s : State) : ∃ t, execRampFail n onMs s = .next t ∧ Fr 17567737594 28421910042690324559437408247010314973073929331179257856 s t := by
  refine ⟨_, rfl, ?_⟩
  repeat' first
    | with_reducible assumption
    | ((with_reducible apply orDec); rfl)
    | ((with_reducible apply bitDec); rfl)
    | with_reducible intro _
    | with_reducible exact Fr.refl _ _ _
    | with_reducible apply Fr.ite
    | with_reducible apply State.trip_fr
    | with_reducible apply Fr.when
    | with_reducible apply PPW_EVT.reg
    | ((with_reducible apply HasReg.as); simp only [PPW_EVT.RAMP_FAIL_addr])

theorem execGateStuck_fr (n : Channel) (onMs : Nat) (s : State) : ∃ t, execGateStuck n onMs s = .next t ∧ Fr 17567737594 28421910042690324559437408247010314973073929331179257856 s t := by
  refine ⟨_, rfl, ?_⟩
  repeat' first
    | with_reducible assumption
    | ((with_reducible apply orDec); rfl)
    | ((with_reducible apply bitDec); rfl)
    | with_reducible intro _
    | with_reducible exact Fr.refl _ _ _
    | with_reducible apply Fr.ite
    | with_reducible apply State.trip_fr
    | with_reducible apply Fr.when
    | with_reducible apply PPW_EVT.reg
    | ((with_reducible apply HasReg.as); simp only [PPW_EVT.GATE_STUCK_addr])

theorem execAttemptWindowEnd_fr (n : Channel) (s : State) : ∃ t, execAttemptWindowEnd n s = .next t ∧ Fr 17567737594 28421910042690324559437408247010314973073929331179257856 s t := by
  refine ⟨_, rfl, ?_⟩
  repeat' first
    | with_reducible assumption
    | ((with_reducible apply orDec); rfl)
    | ((with_reducible apply bitDec); rfl)
    | with_reducible intro _
    | with_reducible exact Fr.refl _ _ _
    | with_reducible apply Fr.ite
    | with_reducible apply State.trip_fr
    | with_reducible apply Fr.step (State.chMod_fr ..)
    | with_reducible apply Fr.p
    | with_reducible apply Fr.when
    | with_reducible apply Fr.hw
    | with_reducible apply PPW_STATUS.reg
    | with_reducible apply PPW_EVT.reg
    | ((with_reducible apply HasReg.as); simp only [PPW_EVT.RAMP_FAIL_addr, PPW_EVT.RETRY_OK_addr, PPW_STATUS.STATE_addr])

theorem execRetryWaitEnd_fr (n : Channel) (s : State) : ∃ t, execRetryWaitEnd n s = .next t ∧ Fr 17567737594 28421910042690324601972704112127622905995755260150284288 s t := by
  refine ⟨_, rfl, ?_⟩
  repeat' first
    | with_reducible assumption
    | ((with_reducible apply orDec); rfl)
    | ((with_reducible apply bitDec); rfl)
    | with_reducible intro _
    | with_reducible exact Fr.refl _ _ _
    | with_reducible apply Fr.ite
    | with_reducible apply Fr.step (State.chMod_fr ..)
    | with_reducible apply Fr.step (State.tryRamp_fr ..)
    | with_reducible apply Fr.p
    | with_reducible apply Fr.when
    | with_reducible apply PPW_RETRY.reg
    | with_reducible apply PPW_STATUS.reg
    | ((with_reducible apply HasReg.as); simp only [PPW_RETRY.WAIT_addr, PPW_STATUS.STATE_addr])

theorem execPgStableTimer_fr (n : Channel) (s : State) : ∃ t, execPgStableTimer n s = .next t ∧ Fr 17567737594 28421910042690324601972704112127622905995755260150284288 s t := by
  refine ⟨_, rfl, ?_⟩
  repeat' first
    | with_reducible assumption
    | ((with_reducible apply orDec); rfl)
    | with_reducible intro _
    | with_reducible exact Fr.refl _ _ _
    | with_reducible apply Fr.ite
    | with_reducible apply Fr.step (State.releaseLatch_fr ..)
    | with_reducible apply Fr.when

theorem execUnseatedResetTimer_fr (n : Channel) (s : State) : ∃ t, execUnseatedResetTimer n s = .next t ∧ Fr 17567737594 28421910042690324601972704112127622905995755260150284288 s t := by
  refine ⟨_, rfl, ?_⟩
  repeat' first
    | with_reducible assumption
    | ((with_reducible apply orDec); rfl)
    | with_reducible intro _
    | with_reducible exact Fr.refl _ _ _
    | with_reducible apply Fr.ite
    | with_reducible apply Fr.step (State.releaseLatch_fr ..)
    | with_reducible apply Fr.when

theorem execSeatInputChange_fr (i : Fin 8) (low : Bool) (s : State) : ∃ t, execSeatInputChange i low s = .next t ∧ Fr 98 4893107481805641041630144532195999754085192022622208 s t := by
  refine ⟨_, rfl, ?_⟩
  repeat' first
    | with_reducible assumption
    | ((with_reducible apply orDec); rfl)
    | ((with_reducible apply bitDec); rfl)
    | with_reducible intro _
    | with_reducible exact Fr.refl _ _ _
    | with_reducible apply Fr.ite
    | with_reducible apply Fr.step (State.wakeBy_fr ..)
    | with_reducible apply Fr.step (State.chMod_fr ..)
    | with_reducible apply Fr.p
    | with_reducible apply PPW_SEAT.reg
    | ((with_reducible apply HasReg.as); simp only [seatBit_addr])
    | split
    | dsimp only

theorem execSeatDebounceEnd_fr (i : Fin 8) (s : State) : ∃ t, execSeatDebounceEnd i s = .next t ∧ Fr 17567737594 28421910042690324601972705379778223134225156756853489664 s t := by
  refine ⟨_, rfl, ?_⟩
  repeat' first
    | with_reducible assumption
    | ((with_reducible apply orDec); rfl)
    | ((with_reducible apply bitDec); rfl)
    | with_reducible intro _
    | with_reducible exact Fr.refl _ _ _
    | with_reducible apply Fr.ite
    | with_reducible apply Fr.step (State.tryRamp_fr ..)
    | with_reducible apply Fr.p
    | with_reducible apply Fr.when
    | with_reducible apply PPW_SEAT.reg
    | with_reducible apply PPW_STATUS.reg
    | ((with_reducible apply HasReg.as); simp only [PPW_STATUS.SEATED_addr, seatBit_addr])
    | split
    | dsimp only

theorem execSeatRemoval_fr (i : Fin 8) (s : State) : ∃ t, execSeatRemoval i s = .next t ∧ Fr 1967354 3069884189213583442829159317982676414064687589013585920 s t := by
  refine ⟨_, rfl, ?_⟩
  repeat' first
    | with_reducible assumption
    | ((with_reducible apply orDec); rfl)
    | ((with_reducible apply bitDec); rfl)
    | with_reducible intro _
    | with_reducible exact Fr.refl _ _ _
    | with_reducible apply Fr.ite
    | with_reducible apply Fr.step (State.dataOff_fr ..)
    | with_reducible apply Fr.step (State.switchOff_fr ..)
    | with_reducible apply Fr.p
    | with_reducible apply Fr.when
    | with_reducible apply Fr.hw
    | with_reducible apply Fr.mark
    | with_reducible apply PPW_SEAT.reg
    | with_reducible apply PPW_STATUS.reg
    | with_reducible apply PPW_EVT.reg
    | ((with_reducible apply HasReg.as); simp only [PPW_EVT.SEAT_OUT_addr, PPW_STATUS.SEATED_addr, PPW_STATUS.STATE_addr, seatBit_addr])
    | split
    | dsimp only

theorem execDischargeDone_fr (n : Channel) (s : State) : ∃ t, execDischargeDone n s = .next t ∧ Fr 17567737594 28421910042690324601972704112127622905995755260150284288 s t := by
  refine ⟨_, rfl, ?_⟩
  repeat' first
    | with_reducible assumption
    | ((with_reducible apply orDec); rfl)
    | with_reducible intro _
    | with_reducible exact Fr.refl _ _ _
    | with_reducible apply Fr.ite
    | with_reducible apply Fr.step (State.vbusFell_fr ..)
    | with_reducible apply Fr.when

theorem execDischargeTimeout_fr (n : Channel) (s : State) : ∃ t, execDischargeTimeout n s = .next t ∧ Fr 17567737594 28421910042690324559437367682191107669733081436676685824 s t := by
  refine ⟨_, rfl, ?_⟩
  repeat' first
    | with_reducible assumption
    | ((with_reducible apply orDec); rfl)
    | with_reducible intro _
    | with_reducible exact Fr.refl _ _ _
    | with_reducible apply Fr.ite
    | with_reducible apply Fr.step (State.fetShort_fr ..)
    | with_reducible apply Fr.when

theorem execVbusRisingGateOff_fr (n : Channel) (s : State) : ∃ t, execVbusRisingGateOff n s = .next t ∧ Fr 17567737594 28421910042690324559437367682191107669733081436676685824 s t := by
  refine ⟨_, rfl, ?_⟩
  repeat' first
    | with_reducible assumption
    | ((with_reducible apply orDec); rfl)
    | with_reducible intro _
    | with_reducible exact Fr.refl _ _ _
    | with_reducible apply Fr.ite
    | with_reducible apply Fr.step (State.fetShort_fr ..)
    | with_reducible apply Fr.step (State.chMod_fr ..)
    | with_reducible apply Fr.when

theorem execPgAssert_fr (n : Channel) (timer gateOk : Bool) (s : State) : ∃ t, execPgAssert n timer gateOk s = .next t ∧ Fr 64 243388915243820045087367015432192 s t := by
  refine ⟨_, rfl, ?_⟩
  repeat' first
    | with_reducible assumption
    | ((with_reducible apply orDec); rfl)
    | ((with_reducible apply bitDec); rfl)
    | with_reducible intro _
    | with_reducible exact Fr.refl _ _ _
    | with_reducible apply Fr.ite
    | with_reducible apply Fr.step (State.chMod_fr ..)
    | with_reducible apply Fr.step (State.assertPg_fr ..)
    | with_reducible apply Fr.p
    | with_reducible apply Fr.when
    | with_reducible apply Fr.hw
    | with_reducible apply PPW_STATUS.reg
    | with_reducible apply PPW_EVT.reg
    | ((with_reducible apply HasReg.as); simp only [PPW_EVT.PG_WITHHELD_addr, PPW_STATUS.GATE_OK_addr, PPW_STATUS.TIMER_addr])

theorem execPgHoldEnd_fr (n : Channel) (s : State) : ∃ t, execPgHoldEnd n s = .next t ∧ Fr 64 81129638414606681695789005144064 s t := by
  refine ⟨_, rfl, ?_⟩
  repeat' first
    | with_reducible assumption
    | ((with_reducible apply orDec); rfl)
    | with_reducible intro _
    | with_reducible exact Fr.refl _ _ _
    | with_reducible apply Fr.ite
    | with_reducible apply Fr.step (State.assertPg_fr ..)
    | with_reducible apply Fr.when

end Sys2Proof.Machine
end

