-- ==== Sys2Proof/Laws/ExSuperSpeed.lean ====
section
/-!
SUPPORT. Every command of Sys2Proof/Machine/SuperSpeed.lean answers a next state, and what may have changed in it.
-/
namespace Sys2Proof.Machine

theorem execDownstreamPacket_fr (u : Fin 2) (pkt : SsPacket) (ecc : Fin 3) (s : State) : ∃ t, execDownstreamPacket u pkt ecc s = .next t ∧ Fr 17567737594 28421910042690324559437205422919114159648183560811053056 s t := by
  refine ⟨_, rfl, ?_⟩
  repeat' first
    | with_reducible assumption
    | ((with_reducible apply orDec); rfl)
    | with_reducible intro _
    | with_reducible exact Fr.refl _ _ _
    | with_reducible apply Fr.ite
    | with_reducible apply Fr.step (State.downstreamPacket_fr ..)

theorem execUpstreamPacket_fr (n : Stall) (pkt : SsPacket) (ecc : Fin 3) (s : State) : ∃ t, execUpstreamPacket n pkt ecc s = .next t ∧ Fr 17567737594 28421910042690324559437205422919114159648183560005746688 s t := by
  refine ⟨_, rfl, ?_⟩
  repeat' first
    | with_reducible assumption
    | ((with_reducible apply orDec); rfl)
    | ((with_reducible apply bitDec); rfl)
    | with_reducible intro _
    | with_reducible exact Fr.refl _ _ _
    | with_reducible apply Fr.ite
    | with_reducible apply Fr.step (State.enter_fr ..)
    | with_reducible apply Fr.step (State.packetAt_fr ..)
    | with_reducible apply Fr.step (State.sendUp_fr ..)
    | with_reducible apply Fr.p
    | with_reducible apply Fr.when
    | with_reducible apply SSH_PORT_LPM.reg
    | ((with_reducible apply HasReg.as); simp only [SSH_PORT_LPM.FW_HELD_addr])
    | split

theorem execEgressQueueHead_fr (n : Channel) (ecc : Fin 3) (s : State) : ∃ t, execEgressQueueHead n ecc s = .next t ∧ Fr 17567737594 28421910042690324559437205422919114159648183561079488512 s t := by
  refine ⟨_, rfl, ?_⟩
  repeat' first
    | with_reducible assumption
    | ((with_reducible apply orDec); rfl)
    | with_reducible intro _
    | with_reducible exact Fr.refl _ _ _
    | with_reducible apply Fr.ite
    | with_reducible apply Fr.step (State.readNext_fr ..)
    | with_reducible apply Fr.when

theorem execPortU0Reached_fr (n : Channel) (rate : Fin 5) (s : State) : ∃ t, execPortU0Reached n rate s = .next t ∧ Fr 1967162 6280171619575894347193547746138848632606912563819682201600 s t := by
  refine ⟨_, rfl, ?_⟩
  repeat' first
    | with_reducible assumption
    | ((with_reducible apply orDec); rfl)
    | ((with_reducible apply bitDec); rfl)
    | with_reducible intro _
    | with_reducible exact Fr.refl _ _ _
    | with_reducible apply Fr.ite
    | with_reducible apply Fr.step (State.ssLink_fr ..)
    | with_reducible apply Fr.step (State.mirLocal_fr ..)
    | with_reducible apply Fr.step (State.upJudge_fr ..)
    | with_reducible apply Fr.step (State.sendHeld_fr ..)
    | with_reducible apply Fr.p
    | with_reducible apply Fr.when
    | with_reducible apply Fr.withSs
    | with_reducible apply SSH_PORT.reg
    | with_reducible apply UPP_PADDOCK.reg
    | with_reducible apply STL_LANE.reg
    | ((with_reducible apply HasReg.as); simp only [SSH_PORT.RATE_addr, STL_LANE.STATE_addr, UPP_PADDOCK.STATE_addr])

theorem execRecoveryHoldExpire_fr (n : Channel) (s : State) : ∃ t, execRecoveryHoldExpire n s = .next t ∧ Fr 132096 4863877449037244911781863123279789889444906939711488 s t := by
  refine ⟨_, rfl, ?_⟩
  repeat' first
    | with_reducible assumption
    | ((with_reducible apply orDec); rfl)
    | with_reducible intro _
    | with_reducible exact Fr.refl _ _ _
    | with_reducible apply Fr.ite
    | with_reducible apply Fr.step (State.setEgress_fr ..)
    | with_reducible apply Fr.step (State.dropAt_fr ..)
    | with_reducible apply Fr.when
    | with_reducible apply Fr.foldl

theorem execHeaderCreditReturn_fr (n : Channel) (s : State) : ∃ t, execHeaderCreditReturn n s = .next t ∧ Fr 1024 17592320262144 s t := by
  refine ⟨_, rfl, ?_⟩
  repeat' first
    | with_reducible assumption
    | ((with_reducible apply bitDec); rfl)
    | with_reducible intro _
    | with_reducible exact Fr.refl _ _ _
    | with_reducible apply Fr.ite
    | with_reducible apply Fr.p
    | with_reducible apply Fr.out
    | with_reducible apply Fr.hw
    | with_reducible apply Fr.withSs
    | with_reducible apply SSH_PORT.reg
    | with_reducible apply PBF_EVT.reg
    | ((with_reducible apply HasReg.as); simp only [PBF_EVT.HOLD_addr, SSH_PORT.HP_IN_addr])

theorem execCreditRelease_fr (q : Fin 21) (s : State) : ∃ t, execCreditRelease q s = .next t ∧ Fr 132096 2361183259027008651264 s t := by
  refine ⟨_, rfl, ?_⟩
  repeat' first
    | with_reducible assumption
    | ((with_reducible apply orDec); rfl)
    | ((with_reducible apply bitDec); rfl)
    | with_reducible intro _
    | with_reducible exact Fr.refl _ _ _
    | with_reducible apply Fr.ite
    | with_reducible apply Fr.step (State.linkBale_fr ..)
    | with_reducible apply Fr.out
    | with_reducible apply Fr.withSs

theorem execLgoReceived_fr (n : Stall) (u2 : Bool) (s : State) : ∃ t, execLgoReceived n u2 s = .next t ∧ Fr 1967162 3069884189213583357758322931182216499945420967446052864 s t := by
  refine ⟨_, rfl, ?_⟩
  repeat' first
    | with_reducible assumption
    | ((with_reducible apply orDec); rfl)
    | with_reducible intro _
    | with_reducible exact Fr.refl _ _ _
    | with_reducible apply Fr.ite
    | with_reducible apply Fr.step (State.ssLink_fr ..)
    | with_reducible apply Fr.out

theorem execLpmInactivityTimeout_fr (n : Stall) (u2 accepted : Bool) (s : State) : ∃ t, execLpmInactivityTimeout n u2 accepted s = .next t ∧ Fr 1967162 3069884189213583357758322931182216499945420967446052864 s t := by
  refine ⟨_, rfl, ?_⟩
  repeat' first
    | with_reducible assumption
    | ((with_reducible apply orDec); rfl)
    | with_reducible intro _
    | with_reducible exact Fr.refl _ _ _
    | with_reducible apply Fr.ite
    | with_reducible apply Fr.step (State.ssLink_fr ..)
    | with_reducible apply Fr.when
    | with_reducible apply Fr.out

theorem execUspLpmInitiate_fr (u : Fin 2) (u2 accepted : Bool) (s : State) : ∃ t, execUspLpmInitiate u u2 accepted s = .next t ∧ Fr 1967162 3069884189213583357758322931182216499945420967446052864 s t := by
  refine ⟨_, rfl, ?_⟩
  repeat' first
    | with_reducible assumption
    | ((with_reducible apply orDec); rfl)
    | with_reducible intro _
    | with_reducible exact Fr.refl _ _ _
    | with_reducible apply Fr.ite
    | with_reducible apply Fr.step (State.ssLink_fr ..)
    | with_reducible apply Fr.when
    | with_reducible apply Fr.out
    | split

theorem execUspLgoReceived_fr (u : Fin 2) (u2 : Bool) (s : State) : ∃ t, execUspLgoReceived u u2 s = .next t ∧ Fr 1967162 3069884189213583357758322931182216499945420967446052864 s t := by
  refine ⟨_, rfl, ?_⟩
  repeat' first
    | with_reducible assumption
    | ((with_reducible apply orDec); rfl)
    | with_reducible intro _
    | with_reducible exact Fr.refl _ _ _
    | with_reducible apply Fr.ite
    | with_reducible apply Fr.step (State.ssLink_fr ..)
    | with_reducible apply Fr.out

theorem execLfpsDetected_fr (i : Fin 20) (s : State) : ∃ t, execLfpsDetected i s = .next t ∧ Fr 50 4893107481805641041628876881595771524683695323611136 s t := by
  refine ⟨_, rfl, ?_⟩
  repeat' first
    | with_reducible assumption
    | ((with_reducible apply orDec); rfl)
    | with_reducible intro _
    | with_reducible exact Fr.refl _ _ _
    | with_reducible apply Fr.ite
    | with_reducible apply Fr.step (State.activity_fr ..)
    | with_reducible apply Fr.when
    | with_reducible apply Fr.each

theorem execDeviceU3Exit_fr (n : Stall) (s : State) : ∃ t, execDeviceU3Exit n s = .next t ∧ Fr 1967162 3069884189213583357758322931182216499945433337220300800 s t := by
  refine ⟨_, rfl, ?_⟩
  repeat' first
    | with_reducible assumption
    | ((with_reducible apply orDec); rfl)
    | ((with_reducible apply bitDec); rfl)
    | with_reducible intro _
    | with_reducible exact Fr.refl _ _ _
    | with_reducible apply Fr.ite
    | with_reducible apply Fr.step (State.mirLocal_fr ..)
    | with_reducible apply Fr.step (State.ssLink_fr ..)
    | with_reducible apply Fr.step (State.ssWake_fr ..)
    | with_reducible apply Fr.step (State.sendHeld_fr ..)
    | with_reducible apply Fr.when
    | with_reducible apply Fr.hw
    | with_reducible apply SSH_PORT_EVT.reg
    | ((with_reducible apply HasReg.as); simp only [SSH_PORT_EVT.WAKE_addr])

theorem execHostU3Exit_fr (u : Fin 2) (s : State) : ∃ t, execHostU3Exit u s = .next t ∧ Fr 1967162 3069884189213583357758322931182216499945420967446052864 s t := by
  refine ⟨_, rfl, ?_⟩
  repeat' first
    | with_reducible assumption
    | ((with_reducible apply orDec); rfl)
    | ((with_reducible apply bitDec); rfl)
    | with_reducible intro _
    | with_reducible exact Fr.refl _ _ _
    | with_reducible apply Fr.ite
    | with_reducible apply Fr.step (State.ssLink_fr ..)
    | with_reducible apply Fr.when
    | with_reducible apply Fr.withSs

theorem execSsLaneLost_fr (n : Channel) (upper : Bool) (s : State) : ∃ t, execSsLaneLost n upper s = .next t ∧ Fr 17567737594 6305523645429371088395226628630580694558725134322700910592 s t := by
  refine ⟨_, rfl, ?_⟩
  repeat' first
    | with_reducible assumption
    | ((with_reducible apply orDec); rfl)
    | ((with_reducible apply bitDec); rfl)
    | with_reducible intro _
    | with_reducible exact Fr.refl _ _ _
    | with_reducible apply Fr.ite
    | with_reducible apply Fr.step (State.raise_fr ..)
    | with_reducible apply Fr.step (State.ssLink_fr ..)
    | with_reducible apply Fr.p
    | with_reducible apply Fr.when
    | with_reducible apply Fr.hw
    | with_reducible apply Fr.withSs
    | with_reducible apply SSH_PORT_EVT.reg
    | with_reducible apply STL_LANE.reg
    | ((with_reducible apply HasReg.as); simp only [SSH_PORT_EVT.INACTIVE_addr, STL_LANE.STATE_addr])

theorem execRxDetectPartnerFound_fr (n : Channel) (s : State) : ∃ t, execRxDetectPartnerFound n s = .next t ∧ Fr 1967162 3069884189213583357758322931182216499945420967446052864 s t := by
  refine ⟨_, rfl, ?_⟩
  repeat' first
    | with_reducible assumption
    | ((with_reducible apply orDec); rfl)
    | with_reducible intro _
    | with_reducible exact Fr.refl _ _ _
    | with_reducible apply Fr.ite
    | with_reducible apply Fr.step (State.restartHistory_fr ..)
    | with_reducible apply Fr.step (State.ssLink_fr ..)
    | with_reducible apply Fr.when

theorem execItpNotice_fr (c : CtrlHdr) (slot : Fin 4) (bic : Fin 16384) (s : State) : ∃ t, execItpNotice c slot bic s = .next t ∧ Fr 17567737594 28421910042690324559437205422914287901102690799508783104 s t := by
  refine ⟨_, rfl, ?_⟩
  repeat' first
    | with_reducible assumption
    | ((with_reducible apply orDec); rfl)
    | ((with_reducible apply bitDec); rfl)
    | with_reducible intro _
    | with_reducible exact Fr.refl _ _ _
    | with_reducible apply Fr.ite
    | with_reducible apply State.rxCtrl_fr
    | with_reducible apply Fr.inc
    | with_reducible apply Fr.incSat
    | with_reducible apply Fr.each
    | with_reducible apply Fr.out
    | with_reducible apply SSH_ITP_REGEN.reg
    | ((with_reducible apply HasReg.as); simp only [SSH_ITP_REGEN.SENT_addr, SSH_ITP_REGEN.SKIPPED_addr])

theorem execLdmExchange_fr (n : Channel) (result : Option Nat) (s : State) : ∃ t, execLdmExchange n result s = .next t ∧ Fr 1024 4831838208 s t := by
  refine ⟨_, rfl, ?_⟩
  repeat' first
    | with_reducible assumption
    | ((with_reducible apply bitDec); rfl)
    | with_reducible intro _
    | with_reducible exact Fr.refl _ _ _
    | with_reducible apply Fr.ite
    | with_reducible apply Fr.p
    | with_reducible apply Fr.out
    | with_reducible apply Fr.hw
    | with_reducible apply Fr.withSs
    | with_reducible apply SSH_PORT_EVT.reg
    | with_reducible apply SSH_PTM.reg
    | ((with_reducible apply HasReg.as); simp only [SSH_PORT_EVT.LDM_FAIL_addr, SSH_PTM.DELAY_addr, SSH_PTM.VALID_addr])
    | split

end Sys2Proof.Machine
end

