-- ==== Sys2Proof/Laws/ExTack.lean ====
section
/-!
SUPPORT. Every command of Sys2Proof/Machine/Tack.lean answers a next state, and what may have changed in it.
-/
namespace Sys2Proof.Machine

theorem execMbxSend_fr (slot : Fin 4) (wValue wIndex wLength : BitVec 16) (ctrl : BitVec 32) (words : List (BitVec 32)) (s : State) : ∃ t, execMbxSend slot wValue wIndex wLength ctrl words s = .next t ∧ Fr 59443767294 200867255532373784442745261542645325315275374222849104412671 s t := by
  refine ⟨_, rfl, ?_⟩
  repeat' first
    | with_reducible assumption
    | with_reducible exact HasReg.all
    | ((with_reducible apply orDec); rfl)
    | with_reducible intro _
    | with_reducible exact Fr.refl _ _ _
    | with_reducible apply Fr.ite
    | with_reducible apply Fr.step (State.mbxSendReq_fr ..)

theorem execMbxSendComplete_fr (slot : Fin 4) (s : State) : ∃ t, execMbxSendComplete slot s = .next t ∧ Fr 59443767294 200867255532373784442745261542645325315275374222849104412671 s t := by
  refine ⟨_, rfl, ?_⟩
  repeat' first
    | with_reducible assumption
    | with_reducible exact HasReg.all
    | ((with_reducible apply orDec); rfl)
    | with_reducible intro _
    | with_reducible exact Fr.refl _ _ _
    | with_reducible apply Fr.ite
    | with_reducible apply Fr.step (State.mbxSendComplete_fr ..)

theorem execMsgNakTimeout_fr (slot : Fin 4) (s : State) : ∃ t, execMsgNakTimeout slot s = .next t ∧ Fr 67108864 22835963083295358096932575511191922182123945984 s t := by
  refine ⟨_, rfl, ?_⟩
  repeat' first
    | with_reducible assumption
    | ((with_reducible apply orDec); rfl)
    | ((with_reducible apply bitDec); rfl)
    | with_reducible intro _
    | with_reducible exact Fr.refl _ _ _
    | with_reducible apply Fr.ite
    | with_reducible apply Fr.step (State.tackMod_fr ..)
    | with_reducible apply Fr.when
    | with_reducible apply Fr.out
    | with_reducible apply Fr.hw
    | with_reducible apply TKR_EVT.reg
    | ((with_reducible apply HasReg.as); simp only [TKR_EVT.MSG_STALL_addr])

theorem execMbxRecv_fr (slot : Fin 4) (wValue wIndex wLength : BitVec 16) (s : State) : ∃ t, execMbxRecv slot wValue wIndex wLength s = .next t ∧ Fr 59443767294 200867255532373784442745261542645325315275374222849104412671 s t := by
  refine ⟨_, rfl, ?_⟩
  repeat' first
    | with_reducible assumption
    | with_reducible exact HasReg.all
    | ((with_reducible apply orDec); rfl)
    | with_reducible intro _
    | with_reducible exact Fr.refl _ _ _
    | with_reducible apply Fr.ite
    | with_reducible apply State.tackReq_fr
    | with_reducible apply Fr.step (State.tackXfer_fr ..)

theorem execMbxAck_fr (slot : Fin 4) (wValue wIndex wLength : BitVec 16) (s : State) : ∃ t, execMbxAck slot wValue wIndex wLength s = .next t ∧ Fr 59443767294 200867255532373784442745261542645325315275374222849104412671 s t := by
  refine ⟨_, rfl, ?_⟩
  repeat' first
    | with_reducible assumption
    | with_reducible exact HasReg.all
    | ((with_reducible apply orDec); rfl)
    | with_reducible intro _
    | with_reducible exact Fr.refl _ _ _
    | with_reducible apply Fr.ite
    | with_reducible apply Fr.step (State.mbxAck_fr ..)

theorem execRegRead_fr (slot : Fin 4) (addr : BitVec 32) (len : Fin 65536) (s : State) : ∃ t, execRegRead slot addr len s = .next t ∧ Fr 59443767294 200867255532373784442745261542645325315275374222849104412671 s t := by
  refine ⟨_, rfl, ?_⟩
  repeat' first
    | with_reducible assumption
    | with_reducible exact HasReg.all
    | ((with_reducible apply orDec); rfl)
    | with_reducible intro _
    | with_reducible exact Fr.refl _ _ _
    | with_reducible apply Fr.ite
    | with_reducible apply State.tackReq_fr
    | with_reducible apply Fr.step (State.tackXfer_fr ..)

theorem execRegWrite_fr (slot : Fin 4) (addr : BitVec 32) (wLength : BitVec 16) (words : List (BitVec 32)) (s : State) : ∃ t, execRegWrite slot addr wLength words s = .next t ∧ Fr 59443767294 200867255532373784442745261542645325315275374222849104412671 s t := by
  refine ⟨_, rfl, ?_⟩
  repeat' first
    | with_reducible assumption
    | with_reducible exact HasReg.all
    | ((with_reducible apply orDec); rfl)
    | with_reducible intro _
    | with_reducible exact Fr.refl _ _ _
    | with_reducible apply Fr.ite
    | with_reducible apply Fr.step (State.regWrite_fr ..)

theorem execRegWriteFixed_fr (slot : Fin 4) (addr : BitVec 32) (wLength : BitVec 16) (words : List (BitVec 32)) (s : State) : ∃ t, execRegWriteFixed slot addr wLength words s = .next t ∧ Fr 59443767294 200867255532373784442745261542645325315275374222849104412671 s t := by
  refine ⟨_, rfl, ?_⟩
  repeat' first
    | with_reducible assumption
    | with_reducible exact HasReg.all
    | ((with_reducible apply orDec); rfl)
    | with_reducible intro _
    | with_reducible exact Fr.refl _ _ _
    | with_reducible apply Fr.ite
    | with_reducible apply Fr.step (State.regWriteFixed_fr ..)

theorem execQueueSelect_fr (slot : Fin 4) (wValue wIndex wLength : BitVec 16) (s : State) : ∃ t, execQueueSelect slot wValue wIndex wLength s = .next t ∧ Fr 34426847266 1472919618872550597252151120471878980746994515968 s t := by
  refine ⟨_, rfl, ?_⟩
  repeat' first
    | with_reducible assumption
    | ((with_reducible apply orDec); rfl)
    | ((with_reducible apply bitDec); rfl)
    | with_reducible intro _
    | with_reducible exact Fr.refl _ _ _
    | with_reducible apply Fr.ite
    | with_reducible apply State.tackReq_fr
    | with_reducible apply Fr.step (State.releaseQueues_fr ..)
    | with_reducible apply Fr.step (State.ep2Fill_fr ..)
    | with_reducible apply Fr.step (State.restage_fr ..)
    | with_reducible apply Fr.p
    | with_reducible apply Fr.out
    | with_reducible apply TKR_FUNC.reg
    | with_reducible apply OBS_Q_CTRL.reg
    | ((with_reducible apply HasReg.as); simp only [OBS_Q_CTRL.OWNER_addr, TKR_FUNC.QUEUE_addr])

theorem execEp1Report_fr (slot : Fin 4) (ack : Bool) (s : State) : ∃ t, execEp1Report slot ack s = .next t ∧ Fr 34427912242 4893118899787182689307925347883527129651985640325120 s t := by
  refine ⟨_, rfl, ?_⟩
  repeat' first
    | with_reducible assumption
    | ((with_reducible apply orDec); rfl)
    | with_reducible intro _
    | with_reducible exact Fr.refl _ _ _
    | with_reducible apply Fr.ite
    | with_reducible apply Fr.step (State.tackMod_fr ..)
    | with_reducible apply Fr.step (State.tackWake_fr ..)
    | with_reducible apply Fr.step (State.epWrite_fr ..)
    | with_reducible apply Fr.out
    | with_reducible apply Fr.getD
    | split

theorem execEp2PacketAck_fr (slot : Fin 4) (s : State) : ∃ t, execEp2PacketAck slot s = .next t ∧ Fr 34359738370 4893107481783862970145936819934115549808062153883648 s t := by
  refine ⟨_, rfl, ?_⟩
  repeat' first
    | with_reducible assumption
    | ((with_reducible apply orDec); rfl)
    | with_reducible intro _
    | with_reducible exact Fr.refl _ _ _
    | with_reducible apply Fr.ite
    | with_reducible apply Fr.step (State.ep2Fill_fr ..)
    | with_reducible apply Fr.step (State.ackPacket_fr ..)
    | with_reducible apply Fr.out

theorem execQueueTimeout_fr (q : Fin 4) (s : State) : ∃ t, execQueueTimeout q s = .next t ∧ Fr 335544354 4893107562645842386302385769662750263034005778595840 s t := by
  refine ⟨_, rfl, ?_⟩
  repeat' first
    | with_reducible assumption
    | ((with_reducible apply orDec); rfl)
    | ((with_reducible apply bitDec); rfl)
    | with_reducible intro _
    | with_reducible exact Fr.refl _ _ _
    | with_reducible apply Fr.ite
    | with_reducible apply Fr.step (State.tackMod_fr ..)
    | with_reducible apply Fr.step (State.notice_fr ..)
    | with_reducible apply Fr.each
    | with_reducible apply Fr.hw
    | with_reducible apply OBS_Q_STATUS.reg
    | ((with_reducible apply HasReg.as); simp only [OBS_Q_STATUS.TIMEOUT_addr])

theorem execBillboardTimeout_fr (u : Fin 2) (s : State) : ∃ t, execBillboardTimeout u s = .next t ∧ Fr 68157440 34253944624943037145398863266787883273185918976 s t := by
  refine ⟨_, rfl, ?_⟩
  repeat' first
    | with_reducible assumption
    | ((with_reducible apply orDec); rfl)
    | ((with_reducible apply bitDec); rfl)
    | with_reducible intro _
    | with_reducible exact Fr.refl _ _ _
    | with_reducible apply Fr.ite
    | with_reducible apply Fr.step (State.tackPlace_fr ..)
    | with_reducible apply Fr.step (State.tackMod_fr ..)
    | with_reducible apply Fr.hw
    | with_reducible apply TKR_EVT.reg
    | ((with_reducible apply HasReg.as); simp only [TKR_EVT.BB_NO_PORT_addr])
    | split

theorem execBillboardReconnect_fr (u : Fin 2) (s : State) : ∃ t, execBillboardReconnect u s = .next t ∧ Fr 68157440 11417981541647679127694450269860298684605923328 s t := by
  refine ⟨_, rfl, ?_⟩
  repeat' first
    | with_reducible assumption
    | ((with_reducible apply orDec); rfl)
    | ((with_reducible apply bitDec); rfl)
    | with_reducible intro _
    | with_reducible exact Fr.refl _ _ _
    | with_reducible apply Fr.ite
    | with_reducible apply Fr.step (State.tackPlace_fr ..)
    | with_reducible apply Fr.step (State.tackMod_fr ..)
    | with_reducible apply Fr.p
    | with_reducible apply Fr.when
    | with_reducible apply TCP_DP.reg
    | with_reducible apply TKR_FUNC.reg
    | ((with_reducible apply HasReg.as); simp only [TCP_DP.BILLBOARD_addr, TKR_FUNC.BILLBOARD_addr])
    | split

theorem execStandardDeviceRequest_fr (slot : Fin 4) (hub : Option (Fin 16)) (ss : Bool) (r : StdReq) (s : State) : ∃ t, execStandardDeviceRequest slot hub ss r s = .next t ∧ Fr 34427241504 3069854970598796503276154965890188278519488176443097088 s t := by
  refine ⟨_, rfl, ?_⟩
  repeat' first
    | with_reducible assumption
    | ((with_reducible apply orDec); rfl)
    | with_reducible intro _
    | with_reducible exact Fr.refl _ _ _
    | with_reducible apply Fr.ite
    | with_reducible apply Fr.step (State.hubStd_fr ..)
    | with_reducible apply Fr.step (State.tackStd_fr ..)
    | with_reducible apply Fr.step (State.newRequest_fr ..)
    | with_reducible apply Fr.when
    | split

theorem execI2cWrite_fr (addr : BitVec 24) (bytes : List (BitVec 8)) (s : State) : ∃ t, execI2cWrite addr bytes s = .next t ∧ Fr 68033701886 200867255532373784442745261542645325315275374222849104412671 s t := by
  refine ⟨_, rfl, ?_⟩
  repeat' first
    | with_reducible assumption
    | with_reducible exact HasReg.all
    | ((with_reducible apply orDec); rfl)
    | with_reducible intro _
    | with_reducible exact Fr.refl _ _ _
    | with_reducible apply Fr.ite
    | with_reducible apply State.sideAccess_fr
    | with_reducible apply Fr.step (State.sideWrite_fr ..)

theorem execI2cRead_fr (addr : BitVec 24) (n : Fin 65536) (s : State) : ∃ t, execI2cRead addr n s = .next t ∧ Fr 68033701886 200867255532373784442745261542645325315275374222849104412671 s t := by
  refine ⟨_, rfl, ?_⟩
  repeat' first
    | with_reducible assumption
    | with_reducible exact HasReg.all
    | ((with_reducible apply orDec); rfl)
    | with_reducible intro _
    | with_reducible exact Fr.refl _ _ _
    | with_reducible apply Fr.ite
    | with_reducible apply State.sideAccess_fr
    | with_reducible apply Fr.step (State.sideRead_fr ..)

theorem execSpiWrite_fr (addr : BitVec 24) (bytes : List (BitVec 8)) (s : State) : ∃ t, execSpiWrite addr bytes s = .next t ∧ Fr 68033701886 200867255532373784442745261542645325315275374222849104412671 s t := by
  refine ⟨_, rfl, ?_⟩
  repeat' first
    | with_reducible assumption
    | with_reducible exact HasReg.all
    | ((with_reducible apply orDec); rfl)
    | with_reducible intro _
    | with_reducible exact Fr.refl _ _ _
    | with_reducible apply Fr.ite
    | with_reducible apply State.sideAccess_fr
    | with_reducible apply Fr.step (State.sideWrite_fr ..)

theorem execSpiRead_fr (addr : BitVec 24) (n : Fin 65536) (s : State) : ∃ t, execSpiRead addr n s = .next t ∧ Fr 68033701886 200867255532373784442745261542645325315275374222849104412671 s t := by
  refine ⟨_, rfl, ?_⟩
  repeat' first
    | with_reducible assumption
    | with_reducible exact HasReg.all
    | ((with_reducible apply orDec); rfl)
    | with_reducible intro _
    | with_reducible exact Fr.refl _ _ _
    | with_reducible apply Fr.ite
    | with_reducible apply State.sideAccess_fr
    | with_reducible apply Fr.step (State.sideRead_fr ..)

theorem execSpiStatus_fr (s : State) : ∃ t, execSpiStatus s = .next t ∧ Fr 0 0 s t := by
  refine ⟨_, rfl, ?_⟩
  repeat' first
    | with_reducible assumption
    | with_reducible intro _
    | with_reducible exact Fr.refl _ _ _
    | with_reducible apply Fr.ite
    | with_reducible apply Fr.when
    | with_reducible apply Fr.out

theorem execSmbusAlertResponse_fr (s : State) : ∃ t, execSmbusAlertResponse s = .next t ∧ Fr 0 0 s t := by
  refine ⟨_, rfl, ?_⟩
  repeat' first
    | with_reducible assumption
    | with_reducible intro _
    | with_reducible exact Fr.refl _ _ _
    | with_reducible apply Fr.ite
    | with_reducible apply Fr.when
    | with_reducible apply Fr.out

theorem execSidebandStallTimeout_fr (spi : Bool) (s : State) : ∃ t, execSidebandStallTimeout spi s = .next t ∧ Fr 8589934624 22835963083295358096932575511191922182123945984 s t := by
  refine ⟨_, rfl, ?_⟩
  repeat' first
    | with_reducible assumption
    | ((with_reducible apply orDec); rfl)
    | ((with_reducible apply bitDec); rfl)
    | with_reducible intro _
    | with_reducible exact Fr.refl _ _ _
    | with_reducible apply Fr.ite
    | with_reducible apply Fr.step (State.endStall_fr ..)
    | with_reducible apply Fr.when
    | with_reducible apply Fr.hw
    | with_reducible apply Fr.withPdc
    | with_reducible apply Fr.withSbTimedOut
    | with_reducible apply Fr.foldl
    | with_reducible apply Fr.foldlSnd
    | with_reducible apply TKR_EVT.reg
    | ((with_reducible apply HasReg.as); simp only [TKR_EVT.SB_TIMEOUT_addr])

end Sys2Proof.Machine
end

