-- ==== Sys2Proof/Laws/ExTimeline.lean ====
section
/-!
SUPPORT. Every command of Sys2Proof/Machine/Timeline.lean answers a next state, and what may have changed in it.
-/
namespace Sys2Proof.Machine

theorem execDomainWake_fr (i : Fin 256) (s : State) : ∃ t, execDomainWake i s = .next t ∧ Fr 17213423650 4893107481805641041628876881595771524683695321513984 s t := by
  refine ⟨_, rfl, ?_⟩
  repeat' first
    | with_reducible assumption
    | ((with_reducible apply orDec); rfl)
    | with_reducible intro _
    | with_reducible exact Fr.refl _ _ _
    | with_reducible apply Fr.ite
    | with_reducible apply State.dispatch_fr
    | with_reducible apply Fr.step (State.raiseTimeline_fr ..)

theorem execTlmSample_fr (i : Fin 256) (s : State) : ∃ t, execTlmSample i s = .next t ∧ Fr 17213423650 4893107481783862970145936819934115549808062155980800 s t := by
  refine ⟨_, rfl, ?_⟩
  repeat' first
    | with_reducible assumption
    | ((with_reducible apply orDec); rfl)
    | with_reducible intro _
    | with_reducible exact Fr.refl _ _ _
    | with_reducible apply Fr.ite
    | with_reducible apply State.dispatch_fr
    | with_reducible apply Fr.step (State.record_fr ..)
    | split

theorem execPdKeepalive_fr (i : Fin 256) (s : State) : ∃ t, execPdKeepalive i s = .next t ∧ Fr 17230201378 4893107481783862970145936819934115549808062155980800 s t := by
  refine ⟨_, rfl, ?_⟩
  repeat' first
    | with_reducible assumption
    | ((with_reducible apply orDec); rfl)
    | with_reducible intro _
    | with_reducible exact Fr.refl _ _ _
    | with_reducible apply Fr.ite
    | with_reducible apply State.dispatch_fr
    | with_reducible apply Fr.step (State.keepAlive_fr ..)
    | split

theorem execDoorbell_fr (i : Fin 256) (s : State) : ∃ t, execDoorbell i s = .next t ∧ Fr 17213423648 4863877471337990110312486264815508162063305011101696 s t := by
  refine ⟨_, rfl, ?_⟩
  repeat' first
    | with_reducible assumption
    | ((with_reducible apply orDec); rfl)
    | with_reducible intro _
    | with_reducible exact Fr.refl _ _ _
    | with_reducible apply Fr.ite
    | with_reducible apply State.dispatch_fr
    | with_reducible apply Fr.step (State.ring_fr ..)

theorem execGpioSet_fr (i : Fin 256) (s : State) : ∃ t, execGpioSet i s = .next t ∧ Fr 17567737594 50245235793136136435245752591084245607275213245570944598016 s t := by
  refine ⟨_, rfl, ?_⟩
  repeat' first
    | with_reducible assumption
    | ((with_reducible apply orDec); rfl)
    | with_reducible intro _
    | with_reducible exact Fr.refl _ _ _
    | with_reducible apply Fr.ite
    | with_reducible apply State.dispatch_fr
    | with_reducible apply Fr.step (State.driveGpio_fr ..)

theorem execGpioClear_fr (i : Fin 256) (s : State) : ∃ t, execGpioClear i s = .next t ∧ Fr 17567737594 50245235793136136435245752591084245607275213245570944598016 s t := by
  refine ⟨_, rfl, ?_⟩
  repeat' first
    | with_reducible assumption
    | ((with_reducible apply orDec); rfl)
    | with_reducible intro _
    | with_reducible exact Fr.refl _ _ _
    | with_reducible apply Fr.ite
    | with_reducible apply State.dispatch_fr
    | with_reducible apply Fr.step (State.driveGpio_fr ..)

theorem execFabricHeartbeat_fr (i : Fin 256) (s : State) : ∃ t, execFabricHeartbeat i s = .next t ∧ Fr 17213554720 4863877449037244911781863123282151072673970513772544 s t := by
  refine ⟨_, rfl, ?_⟩
  repeat' first
    | with_reducible assumption
    | ((with_reducible apply orDec); rfl)
    | with_reducible intro _
    | with_reducible exact Fr.refl _ _ _
    | with_reducible apply Fr.ite
    | with_reducible apply State.dispatch_fr
    | with_reducible apply Fr.step (State.linkBale_fr ..)
    | with_reducible apply Fr.when

theorem execBudgetReview_fr (i : Fin 256) (s : State) : ∃ t, execBudgetReview i s = .next t ∧ Fr 17230201762 4893107481784192618780164798167106781627324110471168 s t := by
  refine ⟨_, rfl, ?_⟩
  repeat' first
    | with_reducible assumption
    | ((with_reducible apply orDec); rfl)
    | with_reducible intro _
    | with_reducible exact Fr.refl _ _ _
    | with_reducible apply Fr.ite
    | with_reducible apply State.dispatch_fr
    | with_reducible apply Fr.step (State.review_fr ..)

theorem execTtPrewake_fr (i : Fin 256) (s : State) : ∃ t, execTtPrewake i s = .next t ∧ Fr 17213423650 4893107481805641041628876881595771524683695321513984 s t := by
  refine ⟨_, rfl, ?_⟩
  repeat' first
    | with_reducible assumption
    | ((with_reducible apply orDec); rfl)
    | with_reducible intro _
    | with_reducible exact Fr.refl _ _ _
    | with_reducible apply Fr.ite
    | with_reducible apply State.dispatch_fr
    | with_reducible apply Fr.step (State.raiseTimeline_fr ..)

theorem execTmlEnable_fr (m : Fin 16) (s : State) : ∃ t, execTmlEnable m s = .next t ∧ Fr 59443767294 200867255532373784442745261542645325315275374222849104412671 s t := by
  refine ⟨_, rfl, ?_⟩
  repeat' first
    | with_reducible assumption
    | with_reducible exact HasReg.all
    | ((with_reducible apply orDec); rfl)
    | with_reducible intro _
    | with_reducible exact Fr.refl _ _ _
    | with_reducible apply Fr.ite
    | with_reducible apply Fr.step (State.access_fr ..)

end Sys2Proof.Machine
end

