-- ==== Sys2Proof/Laws/ExTimelineBase.lean ====
section
/-!
SUPPORT. Every command of Sys2Proof/Machine/TimelineBase.lean answers a next state, and what may have changed in it.
-/
namespace Sys2Proof.Machine

theorem execTimelineWakeLead_fr (w : WakeOf) (s : State) : ∃ t, execTimelineWakeLead w s = .next t ∧ Fr 34 4893107481805641041628876881595771524683695319416832 s t := by
  refine ⟨_, rfl, ?_⟩
  repeat' first
    | with_reducible assumption
    | ((with_reducible apply orDec); rfl)
    | with_reducible intro _
    | with_reducible exact Fr.refl _ _ _
    | with_reducible apply Fr.ite
    | with_reducible apply Fr.step (State.raiseTimeline_fr ..)
    | with_reducible apply Fr.when
    | with_reducible apply Fr.each
    | split

theorem execPredictorChoice_fr (d : Fin 12) (s : State) : ∃ t, execPredictorChoice d s = .next t ∧ Fr 48 21778071482940061661655974875633169727488 s t := by
  refine ⟨_, rfl, ?_⟩
  repeat' first
    | with_reducible assumption
    | ((with_reducible apply orDec); rfl)
    | ((with_reducible apply bitDec); rfl)
    | with_reducible intro _
    | with_reducible exact Fr.refl _ _ _
    | with_reducible apply Fr.ite
    | with_reducible apply Fr.step (State.beginEntry_fr ..)
    | with_reducible apply Fr.p
    | with_reducible apply Fr.mark
    | with_reducible apply Fr.withPred
    | with_reducible apply TML_PRED.reg
    | ((with_reducible apply HasReg.as); simp only [TML_PRED.CHOICE_addr, TML_PRED.NEXT_addr])

theorem execObservationWindowEnd_fr (d : Fin 12) (s : State) : ∃ t, execObservationWindowEnd d s = .next t ∧ Fr 16 4194304 s t := by
  refine ⟨_, rfl, ?_⟩
  repeat' first
    | with_reducible assumption
    | ((with_reducible apply bitDec); rfl)
    | with_reducible intro _
    | with_reducible exact Fr.refl _ _ _
    | with_reducible apply Fr.ite
    | with_reducible apply Fr.p
    | with_reducible apply Fr.when
    | with_reducible apply Fr.withPred
    | with_reducible apply TML_PRED.reg
    | ((with_reducible apply HasReg.as); simp only [TML_PRED.CAPPED_addr, TML_PRED.HISTORY_addr, TML_PRED.MISS_addr])

theorem execBurstStart_fr (n : Stall) (s : State) : ∃ t, execBurstStart n s = .next t ∧ Fr 56 8388608 s t := by
  refine ⟨_, rfl, ?_⟩
  repeat' first
    | with_reducible assumption
    | ((with_reducible apply orDec); rfl)
    | ((with_reducible apply bitDec); rfl)
    | with_reducible intro _
    | with_reducible exact Fr.refl _ _ _
    | with_reducible apply Fr.ite
    | with_reducible apply Fr.step (State.packetAt_fr ..)
    | with_reducible apply Fr.p
    | with_reducible apply Fr.withPat
    | with_reducible apply Fr.withPred
    | with_reducible apply TML_PAT.reg
    | ((with_reducible apply HasReg.as); simp only [TML_PAT.AGREE_addr, TML_PAT.PERIOD_addr, TML_PAT.STATE_addr])

theorem execPredictionWindowMiss_fr (n : Stall) (s : State) : ∃ t, execPredictionWindowMiss n s = .next t ∧ Fr 8 8388608 s t := by
  refine ⟨_, rfl, ?_⟩
  repeat' first
    | with_reducible assumption
    | ((with_reducible apply bitDec); rfl)
    | with_reducible intro _
    | with_reducible exact Fr.refl _ _ _
    | with_reducible apply Fr.ite
    | with_reducible apply Fr.p
    | with_reducible apply Fr.withPat
    | with_reducible apply TML_PAT.reg
    | ((with_reducible apply HasReg.as); simp only [TML_PAT.AGREE_addr, TML_PAT.PERIOD_addr, TML_PAT.STATE_addr])

end Sys2Proof.Machine
end

