-- ==== Sys2Proof/Laws/ExTt.lean ====
section
/-!
SUPPORT. Every command of Sys2Proof/Machine/Tt.lean answers a next state, and what may have changed in it.
-/
namespace Sys2Proof.Machine

theorem execTtSof_fr (n : Stall) (frame : Fin 2048) (s : State) : ∃ t, execTtSof n frame s = .next t ∧ Fr 32818 4893107481805641041628876881595771668798883399467008 s t := by
  refine ⟨_, rfl, ?_⟩
  repeat' first
    | with_reducible assumption
    | ((with_reducible apply orDec); rfl)
    | with_reducible intro _
    | with_reducible exact Fr.refl _ _ _
    | with_reducible apply Fr.ite
    | with_reducible apply Fr.step (State.ttMod_fr ..)
    | with_reducible apply Fr.step (State.ttBoundary_fr ..)
    | with_reducible apply Fr.when

theorem execSofFill_fr (n : Stall) (s : State) : ∃ t, execSofFill n s = .next t ∧ Fr 32818 4893107481805641041628876881595772533490011854602240 s t := by
  refine ⟨_, rfl, ?_⟩
  repeat' first
    | with_reducible assumption
    | ((with_reducible apply orDec); rfl)
    | ((with_reducible apply bitDec); rfl)
    | with_reducible intro _
    | with_reducible exact Fr.refl _ _ _
    | with_reducible apply Fr.ite
    | with_reducible apply Fr.step (State.ttMod_fr ..)
    | with_reducible apply Fr.step (State.ttBoundary_fr ..)
    | with_reducible apply Fr.incSat
    | with_reducible apply Fr.when
    | with_reducible apply Fr.hw
    | with_reducible apply TTA_EVT.reg
    | with_reducible apply TTA_COUNT.reg
    | ((with_reducible apply HasReg.as); simp only [TTA_COUNT.SOF_FILL_addr, TTA_EVT.SOF_FILL_addr])

theorem execTtPeriodicHold_fr (n : Stall) (s : State) : ∃ t, execTtPeriodicHold n s = .next t ∧ Fr 32818 4893107481805641041628876881595771957029259551178752 s t := by
  refine ⟨_, rfl, ?_⟩
  repeat' first
    | with_reducible assumption
    | ((with_reducible apply orDec); rfl)
    | ((with_reducible apply bitDec); rfl)
    | with_reducible intro _
    | with_reducible exact Fr.refl _ _ _
    | with_reducible apply Fr.ite
    | with_reducible apply Fr.step (State.ttMod_fr ..)
    | with_reducible apply Fr.when
    | with_reducible apply Fr.hw
    | with_reducible apply TTA_EVT.reg
    | ((with_reducible apply HasReg.as); simp only [TTA_EVT.PER_HELD_addr])

theorem execPeriodicStartSplit_fr (n : Stall) (dev : Fin 128) (ep : Fin 16) (dirIn : Bool) (data : List (BitVec 8)) (s : State) : ∃ t, execPeriodicStartSplit n dev ep dirIn data s = .next t ∧ Fr 32818 4893107481805641041628876881595772533490011854602240 s t := by
  refine ⟨_, rfl, ?_⟩
  repeat' first
    | with_reducible assumption
    | ((with_reducible apply orDec); rfl)
    | ((with_reducible apply bitDec); rfl)
    | with_reducible intro _
    | with_reducible exact Fr.refl _ _ _
    | with_reducible apply Fr.ite
    | with_reducible apply Fr.step (State.pmu_fr ..)
    | with_reducible apply Fr.step (State.ttMod_fr ..)
    | with_reducible apply Fr.incSat
    | with_reducible apply Fr.when
    | with_reducible apply Fr.hw
    | with_reducible apply TTA_EVT.reg
    | with_reducible apply TTA_COUNT.reg
    | ((with_reducible apply HasReg.as); simp only [TTA_COUNT.PER_DROP_addr, TTA_EVT.PER_DROP_addr])

theorem execNonperiodicStartSplit_fr (n : Stall) (dev : Fin 128) (ep : Fin 16) (bulk dirIn : Bool) (data : List (BitVec 8)) (s : State) : ∃ t, execNonperiodicStartSplit n dev ep bulk dirIn data s = .next t ∧ Fr 32818 4893107481805641041628876881595771957029259551178752 s t := by
  refine ⟨_, rfl, ?_⟩
  repeat' first
    | with_reducible assumption
    | ((with_reducible apply orDec); rfl)
    | ((with_reducible apply bitDec); rfl)
    | with_reducible intro _
    | with_reducible exact Fr.refl _ _ _
    | with_reducible apply Fr.ite
    | with_reducible apply Fr.step (State.ttMod_fr ..)
    | with_reducible apply Fr.when
    | with_reducible apply Fr.out
    | with_reducible apply Fr.hw
    | with_reducible apply TTA_EVT.reg
    | ((with_reducible apply HasReg.as); simp only [TTA_EVT.NP_NAK_addr])

theorem execCompleteSplit_fr (n : Stall) (periodic : Bool) (dev : Fin 128) (ep : Fin 16) (dirIn : Bool) (sofar : List (BitVec 8)) (s : State) : ∃ t, execCompleteSplit n periodic dev ep dirIn sofar s = .next t ∧ Fr 32818 4893107481805641041628876881595771668798883399467008 s t := by
  refine ⟨_, rfl, ?_⟩
  repeat' first
    | with_reducible assumption
    | ((with_reducible apply orDec); rfl)
    | with_reducible intro _
    | with_reducible exact Fr.refl _ _ _
    | with_reducible apply Fr.ite
    | with_reducible apply Fr.step (State.ttMod_fr ..)
    | with_reducible apply Fr.when
    | with_reducible apply Fr.out
    | split
    | dsimp only

theorem execTtTransactionEnd_fr (n : Stall) (a : TtAnswer) (s : State) : ∃ t, execTtTransactionEnd n a s = .next t ∧ Fr 32818 4893107481805641041628876881595771668798883399467008 s t := by
  refine ⟨_, rfl, ?_⟩
  repeat' first
    | with_reducible assumption
    | ((with_reducible apply orDec); rfl)
    | with_reducible intro _
    | with_reducible exact Fr.refl _ _ _
    | with_reducible apply Fr.ite
    | with_reducible apply Fr.step (State.ttMod_fr ..)
    | with_reducible apply Fr.when

theorem execPeriodicWindowEnd_fr (n : Stall) (dev : Fin 128) (ep : Fin 16) (dirIn : Bool) (s : State) : ∃ t, execPeriodicWindowEnd n dev ep dirIn s = .next t ∧ Fr 32818 4893107481805641041628876881595771668798883399467008 s t := by
  refine ⟨_, rfl, ?_⟩
  repeat' first
    | with_reducible assumption
    | ((with_reducible apply orDec); rfl)
    | with_reducible intro _
    | with_reducible exact Fr.refl _ _ _
    | with_reducible apply Fr.ite
    | with_reducible apply Fr.step (State.ttMod_fr ..)
    | with_reducible apply Fr.when
    | split

theorem execTtEof_fr (n : Stall) (s : State) : ∃ t, execTtEof n s = .next t ∧ Fr 32818 4893107481805641041628876881595771957029259551178752 s t := by
  refine ⟨_, rfl, ?_⟩
  repeat' first
    | with_reducible assumption
    | ((with_reducible apply orDec); rfl)
    | ((with_reducible apply bitDec); rfl)
    | with_reducible intro _
    | with_reducible exact Fr.refl _ _ _
    | with_reducible apply Fr.ite
    | with_reducible apply Fr.step (State.ttMod_fr ..)
    | with_reducible apply Fr.when
    | with_reducible apply Fr.hw
    | with_reducible apply TTA_EVT.reg
    | ((with_reducible apply HasReg.as); simp only [TTA_EVT.LATE_addr])

end Sys2Proof.Machine
end

