-- ==== Sys2Proof/Laws/ExTypeC.lean ====
section
/-!
SUPPORT. Every command of Sys2Proof/Machine/TypeC.lean answers a next state, and what may have changed in it.
-/
namespace Sys2Proof.Machine

theorem execAttachDetect_fr (n : Channel) (cc2 ra acc : Bool) (s : State) : ∃ t, execAttachDetect n cc2 ra acc s = .next t ∧ Fr 562 4893107481805641041710068417012342475393229284966400 s t := by
  refine ⟨_, rfl, ?_⟩
  repeat' first
    | with_reducible assumption
    | ((with_reducible apply orDec); rfl)
    | with_reducible intro _
    | with_reducible exact Fr.refl _ _ _
    | with_reducible apply Fr.ite
    | with_reducible apply State.onWake_fr
    | with_reducible apply Fr.step (State.attachDetect_fr ..)

theorem execCcAttachDebounceEnd_fr (n : Channel) (s : State) : ∃ t, execCcAttachDebounceEnd n s = .next t ∧ Fr 17567737594 3166972777736030706519867415755574912214305646288939515904 s t := by
  refine ⟨_, rfl, ?_⟩
  repeat' first
    | with_reducible assumption
    | ((with_reducible apply orDec); rfl)
    | ((with_reducible apply bitDec); rfl)
    | with_reducible intro _
    | with_reducible exact Fr.refl _ _ _
    | with_reducible apply Fr.ite
    | with_reducible apply Fr.step (State.ccState_fr ..)
    | with_reducible apply Fr.step (State.attachNow_fr ..)
    | with_reducible apply Fr.step (State.tcMod_fr ..)
    | with_reducible apply Fr.p
    | with_reducible apply Fr.when
    | with_reducible apply TCP_PORT.reg
    | ((with_reducible apply HasReg.as); simp only [TCP_PORT.RP_addr])

theorem execVbusDischarged_fr (n : Channel) (s : State) : ∃ t, execVbusDischarged n s = .next t ∧ Fr 17567737594 3166972777736030706519867415755574912214305646288939515904 s t := by
  refine ⟨_, rfl, ?_⟩
  repeat' first
    | with_reducible assumption
    | ((with_reducible apply orDec); rfl)
    | with_reducible intro _
    | with_reducible exact Fr.refl _ _ _
    | with_reducible apply Fr.ite
    | with_reducible apply Fr.step (State.vbusFell_fr ..)
    | with_reducible apply Fr.step (State.attachNow_fr ..)
    | with_reducible apply Fr.when

theorem execRampComplete_fr (n : Channel) (gateOk : Bool) (s : State) : ∃ t, execRampComplete n gateOk s = .next t ∧ Fr 18744954 3069884189213583357758414204501313011034215179781931008 s t := by
  refine ⟨_, rfl, ?_⟩
  repeat' first
    | with_reducible assumption
    | ((with_reducible apply orDec); rfl)
    | with_reducible intro _
    | with_reducible exact Fr.refl _ _ _
    | with_reducible apply Fr.ite
    | with_reducible apply Fr.step (State.rampComplete_fr ..)

theorem execDetachDebounceEnd_fr (n : Channel) (s : State) : ∃ t, execDetachDebounceEnd n s = .next t ∧ Fr 17701955322 28421910042690324601972704151741704163127924056922259456 s t := by
  refine ⟨_, rfl, ?_⟩
  repeat' first
    | with_reducible assumption
    | ((with_reducible apply orDec); rfl)
    | ((with_reducible apply bitDec); rfl)
    | with_reducible intro _
    | with_reducible exact Fr.refl _ _ _
    | with_reducible apply Fr.ite
    | with_reducible apply Fr.step (State.toUnattached_fr ..)
    | with_reducible apply Fr.step (State.tcMod_fr ..)
    | with_reducible apply Fr.step (State.detach_fr ..)
    | with_reducible apply Fr.when
    | with_reducible apply Fr.hw
    | with_reducible apply TCP_EVT.reg
    | ((with_reducible apply HasReg.as); simp only [TCP_EVT.FAST_DETACH_addr])

theorem execSinkDetach_fr (n : Channel) (s : State) : ∃ t, execSinkDetach n s = .next t ∧ Fr 17701955322 28421910042690324601972704151741704163127924056922259456 s t := by
  refine ⟨_, rfl, ?_⟩
  repeat' first
    | with_reducible assumption
    | ((with_reducible apply orDec); rfl)
    | with_reducible intro _
    | with_reducible exact Fr.refl _ _ _
    | with_reducible apply Fr.ite
    | with_reducible apply Fr.step (State.detach_fr ..)
    | with_reducible apply Fr.when

theorem execRdOpenDuringSlew_fr (n : Channel) (isOpen : Bool) (code : BitVec 14) (s : State) : ∃ t, execRdOpenDuringSlew n isOpen code s = .next t ∧ Fr 0 9903520314283042199192993792 s t := by
  refine ⟨_, rfl, ?_⟩
  repeat' first
    | with_reducible assumption
    | ((with_reducible apply bitDec); rfl)
    | with_reducible intro _
    | with_reducible exact Fr.refl _ _ _
    | with_reducible apply Fr.ite
    | with_reducible apply Fr.p
    | with_reducible apply Fr.when
    | with_reducible apply TCP_VSET.reg
    | ((with_reducible apply HasReg.as); simp only [TCP_VSET.CODE_addr, TCP_VSET.FROZEN_addr])

theorem execDrpToggle_fr (n : Channel) (s : State) : ∃ t, execDrpToggle n s = .next t ∧ Fr 2 4893107481783862970145939295814194120568611952132096 s t := by
  refine ⟨_, rfl, ?_⟩
  repeat' first
    | with_reducible assumption
    | ((with_reducible apply orDec); rfl)
    | ((with_reducible apply bitDec); rfl)
    | with_reducible intro _
    | with_reducible exact Fr.refl _ _ _
    | with_reducible apply Fr.ite
    | with_reducible apply Fr.step (State.ccState_fr ..)
    | with_reducible apply Fr.p
    | with_reducible apply TCP_PORT.reg
    | ((with_reducible apply HasReg.as); simp only [TCP_PORT.RP_addr])

theorem execTrySnkTimeout_fr (n : Channel) (s : State) : ∃ t, execTrySnkTimeout n s = .next t ∧ Fr 514 4893107481783862970145939295814194120568611952132096 s t := by
  refine ⟨_, rfl, ?_⟩
  repeat' first
    | with_reducible assumption
    | ((with_reducible apply orDec); rfl)
    | ((with_reducible apply bitDec); rfl)
    | with_reducible intro _
    | with_reducible exact Fr.refl _ _ _
    | with_reducible apply Fr.ite
    | with_reducible apply Fr.step (State.ccState_fr ..)
    | with_reducible apply Fr.step (State.tcMod_fr ..)
    | with_reducible apply Fr.p
    | with_reducible apply Fr.when
    | with_reducible apply TCP_PORT.reg
    | ((with_reducible apply HasReg.as); simp only [TCP_PORT.RP_addr])

theorem execSinkAttach_fr (n : Channel) (cc2 : Bool) (rp : Fin 4) (s : State) : ∃ t, execSinkAttach n cc2 rp s = .next t ∧ Fr 17567737594 28421910042690324601972704151741704163127924056922259456 s t := by
  refine ⟨_, rfl, ?_⟩
  repeat' first
    | with_reducible assumption
    | ((with_reducible apply orDec); rfl)
    | with_reducible intro _
    | with_reducible exact Fr.refl _ _ _
    | with_reducible apply Fr.ite
    | with_reducible apply State.onWake_fr
    | with_reducible apply Fr.step (State.sinkAttach_fr ..)

theorem execErrorRecoveryEnd_fr (n : Channel) (s : State) : ∃ t, execErrorRecoveryEnd n s = .next t ∧ Fr 2 4893107481783862970227068934228800802264400957276160 s t := by
  refine ⟨_, rfl, ?_⟩
  repeat' first
    | with_reducible assumption
    | ((with_reducible apply orDec); rfl)
    | with_reducible intro _
    | with_reducible exact Fr.refl _ _ _
    | with_reducible apply Fr.ite
    | with_reducible apply Fr.step (State.toUnattached_fr ..)
    | with_reducible apply Fr.when

theorem execHardResetReceived_fr (n : Channel) (s : State) : ∃ t, execHardResetReceived n s = .next t ∧ Fr 17701955322 28421910042690324601972704151741704163127924056922259456 s t := by
  refine ⟨_, rfl, ?_⟩
  repeat' first
    | with_reducible assumption
    | ((with_reducible apply orDec); rfl)
    | ((with_reducible apply bitDec); rfl)
    | with_reducible intro _
    | with_reducible exact Fr.refl _ _ _
    | with_reducible apply Fr.ite
    | with_reducible apply Fr.step (State.hardReset_fr ..)
    | with_reducible apply Fr.step (State.endContract_fr ..)
    | with_reducible apply Fr.step (State.pdRecord_fr ..)
    | with_reducible apply Fr.incSat
    | with_reducible apply Fr.hw
    | with_reducible apply TCP_PORT.reg
    | with_reducible apply TCP_EVT.reg
    | ((with_reducible apply HasReg.as); simp only [TCP_EVT.HR_RX_addr, TCP_PORT.HR_COUNT_addr])

theorem execPsHardResetTimer_fr (n : Channel) (s : State) : ∃ t, execPsHardResetTimer n s = .next t ∧ Fr 192 85070672859873030472525347646947196928 s t := by
  refine ⟨_, rfl, ?_⟩
  repeat' first
    | with_reducible assumption
    | ((with_reducible apply orDec); rfl)
    | with_reducible intro _
    | with_reducible exact Fr.refl _ _ _
    | with_reducible apply Fr.ite
    | with_reducible apply Fr.step (State.switchOff_fr ..)
    | with_reducible apply Fr.when

theorem execSrcRecoverEnd_fr (n : Channel) (s : State) : ∃ t, execSrcRecoverEnd n s = .next t ∧ Fr 17567737594 28421910042690324601972704112127622905995755260150284288 s t := by
  refine ⟨_, rfl, ?_⟩
  repeat' first
    | with_reducible assumption
    | ((with_reducible apply orDec); rfl)
    | ((with_reducible apply bitDec); rfl)
    | with_reducible intro _
    | with_reducible exact Fr.refl _ _ _
    | with_reducible apply Fr.ite
    | with_reducible apply Fr.step (State.tryRamp_fr ..)
    | with_reducible apply Fr.step (State.tcMod_fr ..)
    | with_reducible apply Fr.p
    | with_reducible apply Fr.when
    | with_reducible apply TCP_PORT.reg
    | ((with_reducible apply HasReg.as); simp only [TCP_PORT.VCONN_ON_addr])

theorem execVconnSwap_fr (n : Channel) (hdr : BitVec 16) (s : State) : ∃ t, execVconnSwap n hdr s = .next t ∧ Fr 16777730 4893107481783862970145978909895451252737408724107264 s t := by
  refine ⟨_, rfl, ?_⟩
  repeat' first
    | with_reducible assumption
    | ((with_reducible apply orDec); rfl)
    | ((with_reducible apply bitDec); rfl)
    | with_reducible intro _
    | with_reducible exact Fr.refl _ _ _
    | with_reducible apply Fr.ite
    | with_reducible apply State.pdRx_fr
    | with_reducible apply Fr.step (State.pdNot_fr ..)
    | with_reducible apply Fr.step (State.pdSend_fr ..)
    | with_reducible apply Fr.step (State.tcMod_fr ..)
    | with_reducible apply Fr.p
    | with_reducible apply Fr.hw
    | with_reducible apply TCP_PORT.reg
    | with_reducible apply TCP_EVT.reg
    | ((with_reducible apply HasReg.as); simp only [TCP_EVT.VCONN_SWAP_addr, TCP_PORT.VCONN_ON_addr])

theorem execPsRdyReceived_fr (n : Channel) (hdr : BitVec 16) (s : State) : ∃ t, execPsRdyReceived n hdr s = .next t ∧ Fr 16777730 4893107481783862970145978909895451252737408724107264 s t := by
  refine ⟨_, rfl, ?_⟩
  repeat' first
    | with_reducible assumption
    | ((with_reducible apply orDec); rfl)
    | ((with_reducible apply bitDec); rfl)
    | with_reducible intro _
    | with_reducible exact Fr.refl _ _ _
    | with_reducible apply Fr.ite
    | with_reducible apply State.pdRx_fr
    | with_reducible apply Fr.step (State.tcMod_fr ..)
    | with_reducible apply Fr.step (State.vconnOff_fr ..)
    | with_reducible apply Fr.when
    | with_reducible apply Fr.hw
    | with_reducible apply TCP_EVT.reg
    | ((with_reducible apply HasReg.as); simp only [TCP_EVT.VCONN_SWAP_addr])

theorem execVconnOvercurrent_fr (n : Channel) (s : State) : ∃ t, execVconnOvercurrent n s = .next t ∧ Fr 17567737594 28421910042690324559437205462528359713501858655438372864 s t := by
  refine ⟨_, rfl, ?_⟩
  repeat' first
    | with_reducible assumption
    | ((with_reducible apply orDec); rfl)
    | ((with_reducible apply bitDec); rfl)
    | with_reducible intro _
    | with_reducible exact Fr.refl _ _ _
    | with_reducible apply Fr.ite
    | with_reducible apply Fr.step (State.raise_fr ..)
    | with_reducible apply Fr.step (State.vconnOff_fr ..)
    | with_reducible apply Fr.when
    | with_reducible apply Fr.hw
    | with_reducible apply TCP_EVT.reg
    | ((with_reducible apply HasReg.as); simp only [TCP_EVT.VCONN_OC_addr])

theorem execCcOvervoltage_fr (n : Channel) (s : State) : ∃ t, execCcOvervoltage n s = .next t ∧ Fr 17701955322 28421910042690324601972704151741704163127924056922259456 s t := by
  refine ⟨_, rfl, ?_⟩
  repeat' first
    | with_reducible assumption
    | ((with_reducible apply orDec); rfl)
    | ((with_reducible apply bitDec); rfl)
    | with_reducible intro _
    | with_reducible exact Fr.refl _ _ _
    | with_reducible apply Fr.ite
    | with_reducible apply Fr.step (State.raise_fr ..)
    | with_reducible apply Fr.step (State.errorRecovery_fr ..)
    | with_reducible apply Fr.when
    | with_reducible apply Fr.hw
    | with_reducible apply TCP_EVT.reg
    | ((with_reducible apply HasReg.as); simp only [TCP_EVT.CC_OV_addr])

theorem execVsetTrim_fr (n : Channel) (mv : Nat) (limiting : Bool) (s : State) : ∃ t, execVsetTrim n mv limiting s = .next t ∧ Fr 512 9903520314283042199192993792 s t := by
  refine ⟨_, rfl, ?_⟩
  repeat' first
    | with_reducible assumption
    | ((with_reducible apply orDec); rfl)
    | ((with_reducible apply bitDec); rfl)
    | with_reducible intro _
    | with_reducible exact Fr.refl _ _ _
    | with_reducible apply Fr.ite
    | with_reducible apply Fr.step (State.tcMod_fr ..)
    | with_reducible apply Fr.p
    | with_reducible apply TCP_VSET.reg
    | ((with_reducible apply HasReg.as); simp only [TCP_VSET.CODE_addr])

end Sys2Proof.Machine
end

