-- ==== Sys2Proof/Laws/ExUsb2.lean ====
section
/-!
SUPPORT. Every command of Sys2Proof/Machine/Usb2.lean answers a next state, and what may have changed in it.
-/
namespace Sys2Proof.Machine

theorem execTtaOpDone_fr (s : State) : ∃ t, execTtaOpDone s = .next t ∧ Fr 34362327090 3069884189213583357758322931182216501530688035533881344 s t := by
  refine ⟨_, rfl, ?_⟩
  repeat' first
    | with_reducible assumption
    | ((with_reducible apply orDec); rfl)
    | with_reducible intro _
    | with_reducible exact Fr.refl _ _ _
    | with_reducible apply Fr.ite
    | with_reducible apply Fr.step (State.ttaOpDone_fr ..)
    | with_reducible apply Fr.step (State.runTtWaits_fr ..)
    | with_reducible apply Fr.step (State.finishWait_fr ..)
    | split

theorem execOrderReset_fr (n : Stall) (s : State) : ∃ t, execOrderReset n s = .next t ∧ Fr 17571964666 28421910042690324601972704151746540309562837708033753088 s t := by
  refine ⟨_, rfl, ?_⟩
  repeat' first
    | with_reducible assumption
    | ((with_reducible apply orDec); rfl)
    | with_reducible intro _
    | with_reducible exact Fr.refl _ _ _
    | with_reducible apply Fr.ite
    | with_reducible apply Fr.step (State.runOrder_fr ..)

theorem execOrderSuspendPort_fr (n : Stall) (s : State) : ∃ t, execOrderSuspendPort n s = .next t ∧ Fr 17571964666 28421910042690324601972704151746540309562837708033753088 s t := by
  refine ⟨_, rfl, ?_⟩
  repeat' first
    | with_reducible assumption
    | ((with_reducible apply orDec); rfl)
    | with_reducible intro _
    | with_reducible exact Fr.refl _ _ _
    | with_reducible apply Fr.ite
    | with_reducible apply Fr.step (State.runOrder_fr ..)

theorem execOrderResumePort_fr (n : Stall) (s : State) : ∃ t, execOrderResumePort n s = .next t ∧ Fr 17571964666 28421910042690324601972704151746540309562837708033753088 s t := by
  refine ⟨_, rfl, ?_⟩
  repeat' first
    | with_reducible assumption
    | ((with_reducible apply orDec); rfl)
    | with_reducible intro _
    | with_reducible exact Fr.refl _ _ _
    | with_reducible apply Fr.ite
    | with_reducible apply Fr.step (State.runOrder_fr ..)
    | with_reducible apply Fr.when

theorem execOrderBusResumeStart_fr (slot : Fin 4) (s : State) : ∃ t, execOrderBusResumeStart slot s = .next t ∧ Fr 17571964666 28421910042690324601972704151746540309562837708033753088 s t := by
  refine ⟨_, rfl, ?_⟩
  repeat' first
    | with_reducible assumption
    | ((with_reducible apply orDec); rfl)
    | with_reducible intro _
    | with_reducible exact Fr.refl _ _ _
    | with_reducible apply Fr.ite
    | with_reducible apply Fr.step (State.runOrder_fr ..)

theorem execOrderBusResumeEnd_fr (slot : Fin 4) (s : State) : ∃ t, execOrderBusResumeEnd slot s = .next t ∧ Fr 17571964666 28421910042690324601972704151746540309562837708033753088 s t := by
  refine ⟨_, rfl, ?_⟩
  repeat' first
    | with_reducible assumption
    | ((with_reducible apply orDec); rfl)
    | with_reducible intro _
    | with_reducible exact Fr.refl _ _ _
    | with_reducible apply Fr.ite
    | with_reducible apply Fr.step (State.runOrder_fr ..)

theorem execOrderTest_fr (n : Stall) (s : State) : ∃ t, execOrderTest n s = .next t ∧ Fr 17571964666 28421910042690324601972704151746540309562837708033753088 s t := by
  refine ⟨_, rfl, ?_⟩
  repeat' first
    | with_reducible assumption
    | ((with_reducible apply orDec); rfl)
    | with_reducible intro _
    | with_reducible exact Fr.refl _ _ _
    | with_reducible apply Fr.ite
    | with_reducible apply Fr.step (State.runOrder_fr ..)

theorem execOrderL1Exit_fr (n : Stall) (s : State) : ∃ t, execOrderL1Exit n s = .next t ∧ Fr 17571964666 28421910042690324601972704151746540309562837708033753088 s t := by
  refine ⟨_, rfl, ?_⟩
  repeat' first
    | with_reducible assumption
    | ((with_reducible apply orDec); rfl)
    | with_reducible intro _
    | with_reducible exact Fr.refl _ _ _
    | with_reducible apply Fr.ite
    | with_reducible apply Fr.step (State.runOrder_fr ..)

theorem execPortResetEnd_fr (n : Stall) (speed : Fin 4) (s : State) : ∃ t, execPortResetEnd n speed s = .next t ∧ Fr 1967154 3069884189213583357758322931182216499948798666419994624 s t := by
  refine ⟨_, rfl, ?_⟩
  repeat' first
    | with_reducible assumption
    | ((with_reducible apply orDec); rfl)
    | ((with_reducible apply bitDec); rfl)
    | with_reducible intro _
    | with_reducible exact Fr.refl _ _ _
    | with_reducible apply Fr.ite
    | with_reducible apply Fr.step (State.hsState_fr ..)
    | with_reducible apply Fr.step (State.mirLocal_fr ..)
    | with_reducible apply Fr.p
    | with_reducible apply Fr.when
    | with_reducible apply Fr.hw
    | with_reducible apply Fr.mark
    | with_reducible apply HSH_PORT.reg
    | with_reducible apply HSH_PORT_EVT.reg
    | ((with_reducible apply HasReg.as); simp only [HSH_PORT.SPEED_addr, HSH_PORT_EVT.RESET_DONE_addr])

theorem execPortResumeEnd_fr (n : Stall) (s : State) : ∃ t, execPortResumeEnd n s = .next t ∧ Fr 1967154 3069884189213583357758322931182216499948798666419994624 s t := by
  refine ⟨_, rfl, ?_⟩
  repeat' first
    | with_reducible assumption
    | ((with_reducible apply orDec); rfl)
    | ((with_reducible apply bitDec); rfl)
    | with_reducible intro _
    | with_reducible exact Fr.refl _ _ _
    | with_reducible apply Fr.ite
    | with_reducible apply Fr.step (State.hsState_fr ..)
    | with_reducible apply Fr.step (State.mirLocal_fr ..)
    | with_reducible apply Fr.when
    | with_reducible apply Fr.out
    | with_reducible apply Fr.hw
    | with_reducible apply HSH_PORT_EVT.reg
    | ((with_reducible apply HasReg.as); simp only [HSH_PORT_EVT.RESUME_DONE_addr])

theorem execGlobalSuspend_fr (e : Fin 4) (s : State) : ∃ t, execGlobalSuspend e s = .next t ∧ Fr 409650 3069884189213583357758322931182216504558795834987118592 s t := by
  refine ⟨_, rfl, ?_⟩
  repeat' first
    | with_reducible assumption
    | ((with_reducible apply orDec); rfl)
    | with_reducible intro _
    | with_reducible exact Fr.refl _ _ _
    | with_reducible apply Fr.ite
    | with_reducible apply Fr.step (State.hsMod_fr ..)
    | with_reducible apply Fr.step (State.hsState_fr ..)
    | with_reducible apply Fr.step (State.engState_fr ..)
    | with_reducible apply Fr.step (State.upJudge_fr ..)
    | with_reducible apply Fr.when
    | with_reducible apply Fr.each

theorem execHostResumeDetected_fr (u : Fin 2) (s : State) : ∃ t, execHostResumeDetected u s = .next t ∧ Fr 51933865722 28421910042690324601972704151746540310733773611150082048 s t := by
  refine ⟨_, rfl, ?_⟩
  repeat' first
    | with_reducible assumption
    | ((with_reducible apply orDec); rfl)
    | with_reducible intro _
    | with_reducible exact Fr.refl _ _ _
    | with_reducible apply Fr.ite
    | with_reducible apply State.onWake_fr
    | with_reducible apply Fr.step (State.hostK_fr ..)
    | with_reducible apply Fr.when

theorem execHostResumeEnd_fr (u : Fin 2) (s : State) : ∃ t, execHostResumeEnd u s = .next t ∧ Fr 51933865722 28421910042690324601972704151746540310733773611150082048 s t := by
  refine ⟨_, rfl, ?_⟩
  repeat' first
    | with_reducible assumption
    | ((with_reducible apply orDec); rfl)
    | with_reducible intro _
    | with_reducible exact Fr.refl _ _ _
    | with_reducible apply Fr.ite
    | with_reducible apply Fr.step (State.issueAll_fr ..)
    | with_reducible apply Fr.when
    | split

theorem execRemoteWake_fr (src : Option CtrlHdr) (slot : Fin 4) (n : Stall) (s : State) : ∃ t, execRemoteWake src slot n s = .next t ∧ Fr 17571964666 28421910042690324601972704151746549754304845830951010304 s t := by
  refine ⟨_, rfl, ?_⟩
  repeat' first
    | with_reducible assumption
    | ((with_reducible apply orDec); rfl)
    | with_reducible intro _
    | with_reducible exact Fr.refl _ _ _
    | with_reducible apply Fr.ite
    | with_reducible apply State.rxCtrl_fr
    | with_reducible apply Fr.step (State.wakeUp_fr ..)
    | with_reducible apply State.onWake_fr
    | with_reducible apply Fr.step (State.deviceK_fr ..)
    | split

theorem execWakeHoldExpire_fr (u : Fin 2) (s : State) : ∃ t, execWakeHoldExpire u s = .next t ∧ Fr 16384 0 s t := by
  refine ⟨_, rfl, ?_⟩
  repeat' first
    | with_reducible assumption
    | ((with_reducible apply orDec); rfl)
    | with_reducible intro _
    | with_reducible exact Fr.refl _ _ _
    | with_reducible apply Fr.ite
    | with_reducible apply Fr.step (State.hsMod_fr ..)
    | with_reducible apply Fr.when
    | with_reducible apply Fr.out

theorem execLpmAck_fr (n : Channel) (besl : Fin 16) (rwe : Bool) (s : State) : ∃ t, execLpmAck n besl rwe s = .next t ∧ Fr 16384 1125899906842624 s t := by
  refine ⟨_, rfl, ?_⟩
  repeat' first
    | with_reducible assumption
    | ((with_reducible apply orDec); rfl)
    | ((with_reducible apply bitDec); rfl)
    | with_reducible intro _
    | with_reducible exact Fr.refl _ _ _
    | with_reducible apply Fr.ite
    | with_reducible apply Fr.step (State.hsMod_fr ..)
    | with_reducible apply Fr.p
    | with_reducible apply Fr.when
    | with_reducible apply HSH_PORT.reg
    | ((with_reducible apply HasReg.as); simp only [HSH_PORT.BESL_addr, HSH_PORT.RWE_addr])

theorem execL1Entry_fr (n : Channel) (s : State) : ∃ t, execL1Entry n s = .next t ∧ Fr 1983538 3069884189213583357758322931182216499949361616373415936 s t := by
  refine ⟨_, rfl, ?_⟩
  repeat' first
    | with_reducible assumption
    | ((with_reducible apply orDec); rfl)
    | ((with_reducible apply bitDec); rfl)
    | with_reducible intro _
    | with_reducible exact Fr.refl _ _ _
    | with_reducible apply Fr.ite
    | with_reducible apply Fr.step (State.hsMod_fr ..)
    | with_reducible apply Fr.step (State.mirLocal_fr ..)
    | with_reducible apply Fr.step (State.hsState_fr ..)
    | with_reducible apply Fr.step (State.engState_fr ..)
    | with_reducible apply Fr.when
    | with_reducible apply Fr.hw
    | with_reducible apply HSH_PORT_EVT.reg
    | ((with_reducible apply HasReg.as); simp only [HSH_PORT_EVT.L1_ENTER_addr])
    | split

theorem execDeviceL1Exit_fr (src : Option CtrlHdr) (slot : Fin 4) (n : Stall) (s : State) : ∃ t, execDeviceL1Exit src slot n s = .next t ∧ Fr 17571964666 28421910042690324601972704151746549754304845830951010304 s t := by
  refine ⟨_, rfl, ?_⟩
  repeat' first
    | with_reducible assumption
    | ((with_reducible apply orDec); rfl)
    | with_reducible intro _
    | with_reducible exact Fr.refl _ _ _
    | with_reducible apply Fr.ite
    | with_reducible apply State.rxCtrl_fr
    | with_reducible apply Fr.step (State.l1Wake_fr ..)
    | with_reducible apply State.onWake_fr
    | with_reducible apply Fr.step (State.deviceL1_fr ..)
    | split

theorem execHsConnectChange_fr (n : Stall) (present low : Bool) (s : State) : ∃ t, execHsConnectChange n present low s = .next t ∧ Fr 1983546 3069884189213583357758322931182216499948798666428383232 s t := by
  refine ⟨_, rfl, ?_⟩
  repeat' first
    | with_reducible assumption
    | ((with_reducible apply orDec); rfl)
    | with_reducible intro _
    | with_reducible exact Fr.refl _ _ _
    | with_reducible apply Fr.ite
    | with_reducible apply State.onWake_fr
    | with_reducible apply Fr.step (State.hsConnect_fr ..)

theorem execBabbleDisable_fr (n : Stall) (s : State) : ∃ t, execBabbleDisable n s = .next t ∧ Fr 17567737594 28421910042690324559437205422914278456371941658480082944 s t := by
  refine ⟨_, rfl, ?_⟩
  repeat' first
    | with_reducible assumption
    | ((with_reducible apply orDec); rfl)
    | ((with_reducible apply bitDec); rfl)
    | with_reducible intro _
    | with_reducible exact Fr.refl _ _ _
    | with_reducible apply Fr.ite
    | with_reducible apply Fr.step (State.hsState_fr ..)
    | with_reducible apply Fr.step (State.raise_fr ..)
    | with_reducible apply Fr.step (State.mirLocal_fr ..)
    | with_reducible apply Fr.when
    | with_reducible apply Fr.hw
    | with_reducible apply HSH_PORT_EVT.reg
    | ((with_reducible apply HasReg.as); simp only [HSH_PORT_EVT.BABBLE_addr])

theorem execFsUpstreamConnect_fr (u : Fin 2) (s : State) : ∃ t, execFsUpstreamConnect u s = .next t ∧ Fr 393266 3069884189213583357758322931182216499954991115907629056 s t := by
  refine ⟨_, rfl, ?_⟩
  repeat' first
    | with_reducible assumption
    | ((with_reducible apply orDec); rfl)
    | ((with_reducible apply bitDec); rfl)
    | with_reducible intro _
    | with_reducible exact Fr.refl _ _ _
    | with_reducible apply Fr.ite
    | with_reducible apply Fr.step (State.engState_fr ..)
    | with_reducible apply Fr.step (State.tellUp_fr ..)
    | with_reducible apply Fr.p
    | with_reducible apply Fr.when
    | with_reducible apply Fr.hw
    | with_reducible apply HSH_ENG.reg
    | with_reducible apply HSH_EVT.reg
    | ((with_reducible apply HasReg.as); simp only [HSH_ENG.SPEED_addr, HSH_EVT.FS_UPSTREAM_addr])
    | split

theorem execCarryLost_fr (k : Fin 4) (cut : Bool) (s : State) : ∃ t, execCarryLost k cut s = .next t ∧ Fr 51933865722 28421910042690324601972704151746540310733773611150082048 s t := by
  refine ⟨_, rfl, ?_⟩
  repeat' first
    | with_reducible assumption
    | ((with_reducible apply orDec); rfl)
    | ((with_reducible apply bitDec); rfl)
    | with_reducible intro _
    | with_reducible exact Fr.refl _ _ _
    | with_reducible apply Fr.ite
    | with_reducible apply Fr.step (State.raise_fr ..)
    | with_reducible apply Fr.step (State.linkJudge_fr ..)
    | with_reducible apply Fr.step (State.issue_fr ..)
    | with_reducible apply Fr.step (State.mirLocal_fr ..)
    | with_reducible apply Fr.step (State.unreset_fr ..)
    | with_reducible apply Fr.step (State.hsState_fr ..)
    | with_reducible apply Fr.p
    | with_reducible apply Fr.when
    | with_reducible apply Fr.each
    | with_reducible apply Fr.out
    | with_reducible apply Fr.hw
    | with_reducible apply Fr.withMirror
    | with_reducible apply HSH_PORT_EVT.reg
    | with_reducible apply HSH_CARRY.reg
    | ((with_reducible apply HasReg.as); simp only [HSH_CARRY.STATE_addr, HSH_PORT_EVT.CARRY_LOST_addr])

theorem execCarryReceiverActivity_fr (_k : Fin 4) (s : State) : ∃ t, execCarryReceiverActivity _k s = .next t ∧ Fr 50 4893107481805641041628876881595771524683695323611136 s t := by
  refine ⟨_, rfl, ?_⟩
  repeat' first
    | with_reducible assumption
    | ((with_reducible apply orDec); rfl)
    | with_reducible intro _
    | with_reducible exact Fr.refl _ _ _
    | with_reducible apply Fr.ite
    | with_reducible apply Fr.step (State.activity_fr ..)
    | with_reducible apply Fr.when
    | with_reducible apply Fr.each

theorem execUpstreamU3Entry_fr (u : Fin 2) (s : State) : ∃ t, execUpstreamU3Entry u s = .next t ∧ Fr 51933865722 28421910042690324601972704151746540310733773611150082048 s t := by
  refine ⟨_, rfl, ?_⟩
  repeat' first
    | with_reducible assumption
    | ((with_reducible apply orDec); rfl)
    | with_reducible intro _
    | with_reducible exact Fr.refl _ _ _
    | with_reducible apply Fr.ite
    | with_reducible apply Fr.step (State.issue_fr ..)
    | with_reducible apply Fr.step (State.upJudge_fr ..)
    | with_reducible apply Fr.step (State.ssLink_fr ..)
    | with_reducible apply Fr.foldl
    | with_reducible apply Fr.foldlSnd
    | with_reducible apply Fr.getD
    | split

theorem execWidthChangeStepDone_fr (u : Fin 2) (s : State) : ∃ t, execWidthChangeStepDone u s = .next t ∧ Fr 52068083450 6305523645429371088437762127359412956413089218075184594944 s t := by
  refine ⟨_, rfl, ?_⟩
  repeat' first
    | with_reducible assumption
    | ((with_reducible apply orDec); rfl)
    | ((with_reducible apply bitDec); rfl)
    | with_reducible intro _
    | with_reducible exact Fr.refl _ _ _
    | with_reducible apply Fr.ite
    | with_reducible apply Fr.step (State.dropUpstream_fr ..)
    | with_reducible apply Fr.step (State.ssLink_fr ..)
    | with_reducible apply Fr.step (State.issue_fr ..)
    | with_reducible apply Fr.step (State.setMux_fr ..)
    | with_reducible apply Fr.step (State.pdSend_fr ..)
    | with_reducible apply Fr.step (State.tellUp_fr ..)
    | with_reducible apply Fr.p
    | with_reducible apply Fr.when
    | with_reducible apply Fr.withDp
    | with_reducible apply Fr.foldl
    | with_reducible apply Fr.foldlSnd
    | with_reducible apply Fr.getD
    | with_reducible apply TCP_DP.reg
    | with_reducible apply STL_LANE.reg
    | ((with_reducible apply HasReg.as); simp only [STL_LANE.STATE_addr, TCP_DP.MUX_addr, TCP_DP.PINS_addr, TCP_DP.STATE_addr])
    | split
    | dsimp only

theorem execBc12SwitchStart_fr (n : Stall) (s : State) : ∃ t, execBc12SwitchStart n s = .next t ∧ Fr 16576 85070672859873030472526473546854039552 s t := by
  refine ⟨_, rfl, ?_⟩
  repeat' first
    | with_reducible assumption
    | ((with_reducible apply orDec); rfl)
    | with_reducible intro _
    | with_reducible exact Fr.refl _ _ _
    | with_reducible apply Fr.ite
    | with_reducible apply Fr.step (State.bcJudge_fr ..)

theorem execBc12SwitchWaitEnd_fr (n : Stall) (s : State) : ∃ t, execBc12SwitchWaitEnd n s = .next t ∧ Fr 17567737594 28421910042690324601972704112127622905998007059963969536 s t := by
  refine ⟨_, rfl, ?_⟩
  repeat' first
    | with_reducible assumption
    | ((with_reducible apply orDec); rfl)
    | ((with_reducible apply bitDec); rfl)
    | with_reducible intro _
    | with_reducible exact Fr.refl _ _ _
    | with_reducible apply Fr.ite
    | with_reducible apply Fr.step (State.hsGone_fr ..)
    | with_reducible apply Fr.step (State.tryRamp_fr ..)
    | with_reducible apply Fr.step (State.bcJudge_fr ..)
    | with_reducible apply Fr.step (State.chMod_fr ..)
    | with_reducible apply Fr.p
    | with_reducible apply Fr.when
    | with_reducible apply Fr.hw
    | with_reducible apply HSH_PORT.reg
    | with_reducible apply HSH_PORT_EVT.reg
    | ((with_reducible apply HasReg.as); simp only [HSH_PORT.BC_addr, HSH_PORT.CONNECT_addr, HSH_PORT_EVT.BC_SWITCH_addr, HSH_PORT_EVT.CONN_CHG_addr])

theorem execVdpSrcDetected_fr (n : Stall) (s : State) : ∃ t, execVdpSrcDetected n s = .next t ∧ Fr 0 0 s t := by
  refine ⟨_, rfl, ?_⟩
  repeat' first
    | with_reducible assumption
    | with_reducible intro _
    | with_reducible exact Fr.refl _ _ _
    | with_reducible apply Fr.ite
    | with_reducible apply Fr.when
    | with_reducible apply Fr.out

end Sys2Proof.Machine
end

