-- ==== Sys2Proof/Laws/ExYard.lean ====
section
/-!
SUPPORT. Every command of Sys2Proof/Machine/Yard.lean answers a next state, and what may have changed in it.
-/
namespace Sys2Proof.Machine

theorem execSofReceived_fr (u : Fin 2) (frame : Fin 2048) (rate : Int) (s : State) : ∃ t, execSofReceived u frame rate s = .next t ∧ Fr 17213423662 4893107481783862970145936819934115549808062162278656 s t := by
  refine ⟨_, rfl, ?_⟩
  repeat' first
    | with_reducible assumption
    | ((with_reducible apply orDec); rfl)
    | with_reducible intro _
    | with_reducible exact Fr.refl _ _ _
    | with_reducible apply Fr.ite
    | with_reducible apply Fr.step (State.sofReceived_fr ..)

theorem execItpReceived_fr (u : Fin 2) (bic : Fin 16384) (delta : Nat) (res : List ItpOut) (rate : Int) (s : State) : ∃ t, execItpReceived u bic delta res rate s = .next t ∧ Fr 17213816878 3069884189213561579686839991120554843970545342128068864 s t := by
  refine ⟨_, rfl, ?_⟩
  repeat' first
    | with_reducible assumption
    | ((with_reducible apply orDec); rfl)
    | with_reducible intro _
    | with_reducible exact Fr.refl _ _ _
    | with_reducible apply Fr.ite
    | with_reducible apply Fr.step (State.itpReceived_fr ..)

theorem execYardCoast_fr (y : Fin 4) (s : State) : ∃ t, execYardCoast y s = .next t ∧ Fr 17567737598 28421910042690324559437205422914278456369689858666397952 s t := by
  refine ⟨_, rfl, ?_⟩
  repeat' first
    | with_reducible assumption
    | ((with_reducible apply orDec); rfl)
    | with_reducible intro _
    | with_reducible exact Fr.refl _ _ _
    | with_reducible apply Fr.ite
    | with_reducible apply Fr.step (State.yardCoast_fr ..)
    | with_reducible apply Fr.when

theorem execBarnTimeBroadcast_fr (s : State) : ∃ t, execBarnTimeBroadcast s = .next t ∧ Fr 393216 3069854959180814961628475917423900518310152214878879744 s t := by
  refine ⟨_, rfl, ?_⟩
  repeat' first
    | with_reducible assumption
    | ((with_reducible apply orDec); rfl)
    | with_reducible intro _
    | with_reducible exact Fr.refl _ _ _
    | with_reducible apply Fr.ite
    | with_reducible apply Fr.step (State.ctrlAll_fr ..)
    | with_reducible apply Fr.when
    | with_reducible apply Fr.each

theorem execBarnTimeReceived_fr (h : BaleHdr) (value hops : Nat) (rate : Int) (s : State) : ∃ t, execBarnTimeReceived h value hops rate s = .next t ∧ Fr 17567737598 28421910042690324559437205422914287901102690782328928512 s t := by
  refine ⟨_, rfl, ?_⟩
  repeat' first
    | with_reducible assumption
    | ((with_reducible apply orDec); rfl)
    | with_reducible intro _
    | with_reducible exact Fr.refl _ _ _
    | with_reducible apply Fr.ite
    | with_reducible apply Fr.step (State.barnTimeReceived_fr ..)

theorem execYardDescriptorReceived_fr (c : CtrlHdr) (y : Fin 4) (value rate : Nat) (st : Fin 4) (coarse : Bool) (s : State) : ∃ t, execYardDescriptorReceived c y value rate st coarse s = .next t ∧ Fr 17567737598 28421910042690324559437205422914287901102690782328920320 s t := by
  refine ⟨_, rfl, ?_⟩
  repeat' first
    | with_reducible assumption
    | ((with_reducible apply orDec); rfl)
    | with_reducible intro _
    | with_reducible exact Fr.refl _ _ _
    | with_reducible apply Fr.ite
    | with_reducible apply Fr.step (State.yardDescriptorReceived_fr ..)

theorem execYardDescriptorTimeout_fr (y : Fin 4) (s : State) : ∃ t, execYardDescriptorTimeout y s = .next t ∧ Fr 0 256 s t := by
  refine ⟨_, rfl, ?_⟩
  repeat' first
    | with_reducible assumption
    | ((with_reducible apply bitDec); rfl)
    | with_reducible intro _
    | with_reducible exact Fr.refl _ _ _
    | with_reducible apply Fr.ite
    | with_reducible apply Fr.p
    | with_reducible apply Fr.when
    | with_reducible apply YRD_STATUS.reg
    | ((with_reducible apply HasReg.as); simp only [YRD_STATUS.STALE_addr])

end Sys2Proof.Machine
end

