-- ==== Sys2Proof/Laws/RegKept.lean ====
section
/-!
SUPPORT. A register outside the mask of a frame keeps its word: which array of registers an address belongs to, and one lemma
per register.
-/
namespace Sys2Proof.Machine

/-- One array of registers: its base, the distance of its members, their number and its place in `Reg`. -/
structure RegArr where
  base : Nat
  step : Nat
  count : Nat
  ix : Nat

/-- Is the address that of a member? -/
def RegArr.mem (r : RegArr) (a : Nat) : Bool :=
  decide (r.base ≤ a) && decide ((a - r.base) % r.step = 0) && decide ((a - r.base) / r.step < r.count)

/-- The arrays of a block. -/
def blockArr : Nat → List RegArr
  | 0 => [⟨0x0, 4, 1, 182⟩,
      ⟨0x4, 4, 1, 183⟩,
      ⟨0x8, 4, 1, 184⟩,
      ⟨0xc, 4, 1, 185⟩,
      ⟨0x10, 4, 1, 186⟩,
      ⟨0x1004, 4, 1, 187⟩,
      ⟨0x14, 4, 2, 188⟩,
      ⟨0x1c, 4, 1, 189⟩,
      ⟨0x20, 4, 1, 190⟩]
  | 1 => [⟨0x10000, 4, 1, 0⟩,
      ⟨0x10004, 4, 1, 1⟩,
      ⟨0x10008, 4, 1, 2⟩,
      ⟨0x1000c, 4, 1, 3⟩,
      ⟨0x10010, 4, 1, 4⟩,
      ⟨0x10020, 4, 2, 5⟩,
      ⟨0x10040, 4, 8, 6⟩]
  | 2 => [⟨0x20000, 4, 1, 7⟩,
      ⟨0x20010, 4, 5, 8⟩,
      ⟨0x20040, 8, 5, 9⟩,
      ⟨0x20044, 8, 5, 10⟩,
      ⟨0x20080, 4, 5, 11⟩,
      ⟨0x200a0, 4, 5, 12⟩,
      ⟨0x200c0, 4, 1, 13⟩]
  | 3 => [⟨0x30000, 4, 1, 14⟩,
      ⟨0x30004, 4, 1, 15⟩,
      ⟨0x30008, 4, 1, 16⟩,
      ⟨0x3000c, 4, 1, 17⟩,
      ⟨0x30010, 4, 1, 18⟩,
      ⟨0x30014, 4, 1, 19⟩,
      ⟨0x30018, 4, 1, 20⟩,
      ⟨0x30020, 4, 1, 21⟩,
      ⟨0x30040, 4, 12, 22⟩,
      ⟨0x30080, 4, 15, 23⟩,
      ⟨0x31000, 4, 1, 24⟩]
  | 4 => [⟨0x40000, 4, 1, 25⟩,
      ⟨0x40010, 4, 8, 26⟩,
      ⟨0x40040, 4, 17, 27⟩,
      ⟨0x40090, 4, 15, 28⟩,
      ⟨0x400d0, 4, 17, 29⟩,
      ⟨0x40120, 4, 1, 30⟩,
      ⟨0x40130, 4, 2, 31⟩,
      ⟨0x40140, 4, 2, 32⟩,
      ⟨0x40150, 4, 2, 33⟩,
      ⟨0x40158, 4, 1, 34⟩,
      ⟨0x41000, 4, 1, 35⟩,
      ⟨0x41004, 4, 1, 36⟩]
  | 5 => [⟨0x50000, 4, 1, 37⟩,
      ⟨0x50004, 4, 1, 38⟩,
      ⟨0x50008, 4, 1, 39⟩,
      ⟨0x5000c, 4, 1, 40⟩,
      ⟨0x50010, 4, 8, 41⟩,
      ⟨0x50040, 4, 22, 42⟩,
      ⟨0x500a0, 4, 22, 43⟩,
      ⟨0x50100, 4, 1, 44⟩,
      ⟨0x50104, 4, 1, 45⟩,
      ⟨0x51000, 4, 1, 46⟩,
      ⟨0x51004, 4, 1, 47⟩]
  | 6 => [⟨0x60000, 4, 1, 48⟩,
      ⟨0x60010, 4, 4, 49⟩,
      ⟨0x60040, 4, 15, 50⟩,
      ⟨0x60080, 4, 15, 51⟩,
      ⟨0x600c0, 4, 4, 52⟩,
      ⟨0x60100, 4, 1, 53⟩,
      ⟨0x60104, 4, 1, 54⟩,
      ⟨0x61000, 4, 1, 55⟩]
  | 7 => [⟨0x70000, 4, 1, 56⟩,
      ⟨0x70010, 4, 15, 57⟩,
      ⟨0x70050, 4, 15, 58⟩,
      ⟨0x70090, 4, 15, 59⟩,
      ⟨0x700d0, 4, 1, 60⟩,
      ⟨0x71000, 4, 1, 61⟩]
  | 8 => [⟨0x80000, 4, 2, 62⟩,
      ⟨0x80010, 4, 1, 63⟩,
      ⟨0x80014, 4, 1, 64⟩,
      ⟨0x80018, 4, 1, 65⟩,
      ⟨0x8001c, 4, 1, 66⟩,
      ⟨0x80020, 4, 1, 67⟩,
      ⟨0x80024, 4, 1, 68⟩,
      ⟨0x81000, 4, 1, 69⟩]
  | 9 => [⟨0x90000, 4, 15, 191⟩,
      ⟨0x90040, 4, 28, 192⟩]
  | 10 => [⟨0xa0000, 4, 1, 70⟩,
      ⟨0xa0010, 16, 4, 71⟩,
      ⟨0xa0014, 16, 4, 72⟩,
      ⟨0xa0018, 16, 4, 73⟩,
      ⟨0xa001c, 16, 4, 74⟩,
      ⟨0xa0050, 4, 4, 75⟩,
      ⟨0xa0060, 4, 1, 76⟩,
      ⟨0xa1000, 4, 1, 77⟩]
  | 11 => [⟨0xb0000, 4, 1, 78⟩,
      ⟨0xb0004, 4, 1, 79⟩,
      ⟨0xb0010, 4, 8, 80⟩,
      ⟨0xb0040, 4, 4, 81⟩,
      ⟨0xb0050, 4, 1, 82⟩,
      ⟨0xb0054, 4, 1, 83⟩,
      ⟨0xb0058, 4, 1, 84⟩,
      ⟨0xb005c, 4, 1, 85⟩,
      ⟨0xb0060, 4, 1, 86⟩,
      ⟨0xb0064, 4, 1, 87⟩,
      ⟨0xb1000, 4, 1, 88⟩,
      ⟨0xb1004, 4, 1, 89⟩]
  | 12 => [⟨0xc0000, 4, 1, 90⟩,
      ⟨0xc0040, 4, 17, 91⟩,
      ⟨0xc0090, 4, 17, 92⟩,
      ⟨0xc00e0, 4, 17, 93⟩,
      ⟨0xc0130, 4, 17, 94⟩,
      ⟨0xc0180, 4, 17, 95⟩,
      ⟨0xc01d0, 4, 2, 96⟩,
      ⟨0xc1000, 4, 1, 97⟩]
  | 13 => [⟨0xd0000, 4, 1, 98⟩,
      ⟨0xd0004, 4, 1, 99⟩,
      ⟨0xd0008, 4, 1, 100⟩,
      ⟨0xd000c, 4, 1, 101⟩,
      ⟨0xd0040, 32, 17, 102⟩,
      ⟨0xd0044, 32, 17, 103⟩,
      ⟨0xd0048, 32, 17, 104⟩,
      ⟨0xd004c, 32, 17, 105⟩,
      ⟨0xd0050, 32, 17, 106⟩,
      ⟨0xd0054, 32, 17, 107⟩,
      ⟨0xd1000, 4, 1, 108⟩]
  | 14 => [⟨0xe0000, 4, 1, 109⟩,
      ⟨0xe0004, 4, 1, 110⟩,
      ⟨0xe0008, 4, 1, 111⟩,
      ⟨0xe000c, 4, 1, 112⟩,
      ⟨0xe0010, 4, 1, 113⟩,
      ⟨0xe0040, 32, 17, 114⟩,
      ⟨0xe0044, 32, 17, 115⟩,
      ⟨0xe0048, 32, 17, 116⟩,
      ⟨0xe004c, 32, 17, 117⟩,
      ⟨0xe0050, 32, 17, 118⟩,
      ⟨0xe0054, 32, 17, 119⟩,
      ⟨0xe0058, 32, 17, 120⟩,
      ⟨0xe005c, 32, 17, 121⟩]
  | 15 => [⟨0xf0000, 4, 1, 122⟩,
      ⟨0xf0004, 4, 1, 123⟩,
      ⟨0xf0008, 4, 1, 124⟩,
      ⟨0xf000c, 4, 1, 125⟩,
      ⟨0xf0040, 4, 17, 126⟩,
      ⟨0xf0090, 4, 17, 127⟩,
      ⟨0xf1000, 4, 1, 128⟩,
      ⟨0xf1004, 4, 1, 129⟩]
  | 16 => [⟨0x100000, 4, 1, 130⟩,
      ⟨0x100004, 4, 1, 131⟩,
      ⟨0x100008, 4, 1, 132⟩,
      ⟨0x10000c, 4, 1, 133⟩,
      ⟨0x100040, 4, 12, 134⟩,
      ⟨0x100080, 4, 12, 135⟩,
      ⟨0x1000c0, 4, 12, 136⟩,
      ⟨0x100100, 8, 12, 137⟩,
      ⟨0x100104, 8, 12, 138⟩,
      ⟨0x101000, 4, 1, 139⟩]
  | 17 => [⟨0x110600, 16, 12, 142⟩,
      ⟨0x110604, 16, 12, 143⟩,
      ⟨0x110608, 16, 12, 144⟩,
      ⟨0x11060c, 16, 12, 145⟩,
      ⟨0x110700, 4, 12, 146⟩,
      ⟨0x110800, 4, 16, 147⟩,
      ⟨0x110840, 4, 1, 148⟩,
      ⟨0x110844, 4, 1, 149⟩,
      ⟨0x110850, 4, 1, 150⟩,
      ⟨0x111000, 4, 1, 151⟩]
  | 18 => [⟨0x120000, 4, 1, 152⟩,
      ⟨0x120010, 4, 2, 153⟩,
      ⟨0x120020, 4, 2, 154⟩,
      ⟨0x120030, 4, 1, 155⟩,
      ⟨0x120034, 4, 1, 156⟩,
      ⟨0x120038, 4, 1, 157⟩,
      ⟨0x120040, 4, 1, 158⟩,
      ⟨0x121000, 4, 1, 159⟩]
  | 19 => [⟨0x130000, 4, 1, 172⟩,
      ⟨0x130004, 4, 1, 173⟩,
      ⟨0x130008, 4, 1, 174⟩,
      ⟨0x130010, 4, 4, 175⟩,
      ⟨0x130020, 4, 1, 176⟩,
      ⟨0x130040, 4, 8, 177⟩,
      ⟨0x130060, 4, 4, 178⟩,
      ⟨0x130100, 4, 128, 179⟩,
      ⟨0x131000, 4, 1, 180⟩,
      ⟨0x131004, 4, 1, 181⟩]
  | 20 => [⟨0x140000, 32, 4, 160⟩,
      ⟨0x140004, 32, 4, 161⟩,
      ⟨0x140008, 32, 4, 162⟩,
      ⟨0x14000c, 32, 4, 163⟩,
      ⟨0x140080, 4, 4, 164⟩,
      ⟨0x140100, 4, 1, 165⟩,
      ⟨0x140104, 4, 1, 166⟩,
      ⟨0x140110, 4, 1, 167⟩,
      ⟨0x140114, 4, 1, 168⟩,
      ⟨0x140140, 16, 8, 169⟩,
      ⟨0x140144, 16, 8, 170⟩,
      ⟨0x140148, 16, 8, 171⟩]
  | 21 => [⟨0x150000, 4, 32, 193⟩,
      ⟨0x150080, 4, 1, 194⟩,
      ⟨0x150084, 4, 1, 195⟩]
  | _ => []

/-- The place in `Reg` of the array an address belongs to; 197 for none. -/
def regIx (a : Nat) : Nat :=
  if 0x110000 ≤ a ∧ a < 0x110600 then (if a % 0x80 < 0x40 then 140 else 141)
  else (((blockArr (a / 65536)).find? fun r => r.mem a).map RegArr.ix).getD 197

theorem PLN_STATUS.ix : regIx PLN_STATUS.addr = 0 := by decide
theorem PLN_ACTIVE_ID.ix : regIx PLN_ACTIVE_ID.addr = 1 := by decide
theorem PLN_ACTIVE_BUILD.ix : regIx PLN_ACTIVE_BUILD.addr = 2 := by decide
theorem PLN_FLOOR.ix : regIx PLN_FLOOR.addr = 3 := by decide
theorem PLN_KEYS.ix : regIx PLN_KEYS.addr = 4 := by decide
theorem PLN_SLOT_SEQ.ix : ∀ n, n < 2 → regIx (PLN_SLOT_SEQ.addr n) = 5 := by decide
theorem PLN_HASH.ix : ∀ n, n < 8 → regIx (PLN_HASH.addr n) = 6 := by decide
theorem YRD_CTRL.ix : regIx YRD_CTRL.addr = 7 := by decide
theorem YRD_STATUS.ix : ∀ n, n < 5 → regIx (YRD_STATUS.addr n) = 8 := by decide
theorem YRD_NOW_LO.ix : ∀ n, n < 5 → regIx (YRD_NOW_LO.addr n) = 9 := by decide
theorem YRD_NOW_HI.ix : ∀ n, n < 5 → regIx (YRD_NOW_HI.addr n) = 10 := by decide
theorem YRD_RATE.ix : ∀ n, n < 5 → regIx (YRD_RATE.addr n) = 11 := by decide
theorem YRD_STEP.ix : ∀ n, n < 5 → regIx (YRD_STEP.addr n) = 12 := by decide
theorem YRD_BARN.ix : regIx YRD_BARN.addr = 13 := by decide
theorem TML_CTRL.ix : regIx TML_CTRL.addr = 14 := by decide
theorem TML_SEL.ix : regIx TML_SEL.addr = 15 := by decide
theorem TML_E_TIME_LO.ix : regIx TML_E_TIME_LO.addr = 16 := by decide
theorem TML_E_TIME_HI.ix : regIx TML_E_TIME_HI.addr = 17 := by decide
theorem TML_E_CTRL.ix : regIx TML_E_CTRL.addr = 18 := by decide
theorem TML_E_REPEAT.ix : regIx TML_E_REPEAT.addr = 19 := by decide
theorem TML_E_ARG.ix : regIx TML_E_ARG.addr = 20 := by decide
theorem TML_STATUS.ix : regIx TML_STATUS.addr = 21 := by decide
theorem TML_PRED.ix : ∀ n, n < 12 → regIx (TML_PRED.addr n) = 22 := by decide
theorem TML_PAT.ix : ∀ n, n < 15 → regIx (TML_PAT.addr n) = 23 := by decide
theorem TML_LEAD.ix : regIx TML_LEAD.addr = 24 := by decide
theorem SSH_CTRL.ix : regIx SSH_CTRL.addr = 25 := by decide
theorem SSH_CTX.ix : ∀ n, n < 8 → regIx (SSH_CTX.addr n) = 26 := by decide
theorem SSH_PORT.ix : ∀ n, n < 17 → regIx (SSH_PORT.addr n) = 27 := by decide
theorem SSH_PORT_LPM.ix : ∀ n, n < 15 → regIx (SSH_PORT_LPM.addr n) = 28 := by decide
theorem SSH_PORT_EVT.ix : ∀ n, n < 17 → regIx (SSH_PORT_EVT.addr n) = 29 := by decide
theorem SSH_DROPS.ix : regIx SSH_DROPS.addr = 30 := by decide
theorem SSH_USP_LPM.ix : ∀ n, n < 2 → regIx (SSH_USP_LPM.addr n) = 31 := by decide
theorem SSH_PTM.ix : ∀ n, n < 2 → regIx (SSH_PTM.addr n) = 32 := by decide
theorem SSH_ITP.ix : ∀ n, n < 2 → regIx (SSH_ITP.addr n) = 33 := by decide
theorem SSH_ITP_REGEN.ix : regIx SSH_ITP_REGEN.addr = 34 := by decide
theorem SSH_X_TUNE.ix : regIx SSH_X_TUNE.addr = 35 := by decide
theorem SSH_X_VOTE.ix : regIx SSH_X_VOTE.addr = 36 := by decide
theorem PBF_CTRL.ix : regIx PBF_CTRL.addr = 37 := by decide
theorem PBF_STATUS.ix : regIx PBF_STATUS.addr = 38 := by decide
theorem PBF_SHARED.ix : regIx PBF_SHARED.addr = 39 := by decide
theorem PBF_SHARED_FREE.ix : regIx PBF_SHARED_FREE.addr = 40 := by decide
theorem PBF_BANK_FREE.ix : ∀ n, n < 8 → regIx (PBF_BANK_FREE.addr n) = 41 := by decide
theorem PBF_RESV.ix : ∀ n, n < 22 → regIx (PBF_RESV.addr n) = 42 := by decide
theorem PBF_USED.ix : ∀ n, n < 22 → regIx (PBF_USED.addr n) = 43 := by decide
theorem PBF_EVT.ix : regIx PBF_EVT.addr = 44 := by decide
theorem PBF_ECC_COUNT.ix : regIx PBF_ECC_COUNT.addr = 45 := by decide
theorem PBF_X_TUNE.ix : regIx PBF_X_TUNE.addr = 46 := by decide
theorem PBF_X_ARB.ix : regIx PBF_X_ARB.addr = 47 := by decide
theorem HSH_CTRL.ix : regIx HSH_CTRL.addr = 48 := by decide
theorem HSH_ENG.ix : ∀ n, n < 4 → regIx (HSH_ENG.addr n) = 49 := by decide
theorem HSH_PORT.ix : ∀ n, n < 15 → regIx (HSH_PORT.addr n) = 50 := by decide
theorem HSH_PORT_EVT.ix : ∀ n, n < 15 → regIx (HSH_PORT_EVT.addr n) = 51 := by decide
theorem HSH_CARRY.ix : ∀ n, n < 4 → regIx (HSH_CARRY.addr n) = 52 := by decide
theorem HSH_EVT.ix : regIx HSH_EVT.addr = 53 := by decide
theorem HSH_ORDERS.ix : regIx HSH_ORDERS.addr = 54 := by decide
theorem HSH_X_TUNE.ix : regIx HSH_X_TUNE.addr = 55 := by decide
theorem TTA_CTRL.ix : regIx TTA_CTRL.addr = 56 := by decide
theorem TTA_TT.ix : ∀ n, n < 15 → regIx (TTA_TT.addr n) = 57 := by decide
theorem TTA_EVT.ix : ∀ n, n < 15 → regIx (TTA_EVT.addr n) = 58 := by decide
theorem TTA_COUNT.ix : ∀ n, n < 15 → regIx (TTA_COUNT.addr n) = 59 := by decide
theorem TTA_CMD.ix : regIx TTA_CMD.addr = 60 := by decide
theorem TTA_X_TUNE.ix : regIx TTA_X_TUNE.addr = 61 := by decide
theorem UPP_PADDOCK.ix : ∀ n, n < 2 → regIx (UPP_PADDOCK.addr n) = 62 := by decide
theorem UPP_MIR_SEL.ix : regIx UPP_MIR_SEL.addr = 63 := by decide
theorem UPP_MIR_HS.ix : regIx UPP_MIR_HS.addr = 64 := by decide
theorem UPP_MIR_SS.ix : regIx UPP_MIR_SS.addr = 65 := by decide
theorem UPP_MIR_INFO.ix : regIx UPP_MIR_INFO.addr = 66 := by decide
theorem UPP_HANDOFF.ix : regIx UPP_HANDOFF.addr = 67 := by decide
theorem UPP_EVT.ix : regIx UPP_EVT.addr = 68 := by decide
theorem UPP_X_HANDOFF.ix : regIx UPP_X_HANDOFF.addr = 69 := by decide
theorem GLK_CTRL.ix : regIx GLK_CTRL.addr = 70 := by decide
theorem GLK_LINK.ix : ∀ n, n < 4 → regIx (GLK_LINK.addr n) = 71 := by decide
theorem GLK_DELAY.ix : ∀ n, n < 4 → regIx (GLK_DELAY.addr n) = 72 := by decide
theorem GLK_ERR.ix : ∀ n, n < 4 → regIx (GLK_ERR.addr n) = 73 := by decide
theorem GLK_EVT.ix : ∀ n, n < 4 → regIx (GLK_EVT.addr n) = 74 := by decide
theorem GLK_HB.ix : ∀ n, n < 4 → regIx (GLK_HB.addr n) = 75 := by decide
theorem GLK_WAKE.ix : regIx GLK_WAKE.addr = 76 := by decide
theorem GLK_X_TUNE.ix : regIx GLK_X_TUNE.addr = 77 := by decide
theorem DRV_CTRL.ix : regIx DRV_CTRL.addr = 78 := by decide
theorem DRV_BARN.ix : regIx DRV_BARN.addr = 79 := by decide
theorem DRV_ROUTE.ix : ∀ n, n < 8 → regIx (DRV_ROUTE.addr n) = 80 := by decide
theorem DRV_LOAD.ix : ∀ n, n < 4 → regIx (DRV_LOAD.addr n) = 81 := by decide
theorem DRV_FLOWS.ix : regIx DRV_FLOWS.addr = 82 := by decide
theorem DRV_REBAL.ix : regIx DRV_REBAL.addr = 83 := by decide
theorem DRV_SEED_LO.ix : regIx DRV_SEED_LO.addr = 84 := by decide
theorem DRV_SEED_HI.ix : regIx DRV_SEED_HI.addr = 85 := by decide
theorem DRV_REROUTE.ix : regIx DRV_REROUTE.addr = 86 := by decide
theorem DRV_EVT.ix : regIx DRV_EVT.addr = 87 := by decide
theorem DRV_X_WRR.ix : regIx DRV_X_WRR.addr = 88 := by decide
theorem DRV_X_REBAL.ix : regIx DRV_X_REBAL.addr = 89 := by decide
theorem TCP_CTRL.ix : regIx TCP_CTRL.addr = 90 := by decide
theorem TCP_PORT.ix : ∀ n, n < 17 → regIx (TCP_PORT.addr n) = 91 := by decide
theorem TCP_CONTRACT.ix : ∀ n, n < 17 → regIx (TCP_CONTRACT.addr n) = 92 := by decide
theorem TCP_VSET.ix : ∀ n, n < 17 → regIx (TCP_VSET.addr n) = 93 := by decide
theorem TCP_CABLE.ix : ∀ n, n < 17 → regIx (TCP_CABLE.addr n) = 94 := by decide
theorem TCP_EVT.ix : ∀ n, n < 17 → regIx (TCP_EVT.addr n) = 95 := by decide
theorem TCP_DP.ix : ∀ n, n < 2 → regIx (TCP_DP.addr n) = 96 := by decide
theorem TCP_X_TIMER.ix : regIx TCP_X_TIMER.addr = 97 := by decide
theorem PPW_CTRL.ix : regIx PPW_CTRL.addr = 98 := by decide
theorem PPW_PG.ix : regIx PPW_PG.addr = 99 := by decide
theorem PPW_SEAT.ix : regIx PPW_SEAT.addr = 100 := by decide
theorem PPW_CLEAR.ix : regIx PPW_CLEAR.addr = 101 := by decide
theorem PPW_RAMP.ix : ∀ n, n < 17 → regIx (PPW_RAMP.addr n) = 102 := by decide
theorem PPW_LIMIT.ix : ∀ n, n < 17 → regIx (PPW_LIMIT.addr n) = 103 := by decide
theorem PPW_TRIP.ix : ∀ n, n < 17 → regIx (PPW_TRIP.addr n) = 104 := by decide
theorem PPW_RETRY.ix : ∀ n, n < 17 → regIx (PPW_RETRY.addr n) = 105 := by decide
theorem PPW_STATUS.ix : ∀ n, n < 17 → regIx (PPW_STATUS.addr n) = 106 := by decide
theorem PPW_EVT.ix : ∀ n, n < 17 → regIx (PPW_EVT.addr n) = 107 := by decide
theorem PPW_X_GATE.ix : regIx PPW_X_GATE.addr = 108 := by decide
theorem TLM_CTRL.ix : regIx TLM_CTRL.addr = 109 := by decide
theorem TLM_ECLR.ix : regIx TLM_ECLR.addr = 110 := by decide
theorem TLM_INPUT.ix : regIx TLM_INPUT.addr = 111 := by decide
theorem TLM_TEMP.ix : regIx TLM_TEMP.addr = 112 := by decide
theorem TLM_INWARN.ix : regIx TLM_INWARN.addr = 113 := by decide
theorem TLM_INST.ix : ∀ n, n < 17 → regIx (TLM_INST.addr n) = 114 := by decide
theorem TLM_AVG1MS.ix : ∀ n, n < 17 → regIx (TLM_AVG1MS.addr n) = 115 := by decide
theorem TLM_AVG100MS.ix : ∀ n, n < 17 → regIx (TLM_AVG100MS.addr n) = 116 := by decide
theorem TLM_AVG1S.ix : ∀ n, n < 17 → regIx (TLM_AVG1S.addr n) = 117 := by decide
theorem TLM_PWR.ix : ∀ n, n < 17 → regIx (TLM_PWR.addr n) = 118 := by decide
theorem TLM_ENERGY_LO.ix : ∀ n, n < 17 → regIx (TLM_ENERGY_LO.addr n) = 119 := by decide
theorem TLM_ENERGY_HI.ix : ∀ n, n < 17 → regIx (TLM_ENERGY_HI.addr n) = 120 := by decide
theorem TLM_PEAK.ix : ∀ n, n < 17 → regIx (TLM_PEAK.addr n) = 121 := by decide
theorem BUD_CTRL.ix : regIx BUD_CTRL.addr = 122 := by decide
theorem BUD_STATUS.ix : regIx BUD_STATUS.addr = 123 := by decide
theorem BUD_STATE.ix : regIx BUD_STATE.addr = 124 := by decide
theorem BUD_EVT.ix : regIx BUD_EVT.addr = 125 := by decide
theorem BUD_PORT.ix : ∀ n, n < 17 → regIx (BUD_PORT.addr n) = 126 := by decide
theorem BUD_RLIM.ix : ∀ n, n < 17 → regIx (BUD_RLIM.addr n) = 127 := by decide
theorem BUD_X_CTRL.ix : regIx BUD_X_CTRL.addr = 128 := by decide
theorem BUD_X_WARN.ix : regIx BUD_X_WARN.addr = 129 := by decide
theorem PDC_CTRL.ix : regIx PDC_CTRL.addr = 130 := by decide
theorem PDC_STATE.ix : regIx PDC_STATE.addr = 131 := by decide
theorem PDC_STICKY.ix : regIx PDC_STICKY.addr = 132 := by decide
theorem PDC_XTAL.ix : regIx PDC_XTAL.addr = 133 := by decide
theorem PDC_DOM.ix : ∀ n, n < 12 → regIx (PDC_DOM.addr n) = 134 := by decide
theorem PDC_VOTE.ix : ∀ n, n < 12 → regIx (PDC_VOTE.addr n) = 135 := by decide
theorem PDC_MYVOTE.ix : ∀ n, n < 12 → regIx (PDC_MYVOTE.addr n) = 136 := by decide
theorem PDC_CFG.ix : ∀ n, n < 12 → regIx (PDC_CFG.addr n) = 137 := by decide
theorem PDC_RETUS.ix : ∀ n, n < 12 → regIx (PDC_RETUS.addr n) = 138 := by decide
theorem PDC_X_TIME.ix : regIx PDC_X_TIME.addr = 139 := by decide
theorem MBX_IN_W.ix {c w : Nat} (h : c < 12 ∧ w < 16) : regIx (MBX_IN_W.addr c w) = 140 := by
  unfold regIx MBX_IN_W.addr; rw [if_pos h]; split
  · split <;> omega
  · omega
theorem MBX_OUT_W.ix {c w : Nat} (h : c < 12 ∧ w < 16) : regIx (MBX_OUT_W.addr c w) = 141 := by
  unfold regIx MBX_OUT_W.addr; rw [if_pos h]; split
  · split <;> omega
  · omega
theorem MBX_IN_CTRL.ix : ∀ n, n < 12 → regIx (MBX_IN_CTRL.addr n) = 142 := by decide
theorem MBX_OUT_CTRL.ix : ∀ n, n < 12 → regIx (MBX_OUT_CTRL.addr n) = 143 := by decide
theorem MBX_DB.ix : ∀ n, n < 12 → regIx (MBX_DB.addr n) = 144 := by decide
theorem MBX_STATUS.ix : ∀ n, n < 12 → regIx (MBX_STATUS.addr n) = 145 := by decide
theorem MBX_ASSIGN.ix : ∀ n, n < 12 → regIx (MBX_ASSIGN.addr n) = 146 := by decide
theorem MBX_LOCK.ix : ∀ n, n < 16 → regIx (MBX_LOCK.addr n) = 147 := by decide
theorem MBX_LOCK_OWN_LO.ix : regIx MBX_LOCK_OWN_LO.addr = 148 := by decide
theorem MBX_LOCK_OWN_HI.ix : regIx MBX_LOCK_OWN_HI.addr = 149 := by decide
theorem MBX_ERR.ix : regIx MBX_ERR.addr = 150 := by decide
theorem MBX_X_CTRL.ix : regIx MBX_X_CTRL.addr = 151 := by decide
theorem TKR_CTRL.ix : regIx TKR_CTRL.addr = 152 := by decide
theorem TKR_FUNC.ix : ∀ n, n < 2 → regIx (TKR_FUNC.addr n) = 153 := by decide
theorem TKR_EVT.ix : ∀ n, n < 2 → regIx (TKR_EVT.addr n) = 154 := by decide
theorem TKR_SB.ix : regIx TKR_SB.addr = 155 := by decide
theorem TKR_ALERT.ix : regIx TKR_ALERT.addr = 156 := by decide
theorem TKR_ALERT_EN.ix : regIx TKR_ALERT_EN.addr = 157 := by decide
theorem TKR_AUTH.ix : regIx TKR_AUTH.addr = 158 := by decide
theorem TKR_X_CTRL.ix : regIx TKR_X_CTRL.addr = 159 := by decide
theorem OBS_Q_CTRL.ix : ∀ n, n < 4 → regIx (OBS_Q_CTRL.addr n) = 160 := by decide
theorem OBS_Q_DATA.ix : ∀ n, n < 4 → regIx (OBS_Q_DATA.addr n) = 161 := by decide
theorem OBS_Q_STATUS.ix : ∀ n, n < 4 → regIx (OBS_Q_STATUS.addr n) = 162 := by decide
theorem OBS_Q_PTR.ix : ∀ n, n < 4 → regIx (OBS_Q_PTR.addr n) = 163 := by decide
theorem OBS_Q_LOST.ix : ∀ n, n < 4 → regIx (OBS_Q_LOST.addr n) = 164 := by decide
theorem OBS_CYCLE_LO.ix : regIx OBS_CYCLE_LO.addr = 165 := by decide
theorem OBS_CYCLE_HI.ix : regIx OBS_CYCLE_HI.addr = 166 := by decide
theorem OBS_PMU_CTRL.ix : regIx OBS_PMU_CTRL.addr = 167 := by decide
theorem OBS_PMU_OVF.ix : regIx OBS_PMU_OVF.addr = 168 := by decide
theorem OBS_PMU_EVT.ix : ∀ n, n < 8 → regIx (OBS_PMU_EVT.addr n) = 169 := by decide
theorem OBS_PMU_LO.ix : ∀ n, n < 8 → regIx (OBS_PMU_LO.addr n) = 170 := by decide
theorem OBS_PMU_HI.ix : ∀ n, n < 8 → regIx (OBS_PMU_HI.addr n) = 171 := by decide
theorem FLT_STATUS.ix : regIx FLT_STATUS.addr = 172 := by decide
theorem FLT_PINS.ix : regIx FLT_PINS.addr = 173 := by decide
theorem FLT_DUMP.ix : regIx FLT_DUMP.addr = 174 := by decide
theorem FLT_STICKY.ix : ∀ n, n < 4 → regIx (FLT_STICKY.addr n) = 175 := by decide
theorem FLT_CLEAR.ix : regIx FLT_CLEAR.addr = 176 := by decide
theorem FLT_SEV.ix : ∀ n, n < 8 → regIx (FLT_SEV.addr n) = 177 := by decide
theorem FLT_ALERT.ix : ∀ n, n < 4 → regIx (FLT_ALERT.addr n) = 178 := by decide
theorem FLT_QUAL.ix : ∀ n, n < 128 → regIx (FLT_QUAL.addr n) = 179 := by decide
theorem FLT_X_FORCE.ix : regIx FLT_X_FORCE.addr = 180 := by decide
theorem FLT_X_INVERT.ix : regIx FLT_X_INVERT.addr = 181 := by decide
theorem TOP_ID.ix : regIx TOP_ID.addr = 182 := by decide
theorem TOP_STRAP.ix : regIx TOP_STRAP.addr = 183 := by decide
theorem TOP_MODE.ix : regIx TOP_MODE.addr = 184 := by decide
theorem TOP_RESET_CAUSE.ix : regIx TOP_RESET_CAUSE.addr = 185 := by decide
theorem TOP_BOOT_TIME.ix : regIx TOP_BOOT_TIME.addr = 186 := by decide
theorem TOP_X_RESET.ix : regIx TOP_X_RESET.addr = 187 := by decide
theorem TOP_EXPERT_KEY.ix : ∀ n, n < 2 → regIx (TOP_EXPERT_KEY.addr n) = 188 := by decide
theorem TOP_EXPERT.ix : regIx TOP_EXPERT.addr = 189 := by decide
theorem TOP_BUS_ERR.ix : regIx TOP_BUS_ERR.addr = 190 := by decide
theorem STL_STALL.ix : ∀ n, n < 15 → regIx (STL_STALL.addr n) = 191 := by decide
theorem STL_LANE.ix : ∀ n, n < 28 → regIx (STL_LANE.addr n) = 192 := by decide
theorem GPI_CFG.ix : ∀ n, n < 32 → regIx (GPI_CFG.addr n) = 193 := by decide
theorem GPI_IN.ix : regIx GPI_IN.addr = 194 := by decide
theorem GPI_OUT.ix : regIx GPI_OUT.addr = 195 := by decide

/-- Every address of an array has the array's place, but the stand-in for members that do not exist. -/
theorem Reg.has_ix {r : Reg} {a : Nat} (ha : a % 65536 ≠ 65532) (hr : r ≠ .any) (h : r.has a) : regIx a = r.ctorIdx := by
  cases r
  case PLN_STATUS => subst h; exact PLN_STATUS.ix
  case PLN_ACTIVE_ID => subst h; exact PLN_ACTIVE_ID.ix
  case PLN_ACTIVE_BUILD => subst h; exact PLN_ACTIVE_BUILD.ix
  case PLN_FLOOR => subst h; exact PLN_FLOOR.ix
  case PLN_KEYS => subst h; exact PLN_KEYS.ix
  case PLN_SLOT_SEQ =>
    obtain ⟨n, rfl⟩ := h
    by_cases hn : n < 2
    · exact PLN_SLOT_SEQ.ix n hn
    · exact absurd (by simp [PLN_SLOT_SEQ.addr, hn]) ha
  case PLN_HASH =>
    obtain ⟨n, rfl⟩ := h
    by_cases hn : n < 8
    · exact PLN_HASH.ix n hn
    · exact absurd (by simp [PLN_HASH.addr, hn]) ha
  case YRD_CTRL => subst h; exact YRD_CTRL.ix
  case YRD_STATUS =>
    obtain ⟨n, rfl⟩ := h
    by_cases hn : n < 5
    · exact YRD_STATUS.ix n hn
    · exact absurd (by simp [YRD_STATUS.addr, hn]) ha
  case YRD_NOW_LO =>
    obtain ⟨n, rfl⟩ := h
    by_cases hn : n < 5
    · exact YRD_NOW_LO.ix n hn
    · exact absurd (by simp [YRD_NOW_LO.addr, hn]) ha
  case YRD_NOW_HI =>
    obtain ⟨n, rfl⟩ := h
    by_cases hn : n < 5
    · exact YRD_NOW_HI.ix n hn
    · exact absurd (by simp [YRD_NOW_HI.addr, hn]) ha
  case YRD_RATE =>
    obtain ⟨n, rfl⟩ := h
    by_cases hn : n < 5
    · exact YRD_RATE.ix n hn
    · exact absurd (by simp [YRD_RATE.addr, hn]) ha
  case YRD_STEP =>
    obtain ⟨n, rfl⟩ := h
    by_cases hn : n < 5
    · exact YRD_STEP.ix n hn
    · exact absurd (by simp [YRD_STEP.addr, hn]) ha
  case YRD_BARN => subst h; exact YRD_BARN.ix
  case TML_CTRL => subst h; exact TML_CTRL.ix
  case TML_SEL => subst h; exact TML_SEL.ix
  case TML_E_TIME_LO => subst h; exact TML_E_TIME_LO.ix
  case TML_E_TIME_HI => subst h; exact TML_E_TIME_HI.ix
  case TML_E_CTRL => subst h; exact TML_E_CTRL.ix
  case TML_E_REPEAT => subst h; exact TML_E_REPEAT.ix
  case TML_E_ARG => subst h; exact TML_E_ARG.ix
  case TML_STATUS => subst h; exact TML_STATUS.ix
  case TML_PRED =>
    obtain ⟨n, rfl⟩ := h
    by_cases hn : n < 12
    · exact TML_PRED.ix n hn
    · exact absurd (by simp [TML_PRED.addr, hn]) ha
  case TML_PAT =>
    obtain ⟨n, rfl⟩ := h
    by_cases hn : n < 15
    · exact TML_PAT.ix n hn
    · exact absurd (by simp [TML_PAT.addr, hn]) ha
  case TML_LEAD => subst h; exact TML_LEAD.ix
  case SSH_CTRL => subst h; exact SSH_CTRL.ix
  case SSH_CTX =>
    obtain ⟨n, rfl⟩ := h
    by_cases hn : n < 8
    · exact SSH_CTX.ix n hn
    · exact absurd (by simp [SSH_CTX.addr, hn]) ha
  case SSH_PORT =>
    obtain ⟨n, rfl⟩ := h
    by_cases hn : n < 17
    · exact SSH_PORT.ix n hn
    · exact absurd (by simp [SSH_PORT.addr, hn]) ha
  case SSH_PORT_LPM =>
    obtain ⟨n, rfl⟩ := h
    by_cases hn : n < 15
    · exact SSH_PORT_LPM.ix n hn
    · exact absurd (by simp [SSH_PORT_LPM.addr, hn]) ha
  case SSH_PORT_EVT =>
    obtain ⟨n, rfl⟩ := h
    by_cases hn : n < 17
    · exact SSH_PORT_EVT.ix n hn
    · exact absurd (by simp [SSH_PORT_EVT.addr, hn]) ha
  case SSH_DROPS => subst h; exact SSH_DROPS.ix
  case SSH_USP_LPM =>
    obtain ⟨n, rfl⟩ := h
    by_cases hn : n < 2
    · exact SSH_USP_LPM.ix n hn
    · exact absurd (by simp [SSH_USP_LPM.addr, hn]) ha
  case SSH_PTM =>
    obtain ⟨n, rfl⟩ := h
    by_cases hn : n < 2
    · exact SSH_PTM.ix n hn
    · exact absurd (by simp [SSH_PTM.addr, hn]) ha
  case SSH_ITP =>
    obtain ⟨n, rfl⟩ := h
    by_cases hn : n < 2
    · exact SSH_ITP.ix n hn
    · exact absurd (by simp [SSH_ITP.addr, hn]) ha
  case SSH_ITP_REGEN => subst h; exact SSH_ITP_REGEN.ix
  case SSH_X_TUNE => subst h; exact SSH_X_TUNE.ix
  case SSH_X_VOTE => subst h; exact SSH_X_VOTE.ix
  case PBF_CTRL => subst h; exact PBF_CTRL.ix
  case PBF_STATUS => subst h; exact PBF_STATUS.ix
  case PBF_SHARED => subst h; exact PBF_SHARED.ix
  case PBF_SHARED_FREE => subst h; exact PBF_SHARED_FREE.ix
  case PBF_BANK_FREE =>
    obtain ⟨n, rfl⟩ := h
    by_cases hn : n < 8
    · exact PBF_BANK_FREE.ix n hn
    · exact absurd (by simp [PBF_BANK_FREE.addr, hn]) ha
  case PBF_RESV =>
    obtain ⟨n, rfl⟩ := h
    by_cases hn : n < 22
    · exact PBF_RESV.ix n hn
    · exact absurd (by simp [PBF_RESV.addr, hn]) ha
  case PBF_USED =>
    obtain ⟨n, rfl⟩ := h
    by_cases hn : n < 22
    · exact PBF_USED.ix n hn
    · exact absurd (by simp [PBF_USED.addr, hn]) ha
  case PBF_EVT => subst h; exact PBF_EVT.ix
  case PBF_ECC_COUNT => subst h; exact PBF_ECC_COUNT.ix
  case PBF_X_TUNE => subst h; exact PBF_X_TUNE.ix
  case PBF_X_ARB => subst h; exact PBF_X_ARB.ix
  case HSH_CTRL => subst h; exact HSH_CTRL.ix
  case HSH_ENG =>
    obtain ⟨n, rfl⟩ := h
    by_cases hn : n < 4
    · exact HSH_ENG.ix n hn
    · exact absurd (by simp [HSH_ENG.addr, hn]) ha
  case HSH_PORT =>
    obtain ⟨n, rfl⟩ := h
    by_cases hn : n < 15
    · exact HSH_PORT.ix n hn
    · exact absurd (by simp [HSH_PORT.addr, hn]) ha
  case HSH_PORT_EVT =>
    obtain ⟨n, rfl⟩ := h
    by_cases hn : n < 15
    · exact HSH_PORT_EVT.ix n hn
    · exact absurd (by simp [HSH_PORT_EVT.addr, hn]) ha
  case HSH_CARRY =>
    obtain ⟨n, rfl⟩ := h
    by_cases hn : n < 4
    · exact HSH_CARRY.ix n hn
    · exact absurd (by simp [HSH_CARRY.addr, hn]) ha
  case HSH_EVT => subst h; exact HSH_EVT.ix
  case HSH_ORDERS => subst h; exact HSH_ORDERS.ix
  case HSH_X_TUNE => subst h; exact HSH_X_TUNE.ix
  case TTA_CTRL => subst h; exact TTA_CTRL.ix
  case TTA_TT =>
    obtain ⟨n, rfl⟩ := h
    by_cases hn : n < 15
    · exact TTA_TT.ix n hn
    · exact absurd (by simp [TTA_TT.addr, hn]) ha
  case TTA_EVT =>
    obtain ⟨n, rfl⟩ := h
    by_cases hn : n < 15
    · exact TTA_EVT.ix n hn
    · exact absurd (by simp [TTA_EVT.addr, hn]) ha
  case TTA_COUNT =>
    obtain ⟨n, rfl⟩ := h
    by_cases hn : n < 15
    · exact TTA_COUNT.ix n hn
    · exact absurd (by simp [TTA_COUNT.addr, hn]) ha
  case TTA_CMD => subst h; exact TTA_CMD.ix
  case TTA_X_TUNE => subst h; exact TTA_X_TUNE.ix
  case UPP_PADDOCK =>
    obtain ⟨n, rfl⟩ := h
    by_cases hn : n < 2
    · exact UPP_PADDOCK.ix n hn
    · exact absurd (by simp [UPP_PADDOCK.addr, hn]) ha
  case UPP_MIR_SEL => subst h; exact UPP_MIR_SEL.ix
  case UPP_MIR_HS => subst h; exact UPP_MIR_HS.ix
  case UPP_MIR_SS => subst h; exact UPP_MIR_SS.ix
  case UPP_MIR_INFO => subst h; exact UPP_MIR_INFO.ix
  case UPP_HANDOFF => subst h; exact UPP_HANDOFF.ix
  case UPP_EVT => subst h; exact UPP_EVT.ix
  case UPP_X_HANDOFF => subst h; exact UPP_X_HANDOFF.ix
  case GLK_CTRL => subst h; exact GLK_CTRL.ix
  case GLK_LINK =>
    obtain ⟨n, rfl⟩ := h
    by_cases hn : n < 4
    · exact GLK_LINK.ix n hn
    · exact absurd (by simp [GLK_LINK.addr, hn]) ha
  case GLK_DELAY =>
    obtain ⟨n, rfl⟩ := h
    by_cases hn : n < 4
    · exact GLK_DELAY.ix n hn
    · exact absurd (by simp [GLK_DELAY.addr, hn]) ha
  case GLK_ERR =>
    obtain ⟨n, rfl⟩ := h
    by_cases hn : n < 4
    · exact GLK_ERR.ix n hn
    · exact absurd (by simp [GLK_ERR.addr, hn]) ha
  case GLK_EVT =>
    obtain ⟨n, rfl⟩ := h
    by_cases hn : n < 4
    · exact GLK_EVT.ix n hn
    · exact absurd (by simp [GLK_EVT.addr, hn]) ha
  case GLK_HB =>
    obtain ⟨n, rfl⟩ := h
    by_cases hn : n < 4
    · exact GLK_HB.ix n hn
    · exact absurd (by simp [GLK_HB.addr, hn]) ha
  case GLK_WAKE => subst h; exact GLK_WAKE.ix
  case GLK_X_TUNE => subst h; exact GLK_X_TUNE.ix
  case DRV_CTRL => subst h; exact DRV_CTRL.ix
  case DRV_BARN => subst h; exact DRV_BARN.ix
  case DRV_ROUTE =>
    obtain ⟨n, rfl⟩ := h
    by_cases hn : n < 8
    · exact DRV_ROUTE.ix n hn
    · exact absurd (by simp [DRV_ROUTE.addr, hn]) ha
  case DRV_LOAD =>
    obtain ⟨n, rfl⟩ := h
    by_cases hn : n < 4
    · exact DRV_LOAD.ix n hn
    · exact absurd (by simp [DRV_LOAD.addr, hn]) ha
  case DRV_FLOWS => subst h; exact DRV_FLOWS.ix
  case DRV_REBAL => subst h; exact DRV_REBAL.ix
  case DRV_SEED_LO => subst h; exact DRV_SEED_LO.ix
  case DRV_SEED_HI => subst h; exact DRV_SEED_HI.ix
  case DRV_REROUTE => subst h; exact DRV_REROUTE.ix
  case DRV_EVT => subst h; exact DRV_EVT.ix
  case DRV_X_WRR => subst h; exact DRV_X_WRR.ix
  case DRV_X_REBAL => subst h; exact DRV_X_REBAL.ix
  case TCP_CTRL => subst h; exact TCP_CTRL.ix
  case TCP_PORT =>
    obtain ⟨n, rfl⟩ := h
    by_cases hn : n < 17
    · exact TCP_PORT.ix n hn
    · exact absurd (by simp [TCP_PORT.addr, hn]) ha
  case TCP_CONTRACT =>
    obtain ⟨n, rfl⟩ := h
    by_cases hn : n < 17
    · exact TCP_CONTRACT.ix n hn
    · exact absurd (by simp [TCP_CONTRACT.addr, hn]) ha
  case TCP_VSET =>
    obtain ⟨n, rfl⟩ := h
    by_cases hn : n < 17
    · exact TCP_VSET.ix n hn
    · exact absurd (by simp [TCP_VSET.addr, hn]) ha
  case TCP_CABLE =>
    obtain ⟨n, rfl⟩ := h
    by_cases hn : n < 17
    · exact TCP_CABLE.ix n hn
    · exact absurd (by simp [TCP_CABLE.addr, hn]) ha
  case TCP_EVT =>
    obtain ⟨n, rfl⟩ := h
    by_cases hn : n < 17
    · exact TCP_EVT.ix n hn
    · exact absurd (by simp [TCP_EVT.addr, hn]) ha
  case TCP_DP =>
    obtain ⟨n, rfl⟩ := h
    by_cases hn : n < 2
    · exact TCP_DP.ix n hn
    · exact absurd (by simp [TCP_DP.addr, hn]) ha
  case TCP_X_TIMER => subst h; exact TCP_X_TIMER.ix
  case PPW_CTRL => subst h; exact PPW_CTRL.ix
  case PPW_PG => subst h; exact PPW_PG.ix
  case PPW_SEAT => subst h; exact PPW_SEAT.ix
  case PPW_CLEAR => subst h; exact PPW_CLEAR.ix
  case PPW_RAMP =>
    obtain ⟨n, rfl⟩ := h
    by_cases hn : n < 17
    · exact PPW_RAMP.ix n hn
    · exact absurd (by simp [PPW_RAMP.addr, hn]) ha
  case PPW_LIMIT =>
    obtain ⟨n, rfl⟩ := h
    by_cases hn : n < 17
    · exact PPW_LIMIT.ix n hn
    · exact absurd (by simp [PPW_LIMIT.addr, hn]) ha
  case PPW_TRIP =>
    obtain ⟨n, rfl⟩ := h
    by_cases hn : n < 17
    · exact PPW_TRIP.ix n hn
    · exact absurd (by simp [PPW_TRIP.addr, hn]) ha
  case PPW_RETRY =>
    obtain ⟨n, rfl⟩ := h
    by_cases hn : n < 17
    · exact PPW_RETRY.ix n hn
    · exact absurd (by simp [PPW_RETRY.addr, hn]) ha
  case PPW_STATUS =>
    obtain ⟨n, rfl⟩ := h
    by_cases hn : n < 17
    · exact PPW_STATUS.ix n hn
    · exact absurd (by simp [PPW_STATUS.addr, hn]) ha
  case PPW_EVT =>
    obtain ⟨n, rfl⟩ := h
    by_cases hn : n < 17
    · exact PPW_EVT.ix n hn
    · exact absurd (by simp [PPW_EVT.addr, hn]) ha
  case PPW_X_GATE => subst h; exact PPW_X_GATE.ix
  case TLM_CTRL => subst h; exact TLM_CTRL.ix
  case TLM_ECLR => subst h; exact TLM_ECLR.ix
  case TLM_INPUT => subst h; exact TLM_INPUT.ix
  case TLM_TEMP => subst h; exact TLM_TEMP.ix
  case TLM_INWARN => subst h; exact TLM_INWARN.ix
  case TLM_INST =>
    obtain ⟨n, rfl⟩ := h
    by_cases hn : n < 17
    · exact TLM_INST.ix n hn
    · exact absurd (by simp [TLM_INST.addr, hn]) ha
  case TLM_AVG1MS =>
    obtain ⟨n, rfl⟩ := h
    by_cases hn : n < 17
    · exact TLM_AVG1MS.ix n hn
    · exact absurd (by simp [TLM_AVG1MS.addr, hn]) ha
  case TLM_AVG100MS =>
    obtain ⟨n, rfl⟩ := h
    by_cases hn : n < 17
    · exact TLM_AVG100MS.ix n hn
    · exact absurd (by simp [TLM_AVG100MS.addr, hn]) ha
  case TLM_AVG1S =>
    obtain ⟨n, rfl⟩ := h
    by_cases hn : n < 17
    · exact TLM_AVG1S.ix n hn
    · exact absurd (by simp [TLM_AVG1S.addr, hn]) ha
  case TLM_PWR =>
    obtain ⟨n, rfl⟩ := h
    by_cases hn : n < 17
    · exact TLM_PWR.ix n hn
    · exact absurd (by simp [TLM_PWR.addr, hn]) ha
  case TLM_ENERGY_LO =>
    obtain ⟨n, rfl⟩ := h
    by_cases hn : n < 17
    · exact TLM_ENERGY_LO.ix n hn
    · exact absurd (by simp [TLM_ENERGY_LO.addr, hn]) ha
  case TLM_ENERGY_HI =>
    obtain ⟨n, rfl⟩ := h
    by_cases hn : n < 17
    · exact TLM_ENERGY_HI.ix n hn
    · exact absurd (by simp [TLM_ENERGY_HI.addr, hn]) ha
  case TLM_PEAK =>
    obtain ⟨n, rfl⟩ := h
    by_cases hn : n < 17
    · exact TLM_PEAK.ix n hn
    · exact absurd (by simp [TLM_PEAK.addr, hn]) ha
  case BUD_CTRL => subst h; exact BUD_CTRL.ix
  case BUD_STATUS => subst h; exact BUD_STATUS.ix
  case BUD_STATE => subst h; exact BUD_STATE.ix
  case BUD_EVT => subst h; exact BUD_EVT.ix
  case BUD_PORT =>
    obtain ⟨n, rfl⟩ := h
    by_cases hn : n < 17
    · exact BUD_PORT.ix n hn
    · exact absurd (by simp [BUD_PORT.addr, hn]) ha
  case BUD_RLIM =>
    obtain ⟨n, rfl⟩ := h
    by_cases hn : n < 17
    · exact BUD_RLIM.ix n hn
    · exact absurd (by simp [BUD_RLIM.addr, hn]) ha
  case BUD_X_CTRL => subst h; exact BUD_X_CTRL.ix
  case BUD_X_WARN => subst h; exact BUD_X_WARN.ix
  case PDC_CTRL => subst h; exact PDC_CTRL.ix
  case PDC_STATE => subst h; exact PDC_STATE.ix
  case PDC_STICKY => subst h; exact PDC_STICKY.ix
  case PDC_XTAL => subst h; exact PDC_XTAL.ix
  case PDC_DOM =>
    obtain ⟨n, rfl⟩ := h
    by_cases hn : n < 12
    · exact PDC_DOM.ix n hn
    · exact absurd (by simp [PDC_DOM.addr, hn]) ha
  case PDC_VOTE =>
    obtain ⟨n, rfl⟩ := h
    by_cases hn : n < 12
    · exact PDC_VOTE.ix n hn
    · exact absurd (by simp [PDC_VOTE.addr, hn]) ha
  case PDC_MYVOTE =>
    obtain ⟨n, rfl⟩ := h
    by_cases hn : n < 12
    · exact PDC_MYVOTE.ix n hn
    · exact absurd (by simp [PDC_MYVOTE.addr, hn]) ha
  case PDC_CFG =>
    obtain ⟨n, rfl⟩ := h
    by_cases hn : n < 12
    · exact PDC_CFG.ix n hn
    · exact absurd (by simp [PDC_CFG.addr, hn]) ha
  case PDC_RETUS =>
    obtain ⟨n, rfl⟩ := h
    by_cases hn : n < 12
    · exact PDC_RETUS.ix n hn
    · exact absurd (by simp [PDC_RETUS.addr, hn]) ha
  case PDC_X_TIME => subst h; exact PDC_X_TIME.ix
  case MBX_IN_W =>
    obtain ⟨c, w, rfl⟩ := h
    by_cases hn : c < 12 ∧ w < 16
    · exact MBX_IN_W.ix hn
    · exact absurd (by simp only [MBX_IN_W.addr, if_neg hn]) ha
  case MBX_OUT_W =>
    obtain ⟨c, w, rfl⟩ := h
    by_cases hn : c < 12 ∧ w < 16
    · exact MBX_OUT_W.ix hn
    · exact absurd (by simp only [MBX_OUT_W.addr, if_neg hn]) ha
  case MBX_IN_CTRL =>
    obtain ⟨n, rfl⟩ := h
    by_cases hn : n < 12
    · exact MBX_IN_CTRL.ix n hn
    · exact absurd (by simp [MBX_IN_CTRL.addr, hn]) ha
  case MBX_OUT_CTRL =>
    obtain ⟨n, rfl⟩ := h
    by_cases hn : n < 12
    · exact MBX_OUT_CTRL.ix n hn
    · exact absurd (by simp [MBX_OUT_CTRL.addr, hn]) ha
  case MBX_DB =>
    obtain ⟨n, rfl⟩ := h
    by_cases hn : n < 12
    · exact MBX_DB.ix n hn
    · exact absurd (by simp [MBX_DB.addr, hn]) ha
  case MBX_STATUS =>
    obtain ⟨n, rfl⟩ := h
    by_cases hn : n < 12
    · exact MBX_STATUS.ix n hn
    · exact absurd (by simp [MBX_STATUS.addr, hn]) ha
  case MBX_ASSIGN =>
    obtain ⟨n, rfl⟩ := h
    by_cases hn : n < 12
    · exact MBX_ASSIGN.ix n hn
    · exact absurd (by simp [MBX_ASSIGN.addr, hn]) ha
  case MBX_LOCK =>
    obtain ⟨n, rfl⟩ := h
    by_cases hn : n < 16
    · exact MBX_LOCK.ix n hn
    · exact absurd (by simp [MBX_LOCK.addr, hn]) ha
  case MBX_LOCK_OWN_LO => subst h; exact MBX_LOCK_OWN_LO.ix
  case MBX_LOCK_OWN_HI => subst h; exact MBX_LOCK_OWN_HI.ix
  case MBX_ERR => subst h; exact MBX_ERR.ix
  case MBX_X_CTRL => subst h; exact MBX_X_CTRL.ix
  case TKR_CTRL => subst h; exact TKR_CTRL.ix
  case TKR_FUNC =>
    obtain ⟨n, rfl⟩ := h
    by_cases hn : n < 2
    · exact TKR_FUNC.ix n hn
    · exact absurd (by simp [TKR_FUNC.addr, hn]) ha
  case TKR_EVT =>
    obtain ⟨n, rfl⟩ := h
    by_cases hn : n < 2
    · exact TKR_EVT.ix n hn
    · exact absurd (by simp [TKR_EVT.addr, hn]) ha
  case TKR_SB => subst h; exact TKR_SB.ix
  case TKR_ALERT => subst h; exact TKR_ALERT.ix
  case TKR_ALERT_EN => subst h; exact TKR_ALERT_EN.ix
  case TKR_AUTH => subst h; exact TKR_AUTH.ix
  case TKR_X_CTRL => subst h; exact TKR_X_CTRL.ix
  case OBS_Q_CTRL =>
    obtain ⟨n, rfl⟩ := h
    by_cases hn : n < 4
    · exact OBS_Q_CTRL.ix n hn
    · exact absurd (by simp [OBS_Q_CTRL.addr, hn]) ha
  case OBS_Q_DATA =>
    obtain ⟨n, rfl⟩ := h
    by_cases hn : n < 4
    · exact OBS_Q_DATA.ix n hn
    · exact absurd (by simp [OBS_Q_DATA.addr, hn]) ha
  case OBS_Q_STATUS =>
    obtain ⟨n, rfl⟩ := h
    by_cases hn : n < 4
    · exact OBS_Q_STATUS.ix n hn
    · exact absurd (by simp [OBS_Q_STATUS.addr, hn]) ha
  case OBS_Q_PTR =>
    obtain ⟨n, rfl⟩ := h
    by_cases hn : n < 4
    · exact OBS_Q_PTR.ix n hn
    · exact absurd (by simp [OBS_Q_PTR.addr, hn]) ha
  case OBS_Q_LOST =>
    obtain ⟨n, rfl⟩ := h
    by_cases hn : n < 4
    · exact OBS_Q_LOST.ix n hn
    · exact absurd (by simp [OBS_Q_LOST.addr, hn]) ha
  case OBS_CYCLE_LO => subst h; exact OBS_CYCLE_LO.ix
  case OBS_CYCLE_HI => subst h; exact OBS_CYCLE_HI.ix
  case OBS_PMU_CTRL => subst h; exact OBS_PMU_CTRL.ix
  case OBS_PMU_OVF => subst h; exact OBS_PMU_OVF.ix
  case OBS_PMU_EVT =>
    obtain ⟨n, rfl⟩ := h
    by_cases hn : n < 8
    · exact OBS_PMU_EVT.ix n hn
    · exact absurd (by simp [OBS_PMU_EVT.addr, hn]) ha
  case OBS_PMU_LO =>
    obtain ⟨n, rfl⟩ := h
    by_cases hn : n < 8
    · exact OBS_PMU_LO.ix n hn
    · exact absurd (by simp [OBS_PMU_LO.addr, hn]) ha
  case OBS_PMU_HI =>
    obtain ⟨n, rfl⟩ := h
    by_cases hn : n < 8
    · exact OBS_PMU_HI.ix n hn
    · exact absurd (by simp [OBS_PMU_HI.addr, hn]) ha
  case FLT_STATUS => subst h; exact FLT_STATUS.ix
  case FLT_PINS => subst h; exact FLT_PINS.ix
  case FLT_DUMP => subst h; exact FLT_DUMP.ix
  case FLT_STICKY =>
    obtain ⟨n, rfl⟩ := h
    by_cases hn : n < 4
    · exact FLT_STICKY.ix n hn
    · exact absurd (by simp [FLT_STICKY.addr, hn]) ha
  case FLT_CLEAR => subst h; exact FLT_CLEAR.ix
  case FLT_SEV =>
    obtain ⟨n, rfl⟩ := h
    by_cases hn : n < 8
    · exact FLT_SEV.ix n hn
    · exact absurd (by simp [FLT_SEV.addr, hn]) ha
  case FLT_ALERT =>
    obtain ⟨n, rfl⟩ := h
    by_cases hn : n < 4
    · exact FLT_ALERT.ix n hn
    · exact absurd (by simp [FLT_ALERT.addr, hn]) ha
  case FLT_QUAL =>
    obtain ⟨n, rfl⟩ := h
    by_cases hn : n < 128
    · exact FLT_QUAL.ix n hn
    · exact absurd (by simp [FLT_QUAL.addr, hn]) ha
  case FLT_X_FORCE => subst h; exact FLT_X_FORCE.ix
  case FLT_X_INVERT => subst h; exact FLT_X_INVERT.ix
  case TOP_ID => subst h; exact TOP_ID.ix
  case TOP_STRAP => subst h; exact TOP_STRAP.ix
  case TOP_MODE => subst h; exact TOP_MODE.ix
  case TOP_RESET_CAUSE => subst h; exact TOP_RESET_CAUSE.ix
  case TOP_BOOT_TIME => subst h; exact TOP_BOOT_TIME.ix
  case TOP_X_RESET => subst h; exact TOP_X_RESET.ix
  case TOP_EXPERT_KEY =>
    obtain ⟨n, rfl⟩ := h
    by_cases hn : n < 2
    · exact TOP_EXPERT_KEY.ix n hn
    · exact absurd (by simp [TOP_EXPERT_KEY.addr, hn]) ha
  case TOP_EXPERT => subst h; exact TOP_EXPERT.ix
  case TOP_BUS_ERR => subst h; exact TOP_BUS_ERR.ix
  case STL_STALL =>
    obtain ⟨n, rfl⟩ := h
    by_cases hn : n < 15
    · exact STL_STALL.ix n hn
    · exact absurd (by simp [STL_STALL.addr, hn]) ha
  case STL_LANE =>
    obtain ⟨n, rfl⟩ := h
    by_cases hn : n < 28
    · exact STL_LANE.ix n hn
    · exact absurd (by simp [STL_LANE.addr, hn]) ha
  case GPI_CFG =>
    obtain ⟨n, rfl⟩ := h
    by_cases hn : n < 32
    · exact GPI_CFG.ix n hn
    · exact absurd (by simp [GPI_CFG.addr, hn]) ha
  case GPI_IN => subst h; exact GPI_IN.ix
  case GPI_OUT => subst h; exact GPI_OUT.ix
  case any => exact absurd rfl hr

/-- An address of an array outside the mask. -/
theorem not_hasReg {b a k : Nat} (ha : a % 65536 ≠ 65532) (hk : regIx a = k) (hb : b.testBit k = false)
    (hany : b.testBit 196 = false) : ¬HasReg b a := by
  rintro ⟨r, hr, h⟩
  by_cases e : r = .any
  · subst e; exact absurd (hr.symm.trans hany) Bool.noConfusion
  · rw [← hk, Reg.has_ix ha e h, hr] at hb; exact Bool.noConfusion hb

theorem PLN_STATUS.kept {m b : Nat} {s t : State} (h : Fr m b s t) (hb : b.testBit 0 = false) (hany : b.testBit 196 = false) :
    t.word PLN_STATUS.addr = s.word PLN_STATUS.addr := h.word _ (not_hasReg (by decide) PLN_STATUS.ix hb hany)
theorem PLN_ACTIVE_ID.kept {m b : Nat} {s t : State} (h : Fr m b s t) (hb : b.testBit 1 = false) (hany : b.testBit 196 = false) :
    t.word PLN_ACTIVE_ID.addr = s.word PLN_ACTIVE_ID.addr := h.word _ (not_hasReg (by decide) PLN_ACTIVE_ID.ix hb hany)
theorem PLN_ACTIVE_BUILD.kept {m b : Nat} {s t : State} (h : Fr m b s t) (hb : b.testBit 2 = false) (hany : b.testBit 196 = false) :
    t.word PLN_ACTIVE_BUILD.addr = s.word PLN_ACTIVE_BUILD.addr := h.word _ (not_hasReg (by decide) PLN_ACTIVE_BUILD.ix hb hany)
theorem PLN_FLOOR.kept {m b : Nat} {s t : State} (h : Fr m b s t) (hb : b.testBit 3 = false) (hany : b.testBit 196 = false) :
    t.word PLN_FLOOR.addr = s.word PLN_FLOOR.addr := h.word _ (not_hasReg (by decide) PLN_FLOOR.ix hb hany)
theorem PLN_KEYS.kept {m b : Nat} {s t : State} (h : Fr m b s t) (hb : b.testBit 4 = false) (hany : b.testBit 196 = false) :
    t.word PLN_KEYS.addr = s.word PLN_KEYS.addr := h.word _ (not_hasReg (by decide) PLN_KEYS.ix hb hany)
theorem PLN_SLOT_SEQ.kept {m b : Nat} {s t : State} {n : Nat} (hn : n < 2) (h : Fr m b s t) (hb : b.testBit 5 = false) (hany : b.testBit 196 = false) :
    t.word (PLN_SLOT_SEQ.addr n) = s.word (PLN_SLOT_SEQ.addr n) :=
  h.word _ (not_hasReg (by unfold PLN_SLOT_SEQ.addr; rw [if_pos hn]; omega) (PLN_SLOT_SEQ.ix n hn) hb hany)
theorem PLN_HASH.kept {m b : Nat} {s t : State} {n : Nat} (hn : n < 8) (h : Fr m b s t) (hb : b.testBit 6 = false) (hany : b.testBit 196 = false) :
    t.word (PLN_HASH.addr n) = s.word (PLN_HASH.addr n) :=
  h.word _ (not_hasReg (by unfold PLN_HASH.addr; rw [if_pos hn]; omega) (PLN_HASH.ix n hn) hb hany)
theorem YRD_CTRL.kept {m b : Nat} {s t : State} (h : Fr m b s t) (hb : b.testBit 7 = false) (hany : b.testBit 196 = false) :
    t.word YRD_CTRL.addr = s.word YRD_CTRL.addr := h.word _ (not_hasReg (by decide) YRD_CTRL.ix hb hany)
theorem YRD_STATUS.kept {m b : Nat} {s t : State} {n : Nat} (hn : n < 5) (h : Fr m b s t) (hb : b.testBit 8 = false) (hany : b.testBit 196 = false) :
    t.word (YRD_STATUS.addr n) = s.word (YRD_STATUS.addr n) :=
  h.word _ (not_hasReg (by unfold YRD_STATUS.addr; rw [if_pos hn]; omega) (YRD_STATUS.ix n hn) hb hany)
theorem YRD_NOW_LO.kept {m b : Nat} {s t : State} {n : Nat} (hn : n < 5) (h : Fr m b s t) (hb : b.testBit 9 = false) (hany : b.testBit 196 = false) :
    t.word (YRD_NOW_LO.addr n) = s.word (YRD_NOW_LO.addr n) :=
  h.word _ (not_hasReg (by unfold YRD_NOW_LO.addr; rw [if_pos hn]; omega) (YRD_NOW_LO.ix n hn) hb hany)
theorem YRD_NOW_HI.kept {m b : Nat} {s t : State} {n : Nat} (hn : n < 5) (h : Fr m b s t) (hb : b.testBit 10 = false) (hany : b.testBit 196 = false) :
    t.word (YRD_NOW_HI.addr n) = s.word (YRD_NOW_HI.addr n) :=
  h.word _ (not_hasReg (by unfold YRD_NOW_HI.addr; rw [if_pos hn]; omega) (YRD_NOW_HI.ix n hn) hb hany)
theorem YRD_RATE.kept {m b : Nat} {s t : State} {n : Nat} (hn : n < 5) (h : Fr m b s t) (hb : b.testBit 11 = false) (hany : b.testBit 196 = false) :
    t.word (YRD_RATE.addr n) = s.word (YRD_RATE.addr n) :=
  h.word _ (not_hasReg (by unfold YRD_RATE.addr; rw [if_pos hn]; omega) (YRD_RATE.ix n hn) hb hany)
theorem YRD_STEP.kept {m b : Nat} {s t : State} {n : Nat} (hn : n < 5) (h : Fr m b s t) (hb : b.testBit 12 = false) (hany : b.testBit 196 = false) :
    t.word (YRD_STEP.addr n) = s.word (YRD_STEP.addr n) :=
  h.word _ (not_hasReg (by unfold YRD_STEP.addr; rw [if_pos hn]; omega) (YRD_STEP.ix n hn) hb hany)
theorem YRD_BARN.kept {m b : Nat} {s t : State} (h : Fr m b s t) (hb : b.testBit 13 = false) (hany : b.testBit 196 = false) :
    t.word YRD_BARN.addr = s.word YRD_BARN.addr := h.word _ (not_hasReg (by decide) YRD_BARN.ix hb hany)
theorem TML_CTRL.kept {m b : Nat} {s t : State} (h : Fr m b s t) (hb : b.testBit 14 = false) (hany : b.testBit 196 = false) :
    t.word TML_CTRL.addr = s.word TML_CTRL.addr := h.word _ (not_hasReg (by decide) TML_CTRL.ix hb hany)
theorem TML_SEL.kept {m b : Nat} {s t : State} (h : Fr m b s t) (hb : b.testBit 15 = false) (hany : b.testBit 196 = false) :
    t.word TML_SEL.addr = s.word TML_SEL.addr := h.word _ (not_hasReg (by decide) TML_SEL.ix hb hany)
theorem TML_E_TIME_LO.kept {m b : Nat} {s t : State} (h : Fr m b s t) (hb : b.testBit 16 = false) (hany : b.testBit 196 = false) :
    t.word TML_E_TIME_LO.addr = s.word TML_E_TIME_LO.addr := h.word _ (not_hasReg (by decide) TML_E_TIME_LO.ix hb hany)
theorem TML_E_TIME_HI.kept {m b : Nat} {s t : State} (h : Fr m b s t) (hb : b.testBit 17 = false) (hany : b.testBit 196 = false) :
    t.word TML_E_TIME_HI.addr = s.word TML_E_TIME_HI.addr := h.word _ (not_hasReg (by decide) TML_E_TIME_HI.ix hb hany)
theorem TML_E_CTRL.kept {m b : Nat} {s t : State} (h : Fr m b s t) (hb : b.testBit 18 = false) (hany : b.testBit 196 = false) :
    t.word TML_E_CTRL.addr = s.word TML_E_CTRL.addr := h.word _ (not_hasReg (by decide) TML_E_CTRL.ix hb hany)
theorem TML_E_REPEAT.kept {m b : Nat} {s t : State} (h : Fr m b s t) (hb : b.testBit 19 = false) (hany : b.testBit 196 = false) :
    t.word TML_E_REPEAT.addr = s.word TML_E_REPEAT.addr := h.word _ (not_hasReg (by decide) TML_E_REPEAT.ix hb hany)
theorem TML_E_ARG.kept {m b : Nat} {s t : State} (h : Fr m b s t) (hb : b.testBit 20 = false) (hany : b.testBit 196 = false) :
    t.word TML_E_ARG.addr = s.word TML_E_ARG.addr := h.word _ (not_hasReg (by decide) TML_E_ARG.ix hb hany)
theorem TML_STATUS.kept {m b : Nat} {s t : State} (h : Fr m b s t) (hb : b.testBit 21 = false) (hany : b.testBit 196 = false) :
    t.word TML_STATUS.addr = s.word TML_STATUS.addr := h.word _ (not_hasReg (by decide) TML_STATUS.ix hb hany)
theorem TML_PRED.kept {m b : Nat} {s t : State} {n : Nat} (hn : n < 12) (h : Fr m b s t) (hb : b.testBit 22 = false) (hany : b.testBit 196 = false) :
    t.word (TML_PRED.addr n) = s.word (TML_PRED.addr n) :=
  h.word _ (not_hasReg (by unfold TML_PRED.addr; rw [if_pos hn]; omega) (TML_PRED.ix n hn) hb hany)
theorem TML_PAT.kept {m b : Nat} {s t : State} {n : Nat} (hn : n < 15) (h : Fr m b s t) (hb : b.testBit 23 = false) (hany : b.testBit 196 = false) :
    t.word (TML_PAT.addr n) = s.word (TML_PAT.addr n) :=
  h.word _ (not_hasReg (by unfold TML_PAT.addr; rw [if_pos hn]; omega) (TML_PAT.ix n hn) hb hany)
theorem TML_LEAD.kept {m b : Nat} {s t : State} (h : Fr m b s t) (hb : b.testBit 24 = false) (hany : b.testBit 196 = false) :
    t.word TML_LEAD.addr = s.word TML_LEAD.addr := h.word _ (not_hasReg (by decide) TML_LEAD.ix hb hany)
theorem SSH_CTRL.kept {m b : Nat} {s t : State} (h : Fr m b s t) (hb : b.testBit 25 = false) (hany : b.testBit 196 = false) :
    t.word SSH_CTRL.addr = s.word SSH_CTRL.addr := h.word _ (not_hasReg (by decide) SSH_CTRL.ix hb hany)
theorem SSH_CTX.kept {m b : Nat} {s t : State} {n : Nat} (hn : n < 8) (h : Fr m b s t) (hb : b.testBit 26 = false) (hany : b.testBit 196 = false) :
    t.word (SSH_CTX.addr n) = s.word (SSH_CTX.addr n) :=
  h.word _ (not_hasReg (by unfold SSH_CTX.addr; rw [if_pos hn]; omega) (SSH_CTX.ix n hn) hb hany)
theorem SSH_PORT.kept {m b : Nat} {s t : State} {n : Nat} (hn : n < 17) (h : Fr m b s t) (hb : b.testBit 27 = false) (hany : b.testBit 196 = false) :
    t.word (SSH_PORT.addr n) = s.word (SSH_PORT.addr n) :=
  h.word _ (not_hasReg (by unfold SSH_PORT.addr; rw [if_pos hn]; omega) (SSH_PORT.ix n hn) hb hany)
theorem SSH_PORT_LPM.kept {m b : Nat} {s t : State} {n : Nat} (hn : n < 15) (h : Fr m b s t) (hb : b.testBit 28 = false) (hany : b.testBit 196 = false) :
    t.word (SSH_PORT_LPM.addr n) = s.word (SSH_PORT_LPM.addr n) :=
  h.word _ (not_hasReg (by unfold SSH_PORT_LPM.addr; rw [if_pos hn]; omega) (SSH_PORT_LPM.ix n hn) hb hany)
theorem SSH_PORT_EVT.kept {m b : Nat} {s t : State} {n : Nat} (hn : n < 17) (h : Fr m b s t) (hb : b.testBit 29 = false) (hany : b.testBit 196 = false) :
    t.word (SSH_PORT_EVT.addr n) = s.word (SSH_PORT_EVT.addr n) :=
  h.word _ (not_hasReg (by unfold SSH_PORT_EVT.addr; rw [if_pos hn]; omega) (SSH_PORT_EVT.ix n hn) hb hany)
theorem SSH_DROPS.kept {m b : Nat} {s t : State} (h : Fr m b s t) (hb : b.testBit 30 = false) (hany : b.testBit 196 = false) :
    t.word SSH_DROPS.addr = s.word SSH_DROPS.addr := h.word _ (not_hasReg (by decide) SSH_DROPS.ix hb hany)
theorem SSH_USP_LPM.kept {m b : Nat} {s t : State} {n : Nat} (hn : n < 2) (h : Fr m b s t) (hb : b.testBit 31 = false) (hany : b.testBit 196 = false) :
    t.word (SSH_USP_LPM.addr n) = s.word (SSH_USP_LPM.addr n) :=
  h.word _ (not_hasReg (by unfold SSH_USP_LPM.addr; rw [if_pos hn]; omega) (SSH_USP_LPM.ix n hn) hb hany)
theorem SSH_PTM.kept {m b : Nat} {s t : State} {n : Nat} (hn : n < 2) (h : Fr m b s t) (hb : b.testBit 32 = false) (hany : b.testBit 196 = false) :
    t.word (SSH_PTM.addr n) = s.word (SSH_PTM.addr n) :=
  h.word _ (not_hasReg (by unfold SSH_PTM.addr; rw [if_pos hn]; omega) (SSH_PTM.ix n hn) hb hany)
theorem SSH_ITP.kept {m b : Nat} {s t : State} {n : Nat} (hn : n < 2) (h : Fr m b s t) (hb : b.testBit 33 = false) (hany : b.testBit 196 = false) :
    t.word (SSH_ITP.addr n) = s.word (SSH_ITP.addr n) :=
  h.word _ (not_hasReg (by unfold SSH_ITP.addr; rw [if_pos hn]; omega) (SSH_ITP.ix n hn) hb hany)
theorem SSH_ITP_REGEN.kept {m b : Nat} {s t : State} (h : Fr m b s t) (hb : b.testBit 34 = false) (hany : b.testBit 196 = false) :
    t.word SSH_ITP_REGEN.addr = s.word SSH_ITP_REGEN.addr := h.word _ (not_hasReg (by decide) SSH_ITP_REGEN.ix hb hany)
theorem SSH_X_TUNE.kept {m b : Nat} {s t : State} (h : Fr m b s t) (hb : b.testBit 35 = false) (hany : b.testBit 196 = false) :
    t.word SSH_X_TUNE.addr = s.word SSH_X_TUNE.addr := h.word _ (not_hasReg (by decide) SSH_X_TUNE.ix hb hany)
theorem SSH_X_VOTE.kept {m b : Nat} {s t : State} (h : Fr m b s t) (hb : b.testBit 36 = false) (hany : b.testBit 196 = false) :
    t.word SSH_X_VOTE.addr = s.word SSH_X_VOTE.addr := h.word _ (not_hasReg (by decide) SSH_X_VOTE.ix hb hany)
theorem PBF_CTRL.kept {m b : Nat} {s t : State} (h : Fr m b s t) (hb : b.testBit 37 = false) (hany : b.testBit 196 = false) :
    t.word PBF_CTRL.addr = s.word PBF_CTRL.addr := h.word _ (not_hasReg (by decide) PBF_CTRL.ix hb hany)
theorem PBF_STATUS.kept {m b : Nat} {s t : State} (h : Fr m b s t) (hb : b.testBit 38 = false) (hany : b.testBit 196 = false) :
    t.word PBF_STATUS.addr = s.word PBF_STATUS.addr := h.word _ (not_hasReg (by decide) PBF_STATUS.ix hb hany)
theorem PBF_SHARED.kept {m b : Nat} {s t : State} (h : Fr m b s t) (hb : b.testBit 39 = false) (hany : b.testBit 196 = false) :
    t.word PBF_SHARED.addr = s.word PBF_SHARED.addr := h.word _ (not_hasReg (by decide) PBF_SHARED.ix hb hany)
theorem PBF_SHARED_FREE.kept {m b : Nat} {s t : State} (h : Fr m b s t) (hb : b.testBit 40 = false) (hany : b.testBit 196 = false) :
    t.word PBF_SHARED_FREE.addr = s.word PBF_SHARED_FREE.addr := h.word _ (not_hasReg (by decide) PBF_SHARED_FREE.ix hb hany)
theorem PBF_BANK_FREE.kept {m b : Nat} {s t : State} {n : Nat} (hn : n < 8) (h : Fr m b s t) (hb : b.testBit 41 = false) (hany : b.testBit 196 = false) :
    t.word (PBF_BANK_FREE.addr n) = s.word (PBF_BANK_FREE.addr n) :=
  h.word _ (not_hasReg (by unfold PBF_BANK_FREE.addr; rw [if_pos hn]; omega) (PBF_BANK_FREE.ix n hn) hb hany)
theorem PBF_RESV.kept {m b : Nat} {s t : State} {n : Nat} (hn : n < 22) (h : Fr m b s t) (hb : b.testBit 42 = false) (hany : b.testBit 196 = false) :
    t.word (PBF_RESV.addr n) = s.word (PBF_RESV.addr n) :=
  h.word _ (not_hasReg (by unfold PBF_RESV.addr; rw [if_pos hn]; omega) (PBF_RESV.ix n hn) hb hany)
theorem PBF_USED.kept {m b : Nat} {s t : State} {n : Nat} (hn : n < 22) (h : Fr m b s t) (hb : b.testBit 43 = false) (hany : b.testBit 196 = false) :
    t.word (PBF_USED.addr n) = s.word (PBF_USED.addr n) :=
  h.word _ (not_hasReg (by unfold PBF_USED.addr; rw [if_pos hn]; omega) (PBF_USED.ix n hn) hb hany)
theorem PBF_EVT.kept {m b : Nat} {s t : State} (h : Fr m b s t) (hb : b.testBit 44 = false) (hany : b.testBit 196 = false) :
    t.word PBF_EVT.addr = s.word PBF_EVT.addr := h.word _ (not_hasReg (by decide) PBF_EVT.ix hb hany)
theorem PBF_ECC_COUNT.kept {m b : Nat} {s t : State} (h : Fr m b s t) (hb : b.testBit 45 = false) (hany : b.testBit 196 = false) :
    t.word PBF_ECC_COUNT.addr = s.word PBF_ECC_COUNT.addr := h.word _ (not_hasReg (by decide) PBF_ECC_COUNT.ix hb hany)
theorem PBF_X_TUNE.kept {m b : Nat} {s t : State} (h : Fr m b s t) (hb : b.testBit 46 = false) (hany : b.testBit 196 = false) :
    t.word PBF_X_TUNE.addr = s.word PBF_X_TUNE.addr := h.word _ (not_hasReg (by decide) PBF_X_TUNE.ix hb hany)
theorem PBF_X_ARB.kept {m b : Nat} {s t : State} (h : Fr m b s t) (hb : b.testBit 47 = false) (hany : b.testBit 196 = false) :
    t.word PBF_X_ARB.addr = s.word PBF_X_ARB.addr := h.word _ (not_hasReg (by decide) PBF_X_ARB.ix hb hany)
theorem HSH_CTRL.kept {m b : Nat} {s t : State} (h : Fr m b s t) (hb : b.testBit 48 = false) (hany : b.testBit 196 = false) :
    t.word HSH_CTRL.addr = s.word HSH_CTRL.addr := h.word _ (not_hasReg (by decide) HSH_CTRL.ix hb hany)
theorem HSH_ENG.kept {m b : Nat} {s t : State} {n : Nat} (hn : n < 4) (h : Fr m b s t) (hb : b.testBit 49 = false) (hany : b.testBit 196 = false) :
    t.word (HSH_ENG.addr n) = s.word (HSH_ENG.addr n) :=
  h.word _ (not_hasReg (by unfold HSH_ENG.addr; rw [if_pos hn]; omega) (HSH_ENG.ix n hn) hb hany)
theorem HSH_PORT.kept {m b : Nat} {s t : State} {n : Nat} (hn : n < 15) (h : Fr m b s t) (hb : b.testBit 50 = false) (hany : b.testBit 196 = false) :
    t.word (HSH_PORT.addr n) = s.word (HSH_PORT.addr n) :=
  h.word _ (not_hasReg (by unfold HSH_PORT.addr; rw [if_pos hn]; omega) (HSH_PORT.ix n hn) hb hany)
theorem HSH_PORT_EVT.kept {m b : Nat} {s t : State} {n : Nat} (hn : n < 15) (h : Fr m b s t) (hb : b.testBit 51 = false) (hany : b.testBit 196 = false) :
    t.word (HSH_PORT_EVT.addr n) = s.word (HSH_PORT_EVT.addr n) :=
  h.word _ (not_hasReg (by unfold HSH_PORT_EVT.addr; rw [if_pos hn]; omega) (HSH_PORT_EVT.ix n hn) hb hany)
theorem HSH_CARRY.kept {m b : Nat} {s t : State} {n : Nat} (hn : n < 4) (h : Fr m b s t) (hb : b.testBit 52 = false) (hany : b.testBit 196 = false) :
    t.word (HSH_CARRY.addr n) = s.word (HSH_CARRY.addr n) :=
  h.word _ (not_hasReg (by unfold HSH_CARRY.addr; rw [if_pos hn]; omega) (HSH_CARRY.ix n hn) hb hany)
theorem HSH_EVT.kept {m b : Nat} {s t : State} (h : Fr m b s t) (hb : b.testBit 53 = false) (hany : b.testBit 196 = false) :
    t.word HSH_EVT.addr = s.word HSH_EVT.addr := h.word _ (not_hasReg (by decide) HSH_EVT.ix hb hany)
theorem HSH_ORDERS.kept {m b : Nat} {s t : State} (h : Fr m b s t) (hb : b.testBit 54 = false) (hany : b.testBit 196 = false) :
    t.word HSH_ORDERS.addr = s.word HSH_ORDERS.addr := h.word _ (not_hasReg (by decide) HSH_ORDERS.ix hb hany)
theorem HSH_X_TUNE.kept {m b : Nat} {s t : State} (h : Fr m b s t) (hb : b.testBit 55 = false) (hany : b.testBit 196 = false) :
    t.word HSH_X_TUNE.addr = s.word HSH_X_TUNE.addr := h.word _ (not_hasReg (by decide) HSH_X_TUNE.ix hb hany)
theorem TTA_CTRL.kept {m b : Nat} {s t : State} (h : Fr m b s t) (hb : b.testBit 56 = false) (hany : b.testBit 196 = false) :
    t.word TTA_CTRL.addr = s.word TTA_CTRL.addr := h.word _ (not_hasReg (by decide) TTA_CTRL.ix hb hany)
theorem TTA_TT.kept {m b : Nat} {s t : State} {n : Nat} (hn : n < 15) (h : Fr m b s t) (hb : b.testBit 57 = false) (hany : b.testBit 196 = false) :
    t.word (TTA_TT.addr n) = s.word (TTA_TT.addr n) :=
  h.word _ (not_hasReg (by unfold TTA_TT.addr; rw [if_pos hn]; omega) (TTA_TT.ix n hn) hb hany)
theorem TTA_EVT.kept {m b : Nat} {s t : State} {n : Nat} (hn : n < 15) (h : Fr m b s t) (hb : b.testBit 58 = false) (hany : b.testBit 196 = false) :
    t.word (TTA_EVT.addr n) = s.word (TTA_EVT.addr n) :=
  h.word _ (not_hasReg (by unfold TTA_EVT.addr; rw [if_pos hn]; omega) (TTA_EVT.ix n hn) hb hany)
theorem TTA_COUNT.kept {m b : Nat} {s t : State} {n : Nat} (hn : n < 15) (h : Fr m b s t) (hb : b.testBit 59 = false) (hany : b.testBit 196 = false) :
    t.word (TTA_COUNT.addr n) = s.word (TTA_COUNT.addr n) :=
  h.word _ (not_hasReg (by unfold TTA_COUNT.addr; rw [if_pos hn]; omega) (TTA_COUNT.ix n hn) hb hany)
theorem TTA_CMD.kept {m b : Nat} {s t : State} (h : Fr m b s t) (hb : b.testBit 60 = false) (hany : b.testBit 196 = false) :
    t.word TTA_CMD.addr = s.word TTA_CMD.addr := h.word _ (not_hasReg (by decide) TTA_CMD.ix hb hany)
theorem TTA_X_TUNE.kept {m b : Nat} {s t : State} (h : Fr m b s t) (hb : b.testBit 61 = false) (hany : b.testBit 196 = false) :
    t.word TTA_X_TUNE.addr = s.word TTA_X_TUNE.addr := h.word _ (not_hasReg (by decide) TTA_X_TUNE.ix hb hany)
theorem UPP_PADDOCK.kept {m b : Nat} {s t : State} {n : Nat} (hn : n < 2) (h : Fr m b s t) (hb : b.testBit 62 = false) (hany : b.testBit 196 = false) :
    t.word (UPP_PADDOCK.addr n) = s.word (UPP_PADDOCK.addr n) :=
  h.word _ (not_hasReg (by unfold UPP_PADDOCK.addr; rw [if_pos hn]; omega) (UPP_PADDOCK.ix n hn) hb hany)
theorem UPP_MIR_SEL.kept {m b : Nat} {s t : State} (h : Fr m b s t) (hb : b.testBit 63 = false) (hany : b.testBit 196 = false) :
    t.word UPP_MIR_SEL.addr = s.word UPP_MIR_SEL.addr := h.word _ (not_hasReg (by decide) UPP_MIR_SEL.ix hb hany)
theorem UPP_MIR_HS.kept {m b : Nat} {s t : State} (h : Fr m b s t) (hb : b.testBit 64 = false) (hany : b.testBit 196 = false) :
    t.word UPP_MIR_HS.addr = s.word UPP_MIR_HS.addr := h.word _ (not_hasReg (by decide) UPP_MIR_HS.ix hb hany)
theorem UPP_MIR_SS.kept {m b : Nat} {s t : State} (h : Fr m b s t) (hb : b.testBit 65 = false) (hany : b.testBit 196 = false) :
    t.word UPP_MIR_SS.addr = s.word UPP_MIR_SS.addr := h.word _ (not_hasReg (by decide) UPP_MIR_SS.ix hb hany)
theorem UPP_MIR_INFO.kept {m b : Nat} {s t : State} (h : Fr m b s t) (hb : b.testBit 66 = false) (hany : b.testBit 196 = false) :
    t.word UPP_MIR_INFO.addr = s.word UPP_MIR_INFO.addr := h.word _ (not_hasReg (by decide) UPP_MIR_INFO.ix hb hany)
theorem UPP_HANDOFF.kept {m b : Nat} {s t : State} (h : Fr m b s t) (hb : b.testBit 67 = false) (hany : b.testBit 196 = false) :
    t.word UPP_HANDOFF.addr = s.word UPP_HANDOFF.addr := h.word _ (not_hasReg (by decide) UPP_HANDOFF.ix hb hany)
theorem UPP_EVT.kept {m b : Nat} {s t : State} (h : Fr m b s t) (hb : b.testBit 68 = false) (hany : b.testBit 196 = false) :
    t.word UPP_EVT.addr = s.word UPP_EVT.addr := h.word _ (not_hasReg (by decide) UPP_EVT.ix hb hany)
theorem UPP_X_HANDOFF.kept {m b : Nat} {s t : State} (h : Fr m b s t) (hb : b.testBit 69 = false) (hany : b.testBit 196 = false) :
    t.word UPP_X_HANDOFF.addr = s.word UPP_X_HANDOFF.addr := h.word _ (not_hasReg (by decide) UPP_X_HANDOFF.ix hb hany)
theorem GLK_CTRL.kept {m b : Nat} {s t : State} (h : Fr m b s t) (hb : b.testBit 70 = false) (hany : b.testBit 196 = false) :
    t.word GLK_CTRL.addr = s.word GLK_CTRL.addr := h.word _ (not_hasReg (by decide) GLK_CTRL.ix hb hany)
theorem GLK_LINK.kept {m b : Nat} {s t : State} {n : Nat} (hn : n < 4) (h : Fr m b s t) (hb : b.testBit 71 = false) (hany : b.testBit 196 = false) :
    t.word (GLK_LINK.addr n) = s.word (GLK_LINK.addr n) :=
  h.word _ (not_hasReg (by unfold GLK_LINK.addr; rw [if_pos hn]; omega) (GLK_LINK.ix n hn) hb hany)
theorem GLK_DELAY.kept {m b : Nat} {s t : State} {n : Nat} (hn : n < 4) (h : Fr m b s t) (hb : b.testBit 72 = false) (hany : b.testBit 196 = false) :
    t.word (GLK_DELAY.addr n) = s.word (GLK_DELAY.addr n) :=
  h.word _ (not_hasReg (by unfold GLK_DELAY.addr; rw [if_pos hn]; omega) (GLK_DELAY.ix n hn) hb hany)
theorem GLK_ERR.kept {m b : Nat} {s t : State} {n : Nat} (hn : n < 4) (h : Fr m b s t) (hb : b.testBit 73 = false) (hany : b.testBit 196 = false) :
    t.word (GLK_ERR.addr n) = s.word (GLK_ERR.addr n) :=
  h.word _ (not_hasReg (by unfold GLK_ERR.addr; rw [if_pos hn]; omega) (GLK_ERR.ix n hn) hb hany)
theorem GLK_EVT.kept {m b : Nat} {s t : State} {n : Nat} (hn : n < 4) (h : Fr m b s t) (hb : b.testBit 74 = false) (hany : b.testBit 196 = false) :
    t.word (GLK_EVT.addr n) = s.word (GLK_EVT.addr n) :=
  h.word _ (not_hasReg (by unfold GLK_EVT.addr; rw [if_pos hn]; omega) (GLK_EVT.ix n hn) hb hany)
theorem GLK_HB.kept {m b : Nat} {s t : State} {n : Nat} (hn : n < 4) (h : Fr m b s t) (hb : b.testBit 75 = false) (hany : b.testBit 196 = false) :
    t.word (GLK_HB.addr n) = s.word (GLK_HB.addr n) :=
  h.word _ (not_hasReg (by unfold GLK_HB.addr; rw [if_pos hn]; omega) (GLK_HB.ix n hn) hb hany)
theorem GLK_WAKE.kept {m b : Nat} {s t : State} (h : Fr m b s t) (hb : b.testBit 76 = false) (hany : b.testBit 196 = false) :
    t.word GLK_WAKE.addr = s.word GLK_WAKE.addr := h.word _ (not_hasReg (by decide) GLK_WAKE.ix hb hany)
theorem GLK_X_TUNE.kept {m b : Nat} {s t : State} (h : Fr m b s t) (hb : b.testBit 77 = false) (hany : b.testBit 196 = false) :
    t.word GLK_X_TUNE.addr = s.word GLK_X_TUNE.addr := h.word _ (not_hasReg (by decide) GLK_X_TUNE.ix hb hany)
theorem DRV_CTRL.kept {m b : Nat} {s t : State} (h : Fr m b s t) (hb : b.testBit 78 = false) (hany : b.testBit 196 = false) :
    t.word DRV_CTRL.addr = s.word DRV_CTRL.addr := h.word _ (not_hasReg (by decide) DRV_CTRL.ix hb hany)
theorem DRV_BARN.kept {m b : Nat} {s t : State} (h : Fr m b s t) (hb : b.testBit 79 = false) (hany : b.testBit 196 = false) :
    t.word DRV_BARN.addr = s.word DRV_BARN.addr := h.word _ (not_hasReg (by decide) DRV_BARN.ix hb hany)
theorem DRV_ROUTE.kept {m b : Nat} {s t : State} {n : Nat} (hn : n < 8) (h : Fr m b s t) (hb : b.testBit 80 = false) (hany : b.testBit 196 = false) :
    t.word (DRV_ROUTE.addr n) = s.word (DRV_ROUTE.addr n) :=
  h.word _ (not_hasReg (by unfold DRV_ROUTE.addr; rw [if_pos hn]; omega) (DRV_ROUTE.ix n hn) hb hany)
theorem DRV_LOAD.kept {m b : Nat} {s t : State} {n : Nat} (hn : n < 4) (h : Fr m b s t) (hb : b.testBit 81 = false) (hany : b.testBit 196 = false) :
    t.word (DRV_LOAD.addr n) = s.word (DRV_LOAD.addr n) :=
  h.word _ (not_hasReg (by unfold DRV_LOAD.addr; rw [if_pos hn]; omega) (DRV_LOAD.ix n hn) hb hany)
theorem DRV_FLOWS.kept {m b : Nat} {s t : State} (h : Fr m b s t) (hb : b.testBit 82 = false) (hany : b.testBit 196 = false) :
    t.word DRV_FLOWS.addr = s.word DRV_FLOWS.addr := h.word _ (not_hasReg (by decide) DRV_FLOWS.ix hb hany)
theorem DRV_REBAL.kept {m b : Nat} {s t : State} (h : Fr m b s t) (hb : b.testBit 83 = false) (hany : b.testBit 196 = false) :
    t.word DRV_REBAL.addr = s.word DRV_REBAL.addr := h.word _ (not_hasReg (by decide) DRV_REBAL.ix hb hany)
theorem DRV_SEED_LO.kept {m b : Nat} {s t : State} (h : Fr m b s t) (hb : b.testBit 84 = false) (hany : b.testBit 196 = false) :
    t.word DRV_SEED_LO.addr = s.word DRV_SEED_LO.addr := h.word _ (not_hasReg (by decide) DRV_SEED_LO.ix hb hany)
theorem DRV_SEED_HI.kept {m b : Nat} {s t : State} (h : Fr m b s t) (hb : b.testBit 85 = false) (hany : b.testBit 196 = false) :
    t.word DRV_SEED_HI.addr = s.word DRV_SEED_HI.addr := h.word _ (not_hasReg (by decide) DRV_SEED_HI.ix hb hany)
theorem DRV_REROUTE.kept {m b : Nat} {s t : State} (h : Fr m b s t) (hb : b.testBit 86 = false) (hany : b.testBit 196 = false) :
    t.word DRV_REROUTE.addr = s.word DRV_REROUTE.addr := h.word _ (not_hasReg (by decide) DRV_REROUTE.ix hb hany)
theorem DRV_EVT.kept {m b : Nat} {s t : State} (h : Fr m b s t) (hb : b.testBit 87 = false) (hany : b.testBit 196 = false) :
    t.word DRV_EVT.addr = s.word DRV_EVT.addr := h.word _ (not_hasReg (by decide) DRV_EVT.ix hb hany)
theorem DRV_X_WRR.kept {m b : Nat} {s t : State} (h : Fr m b s t) (hb : b.testBit 88 = false) (hany : b.testBit 196 = false) :
    t.word DRV_X_WRR.addr = s.word DRV_X_WRR.addr := h.word _ (not_hasReg (by decide) DRV_X_WRR.ix hb hany)
theorem DRV_X_REBAL.kept {m b : Nat} {s t : State} (h : Fr m b s t) (hb : b.testBit 89 = false) (hany : b.testBit 196 = false) :
    t.word DRV_X_REBAL.addr = s.word DRV_X_REBAL.addr := h.word _ (not_hasReg (by decide) DRV_X_REBAL.ix hb hany)
theorem TCP_CTRL.kept {m b : Nat} {s t : State} (h : Fr m b s t) (hb : b.testBit 90 = false) (hany : b.testBit 196 = false) :
    t.word TCP_CTRL.addr = s.word TCP_CTRL.addr := h.word _ (not_hasReg (by decide) TCP_CTRL.ix hb hany)
theorem TCP_PORT.kept {m b : Nat} {s t : State} {n : Nat} (hn : n < 17) (h : Fr m b s t) (hb : b.testBit 91 = false) (hany : b.testBit 196 = false) :
    t.word (TCP_PORT.addr n) = s.word (TCP_PORT.addr n) :=
  h.word _ (not_hasReg (by unfold TCP_PORT.addr; rw [if_pos hn]; omega) (TCP_PORT.ix n hn) hb hany)
theorem TCP_CONTRACT.kept {m b : Nat} {s t : State} {n : Nat} (hn : n < 17) (h : Fr m b s t) (hb : b.testBit 92 = false) (hany : b.testBit 196 = false) :
    t.word (TCP_CONTRACT.addr n) = s.word (TCP_CONTRACT.addr n) :=
  h.word _ (not_hasReg (by unfold TCP_CONTRACT.addr; rw [if_pos hn]; omega) (TCP_CONTRACT.ix n hn) hb hany)
theorem TCP_VSET.kept {m b : Nat} {s t : State} {n : Nat} (hn : n < 17) (h : Fr m b s t) (hb : b.testBit 93 = false) (hany : b.testBit 196 = false) :
    t.word (TCP_VSET.addr n) = s.word (TCP_VSET.addr n) :=
  h.word _ (not_hasReg (by unfold TCP_VSET.addr; rw [if_pos hn]; omega) (TCP_VSET.ix n hn) hb hany)
theorem TCP_CABLE.kept {m b : Nat} {s t : State} {n : Nat} (hn : n < 17) (h : Fr m b s t) (hb : b.testBit 94 = false) (hany : b.testBit 196 = false) :
    t.word (TCP_CABLE.addr n) = s.word (TCP_CABLE.addr n) :=
  h.word _ (not_hasReg (by unfold TCP_CABLE.addr; rw [if_pos hn]; omega) (TCP_CABLE.ix n hn) hb hany)
theorem TCP_EVT.kept {m b : Nat} {s t : State} {n : Nat} (hn : n < 17) (h : Fr m b s t) (hb : b.testBit 95 = false) (hany : b.testBit 196 = false) :
    t.word (TCP_EVT.addr n) = s.word (TCP_EVT.addr n) :=
  h.word _ (not_hasReg (by unfold TCP_EVT.addr; rw [if_pos hn]; omega) (TCP_EVT.ix n hn) hb hany)
theorem TCP_DP.kept {m b : Nat} {s t : State} {n : Nat} (hn : n < 2) (h : Fr m b s t) (hb : b.testBit 96 = false) (hany : b.testBit 196 = false) :
    t.word (TCP_DP.addr n) = s.word (TCP_DP.addr n) :=
  h.word _ (not_hasReg (by unfold TCP_DP.addr; rw [if_pos hn]; omega) (TCP_DP.ix n hn) hb hany)
theorem TCP_X_TIMER.kept {m b : Nat} {s t : State} (h : Fr m b s t) (hb : b.testBit 97 = false) (hany : b.testBit 196 = false) :
    t.word TCP_X_TIMER.addr = s.word TCP_X_TIMER.addr := h.word _ (not_hasReg (by decide) TCP_X_TIMER.ix hb hany)
theorem PPW_CTRL.kept {m b : Nat} {s t : State} (h : Fr m b s t) (hb : b.testBit 98 = false) (hany : b.testBit 196 = false) :
    t.word PPW_CTRL.addr = s.word PPW_CTRL.addr := h.word _ (not_hasReg (by decide) PPW_CTRL.ix hb hany)
theorem PPW_PG.kept {m b : Nat} {s t : State} (h : Fr m b s t) (hb : b.testBit 99 = false) (hany : b.testBit 196 = false) :
    t.word PPW_PG.addr = s.word PPW_PG.addr := h.word _ (not_hasReg (by decide) PPW_PG.ix hb hany)
theorem PPW_SEAT.kept {m b : Nat} {s t : State} (h : Fr m b s t) (hb : b.testBit 100 = false) (hany : b.testBit 196 = false) :
    t.word PPW_SEAT.addr = s.word PPW_SEAT.addr := h.word _ (not_hasReg (by decide) PPW_SEAT.ix hb hany)
theorem PPW_CLEAR.kept {m b : Nat} {s t : State} (h : Fr m b s t) (hb : b.testBit 101 = false) (hany : b.testBit 196 = false) :
    t.word PPW_CLEAR.addr = s.word PPW_CLEAR.addr := h.word _ (not_hasReg (by decide) PPW_CLEAR.ix hb hany)
theorem PPW_RAMP.kept {m b : Nat} {s t : State} {n : Nat} (hn : n < 17) (h : Fr m b s t) (hb : b.testBit 102 = false) (hany : b.testBit 196 = false) :
    t.word (PPW_RAMP.addr n) = s.word (PPW_RAMP.addr n) :=
  h.word _ (not_hasReg (by unfold PPW_RAMP.addr; rw [if_pos hn]; omega) (PPW_RAMP.ix n hn) hb hany)
theorem PPW_LIMIT.kept {m b : Nat} {s t : State} {n : Nat} (hn : n < 17) (h : Fr m b s t) (hb : b.testBit 103 = false) (hany : b.testBit 196 = false) :
    t.word (PPW_LIMIT.addr n) = s.word (PPW_LIMIT.addr n) :=
  h.word _ (not_hasReg (by unfold PPW_LIMIT.addr; rw [if_pos hn]; omega) (PPW_LIMIT.ix n hn) hb hany)
theorem PPW_TRIP.kept {m b : Nat} {s t : State} {n : Nat} (hn : n < 17) (h : Fr m b s t) (hb : b.testBit 104 = false) (hany : b.testBit 196 = false) :
    t.word (PPW_TRIP.addr n) = s.word (PPW_TRIP.addr n) :=
  h.word _ (not_hasReg (by unfold PPW_TRIP.addr; rw [if_pos hn]; omega) (PPW_TRIP.ix n hn) hb hany)
theorem PPW_RETRY.kept {m b : Nat} {s t : State} {n : Nat} (hn : n < 17) (h : Fr m b s t) (hb : b.testBit 105 = false) (hany : b.testBit 196 = false) :
    t.word (PPW_RETRY.addr n) = s.word (PPW_RETRY.addr n) :=
  h.word _ (not_hasReg (by unfold PPW_RETRY.addr; rw [if_pos hn]; omega) (PPW_RETRY.ix n hn) hb hany)
theorem PPW_STATUS.kept {m b : Nat} {s t : State} {n : Nat} (hn : n < 17) (h : Fr m b s t) (hb : b.testBit 106 = false) (hany : b.testBit 196 = false) :
    t.word (PPW_STATUS.addr n) = s.word (PPW_STATUS.addr n) :=
  h.word _ (not_hasReg (by unfold PPW_STATUS.addr; rw [if_pos hn]; omega) (PPW_STATUS.ix n hn) hb hany)
theorem PPW_EVT.kept {m b : Nat} {s t : State} {n : Nat} (hn : n < 17) (h : Fr m b s t) (hb : b.testBit 107 = false) (hany : b.testBit 196 = false) :
    t.word (PPW_EVT.addr n) = s.word (PPW_EVT.addr n) :=
  h.word _ (not_hasReg (by unfold PPW_EVT.addr; rw [if_pos hn]; omega) (PPW_EVT.ix n hn) hb hany)
theorem PPW_X_GATE.kept {m b : Nat} {s t : State} (h : Fr m b s t) (hb : b.testBit 108 = false) (hany : b.testBit 196 = false) :
    t.word PPW_X_GATE.addr = s.word PPW_X_GATE.addr := h.word _ (not_hasReg (by decide) PPW_X_GATE.ix hb hany)
theorem TLM_CTRL.kept {m b : Nat} {s t : State} (h : Fr m b s t) (hb : b.testBit 109 = false) (hany : b.testBit 196 = false) :
    t.word TLM_CTRL.addr = s.word TLM_CTRL.addr := h.word _ (not_hasReg (by decide) TLM_CTRL.ix hb hany)
theorem TLM_ECLR.kept {m b : Nat} {s t : State} (h : Fr m b s t) (hb : b.testBit 110 = false) (hany : b.testBit 196 = false) :
    t.word TLM_ECLR.addr = s.word TLM_ECLR.addr := h.word _ (not_hasReg (by decide) TLM_ECLR.ix hb hany)
theorem TLM_INPUT.kept {m b : Nat} {s t : State} (h : Fr m b s t) (hb : b.testBit 111 = false) (hany : b.testBit 196 = false) :
    t.word TLM_INPUT.addr = s.word TLM_INPUT.addr := h.word _ (not_hasReg (by decide) TLM_INPUT.ix hb hany)
theorem TLM_TEMP.kept {m b : Nat} {s t : State} (h : Fr m b s t) (hb : b.testBit 112 = false) (hany : b.testBit 196 = false) :
    t.word TLM_TEMP.addr = s.word TLM_TEMP.addr := h.word _ (not_hasReg (by decide) TLM_TEMP.ix hb hany)
theorem TLM_INWARN.kept {m b : Nat} {s t : State} (h : Fr m b s t) (hb : b.testBit 113 = false) (hany : b.testBit 196 = false) :
    t.word TLM_INWARN.addr = s.word TLM_INWARN.addr := h.word _ (not_hasReg (by decide) TLM_INWARN.ix hb hany)
theorem TLM_INST.kept {m b : Nat} {s t : State} {n : Nat} (hn : n < 17) (h : Fr m b s t) (hb : b.testBit 114 = false) (hany : b.testBit 196 = false) :
    t.word (TLM_INST.addr n) = s.word (TLM_INST.addr n) :=
  h.word _ (not_hasReg (by unfold TLM_INST.addr; rw [if_pos hn]; omega) (TLM_INST.ix n hn) hb hany)
theorem TLM_AVG1MS.kept {m b : Nat} {s t : State} {n : Nat} (hn : n < 17) (h : Fr m b s t) (hb : b.testBit 115 = false) (hany : b.testBit 196 = false) :
    t.word (TLM_AVG1MS.addr n) = s.word (TLM_AVG1MS.addr n) :=
  h.word _ (not_hasReg (by unfold TLM_AVG1MS.addr; rw [if_pos hn]; omega) (TLM_AVG1MS.ix n hn) hb hany)
theorem TLM_AVG100MS.kept {m b : Nat} {s t : State} {n : Nat} (hn : n < 17) (h : Fr m b s t) (hb : b.testBit 116 = false) (hany : b.testBit 196 = false) :
    t.word (TLM_AVG100MS.addr n) = s.word (TLM_AVG100MS.addr n) :=
  h.word _ (not_hasReg (by unfold TLM_AVG100MS.addr; rw [if_pos hn]; omega) (TLM_AVG100MS.ix n hn) hb hany)
theorem TLM_AVG1S.kept {m b : Nat} {s t : State} {n : Nat} (hn : n < 17) (h : Fr m b s t) (hb : b.testBit 117 = false) (hany : b.testBit 196 = false) :
    t.word (TLM_AVG1S.addr n) = s.word (TLM_AVG1S.addr n) :=
  h.word _ (not_hasReg (by unfold TLM_AVG1S.addr; rw [if_pos hn]; omega) (TLM_AVG1S.ix n hn) hb hany)
theorem TLM_PWR.kept {m b : Nat} {s t : State} {n : Nat} (hn : n < 17) (h : Fr m b s t) (hb : b.testBit 118 = false) (hany : b.testBit 196 = false) :
    t.word (TLM_PWR.addr n) = s.word (TLM_PWR.addr n) :=
  h.word _ (not_hasReg (by unfold TLM_PWR.addr; rw [if_pos hn]; omega) (TLM_PWR.ix n hn) hb hany)
theorem TLM_ENERGY_LO.kept {m b : Nat} {s t : State} {n : Nat} (hn : n < 17) (h : Fr m b s t) (hb : b.testBit 119 = false) (hany : b.testBit 196 = false) :
    t.word (TLM_ENERGY_LO.addr n) = s.word (TLM_ENERGY_LO.addr n) :=
  h.word _ (not_hasReg (by unfold TLM_ENERGY_LO.addr; rw [if_pos hn]; omega) (TLM_ENERGY_LO.ix n hn) hb hany)
theorem TLM_ENERGY_HI.kept {m b : Nat} {s t : State} {n : Nat} (hn : n < 17) (h : Fr m b s t) (hb : b.testBit 120 = false) (hany : b.testBit 196 = false) :
    t.word (TLM_ENERGY_HI.addr n) = s.word (TLM_ENERGY_HI.addr n) :=
  h.word _ (not_hasReg (by unfold TLM_ENERGY_HI.addr; rw [if_pos hn]; omega) (TLM_ENERGY_HI.ix n hn) hb hany)
theorem TLM_PEAK.kept {m b : Nat} {s t : State} {n : Nat} (hn : n < 17) (h : Fr m b s t) (hb : b.testBit 121 = false) (hany : b.testBit 196 = false) :
    t.word (TLM_PEAK.addr n) = s.word (TLM_PEAK.addr n) :=
  h.word _ (not_hasReg (by unfold TLM_PEAK.addr; rw [if_pos hn]; omega) (TLM_PEAK.ix n hn) hb hany)
theorem BUD_CTRL.kept {m b : Nat} {s t : State} (h : Fr m b s t) (hb : b.testBit 122 = false) (hany : b.testBit 196 = false) :
    t.word BUD_CTRL.addr = s.word BUD_CTRL.addr := h.word _ (not_hasReg (by decide) BUD_CTRL.ix hb hany)
theorem BUD_STATUS.kept {m b : Nat} {s t : State} (h : Fr m b s t) (hb : b.testBit 123 = false) (hany : b.testBit 196 = false) :
    t.word BUD_STATUS.addr = s.word BUD_STATUS.addr := h.word _ (not_hasReg (by decide) BUD_STATUS.ix hb hany)
theorem BUD_STATE.kept {m b : Nat} {s t : State} (h : Fr m b s t) (hb : b.testBit 124 = false) (hany : b.testBit 196 = false) :
    t.word BUD_STATE.addr = s.word BUD_STATE.addr := h.word _ (not_hasReg (by decide) BUD_STATE.ix hb hany)
theorem BUD_EVT.kept {m b : Nat} {s t : State} (h : Fr m b s t) (hb : b.testBit 125 = false) (hany : b.testBit 196 = false) :
    t.word BUD_EVT.addr = s.word BUD_EVT.addr := h.word _ (not_hasReg (by decide) BUD_EVT.ix hb hany)
theorem BUD_PORT.kept {m b : Nat} {s t : State} {n : Nat} (hn : n < 17) (h : Fr m b s t) (hb : b.testBit 126 = false) (hany : b.testBit 196 = false) :
    t.word (BUD_PORT.addr n) = s.word (BUD_PORT.addr n) :=
  h.word _ (not_hasReg (by unfold BUD_PORT.addr; rw [if_pos hn]; omega) (BUD_PORT.ix n hn) hb hany)
theorem BUD_RLIM.kept {m b : Nat} {s t : State} {n : Nat} (hn : n < 17) (h : Fr m b s t) (hb : b.testBit 127 = false) (hany : b.testBit 196 = false) :
    t.word (BUD_RLIM.addr n) = s.word (BUD_RLIM.addr n) :=
  h.word _ (not_hasReg (by unfold BUD_RLIM.addr; rw [if_pos hn]; omega) (BUD_RLIM.ix n hn) hb hany)
theorem BUD_X_CTRL.kept {m b : Nat} {s t : State} (h : Fr m b s t) (hb : b.testBit 128 = false) (hany : b.testBit 196 = false) :
    t.word BUD_X_CTRL.addr = s.word BUD_X_CTRL.addr := h.word _ (not_hasReg (by decide) BUD_X_CTRL.ix hb hany)
theorem BUD_X_WARN.kept {m b : Nat} {s t : State} (h : Fr m b s t) (hb : b.testBit 129 = false) (hany : b.testBit 196 = false) :
    t.word BUD_X_WARN.addr = s.word BUD_X_WARN.addr := h.word _ (not_hasReg (by decide) BUD_X_WARN.ix hb hany)
theorem PDC_CTRL.kept {m b : Nat} {s t : State} (h : Fr m b s t) (hb : b.testBit 130 = false) (hany : b.testBit 196 = false) :
    t.word PDC_CTRL.addr = s.word PDC_CTRL.addr := h.word _ (not_hasReg (by decide) PDC_CTRL.ix hb hany)
theorem PDC_STATE.kept {m b : Nat} {s t : State} (h : Fr m b s t) (hb : b.testBit 131 = false) (hany : b.testBit 196 = false) :
    t.word PDC_STATE.addr = s.word PDC_STATE.addr := h.word _ (not_hasReg (by decide) PDC_STATE.ix hb hany)
theorem PDC_STICKY.kept {m b : Nat} {s t : State} (h : Fr m b s t) (hb : b.testBit 132 = false) (hany : b.testBit 196 = false) :
    t.word PDC_STICKY.addr = s.word PDC_STICKY.addr := h.word _ (not_hasReg (by decide) PDC_STICKY.ix hb hany)
theorem PDC_XTAL.kept {m b : Nat} {s t : State} (h : Fr m b s t) (hb : b.testBit 133 = false) (hany : b.testBit 196 = false) :
    t.word PDC_XTAL.addr = s.word PDC_XTAL.addr := h.word _ (not_hasReg (by decide) PDC_XTAL.ix hb hany)
theorem PDC_DOM.kept {m b : Nat} {s t : State} {n : Nat} (hn : n < 12) (h : Fr m b s t) (hb : b.testBit 134 = false) (hany : b.testBit 196 = false) :
    t.word (PDC_DOM.addr n) = s.word (PDC_DOM.addr n) :=
  h.word _ (not_hasReg (by unfold PDC_DOM.addr; rw [if_pos hn]; omega) (PDC_DOM.ix n hn) hb hany)
theorem PDC_VOTE.kept {m b : Nat} {s t : State} {n : Nat} (hn : n < 12) (h : Fr m b s t) (hb : b.testBit 135 = false) (hany : b.testBit 196 = false) :
    t.word (PDC_VOTE.addr n) = s.word (PDC_VOTE.addr n) :=
  h.word _ (not_hasReg (by unfold PDC_VOTE.addr; rw [if_pos hn]; omega) (PDC_VOTE.ix n hn) hb hany)
theorem PDC_MYVOTE.kept {m b : Nat} {s t : State} {n : Nat} (hn : n < 12) (h : Fr m b s t) (hb : b.testBit 136 = false) (hany : b.testBit 196 = false) :
    t.word (PDC_MYVOTE.addr n) = s.word (PDC_MYVOTE.addr n) :=
  h.word _ (not_hasReg (by unfold PDC_MYVOTE.addr; rw [if_pos hn]; omega) (PDC_MYVOTE.ix n hn) hb hany)
theorem PDC_CFG.kept {m b : Nat} {s t : State} {n : Nat} (hn : n < 12) (h : Fr m b s t) (hb : b.testBit 137 = false) (hany : b.testBit 196 = false) :
    t.word (PDC_CFG.addr n) = s.word (PDC_CFG.addr n) :=
  h.word _ (not_hasReg (by unfold PDC_CFG.addr; rw [if_pos hn]; omega) (PDC_CFG.ix n hn) hb hany)
theorem PDC_RETUS.kept {m b : Nat} {s t : State} {n : Nat} (hn : n < 12) (h : Fr m b s t) (hb : b.testBit 138 = false) (hany : b.testBit 196 = false) :
    t.word (PDC_RETUS.addr n) = s.word (PDC_RETUS.addr n) :=
  h.word _ (not_hasReg (by unfold PDC_RETUS.addr; rw [if_pos hn]; omega) (PDC_RETUS.ix n hn) hb hany)
theorem PDC_X_TIME.kept {m b : Nat} {s t : State} (h : Fr m b s t) (hb : b.testBit 139 = false) (hany : b.testBit 196 = false) :
    t.word PDC_X_TIME.addr = s.word PDC_X_TIME.addr := h.word _ (not_hasReg (by decide) PDC_X_TIME.ix hb hany)
theorem MBX_IN_W.kept {m b : Nat} {s t : State} {c w : Nat} (hn : c < 12 ∧ w < 16) (h : Fr m b s t) (hb : b.testBit 140 = false) (hany : b.testBit 196 = false) :
    t.word (MBX_IN_W.addr c w) = s.word (MBX_IN_W.addr c w) :=
  h.word _ (not_hasReg (by unfold MBX_IN_W.addr; rw [if_pos hn]; omega) (MBX_IN_W.ix hn) hb hany)
theorem MBX_OUT_W.kept {m b : Nat} {s t : State} {c w : Nat} (hn : c < 12 ∧ w < 16) (h : Fr m b s t) (hb : b.testBit 141 = false) (hany : b.testBit 196 = false) :
    t.word (MBX_OUT_W.addr c w) = s.word (MBX_OUT_W.addr c w) :=
  h.word _ (not_hasReg (by unfold MBX_OUT_W.addr; rw [if_pos hn]; omega) (MBX_OUT_W.ix hn) hb hany)
theorem MBX_IN_CTRL.kept {m b : Nat} {s t : State} {n : Nat} (hn : n < 12) (h : Fr m b s t) (hb : b.testBit 142 = false) (hany : b.testBit 196 = false) :
    t.word (MBX_IN_CTRL.addr n) = s.word (MBX_IN_CTRL.addr n) :=
  h.word _ (not_hasReg (by unfold MBX_IN_CTRL.addr; rw [if_pos hn]; omega) (MBX_IN_CTRL.ix n hn) hb hany)
theorem MBX_OUT_CTRL.kept {m b : Nat} {s t : State} {n : Nat} (hn : n < 12) (h : Fr m b s t) (hb : b.testBit 143 = false) (hany : b.testBit 196 = false) :
    t.word (MBX_OUT_CTRL.addr n) = s.word (MBX_OUT_CTRL.addr n) :=
  h.word _ (not_hasReg (by unfold MBX_OUT_CTRL.addr; rw [if_pos hn]; omega) (MBX_OUT_CTRL.ix n hn) hb hany)
theorem MBX_DB.kept {m b : Nat} {s t : State} {n : Nat} (hn : n < 12) (h : Fr m b s t) (hb : b.testBit 144 = false) (hany : b.testBit 196 = false) :
    t.word (MBX_DB.addr n) = s.word (MBX_DB.addr n) :=
  h.word _ (not_hasReg (by unfold MBX_DB.addr; rw [if_pos hn]; omega) (MBX_DB.ix n hn) hb hany)
theorem MBX_STATUS.kept {m b : Nat} {s t : State} {n : Nat} (hn : n < 12) (h : Fr m b s t) (hb : b.testBit 145 = false) (hany : b.testBit 196 = false) :
    t.word (MBX_STATUS.addr n) = s.word (MBX_STATUS.addr n) :=
  h.word _ (not_hasReg (by unfold MBX_STATUS.addr; rw [if_pos hn]; omega) (MBX_STATUS.ix n hn) hb hany)
theorem MBX_ASSIGN.kept {m b : Nat} {s t : State} {n : Nat} (hn : n < 12) (h : Fr m b s t) (hb : b.testBit 146 = false) (hany : b.testBit 196 = false) :
    t.word (MBX_ASSIGN.addr n) = s.word (MBX_ASSIGN.addr n) :=
  h.word _ (not_hasReg (by unfold MBX_ASSIGN.addr; rw [if_pos hn]; omega) (MBX_ASSIGN.ix n hn) hb hany)
theorem MBX_LOCK.kept {m b : Nat} {s t : State} {n : Nat} (hn : n < 16) (h : Fr m b s t) (hb : b.testBit 147 = false) (hany : b.testBit 196 = false) :
    t.word (MBX_LOCK.addr n) = s.word (MBX_LOCK.addr n) :=
  h.word _ (not_hasReg (by unfold MBX_LOCK.addr; rw [if_pos hn]; omega) (MBX_LOCK.ix n hn) hb hany)
theorem MBX_LOCK_OWN_LO.kept {m b : Nat} {s t : State} (h : Fr m b s t) (hb : b.testBit 148 = false) (hany : b.testBit 196 = false) :
    t.word MBX_LOCK_OWN_LO.addr = s.word MBX_LOCK_OWN_LO.addr := h.word _ (not_hasReg (by decide) MBX_LOCK_OWN_LO.ix hb hany)
theorem MBX_LOCK_OWN_HI.kept {m b : Nat} {s t : State} (h : Fr m b s t) (hb : b.testBit 149 = false) (hany : b.testBit 196 = false) :
    t.word MBX_LOCK_OWN_HI.addr = s.word MBX_LOCK_OWN_HI.addr := h.word _ (not_hasReg (by decide) MBX_LOCK_OWN_HI.ix hb hany)
theorem MBX_ERR.kept {m b : Nat} {s t : State} (h : Fr m b s t) (hb : b.testBit 150 = false) (hany : b.testBit 196 = false) :
    t.word MBX_ERR.addr = s.word MBX_ERR.addr := h.word _ (not_hasReg (by decide) MBX_ERR.ix hb hany)
theorem MBX_X_CTRL.kept {m b : Nat} {s t : State} (h : Fr m b s t) (hb : b.testBit 151 = false) (hany : b.testBit 196 = false) :
    t.word MBX_X_CTRL.addr = s.word MBX_X_CTRL.addr := h.word _ (not_hasReg (by decide) MBX_X_CTRL.ix hb hany)
theorem TKR_CTRL.kept {m b : Nat} {s t : State} (h : Fr m b s t) (hb : b.testBit 152 = false) (hany : b.testBit 196 = false) :
    t.word TKR_CTRL.addr = s.word TKR_CTRL.addr := h.word _ (not_hasReg (by decide) TKR_CTRL.ix hb hany)
theorem TKR_FUNC.kept {m b : Nat} {s t : State} {n : Nat} (hn : n < 2) (h : Fr m b s t) (hb : b.testBit 153 = false) (hany : b.testBit 196 = false) :
    t.word (TKR_FUNC.addr n) = s.word (TKR_FUNC.addr n) :=
  h.word _ (not_hasReg (by unfold TKR_FUNC.addr; rw [if_pos hn]; omega) (TKR_FUNC.ix n hn) hb hany)
theorem TKR_EVT.kept {m b : Nat} {s t : State} {n : Nat} (hn : n < 2) (h : Fr m b s t) (hb : b.testBit 154 = false) (hany : b.testBit 196 = false) :
    t.word (TKR_EVT.addr n) = s.word (TKR_EVT.addr n) :=
  h.word _ (not_hasReg (by unfold TKR_EVT.addr; rw [if_pos hn]; omega) (TKR_EVT.ix n hn) hb hany)
theorem TKR_SB.kept {m b : Nat} {s t : State} (h : Fr m b s t) (hb : b.testBit 155 = false) (hany : b.testBit 196 = false) :
    t.word TKR_SB.addr = s.word TKR_SB.addr := h.word _ (not_hasReg (by decide) TKR_SB.ix hb hany)
theorem TKR_ALERT.kept {m b : Nat} {s t : State} (h : Fr m b s t) (hb : b.testBit 156 = false) (hany : b.testBit 196 = false) :
    t.word TKR_ALERT.addr = s.word TKR_ALERT.addr := h.word _ (not_hasReg (by decide) TKR_ALERT.ix hb hany)
theorem TKR_ALERT_EN.kept {m b : Nat} {s t : State} (h : Fr m b s t) (hb : b.testBit 157 = false) (hany : b.testBit 196 = false) :
    t.word TKR_ALERT_EN.addr = s.word TKR_ALERT_EN.addr := h.word _ (not_hasReg (by decide) TKR_ALERT_EN.ix hb hany)
theorem TKR_AUTH.kept {m b : Nat} {s t : State} (h : Fr m b s t) (hb : b.testBit 158 = false) (hany : b.testBit 196 = false) :
    t.word TKR_AUTH.addr = s.word TKR_AUTH.addr := h.word _ (not_hasReg (by decide) TKR_AUTH.ix hb hany)
theorem TKR_X_CTRL.kept {m b : Nat} {s t : State} (h : Fr m b s t) (hb : b.testBit 159 = false) (hany : b.testBit 196 = false) :
    t.word TKR_X_CTRL.addr = s.word TKR_X_CTRL.addr := h.word _ (not_hasReg (by decide) TKR_X_CTRL.ix hb hany)
theorem OBS_Q_CTRL.kept {m b : Nat} {s t : State} {n : Nat} (hn : n < 4) (h : Fr m b s t) (hb : b.testBit 160 = false) (hany : b.testBit 196 = false) :
    t.word (OBS_Q_CTRL.addr n) = s.word (OBS_Q_CTRL.addr n) :=
  h.word _ (not_hasReg (by unfold OBS_Q_CTRL.addr; rw [if_pos hn]; omega) (OBS_Q_CTRL.ix n hn) hb hany)
theorem OBS_Q_DATA.kept {m b : Nat} {s t : State} {n : Nat} (hn : n < 4) (h : Fr m b s t) (hb : b.testBit 161 = false) (hany : b.testBit 196 = false) :
    t.word (OBS_Q_DATA.addr n) = s.word (OBS_Q_DATA.addr n) :=
  h.word _ (not_hasReg (by unfold OBS_Q_DATA.addr; rw [if_pos hn]; omega) (OBS_Q_DATA.ix n hn) hb hany)
theorem OBS_Q_STATUS.kept {m b : Nat} {s t : State} {n : Nat} (hn : n < 4) (h : Fr m b s t) (hb : b.testBit 162 = false) (hany : b.testBit 196 = false) :
    t.word (OBS_Q_STATUS.addr n) = s.word (OBS_Q_STATUS.addr n) :=
  h.word _ (not_hasReg (by unfold OBS_Q_STATUS.addr; rw [if_pos hn]; omega) (OBS_Q_STATUS.ix n hn) hb hany)
theorem OBS_Q_PTR.kept {m b : Nat} {s t : State} {n : Nat} (hn : n < 4) (h : Fr m b s t) (hb : b.testBit 163 = false) (hany : b.testBit 196 = false) :
    t.word (OBS_Q_PTR.addr n) = s.word (OBS_Q_PTR.addr n) :=
  h.word _ (not_hasReg (by unfold OBS_Q_PTR.addr; rw [if_pos hn]; omega) (OBS_Q_PTR.ix n hn) hb hany)
theorem OBS_Q_LOST.kept {m b : Nat} {s t : State} {n : Nat} (hn : n < 4) (h : Fr m b s t) (hb : b.testBit 164 = false) (hany : b.testBit 196 = false) :
    t.word (OBS_Q_LOST.addr n) = s.word (OBS_Q_LOST.addr n) :=
  h.word _ (not_hasReg (by unfold OBS_Q_LOST.addr; rw [if_pos hn]; omega) (OBS_Q_LOST.ix n hn) hb hany)
theorem OBS_CYCLE_LO.kept {m b : Nat} {s t : State} (h : Fr m b s t) (hb : b.testBit 165 = false) (hany : b.testBit 196 = false) :
    t.word OBS_CYCLE_LO.addr = s.word OBS_CYCLE_LO.addr := h.word _ (not_hasReg (by decide) OBS_CYCLE_LO.ix hb hany)
theorem OBS_CYCLE_HI.kept {m b : Nat} {s t : State} (h : Fr m b s t) (hb : b.testBit 166 = false) (hany : b.testBit 196 = false) :
    t.word OBS_CYCLE_HI.addr = s.word OBS_CYCLE_HI.addr := h.word _ (not_hasReg (by decide) OBS_CYCLE_HI.ix hb hany)
theorem OBS_PMU_CTRL.kept {m b : Nat} {s t : State} (h : Fr m b s t) (hb : b.testBit 167 = false) (hany : b.testBit 196 = false) :
    t.word OBS_PMU_CTRL.addr = s.word OBS_PMU_CTRL.addr := h.word _ (not_hasReg (by decide) OBS_PMU_CTRL.ix hb hany)
theorem OBS_PMU_OVF.kept {m b : Nat} {s t : State} (h : Fr m b s t) (hb : b.testBit 168 = false) (hany : b.testBit 196 = false) :
    t.word OBS_PMU_OVF.addr = s.word OBS_PMU_OVF.addr := h.word _ (not_hasReg (by decide) OBS_PMU_OVF.ix hb hany)
theorem OBS_PMU_EVT.kept {m b : Nat} {s t : State} {n : Nat} (hn : n < 8) (h : Fr m b s t) (hb : b.testBit 169 = false) (hany : b.testBit 196 = false) :
    t.word (OBS_PMU_EVT.addr n) = s.word (OBS_PMU_EVT.addr n) :=
  h.word _ (not_hasReg (by unfold OBS_PMU_EVT.addr; rw [if_pos hn]; omega) (OBS_PMU_EVT.ix n hn) hb hany)
theorem OBS_PMU_LO.kept {m b : Nat} {s t : State} {n : Nat} (hn : n < 8) (h : Fr m b s t) (hb : b.testBit 170 = false) (hany : b.testBit 196 = false) :
    t.word (OBS_PMU_LO.addr n) = s.word (OBS_PMU_LO.addr n) :=
  h.word _ (not_hasReg (by unfold OBS_PMU_LO.addr; rw [if_pos hn]; omega) (OBS_PMU_LO.ix n hn) hb hany)
theorem OBS_PMU_HI.kept {m b : Nat} {s t : State} {n : Nat} (hn : n < 8) (h : Fr m b s t) (hb : b.testBit 171 = false) (hany : b.testBit 196 = false) :
    t.word (OBS_PMU_HI.addr n) = s.word (OBS_PMU_HI.addr n) :=
  h.word _ (not_hasReg (by unfold OBS_PMU_HI.addr; rw [if_pos hn]; omega) (OBS_PMU_HI.ix n hn) hb hany)
theorem FLT_STATUS.kept {m b : Nat} {s t : State} (h : Fr m b s t) (hb : b.testBit 172 = false) (hany : b.testBit 196 = false) :
    t.word FLT_STATUS.addr = s.word FLT_STATUS.addr := h.word _ (not_hasReg (by decide) FLT_STATUS.ix hb hany)
theorem FLT_PINS.kept {m b : Nat} {s t : State} (h : Fr m b s t) (hb : b.testBit 173 = false) (hany : b.testBit 196 = false) :
    t.word FLT_PINS.addr = s.word FLT_PINS.addr := h.word _ (not_hasReg (by decide) FLT_PINS.ix hb hany)
theorem FLT_DUMP.kept {m b : Nat} {s t : State} (h : Fr m b s t) (hb : b.testBit 174 = false) (hany : b.testBit 196 = false) :
    t.word FLT_DUMP.addr = s.word FLT_DUMP.addr := h.word _ (not_hasReg (by decide) FLT_DUMP.ix hb hany)
theorem FLT_STICKY.kept {m b : Nat} {s t : State} {n : Nat} (hn : n < 4) (h : Fr m b s t) (hb : b.testBit 175 = false) (hany : b.testBit 196 = false) :
    t.word (FLT_STICKY.addr n) = s.word (FLT_STICKY.addr n) :=
  h.word _ (not_hasReg (by unfold FLT_STICKY.addr; rw [if_pos hn]; omega) (FLT_STICKY.ix n hn) hb hany)
theorem FLT_CLEAR.kept {m b : Nat} {s t : State} (h : Fr m b s t) (hb : b.testBit 176 = false) (hany : b.testBit 196 = false) :
    t.word FLT_CLEAR.addr = s.word FLT_CLEAR.addr := h.word _ (not_hasReg (by decide) FLT_CLEAR.ix hb hany)
theorem FLT_SEV.kept {m b : Nat} {s t : State} {n : Nat} (hn : n < 8) (h : Fr m b s t) (hb : b.testBit 177 = false) (hany : b.testBit 196 = false) :
    t.word (FLT_SEV.addr n) = s.word (FLT_SEV.addr n) :=
  h.word _ (not_hasReg (by unfold FLT_SEV.addr; rw [if_pos hn]; omega) (FLT_SEV.ix n hn) hb hany)
theorem FLT_ALERT.kept {m b : Nat} {s t : State} {n : Nat} (hn : n < 4) (h : Fr m b s t) (hb : b.testBit 178 = false) (hany : b.testBit 196 = false) :
    t.word (FLT_ALERT.addr n) = s.word (FLT_ALERT.addr n) :=
  h.word _ (not_hasReg (by unfold FLT_ALERT.addr; rw [if_pos hn]; omega) (FLT_ALERT.ix n hn) hb hany)
theorem FLT_QUAL.kept {m b : Nat} {s t : State} {n : Nat} (hn : n < 128) (h : Fr m b s t) (hb : b.testBit 179 = false) (hany : b.testBit 196 = false) :
    t.word (FLT_QUAL.addr n) = s.word (FLT_QUAL.addr n) :=
  h.word _ (not_hasReg (by unfold FLT_QUAL.addr; rw [if_pos hn]; omega) (FLT_QUAL.ix n hn) hb hany)
theorem FLT_X_FORCE.kept {m b : Nat} {s t : State} (h : Fr m b s t) (hb : b.testBit 180 = false) (hany : b.testBit 196 = false) :
    t.word FLT_X_FORCE.addr = s.word FLT_X_FORCE.addr := h.word _ (not_hasReg (by decide) FLT_X_FORCE.ix hb hany)
theorem FLT_X_INVERT.kept {m b : Nat} {s t : State} (h : Fr m b s t) (hb : b.testBit 181 = false) (hany : b.testBit 196 = false) :
    t.word FLT_X_INVERT.addr = s.word FLT_X_INVERT.addr := h.word _ (not_hasReg (by decide) FLT_X_INVERT.ix hb hany)
theorem TOP_ID.kept {m b : Nat} {s t : State} (h : Fr m b s t) (hb : b.testBit 182 = false) (hany : b.testBit 196 = false) :
    t.word TOP_ID.addr = s.word TOP_ID.addr := h.word _ (not_hasReg (by decide) TOP_ID.ix hb hany)
theorem TOP_STRAP.kept {m b : Nat} {s t : State} (h : Fr m b s t) (hb : b.testBit 183 = false) (hany : b.testBit 196 = false) :
    t.word TOP_STRAP.addr = s.word TOP_STRAP.addr := h.word _ (not_hasReg (by decide) TOP_STRAP.ix hb hany)
theorem TOP_MODE.kept {m b : Nat} {s t : State} (h : Fr m b s t) (hb : b.testBit 184 = false) (hany : b.testBit 196 = false) :
    t.word TOP_MODE.addr = s.word TOP_MODE.addr := h.word _ (not_hasReg (by decide) TOP_MODE.ix hb hany)
theorem TOP_RESET_CAUSE.kept {m b : Nat} {s t : State} (h : Fr m b s t) (hb : b.testBit 185 = false) (hany : b.testBit 196 = false) :
    t.word TOP_RESET_CAUSE.addr = s.word TOP_RESET_CAUSE.addr := h.word _ (not_hasReg (by decide) TOP_RESET_CAUSE.ix hb hany)
theorem TOP_BOOT_TIME.kept {m b : Nat} {s t : State} (h : Fr m b s t) (hb : b.testBit 186 = false) (hany : b.testBit 196 = false) :
    t.word TOP_BOOT_TIME.addr = s.word TOP_BOOT_TIME.addr := h.word _ (not_hasReg (by decide) TOP_BOOT_TIME.ix hb hany)
theorem TOP_X_RESET.kept {m b : Nat} {s t : State} (h : Fr m b s t) (hb : b.testBit 187 = false) (hany : b.testBit 196 = false) :
    t.word TOP_X_RESET.addr = s.word TOP_X_RESET.addr := h.word _ (not_hasReg (by decide) TOP_X_RESET.ix hb hany)
theorem TOP_EXPERT_KEY.kept {m b : Nat} {s t : State} {n : Nat} (hn : n < 2) (h : Fr m b s t) (hb : b.testBit 188 = false) (hany : b.testBit 196 = false) :
    t.word (TOP_EXPERT_KEY.addr n) = s.word (TOP_EXPERT_KEY.addr n) :=
  h.word _ (not_hasReg (by unfold TOP_EXPERT_KEY.addr; rw [if_pos hn]; omega) (TOP_EXPERT_KEY.ix n hn) hb hany)
theorem TOP_EXPERT.kept {m b : Nat} {s t : State} (h : Fr m b s t) (hb : b.testBit 189 = false) (hany : b.testBit 196 = false) :
    t.word TOP_EXPERT.addr = s.word TOP_EXPERT.addr := h.word _ (not_hasReg (by decide) TOP_EXPERT.ix hb hany)
theorem TOP_BUS_ERR.kept {m b : Nat} {s t : State} (h : Fr m b s t) (hb : b.testBit 190 = false) (hany : b.testBit 196 = false) :
    t.word TOP_BUS_ERR.addr = s.word TOP_BUS_ERR.addr := h.word _ (not_hasReg (by decide) TOP_BUS_ERR.ix hb hany)
theorem STL_STALL.kept {m b : Nat} {s t : State} {n : Nat} (hn : n < 15) (h : Fr m b s t) (hb : b.testBit 191 = false) (hany : b.testBit 196 = false) :
    t.word (STL_STALL.addr n) = s.word (STL_STALL.addr n) :=
  h.word _ (not_hasReg (by unfold STL_STALL.addr; rw [if_pos hn]; omega) (STL_STALL.ix n hn) hb hany)
theorem STL_LANE.kept {m b : Nat} {s t : State} {n : Nat} (hn : n < 28) (h : Fr m b s t) (hb : b.testBit 192 = false) (hany : b.testBit 196 = false) :
    t.word (STL_LANE.addr n) = s.word (STL_LANE.addr n) :=
  h.word _ (not_hasReg (by unfold STL_LANE.addr; rw [if_pos hn]; omega) (STL_LANE.ix n hn) hb hany)
theorem GPI_CFG.kept {m b : Nat} {s t : State} {n : Nat} (hn : n < 32) (h : Fr m b s t) (hb : b.testBit 193 = false) (hany : b.testBit 196 = false) :
    t.word (GPI_CFG.addr n) = s.word (GPI_CFG.addr n) :=
  h.word _ (not_hasReg (by unfold GPI_CFG.addr; rw [if_pos hn]; omega) (GPI_CFG.ix n hn) hb hany)
theorem GPI_IN.kept {m b : Nat} {s t : State} (h : Fr m b s t) (hb : b.testBit 194 = false) (hany : b.testBit 196 = false) :
    t.word GPI_IN.addr = s.word GPI_IN.addr := h.word _ (not_hasReg (by decide) GPI_IN.ix hb hany)
theorem GPI_OUT.kept {m b : Nat} {s t : State} (h : Fr m b s t) (hb : b.testBit 195 = false) (hany : b.testBit 196 = false) :
    t.word GPI_OUT.addr = s.word GPI_OUT.addr := h.word _ (not_hasReg (by decide) GPI_OUT.ix hb hany)

end Sys2Proof.Machine
end

