-- ==== Sys2Proof/Laws/Slots.lean ====
section
/-!
SUPPORT. The commit page of a plan file agrees with that file's header (R59, R60 of spec/03_yard_plan_life.md).
-/
namespace Sys2Proof.Machine

theorem leBytes_length : ∀ n x : Nat, (leBytes n x).length = n
  | 0, _ => rfl
  | n + 1, x => by simp [leBytes, leBytes_length n]

theorem leNat_leBytes : ∀ n x : Nat, leNat (leBytes n x) = x % 256 ^ n
  | 0, x => by simp [leBytes, leNat, Nat.mod_one]
  | n + 1, x => by
    simp only [leBytes, leNat, leNat_leBytes n, BitVec.toNat_ofNat]
    rw [Nat.pow_succ' (n := n)]
    exact Nat.mod_mul.symm

theorem leNat_lt : ∀ l : List Byte, leNat l < 256 ^ l.length
  | [] => by simp [leNat]
  | b :: t => by
    have := leNat_lt t
    have hb : b.toNat < 256 := b.isLt
    simp only [leNat, List.length_cons, Nat.pow_succ']
    omega

/-- A 32-bit value of a byte string is below 2^32. -/
theorem u32_lt (b : List Byte) (o : Nat) : u32 b o < 2 ^ 32 := by
  unfold u32 uN
  have h := leNat_lt ((List.range 4).map fun i => b.getD (o + i) 0)
  simpa using h

/-- The value that stands at an offset of a byte string. -/
theorem u32_at (a c : List Byte) (x : Nat) (h : x < 2 ^ 32) (o : Nat) (ho : a.length = o) :
    u32 (a ++ (leBytes 4 x ++ c)) o = x := by
  subst ho
  have e : (List.range 4).map (fun i => (a ++ (leBytes 4 x ++ c)).getD (a.length + i) 0) = leBytes 4 x := by
    simp [leBytes, List.range_succ, List.getElem?_append_right]
  rw [u32, uN, e, leNat_leBytes]
  exact Nat.mod_eq_of_lt h

theorem crc32_lt (l : List Byte) : crc32 l < 2 ^ 32 := BitVec.isLt _

/-- The five words a commit page begins with stand at 0, 4, 8, 12 and 16. -/
theorem page_words (m q l i b : Nat) (c : List Byte) (hm : m < 2 ^ 32) (hq : q < 2 ^ 32) (hl : l < 2 ^ 32)
    (hi : i < 2 ^ 32) (hb : b < 2 ^ 32) (p : List Byte)
    (hp : p = leBytes 4 m ++ (leBytes 4 q ++ (leBytes 4 l ++ (leBytes 4 i ++ (leBytes 4 b ++ c))))) :
    u32 p 0 = m ∧ u32 p 4 = q ∧ u32 p 8 = l ∧ u32 p 12 = i ∧ u32 p 16 = b := by
  subst hp
  have h0 := u32_at [] (leBytes 4 q ++ (leBytes 4 l ++ (leBytes 4 i ++ (leBytes 4 b ++ c)))) m hm 0 rfl
  have h4 := u32_at (leBytes 4 m) (leBytes 4 l ++ (leBytes 4 i ++ (leBytes 4 b ++ c))) q hq 4 (leBytes_length 4 m)
  have h8 := u32_at (leBytes 4 m ++ leBytes 4 q) (leBytes 4 i ++ (leBytes 4 b ++ c)) l hl 8
    (by simp only [List.length_append, leBytes_length])
  have h12 := u32_at (leBytes 4 m ++ (leBytes 4 q ++ leBytes 4 l)) (leBytes 4 b ++ c) i hi 12
    (by simp only [List.length_append, leBytes_length])
  have h16 := u32_at (leBytes 4 m ++ (leBytes 4 q ++ (leBytes 4 l ++ leBytes 4 i))) c b hb 16
    (by simp only [List.length_append, leBytes_length])
  simp only [List.append_assoc, List.nil_append] at h0 h4 h8 h12 h16
  exact ⟨h0, h4, h8, h12, h16⟩

/-- The 32 bytes after those words stand at 0x14. -/
theorem page_hash (m q l i b : Nat) (h c p : List Byte) (hl : h.length = 32)
    (hp : p = leBytes 4 m ++ (leBytes 4 q ++ (leBytes 4 l ++ (leBytes 4 i ++ (leBytes 4 b ++ (h ++ c)))))) :
    (p.drop 0x14).take 32 = h := by
  have e : p = (leBytes 4 m ++ (leBytes 4 q ++ (leBytes 4 l ++ (leBytes 4 i ++ leBytes 4 b)))) ++ (h ++ c) := by
    rw [hp]; simp only [List.append_assoc]
  rw [e, List.drop_left' (by simp only [List.length_append, leBytes_length]), List.take_left' hl]

/-- A page of 0xFC bytes and a word has that word at 0xFC, those bytes before it and 256 bytes in all. -/
theorem page_crc (h : List Byte) (x : Nat) (hl : h.length = 0xFC) (hx : x < 2 ^ 32) :
    u32 (h ++ leBytes 4 x) 0xFC = x ∧ (h ++ leBytes 4 x).take 0xFC = h ∧ (h ++ leBytes 4 x).length = 256 := by
  have hu := u32_at h [] x hx 0xFC hl
  rw [List.append_nil] at hu
  exact ⟨hu, List.take_left' hl, by rw [List.length_append, leBytes_length, hl]⟩

/-- The commit page written for a plan file reads as a correct page of that SEQ that agrees with the header. -/
theorem commitPage_reads (seq : Nat) (d : List Byte) (hs : seq < 2 ^ 32) (hd : 64 ≤ d.length) :
    (SlotF.mk d (commitPage seq d)).headerOk = true ∧ pageSeq (commitPage seq d) = seq := by
  obtain ⟨H, hH⟩ : ∃ H, H = (d.drop 32).take 32 := ⟨_, rfl⟩
  have lH : H.length = 32 := by rw [hH, List.length_take, List.length_drop]; omega
  obtain ⟨h, hh⟩ : ∃ h, h = leBytes 4 0x4D43595A ++ leBytes 4 seq ++ leBytes 4 (u32 d 8) ++ leBytes 4 (u32 d 12)
    ++ leBytes 4 (u32 d 16) ++ H ++ List.replicate 200 0xFF#8 := ⟨_, rfl⟩
  have lh : h.length = 0xFC := by
    rw [hh]; simp only [List.length_append, leBytes_length, lH, List.length_replicate]
  obtain ⟨P, hP⟩ : ∃ P, P = commitPage seq d := ⟨_, rfl⟩
  have hp : P = h ++ leBytes 4 (crc32 h) := by rw [hP, hh, hH, commitPage]
  obtain ⟨C, hC⟩ : ∃ C, C = leBytes 4 (crc32 h) := ⟨_, rfl⟩
  have e : P = leBytes 4 0x4D43595A ++ (leBytes 4 seq ++ (leBytes 4 (u32 d 8) ++ (leBytes 4 (u32 d 12)
      ++ (leBytes 4 (u32 d 16) ++ (H ++ (List.replicate 200 0xFF#8 ++ C)))))) := by
    rw [hp, ← hC, hh]; simp only [List.append_assoc]
  obtain ⟨e0, e4, e8, e12, e16⟩ := page_words _ _ _ _ _ _ (by decide) hs (u32_lt d 8) (u32_lt d 12) (u32_lt d 16) P e
  have ed := page_hash _ _ _ _ _ _ _ P lH e
  obtain ⟨ec, et, lp⟩ := page_crc h (crc32 h) lh (crc32_lt h)
  rw [← hp] at ec et lp
  rw [← hP]
  refine ⟨?_, e4⟩
  simp only [SlotF.headerOk, pageOk, lp, e0, e8, e12, e16, ec, et, ed, hH, decide_true, Bool.and_self]

end Sys2Proof.Machine
end

