-- ==== Sys2Proof/Laws/State.lean ====
section
/-!
SUPPORT. What each named update of `State` does to each field: one lemma per field per update, true by unfolding, so that
no proof unfolds a record update.
-/
namespace Sys2Proof.Machine

/-! ### `withPlan` -/

section
variable (s : State) (v : Plan)
@[simp] theorem State.withPlan_regs : (s.withPlan v).regs = s.regs := rfl
@[simp] theorem State.withPlan_cycle : (s.withPlan v).cycle = s.cycle := rfl
@[simp] theorem State.withPlan_hwSet : (s.withPlan v).hwSet = s.hwSet := rfl
@[simp] theorem State.withPlan_marks : (s.withPlan v).marks = s.marks := rfl
@[simp] theorem State.withPlan_pending : (s.withPlan v).pending = s.pending := rfl
@[simp] theorem State.withPlan_outs : (s.withPlan v).outs = s.outs := rfl
@[simp] theorem State.withPlan_plan : (s.withPlan v).plan = v := rfl
@[simp] theorem State.withPlan_obs : (s.withPlan v).obs = s.obs := rfl
@[simp] theorem State.withPlan_yards : (s.withPlan v).yards = s.yards := rfl
@[simp] theorem State.withPlan_pat : (s.withPlan v).pat = s.pat := rfl
@[simp] theorem State.withPlan_pred : (s.withPlan v).pred = s.pred := rfl
@[simp] theorem State.withPlan_pdc : (s.withPlan v).pdc = s.pdc := rfl
@[simp] theorem State.withPlan_chan : (s.withPlan v).chan = s.chan := rfl
@[simp] theorem State.withPlan_tlm : (s.withPlan v).tlm = s.tlm := rfl
@[simp] theorem State.withPlan_bud : (s.withPlan v).bud = s.bud := rfl
@[simp] theorem State.withPlan_tcp : (s.withPlan v).tcp = s.tcp := rfl
@[simp] theorem State.withPlan_ss : (s.withPlan v).ss = s.ss := rfl
@[simp] theorem State.withPlan_otp : (s.withPlan v).otp = s.otp := rfl
@[simp] theorem State.withPlan_pln : (s.withPlan v).pln = s.pln := rfl
@[simp] theorem State.withPlan_boot : (s.withPlan v).boot = s.boot := rfl
@[simp] theorem State.withPlan_hs : (s.withPlan v).hs = s.hs := rfl
@[simp] theorem State.withPlan_tt : (s.withPlan v).tt = s.tt := rfl
@[simp] theorem State.withPlan_ttOp : (s.withPlan v).ttOp = s.ttOp := rfl
@[simp] theorem State.withPlan_glk : (s.withPlan v).glk = s.glk := rfl
@[simp] theorem State.withPlan_fab : (s.withPlan v).fab = s.fab := rfl
@[simp] theorem State.withPlan_port : (s.withPlan v).port = s.port := rfl
@[simp] theorem State.withPlan_mirror : (s.withPlan v).mirror = s.mirror := rfl
@[simp] theorem State.withPlan_hubWaits : (s.withPlan v).hubWaits = s.hubWaits := rfl
@[simp] theorem State.withPlan_holders : (s.withPlan v).holders = s.holders := rfl
@[simp] theorem State.withPlan_handoff : (s.withPlan v).handoff = s.handoff := rfl
@[simp] theorem State.withPlan_flt : (s.withPlan v).flt = s.flt := rfl
@[simp] theorem State.withPlan_tml : (s.withPlan v).tml = s.tml := rfl
@[simp] theorem State.withPlan_tack : (s.withPlan v).tack = s.tack := rfl
@[simp] theorem State.withPlan_dp : (s.withPlan v).dp = s.dp := rfl
@[simp] theorem State.withPlan_mbx : (s.withPlan v).mbx = s.mbx := rfl
@[simp] theorem State.withPlan_pass : (s.withPlan v).pass = s.pass := rfl
@[simp] theorem State.withPlan_proxyHeld : (s.withPlan v).proxyHeld = s.proxyHeld := rfl
@[simp] theorem State.withPlan_msg : (s.withPlan v).msg = s.msg := rfl
@[simp] theorem State.withPlan_expert : (s.withPlan v).expert = s.expert := rfl
@[simp] theorem State.withPlan_sbTimedOut : (s.withPlan v).sbTimedOut = s.sbTimedOut := rfl
@[simp] theorem State.withPlan_tmlOld : (s.withPlan v).tmlOld = s.tmlOld := rfl
@[simp] theorem State.withPlan_epMem : (s.withPlan v).epMem = s.epMem := rfl
end

/-! ### `withObs` -/

section
variable (s : State) (v : Vector ObsQ 4)
@[simp] theorem State.withObs_regs : (s.withObs v).regs = s.regs := rfl
@[simp] theorem State.withObs_cycle : (s.withObs v).cycle = s.cycle := rfl
@[simp] theorem State.withObs_hwSet : (s.withObs v).hwSet = s.hwSet := rfl
@[simp] theorem State.withObs_marks : (s.withObs v).marks = s.marks := rfl
@[simp] theorem State.withObs_pending : (s.withObs v).pending = s.pending := rfl
@[simp] theorem State.withObs_outs : (s.withObs v).outs = s.outs := rfl
@[simp] theorem State.withObs_plan : (s.withObs v).plan = s.plan := rfl
@[simp] theorem State.withObs_obs : (s.withObs v).obs = v := rfl
@[simp] theorem State.withObs_yards : (s.withObs v).yards = s.yards := rfl
@[simp] theorem State.withObs_pat : (s.withObs v).pat = s.pat := rfl
@[simp] theorem State.withObs_pred : (s.withObs v).pred = s.pred := rfl
@[simp] theorem State.withObs_pdc : (s.withObs v).pdc = s.pdc := rfl
@[simp] theorem State.withObs_chan : (s.withObs v).chan = s.chan := rfl
@[simp] theorem State.withObs_tlm : (s.withObs v).tlm = s.tlm := rfl
@[simp] theorem State.withObs_bud : (s.withObs v).bud = s.bud := rfl
@[simp] theorem State.withObs_tcp : (s.withObs v).tcp = s.tcp := rfl
@[simp] theorem State.withObs_ss : (s.withObs v).ss = s.ss := rfl
@[simp] theorem State.withObs_otp : (s.withObs v).otp = s.otp := rfl
@[simp] theorem State.withObs_pln : (s.withObs v).pln = s.pln := rfl
@[simp] theorem State.withObs_boot : (s.withObs v).boot = s.boot := rfl
@[simp] theorem State.withObs_hs : (s.withObs v).hs = s.hs := rfl
@[simp] theorem State.withObs_tt : (s.withObs v).tt = s.tt := rfl
@[simp] theorem State.withObs_ttOp : (s.withObs v).ttOp = s.ttOp := rfl
@[simp] theorem State.withObs_glk : (s.withObs v).glk = s.glk := rfl
@[simp] theorem State.withObs_fab : (s.withObs v).fab = s.fab := rfl
@[simp] theorem State.withObs_port : (s.withObs v).port = s.port := rfl
@[simp] theorem State.withObs_mirror : (s.withObs v).mirror = s.mirror := rfl
@[simp] theorem State.withObs_hubWaits : (s.withObs v).hubWaits = s.hubWaits := rfl
@[simp] theorem State.withObs_holders : (s.withObs v).holders = s.holders := rfl
@[simp] theorem State.withObs_handoff : (s.withObs v).handoff = s.handoff := rfl
@[simp] theorem State.withObs_flt : (s.withObs v).flt = s.flt := rfl
@[simp] theorem State.withObs_tml : (s.withObs v).tml = s.tml := rfl
@[simp] theorem State.withObs_tack : (s.withObs v).tack = s.tack := rfl
@[simp] theorem State.withObs_dp : (s.withObs v).dp = s.dp := rfl
@[simp] theorem State.withObs_mbx : (s.withObs v).mbx = s.mbx := rfl
@[simp] theorem State.withObs_pass : (s.withObs v).pass = s.pass := rfl
@[simp] theorem State.withObs_proxyHeld : (s.withObs v).proxyHeld = s.proxyHeld := rfl
@[simp] theorem State.withObs_msg : (s.withObs v).msg = s.msg := rfl
@[simp] theorem State.withObs_expert : (s.withObs v).expert = s.expert := rfl
@[simp] theorem State.withObs_sbTimedOut : (s.withObs v).sbTimedOut = s.sbTimedOut := rfl
@[simp] theorem State.withObs_tmlOld : (s.withObs v).tmlOld = s.tmlOld := rfl
@[simp] theorem State.withObs_epMem : (s.withObs v).epMem = s.epMem := rfl
end

/-! ### `withYards` -/

section
variable (s : State) (v : Vector Yard 5)
@[simp] theorem State.withYards_regs : (s.withYards v).regs = s.regs := rfl
@[simp] theorem State.withYards_cycle : (s.withYards v).cycle = s.cycle := rfl
@[simp] theorem State.withYards_hwSet : (s.withYards v).hwSet = s.hwSet := rfl
@[simp] theorem State.withYards_marks : (s.withYards v).marks = s.marks := rfl
@[simp] theorem State.withYards_pending : (s.withYards v).pending = s.pending := rfl
@[simp] theorem State.withYards_outs : (s.withYards v).outs = s.outs := rfl
@[simp] theorem State.withYards_plan : (s.withYards v).plan = s.plan := rfl
@[simp] theorem State.withYards_obs : (s.withYards v).obs = s.obs := rfl
@[simp] theorem State.withYards_yards : (s.withYards v).yards = v := rfl
@[simp] theorem State.withYards_pat : (s.withYards v).pat = s.pat := rfl
@[simp] theorem State.withYards_pred : (s.withYards v).pred = s.pred := rfl
@[simp] theorem State.withYards_pdc : (s.withYards v).pdc = s.pdc := rfl
@[simp] theorem State.withYards_chan : (s.withYards v).chan = s.chan := rfl
@[simp] theorem State.withYards_tlm : (s.withYards v).tlm = s.tlm := rfl
@[simp] theorem State.withYards_bud : (s.withYards v).bud = s.bud := rfl
@[simp] theorem State.withYards_tcp : (s.withYards v).tcp = s.tcp := rfl
@[simp] theorem State.withYards_ss : (s.withYards v).ss = s.ss := rfl
@[simp] theorem State.withYards_otp : (s.withYards v).otp = s.otp := rfl
@[simp] theorem State.withYards_pln : (s.withYards v).pln = s.pln := rfl
@[simp] theorem State.withYards_boot : (s.withYards v).boot = s.boot := rfl
@[simp] theorem State.withYards_hs : (s.withYards v).hs = s.hs := rfl
@[simp] theorem State.withYards_tt : (s.withYards v).tt = s.tt := rfl
@[simp] theorem State.withYards_ttOp : (s.withYards v).ttOp = s.ttOp := rfl
@[simp] theorem State.withYards_glk : (s.withYards v).glk = s.glk := rfl
@[simp] theorem State.withYards_fab : (s.withYards v).fab = s.fab := rfl
@[simp] theorem State.withYards_port : (s.withYards v).port = s.port := rfl
@[simp] theorem State.withYards_mirror : (s.withYards v).mirror = s.mirror := rfl
@[simp] theorem State.withYards_hubWaits : (s.withYards v).hubWaits = s.hubWaits := rfl
@[simp] theorem State.withYards_holders : (s.withYards v).holders = s.holders := rfl
@[simp] theorem State.withYards_handoff : (s.withYards v).handoff = s.handoff := rfl
@[simp] theorem State.withYards_flt : (s.withYards v).flt = s.flt := rfl
@[simp] theorem State.withYards_tml : (s.withYards v).tml = s.tml := rfl
@[simp] theorem State.withYards_tack : (s.withYards v).tack = s.tack := rfl
@[simp] theorem State.withYards_dp : (s.withYards v).dp = s.dp := rfl
@[simp] theorem State.withYards_mbx : (s.withYards v).mbx = s.mbx := rfl
@[simp] theorem State.withYards_pass : (s.withYards v).pass = s.pass := rfl
@[simp] theorem State.withYards_proxyHeld : (s.withYards v).proxyHeld = s.proxyHeld := rfl
@[simp] theorem State.withYards_msg : (s.withYards v).msg = s.msg := rfl
@[simp] theorem State.withYards_expert : (s.withYards v).expert = s.expert := rfl
@[simp] theorem State.withYards_sbTimedOut : (s.withYards v).sbTimedOut = s.sbTimedOut := rfl
@[simp] theorem State.withYards_tmlOld : (s.withYards v).tmlOld = s.tmlOld := rfl
@[simp] theorem State.withYards_epMem : (s.withYards v).epMem = s.epMem := rfl
end

/-! ### `withPat` -/

section
variable (s : State) (v : Vector Pat 15)
@[simp] theorem State.withPat_regs : (s.withPat v).regs = s.regs := rfl
@[simp] theorem State.withPat_cycle : (s.withPat v).cycle = s.cycle := rfl
@[simp] theorem State.withPat_hwSet : (s.withPat v).hwSet = s.hwSet := rfl
@[simp] theorem State.withPat_marks : (s.withPat v).marks = s.marks := rfl
@[simp] theorem State.withPat_pending : (s.withPat v).pending = s.pending := rfl
@[simp] theorem State.withPat_outs : (s.withPat v).outs = s.outs := rfl
@[simp] theorem State.withPat_plan : (s.withPat v).plan = s.plan := rfl
@[simp] theorem State.withPat_obs : (s.withPat v).obs = s.obs := rfl
@[simp] theorem State.withPat_yards : (s.withPat v).yards = s.yards := rfl
@[simp] theorem State.withPat_pat : (s.withPat v).pat = v := rfl
@[simp] theorem State.withPat_pred : (s.withPat v).pred = s.pred := rfl
@[simp] theorem State.withPat_pdc : (s.withPat v).pdc = s.pdc := rfl
@[simp] theorem State.withPat_chan : (s.withPat v).chan = s.chan := rfl
@[simp] theorem State.withPat_tlm : (s.withPat v).tlm = s.tlm := rfl
@[simp] theorem State.withPat_bud : (s.withPat v).bud = s.bud := rfl
@[simp] theorem State.withPat_tcp : (s.withPat v).tcp = s.tcp := rfl
@[simp] theorem State.withPat_ss : (s.withPat v).ss = s.ss := rfl
@[simp] theorem State.withPat_otp : (s.withPat v).otp = s.otp := rfl
@[simp] theorem State.withPat_pln : (s.withPat v).pln = s.pln := rfl
@[simp] theorem State.withPat_boot : (s.withPat v).boot = s.boot := rfl
@[simp] theorem State.withPat_hs : (s.withPat v).hs = s.hs := rfl
@[simp] theorem State.withPat_tt : (s.withPat v).tt = s.tt := rfl
@[simp] theorem State.withPat_ttOp : (s.withPat v).ttOp = s.ttOp := rfl
@[simp] theorem State.withPat_glk : (s.withPat v).glk = s.glk := rfl
@[simp] theorem State.withPat_fab : (s.withPat v).fab = s.fab := rfl
@[simp] theorem State.withPat_port : (s.withPat v).port = s.port := rfl
@[simp] theorem State.withPat_mirror : (s.withPat v).mirror = s.mirror := rfl
@[simp] theorem State.withPat_hubWaits : (s.withPat v).hubWaits = s.hubWaits := rfl
@[simp] theorem State.withPat_holders : (s.withPat v).holders = s.holders := rfl
@[simp] theorem State.withPat_handoff : (s.withPat v).handoff = s.handoff := rfl
@[simp] theorem State.withPat_flt : (s.withPat v).flt = s.flt := rfl
@[simp] theorem State.withPat_tml : (s.withPat v).tml = s.tml := rfl
@[simp] theorem State.withPat_tack : (s.withPat v).tack = s.tack := rfl
@[simp] theorem State.withPat_dp : (s.withPat v).dp = s.dp := rfl
@[simp] theorem State.withPat_mbx : (s.withPat v).mbx = s.mbx := rfl
@[simp] theorem State.withPat_pass : (s.withPat v).pass = s.pass := rfl
@[simp] theorem State.withPat_proxyHeld : (s.withPat v).proxyHeld = s.proxyHeld := rfl
@[simp] theorem State.withPat_msg : (s.withPat v).msg = s.msg := rfl
@[simp] theorem State.withPat_expert : (s.withPat v).expert = s.expert := rfl
@[simp] theorem State.withPat_sbTimedOut : (s.withPat v).sbTimedOut = s.sbTimedOut := rfl
@[simp] theorem State.withPat_tmlOld : (s.withPat v).tmlOld = s.tmlOld := rfl
@[simp] theorem State.withPat_epMem : (s.withPat v).epMem = s.epMem := rfl
end

/-! ### `withPred` -/

section
variable (s : State) (v : Vector Pred 12)
@[simp] theorem State.withPred_regs : (s.withPred v).regs = s.regs := rfl
@[simp] theorem State.withPred_cycle : (s.withPred v).cycle = s.cycle := rfl
@[simp] theorem State.withPred_hwSet : (s.withPred v).hwSet = s.hwSet := rfl
@[simp] theorem State.withPred_marks : (s.withPred v).marks = s.marks := rfl
@[simp] theorem State.withPred_pending : (s.withPred v).pending = s.pending := rfl
@[simp] theorem State.withPred_outs : (s.withPred v).outs = s.outs := rfl
@[simp] theorem State.withPred_plan : (s.withPred v).plan = s.plan := rfl
@[simp] theorem State.withPred_obs : (s.withPred v).obs = s.obs := rfl
@[simp] theorem State.withPred_yards : (s.withPred v).yards = s.yards := rfl
@[simp] theorem State.withPred_pat : (s.withPred v).pat = s.pat := rfl
@[simp] theorem State.withPred_pred : (s.withPred v).pred = v := rfl
@[simp] theorem State.withPred_pdc : (s.withPred v).pdc = s.pdc := rfl
@[simp] theorem State.withPred_chan : (s.withPred v).chan = s.chan := rfl
@[simp] theorem State.withPred_tlm : (s.withPred v).tlm = s.tlm := rfl
@[simp] theorem State.withPred_bud : (s.withPred v).bud = s.bud := rfl
@[simp] theorem State.withPred_tcp : (s.withPred v).tcp = s.tcp := rfl
@[simp] theorem State.withPred_ss : (s.withPred v).ss = s.ss := rfl
@[simp] theorem State.withPred_otp : (s.withPred v).otp = s.otp := rfl
@[simp] theorem State.withPred_pln : (s.withPred v).pln = s.pln := rfl
@[simp] theorem State.withPred_boot : (s.withPred v).boot = s.boot := rfl
@[simp] theorem State.withPred_hs : (s.withPred v).hs = s.hs := rfl
@[simp] theorem State.withPred_tt : (s.withPred v).tt = s.tt := rfl
@[simp] theorem State.withPred_ttOp : (s.withPred v).ttOp = s.ttOp := rfl
@[simp] theorem State.withPred_glk : (s.withPred v).glk = s.glk := rfl
@[simp] theorem State.withPred_fab : (s.withPred v).fab = s.fab := rfl
@[simp] theorem State.withPred_port : (s.withPred v).port = s.port := rfl
@[simp] theorem State.withPred_mirror : (s.withPred v).mirror = s.mirror := rfl
@[simp] theorem State.withPred_hubWaits : (s.withPred v).hubWaits = s.hubWaits := rfl
@[simp] theorem State.withPred_holders : (s.withPred v).holders = s.holders := rfl
@[simp] theorem State.withPred_handoff : (s.withPred v).handoff = s.handoff := rfl
@[simp] theorem State.withPred_flt : (s.withPred v).flt = s.flt := rfl
@[simp] theorem State.withPred_tml : (s.withPred v).tml = s.tml := rfl
@[simp] theorem State.withPred_tack : (s.withPred v).tack = s.tack := rfl
@[simp] theorem State.withPred_dp : (s.withPred v).dp = s.dp := rfl
@[simp] theorem State.withPred_mbx : (s.withPred v).mbx = s.mbx := rfl
@[simp] theorem State.withPred_pass : (s.withPred v).pass = s.pass := rfl
@[simp] theorem State.withPred_proxyHeld : (s.withPred v).proxyHeld = s.proxyHeld := rfl
@[simp] theorem State.withPred_msg : (s.withPred v).msg = s.msg := rfl
@[simp] theorem State.withPred_expert : (s.withPred v).expert = s.expert := rfl
@[simp] theorem State.withPred_sbTimedOut : (s.withPred v).sbTimedOut = s.sbTimedOut := rfl
@[simp] theorem State.withPred_tmlOld : (s.withPred v).tmlOld = s.tmlOld := rfl
@[simp] theorem State.withPred_epMem : (s.withPred v).epMem = s.epMem := rfl
end

/-! ### `withPdc` -/

section
variable (s : State) (v : Pdc)
@[simp] theorem State.withPdc_regs : (s.withPdc v).regs = s.regs := rfl
@[simp] theorem State.withPdc_cycle : (s.withPdc v).cycle = s.cycle := rfl
@[simp] theorem State.withPdc_hwSet : (s.withPdc v).hwSet = s.hwSet := rfl
@[simp] theorem State.withPdc_marks : (s.withPdc v).marks = s.marks := rfl
@[simp] theorem State.withPdc_pending : (s.withPdc v).pending = s.pending := rfl
@[simp] theorem State.withPdc_outs : (s.withPdc v).outs = s.outs := rfl
@[simp] theorem State.withPdc_plan : (s.withPdc v).plan = s.plan := rfl
@[simp] theorem State.withPdc_obs : (s.withPdc v).obs = s.obs := rfl
@[simp] theorem State.withPdc_yards : (s.withPdc v).yards = s.yards := rfl
@[simp] theorem State.withPdc_pat : (s.withPdc v).pat = s.pat := rfl
@[simp] theorem State.withPdc_pred : (s.withPdc v).pred = s.pred := rfl
@[simp] theorem State.withPdc_pdc : (s.withPdc v).pdc = v := rfl
@[simp] theorem State.withPdc_chan : (s.withPdc v).chan = s.chan := rfl
@[simp] theorem State.withPdc_tlm : (s.withPdc v).tlm = s.tlm := rfl
@[simp] theorem State.withPdc_bud : (s.withPdc v).bud = s.bud := rfl
@[simp] theorem State.withPdc_tcp : (s.withPdc v).tcp = s.tcp := rfl
@[simp] theorem State.withPdc_ss : (s.withPdc v).ss = s.ss := rfl
@[simp] theorem State.withPdc_otp : (s.withPdc v).otp = s.otp := rfl
@[simp] theorem State.withPdc_pln : (s.withPdc v).pln = s.pln := rfl
@[simp] theorem State.withPdc_boot : (s.withPdc v).boot = s.boot := rfl
@[simp] theorem State.withPdc_hs : (s.withPdc v).hs = s.hs := rfl
@[simp] theorem State.withPdc_tt : (s.withPdc v).tt = s.tt := rfl
@[simp] theorem State.withPdc_ttOp : (s.withPdc v).ttOp = s.ttOp := rfl
@[simp] theorem State.withPdc_glk : (s.withPdc v).glk = s.glk := rfl
@[simp] theorem State.withPdc_fab : (s.withPdc v).fab = s.fab := rfl
@[simp] theorem State.withPdc_port : (s.withPdc v).port = s.port := rfl
@[simp] theorem State.withPdc_mirror : (s.withPdc v).mirror = s.mirror := rfl
@[simp] theorem State.withPdc_hubWaits : (s.withPdc v).hubWaits = s.hubWaits := rfl
@[simp] theorem State.withPdc_holders : (s.withPdc v).holders = s.holders := rfl
@[simp] theorem State.withPdc_handoff : (s.withPdc v).handoff = s.handoff := rfl
@[simp] theorem State.withPdc_flt : (s.withPdc v).flt = s.flt := rfl
@[simp] theorem State.withPdc_tml : (s.withPdc v).tml = s.tml := rfl
@[simp] theorem State.withPdc_tack : (s.withPdc v).tack = s.tack := rfl
@[simp] theorem State.withPdc_dp : (s.withPdc v).dp = s.dp := rfl
@[simp] theorem State.withPdc_mbx : (s.withPdc v).mbx = s.mbx := rfl
@[simp] theorem State.withPdc_pass : (s.withPdc v).pass = s.pass := rfl
@[simp] theorem State.withPdc_proxyHeld : (s.withPdc v).proxyHeld = s.proxyHeld := rfl
@[simp] theorem State.withPdc_msg : (s.withPdc v).msg = s.msg := rfl
@[simp] theorem State.withPdc_expert : (s.withPdc v).expert = s.expert := rfl
@[simp] theorem State.withPdc_sbTimedOut : (s.withPdc v).sbTimedOut = s.sbTimedOut := rfl
@[simp] theorem State.withPdc_tmlOld : (s.withPdc v).tmlOld = s.tmlOld := rfl
@[simp] theorem State.withPdc_epMem : (s.withPdc v).epMem = s.epMem := rfl
end

/-! ### `withChan` -/

section
variable (s : State) (v : Vector Chan 17)
@[simp] theorem State.withChan_regs : (s.withChan v).regs = s.regs := rfl
@[simp] theorem State.withChan_cycle : (s.withChan v).cycle = s.cycle := rfl
@[simp] theorem State.withChan_hwSet : (s.withChan v).hwSet = s.hwSet := rfl
@[simp] theorem State.withChan_marks : (s.withChan v).marks = s.marks := rfl
@[simp] theorem State.withChan_pending : (s.withChan v).pending = s.pending := rfl
@[simp] theorem State.withChan_outs : (s.withChan v).outs = s.outs := rfl
@[simp] theorem State.withChan_plan : (s.withChan v).plan = s.plan := rfl
@[simp] theorem State.withChan_obs : (s.withChan v).obs = s.obs := rfl
@[simp] theorem State.withChan_yards : (s.withChan v).yards = s.yards := rfl
@[simp] theorem State.withChan_pat : (s.withChan v).pat = s.pat := rfl
@[simp] theorem State.withChan_pred : (s.withChan v).pred = s.pred := rfl
@[simp] theorem State.withChan_pdc : (s.withChan v).pdc = s.pdc := rfl
@[simp] theorem State.withChan_chan : (s.withChan v).chan = v := rfl
@[simp] theorem State.withChan_tlm : (s.withChan v).tlm = s.tlm := rfl
@[simp] theorem State.withChan_bud : (s.withChan v).bud = s.bud := rfl
@[simp] theorem State.withChan_tcp : (s.withChan v).tcp = s.tcp := rfl
@[simp] theorem State.withChan_ss : (s.withChan v).ss = s.ss := rfl
@[simp] theorem State.withChan_otp : (s.withChan v).otp = s.otp := rfl
@[simp] theorem State.withChan_pln : (s.withChan v).pln = s.pln := rfl
@[simp] theorem State.withChan_boot : (s.withChan v).boot = s.boot := rfl
@[simp] theorem State.withChan_hs : (s.withChan v).hs = s.hs := rfl
@[simp] theorem State.withChan_tt : (s.withChan v).tt = s.tt := rfl
@[simp] theorem State.withChan_ttOp : (s.withChan v).ttOp = s.ttOp := rfl
@[simp] theorem State.withChan_glk : (s.withChan v).glk = s.glk := rfl
@[simp] theorem State.withChan_fab : (s.withChan v).fab = s.fab := rfl
@[simp] theorem State.withChan_port : (s.withChan v).port = s.port := rfl
@[simp] theorem State.withChan_mirror : (s.withChan v).mirror = s.mirror := rfl
@[simp] theorem State.withChan_hubWaits : (s.withChan v).hubWaits = s.hubWaits := rfl
@[simp] theorem State.withChan_holders : (s.withChan v).holders = s.holders := rfl
@[simp] theorem State.withChan_handoff : (s.withChan v).handoff = s.handoff := rfl
@[simp] theorem State.withChan_flt : (s.withChan v).flt = s.flt := rfl
@[simp] theorem State.withChan_tml : (s.withChan v).tml = s.tml := rfl
@[simp] theorem State.withChan_tack : (s.withChan v).tack = s.tack := rfl
@[simp] theorem State.withChan_dp : (s.withChan v).dp = s.dp := rfl
@[simp] theorem State.withChan_mbx : (s.withChan v).mbx = s.mbx := rfl
@[simp] theorem State.withChan_pass : (s.withChan v).pass = s.pass := rfl
@[simp] theorem State.withChan_proxyHeld : (s.withChan v).proxyHeld = s.proxyHeld := rfl
@[simp] theorem State.withChan_msg : (s.withChan v).msg = s.msg := rfl
@[simp] theorem State.withChan_expert : (s.withChan v).expert = s.expert := rfl
@[simp] theorem State.withChan_sbTimedOut : (s.withChan v).sbTimedOut = s.sbTimedOut := rfl
@[simp] theorem State.withChan_tmlOld : (s.withChan v).tmlOld = s.tmlOld := rfl
@[simp] theorem State.withChan_epMem : (s.withChan v).epMem = s.epMem := rfl
end

/-! ### `withTlm` -/

section
variable (s : State) (v : Vector TlmCh 17)
@[simp] theorem State.withTlm_regs : (s.withTlm v).regs = s.regs := rfl
@[simp] theorem State.withTlm_cycle : (s.withTlm v).cycle = s.cycle := rfl
@[simp] theorem State.withTlm_hwSet : (s.withTlm v).hwSet = s.hwSet := rfl
@[simp] theorem State.withTlm_marks : (s.withTlm v).marks = s.marks := rfl
@[simp] theorem State.withTlm_pending : (s.withTlm v).pending = s.pending := rfl
@[simp] theorem State.withTlm_outs : (s.withTlm v).outs = s.outs := rfl
@[simp] theorem State.withTlm_plan : (s.withTlm v).plan = s.plan := rfl
@[simp] theorem State.withTlm_obs : (s.withTlm v).obs = s.obs := rfl
@[simp] theorem State.withTlm_yards : (s.withTlm v).yards = s.yards := rfl
@[simp] theorem State.withTlm_pat : (s.withTlm v).pat = s.pat := rfl
@[simp] theorem State.withTlm_pred : (s.withTlm v).pred = s.pred := rfl
@[simp] theorem State.withTlm_pdc : (s.withTlm v).pdc = s.pdc := rfl
@[simp] theorem State.withTlm_chan : (s.withTlm v).chan = s.chan := rfl
@[simp] theorem State.withTlm_tlm : (s.withTlm v).tlm = v := rfl
@[simp] theorem State.withTlm_bud : (s.withTlm v).bud = s.bud := rfl
@[simp] theorem State.withTlm_tcp : (s.withTlm v).tcp = s.tcp := rfl
@[simp] theorem State.withTlm_ss : (s.withTlm v).ss = s.ss := rfl
@[simp] theorem State.withTlm_otp : (s.withTlm v).otp = s.otp := rfl
@[simp] theorem State.withTlm_pln : (s.withTlm v).pln = s.pln := rfl
@[simp] theorem State.withTlm_boot : (s.withTlm v).boot = s.boot := rfl
@[simp] theorem State.withTlm_hs : (s.withTlm v).hs = s.hs := rfl
@[simp] theorem State.withTlm_tt : (s.withTlm v).tt = s.tt := rfl
@[simp] theorem State.withTlm_ttOp : (s.withTlm v).ttOp = s.ttOp := rfl
@[simp] theorem State.withTlm_glk : (s.withTlm v).glk = s.glk := rfl
@[simp] theorem State.withTlm_fab : (s.withTlm v).fab = s.fab := rfl
@[simp] theorem State.withTlm_port : (s.withTlm v).port = s.port := rfl
@[simp] theorem State.withTlm_mirror : (s.withTlm v).mirror = s.mirror := rfl
@[simp] theorem State.withTlm_hubWaits : (s.withTlm v).hubWaits = s.hubWaits := rfl
@[simp] theorem State.withTlm_holders : (s.withTlm v).holders = s.holders := rfl
@[simp] theorem State.withTlm_handoff : (s.withTlm v).handoff = s.handoff := rfl
@[simp] theorem State.withTlm_flt : (s.withTlm v).flt = s.flt := rfl
@[simp] theorem State.withTlm_tml : (s.withTlm v).tml = s.tml := rfl
@[simp] theorem State.withTlm_tack : (s.withTlm v).tack = s.tack := rfl
@[simp] theorem State.withTlm_dp : (s.withTlm v).dp = s.dp := rfl
@[simp] theorem State.withTlm_mbx : (s.withTlm v).mbx = s.mbx := rfl
@[simp] theorem State.withTlm_pass : (s.withTlm v).pass = s.pass := rfl
@[simp] theorem State.withTlm_proxyHeld : (s.withTlm v).proxyHeld = s.proxyHeld := rfl
@[simp] theorem State.withTlm_msg : (s.withTlm v).msg = s.msg := rfl
@[simp] theorem State.withTlm_expert : (s.withTlm v).expert = s.expert := rfl
@[simp] theorem State.withTlm_sbTimedOut : (s.withTlm v).sbTimedOut = s.sbTimedOut := rfl
@[simp] theorem State.withTlm_tmlOld : (s.withTlm v).tmlOld = s.tmlOld := rfl
@[simp] theorem State.withTlm_epMem : (s.withTlm v).epMem = s.epMem := rfl
end

/-! ### `withBud` -/

section
variable (s : State) (v : Budget)
@[simp] theorem State.withBud_regs : (s.withBud v).regs = s.regs := rfl
@[simp] theorem State.withBud_cycle : (s.withBud v).cycle = s.cycle := rfl
@[simp] theorem State.withBud_hwSet : (s.withBud v).hwSet = s.hwSet := rfl
@[simp] theorem State.withBud_marks : (s.withBud v).marks = s.marks := rfl
@[simp] theorem State.withBud_pending : (s.withBud v).pending = s.pending := rfl
@[simp] theorem State.withBud_outs : (s.withBud v).outs = s.outs := rfl
@[simp] theorem State.withBud_plan : (s.withBud v).plan = s.plan := rfl
@[simp] theorem State.withBud_obs : (s.withBud v).obs = s.obs := rfl
@[simp] theorem State.withBud_yards : (s.withBud v).yards = s.yards := rfl
@[simp] theorem State.withBud_pat : (s.withBud v).pat = s.pat := rfl
@[simp] theorem State.withBud_pred : (s.withBud v).pred = s.pred := rfl
@[simp] theorem State.withBud_pdc : (s.withBud v).pdc = s.pdc := rfl
@[simp] theorem State.withBud_chan : (s.withBud v).chan = s.chan := rfl
@[simp] theorem State.withBud_tlm : (s.withBud v).tlm = s.tlm := rfl
@[simp] theorem State.withBud_bud : (s.withBud v).bud = v := rfl
@[simp] theorem State.withBud_tcp : (s.withBud v).tcp = s.tcp := rfl
@[simp] theorem State.withBud_ss : (s.withBud v).ss = s.ss := rfl
@[simp] theorem State.withBud_otp : (s.withBud v).otp = s.otp := rfl
@[simp] theorem State.withBud_pln : (s.withBud v).pln = s.pln := rfl
@[simp] theorem State.withBud_boot : (s.withBud v).boot = s.boot := rfl
@[simp] theorem State.withBud_hs : (s.withBud v).hs = s.hs := rfl
@[simp] theorem State.withBud_tt : (s.withBud v).tt = s.tt := rfl
@[simp] theorem State.withBud_ttOp : (s.withBud v).ttOp = s.ttOp := rfl
@[simp] theorem State.withBud_glk : (s.withBud v).glk = s.glk := rfl
@[simp] theorem State.withBud_fab : (s.withBud v).fab = s.fab := rfl
@[simp] theorem State.withBud_port : (s.withBud v).port = s.port := rfl
@[simp] theorem State.withBud_mirror : (s.withBud v).mirror = s.mirror := rfl
@[simp] theorem State.withBud_hubWaits : (s.withBud v).hubWaits = s.hubWaits := rfl
@[simp] theorem State.withBud_holders : (s.withBud v).holders = s.holders := rfl
@[simp] theorem State.withBud_handoff : (s.withBud v).handoff = s.handoff := rfl
@[simp] theorem State.withBud_flt : (s.withBud v).flt = s.flt := rfl
@[simp] theorem State.withBud_tml : (s.withBud v).tml = s.tml := rfl
@[simp] theorem State.withBud_tack : (s.withBud v).tack = s.tack := rfl
@[simp] theorem State.withBud_dp : (s.withBud v).dp = s.dp := rfl
@[simp] theorem State.withBud_mbx : (s.withBud v).mbx = s.mbx := rfl
@[simp] theorem State.withBud_pass : (s.withBud v).pass = s.pass := rfl
@[simp] theorem State.withBud_proxyHeld : (s.withBud v).proxyHeld = s.proxyHeld := rfl
@[simp] theorem State.withBud_msg : (s.withBud v).msg = s.msg := rfl
@[simp] theorem State.withBud_expert : (s.withBud v).expert = s.expert := rfl
@[simp] theorem State.withBud_sbTimedOut : (s.withBud v).sbTimedOut = s.sbTimedOut := rfl
@[simp] theorem State.withBud_tmlOld : (s.withBud v).tmlOld = s.tmlOld := rfl
@[simp] theorem State.withBud_epMem : (s.withBud v).epMem = s.epMem := rfl
end

/-! ### `withTcp` -/

section
variable (s : State) (v : Vector Tcp 17)
@[simp] theorem State.withTcp_regs : (s.withTcp v).regs = s.regs := rfl
@[simp] theorem State.withTcp_cycle : (s.withTcp v).cycle = s.cycle := rfl
@[simp] theorem State.withTcp_hwSet : (s.withTcp v).hwSet = s.hwSet := rfl
@[simp] theorem State.withTcp_marks : (s.withTcp v).marks = s.marks := rfl
@[simp] theorem State.withTcp_pending : (s.withTcp v).pending = s.pending := rfl
@[simp] theorem State.withTcp_outs : (s.withTcp v).outs = s.outs := rfl
@[simp] theorem State.withTcp_plan : (s.withTcp v).plan = s.plan := rfl
@[simp] theorem State.withTcp_obs : (s.withTcp v).obs = s.obs := rfl
@[simp] theorem State.withTcp_yards : (s.withTcp v).yards = s.yards := rfl
@[simp] theorem State.withTcp_pat : (s.withTcp v).pat = s.pat := rfl
@[simp] theorem State.withTcp_pred : (s.withTcp v).pred = s.pred := rfl
@[simp] theorem State.withTcp_pdc : (s.withTcp v).pdc = s.pdc := rfl
@[simp] theorem State.withTcp_chan : (s.withTcp v).chan = s.chan := rfl
@[simp] theorem State.withTcp_tlm : (s.withTcp v).tlm = s.tlm := rfl
@[simp] theorem State.withTcp_bud : (s.withTcp v).bud = s.bud := rfl
@[simp] theorem State.withTcp_tcp : (s.withTcp v).tcp = v := rfl
@[simp] theorem State.withTcp_ss : (s.withTcp v).ss = s.ss := rfl
@[simp] theorem State.withTcp_otp : (s.withTcp v).otp = s.otp := rfl
@[simp] theorem State.withTcp_pln : (s.withTcp v).pln = s.pln := rfl
@[simp] theorem State.withTcp_boot : (s.withTcp v).boot = s.boot := rfl
@[simp] theorem State.withTcp_hs : (s.withTcp v).hs = s.hs := rfl
@[simp] theorem State.withTcp_tt : (s.withTcp v).tt = s.tt := rfl
@[simp] theorem State.withTcp_ttOp : (s.withTcp v).ttOp = s.ttOp := rfl
@[simp] theorem State.withTcp_glk : (s.withTcp v).glk = s.glk := rfl
@[simp] theorem State.withTcp_fab : (s.withTcp v).fab = s.fab := rfl
@[simp] theorem State.withTcp_port : (s.withTcp v).port = s.port := rfl
@[simp] theorem State.withTcp_mirror : (s.withTcp v).mirror = s.mirror := rfl
@[simp] theorem State.withTcp_hubWaits : (s.withTcp v).hubWaits = s.hubWaits := rfl
@[simp] theorem State.withTcp_holders : (s.withTcp v).holders = s.holders := rfl
@[simp] theorem State.withTcp_handoff : (s.withTcp v).handoff = s.handoff := rfl
@[simp] theorem State.withTcp_flt : (s.withTcp v).flt = s.flt := rfl
@[simp] theorem State.withTcp_tml : (s.withTcp v).tml = s.tml := rfl
@[simp] theorem State.withTcp_tack : (s.withTcp v).tack = s.tack := rfl
@[simp] theorem State.withTcp_dp : (s.withTcp v).dp = s.dp := rfl
@[simp] theorem State.withTcp_mbx : (s.withTcp v).mbx = s.mbx := rfl
@[simp] theorem State.withTcp_pass : (s.withTcp v).pass = s.pass := rfl
@[simp] theorem State.withTcp_proxyHeld : (s.withTcp v).proxyHeld = s.proxyHeld := rfl
@[simp] theorem State.withTcp_msg : (s.withTcp v).msg = s.msg := rfl
@[simp] theorem State.withTcp_expert : (s.withTcp v).expert = s.expert := rfl
@[simp] theorem State.withTcp_sbTimedOut : (s.withTcp v).sbTimedOut = s.sbTimedOut := rfl
@[simp] theorem State.withTcp_tmlOld : (s.withTcp v).tmlOld = s.tmlOld := rfl
@[simp] theorem State.withTcp_epMem : (s.withTcp v).epMem = s.epMem := rfl
end

/-! ### `withSs` -/

section
variable (s : State) (v : SsS)
@[simp] theorem State.withSs_regs : (s.withSs v).regs = s.regs := rfl
@[simp] theorem State.withSs_cycle : (s.withSs v).cycle = s.cycle := rfl
@[simp] theorem State.withSs_hwSet : (s.withSs v).hwSet = s.hwSet := rfl
@[simp] theorem State.withSs_marks : (s.withSs v).marks = s.marks := rfl
@[simp] theorem State.withSs_pending : (s.withSs v).pending = s.pending := rfl
@[simp] theorem State.withSs_outs : (s.withSs v).outs = s.outs := rfl
@[simp] theorem State.withSs_plan : (s.withSs v).plan = s.plan := rfl
@[simp] theorem State.withSs_obs : (s.withSs v).obs = s.obs := rfl
@[simp] theorem State.withSs_yards : (s.withSs v).yards = s.yards := rfl
@[simp] theorem State.withSs_pat : (s.withSs v).pat = s.pat := rfl
@[simp] theorem State.withSs_pred : (s.withSs v).pred = s.pred := rfl
@[simp] theorem State.withSs_pdc : (s.withSs v).pdc = s.pdc := rfl
@[simp] theorem State.withSs_chan : (s.withSs v).chan = s.chan := rfl
@[simp] theorem State.withSs_tlm : (s.withSs v).tlm = s.tlm := rfl
@[simp] theorem State.withSs_bud : (s.withSs v).bud = s.bud := rfl
@[simp] theorem State.withSs_tcp : (s.withSs v).tcp = s.tcp := rfl
@[simp] theorem State.withSs_ss : (s.withSs v).ss = v := rfl
@[simp] theorem State.withSs_otp : (s.withSs v).otp = s.otp := rfl
@[simp] theorem State.withSs_pln : (s.withSs v).pln = s.pln := rfl
@[simp] theorem State.withSs_boot : (s.withSs v).boot = s.boot := rfl
@[simp] theorem State.withSs_hs : (s.withSs v).hs = s.hs := rfl
@[simp] theorem State.withSs_tt : (s.withSs v).tt = s.tt := rfl
@[simp] theorem State.withSs_ttOp : (s.withSs v).ttOp = s.ttOp := rfl
@[simp] theorem State.withSs_glk : (s.withSs v).glk = s.glk := rfl
@[simp] theorem State.withSs_fab : (s.withSs v).fab = s.fab := rfl
@[simp] theorem State.withSs_port : (s.withSs v).port = s.port := rfl
@[simp] theorem State.withSs_mirror : (s.withSs v).mirror = s.mirror := rfl
@[simp] theorem State.withSs_hubWaits : (s.withSs v).hubWaits = s.hubWaits := rfl
@[simp] theorem State.withSs_holders : (s.withSs v).holders = s.holders := rfl
@[simp] theorem State.withSs_handoff : (s.withSs v).handoff = s.handoff := rfl
@[simp] theorem State.withSs_flt : (s.withSs v).flt = s.flt := rfl
@[simp] theorem State.withSs_tml : (s.withSs v).tml = s.tml := rfl
@[simp] theorem State.withSs_tack : (s.withSs v).tack = s.tack := rfl
@[simp] theorem State.withSs_dp : (s.withSs v).dp = s.dp := rfl
@[simp] theorem State.withSs_mbx : (s.withSs v).mbx = s.mbx := rfl
@[simp] theorem State.withSs_pass : (s.withSs v).pass = s.pass := rfl
@[simp] theorem State.withSs_proxyHeld : (s.withSs v).proxyHeld = s.proxyHeld := rfl
@[simp] theorem State.withSs_msg : (s.withSs v).msg = s.msg := rfl
@[simp] theorem State.withSs_expert : (s.withSs v).expert = s.expert := rfl
@[simp] theorem State.withSs_sbTimedOut : (s.withSs v).sbTimedOut = s.sbTimedOut := rfl
@[simp] theorem State.withSs_tmlOld : (s.withSs v).tmlOld = s.tmlOld := rfl
@[simp] theorem State.withSs_epMem : (s.withSs v).epMem = s.epMem := rfl
end

/-! ### `withOtp` -/

section
variable (s : State) (v : Otp)
@[simp] theorem State.withOtp_regs : (s.withOtp v).regs = s.regs := rfl
@[simp] theorem State.withOtp_cycle : (s.withOtp v).cycle = s.cycle := rfl
@[simp] theorem State.withOtp_hwSet : (s.withOtp v).hwSet = s.hwSet := rfl
@[simp] theorem State.withOtp_marks : (s.withOtp v).marks = s.marks := rfl
@[simp] theorem State.withOtp_pending : (s.withOtp v).pending = s.pending := rfl
@[simp] theorem State.withOtp_outs : (s.withOtp v).outs = s.outs := rfl
@[simp] theorem State.withOtp_plan : (s.withOtp v).plan = s.plan := rfl
@[simp] theorem State.withOtp_obs : (s.withOtp v).obs = s.obs := rfl
@[simp] theorem State.withOtp_yards : (s.withOtp v).yards = s.yards := rfl
@[simp] theorem State.withOtp_pat : (s.withOtp v).pat = s.pat := rfl
@[simp] theorem State.withOtp_pred : (s.withOtp v).pred = s.pred := rfl
@[simp] theorem State.withOtp_pdc : (s.withOtp v).pdc = s.pdc := rfl
@[simp] theorem State.withOtp_chan : (s.withOtp v).chan = s.chan := rfl
@[simp] theorem State.withOtp_tlm : (s.withOtp v).tlm = s.tlm := rfl
@[simp] theorem State.withOtp_bud : (s.withOtp v).bud = s.bud := rfl
@[simp] theorem State.withOtp_tcp : (s.withOtp v).tcp = s.tcp := rfl
@[simp] theorem State.withOtp_ss : (s.withOtp v).ss = s.ss := rfl
@[simp] theorem State.withOtp_otp : (s.withOtp v).otp = v := rfl
@[simp] theorem State.withOtp_pln : (s.withOtp v).pln = s.pln := rfl
@[simp] theorem State.withOtp_boot : (s.withOtp v).boot = s.boot := rfl
@[simp] theorem State.withOtp_hs : (s.withOtp v).hs = s.hs := rfl
@[simp] theorem State.withOtp_tt : (s.withOtp v).tt = s.tt := rfl
@[simp] theorem State.withOtp_ttOp : (s.withOtp v).ttOp = s.ttOp := rfl
@[simp] theorem State.withOtp_glk : (s.withOtp v).glk = s.glk := rfl
@[simp] theorem State.withOtp_fab : (s.withOtp v).fab = s.fab := rfl
@[simp] theorem State.withOtp_port : (s.withOtp v).port = s.port := rfl
@[simp] theorem State.withOtp_mirror : (s.withOtp v).mirror = s.mirror := rfl
@[simp] theorem State.withOtp_hubWaits : (s.withOtp v).hubWaits = s.hubWaits := rfl
@[simp] theorem State.withOtp_holders : (s.withOtp v).holders = s.holders := rfl
@[simp] theorem State.withOtp_handoff : (s.withOtp v).handoff = s.handoff := rfl
@[simp] theorem State.withOtp_flt : (s.withOtp v).flt = s.flt := rfl
@[simp] theorem State.withOtp_tml : (s.withOtp v).tml = s.tml := rfl
@[simp] theorem State.withOtp_tack : (s.withOtp v).tack = s.tack := rfl
@[simp] theorem State.withOtp_dp : (s.withOtp v).dp = s.dp := rfl
@[simp] theorem State.withOtp_mbx : (s.withOtp v).mbx = s.mbx := rfl
@[simp] theorem State.withOtp_pass : (s.withOtp v).pass = s.pass := rfl
@[simp] theorem State.withOtp_proxyHeld : (s.withOtp v).proxyHeld = s.proxyHeld := rfl
@[simp] theorem State.withOtp_msg : (s.withOtp v).msg = s.msg := rfl
@[simp] theorem State.withOtp_expert : (s.withOtp v).expert = s.expert := rfl
@[simp] theorem State.withOtp_sbTimedOut : (s.withOtp v).sbTimedOut = s.sbTimedOut := rfl
@[simp] theorem State.withOtp_tmlOld : (s.withOtp v).tmlOld = s.tmlOld := rfl
@[simp] theorem State.withOtp_epMem : (s.withOtp v).epMem = s.epMem := rfl
end

/-! ### `withPln` -/

section
variable (s : State) (v : PlnS)
@[simp] theorem State.withPln_regs : (s.withPln v).regs = s.regs := rfl
@[simp] theorem State.withPln_cycle : (s.withPln v).cycle = s.cycle := rfl
@[simp] theorem State.withPln_hwSet : (s.withPln v).hwSet = s.hwSet := rfl
@[simp] theorem State.withPln_marks : (s.withPln v).marks = s.marks := rfl
@[simp] theorem State.withPln_pending : (s.withPln v).pending = s.pending := rfl
@[simp] theorem State.withPln_outs : (s.withPln v).outs = s.outs := rfl
@[simp] theorem State.withPln_plan : (s.withPln v).plan = s.plan := rfl
@[simp] theorem State.withPln_obs : (s.withPln v).obs = s.obs := rfl
@[simp] theorem State.withPln_yards : (s.withPln v).yards = s.yards := rfl
@[simp] theorem State.withPln_pat : (s.withPln v).pat = s.pat := rfl
@[simp] theorem State.withPln_pred : (s.withPln v).pred = s.pred := rfl
@[simp] theorem State.withPln_pdc : (s.withPln v).pdc = s.pdc := rfl
@[simp] theorem State.withPln_chan : (s.withPln v).chan = s.chan := rfl
@[simp] theorem State.withPln_tlm : (s.withPln v).tlm = s.tlm := rfl
@[simp] theorem State.withPln_bud : (s.withPln v).bud = s.bud := rfl
@[simp] theorem State.withPln_tcp : (s.withPln v).tcp = s.tcp := rfl
@[simp] theorem State.withPln_ss : (s.withPln v).ss = s.ss := rfl
@[simp] theorem State.withPln_otp : (s.withPln v).otp = s.otp := rfl
@[simp] theorem State.withPln_pln : (s.withPln v).pln = v := rfl
@[simp] theorem State.withPln_boot : (s.withPln v).boot = s.boot := rfl
@[simp] theorem State.withPln_hs : (s.withPln v).hs = s.hs := rfl
@[simp] theorem State.withPln_tt : (s.withPln v).tt = s.tt := rfl
@[simp] theorem State.withPln_ttOp : (s.withPln v).ttOp = s.ttOp := rfl
@[simp] theorem State.withPln_glk : (s.withPln v).glk = s.glk := rfl
@[simp] theorem State.withPln_fab : (s.withPln v).fab = s.fab := rfl
@[simp] theorem State.withPln_port : (s.withPln v).port = s.port := rfl
@[simp] theorem State.withPln_mirror : (s.withPln v).mirror = s.mirror := rfl
@[simp] theorem State.withPln_hubWaits : (s.withPln v).hubWaits = s.hubWaits := rfl
@[simp] theorem State.withPln_holders : (s.withPln v).holders = s.holders := rfl
@[simp] theorem State.withPln_handoff : (s.withPln v).handoff = s.handoff := rfl
@[simp] theorem State.withPln_flt : (s.withPln v).flt = s.flt := rfl
@[simp] theorem State.withPln_tml : (s.withPln v).tml = s.tml := rfl
@[simp] theorem State.withPln_tack : (s.withPln v).tack = s.tack := rfl
@[simp] theorem State.withPln_dp : (s.withPln v).dp = s.dp := rfl
@[simp] theorem State.withPln_mbx : (s.withPln v).mbx = s.mbx := rfl
@[simp] theorem State.withPln_pass : (s.withPln v).pass = s.pass := rfl
@[simp] theorem State.withPln_proxyHeld : (s.withPln v).proxyHeld = s.proxyHeld := rfl
@[simp] theorem State.withPln_msg : (s.withPln v).msg = s.msg := rfl
@[simp] theorem State.withPln_expert : (s.withPln v).expert = s.expert := rfl
@[simp] theorem State.withPln_sbTimedOut : (s.withPln v).sbTimedOut = s.sbTimedOut := rfl
@[simp] theorem State.withPln_tmlOld : (s.withPln v).tmlOld = s.tmlOld := rfl
@[simp] theorem State.withPln_epMem : (s.withPln v).epMem = s.epMem := rfl
end

/-! ### `withBoot` -/

section
variable (s : State) (v : BootS)
@[simp] theorem State.withBoot_regs : (s.withBoot v).regs = s.regs := rfl
@[simp] theorem State.withBoot_cycle : (s.withBoot v).cycle = s.cycle := rfl
@[simp] theorem State.withBoot_hwSet : (s.withBoot v).hwSet = s.hwSet := rfl
@[simp] theorem State.withBoot_marks : (s.withBoot v).marks = s.marks := rfl
@[simp] theorem State.withBoot_pending : (s.withBoot v).pending = s.pending := rfl
@[simp] theorem State.withBoot_outs : (s.withBoot v).outs = s.outs := rfl
@[simp] theorem State.withBoot_plan : (s.withBoot v).plan = s.plan := rfl
@[simp] theorem State.withBoot_obs : (s.withBoot v).obs = s.obs := rfl
@[simp] theorem State.withBoot_yards : (s.withBoot v).yards = s.yards := rfl
@[simp] theorem State.withBoot_pat : (s.withBoot v).pat = s.pat := rfl
@[simp] theorem State.withBoot_pred : (s.withBoot v).pred = s.pred := rfl
@[simp] theorem State.withBoot_pdc : (s.withBoot v).pdc = s.pdc := rfl
@[simp] theorem State.withBoot_chan : (s.withBoot v).chan = s.chan := rfl
@[simp] theorem State.withBoot_tlm : (s.withBoot v).tlm = s.tlm := rfl
@[simp] theorem State.withBoot_bud : (s.withBoot v).bud = s.bud := rfl
@[simp] theorem State.withBoot_tcp : (s.withBoot v).tcp = s.tcp := rfl
@[simp] theorem State.withBoot_ss : (s.withBoot v).ss = s.ss := rfl
@[simp] theorem State.withBoot_otp : (s.withBoot v).otp = s.otp := rfl
@[simp] theorem State.withBoot_pln : (s.withBoot v).pln = s.pln := rfl
@[simp] theorem State.withBoot_boot : (s.withBoot v).boot = v := rfl
@[simp] theorem State.withBoot_hs : (s.withBoot v).hs = s.hs := rfl
@[simp] theorem State.withBoot_tt : (s.withBoot v).tt = s.tt := rfl
@[simp] theorem State.withBoot_ttOp : (s.withBoot v).ttOp = s.ttOp := rfl
@[simp] theorem State.withBoot_glk : (s.withBoot v).glk = s.glk := rfl
@[simp] theorem State.withBoot_fab : (s.withBoot v).fab = s.fab := rfl
@[simp] theorem State.withBoot_port : (s.withBoot v).port = s.port := rfl
@[simp] theorem State.withBoot_mirror : (s.withBoot v).mirror = s.mirror := rfl
@[simp] theorem State.withBoot_hubWaits : (s.withBoot v).hubWaits = s.hubWaits := rfl
@[simp] theorem State.withBoot_holders : (s.withBoot v).holders = s.holders := rfl
@[simp] theorem State.withBoot_handoff : (s.withBoot v).handoff = s.handoff := rfl
@[simp] theorem State.withBoot_flt : (s.withBoot v).flt = s.flt := rfl
@[simp] theorem State.withBoot_tml : (s.withBoot v).tml = s.tml := rfl
@[simp] theorem State.withBoot_tack : (s.withBoot v).tack = s.tack := rfl
@[simp] theorem State.withBoot_dp : (s.withBoot v).dp = s.dp := rfl
@[simp] theorem State.withBoot_mbx : (s.withBoot v).mbx = s.mbx := rfl
@[simp] theorem State.withBoot_pass : (s.withBoot v).pass = s.pass := rfl
@[simp] theorem State.withBoot_proxyHeld : (s.withBoot v).proxyHeld = s.proxyHeld := rfl
@[simp] theorem State.withBoot_msg : (s.withBoot v).msg = s.msg := rfl
@[simp] theorem State.withBoot_expert : (s.withBoot v).expert = s.expert := rfl
@[simp] theorem State.withBoot_sbTimedOut : (s.withBoot v).sbTimedOut = s.sbTimedOut := rfl
@[simp] theorem State.withBoot_tmlOld : (s.withBoot v).tmlOld = s.tmlOld := rfl
@[simp] theorem State.withBoot_epMem : (s.withBoot v).epMem = s.epMem := rfl
end

/-! ### `withHs` -/

section
variable (s : State) (v : HsS)
@[simp] theorem State.withHs_regs : (s.withHs v).regs = s.regs := rfl
@[simp] theorem State.withHs_cycle : (s.withHs v).cycle = s.cycle := rfl
@[simp] theorem State.withHs_hwSet : (s.withHs v).hwSet = s.hwSet := rfl
@[simp] theorem State.withHs_marks : (s.withHs v).marks = s.marks := rfl
@[simp] theorem State.withHs_pending : (s.withHs v).pending = s.pending := rfl
@[simp] theorem State.withHs_outs : (s.withHs v).outs = s.outs := rfl
@[simp] theorem State.withHs_plan : (s.withHs v).plan = s.plan := rfl
@[simp] theorem State.withHs_obs : (s.withHs v).obs = s.obs := rfl
@[simp] theorem State.withHs_yards : (s.withHs v).yards = s.yards := rfl
@[simp] theorem State.withHs_pat : (s.withHs v).pat = s.pat := rfl
@[simp] theorem State.withHs_pred : (s.withHs v).pred = s.pred := rfl
@[simp] theorem State.withHs_pdc : (s.withHs v).pdc = s.pdc := rfl
@[simp] theorem State.withHs_chan : (s.withHs v).chan = s.chan := rfl
@[simp] theorem State.withHs_tlm : (s.withHs v).tlm = s.tlm := rfl
@[simp] theorem State.withHs_bud : (s.withHs v).bud = s.bud := rfl
@[simp] theorem State.withHs_tcp : (s.withHs v).tcp = s.tcp := rfl
@[simp] theorem State.withHs_ss : (s.withHs v).ss = s.ss := rfl
@[simp] theorem State.withHs_otp : (s.withHs v).otp = s.otp := rfl
@[simp] theorem State.withHs_pln : (s.withHs v).pln = s.pln := rfl
@[simp] theorem State.withHs_boot : (s.withHs v).boot = s.boot := rfl
@[simp] theorem State.withHs_hs : (s.withHs v).hs = v := rfl
@[simp] theorem State.withHs_tt : (s.withHs v).tt = s.tt := rfl
@[simp] theorem State.withHs_ttOp : (s.withHs v).ttOp = s.ttOp := rfl
@[simp] theorem State.withHs_glk : (s.withHs v).glk = s.glk := rfl
@[simp] theorem State.withHs_fab : (s.withHs v).fab = s.fab := rfl
@[simp] theorem State.withHs_port : (s.withHs v).port = s.port := rfl
@[simp] theorem State.withHs_mirror : (s.withHs v).mirror = s.mirror := rfl
@[simp] theorem State.withHs_hubWaits : (s.withHs v).hubWaits = s.hubWaits := rfl
@[simp] theorem State.withHs_holders : (s.withHs v).holders = s.holders := rfl
@[simp] theorem State.withHs_handoff : (s.withHs v).handoff = s.handoff := rfl
@[simp] theorem State.withHs_flt : (s.withHs v).flt = s.flt := rfl
@[simp] theorem State.withHs_tml : (s.withHs v).tml = s.tml := rfl
@[simp] theorem State.withHs_tack : (s.withHs v).tack = s.tack := rfl
@[simp] theorem State.withHs_dp : (s.withHs v).dp = s.dp := rfl
@[simp] theorem State.withHs_mbx : (s.withHs v).mbx = s.mbx := rfl
@[simp] theorem State.withHs_pass : (s.withHs v).pass = s.pass := rfl
@[simp] theorem State.withHs_proxyHeld : (s.withHs v).proxyHeld = s.proxyHeld := rfl
@[simp] theorem State.withHs_msg : (s.withHs v).msg = s.msg := rfl
@[simp] theorem State.withHs_expert : (s.withHs v).expert = s.expert := rfl
@[simp] theorem State.withHs_sbTimedOut : (s.withHs v).sbTimedOut = s.sbTimedOut := rfl
@[simp] theorem State.withHs_tmlOld : (s.withHs v).tmlOld = s.tmlOld := rfl
@[simp] theorem State.withHs_epMem : (s.withHs v).epMem = s.epMem := rfl
end

/-! ### `withTt` -/

section
variable (s : State) (v : Vector TtS 15)
@[simp] theorem State.withTt_regs : (s.withTt v).regs = s.regs := rfl
@[simp] theorem State.withTt_cycle : (s.withTt v).cycle = s.cycle := rfl
@[simp] theorem State.withTt_hwSet : (s.withTt v).hwSet = s.hwSet := rfl
@[simp] theorem State.withTt_marks : (s.withTt v).marks = s.marks := rfl
@[simp] theorem State.withTt_pending : (s.withTt v).pending = s.pending := rfl
@[simp] theorem State.withTt_outs : (s.withTt v).outs = s.outs := rfl
@[simp] theorem State.withTt_plan : (s.withTt v).plan = s.plan := rfl
@[simp] theorem State.withTt_obs : (s.withTt v).obs = s.obs := rfl
@[simp] theorem State.withTt_yards : (s.withTt v).yards = s.yards := rfl
@[simp] theorem State.withTt_pat : (s.withTt v).pat = s.pat := rfl
@[simp] theorem State.withTt_pred : (s.withTt v).pred = s.pred := rfl
@[simp] theorem State.withTt_pdc : (s.withTt v).pdc = s.pdc := rfl
@[simp] theorem State.withTt_chan : (s.withTt v).chan = s.chan := rfl
@[simp] theorem State.withTt_tlm : (s.withTt v).tlm = s.tlm := rfl
@[simp] theorem State.withTt_bud : (s.withTt v).bud = s.bud := rfl
@[simp] theorem State.withTt_tcp : (s.withTt v).tcp = s.tcp := rfl
@[simp] theorem State.withTt_ss : (s.withTt v).ss = s.ss := rfl
@[simp] theorem State.withTt_otp : (s.withTt v).otp = s.otp := rfl
@[simp] theorem State.withTt_pln : (s.withTt v).pln = s.pln := rfl
@[simp] theorem State.withTt_boot : (s.withTt v).boot = s.boot := rfl
@[simp] theorem State.withTt_hs : (s.withTt v).hs = s.hs := rfl
@[simp] theorem State.withTt_tt : (s.withTt v).tt = v := rfl
@[simp] theorem State.withTt_ttOp : (s.withTt v).ttOp = s.ttOp := rfl
@[simp] theorem State.withTt_glk : (s.withTt v).glk = s.glk := rfl
@[simp] theorem State.withTt_fab : (s.withTt v).fab = s.fab := rfl
@[simp] theorem State.withTt_port : (s.withTt v).port = s.port := rfl
@[simp] theorem State.withTt_mirror : (s.withTt v).mirror = s.mirror := rfl
@[simp] theorem State.withTt_hubWaits : (s.withTt v).hubWaits = s.hubWaits := rfl
@[simp] theorem State.withTt_holders : (s.withTt v).holders = s.holders := rfl
@[simp] theorem State.withTt_handoff : (s.withTt v).handoff = s.handoff := rfl
@[simp] theorem State.withTt_flt : (s.withTt v).flt = s.flt := rfl
@[simp] theorem State.withTt_tml : (s.withTt v).tml = s.tml := rfl
@[simp] theorem State.withTt_tack : (s.withTt v).tack = s.tack := rfl
@[simp] theorem State.withTt_dp : (s.withTt v).dp = s.dp := rfl
@[simp] theorem State.withTt_mbx : (s.withTt v).mbx = s.mbx := rfl
@[simp] theorem State.withTt_pass : (s.withTt v).pass = s.pass := rfl
@[simp] theorem State.withTt_proxyHeld : (s.withTt v).proxyHeld = s.proxyHeld := rfl
@[simp] theorem State.withTt_msg : (s.withTt v).msg = s.msg := rfl
@[simp] theorem State.withTt_expert : (s.withTt v).expert = s.expert := rfl
@[simp] theorem State.withTt_sbTimedOut : (s.withTt v).sbTimedOut = s.sbTimedOut := rfl
@[simp] theorem State.withTt_tmlOld : (s.withTt v).tmlOld = s.tmlOld := rfl
@[simp] theorem State.withTt_epMem : (s.withTt v).epMem = s.epMem := rfl
end

/-! ### `withTtOp` -/

section
variable (s : State) (v : Nat)
@[simp] theorem State.withTtOp_regs : (s.withTtOp v).regs = s.regs := rfl
@[simp] theorem State.withTtOp_cycle : (s.withTtOp v).cycle = s.cycle := rfl
@[simp] theorem State.withTtOp_hwSet : (s.withTtOp v).hwSet = s.hwSet := rfl
@[simp] theorem State.withTtOp_marks : (s.withTtOp v).marks = s.marks := rfl
@[simp] theorem State.withTtOp_pending : (s.withTtOp v).pending = s.pending := rfl
@[simp] theorem State.withTtOp_outs : (s.withTtOp v).outs = s.outs := rfl
@[simp] theorem State.withTtOp_plan : (s.withTtOp v).plan = s.plan := rfl
@[simp] theorem State.withTtOp_obs : (s.withTtOp v).obs = s.obs := rfl
@[simp] theorem State.withTtOp_yards : (s.withTtOp v).yards = s.yards := rfl
@[simp] theorem State.withTtOp_pat : (s.withTtOp v).pat = s.pat := rfl
@[simp] theorem State.withTtOp_pred : (s.withTtOp v).pred = s.pred := rfl
@[simp] theorem State.withTtOp_pdc : (s.withTtOp v).pdc = s.pdc := rfl
@[simp] theorem State.withTtOp_chan : (s.withTtOp v).chan = s.chan := rfl
@[simp] theorem State.withTtOp_tlm : (s.withTtOp v).tlm = s.tlm := rfl
@[simp] theorem State.withTtOp_bud : (s.withTtOp v).bud = s.bud := rfl
@[simp] theorem State.withTtOp_tcp : (s.withTtOp v).tcp = s.tcp := rfl
@[simp] theorem State.withTtOp_ss : (s.withTtOp v).ss = s.ss := rfl
@[simp] theorem State.withTtOp_otp : (s.withTtOp v).otp = s.otp := rfl
@[simp] theorem State.withTtOp_pln : (s.withTtOp v).pln = s.pln := rfl
@[simp] theorem State.withTtOp_boot : (s.withTtOp v).boot = s.boot := rfl
@[simp] theorem State.withTtOp_hs : (s.withTtOp v).hs = s.hs := rfl
@[simp] theorem State.withTtOp_tt : (s.withTtOp v).tt = s.tt := rfl
@[simp] theorem State.withTtOp_ttOp : (s.withTtOp v).ttOp = v := rfl
@[simp] theorem State.withTtOp_glk : (s.withTtOp v).glk = s.glk := rfl
@[simp] theorem State.withTtOp_fab : (s.withTtOp v).fab = s.fab := rfl
@[simp] theorem State.withTtOp_port : (s.withTtOp v).port = s.port := rfl
@[simp] theorem State.withTtOp_mirror : (s.withTtOp v).mirror = s.mirror := rfl
@[simp] theorem State.withTtOp_hubWaits : (s.withTtOp v).hubWaits = s.hubWaits := rfl
@[simp] theorem State.withTtOp_holders : (s.withTtOp v).holders = s.holders := rfl
@[simp] theorem State.withTtOp_handoff : (s.withTtOp v).handoff = s.handoff := rfl
@[simp] theorem State.withTtOp_flt : (s.withTtOp v).flt = s.flt := rfl
@[simp] theorem State.withTtOp_tml : (s.withTtOp v).tml = s.tml := rfl
@[simp] theorem State.withTtOp_tack : (s.withTtOp v).tack = s.tack := rfl
@[simp] theorem State.withTtOp_dp : (s.withTtOp v).dp = s.dp := rfl
@[simp] theorem State.withTtOp_mbx : (s.withTtOp v).mbx = s.mbx := rfl
@[simp] theorem State.withTtOp_pass : (s.withTtOp v).pass = s.pass := rfl
@[simp] theorem State.withTtOp_proxyHeld : (s.withTtOp v).proxyHeld = s.proxyHeld := rfl
@[simp] theorem State.withTtOp_msg : (s.withTtOp v).msg = s.msg := rfl
@[simp] theorem State.withTtOp_expert : (s.withTtOp v).expert = s.expert := rfl
@[simp] theorem State.withTtOp_sbTimedOut : (s.withTtOp v).sbTimedOut = s.sbTimedOut := rfl
@[simp] theorem State.withTtOp_tmlOld : (s.withTtOp v).tmlOld = s.tmlOld := rfl
@[simp] theorem State.withTtOp_epMem : (s.withTtOp v).epMem = s.epMem := rfl
end

/-! ### `withGlk` -/

section
variable (s : State) (v : Vector GlkS 4)
@[simp] theorem State.withGlk_regs : (s.withGlk v).regs = s.regs := rfl
@[simp] theorem State.withGlk_cycle : (s.withGlk v).cycle = s.cycle := rfl
@[simp] theorem State.withGlk_hwSet : (s.withGlk v).hwSet = s.hwSet := rfl
@[simp] theorem State.withGlk_marks : (s.withGlk v).marks = s.marks := rfl
@[simp] theorem State.withGlk_pending : (s.withGlk v).pending = s.pending := rfl
@[simp] theorem State.withGlk_outs : (s.withGlk v).outs = s.outs := rfl
@[simp] theorem State.withGlk_plan : (s.withGlk v).plan = s.plan := rfl
@[simp] theorem State.withGlk_obs : (s.withGlk v).obs = s.obs := rfl
@[simp] theorem State.withGlk_yards : (s.withGlk v).yards = s.yards := rfl
@[simp] theorem State.withGlk_pat : (s.withGlk v).pat = s.pat := rfl
@[simp] theorem State.withGlk_pred : (s.withGlk v).pred = s.pred := rfl
@[simp] theorem State.withGlk_pdc : (s.withGlk v).pdc = s.pdc := rfl
@[simp] theorem State.withGlk_chan : (s.withGlk v).chan = s.chan := rfl
@[simp] theorem State.withGlk_tlm : (s.withGlk v).tlm = s.tlm := rfl
@[simp] theorem State.withGlk_bud : (s.withGlk v).bud = s.bud := rfl
@[simp] theorem State.withGlk_tcp : (s.withGlk v).tcp = s.tcp := rfl
@[simp] theorem State.withGlk_ss : (s.withGlk v).ss = s.ss := rfl
@[simp] theorem State.withGlk_otp : (s.withGlk v).otp = s.otp := rfl
@[simp] theorem State.withGlk_pln : (s.withGlk v).pln = s.pln := rfl
@[simp] theorem State.withGlk_boot : (s.withGlk v).boot = s.boot := rfl
@[simp] theorem State.withGlk_hs : (s.withGlk v).hs = s.hs := rfl
@[simp] theorem State.withGlk_tt : (s.withGlk v).tt = s.tt := rfl
@[simp] theorem State.withGlk_ttOp : (s.withGlk v).ttOp = s.ttOp := rfl
@[simp] theorem State.withGlk_glk : (s.withGlk v).glk = v := rfl
@[simp] theorem State.withGlk_fab : (s.withGlk v).fab = s.fab := rfl
@[simp] theorem State.withGlk_port : (s.withGlk v).port = s.port := rfl
@[simp] theorem State.withGlk_mirror : (s.withGlk v).mirror = s.mirror := rfl
@[simp] theorem State.withGlk_hubWaits : (s.withGlk v).hubWaits = s.hubWaits := rfl
@[simp] theorem State.withGlk_holders : (s.withGlk v).holders = s.holders := rfl
@[simp] theorem State.withGlk_handoff : (s.withGlk v).handoff = s.handoff := rfl
@[simp] theorem State.withGlk_flt : (s.withGlk v).flt = s.flt := rfl
@[simp] theorem State.withGlk_tml : (s.withGlk v).tml = s.tml := rfl
@[simp] theorem State.withGlk_tack : (s.withGlk v).tack = s.tack := rfl
@[simp] theorem State.withGlk_dp : (s.withGlk v).dp = s.dp := rfl
@[simp] theorem State.withGlk_mbx : (s.withGlk v).mbx = s.mbx := rfl
@[simp] theorem State.withGlk_pass : (s.withGlk v).pass = s.pass := rfl
@[simp] theorem State.withGlk_proxyHeld : (s.withGlk v).proxyHeld = s.proxyHeld := rfl
@[simp] theorem State.withGlk_msg : (s.withGlk v).msg = s.msg := rfl
@[simp] theorem State.withGlk_expert : (s.withGlk v).expert = s.expert := rfl
@[simp] theorem State.withGlk_sbTimedOut : (s.withGlk v).sbTimedOut = s.sbTimedOut := rfl
@[simp] theorem State.withGlk_tmlOld : (s.withGlk v).tmlOld = s.tmlOld := rfl
@[simp] theorem State.withGlk_epMem : (s.withGlk v).epMem = s.epMem := rfl
end

/-! ### `withFab` -/

section
variable (s : State) (v : FabS)
@[simp] theorem State.withFab_regs : (s.withFab v).regs = s.regs := rfl
@[simp] theorem State.withFab_cycle : (s.withFab v).cycle = s.cycle := rfl
@[simp] theorem State.withFab_hwSet : (s.withFab v).hwSet = s.hwSet := rfl
@[simp] theorem State.withFab_marks : (s.withFab v).marks = s.marks := rfl
@[simp] theorem State.withFab_pending : (s.withFab v).pending = s.pending := rfl
@[simp] theorem State.withFab_outs : (s.withFab v).outs = s.outs := rfl
@[simp] theorem State.withFab_plan : (s.withFab v).plan = s.plan := rfl
@[simp] theorem State.withFab_obs : (s.withFab v).obs = s.obs := rfl
@[simp] theorem State.withFab_yards : (s.withFab v).yards = s.yards := rfl
@[simp] theorem State.withFab_pat : (s.withFab v).pat = s.pat := rfl
@[simp] theorem State.withFab_pred : (s.withFab v).pred = s.pred := rfl
@[simp] theorem State.withFab_pdc : (s.withFab v).pdc = s.pdc := rfl
@[simp] theorem State.withFab_chan : (s.withFab v).chan = s.chan := rfl
@[simp] theorem State.withFab_tlm : (s.withFab v).tlm = s.tlm := rfl
@[simp] theorem State.withFab_bud : (s.withFab v).bud = s.bud := rfl
@[simp] theorem State.withFab_tcp : (s.withFab v).tcp = s.tcp := rfl
@[simp] theorem State.withFab_ss : (s.withFab v).ss = s.ss := rfl
@[simp] theorem State.withFab_otp : (s.withFab v).otp = s.otp := rfl
@[simp] theorem State.withFab_pln : (s.withFab v).pln = s.pln := rfl
@[simp] theorem State.withFab_boot : (s.withFab v).boot = s.boot := rfl
@[simp] theorem State.withFab_hs : (s.withFab v).hs = s.hs := rfl
@[simp] theorem State.withFab_tt : (s.withFab v).tt = s.tt := rfl
@[simp] theorem State.withFab_ttOp : (s.withFab v).ttOp = s.ttOp := rfl
@[simp] theorem State.withFab_glk : (s.withFab v).glk = s.glk := rfl
@[simp] theorem State.withFab_fab : (s.withFab v).fab = v := rfl
@[simp] theorem State.withFab_port : (s.withFab v).port = s.port := rfl
@[simp] theorem State.withFab_mirror : (s.withFab v).mirror = s.mirror := rfl
@[simp] theorem State.withFab_hubWaits : (s.withFab v).hubWaits = s.hubWaits := rfl
@[simp] theorem State.withFab_holders : (s.withFab v).holders = s.holders := rfl
@[simp] theorem State.withFab_handoff : (s.withFab v).handoff = s.handoff := rfl
@[simp] theorem State.withFab_flt : (s.withFab v).flt = s.flt := rfl
@[simp] theorem State.withFab_tml : (s.withFab v).tml = s.tml := rfl
@[simp] theorem State.withFab_tack : (s.withFab v).tack = s.tack := rfl
@[simp] theorem State.withFab_dp : (s.withFab v).dp = s.dp := rfl
@[simp] theorem State.withFab_mbx : (s.withFab v).mbx = s.mbx := rfl
@[simp] theorem State.withFab_pass : (s.withFab v).pass = s.pass := rfl
@[simp] theorem State.withFab_proxyHeld : (s.withFab v).proxyHeld = s.proxyHeld := rfl
@[simp] theorem State.withFab_msg : (s.withFab v).msg = s.msg := rfl
@[simp] theorem State.withFab_expert : (s.withFab v).expert = s.expert := rfl
@[simp] theorem State.withFab_sbTimedOut : (s.withFab v).sbTimedOut = s.sbTimedOut := rfl
@[simp] theorem State.withFab_tmlOld : (s.withFab v).tmlOld = s.tmlOld := rfl
@[simp] theorem State.withFab_epMem : (s.withFab v).epMem = s.epMem := rfl
end

/-! ### `withPort` -/

section
variable (s : State) (v : Vector PortStat 15)
@[simp] theorem State.withPort_regs : (s.withPort v).regs = s.regs := rfl
@[simp] theorem State.withPort_cycle : (s.withPort v).cycle = s.cycle := rfl
@[simp] theorem State.withPort_hwSet : (s.withPort v).hwSet = s.hwSet := rfl
@[simp] theorem State.withPort_marks : (s.withPort v).marks = s.marks := rfl
@[simp] theorem State.withPort_pending : (s.withPort v).pending = s.pending := rfl
@[simp] theorem State.withPort_outs : (s.withPort v).outs = s.outs := rfl
@[simp] theorem State.withPort_plan : (s.withPort v).plan = s.plan := rfl
@[simp] theorem State.withPort_obs : (s.withPort v).obs = s.obs := rfl
@[simp] theorem State.withPort_yards : (s.withPort v).yards = s.yards := rfl
@[simp] theorem State.withPort_pat : (s.withPort v).pat = s.pat := rfl
@[simp] theorem State.withPort_pred : (s.withPort v).pred = s.pred := rfl
@[simp] theorem State.withPort_pdc : (s.withPort v).pdc = s.pdc := rfl
@[simp] theorem State.withPort_chan : (s.withPort v).chan = s.chan := rfl
@[simp] theorem State.withPort_tlm : (s.withPort v).tlm = s.tlm := rfl
@[simp] theorem State.withPort_bud : (s.withPort v).bud = s.bud := rfl
@[simp] theorem State.withPort_tcp : (s.withPort v).tcp = s.tcp := rfl
@[simp] theorem State.withPort_ss : (s.withPort v).ss = s.ss := rfl
@[simp] theorem State.withPort_otp : (s.withPort v).otp = s.otp := rfl
@[simp] theorem State.withPort_pln : (s.withPort v).pln = s.pln := rfl
@[simp] theorem State.withPort_boot : (s.withPort v).boot = s.boot := rfl
@[simp] theorem State.withPort_hs : (s.withPort v).hs = s.hs := rfl
@[simp] theorem State.withPort_tt : (s.withPort v).tt = s.tt := rfl
@[simp] theorem State.withPort_ttOp : (s.withPort v).ttOp = s.ttOp := rfl
@[simp] theorem State.withPort_glk : (s.withPort v).glk = s.glk := rfl
@[simp] theorem State.withPort_fab : (s.withPort v).fab = s.fab := rfl
@[simp] theorem State.withPort_port : (s.withPort v).port = v := rfl
@[simp] theorem State.withPort_mirror : (s.withPort v).mirror = s.mirror := rfl
@[simp] theorem State.withPort_hubWaits : (s.withPort v).hubWaits = s.hubWaits := rfl
@[simp] theorem State.withPort_holders : (s.withPort v).holders = s.holders := rfl
@[simp] theorem State.withPort_handoff : (s.withPort v).handoff = s.handoff := rfl
@[simp] theorem State.withPort_flt : (s.withPort v).flt = s.flt := rfl
@[simp] theorem State.withPort_tml : (s.withPort v).tml = s.tml := rfl
@[simp] theorem State.withPort_tack : (s.withPort v).tack = s.tack := rfl
@[simp] theorem State.withPort_dp : (s.withPort v).dp = s.dp := rfl
@[simp] theorem State.withPort_mbx : (s.withPort v).mbx = s.mbx := rfl
@[simp] theorem State.withPort_pass : (s.withPort v).pass = s.pass := rfl
@[simp] theorem State.withPort_proxyHeld : (s.withPort v).proxyHeld = s.proxyHeld := rfl
@[simp] theorem State.withPort_msg : (s.withPort v).msg = s.msg := rfl
@[simp] theorem State.withPort_expert : (s.withPort v).expert = s.expert := rfl
@[simp] theorem State.withPort_sbTimedOut : (s.withPort v).sbTimedOut = s.sbTimedOut := rfl
@[simp] theorem State.withPort_tmlOld : (s.withPort v).tmlOld = s.tmlOld := rfl
@[simp] theorem State.withPort_epMem : (s.withPort v).epMem = s.epMem := rfl
end

/-! ### `withMirror` -/

section
variable (s : State) (v : List MirPos)
@[simp] theorem State.withMirror_regs : (s.withMirror v).regs = s.regs := rfl
@[simp] theorem State.withMirror_cycle : (s.withMirror v).cycle = s.cycle := rfl
@[simp] theorem State.withMirror_hwSet : (s.withMirror v).hwSet = s.hwSet := rfl
@[simp] theorem State.withMirror_marks : (s.withMirror v).marks = s.marks := rfl
@[simp] theorem State.withMirror_pending : (s.withMirror v).pending = s.pending := rfl
@[simp] theorem State.withMirror_outs : (s.withMirror v).outs = s.outs := rfl
@[simp] theorem State.withMirror_plan : (s.withMirror v).plan = s.plan := rfl
@[simp] theorem State.withMirror_obs : (s.withMirror v).obs = s.obs := rfl
@[simp] theorem State.withMirror_yards : (s.withMirror v).yards = s.yards := rfl
@[simp] theorem State.withMirror_pat : (s.withMirror v).pat = s.pat := rfl
@[simp] theorem State.withMirror_pred : (s.withMirror v).pred = s.pred := rfl
@[simp] theorem State.withMirror_pdc : (s.withMirror v).pdc = s.pdc := rfl
@[simp] theorem State.withMirror_chan : (s.withMirror v).chan = s.chan := rfl
@[simp] theorem State.withMirror_tlm : (s.withMirror v).tlm = s.tlm := rfl
@[simp] theorem State.withMirror_bud : (s.withMirror v).bud = s.bud := rfl
@[simp] theorem State.withMirror_tcp : (s.withMirror v).tcp = s.tcp := rfl
@[simp] theorem State.withMirror_ss : (s.withMirror v).ss = s.ss := rfl
@[simp] theorem State.withMirror_otp : (s.withMirror v).otp = s.otp := rfl
@[simp] theorem State.withMirror_pln : (s.withMirror v).pln = s.pln := rfl
@[simp] theorem State.withMirror_boot : (s.withMirror v).boot = s.boot := rfl
@[simp] theorem State.withMirror_hs : (s.withMirror v).hs = s.hs := rfl
@[simp] theorem State.withMirror_tt : (s.withMirror v).tt = s.tt := rfl
@[simp] theorem State.withMirror_ttOp : (s.withMirror v).ttOp = s.ttOp := rfl
@[simp] theorem State.withMirror_glk : (s.withMirror v).glk = s.glk := rfl
@[simp] theorem State.withMirror_fab : (s.withMirror v).fab = s.fab := rfl
@[simp] theorem State.withMirror_port : (s.withMirror v).port = s.port := rfl
@[simp] theorem State.withMirror_mirror : (s.withMirror v).mirror = v := rfl
@[simp] theorem State.withMirror_hubWaits : (s.withMirror v).hubWaits = s.hubWaits := rfl
@[simp] theorem State.withMirror_holders : (s.withMirror v).holders = s.holders := rfl
@[simp] theorem State.withMirror_handoff : (s.withMirror v).handoff = s.handoff := rfl
@[simp] theorem State.withMirror_flt : (s.withMirror v).flt = s.flt := rfl
@[simp] theorem State.withMirror_tml : (s.withMirror v).tml = s.tml := rfl
@[simp] theorem State.withMirror_tack : (s.withMirror v).tack = s.tack := rfl
@[simp] theorem State.withMirror_dp : (s.withMirror v).dp = s.dp := rfl
@[simp] theorem State.withMirror_mbx : (s.withMirror v).mbx = s.mbx := rfl
@[simp] theorem State.withMirror_pass : (s.withMirror v).pass = s.pass := rfl
@[simp] theorem State.withMirror_proxyHeld : (s.withMirror v).proxyHeld = s.proxyHeld := rfl
@[simp] theorem State.withMirror_msg : (s.withMirror v).msg = s.msg := rfl
@[simp] theorem State.withMirror_expert : (s.withMirror v).expert = s.expert := rfl
@[simp] theorem State.withMirror_sbTimedOut : (s.withMirror v).sbTimedOut = s.sbTimedOut := rfl
@[simp] theorem State.withMirror_tmlOld : (s.withMirror v).tmlOld = s.tmlOld := rfl
@[simp] theorem State.withMirror_epMem : (s.withMirror v).epMem = s.epMem := rfl
end

/-! ### `withHubWaits` -/

section
variable (s : State) (v : List HubWait)
@[simp] theorem State.withHubWaits_regs : (s.withHubWaits v).regs = s.regs := rfl
@[simp] theorem State.withHubWaits_cycle : (s.withHubWaits v).cycle = s.cycle := rfl
@[simp] theorem State.withHubWaits_hwSet : (s.withHubWaits v).hwSet = s.hwSet := rfl
@[simp] theorem State.withHubWaits_marks : (s.withHubWaits v).marks = s.marks := rfl
@[simp] theorem State.withHubWaits_pending : (s.withHubWaits v).pending = s.pending := rfl
@[simp] theorem State.withHubWaits_outs : (s.withHubWaits v).outs = s.outs := rfl
@[simp] theorem State.withHubWaits_plan : (s.withHubWaits v).plan = s.plan := rfl
@[simp] theorem State.withHubWaits_obs : (s.withHubWaits v).obs = s.obs := rfl
@[simp] theorem State.withHubWaits_yards : (s.withHubWaits v).yards = s.yards := rfl
@[simp] theorem State.withHubWaits_pat : (s.withHubWaits v).pat = s.pat := rfl
@[simp] theorem State.withHubWaits_pred : (s.withHubWaits v).pred = s.pred := rfl
@[simp] theorem State.withHubWaits_pdc : (s.withHubWaits v).pdc = s.pdc := rfl
@[simp] theorem State.withHubWaits_chan : (s.withHubWaits v).chan = s.chan := rfl
@[simp] theorem State.withHubWaits_tlm : (s.withHubWaits v).tlm = s.tlm := rfl
@[simp] theorem State.withHubWaits_bud : (s.withHubWaits v).bud = s.bud := rfl
@[simp] theorem State.withHubWaits_tcp : (s.withHubWaits v).tcp = s.tcp := rfl
@[simp] theorem State.withHubWaits_ss : (s.withHubWaits v).ss = s.ss := rfl
@[simp] theorem State.withHubWaits_otp : (s.withHubWaits v).otp = s.otp := rfl
@[simp] theorem State.withHubWaits_pln : (s.withHubWaits v).pln = s.pln := rfl
@[simp] theorem State.withHubWaits_boot : (s.withHubWaits v).boot = s.boot := rfl
@[simp] theorem State.withHubWaits_hs : (s.withHubWaits v).hs = s.hs := rfl
@[simp] theorem State.withHubWaits_tt : (s.withHubWaits v).tt = s.tt := rfl
@[simp] theorem State.withHubWaits_ttOp : (s.withHubWaits v).ttOp = s.ttOp := rfl
@[simp] theorem State.withHubWaits_glk : (s.withHubWaits v).glk = s.glk := rfl
@[simp] theorem State.withHubWaits_fab : (s.withHubWaits v).fab = s.fab := rfl
@[simp] theorem State.withHubWaits_port : (s.withHubWaits v).port = s.port := rfl
@[simp] theorem State.withHubWaits_mirror : (s.withHubWaits v).mirror = s.mirror := rfl
@[simp] theorem State.withHubWaits_hubWaits : (s.withHubWaits v).hubWaits = v := rfl
@[simp] theorem State.withHubWaits_holders : (s.withHubWaits v).holders = s.holders := rfl
@[simp] theorem State.withHubWaits_handoff : (s.withHubWaits v).handoff = s.handoff := rfl
@[simp] theorem State.withHubWaits_flt : (s.withHubWaits v).flt = s.flt := rfl
@[simp] theorem State.withHubWaits_tml : (s.withHubWaits v).tml = s.tml := rfl
@[simp] theorem State.withHubWaits_tack : (s.withHubWaits v).tack = s.tack := rfl
@[simp] theorem State.withHubWaits_dp : (s.withHubWaits v).dp = s.dp := rfl
@[simp] theorem State.withHubWaits_mbx : (s.withHubWaits v).mbx = s.mbx := rfl
@[simp] theorem State.withHubWaits_pass : (s.withHubWaits v).pass = s.pass := rfl
@[simp] theorem State.withHubWaits_proxyHeld : (s.withHubWaits v).proxyHeld = s.proxyHeld := rfl
@[simp] theorem State.withHubWaits_msg : (s.withHubWaits v).msg = s.msg := rfl
@[simp] theorem State.withHubWaits_expert : (s.withHubWaits v).expert = s.expert := rfl
@[simp] theorem State.withHubWaits_sbTimedOut : (s.withHubWaits v).sbTimedOut = s.sbTimedOut := rfl
@[simp] theorem State.withHubWaits_tmlOld : (s.withHubWaits v).tmlOld = s.tmlOld := rfl
@[simp] theorem State.withHubWaits_epMem : (s.withHubWaits v).epMem = s.epMem := rfl
end

/-! ### `withHolders` -/

section
variable (s : State) (v : List Holder)
@[simp] theorem State.withHolders_regs : (s.withHolders v).regs = s.regs := rfl
@[simp] theorem State.withHolders_cycle : (s.withHolders v).cycle = s.cycle := rfl
@[simp] theorem State.withHolders_hwSet : (s.withHolders v).hwSet = s.hwSet := rfl
@[simp] theorem State.withHolders_marks : (s.withHolders v).marks = s.marks := rfl
@[simp] theorem State.withHolders_pending : (s.withHolders v).pending = s.pending := rfl
@[simp] theorem State.withHolders_outs : (s.withHolders v).outs = s.outs := rfl
@[simp] theorem State.withHolders_plan : (s.withHolders v).plan = s.plan := rfl
@[simp] theorem State.withHolders_obs : (s.withHolders v).obs = s.obs := rfl
@[simp] theorem State.withHolders_yards : (s.withHolders v).yards = s.yards := rfl
@[simp] theorem State.withHolders_pat : (s.withHolders v).pat = s.pat := rfl
@[simp] theorem State.withHolders_pred : (s.withHolders v).pred = s.pred := rfl
@[simp] theorem State.withHolders_pdc : (s.withHolders v).pdc = s.pdc := rfl
@[simp] theorem State.withHolders_chan : (s.withHolders v).chan = s.chan := rfl
@[simp] theorem State.withHolders_tlm : (s.withHolders v).tlm = s.tlm := rfl
@[simp] theorem State.withHolders_bud : (s.withHolders v).bud = s.bud := rfl
@[simp] theorem State.withHolders_tcp : (s.withHolders v).tcp = s.tcp := rfl
@[simp] theorem State.withHolders_ss : (s.withHolders v).ss = s.ss := rfl
@[simp] theorem State.withHolders_otp : (s.withHolders v).otp = s.otp := rfl
@[simp] theorem State.withHolders_pln : (s.withHolders v).pln = s.pln := rfl
@[simp] theorem State.withHolders_boot : (s.withHolders v).boot = s.boot := rfl
@[simp] theorem State.withHolders_hs : (s.withHolders v).hs = s.hs := rfl
@[simp] theorem State.withHolders_tt : (s.withHolders v).tt = s.tt := rfl
@[simp] theorem State.withHolders_ttOp : (s.withHolders v).ttOp = s.ttOp := rfl
@[simp] theorem State.withHolders_glk : (s.withHolders v).glk = s.glk := rfl
@[simp] theorem State.withHolders_fab : (s.withHolders v).fab = s.fab := rfl
@[simp] theorem State.withHolders_port : (s.withHolders v).port = s.port := rfl
@[simp] theorem State.withHolders_mirror : (s.withHolders v).mirror = s.mirror := rfl
@[simp] theorem State.withHolders_hubWaits : (s.withHolders v).hubWaits = s.hubWaits := rfl
@[simp] theorem State.withHolders_holders : (s.withHolders v).holders = v := rfl
@[simp] theorem State.withHolders_handoff : (s.withHolders v).handoff = s.handoff := rfl
@[simp] theorem State.withHolders_flt : (s.withHolders v).flt = s.flt := rfl
@[simp] theorem State.withHolders_tml : (s.withHolders v).tml = s.tml := rfl
@[simp] theorem State.withHolders_tack : (s.withHolders v).tack = s.tack := rfl
@[simp] theorem State.withHolders_dp : (s.withHolders v).dp = s.dp := rfl
@[simp] theorem State.withHolders_mbx : (s.withHolders v).mbx = s.mbx := rfl
@[simp] theorem State.withHolders_pass : (s.withHolders v).pass = s.pass := rfl
@[simp] theorem State.withHolders_proxyHeld : (s.withHolders v).proxyHeld = s.proxyHeld := rfl
@[simp] theorem State.withHolders_msg : (s.withHolders v).msg = s.msg := rfl
@[simp] theorem State.withHolders_expert : (s.withHolders v).expert = s.expert := rfl
@[simp] theorem State.withHolders_sbTimedOut : (s.withHolders v).sbTimedOut = s.sbTimedOut := rfl
@[simp] theorem State.withHolders_tmlOld : (s.withHolders v).tmlOld = s.tmlOld := rfl
@[simp] theorem State.withHolders_epMem : (s.withHolders v).epMem = s.epMem := rfl
end

/-! ### `withHandoff` -/

section
variable (s : State) (v : List HandoffS)
@[simp] theorem State.withHandoff_regs : (s.withHandoff v).regs = s.regs := rfl
@[simp] theorem State.withHandoff_cycle : (s.withHandoff v).cycle = s.cycle := rfl
@[simp] theorem State.withHandoff_hwSet : (s.withHandoff v).hwSet = s.hwSet := rfl
@[simp] theorem State.withHandoff_marks : (s.withHandoff v).marks = s.marks := rfl
@[simp] theorem State.withHandoff_pending : (s.withHandoff v).pending = s.pending := rfl
@[simp] theorem State.withHandoff_outs : (s.withHandoff v).outs = s.outs := rfl
@[simp] theorem State.withHandoff_plan : (s.withHandoff v).plan = s.plan := rfl
@[simp] theorem State.withHandoff_obs : (s.withHandoff v).obs = s.obs := rfl
@[simp] theorem State.withHandoff_yards : (s.withHandoff v).yards = s.yards := rfl
@[simp] theorem State.withHandoff_pat : (s.withHandoff v).pat = s.pat := rfl
@[simp] theorem State.withHandoff_pred : (s.withHandoff v).pred = s.pred := rfl
@[simp] theorem State.withHandoff_pdc : (s.withHandoff v).pdc = s.pdc := rfl
@[simp] theorem State.withHandoff_chan : (s.withHandoff v).chan = s.chan := rfl
@[simp] theorem State.withHandoff_tlm : (s.withHandoff v).tlm = s.tlm := rfl
@[simp] theorem State.withHandoff_bud : (s.withHandoff v).bud = s.bud := rfl
@[simp] theorem State.withHandoff_tcp : (s.withHandoff v).tcp = s.tcp := rfl
@[simp] theorem State.withHandoff_ss : (s.withHandoff v).ss = s.ss := rfl
@[simp] theorem State.withHandoff_otp : (s.withHandoff v).otp = s.otp := rfl
@[simp] theorem State.withHandoff_pln : (s.withHandoff v).pln = s.pln := rfl
@[simp] theorem State.withHandoff_boot : (s.withHandoff v).boot = s.boot := rfl
@[simp] theorem State.withHandoff_hs : (s.withHandoff v).hs = s.hs := rfl
@[simp] theorem State.withHandoff_tt : (s.withHandoff v).tt = s.tt := rfl
@[simp] theorem State.withHandoff_ttOp : (s.withHandoff v).ttOp = s.ttOp := rfl
@[simp] theorem State.withHandoff_glk : (s.withHandoff v).glk = s.glk := rfl
@[simp] theorem State.withHandoff_fab : (s.withHandoff v).fab = s.fab := rfl
@[simp] theorem State.withHandoff_port : (s.withHandoff v).port = s.port := rfl
@[simp] theorem State.withHandoff_mirror : (s.withHandoff v).mirror = s.mirror := rfl
@[simp] theorem State.withHandoff_hubWaits : (s.withHandoff v).hubWaits = s.hubWaits := rfl
@[simp] theorem State.withHandoff_holders : (s.withHandoff v).holders = s.holders := rfl
@[simp] theorem State.withHandoff_handoff : (s.withHandoff v).handoff = v := rfl
@[simp] theorem State.withHandoff_flt : (s.withHandoff v).flt = s.flt := rfl
@[simp] theorem State.withHandoff_tml : (s.withHandoff v).tml = s.tml := rfl
@[simp] theorem State.withHandoff_tack : (s.withHandoff v).tack = s.tack := rfl
@[simp] theorem State.withHandoff_dp : (s.withHandoff v).dp = s.dp := rfl
@[simp] theorem State.withHandoff_mbx : (s.withHandoff v).mbx = s.mbx := rfl
@[simp] theorem State.withHandoff_pass : (s.withHandoff v).pass = s.pass := rfl
@[simp] theorem State.withHandoff_proxyHeld : (s.withHandoff v).proxyHeld = s.proxyHeld := rfl
@[simp] theorem State.withHandoff_msg : (s.withHandoff v).msg = s.msg := rfl
@[simp] theorem State.withHandoff_expert : (s.withHandoff v).expert = s.expert := rfl
@[simp] theorem State.withHandoff_sbTimedOut : (s.withHandoff v).sbTimedOut = s.sbTimedOut := rfl
@[simp] theorem State.withHandoff_tmlOld : (s.withHandoff v).tmlOld = s.tmlOld := rfl
@[simp] theorem State.withHandoff_epMem : (s.withHandoff v).epMem = s.epMem := rfl
end

/-! ### `withFlt` -/

section
variable (s : State) (v : FltS)
@[simp] theorem State.withFlt_regs : (s.withFlt v).regs = s.regs := rfl
@[simp] theorem State.withFlt_cycle : (s.withFlt v).cycle = s.cycle := rfl
@[simp] theorem State.withFlt_hwSet : (s.withFlt v).hwSet = s.hwSet := rfl
@[simp] theorem State.withFlt_marks : (s.withFlt v).marks = s.marks := rfl
@[simp] theorem State.withFlt_pending : (s.withFlt v).pending = s.pending := rfl
@[simp] theorem State.withFlt_outs : (s.withFlt v).outs = s.outs := rfl
@[simp] theorem State.withFlt_plan : (s.withFlt v).plan = s.plan := rfl
@[simp] theorem State.withFlt_obs : (s.withFlt v).obs = s.obs := rfl
@[simp] theorem State.withFlt_yards : (s.withFlt v).yards = s.yards := rfl
@[simp] theorem State.withFlt_pat : (s.withFlt v).pat = s.pat := rfl
@[simp] theorem State.withFlt_pred : (s.withFlt v).pred = s.pred := rfl
@[simp] theorem State.withFlt_pdc : (s.withFlt v).pdc = s.pdc := rfl
@[simp] theorem State.withFlt_chan : (s.withFlt v).chan = s.chan := rfl
@[simp] theorem State.withFlt_tlm : (s.withFlt v).tlm = s.tlm := rfl
@[simp] theorem State.withFlt_bud : (s.withFlt v).bud = s.bud := rfl
@[simp] theorem State.withFlt_tcp : (s.withFlt v).tcp = s.tcp := rfl
@[simp] theorem State.withFlt_ss : (s.withFlt v).ss = s.ss := rfl
@[simp] theorem State.withFlt_otp : (s.withFlt v).otp = s.otp := rfl
@[simp] theorem State.withFlt_pln : (s.withFlt v).pln = s.pln := rfl
@[simp] theorem State.withFlt_boot : (s.withFlt v).boot = s.boot := rfl
@[simp] theorem State.withFlt_hs : (s.withFlt v).hs = s.hs := rfl
@[simp] theorem State.withFlt_tt : (s.withFlt v).tt = s.tt := rfl
@[simp] theorem State.withFlt_ttOp : (s.withFlt v).ttOp = s.ttOp := rfl
@[simp] theorem State.withFlt_glk : (s.withFlt v).glk = s.glk := rfl
@[simp] theorem State.withFlt_fab : (s.withFlt v).fab = s.fab := rfl
@[simp] theorem State.withFlt_port : (s.withFlt v).port = s.port := rfl
@[simp] theorem State.withFlt_mirror : (s.withFlt v).mirror = s.mirror := rfl
@[simp] theorem State.withFlt_hubWaits : (s.withFlt v).hubWaits = s.hubWaits := rfl
@[simp] theorem State.withFlt_holders : (s.withFlt v).holders = s.holders := rfl
@[simp] theorem State.withFlt_handoff : (s.withFlt v).handoff = s.handoff := rfl
@[simp] theorem State.withFlt_flt : (s.withFlt v).flt = v := rfl
@[simp] theorem State.withFlt_tml : (s.withFlt v).tml = s.tml := rfl
@[simp] theorem State.withFlt_tack : (s.withFlt v).tack = s.tack := rfl
@[simp] theorem State.withFlt_dp : (s.withFlt v).dp = s.dp := rfl
@[simp] theorem State.withFlt_mbx : (s.withFlt v).mbx = s.mbx := rfl
@[simp] theorem State.withFlt_pass : (s.withFlt v).pass = s.pass := rfl
@[simp] theorem State.withFlt_proxyHeld : (s.withFlt v).proxyHeld = s.proxyHeld := rfl
@[simp] theorem State.withFlt_msg : (s.withFlt v).msg = s.msg := rfl
@[simp] theorem State.withFlt_expert : (s.withFlt v).expert = s.expert := rfl
@[simp] theorem State.withFlt_sbTimedOut : (s.withFlt v).sbTimedOut = s.sbTimedOut := rfl
@[simp] theorem State.withFlt_tmlOld : (s.withFlt v).tmlOld = s.tmlOld := rfl
@[simp] theorem State.withFlt_epMem : (s.withFlt v).epMem = s.epMem := rfl
end

/-! ### `withTml` -/

section
variable (s : State) (v : Vector TmlE 256)
@[simp] theorem State.withTml_regs : (s.withTml v).regs = s.regs := rfl
@[simp] theorem State.withTml_cycle : (s.withTml v).cycle = s.cycle := rfl
@[simp] theorem State.withTml_hwSet : (s.withTml v).hwSet = s.hwSet := rfl
@[simp] theorem State.withTml_marks : (s.withTml v).marks = s.marks := rfl
@[simp] theorem State.withTml_pending : (s.withTml v).pending = s.pending := rfl
@[simp] theorem State.withTml_outs : (s.withTml v).outs = s.outs := rfl
@[simp] theorem State.withTml_plan : (s.withTml v).plan = s.plan := rfl
@[simp] theorem State.withTml_obs : (s.withTml v).obs = s.obs := rfl
@[simp] theorem State.withTml_yards : (s.withTml v).yards = s.yards := rfl
@[simp] theorem State.withTml_pat : (s.withTml v).pat = s.pat := rfl
@[simp] theorem State.withTml_pred : (s.withTml v).pred = s.pred := rfl
@[simp] theorem State.withTml_pdc : (s.withTml v).pdc = s.pdc := rfl
@[simp] theorem State.withTml_chan : (s.withTml v).chan = s.chan := rfl
@[simp] theorem State.withTml_tlm : (s.withTml v).tlm = s.tlm := rfl
@[simp] theorem State.withTml_bud : (s.withTml v).bud = s.bud := rfl
@[simp] theorem State.withTml_tcp : (s.withTml v).tcp = s.tcp := rfl
@[simp] theorem State.withTml_ss : (s.withTml v).ss = s.ss := rfl
@[simp] theorem State.withTml_otp : (s.withTml v).otp = s.otp := rfl
@[simp] theorem State.withTml_pln : (s.withTml v).pln = s.pln := rfl
@[simp] theorem State.withTml_boot : (s.withTml v).boot = s.boot := rfl
@[simp] theorem State.withTml_hs : (s.withTml v).hs = s.hs := rfl
@[simp] theorem State.withTml_tt : (s.withTml v).tt = s.tt := rfl
@[simp] theorem State.withTml_ttOp : (s.withTml v).ttOp = s.ttOp := rfl
@[simp] theorem State.withTml_glk : (s.withTml v).glk = s.glk := rfl
@[simp] theorem State.withTml_fab : (s.withTml v).fab = s.fab := rfl
@[simp] theorem State.withTml_port : (s.withTml v).port = s.port := rfl
@[simp] theorem State.withTml_mirror : (s.withTml v).mirror = s.mirror := rfl
@[simp] theorem State.withTml_hubWaits : (s.withTml v).hubWaits = s.hubWaits := rfl
@[simp] theorem State.withTml_holders : (s.withTml v).holders = s.holders := rfl
@[simp] theorem State.withTml_handoff : (s.withTml v).handoff = s.handoff := rfl
@[simp] theorem State.withTml_flt : (s.withTml v).flt = s.flt := rfl
@[simp] theorem State.withTml_tml : (s.withTml v).tml = v := rfl
@[simp] theorem State.withTml_tack : (s.withTml v).tack = s.tack := rfl
@[simp] theorem State.withTml_dp : (s.withTml v).dp = s.dp := rfl
@[simp] theorem State.withTml_mbx : (s.withTml v).mbx = s.mbx := rfl
@[simp] theorem State.withTml_pass : (s.withTml v).pass = s.pass := rfl
@[simp] theorem State.withTml_proxyHeld : (s.withTml v).proxyHeld = s.proxyHeld := rfl
@[simp] theorem State.withTml_msg : (s.withTml v).msg = s.msg := rfl
@[simp] theorem State.withTml_expert : (s.withTml v).expert = s.expert := rfl
@[simp] theorem State.withTml_sbTimedOut : (s.withTml v).sbTimedOut = s.sbTimedOut := rfl
@[simp] theorem State.withTml_tmlOld : (s.withTml v).tmlOld = s.tmlOld := rfl
@[simp] theorem State.withTml_epMem : (s.withTml v).epMem = s.epMem := rfl
end

/-! ### `withTack` -/

section
variable (s : State) (v : Vector TackS 2)
@[simp] theorem State.withTack_regs : (s.withTack v).regs = s.regs := rfl
@[simp] theorem State.withTack_cycle : (s.withTack v).cycle = s.cycle := rfl
@[simp] theorem State.withTack_hwSet : (s.withTack v).hwSet = s.hwSet := rfl
@[simp] theorem State.withTack_marks : (s.withTack v).marks = s.marks := rfl
@[simp] theorem State.withTack_pending : (s.withTack v).pending = s.pending := rfl
@[simp] theorem State.withTack_outs : (s.withTack v).outs = s.outs := rfl
@[simp] theorem State.withTack_plan : (s.withTack v).plan = s.plan := rfl
@[simp] theorem State.withTack_obs : (s.withTack v).obs = s.obs := rfl
@[simp] theorem State.withTack_yards : (s.withTack v).yards = s.yards := rfl
@[simp] theorem State.withTack_pat : (s.withTack v).pat = s.pat := rfl
@[simp] theorem State.withTack_pred : (s.withTack v).pred = s.pred := rfl
@[simp] theorem State.withTack_pdc : (s.withTack v).pdc = s.pdc := rfl
@[simp] theorem State.withTack_chan : (s.withTack v).chan = s.chan := rfl
@[simp] theorem State.withTack_tlm : (s.withTack v).tlm = s.tlm := rfl
@[simp] theorem State.withTack_bud : (s.withTack v).bud = s.bud := rfl
@[simp] theorem State.withTack_tcp : (s.withTack v).tcp = s.tcp := rfl
@[simp] theorem State.withTack_ss : (s.withTack v).ss = s.ss := rfl
@[simp] theorem State.withTack_otp : (s.withTack v).otp = s.otp := rfl
@[simp] theorem State.withTack_pln : (s.withTack v).pln = s.pln := rfl
@[simp] theorem State.withTack_boot : (s.withTack v).boot = s.boot := rfl
@[simp] theorem State.withTack_hs : (s.withTack v).hs = s.hs := rfl
@[simp] theorem State.withTack_tt : (s.withTack v).tt = s.tt := rfl
@[simp] theorem State.withTack_ttOp : (s.withTack v).ttOp = s.ttOp := rfl
@[simp] theorem State.withTack_glk : (s.withTack v).glk = s.glk := rfl
@[simp] theorem State.withTack_fab : (s.withTack v).fab = s.fab := rfl
@[simp] theorem State.withTack_port : (s.withTack v).port = s.port := rfl
@[simp] theorem State.withTack_mirror : (s.withTack v).mirror = s.mirror := rfl
@[simp] theorem State.withTack_hubWaits : (s.withTack v).hubWaits = s.hubWaits := rfl
@[simp] theorem State.withTack_holders : (s.withTack v).holders = s.holders := rfl
@[simp] theorem State.withTack_handoff : (s.withTack v).handoff = s.handoff := rfl
@[simp] theorem State.withTack_flt : (s.withTack v).flt = s.flt := rfl
@[simp] theorem State.withTack_tml : (s.withTack v).tml = s.tml := rfl
@[simp] theorem State.withTack_tack : (s.withTack v).tack = v := rfl
@[simp] theorem State.withTack_dp : (s.withTack v).dp = s.dp := rfl
@[simp] theorem State.withTack_mbx : (s.withTack v).mbx = s.mbx := rfl
@[simp] theorem State.withTack_pass : (s.withTack v).pass = s.pass := rfl
@[simp] theorem State.withTack_proxyHeld : (s.withTack v).proxyHeld = s.proxyHeld := rfl
@[simp] theorem State.withTack_msg : (s.withTack v).msg = s.msg := rfl
@[simp] theorem State.withTack_expert : (s.withTack v).expert = s.expert := rfl
@[simp] theorem State.withTack_sbTimedOut : (s.withTack v).sbTimedOut = s.sbTimedOut := rfl
@[simp] theorem State.withTack_tmlOld : (s.withTack v).tmlOld = s.tmlOld := rfl
@[simp] theorem State.withTack_epMem : (s.withTack v).epMem = s.epMem := rfl
end

/-! ### `withDp` -/

section
variable (s : State) (v : Vector DpS 2)
@[simp] theorem State.withDp_regs : (s.withDp v).regs = s.regs := rfl
@[simp] theorem State.withDp_cycle : (s.withDp v).cycle = s.cycle := rfl
@[simp] theorem State.withDp_hwSet : (s.withDp v).hwSet = s.hwSet := rfl
@[simp] theorem State.withDp_marks : (s.withDp v).marks = s.marks := rfl
@[simp] theorem State.withDp_pending : (s.withDp v).pending = s.pending := rfl
@[simp] theorem State.withDp_outs : (s.withDp v).outs = s.outs := rfl
@[simp] theorem State.withDp_plan : (s.withDp v).plan = s.plan := rfl
@[simp] theorem State.withDp_obs : (s.withDp v).obs = s.obs := rfl
@[simp] theorem State.withDp_yards : (s.withDp v).yards = s.yards := rfl
@[simp] theorem State.withDp_pat : (s.withDp v).pat = s.pat := rfl
@[simp] theorem State.withDp_pred : (s.withDp v).pred = s.pred := rfl
@[simp] theorem State.withDp_pdc : (s.withDp v).pdc = s.pdc := rfl
@[simp] theorem State.withDp_chan : (s.withDp v).chan = s.chan := rfl
@[simp] theorem State.withDp_tlm : (s.withDp v).tlm = s.tlm := rfl
@[simp] theorem State.withDp_bud : (s.withDp v).bud = s.bud := rfl
@[simp] theorem State.withDp_tcp : (s.withDp v).tcp = s.tcp := rfl
@[simp] theorem State.withDp_ss : (s.withDp v).ss = s.ss := rfl
@[simp] theorem State.withDp_otp : (s.withDp v).otp = s.otp := rfl
@[simp] theorem State.withDp_pln : (s.withDp v).pln = s.pln := rfl
@[simp] theorem State.withDp_boot : (s.withDp v).boot = s.boot := rfl
@[simp] theorem State.withDp_hs : (s.withDp v).hs = s.hs := rfl
@[simp] theorem State.withDp_tt : (s.withDp v).tt = s.tt := rfl
@[simp] theorem State.withDp_ttOp : (s.withDp v).ttOp = s.ttOp := rfl
@[simp] theorem State.withDp_glk : (s.withDp v).glk = s.glk := rfl
@[simp] theorem State.withDp_fab : (s.withDp v).fab = s.fab := rfl
@[simp] theorem State.withDp_port : (s.withDp v).port = s.port := rfl
@[simp] theorem State.withDp_mirror : (s.withDp v).mirror = s.mirror := rfl
@[simp] theorem State.withDp_hubWaits : (s.withDp v).hubWaits = s.hubWaits := rfl
@[simp] theorem State.withDp_holders : (s.withDp v).holders = s.holders := rfl
@[simp] theorem State.withDp_handoff : (s.withDp v).handoff = s.handoff := rfl
@[simp] theorem State.withDp_flt : (s.withDp v).flt = s.flt := rfl
@[simp] theorem State.withDp_tml : (s.withDp v).tml = s.tml := rfl
@[simp] theorem State.withDp_tack : (s.withDp v).tack = s.tack := rfl
@[simp] theorem State.withDp_dp : (s.withDp v).dp = v := rfl
@[simp] theorem State.withDp_mbx : (s.withDp v).mbx = s.mbx := rfl
@[simp] theorem State.withDp_pass : (s.withDp v).pass = s.pass := rfl
@[simp] theorem State.withDp_proxyHeld : (s.withDp v).proxyHeld = s.proxyHeld := rfl
@[simp] theorem State.withDp_msg : (s.withDp v).msg = s.msg := rfl
@[simp] theorem State.withDp_expert : (s.withDp v).expert = s.expert := rfl
@[simp] theorem State.withDp_sbTimedOut : (s.withDp v).sbTimedOut = s.sbTimedOut := rfl
@[simp] theorem State.withDp_tmlOld : (s.withDp v).tmlOld = s.tmlOld := rfl
@[simp] theorem State.withDp_epMem : (s.withDp v).epMem = s.epMem := rfl
end

/-! ### `withMbx` -/

section
variable (s : State) (v : Vector MbxS 12)
@[simp] theorem State.withMbx_regs : (s.withMbx v).regs = s.regs := rfl
@[simp] theorem State.withMbx_cycle : (s.withMbx v).cycle = s.cycle := rfl
@[simp] theorem State.withMbx_hwSet : (s.withMbx v).hwSet = s.hwSet := rfl
@[simp] theorem State.withMbx_marks : (s.withMbx v).marks = s.marks := rfl
@[simp] theorem State.withMbx_pending : (s.withMbx v).pending = s.pending := rfl
@[simp] theorem State.withMbx_outs : (s.withMbx v).outs = s.outs := rfl
@[simp] theorem State.withMbx_plan : (s.withMbx v).plan = s.plan := rfl
@[simp] theorem State.withMbx_obs : (s.withMbx v).obs = s.obs := rfl
@[simp] theorem State.withMbx_yards : (s.withMbx v).yards = s.yards := rfl
@[simp] theorem State.withMbx_pat : (s.withMbx v).pat = s.pat := rfl
@[simp] theorem State.withMbx_pred : (s.withMbx v).pred = s.pred := rfl
@[simp] theorem State.withMbx_pdc : (s.withMbx v).pdc = s.pdc := rfl
@[simp] theorem State.withMbx_chan : (s.withMbx v).chan = s.chan := rfl
@[simp] theorem State.withMbx_tlm : (s.withMbx v).tlm = s.tlm := rfl
@[simp] theorem State.withMbx_bud : (s.withMbx v).bud = s.bud := rfl
@[simp] theorem State.withMbx_tcp : (s.withMbx v).tcp = s.tcp := rfl
@[simp] theorem State.withMbx_ss : (s.withMbx v).ss = s.ss := rfl
@[simp] theorem State.withMbx_otp : (s.withMbx v).otp = s.otp := rfl
@[simp] theorem State.withMbx_pln : (s.withMbx v).pln = s.pln := rfl
@[simp] theorem State.withMbx_boot : (s.withMbx v).boot = s.boot := rfl
@[simp] theorem State.withMbx_hs : (s.withMbx v).hs = s.hs := rfl
@[simp] theorem State.withMbx_tt : (s.withMbx v).tt = s.tt := rfl
@[simp] theorem State.withMbx_ttOp : (s.withMbx v).ttOp = s.ttOp := rfl
@[simp] theorem State.withMbx_glk : (s.withMbx v).glk = s.glk := rfl
@[simp] theorem State.withMbx_fab : (s.withMbx v).fab = s.fab := rfl
@[simp] theorem State.withMbx_port : (s.withMbx v).port = s.port := rfl
@[simp] theorem State.withMbx_mirror : (s.withMbx v).mirror = s.mirror := rfl
@[simp] theorem State.withMbx_hubWaits : (s.withMbx v).hubWaits = s.hubWaits := rfl
@[simp] theorem State.withMbx_holders : (s.withMbx v).holders = s.holders := rfl
@[simp] theorem State.withMbx_handoff : (s.withMbx v).handoff = s.handoff := rfl
@[simp] theorem State.withMbx_flt : (s.withMbx v).flt = s.flt := rfl
@[simp] theorem State.withMbx_tml : (s.withMbx v).tml = s.tml := rfl
@[simp] theorem State.withMbx_tack : (s.withMbx v).tack = s.tack := rfl
@[simp] theorem State.withMbx_dp : (s.withMbx v).dp = s.dp := rfl
@[simp] theorem State.withMbx_mbx : (s.withMbx v).mbx = v := rfl
@[simp] theorem State.withMbx_pass : (s.withMbx v).pass = s.pass := rfl
@[simp] theorem State.withMbx_proxyHeld : (s.withMbx v).proxyHeld = s.proxyHeld := rfl
@[simp] theorem State.withMbx_msg : (s.withMbx v).msg = s.msg := rfl
@[simp] theorem State.withMbx_expert : (s.withMbx v).expert = s.expert := rfl
@[simp] theorem State.withMbx_sbTimedOut : (s.withMbx v).sbTimedOut = s.sbTimedOut := rfl
@[simp] theorem State.withMbx_tmlOld : (s.withMbx v).tmlOld = s.tmlOld := rfl
@[simp] theorem State.withMbx_epMem : (s.withMbx v).epMem = s.epMem := rfl
end

/-! ### `withPass` -/

section
variable (s : State) (v : Nat)
@[simp] theorem State.withPass_regs : (s.withPass v).regs = s.regs := rfl
@[simp] theorem State.withPass_cycle : (s.withPass v).cycle = s.cycle := rfl
@[simp] theorem State.withPass_hwSet : (s.withPass v).hwSet = s.hwSet := rfl
@[simp] theorem State.withPass_marks : (s.withPass v).marks = s.marks := rfl
@[simp] theorem State.withPass_pending : (s.withPass v).pending = s.pending := rfl
@[simp] theorem State.withPass_outs : (s.withPass v).outs = s.outs := rfl
@[simp] theorem State.withPass_plan : (s.withPass v).plan = s.plan := rfl
@[simp] theorem State.withPass_obs : (s.withPass v).obs = s.obs := rfl
@[simp] theorem State.withPass_yards : (s.withPass v).yards = s.yards := rfl
@[simp] theorem State.withPass_pat : (s.withPass v).pat = s.pat := rfl
@[simp] theorem State.withPass_pred : (s.withPass v).pred = s.pred := rfl
@[simp] theorem State.withPass_pdc : (s.withPass v).pdc = s.pdc := rfl
@[simp] theorem State.withPass_chan : (s.withPass v).chan = s.chan := rfl
@[simp] theorem State.withPass_tlm : (s.withPass v).tlm = s.tlm := rfl
@[simp] theorem State.withPass_bud : (s.withPass v).bud = s.bud := rfl
@[simp] theorem State.withPass_tcp : (s.withPass v).tcp = s.tcp := rfl
@[simp] theorem State.withPass_ss : (s.withPass v).ss = s.ss := rfl
@[simp] theorem State.withPass_otp : (s.withPass v).otp = s.otp := rfl
@[simp] theorem State.withPass_pln : (s.withPass v).pln = s.pln := rfl
@[simp] theorem State.withPass_boot : (s.withPass v).boot = s.boot := rfl
@[simp] theorem State.withPass_hs : (s.withPass v).hs = s.hs := rfl
@[simp] theorem State.withPass_tt : (s.withPass v).tt = s.tt := rfl
@[simp] theorem State.withPass_ttOp : (s.withPass v).ttOp = s.ttOp := rfl
@[simp] theorem State.withPass_glk : (s.withPass v).glk = s.glk := rfl
@[simp] theorem State.withPass_fab : (s.withPass v).fab = s.fab := rfl
@[simp] theorem State.withPass_port : (s.withPass v).port = s.port := rfl
@[simp] theorem State.withPass_mirror : (s.withPass v).mirror = s.mirror := rfl
@[simp] theorem State.withPass_hubWaits : (s.withPass v).hubWaits = s.hubWaits := rfl
@[simp] theorem State.withPass_holders : (s.withPass v).holders = s.holders := rfl
@[simp] theorem State.withPass_handoff : (s.withPass v).handoff = s.handoff := rfl
@[simp] theorem State.withPass_flt : (s.withPass v).flt = s.flt := rfl
@[simp] theorem State.withPass_tml : (s.withPass v).tml = s.tml := rfl
@[simp] theorem State.withPass_tack : (s.withPass v).tack = s.tack := rfl
@[simp] theorem State.withPass_dp : (s.withPass v).dp = s.dp := rfl
@[simp] theorem State.withPass_mbx : (s.withPass v).mbx = s.mbx := rfl
@[simp] theorem State.withPass_pass : (s.withPass v).pass = v := rfl
@[simp] theorem State.withPass_proxyHeld : (s.withPass v).proxyHeld = s.proxyHeld := rfl
@[simp] theorem State.withPass_msg : (s.withPass v).msg = s.msg := rfl
@[simp] theorem State.withPass_expert : (s.withPass v).expert = s.expert := rfl
@[simp] theorem State.withPass_sbTimedOut : (s.withPass v).sbTimedOut = s.sbTimedOut := rfl
@[simp] theorem State.withPass_tmlOld : (s.withPass v).tmlOld = s.tmlOld := rfl
@[simp] theorem State.withPass_epMem : (s.withPass v).epMem = s.epMem := rfl
end

/-! ### `withProxyHeld` -/

section
variable (s : State) (v : List Msg)
@[simp] theorem State.withProxyHeld_regs : (s.withProxyHeld v).regs = s.regs := rfl
@[simp] theorem State.withProxyHeld_cycle : (s.withProxyHeld v).cycle = s.cycle := rfl
@[simp] theorem State.withProxyHeld_hwSet : (s.withProxyHeld v).hwSet = s.hwSet := rfl
@[simp] theorem State.withProxyHeld_marks : (s.withProxyHeld v).marks = s.marks := rfl
@[simp] theorem State.withProxyHeld_pending : (s.withProxyHeld v).pending = s.pending := rfl
@[simp] theorem State.withProxyHeld_outs : (s.withProxyHeld v).outs = s.outs := rfl
@[simp] theorem State.withProxyHeld_plan : (s.withProxyHeld v).plan = s.plan := rfl
@[simp] theorem State.withProxyHeld_obs : (s.withProxyHeld v).obs = s.obs := rfl
@[simp] theorem State.withProxyHeld_yards : (s.withProxyHeld v).yards = s.yards := rfl
@[simp] theorem State.withProxyHeld_pat : (s.withProxyHeld v).pat = s.pat := rfl
@[simp] theorem State.withProxyHeld_pred : (s.withProxyHeld v).pred = s.pred := rfl
@[simp] theorem State.withProxyHeld_pdc : (s.withProxyHeld v).pdc = s.pdc := rfl
@[simp] theorem State.withProxyHeld_chan : (s.withProxyHeld v).chan = s.chan := rfl
@[simp] theorem State.withProxyHeld_tlm : (s.withProxyHeld v).tlm = s.tlm := rfl
@[simp] theorem State.withProxyHeld_bud : (s.withProxyHeld v).bud = s.bud := rfl
@[simp] theorem State.withProxyHeld_tcp : (s.withProxyHeld v).tcp = s.tcp := rfl
@[simp] theorem State.withProxyHeld_ss : (s.withProxyHeld v).ss = s.ss := rfl
@[simp] theorem State.withProxyHeld_otp : (s.withProxyHeld v).otp = s.otp := rfl
@[simp] theorem State.withProxyHeld_pln : (s.withProxyHeld v).pln = s.pln := rfl
@[simp] theorem State.withProxyHeld_boot : (s.withProxyHeld v).boot = s.boot := rfl
@[simp] theorem State.withProxyHeld_hs : (s.withProxyHeld v).hs = s.hs := rfl
@[simp] theorem State.withProxyHeld_tt : (s.withProxyHeld v).tt = s.tt := rfl
@[simp] theorem State.withProxyHeld_ttOp : (s.withProxyHeld v).ttOp = s.ttOp := rfl
@[simp] theorem State.withProxyHeld_glk : (s.withProxyHeld v).glk = s.glk := rfl
@[simp] theorem State.withProxyHeld_fab : (s.withProxyHeld v).fab = s.fab := rfl
@[simp] theorem State.withProxyHeld_port : (s.withProxyHeld v).port = s.port := rfl
@[simp] theorem State.withProxyHeld_mirror : (s.withProxyHeld v).mirror = s.mirror := rfl
@[simp] theorem State.withProxyHeld_hubWaits : (s.withProxyHeld v).hubWaits = s.hubWaits := rfl
@[simp] theorem State.withProxyHeld_holders : (s.withProxyHeld v).holders = s.holders := rfl
@[simp] theorem State.withProxyHeld_handoff : (s.withProxyHeld v).handoff = s.handoff := rfl
@[simp] theorem State.withProxyHeld_flt : (s.withProxyHeld v).flt = s.flt := rfl
@[simp] theorem State.withProxyHeld_tml : (s.withProxyHeld v).tml = s.tml := rfl
@[simp] theorem State.withProxyHeld_tack : (s.withProxyHeld v).tack = s.tack := rfl
@[simp] theorem State.withProxyHeld_dp : (s.withProxyHeld v).dp = s.dp := rfl
@[simp] theorem State.withProxyHeld_mbx : (s.withProxyHeld v).mbx = s.mbx := rfl
@[simp] theorem State.withProxyHeld_pass : (s.withProxyHeld v).pass = s.pass := rfl
@[simp] theorem State.withProxyHeld_proxyHeld : (s.withProxyHeld v).proxyHeld = v := rfl
@[simp] theorem State.withProxyHeld_msg : (s.withProxyHeld v).msg = s.msg := rfl
@[simp] theorem State.withProxyHeld_expert : (s.withProxyHeld v).expert = s.expert := rfl
@[simp] theorem State.withProxyHeld_sbTimedOut : (s.withProxyHeld v).sbTimedOut = s.sbTimedOut := rfl
@[simp] theorem State.withProxyHeld_tmlOld : (s.withProxyHeld v).tmlOld = s.tmlOld := rfl
@[simp] theorem State.withProxyHeld_epMem : (s.withProxyHeld v).epMem = s.epMem := rfl
end

/-! ### `withMsg` -/

section
variable (s : State) (v : MsgS)
@[simp] theorem State.withMsg_regs : (s.withMsg v).regs = s.regs := rfl
@[simp] theorem State.withMsg_cycle : (s.withMsg v).cycle = s.cycle := rfl
@[simp] theorem State.withMsg_hwSet : (s.withMsg v).hwSet = s.hwSet := rfl
@[simp] theorem State.withMsg_marks : (s.withMsg v).marks = s.marks := rfl
@[simp] theorem State.withMsg_pending : (s.withMsg v).pending = s.pending := rfl
@[simp] theorem State.withMsg_outs : (s.withMsg v).outs = s.outs := rfl
@[simp] theorem State.withMsg_plan : (s.withMsg v).plan = s.plan := rfl
@[simp] theorem State.withMsg_obs : (s.withMsg v).obs = s.obs := rfl
@[simp] theorem State.withMsg_yards : (s.withMsg v).yards = s.yards := rfl
@[simp] theorem State.withMsg_pat : (s.withMsg v).pat = s.pat := rfl
@[simp] theorem State.withMsg_pred : (s.withMsg v).pred = s.pred := rfl
@[simp] theorem State.withMsg_pdc : (s.withMsg v).pdc = s.pdc := rfl
@[simp] theorem State.withMsg_chan : (s.withMsg v).chan = s.chan := rfl
@[simp] theorem State.withMsg_tlm : (s.withMsg v).tlm = s.tlm := rfl
@[simp] theorem State.withMsg_bud : (s.withMsg v).bud = s.bud := rfl
@[simp] theorem State.withMsg_tcp : (s.withMsg v).tcp = s.tcp := rfl
@[simp] theorem State.withMsg_ss : (s.withMsg v).ss = s.ss := rfl
@[simp] theorem State.withMsg_otp : (s.withMsg v).otp = s.otp := rfl
@[simp] theorem State.withMsg_pln : (s.withMsg v).pln = s.pln := rfl
@[simp] theorem State.withMsg_boot : (s.withMsg v).boot = s.boot := rfl
@[simp] theorem State.withMsg_hs : (s.withMsg v).hs = s.hs := rfl
@[simp] theorem State.withMsg_tt : (s.withMsg v).tt = s.tt := rfl
@[simp] theorem State.withMsg_ttOp : (s.withMsg v).ttOp = s.ttOp := rfl
@[simp] theorem State.withMsg_glk : (s.withMsg v).glk = s.glk := rfl
@[simp] theorem State.withMsg_fab : (s.withMsg v).fab = s.fab := rfl
@[simp] theorem State.withMsg_port : (s.withMsg v).port = s.port := rfl
@[simp] theorem State.withMsg_mirror : (s.withMsg v).mirror = s.mirror := rfl
@[simp] theorem State.withMsg_hubWaits : (s.withMsg v).hubWaits = s.hubWaits := rfl
@[simp] theorem State.withMsg_holders : (s.withMsg v).holders = s.holders := rfl
@[simp] theorem State.withMsg_handoff : (s.withMsg v).handoff = s.handoff := rfl
@[simp] theorem State.withMsg_flt : (s.withMsg v).flt = s.flt := rfl
@[simp] theorem State.withMsg_tml : (s.withMsg v).tml = s.tml := rfl
@[simp] theorem State.withMsg_tack : (s.withMsg v).tack = s.tack := rfl
@[simp] theorem State.withMsg_dp : (s.withMsg v).dp = s.dp := rfl
@[simp] theorem State.withMsg_mbx : (s.withMsg v).mbx = s.mbx := rfl
@[simp] theorem State.withMsg_pass : (s.withMsg v).pass = s.pass := rfl
@[simp] theorem State.withMsg_proxyHeld : (s.withMsg v).proxyHeld = s.proxyHeld := rfl
@[simp] theorem State.withMsg_msg : (s.withMsg v).msg = v := rfl
@[simp] theorem State.withMsg_expert : (s.withMsg v).expert = s.expert := rfl
@[simp] theorem State.withMsg_sbTimedOut : (s.withMsg v).sbTimedOut = s.sbTimedOut := rfl
@[simp] theorem State.withMsg_tmlOld : (s.withMsg v).tmlOld = s.tmlOld := rfl
@[simp] theorem State.withMsg_epMem : (s.withMsg v).epMem = s.epMem := rfl
end

/-! ### `withExpert` -/

section
variable (s : State) (v : ExpertS)
@[simp] theorem State.withExpert_regs : (s.withExpert v).regs = s.regs := rfl
@[simp] theorem State.withExpert_cycle : (s.withExpert v).cycle = s.cycle := rfl
@[simp] theorem State.withExpert_hwSet : (s.withExpert v).hwSet = s.hwSet := rfl
@[simp] theorem State.withExpert_marks : (s.withExpert v).marks = s.marks := rfl
@[simp] theorem State.withExpert_pending : (s.withExpert v).pending = s.pending := rfl
@[simp] theorem State.withExpert_outs : (s.withExpert v).outs = s.outs := rfl
@[simp] theorem State.withExpert_plan : (s.withExpert v).plan = s.plan := rfl
@[simp] theorem State.withExpert_obs : (s.withExpert v).obs = s.obs := rfl
@[simp] theorem State.withExpert_yards : (s.withExpert v).yards = s.yards := rfl
@[simp] theorem State.withExpert_pat : (s.withExpert v).pat = s.pat := rfl
@[simp] theorem State.withExpert_pred : (s.withExpert v).pred = s.pred := rfl
@[simp] theorem State.withExpert_pdc : (s.withExpert v).pdc = s.pdc := rfl
@[simp] theorem State.withExpert_chan : (s.withExpert v).chan = s.chan := rfl
@[simp] theorem State.withExpert_tlm : (s.withExpert v).tlm = s.tlm := rfl
@[simp] theorem State.withExpert_bud : (s.withExpert v).bud = s.bud := rfl
@[simp] theorem State.withExpert_tcp : (s.withExpert v).tcp = s.tcp := rfl
@[simp] theorem State.withExpert_ss : (s.withExpert v).ss = s.ss := rfl
@[simp] theorem State.withExpert_otp : (s.withExpert v).otp = s.otp := rfl
@[simp] theorem State.withExpert_pln : (s.withExpert v).pln = s.pln := rfl
@[simp] theorem State.withExpert_boot : (s.withExpert v).boot = s.boot := rfl
@[simp] theorem State.withExpert_hs : (s.withExpert v).hs = s.hs := rfl
@[simp] theorem State.withExpert_tt : (s.withExpert v).tt = s.tt := rfl
@[simp] theorem State.withExpert_ttOp : (s.withExpert v).ttOp = s.ttOp := rfl
@[simp] theorem State.withExpert_glk : (s.withExpert v).glk = s.glk := rfl
@[simp] theorem State.withExpert_fab : (s.withExpert v).fab = s.fab := rfl
@[simp] theorem State.withExpert_port : (s.withExpert v).port = s.port := rfl
@[simp] theorem State.withExpert_mirror : (s.withExpert v).mirror = s.mirror := rfl
@[simp] theorem State.withExpert_hubWaits : (s.withExpert v).hubWaits = s.hubWaits := rfl
@[simp] theorem State.withExpert_holders : (s.withExpert v).holders = s.holders := rfl
@[simp] theorem State.withExpert_handoff : (s.withExpert v).handoff = s.handoff := rfl
@[simp] theorem State.withExpert_flt : (s.withExpert v).flt = s.flt := rfl
@[simp] theorem State.withExpert_tml : (s.withExpert v).tml = s.tml := rfl
@[simp] theorem State.withExpert_tack : (s.withExpert v).tack = s.tack := rfl
@[simp] theorem State.withExpert_dp : (s.withExpert v).dp = s.dp := rfl
@[simp] theorem State.withExpert_mbx : (s.withExpert v).mbx = s.mbx := rfl
@[simp] theorem State.withExpert_pass : (s.withExpert v).pass = s.pass := rfl
@[simp] theorem State.withExpert_proxyHeld : (s.withExpert v).proxyHeld = s.proxyHeld := rfl
@[simp] theorem State.withExpert_msg : (s.withExpert v).msg = s.msg := rfl
@[simp] theorem State.withExpert_expert : (s.withExpert v).expert = v := rfl
@[simp] theorem State.withExpert_sbTimedOut : (s.withExpert v).sbTimedOut = s.sbTimedOut := rfl
@[simp] theorem State.withExpert_tmlOld : (s.withExpert v).tmlOld = s.tmlOld := rfl
@[simp] theorem State.withExpert_epMem : (s.withExpert v).epMem = s.epMem := rfl
end

/-! ### `withSbTimedOut` -/

section
variable (s : State) (v : Bool)
@[simp] theorem State.withSbTimedOut_regs : (s.withSbTimedOut v).regs = s.regs := rfl
@[simp] theorem State.withSbTimedOut_cycle : (s.withSbTimedOut v).cycle = s.cycle := rfl
@[simp] theorem State.withSbTimedOut_hwSet : (s.withSbTimedOut v).hwSet = s.hwSet := rfl
@[simp] theorem State.withSbTimedOut_marks : (s.withSbTimedOut v).marks = s.marks := rfl
@[simp] theorem State.withSbTimedOut_pending : (s.withSbTimedOut v).pending = s.pending := rfl
@[simp] theorem State.withSbTimedOut_outs : (s.withSbTimedOut v).outs = s.outs := rfl
@[simp] theorem State.withSbTimedOut_plan : (s.withSbTimedOut v).plan = s.plan := rfl
@[simp] theorem State.withSbTimedOut_obs : (s.withSbTimedOut v).obs = s.obs := rfl
@[simp] theorem State.withSbTimedOut_yards : (s.withSbTimedOut v).yards = s.yards := rfl
@[simp] theorem State.withSbTimedOut_pat : (s.withSbTimedOut v).pat = s.pat := rfl
@[simp] theorem State.withSbTimedOut_pred : (s.withSbTimedOut v).pred = s.pred := rfl
@[simp] theorem State.withSbTimedOut_pdc : (s.withSbTimedOut v).pdc = s.pdc := rfl
@[simp] theorem State.withSbTimedOut_chan : (s.withSbTimedOut v).chan = s.chan := rfl
@[simp] theorem State.withSbTimedOut_tlm : (s.withSbTimedOut v).tlm = s.tlm := rfl
@[simp] theorem State.withSbTimedOut_bud : (s.withSbTimedOut v).bud = s.bud := rfl
@[simp] theorem State.withSbTimedOut_tcp : (s.withSbTimedOut v).tcp = s.tcp := rfl
@[simp] theorem State.withSbTimedOut_ss : (s.withSbTimedOut v).ss = s.ss := rfl
@[simp] theorem State.withSbTimedOut_otp : (s.withSbTimedOut v).otp = s.otp := rfl
@[simp] theorem State.withSbTimedOut_pln : (s.withSbTimedOut v).pln = s.pln := rfl
@[simp] theorem State.withSbTimedOut_boot : (s.withSbTimedOut v).boot = s.boot := rfl
@[simp] theorem State.withSbTimedOut_hs : (s.withSbTimedOut v).hs = s.hs := rfl
@[simp] theorem State.withSbTimedOut_tt : (s.withSbTimedOut v).tt = s.tt := rfl
@[simp] theorem State.withSbTimedOut_ttOp : (s.withSbTimedOut v).ttOp = s.ttOp := rfl
@[simp] theorem State.withSbTimedOut_glk : (s.withSbTimedOut v).glk = s.glk := rfl
@[simp] theorem State.withSbTimedOut_fab : (s.withSbTimedOut v).fab = s.fab := rfl
@[simp] theorem State.withSbTimedOut_port : (s.withSbTimedOut v).port = s.port := rfl
@[simp] theorem State.withSbTimedOut_mirror : (s.withSbTimedOut v).mirror = s.mirror := rfl
@[simp] theorem State.withSbTimedOut_hubWaits : (s.withSbTimedOut v).hubWaits = s.hubWaits := rfl
@[simp] theorem State.withSbTimedOut_holders : (s.withSbTimedOut v).holders = s.holders := rfl
@[simp] theorem State.withSbTimedOut_handoff : (s.withSbTimedOut v).handoff = s.handoff := rfl
@[simp] theorem State.withSbTimedOut_flt : (s.withSbTimedOut v).flt = s.flt := rfl
@[simp] theorem State.withSbTimedOut_tml : (s.withSbTimedOut v).tml = s.tml := rfl
@[simp] theorem State.withSbTimedOut_tack : (s.withSbTimedOut v).tack = s.tack := rfl
@[simp] theorem State.withSbTimedOut_dp : (s.withSbTimedOut v).dp = s.dp := rfl
@[simp] theorem State.withSbTimedOut_mbx : (s.withSbTimedOut v).mbx = s.mbx := rfl
@[simp] theorem State.withSbTimedOut_pass : (s.withSbTimedOut v).pass = s.pass := rfl
@[simp] theorem State.withSbTimedOut_proxyHeld : (s.withSbTimedOut v).proxyHeld = s.proxyHeld := rfl
@[simp] theorem State.withSbTimedOut_msg : (s.withSbTimedOut v).msg = s.msg := rfl
@[simp] theorem State.withSbTimedOut_expert : (s.withSbTimedOut v).expert = s.expert := rfl
@[simp] theorem State.withSbTimedOut_sbTimedOut : (s.withSbTimedOut v).sbTimedOut = v := rfl
@[simp] theorem State.withSbTimedOut_tmlOld : (s.withSbTimedOut v).tmlOld = s.tmlOld := rfl
@[simp] theorem State.withSbTimedOut_epMem : (s.withSbTimedOut v).epMem = s.epMem := rfl
end

/-! ### `withTmlOld` -/

section
variable (s : State) (v : List (Nat × TmlE))
@[simp] theorem State.withTmlOld_regs : (s.withTmlOld v).regs = s.regs := rfl
@[simp] theorem State.withTmlOld_cycle : (s.withTmlOld v).cycle = s.cycle := rfl
@[simp] theorem State.withTmlOld_hwSet : (s.withTmlOld v).hwSet = s.hwSet := rfl
@[simp] theorem State.withTmlOld_marks : (s.withTmlOld v).marks = s.marks := rfl
@[simp] theorem State.withTmlOld_pending : (s.withTmlOld v).pending = s.pending := rfl
@[simp] theorem State.withTmlOld_outs : (s.withTmlOld v).outs = s.outs := rfl
@[simp] theorem State.withTmlOld_plan : (s.withTmlOld v).plan = s.plan := rfl
@[simp] theorem State.withTmlOld_obs : (s.withTmlOld v).obs = s.obs := rfl
@[simp] theorem State.withTmlOld_yards : (s.withTmlOld v).yards = s.yards := rfl
@[simp] theorem State.withTmlOld_pat : (s.withTmlOld v).pat = s.pat := rfl
@[simp] theorem State.withTmlOld_pred : (s.withTmlOld v).pred = s.pred := rfl
@[simp] theorem State.withTmlOld_pdc : (s.withTmlOld v).pdc = s.pdc := rfl
@[simp] theorem State.withTmlOld_chan : (s.withTmlOld v).chan = s.chan := rfl
@[simp] theorem State.withTmlOld_tlm : (s.withTmlOld v).tlm = s.tlm := rfl
@[simp] theorem State.withTmlOld_bud : (s.withTmlOld v).bud = s.bud := rfl
@[simp] theorem State.withTmlOld_tcp : (s.withTmlOld v).tcp = s.tcp := rfl
@[simp] theorem State.withTmlOld_ss : (s.withTmlOld v).ss = s.ss := rfl
@[simp] theorem State.withTmlOld_otp : (s.withTmlOld v).otp = s.otp := rfl
@[simp] theorem State.withTmlOld_pln : (s.withTmlOld v).pln = s.pln := rfl
@[simp] theorem State.withTmlOld_boot : (s.withTmlOld v).boot = s.boot := rfl
@[simp] theorem State.withTmlOld_hs : (s.withTmlOld v).hs = s.hs := rfl
@[simp] theorem State.withTmlOld_tt : (s.withTmlOld v).tt = s.tt := rfl
@[simp] theorem State.withTmlOld_ttOp : (s.withTmlOld v).ttOp = s.ttOp := rfl
@[simp] theorem State.withTmlOld_glk : (s.withTmlOld v).glk = s.glk := rfl
@[simp] theorem State.withTmlOld_fab : (s.withTmlOld v).fab = s.fab := rfl
@[simp] theorem State.withTmlOld_port : (s.withTmlOld v).port = s.port := rfl
@[simp] theorem State.withTmlOld_mirror : (s.withTmlOld v).mirror = s.mirror := rfl
@[simp] theorem State.withTmlOld_hubWaits : (s.withTmlOld v).hubWaits = s.hubWaits := rfl
@[simp] theorem State.withTmlOld_holders : (s.withTmlOld v).holders = s.holders := rfl
@[simp] theorem State.withTmlOld_handoff : (s.withTmlOld v).handoff = s.handoff := rfl
@[simp] theorem State.withTmlOld_flt : (s.withTmlOld v).flt = s.flt := rfl
@[simp] theorem State.withTmlOld_tml : (s.withTmlOld v).tml = s.tml := rfl
@[simp] theorem State.withTmlOld_tack : (s.withTmlOld v).tack = s.tack := rfl
@[simp] theorem State.withTmlOld_dp : (s.withTmlOld v).dp = s.dp := rfl
@[simp] theorem State.withTmlOld_mbx : (s.withTmlOld v).mbx = s.mbx := rfl
@[simp] theorem State.withTmlOld_pass : (s.withTmlOld v).pass = s.pass := rfl
@[simp] theorem State.withTmlOld_proxyHeld : (s.withTmlOld v).proxyHeld = s.proxyHeld := rfl
@[simp] theorem State.withTmlOld_msg : (s.withTmlOld v).msg = s.msg := rfl
@[simp] theorem State.withTmlOld_expert : (s.withTmlOld v).expert = s.expert := rfl
@[simp] theorem State.withTmlOld_sbTimedOut : (s.withTmlOld v).sbTimedOut = s.sbTimedOut := rfl
@[simp] theorem State.withTmlOld_tmlOld : (s.withTmlOld v).tmlOld = v := rfl
@[simp] theorem State.withTmlOld_epMem : (s.withTmlOld v).epMem = s.epMem := rfl
end

/-! ### `withEpMem` -/

section
variable (s : State) (v : List Host.Cell)
@[simp] theorem State.withEpMem_regs : (s.withEpMem v).regs = s.regs := rfl
@[simp] theorem State.withEpMem_cycle : (s.withEpMem v).cycle = s.cycle := rfl
@[simp] theorem State.withEpMem_hwSet : (s.withEpMem v).hwSet = s.hwSet := rfl
@[simp] theorem State.withEpMem_marks : (s.withEpMem v).marks = s.marks := rfl
@[simp] theorem State.withEpMem_pending : (s.withEpMem v).pending = s.pending := rfl
@[simp] theorem State.withEpMem_outs : (s.withEpMem v).outs = s.outs := rfl
@[simp] theorem State.withEpMem_plan : (s.withEpMem v).plan = s.plan := rfl
@[simp] theorem State.withEpMem_obs : (s.withEpMem v).obs = s.obs := rfl
@[simp] theorem State.withEpMem_yards : (s.withEpMem v).yards = s.yards := rfl
@[simp] theorem State.withEpMem_pat : (s.withEpMem v).pat = s.pat := rfl
@[simp] theorem State.withEpMem_pred : (s.withEpMem v).pred = s.pred := rfl
@[simp] theorem State.withEpMem_pdc : (s.withEpMem v).pdc = s.pdc := rfl
@[simp] theorem State.withEpMem_chan : (s.withEpMem v).chan = s.chan := rfl
@[simp] theorem State.withEpMem_tlm : (s.withEpMem v).tlm = s.tlm := rfl
@[simp] theorem State.withEpMem_bud : (s.withEpMem v).bud = s.bud := rfl
@[simp] theorem State.withEpMem_tcp : (s.withEpMem v).tcp = s.tcp := rfl
@[simp] theorem State.withEpMem_ss : (s.withEpMem v).ss = s.ss := rfl
@[simp] theorem State.withEpMem_otp : (s.withEpMem v).otp = s.otp := rfl
@[simp] theorem State.withEpMem_pln : (s.withEpMem v).pln = s.pln := rfl
@[simp] theorem State.withEpMem_boot : (s.withEpMem v).boot = s.boot := rfl
@[simp] theorem State.withEpMem_hs : (s.withEpMem v).hs = s.hs := rfl
@[simp] theorem State.withEpMem_tt : (s.withEpMem v).tt = s.tt := rfl
@[simp] theorem State.withEpMem_ttOp : (s.withEpMem v).ttOp = s.ttOp := rfl
@[simp] theorem State.withEpMem_glk : (s.withEpMem v).glk = s.glk := rfl
@[simp] theorem State.withEpMem_fab : (s.withEpMem v).fab = s.fab := rfl
@[simp] theorem State.withEpMem_port : (s.withEpMem v).port = s.port := rfl
@[simp] theorem State.withEpMem_mirror : (s.withEpMem v).mirror = s.mirror := rfl
@[simp] theorem State.withEpMem_hubWaits : (s.withEpMem v).hubWaits = s.hubWaits := rfl
@[simp] theorem State.withEpMem_holders : (s.withEpMem v).holders = s.holders := rfl
@[simp] theorem State.withEpMem_handoff : (s.withEpMem v).handoff = s.handoff := rfl
@[simp] theorem State.withEpMem_flt : (s.withEpMem v).flt = s.flt := rfl
@[simp] theorem State.withEpMem_tml : (s.withEpMem v).tml = s.tml := rfl
@[simp] theorem State.withEpMem_tack : (s.withEpMem v).tack = s.tack := rfl
@[simp] theorem State.withEpMem_dp : (s.withEpMem v).dp = s.dp := rfl
@[simp] theorem State.withEpMem_mbx : (s.withEpMem v).mbx = s.mbx := rfl
@[simp] theorem State.withEpMem_pass : (s.withEpMem v).pass = s.pass := rfl
@[simp] theorem State.withEpMem_proxyHeld : (s.withEpMem v).proxyHeld = s.proxyHeld := rfl
@[simp] theorem State.withEpMem_msg : (s.withEpMem v).msg = s.msg := rfl
@[simp] theorem State.withEpMem_expert : (s.withEpMem v).expert = s.expert := rfl
@[simp] theorem State.withEpMem_sbTimedOut : (s.withEpMem v).sbTimedOut = s.sbTimedOut := rfl
@[simp] theorem State.withEpMem_tmlOld : (s.withEpMem v).tmlOld = s.tmlOld := rfl
@[simp] theorem State.withEpMem_epMem : (s.withEpMem v).epMem = v := rfl
end

/-! ### `setWord` -/

section
variable (s : State) (a : Nat) (w : Word)
@[simp] theorem State.setWord_regs : (s.setWord a w).regs = setCell a w (resetWord a) s.regs := rfl
@[simp] theorem State.setWord_cycle : (s.setWord a w).cycle = s.cycle := rfl
@[simp] theorem State.setWord_hwSet : (s.setWord a w).hwSet = s.hwSet := rfl
@[simp] theorem State.setWord_marks : (s.setWord a w).marks = s.marks := rfl
@[simp] theorem State.setWord_pending : (s.setWord a w).pending = s.pending := rfl
@[simp] theorem State.setWord_outs : (s.setWord a w).outs = s.outs := rfl
@[simp] theorem State.setWord_plan : (s.setWord a w).plan = s.plan := rfl
@[simp] theorem State.setWord_obs : (s.setWord a w).obs = s.obs := rfl
@[simp] theorem State.setWord_yards : (s.setWord a w).yards = s.yards := rfl
@[simp] theorem State.setWord_pat : (s.setWord a w).pat = s.pat := rfl
@[simp] theorem State.setWord_pred : (s.setWord a w).pred = s.pred := rfl
@[simp] theorem State.setWord_pdc : (s.setWord a w).pdc = s.pdc := rfl
@[simp] theorem State.setWord_chan : (s.setWord a w).chan = s.chan := rfl
@[simp] theorem State.setWord_tlm : (s.setWord a w).tlm = s.tlm := rfl
@[simp] theorem State.setWord_bud : (s.setWord a w).bud = s.bud := rfl
@[simp] theorem State.setWord_tcp : (s.setWord a w).tcp = s.tcp := rfl
@[simp] theorem State.setWord_ss : (s.setWord a w).ss = s.ss := rfl
@[simp] theorem State.setWord_otp : (s.setWord a w).otp = s.otp := rfl
@[simp] theorem State.setWord_pln : (s.setWord a w).pln = s.pln := rfl
@[simp] theorem State.setWord_boot : (s.setWord a w).boot = s.boot := rfl
@[simp] theorem State.setWord_hs : (s.setWord a w).hs = s.hs := rfl
@[simp] theorem State.setWord_tt : (s.setWord a w).tt = s.tt := rfl
@[simp] theorem State.setWord_ttOp : (s.setWord a w).ttOp = s.ttOp := rfl
@[simp] theorem State.setWord_glk : (s.setWord a w).glk = s.glk := rfl
@[simp] theorem State.setWord_fab : (s.setWord a w).fab = s.fab := rfl
@[simp] theorem State.setWord_port : (s.setWord a w).port = s.port := rfl
@[simp] theorem State.setWord_mirror : (s.setWord a w).mirror = s.mirror := rfl
@[simp] theorem State.setWord_hubWaits : (s.setWord a w).hubWaits = s.hubWaits := rfl
@[simp] theorem State.setWord_holders : (s.setWord a w).holders = s.holders := rfl
@[simp] theorem State.setWord_handoff : (s.setWord a w).handoff = s.handoff := rfl
@[simp] theorem State.setWord_flt : (s.setWord a w).flt = s.flt := rfl
@[simp] theorem State.setWord_tml : (s.setWord a w).tml = s.tml := rfl
@[simp] theorem State.setWord_tack : (s.setWord a w).tack = s.tack := rfl
@[simp] theorem State.setWord_dp : (s.setWord a w).dp = s.dp := rfl
@[simp] theorem State.setWord_mbx : (s.setWord a w).mbx = s.mbx := rfl
@[simp] theorem State.setWord_pass : (s.setWord a w).pass = s.pass := rfl
@[simp] theorem State.setWord_proxyHeld : (s.setWord a w).proxyHeld = s.proxyHeld := rfl
@[simp] theorem State.setWord_msg : (s.setWord a w).msg = s.msg := rfl
@[simp] theorem State.setWord_expert : (s.setWord a w).expert = s.expert := rfl
@[simp] theorem State.setWord_sbTimedOut : (s.setWord a w).sbTimedOut = s.sbTimedOut := rfl
@[simp] theorem State.setWord_tmlOld : (s.setWord a w).tmlOld = s.tmlOld := rfl
@[simp] theorem State.setWord_epMem : (s.setWord a w).epMem = s.epMem := rfl
end

/-! ### `keepRegs` -/

section
variable (s : State) (f : Nat × Word → Bool)
@[simp] theorem State.keepRegs_regs : (s.keepRegs f).regs = s.regs.filter f := rfl
@[simp] theorem State.keepRegs_cycle : (s.keepRegs f).cycle = s.cycle := rfl
@[simp] theorem State.keepRegs_hwSet : (s.keepRegs f).hwSet = s.hwSet := rfl
@[simp] theorem State.keepRegs_marks : (s.keepRegs f).marks = s.marks := rfl
@[simp] theorem State.keepRegs_pending : (s.keepRegs f).pending = s.pending := rfl
@[simp] theorem State.keepRegs_outs : (s.keepRegs f).outs = s.outs := rfl
@[simp] theorem State.keepRegs_plan : (s.keepRegs f).plan = s.plan := rfl
@[simp] theorem State.keepRegs_obs : (s.keepRegs f).obs = s.obs := rfl
@[simp] theorem State.keepRegs_yards : (s.keepRegs f).yards = s.yards := rfl
@[simp] theorem State.keepRegs_pat : (s.keepRegs f).pat = s.pat := rfl
@[simp] theorem State.keepRegs_pred : (s.keepRegs f).pred = s.pred := rfl
@[simp] theorem State.keepRegs_pdc : (s.keepRegs f).pdc = s.pdc := rfl
@[simp] theorem State.keepRegs_chan : (s.keepRegs f).chan = s.chan := rfl
@[simp] theorem State.keepRegs_tlm : (s.keepRegs f).tlm = s.tlm := rfl
@[simp] theorem State.keepRegs_bud : (s.keepRegs f).bud = s.bud := rfl
@[simp] theorem State.keepRegs_tcp : (s.keepRegs f).tcp = s.tcp := rfl
@[simp] theorem State.keepRegs_ss : (s.keepRegs f).ss = s.ss := rfl
@[simp] theorem State.keepRegs_otp : (s.keepRegs f).otp = s.otp := rfl
@[simp] theorem State.keepRegs_pln : (s.keepRegs f).pln = s.pln := rfl
@[simp] theorem State.keepRegs_boot : (s.keepRegs f).boot = s.boot := rfl
@[simp] theorem State.keepRegs_hs : (s.keepRegs f).hs = s.hs := rfl
@[simp] theorem State.keepRegs_tt : (s.keepRegs f).tt = s.tt := rfl
@[simp] theorem State.keepRegs_ttOp : (s.keepRegs f).ttOp = s.ttOp := rfl
@[simp] theorem State.keepRegs_glk : (s.keepRegs f).glk = s.glk := rfl
@[simp] theorem State.keepRegs_fab : (s.keepRegs f).fab = s.fab := rfl
@[simp] theorem State.keepRegs_port : (s.keepRegs f).port = s.port := rfl
@[simp] theorem State.keepRegs_mirror : (s.keepRegs f).mirror = s.mirror := rfl
@[simp] theorem State.keepRegs_hubWaits : (s.keepRegs f).hubWaits = s.hubWaits := rfl
@[simp] theorem State.keepRegs_holders : (s.keepRegs f).holders = s.holders := rfl
@[simp] theorem State.keepRegs_handoff : (s.keepRegs f).handoff = s.handoff := rfl
@[simp] theorem State.keepRegs_flt : (s.keepRegs f).flt = s.flt := rfl
@[simp] theorem State.keepRegs_tml : (s.keepRegs f).tml = s.tml := rfl
@[simp] theorem State.keepRegs_tack : (s.keepRegs f).tack = s.tack := rfl
@[simp] theorem State.keepRegs_dp : (s.keepRegs f).dp = s.dp := rfl
@[simp] theorem State.keepRegs_mbx : (s.keepRegs f).mbx = s.mbx := rfl
@[simp] theorem State.keepRegs_pass : (s.keepRegs f).pass = s.pass := rfl
@[simp] theorem State.keepRegs_proxyHeld : (s.keepRegs f).proxyHeld = s.proxyHeld := rfl
@[simp] theorem State.keepRegs_msg : (s.keepRegs f).msg = s.msg := rfl
@[simp] theorem State.keepRegs_expert : (s.keepRegs f).expert = s.expert := rfl
@[simp] theorem State.keepRegs_sbTimedOut : (s.keepRegs f).sbTimedOut = s.sbTimedOut := rfl
@[simp] theorem State.keepRegs_tmlOld : (s.keepRegs f).tmlOld = s.tmlOld := rfl
@[simp] theorem State.keepRegs_epMem : (s.keepRegs f).epMem = s.epMem := rfl
end

/-! ### `markHw` -/

section
variable (s : State) (a : Nat) (w : Word)
@[simp] theorem State.markHw_regs : (s.markHw a w).regs = s.regs := rfl
@[simp] theorem State.markHw_cycle : (s.markHw a w).cycle = s.cycle := rfl
@[simp] theorem State.markHw_hwSet : (s.markHw a w).hwSet = (a, w) :: s.hwSet := rfl
@[simp] theorem State.markHw_marks : (s.markHw a w).marks = s.marks := rfl
@[simp] theorem State.markHw_pending : (s.markHw a w).pending = s.pending := rfl
@[simp] theorem State.markHw_outs : (s.markHw a w).outs = s.outs := rfl
@[simp] theorem State.markHw_plan : (s.markHw a w).plan = s.plan := rfl
@[simp] theorem State.markHw_obs : (s.markHw a w).obs = s.obs := rfl
@[simp] theorem State.markHw_yards : (s.markHw a w).yards = s.yards := rfl
@[simp] theorem State.markHw_pat : (s.markHw a w).pat = s.pat := rfl
@[simp] theorem State.markHw_pred : (s.markHw a w).pred = s.pred := rfl
@[simp] theorem State.markHw_pdc : (s.markHw a w).pdc = s.pdc := rfl
@[simp] theorem State.markHw_chan : (s.markHw a w).chan = s.chan := rfl
@[simp] theorem State.markHw_tlm : (s.markHw a w).tlm = s.tlm := rfl
@[simp] theorem State.markHw_bud : (s.markHw a w).bud = s.bud := rfl
@[simp] theorem State.markHw_tcp : (s.markHw a w).tcp = s.tcp := rfl
@[simp] theorem State.markHw_ss : (s.markHw a w).ss = s.ss := rfl
@[simp] theorem State.markHw_otp : (s.markHw a w).otp = s.otp := rfl
@[simp] theorem State.markHw_pln : (s.markHw a w).pln = s.pln := rfl
@[simp] theorem State.markHw_boot : (s.markHw a w).boot = s.boot := rfl
@[simp] theorem State.markHw_hs : (s.markHw a w).hs = s.hs := rfl
@[simp] theorem State.markHw_tt : (s.markHw a w).tt = s.tt := rfl
@[simp] theorem State.markHw_ttOp : (s.markHw a w).ttOp = s.ttOp := rfl
@[simp] theorem State.markHw_glk : (s.markHw a w).glk = s.glk := rfl
@[simp] theorem State.markHw_fab : (s.markHw a w).fab = s.fab := rfl
@[simp] theorem State.markHw_port : (s.markHw a w).port = s.port := rfl
@[simp] theorem State.markHw_mirror : (s.markHw a w).mirror = s.mirror := rfl
@[simp] theorem State.markHw_hubWaits : (s.markHw a w).hubWaits = s.hubWaits := rfl
@[simp] theorem State.markHw_holders : (s.markHw a w).holders = s.holders := rfl
@[simp] theorem State.markHw_handoff : (s.markHw a w).handoff = s.handoff := rfl
@[simp] theorem State.markHw_flt : (s.markHw a w).flt = s.flt := rfl
@[simp] theorem State.markHw_tml : (s.markHw a w).tml = s.tml := rfl
@[simp] theorem State.markHw_tack : (s.markHw a w).tack = s.tack := rfl
@[simp] theorem State.markHw_dp : (s.markHw a w).dp = s.dp := rfl
@[simp] theorem State.markHw_mbx : (s.markHw a w).mbx = s.mbx := rfl
@[simp] theorem State.markHw_pass : (s.markHw a w).pass = s.pass := rfl
@[simp] theorem State.markHw_proxyHeld : (s.markHw a w).proxyHeld = s.proxyHeld := rfl
@[simp] theorem State.markHw_msg : (s.markHw a w).msg = s.msg := rfl
@[simp] theorem State.markHw_expert : (s.markHw a w).expert = s.expert := rfl
@[simp] theorem State.markHw_sbTimedOut : (s.markHw a w).sbTimedOut = s.sbTimedOut := rfl
@[simp] theorem State.markHw_tmlOld : (s.markHw a w).tmlOld = s.tmlOld := rfl
@[simp] theorem State.markHw_epMem : (s.markHw a w).epMem = s.epMem := rfl
end

/-! ### `mark` -/

section
variable (s : State) (k : Mark)
@[simp] theorem State.mark_regs : (s.mark k).regs = s.regs := rfl
@[simp] theorem State.mark_cycle : (s.mark k).cycle = s.cycle := rfl
@[simp] theorem State.mark_hwSet : (s.mark k).hwSet = s.hwSet := rfl
@[simp] theorem State.mark_marks : (s.mark k).marks = k :: s.marks := rfl
@[simp] theorem State.mark_pending : (s.mark k).pending = s.pending := rfl
@[simp] theorem State.mark_outs : (s.mark k).outs = s.outs := rfl
@[simp] theorem State.mark_plan : (s.mark k).plan = s.plan := rfl
@[simp] theorem State.mark_obs : (s.mark k).obs = s.obs := rfl
@[simp] theorem State.mark_yards : (s.mark k).yards = s.yards := rfl
@[simp] theorem State.mark_pat : (s.mark k).pat = s.pat := rfl
@[simp] theorem State.mark_pred : (s.mark k).pred = s.pred := rfl
@[simp] theorem State.mark_pdc : (s.mark k).pdc = s.pdc := rfl
@[simp] theorem State.mark_chan : (s.mark k).chan = s.chan := rfl
@[simp] theorem State.mark_tlm : (s.mark k).tlm = s.tlm := rfl
@[simp] theorem State.mark_bud : (s.mark k).bud = s.bud := rfl
@[simp] theorem State.mark_tcp : (s.mark k).tcp = s.tcp := rfl
@[simp] theorem State.mark_ss : (s.mark k).ss = s.ss := rfl
@[simp] theorem State.mark_otp : (s.mark k).otp = s.otp := rfl
@[simp] theorem State.mark_pln : (s.mark k).pln = s.pln := rfl
@[simp] theorem State.mark_boot : (s.mark k).boot = s.boot := rfl
@[simp] theorem State.mark_hs : (s.mark k).hs = s.hs := rfl
@[simp] theorem State.mark_tt : (s.mark k).tt = s.tt := rfl
@[simp] theorem State.mark_ttOp : (s.mark k).ttOp = s.ttOp := rfl
@[simp] theorem State.mark_glk : (s.mark k).glk = s.glk := rfl
@[simp] theorem State.mark_fab : (s.mark k).fab = s.fab := rfl
@[simp] theorem State.mark_port : (s.mark k).port = s.port := rfl
@[simp] theorem State.mark_mirror : (s.mark k).mirror = s.mirror := rfl
@[simp] theorem State.mark_hubWaits : (s.mark k).hubWaits = s.hubWaits := rfl
@[simp] theorem State.mark_holders : (s.mark k).holders = s.holders := rfl
@[simp] theorem State.mark_handoff : (s.mark k).handoff = s.handoff := rfl
@[simp] theorem State.mark_flt : (s.mark k).flt = s.flt := rfl
@[simp] theorem State.mark_tml : (s.mark k).tml = s.tml := rfl
@[simp] theorem State.mark_tack : (s.mark k).tack = s.tack := rfl
@[simp] theorem State.mark_dp : (s.mark k).dp = s.dp := rfl
@[simp] theorem State.mark_mbx : (s.mark k).mbx = s.mbx := rfl
@[simp] theorem State.mark_pass : (s.mark k).pass = s.pass := rfl
@[simp] theorem State.mark_proxyHeld : (s.mark k).proxyHeld = s.proxyHeld := rfl
@[simp] theorem State.mark_msg : (s.mark k).msg = s.msg := rfl
@[simp] theorem State.mark_expert : (s.mark k).expert = s.expert := rfl
@[simp] theorem State.mark_sbTimedOut : (s.mark k).sbTimedOut = s.sbTimedOut := rfl
@[simp] theorem State.mark_tmlOld : (s.mark k).tmlOld = s.tmlOld := rfl
@[simp] theorem State.mark_epMem : (s.mark k).epMem = s.epMem := rfl
end

/-! ### `p`: a field is set -/

section
variable (s : State) (f : Fld) (v : Nat)
@[simp] theorem State.p_cycle : (s.p f v).cycle = s.cycle := rfl
@[simp] theorem State.p_hwSet : (s.p f v).hwSet = s.hwSet := rfl
@[simp] theorem State.p_marks : (s.p f v).marks = s.marks := rfl
@[simp] theorem State.p_pending : (s.p f v).pending = s.pending := rfl
@[simp] theorem State.p_outs : (s.p f v).outs = s.outs := rfl
@[simp] theorem State.p_plan : (s.p f v).plan = s.plan := rfl
@[simp] theorem State.p_obs : (s.p f v).obs = s.obs := rfl
@[simp] theorem State.p_yards : (s.p f v).yards = s.yards := rfl
@[simp] theorem State.p_pat : (s.p f v).pat = s.pat := rfl
@[simp] theorem State.p_pred : (s.p f v).pred = s.pred := rfl
@[simp] theorem State.p_pdc : (s.p f v).pdc = s.pdc := rfl
@[simp] theorem State.p_chan : (s.p f v).chan = s.chan := rfl
@[simp] theorem State.p_tlm : (s.p f v).tlm = s.tlm := rfl
@[simp] theorem State.p_bud : (s.p f v).bud = s.bud := rfl
@[simp] theorem State.p_tcp : (s.p f v).tcp = s.tcp := rfl
@[simp] theorem State.p_ss : (s.p f v).ss = s.ss := rfl
@[simp] theorem State.p_otp : (s.p f v).otp = s.otp := rfl
@[simp] theorem State.p_pln : (s.p f v).pln = s.pln := rfl
@[simp] theorem State.p_boot : (s.p f v).boot = s.boot := rfl
@[simp] theorem State.p_hs : (s.p f v).hs = s.hs := rfl
@[simp] theorem State.p_tt : (s.p f v).tt = s.tt := rfl
@[simp] theorem State.p_ttOp : (s.p f v).ttOp = s.ttOp := rfl
@[simp] theorem State.p_glk : (s.p f v).glk = s.glk := rfl
@[simp] theorem State.p_fab : (s.p f v).fab = s.fab := rfl
@[simp] theorem State.p_port : (s.p f v).port = s.port := rfl
@[simp] theorem State.p_mirror : (s.p f v).mirror = s.mirror := rfl
@[simp] theorem State.p_hubWaits : (s.p f v).hubWaits = s.hubWaits := rfl
@[simp] theorem State.p_holders : (s.p f v).holders = s.holders := rfl
@[simp] theorem State.p_handoff : (s.p f v).handoff = s.handoff := rfl
@[simp] theorem State.p_flt : (s.p f v).flt = s.flt := rfl
@[simp] theorem State.p_tml : (s.p f v).tml = s.tml := rfl
@[simp] theorem State.p_tack : (s.p f v).tack = s.tack := rfl
@[simp] theorem State.p_dp : (s.p f v).dp = s.dp := rfl
@[simp] theorem State.p_mbx : (s.p f v).mbx = s.mbx := rfl
@[simp] theorem State.p_pass : (s.p f v).pass = s.pass := rfl
@[simp] theorem State.p_proxyHeld : (s.p f v).proxyHeld = s.proxyHeld := rfl
@[simp] theorem State.p_msg : (s.p f v).msg = s.msg := rfl
@[simp] theorem State.p_expert : (s.p f v).expert = s.expert := rfl
@[simp] theorem State.p_sbTimedOut : (s.p f v).sbTimedOut = s.sbTimedOut := rfl
@[simp] theorem State.p_tmlOld : (s.p f v).tmlOld = s.tmlOld := rfl
@[simp] theorem State.p_epMem : (s.p f v).epMem = s.epMem := rfl
end

/-! ### `hwOr`: the hardware sets bits -/

section
variable (s : State) (f : Fld) (v : Nat)
@[simp] theorem State.hwOr_cycle : (s.hwOr f v).cycle = s.cycle := rfl
@[simp] theorem State.hwOr_hwSet : (s.hwOr f v).hwSet = (f.addr, putBits 0 f.lo f.width v) :: s.hwSet := rfl
@[simp] theorem State.hwOr_marks : (s.hwOr f v).marks = s.marks := rfl
@[simp] theorem State.hwOr_pending : (s.hwOr f v).pending = s.pending := rfl
@[simp] theorem State.hwOr_outs : (s.hwOr f v).outs = s.outs := rfl
@[simp] theorem State.hwOr_plan : (s.hwOr f v).plan = s.plan := rfl
@[simp] theorem State.hwOr_obs : (s.hwOr f v).obs = s.obs := rfl
@[simp] theorem State.hwOr_yards : (s.hwOr f v).yards = s.yards := rfl
@[simp] theorem State.hwOr_pat : (s.hwOr f v).pat = s.pat := rfl
@[simp] theorem State.hwOr_pred : (s.hwOr f v).pred = s.pred := rfl
@[simp] theorem State.hwOr_pdc : (s.hwOr f v).pdc = s.pdc := rfl
@[simp] theorem State.hwOr_chan : (s.hwOr f v).chan = s.chan := rfl
@[simp] theorem State.hwOr_tlm : (s.hwOr f v).tlm = s.tlm := rfl
@[simp] theorem State.hwOr_bud : (s.hwOr f v).bud = s.bud := rfl
@[simp] theorem State.hwOr_tcp : (s.hwOr f v).tcp = s.tcp := rfl
@[simp] theorem State.hwOr_ss : (s.hwOr f v).ss = s.ss := rfl
@[simp] theorem State.hwOr_otp : (s.hwOr f v).otp = s.otp := rfl
@[simp] theorem State.hwOr_pln : (s.hwOr f v).pln = s.pln := rfl
@[simp] theorem State.hwOr_boot : (s.hwOr f v).boot = s.boot := rfl
@[simp] theorem State.hwOr_hs : (s.hwOr f v).hs = s.hs := rfl
@[simp] theorem State.hwOr_tt : (s.hwOr f v).tt = s.tt := rfl
@[simp] theorem State.hwOr_ttOp : (s.hwOr f v).ttOp = s.ttOp := rfl
@[simp] theorem State.hwOr_glk : (s.hwOr f v).glk = s.glk := rfl
@[simp] theorem State.hwOr_fab : (s.hwOr f v).fab = s.fab := rfl
@[simp] theorem State.hwOr_port : (s.hwOr f v).port = s.port := rfl
@[simp] theorem State.hwOr_mirror : (s.hwOr f v).mirror = s.mirror := rfl
@[simp] theorem State.hwOr_hubWaits : (s.hwOr f v).hubWaits = s.hubWaits := rfl
@[simp] theorem State.hwOr_holders : (s.hwOr f v).holders = s.holders := rfl
@[simp] theorem State.hwOr_handoff : (s.hwOr f v).handoff = s.handoff := rfl
@[simp] theorem State.hwOr_flt : (s.hwOr f v).flt = s.flt := rfl
@[simp] theorem State.hwOr_tml : (s.hwOr f v).tml = s.tml := rfl
@[simp] theorem State.hwOr_tack : (s.hwOr f v).tack = s.tack := rfl
@[simp] theorem State.hwOr_dp : (s.hwOr f v).dp = s.dp := rfl
@[simp] theorem State.hwOr_mbx : (s.hwOr f v).mbx = s.mbx := rfl
@[simp] theorem State.hwOr_pass : (s.hwOr f v).pass = s.pass := rfl
@[simp] theorem State.hwOr_proxyHeld : (s.hwOr f v).proxyHeld = s.proxyHeld := rfl
@[simp] theorem State.hwOr_msg : (s.hwOr f v).msg = s.msg := rfl
@[simp] theorem State.hwOr_expert : (s.hwOr f v).expert = s.expert := rfl
@[simp] theorem State.hwOr_sbTimedOut : (s.hwOr f v).sbTimedOut = s.sbTimedOut := rfl
@[simp] theorem State.hwOr_tmlOld : (s.hwOr f v).tmlOld = s.tmlOld := rfl
@[simp] theorem State.hwOr_epMem : (s.hwOr f v).epMem = s.epMem := rfl
end

/-! ### `hw`: the hardware sets a bit -/

section
variable (s : State) (f : Fld)
@[simp] theorem State.hw_cycle : (s.hw f).cycle = s.cycle := rfl
@[simp] theorem State.hw_hwSet : (s.hw f).hwSet = (f.addr, putBits 0 f.lo f.width 1) :: s.hwSet := rfl
@[simp] theorem State.hw_marks : (s.hw f).marks = s.marks := rfl
@[simp] theorem State.hw_pending : (s.hw f).pending = s.pending := rfl
@[simp] theorem State.hw_outs : (s.hw f).outs = s.outs := rfl
@[simp] theorem State.hw_plan : (s.hw f).plan = s.plan := rfl
@[simp] theorem State.hw_obs : (s.hw f).obs = s.obs := rfl
@[simp] theorem State.hw_yards : (s.hw f).yards = s.yards := rfl
@[simp] theorem State.hw_pat : (s.hw f).pat = s.pat := rfl
@[simp] theorem State.hw_pred : (s.hw f).pred = s.pred := rfl
@[simp] theorem State.hw_pdc : (s.hw f).pdc = s.pdc := rfl
@[simp] theorem State.hw_chan : (s.hw f).chan = s.chan := rfl
@[simp] theorem State.hw_tlm : (s.hw f).tlm = s.tlm := rfl
@[simp] theorem State.hw_bud : (s.hw f).bud = s.bud := rfl
@[simp] theorem State.hw_tcp : (s.hw f).tcp = s.tcp := rfl
@[simp] theorem State.hw_ss : (s.hw f).ss = s.ss := rfl
@[simp] theorem State.hw_otp : (s.hw f).otp = s.otp := rfl
@[simp] theorem State.hw_pln : (s.hw f).pln = s.pln := rfl
@[simp] theorem State.hw_boot : (s.hw f).boot = s.boot := rfl
@[simp] theorem State.hw_hs : (s.hw f).hs = s.hs := rfl
@[simp] theorem State.hw_tt : (s.hw f).tt = s.tt := rfl
@[simp] theorem State.hw_ttOp : (s.hw f).ttOp = s.ttOp := rfl
@[simp] theorem State.hw_glk : (s.hw f).glk = s.glk := rfl
@[simp] theorem State.hw_fab : (s.hw f).fab = s.fab := rfl
@[simp] theorem State.hw_port : (s.hw f).port = s.port := rfl
@[simp] theorem State.hw_mirror : (s.hw f).mirror = s.mirror := rfl
@[simp] theorem State.hw_hubWaits : (s.hw f).hubWaits = s.hubWaits := rfl
@[simp] theorem State.hw_holders : (s.hw f).holders = s.holders := rfl
@[simp] theorem State.hw_handoff : (s.hw f).handoff = s.handoff := rfl
@[simp] theorem State.hw_flt : (s.hw f).flt = s.flt := rfl
@[simp] theorem State.hw_tml : (s.hw f).tml = s.tml := rfl
@[simp] theorem State.hw_tack : (s.hw f).tack = s.tack := rfl
@[simp] theorem State.hw_dp : (s.hw f).dp = s.dp := rfl
@[simp] theorem State.hw_mbx : (s.hw f).mbx = s.mbx := rfl
@[simp] theorem State.hw_pass : (s.hw f).pass = s.pass := rfl
@[simp] theorem State.hw_proxyHeld : (s.hw f).proxyHeld = s.proxyHeld := rfl
@[simp] theorem State.hw_msg : (s.hw f).msg = s.msg := rfl
@[simp] theorem State.hw_expert : (s.hw f).expert = s.expert := rfl
@[simp] theorem State.hw_sbTimedOut : (s.hw f).sbTimedOut = s.sbTimedOut := rfl
@[simp] theorem State.hw_tmlOld : (s.hw f).tmlOld = s.tmlOld := rfl
@[simp] theorem State.hw_epMem : (s.hw f).epMem = s.epMem := rfl
end

/-! ### `inc`: a wrapping counter -/

section
variable (s : State) (f : Fld) (n : Nat)
@[simp] theorem State.inc_cycle : (s.inc f n).cycle = s.cycle := rfl
@[simp] theorem State.inc_hwSet : (s.inc f n).hwSet = s.hwSet := rfl
@[simp] theorem State.inc_marks : (s.inc f n).marks = s.marks := rfl
@[simp] theorem State.inc_pending : (s.inc f n).pending = s.pending := rfl
@[simp] theorem State.inc_outs : (s.inc f n).outs = s.outs := rfl
@[simp] theorem State.inc_plan : (s.inc f n).plan = s.plan := rfl
@[simp] theorem State.inc_obs : (s.inc f n).obs = s.obs := rfl
@[simp] theorem State.inc_yards : (s.inc f n).yards = s.yards := rfl
@[simp] theorem State.inc_pat : (s.inc f n).pat = s.pat := rfl
@[simp] theorem State.inc_pred : (s.inc f n).pred = s.pred := rfl
@[simp] theorem State.inc_pdc : (s.inc f n).pdc = s.pdc := rfl
@[simp] theorem State.inc_chan : (s.inc f n).chan = s.chan := rfl
@[simp] theorem State.inc_tlm : (s.inc f n).tlm = s.tlm := rfl
@[simp] theorem State.inc_bud : (s.inc f n).bud = s.bud := rfl
@[simp] theorem State.inc_tcp : (s.inc f n).tcp = s.tcp := rfl
@[simp] theorem State.inc_ss : (s.inc f n).ss = s.ss := rfl
@[simp] theorem State.inc_otp : (s.inc f n).otp = s.otp := rfl
@[simp] theorem State.inc_pln : (s.inc f n).pln = s.pln := rfl
@[simp] theorem State.inc_boot : (s.inc f n).boot = s.boot := rfl
@[simp] theorem State.inc_hs : (s.inc f n).hs = s.hs := rfl
@[simp] theorem State.inc_tt : (s.inc f n).tt = s.tt := rfl
@[simp] theorem State.inc_ttOp : (s.inc f n).ttOp = s.ttOp := rfl
@[simp] theorem State.inc_glk : (s.inc f n).glk = s.glk := rfl
@[simp] theorem State.inc_fab : (s.inc f n).fab = s.fab := rfl
@[simp] theorem State.inc_port : (s.inc f n).port = s.port := rfl
@[simp] theorem State.inc_mirror : (s.inc f n).mirror = s.mirror := rfl
@[simp] theorem State.inc_hubWaits : (s.inc f n).hubWaits = s.hubWaits := rfl
@[simp] theorem State.inc_holders : (s.inc f n).holders = s.holders := rfl
@[simp] theorem State.inc_handoff : (s.inc f n).handoff = s.handoff := rfl
@[simp] theorem State.inc_flt : (s.inc f n).flt = s.flt := rfl
@[simp] theorem State.inc_tml : (s.inc f n).tml = s.tml := rfl
@[simp] theorem State.inc_tack : (s.inc f n).tack = s.tack := rfl
@[simp] theorem State.inc_dp : (s.inc f n).dp = s.dp := rfl
@[simp] theorem State.inc_mbx : (s.inc f n).mbx = s.mbx := rfl
@[simp] theorem State.inc_pass : (s.inc f n).pass = s.pass := rfl
@[simp] theorem State.inc_proxyHeld : (s.inc f n).proxyHeld = s.proxyHeld := rfl
@[simp] theorem State.inc_msg : (s.inc f n).msg = s.msg := rfl
@[simp] theorem State.inc_expert : (s.inc f n).expert = s.expert := rfl
@[simp] theorem State.inc_sbTimedOut : (s.inc f n).sbTimedOut = s.sbTimedOut := rfl
@[simp] theorem State.inc_tmlOld : (s.inc f n).tmlOld = s.tmlOld := rfl
@[simp] theorem State.inc_epMem : (s.inc f n).epMem = s.epMem := rfl
end

/-! ### `incSat`: a saturating counter -/

section
variable (s : State) (f : Fld) (n : Nat)
@[simp] theorem State.incSat_cycle : (s.incSat f n).cycle = s.cycle := rfl
@[simp] theorem State.incSat_hwSet : (s.incSat f n).hwSet = s.hwSet := rfl
@[simp] theorem State.incSat_marks : (s.incSat f n).marks = s.marks := rfl
@[simp] theorem State.incSat_pending : (s.incSat f n).pending = s.pending := rfl
@[simp] theorem State.incSat_outs : (s.incSat f n).outs = s.outs := rfl
@[simp] theorem State.incSat_plan : (s.incSat f n).plan = s.plan := rfl
@[simp] theorem State.incSat_obs : (s.incSat f n).obs = s.obs := rfl
@[simp] theorem State.incSat_yards : (s.incSat f n).yards = s.yards := rfl
@[simp] theorem State.incSat_pat : (s.incSat f n).pat = s.pat := rfl
@[simp] theorem State.incSat_pred : (s.incSat f n).pred = s.pred := rfl
@[simp] theorem State.incSat_pdc : (s.incSat f n).pdc = s.pdc := rfl
@[simp] theorem State.incSat_chan : (s.incSat f n).chan = s.chan := rfl
@[simp] theorem State.incSat_tlm : (s.incSat f n).tlm = s.tlm := rfl
@[simp] theorem State.incSat_bud : (s.incSat f n).bud = s.bud := rfl
@[simp] theorem State.incSat_tcp : (s.incSat f n).tcp = s.tcp := rfl
@[simp] theorem State.incSat_ss : (s.incSat f n).ss = s.ss := rfl
@[simp] theorem State.incSat_otp : (s.incSat f n).otp = s.otp := rfl
@[simp] theorem State.incSat_pln : (s.incSat f n).pln = s.pln := rfl
@[simp] theorem State.incSat_boot : (s.incSat f n).boot = s.boot := rfl
@[simp] theorem State.incSat_hs : (s.incSat f n).hs = s.hs := rfl
@[simp] theorem State.incSat_tt : (s.incSat f n).tt = s.tt := rfl
@[simp] theorem State.incSat_ttOp : (s.incSat f n).ttOp = s.ttOp := rfl
@[simp] theorem State.incSat_glk : (s.incSat f n).glk = s.glk := rfl
@[simp] theorem State.incSat_fab : (s.incSat f n).fab = s.fab := rfl
@[simp] theorem State.incSat_port : (s.incSat f n).port = s.port := rfl
@[simp] theorem State.incSat_mirror : (s.incSat f n).mirror = s.mirror := rfl
@[simp] theorem State.incSat_hubWaits : (s.incSat f n).hubWaits = s.hubWaits := rfl
@[simp] theorem State.incSat_holders : (s.incSat f n).holders = s.holders := rfl
@[simp] theorem State.incSat_handoff : (s.incSat f n).handoff = s.handoff := rfl
@[simp] theorem State.incSat_flt : (s.incSat f n).flt = s.flt := rfl
@[simp] theorem State.incSat_tml : (s.incSat f n).tml = s.tml := rfl
@[simp] theorem State.incSat_tack : (s.incSat f n).tack = s.tack := rfl
@[simp] theorem State.incSat_dp : (s.incSat f n).dp = s.dp := rfl
@[simp] theorem State.incSat_mbx : (s.incSat f n).mbx = s.mbx := rfl
@[simp] theorem State.incSat_pass : (s.incSat f n).pass = s.pass := rfl
@[simp] theorem State.incSat_proxyHeld : (s.incSat f n).proxyHeld = s.proxyHeld := rfl
@[simp] theorem State.incSat_msg : (s.incSat f n).msg = s.msg := rfl
@[simp] theorem State.incSat_expert : (s.incSat f n).expert = s.expert := rfl
@[simp] theorem State.incSat_sbTimedOut : (s.incSat f n).sbTimedOut = s.sbTimedOut := rfl
@[simp] theorem State.incSat_tmlOld : (s.incSat f n).tmlOld = s.tmlOld := rfl
@[simp] theorem State.incSat_epMem : (s.incSat f n).epMem = s.epMem := rfl
end

/-! ### `out` -/

section
variable (s : State) (o : Out)
@[simp] theorem State.out_regs : (s.out o).regs = s.regs := rfl
@[simp] theorem State.out_cycle : (s.out o).cycle = s.cycle := rfl
@[simp] theorem State.out_hwSet : (s.out o).hwSet = s.hwSet := rfl
@[simp] theorem State.out_marks : (s.out o).marks = s.marks := rfl
@[simp] theorem State.out_pending : (s.out o).pending = s.pending := rfl
@[simp] theorem State.out_outs : (s.out o).outs = o :: s.outs := rfl
@[simp] theorem State.out_plan : (s.out o).plan = s.plan := rfl
@[simp] theorem State.out_obs : (s.out o).obs = s.obs := rfl
@[simp] theorem State.out_yards : (s.out o).yards = s.yards := rfl
@[simp] theorem State.out_pat : (s.out o).pat = s.pat := rfl
@[simp] theorem State.out_pred : (s.out o).pred = s.pred := rfl
@[simp] theorem State.out_pdc : (s.out o).pdc = s.pdc := rfl
@[simp] theorem State.out_chan : (s.out o).chan = s.chan := rfl
@[simp] theorem State.out_tlm : (s.out o).tlm = s.tlm := rfl
@[simp] theorem State.out_bud : (s.out o).bud = s.bud := rfl
@[simp] theorem State.out_tcp : (s.out o).tcp = s.tcp := rfl
@[simp] theorem State.out_ss : (s.out o).ss = s.ss := rfl
@[simp] theorem State.out_otp : (s.out o).otp = s.otp := rfl
@[simp] theorem State.out_pln : (s.out o).pln = s.pln := rfl
@[simp] theorem State.out_boot : (s.out o).boot = s.boot := rfl
@[simp] theorem State.out_hs : (s.out o).hs = s.hs := rfl
@[simp] theorem State.out_tt : (s.out o).tt = s.tt := rfl
@[simp] theorem State.out_ttOp : (s.out o).ttOp = s.ttOp := rfl
@[simp] theorem State.out_glk : (s.out o).glk = s.glk := rfl
@[simp] theorem State.out_fab : (s.out o).fab = s.fab := rfl
@[simp] theorem State.out_port : (s.out o).port = s.port := rfl
@[simp] theorem State.out_mirror : (s.out o).mirror = s.mirror := rfl
@[simp] theorem State.out_hubWaits : (s.out o).hubWaits = s.hubWaits := rfl
@[simp] theorem State.out_holders : (s.out o).holders = s.holders := rfl
@[simp] theorem State.out_handoff : (s.out o).handoff = s.handoff := rfl
@[simp] theorem State.out_flt : (s.out o).flt = s.flt := rfl
@[simp] theorem State.out_tml : (s.out o).tml = s.tml := rfl
@[simp] theorem State.out_tack : (s.out o).tack = s.tack := rfl
@[simp] theorem State.out_dp : (s.out o).dp = s.dp := rfl
@[simp] theorem State.out_mbx : (s.out o).mbx = s.mbx := rfl
@[simp] theorem State.out_pass : (s.out o).pass = s.pass := rfl
@[simp] theorem State.out_proxyHeld : (s.out o).proxyHeld = s.proxyHeld := rfl
@[simp] theorem State.out_msg : (s.out o).msg = s.msg := rfl
@[simp] theorem State.out_expert : (s.out o).expert = s.expert := rfl
@[simp] theorem State.out_sbTimedOut : (s.out o).sbTimedOut = s.sbTimedOut := rfl
@[simp] theorem State.out_tmlOld : (s.out o).tmlOld = s.tmlOld := rfl
@[simp] theorem State.out_epMem : (s.out o).epMem = s.epMem := rfl
end

/-! ### `unmark` -/

section
variable (s : State) (k : Mark)
@[simp] theorem State.unmark_regs : (s.unmark k).regs = s.regs := rfl
@[simp] theorem State.unmark_cycle : (s.unmark k).cycle = s.cycle := rfl
@[simp] theorem State.unmark_hwSet : (s.unmark k).hwSet = s.hwSet := rfl
@[simp] theorem State.unmark_marks : (s.unmark k).marks = s.marks.erase k := rfl
@[simp] theorem State.unmark_pending : (s.unmark k).pending = s.pending := rfl
@[simp] theorem State.unmark_outs : (s.unmark k).outs = s.outs := rfl
@[simp] theorem State.unmark_plan : (s.unmark k).plan = s.plan := rfl
@[simp] theorem State.unmark_obs : (s.unmark k).obs = s.obs := rfl
@[simp] theorem State.unmark_yards : (s.unmark k).yards = s.yards := rfl
@[simp] theorem State.unmark_pat : (s.unmark k).pat = s.pat := rfl
@[simp] theorem State.unmark_pred : (s.unmark k).pred = s.pred := rfl
@[simp] theorem State.unmark_pdc : (s.unmark k).pdc = s.pdc := rfl
@[simp] theorem State.unmark_chan : (s.unmark k).chan = s.chan := rfl
@[simp] theorem State.unmark_tlm : (s.unmark k).tlm = s.tlm := rfl
@[simp] theorem State.unmark_bud : (s.unmark k).bud = s.bud := rfl
@[simp] theorem State.unmark_tcp : (s.unmark k).tcp = s.tcp := rfl
@[simp] theorem State.unmark_ss : (s.unmark k).ss = s.ss := rfl
@[simp] theorem State.unmark_otp : (s.unmark k).otp = s.otp := rfl
@[simp] theorem State.unmark_pln : (s.unmark k).pln = s.pln := rfl
@[simp] theorem State.unmark_boot : (s.unmark k).boot = s.boot := rfl
@[simp] theorem State.unmark_hs : (s.unmark k).hs = s.hs := rfl
@[simp] theorem State.unmark_tt : (s.unmark k).tt = s.tt := rfl
@[simp] theorem State.unmark_ttOp : (s.unmark k).ttOp = s.ttOp := rfl
@[simp] theorem State.unmark_glk : (s.unmark k).glk = s.glk := rfl
@[simp] theorem State.unmark_fab : (s.unmark k).fab = s.fab := rfl
@[simp] theorem State.unmark_port : (s.unmark k).port = s.port := rfl
@[simp] theorem State.unmark_mirror : (s.unmark k).mirror = s.mirror := rfl
@[simp] theorem State.unmark_hubWaits : (s.unmark k).hubWaits = s.hubWaits := rfl
@[simp] theorem State.unmark_holders : (s.unmark k).holders = s.holders := rfl
@[simp] theorem State.unmark_handoff : (s.unmark k).handoff = s.handoff := rfl
@[simp] theorem State.unmark_flt : (s.unmark k).flt = s.flt := rfl
@[simp] theorem State.unmark_tml : (s.unmark k).tml = s.tml := rfl
@[simp] theorem State.unmark_tack : (s.unmark k).tack = s.tack := rfl
@[simp] theorem State.unmark_dp : (s.unmark k).dp = s.dp := rfl
@[simp] theorem State.unmark_mbx : (s.unmark k).mbx = s.mbx := rfl
@[simp] theorem State.unmark_pass : (s.unmark k).pass = s.pass := rfl
@[simp] theorem State.unmark_proxyHeld : (s.unmark k).proxyHeld = s.proxyHeld := rfl
@[simp] theorem State.unmark_msg : (s.unmark k).msg = s.msg := rfl
@[simp] theorem State.unmark_expert : (s.unmark k).expert = s.expert := rfl
@[simp] theorem State.unmark_sbTimedOut : (s.unmark k).sbTimedOut = s.sbTimedOut := rfl
@[simp] theorem State.unmark_tmlOld : (s.unmark k).tmlOld = s.tmlOld := rfl
@[simp] theorem State.unmark_epMem : (s.unmark k).epMem = s.epMem := rfl
end

end Sys2Proof.Machine
end

