-- ==== Sys2Proof/WellFormed.lean ====
section
/-!
DEFINITION. Well-formed commands: the operands that a type leaves wider than the spec's field, a converter or a message
holds fit it. The operands of every other constructor are bounded by their types.
-/
namespace Sys2Proof

/-- A number fits `w` bits. -/
def fits (w x : Nat) : Bool := decide (x < 2 ^ w)

/-- A message has at most 16 words (R273). -/
def wordsWf (words : List (BitVec 32)) : Bool := decide (words.length ≤ 16)

/-- An SS packet: the fields of its header at their widths, 14 header bytes with the CRC-16, a payload of at most 1,024
bytes that only a data packet has. -/
def SsPacket.wf (p : SsPacket) : Bool :=
  fits 20 p.route && fits 7 p.addr && fits 4 p.ep && fits 16 p.stream && fits 5 p.pseq
    && decide (p.head.length = 14) && decide (p.body.length ≤ 1024) && (p.data || p.body.isEmpty)

/-- A conversion pair: 12-bit voltages, signed 12-bit currents (R244, R245). -/
def ChanSample.wf (c : ChanSample) : Bool :=
  fits 12 c.v1 && fits 12 c.v2 && decide (-2048 ≤ c.i1 ∧ c.i1 < 2048) && decide (-2048 ≤ c.i2 ∧ c.i2 < 2048)

/-- A telemetry frame holds seventeen channels and four die sensors (R244). -/
def TlmFrame.wf (f : TlmFrame) : Bool :=
  decide (f.chans.length = 17) && f.chans.all ChanSample.wf && fits 12 f.vin && fits 12 f.iin
    && decide (f.temps.length = 4)

/-- Members and links of a barn have three-bit and two-bit numbers (R182, R169). -/
def LinkAd.wf (l : LinkAd) : Bool := fits 3 l.memberA && fits 2 l.linkA && fits 3 l.memberB && fits 2 l.linkB

/-- An admitted member (R181): number and 64-bit unique id. -/
def MemberAd.wf (m : MemberAd) : Bool := fits 3 m.num && fits 64 m.uid

/-- A table entry: a mask of four links, a hop count, a link (R185). -/
def RouteE.wf (e : RouteE) : Bool := fits 4 e.next && fits 8 e.hops && fits 2 e.ctrl

/-- A pushed table covers eight destinations, and each alternate does (R185). -/
def RouteTable.wf (t : RouteTable) : Bool :=
  fits 8 t.ver && decide (t.main.length = 8) && t.main.all RouteE.wf
    && t.byLink.all (fun l => decide (l.length = 8) && l.all RouteE.wf)
    && t.byMember.all (fun l => decide (l.length = 8) && l.all RouteE.wf)

/-- A flow record's key at its widths (R187). -/
def FlowOpen.wf (o : FlowOpen) : Bool :=
  fits 9 o.idx && fits 2 o.ps && fits 2 o.slot && fits 7 o.addr && fits 20 o.route && fits 4 o.ep && fits 16 o.stream
    && fits 7 o.target

/-- Status, change and timeout fields of a mirror record (R159): 16-bit words, 8-bit timeouts. -/
def mirrorWf (seq hs hsChg ss ssChg u1 u2 : Nat) : Bool :=
  fits 16 seq && fits 16 hs && fits 16 hsChg && fits 16 ss && fits 16 ssChg && fits 8 u1 && fits 8 u2

/-- What members report to an activation (R77): a member number and a BODY_HASH of 32 bytes each. -/
def reportsWf (l : List (Nat × List (BitVec 8))) : Bool := l.all fun x => fits 3 x.1 && decide (x.2.length = 32)

/-- Well-formedness of a command. -/
def Instr.wf : Instr → Bool
  | .planBegin _ _ w | .planChunk _ _ w | .planCommit _ _ w | .portAssign _ _ w
  | .kvmSet _ _ w | .info _ _ w | .modeGet _ _ w | .portStatus _ _ w | .portPower _ _ w | .pdStatus _ _ w
  | .pdPolicy _ _ w | .sourceCapsSet _ _ w | .tlmRead _ _ w | .energyRead _ _ w | .budgetSet _ _ w
  | .fabricStatus _ _ w | .fabricReseed _ _ w | .queueConfig _ _ w | .pmuConfig _ _ w | .faultStatus _ _ w
  | .faultClear _ _ w | .dumpRead _ _ w | .sessionOpen _ _ w | .sessionClose _ _ w | .regPeek _ _ w
  | .regPoke _ _ w | .timelineAdd _ _ w | .timelineDel _ _ w | .proxyMessageReceived _ _ _ w
  | .mbxSend _ _ _ _ _ w => wordsWf w
  | .planActivate _ _ w reports => wordsWf w && reportsWf reports
  | .messageConsume _ reports => reportsWf reports
  | .bootDomainsReady _ time => fits 64 time
  | .itpReceived _ _ delta res _ => fits 13 delta && res.all fun r => decide (r.stall ≤ 14)
  | .barnTimeReceived _ value hops _ => fits 64 value && fits 3 hops
  | .yardDescriptorReceived _ _ value rate _ _ => fits 64 value && fits 24 rate
  | .downstreamPacket _ p _ | .upstreamPacket _ p _ => p.wf
  | .mirrorRecord _ _ _ _ seq hs hsChg ss ssChg u1 u2 => mirrorWf seq hs hsChg ss ssChg u1 u2
  | .mirrorSnapshot (.got _ _ _ _ seq hs hsChg ss ssChg u1 u2) => mirrorWf seq hs hsChg ss ssChg u1 u2
  | .linkTrained _ _ delay carry => fits 16 delay && fits 4 carry
  | .dataBaleReceived _ _ payload _ _ => decide (payload.length ≤ 64)
  | .helloReceived _ uid hash barnId _ _ _ _ => fits 64 uid && fits 256 hash && fits 32 barnId
  | .lsaReceived _ links members => links.all LinkAd.wf && members.all MemberAd.wf
  | .tablesReceived _ t => t.wf
  | .flowOpenReceived _ o => o.wf
  | .telemetryFrame f => f.wf
  | .periodicStartSplit _ _ _ _ data | .nonperiodicStartSplit _ _ _ _ _ data => decide (data.length ≤ 1023)
  | _ => true

end Sys2Proof
end

