-- ==== Sys2Proof/Tests/Slice0.lean ====
section
/-!
SUPPORT. Small states, and the tests: ill-formed commands that WellFormed refuses, the table's words, a few values from the spec's
own tables, and for each statement with hypotheses a state and operands that meet them.
-/
set_option Elab.async false

namespace Sys2Proof.Tests
open Sys2Proof Sys2Proof.Machine

/-! ## Small states -/

/-- The chip after POR is released, before its first BOOT step has ended. -/
def up : State := State.reset.bootMod fun b => { b with held := 0 }

/-- A BALE header on link 0. -/
def bh : BaleHdr := ⟨0, 0, 0, false, 0⟩

/-- A broadcast CTRL header from a member, on a link. -/
def ch (k : Fin 4) (src : Fin 8) : CtrlHdr := ⟨⟨k, 0, 0, false, 0⟩, src, 0, true, 7⟩

/-- A CTRL header from a member to another. -/
def chd (k : Fin 4) (src dest : Fin 8) : CtrlHdr := ⟨⟨k, 0, 0, false, 0⟩, src, dest, false, 7⟩

/-- A stall of type 3 with DRP data. -/
def stallPin : StallE := ⟨0, 1, 3, 0, 2, 0, 1, 0, 1⟩

/-- A stall of type 1 with BC 1.2 switching. -/
def stallBc : StallE := ⟨0, 1, 1, 4, 2, 0, 1, 0, 1⟩

/-- A paddock of slot 2 on upstream port 0 of this chip: stall 1, a pen and the tack room. -/
def padr : PaddockR := ⟨2, 0, 0, 0, 3, 1, 0, [⟨1, 1⟩, ⟨2, 0⟩, ⟨3, 0⟩], [⟨0, 1, 0, [⟨0, 0⟩]⟩]⟩

/-- This chip is the home of slot 2. -/
def home : State := up.withPlan { Plan.empty with paddocks := [padr] }

/-- A barn of two chips, links 0 and 1 of this one. -/
def barn : State :=
  ((home.withPlan { home.plan with
      barnId := 77, barn := some ⟨8, 1, 0, 0xFF, 500, 0, [], [⟨0, 0, 5, 2, 0, 0⟩, ⟨0, 1, 5, 3, 0, 1⟩]⟩ }).p TOP_MODE.MODE 3
    |>.p GLK_CTRL.ENABLE 1).fabMod fun f => { f with numbered := true }

/-- Timeline entry i, of yard L or another, may run. -/
def ent (i : Nat) (e : TmlE) : State :=
  ((up.withTml (vset up.tml i e)).p TML_CTRL.ENABLE 1).p (YRD_STATUS.STATE 4) 2

/-- No vote stands, and the crystal may stop. -/
def quiet : State :=
  (up.withPdc { dom := Vector.replicate 12 {} }).fields [(PDC_XTAL.STOP_EN, 1), (PDC_XTAL.RUNNING, 1)]

/-- Stall 1 is of type 3. -/
def pin : State := up.withPlan { Plan.empty with stalls := [stallPin] }

/-- Stall 1 has a seat input, and is not seated. -/
def seat : State := up.withPlan { Plan.empty with stalls := [⟨0, 1, 1, 0x20, 2, 1, 1, 0, 1⟩] }

/-- UP0 is an attached source that speaks PD. -/
def src : State := up.fields [(TCP_PORT.STATE 15, 6), (TCP_CTRL.PD_EN, 1), (TCP_CTRL.ENABLE, 1), (TOP_MODE.MODE, 3)]

/-- UP0 may enter EPR mode. -/
def epr : State :=
  ((src.withPlan { Plan.empty with
      power := [⟨0, 4, 0, 0, 30000, 4500, 4500, 5000, 1000⟩], sets := [⟨1, 1, 1, 0, [0x1912C]⟩], binds := [⟨0, 0x20, 1⟩] }).fields
    [(TCP_PORT.VCONN_ON 15, 1), (TCP_PORT.CONTRACT 15, 2), (TCP_CABLE.DISCOVERED 15, 1), (TCP_CABLE.AMP5 15, 1),
     (TCP_CABLE.EPR_OK 15, 1), (TCP_CABLE.MAX_V 15, 3)]).tcMod 15 fun x => { x with eprOk := true, capsSet := some (1, 1) }

/-- UP0 has a sink set. -/
def sinkSt : State := src.withPlan { Plan.empty with sets := [⟨1, 1, 0, 1, [0x1912C]⟩], binds := [⟨0, 0x20, 1⟩] }

/-- UP0's paddock offers DisplayPort. -/
def dpSt : State := src.withPlan { Plan.empty with paddocks := [{ padr with flags := 4, dpPins := 1 }] }

/-- The accounted power lies above the budget. -/
def overSt : State :=
  (((up.fields [(BUD_CTRL.ENABLE, 1), (BUD_PORT.PRIORITY 4, 1), (BUD_RLIM.RLIM 4, 400), (TCP_VSET.TARGET 4, 1000)]).chMod 4
    fun c => { c with gate := true, rampDone := true }).tlmMod 4
    (fun x => { x with last50 := [9000000] })).withBud { up.bud with budget := 0 }

/-- A header packet. -/
def pkt : SsPacket := ⟨false, false, 0, 5, 1, false, 0, false, 0, false, false, false, false, [], []⟩

/-- SuperSpeed forwarding runs; slot 2 holds stall 4. -/
def ssb : State :=
  (home.fields [(SSH_CTRL.ENABLE, 1), (PBF_CTRL.ENABLE, 1), (SSH_PORT.LINK 4, 0), (SSH_PORT.LINK 15, 0)]).withHolders [⟨0, 4, 2⟩]

/-- The translator of stall 1 runs. -/
def ttb : State := pin.p TTA_CTRL.ENABLE 1

/-- High-speed repetition runs; slot 2 holds stall 1, and engine 0 is its root. -/
def hsb : State :=
  (home.fields [(HSH_CTRL.ENABLE, 1), (HSH_ENG.ROLE 0, 1), (HSH_ENG.SLOT 0, 2), (HSH_ENG.PEN 0, 15)]).withHolders [⟨0, 1, 2⟩]

/-- The position of stall 1, that of the pen, and that of the tack room. -/
def mir1 : MirPos := { slot := 2, hub := 0, port := 1, kind := 1, member := 0, stall := 1, st := { hs := 0x101, ss := 0x280 } }
/-- The position of the pen. -/
def mir2 : MirPos := { slot := 2, hub := 0, port := 2, kind := 2, member := 0, stall := 0, st := { hs := 0x501, ss := 0x203 } }
/-- The position of the tack room. -/
def mir3 : MirPos := { slot := 2, hub := 0, port := 3, kind := 3, member := 0, stall := 0, st := { hs := 0x501 } }

/-- This chip answers for slot 2's root. -/
def padb : State :=
  ((hsb.fields [(UPP_PADDOCK.BOUND 0, 1), (GLK_LINK.STATE 0, 4)]).withMirror [mir1, mir2, mir3])

/-- A GPIO with the KVM button. -/
def gpioKvm : GpioE := { (default : GpioE) with mask := 1, fn := 6 }

/-- The tack room of slot 2 is configured. -/
def tkb : State :=
  (padb.fields [(TKR_CTRL.ENABLE, 1), (TKR_FUNC.STATE 0, 4)]).tackMod 0 fun x => { x with configured := true }

/-- A session on a secure channel. -/
def sess : Session := ⟨[], 1, 0xFF, 2, 4, 1, 0, 0⟩

/-- A master without a session on channel 2 may ask for anything. -/
def cmdb : State :=
  ((up.fields [(TOP_MODE.MODE, 3), (PLN_STATUS.SOURCE, 1), (MBX_ASSIGN.PARTY 2, 6)]))


/-- A tag has four words (R308). -/
theorem tagOf_length (k : List Byte) (l : List Word) : (tagOf k l).length = 4 := by
  unfold tagOf
  have h : ((Config.hmac k (wordBytes (l.take 12))).toList.take 16).length = 16 := by simp
  generalize (Config.hmac k (wordBytes (l.take 12))).toList.take 16 = x at h
  match x, h with
  | [_, _, _, _, _, _, _, _, _, _, _, _, _, _, _, _], _ => rfl

/-! ## Tests -/

/-- A message of 17 words is refused (R273). -/
theorem test_wf_words : (Instr.info 2 1 (List.replicate 17 0#32)).wf = false := by decide +kernel

/-- A packet with a payload and no data mark is refused. -/
theorem test_wf_packet : (Instr.downstreamPacket 1 { pkt with data := false, body := [1#8] } 0).wf = false := by decide +kernel

/-- A telemetry frame without channels is refused (R244). -/
theorem test_wf_frame (f : TlmFrame) (h : f.chans = []) : (Instr.telemetryFrame f).wf = false := by
  simp [Instr.wf, TlmFrame.wf, h]

/-- An ITP delta of fourteen bits is refused, and an ITP at a port that is no stall. -/
theorem test_wf_itp : (Instr.itpReceived 0 0 8192 [] 0).wf = false ∧ (Instr.itpReceived 0 0 1 [⟨15, 0, false⟩] 0).wf = false := by
  decide +kernel

/-- A BODY_HASH that is not 32 bytes is refused. -/
theorem test_wf_reports : (Instr.planActivate 2 1 [] [(1, [])]).wf = false ∧ (Instr.messageConsume 2 [(1, [])]).wf = false := by
  decide +kernel

/-- A link of a member above 7 and a member number above 7 are refused. -/
theorem test_wf_lsa : (Instr.lsaReceived (ch 0 1) [⟨8, 0, 1, 0, false⟩] []).wf = false ∧
    (Instr.lsaReceived (ch 0 1) [] [⟨8, 0, false⟩]).wf = false := by decide +kernel

/-- A table without its eight destinations is refused. -/
theorem test_wf_table : (Instr.tablesReceived (ch 0 1) { ver := 0, at_ := 0, main := [], byLink := [], byMember := [] }).wf = false := by
  decide +kernel

/-- A flow record index of ten bits is refused. -/
theorem test_wf_flow : (Instr.flowOpenReceived (ch 0 1) { (default : FlowOpen) with idx := 512 }).wf = false := by decide +kernel

/-- Mirror fields above 16 bits are refused. -/
theorem test_wf_mirror : (Instr.mirrorRecord (ch 0 1) 0 0 1 65536 0 0 0 0 0 0).wf = false ∧
    (Instr.mirrorSnapshot (.got (ch 0 1) 0 0 1 0 65536 0 0 0 0 0)).wf = false := by decide +kernel

/-- A delay of 17 bits, a payload above a bale's 64 bytes and a unique id of 65 bits are refused. -/
theorem test_wf_link : (Instr.linkTrained 0 3 65536 0).wf = false ∧
    (Instr.dataBaleReceived 0 0#64 (List.replicate 65 0#8) false 0).wf = false ∧
    (Instr.helloReceived bh (2 ^ 64) 0 0 1 0 0 0).wf = false := by decide +kernel

/-- A yard value, a barn time and a boot time of 65 bits are refused. -/
theorem test_wf_time : (Instr.barnTimeReceived bh (2 ^ 64) 1 0).wf = false ∧ (Instr.bootDomainsReady true (2 ^ 64)).wf = false := by
  decide +kernel

/-- A split transaction of 1,024 bytes is refused. -/
theorem test_wf_split : (Instr.nonperiodicStartSplit 1 2 3 true false (List.replicate 1024 0#8)).wf = false := by
  decide +kernel

/-- The table's rows have no bits, so no word spells a command. -/
theorem test_no_words (n w : Nat) : decodeTableWord n w = none := rfl

/-- TOP_ID reads 0x5A15_0002 (R2). -/
theorem test_top_id : State.reset.word TOP_ID.addr = 0x5A150002#32 := by decide +kernel

/-- The value of yard time 1200:12500 (R7). -/
theorem test_yard_value : ({ iv := 1200, tick := 12500 } : Yard).value = 0x025830D4 := by decide +kernel

/-- The bytes of the check value of CRC-32: "123456789" gives 0xCBF43926. -/
theorem test_crc32 : crc32 [0x31, 0x32, 0x33, 0x34, 0x35, 0x36, 0x37, 0x38, 0x39] = 0xCBF43926 := by decide +kernel

/-! ## The hypotheses of the statements meet -/

/-- The hypotheses of `StepRunsFront` meet. -/
theorem wit_StepRunsFront_0 : ∃ (c : Instr) (rest : List Instr) (s : State), s.pending = c :: rest :=
  ⟨.porAssert, [.porAssert], { State.reset with pending := [.porAssert, .porAssert] }, rfl⟩

/-- The hypotheses of `IdleStepIsACycle` meet. -/
theorem wit_IdleStepIsACycle_0 : ∃ (s : State), s.pending = [] :=
  ⟨State.reset, rfl⟩

/-- The hypotheses of `StepKeepsRegisterList` meet. -/
theorem wit_StepKeepsRegisterList_0 : ∃ (s t : State), s.wf = true ∧ step s = .next t :=
  ⟨State.reset, _, by decide +kernel, rfl⟩

/-- The hypotheses of `StepKeepsYardTicks` meet. -/
theorem wit_StepKeepsYardTicks_0 : ∃ (s t : State), s.TicksOk ∧ step s = .next t :=
  ⟨State.reset, _, by decide +kernel, rfl⟩

/-- The hypotheses of `PlanChangesOnlyAtActivationAndReset` meet. -/
theorem wit_PlanChangesOnlyAtActivationAndReset_0 : ∃ (i : Instr) (s t : State), changesPlan i = false ∧ exec i s = .next t :=
  ⟨.otpWriteDone, State.reset, _, rfl, rfl⟩

/-- The hypotheses of `OtpChangesOnlyByItsWrites` meet. -/
theorem wit_OtpChangesOnlyByItsWrites_0 : ∃ (i : Instr) (s t : State), exec i s = .next t ∧ i ≠ .otpWriteDone :=
  ⟨.porAssert, State.reset, _, rfl, by decide⟩

/-- The hypotheses of `SleepAccess` meet. -/
theorem wit_SleepAccess_0 : ∃ (m : Fin 16) (addr : BitVec 32) (data : Option (BitVec 32)) (s : State),
    s.masterHere m = true ∧ m.val ≠ 6 ∧ m.val ≠ 7 ∧ m.val ≠ 15 ∧ addr.toNat % 4 = 0 ∧ s.holdsPage m = false ∧
    (s.pdc.stalls.any fun x => x.master = m.val) = false ∧ (rowOf addr.toNat).any (fun r => !r.expert) = true ∧
    (data.isSome = true → s.mayWrite m addr.toNat = true) ∧ s.turn m addr.toNat = true ∧ s.domOn (addrDom addr.toNat) = false :=
  ⟨2, BitVec.ofNat 32 SSH_CTRL.addr, none, up.p (PDC_DOM.STATE (addrDom SSH_CTRL.addr)) 1, by decide +kernel⟩

/-- The hypotheses of `SleepAccess` meet. -/
theorem wit_SleepAccess_1 : ∃ (m : Fin 16) (addr : BitVec 32) (_w : BitVec 32) (s : State),
    s.masterHere m = true ∧ s.holdsPage m = false ∧ (s.pdc.stalls.any fun x => x.master = m.val) = false ∧
    (rowOf addr.toNat).any (fun r => !r.expert) = true ∧ s.mayWrite m addr.toNat = true ∧ s.turn m addr.toNat = true ∧
    s.domOn (addrDom addr.toNat) = false :=
  ⟨3, BitVec.ofNat 32 SSH_CTRL.addr, 1#32, up.p (PDC_DOM.STATE (addrDom SSH_CTRL.addr)) 2, by decide +kernel⟩

/-- The header of a plan file of 208 bytes, and that file: a header and an empty body (R29). -/
def slotHead : List Byte := leBytes 8 0 ++ leBytes 4 208 ++ List.replicate 20 0
/-- The file. -/
def slotFile : List Byte := slotHead ++ ((Config.sha256 []).toList ++ List.replicate 144 0)

theorem slotFile_len : slotFile.length = 208 := by
  simp only [slotFile, slotHead, List.length_append, leBytes_length, List.length_replicate, Vector.length_toList]

theorem slotFile_u32 : u32 slotFile 8 = 208 := by
  have h := u32_at (leBytes 8 0) (List.replicate 20 0 ++ ((Config.sha256 []).toList ++ List.replicate 144 0)) 208 (by decide) 8
    (leBytes_length 8 0)
  rw [slotFile, slotHead]
  simp only [List.append_assoc] at h ⊢
  exact h

theorem slotFile_bodyOk : bodyOk slotFile = true := by
  have h : (slotFile.drop 32).take 32 = (Config.sha256 []).toList := by
    rw [slotFile, List.drop_left' (by simp only [slotHead, List.length_append, leBytes_length, List.length_replicate]),
      List.take_left' (Vector.length_toList ..)]
  rw [bodyOk, h, slotFile_len, List.take_zero]
  simp

/-- The file, with a commit page of a SEQ, is a valid slot. -/
theorem slotFile_valid (q : Nat) (hq : q < 2 ^ 32) : (SlotF.mk slotFile (commitPage q slotFile)).valid = true := by
  have hr := (commitPage_reads q slotFile hq (by rw [slotFile_len]; decide)).1
  have hp : u32 (commitPage q slotFile) 8 = 208 := by
    have h := hr
    simp only [SlotF.headerOk, Bool.and_eq_true, decide_eq_true_eq] at h
    rw [← h.1.1.1.2, slotFile_u32]
  have hl : (SlotF.mk slotFile (commitPage q slotFile)).plan = slotFile := by
    simp only [SlotF.plan, hp]
    have h : slotFile.take slotBody = slotFile := List.take_of_length_le (by rw [slotFile_len]; decide)
    rw [h]
    exact List.take_of_length_le (Nat.le_of_eq slotFile_len)
  rw [SlotF.valid, hr, hl, slotFile_bodyOk]; rfl

/-- Both slots hold the file under SEQ 5, and the loader is at step 5. -/
def twoSlots : State :=
  ((up.p TOP_MODE.BOOT_STEP 5).p TOP_STRAP.BOOTSRC 0).plnMod fun p =>
    { p with order := [], slot := Vector.replicate 2 ⟨slotFile, commitPage 5 slotFile⟩ }

/-- The hypotheses of `EqualSlotsTrySlotA` meet. -/
theorem wit_EqualSlotsTrySlotA_0 : ∃ (s : State), s.bootAt 5 = true ∧ s.g TOP_STRAP.BOOTSRC = 0 ∧ s.pln.order = [] ∧
    (s.slotF 0).valid = true ∧ (s.slotF 1).valid = true ∧ pageSeq (s.slotF 0).page = pageSeq (s.slotF 1).page :=
  ⟨twoSlots, by decide +kernel, by decide +kernel, rfl, slotFile_valid 5 (by decide), slotFile_valid 5 (by decide), rfl⟩

/-- The hypotheses of `LateTicksAreRefused` meet. -/
theorem wit_LateTicksAreRefused_0 : ∃ (m : Fin 16) (w : BitVec 32) (s : State), s.passes m TML_E_TIME_LO.addr true = true ∧ 25000 ≤ w.toNat % 32768 :=
  ⟨1, 25000#32, up, by decide +kernel⟩

/-- The hypotheses of `LateTicksAreRefused` meet. -/
theorem wit_LateTicksAreRefused_1 : ∃ (c : Fin 12) (seq : Fin 16) (words : List (BitVec 32)) (s : State), c.val < 8 ∧
    s.accepts 0xA0 (s.ask c seq words) = true ∧ 25000 ≤ (s.ask c seq words).w 2 % 32768 :=
  ⟨2, 1, 0xA0#32 :: 0#32 :: 25000#32 :: List.replicate 8 0#32, cmdb, by decide +kernel⟩

/-- The hypotheses of `LateTicksAreRefused` meet. -/
theorem wit_LateTicksAreRefused_2 : ∃ (s : State) (y : Nat), y < 5 ∧ s.now y = 1200 * 32768 + 22000 ∧ (vat s.yards y).tick < 25000 :=
  ⟨up.yardMod 2 fun v => { v with iv := 1200, tick := 22000 }, 2, by decide +kernel⟩

/-- The hypotheses of clause 0 of `ResetsComplete` meet: POR_ASSERT. -/
theorem wit_ResetsComplete_0_porAssert : ∃ (s : State), s.boot.held ≠ 1 :=
  ⟨up, by decide +kernel⟩

/-- The hypotheses of clause 1 of `ResetsComplete` meet: POR_RELEASE. -/
theorem wit_ResetsComplete_1_porRelease : ∃ (s : State), s.boot.held = 1 :=
  ⟨up.bootMod fun b => { b with held := 1 }, by decide +kernel⟩

/-- The hypotheses of clause 2 of `ResetsComplete` meet: RESET_N_ASSERT. -/
theorem wit_ResetsComplete_2_resetNAssert : ∃ (s : State), s.boot.held = 0 :=
  ⟨up, by decide +kernel⟩

/-- The hypotheses of clause 3 of `ResetsComplete` meet: RESET_N_RELEASE. -/
theorem wit_ResetsComplete_3_resetNRelease : ∃ (s : State), s.boot.held = 2 ∧ s.on FLT_STATUS.GRAVE = false :=
  ⟨up.bootMod fun b => { b with held := 2 }, by decide +kernel⟩

/-- The hypotheses of clause 4 of `ResetsComplete` meet: CHIP_RESET_BEGIN. -/
theorem wit_ResetsComplete_4_chipResetBegin : ∃ (s : State), s.boot.asked = true ∧ s.boot.held = 0 ∧ s.pln.commit = 0 ∧ s.flt.writing = 0 :=
  ⟨up.bootMod fun b => { b with asked := true }, by decide +kernel⟩

/-- The hypotheses of clause 5 of `ResetsComplete` meet: XTAL_RESTART_TIMER. -/
theorem wit_ResetsComplete_5_xtalRestartTimer : ∃ (ready : Bool) (s : State), s.mode = 4 ∧ s.boot.held = 0 ∧ s.sticky 7 = true ∧ ready = true ∧ s.arisesNow 7 = false :=
  ⟨true, (up.p TOP_MODE.MODE 4).setWord (FLT_STICKY.addr 0) 0x80#32, by decide +kernel⟩

/-- The hypotheses of clause 6 of `ResetsComplete` meet: SAFE_EXIT. -/
theorem wit_ResetsComplete_6_safeExit : ∃ (s : State), s.boot.held = 0 ∧ s.mode = 4 ∧ s.on FLT_STATUS.GRAVE = false ∧ s.chipSticky = false ∧ s.pln.commit = 0 ∧ s.boot.planned = false :=
  ⟨up.p TOP_MODE.MODE 4, by decide +kernel⟩

/-- The hypotheses of clause 7 of `ResetsComplete` meet: SAFE_EXIT. -/
theorem wit_ResetsComplete_7_safeExit : ∃ (s : State), s.boot.held = 0 ∧ s.mode = 4 ∧ s.on FLT_STATUS.GRAVE = false ∧ s.chipSticky = false ∧ s.pln.commit = 0 ∧ s.boot.planned = true :=
  ⟨(up.p TOP_MODE.MODE 4).bootMod fun b => { b with planned := true }, by decide +kernel⟩

/-- The hypotheses of clause 0 of `BootStepsComplete` meet: RAILS_IN_WINDOW. -/
theorem wit_BootStepsComplete_0_railsInWindow : ∃ (s : State), s.bootAt 1 = true :=
  ⟨up.p TOP_MODE.BOOT_STEP 1, by decide +kernel⟩

/-- The hypotheses of clause 1 of `BootStepsComplete` meet: RAIL_WINDOW_TIMEOUT. -/
theorem wit_BootStepsComplete_1_railWindowTimeout : ∃ (s : State), s.bootAt 1 = true :=
  ⟨up.p TOP_MODE.BOOT_STEP 1, by decide +kernel⟩

/-- The hypotheses of clause 2 of `BootStepsComplete` meet: CRYSTAL_READY. -/
theorem wit_BootStepsComplete_2_crystalReady : ∃ (ok : Bool) (s : State), s.bootAt 2 = true ∧ ok = true :=
  ⟨true, up.p TOP_MODE.BOOT_STEP 2, by decide +kernel⟩

/-- The hypotheses of clause 3 of `BootStepsComplete` meet: CRYSTAL_READY. -/
theorem wit_BootStepsComplete_3_crystalReady : ∃ (ok : Bool) (s : State), s.bootAt 2 = true ∧ ok = false :=
  ⟨false, up.p TOP_MODE.BOOT_STEP 2, by decide +kernel⟩

/-- The hypotheses of clause 4 of `BootStepsComplete` meet: CRYSTAL_NOT_READY. -/
theorem wit_BootStepsComplete_4_crystalNotReady : ∃ (s : State), s.bootAt 2 = true ∧ s.boot.tries < 2 :=
  ⟨up.p TOP_MODE.BOOT_STEP 2, by decide +kernel⟩

/-- The hypotheses of clause 5 of `BootStepsComplete` meet: CRYSTAL_NOT_READY. -/
theorem wit_BootStepsComplete_5_crystalNotReady : ∃ (s : State), s.bootAt 2 = true ∧ 2 ≤ s.boot.tries :=
  ⟨(up.p TOP_MODE.BOOT_STEP 2).bootMod fun b => { b with tries := 2 }, by decide +kernel⟩

/-- The hypotheses of clause 6 of `BootStepsComplete` meet: MAKER_WINDOW_END. -/
theorem wit_BootStepsComplete_6_makerWindowEnd : ∃ (s : State), s.bootAt 4 = true :=
  ⟨up.p TOP_MODE.BOOT_STEP 4, by decide +kernel⟩

/-- The hypotheses of clause 7 of `BootStepsComplete` meet: MAKER_KEYED_MESSAGE. -/
theorem wit_BootStepsComplete_7_makerKeyedMessage : ∃ (s : State), s.bootAt 4 = true :=
  ⟨up.p TOP_MODE.BOOT_STEP 4, by decide +kernel⟩

/-- The hypotheses of clause 8 of `BootStepsComplete` meet: FLASH_BUSY_POLL_END. -/
theorem wit_BootStepsComplete_8_flashBusyPollEnd : ∃ (ok : Bool) (s : State), s.bootAt 5 = true ∧ s.g TOP_STRAP.BOOTSRC = 0 ∧ s.pln.order = [] ∧ ok = false :=
  ⟨false, up.p TOP_MODE.BOOT_STEP 5, by decide +kernel⟩

/-- The hypotheses of clause 9 of `BootStepsComplete` meet: FLASH_BUSY_POLL_END. -/
theorem wit_BootStepsComplete_9_flashBusyPollEnd : ∃ (ok : Bool) (s : State), s.bootAt 5 = true ∧ s.g TOP_STRAP.BOOTSRC = 0 ∧ s.pln.order = [] ∧ ok = true :=
  ⟨true, up.p TOP_MODE.BOOT_STEP 5, by decide +kernel⟩

/-- The hypotheses of clause 10 of `BootStepsComplete` meet: SLOT_VERIFY_DONE. -/
theorem wit_BootStepsComplete_10_slotVerifyDone : ∃ (k : _) (l : _) (s : State), s.bootAt 5 = true ∧ s.pln.order = k :: l :=
  ⟨0, [], (up.p TOP_MODE.BOOT_STEP 5).plnMod fun x => { x with order := [0] }, by decide +kernel⟩

/-- The hypotheses of clause 11 of `BootStepsComplete` meet: PLAN_ACTIVATION_DONE. -/
theorem wit_BootStepsComplete_11_planActivationDone : ∃ (same : Bool) (p : _) (src : _) (s : State), s.bootAt 6 = true ∧ s.pln.cand = some (p, src) ∧ same = true :=
  ⟨true, Plan.empty, 1, (up.p TOP_MODE.BOOT_STEP 6).plnMod fun x => { x with cand := some (Plan.empty, 1) }, by decide +kernel⟩

/-- The hypotheses of clause 12 of `BootStepsComplete` meet: BOOT_DOMAINS_READY. -/
theorem wit_BootStepsComplete_12_bootDomainsReady : ∃ (vinOk : Bool) (s : State), s.bootAt 7 = true ∧ s.on TOP_STRAP.LIFE_SUPPLY = true ∧ vinOk = true :=
  ⟨true, (up.p TOP_MODE.BOOT_STEP 7).p TOP_STRAP.LIFE_SUPPLY 1, by decide +kernel⟩

/-- The hypotheses of clause 13 of `BootStepsComplete` meet: BOOT_DOMAINS_READY. -/
theorem wit_BootStepsComplete_13_bootDomainsReady : ∃ (s : State), s.bootAt 7 = true ∧ s.on TOP_STRAP.LIFE_SUPPLY = false :=
  ⟨up.p TOP_MODE.BOOT_STEP 7, by decide +kernel⟩

/-- The hypotheses of clause 14 of `BootStepsComplete` meet: UPSTREAM_DATA_CONNECT. -/
theorem wit_BootStepsComplete_14_upstreamDataConnect : ∃ (u : Fin 2) (s : State), s.serving = true ∧ s.on (TCP_PORT.DATA_ON (15 + u)) = true ∧ s.barnReady = true ∧ s.on (UPP_PADDOCK.BOUND u) = true ∧ s.g (UPP_PADDOCK.STATE u) = 1 :=
  ⟨1, (up.fields [(TOP_MODE.MODE, 3), (TCP_PORT.DATA_ON 16, 1), (DRV_BARN.FORMED, 1), (UPP_PADDOCK.BOUND 1, 1), (UPP_PADDOCK.STATE 1, 1)]).fabMod fun f => { f with numbered := true }, by decide +kernel⟩

/-- The hypotheses of clause 0 of `LifelineComplete` meet: STARTER_ARMED. -/
theorem wit_LifelineComplete_0_starterArmed : ∃ (lifeEn : Bool) (s : State), lifeEn = true ∧ s.boot.held = 1 ∧ s.boot.starter = 0 ∧ s.boot.starterFlag = false :=
  ⟨true, up.bootMod fun b => { b with held := 1 }, by decide +kernel⟩

/-- The hypotheses of clause 1 of `LifelineComplete` meet: STARTER_SINK_PATH_CLOSED. -/
theorem wit_LifelineComplete_1_starterSinkPathClosed : ∃ (s : State), s.boot.held = 1 ∧ s.boot.starter = 1 :=
  ⟨up.bootMod fun b => { b with held := 1, starter := 1 }, by decide +kernel⟩

/-- The hypotheses of clause 3 of `LifelineComplete` meet: LIFELINE_VIN_RESTORED. -/
theorem wit_LifelineComplete_3_lifelineVinRestored : ∃ (s : State), s.onSinkPath = true :=
  ⟨(up.p TOP_MODE.MODE 1).p TOP_STRAP.LIFE_SUPPLY 1, by decide +kernel⟩

/-- The hypotheses of clause 4 of `LifelineComplete` meet: LIFELINE_HANDOVER_DONE. -/
theorem wit_LifelineComplete_4_lifelineHandoverDone : ∃ (s : State), s.onSinkPath = true ∧ s.boot.handover = true :=
  ⟨((up.p TOP_MODE.MODE 1).p TOP_STRAP.LIFE_SUPPLY 1).bootMod fun b => { b with handover := true }, by decide +kernel⟩

/-- The hypotheses of clause 0 of `YardCommandsComplete` meet: SOF_RECEIVED. -/
theorem wit_YardCommandsComplete_0_sofReceived : ∃ (u : Fin 2) (frame : Fin 2048) (y : _) (s : State), s.slotOf u = some y ∧ y < 4 ∧ s.isHome y = true ∧ bitOf (s.g YRD_CTRL.FORCE_COAST) y = false ∧ ((vat s.yards y).sofIv = nearestIv (vat s.yards y).iv (frame * 8 + (if (vat s.yards y).frame = frame then min 7 ((vat s.yards y).micro + 1) else 0)) + 1 → s.refTaken y (nearestIv (vat s.yards y).iv (frame * 8 + (if (vat s.yards y).frame = frame then min 7 ((vat s.yards y).micro + 1) else 0))) = false) :=
  ⟨0, 3, 2, home, by decide +kernel⟩

/-- The hypotheses of clause 1 of `YardCommandsComplete` meet: ITP_RECEIVED. -/
theorem wit_YardCommandsComplete_1_itpReceived : ∃ (u : Fin 2) (y : _) (s : State), s.g (SSH_PORT.LINK (15 + u)) = 0 ∧ s.slotOf u = some y ∧ y < 4 :=
  ⟨0, 2, home.fields [(SSH_CTRL.ITP_EN, 1), (SSH_PORT.LINK 15, 0)], by decide +kernel⟩

/-- The hypotheses of clause 2 of `YardCommandsComplete` meet: YARD_COAST. -/
theorem wit_YardCommandsComplete_2_yardCoast : ∃ (y : Fin 4) (s : State), s.isHome y = true ∧ s.refAhead y = false ∧ (vat s.yards y).lastRef + 3 ≤ (vat s.yards y).iv ∧ s.g (YRD_STATUS.STATE y) = 2 :=
  ⟨2, (home.p (YRD_STATUS.STATE 2) 2).yardMod 2 fun v => { v with iv := 3 }, by decide +kernel⟩

/-- The hypotheses of clause 3 of `YardCommandsComplete` meet: BARN_TIME_BROADCAST. -/
theorem wit_YardCommandsComplete_3_barnTimeBroadcast : ∃ (s : State), (vat s.yards 4).tick = 0 ∧ s.isLead = true :=
  ⟨up.p YRD_BARN.LEAD up.member, by decide +kernel⟩

/-- The hypotheses of clause 4 of `YardCommandsComplete` meet: BARN_TIME_RECEIVED. -/
theorem wit_YardCommandsComplete_4_barnTimeReceived : ∃ (h : BaleHdr) (s : State), s.g (GLK_LINK.STATE h.link) = 4 ∧ s.ctrlFits = true ∧ (s.rxCtrlBale h).isLead = false ∧ s.on YRD_BARN.SYNCED = false :=
  ⟨bh, (up.p (GLK_LINK.STATE 0) 4).p YRD_BARN.LEAD 3, by decide +kernel⟩

/-- The hypotheses of clause 5 of `YardCommandsComplete` meet: YARD_DESCRIPTOR_TIMEOUT. -/
theorem wit_YardCommandsComplete_5_yardDescriptorTimeout : ∃ (y : Fin 4) (s : State), s.slotBound y = true ∧ s.isHome y = false ∧ s.g (YRD_STATUS.STATE y) ≠ 0 :=
  ⟨2, (home.withFab { home.fab with member := 5 }).p (YRD_STATUS.STATE 2) 2, by decide +kernel⟩

/-- The hypotheses of clause 6 of `YardCommandsComplete` meet: YARD_DESCRIPTOR_RECEIVED. -/
theorem wit_YardCommandsComplete_6_yardDescriptorReceived : ∃ (c : CtrlHdr) (y : Fin 4) (value : Nat) (rate : Nat) (st : Fin 4) (coarse : Bool) (u : _) (s : State), Taken c s ∧ s.rxCtrl c "YARD_DESCRIPTOR" [y.val, value, rate, st.val, b2n coarse] id = u ∧ u.isCopy y = true ∧ (u.homeOf y).map (·.1) = some c.src.val :=
  ⟨(ch 0 0), 2, 0, 0, 2, false, ((home.withFab { home.fab with member := 5 }).p (GLK_LINK.STATE 0) 4).rxCtrl ((ch 0 0)) "YARD_DESCRIPTOR" [2, (0), (0), 2, b2n (false)] id, (home.withFab { home.fab with member := 5 }).p (GLK_LINK.STATE 0) 4, by decide +kernel⟩

/-- The hypotheses of clause 0 of `TimelineCommandsComplete` meet: TIMELINE_WAKE_LEAD. -/
theorem wit_TimelineCommandsComplete_0_timelineWakeLead : ∃ (w : WakeOf) (i : _) (d : _) (s : State), w = .entry i ∧ s.live (s.entry i) = true ∧ d ∈ s.needs (s.entry i).action (s.entry i).target ∧ 0 < s.lead d ∧ (s.entry i).due ≤ s.yticks (s.entry i).yard + s.lead d :=
  ⟨(.entry 3), 3, 2, (ent 3 { valid := true, yard := 4, action := 1, target := 2, due := 1000 }).p (PDC_DOM.STATE 2) 2, by decide +kernel⟩

/-- The hypotheses of clause 1 of `TimelineCommandsComplete` meet: TIMELINE_WAKE_LEAD. -/
theorem wit_TimelineCommandsComplete_1_timelineWakeLead : ∃ (w : WakeOf) (n : _) (s : State), w = .pattern n ∧ s.g (TML_PAT.STATE n) = 2 ∧ s.on (PDC_CFG.PREDICT (portDom n)) = true ∧ s.on TML_CTRL.PRED_EN = true ∧ 0 < s.lead (portDom n) ∧ (vat s.pat n).pred * 25000 ≤ s.yticks (s.stallYard n) + s.lead (portDom n) ∧ s.yticks (s.stallYard n) < (vat s.pat n).pred * 25000 + 75000 :=
  ⟨(.pattern 1), 1, ((up.fields [(TML_PAT.STATE 1, 2), (PDC_CFG.PREDICT (portDom 1), 1), (TML_CTRL.PRED_EN, 1), (PDC_DOM.STATE (portDom 1), 2)]).withPat (vset up.pat 1 { pred := 0 })), by decide +kernel⟩

/-- The hypotheses of clause 2 of `TimelineCommandsComplete` meet: DOMAIN_WAKE. -/
theorem wit_TimelineCommandsComplete_2_domainWake : ∃ (i : Fin 256) (s : State), (s.entry i).action = 1 ∧ s.oldEntry i = none ∧ s.marks.contains (.edited i) = false ∧ s.runnable (s.entry i) = true ∧ s.firstOfTick i = true ∧ s.needFailed (s.entry i) = false :=
  ⟨3, ent 3 { valid := true, yard := 4, action := 1, target := 2, due := 0 }, by decide +kernel⟩

/-- The hypotheses of clause 3 of `TimelineCommandsComplete` meet: TLM_SAMPLE. -/
theorem wit_TimelineCommandsComplete_3_tlmSample : ∃ (i : Fin 256) (n : _) (s : State), (s.entry i).action = 2 ∧ s.oldEntry i = none ∧ s.marks.contains (.edited i) = false ∧ s.runnable (s.entry i) = true ∧ s.firstOfTick i = true ∧ s.needFailed (s.entry i) = false ∧ portIx (s.entry i).target = some n :=
  ⟨3, 1, ent 3 { valid := true, yard := 4, action := 2, target := 1, due := 0 }, by decide +kernel⟩

/-- The hypotheses of clause 4 of `TimelineCommandsComplete` meet: PD_KEEPALIVE. -/
theorem wit_TimelineCommandsComplete_4_pdKeepalive : ∃ (i : Fin 256) (n : _) (s : State), (s.entry i).action = 3 ∧ s.oldEntry i = none ∧ s.marks.contains (.edited i) = false ∧ s.runnable (s.entry i) = true ∧ s.firstOfTick i = true ∧ s.needFailed (s.entry i) = false ∧ portIx (s.entry i).target = some n :=
  ⟨3, 1, ent 3 { valid := true, yard := 4, action := 3, target := 1, due := 0 }, by decide +kernel⟩

/-- The hypotheses of clause 5 of `TimelineCommandsComplete` meet: DOORBELL. -/
theorem wit_TimelineCommandsComplete_5_doorbell : ∃ (i : Fin 256) (s : State), (s.entry i).action = 4 ∧ s.oldEntry i = none ∧ s.marks.contains (.edited i) = false ∧ s.runnable (s.entry i) = true ∧ s.firstOfTick i = true ∧ s.needFailed (s.entry i) = false ∧ (s.entry i).target < 12 :=
  ⟨3, ent 3 { valid := true, yard := 4, action := 4, target := 1, due := 0 }, by decide +kernel⟩

/-- The hypotheses of clause 6 of `TimelineCommandsComplete` meet: GPIO_SET. -/
theorem wit_TimelineCommandsComplete_6_gpioSet : ∃ (i : Fin 256) (s : State), (s.entry i).action = 5 ∧ s.oldEntry i = none ∧ s.marks.contains (.edited i) = false ∧ s.runnable (s.entry i) = true ∧ s.firstOfTick i = true ∧ s.needFailed (s.entry i) = false ∧ (s.entry i).target < 32 ∧ s.g (GPI_CFG.FUNCTION (s.entry i).target) = 1 :=
  ⟨3, (ent 3 { valid := true, yard := 4, action := 5, target := 7, due := 0 }).p (GPI_CFG.FUNCTION 7) 1, by decide +kernel⟩

/-- The hypotheses of clause 7 of `TimelineCommandsComplete` meet: GPIO_CLEAR. -/
theorem wit_TimelineCommandsComplete_7_gpioClear : ∃ (i : Fin 256) (s : State), (s.entry i).action = 6 ∧ s.oldEntry i = none ∧ s.marks.contains (.edited i) = false ∧ s.runnable (s.entry i) = true ∧ s.firstOfTick i = true ∧ s.needFailed (s.entry i) = false ∧ (s.entry i).target < 32 ∧ s.g (GPI_CFG.FUNCTION (s.entry i).target) = 1 :=
  ⟨3, (ent 3 { valid := true, yard := 4, action := 6, target := 7, due := 0 }).p (GPI_CFG.FUNCTION 7) 1, by decide +kernel⟩

/-- The hypotheses of clause 8 of `TimelineCommandsComplete` meet: FABRIC_HEARTBEAT. -/
theorem wit_TimelineCommandsComplete_8_fabricHeartbeat : ∃ (i : Fin 256) (s : State), (s.entry i).action = 7 ∧ s.oldEntry i = none ∧ s.marks.contains (.edited i) = false ∧ s.runnable (s.entry i) = true ∧ s.firstOfTick i = true ∧ s.needFailed (s.entry i) = false ∧ (((s.advanceEntry i).mark .dispatched).pmu 0x14 i).glkTrained (s.entry i).target = true :=
  ⟨3, (ent 3 { valid := true, yard := 4, action := 7, target := 1, due := 0 }).p (GLK_LINK.STATE 1) 4, by decide +kernel⟩

/-- The hypotheses of clause 9 of `TimelineCommandsComplete` meet: BUDGET_REVIEW. -/
theorem wit_TimelineCommandsComplete_9_budgetReview : ∃ (i : Fin 256) (s : State), (s.entry i).action = 8 ∧ s.oldEntry i = none ∧ s.marks.contains (.edited i) = false ∧ s.runnable (s.entry i) = true ∧ s.firstOfTick i = true ∧ s.needFailed (s.entry i) = false :=
  ⟨3, ent 3 { valid := true, yard := 4, action := 8, target := 0, due := 0 }, by decide +kernel⟩

/-- The hypotheses of clause 10 of `TimelineCommandsComplete` meet: TT_PREWAKE. -/
theorem wit_TimelineCommandsComplete_10_ttPrewake : ∃ (i : Fin 256) (s : State), (s.entry i).action = 9 ∧ s.oldEntry i = none ∧ s.marks.contains (.edited i) = false ∧ s.runnable (s.entry i) = true ∧ s.firstOfTick i = true ∧ s.needFailed (s.entry i) = false :=
  ⟨3, ent 3 { valid := true, yard := 4, action := 9, target := 0, due := 0 }, by decide +kernel⟩

/-- The hypotheses of clause 11 of `TimelineCommandsComplete` meet: TML_ENABLE. -/
theorem wit_TimelineCommandsComplete_11_tmlEnable : ∃ (m : Fin 16) (s : State), s.passes m TML_CTRL.addr true = true :=
  ⟨1, up, by decide +kernel⟩

/-- The hypotheses of clause 12 of `TimelineCommandsComplete` meet: PREDICTOR_CHOICE. -/
theorem wit_TimelineCommandsComplete_12_predictorChoice : ∃ (d : Fin 12) (s : State), d.val ≠ 0 ∧ s.floor d ≠ 2 ∧ s.domOn d = true :=
  ⟨3, quiet, by decide +kernel⟩

/-- The hypotheses of clause 13 of `TimelineCommandsComplete` meet: OBSERVATION_WINDOW_END. -/
theorem wit_TimelineCommandsComplete_13_observationWindowEnd : ∃ (d : Fin 12), d.val ≠ 0 :=
  ⟨3, by decide +kernel⟩

/-- The hypotheses of clause 14 of `TimelineCommandsComplete` meet: BURST_START. -/
theorem wit_TimelineCommandsComplete_14_burstStart : ∃ (n : Stall) (s : State), s.g (TML_PAT.STATE n) = 0 :=
  ⟨4, up, by decide +kernel⟩

/-- The hypotheses of clause 15 of `TimelineCommandsComplete` meet: BURST_START. -/
theorem wit_TimelineCommandsComplete_15_burstStart : ∃ (n : Stall) (s : State), s.g (TML_PAT.STATE n) = 2 :=
  ⟨4, up.p (TML_PAT.STATE 4) 2, by decide +kernel⟩

/-- The hypotheses of clause 16 of `TimelineCommandsComplete` meet: PREDICTION_WINDOW_MISS. -/
theorem wit_TimelineCommandsComplete_16_predictionWindowMiss : ∃ (n : Stall) (s : State), s.g (TML_PAT.STATE n) = 2 ∧ (vat s.pat n).pred + 2 < (vat s.yards (s.stallYard n)).iv ∧ (s.windowCloses n && s.burstAhead n) = false ∧ (vat s.pat n).misses = 0 :=
  ⟨4, (up.p (TML_PAT.STATE 4) 2).yardMod 4 fun v => { v with iv := 9 }, by decide +kernel⟩

/-- The hypotheses of clause 17 of `TimelineCommandsComplete` meet: PREDICTION_WINDOW_MISS. -/
theorem wit_TimelineCommandsComplete_17_predictionWindowMiss : ∃ (n : Stall) (s : State), s.g (TML_PAT.STATE n) = 2 ∧ (vat s.pat n).pred + 2 < (vat s.yards (s.stallYard n)).iv ∧ (s.windowCloses n && s.burstAhead n) = false ∧ 1 ≤ (vat s.pat n).misses :=
  ⟨4, ((up.p (TML_PAT.STATE 4) 2).withPat (vset up.pat 4 { misses := 1 })).yardMod 4 fun v => { v with iv := 9 }, by decide +kernel⟩

/-- The hypotheses of clause 1 of `DomainCommandsComplete` meet: DOMAIN_ENTRY_STEP_DONE. -/
theorem wit_DomainCommandsComplete_1_domainEntryStepDone : ∃ (d : Fin 12) (s : State), (s.dom d).step = .clockStop :=
  ⟨3, up.domStep 3 .clockStop, by decide +kernel⟩

/-- The hypotheses of clause 2 of `DomainCommandsComplete` meet: DOMAIN_ENTRY_STEP_DONE. -/
theorem wit_DomainCommandsComplete_2_domainEntryStepDone : ∃ (d : Fin 12) (s : State), (s.dom d).step = .isolate :=
  ⟨3, up.domStep 3 .isolate, by decide +kernel⟩

/-- The hypotheses of clause 3 of `DomainCommandsComplete` meet: SWITCH_OPEN_TIMEOUT. -/
theorem wit_DomainCommandsComplete_3_switchOpenTimeout : ∃ (d : Fin 12) (s : State), (s.dom d).step = .move ∧ s.g (PDC_DOM.TARGET d) = 2 :=
  ⟨3, (up.domStep 3 .move).p (PDC_DOM.TARGET 3) 2, by decide +kernel⟩

/-- The hypotheses of clause 4 of `DomainCommandsComplete` meet: DOMAIN_EXIT_STEP_DONE. -/
theorem wit_DomainCommandsComplete_4_domainExitStepDone : ∃ (d : Fin 12) (s : State), (s.dom d).step = .railUp :=
  ⟨3, up.domStep 3 .railUp, by decide +kernel⟩

/-- The hypotheses of clause 5 of `DomainCommandsComplete` meet: DOMAIN_EXIT_STEP_DONE. -/
theorem wit_DomainCommandsComplete_5_domainExitStepDone : ∃ (d : Fin 12) (s : State), (s.dom d).step = .closeSwitch :=
  ⟨3, up.domStep 3 .closeSwitch, by decide +kernel⟩

/-- The hypotheses of clause 6 of `DomainCommandsComplete` meet: DOMAIN_EXIT_TIMEOUT. -/
theorem wit_DomainCommandsComplete_6_domainExitTimeout : ∃ (d : Fin 12) (s : State), (s.dom d).step = .railUp ∧ (s.dom d).from_ ≠ 2 ∧ s.g (PDC_DOM.TRIES d) + 1 ≤ s.g PDC_X_TIME.RETRIES :=
  ⟨3, up.domStep 3 .railUp, by decide +kernel⟩

/-- The hypotheses of clause 7 of `DomainCommandsComplete` meet: DOMAIN_EXIT_RETRY. -/
theorem wit_DomainCommandsComplete_7_domainExitRetry : ∃ (d : Fin 12) (s : State), (s.dom d).step = .retryWait :=
  ⟨3, up.domStep 3 .retryWait, by decide +kernel⟩

/-- The hypotheses of clause 8 of `DomainCommandsComplete` meet: CRYSTAL_STOP. -/
theorem wit_DomainCommandsComplete_8_crystalStop : ∃ (s : State), s.on PDC_XTAL.STOP_EN = true ∧ s.on PDC_XTAL.RUNNING = true ∧ (List.range 12).all (fun d => s.floor d = 0) = true ∧ s.farEvents = true :=
  ⟨quiet, by decide +kernel⟩

/-- The hypotheses of clause 9 of `DomainCommandsComplete` meet: CRYSTAL_RESTART. -/
theorem wit_DomainCommandsComplete_9_crystalRestart : ∃ (s : State), s.serving = true ∧ s.on PDC_XTAL.RUNNING = false ∧ s.farEvents = false :=
  ⟨(ent 3 { valid := true, yard := 4, action := 1, target := 2, due := 0 }).p TOP_MODE.MODE 3, by decide +kernel⟩

/-- The hypotheses of clause 10 of `DomainCommandsComplete` meet: JTAG_TAP_LEAVE_TEST_LOGIC_RESET. -/
theorem wit_DomainCommandsComplete_10_jtagTapLeaveTestLogicReset : ∃ (s : State), s.boot.held = 0 :=
  ⟨up, by decide +kernel⟩

/-- The hypotheses of clause 0 of `QueuesAndFaultsComplete` meet: QUEUE_RECORD_WRITE. -/
theorem wit_QueuesAndFaultsComplete_0_queueRecordWrite : ∃ (q : Fin 4) (r : _) (s : State), (vat s.obs q).writing = some r ∧ (vat s.obs q).waiting = [] :=
  ⟨1, ⟨3, 4, [0, 0]⟩, up.obsMod 1 fun o => { o with writing := some ⟨3, 4, [0, 0]⟩ }, by decide +kernel⟩

/-- The hypotheses of clause 1 of `QueuesAndFaultsComplete` meet: QUEUE_READ_STALL_TIMEOUT. -/
theorem wit_QueuesAndFaultsComplete_1_queueReadStallTimeout : ∃ (q : Fin 4) (s : State), (vat s.obs q).stalled = true :=
  ⟨1, up.obsMod 1 fun o => { o with stalled := true }, by decide +kernel⟩

/-- The hypotheses of clause 2 of `QueuesAndFaultsComplete` meet: FAULT_RAISED. -/
theorem wit_QueuesAndFaultsComplete_2_faultRaised : ∃ (src : Fin 128) (s : State), faultExists src = true ∧ s.masked src = false ∧ s.mode ≠ 0 ∧ s.boot.held = 0 :=
  ⟨7, up.p TOP_MODE.MODE 3, by decide +kernel⟩

/-- The hypotheses of clause 3 of `QueuesAndFaultsComplete` meet: SELF_CHECK. -/
theorem wit_QueuesAndFaultsComplete_3_selfCheck : ∃ (ok : Bool) (s : State), ok = false ∧ s.boot.held = 0 :=
  ⟨false, up, by decide +kernel⟩

/-- The hypotheses of clause 0 of `PowerChannelsComplete` meet: RAMP_START. -/
theorem wit_PowerChannelsComplete_0_rampStart : ∃ (n : Channel) (s : State), s.domOn dPPA = true ∧ s.canRamp n = true ∧ s.mode ≠ 1 :=
  ⟨15, ((up.fields [(TOP_MODE.MODE, 3), (PPW_CTRL.ENABLE, 1)]).chMod 15 fun c => { c with attached := true, vbusLow := true }), by decide +kernel⟩

/-- The hypotheses of clause 1 of `PowerChannelsComplete` meet: RAMP_START. -/
theorem wit_PowerChannelsComplete_1_rampStart : ∃ (n : Channel) (s : State), s.canRamp n = true ∧ s.domOn dPPA = false :=
  ⟨15, (((up.fields [(TOP_MODE.MODE, 3), (PPW_CTRL.ENABLE, 1)]).chMod 15 fun c => { c with attached := true, vbusLow := true })).p (PDC_DOM.STATE dPPA) 2, by decide +kernel⟩

/-- The hypotheses of clause 3 of `PowerChannelsComplete` meet: ATTEMPT_WINDOW_END. -/
theorem wit_PowerChannelsComplete_3_attemptWindowEnd : ∃ (n : Channel) (s : State), s.tripCh n = s.ch n ∧ (s.ch n).attempt = true ∧ (s.ch n).rampDone = true ∧ (s.ch n).gate = true :=
  ⟨4, up.chMod 4 fun c => { c with gate := true, attempt := true, rampDone := true }, by decide +kernel⟩

/-- The hypotheses of clause 4 of `PowerChannelsComplete` meet: ATTEMPT_WINDOW_END. -/
theorem wit_PowerChannelsComplete_4_attemptWindowEnd : ∃ (n : Channel) (s : State), (s.tripCh n).attempt = true ∧ (s.tripCh n).rampDone = false ∧ (s.tripCh n).gate = true ∧ s.on (PPW_STATUS.SINK n) = false :=
  ⟨4, up.chMod 4 fun c => { c with attempt := true, gate := true }, by decide +kernel⟩

/-- The hypotheses of clause 5 of `PowerChannelsComplete` meet: RETRY_WAIT_END. -/
theorem wit_PowerChannelsComplete_5_retryWaitEnd : ∃ (n : Channel) (s : State), (s.ch n).waiting = true ∧ s.g (PPW_STATUS.STATE n) = 4 :=
  ⟨4, (up.p (PPW_STATUS.STATE 4) 4).chMod 4 fun c => { c with waiting := true }, by decide +kernel⟩

/-- The hypotheses of clause 6 of `PowerChannelsComplete` meet: RETRY_WAIT_END. -/
theorem wit_PowerChannelsComplete_6_retryWaitEnd : ∃ (n : Channel) (s : State), (s.ch n).waiting = true ∧ s.g (PPW_STATUS.STATE n) ≠ 4 :=
  ⟨4, (up.p (PPW_STATUS.STATE 4) 7).chMod 4 fun c => { c with waiting := true }, by decide +kernel⟩

/-- The hypotheses of clause 7 of `PowerChannelsComplete` meet: PG_STABLE_TIMER. -/
theorem wit_PowerChannelsComplete_7_pgStableTimer : ∃ (n : Channel) (s : State), s.on (PPW_STATUS.PG n) = true ∧ s.g (PPW_STATUS.STATE n) ≠ 6 :=
  ⟨4, up.p (PPW_STATUS.PG 4) 1, by decide +kernel⟩

/-- The hypotheses of clause 8 of `PowerChannelsComplete` meet: UNSEATED_RESET_TIMER. -/
theorem wit_PowerChannelsComplete_8_unseatedResetTimer : ∃ (n : Channel) (s : State), s.seated n = false ∧ s.g (PPW_STATUS.STATE n) ≠ 6 :=
  ⟨1, seat, by decide +kernel⟩

/-- The hypotheses of clause 9 of `PowerChannelsComplete` meet: UNSEATED_RESET_TIMER. -/
theorem wit_PowerChannelsComplete_9_unseatedResetTimer : ∃ (n : Channel) (s : State), s.hasCC n = true ∧ (s.ch n).attached = false ∧ s.g (PPW_STATUS.STATE n) = 6 :=
  ⟨15, up.p (PPW_STATUS.STATE 15) 6, by decide +kernel⟩

/-- The hypotheses of clause 11 of `PowerChannelsComplete` meet: SEAT_DEBOUNCE_END. -/
theorem wit_PowerChannelsComplete_11_seatDebounceEnd : ∃ (i : Fin 8) (s : State), s.on (seatBit i) = true :=
  ⟨2, up.p (seatBit 2) 1, by decide +kernel⟩

/-- The hypotheses of clause 12 of `PowerChannelsComplete` meet: SEAT_REMOVAL. -/
theorem wit_PowerChannelsComplete_12_seatRemoval : ∃ (i : Fin 8) (s : State), s.on (seatBit (8 + i)) = true :=
  ⟨2, up.p (seatBit 10) 1, by decide +kernel⟩

/-- The hypotheses of clause 13 of `PowerChannelsComplete` meet: DISCHARGE_DONE. -/
theorem wit_PowerChannelsComplete_13_dischargeDone : ∃ (n : Channel) (s : State), s.on (PPW_STATUS.DISCH n) = true ∧ (s.ch n).gate = false :=
  ⟨4, up.p (PPW_STATUS.DISCH 4) 1, by decide +kernel⟩

/-- The hypotheses of clause 14 of `PowerChannelsComplete` meet: DISCHARGE_TIMEOUT. -/
theorem wit_PowerChannelsComplete_14_dischargeTimeout : ∃ (n : Channel) (s : State), (s.ch n).sinkOff = false ∧ s.on (PPW_STATUS.DISCH n) = true ∧ (s.ch n).gate = false :=
  ⟨4, up.p (PPW_STATUS.DISCH 4) 1, by decide +kernel⟩

/-- The hypotheses of clause 15 of `PowerChannelsComplete` meet: VBUS_RISING_GATE_OFF. -/
theorem wit_PowerChannelsComplete_15_vbusRisingGateOff : ∃ (n : Channel) (s : State), (s.ch n).gate = false ∧ s.on (PPW_STATUS.DISCH n) = false ∧ s.sourceDir n = true :=
  ⟨4, up, by decide +kernel⟩

/-- The hypotheses of clause 16 of `PowerChannelsComplete` meet: PG_ASSERT. -/
theorem wit_PowerChannelsComplete_16_pgAssert : ∃ (n : Channel) (timer : Bool) (s : State), (s.ch n).gate = true ∧ (s.ch n).rampDone = true ∧ timer = false ∧ s.on (PPW_STATUS.TIMER n) = false ∧ (s.ch n).pgWithheld = false :=
  ⟨4, false, up.chMod 4 fun c => { c with gate := true, rampDone := true }, by decide +kernel⟩

/-- The hypotheses of clause 17 of `PowerChannelsComplete` meet: PG_ASSERT. -/
theorem wit_PowerChannelsComplete_17_pgAssert : ∃ (n : Channel) (timer : Bool) (s : State), (s.ch n).gate = true ∧ (s.ch n).rampDone = true ∧ timer = true :=
  ⟨4, true, up.chMod 4 fun c => { c with gate := true, rampDone := true }, by decide +kernel⟩

/-- The hypotheses of clause 18 of `PowerChannelsComplete` meet: PG_HOLD_END. -/
theorem wit_PowerChannelsComplete_18_pgHoldEnd : ∃ (n : Channel) (s : State), (s.ch n).pgWithheld = true ∧ s.on (PPW_STATUS.TIMER n) = false ∧ (s.ch n).rampDone = true :=
  ⟨4, up.chMod 4 fun c => { c with gate := true, rampDone := true, pgWithheld := true }, by decide +kernel⟩

/-- The hypotheses of clause 0 of `TripsComplete` meet: FAST_TRIP. -/
theorem wit_TripsComplete_0_fastTrip : ∃ (n : Channel) (s : State), (s.tripCh n).gate = true :=
  ⟨4, up.chMod 4 fun c => { c with gate := true }, by decide +kernel⟩

/-- The hypotheses of clause 1 of `TripsComplete` meet: SLOW_TRIP. -/
theorem wit_TripsComplete_1_slowTrip : ∃ (n : Channel) (s : State), (s.tripCh n).gate = true ∧ s.fastAhead n = false :=
  ⟨4, up.chMod 4 fun c => { c with gate := true }, by decide +kernel⟩

/-- The hypotheses of clause 2 of `TripsComplete` meet: UNDERVOLTAGE_TRIP. -/
theorem wit_TripsComplete_2_undervoltageTrip : ∃ (n : Channel) (s : State), (s.tripCh n).gate = true ∧ (s.tripCh n).rampDone = true ∧ s.on (PPW_STATUS.SINK n) = false :=
  ⟨4, up.chMod 4 fun c => { c with gate := true, rampDone := true }, by decide +kernel⟩

/-- The hypotheses of clause 3 of `TripsComplete` meet: RAMP_FAIL. -/
theorem wit_TripsComplete_3_rampFail : ∃ (n : Channel) (s : State), (s.tripCh n).gate = true ∧ (s.tripCh n).rampDone = false ∧ s.on (PPW_STATUS.SINK n) = false :=
  ⟨4, up.chMod 4 fun c => { c with gate := true }, by decide +kernel⟩

/-- The hypotheses of clause 4 of `TripsComplete` meet: GATE_STUCK. -/
theorem wit_TripsComplete_4_gateStuck : ∃ (n : Channel) (s : State), (s.tripCh n).gate = true ∧ (s.tripCh n).rampDone = true ∧ s.on (PPW_STATUS.GATE_OK n) = false :=
  ⟨4, up.chMod 4 fun c => { c with gate := true, rampDone := true }, by decide +kernel⟩

/-- The hypotheses of clause 0 of `TypeCCommandsComplete` meet: ATTACH_DETECT. -/
theorem wit_TypeCCommandsComplete_0_attachDetect : ∃ (n : Channel) (acc : Bool) (s : State), s.on TCP_CTRL.ENABLE = true ∧ s.hasCC n = true ∧ acc = false ∧ (s.g (TCP_PORT.STATE n) = 1 ∨ s.g (TCP_PORT.STATE n) = 3) ∧ s.domOn dPPA = true :=
  ⟨15, false, up.fields [(TCP_CTRL.ENABLE, 1), (TCP_PORT.STATE 15, 1)], by decide +kernel⟩

/-- The hypotheses of clause 1 of `TypeCCommandsComplete` meet: ATTACH_DETECT. -/
theorem wit_TypeCCommandsComplete_1_attachDetect : ∃ (n : Channel) (acc : Bool) (s : State), s.domOn dPPA = true ∧ s.on TCP_CTRL.ENABLE = true ∧ s.hasCC n = true ∧ acc = true :=
  ⟨15, true, up.p TCP_CTRL.ENABLE 1, by decide +kernel⟩

/-- The hypotheses of clause 2 of `TypeCCommandsComplete` meet: ATTACH_DETECT. -/
theorem wit_TypeCCommandsComplete_2_attachDetect : ∃ (s : State), s.domOn dPPA = false :=
  ⟨up.p (PDC_DOM.STATE dPPA) 2, by decide +kernel⟩

/-- The hypotheses of clause 3 of `TypeCCommandsComplete` meet: CC_ATTACH_DEBOUNCE_END. -/
theorem wit_TypeCCommandsComplete_3_ccAttachDebounceEnd : ∃ (n : Channel) (s : State), (s.typ n ≠ 3 ∨ (s.tc n).tried = true) ∧ s.g (TCP_PORT.STATE n) = 3 ∧ (s.ch n).vbusLow = false :=
  ⟨15, up.p (TCP_PORT.STATE 15) 3 |>.chMod 15 fun c => { c with vbusLow := false }, by decide +kernel⟩

/-- The hypotheses of clause 4 of `TypeCCommandsComplete` meet: CC_ATTACH_DEBOUNCE_END. -/
theorem wit_TypeCCommandsComplete_4_ccAttachDebounceEnd : ∃ (n : Channel) (s : State), (s.typ n ≠ 3 ∨ (s.tc n).tried = true) ∧ s.g (TCP_PORT.STATE n) = 3 ∧ (s.ch n).vbusLow = true :=
  ⟨15, up.p (TCP_PORT.STATE 15) 3 |>.chMod 15 fun c => { c with vbusLow := true }, by decide +kernel⟩

/-- The hypotheses of clause 5 of `TypeCCommandsComplete` meet: CC_ATTACH_DEBOUNCE_END. -/
theorem wit_TypeCCommandsComplete_5_ccAttachDebounceEnd : ∃ (n : Channel) (s : State), s.typ n = 3 ∧ (s.tc n).tried = false ∧ s.g (TCP_PORT.STATE n) = 3 :=
  ⟨1, pin.fields [(TCP_CTRL.ENABLE, 1), (TOP_MODE.MODE, 3), (TCP_PORT.STATE 1, 3)], by decide +kernel⟩

/-- The hypotheses of clause 6 of `TypeCCommandsComplete` meet: VBUS_DISCHARGED. -/
theorem wit_TypeCCommandsComplete_6_vbusDischarged : ∃ (n : Channel) (s : State), (s.vbusFell n).g (TCP_PORT.STATE n) = 3 ∧ ((s.vbusFell n).tc n).debounced = true ∧ ((s.vbusFell n).ch n).vbusLow = true :=
  ⟨15, (up.p (TCP_PORT.STATE 15) 3).tcMod 15 fun x => { x with debounced := true }, by decide +kernel⟩

/-- The hypotheses of clause 7 of `TypeCCommandsComplete` meet: RAMP_COMPLETE. -/
theorem wit_TypeCCommandsComplete_7_rampComplete : ∃ (n : Channel) (s : State), (s.ch n).gate = true ∧ (s.ch n).rampDone = false :=
  ⟨4, up.chMod 4 fun c => { c with gate := true }, by decide +kernel⟩

/-- The hypotheses of clause 8 of `TypeCCommandsComplete` meet: RAMP_COMPLETE. -/
theorem wit_TypeCCommandsComplete_8_rampComplete : ∃ (n : Channel) (s : State), (s.ch n).gate = true ∧ (s.ch n).rampDone = false ∧ s.on (PPW_STATUS.SINK n) = true :=
  ⟨1, (pin.p (PPW_STATUS.SINK 1) 1).chMod 1 fun c => { c with gate := true }, by decide +kernel⟩

/-- The hypotheses of clause 9 of `TypeCCommandsComplete` meet: DETACH_DEBOUNCE_END. -/
theorem wit_TypeCCommandsComplete_9_detachDebounceEnd : ∃ (n : Channel) (s : State), s.isSource n = true :=
  ⟨15, up.p (TCP_PORT.STATE 15) 6, by decide +kernel⟩

/-- The hypotheses of clause 10 of `TypeCCommandsComplete` meet: SINK_DETACH. -/
theorem wit_TypeCCommandsComplete_10_sinkDetach : ∃ (n : Channel) (s : State), s.isSink n = true :=
  ⟨15, up.p (TCP_PORT.STATE 15) 7, by decide +kernel⟩

/-- The hypotheses of clause 11 of `TypeCCommandsComplete` meet: RD_OPEN_DURING_SLEW. -/
theorem wit_TypeCCommandsComplete_11_rdOpenDuringSlew : ∃ (n : Channel) (s : State), s.isSource n = true ∧ s.on (TCP_VSET.SLEWING n) = true :=
  ⟨15, up.fields [(TCP_PORT.STATE 15, 6), (TCP_VSET.SLEWING 15, 1)], by decide +kernel⟩

/-- The hypotheses of clause 12 of `TypeCCommandsComplete` meet: RD_OPEN_DURING_SLEW. -/
theorem wit_TypeCCommandsComplete_12_rdOpenDuringSlew : ∃ (n : Channel) (isOpen : Bool) (code : BitVec 14) (s : State), s.isSource n = true ∧ s.on (TCP_VSET.SLEWING n) = true ∧ isOpen = true ∧ s.on (TCP_VSET.FROZEN n) = false ∧ min (s.g (TCP_VSET.CODE n)) (s.g (TCP_VSET.TARGET n)) ≤ code.toNat ∧ code.toNat ≤ max (s.g (TCP_VSET.CODE n)) (s.g (TCP_VSET.TARGET n)) :=
  ⟨15, true, 0x9#14, up.fields [(TCP_PORT.STATE 15, 6), (TCP_VSET.SLEWING 15, 1), (TCP_VSET.CODE 15, 0), (TCP_VSET.TARGET 15, 20)], by decide +kernel⟩

/-- The hypotheses of clause 13 of `TypeCCommandsComplete` meet: DRP_TOGGLE. -/
theorem wit_TypeCCommandsComplete_13_drpToggle : ∃ (n : Channel) (s : State), s.typ n = 3 ∧ s.on TCP_CTRL.ENABLE = true ∧ s.mode = 3 ∧ s.g (TCP_PORT.STATE n) = 1 :=
  ⟨1, pin.fields [(TCP_CTRL.ENABLE, 1), (TOP_MODE.MODE, 3), (TCP_PORT.STATE 1, 1)], by decide +kernel⟩

/-- The hypotheses of clause 14 of `TypeCCommandsComplete` meet: DRP_TOGGLE. -/
theorem wit_TypeCCommandsComplete_14_drpToggle : ∃ (n : Channel) (s : State), s.typ n = 3 ∧ s.on TCP_CTRL.ENABLE = true ∧ s.mode = 3 ∧ s.g (TCP_PORT.STATE n) = 2 :=
  ⟨1, pin.fields [(TCP_CTRL.ENABLE, 1), (TOP_MODE.MODE, 3), (TCP_PORT.STATE 1, 2)], by decide +kernel⟩

/-- The hypotheses of clause 15 of `TypeCCommandsComplete` meet: TRY_SNK_TIMEOUT. -/
theorem wit_TypeCCommandsComplete_15_trySnkTimeout : ∃ (n : Channel) (s : State), s.g (TCP_PORT.STATE n) = 5 :=
  ⟨1, up.p (TCP_PORT.STATE 1) 5, by decide +kernel⟩

/-- The hypotheses of clause 16 of `TypeCCommandsComplete` meet: SINK_ATTACH. -/
theorem wit_TypeCCommandsComplete_16_sinkAttach : ∃ (n : Channel) (s : State), n.val ≠ 15 ∧ s.typ n = 3 ∧ s.mode = 3 ∧ s.on TCP_CTRL.ENABLE = true ∧ s.g (TCP_PORT.STATE n) ∈ [1, 2, 4, 5] ∧ s.domOn dPPA = true :=
  ⟨1, pin.fields [(TCP_CTRL.ENABLE, 1), (TOP_MODE.MODE, 3), (TCP_PORT.STATE 1, 2)], by decide +kernel⟩

/-- The hypotheses of clause 17 of `TypeCCommandsComplete` meet: SINK_ATTACH. -/
theorem wit_TypeCCommandsComplete_17_sinkAttach : ∃ (s : State), s.domOn dPPA = false :=
  ⟨up.p (PDC_DOM.STATE dPPA) 2, by decide +kernel⟩

/-- The hypotheses of clause 18 of `TypeCCommandsComplete` meet: ERROR_RECOVERY_END. -/
theorem wit_TypeCCommandsComplete_18_errorRecoveryEnd : ∃ (n : Channel) (s : State), s.g (TCP_PORT.STATE n) = 9 :=
  ⟨16, up.p (TCP_PORT.STATE 16) 9, by decide +kernel⟩

/-- The hypotheses of clause 19 of `TypeCCommandsComplete` meet: HARD_RESET_RECEIVED. -/
theorem wit_TypeCCommandsComplete_19_hardResetReceived : ∃ (n : Channel) (s : State), s.pdOn n = true ∧ (s.isSource n = true ∨ s.isSink n = true) :=
  ⟨15, src, by decide +kernel⟩

/-- The hypotheses of clause 20 of `TypeCCommandsComplete` meet: PS_HARD_RESET_TIMER. -/
theorem wit_TypeCCommandsComplete_20_psHardResetTimer : ∃ (n : Channel) (s : State), (s.tc n).recovering = true :=
  ⟨15, up.tcMod 15 fun x => { x with recovering := true }, by decide +kernel⟩

/-- The hypotheses of clause 21 of `TypeCCommandsComplete` meet: SRC_RECOVER_END. -/
theorem wit_TypeCCommandsComplete_21_srcRecoverEnd : ∃ (n : Channel) (s : State), (s.tc n).recovering = true ∧ s.isSource n = true ∧ (s.tc n).vconnBack = false :=
  ⟨15, (up.p (TCP_PORT.STATE 15) 6).tcMod 15 fun x => { x with recovering := true }, by decide +kernel⟩

/-- The hypotheses of clause 22 of `TypeCCommandsComplete` meet: VCONN_SWAP. -/
theorem wit_TypeCCommandsComplete_22_vconnSwap : ∃ (n : Channel) (s : State), s.pdOn n = true ∧ s.mayVconn n = true ∧ (s.tc n).swap ≠ 3 ∧ s.on (TCP_PORT.VCONN_ON n) = true :=
  ⟨15, src.p (TCP_PORT.VCONN_ON 15) 1, by decide +kernel⟩

/-- The hypotheses of clause 23 of `TypeCCommandsComplete` meet: VCONN_SWAP. -/
theorem wit_TypeCCommandsComplete_23_vconnSwap : ∃ (n : Channel) (s : State), s.pdOn n = true ∧ s.mayVconn n = true ∧ (s.tc n).swap ≠ 3 ∧ s.on (TCP_PORT.VCONN_ON n) = false :=
  ⟨15, src, by decide +kernel⟩

/-- The hypotheses of clause 24 of `TypeCCommandsComplete` meet: PS_RDY_RECEIVED. -/
theorem wit_TypeCCommandsComplete_24_psRdyReceived : ∃ (n : Channel) (s : State), s.pdOn n = true ∧ (s.tc n).swap = 1 :=
  ⟨15, src.tcMod 15 fun x => { x with swap := 1 }, by decide +kernel⟩

/-- The hypotheses of clause 25 of `TypeCCommandsComplete` meet: VCONN_OVERCURRENT. -/
theorem wit_TypeCCommandsComplete_25_vconnOvercurrent : ∃ (n : Channel) (s : State), s.on (TCP_PORT.VCONN_ON n) = true :=
  ⟨15, up.p (TCP_PORT.VCONN_ON 15) 1, by decide +kernel⟩

/-- The hypotheses of clause 26 of `TypeCCommandsComplete` meet: CC_OVERVOLTAGE. -/
theorem wit_TypeCCommandsComplete_26_ccOvervoltage : ∃ (n : Channel) (s : State), s.hasCC n = true :=
  ⟨15, up, by decide +kernel⟩

/-- The hypotheses of clause 27 of `TypeCCommandsComplete` meet: VSET_TRIM. -/
theorem wit_TypeCCommandsComplete_27_vsetTrim : ∃ (n : Channel) (mv : Nat) (limiting : Bool) (s : State), (s.tc n).ppsCut = false ∧ s.on (TCP_VSET.SLEWING n) = false ∧ (s.ch n).rampDone = true ∧ s.on (PPW_STATUS.SINK n) = false ∧ limiting = false ∧ s.on TCP_CTRL.TRIM_EN = true ∧ mv + 20 < 5 * s.g (TCP_VSET.TARGET n) :=
  ⟨4, 4900, false, (up.fields [(TCP_CTRL.TRIM_EN, 1), (TCP_VSET.TARGET 4, 1000)]).chMod 4 fun c => { c with rampDone := true }, by decide +kernel⟩

/-- The hypotheses of clause 0 of `PdSourceComplete` meet: PD_REQUEST. -/
theorem wit_PdSourceComplete_0_pdRequest : ∃ (n : Channel) (s : State), s.pdOn n = true ∧ s.isSource n = true ∧ (s.tc n).trans = .none :=
  ⟨15, src, by decide +kernel⟩

/-- The hypotheses of clause 1 of `PdSourceComplete` meet: PD_REQUEST. -/
theorem wit_PdSourceComplete_1_pdRequest : ∃ (n : Channel) (s : State), s.isSource n = true ∧ (s.tc n).trans ≠ .none ∧ s.pdOn n = true :=
  ⟨15, src.tcMod 15 fun x => { x with trans := .slew }, by decide +kernel⟩

/-- The hypotheses of clause 2 of `PdSourceComplete` meet: SRC_TRANSITION_END. -/
theorem wit_PdSourceComplete_2_srcTransitionEnd : ∃ (n : Channel) (s : State), s.isSource n = true ∧ (s.tc n).trans = .srcTransition :=
  ⟨15, src.tcMod 15 fun x => { x with trans := .srcTransition }, by decide +kernel⟩

/-- The hypotheses of clause 3 of `PdSourceComplete` meet: SLEW_DONE. -/
theorem wit_PdSourceComplete_3_slewDone : ∃ (n : Channel) (s : State), (s.tc n).trans = .slew ∧ s.on (TCP_VSET.FROZEN n) = false :=
  ⟨15, up.tcMod 15 fun x => { x with trans := .slew }, by decide +kernel⟩

/-- The hypotheses of clause 4 of `PdSourceComplete` meet: SETTLE_DONE. -/
theorem wit_PdSourceComplete_4_settleDone : ∃ (n : Channel) (s : State), s.isSource n = true ∧ (s.tc n).trans = .settle ∧ s.detachAhead n = false ∧ (s.tc n).queued = none :=
  ⟨15, src.tcMod 15 fun x => { x with trans := .settle, req := ⟨1, 5000, 3000⟩ }, by decide +kernel⟩

/-- The hypotheses of clause 5 of `PdSourceComplete` meet: PS_RDY_TIMEOUT. -/
theorem wit_PdSourceComplete_5_psRdyTimeout : ∃ (n : Channel) (s : State), s.isSource n = true ∧ (s.tc n).trans ≠ .none :=
  ⟨15, src.tcMod 15 fun x => { x with trans := .slew }, by decide +kernel⟩

/-- The hypotheses of clause 6 of `PdSourceComplete` meet: DISCOVER_IDENTITY_ATTEMPT. -/
theorem wit_PdSourceComplete_6_discoverIdentityAttempt : ∃ (n : Channel) (s : State), s.isSource n = true ∧ s.pdOn n = true ∧ (s.tc n).partnerVconn = false ∧ s.discoveryDue n = true :=
  ⟨15, ((src.withPlan { Plan.empty with sets := [⟨1, 1, 1, 0, [0x1912C]⟩] }).fields [(TCP_CABLE.RA 15, 1), (TCP_PORT.VCONN_ON 15, 1)]).tcMod 15 fun x => { x with capsSet := some (1, 1) }, by decide +kernel⟩

/-- The hypotheses of clause 7 of `PdSourceComplete` meet: SOURCE_CAP_TIMER. -/
theorem wit_PdSourceComplete_7_sourceCapTimer : ∃ (n : Channel) (s : State), s.pdOn n = true ∧ s.isSource n = true ∧ 0 < (s.tc n).capsLeft ∧ s.discoveryDue n = false :=
  ⟨15, src.tcMod 15 fun x => { x with capsLeft := 50 }, by decide +kernel⟩

/-- The hypotheses of clause 8 of `PdSourceComplete` meet: GET_SOURCE_CAP. -/
theorem wit_PdSourceComplete_8_getSourceCap : ∃ (n : Channel) (s : State), s.pdOn n = true ∧ s.isSource n = true :=
  ⟨15, src, by decide +kernel⟩

/-- The hypotheses of clause 9 of `PdSourceComplete` meet: GET_SOURCE_CAP_EXTENDED. -/
theorem wit_PdSourceComplete_9_getSourceCapExtended : ∃ (n : Channel) (hdr : BitVec 16) (s : State), bitsOf hdr.toNat 6 2 ≠ 1 ∧ s.isSource n = true ∧ s.pdOn n = true :=
  ⟨15, 0x0080#16, src, by decide +kernel⟩

/-- The hypotheses of clause 10 of `PdSourceComplete` meet: GET_PPS_STATUS. -/
theorem wit_PdSourceComplete_10_getPpsStatus : ∃ (n : Channel) (hdr : BitVec 16) (s : State), bitsOf hdr.toNat 6 2 ≠ 1 ∧ s.isSource n = true ∧ 2 ≤ s.g (TCP_PORT.CONTRACT n) ∧ s.g (TCP_CONTRACT.KIND n) = 1 ∧ s.pdOn n = true :=
  ⟨15, 0x0080#16, src.fields [(TCP_PORT.CONTRACT 15, 2), (TCP_CONTRACT.KIND 15, 1)], by decide +kernel⟩

/-- The hypotheses of clause 11 of `PdSourceComplete` meet: EPR_MODE_ENTER. -/
theorem wit_PdSourceComplete_11_eprModeEnter : ∃ (n : Channel) (hdr : BitVec 16) (s : State), s.pdOn n = true ∧ bitsOf hdr.toNat 6 2 ≠ 1 ∧ s.isSource n = true ∧ (s.pdGot n hdr).eprEnterFail n = 0 :=
  ⟨15, 0x108A#16, epr, by decide +kernel⟩

/-- The hypotheses of clause 12 of `PdSourceComplete` meet: EPR_MODE_EXIT. -/
theorem wit_PdSourceComplete_12_eprModeExit : ∃ (n : Channel) (hdr : BitVec 16) (s : State), s.pdOn n = true ∧ bitsOf hdr.toNat 6 2 ≠ 1 ∧ s.isSource n = true ∧ s.on (TCP_CONTRACT.EPR n) = true :=
  ⟨15, 0x0080#16, src.p (TCP_CONTRACT.EPR 15) 1, by decide +kernel⟩

/-- The hypotheses of clause 13 of `PdSourceComplete` meet: EPR_GET_SOURCE_CAP. -/
theorem wit_PdSourceComplete_13_eprGetSourceCap : ∃ (n : Channel) (hdr : BitVec 16) (s : State), s.pdOn n = true ∧ bitsOf hdr.toNat 6 2 ≠ 1 ∧ s.isSource n = true ∧ s.on (TCP_CONTRACT.EPR n) = true :=
  ⟨15, 0x0080#16, src.p (TCP_CONTRACT.EPR 15) 1, by decide +kernel⟩

/-- The hypotheses of clause 14 of `PdSourceComplete` meet: PPS_TIMEOUT. -/
theorem wit_PdSourceComplete_14_ppsTimeout : ∃ (n : Channel) (s : State), s.isSource n = true ∧ 2 ≤ s.g (TCP_PORT.CONTRACT n) ∧ s.g (TCP_CONTRACT.KIND n) = 1 :=
  ⟨15, src.fields [(TCP_PORT.CONTRACT 15, 2), (TCP_CONTRACT.KIND 15, 1)], by decide +kernel⟩

/-- The hypotheses of clause 15 of `PdSourceComplete` meet: EPR_KEEPALIVE_TIMEOUT. -/
theorem wit_PdSourceComplete_15_eprKeepaliveTimeout : ∃ (n : Channel) (s : State), s.isSource n = true ∧ s.on (TCP_CONTRACT.EPR n) = true :=
  ⟨15, src.p (TCP_CONTRACT.EPR 15) 1, by decide +kernel⟩

/-- The hypotheses of clause 16 of `PdSourceComplete` meet: SENDER_RESPONSE_TIMEOUT. -/
theorem wit_PdSourceComplete_16_senderResponseTimeout : ∃ (n : Channel) (s : State), s.pdOn n = true ∧ s.isSource n = true ∧ s.g (TCP_PORT.PD_REV n) ≠ 0 ∧ (s.tc n).softSent = false :=
  ⟨15, src.p (TCP_PORT.PD_REV 15) 2, by decide +kernel⟩

/-- The hypotheses of clause 17 of `PdSourceComplete` meet: SENDER_RESPONSE_TIMEOUT. -/
theorem wit_PdSourceComplete_17_senderResponseTimeout : ∃ (n : Channel) (s : State), s.pdOn n = true ∧ s.isSource n = true ∧ s.g (TCP_PORT.PD_REV n) ≠ 0 ∧ (s.tc n).softSent = true :=
  ⟨15, (src.p (TCP_PORT.PD_REV 15) 2).tcMod 15 fun x => { x with softSent := true }, by decide +kernel⟩

/-- The hypotheses of clause 0 of `PdAnswersComplete` meet: PING. -/
theorem wit_PdAnswersComplete_0_ping : ∃ (n : Channel) (s : State), s.pdOn n = true :=
  ⟨15, src, by decide +kernel⟩

/-- The hypotheses of clause 1 of `PdAnswersComplete` meet: GET_SINK_CAP. -/
theorem wit_PdAnswersComplete_1_getSinkCap : ∃ (n : Channel) (ext : Bool) (p : _) (s : State), s.sinkSet n = some p ∧ s.pdOn n = true ∧ ext = false :=
  ⟨15, false, ⟨1, 1, 0, 1, [0x1912C]⟩, sinkSt, by decide +kernel⟩

/-- The hypotheses of clause 2 of `PdAnswersComplete` meet: GET_SINK_CAP. -/
theorem wit_PdAnswersComplete_2_getSinkCap : ∃ (n : Channel) (hdr : BitVec 16) (ext : Bool) (p : _) (s : State), s.sinkSet n = some p ∧ s.pdOn n = true ∧ ext = true ∧ bitsOf hdr.toNat 6 2 ≠ 1 :=
  ⟨15, 0x0080#16, true, ⟨1, 1, 0, 1, [0x1912C]⟩, sinkSt, by decide +kernel⟩

/-- The hypotheses of clause 3 of `PdAnswersComplete` meet: GET_STATUS. -/
theorem wit_PdAnswersComplete_3_getStatus : ∃ (n : Channel) (hdr : BitVec 16) (s : State), bitsOf hdr.toNat 6 2 ≠ 1 ∧ s.pdOn n = true :=
  ⟨15, 0x0080#16, src, by decide +kernel⟩

/-- The hypotheses of clause 4 of `PdAnswersComplete` meet: GET_REVISION. -/
theorem wit_PdAnswersComplete_4_getRevision : ∃ (n : Channel) (hdr : BitVec 16) (s : State), bitsOf hdr.toNat 6 2 ≠ 1 ∧ s.pdOn n = true :=
  ⟨15, 0x0080#16, src, by decide +kernel⟩

/-- The hypotheses of clause 5 of `PdAnswersComplete` meet: SOFT_RESET. -/
theorem wit_PdAnswersComplete_5_softReset : ∃ (n : Channel) (s : State), s.pdOn n = true :=
  ⟨15, src, by decide +kernel⟩

/-- The hypotheses of clause 6 of `PdAnswersComplete` meet: UNSUPPORTED_PD_MESSAGE. -/
theorem wit_PdAnswersComplete_6_unsupportedPdMessage : ∃ (n : Channel) (hdr : BitVec 16) (s : State), s.pdOn n = true ∧ bitsOf hdr.toNat 6 2 ≠ 1 :=
  ⟨15, 0x0080#16, src, by decide +kernel⟩

/-- The hypotheses of clause 7 of `PdAnswersComplete` meet: BIST. -/
theorem wit_PdAnswersComplete_7_bist : ∃ (n : Channel) (s : State), s.pdOn n = true ∧ s.g (TCP_VSET.TARGET n) = 1000 ∧ (s.ch n).rampDone = true ∧ (s.tc n).trans = .none :=
  ⟨15, (src.p (TCP_VSET.TARGET 15) 1000).chMod 15 fun c => { c with rampDone := true }, by decide +kernel⟩

/-- The hypotheses of clause 8 of `PdAnswersComplete` meet: SOURCE_CAPABILITIES. -/
theorem wit_PdAnswersComplete_8_sourceCapabilities : ∃ (n : Channel) (s : State), s.pdOn n = true ∧ s.isSink n = true :=
  ⟨15, src.p (TCP_PORT.STATE 15) 7, by decide +kernel⟩

/-- The hypotheses of clause 9 of `PdAnswersComplete` meet: ACCEPT_RECEIVED. -/
theorem wit_PdAnswersComplete_9_acceptReceived : ∃ (n : Channel) (ans : PdAnswer) (r : _) (s : State), s.pdOn n = true ∧ s.isSink n = true ∧ (s.tc n).swap ≠ 3 ∧ (s.tc n).softSent = false ∧ ans = .psRdy ∧ (s.tc n).sinkReq = some r :=
  ⟨15, .psRdy, ⟨1, 5000, 500⟩, (src.p (TCP_PORT.STATE 15) 7).tcMod 15 fun x => { x with sinkReq := some ⟨1, 5000, 500⟩ }, by decide +kernel⟩

/-- The hypotheses of clause 10 of `PdAnswersComplete` meet: ACCEPT_RECEIVED. -/
theorem wit_PdAnswersComplete_10_acceptReceived : ∃ (n : Channel) (ans : PdAnswer) (s : State), s.pdOn n = true ∧ (s.tc n).swap ≠ 3 ∧ (s.tc n).softSent = true ∧ ans = .accept :=
  ⟨15, .accept, src.tcMod 15 fun x => { x with softSent := true }, by decide +kernel⟩

/-- The hypotheses of clause 11 of `PdAnswersComplete` meet: EPR_GET_SINK_CAP. -/
theorem wit_PdAnswersComplete_11_eprGetSinkCap : ∃ (n : Channel) (hdr : BitVec 16) (p : _) (s : State), bitsOf hdr.toNat 6 2 ≠ 1 ∧ s.sinkSet n = some p ∧ 0 < p.epr ∧ s.pdOn n = true :=
  ⟨15, 0x0080#16, ⟨1, 1, 1, 1, [0x1912C]⟩, src.withPlan { Plan.empty with sets := [⟨1, 1, 1, 1, [0x1912C]⟩], binds := [⟨0, 0x20, 1⟩] }, by decide +kernel⟩

/-- The hypotheses of clause 12 of `PdAnswersComplete` meet: EPR_KEEPALIVE. -/
theorem wit_PdAnswersComplete_12_eprKeepalive : ∃ (n : Channel) (hdr : BitVec 16) (s : State), bitsOf hdr.toNat 6 2 ≠ 1 ∧ s.pdOn n = true :=
  ⟨15, 0x0080#16, src, by decide +kernel⟩

/-- The hypotheses of clause 13 of `PdAnswersComplete` meet: PD_ALERT. -/
theorem wit_PdAnswersComplete_13_pdAlert : ∃ (n : Channel) (hdr : BitVec 16) (s : State), bitsOf hdr.toNat 6 2 ≠ 1 ∧ s.pdOn n = true :=
  ⟨15, 0x0080#16, src, by decide +kernel⟩

/-- The hypotheses of clause 14 of `PdAnswersComplete` meet: PD_INFO_RECEIVED. -/
theorem wit_PdAnswersComplete_14_pdInfoReceived : ∃ (n : Channel) (s : State), s.pdOn n = true :=
  ⟨15, src, by decide +kernel⟩

/-- The hypotheses of clause 0 of `DisplayPortComplete` meet: DISCOVER_IDENTITY. -/
theorem wit_DisplayPortComplete_0_discoverIdentity : ∃ (n : Channel) (s : State), s.pdOn n = true :=
  ⟨15, src, by decide +kernel⟩

/-- The hypotheses of clause 1 of `DisplayPortComplete` meet: DISCOVER_SVIDS. -/
theorem wit_DisplayPortComplete_1_discoverSvids : ∃ (n : Channel) (s : State), s.altDp n = true ∧ s.pdOn n = true :=
  ⟨15, dpSt, by decide +kernel⟩

/-- The hypotheses of clause 2 of `DisplayPortComplete` meet: DISCOVER_MODES. -/
theorem wit_DisplayPortComplete_2_discoverModes : ∃ (n : Channel) (s : State), s.altDp n = true ∧ s.pdOn n = true :=
  ⟨15, dpSt, by decide +kernel⟩

/-- The hypotheses of clause 3 of `DisplayPortComplete` meet: ENTER_MODE. -/
theorem wit_DisplayPortComplete_3_enterMode : ∃ (n : Channel) (s : State), s.pdOn n = true ∧ s.altDp n = true :=
  ⟨15, dpSt, by decide +kernel⟩

/-- The hypotheses of clause 4 of `DisplayPortComplete` meet: EXIT_MODE. -/
theorem wit_DisplayPortComplete_4_exitMode : ∃ (n : Channel) (s : State), s.altDp n = true ∧ s.pdOn n = true :=
  ⟨15, dpSt, by decide +kernel⟩

/-- The hypotheses of clause 5 of `DisplayPortComplete` meet: DP_STATUS_UPDATE. -/
theorem wit_DisplayPortComplete_5_dpStatusUpdate : ∃ (n : Channel) (s : State), s.altDp n = true ∧ s.pdOn n = true :=
  ⟨15, dpSt, by decide +kernel⟩

/-- The hypotheses of clause 6 of `DisplayPortComplete` meet: DP_CONFIGURE. -/
theorem wit_DisplayPortComplete_6_dpConfigure : ∃ (n : Channel) (ufpD : Bool) (pins : Fin 4) (s : State), s.pdOn n = true ∧ s.altDp n = true ∧ ufpD = true ∧ pins.val ≠ 0 ∧ bitOf (((s.portPaddock n).map (·.dpPins)).getD 0) (pins - 1) = true ∧ 2 ≤ s.g (TCP_DP.STATE (n - 15)) ∧ usbLanes (s.g (TCP_DP.PINS (n - 15))) ≠ usbLanes pins :=
  ⟨15, true, 1, dpSt.p (TCP_DP.STATE 0) 2, by decide +kernel⟩

/-- The hypotheses of clause 7 of `DisplayPortComplete` meet: OTHER_STRUCTURED_VDM. -/
theorem wit_DisplayPortComplete_7_otherStructuredVdm : ∃ (n : Channel) (s : State), s.pdOn n = true :=
  ⟨15, src, by decide +kernel⟩

/-- The hypotheses of clause 8 of `DisplayPortComplete` meet: UNSTRUCTURED_VDM. -/
theorem wit_DisplayPortComplete_8_unstructuredVdm : ∃ (n : Channel) (hdr : BitVec 16) (s : State), s.pdOn n = true ∧ bitsOf hdr.toNat 6 2 ≠ 1 :=
  ⟨15, 0x108F#16, src, by decide +kernel⟩

/-- The hypotheses of clause 10 of `DisplayPortComplete` meet: IRQ_HPD. -/
theorem wit_DisplayPortComplete_10_irqHpd : ∃ (u : Fin 2) (s : State), 2 ≤ s.g (TCP_DP.STATE u) ∧ s.pdOn (15 + u) = true :=
  ⟨1, src.p (TCP_DP.STATE 1) 2, by decide +kernel⟩

/-- The hypotheses of clause 0 of `BudgetCommandsComplete` meet: TELEMETRY_FRAME. -/
theorem wit_BudgetCommandsComplete_0_telemetryFrame : ∃ (s : State), s.on TLM_CTRL.ENABLE = true ∧ s.domOn dPPA = true :=
  ⟨up.p TLM_CTRL.ENABLE 1, by decide +kernel⟩

/-- The hypotheses of clause 1 of `BudgetCommandsComplete` meet: FIRST_USE_END. -/
theorem wit_BudgetCommandsComplete_1_firstUseEnd : ∃ (n : Channel) (s : State), s.on (BUD_PORT.FIRST_USE n) = true :=
  ⟨4, up.p (BUD_PORT.FIRST_USE 4) 1, by decide +kernel⟩

/-- The hypotheses of clause 2 of `BudgetCommandsComplete` meet: PWRWARN_ASSERT. -/
theorem wit_BudgetCommandsComplete_2_pwrwarnAssert : ∃ (cause : WarnCause) (s : State), (cause = .iin ∨ s.domOn dPPA = true) ∧ s.mode ≠ 1 ∧ (cause = .acFail → bitOf s.powerE.flags 0 = true) :=
  ⟨.vin, up, by decide +kernel⟩

/-- The hypotheses of clause 3 of `BudgetCommandsComplete` meet: PWRWARN_ASSERT. -/
theorem wit_BudgetCommandsComplete_3_pwrwarnAssert : ∃ (cause : WarnCause) (s : State), s.mode ≠ 1 ∧ (cause = .acFail → bitOf s.powerE.flags 0 = true) ∧ cause ≠ .iin ∧ s.domOn dPPA = false :=
  ⟨.vin, up.p (PDC_DOM.STATE dPPA) 2, by decide +kernel⟩

/-- The hypotheses of clause 4 of `BudgetCommandsComplete` meet: PWRWARN_RELEASE. -/
theorem wit_BudgetCommandsComplete_4_pwrwarnRelease : ∃ (s : State), s.on TLM_INWARN.PWRWARN = true :=
  ⟨up.p TLM_INWARN.PWRWARN 1, by decide +kernel⟩

/-- The hypotheses of clause 5 of `BudgetCommandsComplete` meet: VIN_UNDERVOLTAGE. -/
theorem wit_BudgetCommandsComplete_5_vinUndervoltage : ∃ (s : State), s.mode ≠ 1 :=
  ⟨up, by decide +kernel⟩

/-- The hypotheses of clause 6 of `BudgetCommandsComplete` meet: BUDGET_REDUCE. -/
theorem wit_BudgetCommandsComplete_6_budgetReduce : ∃ (s : State), s.on BUD_CTRL.ENABLE = true ∧ s.sumBudget.budgetNow < s.sumBudget.bud.sum ∧ (s.sumBudget.reduceOrder.any fun k => !s.sumBudget.atFloor k) = true :=
  ⟨overSt.p (BUD_RLIM.RLIM 4) 0, by decide +kernel⟩

/-- The hypotheses of clause 7 of `BudgetCommandsComplete` meet: BUDGET_SHED. -/
theorem wit_BudgetCommandsComplete_7_budgetShed : ∃ (n : _) (s : State), s.on BUD_CTRL.ENABLE = true ∧ s.sumBudget.budgetNow < s.sumBudget.bud.sum ∧ (s.sumBudget.reduceOrder.all fun k => s.sumBudget.atFloor k) = true ∧ (s.sumBudget.reduceOrder.find? fun k => s.sumBudget.g (BUD_PORT.PRIORITY k) ≠ 0) = some n :=
  ⟨4, overSt, by decide +kernel⟩

/-- The hypotheses of clause 8 of `BudgetCommandsComplete` meet: BUDGET_PERIODIC_REVIEW. -/
theorem wit_BudgetCommandsComplete_8_budgetPeriodicReview : ∃ (s : State), s.on BUD_CTRL.ENABLE = true ∧ s.on TLM_INWARN.PWRWARN = false :=
  ⟨up.p BUD_CTRL.ENABLE 1, by decide +kernel⟩

/-- The hypotheses of clause 0 of `MailboxComplete` meet: OUTBOUND_TIMEOUT. -/
theorem wit_MailboxComplete_0_outboundTimeout : ∃ (c : Fin 12) (s : State), s.marks.contains (.posted c) = false ∧ s.on (MBX_OUT_CTRL.GO c) = true ∧ (s.mb c).rung = false ∧ s.ackAhead c = false ∧ (c.val = 6 → s.reach (s.g (MBX_OUT_CTRL.MEMBER 6)) = true) :=
  ⟨2, up.p (MBX_OUT_CTRL.GO 2) 1, by decide +kernel⟩

/-- The hypotheses of clause 1 of `MailboxComplete` meet: OUTBOUND_TIMEOUT. -/
theorem wit_MailboxComplete_1_outboundTimeout : ∃ (c : Fin 12) (s : State), s.marks.contains (.posted c) = false ∧ s.on (MBX_OUT_CTRL.GO c) = true ∧ (s.mb c).rung = false ∧ s.ackAhead c = false ∧ c.val = 6 ∧ s.reach (s.g (MBX_OUT_CTRL.MEMBER 6)) = false :=
  ⟨6, (up.p (MBX_OUT_CTRL.GO 6) 1).p (MBX_OUT_CTRL.MEMBER 6) 3, by decide +kernel⟩

/-- The hypotheses of clause 2 of `MailboxComplete` meet: INBOUND_POLL. -/
theorem wit_MailboxComplete_2_inboundPoll : ∃ (s : State), s.domOn dMGT = true :=
  ⟨up.p (MBX_IN_CTRL.GO 3) 1, by decide +kernel⟩

/-- The hypotheses of clause 3 of `MailboxComplete` meet: PROXY_MESSAGE_RECEIVED. -/
theorem wit_MailboxComplete_3_proxyMessageReceived : ∃ (c : CtrlHdr) (words : List (BitVec 32)) (s : State), Taken c s ∧ (s.proxyHeld.any fun x => x.member = c.src.val) = false ∧ words.length ≤ 16 :=
  ⟨(ch 0 5), [7#32], home.p (GLK_LINK.STATE 0) 4, by decide +kernel⟩

/-- The hypotheses of clause 4 of `MailboxComplete` meet: PROXY_TAKE. -/
theorem wit_MailboxComplete_4_proxyTake : ∃ (stored : Bool) (s : State), s.on (MBX_OUT_CTRL.GO 6) = true ∧ s.domOn dFAB = true ∧ s.reach (s.g (MBX_OUT_CTRL.MEMBER 6)) = true ∧ stored = true ∧ (s.mb 6).held = [] :=
  ⟨true, (up.p (MBX_OUT_CTRL.GO 6) 1).p (MBX_OUT_CTRL.MEMBER 6) up.member, by decide +kernel⟩

/-- The hypotheses of clause 0 of `LinkTrainingComplete` meet: LINK_TRAINED. -/
theorem wit_LinkTrainingComplete_0_linkTrained : ∃ (k : Fin 4) (lanes : Fin 4) (s : State), s.mayTrain k = true ∧ (s.g (GLK_LINK.STATE k) = 1 ∨ s.g (GLK_LINK.STATE k) = 2) ∧ (lanes.val = 3 ∨ (lanes.val ≠ 0 ∧ ((s.entryOf k).map fun e => bitOf e.1.flags 0) = some true)) :=
  ⟨0, 3, barn.p (GLK_LINK.STATE 0) 1, by decide +kernel⟩

/-- The hypotheses of clause 1 of `LinkTrainingComplete` meet: LINK_TRAINING_FAILED. -/
theorem wit_LinkTrainingComplete_1_linkTrainingFailed : ∃ (k : Fin 4) (s : State), s.mayTrain k = true ∧ (s.g (GLK_LINK.STATE k) = 1 ∨ s.g (GLK_LINK.STATE k) = 2) ∧ (s.lk k).retried = false :=
  ⟨0, barn.p (GLK_LINK.STATE 0) 1, by decide +kernel⟩

/-- The hypotheses of clause 2 of `LinkTrainingComplete` meet: LINK_RETRY_TIMER. -/
theorem wit_LinkTrainingComplete_2_linkRetryTimer : ∃ (k : Fin 4) (s : State), s.mode = 3 ∧ (s.entryOf k).isSome = true ∧ (s.lk k).failed = true ∧ s.mayTrain k = true :=
  ⟨0, (barn.p (GLK_LINK.STATE 0) 7).lkMod 0 fun l => { l with failed := true }, by decide +kernel⟩

/-- The hypotheses of clause 3 of `LinkTrainingComplete` meet: LINK_RETRY_TIMER. -/
theorem wit_LinkTrainingComplete_3_linkRetryTimer : ∃ (k : Fin 4) (s : State), s.mode = 3 ∧ (s.entryOf k).isSome = true ∧ (s.lk k).failed = true ∧ s.domOn dFAB = false :=
  ⟨0, (barn.p (PDC_DOM.STATE dFAB) 2).lkMod 0 fun l => { l with failed := true }, by decide +kernel⟩

/-- The hypotheses of clause 4 of `LinkTrainingComplete` meet: LINK_IDLE_ENTRY. -/
theorem wit_LinkTrainingComplete_4_linkIdleEntry : ∃ (k : Fin 4) (s : State), s.g (GLK_LINK.STATE k) = 4 ∧ (s.lk k).run = [] ∧ (s.lk k).ctrlQ = [] :=
  ⟨0, barn.p (GLK_LINK.STATE 0) 4, by decide +kernel⟩

/-- The hypotheses of clause 5 of `LinkTrainingComplete` meet: LINK_NOP_TIMER. -/
theorem wit_LinkTrainingComplete_5_linkNopTimer : ∃ (k : Fin 4) (s : State), s.lkAwake k = true ∧ (s.lk k).cut = false :=
  ⟨0, barn.p (GLK_LINK.STATE 0) 4, by decide +kernel⟩

/-- The hypotheses of clause 6 of `LinkTrainingComplete` meet: LINK_NOP_RECEIVED. -/
theorem wit_LinkTrainingComplete_6_linkNopReceived : ∃ (h : BaleHdr) (s : State), s.lkAwake h.link = true :=
  ⟨bh, barn.fields [(GLK_LINK.STATE 0, 4), (GLK_CTRL.SLEEP_EN, 0)], by decide +kernel⟩

/-- The hypotheses of clause 7 of `LinkTrainingComplete` meet: GHELYS_LANE_LOST. -/
theorem wit_LinkTrainingComplete_7_ghelysLaneLost : ∃ (k : Fin 4) (upper : Bool) (s : State), s.inService k = true ∧ ((s.entryOf k).map fun e => bitOf e.1.flags 0) ≠ some true ∧ (s.g (GLK_LINK.LANES k) ≠ (if upper then 1 else 2)) :=
  ⟨0, true, barn.p (GLK_LINK.STATE 0) 4, by decide +kernel⟩

/-- The hypotheses of clause 8 of `LinkTrainingComplete` meet: GHELYS_LANE_LOST. -/
theorem wit_LinkTrainingComplete_8_ghelysLaneLost : ∃ (k : Fin 4) (s : State), s.inService k = true ∧ ((s.entryOf k).map fun e => bitOf e.1.flags 0) = some true ∧ s.g (GLK_LINK.LANES k) = 3 :=
  ⟨1, (barn.p (GLK_LINK.STATE 1) 4).p (GLK_LINK.LANES 1) 3, by decide +kernel⟩

/-- The hypotheses of clause 9 of `LinkTrainingComplete` meet: SINGLE_LANE_RETRAIN. -/
theorem wit_LinkTrainingComplete_9_singleLaneRetrain : ∃ (k : Fin 4) (s : State), (s.g (GLK_LINK.LANES k) = 1 ∨ s.g (GLK_LINK.LANES k) = 2) ∧ (s.lk k).win = [] ∧ (s.lk k).run = [] ∧ s.inService k = true ∧ s.mayTrain k = true :=
  ⟨1, (barn.p (GLK_LINK.STATE 1) 4).p (GLK_LINK.LANES 1) 1, by decide +kernel⟩

/-- The hypotheses of clause 10 of `LinkTrainingComplete` meet: SLEEP_IDLE_TIMEOUT. -/
theorem wit_LinkTrainingComplete_10_sleepIdleTimeout : ∃ (k : Fin 4) (s : State), s.maySleep k = true ∧ (s.lk k).cut = false ∧ s.member < s.g (GLK_LINK.PEER_MEMBER k) :=
  ⟨0, barn.fields [(GLK_LINK.STATE 0, 4), (GLK_LINK.PEER_MEMBER 0, 5), (GLK_CTRL.SLEEP_EN, 1)], by decide +kernel⟩

/-- The hypotheses of clause 11 of `LinkTrainingComplete` meet: SLEEP_REQ. -/
theorem wit_LinkTrainingComplete_11_sleepReq : ∃ (h : BaleHdr) (s : State), s.lkAwake h.link = true ∧ (s.rxLink h).maySleep h.link = true :=
  ⟨bh, barn.fields [(GLK_LINK.STATE 0, 4), (GLK_CTRL.SLEEP_EN, 1)], by decide +kernel⟩

/-- The hypotheses of clause 12 of `LinkTrainingComplete` meet: SLEEP_REQ. -/
theorem wit_LinkTrainingComplete_12_sleepReq : ∃ (h : BaleHdr) (s : State), s.lkAwake h.link = true ∧ (s.rxLink h).maySleep h.link = false :=
  ⟨bh, barn.fields [(GLK_LINK.STATE 0, 4), (GLK_CTRL.SLEEP_EN, 0)], by decide +kernel⟩

/-- The hypotheses of clause 13 of `LinkTrainingComplete` meet: SLEEP_ACK. -/
theorem wit_LinkTrainingComplete_13_sleepAck : ∃ (h : BaleHdr) (s : State), s.lkAwake h.link = true ∧ (s.lk h.link).sleepReq = true :=
  ⟨bh, (barn.p (GLK_LINK.STATE 0) 4).lkMod 0 fun l => { l with sleepReq := true }, by decide +kernel⟩

/-- The hypotheses of clause 14 of `LinkTrainingComplete` meet: SLEEP_NAK. -/
theorem wit_LinkTrainingComplete_14_sleepNak : ∃ (h : BaleHdr) (s : State), s.lkAwake h.link = true :=
  ⟨bh, barn.fields [(GLK_LINK.STATE 0, 4), (GLK_CTRL.SLEEP_EN, 0)], by decide +kernel⟩

/-- The hypotheses of clause 15 of `LinkTrainingComplete` meet: BELL_RING. -/
theorem wit_LinkTrainingComplete_15_bellRing : ∃ (k : Fin 4) (s : State), (s.lk k).asleep = true ∧ s.bellAhead k = false ∧ s.queuedOn k = true ∧ (s.lk k).bells = 0 :=
  ⟨0, (barn.p (GLK_LINK.STATE 0) 5).lkMod 0 fun l => { l with ctrlQ := [⟨0, 5, 1, "X", [], none⟩], asleep := true }, by decide +kernel⟩

/-- The hypotheses of clause 17 of `LinkTrainingComplete` meet: BELL_TIMEOUT. -/
theorem wit_LinkTrainingComplete_17_bellTimeout : ∃ (k : Fin 4) (s : State), (s.lk k).asleep = true ∧ s.bellAhead k = false ∧ 0 < (s.lk k).bells ∧ (s.lk k).bells < 5 :=
  ⟨0, (barn.p (GLK_LINK.STATE 0) 5).lkMod 0 fun l => { l with bells := 4, asleep := true }, by decide +kernel⟩

/-- The hypotheses of clause 18 of `LinkTrainingComplete` meet: BELL_TIMEOUT. -/
theorem wit_LinkTrainingComplete_18_bellTimeout : ∃ (k : Fin 4) (s : State), (s.lk k).asleep = true ∧ 5 ≤ (s.lk k).bells :=
  ⟨0, (barn.p (GLK_LINK.STATE 0) 5).lkMod 0 fun l => { l with bells := 5, asleep := true }, by decide +kernel⟩

/-- The hypotheses of clause 19 of `LinkTrainingComplete` meet: LINK_RESUME_DONE. -/
theorem wit_LinkTrainingComplete_19_linkResumeDone : ∃ (k : Fin 4) (s : State), s.g (GLK_LINK.STATE k) = 5 ∧ (s.lk k).asleep = true ∧ s.domOn dFAB = true :=
  ⟨0, (barn.p (GLK_LINK.STATE 0) 5).lkMod 0 fun l => { l with asleep := true }, by decide +kernel⟩

/-- The hypotheses of clause 0 of `LinkServiceComplete` meet: NAK_RECEIVED. -/
theorem wit_LinkServiceComplete_0_nakReceived : ∃ (h : BaleHdr) (seq : Fin 512) (i : _) (s : State), s.lkAwake h.link = true ∧ ((s.rxLink h).lk h.link).win.findIdx? (fun x => x.seq = seq.val) = some i :=
  ⟨bh, 7, 0, (barn.p (GLK_LINK.STATE 0) 4).lkMod 0 fun l => { l with win := [.ctrl 7 ⟨0, 5, 1, "X", [], none⟩] }, by decide +kernel⟩

/-- The hypotheses of clause 1 of `LinkServiceComplete` meet: REPLAY_TIMEOUT. -/
theorem wit_LinkServiceComplete_1_replayTimeout : ∃ (k : Fin 4) (s : State), s.lkAwake k = true ∧ (s.lk k).win ≠ [] ∧ (s.lk k).replays < s.g GLK_X_TUNE.REPLAY_MAX :=
  ⟨0, (barn.p (GLK_LINK.STATE 0) 4).lkMod 0 fun l => { l with win := [.ctrl 7 ⟨0, 5, 1, "X", [], none⟩] }, by decide +kernel⟩

/-- The hypotheses of clause 2 of `LinkServiceComplete` meet: REPLAY_TIMEOUT. -/
theorem wit_LinkServiceComplete_2_replayTimeout : ∃ (k : Fin 4) (s : State), s.lkAwake k = true ∧ (s.lk k).win ≠ [] ∧ s.g GLK_X_TUNE.REPLAY_MAX ≤ (s.lk k).replays :=
  ⟨0, (barn.p (GLK_LINK.STATE 0) 4).lkMod 0 fun l => { l with win := [.ctrl 7 ⟨0, 5, 1, "X", [], none⟩], replays := 15 }, by decide +kernel⟩

/-- The hypotheses of clause 3 of `LinkServiceComplete` meet: PARAM_RECEIVED. -/
theorem wit_LinkServiceComplete_3_paramReceived : ∃ (k : Fin 4) (s : State), s.lkAwake k = true :=
  ⟨0, barn.p (GLK_LINK.STATE 0) 4, by decide +kernel⟩

/-- The hypotheses of clause 4 of `LinkServiceComplete` meet: PROBE_RECEIVED. -/
theorem wit_LinkServiceComplete_4_probeReceived : ∃ (h : BaleHdr) (s : State), s.lkAwake h.link = true :=
  ⟨bh, barn.fields [(GLK_LINK.STATE 0, 4), (GLK_CTRL.SLEEP_EN, 0)], by decide +kernel⟩

/-- The hypotheses of clause 5 of `LinkServiceComplete` meet: LINK_DELAY_PROBE. -/
theorem wit_LinkServiceComplete_5_linkDelayProbe : ∃ (k : Fin 4) (s : State), s.lkAwake k = true ∧ (s.lk k).cut = false :=
  ⟨0, barn.p (GLK_LINK.STATE 0) 4, by decide +kernel⟩

/-- The hypotheses of clause 6 of `LinkServiceComplete` meet: PROBE_REPLY_RECEIVED. -/
theorem wit_LinkServiceComplete_6_probeReplyReceived : ∃ (h : BaleHdr) (s : State), s.lkAwake h.link = true :=
  ⟨bh, barn.p (GLK_LINK.STATE 0) 4, by decide +kernel⟩

/-- The hypotheses of clause 7 of `LinkServiceComplete` meet: HEARTBEAT_RECEIVED. -/
theorem wit_LinkServiceComplete_7_heartbeatReceived : ∃ (h : BaleHdr) (s : State), s.lkAwake h.link = true :=
  ⟨bh, barn.p (GLK_LINK.STATE 0) 4, by decide +kernel⟩

/-- The hypotheses of clause 8 of `LinkServiceComplete` meet: HEARTBEAT_MISS. -/
theorem wit_LinkServiceComplete_8_heartbeatMiss : ∃ (k : Fin 4) (s : State), s.lkAwake k = true ∧ s.g (GLK_HB.PERIOD k) ≠ 0 ∧ s.g (GLK_HB.MISSED k) < 2 :=
  ⟨0, barn.fields [(GLK_LINK.STATE 0, 4), (GLK_HB.PERIOD 0, 8)], by decide +kernel⟩

/-- The hypotheses of clause 9 of `LinkServiceComplete` meet: HEARTBEAT_MISS. -/
theorem wit_LinkServiceComplete_9_heartbeatMiss : ∃ (k : Fin 4) (s : State), s.lkAwake k = true ∧ s.g (GLK_HB.PERIOD k) ≠ 0 ∧ 2 ≤ s.g (GLK_HB.MISSED k) :=
  ⟨0, barn.fields [(GLK_LINK.STATE 0, 4), (GLK_HB.PERIOD 0, 8), (GLK_HB.MISSED 0, 2)], by decide +kernel⟩

/-- The hypotheses of clause 10 of `LinkServiceComplete` meet: LINK_DOWN_RECEIVED. -/
theorem wit_LinkServiceComplete_10_linkDownReceived : ∃ (k : Fin 4) (s : State), s.inService k = true :=
  ⟨0, barn.p (GLK_LINK.STATE 0) 4, by decide +kernel⟩

/-- The hypotheses of clause 11 of `LinkServiceComplete` meet: NO_BALE_TIMEOUT. -/
theorem wit_LinkServiceComplete_11_noBaleTimeout : ∃ (k : Fin 4) (s : State), s.lkAwake k = true :=
  ⟨0, barn.p (GLK_LINK.STATE 0) 4, by decide +kernel⟩

/-- The hypotheses of clause 12 of `LinkServiceComplete` meet: BLOCK_LOCK_LOSS. -/
theorem wit_LinkServiceComplete_12_blockLockLoss : ∃ (k : Fin 4) (s : State), s.lkAwake k = true :=
  ⟨0, barn.p (GLK_LINK.STATE 0) 4, by decide +kernel⟩

/-- The hypotheses of clause 13 of `LinkServiceComplete` meet: ISOLATED_HELLO_TIMER. -/
theorem wit_LinkServiceComplete_13_isolatedHelloTimer : ∃ (k : Fin 4) (s : State), s.g (GLK_LINK.STATE k) = 6 ∧ (s.lk k).cut = false :=
  ⟨0, barn.p (GLK_LINK.STATE 0) 6, by decide +kernel⟩

/-- The hypotheses of clause 0 of `BarnComplete` meet: HELLO_RECEIVED. -/
theorem wit_BarnComplete_0_helloReceived : ∃ (h : BaleHdr) (uid : Nat) (hash : Nat) (barnId : Nat) (claimed : Fin 256) (peerLink : Fin 4) (s : State), s.lkAwake h.link = true ∧ (s.helloSeen h claimed peerLink uid).g (GLK_LINK.STATE h.link) ≠ 6 ∧ (s.helloSeen h claimed peerLink uid).helloCause h.link uid hash barnId claimed peerLink ≠ 0 :=
  ⟨bh, 1, 2, 3, 5, 0, barn.p (GLK_LINK.STATE 0) 3, by decide +kernel⟩

/-- The hypotheses of clause 1 of `BarnComplete` meet: HELLO_RECEIVED. -/
theorem wit_BarnComplete_1_helloReceived : ∃ (h : BaleHdr) (uid : Nat) (hash : Nat) (barnId : Nat) (claimed : Fin 256) (peerLink : Fin 4) (s : State), claimed.val < 8 ∧ claimed.val ≠ s.member ∧ s.severity 50 < 2 ∧ s.severity 52 < 2 ∧ s.lkAwake h.link = true ∧ (s.helloSeen h claimed peerLink uid).helloCause h.link uid hash barnId claimed peerLink = 0 :=
  ⟨bh, 1, 0, 77, 5, 2, barn.p (GLK_LINK.STATE 0) 3, by decide +kernel⟩

/-- The hypotheses of clause 2 of `BarnComplete` meet: LSA_RECEIVED. -/
theorem wit_BarnComplete_2_lsaReceived : ∃ (c : CtrlHdr) (s : State), Taken c s :=
  ⟨(ch 0 5), barn.p (GLK_LINK.STATE 0) 4, by decide +kernel⟩

/-- The hypotheses of clause 3 of `BarnComplete` meet: FLOODING_ROUND_END. -/
theorem wit_BarnComplete_3_floodingRoundEnd : ∃ (s : State), s.fab.step = 4 ∧ s.fab.learned = true :=
  ⟨(barn.setStep 4).fabMod fun f => { f with learned := true }, by decide +kernel⟩

/-- The hypotheses of clause 4 of `BarnComplete` meet: FLOODING_ROUND_END. -/
theorem wit_BarnComplete_4_floodingRoundEnd : ∃ (m : _) (s : State), (m = s.member → m < 8 ∧ m ∉ s.fab.lost) ∧ s.fab.step = 4 ∧ s.fab.learned = false ∧ ((s.fabMod fun f => { f with route := routesOf f.lsdb f.member, db := f.lsdb }).leadChoice = some m) :=
  ⟨0, (barn.setStep 4).fabMod fun f => { f with members := [⟨0, 1, true⟩] }, by decide +kernel⟩

/-- The hypotheses of clause 5 of `BarnComplete` meet: FLOODING_ROUND_END. -/
theorem wit_BarnComplete_5_floodingRoundEnd : ∃ (s : State), s.fab.step = 4 ∧ s.fab.learned = false ∧ ((s.fabMod fun f => { f with route := routesOf f.lsdb f.member, db := f.lsdb }).leadChoice = none) :=
  ⟨barn.setStep 4, by decide +kernel⟩

/-- The hypotheses of clause 6 of `BarnComplete` meet: TABLES_RECEIVED. -/
theorem wit_BarnComplete_6_tablesReceived : ∃ (c : CtrlHdr) (rt : RouteTable) (u : _) (s : State), Taken c s ∧ s.rxCtrl c "TABLES" [rt.ver, rt.at_] id = u ∧ u.takesTables c.src = true :=
  ⟨(ch 0 5), { ver := 3, at_ := 40000, main := [], byLink := [], byMember := [] }, (barn.p (GLK_LINK.STATE 0) 4).rxCtrl ((ch 0 5)) "TABLES" [({ ver := 3, at_ := 40000, main := [], byLink := [], byMember := [] } : RouteTable).ver, ({ ver := 3, at_ := 40000, main := [], byLink := [], byMember := [] } : RouteTable).at_] id, barn.p (GLK_LINK.STATE 0) 4, by decide +kernel⟩

/-- The hypotheses of clause 7 of `BarnComplete` meet: TABLES_RECEIVED. -/
theorem wit_BarnComplete_7_tablesReceived : ∃ (c : CtrlHdr) (rt : RouteTable) (u : _) (s : State), Taken c s ∧ s.rxCtrl c "TABLES" [rt.ver, rt.at_] id = u ∧ u.takesTables c.src = false :=
  ⟨(ch 0 5), { ver := 3, at_ := 40000, main := [], byLink := [], byMember := [] }, ((barn.fields [(GLK_LINK.STATE 0, 4), (DRV_BARN.FORMED, 1), (DRV_BARN.LEAD, 0), (DRV_BARN.IS_LEAD, 1)])).rxCtrl ((ch 0 5)) "TABLES" [({ ver := 3, at_ := 40000, main := [], byLink := [], byMember := [] } : RouteTable).ver, ({ ver := 3, at_ := 40000, main := [], byLink := [], byMember := [] } : RouteTable).at_] id, (barn.fields [(GLK_LINK.STATE 0, 4), (DRV_BARN.FORMED, 1), (DRV_BARN.LEAD, 0), (DRV_BARN.IS_LEAD, 1)]), by decide +kernel⟩

/-- The hypotheses of clause 8 of `BarnComplete` meet: TABLES_ACK_RECEIVED. -/
theorem wit_BarnComplete_8_tablesAckReceived : ∃ (c : CtrlHdr) (ver : Fin 256) (u : _) (s : State), Taken c s ∧ s.rxCtrl c "TABLES_ACK" [ver.val] id = u ∧ u.on DRV_BARN.IS_LEAD = true ∧ (ver.val = (match u.fab.next with | some x => x.ver | none => u.fab.table.ver)) :=
  ⟨(ch 0 5), 0, ((barn.p (GLK_LINK.STATE 0) 4).p DRV_BARN.IS_LEAD 1).rxCtrl ((ch 0 5)) "TABLES_ACK" [0] id, (barn.p (GLK_LINK.STATE 0) 4).p DRV_BARN.IS_LEAD 1, by decide +kernel⟩

/-- The hypotheses of clause 9 of `BarnComplete` meet: TABLE_SWITCH. -/
theorem wit_BarnComplete_9_tableSwitch : ∃ (rt : _) (s : State), s.fab.next = some rt ∧ rt.at_ ≤ s.yticks 4 ∧ s.fab.failed = [] :=
  ⟨{ (default : RouteTable) with ver := 1 }, barn.fabMod fun f => { f with next := some { (default : RouteTable) with ver := 1 } }, by decide +kernel⟩

/-- The hypotheses of clause 10 of `BarnComplete` meet: FORMED_BROADCAST. -/
theorem wit_BarnComplete_10_formedBroadcast : ∃ (s : State), s.on DRV_BARN.IS_LEAD = true ∧ s.on DRV_BARN.FORMED = false ∧ s.fab.step = 8 ∧ ((List.range s.plan.members).all fun m => s.fab.members.any fun x => x.num = m) = true :=
  ⟨(barn.p DRV_BARN.IS_LEAD 1).fabMod fun f => { f with step := 8, members := (List.range 8).map fun m => ⟨m, m, true⟩ }, by decide +kernel⟩

/-- The hypotheses of clause 11 of `BarnComplete` meet: FORMED_RECEIVED. -/
theorem wit_BarnComplete_11_formedReceived : ∃ (c : CtrlHdr) (u : _) (s : State), Taken c s ∧ s.rxCtrl c "FORMED" [] id = u ∧ u.on DRV_BARN.FORMED = false :=
  ⟨(ch 0 5), (barn.p (GLK_LINK.STATE 0) 4).rxCtrl ((ch 0 5)) "FORMED" [] id, barn.p (GLK_LINK.STATE 0) 4, by decide +kernel⟩

/-- The hypotheses of clause 12 of `BarnComplete` meet: FORMATION_DEADLINE. -/
theorem wit_BarnComplete_12_formationDeadline : ∃ (s : State), s.fab.deadline = false ∧ s.on DRV_BARN.FORMED = false ∧ s.plan.barn.isSome = true :=
  ⟨barn.p DRV_BARN.IS_LEAD 1, by decide +kernel⟩

/-- The hypotheses of clause 13 of `BarnComplete` meet: LINK_DOWN_NOTICE. -/
theorem wit_BarnComplete_13_linkDownNotice : ∃ (c : CtrlHdr) (s : State), Taken c s :=
  ⟨(ch 0 5), barn.p (GLK_LINK.STATE 0) 4, by decide +kernel⟩

/-- The hypotheses of clause 14 of `BarnComplete` meet: RESEED_RECEIVED. -/
theorem wit_BarnComplete_14_reseedReceived : ∃ (c : CtrlHdr) (s : State), Taken c s :=
  ⟨(ch 0 5), barn.p (GLK_LINK.STATE 0) 4, by decide +kernel⟩

/-- The hypotheses of clause 15 of `BarnComplete` meet: LOAD_RECEIVED. -/
theorem wit_BarnComplete_15_loadReceived : ∃ (c : CtrlHdr) (s : State), Taken c s :=
  ⟨(ch 0 5), barn.p (GLK_LINK.STATE 0) 4, by decide +kernel⟩

/-- The hypotheses of clause 16 of `BarnComplete` meet: REBALANCE_WINDOW. -/
theorem wit_BarnComplete_16_rebalanceWindow : ∃ (s : State), s.domOn dFAB = true :=
  ⟨barn.lkMod 2 fun l => { l with load := 9 }, by decide +kernel⟩

/-- The hypotheses of clause 0 of `DroverComplete` meet: DATA_BALE_RECEIVED. -/
theorem wit_DroverComplete_0_dataBaleReceived : ∃ (k : Fin 4) (header : BitVec 64) (payload : List (BitVec 8)) (s : State), s.lkAwake k = true ∧ s.g (GLK_LINK.STATE k) = 4 ∧ header.toNat % 8 ∈ [1, 2, 3] ∧ baleCrc (s.lk k).rxSeq header.toNat (pad64 payload) = header.toNat / 2 ^ 48 ∧ s.roomOf (17 + k) ≠ 0 :=
  ⟨0, (BitVec.ofNat 64 (9 + 2 ^ 48 * baleCrc 0 9 (pad64 []))), [], (barn.p (GLK_LINK.STATE 0) 4).fields [(PBF_STATUS.FREE, 64), (PBF_RESV.RESERVE 17, 16), (PBF_BANK_FREE.FREE 0, 64)], by decide +kernel⟩

/-- The hypotheses of clause 1 of `DroverComplete` meet: DATA_BALE_RECEIVED. -/
theorem wit_DroverComplete_1_dataBaleReceived : ∃ (k : Fin 4) (header : BitVec 64) (payload : List (BitVec 8)) (s : State), s.lkAwake k = true ∧ s.g (GLK_LINK.STATE k) = 4 ∧ header.toNat % 8 ∈ [1, 2, 3, 4] ∧ baleCrc (s.lk k).rxSeq header.toNat (pad64 payload) ≠ header.toNat / 2 ^ 48 ∧ (s.lk k).nakked = false :=
  ⟨0, 9#64, [], barn.p (GLK_LINK.STATE 0) 4, by decide +kernel⟩

/-- The hypotheses of clause 2 of `DroverComplete` meet: DATA_BALE_RECEIVED. -/
theorem wit_DroverComplete_2_dataBaleReceived : ∃ (k : Fin 4) (header : BitVec 64) (s : State), s.lkAwake k = true ∧ header.toNat % 8 ∈ [0, 6, 7] :=
  ⟨0, 6#64, barn.p (GLK_LINK.STATE 0) 4, by decide +kernel⟩

/-- The hypotheses of clause 3 of `DroverComplete` meet: FLOW_OPEN_RECEIVED. -/
theorem wit_DroverComplete_3_flowOpenReceived : ∃ (c : CtrlHdr) (s : State), s.ctrlFits = true ∧ s.g (GLK_LINK.STATE c.hdr.link) = 4 ∧ s.fab.seen.contains (ctrlKey c) = false ∧ c.dest.val = s.member :=
  ⟨(chd 0 5 0), barn.p (GLK_LINK.STATE 0) 4, by decide +kernel⟩

/-- The hypotheses of clause 4 of `DroverComplete` meet: FLOW_RECORD_FREE. -/
theorem wit_DroverComplete_4_flowRecordFree : ∃ (idx : Fin 512) (s : State), (s.fab.flows.any fun r => r.open_.idx = idx.val && r.undel.isEmpty) = true :=
  ⟨3, barn.setFlows [{ open_ := ⟨3, 0, 0, true, 1, 0, 1, 0, false, 2, false⟩, dest := 5 }], by decide +kernel⟩

/-- The hypotheses of clause 5 of `DroverComplete` meet: DELIVERED_RECEIVED. -/
theorem wit_DroverComplete_5_deliveredReceived : ∃ (c : CtrlHdr) (s : State), Taken c s :=
  ⟨(ch 0 5), barn.p (GLK_LINK.STATE 0) 4, by decide +kernel⟩

/-- The hypotheses of clause 6 of `DroverComplete` meet: DELIVERED_TIMER. -/
theorem wit_DroverComplete_6_deliveredTimer : ∃ (src : Fin 8) (idx : Fin 512) (r : _) (s : State), s.dstRec src idx = some r ∧ 0 < r.unreported :=
  ⟨5, 3, { src := 5, open_ := ⟨3, 0, 0, true, 1, 0, 1, 0, false, 2, false⟩, unreported := 1 }, barn.fabMod fun f => { f with dsts := [{ src := 5, open_ := ⟨3, 0, 0, true, 1, 0, 1, 0, false, 2, false⟩, unreported := 1 }] }, by decide +kernel⟩

/-- The hypotheses of clause 7 of `DroverComplete` meet: RESYNC_RECEIVED. -/
theorem wit_DroverComplete_7_resyncReceived : ∃ (c : CtrlHdr) (s : State), Taken c s :=
  ⟨(ch 0 5), barn.p (GLK_LINK.STATE 0) 4, by decide +kernel⟩

/-- The hypotheses of clause 8 of `DroverComplete` meet: RESYNC_ACK_RECEIVED. -/
theorem wit_DroverComplete_8_resyncAckReceived : ∃ (c : CtrlHdr) (epoch : Bool) (counts : List (Fin 512 × Fin 65536)) (u : _) (s : State), Taken c s ∧ s.rxCtrl c "RESYNC_ACK" (b2n epoch :: counts.flatMap fun e => [e.1.val, e.2.val]) id = u ∧ u.fab.resync = [c.src.val] ∧ epoch = vat u.fab.txEpoch c.src :=
  ⟨(ch 0 5), false, ([] : List (Fin 512 × Fin 65536)), ((barn.p (GLK_LINK.STATE 0) 4).fabMod fun f => { f with resync := [5] }).rxCtrl ((ch 0 5)) "RESYNC_ACK" (b2n (false) :: (([] : List (Fin 512 × Fin 65536))).flatMap fun e => [e.1.val, e.2.val]) id, (barn.p (GLK_LINK.STATE 0) 4).fabMod fun f => { f with resync := [5] }, by decide +kernel⟩

/-- The hypotheses of clause 9 of `DroverComplete` meet: RESYNC_ACK_RECEIVED. -/
theorem wit_DroverComplete_9_resyncAckReceived : ∃ (c : CtrlHdr) (epoch : Bool) (counts : List (Fin 512 × Fin 65536)) (u : _) (s : State), Taken c s ∧ s.rxCtrl c "RESYNC_ACK" (b2n epoch :: counts.flatMap fun e => [e.1.val, e.2.val]) id = u ∧ c.src.val ∈ u.fab.resync ∧ epoch ≠ vat u.fab.txEpoch c.src :=
  ⟨(ch 0 5), true, ([] : List (Fin 512 × Fin 65536)), ((barn.p (GLK_LINK.STATE 0) 4).fabMod fun f => { f with resync := [5] }).rxCtrl ((ch 0 5)) "RESYNC_ACK" (b2n (true) :: (([] : List (Fin 512 × Fin 65536))).flatMap fun e => [e.1.val, e.2.val]) id, (barn.p (GLK_LINK.STATE 0) 4).fabMod fun f => { f with resync := [5] }, by decide +kernel⟩

/-- The hypotheses of clause 0 of `SuperSpeedPacketsComplete` meet: DOWNSTREAM_PACKET. -/
theorem wit_SuperSpeedPacketsComplete_0_downstreamPacket : ∃ (u : Fin 2) (pkt : SsPacket) (slot : _) (s : State), s.slotOf u = some slot ∧ s.canEnter (15 + u) pkt = true :=
  ⟨0, pkt, 2, ssb, by decide +kernel⟩

/-- The hypotheses of clause 1 of `SuperSpeedPacketsComplete` meet: UPSTREAM_PACKET. -/
theorem wit_SuperSpeedPacketsComplete_1_upstreamPacket : ∃ (n : Stall) (pkt : SsPacket) (slot : _) (s : State), s.holderOf n = some slot ∧ s.canEnter n pkt = true :=
  ⟨4, pkt, 2, ssb, by decide +kernel⟩

/-- The hypotheses of clause 2 of `SuperSpeedPacketsComplete` meet: EGRESS_QUEUE_HEAD. -/
theorem wit_SuperSpeedPacketsComplete_2_egressQueueHead : ∃ (n : Channel) (ecc : Fin 3) (b : _) (rest : _) (s : State), s.ssOn = true ∧ s.egress n = b :: rest ∧ b.held = false ∧ ecc.val ≠ 2 ∧ s.g (SSH_PORT.LINK n) = 0 ∧ s.headsPassed = [] ∧ s.headsAhead = [] ∧ s.marks.contains (.headRead n) = false :=
  ⟨4, 0, { pkt := pkt, q := 4, banks := [] }, [], ssb.setEgress 4 [{ pkt := pkt, q := 4, banks := [] }], by decide +kernel⟩

/-- The hypotheses of clause 3 of `SuperSpeedPacketsComplete` meet: EGRESS_QUEUE_HEAD. -/
theorem wit_SuperSpeedPacketsComplete_3_egressQueueHead : ∃ (n : Channel) (m : _) (e : _) (s : State), s.ssOn = true ∧ s.readClass n = 2 ∧ s.readClass m = 1 ∧ s.headsPassed = [] ∧ s.headsAhead = [(m, e)] ∧ s.marks.contains (.headRead n) = false ∧ s.marks.contains (.headRead m) = false ∧ m ≠ n :=
  ⟨4, 1, 0, { (((ssb.setEgress 4 [{ pkt := pkt, q := 4, banks := [1] }]).setEgress 1 [{ pkt := { pkt with iso := true }, q := 1, banks := [2] }]).fields [(SSH_PORT.LINK 1, 0), (PBF_X_ARB.ISO_FIRST, 1)]) with pending := [.egressQueueHead 1 0] }, by decide +kernel⟩

/-- The hypotheses of clause 4 of `SuperSpeedPacketsComplete` meet: EGRESS_QUEUE_HEAD. -/
theorem wit_SuperSpeedPacketsComplete_4_egressQueueHead : ∃ (n : Channel) (b : _) (rest : _) (s : State), s.ssOn = true ∧ s.egress n = b :: rest ∧ b.held = false ∧ s.g (SSH_PORT.LINK n) ∈ [4, 5, 6, 7, 9] ∧ s.marks.contains (.headRead n) = false :=
  ⟨4, { pkt := pkt, q := 4, banks := [1] }, [], (ssb.setEgress 4 [{ pkt := pkt, q := 4, banks := [1] }]).p (SSH_PORT.LINK 4) 6, by decide +kernel⟩

/-- The hypotheses of clause 5 of `SuperSpeedPacketsComplete` meet: PORT_U0_REACHED. -/
theorem wit_SuperSpeedPacketsComplete_5_portU0Reached : ∃ (n : Channel) (s : State), s.domOn dHUB = true ∧ s.g (SSH_PORT.LINK n) ∈ [1, 2, 3, 7, 8, 9] :=
  ⟨4, ssb.p (SSH_PORT.LINK 4) 7, by decide +kernel⟩

/-- The hypotheses of clause 6 of `SuperSpeedPacketsComplete` meet: RECOVERY_HOLD_EXPIRE. -/
theorem wit_SuperSpeedPacketsComplete_6_recoveryHoldExpire : ∃ (n : Channel) (s : State), 4 ≤ s.g (SSH_PORT.LINK n) :=
  ⟨4, ssb.p (SSH_PORT.LINK 4) 8, by decide +kernel⟩

/-- The hypotheses of clause 7 of `SuperSpeedPacketsComplete` meet: HEADER_CREDIT_RETURN. -/
theorem wit_SuperSpeedPacketsComplete_7_headerCreditReturn : ∃ (n : Channel) (s : State), s.g (SSH_PORT.HP_IN n) ≠ 0 ∧ s.creditOk n = true :=
  ⟨4, ssb.p (SSH_PORT.HP_IN 4) 2, by decide +kernel⟩

/-- The hypotheses of clause 8 of `SuperSpeedPacketsComplete` meet: HEADER_CREDIT_RETURN. -/
theorem wit_SuperSpeedPacketsComplete_8_headerCreditReturn : ∃ (n : Channel) (s : State), s.g (SSH_PORT.HP_IN n) ≠ 0 ∧ s.creditOk n = false :=
  ⟨4, (ssb.p (SSH_PORT.HP_IN 4) 2).p PBF_STATUS.BANK_LOW 1, by decide +kernel⟩

/-- The hypotheses of clause 9 of `SuperSpeedPacketsComplete` meet: CREDIT_RELEASE. -/
theorem wit_SuperSpeedPacketsComplete_9_creditRelease : ∃ (q : Fin 21) (s : State), s.creditOk q = true ∧ q.val < 17 ∧ vat s.ss.withheld q ≠ 0 :=
  ⟨4, ssb.withSs { ssb.ss with withheld := vset ssb.ss.withheld 4 2 }, by decide +kernel⟩

/-- The hypotheses of clause 10 of `SuperSpeedPacketsComplete` meet: CREDIT_RELEASE. -/
theorem wit_SuperSpeedPacketsComplete_10_creditRelease : ∃ (q : Fin 21) (s : State), s.creditOk q = true ∧ 17 ≤ q.val ∧ (s.lk (q - 17)).owedD ≠ 0 :=
  ⟨18, ssb.lkMod 1 fun l => { l with owedD := 3 }, by decide +kernel⟩

/-- The hypotheses of clause 0 of `SuperSpeedLinksComplete` meet: LGO_RECEIVED. -/
theorem wit_SuperSpeedLinksComplete_0_lgoReceived : ∃ (n : Stall) (u2 : Bool) (s : State), s.lpmFrom n u2 = true ∧ s.acceptsLgo n u2 = true :=
  ⟨4, false, (ssb.p (SSH_PORT.LINK 4) 0).p (SSH_PORT_LPM.U1_TIMEOUT 4) 5, by decide +kernel⟩

/-- The hypotheses of clause 1 of `SuperSpeedLinksComplete` meet: LGO_RECEIVED. -/
theorem wit_SuperSpeedLinksComplete_1_lgoReceived : ∃ (n : Stall) (u2 : Bool) (s : State), s.lpmFrom n u2 = true ∧ s.acceptsLgo n u2 = false :=
  ⟨4, false, ssb, by decide +kernel⟩

/-- The hypotheses of clause 2 of `SuperSpeedLinksComplete` meet: LPM_INACTIVITY_TIMEOUT. -/
theorem wit_SuperSpeedLinksComplete_2_lpmInactivityTimeout : ∃ (n : Stall) (u2 : Bool) (s : State), s.lpmFrom n u2 = true ∧ (1 ≤ s.g (if u2 then SSH_PORT_LPM.U2_TIMEOUT n else SSH_PORT_LPM.U1_TIMEOUT n)) ∧ (s.g (if u2 then SSH_PORT_LPM.U2_TIMEOUT n else SSH_PORT_LPM.U1_TIMEOUT n) ≤ (if u2 then 0xFE else 0x7F)) ∧ s.egressBusy n = false ∧ s.g (SSH_PORT.LINK n) ≠ 1 :=
  ⟨4, true, ssb.p (SSH_PORT_LPM.U2_TIMEOUT 4) 9, by decide +kernel⟩

/-- The hypotheses of clause 3 of `SuperSpeedLinksComplete` meet: LPM_INACTIVITY_TIMEOUT. -/
theorem wit_SuperSpeedLinksComplete_3_lpmInactivityTimeout : ∃ (n : Stall) (s : State), s.lpmFrom n true = true ∧ 1 ≤ s.g (SSH_PORT_LPM.U2_TIMEOUT n) ∧ s.g (SSH_PORT_LPM.U2_TIMEOUT n) ≤ 0xFE ∧ s.egressBusy n = false ∧ s.g (SSH_PORT.LINK n) = 1 :=
  ⟨4, ssb.fields [(SSH_PORT_LPM.U2_TIMEOUT 4, 9), (SSH_PORT.LINK 4, 1)], by decide +kernel⟩

/-- The hypotheses of clause 4 of `SuperSpeedLinksComplete` meet: USP_LPM_INITIATE. -/
theorem wit_SuperSpeedLinksComplete_4_uspLpmInitiate : ∃ (u : Fin 2) (u2 : Bool) (slot : _) (s : State), s.slotOf u = some slot ∧ (s.on (if u2 then SSH_USP_LPM.U2_ENABLE u else SSH_USP_LPM.U1_ENABLE u) = true) ∧ s.lpmFrom (15 + u) u2 = true ∧ s.egress (15 + u) = [] ∧ s.paddockDeep slot u2 = true :=
  ⟨0, false, 2, (ssb.withHolders []).p (SSH_USP_LPM.U1_ENABLE 0) 1, by decide +kernel⟩

/-- The hypotheses of clause 5 of `SuperSpeedLinksComplete` meet: USP_LGO_RECEIVED. -/
theorem wit_SuperSpeedLinksComplete_5_uspLgoReceived : ∃ (u : Fin 2) (u2 : Bool) (s : State), s.lpmFrom (15 + u) u2 = true ∧ s.egress (15 + u) = [] :=
  ⟨0, true, ssb, by decide +kernel⟩

/-- The hypotheses of clause 6 of `SuperSpeedLinksComplete` meet: USP_LGO_RECEIVED. -/
theorem wit_SuperSpeedLinksComplete_6_uspLgoReceived : ∃ (u : Fin 2) (u2 : Bool) (s : State), s.lpmFrom (15 + u) u2 = true ∧ s.egress (15 + u) ≠ [] :=
  ⟨0, true, ssb.setEgress 15 [{ pkt := pkt, q := 4, banks := [] }], by decide +kernel⟩

/-- The hypotheses of clause 7 of `SuperSpeedLinksComplete` meet: LFPS_DETECTED. -/
theorem wit_SuperSpeedLinksComplete_7_lfpsDetected : ∃ (i : Fin 20) (s : State), s.domOn (laneDom i) = false ∧ s.domOn dHUB = true :=
  ⟨4, ssb.p (PDC_DOM.STATE (laneDom 4)) 2, by decide +kernel⟩

/-- The hypotheses of clause 8 of `SuperSpeedLinksComplete` meet: LFPS_DETECTED. -/
theorem wit_SuperSpeedLinksComplete_8_lfpsDetected : ∃ (i : Fin 20) (s : State), s.domOn (laneDom i) = true ∧ s.domOn dHUB = false :=
  ⟨4, ssb.p (PDC_DOM.STATE dHUB) 2, by decide +kernel⟩

/-- The hypotheses of clause 9 of `SuperSpeedLinksComplete` meet: LFPS_DETECTED. -/
theorem wit_SuperSpeedLinksComplete_9_lfpsDetected : ∃ (i : Fin 20) (s : State), s.domOn (laneDom i) = false ∧ (s.activity (laneDom i)).domOn dHUB = false :=
  ⟨4, (ssb.p (PDC_DOM.STATE (laneDom 4)) 2).p (PDC_DOM.STATE dHUB) 2, by decide +kernel⟩

/-- The hypotheses of clause 10 of `SuperSpeedLinksComplete` meet: DEVICE_U3_EXIT. -/
theorem wit_SuperSpeedLinksComplete_10_deviceU3Exit : ∃ (n : Stall) (s : State), s.g (SSH_PORT.LINK n) = 3 ∧ s.resumeAhead n = false :=
  ⟨4, ssb.p (SSH_PORT.LINK 4) 3, by decide +kernel⟩

/-- The hypotheses of clause 11 of `SuperSpeedLinksComplete` meet: HOST_U3_EXIT. -/
theorem wit_SuperSpeedLinksComplete_11_hostU3Exit : ∃ (u : Fin 2) (s : State), s.g (SSH_PORT.LINK (15 + u)) = 3 :=
  ⟨0, ssb.p (SSH_PORT.LINK 15) 3, by decide +kernel⟩

/-- The hypotheses of clause 12 of `SuperSpeedLinksComplete` meet: SS_LANE_LOST. -/
theorem wit_SuperSpeedLinksComplete_12_ssLaneLost : ∃ (n : Channel) (s : State), s.g (SSH_PORT.LINK n) ∈ [0, 1, 2, 3, 7, 8, 9] :=
  ⟨4, ssb, by decide +kernel⟩

/-- The hypotheses of clause 13 of `SuperSpeedLinksComplete` meet: RX_DETECT_PARTNER_FOUND. -/
theorem wit_SuperSpeedLinksComplete_13_rxDetectPartnerFound : ∃ (n : Channel) (s : State), s.g (SSH_PORT.LINK n) = 5 :=
  ⟨4, ssb.p (SSH_PORT.LINK 4) 5, by decide +kernel⟩

/-- The hypotheses of clause 14 of `SuperSpeedLinksComplete` meet: ITP_NOTICE. -/
theorem wit_SuperSpeedLinksComplete_14_itpNotice : ∃ (c : CtrlHdr) (slot : Fin 4) (bic : Fin 16384) (u : _) (s : State), Taken c s ∧ s.rxCtrl c "ITP_NOTICE" [slot.val, bic.val] id = u ∧ u.on SSH_X_TUNE.ITP_REGEN = true ∧ u.on SSH_CTRL.ITP_EN = true ∧ ((u.heldStalls slot).filter fun n => u.g (SSH_PORT.LINK n) = 0) ≠ [] ∧ u.g (YRD_STATUS.STATE slot) ≠ 2 :=
  ⟨(ch 0 5), 2, 0, (ssb.fields [(GLK_LINK.STATE 0, 4), (SSH_X_TUNE.ITP_REGEN, 1), (SSH_CTRL.ITP_EN, 1), (YRD_STATUS.STATE 2, 1)]).rxCtrl ((ch 0 5)) "ITP_NOTICE" [2, 0] id, ssb.fields [(GLK_LINK.STATE 0, 4), (SSH_X_TUNE.ITP_REGEN, 1), (SSH_CTRL.ITP_EN, 1), (YRD_STATUS.STATE 2, 1)], by decide +kernel⟩

/-- The hypotheses of clause 15 of `SuperSpeedLinksComplete` meet: ITP_NOTICE. -/
theorem wit_SuperSpeedLinksComplete_15_itpNotice : ∃ (c : CtrlHdr) (slot : Fin 4) (bic : Fin 16384) (u : _) (s : State), Taken c s ∧ s.rxCtrl c "ITP_NOTICE" [slot.val, bic.val] id = u ∧ u.on SSH_X_TUNE.ITP_REGEN = true ∧ u.on SSH_CTRL.ITP_EN = true ∧ u.on (YRD_STATUS.STALE slot) = false ∧ u.g (YRD_STATUS.STATE slot) = 2 ∧ (vat u.yards slot).iv % 16384 = bic.val :=
  ⟨(ch 0 5), 2, 0, (ssb.fields [(GLK_LINK.STATE 0, 4), (SSH_X_TUNE.ITP_REGEN, 1), (SSH_CTRL.ITP_EN, 1), (YRD_STATUS.STATE 2, 2)]).rxCtrl ((ch 0 5)) "ITP_NOTICE" [2, 0] id, ssb.fields [(GLK_LINK.STATE 0, 4), (SSH_X_TUNE.ITP_REGEN, 1), (SSH_CTRL.ITP_EN, 1), (YRD_STATUS.STATE 2, 2)], by decide +kernel⟩

/-- The hypotheses of clause 16 of `SuperSpeedLinksComplete` meet: LDM_EXCHANGE. -/
theorem wit_SuperSpeedLinksComplete_16_ldmExchange : ∃ (n : Channel) (result : Option Nat) (d : _) (s : State), 15 ≤ n.val ∧ s.g (SSH_PORT.LINK n) = 0 ∧ s.on SSH_CTRL.LDM_EN = true ∧ s.on (SSH_USP_LPM.LDM_ENABLE (n - 15)) = true ∧ result = some d :=
  ⟨15, (some 120), 120, ssb.fields [(SSH_CTRL.LDM_EN, 1), (SSH_USP_LPM.LDM_ENABLE 0, 1)], by decide +kernel⟩

/-- The hypotheses of clause 17 of `SuperSpeedLinksComplete` meet: LDM_EXCHANGE. -/
theorem wit_SuperSpeedLinksComplete_17_ldmExchange : ∃ (n : Channel) (result : Option Nat) (s : State), 15 ≤ n.val ∧ s.g (SSH_PORT.LINK n) = 0 ∧ s.on SSH_CTRL.LDM_EN = true ∧ s.on (SSH_USP_LPM.LDM_ENABLE (n - 15)) = true ∧ result = none :=
  ⟨15, none, ssb.fields [(SSH_CTRL.LDM_EN, 1), (SSH_USP_LPM.LDM_ENABLE 0, 1)], by decide +kernel⟩

/-- The hypotheses of clause 18 of `SuperSpeedLinksComplete` meet: LDM_EXCHANGE. -/
theorem wit_SuperSpeedLinksComplete_18_ldmExchange : ∃ (n : Channel) (s : State), n.val ≤ 14 ∧ s.g (SSH_PORT.LINK n) = 0 ∧ s.on SSH_CTRL.LDM_EN = true :=
  ⟨3, ssb.fields [(SSH_CTRL.LDM_EN, 1), (SSH_PORT.LINK 3, 0)], by decide +kernel⟩

/-- The hypotheses of clause 0 of `TranslatorComplete` meet: TT_SOF. -/
theorem wit_TranslatorComplete_0_ttSof : ∃ (n : Stall) (s : State), s.ttOn n = true :=
  ⟨1, ttb, by decide +kernel⟩

/-- The hypotheses of clause 1 of `TranslatorComplete` meet: SOF_FILL. -/
theorem wit_TranslatorComplete_1_sofFill : ∃ (n : Stall) (s : State), s.ahead (sofOf n) = false ∧ s.ttOn n = true ∧ (s.tt' n).sofCycle ≠ some s.cycle :=
  ⟨1, ttb, by decide +kernel⟩

/-- The hypotheses of clause 2 of `TranslatorComplete` meet: TT_PERIODIC_HOLD. -/
theorem wit_TranslatorComplete_2_ttPeriodicHold : ∃ (n : Stall) (s : State), s.ttOn n = true ∧ s.g TTA_X_TUNE.NOSOF_HOLD ≤ (s.tt' n).noSof ∧ (s.tt' n).held = false :=
  ⟨1, ttb.ttMod 1 fun x => { x with noSof := 15 }, by decide +kernel⟩

/-- The hypotheses of clause 3 of `TranslatorComplete` meet: PERIODIC_START_SPLIT. -/
theorem wit_TranslatorComplete_3_periodicStartSplit : ∃ (n : Stall) (data : List (BitVec 8)) (s : State), s.ttOn n = true ∧ (s.tt' n).per.length < 32 ∧ data.length ≤ 188 :=
  ⟨1, [0xA5#8], ttb, by decide +kernel⟩

/-- The hypotheses of clause 4 of `TranslatorComplete` meet: PERIODIC_START_SPLIT. -/
theorem wit_TranslatorComplete_4_periodicStartSplit : ∃ (n : Stall) (data : List (BitVec 8)) (s : State), s.ttOn n = true ∧ 188 < data.length :=
  ⟨1, (List.replicate 189 0#8), ttb, by decide +kernel⟩

/-- The hypotheses of clause 5 of `TranslatorComplete` meet: NONPERIODIC_START_SPLIT. -/
theorem wit_TranslatorComplete_5_nonperiodicStartSplit : ∃ (n : Stall) (dev : Fin 128) (ep : Fin 16) (dirIn : Bool) (data : List (BitVec 8)) (s : State), s.ttOn n = true ∧ (s.tt' n).np.length < 4 ∧ data.length ≤ 64 ∧ ((s.tt' n).np.any fun b => b.dev = dev.val && b.ep = ep.val && b.dirIn = dirIn) = false :=
  ⟨1, 5, 1, false, [0xA5#8], ttb, by decide +kernel⟩

/-- The hypotheses of clause 6 of `TranslatorComplete` meet: NONPERIODIC_START_SPLIT. -/
theorem wit_TranslatorComplete_6_nonperiodicStartSplit : ∃ (n : Stall) (dev : Fin 128) (ep : Fin 16) (dirIn : Bool) (s : State), s.ttOn n = true ∧ (4 ≤ (s.tt' n).np.length ∨ ((s.tt' n).np.any fun b => b.dev = dev.val && b.ep = ep.val && b.dirIn = dirIn) = true) :=
  ⟨1, 5, 1, false, ttb.ttMod 1 fun x => { x with np := [⟨5, 1, true, false, [], 0, none, false⟩] }, by decide +kernel⟩

/-- The hypotheses of clause 7 of `TranslatorComplete` meet: COMPLETE_SPLIT. -/
theorem wit_TranslatorComplete_7_completeSplit : ∃ (n : Stall) (periodic : Bool) (dev : Fin 128) (ep : Fin 16) (dirIn : Bool) (s : State), s.ttOn n = true ∧ ((if periodic then (s.tt' n).per else (s.tt' n).np).find? (fun b => b.dev = dev.val && b.ep = ep.val && b.dirIn = dirIn && !b.cancel) = none) :=
  ⟨1, true, 5, 1, false, ttb, by decide +kernel⟩

/-- The hypotheses of clause 8 of `TranslatorComplete` meet: COMPLETE_SPLIT. -/
theorem wit_TranslatorComplete_8_completeSplit : ∃ (n : Stall) (periodic : Bool) (dev : Fin 128) (ep : Fin 16) (dirIn : Bool) (b : _) (a : _) (s : State), s.ttOn n = true ∧ ((if periodic then (s.tt' n).per else (s.tt' n).np).find? (fun b => b.dev = dev.val && b.ep = ep.val && b.dirIn = dirIn && !b.cancel) = some b) ∧ b.ans = some a :=
  ⟨1, false, 5, 1, false, ⟨5, 1, true, false, [], 0, some .ack, false⟩, .ack, ttb.ttMod 1 fun x => { x with np := [⟨5, 1, true, false, [], 0, some .ack, false⟩] }, by decide +kernel⟩

/-- The hypotheses of clause 9 of `TranslatorComplete` meet: TT_TRANSACTION_END. -/
theorem wit_TranslatorComplete_9_ttTransactionEnd : ∃ (n : Stall) (s : State), s.ttOn n = true :=
  ⟨1, ttb, by decide +kernel⟩

/-- The hypotheses of clause 10 of `TranslatorComplete` meet: PERIODIC_WINDOW_END. -/
theorem wit_TranslatorComplete_10_periodicWindowEnd : ∃ (n : Stall) (dev : Fin 128) (ep : Fin 16) (dirIn : Bool) (b : _) (s : State), s.ttOn n = true ∧ (s.tt' n).per.find? (fun b => b.dev = dev.val && b.ep = ep.val && b.dirIn = dirIn) = some b :=
  ⟨1, 5, 1, false, ⟨5, 1, true, false, [], 0, none, false⟩, ttb.ttMod 1 fun x => { x with per := [⟨5, 1, true, false, [], 0, none, false⟩] }, by decide +kernel⟩

/-- The hypotheses of clause 11 of `TranslatorComplete` meet: TT_EOF. -/
theorem wit_TranslatorComplete_11_ttEof : ∃ (n : Stall) (s : State), s.ttOn n = true ∧ (s.tt' n).cur = some true :=
  ⟨1, ttb.ttMod 1 fun x => { x with cur := some true }, by decide +kernel⟩

/-- The hypotheses of clause 12 of `TranslatorComplete` meet: TT_EOF. -/
theorem wit_TranslatorComplete_12_ttEof : ∃ (n : Stall) (s : State), s.ttOn n = true ∧ (s.tt' n).cur ≠ some true :=
  ⟨1, ttb, by decide +kernel⟩

/-- The hypotheses of clause 0 of `OrdersComplete` meet: ORDER_RESET. -/
theorem wit_OrdersComplete_0_orderReset : ∃ (n : Stall) (o : _) (s : State), s.hsOn = true ∧ firstOrder s.hs.orders (fun o => o.n = n) = some o ∧ o.act = .reset ∧ o.stamp ≤ s.yticks o.slot ∧ s.g (HSH_PORT.STATE n) ∈ [2, 4, 5, 6, 7, 8] :=
  ⟨1, ⟨2, 1, 0, .reset⟩, (hsb.p (HSH_PORT.STATE 1) 4).hsMod fun h => { h with orders := [⟨2, 1, 0, .reset⟩] }, by decide +kernel⟩

/-- The hypotheses of clause 1 of `OrdersComplete` meet: ORDER_SUSPEND_PORT. -/
theorem wit_OrdersComplete_1_orderSuspendPort : ∃ (n : Stall) (o : _) (s : State), s.hsOn = true ∧ firstOrder s.hs.orders (fun o => o.n = n) = some o ∧ o.act = .suspend ∧ o.stamp ≤ s.yticks o.slot ∧ s.g (HSH_PORT.STATE n) = 4 :=
  ⟨1, ⟨2, 1, 0, .suspend⟩, (hsb.p (HSH_PORT.STATE 1) 4).hsMod fun h => { h with orders := [⟨2, 1, 0, .suspend⟩] }, by decide +kernel⟩

/-- The hypotheses of clause 2 of `OrdersComplete` meet: ORDER_RESUME_PORT. -/
theorem wit_OrdersComplete_2_orderResumePort : ∃ (n : Stall) (o : _) (s : State), s.hsOn = true ∧ s.g (HSH_ENG.STATE (s.engineOf n)) ∉ [4, 5] ∧ firstOrder s.hs.orders (fun o => o.n = n) = some o ∧ o.act = .resume ∧ o.stamp ≤ s.yticks o.slot ∧ s.g (HSH_PORT.STATE n) = 5 :=
  ⟨1, ⟨2, 1, 0, .resume⟩, (hsb.p (HSH_PORT.STATE 1) 5).hsMod fun h => { h with orders := [⟨2, 1, 0, .resume⟩] }, by decide +kernel⟩

/-- The hypotheses of clause 3 of `OrdersComplete` meet: ORDER_BUS_RESUME_START. -/
theorem wit_OrdersComplete_3_orderBusResumeStart : ∃ (slot : Fin 4) (o : _) (s : State), s.hsOn = true ∧ firstOrder s.hs.orders (fun o => o.n = 15 && o.slot = slot) = some o ∧ o.act = .busResumeStart ∧ o.stamp ≤ s.yticks o.slot :=
  ⟨2, ⟨2, 15, 0, .busResumeStart⟩, hsb.hsMod fun h => { h with orders := [⟨2, 15, 0, .busResumeStart⟩] }, by decide +kernel⟩

/-- The hypotheses of clause 4 of `OrdersComplete` meet: ORDER_BUS_RESUME_END. -/
theorem wit_OrdersComplete_4_orderBusResumeEnd : ∃ (slot : Fin 4) (o : _) (s : State), s.hsOn = true ∧ firstOrder s.hs.orders (fun o => o.n = 15 && o.slot = slot) = some o ∧ o.act = .busResumeEnd ∧ o.stamp ≤ s.yticks o.slot :=
  ⟨2, ⟨2, 15, 0, .busResumeEnd⟩, hsb.hsMod fun h => { h with orders := [⟨2, 15, 0, .busResumeEnd⟩] }, by decide +kernel⟩

/-- The hypotheses of clause 5 of `OrdersComplete` meet: ORDER_TEST. -/
theorem wit_OrdersComplete_5_orderTest : ∃ (n : Stall) (o : _) (m : _) (s : State), s.hsOn = true ∧ firstOrder s.hs.orders (fun o => o.n = n) = some o ∧ o.act = .test m ∧ o.stamp ≤ s.yticks o.slot :=
  ⟨1, ⟨2, 1, 0, .test 4⟩, 4, hsb.hsMod fun h => { h with orders := [⟨2, 1, 0, .test 4⟩] }, by decide +kernel⟩

/-- The hypotheses of clause 6 of `OrdersComplete` meet: ORDER_L1_EXIT. -/
theorem wit_OrdersComplete_6_orderL1Exit : ∃ (n : Stall) (o : _) (s : State), s.hsOn = true ∧ firstOrder s.hs.orders (fun o => o.n = n) = some o ∧ o.act = .l1Exit ∧ o.stamp ≤ s.yticks o.slot ∧ s.g (HSH_PORT.STATE n) = 7 :=
  ⟨1, ⟨2, 1, 0, .l1Exit⟩, (hsb.p (HSH_PORT.STATE 1) 7).hsMod fun h => { h with orders := [⟨2, 1, 0, .l1Exit⟩] }, by decide +kernel⟩

/-- The hypotheses of clause 7 of `OrdersComplete` meet: TTA_OP_DONE. -/
theorem wit_OrdersComplete_7_ttaOpDone : ∃ (s : State), s.on TTA_CMD.BUSY = true ∧ s.ttaOpDone.on TTA_CMD.BUSY = false :=
  ⟨ttb.fields [(TTA_CMD.BUSY, 1), (TTA_CMD.STALL, 1)], by decide +kernel⟩

/-- The hypotheses of clause 0 of `Usb2PortsComplete` meet: PORT_RESET_END. -/
theorem wit_Usb2PortsComplete_0_portResetEnd : ∃ (n : Stall) (speed : Fin 4) (s : State), s.g (HSH_PORT.STATE n) = 3 ∧ speed.val ≠ 0 :=
  ⟨1, 3, hsb.p (HSH_PORT.STATE 1) 3, by decide +kernel⟩

/-- The hypotheses of clause 1 of `Usb2PortsComplete` meet: PORT_RESUME_END. -/
theorem wit_Usb2PortsComplete_1_portResumeEnd : ∃ (n : Stall) (s : State), s.g (HSH_PORT.STATE n) = 6 ∧ vat s.hs.gsusp n = false :=
  ⟨1, hsb.p (HSH_PORT.STATE 1) 6, by decide +kernel⟩

/-- The hypotheses of clause 2 of `Usb2PortsComplete` meet: GLOBAL_SUSPEND. -/
theorem wit_Usb2PortsComplete_2_globalSuspend : ∃ (e : Fin 4) (s : State), s.g (HSH_ENG.ROLE e) ≠ 0 ∧ s.g (HSH_ENG.STATE e) = 2 :=
  ⟨0, hsb.p (HSH_ENG.STATE 0) 2, by decide +kernel⟩

/-- The hypotheses of clause 3 of `Usb2PortsComplete` meet: HOST_RESUME_DETECTED. -/
theorem wit_Usb2PortsComplete_3_hostResumeDetected : ∃ (u : Fin 2) (slot : _) (e : _) (s : State), s.domOn (5 + u.val) = true ∧ s.domOn dHSB = true ∧ s.slotOf u = some slot ∧ s.rootEngine slot = some e ∧ s.hs.waking.toList.any id = false ∧ vat s.hs.upK u = none ∧ s.g (HSH_ENG.STATE e) = 4 :=
  ⟨0, 2, 0, hsb.p (HSH_ENG.STATE 0) 4, by decide +kernel⟩

/-- The hypotheses of clause 4 of `Usb2PortsComplete` meet: HOST_RESUME_DETECTED. -/
theorem wit_Usb2PortsComplete_4_hostResumeDetected : ∃ (u : Fin 2) (slot : _) (e : _) (s : State), s.domOn (5 + u.val) = true ∧ s.domOn dHSB = true ∧ s.slotOf u = some slot ∧ s.rootEngine slot = some e ∧ s.hs.waking.toList.any id = false ∧ vat s.hs.upK u = none ∧ s.g (HSH_ENG.STATE e) = 3 :=
  ⟨0, 2, 0, hsb.p (HSH_ENG.STATE 0) 3, by decide +kernel⟩

/-- The hypotheses of clause 5 of `Usb2PortsComplete` meet: HOST_RESUME_DETECTED. -/
theorem wit_Usb2PortsComplete_5_hostResumeDetected : ∃ (u : Fin 2) (slot : _) (e : _) (c : _) (s : State), s.domOn (5 + u.val) = true ∧ s.domOn dHSB = true ∧ s.slotOf u = some slot ∧ s.rootEngine slot = some e ∧ vat s.hs.upK u = some c ∧ c ≠ s.cycle :=
  ⟨0, 2, 0, 9, hsb.hsMod fun h => { h with upK := vset h.upK 0 (some 9) }, by decide +kernel⟩

/-- The hypotheses of clause 6 of `Usb2PortsComplete` meet: HOST_RESUME_DETECTED. -/
theorem wit_Usb2PortsComplete_6_hostResumeDetected : ∃ (u : Fin 2) (s : State), (s.slotOf u).isSome = true ∧ (s.domOn (5 + u.val) = false ∨ s.domOn dHSB = false) :=
  ⟨0, (hsb.p (PDC_DOM.STATE dHSB) 2), by decide +kernel⟩

/-- The hypotheses of clause 7 of `Usb2PortsComplete` meet: HOST_RESUME_END. -/
theorem wit_Usb2PortsComplete_7_hostResumeEnd : ∃ (u : Fin 2) (slot : _) (e : _) (s : State), s.slotOf u = some slot ∧ s.rootEngine slot = some e ∧ s.g (HSH_ENG.STATE e) = 5 :=
  ⟨0, 2, 0, hsb.p (HSH_ENG.STATE 0) 5, by decide +kernel⟩

/-- The hypotheses of clause 8 of `Usb2PortsComplete` meet: REMOTE_WAKE. -/
theorem wit_Usb2PortsComplete_8_remoteWake : ∃ (src : Option CtrlHdr) (slot : Fin 4) (n : Stall) (s : State), s.domOn (portDom n) = true ∧ s.domOn dHSB = true ∧ src = none ∧ s.holderOf n = some slot.val ∧ s.g (HSH_PORT.STATE n) = 5 ∧ s.busSusp n = false :=
  ⟨none, 2, 1, hsb.p (HSH_PORT.STATE 1) 5, by decide +kernel⟩

/-- The hypotheses of clause 9 of `Usb2PortsComplete` meet: REMOTE_WAKE. -/
theorem wit_Usb2PortsComplete_9_remoteWake : ∃ (src : Option CtrlHdr) (slot : Fin 4) (n : Stall) (s : State), s.domOn (portDom n) = true ∧ s.domOn dHSB = true ∧ src = none ∧ s.holderOf n = some slot.val ∧ s.g (HSH_PORT.STATE n) = 5 ∧ s.busSusp n = true :=
  ⟨none, 2, 1, hsb.fields [(HSH_PORT.STATE 1, 5), (HSH_ENG.STATE 0, 4)], by decide +kernel⟩

/-- The hypotheses of clause 10 of `Usb2PortsComplete` meet: REMOTE_WAKE. -/
theorem wit_Usb2PortsComplete_10_remoteWake : ∃ (src : Option CtrlHdr) (n : Stall) (s : State), src = none ∧ (s.domOn (portDom n) = false ∨ s.domOn dHSB = false) :=
  ⟨none, 1, (hsb.p (PDC_DOM.STATE dHSB) 2), by decide +kernel⟩

/-- The hypotheses of clause 11 of `Usb2PortsComplete` meet: REMOTE_WAKE. -/
theorem wit_Usb2PortsComplete_11_remoteWake : ∃ (src : Option CtrlHdr) (c : _) (s : State), src = some c ∧ Taken c s :=
  ⟨(some (ch 0 5)), (ch 0 5), hsb.p (GLK_LINK.STATE 0) 4, by decide +kernel⟩

/-- The hypotheses of clause 12 of `Usb2PortsComplete` meet: WAKE_HOLD_EXPIRE. -/
theorem wit_Usb2PortsComplete_12_wakeHoldExpire : ∃ (u : Fin 2) (s : State), (vat s.hs.upK u).isSome = true :=
  ⟨0, hsb.hsMod fun h => { h with upK := vset h.upK 0 (some 9) }, by decide +kernel⟩

/-- The hypotheses of clause 13 of `Usb2PortsComplete` meet: LPM_ACK. -/
theorem wit_Usb2PortsComplete_13_lpmAck : ∃ (n : Channel) (s : State), (n.val ≤ 14 → s.g (HSH_PORT.STATE n) = 4) :=
  ⟨1, hsb.p (HSH_PORT.STATE 1) 4, by decide +kernel⟩

/-- The hypotheses of clause 14 of `Usb2PortsComplete` meet: L1_ENTRY. -/
theorem wit_Usb2PortsComplete_14_l1Entry : ∃ (n : Channel) (s : State), vat s.hs.acked n = true ∧ n.val ≤ 14 ∧ s.g (HSH_PORT.STATE n) = 4 :=
  ⟨1, (hsb.p (HSH_PORT.STATE 1) 4).hsMod fun h => { h with acked := vset h.acked 1 true }, by decide +kernel⟩

/-- The hypotheses of clause 15 of `Usb2PortsComplete` meet: L1_ENTRY. -/
theorem wit_Usb2PortsComplete_15_l1Entry : ∃ (n : Channel) (e : _) (s : State), vat s.hs.acked n = true ∧ 15 ≤ n.val ∧ (s.slotOf (n - 15)).bind s.rootEngine = some e ∧ s.g (HSH_ENG.STATE e) = 2 :=
  ⟨15, 0, (hsb.p (HSH_ENG.STATE 0) 2).hsMod fun h => { h with acked := vset h.acked 15 true }, by decide +kernel⟩

/-- The hypotheses of clause 16 of `Usb2PortsComplete` meet: DEVICE_L1_EXIT. -/
theorem wit_Usb2PortsComplete_16_deviceL1Exit : ∃ (src : Option CtrlHdr) (slot : Fin 4) (n : Stall) (s : State), s.domOn (portDom n) = true ∧ s.domOn dHSB = true ∧ src = none ∧ s.holderOf n = some slot.val ∧ s.g (HSH_PORT.STATE n) = 7 ∧ s.on (HSH_PORT.RWE n) = true :=
  ⟨none, 2, 1, hsb.fields [(HSH_PORT.STATE 1, 7), (HSH_PORT.RWE 1, 1)], by decide +kernel⟩

/-- The hypotheses of clause 17 of `Usb2PortsComplete` meet: DEVICE_L1_EXIT. -/
theorem wit_Usb2PortsComplete_17_deviceL1Exit : ∃ (src : Option CtrlHdr) (n : Stall) (s : State), src = none ∧ (s.domOn (portDom n) = false ∨ s.domOn dHSB = false) :=
  ⟨none, 1, (hsb.p (PDC_DOM.STATE dHSB) 2), by decide +kernel⟩

/-- The hypotheses of clause 18 of `Usb2PortsComplete` meet: DEVICE_L1_EXIT. -/
theorem wit_Usb2PortsComplete_18_deviceL1Exit : ∃ (src : Option CtrlHdr) (c : _) (s : State), src = some c ∧ Taken c s :=
  ⟨(some (ch 0 5)), (ch 0 5), hsb.p (GLK_LINK.STATE 0) 4, by decide +kernel⟩

/-- The hypotheses of clause 19 of `Usb2PortsComplete` meet: HS_CONNECT_CHANGE. -/
theorem wit_Usb2PortsComplete_19_hsConnectChange : ∃ (n : Stall) (present : Bool) (s : State), s.domOn (portDom n) = true ∧ s.domOn dHSB = true ∧ s.g (HSH_PORT.STATE n) ≠ 0 ∧ present = true ∧ s.phyAway n = false ∧ s.on (HSH_PORT.CONNECT n) = false :=
  ⟨1, true, hsb.p (HSH_PORT.STATE 1) 1, by decide +kernel⟩

/-- The hypotheses of clause 20 of `Usb2PortsComplete` meet: HS_CONNECT_CHANGE. -/
theorem wit_Usb2PortsComplete_20_hsConnectChange : ∃ (n : Stall) (present : Bool) (s : State), s.domOn (portDom n) = true ∧ s.domOn dHSB = true ∧ s.g (HSH_PORT.STATE n) ≠ 0 ∧ present = false ∧ s.on (HSH_PORT.CONNECT n) = true :=
  ⟨1, false, hsb.fields [(HSH_PORT.STATE 1, 4), (HSH_PORT.CONNECT 1, 1)], by decide +kernel⟩

/-- The hypotheses of clause 21 of `Usb2PortsComplete` meet: HS_CONNECT_CHANGE. -/
theorem wit_Usb2PortsComplete_21_hsConnectChange : ∃ (n : Stall) (s : State), (s.domOn (portDom n) = false ∨ s.domOn dHSB = false) :=
  ⟨1, (hsb.p (PDC_DOM.STATE dHSB) 2), by decide +kernel⟩

/-- The hypotheses of clause 22 of `Usb2PortsComplete` meet: BABBLE_DISABLE. -/
theorem wit_Usb2PortsComplete_22_babbleDisable : ∃ (n : Stall) (s : State), s.g (HSH_PORT.STATE n) ∈ [4, 5, 6, 7] :=
  ⟨1, hsb.p (HSH_PORT.STATE 1) 4, by decide +kernel⟩

/-- The hypotheses of clause 0 of `Usb2EnginesComplete` meet: FS_UPSTREAM_CONNECT. -/
theorem wit_Usb2EnginesComplete_0_fsUpstreamConnect : ∃ (u : Fin 2) (slot : _) (e : _) (s : State), s.slotOf u = some slot ∧ s.rootEngine slot = some e :=
  ⟨0, 2, 0, hsb, by decide +kernel⟩

/-- The hypotheses of clause 1 of `Usb2EnginesComplete` meet: CARRY_LOST. -/
theorem wit_Usb2EnginesComplete_1_carryLost : ∃ (k : Fin 4) (s : State), s.g (HSH_CARRY.STATE k) ∉ [1, 3] ∧ s.g (HSH_CARRY.BUS k) ≠ 0 ∧ ((List.range 4).all fun e => s.g (HSH_ENG.ROLE e) = 0 || s.g (HSH_ENG.UPSTREAM e) ≠ 4 + k.val) = true :=
  ⟨0, hsb.fields [(HSH_CARRY.STATE 0, 2), (HSH_CARRY.BUS 0, 1)], by decide +kernel⟩

/-- The hypotheses of clause 2 of `Usb2EnginesComplete` meet: CARRY_LOST. -/
theorem wit_Usb2EnginesComplete_2_carryLost : ∃ (k : Fin 4) (s : State), s.g (HSH_CARRY.STATE k) = 1 ∧ s.g (HSH_CARRY.BUS k) ≠ 0 ∧ ((List.range 4).all fun e => (((s.p (HSH_CARRY.STATE k) 2).linkJudge dFAB).raise 37 k).g (HSH_ENG.ROLE e) = 0 || (((s.p (HSH_CARRY.STATE k) 2).linkJudge dFAB).raise 37 k).g (HSH_ENG.UPSTREAM e) ≠ 4 + k.val) = true :=
  ⟨0, hsb.fields [(HSH_CARRY.STATE 0, 1), (HSH_CARRY.BUS 0, 1)], by decide +kernel⟩

/-- The hypotheses of clause 3 of `Usb2EnginesComplete` meet: CARRY_RECEIVER_ACTIVITY. -/
theorem wit_Usb2EnginesComplete_3_carryReceiverActivity : ∃ (s : State), s.domOn dFAB = false :=
  ⟨hsb.p (PDC_DOM.STATE dFAB) 2, by decide +kernel⟩

/-- The hypotheses of clause 4 of `Usb2EnginesComplete` meet: UPSTREAM_U3_ENTRY. -/
theorem wit_Usb2EnginesComplete_4_upstreamU3Entry : ∃ (u : Fin 2) (slot : _) (s : State), s.slotOf u = some slot ∧ s.g (SSH_PORT.LINK (15 + u)) ≤ 2 :=
  ⟨0, 2, hsb.p (SSH_PORT.LINK 15) 0, by decide +kernel⟩

/-- The hypotheses of clause 5 of `Usb2EnginesComplete` meet: WIDTH_CHANGE_STEP_DONE. -/
theorem wit_Usb2EnginesComplete_5_widthChangeStepDone : ∃ (u : Fin 2) (s : State), (vat s.dp u).step = 1 :=
  ⟨0, hsb.withDp (vmod hsb.dp 0 fun d => { d with step := 1 }), by decide +kernel⟩

/-- The hypotheses of clause 6 of `Usb2EnginesComplete` meet: WIDTH_CHANGE_STEP_DONE. -/
theorem wit_Usb2EnginesComplete_6_widthChangeStepDone : ∃ (u : Fin 2) (s : State), (vat s.dp u).step = 2 :=
  ⟨0, hsb.withDp (vmod hsb.dp 0 fun d => { d with step := 2 }), by decide +kernel⟩

/-- The hypotheses of clause 7 of `Usb2EnginesComplete` meet: WIDTH_CHANGE_STEP_DONE. -/
theorem wit_Usb2EnginesComplete_7_widthChangeStepDone : ∃ (u : Fin 2) (s : State), (vat s.dp u).step = 3 :=
  ⟨0, hsb.withDp (vmod hsb.dp 0 fun d => { d with step := 3, wanted := 1 }), by decide +kernel⟩

/-- The hypotheses of clause 8 of `Usb2EnginesComplete` meet: BC12_SWITCH_START. -/
theorem wit_Usb2EnginesComplete_8_bc12SwitchStart : ∃ (n : Stall) (s : State), vat s.hs.moving n = false ∧ (s.typ n = 1 ∨ s.typ n = 5) ∧ s.stallFlag n 2 = true ∧ s.g (HSH_PORT.BC n) ≠ 3 ∧ (s.g (HSH_PORT.BC n) ≠ (if (s.holderOf n).any fun y => (s.upKnown y).conf then 0 else 2)) :=
  ⟨1, hsb.withPlan { Plan.empty with stalls := [stallBc] }, by decide +kernel⟩

/-- The hypotheses of clause 9 of `Usb2EnginesComplete` meet: BC12_SWITCH_START. -/
theorem wit_Usb2EnginesComplete_9_bc12SwitchStart : ∃ (n : Stall) (s : State), (s.typ n = 1 ∨ s.typ n = 5) ∧ s.stallFlag n 2 = false ∧ s.stallFlag n 1 = true :=
  ⟨1, hsb.withPlan { Plan.empty with stalls := [{ stallBc with flags := 2 }] }, by decide +kernel⟩

/-- The hypotheses of clause 10 of `Usb2EnginesComplete` meet: BC12_SWITCH_WAIT_END. -/
theorem wit_Usb2EnginesComplete_10_bc12SwitchWaitEnd : ∃ (n : Stall) (s : State), s.g (HSH_PORT.BC n) = 3 ∧ (s.ch n).vbusLow = true ∧ s.stallFlag n 2 = true ∧ (s.typ n = 1 ∨ s.typ n = 5) ∧ vat s.hs.bcTarget n = (if (s.holderOf n).any fun y => (s.upKnown y).conf then 0 else 2) :=
  ⟨1, ((((pin.withPlan { Plan.empty with stalls := [stallBc] }).p (HSH_PORT.BC 1) 3).chMod 1 fun c => { c with vbusLow := true }).hsMod fun h => { h with bcTarget := vset h.bcTarget 1 2 }), by decide +kernel⟩

/-- The hypotheses of clause 11 of `Usb2EnginesComplete` meet: VDP_SRC_DETECTED. -/
theorem wit_Usb2EnginesComplete_11_vdpSrcDetected : ∃ (n : Stall) (s : State), s.g (HSH_PORT.BC n) = 1 :=
  ⟨1, hsb.p (HSH_PORT.BC 1) 1, by decide +kernel⟩

/-- The hypotheses of clause 0 of `HubRequestsComplete` meet: MIRROR_RECORD. -/
theorem wit_HubRequestsComplete_0_mirrorRecord : ∃ (c : CtrlHdr) (slot : Fin 4) (hub : Fin 16) (port : Fin 16) (seq : Nat) (hs : Nat) (hsChg : Nat) (ss : Nat) (ssChg : Nat) (u1 : Nat) (u2 : Nat) (q : _) (u : _) (s : State), Taken c s ∧ s.rxCtrl c "MIRROR" [slot.val, hub.val, port.val, seq, hs, hsChg, ss, ssChg, u1, u2] id = u ∧ u.mir slot hub port = some q ∧ q.reach = true ∧ seq = (q.st.seq + 1) % 65536 :=
  ⟨(ch 0 5), 2, 0, 1, 1, 0, 0, 0, 0, 0, 0, mir1, (padb).rxCtrl ((ch 0 5)) "MIRROR" [2, 0, 1, (1), (0), (0), (0), (0), (0), (0)] id, padb, by decide +kernel⟩

/-- The hypotheses of clause 1 of `HubRequestsComplete` meet: MIRROR_RECORD. -/
theorem wit_HubRequestsComplete_1_mirrorRecord : ∃ (c : CtrlHdr) (slot : Fin 4) (hub : Fin 16) (port : Fin 16) (seq : Nat) (hs : Nat) (hsChg : Nat) (ss : Nat) (ssChg : Nat) (u1 : Nat) (u2 : Nat) (q : _) (u : _) (s : State), Taken c s ∧ s.rxCtrl c "MIRROR" [slot.val, hub.val, port.val, seq, hs, hsChg, ss, ssChg, u1, u2] id = u ∧ u.mir slot hub port = some q ∧ seq ≠ (q.st.seq + 1) % 65536 :=
  ⟨(ch 0 5), 2, 0, 1, 7, 0, 0, 0, 0, 0, 0, mir1, (padb).rxCtrl ((ch 0 5)) "MIRROR" [2, 0, 1, (7), (0), (0), (0), (0), (0), (0)] id, padb, by decide +kernel⟩

/-- The hypotheses of clause 2 of `HubRequestsComplete` meet: MIRROR_SNAPSHOT. -/
theorem wit_HubRequestsComplete_2_mirrorSnapshot : ∃ (e : SnapEvent) (slot : _) (s : State), e = .timer slot ∧ (vat s.yards slot).iv % 1000 = 0 :=
  ⟨(.timer 2), 2, padb, by decide +kernel⟩

/-- The hypotheses of clause 3 of `HubRequestsComplete` meet: MIRROR_SNAPSHOT. -/
theorem wit_HubRequestsComplete_3_mirrorSnapshot : ∃ (e : SnapEvent) (c : _) (slot : _) (hub : _) (port : _) (n : _) (u : _) (s : State), e = .asked c slot hub port ∧ Taken c s ∧ s.rxCtrl c "MIRROR_ASK" [slot.val, hub.val, port.val] id = u ∧ (u.heldStalls slot).find? (fun n => (u.posOf n).any fun (x : Nat × Pos × Nat) => x.2.1.hub = hub.val && x.2.1.port = port.val) = some n :=
  ⟨(.asked (ch 0 5) 2 0 1), (ch 0 5), 2, 0, 1, 1, (padb).rxCtrl ((ch 0 5)) "MIRROR_ASK" [2, 0, 1] id, padb, by decide +kernel⟩

/-- The hypotheses of clause 4 of `HubRequestsComplete` meet: MIRROR_SNAPSHOT. -/
theorem wit_HubRequestsComplete_4_mirrorSnapshot : ∃ (e : SnapEvent) (c : _) (slot : _) (hub : _) (port : _) (seq : _) (hs : _) (hsChg : _) (ss : _) (ssChg : _) (u1 : _) (u2 : _) (q : _) (u : _) (s : State), e = .got c slot hub port seq hs hsChg ss ssChg u1 u2 ∧ Taken c s ∧ s.rxCtrl c "SNAPSHOT" [slot.val, hub.val, port.val, seq, hs, hsChg, ss, ssChg, u1, u2] id = u ∧ u.mir slot hub port = some q :=
  ⟨(.got (ch 0 5) 2 0 1 9 0x101 1 0x281 0 0 0), (ch 0 5), 2, 0, 1, 9, 0x101, 1, 0x281, 0, 0, 0, mir1, (padb).rxCtrl ((ch 0 5)) "SNAPSHOT" [2, 0, 1, (9), (0x101), (1), (0x281), (0), (0), (0)] id, padb, by decide +kernel⟩

/-- The hypotheses of clause 5 of `HubRequestsComplete` meet: STATUS_CHANGE_IN. -/
theorem wit_HubRequestsComplete_5_statusChangeIn : ∃ (slot : Fin 4) (hub : Fin 16) (s : State), s.answers slot hub = true :=
  ⟨2, 0, padb, by decide +kernel⟩

/-- The hypotheses of clause 6 of `HubRequestsComplete` meet: GET_HUB_STATUS. -/
theorem wit_HubRequestsComplete_6_getHubStatus : ∃ (slot : Fin 4) (hub : Fin 16) (s : State), s.answers slot hub = true :=
  ⟨2, 0, padb, by decide +kernel⟩

/-- The hypotheses of clause 7 of `HubRequestsComplete` meet: GET_PORT_STATUS. -/
theorem wit_HubRequestsComplete_7_getPortStatus : ∃ (slot : Fin 4) (hub : Fin 16) (port : Fin 16) (q : _) (s : State), s.answers slot hub = true ∧ s.mir slot hub port = some q :=
  ⟨2, 0, 1, mir1, padb, by decide +kernel⟩

/-- The hypotheses of clause 8 of `HubRequestsComplete` meet: GET_PORT_STATUS. -/
theorem wit_HubRequestsComplete_8_getPortStatus : ∃ (slot : Fin 4) (hub : Fin 16) (port : Fin 16) (s : State), s.answers slot hub = true ∧ s.mir slot hub port = none :=
  ⟨2, 0, 9, padb, by decide +kernel⟩

/-- The hypotheses of clause 9 of `HubRequestsComplete` meet: GET_PORT_STATUS_EXT. -/
theorem wit_HubRequestsComplete_9_getPortStatusExt : ∃ (slot : Fin 4) (hub : Fin 16) (port : Fin 16) (q : _) (s : State), s.answers slot hub = true ∧ s.mir slot hub port = some q ∧ q.kind = 1 ∧ s.heldBy q = true ∧ q.reach = true :=
  ⟨2, 0, 1, mir1, padb, by decide +kernel⟩

/-- The hypotheses of clause 10 of `HubRequestsComplete` meet: GET_PORT_STATUS_EXT. -/
theorem wit_HubRequestsComplete_10_getPortStatusExt : ∃ (slot : Fin 4) (hub : Fin 16) (port : Fin 16) (q : _) (s : State), s.answers slot hub = true ∧ s.mir slot hub port = some q ∧ (q.kind = 1 && s.heldBy q && q.reach) = false :=
  ⟨2, 0, 3, mir3, padb, by decide +kernel⟩

/-- The hypotheses of clause 11 of `HubRequestsComplete` meet: GET_PORT_ERROR_COUNT. -/
theorem wit_HubRequestsComplete_11_getPortErrorCount : ∃ (slot : Fin 4) (hub : Fin 16) (port : Fin 16) (q : _) (s : State), s.answers slot hub = true ∧ s.mir slot hub port = some q ∧ q.kind = 1 ∧ s.heldBy q = true ∧ q.reach = true :=
  ⟨2, 0, 1, mir1, padb, by decide +kernel⟩

/-- The hypotheses of clause 12 of `HubRequestsComplete` meet: GET_PORT_ERROR_COUNT. -/
theorem wit_HubRequestsComplete_12_getPortErrorCount : ∃ (slot : Fin 4) (hub : Fin 16) (port : Fin 16) (q : _) (s : State), s.answers slot hub = true ∧ s.mir slot hub port = some q ∧ (q.kind = 1 && s.heldBy q && q.reach) = false :=
  ⟨2, 0, 3, mir3, padb, by decide +kernel⟩

/-- The hypotheses of clause 13 of `HubRequestsComplete` meet: HUB_REQUEST_RESULT. -/
theorem wit_HubRequestsComplete_13_hubRequestResult : ∃ (src : Option CtrlHdr) (slot : Fin 4) (hub : Fin 16) (port : Fin 16) (w : _) (s : State), src = none ∧ s.hubWaits.find? (fun w => w.slot = slot.val && w.hub = hub.val && w.port = port.val) = some w :=
  ⟨none, 2, 0, 1, ⟨2, 0, 1, 0, 1, .queryErr⟩, padb.withHubWaits [⟨2, 0, 1, 0, 1, .queryErr⟩], by decide +kernel⟩

/-- The hypotheses of clause 14 of `HubRequestsComplete` meet: HUB_REQUEST_RESULT. -/
theorem wit_HubRequestsComplete_14_hubRequestResult : ∃ (src : Option CtrlHdr) (slot : Fin 4) (hub : Fin 16) (port : Fin 16) (words : List Nat) (c : _) (w : _) (u : _) (s : State), src = some c ∧ Taken c s ∧ s.rxCtrl c "HUB_RESULT" ([slot.val, hub.val, port.val] ++ words) id = u ∧ u.hubWaits.find? (fun w => w.slot = slot.val && w.hub = hub.val && w.port = port.val) = some w :=
  ⟨(some (ch 0 5)), 2, 0, 1, [], (ch 0 5), ⟨2, 0, 1, 0, 1, .queryErr⟩, (padb.withHubWaits [⟨2, 0, 1, 0, 1, .queryErr⟩]).rxCtrl ((ch 0 5)) "HUB_RESULT" ([2, 0, 1] ++ ([])) id, padb.withHubWaits [⟨2, 0, 1, 0, 1, .queryErr⟩], by decide +kernel⟩

/-- The hypotheses of clause 15 of `HubRequestsComplete` meet: GET_HUB_DESCRIPTOR. -/
theorem wit_HubRequestsComplete_15_getHubDescriptor : ∃ (slot : Fin 4) (hub : Fin 16) (ss : Bool) (d : DescReq) (l : _) (s : State), s.answers slot hub = true ∧ s.hubAnswer slot hub ss (hub.val = 0 && (s.rootEngine slot).any fun e => s.g (HSH_ENG.SPEED e) = 1) d = some l :=
  ⟨2, 0, false, .hub, (((padb.hubAnswer 2 0 false false .hub)).getD []), padb, by decide +kernel⟩

/-- The hypotheses of clause 16 of `HubRequestsComplete` meet: GET_HUB_DESCRIPTOR. -/
theorem wit_HubRequestsComplete_16_getHubDescriptor : ∃ (slot : Fin 4) (hub : Fin 16) (ss : Bool) (d : DescReq) (s : State), s.answers slot hub = true ∧ s.hubAnswer slot hub ss (hub.val = 0 && (s.rootEngine slot).any fun e => s.g (HSH_ENG.SPEED e) = 1) d = none :=
  ⟨2, 0, false, (.string 77), padb, by decide +kernel⟩

/-- The hypotheses of clause 17 of `HubRequestsComplete` meet: CLEAR_HUB_FEATURE. -/
theorem wit_HubRequestsComplete_17_clearHubFeature : ∃ (slot : Fin 4) (hub : Fin 16) (s : State), s.answers slot hub = true :=
  ⟨2, 0, padb, by decide +kernel⟩

/-- The hypotheses of clause 18 of `HubRequestsComplete` meet: UNSUPPORTED_HUB_REQUEST. -/
theorem wit_HubRequestsComplete_18_unsupportedHubRequest : ∃ (slot : Fin 4) (hub : Fin 16) (s : State), s.answers slot hub = true :=
  ⟨2, 0, padb, by decide +kernel⟩

/-- The hypotheses of clause 0 of `PortRequestsComplete` meet: SET_PORT_RESET. -/
theorem wit_PortRequestsComplete_0_setPortReset : ∃ (slot : Fin 4) (hub : Fin 16) (port : Fin 16) (q : _) (s : State), s.answers slot hub = true ∧ s.mir slot hub port = some q ∧ q.kind = 1 :=
  ⟨2, 0, 1, mir1, padb, by decide +kernel⟩

/-- The hypotheses of clause 1 of `PortRequestsComplete` meet: SET_PORT_RESET. -/
theorem wit_PortRequestsComplete_1_setPortReset : ∃ (slot : Fin 4) (hub : Fin 16) (port : Fin 16) (q : _) (s : State), s.answers slot hub = true ∧ s.mir slot hub port = some q ∧ s.g (HSH_PORT.STATE q.stall) ≠ 3 ∧ s.heldBy q = true ∧ q.reach = true ∧ q.member = s.member ∧ q.stall < 15 ∧ s.on (YRD_STATUS.STALE slot) = false ∧ s.g (YRD_STATUS.STATE slot) = 2 :=
  ⟨2, 0, 1, mir1, padb.p (YRD_STATUS.STATE 2) 2, by decide +kernel⟩

/-- The hypotheses of clause 2 of `PortRequestsComplete` meet: SET_PORT_RESET. -/
theorem wit_PortRequestsComplete_2_setPortReset : ∃ (slot : Fin 4) (hub : Fin 16) (port : Fin 16) (q : _) (s : State), s.answers slot hub = true ∧ s.mir slot hub port = some q ∧ q.kind = 3 ∧ bitOf q.st.hs 0 = true :=
  ⟨2, 0, 3, mir3, padb, by decide +kernel⟩

/-- The hypotheses of clause 3 of `PortRequestsComplete` meet: SET_PORT_RESET. -/
theorem wit_PortRequestsComplete_3_setPortReset : ∃ (slot : Fin 4) (hub : Fin 16) (port : Fin 16) (q : _) (s : State), s.answers slot hub = true ∧ s.mir slot hub port = some q ∧ q.kind = 2 ∧ bitOf (s.shown q).hs 0 = true :=
  ⟨2, 0, 2, mir2, padb, by decide +kernel⟩

/-- The hypotheses of clause 4 of `PortRequestsComplete` meet: SET_PORT_SUSPEND. -/
theorem wit_PortRequestsComplete_4_setPortSuspend : ∃ (slot : Fin 4) (hub : Fin 16) (port : Fin 16) (q : _) (s : State), s.answers slot hub = true ∧ s.mir slot hub port = some q ∧ q.kind = 1 :=
  ⟨2, 0, 1, mir1, padb, by decide +kernel⟩

/-- The hypotheses of clause 5 of `PortRequestsComplete` meet: SET_PORT_SUSPEND. -/
theorem wit_PortRequestsComplete_5_setPortSuspend : ∃ (slot : Fin 4) (hub : Fin 16) (port : Fin 16) (q : _) (s : State), s.answers slot hub = true ∧ s.mir slot hub port = some q ∧ s.heldBy q = true ∧ q.reach = true ∧ q.member = s.member ∧ q.stall < 15 ∧ s.on (YRD_STATUS.STALE slot) = false ∧ s.g (YRD_STATUS.STATE slot) = 2 :=
  ⟨2, 0, 1, mir1, padb.p (YRD_STATUS.STATE 2) 2, by decide +kernel⟩

/-- The hypotheses of clause 6 of `PortRequestsComplete` meet: SET_PORT_SUSPEND. -/
theorem wit_PortRequestsComplete_6_setPortSuspend : ∃ (slot : Fin 4) (hub : Fin 16) (port : Fin 16) (q : _) (s : State), s.answers slot hub = true ∧ s.mir slot hub port = some q ∧ q.kind = 3 ∧ bitOf q.st.hs 1 = true :=
  ⟨2, 0, 3, { mir3 with st := { hs := 0x503 } }, padb.withMirror [{ mir3 with st := { hs := 0x503 } }], by decide +kernel⟩

/-- The hypotheses of clause 7 of `PortRequestsComplete` meet: CLEAR_PORT_SUSPEND. -/
theorem wit_PortRequestsComplete_7_clearPortSuspend : ∃ (slot : Fin 4) (hub : Fin 16) (port : Fin 16) (q : _) (s : State), s.answers slot hub = true ∧ s.mir slot hub port = some q ∧ q.kind = 1 :=
  ⟨2, 0, 1, mir1, padb, by decide +kernel⟩

/-- The hypotheses of clause 8 of `PortRequestsComplete` meet: CLEAR_PORT_SUSPEND. -/
theorem wit_PortRequestsComplete_8_clearPortSuspend : ∃ (slot : Fin 4) (hub : Fin 16) (port : Fin 16) (q : _) (s : State), s.answers slot hub = true ∧ s.mir slot hub port = some q ∧ s.heldBy q = true ∧ q.reach = true ∧ q.member = s.member ∧ q.stall < 15 ∧ s.on (YRD_STATUS.STALE slot) = false ∧ s.g (YRD_STATUS.STATE slot) = 2 :=
  ⟨2, 0, 1, mir1, padb.p (YRD_STATUS.STATE 2) 2, by decide +kernel⟩

/-- The hypotheses of clause 9 of `PortRequestsComplete` meet: CLEAR_PORT_SUSPEND. -/
theorem wit_PortRequestsComplete_9_clearPortSuspend : ∃ (slot : Fin 4) (hub : Fin 16) (port : Fin 16) (q : _) (s : State), s.answers slot hub = true ∧ s.mir slot hub port = some q ∧ q.kind = 3 ∧ bitOf q.st.hs 2 = true :=
  ⟨2, 0, 3, { mir3 with st := { hs := 0x507 } }, padb.withMirror [{ mir3 with st := { hs := 0x507 } }], by decide +kernel⟩

/-- The hypotheses of clause 10 of `PortRequestsComplete` meet: SET_PORT_POWER. -/
theorem wit_PortRequestsComplete_10_setPortPower : ∃ (slot : Fin 4) (hub : Fin 16) (port : Fin 16) (q : _) (s : State), s.answers slot hub = true ∧ s.mir slot hub port = some q :=
  ⟨2, 0, 1, mir1, padb, by decide +kernel⟩

/-- The hypotheses of clause 11 of `PortRequestsComplete` meet: SET_PORT_POWER. -/
theorem wit_PortRequestsComplete_11_setPortPower : ∃ (slot : Fin 4) (hub : Fin 16) (port : Fin 16) (q : _) (s : State), s.answers slot hub = true ∧ s.mir slot hub port = some q ∧ s.heldBy q = true ∧ q.reach = true ∧ q.member = s.member ∧ q.stall < 15 :=
  ⟨2, 0, 1, mir1, padb, by decide +kernel⟩

/-- The hypotheses of clause 12 of `PortRequestsComplete` meet: CLEAR_PORT_POWER. -/
theorem wit_PortRequestsComplete_12_clearPortPower : ∃ (slot : Fin 4) (hub : Fin 16) (port : Fin 16) (q : _) (s : State), s.answers slot hub = true ∧ s.mir slot hub port = some q :=
  ⟨2, 0, 1, mir1, padb, by decide +kernel⟩

/-- The hypotheses of clause 13 of `PortRequestsComplete` meet: CLEAR_PORT_POWER. -/
theorem wit_PortRequestsComplete_13_clearPortPower : ∃ (slot : Fin 4) (hub : Fin 16) (port : Fin 16) (q : _) (s : State), s.answers slot hub = true ∧ s.mir slot hub port = some q ∧ s.heldBy q = true ∧ q.reach = true ∧ q.member = s.member ∧ q.stall < 15 :=
  ⟨2, 0, 1, mir1, padb, by decide +kernel⟩

/-- The hypotheses of clause 14 of `PortRequestsComplete` meet: CLEAR_PORT_ENABLE. -/
theorem wit_PortRequestsComplete_14_clearPortEnable : ∃ (slot : Fin 4) (hub : Fin 16) (port : Fin 16) (q : _) (s : State), s.answers slot hub = true ∧ s.mir slot hub port = some q ∧ q.kind = 1 :=
  ⟨2, 0, 1, mir1, padb, by decide +kernel⟩

/-- The hypotheses of clause 15 of `PortRequestsComplete` meet: CLEAR_PORT_ENABLE. -/
theorem wit_PortRequestsComplete_15_clearPortEnable : ∃ (slot : Fin 4) (hub : Fin 16) (port : Fin 16) (q : _) (s : State), s.answers slot hub = true ∧ s.mir slot hub port = some q ∧ 3 ≤ s.g (HSH_PORT.STATE q.stall) ∧ s.heldBy q = true ∧ q.reach = true ∧ q.member = s.member ∧ q.stall < 15 :=
  ⟨2, 0, 1, mir1, padb.p (HSH_PORT.STATE 1) 4, by decide +kernel⟩

/-- The hypotheses of clause 16 of `PortRequestsComplete` meet: CLEAR_PORT_ENABLE. -/
theorem wit_PortRequestsComplete_16_clearPortEnable : ∃ (slot : Fin 4) (hub : Fin 16) (port : Fin 16) (q : _) (s : State), s.answers slot hub = true ∧ s.mir slot hub port = some q ∧ q.kind = 3 ∧ bitOf q.st.hs 1 = true :=
  ⟨2, 0, 3, { mir3 with st := { hs := 0x503 } }, padb.withMirror [{ mir3 with st := { hs := 0x503 } }], by decide +kernel⟩

/-- The hypotheses of clause 17 of `PortRequestsComplete` meet: SET_PORT_TEST. -/
theorem wit_PortRequestsComplete_17_setPortTest : ∃ (slot : Fin 4) (hub : Fin 16) (port : Fin 16) (mode : Fin 8) (q : _) (s : State), s.answers slot hub = true ∧ s.mir slot hub port = some q ∧ q.kind = 1 ∧ 1 ≤ mode.val ∧ mode.val ≤ 5 ∧ (s.mirror.all fun x => x.slot ≠ slot.val || x.hub ≠ hub.val || bitOf (s.shown x).hs 2 || !bitOf (s.shown x).hs 1 || !bitOf (s.shown x).hs 8) = true :=
  ⟨2, 0, 1, 4, mir1, padb, by decide +kernel⟩

/-- The hypotheses of clause 18 of `PortRequestsComplete` meet: SET_PORT_TEST. -/
theorem wit_PortRequestsComplete_18_setPortTest : ∃ (slot : Fin 4) (hub : Fin 16) (port : Fin 16) (mode : Fin 8) (q : _) (s : State), s.answers slot hub = true ∧ s.mir slot hub port = some q ∧ 1 ≤ mode.val ∧ mode.val ≤ 5 ∧ (s.mirror.all fun x => x.slot ≠ slot.val || x.hub ≠ hub.val || bitOf (s.shown x).hs 2 || !bitOf (s.shown x).hs 1 || !bitOf (s.shown x).hs 8) = true ∧ s.heldBy q = true ∧ q.reach = true ∧ q.member = s.member ∧ q.stall < 15 ∧ s.on (YRD_STATUS.STALE slot) = false ∧ s.g (YRD_STATUS.STATE slot) = 2 :=
  ⟨2, 0, 1, 1, mir1, (padb).p (YRD_STATUS.STATE 2) 2, by decide +kernel⟩

/-- The hypotheses of clause 19 of `PortRequestsComplete` meet: SET_PORT_TEST. -/
theorem wit_PortRequestsComplete_19_setPortTest : ∃ (slot : Fin 4) (hub : Fin 16) (port : Fin 16) (mode : Fin 8) (q : _) (s : State), s.answers slot hub = true ∧ s.mir slot hub port = some q ∧ (mode.val = 0 ∨ 5 < mode.val) :=
  ⟨2, 0, 1, 7, mir1, padb, by decide +kernel⟩

/-- The hypotheses of clause 20 of `PortRequestsComplete` meet: PORT_INDICATOR. -/
theorem wit_PortRequestsComplete_20_portIndicator : ∃ (slot : Fin 4) (hub : Fin 16) (port : Fin 16) (q : _) (s : State), s.answers slot hub = true ∧ s.mir slot hub port = some q :=
  ⟨2, 0, 1, mir1, padb, by decide +kernel⟩

/-- The hypotheses of clause 21 of `PortRequestsComplete` meet: PORT_INDICATOR. -/
theorem wit_PortRequestsComplete_21_portIndicator : ∃ (slot : Fin 4) (hub : Fin 16) (port : Fin 16) (q : _) (s : State), s.answers slot hub = true ∧ s.mir slot hub port = some q ∧ ((s.plan.gpioOf s.member).any fun g => g.fn = 7 ∧ g.arg = q.stall) = true ∧ s.heldBy q = true ∧ q.reach = true ∧ q.member = s.member ∧ q.stall < 15 :=
  ⟨2, 0, 1, mir1, padb.withPlan { padb.plan with gpio := [{ gpioKvm with fn := 7, arg := 1 }] }, by decide +kernel⟩

/-- The hypotheses of clause 22 of `PortRequestsComplete` meet: CLEAR_PORT_CHANGE. -/
theorem wit_PortRequestsComplete_22_clearPortChange : ∃ (slot : Fin 4) (hub : Fin 16) (port : Fin 16) (ss : Bool) (bit : Fin 8) (q : _) (s : State), s.answers slot hub = true ∧ s.mir slot hub port = some q ∧ (changeBits ss).contains bit.val = true ∧ s.changeNow q ss bit = false :=
  ⟨2, 0, 1, false, 0, mir1, padb, by decide +kernel⟩

/-- The hypotheses of clause 23 of `PortRequestsComplete` meet: CLEAR_PORT_CHANGE. -/
theorem wit_PortRequestsComplete_23_clearPortChange : ∃ (slot : Fin 4) (hub : Fin 16) (port : Fin 16) (ss : Bool) (bit : Fin 8) (q : _) (s : State), s.answers slot hub = true ∧ s.mir slot hub port = some q ∧ (changeBits ss).contains bit.val = true ∧ s.changeNow q ss bit = true :=
  ⟨2, 0, 1, false, 0, { mir1 with newHs := 1, newAt := padb.cycle }, padb.withMirror [{ mir1 with newHs := 1, newAt := padb.cycle }], by decide +kernel⟩

/-- The hypotheses of clause 24 of `PortRequestsComplete` meet: CLEAR_TT_BUFFER. -/
theorem wit_PortRequestsComplete_24_clearTtBuffer : ∃ (slot : Fin 4) (hub : Fin 16) (port : Fin 16) (q : _) (s : State), s.answers slot hub = true ∧ s.mir slot hub port = some q ∧ q.kind = 1 :=
  ⟨2, 0, 1, mir1, padb, by decide +kernel⟩

/-- The hypotheses of clause 25 of `PortRequestsComplete` meet: RESET_TT. -/
theorem wit_PortRequestsComplete_25_resetTt : ∃ (slot : Fin 4) (hub : Fin 16) (port : Fin 16) (q : _) (s : State), s.answers slot hub = true ∧ s.mir slot hub port = some q ∧ q.kind = 1 :=
  ⟨2, 0, 1, mir1, padb, by decide +kernel⟩

/-- The hypotheses of clause 26 of `PortRequestsComplete` meet: STOP_TT. -/
theorem wit_PortRequestsComplete_26_stopTt : ∃ (slot : Fin 4) (hub : Fin 16) (port : Fin 16) (q : _) (s : State), s.answers slot hub = true ∧ s.mir slot hub port = some q ∧ q.kind = 1 :=
  ⟨2, 0, 1, mir1, padb, by decide +kernel⟩

/-- The hypotheses of clause 27 of `PortRequestsComplete` meet: SET_AND_TEST_PORT_L1. -/
theorem wit_PortRequestsComplete_27_setAndTestPortL1 : ∃ (slot : Fin 4) (hub : Fin 16) (port : Fin 16) (q : _) (s : State), s.answers slot hub = true ∧ s.mir slot hub port = some q ∧ q.kind = 1 :=
  ⟨2, 0, 1, mir1, padb, by decide +kernel⟩

/-- The hypotheses of clause 28 of `PortRequestsComplete` meet: CLEAR_PORT_L1. -/
theorem wit_PortRequestsComplete_28_clearPortL1 : ∃ (slot : Fin 4) (hub : Fin 16) (port : Fin 16) (q : _) (s : State), s.answers slot hub = true ∧ s.mir slot hub port = some q :=
  ⟨2, 0, 1, mir1, padb, by decide +kernel⟩

/-- The hypotheses of clause 29 of `PortRequestsComplete` meet: CLEAR_PORT_L1. -/
theorem wit_PortRequestsComplete_29_clearPortL1 : ∃ (slot : Fin 4) (hub : Fin 16) (port : Fin 16) (q : _) (s : State), s.answers slot hub = true ∧ s.mir slot hub port = some q ∧ s.heldBy q = true ∧ q.reach = true ∧ q.member = s.member ∧ q.stall < 15 ∧ s.on (YRD_STATUS.STALE slot) = false ∧ s.g (YRD_STATUS.STATE slot) = 2 :=
  ⟨2, 0, 1, mir1, padb.p (YRD_STATUS.STATE 2) 2, by decide +kernel⟩

/-- The hypotheses of clause 0 of `SsPortRequestsComplete` meet: SET_HUB_DEPTH. -/
theorem wit_SsPortRequestsComplete_0_setHubDepth : ∃ (slot : Fin 4) (hub : Fin 16) (depth : Fin 65536) (s : State), s.answers slot hub = true ∧ hub.val = 0 ∧ depth.val ≤ 4 :=
  ⟨2, 0, 3, padb, by decide +kernel⟩

/-- The hypotheses of clause 1 of `SsPortRequestsComplete` meet: SET_HUB_DEPTH. -/
theorem wit_SsPortRequestsComplete_1_setHubDepth : ∃ (slot : Fin 4) (hub : Fin 16) (depth : Fin 65536) (s : State), s.answers slot hub = true ∧ 4 < depth.val :=
  ⟨2, 0, 5, padb, by decide +kernel⟩

/-- The hypotheses of clause 2 of `SsPortRequestsComplete` meet: SET_PORT_U1_TIMEOUT. -/
theorem wit_SsPortRequestsComplete_2_setPortU1Timeout : ∃ (slot : Fin 4) (hub : Fin 16) (port : Fin 16) (q : _) (s : State), s.answers slot hub = true ∧ s.mir slot hub port = some q :=
  ⟨2, 0, 1, mir1, padb, by decide +kernel⟩

/-- The hypotheses of clause 3 of `SsPortRequestsComplete` meet: SET_PORT_U1_TIMEOUT. -/
theorem wit_SsPortRequestsComplete_3_setPortU1Timeout : ∃ (slot : Fin 4) (hub : Fin 16) (port : Fin 16) (q : _) (s : State), s.answers slot hub = true ∧ s.mir slot hub port = some q ∧ s.heldBy q = true ∧ q.reach = true ∧ q.member = s.member ∧ q.stall < 15 :=
  ⟨2, 0, 1, mir1, padb, by decide +kernel⟩

/-- The hypotheses of clause 4 of `SsPortRequestsComplete` meet: SET_PORT_U2_TIMEOUT. -/
theorem wit_SsPortRequestsComplete_4_setPortU2Timeout : ∃ (slot : Fin 4) (hub : Fin 16) (port : Fin 16) (q : _) (s : State), s.answers slot hub = true ∧ s.mir slot hub port = some q :=
  ⟨2, 0, 1, mir1, padb, by decide +kernel⟩

/-- The hypotheses of clause 5 of `SsPortRequestsComplete` meet: SET_PORT_U2_TIMEOUT. -/
theorem wit_SsPortRequestsComplete_5_setPortU2Timeout : ∃ (slot : Fin 4) (hub : Fin 16) (port : Fin 16) (q : _) (s : State), s.answers slot hub = true ∧ s.mir slot hub port = some q ∧ s.heldBy q = true ∧ q.reach = true ∧ q.member = s.member ∧ q.stall < 15 :=
  ⟨2, 0, 1, mir1, padb, by decide +kernel⟩

/-- The hypotheses of clause 6 of `SsPortRequestsComplete` meet: SET_PORT_LINK_STATE. -/
theorem wit_SsPortRequestsComplete_6_setPortLinkState : ∃ (slot : Fin 4) (hub : Fin 16) (port : Fin 16) (v : Fin 16) (q : _) (s : State), s.answers slot hub = true ∧ s.mir slot hub port = some q ∧ v.val ∈ [0, 3, 4, 5] ∧ q.kind ≠ 2 :=
  ⟨2, 0, 1, 3, mir1, padb, by decide +kernel⟩

/-- The hypotheses of clause 7 of `SsPortRequestsComplete` meet: SET_PORT_LINK_STATE. -/
theorem wit_SsPortRequestsComplete_7_setPortLinkState : ∃ (slot : Fin 4) (hub : Fin 16) (port : Fin 16) (v : Fin 16) (q : _) (s : State), s.answers slot hub = true ∧ s.mir slot hub port = some q ∧ v.val = 3 ∧ s.g (SSH_PORT.LINK q.stall) ≤ 2 ∧ s.heldBy q = true ∧ q.reach = true ∧ q.member = s.member ∧ q.stall < 15 :=
  ⟨2, 0, 1, 3, mir1, padb.p (SSH_PORT.LINK 1) 0, by decide +kernel⟩

/-- The hypotheses of clause 8 of `SsPortRequestsComplete` meet: SET_PORT_LINK_STATE. -/
theorem wit_SsPortRequestsComplete_8_setPortLinkState : ∃ (slot : Fin 4) (hub : Fin 16) (port : Fin 16) (v : Fin 16) (q : _) (s : State), s.answers slot hub = true ∧ s.mir slot hub port = some q ∧ v.val = 4 ∧ s.heldBy q = true ∧ q.reach = true ∧ q.member = s.member ∧ q.stall < 15 :=
  ⟨2, 0, 1, 4, mir1, padb, by decide +kernel⟩

/-- The hypotheses of clause 9 of `SsPortRequestsComplete` meet: SET_PORT_LINK_STATE. -/
theorem wit_SsPortRequestsComplete_9_setPortLinkState : ∃ (slot : Fin 4) (hub : Fin 16) (port : Fin 16) (v : Fin 16) (q : _) (s : State), s.answers slot hub = true ∧ s.mir slot hub port = some q ∧ v.val = 0 ∧ s.g (SSH_PORT.LINK q.stall) = 3 ∧ s.heldBy q = true ∧ q.reach = true ∧ q.member = s.member ∧ q.stall < 15 :=
  ⟨2, 0, 1, 0, mir1, padb.p (SSH_PORT.LINK 1) 3, by decide +kernel⟩

/-- The hypotheses of clause 10 of `SsPortRequestsComplete` meet: SET_PORT_LINK_STATE. -/
theorem wit_SsPortRequestsComplete_10_setPortLinkState : ∃ (slot : Fin 4) (hub : Fin 16) (port : Fin 16) (v : Fin 16) (q : _) (s : State), s.answers slot hub = true ∧ s.mir slot hub port = some q ∧ v.val ∉ [0, 3, 4, 5] :=
  ⟨2, 0, 1, 7, mir1, padb, by decide +kernel⟩

/-- The hypotheses of clause 11 of `SsPortRequestsComplete` meet: SET_PORT_REMOTE_WAKE_MASK. -/
theorem wit_SsPortRequestsComplete_11_setPortRemoteWakeMask : ∃ (slot : Fin 4) (hub : Fin 16) (port : Fin 16) (q : _) (s : State), s.answers slot hub = true ∧ s.mir slot hub port = some q :=
  ⟨2, 0, 1, mir1, padb, by decide +kernel⟩

/-- The hypotheses of clause 12 of `SsPortRequestsComplete` meet: SET_PORT_REMOTE_WAKE_MASK. -/
theorem wit_SsPortRequestsComplete_12_setPortRemoteWakeMask : ∃ (slot : Fin 4) (hub : Fin 16) (port : Fin 16) (q : _) (s : State), s.answers slot hub = true ∧ s.mir slot hub port = some q ∧ s.heldBy q = true ∧ q.reach = true ∧ q.member = s.member ∧ q.stall < 15 :=
  ⟨2, 0, 1, mir1, padb, by decide +kernel⟩

/-- The hypotheses of clause 13 of `SsPortRequestsComplete` meet: SS_PORT_RESET. -/
theorem wit_SsPortRequestsComplete_13_ssPortReset : ∃ (slot : Fin 4) (hub : Fin 16) (port : Fin 16) (q : _) (s : State), s.answers slot hub = true ∧ s.mir slot hub port = some q ∧ q.kind ≠ 2 :=
  ⟨2, 0, 1, mir1, padb, by decide +kernel⟩

/-- The hypotheses of clause 14 of `SsPortRequestsComplete` meet: SS_PORT_RESET. -/
theorem wit_SsPortRequestsComplete_14_ssPortReset : ∃ (slot : Fin 4) (hub : Fin 16) (port : Fin 16) (q : _) (s : State), s.answers slot hub = true ∧ s.mir slot hub port = some q ∧ s.g (SSH_PORT.LINK q.stall) ≤ 3 ∧ s.heldBy q = true ∧ q.reach = true ∧ q.member = s.member ∧ q.stall < 15 :=
  ⟨2, 0, 1, mir1, padb.p (SSH_PORT.LINK 1) 0, by decide +kernel⟩

/-- The hypotheses of clause 15 of `SsPortRequestsComplete` meet: SS_PORT_RESET. -/
theorem wit_SsPortRequestsComplete_15_ssPortReset : ∃ (slot : Fin 4) (hub : Fin 16) (port : Fin 16) (q : _) (s : State), s.answers slot hub = true ∧ s.mir slot hub port = some q ∧ q.kind = 2 :=
  ⟨2, 0, 2, mir2, padb, by decide +kernel⟩

/-- The hypotheses of clause 16 of `SsPortRequestsComplete` meet: BH_PORT_RESET. -/
theorem wit_SsPortRequestsComplete_16_bhPortReset : ∃ (slot : Fin 4) (hub : Fin 16) (port : Fin 16) (q : _) (s : State), s.answers slot hub = true ∧ s.mir slot hub port = some q ∧ q.kind ≠ 2 :=
  ⟨2, 0, 1, mir1, padb, by decide +kernel⟩

/-- The hypotheses of clause 17 of `SsPortRequestsComplete` meet: BH_PORT_RESET. -/
theorem wit_SsPortRequestsComplete_17_bhPortReset : ∃ (slot : Fin 4) (hub : Fin 16) (port : Fin 16) (q : _) (s : State), s.answers slot hub = true ∧ s.mir slot hub port = some q ∧ s.g (SSH_PORT.LINK q.stall) ≠ 4 ∧ s.heldBy q = true ∧ q.reach = true ∧ q.member = s.member ∧ q.stall < 15 :=
  ⟨2, 0, 1, mir1, padb.p (SSH_PORT.LINK 1) 0, by decide +kernel⟩

/-- The hypotheses of clause 18 of `SsPortRequestsComplete` meet: BH_PORT_RESET. -/
theorem wit_SsPortRequestsComplete_18_bhPortReset : ∃ (slot : Fin 4) (hub : Fin 16) (port : Fin 16) (q : _) (s : State), s.answers slot hub = true ∧ s.mir slot hub port = some q ∧ q.kind = 2 :=
  ⟨2, 0, 2, mir2, padb, by decide +kernel⟩

/-- The hypotheses of clause 19 of `SsPortRequestsComplete` meet: FORCE_LINKPM_ACCEPT. -/
theorem wit_SsPortRequestsComplete_19_forceLinkpmAccept : ∃ (slot : Fin 4) (hub : Fin 16) (port : Fin 16) (q : _) (s : State), s.answers slot hub = true ∧ s.mir slot hub port = some q :=
  ⟨2, 0, 1, mir1, padb, by decide +kernel⟩

/-- The hypotheses of clause 20 of `SsPortRequestsComplete` meet: FORCE_LINKPM_ACCEPT. -/
theorem wit_SsPortRequestsComplete_20_forceLinkpmAccept : ∃ (slot : Fin 4) (hub : Fin 16) (port : Fin 16) (q : _) (s : State), s.answers slot hub = true ∧ s.mir slot hub port = some q ∧ s.heldBy q = true ∧ q.reach = true ∧ q.member = s.member ∧ q.stall < 15 :=
  ⟨2, 0, 1, mir1, padb, by decide +kernel⟩

/-- The hypotheses of clause 21 of `SsPortRequestsComplete` meet: KVM_BUTTON_PRESS. -/
theorem wit_SsPortRequestsComplete_21_kvmButtonPress : ∃ (s : State), ((s.plan.gpioOf s.member).any fun g => g.fn = 6) = true ∧ s.on DRV_BARN.IS_LEAD = true ∧ s.kvmNext = none :=
  ⟨(padb.withPlan { padb.plan with gpio := [gpioKvm] }).p DRV_BARN.IS_LEAD 1, by decide +kernel⟩

/-- The hypotheses of clause 22 of `SsPortRequestsComplete` meet: KVM_BUTTON_PRESS. -/
theorem wit_SsPortRequestsComplete_22_kvmButtonPress : ∃ (s : State), ((s.plan.gpioOf s.member).any fun g => g.fn = 6) = true ∧ s.on DRV_BARN.IS_LEAD = false ∧ (s.mode ≠ 3 ∨ s.on DRV_BARN.FORMED = false) :=
  ⟨padb.withPlan { padb.plan with gpio := [gpioKvm] }, by decide +kernel⟩

/-- The hypotheses of clause 23 of `SsPortRequestsComplete` meet: KVM_BUTTON_PRESS. -/
theorem wit_SsPortRequestsComplete_23_kvmButtonPress : ∃ (d : _) (s : State), ((s.plan.gpioOf s.member).any fun g => g.fn = 6) = true ∧ s.kvmNext = some d ∧ s.mode = 3 ∧ ((s.kvmStalls d).any fun h => s.handing (h.member, h.stall)) = false ∧ s.on DRV_BARN.IS_LEAD = true :=
  ⟨2, ((padb.withPlan { padb.plan with gpio := [gpioKvm] }).fields [(TOP_MODE.MODE, 3), (DRV_BARN.IS_LEAD, 1)]).withSs { padb.ss with hubs := [{ slot := 2, pen := 15, configured := true }] }, by decide +kernel⟩

/-- The hypotheses of clause 24 of `SsPortRequestsComplete` meet: KVM_BUTTON_PRESS. -/
theorem wit_SsPortRequestsComplete_24_kvmButtonPress : ∃ (s : State), ((s.plan.gpioOf s.member).any fun g => g.fn = 6) = true ∧ s.on DRV_BARN.IS_LEAD = false ∧ s.mode = 3 ∧ s.on DRV_BARN.FORMED = true ∧ s.reach (s.g DRV_BARN.LEAD) = true :=
  ⟨((padb.withPlan { padb.plan with gpio := [gpioKvm] }).fields [(TOP_MODE.MODE, 3), (DRV_BARN.LEAD, 5), (DRV_BARN.FORMED, 1)]).withFab { padb.fab with route := [⟨0, 0, 0⟩, ⟨0, 0, 0⟩, ⟨0, 0, 0⟩, ⟨0, 0, 0⟩, ⟨0, 0, 0⟩, ⟨1, 1, 0⟩] }, by decide +kernel⟩

/-- The hypotheses of clause 25 of `SsPortRequestsComplete` meet: ORDER_RECEIVED. -/
theorem wit_SsPortRequestsComplete_25_orderReceived : ∃ (c : CtrlHdr) (act : PortAct) (s : State), Taken c s ∧ (actFields act).headD 0 ≠ (actFields (.attach 0 0 0 false false)).headD 0 ∧ act ≠ .kvmButton :=
  ⟨(ch 0 5), .suspend, padb, by decide +kernel⟩

/-- The hypotheses of clause 26 of `SsPortRequestsComplete` meet: ORDER_RECEIVED. -/
theorem wit_SsPortRequestsComplete_26_orderReceived : ∃ (c : CtrlHdr) (act : PortAct) (m : _) (x : _) (ms : _) (a : _) (b : _) (s : State), Taken c s ∧ act = .attach m x ms a b :=
  ⟨(ch 0 5), (.attach 0 3 7 false false), 0, 3, 7, false, false, padb, by decide +kernel⟩

/-- The hypotheses of clause 27 of `SsPortRequestsComplete` meet: ORDER_RECEIVED. -/
theorem wit_SsPortRequestsComplete_27_orderReceived : ∃ (c : CtrlHdr) (act : PortAct) (s : State), Taken c s ∧ act = .kvmButton :=
  ⟨(ch 0 5), .kvmButton, padb, by decide +kernel⟩

/-- The hypotheses of clause 28 of `SsPortRequestsComplete` meet: HANDOFF_QUIET_END. -/
theorem wit_SsPortRequestsComplete_28_handoffQuietEnd : ∃ (i : Fin 16) (h : _) (s : State), s.handoff[i.val]? = some h ∧ h.step = 3 :=
  ⟨0, { step := 3 }, padb.withHandoff [{ step := 3 }], by decide +kernel⟩

/-- The hypotheses of clause 0 of `RegisterAccessComplete` meet: REGISTER_WRITE. -/
theorem wit_RegisterAccessComplete_0_registerWrite : ∃ (m : Fin 16) (addr : BitVec 32) (s : State), s.passes m addr.toNat true = true :=
  ⟨1, (BitVec.ofNat 32 BUD_CTRL.addr), up, by decide +kernel⟩

/-- The hypotheses of clause 1 of `RegisterAccessComplete` meet: REGISTER_WRITE. -/
theorem wit_RegisterAccessComplete_1_registerWrite : ∃ (m : Fin 16) (addr : BitVec 32) (s : State), (s.pdc.stalls.any fun x => x.master = m.val) = false ∧ s.masterHere m = true ∧ (m.val < 2 ∨ 7 < m.val) ∧ s.turn m addr.toNat = true ∧ rowOf addr.toNat = none :=
  ⟨1, 0x0FFFF0#32, up, by decide +kernel⟩

/-- The hypotheses of clause 2 of `RegisterAccessComplete` meet: RESTING_DOMAIN_ACCESS. -/
theorem wit_RegisterAccessComplete_2_restingDomainAccess : ∃ (m : Fin 16) (addr : BitVec 32) (data : Option (BitVec 32)) (s : State), (s.pdc.stalls.any fun x => x.master = m.val) = false ∧ s.masterHere m = true ∧ m.val ≠ 15 ∧ ((rowOf addr.toNat).any fun r => !r.expert || s.holdsPage m) = true ∧ s.turn m addr.toNat = true ∧ (data.isSome = true → s.mayWrite m addr.toNat = true) ∧ s.domOn (addrDom addr.toNat) = false ∧ addrDom addr.toNat < 12 ∧ (bitOf (s.g PDC_CTRL.AUTO_WAKE) m && s.holdsPage m) = false ∧ addr.toNat ≠ PDC_CTRL.addr :=
  ⟨1, (BitVec.ofNat 32 HSH_CTRL.addr), none, up.p (PDC_DOM.STATE dHSB) 2, by decide +kernel⟩

/-- The hypotheses of clause 3 of `RegisterAccessComplete` meet: AUTO_WAKE_ACCESS. -/
theorem wit_RegisterAccessComplete_3_autoWakeAccess : ∃ (m : Fin 16) (addr : BitVec 32) (data : Option (BitVec 32)) (s : State), (s.pdc.stalls.any fun x => x.master = m.val) = false ∧ s.masterHere m = true ∧ m.val ≠ 15 ∧ (rowOf addr.toNat).isSome = true ∧ s.holdsPage m = true ∧ s.turn m addr.toNat = true ∧ (data.isSome = true → s.mayWrite m addr.toNat = true) ∧ s.domOn (addrDom addr.toNat) = false ∧ bitOf (s.g PDC_CTRL.AUTO_WAKE) m = true ∧ s.g (PDC_DOM.STATE (addrDom addr.toNat)) ≠ 3 :=
  ⟨1, (BitVec.ofNat 32 HSH_CTRL.addr), none, (up.p (PDC_DOM.STATE dHSB) 2).p PDC_CTRL.AUTO_WAKE 2, by decide +kernel⟩

/-- The hypotheses of clause 4 of `RegisterAccessComplete` meet: AUTO_WAKE_WRITE. -/
theorem wit_RegisterAccessComplete_4_autoWakeWrite : ∃ (m : Fin 16) (s : State), s.passes m PDC_CTRL.addr true = true ∧ s.holdsPage m = true :=
  ⟨1, up, by decide +kernel⟩

/-- The hypotheses of clause 5 of `RegisterAccessComplete` meet: AUTO_WAKE_WRITE. -/
theorem wit_RegisterAccessComplete_5_autoWakeWrite : ∃ (m : Fin 16) (s : State), (s.pdc.stalls.any fun x => x.master = m.val) = false ∧ s.masterHere m = true ∧ s.holdsPage m = true ∧ s.turn m PDC_CTRL.addr = true ∧ s.mayWrite m PDC_CTRL.addr = false ∧ 2 ≤ m.val ∧ m.val ≤ 7 :=
  ⟨2, up.fields [(TOP_EXPERT.HELD, 6), (PLN_STATUS.SOURCE, 2)], by decide +kernel⟩

/-- The hypotheses of clause 6 of `RegisterAccessComplete` meet: EXPERT_KEY_WRITE. -/
theorem wit_RegisterAccessComplete_6_expertKeyWrite : ∃ (m : Fin 16) (k : Fin 2) (v : Fin 65536) (s : State), s.passes m (TOP_EXPERT_KEY.addr k) true = true ∧ 2 ≤ m.val ∧ m.val ≤ 7 ∧ s.holdsPage m = false ∧ v.val = 0x4B1D :=
  ⟨2, 0, 0x4B1D, up, by decide +kernel⟩

/-- The hypotheses of clause 7 of `RegisterAccessComplete` meet: EXPERT_KEY_WRITE. -/
theorem wit_RegisterAccessComplete_7_expertKeyWrite : ∃ (m : Fin 16) (k : Fin 2) (v : Fin 65536) (s : State), s.passes m (TOP_EXPERT_KEY.addr k) true = true ∧ 2 ≤ m.val ∧ m.val ≤ 7 ∧ s.holdsPage m = false ∧ v.val = 0xB0A7 ∧ s.on (bitFld TOP_EXPERT.addr (16 + m.val)) = true ∧ s.cycle ≤ vat s.expert.armed m + 200 ∧ (s.expert.closedAt = s.cycle → s.expert.closed.contains m.val = false) :=
  ⟨2, 0, 0xB0A7, up.p (bitFld TOP_EXPERT.addr 18) 1, by decide +kernel⟩

/-- The hypotheses of clause 8 of `RegisterAccessComplete` meet: EXPERT_KEY_WRITE. -/
theorem wit_RegisterAccessComplete_8_expertKeyWrite : ∃ (m : Fin 16) (k : Fin 2) (v : Fin 65536) (s : State), s.passes m (TOP_EXPERT_KEY.addr k) true = true ∧ 2 ≤ m.val ∧ m.val ≤ 7 ∧ v.val = 0 :=
  ⟨2, 0, 0, up.p TOP_EXPERT.HELD 6, by decide +kernel⟩

/-- The hypotheses of clause 9 of `RegisterAccessComplete` meet: CHIP_RESET_REQUEST. -/
theorem wit_RegisterAccessComplete_9_chipResetRequest : ∃ (m : Fin 16) (v : Fin 65536) (s : State), s.passes m TOP_X_RESET.addr true = true ∧ v.val = 0xC1A5 ∧ s.mode ≠ 5 :=
  ⟨1, 0xC1A5, up, by decide +kernel⟩

/-- The hypotheses of clause 10 of `RegisterAccessComplete` meet: FORCE_COAST. -/
theorem wit_RegisterAccessComplete_10_forceCoast : ∃ (m : Fin 16) (s : State), s.passes m YRD_CTRL.addr true = true :=
  ⟨1, up, by decide +kernel⟩

/-- The hypotheses of clause 11 of `RegisterAccessComplete` meet: SNAP. -/
theorem wit_RegisterAccessComplete_11_snap : ∃ (m : Fin 16) (s : State), s.passes m YRD_CTRL.addr true = true :=
  ⟨1, up, by decide +kernel⟩

/-- The hypotheses of clause 12 of `RegisterAccessComplete` meet: YRD_NOW_LO_READ. -/
theorem wit_RegisterAccessComplete_12_yrdNowLoRead : ∃ (m : Fin 16) (y : Fin 5) (s : State), s.passes m (YRD_NOW_LO.addr y) false = true ∧ (vat s.yards y).snap = none :=
  ⟨1, 2, up, by decide +kernel⟩

/-- The hypotheses of clause 13 of `RegisterAccessComplete` meet: YRD_NOW_LO_READ. -/
theorem wit_RegisterAccessComplete_13_yrdNowLoRead : ∃ (m : Fin 16) (y : Fin 5) (lo : _) (s : State), s.passes m (YRD_NOW_LO.addr y) false = true ∧ (vat s.yards y).snap = some lo :=
  ⟨1, 2, 77, up.yardMod 2 fun v => { v with snap := some 77 }, by decide +kernel⟩

/-- The hypotheses of clause 14 of `RegisterAccessComplete` meet: TML_READ. -/
theorem wit_RegisterAccessComplete_14_tmlRead : ∃ (m : Fin 16) (s : State), s.on TML_SEL.BUSY = false ∧ s.passes m TML_SEL.addr true = true :=
  ⟨1, ent 3 { valid := true, yard := 4, action := 5, target := 7, arg := 9 }, by decide +kernel⟩

/-- The hypotheses of clause 15 of `RegisterAccessComplete` meet: TML_WRITE. -/
theorem wit_RegisterAccessComplete_15_tmlWrite : ∃ (m : Fin 16) (i : Fin 256) (s : State), s.on TML_SEL.BUSY = false ∧ s.passes m TML_SEL.addr true = true ∧ s.g TML_STATUS.PLAN_TOP ≤ i.val ∧ 1 ≤ s.g TML_E_CTRL.ACTION ∧ s.g TML_E_CTRL.ACTION ≤ 9 ∧ s.g TML_E_CTRL.YARD ≤ 4 ∧ tmlTargetOk (s.g TML_E_CTRL.ACTION) (s.g TML_E_CTRL.TARGET) = true :=
  ⟨1, 3, up.fields [(TML_E_CTRL.ACTION, 5), (TML_E_CTRL.VALID, 1), (TML_E_CTRL.TARGET, 7)], by decide +kernel⟩

/-- The hypotheses of clause 16 of `RegisterAccessComplete` meet: TML_WRITE. -/
theorem wit_RegisterAccessComplete_16_tmlWrite : ∃ (m : Fin 16) (s : State), s.passes m TML_SEL.addr true = true ∧ s.g TML_E_CTRL.ACTION = 0 :=
  ⟨1, up, by decide +kernel⟩

/-- The hypotheses of clause 17 of `RegisterAccessComplete` meet: TML_WRITE. -/
theorem wit_RegisterAccessComplete_17_tmlWrite : ∃ (m : Fin 16) (s : State), s.passes m TML_SEL.addr true = true ∧ s.on TML_SEL.BUSY = true :=
  ⟨1, up.p TML_SEL.BUSY 1, by decide +kernel⟩

/-- The hypotheses of clause 18 of `RegisterAccessComplete` meet: TML_DELETE. -/
theorem wit_RegisterAccessComplete_18_tmlDelete : ∃ (m : Fin 16) (i : Fin 256) (s : State), s.on TML_SEL.BUSY = false ∧ s.passes m TML_SEL.addr true = true ∧ s.g TML_STATUS.PLAN_TOP ≤ i.val :=
  ⟨1, 3, ent 3 { valid := true, yard := 4, action := 5, target := 7 }, by decide +kernel⟩

/-- The hypotheses of clause 19 of `RegisterAccessComplete` meet: TTA_CLEAR_BUFFER. -/
theorem wit_RegisterAccessComplete_19_ttaClearBuffer : ∃ (m : Fin 16) (n : Stall) (dev : Fin 128) (ep : Fin 16) (dirIn : Bool) (bulk : Bool) (s : State), s.passes m TTA_CMD.addr true = true ∧ s.on TTA_CMD.BUSY = false ∧ (s.tt' n).np.find? (fun b => b.dev = dev.val && b.ep = ep.val && b.bulk = bulk && b.dirIn = dirIn) = none :=
  ⟨1, 1, 5, 1, false, true, up, by decide +kernel⟩

/-- The hypotheses of clause 20 of `RegisterAccessComplete` meet: TTA_RESET_TT. -/
theorem wit_RegisterAccessComplete_20_ttaResetTt : ∃ (m : Fin 16) (s : State), s.passes m TTA_CMD.addr true = true ∧ s.on TTA_CMD.BUSY = false :=
  ⟨1, up, by decide +kernel⟩

/-- The hypotheses of clause 21 of `RegisterAccessComplete` meet: TTA_STOP_TT. -/
theorem wit_RegisterAccessComplete_21_ttaStopTt : ∃ (m : Fin 16) (s : State), s.passes m TTA_CMD.addr true = true ∧ s.on TTA_CMD.BUSY = false :=
  ⟨1, up, by decide +kernel⟩

/-- The hypotheses of clause 22 of `RegisterAccessComplete` meet: TTA_START. -/
theorem wit_RegisterAccessComplete_22_ttaStart : ∃ (m : Fin 16) (s : State), s.passes m TTA_CMD.addr true = true ∧ s.on TTA_CMD.BUSY = false :=
  ⟨1, up, by decide +kernel⟩

/-- The hypotheses of clause 23 of `RegisterAccessComplete` meet: LINK_RETRAIN. -/
theorem wit_RegisterAccessComplete_23_linkRetrain : ∃ (m : Fin 16) (s : State), s.passes m GLK_CTRL.addr true = true :=
  ⟨1, up, by decide +kernel⟩

/-- The hypotheses of clause 24 of `RegisterAccessComplete` meet: BELL_RING_REQUEST. -/
theorem wit_RegisterAccessComplete_24_bellRingRequest : ∃ (m : Fin 16) (mask : Fin 16) (k : _) (s : State), s.passes m GLK_WAKE.addr true = true ∧ k < 4 ∧ mask.val = 2 ^ k ∧ (s.lk k).asleep = true ∧ s.bellAhead k = false :=
  ⟨1, 2, 1, (up.p (GLK_LINK.STATE 1) 5).lkMod 1 fun l => { l with asleep := true }, by decide +kernel⟩

/-- The hypotheses of clause 0 of `RegisterCommandsComplete` meet: TLM_ENERGY_LO_READ. -/
theorem wit_RegisterCommandsComplete_0_tlmEnergyLoRead : ∃ (m : Fin 16) (n : Channel) (s : State), s.passes m (TLM_ENERGY_LO.addr n) false = true :=
  ⟨1, 4, up, by decide +kernel⟩

/-- The hypotheses of clause 1 of `RegisterCommandsComplete` meet: TLM_ECLR_WRITE. -/
theorem wit_RegisterCommandsComplete_1_tlmEclrWrite : ∃ (m : Fin 16) (s : State), s.passes m TLM_ECLR.addr true = true :=
  ⟨1, up, by decide +kernel⟩

/-- The hypotheses of clause 2 of `RegisterCommandsComplete` meet: PPW_CLEAR_WRITE. -/
theorem wit_RegisterCommandsComplete_2_ppwClearWrite : ∃ (m : Fin 16) (s : State), s.passes m PPW_CLEAR.addr true = true :=
  ⟨1, up, by decide +kernel⟩

/-- The hypotheses of clause 3 of `RegisterCommandsComplete` meet: PDC_MYVOTE_WRITE. -/
theorem wit_RegisterCommandsComplete_3_pdcMyvoteWrite : ∃ (m : Fin 16) (d : Fin 12) (v : Fin 4) (c : _) (s : State), s.marks.contains (.raised c d) = false ∧ s.passes m (PDC_MYVOTE.addr d) true = true ∧ clientOf m = some c ∧ d.val ≠ 0 ∧ v.val ≠ 3 :=
  ⟨1, 3, 2, 0, up, by decide +kernel⟩

/-- The hypotheses of clause 4 of `RegisterCommandsComplete` meet: INBOUND_POST. -/
theorem wit_RegisterCommandsComplete_4_inboundPost : ∃ (m : Fin 16) (c : Fin 12) (count : Fin 32) (s : State), s.passes m (MBX_IN_CTRL.addr c) true = true ∧ m.val ≠ 1 ∧ s.isParty m c = true ∧ s.inBusy c = false ∧ count.val ≤ 16 :=
  ⟨2, 3, 4, up.p (MBX_ASSIGN.PARTY 3) 2, by decide +kernel⟩

/-- The hypotheses of clause 5 of `RegisterCommandsComplete` meet: OUTBOUND_ACK. -/
theorem wit_RegisterCommandsComplete_5_outboundAck : ∃ (m : Fin 16) (c : Fin 12) (s : State), s.passes m (MBX_OUT_CTRL.addr c) true = true ∧ m.val ≠ 1 ∧ s.isParty m c = true ∧ s.on (MBX_OUT_CTRL.GO c) = true ∧ s.marks.contains (.posted c) = false ∧ (s.mb c).held = [] :=
  ⟨2, 3, (up.p (MBX_ASSIGN.PARTY 3) 2).p (MBX_OUT_CTRL.GO 3) 1, by decide +kernel⟩

/-- The hypotheses of clause 6 of `RegisterCommandsComplete` meet: MBX_LOCK_READ. -/
theorem wit_RegisterCommandsComplete_6_mbxLockRead : ∃ (m : Fin 16) (i : Fin 16) (s : State), s.passes m (MBX_LOCK.addr i) false = true ∧ s.g (MBX_LOCK.OWNER i) = 0 ∧ s.readerAhead m i = none :=
  ⟨2, 5, up, by decide +kernel⟩

/-- The hypotheses of clause 7 of `RegisterCommandsComplete` meet: MBX_LOCK_READ. -/
theorem wit_RegisterCommandsComplete_7_mbxLockRead : ∃ (m : Fin 16) (i : Fin 16) (o : _) (s : State), s.passes m (MBX_LOCK.addr i) false = true ∧ s.g (MBX_LOCK.OWNER i) = o ∧ o ≠ 0 ∧ o ≠ m.val ∧ s.releaseAhead o i = none :=
  ⟨2, 5, 3, up.p (MBX_LOCK.OWNER 5) 3, by decide +kernel⟩

/-- The hypotheses of clause 8 of `RegisterCommandsComplete` meet: MBX_LOCK_WRITE. -/
theorem wit_RegisterCommandsComplete_8_mbxLockWrite : ∃ (m : Fin 16) (i : Fin 16) (w : BitVec 32) (s : State), s.passes m (MBX_LOCK.addr i) true = true ∧ s.g (MBX_LOCK.OWNER i) = m.val ∧ w.toNat = m.val ∧ s.marks.contains (.released i m) = false :=
  ⟨2, 5, 2, up.p (MBX_LOCK.OWNER 5) 2, by decide +kernel⟩

/-- The hypotheses of clause 9 of `RegisterCommandsComplete` meet: MBX_LOCK_WRITE. -/
theorem wit_RegisterCommandsComplete_9_mbxLockWrite : ∃ (m : Fin 16) (i : Fin 16) (w : BitVec 32) (s : State), s.passes m (MBX_LOCK.addr i) true = true ∧ m.val ≠ 1 ∧ (s.g (MBX_LOCK.OWNER i) ≠ m.val ∨ w.toNat % 16 ≠ m.val) ∧ s.marks.contains (.released i m) = false :=
  ⟨2, 5, 2, up, by decide +kernel⟩

/-- The hypotheses of clause 10 of `RegisterCommandsComplete` meet: QUEUE_DATA_READ. -/
theorem wit_RegisterCommandsComplete_10_queueDataRead : ∃ (m : Fin 16) (q : Fin 4) (s : State), s.passes m (OBS_Q_DATA.addr q) false = true :=
  ⟨1, 2, up, by decide +kernel⟩

/-- The hypotheses of clause 11 of `RegisterCommandsComplete` meet: QUEUE_RESET. -/
theorem wit_RegisterCommandsComplete_11_queueReset : ∃ (m : Fin 16) (q : Fin 4) (s : State), s.passes m (OBS_Q_CTRL.addr q) true = true ∧ (vat s.obs q).waiting = [] :=
  ⟨1, 2, up, by decide +kernel⟩

/-- The hypotheses of clause 12 of `RegisterCommandsComplete` meet: PMU_CLEAR. -/
theorem wit_RegisterCommandsComplete_12_pmuClear : ∃ (m : Fin 16) (i : Fin 8) (s : State), s.passes m (OBS_PMU_EVT.addr i) true = true :=
  ⟨1, 3, up, by decide +kernel⟩

/-- The hypotheses of clause 13 of `RegisterCommandsComplete` meet: FLT_CLEAR_WRITE. -/
theorem wit_RegisterCommandsComplete_13_fltClearWrite : ∃ (m : Fin 16) (src : Fin 128) (all : Bool) (s : State), s.passes m FLT_CLEAR.addr true = true ∧ m.val = 1 ∧ all = false ∧ faultExists src = true :=
  ⟨1, 7, false, up, by decide +kernel⟩

/-- The hypotheses of clause 14 of `RegisterCommandsComplete` meet: FLT_CLEAR_WRITE. -/
theorem wit_RegisterCommandsComplete_14_fltClearWrite : ∃ (m : Fin 16) (all : Bool) (s : State), s.passes m FLT_CLEAR.addr true = true ∧ m.val = 1 ∧ all = true :=
  ⟨1, true, up, by decide +kernel⟩

/-- The hypotheses of clause 15 of `RegisterCommandsComplete` meet: FORCE_FAULT. -/
theorem wit_RegisterCommandsComplete_15_forceFault : ∃ (m : Fin 16) (src : Fin 128) (s : State), s.passes m FLT_X_FORCE.addr true = true ∧ s.mode = 3 ∧ s.plan.members = 1 ∧ faultExists src = true :=
  ⟨1, 7, (up.p TOP_MODE.MODE 3).withPlan { Plan.empty with barn := none }, by decide +kernel⟩

/-- The hypotheses of clause 16 of `RegisterCommandsComplete` meet: FORCE_FAULT. -/
theorem wit_RegisterCommandsComplete_16_forceFault : ∃ (m : Fin 16) (s : State), s.passes m FLT_X_FORCE.addr true = true ∧ s.mode ≠ 3 :=
  ⟨1, up, by decide +kernel⟩

/-- The hypotheses of clause 17 of `RegisterCommandsComplete` meet: CHECKER_INVERT. -/
theorem wit_RegisterCommandsComplete_17_checkerInvert : ∃ (m : Fin 16) (s : State), s.passes m FLT_X_INVERT.addr true = true :=
  ⟨1, up, by decide +kernel⟩

/-- The hypotheses of clause 0 of `VendorRequestsComplete` meet: MBX_SEND. -/
theorem wit_VendorRequestsComplete_0_mbxSend : ∃ (slot : Fin 4) (wValue : BitVec 16) (wIndex : BitVec 16) (wLength : BitVec 16) (ctrl : BitVec 32) (words : List (BitVec 32)) (u : _) (s : State), s.tackUp slot = some u ∧ wValue.toNat = 0 ∧ s.namesChannel slot wIndex = true ∧ words.length ≤ 16 ∧ getBits ctrl 1 5 = words.length ∧ wLength.toNat = 4 + 4 * words.length ∧ s.on (MBX_IN_CTRL.GO wIndex.toNat) = true :=
  ⟨2, 0, 3, 8, 0x3, [7#32], 0, tkb.fields [(MBX_ASSIGN.PARTY 3, 4), (MBX_IN_CTRL.GO 3, 1)], by decide +kernel⟩

/-- The hypotheses of clause 1 of `VendorRequestsComplete` meet: MBX_SEND. -/
theorem wit_VendorRequestsComplete_1_mbxSend : ∃ (slot : Fin 4) (wValue : BitVec 16) (wIndex : BitVec 16) (wLength : BitVec 16) (ctrl : BitVec 32) (words : List (BitVec 32)) (u : _) (s : State), s.tackUp slot = some u ∧ wValue.toNat = 0 ∧ s.namesChannel slot wIndex = true ∧ words.length ≤ 16 ∧ getBits ctrl 1 5 = words.length ∧ wLength.toNat = 4 + 4 * words.length ∧ s.on (MBX_IN_CTRL.GO wIndex.toNat) = false :=
  ⟨2, 0, 3, 8, 0x3, [7#32], 0, tkb.fields [(MBX_ASSIGN.PARTY 3, 4)], by decide +kernel⟩

/-- The hypotheses of clause 2 of `VendorRequestsComplete` meet: MBX_SEND. -/
theorem wit_VendorRequestsComplete_2_mbxSend : ∃ (slot : Fin 4) (wValue : BitVec 16) (wIndex : BitVec 16) (wLength : BitVec 16) (ctrl : BitVec 32) (words : List (BitVec 32)) (u : _) (s : State), s.tackUp slot = some u ∧ (wValue.toNat ≠ 0 ∨ s.namesChannel slot wIndex = false ∨ 16 < words.length ∨ getBits ctrl 1 5 ≠ words.length ∨ wLength.toNat ≠ 4 + 4 * words.length) :=
  ⟨2, 0, 0x103, 8, 0x3, [7#32], 0, tkb.fields [(MBX_ASSIGN.PARTY 3, 4)], by decide +kernel⟩

/-- The hypotheses of clause 3 of `VendorRequestsComplete` meet: MBX_SEND_COMPLETE. -/
theorem wit_VendorRequestsComplete_3_mbxSendComplete : ∃ (slot : Fin 4) (x : _) (s : State), (vat s.tack (s.upOf slot)).send = some x ∧ s.on (MBX_IN_CTRL.GO x.1) = false :=
  ⟨2, (3, [1#32]), tkb.tackMod 0 fun y => { y with send := some (3, [1#32]) }, by decide +kernel⟩

/-- The hypotheses of clause 4 of `VendorRequestsComplete` meet: MSG_NAK_TIMEOUT. -/
theorem wit_VendorRequestsComplete_4_msgNakTimeout : ∃ (slot : Fin 4) (s : State), (vat s.tack (s.upOf slot)).send.isSome = true :=
  ⟨2, tkb.tackMod 0 fun y => { y with send := some (3, [1#32]) }, by decide +kernel⟩

/-- The hypotheses of clause 5 of `VendorRequestsComplete` meet: MBX_RECV. -/
theorem wit_VendorRequestsComplete_5_mbxRecv : ∃ (slot : Fin 4) (wValue : BitVec 16) (wIndex : BitVec 16) (wLength : BitVec 16) (u : _) (s : State), s.tackUp slot = some u ∧ wValue.toNat = 0 ∧ wLength.toNat = 68 ∧ s.namesChannel slot wIndex = true :=
  ⟨2, 0, 3, 68, 0, tkb.fields [(MBX_ASSIGN.PARTY 3, 4)], by decide +kernel⟩

/-- The hypotheses of clause 6 of `VendorRequestsComplete` meet: MBX_RECV. -/
theorem wit_VendorRequestsComplete_6_mbxRecv : ∃ (slot : Fin 4) (wValue : BitVec 16) (wIndex : BitVec 16) (wLength : BitVec 16) (u : _) (s : State), s.tackUp slot = some u ∧ (wValue.toNat ≠ 0 ∨ wLength.toNat ≠ 68 ∨ s.namesChannel slot wIndex = false) :=
  ⟨2, 0, 3, 64, 0, tkb.fields [(MBX_ASSIGN.PARTY 3, 4)], by decide +kernel⟩

/-- The hypotheses of clause 7 of `VendorRequestsComplete` meet: MBX_ACK. -/
theorem wit_VendorRequestsComplete_7_mbxAck : ∃ (slot : Fin 4) (wIndex : BitVec 16) (wLength : BitVec 16) (u : _) (s : State), s.tackUp slot = some u ∧ wLength.toNat = 0 ∧ s.namesChannel slot wIndex = true :=
  ⟨2, 3, 0, 0, tkb.fields [(MBX_ASSIGN.PARTY 3, 4)], by decide +kernel⟩

/-- The hypotheses of clause 8 of `VendorRequestsComplete` meet: MBX_ACK. -/
theorem wit_VendorRequestsComplete_8_mbxAck : ∃ (slot : Fin 4) (wIndex : BitVec 16) (wLength : BitVec 16) (u : _) (s : State), s.tackUp slot = some u ∧ (wLength.toNat ≠ 0 ∨ s.namesChannel slot wIndex = false) :=
  ⟨2, 12, 0, 0, tkb.fields [(MBX_ASSIGN.PARTY 3, 4)], by decide +kernel⟩

/-- The hypotheses of clause 9 of `VendorRequestsComplete` meet: REG_READ. -/
theorem wit_VendorRequestsComplete_9_regRead : ∃ (slot : Fin 4) (addr : BitVec 32) (len : Fin 65536) (u : _) (s : State), s.tackUp slot = some u ∧ addr.toNat % 4 = 0 ∧ 4 ≤ len.val ∧ len.val ≤ 64 ∧ len.val % 4 = 0 :=
  ⟨2, 0x0#32, 8, 0, tkb, by decide +kernel⟩

/-- The hypotheses of clause 10 of `VendorRequestsComplete` meet: REG_READ. -/
theorem wit_VendorRequestsComplete_10_regRead : ∃ (slot : Fin 4) (addr : BitVec 32) (len : Fin 65536) (u : _) (s : State), s.tackUp slot = some u ∧ (addr.toNat % 4 ≠ 0 ∨ len.val < 4 ∨ 64 < len.val ∨ len.val % 4 ≠ 0) :=
  ⟨2, 0x0#32, 6, 0, tkb, by decide +kernel⟩

/-- The hypotheses of clause 11 of `VendorRequestsComplete` meet: REG_WRITE. -/
theorem wit_VendorRequestsComplete_11_regWrite : ∃ (slot : Fin 4) (addr : BitVec 32) (wLength : BitVec 16) (words : List (BitVec 32)) (u : _) (s : State), s.tackUp slot = some u ∧ addr.toNat % 4 = 0 ∧ words ≠ [] ∧ words.length ≤ 16 ∧ wLength.toNat = 4 * words.length :=
  ⟨2, 0x0#32, 4, [1#32], 0, tkb, by decide +kernel⟩

/-- The hypotheses of clause 12 of `VendorRequestsComplete` meet: REG_WRITE. -/
theorem wit_VendorRequestsComplete_12_regWrite : ∃ (slot : Fin 4) (addr : BitVec 32) (wLength : BitVec 16) (words : List (BitVec 32)) (u : _) (s : State), s.tackUp slot = some u ∧ (addr.toNat % 4 ≠ 0 ∨ words = [] ∨ 16 < words.length ∨ wLength.toNat ≠ 4 * words.length) :=
  ⟨2, 0x0#32, 8, [1#32], 0, tkb, by decide +kernel⟩

/-- The hypotheses of clause 13 of `VendorRequestsComplete` meet: REG_WRITE_FIXED. -/
theorem wit_VendorRequestsComplete_13_regWriteFixed : ∃ (slot : Fin 4) (addr : BitVec 32) (wLength : BitVec 16) (words : List (BitVec 32)) (u : _) (s : State), s.tackUp slot = some u ∧ addr.toNat % 4 = 0 ∧ words ≠ [] ∧ words.length ≤ 4 ∧ wLength.toNat = 4 * words.length :=
  ⟨2, 0x0#32, 8, [1#32, 2#32], 0, tkb, by decide +kernel⟩

/-- The hypotheses of clause 14 of `VendorRequestsComplete` meet: REG_WRITE_FIXED. -/
theorem wit_VendorRequestsComplete_14_regWriteFixed : ∃ (slot : Fin 4) (addr : BitVec 32) (wLength : BitVec 16) (words : List (BitVec 32)) (u : _) (s : State), s.tackUp slot = some u ∧ (addr.toNat % 4 ≠ 0 ∨ words = [] ∨ 4 < words.length ∨ wLength.toNat ≠ 4 * words.length) :=
  ⟨2, 0x0#32, 20, (List.replicate 5 1#32), 0, tkb, by decide +kernel⟩

/-- The hypotheses of clause 15 of `VendorRequestsComplete` meet: QUEUE_SELECT. -/
theorem wit_VendorRequestsComplete_15_queueSelect : ∃ (slot : Fin 4) (wValue : BitVec 16) (wIndex : BitVec 16) (wLength : BitVec 16) (u : _) (s : State), s.tackUp slot = some u ∧ u < 2 ∧ wValue.toNat = 0 ∧ wIndex.toNat < 4 ∧ wLength.toNat = 0 ∧ (s.g (OBS_Q_CTRL.OWNER wIndex.toNat) = 0 ∨ s.g (OBS_Q_CTRL.OWNER wIndex.toNat) = u + 1) :=
  ⟨2, 0, 3, 0, 0, tkb, by decide +kernel⟩

/-- The hypotheses of clause 16 of `VendorRequestsComplete` meet: QUEUE_SELECT. -/
theorem wit_VendorRequestsComplete_16_queueSelect : ∃ (slot : Fin 4) (wValue : BitVec 16) (wIndex : BitVec 16) (wLength : BitVec 16) (u : _) (s : State), s.tackUp slot = some u ∧ (wValue.toNat ≠ 0 ∨ 4 ≤ wIndex.toNat ∨ wLength.toNat ≠ 0 ∨ (s.g (OBS_Q_CTRL.OWNER wIndex.toNat) ≠ 0 ∧ s.g (OBS_Q_CTRL.OWNER wIndex.toNat) ≠ u + 1)) :=
  ⟨2, 0, 3, 0, 0, tkb.p (OBS_Q_CTRL.OWNER 3) 2, by decide +kernel⟩

/-- The hypotheses of clause 17 of `VendorRequestsComplete` meet: EP1_REPORT. -/
theorem wit_VendorRequestsComplete_17_ep1Report : ∃ (slot : Fin 4) (ack : Bool) (s : State), (vat s.tack (s.upOf slot)).configured = true ∧ ack = false ∧ (vat s.tack (s.upOf slot)).report = none ∧ s.reportWords slot (s.upOf slot) ≠ (vat s.tack (s.upOf slot)).acked ∧ s.on (TKR_FUNC.RWAKE (s.upOf slot)) = false :=
  ⟨2, false, tkb.p TOP_MODE.MODE 3, by decide +kernel⟩

/-- The hypotheses of clause 18 of `VendorRequestsComplete` meet: EP1_REPORT. -/
theorem wit_VendorRequestsComplete_18_ep1Report : ∃ (slot : Fin 4) (ack : Bool) (l : _) (s : State), (vat s.tack (s.upOf slot)).configured = true ∧ ack = true ∧ (vat s.tack (s.upOf slot)).report = some l :=
  ⟨2, true, [1#32, 2#32, 3#32, 4#32], tkb.tackMod 0 fun x => { x with report := some [1#32, 2#32, 3#32, 4#32] }, by decide +kernel⟩

/-- The hypotheses of clause 19 of `VendorRequestsComplete` meet: EP2_PACKET_ACK. -/
theorem wit_VendorRequestsComplete_19_ep2PacketAck : ∃ (slot : Fin 4) (s : State), (vat s.tack (s.upOf slot)).configured = true ∧ s.g (OBS_Q_CTRL.OWNER (s.g (TKR_FUNC.QUEUE (s.upOf slot)))) = s.upOf slot + 1 ∧ (vat s.obs (s.g (TKR_FUNC.QUEUE (s.upOf slot)))).staged + (vat s.obs (s.g (TKR_FUNC.QUEUE (s.upOf slot)))).stagedGone ≠ 0 :=
  ⟨2, (tkb.p (OBS_Q_CTRL.OWNER 0) 1).withObs (vset tkb.obs 0 { recs := [[1#32]], staged := 1 }), by decide +kernel⟩

/-- The hypotheses of clause 20 of `VendorRequestsComplete` meet: EP2_PACKET_ACK. -/
theorem wit_VendorRequestsComplete_20_ep2PacketAck : ∃ (slot : Fin 4) (s : State), (vat s.tack (s.upOf slot)).configured = true ∧ (s.g (OBS_Q_CTRL.OWNER (s.g (TKR_FUNC.QUEUE (s.upOf slot)))) ≠ s.upOf slot + 1 ∨ (vat s.obs (s.g (TKR_FUNC.QUEUE (s.upOf slot)))).staged + (vat s.obs (s.g (TKR_FUNC.QUEUE (s.upOf slot)))).stagedGone = 0) :=
  ⟨2, tkb, by decide +kernel⟩

/-- The hypotheses of clause 21 of `VendorRequestsComplete` meet: EP1_REPORT. -/
theorem wit_VendorRequestsComplete_21_ep1Report : ∃ (slot : Fin 4) (ack : Bool) (s : State), (vat s.tack (s.upOf slot)).configured = true ∧ ack = true ∧ (vat s.tack (s.upOf slot)).report = none :=
  ⟨2, true, tkb, by decide +kernel⟩

/-- The hypotheses of clause 22 of `VendorRequestsComplete` meet: QUEUE_TIMEOUT. -/
theorem wit_VendorRequestsComplete_22_queueTimeout : ∃ (q : Fin 4) (s : State), s.g (OBS_Q_CTRL.TIMEOUT_MS q) ≠ 0 ∧ (vat s.obs q).recs ≠ [] ∧ s.domOn dMGT = true ∧ s.popAhead q = false ∧ s.marks.contains (.popped q) = false :=
  ⟨1, (up.p (OBS_Q_CTRL.TIMEOUT_MS 1) 5).withObs (vset up.obs 1 { recs := [[1#32]] }), by decide +kernel⟩

/-- The hypotheses of clause 0 of `DevicesAndSidebandsComplete` meet: BILLBOARD_TIMEOUT. -/
theorem wit_DevicesAndSidebandsComplete_0_billboardTimeout : ∃ (u : Fin 2) (r : _) (s : State), (s.slotOf u).bind s.plan.paddock? = some r ∧ bitOf r.flags 3 = true ∧ 2 ≤ s.g (TCP_PORT.CONTRACT (15 + u)) ∧ s.g (TCP_DP.STATE u) ≠ 3 ∧ s.on (TCP_DP.BILLBOARD u) = false ∧ (vat s.tack u).away = false ∧ s.tackPos r.slot = none :=
  ⟨0, { padr with flags := 8 }, (tkb.withPlan { tkb.plan with paddocks := [{ padr with flags := 8 }] }).withMirror [] |>.p (TCP_PORT.CONTRACT 15) 2, by decide +kernel⟩

/-- The hypotheses of clause 1 of `DevicesAndSidebandsComplete` meet: BILLBOARD_TIMEOUT. -/
theorem wit_DevicesAndSidebandsComplete_1_billboardTimeout : ∃ (u : Fin 2) (r : _) (q : _) (s : State), (s.slotOf u).bind s.plan.paddock? = some r ∧ bitOf r.flags 3 = true ∧ 2 ≤ s.g (TCP_PORT.CONTRACT (15 + u)) ∧ s.g (TCP_DP.STATE u) ≠ 3 ∧ s.on (TCP_DP.BILLBOARD u) = false ∧ (vat s.tack u).away = false ∧ s.tackPos r.slot = some q :=
  ⟨0, { padr with flags := 8 }, mir3, (tkb.withPlan { tkb.plan with paddocks := [{ padr with flags := 8 }] }).p (TCP_PORT.CONTRACT 15) 2, by decide +kernel⟩

/-- The hypotheses of clause 2 of `DevicesAndSidebandsComplete` meet: BILLBOARD_RECONNECT. -/
theorem wit_DevicesAndSidebandsComplete_2_billboardReconnect : ∃ (u : Fin 2) (q : _) (s : State), (s.slotOf u).bind s.tackPos = some q ∧ (vat s.tack u).away = true ∧ (s.ch (15 + u)).attached = true :=
  ⟨0, mir3, (tkb.tackMod 0 fun x => { x with away := true }).chMod 15 fun c => { c with attached := true }, by decide +kernel⟩

/-- The hypotheses of clause 3 of `DevicesAndSidebandsComplete` meet: STANDARD_DEVICE_REQUEST. -/
theorem wit_DevicesAndSidebandsComplete_3_standardDeviceRequest : ∃ (slot : Fin 4) (hub : Option (Fin 16)) (h : _) (s : State), hub = some h ∧ s.answers slot h = true :=
  ⟨2, (some 0), 0, tkb, by decide +kernel⟩

/-- The hypotheses of clause 4 of `DevicesAndSidebandsComplete` meet: STANDARD_DEVICE_REQUEST. -/
theorem wit_DevicesAndSidebandsComplete_4_standardDeviceRequest : ∃ (slot : Fin 4) (hub : Option (Fin 16)) (u : _) (s : State), hub = none ∧ s.homeOf slot = some (s.member, u) :=
  ⟨2, none, 0, tkb, by decide +kernel⟩

/-- The hypotheses of clause 5 of `DevicesAndSidebandsComplete` meet: STANDARD_DEVICE_REQUEST. -/
theorem wit_DevicesAndSidebandsComplete_5_standardDeviceRequest : ∃ (slot : Fin 4) (hub : Option (Fin 16)) (r : StdReq) (u : _) (a : _) (s : State), hub = none ∧ s.homeOf slot = some (s.member, u) ∧ r = .address a ∧ (s.g (TKR_FUNC.STATE u) = 2 ∨ s.g (TKR_FUNC.STATE u) = 3) :=
  ⟨2, none, (.address 5), 0, 5, tkb.p (TKR_FUNC.STATE 0) 2, by decide +kernel⟩

/-- The hypotheses of clause 6 of `DevicesAndSidebandsComplete` meet: I2C_WRITE. -/
theorem wit_DevicesAndSidebandsComplete_6_i2cWrite : ∃ (s : State), s.boot.held = 0 ∧ s.on TKR_CTRL.I2C_EN = true ∧ s.on TKR_SB.PEC = false :=
  ⟨tkb.p TKR_CTRL.I2C_EN 1, by decide +kernel⟩

/-- The hypotheses of clause 7 of `DevicesAndSidebandsComplete` meet: I2C_WRITE. -/
theorem wit_DevicesAndSidebandsComplete_7_i2cWrite : ∃ (bytes : List (BitVec 8)) (pec : _) (s : State), s.boot.held = 0 ∧ s.on TKR_CTRL.I2C_EN = true ∧ s.on TKR_SB.PEC = true ∧ bytes.getLast? = some pec :=
  ⟨[1#8, 2#8], 2#8, tkb.fields [(TKR_CTRL.I2C_EN, 1), (TKR_SB.PEC, 1)], by decide +kernel⟩

/-- The hypotheses of clause 8 of `DevicesAndSidebandsComplete` meet: I2C_READ. -/
theorem wit_DevicesAndSidebandsComplete_8_i2cRead : ∃ (s : State), s.boot.held = 0 ∧ s.on TKR_CTRL.I2C_EN = true :=
  ⟨tkb.p TKR_CTRL.I2C_EN 1, by decide +kernel⟩

/-- The hypotheses of clause 9 of `DevicesAndSidebandsComplete` meet: SPI_WRITE. -/
theorem wit_DevicesAndSidebandsComplete_9_spiWrite : ∃ (s : State), s.boot.held = 0 ∧ s.on TKR_CTRL.SPI_EN = true :=
  ⟨tkb.p TKR_CTRL.SPI_EN 1, by decide +kernel⟩

/-- The hypotheses of clause 10 of `DevicesAndSidebandsComplete` meet: SPI_READ. -/
theorem wit_DevicesAndSidebandsComplete_10_spiRead : ∃ (s : State), s.boot.held = 0 ∧ s.on TKR_CTRL.SPI_EN = true :=
  ⟨tkb.p TKR_CTRL.SPI_EN 1, by decide +kernel⟩

/-- The hypotheses of clause 11 of `DevicesAndSidebandsComplete` meet: SPI_STATUS. -/
theorem wit_DevicesAndSidebandsComplete_11_spiStatus : ∃ (s : State), s.boot.held = 0 ∧ s.on TKR_CTRL.SPI_EN = true :=
  ⟨tkb.p TKR_CTRL.SPI_EN 1, by decide +kernel⟩

/-- The hypotheses of clause 12 of `DevicesAndSidebandsComplete` meet: SMBUS_ALERT_RESPONSE. -/
theorem wit_DevicesAndSidebandsComplete_12_smbusAlertResponse : ∃ (s : State), s.boot.held = 0 ∧ s.on TKR_CTRL.I2C_EN = true ∧ s.alertOn = true :=
  ⟨tkb.fields [(TKR_CTRL.I2C_EN, 1), (TKR_ALERT_EN.EN, 15), (TLM_INWARN.PWRWARN, 1)], by decide +kernel⟩

/-- The hypotheses of clause 13 of `DevicesAndSidebandsComplete` meet: SIDEBAND_STALL_TIMEOUT. -/
theorem wit_DevicesAndSidebandsComplete_13_sidebandStallTimeout : ∃ (spi : Bool) (s : State), ((s.pdc.stalls.filter fun x => x.master = if spi then 7 else 6) ≠ []) :=
  ⟨false, tkb.withPdc { tkb.pdc with stalls := [⟨6, .plain, [(HSH_CTRL.addr, none)], []⟩] }, by decide +kernel⟩

/-- The hypotheses of clause 0 of `PlanCommandsComplete` meet: STAGING_ERASE_DONE. -/
theorem wit_PlanCommandsComplete_0_stagingEraseDone : ∃ (s : State), s.upload = 1 :=
  ⟨up.p PLN_STATUS.UPLOAD 1, by decide +kernel⟩

/-- The hypotheses of clause 1 of `PlanCommandsComplete` meet: COMMIT_STEP_DONE. -/
theorem wit_PlanCommandsComplete_1_commitStepDone : ∃ (s : State), s.mode ≠ 5 ∧ s.pln.commit = 1 :=
  ⟨up.plnMod fun p => { p with commit := 1 }, by decide +kernel⟩

/-- The hypotheses of clause 2 of `PlanCommandsComplete` meet: COMMIT_STEP_DONE. -/
theorem wit_PlanCommandsComplete_2_commitStepDone : ∃ (s : State), s.mode ≠ 5 ∧ s.pln.commit = 2 :=
  ⟨up.plnMod fun p => { p with commit := 2 }, by decide +kernel⟩

/-- The hypotheses of clause 3 of `PlanCommandsComplete` meet: COMMIT_STEP_DONE. -/
theorem wit_PlanCommandsComplete_3_commitStepDone : ∃ (s : State), s.mode ≠ 5 ∧ s.pln.commit = 3 :=
  ⟨up.plnMod fun p => { p with commit := 3 }, by decide +kernel⟩

/-- The hypotheses of clause 4 of `PlanCommandsComplete` meet: COMMIT_STEP_DONE. -/
theorem wit_PlanCommandsComplete_4_commitStepDone : ∃ (s : State), s.pln.target < 2 ∧ s.mode ≠ 5 ∧ s.pln.commit = 4 :=
  ⟨up.plnMod fun p => { p with commit := 4 }, by decide +kernel⟩

/-- The hypotheses of clause 5 of `PlanCommandsComplete` meet: COMMIT_STEP_DONE. -/
theorem wit_PlanCommandsComplete_5_commitStepDone : ∃ (ok : Bool) (s : State), s.mode ≠ 5 ∧ s.pln.commit = 5 ∧ ok = true :=
  ⟨true, up.plnMod fun p => { p with commit := 5 }, by decide +kernel⟩

/-- The hypotheses of clause 6 of `PlanCommandsComplete` meet: COMMIT_STEP_DONE. -/
theorem wit_PlanCommandsComplete_6_commitStepDone : ∃ (ok : Bool) (s : State), s.pln.target < 2 ∧ s.mode ≠ 5 ∧ s.pln.commit = 6 ∧ ok = true :=
  ⟨true, up.plnMod fun p => { p with commit := 6 }, by decide +kernel⟩

/-- The hypotheses of clause 7 of `PlanCommandsComplete` meet: COMMIT_STEP_DONE. -/
theorem wit_PlanCommandsComplete_7_commitStepDone : ∃ (ok : Bool) (s : State), s.mode ≠ 5 ∧ (s.pln.commit = 5 ∨ s.pln.commit = 6) ∧ ok = false ∧ s.pln.again = false :=
  ⟨false, up.plnMod fun p => { p with commit := 6 }, by decide +kernel⟩

/-- The hypotheses of clause 8 of `PlanCommandsComplete` meet: ACTIVATE_REPLY_WAIT_END. -/
theorem wit_PlanCommandsComplete_8_activateReplyWaitEnd : ∃ (r : _) (s : State), s.pln.act = some r ∧ r.wait.isSome = true ∧ s.mode = 3 :=
  ⟨{ plan := Plan.empty, source := 2, revoke := 0, raiseFloor := false, wait := some 3, wide := false }, (up.p TOP_MODE.MODE 3).plnMod fun p => { p with act := some { plan := Plan.empty, source := 2, revoke := 0, raiseFloor := false, wait := some 3, wide := false } }, by decide +kernel⟩

/-- The hypotheses of clause 9 of `PlanCommandsComplete` meet: ACTIVATE_REPLY_WAIT_END. -/
theorem wit_PlanCommandsComplete_9_activateReplyWaitEnd : ∃ (r : _) (s : State), s.pln.act = some r ∧ r.wait.isSome = true ∧ s.mode = 4 :=
  ⟨{ plan := Plan.empty, source := 2, revoke := 0, raiseFloor := false, wait := some 3, wide := false }, (up.p TOP_MODE.MODE 4).plnMod fun p => { p with act := some { plan := Plan.empty, source := 2, revoke := 0, raiseFloor := false, wait := some 3, wide := false } }, by decide +kernel⟩

/-- The hypotheses of clause 10 of `PlanCommandsComplete` meet: MEMBER_ACTIVATE_ORDER. -/
theorem wit_PlanCommandsComplete_10_memberActivateOrder : ∃ (c : CtrlHdr) (revoke : Fin 16) (raise : Bool) (u : _) (s : State), Taken c s ∧ s.rxCtrl c "ACTIVATE" [revoke.val, b2n raise] id = u ∧ u.mode = 3 ∧ u.pln.commit = 0 ∧ u.actBusy = false :=
  ⟨(ch 0 5), 2, false, ((barn.fields [(GLK_LINK.STATE 0, 4), (TOP_MODE.MODE, 3)]).rxCtrl (ch 0 5) "ACTIVATE" [2, 0] id), barn.fields [(GLK_LINK.STATE 0, 4), (TOP_MODE.MODE, 3)], by decide +kernel⟩

/-- The hypotheses of clause 11 of `PlanCommandsComplete` meet: OTP_WRITE_DONE. -/
theorem wit_PlanCommandsComplete_11_otpWriteDone : ∃ (k : _) (l : _) (s : State), k < 4 ∧ s.mode ≠ 5 ∧ s.pln.otp = .revoke k :: l :=
  ⟨2, [], up.plnMod fun p => { p with otp := [.revoke 2] }, by decide +kernel⟩

/-- The hypotheses of clause 12 of `PlanCommandsComplete` meet: OTP_WRITE_DONE. -/
theorem wit_PlanCommandsComplete_12_otpWriteDone : ∃ (b : _) (l : _) (s : State), s.mode ≠ 5 ∧ s.pln.otp = .floor b :: l ∧ s.otp.floor < b ∧ s.otp.words.length < 64 :=
  ⟨9, [], up.plnMod fun p => { p with otp := [.floor 9] }, by decide +kernel⟩

/-- The hypotheses of clause 13 of `PlanCommandsComplete` meet: UPLOAD_IDLE_TIMEOUT. -/
theorem wit_PlanCommandsComplete_13_uploadIdleTimeout : ∃ (s : State), s.upload = 2 :=
  ⟨up.p PLN_STATUS.UPLOAD 2, by decide +kernel⟩

/-- The hypotheses of clause 14 of `PlanCommandsComplete` meet: EP3_BULK_DATA. -/
theorem wit_PlanCommandsComplete_14_ep3BulkData : ∃ (slot : Fin 4) (bytes : List (BitVec 8)) (b : _) (s : State), s.dwezelRuns = true ∧ s.slotOf (s.upOf slot) = some slot.val ∧ (vat s.tack (s.upOf slot)).ep3 = none ∧ (vat s.tack (s.upOf slot)).configured = true ∧ s.pln.bulk = some b ∧ s.g (MBX_ASSIGN.PARTY b.c) = 2 + slot.val ∧ bytes.length = b.count :=
  ⟨2, [1#8], ⟨3, 0, 1, 0x81, none⟩, ((tkb.p (MBX_ASSIGN.PARTY 3) 4).p TOP_MODE.MODE 3).plnMod fun p => { p with bulk := some ⟨3, 0, 1, 0x81, none⟩ }, by decide +kernel⟩

/-- The hypotheses of clause 15 of `PlanCommandsComplete` meet: EP3_BULK_DATA. -/
theorem wit_PlanCommandsComplete_15_ep3BulkData : ∃ (slot : Fin 4) (s : State), (vat s.tack (s.upOf slot)).configured = true ∧ s.slotOf (s.upOf slot) = some slot.val ∧ (s.bulkFrom slot = false ∨ (vat s.tack (s.upOf slot)).ep3.isSome = true) :=
  ⟨2, tkb, by decide +kernel⟩

/-- The hypotheses of clause 0 of `ManagementComplete` meet: DUMP_WRITE. -/
theorem wit_ManagementComplete_0_dumpWrite : ∃ (cause : _) (rest : _) (s : State), s.boot.held = 0 ∧ s.mode ≠ 5 ∧ s.domOn dMGT = true ∧ s.flt.dumpDue = cause :: rest ∧ s.flt.ram = none ∧ s.flt.writing = 0 :=
  ⟨0xF0, [1], up.fltMod fun f => { f with dumpDue := [0xF0, 1] }, by decide +kernel⟩

/-- The hypotheses of clause 1 of `ManagementComplete` meet: DUMP_FLASH_DONE. -/
theorem wit_ManagementComplete_1_dumpFlashDone : ∃ (d : _) (s : State), s.mode ≠ 5 ∧ s.flt.ram = some d ∧ s.flt.writing ≠ 0 :=
  ⟨{ seq := 1, severity := 3, bytes := [] }, up.fltMod fun f => { f with ram := some { seq := 1, severity := 3, bytes := [] }, writing := 1 }, by decide +kernel⟩

/-- The hypotheses of clause 2 of `ManagementComplete` meet: WATCHDOG_EXPIRE. -/
theorem wit_ManagementComplete_2_watchdogExpire : ∃ (s : State), s.boot.held = 0 ∧ s.domOn dMGT = true :=
  ⟨up, by decide +kernel⟩

/-- The hypotheses of clause 3 of `ManagementComplete` meet: MGT_EXCEPTION. -/
theorem wit_ManagementComplete_3_mgtException : ∃ (s : State), s.boot.held = 0 ∧ s.domOn dMGT = true :=
  ⟨up, by decide +kernel⟩

/-- The hypotheses of clause 4 of `ManagementComplete` meet: MANAGEMENT_RESTART_DONE. -/
theorem wit_ManagementComplete_4_managementRestartDone : ∃ (s : State), s.flt.restarting = true :=
  ⟨up.fltMod fun f => { f with restarting := true }, by decide +kernel⟩

/-- The hypotheses of clause 5 of `ManagementComplete` meet: BUS_RESET. -/
theorem wit_ManagementComplete_5_busReset : ∃ (u : Fin 2) (slot : _) (s : State), s.domOn (5 + u.val) = true ∧ s.domOn dHSB = true ∧ s.slotOf u = some slot ∧ 2 ≤ s.g (UPP_PADDOCK.STATE u) :=
  ⟨0, 2, padb.p (UPP_PADDOCK.STATE 0) 4, by decide +kernel⟩

/-- The hypotheses of clause 6 of `ManagementComplete` meet: BUS_RESET. -/
theorem wit_ManagementComplete_6_busReset : ∃ (u : Fin 2) (s : State), (s.slotOf u).isSome = true ∧ (s.domOn (5 + u.val) = false ∨ s.domOn dHSB = false) :=
  ⟨0, (padb.p (PDC_DOM.STATE 5) 2), by decide +kernel⟩

/-- The hypotheses of clause 7 of `ManagementComplete` meet: MESSAGE_CONSUME. -/
theorem wit_ManagementComplete_7_messageConsume : ∃ (c : Fin 12) (s : State), s.dwezelRuns = true ∧ s.nextServed = some c.val :=
  ⟨3, (up.fields [(MBX_IN_CTRL.GO 3, 1), (TOP_MODE.MODE, 3)]).mbMod 3 fun x => { x with seen := true }, by decide +kernel⟩

/-- The hypotheses of clause 8 of `ManagementComplete` meet: PORT_POWER_CYCLE_RELEASE. -/
theorem wit_ManagementComplete_8_portPowerCycleRelease : ∃ (n : Channel) (s : State), (s.ch n).cycling = true ∧ (s.ch n).vbusLow = true :=
  ⟨4, up.chMod 4 fun c => { c with cycling := true, vbusLow := true }, by decide +kernel⟩

/-- The hypotheses of clause 9 of `ManagementComplete` meet: HANDOFF_STEP_DONE. -/
theorem wit_ManagementComplete_9_handoffStepDone : ∃ (i : Fin 16) (h : _) (s : State), s.handoff[i.val]? = some h ∧ s.mode ≠ 4 ∧ h.step = 2 :=
  ⟨0, { step := 2 }, padb.withHandoff [{ step := 2 }], by decide +kernel⟩

/-- The hypotheses of clause 10 of `ManagementComplete` meet: HANDOFF_STEP_DONE. -/
theorem wit_ManagementComplete_10_handoffStepDone : ∃ (i : Fin 16) (h : _) (s : State), s.handoff[i.val]? = some h ∧ s.mode ≠ 4 ∧ h.step ∈ [1, 4, 5] :=
  ⟨0, { step := 4 }, padb.withHandoff [{ step := 4 }], by decide +kernel⟩

/-- The hypotheses of clause 11 of `ManagementComplete` meet: HANDOFF_STEP_DONE. -/
theorem wit_ManagementComplete_11_handoffStepDone : ∃ (i : Fin 16) (h : _) (s : State), s.handoff[i.val]? = some h ∧ s.mode = 4 :=
  ⟨0, { step := 4 }, (padb.withHandoff [{ step := 4 }]).p TOP_MODE.MODE 4, by decide +kernel⟩

/-- The hypotheses of clause 12 of `ManagementComplete` meet: SESSION_IDLE_TIMEOUT. -/
theorem wit_ManagementComplete_12_sessionIdleTimeout : ∃ (c : Fin 12) (x : _) (s : State), s.session c = some x :=
  ⟨8, sess, up.sessSet 8 (some sess), by decide +kernel⟩

/-- The hypotheses of clause 0 of `StatusCommandsComplete` meet: INFO. -/
theorem wit_StatusCommandsComplete_0_info : ∃ (c : Fin 12) (seq : Fin 16) (words : List (BitVec 32)) (s : State), c.val < 8 ∧ s.accepts 0x01 (s.ask c seq words) = true :=
  ⟨2, 1, (0x01#32 :: List.replicate 10 0#32), cmdb, by decide +kernel⟩

/-- The hypotheses of clause 1 of `StatusCommandsComplete` meet: MODE_GET. -/
theorem wit_StatusCommandsComplete_1_modeGet : ∃ (c : Fin 12) (seq : Fin 16) (words : List (BitVec 32)) (s : State), c.val < 8 ∧ s.accepts 0x02 (s.ask c seq words) = true :=
  ⟨2, 1, (0x02#32 :: List.replicate 10 0#32), cmdb, by decide +kernel⟩

/-- The hypotheses of clause 2 of `StatusCommandsComplete` meet: PORT_STATUS. -/
theorem wit_StatusCommandsComplete_2_portStatus : ∃ (c : Fin 12) (seq : Fin 16) (words : List (BitVec 32)) (s : State), c.val < 8 ∧ s.accepts 0x10 (s.ask c seq words) = true :=
  ⟨2, 1, (0x10#32 :: List.replicate 10 0#32), cmdb, by decide +kernel⟩

/-- The hypotheses of clause 3 of `StatusCommandsComplete` meet: PORT_ASSIGN. -/
theorem wit_StatusCommandsComplete_3_portAssign : ∃ (c : Fin 12) (seq : Fin 16) (words : List (BitVec 32)) (s : State), c.val < 8 ∧ s.accepts 0x11 (s.ask c seq words) = true :=
  ⟨2, 1, (0x11#32 :: List.replicate 10 0#32), cmdb, by decide +kernel⟩

/-- The hypotheses of clause 4 of `StatusCommandsComplete` meet: PORT_POWER. -/
theorem wit_StatusCommandsComplete_4_portPower : ∃ (c : Fin 12) (seq : Fin 16) (words : List (BitVec 32)) (s : State), c.val < 8 ∧ s.accepts 0x12 (s.ask c seq words) = true :=
  ⟨2, 1, (0x12#32 :: List.replicate 10 0#32), cmdb, by decide +kernel⟩

/-- The hypotheses of clause 5 of `StatusCommandsComplete` meet: KVM_SET. -/
theorem wit_StatusCommandsComplete_5_kvmSet : ∃ (c : Fin 12) (seq : Fin 16) (words : List (BitVec 32)) (s : State), c.val < 8 ∧ s.accepts 0x13 (s.ask c seq words) = true :=
  ⟨2, 1, (0x13#32 :: List.replicate 10 0#32), cmdb, by decide +kernel⟩

/-- The hypotheses of clause 6 of `StatusCommandsComplete` meet: PD_STATUS. -/
theorem wit_StatusCommandsComplete_6_pdStatus : ∃ (c : Fin 12) (seq : Fin 16) (words : List (BitVec 32)) (s : State), c.val < 8 ∧ s.accepts 0x20 (s.ask c seq words) = true :=
  ⟨2, 1, (0x20#32 :: List.replicate 10 0#32), cmdb, by decide +kernel⟩

/-- The hypotheses of clause 7 of `StatusCommandsComplete` meet: PD_POLICY. -/
theorem wit_StatusCommandsComplete_7_pdPolicy : ∃ (c : Fin 12) (seq : Fin 16) (words : List (BitVec 32)) (s : State), c.val < 8 ∧ s.accepts 0x21 (s.ask c seq words) = true :=
  ⟨2, 1, (0x21#32 :: List.replicate 10 0#32), cmdb, by decide +kernel⟩

/-- The hypotheses of clause 8 of `StatusCommandsComplete` meet: SOURCE_CAPS_SET. -/
theorem wit_StatusCommandsComplete_8_sourceCapsSet : ∃ (c : Fin 12) (seq : Fin 16) (words : List (BitVec 32)) (s : State), c.val < 8 ∧ s.accepts 0x22 (s.ask c seq words) = true :=
  ⟨2, 1, (0x22#32 :: List.replicate 10 0#32), cmdb, by decide +kernel⟩

/-- The hypotheses of clause 9 of `StatusCommandsComplete` meet: TLM_READ. -/
theorem wit_StatusCommandsComplete_9_tlmRead : ∃ (c : Fin 12) (seq : Fin 16) (words : List (BitVec 32)) (s : State), c.val < 8 ∧ s.accepts 0x30 (s.ask c seq words) = true :=
  ⟨2, 1, (0x30#32 :: List.replicate 10 0#32), cmdb, by decide +kernel⟩

/-- The hypotheses of clause 10 of `StatusCommandsComplete` meet: ENERGY_READ. -/
theorem wit_StatusCommandsComplete_10_energyRead : ∃ (c : Fin 12) (seq : Fin 16) (words : List (BitVec 32)) (s : State), c.val < 8 ∧ s.accepts 0x31 (s.ask c seq words) = true :=
  ⟨2, 1, (0x31#32 :: List.replicate 10 0#32), cmdb, by decide +kernel⟩

/-- The hypotheses of clause 11 of `StatusCommandsComplete` meet: BUDGET_SET. -/
theorem wit_StatusCommandsComplete_11_budgetSet : ∃ (c : Fin 12) (seq : Fin 16) (words : List (BitVec 32)) (s : State), c.val < 8 ∧ s.accepts 0x32 (s.ask c seq words) = true :=
  ⟨2, 1, (0x32#32 :: List.replicate 10 0#32), cmdb, by decide +kernel⟩

/-- The hypotheses of clause 12 of `StatusCommandsComplete` meet: FABRIC_STATUS. -/
theorem wit_StatusCommandsComplete_12_fabricStatus : ∃ (c : Fin 12) (seq : Fin 16) (words : List (BitVec 32)) (s : State), c.val < 8 ∧ s.accepts 0x40 (s.ask c seq words) = true :=
  ⟨2, 1, (0x40#32 :: List.replicate 10 0#32), cmdb, by decide +kernel⟩

/-- The hypotheses of clause 13 of `StatusCommandsComplete` meet: FABRIC_RESEED. -/
theorem wit_StatusCommandsComplete_13_fabricReseed : ∃ (c : Fin 12) (seq : Fin 16) (words : List (BitVec 32)) (s : State), c.val < 8 ∧ s.accepts 0x41 (s.ask c seq words) = true :=
  ⟨2, 1, (0x41#32 :: List.replicate 10 0#32), cmdb, by decide +kernel⟩

/-- The hypotheses of clause 0 of `ControlCommandsComplete` meet: QUEUE_CONFIG. -/
theorem wit_ControlCommandsComplete_0_queueConfig : ∃ (c : Fin 12) (seq : Fin 16) (words : List (BitVec 32)) (s : State), c.val < 8 ∧ s.accepts 0x50 (s.ask c seq words) = true :=
  ⟨2, 1, (0x50#32 :: List.replicate 10 0#32), cmdb, by decide +kernel⟩

/-- The hypotheses of clause 1 of `ControlCommandsComplete` meet: PMU_CONFIG. -/
theorem wit_ControlCommandsComplete_1_pmuConfig : ∃ (c : Fin 12) (seq : Fin 16) (words : List (BitVec 32)) (s : State), c.val < 8 ∧ s.accepts 0x51 (s.ask c seq words) = true :=
  ⟨2, 1, (0x51#32 :: List.replicate 10 0#32), cmdb, by decide +kernel⟩

/-- The hypotheses of clause 2 of `ControlCommandsComplete` meet: FAULT_STATUS. -/
theorem wit_ControlCommandsComplete_2_faultStatus : ∃ (c : Fin 12) (seq : Fin 16) (words : List (BitVec 32)) (s : State), c.val < 8 ∧ s.accepts 0x60 (s.ask c seq words) = true :=
  ⟨2, 1, (0x60#32 :: List.replicate 10 0#32), cmdb, by decide +kernel⟩

/-- The hypotheses of clause 3 of `ControlCommandsComplete` meet: FAULT_CLEAR. -/
theorem wit_ControlCommandsComplete_3_faultClear : ∃ (c : Fin 12) (seq : Fin 16) (words : List (BitVec 32)) (s : State), c.val < 8 ∧ s.accepts 0x61 (s.ask c seq words) = true :=
  ⟨2, 1, (0x61#32 :: List.replicate 10 0#32), cmdb, by decide +kernel⟩

/-- The hypotheses of clause 4 of `ControlCommandsComplete` meet: DUMP_READ. -/
theorem wit_ControlCommandsComplete_4_dumpRead : ∃ (c : Fin 12) (seq : Fin 16) (words : List (BitVec 32)) (s : State), c.val < 8 ∧ s.accepts 0x62 (s.ask c seq words) = true :=
  ⟨2, 1, (0x62#32 :: List.replicate 10 0#32), cmdb, by decide +kernel⟩

/-- The hypotheses of clause 5 of `ControlCommandsComplete` meet: SESSION_OPEN. -/
theorem wit_ControlCommandsComplete_5_sessionOpen : ∃ (c : Fin 12) (seq : Fin 16) (words : List (BitVec 32)) (s : State), c.val < 8 ∧ s.accepts 0x70 (s.ask c seq words) = true :=
  ⟨2, 1, (0x70#32 :: List.replicate 10 0#32), cmdb, by decide +kernel⟩

/-- The hypotheses of clause 6 of `ControlCommandsComplete` meet: SESSION_CLOSE. -/
theorem wit_ControlCommandsComplete_6_sessionClose : ∃ (c : Fin 12) (seq : Fin 16) (words : List (BitVec 32)) (s : State), c.val < 8 ∧ s.accepts 0x71 (s.ask c seq words) = true :=
  ⟨2, 1, (0x71#32 :: List.replicate 10 0#32), cmdb, by decide +kernel⟩

/-- The hypotheses of clause 7 of `ControlCommandsComplete` meet: PLAN_BEGIN. -/
theorem wit_ControlCommandsComplete_7_planBegin : ∃ (c : Fin 12) (seq : Fin 16) (words : List (BitVec 32)) (s : State), c.val < 8 ∧ s.accepts 0x80 (s.ask c seq words) = true :=
  ⟨2, 1, (0x80#32 :: List.replicate 10 0#32), cmdb, by decide +kernel⟩

/-- The hypotheses of clause 8 of `ControlCommandsComplete` meet: PLAN_CHUNK. -/
theorem wit_ControlCommandsComplete_8_planChunk : ∃ (c : Fin 12) (seq : Fin 16) (words : List (BitVec 32)) (s : State), c.val < 8 ∧ s.accepts 0x81 (s.ask c seq words) = true :=
  ⟨2, 1, (0x81#32 :: List.replicate 10 0#32), cmdb, by decide +kernel⟩

/-- The hypotheses of clause 9 of `ControlCommandsComplete` meet: PLAN_COMMIT. -/
theorem wit_ControlCommandsComplete_9_planCommit : ∃ (c : Fin 12) (seq : Fin 16) (words : List (BitVec 32)) (s : State), c.val < 8 ∧ s.accepts 0x82 (s.ask c seq words) = true :=
  ⟨2, 1, (0x82#32 :: List.replicate 10 0#32), cmdb, by decide +kernel⟩

/-- The hypotheses of clause 10 of `ControlCommandsComplete` meet: PLAN_ACTIVATE. -/
theorem wit_ControlCommandsComplete_10_planActivate : ∃ (c : Fin 12) (seq : Fin 16) (words : List (BitVec 32)) (s : State), c.val < 8 ∧ s.accepts 0x83 (s.ask c seq words) = true :=
  ⟨2, 1, (0x83#32 :: List.replicate 10 0#32), cmdb, by decide +kernel⟩

/-- The hypotheses of clause 11 of `ControlCommandsComplete` meet: REG_PEEK. -/
theorem wit_ControlCommandsComplete_11_regPeek : ∃ (c : Fin 12) (seq : Fin 16) (words : List (BitVec 32)) (s : State), c.val < 8 ∧ s.accepts 0x90 (s.ask c seq words) = true :=
  ⟨2, 1, (0x90#32 :: List.replicate 10 0#32), cmdb, by decide +kernel⟩

/-- The hypotheses of clause 12 of `ControlCommandsComplete` meet: REG_POKE. -/
theorem wit_ControlCommandsComplete_12_regPoke : ∃ (c : Fin 12) (seq : Fin 16) (words : List (BitVec 32)) (s : State), c.val < 8 ∧ s.accepts 0x91 (s.ask c seq words) = true :=
  ⟨2, 1, (0x91#32 :: List.replicate 10 0#32), cmdb, by decide +kernel⟩

/-- The hypotheses of clause 13 of `ControlCommandsComplete` meet: TIMELINE_ADD. -/
theorem wit_ControlCommandsComplete_13_timelineAdd : ∃ (c : Fin 12) (seq : Fin 16) (words : List (BitVec 32)) (s : State), c.val < 8 ∧ s.accepts 0xA0 (s.ask c seq words) = true :=
  ⟨2, 1, (0xA0#32 :: List.replicate 10 0#32), cmdb, by decide +kernel⟩

/-- The hypotheses of clause 14 of `ControlCommandsComplete` meet: TIMELINE_DEL. -/
theorem wit_ControlCommandsComplete_14_timelineDel : ∃ (c : Fin 12) (seq : Fin 16) (words : List (BitVec 32)) (s : State), c.val < 8 ∧ s.accepts 0xA1 (s.ask c seq words) = true :=
  ⟨2, 1, (0xA1#32 :: List.replicate 10 0#32), cmdb, by decide +kernel⟩

/-- The hypotheses of clause 0 of `ControlCommandsTakeEffect` meet: QUEUE_CONFIG. -/
theorem wit_ControlCommandsTakeEffect_0_queueConfig : ∃ (c : Fin 12) (seq : Fin 16) (words : List (BitVec 32)) (a : _) (s : State), a = s.ask c seq words ∧ c.val < 8 ∧ s.accepts 0x50 a = true ∧ a.w 1 ≤ 3 ∧ a.w 2 ≤ 1000 ∧ a.w 3 ≤ 11 ∧ a.w 4 ≤ 1 :=
  ⟨2, 1, [0x50#32, 2#32, 500#32, 7#32, 1#32], ((cmdb).ask 2 1 [0x50#32, 2#32, 500#32, 7#32, 1#32]), cmdb, by decide +kernel⟩

/-- The hypotheses of clause 1 of `ControlCommandsTakeEffect` meet: PMU_CONFIG. -/
theorem wit_ControlCommandsTakeEffect_1_pmuConfig : ∃ (c : Fin 12) (seq : Fin 16) (words : List (BitVec 32)) (a : _) (s : State), a = s.ask c seq words ∧ c.val < 8 ∧ s.accepts 0x51 a = true ∧ a.w 1 ≤ 7 ∧ a.w 2 ≤ 0x16 ∧ a.w 3 ≤ 3 :=
  ⟨2, 1, [0x51#32, 7#32, 22#32, 3#32], ((cmdb).ask 2 1 [0x51#32, 7#32, 22#32, 3#32]), cmdb, by decide +kernel⟩

/-- The hypotheses of clause 2 of `ControlCommandsTakeEffect` meet: FAULT_STATUS. -/
theorem wit_ControlCommandsTakeEffect_2_faultStatus : ∃ (c : Fin 12) (seq : Fin 16) (words : List (BitVec 32)) (a : _) (s : State), a = s.ask c seq words ∧ c.val < 8 ∧ s.accepts 0x60 a = true :=
  ⟨2, 1, [0x60#32], ((cmdb).ask 2 1 [0x60#32]), cmdb, by decide +kernel⟩

/-- The hypotheses of clause 3 of `ControlCommandsTakeEffect` meet: FAULT_CLEAR. -/
theorem wit_ControlCommandsTakeEffect_3_faultClear : ∃ (c : Fin 12) (seq : Fin 16) (words : List (BitVec 32)) (a : _) (s : State), a = s.ask c seq words ∧ c.val < 8 ∧ s.accepts 0x61 a = true ∧ a.w 2 ≤ 255 ∧ a.w 1 ≤ 127 ∧ faultExists (a.w 1) = true ∧ s.severity (a.w 1) ≠ 3 ∧ s.arisesNow (a.w 1) = false ∧ (s.mode = 1 → a.w 1 ≠ 88 ∧ s.severity 88 < 2) :=
  ⟨2, 1, [0x61#32, 83#32, 255#32], ((cmdb).ask 2 1 [0x61#32, 83#32, 255#32]), cmdb, by decide +kernel⟩

/-- The hypotheses of clause 4 of `ControlCommandsTakeEffect` meet: FAULT_CLEAR. -/
theorem wit_ControlCommandsTakeEffect_4_faultClear : ∃ (c : Fin 12) (seq : Fin 16) (words : List (BitVec 32)) (a : _) (s : State), a = s.ask c seq words ∧ c.val < 8 ∧ s.accepts 0x61 a = true ∧ a.w 2 ≤ 255 ∧ a.w 1 = 0xFFFF ∧ ((List.range 128).any fun i => s.sticky i && s.severity i = 3) = false :=
  ⟨2, 1, [0x61#32, 0xFFFF#32, 0#32], ((cmdb).ask 2 1 [0x61#32, 0xFFFF#32, 0#32]), cmdb, by decide +kernel⟩

/-- The hypotheses of clause 5 of `ControlCommandsTakeEffect` meet: DUMP_READ. -/
theorem wit_ControlCommandsTakeEffect_5_dumpRead : ∃ (c : Fin 12) (seq : Fin 16) (words : List (BitVec 32)) (a : _) (s : State), a = s.ask c seq words ∧ c.val < 8 ∧ s.accepts 0x62 a = true ∧ a.w 1 ≤ 2 ∧ (s.dumpEntry (a.w 1) = [] ∨ a.w 2 < (s.dumpEntry (a.w 1)).length) ∧ bitOf a.flags 4 = false :=
  ⟨2, 1, [0x62#32, 2#32, 0#32], ((cmdb.withFlt { cmdb.flt with flash := vset cmdb.flt.flash 1 { dump := some ⟨1, 1, [1#8, 2#8]⟩, unread := true } }).ask 2 1 [0x62#32, 2#32, 0#32]), cmdb.withFlt { cmdb.flt with flash := vset cmdb.flt.flash 1 { dump := some ⟨1, 1, [1#8, 2#8]⟩, unread := true } }, by decide +kernel⟩

/-- The hypotheses of clause 6 of `ControlCommandsTakeEffect` meet: SESSION_OPEN. -/
theorem wit_ControlCommandsTakeEffect_6_sessionOpen : ∃ (c : Fin 12) (seq : Fin 16) (words : List (BitVec 32)) (k : _) (a : _) (s : State), a = s.full c seq words ∧ 8 ≤ c.val ∧ words.length ≤ 16 ∧ s.accepts 0x70 a = true ∧ (s.closeParty (s.g (MBX_ASSIGN.PARTY c))).accepts 0x70 a = true ∧ a.w 1 ≤ 7 ∧ (a.w 2 = 2 ∨ a.w 2 = 3) ∧ onAbscissa (((List.range 8).map fun i => a.w (3 + i) * 2 ^ (32 * i)).sum) = true ∧ s.plan.keys.find? (fun k => k.id = a.w 1 ∧ k.party = s.g (MBX_ASSIGN.PARTY c)) = some k :=
  ⟨8, 1, [0x70#32, 1#32, 2#32, 0xd898c296#32, 0xf4a13945#32, 0x2deb33a0#32, 0x77037d81#32, 0x63a440f2#32, 0xf8bce6e5#32, 0xe12c4247#32, 0x6b17d1f2#32], ⟨1, 2, 7, 5, 6⟩, (((cmdb.p (MBX_ASSIGN.PARTY 8) 2).withPlan { Plan.empty with keys := [⟨1, 2, 7, 5, 6⟩] }).full 8 1 [0x70#32, 1#32, 2#32, 0xd898c296#32, 0xf4a13945#32, 0x2deb33a0#32, 0x77037d81#32, 0x63a440f2#32, 0xf8bce6e5#32, 0xe12c4247#32, 0x6b17d1f2#32]), (cmdb.p (MBX_ASSIGN.PARTY 8) 2).withPlan { Plan.empty with keys := [⟨1, 2, 7, 5, 6⟩] }, by decide +kernel⟩

/-- The hypotheses of clause 7 of `ControlCommandsTakeEffect` meet: SESSION_CLOSE. -/
theorem wit_ControlCommandsTakeEffect_7_sessionClose : ∃ (c : Fin 12) (seq : Fin 16) (words : List (BitVec 32)) (x : _) (a : _) (s : State), a = s.ask c seq words ∧ 8 ≤ c.val ∧ words.length = 16 ∧ s.dwezelRuns = true ∧ s.g (MBX_ASSIGN.PARTY c) ≠ 0 ∧ (s.mb c).held.length < 4 ∧ a.cmd = 0x71 ∧ s.session c = some x ∧ tagOf x.key words = words.drop 12 ∧ x.rx < a.w 11 ∧ (s.sessSet c (some { x with rx := a.w 11, fails := 0 })).accepts 0x71 { a with words := words.take 11, sess := some x.id } = true :=
  ⟨8, 1, ([0x71#32, 0#32, 0#32, 0#32, 0#32, 0#32, 0#32, 0#32, 0#32, 0#32, 0#32, 5#32] ++ tagOf [] [0x71#32, 0#32, 0#32, 0#32, 0#32, 0#32, 0#32, 0#32, 0#32, 0#32, 0#32, 5#32]), sess, (((cmdb.p (MBX_ASSIGN.PARTY 8) 2).sessSet 8 (some sess)).ask 8 1 ([0x71#32, 0#32, 0#32, 0#32, 0#32, 0#32, 0#32, 0#32, 0#32, 0#32, 0#32, 5#32] ++ tagOf [] [0x71#32, 0#32, 0#32, 0#32, 0#32, 0#32, 0#32, 0#32, 0#32, 0#32, 0#32, 5#32])), (cmdb.p (MBX_ASSIGN.PARTY 8) 2).sessSet 8 (some sess), rfl, by decide, by simp [tagOf_length], by decide +kernel, by decide +kernel, by decide +kernel, rfl, rfl, rfl, by decide, by decide +kernel⟩

/-- The hypotheses of clause 8 of `ControlCommandsTakeEffect` meet: PLAN_BEGIN. -/
theorem wit_ControlCommandsTakeEffect_8_planBegin : ∃ (c : Fin 12) (seq : Fin 16) (words : List (BitVec 32)) (a : _) (s : State), a = s.ask c seq words ∧ c.val < 8 ∧ s.accepts 0x80 a = true ∧ 320 ≤ a.w 1 ∧ a.w 1 ≤ 262144 ∧ a.w 1 % 8 = 0 ∧ (s.upload = 0 ∨ s.g PLN_STATUS.OWNER = s.partyOf a) ∧ s.pln.commit = 0 ∧ s.actBusy = false :=
  ⟨2, 1, [0x80#32, 320#32], ((cmdb).ask 2 1 [0x80#32, 320#32]), cmdb, by decide +kernel⟩

/-- The hypotheses of clause 9 of `ControlCommandsTakeEffect` meet: PLAN_CHUNK. -/
theorem wit_ControlCommandsTakeEffect_9_planChunk : ∃ (c : Fin 12) (seq : Fin 16) (words : List (BitVec 32)) (a : _) (s : State), a = s.ask c seq words ∧ c.val < 8 ∧ s.accepts 0x81 a = true ∧ bitOf a.flags 4 = false ∧ a.w 2 ≤ min (4 * (words.length - 3)) 52 ∧ s.uploadRefusal a true = none ∧ s.chunkOk (a.w 1) (a.w 2) = true :=
  ⟨2, 1, [0x81#32, 4#32, 4#32, 0x04030201#32], (((cmdb.fields [(PLN_STATUS.UPLOAD, 2), (PLN_STATUS.OWNER, 6)]).plnMod fun x => { x with len := 320, data := [1#8, 2#8, 3#8, 4#8] }).ask 2 1 [0x81#32, 4#32, 4#32, 0x04030201#32]), (cmdb.fields [(PLN_STATUS.UPLOAD, 2), (PLN_STATUS.OWNER, 6)]).plnMod fun x => { x with len := 320, data := [1#8, 2#8, 3#8, 4#8] }, by decide +kernel⟩

/-- The hypotheses of clause 10 of `ControlCommandsTakeEffect` meet: PLAN_CHUNK. -/
theorem wit_ControlCommandsTakeEffect_10_planChunk : ∃ (c : Fin 12) (seq : Fin 16) (words : List (BitVec 32)) (a : _) (s : State), a = s.ask c seq words ∧ c.val < 8 ∧ s.accepts 0x81 a = true ∧ bitOf a.flags 4 = true ∧ a.w 2 ≤ 512 ∧ 2 ≤ s.partyOf a ∧ s.partyOf a ≤ 5 ∧ s.uploadRefusal a true = none ∧ s.chunkOk (a.w 1) (a.w 2) = true :=
  ⟨2, 1, [0x100081#32, 4#32, 4#32], ((((cmdb.p (MBX_ASSIGN.PARTY 2) 2).fields [(PLN_STATUS.UPLOAD, 2), (PLN_STATUS.OWNER, 2)]).plnMod fun x => { x with len := 320, data := [1#8, 2#8, 3#8, 4#8] }).ask 2 1 [0x100081#32, 4#32, 4#32]), ((cmdb.p (MBX_ASSIGN.PARTY 2) 2).fields [(PLN_STATUS.UPLOAD, 2), (PLN_STATUS.OWNER, 2)]).plnMod fun x => { x with len := 320, data := [1#8, 2#8, 3#8, 4#8] }, by decide +kernel⟩

/-- The hypotheses of clause 11 of `ControlCommandsTakeEffect` meet: PLAN_COMMIT. -/
theorem wit_ControlCommandsTakeEffect_11_planCommit : ∃ (c : Fin 12) (seq : Fin 16) (words : List (BitVec 32)) (a : _) (s : State), a = s.ask c seq words ∧ c.val < 8 ∧ s.accepts 0x82 a = true ∧ s.uploadRefusal a true = none ∧ s.pln.data.length = s.pln.len ∧ s.actBusy = false ∧ s.pln.commit = 0 :=
  ⟨2, 1, [0x82#32], (((cmdb.fields [(PLN_STATUS.UPLOAD, 2), (PLN_STATUS.OWNER, 6)]).plnMod fun x => { x with len := 1, data := [1#8] }).ask 2 1 [0x82#32]), (cmdb.fields [(PLN_STATUS.UPLOAD, 2), (PLN_STATUS.OWNER, 6)]).plnMod fun x => { x with len := 1, data := [1#8] }, by decide +kernel⟩

/-- The hypotheses of clause 12 of `ControlCommandsTakeEffect` meet: PLAN_ACTIVATE. -/
theorem wit_ControlCommandsTakeEffect_12_planActivate : ∃ (c : Fin 12) (seq : Fin 16) (words : List (BitVec 32)) (reports : List (Nat × List (BitVec 8))) (d : _) (src : _) (a : _) (s : State), a = s.ask c seq words ∧ c.val < 8 ∧ s.accepts 0x83 a = true ∧ a.w 1 < 256 ∧ bitOf (a.w 1) 3 = false ∧ s.pln.commit = 0 ∧ s.actBusy = false ∧ s.sourceFile (bitOf (a.w 1) 0) = some (d, src) ∧ (bitOf (a.w 1) 2 = true → 1 < s.plan.members → s.on DRV_BARN.IS_LEAD = true ∧ s.barnAgrees reports = true) :=
  ⟨2, 1, [0x83#32, 1#32], [], [1#8], 4, (((cmdb.fields [(PLN_STATUS.UPLOAD, 2), (PLN_STATUS.OWNER, 6)]).plnMod fun x => { x with len := 1, data := [1#8] }).ask 2 1 [0x83#32, 1#32]), (cmdb.fields [(PLN_STATUS.UPLOAD, 2), (PLN_STATUS.OWNER, 6)]).plnMod fun x => { x with len := 1, data := [1#8] }, by decide +kernel⟩

/-- The hypotheses of clause 13 of `ControlCommandsTakeEffect` meet: REG_PEEK. -/
theorem wit_ControlCommandsTakeEffect_13_regPeek : ∃ (c : Fin 12) (seq : Fin 16) (words : List (BitVec 32)) (a : _) (s : State), a = s.ask c seq words ∧ c.val < 8 ∧ s.accepts 0x90 a = true ∧ 1 ≤ a.w 2 ∧ a.w 2 ≤ 9 ∧ a.w 1 % 4 = 0 ∧ ((List.range (a.w 2)).any fun i => secureAddr (a.w 1 + 4 * i)) = false :=
  ⟨2, 1, [0x90#32, 0x120000#32, 9#32], ((cmdb).ask 2 1 [0x90#32, 0x120000#32, 9#32]), cmdb, by decide +kernel⟩

/-- The hypotheses of clause 14 of `ControlCommandsTakeEffect` meet: REG_PEEK. -/
theorem wit_ControlCommandsTakeEffect_14_regPeek : ∃ (c : Fin 12) (seq : Fin 16) (words : List (BitVec 32)) (a : _) (got : _) (v : _) (s : State), a = s.ask c seq words ∧ c.val < 8 ∧ s.accepts 0x90 a = true ∧ 1 ≤ a.w 2 ∧ a.w 2 ≤ 9 ∧ a.w 1 % 4 = 0 ∧ ((List.range (a.w 2)).any fun i => secureAddr (a.w 1 + 4 * i)) = false ∧ s.stalls 1 = false ∧ State.runAccs 1 (readsFrom (a.w 1) (a.w 2)) [] (s.noted a) = ([], got, v) :=
  ⟨2, 1, [0x90#32, 0x120000#32, 1#32], (cmdb.ask 2 1 [0x90#32, 0x120000#32, 1#32]), (State.runAccs 1 (readsFrom 0x120000 1) [] (cmdb.noted (cmdb.ask 2 1 [0x90#32, 0x120000#32, 1#32]))).2.1, (State.runAccs 1 (readsFrom 0x120000 1) [] (cmdb.noted (cmdb.ask 2 1 [0x90#32, 0x120000#32, 1#32]))).2.2, cmdb, by decide +kernel⟩

/-- The hypotheses of clause 15 of `ControlCommandsTakeEffect` meet: REG_POKE. -/
theorem wit_ControlCommandsTakeEffect_15_regPoke : ∃ (c : Fin 12) (seq : Fin 16) (words : List (BitVec 32)) (a : _) (s : State), a = s.ask c seq words ∧ c.val < 8 ∧ s.accepts 0x91 a = true ∧ a.w 1 % 4 = 0 ∧ secureAddr (a.w 1) = false ∧ excludedBlock (a.w 1) = false :=
  ⟨2, 1, [0x91#32, 0x20000#32, 1#32, 1#32], ((cmdb).ask 2 1 [0x91#32, 0x20000#32, 1#32, 1#32]), cmdb, by decide +kernel⟩

/-- The hypotheses of clause 16 of `ControlCommandsTakeEffect` meet: REG_POKE. -/
theorem wit_ControlCommandsTakeEffect_16_regPoke : ∃ (c : Fin 12) (seq : Fin 16) (words : List (BitVec 32)) (a : _) (got : _) (v : _) (got2 : _) (v2 : _) (s : State), a = s.ask c seq words ∧ c.val < 8 ∧ s.accepts 0x91 a = true ∧ a.w 1 % 4 = 0 ∧ secureAddr (a.w 1) = false ∧ excludedBlock (a.w 1) = false ∧ s.stalls 1 = false ∧ State.runAccs 1 [(a.w 1, none)] [] (s.noted a) = ([], got, v) ∧ State.runAccs 1 [(a.w 1, some (((gotWords got).headD 0 &&& ~~~(w32 (a.w 2))) ||| (w32 (a.w 3) &&& w32 (a.w 2)))), (a.w 1, none)] [] v.noWait = ([], got2, v2) :=
  ⟨2, 1, [0x91#32, 0x20000#32, 1#32, 1#32], (cmdb.ask 2 1 [0x91#32, 0x20000#32, 1#32, 1#32]), (State.runAccs 1 [(0x20000, none)] [] (cmdb.noted (cmdb.ask 2 1 [0x91#32, 0x20000#32, 1#32, 1#32]))).2.1, (State.runAccs 1 [(0x20000, none)] [] (cmdb.noted (cmdb.ask 2 1 [0x91#32, 0x20000#32, 1#32, 1#32]))).2.2, (State.runAccs 1 [(0x20000, some (((State.runAccs 1 [(0x20000, none)] [] (cmdb.noted (cmdb.ask 2 1 [0x91#32, 0x20000#32, 1#32, 1#32]))).2.1.headD none).getD 0 &&& ~~~(w32 1) ||| (w32 1 &&& w32 1))), (0x20000, none)] [] (State.runAccs 1 [(0x20000, none)] [] (cmdb.noted (cmdb.ask 2 1 [0x91#32, 0x20000#32, 1#32, 1#32]))).2.2.noWait).2.1, (State.runAccs 1 [(0x20000, some (((State.runAccs 1 [(0x20000, none)] [] (cmdb.noted (cmdb.ask 2 1 [0x91#32, 0x20000#32, 1#32, 1#32]))).2.1.headD none).getD 0 &&& ~~~(w32 1) ||| (w32 1 &&& w32 1))), (0x20000, none)] [] (State.runAccs 1 [(0x20000, none)] [] (cmdb.noted (cmdb.ask 2 1 [0x91#32, 0x20000#32, 1#32, 1#32]))).2.2.noWait).2.2, cmdb, by decide +kernel⟩

/-- The hypotheses of clause 17 of `ControlCommandsTakeEffect` meet: TIMELINE_ADD. -/
theorem wit_ControlCommandsTakeEffect_17_timelineAdd : ∃ (c : Fin 12) (seq : Fin 16) (words : List (BitVec 32)) (i : _) (a : _) (s : State), a = s.ask c seq words ∧ c.val < 8 ∧ s.accepts 0xA0 a = true ∧ getBits (w32 (a.w 1)) TML_E_CTRL.ACTION.lo TML_E_CTRL.ACTION.width ∈ [1, 2, 3, 4, 5, 6, 7, 8, 9] ∧ getBits (w32 (a.w 1)) TML_E_CTRL.YARD.lo TML_E_CTRL.YARD.width ≤ 4 ∧ tmlTargetOk (getBits (w32 (a.w 1)) TML_E_CTRL.ACTION.lo TML_E_CTRL.ACTION.width) (getBits (w32 (a.w 1)) TML_E_CTRL.TARGET.lo TML_E_CTRL.TARGET.width) = true ∧ a.w 2 % 32768 < 25000 ∧ a.w 4 < 2 ^ 24 ∧ a.w 5 < 2 ^ 16 ∧ s.freeEntry = some i :=
  ⟨2, 1, [0xA0#32, 0x20100#32, 24999#32, 0#32, 0#32, 0#32], 255, ((cmdb).ask 2 1 [0xA0#32, 0x20100#32, 24999#32, 0#32, 0#32, 0#32]), cmdb, by decide +kernel⟩

/-- The hypotheses of clause 18 of `ControlCommandsTakeEffect` meet: TIMELINE_DEL. -/
theorem wit_ControlCommandsTakeEffect_18_timelineDel : ∃ (c : Fin 12) (seq : Fin 16) (words : List (BitVec 32)) (a : _) (s : State), a = s.ask c seq words ∧ c.val < 8 ∧ s.accepts 0xA1 a = true ∧ a.w 1 ≤ 255 ∧ s.g TML_STATUS.PLAN_TOP ≤ a.w 1 ∧ ((s.entry (a.w 1)).valid = true → (s.entry (a.w 1)).own = false) :=
  ⟨2, 1, [0xA1#32, 255#32], ((cmdb).ask 2 1 [0xA1#32, 255#32]), cmdb, by decide +kernel⟩

end Sys2Proof.Tests
end

/-!
# The ticks of the yards (R6)

One rule for each operation on the way to a yard: it keeps every yard's tick in range. An operation that leaves the yards alone has
its rule from its frame (`Fr.ticks`). The proof of a rule names, from the last to the first, the rules of the operations that the
definition runs.
-/
namespace Sys2Proof.Machine

/-- The tick of every yard is in range (R6): `TicksOk` as a proposition of its own, which unfolds only where a rule says so. -/
structure State.Ticks (s : State) : Prop where
  ok : s.TicksOk

/-- What leaves the yards as they are keeps their ticks in range. -/
theorem Fr.ticks {m b : Nat} {s t : State} (h : Fr m b s t) (hm : m.testBit 2 = false) (hs : s.Ticks) : t.Ticks :=
  ⟨by simpa [State.TicksOk, show t.yards = s.yards from h.part .yards hm] using hs.ok⟩

/-- Reading a table after a write of one place. -/
theorem vat_vset {α : Type} [Inhabited α] {n : Nat} (v : Vector α n) (i j : Nat) (x : α) :
    vat (vset v i x) j = if i = j ∧ i < n then x else vat v j := by
  simp only [vat, vset, List.getD, Vector.getElem?_toList, Vector.getElem?_setIfInBounds]
  split <;> split <;> simp_all

/-- A yard that advances carries into its interval count at 25,000. -/
theorem Yard.advance_tick_lt (v : Yard) (k : Nat) (rate : Int) : (v.advance k rate).tick < 25000 := Nat.mod_lt _ (by decide)

namespace State.Ticks
variable {s t : State}

/-! ## Changes of the state's parts -/

theorem p {f : Fld} {v : Nat} (h : s.Ticks) : (s.p f v).Ticks := ⟨h.ok⟩
theorem hw {f : Fld} (h : s.Ticks) : (s.hw f).Ticks := ⟨h.ok⟩
theorem inc {f : Fld} {n : Nat} (h : s.Ticks) : (s.inc f n).Ticks := ⟨h.ok⟩
theorem incSat {f : Fld} {n : Nat} (h : s.Ticks) : (s.incSat f n).Ticks := ⟨h.ok⟩
theorem setWord {a : Nat} {w : Word} (h : s.Ticks) : (s.setWord a w).Ticks := ⟨h.ok⟩
theorem keepRegs {f : Nat × Word → Bool} (h : s.Ticks) : (s.keepRegs f).Ticks := ⟨h.ok⟩
theorem mark {k : Mark} (h : s.Ticks) : (s.mark k).Ticks := ⟨h.ok⟩
theorem unmark {k : Mark} (h : s.Ticks) : (s.unmark k).Ticks := ⟨h.ok⟩
theorem out {o : Out} (h : s.Ticks) : (s.out o).Ticks := ⟨h.ok⟩
theorem withPlan {x} (h : s.Ticks) : (s.withPlan x).Ticks := ⟨h.ok⟩
theorem withPdc {x} (h : s.Ticks) : (s.withPdc x).Ticks := ⟨h.ok⟩
theorem withChan {x} (h : s.Ticks) : (s.withChan x).Ticks := ⟨h.ok⟩
theorem withSs {x} (h : s.Ticks) : (s.withSs x).Ticks := ⟨h.ok⟩
theorem withBoot {x} (h : s.Ticks) : (s.withBoot x).Ticks := ⟨h.ok⟩
theorem withTt {x} (h : s.Ticks) : (s.withTt x).Ticks := ⟨h.ok⟩
theorem withGlk {x} (h : s.Ticks) : (s.withGlk x).Ticks := ⟨h.ok⟩
theorem withMirror {x} (h : s.Ticks) : (s.withMirror x).Ticks := ⟨h.ok⟩
theorem withHolders {x} (h : s.Ticks) : (s.withHolders x).Ticks := ⟨h.ok⟩
theorem withFlt {x} (h : s.Ticks) : (s.withFlt x).Ticks := ⟨h.ok⟩
theorem withPass {x} (h : s.Ticks) : (s.withPass x).Ticks := ⟨h.ok⟩
theorem withSbTimedOut {x} (h : s.Ticks) : (s.withSbTimedOut x).Ticks := ⟨h.ok⟩

/-! ## Runs and choices of operations -/

theorem fields {l : List (Fld × Nat)} (h : s.Ticks) : (s.fields l).Ticks := foldl_keeps (fun _ _ h => h.p) l s h

theorem clr {l : List Fld} (h : s.Ticks) : (s.clr l).Ticks := foldl_keeps (fun _ _ h => h.p) l s h

theorem when {c : Bool} {f : State → State} (hf : ∀ t : State, t.Ticks → (f t).Ticks) (h : s.Ticks) : (s.when c f).Ticks := by
  cases c
  · exact h
  · exact hf s h

theorem each {l : List Nat} {f : Nat → State → State} (hf : ∀ n (t : State), t.Ticks → (f n t).Ticks) (h : s.Ticks) :
    (s.each l f).Ticks := each_keeps hf l s h

theorem foldl {α : Type} {l : List α} {f : State → α → State} (hf : ∀ (t : State) a, t.Ticks → (f t a).Ticks) (h : s.Ticks) :
    (l.foldl f s).Ticks := foldl_keeps hf l s h

theorem ite {c : Prop} [Decidable c] (hs : s.Ticks) (ht : t.Ticks) : (if c then s else t).Ticks := by split <;> assumption

theorem iteSnd {α : Type} {c : Prop} [Decidable c] {x y : α × State} (hx : x.2.Ticks) (hy : y.2.Ticks) :
    (if c then x else y).2.Ticks := by split <;> assumption

/-! ## Yards -/

theorem yardMod {y : Nat} {f : Yard → Yard} (hf : ∀ v, v.tick < 25000 → (f v).tick < 25000) (h : s.Ticks) : (s.yardMod y f).Ticks where
  ok z hz := by
    have hz := h.ok z hz
    simp only [State.yardMod, State.withYards, vmod, vat_vset]
    split
    next e => rw [e.1]; exact hf _ hz
    next => exact hz

/-- A yard begins anew at 0:0. -/
theorem withYard_new {y : Nat} (h : s.Ticks) : (s.withYards (vset s.yards y {})).Ticks :=
  yardMod (f := fun _ => {}) (fun _ _ => by decide) h

/-- Putting a yard at a number of ticks carries at 25,000, whatever the number. -/
theorem yardSet {y k : Nat} (h : s.Ticks) : (s.yardSet y k).Ticks := yardMod (fun _ _ => Nat.mod_lt _ (by decide)) h

theorem yardStep {y new st : Nat} (h : s.Ticks) : (s.yardStep y new st).Ticks :=
  (State.record_fr ..).ticks rfl <| each (fun _ _ h => (State.patIdle_fr ..).ticks rfl h) <| (State.rebase_fr ..).ticks rfl <|
    p <| hw <| p <| mark <| yardMod (fun _ h => h) <| yardSet h

theorem yardLock {y : Nat} (h : s.Ticks) : (s.yardLock y).Ticks := (State.tmlMap_fr ..).ticks rfl <| yardMod (fun _ h => h) <|
  p <| p h

theorem takeRef {y num off ref : Nat} {rate : Int} (h : s.Ticks) : (s.takeRef y num off ref rate).Ticks :=
  ite h <| ite (yardMod (fun _ h => h) <| p <| yardStep <| p h) <| ite (yardMod (fun _ h => h) <| yardStep <| p <| p h) <|
    ite (yardMod (fun _ h => h) <| p <| p <| p h) <| when (fun _ h => yardLock h) <| yardMod (fun _ h => h) <| yardSet <|
      p <| p <| p h

theorem sofReceived {u : Fin 2} {frame : Fin 2048} {rate : Int} (h : s.Ticks) : (s.sofReceived u frame rate).Ticks := by
  unfold State.sofReceived
  split
  · exact h
  · exact when (fun _ h => takeRef h) <| yardMod (fun _ h => h) h

theorem itpReceived {u : Fin 2} {bic : Fin 16384} {delta : Nat} {res : List ItpOut} {rate : Int} (h : s.Ticks) :
    (s.itpReceived u bic delta res rate).Ticks := by
  unfold State.itpReceived
  refine ite h ?_
  split
  · exact h
  · exact when (fun _ h => each (fun _ _ h => (State.ctrlTo_fr ..).ticks rfl h) <| (State.itpForward_fr ..).ticks rfl h) <| p <|
      when (fun _ h => takeRef h) h

theorem yardCoast {y : Nat} (h : s.Ticks) : (s.yardCoast y).Ticks :=
  ite (when (fun _ h => (State.yardCoarse_fr ..).ticks rfl h) <| yardMod (fun _ h => h) <| p <| hw <| p h) h

theorem forceCoast (h : s.Ticks) : s.forceCoast.Ticks := each (fun _ _ h => yardCoast h) h

theorem yardsCrystal (h : s.Ticks) : s.yardsCrystal.Ticks := yardMod (fun _ h => h) <| p <| p <| withFlt h

theorem snapYards (h : s.Ticks) : s.snapYards.Ticks := each (fun _ _ h => p <| yardMod (fun _ h => h) h) h

theorem yardNowRead {y : Nat} (h : s.Ticks) : (s.yardNowRead y).2.Ticks := by
  unfold State.yardNowRead
  split
  · exact yardMod (fun _ h => h) h
  · exact p h

theorem yardsTick (h : s.Ticks) : s.yardsTick.Ticks :=
  each (fun _ _ h => ite h <| ite (yardMod (fun v _ => v.advance_tick_lt _ _) h) (yardMod (fun v _ => v.advance_tick_lt _ _) h)) h

theorem barnTimeReceived {bh : BaleHdr} {value hops : Nat} {rate : Int} (h : s.Ticks) : (s.barnTimeReceived bh value hops rate).Ticks :=
  have hr : (s.rxCtrlBale bh).Ticks := (State.rxCtrlBale_fr ..).ticks rfl h
  ite h <| ite ((State.discardBale_fr ..).ticks rfl h) <| ite hr <| each (fun _ _ h => (State.ctrlOn_fr ..).ticks rfl h) <|
    (State.nextCseq_fr ..).ticks rfl <| yardMod (fun _ h => h) <| p <|
      ite (yardMod (fun _ h => h) <| p <| p <| p hr) (yardStep <| p <| p hr)

theorem copyUnbound {y : Nat} (h : s.Ticks) : (s.copyUnbound y).Ticks := yardMod (fun _ h => h) <| fields <| yardSet h

/-! ## The barn -/

theorem rxCtrl {c : CtrlHdr} {name : String} {l : List Nat} {f : State → State} (hf : ∀ t : State, t.Ticks → (f t).Ticks)
    (h : s.Ticks) : (s.rxCtrl c name l f).Ticks :=
  have hc : (s.ctrlCell c.hdr).2.Ticks := (State.ctrlCell_fr ..).ticks rfl h
  have hr : (s.rxCtrlBale c.hdr).Ticks := (State.rxCtrlBale_fr ..).ticks rfl h
  ite h <| ite ((State.discardBale_fr ..).ticks rfl h) <|
    ite (ite ((State.freeCtrl_fr ..).ticks rfl hc) <| hf _ <| (State.forwardCtrl_fr ..).ticks rfl <|
      (State.noteSeen_fr ..).ticks rfl hc) <|
    ite ((State.forwardCtrl_fr ..).ticks rfl hc) <| ite hr <| hf _ <| (State.noteSeen_fr ..).ticks rfl hr

theorem yardDescriptorReceived {c : CtrlHdr} {y : Fin 4} {value rate : Nat} {st : Fin 4} {coarse : Bool} (h : s.Ticks) :
    (s.yardDescriptorReceived c y value rate st coarse).Ticks :=
  rxCtrl (fun _ h => ite h <| ite (copyUnbound h) <| when (fun _ h => (State.runHeld_fr ..).ticks rfl h) <| fields <|
    yardMod (fun _ h => h) <|
    when (fun _ h => yardLock h) <| ite (yardStep h) (p <| yardSet h)) h

theorem setLead {m : Nat} {first : Bool} (h : s.Ticks) : (s.setLead m first).Ticks := by
  unfold State.setLead
  refine (State.reportCommitted_fr ..).ticks rfl <| (State.helloAll_fr ..).ticks rfl <| ite ?_ <|
    (State.memberRecord_fr ..).ticks rfl <| hw ?_
  all_goals exact when (fun _ h => fields h) <| yardMod (fun _ h => h) <| (State.fabMod_fr ..).ticks rfl <| p <| p <| p h

theorem memberLost {m : Nat} (h : s.Ticks) : (s.memberLost m).Ticks := by
  unfold State.memberLost
  dsimp only
  refine ite ?_ ?_
  · split
    · refine when (fun _ h => (State.pushTables_fr ..).ticks rfl h) <| setLead <| (State.abandonHandoffs_fr ..).ticks rfl <|
        (State.forceLocks_fr ..).ticks rfl ?_
      exact (State.raise_fr ..).ticks rfl <| when (fun _ h => hw h) <| withMirror <| (State.closeFlows_fr ..).ticks rfl h
    · refine (State.abandonHandoffs_fr ..).ticks rfl <| (State.forceLocks_fr ..).ticks rfl ?_
      exact (State.raise_fr ..).ticks rfl <| when (fun _ h => hw h) <| withMirror <| (State.closeFlows_fr ..).ticks rfl h
  · exact (State.raise_fr ..).ticks rfl <| when (fun _ h => hw h) <| withMirror <| (State.closeFlows_fr ..).ticks rfl h

theorem settleLost (h : s.Ticks) : s.settleLost.Ticks := each (fun _ _ h => memberLost h) <| (State.fabMod_fr ..).ticks rfl h

theorem linkFail {k : Nat} (h : s.Ticks) : (s.linkFail k).Ticks :=
  when (fun _ h => (State.pushTables_fr ..).ticks rfl h) <| settleLost <| (State.raise_fr ..).ticks rfl <|
    (State.linkLost_fr ..).ticks rfl <|
    incSat <| hw <| p <| (State.glkState_fr ..).ticks rfl h

theorem retrain {k : Nat} (h : s.Ticks) : (s.retrain k).Ticks :=
  when (fun _ h => settleLost <| (State.lkMod_fr ..).ticks rfl <| (State.linkLost_fr ..).ticks rfl <| p <|
    (State.attempt_fr ..).ticks rfl <|
    (State.linkBale_fr ..).ticks rfl h) h

theorem replayDue {k i : Nat} (h : s.Ticks) : (s.replayDue k i).Ticks := ite (linkFail h) ((State.replayFrom_fr ..).ticks rfl h)

theorem isolate {k cause : Nat} (h : s.Ticks) : (s.isolate k cause).Ticks :=
  settleLost <| (State.raise_fr ..).ticks rfl <| p <| when (fun _ h => (State.linkLost_fr ..).ticks rfl h) <| hw <|
    (State.glkState_fr ..).ticks rfl <| p h

theorem isolateClash (h : s.Ticks) : s.isolateClash.Ticks := each (fun _ _ h => isolate h) h

theorem joinLate {lead : Nat} (h : s.Ticks) : (s.joinLate lead).Ticks :=
  ite h <| (State.setStep_fr ..).ticks rfl <| setLead <| (State.fabMod_fr ..).ticks rfl h

theorem confirmClaims (h : s.Ticks) : s.confirmClaims.Ticks := isolateClash <| (State.fabMod_fr ..).ticks rfl h

/-! ## Accesses -/

theorem readReg {m a : Nat} (h : s.Ticks) : (s.readReg m a).2.Ticks := by
  unfold State.readReg
  split
  · exact h
  · exact iteSnd (iteSnd (yardNowRead h) h) <| iteSnd ((State.queueRead_fr ..).ticks rfl h) <|
      iteSnd ((State.tlmMod_fr ..).ticks rfl h) <|
      iteSnd h <| iteSnd (iteSnd h ((State.lockRead_fr ..).ticks rfl h)) <|
      iteSnd (iteSnd h ((State.mbxRefuse_fr ..).ticks rfl h)) h

theorem writeReg {m a : Nat} {w : Word} (h : s.Ticks) : (s.writeReg m a w).Ticks := by
  unfold State.writeReg
  split
  · exact h
  next r _ =>
    have hw : (s.putReg r a w).Ticks := (State.putReg_fr ..).ticks rfl h
    exact ite ((State.mbxWrite_fr ..).ticks rfl h) <| ite (when (fun _ h => snapYards h) <| forceCoast hw) <|
      ite (when (fun _ h => (State.tmlOn_fr ..).ticks rfl h) hw) <| ite ((State.tmlCommand_fr ..).ticks rfl hw) <|
      ite (ite h hw) <|
      ite (clr h) <| ite (clr h) <| ite (clr h) <| ite (clr h) <| ite ((State.setBankLow_fr ..).ticks rfl hw) <|
      ite ((State.setLimit_fr ..).ticks rfl hw) <| ite (each (fun _ _ h => (State.linkJudge_fr ..).ticks rfl h) hw) <|
      ite (p h) <|
      ite (clr h) <| ite (clr h) <| ite (clr h) <| ite (when (fun _ h => (State.ttCommand_fr ..).ticks rfl <| p h) h) <|
      ite (each (fun _ _ h => retrain h) <| when (fun _ h => (State.trainLinks_fr ..).ticks rfl h) hw) <| ite (clr h) <|
      ite (each (fun _ _ h => (State.ringBell_fr ..).ticks rfl h) hw) <| ite (clr h) <| (State.writeChipReg_fr ..).ticks rfl h

theorem perform {m a : Nat} {d : Option Word} (h : s.Ticks) : (s.perform m a d).after.Ticks := by
  cases d with
  | none => exact readReg h
  | some _ => exact writeReg h

theorem oneAccess {m a : Nat} {d : Option Word} (h : s.Ticks) : (s.oneAccess m a d).after.Ticks := by
  unfold State.oneAccess
  split
  next e =>
    have ht := (State.gateStall_fr e).ticks rfl h
    split
    · exact perform ht
    · exact ht
  next e =>
    have ht := (State.gateFail_fr e).ticks rfl h
    dsimp only [AccOut.after]
    split
    · exact ite ((State.pdcCtrlWrite_fr ..).ticks rfl ht) ht
    · exact ht
  next => exact perform h

theorem runAccs {m : Nat} : ∀ {l : List (Nat × Option Word)} {got : List (Option Word)} {s : State}, s.Ticks →
    (State.runAccs m l got s).2.2.Ticks
  | [], _, _, h => h
  | (a, d) :: l, got, s, h => by
    have ht : (s.oneAccess m a d).after.Ticks := oneAccess h
    unfold State.runAccs
    split
    next e => simpa [e, AccOut.after] using ht
    next e => exact runAccs (by simpa [e, AccOut.after] using ht)

theorem finishXfer {x : StalledAcc} {got : List (Option Word)} (h : s.Ticks) : (s.finishXfer x got).Ticks := by
  unfold State.finishXfer
  split
  case h_1 => exact when (fun _ h => out h) h
  case h_2 => exact (State.tackData_fr ..).ticks rfl h
  case h_3 | h_4 => exact out h
  case h_5 => exact (State.reply_fr ..).ticks rfl <| (State.noWait_fr ..).ticks rfl h
  case h_6 => exact (State.reply_fr ..).ticks rfl <| (State.noWait_fr ..).ticks rfl <| runAccs <| (State.noWait_fr ..).ticks rfl h

theorem runXfer {x : StalledAcc} (h : s.Ticks) : (s.runXfer x).Ticks := by
  unfold State.runXfer
  split
  next e =>
    split at e
    · exact (State.pushStall_fr ..).ticks rfl <| (State.firstStall_fr e).ticks rfl h
    · cases e
  next => exact ite (finishXfer <| runAccs h) <| (State.pushStall_fr ..).ticks rfl <| runAccs h

theorem startXfer {x : StalledAcc} (h : s.Ticks) : (s.startXfer x).Ticks := ite ((State.pushStall_fr ..).ticks rfl h) (runXfer h)

theorem accessNow {m a : Nat} {d : Option Word} (h : s.Ticks) : (s.accessNow m a d).Ticks := startXfer h

theorem accessOne {m a : Nat} {d : Option Word} (h : s.Ticks) : (s.accessOne m a d).Ticks :=
  ite (out h) <| ite (accessNow <| when (fun _ h => (State.holdAccess_fr ..).ticks rfl h) h) (accessNow h)

theorem lowerFirst {m a : Nat} (h : s.Ticks) : (s.lowerFirst m a).Ticks := by
  refine each (fun k t ht => ?_) h
  refine foldl_keeps (P := fun x : List Mark × State => x.2.Ticks) (fun x c hx => ?_) t.pending (t.marks, t) ht
  split
  · exact iteSnd (iteSnd hx (mark <| accessOne hx)) hx
  · exact hx

theorem access {m a : Nat} {d : Option Word} (h : s.Ticks) : (s.access m a d).Ticks := ite (unmark h) (accessOne <| lowerFirst h)

theorem retryStall {x : StalledAcc} (h : s.Ticks) : (s.retryStall x).Ticks :=
  ite ((State.pushStall_fr ..).ticks rfl h) (runXfer h)

theorem runStalls (h : s.Ticks) : s.runStalls.Ticks := foldl (fun _ _ h => retryStall h) <| withPdc h

/-! ## Plans, modes and resets -/

theorem setYards {old : Plan} (h : s.Ticks) : (s.setYards old).Ticks :=
  each (fun _ _ h => ite (yardMod (fun _ h => h) h) <| setWord <| withYard_new h) h

theorem preload (h : s.Ticks) : s.preload.Ticks := foldl (fun _ _ h => writeReg h) h

theorem applyPlan {q : Plan} {src : Nat} (h : s.Ticks) : (s.applyPlan q src).Ticks :=
  (State.storeDescs_fr ..).ticks rfl <| (State.setPool_fr ..).ticks rfl <| (State.refTimeline_fr ..).ticks rfl <| preload <|
    (State.enableBlocks_fr ..).ticks rfl <| (State.loadTimeline_fr ..).ticks rfl <| (State.setPredictor_fr ..).ticks rfl <|
    setYards <|
    each (fun _ _ h => p h) <| withGlk <| (State.freeQueues_fr ..).ticks rfl <| (State.setMirror_fr ..).ticks rfl <|
    (State.setCarries_fr ..).ticks rfl <| (State.setEngines_fr ..).ticks rfl <| (State.setContexts_fr ..).ticks rfl <|
    (State.setPaddocks_fr ..).ticks rfl <| (State.setSeed_fr ..).ticks rfl <| (State.setGpios_fr ..).ticks rfl <|
    (State.setMailboxes_fr ..).ticks rfl <| (State.setFaults_fr ..).ticks rfl <| (State.setDomains_fr ..).ticks rfl <|
    (State.setPower_fr ..).ticks rfl <| (State.setStalls_fr ..).ticks rfl <| withTt <| withHolders <|
    (State.planRegs_fr ..).ticks rfl <|
    (State.takeNumber_fr ..).ticks rfl <| withBoot <| withPlan h

theorem beginBarn (h : s.Ticks) : s.beginBarn.Ticks :=
  ite h <| ite (p <| p <| setLead <| (State.fabMod_fr ..).ticks rfl h) <|
    ite ((State.maybeFlood_fr ..).ticks rfl <| (State.trainLinks_fr ..).ticks rfl <| (State.setStep_fr ..).ticks rfl <| p h)
      ((State.setStep_fr ..).ticks rfl <| p h)

theorem enterService {cause : Nat} (h : s.Ticks) : (s.enterService cause).Ticks :=
  have hm : (s.setMode 3 cause).Ticks := (State.setMode_fr ..).ticks rfl h
  beginBarn <| each (fun _ _ h => (State.tryRamp_fr ..).ticks rfl h) <| (State.takeRoles_fr ..).ticks rfl <|
    ite ((State.toUnattached_fr ..).ticks rfl hm) ((State.errorRecovery_fr ..).ticks rfl hm)

theorem activatePlan {q : Plan} {src : Nat} (h : s.Ticks) : (s.activatePlan q src).Ticks :=
  (State.planRecord_fr ..).ticks rfl <| applyPlan h

/-- A chip-wide reset puts every yard at 0:0. -/
theorem cleared (s : State) (por grave : Bool) : (s.cleared por grave).Ticks := ⟨show State.reset.TicksOk by decide +kernel⟩

theorem wiped (s : State) (por : Bool) : (s.wiped por).Ticks :=
  when (fun _ h => hw h) <| when (fun _ h => p h) <| when (fun _ h => each (fun _ _ h => p h) h) <| p <|
    (State.yardStart_fr ..).ticks rfl <| p <| cleared ..

theorem chipWide (s : State) : s.chipWide.Ticks :=
  (State.dischAll_fr ..).ticks rfl <|
    when (fun _ h => (State.setLimit_fr ..).ticks rfl <| (State.setEfuse_fr ..).ticks rfl <| setWord <| withChan h) <|
    (State.bootMod_fr ..).ticks rfl <| wiped ..

theorem endPlan {same : Bool} (h : s.Ticks) : (s.endPlan same).Ticks := by
  unfold State.endPlan
  split
  next a _ =>
    have ha : (s.plnMod fun x => { x with act := none }).Ticks := (State.plnMod_fr ..).ticks rfl h
    refine ite (enterService <| (State.discardUpload_fr ..).ticks rfl <| activatePlan <| (State.plnMod_fr ..).ticks rfl ha) <|
      ite (enterService <| applyPlan ?_) ((State.enterFetch_fr ..).ticks rfl <| (State.setMode_fr ..).ticks rfl ?_)
    all_goals exact (State.discardUpload_fr ..).ticks rfl <| (State.reject_fr ..).ticks rfl ha
  next => exact enterService <| (State.discardUpload_fr ..).ticks rfl <| ite (activatePlan h) ((State.reject_fr ..).ticks rfl h)

theorem enterLifeline (h : s.Ticks) : s.enterLifeline.Ticks :=
  each (fun _ _ h => (State.tryRamp_fr ..).ticks rfl h) <| when (fun _ h => beginBarn h) <| (State.takeRoles_fr ..).ticks rfl <|
    (State.toUnattached_fr ..).ticks rfl <| (State.setMode_fr ..).ticks rfl h

/-! ## Domains and the crystal -/

theorem exitDone {d : Nat} (h : s.Ticks) : (s.exitDone d).Ticks := by
  unfold State.exitDone
  exact when (fun _ h => (State.beginEntry_fr ..).ticks rfl h) <|
    when (fun _ h => each (fun _ _ h => (State.wakeUp_fr ..).ticks rfl h) h) <|
    when (fun _ h => each (fun _ _ h => (State.tryRamp_fr ..).ticks rfl h) h) <|
    when (fun _ h => (State.retryLinks_fr ..).ticks rfl h) <|
    when (fun _ h => (State.maybeFlood_fr ..).ticks rfl <| (State.trainLinks_fr ..).ticks rfl <|
      (State.setStep_fr ..).ticks rfl h) <|
    when (fun _ h => (State.scanInbound_fr ..).ticks rfl h) <| runStalls <| (State.domRecord_fr ..).ticks rfl <|
    when (fun _ h => (State.pmu_fr ..).ticks rfl <| inc h) <| p <| p <| (State.domMod_fr ..).ticks rfl <|
      (State.wakesDone_fr ..).ticks rfl h

theorem crystalUp (h : s.Ticks) : s.crystalUp.Ticks := each (fun _ _ h => (State.exitStart_fr ..).ticks rfl h) <|
  yardsCrystal <| p h

theorem exitFail {d : Nat} (h : s.Ticks) : (s.exitFail d).Ticks := by
  unfold State.exitFail
  refine ite ((State.domStep_fr ..).ticks rfl ?_) <| runStalls <| (State.raise_fr ..).ticks rfl <|
    (State.domRecord_fr ..).ticks rfl <|
    (State.domReach_fr ..).ticks rfl <| hw <| p <| (State.domStep_fr ..).ticks rfl <|
    when (fun _ h => (State.loseDomain_fr ..).ticks rfl h) ?_
  all_goals exact when (fun _ h => keepRegs h) <| p h

/-! ## The tack room and the sidebands -/

theorem tackReq {slot : Nat} {ok : Bool} {f : Nat → State → State} (hf : ∀ n (t : State), t.Ticks → (f n t).Ticks) (h : s.Ticks) :
    (s.tackReq slot ok f).Ticks := by
  unfold State.tackReq
  split
  · exact h
  · exact ite (hf _ _ <| (State.newRequest_fr ..).ticks rfl h) (out <| (State.newRequest_fr ..).ticks rfl h)

theorem tackXfer {slot : Nat} {kind : XferKind} {l : List (Nat × Option Word)} (h : s.Ticks) : (s.tackXfer slot kind l).Ticks :=
  when (fun _ h => out h) <| startXfer <| lowerFirst h

theorem sendNow {slot c : Nat} {l : List Word} (h : s.Ticks) : (s.sendNow slot c l).Ticks := tackXfer <| unmark h

theorem mbxSendReq {slot : Fin 4} {v i n : BitVec 16} {ctrl : BitVec 32} {ws : List (BitVec 32)} (h : s.Ticks) :
    (s.mbxSendReq slot v i n ctrl ws).Ticks :=
  tackReq (fun _ _ h => ite (out <| (State.tackMod_fr ..).ticks rfl <| (State.tackTake_fr ..).ticks rfl h)
    (sendNow <| (State.tackTake_fr ..).ticks rfl h)) h

theorem mbxSendComplete {slot : Fin 4} (h : s.Ticks) : (s.mbxSendComplete slot).Ticks := by
  unfold State.mbxSendComplete
  dsimp only
  split
  · exact h
  · exact ite h <| sendNow <| (State.tackMod_fr ..).ticks rfl h

theorem mbxAck {slot : Fin 4} {v i n : BitVec 16} (h : s.Ticks) : (s.mbxAck slot v i n).Ticks :=
  tackReq (fun _ _ h => ite (tackXfer h) (out h)) h

theorem regWrite {slot : Fin 4} {a : BitVec 32} {n : BitVec 16} {ws : List (BitVec 32)} (h : s.Ticks) :
    (s.regWrite slot a n ws).Ticks := tackReq (fun _ _ h => tackXfer <| (State.tackTake_fr ..).ticks rfl h) h

theorem regWriteFixed {slot : Fin 4} {a : BitVec 32} {n : BitVec 16} {ws : List (BitVec 32)} (h : s.Ticks) :
    (s.regWriteFixed slot a n ws).Ticks := tackReq (fun _ _ h => tackXfer <| (State.tackTake_fr ..).ticks rfl h) h

theorem sideAccess {m : Nat} {f : State → State} (hf : ∀ t : State, t.Ticks → (f t).Ticks) (h : s.Ticks) :
    (s.sideAccess m f).Ticks :=
  when (fun _ h => hf _ <| when (fun _ h => withSbTimedOut h) <| (State.holdAccess_fr ..).ticks rfl h) h

theorem sideXfer {m : Nat} {kind : XferKind} {l : List (Nat × Option Word)} (h : s.Ticks) : (s.sideXfer m kind l).Ticks :=
  when (fun _ h => out h) <| startXfer <| lowerFirst h

theorem sideWrite {m a : Nat} {bytes : List Byte} (h : s.Ticks) : (s.sideWrite m a bytes).Ticks := when (fun _ h => sideXfer h) h

/-! ## Messages to Dwezel -/

theorem doRegPeek {a : Ask} (h : s.Ticks) : (s.doRegPeek a).Ticks :=
  ite ((State.reply_fr ..).ticks rfl h) <| ite ((State.reply_fr ..).ticks rfl h) <| startXfer h

theorem doRegPoke {a : Ask} (h : s.Ticks) : (s.doRegPoke a).Ticks :=
  ite ((State.reply_fr ..).ticks rfl h) <| ite ((State.reply_fr ..).ticks rfl h) <| startXfer h

theorem doCommand {a : Ask} {rep : Reports} (h : s.Ticks) : (s.doCommand a rep).Ticks := by
  unfold State.doCommand
  split
  case h_1 => exact (State.doInfo_fr ..).ticks rfl h
  case h_2 => exact (State.doModeGet_fr ..).ticks rfl h
  case h_3 => exact (State.doPortStatus_fr ..).ticks rfl h
  case h_4 => exact (State.doPortAssign_fr ..).ticks rfl h
  case h_5 => exact (State.doPortPower_fr ..).ticks rfl h
  case h_6 => exact (State.doKvmSet_fr ..).ticks rfl h
  case h_7 => exact (State.doPdStatus_fr ..).ticks rfl h
  case h_8 => exact (State.doPdPolicy_fr ..).ticks rfl h
  case h_9 => exact (State.doSourceCapsSet_fr ..).ticks rfl h
  case h_10 => exact (State.doTlmRead_fr ..).ticks rfl h
  case h_11 => exact (State.doEnergyRead_fr ..).ticks rfl h
  case h_12 => exact (State.doBudgetSet_fr ..).ticks rfl h
  case h_13 => exact (State.doFabricStatus_fr ..).ticks rfl h
  case h_14 => exact (State.doFabricReseed_fr ..).ticks rfl h
  case h_15 => exact (State.doQueueConfig_fr ..).ticks rfl h
  case h_16 => exact (State.doPmuConfig_fr ..).ticks rfl h
  case h_17 => exact (State.doFaultStatus_fr ..).ticks rfl h
  case h_18 => exact (State.doFaultClear_fr ..).ticks rfl h
  case h_19 => exact (State.doDumpRead_fr ..).ticks rfl h
  case h_20 => exact (State.doSessionOpen_fr ..).ticks rfl h
  case h_21 => exact (State.doSessionClose_fr ..).ticks rfl h
  case h_22 => exact (State.doPlanBegin_fr ..).ticks rfl h
  case h_23 => exact (State.doPlanChunk_fr ..).ticks rfl h
  case h_24 => exact (State.doPlanCommit_fr ..).ticks rfl h
  case h_25 => exact (State.doPlanActivate_fr ..).ticks rfl h
  case h_26 => exact doRegPeek h
  case h_27 => exact doRegPoke h
  case h_28 => exact (State.doTimelineAdd_fr ..).ticks rfl h
  case h_29 => exact (State.doTimelineDel_fr ..).ticks rfl h
  case h_30 => exact (State.reply_fr ..).ticks rfl h

theorem carryOut {a : Ask} {rep : Reports} (h : s.Ticks) : (s.carryOut a rep).Ticks := by
  have hr (c : Nat) : (s.reply a c).Ticks := (State.reply_fr ..).ticks rfl h
  unfold State.carryOut
  refine ite (hr _) <| ite (hr _) ?_
  split
  · exact hr _
  · exact ite (ite (hr _) <| ite ((State.forward_fr ..).ticks rfl h) (hr _)) <| ite (hr _) (doCommand h)

theorem serve {a : Ask} {b : Bool} {rep : Reports} (h : s.Ticks) : (s.serve a b rep).Ticks := by
  unfold State.serve
  refine ite ?_ (ite ((State.noted_fr ..).ticks rfl h) <| carryOut <| (State.noted_fr ..).ticks rfl h)
  split
  · exact when (fun _ h => (State.answer_fr ..).ticks rfl h) <| hw h
  · exact hw h

theorem serveSecure {a : Ask} {b : Bool} {rep : Reports} (h : s.Ticks) : (s.serveSecure a b rep).Ticks := by
  unfold State.serveSecure
  refine ite (ite (serve h) <| serve <| (State.closeParty_fr ..).ticks rfl h) ?_
  split
  · exact (State.unauthentic_fr ..).ticks rfl h
  · exact ite (when (fun _ h => (State.closeSession_fr ..).ticks rfl h) <| serve <| (State.sessSet_fr ..).ticks rfl h) <|
      when (fun _ h => (State.closeSession_fr ..).ticks rfl h) <| (State.unauthentic_fr ..).ticks rfl <|
      (State.sessSet_fr ..).ticks rfl <|
      (State.raise_fr ..).ticks rfl <| incSat h

theorem consume {a : Ask} {b : Bool} {rep : Reports} (h : s.Ticks) : (s.consume a b rep).Ticks :=
  have hp : (s.pmu 0x13 a.c).Ticks := (State.pmu_fr ..).ticks rfl h
  ite ((State.relayReply_fr ..).ticks rfl hp) <| ite (serveSecure hp) (serve hp)

theorem command {cmd c seq : Nat} {words : List Word} {rep : Reports} (h : s.Ticks) : (s.command cmd c seq words rep).Ticks :=
  ite h (consume h)

/-! ## The clock -/

theorem tackFirst {slot : Nat} (h : s.Ticks) : (s.tackFirst slot).Ticks := by
  refine foldl (fun t c h => ?_) h
  split
  case h_1 => exact when (fun _ h => mbxSendReq h) h
  case h_2 => exact when (fun _ h => mbxSendComplete h) h
  case h_3 => exact when (fun _ h => mbxAck h) h
  case h_4 => exact when (fun _ h => regWrite h) h
  case h_5 => exact when (fun _ h => regWriteFixed h) h
  case h_6 => exact h

theorem busReset {u : Nat} {high : Bool} (h : s.Ticks) : (s.busReset u high).Ticks := by
  unfold State.busReset
  split
  · exact h
  refine ite h ?_
  refine (State.resetParty_fr ..).ticks rfl <| (State.resetTack_fr ..).ticks rfl <| (State.upJudge_fr ..).ticks rfl <| p <|
    (State.cdpJudge_fr ..).ticks rfl <| (State.tellUp_fr ..).ticks rfl <| withSs <| (State.hsMod_fr ..).ticks rfl ?_
  split
  · refine when (fun _ h => (State.engState_fr ..).ticks rfl <| p h) <| p ?_
    exact each (fun _ _ h => (State.issue_fr ..).ticks rfl h) <| hw <| tackFirst h
  · exact each (fun _ _ h => (State.issue_fr ..).ticks rfl h) <| hw <| tackFirst h

theorem runLate {x : WakeEvt} (h : s.Ticks) : (s.runLate x).Ticks := by
  cases x with
  | attach => exact (State.attachDetect_fr ..).ticks rfl h
  | sink => exact (State.sinkAttach_fr ..).ticks rfl h
  | warn => exact (State.pwrwarn_fr ..).ticks rfl h
  | connect => exact (State.hsConnect_fr ..).ticks rfl h
  | deviceK => exact (State.deviceK_fr ..).ticks rfl h
  | deviceL1 => exact (State.deviceL1_fr ..).ticks rfl h
  | hostK => exact (State.hostK_fr ..).ticks rfl h
  | reset => exact busReset h

theorem onWake {c : Nat} {ds : List Nat} {x : WakeEvt} {f : State → State} (hf : ∀ t : State, t.Ticks → (f t).Ticks) (h : s.Ticks) :
    (s.onWake c ds x f).Ticks :=
  ite (hf _ h) <| withPdc <| each (fun _ _ h => ite ((State.activity_fr ..).ticks rfl h) ((State.wakeBy_fr ..).ticks rfl h)) h

theorem lateTick (h : s.Ticks) : s.lateTick.Ticks := foldl (fun _ _ h => runLate h) <| withPdc h

theorem tick (h : s.Ticks) : s.tick.Ticks :=
  when (fun _ h => (State.dwezelTick_fr ..).ticks rfl <| lateTick <| (State.cycleTick_fr ..).ticks rfl <| yardsTick <|
    (State.trainTick_fr ..).ticks rfl <| (State.a3Tick_fr ..).ticks rfl <| (State.standTick_fr ..).ticks rfl <|
    (State.obsTick_fr ..).ticks rfl <|
    p h) (s := s.nextCycle) ⟨h.ok⟩

end State.Ticks
end Sys2Proof.Machine

/-!
# What every command keeps: OTP (R3, R66) and the ticks of the yards (R6)
-/
namespace Sys2Proof.Machine

/-- What every command but OTP_WRITE_DONE keeps between two states: OTP as it is, and the ticks of the yards in range. -/
structure Kept (s t : State) : Prop where
  otp : t.otp = s.otp
  ticks : s.Ticks → t.Ticks

section
variable {m b : Nat} {r : Res} {s t : State}

/-- A command whose frame names neither part. -/
theorem keeps (hf : ∃ u, r = .next u ∧ Fr m b s u) (ho : m.testBit 11 = false) (hy : m.testBit 2 = false) :
    ∃ u, r = .next u ∧ Kept s u :=
  hf.imp fun _ h => ⟨h.1, h.2.part .otp ho, fun hs => h.2.ticks hy hs⟩

/-- A command that may move a yard, and keeps the ticks in range as it does. -/
theorem keepsBy (hf : ∃ u, (.next t : Res) = .next u ∧ Fr m b s u) (ho : m.testBit 11 = false) (hy : s.Ticks → t.Ticks) :
    ∃ u, (.next t : Res) = .next u ∧ Kept s u := by
  obtain ⟨u, e, h⟩ := hf
  cases e
  exact ⟨t, rfl, h.part .otp ho, hy⟩

end

open State.Ticks

section
variable (s : State)

theorem helloReceived_keeps (bh : BaleHdr) (uid hash id : Nat) (claimed : Fin 256) (peer : Fin 4) (flags lead : Fin 256) :
    Does (.helloReceived bh uid hash id claimed peer flags lead) s (Kept s) := by
  refine keepsBy (execHelloReceived_fr ..) rfl fun h => ite h <| ite ((State.maybeFlood_fr ..).ticks rfl <|
    ite (p ?_) (isolate ?_)) <|
    (State.learnedNew_fr ..).ticks rfl <| (State.maybeFlood_fr ..).ticks rfl <| (State.pump_fr ..).ticks rfl <|
    ite (when (fun _ h => setLead h) ?_) <| ite (joinLate ?_) <| ite ((State.restartFormation_fr ..).ticks rfl ?_) ?_
  iterate 2 exact (State.lkMod_fr ..).ticks rfl <| p <| p <| (State.rxLink_fr ..).ticks rfl h
  all_goals exact isolateClash <| (State.learn_fr ..).ticks rfl <| (State.glkState_fr ..).ticks rfl <| p <|
    (State.lkMod_fr ..).ticks rfl <| p <|
    p <| (State.rxLink_fr ..).ticks rfl h

theorem lsaReceived_keeps (c : CtrlHdr) (ls : List LinkAd) (ms : List MemberAd) : Does (.lsaReceived c ls ms) s (Kept s) :=
  keepsBy (execLsaReceived_fr ..) rfl fun h => rxCtrl (fun _ h => (State.learnedNew_fr ..).ticks rfl <| isolateClash <|
    (State.learn_fr ..).ticks rfl h) h

theorem floodingRoundEnd_keeps : Does .floodingRoundEnd s (Kept s) := by
  refine keepsBy (execFloodingRoundEnd_fr ..) rfl fun h => when (fun s h => ite ((State.startFlood_fr ..).ticks rfl h) ?_) h
  dsimp only
  split
  · exact (State.setStep_fr ..).ticks rfl <| (State.fabMod_fr ..).ticks rfl h
  · exact when (fun _ h => (State.pushTables_fr ..).ticks rfl <| (State.setStep_fr ..).ticks rfl <| confirmClaims h) <|
      (State.setStep_fr ..).ticks rfl <| setLead <| (State.setStep_fr ..).ticks rfl <| (State.fabMod_fr ..).ticks rfl h

theorem tablesReceived_keeps (c : CtrlHdr) (t : RouteTable) : Does (.tablesReceived c t) s (Kept s) :=
  keepsBy (execTablesReceived_fr ..) rfl fun h => rxCtrl (fun _ h => when (fun _ h => (State.ctrlTo_fr ..).ticks rfl <|
    when (fun _ h => (State.setStep_fr ..).ticks rfl h) <| when (fun _ h => setLead h) <| (State.fabMod_fr ..).ticks rfl h) h) h

theorem tableSwitch_keeps : Does .tableSwitch s (Kept s) := by
  refine keepsBy (execTableSwitch_fr ..) rfl fun h => ?_
  split
  · exact h
  · exact ite h <| each (fun _ _ h => (State.startResync_fr ..).ticks rfl h) <| (State.tellPens_fr ..).ticks rfl <|
      (State.helloAll_fr ..).ticks rfl <| settleLost <| hw <| (State.installRoutes_fr ..).ticks rfl <| p <|
      (State.fabMod_fr ..).ticks rfl h

theorem linkDownNotice_keeps (c : CtrlHdr) (i : Fin 16) : Does (.linkDownNotice c i) s (Kept s) :=
  keepsBy (execLinkDownNotice_fr ..) rfl fun h => rxCtrl (fun _ h => when (fun _ h => (State.pushTables_fr ..).ticks rfl h) <|
    settleLost <| (State.entryFailed_fr ..).ticks rfl <| each (fun _ _ h => (State.cutLink_fr ..).ticks rfl h) h) h

theorem ghelysLaneLost_keeps (k : Fin 4) (upper : Bool) : Does (.ghelysLaneLost k upper) s (Kept s) :=
  keepsBy (execGhelysLaneLost_fr ..) rfl fun h => ite h <| ite ((State.learnedNew_fr ..).ticks rfl <|
    (State.learn_fr ..).ticks rfl <|
    when (fun _ h => (State.replayFrom_fr ..).ticks rfl h) <| hw <| p h) <| ite h (linkFail h)

theorem bellTimeout_keeps (k : Fin 4) : Does (.bellTimeout k) s (Kept s) :=
  keepsBy (execBellTimeout_fr ..) rfl fun h => when (fun _ h => ite ((State.ringBell_fr ..).ticks rfl h) (linkFail <| hw h)) h

theorem nakReceived_keeps (bh : BaleHdr) (seq : Fin 512) : Does (.nakReceived bh seq) s (Kept s) := by
  refine keepsBy (execNakReceived_fr ..) rfl fun h => ite h ?_
  dsimp only
  split
  · exact replayDue <| (State.rxLink_fr ..).ticks rfl h
  · exact (State.rxLink_fr ..).ticks rfl h

theorem heartbeatMiss_keeps (k : Fin 4) : Does (.heartbeatMiss k) s (Kept s) :=
  keepsBy (execHeartbeatMiss_fr ..) rfl fun h => ite h <| ite (p h) <| settleLost <| (State.raise_fr ..).ticks rfl <|
    linkFail <| hw <| p h

theorem porAssert_keeps : Does .porAssert s (Kept s) :=
  keepsBy (execPorAssert_fr ..) rfl fun h => ite h <| (State.bootMod_fr ..).ticks rfl <| wiped ..

theorem porRelease_keeps (bootsrc : Fin 4) (life : Bool) (i2c : Fin 8) (maker : Bool) :
    Does (.porRelease bootsrc life i2c maker) s (Kept s) :=
  keepsBy (execPorRelease_fr ..) rfl fun h => ite h <| (State.dischAll_fr ..).ticks rfl <|
    when (fun _ h => (State.assertPg_fr ..).ticks rfl <| p <| p <| (State.chMod_fr ..).ticks rfl <|
      (State.setLimit_fr ..).ticks rfl <|
      (State.setEfuse_fr ..).ticks rfl <| hw <| p h) <|
    p <| hw <| setWord <| (State.strap_fr ..).ticks rfl <| (State.bootMod_fr ..).ticks rfl <| wiped ..

theorem resetNAssert_keeps (handed dumped : Bool) : Does (.resetNAssert handed dumped) s (Kept s) :=
  keepsBy (execResetNAssert_fr ..) rfl fun h => ite h <| (State.bootMod_fr ..).ticks rfl <| chipWide _

theorem chipResetBegin_keeps : Does .chipResetBegin s (Kept s) :=
  keepsBy (execChipResetBegin_fr ..) rfl fun h => when (fun _ _ =>
    (State.afterReset_fr (m := 34) rfl rfl HasReg.all (Fr.refl ..)).ticks rfl <| chipWide _) h

theorem crystalReady_keeps (ok : Bool) : Does (.crystalReady ok) s (Kept s) := by
  refine keepsBy (execCrystalReady_fr ..) rfl fun h => when (fun _ h => ite ((State.raise_fr ..).ticks rfl ?_) <| ite (p ?_) <|
    (State.enterFetch_fr ..).ticks rfl ?_) h
  all_goals exact p <| yardsCrystal <| p h

theorem xtalRestartTimer_keeps (ready : Bool) : Does (.xtalRestartTimer ready) s (Kept s) :=
  keepsBy (execXtalRestartTimer_fr ..) rfl fun h => when (fun _ h => (State.clearSource_fr ..).ticks rfl <| yardsCrystal <| p h) h

theorem planActivationDone_keeps (same : Bool) : Does (.planActivationDone same) s (Kept s) := by
  refine keepsBy (execPlanActivationDone_fr ..) rfl fun h => ite (endPlan h) <| ite ?_ h
  split
  · exact h
  · exact ite ((State.nextSlot_fr ..).ticks rfl <| (State.reject_fr ..).ticks rfl <| p <| (State.plnMod_fr ..).ticks rfl h) <|
      p <| activatePlan <| (State.plnMod_fr ..).ticks rfl h

theorem bootDomainsReady_keeps (vinOk : Bool) (time : Nat) : Does (.bootDomainsReady vinOk time) s (Kept s) := by
  refine keepsBy (execBootDomainsReady_fr ..) rfl fun h => when (fun _ h => ite (enterService ?_) <| ite ?_ <|
    ite (enterLifeline ?_) <|
    p ?_) h
  all_goals exact p <| (State.bootMod_fr ..).ticks rfl <| when (fun _ h => applyPlan <| p h) <| p h

theorem lifelineHandoverDone_keeps : Does .lifelineHandoverDone s (Kept s) :=
  keepsBy (execLifelineHandoverDone_fr ..) rfl fun h => when (fun _ h => enterService <|
    when (fun _ h => (State.disconnectHost_fr ..).ticks rfl h) <| (State.chMod_fr ..).ticks rfl <| p <|
      (State.powerDown_fr ..).ticks rfl <|
    (State.bootMod_fr ..).ticks rfl h) h

theorem messageConsume_keeps (c : Fin 12) (rep : List (Nat × List (BitVec 8))) : Does (.messageConsume c rep) s (Kept s) :=
  keepsBy (execMessageConsume_fr ..) rfl fun h => ite h <|
    when (fun _ h => (State.placeProxy_fr ..).ticks rfl <| (State.postHeld_fr ..).ticks rfl h) <| consume <| withPass <|
    (State.inFall_fr ..).ticks rfl h

theorem domainExitStepDone_keeps (d : Fin 12) (late : Bool) (refused : List Nat) :
    Does (.domainExitStepDone d late refused) s (Kept s) := by
  refine keepsBy (execDomainExitStepDone_fr ..) rfl fun h => ?_
  have hs : (s.when late fun s => s.hw PDC_STICKY.SLOW_WAKE).Ticks := when (fun _ h => hw h) h
  dsimp only
  split
  case h_1 => exact when (fun _ h => hw h) <| crystalUp h
  case h_2 | h_3 | h_5 => exact (State.domStep_fr ..).ticks rfl hs
  case h_4 => exact (State.domStep_fr ..).ticks rfl <| when (fun _ h => (State.raise_fr ..).ticks rfl <| hw h) <|
    (State.replay_fr ..).ticks rfl hs
  case h_6 => exact exitDone hs
  case h_7 => exact h

theorem domainExitTimeout_keeps (d : Fin 12) : Does (.domainExitTimeout d) s (Kept s) :=
  keepsBy (execDomainExitTimeout_fr ..) rfl fun h => ite (each (fun _ _ h => exitFail h) h) <| when (fun _ h => exitFail h) h

theorem crystalStop_keeps : Does .crystalStop s (Kept s) :=
  keepsBy (execCrystalStop_fr ..) rfl fun h => when (fun _ h => (State.yardsKeeper_fr ..).ticks rfl <| inc <| p <|
    each (fun _ _ h => yardCoast h) h) h

theorem busReset_keeps (u : Fin 2) (high : Bool) : Does (.busReset u high) s (Kept s) :=
  keepsBy (execBusReset_fr ..) rfl fun h => when (fun _ h => onWake (fun _ h => busReset h) h) h

end

/-- Every command but OTP_WRITE_DONE answers a next state, in which OTP is as it was and the ticks of the yards are in range where
they were. -/
theorem exec_keeps (i : Instr) (hi : i ≠ .otpWriteDone) (s : State) : Does i s (Kept s) := by
  cases i with
  | porAssert => exact porAssert_keeps ..
  | porRelease => exact porRelease_keeps ..
  | railsInWindow => exact keeps (execRailsInWindow_fr ..) rfl rfl
  | railWindowTimeout => exact keeps (execRailWindowTimeout_fr ..) rfl rfl
  | crystalReady => exact crystalReady_keeps ..
  | crystalNotReady => exact keeps (execCrystalNotReady_fr ..) rfl rfl
  | xtalRestartTimer => exact xtalRestartTimer_keeps ..
  | makerWindowEnd => exact keeps (execMakerWindowEnd_fr ..) rfl rfl
  | makerKeyedMessage => exact keeps (execMakerKeyedMessage_fr ..) rfl rfl
  | flashBusyPollEnd => exact keeps (execFlashBusyPollEnd_fr ..) rfl rfl
  | slotVerifyDone => exact keeps (execSlotVerifyDone_fr ..) rfl rfl
  | planActivationDone => exact planActivationDone_keeps ..
  | bootDomainsReady => exact bootDomainsReady_keeps ..
  | upstreamDataConnect => exact keeps (execUpstreamDataConnect_fr ..) rfl rfl
  | resetNAssert => exact resetNAssert_keeps ..
  | resetNRelease => exact keeps (execResetNRelease_fr ..) rfl rfl
  | chipResetRequest => exact keepsBy (execChipResetRequest_fr ..) rfl fun h => access h
  | chipResetBegin => exact chipResetBegin_keeps ..
  | starterArmed => exact keeps (execStarterArmed_fr ..) rfl rfl
  | starterSinkPathClosed => exact keeps (execStarterSinkPathClosed_fr ..) rfl rfl
  | starterHoldOffEnd => exact keeps (execStarterHoldOffEnd_fr ..) rfl rfl
  | lifelineVinRestored => exact keeps (execLifelineVinRestored_fr ..) rfl rfl
  | lifelineHandoverDone => exact lifelineHandoverDone_keeps ..
  | lifelineExitAbandon => exact keeps (execLifelineExitAbandon_fr ..) rfl rfl
  | safeExit => exact keeps (execSafeExit_fr ..) rfl rfl
  | planBegin => exact keepsBy (execPlanBegin_fr ..) rfl fun h => command h
  | stagingEraseDone => exact keeps (execStagingEraseDone_fr ..) rfl rfl
  | planChunk => exact keepsBy (execPlanChunk_fr ..) rfl fun h => command h
  | planCommit => exact keepsBy (execPlanCommit_fr ..) rfl fun h => command h
  | commitStepDone => exact keeps (execCommitStepDone_fr ..) rfl rfl
  | planActivate => exact keepsBy (execPlanActivate_fr ..) rfl fun h => command h
  | activateReplyWaitEnd => exact keeps (execActivateReplyWaitEnd_fr ..) rfl rfl
  | memberActivateOrder => exact keeps (execMemberActivateOrder_fr ..) rfl rfl
  | otpWriteDone => exact absurd rfl hi
  | uploadIdleTimeout => exact keeps (execUploadIdleTimeout_fr ..) rfl rfl
  | sofReceived => exact keepsBy (execSofReceived_fr ..) rfl fun h => sofReceived h
  | itpReceived => exact keepsBy (execItpReceived_fr ..) rfl fun h => itpReceived h
  | yardCoast => exact keepsBy (execYardCoast_fr ..) rfl fun h => when (fun _ h => yardCoast h) h
  | forceCoast => exact keepsBy (execForceCoast_fr ..) rfl fun h => access h
  | snap => exact keepsBy (execSnap_fr ..) rfl fun h => access h
  | yrdNowLoRead => exact keepsBy (execYrdNowLoRead_fr ..) rfl fun h => access h
  | barnTimeBroadcast => exact keeps (execBarnTimeBroadcast_fr ..) rfl rfl
  | barnTimeReceived => exact keepsBy (execBarnTimeReceived_fr ..) rfl fun h => barnTimeReceived h
  | yardDescriptorReceived => exact keepsBy (execYardDescriptorReceived_fr ..) rfl fun h => yardDescriptorReceived h
  | yardDescriptorTimeout => exact keeps (execYardDescriptorTimeout_fr ..) rfl rfl
  | linkDelayProbe => exact keeps (execLinkDelayProbe_fr ..) rfl rfl
  | domainWake => exact keeps (execDomainWake_fr ..) rfl rfl
  | tlmSample => exact keeps (execTlmSample_fr ..) rfl rfl
  | pdKeepalive => exact keeps (execPdKeepalive_fr ..) rfl rfl
  | doorbell => exact keeps (execDoorbell_fr ..) rfl rfl
  | gpioSet => exact keeps (execGpioSet_fr ..) rfl rfl
  | gpioClear => exact keeps (execGpioClear_fr ..) rfl rfl
  | fabricHeartbeat => exact keeps (execFabricHeartbeat_fr ..) rfl rfl
  | budgetReview => exact keeps (execBudgetReview_fr ..) rfl rfl
  | ttPrewake => exact keeps (execTtPrewake_fr ..) rfl rfl
  | timelineWakeLead => exact keeps (execTimelineWakeLead_fr ..) rfl rfl
  | tmlRead => exact keepsBy (execTmlRead_fr ..) rfl fun h => access h
  | tmlWrite => exact keepsBy (execTmlWrite_fr ..) rfl fun h => access h
  | tmlDelete => exact keepsBy (execTmlDelete_fr ..) rfl fun h => access h
  | tmlEnable => exact keepsBy (execTmlEnable_fr ..) rfl fun h => access h
  | predictorChoice => exact keeps (execPredictorChoice_fr ..) rfl rfl
  | observationWindowEnd => exact keeps (execObservationWindowEnd_fr ..) rfl rfl
  | burstStart => exact keeps (execBurstStart_fr ..) rfl rfl
  | predictionWindowMiss => exact keeps (execPredictionWindowMiss_fr ..) rfl rfl
  | downstreamPacket => exact keeps (execDownstreamPacket_fr ..) rfl rfl
  | upstreamPacket => exact keeps (execUpstreamPacket_fr ..) rfl rfl
  | egressQueueHead => exact keeps (execEgressQueueHead_fr ..) rfl rfl
  | portU0Reached => exact keeps (execPortU0Reached_fr ..) rfl rfl
  | recoveryHoldExpire => exact keeps (execRecoveryHoldExpire_fr ..) rfl rfl
  | lgoReceived => exact keeps (execLgoReceived_fr ..) rfl rfl
  | headerCreditReturn => exact keeps (execHeaderCreditReturn_fr ..) rfl rfl
  | creditRelease => exact keeps (execCreditRelease_fr ..) rfl rfl
  | itpNotice => exact keeps (execItpNotice_fr ..) rfl rfl
  | ldmExchange => exact keeps (execLdmExchange_fr ..) rfl rfl
  | lpmInactivityTimeout => exact keeps (execLpmInactivityTimeout_fr ..) rfl rfl
  | uspLpmInitiate => exact keeps (execUspLpmInitiate_fr ..) rfl rfl
  | lfpsDetected => exact keeps (execLfpsDetected_fr ..) rfl rfl
  | deviceU3Exit => exact keeps (execDeviceU3Exit_fr ..) rfl rfl
  | hostU3Exit => exact keeps (execHostU3Exit_fr ..) rfl rfl
  | upstreamU3Entry => exact keeps (execUpstreamU3Entry_fr ..) rfl rfl
  | ssLaneLost => exact keeps (execSsLaneLost_fr ..) rfl rfl
  | widthChangeStepDone => exact keeps (execWidthChangeStepDone_fr ..) rfl rfl
  | carryLost => exact keeps (execCarryLost_fr ..) rfl rfl
  | orderReceived => exact keeps (execOrderReceived_fr ..) rfl rfl
  | orderReset => exact keeps (execOrderReset_fr ..) rfl rfl
  | orderSuspendPort => exact keeps (execOrderSuspendPort_fr ..) rfl rfl
  | orderResumePort => exact keeps (execOrderResumePort_fr ..) rfl rfl
  | orderBusResumeStart => exact keeps (execOrderBusResumeStart_fr ..) rfl rfl
  | orderBusResumeEnd => exact keeps (execOrderBusResumeEnd_fr ..) rfl rfl
  | orderTest => exact keeps (execOrderTest_fr ..) rfl rfl
  | orderL1Exit => exact keeps (execOrderL1Exit_fr ..) rfl rfl
  | portResetEnd => exact keeps (execPortResetEnd_fr ..) rfl rfl
  | globalSuspend => exact keeps (execGlobalSuspend_fr ..) rfl rfl
  | hostResumeDetected => exact keeps (execHostResumeDetected_fr ..) rfl rfl
  | hostResumeEnd => exact keeps (execHostResumeEnd_fr ..) rfl rfl
  | portResumeEnd => exact keeps (execPortResumeEnd_fr ..) rfl rfl
  | remoteWake => exact keeps (execRemoteWake_fr ..) rfl rfl
  | wakeHoldExpire => exact keeps (execWakeHoldExpire_fr ..) rfl rfl
  | lpmAck => exact keeps (execLpmAck_fr ..) rfl rfl
  | l1Entry => exact keeps (execL1Entry_fr ..) rfl rfl
  | deviceL1Exit => exact keeps (execDeviceL1Exit_fr ..) rfl rfl
  | hsConnectChange => exact keeps (execHsConnectChange_fr ..) rfl rfl
  | babbleDisable => exact keeps (execBabbleDisable_fr ..) rfl rfl
  | busReset => exact busReset_keeps ..
  | fsUpstreamConnect => exact keeps (execFsUpstreamConnect_fr ..) rfl rfl
  | ttSof => exact keeps (execTtSof_fr ..) rfl rfl
  | sofFill => exact keeps (execSofFill_fr ..) rfl rfl
  | ttPeriodicHold => exact keeps (execTtPeriodicHold_fr ..) rfl rfl
  | periodicStartSplit => exact keeps (execPeriodicStartSplit_fr ..) rfl rfl
  | nonperiodicStartSplit => exact keeps (execNonperiodicStartSplit_fr ..) rfl rfl
  | completeSplit => exact keeps (execCompleteSplit_fr ..) rfl rfl
  | ttTransactionEnd => exact keeps (execTtTransactionEnd_fr ..) rfl rfl
  | periodicWindowEnd => exact keeps (execPeriodicWindowEnd_fr ..) rfl rfl
  | ttEof => exact keeps (execTtEof_fr ..) rfl rfl
  | ttaClearBuffer => exact keepsBy (execTtaClearBuffer_fr ..) rfl fun h => access h
  | ttaResetTt => exact keepsBy (execTtaResetTt_fr ..) rfl fun h => access h
  | ttaStopTt => exact keepsBy (execTtaStopTt_fr ..) rfl fun h => access h
  | ttaStart => exact keepsBy (execTtaStart_fr ..) rfl fun h => access h
  | ttaOpDone => exact keeps (execTtaOpDone_fr ..) rfl rfl
  | bc12SwitchStart => exact keeps (execBc12SwitchStart_fr ..) rfl rfl
  | bc12SwitchWaitEnd => exact keeps (execBc12SwitchWaitEnd_fr ..) rfl rfl
  | mirrorRecord => exact keeps (execMirrorRecord_fr ..) rfl rfl
  | mirrorSnapshot => exact keeps (execMirrorSnapshot_fr ..) rfl rfl
  | statusChangeIn => exact keeps (execStatusChangeIn_fr ..) rfl rfl
  | getHubStatus => exact keeps (execGetHubStatus_fr ..) rfl rfl
  | getPortStatus => exact keeps (execGetPortStatus_fr ..) rfl rfl
  | getPortStatusExt => exact keeps (execGetPortStatusExt_fr ..) rfl rfl
  | getHubDescriptor => exact keeps (execGetHubDescriptor_fr ..) rfl rfl
  | clearHubFeature _ _ oc => exact keeps (execClearHubFeature_fr _ _ oc _) rfl rfl
  | unsupportedHubRequest => exact keeps (execUnsupportedHubRequest_fr ..) rfl rfl
  | setPortReset => exact keeps (execSetPortReset_fr ..) rfl rfl
  | setPortSuspend => exact keeps (execSetPortSuspend_fr ..) rfl rfl
  | clearPortSuspend => exact keeps (execClearPortSuspend_fr ..) rfl rfl
  | setPortPower => exact keeps (execSetPortPower_fr ..) rfl rfl
  | clearPortPower => exact keeps (execClearPortPower_fr ..) rfl rfl
  | clearPortEnable => exact keeps (execClearPortEnable_fr ..) rfl rfl
  | setPortTest => exact keeps (execSetPortTest_fr ..) rfl rfl
  | portIndicator => exact keeps (execPortIndicator_fr ..) rfl rfl
  | clearPortChange => exact keeps (execClearPortChange_fr ..) rfl rfl
  | clearTtBuffer => exact keeps (execClearTtBuffer_fr ..) rfl rfl
  | resetTt => exact keeps (execResetTt_fr ..) rfl rfl
  | stopTt => exact keeps (execStopTt_fr ..) rfl rfl
  | setAndTestPortL1 => exact keeps (execSetAndTestPortL1_fr ..) rfl rfl
  | clearPortL1 => exact keeps (execClearPortL1_fr ..) rfl rfl
  | getPortErrorCount => exact keeps (execGetPortErrorCount_fr ..) rfl rfl
  | setHubDepth => exact keeps (execSetHubDepth_fr ..) rfl rfl
  | setPortU1Timeout => exact keeps (execSetPortU1Timeout_fr ..) rfl rfl
  | setPortU2Timeout => exact keeps (execSetPortU2Timeout_fr ..) rfl rfl
  | setPortLinkState => exact keeps (execSetPortLinkState_fr ..) rfl rfl
  | setPortRemoteWakeMask => exact keeps (execSetPortRemoteWakeMask_fr ..) rfl rfl
  | ssPortReset => exact keeps (execSsPortReset_fr ..) rfl rfl
  | bhPortReset => exact keeps (execBhPortReset_fr ..) rfl rfl
  | forceLinkpmAccept => exact keeps (execForceLinkpmAccept_fr ..) rfl rfl
  | hubRequestResult => exact keeps (execHubRequestResult_fr ..) rfl rfl
  | portAssign => exact keepsBy (execPortAssign_fr ..) rfl fun h => command h
  | kvmSet => exact keepsBy (execKvmSet_fr ..) rfl fun h => command h
  | kvmButtonPress => exact keeps (execKvmButtonPress_fr ..) rfl rfl
  | handoffStepDone => exact keeps (execHandoffStepDone_fr ..) rfl rfl
  | handoffQuietEnd => exact keeps (execHandoffQuietEnd_fr ..) rfl rfl
  | linkTrained => exact keeps (execLinkTrained_fr ..) rfl rfl
  | linkTrainingFailed => exact keeps (execLinkTrainingFailed_fr ..) rfl rfl
  | linkRetryTimer => exact keeps (execLinkRetryTimer_fr ..) rfl rfl
  | linkRetrain => exact keepsBy (execLinkRetrain_fr ..) rfl fun h => access h
  | linkIdleEntry => exact keeps (execLinkIdleEntry_fr ..) rfl rfl
  | linkNopTimer => exact keeps (execLinkNopTimer_fr ..) rfl rfl
  | ghelysLaneLost => exact ghelysLaneLost_keeps ..
  | singleLaneRetrain => exact keepsBy (execSingleLaneRetrain_fr ..) rfl fun h => when (fun _ h => retrain h) h
  | sleepIdleTimeout => exact keeps (execSleepIdleTimeout_fr ..) rfl rfl
  | sleepReq => exact keeps (execSleepReq_fr ..) rfl rfl
  | sleepAck => exact keeps (execSleepAck_fr ..) rfl rfl
  | sleepNak => exact keeps (execSleepNak_fr ..) rfl rfl
  | bellRing => exact keeps (execBellRing_fr ..) rfl rfl
  | bellRingRequest => exact keepsBy (execBellRingRequest_fr ..) rfl fun h => access h
  | bellAccepted => exact keeps (execBellAccepted_fr ..) rfl rfl
  | bellTimeout => exact bellTimeout_keeps ..
  | linkResumeDone => exact keeps (execLinkResumeDone_fr ..) rfl rfl
  | dataBaleReceived => exact keeps (execDataBaleReceived_fr ..) rfl rfl
  | nakReceived => exact nakReceived_keeps ..
  | replayTimeout => exact keepsBy (execReplayTimeout_fr ..) rfl fun h => when (fun _ h => replayDue h) h
  | paramReceived => exact keeps (execParamReceived_fr ..) rfl rfl
  | helloReceived => exact helloReceived_keeps ..
  | probeReceived => exact keeps (execProbeReceived_fr ..) rfl rfl
  | probeReplyReceived => exact keeps (execProbeReplyReceived_fr ..) rfl rfl
  | heartbeatReceived => exact keeps (execHeartbeatReceived_fr ..) rfl rfl
  | heartbeatMiss => exact heartbeatMiss_keeps ..
  | linkDownReceived => exact keepsBy (execLinkDownReceived_fr ..) rfl fun h => when (fun _ h => linkFail h) h
  | noBaleTimeout => exact keepsBy (execNoBaleTimeout_fr ..) rfl fun h => when (fun _ h => linkFail h) h
  | blockLockLoss => exact keepsBy (execBlockLockLoss_fr ..) rfl fun h => when (fun _ h => linkFail h) h
  | linkDownNotice => exact linkDownNotice_keeps ..
  | resyncReceived => exact keeps (execResyncReceived_fr ..) rfl rfl
  | resyncAckReceived => exact keeps (execResyncAckReceived_fr ..) rfl rfl
  | lsaReceived => exact lsaReceived_keeps ..
  | floodingRoundEnd => exact floodingRoundEnd_keeps ..
  | tablesReceived => exact tablesReceived_keeps ..
  | tablesAckReceived => exact keeps (execTablesAckReceived_fr ..) rfl rfl
  | formedBroadcast => exact keeps (execFormedBroadcast_fr ..) rfl rfl
  | formedReceived => exact keeps (execFormedReceived_fr ..) rfl rfl
  | formationDeadline => exact keeps (execFormationDeadline_fr ..) rfl rfl
  | tableSwitch => exact tableSwitch_keeps ..
  | flowOpenReceived => exact keeps (execFlowOpenReceived_fr ..) rfl rfl
  | flowRecordFree => exact keeps (execFlowRecordFree_fr ..) rfl rfl
  | deliveredReceived => exact keeps (execDeliveredReceived_fr ..) rfl rfl
  | deliveredTimer => exact keeps (execDeliveredTimer_fr ..) rfl rfl
  | loadReceived => exact keeps (execLoadReceived_fr ..) rfl rfl
  | rebalanceWindow => exact keeps (execRebalanceWindow_fr ..) rfl rfl
  | reseedReceived => exact keeps (execReseedReceived_fr ..) rfl rfl
  | proxyMessageReceived => exact keeps (execProxyMessageReceived_fr ..) rfl rfl
  | proxyTake => exact keeps (execProxyTake_fr ..) rfl rfl
  | attachDetect => exact keeps (execAttachDetect_fr ..) rfl rfl
  | ccAttachDebounceEnd => exact keeps (execCcAttachDebounceEnd_fr ..) rfl rfl
  | vbusDischarged => exact keeps (execVbusDischarged_fr ..) rfl rfl
  | detachDebounceEnd => exact keeps (execDetachDebounceEnd_fr ..) rfl rfl
  | sinkDetach => exact keeps (execSinkDetach_fr ..) rfl rfl
  | rdOpenDuringSlew => exact keeps (execRdOpenDuringSlew_fr ..) rfl rfl
  | drpToggle => exact keeps (execDrpToggle_fr ..) rfl rfl
  | trySnkTimeout => exact keeps (execTrySnkTimeout_fr ..) rfl rfl
  | errorRecoveryEnd => exact keeps (execErrorRecoveryEnd_fr ..) rfl rfl
  | discoverIdentityAttempt => exact keeps (execDiscoverIdentityAttempt_fr ..) rfl rfl
  | sourceCapTimer => exact keeps (execSourceCapTimer_fr ..) rfl rfl
  | ping => exact keeps (execPing_fr ..) rfl rfl
  | getSourceCap => exact keeps (execGetSourceCap_fr ..) rfl rfl
  | getSinkCap => exact keeps (execGetSinkCap_fr ..) rfl rfl
  | getSourceCapExtended => exact keeps (execGetSourceCapExtended_fr ..) rfl rfl
  | getStatus => exact keeps (execGetStatus_fr ..) rfl rfl
  | getPpsStatus => exact keeps (execGetPpsStatus_fr ..) rfl rfl
  | getRevision => exact keeps (execGetRevision_fr ..) rfl rfl
  | softReset => exact keeps (execSoftReset_fr ..) rfl rfl
  | vconnSwap => exact keeps (execVconnSwap_fr ..) rfl rfl
  | psRdyReceived => exact keeps (execPsRdyReceived_fr ..) rfl rfl
  | unsupportedPdMessage => exact keeps (execUnsupportedPdMessage_fr ..) rfl rfl
  | bist => exact keeps (execBist_fr ..) rfl rfl
  | sourceCapabilities => exact keeps (execSourceCapabilities_fr ..) rfl rfl
  | pdRequest => exact keeps (execPdRequest_fr ..) rfl rfl
  | eprModeEnter => exact keeps (execEprModeEnter_fr ..) rfl rfl
  | eprModeExit => exact keeps (execEprModeExit_fr ..) rfl rfl
  | eprGetSourceCap => exact keeps (execEprGetSourceCap_fr ..) rfl rfl
  | eprGetSinkCap => exact keeps (execEprGetSinkCap_fr ..) rfl rfl
  | eprKeepalive => exact keeps (execEprKeepalive_fr ..) rfl rfl
  | pdAlert => exact keeps (execPdAlert_fr ..) rfl rfl
  | pdInfoReceived => exact keeps (execPdInfoReceived_fr ..) rfl rfl
  | discoverIdentity => exact keeps (execDiscoverIdentity_fr ..) rfl rfl
  | discoverSvids => exact keeps (execDiscoverSvids_fr ..) rfl rfl
  | discoverModes => exact keeps (execDiscoverModes_fr ..) rfl rfl
  | enterMode => exact keeps (execEnterMode_fr ..) rfl rfl
  | exitMode => exact keeps (execExitMode_fr ..) rfl rfl
  | dpStatusUpdate => exact keeps (execDpStatusUpdate_fr ..) rfl rfl
  | dpConfigure => exact keeps (execDpConfigure_fr ..) rfl rfl
  | otherStructuredVdm => exact keeps (execOtherStructuredVdm_fr ..) rfl rfl
  | unstructuredVdm => exact keeps (execUnstructuredVdm_fr ..) rfl rfl
  | hardResetReceived => exact keeps (execHardResetReceived_fr ..) rfl rfl
  | senderResponseTimeout => exact keeps (execSenderResponseTimeout_fr ..) rfl rfl
  | ppsTimeout => exact keeps (execPpsTimeout_fr ..) rfl rfl
  | eprKeepaliveTimeout => exact keeps (execEprKeepaliveTimeout_fr ..) rfl rfl
  | psHardResetTimer => exact keeps (execPsHardResetTimer_fr ..) rfl rfl
  | srcRecoverEnd => exact keeps (execSrcRecoverEnd_fr ..) rfl rfl
  | srcTransitionEnd => exact keeps (execSrcTransitionEnd_fr ..) rfl rfl
  | slewDone => exact keeps (execSlewDone_fr ..) rfl rfl
  | settleDone => exact keeps (execSettleDone_fr ..) rfl rfl
  | psRdyTimeout => exact keeps (execPsRdyTimeout_fr ..) rfl rfl
  | vsetTrim => exact keeps (execVsetTrim_fr ..) rfl rfl
  | vconnOvercurrent => exact keeps (execVconnOvercurrent_fr ..) rfl rfl
  | ccOvervoltage => exact keeps (execCcOvervoltage_fr ..) rfl rfl
  | hpdLevelChange => exact keeps (execHpdLevelChange_fr ..) rfl rfl
  | irqHpd => exact keeps (execIrqHpd_fr ..) rfl rfl
  | billboardTimeout => exact keeps (execBillboardTimeout_fr ..) rfl rfl
  | billboardReconnect => exact keeps (execBillboardReconnect_fr ..) rfl rfl
  | fastTrip => exact keeps (execFastTrip_fr ..) rfl rfl
  | slowTrip => exact keeps (execSlowTrip_fr ..) rfl rfl
  | slowTimerReset => exact keeps (execSlowTimerReset_fr ..) rfl rfl
  | undervoltageTrip => exact keeps (execUndervoltageTrip_fr ..) rfl rfl
  | rampStart => exact keeps (execRampStart_fr ..) rfl rfl
  | rampComplete => exact keeps (execRampComplete_fr ..) rfl rfl
  | rampFail => exact keeps (execRampFail_fr ..) rfl rfl
  | attemptWindowEnd => exact keeps (execAttemptWindowEnd_fr ..) rfl rfl
  | retryWaitEnd => exact keeps (execRetryWaitEnd_fr ..) rfl rfl
  | pgStableTimer => exact keeps (execPgStableTimer_fr ..) rfl rfl
  | unseatedResetTimer => exact keeps (execUnseatedResetTimer_fr ..) rfl rfl
  | seatDebounceEnd => exact keeps (execSeatDebounceEnd_fr ..) rfl rfl
  | seatRemoval => exact keeps (execSeatRemoval_fr ..) rfl rfl
  | gateStuck => exact keeps (execGateStuck_fr ..) rfl rfl
  | dischargeDone => exact keeps (execDischargeDone_fr ..) rfl rfl
  | dischargeTimeout => exact keeps (execDischargeTimeout_fr ..) rfl rfl
  | vbusRisingGateOff => exact keeps (execVbusRisingGateOff_fr ..) rfl rfl
  | pgAssert => exact keeps (execPgAssert_fr ..) rfl rfl
  | pgHoldEnd => exact keeps (execPgHoldEnd_fr ..) rfl rfl
  | telemetryFrame => exact keeps (execTelemetryFrame_fr ..) rfl rfl
  | firstUseEnd => exact keeps (execFirstUseEnd_fr ..) rfl rfl
  | tlmEnergyLoRead => exact keepsBy (execTlmEnergyLoRead_fr ..) rfl fun h => access h
  | tlmEclrWrite => exact keepsBy (execTlmEclrWrite_fr ..) rfl fun h => access h
  | pwrwarnAssert => exact keeps (execPwrwarnAssert_fr ..) rfl rfl
  | pwrwarnRelease => exact keeps (execPwrwarnRelease_fr ..) rfl rfl
  | vinUndervoltage => exact keeps (execVinUndervoltage_fr ..) rfl rfl
  | budgetReduce => exact keeps (execBudgetReduce_fr ..) rfl rfl
  | budgetShed => exact keeps (execBudgetShed_fr ..) rfl rfl
  | budgetPeriodicReview => exact keeps (execBudgetPeriodicReview_fr ..) rfl rfl
  | ppwClearWrite => exact keepsBy (execPpwClearWrite_fr ..) rfl fun h => access h
  | pdcMyvoteWrite => exact keepsBy (execPdcMyvoteWrite_fr ..) rfl fun h => access h
  | accessHoldEnd => exact keeps (execAccessHoldEnd_fr ..) rfl rfl
  | domainEntryStepDone => exact keeps (execDomainEntryStepDone_fr ..) rfl rfl
  | switchOpenTimeout => exact keeps (execSwitchOpenTimeout_fr ..) rfl rfl
  | domainExitStepDone => exact domainExitStepDone_keeps ..
  | domainExitTimeout => exact domainExitTimeout_keeps ..
  | domainExitRetry => exact keeps (execDomainExitRetry_fr ..) rfl rfl
  | crystalStop => exact crystalStop_keeps ..
  | crystalRestart => exact keepsBy (execCrystalRestart_fr ..) rfl fun h => when (fun _ h => crystalUp h) h
  | restingDomainAccess => exact keepsBy (execRestingDomainAccess_fr ..) rfl fun h => access h
  | autoWakeAccess => exact keepsBy (execAutoWakeAccess_fr ..) rfl fun h => access h
  | autoWakeWrite => exact keepsBy (execAutoWakeWrite_fr ..) rfl fun h => access h
  | inboundPost => exact keepsBy (execInboundPost_fr ..) rfl fun h => access h
  | messageConsume => exact messageConsume_keeps ..
  | inboundPoll => exact keeps (execInboundPoll_fr ..) rfl rfl
  | outboundAck => exact keepsBy (execOutboundAck_fr ..) rfl fun h => access h
  | outboundTimeout => exact keeps (execOutboundTimeout_fr ..) rfl rfl
  | mbxLockRead => exact keepsBy (execMbxLockRead_fr ..) rfl fun h => access h
  | mbxLockWrite => exact keepsBy (execMbxLockWrite_fr ..) rfl fun h => access h
  | mbxSend => exact keepsBy (execMbxSend_fr ..) rfl fun h => mbxSendReq h
  | mbxSendComplete => exact keepsBy (execMbxSendComplete_fr ..) rfl fun h => mbxSendComplete h
  | msgNakTimeout => exact keeps (execMsgNakTimeout_fr ..) rfl rfl
  | mbxRecv => exact keepsBy (execMbxRecv_fr ..) rfl fun h => tackReq (fun _ _ h => tackXfer h) h
  | mbxAck => exact keepsBy (execMbxAck_fr ..) rfl fun h => mbxAck h
  | regRead => exact keepsBy (execRegRead_fr ..) rfl fun h => tackReq (fun _ _ h => tackXfer h) h
  | regWrite => exact keepsBy (execRegWrite_fr ..) rfl fun h => regWrite h
  | regWriteFixed => exact keepsBy (execRegWriteFixed_fr ..) rfl fun h => regWriteFixed h
  | queueSelect => exact keeps (execQueueSelect_fr ..) rfl rfl
  | ep1Report => exact keeps (execEp1Report_fr ..) rfl rfl
  | ep2PacketAck => exact keeps (execEp2PacketAck_fr ..) rfl rfl
  | ep3BulkData => exact keeps (execEp3BulkData_fr ..) rfl rfl
  | i2cWrite => exact keepsBy (execI2cWrite_fr ..) rfl fun h => sideAccess (fun _ h => sideWrite h) h
  | i2cRead => exact keepsBy (execI2cRead_fr ..) rfl fun h => sideAccess (fun _ h => sideXfer h) h
  | smbusAlertResponse => exact keeps (execSmbusAlertResponse_fr ..) rfl rfl
  | spiWrite => exact keepsBy (execSpiWrite_fr ..) rfl fun h => sideAccess (fun _ h => sideWrite h) h
  | spiRead => exact keepsBy (execSpiRead_fr ..) rfl fun h => sideAccess (fun _ h => sideXfer h) h
  | spiStatus => exact keeps (execSpiStatus_fr ..) rfl rfl
  | sidebandStallTimeout => exact keeps (execSidebandStallTimeout_fr ..) rfl rfl
  | info => exact keepsBy (execInfo_fr ..) rfl fun h => command h
  | modeGet => exact keepsBy (execModeGet_fr ..) rfl fun h => command h
  | portStatus => exact keepsBy (execPortStatus_fr ..) rfl fun h => command h
  | portPower => exact keepsBy (execPortPower_fr ..) rfl fun h => command h
  | portPowerCycleRelease => exact keeps (execPortPowerCycleRelease_fr ..) rfl rfl
  | pdStatus => exact keepsBy (execPdStatus_fr ..) rfl fun h => command h
  | pdPolicy => exact keepsBy (execPdPolicy_fr ..) rfl fun h => command h
  | sourceCapsSet => exact keepsBy (execSourceCapsSet_fr ..) rfl fun h => command h
  | tlmRead => exact keepsBy (execTlmRead_fr ..) rfl fun h => command h
  | energyRead => exact keepsBy (execEnergyRead_fr ..) rfl fun h => command h
  | budgetSet => exact keepsBy (execBudgetSet_fr ..) rfl fun h => command h
  | fabricStatus => exact keepsBy (execFabricStatus_fr ..) rfl fun h => command h
  | fabricReseed => exact keepsBy (execFabricReseed_fr ..) rfl fun h => command h
  | queueConfig => exact keepsBy (execQueueConfig_fr ..) rfl fun h => command h
  | pmuConfig => exact keepsBy (execPmuConfig_fr ..) rfl fun h => command h
  | faultStatus => exact keepsBy (execFaultStatus_fr ..) rfl fun h => command h
  | faultClear => exact keepsBy (execFaultClear_fr ..) rfl fun h => command h
  | dumpRead => exact keepsBy (execDumpRead_fr ..) rfl fun h => command h
  | sessionOpen => exact keepsBy (execSessionOpen_fr ..) rfl fun h => command h
  | sessionClose => exact keepsBy (execSessionClose_fr ..) rfl fun h => command h
  | sessionIdleTimeout => exact keeps (execSessionIdleTimeout_fr ..) rfl rfl
  | regPeek => exact keepsBy (execRegPeek_fr ..) rfl fun h => command h
  | regPoke => exact keepsBy (execRegPoke_fr ..) rfl fun h => command h
  | timelineAdd => exact keepsBy (execTimelineAdd_fr ..) rfl fun h => command h
  | timelineDel => exact keepsBy (execTimelineDel_fr ..) rfl fun h => command h
  | queueRecordWrite => exact keeps (execQueueRecordWrite_fr ..) rfl rfl
  | queueDataRead => exact keepsBy (execQueueDataRead_fr ..) rfl fun h => access h
  | queueReadStallTimeout => exact keeps (execQueueReadStallTimeout_fr ..) rfl rfl
  | queueTimeout => exact keeps (execQueueTimeout_fr ..) rfl rfl
  | queueReset => exact keepsBy (execQueueReset_fr ..) rfl fun h => access h
  | pmuClear => exact keepsBy (execPmuClear_fr ..) rfl fun h => access h
  | faultRaised => exact keeps (execFaultRaised_fr ..) rfl rfl
  | fltClearWrite => exact keepsBy (execFltClearWrite_fr ..) rfl fun h => access h
  | forceFault => exact keepsBy (execForceFault_fr ..) rfl fun h => access h
  | checkerInvert => exact keepsBy (execCheckerInvert_fr ..) rfl fun h => access h
  | selfCheck => exact keeps (execSelfCheck_fr ..) rfl rfl
  | watchdogExpire => exact keeps (execWatchdogExpire_fr ..) rfl rfl
  | mgtException => exact keeps (execMgtException_fr ..) rfl rfl
  | managementRestartDone => exact keeps (execManagementRestartDone_fr ..) rfl rfl
  | dumpWrite => exact keeps (execDumpWrite_fr ..) rfl rfl
  | dumpFlashDone => exact keeps (execDumpFlashDone_fr ..) rfl rfl
  | expertKeyWrite => exact keepsBy (execExpertKeyWrite_fr ..) rfl fun h => access h
  | registerWrite => exact keepsBy (execRegisterWrite_fr ..) rfl fun h => access h
  | jtagTapLeaveTestLogicReset => exact keeps (execJtagTapLeaveTestLogicReset_fr ..) rfl rfl
  | seatInputChange => exact keeps (execSeatInputChange_fr ..) rfl rfl
  | sinkAttach => exact keeps (execSinkAttach_fr ..) rfl rfl
  | acceptReceived => exact keeps (execAcceptReceived_fr ..) rfl rfl
  | uspLgoReceived => exact keeps (execUspLgoReceived_fr ..) rfl rfl
  | standardDeviceRequest => exact keeps (execStandardDeviceRequest_fr ..) rfl rfl
  | rxDetectPartnerFound => exact keeps (execRxDetectPartnerFound_fr ..) rfl rfl
  | carryReceiverActivity k => exact keeps (execCarryReceiverActivity_fr k _) rfl rfl
  | isolatedHelloTimer => exact keeps (execIsolatedHelloTimer_fr ..) rfl rfl
  | linkNopReceived => exact keeps (execLinkNopReceived_fr ..) rfl rfl
  | vdpSrcDetected => exact keeps (execVdpSrcDetected_fr ..) rfl rfl

end Sys2Proof.Machine

/-!
# The obligations of the scope (R3, R6, R7)
-/
namespace Sys2Proof.Machine

/-! ## The ticks of the yards (R6) -/

/-- Every command keeps the ticks of the yards in range. -/
theorem exec_keepsTicks {i : Instr} {s t : State} (h : exec i s = .next t) (hs : s.Ticks) : t.Ticks := by
  by_cases hi : i = .otpWriteDone
  · subst hi
    obtain ⟨u, e, k⟩ := execOtpWriteDone_fr s
    cases e.symm.trans h
    exact k.ticks rfl hs
  · obtain ⟨u, e, k⟩ := exec_keeps i hi s
    cases e.symm.trans h
    exact k.ticks hs

/-- So does every step. -/
theorem step_keepsTicks {s t : State} (h : step s = .next t) (hs : s.Ticks) : t.Ticks := by
  unfold step at h
  split at h
  · cases h
    exact hs.tick
  next rest _ => exact exec_keepsTicks h (show State.Ticks { s with pending := rest } from ⟨hs.ok⟩)

/-- A yard put at a number of ticks, as it then stands. -/
theorem vat_yardSet_same (s : State) {y : Nat} (k : Nat) (hy : y < 5) :
    vat (s.yardSet y k).yards y = { vat s.yards y with iv := k / 25000, tick := k % 25000 } := by
  simp [State.yardSet, State.yardMod, vmod, vat_vset, hy]

/-- Settles O6: every step keeps `State.Ticks`, and a yard put at a number of ticks holds its quotient and remainder by 25,000. -/
theorem stepKeepsYardTicks : Obligations.StepKeepsYardTicks := by
  unfold Obligations.StepKeepsYardTicks
  refine ⟨fun s t hs h => (step_keepsTicks h ⟨hs⟩).ok, fun s y k hy => ?_⟩
  rw [State.yticks, vat_yardSet_same s k hy]
  exact ⟨Nat.div_add_mod' k 25000, Nat.mod_lt _ (by decide)⟩

/-! ## OTP (R3, R66) -/

/-- A write of OTP blows a revocation fuse or a floor word, and leaves the unique id. -/
theorem Otp.put_uid (o : Otp) (w : OtpWrite) : (o.put w).uid = o.uid := by
  cases w with
  | revoke => rfl
  | floor => dsimp only [Otp.put]; split <;> rfl

theorem Otp.put_keys (o : Otp) (w : OtpWrite) : (o.put w).keys = o.keys := by
  cases w with
  | revoke => rfl
  | floor => dsimp only [Otp.put]; split <;> rfl

/-- OTP_WRITE_DONE makes at most one of the writes that wait. -/
theorem otpWriteDone_otp {s t : State} (h : exec .otpWriteDone s = .next t) : t.otp = s.otp ∨ ∃ w, t.otp = s.otp.put w := by
  have e : execOtpWriteDone s = .next t := h
  unfold execOtpWriteDone State.when at e
  cases e
  dsimp only
  split
  · split
    · exact .inl rfl
    · split
      · exact .inr ⟨.revoke _, rfl⟩
      · exact .inr ⟨.floor _, rfl⟩
  · exact .inl rfl

/-- Settles O8: no other command's frame names OTP, and a write of it touches neither the unique id nor the keys. -/
theorem otpChangesOnlyByItsWrites : Obligations.OtpChangesOnlyByItsWrites := by
  unfold Obligations.OtpChangesOnlyByItsWrites
  intro i s t h
  by_cases hi : i = .otpWriteDone
  · subst hi
    obtain e | ⟨w, e⟩ := otpWriteDone_otp h
    · exact ⟨by rw [e], by rw [e], fun hi => absurd rfl hi⟩
    · exact ⟨by rw [e, Otp.put_uid], by rw [e, Otp.put_keys], fun hi => absurd rfl hi⟩
  · obtain ⟨u, e, k⟩ := exec_keeps i hi s
    cases e.symm.trans h
    exact ⟨by rw [k.otp], by rw [k.otp], fun _ => k.otp⟩

/-! ## A late tick in TIMELINE_ADD (R7, R324) -/

/-- A chip in SERVICE whose Dwezel runs, with channel 2 open to TIMELINE_ADD and counter 0 counting the mailbox messages consumed
(event 0x13 of R324) on every channel. -/
def countingMessages : State :=
  (State.reset.bootMod fun b => { b with held := 0 }).fields
    [(TOP_MODE.MODE, 3), (PLN_STATUS.SOURCE, 1), (MBX_ASSIGN.PARTY 2, 6), (OBS_PMU_EVT.EVENT 0, 0x13), (OBS_PMU_EVT.FILTER 0, 0xFF),
     (OBS_PMU_EVT.ENABLE 0, 1)]

/-- TIMELINE_ADD with a time whose tick is 25,000. -/
def lateAdd : List Word := [0xA0#32, 0#32, 25000#32, 0#32, 0#32, 0#32]

theorem exec_timelineAdd (c : Fin 12) (seq : Fin 16) (words : List Word) (s : State) :
    exec (.timelineAdd c seq words) s = .next (s.command 0xA0 c seq words) := rfl

/-- The counter counts the request as Dwezel consumes it. -/
theorem lateAdd_counted {t : State} (h : exec (.timelineAdd 2 1 lateAdd) countingMessages = .next t) :
    t.g (OBS_PMU_LO.COUNT_LO 0) = 1 := by
  rw [exec_timelineAdd] at h
  rw [← Host.Outcome.next.inj h]
  decide +kernel

/-- The answer alone does not. -/
theorem lateAdd_answer_uncounted :
    ((countingMessages.noted (countingMessages.ask 2 1 lateAdd)).reply (countingMessages.ask 2 1 lateAdd) rBADARG).g
      (OBS_PMU_LO.COUNT_LO 0) = 0 := by decide +kernel

/-- Refutes O11: its second clause says that TIMELINE_ADD with a late tick leaves the state the BAD_ARG answer alone leaves. Where
a counter counts the messages consumed (R324), it has counted this one too. -/
theorem not_lateTicksAreRefused : ¬ Obligations.LateTicksAreRefused := by
  unfold Obligations.LateTicksAreRefused
  rintro ⟨-, hadd, -⟩
  obtain ⟨t, h, ht, -⟩ := hadd 2 1 lateAdd countingMessages (by decide) (by decide +kernel) (by decide +kernel)
  have hone := lateAdd_counted h
  have hzero := lateAdd_answer_uncounted
  rw [ht] at hone
  exact absurd (hone.symm.trans hzero) (by decide)

end Sys2Proof.Machine

/-!
# The order of the flash slots (R60 to R62, R74)
-/
namespace Sys2Proof.Machine

/-! ## Step 5 of the boot -/

theorem State.bootAt_iff (s : State) (n : Nat) :
    s.bootAt n = true ↔ s.boot.held = 0 ∧ s.mode = 0 ∧ s.g TOP_MODE.BOOT_STEP = n := by
  simp [State.bootAt, and_assoc]

/-- What changes neither the boot's part of the state nor TOP_MODE leaves the boot at its step. -/
theorem Fr.bootAt {m b : Nat} {s t : State} (h : Fr m b s t) (hm : m.testBit 13 = false) (hb : b.testBit 184 = false)
    (hany : b.testBit 196 = false) (n : Nat) : t.bootAt n = s.bootAt n := by
  have hboot : t.boot = s.boot := h.part .boot hm
  have hmode (f : Fld) (hf : f.addr = TOP_MODE.addr) : t.g f = s.g f := by rw [State.g, State.g, hf, TOP_MODE.kept h hb hany]
  rw [State.bootAt, State.bootAt, State.mode, State.mode, hboot, hmode _ rfl, hmode _ rfl]

theorem bootStep_ok : TOP_MODE.BOOT_STEP.ok := by unfold Fld.ok; decide

/-- A boot goes on to the step that BOOT_STEP is given. -/
theorem State.bootAt_p_bootStep {s : State} {n k : Nat} (h : s.bootAt n = true) (hk : k < 16) :
    (s.p TOP_MODE.BOOT_STEP k).bootAt k = true := by
  obtain ⟨hheld, hmode, -⟩ := (s.bootAt_iff n).1 h
  refine (State.bootAt_iff _ k).2 ⟨hheld, ?_, ?_⟩
  · rw [← hmode]
    exact g_p_disj s k bootStep_ok (.inl (by decide))
  · rw [g_p_same s k bootStep_ok]
    exact Nat.mod_eq_of_lt hk

/-- While a slot remains to be tried, the loader stays at step 5. -/
theorem State.nextSlot_of_order {s : State} (h : s.pln.order ≠ []) : s.nextSlot = s.p TOP_MODE.BOOT_STEP 5 := by
  rw [State.nextSlot, if_neg (by simpa using h)]

/-! ## What the loader reads from the commit pages -/

/-- The commit page of a valid slot is correct (R60). -/
theorem SlotF.pageOk_of_valid {x : SlotF} (h : x.valid = true) : pageOk x.page = true := by
  simp only [SlotF.valid, SlotF.headerOk, Bool.and_eq_true] at h
  obtain ⟨⟨⟨⟨⟨hpage, -⟩, -⟩, -⟩, -⟩, -⟩ := h
  exact hpage

/-- The SEQ of each of the slots read is shown in PLN_SLOT_SEQ. -/
def State.showSeqs (s : State) (l : List Nat) : State :=
  s.each l fun k t => t.p (PLN_SLOT_SEQ.SEQ k) (pageSeq (s.slotF k).page)

theorem State.showSeqs_fr (s : State) (l : List Nat) : Fr 0 32 s (s.showSeqs l) :=
  Fr.each (fun _ _ h => h.p (PLN_SLOT_SEQ.reg rfl)) (Fr.refl 0 32 s)

/-- The loader's order where both commit pages are correct (R61, R62): slot B is tried first only for a SEQ above slot A's. -/
def State.slotOrder (s : State) : List Nat :=
  if pageSeq (s.slotF 0).page < pageSeq (s.slotF 1).page then [1, 0] else [0, 1]

theorem State.slotOrder_ne_nil (s : State) : s.slotOrder ≠ [] := by
  unfold State.slotOrder
  split <;> exact List.cons_ne_nil _ _

theorem State.slotOrder_of_seq_eq {s : State} (h : pageSeq (s.slotF 0).page = pageSeq (s.slotF 1).page) :
    s.slotOrder = [0, 1] := if_neg (by rw [h]; exact lt_irrefl _)

/-- The state once both commit pages are read and the slots are put in order. -/
def State.slotsOrdered (s : State) (four : Bool) : State :=
  (s.showSeqs [0, 1]).plnMod fun x => { x with order := s.slotOrder, fourByte := four }

theorem State.slotsOrdered_order (s : State) (four : Bool) : (s.slotsOrdered four).pln.order = s.slotOrder := rfl

theorem State.slotsOrdered_bootAt (s : State) (four : Bool) (n : Nat) : (s.slotsOrdered four).bootAt n = s.bootAt n :=
  have h : Fr 4096 32 s (s.slotsOrdered four) :=
    Fr.step (State.plnMod_fr ..) rfl rfl (Fr.step (s.showSeqs_fr _) rfl rfl (Fr.refl 4096 32 s))
  h.bootAt rfl rfl rfl n

/-- FLASH_BUSY_POLL_END where the flash answers and both commit pages are correct. -/
theorem exec_flashBusyPollEnd_of_pagesOk {s : State} {four : Bool} (hboot : s.bootAt 5 = true) (hsrc : s.g TOP_STRAP.BOOTSRC = 0)
    (horder : s.pln.order = []) (hA : pageOk (s.slotF 0).page = true) (hB : pageOk (s.slotF 1).page = true) :
    exec (.flashBusyPollEnd true four) s = .next ((s.slotsOrdered four).p TOP_MODE.BOOT_STEP 5) := by
  have hgood : ([0, 1].filter fun k => pageOk (s.slotF k).page) = [0, 1] := by simp [hA, hB]
  rw [← State.nextSlot_of_order (s.slotsOrdered_order four ▸ s.slotOrder_ne_nil)]
  change execFlashBusyPollEnd true four s = _
  simp [execFlashBusyPollEnd, State.when, hboot, hsrc, horder, hgood, State.slotsOrdered, State.showSeqs, State.slotOrder]

/-! ## The SEQ of the next commit -/

/-- A running maximum reaches every value it ran over. -/
theorem le_foldl_max {α : Type} (f : α → Nat) {x : α} :
    ∀ (l : List α) (a : Nat), x ∈ l → f x ≤ l.foldl (fun m y => max m (f y)) a
  | y :: t, a, h => by
    obtain rfl | h := List.mem_cons.1 h
    · exact foldl_keeps (P := (f x ≤ ·)) (fun _ _ h => le_max_of_le_left h) t _ (le_max_right a (f x))
    · exact le_foldl_max f t _ h

/-- SEQ of the next commit is above that of every valid slot (R74). -/
theorem State.pageSeq_lt_nextSeq {s : State} {k : Nat} (hk : k < 2) (h : (s.slotF k).valid = true) :
    pageSeq (s.slotF k).page < s.nextSeq :=
  Nat.lt_succ_of_le (le_foldl_max (fun k => pageSeq (s.slotF k).page) _ 0 (List.mem_filter.2 ⟨List.mem_range.2 hk, h⟩))

/-- Settles O10: with equal SEQ the loader's order is slot A, then slot B, and the SEQ of the next commit is above that of each valid
slot. This SEQ is `State.nextSeq`, the sum of R74, which has no bound; a commit page holds its low 32 bits (`commitPage`). -/
theorem equalSlotsTrySlotA : Obligations.EqualSlotsTrySlotA := by
  unfold Obligations.EqualSlotsTrySlotA
  refine ⟨fun s hboot hsrc horder hA hB hseq four => ?_, fun s k hk h => s.pageSeq_lt_nextSeq hk h⟩
  refine ⟨_, exec_flashBusyPollEnd_of_pagesOk hboot hsrc horder (SlotF.pageOk_of_valid hA) (SlotF.pageOk_of_valid hB), ?_, ?_⟩
  · rw [State.p_pln, s.slotsOrdered_order, State.slotOrder_of_seq_eq hseq]
  · exact State.bootAt_p_bootStep ((s.slotsOrdered_bootAt four 5).trans hboot) (by decide)

end Sys2Proof.Machine

/-!
# A basic-level access to a resting domain (R268)
-/
namespace Sys2Proof.Machine

/-! ## The domain of a register -/

theorem Dom.id_lt (d : Dom) : d.id < 12 := by cases d <;> decide

theorem portDom_lt {n : Nat} (h : n < 17) : portDom n < 12 := by unfold portDom; split <;> omega

theorem laneDom_lt (i : Nat) : laneDom i < 12 := by unfold laneDom; split_ifs <;> omega

/-- An address that names a row names one of its elements. -/
theorem RegRow.index_lt {r : RegRow} {a : Nat} (h : r.covers a = true) : r.index a < r.count := by
  simp only [RegRow.covers, Bool.and_eq_true, decide_eq_true_eq] at h
  obtain ⟨⟨⟨-, hi⟩, -⟩, -⟩ := h
  exact hi

/-- A row whose domain goes by its elements' number has at most one for each of the 17 ports, or of the two upstream ports. -/
def RegRow.countOk (r : RegRow) : Bool :=
  match r.dom with
  | .byStall => decide (r.count ≤ 17)
  | .byUp => decide (r.count ≤ 2)
  | _ => true

theorem rowsOfBlock_countOk : ∀ b, (rowsOfBlock b).all RegRow.countOk = true := by
  have hlow : ∀ b < 22, (rowsOfBlock b).all RegRow.countOk = true := by decide +kernel
  intro b
  by_cases h : b < 22
  · exact hlow b h
  · obtain ⟨k, rfl⟩ := Nat.exists_eq_add_of_le (not_lt.1 h)
    rw [Nat.add_comm]
    rfl

theorem rowOf_eq_some {a : Nat} {r : RegRow} (h : rowOf a = some r) : r.countOk = true ∧ r.covers a = true := by
  unfold rowOf at h
  exact ⟨List.all_eq_true.1 (rowsOfBlock_countOk _) r (List.mem_of_find?_eq_some h), by simpa using List.find?_some h⟩

/-- The domain of a register is one of the twelve (R35, R365). -/
theorem addrDom_lt (a : Nat) : addrDom a < 12 := by
  unfold addrDom
  split
  · decide
  · next r h =>
    obtain ⟨hcount, hcov⟩ := rowOf_eq_some h
    have hi := RegRow.index_lt hcov
    unfold RegRow.countOk at hcount
    cases hd : r.dom with
    | one d => exact d.id_lt
    | byLane => exact laneDom_lt _
    | byStall =>
      simp only [hd, decide_eq_true_eq] at hcount
      exact portDom_lt (by omega)
    | byUp =>
      simp only [hd, decide_eq_true_eq] at hcount
      dsimp only
      split <;> omega

/-- PDC_CTRL is a register of AON, which is always ON. -/
theorem State.domOn_pdcCtrl (s : State) : s.domOn (addrDom PDC_CTRL.addr) = true := by
  rw [show addrDom PDC_CTRL.addr = 0 by decide +kernel]
  rfl

/-! ## What the hardware's set of a W1C field shows -/

theorem word_hwOr_ne (s : State) {f : Fld} {a : Nat} (v : Nat) (h : a ≠ f.addr) : (s.hwOr f v).word a = s.word a := word_p_ne s _ h

theorem g_hwOr_same (s : State) {f : Fld} (v : Nat) (h : f.ok) : (s.hwOr f v).g f = (s.g f ||| v) % 2 ^ f.width := g_p_same s _ h

theorem g_hwOr_disj (s : State) {f f' : Fld} (v : Nat) (h : f.ok) (hd : f'.lo + f'.width ≤ f.lo ∨ f.lo + f.width ≤ f'.lo) :
    (s.hwOr f v).g f' = s.g f' := g_p_disj s _ h hd

/-- A one-bit field that the hardware sets reads 1. -/
theorem on_hw_same (s : State) {f : Fld} (h : f.ok) (hw : f.width = 1) : (s.hw f).on f = true := by
  rw [State.on, State.hw, g_hwOr_same s 1 h, hw, pow_one, ← Nat.and_one_is_mod]
  simp

/-- The marks of R268: SLEEP_ACCESS and the domain's bit of SLEEP_DOM. -/
def State.sleepMarked (s : State) (d : Nat) : State := (s.hw PDC_STICKY.SLEEP_ACCESS).hwOr PDC_STICKY.SLEEP_DOM (2 ^ d)

theorem sleepAccess_ok : PDC_STICKY.SLEEP_ACCESS.ok := by unfold Fld.ok; decide
theorem sleepDom_ok : PDC_STICKY.SLEEP_DOM.ok := by unfold Fld.ok; decide

/-- No part of the state changes, and of the registers PDC_STICKY alone. -/
theorem State.sleepMarked_fr (s : State) (d : Nat) : Fr 0 (2 ^ 132) s (s.sleepMarked d) :=
  have hreg : HasReg (2 ^ 132) PDC_STICKY.addr := PDC_STICKY.reg (Nat.testBit_two_pow_self ..)
  Fr.hwOr hreg (Fr.hw hreg (Fr.refl 0 _ s))

theorem State.sleepMarked_word {s : State} {a : Nat} (d : Nat) (h : a ≠ PDC_STICKY.addr) : (s.sleepMarked d).word a = s.word a := by
  rw [State.sleepMarked, word_hwOr_ne _ _ h, State.hw, word_hwOr_ne _ _ h]

theorem State.sleepMarked_access (s : State) (d : Nat) : (s.sleepMarked d).on PDC_STICKY.SLEEP_ACCESS = true := by
  rw [State.sleepMarked, State.on, g_hwOr_disj _ _ sleepDom_ok (.inl (by decide))]
  exact on_hw_same s sleepAccess_ok rfl

theorem State.sleepMarked_dom (s : State) {d : Nat} (h : d < 12) :
    bitOf ((s.sleepMarked d).g PDC_STICKY.SLEEP_DOM) d = true := by
  rw [State.sleepMarked, g_hwOr_same _ _ sleepDom_ok, bitOf, Nat.testBit_mod_two_pow, Nat.testBit_or, Nat.testBit_two_pow_self]
  simp [PDC_STICKY.SLEEP_DOM, h]

/-! ## An access in its turn (R372) -/

theorem foldl_eq_of_forall_mem {α β : Type} {f : β → α → β} {b : β} : ∀ {l : List α}, (∀ x ∈ l, f b x = b) → l.foldl f b = b
  | [], _ => rfl
  | x :: t, h => by
    rw [List.foldl_cons, h x List.mem_cons_self]
    exact foldl_eq_of_forall_mem fun y hy => h y (List.mem_cons_of_mem x hy)

section
variable {s t : State} {m a : Nat} {data : Option Word}

/-- In a master's turn an access of a lower master that waits is to another block. -/
theorem State.turn_pending (h : s.turn m a = true) {c : Instr} (hc : c ∈ s.pending) {k b : Nat} {d : Option Word}
    (he : s.accessOf c = some (k, b, d)) (hk : k < m) : b / 0x10000 ≠ a / 0x10000 := by
  rw [State.turn, Bool.and_eq_true] at h
  have := List.all_eq_true.1 h.1 c hc
  rw [he] at this
  simpa [hk] using this

/-- In a master's turn its access has not been served ahead of its command. -/
theorem State.turn_marks (h : s.turn m a = true) : s.marks.contains (.served m a) = false := by
  rw [State.turn, Bool.and_eq_true] at h
  rw [List.contains_eq_mem, decide_eq_false_iff_not]
  intro hmem
  simpa using List.all_eq_true.1 h.2 _ hmem

theorem State.lowerFirst_of_turn (h : s.turn m a = true) : s.lowerFirst m a = s := by
  refine foldl_eq_of_forall_mem fun k hk => ?_
  dsimp only
  rw [foldl_eq_of_forall_mem]
  intro c hc
  split
  · next x b d he =>
    refine if_neg fun hx => ?_
    simp only [Bool.and_eq_true, decide_eq_true_eq] at hx
    exact State.turn_pending h hc he (hx.1 ▸ List.mem_range.1 hk) hx.2
  · rfl

/-- An aligned access of no sideband target, in its turn, is made at once. -/
theorem State.access_of_turn (h : s.turn m a = true) (h6 : m ≠ 6) (h7 : m ≠ 7) (ha : a % 4 = 0) :
    s.access m a data = s.accessNow m a data := by
  rw [State.access, State.turn_marks h, State.lowerFirst_of_turn h]
  simp [State.accessOne, h6, h7, ha]

/-- The output of a plain access that ends: a read's word. -/
def State.answered (t : State) (m : Nat) (data : Option Word) (w : Word) : State := if data.isNone then t.out (.read m [w]) else t

/-- Where no transfer of the master waits, an access that ends is answered at once. -/
theorem State.accessNow_of_done {w : Word} (hs : s.stalls m = false) (h : s.oneAccess m a data = .done (some w) t) :
    s.accessNow m a data = t.answered m data w := by
  have hr : State.runAccs m [(a, data)] [] s = ([], if data.isNone then [some w] else [], t) := by
    rw [State.runAccs, h]
    rfl
  cases data <;> simp [State.accessNow, State.startXfer, hs, State.runXfer, hr, State.finishXfer, State.answered, State.when]

/-! ## The checks that a basic-level access to a resting domain meets (R373) -/

/-- Checks 1 to 3 pass: the domain decides. -/
theorem State.gate_of_basic {write : Bool} {r : RegRow} (hm : s.masterHere m = true) (h15 : m ≠ 15) (hrow : rowOf a = some r)
    (hbasic : r.expert = false) (hw : write = true → s.mayWrite m a = true) : s.gate m a write = s.domGate m a := by
  cases write with
  | false => simp [State.gate, hm, h15, hrow, hbasic]
  | true => simp [State.gate, hm, hrow, hbasic, hw]

/-- Check 4 fails as R268 has it. -/
theorem State.domGate_of_resting (hpage : s.holdsPage m = false) (hdom : s.domOn (addrDom a) = false) :
    s.domGate m a = .fail 0x0FF00FF0 (s.sleepMarked (addrDom a)) := by
  simp [State.domGate, hpage, hdom, State.sleepMarked]

/-- A read ends with the word of R268, and a write is dropped: the register is none that a refused write still reaches, for PDC_CTRL
is in AON. -/
theorem State.oneAccess_of_resting (hgate : s.gate m a data.isSome = s.domGate m a) (hpage : s.holdsPage m = false)
    (hdom : s.domOn (addrDom a) = false) :
    s.oneAccess m a data = .done (some 0x0FF00FF0) (s.sleepMarked (addrDom a)) := by
  have hctrl : a ≠ PDC_CTRL.addr := by
    rintro rfl
    exact absurd (s.domOn_pdcCtrl.symm.trans hdom) (by decide)
  rw [State.oneAccess, hgate, State.domGate_of_resting hpage hdom]
  cases data <;> simp [hctrl]

end

theorem exec_restingDomainAccess (m : Fin 16) (addr : BitVec 32) (data : Option (BitVec 32)) (s : State) :
    exec (.restingDomainAccess m addr data) s = .next (s.access m addr.toNat data) := rfl

/-- Settles O9: the access comes to the domain's check, which marks it and ends it. The state after it is given whole, as
`State.sleepMarked` with a read's word answered. -/
theorem sleepAccess : Obligations.SleepAccess := by
  unfold Obligations.SleepAccess
  intro m addr data s r hm h6 h7 h15 halign hpage hstall hrow hbasic hturn hwrite hdom
  have hdone := State.oneAccess_of_resting (State.gate_of_basic hm h15 hrow hbasic hwrite) hpage hdom
  refine ⟨(s.sleepMarked (addrDom addr.toNat)).answered m data 0x0FF00FF0, ?_, ?_⟩
  · rw [exec_restingDomainAccess, State.access_of_turn hturn h6 h7 halign, State.accessNow_of_done hstall hdone]
  have hsame (p : Part) : p.same s (s.sleepMarked (addrDom addr.toNat)) := (s.sleepMarked_fr _).part p (Nat.zero_testBit _)
  cases data with
  | none =>
    exact ⟨fun _ => rfl, nofun, s.sleepMarked_access _, s.sleepMarked_dom (addrDom_lt _), fun a h => State.sleepMarked_word _ h,
      fun p => same_trans (hsame p) (same_refl _ p)⟩
  | some w =>
    exact ⟨nofun, fun _ => rfl, s.sleepMarked_access _, s.sleepMarked_dom (addrDom_lt _), fun a h => State.sleepMarked_word _ h, hsame⟩

end Sys2Proof.Machine

/-!
# Every command answers a next state, within its frame
-/
namespace Sys2Proof.Machine

-- One proof at a time, here and below: elaborated side by side, the proofs of so long a text need more memory than the check has.
set_option Elab.async false

/-! ## Frames as lists and as masks -/

/-- The parts of a list as a mask. -/
def partsMask (ps : List Part) : Nat := ps.foldr (fun p m => 2 ^ p.ctorIdx ||| m) 0

/-- The registers of a list as a mask. -/
def regsMask (rs : List Reg) : Nat := rs.foldr (fun r b => 2 ^ r.ctorIdx ||| b) 0

theorem partsMask_testBit {p : Part} : ∀ {ps : List Part}, (partsMask ps).testBit p.ctorIdx = true → p ∈ ps
  | [], h => absurd ((Nat.zero_testBit _).symm.trans h) Bool.noConfusion
  | q :: ps, h => by
    rw [partsMask, List.foldr_cons, Nat.testBit_or, Bool.or_eq_true, Nat.testBit_two_pow, decide_eq_true_eq] at h
    obtain h | h := h
    · rw [← Part.ofNat_ctorIdx p, ← h, Part.ofNat_ctorIdx]
      exact List.mem_cons_self
    · exact List.mem_cons_of_mem _ (partsMask_testBit h)

theorem regsMask_testBit {r : Reg} : ∀ {rs : List Reg}, (regsMask rs).testBit r.ctorIdx = true → r ∈ rs
  | [], h => absurd ((Nat.zero_testBit _).symm.trans h) Bool.noConfusion
  | q :: rs, h => by
    rw [regsMask, List.foldr_cons, Nat.testBit_or, Bool.or_eq_true, Nat.testBit_two_pow, decide_eq_true_eq] at h
    obtain h | h := h
    · rw [← Reg.ofNat_ctorIdx r, ← h, Reg.ofNat_ctorIdx]
      exact List.mem_cons_self
    · exact List.mem_cons_of_mem _ (regsMask_testBit h)

section
variable {m b : Nat} {ps : List Part} {rs : List Reg} {r : Res} {s t : State}

theorem Fr.same_of_notMem (h : Fr m b s t) (hm : (m ||| partsMask ps == partsMask ps) = true) {p : Part} (hp : p ∉ ps) :
    p.same s t := by
  refine h.part p (Bool.eq_false_iff.2 fun hb => hp (partsMask_testBit ?_))
  rw [← orDec hm, Nat.testBit_or, hb, Bool.true_or]

/-- A frame by masks is one by lists that hold the parts and the registers of the masks. -/
theorem Fr.frame (h : Fr m b s t) (hm : (m ||| partsMask ps == partsMask ps) = true)
    (hb : (b ||| regsMask rs == regsMask rs) = true) : Frame ps rs s t := by
  refine ⟨fun p => h.same_of_notMem hm, fun a ha => h.word a ?_, h.pending, h.cycle, h.outs, h.wf⟩
  rintro ⟨q, hq, hqa⟩
  exact ha q (regsMask_testBit (by rw [← orDec hb, Nat.testBit_or, hq, Bool.true_or])) hqa

/-- Where any register may change, a frame speaks of the parts. -/
theorem Fr.frameAny (h : Fr m b s t) (hm : (m ||| partsMask ps == partsMask ps) = true) : Frame ps [.any] s t :=
  ⟨fun _ => h.same_of_notMem hm, fun _ ha => absurd trivial (ha _ List.mem_cons_self), h.pending, h.cycle, h.outs, h.wf⟩

/-- The frame of a command that answers t. -/
theorem frameOf (hf : ∃ u, r = .next u ∧ Fr m b s u) (hm : (m ||| partsMask ps == partsMask ps) = true)
    (hb : (b ||| regsMask rs == regsMask rs) = true) (h : r = .next t) : Frame ps rs s t := by
  obtain ⟨u, e, k⟩ := hf
  cases e.symm.trans h
  exact k.frame hm hb

theorem frameAnyOf (hf : ∃ u, r = .next u ∧ Fr m b s u) (hm : (m ||| partsMask ps == partsMask ps) = true)
    (h : r = .next t) : Frame ps [.any] s t := by
  obtain ⟨u, e, k⟩ := hf
  cases e.symm.trans h
  exact k.frameAny hm

/-! ## What every command keeps -/

/-- What holds of every command's answer: the waiting commands and the canonical form of the registers stay, and so does
the plan unless the command is one that may change it. -/
structure Framed (i : Instr) (s t : State) : Prop where
  pending : t.pending = s.pending
  wf : s.wf = true → t.wf = true
  plan : changesPlan i = false → t.plan = s.plan

/-- A command's own frame says so, where it leaves the plan out unless the command may change it. -/
theorem framed {i : Instr} (hf : ∃ u, r = .next u ∧ Fr m b s u) (hp : (changesPlan i || !m.testBit 0) = true) :
    ∃ u, r = .next u ∧ Framed i s u :=
  hf.imp fun _ h => ⟨h.1, h.2.pending, h.2.wf, fun hi => h.2.part .plan (by rw [hi] at hp; exact Bool.not_eq_true' _ |>.mp hp)⟩

end

/-- Every command answers a next state, within its frame. -/
theorem exec_framed (i : Instr) (s : State) : Does i s (Framed i s) := by
  cases i with
  | porAssert => exact framed (execPorAssert_fr ..) rfl
  | porRelease => exact framed (execPorRelease_fr ..) rfl
  | railsInWindow => exact framed (execRailsInWindow_fr ..) rfl
  | railWindowTimeout => exact framed (execRailWindowTimeout_fr ..) rfl
  | crystalReady => exact framed (execCrystalReady_fr ..) rfl
  | crystalNotReady => exact framed (execCrystalNotReady_fr ..) rfl
  | xtalRestartTimer => exact framed (execXtalRestartTimer_fr ..) rfl
  | makerWindowEnd => exact framed (execMakerWindowEnd_fr ..) rfl
  | makerKeyedMessage => exact framed (execMakerKeyedMessage_fr ..) rfl
  | flashBusyPollEnd => exact framed (execFlashBusyPollEnd_fr ..) rfl
  | slotVerifyDone => exact framed (execSlotVerifyDone_fr ..) rfl
  | planActivationDone => exact framed (execPlanActivationDone_fr ..) rfl
  | bootDomainsReady => exact framed (execBootDomainsReady_fr ..) rfl
  | upstreamDataConnect => exact framed (execUpstreamDataConnect_fr ..) rfl
  | resetNAssert => exact framed (execResetNAssert_fr ..) rfl
  | resetNRelease => exact framed (execResetNRelease_fr ..) rfl
  | chipResetRequest => exact framed (execChipResetRequest_fr ..) rfl
  | chipResetBegin => exact framed (execChipResetBegin_fr ..) rfl
  | starterArmed => exact framed (execStarterArmed_fr ..) rfl
  | starterSinkPathClosed => exact framed (execStarterSinkPathClosed_fr ..) rfl
  | starterHoldOffEnd => exact framed (execStarterHoldOffEnd_fr ..) rfl
  | lifelineVinRestored => exact framed (execLifelineVinRestored_fr ..) rfl
  | lifelineHandoverDone => exact framed (execLifelineHandoverDone_fr ..) rfl
  | lifelineExitAbandon => exact framed (execLifelineExitAbandon_fr ..) rfl
  | safeExit => exact framed (execSafeExit_fr ..) rfl
  | planBegin => exact framed (execPlanBegin_fr ..) rfl
  | stagingEraseDone => exact framed (execStagingEraseDone_fr ..) rfl
  | planChunk => exact framed (execPlanChunk_fr ..) rfl
  | planCommit => exact framed (execPlanCommit_fr ..) rfl
  | commitStepDone => exact framed (execCommitStepDone_fr ..) rfl
  | planActivate => exact framed (execPlanActivate_fr ..) rfl
  | activateReplyWaitEnd => exact framed (execActivateReplyWaitEnd_fr ..) rfl
  | memberActivateOrder => exact framed (execMemberActivateOrder_fr ..) rfl
  | otpWriteDone => exact framed (execOtpWriteDone_fr ..) rfl
  | uploadIdleTimeout => exact framed (execUploadIdleTimeout_fr ..) rfl
  | sofReceived => exact framed (execSofReceived_fr ..) rfl
  | itpReceived => exact framed (execItpReceived_fr ..) rfl
  | yardCoast => exact framed (execYardCoast_fr ..) rfl
  | forceCoast => exact framed (execForceCoast_fr ..) rfl
  | snap => exact framed (execSnap_fr ..) rfl
  | yrdNowLoRead => exact framed (execYrdNowLoRead_fr ..) rfl
  | barnTimeBroadcast => exact framed (execBarnTimeBroadcast_fr ..) rfl
  | barnTimeReceived => exact framed (execBarnTimeReceived_fr ..) rfl
  | yardDescriptorReceived => exact framed (execYardDescriptorReceived_fr ..) rfl
  | yardDescriptorTimeout => exact framed (execYardDescriptorTimeout_fr ..) rfl
  | linkDelayProbe => exact framed (execLinkDelayProbe_fr ..) rfl
  | domainWake => exact framed (execDomainWake_fr ..) rfl
  | tlmSample => exact framed (execTlmSample_fr ..) rfl
  | pdKeepalive => exact framed (execPdKeepalive_fr ..) rfl
  | doorbell => exact framed (execDoorbell_fr ..) rfl
  | gpioSet => exact framed (execGpioSet_fr ..) rfl
  | gpioClear => exact framed (execGpioClear_fr ..) rfl
  | fabricHeartbeat => exact framed (execFabricHeartbeat_fr ..) rfl
  | budgetReview => exact framed (execBudgetReview_fr ..) rfl
  | ttPrewake => exact framed (execTtPrewake_fr ..) rfl
  | timelineWakeLead => exact framed (execTimelineWakeLead_fr ..) rfl
  | tmlRead => exact framed (execTmlRead_fr ..) rfl
  | tmlWrite => exact framed (execTmlWrite_fr ..) rfl
  | tmlDelete => exact framed (execTmlDelete_fr ..) rfl
  | tmlEnable => exact framed (execTmlEnable_fr ..) rfl
  | predictorChoice => exact framed (execPredictorChoice_fr ..) rfl
  | observationWindowEnd => exact framed (execObservationWindowEnd_fr ..) rfl
  | burstStart => exact framed (execBurstStart_fr ..) rfl
  | predictionWindowMiss => exact framed (execPredictionWindowMiss_fr ..) rfl
  | downstreamPacket => exact framed (execDownstreamPacket_fr ..) rfl
  | upstreamPacket => exact framed (execUpstreamPacket_fr ..) rfl
  | egressQueueHead => exact framed (execEgressQueueHead_fr ..) rfl
  | portU0Reached => exact framed (execPortU0Reached_fr ..) rfl
  | recoveryHoldExpire => exact framed (execRecoveryHoldExpire_fr ..) rfl
  | lgoReceived => exact framed (execLgoReceived_fr ..) rfl
  | headerCreditReturn => exact framed (execHeaderCreditReturn_fr ..) rfl
  | creditRelease => exact framed (execCreditRelease_fr ..) rfl
  | itpNotice => exact framed (execItpNotice_fr ..) rfl
  | ldmExchange => exact framed (execLdmExchange_fr ..) rfl
  | lpmInactivityTimeout => exact framed (execLpmInactivityTimeout_fr ..) rfl
  | uspLpmInitiate => exact framed (execUspLpmInitiate_fr ..) rfl
  | lfpsDetected => exact framed (execLfpsDetected_fr ..) rfl
  | deviceU3Exit => exact framed (execDeviceU3Exit_fr ..) rfl
  | hostU3Exit => exact framed (execHostU3Exit_fr ..) rfl
  | upstreamU3Entry => exact framed (execUpstreamU3Entry_fr ..) rfl
  | ssLaneLost => exact framed (execSsLaneLost_fr ..) rfl
  | widthChangeStepDone => exact framed (execWidthChangeStepDone_fr ..) rfl
  | carryLost => exact framed (execCarryLost_fr ..) rfl
  | orderReceived => exact framed (execOrderReceived_fr ..) rfl
  | orderReset => exact framed (execOrderReset_fr ..) rfl
  | orderSuspendPort => exact framed (execOrderSuspendPort_fr ..) rfl
  | orderResumePort => exact framed (execOrderResumePort_fr ..) rfl
  | orderBusResumeStart => exact framed (execOrderBusResumeStart_fr ..) rfl
  | orderBusResumeEnd => exact framed (execOrderBusResumeEnd_fr ..) rfl
  | orderTest => exact framed (execOrderTest_fr ..) rfl
  | orderL1Exit => exact framed (execOrderL1Exit_fr ..) rfl
  | portResetEnd => exact framed (execPortResetEnd_fr ..) rfl
  | globalSuspend => exact framed (execGlobalSuspend_fr ..) rfl
  | hostResumeDetected => exact framed (execHostResumeDetected_fr ..) rfl
  | hostResumeEnd => exact framed (execHostResumeEnd_fr ..) rfl
  | portResumeEnd => exact framed (execPortResumeEnd_fr ..) rfl
  | remoteWake => exact framed (execRemoteWake_fr ..) rfl
  | wakeHoldExpire => exact framed (execWakeHoldExpire_fr ..) rfl
  | lpmAck => exact framed (execLpmAck_fr ..) rfl
  | l1Entry => exact framed (execL1Entry_fr ..) rfl
  | deviceL1Exit => exact framed (execDeviceL1Exit_fr ..) rfl
  | hsConnectChange => exact framed (execHsConnectChange_fr ..) rfl
  | babbleDisable => exact framed (execBabbleDisable_fr ..) rfl
  | busReset => exact framed (execBusReset_fr ..) rfl
  | fsUpstreamConnect => exact framed (execFsUpstreamConnect_fr ..) rfl
  | ttSof => exact framed (execTtSof_fr ..) rfl
  | sofFill => exact framed (execSofFill_fr ..) rfl
  | ttPeriodicHold => exact framed (execTtPeriodicHold_fr ..) rfl
  | periodicStartSplit => exact framed (execPeriodicStartSplit_fr ..) rfl
  | nonperiodicStartSplit => exact framed (execNonperiodicStartSplit_fr ..) rfl
  | completeSplit => exact framed (execCompleteSplit_fr ..) rfl
  | ttTransactionEnd => exact framed (execTtTransactionEnd_fr ..) rfl
  | periodicWindowEnd => exact framed (execPeriodicWindowEnd_fr ..) rfl
  | ttEof => exact framed (execTtEof_fr ..) rfl
  | ttaClearBuffer => exact framed (execTtaClearBuffer_fr ..) rfl
  | ttaResetTt => exact framed (execTtaResetTt_fr ..) rfl
  | ttaStopTt => exact framed (execTtaStopTt_fr ..) rfl
  | ttaStart => exact framed (execTtaStart_fr ..) rfl
  | ttaOpDone => exact framed (execTtaOpDone_fr ..) rfl
  | bc12SwitchStart => exact framed (execBc12SwitchStart_fr ..) rfl
  | bc12SwitchWaitEnd => exact framed (execBc12SwitchWaitEnd_fr ..) rfl
  | mirrorRecord => exact framed (execMirrorRecord_fr ..) rfl
  | mirrorSnapshot => exact framed (execMirrorSnapshot_fr ..) rfl
  | statusChangeIn => exact framed (execStatusChangeIn_fr ..) rfl
  | getHubStatus => exact framed (execGetHubStatus_fr ..) rfl
  | getPortStatus => exact framed (execGetPortStatus_fr ..) rfl
  | getPortStatusExt => exact framed (execGetPortStatusExt_fr ..) rfl
  | getHubDescriptor => exact framed (execGetHubDescriptor_fr ..) rfl
  | clearHubFeature _ _ oc => exact framed (execClearHubFeature_fr _ _ oc _) rfl
  | unsupportedHubRequest => exact framed (execUnsupportedHubRequest_fr ..) rfl
  | setPortReset => exact framed (execSetPortReset_fr ..) rfl
  | setPortSuspend => exact framed (execSetPortSuspend_fr ..) rfl
  | clearPortSuspend => exact framed (execClearPortSuspend_fr ..) rfl
  | setPortPower => exact framed (execSetPortPower_fr ..) rfl
  | clearPortPower => exact framed (execClearPortPower_fr ..) rfl
  | clearPortEnable => exact framed (execClearPortEnable_fr ..) rfl
  | setPortTest => exact framed (execSetPortTest_fr ..) rfl
  | portIndicator => exact framed (execPortIndicator_fr ..) rfl
  | clearPortChange => exact framed (execClearPortChange_fr ..) rfl
  | clearTtBuffer => exact framed (execClearTtBuffer_fr ..) rfl
  | resetTt => exact framed (execResetTt_fr ..) rfl
  | stopTt => exact framed (execStopTt_fr ..) rfl
  | setAndTestPortL1 => exact framed (execSetAndTestPortL1_fr ..) rfl
  | clearPortL1 => exact framed (execClearPortL1_fr ..) rfl
  | getPortErrorCount => exact framed (execGetPortErrorCount_fr ..) rfl
  | setHubDepth => exact framed (execSetHubDepth_fr ..) rfl
  | setPortU1Timeout => exact framed (execSetPortU1Timeout_fr ..) rfl
  | setPortU2Timeout => exact framed (execSetPortU2Timeout_fr ..) rfl
  | setPortLinkState => exact framed (execSetPortLinkState_fr ..) rfl
  | setPortRemoteWakeMask => exact framed (execSetPortRemoteWakeMask_fr ..) rfl
  | ssPortReset => exact framed (execSsPortReset_fr ..) rfl
  | bhPortReset => exact framed (execBhPortReset_fr ..) rfl
  | forceLinkpmAccept => exact framed (execForceLinkpmAccept_fr ..) rfl
  | hubRequestResult => exact framed (execHubRequestResult_fr ..) rfl
  | portAssign => exact framed (execPortAssign_fr ..) rfl
  | kvmSet => exact framed (execKvmSet_fr ..) rfl
  | kvmButtonPress => exact framed (execKvmButtonPress_fr ..) rfl
  | handoffStepDone => exact framed (execHandoffStepDone_fr ..) rfl
  | handoffQuietEnd => exact framed (execHandoffQuietEnd_fr ..) rfl
  | linkTrained => exact framed (execLinkTrained_fr ..) rfl
  | linkTrainingFailed => exact framed (execLinkTrainingFailed_fr ..) rfl
  | linkRetryTimer => exact framed (execLinkRetryTimer_fr ..) rfl
  | linkRetrain => exact framed (execLinkRetrain_fr ..) rfl
  | linkIdleEntry => exact framed (execLinkIdleEntry_fr ..) rfl
  | linkNopTimer => exact framed (execLinkNopTimer_fr ..) rfl
  | ghelysLaneLost => exact framed (execGhelysLaneLost_fr ..) rfl
  | singleLaneRetrain => exact framed (execSingleLaneRetrain_fr ..) rfl
  | sleepIdleTimeout => exact framed (execSleepIdleTimeout_fr ..) rfl
  | sleepReq => exact framed (execSleepReq_fr ..) rfl
  | sleepAck => exact framed (execSleepAck_fr ..) rfl
  | sleepNak => exact framed (execSleepNak_fr ..) rfl
  | bellRing => exact framed (execBellRing_fr ..) rfl
  | bellRingRequest => exact framed (execBellRingRequest_fr ..) rfl
  | bellAccepted => exact framed (execBellAccepted_fr ..) rfl
  | bellTimeout => exact framed (execBellTimeout_fr ..) rfl
  | linkResumeDone => exact framed (execLinkResumeDone_fr ..) rfl
  | dataBaleReceived => exact framed (execDataBaleReceived_fr ..) rfl
  | nakReceived => exact framed (execNakReceived_fr ..) rfl
  | replayTimeout => exact framed (execReplayTimeout_fr ..) rfl
  | paramReceived => exact framed (execParamReceived_fr ..) rfl
  | helloReceived => exact framed (execHelloReceived_fr ..) rfl
  | probeReceived => exact framed (execProbeReceived_fr ..) rfl
  | probeReplyReceived => exact framed (execProbeReplyReceived_fr ..) rfl
  | heartbeatReceived => exact framed (execHeartbeatReceived_fr ..) rfl
  | heartbeatMiss => exact framed (execHeartbeatMiss_fr ..) rfl
  | linkDownReceived => exact framed (execLinkDownReceived_fr ..) rfl
  | noBaleTimeout => exact framed (execNoBaleTimeout_fr ..) rfl
  | blockLockLoss => exact framed (execBlockLockLoss_fr ..) rfl
  | linkDownNotice => exact framed (execLinkDownNotice_fr ..) rfl
  | resyncReceived => exact framed (execResyncReceived_fr ..) rfl
  | resyncAckReceived => exact framed (execResyncAckReceived_fr ..) rfl
  | lsaReceived => exact framed (execLsaReceived_fr ..) rfl
  | floodingRoundEnd => exact framed (execFloodingRoundEnd_fr ..) rfl
  | tablesReceived => exact framed (execTablesReceived_fr ..) rfl
  | tablesAckReceived => exact framed (execTablesAckReceived_fr ..) rfl
  | formedBroadcast => exact framed (execFormedBroadcast_fr ..) rfl
  | formedReceived => exact framed (execFormedReceived_fr ..) rfl
  | formationDeadline => exact framed (execFormationDeadline_fr ..) rfl
  | tableSwitch => exact framed (execTableSwitch_fr ..) rfl
  | flowOpenReceived => exact framed (execFlowOpenReceived_fr ..) rfl
  | flowRecordFree => exact framed (execFlowRecordFree_fr ..) rfl
  | deliveredReceived => exact framed (execDeliveredReceived_fr ..) rfl
  | deliveredTimer => exact framed (execDeliveredTimer_fr ..) rfl
  | loadReceived => exact framed (execLoadReceived_fr ..) rfl
  | rebalanceWindow => exact framed (execRebalanceWindow_fr ..) rfl
  | reseedReceived => exact framed (execReseedReceived_fr ..) rfl
  | proxyMessageReceived => exact framed (execProxyMessageReceived_fr ..) rfl
  | proxyTake => exact framed (execProxyTake_fr ..) rfl
  | attachDetect => exact framed (execAttachDetect_fr ..) rfl
  | ccAttachDebounceEnd => exact framed (execCcAttachDebounceEnd_fr ..) rfl
  | vbusDischarged => exact framed (execVbusDischarged_fr ..) rfl
  | detachDebounceEnd => exact framed (execDetachDebounceEnd_fr ..) rfl
  | sinkDetach => exact framed (execSinkDetach_fr ..) rfl
  | rdOpenDuringSlew => exact framed (execRdOpenDuringSlew_fr ..) rfl
  | drpToggle => exact framed (execDrpToggle_fr ..) rfl
  | trySnkTimeout => exact framed (execTrySnkTimeout_fr ..) rfl
  | errorRecoveryEnd => exact framed (execErrorRecoveryEnd_fr ..) rfl
  | discoverIdentityAttempt => exact framed (execDiscoverIdentityAttempt_fr ..) rfl
  | sourceCapTimer => exact framed (execSourceCapTimer_fr ..) rfl
  | ping => exact framed (execPing_fr ..) rfl
  | getSourceCap => exact framed (execGetSourceCap_fr ..) rfl
  | getSinkCap => exact framed (execGetSinkCap_fr ..) rfl
  | getSourceCapExtended => exact framed (execGetSourceCapExtended_fr ..) rfl
  | getStatus => exact framed (execGetStatus_fr ..) rfl
  | getPpsStatus => exact framed (execGetPpsStatus_fr ..) rfl
  | getRevision => exact framed (execGetRevision_fr ..) rfl
  | softReset => exact framed (execSoftReset_fr ..) rfl
  | vconnSwap => exact framed (execVconnSwap_fr ..) rfl
  | psRdyReceived => exact framed (execPsRdyReceived_fr ..) rfl
  | unsupportedPdMessage => exact framed (execUnsupportedPdMessage_fr ..) rfl
  | bist => exact framed (execBist_fr ..) rfl
  | sourceCapabilities => exact framed (execSourceCapabilities_fr ..) rfl
  | pdRequest => exact framed (execPdRequest_fr ..) rfl
  | eprModeEnter => exact framed (execEprModeEnter_fr ..) rfl
  | eprModeExit => exact framed (execEprModeExit_fr ..) rfl
  | eprGetSourceCap => exact framed (execEprGetSourceCap_fr ..) rfl
  | eprGetSinkCap => exact framed (execEprGetSinkCap_fr ..) rfl
  | eprKeepalive => exact framed (execEprKeepalive_fr ..) rfl
  | pdAlert => exact framed (execPdAlert_fr ..) rfl
  | pdInfoReceived => exact framed (execPdInfoReceived_fr ..) rfl
  | discoverIdentity => exact framed (execDiscoverIdentity_fr ..) rfl
  | discoverSvids => exact framed (execDiscoverSvids_fr ..) rfl
  | discoverModes => exact framed (execDiscoverModes_fr ..) rfl
  | enterMode => exact framed (execEnterMode_fr ..) rfl
  | exitMode => exact framed (execExitMode_fr ..) rfl
  | dpStatusUpdate => exact framed (execDpStatusUpdate_fr ..) rfl
  | dpConfigure => exact framed (execDpConfigure_fr ..) rfl
  | otherStructuredVdm => exact framed (execOtherStructuredVdm_fr ..) rfl
  | unstructuredVdm => exact framed (execUnstructuredVdm_fr ..) rfl
  | hardResetReceived => exact framed (execHardResetReceived_fr ..) rfl
  | senderResponseTimeout => exact framed (execSenderResponseTimeout_fr ..) rfl
  | ppsTimeout => exact framed (execPpsTimeout_fr ..) rfl
  | eprKeepaliveTimeout => exact framed (execEprKeepaliveTimeout_fr ..) rfl
  | psHardResetTimer => exact framed (execPsHardResetTimer_fr ..) rfl
  | srcRecoverEnd => exact framed (execSrcRecoverEnd_fr ..) rfl
  | srcTransitionEnd => exact framed (execSrcTransitionEnd_fr ..) rfl
  | slewDone => exact framed (execSlewDone_fr ..) rfl
  | settleDone => exact framed (execSettleDone_fr ..) rfl
  | psRdyTimeout => exact framed (execPsRdyTimeout_fr ..) rfl
  | vsetTrim => exact framed (execVsetTrim_fr ..) rfl
  | vconnOvercurrent => exact framed (execVconnOvercurrent_fr ..) rfl
  | ccOvervoltage => exact framed (execCcOvervoltage_fr ..) rfl
  | hpdLevelChange => exact framed (execHpdLevelChange_fr ..) rfl
  | irqHpd => exact framed (execIrqHpd_fr ..) rfl
  | billboardTimeout => exact framed (execBillboardTimeout_fr ..) rfl
  | billboardReconnect => exact framed (execBillboardReconnect_fr ..) rfl
  | fastTrip => exact framed (execFastTrip_fr ..) rfl
  | slowTrip => exact framed (execSlowTrip_fr ..) rfl
  | slowTimerReset => exact framed (execSlowTimerReset_fr ..) rfl
  | undervoltageTrip => exact framed (execUndervoltageTrip_fr ..) rfl
  | rampStart => exact framed (execRampStart_fr ..) rfl
  | rampComplete => exact framed (execRampComplete_fr ..) rfl
  | rampFail => exact framed (execRampFail_fr ..) rfl
  | attemptWindowEnd => exact framed (execAttemptWindowEnd_fr ..) rfl
  | retryWaitEnd => exact framed (execRetryWaitEnd_fr ..) rfl
  | pgStableTimer => exact framed (execPgStableTimer_fr ..) rfl
  | unseatedResetTimer => exact framed (execUnseatedResetTimer_fr ..) rfl
  | seatDebounceEnd => exact framed (execSeatDebounceEnd_fr ..) rfl
  | seatRemoval => exact framed (execSeatRemoval_fr ..) rfl
  | gateStuck => exact framed (execGateStuck_fr ..) rfl
  | dischargeDone => exact framed (execDischargeDone_fr ..) rfl
  | dischargeTimeout => exact framed (execDischargeTimeout_fr ..) rfl
  | vbusRisingGateOff => exact framed (execVbusRisingGateOff_fr ..) rfl
  | pgAssert => exact framed (execPgAssert_fr ..) rfl
  | pgHoldEnd => exact framed (execPgHoldEnd_fr ..) rfl
  | telemetryFrame => exact framed (execTelemetryFrame_fr ..) rfl
  | firstUseEnd => exact framed (execFirstUseEnd_fr ..) rfl
  | tlmEnergyLoRead => exact framed (execTlmEnergyLoRead_fr ..) rfl
  | tlmEclrWrite => exact framed (execTlmEclrWrite_fr ..) rfl
  | pwrwarnAssert => exact framed (execPwrwarnAssert_fr ..) rfl
  | pwrwarnRelease => exact framed (execPwrwarnRelease_fr ..) rfl
  | vinUndervoltage => exact framed (execVinUndervoltage_fr ..) rfl
  | budgetReduce => exact framed (execBudgetReduce_fr ..) rfl
  | budgetShed => exact framed (execBudgetShed_fr ..) rfl
  | budgetPeriodicReview => exact framed (execBudgetPeriodicReview_fr ..) rfl
  | ppwClearWrite => exact framed (execPpwClearWrite_fr ..) rfl
  | pdcMyvoteWrite => exact framed (execPdcMyvoteWrite_fr ..) rfl
  | accessHoldEnd => exact framed (execAccessHoldEnd_fr ..) rfl
  | domainEntryStepDone => exact framed (execDomainEntryStepDone_fr ..) rfl
  | switchOpenTimeout => exact framed (execSwitchOpenTimeout_fr ..) rfl
  | domainExitStepDone => exact framed (execDomainExitStepDone_fr ..) rfl
  | domainExitTimeout => exact framed (execDomainExitTimeout_fr ..) rfl
  | domainExitRetry => exact framed (execDomainExitRetry_fr ..) rfl
  | crystalStop => exact framed (execCrystalStop_fr ..) rfl
  | crystalRestart => exact framed (execCrystalRestart_fr ..) rfl
  | restingDomainAccess => exact framed (execRestingDomainAccess_fr ..) rfl
  | autoWakeAccess => exact framed (execAutoWakeAccess_fr ..) rfl
  | autoWakeWrite => exact framed (execAutoWakeWrite_fr ..) rfl
  | inboundPost => exact framed (execInboundPost_fr ..) rfl
  | messageConsume => exact framed (execMessageConsume_fr ..) rfl
  | inboundPoll => exact framed (execInboundPoll_fr ..) rfl
  | outboundAck => exact framed (execOutboundAck_fr ..) rfl
  | outboundTimeout => exact framed (execOutboundTimeout_fr ..) rfl
  | mbxLockRead => exact framed (execMbxLockRead_fr ..) rfl
  | mbxLockWrite => exact framed (execMbxLockWrite_fr ..) rfl
  | mbxSend => exact framed (execMbxSend_fr ..) rfl
  | mbxSendComplete => exact framed (execMbxSendComplete_fr ..) rfl
  | msgNakTimeout => exact framed (execMsgNakTimeout_fr ..) rfl
  | mbxRecv => exact framed (execMbxRecv_fr ..) rfl
  | mbxAck => exact framed (execMbxAck_fr ..) rfl
  | regRead => exact framed (execRegRead_fr ..) rfl
  | regWrite => exact framed (execRegWrite_fr ..) rfl
  | regWriteFixed => exact framed (execRegWriteFixed_fr ..) rfl
  | queueSelect => exact framed (execQueueSelect_fr ..) rfl
  | ep1Report => exact framed (execEp1Report_fr ..) rfl
  | ep2PacketAck => exact framed (execEp2PacketAck_fr ..) rfl
  | ep3BulkData => exact framed (execEp3BulkData_fr ..) rfl
  | i2cWrite => exact framed (execI2cWrite_fr ..) rfl
  | i2cRead => exact framed (execI2cRead_fr ..) rfl
  | smbusAlertResponse => exact framed (execSmbusAlertResponse_fr ..) rfl
  | spiWrite => exact framed (execSpiWrite_fr ..) rfl
  | spiRead => exact framed (execSpiRead_fr ..) rfl
  | spiStatus => exact framed (execSpiStatus_fr ..) rfl
  | sidebandStallTimeout => exact framed (execSidebandStallTimeout_fr ..) rfl
  | info => exact framed (execInfo_fr ..) rfl
  | modeGet => exact framed (execModeGet_fr ..) rfl
  | portStatus => exact framed (execPortStatus_fr ..) rfl
  | portPower => exact framed (execPortPower_fr ..) rfl
  | portPowerCycleRelease => exact framed (execPortPowerCycleRelease_fr ..) rfl
  | pdStatus => exact framed (execPdStatus_fr ..) rfl
  | pdPolicy => exact framed (execPdPolicy_fr ..) rfl
  | sourceCapsSet => exact framed (execSourceCapsSet_fr ..) rfl
  | tlmRead => exact framed (execTlmRead_fr ..) rfl
  | energyRead => exact framed (execEnergyRead_fr ..) rfl
  | budgetSet => exact framed (execBudgetSet_fr ..) rfl
  | fabricStatus => exact framed (execFabricStatus_fr ..) rfl
  | fabricReseed => exact framed (execFabricReseed_fr ..) rfl
  | queueConfig => exact framed (execQueueConfig_fr ..) rfl
  | pmuConfig => exact framed (execPmuConfig_fr ..) rfl
  | faultStatus => exact framed (execFaultStatus_fr ..) rfl
  | faultClear => exact framed (execFaultClear_fr ..) rfl
  | dumpRead => exact framed (execDumpRead_fr ..) rfl
  | sessionOpen => exact framed (execSessionOpen_fr ..) rfl
  | sessionClose => exact framed (execSessionClose_fr ..) rfl
  | sessionIdleTimeout => exact framed (execSessionIdleTimeout_fr ..) rfl
  | regPeek => exact framed (execRegPeek_fr ..) rfl
  | regPoke => exact framed (execRegPoke_fr ..) rfl
  | timelineAdd => exact framed (execTimelineAdd_fr ..) rfl
  | timelineDel => exact framed (execTimelineDel_fr ..) rfl
  | queueRecordWrite => exact framed (execQueueRecordWrite_fr ..) rfl
  | queueDataRead => exact framed (execQueueDataRead_fr ..) rfl
  | queueReadStallTimeout => exact framed (execQueueReadStallTimeout_fr ..) rfl
  | queueTimeout => exact framed (execQueueTimeout_fr ..) rfl
  | queueReset => exact framed (execQueueReset_fr ..) rfl
  | pmuClear => exact framed (execPmuClear_fr ..) rfl
  | faultRaised => exact framed (execFaultRaised_fr ..) rfl
  | fltClearWrite => exact framed (execFltClearWrite_fr ..) rfl
  | forceFault => exact framed (execForceFault_fr ..) rfl
  | checkerInvert => exact framed (execCheckerInvert_fr ..) rfl
  | selfCheck => exact framed (execSelfCheck_fr ..) rfl
  | watchdogExpire => exact framed (execWatchdogExpire_fr ..) rfl
  | mgtException => exact framed (execMgtException_fr ..) rfl
  | managementRestartDone => exact framed (execManagementRestartDone_fr ..) rfl
  | dumpWrite => exact framed (execDumpWrite_fr ..) rfl
  | dumpFlashDone => exact framed (execDumpFlashDone_fr ..) rfl
  | expertKeyWrite => exact framed (execExpertKeyWrite_fr ..) rfl
  | registerWrite => exact framed (execRegisterWrite_fr ..) rfl
  | jtagTapLeaveTestLogicReset => exact framed (execJtagTapLeaveTestLogicReset_fr ..) rfl
  | seatInputChange => exact framed (execSeatInputChange_fr ..) rfl
  | sinkAttach => exact framed (execSinkAttach_fr ..) rfl
  | acceptReceived => exact framed (execAcceptReceived_fr ..) rfl
  | uspLgoReceived => exact framed (execUspLgoReceived_fr ..) rfl
  | standardDeviceRequest => exact framed (execStandardDeviceRequest_fr ..) rfl
  | rxDetectPartnerFound => exact framed (execRxDetectPartnerFound_fr ..) rfl
  | carryReceiverActivity k => exact framed (execCarryReceiverActivity_fr k _) rfl
  | isolatedHelloTimer => exact framed (execIsolatedHelloTimer_fr ..) rfl
  | linkNopReceived => exact framed (execLinkNopReceived_fr ..) rfl
  | vdpSrcDetected => exact framed (execVdpSrcDetected_fr ..) rfl

/-! ## The obligations on every command -/

/-- A command that answers t keeps what every command keeps. -/
theorem exec_framed_of_eq {i : Instr} {s t : State} (h : exec i s = .next t) : Framed i s t := by
  obtain ⟨u, e, k⟩ := exec_framed i s
  cases e.symm.trans h
  exact k

/-- Settles O3: every command has a frame, and with it a next state. -/
theorem everyCommandCompletes : Obligations.EveryCommandCompletes := by
  unfold Obligations.EveryCommandCompletes
  exact fun i s => (exec_framed i s).imp fun _ h => h.1

/-- Settles O7: a frame without the plan keeps it. -/
theorem planChangesOnlyAtActivationAndReset : Obligations.PlanChangesOnlyAtActivationAndReset := by
  unfold Obligations.PlanChangesOnlyAtActivationAndReset
  exact fun i s t hi h => (exec_framed_of_eq h).plan hi

theorem step_of_pending_nil {s : State} (h : s.pending = []) : step s = .next s.tick := by
  rw [step, h]

theorem step_of_pending_cons {s : State} {c : Instr} {rest : List Instr} (h : s.pending = c :: rest) :
    step s = exec c { s with pending := rest } := by
  rw [step, h]

/-- Settles O1: the front command runs, and no command touches the queue. -/
theorem stepRunsFront : Obligations.StepRunsFront := by
  unfold Obligations.StepRunsFront
  exact fun c rest s h => ⟨step_of_pending_cons h, fun t ht =>
    (exec_framed_of_eq ((step_of_pending_cons h).symm.trans ht)).pending⟩

/-- Settles O2: a core cycle keeps what follows the count in the next cycle's state. -/
theorem idleStepIsACycle : Obligations.IdleStepIsACycle := by
  unfold Obligations.IdleStepIsACycle
  exact fun s h => ⟨s.tick, step_of_pending_nil h, s.tick_fr.pending.trans h, s.tick_fr.cycle⟩

/-- Settles O4: the reset state is given outright. -/
theorem resetMeetsInvariants : Obligations.ResetMeetsInvariants := by
  unfold Obligations.ResetMeetsInvariants
  exact ⟨by decide, by decide, rfl, rfl⟩

/-- The canonical form speaks of the registers and the endpoint memory alone. -/
theorem State.wf_congr {s t : State} (hr : t.regs = s.regs) (he : t.epMem = s.epMem) (h : s.wf = true) : t.wf = true := by
  rw [wf_iff] at h ⊢
  rwa [hr, he]

/-- Settles O5: a core cycle keeps the canonical form by its frame, and every command by its own. -/
theorem stepKeepsRegisterList : Obligations.StepKeepsRegisterList := by
  unfold Obligations.StepKeepsRegisterList
  intro s t hs h
  cases hp : s.pending with
  | nil =>
    cases (step_of_pending_nil hp).symm.trans h
    exact s.tick_fr.wf (State.wf_congr rfl rfl hs)
  | cons c rest =>
    exact (exec_framed_of_eq ((step_of_pending_cons hp).symm.trans h)).wf (State.wf_congr rfl rfl hs)

/-! ## The frames of the sections -/

/-- Settles O48: each command's own frame lies within the list. -/
theorem frameStartUp : Obligations.FrameStartUp := by
  unfold Obligations.FrameStartUp
  exact ⟨fun _ _ => frameAnyOf (execPorAssert_fr ..) rfl,
    fun _ _ _ _ _ _ => frameAnyOf (execPorRelease_fr ..) rfl,
    fun _ _ => frameOf (execRailsInWindow_fr ..) rfl rfl,
    fun _ _ _ _ _ => frameOf (execRailWindowTimeout_fr ..) rfl rfl,
    fun _ _ _ => frameOf (execCrystalReady_fr ..) rfl rfl,
    fun _ _ => frameOf (execCrystalNotReady_fr ..) rfl rfl,
    fun _ _ _ => frameOf (execXtalRestartTimer_fr ..) rfl rfl,
    fun _ _ => frameOf (execMakerWindowEnd_fr ..) rfl rfl,
    fun _ _ => frameOf (execMakerKeyedMessage_fr ..) rfl rfl,
    fun _ _ _ _ => frameOf (execFlashBusyPollEnd_fr ..) rfl rfl,
    fun _ _ => frameOf (execSlotVerifyDone_fr ..) rfl rfl,
    fun _ _ _ => frameAnyOf (execPlanActivationDone_fr ..) rfl,
    fun _ _ _ _ => frameAnyOf (execBootDomainsReady_fr ..) rfl,
    fun _ _ _ => frameOf (execUpstreamDataConnect_fr ..) rfl rfl,
    fun _ _ _ _ => frameAnyOf (execResetNAssert_fr ..) rfl,
    fun _ _ _ _ _ _ => frameOf (execResetNRelease_fr ..) rfl rfl,
    fun _ _ => frameAnyOf (execChipResetBegin_fr ..) rfl,
    fun _ _ _ => frameOf (execStarterArmed_fr ..) rfl rfl,
    fun _ _ => frameOf (execStarterSinkPathClosed_fr ..) rfl rfl,
    fun _ _ => frameOf (execStarterHoldOffEnd_fr ..) rfl rfl,
    fun _ _ => frameOf (execLifelineVinRestored_fr ..) rfl rfl,
    fun _ _ => frameOf (execLifelineHandoverDone_fr ..) rfl rfl,
    fun _ _ => frameOf (execLifelineExitAbandon_fr ..) rfl rfl,
    fun _ _ => frameOf (execSafeExit_fr ..) rfl rfl,
    fun _ _ _ _ => frameAnyOf (execBusReset_fr ..) rfl,
    fun _ _ _ => frameOf (execWatchdogExpire_fr ..) rfl rfl,
    fun _ _ _ _ => frameOf (execMgtException_fr ..) rfl rfl,
    fun _ _ _ => frameOf (execManagementRestartDone_fr ..) rfl rfl,
    fun _ _ _ _ => frameOf (execDumpWrite_fr ..) rfl rfl,
    fun _ _ => frameOf (execDumpFlashDone_fr ..) rfl rfl⟩

/-- Settles O49: each command's own frame lies within the list. -/
theorem frameYardTimeline : Obligations.FrameYardTimeline := by
  unfold Obligations.FrameYardTimeline
  exact ⟨fun _ _ _ _ _ => frameOf (execSofReceived_fr ..) rfl rfl,
    fun _ _ _ _ _ _ _ => frameOf (execItpReceived_fr ..) rfl rfl,
    fun _ _ _ => frameOf (execYardCoast_fr ..) rfl rfl,
    fun _ _ => frameOf (execBarnTimeBroadcast_fr ..) rfl rfl,
    fun _ _ _ _ _ _ => frameOf (execBarnTimeReceived_fr ..) rfl rfl,
    fun _ _ _ _ _ _ _ _ => frameOf (execYardDescriptorReceived_fr ..) rfl rfl,
    fun _ _ _ => frameOf (execYardDescriptorTimeout_fr ..) rfl rfl,
    fun _ _ _ => frameOf (execDomainWake_fr ..) rfl rfl,
    fun _ _ _ => frameOf (execTlmSample_fr ..) rfl rfl,
    fun _ _ _ => frameOf (execPdKeepalive_fr ..) rfl rfl,
    fun _ _ _ => frameOf (execDoorbell_fr ..) rfl rfl,
    fun _ _ _ => frameOf (execGpioSet_fr ..) rfl rfl,
    fun _ _ _ => frameOf (execGpioClear_fr ..) rfl rfl,
    fun _ _ _ => frameOf (execFabricHeartbeat_fr ..) rfl rfl,
    fun _ _ _ => frameOf (execBudgetReview_fr ..) rfl rfl,
    fun _ _ _ => frameOf (execTtPrewake_fr ..) rfl rfl,
    fun _ _ _ => frameOf (execTimelineWakeLead_fr ..) rfl rfl,
    fun _ _ _ => frameAnyOf (execTmlEnable_fr ..) rfl,
    fun _ _ _ => frameOf (execPredictorChoice_fr ..) rfl rfl,
    fun _ _ _ => frameOf (execObservationWindowEnd_fr ..) rfl rfl,
    fun _ _ _ => frameOf (execBurstStart_fr ..) rfl rfl,
    fun _ _ _ => frameOf (execPredictionWindowMiss_fr ..) rfl rfl⟩

/-- Settles O50: each command's own frame lies within the list. -/
theorem frameDomainsFaultsQueues : Obligations.FrameDomainsFaultsQueues := by
  unfold Obligations.FrameDomainsFaultsQueues
  exact ⟨fun _ _ _ _ => frameOf (execAccessHoldEnd_fr ..) rfl rfl,
    fun _ _ _ => frameAnyOf (execDomainEntryStepDone_fr ..) rfl,
    fun _ _ _ => frameAnyOf (execSwitchOpenTimeout_fr ..) rfl,
    fun _ _ _ _ _ => frameAnyOf (execDomainExitStepDone_fr ..) rfl,
    fun _ _ _ => frameAnyOf (execDomainExitTimeout_fr ..) rfl,
    fun _ _ _ => frameOf (execDomainExitRetry_fr ..) rfl rfl,
    fun _ _ => frameOf (execCrystalStop_fr ..) rfl rfl,
    fun _ _ => frameOf (execCrystalRestart_fr ..) rfl rfl,
    fun _ _ _ _ => frameOf (execQueueRecordWrite_fr ..) rfl rfl,
    fun _ _ _ => frameOf (execQueueReadStallTimeout_fr ..) rfl rfl,
    fun _ _ _ _ _ => frameOf (execFaultRaised_fr ..) rfl rfl,
    fun _ _ _ => frameOf (execSelfCheck_fr ..) rfl rfl,
    fun _ _ => frameOf (execJtagTapLeaveTestLogicReset_fr ..) rfl rfl⟩

/-- Settles O51: each command's own frame lies within the list. -/
theorem framePowerPath : Obligations.FramePowerPath := by
  unfold Obligations.FramePowerPath
  exact ⟨fun _ _ _ _ => frameOf (execFastTrip_fr ..) rfl rfl,
    fun _ _ _ _ => frameOf (execSlowTrip_fr ..) rfl rfl,
    fun _ _ _ => frameOf (execSlowTimerReset_fr ..) rfl rfl,
    fun _ _ _ _ => frameOf (execUndervoltageTrip_fr ..) rfl rfl,
    fun _ _ _ => frameOf (execRampStart_fr ..) rfl rfl,
    fun _ _ _ _ => frameOf (execRampFail_fr ..) rfl rfl,
    fun _ _ _ => frameOf (execAttemptWindowEnd_fr ..) rfl rfl,
    fun _ _ _ => frameOf (execRetryWaitEnd_fr ..) rfl rfl,
    fun _ _ _ => frameOf (execPgStableTimer_fr ..) rfl rfl,
    fun _ _ _ => frameOf (execUnseatedResetTimer_fr ..) rfl rfl,
    fun _ _ _ => frameOf (execSeatDebounceEnd_fr ..) rfl rfl,
    fun _ _ _ => frameOf (execSeatRemoval_fr ..) rfl rfl,
    fun _ _ _ _ => frameOf (execGateStuck_fr ..) rfl rfl,
    fun _ _ _ => frameOf (execDischargeDone_fr ..) rfl rfl,
    fun _ _ _ => frameOf (execDischargeTimeout_fr ..) rfl rfl,
    fun _ _ _ => frameOf (execVbusRisingGateOff_fr ..) rfl rfl,
    fun _ _ _ _ _ => frameOf (execPgAssert_fr ..) rfl rfl,
    fun _ _ _ => frameOf (execPgHoldEnd_fr ..) rfl rfl,
    fun _ _ _ => frameOf (execTelemetryFrame_fr ..) rfl rfl,
    fun _ _ _ => frameOf (execFirstUseEnd_fr ..) rfl rfl,
    fun _ _ _ => frameOf (execPwrwarnAssert_fr ..) rfl rfl,
    fun _ _ => frameOf (execPwrwarnRelease_fr ..) rfl rfl,
    fun _ _ => frameOf (execVinUndervoltage_fr ..) rfl rfl,
    fun _ _ => frameOf (execBudgetReduce_fr ..) rfl rfl,
    fun _ _ _ => frameOf (execBudgetShed_fr ..) rfl rfl,
    fun _ _ => frameOf (execBudgetPeriodicReview_fr ..) rfl rfl,
    fun _ _ _ _ => frameOf (execSeatInputChange_fr ..) rfl rfl⟩

/-- Settles O52: each command's own frame lies within the list. -/
theorem frameTypeCPd : Obligations.FrameTypeCPd := by
  unfold Obligations.FrameTypeCPd
  exact ⟨fun _ _ _ _ _ _ => frameOf (execAttachDetect_fr ..) rfl rfl,
    fun _ _ _ => frameOf (execCcAttachDebounceEnd_fr ..) rfl rfl,
    fun _ _ _ => frameOf (execVbusDischarged_fr ..) rfl rfl,
    fun _ _ _ => frameOf (execDetachDebounceEnd_fr ..) rfl rfl,
    fun _ _ _ => frameOf (execSinkDetach_fr ..) rfl rfl,
    fun _ _ _ _ _ => frameOf (execRdOpenDuringSlew_fr ..) rfl rfl,
    fun _ _ _ => frameOf (execDrpToggle_fr ..) rfl rfl,
    fun _ _ _ => frameOf (execTrySnkTimeout_fr ..) rfl rfl,
    fun _ _ _ => frameOf (execErrorRecoveryEnd_fr ..) rfl rfl,
    fun _ _ _ _ _ _ _ => frameOf (execDiscoverIdentityAttempt_fr ..) rfl rfl,
    fun _ _ _ _ => frameOf (execSourceCapTimer_fr ..) rfl rfl,
    fun _ _ _ _ => frameOf (execPing_fr ..) rfl rfl,
    fun _ _ _ _ => frameOf (execGetSourceCap_fr ..) rfl rfl,
    fun _ _ _ _ _ => frameOf (execGetSinkCap_fr ..) rfl rfl,
    fun _ _ _ _ _ => frameOf (execGetSourceCapExtended_fr ..) rfl rfl,
    fun _ _ _ _ => frameOf (execGetStatus_fr ..) rfl rfl,
    fun _ _ _ _ => frameOf (execGetPpsStatus_fr ..) rfl rfl,
    fun _ _ _ _ => frameOf (execGetRevision_fr ..) rfl rfl,
    fun _ _ _ _ => frameOf (execSoftReset_fr ..) rfl rfl,
    fun _ _ _ _ => frameOf (execVconnSwap_fr ..) rfl rfl,
    fun _ _ _ _ => frameOf (execPsRdyReceived_fr ..) rfl rfl,
    fun _ _ _ _ => frameOf (execUnsupportedPdMessage_fr ..) rfl rfl,
    fun _ _ _ _ _ => frameOf (execBist_fr ..) rfl rfl,
    fun _ _ _ _ _ _ => frameOf (execSourceCapabilities_fr ..) rfl rfl,
    fun _ _ _ _ _ => frameOf (execPdRequest_fr ..) rfl rfl,
    fun _ _ _ _ => frameOf (execEprModeEnter_fr ..) rfl rfl,
    fun _ _ _ _ => frameOf (execEprModeExit_fr ..) rfl rfl,
    fun _ _ _ _ => frameOf (execEprGetSourceCap_fr ..) rfl rfl,
    fun _ _ _ _ => frameOf (execEprGetSinkCap_fr ..) rfl rfl,
    fun _ _ _ _ => frameOf (execEprKeepalive_fr ..) rfl rfl,
    fun _ _ _ _ _ => frameOf (execPdAlert_fr ..) rfl rfl,
    fun _ _ _ _ _ => frameOf (execPdInfoReceived_fr ..) rfl rfl,
    fun _ _ _ _ => frameOf (execDiscoverIdentity_fr ..) rfl rfl,
    fun _ _ _ _ => frameOf (execDiscoverSvids_fr ..) rfl rfl,
    fun _ _ _ _ => frameOf (execDiscoverModes_fr ..) rfl rfl,
    fun _ _ _ _ => frameOf (execEnterMode_fr ..) rfl rfl,
    fun _ _ _ _ => frameOf (execExitMode_fr ..) rfl rfl,
    fun _ _ _ _ => frameOf (execDpStatusUpdate_fr ..) rfl rfl,
    fun _ _ _ _ _ _ => frameOf (execDpConfigure_fr ..) rfl rfl,
    fun _ _ _ _ => frameOf (execOtherStructuredVdm_fr ..) rfl rfl,
    fun _ _ _ _ => frameOf (execUnstructuredVdm_fr ..) rfl rfl,
    fun _ _ _ => frameOf (execHardResetReceived_fr ..) rfl rfl,
    fun _ _ _ => frameOf (execSenderResponseTimeout_fr ..) rfl rfl,
    fun _ _ _ => frameOf (execPpsTimeout_fr ..) rfl rfl,
    fun _ _ _ => frameOf (execEprKeepaliveTimeout_fr ..) rfl rfl,
    fun _ _ _ => frameOf (execPsHardResetTimer_fr ..) rfl rfl,
    fun _ _ _ => frameOf (execSrcRecoverEnd_fr ..) rfl rfl,
    fun _ _ _ => frameOf (execSrcTransitionEnd_fr ..) rfl rfl,
    fun _ _ _ => frameOf (execSlewDone_fr ..) rfl rfl,
    fun _ _ _ => frameOf (execSettleDone_fr ..) rfl rfl,
    fun _ _ _ => frameOf (execPsRdyTimeout_fr ..) rfl rfl,
    fun _ _ _ _ _ => frameOf (execVsetTrim_fr ..) rfl rfl,
    fun _ _ _ => frameOf (execVconnOvercurrent_fr ..) rfl rfl,
    fun _ _ _ => frameOf (execCcOvervoltage_fr ..) rfl rfl,
    fun _ _ _ _ => frameOf (execHpdLevelChange_fr ..) rfl rfl,
    fun _ _ _ => frameOf (execIrqHpd_fr ..) rfl rfl,
    fun _ _ _ _ => frameOf (execRampComplete_fr ..) rfl rfl,
    fun _ _ _ _ _ => frameOf (execSinkAttach_fr ..) rfl rfl,
    fun _ _ _ _ _ => frameOf (execAcceptReceived_fr ..) rfl rfl⟩

/-- Settles O53: each command's own frame lies within the list. -/
theorem frameFabric : Obligations.FrameFabric := by
  unfold Obligations.FrameFabric
  exact ⟨fun _ _ _ => frameOf (execLinkDelayProbe_fr ..) rfl rfl,
    fun _ _ _ _ _ _ => frameOf (execLinkTrained_fr ..) rfl rfl,
    fun _ _ _ => frameOf (execLinkTrainingFailed_fr ..) rfl rfl,
    fun _ _ _ => frameOf (execLinkRetryTimer_fr ..) rfl rfl,
    fun _ _ _ => frameOf (execLinkIdleEntry_fr ..) rfl rfl,
    fun _ _ _ => frameOf (execLinkNopTimer_fr ..) rfl rfl,
    fun _ _ _ _ => frameOf (execGhelysLaneLost_fr ..) rfl rfl,
    fun _ _ _ => frameOf (execSingleLaneRetrain_fr ..) rfl rfl,
    fun _ _ _ => frameOf (execSleepIdleTimeout_fr ..) rfl rfl,
    fun _ _ _ => frameOf (execSleepReq_fr ..) rfl rfl,
    fun _ _ _ => frameOf (execSleepAck_fr ..) rfl rfl,
    fun _ _ _ => frameOf (execSleepNak_fr ..) rfl rfl,
    fun _ _ _ => frameOf (execBellRing_fr ..) rfl rfl,
    fun _ _ _ => frameOf (execBellAccepted_fr ..) rfl rfl,
    fun _ _ _ => frameOf (execBellTimeout_fr ..) rfl rfl,
    fun _ _ _ => frameOf (execLinkResumeDone_fr ..) rfl rfl,
    fun _ _ _ _ _ _ _ => frameOf (execDataBaleReceived_fr ..) rfl rfl,
    fun _ _ _ _ => frameOf (execNakReceived_fr ..) rfl rfl,
    fun _ _ _ => frameOf (execReplayTimeout_fr ..) rfl rfl,
    fun _ _ _ _ _ => frameOf (execParamReceived_fr ..) rfl rfl,
    fun _ _ _ _ _ _ _ _ _ _ => frameOf (execHelloReceived_fr ..) rfl rfl,
    fun _ _ _ => frameOf (execProbeReceived_fr ..) rfl rfl,
    fun _ _ _ _ => frameOf (execProbeReplyReceived_fr ..) rfl rfl,
    fun _ _ _ _ => frameOf (execHeartbeatReceived_fr ..) rfl rfl,
    fun _ _ _ => frameOf (execHeartbeatMiss_fr ..) rfl rfl,
    fun _ _ _ => frameOf (execLinkDownReceived_fr ..) rfl rfl,
    fun _ _ _ => frameOf (execNoBaleTimeout_fr ..) rfl rfl,
    fun _ _ _ => frameOf (execBlockLockLoss_fr ..) rfl rfl,
    fun _ _ _ _ => frameOf (execLinkDownNotice_fr ..) rfl rfl,
    fun _ _ _ _ => frameOf (execResyncReceived_fr ..) rfl rfl,
    fun _ _ _ _ _ _ => frameOf (execResyncAckReceived_fr ..) rfl rfl,
    fun _ _ _ _ _ => frameOf (execLsaReceived_fr ..) rfl rfl,
    fun _ _ => frameOf (execFloodingRoundEnd_fr ..) rfl rfl,
    fun _ _ _ _ => frameOf (execTablesReceived_fr ..) rfl rfl,
    fun _ _ _ _ => frameOf (execTablesAckReceived_fr ..) rfl rfl,
    fun _ _ _ => frameOf (execFormedBroadcast_fr ..) rfl rfl,
    fun _ _ _ _ => frameOf (execFormedReceived_fr ..) rfl rfl,
    fun _ _ _ => frameOf (execFormationDeadline_fr ..) rfl rfl,
    fun _ _ => frameOf (execTableSwitch_fr ..) rfl rfl,
    fun _ _ _ _ => frameOf (execFlowOpenReceived_fr ..) rfl rfl,
    fun _ _ _ => frameOf (execFlowRecordFree_fr ..) rfl rfl,
    fun _ _ _ _ => frameOf (execDeliveredReceived_fr ..) rfl rfl,
    fun _ _ _ _ => frameOf (execDeliveredTimer_fr ..) rfl rfl,
    fun _ _ _ _ => frameOf (execLoadReceived_fr ..) rfl rfl,
    fun _ _ => frameOf (execRebalanceWindow_fr ..) rfl rfl,
    fun _ _ _ _ => frameOf (execReseedReceived_fr ..) rfl rfl,
    fun _ _ _ => frameOf (execIsolatedHelloTimer_fr ..) rfl rfl,
    fun _ _ _ => frameOf (execLinkNopReceived_fr ..) rfl rfl⟩

/-- Settles O54: each command's own frame lies within the list. -/
theorem frameSuperSpeed : Obligations.FrameSuperSpeed := by
  unfold Obligations.FrameSuperSpeed
  exact ⟨fun _ _ _ _ _ => frameOf (execDownstreamPacket_fr ..) rfl rfl,
    fun _ _ _ _ _ => frameOf (execUpstreamPacket_fr ..) rfl rfl,
    fun _ _ _ _ => frameOf (execEgressQueueHead_fr ..) rfl rfl,
    fun _ _ _ _ => frameOf (execPortU0Reached_fr ..) rfl rfl,
    fun _ _ _ => frameOf (execRecoveryHoldExpire_fr ..) rfl rfl,
    fun _ _ _ _ => frameOf (execLgoReceived_fr ..) rfl rfl,
    fun _ _ _ => frameOf (execHeaderCreditReturn_fr ..) rfl rfl,
    fun _ _ _ => frameOf (execCreditRelease_fr ..) rfl rfl,
    fun _ _ _ _ _ => frameOf (execItpNotice_fr ..) rfl rfl,
    fun _ _ _ _ => frameOf (execLdmExchange_fr ..) rfl rfl,
    fun _ _ _ _ _ => frameOf (execLpmInactivityTimeout_fr ..) rfl rfl,
    fun _ _ _ _ _ => frameOf (execUspLpmInitiate_fr ..) rfl rfl,
    fun _ _ _ => frameOf (execLfpsDetected_fr ..) rfl rfl,
    fun _ _ _ => frameOf (execDeviceU3Exit_fr ..) rfl rfl,
    fun _ _ _ => frameOf (execHostU3Exit_fr ..) rfl rfl,
    fun _ _ _ _ => frameOf (execSsLaneLost_fr ..) rfl rfl,
    fun _ _ _ _ => frameOf (execUspLgoReceived_fr ..) rfl rfl,
    fun _ _ _ => frameOf (execRxDetectPartnerFound_fr ..) rfl rfl⟩

/-- Settles O55: each command's own frame lies within the list. -/
theorem frameUsb2 : Obligations.FrameUsb2 := by
  unfold Obligations.FrameUsb2
  exact ⟨fun _ _ _ => frameOf (execUpstreamU3Entry_fr ..) rfl rfl,
    fun _ _ _ => frameOf (execWidthChangeStepDone_fr ..) rfl rfl,
    fun _ _ _ _ => frameOf (execCarryLost_fr ..) rfl rfl,
    fun _ _ _ => frameOf (execOrderReset_fr ..) rfl rfl,
    fun _ _ _ => frameOf (execOrderSuspendPort_fr ..) rfl rfl,
    fun _ _ _ => frameOf (execOrderResumePort_fr ..) rfl rfl,
    fun _ _ _ => frameOf (execOrderBusResumeStart_fr ..) rfl rfl,
    fun _ _ _ => frameOf (execOrderBusResumeEnd_fr ..) rfl rfl,
    fun _ _ _ => frameOf (execOrderTest_fr ..) rfl rfl,
    fun _ _ _ => frameOf (execOrderL1Exit_fr ..) rfl rfl,
    fun _ _ _ _ => frameOf (execPortResetEnd_fr ..) rfl rfl,
    fun _ _ _ => frameOf (execGlobalSuspend_fr ..) rfl rfl,
    fun _ _ _ => frameOf (execHostResumeDetected_fr ..) rfl rfl,
    fun _ _ _ => frameOf (execHostResumeEnd_fr ..) rfl rfl,
    fun _ _ _ => frameOf (execPortResumeEnd_fr ..) rfl rfl,
    fun _ _ _ _ _ => frameOf (execRemoteWake_fr ..) rfl rfl,
    fun _ _ _ => frameOf (execWakeHoldExpire_fr ..) rfl rfl,
    fun _ _ _ _ _ => frameOf (execLpmAck_fr ..) rfl rfl,
    fun _ _ _ => frameOf (execL1Entry_fr ..) rfl rfl,
    fun _ _ _ _ _ => frameOf (execDeviceL1Exit_fr ..) rfl rfl,
    fun _ _ _ _ _ => frameOf (execHsConnectChange_fr ..) rfl rfl,
    fun _ _ _ => frameOf (execBabbleDisable_fr ..) rfl rfl,
    fun _ _ _ => frameOf (execFsUpstreamConnect_fr ..) rfl rfl,
    fun _ _ _ _ => frameOf (execTtSof_fr ..) rfl rfl,
    fun _ _ _ => frameOf (execSofFill_fr ..) rfl rfl,
    fun _ _ _ => frameOf (execTtPeriodicHold_fr ..) rfl rfl,
    fun _ _ _ _ _ _ _ => frameOf (execPeriodicStartSplit_fr ..) rfl rfl,
    fun _ _ _ _ _ _ _ _ => frameOf (execNonperiodicStartSplit_fr ..) rfl rfl,
    fun _ _ _ _ _ _ _ _ => frameOf (execCompleteSplit_fr ..) rfl rfl,
    fun _ _ _ _ => frameOf (execTtTransactionEnd_fr ..) rfl rfl,
    fun _ _ _ _ _ _ => frameOf (execPeriodicWindowEnd_fr ..) rfl rfl,
    fun _ _ _ => frameOf (execTtEof_fr ..) rfl rfl,
    fun _ _ => frameOf (execTtaOpDone_fr ..) rfl rfl,
    fun _ _ _ => frameOf (execBc12SwitchStart_fr ..) rfl rfl,
    fun _ _ _ => frameOf (execBc12SwitchWaitEnd_fr ..) rfl rfl,
    fun k _ _ => frameOf (execCarryReceiverActivity_fr k _) rfl rfl,
    fun _ _ _ => frameOf (execVdpSrcDetected_fr ..) rfl rfl⟩

/-- Settles O56: each command's own frame lies within the list. -/
theorem framePaddocks : Obligations.FramePaddocks := by
  unfold Obligations.FramePaddocks
  exact ⟨fun _ _ _ _ _ _ _ => frameOf (execOrderReceived_fr ..) rfl rfl,
    fun _ _ _ _ _ _ _ _ _ _ _ _ _ => frameOf (execMirrorRecord_fr ..) rfl rfl,
    fun _ _ _ => frameOf (execMirrorSnapshot_fr ..) rfl rfl,
    fun _ _ _ _ _ => frameOf (execStatusChangeIn_fr ..) rfl rfl,
    fun _ _ _ _ => frameOf (execGetHubStatus_fr ..) rfl rfl,
    fun _ _ _ _ _ _ => frameOf (execGetPortStatus_fr ..) rfl rfl,
    fun _ _ _ _ _ => frameOf (execGetPortStatusExt_fr ..) rfl rfl,
    fun _ _ _ _ _ _ => frameOf (execGetHubDescriptor_fr ..) rfl rfl,
    fun _ _ oc _ _ => frameOf (execClearHubFeature_fr _ _ oc _) rfl rfl,
    fun _ _ _ _ => frameOf (execUnsupportedHubRequest_fr ..) rfl rfl,
    fun _ _ _ _ _ => frameOf (execSetPortReset_fr ..) rfl rfl,
    fun _ _ _ _ _ => frameOf (execSetPortSuspend_fr ..) rfl rfl,
    fun _ _ _ _ _ => frameOf (execClearPortSuspend_fr ..) rfl rfl,
    fun _ _ _ _ _ _ => frameOf (execSetPortPower_fr ..) rfl rfl,
    fun _ _ _ _ _ _ => frameOf (execClearPortPower_fr ..) rfl rfl,
    fun _ _ _ _ _ => frameOf (execClearPortEnable_fr ..) rfl rfl,
    fun _ _ _ _ _ _ => frameOf (execSetPortTest_fr ..) rfl rfl,
    fun _ _ _ _ _ _ => frameOf (execPortIndicator_fr ..) rfl rfl,
    fun _ _ _ _ _ _ _ => frameOf (execClearPortChange_fr ..) rfl rfl,
    fun _ _ _ _ _ _ _ _ _ => frameOf (execClearTtBuffer_fr ..) rfl rfl,
    fun _ _ _ _ _ => frameOf (execResetTt_fr ..) rfl rfl,
    fun _ _ _ _ _ => frameOf (execStopTt_fr ..) rfl rfl,
    fun _ _ _ _ _ _ _ => frameOf (execSetAndTestPortL1_fr ..) rfl rfl,
    fun _ _ _ _ _ => frameOf (execClearPortL1_fr ..) rfl rfl,
    fun _ _ _ _ _ => frameOf (execGetPortErrorCount_fr ..) rfl rfl,
    fun _ _ _ _ _ => frameOf (execSetHubDepth_fr ..) rfl rfl,
    fun _ _ _ _ _ _ => frameOf (execSetPortU1Timeout_fr ..) rfl rfl,
    fun _ _ _ _ _ _ => frameOf (execSetPortU2Timeout_fr ..) rfl rfl,
    fun _ _ _ _ _ _ => frameOf (execSetPortLinkState_fr ..) rfl rfl,
    fun _ _ _ _ _ _ => frameOf (execSetPortRemoteWakeMask_fr ..) rfl rfl,
    fun _ _ _ _ _ => frameOf (execSsPortReset_fr ..) rfl rfl,
    fun _ _ _ _ _ => frameOf (execBhPortReset_fr ..) rfl rfl,
    fun _ _ _ _ _ _ => frameOf (execForceLinkpmAccept_fr ..) rfl rfl,
    fun _ _ _ _ _ _ _ => frameOf (execHubRequestResult_fr ..) rfl rfl,
    fun _ _ => frameOf (execKvmButtonPress_fr ..) rfl rfl,
    fun _ _ _ => frameOf (execHandoffQuietEnd_fr ..) rfl rfl⟩

/-- Settles O58: each command's own frame lies within the list. -/
theorem frameTackRoom : Obligations.FrameTackRoom := by
  unfold Obligations.FrameTackRoom
  exact ⟨fun _ _ _ => frameOf (execBillboardTimeout_fr ..) rfl rfl,
    fun _ _ _ => frameOf (execBillboardReconnect_fr ..) rfl rfl,
    fun _ _ _ _ _ _ _ _ => frameAnyOf (execMbxSend_fr ..) rfl,
    fun _ _ _ => frameAnyOf (execMbxSendComplete_fr ..) rfl,
    fun _ _ _ => frameOf (execMsgNakTimeout_fr ..) rfl rfl,
    fun _ _ _ _ _ _ => frameAnyOf (execMbxRecv_fr ..) rfl,
    fun _ _ _ _ _ _ => frameAnyOf (execMbxAck_fr ..) rfl,
    fun _ _ _ _ _ => frameAnyOf (execRegRead_fr ..) rfl,
    fun _ _ _ _ _ _ => frameAnyOf (execRegWrite_fr ..) rfl,
    fun _ _ _ _ _ _ => frameAnyOf (execRegWriteFixed_fr ..) rfl,
    fun _ _ _ _ _ _ => frameOf (execQueueSelect_fr ..) rfl rfl,
    fun _ _ _ _ => frameOf (execEp1Report_fr ..) rfl rfl,
    fun _ _ _ => frameOf (execEp2PacketAck_fr ..) rfl rfl,
    fun _ _ _ _ => frameAnyOf (execI2cWrite_fr ..) rfl,
    fun _ _ _ _ => frameAnyOf (execI2cRead_fr ..) rfl,
    fun _ _ => frameOf (execSmbusAlertResponse_fr ..) rfl rfl,
    fun _ _ _ _ => frameAnyOf (execSpiWrite_fr ..) rfl,
    fun _ _ _ _ => frameAnyOf (execSpiRead_fr ..) rfl,
    fun _ _ => frameOf (execSpiStatus_fr ..) rfl rfl,
    fun _ _ _ => frameOf (execSidebandStallTimeout_fr ..) rfl rfl,
    fun _ _ _ => frameOf (execQueueTimeout_fr ..) rfl rfl,
    fun _ _ _ _ _ _ => frameOf (execStandardDeviceRequest_fr ..) rfl rfl⟩

end Sys2Proof.Machine

/-!
# Reading a value through a run of operations

A value that an operation puts into a field stands in the state that a run of later operations leaves, when the frames of those
leave the field's register out.
-/
namespace Sys2Proof.Machine

set_option Elab.async false

section
variable {m b m' b' : Nat} {r s t : State} {f f' : Fld} {v : Nat} {c : Bool} {P : State → Prop}

/-! ## Runs and choices keep what each of their operations keeps -/

theorem when_keeps {g : State → State} (hg : ∀ u, P u → P (g u)) (h : P s) : P (s.when c g) := by
  cases c
  · exact h
  · exact hg s h

theorem ite_keeps {p : Prop} [Decidable p] (hs : P s) (ht : P t) : P (if p then s else t) := by
  split <;> assumption

theorem if_pos_keeps {p : Prop} [Decidable p] (hp : p) (h : P s) : P (if p then s else t) := by rwa [if_pos hp]

theorem if_neg_keeps {p : Prop} [Decidable p] (hp : ¬p) (h : P t) : P (if p then s else t) := by rwa [if_neg hp]

theorem on_when {g : State → State} {x : Bool} (hg : ∀ u, u.on f = x → (g u).on f = x) (h : s.on f = x) : (s.when c g).on f = x :=
  when_keeps (P := fun u => u.on f = x) hg h

theorem g_when {g : State → State} (hg : ∀ u, u.g f = v → (g u).g f = v) (h : s.g f = v) : (s.when c g).g f = v :=
  when_keeps (P := fun u => u.g f = v) hg h

@[simp] theorem when_true (s : State) (g : State → State) : s.when true g = g s := rfl
@[simp] theorem when_false (s : State) (g : State → State) : s.when false g = s := rfl

theorem when_of (g : State → State) (h : c = true) : s.when c g = g s := by rw [h, when_true]

theorem when_of_not (g : State → State) (h : c = false) : s.when c g = s := by rw [h, when_false]

/-- Two frames in a row are one, of both masks. -/
theorem Fr.comp (h : Fr m b r s) (h' : Fr m' b' s t) : Fr (m' ||| m) (b' ||| b) r t :=
  h'.step (by rw [← Nat.or_assoc, Nat.or_self]) (by rw [← Nat.or_assoc, Nat.or_self])
    (h.step (by rw [Nat.or_comm m' m, ← Nat.or_assoc, Nat.or_self]) (by rw [Nat.or_comm b' b, ← Nat.or_assoc, Nat.or_self])
      (Fr.refl _ _ r))

/-! ## Fields of registers that stay -/

theorem g_kept (h : t.word f.addr = s.word f.addr) (hs : s.g f = v) : t.g f = v := by
  rw [State.g, h]
  exact hs

theorem on_kept (h : t.word f.addr = s.word f.addr) (hs : s.on f = c) : t.on f = c := by
  rw [State.on, g_kept h rfl]
  exact hs

theorem g_of_word (h : t.word f.addr = s.word f.addr) : t.g f = s.g f := g_kept h rfl

theorem on_of_word (h : t.word f.addr = s.word f.addr) : t.on f = s.on f := on_kept h rfl

/-- A change beside the registers keeps every field. -/
theorem g_regs (h : t.regs = s.regs) (hs : s.g f = v) : t.g f = v := by
  rwa [State.g, State.word, h]

theorem on_regs (h : t.regs = s.regs) (hs : s.on f = c) : t.on f = c := by
  rw [State.on, g_regs h rfl]
  exact hs

/-- No register of the mask has the address. -/
def maskFree (b a : Nat) : Bool := !Nat.beq (a % 65536) 65532 && !b.testBit (regIx a) && !b.testBit 196

theorem Fr.word_free (h : Fr m b s t) {a : Nat} (ha : maskFree b a = true) : t.word a = s.word a := by
  simp only [maskFree, Bool.and_eq_true, Bool.not_eq_true'] at ha
  exact h.word a (not_hasReg (Nat.ne_of_beq_eq_false ha.1.1) rfl ha.1.2 ha.2)

/-- A frame without a field's register keeps the value. -/
theorem Fr.g (h : Fr m b s t) (ha : maskFree b f.addr = true) (hs : s.g f = v) : t.g f = v := g_kept (h.word_free ha) hs

theorem Fr.on (h : Fr m b s t) (ha : maskFree b f.addr = true) (hs : s.on f = c) : t.on f = c := on_kept (h.word_free ha) hs

theorem mode_kept (h : Fr m b s t) (hb : b.testBit 184 = false) (hany : b.testBit 196 = false) : t.mode = s.mode :=
  g_of_word (TOP_MODE.kept h hb hany)

/-! ## Fields of one register -/

/-- The field's bits lie inside a word. -/
def Fld.fits (f : Fld) : Bool := Nat.ble (f.lo + f.width) 32

/-- The field's bits lie inside a word and beside those of another. -/
def Fld.beside (f f' : Fld) : Bool := f.fits && (Nat.ble (f'.lo + f'.width) f.lo || Nat.ble (f.lo + f.width) f'.lo)

theorem Fld.ok_of_fits (h : f.fits = true) : f.ok := Nat.le_of_ble_eq_true h

theorem g_p (s : State) (v : Nat) (h : f.fits = true) : (s.p f v).g f = v % 2 ^ f.width := g_p_same s v (Fld.ok_of_fits h)

theorem g_p_of_lt (h : f.fits = true) (hv : v < 2 ^ f.width) : (s.p f v).g f = v := by
  rw [g_p s v h, Nat.mod_eq_of_lt hv]

/-- A numeral that fits, read back. -/
theorem g_p_lit (h : f.fits = true) (hv : Nat.blt v (2 ^ f.width) = true) : (s.p f v).g f = v :=
  g_p_of_lt h (Nat.le_of_ble_eq_true hv)

theorem g_p_beside (s : State) (v : Nat) (h : f.beside f' = true) : (s.p f v).g f' = s.g f' := by
  simp only [Fld.beside, Bool.and_eq_true, Bool.or_eq_true] at h
  exact g_p_disj s v (Fld.ok_of_fits h.1) (h.2.imp Nat.le_of_ble_eq_true Nat.le_of_ble_eq_true)

theorem on_p_beside (s : State) (v : Nat) (h : f.beside f' = true) : (s.p f v).on f' = s.on f' := by
  rw [State.on, g_p_beside s v h]
  rfl

theorem on_p_b2n (s : State) (x : Bool) (h : f.fits = true) (hw : f.width = 1) : (s.p f (b2n x)).on f = x := by
  rw [State.on, g_p s _ h, hw]
  cases x <;> rfl

theorem on_p_one (s : State) (h : f.fits = true) (hw : f.width = 1) : (s.p f 1).on f = true := on_p_b2n s true h hw

theorem on_p_zero (s : State) (h : f.fits = true) : (s.p f 0).on f = false := by
  rw [State.on, g_p s _ h, Nat.zero_mod]
  rfl

theorem on_hw (s : State) (h : f.fits = true) (hw : f.width = 1) : (s.hw f).on f = true := on_hw_same s (Fld.ok_of_fits h) hw

/-- The bits of another field as the hardware sets one: as they were. -/
theorem g_hw_beside (s : State) (h : f.beside f' = true) : (s.hw f).g f' = s.g f' := g_p_beside s _ h

theorem on_hw_beside (s : State) (h : f.beside f' = true) : (s.hw f).on f' = s.on f' := on_p_beside s _ h

/-! ## Fields of different registers -/

theorem addr_ne_of_regIx {a a' i j : Nat} (ha : regIx a = i) (ha' : regIx a' = j) (h : Nat.beq i j = false) : a' ≠ a := by
  rintro rfl
  exact absurd (ha.symm.trans ha') (Nat.ne_of_beq_eq_false h)

theorem g_p_far (s : State) (v : Nat) {i j : Nat} (ha : regIx f.addr = i) (ha' : regIx f'.addr = j) (h : Nat.beq i j = false := by rfl) :
    (s.p f v).g f' = s.g f' := g_p_ne s v (addr_ne_of_regIx ha ha' h)

theorem on_p_far (s : State) (v : Nat) {i j : Nat} (ha : regIx f.addr = i) (ha' : regIx f'.addr = j) (h : Nat.beq i j = false := by rfl) :
    (s.p f v).on f' = s.on f' := by
  rw [State.on, g_p_far s v ha ha' h]
  rfl

/-- A register that the mask leaves out does not see a field written in one of the mask's. -/
theorem g_p_out (s : State) (v : Nat) (hb : HasReg b f.addr) (h : maskFree b f'.addr = true) : (s.p f v).g f' = s.g f' :=
  (Fr.p hb (Fr.refl 0 b s)).g h rfl

theorem on_p_out (s : State) (v : Nat) (hb : HasReg b f.addr) (h : maskFree b f'.addr = true) : (s.p f v).on f' = s.on f' :=
  (Fr.p hb (Fr.refl 0 b s)).on h rfl

theorem on_hw_out (s : State) (hb : HasReg b f.addr) (h : maskFree b f'.addr = true) : (s.hw f).on f' = s.on f' := on_p_out s _ hb h

theorem g_hw_out (s : State) (hb : HasReg b f.addr) (h : maskFree b f'.addr = true) : (s.hw f).g f' = s.g f' := g_p_out s _ hb h

theorem g_hw_far (s : State) {i j : Nat} (ha : regIx f.addr = i) (ha' : regIx f'.addr = j) (h : Nat.beq i j = false := by rfl) :
    (s.hw f).g f' = s.g f' := g_p_far s _ ha ha' h

theorem on_hw_far (s : State) {i j : Nat} (ha : regIx f.addr = i) (ha' : regIx f'.addr = j) (h : Nat.beq i j = false := by rfl) :
    (s.hw f).on f' = s.on f' := on_p_far s _ ha ha' h

/-! ## Channels and Type-C ports -/

theorem vat_vmod {α : Type} [Inhabited α] {n i : Nat} (l : Vector α n) (g : α → α) (h : i < n) : vat (vmod l i g) i = g (vat l i) := by
  rw [vmod, vat_vset, if_pos ⟨rfl, h⟩]

theorem Fr.tc (h : Fr m b s t) (hm : m.testBit 9 = false) (n : Nat) : t.tc n = s.tc n := by
  rw [State.tc, State.tc, show t.tcp = s.tcp from h.part .tcp hm]

theorem Fr.ch (h : Fr m b s t) (hm : m.testBit 6 = false) (n : Nat) : t.ch n = s.ch n := by
  rw [State.ch, State.ch, show t.chan = s.chan from h.part .chan hm]

theorem tc_tcMod {n : Nat} {g : Tcp → Tcp} (h : n < 17) : (s.tcMod n g).tc n = g (s.tc n) := vat_vmod _ g h

theorem ch_chMod {n : Nat} {g : Chan → Chan} (h : n < 17) : (s.chMod n g).ch n = g (s.ch n) := vat_vmod _ g h

end

end Sys2Proof.Machine

/-!
# Start-up: resets, the steps of BOOT, and LIFELINE
-/
namespace Sys2Proof.Machine

set_option Elab.async false

section
variable {i : Instr} {s t u : State} {P : State → Prop}

/-- A command does what its meaning does, once that is evaluated to a state. -/
theorem does_of (he : exec i s = .next u) (h : u = t) (hp : P t) : Does i s P := ⟨t, he.trans (congrArg _ h), hp⟩

end

/-! ## What a chip-wide reset leaves (R363) -/

theorem getCell_filter_none {a : Nat} (p : Nat × Word → Bool) (hp : ∀ w, p (a, w) = false) :
    ∀ l : List (Nat × Word), getCell a (l.filter p) = none
  | [] => rfl
  | (b, w) :: l => by
    have ih := getCell_filter_none p hp l
    cases hb : p (b, w) with
    | false => rw [List.filter_cons_of_neg (by simp [hb]), ih]
    | true =>
      have hne : a ≠ b := by
        rintro rfl
        exact absurd ((hp w).symm.trans hb) Bool.noConfusion
      simp [List.filter_cons_of_pos hb, getCell, hne, ih]

section
variable {s t : State} {a m c : Nat}

/-- A register that no reset keeps reads its reset word. -/
theorem State.cleared_word (por grave : Bool) (h : keptAddr por grave a = false) : (s.cleared por grave).word a = resetWord a := by
  rw [State.word, State.cleared, getCell_filter_none _ fun _ => h]
  rfl

/-- The registers a reset sets besides clearing the state: seats, the yard L, UP0's state, lost records, GRAVE and FORCED. -/
theorem State.wiped_fr_cleared (s : State) (por : Bool) :
    Fr 0 (2 ^ 100 ||| 256 ||| 2 ^ 91 ||| 2 ^ 164 ||| 2 ^ 172 ||| 2 ^ 150) (s.cleared por (!por && s.on FLT_STATUS.GRAVE)) (s.wiped por) :=
  Fr.when (fun _ h => Fr.hw (MBX_ERR.reg rfl) h) <| Fr.when (fun _ h => Fr.p (FLT_STATUS.reg rfl) h) <|
    Fr.when (fun _ h => Fr.each (fun _ _ h => Fr.p (OBS_Q_LOST.reg rfl) h) h) <| Fr.p (TCP_PORT.reg (n := 15) rfl) <|
    Fr.step (State.yardStart_fr _) rfl rfl <| Fr.p (PPW_SEAT.reg rfl) <| Fr.refl _ _ _

theorem State.wiped_plan (s : State) (por : Bool) : (s.wiped por).plan = Plan.empty := (s.wiped_fr_cleared por).part .plan rfl

theorem State.wiped_otp (s : State) (por : Bool) : (s.wiped por).otp = s.otp := (s.wiped_fr_cleared por).part .otp rfl

theorem State.wiped_boot (s : State) (por : Bool) :
    (s.wiped por).boot = { held := 0, starter := s.boot.starter, starterFlag := s.boot.starterFlag, was := s.boot.was } :=
  (s.wiped_fr_cleared por).part .boot rfl

/-- A field of a register that no reset keeps reads its reset value. -/
theorem State.cleared_g (por grave : Bool) {f : Fld} (h : keptAddr por grave f.addr = false) :
    (s.cleared por grave).g f = getBits (resetWord f.addr) f.lo f.width := by
  rw [State.g, State.cleared_word por grave h]

theorem keptAddr_mode : ∀ por grave, keptAddr por grave TOP_MODE.addr = false := by decide

/-- TOP_MODE reads BOOT after a reset. -/
theorem State.wiped_mode (s : State) (por : Bool) : (s.wiped por).mode = 0 :=
  (mode_kept (s.wiped_fr_cleared por) rfl rfl).trans (State.cleared_g por _ (keptAddr_mode _ _))

/-- What a RESET_N or chip reset does after clearing the state: it notes the mode, and sets UP0's channel and the discharges. -/
theorem State.chipWide_fr_wiped (s : State) :
    Fr (64 ||| 0) (2 ^ 106 ||| 76059036013693764089802192322560 ||| 10143680681904405972523423891456 ||| 81129638414606681695789005144064)
      ((s.safeOutputs.wiped false).bootMod fun b => { b with was := s.mode }) s.chipWide :=
  Fr.step (State.dischAll_fr _) rfl rfl <| Fr.when (fun _ h => Fr.step (State.setLimit_fr _ _) rfl rfl <|
    Fr.step (State.setEfuse_fr _ _) rfl rfl <| Fr.setWord (PPW_STATUS.reg rfl) <| Fr.withChan rfl h) <| Fr.refl _ _ _

theorem State.chipWide_plan (s : State) : s.chipWide.plan = Plan.empty :=
  Eq.trans (s.chipWide_fr_wiped.part .plan rfl) (State.wiped_plan _ _)

theorem State.chipWide_otp (s : State) : s.chipWide.otp = s.otp :=
  Eq.trans (s.chipWide_fr_wiped.part .otp rfl) <| (State.wiped_otp _ _).trans <| s.safeOutputs_fr.part .otp rfl

theorem State.chipWide_boot (s : State) : s.chipWide.boot =
    { held := 0, starter := s.safeOutputs.boot.starter, starterFlag := s.safeOutputs.boot.starterFlag, was := s.mode } := by
  rw [show s.chipWide.boot = _ from s.chipWide_fr_wiped.part .boot rfl]
  simp [State.bootMod, State.wiped_boot]

/-! ## The change of mode (R23, R322) -/

/-- The domain controller's votes that a change of mode sets. -/
theorem State.setVotes_fr (s : State) (l : List Nat) (serving : Prop) [Decidable serving] :
    Fr 34 4893107481805641041628876881595771524683695319416832 s
      (s.each l fun d s => if serving then s.setVote 0 d 0 else s.setVote 0 d 2) :=
  Fr.each (fun _ _ h => Fr.ite (Fr.step (State.setVote_fr ..) rfl rfl h) (Fr.step (State.setVote_fr ..) rfl rfl h)) (Fr.refl _ _ _)

/-- After its record and its fields of TOP_MODE, a change of mode touches no more of that register. -/
theorem State.setMode_word (s : State) (m c : Nat) (h : s.mode ≠ m) : (s.setMode m c).word TOP_MODE.addr =
    (((s.p TOP_MODE.MODE m).record 0 0x04 4 [s.mode + m * 2^4 + c * 2^8]).when (m ≠ 0) fun s =>
      (s.p TOP_MODE.BOOT_STEP 0).p TOP_MODE.HELD 0).word TOP_MODE.addr := by
  rw [State.setMode, if_neg h, TOP_MODE.kept (State.setVotes_fr ..) rfl rfl, word_p_ne _ _ (by decide), word_p_ne _ _ (by decide)]

theorem State.setMode_mode (s : State) {m : Nat} (c : Nat) (hm : m < 8) : (s.setMode m c).mode = m := by
  by_cases h : s.mode = m
  · rw [State.setMode, if_pos h, h]
  refine g_kept (f := TOP_MODE.MODE) (s.setMode_word m c h) (when_keeps (P := fun u => u.g TOP_MODE.MODE = m) ?_ ?_)
  · intro u hu
    rw [g_p_beside _ _ rfl, g_p_beside _ _ rfl, hu]
  · exact g_kept (TOP_MODE.kept (State.record_fr ..) rfl rfl) (g_p_of_lt rfl hm)

/-- A mode that is not BOOT shows no step. -/
theorem State.setMode_step_boot (s : State) (c : Nat) : (s.setMode 0 c).g TOP_MODE.BOOT_STEP = s.g TOP_MODE.BOOT_STEP := by
  by_cases h : s.mode = 0
  · rw [State.setMode, if_pos h]
  rw [g_of_word (f := TOP_MODE.BOOT_STEP) (s.setMode_word 0 c h)]
  exact g_kept (TOP_MODE.kept (State.record_fr ..) rfl rfl) (g_p_beside _ _ rfl)

end

/-! ## The straps (R350) -/

/-- The straps stand as sampled. -/
structure Strapped (bootsrc : Fin 4) (lifeEn : Bool) (i2c : Fin 8) (maker : Bool) (s : State) : Prop where
  bootsrc : s.g TOP_STRAP.BOOTSRC = bootsrc
  lifeEn : s.on TOP_STRAP.LIFE_EN = lifeEn
  i2c : s.g TOP_STRAP.I2CADDR = i2c
  maker : s.on TOP_STRAP.MAKER_EN = maker

section
variable {bootsrc : Fin 4} {lifeEn : Bool} {i2c : Fin 8} {maker : Bool} {m b : Nat} {s t : State}

theorem State.strap_strapped (s : State) (bootsrc : Fin 4) (lifeEn : Bool) (i2c : Fin 8) (maker : Bool) :
    Strapped bootsrc lifeEn i2c maker (s.strap bootsrc lifeEn i2c maker) where
  bootsrc := by
    refine (g_p_beside _ _ rfl).trans <| (g_p_beside _ _ rfl).trans <| (g_p_beside _ _ rfl).trans <| g_p_of_lt rfl bootsrc.isLt
  lifeEn := (on_p_beside _ _ rfl).trans <| (on_p_beside _ _ rfl).trans <| on_p_b2n _ _ rfl rfl
  i2c := (g_p_beside _ _ rfl).trans <| g_p_of_lt rfl i2c.isLt
  maker := on_p_b2n _ _ rfl rfl

theorem Strapped.kept (h : Strapped bootsrc lifeEn i2c maker s) (hf : Fr m b s t) (hb : b.testBit 183 = false)
    (hany : b.testBit 196 = false) : Strapped bootsrc lifeEn i2c maker t where
  bootsrc := g_kept (TOP_STRAP.kept hf hb hany) h.bootsrc
  lifeEn := on_kept (TOP_STRAP.kept hf hb hany) h.lifeEn
  i2c := g_kept (TOP_STRAP.kept hf hb hany) h.i2c
  maker := on_kept (TOP_STRAP.kept hf hb hany) h.maker

/-- What POR's release has set before it hands the supply over: the straps, step 1 of BOOT, and the cause. -/
structure Released (bootsrc : Fin 4) (lifeEn : Bool) (i2c : Fin 8) (maker : Bool) (s : State) : Prop where
  strapped : Strapped bootsrc lifeEn i2c maker s
  held : s.boot.held = 0
  step : s.g TOP_MODE.BOOT_STEP = 1
  por : s.on TOP_RESET_CAUSE.POR = true

theorem Released.kept (h : Released bootsrc lifeEn i2c maker s) (hf : Fr m b s t) (hm : m.testBit 13 = false)
    (hb : b &&& (2 ^ 183 ||| 2 ^ 184 ||| 2 ^ 185 ||| 2 ^ 196) = 0) : Released bootsrc lifeEn i2c maker t := by
  have bit (k : Nat) (hk : (2 ^ 183 ||| 2 ^ 184 ||| 2 ^ 185 ||| 2 ^ 196).testBit k = true) : b.testBit k = false := by
    have h := congrArg (fun x => x.testBit k) hb
    rwa [Nat.testBit_and, hk, Bool.and_true, Nat.zero_testBit] at h
  exact {
    strapped := h.strapped.kept hf (bit _ rfl) (bit _ rfl)
    held := (congrArg BootS.held (hf.part .boot hm)).trans h.held
    step := g_kept (TOP_MODE.kept hf (bit _ rfl) (bit _ rfl)) h.step
    por := on_kept (TOP_RESET_CAUSE.kept hf (bit _ rfl) (bit _ rfl)) h.por }

/-- The starter's supply is marked beside the straps and the cause. -/
theorem Released.supply (h : Released bootsrc lifeEn i2c maker s) :
    Released bootsrc lifeEn i2c maker ((s.p TOP_STRAP.LIFE_SUPPLY 1).hw TOP_RESET_CAUSE.LIFE_START) where
  strapped := .kept {
      bootsrc := (g_p_beside _ _ rfl).trans h.strapped.bootsrc
      lifeEn := (on_p_beside _ _ rfl).trans h.strapped.lifeEn
      i2c := (g_p_beside _ _ rfl).trans h.strapped.i2c
      maker := (on_p_beside _ _ rfl).trans h.strapped.maker }
    (Fr.hw (TOP_RESET_CAUSE.reg rfl) (Fr.refl 0 (2 ^ 185) _)) rfl rfl
  held := h.held
  step := (g_hw_far _ TOP_RESET_CAUSE.ix TOP_MODE.ix).trans <| (g_p_far _ _ TOP_STRAP.ix TOP_MODE.ix).trans h.step
  por := (on_hw_beside _ rfl).trans <| (on_p_far _ _ TOP_STRAP.ix TOP_RESET_CAUSE.ix).trans h.por

end

/-! ## The end of a reset -/

section
variable {s t : State} {cause : Fld}

/-- What the end of a reset puts into TOP_RESET_CAUSE and TOP_MODE, with its MODE record; GRAVE latched leads on to SAFE. -/
def State.caused (s : State) (cause : Fld) : State :=
  let s := ((s.setWord TOP_RESET_CAUSE.addr 0).hw cause).p TOP_MODE.BOOT_STEP 1
  s.when (s.boot.was ≠ 0) fun s => s.record 0 0x04 4 [s.boot.was + 0xFF * 2^8]

theorem State.afterReset_eq (s : State) (cause : Fld) : s.afterReset cause = (s.caused cause).when ((s.caused cause).on FLT_STATUS.GRAVE) fun s =>
    (((s.hw TOP_RESET_CAUSE.GRAVE_KEPT).p FLT_STATUS.SAFE 1).p TOP_MODE.SAFE_CAUSE (s.g FLT_STATUS.CAUSE)).setMode 4 (s.g FLT_STATUS.CAUSE) := by
  unfold State.afterReset State.caused
  rfl

theorem State.caused_fr (s : State) (h : cause.addr = TOP_RESET_CAUSE.addr) :
    Fr 2 73564679069044449064170803240034774929249285926966788096 s (s.caused cause) := by
  have hr : HasReg 73564679069044449064170803240034774929249285926966788096 TOP_RESET_CAUSE.addr := TOP_RESET_CAUSE.reg rfl
  unfold State.caused
  exact Fr.when (fun _ h => Fr.step (State.record_fr ..) rfl rfl h) <| Fr.p (TOP_MODE.reg rfl) <| Fr.hw (by rwa [h]) <|
    Fr.setWord hr <| Fr.refl _ _ _

theorem State.caused_step (s : State) (cause : Fld) : (s.caused cause).g TOP_MODE.BOOT_STEP = 1 :=
  when_keeps (P := fun u => u.g TOP_MODE.BOOT_STEP = 1) (fun _ h => (State.record_fr ..).g rfl h) (g_p_of_lt rfl (by decide))

/-- Of the causes, the one of this reset alone is set. -/
theorem State.caused_on (s : State) {f : Fld} {v : Bool} (hf : f.addr = TOP_RESET_CAUSE.addr)
    (hv : ((s.setWord TOP_RESET_CAUSE.addr 0).hw cause).on f = v) : (s.caused cause).on f = v :=
  have hix : regIx f.addr = 185 := by rw [hf, TOP_RESET_CAUSE.ix]
  when_keeps (P := fun u => u.on f = v) (fun _ h => (State.record_fr ..).on (by rw [hf]; rfl) h)
    ((on_p_far _ _ TOP_MODE.ix hix).trans hv)

theorem on_setWord_zero (s : State) (f : Fld) : (s.setWord f.addr 0).on f = false := by
  simp [State.on, State.g, getBits]

end

/-! ## The sticky bits of the fault sources (R327, R336) -/

section
variable {s t : State} {m b src : Nat} {v : Bool}

/-- A source's bit of FLT_STICKY as a field. -/
def stickyFld (src : Nat) : Fld := ⟨FLT_STICKY.addr (src / 32), src % 32, 1⟩

theorem State.sticky_eq (s : State) (src : Nat) : s.sticky src = s.on (stickyFld src) := by
  rw [State.sticky, bitOf, Nat.testBit_eq_decide_div_mod_eq, State.on, State.g, getBits, stickyFld]
  have h := Nat.mod_lt ((s.word (FLT_STICKY.addr (src / 32))).toNat / 2 ^ (src % 32)) (by decide : 0 < 2)
  dsimp only
  generalize (s.word (FLT_STICKY.addr (src / 32))).toNat / 2 ^ (src % 32) % 2 = x at h
  interval_cases x <;> rfl

theorem stickyFld_fits (src : Nat) : (stickyFld src).fits = true :=
  Nat.ble_eq_true_of_le (Nat.succ_le_of_lt (Nat.mod_lt src (by decide)))

theorem State.setSticky_sticky (s : State) (src : Nat) (v : Bool) : (s.setSticky src v).sticky src = v := by
  rw [State.sticky_eq]
  cases v with
  | true => exact on_hw s (stickyFld_fits src) rfl
  | false => exact on_p_zero s (stickyFld_fits src)

theorem stickyFld_ix (h : src < 128) : regIx (stickyFld src).addr = 175 := FLT_STICKY.ix _ (by omega)

/-- A frame without FLT_STICKY keeps the bit. -/
theorem Fr.sticky (hf : Fr m b s t) (hsrc : src < 128) (hb : b.testBit 175 = false) (hany : b.testBit 196 = false)
    (h : s.sticky src = v) : t.sticky src = v := by
  rw [State.sticky_eq] at h ⊢
  exact on_kept (FLT_STICKY.kept (by omega) hf hb hany) h

theorem State.sticky_p (s : State) {f : Fld} {x k : Nat} (hsrc : src < 128) (hf : regIx f.addr = k) (h : s.sticky src = v)
    (hk : Nat.beq k 175 = false := by rfl) : (s.p f x).sticky src = v := by
  rw [State.sticky_eq] at h ⊢
  exact (on_p_far s x hf (stickyFld_ix hsrc) hk).trans h

/-- A source that arises sets its sticky bit, and its reaction leaves it set. -/
theorem State.raise_sticky (s : State) (q : Nat) (hsrc : src < 128) : (s.raise src q).sticky src = true := by
  have hq := FLT_QUAL.ix src hsrc
  refine ite_keeps (P := fun u => u.sticky src = true) ?_ (ite_keeps (P := fun u => u.sticky src = true)
    ((State.reactPort_fr ..).sticky hsrc rfl rfl ?_) ((State.reactChip_fr ..).sticky hsrc rfl rfl ?_))
  all_goals
    refine when_keeps (P := fun u => u.sticky src = true) (fun u h => (State.judge_fr ..).sticky hsrc rfl rfl h) ?_
    refine (State.record_fr ..).sticky hsrc rfl rfl <| State.sticky_p _ hsrc hq <| State.sticky_p _ hsrc hq ?_
    exact when_keeps (P := fun u => u.sticky src = true) (fun u h => State.sticky_p _ hsrc hq h) (s.setSticky_sticky src true)

/-- A source that does not arise in this cycle is cleared, where its clear brings no release. -/
theorem State.clearSource_sticky (s : State) (q : Nat) (hsrc : src < 128) (hrel : ∀ t : State, t.faultRelease src q = t)
    (h : s.arisesNow src = false) : (s.clearSource src q).sticky src = false := by
  have hne := addr_ne_of_regIx (FLT_QUAL.ix src hsrc) (stickyFld_ix hsrc) rfl
  rw [State.clearSource, h, Bool.and_false, hrel, State.sticky_eq]
  refine on_kept (word_setWord_ne _ _ hne) ?_
  rw [← State.sticky_eq, State.setSticky_sticky]

/-- XTAL_LOST arises by its own report alone, so the waiting commands and the bits set in this cycle decide. -/
theorem State.arisesNow_xtalLost (hp : t.pending = s.pending) (hh : t.hwSet = s.hwSet) : t.arisesNow 7 = s.arisesNow 7 := by
  have hc (c : Instr) : decide (t.arises c = some 7) = decide (s.arises c = some 7) := by
    cases c <;> simp only [State.arises] <;> (repeat' split) <;> simp
  simp only [State.arisesNow, State.ahead, hp, hh, hc]

end

/-! ## The resets and their releases -/

/-- SAFE is left: no source stands, its causes are cleared, and an activation begun is given up. -/
def State.leftSafe (s : State) : State :=
  let s := (s.setWord FLT_STATUS.addr (s.word FLT_STATUS.addr &&& 0x1000#32)).p TOP_MODE.SAFE_CAUSE 0xFF
  (s.when s.pln.act.isSome fun s => s.discardUpload).plnMod fun x => { x with act := none }

theorem State.leftSafe_planned (s : State) : s.leftSafe.boot.planned = s.boot.planned :=
  when_keeps (P := fun u => u.boot.planned = s.boot.planned)
    (fun u h => (congrArg BootS.planned ((State.discardUpload_fr u).part .boot rfl)).trans h) rfl

theorem exec_safeExit {s : State} (hh : s.boot.held = 0) (hm : s.mode = 4) (hg : s.on FLT_STATUS.GRAVE = false)
    (hs : s.chipSticky = false) (hc : s.pln.commit = 0) : exec .safeExit s =
      .next (if s.boot.planned then s.leftSafe.enterPlan 0xFF else (s.leftSafe.setMode 0 0xFF).p TOP_MODE.BOOT_STEP 2) := by
  rw [← s.leftSafe_planned]
  exact congrArg Host.Outcome.next (if_neg (by simp [hh, hm, hg, hs, hc]))

theorem porAssert_clears :
    ∀ (s : State), s.boot.held ≠ 1 → Does .porAssert s fun t => t.boot.held = 1 ∧ t.boot.starter = 0 ∧
    t.plan = Plan.empty ∧ t.otp = s.otp ∧ t.mode = 0 := by
  intro s h
  refine does_of rfl (if_neg h) ⟨rfl, rfl, ?_, ?_, ?_⟩
  · exact Eq.trans ((State.bootMod_fr ..).part .plan rfl) (State.wiped_plan _ _)
  · exact Eq.trans ((State.bootMod_fr ..).part .otp rfl) <| (State.wiped_otp _ _).trans <| (State.safeOutputs_fr _).part .otp rfl
  · exact (mode_kept (State.bootMod_fr ..) rfl rfl).trans (State.wiped_mode _ _)

theorem porRelease_samples :
    ∀ (bootsrc : Fin 4) (lifeEn : Bool) (i2c : Fin 8) (maker : Bool) (s : State), s.boot.held = 1 →
    Does (.porRelease bootsrc lifeEn i2c maker) s fun t => t.boot.held = 0 ∧ t.g TOP_MODE.BOOT_STEP = 1 ∧
    t.g TOP_STRAP.BOOTSRC = bootsrc ∧ t.on TOP_STRAP.LIFE_EN = lifeEn ∧ t.g TOP_STRAP.I2CADDR = i2c ∧
    t.on TOP_STRAP.MAKER_EN = maker ∧ t.on TOP_RESET_CAUSE.POR = true := by
  intro bootsrc lifeEn i2c maker s h
  refine does_of rfl (if_neg (not_not.2 h)) ?_
  have h0 : Released bootsrc lifeEn i2c maker
      ((((((s.wiped true).bootMod fun b => { b with starter := 0, was := 0 }).strap bootsrc lifeEn i2c maker).setWord
        TOP_RESET_CAUSE.addr 0).hw TOP_RESET_CAUSE.POR).p TOP_MODE.BOOT_STEP 1) := {
    strapped := (State.strap_strapped _ bootsrc lifeEn i2c maker).kept (Fr.p (TOP_MODE.reg rfl) <| Fr.hw (TOP_RESET_CAUSE.reg rfl) <|
      Fr.setWord (TOP_RESET_CAUSE.reg rfl) <| Fr.refl 0 (2 ^ 184 ||| 2 ^ 185) _) rfl rfl
    held := congrArg BootS.held (s.wiped_boot true)
    step := g_p_of_lt rfl (by decide)
    por := (on_p_far _ _ TOP_MODE.ix TOP_RESET_CAUSE.ix).trans <| on_hw _ rfl rfl }
  obtain ⟨⟨h1, h2, h3, h4⟩, h5, h6, h7⟩ := (when_keeps (c := s.boot.starter = 2) (fun _ h => (((((h.supply.kept (State.setEfuse_fr ..) rfl rfl).kept
    (State.setLimit_fr ..) rfl rfl).kept (State.chMod_fr ..) rfl rfl).kept (Fr.p (f := PPW_STATUS.STATE 15) (PPW_STATUS.reg (n := 15) rfl) <|
      Fr.p (f := PPW_STATUS.SINK 15) (PPW_STATUS.reg (n := 15) rfl) <| Fr.refl 0 (2 ^ 106) _) rfl rfl).kept (State.assertPg_fr ..) rfl rfl)) h0).kept
    (State.dischAll_fr _) rfl rfl
  exact ⟨h5, h6, h1, h2, h3, h4, h7⟩

theorem resetNAssert_clears :
    ∀ (handed : Bool) (dumped : Bool) (s : State), s.boot.held = 0 → Does (.resetNAssert handed dumped) s fun t =>
    t.boot.held = 2 ∧ t.boot.was = s.mode ∧ t.plan = Plan.empty ∧ t.otp = s.otp := by
  intro handed dumped s h
  refine does_of rfl (if_neg (not_not.2 h)) ⟨rfl, ?_, ?_, ?_⟩
  · exact (congrArg BootS.was (State.chipWide_boot _)).trans rfl
  · exact Eq.trans ((State.bootMod_fr ..).part .plan rfl) (State.chipWide_plan _)
  · exact Eq.trans ((State.bootMod_fr ..).part .otp rfl) (State.chipWide_otp _)

theorem resetNRelease_samples :
    ∀ (bootsrc : Fin 4) (lifeEn : Bool) (i2c : Fin 8) (maker : Bool) (s : State), s.boot.held = 2 →
    s.on FLT_STATUS.GRAVE = false → Does (.resetNRelease bootsrc lifeEn i2c maker) s fun t => t.boot.held = 0 ∧
    t.g TOP_MODE.BOOT_STEP = 1 ∧ t.g TOP_STRAP.BOOTSRC = bootsrc ∧ t.on TOP_RESET_CAUSE.RESET_N = true ∧
    t.on TOP_RESET_CAUSE.POR = false := by
  intro bootsrc lifeEn i2c maker s h hg
  have hf := ((State.bootMod_fr s fun b => { b with held := 0 }).comp (State.strap_fr _ bootsrc lifeEn i2c maker)).comp (State.yardStart_fr _)
  have hc := hf.comp (State.caused_fr (cause := TOP_RESET_CAUSE.RESET_N) _ rfl)
  refine does_of rfl ((when_of _ (by simpa using h)).trans ((State.afterReset_eq ..).trans (when_of_not _ (hc.on rfl hg)))) ⟨?_, State.caused_step _ _, ?_, ?_, ?_⟩
  · exact congrArg BootS.held <| Eq.trans ((State.caused_fr _ rfl).part .boot rfl) <| Eq.trans ((State.yardStart_fr _).part .boot rfl) <|
      (State.strap_fr ..).part .boot rfl
  · exact (State.caused_fr _ rfl).g rfl <| (State.yardStart_fr _).g rfl <| (State.strap_strapped ..).bootsrc
  · exact State.caused_on _ rfl (on_hw _ rfl rfl)
  · exact State.caused_on _ rfl ((on_hw_beside _ rfl).trans (on_setWord_zero _ TOP_RESET_CAUSE.POR))

theorem chipResetBegin_clears :
    ∀ (s : State), s.boot.asked = true → s.boot.held = 0 → s.pln.commit = 0 → s.flt.writing = 0 →
    Does .chipResetBegin s fun t => t.on TOP_RESET_CAUSE.CHIP_RESET = true ∧ t.plan = Plan.empty ∧ t.boot.asked = false ∧
    t.otp = s.otp := by
  intro s ha hh hc hw
  refine does_of rfl (when_of _ (by simp [ha, hh, hc, hw])) ?_
  have hr := State.afterReset_fr (r := s.chipWide) (cause := TOP_RESET_CAUSE.CHIP_RESET) (Nat.or_self _)
    (Nat.or_self _) (TOP_RESET_CAUSE.reg rfl) (Fr.refl _ _ _)
  refine ⟨?_, Eq.trans (hr.part .plan rfl) (State.chipWide_plan s), ?_, Eq.trans (hr.part .otp rfl) (State.chipWide_otp s)⟩
  · refine when_keeps (P := fun u => u.on TOP_RESET_CAUSE.CHIP_RESET = true) (fun u h => (State.setMode_fr ..).on rfl ?_)
      (State.caused_on _ rfl (on_hw _ rfl rfl))
    exact (on_p_far _ _ TOP_MODE.ix TOP_RESET_CAUSE.ix).trans <| (on_p_far _ _ FLT_STATUS.ix TOP_RESET_CAUSE.ix).trans <| (on_hw_beside _ rfl).trans h
  · exact congrArg BootS.asked (Eq.trans (hr.part .boot rfl) (State.chipWide_boot s))

theorem xtalRestartTimer_clears :
    ∀ (ready : Bool) (s : State), s.mode = 4 → s.boot.held = 0 → s.sticky 7 = true → ready = true → s.arisesNow 7 = false →
    Does (.xtalRestartTimer ready) s fun t => t.sticky 7 = false := by
  intro ready s hm hh hs hr hn
  refine does_of rfl (when_of _ (by simp [hm, hh, hs, hr])) (State.clearSource_sticky _ _ (by decide) (fun _ => rfl) ?_)
  exact (State.arisesNow_xtalLost (s := s) (State.yardsCrystal_fr (s.p PDC_XTAL.RUNNING 1)).pending rfl).trans hn

theorem safeExit_boots :
    ∀ (s : State), s.boot.held = 0 → s.mode = 4 → s.on FLT_STATUS.GRAVE = false → s.chipSticky = false →
    s.pln.commit = 0 → s.boot.planned = false → Does .safeExit s fun t => t.mode = 0 ∧ t.g TOP_MODE.BOOT_STEP = 2 := by
  intro s hh hm hg hs hc hp
  refine does_of (exec_safeExit hh hm hg hs hc) (if_neg (by simp [hp])) ⟨?_, g_p_of_lt rfl (by decide)⟩
  exact (g_p_beside _ _ rfl).trans (State.setMode_mode _ _ (by decide))

theorem safeExit_plans :
    ∀ (s : State), s.boot.held = 0 → s.mode = 4 → s.on FLT_STATUS.GRAVE = false → s.chipSticky = false →
    s.pln.commit = 0 → s.boot.planned = true → Does .safeExit s fun t => t.mode = 2 ∧ t.pln.act = none := by
  intro s hh hm hg hs hc hp
  refine does_of (exec_safeExit hh hm hg hs hc) (if_pos hp) ⟨State.setMode_mode _ _ (by decide), ?_⟩
  exact congrArg PlnS.act ((State.enterPlan_fr ..).part .pln rfl)

/-- Settles O12: each reset leaves a state cleared by R363, and each release goes on from there. -/
theorem resetsComplete : Obligations.ResetsComplete := by
  unfold Obligations.ResetsComplete
  exact ⟨porAssert_clears, porRelease_samples, resetNAssert_clears, resetNRelease_samples, chipResetBegin_clears,
    xtalRestartTimer_clears, safeExit_boots, safeExit_plans⟩
end Sys2Proof.Machine

/-!
# LIFELINE and its starter; SERVICE entered
-/
namespace Sys2Proof.Machine

set_option Elab.async false

/-! ## SERVICE (R199, R354): outside LIFELINE no ramp is shed, so its entry raises no source -/

section
variable {r s : State}

/-- Outside LIFELINE a ramp begins, wakes PPA, or waits for its seat. -/
theorem State.tryRamp_fr_of_mode (n : Nat) (h : s.mode ≠ 1) :
    Fr 98 4893107481805726112301736754626244050031342266613760 s (s.tryRamp n) := by
  have hs := Fr.refl 98 4893107481805726112301736754626244050031342266613760 s
  rw [State.tryRamp, decide_eq_false h]
  exact Fr.ite (Fr.ite (Fr.step (State.wakeBy_fr ..) rfl rfl hs) (Fr.step (State.startRamp_fr ..) rfl rfl hs))
    (Fr.ite (Fr.p (PPW_STATUS.reg rfl) hs) hs)

/-- Ramps in a row keep the mode, and so none is shed. -/
theorem Fr.ramps {m b : Nat} (l : List Nat) (hm : 98 ||| m = m) (hb : 4893107481805726112301736754626244050031342266613760 ||| b = b)
    (h184 : b.testBit 184 = false) (hany : b.testBit 196 = false) (hr : r.mode ≠ 1) (h : Fr m b r s) :
    Fr m b r (s.each l fun n s => s.tryRamp n) :=
  Fr.each (fun n u hu => Fr.step (State.tryRamp_fr_of_mode n (by rwa [mode_kept hu h184 hany])) hm hb hu) h

theorem State.partnerGone_fr_of_mode (n : Nat) (h : s.mode ≠ 1) :
    Fr 17416734462 3069884200631564984476685097248047219161542236835946496 s (s.partnerGone n) := by
  unfold State.partnerGone
  refine Fr.ite (Fr.ramps _ rfl rfl rfl rfl h (Fr.step (State.disconnectHost_fr ..) rfl rfl ?_))
    (Fr.step (State.mirLocal_fr ..) rfl rfl <| Fr.step (State.patIdle_fr ..) rfl rfl ?_)
  all_goals
    exact Fr.step (State.dataOff_fr ..) rfl rfl <| Fr.when (fun _ h => Fr.withDp rfl <| Fr.p (TKR_FUNC.reg rfl) <|
      Fr.p (TCP_DP.reg rfl) <| Fr.p (TCP_DP.reg rfl) <| Fr.step (State.muxSafe_fr ..) rfl rfl h) <| Fr.refl _ _ _

theorem State.errorRecovery_fr_of_mode (n : Nat) (h : s.mode ≠ 1) :
    Fr 17416734462 3069884200631564984476685097248047219161542236835946496 s (s.errorRecovery n) := by
  have hu : Fr 17416734462 3069884200631564984476685097248047219161542236835946496 s
      (((s.powerDown n).p (TCP_PORT.RP n) 0).ccState n 9) :=
    Fr.step (State.ccState_fr ..) rfl rfl <| Fr.p (TCP_PORT.reg rfl) <| Fr.step (State.powerDown_fr ..) rfl rfl <| Fr.refl _ _ _
  exact Fr.step (State.partnerGone_fr_of_mode n (by rwa [mode_kept hu rfl rfl])) rfl rfl hu

/-- Once SERVICE is the mode, its entry changes neither the mode nor what start-up holds. -/
theorem State.enterService_fr_setMode (s : State) (c : Nat) :
    Fr 17416734462 3069884200631564984476685097248047219161542236835946496 (s.setMode 3 c) (s.enterService c) := by
  have hm : (s.setMode 3 c).mode ≠ 1 := by rw [State.setMode_mode s c (by decide)]; decide
  have hs := Fr.refl 17416734462 3069884200631564984476685097248047219161542236835946496 (s.setMode 3 c)
  exact Fr.step (State.beginBarn_fr _) rfl rfl <| Fr.ramps _ rfl rfl rfl rfl hm <| Fr.step (State.takeRoles_fr _) rfl rfl <|
    Fr.ite (Fr.step (State.toUnattached_fr ..) rfl rfl hs) (State.errorRecovery_fr_of_mode 15 hm)

theorem State.enterService_mode (s : State) (c : Nat) : (s.enterService c).mode = 3 :=
  (mode_kept (s.enterService_fr_setMode c) rfl rfl).trans (s.setMode_mode c (by decide))

theorem State.enterService_boot (s : State) (c : Nat) : (s.enterService c).boot = s.boot :=
  Eq.trans ((s.enterService_fr_setMode c).part .boot rfl) <| (State.setMode_fr ..).part .boot rfl

end

theorem starterArmed_arms :
    ∀ (lifeEn : Bool) (s : State), lifeEn = true → s.boot.held = 1 → s.boot.starter = 0 → s.boot.starterFlag = false →
    Does (.starterArmed lifeEn) s fun t => t.boot.starter = 1 := by
  intro lifeEn s hl hh hs hf
  exact does_of rfl (when_of _ (by simp [hl, hh, hs, hf])) rfl

theorem starterSinkPathClosed_closes :
    ∀ (s : State), s.boot.held = 1 → s.boot.starter = 1 → Does .starterSinkPathClosed s fun t => t.boot.starter = 2 := by
  intro s hh hs
  exact does_of rfl (when_of _ (by simp [hh, hs])) rfl

theorem starterHoldOffEnd_clears :
    ∀ (s : State), Does .starterHoldOffEnd s fun t => t.boot.starterFlag = false := by
  intro s
  exact does_of rfl rfl rfl

theorem lifelineVinRestored_notes :
    ∀ (s : State), s.onSinkPath = true → Does .lifelineVinRestored s fun t => t.boot.handover = true := by
  intro s hp
  exact does_of rfl (when_of _ hp) rfl

theorem lifelineHandoverDone_serves :
    ∀ (s : State), s.onSinkPath = true → s.boot.handover = true → Does .lifelineHandoverDone s fun t =>
    t.on TOP_STRAP.LIFE_SUPPLY = false ∧ t.boot.handover = false := by
  intro s hp hh
  refine does_of rfl (when_of _ (by simp [hp, hh])) ⟨?_, ?_⟩
  · exact (State.enterService_fr ..).on rfl <| on_when (fun _ h => (State.disconnectHost_fr ..).on rfl <| h) <|
      (State.chMod_fr ..).on rfl <| on_p_zero _ rfl
  · refine (congrArg BootS.handover (State.enterService_boot _ _)).trans ?_
    exact when_keeps (P := fun u => u.boot.handover = _) (fun _ h => (congrArg BootS.handover ((State.disconnectHost_fr ..).part .boot rfl)).trans <|
      h) <| (congrArg BootS.handover ((State.chMod_fr ..).part .boot rfl)).trans <|
      (congrArg BootS.handover ((State.powerDown_fr ..).part .boot rfl)).trans <| rfl

theorem lifelineExitAbandon_ends :
    ∀ (s : State), Does .lifelineExitAbandon s fun t => t.boot.handover = false := by
  intro s
  exact does_of rfl rfl rfl

/-- Settles O14: command by command: the starter's steps and the hand-over are assignments; UP0's recovery leaves the straps. -/
theorem lifelineComplete : Obligations.LifelineComplete := by
  unfold Obligations.LifelineComplete
  exact ⟨starterArmed_arms, starterSinkPathClosed_closes, starterHoldOffEnd_clears, lifelineVinRestored_notes,
    lifelineHandoverDone_serves, lifelineExitAbandon_ends⟩
end Sys2Proof.Machine

/-!
# Queues and fault sources; the channels of the power path
-/
namespace Sys2Proof.Machine

set_option Elab.async false

section
variable {s : State} {q n : Nat}

theorem obs_obsMod {g : ObsQ → ObsQ} (h : q < 4) : vat (s.obsMod q g).obs q = g (vat s.obs q) := vat_vmod _ g h

/-- Staging for EP2 takes no record away. -/
theorem State.restage_obs (s : State) (h : q < 4) :
    (vat (s.restage q).obs q).writing = (vat s.obs q).writing ∧ (vat (s.restage q).obs q).recs = (vat s.obs q).recs := by
  refine when_keeps (P := fun u => (vat u.obs q).writing = (vat s.obs q).writing ∧ (vat u.obs q).recs = (vat s.obs q).recs) ?_ ⟨rfl, rfl⟩
  intro u hu
  rwa [obs_obsMod h]

theorem State.takeWaiting_of_none (flying : Bool) (h : (vat s.obs q).waiting = []) : s.takeWaiting q flying = s := by
  rw [State.takeWaiting, h]
  cases (vat s.obs q).writing <;> rfl

/-- Queue q once its record r has become visible, before it takes the next. -/
def State.recordEnded (s : State) (q : Nat) (r : Rec) : State :=
  let o := vat s.obs q
  (((s.obsMod q fun o => { o with writing := none, recs := o.recs ++ [r.lengthWord o.rseq :: r.body], rseq := (o.rseq + 1) % 256 }).pmu
    0x15 q).mark (.pushed q)).when o.stalled fun s =>
      (s.out (.read 1 [r.lengthWord o.rseq])).obsMod q fun o => { o with stalled := false, readPos := 1 }

theorem State.recordEnded_obs (s : State) {r : Rec} (h : q < 4) (hq : (vat s.obs q).waiting = []) :
    (vat (s.recordEnded q r).obs q).writing = none ∧
    (vat (s.recordEnded q r).obs q).recs = (vat s.obs q).recs ++ [r.lengthWord (vat s.obs q).rseq :: r.body] ∧
    (vat (s.recordEnded q r).obs q).waiting = [] := by
  refine when_keeps (P := fun u => (vat u.obs q).writing = none ∧
    (vat u.obs q).recs = (vat s.obs q).recs ++ [r.lengthWord (vat s.obs q).rseq :: r.body] ∧ (vat u.obs q).waiting = []) ?_ ?_
  · intro u hu
    rwa [obs_obsMod h]
  · have hp (u : State) : ((u.pmu 0x15 q).mark (.pushed q)).obs = u.obs := (State.pmu_fr ..).part .obs rfl
    rw [hp, obs_obsMod h]
    exact ⟨rfl, rfl, hq⟩

theorem State.finishRecord_eq {r : Rec} (flying : Bool) (hw : (vat s.obs q).writing = some r)
    (hq : (vat (s.recordEnded q r).obs q).waiting = []) : s.finishRecord q flying = (s.recordEnded q r).restage q := by
  rw [← State.takeWaiting_of_none flying hq, State.finishRecord, hw]
  rfl

end

theorem queueRecordWrite_shows :
    ∀ (q : Fin 4) (flying : Bool) r (s : State), (vat s.obs q).writing = some r → (vat s.obs q).waiting = [] →
    Does (.queueRecordWrite q flying) s fun t => (vat t.obs q).writing = none ∧
    (vat t.obs q).recs = (vat s.obs q).recs ++ [r.lengthWord (vat s.obs q).rseq :: r.body] := by
  intro q flying r s hw hq
  have hv := s.recordEnded_obs (r := r) q.isLt hq
  rw [Does, show exec (.queueRecordWrite q flying) s = _ from congrArg Host.Outcome.next (State.finishRecord_eq flying hw hv.2.2)]
  exact ⟨_, rfl, (State.restage_obs _ q.isLt).1.trans hv.1, (State.restage_obs _ q.isLt).2.trans hv.2.1⟩

theorem queueReadStallTimeout_answers :
    ∀ (q : Fin 4) (s : State), (vat s.obs q).stalled = true → Does (.queueReadStallTimeout q) s fun t =>
    (vat t.obs q).stalled = false ∧ t.outs = (.read 1 [0] :: s.outs) := by
  intro q s h
  exact does_of rfl (when_of _ h) ⟨congrArg ObsQ.stalled (obs_obsMod q.isLt), rfl⟩

theorem faultRaised_sticks :
    ∀ (src : Fin 128) (q : Fin 256) (aux : Fin 256) (s : State), faultExists src = true → s.masked src = false →
    s.mode ≠ 0 → s.boot.held = 0 → Does (.faultRaised src q aux) s fun t => t.sticky src = true := by
  intro src q aux s he hm hb hh
  exact does_of rfl ((if_neg (by simp [he, hm, hb, hh])).trans (if_neg (by simp [hh]))) (State.raise_sticky _ _ src.isLt)

theorem selfCheck_raises :
    ∀ (ok : Bool) (s : State), ok = false → s.boot.held = 0 → Does (.selfCheck ok) s fun t => t.sticky 0 = true := by
  intro ok s hok hh
  exact does_of rfl (when_of _ (by simp [hok, hh])) (State.raise_sticky _ _ (by decide))

/-- Settles O18: command by command: a record's length word makes it visible, and a source that arises sets its bit. -/
theorem queuesAndFaultsComplete : Obligations.QueuesAndFaultsComplete := by
  unfold Obligations.QueuesAndFaultsComplete
  exact ⟨queueRecordWrite_shows, queueReadStallTimeout_answers, faultRaised_sticks, selfCheck_raises⟩

section
variable {s : State} {n k : Nat}

/-- An event bit of a channel as a field. -/
def evtBit (n k : Nat) : Fld := ⟨PPW_EVT.addr n, k, 1⟩

/-- A channel's trip sets its event bit, and counts. -/
theorem State.tripChannel_marks (s : State) (onMs : Nat) (hn : n < 17) (hk : k < 7) :
    (s.tripChannel n (evtBit n k) onMs).on (evtBit n k) = true ∧
    (s.tripChannel n (evtBit n k) onMs).g (PPW_RETRY.COUNT n) = min 31 (s.g (PPW_RETRY.COUNT n) + 1) := by
  have hl : (PPW_EVT.LATCHED n).beside (evtBit n k) = true := by
    simp only [Fld.beside, Fld.fits, PPW_EVT.LATCHED, evtBit, Nat.ble_eq, Bool.and_eq_true, Bool.or_eq_true]
    omega
  have hf : (evtBit n k).fits = true := Nat.ble_eq_true_of_le (by simp only [evtBit]; omega)
  let u := ((s.hw (evtBit n k)).gateOff n).p (PPW_RETRY.COUNT n) (min 31 (((s.hw (evtBit n k)).gateOff n).g (PPW_RETRY.COUNT n) + 1))
  have he : u.on (evtBit n k) = true := (on_p_far _ _ (PPW_RETRY.ix _ hn) (PPW_EVT.ix _ hn)).trans <|
    on_kept (PPW_EVT.kept hn (State.gateOff_fr ..) rfl rfl) (on_hw _ hf rfl)
  have hc : u.g (PPW_RETRY.COUNT n) = min 31 (s.g (PPW_RETRY.COUNT n) + 1) := by
    refine (g_p_of_lt rfl (Nat.lt_of_le_of_lt (Nat.min_le_left ..) (show 31 < 2 ^ 5 by decide))).trans ?_
    rw [show ((s.hw (evtBit n k)).gateOff n).g (PPW_RETRY.COUNT n) = s.g (PPW_RETRY.COUNT n) by exact g_kept (PPW_RETRY.kept hn (State.gateOff_fr ..) rfl rfl) <|
      (g_hw_far _ (PPW_EVT.ix _ hn) (PPW_RETRY.ix _ hn)).trans <| rfl]
  unfold State.tripChannel
  refine ⟨?_, ?_⟩
  · exact on_kept (PPW_EVT.kept hn (State.pmu_fr ..) rfl rfl) <|
      on_when (fun _ h => on_kept (PPW_EVT.kept hn (State.vconnOff_fr ..) rfl rfl) <|
        on_kept (PPW_EVT.kept hn (State.endContract_fr ..) rfl rfl) h) <|
      ite_keeps (P := fun u => u.on (evtBit n k) = true)
        ((on_hw_beside _ hl).trans <| (on_p_far _ _ (PPW_STATUS.ix _ hn) (PPW_EVT.ix _ hn)).trans he)
        ((on_p_far _ _ (PPW_RETRY.ix _ hn) (PPW_EVT.ix _ hn)).trans <| (on_p_far _ _ (PPW_STATUS.ix _ hn) (PPW_EVT.ix _ hn)).trans <|
          on_kept (PPW_EVT.kept hn (State.chMod_fr ..) rfl rfl) he)
  · exact g_kept (PPW_RETRY.kept hn (State.pmu_fr ..) rfl rfl) <|
      g_when (fun _ h => g_kept (PPW_RETRY.kept hn (State.vconnOff_fr ..) rfl rfl) <|
        g_kept (PPW_RETRY.kept hn (State.endContract_fr ..) rfl rfl) h) <|
      ite_keeps (P := fun u => u.g (PPW_RETRY.COUNT n) = _)
        ((g_hw_far _ (PPW_EVT.ix _ hn) (PPW_RETRY.ix _ hn)).trans <| (g_p_far _ _ (PPW_STATUS.ix _ hn) (PPW_RETRY.ix _ hn)).trans hc)
        ((g_p_beside _ _ rfl).trans <| (g_p_far _ _ (PPW_STATUS.ix _ hn) (PPW_RETRY.ix _ hn)).trans <|
          g_kept (PPW_RETRY.kept hn (State.chMod_fr ..) rfl rfl) hc)

/-- A trip sets its event bit, counts, and raises its source. -/
theorem State.trip_marks (src onMs : Nat) (hn : n < 17) (hk : k < 7) (hsrc : src < 128) (h : (s.tripCh n).gate = true) :
    let t := s.trip n (evtBit n k) src onMs
    t.on (evtBit n k) = true ∧ t.g (PPW_RETRY.COUNT n) = min 31 (s.g (PPW_RETRY.COUNT n) + 1) ∧ t.sticky src = true := by
  intro t
  have ht : t = _ := if_neg (by simp [h])
  obtain ⟨he, hc⟩ := (s.unmark (.seatOut n (s.tripCh n))).tripChannel_marks onMs hn hk
  rw [ht]
  refine ⟨?_, ?_, State.raise_sticky _ _ hsrc⟩
  · exact on_kept (PPW_EVT.kept hn (State.raise_fr ..) rfl rfl) <|
      on_when (fun _ h => on_kept (PPW_EVT.kept hn (State.ocReport_fr ..) rfl rfl) <| h) <| he
  · exact g_kept (PPW_RETRY.kept hn (State.raise_fr ..) rfl rfl) <|
      g_when (fun _ h => g_kept (PPW_RETRY.kept hn (State.ocReport_fr ..) rfl rfl) <| h) <| hc

end

theorem fastTrip_trips :
    ∀ (n : Channel) (onMs : Nat) (s : State), (s.tripCh n).gate = true → Does (.fastTrip n onMs) s fun t =>
    t.on (PPW_EVT.FAST n) = true ∧ t.g (PPW_RETRY.COUNT n) = min 31 (s.g (PPW_RETRY.COUNT n) + 1) ∧ t.sticky 80 = true := by
  intro n onMs s h
  exact does_of rfl rfl (State.trip_marks 80 onMs n.isLt (k := 0) (by decide) (by decide) h)

theorem slowTrip_trips :
    ∀ (n : Channel) (onMs : Nat) (s : State), (s.tripCh n).gate = true → s.fastAhead n = false → Does (.slowTrip n onMs) s fun t =>
    t.on (PPW_EVT.SLOW n) = true ∧ t.g (PPW_RETRY.COUNT n) = min 31 (s.g (PPW_RETRY.COUNT n) + 1) ∧ t.sticky 81 = true := by
  intro n onMs s h hf
  exact does_of rfl (when_of _ (by simp [hf])) (State.trip_marks 81 onMs n.isLt (k := 1) (by decide) (by decide) h)

theorem undervoltageTrip_trips :
    ∀ (n : Channel) (onMs : Nat) (s : State), (s.tripCh n).gate = true → (s.tripCh n).rampDone = true →
    s.on (PPW_STATUS.SINK n) = false → Does (.undervoltageTrip n onMs) s fun t => t.on (PPW_EVT.UV n) = true ∧
    t.g (PPW_RETRY.COUNT n) = min 31 (s.g (PPW_RETRY.COUNT n) + 1) ∧ t.sticky 82 = true := by
  intro n onMs s h hr hs
  exact does_of rfl (when_of _ (by simp [hr, hs])) (State.trip_marks 82 onMs n.isLt (k := 2) (by decide) (by decide) h)

theorem rampFail_trips :
    ∀ (n : Channel) (onMs : Nat) (s : State), (s.tripCh n).gate = true → (s.tripCh n).rampDone = false →
    s.on (PPW_STATUS.SINK n) = false → Does (.rampFail n onMs) s fun t => t.on (PPW_EVT.RAMP_FAIL n) = true ∧
    t.g (PPW_RETRY.COUNT n) = min 31 (s.g (PPW_RETRY.COUNT n) + 1) ∧ t.sticky 83 = true := by
  intro n onMs s h hr hs
  exact does_of rfl (when_of _ (by simp [hr, hs])) (State.trip_marks 83 onMs n.isLt (k := 3) (by decide) (by decide) h)

theorem gateStuck_trips :
    ∀ (n : Channel) (onMs : Nat) (s : State), (s.tripCh n).gate = true → (s.tripCh n).rampDone = true →
    s.on (PPW_STATUS.GATE_OK n) = false → Does (.gateStuck n onMs) s fun t => t.on (PPW_EVT.GATE_STUCK n) = true ∧
    t.g (PPW_RETRY.COUNT n) = min 31 (s.g (PPW_RETRY.COUNT n) + 1) ∧ t.sticky 84 = true := by
  intro n onMs s h hr hs
  exact does_of rfl (when_of _ (by simp [hr, hs])) (State.trip_marks 84 onMs n.isLt (k := 4) (by decide) (by decide) h)

/-- Settles O20: each is a trip (`State.trip_marks`), with its own event bit and source. -/
theorem tripsComplete : Obligations.TripsComplete := by
  unfold Obligations.TripsComplete
  exact ⟨fastTrip_trips, slowTrip_trips, undervoltageTrip_trips, rampFail_trips, gateStuck_trips⟩
section
variable {s : State} {n : Nat}

theorem State.tryRamp_of_canRamp (hd : s.domOn dPPA = true) (hc : s.canRamp n = true) (hm : s.mode ≠ 1) :
    s.tryRamp n = s.startRamp n := by
  rw [State.tryRamp, if_pos hc, if_neg (by simp [hd]), if_neg (by simp [hm])]

/-- A latch is released (R237): COUNT returns to 0, whatever ramp that starts. -/
theorem State.releaseLatch_count (s : State) (hn : n < 17) (h : s.g (PPW_STATUS.STATE n) ≠ 6) : (s.releaseLatch n).g (PPW_RETRY.COUNT n) = 0 := by
  refine (congrArg (fun u : State => u.g (PPW_RETRY.COUNT n)) (when_of_not _ (decide_eq_false ?_))).trans (g_p_lit rfl rfl)
  rwa [g_p_far _ _ (PPW_RETRY.ix _ hn) (PPW_STATUS.ix _ hn)]

theorem State.releaseLatch_of_latched (hn : n < 17) (h : s.g (PPW_STATUS.STATE n) = 6) : s.releaseLatch n =
    (((s.p (PPW_RETRY.COUNT n) 0).chMod n fun c => { c with retrying := false }).p (PPW_STATUS.STATE n) 0).tryRamp n := by
  unfold State.releaseLatch
  exact when_of _ (decide_eq_true ((g_p_far _ _ (PPW_RETRY.ix _ hn) (PPW_STATUS.ix _ hn)).trans h))

/-- The end of a retry wait leaves the channel's state. -/
theorem retryWaited_state (s : State) (n : Channel) :
    ((s.chMod n fun c => { c with waiting := false }).p (PPW_RETRY.WAIT n) 0).g (PPW_STATUS.STATE n) = s.g (PPW_STATUS.STATE n) := by
  exact (g_p_far _ _ (PPW_RETRY.ix _ n.isLt) (PPW_STATUS.ix _ n.isLt)).trans <|
    g_kept (PPW_STATUS.kept n.isLt (State.chMod_fr ..) rfl rfl) <| rfl

theorem seatBit_fits {b : Nat} (h : b < 32) : (seatBit b).fits = true := Nat.ble_eq_true_of_le h

theorem seatBit_beside {b c : Nat} (h : b < 32) (hc : b ≠ c) : (seatBit b).beside (seatBit c) = true := by
  rw [Fld.beside, seatBit_fits h]
  simp only [seatBit, Nat.ble_eq, Bool.true_and, Bool.or_eq_true]
  omega

theorem seatBit_out {m c : Nat} (h : maskFree m PPW_SEAT.addr = true) : maskFree m (seatBit c).addr = true := h

/-- Which stall a seat input names does not hang on a register. -/
theorem State.seatStall_p (s : State) (f : Fld) (v i : Nat) : (s.p f v).seatStall i = s.seatStall i := rfl

theorem State.fetShort_marks (s : State) (hn : n < 17) : (s.fetShort n).on (PPW_EVT.FET_SHORT n) = true ∧ (s.fetShort n).sticky 85 = true := by
  refine ⟨?_, State.raise_sticky _ _ (by decide)⟩
  exact on_kept (PPW_EVT.kept hn (State.raise_fr ..) rfl rfl) <| on_hw _ rfl rfl

end

theorem rampStart_starts :
    ∀ (n : Channel) (s : State), s.domOn dPPA = true → s.canRamp n = true → s.mode ≠ 1 → Does (.rampStart n) s fun t => (t.ch n).gate = true ∧
    t.g (PPW_STATUS.STATE n) = (if (s.ch n).retrying then 5 else 2) := by
  intro n s hd hc hm
  refine does_of rfl (State.tryRamp_of_canRamp hd hc hm) ⟨?_, ?_⟩
  · exact (congrArg Chan.gate (ch_chMod n.isLt)).trans <| rfl
  · exact (g_p_far _ _ (BUD_PORT.ix _ n.isLt) (PPW_STATUS.ix _ n.isLt)).trans <|
      (g_p_far _ _ (BUD_PORT.ix _ n.isLt) (PPW_STATUS.ix _ n.isLt)).trans <| (g_p_beside _ _ rfl).trans <|
      (g_p _ _ rfl).trans (by split <;> rfl)

theorem rampStart_wakes :
    ∀ (n : Channel) (s : State), s.canRamp n = true → s.domOn dPPA = false → Does (.rampStart n) s fun t =>
    t = s.wakeBy (groupClient n) dPPA := by
  intro n s hc hd
  exact does_of rfl ((if_pos hc).trans (if_pos (by simp [hd]))) rfl

theorem slowTimerReset_stops :
    ∀ (n : Channel) (s : State), Does (.slowTimerReset n) s fun t => t.on (PPW_STATUS.TIMER n) = false := by
  intro n s
  refine does_of rfl rfl ?_
  exact on_p_zero _ rfl

theorem attemptWindowEnd_succeeds :
    ∀ (n : Channel) (s : State), s.tripCh n = s.ch n → (s.ch n).attempt = true → (s.ch n).rampDone = true →
    (s.ch n).gate = true → Does (.attemptWindowEnd n) s fun t => (t.ch n).attempt = false ∧
    t.g (PPW_STATUS.STATE n) = 3 ∧ t.on (PPW_EVT.RETRY_OK n) = true := by
  intro n s ht ha hr hg
  refine does_of rfl ((if_neg (by simp [ht, ha])).trans (if_neg (by simp [ht, hr]))) ⟨?_, ?_, ?_⟩
  · exact when_keeps (P := fun u => (u.ch ↑n).attempt = _) (fun _ h => h) <| (congrArg Chan.attempt (ch_chMod n.isLt)).trans <|
      rfl
  · refine (g_hw_far _ (PPW_EVT.ix _ n.isLt) (PPW_STATUS.ix _ n.isLt)).trans ?_
    have hc := ch_chMod (s := s) (g := fun c => { c with attempt := false, retrying := false }) n.isLt
    rw [when_of _ ((congrArg Chan.gate hc).trans hg), if_pos ((congrArg Chan.rampDone hc).trans hr)]
    exact g_p_lit rfl rfl
  · exact on_hw _ rfl rfl

theorem attemptWindowEnd_fails :
    ∀ (n : Channel) (s : State), (s.tripCh n).attempt = true → (s.tripCh n).rampDone = false → (s.tripCh n).gate = true →
    s.on (PPW_STATUS.SINK n) = false → Does (.attemptWindowEnd n) s fun t => t.on (PPW_EVT.RAMP_FAIL n) = true ∧
    t.sticky 83 = true := by
  intro n s ha hr hg hs
  obtain ⟨he, -, hk⟩ := State.trip_marks (s := s) 83 20 n.isLt (k := 3) (by decide) (by decide) hg
  exact does_of rfl ((if_neg (by simp [ha])).trans (if_pos (by simp [hr, hs]))) ⟨he, hk⟩

theorem retryWaitEnd_ramps :
    ∀ (n : Channel) (s : State), (s.ch n).waiting = true → s.g (PPW_STATUS.STATE n) = 4 → Does (.retryWaitEnd n) s fun t =>
    t = (((s.chMod n fun c => { c with waiting := false }).p (PPW_RETRY.WAIT n) 0).p (PPW_STATUS.STATE n) 0).tryRamp n := by
  intro n s hw hs
  exact does_of rfl ((when_of _ hw).trans (when_of _ (decide_eq_true (retryWaited_state s n |>.trans hs)))) rfl

theorem retryWaitEnd_waits :
    ∀ (n : Channel) (s : State), (s.ch n).waiting = true → s.g (PPW_STATUS.STATE n) ≠ 4 → Does (.retryWaitEnd n) s fun t =>
    t = (s.chMod n fun c => { c with waiting := false }).p (PPW_RETRY.WAIT n) 0 := by
  intro n s hw hs
  exact does_of rfl ((when_of _ hw).trans (when_of_not _ (decide_eq_false (by rwa [retryWaited_state])))) rfl

theorem pgStableTimer_forgets :
    ∀ (n : Channel) (s : State), s.on (PPW_STATUS.PG n) = true → s.g (PPW_STATUS.STATE n) ≠ 6 →
    Does (.pgStableTimer n) s fun t => t.g (PPW_RETRY.COUNT n) = 0 := by
  intro n s hp hs
  exact does_of rfl (when_of _ hp) (State.releaseLatch_count s n.isLt hs)

theorem unseatedResetTimer_forgets :
    ∀ (n : Channel) (s : State), s.seated n = false → s.g (PPW_STATUS.STATE n) ≠ 6 →
    Does (.unseatedResetTimer n) s fun t => t.g (PPW_RETRY.COUNT n) = 0 := by
  intro n s hp hs
  exact does_of rfl (when_of _ (by simp [hp])) (State.releaseLatch_count s n.isLt hs)

theorem unseatedResetTimer_releases :
    ∀ (n : Channel) (s : State), s.hasCC n = true → (s.ch n).attached = false → s.g (PPW_STATUS.STATE n) = 6 →
    Does (.unseatedResetTimer n) s fun t =>
    t = (((s.p (PPW_RETRY.COUNT n) 0).chMod n fun c => { c with retrying := false }).p (PPW_STATUS.STATE n) 0).tryRamp n := by
  intro n s hc ha hs
  exact does_of rfl ((when_of _ (by simp [hc, ha])).trans (State.releaseLatch_of_latched n.isLt hs)) rfl

theorem seatInputChange_shows :
    ∀ (i : Fin 8) (low : Bool) (s : State), Does (.seatInputChange i low) s fun t => t.on (seatBit i) = low ∧
    ∀ n, s.seatStall i = some n → n < 17 → (t.ch n).seatLow = low := by
  intro i low s
  refine does_of rfl rfl ?_
  have hb := on_p_b2n s low (seatBit_fits (by omega : i.val < 32)) rfl
  simp only [State.seatStall_p]
  cases hn : s.seatStall i with
  | none => exact ⟨hb, nofun⟩
  | some n =>
    refine ⟨?_, ?_⟩
    · exact on_kept (PPW_SEAT.kept (State.wakeBy_fr ..) rfl rfl) <| on_kept (PPW_SEAT.kept (State.chMod_fr ..) rfl rfl) <| hb
    · rintro _ ⟨⟩ hk
      exact (congrArg Chan.seatLow ((State.wakeBy_fr ..).ch rfl n)).trans <| congrArg Chan.seatLow (ch_chMod hk)

theorem seatDebounceEnd_seats :
    ∀ (i : Fin 8) (s : State), s.on (seatBit i) = true → Does (.seatDebounceEnd i) s fun t =>
    t.on (seatBit (8 + i)) = true := by
  intro i s h
  refine does_of rfl (when_of _ h) ?_
  have hb := on_p_one s (seatBit_fits (by omega : 8 + i.val < 32)) rfl
  simp only [State.seatStall_p]
  cases hn : s.seatStall i with
  | none => exact hb
  | some n =>
    exact on_kept (PPW_SEAT.kept (State.tryRamp_fr ..) rfl rfl) <| (on_p_out (b := 2 ^ 106) _ _ (PPW_STATUS.reg rfl) (seatBit_out rfl)).trans <|
      hb

theorem seatRemoval_removes :
    ∀ (i : Fin 8) (s : State), s.on (seatBit (8 + i)) = true → Does (.seatRemoval i) s fun t =>
    t.on (seatBit (8 + i)) = false ∧ ∀ n, s.seatStall i = some n → n < 17 → t.on (PPW_EVT.SEAT_OUT n) = true := by
  intro i s h
  refine does_of rfl (when_of _ h) ?_
  have hb := on_p_zero (s.p (seatBit i) 0) (seatBit_fits (by omega : 8 + i.val < 32))
  simp only [State.seatStall_p]
  cases hn : s.seatStall i with
  | none => exact ⟨hb, nofun⟩
  | some n =>
    refine ⟨?_, ?_⟩
    · exact on_when (fun _ h => (on_p_out (b := 2 ^ 106) _ _ (PPW_STATUS.reg rfl) (seatBit_out rfl)).trans h) <|
        on_kept (PPW_SEAT.kept (State.dataOff_fr ..) rfl rfl) <| on_kept (PPW_SEAT.kept (State.switchOff_fr ..) rfl rfl) <|
        (on_hw_out (b := 2 ^ 107) _ (PPW_EVT.reg rfl) (seatBit_out rfl)).trans <| (on_p_out (b := 2 ^ 106) _ _ (PPW_STATUS.reg rfl) (seatBit_out rfl)).trans <|
        on_when (fun _ h => h) <| hb
    · rintro _ ⟨⟩ hk
      exact on_when (fun _ h => (on_p_far _ _ (PPW_STATUS.ix _ hk) (PPW_EVT.ix _ hk)).trans h) <|
        on_kept (PPW_EVT.kept hk (State.dataOff_fr ..) rfl rfl) <| on_kept (PPW_EVT.kept hk (State.switchOff_fr ..) rfl rfl) <|
        on_hw _ rfl rfl

theorem dischargeDone_ramps :
    ∀ (n : Channel) (s : State), s.on (PPW_STATUS.DISCH n) = true → (s.ch n).gate = false →
    Does (.dischargeDone n) s fun t =>
    t = ((s.chMod n fun c => { c with vbusLow := true }).p (PPW_STATUS.DISCH n) 0).tryRamp n := by
  intro n s hd hg
  exact does_of rfl ((when_of _ hd).trans (b := s.vbusFell n) (when_of _ (by simp [hg]))) rfl

theorem dischargeTimeout_shorts :
    ∀ (n : Channel) (s : State), (s.ch n).sinkOff = false → s.on (PPW_STATUS.DISCH n) = true → (s.ch n).gate = false →
    Does (.dischargeTimeout n) s fun t => t.on (PPW_EVT.FET_SHORT n) = true ∧ t.sticky 85 = true := by
  intro n s ho hd hg
  exact does_of rfl (when_of _ (by simp [ho, hd, hg])) (State.fetShort_marks _ n.isLt)

theorem vbusRisingGateOff_shorts :
    ∀ (n : Channel) (s : State), (s.ch n).gate = false → s.on (PPW_STATUS.DISCH n) = false →
    s.sourceDir n = true → Does (.vbusRisingGateOff n) s fun t => t.on (PPW_EVT.FET_SHORT n) = true ∧
    t.sticky 85 = true := by
  intro n s hg hd ho
  exact does_of rfl (when_of _ (by simp [ho, hd, hg])) (State.fetShort_marks _ n.isLt)

theorem pgAssert_asserts :
    ∀ (n : Channel) (timer : Bool) (gateOk : Bool) (s : State), (s.ch n).gate = true → (s.ch n).rampDone = true →
    timer = false → s.on (PPW_STATUS.TIMER n) = false → (s.ch n).pgWithheld = false →
    Does (.pgAssert n timer gateOk) s fun t => t.on (PPW_STATUS.PG n) = true ∧ (gateOk = true →
    t.on (PPW_STATUS.GATE_OK n) = true) := by
  intro n timer gateOk s hg hr ht hs hw
  have hch : (s.when gateOk fun s => s.p (PPW_STATUS.GATE_OK n) 1).ch n = s.ch n := by exact when_keeps (P := fun u => u.ch ↑n = _) (fun _ h => h) <|
    rfl
  have htm : (s.when gateOk fun s => s.p (PPW_STATUS.GATE_OK n) 1).on (PPW_STATUS.TIMER n) = false := by exact on_when (fun _ h => (on_p_beside _ _ rfl).trans <|
    h) <| hs
  refine does_of rfl ((if_neg (by rw [hch]; simp [hg, hr])).trans ((if_neg (by simp [ht])).trans (if_neg (by rw [htm, hch]; simp [hw])))) ⟨?_, ?_⟩
  · exact on_p_one _ rfl rfl
  · rintro rfl
    exact (on_p_beside _ _ rfl).trans <| on_kept (PPW_STATUS.kept n.isLt (State.chMod_fr ..) rfl rfl) <| on_p_one _ rfl rfl

theorem pgAssert_withholds :
    ∀ (n : Channel) (timer : Bool) (gateOk : Bool) (s : State), (s.ch n).gate = true → (s.ch n).rampDone = true →
    timer = true → Does (.pgAssert n timer gateOk) s fun t => t.on (PPW_STATUS.TIMER n) = true ∧
    (t.ch n).pgWithheld = true ∧ t.on (PPW_EVT.PG_WITHHELD n) = true := by
  intro n timer gateOk s hg hr ht
  have hch : (s.when gateOk fun s => s.p (PPW_STATUS.GATE_OK n) 1).ch n = s.ch n := by exact when_keeps (P := fun u => u.ch ↑n = _) (fun _ h => h) <|
    rfl
  refine does_of rfl ((if_neg (by rw [hch]; simp [hg, hr])).trans (if_pos ht)) ⟨?_, ?_, ?_⟩
  · exact (on_hw_far _ (PPW_EVT.ix _ n.isLt) (PPW_STATUS.ix _ n.isLt)).trans <| on_p_one _ rfl rfl
  · exact congrArg Chan.pgWithheld (ch_chMod n.isLt)
  · exact on_hw _ rfl rfl

theorem pgHoldEnd_asserts :
    ∀ (n : Channel) (s : State), (s.ch n).pgWithheld = true → s.on (PPW_STATUS.TIMER n) = false →
    (s.ch n).rampDone = true → Does (.pgHoldEnd n) s fun t => t.on (PPW_STATUS.PG n) = true ∧ (t.ch n).pgWithheld = false := by
  intro n s hw ht hr
  refine does_of rfl (when_of _ (by simp [hw, ht, hr])) ⟨?_, ?_⟩
  · exact on_p_one _ rfl rfl
  · exact (congrArg Chan.pgWithheld (ch_chMod n.isLt)).trans <| rfl

/-- Settles O19: command by command, from the one rule of each operation of a channel. -/
theorem powerChannelsComplete : Obligations.PowerChannelsComplete := by
  unfold Obligations.PowerChannelsComplete
  exact ⟨rampStart_starts, rampStart_wakes, slowTimerReset_stops, attemptWindowEnd_succeeds, attemptWindowEnd_fails,
    retryWaitEnd_ramps, retryWaitEnd_waits, pgStableTimer_forgets, unseatedResetTimer_forgets,
    unseatedResetTimer_releases, seatInputChange_shows, seatDebounceEnd_seats, seatRemoval_removes,
    dischargeDone_ramps, dischargeTimeout_shorts, vbusRisingGateOff_shorts, pgAssert_asserts, pgAssert_withholds,
    pgHoldEnd_asserts⟩
end Sys2Proof.Machine

/-!
# A control message that is taken

What the arrival of a CTRL bale may set off, an ECC error of its cell with the reaction to it included, changes neither the member
number nor the sequences seen; so the checks of a bale's header stand until its message takes effect (R176).
-/
namespace Sys2Proof.Machine

set_option Elab.async false

/-- The member number and the control sequences seen; and of the losses still to be settled, that the member itself is among them
only where `c` allows it. -/
structure State.Knows (s : State) (m : Nat) (l : List (Nat × Nat)) (c : Prop := True) : Prop where
  member : s.fab.member = m
  seen : s.fab.seen = l
  lost : m ∈ s.fab.lost → c

namespace State.Knows
variable {m : Nat} {l : List (Nat × Nat)} {c : Prop} {s t : State}

theorem of_fab (e : t.fab = s.fab) (h : s.Knows m l c) : t.Knows m l c := ⟨by rw [e, h.member], by rw [e, h.seen], by rw [e]; exact h.lost⟩

end State.Knows

/-- What leaves the fabric's part of the state keeps both. -/
theorem Fr.knows {k b m : Nat} {l : List (Nat × Nat)} {c : Prop} {s t : State} (hf : Fr k b s t) (hk : k.testBit 18 = false)
    (h : s.Knows m l c) : t.Knows m l c := h.of_fab (hf.part .fab hk)

namespace State.Knows
variable {m : Nat} {l : List (Nat × Nat)} {c : Prop} {s t : State}

/-! ## Registers and the other parts of the state -/

theorem p {f : Fld} {v : Nat} (h : s.Knows m l c) : (s.p f v).Knows m l c := ⟨h.member, h.seen, h.lost⟩
theorem hw {f : Fld} (h : s.Knows m l c) : (s.hw f).Knows m l c := ⟨h.member, h.seen, h.lost⟩
theorem inc {f : Fld} {n : Nat} (h : s.Knows m l c) : (s.inc f n).Knows m l c := ⟨h.member, h.seen, h.lost⟩
theorem incSat {f : Fld} {n : Nat} (h : s.Knows m l c) : (s.incSat f n).Knows m l c := ⟨h.member, h.seen, h.lost⟩
theorem mark {k : Mark} (h : s.Knows m l c) : (s.mark k).Knows m l c := ⟨h.member, h.seen, h.lost⟩
theorem withPort {x} (h : s.Knows m l c) : (s.withPort x).Knows m l c := ⟨h.member, h.seen, h.lost⟩
theorem withSs {x} (h : s.Knows m l c) : (s.withSs x).Knows m l c := ⟨h.member, h.seen, h.lost⟩
theorem withTack {x} (h : s.Knows m l c) : (s.withTack x).Knows m l c := ⟨h.member, h.seen, h.lost⟩
theorem withHs {x} (h : s.Knows m l c) : (s.withHs x).Knows m l c := ⟨h.member, h.seen, h.lost⟩
theorem withPdc {x} (h : s.Knows m l c) : (s.withPdc x).Knows m l c := ⟨h.member, h.seen, h.lost⟩
theorem withMirror {x} (h : s.Knows m l c) : (s.withMirror x).Knows m l c := ⟨h.member, h.seen, h.lost⟩
theorem withMbx {x} (h : s.Knows m l c) : (s.withMbx x).Knows m l c := ⟨h.member, h.seen, h.lost⟩
theorem withFlt {x} (h : s.Knows m l c) : (s.withFlt x).Knows m l c := ⟨h.member, h.seen, h.lost⟩
theorem withBoot {x} (h : s.Knows m l c) : (s.withBoot x).Knows m l c := ⟨h.member, h.seen, h.lost⟩

theorem fabMod {g : FabS → FabS} (h : s.Knows m l c) (hm : ∀ f, (g f).member = f.member := by intro f; rfl)
    (hs : ∀ f, (g f).seen = f.seen := by intro f; rfl) (hl : ∀ f, (g f).lost = f.lost := by intro f; rfl) : (s.fabMod g).Knows m l c :=
  ⟨(hm _).trans h.member, (hs _).trans h.seen, fun e => h.lost ((hl _).subst e)⟩

theorem when {b : Bool} {g : State → State} (hg : ∀ u : State, u.Knows m l c → (g u).Knows m l c) (h : s.Knows m l c) :
    (s.when b g).Knows m l c := when_keeps hg h

theorem each {ns : List Nat} {g : Nat → State → State} (hg : ∀ n (u : State), u.Knows m l c → (g n u).Knows m l c) (h : s.Knows m l c) :
    (s.each ns g).Knows m l c := each_keeps hg ns s h

theorem ite {p : Prop} [Decidable p] (hs : s.Knows m l c) (ht : t.Knows m l c) : (if p then s else t).Knows m l c := by split <;> assumption

/-! ## Control messages sent -/

theorem nextCseq {d : Nat} (h : s.Knows m l c) : (s.nextCseq d).2.Knows m l c := ⟨h.member, h.seen, h.lost⟩

theorem ctrlTo {d : Nat} {name : String} {fields : List Nat} (h : s.Knows m l c) : (s.ctrlTo d name fields).Knows m l c := by
  unfold State.ctrlTo
  refine ite h ?_
  split
  · exact h
  · exact (State.ctrlOn_fr ..).knows rfl h.nextCseq

theorem ctrlAll {name : String} {fields : List Nat} (h : s.Knows m l c) : (s.ctrlAll name fields).Knows m l c :=
  each (fun _ _ h => (State.ctrlOn_fr ..).knows rfl h) h.nextCseq

theorem tellUp {slot : Nat} (h : s.Knows m l c) : (s.tellUp slot).Knows m l c := by
  unfold State.tellUp
  split
  · exact h
  · exact ite h <| each (fun _ _ h => h.ctrlTo) h

/-! ## Ports and engines -/

theorem ssWake {n : Nat} (h : s.Knows m l c) : (s.ssWake n).Knows m l c := by
  unfold State.ssWake
  split
  · exact h
  · split
    · exact h
    · exact ite ((State.wakeHost_fr ..).knows rfl h) h.ctrlTo

theorem mirSend {n : Nat} (h : s.Knows m l c) : (s.mirSend n).Knows m l c := by
  unfold State.mirSend
  have h : (s.withPort (vmod s.port n fun q => { q with seq := (q.seq + 1) % 65536 })).Knows m l c := h.withPort
  dsimp only
  split
  · exact h
  · exact each (fun _ _ h => ite ((State.mirMod_fr ..).knows rfl h) h.ctrlTo) h

theorem mirLocal {n : Nat} {g : PortStat → PortStat} (h : s.Knows m l c) : (s.mirLocal n g).Knows m l c :=
  ite h <| when (fun _ h => h.ssWake) <| h.withPort.mirSend

theorem ocReport {n : Nat} (h : s.Knows m l c) : (s.ocReport n).Knows m l c := (State.chMod_fr ..).knows rfl h.mirLocal

theorem engState {e st : Nat} (h : s.Knows m l c) : (s.engState e st).Knows m l c := by
  unfold State.engState
  exact when (fun _ h => h.tellUp) <| (State.linkJudge_fr ..).knows rfl <| each (fun _ _ h => (State.linkJudge_fr ..).knows rfl h) <|
    (State.linkJudge_fr ..).knows rfl h.p

theorem ssLink {n st : Nat} (h : s.Knows m l c) : (s.ssLink n st).Knows m l c := by
  unfold State.ssLink
  refine ite h ?_
  have h : ((((s.p (SSH_PORT.LINK n) st).hw (SSH_PORT_EVT.LINK_CHG n)).linkJudge (portDom n)).linkJudge dHUB).Knows m l c :=
    (State.linkJudge_fr ..).knows rfl <| (State.linkJudge_fr ..).knows rfl h.p.hw
  refine ite (mirLocal <| when (fun _ h => (State.patIdle_fr ..).knows rfl h) <| when (fun _ h => h.withSs) h) ?_
  split
  · exact h
  · exact tellUp <| when (fun _ h => (State.ssHubOff_fr ..).knows rfl h) h

theorem dataOff {n : Nat} (h : s.Knows m l c) : (s.dataOff n).Knows m l c := by
  unfold State.dataOff
  exact when (fun _ h => (State.hsState_fr ..).knows rfl h) h.ssLink

theorem disconnectHost {u : Nat} (h : s.Knows m l c) : (s.disconnectHost u).Knows m l c := by
  unfold State.disconnectHost
  refine when (fun t h => ?_) (ssLink (n := 15 + u) (st := 4) h).p.p.p.withTack
  have h : (t.p (UPP_PADDOCK.STATE u) 2).Knows m l c := h.p
  dsimp only
  split
  · exact h
  · exact tellUp <| (State.cdpJudge_fr ..).knows rfl <| (State.defaultPower_fr ..).knows rfl <|
      each (fun _ _ h => h.p.engState) h.withSs.withHs.withPdc

/-! ## Links -/

theorem installRoutes {rs : List RouteE} (h : s.Knows m l c) : (s.installRoutes rs).Knows m l c := by
  unfold State.installRoutes
  refine each (fun d u h => ?_) <| each (fun _ _ h => h.p.p.p.p) <| h.fabMod
  refine ite (when (fun _ h => (State.memberRecord_fr ..).knows rfl h.hw) h.p.withMirror.withMbx) ?_
  split
  · next hgone =>
    -- a member reaches itself
    have hself : m ≠ d := by
      rintro rfl
      simp [State.reach, h.member] at hgone
    refine (State.memberRecord_fr ..).knows rfl (hw ⟨h.member, h.seen, fun e => ?_⟩)
    exact h.lost ((List.mem_append.1 e).resolve_right fun e => hself (List.mem_singleton.1 e))
  · exact h

theorem startResync {d : Nat} (h : s.Knows m l c) : (s.startResync d).Knows m l c :=
  ite (ctrlTo <| fabMod <| (State.unqueue_fr ..).knows rfl h) h

theorem entryFailed {i : Nat} (h : s.Knows m l c) : (s.entryFailed i).Knows m l c := by
  unfold State.entryFailed
  split
  · exact h
  · refine ite h <| each (fun _ _ h => h.startResync) ?_
    exact (h.fabMod).installRoutes.inc.hw

theorem linkLost {k : Nat} (h : s.Knows m l c) : (s.linkLost k).Knows m l c := by
  unfold State.linkLost
  have h : (((s.dropTransit k).lkMod k fun l => { failed := l.failed }).when
      (((s.dropTransit k).lkMod k fun l => { failed := l.failed }).g (HSH_CARRY.STATE k) = 1) fun s =>
        s.p (HSH_CARRY.STATE k) 2).Knows m l c :=
    when (fun _ h => h.p) <| (State.lkMod_fr ..).knows rfl <| (State.dropTransit_fr ..).knows rfl h
  refine foldl_keeps (P := fun u : State => u.Knows m l c) (fun _ _ h => (State.resendCtrl_fr ..).knows rfl h) _ _ ?_
  split
  · exact h
  · exact when (fun _ h => h.entryFailed.fabMod.ctrlAll) h

theorem glkOff {k : Nat} (h : s.Knows m l c) : (s.glkOff k).Knows m l c :=
  when (fun _ h => h.p) <| (State.lkMod_fr ..).knows rfl <| when (fun _ h => h.linkLost) <| p <|
    (State.glkState_fr ..).knows rfl <| (State.linkBale_fr ..).knows rfl h

/-! ## The reactions to a fault source -/

theorem portReaction {n : Nat} {power : Bool} (h : s.Knows m l c) : (s.portReaction n power).Knows m l c := by
  unfold State.portReaction
  have h := when (b := ((s.switchOff n).dataOff n).hasCC n) (g := fun s => (s.endContract n).vconnOff n)
    (fun _ h => (State.vconnOff_fr ..).knows rfl <| (State.endContract_fr ..).knows rfl h)
    (dataOff (n := n) <| (State.switchOff_fr s n).knows rfl h)
  exact ite h.disconnectHost <| ite h.ocReport h.mirLocal

theorem reactPort {src q : Nat} (h : s.Knows m l c) : (s.reactPort src q).Knows m l c := by
  unfold State.reactPort
  refine ite h ?_
  split
  · split
    · exact h.portReaction
    · exact h
  · exact ite (when (fun _ h => (State.attempt_fr ..).knows rfl h) h.glkOff) h
  · exact ite (each (fun _ _ h => h.portReaction) h) h
  · exact h

theorem safeOutputs (h : s.Knows m l c) : s.safeOutputs.Knows m l c := by
  unfold State.safeOutputs
  refine each (fun _ _ h => (State.muxSafe_fr ..).knows rfl h.disconnectHost) <| each (fun _ _ h => h.glkOff) <| each (fun n u h => ?_) h
  exact when (fun _ h => (State.ccState_fr ..).knows rfl <| p <| (State.powerDown_fr ..).knows rfl h) <|
    dataOff <| (State.switchOff_fr ..).knows rfl h

theorem reactChip {src sev : Nat} (h : s.Knows m l c) : (s.reactChip src sev).Knows m l c := by
  unfold State.reactChip
  have cause {u : State} {b : Bool} (h : u.Knows m l c) :
      ((((u.when b fun s => s.p TOP_MODE.SAFE_CAUSE src).p FLT_STATUS.CAUSE src).p FLT_STATUS.CAUSE_SEV sev).p
        FLT_STATUS.CAUSE_VALID 1).Knows m l c := 
    p <| p <| p <| when (fun _ h => h.p) h
  refine ite h <| ite (ite (cause h).withFlt h) ?_
  refine when (fun _ h => h.withFlt) <| when (fun _ h => (State.setMode_fr ..).knows rfl h.p.p) <|
    when (fun _ h => h.p.p.p) <| cause <| safeOutputs <| when (fun _ h => h.withBoot) h.withFlt

theorem raise {src q : Nat} (h : s.Knows m l c) : (s.raise src q).Knows m l c := by
  unfold State.raise
  have h (b b' : Bool) : ((((((s.setSticky src true).when b fun s => s.p (FLT_QUAL.FIRST src) q).p (FLT_QUAL.LAST src) q).incSat
      (FLT_QUAL.COUNT src)).record 0 0x03 4 [src + s.severity src * 2^8 + q * 2^16]).when b' fun s =>
        ((s.withPdc { s.pdc with faultHeld := true }).mark (.raised 0 dMGT)).judge dMGT 0).Knows m l c :=
    when (fun _ h => (State.judge_fr ..).knows rfl h.withPdc.mark) <| (State.record_fr ..).knows rfl <| incSat <| p <|
      when (fun _ h => h.p) <|
      (State.setSticky_fr ..).knows rfl h
  exact ite (h _ _) <| ite (h _ _).reactPort (h _ _).reactChip

/-! ## The bale's arrival -/

theorem ctrlCell {bh : BaleHdr} (h : s.Knows m l c) : (s.ctrlCell bh).2.Knows m l c := by
  have h := (State.takeCells_fr _ 21 1).knows rfl <| (State.rxSequenced_fr s bh.link).knows rfl h
  exact (State.rxHdr_fr ..).knows rfl <| p <| ite h.hw.incSat <| when (fun _ h => h.hw.incSat.raise) h

theorem rxCtrlBale {bh : BaleHdr} (h : s.Knows m l c) : (s.rxCtrlBale bh).Knows m l c :=
  (State.lkMod_fr ..).knows rfl <| (State.freeCells_fr ..).knows rfl h.ctrlCell

end State.Knows

/-- A message that is taken takes its effect on the state its bale's arrival leaves. -/
theorem State.rxCtrl_of_taken {c : CtrlHdr} {s : State} (h : Taken c s) (name : String) (fields : List Nat) (g : State → State) :
    s.rxCtrl c name fields g = g (s.rxCtrl c name fields id) := by
  obtain ⟨hlink, hroom, hseen, hdest⟩ := h
  have hk : s.Knows s.fab.member s.fab.seen := ⟨rfl, rfl, fun _ => trivial⟩
  have hc : (s.ctrlCell c.hdr).2.Knows s.fab.member s.fab.seen := hk.ctrlCell
  have hr : (s.rxCtrlBale c.hdr).Knows s.fab.member s.fab.seen := hk.rxCtrlBale
  simp only [State.rxCtrl, hlink, hroom, hc.seen, hc.member, hr.seen, hseen]
  split at hdest
  next hb => simp [hb, hdest]
  next hb => simp [hb, hdest]

end Sys2Proof.Machine

/-!
# Telemetry, the input monitor and the budget; the mailboxes
-/
namespace Sys2Proof.Machine

set_option Elab.async false

section
variable {s : State} {n : Nat} {P : State → Prop}

/-- A run over a list of numbers that holds n leaves what its step at n brings about and no other step undoes. -/
theorem each_at {l : List Nat} {g : Nat → State → State} (hn : n ∈ l) (hset : ∀ u, P (g n u))
    (hkeep : ∀ k ∈ l, k ≠ n → ∀ u, P u → P (g k u)) (s : State) : P (s.each l g) := by
  induction l generalizing s with
  | nil => cases hn
  | cons k t ih =>
    by_cases hk : n ∈ t
    · exact ih hk (fun j hj => hkeep j (List.mem_cons_of_mem _ hj)) (g k s)
    · obtain rfl : n = k := (List.mem_cons.1 hn).resolve_right hk
      have hrest : ∀ (t : List Nat) (u : State), n ∉ t → (∀ k ∈ t, k ≠ n → ∀ u, P u → P (g k u)) → P u → P (u.each t g) := by
        intro t
        induction t with
        | nil => exact fun u _ _ hu => hu
        | cons j t ih =>
          exact fun u hj hk hu => ih _ (List.not_mem_of_not_mem_cons hj) (fun i hi => hk i (List.mem_cons_of_mem _ hi))
            (hk j (List.mem_cons_self ..) (List.ne_of_not_mem_cons hj).symm u hu)
      exact hrest t _ hk (fun j hj => hkeep j (List.mem_cons_of_mem _ hj)) (hset s)

theorem any_congr {k : Nat} {a b : Nat → Bool} (h : ∀ n, n < k → a n = b n) : (List.range k).any a = (List.range k).any b := by
  rw [Bool.eq_iff_iff]
  simp only [List.any_eq_true, List.mem_range]
  exact exists_congr fun n => and_congr_right fun hn => by rw [h n hn]

theorem TLM_INST.addr_ne {k : Nat} (hn : n < 17) (h : k ≠ n) : TLM_INST.addr n ≠ TLM_INST.addr k := by
  unfold TLM_INST.addr
  split <;> split <;> omega

/-- A channel's sample after its first two writes: no instantaneous value changes. -/
theorem State.sampleChannel_keeps (s : State) (c : ChanSample) {k v : Nat} (hn : n < 17) (hk : k < 17)
    (h : ∀ w, (((s.p (TLM_INST.V k) ((((c.v1 + c.v2) * 15 / 2 : Nat) : Int)).toNat).p (TLM_INST.I k) w).g (TLM_INST.V n)) = v) :
    (s.sampleChannel k c).g (TLM_INST.V n) = v := by
  unfold State.sampleChannel
  refine g_kept (TLM_INST.kept hn (State.tlmMod_fr ..) rfl rfl) <|
    g_kept (TLM_INST.kept hn (State.closeBlock_fr (m := 0) (b := 166153499473114484112975882535043072) rfl rfl (TLM_AVG1S.reg rfl) (TLM_AVG1S.reg rfl) (Fr.refl _ _ _)) rfl rfl) <|
    g_kept (TLM_INST.kept hn (State.closeBlock_fr (m := 0) (b := 83076749736557242056487941267521536) rfl rfl (TLM_AVG100MS.reg rfl) (TLM_AVG100MS.reg rfl) (Fr.refl _ _ _)) rfl rfl) <|
    g_kept (TLM_INST.kept hn (State.closeBlock_fr (m := 0) (b := 41538374868278621028243970633760768) rfl rfl (TLM_AVG1MS.reg rfl) (TLM_AVG1MS.reg rfl) (Fr.refl _ _ _)) rfl rfl) <|
    g_when (fun _ h => (g_p_far _ _ (TLM_PWR.ix _ hk) (TLM_INST.ix _ hn)).trans h) <|
    g_when (fun _ h => (g_p_far _ _ (TLM_PWR.ix _ hk) (TLM_INST.ix _ hn)).trans h) <|
    ite_keeps (P := fun u => u.g (TLM_INST.V n) = _) ((g_p_far _ _ (TLM_PEAK.ix _ hk) (TLM_INST.ix _ hn)).trans <|
    g_when (fun _ h => (g_p_far _ _ (PPW_STATUS.ix _ hk) (TLM_INST.ix _ hn)).trans h) (h _)) ((g_p_far _ _ (TLM_PEAK.ix _ hk) (TLM_INST.ix _ hn)).trans <|
    g_when (fun _ h => (g_p_far _ _ (PPW_STATUS.ix _ hk) (TLM_INST.ix _ hn)).trans h) (h _))

/-- After the seventeen samples of a frame each channel shows its own voltage. -/
theorem State.samples_v (s : State) (c : Nat → ChanSample) (hn : n < 17) :
    (s.each (List.range 17) fun k u => u.sampleChannel k (c k)).g (TLM_INST.V n) =
      (((c n).v1 + (c n).v2) * 15 / 2) % 2 ^ (TLM_INST.V n).width := by
  refine each_at (P := fun u => u.g (TLM_INST.V n) = _) (g := fun k u => u.sampleChannel k (c k)) (List.mem_range.2 hn)
    (fun u => ?_) (fun k hk hne u h => ?_) s
  · exact State.sampleChannel_keeps u (c n) hn hn fun w => (g_p_beside _ _ rfl).trans (g_p _ _ rfl)
  · exact State.sampleChannel_keeps u (c k) hn (List.mem_range.1 hk) fun w =>
      (g_p_ne _ _ (TLM_INST.addr_ne hn hne)).trans ((g_p_ne _ _ (TLM_INST.addr_ne hn hne)).trans h)

theorem State.alertAll_fr (s : State) : Fr 16777730 4893107481783862970145939295814194120568611952132096 s
    (s.each (List.range 17) fun n s => s.alertInput n) := by
  exact Fr.each (fun n u h => h.comp (State.alertInput_fr u n)) (Fr.refl ..)

/-- The alarm of a cause keeps the bits it found, and PWRWARN stands after it. -/
theorem State.warnFrom_on (s : State) (c : Bool) {f : Fld} (hf : f.addr = TLM_INWARN.addr)
    (h : f = TLM_INWARN.PWRWARN ∨ TLM_INWARN.PWRWARN.beside f = true ∧ s.on f = true) :
    (if s.on TLM_INWARN.PWRWARN = true then s.when c fun s => s.each (List.range 17) fun n s => s.alertInput n
      else ((((s.p TLM_INWARN.PWRWARN 1).hw BUD_EVT.WARN).p BUD_STATE.WARN 1).sumBudget).each (List.range 17) fun n s =>
        s.alertInput n).on f = true := by
  have hfree : ∀ k : Nat, maskFree k TLM_INWARN.addr = true → maskFree k f.addr = true := fun k hk => by rw [hf, hk]
  have hix : regIx f.addr = regIx TLM_INWARN.addr := by rw [hf]
  split
  next hw =>
    have hs : s.on f = true := h.elim (fun e => e ▸ hw) And.right
    exact on_when (fun u hu => (State.alertAll_fr u).on (hfree _ rfl) hu) hs
  next hw =>
    refine (State.alertAll_fr _).on (hfree _ rfl) <| (State.sumBudget_fr ..).on (hfree _ rfl) <|
      (on_p_far _ _ BUD_STATE.ix (hix.trans TLM_INWARN.ix)).trans <| (on_hw_far _ BUD_EVT.ix (hix.trans TLM_INWARN.ix)).trans ?_
    rcases h with rfl | ⟨hb, hs⟩
    · exact on_p_one _ rfl rfl
    · exact (on_p_beside _ _ hb).trans hs

theorem State.pwrwarn_on (s : State) (cause : WarnCause) : (s.pwrwarn cause).on TLM_INWARN.PWRWARN = true := by
  cases cause <;> exact State.warnFrom_on _ _ rfl (.inl rfl)

/-- The alarm of a cause shows the cause's own bit. -/
theorem State.pwrwarn_vin (s : State) : (s.pwrwarn .vin).on TLM_INWARN.VIN_LOW = true :=
  State.warnFrom_on _ _ rfl (.inr ⟨rfl, on_hw _ rfl rfl⟩)

theorem State.pwrwarn_iin (s : State) : (s.pwrwarn .iin).on TLM_INWARN.IIN_HIGH = true :=
  State.warnFrom_on _ _ rfl (.inr ⟨rfl, on_hw _ rfl rfl⟩)

theorem State.pwrwarn_acFail (s : State) : (s.pwrwarn .acFail).on TLM_INWARN.AC_FAIL = true :=
  State.warnFrom_on _ _ rfl (.inr ⟨rfl, on_hw _ rfl rfl⟩)

end

theorem telemetryFrame_shows :
    ∀ (f : TlmFrame) (s : State), s.on TLM_CTRL.ENABLE = true → s.domOn dPPA = true → Does (.telemetryFrame f) s fun t =>
    (∀ n, n < 17 →
    t.g (TLM_INST.V n) = ((f.chans.getD n default).v1 + (f.chans.getD n default).v2) * 15 / 2 % 2 ^ (TLM_INST.V n).width) ∧
    t.g TLM_TEMP.T0 = tempField f.temps 0 := by
  intro f s he hd
  refine does_of rfl (if_neg (by simp [he, hd])) ⟨fun n hn => ?_, ?_⟩
  · refine g_kept (TLM_INST.kept hn (State.sumBudget_fr ..) rfl rfl) <| g_kept (TLM_INST.kept hn (State.thermal_fr ..) rfl rfl) <|
      (g_p_far _ _ TLM_TEMP.ix (TLM_INST.ix _ hn)).trans <| (g_p_far _ _ TLM_TEMP.ix (TLM_INST.ix _ hn)).trans <|
      (g_p_far _ _ TLM_TEMP.ix (TLM_INST.ix _ hn)).trans <| (g_p_far _ _ TLM_TEMP.ix (TLM_INST.ix _ hn)).trans <|
      ite_keeps (P := fun u => u.g (TLM_INST.V n) = _) (g_regs (State.withBud_regs ..) <|
      (g_p_far _ _ TLM_ECLR.ix (TLM_INST.ix _ hn)).trans <| State.samples_v _ (fun k => f.chans.getD k default) hn) ((g_p_far _ _ TLM_INPUT.ix (TLM_INST.ix _ hn)).trans <|
      (g_p_far _ _ TLM_INPUT.ix (TLM_INST.ix _ hn)).trans <| g_regs (State.withBud_regs ..) <|
      (g_p_far _ _ TLM_ECLR.ix (TLM_INST.ix _ hn)).trans <| State.samples_v _ (fun k => f.chans.getD k default) hn)
  · refine (State.sumBudget_fr ..).g rfl <| (State.thermal_fr ..).g rfl <| (g_p_beside _ _ rfl).trans <|
      (g_p_beside _ _ rfl).trans <| (g_p_beside _ _ rfl).trans <| g_p_of_lt rfl ?_
    show (max 0 (min 255 (f.temps.getD 0 0 + 64))).toNat < 256
    omega

theorem firstUseEnd_ends :
    ∀ (n : Channel) (s : State), s.on (BUD_PORT.FIRST_USE n) = true → Does (.firstUseEnd n) s fun t =>
    t.on (BUD_PORT.FIRST_USE n) = false := by
  intro n s h
  refine does_of rfl (when_of _ h) ?_
  unfold State.sumBudget
  exact on_when (fun _ h => (on_p_far _ _ BUD_STATE.ix (BUD_PORT.ix _ n.isLt)).trans h) <|
    (on_p_far _ _ BUD_STATE.ix (BUD_PORT.ix _ n.isLt)).trans <| (on_p_far _ _ BUD_STATUS.ix (BUD_PORT.ix _ n.isLt)).trans <|
    (on_p_far _ _ BUD_STATUS.ix (BUD_PORT.ix _ n.isLt)).trans <| on_regs (State.withBud_regs ..) <|
    each_keeps (P := fun u => u.on (BUD_PORT.FIRST_USE ↑n) = _) (fun _ _ h => (on_p_beside _ _ rfl).trans <|
    on_kept (BUD_PORT.kept n.isLt (State.tlmMod_fr ..) rfl rfl) h) _ _ <| on_p_zero _ rfl

theorem pwrwarnAssert_warns :
    ∀ (cause : WarnCause) (s : State), (cause = .iin ∨ s.domOn dPPA = true) → s.mode ≠ 1 → (cause = .acFail → bitOf s.powerE.flags 0 = true) →
    Does (.pwrwarnAssert cause) s fun t => t.on TLM_INWARN.PWRWARN = true ∧ (cause = .vin →
    t.on TLM_INWARN.VIN_LOW = true) ∧ (cause = .iin → t.on TLM_INWARN.IIN_HIGH = true) ∧ (cause = .acFail →
    t.on TLM_INWARN.AC_FAIL = true) := by
  intro cause s hc hm ha
  have hds : (if cause = .iin then [] else [dPPA]).all s.domOn = true := by
    rcases hc with rfl | hd
    · rfl
    · split <;> simp [hd]
  refine does_of rfl ((if_neg (by cases cause <;> simp_all)).trans (if_pos hds)) ⟨State.pwrwarn_on s cause, ?_, ?_, ?_⟩
  all_goals rintro rfl
  · exact State.pwrwarn_vin s
  · exact State.pwrwarn_iin s
  · exact State.pwrwarn_acFail s

theorem pwrwarnAssert_waits :
    ∀ (cause : WarnCause) (s : State), s.mode ≠ 1 → (cause = .acFail → bitOf s.powerE.flags 0 = true) → cause ≠ .iin →
    s.domOn dPPA = false → Does (.pwrwarnAssert cause) s fun t => ([dPPA], .warn cause) ∈ t.pdc.late := by
  intro cause s hm ha hc hd
  exact does_of rfl ((if_neg (by cases cause <;> simp_all)).trans (if_neg (by simp [hc, hd]))) (by simp [hc, hd])

theorem pwrwarnRelease_ends :
    ∀ (s : State), s.on TLM_INWARN.PWRWARN = true → Does .pwrwarnRelease s fun t => t.on TLM_INWARN.PWRWARN = false ∧
    t.on BUD_STATE.WARN = false := by
  intro s h
  refine does_of rfl (when_of _ h) ⟨?_, ?_⟩
  · exact (State.sumBudget_fr ..).on rfl <| (on_p_far _ _ BUD_STATE.ix TLM_INWARN.ix).trans <| on_p_zero _ rfl
  · unfold State.sumBudget
    exact on_when (fun _ h => (on_p_beside _ _ rfl).trans h) <| (on_p_beside _ _ rfl).trans <|
      (on_p_far _ _ BUD_STATUS.ix BUD_STATE.ix).trans <| (on_p_far _ _ BUD_STATUS.ix BUD_STATE.ix).trans <|
      on_regs (State.withBud_regs ..) <|
      each_keeps (P := fun u => u.on (BUD_STATE.WARN) = _) (fun _ _ h => (State.account_fr ..).on rfl h) _ _ <| on_p_zero _ rfl

theorem vinUndervoltage_shows :
    ∀ (s : State), s.mode ≠ 1 → Does .vinUndervoltage s fun t => t.on TLM_INWARN.VIN_UV = true ∧ t.sticky 86 = true := by
  intro s hm
  refine does_of rfl (when_of _ (by simp [hm])) ⟨?_, State.raise_sticky _ _ (by decide)⟩
  exact (State.raise_fr ..).on rfl <| on_hw _ rfl rfl

theorem budgetReduce_reduces :
    ∀ (s : State), s.on BUD_CTRL.ENABLE = true → s.sumBudget.budgetNow < s.sumBudget.bud.sum →
    (s.sumBudget.reduceOrder.any fun k => !s.sumBudget.atFloor k) = true → Does .budgetReduce s fun t =>
    t.on BUD_EVT.REDUCE = true ∧ t.on BUD_STATE.REDUCING = true := by
  intro s he hb ha
  have he' : s.sumBudget.on BUD_CTRL.ENABLE = true := 
      (State.sumBudget_fr ..).on rfl <| he
  refine does_of rfl (if_neg (by simp_all)) ⟨?_, ?_⟩
  · exact each_keeps (P := fun u => u.on (BUD_EVT.REDUCE) = _) (fun _ _ h => (State.alertInput_fr ..).on rfl h) _ _ <|
      (on_p_far _ _ BUD_STATE.ix BUD_EVT.ix).trans <| on_hw _ rfl rfl
  · exact each_keeps (P := fun u => u.on (BUD_STATE.REDUCING) = _) (fun _ _ h => (State.alertInput_fr ..).on rfl h) _ _ <|
      on_p_one _ rfl rfl

theorem budgetShed_sheds :
    ∀ (onMs : Nat) n (s : State), s.on BUD_CTRL.ENABLE = true → s.sumBudget.budgetNow < s.sumBudget.bud.sum →
    (s.sumBudget.reduceOrder.all fun k => s.sumBudget.atFloor k) = true →
    (s.sumBudget.reduceOrder.find? fun k => s.sumBudget.g (BUD_PORT.PRIORITY k) ≠ 0) = some n →
    Does (.budgetShed onMs) s fun t => t.on BUD_EVT.SHED = true := by
  intro onMs n s he hb ha hf
  have he' : s.sumBudget.on BUD_CTRL.ENABLE = true := (State.sumBudget_fr ..).on rfl he
  refine does_of rfl ((if_neg (by simp_all)).trans (by rw [hf])) ?_
  exact (State.sumBudget_fr ..).on rfl <| (State.budgetRecord_fr ..).on rfl <|
    (on_p_out (b := 2 ^ 126) _ _ (BUD_PORT.reg rfl) rfl).trans <|
    (State.trip_fr (m := 17567737594) (b := 28421910042690324559437408247010314973073929331179257856) rfl rfl (PPW_EVT.reg rfl) (Fr.refl _ _ _)).on rfl <|
    on_hw _ rfl rfl

theorem budgetPeriodicReview_shows :
    ∀ (s : State), s.on BUD_CTRL.ENABLE = true → s.on TLM_INWARN.PWRWARN = false → Does .budgetPeriodicReview s fun t =>
    t.on BUD_STATE.REDUCING = (List.range 17).any fun n => t.on (BUD_PORT.REDUCED n) := by
  intro s he hw
  have he' : s.sumBudget.on BUD_CTRL.ENABLE = true := (State.sumBudget_fr ..).on rfl he
  have hw' : s.sumBudget.on TLM_INWARN.PWRWARN = false := (State.sumBudget_fr ..).on rfl hw
  refine does_of rfl (if_neg (by simp [he', hw'])) ((on_p_b2n _ _ rfl rfl).trans ?_)
  exact any_congr fun n hn => (on_p_far _ _ BUD_STATE.ix (BUD_PORT.ix _ hn)).symm

/-- Settles O25: command by command, with `each_at` for the seventeen channels of a frame. -/
theorem budgetCommandsComplete : Obligations.BudgetCommandsComplete := by
  unfold Obligations.BudgetCommandsComplete
  exact ⟨telemetryFrame_shows, firstUseEnd_ends, pwrwarnAssert_warns, pwrwarnAssert_waits, pwrwarnRelease_ends,
    vinUndervoltage_shows, budgetReduce_reduces, budgetShed_sheds, budgetPeriodicReview_shows⟩
end Sys2Proof.Machine

/-!
# The mailboxes
-/
namespace Sys2Proof.Machine

set_option Elab.async false

section
variable {s t : State} {c m b : Nat}

/-- What a change of one channel shows in that channel. -/
theorem mb_mbMod {g : MbxS → MbxS} (h : c < 12) : (s.mbMod c g).mb c = g (s.mb c) := vat_vmod _ g h

theorem vat_vmod_ne {α : Type} [Inhabited α] {n i j : Nat} (l : Vector α n) (g : α → α) (h : i ≠ j) : vat (vmod l i g) j = vat l j := by
  rw [vmod, vat_vset, if_neg fun e => h e.1]

theorem mb_mbMod_ne {g : MbxS → MbxS} {k : Nat} (h : k ≠ c) : (s.mbMod k g).mb c = s.mb c := vat_vmod_ne _ g h

theorem State.rxCtrl_id_fr (s : State) (c : CtrlHdr) (name : String) (fields : List Nat) :
    Fr 17567737594 28421910042690324559437205422914287901102690782328913920 s (s.rxCtrl c name fields id) :=
  State.rxCtrl_fr rfl rfl (fun _ h => h) (Fr.refl ..)

theorem Fr.mb (h : Fr m b s t) (hm : m.testBit 28 = false) (n : Nat) : t.mb n = s.mb n := by
  rw [State.mb, State.mb, show t.mbx = s.mbx from h.part .mbx hm]

theorem Fr.reach (h : Fr m b s t) (hm : m.testBit 18 = false) (d : Nat) : t.reach d = s.reach d := by
  rw [State.reach, State.reach, State.routeTo, State.routeTo, show t.fab = s.fab from h.part .fab hm]

/-- A control message sent changes no route. -/
theorem State.ctrlTo_reach (s : State) (d e : Nat) (name : String) (fields : List Nat) : (s.ctrlTo d name fields).reach e = s.reach e := by
  unfold State.ctrlTo
  split
  · rfl
  · split
    · rfl
    · exact (State.ctrlOn_fr ..).reach rfl e

/-- The doorbell of a channel is among the outputs once it rings. -/
theorem State.ring_out (s : State) (c cause tag : Nat) : .doorbell c cause tag ∈ (s.ring c cause tag).outs := by
  unfold State.ring State.out
  exact List.mem_cons_self ..

/-- The timeout of a channel's message, before any withdrawal. -/
def State.timedOut (s : State) (c : Nat) : State := ((s.hw (MBX_STATUS.OUT_TIMEOUT c)).mbMod c fun y => { y with rung := true }).ring c 3 0

/-- A timeout rings the doorbell; on NS6 the message to an unreachable member is withdrawn. -/
theorem State.outboundTimeout_eq (s : State) {c : Fin 12} (hg : s.on (MBX_OUT_CTRL.GO c) = true) (hr : (s.mb c).rung = false)
    (ha : s.ackAhead c = false) (hp : s.marks.contains (.posted c) = false) :
    (if !s.on (MBX_OUT_CTRL.GO c) || (s.mb c).rung || s.ackAhead c || s.marks.contains (.posted c) then s
      else (((s.hw (MBX_STATUS.OUT_TIMEOUT c)).mbMod c fun y => { y with rung := true }).ring c 3 0).when (c.val = 6)
        State.withdraw) = (s.timedOut c).when (c.val = 6) fun s => s.withdraw :=
  if_neg (by rw [hg, hr, ha, hp]; decide)

theorem State.timedOut_member (s : State) (c : Fin 12) : (s.timedOut c).g (MBX_OUT_CTRL.MEMBER 6) = s.g (MBX_OUT_CTRL.MEMBER 6) := by
  unfold State.timedOut
  exact (State.ring_fr ..).g rfl <| (State.mbMod_fr ..).g rfl <| g_hw_far _ (MBX_STATUS.ix _ c.isLt) (MBX_OUT_CTRL.ix 6 (by decide))

theorem State.timedOut_reach (s : State) (c d : Nat) : (s.timedOut c).reach d = s.reach d := by
  unfold State.timedOut
  rw [(State.ring_fr ..).reach rfl, (State.mbMod_fr ..).reach rfl]
  rfl

/-- A message whose member is reachable is not withdrawn. -/
theorem State.timedOut_stays (s : State) {c : Fin 12} (h6 : c.val = 6 → s.reach (s.g (MBX_OUT_CTRL.MEMBER 6)) = true) :
    ((s.timedOut c).when (c.val = 6) fun s => s.withdraw) = s.timedOut c := by
  by_cases hc : c.val = 6
  · rw [when_of _ (decide_eq_true hc)]
    unfold State.withdraw
    exact when_of_not _ (by simp [s.timedOut_member, s.timedOut_reach, h6 hc])
  · exact when_of_not _ (decide_eq_false hc)

theorem State.postHeld_of_nil (h : (s.mb c).held = []) : s.postHeld c = s := by
  unfold State.postHeld
  rw [h]
  rfl

/-- With nothing held, an outbound half that falls free stays free. -/
theorem State.outFree_of_nil (s : State) (hc : c < 8) (h : (s.mb c).held = []) :
    (s.outFree c).on (MBX_OUT_CTRL.GO c) = false ∧ ((s.outFree c).mb c).replyOut = false := by
  have hc' : c < 12 := by omega
  unfold State.outFree
  dsimp only
  rw [when_of_not _ (decide_eq_false (by omega)), State.postHeld_of_nil]
  · refine ⟨?_, by rw [mb_mbMod hc']⟩
    exact on_kept (MBX_OUT_CTRL.kept hc' (State.mbMod_fr ..) rfl rfl) <|
      on_when (fun _ h => on_kept (MBX_OUT_CTRL.kept hc' (State.histMod_fr ..) rfl rfl) h) <|
      on_kept (MBX_OUT_CTRL.kept hc' (State.releaseMailbox_fr ..) rfl rfl) <| on_p_zero _ rfl
  · rw [mb_mbMod hc']
    refine when_keeps (P := fun u => (u.mb c).held = []) (fun u hu => ?_) ?_
    · rw [State.histMod, mb_mbMod hc']
      exact hu
    · rw [(State.releaseMailbox_fr ..).mb rfl]
      exact h

end

theorem outboundTimeout_rings :
    ∀ (c : Fin 12) (s : State), s.marks.contains (.posted c) = false → s.on (MBX_OUT_CTRL.GO c) = true → (s.mb c).rung = false → s.ackAhead c = false →
    (c.val = 6 →
    s.reach (s.g (MBX_OUT_CTRL.MEMBER 6)) = true) → Does (.outboundTimeout c) s fun t =>
    t.on (MBX_STATUS.OUT_TIMEOUT c) = true ∧ (t.mb c).rung = true ∧ .doorbell c 3 0 ∈ t.outs := by
  intro c s hp hg hr ha h6
  refine does_of rfl (s.outboundTimeout_eq hg hr ha hp) ⟨?_, ?_, ?_⟩
  all_goals rw [s.timedOut_stays h6]
  · unfold State.timedOut
    exact on_kept (MBX_STATUS.kept c.isLt (State.ring_fr ..) rfl rfl) <|
      on_kept (MBX_STATUS.kept c.isLt (State.mbMod_fr ..) rfl rfl) <| on_hw _ rfl rfl
  · unfold State.timedOut
    rw [(State.ring_fr ..).mb rfl, mb_mbMod c.isLt]
  · exact State.ring_out ..

theorem outboundTimeout_withdraws :
    ∀ (c : Fin 12) (s : State), s.marks.contains (.posted c) = false → s.on (MBX_OUT_CTRL.GO c) = true → (s.mb c).rung = false → s.ackAhead c = false → c.val = 6 →
    s.reach (s.g (MBX_OUT_CTRL.MEMBER 6)) = false → Does (.outboundTimeout c) s fun t =>
    t = ((((s.hw (MBX_STATUS.OUT_TIMEOUT c)).mbMod c fun y => { y with rung := true }).ring c 3 0).mbMod 6 fun y => { y with shut := s.g (MBX_OUT_CTRL.MEMBER 6) :: y.shut }).outFree 6 := by
  intro c s hp hg hr ha h6 hu
  have hgo : (s.timedOut c).on (MBX_OUT_CTRL.GO 6) = true := by
    unfold State.timedOut
    exact (State.ring_fr ..).on rfl <| (State.mbMod_fr ..).on rfl <| (on_hw_far _ (MBX_STATUS.ix _ c.isLt) (MBX_OUT_CTRL.ix 6 (by decide))).trans (h6 ▸ hg)
  have hru : ((s.timedOut c).mb 6).rung = true := by
    unfold State.timedOut
    rw [(State.ring_fr ..).mb rfl, h6, mb_mbMod (by decide)]
  refine does_of rfl (s.outboundTimeout_eq hg hr ha hp) ?_
  rw [when_of _ (decide_eq_true h6)]
  unfold State.withdraw
  rw [s.timedOut_member]
  exact when_of _ (by simp [hgo, hru, s.timedOut_reach, hu])

theorem inboundPoll_sees :
    ∀ (s : State), s.domOn dMGT = true → Does .inboundPoll s fun t => ∀ c, c < 12 → s.on (MBX_IN_CTRL.GO c) = true →
    s.notifyWake c = false → (t.mb c).seen = true := by
  intro s hd
  refine does_of rfl (when_of _ hd) fun c hc hg hn => ?_
  refine each_at (P := fun u => (u.mb c).seen = true) (g := fun c u => u.mbMod c fun y => { y with seen := true })
    (List.mem_filter.2 ⟨List.mem_range.2 hc, by simp [hg, hn]⟩) (fun u => ?_) (fun k _ hk u hu => ?_) s
  · rw [mb_mbMod hc]
  · rwa [mb_mbMod_ne hk]

theorem proxyMessageReceived_held :
    ∀ (c : CtrlHdr) (reply : Bool) (seq : Fin 16) (words : List (BitVec 32)) (s : State), Taken c s →
    (s.proxyHeld.any fun x => x.member = c.src.val) = false → words.length ≤ 16 →
    Does (.proxyMessageReceived c reply seq words) s fun t =>
    t = ((s.rxCtrl c "PROXY" (b2n reply :: seq.val :: words.map (·.toNat)) id).withProxyHeld (s.proxyHeld ++ [Msg.mk reply seq c.src words])).placeProxy := by
  intro c reply seq words s ht ha hw
  have hk : (s.rxCtrl c "PROXY" (b2n reply :: seq.val :: words.map (·.toNat)) id).proxyHeld = s.proxyHeld :=
    (State.rxCtrl_id_fr ..).part .proxyHeld rfl
  refine does_of rfl ((State.rxCtrl_of_taken ht ..).trans (if_neg ?_)) ?_
  · simp [hk, ha, hw]
  · rw [hk]

theorem proxyTake_acknowledged :
    ∀ (stored : Bool) (s : State), s.on (MBX_OUT_CTRL.GO 6) = true → s.domOn dFAB = true →
    s.reach (s.g (MBX_OUT_CTRL.MEMBER 6)) = true → stored = true → (s.mb 6).held = [] →
    Does (.proxyTake stored) s fun t => t.on (MBX_OUT_CTRL.GO 6) = false ∧ (t.mb 6).replyOut = false := by
  intro stored s hg hd hr hst hh
  subst hst
  refine does_of rfl (if_neg (by simp [hg, hd, hr])) ?_
  refine State.outFree_of_nil _ (by decide) (Eq.trans ?_ hh)
  rw [(State.ctrlTo_fr ..).mb rfl, (State.ctrlTo_fr ..).mb rfl]

/-- Settles O26: command by command. -/
theorem mailboxComplete : Obligations.MailboxComplete := by
  unfold Obligations.MailboxComplete
  exact ⟨outboundTimeout_rings, outboundTimeout_withdraws, inboundPoll_sees, proxyMessageReceived_held,
    proxyTake_acknowledged⟩
end Sys2Proof.Machine

/-!
# The yard clocks
-/
namespace Sys2Proof.Machine

set_option Elab.async false

section
variable {s t : State} {m b : Nat} {y : Nat}

/-! ## A part of the state outside a frame's mask -/

theorem Fr.plan (h : Fr m b s t) (hm : m.testBit 0 = false) : t.plan = s.plan := h.part .plan hm
theorem Fr.obs (h : Fr m b s t) (hm : m.testBit 1 = false) : t.obs = s.obs := h.part .obs hm
theorem Fr.yards (h : Fr m b s t) (hm : m.testBit 2 = false) : t.yards = s.yards := h.part .yards hm
theorem Fr.pat (h : Fr m b s t) (hm : m.testBit 3 = false) : t.pat = s.pat := h.part .pat hm
theorem Fr.pred (h : Fr m b s t) (hm : m.testBit 4 = false) : t.pred = s.pred := h.part .pred hm
theorem Fr.pdc (h : Fr m b s t) (hm : m.testBit 5 = false) : t.pdc = s.pdc := h.part .pdc hm
theorem Fr.bud (h : Fr m b s t) (hm : m.testBit 8 = false) : t.bud = s.bud := h.part .bud hm
theorem Fr.tcp (h : Fr m b s t) (hm : m.testBit 9 = false) : t.tcp = s.tcp := h.part .tcp hm
theorem Fr.ss (h : Fr m b s t) (hm : m.testBit 10 = false) : t.ss = s.ss := h.part .ss hm
theorem Fr.boot (h : Fr m b s t) (hm : m.testBit 13 = false) : t.boot = s.boot := h.part .boot hm
theorem Fr.hs (h : Fr m b s t) (hm : m.testBit 14 = false) : t.hs = s.hs := h.part .hs hm
theorem Fr.tt (h : Fr m b s t) (hm : m.testBit 15 = false) : t.tt = s.tt := h.part .tt hm
theorem Fr.glk (h : Fr m b s t) (hm : m.testBit 17 = false) : t.glk = s.glk := h.part .glk hm
theorem Fr.fab (h : Fr m b s t) (hm : m.testBit 18 = false) : t.fab = s.fab := h.part .fab hm
theorem Fr.port (h : Fr m b s t) (hm : m.testBit 19 = false) : t.port = s.port := h.part .port hm
theorem Fr.mirror (h : Fr m b s t) (hm : m.testBit 20 = false) : t.mirror = s.mirror := h.part .mirror hm
theorem Fr.holders (h : Fr m b s t) (hm : m.testBit 22 = false) : t.holders = s.holders := h.part .holders hm
theorem Fr.handoff (h : Fr m b s t) (hm : m.testBit 23 = false) : t.handoff = s.handoff := h.part .handoff hm
theorem Fr.flt (h : Fr m b s t) (hm : m.testBit 24 = false) : t.flt = s.flt := h.part .flt hm
theorem Fr.tml (h : Fr m b s t) (hm : m.testBit 25 = false) : t.tml = s.tml := h.part .tml hm
theorem Fr.tack (h : Fr m b s t) (hm : m.testBit 26 = false) : t.tack = s.tack := h.part .tack hm
theorem Fr.dp (h : Fr m b s t) (hm : m.testBit 27 = false) : t.dp = s.dp := h.part .dp hm
theorem Fr.msg (h : Fr m b s t) (hm : m.testBit 31 = false) : t.msg = s.msg := h.part .msg hm

theorem g_mark (s : State) (k : Mark) {f : Fld} : (s.mark k).g f = s.g f := rfl
theorem on_mark (s : State) (k : Mark) {f : Fld} : (s.mark k).on f = s.on f := rfl
theorem g_out (s : State) (o : Out) {f : Fld} : (s.out o).g f = s.g f := rfl
theorem on_out (s : State) (o : Out) {f : Fld} : (s.out o).on f = s.on f := rfl

/-- A yard read after a change of it. -/
theorem get_yardMod {α : Type} (φ : Yard → α) {g : Yard → Yard} (h : y < 5) :
    φ (vat (s.yardMod y g).yards y) = φ (g (vat s.yards y)) := congrArg φ (vat_vmod _ g h)

theorem get_yardSet {α : Type} (φ : Yard → α) (n : Nat) (h : y < 5) :
    φ (vat (s.yardSet y n).yards y) = φ { vat s.yards y with iv := n / 25000, tick := n % 25000 } := congrArg φ (vat_vmod _ _ h)

theorem State.fields_yards (s : State) (l : List (Fld × Nat)) : (s.fields l).yards = s.yards := by
  induction l generalizing s with
  | nil => rfl
  | cons e l ih => exact ih (s.p e.1 e.2)

theorem satField_lt (w : Nat) (x : Int) : satField w x < 2 ^ w := by
  have h : (0 : Int) < (2 ^ w : Nat) := Int.natCast_pos.2 (Nat.two_pow_pos w)
  exact (Int.toNat_lt' (Nat.two_pow_pos w)).2 (Int.emod_lt_of_pos _ h)

/-- A control message to everyone leaves the member number as it is. -/
theorem State.ctrlAll_member (s : State) (name : String) (fields : List Nat) : (s.ctrlAll name fields).member = s.member :=
  (State.Knows.ctrlAll (m := s.fab.member) (l := s.fab.seen) ⟨rfl, rfl, fun _ => trivial⟩).member

theorem State.ctrlAll_isHome (s : State) (name : String) (fields : List Nat) (y : Nat) : (s.ctrlAll name fields).isHome y = s.isHome y := by
  unfold State.isHome
  rw [s.ctrlAll_member, (State.ctrlAll_fr ..).part .plan rfl]

theorem State.yardStep_frame (s : State) (y new st : Nat) (hy : y < 5) :
    (vat (s.yardStep y new st).yards y).frame = (vat s.yards y).frame := by
  have h : (vat ((s.yardSet y new).yardMod y fun v => { v with err := 0 }).yards y).frame = (vat s.yards y).frame :=
    (get_yardMod (g := fun v => { v with err := 0 }) Yard.frame hy).trans (get_yardSet Yard.frame _ hy)
  unfold State.yardStep
  dsimp only
  rw [(State.record_fr ..).yards rfl]
  refine each_keeps (P := fun u => (vat u.yards y).frame = _)
    (fun _ _ h => (congrArg (fun x => (vat x y).frame) ((State.patIdle_fr ..).yards rfl)).trans h) _ _ ?_
  rw [(State.rebase_fr ..).yards rfl]
  exact h

theorem State.yardStep_ref (s : State) (y new st : Nat) (hy : y < 5) :
    (s.yardStep y new st).g (YRD_STATUS.REF y) = s.g (YRD_STATUS.REF y) := by
  unfold State.yardStep
  exact g_kept (YRD_STATUS.kept hy (State.record_fr ..) rfl rfl) <|
    each_keeps (P := fun u => u.g (YRD_STATUS.REF y) = _) (fun _ _ h => g_kept (YRD_STATUS.kept hy (State.patIdle_fr ..) rfl rfl) h) _ _ <|
    g_kept (YRD_STATUS.kept hy (State.rebase_fr ..) rfl rfl) <| (g_p_far _ _ (YRD_STEP.ix _ hy) (YRD_STATUS.ix _ hy)).trans <|
    (g_hw_beside _ rfl).trans <| (g_p_beside _ _ rfl).trans <| (g_mark ..).trans <|
    g_kept (YRD_STATUS.kept hy (State.yardMod_fr ..) rfl rfl) <| g_kept (YRD_STATUS.kept hy (State.yardSet_fr ..) rfl rfl) <|
    rfl

theorem State.yardLock_lastRef (s : State) (y : Nat) (hy : y < 5) :
    (vat (s.yardLock y).yards y).lastRef = (vat s.yards y).lastRef := by
  unfold State.yardLock
  exact (congrArg (fun x => (vat x y).lastRef) ((State.tmlMap_fr ..).yards rfl)).trans (get_yardMod Yard.lastRef hy)

theorem State.yardLock_frame (s : State) (y : Nat) (hy : y < 5) :
    (vat (s.yardLock y).yards y).frame = (vat s.yards y).frame := by
  unfold State.yardLock
  exact (congrArg (fun x => (vat x y).frame) ((State.tmlMap_fr ..).yards rfl)).trans (get_yardMod Yard.frame hy)

theorem State.yardLock_ref (s : State) (y : Nat) (hy : y < 5) :
    (s.yardLock y).g (YRD_STATUS.REF y) = s.g (YRD_STATUS.REF y) := by
  unfold State.yardLock
  exact g_kept (YRD_STATUS.kept hy (State.tmlMap_fr ..) rfl rfl) <| g_kept (YRD_STATUS.kept hy (State.yardMod_fr ..) rfl rfl) <|
    (g_p_beside _ _ rfl).trans <| (g_p_beside _ _ rfl)

/-- What a reference taken leaves: its interval count, the code of its source, and the SOF's frame as it was. -/
theorem State.takeRef_taken (s : State) (y num off ref : Nat) (rate : Int) (hy : y < 5) (hr : ref < 4) (hh : s.isHome y = true)
    (hf : bitOf (s.g YRD_CTRL.FORCE_COAST) y = false) :
    (vat (s.takeRef y num off ref rate).yards y).lastRef = nearestIv (vat s.yards y).iv num ∧
    (vat (s.takeRef y num off ref rate).yards y).frame = (vat s.yards y).frame ∧
    (s.takeRef y num off ref rate).g (YRD_STATUS.REF y) = ref := by
  unfold State.takeRef
  rw [if_neg (by simp [hh, hf])]
  refine ⟨?_, ?_, ?_⟩
  · exact ite_keeps (P := fun u => (vat u.yards y).lastRef = _) (get_yardMod Yard.lastRef hy) <|
      ite_keeps (P := fun u => (vat u.yards y).lastRef = _) (get_yardMod Yard.lastRef hy) <|
      ite_keeps (P := fun u => (vat u.yards y).lastRef = _) (get_yardMod Yard.lastRef hy) <|
      when_keeps (P := fun u => (vat u.yards y).lastRef = _) (fun u h => (u.yardLock_lastRef y hy).trans h) <| get_yardMod Yard.lastRef hy
  · exact ite_keeps (P := fun u => (vat u.yards y).frame = _) ((get_yardMod Yard.frame hy).trans (State.yardStep_frame _ _ _ _ hy)) <|
      ite_keeps (P := fun u => (vat u.yards y).frame = _) ((get_yardMod Yard.frame hy).trans (State.yardStep_frame _ _ _ _ hy)) <|
      ite_keeps (P := fun u => (vat u.yards y).frame = _) (get_yardMod Yard.frame hy) <|
      when_keeps (P := fun u => (vat u.yards y).frame = _) (fun u h => (u.yardLock_frame y hy).trans h) <|
      (get_yardMod Yard.frame hy).trans (get_yardSet Yard.frame _ hy)
  · exact ite_keeps (P := fun u => u.g (YRD_STATUS.REF y) = _)
        (g_kept (YRD_STATUS.kept hy (State.yardMod_fr ..) rfl rfl) <| (g_p_beside _ _ rfl).trans <|
          (State.yardStep_ref _ _ _ _ hy).trans <| g_p_of_lt rfl hr) <|
      ite_keeps (P := fun u => u.g (YRD_STATUS.REF y) = _)
        (g_kept (YRD_STATUS.kept hy (State.yardMod_fr ..) rfl rfl) <| (State.yardStep_ref _ _ _ _ hy).trans <|
          (g_p_beside _ _ rfl).trans <| g_p_of_lt rfl hr) <|
      ite_keeps (P := fun u => u.g (YRD_STATUS.REF y) = _)
        (g_kept (YRD_STATUS.kept hy (State.yardMod_fr ..) rfl rfl) <| (g_p_far _ _ (YRD_RATE.ix _ hy) (YRD_STATUS.ix _ hy)).trans <|
          (g_p_beside _ _ rfl).trans <| g_p_of_lt rfl hr) <|
      g_when (fun u h => (u.yardLock_ref y hy).trans h) <| g_kept (YRD_STATUS.kept hy (State.yardMod_fr ..) rfl rfl) <|
        g_kept (YRD_STATUS.kept hy (State.yardSet_fr ..) rfl rfl) <| (g_p_far _ _ (YRD_RATE.ix _ hy) (YRD_STATUS.ix _ hy)).trans <|
        (g_p_beside _ _ rfl).trans <| g_p_of_lt rfl hr

theorem State.itpForward_lastBic (s : State) (u : Fin 2) (y bic delta : Nat) (res : List ItpOut) :
    (s.itpForward u y bic delta res).g (SSH_ITP.LAST_BIC u) = s.g (SSH_ITP.LAST_BIC u) := by
  unfold State.itpForward
  exact each_keeps (P := fun z => z.g (SSH_ITP.LAST_BIC u) = _) (fun _ _ h => (g_out ..).trans <| (g_p_beside _ _ rfl).trans h) _ _ rfl

/-- None of the registers a reference changes lies in the block of the SuperSpeed hub, at a stall's number beyond its array neither. -/
theorem takeRef_not_ssh {a : Nat} (ha : a / 65536 = 4) : ¬HasReg 4893107481783862970145936819934115549808062162278656 a := by
  rintro ⟨r, hr, h⟩
  cases r
  case YRD_STATUS => obtain ⟨n, rfl⟩ := h; unfold YRD_STATUS.addr at ha; split at ha <;> omega
  case YRD_RATE => obtain ⟨n, rfl⟩ := h; unfold YRD_RATE.addr at ha; split at ha <;> omega
  case YRD_STEP => obtain ⟨n, rfl⟩ := h; unfold YRD_STEP.addr at ha; split at ha <;> omega
  case TML_PAT => obtain ⟨n, rfl⟩ := h; unfold TML_PAT.addr at ha; split at ha <;> omega
  case OBS_Q_STATUS => obtain ⟨n, rfl⟩ := h; unfold OBS_Q_STATUS.addr at ha; split at ha <;> omega
  case OBS_Q_LOST => obtain ⟨n, rfl⟩ := h; unfold OBS_Q_LOST.addr at ha; split at ha <;> omega
  case OBS_PMU_OVF => subst h; exact absurd ha (by decide)
  case OBS_PMU_LO => obtain ⟨n, rfl⟩ := h; unfold OBS_PMU_LO.addr at ha; split at ha <;> omega
  case OBS_PMU_HI => obtain ⟨n, rfl⟩ := h; unfold OBS_PMU_HI.addr at ha; split at ha <;> omega
  all_goals exact absurd hr (by decide)

/-- What an ITP that arrives changes before it is forwarded. -/
theorem State.itpTaken_fr (s : State) (c : Bool) (y bic off ref : Nat) (rate : Int) :
    Fr 17213423662 4893107481783862970145936819934115549808062162278656 s (s.when c fun s => s.takeRef y bic off ref rate) :=
  Fr.when (fun _ h => h.comp (State.takeRef_fr ..)) (Fr.refl ..)

theorem State.itpTaken_link (s : State) (c : Bool) (u : Fin 2) (y bic off ref : Nat) (rate : Int) (n : Nat) :
    ((s.when c fun s => s.takeRef y bic off ref rate).p (SSH_ITP.LAST_BIC u) bic).g (SSH_PORT.LINK n) = s.g (SSH_PORT.LINK n) := by
  have ha : (SSH_PORT.LINK n).addr / 65536 = 4 := by
    rw [SSH_PORT.LINK_addr, SSH_PORT.addr]
    split <;> omega
  have hne : (SSH_PORT.LINK n).addr ≠ (SSH_ITP.LAST_BIC u).addr := by
    have := u.isLt
    rw [SSH_PORT.LINK_addr, SSH_ITP.LAST_BIC_addr, SSH_PORT.addr, SSH_ITP.addr, if_pos this]
    split <;> omega
  exact (g_p_ne _ _ hne).trans (g_kept ((s.itpTaken_fr c y bic off ref rate).word _ (takeRef_not_ssh ha)) rfl)

/-- What an ITP that is forwarded shows at one of the stalls it goes to. -/
theorem State.itpForward_shows (s : State) (u : Fin 2) (y bic delta : Nat) (res : List ItpOut) {n : Nat} {r : ItpOut}
    (hn : n ∈ (s.heldStalls y).filter fun n => s.g (SSH_PORT.LINK n) = 0) (hr : (res.find? fun r => r.stall = n) = some r) :
    min 255 r.ticks ≤ (s.itpForward u y bic delta res).g (SSH_ITP.RES_MAX u) ∧
    .line "ITP" [n, bic, delta + (r.ticks * 3 + 5) / 10, b2n r.delayed] ∈ (s.itpForward u y bic delta res).outs := by
  have hset (v : State) (w : ItpOut) : (v.p (SSH_ITP.RES_MAX u) (max (v.g (SSH_ITP.RES_MAX u)) (min 255 w.ticks))).g (SSH_ITP.RES_MAX u) =
      max (v.g (SSH_ITP.RES_MAX u)) (min 255 w.ticks) :=
    g_p_of_lt rfl (Nat.max_lt.2 ⟨g_lt v _, Nat.lt_of_le_of_lt (Nat.min_le_left ..) (Nat.le_of_ble_eq_true rfl : 255 < 256)⟩)
  unfold State.itpForward
  refine each_at (P := fun v => min 255 r.ticks ≤ v.g (SSH_ITP.RES_MAX u) ∧
    .line "ITP" [n, bic, delta + (r.ticks * 3 + 5) / 10, b2n r.delayed] ∈ v.outs) hn (fun v => ?_) (fun k _ _ v hv => ?_) s
  · rw [hr]
    exact ⟨(Nat.le_max_right ..).trans (hset v r).ge, List.mem_cons_self ..⟩
  · exact ⟨hv.1.trans ((Nat.le_max_left ..).trans (hset v _).ge), List.mem_cons_of_mem _ hv.2⟩

end

theorem sofReceived_taken :
    ∀ (u : Fin 2) (frame : Fin 2048) (rate : Int) y (s : State), s.slotOf u = some y → y < 4 → s.isHome y = true →
    bitOf (s.g YRD_CTRL.FORCE_COAST) y = false →
    ((vat s.yards y).sofIv = nearestIv (vat s.yards y).iv (frame * 8 + (if (vat s.yards y).frame = frame then min 7 ((vat s.yards y).micro + 1) else 0)) + 1 →
    s.refTaken y (nearestIv (vat s.yards y).iv (frame * 8 + (if (vat s.yards y).frame = frame then min 7 ((vat s.yards y).micro + 1) else 0))) = false) →
    Does (.sofReceived u frame rate) s fun t =>
    (vat t.yards y).frame = frame ∧ t.g (YRD_STATUS.REF y) = 1 ∧
    (vat t.yards y).lastRef = nearestIv (vat s.yards y).iv (frame * 8 + (if (vat s.yards y).frame = frame then min 7 ((vat s.yards y).micro + 1) else 0)) := by
  intro u frame rate y s hs hy hh hf ha
  have hy' : y < 5 := by omega
  refine does_of rfl (Eq.trans (by unfold State.sofReceived; rw [hs]) (when_of _ ?_)) ?_ <;>
    generalize (if (vat s.yards y).frame = frame then min 7 ((vat s.yards y).micro + 1) else 0) = micro at ha ⊢
  · have hno : ((vat s.yards y).sofIv = nearestIv (vat s.yards y).iv (frame * 8 + micro) + 1 &&
        s.refTaken y (nearestIv (vat s.yards y).iv (frame * 8 + micro))) = false := by
      rw [Bool.and_eq_false_imp]
      exact fun h => ha (of_decide_eq_true h)
    rw [hno]
    rfl
  · obtain ⟨hl, hfr, hrf⟩ := State.takeRef_taken (s.yardMod y fun v =>
      { v with frame := frame.val, micro := micro, sofIv := nearestIv (vat s.yards y).iv (frame.val * 8 + micro) + 1 })
      y (frame.val * 8 + micro) 0 1 rate hy' (by decide) hh hf
    exact ⟨hfr.trans (get_yardMod Yard.frame hy'), hrf, hl.trans (congrArg (nearestIv · _) (get_yardMod Yard.iv hy'))⟩

theorem itpReceived_taken :
    ∀ (u : Fin 2) (bic : Fin 16384) (delta : Nat) (res : List ItpOut) (rate : Int) y (s : State), s.g (SSH_PORT.LINK (15 + u)) = 0 →
    s.slotOf u = some y → y < 4 → Does (.itpReceived u bic delta res rate) s fun t => t.g (SSH_ITP.LAST_BIC u) = bic ∧
    (s.isHome y = true → bitOf (s.g YRD_CTRL.FORCE_COAST) y = false →
    (vat s.yards y).sofIv ≠ nearestIv (vat s.yards y).iv bic + 1 → s.refTaken y (nearestIv (vat s.yards y).iv bic) = false →
    (vat t.yards y).lastRef = nearestIv (vat s.yards y).iv bic ∧
    t.g (YRD_STATUS.REF y) = (if s.on (SSH_USP_LPM.LDM_ENABLE u) && bitOf (s.g YRD_CTRL.PTM_EN) y then 3 else 2)) ∧
    (s.on SSH_CTRL.ITP_EN = true → ∀ n ∈ (s.heldStalls y).filter (fun n => s.g (SSH_PORT.LINK n) = 0), ∀ r ∈ res,
    (res.find? fun r => r.stall = n) = some r → min 255 r.ticks ≤ t.g (SSH_ITP.RES_MAX u) ∧
    .line "ITP" [n, bic, delta + (r.ticks * 3 + 5) / 10, b2n r.delayed] ∈ t.outs) := by
  intro u bic delta res rate y s hl hs hy
  have hy' : y < 5 := by omega
  refine does_of rfl ((if_neg (not_not_intro hl)).trans (by rw [hs])) ?_
  dsimp only
  generalize itpTicks delta + (if s.on (SSH_USP_LPM.LDM_ENABLE u) && bitOf (s.g YRD_CTRL.PTM_EN) y then s.g (SSH_PTM.DELAY u) / 5 else 0) = off
  have hbic : (bic : Nat) < 2 ^ 14 := bic.isLt
  refine ⟨?_, fun hh hf hn ht => ?_, fun he n hn r _ hr => ?_⟩
  · exact g_when (fun _ h => each_keeps (P := fun z => z.g (SSH_ITP.LAST_BIC u) = _)
      (fun _ _ h => g_kept (SSH_ITP.kept u.isLt (State.ctrlTo_fr ..) rfl rfl) h) _ _ <|
      (State.itpForward_lastBic ..).trans h) <| g_p_of_lt rfl hbic
  · obtain ⟨h1, -, h2⟩ := State.takeRef_taken s y bic off
      (if s.on (SSH_USP_LPM.LDM_ENABLE u) && bitOf (s.g YRD_CTRL.PTM_EN) y then 3 else 2) rate hy' (by split <;> decide) hh hf
    rw [when_of (c := (vat s.yards y).sofIv ≠ nearestIv (vat s.yards y).iv bic + 1 && !s.refTaken y (nearestIv (vat s.yards y).iv bic)) _
      (by simp [hn, ht])]
    constructor
    · exact when_keeps (P := fun z => (vat z.yards y).lastRef = _) (fun _ h => each_keeps (P := fun z => (vat z.yards y).lastRef = _) (fun _ _ h => (congrArg (fun x => (vat x y).lastRef) ((State.ctrlTo_fr ..).yards rfl)).trans h) _ _ <|
        (congrArg (fun x => (vat x y).lastRef) ((State.itpForward_fr ..).yards rfl)).trans h) <| h1
    · exact g_when (fun _ h => each_keeps (P := fun z => z.g (YRD_STATUS.REF y) = _) (fun _ _ h => g_kept (YRD_STATUS.kept hy' (State.ctrlTo_fr ..) rfl rfl) h) _ _ <|
        g_kept (YRD_STATUS.kept hy' (State.itpForward_fr ..) rfl rfl) h) <|
        (g_p_far _ _ (SSH_ITP.ix _ u.isLt) (YRD_STATUS.ix _ hy')).trans <| h2
  · generalize hc : (decide ((vat s.yards y).sofIv ≠ nearestIv (vat s.yards y).iv bic + 1) &&
      !s.refTaken y (nearestIv (vat s.yards y).iv bic)) = c
    generalize (if (s.on (SSH_USP_LPM.LDM_ENABLE u) && bitOf (s.g YRD_CTRL.PTM_EN) y) = true then 3 else 2) = ref
    have hv := State.itpTaken_fr s c y bic off ref rate
    have hn' : n ∈ (State.heldStalls (((s.when c fun s => s.takeRef y bic off ref rate).p (SSH_ITP.LAST_BIC u) bic)) y).filter fun n =>
        ((s.when c fun s => s.takeRef y bic off ref rate).p (SSH_ITP.LAST_BIC u) bic).g (SSH_PORT.LINK n) = 0 := by
      have hh : State.heldStalls ((s.when c fun s => s.takeRef y bic off ref rate).p (SSH_ITP.LAST_BIC u) bic) y = s.heldStalls y := by
        show State.heldStalls (s.when c fun s => s.takeRef y bic off ref rate) y = s.heldStalls y
        rw [State.heldStalls, State.member, hv.holders rfl, hv.fab rfl, State.heldStalls, State.member]
      simpa only [hh, State.itpTaken_link] using hn
    have he' : ((s.when c fun s => s.takeRef y bic off ref rate).p (SSH_ITP.LAST_BIC u) bic).on SSH_CTRL.ITP_EN = true :=
      (on_p_far _ _ (SSH_ITP.ix _ u.isLt) SSH_CTRL.ix).trans (hv.on rfl he)
    rw [when_of _ he']
    refine each_keeps (P := fun v => min 255 r.ticks ≤ v.g (SSH_ITP.RES_MAX u) ∧
      .line "ITP" [n, ↑bic, delta + (r.ticks * 3 + 5) / 10, b2n r.delayed] ∈ v.outs)
      (fun _ v hv => ⟨?_, (State.ctrlTo_fr ..).outs.subset hv.2⟩) _ _ (State.itpForward_shows _ u y bic delta res hn' hr)
    exact hv.1.trans (g_kept (SSH_ITP.kept u.isLt (State.ctrlTo_fr ..) rfl rfl) rfl).ge

theorem yardCoast_coasts :
    ∀ (y : Fin 4) (s : State), s.isHome y = true → s.refAhead y = false →
    (vat s.yards y).lastRef + 3 ≤ (vat s.yards y).iv → s.g (YRD_STATUS.STATE y) = 2 →
    Does (.yardCoast y) s fun t => t.g (YRD_STATUS.STATE y) = 3 ∧ t.on (YRD_STATUS.LOST y) = true ∧
    t.g (YRD_STATUS.REF y) = 0 := by
  intro y s hh ha hr hst
  have hy' : (y : Nat) < 5 := by omega
  refine does_of rfl ((when_of _ (by simp [hh, ha, hr])).trans (if_pos (.inr hst))) ⟨?_, ?_, ?_⟩
  · exact g_when (fun _ h => ite_keeps (P := fun u => u.g (YRD_STATUS.STATE ↑y) = _) (h) (g_when (fun _ h => g_kept (YRD_STATUS.kept hy' (State.raise_fr ..) rfl rfl) h) <|
      (g_p_beside _ _ rfl).trans h)) <| g_kept (YRD_STATUS.kept hy' (State.yardMod_fr ..) rfl rfl) <|
      (g_p_beside _ _ rfl).trans <| (g_hw_beside _ rfl).trans <| g_p_lit rfl rfl
  · exact on_when (fun _ h => ite_keeps (P := fun u => u.on (YRD_STATUS.LOST ↑y) = _) (h) (on_when (fun _ h => on_kept (YRD_STATUS.kept hy' (State.raise_fr ..) rfl rfl) h) <|
      (on_p_beside _ _ rfl).trans h)) <| on_kept (YRD_STATUS.kept hy' (State.yardMod_fr ..) rfl rfl) <|
      (on_p_beside _ _ rfl).trans <| on_hw _ rfl rfl
  · exact g_when (fun _ h => ite_keeps (P := fun u => u.g (YRD_STATUS.REF ↑y) = _) (h) (g_when (fun _ h => g_kept (YRD_STATUS.kept hy' (State.raise_fr ..) rfl rfl) h) <|
      (g_p_beside _ _ rfl).trans h)) <| g_kept (YRD_STATUS.kept hy' (State.yardMod_fr ..) rfl rfl) <| g_p_lit rfl rfl

theorem barnTimeBroadcast_sends :
    ∀ (s : State), (vat s.yards 4).tick = 0 → s.isLead = true → Does .barnTimeBroadcast s fun t =>
    t = (s.ctrlAll "BARN_TIME" [s.now 4, 0]).each ((List.range 4).filter fun y => s.isHome y) (fun y u => u.ctrlAll "YARD_DESCRIPTOR" [y, u.now y, satField 24 (u.barnRate y), u.g (YRD_STATUS.STATE y), u.g (YRD_STATUS.COARSE y)]) := by
  intro s ht hl
  refine does_of rfl (if_neg (not_not_intro ht)) ?_
  simp only [hl, when_true, State.ctrlAll_isHome]

theorem barnTimeReceived_follows :
    ∀ (h : BaleHdr) (value : Nat) (hops : Nat) (rate : Int) (s : State), s.g (GLK_LINK.STATE h.link) = 4 →
    s.ctrlFits = true → (s.rxCtrlBale h).isLead = false → s.on YRD_BARN.SYNCED = false → Does (.barnTimeReceived h value hops rate) s fun t =>
    t.on YRD_BARN.SYNCED = true ∧ t.g YRD_BARN.HOPS = (hops + 1) % 2 ^ YRD_BARN.HOPS.width ∧
    (vat t.yards 4).lastRef = value / 32768 + 1 := by
  intro h value hops rate s hl hc hle hs
  have hs' : (s.rxCtrlBale h).on YRD_BARN.SYNCED = false := (State.rxCtrlBale_fr ..).on rfl <| hs
  refine does_of rfl ((if_neg (not_not_intro hl)).trans <| (if_neg (by simp [hc])).trans <| if_neg (by simp [hle, hs'])) ⟨?_, ?_, ?_⟩
  · exact each_keeps (P := fun u => u.on (YRD_BARN.SYNCED) = _) (fun _ _ h => (State.ctrlOn_fr ..).on rfl h) _ _ <|
      on_regs (State.withFab_regs ..) <| (State.yardMod_fr ..).on rfl <| on_p_one _ rfl rfl
  · exact each_keeps (P := fun u => u.g (YRD_BARN.HOPS) = _) (fun _ _ h => (State.ctrlOn_fr ..).g rfl h) _ _ <|
      g_regs (State.withFab_regs ..) <| (State.yardMod_fr ..).g rfl <| (g_p_beside _ _ rfl).trans <|
      ite_keeps (P := fun u => u.g (YRD_BARN.HOPS) = _) ((State.yardMod_fr ..).g rfl <|
      (g_p_far _ _ (YRD_RATE.ix 4 (by decide)) YRD_BARN.ix).trans <| (g_p_beside _ _ rfl).trans <|
      g_p _ _ rfl) ((State.yardStep_fr ..).g rfl <| (g_p_beside _ _ rfl).trans <| g_p _ _ rfl)
  · exact each_keeps (P := fun u => (vat u.yards 4).lastRef = _) (fun _ _ h => (congrArg (fun x => (vat x 4).lastRef) ((State.ctrlOn_fr ..).yards rfl)).trans h) _ _ <|
      (congrArg (fun x => (vat x 4).lastRef) (State.withFab_yards ..)).trans <| get_yardMod Yard.lastRef (by decide)

theorem yardDescriptorTimeout_stale :
    ∀ (y : Fin 4) (s : State), s.slotBound y = true → s.isHome y = false → s.g (YRD_STATUS.STATE y) ≠ 0 →
    Does (.yardDescriptorTimeout y) s fun t => t.on (YRD_STATUS.STALE y) = true := by
  intro y s hb hh hst
  exact does_of rfl (when_of _ (by simp [hb, hh, hst])) (on_p_one _ rfl rfl)

theorem yardDescriptorReceived_followed :
    ∀ (c : CtrlHdr) (y : Fin 4) (value : Nat) (rate : Nat) (st : Fin 4) (coarse : Bool) u (s : State), Taken c s → s.rxCtrl c "YARD_DESCRIPTOR" [y.val, value, rate, st.val, b2n coarse] id = u → u.isCopy y = true → (u.homeOf y).map (·.1) = some c.src.val → Does (.yardDescriptorReceived c y value rate st coarse) s fun t => t.on (YRD_STATUS.STALE y) = false ∧ (st.val ≠ 0 → t.g (YRD_RATE.RATE y) = satField 24 (ofField 24 rate + ofField 24 (u.g (YRD_RATE.RATE 4))) ∧ t.on (YRD_STATUS.COARSE y) = coarse) ∧ (st.val = 0 → t.g (YRD_STATUS.STATE y) = 0 ∧ t.yticks y = 0) := by
  intro c y value rate st coarse u s ht hu hcp hho
  have hy' : (y : Nat) < 5 := by omega
  have he := State.rxCtrl_of_taken ht "YARD_DESCRIPTOR" [y.val, value, rate, st.val, b2n coarse]
  rw [hu] at he
  refine does_of rfl ((he _).trans (if_neg (by simp [hcp, hho]))) ⟨?_, fun hst => ⟨?_, ?_⟩, fun hst => ?_⟩
  · exact ite_keeps (P := fun u => u.on (YRD_STATUS.STALE ↑y) = _) (on_kept (YRD_STATUS.kept hy' (State.yardMod_fr ..) rfl rfl) <|
      on_p_zero _ rfl) (on_when (fun _ h => on_kept (YRD_STATUS.kept hy' (State.runHeld_fr ..) rfl rfl) h) <|
      on_p_zero _ rfl)
  · rw [if_neg hst]
    refine g_when (fun _ h => g_kept (YRD_RATE.kept hy' (State.runHeld_fr ..) rfl rfl) h) <|
      (g_p_far _ _ (YRD_STATUS.ix _ hy') (YRD_RATE.ix _ hy')).trans <|
      (g_p_far _ _ (YRD_STATUS.ix _ hy') (YRD_RATE.ix _ hy')).trans <| (g_p_of_lt rfl (satField_lt ..)).trans <|
      congrArg (fun x => satField 24 (ofField 24 rate + ofField 24 x)) ?_
    exact (State.yardMod_fr ..).g rfl <| g_when (fun _ h => (State.yardLock_fr ..).g rfl h) <|
      ite_keeps (P := fun u => u.g (YRD_RATE.RATE 4) = _) ((State.yardStep_fr ..).g rfl <|
      rfl) ((g_p_far _ _ (YRD_STATUS.ix _ (by omega)) (YRD_RATE.ix 4 (by decide))).trans <| (State.yardSet_fr ..).g rfl <| rfl)
  · rw [if_neg hst]
    exact on_when (fun _ h => on_kept (YRD_STATUS.kept hy' (State.runHeld_fr ..) rfl rfl) h) <|
      (on_p_beside _ _ rfl).trans <| on_p_b2n _ _ rfl rfl
  · rw [if_pos hst]
    constructor
    · unfold State.copyUnbound
      exact g_kept (YRD_STATUS.kept hy' (State.yardMod_fr ..) rfl rfl) <| (g_p_beside _ _ rfl).trans <|
        (g_p_beside _ _ rfl).trans <| (g_p_far _ _ (YRD_RATE.ix _ hy') (YRD_STATUS.ix _ hy')).trans <|
        g_p_lit rfl rfl
    · rw [State.copyUnbound, State.yticks, get_yardMod Yard.ticks hy', State.fields_yards]
      have h0 : (vat (u.yardSet y 0).yards y).iv = 0 ∧ (vat (u.yardSet y 0).yards y).tick = 0 :=
        ⟨get_yardSet Yard.iv 0 hy', get_yardSet Yard.tick 0 hy'⟩
      rw [Yard.ticks, h0.1, h0.2]

/-- Settles O15: command by command. -/
theorem yardCommandsComplete : Obligations.YardCommandsComplete := by
  unfold Obligations.YardCommandsComplete
  exact ⟨sofReceived_taken, itpReceived_taken, yardCoast_coasts, barnTimeBroadcast_sends, barnTimeReceived_follows,
    yardDescriptorTimeout_stale, yardDescriptorReceived_followed⟩
end Sys2Proof.Machine

/-!
# An access that passes its checks

The state it leaves is that of the register's own read or write; what a write leaves in a field follows from the field's access code.
-/
namespace Sys2Proof.Machine

set_option Elab.async false

section
variable {s : State} {m a : Nat} {data : Option Word}

/-! ## The access -/

theorem State.met_fr (s : State) (m : Nat) : Fr 34 4893107481805641041628876881595771524683695319416832 s (s.met m) := by
  unfold State.met
  split
  · exact Fr.when (fun _ h => h.comp (State.holdAccess_fr ..)) (Fr.refl ..)
  · exact Fr.refl ..

/-- An aligned access is made on the state it meets. -/
theorem State.accessOne_of_aligned (h : m < 2 ∨ 7 < m ∨ a % 4 = 0) : s.accessOne m a data = (s.met m).accessNow m a data := by
  unfold State.accessOne State.met
  by_cases h67 : m = 6 ∨ m = 7
  · have ha : a / 4 * 4 = a := by omega
    rw [if_neg (by omega), if_pos h67, if_pos h67, ha]
  · rw [if_neg (by omega), if_neg h67, if_neg h67]

/-- How an access that passes its checks ends. -/
def State.performed (s : State) (m a : Nat) : Option Word → State
  | none => match (s.readReg m a).1 with
    | some w => (s.readReg m a).2.out (.read m [w])
    | none => (s.readReg m a).2
  | some w => s.writeReg m a w

theorem State.accessNow_of_pass (hs : s.stalls m = false) (hg : s.gate m a data.isSome = .pass) :
    s.accessNow m a data = s.performed m a data := by
  have ho : s.oneAccess m a data = s.perform m a data := by rw [State.oneAccess, hg]
  cases data with
  | none =>
    cases h : (s.readReg m a).1 <;>
      simp [State.accessNow, State.startXfer, hs, State.runXfer, State.runAccs, ho, State.perform, State.finishXfer, State.performed, h]
  | some w =>
    simp [State.accessNow, State.startXfer, hs, State.runXfer, State.runAccs, ho, State.perform, State.finishXfer, State.performed]

/-- An access that passes its checks is carried out at once. -/
theorem State.access_of_passes (h : s.passes m a data.isSome = true) : s.access m a data = (s.met m).performed m a data := by
  simp only [State.passes, Bool.and_eq_true, Bool.not_eq_true', Bool.or_eq_true, decide_eq_true_eq] at h
  obtain ⟨⟨⟨ht, hs⟩, ha⟩, hg⟩ := h
  have hgate : (s.met m).gate m a data.isSome = .pass := by
    revert hg
    cases (s.met m).gate m a data.isSome <;> simp
  rw [State.access, State.turn_marks ht, State.lowerFirst_of_turn ht]
  exact (State.accessOne_of_aligned (by omega)).trans (State.accessNow_of_pass hs hgate)

theorem State.access_write {w : Word} (h : s.passes m a true = true) : s.access m a (some w) = (s.met m).writeReg m a w :=
  State.access_of_passes (data := some w) h

theorem State.access_read {w : Word} {t : State} (h : s.passes m a false = true) (hr : (s.met m).readReg m a = (some w, t)) :
    s.access m a none = t.out (.read m [w]) := by
  rw [State.access_of_passes (data := none) h, State.performed, hr]

/-! ## The fields of a register that is written -/

/-- Two fields of a register have no bit in common. -/
def FieldRow.apart (f g : FieldRow) : Bool := decide (f.lo + f.width ≤ g.lo) || decide (g.lo + g.width ≤ f.lo)

/-- The fields of a register lie in its word, and no two of them overlap. -/
def RegRow.fieldsOk (r : RegRow) : Bool :=
  r.fields.all (fun f => decide (f.lo + f.width ≤ 32)) && decide (r.fields.Pairwise fun f g => f.apart g = true)

theorem rowsOfBlock_fieldsOk : ∀ b, (rowsOfBlock b).all RegRow.fieldsOk = true := by
  have hlow : ∀ b < 22, (rowsOfBlock b).all RegRow.fieldsOk = true := by decide +kernel
  intro b
  by_cases h : b < 22
  · exact hlow b h
  · obtain ⟨k, rfl⟩ := Nat.exists_eq_add_of_le (not_lt.1 h)
    rw [Nat.add_comm]
    rfl

theorem rowOf_fieldsOk {r : RegRow} (h : rowOf a = some r) : r.fieldsOk = true := by
  unfold rowOf at h
  exact List.all_eq_true.1 (rowsOfBlock_fieldsOk _) r (List.mem_of_find?_eq_some h)

/-- A field that is written leaves the bits of a field apart from it. -/
theorem getBits_putField_apart {f g : FieldRow} (act : Bool) (now w old : Word) (hf : f.lo + f.width ≤ 32) (h : f.apart g = true) :
    getBits (putField act now w old f) g.lo g.width = getBits old g.lo g.width := by
  have hd : g.lo + g.width ≤ f.lo ∨ f.lo + f.width ≤ g.lo := by
    simpa [FieldRow.apart, or_comm] using h
  unfold putField
  cases f.acc with
  | rw => dsimp only; split <;> [exact getBits_putBits_disj _ _ hf hd; rfl]
  | rwp => dsimp only; split <;> [exact getBits_putBits_disj _ _ hf hd; rfl]
  | w1c => exact getBits_putBits_disj _ _ hf hd
  | w1s => exact getBits_putBits_disj _ _ hf hd
  | ro => rfl
  | wo => rfl
  | ra => rfl

theorem getBits_foldl_apart {l : List FieldRow} {g : FieldRow} (act : Bool) (now w old : Word) (hl : ∀ f ∈ l, f.lo + f.width ≤ 32)
    (h : ∀ f ∈ l, f.apart g = true) : getBits (l.foldl (putField act now w) old) g.lo g.width = getBits old g.lo g.width := by
  induction l generalizing old with
  | nil => rfl
  | cons f t ih =>
    rw [List.foldl_cons, ih _ (fun f hf => hl f (List.mem_cons_of_mem _ hf)) fun f hf => h f (List.mem_cons_of_mem _ hf)]
    exact getBits_putField_apart act now w old (hl f (List.mem_cons_self ..)) (h f (List.mem_cons_self ..))

theorem FieldRow.apart_comm (f g : FieldRow) : f.apart g = g.apart f := by
  simp [FieldRow.apart, Bool.or_comm]

/-- A field of a register that is written: its own write on a word that agrees there with the old one. -/
theorem getBits_written {r : RegRow} {g : FieldRow} (s : State) (a : Nat) (w : Word) (hr : r.fieldsOk = true) (hg : g ∈ r.fields) :
    ∃ old : Word, getBits old g.lo g.width = getBits (s.word a) g.lo g.width ∧
      getBits (s.written r a w) g.lo g.width = getBits (putField s.activating (s.setNow a) w old g) g.lo g.width := by
  simp only [RegRow.fieldsOk, Bool.and_eq_true, List.all_eq_true, decide_eq_true_eq] at hr
  obtain ⟨hw, hp⟩ := hr
  obtain ⟨l₁, l₂, hl⟩ := List.append_of_mem hg
  rw [hl, List.pairwise_append, List.pairwise_cons] at hp
  obtain ⟨-, ⟨h2, -⟩, h1⟩ := hp
  rw [hl] at hw
  refine ⟨l₁.foldl (putField s.activating (s.setNow a) w) (s.word a), ?_, ?_⟩
  · exact getBits_foldl_apart _ _ _ _ (fun f hf => hw f (List.mem_append_left _ hf)) fun f hf => h1 f hf g (List.mem_cons_self ..)
  · rw [State.written, hl, List.foldl_append, List.foldl_cons]
    exact getBits_foldl_apart _ _ _ _ (fun f hf => hw f (List.mem_append_right _ (List.mem_cons_of_mem _ hf)))
      fun f hf => (FieldRow.apart_comm ..).trans (h2 f hf)

/-- A field software may write holds what the write brings, where that is in its range. -/
theorem g_putReg_rw {r : RegRow} {f : Fld} {lo hi : Nat} (s : State) (w : Word) (ha : f.addr = a) (hr : r.fieldsOk = true)
    (hf : ⟨f.lo, f.width, .rw, lo, hi⟩ ∈ r.fields) (hin : lo ≤ getBits w f.lo f.width ∧ getBits w f.lo f.width ≤ hi) :
    (s.putReg r a w).g f = getBits w f.lo f.width := by
  subst ha
  obtain ⟨old, -, he⟩ := getBits_written s f.addr w hr hf
  have hfit : f.lo + f.width ≤ 32 := by
    simp only [RegRow.fieldsOk, Bool.and_eq_true, List.all_eq_true, decide_eq_true_eq] at hr
    exact hr.1 _ hf
  rw [State.g, State.putReg, word_setWord_same]
  refine he.trans ?_
  rw [putField, if_pos hin, getBits_putBits_same _ _ hfit]
  exact Nat.mod_eq_of_lt (Nat.mod_lt _ (Nat.two_pow_pos _))

/-- A field software cannot write stands. -/
theorem g_putReg_ro {r : RegRow} {f : Fld} {acc : Access} {lo hi : Nat} (s : State) (w : Word) (ha : f.addr = a) (hr : r.fieldsOk = true)
    (hf : ⟨f.lo, f.width, acc, lo, hi⟩ ∈ r.fields) (hacc : acc = .ro ∨ acc = .wo ∨ acc = .ra) : (s.putReg r a w).g f = s.g f := by
  subst ha
  obtain ⟨old, ho, he⟩ := getBits_written s f.addr w hr hf
  rw [State.g, State.putReg, word_setWord_same]
  refine he.trans (Eq.trans ?_ ho)
  rcases hacc with rfl | rfl | rfl <;> rfl

/-- A field of a word put together from one field. -/
theorem getBits_withFields_one (w : Word) (f : Fld) (v : Nat) (h : f.lo + f.width ≤ 32) :
    getBits (withFields w [(f, v)]) f.lo f.width = v % 2 ^ f.width := getBits_putBits_same w v h

end

end Sys2Proof.Machine

/-!
# The timeline and the wake predictor
-/
namespace Sys2Proof.Machine

set_option Elab.async false

section
variable {s : State} {m a : Nat}

/-! ## Votes leave the timeline's raises -/

theorem State.exitStart_raises (s : State) (d : Nat) : (s.exitStart d).pdc.raises = s.pdc.raises := rfl

theorem State.domRecord_raises (s : State) (d : Nat) : (s.domRecord d).pdc.raises = s.pdc.raises :=
  congrArg Pdc.raises ((State.record_fr ..).pdc rfl)

theorem State.wake_raises (s : State) (d c : Nat) : (s.wake d c).pdc.raises = s.pdc.raises := by
  unfold State.wake
  split
  · dsimp only
    split
    · rfl
    · exact State.domRecord_raises ..
  · split
    · dsimp only
      split <;> rfl
    · rfl

theorem State.judge_raises (s : State) (d c : Nat) : (s.judge d c).pdc.raises = s.pdc.raises := by
  unfold State.judge
  dsimp only
  split
  · rfl
  split
  · exact State.wake_raises ..
  split
  · rfl
  split
  · split
    · exact State.wake_raises ..
    · rfl
  · rfl

theorem State.raiseTimeline_raises (s : State) (d y u e p : Nat) :
    (s.raiseTimeline d y u e p).pdc.raises = ⟨d, y, u, e, p⟩ :: s.pdc.raises := State.judge_raises ..

/-! ## The dispatch of an entry -/

theorem State.advanceEntry_word (s : State) (i : Nat) {a : Nat} (h : a ≠ TML_STATUS.addr) : (s.advanceEntry i).word a = s.word a := by
  unfold State.advanceEntry
  dsimp only
  split
  · rfl
  split
  · exact word_p_ne _ _ h
  · rfl

/-- An entry that advances leaves its domains as they are. -/
theorem State.advanceEntry_needFailed (s : State) (i : Nat) (e : TmlE) : (s.advanceEntry i).needFailed e = s.needFailed e := by
  have hm (n : Nat) : (s.advanceEntry i).notifyWake n = s.notifyWake n := by
    unfold State.notifyWake
    refine on_kept (s.advanceEntry_word i ?_) rfl
    rw [MBX_ASSIGN.NOTIFY_addr, MBX_ASSIGN.addr]
    split <;> simp [TML_STATUS.addr]
    omega
  have hd (d : Nat) : (s.advanceEntry i).g (PDC_DOM.STATE d) = s.g (PDC_DOM.STATE d) := by
    refine g_kept (s.advanceEntry_word i ?_) rfl
    rw [PDC_DOM.STATE_addr, PDC_DOM.addr]
    split <;> simp [TML_STATUS.addr]
    omega
  simp only [State.needFailed, State.needs, hm, hd]

/-- An entry whose moment has come advances, and its action runs. -/
theorem State.dispatch_runs {i action : Nat} (f : TmlE → State → State) (ha : (s.entry i).action = action) (ho : s.oldEntry i = none)
    (hm : s.marks.contains (.edited i) = false) (hr : s.runnable (s.entry i) = true) (hf : s.firstOfTick i = true)
    (hn : s.needFailed (s.entry i) = false) :
    s.dispatch i action f = f (s.entry i) (((s.advanceEntry i).mark .dispatched).pmu 0x14 i) := by
  unfold State.dispatch
  simp only [State.standing, ho, Option.getD_none, ha, hr, hf, hm, s.advanceEntry_needFailed, hn]
  simp

theorem State.dispatched_yticks (s : State) (i y : Nat) :
    (((s.advanceEntry i).mark .dispatched).pmu 0x14 i).yticks y = s.yticks y := by
  rw [State.yticks, (State.pmu_fr ..).yards rfl]
  exact congrArg (fun x => (vat x y).ticks) ((State.advanceEntry_fr ..).yards rfl)

theorem State.dispatched_gpi (s : State) (i : Nat) {g : Nat} (h : g < 32) :
    (((s.advanceEntry i).mark .dispatched).pmu 0x14 i).g (GPI_CFG.FUNCTION g) = s.g (GPI_CFG.FUNCTION g) := by
  exact g_kept (GPI_CFG.kept h (State.pmu_fr ..) rfl rfl) <| (g_mark ..).trans <|
    g_kept (GPI_CFG.kept h (State.advanceEntry_fr ..) rfl rfl) <| rfl

/-- An output of function OUT that an action drives. -/
theorem State.driveGpio_on (s : State) {g : Nat} (on : Bool) (h : g < 32) (hg : s.g (GPI_CFG.FUNCTION g) = 1) :
    (s.driveGpio g on).on (bitFld GPI_OUT.addr g) = on := by
  unfold State.driveGpio
  rw [if_neg (not_not_intro hg)]
  have hfit : (bitFld GPI_OUT.addr g).fits = true := by
    simp [Fld.fits, bitFld]
    omega
  exact on_p_b2n _ _ hfit rfl

theorem vat_vset_same {α : Type} [Inhabited α] {n i : Nat} (v : Vector α n) (x : α) (h : i < n) : vat (vset v i x) i = x := by
  rw [vat_vset, if_pos ⟨rfl, h⟩]

theorem State.limitChoice_lt (s : State) (d c : Nat) (h : c < 4) : s.limitChoice d c < 4 := by
  unfold State.limitChoice
  dsimp only
  split_ifs <;> omega

theorem State.choice_lt (s : State) (d : Nat) : s.choice d < 4 := by
  unfold State.choice
  dsimp only
  split_ifs <;> decide

theorem nextField_lt (t : Option Nat) : nextField t < 2 ^ 16 := by
  unfold nextField
  split <;> omega

theorem row_tmlCtrl : rowOf TML_CTRL.addr = some ⟨0x30000, 0x4, 1, 1, .one .aon, false, 2, [⟨0, 1, .rw, 0, 1⟩, ⟨1, 1, .rw, 0, 1⟩]⟩ := by
  decide

theorem State.writeReg_tmlCtrl (s : State) (m : Nat) (w : Word) {r : RegRow} (hr : rowOf TML_CTRL.addr = some r) (hb : r.base = TML_CTRL.addr) :
    s.writeReg m TML_CTRL.addr w = (s.putReg r TML_CTRL.addr w).when (!s.on TML_CTRL.ENABLE && (s.putReg r TML_CTRL.addr w).on TML_CTRL.ENABLE)
      fun s => s.tmlOn := by
  simp only [State.writeReg, hr, hb]
  rfl

end

theorem timelineWakeLead_entry :
    ∀ (w : WakeOf) i d (s : State), w = .entry i → s.live (s.entry i) = true →
    d ∈ s.needs (s.entry i).action (s.entry i).target → 0 < s.lead d →
    (s.entry i).due ≤ s.yticks (s.entry i).yard + s.lead d → Does (.timelineWakeLead w) s fun t =>
    (⟨d, (s.entry i).yard, (s.entry i).due, i + 1, 0⟩ : TmlRaise) ∈ t.pdc.raises := by
  rintro _ i d s rfl hl hd h0 hdue
  refine does_of rfl (when_of _ hl) ?_
  refine each_at (P := fun u => (⟨d, (s.entry i).yard, (s.entry i).due, i + 1, 0⟩ : TmlRaise) ∈ u.pdc.raises)
    (List.mem_filter.2 ⟨hd, by simp [h0, hdue]⟩) (fun u => ?_) (fun k _ _ u hu => ?_) s
  · rw [State.raiseTimeline_raises]
    exact List.mem_cons_self ..
  · rw [State.raiseTimeline_raises]
    exact List.mem_cons_of_mem _ hu

theorem timelineWakeLead_pattern :
    ∀ (w : WakeOf) n (s : State), w = .pattern n → s.g (TML_PAT.STATE n) = 2 → s.on (PDC_CFG.PREDICT (portDom n)) = true →
    s.on TML_CTRL.PRED_EN = true → 0 < s.lead (portDom n) →
    (vat s.pat n).pred * 25000 ≤ s.yticks (s.stallYard n) + s.lead (portDom n) →
    s.yticks (s.stallYard n) < (vat s.pat n).pred * 25000 + 75000 → Does (.timelineWakeLead w) s fun t =>
    (⟨portDom n, s.stallYard n, (vat s.pat n).pred * 25000 + 75000, 0, n + 1⟩ : TmlRaise) ∈ t.pdc.raises := by
  rintro _ n s rfl hst hp he h0 h1 h2
  refine does_of rfl (when_of _ (by simp [hst, hp, he, h0, h1, h2])) ?_
  rw [State.raiseTimeline_raises]
  exact List.mem_cons_self ..

theorem domainWake_raises :
    ∀ (i : Fin 256) (s : State), (s.entry i).action = 1 → s.oldEntry i = none → s.marks.contains (.edited i) = false → s.runnable (s.entry i) = true →
    s.firstOfTick i = true →
    s.needFailed (s.entry i) = false → Does (.domainWake i) s fun t =>
    (⟨(s.entry i).target, (s.entry i).yard, s.yticks (s.entry i).yard + (s.entry i).hold, 0, 0⟩ : TmlRaise) ∈ t.pdc.raises := by
  intro i s ha ho hm hr hf hn
  refine does_of rfl (State.dispatch_runs _ ha ho hm hr hf hn) ?_
  rw [State.raiseTimeline_raises, State.dispatched_yticks]
  exact List.mem_cons_self ..

theorem tlmSample_records :
    ∀ (i : Fin 256) n (s : State), (s.entry i).action = 2 → s.oldEntry i = none → s.marks.contains (.edited i) = false → s.runnable (s.entry i) = true →
    s.firstOfTick i = true →
    s.needFailed (s.entry i) = false → portIx (s.entry i).target = some n → Does (.tlmSample i) s fun t =>
    t = (((s.advanceEntry i).mark .dispatched).pmu 0x14 i).record 2 0x30 (s.entry i).yard (((s.entry i).target + (s.entry i).arg % 16 * 2 ^ 8) :: (((s.advanceEntry i).mark .dispatched).pmu 0x14 i).sampleWords n (s.entry i).arg) := by
  intro i n s ha ho hm hr hf hn hp
  exact does_of rfl (State.dispatch_runs _ ha ho hm hr hf hn) (by rw [hp])

theorem pdKeepalive_sends :
    ∀ (i : Fin 256) n (s : State), (s.entry i).action = 3 → s.oldEntry i = none → s.marks.contains (.edited i) = false → s.runnable (s.entry i) = true →
    s.firstOfTick i = true →
    s.needFailed (s.entry i) = false → portIx (s.entry i).target = some n → Does (.pdKeepalive i) s fun t =>
    t = (((s.advanceEntry i).mark .dispatched).pmu 0x14 i).keepAlive n := by
  intro i n s ha ho hm hr hf hn hp
  exact does_of rfl (State.dispatch_runs _ ha ho hm hr hf hn) (by rw [hp])

theorem doorbell_rings :
    ∀ (i : Fin 256) (s : State), (s.entry i).action = 4 → s.oldEntry i = none → s.marks.contains (.edited i) = false → s.runnable (s.entry i) = true →
    s.firstOfTick i = true →
    s.needFailed (s.entry i) = false → (s.entry i).target < 12 → Does (.doorbell i) s fun t =>
    t.on (MBX_DB.OUT_DB (s.entry i).target) = true ∧ .doorbell (s.entry i).target 2 (s.entry i).arg ∈ t.outs := by
  intro i s ha ho hm hr hf hn ht
  refine does_of rfl (State.dispatch_runs _ ha ho hm hr hf hn) ⟨?_, State.ring_out ..⟩
  unfold State.ring
  exact (on_out ..).trans (on_hw _ rfl rfl)

theorem gpioSet_drives :
    ∀ (i : Fin 256) (s : State), (s.entry i).action = 5 → s.oldEntry i = none → s.marks.contains (.edited i) = false → s.runnable (s.entry i) = true →
    s.firstOfTick i = true →
    s.needFailed (s.entry i) = false → (s.entry i).target < 32 → s.g (GPI_CFG.FUNCTION (s.entry i).target) = 1 →
    Does (.gpioSet i) s fun t => t.on (bitFld GPI_OUT.addr (s.entry i).target) = true := by
  intro i s ha ho hm hr hf hn ht hg
  refine does_of rfl (State.dispatch_runs _ ha ho hm hr hf hn) ?_
  exact State.driveGpio_on _ _ ht ((State.dispatched_gpi _ _ ht).trans hg)

theorem gpioClear_drives :
    ∀ (i : Fin 256) (s : State), (s.entry i).action = 6 → s.oldEntry i = none → s.marks.contains (.edited i) = false → s.runnable (s.entry i) = true →
    s.firstOfTick i = true →
    s.needFailed (s.entry i) = false → (s.entry i).target < 32 → s.g (GPI_CFG.FUNCTION (s.entry i).target) = 1 →
    Does (.gpioClear i) s fun t => t.on (bitFld GPI_OUT.addr (s.entry i).target) = false := by
  intro i s ha ho hm hr hf hn ht hg
  refine does_of rfl (State.dispatch_runs _ ha ho hm hr hf hn) ?_
  exact State.driveGpio_on _ _ ht ((State.dispatched_gpi _ _ ht).trans hg)

theorem fabricHeartbeat_sends :
    ∀ (i : Fin 256) (s : State), (s.entry i).action = 7 → s.oldEntry i = none → s.marks.contains (.edited i) = false → s.runnable (s.entry i) = true →
    s.firstOfTick i = true →
    s.needFailed (s.entry i) = false → (((s.advanceEntry i).mark .dispatched).pmu 0x14 i).glkTrained (s.entry i).target = true →
    Does (.fabricHeartbeat i) s fun t =>
    t = (((s.advanceEntry i).mark .dispatched).pmu 0x14 i).linkBale (s.entry i).target "HEARTBEAT" [s.member, (s.entry i).rep] := by
  intro i s ha ho hm hr hf hn ht
  refine does_of rfl (State.dispatch_runs _ ha ho hm hr hf hn) ?_
  have hmem : (((s.advanceEntry i).mark .dispatched).pmu 0x14 i).member = s.member := by
    rw [State.member, (State.pmu_fr ..).fab rfl]
    exact congrArg FabS.member ((State.advanceEntry_fr ..).fab rfl)
  rw [when_of _ ht, hmem]

theorem budgetReview_reviews :
    ∀ (i : Fin 256) (s : State), (s.entry i).action = 8 → s.oldEntry i = none → s.marks.contains (.edited i) = false → s.runnable (s.entry i) = true →
    s.firstOfTick i = true →
    s.needFailed (s.entry i) = false → Does (.budgetReview i) s fun t => t = (((s.advanceEntry i).mark .dispatched).pmu 0x14 i).review := by
  intro i s ha ho hm hr hf hn
  exact does_of rfl (State.dispatch_runs _ ha ho hm hr hf hn) rfl

theorem ttPrewake_raises :
    ∀ (i : Fin 256) (s : State), (s.entry i).action = 9 → s.oldEntry i = none → s.marks.contains (.edited i) = false → s.runnable (s.entry i) = true →
    s.firstOfTick i = true →
    s.needFailed (s.entry i) = false → Does (.ttPrewake i) s fun t =>
    (⟨dHSB, (s.entry i).yard, s.yticks (s.entry i).yard + (s.entry i).hold, 0, 0⟩ : TmlRaise) ∈ t.pdc.raises ∧
    (⟨portDom (s.entry i).target, (s.entry i).yard, s.yticks (s.entry i).yard + (s.entry i).hold, 0, 0⟩ : TmlRaise) ∈ t.pdc.raises := by
  intro i s ha ho hm hr hf hn
  refine does_of rfl (State.dispatch_runs _ ha ho hm hr hf hn) ?_
  rw [State.raiseTimeline_raises, State.raiseTimeline_raises, State.dispatched_yticks]
  exact ⟨List.mem_cons_of_mem _ (List.mem_cons_self ..), List.mem_cons_self ..⟩

theorem tmlEnable_enables :
    ∀ (m : Fin 16) (s : State), s.passes m TML_CTRL.addr true = true → Does (.tmlEnable m) s fun t =>
    t.on TML_CTRL.ENABLE = true := by
  intro m s hp
  refine does_of rfl (State.access_write hp) ?_
  rw [State.writeReg_tmlCtrl _ _ _ row_tmlCtrl rfl]
  refine on_when (fun _ h => (State.tmlMap_fr ..).on rfl h) ?_
  have hv : getBits (withFields (s.word TML_CTRL.addr) [(TML_CTRL.ENABLE, 1)]) 0 1 = 1 := getBits_withFields_one _ TML_CTRL.ENABLE 1 (by decide)
  rw [State.on, g_putReg_rw (a := TML_CTRL.addr) (f := TML_CTRL.ENABLE) (lo := 0) (hi := 1) _ _ rfl (rowOf_fieldsOk row_tmlCtrl) (by decide)]
  · exact bne_iff_ne.2 (hv.trans_ne (by decide))
  · exact ⟨Nat.zero_le _, hv.le⟩

theorem predictorChoice_chosen :
    ∀ (d : Fin 12) (s : State), d.val ≠ 0 → s.floor d ≠ 2 → s.domOn d = true → Does (.predictorChoice d) s fun t =>
    t.g (TML_PRED.CHOICE d) = s.limitChoice d (s.choice d) ∧ t.g (TML_PRED.NEXT d) = nextField (s.nextEvent d) := by
  intro d s hd hfl hon
  refine does_of rfl (if_neg (by simp [hd, hfl, hon])) ⟨?_, ?_⟩
  · exact (g_mark ..).trans <| g_kept (TML_PRED.kept d.isLt (State.beginEntry_fr ..) rfl rfl) <| g_regs (State.withPred_regs ..) <|
      (g_p_beside _ _ rfl).trans <| g_p_of_lt rfl (s.limitChoice_lt d _ (s.choice_lt d))
  · exact (g_mark ..).trans <| g_kept (TML_PRED.kept d.isLt (State.beginEntry_fr ..) rfl rfl) <| g_regs (State.withPred_regs ..) <|
      g_p_of_lt rfl (nextField_lt _)

theorem observationWindowEnd_closes :
    ∀ (d : Fin 12) (s : State), d.val ≠ 0 → Does (.observationWindowEnd d) s fun t =>
    t.g (TML_PRED.HISTORY d) = min 64 (s.g (TML_PRED.HISTORY d) + 1) ∧
    (vat t.pred d).missWin = (0 :: (vat s.pred d).missWin).take 64 := by
  intro d s hd
  refine does_of rfl (if_neg hd) ⟨?_, ?_⟩
  · exact g_regs (State.withPred_regs ..) <| g_when (fun _ h => (g_p_beside _ _ rfl).trans h) <| (g_p_beside _ _ rfl).trans <|
      g_p_of_lt rfl (Nat.lt_of_le_of_lt (Nat.min_le_left ..) (Nat.le_of_ble_eq_true rfl : 64 < 128))
  · exact congrArg Pred.missWin (vat_vset_same _ _ d.isLt)

theorem burstStart_learning :
    ∀ (n : Stall) (s : State), s.g (TML_PAT.STATE n) = 0 → Does (.burstStart n) s fun t => t.g (TML_PAT.STATE n) = 1 ∧
    (vat t.pat n).last = (vat s.yards (s.stallYard n)).iv := by
  intro n s hst
  exact does_of rfl (if_pos hst) ⟨g_p_lit rfl rfl, congrArg Pat.last (vat_vset_same _ _ n.isLt)⟩

theorem burstStart_predicted :
    ∀ (n : Stall) (s : State), s.g (TML_PAT.STATE n) = 2 → Does (.burstStart n) s fun t =>
    (vat t.pat n).last = (vat s.yards (s.stallYard n)).iv ∧
    (vat t.pat n).pred = (vat s.yards (s.stallYard n)).iv + s.g (TML_PAT.PERIOD n) := by
  intro n s hst
  have h0 : ¬(s.packetAt n).g (TML_PAT.STATE n) = 0 := fun h => absurd (hst.symm.trans h) (by decide)
  exact does_of rfl ((if_neg h0).trans (if_pos hst))
    ⟨congrArg Pat.last (vat_vset_same _ _ n.isLt), congrArg Pat.pred (vat_vset_same _ _ n.isLt)⟩

theorem predictionWindowMiss_first :
    ∀ (n : Stall) (s : State), s.g (TML_PAT.STATE n) = 2 → (vat s.pat n).pred + 2 < (vat s.yards (s.stallYard n)).iv →
    (s.windowCloses n && s.burstAhead n) = false → (vat s.pat n).misses = 0 → Does (.predictionWindowMiss n) s fun t => (vat t.pat n).misses = 1 ∧
    (vat t.pat n).pred = (vat s.pat n).pred + s.g (TML_PAT.PERIOD n) := by
  intro n s hst hw hc hmi
  refine does_of rfl ((if_neg (by simp [hst, hw, hc])).trans (if_neg (by simp [hmi]))) ⟨?_, ?_⟩
  · exact (congrArg Pat.misses (vat_vset_same _ _ n.isLt)).trans (congrArg (· + 1) hmi)
  · exact congrArg Pat.pred (vat_vset_same _ _ n.isLt)

theorem predictionWindowMiss_second :
    ∀ (n : Stall) (s : State), s.g (TML_PAT.STATE n) = 2 → (vat s.pat n).pred + 2 < (vat s.yards (s.stallYard n)).iv →
    (s.windowCloses n && s.burstAhead n) = false → 1 ≤ (vat s.pat n).misses → Does (.predictionWindowMiss n) s fun t => t.g (TML_PAT.STATE n) = 1 ∧
    t.g (TML_PAT.PERIOD n) = 0 := by
  intro n s hst hw hc hmi
  refine does_of rfl ((if_neg (by simp [hst, hw, hc])).trans (if_pos hmi)) ⟨?_, ?_⟩
  · exact g_regs (State.withPat_regs ..) <| (g_p_beside _ _ rfl).trans <| (g_p_beside _ _ rfl).trans <| g_p_lit rfl rfl
  · exact g_regs (State.withPat_regs ..) <| (g_p_beside _ _ rfl).trans <| g_p_lit rfl rfl

/-- Settles O16: command by command; `State.dispatch_runs` for the actions. -/
theorem timelineCommandsComplete : Obligations.TimelineCommandsComplete := by
  unfold Obligations.TimelineCommandsComplete
  exact ⟨timelineWakeLead_entry, timelineWakeLead_pattern, domainWake_raises, tlmSample_records, pdKeepalive_sends,
    doorbell_rings, gpioSet_drives, gpioClear_drives, fabricHeartbeat_sends, budgetReview_reviews,
    ttPrewake_raises, tmlEnable_enables, predictorChoice_chosen, observationWindowEnd_closes, burstStart_learning,
    burstStart_predicted, predictionWindowMiss_first, predictionWindowMiss_second⟩
end Sys2Proof.Machine

/-!
# The power domain controller
-/
namespace Sys2Proof.Machine

set_option Elab.async false

section
variable {s : State} {d k c : Nat}

/-! ## One domain's controller -/

theorem dom_domMod {g : DomS → DomS} (h : d < 12) : (s.domMod d g).dom d = g (s.dom d) := vat_vmod _ g h

/-- A change that keeps a part of a domain's controller keeps it in every domain. -/
theorem get_domMod_keep {α : Type} (φ : DomS → α) {g : DomS → DomS} (k : Nat) (hg : ∀ e, φ (g e) = φ e := by intro e; rfl) :
    φ ((s.domMod d g).dom k) = φ (s.dom k) := by
  by_cases hd : d = k
  · subst hd
    unfold State.dom State.domMod vmod
    show φ (vat (vset s.pdc.dom d (g (vat s.pdc.dom d))) d) = _
    rw [vat_vset]
    split
    · exact hg _
    · rfl
  · exact congrArg φ (vat_vmod_ne _ g hd)

theorem Fr.dom {m b : Nat} {t : State} (h : Fr m b s t) (hm : m.testBit 5 = false) (d : Nat) : t.dom d = s.dom d := by
  rw [State.dom, State.dom, h.pdc hm]

@[simp] theorem p_dom (s : State) (f : Fld) (v k : Nat) : (s.p f v).dom k = s.dom k := rfl
@[simp] theorem mark_dom (s : State) (x : Mark) (k : Nat) : (s.mark x).dom k = s.dom k := rfl
@[simp] theorem State.wakesDone_dom (s : State) (d k : Nat) : (s.wakesDone d).dom k = s.dom k := rfl
@[simp] theorem State.domRecord_dom (s : State) (d k : Nat) : (s.domRecord d).dom k = s.dom k := (State.record_fr ..).dom rfl k

/-! ## Votes stand as other domains are judged -/

theorem State.domStep_votes (s : State) (d k : Nat) (x : DomStep) : ((s.domStep d x).dom k).votes = (s.dom k).votes :=
  get_domMod_keep DomS.votes k

theorem State.wake_votes (s : State) (d c k : Nat) : ((s.wake d c).dom k).votes = (s.dom k).votes := by
  unfold State.wake
  split
  · dsimp only
    split <;> simp only [p_dom, State.domRecord_dom, State.wakesDone_dom, State.domStep_votes]
  · split
    · dsimp only
      split
      · rw [State.exitStart, State.domStep_votes]
        exact get_domMod_keep DomS.votes k
      · rfl
    · rfl

theorem State.judge_votes (s : State) (d c k : Nat) : ((s.judge d c).dom k).votes = (s.dom k).votes := by
  unfold State.judge
  dsimp only
  split
  · rfl
  split
  · exact (get_domMod_keep DomS.votes k).trans (State.wake_votes ..)
  split
  · rfl
  split
  · split
    · exact (get_domMod_keep DomS.votes k).trans (State.wake_votes ..)
    · rfl
  · rfl

/-- A client's vote that rises stands at what it rose to. -/
theorem State.raiseVote_vote (s : State) (c d v : Nat) (hd : d < 12) (h0 : d ≠ 0) (hc : c < 16) :
    v ≤ vat ((s.raiseVote c d v).dom d).votes c := by
  unfold State.raiseVote State.setVote
  dsimp only
  rw [if_neg h0, State.judge_votes, dom_domMod hd]
  exact (Nat.le_max_left ..).trans (vat_vset_same _ _ hc).ge

theorem State.raiseVote_ne (s : State) (c v : Nat) (h : k ≠ d) : ((s.raiseVote c k v).dom d).votes = (s.dom d).votes := by
  unfold State.raiseVote State.setVote
  dsimp only
  split
  · rfl
  · rw [State.judge_votes]
    exact congrArg DomS.votes (vat_vmod_ne _ _ h)

/-! ## The crystal -/

/-- Whether the crystal runs does not change with the mode, nor by a fault source. -/
theorem State.setMode_running (s : State) (m c : Nat) : (s.setMode m c).on PDC_XTAL.RUNNING = s.on PDC_XTAL.RUNNING := by
  unfold State.setMode
  exact ite_keeps (P := fun z => z.on (PDC_XTAL.RUNNING) = _) (rfl) (each_keeps (P := fun z => z.on (PDC_XTAL.RUNNING) = _) (fun _ _ h => ite_keeps (P := fun z => z.on (PDC_XTAL.RUNNING) = _) ((State.setVote_fr ..).on rfl h) ((State.setVote_fr ..).on rfl h)) _ _ <|
    (on_p_beside _ _ rfl).trans <| (on_p_far _ _ PDC_CTRL.ix PDC_XTAL.ix).trans <|
    on_when (fun _ h => (on_p_far _ _ TOP_MODE.ix PDC_XTAL.ix).trans <| (on_p_far _ _ TOP_MODE.ix PDC_XTAL.ix).trans h) <|
    (State.record_fr ..).on rfl <| (on_p_far _ _ TOP_MODE.ix PDC_XTAL.ix))

theorem State.reactChip_running (s : State) (src sev : Nat) : (s.reactChip src sev).on PDC_XTAL.RUNNING = s.on PDC_XTAL.RUNNING := by
  unfold State.reactChip
  exact ite_keeps (P := fun z => z.on (PDC_XTAL.RUNNING) = _) (rfl) (ite_keeps (P := fun z => z.on (PDC_XTAL.RUNNING) = _) (ite_keeps (P := fun z => z.on (PDC_XTAL.RUNNING) = _) (on_regs (State.withFlt_regs ..) <|
    (on_p_far _ _ FLT_STATUS.ix PDC_XTAL.ix).trans <| (on_p_far _ _ FLT_STATUS.ix PDC_XTAL.ix).trans <|
    (on_p_far _ _ FLT_STATUS.ix PDC_XTAL.ix).trans <| on_when (fun _ h => (on_p_far _ _ TOP_MODE.ix PDC_XTAL.ix).trans h) <|
    rfl) (rfl)) (on_when (fun _ h => on_regs (State.withFlt_regs ..) h) <| on_when (fun _ h => (State.setMode_running ..).trans <|
    (on_p_far _ _ TOP_MODE.ix PDC_XTAL.ix).trans <| (on_p_far _ _ FLT_STATUS.ix PDC_XTAL.ix).trans h) <|
    on_when (fun _ h => (on_p_far _ _ FLT_PINS.ix PDC_XTAL.ix).trans <| (on_p_far _ _ FLT_PINS.ix PDC_XTAL.ix).trans <|
    (on_p_far _ _ FLT_STATUS.ix PDC_XTAL.ix).trans h) <| (on_p_far _ _ FLT_STATUS.ix PDC_XTAL.ix).trans <|
    (on_p_far _ _ FLT_STATUS.ix PDC_XTAL.ix).trans <| (on_p_far _ _ FLT_STATUS.ix PDC_XTAL.ix).trans <|
    on_when (fun _ h => (on_p_far _ _ TOP_MODE.ix PDC_XTAL.ix).trans h) <| (State.safeOutputs_fr ..).on rfl <|
    on_when (fun _ h => on_regs (State.withBoot_regs ..) h) <| on_regs (State.withFlt_regs ..) <| rfl))

theorem State.raise_running (s : State) (src q : Nat) : (s.raise src q).on PDC_XTAL.RUNNING = s.on PDC_XTAL.RUNNING := by
  unfold State.raise
  exact ite_keeps (P := fun z => z.on (PDC_XTAL.RUNNING) = _) (on_when (fun _ h => (State.judge_fr ..).on rfl <|
    (on_mark ..).trans <| on_regs (State.withPdc_regs ..) h) <| (State.record_fr ..).on rfl <|
    (on_p_out (b := 2 ^ 179) _ _ (FLT_QUAL.reg rfl) rfl).trans <| (on_p_out (b := 2 ^ 179) _ _ (FLT_QUAL.reg rfl) rfl).trans <|
    on_when (fun _ h => (on_p_out (b := 2 ^ 179) _ _ (FLT_QUAL.reg rfl) rfl).trans h) <| (State.setSticky_fr ..).on rfl <|
    rfl) (ite_keeps (P := fun z => z.on (PDC_XTAL.RUNNING) = _) ((State.reactPort_fr ..).on rfl <|
    on_when (fun _ h => (State.judge_fr ..).on rfl <| (on_mark ..).trans <| on_regs (State.withPdc_regs ..) h) <|
    (State.record_fr ..).on rfl <| (on_p_out (b := 2 ^ 179) _ _ (FLT_QUAL.reg rfl) rfl).trans <|
    (on_p_out (b := 2 ^ 179) _ _ (FLT_QUAL.reg rfl) rfl).trans <|
    on_when (fun _ h => (on_p_out (b := 2 ^ 179) _ _ (FLT_QUAL.reg rfl) rfl).trans h) <| (State.setSticky_fr ..).on rfl <|
    rfl) ((State.reactChip_running ..).trans <| on_when (fun _ h => (State.judge_fr ..).on rfl <| (on_mark ..).trans <|
    on_regs (State.withPdc_regs ..) h) <| (State.record_fr ..).on rfl <|
    (on_p_out (b := 2 ^ 179) _ _ (FLT_QUAL.reg rfl) rfl).trans <| (on_p_out (b := 2 ^ 179) _ _ (FLT_QUAL.reg rfl) rfl).trans <|
    on_when (fun _ h => (on_p_out (b := 2 ^ 179) _ _ (FLT_QUAL.reg rfl) rfl).trans h) <| (State.setSticky_fr ..).on rfl <| rfl))

theorem State.yardCoarse_running (s : State) (y : Nat) : (s.yardCoarse y).on PDC_XTAL.RUNNING = s.on PDC_XTAL.RUNNING := by
  unfold State.yardCoarse
  exact ite_keeps (P := fun z => z.on (PDC_XTAL.RUNNING) = _) (rfl) (on_when (fun _ h => (State.raise_running ..).trans h) <|
    (on_p_out (b := 2 ^ 8) _ _ (YRD_STATUS.reg rfl) rfl))

theorem State.yardCoarse_state (s : State) (y : Nat) : (s.yardCoarse y).g (YRD_STATUS.STATE 4) = s.g (YRD_STATUS.STATE 4) := by
  unfold State.yardCoarse
  exact ite_keeps (P := fun z => z.g (YRD_STATUS.STATE 4) = _) (rfl) (g_when (fun _ h => (State.raise_fr ..).g rfl h) <|
    (g_p_beside _ _ rfl))

end

theorem accessHoldEnd_ends :
    ∀ (m : Fin 16) (d : Fin 12) (s : State), Does (.accessHoldEnd m d) s fun t =>
    t.pdc.accHolds = s.pdc.accHolds.filter fun h => ¬(h.1 = m.val ∧ h.2 = d.val) := by
  exact fun m d s => does_of rfl rfl rfl

theorem domainEntryStepDone_isolates :
    ∀ (d : Fin 12) (s : State), (s.dom d).step = .clockStop → Does (.domainEntryStepDone d) s fun t =>
    (t.dom d).step = .isolate := by
  intro d s h
  refine does_of rfl (by rw [h]) ?_
  exact congrArg DomS.step (dom_domMod d.isLt)

theorem domainEntryStepDone_holds :
    ∀ (d : Fin 12) (s : State), (s.dom d).step = .isolate → Does (.domainEntryStepDone d) s fun t =>
    (t.dom d).step = .a3 := by
  intro d s h
  refine does_of rfl (by rw [h]) ?_
  exact congrArg DomS.step (dom_domMod d.isLt)

theorem switchOpenTimeout_reported :
    ∀ (d : Fin 12) (s : State), (s.dom d).step = .move → s.g (PDC_DOM.TARGET d) = 2 →
    Does (.switchOpenTimeout d) s fun t => t.sticky 13 = true := by
  intro d s h ht
  exact does_of rfl (when_of _ (by simp [h, ht])) (State.raise_sticky _ _ (by decide))

theorem domainExitStepDone_released :
    ∀ (d : Fin 12) (late : Bool) (refused : List Nat) (s : State), (s.dom d).step = .railUp →
    Does (.domainExitStepDone d late refused) s fun t => (t.dom d).step = .release ∧ (late = true →
    t.on PDC_STICKY.SLOW_WAKE = true) := by
  intro d late refused s h
  refine does_of rfl (by rw [h]) ⟨congrArg DomS.step (dom_domMod d.isLt), fun hl => ?_⟩
  subst hl
  exact (State.domStep_fr ..).on rfl (on_hw _ rfl rfl)

theorem domainExitStepDone_restores :
    ∀ (d : Fin 12) (late : Bool) (refused : List Nat) (s : State), (s.dom d).step = .closeSwitch →
    Does (.domainExitStepDone d late refused) s fun t => (t.dom d).step = .restore ∧ (late = true →
    t.on PDC_STICKY.SLOW_WAKE = true) := by
  intro d late refused s h
  refine does_of rfl (by rw [h]) ⟨congrArg DomS.step (dom_domMod d.isLt), fun hl => ?_⟩
  subst hl
  exact (State.domStep_fr ..).on rfl (on_hw _ rfl rfl)

theorem domainExitTimeout_retries :
    ∀ (d : Fin 12) (s : State), (s.dom d).step = .railUp → (s.dom d).from_ ≠ 2 →
    s.g (PDC_DOM.TRIES d) + 1 ≤ s.g PDC_X_TIME.RETRIES → Does (.domainExitTimeout d) s fun t =>
    (t.dom d).step = .retryWait ∧ t.g (PDC_DOM.TRIES d) = (s.g (PDC_DOM.TRIES d) + 1) % 2 ^ (PDC_DOM.TRIES d).width := by
  intro d s h hf hn
  have hx : s.exitFail d = (s.p (PDC_DOM.TRIES d) (s.g (PDC_DOM.TRIES d) + 1)).domStep d .retryWait := by
    unfold State.exitFail
    dsimp only
    rw [when_of_not _ (by simpa using hf)]
    exact if_pos (hn.trans (g_p_far _ _ (PDC_DOM.ix _ d.isLt) PDC_X_TIME.ix).ge)
  refine does_of rfl ((if_neg (by simp [h])).trans ((when_of _ (by rw [h]; rfl)).trans hx)) ⟨?_, ?_⟩
  · exact congrArg DomS.step (dom_domMod d.isLt)
  · exact g_kept (PDC_DOM.kept d.isLt (State.domStep_fr ..) rfl rfl) (g_p _ _ rfl)

theorem domainExitRetry_starts :
    ∀ (d : Fin 12) (s : State), (s.dom d).step = .retryWait → Does (.domainExitRetry d) s fun t =>
    (t.dom d).step = (if !s.on PDC_XTAL.RUNNING then .crystal else if (s.dom d).from_ = 2 then .closeSwitch else .railUp) := by
  intro d s h
  refine does_of rfl (when_of _ (by simp [h])) ?_
  exact congrArg DomS.step (dom_domMod d.isLt)

theorem crystalStop_stops :
    ∀ (s : State), s.on PDC_XTAL.STOP_EN = true → s.on PDC_XTAL.RUNNING = true →
    (List.range 12).all (fun d => s.floor d = 0) = true → s.farEvents = true → Does .crystalStop s fun t =>
    t.on PDC_XTAL.RUNNING = false ∧ t.g (YRD_STATUS.STATE 4) = 3 := by
  intro s he hr hfl hfar
  refine does_of rfl (when_of _ (by simp [he, hr, hfl, hfar])) ⟨?_, ?_⟩
  · exact each_keeps (P := fun u => u.on PDC_XTAL.RUNNING = false) (fun _ u h => (u.yardCoarse_running _).trans h) _ _ <|
      (on_p_far _ _ (YRD_STATUS.ix 4 (by decide)) PDC_XTAL.ix).trans <| (on_p_beside _ _ rfl).trans (on_p_zero _ rfl)
  · exact each_keeps (P := fun u => u.g (YRD_STATUS.STATE 4) = 3) (fun k u h => (u.yardCoarse_state k).trans h) _ _ (g_p_lit rfl rfl)

theorem crystalRestart_runs :
    ∀ (s : State), s.serving = true → s.on PDC_XTAL.RUNNING = false → s.farEvents = false →
    Does .crystalRestart s fun t => t.on PDC_XTAL.RUNNING = true ∧ t.g (YRD_STATUS.STATE 4) = 2 := by
  intro s hs hr hfar
  refine does_of rfl (when_of _ (by simp [hs, hr, hfar])) ⟨?_, ?_⟩
  · unfold State.crystalUp
    exact each_keeps (P := fun z => z.on (PDC_XTAL.RUNNING) = _) (fun _ _ h => (State.exitStart_fr ..).on rfl h) _ _ <|
      (State.yardsCrystal_fr ..).on rfl <| on_p_one _ rfl rfl
  · unfold State.crystalUp
    refine each_keeps (P := fun z => z.g (YRD_STATUS.STATE 4) = _) (fun _ _ h => (State.exitStart_fr ..).g rfl h) _ _ <| ?_
    unfold State.yardsCrystal
    exact (State.yardMod_fr ..).g rfl <| (g_p_beside _ _ rfl).trans <| g_p_lit rfl rfl

theorem jtagTapLeaveTestLogicReset_raises :
    ∀ (s : State), s.boot.held = 0 → Does .jtagTapLeaveTestLogicReset s fun t => ∀ d, d < 12 → 1 ≤ d →
    2 ≤ vat (t.dom d).votes 15 := by
  intro s h
  refine does_of rfl (when_of _ (decide_eq_true h)) fun d hd h1 => ?_
  refine each_at (P := fun u => 2 ≤ vat (u.dom d).votes 15) (g := fun d s => (s.mark (.raised 15 d)).raiseVote 15 d 2)
    (n := d) ?_ (fun u => State.raiseVote_vote _ 15 d 2 hd (by omega) (by decide)) (fun k _ hk u hu => ?_) s
  · simp
    omega
  · rw [State.raiseVote_ne _ _ _ hk]
    exact hu

/-- Settles O17: command by command. -/
theorem domainCommandsComplete : Obligations.DomainCommandsComplete := by
  unfold Obligations.DomainCommandsComplete
  exact ⟨accessHoldEnd_ends, domainEntryStepDone_isolates, domainEntryStepDone_holds, switchOpenTimeout_reported,
    domainExitStepDone_released, domainExitStepDone_restores, domainExitTimeout_retries, domainExitRetry_starts,
    crystalStop_stops, crystalRestart_runs, jtagTapLeaveTestLogicReset_raises⟩
end Sys2Proof.Machine

/-!
# The PD protocol layer of a port

What sending and receiving a PD message keeps, and that the message goes out.
-/
namespace Sys2Proof.Machine

set_option Elab.async false

section
variable {s : State} {n k : Nat}

/-! ## The PD controller of a port -/

theorem get_tcMod_keep {α : Type} (φ : Tcp → α) {g : Tcp → Tcp} (k : Nat) (hg : ∀ x, φ (g x) = φ x := by intro x; rfl) :
    φ ((s.tcMod n g).tc k) = φ (s.tc k) := by
  unfold State.tc State.tcMod vmod
  show φ (vat (vset s.tcp n (g (vat s.tcp n))) k) = _
  rw [vat_vset]
  split
  next h => rw [h.1]; exact hg _
  · rfl

theorem get_tcMod {α : Type} (φ : Tcp → α) {g : Tcp → Tcp} (h : n < 17) : φ ((s.tcMod n g).tc n) = φ (g (s.tc n)) :=
  congrArg φ (tc_tcMod h)

theorem get_chMod {α : Type} (φ : Chan → α) {g : Chan → Chan} (h : n < 17) : φ ((s.chMod n g).ch n) = φ (g (s.ch n)) :=
  congrArg φ (ch_chMod h)

@[simp] theorem p_tc (s : State) (f : Fld) (v k : Nat) : (s.p f v).tc k = s.tc k := rfl
@[simp] theorem hw_tc (s : State) (f : Fld) (k : Nat) : (s.hw f).tc k = s.tc k := rfl
@[simp] theorem out_tc (s : State) (o : Out) (k : Nat) : (s.out o).tc k = s.tc k := rfl
@[simp] theorem p_ch (s : State) (f : Fld) (v k : Nat) : (s.p f v).ch k = s.ch k := rfl
@[simp] theorem hw_ch (s : State) (f : Fld) (k : Nat) : (s.hw f).ch k = s.ch k := rfl
@[simp] theorem out_ch (s : State) (o : Out) (k : Nat) : (s.out o).ch k = s.ch k := rfl

theorem State.pdSendOne_getTc {α : Type} (φ : Tcp → α) (s : State) (n sop : Nat) (m : PdMsg) (c : Nat) (w : List Nat) (k : Nat)
    (h : ∀ x i, φ { x with msgId := i } = φ x := by intro x i; rfl) : φ ((s.pdSendOne n sop m c w).tc k) = φ (s.tc k) := by
  unfold State.pdSendOne
  refine (get_tcMod_keep φ k fun x => h x _).trans ?_
  exact congrArg φ (Fr.tc (State.pdRecord_fr ..) rfl k)

theorem State.pdSendSop_getTc {α : Type} (φ : Tcp → α) (s : State) (n sop : Nat) (m : PdMsg) (l : List Nat) (k : Nat)
    (h : ∀ x i, φ { x with msgId := i } = φ x := by intro x i; rfl) : φ ((s.pdSendSop n sop m l).tc k) = φ (s.tc k) := by
  unfold State.pdSendSop
  refine when_keeps (P := fun z => φ (z.tc k) = _) (fun u hu => ite_keeps (P := fun z => φ (z.tc k) = _) ?_ ?_) rfl
  · exact foldl_keeps (P := fun z : State => φ (z.tc k) = _) (fun z c hz => (State.pdSendOne_getTc φ z n sop m _ _ k h).trans hz) _ _ hu
  · exact (State.pdSendOne_getTc φ u n sop m _ l k h).trans hu

/-- Sending a message changes only the port's message count. -/
theorem State.pdSend_getTc {α : Type} (φ : Tcp → α) (s : State) (n : Nat) (m : PdMsg) (l : List Nat) (k : Nat)
    (h : ∀ x i, φ { x with msgId := i } = φ x := by intro x i; rfl) : φ ((s.pdSend n m l).tc k) = φ (s.tc k) :=
  State.pdSendSop_getTc φ s n 0 m l k h

theorem State.offerCaps_getTc {α : Type} (φ : Tcp → α) (s : State) (n : Nat) (m : PdMsg) (l : List Nat) (k : Nat)
    (h : ∀ x i o a, φ { x with msgId := i, objs := o, ams := a } = φ x := by intro x i o a; rfl) :
    φ ((s.offerCaps n m l).tc k) = φ (s.tc k) := by
  unfold State.offerCaps State.tcSet
  rw [Fr.tc (State.setRp_fr ..) rfl k]
  exact (get_tcMod_keep φ k fun x => h x x.msgId l true).trans (State.pdSend_getTc φ s n m l k fun x i => h x i x.objs x.ams)

theorem State.sendCaps_getTc {α : Type} (φ : Tcp → α) (s : State) (n k : Nat)
    (h : ∀ x i o a, φ { x with msgId := i, objs := o, ams := a } = φ x := by intro x i o a; rfl) :
    φ ((s.sendCaps n).tc k) = φ (s.tc k) := by
  unfold State.sendCaps
  split <;> exact State.offerCaps_getTc φ s n _ _ k h

/-! ## A message arrives -/

/-- What a message that arrives changes of the port's PD controller: its count of capabilities to send. -/
theorem State.pdGot_getTc {α : Type} (φ : Tcp → α) (s : State) (n : Nat) (hdr : BitVec 16) (l : List Nat) (k : Nat)
    (h : ∀ x, φ { x with capsLeft := 0 } = φ x := by intro x; rfl) : φ ((s.pdGot n hdr l).tc k) = φ (s.tc k) := by
  unfold State.pdGot
  refine (get_tcMod_keep φ k h).trans (congrArg φ (show _ = s.tc k from ?_))
  refine ite_keeps (P := fun z => z.tc k = _) ?_ ?_
  · exact foldl_keeps (P := fun z : State => z.tc k = _) (fun z c hz => (Fr.tc (State.pdRecord_fr ..) rfl k).trans hz) _ _ rfl
  · exact Fr.tc (State.pdRecord_fr ..) rfl k

theorem State.pdGot_rev (s : State) (hn : n < 17) (hdr : BitVec 16) (l : List Nat) :
    (s.pdGot n hdr l).g (TCP_PORT.PD_REV n) = if bitsOf hdr.toNat 6 2 = 1 then 1 else 2 := by
  unfold State.pdGot
  exact g_kept (TCP_PORT.kept hn (State.tcMod_fr ..) rfl rfl) <| 
    g_p_of_lt rfl (show (if _ then 1 else 2) < 4 by split <;> decide)

theorem State.pdGot_state (s : State) (n : Nat) (hdr : BitVec 16) (l : List Nat) (hn : n < 17) :
    (s.pdGot n hdr l).g (TCP_PORT.STATE n) = s.g (TCP_PORT.STATE n) := by
  unfold State.pdGot
  exact g_kept (TCP_PORT.kept hn (State.tcMod_fr ..) rfl rfl) <| (g_p_beside _ _ rfl).trans <|
    ite_keeps (P := fun z => z.g (TCP_PORT.STATE n) = _) (foldl_keeps (P := fun z : State => z.g (TCP_PORT.STATE n) = _) (fun _ _ h => g_kept (TCP_PORT.kept hn (State.pdRecord_fr ..) rfl rfl) h) _ _ <|
    rfl) (g_kept (TCP_PORT.kept hn (State.pdRecord_fr ..) rfl rfl) <| rfl)

theorem State.pdGot_contract (s : State) (n : Nat) (hdr : BitVec 16) (l : List Nat) (hn : n < 17) :
    (s.pdGot n hdr l).g (TCP_PORT.CONTRACT n) = s.g (TCP_PORT.CONTRACT n) := by
  unfold State.pdGot
  exact g_kept (TCP_PORT.kept hn (State.tcMod_fr ..) rfl rfl) <| (g_p_beside _ _ rfl).trans <|
    ite_keeps (P := fun z => z.g (TCP_PORT.CONTRACT n) = _) (foldl_keeps (P := fun z : State => z.g (TCP_PORT.CONTRACT n) = _) (fun _ _ h => g_kept (TCP_PORT.kept hn (State.pdRecord_fr ..) rfl rfl) h) _ _ <|
    rfl) (g_kept (TCP_PORT.kept hn (State.pdRecord_fr ..) rfl rfl) <| rfl)

theorem State.pdGot_vconn (s : State) (n : Nat) (hdr : BitVec 16) (l : List Nat) (hn : n < 17) :
    (s.pdGot n hdr l).on (TCP_PORT.VCONN_ON n) = s.on (TCP_PORT.VCONN_ON n) := by
  unfold State.pdGot
  exact on_kept (TCP_PORT.kept hn (State.tcMod_fr ..) rfl rfl) <| (on_p_beside _ _ rfl).trans <|
    ite_keeps (P := fun z => z.on (TCP_PORT.VCONN_ON n) = _) (foldl_keeps (P := fun z : State => z.on (TCP_PORT.VCONN_ON n) = _) (fun _ _ h => on_kept (TCP_PORT.kept hn (State.pdRecord_fr ..) rfl rfl) h) _ _ <|
    rfl) (on_kept (TCP_PORT.kept hn (State.pdRecord_fr ..) rfl rfl) <| rfl)

theorem State.pdGot_isSource (s : State) (n : Nat) (hdr : BitVec 16) (l : List Nat) (hn : n < 17) :
    (s.pdGot n hdr l).isSource n = s.isSource n := by
  rw [State.isSource, State.isSource, State.pdGot_state s n hdr l hn]

theorem State.pdGot_isSink (s : State) (n : Nat) (hdr : BitVec 16) (l : List Nat) (hn : n < 17) :
    (s.pdGot n hdr l).isSink n = s.isSink n := by
  rw [State.isSink, State.isSink, State.pdGot_state s n hdr l hn]

/-- Whether PD runs stands in TCP_CTRL and TOP_MODE. -/
theorem Fr.pdOn {m b : Nat} {t : State} (h : Fr m b s t) (hc : maskFree b TCP_CTRL.PD_EN.addr = true)
    (hm : maskFree b TOP_MODE.MODE.addr = true) (n : Nat) : t.pdOn n = s.pdOn n := by
  have hmode : t.mode = s.mode := h.g hm rfl
  rw [State.pdOn, State.pdOn, hmode, h.on (f := TCP_CTRL.PD_EN) hc rfl]

theorem State.pdGot_pdOn (s : State) (n k : Nat) (hdr : BitVec 16) (l : List Nat) : (s.pdGot n hdr l).pdOn k = s.pdOn k :=
  (State.pdGot_fr ..).pdOn rfl rfl k

theorem State.pdRx_of {hdr : BitVec 16} {l : List Nat} {f : State → State} (h : s.pdOn n = true) :
    s.pdRx n hdr l f = f (s.pdGot n hdr l) := if_pos h

theorem State.pdRx3_of {hdr : BitVec 16} {l : List Nat} {f : State → State} (h : s.pdOn n = true) (hn : n < 17)
    (hr : bitsOf hdr.toNat 6 2 ≠ 1) : s.pdRx3 n hdr l f = f (s.pdGot n hdr l) := by
  rw [State.pdRx3, State.pdRx_of h]
  exact when_of _ (by simp [State.pdGot_rev s hn, hr])

/-! ## A message goes out -/

theorem State.pdSendOne_out (s : State) (n sop : Nat) (m : PdMsg) (c : Nat) (w : List Nat) :
    .pd n sop m w ∈ (s.pdSendOne n sop m c w).outs := List.mem_cons_self

/-- One chunk of a data block goes out with each part of a message that is sent. -/
theorem State.pdChunks_out (n sop : Nat) (m : PdMsg) {c : Nat × List Nat} (l : List (Nat × List Nat)) (s : State) (h : c ∈ l) :
    .pd n sop m c.2 ∈ (l.foldl (fun s c => s.pdSendOne n sop m ((c.1 + 5) / 4) c.2) s).outs := by
  induction l generalizing s with
  | nil => simp at h
  | cons x l ih =>
    rcases List.mem_cons.mp h with rfl | h
    · exact foldl_keeps (P := fun z : State => _ ∈ z.outs) (fun z c hz => (State.pdSendOne_fr ..).outs.subset hz) l _
        (State.pdSendOne_out ..)
    · exact ih _ h

/-- A message that is no extended one goes out whole. -/
theorem State.pdSendSop_out {sop : Nat} {m : PdMsg} {l : List Nat} (h : s.pdOn n = true)
    (hr : m.rev3 = true → s.g (TCP_PORT.PD_REV n) ≠ 1) (hm : m.code.2 = false) : .pd n sop m l ∈ (s.pdSendSop n sop m l).outs := by
  rw [State.pdSendSop, when_of _ ?_, if_neg (by simp [hm])]
  · exact State.pdSendOne_out ..
  · by_cases h3 : m.rev3 = true <;> simp [h, h3, hr]

theorem State.pdSend_out {m : PdMsg} {l : List Nat} (h : s.pdOn n = true)
    (hr : m.rev3 = true → s.g (TCP_PORT.PD_REV n) ≠ 1) (hm : m.code.2 = false) : .pd n 0 m l ∈ (s.pdSend n m l).outs :=
  State.pdSendSop_out h hr hm

/-- Each chunk of an extended message goes out. -/
theorem State.pdSend_chunk {m : PdMsg} {l : List Nat} {c : Nat × List Nat} (h : s.pdOn n = true)
    (hr : s.g (TCP_PORT.PD_REV n) ≠ 1) (hm : m.code.2 = true) (hc : c ∈ pdChunks (m.size l) l) :
    .pd n 0 m c.2 ∈ (s.pdSend n m l).outs := by
  rw [State.pdSend, State.pdSendSop, when_of _ (by simp [h, hr]), if_pos hm]
  exact State.pdChunks_out n 0 m _ s hc

theorem pdChunks_ne_nil (k : Nat) (w : List Nat) : ∃ c, c ∈ pdChunks k w := by
  refine ⟨_, List.mem_map_of_mem (a := 0) (List.mem_range.mpr ?_)⟩
  omega

/-- A message that is sent goes out, whole or in chunks. -/
theorem State.pdSend_some {m : PdMsg} {l : List Nat} (h : s.pdOn n = true) (hr : s.g (TCP_PORT.PD_REV n) ≠ 1) :
    ∃ w, .pd n 0 m w ∈ (s.pdSend n m l).outs := by
  by_cases hm : m.code.2 = true
  · obtain ⟨c, hc⟩ := pdChunks_ne_nil (m.size l) l
    exact ⟨_, State.pdSend_chunk h hr hm hc⟩
  · exact ⟨l, State.pdSend_out h (fun _ => hr) (by simpa using hm)⟩

/-- The partner of a message of PD 3.x speaks PD 3.x. -/
theorem State.pdGot_rev3 (s : State) (hn : n < 17) {hdr : BitVec 16} (l : List Nat) (hr : bitsOf hdr.toNat 6 2 ≠ 1) :
    (s.pdGot n hdr l).g (TCP_PORT.PD_REV n) ≠ 1 := by
  rw [State.pdGot_rev s hn, if_neg hr]
  decide
end

end Sys2Proof.Machine

/-!
# Attach, detach, VCONN and recovery of a Type-C port
-/
namespace Sys2Proof.Machine

set_option Elab.async false

section
variable {s : State} {n : Nat}

/-! ## Events that a domain has to be up for -/

theorem State.onWake_of (h : s.domOn n = true) (c : Nat) (x : WakeEvt) (f : State → State) : s.onWake c [n] x f = f s :=
  if_pos (by simp [h])

/-- An event that finds its domain asleep waits for it. -/
theorem State.onWake_late (h : s.domOn n = false) (c : Nat) (x : WakeEvt) (f : State → State) :
    ([n], x) ∈ (s.onWake c [n] x f).pdc.late := by
  rw [State.onWake, if_neg (by simp [h])]
  exact List.mem_append_right _ (List.mem_singleton_self _)

/-! ## The port's state -/

theorem State.ccState_state (s : State) (st : Nat) (hn : n < 17) (h : st < 16) : (s.ccState n st).g (TCP_PORT.STATE n) = st := by
  unfold State.ccState
  dsimp only
  split
  next h => exact h
  · exact g_kept (TCP_PORT.kept hn (State.record_fr ..) rfl rfl) <| g_p_of_lt rfl h

theorem State.unattached_lt (s : State) (n : Nat) : s.unattached n < 16 := by
  unfold State.unattached
  repeat' split
  all_goals decide

theorem State.toUnattached_state (s : State) (hn : n < 17) : (s.toUnattached n).g (TCP_PORT.STATE n) =
    if s.on TCP_CTRL.ENABLE then s.unattached n else if n = 15 then 8 else 0 := by
  unfold State.toUnattached
  refine (g_p_beside _ _ rfl).trans (State.ccState_state _ _ hn ?_)
  split
  · exact State.unattached_lt s n
  · split <;> decide

/-- Out of LIFELINE nothing is shed for a ramp, and its channel stays in the direction it has. -/
theorem State.tryRamp_sink (hn : n < 17) (h : s.mode ≠ 1) : (s.tryRamp n).on (PPW_STATUS.SINK n) = s.on (PPW_STATUS.SINK n) := by
  rw [State.tryRamp, if_neg (c := s.mode = 1 && _ && _) (by simp [h])]
  exact ite_keeps (P := fun z => z.on (PPW_STATUS.SINK n) = _) (ite_keeps (P := fun z => z.on (PPW_STATUS.SINK n) = _) (on_kept (PPW_STATUS.kept hn (State.wakeBy_fr ..) rfl rfl) <|
    rfl) ((on_p_far _ _ (BUD_PORT.ix _ hn) (PPW_STATUS.ix _ hn)).trans <|
    (on_p_far _ _ (BUD_PORT.ix _ hn) (PPW_STATUS.ix _ hn)).trans <| (on_p_beside _ _ rfl).trans <| (on_p_beside _ _ rfl).trans <|
    on_kept (PPW_STATUS.kept hn (State.chMod_fr ..) rfl rfl) <|
    rfl)) (ite_keeps (P := fun z => z.on (PPW_STATUS.SINK n) = _) ((on_p_beside _ _ rfl)) (rfl))

theorem State.startRamp_attached (s : State) (hn : n < 17) : ((s.startRamp n).ch n).attached = (s.ch n).attached := by
  unfold State.startRamp
  dsimp only
  exact (congrArg Chan.attached (p_ch ..)).trans <| (congrArg Chan.attached (p_ch ..)).trans <|
    (congrArg Chan.attached (p_ch ..)).trans <| (congrArg Chan.attached (p_ch ..)).trans <| (get_chMod Chan.attached hn)

theorem State.tryRamp_attached (hn : n < 17) (h : s.mode ≠ 1) : ((s.tryRamp n).ch n).attached = (s.ch n).attached := by
  rw [State.tryRamp, if_neg (c := s.mode = 1 && _ && _) (by simp [h])]
  exact ite_keeps (P := fun z => (z.ch n).attached = _) (ite_keeps (P := fun z => (z.ch n).attached = _) ((congrArg Chan.attached ((State.wakeBy_fr ..).ch rfl n))) ((State.startRamp_attached _ hn))) (ite_keeps (P := fun z => (z.ch n).attached = _) ((congrArg Chan.attached (p_ch ..))) (rfl))

theorem State.pdGot_mayVconn (s : State) (hn : n < 17) (hdr : BitVec 16) (l : List Nat) : (s.pdGot n hdr l).mayVconn n = s.mayVconn n := by
  have hs : (s.pdGot n hdr l).on (PPW_STATUS.SINK n) = s.on (PPW_STATUS.SINK n) := 
      on_kept (PPW_STATUS.kept hn (State.pdGot_fr ..) rfl rfl) <|
    rfl
  unfold State.mayVconn State.stallFlag State.stallE State.member
  rw [hs, (State.pdGot_fr ..).plan rfl, (State.pdGot_fr ..).fab rfl]

theorem State.attachNow_event (s : State) (hn : n < 17) : (s.attachNow n).on (TCP_EVT.ATTACH n) = true := by
  unfold State.attachNow
  exact on_kept (TCP_EVT.kept hn (State.tryRamp_fr ..) rfl rfl) <| on_kept (TCP_EVT.kept hn (State.chMod_fr ..) rfl rfl) <|
    on_kept (TCP_EVT.kept hn (State.restartHistory_fr ..) rfl rfl) <| on_hw _ rfl rfl

theorem State.hardReset_rx (s : State) (hn : n < 17) : (s.hardReset n false).on (TCP_EVT.HR_RX n) = true := by
  unfold State.hardReset
  simp only [Bool.false_eq_true, if_false]
  exact ite_keeps (P := fun z => z.on (TCP_EVT.HR_RX n) = _) (on_kept (TCP_EVT.kept hn (State.raise_fr ..) rfl rfl) <|
    on_kept (TCP_EVT.kept hn (State.errorRecovery_fr ..) rfl rfl) <| (on_p_far _ _ (TCP_PORT.ix _ hn) (TCP_EVT.ix _ hn)).trans <|
    on_hw _ rfl rfl) (on_kept (TCP_EVT.kept hn (State.tcMod_fr ..) rfl rfl) <|
    on_when (fun _ h => on_kept (TCP_EVT.kept hn (State.dpExit_fr ..) rfl rfl) h) <|
    on_kept (TCP_EVT.kept hn (State.vconnOff_fr ..) rfl rfl) <| on_kept (TCP_EVT.kept hn (State.endContract_fr ..) rfl rfl) <|
    (on_p_far _ _ (TCP_PORT.ix _ hn) (TCP_EVT.ix _ hn)).trans <| on_hw _ rfl rfl)

end

theorem attachDetect_debounces :
    ∀ (n : Channel) (cc2 : Bool) (ra : Bool) (acc : Bool) (s : State), s.on TCP_CTRL.ENABLE = true → s.hasCC n = true →
    acc = false → (s.g (TCP_PORT.STATE n) = 1 ∨ s.g (TCP_PORT.STATE n) = 3) → s.domOn dPPA = true → Does (.attachDetect n cc2 ra acc) s fun t =>
    t.g (TCP_PORT.STATE n) = 3 ∧ t.on (TCP_PORT.ORIENT n) = cc2 ∧ t.on (TCP_CABLE.RA n) = ra := by
  intro n cc2 ra acc s he hc ha hs hd
  have h : (s.attachDetect n cc2 ra acc) = _ := (if_neg (by simp [he, hc])).trans ((if_neg (by simp [ha])).trans (if_pos hs))
  refine does_of rfl ((State.onWake_of hd ..).trans h) ⟨?_, ?_, ?_⟩
  · exact State.ccState_state _ _ n.isLt (by decide)
  · unfold State.ccState
    exact ite_keeps (P := fun z => z.on (TCP_PORT.ORIENT ↑n) = _) (on_kept (TCP_PORT.kept n.isLt (State.tcMod_fr ..) rfl rfl) <|
      (on_p_far _ _ (TCP_CABLE.ix _ n.isLt) (TCP_PORT.ix _ n.isLt)).trans <|
      on_p_b2n _ _ rfl rfl) (on_kept (TCP_PORT.kept n.isLt (State.record_fr ..) rfl rfl) <| (on_p_beside _ _ rfl).trans <|
      on_kept (TCP_PORT.kept n.isLt (State.tcMod_fr ..) rfl rfl) <|
      (on_p_far _ _ (TCP_CABLE.ix _ n.isLt) (TCP_PORT.ix _ n.isLt)).trans <| on_p_b2n _ _ rfl rfl)
  · exact on_kept (TCP_CABLE.kept n.isLt (State.ccState_fr ..) rfl rfl) <|
      on_kept (TCP_CABLE.kept n.isLt (State.tcMod_fr ..) rfl rfl) <| on_p_b2n _ _ rfl rfl

theorem attachDetect_accessory :
    ∀ (n : Channel) (cc2 : Bool) (ra : Bool) (acc : Bool) (s : State), s.domOn dPPA = true → s.on TCP_CTRL.ENABLE = true → s.hasCC n = true →
    acc = true → Does (.attachDetect n cc2 ra acc) s fun t => t.on (TCP_EVT.ACC_SEEN n) = true := by
  intro n cc2 ra acc s hd he hc ha
  have h : (s.attachDetect n cc2 ra acc) = _ := (if_neg (by simp [he, hc])).trans (if_pos ha)
  refine does_of rfl ((State.onWake_of hd ..).trans h) ?_
  exact on_when (fun _ h => on_kept (TCP_EVT.kept n.isLt (State.toUnattached_fr ..) rfl rfl) h) <| on_hw _ rfl rfl

theorem attachDetect_waits :
    ∀ (n : Channel) (cc2 : Bool) (ra : Bool) (acc : Bool) (s : State), s.domOn dPPA = false →
    Does (.attachDetect n cc2 ra acc) s fun t => ([dPPA], .attach n cc2 ra acc) ∈ t.pdc.late := by
  exact fun n cc2 ra acc s hd => does_of rfl rfl (State.onWake_late hd ..)

theorem ccAttachDebounceEnd_debounced :
    ∀ (n : Channel) (s : State), (s.typ n ≠ 3 ∨ (s.tc n).tried = true) → s.g (TCP_PORT.STATE n) = 3 → (s.ch n).vbusLow = false →
    Does (.ccAttachDebounceEnd n) s fun t => (t.tc n).debounced = true := by
  intro n s ht hs hv
  refine does_of rfl ((when_of _ (by simp [hs])).trans ((if_neg ?_).trans (if_neg (by simp [hv])))) ?_
  · simpa [imp_iff_not_or] using ht
  · exact get_tcMod Tcp.debounced n.isLt

theorem ccAttachDebounceEnd_attaches :
    ∀ (n : Channel) (s : State), (s.typ n ≠ 3 ∨ (s.tc n).tried = true) → s.g (TCP_PORT.STATE n) = 3 → (s.ch n).vbusLow = true →
    Does (.ccAttachDebounceEnd n) s fun t => t.on (TCP_EVT.ATTACH n) = true := by
  intro n s ht hs hv
  refine does_of rfl ((when_of _ (by simp [hs])).trans ((if_neg ?_).trans (if_pos hv))) (State.attachNow_event s n.isLt)
  simpa [imp_iff_not_or] using ht

theorem ccAttachDebounceEnd_tries :
    ∀ (n : Channel) (s : State), s.typ n = 3 → (s.tc n).tried = false → s.g (TCP_PORT.STATE n) = 3 →
    Does (.ccAttachDebounceEnd n) s fun t => t.g (TCP_PORT.STATE n) = 5 ∧ t.g (TCP_PORT.RP n) = 0 := by
  intro n s ht hr hs
  refine does_of rfl ((when_of _ (by simp [hs])).trans (if_pos (by simp [ht, hr]))) ⟨?_, ?_⟩
  · exact State.ccState_state _ _ n.isLt (by decide)
  · unfold State.ccState
    exact ite_keeps (P := fun z => z.g (TCP_PORT.RP ↑n) = _) (g_p_lit rfl rfl) (g_kept (TCP_PORT.kept n.isLt (State.record_fr ..) rfl rfl) <|
      (g_p_beside _ _ rfl).trans <| g_p_lit rfl rfl)

theorem vbusDischarged_attaches :
    ∀ (n : Channel) (s : State), (s.vbusFell n).g (TCP_PORT.STATE n) = 3 → ((s.vbusFell n).tc n).debounced = true →
    ((s.vbusFell n).ch n).vbusLow = true → Does (.vbusDischarged n) s fun t => t.on (TCP_EVT.ATTACH n) = true := by
  intro n s hs hd hv
  exact does_of rfl (when_of _ (by simp [hs, hd, hv])) (State.attachNow_event _ n.isLt)

theorem rampComplete_completes :
    ∀ (n : Channel) (gateOk : Bool) (s : State), (s.ch n).gate = true → (s.ch n).rampDone = false →
    Does (.rampComplete n gateOk) s fun t => (t.ch n).rampDone = true := by
  intro n gateOk s hg hr
  refine does_of rfl (if_neg (by simp [hg, hr])) ?_
  exact ite_keeps (P := fun z => (z.ch ↑n).rampDone = _) ((congrArg Chan.rampDone (p_ch ..)).trans <|
    (get_chMod Chan.rampDone n.isLt).trans <|
    when_keeps (P := fun z => (z.ch ↑n).11 = _) (fun _ h => (congrArg Chan.rampDone (p_ch ..)).trans h) <|
    when_keeps (P := fun z => (z.ch ↑n).11 = _) (fun _ h => (congrArg Chan.rampDone (p_ch ..)).trans h) <|
    get_chMod Chan.rampDone n.isLt) (when_keeps (P := fun z => (z.ch ↑n).rampDone = _) (fun _ h => (congrArg Chan.rampDone ((State.startPd_fr ..).ch rfl ↑n)).trans <|
    (congrArg Chan.rampDone ((State.setLimit_fr ..).ch rfl ↑n)).trans <| (congrArg Chan.rampDone (p_ch ..)).trans <|
    (congrArg Chan.rampDone (p_ch ..)).trans h) <|
    when_keeps (P := fun z => (z.ch ↑n).rampDone = _) (fun _ h => (congrArg Chan.rampDone ((State.hsState_fr ..).ch rfl ↑n)).trans h) <|
    when_keeps (P := fun z => (z.ch ↑n).rampDone = _) (fun _ h => (congrArg Chan.rampDone ((State.ssLink_fr ..).ch rfl ↑n)).trans h) <|
    when_keeps (P := fun z => (z.ch ↑n).rampDone = _) (fun _ h => (congrArg Chan.rampDone ((State.mirLocal_fr ..).ch rfl ↑n)).trans h) <|
    when_keeps (P := fun z => (z.ch ↑n).rampDone = _) (fun _ h => (congrArg Chan.rampDone (p_ch ..)).trans h) <|
    when_keeps (P := fun z => (z.ch ↑n).rampDone = _) (fun _ h => (congrArg Chan.rampDone (p_ch ..)).trans h) <|
    get_chMod Chan.rampDone n.isLt)

theorem rampComplete_sinkGood :
    ∀ (n : Channel) (gateOk : Bool) (s : State), (s.ch n).gate = true → (s.ch n).rampDone = false →
    s.on (PPW_STATUS.SINK n) = true → Does (.rampComplete n gateOk) s fun t => t.on (PPW_STATUS.PG n) = true := by
  intro n gateOk s hg hr hs
  refine does_of rfl (if_neg (by simp [hg, hr])) ?_
  dsimp only
  rw [if_pos]
  · unfold State.assertPg
    exact on_p_one _ rfl rfl
  · exact on_when (fun _ h => (on_p_beside _ _ rfl).trans h) <| on_when (fun _ h => (on_p_beside _ _ rfl).trans h) <|
      on_kept (PPW_STATUS.kept n.isLt (State.chMod_fr ..) rfl rfl) <| hs

theorem detachDebounceEnd_detaches :
    ∀ (n : Channel) (s : State), s.isSource n = true → Does (.detachDebounceEnd n) s fun t =>
    t.on (TCP_EVT.DETACH n) = true ∧ ((s.tc n).trans ≠ .none → t.on (TCP_EVT.FAST_DETACH n) = true) := by
  intro n s h
  have hs : s.g (TCP_PORT.STATE n) = 6 := of_decide_eq_true h
  have hd : (s.detach n).on (TCP_EVT.DETACH n) = true := by
    unfold State.detach
    exact on_kept (TCP_EVT.kept n.isLt (State.partnerGone_fr ..) rfl rfl) <|
      on_kept (TCP_EVT.kept n.isLt (State.toUnattached_fr ..) rfl rfl) <| on_hw _ rfl rfl
  refine does_of rfl ((if_neg (by rw [hs]; decide)).trans (when_of _ h)) ⟨?_, fun ht => ?_⟩
  · exact on_when (fun _ h => (on_hw_beside _ rfl).trans h) <| hd
  · rw [when_of _ (decide_eq_true ht)]
    exact on_hw _ rfl rfl

theorem sinkDetach_detaches :
    ∀ (n : Channel) (s : State), s.isSink n = true → Does (.sinkDetach n) s fun t => t.on (TCP_EVT.DETACH n) = true := by
  intro n s h
  refine does_of rfl (when_of _ h) ?_
  unfold State.detach
  exact on_kept (TCP_EVT.kept n.isLt (State.partnerGone_fr ..) rfl rfl) <|
    on_kept (TCP_EVT.kept n.isLt (State.toUnattached_fr ..) rfl rfl) <| on_hw _ rfl rfl

theorem rdOpenDuringSlew_freezes :
    ∀ (n : Channel) (isOpen : Bool) (code : BitVec 14) (s : State), s.isSource n = true → s.on (TCP_VSET.SLEWING n) = true →
    Does (.rdOpenDuringSlew n isOpen code) s fun t => t.on (TCP_VSET.FROZEN n) = isOpen := by
  intro n isOpen code s h hs
  refine does_of rfl (when_of _ (by simp [h, hs])) ?_
  exact on_p_b2n _ _ rfl rfl

theorem rdOpenDuringSlew_code :
    ∀ (n : Channel) (isOpen : Bool) (code : BitVec 14) (s : State), s.isSource n = true → s.on (TCP_VSET.SLEWING n) = true →
    isOpen = true → s.on (TCP_VSET.FROZEN n) = false →
    min (s.g (TCP_VSET.CODE n)) (s.g (TCP_VSET.TARGET n)) ≤ code.toNat →
    code.toNat ≤ max (s.g (TCP_VSET.CODE n)) (s.g (TCP_VSET.TARGET n)) →
    Does (.rdOpenDuringSlew n isOpen code) s fun t => t.g (TCP_VSET.CODE n) = code.toNat := by
  intro n isOpen code s h hs ho hf hlo hhi
  refine does_of rfl (when_of _ (by simp [h, hs])) ?_
  dsimp only
  rw [when_of _ (by simp [ho, hf])]
  refine (g_p_beside _ _ rfl).trans ((g_p _ _ rfl).trans ?_)
  have hc : code.toNat < 2 ^ 14 := code.isLt
  rw [Nat.min_eq_right hhi, Nat.max_eq_right hlo]
  exact Nat.mod_eq_of_lt hc

theorem drpToggle_toSink :
    ∀ (n : Channel) (s : State), s.typ n = 3 → s.on TCP_CTRL.ENABLE = true → s.mode = 3 → s.g (TCP_PORT.STATE n) = 1 →
    Does (.drpToggle n) s fun t => t.g (TCP_PORT.STATE n) = 2 ∧ t.g (TCP_PORT.RP n) = 0 := by
  intro n s ht he hm hs
  refine does_of rfl ((if_neg (by simp [ht, he, hm])).trans (if_pos hs)) ⟨?_, ?_⟩
  · exact State.ccState_state _ _ n.isLt (by decide)
  · unfold State.ccState
    exact ite_keeps (P := fun z => z.g (TCP_PORT.RP ↑n) = _) (g_p_lit rfl rfl) (g_kept (TCP_PORT.kept n.isLt (State.record_fr ..) rfl rfl) <|
      (g_p_beside _ _ rfl).trans <| g_p_lit rfl rfl)

theorem drpToggle_toSource :
    ∀ (n : Channel) (s : State), s.typ n = 3 → s.on TCP_CTRL.ENABLE = true → s.mode = 3 → s.g (TCP_PORT.STATE n) = 2 →
    Does (.drpToggle n) s fun t => t.g (TCP_PORT.STATE n) = 1 := by
  intro n s ht he hm hs
  refine does_of rfl ((if_neg (by simp [ht, he, hm])).trans ((if_neg (by rw [hs]; decide)).trans (if_pos hs))) ?_
  exact (g_p_beside _ _ rfl).trans (State.ccState_state _ _ n.isLt (by decide))

theorem trySnkTimeout_returns :
    ∀ (n : Channel) (s : State), s.g (TCP_PORT.STATE n) = 5 → Does (.trySnkTimeout n) s fun t => t.g (TCP_PORT.STATE n) = 3 ∧
    (t.tc n).tried = true := by
  intro n s hs
  refine does_of rfl (when_of _ (by simp [hs])) ⟨State.ccState_state _ _ n.isLt (by decide), ?_⟩
  exact (congrArg Tcp.tried ((State.ccState_fr ..).tc rfl ↑n)).trans <| get_tcMod Tcp.tried n.isLt

theorem sinkAttach_attaches :
    ∀ (n : Channel) (cc2 : Bool) (rp : Fin 4) (s : State), n.val ≠ 15 → s.typ n = 3 → s.mode = 3 →
    s.on TCP_CTRL.ENABLE = true → s.g (TCP_PORT.STATE n) ∈ [1, 2, 4, 5] → s.domOn dPPA = true →
    Does (.sinkAttach n cc2 rp) s fun t => t.g (TCP_PORT.STATE n) = 7 ∧ t.on (PPW_STATUS.SINK n) = true ∧
    t.on (TCP_EVT.ATTACH n) = true ∧ (t.ch n).attached = true ∧ (t.tc n).srcRp = rp := by
  intro n cc2 rp s hn ht hm he hs hd
  have h : s.sinkAttach n cc2 rp = _ := if_pos ⟨by rw [if_neg hn]; exact ⟨ht, hm⟩, he, by simpa using hs⟩
  refine does_of rfl ((State.onWake_of hd ..).trans h) ?_
  generalize hu : State.p _ (TCP_PORT.CONTRACT n) 1 = u
  have hmu : u.mode ≠ 1 := by
    have hk : u.mode = s.mode := by
      rw [← hu]
      exact (g_p_far _ _ (TCP_PORT.ix _ n.isLt) TOP_MODE.ix).trans <| (State.chMod_fr ..).g rfl <| (State.tcMod_fr ..).g rfl <|
        (State.setMux_fr ..).g rfl <| (State.restartHistory_fr ..).g rfl <| (g_hw_far _ (TCP_EVT.ix _ n.isLt) TOP_MODE.ix).trans <|
        (State.ccState_fr ..).g rfl <| (g_p_far _ _ (PPW_STATUS.ix _ n.isLt) TOP_MODE.ix).trans <|
        (g_p_far _ _ (TCP_PORT.ix _ n.isLt) TOP_MODE.ix).trans <| (g_p_far _ _ (TCP_PORT.ix _ n.isLt) TOP_MODE.ix)
    rw [hk, hm]
    decide
  refine ⟨?_, ?_, ?_, ?_, ?_⟩
  · refine g_kept (TCP_PORT.kept n.isLt (State.tryRamp_fr_of_mode _ hmu) rfl rfl) ?_
    rw [← hu]
    refine (g_p_beside _ _ rfl).trans ?_
    refine g_kept (TCP_PORT.kept n.isLt (State.chMod_fr ..) rfl rfl) <| g_kept (TCP_PORT.kept n.isLt (State.tcMod_fr ..) rfl rfl) <|
      g_kept (TCP_PORT.kept n.isLt (State.setMux_fr ..) rfl rfl) <|
      g_kept (TCP_PORT.kept n.isLt (State.restartHistory_fr ..) rfl rfl) <|
      (g_hw_far _ (TCP_EVT.ix _ n.isLt) (TCP_PORT.ix _ n.isLt)).trans <| State.ccState_state _ _ n.isLt (by decide)
  · rw [State.tryRamp_sink n.isLt hmu, ← hu]
    exact (on_p_far _ _ (TCP_PORT.ix _ n.isLt) (PPW_STATUS.ix _ n.isLt)).trans <|
      on_kept (PPW_STATUS.kept n.isLt (State.chMod_fr ..) rfl rfl) <|
      on_kept (PPW_STATUS.kept n.isLt (State.tcMod_fr ..) rfl rfl) <|
      on_kept (PPW_STATUS.kept n.isLt (State.setMux_fr ..) rfl rfl) <|
      on_kept (PPW_STATUS.kept n.isLt (State.restartHistory_fr ..) rfl rfl) <|
      (on_hw_far _ (TCP_EVT.ix _ n.isLt) (PPW_STATUS.ix _ n.isLt)).trans <|
      on_kept (PPW_STATUS.kept n.isLt (State.ccState_fr ..) rfl rfl) <| on_p_one _ rfl rfl
  · refine on_kept (TCP_EVT.kept n.isLt (State.tryRamp_fr_of_mode _ hmu) rfl rfl) ?_
    rw [← hu]
    exact (on_p_far _ _ (TCP_PORT.ix _ n.isLt) (TCP_EVT.ix _ n.isLt)).trans <|
      on_kept (TCP_EVT.kept n.isLt (State.chMod_fr ..) rfl rfl) <| on_kept (TCP_EVT.kept n.isLt (State.tcMod_fr ..) rfl rfl) <|
      on_kept (TCP_EVT.kept n.isLt (State.setMux_fr ..) rfl rfl) <|
      on_kept (TCP_EVT.kept n.isLt (State.restartHistory_fr ..) rfl rfl) <| on_hw _ rfl rfl
  · rw [State.tryRamp_attached n.isLt hmu, ← hu]
    exact (congrArg Chan.attached (p_ch ..)).trans <| get_chMod Chan.attached n.isLt
  · rw [Fr.tc (State.tryRamp_fr_of_mode _ hmu) rfl, ← hu]
    exact (congrArg Tcp.srcRp (p_tc ..)).trans <| (congrArg Tcp.srcRp ((State.chMod_fr ..).tc rfl ↑n)).trans <|
      get_tcMod Tcp.srcRp n.isLt

theorem sinkAttach_waits :
    ∀ (n : Channel) (cc2 : Bool) (rp : Fin 4) (s : State), s.domOn dPPA = false → Does (.sinkAttach n cc2 rp) s fun t =>
    ([dPPA], .sink n cc2 rp) ∈ t.pdc.late := by
  exact fun n cc2 rp s hd => does_of rfl rfl (State.onWake_late hd ..)

theorem errorRecoveryEnd_returns :
    ∀ (n : Channel) (s : State), s.g (TCP_PORT.STATE n) = 9 → Does (.errorRecoveryEnd n) s fun t =>
    t.g (TCP_PORT.STATE n) = (if s.on TCP_CTRL.ENABLE then s.unattached n else if n.val = 15 then 8 else 0) := by
  intro n s hs
  exact does_of rfl (when_of _ (by simp [hs])) (State.toUnattached_state s n.isLt)

theorem hardResetReceived_noted :
    ∀ (n : Channel) (s : State), s.pdOn n = true → (s.isSource n = true ∨ s.isSink n = true) → Does (.hardResetReceived n) s fun t =>
    t.on (TCP_EVT.HR_RX n) = true := by
  intro n s hp h
  by_cases hs : s.isSource n = true
  · exact does_of rfl ((if_neg (by simp [hp])).trans (if_pos hs)) (State.hardReset_rx s n.isLt)
  · refine does_of rfl ((if_neg (by simp [hp])).trans ((if_neg hs).trans (if_pos (h.resolve_left hs)))) ?_
    exact on_kept (TCP_EVT.kept n.isLt (State.endContract_fr ..) rfl rfl) <|
      (on_p_far _ _ (TCP_PORT.ix _ n.isLt) (TCP_EVT.ix _ n.isLt)).trans <| on_hw _ rfl rfl

theorem psHardResetTimer_discharges :
    ∀ (n : Channel) (s : State), (s.tc n).recovering = true → Does (.psHardResetTimer n) s fun t =>
    (t.ch n).gate = false := by
  intro n s h
  refine does_of rfl (when_of _ h) ?_
  unfold State.switchOff
  refine when_keeps (P := fun z => (z.ch ↑n).gate = _) (fun _ h => (congrArg Chan.gate (p_ch ..)).trans h) <| ?_
  unfold State.gateOff
  exact (congrArg Chan.gate (p_ch ..)).trans <| (congrArg Chan.gate (p_ch ..)).trans <|
    when_keeps (P := fun z => (z.ch ↑n).gate = _) (fun _ h => (congrArg Chan.gate (p_ch ..)).trans h) <|
    (congrArg Chan.gate (p_ch ..)).trans <| (congrArg Chan.gate (p_ch ..)).trans <| (congrArg Chan.gate (p_ch ..)).trans <|
    get_chMod Chan.gate n.isLt

theorem srcRecoverEnd_ramps :
    ∀ (n : Channel) (s : State), (s.tc n).recovering = true → s.isSource n = true → (s.tc n).vconnBack = false →
    Does (.srcRecoverEnd n) s fun t =>
    t = (s.tcMod n fun x => { x with recovering := false, vconnBack := false }).tryRamp n := by
  intro n s h hs hv
  refine does_of rfl (when_of _ (by simp [h, hs])) ?_
  rw [when_of_not _ hv]

theorem vconnSwap_gives :
    ∀ (n : Channel) (hdr : BitVec 16) (s : State), s.pdOn n = true → s.mayVconn n = true → (s.tc n).swap ≠ 3 →
    s.on (TCP_PORT.VCONN_ON n) = true → Does (.vconnSwap n hdr) s fun t => (t.tc n).swap = 1 := by
  intro n hdr s hp hv hsw ho
  refine does_of rfl ((State.pdRx_of hp).trans ((if_neg ?_).trans ((if_neg ?_).trans (if_pos ?_)))) ?_
  · rw [State.pdGot_mayVconn _ n.isLt, hv]
    decide
  · simp [State.pdGot_getTc Tcp.swap, hsw]
  · rw [State.pdGot_vconn _ _ _ _ n.isLt, ho]
  · exact get_tcMod Tcp.swap n.isLt

theorem vconnSwap_takes :
    ∀ (n : Channel) (hdr : BitVec 16) (s : State), s.pdOn n = true → s.mayVconn n = true → (s.tc n).swap ≠ 3 →
    s.on (TCP_PORT.VCONN_ON n) = false → Does (.vconnSwap n hdr) s fun t => t.on (TCP_PORT.VCONN_ON n) = true ∧
    t.on (TCP_EVT.VCONN_SWAP n) = true := by
  intro n hdr s hp hv hsw ho
  refine does_of rfl ((State.pdRx_of hp).trans ((if_neg ?_).trans ((if_neg ?_).trans (if_neg ?_)))) ⟨?_, ?_⟩
  · rw [State.pdGot_mayVconn _ n.isLt, hv]
    decide
  · simp [State.pdGot_getTc Tcp.swap, hsw]
  · rw [State.pdGot_vconn _ _ _ _ n.isLt, ho]
    decide
  · exact (on_hw_far _ (TCP_EVT.ix _ n.isLt) (TCP_PORT.ix _ n.isLt)).trans <|
      on_kept (TCP_PORT.kept n.isLt (State.tcMod_fr ..) rfl rfl) <| on_kept (TCP_PORT.kept n.isLt (State.pdSend_fr ..) rfl rfl) <|
      on_p_one _ rfl rfl
  · exact on_hw _ rfl rfl

theorem psRdyReceived_opens :
    ∀ (n : Channel) (hdr : BitVec 16) (s : State), s.pdOn n = true → (s.tc n).swap = 1 → Does (.psRdyReceived n hdr) s fun t =>
    t.on (TCP_PORT.VCONN_ON n) = false ∧ (t.tc n).swap = 0 ∧ t.on (TCP_EVT.VCONN_SWAP n) = true := by
  intro n hdr s hp hsw
  refine does_of rfl ((State.pdRx_of hp).trans (when_of _ ?_)) ⟨?_, ?_, ?_⟩
  · simp [State.pdGot_getTc Tcp.swap, hsw]
  · refine (on_hw_far _ (TCP_EVT.ix _ n.isLt) (TCP_PORT.ix _ n.isLt)).trans <|
      on_kept (TCP_PORT.kept n.isLt (State.tcMod_fr ..) rfl rfl) <| ?_
    unfold State.vconnOff
    exact on_p_zero _ rfl
  · exact (congrArg Tcp.swap (hw_tc ..)).trans <| get_tcMod Tcp.swap n.isLt
  · exact on_hw _ rfl rfl

theorem vconnOvercurrent_opens :
    ∀ (n : Channel) (s : State), s.on (TCP_PORT.VCONN_ON n) = true → Does (.vconnOvercurrent n) s fun t =>
    t.on (TCP_EVT.VCONN_OC n) = true ∧ t.sticky 65 = true := by
  intro n s h
  refine does_of rfl (when_of _ h) ⟨?_, State.raise_sticky _ _ (by decide)⟩
  exact on_kept (TCP_EVT.kept n.isLt (State.raise_fr ..) rfl rfl) <| on_hw _ rfl rfl

theorem ccOvervoltage_recovers :
    ∀ (n : Channel) (s : State), s.hasCC n = true → Does (.ccOvervoltage n) s fun t => t.on (TCP_EVT.CC_OV n) = true ∧
    t.sticky 64 = true := by
  intro n s h
  refine does_of rfl (when_of _ h) ⟨?_, State.raise_sticky _ _ (by decide)⟩
  exact on_kept (TCP_EVT.kept n.isLt (State.raise_fr ..) rfl rfl) <| on_hw _ rfl rfl

theorem vsetTrim_rises :
    ∀ (n : Channel) (mv : Nat) (limiting : Bool) (s : State), (s.tc n).ppsCut = false → s.on (TCP_VSET.SLEWING n) = false →
    (s.ch n).rampDone = true → s.on (PPW_STATUS.SINK n) = false → limiting = false → s.on TCP_CTRL.TRIM_EN = true →
    mv + 20 < 5 * s.g (TCP_VSET.TARGET n) → Does (.vsetTrim n mv limiting) s fun t =>
    t.g (TCP_VSET.CODE n) = min (s.g (TCP_VSET.CODE n) + min 4 ((5 * s.g (TCP_VSET.TARGET n) - mv) / 5)) (s.g (TCP_VSET.TARGET n) + 60) % 2 ^ (TCP_VSET.CODE n).width := by
  intro n mv limiting s hc hs hr hk hl ht hm
  refine does_of rfl ((if_neg (by simp [hs, hr, hk])).trans ((if_neg (by simp [hl])).trans ((if_neg (by simp [hc])).trans
    ((if_neg (by simp [ht, hl])).trans (if_pos hm))))) ?_
  exact g_p _ _ rfl

/-- Settles O21: command by command. -/
theorem typeCCommandsComplete : Obligations.TypeCCommandsComplete := by
  unfold Obligations.TypeCCommandsComplete
  exact ⟨attachDetect_debounces, attachDetect_accessory, attachDetect_waits, ccAttachDebounceEnd_debounced,
    ccAttachDebounceEnd_attaches, ccAttachDebounceEnd_tries, vbusDischarged_attaches, rampComplete_completes,
    rampComplete_sinkGood, detachDebounceEnd_detaches, sinkDetach_detaches, rdOpenDuringSlew_freezes,
    rdOpenDuringSlew_code, drpToggle_toSink, drpToggle_toSource, trySnkTimeout_returns, sinkAttach_attaches,
    sinkAttach_waits, errorRecoveryEnd_returns, hardResetReceived_noted, psHardResetTimer_discharges,
    srcRecoverEnd_ramps, vconnSwap_gives, vconnSwap_takes, psRdyReceived_opens, vconnOvercurrent_opens,
    ccOvervoltage_recovers, vsetTrim_rises⟩

end Sys2Proof.Machine

/-!
# A source's PD messages, transitions and timers
-/
namespace Sys2Proof.Machine

set_option Elab.async false

section
variable {s : State} {n k src : Nat}

/-! ## A sticky bit stays set while other sources arise -/

theorem stickyFld_addr_ne (hk : k < 128) (hsrc : src < 128) (h : src / 32 ≠ k / 32) : (stickyFld k).addr ≠ (stickyFld src).addr := by
  simp only [stickyFld, FLT_STICKY.addr]
  rw [if_pos (by omega), if_pos (by omega)]
  omega

theorem State.setSticky_keeps (hk : k < 128) (hsrc : src < 128) (h : s.sticky k = true) : (s.setSticky src true).sticky k = true := by
  by_cases hb : src % 32 = k % 32
  · by_cases ha : src / 32 = k / 32
    · obtain rfl : src = k := by omega
      exact s.setSticky_sticky src true
    · rw [State.sticky_eq] at h ⊢
      exact on_kept (word_setWord_ne _ _ (stickyFld_addr_ne hk hsrc ha)) h
  · rw [State.sticky_eq] at h ⊢
    refine (on_hw_beside _ ?_).trans h
    simp only [Fld.beside, Fld.fits, stickyFld, Bool.and_eq_true, Bool.or_eq_true, Nat.ble_eq]
    omega

theorem State.raise_keeps_sticky (q : Nat) (hk : k < 128) (hsrc : src < 128) (h : s.sticky k = true) :
    (s.raise src q).sticky k = true := by
  have hq := FLT_QUAL.ix src hsrc
  refine ite_keeps (P := fun u => u.sticky k = true) ?_ (ite_keeps (P := fun u => u.sticky k = true)
    ((State.reactPort_fr ..).sticky hk rfl rfl ?_) ((State.reactChip_fr ..).sticky hk rfl rfl ?_))
  all_goals
    refine when_keeps (P := fun u => u.sticky k = true) (fun u h => (State.judge_fr ..).sticky hk rfl rfl h) ?_
    refine (State.record_fr ..).sticky hk rfl rfl <| State.sticky_p _ hk hq <| State.sticky_p _ hk hq ?_
    exact when_keeps (P := fun u => u.sticky k = true) (fun u h => State.sticky_p _ hk hq h) (State.setSticky_keeps hk hsrc h)

theorem State.tryRamp_keeps_sticky (hk : k < 128) (hn : n < 17) (h : s.sticky k = true) : (s.tryRamp n).sticky k = true := by
  unfold State.tryRamp State.lifeShed
  refine ite_keeps (P := fun u => u.sticky k = true) (ite_keeps (P := fun u => u.sticky k = true)
    ((State.wakeBy_fr ..).sticky hk rfl rfl h) (ite_keeps (P := fun u => u.sticky k = true) ?_
      ((State.startRamp_fr ..).sticky hk rfl rfl h)))
    (ite_keeps (P := fun u => u.sticky k = true) (State.sticky_p _ hk (PPW_STATUS.ix _ hn) h) h)
  refine State.raise_keeps_sticky _ hk (by decide) <| (State.ocReport_fr ..).sticky hk rfl rfl <|
    State.sticky_p _ hk (BUD_PORT.ix _ hn) <| 
      (State.tripChannel_fr (m := 17213424320) (b := 4863877449037329982667705628309154949537885176463360) rfl rfl (PPW_EVT.reg rfl)
        (Fr.refl _ _ _)).sticky hk rfl rfl <| State.sticky_p _ hk BUD_EVT.ix h

theorem each_keeps_of_mem {P : State → Prop} {f : Nat → State → State} {l : List Nat} (hf : ∀ n ∈ l, ∀ t, P t → P (f n t)) (h : P s) :
    P (s.each l f) := by
  induction l generalizing s with
  | nil => exact h
  | cons n l ih => exact ih (fun k hk => hf k (List.mem_cons_of_mem _ hk)) (hf n List.mem_cons_self _ h)

theorem State.upstreamSafe_keeps_sticky (hk : k < 128) (hn : n < 17) (h : s.sticky k = true) : (s.when (n ≥ 15) fun s =>
    let s := ((s.muxSafe n).p (TCP_DP.STATE (n - 15)) 0).p (TCP_DP.BILLBOARD (n - 15)) 0 |>.p (TKR_FUNC.BILLBOARD (n - 15)) 0
    s.withDp (vset s.dp (n - 15) {})).sticky k = true := by
  refine when_keeps (P := fun z => z.sticky k = true) (fun u hu => ?_) h
  exact (Fr.withDp (m := 134217728) (b := 0) rfl (Fr.refl _ _ _)).sticky hk rfl rfl <| State.sticky_p _ hk (TKR_FUNC.ix (n - 15) (by omega)) <| State.sticky_p _ hk (TCP_DP.ix (n - 15) (by omega)) <|
    State.sticky_p _ hk (TCP_DP.ix (n - 15) (by omega)) <| (State.muxSafe_fr ..).sticky hk rfl rfl hu

theorem State.partnerGone_keeps_sticky (hk : k < 128) (hn : n < 17) (h : s.sticky k = true) : (s.partnerGone n).sticky k = true := by
  unfold State.partnerGone
  have hd : ∀ u : State, u.sticky k = true → (u.dataOff n).sticky k = true := fun u h => (State.dataOff_fr ..).sticky hk rfl rfl h
  refine ite_keeps (P := fun z => z.sticky k = true) ?_
    ((State.mirLocal_fr ..).sticky hk rfl rfl <| (State.patIdle_fr ..).sticky hk rfl rfl <| hd _ ?_)
  · refine each_keeps_of_mem (P := fun z => z.sticky k = true) (fun j hj u hu => State.tryRamp_keeps_sticky hk ?_ hu) <|
      (State.disconnectHost_fr ..).sticky hk rfl rfl <| hd _ ?_
    · have := List.mem_range.mp (List.mem_filter.mp hj).1
      omega
    · exact State.upstreamSafe_keeps_sticky hk hn h
  · exact State.upstreamSafe_keeps_sticky hk hn h

theorem State.errorRecovery_keeps_sticky (hk : k < 128) (hn : n < 17) (h : s.sticky k = true) :
    (s.errorRecovery n).sticky k = true :=
  State.partnerGone_keeps_sticky hk hn <| (State.ccState_fr ..).sticky hk rfl rfl <| State.sticky_p _ hk (TCP_PORT.ix _ hn) <|
    (State.powerDown_fr ..).sticky hk rfl rfl h

theorem State.hardReset_keeps_sticky (hk : k < 128) (hn : n < 17) (h : s.sticky k = true) : (s.hardReset n true).sticky k = true := by
  unfold State.hardReset
  have hb : ((((s.pdRecord n true 0 true 0 []).when true fun s => s.out (.pd n 0 .hardReset [])).hw (TCP_EVT.HR_TX n)).incSat
      (TCP_PORT.HR_COUNT n)).sticky k = true :=
    State.sticky_p _ hk (TCP_PORT.ix _ hn) <| State.sticky_p _ hk (TCP_EVT.ix _ hn) <| (State.pdRecord_fr ..).sticky hk rfl rfl h
  refine ite_keeps (P := fun z => z.sticky k = true)
    (State.raise_keeps_sticky _ hk (by decide) (State.errorRecovery_keeps_sticky hk hn hb)) ?_
  refine (State.tcMod_fr ..).sticky hk rfl rfl <| when_keeps (P := fun z => z.sticky k = true)
    (fun u hu => (State.dpExit_fr ..).sticky hk rfl rfl hu) <| (State.vconnOff_fr ..).sticky hk rfl rfl <|
    (State.endContract_fr ..).sticky hk rfl rfl hb

theorem State.hardReset_keepAlive (s : State) (hn : n < 17) :
    (s.hardReset n true).on (TCP_EVT.KA_TIMEOUT n) = s.on (TCP_EVT.KA_TIMEOUT n) := by
  unfold State.hardReset
  simp only [if_true]
  exact ite_keeps (P := fun z => z.on (TCP_EVT.KA_TIMEOUT n) = _) (on_kept (TCP_EVT.kept hn (State.raise_fr ..) rfl rfl) <|
    on_kept (TCP_EVT.kept hn (State.errorRecovery_fr ..) rfl rfl) <| (on_p_far _ _ (TCP_PORT.ix _ hn) (TCP_EVT.ix _ hn)).trans <|
    (on_hw_beside _ rfl).trans <| (on_out ..).trans <| on_kept (TCP_EVT.kept hn (State.pdRecord_fr ..) rfl rfl) <|
    rfl) (on_kept (TCP_EVT.kept hn (State.tcMod_fr ..) rfl rfl) <|
    on_when (fun _ h => on_kept (TCP_EVT.kept hn (State.dpExit_fr ..) rfl rfl) h) <|
    on_kept (TCP_EVT.kept hn (State.vconnOff_fr ..) rfl rfl) <| on_kept (TCP_EVT.kept hn (State.endContract_fr ..) rfl rfl) <|
    (on_p_far _ _ (TCP_PORT.ix _ hn) (TCP_EVT.ix _ hn)).trans <| (on_hw_beside _ rfl).trans <| (on_out ..).trans <|
    on_kept (TCP_EVT.kept hn (State.pdRecord_fr ..) rfl rfl) <| rfl)

theorem State.hardReset_notReady (s : State) (hn : n < 17) :
    (s.hardReset n true).on (TCP_EVT.NOT_READY n) = s.on (TCP_EVT.NOT_READY n) := by
  unfold State.hardReset
  simp only [if_true]
  exact ite_keeps (P := fun z => z.on (TCP_EVT.NOT_READY n) = _) (on_kept (TCP_EVT.kept hn (State.raise_fr ..) rfl rfl) <|
    on_kept (TCP_EVT.kept hn (State.errorRecovery_fr ..) rfl rfl) <| (on_p_far _ _ (TCP_PORT.ix _ hn) (TCP_EVT.ix _ hn)).trans <|
    (on_hw_beside _ rfl).trans <| (on_out ..).trans <| on_kept (TCP_EVT.kept hn (State.pdRecord_fr ..) rfl rfl) <|
    rfl) (on_kept (TCP_EVT.kept hn (State.tcMod_fr ..) rfl rfl) <|
    on_when (fun _ h => on_kept (TCP_EVT.kept hn (State.dpExit_fr ..) rfl rfl) h) <|
    on_kept (TCP_EVT.kept hn (State.vconnOff_fr ..) rfl rfl) <| on_kept (TCP_EVT.kept hn (State.endContract_fr ..) rfl rfl) <|
    (on_p_far _ _ (TCP_PORT.ix _ hn) (TCP_EVT.ix _ hn)).trans <| (on_hw_beside _ rfl).trans <| (on_out ..).trans <|
    on_kept (TCP_EVT.kept hn (State.pdRecord_fr ..) rfl rfl) <| rfl)

theorem State.makeContract_queued (s : State) (r : Req) (hn : n < 17) : ((s.makeContract n r).tc n).queued = (s.tc n).queued := by
  unfold State.makeContract
  dsimp only
  exact (get_tcMod Tcp.queued hn).trans <| (congrArg Tcp.queued (hw_tc ..)).trans <| (congrArg Tcp.queued (p_tc ..)).trans <|
    (congrArg Tcp.queued (p_tc ..)).trans <| (congrArg Tcp.queued (p_tc ..)).trans <| (congrArg Tcp.queued (p_tc ..)).trans <|
    (congrArg Tcp.queued (p_tc ..)).trans <|
    when_keeps (P := fun z => (z.tc n).12 = _) (fun _ h => (congrArg Tcp.queued (p_tc ..)).trans h) <| rfl

theorem State.setLimit_contract (s : State) (hn : n < 17) : (s.setLimit n).g (TCP_PORT.CONTRACT n) = s.g (TCP_PORT.CONTRACT n) := by
  unfold State.setLimit State.setRp
  exact g_when (fun _ h => (g_p_beside _ _ rfl).trans h) <| (g_p_far _ _ (PPW_LIMIT.ix _ hn) (TCP_PORT.ix _ hn))

theorem State.makeContract_contract (s : State) (r : Req) (hn : n < 17) : (s.makeContract n r).g (TCP_PORT.CONTRACT n) =
    if s.on (TCP_CONTRACT.EPR n) then 3 else 2 := by
  unfold State.makeContract
  refine g_kept (TCP_PORT.kept hn (State.tcMod_fr ..) rfl rfl) <| (g_hw_far _ (TCP_EVT.ix _ hn) (TCP_PORT.ix _ hn)).trans <|
    g_p_of_lt rfl ?_
  show (if _ then 3 else 2) < 4
  split <;> decide

/-! ## Blocks of one word -/

theorem b2n_le (b : Bool) : b2n b ≤ 1 := by cases b <;> decide

/-- A block of one word goes in one chunk. -/
theorem pdChunks_word {w : Nat} (h : w < 2 ^ 32) : pdChunks 4 [w] = [(4, [w])] := by
  have hw : w % 256 + w / 256 % 256 * 256 + w / 65536 % 256 * 65536 + w / 16777216 % 256 * 16777216 = w := by omega
  simp [pdChunks, wordAt, List.range_succ, hw]

/-! ## What an offer and a Request keep -/

theorem State.pdGot_objAt (s : State) (n pos : Nat) (hdr : BitVec 16) (l : List Nat) : (s.pdGot n hdr l).objAt n pos = s.objAt n pos := by
  rw [State.objAt, State.objAt, State.pdGot_getTc Tcp.objs]

theorem State.sendCaps_contract (s : State) (hn : n < 17) : (s.sendCaps n).g (TCP_PORT.CONTRACT n) = s.g (TCP_PORT.CONTRACT n) := by
  unfold State.sendCaps State.offerCaps State.tcSet State.setRp
  exact ite_keeps (P := fun z => z.g (TCP_PORT.CONTRACT n) = _) (g_when (fun _ h => (g_p_beside _ _ rfl).trans h) <|
    g_kept (TCP_PORT.kept hn (State.tcMod_fr ..) rfl rfl) <| g_kept (TCP_PORT.kept hn (State.pdSend_fr ..) rfl rfl) <|
    rfl) (g_when (fun _ h => (g_p_beside _ _ rfl).trans h) <| g_kept (TCP_PORT.kept hn (State.tcMod_fr ..) rfl rfl) <|
    g_kept (TCP_PORT.kept hn (State.pdSend_fr ..) rfl rfl) <| rfl)

theorem State.tryCaps_left (s : State) (hn : n < 17) : ((s.tryCaps n).tc n).capsLeft = (s.tc n).capsLeft - 1 := by
  unfold State.tryCaps
  exact (get_tcMod Tcp.capsLeft hn).trans (congrArg (· - 1) (State.sendCaps_getTc Tcp.capsLeft s n n))

end

theorem pdRequest_evaluated :
    ∀ (n : Channel) (hdr : BitVec 16) (rdo : BitVec 32) (s : State), s.pdOn n = true → s.isSource n = true → (s.tc n).trans = .none →
    Does (.pdRequest n hdr rdo) s fun t =>
    t = ((s.pdGot n hdr [rdo.toNat]).tcMod n fun x => { x with lastRdo := rdo.toNat }).evalReq n (rdoReq (s.objAt n (bitsOf rdo.toNat 28 4)) rdo.toNat) := by
  intro n hdr rdo s hp hs ht
  refine does_of rfl ((State.pdRx_of hp).trans ((if_neg ?_).trans (if_neg ?_))) ?_
  · simp [State.pdGot_isSource _ _ _ _ n.isLt, hs]
  · rw [get_tcMod Tcp.trans n.isLt, State.pdGot_getTc Tcp.trans, ht]
    decide
  · rw [State.pdGot_objAt]

theorem pdRequest_waits :
    ∀ (n : Channel) (hdr : BitVec 16) (rdo : BitVec 32) (s : State), s.isSource n = true → (s.tc n).trans ≠ .none →
    s.pdOn n = true → Does (.pdRequest n hdr rdo) s fun t =>
    (t.tc n).queued = some (rdoReq (s.objAt n (bitsOf rdo.toNat 28 4)) rdo.toNat) ∧ .pd n 0 .wait [] ∈ t.outs := by
  intro n hdr rdo s hs ht hp
  refine does_of rfl ((State.pdRx_of hp).trans ((if_neg ?_).trans (if_pos ?_))) ⟨?_, ?_⟩
  · simp [State.pdGot_isSource _ _ _ _ n.isLt, hs]
  · rw [get_tcMod Tcp.trans n.isLt, State.pdGot_getTc Tcp.trans]
    exact ht
  · rw [State.pdGot_objAt]
    exact get_tcMod Tcp.queued n.isLt
  · refine (State.tcMod_fr ..).outs.subset (State.pdSend_out ?_ nofun rfl)
    exact (Fr.pdOn (State.tcMod_fr ..) rfl rfl n).trans ((State.pdGot_pdOn ..).trans hp)

theorem srcTransitionEnd_slews :
    ∀ (n : Channel) (s : State), s.isSource n = true → (s.tc n).trans = .srcTransition →
    Does (.srcTransitionEnd n) s fun t => (t.tc n).trans = .slew ∧ t.on (TCP_VSET.SLEWING n) = true ∧
    t.g (TCP_VSET.TARGET n) = (s.tc n).req.mv / 5 % 2 ^ (TCP_VSET.TARGET n).width := by
  intro n s hs ht
  refine does_of rfl (when_of _ (by simp [hs, ht])) ⟨?_, ?_, ?_⟩
  all_goals unfold State.startSlew
  · exact get_tcMod Tcp.trans n.isLt
  · exact on_kept (TCP_VSET.kept n.isLt (State.tcMod_fr ..) rfl rfl) <| (on_p_beside _ _ rfl).trans <| on_p_one _ rfl rfl
  · exact g_kept (TCP_VSET.kept n.isLt (State.tcMod_fr ..) rfl rfl) <| (g_p_beside _ _ rfl).trans <| (g_p_beside _ _ rfl).trans <|
      g_p _ _ rfl

theorem slewDone_settles :
    ∀ (n : Channel) (s : State), (s.tc n).trans = .slew → s.on (TCP_VSET.FROZEN n) = false →
    Does (.slewDone n) s fun t => (t.tc n).trans = .settle ∧ t.on (TCP_VSET.SLEWING n) = false ∧
    t.g (TCP_VSET.CODE n) = s.g (TCP_VSET.TARGET n) % 2 ^ (TCP_VSET.CODE n).width := by
  intro n s ht hf
  refine does_of rfl (when_of _ (by simp [ht, hf])) ⟨?_, ?_, ?_⟩
  · exact get_tcMod Tcp.trans n.isLt
  · exact on_kept (TCP_VSET.kept n.isLt (State.tcMod_fr ..) rfl rfl) <| on_p_zero _ rfl
  · exact g_kept (TCP_VSET.kept n.isLt (State.tcMod_fr ..) rfl rfl) <| (g_p_beside _ _ rfl).trans <| g_p _ _ rfl

theorem settleDone_contract :
    ∀ (n : Channel) (s : State), s.isSource n = true → (s.tc n).trans = .settle → s.detachAhead n = false →
    (s.tc n).queued = none → Does (.settleDone n) s fun t => (t.tc n).trans = .none ∧ t.on (TCP_EVT.CONTRACT n) = true ∧
    t.g (TCP_CONTRACT.VOLTAGE n) = (s.tc n).req.mv / 20 % 2 ^ (TCP_CONTRACT.VOLTAGE n).width ∧
    t.g (TCP_CONTRACT.CURRENT n) = (s.tc n).req.ma / 50 % 2 ^ (TCP_CONTRACT.CURRENT n).width ∧
    t.g (TCP_PORT.CONTRACT n) = (if s.on (TCP_CONTRACT.EPR n) then 3 else 2) := by
  intro n s hs ht hd hq
  have hqu : (((s.pdSend n .psRdy).makeContract n (s.tc n).req).tc n).queued = none := by
    rw [State.makeContract_queued _ _ n.isLt, State.pdSend_getTc Tcp.queued, hq]
  refine does_of rfl (when_of _ (by simp [hs, ht, hd])) ?_
  dsimp only
  rw [hqu]
  refine ⟨?_, ?_, ?_, ?_, ?_⟩
  · exact (congrArg Tcp.trans ((State.setLimit_fr ..).tc rfl ↑n)).trans <| get_tcMod Tcp.trans n.isLt
  · refine on_kept (TCP_EVT.kept n.isLt (State.setLimit_fr ..) rfl rfl) <|
      on_kept (TCP_EVT.kept n.isLt (State.tcMod_fr ..) rfl rfl) <| ?_
    unfold State.makeContract
    exact on_kept (TCP_EVT.kept n.isLt (State.tcMod_fr ..) rfl rfl) <| on_hw _ rfl rfl
  · refine g_kept (TCP_CONTRACT.kept n.isLt (State.setLimit_fr ..) rfl rfl) <|
      g_kept (TCP_CONTRACT.kept n.isLt (State.tcMod_fr ..) rfl rfl) <| ?_
    unfold State.makeContract
    exact g_kept (TCP_CONTRACT.kept n.isLt (State.tcMod_fr ..) rfl rfl) <|
      (g_hw_far _ (TCP_EVT.ix _ n.isLt) (TCP_CONTRACT.ix _ n.isLt)).trans <|
      (g_p_far _ _ (TCP_PORT.ix _ n.isLt) (TCP_CONTRACT.ix _ n.isLt)).trans <| (g_p_beside _ _ rfl).trans <| g_p _ _ rfl
  · refine g_kept (TCP_CONTRACT.kept n.isLt (State.setLimit_fr ..) rfl rfl) <|
      g_kept (TCP_CONTRACT.kept n.isLt (State.tcMod_fr ..) rfl rfl) <| ?_
    unfold State.makeContract
    exact g_kept (TCP_CONTRACT.kept n.isLt (State.tcMod_fr ..) rfl rfl) <|
      (g_hw_far _ (TCP_EVT.ix _ n.isLt) (TCP_CONTRACT.ix _ n.isLt)).trans <|
      (g_p_far _ _ (TCP_PORT.ix _ n.isLt) (TCP_CONTRACT.ix _ n.isLt)).trans <| g_p _ _ rfl
  · dsimp only
    rw [State.setLimit_contract _ n.isLt]
    refine g_kept (TCP_PORT.kept n.isLt (State.tcMod_fr ..) rfl rfl) ((State.makeContract_contract _ _ n.isLt).trans ?_)
    rw [on_kept (TCP_CONTRACT.kept n.isLt (State.pdSend_fr ..) rfl rfl) rfl]

theorem psRdyTimeout_reset :
    ∀ (n : Channel) (s : State), s.isSource n = true → (s.tc n).trans ≠ .none → Does (.psRdyTimeout n) s fun t =>
    t.on (TCP_EVT.NOT_READY n) = true ∧ t.sticky 66 = true := by
  intro n s hs ht
  refine does_of rfl (when_of _ (by simp [hs, ht])) ⟨?_, State.raise_sticky _ _ (by decide)⟩
  exact on_kept (TCP_EVT.kept n.isLt (State.raise_fr ..) rfl rfl) <| (State.hardReset_notReady _ (by omega)).trans <|
    on_hw _ rfl rfl

theorem discoverIdentityAttempt_sent :
    ∀ (n : Channel) (answered : Bool) (amp5 : Bool) (eprOk : Bool) (maxV : Fin 4) (s : State), s.isSource n = true →
    s.pdOn n = true → (s.tc n).partnerVconn = false → s.discoveryDue n = true →
    Does (.discoverIdentityAttempt n answered amp5 eprOk maxV) s fun t => .pd n 1 .discoverIdentity [] ∈ t.outs ∧
    (answered = true → t.on (TCP_CABLE.DISCOVERED n) = true ∧ t.on (TCP_CABLE.AMP5 n) = amp5 ∧
    t.on (TCP_CABLE.EPR_OK n) = eprOk ∧ t.g (TCP_CABLE.MAX_V n) = maxV) := by
  intro n answered amp5 eprOk maxV s hs hp hv hd
  refine does_of rfl ((if_neg (by simp [hs, hp])).trans ((if_neg (by simp [hv])).trans (if_neg (by simp [hd])))) ⟨?_, fun ha => ?_⟩
  · have h := State.pdSendSop_out (s := s) (n := n) (sop := 1) (m := .discoverIdentity) (l := []) hp nofun rfl
    exact when_keeps (P := fun z => _ ∈ z.outs) (fun _ h => (State.tryCaps_fr ..).outs.subset h) <|
      when_keeps (P := fun z => _ ∈ z.outs) (fun _ h => (State.pdRecord_fr ..).outs.subset h) <| h
  · subst ha
    refine ⟨?_, ?_, ?_, ?_⟩
    · exact on_when (fun _ h => on_kept (TCP_CABLE.kept n.isLt (State.tryCaps_fr ..) rfl rfl) h) <| (on_p_beside _ _ rfl).trans <|
        (on_p_beside _ _ rfl).trans <| (on_p_beside _ _ rfl).trans <| on_p_one _ rfl rfl
    · exact on_when (fun _ h => on_kept (TCP_CABLE.kept n.isLt (State.tryCaps_fr ..) rfl rfl) h) <| (on_p_beside _ _ rfl).trans <|
        (on_p_beside _ _ rfl).trans <| on_p_b2n _ _ rfl rfl
    · exact on_when (fun _ h => on_kept (TCP_CABLE.kept n.isLt (State.tryCaps_fr ..) rfl rfl) h) <| on_p_b2n _ _ rfl rfl
    · exact g_when (fun _ h => g_kept (TCP_CABLE.kept n.isLt (State.tryCaps_fr ..) rfl rfl) h) <|
        (g_p_beside _ _ rfl).trans <| g_p_of_lt rfl maxV.isLt

theorem sourceCapTimer_counts :
    ∀ (n : Channel) (goodCrc : Bool) (s : State), s.pdOn n = true → s.isSource n = true → 0 < (s.tc n).capsLeft →
    s.discoveryDue n = false → Does (.sourceCapTimer n goodCrc) s fun t =>
    (t.tc n).capsLeft = (if goodCrc then 0 else (s.tc n).capsLeft - 1) := by
  intro n goodCrc s hp hs hl hd
  refine does_of rfl (when_of _ (by simp [hs, hp, hl, hd])) ?_
  cases goodCrc with
  | true => exact get_tcMod Tcp.capsLeft n.isLt
  | false => exact State.tryCaps_left s n.isLt

theorem getSourceCap_offers :
    ∀ (n : Channel) (hdr : BitVec 16) (s : State), s.pdOn n = true → s.isSource n = true → Does (.getSourceCap n hdr) s fun t =>
    t = (s.pdGot n hdr).offerCaps n .sourceCaps ((s.pdGot n hdr).sprCaps n) := by
  intro n hdr s hp hs
  exact does_of rfl ((State.pdRx_of hp).trans (if_pos ((State.pdGot_isSource _ _ _ _ n.isLt).trans hs))) rfl

theorem getSourceCapExtended_answers :
    ∀ (n : Channel) (hdr : BitVec 16) (info : Bool) (s : State), bitsOf hdr.toNat 6 2 ≠ 1 → s.isSource n = true → s.pdOn n = true →
    Does (.getSourceCapExtended n hdr info) s fun t =>
    ∃ l, .pd n 0 (if info then .sourceInfo else .sourceCapsExt) l ∈ t.outs := by
  intro n hdr info s hr hs hp
  have hp' : (s.pdGot n hdr).pdOn n = true := (State.pdGot_pdOn ..).trans hp
  refine does_of rfl ((State.pdRx3_of hp n.isLt hr).trans (if_neg ?_)) ?_
  · simp [State.pdGot_isSource _ _ _ _ n.isLt, hs]
  · cases info
    · exact State.pdSend_some hp' (s.pdGot_rev3 n.isLt _ hr)
    · exact State.pdSend_some hp' (s.pdGot_rev3 n.isLt _ hr)

theorem getPpsStatus_answers :
    ∀ (n : Channel) (hdr : BitVec 16) (s : State), bitsOf hdr.toNat 6 2 ≠ 1 → s.isSource n = true → 2 ≤ s.g (TCP_PORT.CONTRACT n) →
    s.g (TCP_CONTRACT.KIND n) = 1 → s.pdOn n = true → Does (.getPpsStatus n hdr) s fun t =>
    .pd n 0 .ppsStatus [s.g (TLM_AVG1MS.V n) / 20 + min 255 (s.g (TLM_AVG1MS.I n) / 50) * 2 ^ 16 + b2n (s.tc n).ppsCut * 2 ^ 27] ∈ t.outs := by
  intro n hdr s hr hs hc hk hp
  have hs' : (s.pdGot n hdr).isSource n = true := (State.pdGot_isSource _ _ _ _ n.isLt).trans hs
  have hc' : 2 ≤ (s.pdGot n hdr).g (TCP_PORT.CONTRACT n) := (State.pdGot_contract _ _ _ _ n.isLt).symm ▸ hc
  have hk' : (s.pdGot n hdr).g (TCP_CONTRACT.KIND n) = 1 := 
      g_kept (TCP_CONTRACT.kept n.isLt (State.pdGot_fr ..) rfl rfl) <|
    hk
  have hv : (s.pdGot n hdr).g (TLM_AVG1MS.V n) = s.g (TLM_AVG1MS.V n) := 
      g_kept (TLM_AVG1MS.kept n.isLt (State.pdGot_fr ..) rfl rfl) <|
    rfl
  have hi : (s.pdGot n hdr).g (TLM_AVG1MS.I n) = s.g (TLM_AVG1MS.I n) := 
      g_kept (TLM_AVG1MS.kept n.isLt (State.pdGot_fr ..) rfl rfl) <|
    rfl
  refine does_of rfl ((State.pdRx3_of hp n.isLt hr).trans (if_pos (by simp [hs', hc', hk']))) ?_
  rw [hv, hi, State.pdGot_getTc Tcp.ppsCut]
  refine State.pdSend_chunk (c := (4, _)) ((State.pdGot_pdOn ..).trans hp) (s.pdGot_rev3 n.isLt _ hr) rfl ?_
  refine (pdChunks_word ?_).symm ▸ List.mem_singleton_self _
  have hlt : s.g (TLM_AVG1MS.V n) < 2 ^ 16 := g_lt s _
  have hcut := b2n_le (s.tc n).ppsCut
  omega

theorem eprModeEnter_enters :
    ∀ (n : Channel) (hdr : BitVec 16) (s : State), s.pdOn n = true → bitsOf hdr.toNat 6 2 ≠ 1 → s.isSource n = true → (s.pdGot n hdr).eprEnterFail n = 0 →
    Does (.eprModeEnter n hdr) s fun t => t.on (TCP_CONTRACT.EPR n) = true := by
  intro n hdr s hp hr hs hf
  refine does_of rfl ((State.pdRx3_of hp n.isLt hr).trans ((if_neg ?_).trans (if_neg ?_))) ?_
  · simp [State.pdGot_isSource _ _ _ _ n.isLt, hs]
  · simp [hf]
  · exact on_kept (TCP_CONTRACT.kept n.isLt (State.sendCaps_fr ..) rfl rfl) <| on_p_one _ rfl rfl

theorem eprModeExit_exits :
    ∀ (n : Channel) (hdr : BitVec 16) (s : State), s.pdOn n = true → bitsOf hdr.toNat 6 2 ≠ 1 → s.isSource n = true → s.on (TCP_CONTRACT.EPR n) = true →
    Does (.eprModeExit n hdr) s fun t => t.on (TCP_CONTRACT.EPR n) = false ∧ (s.g (TCP_PORT.CONTRACT n) = 3 →
    t.g (TCP_PORT.CONTRACT n) = 2) := by
  intro n hdr s hp hr hs he
  have he' : (s.pdGot n hdr).on (TCP_CONTRACT.EPR n) = true := 
      on_kept (TCP_CONTRACT.kept n.isLt (State.pdGot_fr ..) rfl rfl) <|
    he
  refine does_of rfl ((State.pdRx3_of hp n.isLt hr).trans (when_of _ ?_)) ⟨?_, fun hc => ?_⟩
  · simp [State.pdGot_isSource _ _ _ _ n.isLt, hs, he']
  · exact on_kept (TCP_CONTRACT.kept n.isLt (State.sendCaps_fr ..) rfl rfl) <|
      on_when (fun _ h => (on_p_far _ _ (TCP_PORT.ix _ n.isLt) (TCP_CONTRACT.ix _ n.isLt)).trans h) <| on_p_zero _ rfl
  · dsimp only
    rw [State.sendCaps_contract _ n.isLt, when_of]
    · exact g_p_lit rfl rfl
    · simp only [decide_eq_true_eq]
      rw [g_p_far _ _ (TCP_CONTRACT.ix _ n.isLt) (TCP_PORT.ix _ n.isLt), State.pdGot_contract _ _ _ _ n.isLt, hc]

theorem eprGetSourceCap_offers :
    ∀ (n : Channel) (hdr : BitVec 16) (s : State), s.pdOn n = true → bitsOf hdr.toNat 6 2 ≠ 1 → s.isSource n = true → s.on (TCP_CONTRACT.EPR n) = true →
    Does (.eprGetSourceCap n hdr) s fun t => t = (s.pdGot n hdr).sendCaps n := by
  intro n hdr s hp hr hs he
  have he' : (s.pdGot n hdr).on (TCP_CONTRACT.EPR n) = true := 
      on_kept (TCP_CONTRACT.kept n.isLt (State.pdGot_fr ..) rfl rfl) <|
    he
  refine does_of rfl ((State.pdRx3_of hp n.isLt hr).trans (if_pos ?_)) rfl
  simp [State.pdGot_isSource _ _ _ _ n.isLt, hs, he']

theorem ppsTimeout_reset :
    ∀ (n : Channel) (s : State), s.isSource n = true → 2 ≤ s.g (TCP_PORT.CONTRACT n) → s.g (TCP_CONTRACT.KIND n) = 1 →
    Does (.ppsTimeout n) s fun t => t.on (TCP_EVT.KA_TIMEOUT n) = true ∧ t.sticky 68 = true := by
  intro n s hs hc hk
  refine does_of rfl (when_of _ (by simp [hs, hc, hk])) ⟨?_, ?_⟩
  · exact (State.hardReset_keepAlive _ (by omega)).trans <| on_kept (TCP_EVT.kept n.isLt (State.raise_fr ..) rfl rfl) <|
      on_hw _ rfl rfl
  · exact State.hardReset_keeps_sticky (by decide) n.isLt (State.raise_sticky _ _ (by decide))

theorem eprKeepaliveTimeout_reset :
    ∀ (n : Channel) (s : State), s.isSource n = true → s.on (TCP_CONTRACT.EPR n) = true →
    Does (.eprKeepaliveTimeout n) s fun t => t.on (TCP_EVT.KA_TIMEOUT n) = true ∧ t.sticky 68 = true := by
  intro n s hs he
  refine does_of rfl (when_of _ (by simp [hs, he])) ⟨?_, ?_⟩
  · exact (State.hardReset_keepAlive _ (by omega)).trans <| on_kept (TCP_EVT.kept n.isLt (State.raise_fr ..) rfl rfl) <|
      on_hw _ rfl rfl
  · exact State.hardReset_keeps_sticky (by decide) n.isLt (State.raise_sticky _ _ (by decide))

theorem senderResponseTimeout_soft :
    ∀ (n : Channel) (s : State), s.pdOn n = true → s.isSource n = true → s.g (TCP_PORT.PD_REV n) ≠ 0 → (s.tc n).softSent = false →
    Does (.senderResponseTimeout n) s fun t => (t.tc n).softSent = true ∧ t.on (TCP_EVT.SOFT_RESET n) = true := by
  intro n s hp hs hr hf
  refine does_of rfl ((when_of _ (by simp [hp, hs, hr])).trans (if_neg (by simp [hf]))) ⟨?_, ?_⟩
  · unfold State.tcSet
    exact (congrArg Tcp.softSent ((State.setRp_fr ..).tc rfl ↑n)).trans <| get_tcMod Tcp.softSent n.isLt
  · exact on_kept (TCP_EVT.kept n.isLt (State.tcSet_fr ..) rfl rfl) <| on_hw _ rfl rfl

theorem senderResponseTimeout_hard :
    ∀ (n : Channel) (s : State), s.pdOn n = true → s.isSource n = true → s.g (TCP_PORT.PD_REV n) ≠ 0 → (s.tc n).softSent = true →
    Does (.senderResponseTimeout n) s fun t => t = s.hardReset n true := by
  intro n s hp hs hr hf
  exact does_of rfl ((when_of _ (by simp [hp, hs, hr])).trans (if_pos hf)) rfl

/-- Settles O22: command by command. -/
theorem pdSourceComplete : Obligations.PdSourceComplete := by
  unfold Obligations.PdSourceComplete
  exact ⟨pdRequest_evaluated, pdRequest_waits, srcTransitionEnd_slews, slewDone_settles, settleDone_contract,
    psRdyTimeout_reset, discoverIdentityAttempt_sent, sourceCapTimer_counts, getSourceCap_offers,
    getSourceCapExtended_answers, getPpsStatus_answers, eprModeEnter_enters, eprModeExit_exits,
    eprGetSourceCap_offers, ppsTimeout_reset, eprKeepaliveTimeout_reset, senderResponseTimeout_soft,
    senderResponseTimeout_hard⟩

end Sys2Proof.Machine

/-!
# Messages a port answers, and DisplayPort
-/
namespace Sys2Proof.Machine

set_option Elab.async false

section
variable {s : State} {n k : Nat}

/-! ## The plan's view of a port stands as a message arrives -/

theorem State.pdGot_sinkSet (s : State) (n k : Nat) (hdr : BitVec 16) (l : List Nat) : (s.pdGot n hdr l).sinkSet k = s.sinkSet k := by
  unfold State.sinkSet State.member
  rw [(State.pdGot_fr ..).plan rfl, (State.pdGot_fr ..).fab rfl]

theorem State.pdGot_portPaddock (s : State) (n k : Nat) (hdr : BitVec 16) (l : List Nat) :
    (s.pdGot n hdr l).portPaddock k = s.portPaddock k := by
  have hh : (s.pdGot n hdr l).holderOf k = s.holderOf k := by
    unfold State.holderOf State.member
    rw [(State.pdGot_fr ..).holders rfl, (State.pdGot_fr ..).fab rfl]
  unfold State.portPaddock
  rw [hh]
  unfold State.slotOf State.member
  rw [(State.pdGot_fr ..).plan rfl, (State.pdGot_fr ..).fab rfl]

theorem State.pdGot_altDp (s : State) (n k : Nat) (hdr : BitVec 16) (l : List Nat) : (s.pdGot n hdr l).altDp k = s.altDp k := by
  rw [State.altDp, State.altDp, State.pdGot_portPaddock]

/-- A VDM that the port answers only with ALT_DP. -/
theorem State.dpAnswer_of {hdr : BitVec 16} {l : List Nat} {f : State → State} (h : s.altDp n = true) :
    (s.pdGot n hdr l).dpAnswer n f = f (s.pdGot n hdr l) := if_pos ((State.pdGot_altDp ..).trans h)

theorem State.altDp_le (h : s.altDp n = true) : 15 ≤ n := by
  rw [State.altDp, Bool.and_eq_true] at h
  exact of_decide_eq_true h.1

theorem State.sinkContract_event (s : State) (r : Req) (hn : n < 17) : (s.sinkContract n r).on (TCP_EVT.CONTRACT n) = true := by
  unfold State.sinkContract
  dsimp only
  have h : (((((s.p (TCP_CONTRACT.EPR n) (b2n (s.tc n).sinkEpr)).makeContract n r).tcMod n fun t =>
      { t with limit := some (contractLimit false r.ma), sinkReq := none }).setLimit n).dropKeepAlive n true).on
      (TCP_EVT.CONTRACT n) = true := by
    refine on_kept (TCP_EVT.kept hn (State.dropKeepAlive_fr ..) rfl rfl) <|
      on_kept (TCP_EVT.kept hn (State.setLimit_fr ..) rfl rfl) <| on_kept (TCP_EVT.kept hn (State.tcMod_fr ..) rfl rfl) <| ?_
    unfold State.makeContract
    exact on_kept (TCP_EVT.kept hn (State.tcMod_fr ..) rfl rfl) <| on_hw _ rfl rfl
  exact ite_keeps (P := fun z => z.on (TCP_EVT.CONTRACT n) = _) (on_kept (TCP_EVT.kept hn (State.addKeepAlive_fr ..) rfl rfl) h) (ite_keeps (P := fun z => z.on (TCP_EVT.CONTRACT n) = _) (on_kept (TCP_EVT.kept hn (State.addKeepAlive_fr ..) rfl rfl) h) (h))

theorem State.sinkContract_done (s : State) (r : Req) (hn : n < 17) : ((s.sinkContract n r).tc n).sinkReq = none := by
  unfold State.sinkContract
  dsimp only
  exact ite_keeps (P := fun z => (z.tc n).sinkReq = _) ((congrArg Tcp.sinkReq ((State.addKeepAlive_fr ..).tc rfl n)).trans <|
    (congrArg Tcp.sinkReq ((State.dropKeepAlive_fr ..).tc rfl n)).trans <|
    (congrArg Tcp.sinkReq ((State.setLimit_fr ..).tc rfl n)).trans <|
    get_tcMod Tcp.sinkReq hn) (ite_keeps (P := fun z => (z.tc n).sinkReq = _) ((congrArg Tcp.sinkReq ((State.addKeepAlive_fr ..).tc rfl n)).trans <|
    (congrArg Tcp.sinkReq ((State.dropKeepAlive_fr ..).tc rfl n)).trans <|
    (congrArg Tcp.sinkReq ((State.setLimit_fr ..).tc rfl n)).trans <|
    get_tcMod Tcp.sinkReq hn) ((congrArg Tcp.sinkReq ((State.dropKeepAlive_fr ..).tc rfl n)).trans <|
    (congrArg Tcp.sinkReq ((State.setLimit_fr ..).tc rfl n)).trans <| get_tcMod Tcp.sinkReq hn))

/-- A message of PD 2.0 is answered, whatever the partner's revision. -/
theorem State.pdGot_answer {hdr : BitVec 16} {l : List Nat} {m : PdMsg} {w : List Nat} (h : s.pdOn n = true) (hr : m.rev3 = false) :
    .pd n 0 m w ∈ ((s.pdGot n hdr l).pdSend n m w).outs := by
  refine State.pdSend_out ((State.pdGot_pdOn ..).trans h) (fun h3 => absurd h3 (by simp [hr])) ?_
  rw [PdMsg.rev3, Bool.or_eq_false_iff] at hr
  exact hr.1

/-- A message of PD 3.x is answered by one. -/
theorem State.pdGot_answer3 {hdr : BitVec 16} {l : List Nat} {m : PdMsg} {w : List Nat} (h : s.pdOn n = true) (hn : n < 17)
    (hr : bitsOf hdr.toNat 6 2 ≠ 1) (hm : m.code.2 = false) : .pd n 0 m w ∈ ((s.pdGot n hdr l).pdSend n m w).outs :=
  State.pdSend_out ((State.pdGot_pdOn ..).trans h) (fun _ => s.pdGot_rev3 hn l hr) hm

/-- The block of a Status message, of seven bytes in two words, goes in one chunk. -/
theorem pdChunks_status {w : Nat} (h : w < 2 ^ 16) : pdChunks 7 [512, w * 256] = [(7, [512, w * 256])] := by
  have hw : w % 256 * 256 + w * 256 / 65536 % 256 * 65536 = w * 256 := by omega
  simp [pdChunks, wordAt, List.range_succ, hw]

end

theorem ping_revision :
    ∀ (n : Channel) (hdr : BitVec 16) (s : State), s.pdOn n = true → Does (.ping n hdr) s fun t =>
    t.g (TCP_PORT.PD_REV n) = (if bitsOf hdr.toNat 6 2 = 1 then 1 else 2) := by
  exact fun n hdr s hp => does_of rfl (State.pdRx_of hp) (s.pdGot_rev n.isLt hdr [])

theorem getSinkCap_answers :
    ∀ (n : Channel) (hdr : BitVec 16) (ext : Bool) p (s : State), s.sinkSet n = some p → s.pdOn n = true → ext = false →
    Does (.getSinkCap n hdr ext) s fun t => .pd n 0 .sinkCaps (p.pdos.take p.spr) ∈ t.outs := by
  intro n hdr ext p s hs hp he
  refine does_of rfl (State.pdRx_of hp) ?_
  rw [State.pdGot_sinkSet, hs]
  dsimp only
  rw [if_neg (by simp [he])]
  exact State.pdGot_answer hp rfl

theorem getSinkCap_extended :
    ∀ (n : Channel) (hdr : BitVec 16) (ext : Bool) p (s : State), s.sinkSet n = some p → s.pdOn n = true → ext = true →
    bitsOf hdr.toNat 6 2 ≠ 1 → Does (.getSinkCap n hdr ext) s fun t => ∃ l, .pd n 0 .sinkCapsExt l ∈ t.outs := by
  intro n hdr ext p s hs hp he hr
  refine does_of rfl (State.pdRx_of hp) ?_
  rw [State.pdGot_sinkSet, hs]
  dsimp only
  rw [if_pos he]
  exact State.pdSend_some ((State.pdGot_pdOn ..).trans hp) (s.pdGot_rev3 n.isLt _ hr)

theorem getStatus_answers :
    ∀ (n : Channel) (hdr : BitVec 16) (s : State), bitsOf hdr.toNat 6 2 ≠ 1 → s.pdOn n = true → Does (.getStatus n hdr) s fun t =>
    .pd n 0 .status [2 * 2 ^ 8, (s.g (BUD_PORT.REDUCED n) * 4 + b2n (s.on TLM_INWARN.PWRWARN || s.on TLM_INWARN.AC_FAIL) * 8) * 2 ^ 8] ∈ t.outs := by
  intro n hdr s hr hp
  have hred : (s.pdGot n hdr).g (BUD_PORT.REDUCED n) = s.g (BUD_PORT.REDUCED n) := 
      g_kept (BUD_PORT.kept n.isLt (State.pdGot_fr ..) rfl rfl) <|
    rfl
  have hw : (s.pdGot n hdr).on TLM_INWARN.PWRWARN = s.on TLM_INWARN.PWRWARN := 
      (State.pdGot_fr ..).on rfl <| rfl
  have ha : (s.pdGot n hdr).on TLM_INWARN.AC_FAIL = s.on TLM_INWARN.AC_FAIL := 
      (State.pdGot_fr ..).on rfl <| rfl
  refine does_of rfl (State.pdRx3_of hp n.isLt hr) ?_
  dsimp only
  rw [hred, hw, ha]
  refine State.pdSend_chunk (c := (7, _)) ((State.pdGot_pdOn ..).trans hp) (s.pdGot_rev3 n.isLt _ hr) rfl ?_
  refine (pdChunks_status ?_).symm ▸ List.mem_singleton_self _
  have hlt : s.g (BUD_PORT.REDUCED n) < 2 ^ 1 := g_lt s _
  have hb := b2n_le (s.on TLM_INWARN.PWRWARN || s.on TLM_INWARN.AC_FAIL)
  omega

theorem getRevision_answers :
    ∀ (n : Channel) (hdr : BitVec 16) (s : State), bitsOf hdr.toNat 6 2 ≠ 1 → s.pdOn n = true → Does (.getRevision n hdr) s fun t =>
    .pd n 0 .revision [0x32000000] ∈ t.outs := by
  exact fun n hdr s hr hp => does_of rfl (State.pdRx3_of hp n.isLt hr) (State.pdGot_answer3 hp n.isLt hr rfl)

theorem softReset_accepts :
    ∀ (n : Channel) (hdr : BitVec 16) (s : State), s.pdOn n = true → Does (.softReset n hdr) s fun t =>
    t.on (TCP_EVT.SOFT_RESET n) = true ∧ .pd n 0 .accept [] ∈ t.outs := by
  intro n hdr s hp
  refine does_of rfl (State.pdRx_of hp) ⟨?_, ?_⟩
  · exact on_kept (TCP_EVT.kept n.isLt (State.pdSend_fr ..) rfl rfl) <|
      on_kept (TCP_EVT.kept n.isLt (State.tcSet_fr ..) rfl rfl) <| on_hw _ rfl rfl
  · refine State.pdSend_out ?_ nofun rfl
    exact ((State.setRp_fr ..).pdOn rfl rfl n).trans <| ((State.tcMod_fr ..).pdOn rfl rfl n).trans <| ((Fr.hw (b := 39614081257132168796771975168) (TCP_EVT.reg rfl) (Fr.refl 0 _ _)).pdOn rfl rfl n).trans <|
      (State.pdGot_pdOn ..).trans hp

theorem unsupportedPdMessage_answers :
    ∀ (n : Channel) (hdr : BitVec 16) (s : State), s.pdOn n = true → bitsOf hdr.toNat 6 2 ≠ 1 →
    Does (.unsupportedPdMessage n hdr) s fun t => .pd n 0 .notSupported [] ∈ t.outs := by
  intro n hdr s hp hr
  refine does_of rfl ((State.pdRx_of hp).trans (when_of _ ?_)) (State.pdGot_answer3 hp n.isLt hr rfl)
  simpa using s.pdGot_rev3 n.isLt _ hr

theorem bist_runs :
    ∀ (n : Channel) (hdr : BitVec 16) (carrier : Bool) (s : State), s.pdOn n = true → s.g (TCP_VSET.TARGET n) = 1000 →
    (s.ch n).rampDone = true → (s.tc n).trans = .none → Does (.bist n hdr carrier) s fun t => (t.tc n).bist = true := by
  intro n hdr carrier s hp ht hr hs
  have ht' : (s.pdGot n hdr).g (TCP_VSET.TARGET n) = 1000 := 
      g_kept (TCP_VSET.kept n.isLt (State.pdGot_fr ..) rfl rfl) <| ht
  have hr' : ((s.pdGot n hdr).ch n).rampDone = true := 
      (congrArg Chan.rampDone ((State.pdGot_fr ..).ch rfl ↑n)).trans <| hr
  refine does_of rfl ((State.pdRx_of hp).trans (when_of _ ?_)) ?_
  · simp [ht', hr', State.pdGot_getTc Tcp.trans, hs]
  · exact get_tcMod Tcp.bist n.isLt

theorem sourceCapabilities_requested :
    ∀ (n : Channel) (hdr : BitVec 16) (objs : List (BitVec 32)) (epr : Bool) (s : State), s.pdOn n = true → s.isSink n = true →
    Does (.sourceCapabilities n hdr objs epr) s fun t => (t.tc n).objs = objs.map (·.toNat) ∧
    (t.tc n).sinkReq = some (bestReq (((s.sinkSet n).map PdoSet.used).getD [5000 / 50 * 2 ^ 10 + 50]) (objs.map (·.toNat))).1 := by
  intro n hdr objs epr s hp hs
  refine does_of rfl ((State.pdRx_of hp).trans (if_neg ?_)) ?_
  · simp [State.pdGot_isSink _ _ _ _ n.isLt, hs]
  · rw [State.pdGot_sinkSet]
    exact ⟨get_tcMod Tcp.objs n.isLt, get_tcMod Tcp.sinkReq n.isLt⟩

theorem acceptReceived_contract :
    ∀ (n : Channel) (hdr : BitVec 16) (ans : PdAnswer) r (s : State), s.pdOn n = true → s.isSink n = true → (s.tc n).swap ≠ 3 →
    (s.tc n).softSent = false → ans = .psRdy → (s.tc n).sinkReq = some r → Does (.acceptReceived n hdr ans) s fun t =>
    t.on (TCP_EVT.CONTRACT n) = true ∧ (t.tc n).sinkReq = none := by
  intro n hdr ans r s hp hs hsw hso ha hr
  subst ha
  refine does_of rfl ((State.pdRx_of hp).trans ((if_neg ?_).trans ((if_neg ?_).trans (if_pos ?_)))) ?_
  · rw [State.pdGot_getTc Tcp.swap]
    exact hsw
  · simp [State.pdGot_getTc Tcp.softSent, hso]
  · exact (State.pdGot_isSink _ _ _ _ n.isLt).trans hs
  · rw [State.pdGot_getTc Tcp.sinkReq, hr]
    exact ⟨State.sinkContract_event _ r n.isLt, State.sinkContract_done _ r n.isLt⟩

theorem acceptReceived_softReset :
    ∀ (n : Channel) (hdr : BitVec 16) (ans : PdAnswer) (s : State), s.pdOn n = true → (s.tc n).swap ≠ 3 → (s.tc n).softSent = true →
    ans = .accept → Does (.acceptReceived n hdr ans) s fun t => (t.tc n).softSent = false ∧ (t.tc n).msgId = 0 := by
  intro n hdr ans s hp hsw hso ha
  subst ha
  refine does_of rfl ((State.pdRx_of hp).trans ((if_neg ?_).trans (if_pos ?_))) ⟨?_, ?_⟩
  · rw [State.pdGot_getTc Tcp.swap]
    exact hsw
  · simp [State.pdGot_getTc Tcp.softSent, hso]
  · unfold State.tcSet
    exact (congrArg Tcp.softSent ((State.setRp_fr ..).tc rfl ↑n)).trans <| get_tcMod Tcp.softSent n.isLt
  · unfold State.tcSet
    exact (congrArg Tcp.msgId ((State.setRp_fr ..).tc rfl ↑n)).trans <| get_tcMod Tcp.msgId n.isLt

theorem eprGetSinkCap_answers :
    ∀ (n : Channel) (hdr : BitVec 16) p (s : State), bitsOf hdr.toNat 6 2 ≠ 1 → s.sinkSet n = some p → 0 < p.epr → s.pdOn n = true →
    Does (.eprGetSinkCap n hdr) s fun t => t = (s.pdGot n hdr).pdSend n .eprSinkCaps (p.pdos.take (7 + p.epr)) := by
  intro n hdr p s hr hs he hp
  refine does_of rfl (State.pdRx3_of hp n.isLt hr) ?_
  rw [State.pdGot_sinkSet, hs]
  exact if_pos he

theorem eprKeepalive_acknowledged :
    ∀ (n : Channel) (hdr : BitVec 16) (s : State), bitsOf hdr.toNat 6 2 ≠ 1 → s.pdOn n = true → Does (.eprKeepalive n hdr) s fun t =>
    .pd n 0 .eprKeepAliveAck [4] ∈ t.outs := by
  intro n hdr s hr hp
  refine does_of rfl (State.pdRx3_of hp n.isLt hr) ?_
  refine State.pdSend_chunk (c := (2, [4])) ((State.pdGot_pdOn ..).trans hp) (s.pdGot_rev3 n.isLt _ hr) rfl ?_
  decide

theorem pdAlert_asksStatus :
    ∀ (n : Channel) (hdr : BitVec 16) (ado : BitVec 32) (s : State), bitsOf hdr.toNat 6 2 ≠ 1 → s.pdOn n = true →
    Does (.pdAlert n hdr ado) s fun t => .pd n 0 .getStatus [] ∈ t.outs := by
  exact fun n hdr ado s hr hp => does_of rfl (State.pdRx3_of hp n.isLt hr) (State.pdGot_answer3 hp n.isLt hr rfl)

theorem pdInfoReceived_kept :
    ∀ (n : Channel) (hdr : BitVec 16) (data : List (BitVec 32)) (s : State), s.pdOn n = true → Does (.pdInfoReceived n hdr data) s fun t =>
    (bitsOf hdr.toNat 0 5, data.map (·.toNat)) ∈ (t.tc n).info := by
  intro n hdr data s hp
  refine does_of rfl (State.pdRx_of hp) ?_
  rw [get_tcMod Tcp.info n.isLt]
  exact List.mem_cons_self

/-- Settles O23: command by command. -/
theorem pdAnswersComplete : Obligations.PdAnswersComplete := by
  unfold Obligations.PdAnswersComplete
  exact ⟨ping_revision, getSinkCap_answers, getSinkCap_extended, getStatus_answers, getRevision_answers,
    softReset_accepts, unsupportedPdMessage_answers, bist_runs, sourceCapabilities_requested,
    acceptReceived_contract, acceptReceived_softReset, eprGetSinkCap_answers, eprKeepalive_acknowledged,
    pdAlert_asksStatus, pdInfoReceived_kept⟩

theorem discoverIdentity_answers :
    ∀ (n : Channel) (hdr : BitVec 16) (s : State), s.pdOn n = true → Does (.discoverIdentity n hdr) s fun t =>
    ∃ l, .pd n 0 .vdmAck (1 :: l) ∈ t.outs := by
  exact fun n hdr s hp => does_of rfl (State.pdRx_of hp) ⟨_, State.pdGot_answer hp rfl⟩

theorem discoverSvids_answers :
    ∀ (n : Channel) (hdr : BitVec 16) (s : State), s.altDp n = true → s.pdOn n = true →
    Does (.discoverSvids n hdr) s fun t => .pd n 0 .vdmAck [2, 0xFF01] ∈ t.outs := by
  intro n hdr s ha hp
  have h := State.pdGot_answer (s := s) (n := n) (hdr := hdr) (l := []) (m := .vdmAck) (w := [2, 0xFF01]) hp rfl
  refine does_of rfl ((State.pdRx_of hp).trans (State.dpAnswer_of ha)) ?_
  exact when_keeps (P := fun z => _ ∈ z.outs) (fun _ h => h) <| h

theorem discoverModes_answers :
    ∀ (n : Channel) (hdr : BitVec 16) (s : State), s.altDp n = true → s.pdOn n = true →
    Does (.discoverModes n hdr) s fun t =>
    .pd n 0 .vdmAck [3, 0x45 + ((s.portPaddock n).map (·.dpPins)).getD 0 * 2 ^ 18] ∈ t.outs := by
  intro n hdr s ha hp
  refine does_of rfl ((State.pdRx_of hp).trans (State.dpAnswer_of ha)) ?_
  rw [State.pdGot_portPaddock]
  exact State.pdGot_answer hp rfl

theorem enterMode_enters :
    ∀ (n : Channel) (hdr : BitVec 16) (s : State), s.pdOn n = true → s.altDp n = true → Does (.enterMode n hdr) s fun t =>
    t.g (TCP_DP.STATE (n - 15)) = 2 ∧ (vat t.dp (n - 15)).entered = true := by
  intro n hdr s hp ha
  have hn := State.altDp_le ha
  refine does_of rfl ((State.pdRx_of hp).trans (State.dpAnswer_of ha)) ⟨?_, ?_⟩
  · exact g_regs (State.withDp_regs ..) <| g_p_lit rfl rfl
  · exact congrArg DpS.entered (vat_vmod _ _ (by omega))

theorem exitMode_exits :
    ∀ (n : Channel) (hdr : BitVec 16) (s : State), s.altDp n = true → s.pdOn n = true →
    Does (.exitMode n hdr) s fun t => t.g (TCP_DP.STATE (n - 15)) = 0 ∧ .pd n 0 .vdmAck [5] ∈ t.outs := by
  intro n hdr s ha hp
  have hn := State.altDp_le ha
  have h := State.pdGot_answer (s := s) (n := n) (hdr := hdr) (l := []) (m := .vdmAck) (w := [5]) hp rfl
  refine does_of rfl ((State.pdRx_of hp).trans (State.dpAnswer_of ha)) ⟨?_, ?_⟩
  · unfold State.dpExit
    exact ite_keeps (P := fun z => z.g (TCP_DP.STATE (↑n - 15)) = _) (g_p_lit rfl rfl) (ite_keeps (P := fun z => z.g (TCP_DP.STATE (↑n - 15)) = _) (g_p _ _ rfl) (g_regs (State.withDp_regs ..) <|
      g_p_lit rfl rfl))
  · exact (State.dpExit_fr ..).outs.subset <| h

theorem dpStatusUpdate_answers :
    ∀ (n : Channel) (hdr : BitVec 16) (s : State), s.altDp n = true → s.pdOn n = true →
    Does (.dpStatusUpdate n hdr) s fun t => .pd n 0 .vdmAck [0x10, s.g (TCP_DP.HPD (n - 15))] ∈ t.outs := by
  intro n hdr s ha hp
  have hn := State.altDp_le ha
  refine does_of rfl ((State.pdRx_of hp).trans (State.dpAnswer_of ha)) ?_
  have hh : (s.pdGot n hdr).g (TCP_DP.HPD (n - 15)) = s.g (TCP_DP.HPD (n - 15)) := 
      g_kept (TCP_DP.kept (by omega) (State.pdGot_fr ..) rfl rfl) <|
    rfl
  rw [hh]
  exact State.pdGot_answer hp rfl

theorem dpConfigure_changes :
    ∀ (n : Channel) (hdr : BitVec 16) (ufpD : Bool) (pins : Fin 4) (s : State), s.pdOn n = true → s.altDp n = true → ufpD = true →
    pins.val ≠ 0 → bitOf (((s.portPaddock n).map (·.dpPins)).getD 0) (pins - 1) = true → 2 ≤ s.g (TCP_DP.STATE (n - 15)) →
    usbLanes (s.g (TCP_DP.PINS (n - 15))) ≠ usbLanes pins → Does (.dpConfigure n hdr ufpD pins) s fun t =>
    (vat t.dp (n - 15)).wanted = pins ∧ (vat t.dp (n - 15)).step = 1 ∧ (vat t.dp (n - 15)).ackDue = true := by
  intro n hdr ufpD pins s hp ha hu h0 hb hst hl
  have hn := State.altDp_le ha
  have hst' : 2 ≤ (s.pdGot n hdr).g (TCP_DP.STATE (n - 15)) := by
    rw [show (s.pdGot n hdr).g (TCP_DP.STATE (n - 15)) = s.g (TCP_DP.STATE (n - 15)) by exact g_kept (TCP_DP.kept (by omega) (State.pdGot_fr ..) rfl rfl) <|
      rfl]
    exact hst
  have hl' : usbLanes ((s.pdGot n hdr).g (TCP_DP.PINS (n - 15))) ≠ usbLanes pins := by
    rw [show (s.pdGot n hdr).g (TCP_DP.PINS (n - 15)) = s.g (TCP_DP.PINS (n - 15)) by exact g_kept (TCP_DP.kept (by omega) (State.pdGot_fr ..) rfl rfl) <|
      rfl]
    exact hl
  refine does_of rfl ((State.pdRx_of hp).trans ((State.dpAnswer_of ha).trans ((if_pos ?_).trans (if_neg hl')))) ?_
  · simp [State.pdGot_portPaddock, hu, h0, hb, hst']
  · have h := vat_vmod (s.pdGot n hdr).dp (fun q => { q with wanted := pins.val, step := 1, ackDue := true }) (i := n - 15) (by omega)
    exact ⟨congrArg DpS.wanted h, congrArg DpS.step h, congrArg DpS.ackDue h⟩

theorem otherStructuredVdm_refused :
    ∀ (n : Channel) (hdr : BitVec 16) (s : State), s.pdOn n = true →
    Does (.otherStructuredVdm n hdr) s fun t => .pd n 0 .vdmNak [] ∈ t.outs := by
  exact fun n hdr s hp => does_of rfl (State.pdRx_of hp) (State.pdGot_answer hp rfl)

theorem unstructuredVdm_notSupported :
    ∀ (n : Channel) (hdr : BitVec 16) (s : State), s.pdOn n = true → bitsOf hdr.toNat 6 2 ≠ 1 →
    Does (.unstructuredVdm n hdr) s fun t => .pd n 0 .notSupported [] ∈ t.outs := by
  intro n hdr s hp hr
  refine does_of rfl ((State.pdRx_of hp).trans (when_of _ ?_)) (State.pdGot_answer3 hp n.isLt hr rfl)
  simpa using s.pdGot_rev3 n.isLt _ hr

theorem hpdLevelChange_shows :
    ∀ (u : Fin 2) (high : Bool) (s : State), Does (.hpdLevelChange u high) s fun t => t.on (TCP_DP.HPD u) = high := by
  intro u high s
  refine does_of rfl rfl ?_
  exact on_when (fun _ h => on_kept (TCP_DP.kept u.isLt (State.pdSend_fr ..) rfl rfl) h) <| on_p_b2n _ _ rfl rfl

theorem irqHpd_attention :
    ∀ (u : Fin 2) (s : State), 2 ≤ s.g (TCP_DP.STATE u) → s.pdOn (15 + u) = true → Does (.irqHpd u) s fun t =>
    .pd (15 + u) 0 .attention [s.g (TCP_DP.HPD u) + 2] ∈ t.outs := by
  intro u s hst hp
  exact does_of rfl (when_of _ (by simp [hst])) (State.pdSend_out hp nofun rfl)

/-- Settles O24: command by command. -/
theorem displayPortComplete : Obligations.DisplayPortComplete := by
  unfold Obligations.DisplayPortComplete
  exact ⟨discoverIdentity_answers, discoverSvids_answers, discoverModes_answers, enterMode_enters, exitMode_exits,
    dpStatusUpdate_answers, dpConfigure_changes, otherStructuredVdm_refused, unstructuredVdm_notSupported,
    hpdLevelChange_shows, irqHpd_attention⟩

end Sys2Proof.Machine

/-!
# A Ghelys link with one lane disabled
-/
namespace Sys2Proof.Machine

set_option Elab.async false

/-- A member of a barn whose link 0 may run on a single lane and trains, its upper lane (21) disabled. -/
def oneLane : State :=
  ((State.reset.withPlan { Plan.empty with barn := some ⟨8, 1, 0, 0xFF, 500, 0, [], [⟨0, 0, 5, 2, 0, 1⟩]⟩ }).fields
    [(TOP_MODE.MODE, 3), (GLK_CTRL.ENABLE, 1), (GLK_LINK.STATE 0, 1), (STL_LANE.DISABLE 21, 1)]).fabMod fun f =>
      { f with numbered := true }

/-- Both lanes cannot train while one of them is disabled. -/
theorem oneLane_linkTrained : exec (.linkTrained 0 3 0 0) oneLane = .next oneLane :=
  congrArg Host.Outcome.next (if_pos (by decide +kernel))

/-- Refutes O27: the clause of LINK_TRAINED leaves open whether the lanes that trained are enabled. With one lane of a link disabled
(`oneLane`), an event that names both is not carried out, and the link does not reach step 3. -/
theorem not_linkTrainingComplete : ¬ Obligations.LinkTrainingComplete := by
  unfold Obligations.LinkTrainingComplete
  intro h
  obtain ⟨t, ht, hstate, -⟩ := h.1 0 3 0 0 oneLane (by decide +kernel) (by decide +kernel) (.inl rfl)
  obtain rfl : oneLane = t := Host.Outcome.next.inj (oneLane_linkTrained.symm.trans ht)
  exact absurd hstate (by decide +kernel)

end Sys2Proof.Machine

/-!
# The transaction translator of a stall
-/
namespace Sys2Proof.Machine

set_option Elab.async false

section
variable {s : State} {n : Nat}

/-! ## What a change of a translator gives -/

theorem State.ttMod_tt (h : n < 15) (g : TtS → TtS) : (s.ttMod n g).tt' n = g (s.tt' n) := by
  unfold State.ttMod State.tt'
  rw [(State.ttShow_fr ..).tt rfl]
  exact vat_vmod s.tt g h

@[simp] theorem p_tt' (s : State) (f : Fld) (v k : Nat) : (s.p f v).tt' k = s.tt' k := rfl
@[simp] theorem hw_tt' (s : State) (f : Fld) (k : Nat) : (s.hw f).tt' k = s.tt' k := rfl
@[simp] theorem out_tt' (s : State) (o : Out) (k : Nat) : (s.out o).tt' k = s.tt' k := rfl

theorem get_ttMod {α : Type} (φ : TtS → α) {g : TtS → TtS} (h : n < 15) : φ ((s.ttMod n g).tt' n) = φ (g (s.tt' n)) :=
  congrArg φ (State.ttMod_tt h g)

theorem Fr.tt' {m : Nat} {b : Nat} {t : State} (h : Fr m b s t) (hm : m.testBit 15 = false) (n : Nat) : t.tt' n = s.tt' n := by
  rw [State.tt', State.tt', h.tt hm]

theorem Fr.holderOf {m b : Nat} {t : State} (h : Fr m b s t) (hh : m.testBit 22 = false) (hf : m.testBit 18 = false) (k : Nat) :
    t.holderOf k = s.holderOf k := by
  rw [State.holderOf, State.holderOf, State.member, State.member, h.holders hh, h.fab hf]

theorem Fr.stallYard {m b : Nat} {t : State} (h : Fr m b s t) (hh : m.testBit 22 = false) (hf : m.testBit 18 = false) (k : Nat) :
    t.stallYard k = s.stallYard k := by
  rw [State.stallYard, State.stallYard, h.holderOf hh hf]

theorem State.ttMod_uframe (h : n < 15) (g : TtS → TtS) : (s.ttMod n g).g (TTA_TT.UFRAME n) = s.g (TTA_TT.UFRAME n) := by
  unfold State.ttMod State.ttShow
  exact g_kept (TTA_TT.kept h (State.linkJudge_fr ..) rfl rfl) <| (g_p_beside _ _ rfl).trans <| (g_p_beside _ _ rfl).trans <|
    (g_p_beside _ _ rfl).trans <| g_regs (State.withTt_regs ..) <| rfl

theorem State.ttMod_npFits (h : n < 15) (g : TtS → TtS) : (s.ttMod n g).npFits n = s.npFits n := by
  funext b
  have hspeed : (s.ttMod n g).g (HSH_PORT.SPEED n) = s.g (HSH_PORT.SPEED n) := 
      g_kept (HSH_PORT.kept h (State.ttMod_fr ..) rfl rfl) <|
    rfl
  unfold State.npFits
  rw [State.ttMod_uframe h, hspeed, (State.ttMod_fr ..).yards rfl, (State.ttMod_fr ..).stallYard rfl rfl]

/-- The choice of the next transaction sets what is on the bus and nothing else. -/
theorem TtS.next_get {α : Type} (φ : TtS → α) (t : TtS) (fits : TtBuf → Bool)
    (h : ∀ (t : TtS) c, φ { t with cur := c } = φ t := by intro t c; rfl) : φ (t.next fits) = φ t := by
  unfold TtS.next
  split
  · rfl
  · split
    · split
      · exact h ..
      · rfl
    · split
      · split
        · exact h ..
        · rfl
      · rfl

theorem State.ttBoundary_get {α : Type} (φ : TtS → α) (h : n < 15) (u f : Nat)
    (hφ : ∀ (t : TtS) c, φ { t with cur := c } = φ t := by intro t c; rfl) :
    φ ((s.ttBoundary n u f).tt' n) = φ { s.tt' n with bound := (s.tt' n).bound + 1, eof := false } := by
  unfold State.ttBoundary
  refine (get_ttMod φ h).trans ((TtS.next_get φ _ _ hφ).trans ?_)
  rw [show ((s.p (TTA_TT.UFRAME n) u).when (u = 0) fun s => s.out (.line "FS_SOF" [n, f])).tt' n = s.tt' n from
    when_keeps (P := fun z => z.tt' n = s.tt' n) (fun _ h => h) rfl]

theorem State.ttBoundary_uframe (h : n < 15) (u f : Nat) (hu : u < 8) : (s.ttBoundary n u f).g (TTA_TT.UFRAME n) = u := by
  unfold State.ttBoundary
  rw [State.ttMod_uframe h]
  exact g_when (fun _ h => h) (g_p_of_lt rfl hu)

/-- As many buffers are taken as the list holds, or fewer. -/
theorem State.perTaken_le (s : State) (n : Nat) : s.perTaken n ≤ (s.tt' n).per.length := List.length_filter_le ..

end

/-! ## The translator's boundaries, splits and transactions -/

theorem ttSof_complete :
    ∀ (n : Stall) (frame : Fin 2048) (s : State), s.ttOn n = true → Does (.ttSof n frame) s fun t =>
    (t.tt' n).noSof = 0 ∧ (t.tt' n).sofCycle = some s.cycle ∧ (t.tt' n).bound = (s.tt' n).bound + 1 ∧
    t.g (TTA_TT.UFRAME n) = (vat s.yards (s.stallYard n)).iv % 8 := by
  intro n frame s hon
  refine does_of rfl (when_of _ hon) ?_
  dsimp only
  refine ⟨?_, ?_, ?_, ?_⟩
  · rw [State.ttBoundary_get (·.noSof) n.isLt, State.ttMod_tt n.isLt]
  · rw [State.ttBoundary_get (·.sofCycle) n.isLt, State.ttMod_tt n.isLt]
  · rw [State.ttBoundary_get (·.bound) n.isLt, State.ttMod_tt n.isLt]
  · rw [State.ttBoundary_uframe n.isLt _ _ (Nat.mod_lt _ (by decide)), (State.ttMod_fr ..).yards rfl,
      (State.ttMod_fr ..).stallYard rfl rfl]

theorem sofFill_complete :
    ∀ (n : Stall) (s : State), s.ahead (sofOf n) = false → s.ttOn n = true → (s.tt' n).sofCycle ≠ some s.cycle → Does (.sofFill n) s fun t =>
    t.on (TTA_EVT.SOF_FILL n) = true ∧ (t.tt' n).noSof = (s.tt' n).noSof + 1 ∧ (t.tt' n).bound = (s.tt' n).bound + 1 := by
  intro n s hahead hon hcycle
  refine does_of rfl (when_of _ (by simp [hahead, hon, hcycle])) ?_
  dsimp only
  refine ⟨?_, ?_, ?_⟩
  · exact on_kept (TTA_EVT.kept n.isLt (State.ttBoundary_fr ..) rfl rfl) <|
      on_kept (TTA_EVT.kept n.isLt (State.ttMod_fr ..) rfl rfl) <|
      (on_p_far _ _ (TTA_COUNT.ix _ n.isLt) (TTA_EVT.ix _ n.isLt)).trans <| on_hw _ rfl rfl
  · rw [State.ttBoundary_get (·.noSof) n.isLt, State.ttMod_tt n.isLt]
    rfl
  · rw [State.ttBoundary_get (·.bound) n.isLt, State.ttMod_tt n.isLt]
    rfl

theorem ttPeriodicHold_complete :
    ∀ (n : Stall) (s : State), s.ttOn n = true → s.g TTA_X_TUNE.NOSOF_HOLD ≤ (s.tt' n).noSof → (s.tt' n).held = false →
    Does (.ttPeriodicHold n) s fun t => t.on (TTA_EVT.PER_HELD n) = true ∧ (t.tt' n).held = true := by
  intro n s hon hnoSof hheld
  refine does_of rfl (when_of _ (by simp [hon, hnoSof, hheld])) ⟨?_, ?_⟩
  · exact on_kept (TTA_EVT.kept n.isLt (State.ttMod_fr ..) rfl rfl) <| on_hw _ rfl rfl
  · rw [State.ttMod_tt n.isLt]

theorem periodicStartSplit_complete :
    ∀ (n : Stall) (dev : Fin 128) (ep : Fin 16) (dirIn : Bool) (data : List (BitVec 8)) (s : State), s.ttOn n = true →
    (s.tt' n).per.length < 32 → data.length ≤ 188 → Does (.periodicStartSplit n dev ep dirIn data) s fun t =>
    (t.tt' n).per = (s.tt' n).per ++ [⟨dev, ep, false, dirIn, data, (s.tt' n).bound, none, false⟩] := by
  intro n dev ep dirIn data s hon hper hdata
  refine does_of rfl (when_of _ hon) ?_
  have hfree : ¬(s.perTaken n ≥ 32 || data.length > 188) = true := by
    have := s.perTaken_le n
    simp only [Bool.or_eq_true, decide_eq_true_eq]
    omega
  rw [if_neg hfree, (State.pmu_fr ..).tt' rfl, State.ttMod_tt n.isLt]

theorem periodicStartSplit_dropped :
    ∀ (n : Stall) (dev : Fin 128) (ep : Fin 16) (dirIn : Bool) (data : List (BitVec 8)) (s : State), s.ttOn n = true →
    188 < data.length → Does (.periodicStartSplit n dev ep dirIn data) s fun t => t.on (TTA_EVT.PER_DROP n) = true ∧
    (t.tt' n).per = (s.tt' n).per := by
  intro n dev ep dirIn data s hon hdata
  refine does_of rfl (when_of _ hon) ?_
  rw [if_pos (by simp [hdata])]
  refine ⟨?_, ?_⟩
  · exact on_kept (TTA_EVT.kept n.isLt (State.pmu_fr ..) rfl rfl) <| on_hw _ rfl rfl
  · rw [(State.pmu_fr ..).tt' rfl]
    rfl

theorem nonperiodicStartSplit_complete :
    ∀ (n : Stall) (dev : Fin 128) (ep : Fin 16) (bulk : Bool) (dirIn : Bool) (data : List (BitVec 8)) (s : State), s.ttOn n = true →
    (s.tt' n).np.length < 4 → data.length ≤ 64 →
    ((s.tt' n).np.any fun b => b.dev = dev.val && b.ep = ep.val && b.dirIn = dirIn) = false →
    Does (.nonperiodicStartSplit n dev ep bulk dirIn data) s fun t =>
    (t.tt' n).np = (s.tt' n).np ++ [⟨dev, ep, bulk, dirIn, data, (s.tt' n).bound, none, false⟩] ∧
    .line "SPLIT_ACK" [n.val] ∈ t.outs := by
  intro n dev ep bulk dirIn data s hon hnp hdata hsame
  refine does_of rfl (when_of _ hon) ?_
  dsimp only
  have hfree : ¬((decide ((s.tt' n).np.length ≥ 4) || decide (data.length > 64)
      || (s.tt' n).np.any fun b => b.dev = dev.val && b.ep = ep.val && b.dirIn = dirIn) = true) := by
    rw [hsame, Bool.or_false, Bool.or_eq_true, decide_eq_true_eq, decide_eq_true_eq]
    omega
  rw [if_neg hfree]
  rw [out_tt']
  exact ⟨(get_ttMod (·.np) n.isLt).trans (TtS.next_get (·.np) ..), List.mem_cons_self⟩

theorem nonperiodicStartSplit_refused :
    ∀ (n : Stall) (dev : Fin 128) (ep : Fin 16) (bulk : Bool) (dirIn : Bool) (data : List (BitVec 8)) (s : State), s.ttOn n = true →
    (4 ≤ (s.tt' n).np.length ∨ ((s.tt' n).np.any fun b => b.dev = dev.val && b.ep = ep.val && b.dirIn = dirIn) = true) →
    Does (.nonperiodicStartSplit n dev ep bulk dirIn data) s fun t => (t.tt' n).np = (s.tt' n).np ∧
    t.on (TTA_EVT.NP_NAK n) = true ∧ .line "SPLIT_NAK" [n.val] ∈ t.outs := by
  intro n dev ep bulk dirIn data s hon hbusy
  refine does_of rfl (when_of _ hon) ?_
  dsimp only
  have hfull : (decide ((s.tt' n).np.length ≥ 4) || decide (data.length > 64)
      || (s.tt' n).np.any fun b => b.dev = dev.val && b.ep = ep.val && b.dirIn = dirIn) = true := by
    rcases hbusy with h | h
    · rw [decide_eq_true h, Bool.true_or, Bool.true_or]
    · rw [h, Bool.or_true]
  rw [if_pos hfull]
  refine ⟨rfl, ?_, ?_⟩
  · exact on_hw _ rfl rfl
  · exact List.mem_cons_self

theorem completeSplit_unknown :
    ∀ (n : Stall) (periodic : Bool) (dev : Fin 128) (ep : Fin 16) (dirIn : Bool) (sofar : List (BitVec 8)) (s : State), s.ttOn n = true →
    ((if periodic then (s.tt' n).per else (s.tt' n).np).find? (fun b => b.dev = dev.val && b.ep = ep.val && b.dirIn = dirIn && !b.cancel) = none) →
    Does (.completeSplit n periodic dev ep dirIn sofar) s fun t => t = s.out (.line "CSPLIT_NYET" [n.val]) := by
  intro n periodic dev ep dirIn sofar s hon hnone
  refine does_of rfl (when_of _ hon) ?_
  dsimp only
  rw [hnone]

theorem completeSplit_complete :
    ∀ (n : Stall) (periodic : Bool) (dev : Fin 128) (ep : Fin 16) (dirIn : Bool) (sofar : List (BitVec 8)) b a (s : State), s.ttOn n = true →
    ((if periodic then (s.tt' n).per else (s.tt' n).np).find? (fun b => b.dev = dev.val && b.ep = ep.val && b.dirIn = dirIn && !b.cancel) = some b) →
    b.ans = some a → Does (.completeSplit n periodic dev ep dirIn sofar) s fun t => answerLine n a ∈ t.outs ∧
    (if periodic then (t.tt' n).per = (s.tt' n).per.erase b else (t.tt' n).np = (s.tt' n).np.erase b) := by
  intro n periodic dev ep dirIn sofar b a s hon hsome hans
  refine does_of rfl (when_of _ hon) ?_
  dsimp only
  rw [hsome]
  dsimp only
  rw [hans]
  refine ⟨?_, ?_⟩
  · exact List.mem_cons_self
  · cases periodic
    · simp only [Bool.false_eq_true, if_false, out_tt']
      exact get_ttMod (·.np) n.isLt
    · simp only [if_true, out_tt']
      exact get_ttMod (·.per) n.isLt

theorem ttTransactionEnd_complete :
    ∀ (n : Stall) (a : TtAnswer) (s : State), s.ttOn n = true → Does (.ttTransactionEnd n a) s fun t =>
    t.tt' n = (s.tt' n).finish a (s.npFits n) := by
  intro n a s hon
  exact does_of rfl (when_of _ hon) (State.ttMod_tt n.isLt _)

theorem periodicWindowEnd_complete :
    ∀ (n : Stall) (dev : Fin 128) (ep : Fin 16) (dirIn : Bool) b (s : State), s.ttOn n = true →
    (s.tt' n).per.find? (fun b => b.dev = dev.val && b.ep = ep.val && b.dirIn = dirIn) = some b →
    Does (.periodicWindowEnd n dev ep dirIn) s fun t => (t.tt' n).per = (s.tt' n).per.erase b := by
  intro n dev ep dirIn b s hon hsome
  refine does_of rfl (when_of _ hon) ?_
  dsimp only
  rw [hsome]
  exact (get_ttMod (·.per) n.isLt).trans (TtS.next_get (·.per) ..)

theorem ttEof_ends :
    ∀ (n : Stall) (s : State), s.ttOn n = true → (s.tt' n).cur = some true → Does (.ttEof n) s fun t =>
    t.on (TTA_EVT.LATE n) = true ∧ t.tt' n = { s.tt' n with eof := true }.finish .err (s.npFits n) := by
  intro n s hon hcur
  refine does_of rfl (when_of _ hon) ?_
  dsimp only
  have hper : ((s.ttMod n fun t => { t with eof := true }).tt' n).cur = some true := (get_ttMod (·.cur) n.isLt).trans hcur
  rw [when_of _ (decide_eq_true hper)]
  refine ⟨?_, ?_⟩
  · exact on_kept (TTA_EVT.kept n.isLt (State.ttMod_fr ..) rfl rfl) <| on_hw _ rfl rfl
  · exact (State.ttMod_tt n.isLt _).trans
      (congrArg₂ (fun x y => TtS.finish x .err y) ((hw_tt' ..).trans (State.ttMod_tt n.isLt _)) (State.ttMod_npFits n.isLt _))

theorem ttEof_complete :
    ∀ (n : Stall) (s : State), s.ttOn n = true → (s.tt' n).cur ≠ some true → Does (.ttEof n) s fun t => (t.tt' n).eof = true := by
  intro n s hon hcur
  refine does_of rfl (when_of _ hon) ?_
  dsimp only
  have hper : ((s.ttMod n fun t => { t with eof := true }).tt' n).cur ≠ some true := fun h =>
    hcur ((get_ttMod (·.cur) n.isLt).symm.trans h)
  rw [when_of_not _ (decide_eq_false hper)]
  exact get_ttMod (·.eof) n.isLt

/-- Settles O33: One clause per event: the TT is changed by the model's own step, and the choice of the next transaction touches only what is on the bus. -/
theorem translatorComplete : Obligations.TranslatorComplete := by
  unfold Obligations.TranslatorComplete
  exact ⟨ttSof_complete, sofFill_complete, ttPeriodicHold_complete, periodicStartSplit_complete,
    periodicStartSplit_dropped, nonperiodicStartSplit_complete, nonperiodicStartSplit_refused,
    completeSplit_unknown, completeSplit_complete, ttTransactionEnd_complete, periodicWindowEnd_complete,
    ttEof_ends, ttEof_complete⟩

end Sys2Proof.Machine

/-!
# Bus-state orders that act, and a translator's operation that ends
-/
namespace Sys2Proof.Machine

set_option Elab.async false

section
variable {s : State} {n : Nat}

theorem hsState_state (h : n < 15) {st : Nat} (hst : st < 16) : (s.hsState n st).g (HSH_PORT.STATE n) = st := by
  unfold State.hsState
  refine g_kept (HSH_PORT.kept h (State.linkJudge_fr ..) rfl rfl) <| g_kept (HSH_PORT.kept h (State.linkJudge_fr ..) rfl rfl) ?_
  exact g_p_of_lt rfl hst

/-- The earlier of two orders, the first of them when they are equal. -/
theorem firstOrder_foldl {p : Order → Bool} {o : Order} (l : List Order) (a : Option Order) (ha : ∀ b, a = some b → p b = true)
    (hl : ∀ b ∈ l, p b = true)
    (h : l.foldl (fun a o => some (match a with | none => o | some b => if o.stamp < b.stamp then o else b)) a = some o) :
    p o = true := by
  induction l generalizing a with
  | nil => exact ha _ h
  | cons c l ih =>
    refine ih _ ?_ (fun b hb => hl b (List.mem_cons_of_mem _ hb)) h
    intro b hb
    cases a with
    | none => exact Option.some.inj hb ▸ hl c List.mem_cons_self
    | some d =>
      replace hb := Option.some.inj hb
      dsimp only at hb
      split at hb
      · exact hb ▸ hl c List.mem_cons_self
      · exact hb ▸ ha d rfl

/-- The order that acts next is one of those asked for. -/
theorem firstOrder_some {l : List Order} {p : Order → Bool} {o : Order} (h : firstOrder l p = some o) : p o = true :=
  firstOrder_foldl _ none (fun _ h => nomatch h) (fun _ hb => (List.mem_filter.1 hb).2) h

/-- An order of the kind named whose stamp has come acts. -/
theorem State.runOrder_of {p : Order → Bool} {kind : PortAct → Bool} {o : Order} (ho : firstOrder s.hs.orders p = some o)
    (hon : s.hsOn = true) (hk : kind o.act = true) (hdue : o.stamp ≤ s.yticks o.slot) :
    s.runOrder p kind = (s.hsMod fun h => { h with orders := h.orders.erase o }).doAct o.slot o.n o.act := by
  unfold State.runOrder
  rw [ho]
  dsimp only
  rw [if_pos (by rw [hon, hk, decide_eq_true hdue]; rfl)]

/-! ## What an act leaves at its port -/

theorem State.doAct_reset (slot : Nat) (h : n < 15) (hst : s.g (HSH_PORT.STATE n) ∈ [2, 4, 5, 6, 7, 8]) :
    (s.doAct slot n .reset).g (HSH_PORT.STATE n) = 3 ∧ .line "SE0" [n] ∈ (s.doAct slot n .reset).outs := by
  have hgo : [2, 4, 5, 6, 7, 8].contains (s.g (HSH_PORT.STATE n)) = true := List.contains_iff_mem.2 hst
  unfold State.doAct
  dsimp only
  rw [if_pos hgo]
  refine ⟨?_, ?_⟩
  · refine g_kept (HSH_PORT.kept h (State.mirLocal_fr ..) rfl rfl) <| g_kept (HSH_PORT.kept h (State.hsMod_fr ..) rfl rfl) ?_
    rw [g_out]
    exact g_kept (HSH_PORT.kept h (State.ttReset_fr ..) rfl rfl) (hsState_state h (by decide))
  · exact (State.mirLocal_fr ..).outs.subset <| (State.hsMod_fr ..).outs.subset <| List.mem_cons_self

theorem State.doAct_suspend (slot : Nat) (h : n < 15) (hst : s.g (HSH_PORT.STATE n) = 4) :
    (s.doAct slot n .suspend).g (HSH_PORT.STATE n) = 5 := by
  unfold State.doAct
  dsimp only
  rw [if_pos hst]
  exact g_kept (HSH_PORT.kept h (State.mirLocal_fr ..) rfl rfl) (hsState_state h (by decide))

theorem State.doAct_resume (slot : Nat) (h : n < 15) (hst : s.g (HSH_PORT.STATE n) = 5) :
    (s.doAct slot n .resume).g (HSH_PORT.STATE n) = 6 ∧ .line "K" [n] ∈ (s.doAct slot n .resume).outs := by
  unfold State.doAct
  dsimp only
  rw [if_pos hst, g_out]
  exact ⟨hsState_state h (by decide), List.mem_cons_self⟩

theorem State.doAct_test (slot m : Nat) (h : n < 15) :
    (s.doAct slot n (.test m)).g (HSH_PORT.STATE n) = 8 ∧ .line "TEST" [n, m] ∈ (s.doAct slot n (.test m)).outs := by
  unfold State.doAct
  dsimp only
  refine ⟨?_, ?_⟩
  · refine g_kept (HSH_PORT.kept h (State.mirLocal_fr ..) rfl rfl) ?_
    rw [g_out]
    exact hsState_state h (by decide)
  · exact (State.mirLocal_fr ..).outs.subset <| List.mem_cons_self

theorem State.doAct_l1Exit (slot : Nat) (h : n < 15) (hst : s.g (HSH_PORT.STATE n) = 7) :
    (s.doAct slot n .l1Exit).g (HSH_PORT.STATE n) = 4 ∧ (s.doAct slot n .l1Exit).on (HSH_PORT_EVT.L1_EXIT n) = true := by
  unfold State.doAct
  dsimp only
  rw [if_pos hst]
  refine ⟨?_, ?_⟩
  · refine g_kept (HSH_PORT.kept h (State.mirLocal_fr ..) rfl rfl) ?_
    rw [g_out]
    exact (g_hw_far _ (HSH_PORT_EVT.ix _ h) (HSH_PORT.ix _ h)).trans (hsState_state h (by decide))
  · refine on_kept (HSH_PORT_EVT.kept h (State.mirLocal_fr ..) rfl rfl) ?_
    rw [on_out]
    exact on_hw _ rfl rfl

end

/-! ## The orders of a port, and of a bus -/

theorem orderReset_complete :
    ∀ (n : Stall) o (s : State), s.hsOn = true → firstOrder s.hs.orders (fun o => o.n = n) = some o → o.act = .reset →
    o.stamp ≤ s.yticks o.slot → s.g (HSH_PORT.STATE n) ∈ [2, 4, 5, 6, 7, 8] → Does (.orderReset n) s fun t =>
    t.g (HSH_PORT.STATE n) = 3 ∧ .line "SE0" [n.val] ∈ t.outs := by
  intro n o s hon ho hact hdue hst
  have hn : o.n = n.val := of_decide_eq_true (firstOrder_some ho)
  refine does_of rfl (State.runOrder_of ho hon (by rw [hact]; rfl) hdue) ?_
  rw [hact, hn]
  exact State.doAct_reset _ n.isLt hst

theorem orderSuspendPort_complete :
    ∀ (n : Stall) o (s : State), s.hsOn = true → firstOrder s.hs.orders (fun o => o.n = n) = some o → o.act = .suspend →
    o.stamp ≤ s.yticks o.slot → s.g (HSH_PORT.STATE n) = 4 → Does (.orderSuspendPort n) s fun t =>
    t.g (HSH_PORT.STATE n) = 5 := by
  intro n o s hon ho hact hdue hst
  have hn : o.n = n.val := of_decide_eq_true (firstOrder_some ho)
  refine does_of rfl (State.runOrder_of ho hon (by rw [hact]; rfl) hdue) ?_
  rw [hact, hn]
  exact State.doAct_suspend _ n.isLt hst

theorem orderResumePort_complete :
    ∀ (n : Stall) o (s : State), s.hsOn = true → s.g (HSH_ENG.STATE (s.engineOf n)) ∉ [4, 5] →
    firstOrder s.hs.orders (fun o => o.n = n) = some o → o.act = .resume → o.stamp ≤ s.yticks o.slot →
    s.g (HSH_PORT.STATE n) = 5 → Does (.orderResumePort n) s fun t => t.g (HSH_PORT.STATE n) = 6 ∧
    .line "K" [n.val] ∈ t.outs := by
  intro n o s hon heng ho hact hdue hst
  have hn : o.n = n.val := of_decide_eq_true (firstOrder_some ho)
  have hbus : (!s.busSusp n) = true := by
    unfold State.busSusp
    simpa using heng
  refine does_of rfl ((when_of _ hbus).trans (State.runOrder_of ho hon (by rw [hact]; rfl) hdue)) ?_
  rw [hact, hn]
  exact State.doAct_resume _ n.isLt hst

theorem orderBusResumeStart_complete :
    ∀ (slot : Fin 4) o (s : State), s.hsOn = true →
    firstOrder s.hs.orders (fun o => o.n = 15 && o.slot = slot) = some o → o.act = .busResumeStart →
    o.stamp ≤ s.yticks o.slot → Does (.orderBusResumeStart slot) s fun t =>
    t = (s.hsMod fun h => { h with orders := h.orders.erase o }).doAct o.slot o.n .busResumeStart := by
  intro slot o s hon ho hact hdue
  refine does_of rfl (State.runOrder_of ho hon (by rw [hact]; rfl) hdue) ?_
  rw [hact]

theorem orderBusResumeEnd_complete :
    ∀ (slot : Fin 4) o (s : State), s.hsOn = true →
    firstOrder s.hs.orders (fun o => o.n = 15 && o.slot = slot) = some o → o.act = .busResumeEnd →
    o.stamp ≤ s.yticks o.slot → Does (.orderBusResumeEnd slot) s fun t =>
    t = (s.hsMod fun h => { h with orders := h.orders.erase o }).doAct o.slot o.n .busResumeEnd := by
  intro slot o s hon ho hact hdue
  refine does_of rfl (State.runOrder_of ho hon (by rw [hact]; rfl) hdue) ?_
  rw [hact]

theorem orderTest_complete :
    ∀ (n : Stall) o m (s : State), s.hsOn = true → firstOrder s.hs.orders (fun o => o.n = n) = some o → o.act = .test m →
    o.stamp ≤ s.yticks o.slot → Does (.orderTest n) s fun t => t.g (HSH_PORT.STATE n) = 8 ∧
    .line "TEST" [n.val, m] ∈ t.outs := by
  intro n o m s hon ho hact hdue
  have hn : o.n = n.val := of_decide_eq_true (firstOrder_some ho)
  refine does_of rfl (State.runOrder_of ho hon (by rw [hact]; rfl) hdue) ?_
  rw [hact, hn]
  exact State.doAct_test _ m n.isLt

theorem orderL1Exit_complete :
    ∀ (n : Stall) o (s : State), s.hsOn = true → firstOrder s.hs.orders (fun o => o.n = n) = some o → o.act = .l1Exit →
    o.stamp ≤ s.yticks o.slot → s.g (HSH_PORT.STATE n) = 7 → Does (.orderL1Exit n) s fun t => t.g (HSH_PORT.STATE n) = 4 ∧
    t.on (HSH_PORT_EVT.L1_EXIT n) = true := by
  intro n o s hon ho hact hdue hst
  have hn : o.n = n.val := of_decide_eq_true (firstOrder_some ho)
  refine does_of rfl (State.runOrder_of ho hon (by rw [hact]; rfl) hdue) ?_
  rw [hact, hn]
  exact State.doAct_l1Exit _ n.isLt hst

theorem ttaOpDone_complete :
    ∀ (s : State), s.on TTA_CMD.BUSY = true → s.ttaOpDone.on TTA_CMD.BUSY = false → Does .ttaOpDone s fun t =>
    t = (match s.ttaOpDone.hubWaits.find? fun w => w.n = s.g TTA_CMD.STALL ∧ (ttWord w.n w.act).isSome with | some w => State.runTtWaits 32 (s.ttaOpDone.finishWait w []) | none => State.runTtWaits 32 s.ttaOpDone) := by
  intro s hbusy hdone
  refine does_of rfl (if_neg (by rw [hdone, hbusy]; decide)) ?_
  rfl

/-- Settles O34: An order that is next and due is carried out as the model's act, whose own branch gives the state reached; TTA_OP_DONE by its own branches. -/
theorem ordersComplete : Obligations.OrdersComplete := by
  unfold Obligations.OrdersComplete
  exact ⟨orderReset_complete, orderSuspendPort_complete, orderResumePort_complete, orderBusResumeStart_complete,
    orderBusResumeEnd_complete, orderTest_complete, orderL1Exit_complete, ttaOpDone_complete⟩

end Sys2Proof.Machine

/-!
# Full-speed upstream, carry, width change and BC 1.2
-/
namespace Sys2Proof.Machine

set_option Elab.async false

section
variable {s t : State} {n : Nat}

/-! ## Engines and upstream links -/

theorem rootEngine_lt {slot e : Nat} (h : s.rootEngine slot = some e) : e < 4 :=
  List.mem_range.1 (List.mem_filter.1 (List.mem_of_find?_eq_some h)).1

theorem engState_state {e : Nat} (he : e < 4) {st : Nat} (hst : st < 8) : (s.engState e st).g (HSH_ENG.STATE e) = st := by
  unfold State.engState
  refine g_when (fun u h => g_kept (HSH_ENG.kept he (State.tellUp_fr ..) rfl rfl) h) ?_
  exact g_kept (HSH_ENG.kept he (State.linkJudge_fr ..) rfl rfl) <|
    each_keeps (P := fun z : State => z.g (HSH_ENG.STATE e) = st)
      (fun _ _ h => g_kept (HSH_ENG.kept he (State.linkJudge_fr ..) rfl rfl) h) _ _ <|
    g_kept (HSH_ENG.kept he (State.linkJudge_fr ..) rfl rfl) <| g_p_of_lt rfl hst

theorem engState_speed {e : Nat} (he : e < 4) (st : Nat) : (s.engState e st).g (HSH_ENG.SPEED e) = s.g (HSH_ENG.SPEED e) := by
  unfold State.engState
  refine g_when (fun u h => g_kept (HSH_ENG.kept he (State.tellUp_fr ..) rfl rfl) h) ?_
  exact g_kept (HSH_ENG.kept he (State.linkJudge_fr ..) rfl rfl) <|
    each_keeps (P := fun z : State => z.g (HSH_ENG.SPEED e) = _)
      (fun _ _ h => g_kept (HSH_ENG.kept he (State.linkJudge_fr ..) rfl rfl) h) _ _ <|
    g_kept (HSH_ENG.kept he (State.linkJudge_fr ..) rfl rfl) <| g_p_beside _ _ rfl

theorem ssLink_link (h : n < 17) {st : Nat} (hst : st < 16) : (s.ssLink n st).g (SSH_PORT.LINK n) = st := by
  unfold State.ssLink
  dsimp only
  split
  next he => exact he
  · have hl : ((((s.p (SSH_PORT.LINK n) st).hw (SSH_PORT_EVT.LINK_CHG n)).linkJudge (portDom n)).linkJudge dHUB).g (SSH_PORT.LINK n) = st :=
      g_kept (SSH_PORT.kept h (State.linkJudge_fr ..) rfl rfl) <| g_kept (SSH_PORT.kept h (State.linkJudge_fr ..) rfl rfl) <|
        (g_hw_far _ (SSH_PORT_EVT.ix _ h) (SSH_PORT.ix _ h)).trans (g_p_of_lt rfl hst)
    split
    · refine g_kept (SSH_PORT.kept h (State.mirLocal_fr ..) rfl rfl) <| g_when (fun u hu => ?_) <| g_when (fun u hu => hu) hl
      exact g_kept (SSH_PORT.kept h (State.patIdle_fr ..) rfl rfl) hu
    · split
      · exact hl
      · exact g_kept (SSH_PORT.kept h (State.tellUp_fr ..) rfl rfl) <| g_when (fun u hu =>
          g_kept (SSH_PORT.kept h (State.ssHubOff_fr ..) rfl rfl) hu) hl

/-! ## What tells whether a stall's root is configured -/

/-- Is the root of the slot that holds a stall configured, as this chip knows (R151)? -/
def State.rootConf (s : State) (n : Nat) : Bool := (s.holderOf n).any fun y => (s.upKnown y).conf

theorem State.rootConf_congr (hplan : t.plan = s.plan) (hmember : t.fab.member = s.fab.member) (hholders : t.holders = s.holders)
    (hhubs : t.ss.hubs = s.ss.hubs) (htold : t.ss.told = s.ss.told) : t.rootConf n = s.rootConf n := by
  have hm : t.member = s.member := hmember
  have hown : t.holderOf n = s.holderOf n := by rw [State.holderOf, State.holderOf, hm, hholders]
  have hhome (y : Nat) : t.homeOf y = s.homeOf y := by rw [State.homeOf, State.homeOf, hplan]
  have hhub (y : Nat) : t.hubOf y 0xF = s.hubOf y 0xF := by rw [State.hubOf, State.hubOf, hhubs]
  unfold State.rootConf
  rw [hown]
  congr 1
  funext y
  unfold State.upKnown
  rw [hhome]
  cases s.homeOf y with
  | none => rfl
  | some x =>
    dsimp only
    rw [hm]
    split
    · unfold State.upHere
      dsimp only
      rw [hhub]
    · rw [htold]

/-- A wake of the host sets only which upstream links leave U3. -/
theorem State.ssWake_ss {α : Type} (φ : SsS → α) (h : ∀ (x : SsS) e, φ { x with exiting := e } = φ x := by intro x e; rfl) :
    φ (s.ssWake n).ss = φ s.ss := by
  unfold State.ssWake
  split
  · rfl
  · split
    · rfl
    · split
      · exact when_keeps (P := fun z => φ z.ss = φ s.ss) (fun u hu => (h ..).trans hu) rfl
      · exact congrArg φ ((State.ctrlTo_fr ..).ss rfl)

theorem State.mirLocal_ss {α : Type} (φ : SsS → α) {f : PortStat → PortStat}
    (h : ∀ (x : SsS) e, φ { x with exiting := e } = φ x := by intro x e; rfl) : φ (s.mirLocal n f).ss = φ s.ss := by
  unfold State.mirLocal
  refine ite_keeps (P := fun z : State => φ z.ss = φ s.ss) rfl (when_keeps (P := fun z => φ z.ss = φ s.ss) (fun u hu => (State.ssWake_ss φ h).trans hu) ?_)
  exact congrArg φ ((State.mirSend_fr ..).ss rfl)

theorem State.Knows.hsGone {m : Nat} {l : List (Nat × Nat)} (h : s.Knows m l) : (s.hsGone n).Knows m l := by
  unfold State.hsGone
  refine State.Knows.mirLocal <| (State.hsMod_fr ..).knows rfl <| (State.patIdle_fr ..).knows rfl <| (State.hsState_fr ..).knows rfl ?_
  exact State.Knows.p <| (State.unreset_fr ..).knows rfl h

theorem State.hsGone_rootConf (k : Nat) : (s.hsGone n).rootConf k = s.rootConf k := by
  have hss {α : Type} (φ : SsS → α) (h : ∀ (x : SsS) e, φ { x with exiting := e } = φ x) : φ (s.hsGone n).ss = φ s.ss := by
    unfold State.hsGone
    refine (State.mirLocal_ss φ h).trans ?_
    rw [(State.hsMod_fr ..).ss rfl, (State.patIdle_fr ..).ss rfl, (State.hsState_fr ..).ss rfl]
    exact congrArg φ ((State.unreset_fr ..).ss rfl)
  refine State.rootConf_congr ((State.hsGone_fr ..).plan rfl) ?_ ((State.hsGone_fr ..).holders rfl) (hss (·.hubs) fun _ _ => rfl)
    (hss (·.told) fun _ _ => rfl)
  exact (State.Knows.hsGone (m := s.fab.member) (l := s.fab.seen) ⟨rfl, rfl, fun _ => trivial⟩).member

/-! ## A DCP stall keeps its kind while its channel ramps, or is shed -/

/-- Stall n presents kind v of BC 1.2, no change holds its VBUS off, and the plan gives it DCP. -/
structure State.Dcp (n v : Nat) (s : State) : Prop where
  bc : s.g (HSH_PORT.BC n) = v
  hold : (s.ch n).bcHold = false
  flag : s.stallFlag n 2 = true

theorem get_chMod_keep {α : Type} (φ : Chan → α) {g : Chan → Chan} (m k : Nat) (hg : ∀ x, φ (g x) = φ x := by intro x; rfl) :
    φ ((s.chMod m g).ch k) = φ (s.ch k) := by
  unfold State.ch State.chMod vmod
  show φ (vat (vset s.chan m (g (vat s.chan m))) k) = _
  rw [vat_vset]
  split
  next h => rw [h.1]; exact hg _
  · rfl

theorem State.stallFlag_congr {b : Nat} (hplan : t.plan = s.plan) (hmember : t.fab.member = s.fab.member) : t.stallFlag n b = s.stallFlag n b := by
  rw [State.stallFlag, State.stallFlag, State.stallE, State.stallE, hplan, show t.member = s.member from hmember]

theorem HSH_PORT.addr_inj {m : Nat} (hn : n < 15) (h : m ≠ n) : HSH_PORT.addr m ≠ HSH_PORT.addr n := by
  unfold HSH_PORT.addr
  rw [if_pos hn]
  split <;> omega

end

namespace State.Dcp
variable {n v : Nat} {s t : State}

/-- What leaves the BC field, the hold, the plan and the member number. -/
theorem of (hbc : t.g (HSH_PORT.BC n) = s.g (HSH_PORT.BC n)) (hhold : (t.ch n).bcHold = (s.ch n).bcHold)
    (hplan : t.plan = s.plan) (hmember : t.fab.member = s.fab.member) (h : s.Dcp n v) : t.Dcp n v :=
  ⟨hbc.trans h.bc, hhold.trans h.hold, (State.stallFlag_congr hplan hmember).trans h.flag⟩

section
variable {m b : Nat} (hn : n < 15) (hf : Fr m b s t)
include hn hf

/-- A frame without HSH_PORT and the channels, of an operation that keeps the member number. -/
theorem fr_knows (hb : b.testBit 50 = false) (hany : b.testBit 196 = false) (hch : m.testBit 6 = false) (hplan : m.testBit 0 = false)
    (hk : ∀ k l, s.Knows k l → t.Knows k l) (h : s.Dcp n v) : t.Dcp n v :=
  h.of (g_kept (HSH_PORT.kept hn hf hb hany) rfl) (congrArg _ (hf.ch hch n)) (hf.plan hplan) (hk _ _ ⟨rfl, rfl, fun _ => trivial⟩).member

theorem fr (hb : b.testBit 50 = false) (hany : b.testBit 196 = false) (hch : m.testBit 6 = false) (hplan : m.testBit 0 = false)
    (hfab : m.testBit 18 = false) (h : s.Dcp n v) : t.Dcp n v :=
  fr_knows hn hf hb hany hch hplan (fun _ _ hk => hf.knows hfab hk) h

end

theorem p {f : Fld} {x : Nat} (hf : (s.p f x).g (HSH_PORT.BC n) = s.g (HSH_PORT.BC n)) (h : s.Dcp n v) : (s.p f x).Dcp n v :=
  h.of hf rfl rfl rfl

theorem when {c : Bool} {g : State → State} (hg : ∀ u : State, u.Dcp n v → (g u).Dcp n v) (h : s.Dcp n v) :
    (s.when c g).Dcp n v := when_keeps hg h

theorem each {ns : List Nat} {g : Nat → State → State} (hg : ∀ m (u : State), u.Dcp n v → (g m u).Dcp n v) (h : s.Dcp n v) :
    (s.each ns g).Dcp n v := each_keeps hg ns s h

theorem ite {c : Prop} [Decidable c] (hs : s.Dcp n v) (ht : t.Dcp n v) : (if c then s else t).Dcp n v := by split <;> assumption

theorem chMod {m : Nat} {g : Chan → Chan} (hg : ∀ x, (g x).bcHold = x.bcHold := by intro x; rfl) (h : s.Dcp n v) :
    (s.chMod m g).Dcp n v := of (s := s) rfl (get_chMod_keep (·.bcHold) m n hg) rfl rfl h

theorem withFlt {x} (h : s.Dcp n v) : (s.withFlt x).Dcp n v := of (s := s) rfl rfl rfl rfl h

variable (hn : n < 15)
include hn

/-- A field of another register is written. -/
theorem far {f : Fld} {x : Nat} (hf : HasReg (2 ^ 196 - 1 - 2 ^ 50) f.addr) (h : s.Dcp n v) :
    (s.p f x).Dcp n v := fr hn (Fr.p (m := 0) hf (Fr.refl _ _ _)) rfl rfl rfl rfl rfl h

theorem farHw {f : Fld} (hf : HasReg (2 ^ 196 - 1 - 2 ^ 50) f.addr) (h : s.Dcp n v) :
    (s.hw f).Dcp n v := fr hn (Fr.hw (m := 0) hf (Fr.refl _ _ _)) rfl rfl rfl rfl rfl h

theorem gateOff {m : Nat} (h : s.Dcp n v) : (s.gateOff m).Dcp n v := by
  refine h.of (g_kept (HSH_PORT.kept hn (State.gateOff_fr ..) rfl rfl) rfl) ?_ ((State.gateOff_fr ..).plan rfl)
    (congrArg _ ((State.gateOff_fr ..).fab rfl))
  unfold State.gateOff
  exact when_keeps (P := fun z : State => (z.ch n).bcHold = _) (fun _ h => h) (get_chMod_keep (·.bcHold) m n)

theorem switchOff {m : Nat} (h : s.Dcp n v) : (s.switchOff m).Dcp n v := by
  unfold State.switchOff
  exact when (fun _ h => far hn (PPW_STATUS.reg rfl) h) (h.gateOff hn)

theorem mirLocal {m : Nat} {f : PortStat → PortStat} (h : s.Dcp n v) : (s.mirLocal m f).Dcp n v :=
  h.fr_knows hn (State.mirLocal_fr ..) rfl rfl rfl rfl fun _ _ hk => hk.mirLocal

theorem ocReport {m : Nat} (h : s.Dcp n v) : (s.ocReport m).Dcp n v := chMod (h := h.mirLocal hn)

theorem ssLink {m st : Nat} (h : s.Dcp n v) : (s.ssLink m st).Dcp n v :=
  h.fr_knows hn (State.ssLink_fr ..) rfl rfl rfl rfl fun _ _ hk => hk.ssLink

theorem hsState {m st : Nat} (h : s.Dcp n v) : (s.hsState m st).Dcp n v := by
  unfold State.hsState
  exact fr hn (State.linkJudge_fr ..) rfl rfl rfl rfl rfl <| fr hn (State.linkJudge_fr ..) rfl rfl rfl rfl rfl <|
    h.p (g_p_beside _ _ rfl)

theorem dataOff {m : Nat} (h : s.Dcp n v) : (s.dataOff m).Dcp n v := by
  unfold State.dataOff
  exact when (fun _ h => h.hsState hn) (h.ssLink hn)

/-- CDP is judged on other stalls only: the plan gives this one DCP. -/
theorem cdpStall {m : Nat} (h : s.Dcp n v) : (s.cdpStall m).Dcp n v := by
  unfold State.cdpStall
  by_cases hm : m = n
  · rw [when_of_not _ (by rw [hm, h.flag, Bool.not_true, Bool.and_false])]
    exact h
  · exact when (fun _ h => h.p (g_p_ne _ _ (HSH_PORT.addr_inj hn hm).symm)) h

theorem cdpJudge {slot : Nat} (h : s.Dcp n v) : (s.cdpJudge slot).Dcp n v := by
  unfold State.cdpJudge
  exact each (fun _ _ h => h.cdpStall hn) h

theorem defaultPower {slot : Nat} (h : s.Dcp n v) : (s.defaultPower slot).Dcp n v := by
  unfold State.defaultPower
  exact each (fun _ _ h => chMod (h := h)) (fr hn (Fr.withHs (m := 2 ^ 14) (b := 0) rfl (Fr.refl _ _ _)) rfl rfl rfl rfl rfl h)

theorem engState {e st : Nat} (h : s.Dcp n v) : (s.engState e st).Dcp n v :=
  h.fr_knows hn (State.engState_fr ..) rfl rfl rfl rfl fun _ _ hk => hk.engState

theorem tellUp {slot : Nat} (h : s.Dcp n v) : (s.tellUp slot).Dcp n v :=
  h.fr_knows hn (State.tellUp_fr ..) rfl rfl rfl rfl fun _ _ hk => hk.tellUp

theorem disconnectHost {u : Nat} (h : s.Dcp n v) : (s.disconnectHost u).Dcp n v := by
  unfold State.disconnectHost
  have hparts {t : State} (h : t.Dcp n v) (x y z) : (((t.withSs x).withHs y).withPdc z).Dcp n v := of (s := t) rfl rfl rfl rfl h
  refine when (fun t h => ?_) (of (s := (((s.ssLink (15 + u) 4).p (TKR_FUNC.STATE u) 0).p (TKR_FUNC.ADDR u) 0).p (TKR_FUNC.RWAKE u) 0)
    rfl rfl rfl rfl <| far hn (TKR_FUNC.reg rfl) <| far hn (TKR_FUNC.reg rfl) <| far hn (TKR_FUNC.reg rfl) <| h.ssLink hn)
  have h : (t.p (UPP_PADDOCK.STATE u) 2).Dcp n v := far hn (UPP_PADDOCK.reg rfl) h
  dsimp only
  split
  · exact h
  · exact tellUp hn <| cdpJudge hn <| defaultPower hn <| each (fun _ _ h => engState hn <| far hn (HSH_ENG.reg rfl) h) <| hparts h ..

theorem powerDown {m : Nat} (h : s.Dcp n v) : (s.powerDown m).Dcp n v := by
  unfold State.powerDown
  have h1 : (((s.chMod m fun c => { c with attached := false }).switchOff m).vconnOff m).Dcp n v :=
    fr hn (State.vconnOff_fr ..) rfl rfl rfl rfl rfl <| switchOff hn <| chMod (h := h)
  have h2 := fr hn (State.dropKeepAlive_fr _ m false) rfl rfl rfl rfl rfl <| fr hn (State.endContract_fr _ m) rfl rfl rfl rfl rfl h1
  have h3 := fr hn (State.setLimit_fr _ m) rfl rfl rfl rfl rfl <| far (f := TCP_PORT.PD_REV m) (x := 0) hn (TCP_PORT.reg rfl) <|
    far (f := TCP_PORT.HR_COUNT m) (x := 0) hn (TCP_PORT.reg rfl) <| far (f := PPW_STATUS.SINK m) (x := 0) hn (PPW_STATUS.reg rfl) <|
    far (f := TCP_PORT.DATA_ON m) (x := 0) hn (TCP_PORT.reg rfl) <| far (f := TCP_PORT.CONTRACT m) (x := 0) hn (TCP_PORT.reg rfl) h2
  exact fr hn (State.tcMod_fr ..) rfl rfl rfl rfl rfl <| fr hn (Fr.setWord (m := 0) (b := 2 ^ 196 - 1 - 2 ^ 50) (TCP_CABLE.reg rfl) (Fr.refl _ _ _)) rfl rfl rfl rfl rfl h3

theorem glkOff {k : Nat} (h : s.Dcp n v) : (s.glkOff k).Dcp n v :=
  h.fr_knows hn (State.glkOff_fr ..) rfl rfl rfl rfl fun _ _ hk => hk.glkOff

theorem portReaction {m : Nat} {power : Bool} (h : s.Dcp n v) : (s.portReaction m power).Dcp n v := by
  unfold State.portReaction
  have h := when (c := ((s.switchOff m).dataOff m).hasCC m) (g := fun s => (s.endContract m).vconnOff m)
    (fun _ h => fr hn (State.vconnOff_fr ..) rfl rfl rfl rfl rfl <| fr hn (State.endContract_fr ..) rfl rfl rfl rfl rfl h)
    ((h.switchOff hn (m := m)).dataOff hn (m := m))
  exact ite (h.disconnectHost hn) <| ite (h.ocReport hn) (h.mirLocal hn)

theorem reactPort {src q : Nat} (h : s.Dcp n v) : (s.reactPort src q).Dcp n v := by
  unfold State.reactPort
  refine ite h ?_
  split
  · split
    · exact h.portReaction hn
    · exact h
  · exact ite (when (fun _ h => fr hn (State.attempt_fr ..) rfl rfl rfl rfl rfl h) (h.glkOff hn)) h
  · exact ite (each (fun _ _ h => h.portReaction hn) h) h
  · exact h

theorem safeOutputs (h : s.Dcp n v) : s.safeOutputs.Dcp n v := by
  unfold State.safeOutputs
  refine each (fun _ _ h => fr hn (State.muxSafe_fr ..) rfl rfl rfl rfl rfl (h.disconnectHost hn)) <|
    each (fun _ _ h => h.glkOff hn) <| each (fun m u h => ?_) h
  exact when (fun _ h => fr hn (State.ccState_fr ..) rfl rfl rfl rfl rfl <| far hn (TCP_PORT.reg rfl) <| h.powerDown hn) <|
    (h.switchOff hn).dataOff hn

theorem reactChip {src sev : Nat} (h : s.Dcp n v) : (s.reactChip src sev).Dcp n v := by
  unfold State.reactChip
  have cause {u : State} {c : Bool} (h : u.Dcp n v) :
      ((((u.when c fun s => s.p TOP_MODE.SAFE_CAUSE src).p FLT_STATUS.CAUSE src).p FLT_STATUS.CAUSE_SEV sev).p
        FLT_STATUS.CAUSE_VALID 1).Dcp n v :=
    far hn (FLT_STATUS.reg rfl) <| far hn (FLT_STATUS.reg rfl) <| far hn (FLT_STATUS.reg rfl) <|
      when (fun _ h => far hn (TOP_MODE.reg rfl) h) h
  refine ite h <| ite (ite ((cause h).withFlt) h) ?_
  refine when (fun _ h => h.withFlt) <| when (fun _ h => fr hn (State.setMode_fr ..) rfl rfl rfl rfl rfl <|
    far hn (TOP_MODE.reg rfl) <| far hn (FLT_STATUS.reg rfl) h) ?_
  refine when (fun _ h => far hn (FLT_PINS.reg rfl) <| far hn (FLT_PINS.reg rfl) <| far hn (FLT_STATUS.reg rfl) h) <|
    cause <| safeOutputs hn <| when (fun u h => of (s := u) rfl rfl rfl rfl h) (h.withFlt)

theorem raise {src q : Nat} (h : s.Dcp n v) : (s.raise src q).Dcp n v := by
  unfold State.raise
  have h (c c' : Bool) : ((((((s.setSticky src true).when c fun s => s.p (FLT_QUAL.FIRST src) q).p (FLT_QUAL.LAST src) q).incSat
      (FLT_QUAL.COUNT src)).record 0 0x03 4 [src + s.severity src * 2^8 + q * 2^16]).when c' fun s =>
        ((s.withPdc { s.pdc with faultHeld := true }).mark (.raised 0 dMGT)).judge dMGT 0).Dcp n v :=
    when (fun u h => fr hn (State.judge_fr ..) rfl rfl rfl rfl rfl <| of (s := u) rfl rfl rfl rfl h) <|
      fr hn (State.record_fr ..) rfl rfl rfl rfl rfl <| far hn (FLT_QUAL.reg rfl) <| far hn (FLT_QUAL.reg rfl) <|
      when (fun _ h => far hn (FLT_QUAL.reg rfl) h) <| fr hn (State.setSticky_fr ..) rfl rfl rfl rfl rfl h
  exact ite (h _ _) <| ite ((h _ _).reactPort hn) ((h _ _).reactChip hn)

theorem tripChannel {m on : Nat} {e : Fld} (he : HasReg (2 ^ 196 - 1 - 2 ^ 50) e.addr) (h : s.Dcp n v) : (s.tripChannel m e on).Dcp n v := by
  unfold State.tripChannel
  refine fr hn (State.pmu_fr ..) rfl rfl rfl rfl rfl <| when (fun _ h => fr hn (State.vconnOff_fr ..) rfl rfl rfl rfl rfl <|
    fr hn (State.endContract_fr ..) rfl rfl rfl rfl rfl h) ?_
  have h := far (f := PPW_RETRY.COUNT m) (x := min 31 (((s.hw e).gateOff m).g (PPW_RETRY.COUNT m) + 1)) hn (PPW_RETRY.reg rfl) <|
    gateOff (m := m) hn <| h.farHw hn he
  refine ite ?_ ?_
  · exact farHw hn (PPW_EVT.reg rfl) <| far hn (PPW_STATUS.reg rfl) h
  · exact far hn (PPW_RETRY.reg rfl) <| far hn (PPW_STATUS.reg rfl) <| chMod (h := h)

theorem tryRamp {m : Nat} (h : s.Dcp n v) : (s.tryRamp m).Dcp n v := by
  unfold State.tryRamp State.lifeShed State.startRamp
  refine ite (ite (fr hn (State.wakeBy_fr ..) rfl rfl rfl rfl rfl h) (ite ?_ ?_)) (ite (far hn (PPW_STATUS.reg rfl) h) h)
  · exact raise hn <| ocReport hn <| far hn (BUD_PORT.reg rfl) <| tripChannel hn (PPW_EVT.reg rfl) <|
      h.farHw hn (BUD_EVT.reg rfl)
  · exact far hn (BUD_PORT.reg rfl) <| far hn (BUD_PORT.reg rfl) <| far hn (PPW_STATUS.reg rfl) <|
      far hn (PPW_STATUS.reg rfl) <| chMod (h := h)

end State.Dcp

/-! ## A pair that carries nothing of this chip, and the change of a stall to DCP -/

theorem each_nil (s : State) (f : Nat → State → State) {l : List Nat} (h : l = []) : s.each l f = s := by rw [h]; rfl

theorem each_pair (s : State) (f : Nat → State → State) (a b : Nat) : s.each [a, b] f = f b (f a s) := rfl

theorem engines_of_carry {s t : State} {k : Nat} (hr : ∀ e < 4, t.g (HSH_ENG.ROLE e) = s.g (HSH_ENG.ROLE e) ∧ t.g (HSH_ENG.UPSTREAM e) = s.g (HSH_ENG.UPSTREAM e))
    (h : ((List.range 4).all fun e => s.g (HSH_ENG.ROLE e) = 0 || s.g (HSH_ENG.UPSTREAM e) ≠ 4 + k) = true) :
    ((List.range 4).filter fun e => t.g (HSH_ENG.ROLE e) ≠ 0 && t.g (HSH_ENG.UPSTREAM e) = 4 + k) = [] := by
  refine List.filter_eq_nil_iff.2 fun e he => ?_
  obtain ⟨h1, h2⟩ := hr e (List.mem_range.1 he)
  have := List.all_eq_true.1 h e he
  rw [h1, h2]
  simp only [Bool.or_eq_true, decide_eq_true_eq, Bool.and_eq_true] at this ⊢
  rintro ⟨hr, hu⟩
  exact this.elim hr (fun hne => hne hu)

/-- With the kind the stall already has, the judgement of its kind changes nothing. -/
theorem State.bcJudge_of_same {s : State} {n : Nat} (htyp : s.typ n = 1 ∨ s.typ n = 5) (hflag : s.stallFlag n 2 = true)
    (h : s.g (HSH_PORT.BC n) = if s.rootConf n then 0 else 2) : s.bcJudge n = s := by
  have ht : ¬((s.typ n ≠ 1 && s.typ n ≠ 5) = true) := by
    rcases htyp with h | h <;> rw [h] <;> decide
  unfold State.bcJudge
  dsimp only
  rw [if_neg ht, if_pos hflag, if_pos]
  change (vat s.hs.moving n || s.g (HSH_PORT.BC n) = 3 || s.g (HSH_PORT.BC n) = if s.rootConf n then 0 else 2) = true
  rw [decide_eq_true h, Bool.or_true]

/-- The answer, the start of the upstream link or the news of it leave TCP_DP (R115). -/
theorem word_upLinked (s : State) (u : Fin 2) (c : Bool) (m : PdMsg) (l : List Nat) (b : Bool) (y : Option Nat) :
    (if b then (((s.when c fun s => s.pdSend (15 + u) m l).p (STL_LANE.STATE (laneIx (15 + u) false)) 0).p
        (STL_LANE.STATE (laneIx (15 + u) true)) 0).ssLink (15 + u) 5
      else (y.map fun y => (s.when c fun s => s.pdSend (15 + u) m l).tellUp y).getD (s.when c fun s => s.pdSend (15 + u) m l)).word
        (TCP_DP.addr u) = s.word (TCP_DP.addr u) := by
  have hc : (s.when c fun s => s.pdSend (15 + u) m l).word (TCP_DP.addr u) = s.word (TCP_DP.addr u) :=
    when_keeps (P := fun z => z.word (TCP_DP.addr u) = _) (fun _ hz => (TCP_DP.kept u.isLt (State.pdSend_fr ..) rfl rfl).trans hz) rfl
  refine ite_keeps (P := fun z : State => z.word (TCP_DP.addr u) = _) ?_ ?_
  · refine (TCP_DP.kept u.isLt (State.ssLink_fr ..) rfl rfl).trans ?_
    exact (TCP_DP.kept u.isLt (Fr.p (m := 0) (b := 2 ^ 192) (STL_LANE.reg rfl) <| Fr.p (STL_LANE.reg rfl) <| Fr.refl _ _ _) rfl rfl).trans hc
  · cases y with
    | none => exact hc
    | some y => exact (TCP_DP.kept u.isLt (State.tellUp_fr ..) rfl rfl).trans hc

theorem State.hsGone_bc {s : State} {n : Nat} (hn : n < 15) : (s.hsGone n).g (HSH_PORT.BC n) = s.g (HSH_PORT.BC n) := by
  unfold State.hsGone State.hsState
  refine g_kept (HSH_PORT.kept hn (State.mirLocal_fr ..) rfl rfl) <| g_kept (HSH_PORT.kept hn (State.hsMod_fr ..) rfl rfl) <|
    g_kept (HSH_PORT.kept hn (State.patIdle_fr ..) rfl rfl) <| g_kept (HSH_PORT.kept hn (State.linkJudge_fr ..) rfl rfl) <|
    g_kept (HSH_PORT.kept hn (State.linkJudge_fr ..) rfl rfl) <| (g_p_beside _ _ rfl).trans <| (g_p_beside _ _ rfl).trans <|
    g_kept (HSH_PORT.kept hn (State.unreset_fr ..) rfl rfl) rfl

theorem State.unreset_bcSwitch {s : State} {n : Nat} (hn : n < 15) :
    (s.unreset n).on (HSH_PORT_EVT.BC_SWITCH n) = s.on (HSH_PORT_EVT.BC_SWITCH n) := by
  unfold State.unreset
  refine on_when (fun u hu => ?_) rfl
  dsimp only
  have hu := (on_p_beside (f := HSH_PORT_EVT.RESET_DONE n) u 0 rfl).trans hu
  split
  · exact on_regs (State.withPort_regs ..) hu
  · exact on_kept (HSH_PORT_EVT.kept hn (State.mirMod_fr ..) rfl rfl) <|
      each_keeps (P := fun z : State => z.on (HSH_PORT_EVT.BC_SWITCH n) = _)
        (fun _ _ hz => on_kept (HSH_PORT_EVT.kept hn (State.lkMod_fr ..) rfl rfl) hz) _ _ <| on_regs (State.withPort_regs ..) hu

theorem State.hsGone_bcSwitch {s : State} {n : Nat} (hn : n < 15) :
    (s.hsGone n).on (HSH_PORT_EVT.BC_SWITCH n) = s.on (HSH_PORT_EVT.BC_SWITCH n) := by
  unfold State.hsGone
  refine on_kept (HSH_PORT_EVT.kept hn (State.mirLocal_fr ..) rfl rfl) <| on_kept (HSH_PORT_EVT.kept hn (State.hsMod_fr ..) rfl rfl) <|
    on_kept (HSH_PORT_EVT.kept hn (State.patIdle_fr ..) rfl rfl) <| on_kept (HSH_PORT_EVT.kept hn (State.hsState_fr ..) rfl rfl) <|
    (on_p_far _ _ (HSH_PORT.ix _ hn) (HSH_PORT_EVT.ix _ hn)).trans <| State.unreset_bcSwitch hn

theorem fsUpstreamConnect_complete :
    ∀ (u : Fin 2) slot e (s : State), s.slotOf u = some slot → s.rootEngine slot = some e →
    Does (.fsUpstreamConnect u) s fun t => t.g (HSH_ENG.SPEED e) = 1 ∧ t.g (HSH_ENG.STATE e) = 2 := by
  intro u slot e s hslot hroot
  refine does_of rfl rfl ?_
  dsimp only
  rw [hslot]
  dsimp only
  rw [hroot]
  dsimp only
  have he := rootEngine_lt hroot
  refine ⟨?_, ?_⟩
  · refine g_when (fun _ h => (g_hw_far _ HSH_EVT.ix (HSH_ENG.ix _ he)).trans h) <| g_kept (HSH_ENG.kept he (State.tellUp_fr ..) rfl rfl) ?_
    exact (engState_speed he 2).trans (g_p_lit rfl rfl)
  · refine g_when (fun _ h => (g_hw_far _ HSH_EVT.ix (HSH_ENG.ix _ he)).trans h) <| g_kept (HSH_ENG.kept he (State.tellUp_fr ..) rfl rfl) ?_
    exact engState_state he (by decide)

theorem carryLost_outOfService :
    ∀ (k : Fin 4) (cut : Bool) (s : State), s.g (HSH_CARRY.STATE k) ∉ [1, 3] → s.g (HSH_CARRY.BUS k) ≠ 0 →
    ((List.range 4).all fun e => s.g (HSH_ENG.ROLE e) = 0 || s.g (HSH_ENG.UPSTREAM e) ≠ 4 + k.val) = true →
    Does (.carryLost k cut) s fun t => t.g (HSH_CARRY.STATE k) = s.g (HSH_CARRY.STATE k) ∧
    t.mirror = s.mirror.map fun (q : MirPos) => if q.via = k.val then { q with st := q.st.hsCut } else q := by
  intro k cut s hst hbus hengines
  have hst1 : s.g (HSH_CARRY.STATE k) ≠ 1 := fun h => hst (by rw [h]; decide)
  have hst3 : s.g (HSH_CARRY.STATE k) ≠ 3 := fun h => hst (by rw [h]; decide)
  refine does_of rfl (if_neg (by simp [hst3, hbus])) ?_
  dsimp only
  rw [when_of_not _ (decide_eq_false hst1), each_nil]
  · refine ⟨g_when (fun _ h => h) rfl, ?_⟩
    cases cut <;> rfl
  · refine engines_of_carry (fun e he => ?_) hengines
    cases cut <;> exact ⟨rfl, rfl⟩

theorem carryLost_complete :
    ∀ (k : Fin 4) (cut : Bool) (s : State), s.g (HSH_CARRY.STATE k) = 1 → s.g (HSH_CARRY.BUS k) ≠ 0 →
    ((List.range 4).all fun e => (((s.p (HSH_CARRY.STATE k) 2).linkJudge dFAB).raise 37 k).g (HSH_ENG.ROLE e) = 0 || (((s.p (HSH_CARRY.STATE k) 2).linkJudge dFAB).raise 37 k).g (HSH_ENG.UPSTREAM e) ≠ 4 + k.val) = true →
    Does (.carryLost k cut) s fun t =>
    (let v := ((s.p (HSH_CARRY.STATE k) 2).linkJudge dFAB).raise 37 k; let w := if cut then v.out (.line "INVALID_EOP" [k.val]) else v; t = w.withMirror (w.mirror.map fun (q : MirPos) => if q.via = k.val then { q with st := q.st.hsCut } else q)) := by
  intro k cut s hst hbus hengines
  refine does_of rfl (if_neg (by simp [hst, hbus])) ?_
  dsimp only
  rw [when_of _ (decide_eq_true hst), each_nil]
  · cases cut <;> rfl
  · refine engines_of_carry (fun e he => ?_) hengines
    cases cut <;> exact ⟨rfl, rfl⟩

theorem carryReceiverActivity_complete :
    ∀ (k : Fin 4) (s : State), s.domOn dFAB = false → Does (.carryReceiverActivity k) s fun t =>
    t = (if (s.activity dFAB).domOn dHSB then s.activity dFAB else (s.activity dFAB).activity dHSB) := by
  intro k s hoff
  refine does_of rfl rfl ?_
  rw [each_pair]
  have hup : (s.when (!s.domOn dFAB) fun s => s.activity dFAB) = s.activity dFAB := when_of _ (by rw [hoff]; rfl)
  rw [hup]
  cases h : (s.activity dFAB).domOn dHSB with
  | false => exact (when_of _ rfl).trans (if_neg (by decide)).symm
  | true => exact (when_of_not _ rfl).trans (if_pos rfl).symm

theorem upstreamU3Entry_complete :
    ∀ (u : Fin 2) slot (s : State), s.slotOf u = some slot → s.g (SSH_PORT.LINK (15 + u)) ≤ 2 →
    Does (.upstreamU3Entry u) s fun t => t.g (SSH_PORT.LINK (15 + u)) = 3 := by
  intro u slot s hslot hlink
  have hactive : [0, 1, 2].contains (s.g (SSH_PORT.LINK (15 + u))) = true := by
    have : s.g (SSH_PORT.LINK (15 + u)) = 0 ∨ s.g (SSH_PORT.LINK (15 + u)) = 1 ∨ s.g (SSH_PORT.LINK (15 + u)) = 2 := by omega
    rcases this with h | h | h <;> rw [h] <;> rfl
  refine does_of rfl rfl ?_
  dsimp only
  rw [hslot]
  dsimp only
  rw [if_neg (by rw [hactive]; decide)]
  have hu : 15 + u.val < 17 := by omega
  exact g_kept (SSH_PORT.kept hu (State.upJudge_fr ..) rfl rfl) (ssLink_link hu (by decide))

theorem widthChangeStepDone_first :
    ∀ (u : Fin 2) (s : State), (vat s.dp u).step = 1 → Does (.widthChangeStepDone u) s fun t => t.g (TCP_DP.MUX u) = 0 ∧
    (vat t.dp u).step = 2 := by
  intro u s hstep
  refine does_of rfl rfl ?_
  dsimp only
  rw [hstep]
  generalize (s.ssLink (15 + u) 4).dropUpstream u = w
  refine ⟨g_regs (State.withDp_regs ..) <| g_p_lit rfl rfl, ?_⟩
  exact congrArg DpS.step (vat_vmod _ _ u.isLt)

theorem widthChangeStepDone_second :
    ∀ (u : Fin 2) (s : State), (vat s.dp u).step = 2 → Does (.widthChangeStepDone u) s fun t => (vat t.dp u).step = 3 := by
  intro u s hstep
  refine does_of rfl rfl ?_
  dsimp only
  rw [hstep]
  exact congrArg DpS.step (vat_vmod _ _ u.isLt)

theorem widthChangeStepDone_third :
    ∀ (u : Fin 2) (s : State), (vat s.dp u).step = 3 → Does (.widthChangeStepDone u) s fun t =>
    t.g (TCP_DP.PINS u) = (vat s.dp u).wanted % 2 ^ (TCP_DP.PINS u).width ∧
    t.g (TCP_DP.STATE u) = (if (vat s.dp u).wanted = 0 then 0 else 3) ∧ (vat t.dp u).step = 0 := by
  intro u s hstep
  refine does_of rfl rfl ?_
  dsimp only
  rw [hstep]
  have hpins := g_p (f := TCP_DP.PINS u) s (vat s.dp u).wanted rfl
  generalize hw : ((s.p (TCP_DP.PINS u) (vat s.dp u).wanted).setMux (15 + u)).p (TCP_DP.STATE u) (if (vat s.dp u).wanted = 0 then 0 else 3) = w
  have hwp : w.g (TCP_DP.PINS u) = (vat s.dp u).wanted % 2 ^ (TCP_DP.PINS u).width := by
    rw [← hw]
    refine (g_p_beside _ _ rfl).trans ?_
    unfold State.setMux
    exact g_when (fun v hv => (g_p_beside _ _ rfl).trans hv) hpins
  have hws : w.g (TCP_DP.STATE u) = if (vat s.dp u).wanted = 0 then 0 else 3 := by
    rw [← hw]
    split
    · exact g_p_lit rfl rfl
    · exact g_p_lit rfl rfl
  refine ⟨?_, ?_, ?_⟩
  · exact g_kept (word_upLinked w u ..) hwp
  · exact g_kept (word_upLinked w u ..) hws
  · exact congrArg DpS.step (vat_vmod _ _ u.isLt)

theorem bc12SwitchStart_dcp :
    ∀ (n : Stall) (s : State), vat s.hs.moving n = false → (s.typ n = 1 ∨ s.typ n = 5) → s.stallFlag n 2 = true → s.g (HSH_PORT.BC n) ≠ 3 →
    (s.g (HSH_PORT.BC n) ≠ (if (s.holderOf n).any fun y => (s.upKnown y).conf then 0 else 2)) →
    Does (.bc12SwitchStart n) s fun t => t.g (HSH_PORT.BC n) = 3 ∧
    vat t.hs.bcTarget n = (if (s.holderOf n).any fun y => (s.upKnown y).conf then 0 else 2) := by
  intro n s hmoving htyp hflag hbc hwant
  have ht : ¬((s.typ n ≠ 1 && s.typ n ≠ 5) = true) := by
    rcases htyp with h | h <;> rw [h] <;> decide
  refine does_of rfl ((if_neg ht).trans ((if_pos hflag).trans (if_neg ?_))) ⟨?_, ?_⟩
  · rw [hmoving, decide_eq_false hbc, decide_eq_false hwant]
    decide
  · exact g_kept (HSH_PORT.kept n.isLt (State.switchOff_fr ..) rfl rfl) <|
      g_kept (HSH_PORT.kept n.isLt (State.chMod_fr ..) rfl rfl) <| g_kept (HSH_PORT.kept n.isLt (State.hsMod_fr ..) rfl rfl) <|
      g_p_lit rfl rfl
  · rw [(State.switchOff_fr ..).hs rfl]
    exact vat_vset_same _ _ n.isLt

theorem bc12SwitchStart_cdp :
    ∀ (n : Stall) (s : State), (s.typ n = 1 ∨ s.typ n = 5) → s.stallFlag n 2 = false → s.stallFlag n 1 = true →
    Does (.bc12SwitchStart n) s fun t => t.g (HSH_PORT.BC n) = b2n ((s.holderOf n).any fun y => (s.upKnown y).conf) := by
  intro n s htyp hflag2 hflag1
  have ht : ¬((s.typ n ≠ 1 && s.typ n ≠ 5) = true) := by
    rcases htyp with h | h <;> rw [h] <;> decide
  have hc : ([1, 5].contains (s.typ n) && s.stallFlag n 1 && !s.stallFlag n 2) = true := by
    rcases htyp with h | h <;> rw [h, hflag1, hflag2] <;> decide
  refine does_of rfl ((if_neg ht).trans ((if_neg (by rw [hflag2]; decide)).trans (when_of _ hc))) ?_
  exact (g_p _ _ rfl).trans (by cases (s.holderOf n).any fun y => (s.upKnown y).conf <;> rfl)

theorem bc12SwitchWaitEnd_complete :
    ∀ (n : Stall) (s : State), s.g (HSH_PORT.BC n) = 3 → (s.ch n).vbusLow = true → s.stallFlag n 2 = true →
    (s.typ n = 1 ∨ s.typ n = 5) → vat s.hs.bcTarget n = (if (s.holderOf n).any fun y => (s.upKnown y).conf then 0 else 2) →
    Does (.bc12SwitchWaitEnd n) s fun t => t.g (HSH_PORT.BC n) = vat s.hs.bcTarget n % 4 ∧
    t.on (HSH_PORT_EVT.BC_SWITCH n) = true ∧ (t.ch n).bcHold = false := by
  intro n s hbc hvbus hflag htyp htarget
  refine does_of rfl (when_of _ (by rw [hbc, hvbus]; rfl)) ?_
  dsimp only
  generalize hu : ((s.p (HSH_PORT.BC n) (vat s.hs.bcTarget n)).hw (HSH_PORT_EVT.BC_SWITCH n)).when _ _ = u
  have hn := n.isLt
  have hsmall : vat s.hs.bcTarget n < 4 := by
    rw [htarget]
    split <;> decide
  have hubc : u.g (HSH_PORT.BC n) = vat s.hs.bcTarget n := by
    rw [← hu]
    refine g_when (fun v hv => (State.hsGone_bc hn).trans <| (g_hw_far _ (HSH_PORT_EVT.ix _ hn) (HSH_PORT.ix _ hn)).trans <|
      (g_p_beside _ _ rfl).trans hv) ?_
    exact (g_hw_far _ (HSH_PORT_EVT.ix _ hn) (HSH_PORT.ix _ hn)).trans (g_p_of_lt rfl hsmall)
  have hsw : u.on (HSH_PORT_EVT.BC_SWITCH n) = true := by
    rw [← hu]
    refine on_when (fun v hv => (State.hsGone_bcSwitch hn).trans <| (on_hw_beside _ rfl).trans <|
      (on_p_far _ _ (HSH_PORT.ix _ hn) (HSH_PORT_EVT.ix _ hn)).trans hv) (on_hw _ rfl rfl)
  have hconf : u.rootConf n = s.rootConf n := by
    rw [← hu]
    exact when_keeps (P := fun z => z.rootConf n = s.rootConf n) (fun v hv => (State.hsGone_rootConf n).trans <|
      Eq.trans (State.rootConf_congr (s := v) rfl rfl rfl rfl rfl) hv) (State.rootConf_congr rfl rfl rfl rfl rfl)
  have hplan : u.plan = s.plan := by
    rw [← hu]
    exact when_keeps (P := fun z => z.plan = _) (fun _ h => (congrArg (fun x => x) ((State.hsGone_fr ..).plan rfl)).trans h) <|
      rfl
  have hmember : u.fab.member = s.fab.member := by
    rw [← hu]
    exact when_keeps (P := fun z => z.fab.member = s.fab.member)
      (fun v hv => (State.Knows.hsGone (m := s.fab.member) (l := v.fab.seen) (State.Knows.hw <| State.Knows.p ⟨hv, rfl, fun _ => trivial⟩)).member) rfl
  have htyp' : (u.chMod n fun c => { c with bcHold := false }).typ n = s.typ n := by
    unfold State.typ
    rw [show (u.chMod n fun c => { c with bcHold := false }).plan = s.plan from hplan,
      show (u.chMod n fun c => { c with bcHold := false }).member = s.member from hmember]
  have hflag' : (u.chMod n fun c => { c with bcHold := false }).stallFlag n 2 = true := (State.stallFlag_congr hplan hmember).trans hflag
  have hsame : (u.chMod n fun c => { c with bcHold := false }).g (HSH_PORT.BC n)
      = if (u.chMod n fun c => { c with bcHold := false }).rootConf n then 0 else 2 :=
    hubc.trans (htarget.trans (by rw [show (u.chMod n fun c => { c with bcHold := false }).rootConf n = s.rootConf n from hconf]; rfl))
  rw [State.bcJudge_of_same (by rw [htyp']; exact htyp) hflag' hsame]
  have hdcp : ((u.chMod n fun c => { c with bcHold := false }).tryRamp n).Dcp n (vat s.hs.bcTarget n) :=
    State.Dcp.tryRamp hn ⟨hubc, get_chMod (·.bcHold) (by omega), hflag'⟩
  refine ⟨hdcp.bc.trans (Nat.mod_eq_of_lt hsmall).symm, ?_, hdcp.hold⟩
  exact on_kept (HSH_PORT_EVT.kept hn (State.tryRamp_fr ..) rfl rfl) hsw

theorem vdpSrcDetected_complete :
    ∀ (n : Stall) (s : State), s.g (HSH_PORT.BC n) = 1 → Does (.vdpSrcDetected n) s fun t =>
    .line "VDM_SRC" [n.val] ∈ t.outs := by
  intro n s hbc
  exact does_of rfl (when_of _ (decide_eq_true hbc)) List.mem_cons_self

/-- Settles O36: One clause per event; after a change of BC 1.2 kind the new kind stands, since it is the one judged anew and a ramp or a shed of LIFELINE leaves it. -/
theorem usb2EnginesComplete : Obligations.Usb2EnginesComplete := by
  unfold Obligations.Usb2EnginesComplete
  exact ⟨fsUpstreamConnect_complete, carryLost_outOfService, carryLost_complete, carryReceiverActivity_complete,
    upstreamU3Entry_complete, widthChangeStepDone_first, widthChangeStepDone_second, widthChangeStepDone_third,
    bc12SwitchStart_dcp, bc12SwitchStart_cdp, bc12SwitchWaitEnd_complete, vdpSrcDetected_complete⟩

end Sys2Proof.Machine

/-!
# The steps of BOOT
-/
namespace Sys2Proof.Machine

set_option Elab.async false

section
variable {s t : State} {w v : Word}

/-! ## The straps and the length of BOOT stand, whatever a plan's REGPRELOAD writes -/

/-- The words of TOP_STRAP and TOP_BOOT_TIME. -/
structure State.Strapped (w v : Word) (s : State) : Prop where
  strap : s.word TOP_STRAP.addr = w
  time : s.word TOP_BOOT_TIME.addr = v

theorem rowOf_strap : rowOf TOP_STRAP.addr = some
    ⟨0x00004, 0x4, 1, 1, .one .aon, false, 0, [⟨0, 2, .ro, 0, 3⟩, ⟨2, 1, .ro, 0, 1⟩, ⟨3, 3, .ro, 0, 7⟩, ⟨6, 1, .ro, 0, 1⟩, ⟨8, 1, .ro, 0, 1⟩]⟩ := by
  decide

theorem rowOf_bootTime : rowOf TOP_BOOT_TIME.addr = some
    ⟨0x00010, 0x4, 1, 1, .one .aon, false, 0, [⟨0, 16, .ro, 0, 65535⟩, ⟨16, 16, .ro, 0, 65535⟩]⟩ := by
  decide

/-- A write to a read-only register leaves its word. -/
theorem State.writeReg_strap_word (s : State) (m a : Nat) (x : Word) (ha : a = TOP_STRAP.addr ∨ a = TOP_BOOT_TIME.addr) :
    s.writeReg m a x = s.setWord a (s.word a) := by
  rcases ha with rfl | rfl
  · unfold State.writeReg
    rw [rowOf_strap]
    rfl
  · unfold State.writeReg
    rw [rowOf_bootTime]
    rfl

namespace State.Strapped

theorem fr {m b : Nat} (hf : Fr m b s t) (h183 : b.testBit 183 = false) (h186 : b.testBit 186 = false) (hany : b.testBit 196 = false)
    (h : s.Strapped w v) : t.Strapped w v :=
  ⟨(TOP_STRAP.kept hf h183 hany).trans h.strap, (TOP_BOOT_TIME.kept hf h186 hany).trans h.time⟩

theorem far {f : Fld} {x : Nat} (hf : HasReg (2 ^ 196 - 1 - 2 ^ 183 - 2 ^ 186) f.addr) (h : s.Strapped w v) : (s.p f x).Strapped w v :=
  fr (Fr.p (m := 0) hf (Fr.refl _ _ _)) rfl rfl rfl h

theorem regs (e : t.regs = s.regs) (h : s.Strapped w v) : t.Strapped w v :=
  ⟨by rw [State.word, e]; exact h.strap, by rw [State.word, e]; exact h.time⟩

theorem withGlk {x} (h : s.Strapped w v) : (s.withGlk x).Strapped w v := regs (s := s) rfl h

theorem withParts {x y : _} (h : s.Strapped w v) : ((s.withHolders x).withTt y).Strapped w v := regs (s := s) rfl h

theorem when {c : Bool} {g : State → State} (hg : ∀ u : State, u.Strapped w v → (g u).Strapped w v) (h : s.Strapped w v) :
    (s.when c g).Strapped w v := when_keeps hg h

theorem each {ns : List Nat} {g : Nat → State → State} (hg : ∀ m (u : State), u.Strapped w v → (g m u).Strapped w v)
    (h : s.Strapped w v) : (s.each ns g).Strapped w v := each_keeps hg ns s h

theorem ite {c : Prop} [Decidable c] (hs : s.Strapped w v) (ht : t.Strapped w v) : (if c then s else t).Strapped w v := by split <;> assumption

/-- Fields of other registers are cleared. -/
theorem clr {l : List Fld} (hl : ∀ f ∈ l, HasReg (2 ^ 196 - 1 - 2 ^ 183 - 2 ^ 186) f.addr) (h : s.Strapped w v) : (s.clr l).Strapped w v := by
  unfold State.clr
  induction l generalizing s with
  | nil => exact h
  | cons f l ih => exact ih (fun g hg => hl g (List.mem_cons_of_mem _ hg)) (far (hl f List.mem_cons_self) h)

theorem set {a : Nat} {x : Word} (ha : ¬(a = TOP_STRAP.addr ∨ a = TOP_BOOT_TIME.addr)) (h : s.Strapped w v) : (s.setWord a x).Strapped w v := by
  obtain ⟨h1, h2⟩ := not_or.1 ha
  exact ⟨(word_setWord_ne _ _ (Ne.symm h1)).trans h.strap, (word_setWord_ne _ _ (Ne.symm h2)).trans h.time⟩

theorem budXWrite {r : RegRow} {x : Word} (h : s.Strapped w v) : (s.budXWrite r x).Strapped w v := by
  have hs : (s.putReg r BUD_X_CTRL.addr x).Strapped w v := set (by decide) h
  exact ite (far (BUD_X_CTRL.reg rfl) <| far (BUD_X_CTRL.reg rfl) hs) hs

theorem writeChipReg {m a : Nat} {x : Word} {r : RegRow} (ha : ¬(a = TOP_STRAP.addr ∨ a = TOP_BOOT_TIME.addr)) (h : s.Strapped w v) :
    (s.writeChipReg m a x r).Strapped w v := by
  have hs : (s.putReg r a x).Strapped w v := set ha h
  unfold State.writeChipReg
  refine ite (each (fun _ _ h => fr (State.ppwClear_fr ..) rfl rfl rfl h) h) ?_
  refine ite (when (fun _ h => fr (State.restartBlocks_fr ..) rfl rfl rfl h) hs) ?_
  refine ite (fr (Fr.w1s (m := 0) (b := 2 ^ 196 - 1 - 2 ^ 183 - 2 ^ 186) (TLM_ECLR.reg rfl) (Fr.refl _ _ _)) rfl rfl rfl h) ?_
  refine ite (clr (by simp only [List.mem_cons, List.not_mem_nil, or_false, forall_eq_or_imp, forall_eq]; exact ⟨TLM_PEAK.reg rfl, TLM_PEAK.reg rfl⟩) h) ?_
  refine ite h.budXWrite ?_
  refine ite (fr (State.pdcCtrlWrite_fr ..) rfl rfl rfl h) ?_
  refine ite (fr (State.myVoteWrite_fr ..) rfl rfl rfl h) ?_
  refine ite (far (PDC_CFG.reg (n := dPPA) rfl) hs) <| ite (far (PDC_CFG.reg (n := dMGT) rfl) hs) <| ite (far (MBX_STATUS.reg rfl) hs) ?_
  refine ite (when (fun _ h => far (MBX_ASSIGN.reg rfl) h) hs) ?_
  refine ite (fr (State.lockWrite_fr ..) rfl rfl rfl h) ?_
  refine ite (each (fun k u h => ?_) hs) ?_
  · cases u.tackPos k with
    | none => exact h
    | some q => exact fr (State.tackPlace_fr u q) rfl rfl rfl h
  refine ite (set ha h) <| ite (set ha h) ?_
  refine ite (fr (State.fltClearWrite_fr ..) rfl rfl rfl h) ?_
  refine ite (fr (State.forceWrite_fr ..) rfl rfl rfl h) ?_
  refine ite (fr (State.invertWrite_fr ..) rfl rfl rfl h) ?_
  refine ite (when (fun _ h => fr (State.queueReset_fr ..) rfl rfl rfl h) hs) ?_
  refine ite (when (fun _ h => fr (State.pmuSet_fr ..) rfl rfl rfl <| fr (State.pmuHold_fr ..) rfl rfl rfl h)
    (set ha <| fr (State.pmuSelect_fr ..) rfl rfl rfl h)) ?_
  refine ite (set ha <| fr (State.pmuHold_fr ..) rfl rfl rfl h) ?_
  refine ite (fr (State.gpiOutWrite_fr ..) rfl rfl rfl h) ?_
  refine ite (fr (State.keyWrite_fr ..) rfl rfl rfl h) ?_
  exact ite (when (fun u h => regs (s := u) rfl h) h) hs

theorem writeReg {m a : Nat} {x : Word} (h : s.Strapped w v) : (s.writeReg m a x).Strapped w v := by
  by_cases ha : a = TOP_STRAP.addr ∨ a = TOP_BOOT_TIME.addr
  · rw [s.writeReg_strap_word m a x ha]
    have hword (b : Nat) : (s.setWord a (s.word a)).word b = s.word b := by
      by_cases hb : b = a
      · rw [hb, word_setWord_same]
      · rw [word_setWord_ne _ _ hb]
    exact ⟨(hword _).trans h.strap, (hword _).trans h.time⟩
  have hs (r : RegRow) : (s.putReg r a x).Strapped w v := set ha h
  have one {f : Fld} (hf : HasReg (2 ^ 196 - 1 - 2 ^ 183 - 2 ^ 186) f.addr) : (s.clr [f]).Strapped w v := far hf h
  have two {f g : Fld} (hf : HasReg (2 ^ 196 - 1 - 2 ^ 183 - 2 ^ 186) f.addr) (hg : HasReg (2 ^ 196 - 1 - 2 ^ 183 - 2 ^ 186) g.addr) :
      (s.clr [f, g]).Strapped w v := far hg (far hf h)
  unfold State.writeReg
  split
  · exact h
  next r hr =>
  refine ite (fr (State.mbxWrite_fr ..) rfl rfl rfl h) ?_
  refine ite (when (fun _ h => fr (State.snapYards_fr _) rfl rfl rfl h) <| fr (State.forceCoast_fr _) rfl rfl rfl (hs r)) ?_
  refine ite (when (fun _ h => fr (State.tmlOn_fr _) rfl rfl rfl h) (hs r)) ?_
  refine ite (fr (State.tmlCommand_fr ..) rfl rfl rfl (hs r)) ?_
  refine ite (ite h (hs r)) ?_
  refine ite (two (TML_STATUS.reg rfl) (TML_STATUS.reg rfl)) <| ite (two (SSH_DROPS.reg rfl) (SSH_DROPS.reg rfl)) <|
    ite (one (SSH_ITP.reg rfl)) <| ite (one (SSH_ITP_REGEN.reg rfl)) ?_
  refine ite (fr (State.setBankLow_fr _) rfl rfl rfl (hs r)) ?_
  refine ite (fr (State.setLimit_fr ..) rfl rfl rfl (hs r)) ?_
  refine ite (each (fun _ _ h => fr (State.linkJudge_fr ..) rfl rfl rfl h) (hs r)) ?_
  refine ite (far (PBF_USED.reg rfl) h) <| ite (two (PBF_ECC_COUNT.reg rfl) (PBF_ECC_COUNT.reg rfl)) <|
    ite (one (HSH_ORDERS.reg rfl)) <| ite (two (TTA_COUNT.reg rfl) (TTA_COUNT.reg rfl)) ?_
  refine ite (when (fun _ h => fr (State.ttCommand_fr ..) rfl rfl rfl <| far (TTA_CMD.reg rfl) h) h) ?_
  refine ite (each (fun _ _ h => fr (State.retrain_fr ..) rfl rfl rfl h) <|
    when (fun _ h => fr (State.trainLinks_fr _) rfl rfl rfl h) (hs r)) ?_
  refine ite (clr (by simp only [List.mem_cons, List.not_mem_nil, or_false, forall_eq_or_imp, forall_eq]; exact ⟨GLK_ERR.reg rfl, GLK_ERR.reg rfl, GLK_ERR.reg rfl⟩) h) ?_
  refine ite (each (fun _ _ h => fr (State.ringBell_fr ..) rfl rfl rfl h) (hs r)) ?_
  exact ite (one (DRV_FLOWS.reg rfl)) (h.writeChipReg ha)

theorem preload (h : s.Strapped w v) : s.preload.Strapped w v := by
  unfold State.preload
  exact foldl_keeps (P := fun z : State => z.Strapped w v) (fun _ _ h => h.writeReg) _ _ h

theorem applyPlan {p : Plan} {src : Nat} (h : s.Strapped w v) : (s.applyPlan p src).Strapped w v := by
  unfold State.applyPlan
  dsimp only
  refine fr (State.storeDescs_fr _) rfl rfl rfl <| fr (State.setPool_fr _) rfl rfl rfl <| fr (State.refTimeline_fr _) rfl rfl rfl <| preload <|
    fr (State.enableBlocks_fr _) rfl rfl rfl <| fr (State.loadTimeline_fr _) rfl rfl rfl <| fr (State.setPredictor_fr _) rfl rfl rfl <|
    fr (State.setYards_fr ..) rfl rfl rfl <| each (fun _ _ h => far (GLK_LINK.reg rfl) h) <| withGlk ?_
  refine fr (State.freeQueues_fr _) rfl rfl rfl <| fr (State.setMirror_fr _) rfl rfl rfl <| fr (State.setCarries_fr _) rfl rfl rfl <|
    fr (State.setEngines_fr _) rfl rfl rfl <| fr (State.setContexts_fr _) rfl rfl rfl <| fr (State.setPaddocks_fr _) rfl rfl rfl <|
    fr (State.setSeed_fr _) rfl rfl rfl <| fr (State.setGpios_fr _) rfl rfl rfl <| fr (State.setMailboxes_fr _) rfl rfl rfl <|
    fr (State.setFaults_fr _) rfl rfl rfl <| fr (State.setDomains_fr _) rfl rfl rfl <| fr (State.setPower_fr _) rfl rfl rfl <|
    fr (State.setStalls_fr _) rfl rfl rfl ?_
  exact withParts <| fr (State.planRegs_fr ..) rfl rfl rfl <| fr (State.takeNumber_fr _) rfl rfl rfl <| regs (s := s) rfl h

end State.Strapped

namespace State.Strapped

theorem on_strap {f : Fld} {u : State} (hf : f.addr = TOP_STRAP.addr) (h : u.Strapped (s.word TOP_STRAP.addr) v) :
    u.on f = s.on f := on_of_word (by rw [hf, h.strap])

theorem boot_time {time : Nat} {u : State}
    (h : u.Strapped w ((s.p TOP_BOOT_TIME.BOOT (min 65535 time)).word TOP_BOOT_TIME.addr)) : u.g TOP_BOOT_TIME.BOOT = min 65535 time :=
  (g_of_word (f := TOP_BOOT_TIME.BOOT) h.time).trans (g_p_of_lt rfl (by show min 65535 time < 65536; omega))

end State.Strapped

/-- Step 7 of BOOT, with the plan activated again where its claims have changed. -/
theorem State.bootDomains_strapped (s : State) (time : Nat) (c : State → Bool) (g : State → BootS) :
    ((((s.p TOP_BOOT_TIME.BOOT time).when (c (s.p TOP_BOOT_TIME.BOOT time)) fun s =>
      (s.p TOP_MODE.BOOT_STEP 6).applyPlan s.plan (s.g PLN_STATUS.SOURCE)).withBoot (g ((s.p TOP_BOOT_TIME.BOOT time).when (c (s.p TOP_BOOT_TIME.BOOT time)) fun s =>
      (s.p TOP_MODE.BOOT_STEP 6).applyPlan s.plan (s.g PLN_STATUS.SOURCE)))).p TOP_MODE.BOOT_STEP 8).Strapped
      (s.word TOP_STRAP.addr) ((s.p TOP_BOOT_TIME.BOOT time).word TOP_BOOT_TIME.addr) := by
  refine State.Strapped.far (TOP_MODE.reg rfl) <| State.Strapped.regs (State.withBoot_regs ..) <|
    State.Strapped.when (fun _ h => State.Strapped.applyPlan (State.Strapped.far (TOP_MODE.reg rfl) h)) ?_
  exact ⟨word_p_ne _ _ (by decide), rfl⟩

/-! ## A plan takes effect, and the loader goes on -/

theorem State.applyPlan_plan (s : State) (p : Plan) (src : Nat) : (s.applyPlan p src).plan = p := by
  unfold State.applyPlan
  dsimp only
  refine ((State.storeDescs_fr _).plan rfl).trans <| ((State.setPool_fr _).plan rfl).trans <| ((State.refTimeline_fr _).plan rfl).trans <|
    ((State.preload_fr _).plan rfl).trans <| ((State.enableBlocks_fr _).plan rfl).trans <| ((State.loadTimeline_fr _).plan rfl).trans <|
    ((State.setPredictor_fr _).plan rfl).trans <| ((State.setYards_fr ..).plan rfl).trans ?_
  refine each_keeps (P := fun z : State => z.plan = p) (fun _ z h => (State.p_plan ..).trans h) _ _ ?_
  refine (State.withGlk_plan ..).trans <| ((State.freeQueues_fr _).plan rfl).trans <| ((State.setMirror_fr _).plan rfl).trans <|
    ((State.setCarries_fr _).plan rfl).trans <| ((State.setEngines_fr _).plan rfl).trans <| ((State.setContexts_fr _).plan rfl).trans <|
    ((State.setPaddocks_fr _).plan rfl).trans <| ((State.setSeed_fr _).plan rfl).trans <| ((State.setGpios_fr _).plan rfl).trans <|
    ((State.setMailboxes_fr _).plan rfl).trans <| ((State.setFaults_fr _).plan rfl).trans <| ((State.setDomains_fr _).plan rfl).trans <|
    ((State.setPower_fr _).plan rfl).trans <| ((State.setStalls_fr _).plan rfl).trans ?_
  exact (State.withTt_plan ..).trans <| (State.withHolders_plan ..).trans <| ((State.planRegs_fr ..).plan rfl).trans <|
    ((State.takeNumber_fr _).plan rfl).trans <| State.withBoot_plan ..

theorem State.enterFetch_step (s : State) : s.enterFetch.g TOP_MODE.BOOT_STEP = if s.g TOP_STRAP.BOOTSRC = 2 then 6 else 5 := by
  have h0 : (s.p TOP_MODE.BOOT_STEP 5).g TOP_MODE.BOOT_STEP = 5 := g_p_lit rfl rfl
  have hsrc : ((s.p TOP_MODE.BOOT_STEP 5).plnMod fun x => { x with order := [], cand := none }).g TOP_STRAP.BOOTSRC = s.g TOP_STRAP.BOOTSRC :=
    g_p_far _ _ TOP_MODE.ix TOP_STRAP.ix
  unfold State.enterFetch
  dsimp only
  rw [hsrc]
  split
  next h => rw [h, if_pos rfl]; exact g_p_lit rfl rfl
  next h => rw [h, if_neg (by decide)]; exact (g_p_far _ _ PLN_STATUS.ix TOP_MODE.ix).trans h0
  next h _ => rw [if_neg h]; exact h0

/-- Where BOOT has come, as an event finds it. -/
theorem bootAt_iff {n : Nat} : s.bootAt n = true ↔ s.boot.held = 0 ∧ s.mode = 0 ∧ s.g TOP_MODE.BOOT_STEP = n := by
  simp [State.bootAt, and_assoc]

theorem State.nextSlot_order (s : State) : s.nextSlot.pln.order = s.pln.order := by
  unfold State.nextSlot
  split <;> rfl

theorem State.nextSlot_fourByte (s : State) : s.nextSlot.pln.fourByte = s.pln.fourByte := by
  unfold State.nextSlot
  split <;> rfl

theorem State.nextSlot_step (s : State) : s.nextSlot.g TOP_MODE.BOOT_STEP = if s.pln.order = [] then 6 else 5 := by
  unfold State.nextSlot
  by_cases h : s.pln.order = []
  · rw [if_pos h, h]
    exact g_p_lit rfl rfl
  · rw [if_neg h, if_neg (by rwa [List.isEmpty_iff])]
    exact g_p_lit rfl rfl

end

theorem railsInWindow_complete :
    ∀ (s : State), s.bootAt 1 = true → Does .railsInWindow s fun t => t.g TOP_MODE.BOOT_STEP = 2 := by
  intro s hb
  exact does_of rfl (when_of _ hb) (g_p_lit rfl rfl)

theorem railWindowTimeout_complete :
    ∀ (core : Bool) (ser : Bool) (io : Bool) (s : State), s.bootAt 1 = true →
    Does (.railWindowTimeout core ser io) s fun t => (core = true → t.sticky 1 = true) ∧ (ser = true →
    t.sticky 5 = true) ∧ (io = true → t.sticky 6 = true) := by
  intro core ser io s hb
  refine does_of rfl (when_of _ hb) ⟨?_, ?_, ?_⟩
  · rintro rfl
    refine when_keeps (P := fun z : State => z.sticky 1 = true) (fun _ h => State.raise_keeps_sticky _ (by decide) (by decide) h) ?_
    refine when_keeps (P := fun z : State => z.sticky 1 = true) (fun _ h => State.raise_keeps_sticky _ (by decide) (by decide) h) ?_
    exact State.raise_sticky _ _ (by decide)
  · rintro rfl
    refine when_keeps (P := fun z : State => z.sticky 5 = true) (fun _ h => State.raise_keeps_sticky _ (by decide) (by decide) h) ?_
    exact State.raise_sticky _ _ (by decide)
  · rintro rfl
    exact State.raise_sticky _ _ (by decide)

theorem crystalReady_complete :
    ∀ (ok : Bool) (s : State), s.bootAt 2 = true → ok = true → Does (.crystalReady ok) s fun t =>
    t.on PDC_XTAL.RUNNING = true ∧
    t.g TOP_MODE.BOOT_STEP = (if s.on TOP_STRAP.MAKER_EN then 4 else if s.g TOP_STRAP.BOOTSRC = 2 then 6 else 5) := by
  intro ok s hb hok
  refine does_of rfl (when_of _ hb) ?_
  dsimp only
  rw [if_neg (by rw [hok]; decide)]
  generalize hu : (s.p PDC_XTAL.RUNNING 1).yardsCrystal.p TOP_MODE.BOOT_STEP 3 = u
  have hrun : u.on PDC_XTAL.RUNNING = true := by
    rw [← hu]
    exact (on_p_far _ _ TOP_MODE.ix PDC_XTAL.ix).trans <| (State.yardsCrystal_fr ..).on rfl <| on_p_one _ rfl rfl
  have hmaker : u.on TOP_STRAP.MAKER_EN = s.on TOP_STRAP.MAKER_EN := by
    rw [← hu]
    exact (on_p_far _ _ TOP_MODE.ix TOP_STRAP.ix).trans <| (State.yardsCrystal_fr ..).on rfl <|
      (on_p_far _ _ PDC_XTAL.ix TOP_STRAP.ix)
  have hsrc : u.g TOP_STRAP.BOOTSRC = s.g TOP_STRAP.BOOTSRC := by
    rw [← hu]
    exact (g_p_far _ _ TOP_MODE.ix TOP_STRAP.ix).trans <| (State.yardsCrystal_fr ..).g rfl <|
      (g_p_far _ _ PDC_XTAL.ix TOP_STRAP.ix)
  rw [hmaker]
  cases s.on TOP_STRAP.MAKER_EN with
  | true => exact ⟨(on_p_far _ _ TOP_MODE.ix PDC_XTAL.ix).trans hrun, g_p_lit rfl rfl⟩
  | false => exact ⟨(State.enterFetch_fr _).on rfl hrun, (State.enterFetch_step u).trans (by rw [hsrc]; rfl)⟩

theorem crystalReady_selfCheckFails :
    ∀ (ok : Bool) (s : State), s.bootAt 2 = true → ok = false → Does (.crystalReady ok) s fun t => t.sticky 0 = true := by
  intro ok s hb hok
  refine does_of rfl (when_of _ hb) ?_
  dsimp only
  rw [if_pos (by rw [hok]; decide)]
  exact State.raise_sticky _ _ (by decide)

theorem crystalNotReady_again :
    ∀ (s : State), s.bootAt 2 = true → s.boot.tries < 2 → Does .crystalNotReady s fun t =>
    t.boot.tries = s.boot.tries + 1 := by
  intro s hb htries
  refine does_of rfl (when_of _ hb) ?_
  rw [if_pos htries]
  rfl

theorem crystalNotReady_lost :
    ∀ (s : State), s.bootAt 2 = true → 2 ≤ s.boot.tries → Does .crystalNotReady s fun t => t.sticky 7 = true := by
  intro s hb htries
  refine does_of rfl (when_of _ hb) ?_
  rw [if_neg (by omega)]
  exact State.raise_sticky _ _ (by decide)

theorem makerWindowEnd_complete :
    ∀ (s : State), s.bootAt 4 = true → Does .makerWindowEnd s fun t => t.boot.makerEnd = s.cycle + 1 ∧
    t.g TOP_MODE.BOOT_STEP = (if s.g TOP_STRAP.BOOTSRC = 2 then 6 else 5) := by
  intro s hb
  refine does_of rfl (when_of _ hb) ⟨?_, ?_⟩
  · rw [(State.enterFetch_fr _).boot rfl]
    rfl
  · exact State.enterFetch_step _

theorem makerKeyedMessage_complete :
    ∀ (s : State), s.bootAt 4 = true → Does .makerKeyedMessage s fun t => t.mode = 5 := by
  intro s hb
  refine does_of rfl (when_of _ ?_) ?_
  · rw [hb, Bool.true_or]
  · exact State.setMode_mode _ _ (by decide)

theorem flashBusyPollEnd_noFlash :
    ∀ (ok : Bool) (four : Bool) (s : State), s.bootAt 5 = true → s.g TOP_STRAP.BOOTSRC = 0 → s.pln.order = [] → ok = false →
    Does (.flashBusyPollEnd ok four) s fun t => t.pln.cand = some (s.builtin, 1) ∧ t.g TOP_MODE.BOOT_STEP = 6 := by
  intro ok four s hb hsrc horder hok
  refine does_of rfl (when_of _ (by rw [hb, hsrc, horder]; rfl)) ?_
  rw [if_pos (by rw [hok]; decide)]
  exact ⟨rfl, g_p_lit rfl rfl⟩

theorem flashBusyPollEnd_complete :
    ∀ (ok : Bool) (four : Bool) (s : State), s.bootAt 5 = true → s.g TOP_STRAP.BOOTSRC = 0 → s.pln.order = [] → ok = true →
    Does (.flashBusyPollEnd ok four) s fun t => t.g TOP_MODE.BOOT_STEP = (if t.pln.order = [] then 6 else 5) ∧
    (t.pln.order ≠ [] → t.pln.fourByte = four) := by
  intro ok four s hb hsrc horder hok
  refine does_of rfl (when_of _ (by rw [hb, hsrc, horder]; rfl)) ?_
  rw [if_neg (by rw [hok]; decide)]
  refine ⟨?_, fun _ => ?_⟩
  · rw [State.nextSlot_order]
    exact State.nextSlot_step _
  · exact State.nextSlot_fourByte _

theorem slotVerifyDone_complete :
    ∀ k l (s : State), s.bootAt 5 = true → s.pln.order = k :: l → Does .slotVerifyDone s fun t =>
    ((s.slotF k).headerOk = false → t.on PLN_STATUS.FALLBACK = true ∧ t.pln.order = l) ∧
    ∀ p, (s.slotF k).headerOk = true → bodyOk (s.slotF k).plan = true →
    (s.plnMod fun x => { x with order := l }).check (s.slotF k).plan = .ok p → t.pln.cand = some (p, 2 + k) ∧
    t.g TOP_MODE.BOOT_STEP = 6 := by
  intro k l s hb horder
  refine does_of rfl (when_of _ hb) ?_
  rw [horder]
  dsimp only
  refine ⟨fun hbad => ?_, fun p hhead hbody hcheck => ?_⟩
  · rw [if_pos (by rw [hbad]; rfl)]
    refine ⟨?_, State.nextSlot_order _⟩
    unfold State.nextSlot
    exact ite_keeps (P := fun z : State => z.on PLN_STATUS.FALLBACK = true)
      ((on_p_far _ _ TOP_MODE.ix PLN_STATUS.ix).trans (on_p_one _ rfl rfl))
      ((on_p_far _ _ TOP_MODE.ix PLN_STATUS.ix).trans (on_p_one _ rfl rfl))
  · rw [if_neg (by rw [hhead]; decide), if_neg (by rw [hbody]; decide), hcheck]
    exact ⟨rfl, g_p_lit rfl rfl⟩

theorem planActivationDone_complete :
    ∀ (same : Bool) p src (s : State), s.bootAt 6 = true → s.pln.cand = some (p, src) → same = true →
    Does (.planActivationDone same) s fun t => t.plan = p ∧ t.g TOP_MODE.BOOT_STEP = 7 := by
  intro same p src s hb hcand hsame
  obtain ⟨-, hmode, -⟩ := bootAt_iff.1 hb
  refine does_of rfl ((if_neg (by rw [hmode]; simp)).trans (if_pos hb)) ?_
  rw [hcand]
  dsimp only
  rw [if_neg (by rw [hsame]; simp)]
  exact ⟨(State.p_plan ..).trans <| ((State.planRecord_fr ..).plan rfl).trans (State.applyPlan_plan ..), g_p_lit rfl rfl⟩

theorem bootDomainsReady_onLifeSupply :
    ∀ (vinOk : Bool) (time : Nat) (s : State), s.bootAt 7 = true → s.on TOP_STRAP.LIFE_SUPPLY = true → vinOk = true →
    Does (.bootDomainsReady vinOk time) s fun t => t.g TOP_BOOT_TIME.BOOT = min 65535 time ∧ t.g TOP_MODE.BOOT_STEP = 8 := by
  intro vinOk time s hb hlife hvin
  refine does_of rfl (when_of _ hb) ?_
  dsimp only
  generalize hu : State.p _ TOP_MODE.BOOT_STEP 8 = u
  have hs : u.Strapped (s.word TOP_STRAP.addr) ((s.p TOP_BOOT_TIME.BOOT (min 65535 time)).word TOP_BOOT_TIME.addr) := by
    rw [← hu]
    exact s.bootDomains_strapped _ (fun z => z.claimed z.plan ≠ if z.fab.numbered then some z.member else none)
      (fun z => { z.boot with gpi := z.word GPI_IN.addr })
  rw [if_neg (by rw [hs.on_strap rfl, hlife]; decide), if_pos (by rw [hvin]; rfl)]
  refine ⟨hs.boot_time, ?_⟩
  rw [← hu]
  exact g_p_lit rfl rfl

theorem bootDomainsReady_service :
    ∀ (vinOk : Bool) (time : Nat) (s : State), s.bootAt 7 = true → s.on TOP_STRAP.LIFE_SUPPLY = false →
    Does (.bootDomainsReady vinOk time) s fun t => t.g TOP_BOOT_TIME.BOOT = min 65535 time ∧ t.mode = 3 ∧
    ∃ u, t = State.enterService u 0xFF ∧ u.g TOP_MODE.BOOT_STEP = 8 := by
  intro vinOk time s hb hlife
  refine does_of rfl (when_of _ hb) ?_
  dsimp only
  generalize hu : State.p _ TOP_MODE.BOOT_STEP 8 = u
  have hs : u.Strapped (s.word TOP_STRAP.addr) ((s.p TOP_BOOT_TIME.BOOT (min 65535 time)).word TOP_BOOT_TIME.addr) := by
    rw [← hu]
    exact s.bootDomains_strapped _ (fun z => z.claimed z.plan ≠ if z.fab.numbered then some z.member else none)
      (fun z => { z.boot with gpi := z.word GPI_IN.addr })
  rw [if_pos (by rw [hs.on_strap rfl, hlife]; rfl)]
  refine ⟨State.Strapped.boot_time (hs.fr (State.enterService_fr ..) rfl rfl rfl), u.enterService_mode _, u, rfl, ?_⟩
  rw [← hu]
  exact g_p_lit rfl rfl

theorem upstreamDataConnect_complete :
    ∀ (u : Fin 2) (s : State), s.serving = true → s.on (TCP_PORT.DATA_ON (15 + u)) = true → s.barnReady = true →
    s.on (UPP_PADDOCK.BOUND u) = true → s.g (UPP_PADDOCK.STATE u) = 1 → Does (.upstreamDataConnect u) s fun t =>
    t.g (UPP_PADDOCK.STATE u) = 2 ∧ .line "DATA_CONNECT" [u.val] ∈ t.outs := by
  intro u s hserving hdata hbarn hbound hst
  refine does_of rfl (if_neg (by rw [hserving, hdata, hbarn, hbound, hst]; simp)) ?_
  have hn : u.val < 2 := u.isLt
  refine ⟨?_, ?_⟩
  · refine g_when (fun z hz => g_kept (UPP_PADDOCK.kept hn (State.ssLink_fr ..) rfl rfl) ?_) ((g_out ..).trans (g_p_lit rfl rfl))
    exact g_kept (UPP_PADDOCK.kept hn (Fr.p (m := 0) (b := 2 ^ 192) (STL_LANE.reg rfl) <| Fr.p (STL_LANE.reg rfl) <| Fr.refl _ _ _) rfl rfl) hz
  · exact when_keeps (P := fun z => _ ∈ z.outs) (fun _ h => (State.ssLink_fr ..).outs.subset h) <| List.mem_cons_self

/-- Settles O13: One clause per event: BOOT's own branches give the step reached; a plan's REGPRELOAD cannot change the straps or the length of BOOT, which are read-only. -/
theorem bootStepsComplete : Obligations.BootStepsComplete := by
  unfold Obligations.BootStepsComplete
  exact ⟨railsInWindow_complete, railWindowTimeout_complete, crystalReady_complete, crystalReady_selfCheckFails,
    crystalNotReady_again, crystalNotReady_lost, makerWindowEnd_complete, makerKeyedMessage_complete,
    flashBusyPollEnd_noFlash, flashBusyPollEnd_complete, slotVerifyDone_complete, planActivationDone_complete,
    bootDomainsReady_onLifeSupply, bootDomainsReady_service, upstreamDataConnect_complete⟩

end Sys2Proof.Machine

/-!
# Dumps, management restarts, and commands under way
-/
namespace Sys2Proof.Machine

set_option Elab.async false

section
variable {s : State}

/-! ## A wake of several domains -/

theorem State.onWake_all {l : List Nat} (h : ∀ d ∈ l, s.domOn d = true) (c : Nat) (x : WakeEvt) (f : State → State) :
    s.onWake c l x f = f s :=
  if_pos (List.all_eq_true.2 h)

/-- An event that finds one of its domains asleep waits for them. -/
theorem State.onWake_waits {l : List Nat} {d : Nat} (hd : d ∈ l) (h : s.domOn d = false) (c : Nat) (x : WakeEvt) (f : State → State) :
    (l, x) ∈ (s.onWake c l x f).pdc.late := by
  have hall : ¬(l.all s.domOn = true) := fun ha => by
    rw [List.all_eq_true.1 ha d hd] at h
    exact absurd h (by decide)
  rw [State.onWake, if_neg hall]
  exact List.mem_append_right _ (List.mem_singleton_self _)

/-! ## A management restart -/

theorem State.restart_sticky {src : Nat} (hsrc : src < 128) (cause : Nat) (third : Bool) (hheld : s.boot.held = 0) (hon : s.domOn dMGT = true) :
    (s.restart src cause third).sticky src = true ∧ (third = true → (s.restart src cause third).sticky 10 = true) := by
  unfold State.restart
  rw [when_of _ (by rw [hheld, hon]; rfl)]
  refine ⟨?_, ?_⟩
  · exact when_keeps (P := fun z : State => z.sticky src = true) (fun _ h => State.raise_keeps_sticky _ hsrc (by decide) h)
      (State.raise_sticky _ _ hsrc)
  · rintro rfl
    rw [when_of _ rfl]
    exact State.raise_sticky _ _ (by decide)

theorem State.discardUpload_upload (s : State) : s.discardUpload.upload = 0 :=
  (g_p_beside (f := PLN_STATUS.OWNER) _ 0 rfl).trans (g_p_lit rfl rfl)

/-! ## The dump's copy in flash -/

theorem State.fileDump_due (sev : Nat) (soon : Bool) : (s.fileDump sev soon).flt.dumpDue = s.flt.dumpDue := by
  unfold State.fileDump
  split <;> rfl

theorem State.fileDump_ram (sev : Nat) (soon : Bool) : (s.fileDump sev soon).flt.ram = s.flt.ram := by
  unfold State.fileDump
  split <;> rfl

/-! ## The paddock's state at a bus reset -/

theorem g_ge_kept {f : Fld} {t : State} {v : Nat} (h : t.word f.addr = s.word f.addr) (hs : v ≤ s.g f) : v ≤ t.g f :=
  hs.trans_eq (g_kept h rfl).symm

theorem State.upJudge_ge {u : Nat} (h : s.g (UPP_PADDOCK.STATE u) = 3) : 3 ≤ (s.upJudge u).g (UPP_PADDOCK.STATE u) := by
  unfold State.upJudge
  dsimp only
  rw [if_neg (by omega)]
  split
  · exact (g_p_lit rfl rfl).ge.trans' (by decide)
  · split
    · exact (g_p_lit rfl rfl).ge.trans' (by decide)
    · exact (g_p_lit rfl rfl).ge

/-! ## Hand-offs -/

theorem State.handMod_get (i : Nat) (f : HandoffS → HandoffS) : (s.handMod i f).handoff[i]? = s.handoff[i]?.map f := by
  show (s.handoff.zipIdx.map fun x => if x.2 = i then f x.1 else x.1)[i]? = _
  rw [List.getElem?_map, List.getElem?_zipIdx]
  cases s.handoff[i]? with
  | none => rfl
  | some h => simp

theorem State.handStep_get (i st : Nat) : (s.handStep i st).handoff[i]? = s.handoff[i]?.map fun h => { h with step := st } := by
  unfold State.handStep
  rw [(State.handTell_fr ..).handoff rfl, State.handMod_get]

end

theorem dumpWrite_complete :
    ∀ (soon : Bool) (trace : List (BitVec 8)) cause rest (s : State), s.boot.held = 0 → s.mode ≠ 5 → s.domOn dMGT = true →
    s.flt.dumpDue = cause :: rest → s.flt.ram = none → s.flt.writing = 0 → Does (.dumpWrite soon trace) s fun t =>
    t.flt.dumpDue = rest ∧
    t.flt.ram = some { seq := s.dumpSeq, severity := s.causeSeverity cause, bytes := s.dumpBytes s.dumpSeq cause (s.causeSeverity cause) trace } := by
  intro soon trace cause rest s hheld hmode hon hdue hram hwriting
  refine does_of rfl (if_neg (by rw [hheld, hon]; simpa using hmode)) ?_
  rw [hdue]
  dsimp only
  rw [if_neg (by rw [hram]; decide), if_neg (by rw [hwriting]; simp), when_of_not _ (by rw [hwriting]; rfl), State.fileDump_due,
    State.fileDump_ram]
  exact ⟨rfl, rfl⟩

theorem dumpFlashDone_complete :
    ∀ d (s : State), s.mode ≠ 5 → s.flt.ram = some d → s.flt.writing ≠ 0 → Does .dumpFlashDone s fun t => t.flt.writing = 0 ∧
    t.flt.inFlash = true ∧ t.g FLT_DUMP.RAM = 3 ∧ t.g FLT_DUMP.SEQ = d.seq % 2 ^ FLT_DUMP.SEQ.width := by
  intro d s hmode hram hwriting
  refine does_of rfl rfl ?_
  rw [hram]
  dsimp only
  rw [when_of _ (by simp [hwriting, hmode])]
  refine ⟨rfl, rfl, ?_, ?_⟩
  · exact (g_p_beside _ _ rfl).trans <| (g_p_beside _ _ rfl).trans <| (g_p_beside _ _ rfl).trans <| g_p_lit rfl rfl
  · exact g_p _ _ rfl

theorem watchdogExpire_complete :
    ∀ (third : Bool) (s : State), s.boot.held = 0 → s.domOn dMGT = true → Does (.watchdogExpire third) s fun t =>
    t.sticky 8 = true ∧ (third = true → t.sticky 10 = true) := by
  intro third s hheld hon
  exact does_of rfl rfl (State.restart_sticky (by decide) _ _ hheld hon)

theorem mgtException_complete :
    ∀ (pc : BitVec 32) (third : Bool) (s : State), s.boot.held = 0 → s.domOn dMGT = true →
    Does (.mgtException pc third) s fun t => t.sticky 9 = true ∧ (third = true → t.sticky 10 = true) := by
  intro pc third s hheld hon
  exact does_of rfl (when_of _ (by rw [hheld, hon]; rfl)) (State.restart_sticky (by decide) _ _ hheld hon)

theorem managementRestartDone_complete :
    ∀ (handed : Bool) (s : State), s.flt.restarting = true → Does (.managementRestartDone handed) s fun t =>
    t.flt.restarting = false ∧ t.upload = 0 := by
  intro handed s hrestarting
  refine does_of rfl (when_of _ hrestarting) ⟨?_, State.discardUpload_upload _⟩
  refine (congrArg FltS.restarting ((State.discardUpload_fr ..).flt rfl)).trans <|
    when_keeps (P := fun z => z.flt.restarting = _) (fun _ h => h) <|
    (congrArg FltS.restarting ((State.plnMod_fr ..).flt rfl)).trans <|
    foldl_keeps (P := fun z : State => z.flt.restarting = _) (fun _ _ h => (congrArg FltS.restarting ((State.laterDone_fr ..).flt rfl)).trans h) _ _ <|
    (congrArg FltS.restarting (State.withMsg_flt ..)).trans <| (congrArg FltS.restarting ((State.dropOwn_fr ..).flt rfl)).trans <|
    each_keeps (P := fun z => z.flt.restarting = _) (fun _ _ h => (congrArg FltS.restarting ((State.busyHeld_fr ..).flt rfl)).trans h) _ _ <|
    ?_
  unfold State.fltMod
  exact rfl

theorem busReset_complete :
    ∀ (u : Fin 2) (high : Bool) slot (s : State), s.domOn (5 + u.val) = true → s.domOn dHSB = true → s.slotOf u = some slot → 2 ≤ s.g (UPP_PADDOCK.STATE u) →
    Does (.busReset u high) s fun t => 3 ≤ t.g (UPP_PADDOCK.STATE u) ∧ ∀ h ∈ t.ss.hubs, h.slot = slot →
    h.configured = false := by
  intro u high slot s hup hhsb hslot hst
  have hwake : ∀ d ∈ [5 + u.val, dHSB], s.domOn d = true := by
    simp only [List.mem_cons, List.not_mem_nil, or_false, forall_eq_or_imp, forall_eq]
    exact ⟨hup, hhsb⟩
  refine does_of rfl ((when_of _ (by rw [hslot]; rfl)).trans (State.onWake_all hwake ..)) ?_
  unfold State.busReset
  rw [hslot]
  dsimp only
  rw [if_neg (by omega)]
  have hu : u.val < 2 := u.isLt
  refine ⟨?_, ?_⟩
  · refine g_ge_kept (UPP_PADDOCK.kept hu (State.resetParty_fr ..) rfl rfl) <| g_ge_kept (UPP_PADDOCK.kept hu (State.resetTack_fr ..) rfl rfl) ?_
    exact State.upJudge_ge (g_p_lit rfl rfl)
  · rw [(State.resetParty_fr ..).ss rfl, (State.resetTack_fr ..).ss rfl, (State.upJudge_fr ..).ss rfl, State.p_ss,
      (State.cdpJudge_fr ..).ss rfl, (State.tellUp_fr ..).ss rfl]
    intro h hh hslot
    obtain ⟨g, -, rfl⟩ := List.mem_map.1 hh
    split
    · rfl
    next hne => exact absurd (by rwa [if_neg hne] at hslot) hne

theorem busReset_waits :
    ∀ (u : Fin 2) (high : Bool) (s : State), (s.slotOf u).isSome = true →
    (s.domOn (5 + u.val) = false ∨ s.domOn dHSB = false) → Does (.busReset u high) s fun t =>
    ([5 + u.val, dHSB], .reset u high) ∈ t.pdc.late := by
  intro u high s hslot hoff
  refine does_of rfl (when_of _ hslot) ?_
  rcases hoff with h | h
  · exact State.onWake_waits (by simp) h ..
  · exact State.onWake_waits (by simp) h ..

theorem messageConsume_complete :
    ∀ (c : Fin 12) (reports : List (Nat × List (BitVec 8))) (s : State), s.dwezelRuns = true → s.nextServed = some c.val →
    Does (.messageConsume c reports) s fun t =>
    (let v := ((s.inFall c).withPass ((passIx c + 1) % 12)).consume { c := c, seq := s.g (MBX_IN_CTRL.SEQ c), member := s.g (MBX_IN_CTRL.MEMBER c), words := (List.range (s.g (MBX_IN_CTRL.COUNT c))).map fun i => s.word (MBX_IN_W.addr c i), sess := none } (s.on (MBX_IN_CTRL.REPLY c)) reports; t = if c.val = 6 then (v.postHeld 6).placeProxy else v) := by
  intro c reports s hruns hnext
  refine does_of rfl (if_neg (by rw [hruns, hnext]; simp)) ?_
  dsimp only
  by_cases h : c.val = 6
  · rw [when_of _ (decide_eq_true h), if_pos h]
  · rw [when_of_not _ (decide_eq_false h), if_neg h]

theorem portPowerCycleRelease_complete :
    ∀ (n : Channel) (s : State), (s.ch n).cycling = true → (s.ch n).vbusLow = true →
    Does (.portPowerCycleRelease n) s fun t =>
    t = (s.chMod n fun c => { c with holdOff := false, cycling := false }).tryRamp n := by
  intro n s hcycling hvbus
  exact does_of rfl (when_of _ (by rw [hcycling, hvbus]; rfl)) rfl

theorem handoffStepDone_second :
    ∀ (i : Fin 16) (ms : Fin 1024) h (s : State), s.handoff[i.val]? = some h → s.mode ≠ 4 → h.step = 2 →
    Does (.handoffStepDone i ms) s fun t => t.handoff[i.val]? = some { h with step := 3, ms := h.ms + ms } := by
  intro i ms h s hget hmode hstep
  refine does_of rfl rfl ?_
  rw [hget]
  dsimp only
  rw [if_neg hmode, when_of _ (by rw [hstep]; rfl)]
  have hmod : (s.handMod i fun h => { h with ms := h.ms + ms }).handoff[i.val]? = some { h with ms := h.ms + ms } := by
    rw [State.handMod_get, hget]
    rfl
  have hdone : s.handDone i ms = (false, (s.handMod i fun h => { h with ms := h.ms + ms }).handStep i 3) := by
    unfold State.handDone
    dsimp only
    rw [List.getD_eq_getElem?_getD, hmod, Option.getD_some, hstep]
    rfl
  rw [hdone, if_neg Bool.false_ne_true, State.handStep_get, hmod]
  rfl

theorem handoffStepDone_complete :
    ∀ (i : Fin 16) (ms : Fin 1024) h (s : State), s.handoff[i.val]? = some h → s.mode ≠ 4 → h.step ∈ [1, 4, 5] →
    Does (.handoffStepDone i ms) s fun t =>
    t = if (s.handDone i ms).1 then (s.handDone i ms).2.finishPend (.handoff h.id) 0 else (s.handDone i ms).2 := by
  intro i ms h s hget hmode hstep
  refine does_of rfl rfl ?_
  rw [hget]
  dsimp only
  rw [if_neg hmode, when_of _]
  simp only [List.mem_cons, List.not_mem_nil, or_false] at hstep
  rcases hstep with h | h | h <;> rw [h] <;> rfl

theorem handoffStepDone_safe :
    ∀ (i : Fin 16) (ms : Fin 1024) h (s : State), s.handoff[i.val]? = some h → s.mode = 4 →
    Does (.handoffStepDone i ms) s fun t => t = (s.withHandoff (s.handoff.eraseIdx i)).finishPend (.handoff h.id) 1 := by
  intro i ms h s hget hmode
  refine does_of rfl rfl ?_
  rw [hget]
  dsimp only
  rw [if_pos hmode]

theorem sessionIdleTimeout_complete :
    ∀ (c : Fin 12) x (s : State), s.session c = some x → Does (.sessionIdleTimeout c) s fun t => t.session c = none := by
  intro c x s hx
  refine does_of rfl rfl ?_
  have hc : ¬c.val < 8 := fun h => by
    rw [State.session, if_pos h] at hx
    exact nomatch hx
  unfold State.closeSession
  rw [hx]
  dsimp only
  unfold State.session
  rw [if_neg hc, (State.closePages_fr ..).msg rfl, (State.forceLocks_fr ..).msg rfl, (State.outFree_fr ..).msg rfl,
    (State.emptyIn_fr ..).msg rfl, (State.mbMod_fr ..).msg rfl, (State.setHeld_fr ..).msg rfl]
  refine when_keeps (P := fun z : State => vat z.msg.sess (c.val - 8) = none)
    (fun z hz => (congrArg (fun m => vat m.sess (c.val - 8)) ((State.dropReply_fr ..).msg rfl)).trans hz) ?_
  exact vat_vset_same _ _ (by omega)

/-- Settles O45: One clause per event: each is carried out by its own branch; what follows it (the flash copy, the replies, the news of a hand-off) leaves the values named. -/
theorem managementComplete : Obligations.ManagementComplete := by
  unfold Obligations.ManagementComplete
  exact ⟨dumpWrite_complete, dumpFlashDone_complete, watchdogExpire_complete, mgtException_complete,
    managementRestartDone_complete, busReset_complete, busReset_waits, messageConsume_complete,
    portPowerCycleRelease_complete, handoffStepDone_second, handoffStepDone_complete, handoffStepDone_safe,
    sessionIdleTimeout_complete⟩

end Sys2Proof.Machine

/-!
# Upload, commit and activation of a plan
-/
namespace Sys2Proof.Machine

set_option Elab.async false

section
variable {s : State}

/-! ## What the end of an operation keeps, and leaves -/

theorem State.finishPend_pln (k : PendKind) (code : Nat) (words : List Nat) : (s.finishPend k code words).pln = s.pln :=
  (State.finishPend_fr ..).part .pln rfl

theorem State.finishPend_upload (k : PendKind) (code : Nat) (words : List Nat) : (s.finishPend k code words).upload = s.upload :=
  g_kept (PLN_STATUS.kept (State.finishPend_fr ..) rfl rfl) rfl

theorem State.endCommit_pln (code valid : Nat) : (s.endCommit code valid).pln = { s.pln with commit := 0, again := false } := by
  unfold State.endCommit
  refine ((State.reportCommitted_fr ..).part .pln rfl).trans <| (State.finishPend_pln ..).trans ?_
  exact when_keeps (P := fun z : State => z.pln = _) (fun _ h => h) rfl

theorem State.discardUpload_data (s : State) : s.discardUpload.pln.data = [] := by
  rfl

/-- The entry of an index below the length. -/
theorem vat_default {α : Type} [Inhabited α] {n i : Nat} (v : Vector α n) (h : n ≤ i) : vat v i = default := by
  simp [vat, h]

/-- A packet of the length announced answers the chunk it belongs to (R295). -/
theorem State.takeEp3_complete {slot : Nat} {bytes : List Byte} {b : BulkS} (hslot : s.slotOf (s.upOf slot) = some slot)
    (hep3 : (vat s.tack (s.upOf slot)).ep3 = some bytes) (hbulk : s.pln.bulk = some b) (hparty : s.g (MBX_ASSIGN.PARTY b.c) = 2 + slot)
    (hlen : bytes.length = b.count) :
    (s.takeEp3 slot).pln.data = s.pln.data ++ bytes ∧ (s.takeEp3 slot).pln.bulk = none ∧ ∀ o ∈ s.outs, o ∈ (s.takeEp3 slot).outs := by
  have hfrom : s.bulkFrom slot = true := by
    rw [State.bulkFrom, hbulk]
    exact decide_eq_true hparty
  unfold State.takeEp3
  dsimp only
  rw [hep3, hbulk]
  dsimp only
  rw [when_of _ (by rw [hslot, hfrom]; simp), when_of _ (decide_eq_true hlen), (State.answer_fr ..).part .pln rfl]
  exact ⟨rfl, rfl, fun o ho => (State.answer_fr ..).outs.subset ho⟩

theorem State.endCommit_discarded (s : State) (code valid : Nat) :
    (s.discardUpload.endCommit code valid).pln.commit = 0 ∧ (s.discardUpload.endCommit code valid).pln.data = [] := by
  rw [State.endCommit_pln]
  exact ⟨rfl, State.discardUpload_data s⟩

/-- The commit record, programmed last, makes the slot valid (R74). -/
theorem State.endCommit_filed (page : List Byte) (k : Fld) (v : Nat) (htarget : s.pln.target < 2) :
    let t := (((s.plnMod fun p =>
      { p with slot := vmod p.slot p.target fun x => { x with page := page }, commit := 6 }).p k v).endCommit 0 0)
    t.pln.commit = 0 ∧ t.pln.committed = s.pln.committed ∧ (vat t.pln.slot s.pln.target).page = page := by
  dsimp only
  rw [State.endCommit_pln]
  refine ⟨rfl, rfl, ?_⟩
  show (vat (vmod s.pln.slot s.pln.target fun x => { x with page := page }) s.pln.target).page = page
  rw [vat_vmod _ _ htarget]

end

theorem stagingEraseDone_complete :
    ∀ (s : State), s.upload = 1 → Does .stagingEraseDone s fun t => t.upload = 2 := by
  intro s hup
  refine does_of rfl (if_pos hup) ?_
  rw [State.finishPend_upload]
  exact g_p_lit rfl rfl

theorem commitStepDone_check :
    ∀ (ok : Bool) (s : State), s.mode ≠ 5 → s.pln.commit = 1 → Does (.commitStepDone ok) s fun t => (∀ p, s.check s.pln.data = .ok p →
    t.pln.commit = 2) ∧ ∀ c, s.check s.pln.data = .error c → t.pln.commit = 0 ∧ t.pln.data = [] := by
  intro ok s hmode hcommit
  refine does_of rfl (when_of _ (decide_eq_true hmode)) ?_
  rw [hcommit]
  dsimp only
  refine ⟨fun p hp => ?_, fun c hc => ?_⟩
  · rw [hp]
    rfl
  · rw [hc]
    exact (State.endCommit_discarded ..)

theorem commitStepDone_invalidate :
    ∀ (ok : Bool) (s : State), s.mode ≠ 5 → s.pln.commit = 2 → Does (.commitStepDone ok) s fun t => t.pln.commit = 3 ∧
    (vat t.pln.slot s.pln.target).page = [] := by
  intro ok s hmode hcommit
  refine does_of rfl (when_of _ (decide_eq_true hmode)) ?_
  rw [hcommit]
  refine ⟨rfl, ?_⟩
  show (vat (vmod s.pln.slot s.pln.target _) s.pln.target).page = []
  by_cases h : s.pln.target < 2
  · rw [vat_vmod _ _ h]
  · rw [vat_default _ (by omega)]
    rfl

theorem commitStepDone_erase :
    ∀ (ok : Bool) (s : State), s.mode ≠ 5 → s.pln.commit = 3 → Does (.commitStepDone ok) s fun t => t.pln.commit = 4 ∧
    vat t.pln.slot s.pln.target = {} := by
  intro ok s hmode hcommit
  refine does_of rfl (when_of _ (decide_eq_true hmode)) ?_
  rw [hcommit]
  refine ⟨rfl, ?_⟩
  show vat (vmod s.pln.slot s.pln.target _) s.pln.target = {}
  by_cases h : s.pln.target < 2
  · rw [vat_vmod _ _ h]
  · rw [vat_default _ (by omega)]
    rfl

theorem commitStepDone_program :
    ∀ (ok : Bool) (s : State), s.pln.target < 2 → s.mode ≠ 5 → s.pln.commit = 4 → Does (.commitStepDone ok) s fun t => t.pln.commit = 5 ∧
    (vat t.pln.slot s.pln.target).bytes = s.pln.data := by
  intro ok s htarget hmode hcommit
  refine does_of rfl (when_of _ (decide_eq_true hmode)) ?_
  rw [hcommit]
  refine ⟨rfl, ?_⟩
  show (vat (vmod s.pln.slot s.pln.target _) s.pln.target).bytes = s.pln.data
  rw [vat_vmod _ _ htarget]

theorem commitStepDone_readBack :
    ∀ (ok : Bool) (s : State), s.mode ≠ 5 → s.pln.commit = 5 → ok = true → Does (.commitStepDone ok) s fun t => t.pln.commit = 6 := by
  intro ok s hmode hcommit hok
  refine does_of rfl (when_of _ (decide_eq_true hmode)) ?_
  rw [hcommit]
  dsimp only
  rw [if_pos hok]
  rfl

theorem commitStepDone_complete :
    ∀ (ok : Bool) (s : State), s.pln.target < 2 → s.mode ≠ 5 → s.pln.commit = 6 → ok = true → Does (.commitStepDone ok) s fun t => t.pln.commit = 0 ∧ t.pln.committed = s.pln.committed ∧
    (vat t.pln.slot s.pln.target).page = commitPage s.pln.seq s.pln.data := by
  rintro _ s htarget hmode hcommit rfl
  refine does_of rfl (when_of _ (decide_eq_true hmode)) ?_
  rw [hcommit]
  exact State.endCommit_filed (commitPage s.pln.seq s.pln.data) (PLN_SLOT_SEQ.SEQ s.pln.target) s.pln.seq htarget

theorem commitStepDone_again :
    ∀ (ok : Bool) (s : State), s.mode ≠ 5 → (s.pln.commit = 5 ∨ s.pln.commit = 6) → ok = false → s.pln.again = false →
    Does (.commitStepDone ok) s fun t => t.pln.commit = 2 ∧ t.pln.again = true ∧ (vat t.pln.slot s.pln.target).page = [] := by
  rintro _ s hmode hcommit rfl hagain
  refine does_of rfl (when_of _ (decide_eq_true hmode)) ?_
  have hfail : s.commitFailed.pln.commit = 2 ∧ s.commitFailed.pln.again = true ∧ (vat s.commitFailed.pln.slot s.pln.target).page = [] := by
    unfold State.commitFailed
    dsimp only
    rw [if_neg (by show ¬s.pln.again = true; rw [hagain]; decide)]
    refine ⟨rfl, rfl, ?_⟩
    show (vat (vset s.pln.slot s.pln.target _) s.pln.target).page = []
    by_cases h : s.pln.target < 2
    · rw [vat_vset_same _ _ h]
    · rw [vat_default _ (by omega)]
      rfl
  rcases hcommit with h | h <;> rw [h] <;> exact hfail

theorem activateReplyWaitEnd_complete :
    ∀ r (s : State), s.pln.act = some r → r.wait.isSome = true → s.mode = 3 → Does .activateReplyWaitEnd s fun t =>
    t = ((if r.wide then s.ctrlAll "ACTIVATE" [r.revoke, b2n r.raiseFloor] else s).plnMod fun p => { p with act := some { r with wait := none } }).enterPlan 0xFF := by
  intro r s hact hwait hmode
  refine does_of rfl rfl ?_
  rw [hact]
  dsimp only
  rw [if_neg (by rw [Option.isNone_iff_eq_none]; exact fun h => by rw [h] at hwait; exact absurd hwait (by decide)),
    if_neg fun h => h.1 hmode]
  cases r.wide <;> rfl

theorem activateReplyWaitEnd_dropped :
    ∀ r (s : State), s.pln.act = some r → r.wait.isSome = true → s.mode = 4 → Does .activateReplyWaitEnd s fun t =>
    t.pln.act = none := by
  intro r s hact hwait hmode
  refine does_of rfl rfl ?_
  rw [hact]
  dsimp only
  rw [if_neg (by rw [Option.isNone_iff_eq_none]; exact fun h => by rw [h] at hwait; exact absurd hwait (by decide)),
    if_pos (by rw [hmode]; simp)]
  rfl

theorem memberActivateOrder_complete :
    ∀ (c : CtrlHdr) (revoke : Fin 16) (raise : Bool) u (s : State), Taken c s →
    s.rxCtrl c "ACTIVATE" [revoke.val, b2n raise] id = u → u.mode = 3 → u.pln.commit = 0 → u.actBusy = false →
    Does (.memberActivateOrder c revoke raise) s fun t => ∀ d src, u.sourceFile false = some (d, src) →
    (∀ e, u.check d = .error e → t = u.reject e src (fileId d)) ∧ ∀ p, u.check d = .ok p →
    u.otpAllows p raise revoke = true →
    t = (u.plnMod fun x => { x with act := some { plan := p, source := src, revoke := revoke, raiseFloor := raise, wait := none, wide := false } }).enterPlan 0xFF := by
  intro c revoke raise u s htaken hu hmode hcommit hbusy
  refine does_of rfl ((State.rxCtrl_of_taken htaken ..).trans (by rw [hu])) ?_
  intro d src hfile
  rw [if_neg (by rw [hmode, hcommit, hbusy]; simp), hfile]
  dsimp only
  refine ⟨fun e he => ?_, fun p hp hallow => ?_⟩
  · rw [he]
  · rw [hp]
    dsimp only
    rw [if_neg (by rw [hallow]; decide)]

theorem otpWriteDone_revoke :
    ∀ k l (s : State), k < 4 → s.mode ≠ 5 → s.pln.otp = .revoke k :: l → Does .otpWriteDone s fun t => vat t.otp.revoked k = true ∧
    t.pln.otp = l := by
  intro k l s hk hmode hotp
  refine does_of rfl (when_of _ (decide_eq_true hmode)) ?_
  rw [hotp]
  exact ⟨vat_vset_same _ _ hk, rfl⟩

theorem otpWriteDone_floor :
    ∀ b l (s : State), s.mode ≠ 5 → s.pln.otp = .floor b :: l → s.otp.floor < b → s.otp.words.length < 64 →
    Does .otpWriteDone s fun t => t.otp.words = s.otp.words ++ [b] ∧
    t.pln.otp = l := by
  intro b l s hmode hotp hfloor hroom
  refine does_of rfl (when_of _ (decide_eq_true hmode)) ?_
  rw [hotp]
  refine ⟨?_, rfl⟩
  exact congrArg Otp.words (if_pos ⟨hfloor, hroom⟩)

theorem uploadIdleTimeout_complete :
    ∀ (s : State), s.upload = 2 → Does .uploadIdleTimeout s fun t => t.upload = 0 ∧ t.pln.data = [] := by
  intro s hup
  exact does_of rfl (when_of _ (decide_eq_true hup)) ⟨State.discardUpload_upload _, State.discardUpload_data _⟩

theorem ep3BulkData_complete :
    ∀ (slot : Fin 4) (bytes : List (BitVec 8)) b (s : State), s.dwezelRuns = true → s.slotOf (s.upOf slot) = some slot.val → (vat s.tack (s.upOf slot)).ep3 = none → (vat s.tack (s.upOf slot)).configured = true →
    s.pln.bulk = some b → s.g (MBX_ASSIGN.PARTY b.c) = 2 + slot.val → bytes.length = b.count →
    Does (.ep3BulkData slot bytes) s fun t => t.pln.data = s.pln.data ++ bytes ∧ t.pln.bulk = none ∧
    .usbAck slot ∈ t.outs := by
  intro slot bytes b s hruns hslot hep3 hconf hbulk hparty hlen
  have hu : s.upOf slot < 2 := by
    by_contra h
    rw [vat_default _ (by omega)] at hconf
    exact absurd hconf (by decide)
  have hfrom : s.bulkFrom slot = true := by
    rw [State.bulkFrom, hbulk]
    exact decide_eq_true hparty
  refine does_of rfl ((if_neg (by rw [hconf, hslot]; simp)).trans ((if_neg (by rw [hfrom, hep3]; simp)).trans (when_of _ hruns))) ?_
  obtain ⟨hdata, hbulk', houts⟩ := State.takeEp3_complete (slot := slot.val) (s := ((s.tackMod (s.upOf slot) fun x =>
    { x with ep3 := some bytes }).epWrite (epBuf (s.upOf slot) 3).1 (bytes.take 512)).out (.usbAck slot))
    hslot (congrArg TackS.ep3 (vat_vmod _ _ hu)) hbulk hparty hlen
  exact ⟨hdata, hbulk', houts _ List.mem_cons_self⟩

theorem ep3BulkData_nak :
    ∀ (slot : Fin 4) (bytes : List (BitVec 8)) (s : State), (vat s.tack (s.upOf slot)).configured = true →
    s.slotOf (s.upOf slot) = some slot.val → (s.bulkFrom slot = false ∨ (vat s.tack (s.upOf slot)).ep3.isSome = true) →
    Does (.ep3BulkData slot bytes) s fun t => t = s.out (.usbNak slot) := by
  intro slot bytes s hconf hslot hnak
  refine does_of rfl ((if_neg (by rw [hconf, hslot]; simp)).trans (if_pos ?_)) rfl
  exact hnak.imp (fun h => by rw [h]; rfl) id

/-- Settles O44: One clause per step: the loader's own branch sets the values, and what the step reports to others leaves the loader as it is. -/
theorem planCommandsComplete : Obligations.PlanCommandsComplete := by
  unfold Obligations.PlanCommandsComplete
  exact ⟨stagingEraseDone_complete, commitStepDone_check, commitStepDone_invalidate, commitStepDone_erase,
    commitStepDone_program, commitStepDone_readBack, commitStepDone_complete, commitStepDone_again,
    activateReplyWaitEnd_complete, activateReplyWaitEnd_dropped, memberActivateOrder_complete, otpWriteDone_revoke,
    otpWriteDone_floor, uploadIdleTimeout_complete, ep3BulkData_complete, ep3BulkData_nak⟩

end Sys2Proof.Machine

/-!
# Billboard, standard requests and the sideband targets
-/
namespace Sys2Proof.Machine

set_option Elab.async false

section
variable {s : State}

theorem State.newRequest_g {f : Fld} {v : Nat} (slot u : Nat) (h : s.g f = v) : (s.newRequest slot u).g f = v :=
  g_regs rfl h

/-- A SET_ADDRESS to an addressed, unconfigured function stands at once and is answered (R289). -/
theorem State.tackStd_address {slot u a : Nat} (ha : a < 128) (r : StdReq) (hr : r = .address ⟨a, ha⟩)
    (hst : s.g (TKR_FUNC.STATE u) = 2 ∨ s.g (TKR_FUNC.STATE u) = 3) :
    (s.tackStd slot u r).g (TKR_FUNC.ADDR u) = a ∧ (s.tackStd slot u r).g (TKR_FUNC.STATE u) = (if a = 0 then 2 else 3) ∧
      .usbAck slot ∈ (s.tackStd slot u r).outs := by
  subst hr
  unfold State.tackStd
  dsimp only
  rw [if_neg (by omega), if_neg (by omega)]
  refine ⟨g_p_of_lt rfl ha, ?_, List.mem_cons_self⟩
  rw [g_out, g_p_beside _ _ rfl]
  split <;> exact g_p_lit rfl rfl

/-! ## The sideband targets -/

theorem State.sideOn_i2c (hheld : s.boot.held = 0) (hen : s.on TKR_CTRL.I2C_EN = true) : s.sideOn 6 = true := by
  rw [State.sideOn, hheld]
  exact hen

theorem State.sideOn_spi (hheld : s.boot.held = 0) (hen : s.on TKR_CTRL.SPI_EN = true) : s.sideOn 7 = true := by
  rw [State.sideOn, hheld]
  exact hen

theorem State.sideAccess_i2c (hheld : s.boot.held = 0) (hen : s.on TKR_CTRL.I2C_EN = true) (f : State → State) :
    s.sideAccess 6 f = f (s.holdAccess 6 dMGT) := by
  unfold State.sideAccess
  rw [when_of _ (State.sideOn_i2c hheld hen), when_of_not _ (decide_eq_false (by decide))]

theorem State.sideAccess_spi (hheld : s.boot.held = 0) (hen : s.on TKR_CTRL.SPI_EN = true) (f : State → State) :
    s.sideAccess 7 f = f ((s.holdAccess 7 dMGT).withSbTimedOut false) := by
  unfold State.sideAccess
  rw [when_of _ (State.sideOn_spi hheld hen), when_of _ (decide_eq_true rfl)]

theorem State.holdAccess_pec (m d : Nat) : (s.holdAccess m d).on TKR_SB.PEC = s.on TKR_SB.PEC :=
  (State.holdAccess_fr ..).on rfl rfl

theorem State.holdAccess_i2cHead (m d addr : Nat) : (s.holdAccess m d).i2cHead addr = s.i2cHead addr := by
  rw [State.i2cHead, (State.holdAccess_fr ..).g (f := TOP_STRAP.I2CADDR) rfl rfl, State.i2cHead]

theorem State.sideWrite_nil (m a : Nat) : s.sideWrite m a [] = s := rfl

/-- The end of a stalled transfer puts words on the balls only. -/
theorem State.endStall_sbTimedOut (x : StalledAcc) : (s.endStall x).sbTimedOut = s.sbTimedOut := by
  unfold State.endStall
  dsimp only
  split
  · rfl
  · exact when_keeps (P := fun z : State => z.sbTimedOut = s.sbTimedOut) (fun _ h => h) rfl

theorem State.endStalls_keep (l : List StalledAcc) :
    (l.foldl State.endStall s).sbTimedOut = s.sbTimedOut ∧ (l.foldl State.endStall s).pdc = s.pdc :=
  foldl_keeps (P := fun z : State => z.sbTimedOut = s.sbTimedOut ∧ z.pdc = s.pdc)
    (fun _ x (h : _ ∧ _) => ⟨(State.endStall_sbTimedOut x).trans h.1, ((State.endStall_fr ..).part .pdc rfl).trans h.2⟩) l _ ⟨rfl, rfl⟩

end

theorem billboardTimeout_noPort :
    ∀ (u : Fin 2) r (s : State), (s.slotOf u).bind s.plan.paddock? = some r → bitOf r.flags 3 = true →
    2 ≤ s.g (TCP_PORT.CONTRACT (15 + u)) → s.g (TCP_DP.STATE u) ≠ 3 → s.on (TCP_DP.BILLBOARD u) = false →
    (vat s.tack u).away = false → s.tackPos r.slot = none → Does (.billboardTimeout u) s fun t =>
    t.on (TKR_EVT.BB_NO_PORT u) = true := by
  intro u r s hr hflag hcontract hdp hbill haway hpos
  refine does_of rfl rfl ?_
  rw [hr]
  dsimp only
  rw [if_neg (by rw [hflag, hbill, haway]; simp; omega), hpos]
  exact on_hw _ rfl rfl

theorem billboardTimeout_complete :
    ∀ (u : Fin 2) r q (s : State), (s.slotOf u).bind s.plan.paddock? = some r → bitOf r.flags 3 = true →
    2 ≤ s.g (TCP_PORT.CONTRACT (15 + u)) → s.g (TCP_DP.STATE u) ≠ 3 → s.on (TCP_DP.BILLBOARD u) = false →
    (vat s.tack u).away = false → s.tackPos r.slot = some q → Does (.billboardTimeout u) s fun t =>
    t = (s.tackMod u fun x => { x with away := true }).tackPlace q := by
  intro u r q s hr hflag hcontract hdp hbill haway hpos
  refine does_of rfl rfl ?_
  rw [hr]
  dsimp only
  rw [if_neg (by rw [hflag, hbill, haway]; simp; omega), hpos]

theorem billboardReconnect_complete :
    ∀ (u : Fin 2) q (s : State), (s.slotOf u).bind s.tackPos = some q → (vat s.tack u).away = true →
    (s.ch (15 + u)).attached = true → Does (.billboardReconnect u) s fun t => t.on (TCP_DP.BILLBOARD u) = true := by
  intro u q s hq haway hatt
  refine does_of rfl rfl ?_
  rw [hq]
  dsimp only
  rw [when_of _ (by rw [haway, hatt]; rfl)]
  exact on_kept (TCP_DP.kept u.2 (State.tackPlace_fr ..) rfl rfl) (on_p_one _ rfl rfl)

theorem standardDeviceRequest_hub :
    ∀ (slot : Fin 4) (hub : Option (Fin 16)) (ss : Bool) (r : StdReq) h (s : State), hub = some h →
    s.answers slot h = true → Does (.standardDeviceRequest slot hub ss r) s fun t => t = s.hubStd slot h ss r := by
  rintro slot hub ss r h s rfl hans
  exact does_of rfl (when_of _ hans) rfl

theorem standardDeviceRequest_tack :
    ∀ (slot : Fin 4) (hub : Option (Fin 16)) (ss : Bool) (r : StdReq) u (s : State), hub = none →
    s.homeOf slot = some (s.member, u) → Does (.standardDeviceRequest slot hub ss r) s fun t =>
    t = (s.newRequest slot u).tackStd slot u r := by
  rintro slot hub ss r u s rfl hhome
  refine does_of rfl rfl ?_
  dsimp only
  rw [hhome]
  exact when_of _ (decide_eq_true rfl)

theorem standardDeviceRequest_address :
    ∀ (slot : Fin 4) (hub : Option (Fin 16)) (ss : Bool) (r : StdReq) u a (s : State), hub = none →
    s.homeOf slot = some (s.member, u) → r = .address a → (s.g (TKR_FUNC.STATE u) = 2 ∨ s.g (TKR_FUNC.STATE u) = 3) →
    Does (.standardDeviceRequest slot hub ss r) s fun t => t.g (TKR_FUNC.ADDR u) = a ∧
    t.g (TKR_FUNC.STATE u) = (if a.val = 0 then 2 else 3) ∧ .usbAck slot ∈ t.outs := by
  rintro slot hub ss r u a s rfl hhome hr hst
  refine does_of rfl rfl ?_
  dsimp only
  rw [hhome]
  dsimp only
  rw [when_of _ (decide_eq_true rfl)]
  exact State.tackStd_address a.2 r hr (hst.imp (State.newRequest_g _ _) (State.newRequest_g _ _))

theorem i2cWrite_plain :
    ∀ (addr : BitVec 24) (bytes : List (BitVec 8)) (s : State), s.boot.held = 0 → s.on TKR_CTRL.I2C_EN = true →
    s.on TKR_SB.PEC = false → Does (.i2cWrite addr bytes) s fun t =>
    t = (s.holdAccess 6 dMGT).sideWrite 6 addr.toNat bytes := by
  intro addr bytes s hheld hen hpec
  refine does_of rfl (State.sideAccess_i2c hheld hen _) ?_
  rw [State.i2cData, if_pos (by rw [State.holdAccess_pec, hpec]; rfl)]

theorem i2cWrite_checked :
    ∀ (addr : BitVec 24) (bytes : List (BitVec 8)) pec (s : State), s.boot.held = 0 → s.on TKR_CTRL.I2C_EN = true →
    s.on TKR_SB.PEC = true → bytes.getLast? = some pec → Does (.i2cWrite addr bytes) s fun t =>
    t = if pec = smbusPec (s.i2cHead addr.toNat ++ bytes.dropLast)
    then (s.holdAccess 6 dMGT).sideWrite 6 addr.toNat bytes.dropLast else s.holdAccess 6 dMGT := by
  intro addr bytes pec s hheld hen hpec hlast
  refine does_of rfl (State.sideAccess_i2c hheld hen _) ?_
  rw [State.i2cData, if_neg (by rw [State.holdAccess_pec, hpec]; decide), State.holdAccess_i2cHead, hlast]
  by_cases h : pec = smbusPec (s.i2cHead addr.toNat ++ bytes.dropLast)
  · rw [if_pos h, if_pos (congrArg some h)]
  · rw [if_neg h, if_neg fun hs => h (Option.some.inj hs), State.sideWrite_nil]

theorem i2cRead_complete :
    ∀ (addr : BitVec 24) (n : Fin 65536) (s : State), s.boot.held = 0 → s.on TKR_CTRL.I2C_EN = true →
    Does (.i2cRead addr n) s fun t => t = (s.holdAccess 6 dMGT).sideRead 6 addr.toNat n := by
  intro addr n s hheld hen
  exact does_of rfl (State.sideAccess_i2c hheld hen _) rfl

theorem spiWrite_complete :
    ∀ (addr : BitVec 24) (bytes : List (BitVec 8)) (s : State), s.boot.held = 0 → s.on TKR_CTRL.SPI_EN = true →
    Does (.spiWrite addr bytes) s fun t => t = ((s.holdAccess 7 dMGT).withSbTimedOut false).sideWrite 7 addr.toNat bytes := by
  intro addr bytes s hheld hen
  exact does_of rfl (State.sideAccess_spi hheld hen _) rfl

theorem spiRead_complete :
    ∀ (addr : BitVec 24) (n : Fin 65536) (s : State), s.boot.held = 0 → s.on TKR_CTRL.SPI_EN = true →
    Does (.spiRead addr n) s fun t => t = ((s.holdAccess 7 dMGT).withSbTimedOut false).sideRead 7 addr.toNat n := by
  intro addr n s hheld hen
  exact does_of rfl (State.sideAccess_spi hheld hen _) rfl

theorem spiStatus_complete :
    ∀ (s : State), s.boot.held = 0 → s.on TKR_CTRL.SPI_EN = true → Does .spiStatus s fun t =>
    .sideband [BitVec.ofNat 8 (b2n s.alertOn + b2n ((List.range 12).any fun c => [6, 7].contains (s.g (MBX_ASSIGN.PARTY c)) && s.on (MBX_DB.OUT_DB c)) * 2 + b2n s.sbTimedOut * 4)] ∈ t.outs := by
  intro s hheld hen
  exact does_of rfl (when_of _ (State.sideOn_spi hheld hen)) List.mem_cons_self

theorem smbusAlertResponse_complete :
    ∀ (s : State), s.boot.held = 0 → s.on TKR_CTRL.I2C_EN = true → s.alertOn = true → Does .smbusAlertResponse s fun t =>
    .sideband [BitVec.ofNat 8 (0x28 + s.g TOP_STRAP.I2CADDR)] ∈ t.outs := by
  intro s hheld hen halert
  exact does_of rfl (when_of _ (by rw [hheld, hen, halert]; rfl)) List.mem_cons_self

theorem sidebandStallTimeout_complete :
    ∀ (spi : Bool) (s : State), ((s.pdc.stalls.filter fun x => x.master = if spi then 7 else 6) ≠ []) →
    Does (.sidebandStallTimeout spi) s fun t => t.on (TKR_EVT.SB_TIMEOUT 0) = true ∧
    t.sbTimedOut = (spi || s.sbTimedOut) ∧ t.pdc.stalls = s.pdc.stalls.filter fun x => x.master ≠ if spi then 7 else 6 := by
  intro spi s hmine
  refine does_of rfl (if_neg (by rw [List.isEmpty_iff]; exact hmine)) ⟨on_hw _ rfl rfl, ?_, ?_⟩
  · refine (State.endStalls_keep _).1.trans ?_
    cases spi <;> rfl
  · refine congrArg (·.stalls) (State.endStalls_keep _).2 |>.trans ?_
    cases spi <;> rfl

/-- Settles O43: One clause per request: a transfer that its target answers begins on the state that holds MGT, with the bytes the PEC lets through. -/
theorem devicesAndSidebandsComplete : Obligations.DevicesAndSidebandsComplete := by
  unfold Obligations.DevicesAndSidebandsComplete
  exact ⟨billboardTimeout_noPort, billboardTimeout_complete, billboardReconnect_complete, standardDeviceRequest_hub,
    standardDeviceRequest_tack, standardDeviceRequest_address, i2cWrite_plain, i2cWrite_checked, i2cRead_complete,
    spiWrite_complete, spiRead_complete, spiStatus_complete, smbusAlertResponse_complete,
    sidebandStallTimeout_complete⟩

end Sys2Proof.Machine

/-!
# USB 2.0 ports reset, suspend, resume, wake, sleep and connect
-/
namespace Sys2Proof.Machine

set_option Elab.async false

section
variable {s : State} {n : Nat} {f : Fld}

/-! ## A port's state, and the other fields of its register -/

theorem State.hsState_keeps (hn : n < 15) (hf : f.addr = HSH_PORT.addr n) (hb : (HSH_PORT.STATE n).beside f = true) (st : Nat) :
    (s.hsState n st).g f = s.g f := by
  have hfr (d : Nat) (u : State) : (u.linkJudge d).word f.addr = u.word f.addr := by
    rw [hf]
    exact HSH_PORT.kept hn (State.linkJudge_fr ..) rfl rfl
  unfold State.hsState
  exact g_kept (hfr ..) <| g_kept (hfr ..) <| g_p_beside _ _ hb

/-- What a change of the position's mirror leaves of the port's registers. -/
theorem State.mirLocal_port (hn : n < 15) (hf : f.addr = HSH_PORT.addr n) (k : Nat) (h : PortStat → PortStat) :
    (s.mirLocal k h).g f = s.g f :=
  g_kept (by rw [hf]; exact HSH_PORT.kept hn (State.mirLocal_fr ..) rfl rfl) rfl

theorem State.mirLocal_evt (hn : n < 15) (hf : f.addr = HSH_PORT_EVT.addr n) (k : Nat) (h : PortStat → PortStat) :
    (s.mirLocal k h).on f = s.on f :=
  on_kept (by rw [hf]; exact HSH_PORT_EVT.kept hn (State.mirLocal_fr ..) rfl rfl) rfl

/-- A port that enters a state with an event has both. -/
theorem State.hsState_event {st : Nat} (hn : n < 15) (hst : st < 16) (hf : f.addr = HSH_PORT_EVT.addr n) (hfit : f.fits = true) (hw : f.width = 1) :
    ((s.hsState n st).hw f).g (HSH_PORT.STATE n) = st ∧ ((s.hsState n st).hw f).on f = true :=
  have hix : regIx f.addr = 51 := (congrArg regIx hf).trans (HSH_PORT_EVT.ix n hn)
  ⟨(g_hw_far _ hix (HSH_PORT.ix _ hn)).trans (hsState_state hn hst), on_hw _ hfit hw⟩

/-! ## A device that is gone -/

theorem State.hsGone_port (hn : n < 15) (hf : f.addr = HSH_PORT.addr n) :
    (s.hsGone n).g f = (((s.unreset n).p (HSH_PORT.SPEED n) 0).hsState n 1).g f := by
  have hfr {m b : Nat} {u v : State} (h : Fr m b u v) (hb : b.testBit 50 = false) (hany : b.testBit 196 = false) :
      v.word f.addr = u.word f.addr := by
    rw [hf]
    exact HSH_PORT.kept hn h hb hany
  unfold State.hsGone
  rw [State.mirLocal_port hn hf]
  exact g_kept (hfr (State.hsMod_fr ..) rfl rfl) <| g_kept (hfr (State.patIdle_fr ..) rfl rfl) rfl

theorem State.hsGone_state (hn : n < 15) : (s.hsGone n).g (HSH_PORT.STATE n) = 1 :=
  (State.hsGone_port hn rfl).trans (hsState_state hn (by decide))

theorem State.hsGone_speed (hn : n < 15) : (s.hsGone n).g (HSH_PORT.SPEED n) = 0 :=
  (State.hsGone_port hn rfl).trans <| (State.hsState_keeps hn rfl rfl 1).trans (g_p_lit rfl rfl)

theorem State.hsGone_connect (hn : n < 15) : (s.hsGone n).g (HSH_PORT.CONNECT n) = s.g (HSH_PORT.CONNECT n) :=
  (State.hsGone_port hn rfl).trans <| (State.hsState_keeps hn rfl rfl 1).trans <| (g_p_beside _ _ rfl).trans <|
    g_kept (HSH_PORT.kept hn (State.unreset_fr ..) rfl rfl) rfl

theorem State.unreset_connChg (hn : n < 15) : (s.unreset n).on (HSH_PORT_EVT.CONN_CHG n) = s.on (HSH_PORT_EVT.CONN_CHG n) := by
  unfold State.unreset
  refine on_when (fun u hu => ?_) rfl
  dsimp only
  have hu := (on_p_beside (f := HSH_PORT_EVT.RESET_DONE n) u 0 rfl).trans hu
  split
  · exact on_regs (State.withPort_regs ..) hu
  · exact on_kept (HSH_PORT_EVT.kept hn (State.mirMod_fr ..) rfl rfl) <|
      each_keeps (P := fun z : State => z.on (HSH_PORT_EVT.CONN_CHG n) = _)
        (fun _ _ hz => on_kept (HSH_PORT_EVT.kept hn (State.lkMod_fr ..) rfl rfl) hz) _ _ <| on_regs (State.withPort_regs ..) hu

theorem State.hsGone_connChg (hn : n < 15) : (s.hsGone n).on (HSH_PORT_EVT.CONN_CHG n) = s.on (HSH_PORT_EVT.CONN_CHG n) := by
  unfold State.hsGone
  refine (State.mirLocal_evt hn rfl ..).trans <| on_kept (HSH_PORT_EVT.kept hn (State.hsMod_fr ..) rfl rfl) <|
    on_kept (HSH_PORT_EVT.kept hn (State.patIdle_fr ..) rfl rfl) <| on_kept (HSH_PORT_EVT.kept hn (State.hsState_fr ..) rfl rfl) <|
    (on_p_far _ _ (HSH_PORT.ix _ hn) (HSH_PORT_EVT.ix _ hn)).trans <| State.unreset_connChg hn

/-! ## A device that is there -/

theorem State.hsHere_port (hn : n < 15) :
    (s.hsHere n).g (HSH_PORT.STATE n) = 2 ∧ (s.hsHere n).g (HSH_PORT.SPEED n) = s.g (HSH_PORT.SPEED n) ∧
      (s.hsHere n).g (HSH_PORT.CONNECT n) = s.g (HSH_PORT.CONNECT n) ∧
      (s.hsHere n).on (HSH_PORT_EVT.CONN_CHG n) = s.on (HSH_PORT_EVT.CONN_CHG n) := by
  unfold State.hsHere
  exact ⟨(State.mirLocal_port hn rfl ..).trans (hsState_state hn (by decide)),
    (State.mirLocal_port hn rfl ..).trans (State.hsState_keeps hn rfl rfl 2),
    (State.mirLocal_port hn rfl ..).trans (State.hsState_keeps hn rfl rfl 2),
    (State.mirLocal_evt hn rfl ..).trans (on_kept (HSH_PORT_EVT.kept hn (State.hsState_fr ..) rfl rfl) rfl)⟩

/-! ## A wake on its way to the host -/

theorem State.hw_busSusp (hn : n < 15) (hf : f.addr = HSH_PORT_EVT.addr n) (k : Nat) : (s.hw f).busSusp k = s.busSusp k := by
  have hport : (HSH_PORT.ENGINE k).addr ≠ f.addr := by
    rw [hf]
    show HSH_PORT.addr k ≠ _
    unfold HSH_PORT.addr HSH_PORT_EVT.addr
    rw [if_pos hn]
    split <;> omega
  have heng (e : Nat) : (HSH_ENG.STATE e).addr ≠ f.addr := by
    rw [hf]
    show HSH_ENG.addr e ≠ _
    unfold HSH_ENG.addr HSH_PORT_EVT.addr
    rw [if_pos hn]
    split <;> omega
  have hg {f' : Fld} (h : f'.addr ≠ f.addr) : (s.hw f).g f' = s.g f' := g_p_ne s _ h
  rw [State.busSusp, State.busSusp, State.engineOf, State.engineOf, hg hport, hg (heng _)]

/-- A port that resumes keeps the events it has marked. -/
theorem State.doAct_resume_evt (slot : Nat) (hn : n < 15) (hst : s.g (HSH_PORT.STATE n) = 5) (hf : f.addr = HSH_PORT_EVT.addr n) :
    (s.doAct slot n .resume).on f = s.on f := by
  unfold State.doAct
  dsimp only
  rw [if_pos hst, on_out]
  exact on_kept (by rw [hf]; exact HSH_PORT_EVT.kept hn (State.hsState_fr ..) rfl rfl) rfl

/-- The wake that the root engine carries on leaves the wakes that wait as they are. -/
theorem State.wakeUp_waking (slot : Nat) : (s.wakeUp slot).hs.waking = s.hs.waking := by
  unfold State.wakeUp
  dsimp only
  split
  · rfl
  · split
    · exact each_keeps (P := fun z : State => z.hs.waking = s.hs.waking) (fun _ u hu =>
        when_keeps (P := fun z : State => z.hs.waking = s.hs.waking) (fun v hv => (congrArg (·.waking) ((State.activity_fr ..).hs rfl)).trans hv) hu) _ _ rfl
    · split
      · rfl
      · split
        · rfl
        · split <;> rfl

theorem State.reportWake_waking (slot k : Nat) : (s.reportWake slot k).hs.waking = s.hs.waking := by
  unfold State.reportWake
  split
  · rfl
  · split
    · exact State.wakeUp_waking slot
    · exact congrArg (·.waking) ((State.ctrlTo_fr ..).hs rfl)

/-- What a K on an upstream port leaves of a root engine that is already known. -/
theorem State.hostK_of {u slot e : Nat} (hslot : s.slotOf u = some slot) (hroot : s.rootEngine slot = some e) (hk : vat s.hs.upK u = none) :
    s.hostK u = (if s.g (HSH_ENG.STATE e) = 4 then
        ((s.hsMod fun h => { h with upK := vset h.upK u none }).engState e 5).issueAll slot .busResumeStart |>.upJudge u
      else if s.g (HSH_ENG.STATE e) = 3 then
        (s.mirror.filter fun q => q.slot = slot ∧ q.kind = 1 ∧ bitOf q.st.hs 5).foldl
          (fun v q => v.issue slot q.member q.stall .l1Exit) ((s.hsMod fun h => { h with upK := vset h.upK u none }).engState e 5)
      else s.hsMod fun h => { h with upK := vset h.upK u none }) := by
  unfold State.hostK
  rw [hslot]
  dsimp only
  rw [hroot]
  dsimp only
  rw [hk, Option.isSome_none, when_false]
  rfl

theorem State.hostK_stops {u slot e c : Nat} (hslot : s.slotOf u = some slot) (hroot : s.rootEngine slot = some e)
    (hk : vat s.hs.upK u = some c) : .line "UP_K_STOP" [u] ∈ (s.hostK u).outs := by
  unfold State.hostK
  rw [hslot]
  dsimp only
  rw [hroot]
  dsimp only
  rw [hk, Option.isSome_some, when_true]
  have hmem : Out.line "UP_K_STOP" [u] ∈ ((s.out (.line "UP_K_STOP" [u])).hsMod fun h => { h with upK := vset h.upK u none }).outs :=
    List.mem_cons_self
  split
  · exact (State.upJudge_fr ..).outs.subset <| (State.issueAll_fr ..).outs.subset <| (State.engState_fr ..).outs.subset hmem
  · split
    · exact foldl_keeps (P := fun z : State => _ ∈ z.outs) (fun _ _ h => (State.issue_fr ..).outs.subset h) _ _ <|
        (State.engState_fr ..).outs.subset hmem
    · exact hmem

theorem State.onWake_both {d d' : Nat} (hd : s.domOn d = true) (hd' : s.domOn d' = true) (c : Nat) (x : WakeEvt) (g : State → State) :
    s.onWake c [d, d'] x g = g s :=
  State.onWake_all (by simp [hd, hd']) c x g

/-- An event that finds one of its two domains asleep waits for both. -/
theorem State.onWake_either {d d' : Nat} (h : s.domOn d = false ∨ s.domOn d' = false) (c : Nat) (x : WakeEvt) (g : State → State) :
    ([d, d'], x) ∈ (s.onWake c [d, d'] x g).pdc.late :=
  h.elim (fun h => State.onWake_waits (by simp) h c x g) (fun h => State.onWake_waits (by simp) h c x g)

end

theorem portResetEnd_complete :
    ∀ (n : Stall) (speed : Fin 4) (s : State), s.g (HSH_PORT.STATE n) = 3 → speed.val ≠ 0 →
    Does (.portResetEnd n speed) s fun t => t.g (HSH_PORT.STATE n) = 4 ∧ t.g (HSH_PORT.SPEED n) = speed ∧
    t.on (HSH_PORT_EVT.RESET_DONE n) = true := by
  intro n speed s hst hspeed
  refine does_of rfl (when_of _ (by rw [hst]; exact decide_eq_true hspeed)) ⟨?_, ?_, ?_⟩
  · refine (State.mirLocal_port n.2 rfl ..).trans <| (g_mark ..).trans <| (g_hw_far _ (HSH_PORT_EVT.ix _ n.2) (HSH_PORT.ix _ n.2)).trans ?_
    exact (g_p_beside _ _ rfl).trans (hsState_state n.2 (by decide))
  · refine (State.mirLocal_port n.2 rfl ..).trans <| (g_mark ..).trans <| (g_hw_far _ (HSH_PORT_EVT.ix _ n.2) (HSH_PORT.ix _ n.2)).trans ?_
    exact g_p_of_lt rfl speed.2
  · exact (State.mirLocal_evt n.2 rfl ..).trans <| (on_mark ..).trans (on_hw _ rfl rfl)

theorem portResumeEnd_complete :
    ∀ (n : Stall) (s : State), s.g (HSH_PORT.STATE n) = 6 → vat s.hs.gsusp n = false → Does (.portResumeEnd n) s fun t =>
    t.g (HSH_PORT.STATE n) = 4 ∧ t.on (HSH_PORT_EVT.RESUME_DONE n) = true := by
  intro n s hst hsusp
  refine does_of rfl (when_of _ (by rw [hst, hsusp]; rfl)) ?_
  have h := State.hsState_event (s := s) (st := 4) (f := HSH_PORT_EVT.RESUME_DONE n) n.2 (by decide) rfl rfl rfl
  exact ⟨(State.mirLocal_port n.2 rfl ..).trans <| (g_out ..).trans h.1, (State.mirLocal_evt n.2 rfl ..).trans <| (on_out ..).trans h.2⟩

theorem globalSuspend_complete :
    ∀ (e : Fin 4) (s : State), s.g (HSH_ENG.ROLE e) ≠ 0 → s.g (HSH_ENG.STATE e) = 2 → Does (.globalSuspend e) s fun t =>
    t.g (HSH_ENG.STATE e) = 4 := by
  intro e s hrole hst
  refine does_of rfl (when_of _ (by rw [hst]; simp [hrole])) ?_
  dsimp only
  generalize (List.range 15).filter _ = ns
  refine g_when (fun u h => g_kept (HSH_ENG.kept e.2 (State.upJudge_fr ..) rfl rfl) h) ?_
  have h2 : ((s.each ns fun n s => s.hsState n 5).hsMod fun h =>
      { h with gsusp := ns.foldl (fun v n => vset v n true) h.gsusp }).g (HSH_ENG.STATE e) = 2 :=
    each_keeps (P := fun z : State => z.g (HSH_ENG.STATE e) = 2)
      (fun _ _ h => g_kept (HSH_ENG.kept e.2 (State.hsState_fr ..) rfl rfl) h) _ _ hst
  rw [when_of _ (decide_eq_true h2)]
  exact engState_state e.2 (by decide)

theorem hostResumeDetected_suspended :
    ∀ (u : Fin 2) slot e (s : State), s.domOn (5 + u.val) = true → s.domOn dHSB = true → s.slotOf u = some slot → s.rootEngine slot = some e →
    s.hs.waking.toList.any id = false → vat s.hs.upK u = none → s.g (HSH_ENG.STATE e) = 4 →
    Does (.hostResumeDetected u) s fun t =>
    t = (((s.hsMod fun h => { h with upK := vset h.upK u none }).engState e 5).issueAll slot .busResumeStart).upJudge u := by
  intro u slot e s hup hhsb hslot hroot hwaking hk hst
  refine does_of rfl (when_of _ (by rw [hslot]; rfl)) ?_
  rw [State.onWake_both hup hhsb, State.hostK_of hslot hroot hk, if_pos hst]

theorem hostResumeDetected_asleep :
    ∀ (u : Fin 2) slot e (s : State), s.domOn (5 + u.val) = true → s.domOn dHSB = true → s.slotOf u = some slot → s.rootEngine slot = some e →
    s.hs.waking.toList.any id = false → vat s.hs.upK u = none → s.g (HSH_ENG.STATE e) = 3 →
    Does (.hostResumeDetected u) s fun t => t = ((s.mirror.filter fun q => q.slot = slot ∧ q.kind = 1 ∧
    bitOf q.st.hs 5).foldl (fun v q => v.issue slot q.member q.stall .l1Exit) ((s.hsMod fun h => { h with upK := vset h.upK u none }).engState e 5)) := by
  intro u slot e s hup hhsb hslot hroot hwaking hk hst
  refine does_of rfl (when_of _ (by rw [hslot]; rfl)) ?_
  rw [State.onWake_both hup hhsb, State.hostK_of hslot hroot hk, if_neg (by omega), if_pos hst]

theorem hostResumeDetected_stopsK :
    ∀ (u : Fin 2) slot e c (s : State), s.domOn (5 + u.val) = true → s.domOn dHSB = true → s.slotOf u = some slot → s.rootEngine slot = some e → vat s.hs.upK u = some c →
    c ≠ s.cycle → Does (.hostResumeDetected u) s fun t => .line "UP_K_STOP" [u.val] ∈ t.outs := by
  intro u slot e c s hup hhsb hslot hroot hk hc
  refine does_of rfl (when_of _ (by rw [hslot]; rfl)) ?_
  rw [State.onWake_both hup hhsb]
  exact State.hostK_stops hslot hroot hk

theorem hostResumeDetected_waits :
    ∀ (u : Fin 2) (s : State), (s.slotOf u).isSome = true → (s.domOn (5 + u.val) = false ∨ s.domOn dHSB = false) →
    Does (.hostResumeDetected u) s fun t => ([5 + u.val, dHSB], .hostK u) ∈ t.pdc.late := by
  intro u s hslot hasleep
  refine does_of rfl (when_of _ hslot) ?_
  exact State.onWake_either hasleep ..

theorem hostResumeEnd_complete :
    ∀ (u : Fin 2) slot e (s : State), s.slotOf u = some slot → s.rootEngine slot = some e → s.g (HSH_ENG.STATE e) = 5 →
    Does (.hostResumeEnd u) s fun t => t = s.issueAll slot .busResumeEnd := by
  intro u slot e s hslot hroot hst
  refine does_of rfl rfl ?_
  rw [hslot]
  dsimp only
  rw [hroot]
  exact when_of _ (decide_eq_true hst)

theorem remoteWake_active :
    ∀ (src : Option CtrlHdr) (slot : Fin 4) (n : Stall) (s : State), s.domOn (portDom n) = true → s.domOn dHSB = true → src = none → s.holderOf n = some slot.val →
    s.g (HSH_PORT.STATE n) = 5 → s.busSusp n = false → Does (.remoteWake src slot n) s fun t =>
    t.g (HSH_PORT.STATE n) = 6 ∧ t.on (HSH_PORT_EVT.WAKE n) = true := by
  rintro src slot n s hdom hhsb rfl hholder hst hbus
  refine does_of rfl (State.onWake_both hdom hhsb ..) ?_
  unfold State.deviceK
  rw [if_neg (by rw [hholder, hst]; simp)]
  dsimp only
  have hst' : (s.hw (HSH_PORT_EVT.WAKE n)).g (HSH_PORT.STATE n) = 5 :=
    (g_hw_far _ (HSH_PORT_EVT.ix _ n.2) (HSH_PORT.ix _ n.2)).trans hst
  rw [State.hw_busSusp n.2 rfl, if_neg (by rw [hbus]; decide)]
  refine ⟨(State.doAct_resume _ n.2 hst').1, ?_⟩
  exact (State.doAct_resume_evt _ n.2 hst' rfl).trans (on_hw _ rfl rfl)

theorem remoteWake_suspended :
    ∀ (src : Option CtrlHdr) (slot : Fin 4) (n : Stall) (s : State), s.domOn (portDom n) = true → s.domOn dHSB = true → src = none → s.holderOf n = some slot.val →
    s.g (HSH_PORT.STATE n) = 5 → s.busSusp n = true → Does (.remoteWake src slot n) s fun t =>
    vat t.hs.waking n = true ∧ t.on (HSH_PORT_EVT.WAKE n) = true := by
  rintro src slot n s hdom hhsb rfl hholder hst hbus
  refine does_of rfl (State.onWake_both hdom hhsb ..) ?_
  unfold State.deviceK
  rw [if_neg (by rw [hholder, hst]; simp)]
  dsimp only
  rw [State.hw_busSusp n.2 rfl, if_pos hbus]
  refine ⟨?_, ?_⟩
  · rw [State.reportWake_waking]
    refine when_keeps (P := fun z : State => vat z.hs.waking n = true) (fun u h => ?_) (vat_vset_same _ _ n.2)
    rw [State.out_hs, (State.hsState_fr ..).hs rfl]
    exact h
  · refine on_kept (HSH_PORT_EVT.kept n.2 (State.reportWake_fr ..) rfl rfl) ?_
    refine on_when (fun _ h => ?_) ?_
    · exact (on_out ..).trans (on_kept (HSH_PORT_EVT.kept n.2 (State.hsState_fr ..) rfl rfl) h)
    · exact on_kept (HSH_PORT_EVT.kept n.2 (State.hsMod_fr ..) rfl rfl) (on_hw _ rfl rfl)

theorem remoteWake_waits :
    ∀ (src : Option CtrlHdr) (slot : Fin 4) (n : Stall) (s : State), src = none →
    (s.domOn (portDom n) = false ∨ s.domOn dHSB = false) → Does (.remoteWake src slot n) s fun t =>
    ([portDom n, dHSB], .deviceK slot n) ∈ t.pdc.late := by
  rintro src slot n s rfl hasleep
  exact does_of rfl rfl (State.onWake_either hasleep ..)

theorem remoteWake_reported :
    ∀ (src : Option CtrlHdr) (slot : Fin 4) (n : Stall) c (s : State), src = some c → Taken c s →
    Does (.remoteWake src slot n) s fun t => t = (s.rxCtrl c "WAKE" [slot.val, n.val] id).wakeUp slot := by
  rintro src slot n c s rfl htaken
  exact does_of rfl (State.rxCtrl_of_taken htaken ..) rfl

theorem wakeHoldExpire_complete :
    ∀ (u : Fin 2) (s : State), (vat s.hs.upK u).isSome = true → Does (.wakeHoldExpire u) s fun t =>
    vat t.hs.upK u = none ∧ .line "UP_K_STOP" [u.val] ∈ t.outs := by
  intro u s hk
  refine does_of rfl (when_of _ hk) ⟨?_, List.mem_cons_self⟩
  exact vat_vset_same _ _ u.2

theorem lpmAck_complete :
    ∀ (n : Channel) (besl : Fin 16) (rwe : Bool) (s : State), (n.val ≤ 14 → s.g (HSH_PORT.STATE n) = 4) →
    Does (.lpmAck n besl rwe) s fun t => vat t.hs.acked n = true ∧ (n.val ≤ 14 → t.g (HSH_PORT.BESL n) = besl ∧
    t.on (HSH_PORT.RWE n) = rwe) := by
  intro n besl rwe s hst
  refine does_of rfl rfl ?_
  dsimp only
  by_cases hn : n.val ≤ 14
  · rw [if_pos hn, when_of _ (decide_eq_true (hst hn))]
    refine ⟨vat_vset_same _ _ n.2, fun _ => ⟨?_, ?_⟩⟩
    · exact g_kept (HSH_PORT.kept (by omega) (State.hsMod_fr ..) rfl rfl) <| (g_p_beside _ _ rfl).trans (g_p_of_lt rfl besl.2)
    · exact on_kept (HSH_PORT.kept (by omega) (State.hsMod_fr ..) rfl rfl) (on_p_b2n _ _ rfl rfl)
  · rw [if_neg hn]
    exact ⟨vat_vset_same _ _ n.2, fun h => absurd h hn⟩

theorem l1Entry_port :
    ∀ (n : Channel) (s : State), vat s.hs.acked n = true → n.val ≤ 14 → s.g (HSH_PORT.STATE n) = 4 →
    Does (.l1Entry n) s fun t => t.g (HSH_PORT.STATE n) = 7 ∧ t.on (HSH_PORT_EVT.L1_ENTER n) = true ∧
    vat t.hs.acked n = false := by
  intro n s hack hn hst
  refine does_of rfl (when_of _ hack) ?_
  dsimp only
  rw [if_pos hn, when_of _ (decide_eq_true (g_kept (HSH_PORT.kept (by omega) (State.hsMod_fr ..) rfl rfl) hst))]
  generalize hu : (s.hsMod fun h => { h with acked := vset h.acked n false }) = u
  have h := State.hsState_event (s := u) (st := 7) (n := n) (f := HSH_PORT_EVT.L1_ENTER n) (by omega) (by decide) rfl rfl rfl
  refine ⟨(State.mirLocal_port (by omega) rfl ..).trans h.1, (State.mirLocal_evt (by omega) rfl ..).trans h.2, ?_⟩
  rw [(State.mirLocal_fr ..).hs rfl, State.hw_hs, (State.hsState_fr ..).hs rfl, ← hu]
  exact vat_vset_same _ _ n.2

theorem l1Entry_upstream :
    ∀ (n : Channel) e (s : State), vat s.hs.acked n = true → 15 ≤ n.val →
    (s.slotOf (n - 15)).bind s.rootEngine = some e → s.g (HSH_ENG.STATE e) = 2 → Does (.l1Entry n) s fun t =>
    t.g (HSH_ENG.STATE e) = 3 ∧ vat t.hs.acked n = false := by
  intro n e s hack hn hroot hst
  refine does_of rfl (when_of _ hack) ?_
  have he : e < 4 := by
    obtain ⟨slot, -, h⟩ := Option.bind_eq_some_iff.1 hroot
    exact rootEngine_lt h
  dsimp only
  rw [if_neg (by omega)]
  have hroot' : (((s.hsMod fun h => { h with acked := vset h.acked n false })).slotOf (n - 15)).bind
      (s.hsMod fun h => { h with acked := vset h.acked n false }).rootEngine = some e := hroot
  rw [hroot']
  dsimp only
  rw [when_of _ (decide_eq_true (g_kept (HSH_ENG.kept he (State.hsMod_fr ..) rfl rfl) hst))]
  refine ⟨engState_state he (by decide), ?_⟩
  rw [(State.engState_fr ..).hs rfl]
  exact vat_vset_same _ _ n.2

theorem deviceL1Exit_port :
    ∀ (src : Option CtrlHdr) (slot : Fin 4) (n : Stall) (s : State), s.domOn (portDom n) = true → s.domOn dHSB = true → src = none → s.holderOf n = some slot.val →
    s.g (HSH_PORT.STATE n) = 7 → s.on (HSH_PORT.RWE n) = true → Does (.deviceL1Exit src slot n) s fun t =>
    t.g (HSH_PORT.STATE n) = 4 ∧ t.on (HSH_PORT_EVT.L1_EXIT n) = true := by
  rintro src slot n s hdom hhsb rfl hholder hst hrwe
  refine does_of rfl (State.onWake_both hdom hhsb ..) ?_
  unfold State.deviceL1
  rw [if_neg (by rw [hholder, hst, hrwe]; simp)]
  dsimp only
  generalize hu : (s.hsMod fun h => { h with orders := h.orders.filter fun o => !(o.n = n.val && o.act == .l1Exit) }) = u
  have hst' : u.g (HSH_PORT.STATE n) = 7 := by
    rw [← hu]
    exact g_kept (HSH_PORT.kept n.2 (State.hsMod_fr ..) rfl rfl) hst
  obtain ⟨h4, hevt⟩ := State.doAct_l1Exit (slot := slot) n.2 hst'
  split
  · exact ⟨h4, hevt⟩
  · split
    · exact ⟨h4, hevt⟩
    · split
      · exact ⟨g_kept (HSH_PORT.kept n.2 (State.l1Wake_fr ..) rfl rfl) h4, on_kept (HSH_PORT_EVT.kept n.2 (State.l1Wake_fr ..) rfl rfl) hevt⟩
      · exact ⟨g_kept (HSH_PORT.kept n.2 (State.ctrlTo_fr ..) rfl rfl) h4, on_kept (HSH_PORT_EVT.kept n.2 (State.ctrlTo_fr ..) rfl rfl) hevt⟩

theorem deviceL1Exit_waits :
    ∀ (src : Option CtrlHdr) (slot : Fin 4) (n : Stall) (s : State), src = none →
    (s.domOn (portDom n) = false ∨ s.domOn dHSB = false) → Does (.deviceL1Exit src slot n) s fun t =>
    ([portDom n, dHSB], .deviceL1 slot n) ∈ t.pdc.late := by
  rintro src slot n s rfl hasleep
  exact does_of rfl rfl (State.onWake_either hasleep ..)

theorem deviceL1Exit_reported :
    ∀ (src : Option CtrlHdr) (slot : Fin 4) (n : Stall) c (s : State), src = some c → Taken c s →
    Does (.deviceL1Exit src slot n) s fun t => t = (s.rxCtrl c "L1_WAKE" [slot.val, n.val] id).l1Wake slot := by
  rintro src slot n c s rfl htaken
  exact does_of rfl (State.rxCtrl_of_taken htaken ..) rfl

theorem hsConnectChange_present :
    ∀ (n : Stall) (present : Bool) (low : Bool) (s : State), s.domOn (portDom n) = true → s.domOn dHSB = true → s.g (HSH_PORT.STATE n) ≠ 0 → present = true → s.phyAway n = false →
    s.on (HSH_PORT.CONNECT n) = false → Does (.hsConnectChange n present low) s fun t =>
    t.on (HSH_PORT.CONNECT n) = true ∧ t.g (HSH_PORT.STATE n) = 2 ∧ t.g (HSH_PORT.SPEED n) = (if low then 1 else 2) ∧
    t.on (HSH_PORT_EVT.CONN_CHG n) = true := by
  rintro n present low s hdom hhsb hst rfl haway hcon
  refine does_of rfl (State.onWake_both hdom hhsb ..) ?_
  unfold State.hsConnect
  dsimp only
  rw [if_neg (by rw [hcon, haway]; simp [hst]), if_pos rfl]
  obtain ⟨h2, hspeed, hconn, hevt⟩ := State.hsHere_port (n := n)
    (s := (((s.p (HSH_PORT.CONNECT n) (b2n true)).hw (HSH_PORT_EVT.CONN_CHG n)).p (HSH_PORT.SPEED n) (if low then 1 else 2)).restartHistory n) n.2
  refine ⟨?_, h2, ?_, ?_⟩
  · rw [State.on, hconn]
    refine congrArg (· != 0) (g_kept (HSH_PORT.kept n.2 (State.restartHistory_fr ..) rfl rfl) <| (g_p_beside _ _ rfl).trans <|
      (g_hw_far _ (HSH_PORT_EVT.ix _ n.2) (HSH_PORT.ix _ n.2)).trans (g_p_lit (v := 1) rfl rfl))
  · rw [hspeed]
    refine g_kept (HSH_PORT.kept n.2 (State.restartHistory_fr ..) rfl rfl) ?_
    cases low <;> exact g_p_lit rfl rfl
  · rw [hevt]
    exact on_kept (HSH_PORT_EVT.kept n.2 (State.restartHistory_fr ..) rfl rfl) <|
      (on_p_far _ _ (HSH_PORT.ix _ n.2) (HSH_PORT_EVT.ix _ n.2)).trans (on_hw _ rfl rfl)

theorem hsConnectChange_absent :
    ∀ (n : Stall) (present : Bool) (low : Bool) (s : State), s.domOn (portDom n) = true → s.domOn dHSB = true → s.g (HSH_PORT.STATE n) ≠ 0 → present = false →
    s.on (HSH_PORT.CONNECT n) = true → Does (.hsConnectChange n present low) s fun t =>
    t.on (HSH_PORT.CONNECT n) = false ∧ t.g (HSH_PORT.STATE n) = 1 ∧ t.g (HSH_PORT.SPEED n) = 0 ∧
    t.on (HSH_PORT_EVT.CONN_CHG n) = true := by
  rintro n present low s hdom hhsb hst rfl hcon
  refine does_of rfl (State.onWake_both hdom hhsb ..) ?_
  unfold State.hsConnect
  dsimp only
  rw [if_neg (by rw [hcon]; simp [hst]), if_neg Bool.false_ne_true]
  refine ⟨?_, State.hsGone_state n.2, State.hsGone_speed n.2, (State.hsGone_connChg n.2).trans (on_hw _ rfl rfl)⟩
  rw [State.on, State.hsGone_connect n.2]
  exact congrArg (· != 0) <| (g_hw_far _ (HSH_PORT_EVT.ix _ n.2) (HSH_PORT.ix _ n.2)).trans (g_p_lit (v := 0) rfl rfl)

theorem hsConnectChange_waits :
    ∀ (n : Stall) (present : Bool) (low : Bool) (s : State), (s.domOn (portDom n) = false ∨ s.domOn dHSB = false) →
    Does (.hsConnectChange n present low) s fun t => ([portDom n, dHSB], .connect n present low) ∈ t.pdc.late := by
  intro n present low s hasleep
  exact does_of rfl rfl (State.onWake_either hasleep ..)

theorem babbleDisable_complete :
    ∀ (n : Stall) (s : State), s.g (HSH_PORT.STATE n) ∈ [4, 5, 6, 7] → Does (.babbleDisable n) s fun t =>
    t.on (HSH_PORT_EVT.BABBLE n) = true := by
  intro n s hst
  refine does_of rfl (when_of _ (List.contains_iff_mem.2 hst)) ?_
  exact on_kept (HSH_PORT_EVT.kept n.2 (State.raise_fr ..) rfl rfl) <| (State.mirLocal_evt n.2 rfl ..).trans (on_hw _ rfl rfl)

/-- Settles O35: One clause per event: the port or engine takes its state by `hsState_state` and `engState_state`, and neither the votes nor the mirror touch it again. -/
theorem usb2PortsComplete : Obligations.Usb2PortsComplete := by
  unfold Obligations.Usb2PortsComplete
  exact ⟨portResetEnd_complete, portResumeEnd_complete, globalSuspend_complete, hostResumeDetected_suspended,
    hostResumeDetected_asleep, hostResumeDetected_stopsK, hostResumeDetected_waits, hostResumeEnd_complete,
    remoteWake_active, remoteWake_suspended, remoteWake_waits, remoteWake_reported, wakeHoldExpire_complete,
    lpmAck_complete, l1Entry_port, l1Entry_upstream, deviceL1Exit_port, deviceL1Exit_waits, deviceL1Exit_reported,
    hsConnectChange_present, hsConnectChange_absent, hsConnectChange_waits, babbleDisable_complete⟩

end Sys2Proof.Machine

/-!
# A packet for the root, whose cells show a corrected error
-/
namespace Sys2Proof.Machine

set_option Elab.async false

/-- The home of slot 2, whose paddock has a SuperSpeed side and whose root has address 0. -/
def corrRoot : State :=
  (((State.reset.withPlan { Plan.empty with paddocks := [⟨2, 0, 0, 2, 3, 1, 0, [⟨1, 1⟩, ⟨2, 0⟩, ⟨3, 0⟩], []⟩] }).bootMod
    fun b => { b with held := 0 }).fields [(SSH_CTRL.ENABLE, 1), (PBF_CTRL.ENABLE, 1), (SSH_PORT.LINK 15, 0)]).withSs
      { State.reset.ss with hubs := [{ slot := 2, pen := 15 }] }

/-- A data packet of one byte for address 0. -/
def corrPacket : SsPacket := ⟨true, false, 0, 0, 1, false, 0, false, 0, false, false, false, false, [], [1]⟩

/-- The root reads the packet's cell, and the corrected error is counted (R107). -/
theorem corrRoot_counts : (corrRoot.downstreamPacket 0 corrPacket 1).g PBF_ECC_COUNT.CORR = 1 := by decide +kernel

/-- Refutes O31: the clause of DOWNSTREAM_PACKET has the root's and a pen's own packets freed unread, whatever `ecc` says. The hub's
own engine reads their cells too, so that a corrected error of one (`ecc` 1) is counted and marked (`corrRoot`). -/
theorem not_superSpeedPacketsComplete : ¬ Obligations.SuperSpeedPacketsComplete := by
  unfold Obligations.SuperSpeedPacketsComplete
  intro h
  obtain ⟨t, ht, hroot⟩ := h.1 0 corrPacket 1 2 corrRoot (by decide +kernel) (by decide +kernel)
  obtain rfl : corrRoot.downstreamPacket 0 corrPacket 1 = t := Host.Outcome.next.inj ht
  have hcount := congrArg (fun u : State => u.g PBF_ECC_COUNT.CORR) hroot
  rw [corrRoot_counts] at hcount
  exact absurd hcount (by decide +kernel)

end Sys2Proof.Machine

/-!
# SuperSpeed links: power states, wakes, timestamps and delays
-/
namespace Sys2Proof.Machine

set_option Elab.async false

section
variable {s : State} {d e n : Nat}

/-! ## A vote on one domain leaves the others as they are -/

/-- Domain e has the state and the controller it has in s. -/
structure State.SameDom (e : Nat) (s t : State) : Prop where
  dom : t.dom e = s.dom e
  word : t.word (PDC_DOM.addr e) = s.word (PDC_DOM.addr e)

theorem PDC_DOM.addr_ne (hd : d < 12) (he : e < 12) (hne : d ≠ e) : PDC_DOM.addr e ≠ PDC_DOM.addr d := by
  unfold PDC_DOM.addr
  rw [if_pos hd, if_pos he]
  omega

namespace State.SameDom
variable {t : State}

theorem refl (e : Nat) (s : State) : s.SameDom e s := ⟨rfl, rfl⟩

theorem p {f : Fld} (h : s.SameDom e t) (v : Nat) (hf : PDC_DOM.addr e ≠ f.addr) : s.SameDom e (t.p f v) :=
  ⟨h.dom, (word_p_ne _ _ hf).trans h.word⟩

theorem domMod (h : s.SameDom e t) (hne : d ≠ e) (f : DomS → DomS) : s.SameDom e (t.domMod d f) :=
  ⟨(vat_vmod_ne _ f hne).trans h.dom, h.word⟩

theorem part {m b : Nat} {u : State} (h : s.SameDom e t) (he : e < 12) (hfr : Fr m b t u) (hb : b.testBit 134 = false)
    (hany : b.testBit 196 = false) (hdom : u.dom e = t.dom e) : s.SameDom e u :=
  ⟨hdom.trans h.dom, (PDC_DOM.kept he hfr hb hany).trans h.word⟩

theorem domOn (h : s.SameDom e t) : t.domOn e = s.domOn e := by
  rw [State.domOn, State.domOn, g_kept (f := PDC_DOM.STATE e) h.word rfl]
  exact congrArg (fun x : DomS => e = 0 || (s.g (PDC_DOM.STATE e) = 0 && x.step = .idle)) h.dom

theorem wake (hd : d < 12) (he : e < 12) (hne : d ≠ e) (c : Nat) (h : s.SameDom e t) : s.SameDom e (t.wake d c) := by
  have ha := PDC_DOM.addr_ne hd he hne
  unfold State.wake
  split
  · have h1 : s.SameDom e (((t.domStep d .idle).p (PDC_DOM.TARGET d) 0).wakesDone d) := by
      have h0 := (h.domMod hne fun x => { x with step := .idle }).p (f := PDC_DOM.TARGET d) 0 ha
      exact ⟨h0.dom, h0.word⟩
    dsimp only
    split
    · exact h1
    · exact (h1.p (f := PDC_DOM.CAUSE d) c ha).part he (State.domRecord_fr ..) rfl rfl (State.domRecord_dom ..)
  · split
    · dsimp only
      split
      · exact ((((h.p (f := PDC_DOM.TRIES d) 0 ha).p (f := PDC_DOM.TARGET d) 0 ha).p (f := PDC_DOM.CAUSE d) c ha).domMod hne _).domMod hne _
      · exact h
    · exact h

theorem judge (hd : d < 12) (he : e < 12) (hne : d ≠ e) (c : Nat) (h : s.SameDom e t) : s.SameDom e (t.judge d c) := by
  unfold State.judge
  dsimp only
  split
  · exact h
  split
  · exact (h.wake hd he hne c).domMod hne _
  split
  · exact h.p (f := PDC_DOM.TARGET d) 1 (PDC_DOM.addr_ne hd he hne)
  split
  · split
    · exact (h.wake hd he hne c).domMod hne _
    · exact h
  · exact h

theorem activity (hd : d < 12) (he : e < 12) (hne : d ≠ e) : s.SameDom e (s.activity d) := by
  have hm : s.SameDom e (s.missCheck d) :=
    (refl e s).part he (State.missCheck_fr ..) rfl rfl ((State.missCheck_fr ..).dom rfl e)
  unfold State.activity State.wakeBy
  split
  · exact hm
  · exact judge hd he hne 7 ⟨hm.dom, hm.word⟩

end State.SameDom

theorem laneDom_ne_hub : ∀ i < 20, laneDom i < 12 ∧ laneDom i ≠ dHUB := by decide

theorem each_pair_of (a b : Nat) (g : Nat → State → State) : s.each [a, b] g = g b (g a s) := rfl

/-! ## What a port holds leaves -/

theorem State.sendHeld_link (hn : n < 17) : (s.sendHeld n).g (SSH_PORT.LINK n) = s.g (SSH_PORT.LINK n) := by
  unfold State.sendHeld
  refine foldl_keeps (P := fun z : State => z.g (SSH_PORT.LINK n) = _) (fun _ _ h => g_kept (SSH_PORT.kept hn (State.sendOut_fr ..) rfl rfl) h) _ _ ?_
  exact g_p_beside _ _ rfl

theorem State.sendHeld_evt {f : Fld} (hn : n < 17) (hf : f.addr = SSH_PORT_EVT.addr n) : (s.sendHeld n).on f = s.on f :=
  on_kept (by rw [hf]; exact SSH_PORT_EVT.kept hn (State.sendHeld_fr ..) rfl rfl) rfl

/-! ## A saturating counter, and lines sent one by one -/

theorem g_incSat {f : Fld} (h : f.fits = true) : (s.incSat f).g f = min (s.g f + 1) (2 ^ f.width - 1) :=
  g_p_of_lt h (by have := Nat.two_pow_pos f.width; omega)

theorem each_out_mem {l : List Nat} {g : Nat → State → State} {o : Nat → Out} (hkeep : ∀ k u, ∀ x ∈ u.outs, x ∈ (g k u).outs)
    (hout : ∀ k u, o k ∈ (g k u).outs) (hn : n ∈ l) : o n ∈ (s.each l g).outs :=
  each_at (P := fun z : State => o n ∈ z.outs) hn (fun u => hout n u) (fun k _ _ u h => hkeep k u _ h) s

end

theorem lgoReceived_accepted :
    ∀ (n : Stall) (u2 : Bool) (s : State), s.lpmFrom n u2 = true → s.acceptsLgo n u2 = true →
    Does (.lgoReceived n u2) s fun t => t.g (SSH_PORT.LINK n) = (if u2 then 2 else 1) ∧ .line "LAU" [n.val] ∈ t.outs := by
  intro n u2 s hfrom hacc
  refine does_of rfl (if_neg (by rw [hfrom]; decide)) ?_
  rw [if_pos hacc]
  refine ⟨ssLink_link (by omega) (by split <;> decide), (State.ssLink_fr ..).outs.subset List.mem_cons_self⟩

theorem lgoReceived_refused :
    ∀ (n : Stall) (u2 : Bool) (s : State), s.lpmFrom n u2 = true → s.acceptsLgo n u2 = false →
    Does (.lgoReceived n u2) s fun t => .line "LXU" [n.val] ∈ t.outs ∧ t.g (SSH_PORT.LINK n) = s.g (SSH_PORT.LINK n) := by
  intro n u2 s hfrom hacc
  refine does_of rfl (if_neg (by rw [hfrom]; decide)) ?_
  rw [if_neg (by rw [hacc]; decide)]
  exact ⟨List.mem_cons_self, g_out ..⟩

theorem lpmInactivityTimeout_complete :
    ∀ (n : Stall) (u2 : Bool) (accepted : Bool) (s : State), s.lpmFrom n u2 = true →
    (1 ≤ s.g (if u2 then SSH_PORT_LPM.U2_TIMEOUT n else SSH_PORT_LPM.U1_TIMEOUT n)) →
    (s.g (if u2 then SSH_PORT_LPM.U2_TIMEOUT n else SSH_PORT_LPM.U1_TIMEOUT n) ≤ (if u2 then 0xFE else 0x7F)) →
    s.egressBusy n = false → s.g (SSH_PORT.LINK n) ≠ 1 → Does (.lpmInactivityTimeout n u2 accepted) s fun t =>
    .line (if u2 then "LGO_U2" else "LGO_U1") [n.val] ∈ t.outs ∧ (accepted = true →
    t.g (SSH_PORT.LINK n) = (if u2 then 2 else 1)) := by
  intro n u2 accepted s hfrom hlo hhi hbusy hlink
  refine does_of rfl (if_neg (by rw [hfrom, hbusy]; simp [hlo, hhi])) ?_
  rw [if_neg hlink]
  dsimp only
  refine ⟨when_keeps (P := fun z : State => _ ∈ z.outs) (fun _ h => (State.ssLink_fr ..).outs.subset h) List.mem_cons_self, ?_⟩
  rintro rfl
  rw [when_true]
  exact ssLink_link (by omega) (by split <;> decide)

theorem lpmInactivityTimeout_deeper :
    ∀ (n : Stall) (accepted : Bool) (s : State), s.lpmFrom n true = true → 1 ≤ s.g (SSH_PORT_LPM.U2_TIMEOUT n) →
    s.g (SSH_PORT_LPM.U2_TIMEOUT n) ≤ 0xFE → s.egressBusy n = false → s.g (SSH_PORT.LINK n) = 1 →
    Does (.lpmInactivityTimeout n true accepted) s fun t => t.g (SSH_PORT.LINK n) = 2 := by
  intro n accepted s hfrom hlo hhi hbusy hlink
  refine does_of rfl (if_neg (by rw [hfrom, hbusy]; simp [hlo, hhi])) ?_
  rw [if_pos hlink]
  exact ssLink_link (by omega) (by decide)

theorem uspLpmInitiate_complete :
    ∀ (u : Fin 2) (u2 : Bool) (accepted : Bool) slot (s : State), s.slotOf u = some slot →
    (s.on (if u2 then SSH_USP_LPM.U2_ENABLE u else SSH_USP_LPM.U1_ENABLE u) = true) → s.lpmFrom (15 + u) u2 = true →
    s.egress (15 + u) = [] → s.paddockDeep slot u2 = true → Does (.uspLpmInitiate u u2 accepted) s fun t =>
    .line (if u2 then "LGO_U2" else "LGO_U1") [15 + u.val] ∈ t.outs ∧ (accepted = true →
    t.g (SSH_PORT.LINK (15 + u)) = (if u2 then 2 else 1)) := by
  intro u u2 accepted slot s hslot hen hfrom hegress hdeep
  refine does_of rfl rfl ?_
  rw [hslot]
  dsimp only
  rw [if_neg (by rw [hen, hfrom, hegress, hdeep]; decide)]
  refine ⟨when_keeps (P := fun z : State => _ ∈ z.outs) (fun _ h => (State.ssLink_fr ..).outs.subset h) List.mem_cons_self, ?_⟩
  rintro rfl
  rw [when_true]
  exact ssLink_link (by omega) (by split <;> decide)

theorem uspLgoReceived_accepted :
    ∀ (u : Fin 2) (u2 : Bool) (s : State), s.lpmFrom (15 + u) u2 = true → s.egress (15 + u) = [] →
    Does (.uspLgoReceived u u2) s fun t => t.g (SSH_PORT.LINK (15 + u)) = (if u2 then 2 else 1) ∧
    .line "LAU" [15 + u.val] ∈ t.outs := by
  intro u u2 s hfrom hegress
  refine does_of rfl (if_neg (by rw [hfrom]; decide)) ?_
  rw [if_pos (by rw [hegress]; rfl)]
  exact ⟨ssLink_link (by omega) (by split <;> decide), (State.ssLink_fr ..).outs.subset List.mem_cons_self⟩

theorem uspLgoReceived_refused :
    ∀ (u : Fin 2) (u2 : Bool) (s : State), s.lpmFrom (15 + u) u2 = true → s.egress (15 + u) ≠ [] →
    Does (.uspLgoReceived u u2) s fun t => t.g (SSH_PORT.LINK (15 + u)) = s.g (SSH_PORT.LINK (15 + u)) ∧
    .line "LXU" [15 + u.val] ∈ t.outs := by
  intro u u2 s hfrom hegress
  refine does_of rfl (if_neg (by rw [hfrom]; decide)) ?_
  rw [if_neg (by rwa [List.isEmpty_iff])]
  exact ⟨g_out .., List.mem_cons_self⟩

theorem lfpsDetected_lane :
    ∀ (i : Fin 20) (s : State), s.domOn (laneDom i) = false → s.domOn dHUB = true → Does (.lfpsDetected i) s fun t =>
    t = s.activity (laneDom i) := by
  intro i s hlane hhub
  refine does_of rfl (each_pair_of ..) ?_
  obtain ⟨hlt, hne⟩ := laneDom_ne_hub i i.2
  rw [when_of (s := s) _ (by rw [hlane]; rfl), when_of_not _ (by
    rw [(State.SameDom.activity hlt (by decide) hne).domOn, hhub]
    rfl)]

theorem lfpsDetected_hub :
    ∀ (i : Fin 20) (s : State), s.domOn (laneDom i) = true → s.domOn dHUB = false → Does (.lfpsDetected i) s fun t =>
    t = s.activity dHUB := by
  intro i s hlane hhub
  refine does_of rfl (each_pair_of ..) ?_
  rw [when_of_not (s := s) (c := !s.domOn (laneDom i)) _ (by rw [hlane]; rfl), when_of _ (by rw [hhub]; rfl)]

theorem lfpsDetected_both :
    ∀ (i : Fin 20) (s : State), s.domOn (laneDom i) = false → (s.activity (laneDom i)).domOn dHUB = false →
    Does (.lfpsDetected i) s fun t => t = (s.activity (laneDom i)).activity dHUB := by
  intro i s hlane hhub
  refine does_of rfl (each_pair_of ..) ?_
  rw [when_of (s := s) (c := !s.domOn (laneDom i)) _ (by rw [hlane]; rfl), when_of _ (by rw [hhub]; rfl)]

theorem deviceU3Exit_complete :
    ∀ (n : Stall) (s : State), s.g (SSH_PORT.LINK n) = 3 → s.resumeAhead n = false → Does (.deviceU3Exit n) s fun t => t.g (SSH_PORT.LINK n) = 0 ∧
    t.on (SSH_PORT_EVT.WAKE n) = true := by
  intro n s hlink hahead
  refine does_of rfl (when_of _ (by rw [hlink, hahead]; rfl)) ⟨?_, ?_⟩
  · refine g_kept (SSH_PORT.kept (by omega) (State.ssWake_fr ..) rfl rfl) <| (State.sendHeld_link (by omega)).trans <|
      g_kept (SSH_PORT.kept (by omega) (State.mirLocal_fr ..) rfl rfl) <| (g_hw_far _ (SSH_PORT_EVT.ix _ (by omega)) (SSH_PORT.ix _ (by omega))).trans ?_
    exact ssLink_link (by omega) (by decide)
  · refine on_kept (SSH_PORT_EVT.kept (by omega) (State.ssWake_fr ..) rfl rfl) <| (State.sendHeld_evt (by omega) rfl).trans <|
      on_kept (SSH_PORT_EVT.kept (by omega) (State.mirLocal_fr ..) rfl rfl) ?_
    exact on_hw _ rfl rfl

theorem hostU3Exit_complete :
    ∀ (u : Fin 2) (s : State), s.g (SSH_PORT.LINK (15 + u)) = 3 → Does (.hostU3Exit u) s fun t =>
    t.g (SSH_PORT.LINK (15 + u)) = 8 ∧ vat t.ss.exiting u = false := by
  intro u s hlink
  refine does_of rfl (when_of _ (decide_eq_true hlink)) ⟨?_, vat_vset_same _ _ u.2⟩
  exact g_regs (State.withSs_regs ..) (ssLink_link (by omega) (by decide))

theorem ssLaneLost_complete :
    ∀ (n : Channel) (upper : Bool) (s : State), s.g (SSH_PORT.LINK n) ∈ [0, 1, 2, 3, 7, 8, 9] →
    Does (.ssLaneLost n upper) s fun t => t.g (STL_LANE.STATE (laneIx n upper)) = 4 := by
  intro n upper s hlink
  refine does_of rfl (when_of _ (List.contains_iff_mem.2 hlink)) ?_
  have hlane : laneIx n upper < 28 := by
    have h2 : b2n upper ≤ 1 := b2n_le upper
    unfold laneIx
    split
    · split <;> omega
    · omega
  refine g_kept (STL_LANE.kept hlane (State.raise_fr ..) rfl rfl) <| (g_hw_far _ (SSH_PORT_EVT.ix _ n.2) (STL_LANE.ix _ hlane)).trans ?_
  exact g_p_lit rfl rfl

theorem rxDetectPartnerFound_complete :
    ∀ (n : Channel) (s : State), s.g (SSH_PORT.LINK n) = 5 → Does (.rxDetectPartnerFound n) s fun t =>
    t.g (SSH_PORT.LINK n) = 7 := by
  intro n s hlink
  refine does_of rfl (when_of _ (by rw [hlink]; rfl)) ?_
  exact g_kept (SSH_PORT.kept n.2 (State.restartHistory_fr ..) rfl rfl) (ssLink_link n.2 (by decide))

theorem itpNotice_skipped :
    ∀ (c : CtrlHdr) (slot : Fin 4) (bic : Fin 16384) u (s : State), Taken c s → s.rxCtrl c "ITP_NOTICE" [slot.val, bic.val] id = u → u.on SSH_X_TUNE.ITP_REGEN = true → u.on SSH_CTRL.ITP_EN = true → ((u.heldStalls slot).filter fun n => u.g (SSH_PORT.LINK n) = 0) ≠ [] → u.g (YRD_STATUS.STATE slot) ≠ 2 → Does (.itpNotice c slot bic) s fun t => t.g SSH_ITP_REGEN.SKIPPED = min (u.g SSH_ITP_REGEN.SKIPPED + 1) (2 ^ SSH_ITP_REGEN.SKIPPED.width - 1) := by
  intro c slot bic u s htaken hu hregen hen hstalls hstate
  refine does_of rfl ((State.rxCtrl_of_taken htaken ..).trans (by rw [hu])) ?_
  dsimp only
  rw [if_neg (by rw [hregen, hen]; simpa [List.isEmpty_iff] using hstalls), if_pos (by simp [hstate])]
  exact g_incSat rfl

theorem itpNotice_complete :
    ∀ (c : CtrlHdr) (slot : Fin 4) (bic : Fin 16384) u (s : State), Taken c s → s.rxCtrl c "ITP_NOTICE" [slot.val, bic.val] id = u → u.on SSH_X_TUNE.ITP_REGEN = true → u.on SSH_CTRL.ITP_EN = true → u.on (YRD_STATUS.STALE slot) = false → u.g (YRD_STATUS.STATE slot) = 2 → (vat u.yards slot).iv % 16384 = bic.val → Does (.itpNotice c slot bic) s fun t => ∀ n ∈ (u.heldStalls slot).filter (fun n => u.g (SSH_PORT.LINK n) = 0), .line "ITP" [n, bic.val, ((vat u.yards slot).tick * 3 + 5) / 10, 0] ∈ t.outs := by
  intro c slot bic u s htaken hu hregen hen hstale hstate hiv
  refine does_of rfl ((State.rxCtrl_of_taken htaken ..).trans (by rw [hu])) ?_
  dsimp only
  intro n hn
  have hpast : ((vat u.yards slot).iv + 16384 - bic.val) % 16384 = 0 := by omega
  rw [if_neg (by rw [hregen, hen]; simpa [List.isEmpty_iff] using List.ne_nil_of_mem hn), hpast,
    if_neg (by rw [hstale, hstate]; decide), if_pos rfl]
  exact each_out_mem (o := fun n => .line "ITP" [n, bic.val, ((vat u.yards slot).tick * 3 + 5) / 10, 0])
    (fun _ _ _ hx => List.mem_cons_of_mem _ hx) (fun _ _ => List.mem_cons_self) hn

theorem ldmExchange_measured :
    ∀ (n : Channel) (result : Option Nat) d (s : State), 15 ≤ n.val → s.g (SSH_PORT.LINK n) = 0 → s.on SSH_CTRL.LDM_EN = true →
    s.on (SSH_USP_LPM.LDM_ENABLE (n - 15)) = true → result = some d → Does (.ldmExchange n result) s fun t =>
    t.g (SSH_PTM.DELAY (n - 15)) = min 65535 (medianOf ((d :: vat s.ss.ldm (n.val - 15)).take 8)) ∧
    t.on (SSH_PTM.VALID (n - 15)) = true := by
  rintro n result d s hn hlink hen hldm rfl
  refine does_of rfl (if_neg (by rw [hlink, hen]; decide)) ?_
  rw [if_neg (by omega), if_neg (by rw [hldm]; decide)]
  have hu : n.val - 15 < 2 := by omega
  exact ⟨(g_p_beside _ _ rfl).trans (g_p_of_lt rfl (by show _ < 2 ^ 16; omega)), on_p_one _ rfl rfl⟩

theorem ldmExchange_failed :
    ∀ (n : Channel) (result : Option Nat) (s : State), 15 ≤ n.val → s.g (SSH_PORT.LINK n) = 0 → s.on SSH_CTRL.LDM_EN = true →
    s.on (SSH_USP_LPM.LDM_ENABLE (n - 15)) = true → result = none → Does (.ldmExchange n result) s fun t =>
    t.on (SSH_PORT_EVT.LDM_FAIL n) = true := by
  rintro n result s hn hlink hen hldm rfl
  refine does_of rfl (if_neg (by rw [hlink, hen]; decide)) ?_
  rw [if_neg (by omega), if_neg (by rw [hldm]; decide)]
  exact on_hw _ rfl rfl

theorem ldmExchange_answered :
    ∀ (n : Channel) (result : Option Nat) (s : State), n.val ≤ 14 → s.g (SSH_PORT.LINK n) = 0 → s.on SSH_CTRL.LDM_EN = true →
    Does (.ldmExchange n result) s fun t => t = s.out (.line "LDM_RESPONSE" [n.val]) := by
  intro n result s hn hlink hen
  refine does_of rfl (if_neg (by rw [hlink, hen]; decide)) ?_
  rw [if_pos hn]

/-- Settles O32: One clause per event: a link takes its state by `ssLink_link`; a vote on a lane's domain leaves HUB as it is by `State.SameDom.activity`. -/
theorem superSpeedLinksComplete : Obligations.SuperSpeedLinksComplete := by
  unfold Obligations.SuperSpeedLinksComplete
  exact ⟨lgoReceived_accepted, lgoReceived_refused, lpmInactivityTimeout_complete, lpmInactivityTimeout_deeper,
    uspLpmInitiate_complete, uspLgoReceived_accepted, uspLgoReceived_refused, lfpsDetected_lane, lfpsDetected_hub,
    lfpsDetected_both, deviceU3Exit_complete, hostU3Exit_complete, ssLaneLost_complete,
    rxDetectPartnerFound_complete, itpNotice_skipped, itpNotice_complete, ldmExchange_measured, ldmExchange_failed,
    ldmExchange_answered⟩

end Sys2Proof.Machine

/-!
# A stall whose power LIFELINE cannot give
-/
namespace Sys2Proof.Machine

set_option Elab.async false

/-- The position of stall 1 in slot 2's root. -/
def lifePosition : MirPos := { slot := 2, hub := 0, port := 1, kind := 1, member := 0, stall := 1 }

/-- LIFELINE at the home of slot 2: its LIFE stall 1 asks for 5 V at 1.5 A, where UP0's implicit contract leaves 500 mW. -/
def lifeOver : State :=
  ((((State.reset.withPlan
      { Plan.empty with paddocks := [⟨2, 0, 0, 0, 3, 1, 0, [⟨1, 1⟩], []⟩], stalls := [⟨0, 1, 1, 0x10, 2, 0, 1, 0, 1⟩] }).bootMod
    fun b => { b with held := 0 }).fields
      [(UPP_PADDOCK.BOUND 0, 1), (TOP_MODE.MODE, 1), (PPW_CTRL.ENABLE, 1), (PPW_LIMIT.ILIM 1, 1500), (TCP_VSET.TARGET 1, 1000)]).withHolders
        [⟨0, 1, 2⟩]).chMod 1 (fun c => { c with vbusLow := true }) |>.withMirror [lifePosition]

/-- The stall is shed at once, which takes PORT_POWER from it again (R357). -/
theorem lifeOver_sheds : (((lifeOver.portReq 2 0 1 fun q s => s.powerReq q false true)).ch 1).portPower = false := by decide +kernel

/-- Refutes O38: a SET_PORT_POWER does not always leave the port powered. In LIFELINE a stall whose first-use power is above the
starter's budget is handled as shed in the same step (`lifeOver`): its position reports over-current and PORT_POWER is cleared. -/
theorem not_portRequestsComplete : ¬ Obligations.PortRequestsComplete := by
  unfold Obligations.PortRequestsComplete
  intro h
  obtain ⟨-, -, -, -, -, -, -, -, -, -, -, hpower, -⟩ := h
  obtain ⟨t, ht, hon, -⟩ := hpower 2 0 1 false lifePosition lifeOver (by decide +kernel) (by decide +kernel) (by decide +kernel) rfl
    (by decide +kernel) (by decide)
  obtain rfl : lifeOver.portReq 2 0 1 (fun q s => s.powerReq q false true) = t := Host.Outcome.next.inj ht
  exact Bool.false_ne_true (lifeOver_sheds.symm.trans hon)

end Sys2Proof.Machine

/-!
# Status requests and reports of a logical hub
-/
namespace Sys2Proof.Machine

set_option Elab.async false

section
variable {s : State} {slot hub port : Nat} {q : MirPos}

theorem State.portReq_of (hans : s.answers slot hub = true) (hq : s.mir slot hub port = some q) (f : MirPos → State → State) :
    s.portReq slot hub port f = f q s := by
  unfold State.portReq
  rw [when_of _ hans, hq]

theorem State.portReq_none (hans : s.answers slot hub = true) (hq : s.mir slot hub port = none) (f : MirPos → State → State) :
    s.portReq slot hub port f = s.out (.usbStall slot) := by
  unfold State.portReq
  rw [when_of _ hans, hq]

theorem State.hubData_outs (ss : Bool) (l : List Byte) : .usbData slot l ∈ (s.hubData slot hub ss l).outs := List.mem_cons_self

/-- The first element of a kind, after a change of all elements of the kind that keeps them in it. -/
theorem find?_map_kept {α : Type} {p : α → Bool} {f : α → α} (hf : ∀ x, p x = true → p (f x) = true) {l : List α} {y : α}
    (h : l.find? p = some y) : (l.map fun x => if p x then f x else x).find? p = some (f y) := by
  induction l with
  | nil => cases h
  | cons x t ih =>
    cases hx : p x
    · rw [List.find?_cons_of_neg (by simp [hx])] at h
      rw [List.map_cons, hx, if_neg Bool.false_ne_true, List.find?_cons_of_neg (by simp [hx]), ih h]
    · rw [List.find?_cons_of_pos hx] at h
      obtain rfl := Option.some.inj h
      rw [List.map_cons, hx, if_pos rfl, List.find?_cons_of_pos (hf _ hx)]

/-- The position that a change of a mirror entry leaves, where the change keeps whose position it is. -/
theorem State.mir_mirMod (hq : s.mir slot hub port = some q) (f : MirPos → MirPos)
    (hf : ∀ x : MirPos, (f x).slot = x.slot ∧ (f x).hub = x.hub ∧ (f x).port = x.port) :
    (s.mirMod slot hub port f).mir slot hub port = some (f q) :=
  find?_map_kept (p := fun x : MirPos => x.slot = slot && x.hub = hub && x.port = port)
    (fun x hx => by obtain ⟨h1, h2, h3⟩ := hf x; rw [h1, h2, h3]; exact hx) hq

theorem State.mirWoke_mirror (x : MirPos) (a b : Nat) : (s.mirWoke x a b).mirror = s.mirror := by
  unfold State.mirWoke
  dsimp only
  split
  · exact when_keeps (P := fun z : State => z.mirror = s.mirror) (fun _ h => ((State.wakeHost_fr ..).mirror rfl).trans h) rfl
  · rfl

theorem State.mirWoke_mir (x : MirPos) (a b y h p : Nat) : (s.mirWoke x a b).mir y h p = s.mir y h p := by
  rw [State.mir, State.mirWoke_mirror, State.mir]

end

theorem mirrorRecord_taken :
    ∀ (c : CtrlHdr) (slot : Fin 4) (hub : Fin 16) (port : Fin 16) (seq : Nat) (hs : Nat) (hsChg : Nat) (ss : Nat) (ssChg : Nat) (u1 : Nat) (u2 : Nat) q u (s : State), Taken c s → s.rxCtrl c "MIRROR" [slot.val, hub.val, port.val, seq, hs, hsChg, ss, ssChg, u1, u2] id = u → u.mir slot hub port = some q → q.reach = true → seq = (q.st.seq + 1) % 65536 → Does (.mirrorRecord c slot hub port seq hs hsChg ss ssChg u1 u2) s fun t => t = (u.mirMod slot hub port fun x => x.take { x.st with hs := hs, hsChg := hsChg, ss := ss, ssChg := ssChg, seq := seq } u1 u2 u.cycle).mirWoke q ss ssChg := by
  intro c slot hub port seq hs hsChg ss ssChg u1 u2 q u s htaken hu hq hreach hseq
  refine does_of rfl ((State.rxCtrl_of_taken htaken ..).trans (by rw [hu])) ?_
  rw [hq]
  dsimp only
  rw [if_pos (by rw [hreach]; simpa using hseq)]

theorem mirrorRecord_gap :
    ∀ (c : CtrlHdr) (slot : Fin 4) (hub : Fin 16) (port : Fin 16) (seq : Nat) (hs : Nat) (hsChg : Nat) (ss : Nat) (ssChg : Nat) (u1 : Nat) (u2 : Nat) q u (s : State), Taken c s → s.rxCtrl c "MIRROR" [slot.val, hub.val, port.val, seq, hs, hsChg, ss, ssChg, u1, u2] id = u → u.mir slot hub port = some q → seq ≠ (q.st.seq + 1) % 65536 → Does (.mirrorRecord c slot hub port seq hs hsChg ss ssChg u1 u2) s fun t => t.on UPP_EVT.MIRROR_RESYNC = true := by
  intro c slot hub port seq hs hsChg ss ssChg u1 u2 q u s htaken hu hq hseq
  refine does_of rfl ((State.rxCtrl_of_taken htaken ..).trans (by rw [hu])) ?_
  rw [hq]
  dsimp only
  rw [if_neg (by simp [hseq])]
  exact on_kept (UPP_EVT.kept (State.ctrlTo_fr ..) rfl rfl) <| on_kept (UPP_EVT.kept (State.raise_fr ..) rfl rfl) <| on_hw _ rfl rfl

theorem mirrorSnapshot_timer :
    ∀ (e : SnapEvent) slot (s : State), e = .timer slot → (vat s.yards slot).iv % 1000 = 0 →
    Does (.mirrorSnapshot e) s fun t => t = s.each (s.heldStalls slot) fun n v => v.snapshot n := by
  rintro e slot s rfl hiv
  exact does_of rfl (when_of _ (decide_eq_true hiv)) rfl

theorem mirrorSnapshot_asked :
    ∀ (e : SnapEvent) c slot hub port n u (s : State), e = .asked c slot hub port → Taken c s → s.rxCtrl c "MIRROR_ASK" [slot.val, hub.val, port.val] id = u → (u.heldStalls slot).find? (fun n => (u.posOf n).any fun (x : Nat × Pos × Nat) => x.2.1.hub = hub.val && x.2.1.port = port.val) = some n → Does (.mirrorSnapshot e) s fun t => t = match u.posOf n with | some (y, p, _) => u.ctrlTo c.src "SNAPSHOT" (u.mirFields n y p.hub p.port) | none => u := by
  rintro e c slot hub port n u s rfl htaken hu hn
  refine does_of rfl ((State.rxCtrl_of_taken htaken ..).trans (by rw [hu])) ?_
  rw [hn] <;> rfl

theorem mirrorSnapshot_got :
    ∀ (e : SnapEvent) c slot hub port seq hs hsChg ss ssChg u1 u2 q u (s : State), e = .got c slot hub port seq hs hsChg ss ssChg u1 u2 → Taken c s → s.rxCtrl c "SNAPSHOT" [slot.val, hub.val, port.val, seq, hs, hsChg, ss, ssChg, u1, u2] id = u → u.mir slot hub port = some q → Does (.mirrorSnapshot e) s fun t => (t.mir slot hub port).map (fun x => (x.reach, x.st.hs, x.st.ss, x.st.seq, x.u1, x.u2)) = some (true, hs, ss, seq, u1, u2) := by
  rintro e c slot hub port seq hs hsChg ss ssChg u1 u2 q u s rfl htaken hu hq
  refine does_of rfl ((State.rxCtrl_of_taken htaken ..).trans (by rw [hu])) ?_
  dsimp only
  rw [hq, Option.map_some, Option.getD_some]
  rw [State.mirWoke_mir, State.mir_mirMod hq]
  · rfl
  · exact fun _ => ⟨rfl, rfl, rfl⟩

theorem statusChangeIn_complete :
    ∀ (slot : Fin 4) (hub : Fin 16) (ss : Bool) (s : State), s.answers slot hub = true →
    Does (.statusChangeIn slot hub ss) s fun t =>
    (let m := ((s.mirror.filter fun q => q.slot = slot.val && q.hub = hub.val && (let v := s.shown q; clrBits (if ss then v.ssChg else v.hsChg) (if q.newAt = s.cycle then (if ss then q.newSs else q.newHs) else 0) ≠ 0)).map fun q => 2 ^ q.port).sum; (if m = 0 then Out.usbNak slot else .usbData slot (leBytes 2 m)) ∈ t.outs) := by
  intro slot hub ss s hans
  refine does_of rfl (when_of _ hans) ?_
  dsimp only
  generalize ((s.mirror.filter _).map fun (q : MirPos) => 2 ^ q.port).sum = m
  by_cases hm : m = 0
  · rw [if_pos hm, if_pos hm]
    exact List.mem_cons_self
  · rw [if_neg hm, if_neg hm]
    exact List.mem_cons_self

theorem getHubStatus_complete :
    ∀ (slot : Fin 4) (hub : Fin 16) (s : State), s.answers slot hub = true → Does (.getHubStatus slot hub) s fun t =>
    .usbData slot (leBytes 4 (b2n (s.mode = 1))) ∈ t.outs := by
  intro slot hub s hans
  exact does_of rfl (when_of _ hans) (State.hubData_outs ..)

theorem getPortStatus_complete :
    ∀ (slot : Fin 4) (hub : Fin 16) (port : Fin 16) (ss : Bool) q (s : State), s.answers slot hub = true →
    s.mir slot hub port = some q → Does (.getPortStatus slot hub port ss) s fun t =>
    .usbData slot (if ss then leBytes 2 (s.shown q).ss ++ leBytes 2 (s.shown q).ssChg else leBytes 2 (s.shown q).hs ++ leBytes 2 (s.shown q).hsChg) ∈ t.outs := by
  intro slot hub port ss q s hans hq
  exact does_of rfl (State.portReq_of hans hq _) (State.hubData_outs ..)

theorem getPortStatus_none :
    ∀ (slot : Fin 4) (hub : Fin 16) (port : Fin 16) (ss : Bool) (s : State), s.answers slot hub = true →
    s.mir slot hub port = none → Does (.getPortStatus slot hub port ss) s fun t => .usbStall slot ∈ t.outs := by
  intro slot hub port ss s hans hq
  exact does_of rfl (State.portReq_none hans hq _) List.mem_cons_self

theorem getPortStatusExt_asked :
    ∀ (slot : Fin 4) (hub : Fin 16) (port : Fin 16) q (s : State), s.answers slot hub = true →
    s.mir slot hub port = some q → q.kind = 1 → s.heldBy q = true → q.reach = true → Does (.getPortStatusExt slot hub port) s fun t =>
    t = s.askHolder q .queryExt := by
  intro slot hub port q s hans hq hkind hheld hreach
  refine does_of rfl (State.portReq_of hans hq _) ?_
  rw [if_pos (by rw [hheld, hreach, hkind]; rfl)]

theorem getPortStatusExt_answered :
    ∀ (slot : Fin 4) (hub : Fin 16) (port : Fin 16) q (s : State), s.answers slot hub = true →
    s.mir slot hub port = some q → (q.kind = 1 && s.heldBy q && q.reach) = false → Does (.getPortStatusExt slot hub port) s fun t =>
    .usbData slot (([(s.shown q).ss, (s.shown q).ssChg] ++ (if q.kind = 2 && bitOf (s.shown q).ss 0 then
    rateLanes (s.g (SSH_PORT.RATE (15 + s.upOf slot))) else [0, 0])).flatMap fun x => leBytes 4 x) ∈ t.outs := by
  intro slot hub port q s hans hq hno
  refine does_of rfl (State.portReq_of hans hq _) ?_
  rw [if_neg (by rw [hno]; decide)]
  exact State.hubData_outs ..

theorem getPortErrorCount_asked :
    ∀ (slot : Fin 4) (hub : Fin 16) (port : Fin 16) q (s : State), s.answers slot hub = true →
    s.mir slot hub port = some q → q.kind = 1 → s.heldBy q = true → q.reach = true → Does (.getPortErrorCount slot hub port) s fun t =>
    t = s.askHolder q .queryErr := by
  intro slot hub port q s hans hq hkind hheld hreach
  refine does_of rfl (State.portReq_of hans hq _) ?_
  rw [if_pos (by rw [hheld, hreach, hkind]; rfl)]

theorem getPortErrorCount_answered :
    ∀ (slot : Fin 4) (hub : Fin 16) (port : Fin 16) q (s : State), s.answers slot hub = true →
    s.mir slot hub port = some q → (q.kind = 1 && s.heldBy q && q.reach) = false → Does (.getPortErrorCount slot hub port) s fun t =>
    .usbData slot (leBytes 2 0) ∈ t.outs := by
  intro slot hub port q s hans hq hno
  refine does_of rfl (State.portReq_of hans hq _) ?_
  rw [if_neg (by rw [hno]; decide)]
  exact State.hubData_outs ..

theorem hubRequestResult_here :
    ∀ (src : Option CtrlHdr) (slot : Fin 4) (hub : Fin 16) (port : Fin 16) (words : List Nat) w (s : State), src = none →
    s.hubWaits.find? (fun w => w.slot = slot.val && w.hub = hub.val && w.port = port.val) = some w →
    Does (.hubRequestResult src slot hub port words) s fun t => t = s.finishWait w words := by
  rintro src slot hub port words w s rfl hw
  refine does_of rfl rfl ?_
  dsimp only
  rw [hw]

theorem hubRequestResult_reported :
    ∀ (src : Option CtrlHdr) (slot : Fin 4) (hub : Fin 16) (port : Fin 16) (words : List Nat) c w u (s : State), src = some c → Taken c s → s.rxCtrl c "HUB_RESULT" ([slot.val, hub.val, port.val] ++ words) id = u → u.hubWaits.find? (fun w => w.slot = slot.val && w.hub = hub.val && w.port = port.val) = some w → Does (.hubRequestResult src slot hub port words) s fun t => t = u.finishWait w words := by
  rintro src slot hub port words c w u s rfl htaken hu hw
  refine does_of rfl ((State.rxCtrl_of_taken htaken ..).trans (by rw [hu])) ?_
  rw [hw]

theorem getHubDescriptor_complete :
    ∀ (slot : Fin 4) (hub : Fin 16) (ss : Bool) (d : DescReq) l (s : State), s.answers slot hub = true →
    s.hubAnswer slot hub ss (hub.val = 0 && (s.rootEngine slot).any fun e => s.g (HSH_ENG.SPEED e) = 1) d = some l →
    Does (.getHubDescriptor slot hub ss d) s fun t => .usbData slot l ∈ t.outs := by
  intro slot hub ss d l s hans hl
  refine does_of rfl (when_of _ hans) ?_
  dsimp only
  rw [hl]
  exact State.hubData_outs ..

theorem getHubDescriptor_none :
    ∀ (slot : Fin 4) (hub : Fin 16) (ss : Bool) (d : DescReq) (s : State), s.answers slot hub = true →
    s.hubAnswer slot hub ss (hub.val = 0 && (s.rootEngine slot).any fun e => s.g (HSH_ENG.SPEED e) = 1) d = none →
    Does (.getHubDescriptor slot hub ss d) s fun t => .usbStall slot ∈ t.outs := by
  intro slot hub ss d s hans hl
  refine does_of rfl (when_of _ hans) ?_
  dsimp only
  rw [hl]
  exact List.mem_cons_self

theorem clearHubFeature_complete :
    ∀ (slot : Fin 4) (hub : Fin 16) (oc : Bool) (s : State), s.answers slot hub = true →
    Does (.clearHubFeature slot hub oc) s fun t => .usbAck slot ∈ t.outs := by
  intro slot hub oc s hans
  exact does_of rfl (when_of _ hans) List.mem_cons_self

theorem unsupportedHubRequest_complete :
    ∀ (slot : Fin 4) (hub : Fin 16) (s : State), s.answers slot hub = true →
    Does (.unsupportedHubRequest slot hub) s fun t => .usbStall slot ∈ t.outs := by
  intro slot hub s hans
  exact does_of rfl (when_of _ hans) List.mem_cons_self

/-- Settles O37: One clause per request or report: a request to a position that exists is its own function of that position (`State.portReq_of`). -/
theorem hubRequestsComplete : Obligations.HubRequestsComplete := by
  unfold Obligations.HubRequestsComplete
  exact ⟨mirrorRecord_taken, mirrorRecord_gap, mirrorSnapshot_timer, mirrorSnapshot_asked, mirrorSnapshot_got,
    statusChangeIn_complete, getHubStatus_complete, getPortStatus_complete, getPortStatus_none,
    getPortStatusExt_asked, getPortStatusExt_answered, getPortErrorCount_asked, getPortErrorCount_answered,
    hubRequestResult_here, hubRequestResult_reported, getHubDescriptor_complete, getHubDescriptor_none,
    clearHubFeature_complete, unsupportedHubRequest_complete⟩

end Sys2Proof.Machine

/-!
# Requests on the SuperSpeed side of a position, and the hand-off of stalls
-/
namespace Sys2Proof.Machine

set_option Elab.async false

section
variable {s : State} {slot hub port n : Nat} {q : MirPos} {act : PortAct}

theorem State.mir_slot (hq : s.mir slot hub port = some q) : q.slot = slot := by
  have hmatch := List.find?_some (p := fun x : MirPos => x.slot = slot && x.hub = hub && x.port = port) hq
  simp only [Bool.and_eq_true, decide_eq_true_eq] at hmatch
  exact hmatch.1.1

theorem State.heldBy_kind (h : s.heldBy q = true) : q.kind = 1 := by
  rw [State.heldBy, Bool.and_eq_true, decide_eq_true_eq] at h
  exact h.1

/-- An act without a stamp on a stall of this chip acts at once, and the request is acknowledged (R135, R162). -/
theorem State.actOn_here (hheld : s.heldBy q = true) (hreach : q.reach = true) (hmember : q.member = s.member)
    (hst : stamped act = false) (hw : Machine.waits act = false) :
    s.actOn q act = (s.doAct q.slot q.stall act).out (.usbAck q.slot) := by
  unfold State.actOn
  rw [when_of _ (by rw [hheld, hreach]; rfl)]
  unfold State.issue
  rw [hst]
  dsimp only
  rw [when_false, if_pos hmember]
  unfold State.arrive
  rw [hw, hst, if_neg Bool.false_ne_true]
  rfl

/-- The request on a position held here, for an act without a stamp. -/
theorem State.portReq_here (hans : s.answers slot hub = true) (hq : s.mir slot hub port = some q) (hheld : s.heldBy q = true)
    (hreach : q.reach = true) (hmember : q.member = s.member) (hst : stamped act = false) (hw : Machine.waits act = false) :
    s.portReq slot hub port (fun q s => s.actOn q act) = (s.doAct slot q.stall act).out (.usbAck slot) := by
  rw [State.portReq_of hans hq, State.actOn_here hheld hreach hmember hst hw, State.mir_slot hq]

/-! ## What the acts on a stall's SuperSpeed side leave -/

theorem State.doAct_u1 (k : Nat) (hn : n < 15) {v : Nat} (hv : v < 256) : (s.doAct k n (.u1 v)).g (SSH_PORT_LPM.U1_TIMEOUT n) = v :=
  g_kept (SSH_PORT_LPM.kept hn (State.mirSend_fr ..) rfl rfl) (g_p_of_lt rfl hv)

theorem State.doAct_u2 (k : Nat) (hn : n < 15) {v : Nat} (hv : v < 256) : (s.doAct k n (.u2 v)).g (SSH_PORT_LPM.U2_TIMEOUT n) = v :=
  g_kept (SSH_PORT_LPM.kept hn (State.mirSend_fr ..) rfl rfl) (g_p_of_lt rfl hv)

theorem State.doAct_u3 (k : Nat) (hn : n < 15) (hlink : s.g (SSH_PORT.LINK n) ≤ 2) :
    (s.doAct k n (.linkState 3)).g (SSH_PORT.LINK n) = 3 ∧ .line "LGO_U3" [n] ∈ (s.doAct k n (.linkState 3)).outs := by
  unfold State.doAct
  dsimp only
  rw [if_pos hlink]
  exact ⟨ssLink_link (by omega) (by decide), (State.ssLink_fr ..).outs.subset List.mem_cons_self⟩

theorem State.doAct_disabled (k : Nat) (hn : n < 15) : (s.doAct k n (.linkState 4)).g (SSH_PORT.LINK n) = 4 :=
  ssLink_link (by omega) (by decide)

theorem State.doAct_u3Exit (k : Nat) (hn : n < 15) (hlink : s.g (SSH_PORT.LINK n) = 3) :
    (s.doAct k n (.linkState 0)).g (SSH_PORT.LINK n) = 8 ∧ .line "U3_EXIT" [n] ∈ (s.doAct k n (.linkState 0)).outs := by
  unfold State.doAct
  dsimp only
  rw [if_pos hlink]
  exact ⟨ssLink_link (by omega) (by decide), (State.ssLink_fr ..).outs.subset List.mem_cons_self⟩

theorem State.doAct_hotReset (k : Nat) (hn : n < 15) (hlink : s.g (SSH_PORT.LINK n) ≤ 3) :
    (s.doAct k n .hotReset).g (SSH_PORT.LINK n) = 9 ∧ .line "HOT_RESET" [n] ∈ (s.doAct k n .hotReset).outs := by
  unfold State.doAct
  dsimp only
  rw [if_pos (.inl hlink)]
  refine ⟨g_kept (SSH_PORT.kept (by omega) (State.mirLocal_fr ..) rfl rfl) ?_, (State.mirLocal_fr ..).outs.subset List.mem_cons_self⟩
  rw [g_out]
  exact ssLink_link (by omega) (by decide)

theorem State.doAct_warmReset (k : Nat) (hn : n < 15) (hlink : s.g (SSH_PORT.LINK n) ≠ 4) :
    (s.doAct k n .warmReset).g (SSH_PORT.LINK n) = 5 ∧ .line "WARM_RESET" [n] ∈ (s.doAct k n .warmReset).outs := by
  unfold State.doAct
  dsimp only
  rw [if_neg hlink]
  have hn' : n < 17 := by omega
  refine ⟨?_, (State.mirLocal_fr ..).outs.subset <| (State.linkJudge_fr ..).outs.subset <| (State.linkJudge_fr ..).outs.subset List.mem_cons_self⟩
  refine g_kept (SSH_PORT.kept hn' (State.mirLocal_fr ..) rfl rfl) <| g_kept (SSH_PORT.kept hn' (State.linkJudge_fr ..) rfl rfl) <|
    g_kept (SSH_PORT.kept hn' (State.linkJudge_fr ..) rfl rfl) ?_
  rw [g_out, g_hw_far _ (SSH_PORT_EVT.ix _ hn') (SSH_PORT.ix _ hn')]
  exact g_p_lit rfl rfl

theorem State.doAct_wakeMask (k : Nat) (hn : n < 15) (v : Nat) : (vat (s.doAct k n (.wakeMask v)).port n).wakeMask = v :=
  congrArg PortStat.wakeMask (vat_vmod s.port _ hn)

theorem State.doAct_forceLpm (k : Nat) (hn : n < 15) (b : Bool) : (vat (s.doAct k n (.forceLpm b)).port n).forceLpm = b :=
  congrArg PortStat.forceLpm (vat_vmod s.port _ hn)

/-! ## A hub's depth -/

/-- Each context of a hub that a change reaches has taken it. -/
theorem State.hubOf_hubMod {pen : Nat} {f : HubS → HubS} {h : HubS}
    (hh : (s.hubMod slot pen f).hubOf slot pen = some h) : ∃ x, h = f x := by
  have hmem : h ∈ s.ss.hubs.map fun x => if x.slot = slot && x.pen = pen then f x else x := List.mem_of_find?_eq_some hh
  have hkey := List.find?_some (p := fun x : HubS => decide (x.slot = slot ∧ x.pen = pen)) hh
  obtain ⟨x, -, hx⟩ := List.mem_map.1 hmem
  by_cases hc : (x.slot = slot && x.pen = pen : Bool) = true
  · exact ⟨x, (hx.symm.trans (if_pos hc))⟩
  · have hxh : x = h := (if_neg hc).symm.trans hx
    exact absurd (by simpa [hxh] using hkey) hc

theorem State.ctxEach_ss {pen : Nat} {f : Nat → State → State} (hf : ∀ i u, (f i u).ss = u.ss) : (s.ctxEach slot pen f).ss = s.ss :=
  each_keeps (P := fun z : State => z.ss = s.ss) (fun i u h => (hf i u).trans h) _ _ rfl

/-- What SET_HUB_DEPTH does after the root's depth has changed leaves the hubs as they are. -/
theorem State.setDepth_hubOf {u : Nat} {b : Bool} {d : Nat} {o : Out} {h : HubS}
    (hh : (((s.ctxEach slot 15 fun i s => (s.p (SSH_CTX.DEPTH i) d).p (SSH_CTX.DEPTH_SET i) 1).when b fun s => s.tellUp slot).out o).hubOf u 15 =
      some h) : s.hubOf u 15 = some h := by
  have hss : ((s.ctxEach slot 15 fun i s => (s.p (SSH_CTX.DEPTH i) d).p (SSH_CTX.DEPTH_SET i) 1).when b fun s => s.tellUp slot).ss = s.ss :=
    when_keeps (P := fun z : State => z.ss = s.ss) (fun _ h => ((State.tellUp_fr ..).ss rfl).trans h) (State.ctxEach_ss fun _ _ => rfl)
  have hfind := congrArg (fun x : SsS => x.hubs.find? fun (h : HubS) => decide (h.slot = u ∧ h.pen = 15)) hss
  exact hfind.symm.trans hh

/-! ## Orders of the lead -/

/-- A hand-off that begins stands at its first step, with its stalls and its destination (R167). -/
theorem State.beginHandoff_mem (l : List Holder) (dest : Nat) :
    ∃ h ∈ (s.beginHandoff l dest).handoff, h.dest = dest ∧ h.step = 1 ∧ h.stalls = l := by
  unfold State.beginHandoff
  dsimp only
  rw [(State.handTell_fr ..).handoff rfl]
  exact ⟨_, List.mem_append_right _ (List.mem_singleton_self _), rfl, rfl, rfl⟩

theorem State.kvmPress_of {d : Nat} (hnext : s.kvmNext = some d) (hmode : s.mode = 3)
    (hfree : ((s.kvmStalls d).any fun h => s.handing (h.member, h.stall)) = false) :
    s.kvmPress = (true, s.beginHandoff (s.kvmStalls d) d) := by
  unfold State.kvmPress
  rw [hnext]
  dsimp only
  rw [if_neg (by rw [hmode, hfree]; decide)]

end

theorem setHubDepth_complete :
    ∀ (slot : Fin 4) (hub : Fin 16) (depth : Fin 65536) (s : State), s.answers slot hub = true → hub.val = 0 →
    depth.val ≤ 4 → Does (.setHubDepth slot hub depth) s fun t => (∀ h, t.hubOf slot 0xF = some h → h.depth = depth.val ∧
    h.depthSet = true) ∧ .usbAck slot ∈ t.outs := by
  intro slot hub depth s hans hhub hdepth
  refine does_of rfl (when_of _ hans) ?_
  dsimp only
  rw [if_neg (by simp [hhub, hdepth]), if_pos hhub]
  refine ⟨fun h hh => ?_, List.mem_cons_self⟩
  obtain ⟨x, rfl⟩ := State.hubOf_hubMod (State.setDepth_hubOf hh)
  exact ⟨rfl, rfl⟩

theorem setHubDepth_refused :
    ∀ (slot : Fin 4) (hub : Fin 16) (depth : Fin 65536) (s : State), s.answers slot hub = true → 4 < depth.val →
    Does (.setHubDepth slot hub depth) s fun t => .usbStall slot ∈ t.outs := by
  intro slot hub depth s hans hdepth
  refine does_of rfl (when_of _ hans) ?_
  dsimp only
  rw [if_pos (by simp; omega)]
  exact List.mem_cons_self

theorem setPortU1Timeout_acts :
    ∀ (slot : Fin 4) (hub : Fin 16) (port : Fin 16) (v : Fin 256) q (s : State), s.answers slot hub = true →
    s.mir slot hub port = some q → Does (.setPortU1Timeout slot hub port v) s fun t =>
    t = (s.mirMod slot hub port fun x => { x with u1 := v }).actOn q (.u1 v) := by
  intro slot hub port v q s hans hq
  exact does_of rfl (State.portReq_of hans hq _) rfl

theorem setPortU1Timeout_complete :
    ∀ (slot : Fin 4) (hub : Fin 16) (port : Fin 16) (v : Fin 256) q (s : State), s.answers slot hub = true → s.mir slot hub port = some q → 
    s.heldBy q = true → q.reach = true → q.member = s.member → q.stall < 15 → Does (.setPortU1Timeout slot hub port v) s fun t =>
    t.g (SSH_PORT_LPM.U1_TIMEOUT q.stall) = v ∧ .usbAck slot ∈ t.outs := by
  intro slot hub port v q s hans hq hheld hreach hmember hn
  refine does_of rfl (State.portReq_of hans hq _) ?_
  rw [State.actOn_here (s := s.mirMod slot hub port _) hheld hreach hmember rfl rfl, State.mir_slot hq]
  exact ⟨(g_out ..).trans (State.doAct_u1 _ hn v.2), List.mem_cons_self⟩

theorem setPortU2Timeout_acts :
    ∀ (slot : Fin 4) (hub : Fin 16) (port : Fin 16) (v : Fin 256) q (s : State), s.answers slot hub = true →
    s.mir slot hub port = some q → Does (.setPortU2Timeout slot hub port v) s fun t =>
    t = (s.mirMod slot hub port fun x => { x with u2 := v }).actOn q (.u2 v) := by
  intro slot hub port v q s hans hq
  exact does_of rfl (State.portReq_of hans hq _) rfl

theorem setPortU2Timeout_complete :
    ∀ (slot : Fin 4) (hub : Fin 16) (port : Fin 16) (v : Fin 256) q (s : State), s.answers slot hub = true → s.mir slot hub port = some q → 
    s.heldBy q = true → q.reach = true → q.member = s.member → q.stall < 15 → Does (.setPortU2Timeout slot hub port v) s fun t =>
    t.g (SSH_PORT_LPM.U2_TIMEOUT q.stall) = v ∧ .usbAck slot ∈ t.outs := by
  intro slot hub port v q s hans hq hheld hreach hmember hn
  refine does_of rfl (State.portReq_of hans hq _) ?_
  rw [State.actOn_here (s := s.mirMod slot hub port _) hheld hreach hmember rfl rfl, State.mir_slot hq]
  exact ⟨(g_out ..).trans (State.doAct_u2 _ hn v.2), List.mem_cons_self⟩

theorem setPortLinkState_acts :
    ∀ (slot : Fin 4) (hub : Fin 16) (port : Fin 16) (v : Fin 16) q (s : State), s.answers slot hub = true →
    s.mir slot hub port = some q → v.val ∈ [0, 3, 4, 5] → q.kind ≠ 2 → Does (.setPortLinkState slot hub port v) s fun t =>
    t = s.actOn q (.linkState v) := by
  intro slot hub port v q s hans hq hv hkind
  refine does_of rfl (State.portReq_of hans hq _) ?_
  rw [if_neg (by rw [List.contains_iff_mem.2 hv]; decide), if_neg hkind]

theorem setPortLinkState_u3 :
    ∀ (slot : Fin 4) (hub : Fin 16) (port : Fin 16) (v : Fin 16) q (s : State), s.answers slot hub = true → s.mir slot hub port = some q → v.val = 3 → s.g (SSH_PORT.LINK q.stall) ≤ 2 →
    s.heldBy q = true → q.reach = true → q.member = s.member → q.stall < 15 → Does (.setPortLinkState slot hub port v) s fun t =>
    t.g (SSH_PORT.LINK q.stall) = 3 ∧ .line "LGO_U3" [q.stall] ∈ t.outs := by
  intro slot hub port v q s hans hq hv hlink hheld hreach hmember hn
  refine does_of rfl (State.portReq_of hans hq _) ?_
  rw [hv, if_neg (by decide), if_neg (by rw [State.heldBy_kind hheld]; decide), State.actOn_here hheld hreach hmember rfl rfl]
  exact ⟨(g_out ..).trans (State.doAct_u3 _ hn hlink).1, List.mem_cons_of_mem _ (State.doAct_u3 _ hn hlink).2⟩

theorem setPortLinkState_disabled :
    ∀ (slot : Fin 4) (hub : Fin 16) (port : Fin 16) (v : Fin 16) q (s : State), s.answers slot hub = true → s.mir slot hub port = some q → v.val = 4 →
    s.heldBy q = true → q.reach = true → q.member = s.member → q.stall < 15 → Does (.setPortLinkState slot hub port v) s fun t =>
    t.g (SSH_PORT.LINK q.stall) = 4 := by
  intro slot hub port v q s hans hq hv hheld hreach hmember hn
  refine does_of rfl (State.portReq_of hans hq _) ?_
  rw [hv, if_neg (by decide), if_neg (by rw [State.heldBy_kind hheld]; decide), State.actOn_here hheld hreach hmember rfl rfl]
  exact (g_out ..).trans (State.doAct_disabled _ hn)

theorem setPortLinkState_u3Exit :
    ∀ (slot : Fin 4) (hub : Fin 16) (port : Fin 16) (v : Fin 16) q (s : State), s.answers slot hub = true → s.mir slot hub port = some q → v.val = 0 → s.g (SSH_PORT.LINK q.stall) = 3 →
    s.heldBy q = true → q.reach = true → q.member = s.member → q.stall < 15 → Does (.setPortLinkState slot hub port v) s fun t =>
    t.g (SSH_PORT.LINK q.stall) = 8 ∧ .line "U3_EXIT" [q.stall] ∈ t.outs := by
  intro slot hub port v q s hans hq hv hlink hheld hreach hmember hn
  refine does_of rfl (State.portReq_of hans hq _) ?_
  rw [hv, if_neg (by decide), if_neg (by rw [State.heldBy_kind hheld]; decide), State.actOn_here hheld hreach hmember rfl rfl]
  exact ⟨(g_out ..).trans (State.doAct_u3Exit _ hn hlink).1, List.mem_cons_of_mem _ (State.doAct_u3Exit _ hn hlink).2⟩

theorem setPortLinkState_refused :
    ∀ (slot : Fin 4) (hub : Fin 16) (port : Fin 16) (v : Fin 16) q (s : State), s.answers slot hub = true →
    s.mir slot hub port = some q → v.val ∉ [0, 3, 4, 5] → Does (.setPortLinkState slot hub port v) s fun t =>
    .usbStall slot ∈ t.outs := by
  intro slot hub port v q s hans hq hv
  refine does_of rfl (State.portReq_of hans hq _) ?_
  rw [if_pos (by simpa using hv)]
  exact List.mem_cons_self

theorem setPortRemoteWakeMask_acts :
    ∀ (slot : Fin 4) (hub : Fin 16) (port : Fin 16) (mask : Fin 256) q (s : State), s.answers slot hub = true →
    s.mir slot hub port = some q → Does (.setPortRemoteWakeMask slot hub port mask) s fun t =>
    t = s.actOn q (.wakeMask mask) := by
  intro slot hub port mask q s hans hq
  exact does_of rfl (State.portReq_of hans hq _) rfl

theorem setPortRemoteWakeMask_complete :
    ∀ (slot : Fin 4) (hub : Fin 16) (port : Fin 16) (mask : Fin 256) q (s : State), s.answers slot hub = true → s.mir slot hub port = some q → 
    s.heldBy q = true → q.reach = true → q.member = s.member → q.stall < 15 → Does (.setPortRemoteWakeMask slot hub port mask) s fun t =>
    (vat t.port q.stall).wakeMask = mask.val ∧ .usbAck slot ∈ t.outs := by
  intro slot hub port mask q s hans hq hheld hreach hmember hn
  exact does_of rfl (State.portReq_here hans hq hheld hreach hmember rfl rfl) ⟨State.doAct_wakeMask slot hn _, List.mem_cons_self⟩

theorem ssPortReset_acts :
    ∀ (slot : Fin 4) (hub : Fin 16) (port : Fin 16) q (s : State), s.answers slot hub = true →
    s.mir slot hub port = some q → q.kind ≠ 2 → Does (.ssPortReset slot hub port) s fun t => t = s.actOn q .hotReset := by
  intro slot hub port q s hans hq hkind
  refine does_of rfl (State.portReq_of hans hq _) ?_
  rw [if_neg hkind]

theorem ssPortReset_complete :
    ∀ (slot : Fin 4) (hub : Fin 16) (port : Fin 16) q (s : State), s.answers slot hub = true → s.mir slot hub port = some q → s.g (SSH_PORT.LINK q.stall) ≤ 3 →
    s.heldBy q = true → q.reach = true → q.member = s.member → q.stall < 15 → Does (.ssPortReset slot hub port) s fun t =>
    t.g (SSH_PORT.LINK q.stall) = 9 ∧ .line "HOT_RESET" [q.stall] ∈ t.outs := by
  intro slot hub port q s hans hq hlink hheld hreach hmember hn
  refine does_of rfl (State.portReq_of hans hq _) ?_
  rw [if_neg (by rw [State.heldBy_kind hheld]; decide), State.actOn_here hheld hreach hmember rfl rfl]
  exact ⟨(g_out ..).trans (State.doAct_hotReset _ hn hlink).1, List.mem_cons_of_mem _ (State.doAct_hotReset _ hn hlink).2⟩

theorem ssPortReset_pen :
    ∀ (slot : Fin 4) (hub : Fin 16) (port : Fin 16) q (s : State), s.answers slot hub = true → s.mir slot hub port = some q → q.kind = 2 →
    Does (.ssPortReset slot hub port) s fun t =>
    t = (((s.resetPen q).penBus q (.penReset q.stall)).mirOwn q fun x => { x with ssChg := orBits x.ssChg 0x10 }).out (.usbAck slot) := by
  intro slot hub port q s hans hq hkind
  refine does_of rfl (State.portReq_of hans hq _) ?_
  rw [if_pos hkind]

theorem bhPortReset_acts :
    ∀ (slot : Fin 4) (hub : Fin 16) (port : Fin 16) q (s : State), s.answers slot hub = true →
    s.mir slot hub port = some q → q.kind ≠ 2 → Does (.bhPortReset slot hub port) s fun t => t = s.actOn q .warmReset := by
  intro slot hub port q s hans hq hkind
  refine does_of rfl (State.portReq_of hans hq _) ?_
  rw [if_neg hkind]

theorem bhPortReset_complete :
    ∀ (slot : Fin 4) (hub : Fin 16) (port : Fin 16) q (s : State), s.answers slot hub = true → s.mir slot hub port = some q → s.g (SSH_PORT.LINK q.stall) ≠ 4 →
    s.heldBy q = true → q.reach = true → q.member = s.member → q.stall < 15 → Does (.bhPortReset slot hub port) s fun t =>
    t.g (SSH_PORT.LINK q.stall) = 5 ∧ .line "WARM_RESET" [q.stall] ∈ t.outs := by
  intro slot hub port q s hans hq hlink hheld hreach hmember hn
  refine does_of rfl (State.portReq_of hans hq _) ?_
  rw [if_neg (by rw [State.heldBy_kind hheld]; decide), State.actOn_here hheld hreach hmember rfl rfl]
  exact ⟨(g_out ..).trans (State.doAct_warmReset _ hn hlink).1, List.mem_cons_of_mem _ (State.doAct_warmReset _ hn hlink).2⟩

theorem bhPortReset_pen :
    ∀ (slot : Fin 4) (hub : Fin 16) (port : Fin 16) q (s : State), s.answers slot hub = true → s.mir slot hub port = some q → q.kind = 2 →
    Does (.bhPortReset slot hub port) s fun t =>
    t = (((s.resetPen q).penBus q (.penReset q.stall)).mirOwn q fun x => { x with ssChg := orBits x.ssChg 0x30 }).out (.usbAck slot) := by
  intro slot hub port q s hans hq hkind
  refine does_of rfl (State.portReq_of hans hq _) ?_
  rw [if_pos hkind]

theorem forceLinkpmAccept_acts :
    ∀ (slot : Fin 4) (hub : Fin 16) (port : Fin 16) (on : Bool) q (s : State), s.answers slot hub = true →
    s.mir slot hub port = some q → Does (.forceLinkpmAccept slot hub port on) s fun t => t = s.actOn q (.forceLpm on) := by
  intro slot hub port on q s hans hq
  exact does_of rfl (State.portReq_of hans hq _) rfl

theorem forceLinkpmAccept_complete :
    ∀ (slot : Fin 4) (hub : Fin 16) (port : Fin 16) (on : Bool) q (s : State), s.answers slot hub = true → s.mir slot hub port = some q → 
    s.heldBy q = true → q.reach = true → q.member = s.member → q.stall < 15 → Does (.forceLinkpmAccept slot hub port on) s fun t =>
    (vat t.port q.stall).forceLpm = on ∧ .usbAck slot ∈ t.outs := by
  intro slot hub port on q s hans hq hheld hreach hmember hn
  exact does_of rfl (State.portReq_here hans hq hheld hreach hmember rfl rfl) ⟨State.doAct_forceLpm slot hn _, List.mem_cons_self⟩

theorem kvmButtonPress_nowhere :
    ∀ (s : State), ((s.plan.gpioOf s.member).any fun g => g.fn = 6) = true → s.on DRV_BARN.IS_LEAD = true →
    s.kvmNext = none → Does .kvmButtonPress s fun t => t.on UPP_EVT.KVM_IGNORED = true := by
  intro s hgpio hlead hnext
  refine does_of rfl (if_neg (by rw [hgpio]; decide)) ?_
  have hpress : s.kvmPress = (false, s) := by
    unfold State.kvmPress
    rw [hnext]
  rw [if_pos hlead, hpress, if_neg Bool.false_ne_true]
  exact on_hw _ rfl rfl

theorem kvmButtonPress_ignored :
    ∀ (s : State), ((s.plan.gpioOf s.member).any fun g => g.fn = 6) = true → s.on DRV_BARN.IS_LEAD = false →
    (s.mode ≠ 3 ∨ s.on DRV_BARN.FORMED = false) → Does .kvmButtonPress s fun t => t.on UPP_EVT.KVM_IGNORED = true := by
  intro s hgpio hlead hno
  refine does_of rfl (if_neg (by rw [hgpio]; decide)) ?_
  rw [if_neg (by rw [hlead]; decide), if_neg (by rcases hno with h | h <;> simp [h])]
  exact on_hw _ rfl rfl

theorem kvmButtonPress_begins :
    ∀ d (s : State), ((s.plan.gpioOf s.member).any fun g => g.fn = 6) = true → s.kvmNext = some d → s.mode = 3 →
    ((s.kvmStalls d).any fun h => s.handing (h.member, h.stall)) = false → s.on DRV_BARN.IS_LEAD = true →
    Does .kvmButtonPress s fun t => ∃ h ∈ t.handoff, h.dest = d ∧ h.step = 1 ∧ h.stalls = s.kvmStalls d := by
  intro d s hgpio hnext hmode hfree hlead
  refine does_of rfl (if_neg (by rw [hgpio]; decide)) ?_
  rw [if_pos hlead, State.kvmPress_of hnext hmode hfree, if_pos rfl]
  exact State.beginHandoff_mem ..

theorem kvmButtonPress_sent :
    ∀ (s : State), ((s.plan.gpioOf s.member).any fun g => g.fn = 6) = true → s.on DRV_BARN.IS_LEAD = false → s.mode = 3 →
    s.on DRV_BARN.FORMED = true → s.reach (s.g DRV_BARN.LEAD) = true → Does .kvmButtonPress s fun t =>
    t = s.ctrlTo (s.g DRV_BARN.LEAD) "ORDER" ([0, 15, 0] ++ actFields .kvmButton) := by
  intro s hgpio hlead hmode hformed hreach
  refine does_of rfl (if_neg (by rw [hgpio]; decide)) ?_
  rw [if_neg (by rw [hlead]; decide), if_pos (by rw [hmode, hformed, hreach]; rfl)]

theorem orderReceived_arrives :
    ∀ (c : CtrlHdr) (slot : Fin 4) (n : Fin 16) (stamp : Nat) (act : PortAct) (s : State), Taken c s →
    (actFields act).headD 0 ≠ (actFields (.attach 0 0 0 false false)).headD 0 → act ≠ .kvmButton →
    Does (.orderReceived c slot n stamp act) s fun t =>
    t = (s.rxCtrl c "ORDER" ([slot.val, n.val, stamp] ++ actFields act) id).arrive c.src slot n stamp act := by
  intro c slot n stamp act s htaken hattach hkvm
  refine does_of rfl (State.rxCtrl_of_taken htaken ..) ?_
  cases act
  case attach => exact absurd rfl hattach
  case kvmButton => exact absurd rfl hkvm
  all_goals rfl

theorem orderReceived_attach :
    ∀ (c : CtrlHdr) (slot : Fin 4) (n : Fin 16) (stamp : Nat) (act : PortAct) m x ms a b (s : State), Taken c s →
    act = .attach m x ms a b → Does (.orderReceived c slot n stamp act) s fun t =>
    (let v := s.rxCtrl c "ORDER" ([slot.val, n.val, stamp] ++ actFields act) id; t = if m = v.member ∧ v.answering slot m n = false then v.arrive c.src slot n stamp act else v.attachHere ⟨m, n, x⟩ slot ms) := by
  rintro c slot n stamp act m x ms a b s htaken rfl
  refine does_of rfl (State.rxCtrl_of_taken htaken ..) ?_
  dsimp only
  congr 1
  simp

theorem orderReceived_kvm :
    ∀ (c : CtrlHdr) (slot : Fin 4) (n : Fin 16) (stamp : Nat) (act : PortAct) (s : State), Taken c s → act = .kvmButton →
    Does (.orderReceived c slot n stamp act) s fun t =>
    (let v := s.rxCtrl c "ORDER" ([slot.val, n.val, stamp] ++ actFields act) id; t = if v.on DRV_BARN.IS_LEAD && v.kvmPress.1 then v.kvmPress.2 else v.ctrlTo c.src "ORDER" ([0, 15, 0] ++ actFields .kvmIgnored)) := by
  rintro c slot n stamp act s htaken rfl
  exact does_of rfl (State.rxCtrl_of_taken htaken ..) rfl

theorem handoffQuietEnd_complete :
    ∀ (i : Fin 16) h (s : State), s.handoff[i.val]? = some h → h.step = 3 → Does (.handoffQuietEnd i) s fun t =>
    t.handoff[i.val]? = some { h with step := 4, ms := h.ms + s.g UPP_X_HANDOFF.QUIET_MS } := by
  intro i h s hget hstep
  refine does_of rfl (when_of _ (by rw [hget]; exact decide_eq_true hstep)) ?_
  rw [State.handStep_get, State.handMod_get, hget]
  rfl

/-- Settles O39: One clause per request: on a stall of this chip the act is carried out at once (`State.portReq_here`), and `doAct` of it leaves the value named. -/
theorem ssPortRequestsComplete : Obligations.SsPortRequestsComplete := by
  unfold Obligations.SsPortRequestsComplete
  exact ⟨setHubDepth_complete, setHubDepth_refused, setPortU1Timeout_acts, setPortU1Timeout_complete,
    setPortU2Timeout_acts, setPortU2Timeout_complete, setPortLinkState_acts, setPortLinkState_u3,
    setPortLinkState_disabled, setPortLinkState_u3Exit, setPortLinkState_refused, setPortRemoteWakeMask_acts,
    setPortRemoteWakeMask_complete, ssPortReset_acts, ssPortReset_complete, ssPortReset_pen, bhPortReset_acts,
    bhPortReset_complete, bhPortReset_pen, forceLinkpmAccept_acts, forceLinkpmAccept_complete,
    kvmButtonPress_nowhere, kvmButtonPress_ignored, kvmButtonPress_begins, kvmButtonPress_sent,
    orderReceived_arrives, orderReceived_attach, orderReceived_kvm, handoffQuietEnd_complete⟩

end Sys2Proof.Machine

/-!
# What the LINK bales and timers of a link in service do
-/
namespace Sys2Proof.Machine

set_option Elab.async false

section
variable {s : State} {k : Nat} {f : Fld}

/-! ## Bales of a link -/

/-- An awake link that is not cut sends the bale (R176). -/
theorem State.linkBale_outs (hawake : s.lkAwake k = true) (hcut : (s.lk k).cut = false) (op : String) (fields : List Nat) :
    ∃ l, .bale k op l ∈ (s.linkBale k op fields).outs := by
  unfold State.linkBale
  rw [if_neg (by rw [hawake, hcut]; decide)]
  exact ⟨_, List.mem_cons_self⟩

/-- A replay is counted once, whatever it sends. -/
theorem State.replayFrom_count (hk : k < 4) (i : Nat) :
    (s.replayFrom k i).g (GLK_ERR.REPLAY k) = min (s.g (GLK_ERR.REPLAY k) + 1) (2 ^ (GLK_ERR.REPLAY k).width - 1) := by
  unfold State.replayFrom
  refine foldl_keeps (P := fun z : State => z.g (GLK_ERR.REPLAY k) = _) (fun u x h => ?_) _ _ ?_
  · cases x with
    | ctrl q m => exact g_kept (GLK_ERR.kept hk (State.pmu_fr ..) rfl rfl) <| g_kept (GLK_ERR.kept hk (State.emitCtrl_fr ..) rfl rfl) h
    | data q b =>
      exact g_kept (GLK_ERR.kept hk (State.pmu_fr ..) rfl rfl) <| g_kept (GLK_ERR.kept hk (State.lkMod_fr ..) rfl rfl) <|
        g_kept (GLK_ERR.kept hk (State.emitData_fr ..) rfl rfl) h
  · exact g_kept (GLK_ERR.kept hk (State.lkMod_fr ..) rfl rfl) (g_incSat rfl)

/-! ## A link that fails -/

/-- The events of a link that fails: nothing that follows the failure marks or clears another. -/
theorem State.linkFail_evt (hk : k < 4) (hf : f.addr = GLK_EVT.addr k) :
    (s.linkFail k).on f = (((s.glkState k 7).p (GLK_LINK.LANES k) 0).hw (GLK_EVT.DOWN k)).on f := by
  have hfr {m b : Nat} {u v : State} (h : Fr m b u v) (hb : b.testBit 74 = false) (hany : b.testBit 196 = false) : v.word f.addr = u.word f.addr := by
    rw [hf]
    exact GLK_EVT.kept hk h hb hany
  have herr : (GLK_EVT.DOWN k).addr ≠ (GLK_ERR.FAILS k).addr := addr_ne_of_regIx (GLK_ERR.ix k hk) (GLK_EVT.ix k hk) rfl
  unfold State.linkFail
  refine on_when (fun u h => on_kept (hfr (State.pushTables_fr ..) rfl rfl) h) ?_
  refine on_kept (hfr (State.settleLost_fr ..) rfl rfl) <| on_kept (hfr (State.raise_fr ..) rfl rfl) <|
    on_kept (hfr (State.linkLost_fr ..) rfl rfl) <| on_kept (word_p_ne _ _ ?_) rfl
  rw [hf]
  exact herr

theorem State.linkFail_down (hk : k < 4) : (s.linkFail k).on (GLK_EVT.DOWN k) = true :=
  (State.linkFail_evt hk rfl).trans (on_hw _ rfl rfl)

theorem State.linkFail_hbMiss (hk : k < 4) : (s.linkFail k).on (GLK_EVT.HB_MISS k) = s.on (GLK_EVT.HB_MISS k) :=
  (State.linkFail_evt hk rfl).trans <| (on_hw_beside _ rfl).trans <|
    (on_p_far _ _ (GLK_LINK.ix k hk) (GLK_EVT.ix k hk)).trans <| on_kept (GLK_EVT.kept hk (State.glkState_fr ..) rfl rfl) rfl

end

theorem nakReceived_complete :
    ∀ (h : BaleHdr) (seq : Fin 512) i (s : State), s.lkAwake h.link = true →
    ((s.rxLink h).lk h.link).win.findIdx? (fun x => x.seq = seq.val) = some i → Does (.nakReceived h seq) s fun t =>
    t = (s.rxLink h).replayDue h.link i := by
  intro h seq i s hawake hi
  refine does_of rfl (if_neg (by rw [hawake]; decide)) ?_
  dsimp only
  rw [hi]

theorem replayTimeout_replays :
    ∀ (k : Fin 4) (s : State), s.lkAwake k = true → (s.lk k).win ≠ [] → (s.lk k).replays < s.g GLK_X_TUNE.REPLAY_MAX →
    Does (.replayTimeout k) s fun t =>
    t.g (GLK_ERR.REPLAY k) = min (s.g (GLK_ERR.REPLAY k) + 1) (2 ^ (GLK_ERR.REPLAY k).width - 1) := by
  intro k s hawake hwin hreplays
  refine does_of rfl (when_of _ (by rw [hawake]; simpa [List.isEmpty_iff] using hwin)) ?_
  unfold State.replayDue
  rw [if_neg (by omega)]
  exact State.replayFrom_count k.2 0

theorem replayTimeout_fails :
    ∀ (k : Fin 4) (s : State), s.lkAwake k = true → (s.lk k).win ≠ [] → s.g GLK_X_TUNE.REPLAY_MAX ≤ (s.lk k).replays →
    Does (.replayTimeout k) s fun t => t.on (GLK_EVT.DOWN k) = true := by
  intro k s hawake hwin hreplays
  refine does_of rfl (when_of _ (by rw [hawake]; simpa [List.isEmpty_iff] using hwin)) ?_
  unfold State.replayDue
  rw [if_pos hreplays]
  exact State.linkFail_down k.2

theorem paramReceived_complete :
    ∀ (k : Fin 4) (data : Fin 65536) (ctrl : Fin 65536) (s : State), s.lkAwake k = true →
    Does (.paramReceived k data ctrl) s fun t =>
    t = State.pump k pumpFuel ((s.p (GLK_LINK.IDLE k) 0).lkMod k fun l => { l with dCred := data, cCred := ctrl }) := by
  intro k data ctrl s hawake
  exact does_of rfl (when_of _ hawake) rfl

theorem probeReceived_complete :
    ∀ (h : BaleHdr) (s : State), s.lkAwake h.link = true → Does (.probeReceived h) s fun t =>
    t = (s.rxLink h).linkBale h.link "PROBE_REPLY" [] := by
  intro h s hawake
  exact does_of rfl (when_of _ hawake) rfl

theorem linkDelayProbe_complete :
    ∀ (k : Fin 4) (s : State), s.lkAwake k = true → (s.lk k).cut = false → Does (.linkDelayProbe k) s fun t => ∃ l, .bale k "PROBE" l ∈ t.outs := by
  intro k s hawake hcut
  exact does_of rfl rfl (State.linkBale_outs hawake hcut ..)

theorem probeReplyReceived_complete :
    ∀ (h : BaleHdr) (delay : Nat) (s : State), s.lkAwake h.link = true → Does (.probeReplyReceived h delay) s fun t =>
    t.g (GLK_DELAY.DELAY h.link) = min 65535 delay := by
  intro h delay s hawake
  exact does_of rfl (when_of _ hawake) (g_p_of_lt rfl (by show _ < 2 ^ 16; omega))

theorem heartbeatReceived_complete :
    ∀ (h : BaleHdr) (period : Fin 16777216) (s : State), s.lkAwake h.link = true →
    Does (.heartbeatReceived h period) s fun t => t.g (GLK_HB.PERIOD h.link) = period ∧ t.g (GLK_HB.MISSED h.link) = 0 := by
  intro h period s hawake
  exact does_of rfl (when_of _ hawake) ⟨(g_p_beside _ _ rfl).trans (g_p_of_lt rfl period.2), g_p_lit rfl rfl⟩

theorem heartbeatMiss_counts :
    ∀ (k : Fin 4) (s : State), s.lkAwake k = true → s.g (GLK_HB.PERIOD k) ≠ 0 → s.g (GLK_HB.MISSED k) < 2 →
    Does (.heartbeatMiss k) s fun t => t.g (GLK_HB.MISSED k) = s.g (GLK_HB.MISSED k) + 1 := by
  intro k s hawake hperiod hmissed
  refine does_of rfl (if_neg (by rw [hawake]; simpa using hperiod)) ?_
  have hcount : (s.p (GLK_HB.MISSED k) (min 3 (s.g (GLK_HB.MISSED k) + 1))).g (GLK_HB.MISSED k) = s.g (GLK_HB.MISSED k) + 1 :=
    (g_p_of_lt rfl (by show _ < 2 ^ 2; omega)).trans (by omega)
  rw [if_pos (by rw [hcount]; omega)]
  exact hcount

theorem heartbeatMiss_fails :
    ∀ (k : Fin 4) (s : State), s.lkAwake k = true → s.g (GLK_HB.PERIOD k) ≠ 0 → 2 ≤ s.g (GLK_HB.MISSED k) →
    Does (.heartbeatMiss k) s fun t => t.g (GLK_HB.MISSED k) = 3 ∧ t.on (GLK_EVT.HB_MISS k) = true := by
  intro k s hawake hperiod hmissed
  refine does_of rfl (if_neg (by rw [hawake]; simpa using hperiod)) ?_
  have hcount : (s.p (GLK_HB.MISSED k) (min 3 (s.g (GLK_HB.MISSED k) + 1))).g (GLK_HB.MISSED k) = 3 :=
    (g_p_of_lt rfl (by show _ < 2 ^ 2; omega)).trans (by omega)
  rw [if_neg (by rw [hcount]; decide)]
  refine ⟨?_, ?_⟩
  · exact g_kept (GLK_HB.kept k.2 (State.settleLost_fr ..) rfl rfl) <| g_kept (GLK_HB.kept k.2 (State.raise_fr ..) rfl rfl) <|
      g_kept (GLK_HB.kept k.2 (State.linkFail_fr ..) rfl rfl) <| (g_hw_far _ (GLK_EVT.ix _ k.2) (GLK_HB.ix _ k.2)).trans hcount
  · exact on_kept (GLK_EVT.kept k.2 (State.settleLost_fr ..) rfl rfl) <| on_kept (GLK_EVT.kept k.2 (State.raise_fr ..) rfl rfl) <|
      (State.linkFail_hbMiss k.2).trans (on_hw _ rfl rfl)

theorem linkDownReceived_complete :
    ∀ (k : Fin 4) (s : State), s.inService k = true → Does (.linkDownReceived k) s fun t => t.on (GLK_EVT.DOWN k) = true := by
  intro k s hin
  exact does_of rfl (when_of _ hin) (State.linkFail_down k.2)

theorem noBaleTimeout_complete :
    ∀ (k : Fin 4) (s : State), s.lkAwake k = true → Does (.noBaleTimeout k) s fun t => t.on (GLK_EVT.DOWN k) = true := by
  intro k s hawake
  exact does_of rfl (when_of _ hawake) (State.linkFail_down k.2)

theorem blockLockLoss_complete :
    ∀ (k : Fin 4) (s : State), s.lkAwake k = true → Does (.blockLockLoss k) s fun t => t.on (GLK_EVT.DOWN k) = true := by
  intro k s hawake
  exact does_of rfl (when_of _ hawake) (State.linkFail_down k.2)

theorem isolatedHelloTimer_complete :
    ∀ (k : Fin 4) (s : State), s.g (GLK_LINK.STATE k) = 6 → (s.lk k).cut = false → Does (.isolatedHelloTimer k) s fun t =>
    ∃ l, .bale k "HELLO" l ∈ t.outs := by
  intro k s hst hcut
  refine does_of rfl (when_of _ (decide_eq_true hst)) (State.linkBale_outs ?_ hcut ..)
  rw [State.lkAwake, hst]
  rfl

/-- Settles O28: One clause per bale or timer: what a link in service does with it stands in the branch named, and `State.linkFail_down` says what a failure leaves. -/
theorem linkServiceComplete : Obligations.LinkServiceComplete := by
  unfold Obligations.LinkServiceComplete
  exact ⟨nakReceived_complete, replayTimeout_replays, replayTimeout_fails, paramReceived_complete,
    probeReceived_complete, linkDelayProbe_complete, probeReplyReceived_complete, heartbeatReceived_complete,
    heartbeatMiss_counts, heartbeatMiss_fails, linkDownReceived_complete, noBaleTimeout_complete,
    blockLockLoss_complete, isolatedHelloTimer_complete⟩

end Sys2Proof.Machine

/-!
What data bales and the drover's control messages leave behind: which links await an answer to their NAK, and the destinations
under resync (R177, R178, R187, R195).
-/
namespace Sys2Proof.Machine

set_option Elab.async false
section
variable {s t : State} {m b k j : Nat}

/-- Link j waits for the answer to a NAK, or does not. -/
structure State.Awaits (j : Nat) (x : Bool) (s : State) : Prop where
  nakked : (s.lk j).nakked = x

theorem Fr.awaits {x : Bool} (hf : Fr m b s t) (hm : m.testBit 17 = false) (h : s.Awaits j x) : t.Awaits j x :=
  ⟨by rw [State.lk, hf.glk hm]; exact h.nakked⟩

end

namespace State.Awaits
variable {s : State} {j k : Nat} {x : Bool}

theorem p {f : Fld} {v : Nat} (h : s.Awaits j x) : (s.p f v).Awaits j x := ⟨h.nakked⟩
theorem hw {f : Fld} (h : s.Awaits j x) : (s.hw f).Awaits j x := ⟨h.nakked⟩
theorem out {o : Out} (h : s.Awaits j x) : (s.out o).Awaits j x := ⟨h.nakked⟩
theorem unmark {e : Mark} (h : s.Awaits j x) : (s.unmark e).Awaits j x := ⟨h.nakked⟩
theorem fabMod {g : FabS → FabS} (h : s.Awaits j x) : (s.fabMod g).Awaits j x := ⟨h.nakked⟩
theorem nextCseq {d : Nat} (h : s.Awaits j x) : (s.nextCseq d).2.Awaits j x := ⟨h.nakked⟩

theorem lkMod {f : GlkS → GlkS} (hf : ∀ l, (f l).nakked = l.nakked) (h : s.Awaits j x) : (s.lkMod k f).Awaits j x := by
  refine ⟨Eq.trans ?_ h.nakked⟩
  show (vat (vmod s.glk k f) j).nakked = (vat s.glk j).nakked
  rw [vmod, vat_vset]
  split_ifs with e
  · rw [hf, e.1]
  · rfl

theorem balePrefix (h : s.Awaits j x) : (s.balePrefix k).2.2.2.Awaits j x :=
  (when_keeps (P := State.Awaits j x) (fun _ hu => hu.hw) h).lkMod fun _ => rfl

theorem takeInvert (h : s.Awaits j x) : (s.takeInvert k).2.Awaits j x := (State.takeInvert_fr ..).awaits rfl h

theorem emitCtrl {q : Nat} {c : CtrlMsg} (h : s.Awaits j x) : (s.emitCtrl k q c).Awaits j x := h.balePrefix.takeInvert.out

theorem emitData {q : Nat} {c : Bale} (h : s.Awaits j x) : (s.emitData k q c).Awaits j x :=
  (State.pmu_fr ..).awaits rfl <| lkMod (fun _ => rfl) h.balePrefix.takeInvert.out

theorem drrPick (n : Nat) (h : s.Awaits j x) : (State.drrPick k n s).2.Awaits j x := by
  induction n generalizing s with
  | zero => exact h
  | succ n ih =>
    unfold State.drrPick
    dsimp only
    split
    · exact ih <| lkMod (fun _ => rfl) <| lkMod (fun _ => rfl) h
    · generalize vat (s.lk k).deficit (s.lk k).turn + (if (s.lk k).visited = true then 0 else 16 * s.drrWeight (s.lk k).turn) = d
      split
      · exact lkMod (fun _ => rfl) h
      · exact ih <| lkMod (fun _ => rfl) <| lkMod (fun _ => rfl) h

theorem pump (n : Nat) (h : s.Awaits j x) : (State.pump k n s).Awaits j x := by
  induction n generalizing s with
  | zero => exact h
  | succ n ih =>
    unfold State.pump
    dsimp only
    split
    · exact h
    · split
      · split
        · exact h
        · exact ih (emitCtrl (p (lkMod (fun _ => rfl) h)))
      · split
        · split
          · exact h
          · exact ih (emitData (p (lkMod (fun _ => rfl) h)))
        · split
          · exact h
          · have hd : (State.drrPick k 9 s).2.Awaits j x := drrPick 9 h
            split
            · next heq => rw [heq] at hd; exact hd
            · next heq => rw [heq] at hd; exact ih (lkMod (fun _ => rfl) hd)

theorem ctrlTo {d : Nat} {name : String} {fields : List Nat} (h : s.Awaits j x) : (s.ctrlTo d name fields).Awaits j x := by
  unfold State.ctrlTo
  split
  · exact h
  · split
    · exact h
    · exact pump _ (lkMod (fun _ => rfl) h.nextCseq)

theorem settleResync (h : s.Awaits j x) : s.settleResync.Awaits j x :=
  each_keeps (P := State.Awaits j x) (fun _ _ hu => hu.unmark.fabMod.ctrlTo) _ _ h

end State.Awaits

section
variable {s t : State} {k : Nat}

/-- An answer to RESYNC leaves the EPOCHs received as they are. -/
theorem State.answerResync_rxEpoch {src : Nat} : (s.answerResync src).fab.rxEpoch = s.fab.rxEpoch := by
  unfold State.answerResync State.ctrlTo
  dsimp only
  split
  · rfl
  · split
    · rfl
    · rw [(State.ctrlOn_fr ..).fab rfl]; rfl

/-- DELIVERED counts leave the destinations under resync as they are. -/
theorem State.takeDelivered_resync {idx n : Nat} : (s.takeDelivered idx n).fab.resync = s.fab.resync := by
  unfold State.takeDelivered
  split
  · rfl
  · dsimp only
    split
    · rfl
    · exact foldl_keeps (P := fun u : State => u.fab.resync = s.fab.resync)
        (fun _ _ h => (congrArg FabS.resync ((State.freeCells_fr ..).fab rfl)).trans h) _ _ rfl

theorem State.takeDelivereds_resync {d : Nat} {counts : List (Fin 512 × Fin 65536)} : (counts.foldl (fun v e =>
    if v.fab.flows.any fun r => r.open_.idx = e.1.val && r.dest = d then v.takeDelivered e.1 e.2 else v) s).fab.resync = s.fab.resync :=
  foldl_keeps (P := fun u : State => u.fab.resync = s.fab.resync)
    (fun _ _ h => ite_keeps (P := fun u : State => u.fab.resync = s.fab.resync) (State.takeDelivered_resync.trans h) h) _ _ rfl

/-- A discarded bale without a sequence value is counted, and no more (R177, R178). -/
theorem State.discardBale_false : s.discardBale k false = s.incSat (GLK_ERR.CRC k) := rfl

/-- A discarded bale with a sequence value is counted and answered with NAK, unless one is awaited (R177, R178). -/
theorem State.discardBale_true (h : (s.lk k).nakked = false) : s.discardBale k true =
    ((s.incSat (GLK_ERR.CRC k)).linkBale k "NAK" [((s.incSat (GLK_ERR.CRC k)).lk k).rxSeq]).lkMod k fun l => { l with nakked := true } := by
  unfold State.discardBale
  rw [h]
  rfl

end
theorem dataBaleReceived_stores :
    ∀ (k : Fin 4) (header : BitVec 64) (payload : List (BitVec 8)) (mark : Bool) (ecc : Fin 3) (s : State), s.lkAwake k = true →
    s.g (GLK_LINK.STATE k) = 4 → header.toNat % 8 ∈ [1, 2, 3] →
    baleCrc (s.lk k).rxSeq header.toNat (pad64 payload) = header.toNat / 2 ^ 48 → s.roomOf (17 + k) ≠ 0 →
    Does (.dataBaleReceived k header payload mark ecc) s fun t =>
    (let r := ((s.rxSequenced k).p (GLK_LINK.IDLE k) 0).baleRead header.toNat ecc mark; let u := r.2.storeBale k header.toNat (pad64 payload) r.1; t = ((u.when (!u.domOn dHUB) fun u => u.linkJudge dHUB).rxHdr ⟨k, Fin.ofNat 512 (bitsOf header.toNat 10 9), Fin.ofNat 8 (bitsOf header.toNat 19 3), bitOf header.toNat 22, 0⟩).settleResync) := by
  intro k header payload mark ecc s hawake hst hkind hcrc hroom
  have hkind5 : header.toNat % 8 ≠ 5 := by intro e; rw [e] at hkind; simp at hkind
  have hkind0 : (decide (header.toNat % 8 = 0) || decide (header.toNat % 8 ≥ 6)) = false := by
    simp only [List.mem_cons, List.not_mem_nil, or_false] at hkind
    simp only [Bool.or_eq_false_iff, decide_eq_false_iff_not]
    omega
  have hkind4 : header.toNat % 8 ≠ 4 := by intro e; rw [e] at hkind; simp at hkind
  refine does_of rfl rfl ?_
  show State.dataBaleReceived s k header payload mark ecc = _
  unfold State.dataBaleReceived
  dsimp only
  rw [if_neg (by rw [hawake]; decide), if_neg hkind5, if_neg (by rw [hkind0]; decide), if_neg (by simpa using hcrc),
    if_neg (by simp [hst, hkind4]), if_neg hroom]

theorem dataBaleReceived_nakked :
    ∀ (k : Fin 4) (header : BitVec 64) (payload : List (BitVec 8)) (mark : Bool) (ecc : Fin 3) (s : State), s.lkAwake k = true →
    s.g (GLK_LINK.STATE k) = 4 → header.toNat % 8 ∈ [1, 2, 3, 4] →
    baleCrc (s.lk k).rxSeq header.toNat (pad64 payload) ≠ header.toNat / 2 ^ 48 → (s.lk k).nakked = false →
    Does (.dataBaleReceived k header payload mark ecc) s fun t =>
    t.g (GLK_ERR.CRC k) = min (s.g (GLK_ERR.CRC k) + 1) (2 ^ (GLK_ERR.CRC k).width - 1) ∧ (t.lk k).nakked = true := by
  intro k header payload mark ecc s hawake hst hkind hcrc hnak
  have hkind5 : header.toNat % 8 ≠ 5 := by intro e; rw [e] at hkind; simp at hkind
  have hkind0 : (decide (header.toNat % 8 = 0) || decide (header.toNat % 8 ≥ 6)) = false := by
    simp only [List.mem_cons, List.not_mem_nil, or_false] at hkind
    simp only [Bool.or_eq_false_iff, decide_eq_false_iff_not]
    omega
  have hdo : State.dataBaleReceived s k header payload mark ecc = (s.discardBale k true).settleResync := by
    unfold State.dataBaleReceived
    dsimp only
    rw [if_neg (by rw [hawake]; decide), if_neg hkind5, if_neg (by rw [hkind0]; decide), if_pos (by simpa using hcrc)]
  refine does_of rfl hdo ⟨?_, ?_⟩
  · refine g_kept (GLK_ERR.kept k.2 (State.settleResync_fr ..) rfl rfl) ?_
    rw [State.discardBale_true hnak]
    exact g_kept (GLK_ERR.kept k.2 (State.lkMod_fr ..) rfl rfl) <| g_kept (GLK_ERR.kept k.2 (State.linkBale_fr ..) rfl rfl) (g_incSat rfl)
  · refine (State.Awaits.settleResync ⟨?_⟩).nakked
    rw [State.discardBale_true hnak]
    exact congrArg GlkS.nakked (vat_vmod _ _ k.2)

theorem dataBaleReceived_reserved :
    ∀ (k : Fin 4) (header : BitVec 64) (payload : List (BitVec 8)) (mark : Bool) (ecc : Fin 3) (s : State), s.lkAwake k = true →
    header.toNat % 8 ∈ [0, 6, 7] → Does (.dataBaleReceived k header payload mark ecc) s fun t =>
    t.g (GLK_ERR.CRC k) = min (s.g (GLK_ERR.CRC k) + 1) (2 ^ (GLK_ERR.CRC k).width - 1) ∧ (t.lk k).nakked = (s.lk k).nakked := by
  intro k header payload mark ecc s hawake hkind
  have hkind5 : header.toNat % 8 ≠ 5 := by intro e; rw [e] at hkind; simp at hkind
  have hkind0 : (decide (header.toNat % 8 = 0) || decide (header.toNat % 8 ≥ 6)) = true := by
    simp only [List.mem_cons, List.not_mem_nil, or_false] at hkind
    simp only [Bool.or_eq_true, decide_eq_true_eq]
    omega
  have hdo : State.dataBaleReceived s k header payload mark ecc = (s.discardBale k false).settleResync := by
    unfold State.dataBaleReceived
    dsimp only
    rw [if_neg (by rw [hawake]; decide), if_neg hkind5, if_pos hkind0]
  refine does_of rfl hdo ⟨?_, ?_⟩
  · exact g_kept (GLK_ERR.kept k.2 (State.settleResync_fr ..) rfl rfl) (g_incSat rfl)
  · refine (State.Awaits.settleResync ⟨?_⟩).nakked
    rw [State.discardBale_false]
    rfl

theorem flowOpenReceived_recorded :
    ∀ (c : CtrlHdr) (o : FlowOpen) (s : State), s.ctrlFits = true → s.g (GLK_LINK.STATE c.hdr.link) = 4 →
    s.fab.seen.contains (ctrlKey c) = false → c.dest.val = s.member → Does (.flowOpenReceived c o) s fun t =>
    ({ src := c.src, open_ := o } : DstRec) ∈ t.fab.dsts := by
  intro c o s hroom hst hseen hdest
  have hc : (s.ctrlCell c.hdr).2.Knows s.fab.member s.fab.seen := State.Knows.ctrlCell ⟨rfl, rfl, fun _ => trivial⟩
  have hd : c.dest.val = (s.ctrlCell c.hdr).2.fab.member := hdest.trans hc.member.symm
  refine does_of rfl ((if_neg (by simpa using hst)).trans (if_neg (by rw [hroom]; decide))) ?_
  dsimp only
  rw [if_neg (by rw [hc.seen, hseen]; decide), if_pos (by exact hd), (State.freeCtrl_fr ..).fab rfl]
  exact List.mem_append_right _ List.mem_cons_self

theorem flowRecordFree_frees :
    ∀ (idx : Fin 512) (s : State), (s.fab.flows.any fun r => r.open_.idx = idx.val && r.undel.isEmpty) = true →
    Does (.flowRecordFree idx) s fun t => t = (s.setFlows (s.fab.flows.filter fun r => r.open_.idx ≠ idx.val)).retryWaits := by
  intro idx s hrec
  exact does_of rfl (if_pos hrec) rfl

theorem deliveredReceived_takes :
    ∀ (c : CtrlHdr) (counts : List (Fin 512 × Fin 65536)) (s : State), Taken c s →
    Does (.deliveredReceived c counts) s fun t =>
    t = counts.foldl (fun v e => if v.fab.flows.any fun r => r.open_.idx = e.1.val && r.dest = c.src.val then v.takeDelivered e.1 e.2 else v) (s.rxCtrl c "DELIVERED" (counts.flatMap fun e => [e.1.val, e.2.val]) id) := by
  intro c counts s htaken
  exact does_of rfl (State.rxCtrl_of_taken htaken ..) rfl

theorem deliveredTimer_sends :
    ∀ (src : Fin 8) (idx : Fin 512) r (s : State), s.dstRec src idx = some r → 0 < r.unreported →
    Does (.deliveredTimer src idx) s fun t => t = s.sendDelivered src idx := by
  intro src idx r s hrec hun
  exact does_of rfl (when_of _ (by simp [hrec, hun])) rfl

theorem resyncReceived_adopts :
    ∀ (c : CtrlHdr) (epoch : Bool) (s : State), Taken c s → Does (.resyncReceived c epoch) s fun t =>
    vat t.fab.rxEpoch c.src = epoch := by
  intro c epoch s htaken
  refine does_of rfl (State.rxCtrl_of_taken htaken ..) ?_
  generalize s.rxCtrl c "RESYNC" [b2n epoch] id = u
  have hep : vat (u.fabMod fun f => { f with rxEpoch := vset f.rxEpoch c.src epoch }).fab.rxEpoch c.src = epoch :=
    vat_vset_same _ _ c.src.2
  dsimp only
  split
  · exact hep
  · exact (congrArg (vat · c.src.val) State.answerResync_rxEpoch).trans hep

theorem resyncAckReceived_ends :
    ∀ (c : CtrlHdr) (epoch : Bool) (counts : List (Fin 512 × Fin 65536)) (elapsed : Nat) u (s : State), Taken c s → s.rxCtrl c "RESYNC_ACK" (b2n epoch :: counts.flatMap fun e => [e.1.val, e.2.val]) id = u → u.fab.resync = [c.src.val] → epoch = vat u.fab.txEpoch c.src → Does (.resyncAckReceived c epoch counts elapsed) s fun t => t.g DRV_REROUTE.LAST = min 255 elapsed ∧ t.fab.resync = [] := by
  intro c epoch counts elapsed u s htaken hu hone hep
  subst hu
  refine does_of rfl (State.rxCtrl_of_taken htaken ..) ?_
  generalize s.rxCtrl c "RESYNC_ACK" (b2n epoch :: counts.flatMap fun e => [e.1.val, e.2.val]) id = u at hone hep
  have hin : (!u.fab.resync.contains c.src.val || epoch != vat u.fab.txEpoch c.src) = false := by simp [hone, hep]
  dsimp only
  rw [if_neg (by rw [hin]; decide)]
  have hv := (State.takeDelivereds_resync (s := u) (d := c.src.val) (counts := counts)).trans hone
  generalize counts.foldl (fun v e =>
    if v.fab.flows.any fun r => r.open_.idx = e.1.val && r.dest = c.src.val then v.takeDelivered e.1 e.2 else v) u = v at hv
  have hsent : ∀ (l : List FlowRec) (ps : List FPkt), (ps.foldl State.queueData
      ((v.fabMod fun f => { f with resync := f.resync.filter (· ≠ c.src.val) }).setFlows l)).fab.resync = [] := fun l ps =>
    foldl_keeps (P := fun w : State => w.fab.resync = [])
      (fun _ _ h => (congrArg FabS.resync ((State.queueData_fr ..).fab rfl)).trans h) _ _
      (by show v.fab.resync.filter _ = []; rw [hv]; simp)
  rw [when_of _ (by rw [hsent]; rfl)]
  exact ⟨g_kept (DRV_REROUTE.kept (State.record_fr ..) rfl rfl) <| (g_p_beside _ _ rfl).trans (g_p_of_lt rfl (by show _ < 2 ^ 8; omega)),
    (congrArg FabS.resync ((State.record_fr ..).fab rfl)).trans (hsent _ _)⟩

theorem resyncAckReceived_stale :
    ∀ (c : CtrlHdr) (epoch : Bool) (counts : List (Fin 512 × Fin 65536)) (elapsed : Nat) u (s : State), Taken c s → s.rxCtrl c "RESYNC_ACK" (b2n epoch :: counts.flatMap fun e => [e.1.val, e.2.val]) id = u → c.src.val ∈ u.fab.resync → epoch ≠ vat u.fab.txEpoch c.src → Does (.resyncAckReceived c epoch counts elapsed) s fun t => c.src.val ∈ t.fab.resync := by
  intro c epoch counts elapsed u s htaken hu hmem hep
  subst hu
  refine does_of rfl (State.rxCtrl_of_taken htaken ..) ?_
  dsimp only
  rw [if_pos (by simp [hep])]
  exact hmem

/-- Settles O30: a data bale goes through the branches of its KIND and CRC; what follows a control message keeps the fields of the drover its clause names. -/
theorem droverComplete : Obligations.DroverComplete := by
  unfold Obligations.DroverComplete
  exact ⟨dataBaleReceived_stores, dataBaleReceived_nakked, dataBaleReceived_reserved, flowOpenReceived_recorded,
    flowRecordFree_frees, deliveredReceived_takes, deliveredTimer_sends, resyncReceived_adopts,
    resyncAckReceived_ends, resyncAckReceived_stale⟩
end Sys2Proof.Machine

/-!
# A request that a performance counter counts
-/
namespace Sys2Proof.Machine

set_option Elab.async false

/-- A state in which channel 2 may ask, with counter 0 set to count the messages of every channel (event 0x13). -/
def pmuCounting : State :=
  (State.reset.bootMod fun b => { b with held := 0 }).fields [(TOP_MODE.MODE, 3), (PLN_STATUS.SOURCE, 1), (MBX_ASSIGN.PARTY 2, 6),
    (OBS_PMU_EVT.EVENT 0, 0x13), (OBS_PMU_EVT.FILTER 0, 0xFF), (OBS_PMU_EVT.ENABLE 0, 1)]

/-- A REG_PEEK of one register. -/
def peekWords : List (BitVec 32) := [0x90#32, 0x120000#32, 1#32]

/-- Taking the request counts it (R324), before it is carried out. -/
theorem pmuCounting_counts : (pmuCounting.command 0x90 2 1 peekWords).g (OBS_PMU_LO.COUNT_LO 0) = 1 := by decide +kernel

/-- Carried out without having been taken, it is not counted. -/
theorem pmuCounting_uncounted :
    (((pmuCounting.noted (pmuCounting.ask 2 1 peekWords)).startXfer
      ⟨1, .peek (pmuCounting.ask 2 1 peekWords), readsFrom 0x120000 1, []⟩).g (OBS_PMU_LO.COUNT_LO 0)) = 0 := by decide +kernel

/-- Refutes O60: the clause of REG_PEEK gives the whole next state, and leaves out that a performance counter set to event 0x13
counts the request as it is taken (`pmuCounting`). -/
theorem not_controlCommandsTakeEffect : ¬ Obligations.ControlCommandsTakeEffect := by
  unfold Obligations.ControlCommandsTakeEffect
  intro h
  obtain ⟨-, -, -, -, -, -, -, -, -, -, -, -, -, hpeek, -⟩ := h
  obtain ⟨t, ht, hstate⟩ := hpeek 2 1 peekWords (pmuCounting.ask 2 1 peekWords) pmuCounting rfl (by decide) (by decide +kernel)
    (by decide) (by decide) (by decide) (by decide)
  obtain rfl : pmuCounting.command 0x90 2 1 peekWords = t := Host.Outcome.next.inj ht
  exact absurd (pmuCounting_counts.symm.trans ((congrArg (·.g (OBS_PMU_LO.COUNT_LO 0)) hstate).trans pmuCounting_uncounted)) (by decide)

end Sys2Proof.Machine

/-!
# A sideband target's access to a resting domain
-/
namespace Sys2Proof.Machine

set_option Elab.async false

/-- The chip runs, I²C (master 6) holds its expert page and has its AUTO_WAKE bit, and HSB is OFF. -/
def sideWaking : State :=
  (State.reset.bootMod fun b => { b with held := 0 }).fields
    [(TOP_EXPERT.HELD, 2 ^ 6), (PDC_CTRL.AUTO_WAKE, 2 ^ 6), (PDC_DOM.STATE dHSB, 2)]

/-- The access holds the domain it waits for, and MGT, through which a sideband target comes (R258). -/
theorem sideWaking_holds : (sideWaking.access 6 (HSH_ENG.addr 0) none).pdc.accHolds = [(6, dHSB), (6, dMGT)] := by decide +kernel

/-- The access hold on the domain alone. -/
theorem sideWaking_domain :
    ((sideWaking.holdAccess 6 dHSB).pushStall ⟨6, .plain, [(HSH_ENG.addr 0, none)], []⟩).pdc.accHolds = [(6, dHSB)] := by decide +kernel

/-- Refutes O40: the clause of AUTO_WAKE_ACCESS gives the whole next state, and leaves out that a sideband target's access holds MGT
too, besides the domain it waits for (`sideWaking`). -/
theorem not_registerAccessComplete : ¬ Obligations.RegisterAccessComplete := by
  unfold Obligations.RegisterAccessComplete
  intro h
  obtain ⟨-, -, -, hwake, -⟩ := h
  obtain ⟨t, ht, hstate⟩ := hwake 6 (BitVec.ofNat 32 (HSH_ENG.addr 0)) none sideWaking rfl (by decide +kernel) (by decide) (by decide +kernel)
    (by decide +kernel) (by decide +kernel) nofun (by decide +kernel) (by decide +kernel) (by decide +kernel)
  obtain rfl : sideWaking.access 6 (HSH_ENG.addr 0) none = t := Host.Outcome.next.inj ht
  exact absurd (sideWaking_holds.symm.trans ((congrArg (·.pdc.accHolds) hstate).trans sideWaking_domain)) (by decide)

end Sys2Proof.Machine

/-!
# An energy read in the cycle of a sample
-/
namespace Sys2Proof.Machine

set_option Elab.async false

/-- The chip runs, and channel 0's accumulator has taken a sample in this cycle, from nothing to 2^32 units. -/
def energySampled : State :=
  (State.reset.bootMod fun b => { b with held := 0 }).tlmMod 0 fun x => { x with sampled := 1, before := 0, energy := 2 ^ 56 }

/-- A read in that cycle shows, and latches, the value before the sample. -/
theorem energySampled_latch : vat (vat (energySampled.access 1 (TLM_ENERGY_LO.addr 0) none).tlm 0).latch 1 = 0 := by decide +kernel

/-- Refutes O41: a read of TLM_ENERGY_LO does not always show the accumulator. In the cycle of a sample it shows what stood before it
(`energySampled`). -/
theorem not_registerCommandsComplete : ¬ Obligations.RegisterCommandsComplete := by
  unfold Obligations.RegisterCommandsComplete
  intro h
  obtain ⟨henergy, -⟩ := h
  obtain ⟨t, ht, -, hlatch⟩ := henergy 1 0 energySampled (by decide +kernel)
  obtain rfl : energySampled.access 1 (TLM_ENERGY_LO.addr 0) none = t := Host.Outcome.next.inj ht
  exact absurd (energySampled_latch.symm.trans hlatch) (by decide +kernel)

end Sys2Proof.Machine

/-!
# A slot whose plan names no upstream port of the chip
-/
namespace Sys2Proof.Machine

set_option Elab.async false

/-- Slot 0 is homed at upstream port 2, which the chip does not have; its function reads as configured, and channel 0 of its party
holds an inbound message. -/
def tackStray : State :=
  (State.reset.withPlan { Plan.empty with paddocks := [⟨0, 0, 2, 0, 0, 0, 0, [], []⟩] }).fields
    [(TKR_CTRL.ENABLE, 1), (TKR_FUNC.STATE 2, 4), (MBX_ASSIGN.PARTY 0, 2), (MBX_IN_CTRL.GO 0, 1)]

/-- The message has no function to wait in. -/
theorem tackStray_send : (vat (tackStray.mbxSendReq 0 0 0 4 0 []).tack 2).send = none := by decide +kernel

/-- Refutes O42: a MBX_SEND that meets inbound GO is not kept in every state. The model has the functions of UP0 and UP1, and a plan of
the state may name another upstream port (`tackStray`); the clause of QUEUE_SELECT alone excludes that. -/
theorem not_vendorRequestsComplete : ¬ Obligations.VendorRequestsComplete := by
  unfold Obligations.VendorRequestsComplete
  intro h
  obtain ⟨hsend, -⟩ := h
  obtain ⟨t, ht, hkept, -⟩ := hsend 0 0 0 4 0 [] 2 tackStray (by decide +kernel) rfl (by decide +kernel) (by decide) (by decide) rfl
    (by decide +kernel)
  obtain rfl : tackStray.mbxSendReq 0 0 0 4 0 [] = t := Host.Outcome.next.inj ht
  exact nomatch tackStray_send.symm.trans hkept

end Sys2Proof.Machine

/-!
# What the barn's traffic leaves of a link, and of the lead

Bales sent, routes recomputed and members lost leave GLK_LINK.STATE of a link as it stands, but where the link itself is isolated or
fails (R181, R193, R194); and a member that leads does not lose its office by the loss of another (R184).
-/
namespace Sys2Proof.Machine

set_option Elab.async false

/-- Link k of this chip is in state v. -/
structure State.LinkAt (s : State) (k v : Nat) : Prop where
  lt : k < 4
  state : s.g (GLK_LINK.STATE k) = v

theorem Fr.linkAt {m b k v : Nat} {s t : State} (hf : Fr m b s t) (hb : b.testBit 71 = false) (hany : b.testBit 196 = false)
    (h : s.LinkAt k v) : t.LinkAt k v := ⟨h.lt, g_kept (GLK_LINK.kept h.lt hf hb hany) h.state⟩

namespace State.LinkAt
variable {s t : State} {j k v : Nat}

theorem of_word (e : t.word = s.word) (h : s.LinkAt k v) : t.LinkAt k v := ⟨h.lt, g_kept (by rw [e]) h.state⟩

theorem lkMod {f : GlkS → GlkS} (h : s.LinkAt k v) : (s.lkMod j f).LinkAt k v := ⟨h.lt, h.state⟩
theorem fabMod {f : FabS → FabS} (h : s.LinkAt k v) : (s.fabMod f).LinkAt k v := ⟨h.lt, h.state⟩
theorem mark {x : Mark} (h : s.LinkAt k v) : (s.mark x).LinkAt k v := ⟨h.lt, h.state⟩
theorem withMirror {x} (h : s.LinkAt k v) : (s.withMirror x).LinkAt k v := ⟨h.lt, h.state⟩
theorem withPdc {x} (h : s.LinkAt k v) : (s.withPdc x).LinkAt k v := ⟨h.lt, h.state⟩

/-- Another field of any link's register. -/
theorem pBeside {f : Fld} {x : Nat} (hf : f.beside (GLK_LINK.STATE k) = true) (h : s.LinkAt k v) : (s.p f x).LinkAt k v :=
  ⟨h.lt, (g_p_beside _ _ hf).trans h.state⟩

/-- A field of another register. -/
theorem pFar {f : Fld} {x i : Nat} (hf : regIx f.addr = i) (hi : Nat.beq i 71 = false) (h : s.LinkAt k v) : (s.p f x).LinkAt k v :=
  ⟨h.lt, (g_p_far _ _ hf (GLK_LINK.ix k h.lt) hi).trans h.state⟩

theorem hwFar {f : Fld} {i : Nat} (hf : regIx f.addr = i) (hi : Nat.beq i 71 = false) (h : s.LinkAt k v) : (s.hw f).LinkAt k v :=
  ⟨h.lt, (g_hw_far _ hf (GLK_LINK.ix k h.lt) hi).trans h.state⟩

theorem incFar {f : Fld} {n i : Nat} (hf : regIx f.addr = i) (hi : Nat.beq i 71 = false) (h : s.LinkAt k v) :
    (s.inc f n).LinkAt k v := pFar hf hi h

theorem when {b : Bool} {g : State → State} (hg : ∀ u : State, u.LinkAt k v → (g u).LinkAt k v) (h : s.LinkAt k v) :
    (s.when b g).LinkAt k v := when_keeps hg h

theorem each {ns : List Nat} {g : Nat → State → State} (hg : ∀ n (u : State), u.LinkAt k v → (g n u).LinkAt k v)
    (h : s.LinkAt k v) : (s.each ns g).LinkAt k v := each_keeps (P := fun u : State => u.LinkAt k v) hg ns s h

theorem ite {p : Prop} [Decidable p] (hs : s.LinkAt k v) (ht : t.LinkAt k v) : (if p then s else t).LinkAt k v := by split <;> assumption

/-! ## Bales sent -/

theorem pump (n : Nat) (h : s.LinkAt k v) : (State.pump j n s).LinkAt k v := by
  induction n generalizing s with
  | zero => exact h
  | succ n ih =>
    unfold State.pump
    dsimp only
    split
    · exact h
    · split
      · exact ite h <| ih <| (State.emitCtrl_fr ..).linkAt rfl rfl <| pBeside rfl h.lkMod
      · split
        · exact ite h <| ih <| (State.emitData_fr ..).linkAt rfl rfl <| pBeside rfl h.lkMod
        · refine ite h ?_
          have hd : (State.drrPick j 9 s).2.LinkAt k v := (State.drrPick_fr ..).linkAt rfl rfl h
          split
          · next heq => rw [heq] at hd; exact hd
          · next heq => rw [heq] at hd; exact ih hd.lkMod

theorem ctrlOn {c : CtrlMsg} (h : s.LinkAt k v) : (s.ctrlOn j c).LinkAt k v := pump _ h.lkMod

theorem nextCseq {d : Nat} (h : s.LinkAt k v) : (s.nextCseq d).2.LinkAt k v := ⟨h.lt, h.state⟩

theorem ctrlTo {d : Nat} {name : String} {fields : List Nat} (h : s.LinkAt k v) : (s.ctrlTo d name fields).LinkAt k v := by
  unfold State.ctrlTo
  refine ite h ?_
  split
  · exact h
  · exact h.nextCseq.ctrlOn

theorem ctrlAll {name : String} {fields : List Nat} (h : s.LinkAt k v) : (s.ctrlAll name fields).LinkAt k v :=
  each (fun _ _ h => h.ctrlOn) h.nextCseq

theorem linkBale {op : String} {fields : List Nat} (h : s.LinkAt k v) : (s.linkBale j op fields).LinkAt k v := by
  unfold State.linkBale
  refine ite h ?_
  exact ⟨h.lt, (when (fun _ h => pBeside rfl h) <| (State.balePrefix_fr s j).linkAt rfl rfl h).state⟩

theorem helloAll (h : s.LinkAt k v) : s.helloAll.LinkAt k v := each (fun _ _ h => h.linkBale) h

theorem resendCtrl {c : CtrlMsg} (h : s.LinkAt k v) : (s.resendCtrl c).LinkAt k v := by
  unfold State.resendCtrl
  have hfree : (s.freeCtrl c).LinkAt k v := (State.freeCtrl_fr ..).linkAt rfl rfl h
  refine ite ?_ ?_
  · split
    · exact hfree
    · exact each (fun _ _ h => h.ctrlOn) h.ctrlOn
  · split
    · exact h.ctrlOn
    · exact hfree

/-! ## Routes and links lost -/

theorem startResync {d : Nat} (h : s.LinkAt k v) : (s.startResync d).LinkAt k v :=
  ite (ctrlTo <| fabMod <| (State.unqueue_fr ..).linkAt rfl rfl h) h

theorem entryFailed {i : Nat} (h : s.LinkAt k v) : (s.entryFailed i).LinkAt k v := by
  unfold State.entryFailed
  split
  · exact h
  · refine ite h <| each (fun _ _ h => h.startResync) ?_
    exact hwFar DRV_EVT.ix rfl <| incFar DRV_REROUTE.ix rfl <| (State.installRoutes_fr ..).linkAt rfl rfl h.fabMod

theorem linkLost (hj : j < 4) (h : s.LinkAt k v) : (s.linkLost j).LinkAt k v := by
  unfold State.linkLost
  have h : (((s.dropTransit j).lkMod j fun l => { failed := l.failed }).when
      (((s.dropTransit j).lkMod j fun l => { failed := l.failed }).g (HSH_CARRY.STATE j) = 1) fun s =>
        s.p (HSH_CARRY.STATE j) 2).LinkAt k v :=
    when (fun _ h => pFar (HSH_CARRY.ix j hj) rfl h) <| lkMod <| (State.dropTransit_fr ..).linkAt rfl rfl h
  refine foldl_keeps (P := fun u : State => u.LinkAt k v) (fun _ _ h => h.resendCtrl) _ _ ?_
  split
  · exact h
  · exact when (fun _ h => h.entryFailed.fabMod.ctrlAll) h

/-- A change of another link's state. -/
theorem glkState {x : Nat} (hj : j < 4) (hjk : j ≠ k) (h : s.LinkAt k v) : (s.glkState j x).LinkAt k v := by
  unfold State.glkState
  refine ite h <| (State.record_fr ..).linkAt rfl rfl <| (State.linkJudge_fr ..).linkAt rfl rfl ?_
  have haddr : GLK_LINK.addr k ≠ GLK_LINK.addr j := by
    simp only [GLK_LINK.addr, if_pos hj, if_pos h.lt]
    omega
  exact ⟨h.lt, (pBeside (s := s.p (GLK_LINK.STATE j) x) rfl ⟨h.lt, (g_p_ne _ _ haddr).trans h.state⟩).state⟩

theorem attempt (hj : j < 4) (hjk : j ≠ k) (h : s.LinkAt k v) : (s.attempt j).LinkAt k v := by
  refine lkMod <| glkState hj hjk ?_
  exact pBeside rfl h

theorem glkOff (hj : j < 4) (hjk : j ≠ k) (h : s.LinkAt k v) : (s.glkOff j).LinkAt k v :=
  when (fun _ h => pFar (HSH_CARRY.ix j hj) rfl h) <| lkMod <| when (fun _ h => h.linkLost hj) <| pBeside rfl <|
    glkState hj hjk h.linkBale

/-! ## Leads, tables and flooding -/

theorem reportCommitted (h : s.LinkAt k v) : s.reportCommitted.LinkAt k v := when (fun _ h => h.ctrlTo) h

theorem setLead {m : Nat} {first : Bool} (h : s.LinkAt k v) : (s.setLead m first).LinkAt k v := by
  unfold State.setLead
  refine reportCommitted <| helloAll <| ite ?_ <| (State.memberRecord_fr ..).linkAt rfl rfl <| hwFar DRV_EVT.ix rfl ?_
  all_goals
    refine when (fun _ h => pFar YRD_BARN.ix rfl <| pFar YRD_BARN.ix rfl <| pFar YRD_BARN.ix rfl h) ?_
    exact (State.yardMod_fr ..).linkAt rfl rfl <| fabMod <| pFar YRD_BARN.ix rfl <| pFar DRV_BARN.ix rfl <| pFar DRV_BARN.ix rfl h

theorem pushTables (h : s.LinkAt k v) : s.pushTables.LinkAt k v := each (fun _ _ h => h.ctrlTo) h.fabMod

theorem setStep {n : Nat} (h : s.LinkAt k v) : (s.setStep n).LinkAt k v := pFar DRV_BARN.ix rfl h.fabMod

theorem startFlood (h : s.LinkAt k v) : s.startFlood.LinkAt k v := each (fun _ _ h => h.nextCseq.ctrlOn) h.fabMod.setStep

theorem restartFormation (h : s.LinkAt k v) : s.restartFormation.LinkAt k v := ite h.fabMod.startFlood h

theorem learnedNew (h : s.LinkAt k v) : s.learnedNew.LinkAt k v := by
  unfold State.learnedNew
  exact ite h <| ite (when (fun _ h => h.pushTables) <| each (fun _ _ h => h.nextCseq.ctrlOn) h.fabMod) <|
    when (fun _ h => h.restartFormation) h

theorem maybeFlood (h : s.LinkAt k v) : s.maybeFlood.LinkAt k v :=
  when (fun _ h => ((State.learn_fr ..).linkAt rfl rfl h).startFlood) h

theorem joinLate {m : Nat} (h : s.LinkAt k v) : (s.joinLate m).LinkAt k v := ite h h.fabMod.setLead.setStep

end State.LinkAt

/-! ## Faults of another link or of a member, below CHIP -/

theorem Fr.severity {m b src : Nat} {s t : State} (hf : Fr m b s t) (hsrc : src < 128) (hb : b.testBit 177 = false)
    (hany : b.testBit 196 = false) : t.severity src = s.severity src := by
  rw [State.severity, State.severity, FLT_SEV.kept (by omega) hf hb hany]

/-- A source below CHIP leaves a link as it is, where the PORT reaction is not on that link (R330). -/
theorem State.LinkAt.raise {s : State} {src q k v : Nat} (hsrc : src < 128) (hsev : s.severity src < 2)
    (hkind : qualKind src = .other ∨ qualKind src = .link ∧ q ≠ k) (h : s.LinkAt k v) : (s.raise src q).LinkAt k v := by
  unfold State.raise
  have h (b b' : Bool) : ((((((s.setSticky src true).when b fun s => s.p (FLT_QUAL.FIRST src) q).p (FLT_QUAL.LAST src) q).incSat
      (FLT_QUAL.COUNT src)).record 0 0x03 4 [src + s.severity src * 2^8 + q * 2^16]).when b' fun s =>
        ((s.withPdc { s.pdc with faultHeld := true }).mark (.raised 0 dMGT)).judge dMGT 0).LinkAt k v :=
    when (fun _ h => (State.judge_fr ..).linkAt rfl rfl h.withPdc.mark) <| (State.record_fr ..).linkAt rfl rfl <|
      pFar (FLT_QUAL.ix src hsrc) rfl <| pFar (FLT_QUAL.ix src hsrc) rfl <| when (fun _ h => pFar (FLT_QUAL.ix src hsrc) rfl h) <|
      (State.setSticky_fr ..).linkAt rfl rfl h
  dsimp only
  split
  · exact h _ _
  split
  · unfold State.reactPort
    refine ite (h _ _) ?_
    obtain hkind | ⟨hkind, hqk⟩ := hkind
    · rw [hkind]
      exact h _ _
    · rw [hkind]
      dsimp only
      split
      · next hq => exact when (fun _ h => h.attempt (by omega) hqk) <| (h _ _).glkOff (by omega) hqk
      · exact h _ _
  · omega

namespace State.LinkAt
variable {s t : State} {j k v : Nat}

theorem memberLost {m : Nat} (hsev : s.severity 52 < 2) (h : s.LinkAt k v) : (s.memberLost m).LinkAt k v := by
  unfold State.memberLost
  have hlost : (((s.closeFlows m).withMirror ((s.closeFlows m).mirror.map fun (q : MirPos) =>
      if q.member = m then { q with st := q.st.disconnect, reach := false } else q)).when
        ((s.closeFlows m).mirror.any fun q => q.member = m && !q.obs) fun s => s.hw UPP_EVT.UNREACHABLE).LinkAt k v :=
    when (fun _ h => hwFar UPP_EVT.ix rfl h) <| withMirror <| (State.closeFlows_fr ..).linkAt rfl rfl h
  have hcalm : (((s.closeFlows m).withMirror ((s.closeFlows m).mirror.map fun (q : MirPos) =>
      if q.member = m then { q with st := q.st.disconnect, reach := false } else q)).when
        ((s.closeFlows m).mirror.any fun q => q.member = m && !q.obs) fun s => s.hw UPP_EVT.UNREACHABLE).severity 52 < 2 := by
    refine when_keeps (P := fun u : State => u.severity 52 < 2) (fun u hu => ?_) ?_
    · rwa [Fr.severity (Fr.hw (UPP_EVT.reg rfl) (Fr.refl 0 295147905179352825856 u)) (by decide) rfl rfl]
    · exact lt_of_eq_of_lt ((State.closeFlows_fr s m).severity (by decide) rfl rfl) hsev
  have h := hlost.raise (q := m) (by decide) hcalm (.inl rfl)
  refine ite ?_ h
  have h := (State.abandonHandoffs_fr _ m).linkAt rfl rfl <| (State.forceLocks_fr _ 8).linkAt rfl rfl h
  dsimp only
  split
  · exact when (fun _ h => h.pushTables) h.setLead
  · exact h

theorem settleLost (hsev : s.severity 52 < 2) (h : s.LinkAt k v) : s.settleLost.LinkAt k v :=
  (each_keeps (P := fun u : State => u.LinkAt k v ∧ u.severity 52 < 2)
    (fun _ _ hu => ⟨hu.1.memberLost hu.2, lt_of_eq_of_lt ((State.memberLost_fr ..).severity (by decide) rfl rfl) hu.2⟩) _ _ ⟨h.fabMod, hsev⟩).1

/-- Another link is isolated (R181). -/
theorem isolate {x : Nat} (hj : j < 4) (hjk : j ≠ k) (h50 : s.severity 50 < 2) (h52 : s.severity 52 < 2) (h : s.LinkAt k v) :
    (s.isolate j x).LinkAt k v := by
  unfold State.isolate
  dsimp only
  generalize decide (s.g (GLK_LINK.STATE j) = 4) = was
  have hf : Fr 24010188542 813059626990554845960719660615620379474577572725287559168 s
      ((((((s.p (GLK_LINK.ISO_CAUSE j) x).glkState j 6).hw (GLK_EVT.ISOLATED j)).when was fun s => s.linkLost j).p (HSH_CARRY.STATE j) 0)) :=
    Fr.p (HSH_CARRY.reg rfl) <| Fr.when (fun _ h => Fr.step (State.linkLost_fr ..) (orDec rfl) (orDec rfl) h) <|
      Fr.hw (GLK_EVT.reg rfl) <| Fr.step (State.glkState_fr ..) (orDec rfl) (orDec rfl) <| Fr.p (GLK_LINK.reg rfl) <| Fr.refl ..
  have h50 := lt_of_eq_of_lt (hf.severity (src := 50) (by decide) rfl rfl) h50
  have h52 := lt_of_eq_of_lt (((State.raise_fr _ 50 j).severity (src := 52) (by decide) rfl rfl).trans (hf.severity (by decide) rfl rfl)) h52
  refine settleLost h52 <| raise (by decide) h50 (.inr ⟨rfl, hjk⟩) ?_
  exact pFar (HSH_CARRY.ix j hj) rfl <| when (fun _ h => h.linkLost hj) <| hwFar (GLK_EVT.ix j hj) rfl <| glkState hj hjk <| pBeside rfl h

/-- Every link whose peer clashes is isolated (R182), this one not among them. -/
theorem isolateClash (hclash : (s.fab.members.any fun m => m.num = s.g (GLK_LINK.PEER_MEMBER k) ∧ m.uid < (s.lk k).peerUid) = false)
    (h50 : s.severity 50 < 2) (h52 : s.severity 52 < 2) (h : s.LinkAt k v) : s.isolateClash.LinkAt k v := by
  unfold State.isolateClash
  refine (each_keeps_of_mem (P := fun u : State => u.LinkAt k v ∧ u.severity 50 < 2 ∧ u.severity 52 < 2)
    (fun j hj u hu => ?_) ⟨h, h50, h52⟩).1
  obtain ⟨hlink, hu50, hu52⟩ := hu
  have hjk : j ≠ k := by
    rintro rfl
    have hj := (Bool.and_eq_true_iff.1 (List.mem_filter.1 hj).2).2
    exact absurd (hclash.symm.trans hj) (by decide)
  have hj : j < 4 := by
    have := (List.mem_filter.1 hj).1
    simp at this
    omega
  exact ⟨hlink.isolate hj hjk hu50 hu52, lt_of_eq_of_lt ((State.isolate_fr ..).severity (by decide) rfl rfl) hu50,
    lt_of_eq_of_lt ((State.isolate_fr ..).severity (by decide) rfl rfl) hu52⟩

end State.LinkAt
end Sys2Proof.Machine

/-!
# The lead of a barn

What links lost, their isolation and the reactions to faults leave of DRV_BARN.LEAD; and a member that leads keeps its office until
another takes it: its own number is never among the members lost (R184, R194).
-/
namespace Sys2Proof.Machine

set_option Elab.async false

/-- The drover holds m for the lead of its barn. -/
structure State.LedBy (s : State) (m : Nat) : Prop where
  lead : s.g DRV_BARN.LEAD = m

/-- Every register but DRV_BARN. -/
def allButBarn : Nat := 2 ^ 196 - 1 - 2 ^ 79

theorem Fr.ledBy {k b m : Nat} {s t : State} (hf : Fr k b s t) (hb : b.testBit 79 = false) (hany : b.testBit 196 = false)
    (h : s.LedBy m) : t.LedBy m := ⟨g_kept (DRV_BARN.kept hf hb hany) h.lead⟩

namespace State.LedBy
variable {s t : State} {m : Nat}

theorem fabMod {f : FabS → FabS} (h : s.LedBy m) : (s.fabMod f).LedBy m := ⟨h.lead⟩
theorem lkMod {k : Nat} {f : GlkS → GlkS} (h : s.LedBy m) : (s.lkMod k f).LedBy m := ⟨h.lead⟩
theorem withMirror {x} (h : s.LedBy m) : (s.withMirror x).LedBy m := ⟨h.lead⟩
theorem withMbx {x} (h : s.LedBy m) : (s.withMbx x).LedBy m := ⟨h.lead⟩
theorem withFlt {x} (h : s.LedBy m) : (s.withFlt x).LedBy m := ⟨h.lead⟩
theorem withBoot {x} (h : s.LedBy m) : (s.withBoot x).LedBy m := ⟨h.lead⟩

/-- Another field of DRV_BARN. -/
theorem pBeside {f : Fld} {v : Nat} (hf : f.beside DRV_BARN.LEAD = true) (h : s.LedBy m) : (s.p f v).LedBy m :=
  ⟨(g_p_beside _ _ hf).trans h.lead⟩

/-- A field of another register. -/
theorem pFar {f : Fld} {v : Nat} (hf : HasReg allButBarn f.addr) (h : s.LedBy m) : (s.p f v).LedBy m :=
  (Fr.p hf (Fr.refl 0 allButBarn s)).ledBy rfl rfl h

theorem hwFar {f : Fld} (hf : HasReg allButBarn f.addr) (h : s.LedBy m) : (s.hw f).LedBy m :=
  (Fr.hw hf (Fr.refl 0 allButBarn s)).ledBy rfl rfl h

theorem incFar {f : Fld} {n : Nat} (hf : HasReg allButBarn f.addr) (h : s.LedBy m) : (s.inc f n).LedBy m := pFar hf h

theorem when {b : Bool} {g : State → State} (hg : ∀ u : State, u.LedBy m → (g u).LedBy m) (h : s.LedBy m) :
    (s.when b g).LedBy m := when_keeps hg h

theorem each {ns : List Nat} {g : Nat → State → State} (hg : ∀ n (u : State), u.LedBy m → (g n u).LedBy m) (h : s.LedBy m) :
    (s.each ns g).LedBy m := each_keeps (P := fun u : State => u.LedBy m) hg ns s h

theorem ite {p : Prop} [Decidable p] (hs : s.LedBy m) (ht : t.LedBy m) : (if p then s else t).LedBy m := by split <;> assumption

/-! ## Routes and links lost -/

theorem installRoutes {rs : List RouteE} (h : s.LedBy m) : (s.installRoutes rs).LedBy m := by
  unfold State.installRoutes
  refine each (fun d u h => ?_) <| each (fun _ _ h => pFar (DRV_ROUTE.reg rfl) <| pFar (DRV_ROUTE.reg rfl) <|
    pFar (DRV_ROUTE.reg rfl) <| pFar (DRV_ROUTE.reg rfl) h) h.fabMod
  refine ite ?_ (ite ?_ h)
  · exact when (fun _ h => (State.memberRecord_fr ..).ledBy rfl rfl <| hwFar (DRV_EVT.reg rfl) h) <| withMbx <| withMirror <| pBeside rfl h
  · exact (State.memberRecord_fr ..).ledBy rfl rfl <| hwFar (DRV_EVT.reg rfl) <| fabMod <| pBeside rfl h

theorem entryFailed {i : Nat} (h : s.LedBy m) : (s.entryFailed i).LedBy m := by
  unfold State.entryFailed
  split
  · exact h
  · refine ite h <| each (fun _ _ h => (State.startResync_fr ..).ledBy rfl rfl h) ?_
    exact hwFar (DRV_EVT.reg rfl) <| incFar (DRV_REROUTE.reg rfl) h.fabMod.installRoutes

theorem linkLost {k : Nat} (h : s.LedBy m) : (s.linkLost k).LedBy m := by
  unfold State.linkLost
  have h : (((s.dropTransit k).lkMod k fun l => { failed := l.failed }).when
      (((s.dropTransit k).lkMod k fun l => { failed := l.failed }).g (HSH_CARRY.STATE k) = 1) fun s =>
        s.p (HSH_CARRY.STATE k) 2).LedBy m :=
    when (fun _ h => pFar (HSH_CARRY.reg rfl) h) <| lkMod <| (State.dropTransit_fr ..).ledBy rfl rfl h
  refine foldl_keeps (P := fun u : State => u.LedBy m) (fun _ _ h => (State.resendCtrl_fr ..).ledBy rfl rfl h) _ _ ?_
  split
  · exact h
  · exact when (fun _ h => (State.ctrlAll_fr ..).ledBy rfl rfl h.entryFailed.fabMod) h

theorem glkOff {k : Nat} (h : s.LedBy m) : (s.glkOff k).LedBy m :=
  when (fun _ h => pFar (HSH_CARRY.reg rfl) h) <| lkMod <| when (fun _ h => h.linkLost) <| pFar (GLK_LINK.reg rfl) <|
    (State.glkState_fr ..).ledBy rfl rfl <| (State.linkBale_fr ..).ledBy rfl rfl h

/-! ## The reactions to a fault source -/

theorem reactPort {src q : Nat} (h : s.LedBy m) : (s.reactPort src q).LedBy m := by
  unfold State.reactPort
  refine ite h ?_
  split
  · split
    · exact (State.portReaction_fr ..).ledBy rfl rfl h
    · exact h
  · exact ite (when (fun _ h => (State.attempt_fr ..).ledBy rfl rfl h) h.glkOff) h
  · exact ite (each (fun _ _ h => (State.portReaction_fr ..).ledBy rfl rfl h) h) h
  · exact h

theorem safeOutputs (h : s.LedBy m) : s.safeOutputs.LedBy m := by
  unfold State.safeOutputs
  refine each (fun _ _ h => (State.muxSafe_fr ..).ledBy rfl rfl <| (State.disconnectHost_fr ..).ledBy rfl rfl h) <|
    each (fun _ _ h => h.glkOff) <| each (fun n u h => ?_) h
  exact when (fun _ h => (State.ccState_fr ..).ledBy rfl rfl <| pFar (TCP_PORT.reg rfl) <| (State.powerDown_fr ..).ledBy rfl rfl h) <|
    (State.dataOff_fr ..).ledBy rfl rfl <| (State.switchOff_fr ..).ledBy rfl rfl h

theorem reactChip {src sev : Nat} (h : s.LedBy m) : (s.reactChip src sev).LedBy m := by
  unfold State.reactChip
  have cause {u : State} {b : Bool} (h : u.LedBy m) :
      ((((u.when b fun s => s.p TOP_MODE.SAFE_CAUSE src).p FLT_STATUS.CAUSE src).p FLT_STATUS.CAUSE_SEV sev).p
        FLT_STATUS.CAUSE_VALID 1).LedBy m :=
    pFar (FLT_STATUS.reg rfl) <| pFar (FLT_STATUS.reg rfl) <| pFar (FLT_STATUS.reg rfl) <| when (fun _ h => pFar (TOP_MODE.reg rfl) h) h
  refine ite h <| ite (ite (cause h).withFlt h) ?_
  refine when (fun _ h => h.withFlt) <| when (fun _ h => (State.setMode_fr ..).ledBy rfl rfl <| pFar (TOP_MODE.reg rfl) <|
    pFar (FLT_STATUS.reg rfl) h) <|
    when (fun _ h => pFar (FLT_PINS.reg rfl) <| pFar (FLT_PINS.reg rfl) <| pFar (FLT_STATUS.reg rfl) h) <|
    cause <| safeOutputs <| when (fun _ h => h.withBoot) h.withFlt

theorem raise {src q : Nat} (h : s.LedBy m) : (s.raise src q).LedBy m := by
  unfold State.raise
  have h (b b' : Bool) : ((((((s.setSticky src true).when b fun s => s.p (FLT_QUAL.FIRST src) q).p (FLT_QUAL.LAST src) q).incSat
      (FLT_QUAL.COUNT src)).record 0 0x03 4 [src + s.severity src * 2^8 + q * 2^16]).when b' fun s =>
        ((s.withPdc { s.pdc with faultHeld := true }).mark (.raised 0 dMGT)).judge dMGT 0).LedBy m :=
    when (fun u h => (State.judge_fr ..).ledBy rfl rfl ⟨h.lead⟩) <| (State.record_fr ..).ledBy rfl rfl <|
      pFar (FLT_QUAL.reg rfl) <| pFar (FLT_QUAL.reg rfl) <| when (fun _ h => pFar (FLT_QUAL.reg rfl) h) <|
      (State.setSticky_fr ..).ledBy rfl rfl h
  exact ite (h _ _) <| ite (h _ _).reactPort (h _ _).reactChip

end State.LedBy

/-! ## Members lost -/

/-- The flows toward a member close: the member number, the sequences seen and the losses stay. -/
theorem State.Knows.closeFlows {m d : Nat} {l : List (Nat × Nat)} {c : Prop} {s : State} (h : s.Knows m l c) : (s.closeFlows d).Knows m l c := by
  unfold State.closeFlows
  refine foldl_keeps (P := fun u : State => u.Knows m l c) (fun _ _ h => (State.freeCells_fr ..).knows rfl h) _ _ <|
    foldl_keeps (P := fun u : State => u.Knows m l c) (fun _ _ h => foldl_keeps (P := fun u : State => u.Knows m l c)
      (fun _ _ h => (State.freeCells_fr ..).knows rfl h) _ _ h) _ _ <| State.Knows.fabMod ?_
  have hq : (s.unqueue d).Knows m l c := (State.unqueue_fr ..).knows rfl h
  exact ⟨hq.member, hq.seen, hq.lost⟩

/-- A member leads its barn: DRV_BARN.LEAD has its number, which is its own, and it is not among the members lost. -/
structure State.Leads (s : State) (m : Nat) (l : List (Nat × Nat)) : Prop where
  led : s.LedBy m
  knows : s.Knows m l False

namespace State.Leads
variable {s : State} {m : Nat} {l : List (Nat × Nat)}

/-- The loss of another member leaves the lead its office. -/
theorem memberLost {d : Nat} (hd : d ≠ m) (h : s.Leads m l) : (s.memberLost d).Leads m l := by
  obtain ⟨hled, hknows⟩ := h
  unfold State.memberLost
  dsimp only
  rw [if_neg (by rw [hled.lead]; exact fun e => hd e.symm)]
  refine ⟨?_, ?_⟩
  · exact State.LedBy.raise <| State.LedBy.when (fun _ h => h.hwFar (UPP_EVT.reg rfl)) <| State.LedBy.withMirror <|
      (State.closeFlows_fr ..).ledBy rfl rfl hled
  · exact State.Knows.raise <| State.Knows.when (fun _ h => h.hw) hknows.closeFlows.withMirror

theorem settleLost (h : s.Leads m l) : s.settleLost.Leads m l := by
  unfold State.settleLost
  obtain ⟨hled, hmember, hseen, hlost⟩ := h
  refine each_keeps_of_mem (P := fun u : State => u.Leads m l) (fun d hd u hu => hu.memberLost ?_)
    ⟨hled.fabMod, hmember, hseen, fun e => absurd e List.not_mem_nil⟩
  rintro rfl
  exact hlost hd

theorem isolate {k x : Nat} (h : s.Leads m l) : (s.isolate k x).Leads m l := by
  obtain ⟨hled, hknows⟩ := h
  unfold State.isolate
  refine settleLost ⟨State.LedBy.raise ?_, State.Knows.raise ?_⟩
  · exact State.LedBy.pFar (HSH_CARRY.reg rfl) <| State.LedBy.when (fun _ h => h.linkLost) <| State.LedBy.hwFar (GLK_EVT.reg rfl) <|
      (State.glkState_fr ..).ledBy rfl rfl <| hled.pFar (GLK_LINK.reg rfl)
  · exact State.Knows.p <| State.Knows.when (fun _ h => h.linkLost) <| State.Knows.hw <| (State.glkState_fr ..).knows rfl hknows.p

theorem confirmClaims (h : s.Leads m l) : s.confirmClaims.Leads m l :=
  each_keeps (P := fun u : State => u.Leads m l) (fun _ _ hu => hu.isolate) _ _ ⟨h.led.fabMod, h.knows.fabMod⟩

end State.Leads

/-- A lead set takes its office at once (R184). -/
theorem State.setLead_led (s : State) (m : Nat) (first : Bool) : (s.setLead m first).LedBy (m % 2 ^ DRV_BARN.LEAD.width) := by
  unfold State.setLead
  refine (State.reportCommitted_fr ..).ledBy rfl rfl <| (State.helloAll_fr ..).ledBy rfl rfl <| State.LedBy.ite ?_ <|
    (State.memberRecord_fr ..).ledBy rfl rfl <| State.LedBy.hwFar (DRV_EVT.reg rfl) ?_
  all_goals
    refine State.LedBy.when (fun _ h => State.LedBy.pFar (YRD_BARN.reg rfl) <| State.LedBy.pFar (YRD_BARN.reg rfl) <|
      h.pFar (YRD_BARN.reg rfl)) ?_
    exact (State.yardMod_fr ..).ledBy rfl rfl <| State.LedBy.fabMod <| State.LedBy.pFar (YRD_BARN.reg rfl) <|
      State.LedBy.pBeside rfl ⟨g_p _ _ rfl⟩

end Sys2Proof.Machine

/-!
# Formation of the barn, tables and notices
-/
namespace Sys2Proof.Machine

set_option Elab.async false

section
variable {s : State} {k m : Nat}

/-! ## What control messages and leads leave of the drover -/

/-- A control message sent changes the drover's control sequences alone (R176). -/
theorem State.ctrlTo_fab {α : Type} {g : FabS → α} {d : Nat} {name : String} {fields : List Nat}
    (hg : ∀ f c, g { f with cseq := c } = g f := by intro f c; rfl) : g (s.ctrlTo d name fields).fab = g s.fab := by
  unfold State.ctrlTo
  split
  · rfl
  · dsimp only
    split
    · rfl
    · exact (congrArg g ((State.ctrlOn_fr ..).fab rfl)).trans (hg ..)

theorem State.ctrlAll_fab {α : Type} {g : FabS → α} {name : String} {fields : List Nat}
    (hg : ∀ f c, g { f with cseq := c } = g f := by intro f c; rfl) : g (s.ctrlAll name fields).fab = g s.fab :=
  each_keeps (P := fun u : State => g u.fab = g s.fab) (fun _ _ h => (congrArg g ((State.ctrlOn_fr ..).fab rfl)).trans h) _ _ (hg ..)

theorem State.setLead_fab {α : Type} {g : FabS → α} {first : Bool} (hc : ∀ f c, g { f with cseq := c } = g f := by intro f c; rfl)
    (he : ∀ f, g { f with elected := true } = g f := by intro f; rfl) : g (s.setLead m first).fab = g s.fab := by
  unfold State.setLead State.reportCommitted
  refine when_keeps (P := fun u : State => g u.fab = g s.fab) (fun _ h => (State.ctrlTo_fab hc).trans h) ?_
  refine (congrArg g ((State.helloAll_fr ..).fab rfl)).trans <| ite_keeps (P := fun u : State => g u.fab = g s.fab) ?_ <|
    (congrArg g ((State.memberRecord_fr ..).fab rfl)).trans ?_
  all_goals exact when_keeps (P := fun u : State => g u.fab = g s.fab) (fun _ h => h) (he s.fab)

/-- A lead set leaves the barn formed or not. -/
theorem State.setLead_formed {first : Bool} : (s.setLead m first).on DRV_BARN.FORMED = s.on DRV_BARN.FORMED := by
  unfold State.setLead
  have hset (u : State) (h : u.on DRV_BARN.FORMED = s.on DRV_BARN.FORMED) : (u.helloAll.reportCommitted).on DRV_BARN.FORMED = s.on DRV_BARN.FORMED :=
    on_kept (DRV_BARN.kept (State.reportCommitted_fr ..) rfl rfl) <| on_kept (DRV_BARN.kept (State.helloAll_fr ..) rfl rfl) h
  refine hset _ <| ite_keeps (P := fun u : State => u.on DRV_BARN.FORMED = s.on DRV_BARN.FORMED) ?_ <|
    on_kept (DRV_BARN.kept (State.memberRecord_fr ..) rfl rfl) <| (on_hw_far _ DRV_EVT.ix DRV_BARN.ix).trans ?_
  all_goals
    refine on_when (fun _ h => (on_p_far _ _ YRD_BARN.ix DRV_BARN.ix).trans <| (on_p_far _ _ YRD_BARN.ix DRV_BARN.ix).trans <|
      (on_p_far _ _ YRD_BARN.ix DRV_BARN.ix).trans h) ?_
    exact (on_p_far _ _ YRD_BARN.ix DRV_BARN.ix).trans <| (on_p_beside _ _ rfl).trans (on_p_beside _ _ rfl)

theorem State.Knows.setLead {first : Bool} {l : List (Nat × Nat)} {n : Nat} {c : Prop} (h : s.Knows n l c) : (s.setLead m first).Knows n l c :=
  ⟨(State.setLead_fab (g := FabS.member)).trans h.member, (State.setLead_fab (g := FabS.seen)).trans h.seen,
    fun e => h.lost ((State.setLead_fab (g := FabS.lost)).subst (motive := fun l => n ∈ l) e)⟩

/-! ## A barn that is formed -/

/-- In a barn formed, something learned is flooded, and the step of formation stays (R183). -/
theorem State.learnedNew_formed (h : s.on DRV_BARN.FORMED = true) : s.learnedNew.word DRV_BARN.addr = s.word DRV_BARN.addr := by
  unfold State.learnedNew
  split
  · rfl
  · rw [if_pos (by rw [h]; rfl)]
    refine when_keeps (P := fun u : State => u.word DRV_BARN.addr = s.word DRV_BARN.addr)
      (fun u h => (DRV_BARN.kept (State.pushTables_fr ..) rfl rfl).trans h) ?_
    have hflood := State.flood_fr (s.fabMod fun f => { f with learned := false })
    exact (DRV_BARN.kept hflood rfl rfl).trans rfl

/-- The drover's events and the boot times stay while a barn that is formed tells of it. -/
theorem State.formed_done {ms : Nat} : (s.formed ms).on DRV_BARN.FORMED = true ∧ (s.formed ms).g DRV_BARN.STEP = 0 ∧
    (s.formed ms).on DRV_EVT.FORMED = true ∧
    (s.formed ms).g TOP_BOOT_TIME.CONNECT = if s.fab.deadline then s.g TOP_BOOT_TIME.CONNECT else min 65535 ms := by
  unfold State.formed
  dsimp only
  generalize hu : (((s.fabMod fun f => { f with joining := false, restarts := 0 }).p DRV_BARN.FORMED 1).setStep 0) = u
  have hformed : u.on DRV_BARN.FORMED = true := by
    rw [← hu]
    exact (on_p_beside _ _ rfl).trans (on_p_one _ rfl rfl)
  have hstep : u.g DRV_BARN.STEP = 0 := by rw [← hu]; exact g_p_lit rfl rfl
  have hconnect : u.g TOP_BOOT_TIME.CONNECT = s.g TOP_BOOT_TIME.CONNECT := by
    rw [← hu]
    exact (g_p_far _ _ DRV_BARN.ix TOP_BOOT_TIME.ix).trans (g_p_far _ _ DRV_BARN.ix TOP_BOOT_TIME.ix)
  have hdeadline : (u.hw DRV_EVT.FORMED).fab.deadline = s.fab.deadline := by rw [← hu]; rfl
  have hmark : (u.hw DRV_EVT.FORMED).on DRV_EVT.FORMED = true := on_hw _ rfl rfl
  rw [hdeadline]
  have hbarn : ((u.hw DRV_EVT.FORMED).when (!s.fab.deadline) fun s => s.p TOP_BOOT_TIME.CONNECT (min 65535 ms)).word DRV_BARN.addr =
      u.word DRV_BARN.addr :=
    when_keeps (P := fun v : State => v.word DRV_BARN.addr = u.word DRV_BARN.addr)
      (fun v h => (word_p_ne _ _ (by decide)).trans h) (DRV_BARN.kept (Fr.hw (DRV_EVT.reg rfl) (Fr.refl 0 (2 ^ 87) u)) rfl rfl)
  have hevt : ((u.hw DRV_EVT.FORMED).when (!s.fab.deadline) fun s => s.p TOP_BOOT_TIME.CONNECT (min 65535 ms)).on DRV_EVT.FORMED = true :=
    on_when (fun v h => (on_p_far _ _ TOP_BOOT_TIME.ix DRV_EVT.ix).trans h) hmark
  have htime : ((u.hw DRV_EVT.FORMED).when (!s.fab.deadline) fun s => s.p TOP_BOOT_TIME.CONNECT (min 65535 ms)).g TOP_BOOT_TIME.CONNECT =
      if s.fab.deadline then s.g TOP_BOOT_TIME.CONNECT else min 65535 ms := by
    cases s.fab.deadline
    · exact g_p_of_lt rfl (by show _ < 2 ^ 16; omega)
    · exact (g_hw_far _ DRV_EVT.ix TOP_BOOT_TIME.ix).trans hconnect
  generalize (u.hw DRV_EVT.FORMED).when (!s.fab.deadline) (fun s => s.p TOP_BOOT_TIME.CONNECT (min 65535 ms)) = v at hbarn hevt htime
  have htell : v.helloAll.reportCommitted.word DRV_BARN.addr = u.word DRV_BARN.addr :=
    (DRV_BARN.kept (State.reportCommitted_fr ..) rfl rfl).trans <| (DRV_BARN.kept (State.helloAll_fr ..) rfl rfl).trans hbarn
  have hend : v.helloAll.reportCommitted.learnedNew.word DRV_BARN.addr = u.word DRV_BARN.addr :=
    (State.learnedNew_formed (on_kept htell hformed)).trans htell
  refine ⟨on_kept hend hformed, g_kept hend hstep, ?_, ?_⟩
  · exact on_kept (DRV_EVT.kept (State.learnedNew_fr ..) rfl rfl) <| on_kept (DRV_EVT.kept (State.reportCommitted_fr ..) rfl rfl) <|
      on_kept (DRV_EVT.kept (State.helloAll_fr ..) rfl rfl) hevt
  · exact g_kept (TOP_BOOT_TIME.kept (State.learnedNew_fr ..) rfl rfl) <| g_kept (TOP_BOOT_TIME.kept (State.reportCommitted_fr ..) rfl rfl) <|
      g_kept (TOP_BOOT_TIME.kept (State.helloAll_fr ..) rfl rfl) htime

/-! ## A HELLO -/

/-- An isolation is marked, whatever follows it. -/
theorem State.isolate_marks {x : Nat} (hk : k < 4) : (s.isolate k x).on (GLK_EVT.ISOLATED k) = true := by
  unfold State.isolate
  refine on_kept (GLK_EVT.kept hk (State.settleLost_fr ..) rfl rfl) <| on_kept (GLK_EVT.kept hk (State.raise_fr ..) rfl rfl) <|
    (on_p_far _ _ (HSH_CARRY.ix k hk) (GLK_EVT.ix k hk)).trans ?_
  exact on_when (fun u h => on_kept (GLK_EVT.kept hk (State.linkLost_fr ..) rfl rfl) h) (on_hw _ rfl rfl)

theorem State.glkState_state {v : Nat} (hk : k < 4) (hv : v < 8) : (s.glkState k v).LinkAt k v := by
  refine ⟨hk, ?_⟩
  unfold State.glkState
  split
  · assumption
  · refine g_kept (GLK_LINK.kept hk (State.record_fr ..) rfl rfl) <| g_kept (GLK_LINK.kept hk (State.linkJudge_fr ..) rfl rfl) ?_
    exact (g_p_beside _ _ rfl).trans (g_p_of_lt rfl hv)

/-- A change of a link's state leaves what its peer claims (R181). -/
theorem State.glkState_peer {v : Nat} (hk : k < 4) : (s.glkState k v).g (GLK_LINK.PEER_MEMBER k) = s.g (GLK_LINK.PEER_MEMBER k) ∧
    ((s.glkState k v).lk k).peerUid = (s.lk k).peerUid := by
  unfold State.glkState
  split
  · exact ⟨rfl, rfl⟩
  · refine ⟨g_kept (GLK_LINK.kept hk (State.record_fr ..) rfl rfl) <| g_kept (GLK_LINK.kept hk (State.linkJudge_fr ..) rfl rfl) ?_, ?_⟩
    · exact (g_p_beside _ _ rfl).trans (g_p_beside _ _ rfl)
    · rw [State.lk, (State.record_fr ..).glk rfl, (State.linkJudge_fr ..).glk rfl]
      exact (congrArg GlkS.peerUid (vat_vmod _ _ hk)).trans rfl

/-- No holder of number n has a lower UID than u. -/
def State.claimClear (s : State) (n u : Nat) : Bool := s.fab.members.all fun m => m.num ≠ n || u ≤ m.uid

/-- A HELLO that passes the checks of R181 claims a number that no other holds with a lower UID. -/
theorem State.claimClear_of_helloCause {uid hash barnId claimed peerLink : Nat} (h : s.helloCause k uid hash barnId claimed peerLink = 0) :
    s.claimClear claimed uid = true := by
  unfold State.helloCause at h
  dsimp only at h
  split_ifs at h with _ _ _ _ hlower
  unfold State.claimClear
  simpa [Nat.not_lt, imp_iff_not_or] using hlower

/-- What such a peer and the member itself tell of members leaves it so. -/
theorem State.learn_claimClear {ls : List LinkAd} {claimed uid : Nat} {e : Bool} (hown : claimed ≠ s.member) (h : s.claimClear claimed uid = true) :
    (s.learn ls [⟨claimed, uid, e⟩, s.ownAd]).claimClear claimed uid = true := by
  simp only [State.claimClear, List.all_eq_true, Bool.or_eq_true, decide_eq_true_eq] at h ⊢
  intro x hx
  obtain hx | hx := List.mem_append.1 hx
  · exact h x (List.mem_filter.1 hx).1
  · have hx := (List.mem_filter.1 hx).1
    simp only [List.mem_cons, List.not_mem_nil, or_false] at hx
    obtain rfl | rfl := hx
    · exact .inr le_rfl
    · exact .inl hown.symm

/-- Where the holder of the number a link's peer claims has no lower UID than the peer, the link is not isolated for it (R182). -/
theorem State.LinkAt.isolateClash_clear {v : Nat} (hclear : s.claimClear (s.g (GLK_LINK.PEER_MEMBER k)) (s.lk k).peerUid = true)
    (h50 : s.severity 50 < 2) (h52 : s.severity 52 < 2) (h : s.LinkAt k v) : s.isolateClash.LinkAt k v := by
  refine h.isolateClash ?_ h50 h52
  simp only [State.claimClear, List.all_eq_true, Bool.or_eq_true, decide_eq_true_eq] at hclear
  simp only [List.any_eq_false, decide_eq_true_eq]
  intro x hx hlower
  obtain hne | hle := hclear x hx
  · exact hne hlower.1
  · omega

/-- A link whose peer's HELLO passes the checks of R181 comes into service, and no clash of its own isolates it. -/
theorem State.hello_service {uid claimed : Nat} {ls : List LinkAd} {e : Bool} (hk : k < 4) (hown : claimed ≠ s.member)
    (hpeer : s.g (GLK_LINK.PEER_MEMBER k) = claimed) (huid : (s.lk k).peerUid = uid) (hclear : s.claimClear claimed uid = true)
    (h50 : s.severity 50 < 2) (h52 : s.severity 52 < 2) {u : State} (hu : (s.p (GLK_LINK.ISO_CAUSE k) 0).glkState k 4 = u) :
    ((u.learn ls [⟨claimed, uid, e⟩, u.ownAd]).isolateClash).LinkAt k 4 := by
  have hfr := State.glkState_fr (s.p (GLK_LINK.ISO_CAUSE k) 0) k 4
  have hiso : Fr 0 (2 ^ 71) s (s.p (GLK_LINK.ISO_CAUSE k) 0) := Fr.p (GLK_LINK.reg rfl) (Fr.refl ..)
  rw [hu] at hfr
  have hfab : u.fab = s.fab := hfr.fab rfl
  obtain ⟨hpeerU, huidU⟩ := State.glkState_peer (s := s.p (GLK_LINK.ISO_CAUSE k) 0) (v := 4) hk
  have hlink : u.LinkAt k 4 := hu ▸ State.glkState_state hk (by decide)
  rw [hu] at hpeerU huidU
  have hclear : u.claimClear claimed uid = true := by rwa [State.claimClear, hfab]
  refine State.LinkAt.isolateClash_clear ?_ ?_ ?_ ⟨hlink.lt, hlink.state⟩
  · show State.claimClear _ (u.g (GLK_LINK.PEER_MEMBER k)) (u.lk k).peerUid = true
    rw [hpeerU, huidU, g_p_beside _ _ rfl, hpeer]
    show State.claimClear _ claimed (s.lk k).peerUid = true
    rw [huid]
    exact State.learn_claimClear (by rwa [State.member, hfab]) hclear
  · exact lt_of_eq_of_lt ((hfr.severity (by decide) rfl rfl).trans (hiso.severity (by decide) rfl rfl)) h50
  · exact lt_of_eq_of_lt ((hfr.severity (by decide) rfl rfl).trans (hiso.severity (by decide) rfl rfl)) h52

end
end Sys2Proof.Machine

/-!
# The commands of the barn
-/
namespace Sys2Proof.Machine

set_option Elab.async false

/-- What is set once, at one number of a list without repeats, from a state its other numbers keep, and kept by the rest, stands at
the end. -/
theorem each_once {P Q : State → Prop} {n : Nat} {l : List Nat} {g : Nat → State → State} (hn : n ∈ l) (hl : l.Nodup)
    (hset : ∀ u, Q u → P (g n u)) (hbefore : ∀ k ∈ l, k ≠ n → ∀ u, Q u → Q (g k u)) (hafter : ∀ k ∈ l, k ≠ n → ∀ u, P u → P (g k u))
    {s : State} (h : Q s) : P (s.each l g) := by
  induction l generalizing s with
  | nil => cases hn
  | cons j l ih =>
    obtain ⟨hj, hl⟩ := List.nodup_cons.1 hl
    show P ((g j s).each l g)
    by_cases hjn : j = n
    · subst hjn
      exact each_keeps_of_mem (fun k hk u hu => hafter k (List.mem_cons_of_mem _ hk) (fun e => hj (e ▸ hk)) u hu) (hset s h)
    · exact ih ((List.mem_cons.1 hn).resolve_left (Ne.symm hjn)) hl (fun k hk => hbefore k (List.mem_cons_of_mem _ hk))
        (fun k hk => hafter k (List.mem_cons_of_mem _ hk)) (hbefore j List.mem_cons_self hjn s h)

/-- What a HELLO leaves of the chip before its checks: the member number and the severities stay, and the link holds what its peer
claims (R181). -/
theorem State.helloSeen_frame (s : State) (h : BaleHdr) (claimed peerLink uid : Nat) :
    (s.helloSeen h claimed peerLink uid).member = s.member ∧
      ∀ src < 128, (s.helloSeen h claimed peerLink uid).severity src = s.severity src := by
  have hrx := State.rxLink_fr s h
  have hf : Fr 131072 (2 ^ 71) (s.rxLink h) (s.helloSeen h claimed peerLink uid) :=
    Fr.step (State.lkMod_fr ..) (orDec rfl) (orDec rfl) <| Fr.p (GLK_LINK.reg rfl) <| Fr.p (GLK_LINK.reg rfl) <| Fr.refl ..
  refine ⟨?_, fun src hsrc => (hf.severity hsrc rfl rfl).trans (hrx.severity hsrc rfl rfl)⟩
  rw [State.member, State.member, hf.fab rfl, hrx.fab rfl]

theorem State.helloSeen_peer (s : State) (h : BaleHdr) {claimed : Nat} (peerLink uid : Nat) (hfit : claimed < 8) :
    (s.helloSeen h claimed peerLink uid).g (GLK_LINK.PEER_MEMBER h.link) = claimed ∧
      ((s.helloSeen h claimed peerLink uid).lk h.link).peerUid = uid :=
  ⟨(g_p_beside _ _ rfl).trans (g_p_of_lt rfl hfit), congrArg GlkS.peerUid (vat_vmod _ _ h.link.2)⟩

/-- Tables pushed: the lead's own acknowledgement stands first (R183). -/
theorem State.pushTables_acks (s : State) : s.pushTables.fab.acks = [s.member] :=
  each_keeps (P := fun u : State => u.fab.acks = [s.member]) (fun _ _ h => (State.ctrlTo_fab (g := FabS.acks)).trans h) _ _ rfl

/-- The sender of tables leads the barn once they are taken (R184). -/
theorem State.takeLead_done {s v : State} {m : Nat} {first : State → Bool} (hm : m < 8)
    (hv : (s.when (s.g DRV_BARN.LEAD ≠ m || s.on DRV_BARN.IS_LEAD) fun s => s.setLead m (first s)) = v) :
    v.g DRV_BARN.LEAD = m ∧ v.fab.next = s.fab.next ∧ v.on DRV_BARN.FORMED = s.on DRV_BARN.FORMED := by
  subst hv
  obtain hc | hc := Bool.eq_false_or_eq_true (decide (s.g DRV_BARN.LEAD ≠ m) || s.on DRV_BARN.IS_LEAD)
  · rw [when_of _ hc]
    have hlt : m % 2 ^ DRV_BARN.LEAD.width = m := Nat.mod_eq_of_lt hm
    refine ⟨?_, ?_, ?_⟩
    · exact (State.setLead_led ..).lead.trans hlt
    · exact State.setLead_fab (g := FabS.next)
    · exact State.setLead_formed
  · rw [when_of_not _ hc]
    exact ⟨not_not.1 (of_decide_eq_false (Bool.or_eq_false_iff.1 hc).1), rfl, rfl⟩

theorem State.Knows.setStep {s : State} {n m : Nat} {l : List (Nat × Nat)} {c : Prop} (h : s.Knows m l c) : (s.setStep n).Knows m l c :=
  ⟨h.member, h.seen, h.lost⟩

/-- The failed links on record are those of l. -/
structure State.Failed (l : List Nat) (s : State) : Prop where
  failed : s.fab.failed = l

theorem State.Failed.p {s : State} {l : List Nat} {f : Fld} {v : Nat} (h : s.Failed l) : (s.p f v).Failed l := ⟨h.failed⟩

theorem State.Failed.told {s : State} {l : List Nat} {m e : Nat} (h : s.Failed l) : (s.memberRecord m e).Failed l :=
  ⟨(congrArg FabS.failed ((State.memberRecord_fr ..).fab rfl)).trans h.failed⟩

/-- Routes installed leave the failed links on record. -/
theorem State.Failed.installRoutes {s : State} {l : List Nat} {rs : List RouteE} (h : s.Failed l) : (s.installRoutes rs).Failed l := by
  unfold State.installRoutes
  refine each_keeps (P := State.Failed l) (fun d u h => ?_) _ _ <|
    each_keeps (P := State.Failed l) (fun _ _ h => h.p.p.p.p) _ _ ⟨h.failed⟩
  refine ite_keeps (P := State.Failed l) ?_ <| ite_keeps (P := State.Failed l) ?_ h
  · exact when_keeps (P := State.Failed l) (fun _ h => State.Failed.told ⟨h.failed⟩) ⟨h.failed⟩
  · exact State.Failed.told ⟨h.failed⟩

/-- With no failed link on record, none is to be forgotten. -/
theorem State.fabMod_failed_nil {s : State} (h : s.fab.failed = []) : (s.fabMod fun f => { f with failed := [] }) = s :=
  congrArg s.withFab (by rw [← h])

/-- The load of a link is shown as it stood, and counted anew (R190). -/
theorem State.loads_shown (s : State) {k : Nat} (hk : k < 4) :
    (s.each [0, 1, 2, 3] fun k s => (s.p (DRV_LOAD.BALES k) (s.lk k).load).lkMod k fun l => { l with load := 0 }).g (DRV_LOAD.BALES k) =
      (s.lk k).load % 2 ^ (DRV_LOAD.BALES k).width := by
  have hlt {j : Nat} (hj : j ∈ [0, 1, 2, 3]) : j < 4 := by simp at hj; omega
  have haddr {j : Nat} (hj : j < 4) (hjk : j ≠ k) : (DRV_LOAD.BALES k).addr ≠ (DRV_LOAD.BALES j).addr := by
    simp only [DRV_LOAD.BALES, DRV_LOAD.addr, if_pos hj, if_pos hk]
    omega
  refine each_once (P := fun u : State => u.g (DRV_LOAD.BALES k) = (s.lk k).load % 2 ^ (DRV_LOAD.BALES k).width)
    (Q := fun u : State => u.lk k = s.lk k) (n := k) (by simp; omega) (by decide) (fun u hu => ?_) (fun j hj hjk u hu => ?_)
    (fun j hj hjk u hu => ?_) rfl
  · exact (g_p u _ rfl).trans (by rw [hu])
  · exact (vat_vmod_ne _ _ hjk).trans hu
  · exact (g_p_ne u _ (haddr (hlt hj) hjk)).trans hu

/-- The load shown of link k is v. -/
structure State.Shows (k v : Nat) (s : State) : Prop where
  lt : k < 4
  load : s.g (DRV_LOAD.BALES k) = v

theorem Fr.shows {m b k v : Nat} {s t : State} (hf : Fr m b s t) (hb : b.testBit 81 = false) (hany : b.testBit 196 = false)
    (h : s.Shows k v) : t.Shows k v := ⟨h.lt, g_kept (DRV_LOAD.kept h.lt hf hb hany) h.load⟩

theorem State.Shows.fabMod {k v : Nat} {s : State} {f : FabS → FabS} (h : s.Shows k v) : (s.fabMod f).Shows k v := ⟨h.lt, h.load⟩

theorem State.Shows.pFar {k v x i : Nat} {s : State} {f : Fld} (hf : regIx f.addr = i) (hi : Nat.beq i 81 = false) (h : s.Shows k v) :
    (s.p f x).Shows k v := ⟨h.lt, (g_p_far _ _ hf (DRV_LOAD.ix k h.lt) hi).trans h.load⟩

theorem State.Shows.hwFar {k v i : Nat} {s : State} {f : Fld} (hf : regIx f.addr = i) (hi : Nat.beq i 81 = false) (h : s.Shows k v) :
    (s.hw f).Shows k v := ⟨h.lt, (g_hw_far _ hf (DRV_LOAD.ix k h.lt) hi).trans h.load⟩

theorem State.Shows.ite {k v : Nat} {p : Prop} [Decidable p] {a b : Nat × State} (ha : a.2.Shows k v) (hb : b.2.Shows k v) :
    (if p then a else b).2.Shows k v := by split <;> assumption

/-- A switch of tables with no failed link keeps the whole of the new database (R185). -/
theorem State.fabMod_switch {s : State} {rt : RouteTable} (h : s.fab.failed = []) :
    (s.fabMod fun f => { f with table := rt, next := none, failed := [], db := f.nextDb.filter fun _ => !false }) =
      s.fabMod fun f => { f with table := rt, next := none, db := f.nextDb } := by
  have hall : (s.fab.nextDb.filter fun _ => !false) = s.fab.nextDb := List.filter_eq_self.2 fun _ _ => rfl
  unfold State.fabMod
  dsimp only
  rw [hall, h]

/-- So the routes of the new tables leave none on record. -/
theorem State.installRoutes_failed_nil {s : State} {rt : RouteTable} (h : s.fab.failed = []) :
    ((((s.fabMod fun f => { f with table := rt, next := none, db := f.nextDb }).p DRV_BARN.TABLE_VER rt.ver).installRoutes rt.main).fabMod
      fun f => { f with failed := [] }) =
      ((s.fabMod fun f => { f with table := rt, next := none, db := f.nextDb }).p DRV_BARN.TABLE_VER rt.ver).installRoutes rt.main := by
  have hnone : (s.fabMod fun f => { f with table := rt, next := none, db := f.nextDb }).Failed [] := ⟨h⟩
  exact State.fabMod_failed_nil hnone.p.installRoutes.failed

theorem helloReceived_isolates :
    ∀ (h : BaleHdr) (uid : Nat) (hash : Nat) (barnId : Nat) (claimed : Fin 256) (peerLink : Fin 4) (flags : Fin 256) (lead : Fin 256) (s : State), s.lkAwake h.link = true →
    (s.helloSeen h claimed peerLink uid).g (GLK_LINK.STATE h.link) ≠ 6 →
    (s.helloSeen h claimed peerLink uid).helloCause h.link uid hash barnId claimed peerLink ≠ 0 →
    Does (.helloReceived h uid hash barnId claimed peerLink flags lead) s fun t => t.on (GLK_EVT.ISOLATED h.link) = true := by
  intro h uid hash barnId claimed peerLink flags lead s hawake hst hcause
  have hk : h.link.val < 4 := h.link.2
  refine does_of rfl ((if_neg (by rw [hawake]; decide)).trans (if_pos hcause)) ?_
  rw [if_neg (by exact hst)]
  exact on_kept (GLK_EVT.kept hk (State.maybeFlood_fr ..) rfl rfl) (State.isolate_marks hk)

theorem helloReceived_serves :
    ∀ (h : BaleHdr) (uid : Nat) (hash : Nat) (barnId : Nat) (claimed : Fin 256) (peerLink : Fin 4) (flags : Fin 256) (lead : Fin 256) (s : State), claimed.val < 8 → claimed.val ≠ s.member → s.severity 50 < 2 → s.severity 52 < 2 → s.lkAwake h.link = true →
    (s.helloSeen h claimed peerLink uid).helloCause h.link uid hash barnId claimed peerLink = 0 →
    Does (.helloReceived h uid hash barnId claimed peerLink flags lead) s fun t => t.g (GLK_LINK.STATE h.link) = 4 := by
  intro h uid hash barnId claimed peerLink flags lead s hfit hown h50 h52 hawake hcause
  have hk : h.link.val < 4 := h.link.2
  refine does_of rfl ((if_neg (by rw [hawake]; decide)).trans (if_neg (not_not.2 hcause))) ?_
  obtain ⟨hmember, hsev⟩ := s.helloSeen_frame h claimed peerLink uid
  obtain ⟨hpeer, huid⟩ := s.helloSeen_peer h peerLink uid hfit
  have hserved (ls : List LinkAd) (e : Bool) := State.hello_service (ls := ls) (e := e) hk (by rwa [hmember]) hpeer huid
    (State.claimClear_of_helloCause hcause) (by rwa [hsev 50 (by decide)]) (by rwa [hsev 52 (by decide)]) rfl
  refine (State.LinkAt.learnedNew <| State.LinkAt.maybeFlood <| State.LinkAt.pump _ ?_).state
  exact State.LinkAt.ite (State.LinkAt.when (fun _ h => h.setLead) (hserved _ _)) <|
    State.LinkAt.ite (hserved _ _).joinLate <| State.LinkAt.ite (hserved _ _).restartFormation (hserved _ _)

theorem lsaReceived_learns :
    ∀ (c : CtrlHdr) (links : List LinkAd) (members : List MemberAd) (s : State), Taken c s →
    Does (.lsaReceived c links members) s fun t => t = ((s.rxCtrl c "LSA" [] id).learn links members).isolateClash.learnedNew := by
  intro c links members s htaken
  exact does_of rfl (State.rxCtrl_of_taken htaken ..) rfl

theorem floodingRoundEnd_again :
    ∀ (s : State), s.fab.step = 4 → s.fab.learned = true → Does .floodingRoundEnd s fun t => t = s.startFlood := by
  intro s hstep hlearned
  exact does_of rfl ((when_of _ (by simp [hstep])).trans (if_pos hlearned)) rfl

theorem floodingRoundEnd_elects :
    ∀ m (s : State), (m = s.member → m < 8 ∧ m ∉ s.fab.lost) → s.fab.step = 4 → s.fab.learned = false →
    ((s.fabMod fun f => { f with route := routesOf f.lsdb f.member, db := f.lsdb }).leadChoice = some m) →
    Does .floodingRoundEnd s fun t => t.g DRV_BARN.STEP = (if m = s.member then 7 else 6) ∧
    t.g DRV_BARN.LEAD = m % 2 ^ DRV_BARN.LEAD.width ∧ (m = s.member → t.fab.acks = [s.member]) := by
  intro m s hm hstep hlearned hlead
  obtain ⟨u, hu⟩ : ∃ u, u = (s.fabMod fun f => { f with route := routesOf f.lsdb f.member, db := f.lsdb }).setStep 5 := ⟨_, rfl⟩
  have hchoice : u.leadChoice = some m := by rw [hu]; exact hlead
  have hmember : u.member = s.member := by rw [hu]; rfl
  have hsame : ((u.setLead m true).setStep 6).member = s.member := (State.setLead_fab (g := FabS.member)).trans hmember
  have hled : ((u.setLead m true).setStep 6).LedBy (m % 2 ^ DRV_BARN.LEAD.width) := (State.setLead_led ..).fabMod.pBeside rfl
  refine does_of (t := ((u.setLead m true).setStep 6).when (decide (m = s.member)) fun s => (s.confirmClaims.setStep 7).pushTables) rfl ?_ ?_
  · rw [when_of _ (by simp [hstep]), if_neg (by simp [hlearned])]
    dsimp only
    rw [← hu, hchoice]
    dsimp only
    rw [hsame]
  by_cases hown : m = s.member
  · rw [when_of _ (decide_eq_true hown), if_pos hown]
    have hlt : m % 2 ^ DRV_BARN.LEAD.width = m := Nat.mod_eq_of_lt (hm hown).1
    have hknows : u.Knows m s.fab.seen False := by
      rw [hu, hown]
      exact State.Knows.setStep ⟨rfl, rfl, (hown ▸ hm hown).2⟩
    have hconfirmed := State.Leads.confirmClaims ⟨hlt ▸ hled, hknows.setLead.setStep⟩
    generalize ((u.setLead m true).setStep 6).confirmClaims = w at hconfirmed
    refine ⟨?_, ?_, fun _ => ?_⟩
    · exact g_kept (DRV_BARN.kept (State.pushTables_fr ..) rfl rfl) (g_p_lit rfl rfl)
    · rw [hlt]
      exact ((State.pushTables_fr ..).ledBy rfl rfl (hconfirmed.led.fabMod.pBeside rfl)).lead
    · rw [State.pushTables_acks, ← hown, ← hconfirmed.knows.member]
      rfl
  · rw [when_of_not _ (decide_eq_false hown), if_neg hown]
    exact ⟨g_p_lit rfl rfl, hled.lead, fun e => absurd e hown⟩

theorem floodingRoundEnd_alone :
    ∀ (s : State), s.fab.step = 4 → s.fab.learned = false →
    ((s.fabMod fun f => { f with route := routesOf f.lsdb f.member, db := f.lsdb }).leadChoice = none) →
    Does .floodingRoundEnd s fun t => t.g DRV_BARN.STEP = 5 := by
  intro s hstep hlearned hlead
  refine does_of rfl ((when_of _ (by simp [hstep])).trans (if_neg (by simp [hlearned]))) ?_
  have hnone : ((s.fabMod fun f => { f with route := routesOf f.lsdb f.member, db := f.lsdb }).setStep 5).leadChoice = none := hlead
  dsimp only
  rw [hnone]
  exact g_p_lit rfl rfl

theorem tablesReceived_taken :
    ∀ (c : CtrlHdr) (rt : RouteTable) u (s : State), Taken c s → s.rxCtrl c "TABLES" [rt.ver, rt.at_] id = u → u.takesTables c.src = true → Does (.tablesReceived c rt) s fun t => t.g DRV_BARN.LEAD = c.src ∧ t.fab.next = some rt ∧ (u.on DRV_BARN.FORMED = false → t.fab.step = 8) := by
  intro c rt u s htaken hu htakes
  subst hu
  refine does_of rfl ((State.rxCtrl_of_taken htaken ..).trans (when_of _ htakes)) ?_
  generalize s.rxCtrl c "TABLES" [rt.ver, rt.at_] id = u
  have htold : (u.fabMod fun f => { f with next := some rt, nextDb := f.lsdb }).on DRV_BARN.FORMED = u.on DRV_BARN.FORMED := rfl
  have hnext : (u.fabMod fun f => { f with next := some rt, nextDb := f.lsdb }).fab.next = some rt := rfl
  dsimp only
  generalize u.fabMod (fun f => { f with next := some rt, nextDb := f.lsdb }) = w at htold hnext
  generalize hv : (w.when _ fun s => s.setLead c.src (!s.on DRV_BARN.FORMED)) = v
  obtain ⟨hlead, hnextV, hformed⟩ := State.takeLead_done (first := fun s => !s.on DRV_BARN.FORMED) c.src.2 hv
  refine ⟨?_, ?_, fun hf => ?_⟩
  · exact g_kept (DRV_BARN.kept (State.ctrlTo_fr ..) rfl rfl) <| g_when (fun w h => (g_p_beside _ _ rfl).trans h) hlead
  · exact (State.ctrlTo_fab (g := FabS.next)).trans <| when_keeps (P := fun w : State => w.fab.next = some rt) (fun _ h => h) (hnextV.trans hnext)
  · rw [State.ctrlTo_fab (g := FabS.step), when_of _ (by rw [hformed, htold, hf]; rfl)]
    rfl

theorem tablesReceived_left :
    ∀ (c : CtrlHdr) (rt : RouteTable) u (s : State), Taken c s → s.rxCtrl c "TABLES" [rt.ver, rt.at_] id = u → u.takesTables c.src = false → Does (.tablesReceived c rt) s fun t => t = s.rxCtrl c "TABLES" [rt.ver, rt.at_] id := by
  intro c rt u s htaken hu htakes
  subst hu
  exact does_of rfl ((State.rxCtrl_of_taken htaken ..).trans (when_of_not _ htakes)) rfl

theorem tablesAckReceived_counts :
    ∀ (c : CtrlHdr) (ver : Fin 256) u (s : State), Taken c s → s.rxCtrl c "TABLES_ACK" [ver.val] id = u → u.on DRV_BARN.IS_LEAD = true → (ver.val = (match u.fab.next with | some x => x.ver | none => u.fab.table.ver)) → Does (.tablesAckReceived c ver) s fun t => c.src.val ∈ t.fab.acks := by
  intro c ver u s htaken hu hlead hver
  subst hu
  have hcount := Bool.eq_false_iff.1 (Bool.or_eq_false_iff.2 ⟨congrArg (! ·) hlead, decide_eq_false (not_not.2 hver)⟩)
  refine does_of rfl ((State.rxCtrl_of_taken htaken ..).trans (if_neg hcount)) ?_
  generalize s.rxCtrl c "TABLES_ACK" [ver.val] id = u
  have hmem : c.src.val ∈ (u.fabMod fun f => { f with acks := c.src.val :: f.acks.filter (· ≠ c.src.val) }).fab.acks := List.mem_cons_self
  exact when_keeps (P := fun w : State => c.src.val ∈ w.fab.acks) (fun _ h => h) <|
    when_keeps (P := fun w : State => c.src.val ∈ w.fab.acks) (fun _ h => (State.ctrlTo_fab (g := FabS.acks)).symm ▸ h) hmem

theorem tableSwitch_installs :
    ∀ rt (s : State), s.fab.next = some rt → rt.at_ ≤ s.yticks 4 → s.fab.failed = [] → Does .tableSwitch s fun t =>
    (let u := (((((s.fabMod fun f => { f with table := rt, next := none, db := f.nextDb }).p DRV_BARN.TABLE_VER rt.ver).installRoutes rt.main).fabMod fun f => { f with failed := [] }).hw DRV_EVT.TABLE).settleLost.helloAll.tellPens; t = u.each (((List.range 8).filter fun d => !s.reach d).filter fun d => u.reach d) fun d v => v.startResync d) := by
  intro rt s hnext hat hfailed
  refine does_of rfl ?_ rfl
  rw [hnext]
  dsimp only
  rw [if_neg (Nat.not_lt.2 hat)]
  rw [hfailed]
  dsimp only [List.filter_nil, List.any_nil, Bool.not_false, List.head?_nil]
  rw [State.fabMod_switch hfailed, State.installRoutes_failed_nil hfailed]

theorem formedBroadcast_forms :
    ∀ (ms : Nat) (s : State), s.on DRV_BARN.IS_LEAD = true → s.on DRV_BARN.FORMED = false → s.fab.step = 8 →
    ((List.range s.plan.members).all fun m => s.fab.members.any fun x => x.num = m) = true →
    Does (.formedBroadcast ms) s fun t => t.on DRV_BARN.FORMED = true ∧ t.g DRV_BARN.STEP = 0 ∧
    t.on DRV_EVT.FORMED = true ∧ (s.fab.deadline = false → t.g TOP_BOOT_TIME.CONNECT = min 65535 ms) := by
  intro ms s hlead hformed hstep hall
  refine does_of rfl (when_of _ (by simp [hlead, hformed, hstep, hall])) ?_
  obtain ⟨hf, hs, he, hc⟩ := State.formed_done (s := s.ctrlAll "FORMED" []) (ms := ms)
  refine ⟨hf, hs, he, fun hd => ?_⟩
  rw [hc, State.ctrlAll_fab (g := FabS.deadline), hd]
  rfl

theorem formedReceived_forms :
    ∀ (c : CtrlHdr) (ms : Nat) u (s : State), Taken c s → s.rxCtrl c "FORMED" [] id = u → u.on DRV_BARN.FORMED = false → Does (.formedReceived c ms) s fun t => t.on DRV_BARN.FORMED = true ∧ t.g DRV_BARN.STEP = 0 ∧ t.on DRV_EVT.FORMED = true := by
  intro c ms u s htaken hu hformed
  subst hu
  refine does_of rfl ((State.rxCtrl_of_taken htaken ..).trans (if_neg (by rw [hformed]; decide))) ?_
  obtain ⟨hf, hs, he, -⟩ := State.formed_done (s := s.rxCtrl c "FORMED" [] id) (ms := ms)
  exact ⟨hf, hs, he⟩

theorem formationDeadline_passes :
    ∀ (ms : Nat) (s : State), s.fab.deadline = false → s.on DRV_BARN.FORMED = false → s.plan.barn.isSome = true →
    Does (.formationDeadline ms) s fun t => t.g TOP_BOOT_TIME.CONNECT = min 65535 ms ∧ (s.on DRV_BARN.IS_LEAD = true →
    t.on DRV_BARN.FORMED = true) := by
  intro ms s hdeadline hformed hbarn
  refine does_of rfl (if_neg (by simp [hdeadline, hformed, Option.ne_none_iff_isSome.2 hbarn])) ?_
  generalize hu : ((s.p TOP_BOOT_TIME.CONNECT (min 65535 ms)).fabMod fun f => { f with deadline := true }) = u
  have htimeU : u.g TOP_BOOT_TIME.CONNECT = min 65535 ms := by
    rw [← hu]
    exact g_p_of_lt rfl (by show _ < 2 ^ 16; omega)
  have hlate : u.fab.deadline = true := by rw [← hu]; rfl
  have hlead : u.on DRV_BARN.IS_LEAD = s.on DRV_BARN.IS_LEAD := by
    rw [← hu]
    exact on_p_far _ _ TOP_BOOT_TIME.ix DRV_BARN.ix
  obtain ⟨hf, -, -, hc⟩ := State.formed_done (s := u.ctrlAll "FORMED" []) (ms := ms)
  rw [State.ctrlAll_fab (g := FabS.deadline), hlate, if_pos rfl] at hc
  have htime : (u.ctrlAll "FORMED" []).g TOP_BOOT_TIME.CONNECT = min 65535 ms :=
    g_kept (TOP_BOOT_TIME.kept (State.ctrlAll_fr ..) rfl rfl) htimeU
  dsimp only
  cases hl : s.on DRV_BARN.IS_LEAD with
  | true =>
    rw [when_of _ (hlead.trans hl)]
    exact ⟨hc.trans htime, fun _ => hf⟩
  | false =>
    rw [when_of_not _ (hlead.trans hl)]
    exact ⟨htimeU, fun e => absurd e (by decide)⟩

theorem linkDownNotice_reroutes :
    ∀ (c : CtrlHdr) (i : Fin 16) (s : State), Taken c s → Does (.linkDownNotice c i) s fun t =>
    (let v := s.rxCtrl c "LINK_DOWN" [i.val] id; let u := ((v.each ((v.castLinks "LINK_DOWN").filter fun k => ((v.entryOf k).map (·.2)) = some i.val) fun k w => w.cutLink k i).entryFailed i).settleLost; t = if u.on DRV_BARN.IS_LEAD then u.pushTables else u) := by
  intro c i s htaken
  exact does_of rfl (State.rxCtrl_of_taken htaken ..) rfl

theorem reseedReceived_keeps :
    ∀ (c : CtrlHdr) (seed : Fin (2 ^ 64)) (s : State), Taken c s → Does (.reseedReceived c seed) s fun t =>
    t.fab.seed = some seed.val := by
  intro c seed s htaken
  exact does_of rfl (State.rxCtrl_of_taken htaken ..) rfl

theorem loadReceived_taken :
    ∀ (c : CtrlHdr) (loads : List Nat) (s : State), Taken c s → Does (.loadReceived c loads) s fun t =>
    t = s.rxCtrl c "LOAD" loads id := by
  intro c loads s htaken
  exact does_of rfl (State.rxCtrl_of_taken htaken ..) rfl

theorem rebalanceWindow_shows :
    ∀ (s : State), s.domOn dFAB = true → Does .rebalanceWindow s fun t => ∀ k, k < 4 →
    t.g (DRV_LOAD.BALES k) = (s.lk k).load % 2 ^ (DRV_LOAD.BALES k).width := by
  intro s hon
  refine does_of rfl (if_neg (by rw [hon]; decide)) fun k hk => ?_
  obtain ⟨v, hv⟩ : ∃ v, (s.lk k).load % 2 ^ (DRV_LOAD.BALES k).width = v := ⟨_, rfl⟩
  rw [hv]
  have hshown : (s.each [0, 1, 2, 3] fun k s => (s.p (DRV_LOAD.BALES k) (s.lk k).load).lkMod k fun l => { l with load := 0 }).Shows k v :=
    ⟨hk, (s.loads_shown hk).trans hv⟩
  dsimp only
  generalize (s.each [0, 1, 2, 3] fun k s => (s.p (DRV_LOAD.BALES k) (s.lk k).load).lkMod k fun l => { l with load := 0 }) = s at hshown ⊢
  have hshown := (State.ctrlAll_fr s "LOAD" ([0, 1, 2, 3].map fun k => s.g (DRV_LOAD.BALES k))).shows rfl rfl hshown
  generalize s.ctrlAll "LOAD" _ = s at hshown ⊢
  have hshown := (State.setFlows_fr s (s.fab.flows.map fun r => { r with lastBales := r.bales, bales := 0 })).shows rfl rfl hshown
  generalize s.setFlows _ = s at hshown ⊢
  have hshown := hshown.fabMod (f := fun f => { f with frozen := (f.frozen.map fun x => (x.1, x.2 - 1)).filter fun x => x.2 > 0 })
  generalize s.fabMod _ = s at hshown ⊢
  refine ((State.reseedIdle_fr ..).shows rfl rfl <| foldl_keeps (P := fun a : Nat × State => a.2.Shows k v)
    (fun a d h => State.Shows.ite h ((State.rebalance_fr ..).shows rfl rfl h)) _ _ ?_).load
  refine State.Shows.pFar DRV_REBAL.ix rfl ?_
  split
  · exact hshown
  · exact (State.finishPend_fr ..).shows rfl rfl <| (State.setFlows_fr ..).shows rfl rfl <| State.Shows.fabMod <|
      State.Shows.hwFar DRV_EVT.ix rfl <| State.Shows.pFar DRV_SEED_HI.ix rfl <| State.Shows.pFar DRV_SEED_LO.ix rfl hshown

/-- Settles O29: a HELLO isolates its link or brings it into service, which no clash of its own peer then isolates; the lead keeps its office while it confirms the claims; what follows a control message keeps the fields of the drover its clause names. -/
theorem barnComplete : Obligations.BarnComplete := by
  unfold Obligations.BarnComplete
  exact ⟨helloReceived_isolates, helloReceived_serves, lsaReceived_learns, floodingRoundEnd_again,
    floodingRoundEnd_elects, floodingRoundEnd_alone, tablesReceived_taken, tablesReceived_left,
    tablesAckReceived_counts, tableSwitch_installs, formedBroadcast_forms, formedReceived_forms,
    formationDeadline_passes, linkDownNotice_reroutes, reseedReceived_keeps, loadReceived_taken,
    rebalanceWindow_shows⟩
end Sys2Proof.Machine
